-- ==== Sys2Proof/Word.lean ====
section
/-!
DEFINITION. The two word types of the block (19_register_plan.md: every register is 32 bits wide; packets are bytes).
-/
namespace Sys2Proof

/-- A register word (R415). -/
abbrev Word := BitVec 32

/-- One byte of a packet, a table or device memory. -/
abbrev Byte := BitVec 8

end Sys2Proof
end

