-- ==== Sys2Proof/Types.lean ====
section
/-!
DEFINITION. The operand records of the commands: what a sender, a pin, a link partner or a unit's own sensor
supplies when a row of the table happens.
-/
namespace Sys2Proof

/-- What put the device into BOOTING (R106, R353). -/
inductive ResetCause where
  | powerOn | resetN
  deriving DecidableEq, Repr

/-- What the boot of Table 15-1 finds: the straps (R356, R409), the engines that fail self-test as physical numbers
17 c + p (R355), the DRAM channels that fail training (R355), the regulator phases that fail their test (R393),
the firmware slots whose signature does not verify (R354: 0 A, 1 B), and the boot's duration. -/
structure BootEnv where
  chainId   : Nat := 0
  chainW    : Nat := 0
  failed    : List Nat := []
  badDram   : List Nat := []
  badPhases : List Nat := []
  badSlots  : List Nat := []
  bootMs    : Nat := 0
  deriving DecidableEq, Repr

/-- An accepted command's header as its execution needs it (Table 04-1, R80): the session and tag of its slot, its
sequence number, the two flags and, under LOCKED, the lock it names. -/
structure Rq where
  sess      : Nat
  tag       : Nat
  seq       : Nat := 0
  needReply : Bool := true
  immediate : Bool := false
  lock      : Option Nat := none
  deriving DecidableEq, Repr

/-- Where a command packet comes from (chapter 04): a host ring, an Ethernet datagram (source address and port),
or Heruf-C (origin device and origin session, R94). -/
inductive PktSrc where
  | ring (r : Nat)
  | eth (ip port : Nat)
  | chain (dev sess : Nat)
  deriving DecidableEq, Repr

/-- One entry of MODIFY_REG (Table 04-7). -/
structure RegEntry where
  addr  : Nat
  mask  : Word
  value : Word
  deriving DecidableEq, Repr

/-- One chunk in the table-load form of R104. -/
structure Chunk where
  inst   : Nat
  flags  : Nat
  offset : Nat
  total  : Nat
  data   : List Byte
  deriving DecidableEq, Repr

/-- The assignment of a half cluster (R24). -/
inductive Half where
  | print | inspect | free
  deriving DecidableEq, Repr

/-- The two paths that read registers, each with its own _HI latch (R418). -/
inductive Path where
  | bar0 | cmd
  deriving DecidableEq, Repr

/-- The traffic classes of R52, lowest first; with the default slot map a class's number is its input. -/
inductive Traffic where
  | background | ingest | expansion | analysis | loop | control | capture | fire
  deriving DecidableEq, Repr

/-- A request at an arbiter (R52): a client's burst that enters at its junction by its class; a burst or a response at
the input number that it carries; or lane traffic at a lane group mux. A client is known by its number at that arbiter. -/
inductive ArbReq where
  | enter (cls : Traffic) (client : Nat)
  | carried (input client : Nat)
  | lineFrame (client : Nat)
  | laneControl (client : Nat)
  | ring (cls : Traffic) (client : Nat)
  deriving DecidableEq, Repr

/-- What the Spinning Top reads in one interval (R37, R41): the measured VCORE in mV, the die temperature, and the
speed of each cluster's canary in per-mille of SLOW. -/
structure PaceMeas where
  vcore  : Nat
  tj     : Int
  speeds : List Nat
  deriving DecidableEq, Repr

/-- How the checks on a slice or a frame came out (R149 to R151): all passed; a failed check whose re-run passed; a
failed re-run whose replacement engine passed; or no passing result before the frame was needed. The cause is that of
DOSE_FAIL.CAUSE (Table 06-21); the engines are those of the failed run. -/
inductive CheckRun where
  | pass
  | rerun (cause : Nat)
  | takeover (cause engine : Nat)
  | blank (cause engA engB : Nat)
  deriving DecidableEq, Repr

/-- One exchange with a serial position sensor (R267): whether the data line idled high before the word, the bits
sampled, and whether the line returned high within TIMEOUT. -/
structure SsiWord where
  idle    : Bool
  bits    : List Bool
  endHigh : Bool
  deriving DecidableEq, Repr

/-- The kinds of PTP message that a port tells apart (R290). -/
inductive PtpKind where
  | sync | followUp | delayResp | pdelayResp | pdelayFollowUp | announce | management | other
  deriving DecidableEq, Repr

/-- How a PTP message travelled (R290): UDP over IPv4, IEEE 802.3 with Ethertype 0x88F7, or a way that is not supported. -/
inductive PtpTransport where
  | udpIpv4 | ieee8023 | other
  deriving DecidableEq, Repr

/-- The fields of a received PTP message that the device uses (R290, R291), stamps as (seconds, ns), and what the PTP
firmware makes of it: whether its sender is the master that the best-master algorithm selects, the state of the port,
and the measured offset when it completes a measurement. -/
structure PtpMsg where
  kind         : PtpKind
  version      : Nat := 2
  minorVersion : Nat := 0
  transport    : PtpTransport := .udpIpv4
  vlanTags     : Nat := 0
  domainNum    : Nat := 0
  /-- the sourcePortIdentity -/
  source       : Nat := 0
  twoStep      : Bool := false
  /-- the time stamp it carries: when a Sync or a Pdelay_Resp left its sender, when a Delay_Req reached it -/
  stamp        : Nat × Nat := (0, 0)
  /-- requestReceiptTimestamp of a Pdelay_Resp -/
  requestStamp : Nat × Nat := (0, 0)
  /-- when this port's own request crossed its stamp point, before the correction by TX_LAT -/
  sent         : Nat × Nat := (0, 0)
  correction   : Int := 0
  sequenceId   : Nat := 0
  logInterval  : Int := 0
  selected     : Bool := true
  portState    : Nat := 3
  offset       : Option Int := none
  utcOffset    : Option Nat := none
  deriving DecidableEq, Repr

/-- A received Ethernet frame as the MAC delivers it (R89, R349, R350). -/
structure EthFrame where
  dstMac    : Nat
  etherType : Nat
  fcsOk     : Bool := true
  fits      : Bool := true
  len       : Nat := 64
  tags      : Nat := 0
  proto     : Nat := 0
  ipOptions : Bool := false
  fragment  : Bool := false
  srcIp     : Nat := 0
  dstIp     : Nat := 0
  srcPort   : Nat := 0
  dstPort   : Nat := 0
  payload   : List Byte := []
  deriving DecidableEq, Repr

/-- A fault found in a stored code word (R317): the word's index (address / 16), the symbol and the pattern XORed
into it. -/
structure SymErr where
  word    : Nat
  symbol  : Nat
  pattern : Nat
  deriving DecidableEq, Repr

/-- One access group (R304, R310, R317): the logical address, the arbiter input, the bytes to write or the count to
read, and the upsets the stored words have taken since they were last seen. -/
structure MemAccess where
  addr   : Nat
  input  : Nat
  len    : Nat
  write  : Option (List Byte) := none
  upsets : List SymErr := []
  deriving DecidableEq, Repr

/-- A read of a record ring's consumer index (R235): the index, or a failure: 1 completion timeout, 2 Unsupported Request,
3 Completer Abort, 4 poisoned completion. -/
inductive IndexRead where
  | index (i : Nat)
  | failed (kind : Nat)
  deriving DecidableEq, Repr

/-- The endpoint resets of R347. -/
inductive PcieReset where
  | flr | perst | hotReset | linkDisable | linkDown
  deriving DecidableEq, Repr

end Sys2Proof
end

