-- ==== Sys2Proof/Syntax.lean ====
section
/-!
DEFINITION. The commands of the block: one constructor per row of opcode_table.json, in the table's order, each with
the rule that governs it and the operands its step takes.
-/
namespace Sys2Proof

/-- A row of the table. A constructor with `rq` is the execution of an accepted command packet (steps 12 to 15 of Table
04-3); the others are happenings inside the block or at its pins. -/
inductive Instr where
  /-- DEVICE_RESET (R353). -/
  | deviceReset (cause : ResetCause) (env : BootEnv)
  /-- SUPPLY_SHUTDOWN (R389). -/
  | supplyShutdown (cause : Nat)
  /-- SUPPLY_RESTART (R389). -/
  | supplyRestart (env : BootEnv)
  /-- REVERSE_BLOCK (R391). -/
  | reverseBlock
  /-- PHASE_DISABLE (R393). -/
  | phaseDisable (phase : Nat)
  /-- ZONE_FAULT (R396). -/
  | zoneFault (group line : Nat)
  /-- COMMAND_PACKET (R82). -/
  | commandPacket (src : PktSrc) (bytes : List Byte)
  /-- DB_CMD (R97). -/
  | dbCmd (ring idx : Nat)
  /-- DB_RPL (R98). -/
  | dbRpl (ring idx : Nat)
  /-- DB_FETCH (R86). -/
  | dbFetch (ring value : Nat)
  /-- REPLY_RING_STALL_TIMEOUT (R98). -/
  | replyRingStallTimeout (ring : Nat)
  /-- CMD_RING_ENABLE_WRITE (R99). -/
  | cmdRingEnableWrite (ring : Nat) (enable : Bool)
  /-- ETH_SESSION_IDLE_TIMEOUT (R92). -/
  | ethSessionIdleTimeout (sess : Nat)
  /-- KEY_LOCKOUT_END (R91). -/
  | keyLockoutEnd (slot : Nat)
  /-- BARRIER_ENGAGE (R20). -/
  | barrierEngage
  /-- NOP (R105). -/
  | nop (rq : Rq)
  /-- GET_STATE (R105). -/
  | getState (rq : Rq)
  /-- REPLY_FETCH (R86). -/
  | replyFetch (rq : Rq) (tag : Nat)
  /-- READ_REG (R419). -/
  | readReg (rq : Rq) (addr count : Nat)
  /-- WRITE_REG (R102). -/
  | writeReg (rq : Rq) (addr : Nat) (vals : List Word)
  /-- MODIFY_REG (R103). -/
  | modifyReg (rq : Rq) (entries : List RegEntry)
  /-- LOCK_ACQUIRE (R73). -/
  | lockAcquire (rq : Rq) (lock waitMs : Nat)
  /-- LOCK_WAIT_TIMEOUT (R73). -/
  | lockWaitTimeout (lock sess : Nat)
  /-- LOCK_RELEASE (R72). -/
  | lockRelease (rq : Rq) (lock : Nat)
  /-- LOCK_HOLD_EXPIRY (R72). -/
  | lockHoldExpiry (lock : Nat)
  /-- LOCK_HOLD_LIMIT_WRITE (R72). -/
  | lockHoldLimitWrite (lock limit : Nat)
  /-- ENGINE_LOCK_REQUEST (R73). -/
  | engineLockRequest (engine lock : Nat) (cls : Traffic)
  /-- SESSION_OPEN (R90). -/
  | sessionOpen (ip port : Nat) (rq : Rq) (payload : List Byte)
  /-- SESSION_CLOSE (R93). -/
  | sessionClose (rq : Rq) (sess : Nat)
  /-- KEY_SET (R91). -/
  | keySet (rq : Rq) (slot : Nat) (key : List Byte)
  /-- CONFIG_LOAD (R106). -/
  | configLoad (rq : Rq) (chunk : Chunk) (assign : Option (List Half))
  /-- CONFIG_CHECK (R425). -/
  | configCheck (rq : Rq) (chunk : Chunk) (assign : Option (List Half))
  /-- SERVICE_ENTER (R106). -/
  | serviceEnter (rq : Rq)
  /-- SERVICE_EXIT (R106). -/
  | serviceExit (rq : Rq)
  /-- SLEEP (R399). -/
  | sleep (rq : Rq)
  /-- SLEEP_ENTRY_COMPLETE (R399). -/
  | sleepEntryComplete
  /-- WAKE (R401). -/
  | wake (rq : Rq)
  /-- WAKE_PIN (R401). -/
  | wakePin
  /-- WAKE_COMPLETE (R401). -/
  | wakeComplete (stepFailed : Bool)
  /-- JOB_OPEN (R107). -/
  | jobOpen (rq : Rq) (job mask : Nat)
  /-- PAGE_SUBMIT (R127). -/
  | pageSubmit (rq : Rq) (page ch len : Nat)
  /-- PAGE_SUBMIT_START (R127). -/
  | pageSubmitStart
  /-- PAGE_REPEAT (R128). -/
  | pageRepeat (rq : Rq) (handle count : Nat)
  /-- JOB_CLOSE (R130). -/
  | jobClose (rq : Rq) (job : Nat)
  /-- ARM (R144). -/
  | arm (rq : Rq) (job : Nat)
  /-- START (R163). -/
  | start (rq : Rq) (pos : Int)
  /-- PAUSE (R163). -/
  | pause (rq : Rq)
  /-- RESUME (R163). -/
  | resume (rq : Rq) (pos : Int)
  /-- STOP (R163). -/
  | stop (rq : Rq)
  /-- BAR_DELAY_SET (R157). -/
  | barDelaySet (rq : Rq) (bar delay : Nat)
  /-- NOZZLE_MAP_LOAD (R137). -/
  | nozzleMapLoad (rq : Rq) (chunk : Chunk)
  /-- THRESHOLD_LOAD (R143). -/
  | thresholdLoad (rq : Rq) (chunk : Chunk)
  /-- SUBSTITUTE_SET (R143). -/
  | substituteSet (rq : Rq) (chunk : Chunk)
  /-- TONE_CURVE_LOAD (R143). -/
  | toneCurveLoad (rq : Rq) (chunk : Chunk)
  /-- GAIN_LOAD (R143). -/
  | gainLoad (rq : Rq) (chunk : Chunk)
  /-- BOARD_PROFILE_LOAD (R166). -/
  | boardProfileLoad (rq : Rq) (chunk : Chunk)
  /-- GATE_TEST (R185). -/
  | gateTest (rq : Rq) (gate board first count : Nat)
  /-- GATE_SHOT (R186). -/
  | gateShot (gate : Nat) (baseline samples : List Nat) (check : CheckRun)
  /-- CAMERA_SET (R199). -/
  | cameraSet (rq : Rq) (port ident expo gain : Nat)
  /-- CAMERA_SET_TRANSFER (R199). -/
  | cameraSetTransfer (port : Nat)
  /-- SENSOR_TRANSFER_END (R200). -/
  | sensorTransferEnd (port : Nat) (bytesIn : List Byte)
  /-- SENSOR_XFER (R201). -/
  | sensorXfer (rq : Rq) (port : Nat) (bytesOut : List Byte)
  /-- COLOUR_MODEL_LOAD (R227). -/
  | colourModelLoad (rq : Rq) (chunk : Chunk)
  /-- COVERAGE_LOAD (R227). -/
  | coverageLoad (rq : Rq) (chunk : Chunk)
  /-- BLUR_LOAD (R227). -/
  | blurLoad (rq : Rq) (chunk : Chunk)
  /-- RESAMPLE_COEF_LOAD (R220). -/
  | resampleCoefLoad (rq : Rq) (chunk : Chunk)
  /-- CLASS_SET (R231). -/
  | classSet (rq : Rq) (chunk : Chunk)
  /-- RECORD_RING_SET (R235). -/
  | recordRingSet (rq : Rq) (ring vector addr size : Nat)
  /-- NOZZLE_STATE_SET (R248). -/
  | nozzleStateSet (rq : Rq) (idx state hold : Nat)
  /-- NOZZLE_STATE_READ (R105). -/
  | nozzleStateRead (rq : Rq) (first count : Nat)
  /-- AXIS_MOVE (R271). -/
  | axisMove (rq : Rq) (axis mode : Nat) (target : Int) (speed : Nat)
  /-- AXIS_STOP (R279). -/
  | axisStop (rq : Rq) (axis ramp : Nat)
  /-- AXIS_HOME (R277). -/
  | axisHome (rq : Rq) (axis dir : Nat)
  /-- AXIS_PROFILE_SET (R280). -/
  | axisProfileSet (rq : Rq) (axis acc dec jerk : Nat)
  /-- MICROSTEP_LOAD (R272). -/
  | microstepLoad (rq : Rq) (chunk : Chunk)
  /-- POS_REFERENCE (R266). -/
  | posReference (rq : Rq) (enc : Nat) (pos : Int)
  /-- AXIS_STATUS (R105). -/
  | axisStatus (rq : Rq) (axis : Nat)
  /-- TIME_READ (R285). -/
  | timeRead (rq : Rq) (dom : Nat)
  /-- TIME_ADJUST (R284). -/
  | timeAdjust (rq : Rq) (dom inc : Nat) (adj : Int)
  /-- DOMAIN_SELECT (R286). -/
  | domainSelect (rq : Rq) (dom : Nat)
  /-- EVENT_FIRE (R298). -/
  | eventFire (rq : Rq) (sw : Nat)
  /-- FW_STAGE (R377). -/
  | fwStage (rq : Rq) (chunk : Chunk)
  /-- FW_SWITCH (R378). -/
  | fwSwitch (rq : Rq)
  /-- FW_HANDOVER (R378). -/
  | fwHandover
  /-- FW_FALLBACK_END (R378). -/
  | fwFallbackEnd
  /-- KERNEL_ROTATION_STEP (R379). -/
  | kernelRotationStep
  /-- SPARE_STATUS (R105). -/
  | spareStatus (rq : Rq)
  /-- CAL_RUN (R382). -/
  | calRun (rq : Rq) (kind inst : Nat)
  /-- DARK_CAL_DONE (R207). -/
  | darkCalDone (port : Nat)
  /-- PAPER_CAL_DONE (R209). -/
  | paperCalDone (port : Nat)
  /-- CAL_READ (R382). -/
  | calRead (rq : Rq) (kind inst start : Nat)
  /-- CAL_STORE_PERIODIC (R242). -/
  | calStorePeriodic
  /-- FAULT_LOG_READ (R383). -/
  | faultLogRead (rq : Rq) (first : Nat)
  /-- FAULT_LOG_COPY (R383). -/
  | faultLogCopy
  /-- MON_BINS_LOAD (R385). -/
  | monBinsLoad (rq : Rq) (chunk : Chunk)
  /-- MON_SNAPSHOT (R387). -/
  | monSnapshot (rq : Rq) (mask start : Nat)
  /-- CHAIN_STATUS (R361). -/
  | chainStatus (rq : Rq)
  /-- CHAIN_RESCAN (R366). -/
  | chainRescan (rq : Rq)
  /-- BAR0_WRITE (R101). -/
  | bar0Write (addr : Nat) (value : Word) (be : Nat)
  /-- READ_CLEAR (R9). -/
  | readClear (path : Path) (addr : Nat)
  /-- LO_LATCH_READ (R418). -/
  | loLatchRead (path : Path) (addr : Nat)
  /-- ARBITER_GRANT (R54). -/
  | arbiterGrant (net : Bool) (arb : Nat) (reqs : List ArbReq)
  /-- ARBITER_STUCK (R78). -/
  | arbiterStuck (arb input : Nat) (cmd : Option Rq)
  /-- ARB_FAIRNESS_WRITE (R62). -/
  | arbFairnessWrite (junction mode : Nat)
  /-- PACE_INTERVAL (R37). -/
  | paceInterval (meas : PaceMeas)
  /-- FIT_RETURN (R48). -/
  | fitReturn
  /-- TJ_OVER (R42). -/
  | tjOver (tj : Int)
  /-- VCORE_LOW (R42). -/
  | vcoreLow
  /-- PACE_MODE_WRITE (R44). -/
  | paceModeWrite (mode : Nat)
  /-- PACE_VCAP_WRITE (R46). -/
  | paceVcapWrite (mv : Nat)
  /-- DMA_RUN (R110). -/
  | dmaRun (ch : Nat)
  /-- DMA_ABORT (R114). -/
  | dmaAbort (ch : Nat)
  /-- DMA_DESCRIPTOR_FETCH (R111). -/
  | dmaDescriptorFetch (ch : Nat) (bytes : List Byte)
  /-- DMA_DESCRIPTOR_COMPLETE (R112). -/
  | dmaDescriptorComplete (ch : Nat) (data : List Byte)
  /-- PCIE_COMPLETION_ERROR (R116). -/
  | pcieCompletionError (kind addr : Nat) (batch : List Nat)
  /-- PCIE_COMPLETION_TIMEOUT (R346). -/
  | pcieCompletionTimeout (addr : Nat) (batch : List Nat)
  /-- DMA_BUS_HALT_CLEAR (R117). -/
  | dmaBusHaltClear
  /-- KPS_JOB_HEADER (R118). -/
  | kpsJobHeader (ch : Nat) (bytes : List Byte)
  /-- KPS_PAGE_HEADER (R126). -/
  | kpsPageHeader (ch : Nat) (bytes : List Byte)
  /-- KPS_BLOCK (R119). -/
  | kpsBlock (ch : Nat) (bytes : List Byte)
  /-- KPS_TRAILER (R120). -/
  | kpsTrailer (ch : Nat) (bytes : List Byte)
  /-- SEGMENT_ASSIGN (R123). -/
  | segmentAssign
  /-- SEGMENT_SWITCH (R123). -/
  | segmentSwitch (unit : Nat)
  /-- SEGMENT_COMPLETE (R123). -/
  | segmentComplete (unit : Nat)
  /-- DCMP_ENABLE_WRITE (R123). -/
  | dcmpEnableWrite (unit : Nat) (enable : Bool)
  /-- COMPRESS_STREAM_START (R132). -/
  | compressStreamStart (unit : Nat)
  /-- COMPRESS_STREAM_END (R133). -/
  | compressStreamEnd (unit : Nat)
  /-- SLICE_EXPAND (R139). -/
  | sliceExpand (bar : Nat) (check : CheckRun)
  /-- FRAME_ASSEMBLE (R153). -/
  | frameAssemble (bar : Nat) (checks : List (Nat × CheckRun))
  /-- DOSE_SWAP_REQUEST (R145). -/
  | doseSwapRequest (bar : Nat)
  /-- DOSE_SWAP (R146). -/
  | doseSwap (bar : Nat)
  /-- LINE_TRANSMIT (R171). -/
  | lineTransmit (board : Nat)
  /-- DECISION_POINT (R172). -/
  | decisionPoint (board : Nat)
  /-- FIRE_STROBE (R162). -/
  | fireStrobe (board : Nat)
  /-- STROBE_FALL (R162). -/
  | strobeFall (board : Nat)
  /-- STROBE_WATCHDOG (R178). -/
  | strobeWatchdog (board : Nat)
  /-- ECHO (R176). -/
  | echo (board : Nat) (bytes : List Byte)
  /-- ECHO_TIMEOUT (R175). -/
  | echoTimeout (board : Nat)
  /-- CREDIT (R169). -/
  | credit (board : Nat) (bytes : List Byte)
  /-- HELLO_REPLY (R165). -/
  | helloReply (board : Nat) (bytes : List Byte)
  /-- HELLO_REPEAT (R170). -/
  | helloRepeat (board : Nat)
  /-- BOARD_ENABLE_WRITE (R174). -/
  | boardEnableWrite (board : Nat) (enable : Bool)
  /-- FIRE_CLEAR (R178). -/
  | fireClear (board : Nat)
  /-- YOYO_INTERVAL (R179). -/
  | yoyoInterval
  /-- ENERGY_CAP_EXPIRY (R179). -/
  | energyCapExpiry
  /-- SPDRQ_WORD (R180). -/
  | spdrqWord
  /-- FIRE_TOS (R164). -/
  | fireTos (bar : Nat)
  /-- CAMERA_TRIGGER (R192). -/
  | cameraTrigger (port : Nat)
  /-- FRAME_OPEN (R190). -/
  | frameOpen (port : Nat)
  /-- FRAME_CLOSE (R190). -/
  | frameClose (port : Nat)
  /-- CAMERA_PORT_LINE (R191). -/
  | cameraPortLine (port : Nat) (samples : List Nat)
  /-- CAP_ENABLE_WRITE (R190). -/
  | capEnableWrite (port : Nat) (enable : Bool)
  /-- STRIPE_PROCESS (R203). -/
  | stripeProcess (pipe : Nat)
  /-- GAIN_SET_COMPUTE (R209). -/
  | gainSetCompute (port : Nat)
  /-- KAL_PDAT_WRITE (R213). -/
  | kalPdatWrite (pipe : Nat) (value : Word)
  /-- KAL_APPLY (R213). -/
  | kalApply (pipe : Nat)
  /-- RESAMPLE_LINE (R217). -/
  | resampleLine (port : Nat)
  /-- RSMP_PDAT_WRITE (R216). -/
  | rsmpPdatWrite (unit : Nat) (value : Word)
  /-- RSMP_APPLY (R216). -/
  | rsmpApply (unit : Nat)
  /-- RSMP_SWAP (R221). -/
  | rsmpSwap (unit : Nat)
  /-- GRID_LINE_COMPARE (R222). -/
  | gridLineCompare
  /-- FRAME_STATISTICS (R238). -/
  | frameStatistics (port : Nat)
  /-- RECORD_DELIVER (R235). -/
  | recordDeliver (ring : Nat)
  /-- CONSUMER_INDEX_POLL (R235). -/
  | consumerIndexPoll (ring : Nat) (result : IndexRead)
  /-- RECORD_RING_FULL_TIMEOUT (R235). -/
  | recordRingFullTimeout (ring : Nat)
  /-- FINDING_APPLY (R247). -/
  | findingApply
  /-- LOOP_SWAP_STAGE (R251). -/
  | loopSwapStage (bar : Nat)
  /-- LOOP_LATE (R252). -/
  | loopLate (bar : Nat)
  /-- LOOP_EN_WRITE (R250). -/
  | loopEnWrite (mask : Nat)
  /-- MOD_LIMIT_WRITE (R249). -/
  | modLimitWrite (limit : Nat)
  /-- QUAD_STEP (R256). -/
  | quadStep (enc : Nat) (a b : Bool) (samples : Nat)
  /-- QUAD_DOUBLE_STEP (R260). -/
  | quadDoubleStep (enc samples : Nat)
  /-- INDEX_EDGE (R262). -/
  | indexEdge (enc samples : Nat)
  /-- STILL_TIMEOUT (R265). -/
  | stillTimeout (enc : Nat)
  /-- SSI_READ (R267). -/
  | ssiRead (unit : Nat) (word : SsiWord)
  /-- AXIS_UPDATE (R270). -/
  | axisUpdate (axis : Nat)
  /-- AXIS_HOLD_CURRENT (R272). -/
  | axisHoldCurrent (axis : Nat)
  /-- FOLLOW_STEP (R274). -/
  | followStep (axis : Nat)
  /-- FOLLOW_WRITE (R274). -/
  | followWrite (axis : Nat) (value : Bool)
  /-- SWITCH_ACCEPT (R276). -/
  | switchAccept (sw : Nat) (level : Bool) (us : Nat)
  /-- AXIS_STAGE_FAULT (R279). -/
  | axisStageFault (axis : Nat)
  /-- AXIS_ENABLE_WRITE (R279). -/
  | axisEnableWrite (axis : Nat) (value : Bool)
  /-- DOMAIN_PPS (R292). -/
  | domainPps (dom : Nat)
  /-- ALARM_ARM (R292). -/
  | alarmArm (dom ns : Nat)
  /-- ALARM_FIRE (R292). -/
  | alarmFire (dom : Nat)
  /-- PERIODIC (R292). -/
  | periodic (unit : Nat)
  /-- SOURCE_ABSENT (R288). -/
  | sourceAbsent
  /-- PTP_MESSAGE (R290). -/
  | ptpMessage (port : Nat) (msg : PtpMsg)
  /-- ETH_FRAME_RECEIVE (R350). -/
  | ethFrameReceive (port : Nat) (frame : EthFrame)
  /-- EVENT_RAISE (R294). -/
  | eventRaise (prod : Nat) (tag : Option Nat)
  /-- PIN_EDGE (R301). -/
  | pinEdge (pin : Nat) (level : Bool) (ns : Nat)
  /-- PIN_PULSE (R301). -/
  | pinPulse (pin : Nat)
  /-- TSCAP_CAPTURE (R303). -/
  | tscapCapture (unit : Nat)
  /-- TSCAP_RELEASE (R303). -/
  | tscapRelease (path : Path)
  /-- WAKE_EVENT (R401). -/
  | wakeEvent
  /-- AXIS_ESTOP (R279). -/
  | axisEstop (axis : Nat)
  /-- PRINT_PAUSE (R163). -/
  | printPause
  /-- PRINT_STOP (R163). -/
  | printStop
  /-- MON_SNAPSHOT_EVENT (R387). -/
  | monSnapshotEvent
  /-- MON_RESTART (R386). -/
  | monRestart
  /-- DET_REFRESH (R311). -/
  | detRefresh (ch : Nat)
  /-- BANK_REFRESH (R312). -/
  | bankRefresh (ch bank : Nat)
  /-- SELF_REFRESH_ENTRY (R312). -/
  | selfRefreshEntry (ch : Nat)
  /-- IMPEDANCE_CAL (R313). -/
  | impedanceCal (ch : Nat)
  /-- RETRAINING (R313). -/
  | retraining (ch : Nat)
  /-- MEMORY_ACCESS (R317). -/
  | memoryAccess (acc : MemAccess)
  /-- THROTTLE_RELEASE (R314). -/
  | throttleRelease (ch : Nat)
  /-- SCRUB_READ (R319). -/
  | scrubRead
  /-- STACK_EMERGENCY (R315). -/
  | stackEmergency (stack : Nat) (temp : Int)
  /-- MEM_DET_WRITE (R305). -/
  | memDetWrite (d : Nat)
  /-- MEM_INJECT (R323). -/
  | memInject (value : Word)
  /-- CHK_FEED (R325). -/
  | chkFeed (unit : Nat) (value : Word)
  /-- CHK_CHECK (R326). -/
  | chkCheck (unit : Nat)
  /-- CHK_RESET (R324). -/
  | chkReset (unit : Nat)
  /-- CHK_DATA_WRITE (R327). -/
  | chkDataWrite (unit : Nat) (value : Word)
  /-- CHK_DATA_READ (R327). -/
  | chkDataRead (path : Path) (unit : Nat)
  /-- LANE_TARGET_WRITE (R337). -/
  | laneTargetWrite (lane target : Nat)
  /-- EQ_ADAPT (R336). -/
  | eqAdapt (lane : Nat) (foms : List Nat)
  /-- LANE_LOCK (R334). -/
  | laneLock (lane : Nat) (bits : List Bool)
  /-- LANE_LOCK_LOSS (R334). -/
  | laneLockLoss (lane : Nat) (words : List (BitVec 66))
  /-- LINK_READY (R335). -/
  | linkReady (lane : Nat) (blk : List Byte)
  /-- LINK_RATE_REQ (R338). -/
  | linkRateReq (lane : Nat) (blk : List Byte)
  /-- LINK_RATE_ACK (R338). -/
  | linkRateAck (lane : Nat) (blk : List Byte)
  /-- RATE_REQ_TIMEOUT (R338). -/
  | rateReqTimeout (lane : Nat)
  /-- LINK_ALIGN (R342). -/
  | linkAlign (lane : Nat) (blk : List Byte) (pos : Nat)
  /-- TAKEOVER_START (R339). -/
  | takeoverStart (group : Nat)
  /-- TAKEOVER_SWITCH (R339). -/
  | takeoverSwitch (group : Nat) (comparePass : Bool)
  /-- TAKEOVER_TIMEOUT (R340). -/
  | takeoverTimeout (group : Nat)
  /-- TAKEOVER_RECAL_DONE (R339). -/
  | takeoverRecalDone (group : Nat) (ok : Bool)
  /-- PCIE_RESET (R347). -/
  | pcieReset (kind : PcieReset)
  /-- MSIX_UNMASK (R344). -/
  | msixUnmask (vector : Nat)
  /-- CHAIN_DISCOVERY (R360). -/
  | chainDiscovery
  /-- TOKEN (R360). -/
  | token (west : Bool) (bytes : List Byte)
  /-- LEADER (R361). -/
  | leader (west : Bool) (bytes : List Byte)
  /-- RING_TIME_SEND (R362). -/
  | ringTimeSend
  /-- TIME (R362). -/
  | time (west : Bool) (bytes : List Byte)
  /-- DELAY_REQ (R362). -/
  | delayReq (west : Bool) (bytes : List Byte)
  /-- DELAY_RESP (R362). -/
  | delayResp (west : Bool) (bytes : List Byte)
  /-- POSITION_SEND (R363). -/
  | positionSend
  /-- POSITION (R363). -/
  | position (west : Bool) (bytes : List Byte)
  /-- POSITION_TIMEOUT (R363). -/
  | positionTimeout
  /-- CONFIG (R364). -/
  | config (west : Bool) (bytes : List Byte)
  /-- CHAIN_STANDBY_ENTRY (R364). -/
  | chainStandbyEntry
  /-- CMD (R94). -/
  | cmd (west : Bool) (bytes : List Byte)
  /-- REPLY (R94). -/
  | reply (west : Bool) (bytes : List Byte)
  /-- CHAIN_CREDIT (R359). -/
  | chainCredit (west : Bool) (bytes : List Byte)
  /-- CHAIN_LINK_LOSS (R368). -/
  | chainLinkLoss (west : Bool)
  /-- ENGINE_DOZE (R398). -/
  | engineDoze (engine : Nat)
  /-- ENGINE_UNDOZE (R398). -/
  | engineUndoze (engine : Nat)
  /-- SPARE_TAKEOVER (R374). -/
  | spareTakeover (engine cause : Nat) (blank : Bool)
  /-- SUPERVISOR_TAKEOVER (R376). -/
  | supervisorTakeover (cause : Nat) (standby : Bool)
  /-- MONITOR_SAMPLE (R384). -/
  | monitorSample (unit : Nat) (value : Int)
  /-- MONITOR_WINDOW_END (R386). -/
  | monitorWindowEnd (unit : Nat)
  /-- MONITOR_CONFIG_WRITE (R386). -/
  | monitorConfigWrite (unit reg : Nat) (value : Word)
  /-- STACK_EMERGENCY_END (R315). -/
  | stackEmergencyEnd (stack : Nat) (temp : Int)
  /-- TJ_OVER_END (R42). -/
  | tjOverEnd (tj : Int)
  /-- RESIDUAL_SLEW_END (R285). -/
  | residualSlewEnd
  /-- INACTIVE_SOURCE_ABSENT (R287). -/
  | inactiveSourceAbsent
  /-- ANNOUNCE_RECEIPT_TIMEOUT (R290). -/
  | announceReceiptTimeout (port : Nat)
  /-- ETH_LINK_CHANGE (R349). -/
  | ethLinkChange (port : Nat) (link anDone fecLock : Bool)
  /-- PERST_RELEASE (R414). -/
  | perstRelease (speed width : Nat)
  /-- INTERRUPT_COALESCE (R235). -/
  | interruptCoalesce (ring : Nat)
  /-- FAULTED_PAIR_TEST_DONE (R376). -/
  | faultedPairTestDone (pass : Bool)
  /-- SWITCH_RAW_EDGE (R278). -/
  | switchRawEdge (sw : Nat) (level : Bool)
  /-- ENGINE_LOCK_RELEASE (R72). -/
  | engineLockRelease (engine lock : Nat)
  /-- MGMT_PORT_ACCESS (R410). -/
  | mgmtPortAccess (select : Option Nat) (reads : Nat)
  deriving DecidableEq, Repr

end Sys2Proof
end

