-- ==== Sys2Proof/Decode.lean ====
section
/-!
DEFINITION. Words of the table. The rows of opcode_table.json are happenings; none of them gives bits, so no word
spells a command. (A command packet's bytes are read by Machine/Packets.lean.)
-/
namespace Sys2Proof

/-- The command that a word of `nbits` bits spells by the table's bits: none, for every word. -/
def decodeTableWord (_nbits _w : Nat) : Option Instr := none

end Sys2Proof
end

