-- ==== Sys2Proof/Config.lean ====
section
/-!
DEFINITION. What the spec leaves open: constants without a body, so that no proof can lean on a value of one. Each is
named in the assumption log.
-/
namespace Sys2Proof.Config

/-- Byte `i` of the `n`-th draw of the device's random source (R90). -/
opaque randomByte (n i : Nat) : Byte

/-- Whether an image's ECDSA signature verifies under the key in the boot ROM (R354, R377). -/
opaque signatureOk (image : List Byte) : Bool

/-- Which of the streams R132 allows a compressor makes of its input at a level: the same input may give different bytes
under different firmware. -/
opaque compressed (level : Nat) (data : List Byte) : List Byte

/-- The luminance that an overlap score takes from a grid line its second port has not produced (R223). -/
opaque missingLuminance (line : Int) (column : Nat) : Nat

/-- The detail bytes 20 to 31 of a fault-log entry (Table 16-6): how a happening's details are laid out. -/
opaque logDetail (code block : Nat) (detail : List Nat) (i : Nat) : Byte

/-- Enable Relaxed Ordering in the endpoint's Device Control register: the host's (R345). -/
opaque hostRelaxed : Bool

/-- The increment that the firmware servo sets after a measured offset (R287): how it corrects is not stated. -/
opaque servoIncrement (inc : Nat) (offset : Int) : Nat

/-- Word `i` of the header of the `n`-th packet that PCIe error reporting logs (PCIE_HDRLOG): the packet is the link
partner's. -/
opaque tlpHeader (n i : Nat) : Word

/-- The data bytes of a calibration record (R380): the layout of a kind's data is not stated. -/
opaque calBytes (kind : Nat) (content : List Nat) : List Byte

/-- The format version that a kind's records carry (Table 16-4). -/
opaque calFormat (kind : Nat) : Nat

/-- Erase cycles of the most worn block, in units of 16, after `n` record writes (NVC_WEAR). -/
opaque wearUnits (n : Nat) : Nat

/-- The observed value of a grid column that no camera covers, where a crop takes it in (R237). -/
opaque uncovered (line : Int) (column channel : Nat) : Nat

/-- The screened dose under a threshold array whose depth is not the present DOSE_DEPTH: cell and tone (R139 states
none). -/
opaque strangeDose (cx cy c : Nat) : Nat

/-- DOSE_FAIL.SLICE after a failed assembly check of a bar's frame (Table 06-21 names the slice of a line). -/
opaque failedSlice (bar frame : Nat) : Nat

/-- FRAME of the `n`-th packet of drop-gate tests (R185 names no frame). -/
opaque gateFrame (n : Nat) : Nat

/-- Generation and P_due of the `n`-th SCHEDULE of drop-gate tests (R185 names neither). -/
opaque gateDue (n : Nat) : Nat × Int

/-- Pseudo-channel, bank and row of an address within its channel (R304: the mapping is not stated). -/
opaque dramPlace (addr : Nat) : Nat × Nat × Nat

/-- The outcome of the `n`-th error pattern for which Table 13-3 promises none: 0 detected, 1 miscorrected, else not
seen. -/
opaque otherPattern (n : Nat) : Nat

/-- The 16 data bytes that the `n`-th miscorrection leaves. -/
opaque miscorrected (n : Nat) : List Byte

/-- PCIE_LINK.LTSSM of a trained link (Table 14-9 gives no coding). -/
opaque ltssmUp : Nat

/-- The working rate code that a chain record's data gives (R364; the layout of the data is not stated). -/
opaque chainRate (data : List Byte) : Nat

/-- Ticks that the takeover by the standby pair takes whose active pair faulted at tick `t` (R376 bounds it). -/
opaque takeoverTicks (t : Nat) : Nat

/-- The version that an image's header carries (its layout is not stated). -/
opaque imageVersion (image : List Byte) : Nat

/-- The compatibility level that an image's header carries (R354). -/
opaque imageLevel (image : List Byte) : Nat

/-- Whether the host has enabled ASPM L1.2 at the `n`-th entry to DEEP (R348; the configuration space is the host's). -/
opaque hostAspm (n : Nat) : Bool

/-- What the supply monitor measures at a reference tick: the register's address and its bits (Table 17-9). -/
opaque measured (addr hi tick : Nat) : Nat

end Sys2Proof.Config
end

