-- ==== Sys2Proof/Machine/Bits.lean ====
section
/-!
DEFINITION. Bit fields, byte order, saturation, the check codes of the spec (CRC-32C, CRC-32, CRC-8, a CRC of any
width) and HMAC-SHA-256. Bytes are little-endian (R6); bit 0 is the least significant (R7).
-/
namespace Sys2Proof.Machine

/-- Bits hi:lo of a number. -/
def bitsOf (n hi lo : Nat) : Nat := n / 2 ^ lo % 2 ^ (hi + 1 - lo)

/-- A number with its bits hi:lo replaced by the low bits of `v`. -/
def setBitsOf (n hi lo v : Nat) : Nat :=
  n / 2 ^ (hi + 1) * 2 ^ (hi + 1) + v % 2 ^ (hi + 1 - lo) * 2 ^ lo + n % 2 ^ lo

/-- Bits hi:lo of a register word. -/
def wordBits (w : Word) (hi lo : Nat) : Nat := bitsOf w.toNat hi lo

/-- A register word with its bits hi:lo replaced. -/
def setWordBits (w : Word) (hi lo v : Nat) : Word := BitVec.ofNat 32 (setBitsOf w.toNat hi lo v)

/-- Bit `i` of a number. -/
def bitAt (n i : Nat) : Bool := n / 2 ^ i % 2 == 1

/-- A number with bit `i` set. -/
def setBitAt (n i : Nat) : Nat := if bitAt n i then n else n + 2 ^ i

/-- A number with bit `i` cleared. -/
def clearBitAt (n i : Nat) : Nat := if bitAt n i then n - 2 ^ i else n

/-- The bits of `n` that are set, among the low `width`. -/
def setBits (n width : Nat) : List Nat := (List.range width).filter (bitAt n)

/-- 1 for true, 0 for false. -/
def b2n (b : Bool) : Nat := if b then 1 else 0

/-- The two's complement reading of `n` in `w` bits. -/
def signedOf (w n : Nat) : Int :=
  let m := n % 2 ^ w
  if m < 2 ^ (w - 1) then (m : Int) else (m : Int) - (2 ^ w : Nat)

/-- The two's complement pattern of `x` in `w` bits. -/
def unsignedOf (w : Nat) (x : Int) : Nat := (x % (2 ^ w : Nat)).toNat

/-- `x` held between `lo` and `hi`. -/
def clampInt (lo hi x : Int) : Int := if x < lo then lo else if x > hi then hi else x

/-- `x` held between `lo` and `hi`. -/
def clampNat (lo hi x : Nat) : Nat := if x < lo then lo else if x > hi then hi else x

/-- Division rounded up. -/
def ceilDiv (a b : Nat) : Nat := (a + b - 1) / b

/-- Division of an integer by a positive number, rounded to nearest, halves up. -/
def roundDiv (a : Int) (b : Nat) : Int := (2 * a + b).fdiv (2 * b)

/-- The little-endian value of a byte list. -/
def leNat : List Byte → Nat
  | [] => 0
  | b :: bs => b.toNat + 256 * leNat bs

/-- The `n` low bytes of `v`, little-endian. -/
def leBytes : Nat → Nat → List Byte
  | 0, _ => []
  | n + 1, v => BitVec.ofNat 8 v :: leBytes n (v / 256)

/-- `n` bytes of `l` from offset `o`. -/
def slice (l : List Byte) (o n : Nat) : List Byte := (l.drop o).take n

/-- The little-endian value of `n` bytes of `l` from offset `o`; bytes past the end count 0. -/
def leAt (l : List Byte) (o n : Nat) : Nat := leNat (slice l o n)

/-- The signed little-endian value of `n` bytes of `l` from offset `o`. -/
def leIntAt (l : List Byte) (o n : Nat) : Int := signedOf (8 * n) (leAt l o n)

/-- Bytes from numbers. -/
def bytesOf (l : List Nat) : List Byte := l.map (BitVec.ofNat 8)

/-- The offset of the first byte of `l` that is not 0, counted from `o`, among the offsets that `reserved` names. -/
def firstNonzero (reserved : Nat → Bool) : List Byte → Nat → Option Nat
  | [], _ => none
  | b :: bs, o => if reserved o && b != 0 then some o else firstNonzero reserved bs (o + 1)

/-! Check codes. -/

/-- One step of a reflected CRC register of polynomial `poly` (bits reversed). -/
def crcStepR (poly c : Nat) : Nat := if c % 2 = 1 then (c / 2) ^^^ poly else c / 2

/-- Eight steps of a reflected CRC register after taking one byte. -/
def crcByteR (poly c : Nat) (b : Byte) : Nat :=
  (List.range 8).foldl (fun c _ => crcStepR poly c) (c ^^^ b.toNat)

/-- A reflected CRC register carried over bytes. -/
def crcRunR (poly : Nat) (init : Nat) (l : List Byte) : Nat := l.foldl (crcByteR poly) init

/-- CRC-32C of R81: polynomial 0x1EDC_6F41 reflected, initial value and final XOR all ones. -/
def crc32c (l : List Byte) : Nat := crcRunR 0x82F63B78 0xFFFFFFFF l ^^^ 0xFFFFFFFF

/-- A CRC-32C running register carried on (R113, R120). -/
def crc32cRun (init : Nat) (l : List Byte) : Nat := crcRunR 0x82F63B78 init l

/-- The IEEE CRC-32 of R149 and R168. -/
def crc32 (l : List Byte) : Nat := crcRunR 0xEDB88320 0xFFFFFFFF l ^^^ 0xFFFFFFFF

/-- One step of an unreflected CRC register of width `w`. -/
def crcStepF (w poly c : Nat) : Nat :=
  if bitAt c (w - 1) then (2 * c % 2 ^ w) ^^^ poly else 2 * c % 2 ^ w

/-- One message bit taken by an unreflected CRC register of width `w` (most significant bit first). -/
def crcBitF (w poly c : Nat) (b : Bool) : Nat :=
  let top := bitAt c (w - 1) != b
  if top then (2 * c % 2 ^ w) ^^^ poly else 2 * c % 2 ^ w

/-- The bits of a byte, most significant first. -/
def byteBitsMsb (b : Byte) : List Bool := ((List.range 8).map (bitAt b.toNat)).reverse

/-- The bits of a byte, least significant first. -/
def byteBitsLsb (b : Byte) : List Bool := (List.range 8).map (bitAt b.toNat)

/-- An unreflected CRC of width `w` over message bits. -/
def crcBits (w poly init : Nat) (bits : List Bool) : Nat := bits.foldl (crcBitF w poly) init

/-- The low `w` bits of `n` in reverse order. -/
def reverseBits (w n : Nat) : Nat :=
  (List.range w).foldl (fun a i => 2 * a + b2n (bitAt n i)) 0

/-- Big-endian bits to a number. -/
def msbNat (bits : List Bool) : Nat := bits.foldl (fun a b => 2 * a + b2n b) 0

/-! SHA-256 (R90's HMAC). -/

/-- The greatest `r` below 2^`n` with `r`^`e` at most `x`, found bit by bit from the top; `r` holds the bits above. -/
def rootFrom (e x : Nat) : Nat → Nat → Nat
  | 0, r => r
  | n + 1, r => rootFrom e x n (if (r + 2 ^ n) ^ e ≤ x then r + 2 ^ n else r)

/-- The first 32 fraction bits of the `e`-th root of a number below 2^12. -/
def rootFraction (e x : Nat) : BitVec 32 := BitVec.ofNat 32 (rootFrom e (x * 2 ^ (32 * e)) 44 0)

/-- The primes below 312: 64 of them. -/
def shaPrimes : List Nat :=
  (List.range 312).filter fun n => decide (2 ≤ n) && (List.range 16).all fun k => decide (k + 2 ≥ n) || n % (k + 2) != 0

/-- The round constants: fractions of the cube roots of the primes. -/
def shaK : List (BitVec 32) := shaPrimes.map (rootFraction 3)

/-- The initial hash value: fractions of the square roots of the first eight primes. -/
def shaInit : List (BitVec 32) := (shaPrimes.take 8).map (rootFraction 2)

/-- The sum modulo 2 of a word's rotations to the right. -/
def rotSum (x : BitVec 32) (by_ : List Nat) : BitVec 32 := by_.foldl (fun y n => y ^^^ x.rotateRight n) 0#32

/-- The message schedule, newest word first, grown by `n` words. -/
def shaGrow : Nat → List (BitVec 32) → List (BitVec 32)
  | 0, w => w
  | n + 1, w =>
    let ago (k : Nat) : BitVec 32 := w.getD (k - 1) 0#32
    shaGrow n (((rotSum (ago 2) [17, 19] ^^^ ago 2 >>> 10) + ago 7 + (rotSum (ago 15) [7, 18] ^^^ ago 15 >>> 3) + ago 16) :: w)

/-- One round on the eight working words, with the round's constant and schedule word added up. -/
def shaRound (v : List (BitVec 32)) (kw : BitVec 32) : List (BitVec 32) :=
  let at_ (i : Nat) : BitVec 32 := v.getD i 0#32
  let chosen := at_ 6 ^^^ at_ 4 &&& (at_ 5 ^^^ at_ 6)
  let major := at_ 0 &&& (at_ 1 ||| at_ 2) ||| at_ 1 &&& at_ 2
  let low := kw + at_ 7 + rotSum (at_ 4) [6, 11, 25] + chosen
  (low + rotSum (at_ 0) [2, 13, 22] + major) :: v.take 3 ++ (at_ 3 + low) :: (v.drop 4).take 3

/-- The hash after one block of 16 words. -/
def shaBlock (h w : List (BitVec 32)) : List (BitVec 32) :=
  List.zipWith (· + ·) h ((List.zipWith (· + ·) shaK (shaGrow 48 w.reverse).reverse).foldl shaRound h)

/-- A big-endian word of four bytes. -/
def beWord (l : List Byte) : BitVec 32 := BitVec.ofNat 32 (l.foldl (fun a b => 256 * a + b.toNat) 0)

/-- The four bytes of a word, most significant first. -/
def beBytes (w : BitVec 32) : List Byte := (leBytes 4 w.toNat).reverse

/-- A byte list cut into pieces of `n` bytes, at most `fuel` of them. -/
def chunksOf (n : Nat) : Nat → List Byte → List (List Byte)
  | 0, _ => []
  | fuel + 1, l => if l.isEmpty then [] else l.take n :: chunksOf n fuel (l.drop n)

/-- The padded message. -/
def shaPad (l : List Byte) : List Byte :=
  let zeros := (119 - l.length % 64) % 64
  l ++ [0x80#8] ++ List.replicate zeros 0#8 ++ (leBytes 8 (8 * l.length)).reverse

/-- SHA-256. -/
def sha256 (l : List Byte) : List Byte :=
  let p := shaPad l
  ((chunksOf 64 (p.length / 64) p).foldl
    (fun h b => shaBlock h ((chunksOf 4 16 b).map beWord)) shaInit).flatMap beBytes

/-- HMAC-SHA-256 under a key of at most 64 bytes (R90: keys are 32 bytes). -/
def hmacSha256 (key msg : List Byte) : List Byte :=
  let k := key ++ List.replicate (64 - key.length) 0#8
  sha256 (k.map (· ^^^ 0x5c#8) ++ sha256 (k.map (· ^^^ 0x36#8) ++ msg))

/-! Sorting. -/

/-- An integer put at its place in an ascending list. -/
def insertInt (x : Int) : List Int → List Int
  | [] => [x]
  | y :: t => if x ≤ y then x :: y :: t else y :: insertInt x t

/-- A list in ascending order. -/
def sortInts (l : List Int) : List Int := l.foldr insertInt []

end Sys2Proof.Machine
end

