-- ==== Sys2Proof/Machine/Blocks.lean ====
section
/-!
DEFINITION. Blocks of 66 bits on Heruf lanes (R331 to R334): forming, scrambling, control blocks, the aligner.
-/
namespace Sys2Proof.Machine

/-- The CRC-8 of R180, which LINK blocks carry too (Table 14-2). -/
def crc8 (l : List Byte) : Nat := crcBits 8 0x07 0 (l.flatMap byteBitsMsb)

/-- A block before scrambling: a control or a data block, and its eight payload bytes. -/
structure Block where
  /-- a control block -/
  control : Bool
  /-- payload bytes 0 to 7 -/
  payload : List Byte
  deriving DecidableEq, Repr

/-! Control blocks (Table 14-2). -/

/-- A control block of a TYPE with its bytes 1 to 7. -/
def controlBlock (type : Nat) (rest : List Nat) : Block :=
  ⟨true, (bytesOf (type :: rest) ++ List.replicate 8 0#8).take 8⟩

/-- IDLE. -/
def idleBlock : Block := controlBlock 0x1E []

/-- START of a packet: 1 Heruf-H, 2 Heruf-C. -/
def startBlock (proto : Nat) : Block := controlBlock 0x78 [proto]

/-- TERM: `pad` zero bytes end the last data block. -/
def termBlock (pad : Nat) : Block := controlBlock 0x87 [pad]

/-- The payload of a LINK block: 1 READY, 2 ALIGN, 3 RATE_REQ, 4 RATE_ACK, 5 SLEEP, with its argument. -/
def linkPayload (kind arg : Nat) : List Byte :=
  let h := bytesOf [0x4B, kind, arg, 0, 0, 0, 0]
  h ++ bytesOf [crc8 h]

/-- A LINK block. -/
def linkBlock (kind arg : Nat) : Block := ⟨true, linkPayload kind arg⟩

/-- What a received control block is. -/
inductive Control where
  | idle
  | start (proto : Nat)
  | term (pad : Nat)
  | link (kind arg : Nat)
  deriving DecidableEq, Repr

/-- A control block's payload read by Table 14-2; none is a block error (R332). -/
def readControl (p : List Byte) : Option Control :=
  let zeros (i : Nat) : Bool := (p.drop i).all (· == 0#8)
  let a := leAt p 1 1
  let arg := leAt p 2 1
  match leAt p 0 1 with
  | 0x1E => if zeros 1 then some .idle else none
  | 0x78 => if zeros 2 && decide (1 ≤ a) && decide (a ≤ 2) then some (.start a) else none
  | 0x87 => if zeros 2 && decide (a ≤ 7) then some (.term a) else none
  | 0x4B =>
    if decide (1 ≤ a) && decide (a ≤ 5) && p == linkPayload a arg && (arg == 0 || a == 3 || a == 4) then some (.link a arg)
    else none
  | _ => none

/-- The blocks of a packet (R333): START, its bytes in data blocks with the last one padded, TERM. -/
def packetBlocks (proto : Nat) (b : List Byte) : List Block :=
  let n := ceilDiv b.length 8
  let padded := b ++ List.replicate (8 * n - b.length) 0#8
  startBlock proto :: (List.range n).map (fun i => ⟨false, (padded.drop (8 * i)).take 8⟩) ++ [termBlock (8 * n - b.length)]

/-! The scrambler (R331): G(x) = 1 + x^39 + x^58. Its state is the last 58 scrambled bits, the newest in bit 0. -/

/-- One bit scrambled, and the state after it. -/
def scrambleBit (st : Nat) (b : Bool) : Bool × Nat :=
  let o := b != (bitAt st 38 != bitAt st 57)
  (o, (2 * st + b2n o) % 2 ^ 58)

/-- One bit descrambled, and the state after it. -/
def descrambleBit (st : Nat) (b : Bool) : Bool × Nat :=
  (b != (bitAt st 38 != bitAt st 57), (2 * st + b2n b) % 2 ^ 58)

/-- Bits in order through one of the two. -/
def throughBits (f : Nat → Bool → Bool × Nat) : Nat → List Bool → List Bool × Nat
  | st, [] => ([], st)
  | st, b :: l =>
    let r := f st b
    let t := throughBits f r.2 l
    (r.1 :: t.1, t.2)

/-- Bits as a number, the first in bit 0. -/
def lsbNat (l : List Bool) : Nat := l.foldr (fun b n => b2n b + 2 * n) 0

/-- A block as it goes onto the lane, and the scrambler after it: bit 0 goes first, header bit 0 of a data block is 1
(R331). -/
def blockWord (st : Nat) (b : Block) : BitVec 66 × Nat :=
  let r := throughBits scrambleBit st (b.payload.flatMap byteBitsLsb)
  (BitVec.ofNat 66 ((if b.control then 2 else 1) + 4 * lsbNat r.1), r.2)

/-- Blocks in order. -/
def blockWords : Nat → List Block → List (BitVec 66) × Nat
  | st, [] => ([], st)
  | st, b :: l =>
    let r := blockWord st b
    let t := blockWords r.2 l
    (r.1 :: t.1, t.2)

/-- The header of a received word is valid. -/
def headerValid (w : BitVec 66) : Bool := w.getLsbD 0 != w.getLsbD 1

/-- The payload bytes of a received word, and the descrambler after it. -/
def wordPayload (st : Nat) (w : BitVec 66) : List Byte × Nat :=
  let r := throughBits descrambleBit st ((List.range 64).map fun i => w.getLsbD (i + 2))
  (leBytes 8 (lsbNat r.1), r.2)

/-! The aligner (R334). -/

/-- The aligner hunting through received bits: it tests one bit position at a time, slips one bit on an invalid header,
and declares LOCK after 64 consecutive valid ones. The answer is the descrambler's state at LOCK. -/
def huntLock : Nat → Nat → Nat → List Bool → Option Nat
  | 0, _, _, _ => none
  | fuel + 1, good, st, bits =>
    if bits.length < 66 then none
    else if bits.getD 0 false = bits.getD 1 false then huntLock fuel 0 st (bits.drop 1)
    else
      let st := (throughBits descrambleBit st ((bits.take 66).drop 2)).2
      if good = 63 then some st else huntLock fuel (good + 1) st (bits.drop 66)

end Sys2Proof.Machine
end

