-- ==== Sys2Proof/Machine/RegPlan.lean ====
section
/-!
DEFINITION. The register address plan (19_register_plan.md and the field maps of the owning chapters): where each of
the 2,712 registers lives, the access and the reset value of each of its fields, and a name for every register address
and every field.
-/
namespace Sys2Proof.Machine

/-- The accesses of Table 00-6. -/
inductive Access where
  | ro | rw | wo | w1c | rc
  deriving DecidableEq, Repr

/-- A field of a register: bits hi:lo, its access, its reset value; where `per` is not 0 the reset value is the
instance modulo `per` (R420). -/
structure FieldRow where
  hi     : Nat
  lo     : Nat
  access : Access
  reset  : Nat
  per    : Nat := 0
  deriving DecidableEq, Repr

/-- A row of a field map: `count` registers from offset `off`, `stride` apart, each with these fields. -/
structure RegRow where
  off    : Nat
  stride : Nat
  count  : Nat
  fields : List FieldRow
  deriving DecidableEq, Repr

/-- One field of one register: the register's parameter address (R100) and the bits it takes. -/
structure Fld where
  addr : Nat
  hi   : Nat
  lo   : Nat
  deriving DecidableEq, Repr

/-- The registers of block PLAT. -/
def planPlat : List RegRow :=
  [
   ⟨0x0, 0, 1, [⟨31, 16, .ro, 2400, 0⟩, ⟨15, 8, .ro, 0, 0⟩, ⟨7, 0, .ro, 1, 0⟩]⟩,
   ⟨0x4, 0, 1, [⟨31, 28, .ro, 0, 0⟩, ⟨27, 24, .ro, 0, 0⟩, ⟨23, 23, .ro, 0, 0⟩, ⟨22, 22, .ro, 0, 0⟩,
      ⟨21, 21, .ro, 0, 0⟩, ⟨5, 0, .ro, 0, 0⟩]⟩,
   ⟨0x8, 0, 1, [⟨31, 29, .ro, 0, 0⟩, ⟨28, 27, .ro, 0, 0⟩]⟩,
   ⟨0xc, 0, 1, [⟨31, 0, .ro, 0, 0⟩]⟩,
   ⟨0x10, 0, 1, [⟨31, 0, .ro, 0, 0⟩]⟩,
   ⟨0x14, 0, 1, [⟨31, 0, .ro, 0, 0⟩]⟩,
   ⟨0x18, 0, 1, [⟨31, 0, .ro, 0, 0⟩]⟩,
   ⟨0x1c, 0, 1, [⟨15, 0, .ro, 0, 0⟩]⟩,
   ⟨0x20, 0, 1, [⟨31, 0, .ro, 0, 0⟩]⟩,
   ⟨0x24, 0, 1, [⟨31, 0, .ro, 0, 0⟩]⟩,
   ⟨0x28, 0, 1, [⟨31, 16, .ro, 0, 0⟩, ⟨3, 0, .ro, 0, 0⟩]⟩,
   ⟨0x2c, 0, 1, [⟨5, 0, .w1c, 0, 0⟩]⟩,
   ⟨0x30, 4, 20, [⟨31, 0, .rw, 0, 0⟩]⟩]

/-- The registers of block PACE. -/
def planPace : List RegRow :=
  [
   ⟨0x0, 0, 1, [⟨11, 8, .rw, 15, 0⟩, ⟨1, 0, .rw, 1, 0⟩]⟩,
   ⟨0x4, 0, 1, [⟨25, 16, .ro, 800, 0⟩, ⟨7, 7, .ro, 0, 0⟩, ⟨6, 6, .ro, 0, 0⟩, ⟨5, 5, .ro, 0, 0⟩, ⟨4, 4, .ro, 0, 0⟩,
      ⟨3, 3, .ro, 0, 0⟩, ⟨2, 2, .ro, 0, 0⟩, ⟨1, 0, .ro, 1, 0⟩]⟩,
   ⟨0x8, 0, 1, [⟨31, 24, .rc, 128, 0⟩, ⟨23, 16, .ro, 0, 0⟩, ⟨9, 0, .ro, 0, 0⟩]⟩,
   ⟨0xc, 0, 1, [⟨9, 0, .rw, 900, 0⟩]⟩,
   ⟨0x10, 0, 1, [⟨23, 16, .rw, 50, 0⟩, ⟨15, 0, .rw, 4096, 0⟩]⟩,
   ⟨0x14, 0, 1, [⟨15, 8, .rw, 5, 0⟩, ⟨7, 0, .rw, 10, 0⟩]⟩,
   ⟨0x18, 0, 1, [⟨15, 8, .rw, 20, 0⟩, ⟨7, 0, .rw, 20, 0⟩]⟩,
   ⟨0x1c, 0, 1, [⟨23, 16, .ro, 0, 0⟩, ⟨6, 6, .w1c, 0, 0⟩, ⟨5, 5, .w1c, 0, 0⟩, ⟨4, 4, .w1c, 0, 0⟩,
      ⟨3, 3, .w1c, 0, 0⟩, ⟨2, 2, .w1c, 0, 0⟩, ⟨0, 0, .w1c, 0, 0⟩]⟩,
   ⟨0x20, 4, 16, [⟨31, 31, .ro, 0, 0⟩, ⟨30, 30, .ro, 0, 0⟩, ⟨29, 29, .ro, 0, 0⟩, ⟨15, 0, .ro, 0, 0⟩]⟩]

/-- The registers of block ARB. -/
def planArb : List RegRow :=
  [
   ⟨0x0, 16, 16, [⟨31, 24, .rw, 16, 0⟩, ⟨23, 16, .rw, 16, 0⟩, ⟨15, 8, .rw, 16, 0⟩, ⟨7, 0, .rw, 16, 0⟩]⟩,
   ⟨0x4, 16, 16, [⟨31, 24, .rw, 16, 0⟩, ⟨23, 16, .rw, 16, 0⟩, ⟨15, 8, .rw, 16, 0⟩, ⟨7, 0, .rw, 16, 0⟩]⟩,
   ⟨0x8, 16, 16, [⟨23, 21, .ro, 7, 0⟩, ⟨20, 18, .ro, 6, 0⟩, ⟨17, 15, .ro, 5, 0⟩, ⟨14, 12, .rw, 4, 0⟩,
      ⟨11, 9, .rw, 3, 0⟩, ⟨8, 6, .rw, 2, 0⟩, ⟨5, 3, .rw, 1, 0⟩, ⟨2, 0, .rw, 0, 0⟩]⟩,
   ⟨0xc, 16, 16, [⟨31, 30, .rw, 0, 0⟩, ⟨29, 29, .w1c, 0, 0⟩, ⟨23, 16, .rc, 0, 0⟩, ⟨15, 8, .ro, 0, 0⟩,
      ⟨7, 0, .ro, 0, 0⟩]⟩,
   ⟨0x100, 4, 64, [⟨31, 24, .rc, 0, 0⟩, ⟨15, 15, .w1c, 0, 0⟩, ⟨11, 11, .ro, 0, 0⟩, ⟨10, 8, .ro, 0, 0⟩,
      ⟨7, 0, .ro, 0, 0⟩]⟩]

/-- The registers of block LOCK. -/
def planLock : List RegRow :=
  [
   ⟨0x0, 4, 64, [⟨31, 30, .ro, 0, 0⟩, ⟨29, 29, .ro, 0, 0⟩, ⟨28, 21, .ro, 0, 0⟩, ⟨15, 8, .rc, 0, 0⟩,
      ⟨7, 4, .rw, 10, 0⟩, ⟨3, 0, .ro, 0, 0⟩]⟩]

/-- The registers of block CMD. -/
def planCmd : List RegRow :=
  [
   ⟨0x0, 0, 1, [⟨23, 16, .rw, 60, 0⟩, ⟨15, 0, .rw, 60, 0⟩]⟩,
   ⟨0x4, 0, 1, [⟨23, 20, .w1c, 0, 0⟩, ⟨19, 16, .ro, 0, 0⟩, ⟨15, 0, .ro, 15, 0⟩]⟩,
   ⟨0x8, 0, 1, [⟨27, 24, .rc, 0, 0⟩, ⟨23, 0, .rc, 0, 0⟩]⟩,
   ⟨0xc, 0, 1, [⟨31, 16, .rc, 0, 0⟩, ⟨15, 8, .rc, 0, 0⟩]⟩,
   ⟨0x20, 32, 4, [⟨31, 6, .rw, 0, 0⟩]⟩,
   ⟨0x24, 32, 4, [⟨31, 0, .rw, 0, 0⟩]⟩,
   ⟨0x28, 32, 4, [⟨31, 6, .rw, 0, 0⟩]⟩,
   ⟨0x2c, 32, 4, [⟨31, 0, .rw, 0, 0⟩]⟩,
   ⟨0x30, 32, 4, [⟨31, 31, .rw, 0, 0⟩, ⟨23, 16, .rw, 0, 16⟩, ⟨12, 8, .rw, 6, 0⟩, ⟨4, 0, .rw, 6, 0⟩]⟩]

/-- The registers of block DMA. -/
def planDma : List RegRow :=
  [
   ⟨0x0, 16, 64, [⟨31, 5, .rw, 0, 0⟩]⟩,
   ⟨0x4, 16, 64, [⟨31, 0, .rw, 0, 0⟩]⟩,
   ⟨0x8, 16, 64, [⟨31, 31, .rw, 0, 0⟩, ⟨30, 30, .wo, 0, 0⟩, ⟨29, 29, .rw, 0, 0⟩, ⟨28, 28, .rw, 0, 0⟩,
      ⟨27, 23, .rw, 16, 0⟩, ⟨22, 21, .rw, 0, 0⟩, ⟨20, 16, .rw, 0, 0⟩, ⟨15, 8, .rw, 0, 0⟩]⟩,
   ⟨0xc, 16, 64, [⟨31, 28, .ro, 0, 0⟩, ⟨27, 27, .ro, 0, 0⟩, ⟨26, 26, .ro, 0, 0⟩, ⟨25, 25, .ro, 0, 0⟩,
      ⟨20, 0, .ro, 0, 0⟩]⟩,
   ⟨0x400, 0, 1, [⟨23, 16, .rw, 4, 0⟩, ⟨0, 0, .rw, 0, 0⟩]⟩,
   ⟨0x404, 0, 1, [⟨31, 31, .w1c, 0, 0⟩, ⟨30, 28, .ro, 0, 0⟩, ⟨23, 16, .rc, 0, 0⟩]⟩,
   ⟨0x408, 0, 1, [⟨31, 11, .rw, 0, 0⟩]⟩,
   ⟨0x40c, 0, 1, [⟨31, 0, .rw, 0, 0⟩]⟩,
   ⟨0x410, 0, 1, [⟨31, 0, .w1c, 0, 0⟩]⟩,
   ⟨0x414, 0, 1, [⟨31, 0, .w1c, 0, 0⟩]⟩,
   ⟨0x418, 0, 1, [⟨31, 0, .ro, 0, 0⟩]⟩,
   ⟨0x41c, 0, 1, [⟨31, 0, .ro, 0, 0⟩]⟩]

/-- The registers of block DCMP. -/
def planDcmp : List RegRow :=
  [
   ⟨0x0, 16, 16, [⟨0, 0, .rw, 1, 0⟩]⟩,
   ⟨0x4, 16, 16, [⟨31, 31, .ro, 0, 0⟩, ⟨27, 16, .ro, 0, 0⟩, ⟨15, 0, .rc, 0, 0⟩]⟩,
   ⟨0x8, 16, 16, [⟨31, 24, .rc, 0, 0⟩, ⟨23, 21, .rc, 0, 0⟩, ⟨15, 12, .rc, 0, 0⟩, ⟨7, 0, .rc, 0, 0⟩]⟩,
   ⟨0xc, 16, 16, [⟨31, 0, .ro, 0, 0⟩]⟩]

/-- The registers of block CMPR. -/
def planCmpr : List RegRow :=
  [
   ⟨0x0, 16, 4, [⟨3, 0, .rw, 4, 0⟩]⟩,
   ⟨0x4, 16, 4, [⟨31, 31, .ro, 0, 0⟩, ⟨27, 16, .ro, 0, 0⟩, ⟨15, 0, .rc, 0, 0⟩]⟩,
   ⟨0x8, 16, 4, [⟨31, 0, .rc, 0, 0⟩]⟩,
   ⟨0xc, 16, 4, [⟨31, 0, .rc, 0, 0⟩]⟩]

/-- The registers of block DOSE. -/
def planDose : List RegRow :=
  [
   ⟨0x0, 32, 16, [⟨31, 31, .wo, 0, 0⟩, ⟨30, 30, .rw, 0, 0⟩, ⟨15, 8, .rw, 0, 0⟩, ⟨7, 0, .rw, 0, 0⟩]⟩,
   ⟨0x4, 32, 16, [⟨31, 0, .rw, 0, 0⟩]⟩,
   ⟨0x8, 32, 16, [⟨31, 30, .rw, 0, 4⟩, ⟨23, 0, .rw, 0, 0⟩]⟩,
   ⟨0xc, 32, 16, [⟨31, 16, .ro, 0, 0⟩, ⟨15, 0, .rw, 8192, 0⟩]⟩,
   ⟨0x10, 32, 16, [⟨31, 0, .ro, 0, 0⟩]⟩,
   ⟨0x14, 32, 16, [⟨31, 24, .ro, 0, 0⟩, ⟨23, 23, .ro, 0, 0⟩, ⟨22, 22, .ro, 0, 0⟩, ⟨21, 21, .ro, 0, 0⟩,
      ⟨20, 20, .ro, 0, 0⟩, ⟨19, 19, .ro, 0, 0⟩, ⟨18, 18, .ro, 0, 0⟩, ⟨17, 17, .ro, 0, 0⟩, ⟨16, 16, .ro, 0, 0⟩,
      ⟨15, 0, .ro, 0, 0⟩]⟩,
   ⟨0x200, 0, 1, [⟨5, 5, .rw, 0, 0⟩, ⟨4, 4, .rw, 0, 0⟩, ⟨0, 0, .rw, 0, 0⟩]⟩,
   ⟨0x204, 0, 1, [⟨31, 24, .ro, 0, 0⟩, ⟨18, 0, .ro, 0, 0⟩]⟩,
   ⟨0x208, 0, 1, [⟨2, 2, .rw, 1, 0⟩, ⟨1, 1, .rw, 1, 0⟩, ⟨0, 0, .rw, 1, 0⟩]⟩,
   ⟨0x20c, 0, 1, [⟨2, 2, .w1c, 0, 0⟩, ⟨1, 1, .w1c, 0, 0⟩, ⟨0, 0, .w1c, 0, 0⟩]⟩,
   ⟨0x210, 0, 1, [⟨31, 0, .rc, 0, 0⟩]⟩,
   ⟨0x214, 0, 1, [⟨31, 0, .rc, 0, 0⟩]⟩,
   ⟨0x218, 0, 1, [⟨31, 0, .rc, 0, 0⟩]⟩,
   ⟨0x21c, 0, 1, [⟨31, 0, .rc, 0, 0⟩]⟩,
   ⟨0x220, 0, 1, [⟨31, 0, .rc, 0, 0⟩]⟩,
   ⟨0x224, 0, 1, [⟨31, 0, .rc, 0, 0⟩]⟩] ++
  [
   ⟨0x228, 0, 1, [⟨31, 0, .rc, 0, 0⟩]⟩,
   ⟨0x22c, 0, 1, [⟨31, 0, .rc, 0, 0⟩]⟩,
   ⟨0x230, 0, 1, [⟨31, 28, .ro, 0, 0⟩, ⟨27, 24, .ro, 0, 0⟩, ⟨23, 18, .ro, 0, 0⟩, ⟨5, 0, .ro, 0, 0⟩]⟩,
   ⟨0x234, 0, 1, [⟨31, 0, .ro, 0, 0⟩]⟩,
   ⟨0x238, 0, 1, [⟨31, 0, .ro, 0, 0⟩]⟩,
   ⟨0x23c, 0, 1, [⟨15, 8, .ro, 0, 0⟩, ⟨7, 0, .ro, 0, 0⟩]⟩]

/-- The registers of block FIRE. -/
def planFire : List RegRow :=
  [
   ⟨0x0, 16, 48, [⟨31, 31, .rw, 0, 0⟩, ⟨30, 30, .wo, 0, 0⟩, ⟨27, 16, .rw, 0, 0⟩, ⟨15, 12, .rw, 0, 0⟩]⟩,
   ⟨0x4, 16, 48, [⟨31, 29, .ro, 0, 0⟩, ⟨28, 28, .ro, 0, 0⟩, ⟨27, 27, .ro, 0, 0⟩, ⟨26, 26, .ro, 0, 0⟩,
      ⟨25, 25, .ro, 0, 0⟩, ⟨23, 20, .ro, 0, 0⟩, ⟨19, 16, .ro, 0, 0⟩, ⟨15, 8, .ro, 0, 0⟩]⟩,
   ⟨0x8, 16, 48, [⟨31, 16, .ro, 0, 0⟩, ⟨15, 8, .ro, 0, 0⟩, ⟨7, 0, .ro, 0, 0⟩]⟩,
   ⟨0xc, 16, 48, [⟨31, 16, .rc, 0, 0⟩, ⟨15, 0, .rc, 0, 0⟩]⟩,
   ⟨0x300, 0, 1, [⟨31, 24, .rw, 255, 0⟩, ⟨23, 20, .rw, 4, 0⟩, ⟨19, 16, .rw, 3, 0⟩]⟩,
   ⟨0x304, 0, 1, [⟨15, 0, .rw, 0, 0⟩]⟩,
   ⟨0x308, 0, 1, [⟨31, 0, .rw, 0, 0⟩]⟩,
   ⟨0x30c, 0, 1, [⟨31, 31, .rw, 1, 0⟩, ⟨23, 16, .rw, 10, 0⟩, ⟨15, 0, .rw, 2000, 0⟩]⟩,
   ⟨0x310, 0, 1, [⟨31, 16, .rw, 512, 0⟩, ⟨15, 0, .rw, 1024, 0⟩]⟩,
   ⟨0x314, 0, 1, [⟨31, 16, .ro, 65535, 0⟩, ⟨15, 0, .rw, 1250, 0⟩]⟩,
   ⟨0x318, 0, 1, [⟨31, 28, .ro, 0, 0⟩, ⟨23, 16, .rw, 50, 0⟩, ⟨15, 0, .rw, 64, 0⟩]⟩,
   ⟨0x31c, 0, 1, [⟨5, 5, .w1c, 0, 0⟩, ⟨4, 4, .w1c, 0, 0⟩, ⟨3, 3, .w1c, 0, 0⟩, ⟨2, 2, .w1c, 0, 0⟩,
      ⟨1, 1, .w1c, 0, 0⟩, ⟨0, 0, .w1c, 0, 0⟩]⟩,
   ⟨0x320, 0, 1, [⟨31, 0, .rc, 0, 0⟩]⟩,
   ⟨0x324, 0, 1, [⟨31, 0, .rc, 0, 0⟩]⟩,
   ⟨0x328, 0, 1, [⟨31, 0, .rc, 0, 0⟩]⟩,
   ⟨0x32c, 0, 1, [⟨31, 16, .rc, 0, 0⟩, ⟨15, 0, .rc, 0, 0⟩]⟩] ++
  [
   ⟨0x330, 0, 1, [⟨31, 31, .rw, 0, 0⟩, ⟨25, 16, .rw, 64, 0⟩, ⟨11, 0, .rw, 512, 0⟩]⟩,
   ⟨0x334, 0, 1, [⟨31, 20, .rw, 50, 0⟩, ⟨19, 8, .rw, 800, 0⟩, ⟨7, 0, .rw, 20, 0⟩]⟩,
   ⟨0x338, 0, 1, [⟨31, 31, .ro, 0, 0⟩, ⟨27, 24, .ro, 0, 0⟩, ⟨21, 16, .ro, 0, 0⟩, ⟨13, 0, .ro, 0, 0⟩]⟩,
   ⟨0x33c, 0, 1, [⟨31, 31, .rw, 1, 0⟩, ⟨30, 30, .rw, 0, 0⟩, ⟨15, 0, .rw, 65535, 0⟩]⟩]

/-- The registers of block CAP. -/
def planCap : List RegRow :=
  [
   ⟨0x0, 32, 24, [⟨31, 31, .rw, 0, 0⟩, ⟨30, 30, .rw, 0, 0⟩, ⟨29, 28, .rw, 0, 0⟩, ⟨27, 27, .rw, 1, 0⟩,
      ⟨26, 25, .rw, 2, 0⟩, ⟨24, 23, .rw, 0, 0⟩, ⟨22, 22, .rw, 0, 2⟩, ⟨21, 20, .rw, 0, 0⟩, ⟨19, 19, .rw, 0, 0⟩,
      ⟨18, 16, .rw, 0, 0⟩, ⟨11, 0, .rw, 0, 0⟩]⟩,
   ⟨0x4, 32, 24, [⟨30, 16, .rw, 4096, 0⟩, ⟨14, 0, .rw, 4608, 0⟩]⟩,
   ⟨0x8, 32, 24, [⟨20, 16, .rw, 0, 0⟩, ⟨12, 8, .rw, 0, 0⟩, ⟨4, 0, .rw, 0, 0⟩]⟩,
   ⟨0xc, 32, 24, [⟨31, 31, .rw, 0, 0⟩, ⟨30, 24, .rw, 10, 0⟩, ⟨23, 0, .rw, 8192, 0⟩]⟩,
   ⟨0x10, 32, 24, [⟨31, 16, .rw, 0, 0⟩, ⟨15, 8, .rw, 0, 0⟩, ⟨7, 0, .rw, 16, 0⟩]⟩,
   ⟨0x14, 32, 24, [⟨31, 16, .ro, 0, 0⟩, ⟨15, 8, .ro, 0, 0⟩, ⟨7, 7, .ro, 0, 0⟩, ⟨6, 6, .ro, 0, 0⟩,
      ⟨5, 5, .w1c, 0, 0⟩, ⟨4, 0, .rc, 0, 0⟩]⟩,
   ⟨0x18, 32, 24, [⟨31, 0, .ro, 0, 0⟩]⟩,
   ⟨0x1c, 32, 24, [⟨31, 24, .rc, 0, 0⟩, ⟨23, 16, .rc, 0, 0⟩, ⟨15, 8, .rc, 0, 0⟩, ⟨7, 0, .rc, 0, 0⟩]⟩]

/-- The registers of block KAL. -/
def planKal : List RegRow :=
  [
   ⟨0x0, 32, 8, [⟨31, 31, .rw, 0, 0⟩, ⟨30, 30, .rw, 0, 0⟩, ⟨23, 16, .rw, 16, 0⟩, ⟨7, 0, .rw, 16, 0⟩]⟩,
   ⟨0x4, 32, 8, [⟨31, 31, .wo, 0, 0⟩, ⟨30, 30, .ro, 0, 0⟩, ⟨18, 16, .rw, 0, 0⟩, ⟨3, 0, .rw, 0, 0⟩]⟩,
   ⟨0x8, 32, 8, [⟨31, 0, .rw, 0, 0⟩]⟩,
   ⟨0xc, 32, 8, [⟨31, 31, .ro, 0, 0⟩, ⟨26, 24, .ro, 0, 0⟩, ⟨21, 16, .ro, 0, 0⟩, ⟨15, 0, .rc, 0, 0⟩]⟩,
   ⟨0x10, 32, 8, [⟨31, 24, .ro, 0, 0⟩, ⟨15, 0, .ro, 0, 0⟩]⟩,
   ⟨0x14, 32, 8, [⟨31, 16, .ro, 0, 0⟩, ⟨15, 0, .ro, 0, 0⟩]⟩,
   ⟨0x18, 32, 8, [⟨31, 0, .rc, 0, 0⟩]⟩,
   ⟨0x1c, 32, 8, [⟨19, 16, .rw, 15, 0⟩, ⟨3, 3, .w1c, 0, 0⟩, ⟨2, 2, .w1c, 0, 0⟩, ⟨1, 1, .w1c, 0, 0⟩,
      ⟨0, 0, .w1c, 0, 0⟩]⟩]

/-- The registers of block RSMP. -/
def planRsmp : List RegRow :=
  [
   ⟨0x0, 16, 8, [⟨31, 31, .wo, 0, 0⟩, ⟨30, 30, .rw, 0, 0⟩, ⟨29, 29, .wo, 0, 0⟩, ⟨28, 28, .ro, 0, 0⟩,
      ⟨27, 27, .rw, 1, 0⟩, ⟨18, 16, .rw, 0, 0⟩, ⟨3, 0, .rw, 0, 0⟩]⟩,
   ⟨0x4, 16, 8, [⟨31, 0, .rw, 0, 0⟩]⟩,
   ⟨0x8, 16, 8, [⟨31, 31, .ro, 0, 0⟩, ⟨30, 30, .ro, 0, 0⟩, ⟨29, 29, .ro, 0, 0⟩, ⟨23, 16, .ro, 0, 0⟩,
      ⟨15, 0, .rc, 0, 0⟩]⟩,
   ⟨0xc, 16, 8, [⟨31, 16, .ro, 0, 0⟩, ⟨15, 0, .ro, 0, 0⟩]⟩]

/-- The registers of block JIG. -/
def planJig : List RegRow :=
  [
   ⟨0x0, 4, 16, [⟨31, 0, .rw, 0, 0⟩]⟩,
   ⟨0x40, 0, 1, [⟨31, 31, .rw, 0, 0⟩, ⟨30, 30, .rw, 1, 0⟩, ⟨26, 26, .rw, 1, 0⟩, ⟨25, 25, .rw, 1, 0⟩,
      ⟨16, 0, .rw, 0, 0⟩]⟩,
   ⟨0x44, 0, 1, [⟨31, 24, .ro, 0, 0⟩, ⟨23, 23, .ro, 0, 0⟩]⟩,
   ⟨0x48, 0, 1, [⟨4, 0, .rw, 0, 0⟩]⟩,
   ⟨0x4c, 0, 1, [⟨31, 16, .ro, 0, 0⟩, ⟨15, 8, .ro, 0, 0⟩, ⟨7, 0, .ro, 0, 0⟩]⟩,
   ⟨0x50, 0, 1, [⟨4, 0, .rw, 0, 0⟩]⟩,
   ⟨0x54, 0, 1, [⟨31, 24, .ro, 0, 0⟩, ⟨23, 16, .ro, 0, 0⟩, ⟨15, 0, .ro, 0, 0⟩]⟩,
   ⟨0x58, 0, 1, [⟨7, 0, .rw, 32, 0⟩]⟩,
   ⟨0x5c, 0, 1, [⟨31, 16, .rw, 4096, 0⟩]⟩,
   ⟨0x60, 0, 1, [⟨31, 16, .rw, 1000, 0⟩, ⟨15, 0, .rw, 100, 0⟩]⟩,
   ⟨0x64, 0, 1, [⟨31, 24, .rw, 8, 0⟩, ⟨23, 15, .rw, 256, 0⟩, ⟨3, 0, .rw, 10, 0⟩]⟩,
   ⟨0x68, 0, 1, [⟨3, 0, .rw, 8, 0⟩]⟩,
   ⟨0x6c, 0, 1, [⟨19, 16, .rw, 15, 0⟩, ⟨3, 3, .w1c, 0, 0⟩, ⟨2, 2, .w1c, 0, 0⟩, ⟨1, 1, .w1c, 0, 0⟩,
      ⟨0, 0, .w1c, 0, 0⟩]⟩,
   ⟨0x70, 0, 1, [⟨31, 0, .rc, 0, 0⟩]⟩,
   ⟨0x74, 0, 1, [⟨31, 16, .rc, 0, 0⟩, ⟨15, 0, .rc, 0, 0⟩]⟩,
   ⟨0x78, 0, 1, [⟨31, 16, .rc, 0, 0⟩, ⟨15, 0, .rc, 0, 0⟩]⟩] ++
  [
   ⟨0x7c, 0, 1, [⟨31, 16, .rc, 0, 0⟩, ⟨15, 0, .rc, 0, 0⟩]⟩]

/-- The registers of block NOZ. -/
def planNoz : List RegRow :=
  [
   ⟨0x0, 0, 1, [⟨31, 16, .rw, 0, 0⟩, ⟨15, 12, .rw, 0, 0⟩, ⟨3, 3, .rw, 1, 0⟩, ⟨2, 2, .rw, 1, 0⟩, ⟨1, 1, .rw, 1, 0⟩]⟩,
   ⟨0x4, 0, 1, [⟨31, 16, .rw, 32, 0⟩, ⟨15, 0, .rw, 96, 0⟩]⟩,
   ⟨0x8, 0, 1, [⟨23, 16, .rw, 8, 0⟩, ⟨15, 8, .rw, 3, 0⟩, ⟨7, 0, .rw, 64, 0⟩]⟩,
   ⟨0xc, 0, 1, [⟨11, 0, .rw, 1024, 0⟩]⟩,
   ⟨0x10, 0, 1, [⟨23, 16, .rw, 64, 0⟩, ⟨15, 0, .rw, 16, 0⟩]⟩,
   ⟨0x14, 0, 1, [⟨31, 0, .rw, 3840206052, 0⟩]⟩,
   ⟨0x18, 0, 1, [⟨7, 0, .rw, 20, 0⟩]⟩,
   ⟨0x1c, 0, 1, [⟨31, 31, .ro, 0, 0⟩, ⟨30, 30, .ro, 0, 0⟩, ⟨15, 0, .ro, 0, 0⟩]⟩,
   ⟨0x20, 0, 1, [⟨19, 16, .rw, 15, 0⟩, ⟨3, 3, .w1c, 0, 0⟩, ⟨2, 2, .w1c, 0, 0⟩, ⟨1, 1, .w1c, 0, 0⟩,
      ⟨0, 0, .w1c, 0, 0⟩]⟩,
   ⟨0x24, 0, 1, [⟨31, 28, .rc, 0, 0⟩, ⟨27, 22, .rc, 0, 0⟩, ⟨21, 21, .rc, 0, 0⟩]⟩,
   ⟨0x28, 0, 1, [⟨3, 0, .rw, 0, 0⟩]⟩,
   ⟨0x2c, 0, 1, [⟨31, 16, .ro, 0, 0⟩, ⟨15, 0, .ro, 0, 0⟩]⟩,
   ⟨0x30, 0, 1, [⟨31, 16, .rc, 0, 0⟩, ⟨15, 8, .rc, 0, 0⟩, ⟨7, 0, .rc, 0, 0⟩]⟩,
   ⟨0x34, 0, 1, [⟨31, 16, .rc, 0, 0⟩, ⟨15, 0, .rc, 0, 0⟩]⟩,
   ⟨0x38, 0, 1, [⟨31, 16, .rc, 0, 0⟩, ⟨15, 0, .rc, 0, 0⟩]⟩,
   ⟨0x3c, 0, 1, [⟨31, 16, .rc, 0, 0⟩, ⟨15, 0, .ro, 0, 0⟩]⟩]

/-- The registers of block POS. -/
def planPos : List RegRow :=
  [
   ⟨0x0, 32, 8, [⟨31, 31, .rw, 0, 0⟩, ⟨30, 30, .rw, 0, 0⟩, ⟨29, 29, .rw, 1, 0⟩, ⟨28, 28, .rw, 1, 0⟩,
      ⟨27, 27, .rw, 0, 0⟩, ⟨25, 24, .rw, 2, 0⟩, ⟨23, 20, .rw, 3, 0⟩, ⟨19, 12, .rw, 4, 0⟩, ⟨11, 4, .rw, 8, 0⟩,
      ⟨3, 0, .rw, 15, 0⟩]⟩,
   ⟨0x4, 32, 8, [⟨31, 16, .rw, 1, 0⟩, ⟨15, 0, .rw, 1, 0⟩]⟩,
   ⟨0x8, 32, 8, [⟨23, 0, .rw, 0, 0⟩]⟩,
   ⟨0xc, 32, 8, [⟨31, 16, .rw, 1000, 0⟩, ⟨15, 8, .rw, 100, 0⟩, ⟨7, 0, .rw, 100, 0⟩]⟩,
   ⟨0x10, 32, 8, [⟨31, 0, .ro, 0, 0⟩]⟩,
   ⟨0x14, 32, 8, [⟨31, 31, .ro, 0, 0⟩, ⟨30, 30, .ro, 1, 0⟩, ⟨29, 29, .ro, 0, 0⟩, ⟨28, 28, .ro, 1, 0⟩,
      ⟨27, 27, .w1c, 0, 0⟩, ⟨26, 26, .ro, 0, 0⟩, ⟨25, 16, .ro, 0, 0⟩, ⟨15, 8, .rc, 0, 0⟩, ⟨7, 0, .rc, 0, 0⟩]⟩,
   ⟨0x18, 32, 8, [⟨31, 0, .ro, 0, 0⟩]⟩,
   ⟨0x1c, 32, 8, [⟨31, 0, .ro, 0, 0⟩]⟩]

/-- The registers of block SSI. -/
def planSsi : List RegRow :=
  [
   ⟨0x0, 16, 8, [⟨31, 31, .rw, 0, 0⟩, ⟨30, 30, .rw, 0, 0⟩, ⟨29, 29, .rw, 0, 0⟩, ⟨28, 28, .rw, 0, 0⟩,
      ⟨27, 24, .rw, 3, 0⟩, ⟨23, 18, .rw, 24, 0⟩, ⟨17, 7, .rw, 124, 0⟩, ⟨6, 6, .rw, 1, 0⟩, ⟨5, 0, .rc, 0, 0⟩]⟩,
   ⟨0x4, 16, 8, [⟨31, 27, .rw, 24, 0⟩, ⟨26, 21, .rw, 24, 0⟩, ⟨20, 16, .rw, 0, 0⟩, ⟨15, 8, .rw, 40, 0⟩,
      ⟨7, 0, .rw, 100, 0⟩]⟩,
   ⟨0x8, 16, 8, [⟨31, 16, .rw, 0, 0⟩, ⟨15, 0, .rw, 0, 0⟩]⟩,
   ⟨0xc, 16, 8, [⟨31, 31, .ro, 0, 0⟩, ⟨30, 30, .ro, 0, 0⟩, ⟨29, 27, .ro, 0, 0⟩, ⟨23, 0, .ro, 0, 0⟩]⟩]

/-- The registers of block AXIS. -/
def planAxis : List RegRow :=
  [
   ⟨0x0, 48, 16, [⟨31, 31, .rw, 0, 0⟩, ⟨30, 30, .rw, 0, 0⟩, ⟨29, 29, .rw, 0, 0⟩, ⟨28, 27, .rw, 0, 0⟩,
      ⟨26, 23, .rw, 0, 0⟩, ⟨22, 19, .rw, 0, 0⟩, ⟨18, 15, .rw, 8, 0⟩, ⟨10, 8, .rw, 7, 0⟩]⟩,
   ⟨0x4, 48, 16, [⟨29, 24, .rw, 0, 0⟩, ⟨23, 18, .rw, 0, 0⟩, ⟨17, 12, .rw, 0, 0⟩, ⟨11, 6, .rw, 0, 0⟩,
      ⟨5, 0, .rw, 0, 0⟩]⟩,
   ⟨0x8, 48, 16, [⟨28, 24, .rw, 0, 0⟩, ⟨23, 16, .rw, 8, 0⟩, ⟨15, 0, .rw, 2000, 0⟩]⟩,
   ⟨0xc, 48, 16, [⟨31, 0, .rw, 2147483648, 0⟩]⟩,
   ⟨0x10, 48, 16, [⟨31, 0, .rw, 2147483647, 0⟩]⟩,
   ⟨0x14, 48, 16, [⟨31, 24, .rw, 1, 0⟩, ⟨23, 0, .rw, 25600, 0⟩]⟩,
   ⟨0x18, 48, 16, [⟨31, 0, .rw, 0, 0⟩]⟩,
   ⟨0x1c, 48, 16, [⟨31, 0, .rw, 10000000, 0⟩]⟩,
   ⟨0x20, 48, 16, [⟨31, 24, .rw, 255, 0⟩, ⟨23, 16, .rw, 128, 0⟩, ⟨15, 8, .rw, 10, 0⟩]⟩,
   ⟨0x24, 48, 16, [⟨31, 0, .rw, 0, 0⟩]⟩,
   ⟨0x28, 48, 16, [⟨31, 0, .ro, 0, 0⟩]⟩,
   ⟨0x2c, 48, 16, [⟨31, 28, .ro, 0, 0⟩, ⟨27, 27, .ro, 0, 0⟩, ⟨26, 26, .ro, 0, 0⟩, ⟨25, 25, .ro, 0, 0⟩,
      ⟨24, 24, .w1c, 0, 0⟩, ⟨23, 23, .w1c, 0, 0⟩, ⟨22, 22, .w1c, 0, 0⟩, ⟨21, 21, .ro, 0, 0⟩, ⟨15, 0, .rc, 0, 0⟩]⟩]

/-- The registers of block TIME. -/
def planTime : List RegRow :=
  [
   ⟨0x0, 64, 2, [⟨30, 28, .rw, 0, 0⟩, ⟨27, 27, .rw, 0, 0⟩, ⟨26, 26, .rw, 0, 0⟩]⟩,
   ⟨0x4, 64, 2, [⟨31, 31, .ro, 0, 0⟩, ⟨30, 30, .ro, 0, 0⟩, ⟨29, 29, .ro, 0, 0⟩, ⟨28, 28, .w1c, 0, 0⟩,
      ⟨26, 24, .ro, 0, 0⟩, ⟨23, 16, .rc, 0, 0⟩, ⟨15, 0, .ro, 0, 0⟩]⟩,
   ⟨0x8, 64, 2, [⟨31, 0, .ro, 0, 0⟩]⟩,
   ⟨0xc, 64, 2, [⟨31, 0, .ro, 0, 0⟩]⟩,
   ⟨0x10, 64, 2, [⟨31, 0, .ro, 0, 0⟩]⟩,
   ⟨0x14, 64, 2, [⟨15, 0, .ro, 0, 0⟩]⟩,
   ⟨0x18, 64, 2, [⟨31, 0, .ro, 0, 0⟩]⟩,
   ⟨0x1c, 64, 2, [⟨31, 0, .ro, 4, 0⟩]⟩,
   ⟨0x20, 64, 2, [⟨31, 0, .rw, 0, 0⟩]⟩,
   ⟨0x24, 64, 2, [⟨29, 0, .rw, 0, 0⟩]⟩,
   ⟨0x80, 0, 1, [⟨31, 31, .rw, 1, 0⟩, ⟨30, 30, .ro, 0, 0⟩, ⟨23, 16, .rw, 255, 0⟩, ⟨0, 0, .rw, 1, 0⟩]⟩,
   ⟨0x84, 0, 1, [⟨31, 31, .ro, 0, 0⟩, ⟨30, 30, .ro, 0, 0⟩, ⟨23, 16, .rc, 0, 0⟩]⟩,
   ⟨0x88, 0, 1, [⟨19, 0, .rw, 10000, 0⟩]⟩,
   ⟨0x8c, 0, 1, [⟨15, 0, .rw, 1000, 0⟩]⟩,
   ⟨0x90, 0, 1, [⟨31, 0, .ro, 0, 0⟩]⟩,
   ⟨0x94, 0, 1, [⟨31, 0, .ro, 0, 0⟩]⟩] ++
  [
   ⟨0x98, 4, 2, [⟨31, 31, .rw, 0, 0⟩, ⟨19, 0, .rw, 1000, 0⟩]⟩,
   ⟨0xa0, 4, 2, [⟨31, 31, .rw, 0, 0⟩, ⟨30, 30, .rw, 0, 0⟩, ⟨29, 29, .rw, 0, 0⟩, ⟨28, 24, .rw, 3, 0⟩,
      ⟨23, 16, .rw, 255, 0⟩, ⟨15, 8, .rw, 255, 0⟩, ⟨7, 0, .rw, 0, 0⟩]⟩,
   ⟨0xa8, 4, 2, [⟨31, 16, .rw, 0, 0⟩, ⟨15, 0, .rw, 0, 0⟩]⟩,
   ⟨0xb0, 0, 1, [⟨15, 8, .ro, 0, 0⟩, ⟨2, 0, .rw, 0, 0⟩]⟩,
   ⟨0xb4, 0, 1, [⟨31, 0, .ro, 0, 0⟩]⟩,
   ⟨0xb8, 0, 1, [⟨31, 31, .ro, 0, 0⟩, ⟨30, 30, .ro, 0, 0⟩, ⟨29, 0, .ro, 0, 0⟩]⟩,
   ⟨0xbc, 0, 1, [⟨31, 0, .ro, 0, 0⟩]⟩,
   ⟨0xc0, 0, 1, [⟨31, 0, .ro, 0, 0⟩]⟩,
   ⟨0xc4, 0, 1, [⟨2, 2, .w1c, 0, 0⟩, ⟨1, 1, .w1c, 0, 0⟩, ⟨0, 0, .w1c, 0, 0⟩]⟩,
   ⟨0xc8, 0, 1, [⟨15, 0, .rw, 100, 0⟩]⟩,
   ⟨0xcc, 0, 1, [⟨16, 16, .ro, 0, 0⟩, ⟨15, 0, .ro, 0, 0⟩]⟩]

/-- The registers of block EVT. -/
def planEvt : List RegRow :=
  [
   ⟨0x0, 4, 256, [⟨31, 0, .rw, 0, 0⟩]⟩,
   ⟨0x400, 4, 32, [⟨7, 7, .rw, 0, 0⟩, ⟨15, 15, .rw, 0, 0⟩, ⟨23, 23, .rw, 0, 0⟩, ⟨31, 31, .rw, 0, 0⟩,
      ⟨5, 0, .rw, 0, 0⟩, ⟨13, 8, .rw, 0, 0⟩, ⟨21, 16, .rw, 0, 0⟩, ⟨29, 24, .rw, 0, 0⟩]⟩,
   ⟨0x480, 0, 1, [⟨25, 16, .rw, 100, 0⟩, ⟨15, 8, .rw, 25, 0⟩]⟩,
   ⟨0x484, 0, 1, [⟨31, 0, .rw, 0, 0⟩]⟩,
   ⟨0x488, 0, 1, [⟨31, 0, .rw, 0, 0⟩]⟩,
   ⟨0x48c, 0, 1, [⟨21, 16, .rw, 0, 0⟩, ⟨6, 0, .rw, 0, 0⟩]⟩,
   ⟨0x490, 0, 1, [⟨31, 31, .ro, 0, 0⟩, ⟨30, 30, .w1c, 0, 0⟩, ⟨29, 23, .ro, 0, 0⟩, ⟨15, 0, .rc, 0, 0⟩]⟩,
   ⟨0x494, 0, 1, [⟨31, 28, .ro, 0, 0⟩, ⟨26, 20, .ro, 0, 0⟩, ⟨15, 0, .rc, 0, 0⟩]⟩,
   ⟨0x498, 0, 1, [⟨31, 16, .rc, 0, 0⟩, ⟨15, 8, .rc, 0, 0⟩, ⟨7, 0, .rc, 0, 0⟩]⟩,
   ⟨0x49c, 0, 1, [⟨31, 28, .ro, 0, 0⟩, ⟨27, 23, .ro, 0, 0⟩, ⟨3, 3, .w1c, 0, 0⟩, ⟨2, 2, .w1c, 0, 0⟩,
      ⟨1, 1, .w1c, 0, 0⟩, ⟨0, 0, .w1c, 0, 0⟩]⟩]

/-- The registers of block MEM. -/
def planMem : List RegRow :=
  [
   ⟨0x0, 8, 64, [⟨31, 31, .ro, 0, 0⟩, ⟨30, 30, .ro, 0, 0⟩, ⟨29, 29, .ro, 0, 0⟩, ⟨23, 16, .rc, 0, 0⟩,
      ⟨15, 0, .rc, 0, 0⟩]⟩,
   ⟨0x4, 8, 64, [⟨31, 31, .ro, 0, 0⟩, ⟨30, 25, .ro, 0, 0⟩, ⟨17, 0, .ro, 0, 0⟩]⟩,
   ⟨0x200, 0, 1, [⟨19, 8, .rw, 60, 0⟩, ⟨7, 0, .rw, 10, 0⟩]⟩,
   ⟨0x204, 0, 1, [⟨27, 24, .rw, 2, 0⟩, ⟨15, 0, .ro, 0, 0⟩]⟩,
   ⟨0x208, 0, 1, [⟨31, 16, .rw, 4096, 0⟩, ⟨15, 8, .rw, 32, 0⟩]⟩,
   ⟨0x20c, 0, 1, [⟨31, 28, .ro, 0, 0⟩, ⟨27, 24, .ro, 0, 0⟩]⟩,
   ⟨0x210, 0, 1, [⟨31, 16, .ro, 0, 0⟩, ⟨6, 0, .ro, 0, 0⟩]⟩,
   ⟨0x214, 0, 1, [⟨31, 0, .ro, 0, 0⟩]⟩,
   ⟨0x218, 0, 1, [⟨31, 31, .rc, 0, 0⟩, ⟨30, 28, .ro, 0, 0⟩, ⟨27, 25, .ro, 0, 0⟩, ⟨24, 24, .ro, 0, 0⟩,
      ⟨23, 18, .ro, 0, 0⟩, ⟨17, 15, .ro, 0, 0⟩, ⟨3, 0, .ro, 0, 0⟩]⟩,
   ⟨0x21c, 0, 1, [⟨31, 31, .rw, 0, 0⟩, ⟨30, 30, .rw, 0, 0⟩, ⟨29, 24, .rw, 0, 0⟩, ⟨23, 19, .rw, 0, 0⟩,
      ⟨18, 14, .rw, 1, 0⟩, ⟨7, 0, .rw, 0, 0⟩]⟩,
   ⟨0x220, 0, 1, [⟨2, 0, .rw, 0, 0⟩]⟩,
   ⟨0x224, 0, 1, [⟨31, 16, .ro, 0, 0⟩, ⟨15, 0, .rw, 128, 0⟩]⟩,
   ⟨0x228, 0, 1, [⟨31, 16, .rc, 0, 0⟩, ⟨15, 0, .rc, 0, 0⟩]⟩,
   ⟨0x22c, 0, 1, [⟨31, 0, .rc, 0, 0⟩]⟩,
   ⟨0x230, 0, 1, [⟨31, 16, .rc, 0, 0⟩, ⟨15, 0, .rc, 0, 0⟩]⟩,
   ⟨0x234, 0, 1, [⟨31, 16, .rc, 0, 0⟩, ⟨15, 0, .rc, 0, 0⟩]⟩] ++
  [
   ⟨0x238, 0, 1, [⟨31, 31, .rw, 1, 0⟩, ⟨4, 4, .w1c, 0, 0⟩, ⟨3, 3, .w1c, 0, 0⟩, ⟨2, 2, .w1c, 0, 0⟩,
      ⟨1, 1, .w1c, 0, 0⟩, ⟨0, 0, .w1c, 0, 0⟩]⟩,
   ⟨0x23c, 0, 1, [⟨7, 0, .ro, 0, 0⟩, ⟨15, 8, .ro, 0, 0⟩, ⟨23, 16, .ro, 0, 0⟩, ⟨31, 24, .ro, 0, 0⟩]⟩]

/-- The registers of block CHK. -/
def planChk : List RegRow :=
  [
   ⟨0x0, 16, 32, [⟨31, 31, .wo, 0, 0⟩, ⟨30, 30, .wo, 0, 0⟩, ⟨29, 29, .w1c, 0, 0⟩, ⟨28, 28, .ro, 0, 0⟩,
      ⟨27, 27, .rw, 0, 0⟩, ⟨26, 26, .rw, 0, 0⟩, ⟨25, 24, .rw, 2, 0⟩, ⟨23, 16, .rw, 0, 0⟩, ⟨15, 15, .rw, 0, 0⟩,
      ⟨14, 14, .w1c, 0, 0⟩, ⟨13, 8, .ro, 0, 0⟩, ⟨6, 0, .rw, 32, 0⟩]⟩,
   ⟨0x4, 16, 32, [⟨31, 0, .wo, 0, 0⟩]⟩,
   ⟨0x8, 16, 32, [⟨3, 0, .rw, 0, 0⟩]⟩,
   ⟨0xc, 16, 32, [⟨31, 0, .rw, 0, 0⟩]⟩]

/-- The registers of block LANE. -/
def planLane : List RegRow :=
  [
   ⟨0x0, 8, 96, [⟨31, 30, .rw, 0, 0⟩, ⟨29, 28, .rw, 0, 0⟩, ⟨27, 24, .rw, 3, 0⟩, ⟨23, 23, .rw, 0, 0⟩,
      ⟨22, 22, .rw, 0, 0⟩, ⟨21, 21, .rw, 0, 0⟩, ⟨20, 18, .rw, 2, 0⟩]⟩,
   ⟨0x4, 8, 96, [⟨31, 30, .ro, 0, 0⟩, ⟨29, 29, .ro, 0, 0⟩, ⟨28, 28, .ro, 0, 0⟩, ⟨27, 27, .ro, 0, 0⟩,
      ⟨26, 24, .ro, 0, 8⟩, ⟨23, 20, .ro, 0, 0⟩, ⟨19, 12, .ro, 0, 0⟩, ⟨11, 8, .rc, 0, 0⟩, ⟨7, 0, .rc, 0, 0⟩]⟩,
   ⟨0x300, 8, 12, [⟨31, 29, .rw, 7, 0⟩, ⟨28, 28, .rw, 1, 0⟩, ⟨27, 16, .rw, 60, 0⟩, ⟨15, 8, .rw, 64, 0⟩,
      ⟨0, 0, .rw, 1, 0⟩]⟩,
   ⟨0x304, 8, 12, [⟨31, 29, .ro, 7, 0⟩, ⟨28, 28, .ro, 1, 0⟩, ⟨27, 27, .ro, 0, 0⟩, ⟨26, 24, .ro, 0, 0⟩,
      ⟨23, 22, .ro, 0, 0⟩, ⟨21, 16, .rc, 0, 0⟩, ⟨15, 0, .rc, 0, 0⟩]⟩]

/-- The registers of block PCIE. -/
def planPcie : List RegRow :=
  [
   ⟨0x0, 0, 1, [⟨31, 16, .ro, 0, 0⟩, ⟨15, 0, .ro, 0, 0⟩]⟩,
   ⟨0x4, 0, 1, [⟨31, 16, .ro, 0, 0⟩, ⟨15, 0, .ro, 0, 0⟩]⟩,
   ⟨0x8, 0, 1, [⟨31, 8, .ro, 1146880, 0⟩, ⟨7, 0, .ro, 0, 0⟩]⟩,
   ⟨0xc, 0, 1, [⟨31, 26, .ro, 0, 0⟩, ⟨25, 23, .ro, 0, 0⟩, ⟨22, 18, .ro, 0, 0⟩, ⟨17, 16, .ro, 0, 0⟩]⟩,
   ⟨0x10, 0, 1, [⟨31, 31, .rw, 1, 0⟩, ⟨12, 0, .rw, 1000, 0⟩]⟩,
   ⟨0x14, 0, 1, [⟨5, 5, .w1c, 0, 0⟩, ⟨4, 4, .w1c, 0, 0⟩, ⟨3, 3, .w1c, 0, 0⟩, ⟨2, 2, .w1c, 0, 0⟩,
      ⟨1, 1, .w1c, 0, 0⟩, ⟨0, 0, .w1c, 0, 0⟩]⟩,
   ⟨0x18, 0, 1, [⟨31, 16, .rc, 0, 0⟩, ⟨15, 0, .rc, 0, 0⟩]⟩,
   ⟨0x1c, 0, 1, [⟨31, 16, .rc, 0, 0⟩, ⟨15, 0, .rc, 0, 0⟩]⟩,
   ⟨0x20, 0, 1, [⟨31, 24, .rc, 0, 0⟩, ⟨23, 16, .rc, 0, 0⟩, ⟨15, 8, .rc, 0, 0⟩, ⟨7, 0, .rc, 0, 0⟩]⟩,
   ⟨0x24, 0, 1, [⟨31, 24, .rc, 0, 0⟩, ⟨23, 16, .rc, 0, 0⟩, ⟨15, 8, .rc, 0, 0⟩]⟩,
   ⟨0x28, 0, 1, [⟨31, 16, .rc, 0, 0⟩, ⟨15, 0, .rc, 0, 0⟩]⟩,
   ⟨0x2c, 0, 1, [⟨31, 16, .rc, 0, 0⟩]⟩,
   ⟨0x30, 4, 4, [⟨31, 0, .ro, 0, 0⟩]⟩]

/-- The registers of block ETH. -/
def planEth : List RegRow :=
  [
   ⟨0x0, 32, 2, [⟨31, 31, .rw, 0, 0⟩, ⟨30, 29, .rw, 2, 0⟩, ⟨28, 27, .rw, 0, 0⟩, ⟨26, 26, .rw, 1, 0⟩,
      ⟨25, 25, .rw, 0, 0⟩, ⟨24, 19, .rw, 24, 0⟩]⟩,
   ⟨0x4, 32, 2, [⟨31, 31, .ro, 0, 0⟩, ⟨30, 30, .ro, 0, 0⟩, ⟨29, 29, .ro, 0, 0⟩]⟩,
   ⟨0x8, 32, 2, [⟨31, 0, .ro, 0, 0⟩]⟩,
   ⟨0xc, 32, 2, [⟨31, 16, .rw, 17760, 0⟩, ⟨15, 0, .ro, 0, 0⟩]⟩,
   ⟨0x10, 32, 2, [⟨31, 0, .rw, 0, 0⟩]⟩,
   ⟨0x14, 32, 2, [⟨31, 0, .rw, 0, 0⟩]⟩,
   ⟨0x18, 32, 2, [⟨31, 16, .rc, 0, 0⟩, ⟨15, 0, .rc, 0, 0⟩]⟩,
   ⟨0x1c, 32, 2, [⟨31, 24, .rc, 0, 0⟩, ⟨23, 16, .rc, 0, 0⟩, ⟨15, 8, .rc, 0, 0⟩, ⟨7, 0, .rc, 0, 0⟩]⟩]

/-- The registers of block MON. -/
def planMon : List RegRow :=
  [
   ⟨0x0, 16, 64, [⟨31, 31, .rw, 0, 0⟩, ⟨30, 29, .rw, 0, 0⟩, ⟨28, 27, .rw, 0, 0⟩, ⟨26, 26, .rw, 0, 0⟩,
      ⟨25, 25, .rw, 0, 0⟩, ⟨24, 24, .rw, 0, 0⟩, ⟨23, 16, .rw, 0, 0⟩, ⟨11, 0, .rw, 0, 0⟩]⟩,
   ⟨0x4, 16, 64, [⟨31, 0, .rw, 1000, 0⟩]⟩,
   ⟨0x8, 16, 64, [⟨31, 16, .rw, 0, 0⟩, ⟨15, 0, .rw, 1, 0⟩]⟩,
   ⟨0xc, 16, 64, [⟨31, 31, .ro, 0, 0⟩, ⟨30, 30, .ro, 0, 0⟩, ⟨29, 29, .ro, 0, 0⟩, ⟨15, 0, .ro, 0, 0⟩]⟩]

/-- The registers of block PWR. -/
def planPwr : List RegRow :=
  [
   ⟨0x0, 0, 1, [⟨31, 31, .rw, 1, 0⟩, ⟨30, 30, .rw, 0, 0⟩, ⟨29, 29, .rw, 1, 0⟩, ⟨28, 28, .rw, 1, 0⟩,
      ⟨27, 27, .rw, 1, 0⟩, ⟨15, 0, .rw, 100, 0⟩]⟩,
   ⟨0x4, 0, 1, [⟨31, 30, .ro, 0, 0⟩, ⟨29, 29, .ro, 0, 0⟩, ⟨28, 28, .ro, 0, 0⟩, ⟨27, 27, .ro, 0, 0⟩,
      ⟨26, 24, .ro, 0, 0⟩, ⟨23, 20, .ro, 0, 0⟩, ⟨5, 0, .ro, 0, 0⟩]⟩,
   ⟨0x8, 0, 1, [⟨31, 16, .ro, 0, 0⟩, ⟨15, 0, .ro, 0, 0⟩]⟩,
   ⟨0xc, 0, 1, [⟨31, 16, .rc, 0, 0⟩, ⟨15, 0, .ro, 0, 0⟩]⟩,
   ⟨0x10, 0, 1, [⟨31, 0, .ro, 0, 0⟩]⟩,
   ⟨0x14, 0, 1, [⟨31, 0, .ro, 0, 0⟩]⟩,
   ⟨0x18, 0, 1, [⟨31, 0, .ro, 0, 0⟩]⟩,
   ⟨0x1c, 0, 1, [⟨15, 8, .ro, 0, 0⟩, ⟨5, 0, .ro, 0, 0⟩]⟩,
   ⟨0x20, 0, 1, [⟨25, 24, .ro, 0, 0⟩, ⟨23, 16, .ro, 0, 0⟩, ⟨7, 4, .ro, 0, 0⟩, ⟨3, 0, .w1c, 0, 0⟩]⟩,
   ⟨0x24, 0, 1, [⟨7, 0, .rw, 10, 0⟩]⟩,
   ⟨0x28, 0, 1, [⟨31, 24, .ro, 125, 0⟩, ⟨23, 16, .ro, 90, 0⟩, ⟨7, 0, .ro, 0, 0⟩]⟩,
   ⟨0x2c, 0, 1, [⟨31, 16, .rc, 0, 0⟩, ⟨15, 0, .rc, 0, 0⟩]⟩,
   ⟨0x30, 0, 1, [⟨31, 0, .ro, 0, 0⟩]⟩,
   ⟨0x34, 0, 1, [⟨31, 16, .ro, 0, 0⟩, ⟨15, 0, .rc, 0, 0⟩]⟩,
   ⟨0x38, 0, 1, [⟨4, 4, .w1c, 0, 0⟩, ⟨3, 3, .w1c, 0, 0⟩, ⟨2, 2, .w1c, 0, 0⟩, ⟨1, 1, .w1c, 0, 0⟩,
      ⟨0, 0, .w1c, 0, 0⟩]⟩,
   ⟨0x3c, 0, 1, [⟨31, 16, .ro, 0, 0⟩, ⟨15, 0, .ro, 0, 0⟩]⟩]

/-- The registers of block NVC. -/
def planNvc : List RegRow :=
  [
   ⟨0x0, 0, 1, [⟨31, 31, .ro, 0, 0⟩, ⟨30, 30, .ro, 0, 0⟩, ⟨29, 29, .ro, 1, 0⟩, ⟨28, 28, .ro, 0, 0⟩,
      ⟨27, 27, .ro, 0, 0⟩]⟩,
   ⟨0x4, 0, 1, [⟨31, 0, .ro, 0, 0⟩]⟩,
   ⟨0x8, 0, 1, [⟨31, 0, .ro, 0, 0⟩]⟩,
   ⟨0xc, 0, 1, [⟨31, 16, .ro, 0, 0⟩, ⟨15, 0, .ro, 0, 0⟩]⟩,
   ⟨0x10, 0, 1, [⟨15, 8, .rw, 0, 0⟩, ⟨7, 0, .rw, 0, 0⟩]⟩,
   ⟨0x14, 0, 1, [⟨31, 31, .ro, 0, 0⟩, ⟨30, 30, .ro, 0, 0⟩, ⟨29, 29, .ro, 0, 0⟩, ⟨23, 0, .ro, 0, 0⟩]⟩,
   ⟨0x18, 0, 1, [⟨31, 0, .ro, 0, 0⟩]⟩,
   ⟨0x1c, 0, 1, [⟨31, 0, .ro, 0, 0⟩]⟩,
   ⟨0x20, 0, 1, [⟨31, 31, .ro, 0, 0⟩, ⟨15, 0, .ro, 0, 0⟩]⟩,
   ⟨0x24, 0, 1, [⟨29, 0, .ro, 0, 0⟩]⟩,
   ⟨0x28, 0, 1, [⟨31, 0, .ro, 0, 0⟩]⟩,
   ⟨0x2c, 0, 1, [⟨31, 16, .ro, 0, 0⟩, ⟨15, 0, .ro, 6250, 0⟩]⟩,
   ⟨0x30, 0, 1, [⟨31, 16, .rc, 0, 0⟩, ⟨15, 0, .rc, 0, 0⟩]⟩,
   ⟨0x34, 0, 1, [⟨15, 0, .ro, 0, 0⟩]⟩,
   ⟨0x38, 0, 1, [⟨31, 0, .ro, 0, 0⟩]⟩,
   ⟨0x3c, 0, 1, [⟨2, 2, .w1c, 0, 0⟩, ⟨1, 1, .w1c, 0, 0⟩, ⟨0, 0, .w1c, 0, 0⟩]⟩]

/-- The registers of block SPARE. -/
def planSpare : List RegRow :=
  [
   ⟨0x0, 0, 1, [⟨31, 31, .rw, 1, 0⟩, ⟨30, 30, .rw, 1, 0⟩]⟩,
   ⟨0x4, 0, 1, [⟨3, 0, .rw, 0, 0⟩]⟩,
   ⟨0x8, 0, 1, [⟨31, 31, .ro, 1, 0⟩, ⟨30, 30, .ro, 0, 0⟩, ⟨29, 29, .ro, 0, 0⟩, ⟨28, 24, .ro, 16, 0⟩,
      ⟨23, 19, .ro, 31, 0⟩, ⟨18, 14, .ro, 31, 0⟩, ⟨13, 10, .ro, 0, 0⟩, ⟨9, 9, .ro, 0, 0⟩, ⟨8, 8, .ro, 1, 0⟩,
      ⟨7, 0, .ro, 0, 0⟩]⟩,
   ⟨0xc, 0, 1, [⟨31, 31, .ro, 0, 0⟩, ⟨30, 30, .ro, 1, 0⟩, ⟨29, 29, .ro, 0, 0⟩, ⟨23, 16, .rc, 0, 0⟩,
      ⟨15, 8, .rc, 0, 0⟩, ⟨7, 0, .rc, 0, 0⟩]⟩,
   ⟨0x10, 0, 1, [⟨31, 29, .ro, 0, 0⟩, ⟨19, 16, .ro, 0, 0⟩, ⟨4, 0, .ro, 0, 0⟩]⟩,
   ⟨0x14, 0, 1, [⟨31, 16, .rc, 0, 0⟩, ⟨15, 0, .rc, 0, 0⟩]⟩,
   ⟨0x18, 0, 1, [⟨31, 28, .ro, 0, 0⟩, ⟨27, 24, .ro, 0, 0⟩, ⟨23, 19, .ro, 0, 0⟩, ⟨18, 16, .ro, 0, 0⟩]⟩,
   ⟨0x1c, 0, 1, [⟨3, 3, .w1c, 0, 0⟩, ⟨2, 2, .w1c, 0, 0⟩, ⟨1, 1, .w1c, 0, 0⟩, ⟨0, 0, .w1c, 0, 0⟩]⟩]

/-- The blocks of Table 19-1 by number; a number outside the table holds no register (R415). -/
def planOf (block : Nat) : List RegRow :=
  match block with
  | 0x00 => planPlat
  | 0x01 => planPace
  | 0x02 => planArb
  | 0x03 => planLock
  | 0x04 => planCmd
  | 0x08 => planDma
  | 0x09 => planDcmp
  | 0x0a => planCmpr
  | 0x10 => planDose
  | 0x11 => planFire
  | 0x18 => planCap
  | 0x19 => planKal
  | 0x1a => planRsmp
  | 0x1b => planJig
  | 0x1c => planNoz
  | 0x20 => planPos
  | 0x21 => planSsi
  | 0x22 => planAxis
  | 0x28 => planTime
  | 0x29 => planEvt
  | 0x30 => planMem
  | 0x31 => planChk
  | 0x38 => planLane
  | 0x39 => planPcie
  | 0x3a => planEth
  | 0x40 => planMon
  | 0x48 => planPwr
  | 0x49 => planNvc
  | 0x4a => planSpare
  | _ => []

/-- The Last column of Table 19-1: the highest mapped offset of a block; none outside the table. -/
def blockLast (block : Nat) : Option Nat :=
  match block with
  | 0x00 => some 0x07c
  | 0x01 => some 0x05c
  | 0x02 => some 0x1fc
  | 0x03 => some 0x0fc
  | 0x04 => some 0x090
  | 0x08 => some 0x41c
  | 0x09 => some 0x0fc
  | 0x0a => some 0x03c
  | 0x10 => some 0x23c
  | 0x11 => some 0x33c
  | 0x18 => some 0x2fc
  | 0x19 => some 0x0fc
  | 0x1a => some 0x07c
  | 0x1b => some 0x07c
  | 0x1c => some 0x03c
  | 0x20 => some 0x0fc
  | 0x21 => some 0x07c
  | 0x22 => some 0x2fc
  | 0x28 => some 0x0cc
  | 0x29 => some 0x49c
  | 0x30 => some 0x23c
  | 0x31 => some 0x1fc
  | 0x38 => some 0x35c
  | 0x39 => some 0x03c
  | 0x3a => some 0x03c
  | 0x40 => some 0x3fc
  | 0x48 => some 0x03c
  | 0x49 => some 0x03c
  | 0x4a => some 0x01c
  | _ => none

namespace Reg

/-! Block PLAT: register addresses and fields. -/

def PLAT_ID : Nat := 0x000000
def PLAT_ID_PART : Fld := ⟨0x000000, 31, 16⟩
def PLAT_ID_STEP : Fld := ⟨0x000000, 15, 8⟩
def PLAT_ID_PLAN : Fld := ⟨0x000000, 7, 0⟩
def PLAT_STATE : Nat := 0x000004
def PLAT_STATE_STATE : Fld := ⟨0x000004, 31, 28⟩
def PLAT_STATE_PREV : Fld := ⟨0x000004, 27, 24⟩
def PLAT_STATE_BARRIER : Fld := ⟨0x000004, 23, 23⟩
def PLAT_STATE_STAGED : Fld := ⟨0x000004, 22, 22⟩
def PLAT_STATE_JOB : Fld := ⟨0x000004, 21, 21⟩
def PLAT_STATE_COND : Fld := ⟨0x000004, 5, 0⟩
def PLAT_STRAPS : Nat := 0x000008
def PLAT_STRAPS_ID : Fld := ⟨0x000008, 31, 29⟩
def PLAT_STRAPS_WIDTH : Fld := ⟨0x000008, 28, 27⟩
def PLAT_IN_STATE : Nat := 0x00000c
def PLAT_IN_STATE_SECONDS : Fld := ⟨0x00000c, 31, 0⟩
def PLAT_SERIAL_LO : Nat := 0x000010
def PLAT_SERIAL_LO_SERIAL_LO : Fld := ⟨0x000010, 31, 0⟩
def PLAT_SERIAL_HI : Nat := 0x000014
def PLAT_SERIAL_HI_SERIAL_HI : Fld := ⟨0x000014, 31, 0⟩
def PLAT_FW_VER : Nat := 0x000018
def PLAT_FW_VER_VERSION : Fld := ⟨0x000018, 31, 0⟩
def PLAT_FW_COMPAT : Nat := 0x00001c
def PLAT_FW_COMPAT_LEVEL : Fld := ⟨0x00001c, 15, 0⟩
def PLAT_UPTIME_LO : Nat := 0x000020
def PLAT_UPTIME_LO_MS_LO : Fld := ⟨0x000020, 31, 0⟩
def PLAT_UPTIME_HI : Nat := 0x000024
def PLAT_UPTIME_HI_MS_HI : Fld := ⟨0x000024, 31, 0⟩
def PLAT_BOOT : Nat := 0x000028
def PLAT_BOOT_BOOT_MS : Fld := ⟨0x000028, 31, 16⟩
def PLAT_BOOT_STEP : Fld := ⟨0x000028, 3, 0⟩
def PLAT_COND_SEEN : Nat := 0x00002c
def PLAT_COND_SEEN_SEEN : Fld := ⟨0x00002c, 5, 0⟩
def PLAT_SCRATCH (i : Nat) : Nat := 0x000030 + 0x4 * i
def PLAT_SCRATCH_DATA (i : Nat) : Fld := ⟨0x000030 + 0x4 * i, 31, 0⟩

/-! Block PACE: register addresses and fields. -/

def PACE_CTRL : Nat := 0x010000
def PACE_CTRL_EV_EN : Fld := ⟨0x010000, 11, 8⟩
def PACE_CTRL_MODE : Fld := ⟨0x010000, 1, 0⟩
def PACE_STATUS : Nat := 0x010004
def PACE_STATUS_TARGET_MV : Fld := ⟨0x010004, 25, 16⟩
def PACE_STATUS_FIT_HOLD : Fld := ⟨0x010004, 7, 7⟩
def PACE_STATUS_TJ_OVER : Fld := ⟨0x010004, 6, 6⟩
def PACE_STATUS_NEED : Fld := ⟨0x010004, 5, 5⟩
def PACE_STATUS_AT_CAP : Fld := ⟨0x010004, 4, 4⟩
def PACE_STATUS_AT_FLOOR : Fld := ⟨0x010004, 3, 3⟩
def PACE_STATUS_RAMPING : Fld := ⟨0x010004, 2, 2⟩
def PACE_STATUS_MODE_ACT : Fld := ⟨0x010004, 1, 0⟩
def PACE_MEAS : Nat := 0x010008
def PACE_MEAS_TJ_MAX_C : Fld := ⟨0x010008, 31, 24⟩
def PACE_MEAS_TJ_C : Fld := ⟨0x010008, 23, 16⟩
def PACE_MEAS_VCORE_MV : Fld := ⟨0x010008, 9, 0⟩
def PACE_LIMIT : Nat := 0x01000c
def PACE_LIMIT_VCAP_MV : Fld := ⟨0x01000c, 9, 0⟩
def PACE_SLACK : Nat := 0x010010
def PACE_SLACK_CAPFILL_MAX : Fld := ⟨0x010010, 23, 16⟩
def PACE_SLACK_CONC_TARGET : Fld := ⟨0x010010, 15, 0⟩
def PACE_LOOP : Nat := 0x010014
def PACE_LOOP_STEP_MV : Fld := ⟨0x010014, 15, 8⟩
def PACE_LOOP_INTERVAL_US : Fld := ⟨0x010014, 7, 0⟩
def PACE_SLEW : Nat := 0x010018
def PACE_SLEW_DOWN : Fld := ⟨0x010018, 15, 8⟩
def PACE_SLEW_UP : Fld := ⟨0x010018, 7, 0⟩
def PACE_EVENTS : Nat := 0x01001c
def PACE_EVENTS_LAST_REFUSE : Fld := ⟨0x01001c, 23, 16⟩
def PACE_EVENTS_VCORE_LOW : Fld := ⟨0x01001c, 6, 6⟩
def PACE_EVENTS_FIT_LOST : Fld := ⟨0x01001c, 5, 5⟩
def PACE_EVENTS_CANARY_FAULT : Fld := ⟨0x01001c, 4, 4⟩
def PACE_EVENTS_TJ_OVER : Fld := ⟨0x01001c, 3, 3⟩
def PACE_EVENTS_CEIL_SHORT : Fld := ⟨0x01001c, 2, 2⟩
def PACE_EVENTS_MODE_REFUSED : Fld := ⟨0x01001c, 0, 0⟩
def PACE_CANARY (i : Nat) : Nat := 0x010020 + 0x4 * i
def PACE_CANARY_VALID (i : Nat) : Fld := ⟨0x010020 + 0x4 * i, 31, 31⟩
def PACE_CANARY_FAULT (i : Nat) : Fld := ⟨0x010020 + 0x4 * i, 30, 30⟩
def PACE_CANARY_GATED (i : Nat) : Fld := ⟨0x010020 + 0x4 * i, 29, 29⟩
def PACE_CANARY_SPEED (i : Nat) : Fld := ⟨0x010020 + 0x4 * i, 15, 0⟩

/-! Block ARB: register addresses and fields. -/

def ARB_J_LIMLO (i : Nat) : Nat := 0x020000 + 0x10 * i
def ARB_J_LIMLO_LIM3 (i : Nat) : Fld := ⟨0x020000 + 0x10 * i, 31, 24⟩
def ARB_J_LIMLO_LIM2 (i : Nat) : Fld := ⟨0x020000 + 0x10 * i, 23, 16⟩
def ARB_J_LIMLO_LIM1 (i : Nat) : Fld := ⟨0x020000 + 0x10 * i, 15, 8⟩
def ARB_J_LIMLO_LIM0 (i : Nat) : Fld := ⟨0x020000 + 0x10 * i, 7, 0⟩
def ARB_J_LIMHI (i : Nat) : Nat := 0x020004 + 0x10 * i
def ARB_J_LIMHI_LIM7 (i : Nat) : Fld := ⟨0x020004 + 0x10 * i, 31, 24⟩
def ARB_J_LIMHI_LIM6 (i : Nat) : Fld := ⟨0x020004 + 0x10 * i, 23, 16⟩
def ARB_J_LIMHI_LIM5 (i : Nat) : Fld := ⟨0x020004 + 0x10 * i, 15, 8⟩
def ARB_J_LIMHI_LIM4 (i : Nat) : Fld := ⟨0x020004 + 0x10 * i, 7, 0⟩
def ARB_J_SLOT (i : Nat) : Nat := 0x020008 + 0x10 * i
def ARB_J_SLOT_IN_FIRE (i : Nat) : Fld := ⟨0x020008 + 0x10 * i, 23, 21⟩
def ARB_J_SLOT_IN_CAPTURE (i : Nat) : Fld := ⟨0x020008 + 0x10 * i, 20, 18⟩
def ARB_J_SLOT_IN_CONTROL (i : Nat) : Fld := ⟨0x020008 + 0x10 * i, 17, 15⟩
def ARB_J_SLOT_IN_LOOP (i : Nat) : Fld := ⟨0x020008 + 0x10 * i, 14, 12⟩
def ARB_J_SLOT_IN_ANALYSIS (i : Nat) : Fld := ⟨0x020008 + 0x10 * i, 11, 9⟩
def ARB_J_SLOT_IN_EXPANSION (i : Nat) : Fld := ⟨0x020008 + 0x10 * i, 8, 6⟩
def ARB_J_SLOT_IN_INGEST (i : Nat) : Fld := ⟨0x020008 + 0x10 * i, 5, 3⟩
def ARB_J_SLOT_IN_BACKGROUND (i : Nat) : Fld := ⟨0x020008 + 0x10 * i, 2, 0⟩
def ARB_J_CTRL (i : Nat) : Nat := 0x02000c + 0x10 * i
def ARB_J_CTRL_FAIRNESS (i : Nat) : Fld := ⟨0x02000c + 0x10 * i, 31, 30⟩
def ARB_J_CTRL_STUCK (i : Nat) : Fld := ⟨0x02000c + 0x10 * i, 29, 29⟩
def ARB_J_CTRL_FORCED (i : Nat) : Fld := ⟨0x02000c + 0x10 * i, 23, 16⟩
def ARB_J_CTRL_MASKED (i : Nat) : Fld := ⟨0x02000c + 0x10 * i, 15, 8⟩
def ARB_J_CTRL_REQ (i : Nat) : Fld := ⟨0x02000c + 0x10 * i, 7, 0⟩
def ARB_M (i : Nat) : Nat := 0x020100 + 0x4 * i
def ARB_M_FORCED (i : Nat) : Fld := ⟨0x020100 + 0x4 * i, 31, 24⟩
def ARB_M_STUCK (i : Nat) : Fld := ⟨0x020100 + 0x4 * i, 15, 15⟩
def ARB_M_THROTTLE (i : Nat) : Fld := ⟨0x020100 + 0x4 * i, 11, 11⟩
def ARB_M_THR_INPUT (i : Nat) : Fld := ⟨0x020100 + 0x4 * i, 10, 8⟩
def ARB_M_MASKED (i : Nat) : Fld := ⟨0x020100 + 0x4 * i, 7, 0⟩

/-! Block LOCK: register addresses and fields. -/

def LOCK (i : Nat) : Nat := 0x030000 + 0x4 * i
def LOCK_STATE (i : Nat) : Fld := ⟨0x030000 + 0x4 * i, 31, 30⟩
def LOCK_OWNER_KIND (i : Nat) : Fld := ⟨0x030000 + 0x4 * i, 29, 29⟩
def LOCK_OWNER (i : Nat) : Fld := ⟨0x030000 + 0x4 * i, 28, 21⟩
def LOCK_BREAKS (i : Nat) : Fld := ⟨0x030000 + 0x4 * i, 15, 8⟩
def LOCK_HOLD_LIMIT (i : Nat) : Fld := ⟨0x030000 + 0x4 * i, 7, 4⟩
def LOCK_WAITERS (i : Nat) : Fld := ⟨0x030000 + 0x4 * i, 3, 0⟩

/-! Block CMD: register addresses and fields. -/

def CMD_CTRL : Nat := 0x040000
def CMD_CTRL_LOCKOUT_S : Fld := ⟨0x040000, 23, 16⟩
def CMD_CTRL_ETH_IDLE_S : Fld := ⟨0x040000, 15, 0⟩
def CMD_STATUS : Nat := 0x040004
def CMD_STATUS_C1_BREACH : Fld := ⟨0x040004, 23, 20⟩
def CMD_STATUS_STALL : Fld := ⟨0x040004, 19, 16⟩
def CMD_STATUS_OPEN : Fld := ⟨0x040004, 15, 0⟩
def CMD_ERR : Nat := 0x040008
def CMD_ERR_CAUSE : Fld := ⟨0x040008, 27, 24⟩
def CMD_ERR_ADDR : Fld := ⟨0x040008, 23, 0⟩
def CMD_COUNTS : Nat := 0x04000c
def CMD_COUNTS_DROPPED : Fld := ⟨0x04000c, 31, 16⟩
def CMD_COUNTS_AUTH_FAIL : Fld := ⟨0x04000c, 15, 8⟩
def CMD_CBASE_LO (i : Nat) : Nat := 0x040020 + 0x20 * i
def CMD_CBASE_LO_ADDR_LO (i : Nat) : Fld := ⟨0x040020 + 0x20 * i, 31, 6⟩
def CMD_CBASE_HI (i : Nat) : Nat := 0x040024 + 0x20 * i
def CMD_CBASE_HI_ADDR_HI (i : Nat) : Fld := ⟨0x040024 + 0x20 * i, 31, 0⟩
def CMD_RBASE_LO (i : Nat) : Nat := 0x040028 + 0x20 * i
def CMD_RBASE_LO_ADDR_LO (i : Nat) : Fld := ⟨0x040028 + 0x20 * i, 31, 6⟩
def CMD_RBASE_HI (i : Nat) : Nat := 0x04002c + 0x20 * i
def CMD_RBASE_HI_ADDR_HI (i : Nat) : Fld := ⟨0x04002c + 0x20 * i, 31, 0⟩
def CMD_CFG (i : Nat) : Nat := 0x040030 + 0x20 * i
def CMD_CFG_ENABLE (i : Nat) : Fld := ⟨0x040030 + 0x20 * i, 31, 31⟩
def CMD_CFG_VECTOR (i : Nat) : Fld := ⟨0x040030 + 0x20 * i, 23, 16⟩
def CMD_CFG_RSIZE (i : Nat) : Fld := ⟨0x040030 + 0x20 * i, 12, 8⟩
def CMD_CFG_CSIZE (i : Nat) : Fld := ⟨0x040030 + 0x20 * i, 4, 0⟩

/-! Block DMA: register addresses and fields. -/

def DMA_HEAD_LO (i : Nat) : Nat := 0x080000 + 0x10 * i
def DMA_HEAD_LO_ADDR_LO (i : Nat) : Fld := ⟨0x080000 + 0x10 * i, 31, 5⟩
def DMA_HEAD_HI (i : Nat) : Nat := 0x080004 + 0x10 * i
def DMA_HEAD_HI_ADDR_HI (i : Nat) : Fld := ⟨0x080004 + 0x10 * i, 31, 0⟩
def DMA_CTRL (i : Nat) : Nat := 0x080008 + 0x10 * i
def DMA_CTRL_RUN (i : Nat) : Fld := ⟨0x080008 + 0x10 * i, 31, 31⟩
def DMA_CTRL_ABORT (i : Nat) : Fld := ⟨0x080008 + 0x10 * i, 30, 30⟩
def DMA_CTRL_OWNER (i : Nat) : Fld := ⟨0x080008 + 0x10 * i, 29, 29⟩
def DMA_CTRL_CLASS (i : Nat) : Fld := ⟨0x080008 + 0x10 * i, 28, 28⟩
def DMA_CTRL_HOP_EXP (i : Nat) : Fld := ⟨0x080008 + 0x10 * i, 27, 23⟩
def DMA_CTRL_CHECK (i : Nat) : Fld := ⟨0x080008 + 0x10 * i, 22, 21⟩
def DMA_CTRL_CHK_UNIT (i : Nat) : Fld := ⟨0x080008 + 0x10 * i, 20, 16⟩
def DMA_CTRL_VECTOR (i : Nat) : Fld := ⟨0x080008 + 0x10 * i, 15, 8⟩
def DMA_STATUS (i : Nat) : Nat := 0x08000c + 0x10 * i
def DMA_STATUS_END (i : Nat) : Fld := ⟨0x08000c + 0x10 * i, 31, 28⟩
def DMA_STATUS_FAULT_OWN (i : Nat) : Fld := ⟨0x08000c + 0x10 * i, 27, 27⟩
def DMA_STATUS_STOPPED (i : Nat) : Fld := ⟨0x08000c + 0x10 * i, 26, 26⟩
def DMA_STATUS_ACTIVE (i : Nat) : Fld := ⟨0x08000c + 0x10 * i, 25, 25⟩
def DMA_STATUS_HOPS (i : Nat) : Fld := ⟨0x08000c + 0x10 * i, 20, 0⟩
def DMA_GCTRL : Nat := 0x080400
def DMA_GCTRL_VECTOR : Fld := ⟨0x080400, 23, 16⟩
def DMA_GCTRL_WB_EN : Fld := ⟨0x080400, 0, 0⟩
def DMA_GSTATUS : Nat := 0x080404
def DMA_GSTATUS_BUS_HALT : Fld := ⟨0x080404, 31, 31⟩
def DMA_GSTATUS_FAULT_KIND : Fld := ⟨0x080404, 30, 28⟩
def DMA_GSTATUS_FAULTS : Fld := ⟨0x080404, 23, 16⟩
def DMA_WB_LO : Nat := 0x080408
def DMA_WB_LO_ADDR_LO : Fld := ⟨0x080408, 31, 11⟩
def DMA_WB_HI : Nat := 0x08040c
def DMA_WB_HI_ADDR_HI : Fld := ⟨0x08040c, 31, 0⟩
def DMA_DONE_LO : Nat := 0x080410
def DMA_DONE_LO_DONE : Fld := ⟨0x080410, 31, 0⟩
def DMA_DONE_HI : Nat := 0x080414
def DMA_DONE_HI_DONE : Fld := ⟨0x080414, 31, 0⟩
def DMA_FAULT_LO : Nat := 0x080418
def DMA_FAULT_LO_ADDR_LO : Fld := ⟨0x080418, 31, 0⟩
def DMA_FAULT_HI : Nat := 0x08041c
def DMA_FAULT_HI_ADDR_HI : Fld := ⟨0x08041c, 31, 0⟩

/-! Block DCMP: register addresses and fields. -/

def DCMP_CTRL (i : Nat) : Nat := 0x090000 + 0x10 * i
def DCMP_CTRL_ENABLE (i : Nat) : Fld := ⟨0x090000 + 0x10 * i, 0, 0⟩
def DCMP_STATUS (i : Nat) : Nat := 0x090004 + 0x10 * i
def DCMP_STATUS_BUSY (i : Nat) : Fld := ⟨0x090004 + 0x10 * i, 31, 31⟩
def DCMP_STATUS_CONTEXT (i : Nat) : Fld := ⟨0x090004 + 0x10 * i, 27, 16⟩
def DCMP_STATUS_SWITCHES (i : Nat) : Fld := ⟨0x090004 + 0x10 * i, 15, 0⟩
def DCMP_ERR (i : Nat) : Nat := 0x090008 + 0x10 * i
def DCMP_ERR_CODE (i : Nat) : Fld := ⟨0x090008 + 0x10 * i, 31, 24⟩
def DCMP_ERR_BIT (i : Nat) : Fld := ⟨0x090008 + 0x10 * i, 23, 21⟩
def DCMP_ERR_PLANE (i : Nat) : Fld := ⟨0x090008 + 0x10 * i, 15, 12⟩
def DCMP_ERR_COUNT (i : Nat) : Fld := ⟨0x090008 + 0x10 * i, 7, 0⟩
def DCMP_ERROFF (i : Nat) : Nat := 0x09000c + 0x10 * i
def DCMP_ERROFF_OFFSET (i : Nat) : Fld := ⟨0x09000c + 0x10 * i, 31, 0⟩

/-! Block CMPR: register addresses and fields. -/

def CMPR_CTRL (i : Nat) : Nat := 0x0a0000 + 0x10 * i
def CMPR_CTRL_LEVEL (i : Nat) : Fld := ⟨0x0a0000 + 0x10 * i, 3, 0⟩
def CMPR_STATUS (i : Nat) : Nat := 0x0a0004 + 0x10 * i
def CMPR_STATUS_BUSY (i : Nat) : Fld := ⟨0x0a0004 + 0x10 * i, 31, 31⟩
def CMPR_STATUS_CONTEXT (i : Nat) : Fld := ⟨0x0a0004 + 0x10 * i, 27, 16⟩
def CMPR_STATUS_STORED (i : Nat) : Fld := ⟨0x0a0004 + 0x10 * i, 15, 0⟩
def CMPR_IN (i : Nat) : Nat := 0x0a0008 + 0x10 * i
def CMPR_IN_KIB (i : Nat) : Fld := ⟨0x0a0008 + 0x10 * i, 31, 0⟩
def CMPR_OUT (i : Nat) : Nat := 0x0a000c + 0x10 * i
def CMPR_OUT_KIB (i : Nat) : Fld := ⟨0x0a000c + 0x10 * i, 31, 0⟩

/-! Block DOSE: register addresses and fields. -/

def DOSE_BAR_CTRL (i : Nat) : Nat := 0x100000 + 0x20 * i
def DOSE_BAR_CTRL_SWAP (i : Nat) : Fld := ⟨0x100000 + 0x20 * i, 31, 31⟩
def DOSE_BAR_CTRL_AUTO_SWAP (i : Nat) : Fld := ⟨0x100000 + 0x20 * i, 30, 30⟩
def DOSE_BAR_CTRL_PHASE_Y (i : Nat) : Fld := ⟨0x100000 + 0x20 * i, 15, 8⟩
def DOSE_BAR_CTRL_PHASE_X (i : Nat) : Fld := ⟨0x100000 + 0x20 * i, 7, 0⟩
def DOSE_BAR_DELAY (i : Nat) : Nat := 0x100004 + 0x20 * i
def DOSE_BAR_DELAY_DELAY (i : Nat) : Fld := ⟨0x100004 + 0x20 * i, 31, 0⟩
def DOSE_BAR_BUF (i : Nat) : Nat := 0x100008 + 0x20 * i
def DOSE_BAR_BUF_PSTACK (i : Nat) : Fld := ⟨0x100008 + 0x20 * i, 31, 30⟩
def DOSE_BAR_BUF_LINES (i : Nat) : Fld := ⟨0x100008 + 0x20 * i, 23, 0⟩
def DOSE_BAR_CONC (i : Nat) : Nat := 0x10000c + 0x20 * i
def DOSE_BAR_CONC_FILL (i : Nat) : Fld := ⟨0x10000c + 0x20 * i, 31, 16⟩
def DOSE_BAR_CONC_MAX (i : Nat) : Fld := ⟨0x10000c + 0x20 * i, 15, 0⟩
def DOSE_BAR_SWAPLINE (i : Nat) : Nat := 0x100010 + 0x20 * i
def DOSE_BAR_SWAPLINE_LINE (i : Nat) : Fld := ⟨0x100010 + 0x20 * i, 31, 0⟩
def DOSE_BAR_STATUS (i : Nat) : Nat := 0x100014 + 0x20 * i
def DOSE_BAR_STATUS_GEN (i : Nat) : Fld := ⟨0x100014 + 0x20 * i, 31, 24⟩
def DOSE_BAR_STATUS_SWAP_PEND (i : Nat) : Fld := ⟨0x100014 + 0x20 * i, 23, 23⟩
def DOSE_BAR_STATUS_THR_PEND (i : Nat) : Fld := ⟨0x100014 + 0x20 * i, 22, 22⟩
def DOSE_BAR_STATUS_CURVE_PEND (i : Nat) : Fld := ⟨0x100014 + 0x20 * i, 21, 21⟩
def DOSE_BAR_STATUS_GAIN_PEND (i : Nat) : Fld := ⟨0x100014 + 0x20 * i, 20, 20⟩
def DOSE_BAR_STATUS_SUB_PEND (i : Nat) : Fld := ⟨0x100014 + 0x20 * i, 19, 19⟩
def DOSE_BAR_STATUS_WAIT_QUEUE (i : Nat) : Fld := ⟨0x100014 + 0x20 * i, 18, 18⟩
def DOSE_BAR_STATUS_WAIT_BUF (i : Nat) : Fld := ⟨0x100014 + 0x20 * i, 17, 17⟩
def DOSE_BAR_STATUS_AT_MAX (i : Nat) : Fld := ⟨0x100014 + 0x20 * i, 16, 16⟩
def DOSE_BAR_STATUS_DEAD (i : Nat) : Fld := ⟨0x100014 + 0x20 * i, 15, 0⟩
def DOSE_CTRL : Nat := 0x100200
def DOSE_CTRL_GUARD : Fld := ⟨0x100200, 5, 5⟩
def DOSE_CTRL_VERIFY : Fld := ⟨0x100200, 4, 4⟩
def DOSE_CTRL_DEPTH : Fld := ⟨0x100200, 0, 0⟩
def DOSE_INFO : Nat := 0x100204
def DOSE_INFO_BARS : Fld := ⟨0x100204, 31, 24⟩
def DOSE_INFO_NOZZLES : Fld := ⟨0x100204, 18, 0⟩
def DOSE_EV_EN : Nat := 0x100208
def DOSE_EV_EN_SUB_LOST : Fld := ⟨0x100208, 2, 2⟩
def DOSE_EV_EN_BLANK : Fld := ⟨0x100208, 1, 1⟩
def DOSE_EV_EN_SWAP : Fld := ⟨0x100208, 0, 0⟩
def DOSE_EVENTS : Nat := 0x10020c
def DOSE_EVENTS_SUB_LOST : Fld := ⟨0x10020c, 2, 2⟩
def DOSE_EVENTS_BLANK : Fld := ⟨0x10020c, 1, 1⟩
def DOSE_EVENTS_SWAP : Fld := ⟨0x10020c, 0, 0⟩
def DOSE_CNT_RERUN : Nat := 0x100210
def DOSE_CNT_RERUN_COUNT : Fld := ⟨0x100210, 31, 0⟩
def DOSE_CNT_RESIDUE : Nat := 0x100214
def DOSE_CNT_RESIDUE_COUNT : Fld := ⟨0x100214, 31, 0⟩
def DOSE_CNT_INCRC : Nat := 0x100218
def DOSE_CNT_INCRC_COUNT : Fld := ⟨0x100218, 31, 0⟩
def DOSE_CNT_DUAL : Nat := 0x10021c
def DOSE_CNT_DUAL_COUNT : Fld := ⟨0x10021c, 31, 0⟩
def DOSE_CNT_SAFE : Nat := 0x100220
def DOSE_CNT_SAFE_COUNT : Fld := ⟨0x100220, 31, 0⟩
def DOSE_CNT_SUBLOST : Nat := 0x100224
def DOSE_CNT_SUBLOST_COUNT : Fld := ⟨0x100224, 31, 0⟩
def DOSE_CNT_QWAIT : Nat := 0x100228
def DOSE_CNT_QWAIT_COUNT : Fld := ⟨0x100228, 31, 0⟩
def DOSE_CNT_BUFWAIT : Nat := 0x10022c
def DOSE_CNT_BUFWAIT_COUNT : Fld := ⟨0x10022c, 31, 0⟩
def DOSE_FAIL : Nat := 0x100230
def DOSE_FAIL_CAUSE : Fld := ⟨0x100230, 31, 28⟩
def DOSE_FAIL_BAR : Fld := ⟨0x100230, 27, 24⟩
def DOSE_FAIL_BOARD : Fld := ⟨0x100230, 23, 18⟩
def DOSE_FAIL_SLICE : Fld := ⟨0x100230, 5, 0⟩
def DOSE_FAIL_LINE_LO : Nat := 0x100234
def DOSE_FAIL_LINE_LO_LINE_LO : Fld := ⟨0x100234, 31, 0⟩
def DOSE_FAIL_LINE_HI : Nat := 0x100238
def DOSE_FAIL_LINE_HI_LINE_HI : Fld := ⟨0x100238, 31, 0⟩
def DOSE_FAIL_ENG : Nat := 0x10023c
def DOSE_FAIL_ENG_ENG_B : Fld := ⟨0x10023c, 15, 8⟩
def DOSE_FAIL_ENG_ENG_A : Fld := ⟨0x10023c, 7, 0⟩

/-! Block FIRE: register addresses and fields. -/

def FIRE_B_CTRL (i : Nat) : Nat := 0x110000 + 0x10 * i
def FIRE_B_CTRL_ENABLE (i : Nat) : Fld := ⟨0x110000 + 0x10 * i, 31, 31⟩
def FIRE_B_CTRL_CLEAR (i : Nat) : Fld := ⟨0x110000 + 0x10 * i, 30, 30⟩
def FIRE_B_CTRL_FINE_NS (i : Nat) : Fld := ⟨0x110000 + 0x10 * i, 27, 16⟩
def FIRE_B_CTRL_TICK_OFF (i : Nat) : Fld := ⟨0x110000 + 0x10 * i, 15, 12⟩
def FIRE_B_STATUS (i : Nat) : Nat := 0x110004 + 0x10 * i
def FIRE_B_STATUS_STATE (i : Nat) : Fld := ⟨0x110004 + 0x10 * i, 31, 29⟩
def FIRE_B_STATUS_STROBE_FAULT (i : Nat) : Fld := ⟨0x110004 + 0x10 * i, 28, 28⟩
def FIRE_B_STATUS_ECHO_FAULT (i : Nat) : Fld := ⟨0x110004 + 0x10 * i, 27, 27⟩
def FIRE_B_STATUS_RAIL_FAULT (i : Nat) : Fld := ⟨0x110004 + 0x10 * i, 26, 26⟩
def FIRE_B_STATUS_PROFILE_MISMATCH (i : Nat) : Fld := ⟨0x110004 + 0x10 * i, 25, 25⟩
def FIRE_B_STATUS_LAST_CAUSE (i : Nat) : Fld := ⟨0x110004 + 0x10 * i, 23, 20⟩
def FIRE_B_STATUS_G (i : Nat) : Fld := ⟨0x110004 + 0x10 * i, 19, 16⟩
def FIRE_B_STATUS_CREDITS (i : Nat) : Fld := ⟨0x110004 + 0x10 * i, 15, 8⟩
def FIRE_B_ECHO (i : Nat) : Nat := 0x110008 + 0x10 * i
def FIRE_B_ECHO_TEMP (i : Nat) : Fld := ⟨0x110008 + 0x10 * i, 31, 16⟩
def FIRE_B_ECHO_RAIL (i : Nat) : Fld := ⟨0x110008 + 0x10 * i, 15, 8⟩
def FIRE_B_ECHO_FRAME (i : Nat) : Fld := ⟨0x110008 + 0x10 * i, 7, 0⟩
def FIRE_B_COUNT (i : Nat) : Nat := 0x11000c + 0x10 * i
def FIRE_B_COUNT_SAFE (i : Nat) : Fld := ⟨0x11000c + 0x10 * i, 31, 16⟩
def FIRE_B_COUNT_ECHO_MISS (i : Nat) : Fld := ⟨0x11000c + 0x10 * i, 15, 0⟩
def FIRE_CTRL : Nat := 0x110300
def FIRE_CTRL_EV_EN : Fld := ⟨0x110300, 31, 24⟩
def FIRE_CTRL_LEAD : Fld := ⟨0x110300, 23, 20⟩
def FIRE_CTRL_MISS_LIMIT : Fld := ⟨0x110300, 19, 16⟩
def FIRE_SHEET : Nat := 0x110304
def FIRE_SHEET_SHEET : Fld := ⟨0x110304, 15, 0⟩
def FIRE_TOS_OFF : Nat := 0x110308
def FIRE_TOS_OFF_OFFSET : Fld := ⟨0x110308, 31, 0⟩
def YOYO_CTRL : Nat := 0x11030c
def YOYO_CTRL_ENABLE : Fld := ⟨0x11030c, 31, 31⟩
def YOYO_CTRL_INTERVAL : Fld := ⟨0x11030c, 23, 16⟩
def YOYO_CTRL_LOOKAHEAD : Fld := ⟨0x11030c, 15, 0⟩
def YOYO_FLOOR : Nat := 0x110310
def YOYO_FLOOR_HYST : Fld := ⟨0x110310, 31, 16⟩
def YOYO_FLOOR_FLOOR : Fld := ⟨0x110310, 15, 0⟩
def YOYO_REQ : Nat := 0x110314
def YOYO_REQ_REQ : Fld := ⟨0x110314, 31, 16⟩
def YOYO_REQ_REQ_MIN : Fld := ⟨0x110314, 15, 0⟩
def YOYO_STEP : Nat := 0x110318
def YOYO_STEP_CAUSE : Fld := ⟨0x110318, 31, 28⟩
def YOYO_STEP_RAISE_DELAY : Fld := ⟨0x110318, 23, 16⟩
def YOYO_STEP_RAISE_STEP : Fld := ⟨0x110318, 15, 0⟩
def FIRE_EVENTS : Nat := 0x11031c
def FIRE_EVENTS_ENERGY_OVER : Fld := ⟨0x11031c, 5, 5⟩
def FIRE_EVENTS_TOS_EARLY : Fld := ⟨0x11031c, 4, 4⟩
def FIRE_EVENTS_STROBE : Fld := ⟨0x11031c, 3, 3⟩
def FIRE_EVENTS_HOT : Fld := ⟨0x11031c, 2, 2⟩
def FIRE_EVENTS_ECHO : Fld := ⟨0x11031c, 1, 1⟩
def FIRE_EVENTS_SAFE : Fld := ⟨0x11031c, 0, 0⟩
def FIRE_CNT_SAFE : Nat := 0x110320
def FIRE_CNT_SAFE_COUNT : Fld := ⟨0x110320, 31, 0⟩
def FIRE_CNT_LATE : Nat := 0x110324
def FIRE_CNT_LATE_COUNT : Fld := ⟨0x110324, 31, 0⟩
def FIRE_CNT_SPREAD : Nat := 0x110328
def FIRE_CNT_SPREAD_COUNT : Fld := ⟨0x110328, 31, 0⟩
def FIRE_CNT_GAPS : Nat := 0x11032c
def FIRE_CNT_GAPS_LOST : Fld := ⟨0x11032c, 31, 16⟩
def FIRE_CNT_GAPS_WRITTEN : Fld := ⟨0x11032c, 15, 0⟩
def GATE_CFG : Nat := 0x110330
def GATE_CFG_POLARITY : Fld := ⟨0x110330, 31, 31⟩
def GATE_CFG_THRESH : Fld := ⟨0x110330, 25, 16⟩
def GATE_CFG_AMP_FLOOR : Fld := ⟨0x110330, 11, 0⟩
def GATE_TIME : Nat := 0x110334
def GATE_TIME_PERIOD_US : Fld := ⟨0x110334, 31, 20⟩
def GATE_TIME_FLIGHT : Fld := ⟨0x110334, 19, 8⟩
def GATE_TIME_WINDOW : Fld := ⟨0x110334, 7, 0⟩
def GATE_STATUS : Nat := 0x110338
def GATE_STATUS_BUSY : Fld := ⟨0x110338, 31, 31⟩
def GATE_STATUS_GATE : Fld := ⟨0x110338, 27, 24⟩
def GATE_STATUS_BOARD : Fld := ⟨0x110338, 21, 16⟩
def GATE_STATUS_DONE : Fld := ⟨0x110338, 13, 0⟩
def SPDRQ_CFG : Nat := 0x11033c
def SPDRQ_CFG_ENABLE : Fld := ⟨0x11033c, 31, 31⟩
def SPDRQ_CFG_TEST : Fld := ⟨0x11033c, 30, 30⟩
def SPDRQ_CFG_TEST_VALUE : Fld := ⟨0x11033c, 15, 0⟩

/-! Block CAP: register addresses and fields. -/

def CAP_CTRL (i : Nat) : Nat := 0x180000 + 0x20 * i
def CAP_CTRL_ENABLE (i : Nat) : Fld := ⟨0x180000 + 0x20 * i, 31, 31⟩
def CAP_CTRL_SHADOW (i : Nat) : Fld := ⟨0x180000 + 0x20 * i, 30, 30⟩
def CAP_CTRL_LATENCY (i : Nat) : Fld := ⟨0x180000 + 0x20 * i, 29, 28⟩
def CAP_CTRL_KIND (i : Nat) : Fld := ⟨0x180000 + 0x20 * i, 27, 27⟩
def CAP_CTRL_BITS (i : Nat) : Fld := ⟨0x180000 + 0x20 * i, 26, 25⟩
def CAP_CTRL_EYE_RES (i : Nat) : Fld := ⟨0x180000 + 0x20 * i, 24, 23⟩
def CAP_CTRL_PIPE (i : Nat) : Fld := ⟨0x180000 + 0x20 * i, 22, 22⟩
def CAP_CTRL_CFA (i : Nat) : Fld := ⟨0x180000 + 0x20 * i, 21, 20⟩
def CAP_CTRL_SPI_MODE (i : Nat) : Fld := ⟨0x180000 + 0x20 * i, 19, 19⟩
def CAP_CTRL_SPI_DIV (i : Nat) : Fld := ⟨0x180000 + 0x20 * i, 18, 16⟩
def CAP_CTRL_FILL (i : Nat) : Fld := ⟨0x180000 + 0x20 * i, 11, 0⟩
def CAP_GEOM (i : Nat) : Nat := 0x180004 + 0x20 * i
def CAP_GEOM_LINES (i : Nat) : Fld := ⟨0x180004 + 0x20 * i, 30, 16⟩
def CAP_GEOM_PIXELS (i : Nat) : Fld := ⟨0x180004 + 0x20 * i, 14, 0⟩
def CAP_ALIGN (i : Nat) : Nat := 0x180008 + 0x20 * i
def CAP_ALIGN_D_R (i : Nat) : Fld := ⟨0x180008 + 0x20 * i, 20, 16⟩
def CAP_ALIGN_D_G (i : Nat) : Fld := ⟨0x180008 + 0x20 * i, 12, 8⟩
def CAP_ALIGN_D_B (i : Nat) : Fld := ⟨0x180008 + 0x20 * i, 4, 0⟩
def CAP_TRIG (i : Nat) : Nat := 0x18000c + 0x20 * i
def CAP_TRIG_SRC (i : Nat) : Fld := ⟨0x18000c + 0x20 * i, 31, 31⟩
def CAP_TRIG_WIDTH (i : Nat) : Fld := ⟨0x18000c + 0x20 * i, 30, 24⟩
def CAP_TRIG_PITCH (i : Nat) : Fld := ⟨0x18000c + 0x20 * i, 23, 0⟩
def CAP_SENS (i : Nat) : Nat := 0x180010 + 0x20 * i
def CAP_SENS_ADDR (i : Nat) : Fld := ⟨0x180010 + 0x20 * i, 31, 16⟩
def CAP_SENS_WCMD (i : Nat) : Fld := ⟨0x180010 + 0x20 * i, 15, 8⟩
def CAP_SENS_GUARD (i : Nat) : Fld := ⟨0x180010 + 0x20 * i, 7, 0⟩
def CAP_STATUS (i : Nat) : Nat := 0x180014 + 0x20 * i
def CAP_STATUS_SET_ID (i : Nat) : Fld := ⟨0x180014 + 0x20 * i, 31, 16⟩
def CAP_STATUS_FILL_PCT (i : Nat) : Fld := ⟨0x180014 + 0x20 * i, 15, 8⟩
def CAP_STATUS_OPEN (i : Nat) : Fld := ⟨0x180014 + 0x20 * i, 7, 7⟩
def CAP_STATUS_PEND (i : Nat) : Fld := ⟨0x180014 + 0x20 * i, 6, 6⟩
def CAP_STATUS_OUTSIDE (i : Nat) : Fld := ⟨0x180014 + 0x20 * i, 5, 5⟩
def CAP_STATUS_OVERRUN (i : Nat) : Fld := ⟨0x180014 + 0x20 * i, 4, 0⟩
def CAP_FRAME (i : Nat) : Nat := 0x180018 + 0x20 * i
def CAP_FRAME_FRAME (i : Nat) : Fld := ⟨0x180018 + 0x20 * i, 31, 0⟩
def CAP_COUNT (i : Nat) : Nat := 0x18001c + 0x20 * i
def CAP_COUNT_SHORT_LINE (i : Nat) : Fld := ⟨0x18001c + 0x20 * i, 31, 24⟩
def CAP_COUNT_LONG_LINE (i : Nat) : Fld := ⟨0x18001c + 0x20 * i, 23, 16⟩
def CAP_COUNT_SHORT_FRAME (i : Nat) : Fld := ⟨0x18001c + 0x20 * i, 15, 8⟩
def CAP_COUNT_OVERLENGTH (i : Nat) : Fld := ⟨0x18001c + 0x20 * i, 7, 0⟩

/-! Block KAL: register addresses and fields. -/

def KAL_CTRL (i : Nat) : Nat := 0x190000 + 0x20 * i
def KAL_CTRL_SHARE (i : Nat) : Fld := ⟨0x190000 + 0x20 * i, 31, 31⟩
def KAL_CTRL_FLAT_FREEZE (i : Nat) : Fld := ⟨0x190000 + 0x20 * i, 30, 30⟩
def KAL_CTRL_FLAT_EVERY (i : Nat) : Fld := ⟨0x190000 + 0x20 * i, 23, 16⟩
def KAL_CTRL_EDGE_K (i : Nat) : Fld := ⟨0x190000 + 0x20 * i, 7, 0⟩
def KAL_PIDX (i : Nat) : Nat := 0x190004 + 0x20 * i
def KAL_PIDX_APPLY (i : Nat) : Fld := ⟨0x190004 + 0x20 * i, 31, 31⟩
def KAL_PIDX_PEND (i : Nat) : Fld := ⟨0x190004 + 0x20 * i, 30, 30⟩
def KAL_PIDX_SLOT (i : Nat) : Fld := ⟨0x190004 + 0x20 * i, 18, 16⟩
def KAL_PIDX_WORD (i : Nat) : Fld := ⟨0x190004 + 0x20 * i, 3, 0⟩
def KAL_PDAT (i : Nat) : Nat := 0x190008 + 0x20 * i
def KAL_PDAT_DATA (i : Nat) : Fld := ⟨0x190008 + 0x20 * i, 31, 0⟩
def KAL_STATUS (i : Nat) : Nat := 0x19000c + 0x20 * i
def KAL_STATUS_BUSY (i : Nat) : Fld := ⟨0x19000c + 0x20 * i, 31, 31⟩
def KAL_STATUS_NOW (i : Nat) : Fld := ⟨0x19000c + 0x20 * i, 26, 24⟩
def KAL_STATUS_PORTS (i : Nat) : Fld := ⟨0x19000c + 0x20 * i, 21, 16⟩
def KAL_STATUS_SWITCHES (i : Nat) : Fld := ⟨0x19000c + 0x20 * i, 15, 0⟩
def KAL_FLAT (i : Nat) : Nat := 0x190010 + 0x20 * i
def KAL_FLAT_GEN (i : Nat) : Fld := ⟨0x190010 + 0x20 * i, 31, 24⟩
def KAL_FLAT_UPDATED (i : Nat) : Fld := ⟨0x190010 + 0x20 * i, 15, 0⟩
def KAL_DEFECT (i : Nat) : Nat := 0x190014 + 0x20 * i
def KAL_DEFECT_DARK_DEF (i : Nat) : Fld := ⟨0x190014 + 0x20 * i, 31, 16⟩
def KAL_DEFECT_GAIN_DEF (i : Nat) : Fld := ⟨0x190014 + 0x20 * i, 15, 0⟩
def KAL_SAMPLES (i : Nat) : Nat := 0x190018 + 0x20 * i
def KAL_SAMPLES_COUNT (i : Nat) : Fld := ⟨0x190018 + 0x20 * i, 31, 0⟩
def KAL_EVENTS (i : Nat) : Nat := 0x19001c + 0x20 * i
def KAL_EVENTS_EV_EN (i : Nat) : Fld := ⟨0x19001c + 0x20 * i, 19, 16⟩
def KAL_EVENTS_DEVIATION (i : Nat) : Fld := ⟨0x19001c + 0x20 * i, 3, 3⟩
def KAL_EVENTS_ZERO_PAPER (i : Nat) : Fld := ⟨0x19001c + 0x20 * i, 2, 2⟩
def KAL_EVENTS_DEFECT (i : Nat) : Fld := ⟨0x19001c + 0x20 * i, 1, 1⟩
def KAL_EVENTS_GAIN_SWAP (i : Nat) : Fld := ⟨0x19001c + 0x20 * i, 0, 0⟩

/-! Block RSMP: register addresses and fields. -/

def RSMP_CTRL (i : Nat) : Nat := 0x1a0000 + 0x10 * i
def RSMP_CTRL_SWAP (i : Nat) : Fld := ⟨0x1a0000 + 0x10 * i, 31, 31⟩
def RSMP_CTRL_AUTO_SWAP (i : Nat) : Fld := ⟨0x1a0000 + 0x10 * i, 30, 30⟩
def RSMP_CTRL_APPLY (i : Nat) : Fld := ⟨0x1a0000 + 0x10 * i, 29, 29⟩
def RSMP_CTRL_PEND (i : Nat) : Fld := ⟨0x1a0000 + 0x10 * i, 28, 28⟩
def RSMP_CTRL_EV_EN (i : Nat) : Fld := ⟨0x1a0000 + 0x10 * i, 27, 27⟩
def RSMP_CTRL_SLOT (i : Nat) : Fld := ⟨0x1a0000 + 0x10 * i, 18, 16⟩
def RSMP_CTRL_WORD (i : Nat) : Fld := ⟨0x1a0000 + 0x10 * i, 3, 0⟩
def RSMP_PDAT (i : Nat) : Nat := 0x1a0004 + 0x10 * i
def RSMP_PDAT_DATA (i : Nat) : Fld := ⟨0x1a0004 + 0x10 * i, 31, 0⟩
def RSMP_STATUS (i : Nat) : Nat := 0x1a0008 + 0x10 * i
def RSMP_STATUS_BUSY (i : Nat) : Fld := ⟨0x1a0008 + 0x10 * i, 31, 31⟩
def RSMP_STATUS_SWAP_PEND (i : Nat) : Fld := ⟨0x1a0008 + 0x10 * i, 30, 30⟩
def RSMP_STATUS_COEF_PEND (i : Nat) : Fld := ⟨0x1a0008 + 0x10 * i, 29, 29⟩
def RSMP_STATUS_GEN (i : Nat) : Fld := ⟨0x1a0008 + 0x10 * i, 23, 16⟩
def RSMP_STATUS_LINES_INC (i : Nat) : Fld := ⟨0x1a0008 + 0x10 * i, 15, 0⟩
def RSMP_SWAPPOS (i : Nat) : Nat := 0x1a000c + 0x10 * i
def RSMP_SWAPPOS_LINE (i : Nat) : Fld := ⟨0x1a000c + 0x10 * i, 31, 16⟩
def RSMP_SWAPPOS_COLUMN (i : Nat) : Fld := ⟨0x1a000c + 0x10 * i, 15, 0⟩

/-! Block JIG: register addresses and fields. -/

def JIG_BAR_DIST (i : Nat) : Nat := 0x1b0000 + 0x4 * i
def JIG_BAR_DIST_DIST (i : Nat) : Fld := ⟨0x1b0000 + 0x4 * i, 31, 0⟩
def JIG_CTRL : Nat := 0x1b0040
def JIG_CTRL_ENABLE : Fld := ⟨0x1b0040, 31, 31⟩
def JIG_CTRL_CORR_EN : Fld := ⟨0x1b0040, 30, 30⟩
def JIG_CTRL_BX : Fld := ⟨0x1b0040, 26, 26⟩
def JIG_CTRL_BY : Fld := ⟨0x1b0040, 25, 25⟩
def JIG_CTRL_WIDTH : Fld := ⟨0x1b0040, 16, 0⟩
def JIG_STATUS : Nat := 0x1b0044
def JIG_STATUS_RGEN : Fld := ⟨0x1b0044, 31, 24⟩
def JIG_STATUS_TABLE_PEND : Fld := ⟨0x1b0044, 23, 23⟩
def JIG_OVL_SEL : Nat := 0x1b0048
def JIG_OVL_SEL_OVERLAP : Fld := ⟨0x1b0048, 4, 0⟩
def JIG_OVL : Nat := 0x1b004c
def JIG_OVL_DX : Fld := ⟨0x1b004c, 31, 16⟩
def JIG_OVL_DY : Fld := ⟨0x1b004c, 15, 8⟩
def JIG_OVL_AGE : Fld := ⟨0x1b004c, 7, 0⟩
def JIG_CORR_SEL : Nat := 0x1b0050
def JIG_CORR_SEL_PORT : Fld := ⟨0x1b0050, 4, 0⟩
def JIG_CORR : Nat := 0x1b0054
def JIG_CORR_DX : Fld := ⟨0x1b0054, 31, 24⟩
def JIG_CORR_DY : Fld := ⟨0x1b0054, 23, 16⟩
def JIG_CORR_HELD : Fld := ⟨0x1b0054, 15, 0⟩
def JIG_OVL_LIMIT : Nat := 0x1b0058
def JIG_OVL_LIMIT_LIMIT : Fld := ⟨0x1b0058, 7, 0⟩
def JIG_SEG : Nat := 0x1b005c
def JIG_SEG_MAX_LINES : Fld := ⟨0x1b005c, 31, 16⟩
def JIG_REC : Nat := 0x1b0060
def JIG_REC_REC_MAX : Fld := ⟨0x1b0060, 31, 16⟩
def JIG_REC_COALESCE_US : Fld := ⟨0x1b0060, 15, 0⟩
def JIG_CROP : Nat := 0x1b0064
def JIG_CROP_MARGIN : Fld := ⟨0x1b0064, 31, 24⟩
def JIG_CROP_MAX : Fld := ⟨0x1b0064, 23, 15⟩
def JIG_CROP_SLOTS_EXP : Fld := ⟨0x1b0064, 3, 0⟩
def JIG_STATS : Nat := 0x1b0068
def JIG_STATS_SLOTS_EXP : Fld := ⟨0x1b0068, 3, 0⟩
def JIG_EVENTS : Nat := 0x1b006c
def JIG_EVENTS_EV_EN : Fld := ⟨0x1b006c, 19, 16⟩
def JIG_EVENTS_CORR_EDGE : Fld := ⟨0x1b006c, 3, 3⟩
def JIG_EVENTS_CROP_LOST : Fld := ⟨0x1b006c, 2, 2⟩
def JIG_EVENTS_REC_LOST : Fld := ⟨0x1b006c, 1, 1⟩
def JIG_EVENTS_OVL : Fld := ⟨0x1b006c, 0, 0⟩
def JIG_CNT_DEFECT : Nat := 0x1b0070
def JIG_CNT_DEFECT_COUNT : Fld := ⟨0x1b0070, 31, 0⟩
def JIG_CNT_LOST : Nat := 0x1b0074
def JIG_CNT_LOST_RATE : Fld := ⟨0x1b0074, 31, 16⟩
def JIG_CNT_LOST_RING : Fld := ⟨0x1b0074, 15, 0⟩
def JIG_CNT_INC : Nat := 0x1b0078
def JIG_CNT_INC_PARITY : Fld := ⟨0x1b0078, 31, 16⟩
def JIG_CNT_INC_INCOMPLETE : Fld := ⟨0x1b0078, 15, 0⟩
def JIG_CNT_CROP : Nat := 0x1b007c
def JIG_CNT_CROP_LOST : Fld := ⟨0x1b007c, 31, 16⟩
def JIG_CNT_CROP_WRITTEN : Fld := ⟨0x1b007c, 15, 0⟩

/-! Block NOZ: register addresses and fields. -/

def NOZ_CTRL : Nat := 0x1c0000
def NOZ_CTRL_LOOP_EN : Fld := ⟨0x1c0000, 31, 16⟩
def NOZ_CTRL_PAT : Fld := ⟨0x1c0000, 15, 12⟩
def NOZ_CTRL_TRIM_EN : Fld := ⟨0x1c0000, 3, 3⟩
def NOZ_CTRL_IMAGE_EN : Fld := ⟨0x1c0000, 2, 2⟩
def NOZ_CTRL_GATE_EN : Fld := ⟨0x1c0000, 1, 1⟩
def NOZ_STREAK : Nat := 0x1c0004
def NOZ_STREAK_CLEAR : Fld := ⟨0x1c0004, 31, 16⟩
def NOZ_STREAK_STREAK : Fld := ⟨0x1c0004, 15, 0⟩
def NOZ_FRAMES : Nat := 0x1c0008
def NOZ_FRAMES_N_OK : Fld := ⟨0x1c0008, 23, 16⟩
def NOZ_FRAMES_N_DEAD : Fld := ⟨0x1c0008, 15, 8⟩
def NOZ_FRAMES_NMIN : Fld := ⟨0x1c0008, 7, 0⟩
def NOZ_COV : Nat := 0x1c000c
def NOZ_COV_COV_MIN : Fld := ⟨0x1c000c, 11, 0⟩
def NOZ_TRIM : Nat := 0x1c0010
def NOZ_TRIM_TRIM_MAX : Fld := ⟨0x1c0010, 23, 16⟩
def NOZ_TRIM_TRIM_BAND : Fld := ⟨0x1c0010, 15, 0⟩
def NOZ_CHAN : Nat := 0x1c0014
def NOZ_CHAN_CHAN : Fld := ⟨0x1c0014, 31, 0⟩
def NOZ_LIMIT : Nat := 0x1c0018
def NOZ_LIMIT_MOD_LIMIT : Fld := ⟨0x1c0018, 7, 0⟩
def NOZ_STATUS : Nat := 0x1c001c
def NOZ_STATUS_BUSY : Fld := ⟨0x1c001c, 31, 31⟩
def NOZ_STATUS_ALARM : Fld := ⟨0x1c001c, 30, 30⟩
def NOZ_STATUS_SWAP_WAIT : Fld := ⟨0x1c001c, 15, 0⟩
def NOZ_EVENTS : Nat := 0x1c0020
def NOZ_EVENTS_EV_EN : Fld := ⟨0x1c0020, 19, 16⟩
def NOZ_EVENTS_LATE : Fld := ⟨0x1c0020, 3, 3⟩
def NOZ_EVENTS_MODULE : Fld := ⟨0x1c0020, 2, 2⟩
def NOZ_EVENTS_RECOVER : Fld := ⟨0x1c0020, 1, 1⟩
def NOZ_EVENTS_DEAD : Fld := ⟨0x1c0020, 0, 0⟩
def NOZ_ALARM : Nat := 0x1c0024
def NOZ_ALARM_BAR : Fld := ⟨0x1c0024, 31, 28⟩
def NOZ_ALARM_MODULE : Fld := ⟨0x1c0024, 27, 22⟩
def NOZ_ALARM_VALID : Fld := ⟨0x1c0024, 21, 21⟩
def NOZ_SEL : Nat := 0x1c0028
def NOZ_SEL_BAR : Fld := ⟨0x1c0028, 3, 0⟩
def NOZ_COUNTS : Nat := 0x1c002c
def NOZ_COUNTS_DEAD : Fld := ⟨0x1c002c, 31, 16⟩
def NOZ_COUNTS_SUSPECT : Fld := ⟨0x1c002c, 15, 0⟩
def NOZ_CNT_FIND : Nat := 0x1c0030
def NOZ_CNT_FIND_GATE : Fld := ⟨0x1c0030, 31, 16⟩
def NOZ_CNT_FIND_IMAGE : Fld := ⟨0x1c0030, 15, 8⟩
def NOZ_CNT_FIND_UNSETTLED : Fld := ⟨0x1c0030, 7, 0⟩
def NOZ_CNT_TRANS : Nat := 0x1c0034
def NOZ_CNT_TRANS_TO_DEAD : Fld := ⟨0x1c0034, 31, 16⟩
def NOZ_CNT_TRANS_TO_OK : Fld := ⟨0x1c0034, 15, 0⟩
def NOZ_CNT_HELD : Nat := 0x1c0038
def NOZ_CNT_HELD_LIMIT : Fld := ⟨0x1c0038, 31, 16⟩
def NOZ_CNT_HELD_HOLD : Fld := ⟨0x1c0038, 15, 0⟩
def NOZ_LAT : Nat := 0x1c003c
def NOZ_LAT_MAX_LINES : Fld := ⟨0x1c003c, 31, 16⟩
def NOZ_LAT_LAST_LINES : Fld := ⟨0x1c003c, 15, 0⟩

/-! Block POS: register addresses and fields. -/

def POS_CTRL (i : Nat) : Nat := 0x200000 + 0x20 * i
def POS_CTRL_ENABLE (i : Nat) : Fld := ⟨0x200000 + 0x20 * i, 31, 31⟩
def POS_CTRL_MASTER (i : Nat) : Fld := ⟨0x200000 + 0x20 * i, 30, 30⟩
def POS_CTRL_CORR_EN (i : Nat) : Fld := ⟨0x200000 + 0x20 * i, 29, 29⟩
def POS_CTRL_INTERP_EN (i : Nat) : Fld := ⟨0x200000 + 0x20 * i, 28, 28⟩
def POS_CTRL_INVERT (i : Nat) : Fld := ⟨0x200000 + 0x20 * i, 27, 27⟩
def POS_CTRL_DECODE (i : Nat) : Fld := ⟨0x200000 + 0x20 * i, 25, 24⟩
def POS_CTRL_FILT (i : Nat) : Fld := ⟨0x200000 + 0x20 * i, 23, 20⟩
def POS_CTRL_REV_TH (i : Nat) : Fld := ⟨0x200000 + 0x20 * i, 19, 12⟩
def POS_CTRL_TOL (i : Nat) : Fld := ⟨0x200000 + 0x20 * i, 11, 4⟩
def POS_CTRL_EV_EN (i : Nat) : Fld := ⟨0x200000 + 0x20 * i, 3, 0⟩
def POS_SCALE (i : Nat) : Nat := 0x200004 + 0x20 * i
def POS_SCALE_NUM (i : Nat) : Fld := ⟨0x200004 + 0x20 * i, 31, 16⟩
def POS_SCALE_DEN (i : Nat) : Fld := ⟨0x200004 + 0x20 * i, 15, 0⟩
def POS_INDEX (i : Nat) : Nat := 0x200008 + 0x20 * i
def POS_INDEX_REV (i : Nat) : Fld := ⟨0x200008 + 0x20 * i, 23, 0⟩
def POS_SPDCFG (i : Nat) : Nat := 0x20000c + 0x20 * i
def POS_SPDCFG_SPD_TH (i : Nat) : Fld := ⟨0x20000c + 0x20 * i, 31, 16⟩
def POS_SPDCFG_WIN (i : Nat) : Fld := ⟨0x20000c + 0x20 * i, 15, 8⟩
def POS_SPDCFG_STILL_MS (i : Nat) : Fld := ⟨0x20000c + 0x20 * i, 7, 0⟩
def POS_SPEED (i : Nat) : Nat := 0x200010 + 0x20 * i
def POS_SPEED_SPEED (i : Nat) : Fld := ⟨0x200010 + 0x20 * i, 31, 0⟩
def POS_STATUS (i : Nat) : Nat := 0x200014 + 0x20 * i
def POS_STATUS_INTEGRITY (i : Nat) : Fld := ⟨0x200014 + 0x20 * i, 31, 31⟩
def POS_STATUS_DIR (i : Nat) : Fld := ⟨0x200014 + 0x20 * i, 30, 30⟩
def POS_STATUS_COUNT_MODE (i : Nat) : Fld := ⟨0x200014 + 0x20 * i, 29, 29⟩
def POS_STATUS_STILL (i : Nat) : Fld := ⟨0x200014 + 0x20 * i, 28, 28⟩
def POS_STATUS_OVERSPEED (i : Nat) : Fld := ⟨0x200014 + 0x20 * i, 27, 27⟩
def POS_STATUS_INDEX_SEEN (i : Nat) : Fld := ⟨0x200014 + 0x20 * i, 26, 26⟩
def POS_STATUS_CORR_LEFT (i : Nat) : Fld := ⟨0x200014 + 0x20 * i, 25, 16⟩
def POS_STATUS_QSKIP (i : Nat) : Fld := ⟨0x200014 + 0x20 * i, 15, 8⟩
def POS_STATUS_MISMATCH (i : Nat) : Fld := ⟨0x200014 + 0x20 * i, 7, 0⟩
def POS_LO (i : Nat) : Nat := 0x200018 + 0x20 * i
def POS_LO_POS_LO (i : Nat) : Fld := ⟨0x200018 + 0x20 * i, 31, 0⟩
def POS_HI (i : Nat) : Nat := 0x20001c + 0x20 * i
def POS_HI_POS_HI (i : Nat) : Fld := ⟨0x20001c + 0x20 * i, 31, 0⟩

/-! Block SSI: register addresses and fields. -/

def SSI_CTRL (i : Nat) : Nat := 0x210000 + 0x10 * i
def SSI_CTRL_ENABLE (i : Nat) : Fld := ⟨0x210000 + 0x10 * i, 31, 31⟩
def SSI_CTRL_GRAY (i : Nat) : Fld := ⟨0x210000 + 0x10 * i, 30, 30⟩
def SSI_CTRL_CRC_INV (i : Nat) : Fld := ⟨0x210000 + 0x10 * i, 29, 29⟩
def SSI_CTRL_ERR_LOW (i : Nat) : Fld := ⟨0x210000 + 0x10 * i, 28, 28⟩
def SSI_CTRL_MISS_LIMIT (i : Nat) : Fld := ⟨0x210000 + 0x10 * i, 27, 24⟩
def SSI_CTRL_LEN (i : Nat) : Fld := ⟨0x210000 + 0x10 * i, 23, 18⟩
def SSI_CTRL_DIV (i : Nat) : Fld := ⟨0x210000 + 0x10 * i, 17, 7⟩
def SSI_CTRL_ERR_EN (i : Nat) : Fld := ⟨0x210000 + 0x10 * i, 6, 6⟩
def SSI_CTRL_ERRORS (i : Nat) : Fld := ⟨0x210000 + 0x10 * i, 5, 0⟩
def SSI_FMT (i : Nat) : Nat := 0x210004 + 0x10 * i
def SSI_FMT_DATA_BITS (i : Nat) : Fld := ⟨0x210004 + 0x10 * i, 31, 27⟩
def SSI_FMT_ERR_POS (i : Nat) : Fld := ⟨0x210004 + 0x10 * i, 26, 21⟩
def SSI_FMT_CRC_LEN (i : Nat) : Fld := ⟨0x210004 + 0x10 * i, 20, 16⟩
def SSI_FMT_TIMEOUT (i : Nat) : Fld := ⟨0x210004 + 0x10 * i, 15, 8⟩
def SSI_FMT_PERIOD (i : Nat) : Fld := ⟨0x210004 + 0x10 * i, 7, 0⟩
def SSI_POLY (i : Nat) : Nat := 0x210008 + 0x10 * i
def SSI_POLY_INIT (i : Nat) : Fld := ⟨0x210008 + 0x10 * i, 31, 16⟩
def SSI_POLY_POLY (i : Nat) : Fld := ⟨0x210008 + 0x10 * i, 15, 0⟩
def SSI_DATA (i : Nat) : Nat := 0x21000c + 0x10 * i
def SSI_DATA_VALID (i : Nat) : Fld := ⟨0x21000c + 0x10 * i, 31, 31⟩
def SSI_DATA_FAULT (i : Nat) : Fld := ⟨0x21000c + 0x10 * i, 30, 30⟩
def SSI_DATA_LAST_ERR (i : Nat) : Fld := ⟨0x21000c + 0x10 * i, 29, 27⟩
def SSI_DATA_POSITION (i : Nat) : Fld := ⟨0x21000c + 0x10 * i, 23, 0⟩

/-! Block AXIS: register addresses and fields. -/

def AX_CTRL (i : Nat) : Nat := 0x220000 + 0x30 * i
def AX_CTRL_ENABLE (i : Nat) : Fld := ⟨0x220000 + 0x30 * i, 31, 31⟩
def AX_CTRL_OUT (i : Nat) : Fld := ⟨0x220000 + 0x30 * i, 30, 30⟩
def AX_CTRL_FOLLOW (i : Nat) : Fld := ⟨0x220000 + 0x30 * i, 29, 29⟩
def AX_CTRL_ROLE (i : Nat) : Fld := ⟨0x220000 + 0x30 * i, 28, 27⟩
def AX_CTRL_BAR (i : Nat) : Fld := ⟨0x220000 + 0x30 * i, 26, 23⟩
def AX_CTRL_STEP_SHIFT (i : Nat) : Fld := ⟨0x220000 + 0x30 * i, 22, 19⟩
def AX_CTRL_IN_SHIFT (i : Nat) : Fld := ⟨0x220000 + 0x30 * i, 18, 15⟩
def AX_CTRL_EV_EN (i : Nat) : Fld := ⟨0x220000 + 0x30 * i, 10, 8⟩
def AX_SW (i : Nat) : Nat := 0x220004 + 0x30 * i
def AX_SW_HOME (i : Nat) : Fld := ⟨0x220004 + 0x30 * i, 29, 24⟩
def AX_SW_LIM_POS (i : Nat) : Fld := ⟨0x220004 + 0x30 * i, 23, 18⟩
def AX_SW_LIM_NEG (i : Nat) : Fld := ⟨0x220004 + 0x30 * i, 17, 12⟩
def AX_SW_STEP_IN (i : Nat) : Fld := ⟨0x220004 + 0x30 * i, 11, 6⟩
def AX_SW_DIR_IN (i : Nat) : Fld := ⟨0x220004 + 0x30 * i, 5, 0⟩
def AX_SWCFG (i : Nat) : Nat := 0x220008 + 0x30 * i
def AX_SWCFG_ACT_LOW (i : Nat) : Fld := ⟨0x220008 + 0x30 * i, 28, 24⟩
def AX_SWCFG_CHATTER (i : Nat) : Fld := ⟨0x220008 + 0x30 * i, 23, 16⟩
def AX_SWCFG_STABLE (i : Nat) : Fld := ⟨0x220008 + 0x30 * i, 15, 0⟩
def AX_SOFT_LO (i : Nat) : Nat := 0x22000c + 0x30 * i
def AX_SOFT_LO_SOFT_LO (i : Nat) : Fld := ⟨0x22000c + 0x30 * i, 31, 0⟩
def AX_SOFT_HI (i : Nat) : Nat := 0x220010 + 0x30 * i
def AX_SOFT_HI_SOFT_HI (i : Nat) : Fld := ⟨0x220010 + 0x30 * i, 31, 0⟩
def AX_HOME_SPD (i : Nat) : Nat := 0x220014 + 0x30 * i
def AX_HOME_SPD_LIFT_WIN (i : Nat) : Fld := ⟨0x220014 + 0x30 * i, 31, 24⟩
def AX_HOME_SPD_HOME_SPD (i : Nat) : Fld := ⟨0x220014 + 0x30 * i, 23, 0⟩
def AX_HOME_OFF (i : Nat) : Nat := 0x220018 + 0x30 * i
def AX_HOME_OFF_HOME_OFF (i : Nat) : Fld := ⟨0x220018 + 0x30 * i, 31, 0⟩
def AX_EDEC (i : Nat) : Nat := 0x22001c + 0x30 * i
def AX_EDEC_EDEC (i : Nat) : Fld := ⟨0x22001c + 0x30 * i, 31, 0⟩
def AX_DRIVE (i : Nat) : Nat := 0x220020 + 0x30 * i
def AX_DRIVE_CUR_RUN (i : Nat) : Fld := ⟨0x220020 + 0x30 * i, 31, 24⟩
def AX_DRIVE_CUR_HOLD (i : Nat) : Fld := ⟨0x220020 + 0x30 * i, 23, 16⟩
def AX_DRIVE_STEP_W (i : Nat) : Fld := ⟨0x220020 + 0x30 * i, 15, 8⟩
def AX_LIFT_POS (i : Nat) : Nat := 0x220024 + 0x30 * i
def AX_LIFT_POS_LIFT_POS (i : Nat) : Fld := ⟨0x220024 + 0x30 * i, 31, 0⟩
def AX_POS (i : Nat) : Nat := 0x220028 + 0x30 * i
def AX_POS_POS (i : Nat) : Fld := ⟨0x220028 + 0x30 * i, 31, 0⟩
def AX_STATUS (i : Nat) : Nat := 0x22002c + 0x30 * i
def AX_STATUS_STATE (i : Nat) : Fld := ⟨0x22002c + 0x30 * i, 31, 28⟩
def AX_STATUS_HOMED (i : Nat) : Fld := ⟨0x22002c + 0x30 * i, 27, 27⟩
def AX_STATUS_LIM_ACT (i : Nat) : Fld := ⟨0x22002c + 0x30 * i, 26, 26⟩
def AX_STATUS_FLT_IN (i : Nat) : Fld := ⟨0x22002c + 0x30 * i, 25, 25⟩
def AX_STATUS_SOFT_LIMIT (i : Nat) : Fld := ⟨0x22002c + 0x30 * i, 24, 24⟩
def AX_STATUS_CHATTER_FAIL (i : Nat) : Fld := ⟨0x22002c + 0x30 * i, 23, 23⟩
def AX_STATUS_LIMIT_FAIL (i : Nat) : Fld := ⟨0x22002c + 0x30 * i, 22, 22⟩
def AX_STATUS_PROFILE_PEND (i : Nat) : Fld := ⟨0x22002c + 0x30 * i, 21, 21⟩
def AX_STATUS_DROPPED (i : Nat) : Fld := ⟨0x22002c + 0x30 * i, 15, 0⟩

/-! Block TIME: register addresses and fields. -/

def TD_CTRL (i : Nat) : Nat := 0x280000 + 0x40 * i
def TD_CTRL_SRC (i : Nat) : Fld := ⟨0x280000 + 0x40 * i, 30, 28⟩
def TD_CTRL_SERVO (i : Nat) : Fld := ⟨0x280000 + 0x40 * i, 27, 27⟩
def TD_CTRL_HOST_LOCK (i : Nat) : Fld := ⟨0x280000 + 0x40 * i, 26, 26⟩
def TD_STATUS (i : Nat) : Nat := 0x280004 + 0x40 * i
def TD_STATUS_LOCKED (i : Nat) : Fld := ⟨0x280004 + 0x40 * i, 31, 31⟩
def TD_STATUS_PRESENT (i : Nat) : Fld := ⟨0x280004 + 0x40 * i, 30, 30⟩
def TD_STATUS_ALARM_ARMED (i : Nat) : Fld := ⟨0x280004 + 0x40 * i, 29, 29⟩
def TD_STATUS_ALARM_LATE (i : Nat) : Fld := ⟨0x280004 + 0x40 * i, 28, 28⟩
def TD_STATUS_PORT_STATE (i : Nat) : Fld := ⟨0x280004 + 0x40 * i, 26, 24⟩
def TD_STATUS_STEPS (i : Nat) : Fld := ⟨0x280004 + 0x40 * i, 23, 16⟩
def TD_STATUS_OFFSET (i : Nat) : Fld := ⟨0x280004 + 0x40 * i, 15, 0⟩
def TD_SEC_LO (i : Nat) : Nat := 0x280008 + 0x40 * i
def TD_SEC_LO_SEC_LO (i : Nat) : Fld := ⟨0x280008 + 0x40 * i, 31, 0⟩
def TD_SEC_HI (i : Nat) : Nat := 0x28000c + 0x40 * i
def TD_SEC_HI_SEC_HI (i : Nat) : Fld := ⟨0x28000c + 0x40 * i, 31, 0⟩
def TD_NS (i : Nat) : Nat := 0x280010 + 0x40 * i
def TD_NS_NS (i : Nat) : Fld := ⟨0x280010 + 0x40 * i, 31, 0⟩
def TD_FRAC (i : Nat) : Nat := 0x280014 + 0x40 * i
def TD_FRAC_FRAC (i : Nat) : Fld := ⟨0x280014 + 0x40 * i, 15, 0⟩
def TD_INC_LO (i : Nat) : Nat := 0x280018 + 0x40 * i
def TD_INC_LO_INC_LO (i : Nat) : Fld := ⟨0x280018 + 0x40 * i, 31, 0⟩
def TD_INC_HI (i : Nat) : Nat := 0x28001c + 0x40 * i
def TD_INC_HI_INC_HI (i : Nat) : Fld := ⟨0x28001c + 0x40 * i, 31, 0⟩
def TD_ALARM_S (i : Nat) : Nat := 0x280020 + 0x40 * i
def TD_ALARM_S_SEC (i : Nat) : Fld := ⟨0x280020 + 0x40 * i, 31, 0⟩
def TD_ALARM_NS (i : Nat) : Nat := 0x280024 + 0x40 * i
def TD_ALARM_NS_NS (i : Nat) : Fld := ⟨0x280024 + 0x40 * i, 29, 0⟩
def TIME_CTRL : Nat := 0x280080
def TIME_CTRL_AUTO : Fld := ⟨0x280080, 31, 31⟩
def TIME_CTRL_ACTIVE : Fld := ⟨0x280080, 30, 30⟩
def TIME_CTRL_EV_EN : Fld := ⟨0x280080, 23, 16⟩
def TIME_CTRL_EV_LOCK : Fld := ⟨0x280080, 0, 0⟩
def TIME_STATUS : Nat := 0x280084
def TIME_STATUS_SLEWING : Fld := ⟨0x280084, 31, 31⟩
def TIME_STATUS_HOLDOVER : Fld := ⟨0x280084, 30, 30⟩
def TIME_STATUS_SWITCHES : Fld := ⟨0x280084, 23, 16⟩
def TIME_SLEW : Nat := 0x280088
def TIME_SLEW_SLEW : Fld := ⟨0x280088, 19, 0⟩
def TIME_HOLD : Nat := 0x28008c
def TIME_HOLD_HOLD_MS : Fld := ⟨0x28008c, 15, 0⟩
def TIME_RESID_LO : Nat := 0x280090
def TIME_RESID_LO_R_LO : Fld := ⟨0x280090, 31, 0⟩
def TIME_RESID_HI : Nat := 0x280094
def TIME_RESID_HI_R_HI : Fld := ⟨0x280094, 31, 0⟩
def TIME_PERIOD (i : Nat) : Nat := 0x280098 + 0x4 * i
def TIME_PERIOD_ENABLE (i : Nat) : Fld := ⟨0x280098 + 0x4 * i, 31, 31⟩
def TIME_PERIOD_PERIOD_US (i : Nat) : Fld := ⟨0x280098 + 0x4 * i, 19, 0⟩
def TIME_PTP (i : Nat) : Nat := 0x2800a0 + 0x4 * i
def TIME_PTP_ENABLE (i : Nat) : Fld := ⟨0x2800a0 + 0x4 * i, 31, 31⟩
def TIME_PTP_TRANSPORT (i : Nat) : Fld := ⟨0x2800a0 + 0x4 * i, 30, 30⟩
def TIME_PTP_DELAY (i : Nat) : Fld := ⟨0x2800a0 + 0x4 * i, 29, 29⟩
def TIME_PTP_ANN_TO (i : Nat) : Fld := ⟨0x2800a0 + 0x4 * i, 28, 24⟩
def TIME_PTP_PRIO1 (i : Nat) : Fld := ⟨0x2800a0 + 0x4 * i, 23, 16⟩
def TIME_PTP_PRIO2 (i : Nat) : Fld := ⟨0x2800a0 + 0x4 * i, 15, 8⟩
def TIME_PTP_DOMAIN_NUM (i : Nat) : Fld := ⟨0x2800a0 + 0x4 * i, 7, 0⟩
def TIME_LAT (i : Nat) : Nat := 0x2800a8 + 0x4 * i
def TIME_LAT_TX_LAT (i : Nat) : Fld := ⟨0x2800a8 + 0x4 * i, 31, 16⟩
def TIME_LAT_RX_LAT (i : Nat) : Fld := ⟨0x2800a8 + 0x4 * i, 15, 0⟩
def TSCAP_SEL : Nat := 0x2800b0
def TSCAP_SEL_VALID : Fld := ⟨0x2800b0, 15, 8⟩
def TSCAP_SEL_UNIT : Fld := ⟨0x2800b0, 2, 0⟩
def TSCAP_SEC : Nat := 0x2800b4
def TSCAP_SEC_SEC : Fld := ⟨0x2800b4, 31, 0⟩
def TSCAP_NS : Nat := 0x2800b8
def TSCAP_NS_VALID : Fld := ⟨0x2800b8, 31, 31⟩
def TSCAP_NS_DOMAIN : Fld := ⟨0x2800b8, 30, 30⟩
def TSCAP_NS_NS : Fld := ⟨0x2800b8, 29, 0⟩
def TSCAP_POS_LO : Nat := 0x2800bc
def TSCAP_POS_LO_POS_LO : Fld := ⟨0x2800bc, 31, 0⟩
def TSCAP_POS_HI : Nat := 0x2800c0
def TSCAP_POS_HI_POS_HI : Fld := ⟨0x2800c0, 31, 0⟩
def TIME_EVENTS : Nat := 0x2800c4
def TIME_EVENTS_LOCK_LOST : Fld := ⟨0x2800c4, 2, 2⟩
def TIME_EVENTS_HOLDOVER : Fld := ⟨0x2800c4, 1, 1⟩
def TIME_EVENTS_SWITCH : Fld := ⟨0x2800c4, 0, 0⟩
def TIME_LOCK : Nat := 0x2800c8
def TIME_LOCK_LOCK_NS : Fld := ⟨0x2800c8, 15, 0⟩
def TIME_UTC : Nat := 0x2800cc
def TIME_UTC_VALID : Fld := ⟨0x2800cc, 16, 16⟩
def TIME_UTC_UTC_OFFSET : Fld := ⟨0x2800cc, 15, 0⟩

/-! Block EVT: register addresses and fields. -/

def EVT_MAT (i : Nat) : Nat := 0x290000 + 0x4 * i
def EVT_MAT_EN (i : Nat) : Fld := ⟨0x290000 + 0x4 * i, 31, 0⟩
def EVT_CSEL (i : Nat) : Nat := 0x290400 + 0x4 * i
def EVT_CSEL_EN_0 (i : Nat) : Fld := ⟨0x290400 + 0x4 * i, 7, 7⟩
def EVT_CSEL_EN_1 (i : Nat) : Fld := ⟨0x290400 + 0x4 * i, 15, 15⟩
def EVT_CSEL_EN_2 (i : Nat) : Fld := ⟨0x290400 + 0x4 * i, 23, 23⟩
def EVT_CSEL_EN_3 (i : Nat) : Fld := ⟨0x290400 + 0x4 * i, 31, 31⟩
def EVT_CSEL_CH_0 (i : Nat) : Fld := ⟨0x290400 + 0x4 * i, 5, 0⟩
def EVT_CSEL_CH_1 (i : Nat) : Fld := ⟨0x290400 + 0x4 * i, 13, 8⟩
def EVT_CSEL_CH_2 (i : Nat) : Fld := ⟨0x290400 + 0x4 * i, 21, 16⟩
def EVT_CSEL_CH_3 (i : Nat) : Fld := ⟨0x290400 + 0x4 * i, 29, 24⟩
def EVT_CTRL : Nat := 0x290480
def EVT_CTRL_LOOP_WIN : Fld := ⟨0x290480, 25, 16⟩
def EVT_CTRL_PIN_W : Fld := ⟨0x290480, 15, 8⟩
def EVT_PINDIR : Nat := 0x290484
def EVT_PINDIR_OUT : Fld := ⟨0x290484, 31, 0⟩
def EVT_PINPOL : Nat := 0x290488
def EVT_PINPOL_LOW : Fld := ⟨0x290488, 31, 0⟩
def EVT_SEL : Nat := 0x29048c
def EVT_SEL_CHANNEL : Fld := ⟨0x29048c, 21, 16⟩
def EVT_SEL_CONSUMER : Fld := ⟨0x29048c, 6, 0⟩
def EVT_CONS : Nat := 0x290490
def EVT_CONS_BUSY : Fld := ⟨0x290490, 31, 31⟩
def EVT_CONS_COINCIDENT : Fld := ⟨0x290490, 30, 30⟩
def EVT_CONS_LAST_PROD : Fld := ⟨0x290490, 29, 23⟩
def EVT_CONS_IGNORED : Fld := ⟨0x290490, 15, 0⟩
def EVT_CHAN : Nat := 0x290494
def EVT_CHAN_LAST_TAG : Fld := ⟨0x290494, 31, 28⟩
def EVT_CHAN_LAST_PROD : Fld := ⟨0x290494, 26, 20⟩
def EVT_CHAN_LOOP : Fld := ⟨0x290494, 15, 0⟩
def EVT_COUNTS : Nat := 0x290498
def EVT_COUNTS_MERGED : Fld := ⟨0x290498, 31, 16⟩
def EVT_COUNTS_PIN_OVR : Fld := ⟨0x290498, 15, 8⟩
def EVT_COUNTS_ASLEEP : Fld := ⟨0x290498, 7, 0⟩
def EVT_STATUS : Nat := 0x29049c
def EVT_STATUS_TAG_NEXT : Fld := ⟨0x29049c, 31, 28⟩
def EVT_STATUS_PIN_LAST : Fld := ⟨0x29049c, 27, 23⟩
def EVT_STATUS_PIN_OVR : Fld := ⟨0x29049c, 3, 3⟩
def EVT_STATUS_MERGED : Fld := ⟨0x29049c, 2, 2⟩
def EVT_STATUS_BUSY : Fld := ⟨0x29049c, 1, 1⟩
def EVT_STATUS_LOOP : Fld := ⟨0x29049c, 0, 0⟩

/-! Block MEM: register addresses and fields. -/

def MEM_CH_STATUS (i : Nat) : Nat := 0x300000 + 0x8 * i
def MEM_CH_STATUS_DET (i : Nat) : Fld := ⟨0x300000 + 0x8 * i, 31, 31⟩
def MEM_CH_STATUS_SELFREF (i : Nat) : Fld := ⟨0x300000 + 0x8 * i, 30, 30⟩
def MEM_CH_STATUS_MAINT (i : Nat) : Fld := ⟨0x300000 + 0x8 * i, 29, 29⟩
def MEM_CH_STATUS_UE (i : Nat) : Fld := ⟨0x300000 + 0x8 * i, 23, 16⟩
def MEM_CH_STATUS_CE (i : Nat) : Fld := ⟨0x300000 + 0x8 * i, 15, 0⟩
def MEM_CH_ROW (i : Nat) : Nat := 0x300004 + 0x8 * i
def MEM_CH_ROW_PC (i : Nat) : Fld := ⟨0x300004 + 0x8 * i, 31, 31⟩
def MEM_CH_ROW_BANK (i : Nat) : Fld := ⟨0x300004 + 0x8 * i, 30, 25⟩
def MEM_CH_ROW_ROW (i : Nat) : Fld := ⟨0x300004 + 0x8 * i, 17, 0⟩
def MEM_CTRL : Nat := 0x300200
def MEM_CTRL_SCRUB_S : Fld := ⟨0x300200, 19, 8⟩
def MEM_CTRL_IDLE_US : Fld := ⟨0x300200, 7, 0⟩
def MEM_DET : Nat := 0x300204
def MEM_DET_D : Fld := ⟨0x300204, 27, 24⟩
def MEM_DET_USED_MAX : Fld := ⟨0x300204, 15, 0⟩
def MEM_ACT : Nat := 0x300208
def MEM_ACT_ACT_TH : Fld := ⟨0x300208, 31, 16⟩
def MEM_ACT_HOLD_US : Fld := ⟨0x300208, 15, 8⟩
def MEM_STATUS : Nat := 0x30020c
def MEM_STATUS_EMERG : Fld := ⟨0x30020c, 31, 28⟩
def MEM_STATUS_HOT : Fld := ⟨0x30020c, 27, 24⟩
def MEM_SCRUB : Nat := 0x300210
def MEM_SCRUB_PASSES : Fld := ⟨0x300210, 31, 16⟩
def MEM_SCRUB_PCT : Fld := ⟨0x300210, 6, 0⟩
def MEM_UE_LO : Nat := 0x300214
def MEM_UE_LO_ADDR_LO : Fld := ⟨0x300214, 31, 0⟩
def MEM_UE_HI : Nat := 0x300218
def MEM_UE_HI_VALID : Fld := ⟨0x300218, 31, 31⟩
def MEM_UE_HI_ACTION : Fld := ⟨0x300218, 30, 28⟩
def MEM_UE_HI_REGION : Fld := ⟨0x300218, 27, 25⟩
def MEM_UE_HI_SCRUB : Fld := ⟨0x300218, 24, 24⟩
def MEM_UE_HI_CHANNEL : Fld := ⟨0x300218, 23, 18⟩
def MEM_UE_HI_INPUT : Fld := ⟨0x300218, 17, 15⟩
def MEM_UE_HI_ADDR_HI : Fld := ⟨0x300218, 3, 0⟩
def MEM_INJECT : Nat := 0x30021c
def MEM_INJECT_ARM : Fld := ⟨0x30021c, 31, 31⟩
def MEM_INJECT_DOUBLE : Fld := ⟨0x30021c, 30, 30⟩
def MEM_INJECT_CHANNEL : Fld := ⟨0x30021c, 29, 24⟩
def MEM_INJECT_SYM_A : Fld := ⟨0x30021c, 23, 19⟩
def MEM_INJECT_SYM_B : Fld := ⟨0x30021c, 18, 14⟩
def MEM_INJECT_PATTERN : Fld := ⟨0x30021c, 7, 0⟩
def MEM_REGION_SEL : Nat := 0x300220
def MEM_REGION_SEL_REGION : Fld := ⟨0x300220, 2, 0⟩
def MEM_REGION : Nat := 0x300224
def MEM_REGION_BASE : Fld := ⟨0x300224, 31, 16⟩
def MEM_REGION_SIZE : Fld := ⟨0x300224, 15, 0⟩
def MEM_CNT_THR : Nat := 0x300228
def MEM_CNT_THR_THROTTLES : Fld := ⟨0x300228, 31, 16⟩
def MEM_CNT_THR_TARGETED : Fld := ⟨0x300228, 15, 0⟩
def MEM_CNT_CE : Nat := 0x30022c
def MEM_CNT_CE_COUNT : Fld := ⟨0x30022c, 31, 0⟩
def MEM_CNT_UE : Nat := 0x300230
def MEM_CNT_UE_UE : Fld := ⟨0x300230, 31, 16⟩
def MEM_CNT_UE_MIRROR : Fld := ⟨0x300230, 15, 0⟩
def MEM_CNT_SRAM : Nat := 0x300234
def MEM_CNT_SRAM_CE : Fld := ⟨0x300234, 31, 16⟩
def MEM_CNT_SRAM_UE : Fld := ⟨0x300234, 15, 0⟩
def MEM_EVENTS : Nat := 0x300238
def MEM_EVENTS_EV_EN : Fld := ⟨0x300238, 31, 31⟩
def MEM_EVENTS_ROW_FULL : Fld := ⟨0x300238, 4, 4⟩
def MEM_EVENTS_EMERG : Fld := ⟨0x300238, 3, 3⟩
def MEM_EVENTS_THROTTLE : Fld := ⟨0x300238, 2, 2⟩
def MEM_EVENTS_MIRROR : Fld := ⟨0x300238, 1, 1⟩
def MEM_EVENTS_UE : Fld := ⟨0x300238, 0, 0⟩
def MEM_TEMP : Nat := 0x30023c
def MEM_TEMP_TEMP_0 : Fld := ⟨0x30023c, 7, 0⟩
def MEM_TEMP_TEMP_1 : Fld := ⟨0x30023c, 15, 8⟩
def MEM_TEMP_TEMP_2 : Fld := ⟨0x30023c, 23, 16⟩
def MEM_TEMP_TEMP_3 : Fld := ⟨0x30023c, 31, 24⟩

/-! Block CHK: register addresses and fields. -/

def CHK_CTRL (i : Nat) : Nat := 0x310000 + 0x10 * i
def CHK_CTRL_CHECK (i : Nat) : Fld := ⟨0x310000 + 0x10 * i, 31, 31⟩
def CHK_CTRL_RESET (i : Nat) : Fld := ⟨0x310000 + 0x10 * i, 30, 30⟩
def CHK_CTRL_MISMATCH (i : Nat) : Fld := ⟨0x310000 + 0x10 * i, 29, 29⟩
def CHK_CTRL_MATCH (i : Nat) : Fld := ⟨0x310000 + 0x10 * i, 28, 28⟩
def CHK_CTRL_REFIN (i : Nat) : Fld := ⟨0x310000 + 0x10 * i, 27, 27⟩
def CHK_CTRL_REFOUT (i : Nat) : Fld := ⟨0x310000 + 0x10 * i, 26, 26⟩
def CHK_CTRL_FEED (i : Nat) : Fld := ⟨0x310000 + 0x10 * i, 25, 24⟩
def CHK_CTRL_VECTOR (i : Nat) : Fld := ⟨0x310000 + 0x10 * i, 23, 16⟩
def CHK_CTRL_IRQ_EN (i : Nat) : Fld := ⟨0x310000 + 0x10 * i, 15, 15⟩
def CHK_CTRL_COLLIDE (i : Nat) : Fld := ⟨0x310000 + 0x10 * i, 14, 14⟩
def CHK_CTRL_USERS (i : Nat) : Fld := ⟨0x310000 + 0x10 * i, 13, 8⟩
def CHK_CTRL_WIDTH (i : Nat) : Fld := ⟨0x310000 + 0x10 * i, 6, 0⟩
def CHK_FEED (i : Nat) : Nat := 0x310004 + 0x10 * i
def CHK_FEED_DATA (i : Nat) : Fld := ⟨0x310004 + 0x10 * i, 31, 0⟩
def CHK_IDX (i : Nat) : Nat := 0x310008 + 0x10 * i
def CHK_IDX_INDEX (i : Nat) : Fld := ⟨0x310008 + 0x10 * i, 3, 0⟩
def CHK_DATA (i : Nat) : Nat := 0x31000c + 0x10 * i
def CHK_DATA_DATA (i : Nat) : Fld := ⟨0x31000c + 0x10 * i, 31, 0⟩

/-! Block LANE: register addresses and fields. -/

def LANE_CFG (i : Nat) : Nat := 0x380000 + 0x8 * i
def LANE_CFG_TARGET (i : Nat) : Fld := ⟨0x380000 + 0x8 * i, 31, 30⟩
def LANE_CFG_ROLE (i : Nat) : Fld := ⟨0x380000 + 0x8 * i, 29, 28⟩
def LANE_CFG_RATE (i : Nat) : Fld := ⟨0x380000 + 0x8 * i, 27, 24⟩
def LANE_CFG_TX_INV (i : Nat) : Fld := ⟨0x380000 + 0x8 * i, 23, 23⟩
def LANE_CFG_RX_INV (i : Nat) : Fld := ⟨0x380000 + 0x8 * i, 22, 22⟩
def LANE_CFG_LOOP (i : Nat) : Fld := ⟨0x380000 + 0x8 * i, 21, 21⟩
def LANE_CFG_TX_EMPH (i : Nat) : Fld := ⟨0x380000 + 0x8 * i, 20, 18⟩
def LANE_STATUS (i : Nat) : Nat := 0x380004 + 0x8 * i
def LANE_STATUS_STATE (i : Nat) : Fld := ⟨0x380004 + 0x8 * i, 31, 30⟩
def LANE_STATUS_UP (i : Nat) : Fld := ⟨0x380004 + 0x8 * i, 29, 29⟩
def LANE_STATUS_LOCK (i : Nat) : Fld := ⟨0x380004 + 0x8 * i, 28, 28⟩
def LANE_STATUS_RATE_FAIL (i : Nat) : Fld := ⟨0x380004 + 0x8 * i, 27, 27⟩
def LANE_STATUS_XCVR (i : Nat) : Fld := ⟨0x380004 + 0x8 * i, 26, 24⟩
def LANE_STATUS_EQ (i : Nat) : Fld := ⟨0x380004 + 0x8 * i, 23, 20⟩
def LANE_STATUS_FOM (i : Nat) : Fld := ⟨0x380004 + 0x8 * i, 19, 12⟩
def LANE_STATUS_LOSSES (i : Nat) : Fld := ⟨0x380004 + 0x8 * i, 11, 8⟩
def LANE_STATUS_HDR_ERR (i : Nat) : Fld := ⟨0x380004 + 0x8 * i, 7, 0⟩
def LANE_GRP_CTRL (i : Nat) : Nat := 0x380300 + 0x8 * i
def LANE_GRP_CTRL_SPARE_LANE (i : Nat) : Fld := ⟨0x380300 + 0x8 * i, 31, 29⟩
def LANE_GRP_CTRL_RECAL_EN (i : Nat) : Fld := ⟨0x380300 + 0x8 * i, 28, 28⟩
def LANE_GRP_CTRL_RECAL_S (i : Nat) : Fld := ⟨0x380300 + 0x8 * i, 27, 16⟩
def LANE_GRP_CTRL_FOM_MIN (i : Nat) : Fld := ⟨0x380300 + 0x8 * i, 15, 8⟩
def LANE_GRP_CTRL_EV_EN (i : Nat) : Fld := ⟨0x380300 + 0x8 * i, 0, 0⟩
def LANE_GRP_STATUS (i : Nat) : Nat := 0x380304 + 0x8 * i
def LANE_GRP_STATUS_SPARE_XCVR (i : Nat) : Fld := ⟨0x380304 + 0x8 * i, 31, 29⟩
def LANE_GRP_STATUS_SPARE_OK (i : Nat) : Fld := ⟨0x380304 + 0x8 * i, 28, 28⟩
def LANE_GRP_STATUS_BUSY (i : Nat) : Fld := ⟨0x380304 + 0x8 * i, 27, 27⟩
def LANE_GRP_STATUS_LANE (i : Nat) : Fld := ⟨0x380304 + 0x8 * i, 26, 24⟩
def LANE_GRP_STATUS_LAST_RESULT (i : Nat) : Fld := ⟨0x380304 + 0x8 * i, 23, 22⟩
def LANE_GRP_STATUS_FAILS (i : Nat) : Fld := ⟨0x380304 + 0x8 * i, 21, 16⟩
def LANE_GRP_STATUS_SWITCHES (i : Nat) : Fld := ⟨0x380304 + 0x8 * i, 15, 0⟩

/-! Block PCIE: register addresses and fields. -/

def PCIE_ID : Nat := 0x390000
def PCIE_ID_DEVICE : Fld := ⟨0x390000, 31, 16⟩
def PCIE_ID_VENDOR : Fld := ⟨0x390000, 15, 0⟩
def PCIE_SUBSYS : Nat := 0x390004
def PCIE_SUBSYS_SUBSYS : Fld := ⟨0x390004, 31, 16⟩
def PCIE_SUBSYS_SUBVENDOR : Fld := ⟨0x390004, 15, 0⟩
def PCIE_REV : Nat := 0x390008
def PCIE_REV_CLASS : Fld := ⟨0x390008, 31, 8⟩
def PCIE_REV_REVID : Fld := ⟨0x390008, 7, 0⟩
def PCIE_LINK : Nat := 0x39000c
def PCIE_LINK_LTSSM : Fld := ⟨0x39000c, 31, 26⟩
def PCIE_LINK_SPEED : Fld := ⟨0x39000c, 25, 23⟩
def PCIE_LINK_WIDTH : Fld := ⟨0x39000c, 22, 18⟩
def PCIE_LINK_LPM : Fld := ⟨0x39000c, 17, 16⟩
def PCIE_CTRL : Nat := 0x390010
def PCIE_CTRL_RO_EN : Fld := ⟨0x390010, 31, 31⟩
def PCIE_CTRL_CTO : Fld := ⟨0x390010, 12, 0⟩
def PCIE_EVENTS : Nat := 0x390014
def PCIE_EVENTS_AER_UNCORR : Fld := ⟨0x390014, 5, 5⟩
def PCIE_EVENTS_AER_CORR : Fld := ⟨0x390014, 4, 4⟩
def PCIE_EVENTS_LINK_DOWN : Fld := ⟨0x390014, 3, 3⟩
def PCIE_EVENTS_PERST : Fld := ⟨0x390014, 2, 2⟩
def PCIE_EVENTS_FLR : Fld := ⟨0x390014, 1, 1⟩
def PCIE_EVENTS_CTO : Fld := ⟨0x390014, 0, 0⟩
def PCIE_CNT_PHY : Nat := 0x390018
def PCIE_CNT_PHY_RECEIVER : Fld := ⟨0x390018, 31, 16⟩
def PCIE_CNT_PHY_REPLAY : Fld := ⟨0x390018, 15, 0⟩
def PCIE_CNT_TLP : Nat := 0x39001c
def PCIE_CNT_TLP_BAD_TLP : Fld := ⟨0x39001c, 31, 16⟩
def PCIE_CNT_TLP_BAD_DLLP : Fld := ⟨0x39001c, 15, 0⟩
def PCIE_CNT_ERR : Nat := 0x390020
def PCIE_CNT_ERR_UR : Fld := ⟨0x390020, 31, 24⟩
def PCIE_CNT_ERR_MALFORMED : Fld := ⟨0x390020, 23, 16⟩
def PCIE_CNT_ERR_POISONED_RX : Fld := ⟨0x390020, 15, 8⟩
def PCIE_CNT_ERR_CTO : Fld := ⟨0x390020, 7, 0⟩
def PCIE_CNT_RST : Nat := 0x390024
def PCIE_CNT_RST_FLR : Fld := ⟨0x390024, 31, 24⟩
def PCIE_CNT_RST_PERST : Fld := ⟨0x390024, 23, 16⟩
def PCIE_CNT_RST_LINK_DOWN : Fld := ⟨0x390024, 15, 8⟩
def PCIE_L1 : Nat := 0x390028
def PCIE_L1_L1 : Fld := ⟨0x390028, 31, 16⟩
def PCIE_L1_L1_2 : Fld := ⟨0x390028, 15, 0⟩
def PCIE_TX : Nat := 0x39002c
def PCIE_TX_POISONED : Fld := ⟨0x39002c, 31, 16⟩
def PCIE_HDRLOG (i : Nat) : Nat := 0x390030 + 0x4 * i
def PCIE_HDRLOG_HDR (i : Nat) : Fld := ⟨0x390030 + 0x4 * i, 31, 0⟩

/-! Block ETH: register addresses and fields. -/

def ETH_CTRL (i : Nat) : Nat := 0x3a0000 + 0x20 * i
def ETH_CTRL_ENABLE (i : Nat) : Fld := ⟨0x3a0000 + 0x20 * i, 31, 31⟩
def ETH_CTRL_MODE (i : Nat) : Fld := ⟨0x3a0000 + 0x20 * i, 30, 29⟩
def ETH_CTRL_FEC (i : Nat) : Fld := ⟨0x3a0000 + 0x20 * i, 28, 27⟩
def ETH_CTRL_AN_EN (i : Nat) : Fld := ⟨0x3a0000 + 0x20 * i, 26, 26⟩
def ETH_CTRL_DEEP_PORT (i : Nat) : Fld := ⟨0x3a0000 + 0x20 * i, 25, 25⟩
def ETH_CTRL_PREFIX (i : Nat) : Fld := ⟨0x3a0000 + 0x20 * i, 24, 19⟩
def ETH_STATUS (i : Nat) : Nat := 0x3a0004 + 0x20 * i
def ETH_STATUS_LINK (i : Nat) : Fld := ⟨0x3a0004 + 0x20 * i, 31, 31⟩
def ETH_STATUS_AN_DONE (i : Nat) : Fld := ⟨0x3a0004 + 0x20 * i, 30, 30⟩
def ETH_STATUS_FEC_LOCK (i : Nat) : Fld := ⟨0x3a0004 + 0x20 * i, 29, 29⟩
def ETH_MAC_LO (i : Nat) : Nat := 0x3a0008 + 0x20 * i
def ETH_MAC_LO_MAC_LO (i : Nat) : Fld := ⟨0x3a0008 + 0x20 * i, 31, 0⟩
def ETH_MAC_HI (i : Nat) : Nat := 0x3a000c + 0x20 * i
def ETH_MAC_HI_UDP_PORT (i : Nat) : Fld := ⟨0x3a000c + 0x20 * i, 31, 16⟩
def ETH_MAC_HI_MAC_HI (i : Nat) : Fld := ⟨0x3a000c + 0x20 * i, 15, 0⟩
def ETH_IP (i : Nat) : Nat := 0x3a0010 + 0x20 * i
def ETH_IP_IP (i : Nat) : Fld := ⟨0x3a0010 + 0x20 * i, 31, 0⟩
def ETH_GW (i : Nat) : Nat := 0x3a0014 + 0x20 * i
def ETH_GW_GW (i : Nat) : Fld := ⟨0x3a0014 + 0x20 * i, 31, 0⟩
def ETH_CNT_FRAMES (i : Nat) : Nat := 0x3a0018 + 0x20 * i
def ETH_CNT_FRAMES_RX (i : Nat) : Fld := ⟨0x3a0018 + 0x20 * i, 31, 16⟩
def ETH_CNT_FRAMES_TX (i : Nat) : Fld := ⟨0x3a0018 + 0x20 * i, 15, 0⟩
def ETH_CNT_ERR (i : Nat) : Nat := 0x3a001c + 0x20 * i
def ETH_CNT_ERR_FCS (i : Nat) : Fld := ⟨0x3a001c + 0x20 * i, 31, 24⟩
def ETH_CNT_ERR_OVERRUN (i : Nat) : Fld := ⟨0x3a001c + 0x20 * i, 23, 16⟩
def ETH_CNT_ERR_DISCARD (i : Nat) : Fld := ⟨0x3a001c + 0x20 * i, 15, 8⟩
def ETH_CNT_ERR_FRAG (i : Nat) : Fld := ⟨0x3a001c + 0x20 * i, 7, 0⟩

/-! Block MON: register addresses and fields. -/

def MON_CFG (i : Nat) : Nat := 0x400000 + 0x10 * i
def MON_CFG_ENABLE (i : Nat) : Fld := ⟨0x400000 + 0x10 * i, 31, 31⟩
def MON_CFG_WIN_MODE (i : Nat) : Fld := ⟨0x400000 + 0x10 * i, 30, 29⟩
def MON_CFG_BIN_MODE (i : Nat) : Fld := ⟨0x400000 + 0x10 * i, 28, 27⟩
def MON_CFG_TRIG_SNAP (i : Nat) : Fld := ⟨0x400000 + 0x10 * i, 26, 26⟩
def MON_CFG_TRIG_RESTART (i : Nat) : Fld := ⟨0x400000 + 0x10 * i, 25, 25⟩
def MON_CFG_EV_EN (i : Nat) : Fld := ⟨0x400000 + 0x10 * i, 24, 24⟩
def MON_CFG_SOURCE (i : Nat) : Fld := ⟨0x400000 + 0x10 * i, 23, 16⟩
def MON_CFG_INSTANCE (i : Nat) : Fld := ⟨0x400000 + 0x10 * i, 11, 0⟩
def MON_WIN (i : Nat) : Nat := 0x400004 + 0x10 * i
def MON_WIN_LEN (i : Nat) : Fld := ⟨0x400004 + 0x10 * i, 31, 0⟩
def MON_BIN (i : Nat) : Nat := 0x400008 + 0x10 * i
def MON_BIN_BASE (i : Nat) : Fld := ⟨0x400008 + 0x10 * i, 31, 16⟩
def MON_BIN_WIDTH (i : Nat) : Fld := ⟨0x400008 + 0x10 * i, 15, 0⟩
def MON_STATUS (i : Nat) : Nat := 0x40000c + 0x10 * i
def MON_STATUS_RUNNING (i : Nat) : Fld := ⟨0x40000c + 0x10 * i, 31, 31⟩
def MON_STATUS_BINS_PEND (i : Nat) : Fld := ⟨0x40000c + 0x10 * i, 30, 30⟩
def MON_STATUS_SUM_SAT (i : Nat) : Fld := ⟨0x40000c + 0x10 * i, 29, 29⟩
def MON_STATUS_WINDOWS (i : Nat) : Fld := ⟨0x40000c + 0x10 * i, 15, 0⟩

/-! Block PWR: register addresses and fields. -/

def PWR_CTRL : Nat := 0x480000
def PWR_CTRL_DOZE_EN : Fld := ⟨0x480000, 31, 31⟩
def PWR_CTRL_WAKE_ZONE : Fld := ⟨0x480000, 30, 30⟩
def PWR_CTRL_WAKE_PIN : Fld := ⟨0x480000, 29, 29⟩
def PWR_CTRL_WAKE_EVT : Fld := ⟨0x480000, 28, 28⟩
def PWR_CTRL_EV_ZONE : Fld := ⟨0x480000, 27, 27⟩
def PWR_CTRL_DOZE_US : Fld := ⟨0x480000, 15, 0⟩
def PWR_STATUS : Nat := 0x480004
def PWR_STATUS_PSTATE : Fld := ⟨0x480004, 31, 30⟩
def PWR_STATUS_WAKING : Fld := ⟨0x480004, 29, 29⟩
def PWR_STATUS_ENTERING : Fld := ⟨0x480004, 28, 28⟩
def PWR_STATUS_DERATED : Fld := ⟨0x480004, 27, 27⟩
def PWR_STATUS_LAST_OFF : Fld := ⟨0x480004, 26, 24⟩
def PWR_STATUS_LAST_WAKE : Fld := ⟨0x480004, 23, 20⟩
def PWR_STATUS_GATED : Fld := ⟨0x480004, 5, 0⟩
def PWR_VIN : Nat := 0x480008
def PWR_VIN_VIN_MV : Fld := ⟨0x480008, 31, 16⟩
def PWR_VIN_IIN : Fld := ⟨0x480008, 15, 0⟩
def PWR_POWER : Nat := 0x48000c
def PWR_POWER_PMAX : Fld := ⟨0x48000c, 31, 16⟩
def PWR_POWER_P : Fld := ⟨0x48000c, 15, 0⟩
def PWR_ENERGY_LO : Nat := 0x480010
def PWR_ENERGY_LO_MJ_LO : Fld := ⟨0x480010, 31, 0⟩
def PWR_ENERGY_HI : Nat := 0x480014
def PWR_ENERGY_HI_MJ_HI : Fld := ⟨0x480014, 31, 0⟩
def PWR_PHASE_CORE : Nat := 0x480018
def PWR_PHASE_CORE_FAIL : Fld := ⟨0x480018, 31, 0⟩
def PWR_PHASE_MID : Nat := 0x48001c
def PWR_PHASE_MID_FAIL : Fld := ⟨0x48001c, 15, 8⟩
def PWR_PHASE_MID_ACTIVE_CORE : Fld := ⟨0x48001c, 5, 0⟩
def PWR_ZONE : Nat := 0x480020
def PWR_ZONE_GROUP : Fld := ⟨0x480020, 25, 24⟩
def PWR_ZONE_LINE : Fld := ⟨0x480020, 23, 16⟩
def PWR_ZONE_ACTIVE : Fld := ⟨0x480020, 7, 4⟩
def PWR_ZONE_FAULT : Fld := ⟨0x480020, 3, 0⟩
def PWR_ZONE_CFG : Nat := 0x480024
def PWR_ZONE_CFG_ZONE_MS : Fld := ⟨0x480024, 7, 0⟩
def PWR_THERM : Nat := 0x480028
def PWR_THERM_TRIP_C : Fld := ⟨0x480028, 31, 24⟩
def PWR_THERM_RESTART_C : Fld := ⟨0x480028, 23, 16⟩
def PWR_THERM_TRIPS : Fld := ⟨0x480028, 7, 0⟩
def PWR_CNT : Nat := 0x48002c
def PWR_CNT_SLEEPS : Fld := ⟨0x48002c, 31, 16⟩
def PWR_CNT_DOZES : Fld := ⟨0x48002c, 15, 0⟩
def PWR_DEEP_S : Nat := 0x480030
def PWR_DEEP_S_SECONDS : Fld := ⟨0x480030, 31, 0⟩
def PWR_WAKE_T : Nat := 0x480034
def PWR_WAKE_T_LAST_MS : Fld := ⟨0x480034, 31, 16⟩
def PWR_WAKE_T_MAX_MS : Fld := ⟨0x480034, 15, 0⟩
def PWR_EVENTS : Nat := 0x480038
def PWR_EVENTS_DERATED : Fld := ⟨0x480038, 4, 4⟩
def PWR_EVENTS_PHASE : Fld := ⟨0x480038, 3, 3⟩
def PWR_EVENTS_WAKE : Fld := ⟨0x480038, 2, 2⟩
def PWR_EVENTS_ZONE : Fld := ⟨0x480038, 1, 1⟩
def PWR_EVENTS_OFF : Fld := ⟨0x480038, 0, 0⟩
def PWR_RAILS : Nat := 0x48003c
def PWR_RAILS_VMID_MV : Fld := ⟨0x48003c, 31, 16⟩
def PWR_RAILS_VZONE_MV : Fld := ⟨0x48003c, 15, 0⟩

/-! Block NVC: register addresses and fields. -/

def NVC_SLOT : Nat := 0x490000
def NVC_SLOT_ACTIVE : Fld := ⟨0x490000, 31, 31⟩
def NVC_SLOT_RUNNING : Fld := ⟨0x490000, 30, 30⟩
def NVC_SLOT_A_VALID : Fld := ⟨0x490000, 29, 29⟩
def NVC_SLOT_B_VALID : Fld := ⟨0x490000, 28, 28⟩
def NVC_SLOT_FALLBACK : Fld := ⟨0x490000, 27, 27⟩
def NVC_VER_A : Nat := 0x490004
def NVC_VER_A_VERSION : Fld := ⟨0x490004, 31, 0⟩
def NVC_VER_B : Nat := 0x490008
def NVC_VER_B_VERSION : Fld := ⟨0x490008, 31, 0⟩
def NVC_COMPAT : Nat := 0x49000c
def NVC_COMPAT_LEVEL_A : Fld := ⟨0x49000c, 31, 16⟩
def NVC_COMPAT_LEVEL_B : Fld := ⟨0x49000c, 15, 0⟩
def NVC_SEL : Nat := 0x490010
def NVC_SEL_KIND : Fld := ⟨0x490010, 15, 8⟩
def NVC_SEL_INSTANCE : Fld := ⟨0x490010, 7, 0⟩
def NVC_REC : Nat := 0x490014
def NVC_REC_VALID_A : Fld := ⟨0x490014, 31, 31⟩
def NVC_REC_VALID_B : Fld := ⟨0x490014, 30, 30⟩
def NVC_REC_NEWER_B : Fld := ⟨0x490014, 29, 29⟩
def NVC_REC_LEN : Fld := ⟨0x490014, 23, 0⟩
def NVC_COUNT : Nat := 0x490018
def NVC_COUNT_COUNT : Fld := ⟨0x490018, 31, 0⟩
def NVC_SEC_LO : Nat := 0x49001c
def NVC_SEC_LO_SEC_LO : Fld := ⟨0x49001c, 31, 0⟩
def NVC_SEC_HI : Nat := 0x490020
def NVC_SEC_HI_DOMAIN : Fld := ⟨0x490020, 31, 31⟩
def NVC_SEC_HI_SEC_HI : Fld := ⟨0x490020, 15, 0⟩
def NVC_NS : Nat := 0x490024
def NVC_NS_NS : Fld := ⟨0x490024, 29, 0⟩
def NVC_SEQ : Nat := 0x490028
def NVC_SEQ_SEQ : Fld := ⟨0x490028, 31, 0⟩
def NVC_WEAR : Nat := 0x49002c
def NVC_WEAR_WORST : Fld := ⟨0x49002c, 31, 16⟩
def NVC_WEAR_RATED : Fld := ⟨0x49002c, 15, 0⟩
def NVC_ERR : Nat := 0x490030
def NVC_ERR_COPY_BAD : Fld := ⟨0x490030, 31, 16⟩
def NVC_ERR_REPAIRED : Fld := ⟨0x490030, 15, 0⟩
def NVC_USED : Nat := 0x490034
def NVC_USED_KIB : Fld := ⟨0x490034, 15, 0⟩
def NVC_LOG : Nat := 0x490038
def NVC_LOG_NEXT : Fld := ⟨0x490038, 31, 0⟩
def NVC_EVENTS : Nat := 0x49003c
def NVC_EVENTS_WEAR : Fld := ⟨0x49003c, 2, 2⟩
def NVC_EVENTS_REPAIR : Fld := ⟨0x49003c, 1, 1⟩
def NVC_EVENTS_COPY_BAD : Fld := ⟨0x49003c, 0, 0⟩

/-! Block SPARE: register addresses and fields. -/

def SPARE_CTRL : Nat := 0x4a0000
def SPARE_CTRL_EV_TAKE : Fld := ⟨0x4a0000, 31, 31⟩
def SPARE_CTRL_EV_FW : Fld := ⟨0x4a0000, 30, 30⟩
def SPARE_SEL : Nat := 0x4a0004
def SPARE_SEL_CLUSTER : Fld := ⟨0x4a0004, 3, 0⟩
def SPARE_CL : Nat := 0x4a0008
def SPARE_CL_AVAIL : Fld := ⟨0x4a0008, 31, 31⟩
def SPARE_CL_ROTATING : Fld := ⟨0x4a0008, 30, 30⟩
def SPARE_CL_EXHAUSTED : Fld := ⟨0x4a0008, 29, 29⟩
def SPARE_CL_SPARE_PHYS : Fld := ⟨0x4a0008, 28, 24⟩
def SPARE_CL_FAILED1 : Fld := ⟨0x4a0008, 23, 19⟩
def SPARE_CL_FAILED2 : Fld := ⟨0x4a0008, 18, 14⟩
def SPARE_CL_VACANT : Fld := ⟨0x4a0008, 13, 10⟩
def SPARE_CL_VACANT_VALID : Fld := ⟨0x4a0008, 9, 9⟩
def SPARE_CL_KERNEL_NEW : Fld := ⟨0x4a0008, 8, 8⟩
def SPARE_CL_TAKEOVERS : Fld := ⟨0x4a0008, 7, 0⟩
def SPARE_PSUP : Nat := 0x4a000c
def SPARE_PSUP_ACTIVE : Fld := ⟨0x4a000c, 31, 31⟩
def SPARE_PSUP_STANDBY_OK : Fld := ⟨0x4a000c, 30, 30⟩
def SPARE_PSUP_TAKEOVER : Fld := ⟨0x4a000c, 29, 29⟩
def SPARE_PSUP_MISMATCH : Fld := ⟨0x4a000c, 23, 16⟩
def SPARE_PSUP_TRANSIENT : Fld := ⟨0x4a000c, 15, 8⟩
def SPARE_PSUP_TAKEOVERS : Fld := ⟨0x4a000c, 7, 0⟩
def SPARE_FW : Nat := 0x4a0010
def SPARE_FW_STATE : Fld := ⟨0x4a0010, 31, 29⟩
def SPARE_FW_CLUSTER : Fld := ⟨0x4a0010, 19, 16⟩
def SPARE_FW_STEPS : Fld := ⟨0x4a0010, 4, 0⟩
def SPARE_CNT : Nat := 0x4a0014
def SPARE_CNT_TAKEOVERS : Fld := ⟨0x4a0014, 31, 16⟩
def SPARE_CNT_BLANK : Fld := ⟨0x4a0014, 15, 0⟩
def SPARE_LAST : Nat := 0x4a0018
def SPARE_LAST_CLUSTER : Fld := ⟨0x4a0018, 31, 28⟩
def SPARE_LAST_SLOT : Fld := ⟨0x4a0018, 27, 24⟩
def SPARE_LAST_PHYS : Fld := ⟨0x4a0018, 23, 19⟩
def SPARE_LAST_CAUSE : Fld := ⟨0x4a0018, 18, 16⟩
def SPARE_EVENTS : Nat := 0x4a001c
def SPARE_EVENTS_EXHAUSTED : Fld := ⟨0x4a001c, 3, 3⟩
def SPARE_EVENTS_PAIR : Fld := ⟨0x4a001c, 2, 2⟩
def SPARE_EVENTS_FW_FALLBACK : Fld := ⟨0x4a001c, 1, 1⟩
def SPARE_EVENTS_TAKEOVER : Fld := ⟨0x4a001c, 0, 0⟩

end Reg

end Sys2Proof.Machine
end

