-- ==== Sys2Proof/Machine/Tab.lean ====
section
/-!
DEFINITION. Sparse tables in one canonical form: keys strictly rising, and no entry equal to what an absent key reads
as. The register file, the per-instance records and device memory are all held this way.
-/
namespace Sys2Proof.Machine

/-- What key `k` holds: its entry, else the default. -/
def tabGet {α : Type} (d : α) : List (Nat × α) → Nat → α
  | [], _ => d
  | (i, a) :: t, k => if i = k then a else tabGet d t k

/-- The table without key `k`. -/
def tabErase {α : Type} (k : Nat) : List (Nat × α) → List (Nat × α)
  | [] => []
  | (i, a) :: t => if i = k then tabErase k t else (i, a) :: tabErase k t

/-- An entry put at its place by key. -/
def tabInsert {α : Type} (k : Nat) (v : α) : List (Nat × α) → List (Nat × α)
  | [] => [(k, v)]
  | (i, a) :: t => if k < i then (k, v) :: (i, a) :: t else (i, a) :: tabInsert k v t

/-- Key `k` made to hold `v`, where an absent key reads `d`. -/
def tabPut {α : Type} [DecidableEq α] (d : α) (t : List (Nat × α)) (k : Nat) (v : α) : List (Nat × α) :=
  if v = d then tabErase k t else tabInsert k v (tabErase k t)

/-- The canonical form, given what an absent key reads as: keys strictly rising and no entry equal to it. -/
def tabWf {α : Type} [DecidableEq α] (d : Nat → α) : List (Nat × α) → Bool
  | [] => true
  | [(i, a)] => a != d i
  | (i, a) :: (j, b) :: t => a != d i && decide (i < j) && tabWf d ((j, b) :: t)

/-! Device memory (R304): 64 GiB of bytes. -/

/-- The number of bytes of device memory (Table 01-8). -/
def memSize : Nat := 68719476736

/-- What a byte that nothing has written reads as. DESIGN CHOICE: 0; the spec gives no power-on contents. -/
def memEmpty : Byte := 0#8

/-- The canonical form of device memory. -/
abbrev Memory.wf (m : List Host.Cell) : Prop := tabWf (fun _ => memEmpty) m = true

/-- The byte at an address. -/
def memByte (m : List Host.Cell) (a : Nat) : Byte := tabGet memEmpty m a

/-- A byte written. -/
def memPutByte (m : List Host.Cell) (a : Nat) (b : Byte) : List Host.Cell := tabPut memEmpty m a b

/-- Bytes written at consecutive addresses. -/
def memPut (m : List Host.Cell) (a : Nat) : List Byte → List Host.Cell
  | [] => m
  | b :: bs => memPut (memPutByte m a b) (a + 1) bs

/-- `n` bytes from `a` made what an unlisted address reads as. -/
def memClear (m : List Host.Cell) (a n : Nat) : List Host.Cell :=
  m.filter fun c => !(decide (a ≤ c.1) && decide (c.1 < a + n))

/-- Bytes read from consecutive addresses. -/
def memGet (m : List Host.Cell) (a n : Nat) : List Byte := (List.range n).map (fun i => memByte m (a + i))

/-! The register file: an address that is not listed reads its reset value (R420). -/

/-- The row and instance of the plan at a parameter address (R417: mapped addresses). -/
def planRow (addr : Nat) : Option (RegRow × Nat) :=
  let off := addr % 0x10000
  ((planOf (addr / 0x10000)).find? fun r =>
      decide (r.off ≤ off) && decide ((off - r.off) % (if r.stride = 0 then 4 else r.stride) = 0)
        && decide ((off - r.off) / (if r.stride = 0 then 4 else r.stride) < r.count)).map
    fun r => (r, (off - r.off) / (if r.stride = 0 then 4 else r.stride))

/-- The reset value of a field in instance `i` (R420). -/
def FieldRow.resetIn (f : FieldRow) (i : Nat) : Nat := if f.per = 0 then f.reset else i % f.per

/-- The word made of the fields' reset values. -/
def resetOfRow (r : RegRow) (i : Nat) : Word :=
  r.fields.foldl (fun w f => setWordBits w f.hi f.lo (f.resetIn i)) 0#32

/-- The reset value of the register at a parameter address; 0 where none is mapped. -/
def resetWord (addr : Nat) : Word :=
  match planRow addr with
  | some (r, i) => resetOfRow r i
  | none => 0#32

/-- The word of a register. -/
def regGet (l : List (Nat × Word)) (addr : Nat) : Word := tabGet (resetWord addr) l addr

/-- The word of a register replaced. -/
def regPut (l : List (Nat × Word)) (addr : Nat) (w : Word) : List (Nat × Word) := tabPut (resetWord addr) l addr w

end Sys2Proof.Machine
end

