-- ==== Sys2Proof/Machine/Units.lean ====
section
/-!
DEFINITION. The records behind the registers: what each unit holds that no register of the plan shows. Register-visible
state lives in the register file and nowhere else.
-/
namespace Sys2Proof.Machine

/-- The five domains of Table 01-4. -/
inductive Domain where
  | print | inspect | motion | time | platform
  deriving DecidableEq, Repr

/-! Commands, sessions, rings (chapter 04). -/

/-- A reply packet (Table 04-2). -/
structure Reply where
  /-- OPCODE echoed -/
  opcode : Nat := 0
  /-- TAG echoed -/
  tag : Nat := 0
  /-- PARTIAL (R87) -/
  more : Bool := false
  /-- REPEAT (R86) -/
  again : Bool := false
  /-- STATUS (Table 04-4) -/
  status : Nat := 0
  /-- SEQ echoed -/
  seq : Nat := 0
  /-- SESSION as the reply's carrier needs it (R94) -/
  sess : Nat := 0
  /-- payload -/
  payload : List Byte := []
  /-- STATE: the device state when the reply was written, that of the answering member for a forwarded command (R94) -/
  state : Nat := 0
  deriving DecidableEq, Repr

/-- A tag slot (R83): the command that took it and, once written, its reply. -/
structure Slot where
  /-- taken since the session opened -/
  taken : Bool := false
  /-- the command has completed -/
  done : Bool := false
  /-- OPCODE of the command -/
  opcode : Nat := 0
  /-- SEQ of the command -/
  seq : Nat := 0
  /-- NEED_REPLY of the command (R80) -/
  needReply : Bool := true
  /-- the stored reply has been delivered (R86) -/
  delivered : Bool := false
  /-- STATUS of the stored reply -/
  status : Nat := 0
  /-- PARTIAL of the stored reply -/
  more : Bool := false
  /-- payload of the stored reply -/
  payload : List Byte := []
  /-- packet offset of the first reserved payload byte that is not 0 (R423, R8) -/
  reserved : Option Nat := none
  /-- STATE of the stored reply -/
  state : Nat := 0
  deriving DecidableEq, Repr

/-- What a session number stands for (R88). -/
inductive SessKind where
  | closed
  | ring
  | eth (ip port : Nat)
  | forwarded (dev sess : Nat)
  deriving DecidableEq, Repr

/-- A session (R83 to R93). -/
structure Session where
  /-- closed, a host ring, an Ethernet binding (R92) or a forwarded origin (R94) -/
  kind : SessKind := .closed
  /-- SEQ of the last packet that took a slot (R85) -/
  lastSeq : Option Nat := none
  /-- reference tick of the last packet (R92) -/
  lastTick : Nat := 0
  /-- the 64 tag slots (R83) -/
  slots : List (Nat × Slot) := []
  /-- members that hold a forwarded session of this one (R94) -/
  members : List Nat := []
  deriving DecidableEq, Repr

/-- A command ring and its reply ring (R95 to R99); indices are free-running unit counts modulo 2^32. -/
structure Ring where
  /-- command producer index, DB_CMD -/
  cmdProd : Nat := 0
  /-- command consumer index -/
  cmdCons : Nat := 0
  /-- reply producer index -/
  rplProd : Nat := 0
  /-- reply consumer index, DB_RPL -/
  rplCons : Nat := 0
  /-- replies that wait for free units (R98) -/
  waiting : List Reply := []
  /-- the shortage has been reported as a breach of C1 and lasts -/
  breached : Bool := false
  deriving DecidableEq, Repr

/-- An accepted command that its domain has not taken (R19). -/
structure Queued where
  /-- session -/
  sess : Nat := 0
  /-- tag -/
  tag : Nat := 0
  /-- opcode -/
  opcode : Nat := 0
  /-- the domains whose queues it stands in (R18) -/
  doms : List Domain := []
  /-- IMMEDIATE (R80) -/
  immediate : Bool := false
  /-- the command and its operands as the packet spells them (R105) -/
  cmd : Option Instr := none
  deriving DecidableEq, Repr

/-- A command that occupies its domain until a later happening completes it (R19). -/
structure Executing where
  /-- the domain -/
  dom : Domain := .platform
  /-- session -/
  sess : Nat := 0
  /-- tag -/
  tag : Nat := 0
  deriving DecidableEq, Repr

/-- Phase 0 of a SESSION_OPEN that waits for phase 1 (R90). -/
structure OpenTry where
  /-- source address -/
  ip : Nat := 0
  /-- source port -/
  port : Nat := 0
  /-- key slot -/
  slot : Nat := 0
  /-- host nonce -/
  hostNonce : List Byte := []
  /-- device nonce -/
  devNonce : List Byte := []
  /-- tick of the phase 0 reply -/
  tick : Nat := 0
  deriving DecidableEq, Repr

/-- A table being staged (R104). -/
structure Staging where
  /-- total table length -/
  total : Nat := 0
  /-- RESET of the chunk at offset 0 -/
  reset : Bool := false
  /-- bytes staged so far -/
  data : List Byte := []
  deriving DecidableEq, Repr

/-- The four Ethernet keys of the non-volatile die (R91). -/
def keyReset : List Byte := List.replicate 32 0#8

/-- The command side of the Puppeteer (chapter 04). -/
structure CmdUnit where
  /-- the 16 sessions; 0 to 3 are always open (R88) -/
  sessions : List (Nat × Session) := []
  /-- the four rings -/
  rings : List (Nat × Ring) := []
  /-- accepted commands in acceptance order (R19) -/
  queue : List Queued := []
  /-- commands that occupy their domain -/
  executing : List Executing := []
  /-- the barrier command in force (R20) -/
  barrier : Option (Nat × Nat) := none
  /-- the key slots (R91) -/
  keys : List (Nat × List Byte) := []
  /-- opens that wait for phase 1 (R90) -/
  opens : List OpenTry := []
  /-- ticks of the BAD_CHECK answers of each key slot (R91) -/
  keyFails : List (Nat × List Nat) := []
  /-- key slots locked out (R91) -/
  lockouts : List (Nat × Bool) := []
  /-- stagings by 2^16 x opcode + instance (R104) -/
  staging : List (Nat × Staging) := []
  /-- MODEL: sessions that have closed; the commands that the n-th left under way bear session 255 + n (R93) -/
  closed : Nat := 0
  deriving DecidableEq, Repr

/-! Fault log (R383). -/

/-- A fault-log entry (Table 16-6). -/
structure LogEntry where
  /-- entry number -/
  num : Nat := 0
  /-- code (Tables 16-1, 16-2) -/
  code : Nat := 0
  /-- block number of the reporting unit -/
  block : Nat := 0
  /-- instance within the block -/
  inst : Nat := 0
  /-- seconds of the active domain -/
  sec : Nat := 0
  /-- nanoseconds -/
  ns : Nat := 0
  /-- domain -/
  dom : Nat := 0
  /-- restored at boot -/
  restored : Bool := false
  /-- condition number, or 0 -/
  cond : Nat := 0
  /-- what the logging rule names: position, address, owner, cause -/
  detail : List Nat := []
  deriving DecidableEq, Repr

/-- The fault log and its copy in the non-volatile die (R383). -/
structure LogUnit where
  /-- the entries held in CONTEXT, oldest first, at most 65,536 -/
  entries : List LogEntry := []
  /-- the copy of the newest 1,024 entries -/
  copy : List LogEntry := []
  deriving DecidableEq, Repr

/-! Locks and arbiters (chapter 03). -/

/-- A request that waits for a lock (R73). -/
structure LockWait where
  /-- arbiter input: 5 for a session, the traffic class for an engine -/
  input : Nat := 5
  /-- owner kind: false session, true engine -/
  engine : Bool := false
  /-- session or logical engine number -/
  client : Nat := 0
  /-- tag of the LOCK_ACQUIRE -/
  tag : Nat := 0
  /-- tick at which the wait time expires -/
  deadline : Option Nat := none
  deriving DecidableEq, Repr

/-- An arbiter's eight inputs (R54 to R57). -/
structure Arb where
  /-- wait counters by input (R55) -/
  count : List (Nat × Nat) := []
  /-- forced inputs in the order they are served: earliest first, at one break point the highest first (R54) -/
  forced : List Nat := []
  /-- client last granted on each input, plus 1; 0 none (R57) -/
  last : List (Nat × Nat) := []
  /-- input and client of the last grant -/
  granted : Option (Nat × Nat) := none
  /-- the requests that waited after the last break point, with their inputs (R64) -/
  on_ : List (ArbReq × Nat) := []
  /-- the unit last granted was cut short and marked TRUNCATED (R67) -/
  truncated : Bool := false
  deriving DecidableEq, Repr

/-- What a lock holds beside its register (R72, R73). -/
structure LockX where
  /-- tick of the grant -/
  since : Nat := 0
  /-- waiting requests in order of arrival -/
  waiters : List LockWait := []
  /-- the lock arbiter -/
  arb : Arb := {}
  deriving DecidableEq, Repr

/-! Event matrix (chapter 12). -/

/-- An event that a producer raised and that has not left its channels (R294). -/
structure EvtWait where
  /-- producer -/
  prod : Nat := 0
  /-- the tag it keeps when a consumer task raised it (R298) -/
  tag : Option Nat := none
  deriving DecidableEq, Repr

/-- A consumer input (R296, R297, EVT_CONS). -/
structure EvtCons where
  /-- a task is under way -/
  busy : Bool := false
  /-- tag of the event that started the task -/
  tag : Nat := 0
  /-- tick at which the task started -/
  tick : Nat := 0
  /-- tick until which the input stays busy after its task (R297, R301) -/
  hold : Nat := 0
  /-- a second event came within the resolution window -/
  coincident : Bool := false
  /-- producer of the last ignored event -/
  lastProd : Nat := 0
  /-- events ignored, saturating at 65,535 -/
  ignored : Nat := 0
  deriving DecidableEq, Repr

/-- A channel (R299, EVT_CHAN). -/
structure EvtChan where
  /-- for each tag, 1 + the tick at which an event with it last passed; 0 never -/
  passed : List (Nat × Nat) := []
  /-- derived events dropped, saturating at 65,535 -/
  loop : Nat := 0
  /-- tag last dropped -/
  lastTag : Nat := 0
  /-- producer last dropped -/
  lastProd : Nat := 0
  deriving DecidableEq, Repr


/-- The event matrix. -/
structure EvtUnit where
  /-- raised events on their way, in merge order -/
  waiting : List EvtWait := []
  /-- consumer inputs -/
  cons : List (Nat × EvtCons) := []
  /-- channels -/
  chans : List (Nat × EvtChan) := []
  /-- for each pin, 1 + the tick of its last accepted active edge; 0 none (R301) -/
  pins : List (Nat × Nat) := []
  deriving DecidableEq, Repr

/-! Time domains (chapter 12). -/

/-- One domain's counts and what its servo remembers (R283, R287). -/
structure Clock where
  /-- seconds, 64 bits -/
  sec : Nat := 0
  /-- nanoseconds, below 1,000,000,000 -/
  ns : Nat := 0
  /-- fraction of a nanosecond, 32 bits -/
  frac : Nat := 0
  /-- consecutive measurements within LOCK_NS, at most 8 (R287) -/
  good : Nat := 0
  /-- consecutive measurements above LOCK_NS, at most 4 (R287) -/
  bad : Nat := 0
  /-- the alarm was armed for a time already past (R292) -/
  alarmLate : Bool := false
  /-- the selected master's port identity (R290) -/
  master : Option Nat := none
  /-- the selected master changed since the last record (R291) -/
  masterChanged : Bool := false
  /-- the port in SLAVE state of a boundary clock (R287) -/
  slave : Option Nat := none
  /-- currentUtcOffset of its PTP source (R290) -/
  utc : Option Nat := none
  deriving DecidableEq, Repr

/-- A two-step message whose follow-up has not come (R290, R291). -/
structure PtpHeld where
  /-- sequenceId -/
  seq : Nat := 0
  /-- receive stamp: seconds, ns -/
  rx : Nat × Nat := (0, 0)
  /-- requestReceiptTimestamp of a Pdelay_Resp -/
  request : Nat × Nat := (0, 0)
  /-- correctionField -/
  correction : Int := 0
  deriving DecidableEq, Repr

/-- A held capture of TSCAP_k (R303). -/
structure Capture where
  /-- VALID -/
  valid : Bool := false
  /-- seconds -/
  sec : Nat := 0
  /-- nanoseconds -/
  ns : Nat := 0
  /-- active domain at the capture -/
  dom : Nat := 0
  /-- web position, 64 bits -/
  pos : Nat := 0
  deriving DecidableEq, Repr

/-- The time unit. -/
structure TimeUnit where
  /-- Punch (0) and Judy (1) -/
  clocks : List (Nat × Clock) := []
  /-- the residual R in 2^-32 ns (R285) -/
  resid : Int := 0
  /-- the eight capture units -/
  caps : List (Nat × Capture) := []
  /-- two-step messages that wait for their follow-up: a Sync at twice its port's number, a Pdelay_Resp one above -/
  ptp : List (Nat × PtpHeld) := []
  deriving DecidableEq, Repr

/-- MSI-X (R344): vectors unmasked and vectors pending. -/
structure MsixUnit where
  /-- vectors whose mask bit is clear -/
  unmasked : List (Nat × Bool) := []
  /-- pending bits -/
  pend : List (Nat × Bool) := []
  deriving DecidableEq, Repr

/-! Device memory beside its bytes (chapter 13). -/

/-- Channels, codes and scrubber. -/
structure DramUnit where
  /-- symbol errors in stored code words, by address / 16: (symbol, pattern), symbols rising (R317) -/
  errs : List (Nat × List (Nat × Nat)) := []
  /-- code words that hold the poison check value -/
  poison : List (Nat × Bool) := []
  /-- rows of the error table by channel, in order of entry: row key and count (R320) -/
  rows : List (Nat × List (Nat × Nat)) := []
  /-- activates in the present window by channel, input and row-group (R314) -/
  acts : List (Nat × Nat) := []
  /-- number of the refresh window those of a channel belong to -/
  window : List (Nat × Nat) := []
  /-- open rows, plus 1, by channel, pseudo-channel and bank (R310) -/
  open_ : List (Nat × Nat) := []
  /-- throttled inputs, earliest first: channel, input, and the tick at which HOLD_US has passed -/
  throttled : List (Nat × Nat × Nat) := []
  /-- targeted refreshes that wait for the spacing of R313: channel, input, bank -/
  targets : List (Nat × Nat × Nat) := []
  /-- interruptions in progress by channel: tick at which they end (R313) -/
  busy : List (Nat × Nat) := []
  /-- the one bank that a channel's interruption blocks; absent: the whole channel (Table 13-2) -/
  bank : List (Nat × Option Nat) := []
  /-- tick, plus 1, of a channel's last all-bank refresh (R311) -/
  refreshed : List (Nat × Nat) := []
  /-- tick, plus 1, at which a channel last started an access group (R312, R315) -/
  used : List (Nat × Nat) := []
  /-- tick at which the calibration or retraining in progress on a channel ends (R313) -/
  calEnd : List (Nat × Nat) := []
  /-- tick at which a channel's last interruption ended or ends -/
  ended : List (Nat × Nat) := []
  /-- steps of a calibration or retraining still due on a deterministic channel -/
  steps : List (Nat × Nat) := []
  /-- code words read in the present scrub pass (R319) -/
  scrub : Nat := 0
  /-- tick at which the present pass began -/
  scrubFrom : Nat := 0
  /-- SCRUB_INTERVAL of the present pass, in seconds; 0 before the first -/
  scrubSecs : Nat := 0
  /-- write-backs that are queued (R318): the code word, and the number of its miscorrection if it was one -/
  backs : List (Nat × Option Nat) := []
  deriving DecidableEq, Repr

/-! Monitors (chapter 16). -/

/-- What a monitor accumulates, or holds (R384). -/
structure MonAcc where
  /-- minimum -/
  min : Int := 2147483647
  /-- maximum -/
  max : Int := -2147483648
  /-- count -/
  count : Nat := 0
  /-- sum -/
  sum : Int := 0
  /-- bins by number -/
  bins : List (Nat × Nat) := []
  deriving DecidableEq, Repr

/-- A monitor. -/
structure Mon where
  /-- accumulators of the present window -/
  acc : MonAcc := {}
  /-- held result -/
  held : MonAcc := {}
  /-- edges 1 to 31 in force in the present window -/
  edges : List Int := []
  /-- edges 1 to 31 of MON_BINS_LOAD -/
  table : List Int := []
  /-- tick at which the present window started -/
  since : Nat := 0
  deriving DecidableEq, Repr

/-! Lanes (chapter 14). -/

/-- What a lane holds beside its registers (R334 to R338). -/
structure Lane where
  /-- a RATE_REQ sent and not yet answered: its code (R338) -/
  req : Option Nat := none
  /-- the lane comes from DORMANT and keeps its EQ -/
  kept : Bool := false
  /-- tick since which FOM has been what it is as to FOM_MIN -/
  fomTick : Nat := 0
  /-- a RATE_REQ to be sent again: tick and code (R338) -/
  retry : Option (Nat × Nat) := none
  /-- the transmit scrambler: the last 58 scrambled bits (R331) -/
  txScr : Nat := 0
  /-- the receive descrambler -/
  rxScr : Nat := 0
  /-- the last 64 received headers, newest first: invalid (R334) -/
  window : List Bool := []
  /-- a packet is being received (R333) -/
  inPkt : Bool := false
  /-- block of the round in which the last ALIGN came (R342) -/
  alignAt : Option Nat := none
  deriving DecidableEq, Repr

/-- A group's takeover (R339, R340). -/
structure LaneGroup where
  /-- 0 none, 1 the spare is attached, 2 the old transceiver recalibrates -/
  phase : Nat := 0
  /-- the transceiver that was relieved -/
  old : Nat := 0
  /-- EQ and FOM that the attached spare adapted to -/
  adapted : Option (Nat × Nat) := none
  /-- the lane served last, within the group -/
  served : Option Nat := none
  /-- tick, plus 1, at which the last takeover started -/
  started : Nat := 0
  deriving DecidableEq, Repr

/-- The lanes and their groups. -/
structure LaneUnit where
  /-- lanes 0 to 95 -/
  lanes : List (Nat × Lane) := []
  /-- groups 0 to 11 -/
  groups : List (Nat × LaneGroup) := []
  deriving DecidableEq, Repr

/-! Chain (chapter 15). -/

/-- A chain link end (R359). -/
structure ChainLink where
  /-- free receive buffers last reported by the next hop, less packets sent since -/
  credits : Nat := 16
  /-- packets that wait to leave, each with whether it is in transit -/
  queue : List (Bool × List Byte) := []
  /-- the receiver treats the link as down (R357, R367) -/
  refused : Bool := false
  /-- blocks sent so far, modulo the link's lanes: the next block's lane (R342) -/
  turn : Nat := 0
  /-- measured link delay, 2^-16 ns (R362) -/
  delay : Int := 0
  /-- transmit stamp of the last DELAY_REQ, ns -/
  reqStamp : Int := 0
  /-- receive stamp that the last DELAY_RESP reported and the time at which it arrived, ns, until the next DELAY_RESP
  reports its transmit stamp -/
  respStamps : Option (Int × Int) := none
  /-- packets discarded for a bad check code or the hop limit -/
  bad : Nat := 0
  deriving DecidableEq, Repr

/-- A member's token entry (Table 15-3). -/
structure ChainEntry where
  /-- identity -/
  id : Nat := 0
  /-- HOST -/
  host : Bool := false
  /-- compatibility level -/
  level : Nat := 0
  /-- serial number -/
  serial : Nat := 0
  deriving DecidableEq, Repr

/-- A command forwarded to another member that has not been answered (R94, R368). -/
structure Forwarded where
  /-- member -/
  dst : Nat := 0
  /-- session on this device, or 255 for a SESSION_OPEN -/
  sess : Nat := 0
  /-- tag -/
  tag : Nat := 0
  /-- source address and port of a SESSION_OPEN (R90) -/
  from_ : Option (Nat × Nat) := none
  deriving DecidableEq, Repr

/-- The ring as this device knows it. -/
structure ChainUnit where
  /-- west link -/
  west : ChainLink := {}
  /-- east link -/
  east : ChainLink := {}
  /-- members met going east, nearest first (R360) -/
  eastMembers : List ChainEntry := []
  /-- members met going west, nearest first -/
  westMembers : List ChainEntry := []
  /-- own eastbound token came back from the west -/
  ring : Bool := false
  /-- discovery has started since reset -/
  discovered : Bool := false
  /-- member mask of the latest LEADER -/
  mask : Nat := 0
  /-- leader of the latest LEADER -/
  leader : Nat := 0
  /-- form of the latest LEADER: 1 line -/
  form : Nat := 0
  /-- west end of the latest LEADER -/
  westEnd : Nat := 255
  /-- east end of the latest LEADER -/
  eastEnd : Nat := 255
  /-- highest chain epoch seen -/
  epoch : Nat := 0
  /-- forwarded commands in flight -/
  inFlight : List Forwarded := []
  /-- sequence numbers sent: TIME -/
  timeSeq : Nat := 0
  /-- sequence numbers sent: POSITION -/
  posSeq : Nat := 0
  /-- 1 + sequence of the last TIME accepted -/
  timeSeen : Nat := 0
  /-- 1 + sequence of the last POSITION accepted -/
  posSeen : Nat := 0
  /-- the first ring time has set both domains (R362) -/
  timeJoined : Bool := false
  /-- latest POSITION: web position -/
  pos : Int := 0
  /-- latest POSITION: speed, ticks/s -/
  posSpeed : Int := 0
  /-- latest POSITION: device time in ns -/
  posTime : Int := 0
  /-- latest POSITION: INTEGRITY -/
  posIntegrity : Bool := false
  /-- the highest web position given so far from POSITION (R363) -/
  posFloor : Int := 0
  /-- a POSITION has been received and has not timed out -/
  posLive : Bool := false
  /-- origins of POSITION: identity and the tick, plus 1, at which each was last heard -/
  origins : List (Nat × Nat) := []
  /-- bytes of the chain record staged from CONFIG (R364) -/
  record : List Byte := []
  /-- the chain record has been applied and the lanes raised (R364) -/
  raised : Bool := false
  deriving DecidableEq, Repr

/-! Record rings (R235). -/

/-- A record ring: 0 defect, 1 statistics. -/
structure RecRing where
  /-- placed by RECORD_RING_SET and not withdrawn -/
  placed : Bool := false
  /-- MSI-X vector -/
  vector : Nat := 0
  /-- host address -/
  addr : Nat := 0
  /-- size in units -/
  size : Nat := 0
  /-- producer index -/
  prod : Nat := 0
  /-- consumer index last read -/
  cons : Nat := 0
  /-- records dropped since device reset -/
  dropped : Nat := 0
  /-- number of the next record -/
  next : Nat := 0
  /-- records that wait, oldest first, at most 65,536 -/
  waiting : List (List Byte) := []
  /-- the ring has been full for 1 s and still is (C1) -/
  breached : Bool := false
  /-- an interrupt is deferred by COALESCE_US -/
  deferred : Bool := false
  /-- an interrupt was signalled within COALESCE_US -/
  coalescing : Bool := false
  deriving DecidableEq, Repr

/-! Web position, sensors, axes (chapter 11). -/

/-- A quadrature input (R256 to R265). -/
structure Enc where
  /-- count C_e of accepted steps -/
  c : Int := 0
  /-- accumulator of the scale, below DEN -/
  acc : Nat := 0
  /-- scaled position p_e in web ticks, signed 64 bits -/
  p : Int := 0
  /-- correction still to be spread; CORR_LEFT shows it (R262) -/
  corr : Int := 0
  /-- filtered level of A -/
  a : Bool := false
  /-- filtered level of B -/
  b : Bool := false
  /-- index reference I_ref -/
  iRef : Int := 0
  /-- furthest count in the flag's direction (R261) -/
  furthest : Int := 0
  /-- 1 + the tick of the last accepted step; 0 none (R263) -/
  lastStep : Nat := 0
  /-- ticks of the accepted steps since the last direction change or reference, newest first, at most 17 (R265) -/
  times : List Nat := []
  /-- tick and sign of the steps in the count-mode window (R265) -/
  window : List (Nat × Int) := []
  /-- v_e in web ticks per second (R265) -/
  speed : Int := 0
  /-- v_e as measured at the last accepted step (R258) -/
  stepSpeed : Int := 0
  deriving DecidableEq, Repr

/-- A serial sensor (R267 to R269). -/
structure Ssi where
  /-- consecutive failed words -/
  misses : Nat := 0
  /-- time stamp of the last word -/
  sec : Nat := 0
  /-- its nanoseconds -/
  ns : Nat := 0
  deriving DecidableEq, Repr

/-- The default microstep table of R272: round(4,095 x sin((2i + 1) x pi / 1,024)). -/
def microstepReset : List Nat :=
  [13, 38, 63, 88, 113, 138, 163, 188, 213, 239, 264, 289, 314, 339, 364, 389] ++
  [414, 439, 464, 489, 514, 539, 564, 588, 613, 638, 663, 688, 712, 737, 762, 787] ++
  [811, 836, 860, 885, 909, 934, 958, 983, 1007, 1032, 1056, 1080, 1104, 1128, 1153, 1177] ++
  [1201, 1225, 1249, 1273, 1296, 1320, 1344, 1368, 1391, 1415, 1439, 1462, 1485, 1509, 1532, 1555] ++
  [1579, 1602, 1625, 1648, 1671, 1694, 1717, 1739, 1762, 1785, 1807, 1830, 1852, 1875, 1897, 1919] ++
  [1941, 1964, 1986, 2007, 2029, 2051, 2073, 2094, 2116, 2137, 2159, 2180, 2201, 2223, 2244, 2265] ++
  [2285, 2306, 2327, 2348, 2368, 2389, 2409, 2429, 2449, 2470, 2490, 2509, 2529, 2549, 2569, 2588] ++
  [2608, 2627, 2646, 2665, 2684, 2703, 2722, 2741, 2759, 2778, 2796, 2815, 2833, 2851, 2869, 2887] ++
  [2904, 2922, 2940, 2957, 2974, 2992, 3009, 3026, 3043, 3059, 3076, 3093, 3109, 3125, 3141, 3157] ++
  [3173, 3189, 3205, 3221, 3236, 3251, 3267, 3282, 3297, 3311, 3326, 3341, 3355, 3370, 3384, 3398] ++
  [3412, 3426, 3439, 3453, 3466, 3480, 3493, 3506, 3519, 3532, 3544, 3557, 3569, 3581, 3594, 3606] ++
  [3617, 3629, 3641, 3652, 3663, 3675, 3686, 3696, 3707, 3718, 3728, 3739, 3749, 3759, 3769, 3778] ++
  [3788, 3798, 3807, 3816, 3825, 3834, 3843, 3851, 3860, 3868, 3876, 3884, 3892, 3900, 3908, 3915] ++
  [3922, 3929, 3936, 3943, 3950, 3957, 3963, 3969, 3975, 3981, 3987, 3993, 3998, 4004, 4009, 4014] ++
  [4019, 4023, 4028, 4033, 4037, 4041, 4045, 4049, 4053, 4056, 4059, 4063, 4066, 4069, 4071, 4074] ++
  [4076, 4079, 4081, 4083, 4085, 4087, 4088, 4089, 4091, 4092, 4093, 4093, 4094, 4095, 4095, 4095]

/-- A segment of a planned motion: constant jerk (R271). -/
structure AxisSeg where
  /-- length, ns -/
  dur : Nat := 0
  /-- speed at its start, microsteps/s -/
  v : Rat := 0
  /-- acceleration at its start, microsteps/s^2 -/
  a : Rat := 0
  /-- jerk, microsteps/s^3 -/
  j : Rat := 0
  /-- it belongs to the ramp down to rest -/
  brake : Bool := false
  deriving DecidableEq, Repr

/-- A motion under way: a move, or a stop ramp (R271, R276, R279). -/
structure AxisPlan where
  /-- 0 a move, 1 a stop on the planned ramp, 2 a stop on the emergency ramp -/
  kind : Nat := 0
  /-- position at the start, in 2^-32 microsteps -/
  start : Int := 0
  /-- where the last update places the axis exactly -/
  goal : Option Int := none
  /-- deceleration in force -/
  dec : Nat := 1
  /-- jerk in force -/
  jerk : Nat := 0
  /-- what is to be run from the start -/
  segs : List AxisSeg := []
  /-- updates made -/
  n : Nat := 0
  deriving DecidableEq, Repr

/-- A command that waits for an axis to stand. -/
structure AxisCmd where
  /-- session -/
  sess : Nat := 0
  /-- tag -/
  tag : Nat := 0
  deriving DecidableEq, Repr

/-- An axis (R270 to R282). -/
structure Axis where
  /-- acceleration, microsteps/s^2 -/
  acc : Nat := 1000000
  /-- deceleration -/
  dec : Nat := 1000000
  /-- jerk; 0 no limit -/
  jerk : Nat := 0
  /-- deferred acceleration, deceleration, jerk (R280) -/
  deferred : Option (Nat × Nat × Nat) := none
  /-- microstep table in force -/
  table : List Nat := microstepReset
  /-- microstep table that waits for an update at rest (R272) -/
  staged : Option (List Nat) := none
  /-- fraction of the position, in 2^-32 microsteps (R270) -/
  frac : Nat := 0
  /-- trajectory under way -/
  plan : Option AxisPlan := none
  /-- sequence number of the next coil frame, 8 bits -/
  seq : Nat := 0
  /-- standing for 100 ms: CUR_HOLD in force -/
  hold : Bool := false
  /-- AXIS_MOVE or AXIS_HOME under way -/
  cmd : Option AxisCmd := none
  /-- AXIS_STOP commands that wait -/
  stops : List AxisCmd := []
  /-- fault-log entry that ends the command under way with HW_FAULT -/
  fault : Option Nat := none
  /-- latched position once the home edge is accepted (R277) -/
  homeAt : Option Int := none
  /-- raw edges of HOME in this homing (R278) -/
  edges : Nat := 0
  /-- position latched at the last raw edge of HOME in this homing -/
  homeEdge : Option Int := none
  /-- what the accepted home edge shifted the counter by -/
  homeShift : Int := 0
  /-- position latched at the last raw edge of a limit switch -/
  limitEdge : Int := 0
  /-- FOLLOW: microsteps of the last input step, signed -/
  followTotal : Int := 0
  /-- FOLLOW: of those, issued so far -/
  followDone : Int := 0
  /-- FOLLOW: updates since the last input step -/
  followUpd : Nat := 0
  /-- FOLLOW: tick of the last input step, plus 1; 0 none -/
  followTick : Nat := 0
  /-- FOLLOW: period between the two previous input steps in ticks, at most 10 ms -/
  followPeriod : Nat := 0
  /-- FOLLOW was cleared and the last step is still being issued -/
  followEnd : Bool := false
  /-- an AXIS_ESTOP event's tag, while its stop runs -/
  estop : Option Nat := none
  deriving DecidableEq, Repr

/-- Encoders, sensors, axes and switches. -/
structure MotionUnit where
  /-- quadrature inputs -/
  encs : List (Nat × Enc) := []
  /-- serial sensors -/
  ssis : List (Nat × Ssi) := []
  /-- axes -/
  axes : List (Nat × Axis) := []
  /-- levels of the switch inputs as each axis has accepted them, by 32 x axis + input (R276) -/
  switches : List (Nat × Bool) := []
  /-- raw levels of the 32 switch inputs -/
  raw : List (Nat × Bool) := []
  deriving DecidableEq, Repr

/-! The job and its positions (chapters 05 to 07). -/

/-- The job's positions (R160, R161, R163). -/
structure PrintPos where
  /-- job offset O -/
  offset : Int := 0
  /-- high-water mark H -/
  high : Int := 0
  /-- P_p of the last PAUSE: lowest due position among the held frames -/
  paused : Int := 0
  /-- highest due position that was fired -/
  fired : Int := 0
  /-- a line has fired since ARM -/
  anyFired : Bool := false
  /-- changes of O with the device time in ns, newest first (R163) -/
  offsets : List (Int × Int) := []
  /-- for each bar the next frame whose line event is due with TICK_OFF 0 (producers 67 to 82) -/
  lineNext : List (Nat × Nat) := []
  deriving DecidableEq, Repr

/-! Check units and DMA (chapters 13 and 05). -/

/-- A check unit's parameters and running state (R324, R327), with the reset values that chapter 13 states. -/
structure Chk where
  /-- POLY without the leading 1 -/
  poly : Nat := 0x04C11DB7
  /-- INIT -/
  init : Nat := 0
  /-- XOROUT -/
  xorout : Nat := 0
  /-- EXPECT -/
  expect : Nat := 0
  /-- VALUE, the register itself -/
  value : Nat := 0
  /-- COUNT of bytes fed -/
  count : Nat := 0
  deriving DecidableEq, Repr

/-- A DMA channel (R109 to R116). -/
structure DmaChan where
  /-- host address of the descriptor to fetch next, or of the one in progress -/
  cur : Nat := 0
  /-- the descriptor in progress -/
  desc : Option (List Byte) := none
  /-- host address of the descriptor completed last -/
  last : Nat := 0
  /-- bytes of the descriptor in progress that have been delivered -/
  moved : Nat := 0
  /-- bytes of it that have been requested (R109) -/
  issued : Nat := 0
  /-- the chain ends once the requests already issued are done (R114, R116): end code, FAULT_OWN, STOPPED_BY_OTHER -/
  stop : Option (Nat × Bool × Bool) := none
  /-- flow context of kind DMA that holds the running check (R113, R131) -/
  ctx : Option Nat := none
  /-- value of the running check, in that context -/
  check : Nat := 0
  /-- chains ended on this channel -/
  chains : Nat := 0
  deriving DecidableEq, Repr

/-- A block staged for a segment: the byte offset of its data in the page segment, its OLEN, its data. -/
structure StagedBlock where
  /-- byte offset of the block header in the page segment -/
  off : Nat := 0
  /-- OLEN -/
  olen : Nat := 0
  /-- output left in the plane before it -/
  room : Nat := 0
  /-- data bytes -/
  data : List Byte := []
  deriving DecidableEq, Repr

/-- A segment of a page (R119, R123). -/
structure Segment where
  /-- plane number -/
  plane : Nat := 0
  /-- flow context of kind DECOMPRESS -/
  ctx : Nat := 0
  /-- TYPE: 1 DEFLATE -/
  type : Nat := 0
  /-- blocks that wait for a decompressor, in order -/
  staged : List StagedBlock := []
  /-- where its output begins in its plane -/
  base : Nat := 0
  /-- output bytes so far; they stand in the page store -/
  made : Nat := 0
  /-- the decompressor's history: the last 32 KiB of the output, while one serves the segment -/
  hist : List Byte := []
  /-- the RFC 1951 block with BFINAL has been decoded -/
  final : Bool := false
  /-- its last block has arrived -/
  closed : Bool := false
  /-- byte offset after the data of its last block so far -/
  endAt : Nat := 0
  /-- decompressor that serves it -/
  unit : Option Nat := none
  /-- bytes produced since its last assignment -/
  onUnit : Nat := 0
  /-- its last output byte is written and its context freed -/
  done : Bool := false
  deriving DecidableEq, Repr

/-- A plane of a page being ingested (Table 05-6). -/
structure PlaneIn where
  /-- BAR -/
  bar : Nat := 0
  /-- FORM -/
  form : Nat := 0
  /-- SIZE -/
  size : Nat := 0
  /-- BLOCKS -/
  blocks : Nat := 0
  /-- blocks seen -/
  seen : Nat := 0
  /-- sum of the OLEN values seen -/
  olen : Nat := 0
  /-- LAST_OF_PLANE has been seen -/
  last : Bool := false
  /-- units of the page store reserved for it, in order (R126) -/
  units : List Nat := []
  deriving DecidableEq, Repr

/-- A page ingest: one PAGE_SUBMIT whose start has begun (R118 to R127). -/
structure Ingest where
  /-- an ingest runs on the channel -/
  active : Bool := false
  /-- session of the PAGE_SUBMIT -/
  sess : Nat := 0
  /-- its tag -/
  tag : Nat := 0
  /-- page number -/
  page : Nat := 0
  /-- KPS page length -/
  len : Nat := 0
  /-- print queue entry -/
  entry : Nat := 0
  /-- 0 job header due, 1 page header due, 2 blocks or trailer due, 3 trailer seen -/
  stage : Nat := 0
  /-- bytes parsed -/
  pos : Nat := 0
  /-- bytes the chain has delivered -/
  got : Nat := 0
  /-- of those, the ones the parser has not taken -/
  buf : List Byte := []
  /-- the chain has ended with DONE -/
  ended : Bool := false
  /-- which 256 of the DECOMPRESS contexts it holds (R131) -/
  range : Nat := 0
  /-- KEEP -/
  keep : Bool := false
  /-- WIDTH -/
  width : Nat := 0
  /-- LINES -/
  lines : Nat := 0
  /-- XOFF -/
  xoff : Nat := 0
  /-- planes -/
  planes : List PlaneIn := []
  /-- segments in order of their first block -/
  segs : List Segment := []
  /-- page trailer -/
  trailer : Nat := 0
  deriving DecidableEq, Repr

/-- A stored plane (R126). -/
structure Plane where
  /-- BAR -/
  bar : Nat := 0
  /-- FORM -/
  form : Nat := 0
  /-- SIZE -/
  size : Nat := 0
  /-- units of the page store that hold its bytes, in order -/
  units : List Nat := []
  deriving DecidableEq, Repr

/-- A page in the page store (R126, R129). -/
structure Page where
  /-- handle, nonzero -/
  handle : Nat := 0
  /-- KEEP -/
  keep : Bool := false
  /-- WIDTH -/
  width : Nat := 0
  /-- LINES -/
  lines : Nat := 0
  /-- XOFF -/
  xoff : Nat := 0
  /-- planes -/
  planes : List Plane := []
  deriving DecidableEq, Repr

/-- A print queue entry (R128). -/
structure Entry where
  /-- number within the job, from 0 -/
  id : Nat := 0
  /-- page number of its PAGE_SUBMIT; none for a PAGE_REPEAT -/
  page : Option Nat := none
  /-- page-store handle; 0 while the page is not stored -/
  handle : Nat := 0
  /-- times it prints; 0 until STOP -/
  count : Nat := 1
  /-- its PAGE_SUBMIT failed -/
  failed : Bool := false
  deriving DecidableEq, Repr

/-- A PAGE_SUBMIT whose start waits (R127). -/
structure StartWait where
  /-- session -/
  sess : Nat := 0
  /-- tag -/
  tag : Nat := 0
  /-- page number -/
  page : Nat := 0
  /-- DMA channel -/
  ch : Nat := 0
  /-- KPS page length -/
  len : Nat := 0
  deriving DecidableEq, Repr

/-- The job, its print queue and the page store (R126 to R130). -/
structure JobUnit where
  /-- a job is open (JOB_OPEN, not yet ended); PLAT_STATE.JOB shows it -/
  active : Bool := false
  /-- job number -/
  num : Nat := 0
  /-- bar mask -/
  mask : Nat := 0
  /-- JOB_CLOSE has been given (R130) -/
  closed : Bool := false
  /-- entries in queue order -/
  entries : List Entry := []
  /-- number of the next entry -/
  nextEntry : Nat := 0
  /-- pages of the page store -/
  pages : List Page := []
  /-- handle given last -/
  handle : Nat := 0
  /-- PAGE_SUBMIT starts that wait, in acceptance order -/
  starts : List StartWait := []
  deriving DecidableEq, Repr

/-- A crop or other stream that waits for a compressor or is in one (R132, R237). -/
structure CropJob where
  /-- crop number -/
  crop : Nat := 0
  /-- header of its slot (R237) -/
  header : List Byte := []
  /-- input bytes -/
  data : List Byte := []
  deriving DecidableEq, Repr

/-- The ingest side: DMA, parser, decompressors, compressors. -/
structure IngestUnit where
  /-- the 64 channels -/
  chans : List (Nat × DmaChan) := []
  /-- page ingests by channel -/
  pages : List (Nat × Ingest) := []
  /-- output of each decompressor since its last assignment -/
  work : List (Nat × Nat) := []
  /-- a bus error whose chains have not all ended: kind and address (R116) -/
  halting : Option (Nat × Nat) := none
  /-- streams that wait for a compressor -/
  crops : List CropJob := []
  /-- the stream in each compressor with the level it started at (R134) -/
  streams : List (Nat × Option (CropJob × Nat)) := []
  /-- bytes into CMPR_IN not yet a whole KiB -/
  inRest : List (Nat × Nat) := []
  /-- bytes out of CMPR_OUT not yet a whole KiB -/
  outRest : List (Nat × Nat) := []
  deriving DecidableEq, Repr

/-! Dose expansion (chapter 06). -/

/-- An entry of a nozzle map (Table 06-2). -/
structure MapEntry where
  /-- FRAME_POS -/
  pos : Nat := 0
  /-- BOARD -/
  board : Nat := 0
  /-- ROW_OFF -/
  rowOff : Nat := 0
  /-- MODULE -/
  modul : Nat := 0
  /-- MASKED -/
  masked : Bool := false
  /-- ROW -/
  row : Nat := 0
  deriving DecidableEq, Repr

/-- A threshold array (Table 06-3). -/
structure Threshold where
  /-- W -/
  w : Nat := 1
  /-- H -/
  h : Nat := 1
  /-- DEPTH: 1 2BIT, 2 4BIT -/
  depth : Nat := 1
  /-- W x H x K thresholds, row by row, cell by cell -/
  thr : List Nat := []
  deriving DecidableEq, Repr

/-- A substitution table (Tables 06-3 to 06-5). -/
structure SubTable where
  /-- patterns of 60 entries: AMT and OFF -/
  pats : List (List (Nat × Nat)) := []
  /-- dead bar positions with their patterns, ascending -/
  dead : List (Nat × Nat) := []
  deriving DecidableEq, Repr

/-- A bank of tables (R145); what is absent keeps what is in force, or the value before any load (R144). -/
structure DoseBank where
  /-- threshold array -/
  thr : Option Threshold := none
  /-- tone curve -/
  curve : Option (List Nat) := none
  /-- gains -/
  gain : Option (List Nat) := none
  /-- substitution -/
  sub : Option SubTable := none
  deriving DecidableEq, Repr

/-- A slice that found no passing result in time (R151). -/
structure BadSlice where
  /-- image line -/
  line : Nat := 0
  /-- slice -/
  slice : Nat := 0
  /-- cause of DOSE_FAIL -/
  cause : Nat := 0
  /-- engine of the failed run -/
  engA : Nat := 0
  /-- second engine under DUAL -/
  engB : Nat := 0
  deriving DecidableEq, Repr

/-- A board's part of a frame, with its descriptor (Table 06-6). -/
structure BoardFrame where
  /-- payload (R141) -/
  payload : List Byte := []
  /-- CRC -/
  crc : Nat := 0
  /-- BLANK -/
  blank : Bool := false
  /-- GEN -/
  gen : Nat := 0
  deriving DecidableEq, Repr

/-- An entry of a bar's fate ring (R224). -/
structure FateRow where
  /-- P_F: the due position with TICK_OFF taken as 0 -/
  due : Option Int := none
  /-- fate of each board: 0 fired and confirmed, or a Table 07-4 code; and whether it is final -/
  boards : List (Nat × (Nat × Bool)) := []
  deriving DecidableEq, Repr

/-- An expanded image line that frames still need. -/
structure DoseLine where
  /-- image line -/
  line : Nat := 0
  /-- generation in force for it -/
  gen : Nat := 0
  /-- output doses by bar position -/
  doses : List Nat := []
  deriving DecidableEq, Repr

/-- A bar (R135 to R158). -/
structure Bar where
  /-- nozzle map in force -/
  map : List MapEntry := []
  /-- CRC-32C of its table -/
  mapCrc : Nat := 0
  /-- tables in force -/
  bank : DoseBank := {}
  /-- tables pending -/
  pend : DoseBank := {}
  /-- phase across the web in force -/
  phaseX : Nat := 0
  /-- phase along the web in force -/
  phaseY : Nat := 0
  /-- a phase is pending -/
  phasePend : Bool := false
  /-- generation -/
  gen : Nat := 0
  /-- L_swap of the last swap: the lines below it use the other bank (R146, R147) -/
  swapLine : Nat := 0
  /-- image line being expanded, or next -/
  line : Nat := 0
  /-- next slice of it -/
  slice : Nat := 0
  /-- screened doses of its slices so far -/
  screened : List Nat := []
  /-- slices without a passing result -/
  bad : List BadSlice := []
  /-- expanded lines, newest first, at most the largest ROW_OFF and one more -/
  lines : List DoseLine := []
  /-- number of the queue entry in progress -/
  entry : Nat := 0
  /-- prints of it completed -/
  rep : Nat := 0
  /-- line within the page -/
  pline : Nat := 0
  /-- lines of the page in progress -/
  total : Nat := 0
  /-- image lines at which prints began, oldest first (F0_k of R164) -/
  begins : List Nat := []
  /-- next frame to assemble: the frames below it are VALID -/
  frame : Nat := 0
  /-- frames read by reference rendering: those below it -/
  rendered : Nat := 0
  /-- fate ring, by frame -/
  fates : List (Nat × FateRow) := []
  /-- sheet mode: positions T_k of the sheets, with what RESUME added, oldest first -/
  sheets : List Int := []
  /-- reference ticks of the last line events, newest first, at most 17 (R173) -/
  ticks : List Nat := []
  /-- frames made VALID since the last Yo-yo interval (R179) -/
  made : Nat := 0
  deriving DecidableEq, Repr

/-! Firing (chapter 07). -/

/-- A decided frame of a board: its fate until its echo, and what was sent. -/
structure Decided where
  /-- frame -/
  frame : Nat := 0
  /-- 0 a normal SCHEDULE, else the cause of a safe line -/
  cause : Nat := 0
  /-- due position -/
  due : Int := 0
  /-- PCRC of the LINE sent; none where no LINE was sent -/
  crc : Option Nat := none
  /-- the strobe has risen, or the line is held idle -/
  strobed : Bool := false
  /-- its fate is settled -/
  sure : Bool := false
  /-- its echo has been processed or timed out, or none is due -/
  echo : Bool := false
  /-- sub-cause of Table 07-6 -/
  sub : Nat := 0
  /-- temperature of the triggering echo, 16 bits -/
  temp : Nat := 0
  /-- seconds at the decision -/
  sec : Nat := 0
  /-- nanoseconds -/
  ns : Nat := 0
  /-- active domain then (R29) -/
  dom : Nat := 0
  deriving DecidableEq, Repr

/-- A run of safe or unconfirmed lines (R182). -/
structure GapRun where
  /-- cause -/
  cause : Nat := 0
  /-- sub-cause -/
  sub : Nat := 0
  /-- due position of the first line -/
  first : Int := 0
  /-- due position of the last line -/
  last : Int := 0
  /-- first frame -/
  frame : Nat := 0
  /-- frame after the last line of the run -/
  next : Nat := 0
  /-- lines -/
  lines : Nat := 0
  /-- seconds at the first line -/
  sec : Nat := 0
  /-- nanoseconds -/
  ns : Nat := 0
  /-- active domain -/
  dom : Nat := 0
  /-- head temperature, 16 bits -/
  temp : Nat := 0
  /-- CONTINUES -/
  cont : Bool := false
  deriving DecidableEq, Repr

/-- A head board (R160 to R178). -/
structure Board where
  /-- the 64 bytes of its profile in force (Table 07-1) -/
  profile : Option (List Byte) := none
  /-- next frame to transmit -/
  tx : Nat := 0
  /-- next frame to decide -/
  dec : Nat := 0
  /-- frames decided that are not all settled, oldest first -/
  decided : List Decided := []
  /-- temperature of the echo that moved the board to HOT -/
  hotTemp : Nat := 0
  /-- frames whose LINE failed its CRC in every copy (SEQ_CRC) -/
  badCrc : List Nat := []
  /-- a HELLO waits for its reply -/
  hello : Bool := false
  /-- the fire line is high -/
  high : Bool := false
  /-- consecutive absent echoes -/
  misses : Nat := 0
  /-- consecutive echoes whose RAIL is not OK -/
  rails : Nat := 0
  /-- an echo has been received -/
  echoed : Bool := false
  /-- SAFE_LATCH was cleared and a fresh HELLO exchange is under way -/
  clearing : Bool := false
  /-- run of safe or unconfirmed lines -/
  gap : Option GapRun := none
  deriving DecidableEq, Repr

/-- A drop-gate test (R185). -/
structure GateTest where
  /-- session -/
  sess : Nat := 0
  /-- tag -/
  tag : Nat := 0
  /-- gate -/
  gate : Nat := 0
  /-- board -/
  board : Nat := 0
  /-- frame positions still to fire -/
  todo : List Nat := []
  /-- nozzles tested -/
  tested : Nat := 0
  /-- ABSENT -/
  absent : Nat := 0
  /-- LATE -/
  late : Nat := 0
  /-- WEAK -/
  weak : Nat := 0
  deriving DecidableEq, Repr

/-- The firing sequencers and the Yo-yo. -/
structure FireUnit where
  /-- the 48 boards -/
  boards : List (Nat × Board) := []
  /-- energy caps in force with the tick each was set at (R179) -/
  caps : List (Nat × Nat) := []
  /-- tick since which the Yo-yo has had no reason to lower (calm) -/
  calm : Nat := 0
  /-- sequence number of the next speed word (R180) -/
  seq : Nat := 0
  /-- line events of each bar since reset (R252) -/
  events : List (Nat × Nat) := []
  /-- the drop-gate test under way -/
  test : Option GateTest := none
  deriving DecidableEq, Repr

/-! The non-volatile die (chapter 16). -/

/-- A copy of a calibration record (Table 16-4); `content` is what its data hold. -/
structure CalCopy where
  /-- the check word verifies -/
  valid : Bool := false
  /-- count of calibrations -/
  count : Nat := 0
  /-- seconds of the last calibration -/
  sec : Nat := 0
  /-- nanoseconds -/
  ns : Nat := 0
  /-- domain -/
  dom : Nat := 0
  /-- sequence number -/
  seq : Nat := 0
  /-- what the data hold -/
  content : List Nat := []
  deriving DecidableEq, Repr

/-- The two copies of a record (R380). -/
structure CalPair where
  /-- copy A -/
  a : CalCopy := {}
  /-- copy B -/
  b : CalCopy := {}
  deriving DecidableEq, Repr

/-- The non-volatile die beside keys and fault log: calibration store and firmware slots. What the factory wrote is not
stated beyond its being there (DESIGN CHOICE): the factory record's count, time, sequence number and data are zero or
empty, slot A's image has no bytes, and its version and compatibility level are 0. -/
structure NvcUnit where
  /-- records by 256 x kind + instance; the factory record is there from the factory (R380) -/
  cal : List (Nat × CalPair) := [(256, { a := { valid := true }, b := { valid := true } })]
  /-- record writes so far -/
  writes : Nat := 0
  /-- image in slot A -/
  imageA : List Byte := []
  /-- image in slot B -/
  imageB : List Byte := []
  deriving DecidableEq, Repr

/-! Capture (chapter 08). -/

/-- A trigger of an inspection line (R192), with what the line tag takes from it (R193). -/
structure Trig where
  /-- number since ENABLE -/
  k : Nat := 0
  /-- web position, ticks -/
  pos : Int := 0
  /-- seconds -/
  sec : Nat := 0
  /-- nanoseconds -/
  ns : Nat := 0
  /-- active domain -/
  dom : Nat := 0
  /-- position integrity was clear -/
  suspect : Bool := false
  /-- web speed, ticks/s -/
  speed : Int := 0
  deriving DecidableEq, Repr

/-- A port line (R190): its samples aligned to 12 bits, padded and cut to its length. -/
structure PortLine where
  /-- its trigger, or the moment of its LSYNC rise in free run -/
  trig : Trig := {}
  /-- samples -/
  samples : List Nat := []
  /-- 1 SHORT_LINE, 2 LONG_LINE -/
  flags : Nat := 0
  deriving DecidableEq, Repr

/-- An inspection line with its tag (Table 08-2): raw colour rows in the capture buffer, 3 x W values once the
pipeline has corrected it. -/
structure CapLine where
  /-- trigger -/
  trig : Trig := {}
  /-- frame number -/
  frame : Nat := 0
  /-- line within the frame -/
  row : Nat := 0
  /-- settings identifier -/
  setId : Nat := 0
  /-- flat generation -/
  gen : Nat := 0
  /-- byte 27 of the tag -/
  flags : Nat := 0
  /-- colour rows, or the corrected pixels as one row -/
  rows : List (List Nat) := []
  /-- its place in the capture buffer -/
  place : Nat := 0
  /-- a word of it was uncorrectable (Table 13-5) -/
  lost : Bool := false
  deriving DecidableEq, Repr

/-- A block of qualifying samples of one column and colour row (R208). -/
structure PaperBlock where
  /-- values of u, newest first -/
  vals : List Int := []
  deriving DecidableEq, Repr

/-- The tables that correct a frame (R206 to R213). -/
structure FlatSet where
  /-- dark levels by 16,384 x row + column; an absent entry is 0 -/
  dark : List (Nat × Nat) := []
  /-- dark defects -/
  darkDef : List Nat := []
  /-- flat gains by 16,384 x row + column; an absent entry is 16,384 -/
  gain : List (Nat × Nat) := []
  /-- gain defects -/
  gainDef : List Nat := []
  deriving DecidableEq, Repr

/-- A compared pixel (R228 to R231). -/
structure CmpPix where
  /-- grid column -/
  g : Nat := 0
  /-- observed R, G, B -/
  obs : List Nat := []
  /-- expected R, G, B -/
  exp : List Nat := []
  /-- UNSURE -/
  unsure : Bool := false
  /-- box value of each input of the model, at the offsets in force -/
  boxes : List Nat := []
  /-- d -/
  d : Nat := 0
  /-- class -/
  cls : Nat := 0
  deriving DecidableEq, Repr

/-- The compared pixels of one port in one grid line. -/
structure CmpRow where
  /-- grid line -/
  m : Int := 0
  /-- pixels -/
  pix : List CmpPix := []
  deriving DecidableEq, Repr

/-- The rendering and class tables a port uses (R227, R231). -/
structure RenderSet where
  /-- bars of inputs 0 to 3 and 3 x 83,521 node values; empty without a model -/
  model : List Nat := []
  /-- coverage by bar: XS_b, then 16 coverages -/
  cover : List (Nat × List Int) := []
  /-- blur by bar: 25 values -/
  blur : List (Nat × List Nat) := []
  /-- classes: 3 weights, then T, A and CROP of each class -/
  cls : List Nat := [256, 256, 256, 400, 4, 0, 800, 2, 0, 1600, 1, 1, 3200, 1, 1]
  /-- generation of each table taken, by 256 x kind + instance -/
  gens : List (Nat × Nat) := []
  deriving DecidableEq, Repr

/-- A frame of a port (R190, R195, R238). -/
structure CamFrame where
  /-- number -/
  num : Nat := 0
  /-- settings identifier -/
  setId : Nat := 0
  /-- SETTINGS_UNSURE (R200) -/
  unsure : Bool := false
  /-- OVERLENGTH -/
  overlong : Bool := false
  /-- PARTIAL -/
  short : Bool := false
  /-- closed -/
  closed : Bool := false
  /-- statistics written, or none due -/
  done : Bool := false
  /-- flat generation -/
  gen : Nat := 0
  /-- corrections in force -/
  flat : FlatSet := {}
  /-- parameter set in force -/
  params : List Nat := []
  /-- rendering tables in force -/
  render : RenderSet := {}
  /-- render generation -/
  rgen : Nat := 0
  /-- render tables changed at this frame -/
  changed : Bool := false
  /-- correlation offset in force -/
  dx : Int := 0
  /-- its lines -/
  dy : Int := 0
  /-- first and last grid line -/
  first : Option Int := none
  /-- last grid line -/
  last : Int := 0
  /-- INCOMPLETE lines -/
  incomplete : Nat := 0
  /-- compared rows, newest first -/
  rows : List CmpRow := []
  /-- records made by class 1 to 4 -/
  made : List Nat := [0, 0, 0, 0]
  /-- correlation sums by 17 x (dy + 8) + dx + 8 -/
  corr : List Nat := []
  /-- the frame has been scored (R230) -/
  scored : Bool := false
  /-- lowest generation of the print lines seen, by bar -/
  gens : List (Nat × Nat) := []
  /-- KIND, CFA and EDGE_K as the frame opened -/
  kind : Bool := false
  cfa : Nat := 0
  edgeK : Nat := 0
  deriving DecidableEq, Repr

/-- A control-channel transfer (R198 to R201). -/
structure CamXfer where
  /-- a CAMERA_SET, else a SENSOR_XFER -/
  settings : Bool := true
  /-- session -/
  sess : Nat := 0
  /-- tag -/
  tag : Nat := 0
  /-- settings identifier -/
  ident : Nat := 0
  /-- bytes out -/
  bytes : List Byte := []
  /-- CS_N is low -/
  started : Bool := false
  /-- FSYNC rose while CS_N was low -/
  crossed : Bool := false
  deriving DecidableEq, Repr

/-- A dark or paper run (R207, R209). -/
structure CalJob where
  /-- kind: 0x20 or 0x21 -/
  kind : Nat := 0
  /-- session -/
  sess : Nat := 0
  /-- tag -/
  tag : Nat := 0
  /-- lines taken -/
  n : Nat := 0
  /-- lines of values, rows in turn, newest first: r12 (dark) or u (paper) -/
  lines : List (List (List Int)) := []
  deriving DecidableEq, Repr

/-- A grid line of a port (R217 to R219). -/
structure GridLine where
  /-- m -/
  m : Int := 0
  /-- source line -/
  trig : Trig := {}
  /-- frame number of the source line -/
  frame : Nat := 0
  /-- settings identifier -/
  setId : Nat := 0
  /-- flat generation -/
  gen : Nat := 0
  /-- OR of the flags of the window -/
  flags : Nat := 0
  /-- INCOMPLETE -/
  hole : Bool := false
  /-- 3 x COLS values -/
  pix : List Nat := []
  /-- the device line has been compared -/
  done : Bool := false
  deriving DecidableEq, Repr

/-- The values of a port's parameter set before any write (Table 08-5). -/
def kalReset : List Nat :=
  [4096, 0, 4096, 0, 4096, 0, 0, 0xFFFF, 0x0E100E10, 3600, 0x80200408, 400, 0, 0, 0, 0]

/-- The values of a port's resampling set before any write (Table 09-1). -/
def rsmpReset : List Nat := [0, 0, 0x01000000, 0, 0, 0, 0, 0, 0, 0, 0, 0, 0, 0, 0, 0]

/-- A camera port (chapters 08 and 09). -/
structure Cam where
  /-- FSYNC is high as far as frames go -/
  fsync : Bool := false
  /-- number of the next frame, 32 bits (R195) -/
  nextFrame : Nat := 0
  /-- T_0 of R192 -/
  t0 : Int := 0
  /-- highest web position since ENABLE -/
  high : Int := 0
  /-- triggers so far -/
  trigs : Nat := 0
  /-- triggers whose port lines have not all begun, oldest first -/
  waiting : List Trig := []
  /-- port lines begun since ENABLE -/
  plines : Nat := 0
  /-- the last 32 port lines, newest first (R191) -/
  history : List PortLine := []
  /-- row A of a bilinear pair -/
  rowA : Option PortLine := none
  /-- inspection lines of the open frame so far -/
  lines : Nat := 0
  /-- frames, newest first -/
  frames : List CamFrame := []
  /-- the capture buffer, oldest first (R197) -/
  buf : List CapLine := []
  /-- lines written to it so far -/
  written : Nat := 0
  /-- columns of the oldest line already processed (R203) -/
  col : Nat := 0
  /-- the settings transfer that waits or runs -/
  xfer : Option CamXfer := none
  /-- settings identifier in force -/
  setId : Nat := 0
  /-- identifiers to come: first frame, identifier -/
  setNext : List (Nat × Nat) := []
  /-- frames to be marked SETTINGS_UNSURE -/
  unsure : List Nat := []
  /-- staged parameter set (R213) -/
  staged : List Nat := kalReset
  /-- parameter set in force -/
  params : List Nat := kalReset
  /-- the staged set is pending -/
  pend : Bool := false
  /-- corrections in force -/
  flat : FlatSet := {}
  /-- corrections for the next frame -/
  flatNext : Option FlatSet := none
  /-- the next set is a new gain set -/
  gainNext : Bool := false
  /-- flat generation -/
  gen : Nat := 0
  /-- frames since the last gain set -/
  since : Nat := 0
  /-- paper levels by 16,384 x row + column; an absent entry is that of its colour in paperDef -/
  paper : List (Nat × Nat) := []
  /-- paper level of an absent entry by colour: 16 x TARGET at ENABLE (R206) -/
  paperDef : List Nat := [57600, 57600, 57600]
  /-- entries whose level changed since the last gain set -/
  moved : List Nat := []
  /-- a level changed since the store was written -/
  paperDirty : Bool := false
  /-- blocks by 16,384 x row + column (R208) -/
  blocks : List (Nat × PaperBlock) := []
  /-- run under way -/
  run : Option CalJob := none
  /-- staged resampling set (R216) -/
  rsStaged : List Nat := rsmpReset
  /-- resampling set in force -/
  rs : List Nat := rsmpReset
  /-- the staged resampling set is pending -/
  rsPend : Bool := false
  /-- tag position of input line 0 -/
  base : Option Int := none
  /-- corrected input lines with their index, oldest first -/
  input : List (Int × CapLine) := []
  /-- speed at the trigger of the last input line -/
  speed : Int := 0
  /-- highest index received, plus 1 -/
  seen : Int := 0
  /-- next grid line, once the first is known -/
  nextM : Option Int := none
  /-- grid lines, newest first -/
  grid : List GridLine := []
  /-- rendering tables in force -/
  render : RenderSet := {}
  /-- correlation offsets in force -/
  dx : Int := 0
  /-- lines -/
  dy : Int := 0
  /-- frames since the offset changed (JIG_CORR.HELD) -/
  held : Nat := 0
  deriving DecidableEq, Repr

/-- A capture pipeline (R203). -/
structure Pipe where
  /-- slot served last, plus 1; 0 none -/
  last : Nat := 0
  /-- input samples not yet a whole 2^20 -/
  rest : Nat := 0
  deriving DecidableEq, Repr

/-- A resampler's coefficients (R219 to R221): empty lists are linear interpolation. -/
structure Rsmp where
  /-- bank in force, 64 x 16 -/
  coef : List Int := []
  /-- committed bank -/
  next : List Int := []
  deriving DecidableEq, Repr

/-- The cameras, pipelines and resamplers. -/
structure CaptureUnit where
  /-- the 24 ports -/
  cams : List (Nat × Cam) := []
  /-- the 8 pipelines -/
  pipes : List (Nat × Pipe) := []
  /-- the 8 resamplers -/
  rsmps : List (Nat × Rsmp) := []
  deriving DecidableEq, Repr

/-! Inspection (chapter 09). -/

/-- A measured overlap (R223). -/
structure Overlap where
  /-- 1/16 column -/
  dx : Int := 0
  /-- lines -/
  dy : Int := 0
  /-- frames since measured -/
  age : Nat := 0
  deriving DecidableEq, Repr

/-- A component being followed (R232, R233). -/
structure Comp where
  /-- component number -/
  num : Nat := 0
  /-- port -/
  port : Nat := 0
  /-- line of the first pixel -/
  m0 : Int := 0
  /-- column of the first pixel -/
  g0 : Nat := 0
  /-- largest class -/
  cls : Nat := 0
  /-- area of all pieces -/
  area : Nat := 0
  /-- a piece has been cut -/
  linked : Bool := false
  /-- first line of the piece -/
  first : Int := 0
  /-- last line of the piece -/
  last : Int := 0
  /-- bounding box of the piece: first column -/
  left : Nat := 0
  /-- last column -/
  right : Nat := 0
  /-- area of the piece -/
  part : Nat := 0
  /-- class of the piece's pixels -/
  peak : Nat := 0
  /-- column of the peak -/
  peakCol : Nat := 0
  /-- an UNSURE pixel -/
  unsure : Bool := false
  /-- a source line with POS_SUSPECT -/
  suspect : Bool := false
  /-- the piece touches an INCOMPLETE region -/
  edge : Bool := false
  /-- columns on the last line -/
  cols : List Nat := []
  /-- tag of the piece's first line -/
  trig : Trig := {}
  /-- frame of the piece's first line -/
  frame : Nat := 0
  /-- settings identifier of that frame -/
  setId : Nat := 0
  deriving DecidableEq, Repr

/-- A crop whose lines have not all been compared (R237). -/
structure CropWait where
  /-- crop number -/
  crop : Nat := 0
  /-- component number -/
  comp : Nat := 0
  /-- port of the component -/
  port : Nat := 0
  /-- first line -/
  top : Int := 0
  /-- lines -/
  height : Nat := 0
  /-- first column -/
  left : Nat := 0
  /-- columns -/
  width : Nat := 0
  deriving DecidableEq, Repr

/-- A committed rendering table (R227): its bytes' content and generation. -/
structure RenderTab where
  /-- content -/
  data : List Int := []
  /-- generation: commits so far -/
  gen : Nat := 0
  /-- the newest generation that some port has taken -/
  taken : Nat := 0
  deriving DecidableEq, Repr

/-- Jigsaw, comparison and records. -/
structure InspectUnit where
  /-- committed tables by 256 x kind + instance: kind 2 model, 3 coverage, 4 blur, 6 classes -/
  tabs : List (Nat × RenderTab) := []
  /-- overlaps -/
  overs : List (Nat × Overlap) := []
  /-- the line after the device line compared last -/
  nextM : Option Int := none
  /-- observed device lines kept for crops: line and pixels by column, newest first -/
  image : List (Int × List (Nat × List Nat)) := []
  /-- ports that marked the last compared device line INCOMPLETE -/
  holes : List Nat := []
  /-- open components, oldest first -/
  comps : List Comp := []
  /-- crops whose lines are not all compared, oldest first -/
  cropWait : List CropWait := []
  /-- components so far -/
  compNum : Nat := 0
  /-- 10 ms window in which records were last made -/
  window : Nat := 0
  /-- records made in it -/
  windowMade : Nat := 0
  /-- crops so far -/
  crop : Nat := 0
  /-- statistics blocks so far -/
  block : Nat := 0
  deriving DecidableEq, Repr

/-! The nozzle health loop (chapter 10). -/

/-- A health entry (Table 10-1). -/
structure NozEntry where
  /-- STATE -/
  state : Nat := 0
  /-- CONF -/
  conf : Nat := 0
  /-- TRIM -/
  trim : Int := 0
  /-- SOURCE -/
  source : Nat := 4
  /-- AT_LIMIT -/
  atLimit : Bool := false
  /-- HOLD -/
  hold : Bool := false
  /-- GEN -/
  gen : Nat := 0
  deriving DecidableEq, Repr

/-- A finding (R243). -/
structure Finding where
  /-- 0 image, 1 gate, 2 operator -/
  source : Nat := 0
  /-- bar -/
  bar : Nat := 0
  /-- bar position; of an image finding at BX = 2 the lower of the pair -/
  at_ : Int := 0
  /-- an image finding at BX = 2 -/
  pair : Bool := false
  /-- gate class of R186: 0 PRESENT, 1 ABSENT, 2 LATE, 3 WEAK; or the operator's state -/
  cls : Nat := 0
  /-- operator's hold -/
  hold : Bool := false
  /-- deficit of the column -/
  d : Int := 0
  /-- deficit of the column before, 0 without evidence -/
  dPrev : Int := 0
  /-- deficit of the column after -/
  dNext : Int := 0
  /-- lowest generation of the frame's print lines -/
  gen : Nat := 0
  /-- port -/
  port : Nat := 0
  /-- frame -/
  frame : Nat := 0
  /-- gpos of the frame's last line -/
  gpos : Int := 0
  /-- line events of the bar at the frame's close -/
  lines : Nat := 0
  /-- session of an operator finding -/
  sess : Nat := 0
  /-- its tag -/
  tag : Nat := 0
  deriving DecidableEq, Repr

/-- A bar under the loop (R250, R251). -/
structure LoopBar where
  /-- base gains; none the value before any load -/
  gain : Option (List Nat) := none
  /-- base substitution table -/
  sub : SubTable := {}
  /-- changed bar positions that the next swap carries -/
  changed : List Nat := []
  /-- line events at the close of the frame behind the oldest of them -/
  since : Option Nat := none
  /-- that oldest has been reported late -/
  late : Bool := false
  /-- changed bar positions that the staged or pending swap carries -/
  staged : List Nat := []
  /-- NOZZLE_STATE_SET commands that the next swap completes -/
  asks : List (Nat × Nat) := []
  /-- NOZZLE_STATE_SET commands that the staged swap completes -/
  swapAsks : List (Nat × Nat) := []
  deriving DecidableEq, Repr

/-- The loop. -/
structure NozzleUnit where
  /-- health entries by 65,536 x bar + position -/
  health : List (Nat × NozEntry) := []
  /-- bars with a change since their record was written -/
  dirty : List (Nat × Bool) := []
  /-- findings in order of arrival -/
  queue : List Finding := []
  /-- bars -/
  bars : List (Nat × LoopBar) := []
  deriving DecidableEq, Repr

/-! Spare engines, supervisor pairs, firmware (chapter 16). -/

/-- A cluster (R10, R374, R375). -/
structure Cluster where
  /-- physical engine in the spare role; 31 none -/
  spare : Nat := 16
  /-- physical engine of a slot, where it is not the slot's number -/
  slots : List (Nat × Nat) := []
  /-- failed physical engines, in order -/
  failed : List Nat := []
  /-- vacant slots, in order -/
  vacant : List Nat := []
  /-- takeovers, saturating at 255 -/
  takeovers : Nat := 0
  /-- some slot holds the kernels of another image -/
  oldKernel : Bool := false
  deriving DecidableEq, Repr

/-- A FW_SWITCH under way (Table 16-3). -/
structure FwSwitch where
  /-- session -/
  sess : Nat := 0
  /-- tag -/
  tag : Nat := 0
  deriving DecidableEq, Repr

/-- The assignment at reset: that of Table 01-5 (DESIGN CHOICE; no reset value is stated). 0 PRINT, 1 INSPECT, 2 FREE. -/
def halvesReset : List Nat :=
  (List.range 4).flatMap fun _ => [0, 0, 0, 0, 1, 1, 1, 2]

/-- Spares, pairs and firmware. -/
structure SpareUnit where
  /-- the 16 clusters -/
  clusters : List (Nat × Cluster) := []
  /-- engines reported to the spare controller and not yet taken over (R151) -/
  reports : List Nat := []
  /-- engines in DOZE, by logical number -/
  dozing : List (Nat × Bool) := []
  /-- the half cluster last powered up, and the tick (R398) -/
  powered : Option (Nat × Nat) := none
  /-- half-cluster assignment, half cluster 2 c for the lower half of cluster c (R24) -/
  halves : List Nat := halvesReset
  /-- switch under way -/
  switch : Option FwSwitch := none
  /-- the faulted pair is being tested -/
  testing : Bool := false
  /-- tick at which the active pair faulted whose takeover is in progress (R376) -/
  faultedAt : Nat := 0
  deriving DecidableEq, Repr

/-! Supply and power states (chapter 17). -/

/-- Supply, DEEP entry and wake, and the management port. -/
structure PwrUnit where
  /-- shut down by R389 with this cause, latched from VIN; none while the device has its regulators -/
  off : Option Nat := none
  /-- the reverse-blocking switch is open (R391) -/
  blocked : Bool := false
  /-- byte offset that the management port reads next (R410) -/
  mgmt : Nat := 0
  /-- session and tag of the SLEEP under way (R399) -/
  sleeper : Option (Nat × Nat) := none
  /-- session and tag of the WAKE under way (R401) -/
  waker : Option (Nat × Nat) := none
  /-- wake source that came during entry, as LAST_WAKE codes it; 0 none (R402) -/
  wakeDue : Nat := 0
  /-- tick at which the present or last wake started (PWR_WAKE_T) -/
  wakeAt : Nat := 0
  /-- a fault of the active supervisor pair waits for the wake (R401) -/
  owed : Bool := false
  /-- writes to powered-down blocks that were accepted in DEEP, oldest first (R107) -/
  later : List RegEntry := []
  /-- ticks spent in DEEP by sleeps that have ended (PWR_DEEP_S) -/
  deep : Nat := 0
  /-- VCORE has been measured since the core regulator came up (R38) -/
  metered : Bool := false
  /-- VCORE is below 0.66 V since VCORE_LOW (R42) -/
  vlow : Bool := false
  deriving DecidableEq, Repr

end Sys2Proof.Machine
end

