-- ==== Sys2Proof/Machine/State.lean ====
section
/-!
DEFINITION. The state of the block, its reasons to stop, and the state after reset.
-/
namespace Sys2Proof.Machine

/-- What leaves the device, in order (the model's own record of its pins, links and host writes). -/
inductive Out where
  /-- A command packet of ring `ring` read at a host address (R96). -/
  | ringRead (ring addr : Nat)
  /-- A reply packet or pad entry written into reply ring `ring` at a host address (R95, R96). -/
  | ringReply (ring addr : Nat) (bytes : List Byte)
  /-- The 64-byte status block of a ring written at its host address (R96). -/
  | statusBlock (ring addr : Nat) (bytes : List Byte)
  /-- A reply datagram (R89): the port it leaves by, the next hop (R350), the address and UDP port it goes to. -/
  | datagram (eth hop ip port : Nat) (bytes : List Byte)
  /-- An MSI-X message (R344). -/
  | msix (vector : Nat)
  /-- A PCIe read that a DMA channel requests: the channel's bridge port, its arbiter input, host address, bytes (R109). -/
  | hostRead (port input addr n : Nat)
  /-- A write to host memory. -/
  | hostWrite (addr : Nat) (bytes : List Byte)
  /-- A DMA data write to host memory, of at most 512 bytes: with Relaxed Ordering, and poisoned (R345). -/
  | dmaWrite (addr : Nat) (bytes : List Byte) (relaxed poisoned : Bool)
  /-- A Heruf-H packet to a board on a lane (Table 07-3), and the blocks that carry it (R331, R333). -/
  | headPacket (board lane : Nat) (bytes : List Byte) (blocks : List (BitVec 66))
  /-- A fire line driven active or idle (R162). -/
  | fireLine (board : Nat) (active : Bool)
  /-- A word of the speed request (R180). -/
  | speedWord (levels : List (Bool × Nat))
  /-- What a kernel's engine is told of a lock it asked for or released: a status of Table 04-4 (R73, R75). -/
  | engineLock (engine lock status : Nat)
  /-- A camera trigger pulse of `width` (R192). -/
  | cameraTrigger (port width : Nat)
  /-- A sensor bus transfer (R198, R201). -/
  | sensorBus (port : Nat) (bytes : List Byte)
  /-- A 48-bit coil frame of an axis (R272). -/
  | coilFrame (axis : Nat) (bytes : List Byte)
  /-- Step pulses of an axis, signed, each `width` x 100 ns (R273). -/
  | axisSteps (axis : Nat) (steps : Int) (width : Nat)
  /-- The enable output of an axis (R273, R279). -/
  | axisEnable (axis : Nat) (active : Bool)
  /-- A serial sensor's clock driven for a number of cycles at 250 MHz / (2 x (divider + 1)) (R267). -/
  | ssiClock (unit cycles divider : Nat)
  /-- An event pin's pulse (R301). -/
  | pinPulse (pin ticks : Nat) (low : Bool)
  /-- A PTP message or ring time message sent. -/
  | ptp (port kind : Nat)
  /-- An Ethernet answer of a port to an address, by its next hop: 0 ARP, 1 ICMP echo (R350). -/
  | ethAnswer (port hop ip kind : Nat)
  /-- A Heruf-C packet sent west (true) or east, and the blocks that each lane of the link carries of it (R342). -/
  | chain (west : Bool) (bytes : List Byte) (lanes : List (Nat × List (BitVec 66)))
  /-- A LINK block on a lane (Table 14-2). -/
  | laneWord (lane kind code : Nat) (blocks : List (BitVec 66))
  /-- IDLE blocks on a lane. -/
  | laneIdle (lane : Nat) (blocks : List (BitVec 66))
  /-- A fault the endpoint reports over PCIe (R345, R346). -/
  | aer (kind : Nat)
  /-- Bytes that the management port returns (R410). -/
  | mgmt (bytes : List Byte)
  /-- The value that a BAR0 read returns (R101). -/
  | bar0Read (addr : Nat) (value : Word)
  deriving DecidableEq, Repr

/-- The state of the block. -/
structure State where
  /-- commands that wait, first in first out -/
  pending : List Instr
  /-- the 2,712 registers; an address not listed reads its reset value -/
  regs : List (Nat × Word) := []
  /-- device memory; an address not listed reads 0 -/
  mem : List Host.Cell := []
  /-- channels, codes, scrubber -/
  dram : DramUnit := {}
  /-- reference ticks of 4 ns since power-on -/
  now : Nat := 0
  /-- tick at which the present device state was entered (PLAT_IN_STATE) -/
  stateSince : Nat := 0
  /-- MODEL: the number of free values taken -/
  fresh : Nat := 0
  /-- MODEL: everything that has left the device, oldest first -/
  outbox : List Out := []
  /-- sessions, rings, queues -/
  cmd : CmdUnit := {}
  /-- fault log -/
  log : LogUnit := {}
  /-- the 64 locks -/
  locks : List (Nat × LockX) := []
  /-- arbiters by 2 x number + network (R51) -/
  arbs : List (Nat × Arb) := []
  /-- event matrix -/
  evt : EvtUnit := {}
  /-- time domains -/
  time : TimeUnit := {}
  /-- MSI-X vectors -/
  msix : MsixUnit := {}
  /-- encoders, sensors, axes, switches -/
  motion : MotionUnit := {}
  /-- the job's positions -/
  ppos : PrintPos := {}
  /-- monitor units 0 to 63 -/
  mons : List (Nat × Mon) := []
  /-- Heruf lanes -/
  lanes : LaneUnit := {}
  /-- chain -/
  chain : ChainUnit := {}
  /-- record rings: 0 defect, 1 statistics -/
  rings : List (Nat × RecRing) := []
  /-- H, the size of the HOST region in units of 2 MiB (R306) -/
  hostSize : Nat := 0
  /-- check units -/
  chk : List (Nat × Chk) := []
  /-- DMA, parser, decompressors, compressors -/
  ingest : IngestUnit := {}
  /-- job, print queue, page store -/
  job : JobUnit := {}
  /-- the 16 bars -/
  bars : List (Nat × Bar) := []
  /-- firing sequencers and Yo-yo -/
  fire : FireUnit := {}
  /-- calibration store and firmware slots -/
  nvc : NvcUnit := {}
  /-- cameras, pipelines, resamplers -/
  eye : CaptureUnit := {}
  /-- Jigsaw and comparison -/
  insp : InspectUnit := {}
  /-- nozzle health loop -/
  noz : NozzleUnit := {}
  /-- spare engines, supervisor pairs, firmware -/
  spare : SpareUnit := {}
  /-- the latched _HI halves by address, those of BAR0 from 2^24 on (R418) -/
  latches : List (Nat × Option Word) := []
  /-- supply, sleep and wake, management port -/
  pwr : PwrUnit := {}
  deriving DecidableEq, Repr

/-- Why a run stops with a fault. No rule of the spec stops this block: none is raised. -/
inductive Fault where
  /-- Raised by nobody; the type may not be empty of names. Safe. -/
  | none
  deriving DecidableEq, Repr

/-- Why a command has no meaning. -/
inductive Refusal where
  /-- Raised by an arm of Dispatch whose meaning is not written yet. Safe. -/
  | notModelled (mnemonic : String)
  deriving DecidableEq, Repr

/-- The outcome of one command. -/
abbrev Result := Host.Outcome State Fault Refusal

/-- The block right after reset: BOOTING (R106), every register at its Reset column (R420), nothing waiting. -/
def State.reset : State := { pending := [] }

end Sys2Proof.Machine
end

