-- ==== Sys2Proof/Machine/Ops.lean ====
section
/-!
DEFINITION. The operations every meaning is built from: registers and fields, device time, the fault log, events,
conditions, interrupts, replies, and the way a command comes to run (Table 04-3, steps 12 to 15).
-/
namespace Sys2Proof.Machine

/-! Registers and fields. -/

/-- The word of the register at a parameter address. -/
def State.reg (s : State) (a : Nat) : Word := regGet s.regs a

/-- The register's word replaced. -/
def State.setReg (s : State) (a : Nat) (w : Word) : State := { s with regs := regPut s.regs a w }

/-- A field's value. -/
def State.fld (s : State) (f : Fld) : Nat := wordBits (s.reg f.addr) f.hi f.lo

/-- A one-bit field, or whether a field is not 0. -/
def State.flag (s : State) (f : Fld) : Bool := s.fld f != 0

/-- The width of a field. -/
def Fld.width (f : Fld) : Nat := f.hi + 1 - f.lo

/-- A field's value read as two's complement. -/
def State.fldI (s : State) (f : Fld) : Int := signedOf f.width (s.fld f)

/-- A field replaced. -/
def State.setFld (s : State) (f : Fld) (v : Nat) : State :=
  s.setReg f.addr (setWordBits (s.reg f.addr) f.hi f.lo v)

/-- A one-bit field set or cleared. -/
def State.setFlag (s : State) (f : Fld) (b : Bool) : State := s.setFld f (b2n b)

/-- A field given the two's complement pattern of an integer. -/
def State.setFldI (s : State) (f : Fld) (x : Int) : State := s.setFld f (unsignedOf f.width x)

/-- A count raised by `n`, saturating at the field's greatest value. -/
def State.bump (s : State) (f : Fld) (n : Nat := 1) : State :=
  s.setFld f (min (s.fld f + n) (2 ^ f.width - 1))

/-- A count raised by `n`, wrapping at the field's width. -/
def State.bumpWrap (s : State) (f : Fld) (n : Nat := 1) : State := s.setFld f ((s.fld f + n) % 2 ^ f.width)

/-- Something leaves the device. -/
def State.emit (s : State) (o : Out) : State := { s with outbox := s.outbox ++ [o] }

/-! Device states (Table 04-8). -/

/-- BOOTING. -/
def stBooting : Nat := 0
/-- STANDBY. -/
def stStandby : Nat := 1
/-- READY. -/
def stReady : Nat := 2
/-- ARMED. -/
def stArmed : Nat := 3
/-- PRINTING. -/
def stPrinting : Nat := 4
/-- PAUSED. -/
def stPaused : Nat := 5
/-- SERVICE. -/
def stService : Nat := 6
/-- ASLEEP. -/
def stAsleep : Nat := 7
/-- HALTED. -/
def stHalted : Nat := 8

/-- The device state's code. -/
def State.st (s : State) : Nat := s.fld Reg.PLAT_STATE_STATE

/-- Whether the device state is one of those listed. -/
def State.inSt (s : State) (l : List Nat) : Bool := l.contains s.st

/-- A transition of Table 04-8: the state, the previous state, and the start of the time in state. -/
def State.enter (s : State) (st : Nat) : State :=
  if s.st = st then s
  else { (s.setFld Reg.PLAT_STATE_PREV s.st).setFld Reg.PLAT_STATE_STATE st with stateSince := s.now }

/-- Registers outside DIRECT blocks can be written (R102, Table 04-9): not in BOOTING and HALTED. -/
def State.writable (s : State) : Bool := !s.inSt [stBooting, stHalted]

/-- The state SERVICE or ASLEEP was entered from (Table 04-8): the previous state. -/
def State.back (s : State) : State := s.enter (s.fld Reg.PLAT_STATE_PREV)

/-! Time (R283, R285). -/

/-- Reference ticks in `ms` milliseconds: 4 ns each. -/
def ticksOfMs (ms : Nat) : Nat := 250000 * ms

/-- Nanoseconds per second. -/
def nsPerSec : Nat := 1000000000

/-- A domain's counts. -/
def State.clock (s : State) (d : Nat) : Clock := tabGet {} s.time.clocks d

/-- A domain's counts replaced. -/
def State.setClock (s : State) (d : Nat) (c : Clock) : State :=
  { s with time := { s.time with clocks := tabPut {} s.time.clocks d c } }

/-- The active domain: 0 Punch, 1 Judy. -/
def State.activeDom (s : State) : Nat := s.fld Reg.TIME_CTRL_ACTIVE

/-- A domain's time in 2^-32 ns. -/
def Clock.units (c : Clock) : Int := ((c.sec * nsPerSec + c.ns) * 2 ^ 32 + c.frac : Nat)

/-- Counts from a time in 2^-32 ns. -/
def Clock.withUnits (c : Clock) (t : Int) : Clock :=
  let n := t.toNat
  { c with sec := n / 2 ^ 32 / nsPerSec % 2 ^ 64, ns := n / 2 ^ 32 % nsPerSec, frac := n % 2 ^ 32 }

/-- Device time in 2^-32 ns: the active domain's time plus the residual R. -/
def State.devUnits (s : State) : Int := (s.clock s.activeDom).units + s.time.resid

/-- Device time as counts. -/
def State.devTime (s : State) : Clock := ({} : Clock).withUnits s.devUnits

/-- Device time in whole nanoseconds. -/
def State.devNs (s : State) : Int := s.devUnits / (2 ^ 32 : Nat)

/-- The bytes of a stamp as records carry it: seconds bits 47:0, then nanoseconds. -/
def stampBytes (c : Clock) : List Byte := leBytes 6 c.sec ++ leBytes 4 c.ns

/-! Register addresses, and writes that wait for the wake. -/

/-- The block of a parameter address. -/
def blockOf (a : Nat) : Nat := a / 65536

/-- The offset of a parameter address in its block. -/
def offOf (a : Nat) : Nat := a % 65536

/-- The entry that writes one field. -/
def Fld.entry (f : Fld) (v : Nat) : RegEntry :=
  ⟨f.addr, setWordBits 0#32 f.hi f.lo (2 ^ f.width - 1), setWordBits 0#32 f.hi f.lo v⟩

/-- The unit behind a block is powered: everything but the always-on island is off in DEEP (R302, R399). -/
def State.awake (s : State) : Bool := s.fld Reg.PWR_STATUS_PSTATE != 2

/-- Blocks that are powered in DEEP: the supervisor's own and the host's access to it, the always-on island, the Ethernet
port and the supply (DESIGN CHOICE for the blocks whose chapters do not say: PLAT, PACE, LOCK, CMD, POS, TIME, EVT, PCIE,
ETH, PWR and NVC). -/
def onInDeep (b : Nat) : Bool := [0x00, 0x01, 0x03, 0x04, 0x20, 0x28, 0x29, 0x39, 0x3A, 0x48, 0x49].contains b

/-- A write to the register at `a` waits for the wake (R107). -/
def State.defers (s : State) (a : Nat) : Bool := !s.awake && !onInDeep (blockOf a)

/-- A write kept for the wake. -/
def State.putLater (s : State) (e : RegEntry) : State := { s with pwr := { s.pwr with later := s.pwr.later ++ [e] } }

/-- A field's write takes effect, or waits for the wake. -/
def State.orLater (s : State) (f : Fld) (v : Nat) (act : State → State) : State :=
  if s.defers f.addr then s.putLater (f.entry v) else act s

/-! Fault log (R383). -/

/-- A logged happening: one entry with the time of the active domain; the ring holds 65,536. -/
def State.log1 (s : State) (code block inst : Nat) (cond : Nat := 0) (detail : List Nat := []) : State :=
  let t := s.devTime
  let e : LogEntry := ⟨s.fld Reg.NVC_LOG_NEXT, code, block, inst, t.sec, t.ns, s.activeDom, false, cond, detail⟩
  let l := s.log.entries ++ [e]
  { s.bumpWrap Reg.NVC_LOG_NEXT with log := { s.log with entries := l.drop (l.length - 65536) } }

/-! Events (R294). -/

/-- The producer's event enters the matrix, unless its previous one has not left all its channels: then the two are
one event and the merge is counted. `tag` is the tag of the consumer task that raises it (R298). -/
def State.raise (s : State) (prod : Nat) (tag : Option Nat := none) : State :=
  if s.evt.waiting.any (fun w => w.prod == prod) then
    (s.bump Reg.EVT_COUNTS_MERGED).setFld Reg.EVT_STATUS_MERGED 1
  else { s with evt := { s.evt with waiting := s.evt.waiting ++ [⟨prod, tag⟩] } }

/-- `raise` under an enable. -/
def State.raiseIf (s : State) (en : Bool) (prod : Nat) (tag : Option Nat := none) : State :=
  if en then s.raise prod tag else s

/-! Conditions C1 to C6 (R77). -/

/-- A breach of condition `c`, seen by block `block`: logged, COND_BROKEN raised, shown in PLAT_STATE and
PLAT_COND_SEEN. -/
def State.breach (s : State) (c block inst : Nat) (detail : List Nat := []) : State :=
  let s := (s.log1 0x30 block inst c detail).raise 53
  let s := s.setFld Reg.PLAT_STATE_COND (setBitAt (s.fld Reg.PLAT_STATE_COND) (c - 1))
  s.setFld Reg.PLAT_COND_SEEN_SEEN (setBitAt (s.fld Reg.PLAT_COND_SEEN_SEEN) (c - 1))

/-- Condition `c` is no longer broken. -/
def State.mend (s : State) (c : Nat) : State :=
  s.setFld Reg.PLAT_STATE_COND (clearBitAt (s.fld Reg.PLAT_STATE_COND) (c - 1))

/-- A breach that lasts no time: reported, and not broken after it. -/
def State.breachOnce (s : State) (c block inst : Nat) (detail : List Nat := []) : State :=
  (s.breach c block inst detail).mend c

/-! Interrupts (R344). -/

/-- A vector signalled: the message leaves, or the pending bit is set while the vector is masked. -/
def State.msixSignal (s : State) (v : Nat) : State :=
  if tabGet false s.msix.unmasked v then s.emit (.msix v)
  else { s with msix := { s.msix with pend := tabPut false s.msix.pend v true } }

/-! Chain links (R357 to R359). -/

/-- The compatibility level of the running image (R354). -/
def State.level (s : State) : Nat := s.fld Reg.PLAT_FW_COMPAT_LEVEL

/-- The device's own chain identity (R356). -/
def State.chainId (s : State) : Nat := s.fld Reg.PLAT_STRAPS_ID

/-- Lanes in each direction by the width straps (R356). -/
def State.chainWidth (s : State) : Nat :=
  match s.fld Reg.PLAT_STRAPS_WIDTH with
  | 1 => 1
  | 2 => 2
  | 3 => 4
  | _ => 0

/-- A chain link is up: all its strapped lanes are UP and the receiver does not refuse it. -/
def State.chainUp (s : State) (west : Bool) : Bool :=
  decide (0 < s.chainWidth) &&
  (List.range s.chainWidth).all (fun i => s.flag (Reg.LANE_STATUS_UP ((if west then 80 else 88) + i))) &&
  !(if west then s.chain.west.refused else s.chain.east.refused)

/-- A Heruf-C packet (Table 15-2). -/
def chainPacket (type dirWest src dst hops cls level : Nat) (body : List Byte) : List Byte :=
  let h := bytesOf [type, 128 * dirWest + src % 8, dst, 8 * (hops % 8) + cls % 8] ++ leBytes 2 body.length ++
    leBytes 2 level ++ leBytes 4 (if body.isEmpty then 0 else crc32 body)
  h ++ leBytes 4 (crc32c h) ++ body

/-- Packets at the head of a link's queue leave while the next hop's buffers allow: two free for a packet that
originates here, one for a packet in transit (R359). -/
def drainQueue : List (Bool × List Byte) → Nat → List (List Byte) × List (Bool × List Byte) × Nat
  | [], c => ([], [], c)
  | (transit, b) :: q, c =>
    if (if transit then 1 else 2) ≤ c then
      let r := drainQueue q (c - 1)
      (b :: r.1, r.2.1, r.2.2)
    else ([], (transit, b) :: q, c)

/-- A link's end. -/
def State.link (s : State) (west : Bool) : ChainLink := if west then s.chain.west else s.chain.east

/-- A link's end replaced. -/
def State.setLink (s : State) (west : Bool) (l : ChainLink) : State :=
  { s with chain := if west then { s.chain with west := l } else { s.chain with east := l } }

/-- A lane. -/
def State.lane (s : State) (l : Nat) : Lane := tabGet {} s.lanes.lanes l

/-- A lane replaced. -/
def State.setLane (s : State) (l : Nat) (x : Lane) : State :=
  { s with lanes := { s.lanes with lanes := tabPut {} s.lanes.lanes l x } }

/-- A word as a lane's pins carry it: inverted under TX_INV or RX_INV. -/
def laneWire (invert : Bool) (w : BitVec 66) : BitVec 66 := if invert then ~~~w else w

/-- The words that blocks become on a lane, through its scrambler. -/
def State.laneWords (s : State) (l : Nat) (bs : List Block) : List (BitVec 66) :=
  (blockWords (s.lane l).txScr bs).1.map (laneWire (s.flag (Reg.LANE_CFG_TX_INV l)))

/-- A lane's scrambler after blocks. -/
def State.laneSent (s : State) (l : Nat) (bs : List Block) : State :=
  s.setLane l { s.lane l with txScr := (blockWords (s.lane l).txScr bs).2 }

/-- A packet on a head lane. -/
def State.headSend (s : State) (k l : Nat) (b : List Byte) : State :=
  let bs := packetBlocks 1 b
  (s.laneSent l bs).emit (.headPacket k l b (s.laneWords l bs))

/-- A LINK block on a lane. -/
def State.linkSend (s : State) (l kind arg : Nat) : State :=
  let bs := [linkBlock kind arg]
  (s.laneSent l bs).emit (.laneWord l kind arg (s.laneWords l bs))

/-- 64 IDLE blocks on a lane (R338). -/
def State.idleSend (s : State) (l : Nat) : State :=
  let bs := List.replicate 64 idleBlock
  (s.laneSent l bs).emit (.laneIdle l (s.laneWords l bs))

/-- The lanes of a chain link, in ascending order (R342). -/
def State.linkLanes (s : State) (west : Bool) : List Nat :=
  (List.range 96).filter fun l => s.fld (Reg.LANE_CFG_ROLE l) == (if west then 3 else 2)

/-- The blocks that lane `i` of `n` takes of a stripe that starts on lane `turn` (R342). -/
def stripe (n turn i : Nat) (bs : List Block) : List Block :=
  (bs.zipIdx.filter fun p => (p.2 + turn) % n == i).map Prod.fst

/-- A Heruf-C packet on a link, its blocks striped over the lanes (R342). -/
def State.chainSend (s : State) (west : Bool) (b : List Byte) : State :=
  let bs := packetBlocks 2 b
  let ls := (s.linkLanes west).zipIdx
  let n := ls.length
  let x := s.link west
  let parts := ls.map fun p => (p.1, stripe n x.turn p.2 bs)
  let words := parts.map fun p => (p.1, s.laneWords p.1 p.2)
  let s := parts.foldl (fun s p => s.laneSent p.1 p.2) s
  (s.setLink west { x with turn := (x.turn + bs.length) % n }).emit (.chain west b words)

/-- A link sends what it may. -/
def State.chainDrain (s : State) (west : Bool) : State :=
  let l := s.link west
  let r := drainQueue l.queue l.credits
  let s := s.setLink west { l with queue := r.2.1, credits := r.2.2 }
  r.1.foldl (fun s b => s.chainSend west b) s

/-- A packet put on a link that is up. -/
def State.chainSendOn (s : State) (west transit : Bool) (b : List Byte) : State :=
  if s.chainUp west then
    let l := s.link west
    (s.setLink west { l with queue := l.queue ++ [(transit, b)] }).chainDrain west
  else s

/-- The direction with fewer hops to a member: a tie goes east; none when no way reaches it (R358). -/
def State.chainWay (s : State) (dst : Nat) : Option Bool :=
  let e := s.chain.eastMembers.findIdx? (fun m => m.id == dst)
  let w := s.chain.westMembers.findIdx? (fun m => m.id == dst)
  match (if s.chainUp false then e else none), (if s.chainUp true then w else none) with
  | some i, some j => some (decide (j < i))
  | some _, none => some false
  | none, some _ => some true
  | none, none => none

/-- A packet originated here for one member. -/
def State.chainTo (s : State) (type dst cls : Nat) (body : List Byte) : State :=
  match s.chainWay dst with
  | some west => s.chainSendOn west false (chainPacket type (b2n west) s.chainId dst 0 cls s.level body)
  | none => s

/-- A packet originated here for all members, in the directions given. -/
def State.chainAll (s : State) (type cls : Nat) (body : List Byte) : State :=
  let s1 := s.chainSendOn false false (chainPacket type 0 s.chainId 255 0 cls s.level body)
  s1.chainSendOn true false (chainPacket type 1 s.chainId 255 0 cls s.level body)

/-! Status codes (Table 04-4). -/

/-- DONE. -/
def scDone : Nat := 0x00
/-- PENDING. -/
def scPending : Nat := 0x01
/-- BAD_OPCODE. -/
def scBadOpcode : Nat := 0x10
/-- BAD_LENGTH. -/
def scBadLength : Nat := 0x11
/-- BAD_PARAM. -/
def scBadParam : Nat := 0x12
/-- BAD_CHECK. -/
def scBadCheck : Nat := 0x13
/-- STATE_REFUSED. -/
def scStateRefused : Nat := 0x20
/-- LOCKED_BY_OTHER. -/
def scLockedByOther : Nat := 0x21
/-- LOCK_BROKEN_PRIOR. -/
def scLockBrokenPrior : Nat := 0x22
/-- RESOURCE_BUSY. -/
def scResourceBusy : Nat := 0x30
/-- NO_CONTEXT. -/
def scNoContext : Nat := 0x31
/-- CONFIG_REJECTED. -/
def scConfigRejected : Nat := 0x40
/-- CONDITION_BROKEN. -/
def scConditionBroken : Nat := 0x41
/-- HW_FAULT. -/
def scHwFault : Nat := 0x50
/-- DEFERRED. -/
def scDeferred : Nat := 0x60

/-! Replies (R81, R83, R97, R98). -/

/-- A reply packet's bytes (Table 04-2). -/
def replyBytes (r : Reply) : List Byte :=
  let h := leBytes 2 r.opcode ++ bytesOf [r.tag, 2 * b2n r.more + b2n r.again] ++ leBytes 2 r.payload.length ++
    bytesOf [r.status, r.state] ++ leBytes 4 r.seq
  h ++ leBytes 4 (crc32c (h ++ leBytes 4 0 ++ r.payload)) ++ r.payload

/-- A ring. -/
def State.ring (s : State) (r : Nat) : Ring := tabGet {} s.cmd.rings r

/-- A ring replaced. -/
def State.setRing (s : State) (r : Nat) (x : Ring) : State :=
  { s with cmd := { s.cmd with rings := tabPut {} s.cmd.rings r x } }

/-- 2^32. -/
def idxMod : Nat := 4294967296

/-- The reply ring's size in units. -/
def State.rplSize (s : State) (r : Nat) : Nat := 2 ^ s.fld (Reg.CMD_CFG_RSIZE r)

/-- The command ring's size in units. -/
def State.cmdSize (s : State) (r : Nat) : Nat := 2 ^ s.fld (Reg.CMD_CFG_CSIZE r)

/-- Free units of a reply ring. -/
def State.rplFree (s : State) (r : Nat) : Nat :=
  s.rplSize r - ((s.ring r).rplProd + idxMod - (s.ring r).rplCons) % idxMod

/-- Units that a packet of `len` payload bytes occupies (R95). -/
def unitsOf (len : Nat) : Nat := ceilDiv (16 + len) 64

/-- Units of padding before a packet that would wrap (R95). -/
def padUnits (size idx units : Nat) : Nat := if size < idx % size + units then size - idx % size else 0

/-- A pad entry that fills `units` units (R95): a header with OPCODE 0, TAG 0xFF and LENGTH over the padding. Its other
header bytes are 0 (DESIGN CHOICE: the spec gives them no value). -/
def padEntry (units : Nat) : List Byte :=
  leBytes 2 0 ++ bytesOf [255, 0] ++ leBytes 2 (64 * units - 16) ++ leBytes 10 0

/-- Where a ring's command ring begins (R96). -/
def State.cmdBase (s : State) (r : Nat) : Nat :=
  2 ^ 32 * s.fld (Reg.CMD_CBASE_HI_ADDR_HI r) + 64 * s.fld (Reg.CMD_CBASE_LO_ADDR_LO r)

/-- Where a ring's status block stands; the reply ring follows it (R96). -/
def State.rplBase (s : State) (r : Nat) : Nat :=
  2 ^ 32 * s.fld (Reg.CMD_RBASE_HI_ADDR_HI r) + 64 * s.fld (Reg.CMD_RBASE_LO_ADDR_LO r)

/-- The host address of a unit of a reply ring. -/
def State.rplAt (s : State) (r unit : Nat) : Nat := s.rplBase r + 64 + 64 * (unit % s.rplSize r)

/-- STALL of a ring follows its free units while it is enabled (R98). -/
def State.setStall (s : State) (r : Nat) : State :=
  let v := s.fld Reg.CMD_STATUS_STALL
  let stalled := s.flag (Reg.CMD_CFG_ENABLE r) && decide (s.rplFree r < 64)
  s.setFld Reg.CMD_STATUS_STALL (if stalled then setBitAt v r else clearBitAt v r)

/-- The ring's status block is written and its vector signalled (R96, R97). -/
def State.ringNotify (s : State) (r : Nat) : State :=
  let b := leBytes 4 (s.ring r).cmdCons ++ leBytes 4 (s.ring r).rplProd ++ leBytes 56 0
  (s.emit (.statusBlock r (s.rplBase r) b)).msixSignal (s.fld (Reg.CMD_CFG_VECTOR r))

/-- Whether a reply fits its ring now: at least 64 free units, and room for the pad and the packet (R95, R97). -/
def State.rplRoom (s : State) (r : Nat) (len : Nat) : Bool :=
  let u := unitsOf len
  decide (64 ≤ s.rplFree r) && decide (padUnits (s.rplSize r) (s.ring r).rplProd u + u ≤ s.rplFree r)

/-- A reply written into its ring, after a pad entry where it would wrap. -/
def State.ringWrite (s : State) (r : Nat) (rep : Reply) : State :=
  let u := unitsOf rep.payload.length
  let size := s.rplSize r
  let pad := padUnits size (s.ring r).rplProd u
  let s := if pad = 0 then s else s.emit (.ringReply r (s.rplAt r (s.ring r).rplProd) (padEntry pad))
  let s := s.emit (.ringReply r (s.rplAt r ((s.ring r).rplProd + pad)) (replyBytes rep))
  let s := s.setRing r { s.ring r with rplProd := ((s.ring r).rplProd + pad + u) % idxMod }
  (s.ringNotify r).setStall r

/-- A reply on its way to a ring: written, or waiting for free units; a ring that is not enabled takes none. -/
def State.ringReply (s : State) (r : Nat) (rep : Reply) : State :=
  if !s.flag (Reg.CMD_CFG_ENABLE r) then s
  else if (s.ring r).waiting.isEmpty && s.rplRoom r rep.payload.length then s.ringWrite r rep
  else s.setRing r { s.ring r with waiting := (s.ring r).waiting ++ [rep] }

/-- A session. -/
def State.session (s : State) (n : Nat) : Session := tabGet {} s.cmd.sessions n

/-- A session replaced. -/
def State.setSession (s : State) (n : Nat) (x : Session) : State :=
  { s with cmd := { s.cmd with sessions := tabPut {} s.cmd.sessions n x } }

/-- What a session number stands for: 0 to 3 are the host rings, always open (R88). -/
def State.sessKind (s : State) (n : Nat) : SessKind := if n < 4 then .ring else (s.session n).kind

/-- An address lies in a port's prefix. -/
def State.ethNear (s : State) (ip p : Nat) : Bool :=
  let k := 2 ^ (32 - s.fld (Reg.ETH_CTRL_PREFIX p))
  s.flag (Reg.ETH_CTRL_ENABLE p) && s.flag (Reg.ETH_IP_IP p) && s.fld (Reg.ETH_IP_IP p) / k == ip / k

/-- The port that a datagram to an address leaves by, and the next hop (R350): the port whose prefix holds the address,
else the first with a gateway; none without a gateway. -/
def State.ethRoute (s : State) (ip : Nat) : Option (Nat × Nat) :=
  match [0, 1].find? (s.ethNear ip) with
  | some p => some (p, ip)
  | none => ([0, 1].find? fun p => s.flag (Reg.ETH_CTRL_ENABLE p) && s.flag (Reg.ETH_GW_GW p)).map
      fun p => (p, s.fld (Reg.ETH_GW_GW p))

/-- A datagram sent, and its frame counted; one with no route is not sent. -/
def State.sendDatagram (s : State) (ip port : Nat) (b : List Byte) : State :=
  match s.ethRoute ip with
  | some r => (s.emit (.datagram r.1 r.2 ip port b)).bump (Reg.ETH_CNT_FRAMES_TX r.1)
  | none => s

/-- A reply delivered to where its session lives (R89, R94, R97). -/
def State.deliver (s : State) (sess : Nat) (rep : Reply) : State :=
  match s.sessKind sess with
  | .closed => s
  | .ring => s.ringReply sess rep
  | .eth ip port => s.sendDatagram ip port (replyBytes rep)
  | .forwarded dev origin => s.chainTo 0x02 dev 5 (bytesOf [origin, 0, 0, 0] ++ replyBytes rep)

/-- A reply to a session can leave now: an enabled ring, an address, or a member that is present. -/
def State.reaches (s : State) (sess : Nat) : Bool :=
  match s.sessKind sess with
  | .closed => false
  | .ring => s.flag (Reg.CMD_CFG_ENABLE sess)
  | .eth _ _ => true
  | .forwarded dev _ => (s.chainWay dev).isSome

/-- A tag slot. -/
def State.slot (s : State) (sess tag : Nat) : Slot := tabGet {} (s.session sess).slots tag

/-- A tag slot replaced. -/
def State.setSlot (s : State) (sess tag : Nat) (x : Slot) : State :=
  let q := s.session sess
  s.setSession sess { q with slots := tabPut {} q.slots tag x }

/-- The reply a slot holds. -/
def Slot.reply (x : Slot) (sess tag : Nat) : Reply :=
  ⟨x.opcode, tag, x.more, x.delivered, x.status, x.seq, sess, x.payload, x.state⟩

/-- Whether the session of a command is still open. -/
def State.sessOpen (s : State) (n : Nat) : Bool := s.sessKind n != .closed

/-- A command completes with a status: its reply is stored in its tag slot (R83) and, unless the status is DONE with
NEED_REPLY 0, delivered (R80). A session that has closed takes no reply (R93). A forwarded session's reply always
returns, for the slot of its origin (R94). `member` is the STATE that an answering member gave. -/
def State.complete (s : State) (sess tag seq opcode : Nat) (need : Bool) (status : Nat) (payload : List Byte)
    (more : Bool := false) (member : Option Nat := none) : State :=
  if !s.sessOpen sess then s
  else
    let remote := match s.sessKind sess with | .forwarded _ _ => true | _ => false
    let go := need || status != scDone || remote
    let x : Slot := ⟨true, true, opcode, seq, need, go && s.reaches sess, status, more, payload, none, member.getD s.st⟩
    let s := s.setSlot sess tag x
    if go then s.deliver sess { x.reply sess tag with again := false } else s

/-- The command `rq` of `op` completes. -/
def State.finish (s : State) (rq : Rq) (op status : Nat) (payload : List Byte := []) (more : Bool := false) : State :=
  s.complete rq.sess rq.tag rq.seq op rq.needReply status payload more

/-- A command still under way in slot (`sess`, `tag`) completes with what the slot knows of it. -/
def State.finishSlot (s : State) (sess tag status : Nat) (payload : List Byte := []) (more : Bool := false) : State :=
  let x := s.slot sess tag
  if x.taken && !x.done then s.complete sess tag x.seq x.opcode x.needReply status payload more else s

/-- A packet offset under LOCKED: 4 more (R80). -/
def rqOff (rq : Rq) (o : Nat) : Nat := if rq.lock.isSome then o + 4 else o

/-- BAD_PARAM at an offset. -/
def badParamAt (o : Nat) : List Byte := leBytes 2 o ++ leBytes 2 0

/-- A command is answered BAD_PARAM at the offset of a field, as its opcode's table counts it. -/
def State.badParam (s : State) (rq : Rq) (op o : Nat) : State := s.finish rq op scBadParam (badParamAt (rqOff rq o))

/-- A check result (Table 04-6). -/
def checkResult (verdict reason block offset : Nat) : List Byte :=
  bytesOf [verdict, reason, block, 0] ++ leBytes 4 offset

/-- A command is answered CONFIG_REJECTED. -/
def State.reject (s : State) (rq : Rq) (op reason block : Nat) (offset : Nat := 0xFFFFFFFF) : State :=
  s.finish rq op scConfigRejected (checkResult 1 reason block offset)

/-! How a command comes to run (R18 to R20, R74, R82, R107). -/

/-- The domain of a register block or opcode range (Table 01-4). -/
def domainOfBlock (b : Nat) : Domain :=
  if [0x09, 0x10, 0x11].contains b then .print
  else if [0x0A, 0x18, 0x19, 0x1A, 0x1B, 0x1C].contains b then .inspect
  else if [0x20, 0x21, 0x22].contains b then .motion
  else if [0x28, 0x29].contains b then .time
  else .platform

/-- The domain of an opcode (Table 01-4). -/
def domainOfOpcode (op : Nat) : Domain :=
  match op / 0x100 with
  | 1 => .print
  | 2 => .inspect
  | 3 => .motion
  | 4 => .time
  | _ => .platform

/-- CONFIG_LOAD, CONFIG_CHECK, FW_SWITCH and SLEEP are barriers (R20). -/
def isBarrier (op : Nat) : Bool := [0x0040, 0x0041, 0x0501, 0x0052].contains op

/-- Table 04-9; a CONFIG_LOAD that it refuses is answered by R107. -/
def acceptedIn (op st : Nat) : Bool :=
  let any := [0x0000, 0x0001, 0x0002]
  let readers := [0x0010, 0x0400, 0x0505, 0x0030, 0x0031]
  let writers := [0x0011, 0x0012, 0x0401, 0x0402, 0x0306]
  let awake := [0x0020, 0x0021, 0x0040, 0x0041, 0x0122, 0x0123, 0x0124, 0x0125, 0x0200, 0x0201, 0x0202, 0x0203, 0x0204,
    0x0205, 0x0206, 0x0208, 0x0209, 0x0301, 0x0403, 0x0500, 0x0501, 0x0502, 0x0503, 0x0504, 0x0600, 0x0601, 0x0700]
  let setup := [0x0032, 0x0120, 0x0121, 0x0126, 0x0207, 0x0303, 0x0304, 0x0305, 0x0701]
  if any.contains op then true
  else if readers.contains op then decide (st ≠ stBooting)
  else if writers.contains op then decide (st ≠ stBooting) && decide (st ≠ stHalted)
  else if awake.contains op then decide (stStandby ≤ st) && decide (st ≤ stService)
  else if setup.contains op then [stStandby, stReady, stService].contains st
  else if [0x0050, 0x0052].contains op then [stStandby, stReady].contains st
  else if [0x0100, 0x0110].contains op then st == stReady
  else if [0x0101, 0x0102, 0x0103].contains op then decide (stReady ≤ st) && decide (st ≤ stPaused)
  else if [0x0300, 0x0302].contains op then decide (stReady ≤ st) && decide (st ≤ stService)
  else if op = 0x0130 then [stReady, stPaused, stService].contains st
  else if op = 0x0111 then st == stArmed
  else if op = 0x0112 then st == stPrinting
  else if op = 0x0113 then st == stPaused
  else if op = 0x0114 then decide (stArmed ≤ st) && decide (st ≤ stPaused)
  else if op = 0x0051 then st == stService
  else if op = 0x0053 then st == stAsleep
  else false

/-- The owner of a lock as Table 04-4 codes it: 0xFFFF when it has no present owner. -/
def State.lockOwnerCode (s : State) (k : Nat) : Nat :=
  if s.fld (Reg.LOCK_STATE k) = 1 then
    256 * s.fld (Reg.LOCK_OWNER_KIND k) + s.fld (Reg.LOCK_OWNER k)
  else 0xFFFF

/-- Whether a session holds a lock. -/
def State.holdsLock (s : State) (sess k : Nat) : Bool :=
  decide (s.fld (Reg.LOCK_STATE k) = 1) && decide (s.fld (Reg.LOCK_OWNER_KIND k) = 0) &&
    decide (s.fld (Reg.LOCK_OWNER k) = sess)

/-- Whether a queued command stands for (`sess`, `tag`). -/
def Queued.is (q : Queued) (sess tag : Nat) : Bool := q.sess == sess && q.tag == tag

/-- The command waits: a takeover by the standby pair is in progress (R376), another barrier is in force or was accepted
before it (R20), its domain still executes a command, or an earlier command stands in a queue of its domain (R19). An
IMMEDIATE command joins no queue (R80). -/
def State.held (s : State) (rq : Rq) (op : Nat) (doms : List Domain) : Bool :=
  let own := s.cmd.queue.any (fun q => q.is rq.sess rq.tag)
  let before := s.cmd.queue.takeWhile (fun q => !q.is rq.sess rq.tag)
  let mine := s.cmd.barrier == some (rq.sess, rq.tag)
  s.flag Reg.SPARE_PSUP_TAKEOVER
    || (s.cmd.barrier.isSome && !mine)
    || (!mine && before.any fun q => isBarrier q.opcode)
    || s.cmd.executing.any (fun e => doms.contains e.dom)
    || (own && !rq.immediate && before.any (fun q => !q.immediate && q.doms.any doms.contains))
    || (own && isBarrier op && !mine)

/-- The command leaves its queue, and a barrier it holds ends. -/
def State.take (s : State) (rq : Rq) : State :=
  { s with cmd := { s.cmd with
      queue := s.cmd.queue.filter (fun q => !q.is rq.sess rq.tag) } }

/-- The barrier that a command holds is lifted once the command no longer executes (R20). -/
def State.lift (s : State) (sess tag : Nat) : State :=
  if s.cmd.barrier = some (sess, tag) ∧ !s.cmd.executing.any (fun e => e.sess == sess && e.tag == tag) then
    { s.setFld Reg.PLAT_STATE_BARRIER 0 with cmd := { s.cmd with barrier := none } }
  else s

/-- The first nonzero reserved payload byte of the command's packet, if step 14 finds one (R8, R423). -/
def State.reservedAt (s : State) (rq : Rq) : Option Nat := (s.slot rq.sess rq.tag).reserved

/-- Steps 12 to 15 of Table 04-3 for a command of opcode `op` on the given domains: while it is held nothing happens;
then the state (Table 04-9), the lock it names (R74), and its own checks and effect. A CONFIG_LOAD that the state refuses
is answered CONFIG_REJECTED, reason 3 (R107); its byte 2 is 0 (DEDUCED). -/
def State.runIn (s : State) (rq : Rq) (op : Nat) (doms : List Domain) (body : State → State) : State :=
  if s.held rq op doms then s
  else
    let s := s.take rq
    (if !acceptedIn op s.st then if op = 0x0040 then s.reject rq op 3 0 else s.finish rq op scStateRefused
     else match rq.lock with
      | some k => if s.holdsLock rq.sess k then body s else s.finish rq op scLockedByOther (leBytes 2 (s.lockOwnerCode k))
      | none => body s).lift rq.sess rq.tag

/-- `runIn` on the opcode's own domain. -/
def State.run (s : State) (rq : Rq) (op : Nat) (body : State → State) : State :=
  s.runIn rq op [domainOfOpcode op] body

/-- Step 14 for fixed payloads: the fields in packet order, each with its offset and whether it is legal, together
with the packet's reserved bytes; the first failing one answers BAD_PARAM, else the effect follows. -/
def State.withParams (s : State) (rq : Rq) (op : Nat) (fields : List (Nat × Bool)) (body : State → State) : State :=
  let bad := (fields.filter (fun f => !f.2)).map Prod.fst
  let bad := match s.reservedAt rq with | some o => bad ++ [o] | none => bad
  match bad with
  | [] => body s
  | o :: os => s.badParam rq op (os.foldl min o)

/-- The command occupies its domain until a later happening completes it (R19). -/
def State.occupy (s : State) (rq : Rq) (dom : Domain) : State :=
  { s with cmd := { s.cmd with executing := s.cmd.executing ++ [⟨dom, rq.sess, rq.tag⟩] } }

/-- The domain is free again, and a barrier that the command held ends. -/
def State.vacate (s : State) (sess tag : Nat) : State :=
  State.lift { s with cmd := { s.cmd with
      executing := s.cmd.executing.filter (fun e => !(e.sess == sess && e.tag == tag)) } } sess tag

/-- A command whose completion comes later: its slot is taken and not done (R83). A command that reached its domain
through COMMAND_PACKET has its slot already. -/
def State.pend (s : State) (rq : Rq) (op : Nat) : State :=
  if !s.sessOpen rq.sess then s
  else s.setSlot rq.sess rq.tag
    { taken := true, done := false, opcode := op, seq := rq.seq, needReply := rq.needReply }

/-! Device memory. -/

/-- Code words that `n` bytes at `a` cover wholly. -/
def coversWord (a n w : Nat) : Bool := decide (a ≤ 16 * w) && decide (16 * w + 16 ≤ a + n)

/-- Bytes stored in device memory: a code word written whole holds no error any more (R317, R318). -/
def State.memStore (s : State) (a : Nat) (b : List Byte) : State :=
  { s with mem := memPut s.mem a b,
           dram := { s.dram with
             errs := s.dram.errs.filter (fun e => !coversWord a b.length e.1),
             poison := s.dram.poison.filter (fun e => !coversWord a b.length e.1) } }

/-- Bytes of device memory made what an unlisted address reads as, in whole code words without error. -/
def State.memErase (s : State) (a n : Nat) : State :=
  { s with mem := memClear s.mem a n,
           dram := { s.dram with
             errs := s.dram.errs.filter (fun e => !coversWord a n e.1),
             poison := s.dram.poison.filter (fun e => !coversWord a n e.1) } }

/-! Engines and clusters (R10, R24, R374). -/

/-- A cluster. -/
def State.cluster (s : State) (c : Nat) : Cluster := tabGet {} s.spare.clusters c

/-- A cluster replaced. -/
def State.setCluster (s : State) (c : Nat) (x : Cluster) : State :=
  { s with spare := { s.spare with clusters := tabPut {} s.spare.clusters c x } }

/-- The assignment of a half cluster (R24). -/
def State.half (s : State) (h : Nat) : Nat := s.spare.halves.getD h 2

/-- An engine in DOZE. -/
def State.dozes (s : State) (e : Nat) : Bool := tabGet false s.spare.dozing e

/-- A half cluster with an engine in DOZE. -/
def State.halfDozes (s : State) (h : Nat) : Bool := (List.range 8).any fun i => s.dozes (8 * h + i)

/-- The physical engine of a slot. -/
def Cluster.phys (x : Cluster) (slot : Nat) : Nat := (x.slots.lookup slot).getD slot

/-- A physical engine of a cluster is powered down (R24, R66, R374, R398): it has failed, or its slot is vacant, of a
FREE half or dozing. The spare stays powered. -/
def State.engineDown (s : State) (c p : Nat) : Bool :=
  let x := s.cluster c
  x.failed.contains p || x.spare != p && (List.range 16).all fun k =>
    x.phys k != p || x.vacant.contains k || s.half ((16 * c + k) / 8) == 2 || s.dozes (16 * c + k)

/-! Ticks in power and state. -/

/-- PCIe error reporting of a failed request: kind 1 a completion timeout, 4 a poisoned completion (PCIE_EVENTS,
PCIE_CNT_ERR). The header of a received packet is logged with the first uncorrectable error. -/
def State.pcieReport (s : State) (kind : Nat) : State :=
  let s := s.emit (.aer kind)
  match kind with
  | 1 => ((s.setFld Reg.PCIE_EVENTS_CTO 1).setFld Reg.PCIE_EVENTS_AER_UNCORR 1).bump Reg.PCIE_CNT_ERR_CTO
  | 4 =>
    let n := s.fresh
    let first := !s.flag Reg.PCIE_EVENTS_AER_UNCORR
    let s := (s.setFld Reg.PCIE_EVENTS_AER_UNCORR 1).bump Reg.PCIE_CNT_ERR_POISONED_RX
    if first then
      (List.range 4).foldl (fun s i => s.setReg (Reg.PCIE_HDRLOG i) (Config.tlpHeader n i)) { s with fresh := n + 1 }
    else s
  | _ => s

/-- A free value's number, and the counter raised. -/
def State.draw (s : State) : Nat × State := (s.fresh, { s with fresh := s.fresh + 1 })

end Sys2Proof.Machine
end

