-- ==== Sys2Proof/Machine/Arbiter.lean ====
section
/-!
DEFINITION. Arbiters (chapter 03, R50 to R67, R78): the grant at a break point and the stuck detector.
-/
namespace Sys2Proof.Machine

/-- The wait counter of an input. -/
def Arb.wait (a : Arb) (i : Nat) : Nat := tabGet 0 a.count i

/-- The inputs from 7 down to 0. -/
def inputsDown : List Nat := [7, 6, 5, 4, 3, 2, 1, 0]

/-- The default input of a class (R52). -/
def trafficInput : Traffic → Nat
  | .background => 0
  | .ingest => 1
  | .expansion => 2
  | .analysis => 3
  | .loop => 4
  | .control => 5
  | .capture => 6
  | .fire => 7

/-- The client behind a request. -/
def reqClient : ArbReq → Nat
  | .enter _ c => c
  | .carried _ c => c
  | .lineFrame c => c
  | .laneControl c => c
  | .ring _ c => c

/-- Whether a request stands on an input. -/
def onInput (l : List (ArbReq × Nat)) (i : Nat) : Bool := l.any fun e => e.2 == i

/-- What a break point finds (R55, R64, R66): the counter of an input is kept only where a request that already waited on
it still does; one that the slot map has moved there starts at 0. An input whose counter is at or above its limit is
forced, the highest-numbered first; one already forced stays so when its limit is raised (DESIGN CHOICE). -/
def Arb.settle (a : Arb) (limit : Nat → Nat) (l : List (ArbReq × Nat)) : Arb :=
  let stays (i : Nat) : Bool := a.on_.any fun e => e.2 == i && l.contains e
  let count := inputsDown.foldl (fun t i => if stays i then t else tabPut 0 t i 0) a.count
  let old := a.forced.filter stays
  let new := inputsDown.filter fun i => onInput l i && !old.contains i && decide (limit i ≤ tabGet 0 count i)
  { a with count := count, forced := old ++ new, on_ := l }

/-- The input that R54 grants: the earliest forced, else the highest requesting. -/
def Arb.winner (a : Arb) : Option Nat :=
  match a.forced with
  | i :: _ => some i
  | [] => inputsDown.find? (onInput a.on_)

/-- The counters after input `w` is granted (R55): the winner at 0, every other requesting input one higher, and forced
when it reaches its limit, the highest-numbered first. -/
def Arb.charge (a : Arb) (limit : Nat → Nat) (w : Nat) : Arb :=
  let losers := inputsDown.filter fun i => onInput a.on_ i && i != w
  let count := losers.foldl (fun t i => tabPut 0 t i (min 255 (tabGet 0 t i + 1))) (tabPut 0 a.count w 0)
  let kept := a.forced.filter (· != w)
  let new := losers.filter fun i => !kept.contains i && decide (limit i ≤ tabGet 0 count i)
  { a with count := count, forced := kept ++ new }

/-- The next client of an input's rotation: the lowest number above the one last granted, else the lowest (R57). -/
def nextClient (last : Nat) (clients : List Nat) : Option Nat :=
  match (clients.filter (fun c => decide (last ≤ c))).min? with
  | some c => some c
  | none => clients.min?

/-- Input `w` granted to client `c`: the rotation goes on after it, and its request waits no longer. -/
def Arb.give (a : Arb) (w c : Nat) : Arb :=
  { a with granted := some (w, c), truncated := false, last := tabPut 0 a.last w (c + 1),
           on_ := a.on_.filter fun e => !(e.2 == w && reqClient e.1 == c) }

/-- One break point with the requests and their inputs: settle, grant, charge, and the rotation of the winner's clients. -/
def Arb.grant (a : Arb) (limit : Nat → Nat) (l : List (ArbReq × Nat)) : Arb :=
  let a := a.settle limit l
  match a.winner with
  | none => { a with granted := none, truncated := false }
  | some w =>
    let a := a.charge limit w
    match nextClient (tabGet 0 a.last w) ((l.filter fun e => e.2 == w).map fun e => reqClient e.1) with
    | none => a
    | some c => a.give w c

/-- Whether the winner of this break point wins by force. -/
def Arb.byForce (a : Arb) (limit : Nat → Nat) (l : List (ArbReq × Nat)) : Bool := !(a.settle limit l).forced.isEmpty

/-- The granted unit as every later arbiter and the response network see it: at the input number it was granted on,
whatever the slot map becomes (R52, R65). -/
def Arb.onward (a : Arb) : Option ArbReq := a.granted.map fun g => .carried g.1 g.2

/-- The fabric arbiters by number: 0 to 15 junctions, 16 to 23 crossing directions, 24 to 87 memory arbiters, 88 to 99
lane group muxes. The junction from which one takes its wait limits (Table 03-1). -/
def arbJunction (arb : Nat) : Nat :=
  if arb < 16 then arb
  else if arb < 24 then 4 * ((arb - 16) / 2) + 3
  else if arb < 88 then 4 * ((arb - 24) / 16) + 3
  else 4 * ((arb - 88) / 3) + 3

/-- A fabric arbiter's wait limit on an input. -/
def State.waitLimit (s : State) (arb i : Nat) : Nat :=
  let j := arbJunction arb
  match i with
  | 0 => s.fld (Reg.ARB_J_LIMLO_LIM0 j)
  | 1 => s.fld (Reg.ARB_J_LIMLO_LIM1 j)
  | 2 => s.fld (Reg.ARB_J_LIMLO_LIM2 j)
  | 3 => s.fld (Reg.ARB_J_LIMLO_LIM3 j)
  | 4 => s.fld (Reg.ARB_J_LIMHI_LIM4 j)
  | 5 => s.fld (Reg.ARB_J_LIMHI_LIM5 j)
  | 6 => s.fld (Reg.ARB_J_LIMHI_LIM6 j)
  | _ => s.fld (Reg.ARB_J_LIMHI_LIM7 j)

/-- The input on which a junction's slot map places a class (R63). -/
def State.slotInput (s : State) (j : Nat) : Traffic → Nat
  | .fire => s.fld (Reg.ARB_J_SLOT_IN_FIRE j)
  | .capture => s.fld (Reg.ARB_J_SLOT_IN_CAPTURE j)
  | .control => s.fld (Reg.ARB_J_SLOT_IN_CONTROL j)
  | .loop => s.fld (Reg.ARB_J_SLOT_IN_LOOP j)
  | .analysis => s.fld (Reg.ARB_J_SLOT_IN_ANALYSIS j)
  | .expansion => s.fld (Reg.ARB_J_SLOT_IN_EXPANSION j)
  | .ingest => s.fld (Reg.ARB_J_SLOT_IN_INGEST j)
  | .background => s.fld (Reg.ARB_J_SLOT_IN_BACKGROUND j)

/-- The units that meet the fabric (Table 01-2): a cluster's engines, the fixed-function units, a host bridge port, and
the controllers of a quadrant's DRAM channels as control traffic reaches them. -/
inductive FabricUnit where
  | engines (cluster : Nat)
  | decompressor (d : Nat)
  | pipeline (p : Nat)
  | resampler (r : Nat)
  | compressor (u : Nat)
  | sequencer (q : Nat)
  | bridge (q : Nat)
  | dramChannel (m : Nat)
  deriving DecidableEq, Repr

/-- The junction of a unit (Table 01-2); control traffic for a DRAM channel controller enters at that of cluster 4q + 3
(R22). -/
def FabricUnit.junction : FabricUnit → Nat
  | .engines c => c
  | .decompressor d => d
  | .pipeline p => 4 * (p / 2) + p % 2
  | .resampler r => 4 * (r / 2) + 2
  | .compressor u => 4 * u + 3
  | .sequencer q => 4 * q + 3
  | .bridge q => 4 * q + 1
  | .dramChannel m => 4 * (m / 16) + 3

/-- Where control traffic for a unit enters the fabric (R22): the junction's control port, on the input of CONTROL. -/
def State.controlEntry (s : State) (u : FabricUnit) : Nat × Nat := (u.junction, s.slotInput u.junction .control)

/-- The input of a request at an arbiter (R52); none where the arbiter sees no such request. -/
def State.reqInput (s : State) (arb : Nat) : ArbReq → Option Nat
  | .enter c _ => if arb < 16 then some (s.slotInput arb c) else none
  | .carried i _ => if arb < 88 ∧ i < 8 then some i else none
  | .lineFrame _ => if 88 ≤ arb then some 7 else none
  | .laneControl _ => if 88 ≤ arb then some 5 else none
  | .ring c _ => if 88 ≤ arb then some (trafficInput c) else none

/-- The sideband masks a requester (R66): everything in DEEP, and an engine that is powered down. Clients 0 to 16 of a
junction are its cluster's physical engines (DESIGN CHOICE: the spec numbers no clients). -/
def State.clientMasked (s : State) (arb client : Nat) : Bool :=
  s.fld Reg.PWR_STATUS_PSTATE == 2 || decide (arb < 16) && decide (client < 17) && s.engineDown arb client

/-- The sideband mask of an arbiter's inputs, as its register shows it (R66). -/
def State.arbMasked (s : State) (arb : Nat) : Nat :=
  if arb < 16 then s.fld (Reg.ARB_J_CTRL_MASKED arb)
  else if 24 ≤ arb ∧ arb < 88 then s.fld (Reg.ARB_M_MASKED (arb - 24))
  else 0

/-- Whether an input may request: not masked, and on a memory arbiter not throttled (R59, R66). -/
def State.arbOpen (s : State) (arb i : Nat) : Bool :=
  !bitAt (s.arbMasked arb) i &&
  !(decide (24 ≤ arb) && decide (arb < 88) && s.dram.throttled.any fun e => e.1 == arb - 24 && e.2.1 == i)

/-- A memory arbiter makes no grants while its channel is in maintenance; the refresh of one bank blocks that bank alone
(R59, Table 13-2). -/
def State.arbStopped (s : State) (arb : Nat) : Bool :=
  decide (24 ≤ arb) && decide (arb < 88) && s.flag (Reg.MEM_CH_STATUS_MAINT (arb - 24)) &&
    (tabGet none s.dram.bank (arb - 24)).isNone

/-- The key of an arbiter on a network: request (false) or response (true) (R51). -/
def arbKey (net : Bool) (arb : Nat) : Nat := 2 * arb + b2n net

/-- A fabric arbiter. -/
def State.arb (s : State) (net : Bool) (n : Nat) : Arb := tabGet {} s.arbs (arbKey net n)

/-- A fabric arbiter replaced. -/
def State.setArb (s : State) (net : Bool) (n : Nat) (a : Arb) : State :=
  { s with arbs := tabPut {} s.arbs (arbKey net n) a }

/-- The requests that an arbiter sees, with their inputs: those whose requester is masked or held by the activation
counters do not request (R59, R66). -/
def State.arbRequests (s : State) (arb : Nat) (reqs : List ArbReq) : List (ArbReq × Nat) :=
  reqs.filterMap fun r => (s.reqInput arb r).bind fun i =>
    if s.arbOpen arb i && !s.clientMasked arb (reqClient r) then some (r, i) else none

/-- The inputs of requests as a bit mask. -/
def reqMask (l : List (ArbReq × Nat)) : Nat := l.foldl (fun m e => setBitAt m e.2) 0

/-- A mask that meets a grant (R67): the unit ends at the next handshake, marked TRUNCATED, and the requester's unit
controller logs it. The unit last granted is in progress until the arbiter's next break point. -/
def State.maskBreaks (s : State) : State :=
  s.arbs.foldl (fun s e =>
    match e.2.granted with
    | some g =>
      if s.clientMasked (e.1 / 2) g.2 then
        ({ s with arbs := tabPut {} s.arbs e.1 { e.2 with granted := none, truncated := true } } : State).log1 0x40 0x02 (e.1 / 2) 0
          [g.1, g.2]
      else s
    | none => s) s

/-- FORCED of the register that shows an arbiter's forced grants, if it has one. -/
def State.countForced (s : State) (arb : Nat) : State :=
  if arb < 16 then s.bump (Reg.ARB_J_CTRL_FORCED arb)
  else if 24 ≤ arb ∧ arb < 88 then s.bump (Reg.ARB_M_FORCED (arb - 24))
  else s

/-- A break point of a fabric arbiter. -/
def State.arbBreak (s : State) (net : Bool) (arb : Nat) (reqs : List ArbReq) : State :=
  if s.arbStopped arb then s
  else
    let l := s.arbRequests arb reqs
    let a := s.arb net arb
    let s1 := s.setArb net arb (a.grant (s.waitLimit arb) l)
    let s2 := if arb < 16 then s1.setFld (Reg.ARB_J_CTRL_REQ arb) (reqMask l) else s1
    if a.byForce (s.waitLimit arb) l then s2.countForced arb else s2

/-- ARBITER_GRANT (R54 to R57). -/
def execArbiterGrant (net : Bool) (arb : Nat) (reqs : List ArbReq) (s : State) : Result :=
  .next (s.arbBreak net arb reqs)

/-- STUCK of the registers that show an arbiter (Tables 03-10, 03-11); the lock arbiters, 100 + k, have none. -/
def State.setStuck (s : State) (arb : Nat) : State :=
  if 100 ≤ arb then s
  else
    let s := s.setFld (Reg.ARB_J_CTRL_STUCK (arbJunction arb)) 1
    if 24 ≤ arb ∧ arb < 88 then s.setFld (Reg.ARB_M_STUCK (arb - 24)) 1 else s

/-- Block and instance under which an arbiter stands in the fault log. -/
def arbPlace (arb : Nat) : Nat × Nat := if 100 ≤ arb then (0x03, arb - 100) else (0x02, arb)

/-- The lowest condition now broken, if any. -/
def State.brokenCond (s : State) : Option Nat :=
  ([1, 2, 3, 4, 5, 6].find? fun c => bitAt (s.fld Reg.PLAT_STATE_COND) (c - 1))

/-- ARBITER_STUCK (R78): STUCK, a fault-log entry with the arbiter and input, and the affected command answered; the
request stays. -/
def execArbiterStuck (arb input : Nat) (cmd : Option Rq) (s : State) : Result :=
  let n := s.fld Reg.NVC_LOG_NEXT
  let s := (s.setStuck arb).log1 0x31 (arbPlace arb).1 (arbPlace arb).2 0 [input]
  .next <| match cmd with
    | none => s
    | some rq =>
      match s.brokenCond with
      | some c => (s.finishSlot rq.sess rq.tag scConditionBroken (bytesOf [c])).vacate rq.sess rq.tag
      | none => (s.finishSlot rq.sess rq.tag scHwFault (leBytes 4 n)).vacate rq.sess rq.tag

end Sys2Proof.Machine
end

