-- ==== Sys2Proof/Machine/Position.lean ====
section
/-!
DEFINITION. Web position: quadrature inputs, index pulses, speed, serial sensors (chapter 11, R255 to R269), the
interpolated position (R258) and the high-water mark (R161).
-/
namespace Sys2Proof.Machine

/-- A quadrature input. -/
def State.enc (s : State) (e : Nat) : Enc := tabGet {} s.motion.encs e

/-- A quadrature input replaced; CORR_LEFT shows what remains of a correction. -/
def State.setEnc (s : State) (e : Nat) (x : Enc) : State :=
  State.setFldI { s with motion := { s.motion with encs := tabPut {} s.motion.encs e x } }
    (Reg.POS_STATUS_CORR_LEFT e) (clampInt (-512) 511 x.corr)

/-- The input whose MASTER is 1 (R256). -/
def State.masterEnc (s : State) : Option Nat := (List.range 8).find? fun e => s.flag (Reg.POS_CTRL_MASTER e)

/-- The interpolated position of an input (R258). -/
def State.interpolated (s : State) (e : Nat) : Int :=
  let x := s.enc e
  let v := x.stepSpeed
  if s.flag (Reg.POS_CTRL_INTERP_EN e) && s.flag (Reg.POS_STATUS_DIR e) && decide (0 < x.speed)
      && !s.flag (Reg.POS_STATUS_STILL e) then
    let t := min (idxMod - 1) (s.now + 1 - x.lastStep)
    let nxt : Int := ((x.acc + s.fld (Reg.POS_SCALE_NUM e)) / s.fld (Reg.POS_SCALE_DEN e) : Nat)
    x.p + min (v * t / 250000000) (nxt - 1)
  else x.p

/-- The extrapolated position of the latest POSITION (R363). -/
def State.chainPos (s : State) : Int :=
  if s.chain.posLive then
    let t := s.devNs - s.chain.posTime
    max s.chain.posFloor (s.chain.pos + min (s.chain.posSpeed * t / 1000000000) (s.chain.posSpeed * 2000 / 1000000000))
  else s.chain.posFloor

/-- The device takes its position from the ring: no master input, and a chain member (R363). -/
def State.posFromRing (s : State) : Bool := s.masterEnc.isNone && decide (s.chainWidth ≠ 0)

/-- The web position (R255, R256, R258, R363). -/
def State.webPos (s : State) : Int :=
  match s.masterEnc with
  | some e => s.interpolated e
  | none => if s.chainWidth = 0 then 0 else s.chainPos

/-- The web speed in ticks per second: the master's (R265), or that of POSITION. -/
def State.webSpeed (s : State) : Int :=
  match s.masterEnc with
  | some e => (s.enc e).speed
  | none => s.chain.posSpeed

/-- Whether lines fired and pixels captured now carry POS_SUSPECT (R260, R363). -/
def State.posSuspect (s : State) : Bool :=
  match s.masterEnc with
  | some e => !s.flag (Reg.POS_STATUS_INTEGRITY e)
  | none => decide (s.chainWidth ≠ 0) && !s.chain.posIntegrity

/-- A bar's delay D_b (R157). -/
def State.barDelay (s : State) (b : Nat) : Int := s.fld (Reg.DOSE_BAR_DELAY_DELAY b)

/-- A bar. -/
def State.bar (s : State) (b : Nat) : Bar := tabGet {} s.bars b

/-- A bar replaced. -/
def State.setBar (s : State) (b : Nat) (x : Bar) : State := { s with bars := tabPut {} s.bars b x }

/-- A bar in sheet mode (R164). -/
def State.sheetMode (s : State) (b : Nat) : Bool := bitAt (s.fld Reg.FIRE_SHEET_SHEET) b

/-- The sheet of a frame: the last print that begins at or before it, with that line. -/
def Bar.sheetOf (x : Bar) (f : Nat) : Option (Nat × Nat) :=
  ((x.begins.zipIdx.filter fun p => decide (p.1 ≤ f)).map fun p => (p.2, p.1)).getLast?

/-- The image line after the last of print `k`: the next print's first, or the line at which the present print ends. -/
def Bar.printEnd (x : Bar) (k : Nat) : Nat :=
  match x.begins[k + 1]? with
  | some f => f
  | none => if x.pline = 0 then x.line else x.begins.getD k 0 + x.total

/-- The largest ROW_OFF of a map. -/
def maxRowOff (m : List MapEntry) : Nat := (m.map MapEntry.rowOff).foldl max 0

/-- A bar has taken every entry of a closed job. -/
def State.barConsumed (s : State) (b : Nat) : Bool :=
  s.job.closed && decide (s.job.nextEntry ≤ (s.bar b).entry) && decide ((s.bar b).pline = 0) && decide ((s.bar b).slice = 0)

/-- The frames of a bar: once it has taken every entry, those up to F_end (R142); before that all. -/
def State.frameLimit (s : State) (b : Nat) : Option Nat :=
  if s.barConsumed b then
    some (if (s.bar b).line = 0 then 0 else (s.bar b).line + maxRowOff (s.bar b).map)
  else none

/-- The frame after the last frame of sheet `k` (R164): the next print's first image line; of the last print the frame
after F_end, since no next sheet begins (DEDUCED), once the bar has taken every entry. -/
def State.sheetEnd (s : State) (b k : Nat) : Nat :=
  match (s.bar b).begins[k + 1]?, s.frameLimit b with
  | none, some n => n
  | _, _ => (s.bar b).printEnd k

/-- P_F (R224): the due position of frame `f` of a bar with TICK_OFF taken as 0; in sheet mode none before the
sheet's top has come, nor for a frame past the sheets known (R164). -/
def State.dueOf (s : State) (b f : Nat) : Option Int :=
  if s.sheetMode b then
    match (s.bar b).sheetOf f with
    | some (k, f0) =>
      if f < s.sheetEnd b k then
        (s.bar b).sheets[k]?.map fun t => t + s.fld Reg.FIRE_TOS_OFF_OFFSET + 16 * (f - f0 : Nat)
      else none
    | none => none
  else some (s.ppos.offset + s.barDelay b + 16 * f)

/-- Frames from `f` on whose due position H has reached, at most `n`. -/
def State.reachedFrom (s : State) (b : Nat) : Nat → Nat → Nat
  | 0, f => f
  | n + 1, f =>
    match s.dueOf b f with
    | some p => if p ≤ s.ppos.high then s.reachedFrom b n (f + 1) else f
    | none => f

/-- Line events of a bar (Table 12-1): its next frame with TICK_OFF 0 is due; the producer is raised for every frame
that the high-water mark has reached, and the line's tick is kept for the mean period of R173. -/
def State.lineEvents (s : State) (b : Nat) : State :=
  let f := tabGet 0 s.ppos.lineNext b
  let fuel := ((s.ppos.high - s.ppos.offset - s.barDelay b) / 16 + 1).toNat - f
  let fuel := if s.sheetMode b then (s.bar b).line + maxRowOff (s.bar b).map - f else fuel
  let n := s.reachedFrom b fuel f - f
  if n = 0 then s
  else
    let s := { s with
      ppos := { s.ppos with lineNext := tabPut 0 s.ppos.lineNext b (f + n) }
      fire := { s.fire with events := tabPut 0 s.fire.events b (tabGet 0 s.fire.events b + n) } }
    let s := s.setBar b { s.bar b with ticks := (List.replicate (min n 17) s.now ++ (s.bar b).ticks).take 17 }
    (List.range n).foldl (fun s _ => s.raise (67 + b)) s

/-- The web may have moved: H follows the web position upward in every state, so that a frame decided before STOP still
comes due (R161, R163); line events of the job's bars come due while the device prints. -/
def State.webMoved (s : State) : State :=
  let s := { s with ppos := { s.ppos with high := max s.ppos.high s.webPos } }
  if s.st = stPrinting then
    (List.range 16).foldl (fun s b => if s.job.active && bitAt s.job.mask b then s.lineEvents b else s) s
  else s

/-! A step (R256, R261, R263, R265). -/

/-- The count, the scale and the spread correction after a step of sign `d` (R256). -/
def Enc.scaled (x : Enc) (d : Int) (num den : Nat) : Enc :=
  let a : Int := x.acc + d * num
  let corr := x.corr.sign
  { x with c := x.c + d, acc := (a % den).toNat, p := x.p + a / den + corr, corr := x.corr - corr }

/-- The direction flag after a step (R261): the input, the flag, and whether it flipped. -/
def Enc.directed (x : Enc) (fwd : Bool) (revTh now : Nat) : Enc × Bool × Bool :=
  let ahead := if fwd then decide (x.furthest < x.c) else decide (x.c < x.furthest)
  let back := if fwd then x.furthest - x.c else x.c - x.furthest
  if ahead then ({ x with furthest := x.c }, fwd, false)
  else if (revTh : Int) < back then ({ x with furthest := x.c, times := [now] }, !fwd, true)
  else (x, fwd, false)

/-- The number of steps k that period mode spans (R265). -/
def Enc.span (x : Enc) : Nat := min 16 (x.times.length - 1)

/-- The time of those steps in reference ticks. -/
def Enc.spanTicks (x : Enc) : Nat := x.times.getD 0 0 - x.times.getD x.span 0

/-- v of period mode (R265). -/
def State.periodSpeed (s : State) (e : Nat) (x : Enc) (fwd : Bool) : Int :=
  let k := x.span
  if k = 0 then 0
  else (if fwd then 1 else -1) *
    ((k * s.fld (Reg.POS_SCALE_NUM e) * 250000000 / (s.fld (Reg.POS_SCALE_DEN e) * x.spanTicks) : Nat) : Int)

/-- The step rate of period mode is above the change-over (R265). -/
def State.periodFast (s : State) (e : Nat) (x : Enc) : Bool :=
  decide (x.span ≠ 0) && decide (s.fld (Reg.POS_SPDCFG_SPD_TH e) * 1000 * x.spanTicks < x.span * 250000000)

/-- The net steps of the last WIN x 10 us. -/
def State.netSteps (s : State) (e : Nat) (x : Enc) : Int :=
  ((x.window.filter fun q => decide (s.now < q.1 + s.fld (Reg.POS_SPDCFG_WIN e) * 2500)).map Prod.snd).sum

/-- v of count mode (R265). -/
def State.countSpeed (s : State) (e : Nat) (x : Enc) : Int :=
  let n := s.netSteps e x
  n.sign * ((n.natAbs * s.fld (Reg.POS_SCALE_NUM e) * 100000 /
    (s.fld (Reg.POS_SCALE_DEN e) * s.fld (Reg.POS_SPDCFG_WIN e)) : Nat) : Int)

/-- The step rate of count mode has fallen below 7/8 of the change-over (R265). -/
def State.countSlow (s : State) (e : Nat) (x : Enc) : Bool :=
  decide (8 * ((s.netSteps e x).natAbs * 100000 / s.fld (Reg.POS_SPDCFG_WIN e)) < 7 * (s.fld (Reg.POS_SPDCFG_SPD_TH e) * 1000))

/-- The speed measured at a step, and the mode it leaves (R265). -/
def State.measured (s : State) (e : Nat) (x : Enc) (fwd : Bool) : Int × Bool :=
  let count := if s.flag (Reg.POS_STATUS_COUNT_MODE e) then !s.countSlow e x else s.periodFast e x
  if count then (s.countSpeed e x, true) else (s.periodSpeed e x fwd, false)

/-- v_e set and shown. -/
def State.setSpeed (s : State) (e : Nat) (v : Int) : State :=
  (s.setEnc e { s.enc e with speed := v }).setFldI (Reg.POS_SPEED_SPEED e) v

/-- What time does to the speed of an input between steps (R265): in count mode the window moves on, and the input
returns to period mode. -/
def State.speedTick (s : State) (e : Nat) : State :=
  if !s.flag (Reg.POS_STATUS_COUNT_MODE e) then s
  else
    let x := s.enc e
    if s.countSlow e x then
      (s.setFld (Reg.POS_STATUS_COUNT_MODE e) 0).setSpeed e (s.periodSpeed e x (s.flag (Reg.POS_STATUS_DIR e)))
    else s.setSpeed e (s.countSpeed e x)

/-- A member that takes its web position from the ring never falls below what it was (R363). -/
def State.keepFloor (s : State) : State :=
  if s.posFromRing && s.chain.posLive then { s with chain := { s.chain with posFloor := s.chainPos } } else s

/-- What one reference tick does to the inputs (R258, R265, R363): the speeds, and the position between steps and
packets, which the high-water mark and the line events follow. -/
def State.motionTick (s : State) : State := (((List.range 8).foldl State.speedTick s).keepFloor).webMoved

/-- An event of an input's block, under its enable (POS_CTRL.EV_EN). -/
def State.posEvent (s : State) (e bit prod : Nat) : State := s.raiseIf (bitAt (s.fld (Reg.POS_CTRL_EV_EN e)) bit) prod

/-- An accepted step of sign `d` before INVERT. -/
def State.encStep (s : State) (e : Nat) (d0 : Int) : State :=
  let d := if s.flag (Reg.POS_CTRL_INVERT e) then -d0 else d0
  let x := s.enc e
  let fast := x.lastStep != 0 && decide (s.now + 1 ≤ x.lastStep + 12)
  let win := s.fld (Reg.POS_SPDCFG_WIN e) * 2500
  let x := x.scaled d (s.fld (Reg.POS_SCALE_NUM e)) (s.fld (Reg.POS_SCALE_DEN e))
  let x := { x with
    lastStep := s.now + 1
    times := (s.now :: x.times).take 17
    window := (s.now, d) :: x.window.filter (fun q => decide (s.now < q.1 + win)) }
  let s := if fast then
      ((s.setFld (Reg.POS_STATUS_OVERSPEED e) 1).posEvent e 3 100).breachOnce 3 0x20 e
    else s
  let r := x.directed (s.flag (Reg.POS_STATUS_DIR e)) (s.fld (Reg.POS_CTRL_REV_TH e)) s.now
  let s := (s.setFlag (Reg.POS_STATUS_DIR e) r.2.1).setFld (Reg.POS_STATUS_STILL e) 0
  let s := if r.2.2 then s.posEvent e 2 99 else s
  let v := s.measured e r.1 r.2.1
  let s := (s.setEnc e { r.1 with stepSpeed := v.1 }).setFlag (Reg.POS_STATUS_COUNT_MODE e) v.2
  (s.setSpeed e v.1).webMoved

/-- An illegal double step (R260). -/
def State.encDouble (s : State) (e : Nat) : State :=
  let s := (s.bump (Reg.POS_STATUS_QSKIP e)).log1 0x40 0x20 e 0 [e, unsignedOf 64 s.webPos]
  (s.setFld (Reg.POS_STATUS_INTEGRITY e) 0).posEvent e 0 97

/-- The sign of the step that a sample makes under DECODE, if it makes one (R259): A as it became, and which lines
changed. -/
def stepOf (decode : Nat) (a b da db : Bool) : Option Int :=
  let sign : Int := if da then (if a != b then 1 else -1) else (if a == b then 1 else -1)
  match decode with
  | 0 => if da && a then some sign else none
  | 1 => if da then some sign else none
  | _ => if da || db then some sign else none

/-- A filtered sample of an input: the levels are followed always; an enabled input counts (R259, R260). -/
def State.encSample (s : State) (e : Nat) (a b : Bool) : State :=
  let x := s.enc e
  let da := x.a != a
  let db := x.b != b
  let s := s.setEnc e { x with a := a, b := b }
  if !s.flag (Reg.POS_CTRL_ENABLE e) then s
  else
    let decode := s.fld (Reg.POS_CTRL_DECODE e)
    if da && db && decide (decode ≠ 0) then s.encDouble e
    else match stepOf decode a b da db with
      | some d => s.encStep e d
      | none => s

/-- New levels of an input pass its filter once they have been present in FILT consecutive samples (R259). -/
def State.filtered (s : State) (e samples : Nat) : Bool := decide (e < 8) && decide (s.fld (Reg.POS_CTRL_FILT e) ≤ samples)

/-- QUAD_STEP (R256, R259): A and B have had these levels for `samples` consecutive samples. -/
def execQuadStep (enc : Nat) (a b : Bool) (samples : Nat) (s : State) : Result :=
  .next <| if s.filtered enc samples then s.encSample enc a b else s

/-- QUAD_DOUBLE_STEP (R260): A and B both change. -/
def execQuadDoubleStep (enc samples : Nat) (s : State) : Result :=
  .next <| if s.filtered enc samples then s.encSample enc (!(s.enc enc).a) (!(s.enc enc).b) else s

/-- The deviation at an index edge (R262). -/
def indexDeviation (c ref : Int) (rev : Nat) : Int :=
  let half : Int := (rev / 2 : Nat)
  (c - ref + half) % rev - half

/-- An index edge after the reference (R262): the first row of its table that applies. -/
def State.indexCheck (s : State) (e : Nat) : State :=
  let x := s.enc e
  let dev := indexDeviation x.c x.iRef (s.fld (Reg.POS_INDEX_REV e))
  if dev = 0 then s.setFld (Reg.POS_STATUS_INTEGRITY e) 1
  else if dev.natAbs ≤ s.fld (Reg.POS_CTRL_TOL e) then
    let logged := s.log1 0x40 0x20 e 0 [e, unsignedOf 32 dev]
    if s.flag (Reg.POS_CTRL_CORR_EN e) then
      let a : Int := x.acc - dev * s.fld (Reg.POS_SCALE_NUM e)
      let den := s.fld (Reg.POS_SCALE_DEN e)
      let ticks := a / den
      let y := { x with c := x.c - dev, furthest := x.furthest - dev, acc := (a % den).toNat }
      let y := if s.masterEnc = some e then { y with corr := y.corr + ticks } else { y with p := y.p + ticks }
      (logged.setEnc e y).setFld (Reg.POS_STATUS_INTEGRITY e) 1
    else logged
  else
    ((s.setFld (Reg.POS_STATUS_INTEGRITY e) 0).bump (Reg.POS_STATUS_MISMATCH e)).posEvent e 1 98

/-- INDEX_EDGE (R262): producer POS_INDEX_e; the first edge sets the reference, later ones are checked. -/
def execIndexEdge (enc samples : Nat) (s : State) : Result :=
  .next <|
    if !(s.filtered enc samples && s.flag (Reg.POS_CTRL_ENABLE enc)) then s
    else
      let s := s.raise (101 + enc)
      if !s.flag (Reg.POS_STATUS_INDEX_SEEN enc) then
        (s.setEnc enc { s.enc enc with iRef := (s.enc enc).c }).setFld (Reg.POS_STATUS_INDEX_SEEN enc) 1
      else if s.fld (Reg.POS_INDEX_REV enc) = 0 then s
      else s.indexCheck enc

/-- STILL_TIMEOUT (R265): no step for STILL_MS. -/
def execStillTimeout (enc : Nat) (s : State) : Result :=
  .next <|
    if decide (enc < 8) && s.flag (Reg.POS_CTRL_ENABLE enc) then
      (s.setSpeed enc 0).setFld (Reg.POS_STATUS_STILL enc) 1
    else s

/-- What ENABLE of an input becoming 1 does (R259, R262): the present levels are the starting state and the next index
edge sets the reference. -/
def State.encEnabled (s : State) (e : Nat) : State := s.setFld (Reg.POS_STATUS_INDEX_SEEN e) 0

/-- POS_REFERENCE (R266): 0x0305. No step follows the reference yet, so in period mode v is 0 (R265). -/
def execPosReference (rq : Rq) (enc : Nat) (pos : Int) (s : State) : Result :=
  .next <| s.run rq 0x0305 fun s =>
    s.withParams rq 0x0305 [(16, decide (enc < 8) && s.flag (Reg.POS_CTRL_ENABLE enc))] fun s =>
      let x := s.enc enc
      let s := s.setEnc enc { x with c := 0, acc := 0, p := pos, corr := 0, furthest := 0, times := [] }
      let s := if s.flag (Reg.POS_STATUS_COUNT_MODE enc) then s else s.setSpeed enc 0
      let s := (s.setFld (Reg.POS_STATUS_INTEGRITY enc) 1).setFld (Reg.POS_STATUS_INDEX_SEEN enc) 0
      s.finish rq 0x0305 scDone

/-! Serial sensors (R267 to R269). -/

/-- Binary from Gray code, most significant bit first. -/
def grayDecode : List Bool → Bool → List Bool
  | [], _ => []
  | b :: bs, p => (b != p) :: grayDecode bs (b != p)

/-- A sensor's word length in clock cycles. -/
def State.ssiLen (s : State) (u : Nat) : Nat := s.fld (Reg.SSI_CTRL_LEN u) + 1

/-- Whether the word's CRC fails (R268). -/
def State.ssiCrcBad (s : State) (u : Nat) (bits : List Bool) : Bool :=
  let w := s.fld (Reg.SSI_FMT_CRC_LEN u)
  let n := s.ssiLen u - w
  let c := crcBits w (s.fld (Reg.SSI_POLY_POLY u) % 2 ^ w) (s.fld (Reg.SSI_POLY_INIT u) % 2 ^ w) (bits.take n)
  let c := if s.flag (Reg.SSI_CTRL_CRC_INV u) then 2 ^ w - 1 - c else c
  decide (w ≠ 0) && decide (c ≠ msbNat (bits.drop n))

/-- Whether the word's error bit signals an error (R268). -/
def State.ssiErrBit (s : State) (u : Nat) (bits : List Bool) : Bool :=
  let j := s.fld (Reg.SSI_FMT_ERR_POS u)
  s.flag (Reg.SSI_CTRL_ERR_EN u) && decide (j < s.ssiLen u) &&
    (bits.getD j false != s.flag (Reg.SSI_CTRL_ERR_LOW u))

/-- The error of a word: 0 none, 1 NOT_READY, 2 TIMEOUT, 3 ERR_BIT, 4 CRC_FAIL (R267, R268). -/
def State.ssiError (s : State) (u : Nat) (w : SsiWord) : Nat :=
  let bits := (w.bits ++ List.replicate 64 false).take (s.ssiLen u)
  if !w.idle then 1
  else if !w.endHigh then 2
  else if s.ssiErrBit u bits then 3
  else if s.ssiCrcBad u bits then 4
  else 0

/-- The position a word carries. -/
def State.ssiPosition (s : State) (u : Nat) (w : SsiWord) : Nat :=
  let bits := (w.bits ++ List.replicate 64 false).take (s.fld (Reg.SSI_FMT_DATA_BITS u))
  msbNat (if s.flag (Reg.SSI_CTRL_GRAY u) then grayDecode bits false else bits)

/-- A sensor. -/
def State.ssi (s : State) (u : Nat) : Ssi := tabGet {} s.motion.ssis u

/-- A sensor replaced. -/
def State.setSsi (s : State) (u : Nat) (x : Ssi) : State :=
  { s with motion := { s.motion with ssis := tabPut {} s.motion.ssis u x } }

/-- The failed word is the last that a sensor may miss (R269): FAULT, once. -/
def State.ssiMissed (s : State) (u n : Nat) (tag : Option Nat) : State :=
  if s.fld (Reg.SSI_CTRL_MISS_LIMIT u) ≤ n ∧ !s.flag (Reg.SSI_DATA_FAULT u) then
    ((s.setFld (Reg.SSI_DATA_FAULT u) 1).setFld (Reg.SSI_DATA_VALID u) 0).raise 109 tag
  else s

/-- A word taken by a sensor (R267 to R269); `tag` is that of the event that asked for it. A word that is started drives
LEN clock cycles and is time-stamped. -/
def State.ssiWord (s : State) (u : Nat) (w : SsiWord) (tag : Option Nat) : State :=
  let err := s.ssiError u w
  let x := s.ssi u
  let t := s.devTime
  let x := if err = 1 then x else { x with sec := t.sec, ns := t.ns }
  let s := if err = 1 then s else s.emit (.ssiClock u (s.ssiLen u) (s.fld (Reg.SSI_CTRL_DIV u)))
  if err = 0 then
    let s := (s.setFld (Reg.SSI_DATA_POSITION u) (s.ssiPosition u w)).setFld (Reg.SSI_DATA_VALID u) 1
    (s.setFld (Reg.SSI_DATA_FAULT u) 0).setSsi u { x with misses := 0 }
  else
    let s := (s.setFld (Reg.SSI_DATA_LAST_ERR u) err).bump (Reg.SSI_CTRL_ERRORS u)
    (s.setSsi u { x with misses := x.misses + 1 }).ssiMissed u (x.misses + 1) tag

end Sys2Proof.Machine
end

