-- ==== Sys2Proof/Machine/Events.lean ====
section
/-!
DEFINITION. The event matrix (chapter 12, R294 to R303): producers, channels, consumers, pins and capture units.
-/
namespace Sys2Proof.Machine

/-- A consumer input. -/
def State.cons (s : State) (k : Nat) : EvtCons := tabGet {} s.evt.cons k

/-- A consumer input replaced. -/
def State.setCons (s : State) (k : Nat) (x : EvtCons) : State :=
  { s with evt := { s.evt with cons := tabPut {} s.evt.cons k x } }

/-- A channel. -/
def State.chan (s : State) (c : Nat) : EvtChan := tabGet {} s.evt.chans c

/-- A channel replaced. -/
def State.setChan (s : State) (c : Nat) (x : EvtChan) : State :=
  { s with evt := { s.evt with chans := tabPut {} s.evt.chans c x } }

/-- Producer `p` is enabled on channel `c` (EVT_MAT). -/
def State.matEnabled (s : State) (c p : Nat) : Bool :=
  bitAt (s.reg (Reg.EVT_MAT (4 * c + p / 32))).toNat (p % 32)

/-- The channel that consumer `k` selects, if any (EVT_CSEL). -/
def State.selects (s : State) (k : Nat) : Option Nat :=
  let byte := wordBits (s.reg (Reg.EVT_CSEL (k / 4))) (8 * (k % 4) + 7) (8 * (k % 4))
  if bitAt byte 7 then some (byte % 64) else none

/-- The consumers that stay live in DEEP (Table 12-2). -/
def consLive (k : Nat) : Bool := decide (k ≤ 31) || (decide (48 ≤ k) && decide (k ≤ 56))

/-- The producers that stay live in DEEP (Table 12-1). -/
def prodLive (p : Nat) : Bool :=
  decide (p ≤ 31) || (decide (40 ≤ p) && decide (p ≤ 47)) || (decide (97 ≤ p) && decide (p ≤ 108)) || p == 119 ||
    decide (120 ≤ p)

/-- A consumer's task runs, or its least busy time has not passed (R296, R297). -/
def State.consBusy (s : State) (k : Nat) : Bool := (s.cons k).busy || decide (s.now < (s.cons k).hold)

/-- A consumer's task ends: its input is free at least 8 ns after the task began (R297). -/
def State.endTask (s : State) (k : Nat) : State :=
  let x := s.cons k
  if x.busy then s.setCons k { x with busy := false, hold := max x.hold (x.tick + 2) } else s

/-- The tag a consumer's running task gives to the events it raises (R298). -/
def State.taskTag (s : State) (k : Nat) : Option Nat := if (s.cons k).busy then some (s.cons k).tag else none

/-- A capture unit. -/
def State.cap (s : State) (k : Nat) : Capture := tabGet {} s.time.caps k

/-- A capture unit replaced; TSCAP_SEL.VALID shows which hold a capture. -/
def State.setCap (s : State) (k : Nat) (x : Capture) : State :=
  let v := s.fld Reg.TSCAP_SEL_VALID
  State.setFld { s with time := { s.time with caps := tabPut {} s.time.caps k x } } Reg.TSCAP_SEL_VALID
    (if x.valid then setBitAt v k else clearBitAt v k)

/-- TSCAP_k captures device time, the active domain and the web position (R303). -/
def State.capture (s : State) (k : Nat) : State :=
  let t := s.devTime
  s.setCap k ⟨true, t.sec, t.ns, s.activeDom, unsignedOf 64 s.webPos⟩

/-- An event reaches a consumer (R296, R297, R302). WAKE outside ASLEEP starts no task. A
capture unit captures at the moment the event arrives (R303). -/
def State.deliverEvent (s : State) (prod tag k : Nat) : State :=
  let x := s.cons k
  if 85 ≤ k then s
  else if !s.awake && !consLive k then s.bump Reg.EVT_COUNTS_ASLEEP
  else if s.consBusy k then
    (s.setCons k { x with
      lastProd := prod
      ignored := min 65535 (x.ignored + 1)
      coincident := x.coincident || decide (s.now = x.tick) }).setFld Reg.EVT_STATUS_BUSY 1
  else if k = 56 ∧ s.st ≠ stAsleep ∧ !s.flag Reg.PWR_STATUS_ENTERING then s
  else
    let s := s.setCons k { x with busy := true, tag := tag, tick := s.now }
    if 48 ≤ k ∧ k ≤ 55 then s.capture (k - 48) else s

/-- A derived event whose tag the channel passed within LOOP_WIN is dropped (R299). -/
def State.looped (s : State) (c tag : Nat) : Bool :=
  let t := tabGet 0 (s.chan c).passed tag
  t != 0 && decide ((s.now + 1 - t) * 4 ≤ s.fld Reg.EVT_CTRL_LOOP_WIN * 10)

/-- An event meets a channel that enables its producer (R299). -/
def State.passChannel (s : State) (prod tag : Nat) (derived : Bool) (c : Nat) : State :=
  let x := s.chan c
  if derived && s.looped c tag then
    let s := s.setChan c { x with loop := min 65535 (x.loop + 1), lastTag := tag, lastProd := prod }
    (s.setFld Reg.EVT_STATUS_LOOP 1).breachOnce 2 0x29 c
  else
    let s := s.setChan c { x with passed := tabPut 0 x.passed tag (s.now + 1) }
    ((List.range 85).filter (fun k => s.selects k == some c)).foldl (fun s k => s.deliverEvent prod tag k) s

/-- A producer's event leaves through its enabled channels (R294, R298). The operand's tag, or that of the task which
raised it, makes it a derived event; an origin takes TAG_NEXT. Reserved producers never raise, and a producer that is
powered down raises nothing (R302). -/
def State.passEvent (s : State) (prod : Nat) (tag : Option Nat) : State :=
  let w := s.evt.waiting.find? (fun w => w.prod == prod)
  let tag := match tag with | some t => some t | none => w.bind EvtWait.tag
  let s := { s with evt := { s.evt with waiting := s.evt.waiting.filter fun w => w.prod != prod } }
  if 121 ≤ prod ∨ (!s.awake ∧ !prodLive prod) then s
  else
    let s1 := if tag.isSome then s else s.bumpWrap Reg.EVT_STATUS_TAG_NEXT
    let t := match tag with | some t => t % 16 | none => s.fld Reg.EVT_STATUS_TAG_NEXT
    ((List.range 64).filter (fun c => s1.matEnabled c prod)).foldl (fun s c => s.passChannel prod t tag.isSome c) s1

/-- EVENT_RAISE (R294, R298, R299). -/
def execEventRaise (prod : Nat) (tag : Option Nat) (s : State) : Result := .next (s.passEvent prod tag)

/-- EVENT_FIRE (R298): 0x0403. -/
def execEventFire (rq : Rq) (sw : Nat) (s : State) : Result :=
  .next <| s.run rq 0x0403 fun s =>
    s.withParams rq 0x0403 [(16, decide (sw < 8))] fun s => (s.raise (32 + sw)).finish rq 0x0403 scDone

/-- PIN_EDGE (R301): the level of a pin changes and stays for `ns` nanoseconds. An input pin's glitch filter rejects what
is shorter than 5 ns; of what it passes the active edge counts (EVT_PINPOL), and one within 100 ns of the last accepted
is dropped and C3 reported. -/
def execPinEdge (pin : Nat) (level : Bool) (ns : Nat) (s : State) : Result :=
  .next <|
    let t := tabGet 0 s.evt.pins pin
    if 32 ≤ pin ∨ bitAt (s.fld Reg.EVT_PINDIR_OUT) pin ∨ ns < 5 ∨ level = bitAt (s.fld Reg.EVT_PINPOL_LOW) pin then s
    else if t ≠ 0 ∧ s.now + 1 ≤ t + 25 then
      let s := (s.bump Reg.EVT_COUNTS_PIN_OVR).setFld Reg.EVT_STATUS_PIN_LAST pin
      (s.setFld Reg.EVT_STATUS_PIN_OVR 1).breachOnce 3 0x29 pin
    else State.raise { s with evt := { s.evt with pins := tabPut 0 s.evt.pins pin (s.now + 1) } } pin

/-- PIN_PULSE (R301): a pin configured as an output drives PIN_W x 4 ns, active low under EVT_PINPOL;
the consumer stays busy until the pulse's end
and 8 ns. -/
def execPinPulse (pin : Nat) (s : State) : Result :=
  .next <|
    if pin < 32 ∧ (s.cons pin).busy then
      let w := s.fld Reg.EVT_CTRL_PIN_W
      let s := if bitAt (s.fld Reg.EVT_PINDIR_OUT) pin then
          (s.emit (.pinPulse pin w (bitAt (s.fld Reg.EVT_PINPOL_LOW) pin))).setCons pin { s.cons pin with hold := s.now + w + 2 }
        else s
      s.endTask pin
    else s

/-- TSCAP_CAPTURE (R303): an event at TSCAP_k; the unit is busy until its capture is read. -/
def execTscapCapture (unit : Nat) (s : State) : Result :=
  .next <|
    if 8 ≤ unit ∨ (s.cap unit).valid then s
    else
      let x := s.cons (48 + unit)
      (s.capture unit).setCons (48 + unit) { x with busy := true, tick := if x.busy then x.tick else s.now }

/-- A read of TSCAP_POS_HI releases the unit that TSCAP_SEL names (R303). -/
def State.releaseCap (s : State) : State :=
  let k := s.fld Reg.TSCAP_SEL_UNIT
  if (s.cap k).valid then (s.setCap k { s.cap k with valid := false }).endTask (48 + k) else s

/-- SSI_READ (R267 to R269): a word of an enabled sensor, every PERIOD or at event SSI_READ_n. -/
def execSsiRead (unit : Nat) (word : SsiWord) (s : State) : Result :=
  .next <|
    if decide (unit < 8) && s.flag (Reg.SSI_CTRL_ENABLE unit) then
      (s.ssiWord unit word (s.taskTag (77 + unit))).endTask (77 + unit)
    else s.endTask (77 + unit)

end Sys2Proof.Machine
end

