-- ==== Sys2Proof/Machine/Staging.lean ====
section
/-!
DEFINITION. The table-load form (R104): chunks staged by opcode and instance, and the table handed over on LAST.
-/
namespace Sys2Proof.Machine

/-- Bit 0 of the flags byte. -/
def chunkLast (c : Chunk) : Bool := bitAt c.flags 0

/-- Bit 1 of the flags byte. -/
def chunkReset (c : Chunk) : Bool := bitAt c.flags 1

/-- The staging of an opcode and instance. -/
def State.staged (s : State) (op inst : Nat) : Staging := tabGet {} s.cmd.staging (65536 * op + inst)

/-- That staging replaced. -/
def State.setStaged (s : State) (op inst : Nat) (x : Staging) : State :=
  { s with cmd := { s.cmd with staging := tabPut {} s.cmd.staging (65536 * op + inst) x } }

/-- What a chunk comes to (R104): refused with BAD_PARAM at an offset, refused with BAD_LENGTH naming a payload length,
staged, or the last of a whole table. -/
inductive ChunkOutcome where
  | badParam (offset : Nat)
  | badLength (expected : Nat)
  | more (staged : Staging)
  | whole (table : List Byte)
  deriving DecidableEq, Repr

/-- R104 on a chunk, given what is staged. RESET is legal only on CONFIG_LOAD and CONFIG_CHECK. -/
def judgeChunk (mayReset : Bool) (x : Staging) (c : Chunk) : ChunkOutcome :=
  let n := c.data.length
  let fresh := c.offset == 0
  let base : Staging := if fresh then ⟨c.total, chunkReset c, []⟩ else x
  if 4 ≤ c.flags ∨ (chunkReset c ∧ !mayReset) then .badParam 18
  else if !fresh ∧ chunkReset c ≠ x.reset then .badParam 18
  else if !fresh ∧ c.offset ≠ x.data.length then .badParam 20
  else if !fresh ∧ c.total ≠ x.total then .badParam 24
  else if n = 0 then .badLength 16
  else if !chunkLast c ∧ n % 4 ≠ 0 then .badLength (if n < 4 then 16 else 12 + n / 4 * 4)
  else if c.total < c.offset + n ∨ (chunkLast c ∧ c.offset + n ≠ c.total) then
    .badLength (12 + min 4068 (c.total - c.offset))
  else if chunkLast c then .whole (base.data ++ c.data)
  else .more { base with data := base.data ++ c.data }

/-- A chunk of a table-load opcode whose instance is below `limit`: staged and answered, and on LAST handed to
`commit`, which takes the table's bytes and the LAST reply's payload. -/
def State.loadChunk (s : State) (rq : Rq) (op limit : Nat) (mayReset : Bool) (c : Chunk)
    (commit : List Byte → List Byte → State → State) : State :=
  s.withParams rq op [(16, decide (c.inst < limit))] fun s =>
    match judgeChunk mayReset (s.staged op c.inst) c with
    | .badParam o => s.badParam rq op o
    | .badLength n => s.finish rq op scBadLength (leBytes 2 (n + if rq.lock.isSome then 4 else 0))
    | .more x => (s.setStaged op c.inst x).finish rq op scDone (leBytes 4 x.data.length)
    | .whole t => commit t (leBytes 4 t.length ++ leBytes 4 (crc32c t)) (s.setStaged op c.inst {})

/-- 16-bit entries of a table. -/
def halves (t : List Byte) : List Nat := (List.range (t.length / 2)).map fun i => leAt t (2 * i) 2

/-- The byte offset of the first 16-bit entry above a bound. -/
def halfAbove (bound : Nat) (t : List Byte) : Option Nat :=
  ((List.range (t.length / 2)).find? fun i => decide (bound < leAt t (2 * i) 2)).map (2 * ·)

end Sys2Proof.Machine
end

