-- ==== Sys2Proof/Machine/Trajectory.lean ====
section
/-!
DEFINITION. The planned moves and stops of an axis (R270, R271, R276, R279): S-curves of cubic segments in exact rational
arithmetic, and the position at an update in 2^-32 microsteps. DESIGN CHOICE: the rules fix the shape, the limits and the
end of a move and no rounding: durations are whole nanoseconds rounded up, so that every limit holds, the peak speed is a
multiple of 2^-16 microsteps/s, and a position is rounded down.
-/
namespace Sys2Proof.Machine

/-- The largest `r` below 2^k + the given one with r x r below `n`. -/
def rootBelow (n : Nat) : Nat → Nat → Nat
  | 0, r => r
  | k + 1, r => rootBelow n k (if (r + 2 ^ k) * (r + 2 ^ k) < n then r + 2 ^ k else r)

/-- The square root, rounded up. -/
def sqrtUp (n : Nat) : Nat := if n = 0 then 0 else rootBelow n 64 0 + 1

/-- The largest `v` below 2^k + the given one that still fits. -/
def largestFit (fits : Nat → Bool) : Nat → Nat → Nat
  | 0, v => v
  | k + 1, v => largestFit fits k (if fits (v + 2 ^ k) then v + 2 ^ k else v)

/-- Jerk time and constant-acceleration time, in ns, of a ramp between rest and `v` (2^-16 microsteps/s) under an
acceleration and a jerk limit; jerk 0 is no limit (R271). A ramp too short to reach the acceleration has no
constant-acceleration time. -/
def rampTimes (v acc jerk : Nat) : Nat × Nat :=
  let whole := ceilDiv (v * 1000000000) (65536 * acc)
  if jerk = 0 then (0, whole)
  else
    let t1 := min (ceilDiv (acc * 1000000000) jerk) (sqrtUp (ceilDiv (v * 1000000000000000000) (65536 * jerk)))
    (t1, whole - t1)

/-- The length of a ramp in ns. -/
def rampLen (v acc jerk : Nat) : Nat := 2 * (rampTimes v acc jerk).1 + (rampTimes v acc jerk).2

/-- The segments of a ramp from rest to `v`, or of its mirror image down to rest; `sign` is its direction. -/
def rampSegs (down : Bool) (sign : Int) (v acc jerk : Nat) : List AxisSeg :=
  let t := rampTimes v acc jerk
  let top : Rat := sign * v / 65536
  let a : Rat := top * 1000000000 / (t.1 + t.2 : Nat)
  let j : Rat := a * 1000000000 / t.1
  let low : Rat := a * t.1 / 2000000000
  let l : List AxisSeg := if down then
      [⟨t.1, top, 0, -j, true⟩, ⟨t.2, top - low, -a, 0, true⟩, ⟨t.1, low, -a, j, true⟩]
    else [⟨t.1, 0, 0, j, false⟩, ⟨t.2, low, a, 0, false⟩, ⟨t.1, top - low, a, -j, false⟩]
  l.filter fun g => g.dur != 0

/-- The seven segments of a move over `d` microsteps (R271): the peak speed is the largest, up to the move's limit, whose
ramps fit the distance; what they leave is the cruise. -/
def moveSegs (d : Int) (speed acc dec jerk : Nat) : List AxisSeg :=
  if d = 0 then []
  else
    let need := fun v : Nat => v * (rampLen v acc jerk + rampLen v dec jerk)
    let room := d.natAbs * 131072000000000
    let v := max 1 (largestFit (fun v => decide (v ≤ 65536 * speed) && decide (need v ≤ room)) 48 0)
    let left := room - need v
    let t := ceilDiv left (2 * v)
    let cruise : List AxisSeg := if t = 0 then [] else [⟨t, d.sign * left / (131072 * t : Nat), 0, 0, false⟩]
    rampSegs false d.sign v acc jerk ++ cruise ++ rampSegs true d.sign v dec jerk

/-- Seconds. -/
def secondsOf (ns : Nat) : Rat := (ns : Rat) / 1000000000

/-- The way made in the first `u` ns of a segment. -/
def AxisSeg.way (g : AxisSeg) (u : Nat) : Rat :=
  let t := secondsOf u
  g.v * t + g.a * t * t / 2 + g.j * t * t * t / 6

/-- The speed after `u` ns of a segment. -/
def AxisSeg.speedAt (g : AxisSeg) (u : Nat) : Rat :=
  let t := secondsOf u
  g.v + g.a * t + g.j * t * t / 2

/-- The acceleration after `u` ns of a segment. -/
def AxisSeg.accAt (g : AxisSeg) (u : Nat) : Rat := g.a + g.j * secondsOf u

/-- The way made after `u` ns. -/
def wayAt : List AxisSeg → Nat → Rat
  | [], _ => 0
  | g :: t, u => if u ≤ g.dur then g.way u else g.way g.dur + wayAt t (u - g.dur)

/-- The segment in which the `u`-th ns falls, and the ns in it. -/
def segAt : List AxisSeg → Nat → Option (AxisSeg × Nat)
  | [], _ => none
  | g :: t, u => if u < g.dur then some (g, u) else segAt t (u - g.dur)

/-- The time of a plan after its updates, 16 us each (R270). -/
def AxisPlan.time (p : AxisPlan) : Nat := 16000 * p.n

/-- The length of a plan in ns. -/
def AxisPlan.length (p : AxisPlan) : Nat := (p.segs.map AxisSeg.dur).sum

/-- The position of a plan after its updates, in 2^-32 microsteps. -/
def AxisPlan.place (p : AxisPlan) : Int := p.start + (wayAt p.segs p.time * 4294967296).floor

/-- The plan has made its last update. -/
def AxisPlan.over (p : AxisPlan) : Bool := decide (p.length ≤ p.time)

/-- The segments of a stop on the planned ramp from within a plan (R279): an acceleration under way ends under the jerk
limit, and the deceleration ramp follows. -/
def AxisPlan.stopSegs (p : AxisPlan) (g : AxisSeg) (u : Nat) : List AxisSeg :=
  let v := g.speedAt u
  let a := g.accAt u
  let t := if p.jerk = 0 then 0 else (a.abs * 1000000000 / p.jerk).ceil.toNat
  let ease : List AxisSeg := if t = 0 then [] else [⟨t, v, a, -a * 1000000000 / t, false⟩]
  let top := if t = 0 then v else v + a * secondsOf t / 2
  ease ++ rampSegs true (if top < 0 then -1 else 1) (top.abs * 65536).ceil.toNat p.dec p.jerk

/-- A plan stopped on its planned ramp from a position in 2^-32 microsteps: one that decelerates already goes on. -/
def AxisPlan.stopped (p : AxisPlan) (here : Int) : AxisPlan :=
  match segAt p.segs p.time with
  | none => { p with kind := 1, goal := none, start := here, segs := [], n := 0 }
  | some (g, u) =>
    if g.brake then { p with kind := 1 }
    else { p with kind := 1, goal := none, start := here, segs := p.stopSegs g u, n := 0 }

/-- A plan stopped on the emergency ramp (R276): constant deceleration from the present speed, without jerk limit. -/
def AxisPlan.emergency (p : AxisPlan) (here : Int) (edec : Nat) : AxisPlan :=
  let v : Rat := match segAt p.segs p.time with | some (g, u) => g.speedAt u | none => 0
  let t := (v.abs * 1000000000 / (edec : Rat)).ceil.toNat
  { p with
    kind := 2, goal := none, start := here, n := 0
    segs := if t = 0 then [] else [⟨t, v, -v * 1000000000 / t, 0, true⟩] }

/-- A plan whose positions are shifted (R277). -/
def AxisPlan.shifted (p : AxisPlan) (d : Int) : AxisPlan :=
  { p with start := p.start + d * 4294967296, goal := p.goal.map (· + d) }

end Sys2Proof.Machine
end

