-- ==== Sys2Proof/Machine/Axis.lean ====
section
/-!
DEFINITION. The sixteen axes (chapter 11, R270 to R282): moves, homing, stops, FOLLOW, switches, stage faults.
-/
namespace Sys2Proof.Machine

/-! States of Table 11-1. -/

/-- OFF. -/
def axOff : Nat := 0
/-- STANDING. -/
def axStanding : Nat := 1
/-- MOVING. -/
def axMoving : Nat := 2
/-- HOMING. -/
def axHoming : Nat := 3
/-- FOLLOW. -/
def axFollow : Nat := 4
/-- FAULT_LIMIT. -/
def axFaultLimit : Nat := 5
/-- FAULT_STAGE. -/
def axFaultStage : Nat := 6

/-- An axis. -/
def State.axis (s : State) (a : Nat) : Axis := tabGet {} s.motion.axes a

/-- An axis replaced. -/
def State.setAxis (s : State) (a : Nat) (x : Axis) : State :=
  { s with motion := { s.motion with axes := tabPut {} s.motion.axes a x } }

/-- An axis's state. -/
def State.axState (s : State) (a : Nat) : Nat := s.fld (Reg.AX_STATUS_STATE a)

/-- An axis's position in microsteps. -/
def State.axPos (s : State) (a : Nat) : Int := s.fldI (Reg.AX_POS_POS a)

/-- The counter's range (R270). -/
def axMin : Int := -2147483648
/-- The counter's range (R270). -/
def axMax : Int := 2147483647

/-- The position counter set; it saturates at its range. -/
def State.setAxPos (s : State) (a : Nat) (p : Int) : State := s.setFldI (Reg.AX_POS_POS a) (clampInt axMin axMax p)

/-- The position with its 32 fractional bits (R270). -/
def State.axPlace (s : State) (a : Nat) : Int := s.axPos a * 4294967296 + (s.axis a).frac

/-- The position set with its fractional bits. -/
def State.setAxPlace (s : State) (a : Nat) (q : Int) : State :=
  (s.setAxPos a (q / 4294967296)).setAxis a { s.axis a with frac := (q % 4294967296).toNat }

/-- The eight bytes in which replies give a position. -/
def posBytes (p : Int) : List Byte := leBytes 8 (unsignedOf 64 p)

/-- An axis event under its enable: 0 AXIS_DONE (110), 1 AXIS_SOFT_LIMIT (111), 2 AXIS_FAULT (112). -/
def State.axEvent (s : State) (a bit : Nat) (tag : Option Nat := none) : State :=
  s.raiseIf (bitAt (s.fld (Reg.AX_CTRL_EV_EN a)) bit) (110 + bit) tag

/-- A LIFT axis disabled while it stands and the device prints is reported (R281). -/
def State.liftLeft (s : State) (a : Nat) : State :=
  if s.st = stPrinting ∧ s.fld (Reg.AX_CTRL_ROLE a) = 1 ∧ s.axState a = axStanding then s.axEvent a 2 else s

/-- The enable output of an axis in a state: active in every state but OFF and FAULT_STAGE (R273). -/
def axEnOut (st : Nat) : Bool := st != axOff && st != axFaultStage

/-- An axis enters a state of Table 11-1; its enable output follows. -/
def State.axEnter (s : State) (a st : Nat) : State :=
  let was := axEnOut (s.axState a)
  let s := s.setFld (Reg.AX_STATUS_STATE a) st
  if was = axEnOut st then s else s.emit (.axisEnable a (axEnOut st))

/-- The deferred profile comes into force (R280). -/
def Axis.profiled (x : Axis) : Axis :=
  match x.deferred with
  | some (p, d, j) => { x with acc := p, dec := d, jerk := j, deferred := none }
  | none => x

/-- A ramp starts. -/
def State.axPlan (s : State) (a : Nat) (p : AxisPlan) : State :=
  s.setAxis a { s.axis a with plan := some p, hold := false }

/-- A move toward a target starts (R271), under the profile that waits for it if there is one (R280). -/
def State.axStart (s : State) (a st : Nat) (target : Int) (speed : Nat) : State :=
  let x := (s.axis a).profiled
  let s := (s.setAxis a { x with frac := 0 }).setFld (Reg.AX_STATUS_PROFILE_PEND a) 0
  let p : AxisPlan := { start := s.axPlace a, goal := some target, dec := x.dec, jerk := x.jerk,
                        segs := moveSegs (target - s.axPos a) speed x.acc x.dec x.jerk }
  (s.axPlan a p).axEnter a st

/-- A stop ramp starts from whatever runs: planned (1) or emergency (2). -/
def State.axRamp (s : State) (a kind : Nat) : State :=
  match (s.axis a).plan with
  | some p =>
    if kind = 2 then s.axPlan a (p.emergency (s.axPlace a) (s.fld (Reg.AX_EDEC_EDEC a)))
    else if p.kind = 0 then s.axPlan a (p.stopped (s.axPlace a)) else s
  | none => s

/-- The answers that an axis at rest gives: AXIS_MOVE or AXIS_HOME with DONE or HW_FAULT, AXIS_STOP with the position;
a homing that found its edge is answered with the latched position. -/
def State.axAnswer (s : State) (a : Nat) : State :=
  let x := s.axis a
  let pos := match x.homeAt with | some p => posBytes p | none => posBytes (s.axPos a)
  let s := match x.cmd with
    | some c => (match x.fault with
      | some n => s.finishSlot c.sess c.tag scHwFault (leBytes 4 n)
      | none => s.finishSlot c.sess c.tag scDone pos)
    | none => s
  let here := posBytes (s.axPos a)
  let s := x.stops.foldl (fun s c => s.finishSlot c.sess c.tag scDone here) s
  s.setAxis a { s.axis a with plan := none, cmd := none, stops := [], fault := none, homeAt := none, estop := none }

/-! Outputs. -/

/-- Coil setpoints from the microstep table (R272): the position's quadrant and index, scaled by the current. -/
def coilSetpoints (table : List Nat) (u : Nat) (cur : Nat) : Int × Int :=
  let i := u % 256
  let t := fun k => (((table.getD k 0) * cur + 127) / 255 : Nat)
  let up : Int := t i
  let dn : Int := t (255 - i)
  match u / 256 % 4 with
  | 0 => (up, dn)
  | 1 => (dn, -up)
  | 2 => (-up, -dn)
  | _ => (-dn, up)

/-- The 48-bit coil frame (R272). -/
def coilFrame (ab : Int × Int) (seq : Nat) : List Byte :=
  let b := leBytes 2 (unsignedOf 16 ab.1) ++ leBytes 2 (unsignedOf 16 ab.2) ++ leBytes 1 seq
  b ++ leBytes 1 (crcBits 8 7 0 (b.flatMap byteBitsMsb))

/-- A coil frame with the given setpoints. -/
def State.axFrame (s : State) (a : Nat) (ab : Int × Int) : State :=
  let x := s.axis a
  (s.emit (.coilFrame a (coilFrame ab x.seq))).setAxis a { x with seq := (x.seq + 1) % 256 }

/-- What an update issues: a coil frame, or the step pulses between two positions (R272, R273). -/
def State.axIssue (s : State) (a : Nat) (before : Int) : State :=
  let x := s.axis a
  if s.flag (Reg.AX_CTRL_OUT a) then
    let d : Int := (2 ^ s.fld (Reg.AX_CTRL_STEP_SHIFT a) : Nat)
    let n := (s.axPos a).fdiv d - before.fdiv d
    if n = 0 then s else s.emit (.axisSteps a n (s.fld (Reg.AX_DRIVE_STEP_W a)))
  else
    let cur := if x.hold then s.fld (Reg.AX_DRIVE_CUR_HOLD a) else s.fld (Reg.AX_DRIVE_CUR_RUN a)
    s.axFrame a (coilSetpoints x.table (unsignedOf 32 (s.axPos a)) cur)

/-- A staged microstep table comes into force while the axis is not MOVING, HOMING or FOLLOW (R272). -/
def State.axTable (s : State) (a : Nat) : State :=
  let x := s.axis a
  match x.staged with
  | some t =>
    if [axMoving, axHoming, axFollow].contains (s.axState a) then s
    else s.setAxis a { x with table := t, staged := none }
  | none => s

/-! Switch inputs. -/

/-- A switch selection of AX_SW: the input number, when its valid bit is set. -/
def switchOf (v : Nat) : Option Nat := if bitAt v 5 then some (v % 32) else none

/-- HOME, LIM_POS, LIM_NEG, STEP_IN and DIR_IN of an axis, with the polarity bit of each (R276). -/
def State.axSwitch (s : State) (a which : Nat) : Option Nat :=
  switchOf <| match which with
    | 0 => s.fld (Reg.AX_SW_HOME a)
    | 1 => s.fld (Reg.AX_SW_LIM_POS a)
    | 2 => s.fld (Reg.AX_SW_LIM_NEG a)
    | 3 => s.fld (Reg.AX_SW_STEP_IN a)
    | _ => s.fld (Reg.AX_SW_DIR_IN a)

/-- The level of a switch input that an axis has accepted. -/
def State.axLevel (s : State) (a sw : Nat) : Bool := tabGet false s.motion.switches (32 * a + sw)

/-- Whether an axis's named switch is active: its accepted level against its polarity. -/
def State.axActive (s : State) (a which : Nat) : Bool :=
  match s.axSwitch a which with
  | some k => s.axLevel a k != bitAt (s.fld (Reg.AX_SWCFG_ACT_LOW a)) which
  | none => false

/-- Whether an axis's DIR_IN is active: the raw level, since the debounce is bypassed (R274). -/
def State.axDirIn (s : State) (a : Nat) : Bool :=
  match s.axSwitch a 4 with
  | some k => tabGet false s.motion.raw k != bitAt (s.fld (Reg.AX_SWCFG_ACT_LOW a)) 4
  | none => false

/-- A limit switch of the axis is accepted active. -/
def State.axAtLimit (s : State) (a : Nat) : Bool := s.axActive a 1 || s.axActive a 2

/-- LIM_ACT shows whether a limit input of the axis is active. -/
def State.showLimit (s : State) (a : Nat) : State := s.setFlag (Reg.AX_STATUS_LIM_ACT a) (s.axAtLimit a)

/-- The counter and the motion under way shifted (R277). -/
def State.axShift (s : State) (a : Nat) (d : Int) : State :=
  let s := s.setAxPos a (s.axPos a + d)
  s.setAxis a { s.axis a with plan := (s.axis a).plan.map (·.shifted d) }

/-- Home is not established after all (R278, R282): the counter is as before the shift. -/
def State.homeUndone (s : State) (a : Nat) : State :=
  if (s.axis a).homeAt.isNone then s
  else
    let s := (s.axShift a (-(s.axis a).homeShift)).setFld (Reg.AX_STATUS_HOMED a) 0
    s.setAxis a { s.axis a with homeAt := none }

/-- A limit trip (R276, R282): the emergency ramp, FAULT_LIMIT, a log entry with the latched position, AXIS_FAULT. A
command under way ends with HW_FAULT, and a homing establishes no home. -/
def State.limitTrip (s : State) (a : Nat) : State :=
  if s.axState a = axOff ∨ s.axState a = axFaultStage then s
  else
    let n := s.fld Reg.NVC_LOG_NEXT
    let s := s.log1 0x40 0x22 a 0 [axFaultLimit, unsignedOf 32 (s.axis a).limitEdge]
    let s := if s.axState a = axHoming then s.homeUndone a else s
    let s := if (s.axis a).cmd.isSome then
        (s.setFld (Reg.AX_STATUS_LIMIT_FAIL a) 1).setAxis a { s.axis a with fault := some n }
      else s
    let s := match (s.axis a).plan with
      | some p => if p.kind = 2 then s else s.axRamp a 2
      | none => s
    let s := s.setAxis a { s.axis a with followTotal := 0, followDone := 0, followTick := 0, followEnd := false }
    ((s.axEnter a axFaultLimit).axEvent a 2)

/-! Rest. -/

/-- An axis enters FOLLOW (R274). -/
def State.axFollowing (s : State) (a : Nat) : State :=
  (s.setAxis a { s.axis a with
    followTotal := 0, followDone := 0, followUpd := 0, followTick := 0, followPeriod := 0, followEnd := false,
    hold := false }).axEnter a axFollow

/-- An axis comes to rest or is enabled: STANDING, from which FOLLOW = 1 takes it to FOLLOW (R274), and a limit switch
that is active to FAULT_LIMIT (R276). -/
def State.axSettle (s : State) (a : Nat) : State :=
  let s := s.axEnter a axStanding
  if s.axAtLimit a then s.limitTrip a else if s.flag (Reg.AX_CTRL_FOLLOW a) then s.axFollowing a else s

/-- The axis stands: AXIS_DONE, and the answers. A limit or stage fault keeps its state. -/
def State.axStand (s : State) (a : Nat) : State :=
  let keep := s.axState a == axFaultLimit || s.axState a == axFaultStage || s.axState a == axOff
  let tag := (s.axis a).estop
  let s := ((if keep then s else s.axEnter a axStanding).axEvent a 0 tag).axAnswer a
  (if keep then s else s.axSettle a).endTask (57 + a)

/-- The home edge is accepted (R277): the point latched there becomes HOME_OFF, the counter is shifted, HOMED is set and
the axis stops on its planned ramp. An acceptance whose edge came before this homing is none. -/
def State.homeFound (s : State) (a : Nat) : State :=
  match (s.axis a).homeEdge with
  | none => s
  | some at_ =>
    let d := s.fldI (Reg.AX_HOME_OFF_HOME_OFF a) - at_
    let s := (s.axRamp a 1).axShift a d
    (s.setFld (Reg.AX_STATUS_HOMED a) 1).setAxis a { s.axis a with homeAt := some at_, homeShift := d }

/-- AX_SW or AX_SWCFG written: a limit that the axis now names and that is active trips it. -/
def State.limitSelected (s : State) (a : Nat) : State :=
  let s := s.showLimit a
  if s.axAtLimit a ∧ s.axState a ≠ axFaultLimit then s.limitTrip a else s

/-- A level that a switch input has held for `us` microseconds, at the axes whose STABLE that is (R276). -/
def State.switchTo (s : State) (a sw : Nat) (level : Bool) (us : Nat) : State :=
  if us < s.fld (Reg.AX_SWCFG_STABLE a) then s
  else
    let was := s.axLevel a sw
    let s := { s with motion := { s.motion with switches := tabPut false s.motion.switches (32 * a + sw) level } }
    let s := s.showLimit a
    if was = level then s
    else if (s.axSwitch a 1 == some sw && s.axActive a 1) || (s.axSwitch a 2 == some sw && s.axActive a 2) then s.limitTrip a
    else if s.axSwitch a 0 == some sw && s.axState a == axHoming && (s.axis a).homeAt.isNone then s.homeFound a
    else s

/-- SWITCH_ACCEPT (R276, R277, R282): a level held for `us` microseconds; a limit wins over a home edge. -/
def execSwitchAccept (sw : Nat) (level : Bool) (us : Nat) (s : State) : Result :=
  .next <|
    if 32 ≤ sw then s
    else
      let s := { s with motion := { s.motion with raw := tabPut false s.motion.raw sw level } }
      (List.range 16).foldl (fun s a => s.switchTo a sw level us) s

/-! Updates. -/

/-- One update of a plan (R270, R271): the last update of a move is its target. -/
def State.axAdvance (s : State) (a : Nat) (p : AxisPlan) : State :=
  let p := { p with n := p.n + 1 }
  let here := match p.goal with
    | some g => if p.over then g * 4294967296 else p.place
    | none => p.place
  let s := s.setAxPlace a here
  let s := s.setAxis a { s.axis a with plan := some p }
  if p.over then s.axStand a else s

/-- A soft limit holds a FOLLOW axis or binds a move (R275). -/
def State.softLimited (s : State) (a : Nat) : State := (s.setFld (Reg.AX_STATUS_SOFT_LIMIT a) 1).axEvent a 1

/-- A FOLLOW axis's counter moved by `d` (R275): at a soft limit or the counter's range it saturates, and what is left of
the input step is dropped. -/
def State.axFollowMove (s : State) (a : Nat) (d : Int) : State :=
  let homed := s.flag (Reg.AX_STATUS_HOMED a)
  let lo := if homed then s.fldI (Reg.AX_SOFT_LO_SOFT_LO a) else axMin
  let hi := if homed then s.fldI (Reg.AX_SOFT_HI_SOFT_HI a) else axMax
  let goal := s.axPos a + d
  let here := clampInt (min lo (s.axPos a)) (max hi (s.axPos a)) goal
  let s := s.setAxPos a here
  if here = goal then s
  else
    let s := s.setAxis a { s.axis a with followTotal := 0, followDone := 0 }
    if homed then s.softLimited a else s

/-- The microsteps of the last input step that are due after `upd` updates, spread evenly over the period (R274). -/
def followDue (total : Int) (period upd : Nat) : Int :=
  if period ≤ 4000 * upd then total else total * (4000 * upd : Nat) / period

/-- An update in FOLLOW (R274). Once FOLLOW is cleared and the last step issued, the axis stands. -/
def State.axFollowUpdate (s : State) (a : Nat) : State :=
  let x := s.axis a
  let due := followDue x.followTotal x.followPeriod (x.followUpd + 1)
  let s := (s.setAxis a { x with followUpd := x.followUpd + 1, followDone := due }).axFollowMove a (due - x.followDone)
  let y := s.axis a
  if y.followEnd ∧ y.followDone = y.followTotal then
    (s.setAxis a { y with followEnd := false, followTotal := 0, followDone := 0, followTick := 0 }).axSettle a
  else s

/-- AXIS_UPDATE (R270 to R274): every 16 us. -/
def execAxisUpdate (axis : Nat) (s : State) : Result :=
  .next <|
    if 16 ≤ axis ∨ s.axState axis = axOff ∨ s.axState axis = axFaultStage ∨ !s.awake then s
    else
      let s := s.axTable axis
      let before := s.axPos axis
      let s := if s.axState axis = axFollow then s.axFollowUpdate axis
        else match (s.axis axis).plan with
          | some p => s.axAdvance axis p
          | none => s
      s.axIssue axis before

/-- AXIS_HOLD_CURRENT (R272): standing for 100 ms. -/
def execAxisHoldCurrent (axis : Nat) (s : State) : Result :=
  .next <| if axis < 16 ∧ s.axState axis = axStanding ∧ s.awake then s.setAxis axis { s.axis axis with hold := true } else s

/-- The homing fails by chatter (R278): the axis stops on its planned ramp; HW_FAULT with the entry HOME_CHATTER. -/
def State.chatterFail (s : State) (a : Nat) : State :=
  let n := s.fld Reg.NVC_LOG_NEXT
  let s := (s.log1 0x40 0x22 a 0 [axHoming, unsignedOf 32 ((s.axis a).homeEdge.getD 0)]).setFld
    (Reg.AX_STATUS_CHATTER_FAIL a) 1
  let s := (s.homeUndone a).axRamp a 1
  (s.setAxis a { s.axis a with fault := some n }).axEnter a axMoving

/-- SWITCH_RAW_EDGE (R276 to R278): a raw edge latches the position for the axes that use the input, and counts toward
CHATTER in a homing. -/
def execSwitchRawEdge (sw : Nat) (level : Bool) (s : State) : Result :=
  .next <|
    let s := { s with motion := { s.motion with raw := tabPut false s.motion.raw sw level } }
    (List.range 16).foldl (fun s a =>
      let s := if s.axSwitch a 1 == some sw || s.axSwitch a 2 == some sw then
          s.setAxis a { s.axis a with limitEdge := s.axPos a }
        else s
      if s.axSwitch a 0 == some sw && s.axState a == axHoming then
        let x := s.axis a
        let s := s.setAxis a { x with homeEdge := some (s.axPos a), edges := x.edges + 1 }
        if s.fld (Reg.AX_SWCFG_CHATTER a) < x.edges + 1 then s.chatterFail a else s
      else s) s

/-! FOLLOW (R274, R275). -/

/-- FOLLOW_STEP: a rising edge of STEP_IN. The predecessor's remainder completes at once; the new microsteps are spread
over the period between the two previous steps. -/
def execFollowStep (axis : Nat) (s : State) : Result :=
  .next <|
    if 16 ≤ axis ∨ s.axState axis ≠ axFollow then s
    else
      let x := s.axis axis
      let s := s.axFollowMove axis (x.followTotal - x.followDone)
      let n : Int := (2 ^ s.fld (Reg.AX_CTRL_IN_SHIFT axis) : Nat)
      let d := if s.axDirIn axis then n else -n
      let homed := s.flag (Reg.AX_STATUS_HOMED axis)
      let beyond := homed && ((decide (0 < d) && decide (s.fldI (Reg.AX_SOFT_HI_SOFT_HI axis) ≤ s.axPos axis)) ||
        (decide (d < 0) && decide (s.axPos axis ≤ s.fldI (Reg.AX_SOFT_LO_SOFT_LO axis))))
      let period := if x.followTick = 0 then 0 else min 2500000 (s.now + 1 - x.followTick)
      let s := s.setAxis axis { s.axis axis with
        followTotal := if beyond then 0 else d, followDone := 0, followUpd := 0, followTick := s.now + 1,
        followPeriod := period }
      if beyond then
        (s.bump (Reg.AX_STATUS_DROPPED axis)).softLimited axis
      else s

/-- What a write of FOLLOW does beside the field: a STANDING axis enters FOLLOW; clearing it returns the axis to
STANDING once its last step has been issued. -/
def State.followWritten (s : State) (a : Nat) : State :=
  if s.flag (Reg.AX_CTRL_FOLLOW a) then
    if s.axState a = axStanding then s.axFollowing a else s
  else if s.axState a = axFollow then
    let x := s.axis a
    if x.followDone = x.followTotal then s.axSettle a else s.setAxis a { x with followEnd := true }
  else s

/-- FOLLOW ends without issuing its remainder (R279); FOLLOW reads 0 after it. -/
def State.followStop (s : State) (a : Nat) : State :=
  let s := s.setAxis a { s.axis a with followTotal := 0, followDone := 0, followTick := 0, followEnd := false }
  (s.setFld (Reg.AX_CTRL_FOLLOW a) 0).axSettle a

/-! Faults, enabling, stopping. -/

/-- AXIS_STAGE_FAULT (R279, R282): FAULT_STAGE over every other state, OFF included; outputs inactive and setpoints 0 at
once. -/
def execAxisStageFault (axis : Nat) (s : State) : Result :=
  .next <|
    if 16 ≤ axis then s
    else
      let s := s.setFld (Reg.AX_STATUS_FLT_IN axis) 1
      if s.axState axis = axFaultStage then s
      else
        let n := s.fld Reg.NVC_LOG_NEXT
        let s := s.log1 0x40 0x22 axis 0 [axFaultStage, unsignedOf 32 (s.axPos axis)]
        let s := (s.axEvent axis 2).setFld (Reg.AX_STATUS_HOMED axis) 0
        let s := s.axEnter axis axFaultStage
        let s := if s.flag (Reg.AX_CTRL_OUT axis) then s else s.axFrame axis (0, 0)
        (s.setAxis axis { s.axis axis with fault := some n, homeAt := none, followTotal := 0, followDone := 0 }).axAnswer
          axis |>.endTask (57 + axis)

/-- What a write of ENABLE does beside the field (R277, R279): 1 takes an OFF axis to STANDING, 0 any axis to OFF. -/
def State.axEnabled (s : State) (a : Nat) : State :=
  if s.flag (Reg.AX_CTRL_ENABLE a) then (if s.axState a = axOff then s.axSettle a else s)
  else if s.axState a = axOff then s
  else
    let s := s.liftLeft a
    let s := (s.axEnter a axOff).setFld (Reg.AX_STATUS_HOMED a) 0
    let s := s.setFld (Reg.AX_STATUS_FLT_IN a) 0
    (s.setAxis a { s.axis a with followTotal := 0, followDone := 0, followEnd := false, hold := false }).axAnswer a
      |>.endTask (57 + a)

/-- An axis at rest. -/
def State.axRest (s : State) (a : Nat) : Bool := (s.axis a).plan.isNone && s.axState a != axFollow

/-- An emergency stop of an axis (R279, R106). -/
def State.axEstop (s : State) (a : Nat) : State :=
  if s.axState a = axFollow then s.followStop a
  else match (s.axis a).plan with
    | some p => if p.kind = 2 then s else s.axRamp a 2
    | none => s

/-- AXIS_ESTOP (R279): an event at AXIS_ESTOP_a; the task ends when the axis stands. -/
def execAxisEstop (axis : Nat) (s : State) : Result :=
  .next <|
    if 16 ≤ axis then s
    else
      let tag := s.taskTag (57 + axis)
      let s := s.axEstop axis
      if s.axRest axis then s.endTask (57 + axis)
      else s.setAxis axis { s.axis axis with estop := tag }

/-- AXIS_STOP (R279): 0x0301. -/
def execAxisStop (rq : Rq) (axis ramp : Nat) (s : State) : Result :=
  .next <| s.run rq 0x0301 fun s =>
    s.withParams rq 0x0301 [(16, decide (axis < 16)), (17, decide (ramp < 2))] fun s =>
      if s.axState axis = axFollow then
        let s := s.followStop axis
        s.finish rq 0x0301 scDone (posBytes (s.axPos axis))
      else match (s.axis axis).plan with
        | none => s.finish rq 0x0301 scDone (posBytes (s.axPos axis))
        | some p =>
          let s := if p.kind < ramp + 1 then s.axRamp axis (ramp + 1) else s
          let s := if s.axState axis = axHoming ∧ (s.axis axis).homeAt.isNone then s.axEnter axis axMoving else s
          let x := s.axis axis
          (s.setAxis axis { x with stops := x.stops ++ [⟨rq.sess, rq.tag⟩] }).pend rq 0x0301

/-- In FAULT_LIMIT only a motion away from the active limit is accepted (R276). -/
def State.awayFromLimit (s : State) (a : Nat) (positive : Bool) : Bool :=
  if s.axState a = axFaultLimit then
    (if positive then !s.axActive a 1 else !s.axActive a 2) && (s.axActive a 1 || s.axActive a 2)
  else true

/-- In PRINTING a LIFT axis moves at no command's word (R281). -/
def State.liftLocked (s : State) (a : Nat) : Bool :=
  decide (s.st = stPrinting) && decide (a < 16) && decide (s.fld (Reg.AX_CTRL_ROLE a) = 1)

/-- An axis that takes no new motion: MOVING, HOMING or FOLLOW, or a ramp still runs (R271). -/
def State.axBusy (s : State) (a : Nat) : Bool :=
  [axMoving, axHoming, axFollow].contains (s.axState a) || (s.axis a).plan.isSome

/-- Soft limits bind a homed axis (R275): the target, held to them. -/
def State.softTarget (s : State) (a : Nat) (t : Int) : Int :=
  if s.flag (Reg.AX_STATUS_HOMED a) then
    clampInt (s.fldI (Reg.AX_SOFT_LO_SOFT_LO a)) (s.fldI (Reg.AX_SOFT_HI_SOFT_HI a)) t
  else t

/-- AXIS_MOVE (R270, R271, R275, R276, R281): 0x0300. -/
def execAxisMove (rq : Rq) (axis mode : Nat) (target : Int) (speed : Nat) (s : State) : Result :=
  .next <| s.run rq 0x0300 fun s =>
    if s.liftLocked axis then s.finish rq 0x0300 scStateRefused
    else
      let goal := if mode = 1 then s.axPos axis + target else target
      let on := s.axState axis != axOff && s.axState axis != axFaultStage
      s.withParams rq 0x0300
        [(16, decide (axis < 16) && on), (17, decide (mode < 2) &&
            (s.axBusy axis || s.awayFromLimit axis (decide (s.axPos axis < goal)))),
         (20, decide (axMin ≤ goal) && decide (goal ≤ axMax)), (28, decide (speed ≠ 0))] fun s =>
        if s.axBusy axis then s.finish rq 0x0300 scResourceBusy
        else
          let t := s.softTarget axis goal
          let s := if t = goal then s else s.softLimited axis
          let s := (s.pend rq 0x0300).axStart axis axMoving t speed
          s.setAxis axis { s.axis axis with cmd := some ⟨rq.sess, rq.tag⟩, fault := none, homeAt := none }

/-- AXIS_HOME (R277): 0x0302. -/
def execAxisHome (rq : Rq) (axis dir : Nat) (s : State) : Result :=
  .next <| s.run rq 0x0302 fun s =>
    if s.liftLocked axis then s.finish rq 0x0302 scStateRefused
    else
      let on := s.axState axis != axOff && s.axState axis != axFaultStage
      s.withParams rq 0x0302
        [(16, decide (axis < 16) && on),
         (17, decide (dir < 2) && (s.axBusy axis || s.awayFromLimit axis (decide (dir = 1))))] fun s =>
        if s.axBusy axis then s.finish rq 0x0302 scResourceBusy
        else
          let s := (s.pend rq 0x0302).setFld (Reg.AX_STATUS_HOMED axis) 0
          let s := s.axStart axis axHoming (if dir = 1 then axMax else axMin) (s.fld (Reg.AX_HOME_SPD_HOME_SPD axis))
          s.setAxis axis { s.axis axis with
            cmd := some ⟨rq.sess, rq.tag⟩, fault := none, homeAt := none, homeEdge := none, homeShift := 0, edges := 0 }

/-- AXIS_PROFILE_SET (R280): 0x0303. -/
def execAxisProfileSet (rq : Rq) (axis acc dec jerk : Nat) (s : State) : Result :=
  .next <| s.run rq 0x0303 fun s =>
    s.withParams rq 0x0303 [(16, decide (axis < 16)), (20, decide (acc ≠ 0)), (24, decide (dec ≠ 0))] fun s =>
      let x := s.axis axis
      if s.axState axis = axMoving ∨ s.axState axis = axHoming then
        ((s.setAxis axis { x with deferred := some (acc, dec, jerk) }).setFld (Reg.AX_STATUS_PROFILE_PEND axis) 1).finish
          rq 0x0303 scDeferred
      else
        ((s.setAxis axis { x with acc := acc, dec := dec, jerk := jerk, deferred := none }).setFld
          (Reg.AX_STATUS_PROFILE_PEND axis) 0).finish rq 0x0303 scDone

/-- MICROSTEP_LOAD (R272): 0x0304; 256 entries of 0 to 4,095. -/
def execMicrostepLoad (rq : Rq) (chunk : Chunk) (s : State) : Result :=
  .next <| s.run rq 0x0304 fun s =>
    s.loadChunk rq 0x0304 16 false chunk fun t reply s =>
      if t.length ≠ 512 then s.reject rq 0x0304 2 0x22 0
      else match halfAbove 4095 t with
        | some o => s.reject rq 0x0304 2 0x22 o
        | none =>
          (s.setAxis chunk.inst { s.axis chunk.inst with staged := some (halves t) }).finish rq 0x0304 scDone reply

/-- AXIS_STATUS (Table 04-7, AXIS register fields): 0x0306. -/
def execAxisStatus (rq : Rq) (axis : Nat) (s : State) : Result :=
  .next <| s.run rq 0x0306 fun s =>
    s.withParams rq 0x0306 [(16, decide (axis < 16))] fun s =>
      s.finish rq 0x0306 scDone (posBytes (s.axPos axis) ++ bytesOf [s.axState axis, 0, 0, 0] ++
        leBytes 4 (s.reg (Reg.AX_STATUS axis)).toNat)

end Sys2Proof.Machine
end

