-- ==== Sys2Proof/Machine/Bars.lean ====
section
/-!
DEFINITION. What bars, boards and the job are to each other: nozzle maps, profiles, rates, and the Concertina's fill
(R135, R138, R155, R166).
-/
namespace Sys2Proof.Machine

/-- A head board. -/
def State.board (s : State) (k : Nat) : Board := tabGet {} s.fire.boards k

/-- A head board replaced. -/
def State.setBoard (s : State) (k : Nat) (x : Board) : State :=
  { s with fire := { s.fire with boards := tabPut {} s.fire.boards k x } }

/-- A field of a board's profile in force; 0 without one. -/
def State.prof (s : State) (k o n : Nat) : Nat :=
  match (s.board k).profile with
  | some p => leAt p o n
  | none => 0

/-- Whether a board's profile is in force. -/
def State.hasProf (s : State) (k : Nat) : Bool := (s.board k).profile.isSome

/-- NOZZLES of the profile, B_k. -/
def State.boardNozzles (s : State) (k : Nat) : Nat := s.prof k 0 2

/-- Nozzles of a bar, N_b; 0 without a map. -/
def State.barN (s : State) (b : Nat) : Nat := (s.bar b).map.length

/-- Whether a bar has a nozzle map in force. -/
def State.barMapped (s : State) (b : Nat) : Bool := !(s.bar b).map.isEmpty

/-- The boards that a map names, ascending. -/
def mapBoards (m : List MapEntry) : List Nat := (List.range 48).filter fun k => m.any fun e => e.board == k

/-- The boards of a bar, ascending. -/
def State.barBoards (s : State) (b : Nat) : List Nat := mapBoards (s.bar b).map

/-- The bar of a board: the bar whose map in force names it (R166). -/
def State.boardBar (s : State) (k : Nat) : Option Nat :=
  (List.range 16).find? fun b => (s.bar b).map.any fun e => e.board == k

/-- A board is in use when its profile is in force and a map in force names it (R166). -/
def State.boardUsed (s : State) (k : Nat) : Bool := s.hasProf k && (s.boardBar k).isSome

/-- r_b of R138: RATE_MAX of the profiles of the bar's boards, 0 while none has one. -/
def State.barRate (s : State) (b : Nat) : Nat :=
  match (s.barBoards b).find? s.hasProf with
  | some k => s.prof k 8 4
  | none => 0

/-- The device's nozzle total (R135). -/
def State.nozzles (s : State) : Nat := ((List.range 16).map s.barN).sum

/-- base(b) of R135. -/
def State.nozzleBase (s : State) (b : Nat) : Nat := ((List.range b).map s.barN).sum

/-- Bar and bar position of a nozzle index (R135). -/
def State.nozzleAt (s : State) (i : Nat) : Option (Nat × Nat) :=
  ((List.range 16).find? fun b => decide (s.nozzleBase b ≤ i) && decide (i < s.nozzleBase b + s.barN b)).map
    fun b => (b, i - s.nozzleBase b)

/-- The smallest ROW_OFF of a map. -/
def minRowOff (m : List MapEntry) : Nat := (m.map MapEntry.rowOff).foldl min 255

/-- DOSE_DEPTH is 4BIT. -/
def State.deep4 (s : State) : Bool := s.flag Reg.DOSE_CTRL_DEPTH

/-- Bits per dose, db of R141. -/
def State.doseBits (s : State) : Nat := if s.deep4 then 4 else 2

/-- The top dose level. -/
def State.topDose (s : State) : Nat := if s.deep4 then 15 else 3

/-- BUFFER_GUARD is MIRROR. -/
def State.mirrored (s : State) : Bool := !s.flag Reg.DOSE_CTRL_GUARD

/-- Whether a bar is in the open job's mask. -/
def State.jobBar (s : State) (b : Nat) : Bool := s.job.active && bitAt s.job.mask b

/-- The bars of the job's mask. -/
def State.jobBars (s : State) : List Nat := (List.range 16).filter s.jobBar

/-- A bar in use: LINES is not 0 (Table 06-13). -/
def State.barUsed (s : State) (b : Nat) : Bool := s.flag (Reg.DOSE_BAR_BUF_LINES b)

/-- The bars in use. -/
def State.usedBars (s : State) : List Nat := (List.range 16).filter s.barUsed

/-- The bars of the running job: those of its mask in ARMED, PRINTING and PAUSED. -/
def State.runningBars (s : State) : List Nat :=
  if s.inSt [stArmed, stPrinting, stPaused] then s.jobBars else []

/-- Frames that a board has fired. -/
def Board.fired (x : Board) : Nat := x.dec - (x.decided.filter fun d => !d.strobed).length

/-- Frames that a bar has fired: those every board in use has fired. -/
def State.barFired (s : State) (b : Nat) : Nat :=
  match (s.barBoards b).filter s.boardUsed with
  | [] => 0
  | k :: ks => (ks.map fun j => (s.board j).fired).foldl min (s.board k).fired

/-- The Concertina fill (R155), shown in DOSE_BARb_CONC.FILL with AT_MAX. -/
def State.showFill (s : State) (b : Nat) : State :=
  let n := min 65535 ((s.bar b).frame - s.barFired b)
  (s.setFld (Reg.DOSE_BAR_CONC_FILL b) n).setFlag (Reg.DOSE_BAR_STATUS_AT_MAX b)
    (decide (n = s.fld (Reg.DOSE_BAR_CONC_MAX b)))

/-! Bar buffers in device memory (R152, R224, R305 to R309). -/

/-- D, the deterministic channels of a stack. -/
def State.detD (s : State) : Nat := s.fld Reg.MEM_DET_D

/-- BAR_BUF's base (Table 13-1). -/
def State.barBufBase (s : State) : Nat := 0x1000000000 - s.detD * 0x100000000

/-- PSTACK_b. -/
def State.pstack (s : State) (b : Nat) : Nat := s.fld (Reg.DOSE_BAR_BUF_PSTACK b)

/-- A board's payload in bytes. -/
def State.payloadBytes (s : State) (k : Nat) : Nat := ceilDiv (s.boardNozzles k * s.doseBits) 8

/-- A board's payload in bytes, padded to 64 (R152). -/
def State.paddedPayload (s : State) (k : Nat) : Nat := 64 * ceilDiv (s.payloadBytes k) 64

/-- Bytes of payloads in a slot of a bar. -/
def State.slotBytes (s : State) (b : Nat) : Nat := ((s.barBoards b).map s.paddedPayload).sum

/-- Bytes of a slot's descriptors. -/
def State.descBytes (s : State) (b : Nat) : Nat := 16 * (s.barBoards b).length

/-- Bytes of a slot's entry of the fate ring (R309). -/
def State.fateBytes (s : State) (b : Nat) : Nat := 16 * ceilDiv (8 + (s.barBoards b).length) 16

/-- Units of 2 MiB that one copy of a bar takes. -/
def State.copyUnits (s : State) (b : Nat) : Nat :=
  ceilDiv (s.fld (Reg.DOSE_BAR_BUF_LINES b) * (s.slotBytes b + s.descBytes b + s.fateBytes b)) 2097152

/-- The stack of a bar's first or second copy (R152). -/
def State.copyStack (s : State) (b : Nat) (second : Bool) : Nat :=
  if second then (s.pstack b + 2) % 4 else s.pstack b

/-- The copies of a bar. -/
def State.copies (s : State) : List Bool := if s.mirrored then [false, true] else [false]

/-- Units of 2 MiB that a bar takes in a stack. -/
def State.unitsIn (s : State) (st b : Nat) : Nat :=
  ((s.copies.filter fun c => s.copyStack b c == st).map fun _ => s.copyUnits b).sum

/-- Units of 2 MiB that a stack's bar buffers take. -/
def State.stackUnits (s : State) (st : Nat) : Nat := ((List.range 16).map (s.unitsIn st)).sum

/-- Where a stack's part of BAR_BUF starts. DESIGN CHOICE: the region is four parts of D GiB, one for each stack in
order; R307 states only which stack and channel a copy lies on. -/
def State.stackBase (s : State) (st : Nat) : Nat := s.barBufBase + st * s.detD * 0x40000000

/-- Where a copy of a bar starts. DESIGN CHOICE: the copies of a stack follow each other by ascending bar. -/
def State.copyBase (s : State) (b : Nat) (second : Bool) : Nat :=
  let st := s.copyStack b second
  s.stackBase st + 2097152 * ((List.range b).map (s.unitsIn st)).sum

/-- The slot of frame `f`. -/
def State.slotOf (s : State) (b f : Nat) : Nat := f % s.fld (Reg.DOSE_BAR_BUF_LINES b)

/-- Where board `k`'s payload of frame `f` lies. DESIGN CHOICE: a copy holds its slots, then its descriptor ring, then
its fate ring. -/
def State.payloadAt (s : State) (b : Nat) (second : Bool) (k f : Nat) : Nat :=
  s.copyBase b second + s.slotOf b f * s.slotBytes b +
    (((s.barBoards b).filter (· < k)).map s.paddedPayload).sum

/-- Where the descriptor ring of a copy lies. -/
def State.descRing (s : State) (b : Nat) (second : Bool) : Nat :=
  s.copyBase b second + s.fld (Reg.DOSE_BAR_BUF_LINES b) * s.slotBytes b

/-- Where board `k`'s descriptor of frame `f` lies. -/
def State.descAt (s : State) (b : Nat) (second : Bool) (k f : Nat) : Nat :=
  s.descRing b second + s.slotOf b f * s.descBytes b + 16 * ((s.barBoards b).filter (· < k)).length

/-- Where the fate ring's entry of frame `f` lies. -/
def State.fateAt (s : State) (b : Nat) (second : Bool) (f : Nat) : Nat :=
  s.descRing b second + s.fld (Reg.DOSE_BAR_BUF_LINES b) * s.descBytes b + s.slotOf b f * s.fateBytes b

/-- The bar and copy that hold an address of BAR_BUF. -/
def State.copyOf (s : State) (a : Nat) : Option (Nat × Bool) :=
  ((List.range 16).flatMap fun b => s.copies.map fun c => (b, c)).find? fun p =>
    decide (s.copyBase p.1 p.2 ≤ a) && decide (a < s.copyBase p.1 p.2 + 2097152 * s.copyUnits p.1)

/-- The deterministic channel of an address in BAR_BUF (R307): within a copy, 256-byte block i lies on channel i mod D;
outside every copy the blocks count from the stack's part. -/
def State.barBufCh (s : State) (a : Nat) : Nat :=
  let st := (a - s.barBufBase) / (s.detD * 0x40000000)
  let from_ := match s.copyOf a with
    | some p => s.copyBase p.1 p.2
    | none => s.stackBase st
  16 * st + 4 + (a - from_) / 256 % s.detD

/-- The address of the same byte in the other copy, under MIRROR. -/
def State.otherCopy (s : State) (a : Nat) : Option Nat :=
  (s.copyOf a).map fun p => a - s.copyBase p.1 p.2 + s.copyBase p.1 (!p.2)

/-- A frame descriptor (Table 06-6). -/
def descriptor (frame crc : Nat) (blank : Bool) (gen : Nat) : List Byte :=
  leBytes 4 (frame % idxMod) ++ leBytes 4 crc ++ bytesOf [1 + 2 * b2n blank, 0, 0, 0] ++ leBytes 4 (gen % idxMod)

/-- Some code word of `n` bytes at `a` is poisoned (Table 13-5). -/
def State.poisonedAt (s : State) (a n : Nat) : Bool :=
  s.dram.poison.any fun e => e.2 && decide (a < 16 * e.1 + 16) && decide (16 * e.1 < a + n)

/-- The frame that a copy's descriptor shows VALID for frame `f` of board `k` (R153), with the payload read. -/
def State.readFrame (s : State) (b : Nat) (second : Bool) (k f : Nat) : Option BoardFrame :=
  let a := s.descAt b second k f
  let d := memGet s.mem a 16
  if bitAt (leAt d 8 1) 0 && leAt d 0 4 == f % idxMod && !s.poisonedAt a 16 then
    some { payload := memGet s.mem (s.payloadAt b second k f) (s.payloadBytes k), crc := leAt d 4 4
           blank := bitAt (leAt d 8 1) 1, gen := leAt d 12 4 }
  else none

/-- The payload of a copy has the CRC of the descriptor (R171); poisoned data counts as a mismatch (Table 13-5). -/
def State.copyGood (s : State) (b : Nat) (second : Bool) (k f crc : Nat) : Bool :=
  let a := s.payloadAt b second k f
  crc32 (memGet s.mem a (s.payloadBytes k)) == crc && !s.poisonedAt a (s.payloadBytes k)

/-- P_due(k, F) (R160, R164). -/
def State.dueAt (s : State) (b k f : Nat) : Option Int :=
  (s.dueOf b f).map fun p => p + s.fld (Reg.FIRE_B_CTRL_TICK_OFF k)

end Sys2Proof.Machine
end

