-- ==== Sys2Proof/Machine/Pace.lean ====
section
/-!
DEFINITION. The Spinning Top (chapter 02, R37 to R48): one interval of the loop, temperature and voltage outside C5.
-/
namespace Sys2Proof.Machine

/-- The lowest Concertina fill over the bars in use; none when no bar is (R37). -/
def State.lowFill (s : State) : Option Nat :=
  match s.usedBars.map fun b => s.fld (Reg.DOSE_BAR_CONC_FILL b) with
  | [] => none
  | x :: xs => some (xs.foldl min x)

/-- The highest capture buffer fill over the active ports; 0 if none (R37). -/
def State.highCapture (s : State) : Nat :=
  ((List.range 24).filter fun p => s.flag (Reg.CAP_CTRL_ENABLE p)).foldl
    (fun m p => max m (s.fld (Reg.CAP_STATUS_FILL_PCT p))) 0

/-- The floor of a mode in mV (R37). -/
def paceFloor (mode : Nat) : Nat := if mode = 0 then 900 else if mode = 1 then 720 else 660

/-- The cap in mV (R37). -/
def State.paceCap (s : State) (mode : Nat) : Nat := if mode = 0 then 900 else s.fld Reg.PACE_LIMIT_VCAP_MV

/-- The median of a list; of an even number, the mean of the middle two rounded down (DESIGN CHOICE). -/
def median (l : List Nat) : Nat :=
  let t := (sortInts (l.map Int.ofNat)).map Int.toNat
  let n := t.length
  if n % 2 = 1 then t.getD (n / 2) 0 else (t.getD (n / 2 - 1) 0 + t.getD (n / 2) 0) / 2

/-- Whether canary `c` differs by more than 10 % from the median of the other powered canaries (R41). -/
def canaryBad (powered : List (Nat × Nat)) (c : Nat × Nat) : Bool :=
  match (powered.filter fun q => q.1 != c.1).map Prod.snd with
  | [] => false
  | others =>
    let m := median others
    decide (m < 10 * (c.2 - m)) || decide (m < 10 * (m - c.2))

/-- The canaries read at an interval (R41): speeds, VALID, FAULT, and the finding. CANARY_FAULT and PACE_CANARY come at
the interval at which a canary becomes faulty, not while it stays so (DESIGN CHOICE). -/
def State.readCanaries (s : State) (speeds : List Nat) : State :=
  let powered := (speeds.zipIdx.map fun p => (p.2, min 65535 p.1)).filter fun p =>
    decide (p.1 < 16) && !s.flag (Reg.PACE_CANARY_GATED p.1)
  powered.foldl (fun s p =>
    let bad := canaryBad powered p
    let new := bad && !s.flag (Reg.PACE_CANARY_FAULT p.1)
    let s := (s.setFld (Reg.PACE_CANARY_SPEED p.1) p.2).setFld (Reg.PACE_CANARY_VALID p.1) 1
    let s := s.setFlag (Reg.PACE_CANARY_FAULT p.1) bad
    if new then
      ((s.setFld Reg.PACE_EVENTS_CANARY_FAULT 1).log1 0x0C 0x01 p.1 0 [p.2]).raiseIf
        (bitAt (s.fld Reg.PACE_CTRL_EV_EN) 3) 51
    else s) s

/-- s of R37: the lowest speed over canaries valid and not faulty; 1,000 when every canary is faulty or gated. -/
def State.coreSpeed (s : State) : Nat :=
  match (List.range 16).filter fun c => s.flag (Reg.PACE_CANARY_VALID c) && !s.flag (Reg.PACE_CANARY_FAULT c)
      && !s.flag (Reg.PACE_CANARY_GATED c) with
  | [] => 1000
  | c :: cs => (cs.map fun i => s.fld (Reg.PACE_CANARY_SPEED i)).foldl min (s.fld (Reg.PACE_CANARY_SPEED c))

/-- The measured line rate (R48): the web speed in ticks per second divided by 16; a backward web is 0. -/
def State.lineRate (s : State) : Nat := s.webSpeed.toNat / 16

/-- The rate is above r_b x 101 / 100 for some bar in use (R48). -/
def State.rateOver (s : State) : Bool := s.usedBars.any fun b => decide (s.barRate b * 101 / 100 < s.lineRate)

/-- The rate is at or below r_b x 101 / 100 for every bar in use (R48). -/
def State.rateWithin (s : State) : Bool := !s.rateOver

/-- The hold of R48 at an interval: it begins where the rate exceeds under PACE_FRUGAL, and ends with the mode. -/
def State.fitWatch (s : State) (mode : Nat) : State :=
  if mode ≠ 2 then s.setFld Reg.PACE_STATUS_FIT_HOLD 0
  else if s.rateOver && !s.flag Reg.PACE_STATUS_FIT_HOLD then
    ((s.setFld Reg.PACE_STATUS_FIT_HOLD 1).setFld Reg.PACE_EVENTS_FIT_LOST 1).raiseIf
      (bitAt (s.fld Reg.PACE_CTRL_EV_EN) 1) 49
  else s

/-- The target of R37 from the target left, the slack and the hold. -/
def paceTarget (target mode floor cap step speed : Nat) (need easy hold : Bool) : Nat :=
  let t := min target cap
  let t :=
    if mode = 0 then 900
    else if need then min (t + step) cap
    else if mode = 1 ∧ speed < 1000 then min (t + step) cap
    else if hold then max t 720
    else if easy ∧ floor < t then max (t - step) floor
    else t
  max t floor

/-- VCORE after an interval (R38): what is measured, no further from the last measurement than the regulator may move
in one interval at PACE_SLEW.UP (0.1 mV/us) and PACE_SLEW.DOWN (0.01 mV/us), rounded up to a millivolt. The first
measurement since the core regulator came up stands as it is. -/
def State.slewed (s : State) (mv : Nat) : Nat :=
  let us := s.fld Reg.PACE_LOOP_INTERVAL_US
  let old := s.fld Reg.PACE_MEAS_VCORE_MV
  if s.pwr.metered then
    max (old - ceilDiv (s.fld Reg.PACE_SLEW_DOWN * us) 100) (min (old + ceilDiv (s.fld Reg.PACE_SLEW_UP * us) 10) mv)
  else mv

/-- RAMPING: the measured VCORE differs from the target by more than 5 mV (R38). -/
def State.showRamp (s : State) : State :=
  s.setFlag Reg.PACE_STATUS_RAMPING
    (decide (5 < ((s.fld Reg.PACE_MEAS_VCORE_MV : Int) - s.fld Reg.PACE_STATUS_TARGET_MV).natAbs))

/-- C5 shows in PLAT_STATE.COND while Tj or VCORE is outside it (R42). -/
def State.mendC5 (s : State) : State :=
  if s.flag Reg.PACE_STATUS_TJ_OVER || s.pwr.vlow then s else s.mend 5

/-- What an interval measures (Table 02-9). A VCORE of 0.66 V or more ends a low VCORE. -/
def State.measure (s : State) (m : PaceMeas) : State :=
  let tj := clampInt (-128) 127 m.tj
  let seen := s.fld Reg.PACE_MEAS_TJ_MAX_C
  let top := if seen = 0x80 then tj else max tj (signedOf 8 seen)
  let v := min 1023 (s.slewed m.vcore)
  let s := s.setFld Reg.PACE_MEAS_VCORE_MV v
  let s := (s.setFldI Reg.PACE_MEAS_TJ_C tj).setFldI Reg.PACE_MEAS_TJ_MAX_C top
  let s := { s with pwr := { s.pwr with metered := true, vlow := s.pwr.vlow && decide (v < 660) } }
  s.mendC5.showRamp

/-- The speed that the loop takes from the canaries: with Tj above 105 degrees they alone raise nothing (R42). -/
def State.loopSpeed (s : State) : Nat := if s.flag Reg.PACE_STATUS_TJ_OVER then 1000 else s.coreSpeed

/-- PACE_INTERVAL (R37 to R41, R45, R48). The loop is suspended in DEEP. The target holds until the firmware has
started, which the model takes as the device's leaving BOOTING (DESIGN CHOICE: the spec names no boot step for it). -/
def execPaceInterval (meas : PaceMeas) (s : State) : Result :=
  .next <|
    if !s.awake then s
    else
      let s := (s.measure meas).readCanaries meas.speeds
      if s.st = stBooting then s
      else
        let mode := s.fld Reg.PACE_CTRL_MODE
        let s := (s.setFld Reg.PACE_STATUS_MODE_ACT mode).fitWatch mode
        let conc := s.fld Reg.PACE_SLACK_CONC_TARGET
        let ceil := s.fld Reg.PACE_SLACK_CAPFILL_MAX
        let fill := s.lowFill
        let need := (fill.any fun f => decide (f < conc)) || decide (ceil < s.highCapture)
        let easy := (fill.all fun f => decide (conc + conc / 4 ≤ f)) && decide (s.highCapture + 10 ≤ ceil)
        let floor := paceFloor mode
        let cap := s.paceCap mode
        let old := s.fld Reg.PACE_STATUS_TARGET_MV
        let t := paceTarget old mode floor cap (s.fld Reg.PACE_LOOP_STEP_MV) s.loopSpeed need easy
          (s.flag Reg.PACE_STATUS_FIT_HOLD)
        let s := (s.setFld Reg.PACE_STATUS_TARGET_MV t).setFlag Reg.PACE_STATUS_NEED need
        let s := (s.setFlag Reg.PACE_STATUS_AT_CAP (decide (t = cap))).setFlag Reg.PACE_STATUS_AT_FLOOR
          (decide (t = floor))
        let s := s.showRamp
        if need && decide (cap ≤ old) then
          (s.setFld Reg.PACE_EVENTS_CEIL_SHORT 1).raiseIf (bitAt (s.fld Reg.PACE_CTRL_EV_EN) 0) 48
        else s

/-- FIT_RETURN (R48): the rate has stayed within the maximum for 100 ms. -/
def execFitReturn (s : State) : Result :=
  .next <| if s.rateWithin then s.setFld Reg.PACE_STATUS_FIT_HOLD 0 else s

/-- TJ_OVER (R42): the die is above 105 degrees; the breach of C5 lasts until TJ_OVER_END. -/
def execTjOver (tj : Int) (s : State) : Result :=
  .next <|
    if 105 < tj ∧ !s.flag Reg.PACE_STATUS_TJ_OVER then
      let s := s.setFldI Reg.PACE_MEAS_TJ_C (clampInt (-128) 127 tj)
      let s := (s.setFld Reg.PACE_STATUS_TJ_OVER 1).setFld Reg.PACE_EVENTS_TJ_OVER 1
      (s.raiseIf (bitAt (s.fld Reg.PACE_CTRL_EV_EN) 2) 50).breach 5 0x01 0
    else s

/-- TJ_OVER_END (R42). -/
def execTjOverEnd (tj : Int) (s : State) : Result :=
  .next <|
    if 105 < tj then s
    else ((s.setFldI Reg.PACE_MEAS_TJ_C (clampInt (-128) 127 tj)).setFld Reg.PACE_STATUS_TJ_OVER 0).mendC5

/-- VCORE_LOW (R42): VCORE below 0.66 V for more than 10 us; the breach of C5 lasts until an interval measures 0.66 V or
more. -/
def execVcoreLow (s : State) : Result :=
  let s := s.setFld Reg.PACE_EVENTS_VCORE_LOW 1
  .next <| State.breach { s with pwr := { s.pwr with vlow := true } } 5 0x01 0

end Sys2Proof.Machine
end

