-- ==== Sys2Proof/Machine/CalStore.lean ====
section
/-!
DEFINITION. The calibration store (chapter 16, R380 to R382): records in two copies, their writes and their reads.
-/
namespace Sys2Proof.Machine

/-- The key of a record. -/
def calKey (kind inst : Nat) : Nat := 256 * kind + inst

/-- The two copies of a record. -/
def State.calPair (s : State) (kind inst : Nat) : CalPair := tabGet {} s.nvc.cal (calKey kind inst)

/-- The two copies replaced. -/
def State.setCalPair (s : State) (kind inst : Nat) (p : CalPair) : State :=
  { s with nvc := { s.nvc with cal := tabPut {} s.nvc.cal (calKey kind inst) p } }

/-- Copy B holds the newest valid record. -/
def CalPair.newerB (p : CalPair) : Bool := p.b.valid && (!p.a.valid || decide (p.a.seq < p.b.seq))

/-- The newest valid copy (R381). -/
def CalPair.newest (p : CalPair) : Option CalCopy :=
  if p.newerB then some p.b else if p.a.valid then some p.a else none

/-- The newest valid copy of a record. -/
def State.calNewest (s : State) (kind inst : Nat) : Option CalCopy := (s.calPair kind inst).newest

/-- The content of a record, where one exists. -/
def State.calContent (s : State) (kind inst : Nat) : Option (List Nat) := (s.calNewest kind inst).map CalCopy.content

/-- Store space used per copy, and the wear shown after a write. -/
def State.showStore (s : State) : State :=
  let one (e : Nat × CalPair) : Nat :=
    match e.2.newest with
    | some c => 32 + (Config.calBytes (e.1 / 256) c.content).length
    | none => 0
  let n := s.nvc.writes + 1
  let w := max (s.fld Reg.NVC_WEAR_WORST) (Config.wearUnits n % 65536)
  let s := { s with nvc := { s.nvc with writes := n } }
  let s := (s.setFld Reg.NVC_USED_KIB (min 65535 (ceilDiv ((s.nvc.cal.map one).sum) 1024))).setFld Reg.NVC_WEAR_WORST w
  if s.fld Reg.NVC_WEAR_RATED * 4 ≤ w * 5 then s.setFld Reg.NVC_EVENTS_WEAR 1 else s

/-- A record written (R381): the sequence number rises, the copy that does not hold the newest valid record is written
and then the other. A calibration raises the count and sets the time (Table 16-4); another write keeps both. -/
def State.calWrite (s : State) (kind inst : Nat) (content : List Nat) (calibrated : Bool) : State :=
  let old := ((s.calPair kind inst).newest).getD {}
  let t := s.devTime
  let c : CalCopy := { old with valid := true, seq := (old.seq + 1) % idxMod, content := content }
  let c := if calibrated then
      { c with count := min (idxMod - 1) (old.count + 1), sec := t.sec % 2 ^ 48, ns := t.ns, dom := s.activeDom }
    else c
  (s.setCalPair kind inst { a := c, b := c }).showStore

/-- A read (R381): both copies are verified; one that is invalid or older is rewritten from the one used. -/
def State.calVerify (s : State) (kind inst : Nat) : State :=
  let p := s.calPair kind inst
  match p.newest with
  | none => s
  | some c =>
    if p.a = c ∧ p.b = c then s
    else
      let other := if p.newerB then p.a else p.b
      let s := if other.valid then s
        else (s.bump Reg.NVC_ERR_COPY_BAD).setFld Reg.NVC_EVENTS_COPY_BAD 1
      let s := (s.bump Reg.NVC_ERR_REPAIRED).setFld Reg.NVC_EVENTS_REPAIR 1
      (s.setCalPair kind inst { a := c, b := c }).log1 0x0F 0x49 (calKey kind inst)

/-- The bytes of a record: header and data (Table 16-4). -/
def calRecord (kind inst : Nat) (c : CalCopy) : List Byte :=
  let d := Config.calBytes kind c.content
  let h := bytesOf [kind, inst] ++ leBytes 2 (Config.calFormat kind) ++ leBytes 4 d.length ++ leBytes 4 c.count ++
    leBytes 6 c.sec ++ leBytes 4 c.ns ++ bytesOf [c.dom, 0] ++ leBytes 4 c.seq
  h ++ leBytes 4 (crc32c (h ++ d)) ++ d

/-- A kind and instance of Table 16-5 that a command may name. -/
def calKnown (kind inst : Nat) : Bool :=
  match kind with
  | 0x01 => inst == 0
  | 0x20 => decide (inst < 24)
  | 0x21 => decide (inst < 24)
  | 0x30 => decide (inst < 16)
  | 0x50 => inst == 0
  | _ => false

/-! Contents. Sparse tables are kept as key and value in turn. -/

/-- A sparse table flattened. -/
def flatten2 : List (Nat × Nat) → List Nat
  | [] => []
  | (a, b) :: t => a :: b :: flatten2 t

/-- The sparse table behind a flat list. -/
def unflatten2 : List Nat → List (Nat × Nat)
  | a :: b :: t => (a, b) :: unflatten2 t
  | _ => []

/-- A camera port. -/
def State.cam (s : State) (n : Nat) : Cam := tabGet {} s.eye.cams n

/-- A camera port replaced. -/
def State.setCam (s : State) (n : Nat) (x : Cam) : State :=
  { s with eye := { s.eye with cams := tabPut {} s.eye.cams n x } }

/-- The content of a kind 0x21 record: the paper levels, absent entries by colour first. -/
def Cam.paperContent (x : Cam) : List Nat := x.paperDef ++ flatten2 x.paper

/-- The content of a kind 0x20 record: the number of defects, the defects, the levels. -/
def FlatSet.darkContent (x : FlatSet) : List Nat := x.darkDef.length :: (x.darkDef ++ flatten2 x.dark)

/-- Paper levels written where they changed (Table 16-5). -/
def State.storePaper (s : State) : State :=
  (List.range 24).foldl (fun s n =>
    let x := s.cam n
    if x.paperDirty then (s.setCam n { x with paperDirty := false }).calWrite 0x21 n x.paperContent false else s) s

/-! Ports in registration (R215), and the bars that are rendered (R227). -/

/-- The port is in use. -/
def State.capOn (s : State) (n : Nat) : Bool := s.flag (Reg.CAP_CTRL_ENABLE n)

/-- W. -/
def State.capW (s : State) (n : Nat) : Nat := s.fld (Reg.CAP_GEOM_PIXELS n)

/-- LINES. -/
def State.capLines (s : State) (n : Nat) : Nat := s.fld (Reg.CAP_GEOM_LINES n)

/-- The capture pipeline of a port (R202). -/
def State.pipeOf (s : State) (n : Nat) : Nat := 2 * (n / 6) + s.fld (Reg.CAP_CTRL_PIPE n)

/-- Lines that a port's capture buffer holds (R197). -/
def State.capRoom (s : State) (n : Nat) : Nat :=
  if s.flag (Reg.KAL_CTRL_SHARE (s.pipeOf n)) then 2 * s.capLines n else 256

/-- A committed rendering table: kind 2 model, 3 coverage, 4 blur, 6 classes. -/
def State.renderTab (s : State) (kind inst : Nat) : RenderTab := tabGet {} s.insp.tabs (256 * kind + inst)

/-- The bars that a port's newest model names. -/
def State.modelBars (s : State) (n : Nat) : List Nat :=
  (((s.renderTab 2 n).data.take 4).map Int.toNat).filter (· < 16)

/-- The resampling set that governs whether a port is registered: one that is pending takes the next output line. -/
def Cam.regSet (x : Cam) : List Nat := if x.rsPend then x.rsStaged else x.rs

/-- COLS of a set. -/
def colsOf (p : List Nat) : Nat := bitsOf (p.getD 3 0) 31 16

/-- FIRST_COL of a set. -/
def firstColOf (p : List Nat) : Nat := bitsOf (p.getD 3 0) 15 0

/-- A port that takes part in registration (R215). -/
def State.registered (s : State) (n : Nat) : Bool := decide (0 < colsOf (s.cam n).regSet)

/-- A port that still makes output lines: the set in force registers it, or the one that its next line takes. -/
def State.onGrid (s : State) (n : Nat) : Bool := decide (0 < colsOf (s.cam n).rs) || s.registered n

/-- Reference rendering reads a bar's frames: a registered port's model names it. -/
def State.rendersBar (s : State) (b : Nat) : Bool :=
  s.flag Reg.JIG_CTRL_ENABLE && (List.range 24).any fun n => s.registered n && (s.modelBars n).contains b

/-! Nozzle health records (R241, R242). -/

/-- The entry of a nozzle. -/
def State.noz1 (s : State) (b x : Nat) : NozEntry := tabGet {} s.noz.health (65536 * b + x)

/-- The entry of a nozzle replaced; the bar's record is due where that changes it (R242). -/
def State.setNoz1 (s : State) (b x : Nat) (e : NozEntry) : State :=
  { s with noz := { s.noz with
      health := tabPut {} s.noz.health (65536 * b + x) e
      dirty := if e = s.noz1 b x then s.noz.dirty else tabPut false s.noz.dirty b true } }

/-- The entries of a bar that are not as a map load leaves them. -/
def State.nozBar (s : State) (b : Nat) : List (Nat × NozEntry) :=
  (s.noz.health.filter fun e => e.1 / 65536 == b).map fun e => (e.1 % 65536, e.2)

/-- The eight bytes of an entry in the health table (Table 10-1). -/
def NozEntry.bytes (e : NozEntry) : List Byte :=
  bytesOf [16 * e.source + 8 * b2n e.atLimit + 4 * b2n e.hold + e.state, e.conf, unsignedOf 8 e.trim, 0] ++ leBytes 4 e.gen

/-- The entry that eight bytes hold. -/
def readNozEntry (t : List Byte) : NozEntry :=
  { source := bitsOf (leAt t 0 1) 6 4, atLimit := bitAt (leAt t 0 1) 3, hold := bitAt (leAt t 0 1) 2
    state := bitsOf (leAt t 0 1) 1 0, conf := leAt t 1 1, trim := leIntAt t 2 1, gen := leAt t 4 4 }

/-- The entries behind a flat list. -/
def decodeNoz : List Nat → List (Nat × NozEntry)
  | x :: b0 :: b1 :: b2 :: b3 :: b4 :: b5 :: b6 :: b7 :: t =>
    (x, readNozEntry (bytesOf [b0, b1, b2, b3, b4, b5, b6, b7])) :: decodeNoz t
  | _ => []

/-- The content of a kind 0x30 record: N, the map's CRC-32C, the entries. -/
def State.healthContent (s : State) (b : Nat) : List Nat :=
  s.barN b :: (s.bar b).mapCrc :: (s.nozBar b).flatMap fun e => e.1 :: e.2.bytes.map BitVec.toNat

/-- Health records written where an entry changed (R242). -/
def State.storeHealth (s : State) : State :=
  (List.range 16).foldl (fun s b =>
    if tabGet false s.noz.dirty b then
      State.calWrite { s with noz := { s.noz with dirty := tabPut false s.noz.dirty b false } } 0x30 b (s.healthContent b)
        false
    else s) s

/-- What STOP and each job end write (Table 16-5, R242). -/
def State.storeAtEnd (s : State) : State := s.storePaper.storeHealth

/-- CAL_STORE_PERIODIC (R242): every 10 minutes in PRINTING. -/
def execCalStorePeriodic (s : State) : Result := .next <| if s.st = stPrinting then s.storeAtEnd else s

end Sys2Proof.Machine
end

