-- ==== Sys2Proof/Machine/Commands.lean ====
section
/-!
DEFINITION. The command that a packet spells (R105): the opcode and the payload of Table 04-7 read as a row of the table
with its operands.
-/
namespace Sys2Proof.Machine

/-- A payload in the table-load form of R104. -/
def chunkOf (p : List Byte) : Chunk := ⟨leAt p 0 2, leAt p 2 1, leAt p 4 4, leAt p 8 4, p.drop 12⟩

/-- The values of a WRITE_REG payload. -/
def valuesOf (p : List Byte) : List Word :=
  (List.range (leAt p 4 2)).map fun i => BitVec.ofNat 32 (leAt p (8 + 4 * i) 4)

/-- The entries of a MODIFY_REG payload. -/
def entriesOf (p : List Byte) : List RegEntry :=
  (List.range (p.length / 12)).map fun i =>
    ⟨leAt p (12 * i) 4, BitVec.ofNat 32 (leAt p (12 * i + 4) 4), BitVec.ofNat 32 (leAt p (12 * i + 8) 4)⟩

/-- The opcodes 0x0000 to 0x0701 that take no table, with their payload fields (Table 04-7). -/
def plainCommand (rq : Rq) (op : Nat) (p : List Byte) : Option Instr :=
  match op with
  | 0x0000 => some (.nop rq)
  | 0x0001 => some (.getState rq)
  | 0x0002 => some (.replyFetch rq (leAt p 0 1))
  | 0x0010 => some (.readReg rq (leAt p 0 4) (leAt p 4 2))
  | 0x0011 => some (.writeReg rq (leAt p 0 4) (valuesOf p))
  | 0x0012 => some (.modifyReg rq (entriesOf p))
  | 0x0020 => some (.lockAcquire rq (leAt p 0 1) (leAt p 2 2))
  | 0x0021 => some (.lockRelease rq (leAt p 0 1))
  | 0x0031 => some (.sessionClose rq (leAt p 0 1))
  | 0x0032 => some (.keySet rq (leAt p 0 1) (slice p 4 32))
  | 0x0050 => some (.serviceEnter rq)
  | 0x0051 => some (.serviceExit rq)
  | 0x0052 => some (.sleep rq)
  | 0x0053 => some (.wake rq)
  | 0x0100 => some (.jobOpen rq (leAt p 0 4) (leAt p 4 2))
  | 0x0101 => some (.pageSubmit rq (leAt p 0 4) (leAt p 4 1) (leAt p 8 4))
  | 0x0102 => some (.pageRepeat rq (leAt p 0 4) (leAt p 4 4))
  | 0x0103 => some (.jobClose rq (leAt p 0 4))
  | 0x0110 => some (.arm rq (leAt p 0 4))
  | 0x0111 => some (.start rq (leIntAt p 0 8))
  | 0x0112 => some (.pause rq)
  | 0x0113 => some (.resume rq (leIntAt p 0 8))
  | 0x0114 => some (.stop rq)
  | 0x0120 => some (.barDelaySet rq (leAt p 0 1) (leAt p 4 8))
  | 0x0130 => some (.gateTest rq (leAt p 0 1) (leAt p 1 1) (leAt p 2 2) (leAt p 4 2))
  | 0x0200 => some (.cameraSet rq (leAt p 0 1) (leAt p 2 2) (leAt p 4 4) (leAt p 8 2))
  | 0x0201 => some (.sensorXfer rq (leAt p 0 1) (slice p 4 (leAt p 2 2)))
  | 0x0207 => some (.recordRingSet rq (leAt p 0 1) (leAt p 1 1) (leAt p 4 8) (leAt p 12 4))
  | 0x0208 => some (.nozzleStateSet rq (leAt p 0 4) (leAt p 4 1) (leAt p 5 1))
  | 0x0209 => some (.nozzleStateRead rq (leAt p 0 4) (leAt p 4 4))
  | 0x0300 => some (.axisMove rq (leAt p 0 1) (leAt p 1 1) (leIntAt p 4 8) (leAt p 12 4))
  | 0x0301 => some (.axisStop rq (leAt p 0 1) (leAt p 1 1))
  | 0x0302 => some (.axisHome rq (leAt p 0 1) (leAt p 1 1))
  | 0x0303 => some (.axisProfileSet rq (leAt p 0 1) (leAt p 4 4) (leAt p 8 4) (leAt p 12 4))
  | 0x0305 => some (.posReference rq (leAt p 0 1) (leIntAt p 8 8))
  | 0x0306 => some (.axisStatus rq (leAt p 0 1))
  | 0x0400 => some (.timeRead rq (leAt p 0 1))
  | 0x0401 => some (.timeAdjust rq (leAt p 0 1) (leAt p 4 8) (leIntAt p 12 8))
  | 0x0402 => some (.domainSelect rq (leAt p 0 1))
  | 0x0403 => some (.eventFire rq (leAt p 0 1))
  | 0x0501 => some (.fwSwitch rq)
  | 0x0502 => some (.spareStatus rq)
  | 0x0503 => some (.calRun rq (leAt p 0 1) (leAt p 1 1))
  | 0x0504 => some (.calRead rq (leAt p 0 1) (leAt p 1 1) (leAt p 4 4))
  | 0x0505 => some (.faultLogRead rq (leAt p 0 4))
  | 0x0601 => some (.monSnapshot rq (leAt p 0 8) (leAt p 8 2))
  | 0x0700 => some (.chainStatus rq)
  | 0x0701 => some (.chainRescan rq)
  | _ => none

/-- The opcodes marked T in Table 04-7. No packet field carries the assignment of R24, so none comes with an image. -/
def tableCommand (rq : Rq) (op : Nat) (c : Chunk) : Option Instr :=
  match op with
  | 0x0040 => some (.configLoad rq c none)
  | 0x0041 => some (.configCheck rq c none)
  | 0x0121 => some (.nozzleMapLoad rq c)
  | 0x0122 => some (.thresholdLoad rq c)
  | 0x0123 => some (.substituteSet rq c)
  | 0x0124 => some (.toneCurveLoad rq c)
  | 0x0125 => some (.gainLoad rq c)
  | 0x0126 => some (.boardProfileLoad rq c)
  | 0x0202 => some (.colourModelLoad rq c)
  | 0x0203 => some (.coverageLoad rq c)
  | 0x0204 => some (.blurLoad rq c)
  | 0x0205 => some (.resampleCoefLoad rq c)
  | 0x0206 => some (.classSet rq c)
  | 0x0304 => some (.microstepLoad rq c)
  | 0x0500 => some (.fwStage rq c)
  | 0x0600 => some (.monBinsLoad rq c)
  | _ => none

/-- The command of an opcode and its own payload (without the lock bytes of LOCKED), but for SESSION_OPEN, which has a
source address and no session; none where the opcode is not of Table 04-7. -/
def commandOf (rq : Rq) (op : Nat) (p : List Byte) : Option Instr :=
  (tableCommand rq op (chunkOf p)).orElse fun _ => plainCommand rq op p

end Sys2Proof.Machine
end

