-- ==== Sys2Proof/Machine/Locks.lean ====
section
/-!
DEFINITION. The 64 hardware locks (R70 to R75, Table 03-3).
-/
namespace Sys2Proof.Machine

/-- What a lock holds beside its register. -/
def State.lock (s : State) (k : Nat) : LockX := tabGet {} s.locks k

/-- That, replaced; WAITERS shows the waiting requests, saturating. -/
def State.setLock (s : State) (k : Nat) (x : LockX) : State :=
  { s with locks := tabPut {} s.locks k x }.setFld (Reg.LOCK_WAITERS k) (min 15 x.waiters.length)

/-- FREE, HELD or BROKEN: 0, 1, 2. -/
def State.lockState (s : State) (k : Nat) : Nat := s.fld (Reg.LOCK_STATE k)

/-- A client's number at a lock arbiter: sessions 0 to 15, engine n at 16 + n (DESIGN CHOICE: sessions and engines that
wait on one input share its rotation, sessions first). -/
def lockClient (engine : Bool) (client : Nat) : Nat := client + 16 * b2n engine

/-- The lock is held by an owner from now on. -/
def State.lockOwn (s : State) (k : Nat) (engine : Bool) (client : Nat) : State :=
  let s := s.setFld (Reg.LOCK_STATE k) 1
  let s := s.setFld (Reg.LOCK_OWNER_KIND k) (b2n engine)
  let s := s.setFld (Reg.LOCK_OWNER k) client
  s.setLock k { s.lock k with since := s.now }

/-- An acquire that finds the lock idle is granted at once on its input, and the rotation goes on after it (R54, R73). -/
def State.lockGive (s : State) (k input : Nat) (engine : Bool) (client : Nat) : State :=
  let x := s.lock k
  (s.setLock k { x with arb := x.arb.give input (lockClient engine client) }).lockOwn k engine client

/-- Waiting requests as the lock arbiter sees them. -/
def lockReqs (ws : List LockWait) : List (ArbReq × Nat) :=
  ws.map fun w => (.carried w.input (lockClient w.engine w.client), w.input)

/-- Whether a waiting request is the one granted. -/
def LockWait.isGrant (w : LockWait) (g : Nat × Nat) : Bool := w.input == g.1 && lockClient w.engine w.client == g.2

/-- The waiting requests of a lock replaced after some were withdrawn: an input left without one counts 0 and is not
forced (R55, R73). -/
def State.lockKeep (s : State) (k : Nat) (ws : List LockWait) : State :=
  let x := s.lock k
  s.setLock k { x with waiters := ws, arb := x.arb.settle (fun _ => 16) (lockReqs ws) }

/-- What an engine is told of its lock request or release: a status of Table 04-4 (R75). -/
def State.tellEngine (s : State) (engine lock status : Nat) : State := s.emit (.engineLock engine lock status)

/-- A break point of the lock arbiter (R54, R73): the next waiter owns the lock, and is answered DONE, or
LOCK_BROKEN_PRIOR with the owner at the break. With no waiter the lock becomes `idle`. The order of R71 was judged when
the request came, and is not judged again at the grant (DESIGN CHOICE). -/
def State.lockPass (s : State) (k idle : Nat) (prior : Option Nat) : State :=
  let x := s.lock k
  let a := x.arb.grant (fun _ => 16) (lockReqs x.waiters)
  match a.granted.bind (fun g => x.waiters.find? (·.isGrant g)) with
  | none => (s.setLock k { x with arb := a }).setFld (Reg.LOCK_STATE k) idle
  | some w =>
    let s := s.setLock k { x with arb := a, waiters := x.waiters.erase w }
    let s := s.lockOwn k w.engine w.client
    let status := if prior.isSome then scLockBrokenPrior else scDone
    if w.engine then s.tellEngine w.client k status
    else s.finishSlot w.client w.tag status (leBytes 2 (prior.getD 0xFFFF))

/-- A held lock breaks (Table 03-3): logged with the owner's identity, counted, LOCK_BROKEN raised, and the lock passes
from BROKEN to the next waiter, if any. -/
def State.lockBreak (s : State) (k : Nat) : State :=
  let o := s.lockOwnerCode k
  let s := (s.bump (Reg.LOCK_BREAKS k)).log1 0x40 0x03 k 0 [o]
  (s.raise 52).lockPass k 2 (some o)

/-- A lock released by its owner: FREE, or the next waiter's. -/
def State.lockFree (s : State) (k : Nat) : State := s.lockPass k 0 none

/-- Whether a session or engine holds a lock. -/
def State.lockHeldBy (s : State) (engine : Bool) (client k : Nat) : Bool :=
  decide (s.lockState k = 1) && decide (s.fld (Reg.LOCK_OWNER_KIND k) = b2n engine) &&
    decide (s.fld (Reg.LOCK_OWNER k) = client)

/-- The order of R71: every lock the holder has is numbered below `k`. -/
def State.lockOrderOk (s : State) (engine : Bool) (client k : Nat) : Bool :=
  (List.range 64).all fun j => !s.lockHeldBy engine client j || decide (j < k)

/-- All locks of an owner break, and its waiting requests are withdrawn (R93, Table 03-3). -/
def State.locksOfBreak (s : State) (engine : Bool) (client : Nat) : State :=
  (List.range 64).foldl (fun s k =>
    let ws := (s.lock k).waiters
    let keep := ws.filter fun w => !(w.engine == engine && w.client == client)
    let s := if keep = ws then s else s.lockKeep k keep
    if s.lockHeldBy engine client k then s.lockBreak k else s) s

/-- The owner at the break of a BROKEN lock, as Table 04-4 codes it. -/
def State.lockPriorCode (s : State) (k : Nat) : Nat :=
  256 * s.fld (Reg.LOCK_OWNER_KIND k) + s.fld (Reg.LOCK_OWNER k)

/-- LOCK_ACQUIRE (R70 to R73): 0x0020. -/
def execLockAcquire (rq : Rq) (lock waitMs : Nat) (s : State) : Result :=
  .next <| s.run rq 0x0020 fun s =>
    s.withParams rq 0x0020
      [(16, decide (lock < 56) && s.lockOrderOk false rq.sess lock), (18, decide (waitMs ≤ 1000))] fun s =>
      match s.lockState lock with
      | 0 => (s.lockGive lock 5 false rq.sess).finish rq 0x0020 scDone (leBytes 2 0xFFFF)
      | 2 =>
        let o := s.lockPriorCode lock
        (s.lockGive lock 5 false rq.sess).finish rq 0x0020 scLockBrokenPrior (leBytes 2 o)
      | _ =>
        if waitMs = 0 then s.finish rq 0x0020 scLockedByOther (leBytes 2 (s.lockOwnerCode lock))
        else
          let x := s.lock lock
          let w : LockWait := ⟨5, false, rq.sess, rq.tag, some (s.now + ticksOfMs waitMs)⟩
          (s.pend rq 0x0020).setLock lock { x with waiters := x.waiters ++ [w] }

/-- The waiting request of a session whose time runs out first. -/
def firstToExpire (sess : Nat) (ws : List LockWait) : Option LockWait :=
  (ws.filter fun w => !w.engine && w.client == sess).foldl (fun m w =>
    match m with
    | some v => if w.deadline.getD 0 < v.deadline.getD 0 then some w else m
    | none => some w) none

/-- LOCK_WAIT_TIMEOUT (R73): the request that has expired is answered LOCKED_BY_OTHER and withdrawn. -/
def execLockWaitTimeout (lock sess : Nat) (s : State) : Result :=
  .next <|
    match firstToExpire sess (s.lock lock).waiters with
    | none => s
    | some w =>
      (s.lockKeep lock ((s.lock lock).waiters.erase w)).finishSlot sess w.tag scLockedByOther
        (leBytes 2 (s.lockOwnerCode lock))

/-- LOCK_RELEASE (R72): 0x0021. -/
def execLockRelease (rq : Rq) (lock : Nat) (s : State) : Result :=
  .next <| s.run rq 0x0021 fun s =>
    s.withParams rq 0x0021 [(16, decide (lock < 64) && decide (s.lockState lock = 1))] fun s =>
      if s.holdsLock rq.sess lock then (s.lockFree lock).finish rq 0x0021 scDone
      else s.finish rq 0x0021 scLockedByOther (leBytes 2 (s.lockOwnerCode lock))

/-- LOCK_HOLD_EXPIRY (Table 03-3): a lock that a session has held past its limit breaks, and the breach of C1 is
reported. -/
def execLockHoldExpiry (lock : Nat) (s : State) : Result :=
  .next <|
    if s.lockState lock = 1 ∧ s.fld (Reg.LOCK_OWNER_KIND lock) = 0 then
      (s.lockBreak lock).breachOnce 1 0x03 lock
    else s

/-- Whether a session's hold of a lock exceeds the limit in force (LOCK register fields). -/
def State.lockOverheld (s : State) (k : Nat) : Bool :=
  decide (s.lockState k = 1) && decide (s.fld (Reg.LOCK_OWNER_KIND k) = 0) &&
    decide (ticksOfMs (2 ^ s.fld (Reg.LOCK_HOLD_LIMIT k)) < s.now - (s.lock k).since)

/-- What a write of HOLD_LIMIT does beside the field: a lock already held longer breaks at once. -/
def State.lockLimitWritten (s : State) (k : Nat) : State :=
  if s.lockOverheld k then (s.lockBreak k).breachOnce 1 0x03 k else s

/-- ENGINE_LOCK_REQUEST (R70, R71, R73, R75): on the input of the kernel's class, without timeout. A request for a
firmware lock, or one that breaks the order of R71, is refused without effect; a BROKEN lock is granted with
LOCK_BROKEN_PRIOR. -/
def execEngineLockRequest (engine lock : Nat) (cls : Traffic) (s : State) : Result :=
  .next <|
    if !(decide (lock < 56) && s.lockOrderOk true engine lock) then s.tellEngine engine lock scBadParam
    else
      let input := trafficInput cls
      match s.lockState lock with
      | 0 => (s.lockGive lock input true engine).tellEngine engine lock scDone
      | 2 => (s.lockGive lock input true engine).tellEngine engine lock scLockBrokenPrior
      | _ =>
        let x := s.lock lock
        s.setLock lock { x with waiters := x.waiters ++ [⟨input, true, engine, 0, none⟩] }

/-- ENGINE_LOCK_RELEASE (R72, R75): the owner's release frees or passes the lock. One that finds the lock another's, or
broken under the engine, is told LOCKED_BY_OTHER; one of an idle lock BAD_PARAM. -/
def execEngineLockRelease (engine lock : Nat) (s : State) : Result :=
  .next <|
    if s.lockHeldBy true engine lock then (s.lockFree lock).tellEngine engine lock scDone
    else
      let mine := decide (s.lockState lock = 2) && decide (s.lockPriorCode lock = 256 + engine)
      s.tellEngine engine lock (if s.lockState lock = 1 || mine then scLockedByOther else scBadParam)

end Sys2Proof.Machine
end

