-- ==== Sys2Proof/Machine/Packets.lean ====
section
/-!
DEFINITION. Command packets, sessions and host rings (chapter 04): steps 1 to 11 of Table 04-3, doorbells, and the
commands about the session itself.
-/
namespace Sys2Proof.Machine

/-! The header and the lengths of payloads. -/

/-- A command header (Table 04-1). -/
structure Header where
  opcode  : Nat
  tag     : Nat
  flags   : Nat
  length  : Nat
  session : Nat
  target  : Nat
  seq     : Nat
  crc     : Nat
  deriving DecidableEq, Repr

/-- The header of a packet's bytes. -/
def headerOf (b : List Byte) : Header :=
  ⟨leAt b 0 2, leAt b 2 1, leAt b 3 1, leAt b 4 2, leAt b 6 1, leAt b 7 1, leAt b 8 4, leAt b 12 4⟩

/-- IMMEDIATE. -/
def Header.immediate (h : Header) : Bool := bitAt h.flags 0
/-- NEED_REPLY. -/
def Header.needReply (h : Header) : Bool := bitAt h.flags 1
/-- CHAINED. -/
def Header.chained (h : Header) : Bool := bitAt h.flags 2
/-- LOCKED. -/
def Header.locked (h : Header) : Bool := bitAt h.flags 3

/-- The payload of a packet's bytes. -/
def payloadOf (b : List Byte) (h : Header) : List Byte := slice b 16 h.length

/-- The CRC of R81 over a packet. -/
def packetCrc (b : List Byte) (h : Header) : Nat := crc32c (b.take 12 ++ leBytes 4 0 ++ payloadOf b h)

/-- The opcodes of Table 04-7. -/
def opcodes : List Nat :=
  [0x0000, 0x0001, 0x0002, 0x0010, 0x0011, 0x0012, 0x0020, 0x0021, 0x0030, 0x0031, 0x0032, 0x0040, 0x0041, 0x0050,
   0x0051, 0x0052, 0x0053, 0x0100, 0x0101, 0x0102, 0x0103, 0x0110, 0x0111, 0x0112, 0x0113, 0x0114, 0x0120, 0x0121] ++
  [0x0122, 0x0123, 0x0124, 0x0125, 0x0126, 0x0130, 0x0200, 0x0201, 0x0202, 0x0203, 0x0204, 0x0205, 0x0206, 0x0207,
   0x0208, 0x0209, 0x0300, 0x0301, 0x0302, 0x0303, 0x0304, 0x0305, 0x0306, 0x0400, 0x0401, 0x0402, 0x0403, 0x0500] ++
  [0x0501, 0x0502, 0x0503, 0x0504, 0x0505, 0x0600, 0x0601, 0x0700, 0x0701]

/-- The opcodes marked T in Table 04-7 (R104). -/
def tableOpcodes : List Nat :=
  [0x0040, 0x0041, 0x0121, 0x0122, 0x0123, 0x0124, 0x0125, 0x0126, 0x0202, 0x0203, 0x0204, 0x0205, 0x0206, 0x0304,
   0x0500, 0x0600]

/-- IMMEDIATE is accepted on these (R80). -/
def immediateOpcodes : List Nat := [0x0000, 0x0001, 0x0010, 0x0112, 0x0114, 0x0301, 0x0021]

/-- The payload length of an opcode listed by fixed bytes (R423). -/
def fixedLength (op : Nat) : Nat :=
  match op with
  | 0x0002 | 0x0020 | 0x0021 | 0x0031 | 0x0103 | 0x0110 | 0x0301 | 0x0302 | 0x0306 | 0x0400 | 0x0402 | 0x0403
  | 0x0503 | 0x0505 => 4
  | 0x0010 | 0x0100 | 0x0102 | 0x0111 | 0x0113 | 0x0130 | 0x0208 | 0x0209 | 0x0504 => 8
  | 0x0101 | 0x0120 | 0x0200 | 0x0601 => 12
  | 0x0207 | 0x0300 | 0x0303 | 0x0305 => 16
  | 0x0401 => 20
  | 0x0032 => 36
  | _ => 0

/-- How a payload length fares at step 11 (R423): it fits, it should have been `n`, or no length fits because of the
field at an offset. -/
inductive LengthCheck where
  | fits
  | expected (n : Nat)
  | field (offset : Nat)
  deriving DecidableEq, Repr

/-- R423 on an opcode's own payload, without the lock bytes. -/
def lengthCheck (op : Nat) (p : List Byte) : LengthCheck :=
  let n := p.length
  let want (k : Nat) : LengthCheck := if n = k then .fits else .expected k
  if op = 0x0000 then .fits
  else if op = 0x0011 then
    if n < 6 then .expected 12
    else if leAt p 4 2 = 0 ∨ 1018 < leAt p 4 2 then .field 20 else want (8 + 4 * leAt p 4 2)
  else if op = 0x0012 then
    if 12 ≤ n ∧ n % 12 = 0 ∧ n ≤ 4080 then .fits else .expected (max 12 (n / 12 * 12))
  else if op = 0x0030 then want (if leAt p 0 1 = 1 then 36 else 20)
  else if op = 0x0201 then
    if n < 4 then .expected 8
    else if leAt p 2 2 = 0 ∨ 1024 < leAt p 2 2 then .field 18 else want (4 + leAt p 2 2)
  else if tableOpcodes.contains op then
    let d := n - 12
    if n < 16 ∧ (n ≤ 12 ∨ !bitAt (leAt p 2 1) 0) then .expected 16
    else if 4068 < d then .expected 4080
    else if !bitAt (leAt p 2 1) 0 ∧ d % 4 ≠ 0 then .expected (12 + d / 4 * 4)
    else .fits
  else want (fixedLength op)

/-- The payload bytes that Table 04-7 does not name, for the opcodes listed by fixed bytes, and the reserved bytes of
WRITE_REG and the T form (R423, R104). -/
def reservedByte (op o : Nat) : Bool :=
  let inside (l : List (Nat × Nat)) : Bool := !l.any fun r => decide (r.1 ≤ o) && decide (o ≤ r.2)
  match op with
  | 0x0002 | 0x0021 | 0x0031 | 0x0306 | 0x0400 | 0x0402 | 0x0403 => inside [(0, 0)]
  | 0x0010 => inside [(0, 5)]
  | 0x0011 => decide (o = 6) || decide (o = 7)
  | 0x0020 => inside [(0, 0), (2, 3)]
  | 0x0032 => inside [(0, 0), (4, 35)]
  | 0x0100 | 0x0130 | 0x0208 => inside [(0, 5)]
  | 0x0101 => inside [(0, 4), (8, 11)]
  | 0x0120 => inside [(0, 0), (4, 11)]
  | 0x0200 => inside [(0, 0), (2, 9)]
  | 0x0201 => decide (o = 1)
  | 0x0207 => inside [(0, 1), (4, 15)]
  | 0x0300 => inside [(0, 1), (4, 15)]
  | 0x0301 | 0x0302 | 0x0503 => inside [(0, 1)]
  | 0x0303 => inside [(0, 0), (4, 15)]
  | 0x0305 => inside [(0, 0), (8, 15)]
  | 0x0401 => inside [(0, 0), (4, 19)]
  | 0x0504 => inside [(0, 1), (4, 7)]
  | 0x0601 => inside [(0, 9)]
  | _ => tableOpcodes.contains op && decide (o = 3)

/-- The packet offset of the first reserved payload byte that is not 0. -/
def reservedOffset (op : Nat) (p : List Byte) : Option Nat :=
  (firstNonzero (reservedByte op) p 0).map (· + 16)

/-! Replies that are not stored. -/

/-- A reply to a packet by the way it came. -/
def State.respond (s : State) (src : PktSrc) (rep : Reply) : State :=
  match src with
  | .ring r => s.ringReply r rep
  | .eth ip port => s.sendDatagram ip port (replyBytes rep)
  | .chain dev sess => s.chainTo 0x02 dev 5 (bytesOf [sess, 0, 0, 0] ++ replyBytes rep)

/-- A refusal at steps 1 to 8: the header echoes the packet. -/
def State.refuse (s : State) (src : PktSrc) (h : Header) (status : Nat) (payload : List Byte) : State :=
  s.respond src ⟨h.opcode, h.tag, false, false, status, h.seq, h.session, payload, s.st⟩

/-- The answer while a tag's command is under way (R85, R86). -/
def Slot.pending (x : Slot) (st sess tag : Nat) : Reply := ⟨x.opcode, tag, false, false, scPending, x.seq, sess, [], st⟩

/-- What reading a tag's slot gives in device state `echo.state` (R86). -/
def fetched (x : Slot) (sess tag : Nat) (echo : Reply) : Reply :=
  if !x.taken || decide (63 < tag) then { echo with status := scBadParam, payload := badParamAt 16 }
  else if x.done then x.reply sess tag
  else x.pending echo.state sess tag

/-- After a fetch that reaches its session the stored reply of a completed command has been delivered (R86). -/
def State.markDelivered (s : State) (sess tag : Nat) : State :=
  let x := s.slot sess tag
  if x.done && s.reaches sess then s.setSlot sess tag { x with delivered := true } else s

/-- The result of a fetch of a tag, delivered (R86). -/
def State.fetch (s : State) (sess tag : Nat) (echo : Reply) : State :=
  (s.deliver sess (fetched (s.slot sess tag) sess tag echo)).markDelivered sess tag

/-! Closing a session (R92, R93). -/

/-- OPEN shows whether a session is open. -/
def State.showOpen (s : State) (n : Nat) (op : Bool) : State :=
  let v := s.fld Reg.CMD_STATUS_OPEN
  s.setFld Reg.CMD_STATUS_OPEN (if op then setBitAt v n else clearBitAt v n)

/-- Everything that the commands of session `n` left under way or waiting now bears session `d` in its stead. -/
def State.disown (s : State) (n d : Nat) : State :=
  let r (x : Nat) : Nat := if x = n then d else x
  let pr (x : Nat × Nat) : Nat × Nat := (r x.1, x.2)
  let ax (c : AxisCmd) : AxisCmd := { c with sess := r c.sess }
  { s with
    cmd := { s.cmd with
      queue := s.cmd.queue.map fun q => { q with sess := r q.sess },
      executing := s.cmd.executing.map fun e => { e with sess := r e.sess },
      barrier := s.cmd.barrier.map pr }
    motion := { s.motion with
      axes := s.motion.axes.map fun a => (a.1, { a.2 with cmd := a.2.cmd.map ax, stops := a.2.stops.map ax }) }
    ingest := { s.ingest with pages := s.ingest.pages.map fun p => (p.1, { p.2 with sess := r p.2.sess }) }
    job := { s.job with starts := s.job.starts.map fun w => { w with sess := r w.sess } }
    fire := { s.fire with test := s.fire.test.map fun g => { g with sess := r g.sess } }
    eye := { s.eye with
      cams := s.eye.cams.map fun c =>
        (c.1, { c.2 with xfer := c.2.xfer.map (fun x => { x with sess := r x.sess }),
                         run := c.2.run.map fun j => { j with sess := r j.sess } }) }
    noz := { s.noz with
      queue := s.noz.queue.map fun f => { f with sess := r f.sess },
      bars := s.noz.bars.map fun b =>
        (b.1, { b.2 with asks := b.2.asks.map pr, swapAsks := b.2.swapAsks.map pr }) }
    spare := { s.spare with switch := s.spare.switch.map fun w => { w with sess := r w.sess } }
    chain := { s.chain with inFlight := s.chain.inFlight.map fun f => { f with sess := r f.sess } }
    pwr := { s.pwr with sleeper := s.pwr.sleeper.map pr, waker := s.pwr.waker.map pr } }

/-- Members that hold a forwarded session of session `n` learn that it has closed (R94). DESIGN CHOICE: the spec gives no
packet for this; here it is a CMD with a SESSION_CLOSE whose TAG is 0xFF, which no session's packet can carry. -/
def State.tellClosed (s : State) (n : Nat) : State :=
  (s.session n).members.foldl (fun s m =>
    let h := leBytes 2 0x0031 ++ bytesOf [255, 4] ++ leBytes 2 4 ++ bytesOf [n, m] ++ leBytes 4 0
    let p := leBytes 4 255
    s.chainTo 0x01 m 5 (bytesOf [n, 0, 0, 0] ++ h ++ leBytes 4 (crc32c (h ++ leBytes 4 0 ++ p)) ++ p)) s

/-- A session closes (R93): its locks break, its slots are cleared, and its commands under way lose it, so that no later
session of its number gets their replies. -/
def State.closeSession (s : State) (n : Nat) : State :=
  let s := ((s.locksOfBreak false n).tellClosed n).disown n (256 + s.cmd.closed)
  let s : State := { s with cmd := { s.cmd with closed := s.cmd.closed + 1 } }
  (s.setSession n {}).showOpen n (decide (n < 4))

/-- The lowest free session of 4 to 15 (R88). -/
def State.freeSession (s : State) : Option Nat :=
  ((List.range 16).filter (fun n => decide (4 ≤ n))).find? (fun n => (s.session n).kind == .closed)

/-- A session opens on a number. -/
def State.openSession (s : State) (n : Nat) (k : SessKind) : State :=
  (s.setSession n { kind := k, lastTick := s.now }).showOpen n true

/-! Steps 9 to 11, and the queue. -/

/-- The domains a command joins (R18): by opcode, or by the block of the addressed register; a MODIFY_REG over several
domains is PLATFORM's and holds the owners' queues. -/
def routeOf (op : Nat) (p : List Byte) : List Domain :=
  if op = 0x0010 ∨ op = 0x0011 then [domainOfBlock (leAt p 2 1)]
  else if op = 0x0012 then
    let ds := ((List.range (p.length / 12)).map (fun i => domainOfBlock (leAt p (12 * i + 2) 1))).eraseDups
    match ds with
    | [d] => [d]
    | ds => if ds.contains .platform then ds else .platform :: ds
  else [domainOfOpcode op]

/-- The first breach of step 9 (R80, R94): the offset at which BAD_PARAM is answered. A forwarded packet carries CHAINED
and this device's identity. -/
def State.flagBreach (s : State) (forwarded : Bool) (h : Header) (p : List Byte) : Option Nat :=
  let own := h.target == 255 || h.target == s.chainId
  if h.immediate && !immediateOpcodes.contains h.opcode then some 3
  else if !forwarded && h.chained == own then some 3
  else if h.locked && decide (h.length < 4) then some 4
  else if !own && (s.chainWay h.target).isNone then some 7
  else if h.locked && decide (55 < leAt p 0 1) then some 16
  else if h.locked then firstNonzero (fun _ => true) (slice p 1 3) 17
  else none

/-- The forwarded commands in flight replaced. -/
def State.setInFlight (s : State) (l : List Forwarded) : State := { s with chain := { s.chain with inFlight := l } }

/-- A packet goes on to the member it names (R94), for a slot of a session or for a SESSION_OPEN's source. -/
def State.forward (s : State) (sess : Nat) (b : List Byte) (src : Option (Nat × Nat) := none) : State :=
  let h := headerOf b
  let q := s.session sess
  let s := if src.isSome || q.members.contains h.target then s
    else s.setSession sess { q with members := q.members ++ [h.target] }
  let s := s.setInFlight (s.chain.inFlight ++ [⟨h.target, sess, h.tag, src⟩])
  s.chainTo 0x01 h.target 5 (bytesOf [sess, 0, 0, 0] ++ b.take (16 + h.length))

/-- What a packet asks of a session's slot (Table 04-1). -/
def Header.rq (h : Header) (sess : Nat) (p : List Byte) : Rq :=
  ⟨sess, h.tag, h.seq, h.needReply, h.immediate, if h.locked then some (leAt p 0 1) else none⟩

/-- A command joins the queue. -/
def State.enqueue (s : State) (q : Queued) : State := { s with cmd := { s.cmd with queue := s.cmd.queue ++ [q] } }

/-- Steps 9 to 11 of Table 04-3 for a packet that has taken its slot: refused with a stored reply, forwarded, or queued
in its domain. -/
def State.acceptFrom9 (s : State) (forwarded : Bool) (sess : Nat) (b : List Byte) : State :=
  let h := headerOf b
  let p := payloadOf b h
  let own := if h.locked then p.drop 4 else p
  let extra := if h.locked then 4 else 0
  let stop (status : Nat) (pl : List Byte) : State := s.complete sess h.tag h.seq h.opcode h.needReply status pl
  match s.flagBreach forwarded h p with
  | some o => stop scBadParam (badParamAt o)
  | none =>
    if h.chained && h.target != s.chainId && !forwarded then s.forward sess b
    else if !opcodes.contains h.opcode then stop scBadOpcode []
    else if h.opcode = 0x0030 then stop scBadParam (badParamAt 6)
    else match lengthCheck h.opcode own with
      | .expected n => stop scBadLength (leBytes 2 (n + extra))
      | .field o => stop scBadParam (badParamAt (o + extra))
      | .fits =>
        let x := s.slot sess h.tag
        let s := s.setSlot sess h.tag { x with reserved := reservedOffset h.opcode own }
        s.enqueue ⟨sess, h.tag, h.opcode, routeOf h.opcode own, h.immediate, commandOf (h.rq sess p) h.opcode own⟩

/-- A packet takes its tag slot and the session's expected sequence advances (R83, R85). -/
def State.takeSlot (s : State) (sess : Nat) (h : Header) : State :=
  let q := s.session sess
  let x : Slot := { taken := true, opcode := h.opcode, seq := h.seq, needReply := h.needReply }
  s.setSession sess { q with lastSeq := some h.seq, slots := tabPut {} q.slots h.tag x }

/-- Steps 5 to 11 for a packet of an open session. -/
def State.acceptFrom5 (s : State) (src : PktSrc) (sess : Nat) (b : List Byte) : State :=
  let h := headerOf b
  let x := s.slot sess h.tag
  let want := match (s.session sess).lastSeq with | none => h.seq | some q => (q + 1) % idxMod
  if h.opcode = 0x0002 then
    s.fetch sess (leAt (payloadOf b h) 0 1) ⟨h.opcode, h.tag, false, false, 0, h.seq, sess, [], s.st⟩
  else if x.taken && x.opcode == h.opcode && x.seq == h.seq then
    if x.done then (s.respond src { x.reply sess h.tag with again := true }).markDelivered sess h.tag
    else s.respond src (x.pending s.st sess h.tag)
  else if h.seq ≠ want then s.refuse src h scBadParam (badParamAt 8 ++ leBytes 4 want)
  else if x.taken && !x.done then s.refuse src h scResourceBusy []
  else (s.takeSlot sess h).acceptFrom9 false sess b

/-- Steps 4 and 9 to 11 for a SESSION_OPEN of SESSION 0xFF, which has any tag and any SEQ and takes no slot (R90). -/
def State.acceptOpen (s : State) (ip port : Nat) (b : List Byte) : State :=
  let h := headerOf b
  let src : PktSrc := .eth ip port
  let p := payloadOf b h
  let own := if h.locked then p.drop 4 else p
  let extra := if h.locked then 4 else 0
  if 16 ≤ h.flags then s.refuse src h scBadParam (badParamAt 3)
  else match s.flagBreach false h p with
    | some o => s.refuse src h scBadParam (badParamAt o)
    | none =>
      if h.chained && h.target != s.chainId then s.forward 255 b (some (ip, port))
      else match lengthCheck 0x0030 own with
        | .fits => s.enqueue ⟨255, h.tag, 0x0030, [.platform], false, some (.sessionOpen ip port (h.rq 255 p) own)⟩
        | .expected n => s.refuse src h scBadLength (leBytes 2 (n + extra))
        | .field o => s.refuse src h scBadParam (badParamAt (o + extra))

/-- Steps 3 and 4 of Table 04-3. -/
def State.acceptFrom3 (s : State) (src : PktSrc) (b : List Byte) : State :=
  let h := headerOf b
  let from4 (s : State) : State :=
    if 63 < h.tag then s.refuse src h scBadParam (badParamAt 2)
    else if 16 ≤ h.flags then s.refuse src h scBadParam (badParamAt 3)
    else s.acceptFrom5 src h.session b
  match src with
  | .ring r => if h.session ≠ r then s.refuse src h scBadParam (badParamAt 6) else from4 s
  | .chain _ _ => from4 s
  | .eth ip port =>
    if h.opcode = 0x0030 ∧ h.session = 255 then s.acceptOpen ip port b
    else if (s.session h.session).kind == .eth ip port ∧ 4 ≤ h.session then
      from4 (s.setSession h.session { s.session h.session with lastTick := s.now })
    else s.bump Reg.CMD_COUNTS_DROPPED

/-- Steps 1 and 2 of Table 04-3; on a ring step 1 checks only the limit of 4,080. -/
def State.acceptFrom1 (s : State) (src : PktSrc) (b : List Byte) : State :=
  let h := headerOf b
  let onRing := match src with | .ring _ => true | _ => false
  let t := b.length
  if (!onRing && decide (t < 16)) then s.refuse src h scBadLength (leBytes 2 0xFFFF)
  else if 4080 < h.length ∨ (!onRing ∧ t ≠ 16 + h.length) then
    s.refuse src h scBadLength (leBytes 2 (if onRing then 4080 else min 4080 (t - 16)))
  else if packetCrc b h ≠ h.crc then s.refuse src h scBadCheck []
  else s.acceptFrom3 src b

/-- The ring may take a packet: enabled, announced, and at least 64 reply units free (R97, R98). -/
def State.ringTakes (s : State) (r : Nat) : Bool :=
  s.flag (Reg.CMD_CFG_ENABLE r) && decide ((s.ring r).cmdCons ≠ (s.ring r).cmdProd) && decide (64 ≤ s.rplFree r)

/-- The command consumer index moves past `n` units. -/
def State.consume (s : State) (r n : Nat) : State :=
  s.setRing r { s.ring r with cmdCons := ((s.ring r).cmdCons + n) % idxMod }

/-- A ring's next packet: a pad entry is skipped, one that would wrap is answered BAD_LENGTH and the device moves on to
unit 0, any other is checked (R95). -/
def State.takeFromRing (s : State) (r : Nat) (b : List Byte) : State :=
  let h := headerOf b
  let u := unitsOf h.length
  let size := s.cmdSize r
  let pos := (s.ring r).cmdCons % size
  let s := s.emit (.ringRead r (s.cmdBase r + 64 * pos))
  if h.opcode = 0 ∧ h.tag = 255 then s.consume r u
  else if h.length ≤ 4080 ∧ size < pos + u then
    (s.consume r (size - pos)).refuse (.ring r) h scBadLength (leBytes 2 (64 * (size - pos) - 16))
  else (s.consume r (if 4080 < h.length then 1 else u)).acceptFrom1 (.ring r) b

/-- The session of a forwarded packet: the one its origin opened here, else a free number (R94). -/
def State.forwardedSession (s : State) (dev sess : Nat) : Option (Nat × State) :=
  match ((List.range 16).filter (fun n => decide (4 ≤ n))).find? (fun n => (s.session n).kind == .forwarded dev sess) with
  | some n => some (n, s)
  | none => s.freeSession.map fun n => (n, s.openSession n (.forwarded dev sess))

/-- The forwarded session of an origin that has closed closes here too (R94). -/
def State.closeForwarded (s : State) (dev sess : Nat) : State :=
  match ((List.range 16).filter (fun n => decide (4 ≤ n))).find? (fun n => (s.session n).kind == .forwarded dev sess) with
  | some n => s.closeSession n
  | none => s

/-- A forwarded packet: its transport length is judged (step 1, R82), and then it is checked from step 9 on (R94). A
SESSION_OPEN that was forwarded has no source address to bind to, and is answered BAD_PARAM at offset 6 (DEDUCED). -/
def State.takeForwarded (s : State) (dev sess : Nat) (b : List Byte) : State :=
  let h := headerOf b
  let src : PktSrc := .chain dev sess
  let t := b.length
  if t < 16 then s.refuse src h scBadLength (leBytes 2 0xFFFF)
  else if 4080 < h.length ∨ t ≠ 16 + h.length then s.refuse src h scBadLength (leBytes 2 (min 4080 (t - 16)))
  else if h.opcode = 0x0031 ∧ h.tag = 255 then s.closeForwarded dev sess
  else if 16 ≤ sess then s.refuse src h scBadParam (badParamAt 6)
  else match s.forwardedSession dev sess with
    | none => s.refuse src h scNoContext []
    | some (n, s) => (s.takeSlot n h).acceptFrom9 true n b

/-- COMMAND_PACKET (R82): a packet taken from a ring, a datagram or Heruf-C. -/
def execCommandPacket (src : PktSrc) (bytes : List Byte) (s : State) : Result :=
  .next <| match src with
    | .ring r => if decide (r < 4) && s.ringTakes r then s.takeFromRing r bytes else s
    | .eth ip port => s.acceptFrom1 (.eth ip port) bytes
    | .chain dev sess => s.takeForwarded dev sess bytes

/-! Doorbells and rings. -/

/-- CMD_ERR latches the cause and address of the first error since its last read (Table 04-12). -/
def State.cmdErr (s : State) (cause addr : Nat) : State :=
  if s.fld Reg.CMD_ERR_CAUSE = 0 then (s.setFld Reg.CMD_ERR_CAUSE cause).setFld Reg.CMD_ERR_ADDR addr else s

/-- DB_CMD (R97): the command producer index; one more than the ring size ahead of the consumer is ignored. -/
def execDbCmd (ring idx : Nat) (s : State) : Result :=
  .next <|
    if 4 ≤ ring then s
    else if s.cmdSize ring < (idx + idxMod - (s.ring ring).cmdCons) % idxMod then s.cmdErr 3 (0x100 * ring)
    else s.setRing ring { s.ring ring with cmdProd := idx % idxMod }

/-- Waiting replies are written while there is room (R98). -/
def State.drainReplies (s : State) (r : Nat) : List Reply → State
  | [] => s.setRing r { s.ring r with waiting := [] }
  | rep :: rest =>
    if s.rplRoom r rep.payload.length then (s.ringWrite r rep).drainReplies r rest
    else s.setRing r { s.ring r with waiting := rep :: rest }

/-- No ring is short and no record ring full for 1 s any more: the breach of C1 ends. -/
def State.mendC1 (s : State) : State :=
  if (List.range 4).any (fun r => (s.ring r).breached) || [0, 1].any (fun r => (tabGet {} s.rings r : RecRing).breached)
  then s else s.mend 1

/-- After credits return: waiting replies go out, STALL follows, and a breach of C1 that this ring made ends. -/
def State.credited (s : State) (r : Nat) : State :=
  let s := (s.drainReplies r (s.ring r).waiting).setStall r
  if (s.ring r).breached && decide (64 ≤ s.rplFree r) then
    (s.setRing r { s.ring r with breached := false }).mendC1
  else s

/-- DB_RPL (R97, R98): the reply consumer index. -/
def execDbRpl (ring idx : Nat) (s : State) : Result :=
  .next <|
    if 4 ≤ ring then s
    else if s.rplSize ring < (idx + idxMod - (s.ring ring).rplCons) % idxMod then s.cmdErr 3 (0x100 * ring + 4)
    else (s.setRing ring { s.ring ring with rplCons := idx % idxMod }).credited ring

/-- DB_FETCH (R86): the tag's slot goes to the reply ring. -/
def execDbFetch (ring value : Nat) (s : State) : Result :=
  .next <| if 4 ≤ ring then s else s.fetch ring (value % 64) ⟨0x0002, value % 64, false, false, 0, 0, ring, [], s.st⟩

/-- REPLY_RING_STALL_TIMEOUT (R98): a ring held for 1 s breaches C1. -/
def execReplyRingStallTimeout (ring : Nat) (s : State) : Result :=
  .next <|
    if decide (ring < 4) && s.flag (Reg.CMD_CFG_ENABLE ring) && decide (s.rplFree ring < 64) then
      let s := s.setFld Reg.CMD_STATUS_C1_BREACH (setBitAt (s.fld Reg.CMD_STATUS_C1_BREACH) ring)
      (s.setRing ring { s.ring ring with breached := true }).breach 1 0x04 ring
    else s

/-- What a write of CMD_CFG_r.ENABLE does beside the field (R85, R99). -/
def State.ringEnabled (s : State) (r : Nat) (was : Bool) : State :=
  let on := s.flag (Reg.CMD_CFG_ENABLE r)
  if on && !was then
    let s := s.setRing r { s.ring r with cmdProd := 0, cmdCons := 0, rplProd := 0, rplCons := 0 }
    let s := s.setSession r { s.session r with lastSeq := none }
    (s.drainReplies r (s.ring r).waiting).setStall r
  else s.setStall r

/-- ETH_SESSION_IDLE_TIMEOUT (R92). -/
def execEthSessionIdleTimeout (sess : Nat) (s : State) : Result :=
  .next <| match (s.session sess).kind with
    | .eth _ _ => if 4 ≤ sess ∧ sess < 16 ∧ s.fld Reg.CMD_CTRL_ETH_IDLE_S ≠ 0 then s.closeSession sess else s
    | _ => s

/-- KEY_LOCKOUT_END (R91). -/
def execKeyLockoutEnd (slot : Nat) (s : State) : Result :=
  .next { s with cmd := { s.cmd with lockouts := tabPut false s.cmd.lockouts slot false } }

/-- BARRIER_ENGAGE (R20): once no domain executes, the barrier command at the head of the queue puts its barrier in
force. -/
def execBarrierEngage (s : State) : Result :=
  .next <| match s.cmd.queue with
    | q :: _ =>
      if isBarrier q.opcode && s.cmd.executing.isEmpty && s.cmd.barrier.isNone then
        { s.setFld Reg.PLAT_STATE_BARRIER 1 with cmd := { s.cmd with barrier := some (q.sess, q.tag) } }
      else s
    | [] => s

/-! Commands about the session and the device. -/

/-- NOP: 0x0000. -/
def execNop (rq : Rq) (s : State) : Result := .next <| s.run rq 0x0000 fun s => s.finish rq 0x0000 scDone

/-- Whole seconds in the present state, saturating. -/
def State.secondsInState (s : State) : Nat := min (idxMod - 1) ((s.now - s.stateSince) / 250000000)

/-- What GET_STATE answers (Table 04-7). -/
def State.stateReport (s : State) : List Byte :=
  bytesOf [s.st, s.fld Reg.PLAT_STATE_PREV,
    s.fld Reg.PLAT_STATE_BARRIER + 2 * s.fld Reg.PLAT_STATE_STAGED + 4 * s.fld Reg.PLAT_STATE_JOB,
    s.fld Reg.PLAT_STATE_COND] ++ leBytes 4 s.secondsInState ++ bytesOf [s.activeDom, s.chainId]

/-- GET_STATE: 0x0001. -/
def execGetState (rq : Rq) (s : State) : Result :=
  .next <| s.run rq 0x0001 fun s => s.finish rq 0x0001 scDone s.stateReport

/-- REPLY_FETCH (R86): the slot is read without being taken; the fetch takes none itself. -/
def execReplyFetch (rq : Rq) (tag : Nat) (s : State) : Result :=
  .next <| s.fetch rq.sess tag ⟨0x0002, rq.tag, false, false, 0, rq.seq, rq.sess, [], s.st⟩

/-- A key of the non-volatile die (R91). -/
def State.key (s : State) (slot : Nat) : List Byte := tabGet keyReset s.cmd.keys slot

/-- A reply to a SESSION_OPEN: no session, no slot; a DONE goes out under NEED_REPLY only (R80). -/
def State.openReply (s : State) (ip port : Nat) (rq : Rq) (status : Nat) (payload : List Byte) : State :=
  if rq.needReply || status != scDone then
    s.respond (.eth ip port) ⟨0x0030, rq.tag, false, false, status, rq.seq, 255, payload, s.st⟩
  else s

/-- BAD_PARAM at an offset of a SESSION_OPEN's own payload. -/
def State.openBad (s : State) (ip port : Nat) (rq : Rq) (o : Nat) : State :=
  s.openReply ip port rq scBadParam (badParamAt (rqOff rq o))

/-- A BAD_CHECK on a key slot: counted, and the fourth within 60 s locks the slot out (R91). -/
def State.authFail (s : State) (slot : Nat) : State :=
  let s := s.bump Reg.CMD_COUNTS_AUTH_FAIL
  let recent := s.now :: (tabGet [] s.cmd.keyFails slot).filter fun t => decide (s.now ≤ t + ticksOfMs 60000)
  if recent.length < 4 then { s with cmd := { s.cmd with keyFails := tabPut [] s.cmd.keyFails slot recent } }
  else { s with cmd := { s.cmd with
          keyFails := tabPut [] s.cmd.keyFails slot [], lockouts := tabPut false s.cmd.lockouts slot true } }

/-- An earlier phase 0 of a source is forgotten. -/
def State.dropOpen (s : State) (ip port : Nat) : State :=
  { s with cmd := { s.cmd with opens := s.cmd.opens.filter fun (q : OpenTry) => !(q.ip == ip && q.port == port) } }

/-- Phase 0 of R90: a device nonce. -/
def State.openPhase0 (s : State) (ip port : Nat) (rq : Rq) (p : List Byte) : State :=
  let slot := leAt p 1 1
  if tabGet false s.cmd.lockouts slot then s.openReply ip port rq scResourceBusy []
  else
    let nonce := (List.range 16).map (Config.randomByte s.fresh)
    let o : OpenTry := ⟨ip, port, slot, slice p 4 16, nonce, s.now⟩
    let s := s.dropOpen ip port
    let s := { s with fresh := s.fresh + 1, cmd := { s.cmd with opens := s.cmd.opens ++ [o] } }
    s.openReply ip port rq scDone nonce

/-- Phase 1 of R90: the HMAC of the two nonces and the slot opens a session. -/
def State.openPhase1 (s : State) (ip port : Nat) (rq : Rq) (p : List Byte) : State :=
  let slot := leAt p 1 1
  match s.cmd.opens.find? (fun q => q.ip == ip && q.port == port) with
  | none => s.openBad ip port rq 16
  | some o =>
    let s := s.dropOpen ip port
    if o.tick + ticksOfMs 1000 < s.now then s.openBad ip port rq 16
    else if o.slot ≠ slot then s.openBad ip port rq 17
    else if hmacSha256 (s.key slot) (o.devNonce ++ o.hostNonce ++ bytesOf [slot]) ≠ slice p 4 32 then
      (s.authFail slot).openReply ip port rq scBadCheck []
    else match s.freeSession with
      | none => s.openReply ip port rq scNoContext []
      | some n =>
        (s.openSession n (.eth ip port)).openReply ip port rq scDone
          (bytesOf [n, 0, 0, 0] ++ hmacSha256 (s.key slot) (o.hostNonce ++ o.devNonce ++ bytesOf [n]))

/-- SESSION_OPEN (R90): 0x0030. A lock that it names under LOCKED is held by no session of number 0xFF (R74). -/
def execSessionOpen (ip port : Nat) (rq : Rq) (payload : List Byte) (s : State) : Result :=
  .next <|
    if s.held rq 0x0030 [.platform] then s
    else
      let s : State := { s with cmd := { s.cmd with
        queue := s.cmd.queue.eraseP fun q => q.is rq.sess rq.tag && q.cmd == some (.sessionOpen ip port rq payload) } }
      let phase := leAt payload 0 1
      if !acceptedIn 0x0030 s.st then s.openReply ip port rq scStateRefused []
      else match rq.lock with
        | some k => s.openReply ip port rq scLockedByOther (leBytes 2 (s.lockOwnerCode k))
        | none =>
          if 1 < phase then s.openBad ip port rq 16
          else if 3 < leAt payload 1 1 then s.openBad ip port rq 17
          else match firstNonzero (fun _ => true) (slice payload 2 2) 18 with
            | some o => s.openBad ip port rq o
            | none => if phase = 0 then s.openPhase0 ip port rq payload else s.openPhase1 ip port rq payload

/-- SESSION_CLOSE (R92, R93): 0x0031. A session closes itself, and sessions 0 to 3 close any; it is answered before it
closes. -/
def execSessionClose (rq : Rq) (sess : Nat) (s : State) : Result :=
  .next <| s.run rq 0x0031 fun s =>
    s.withParams rq 0x0031
      [(16, decide (4 ≤ sess) && decide (sess < 16) && s.sessOpen sess && (decide (rq.sess < 4) || rq.sess == sess))]
      fun s => (s.finish rq 0x0031 scDone).closeSession sess

/-- KEY_SET (R91): 0x0032, from sessions 0 to 3 only. -/
def execKeySet (rq : Rq) (slot : Nat) (key : List Byte) (s : State) : Result :=
  .next <| s.run rq 0x0032 fun s =>
    if 4 ≤ rq.sess then s.finish rq 0x0032 scBadParam (badParamAt 6)
    else s.withParams rq 0x0032 [(16, decide (slot < 4))] fun s =>
      State.finish { s with cmd := { s.cmd with keys := tabPut keyReset s.cmd.keys slot (slice key 0 32) } }
        rq 0x0032 scDone

end Sys2Proof.Machine
end

