-- ==== Sys2Proof/Machine/Records.lean ====
section
/-!
DEFINITION. The two record rings (R235): 0 defect, 1 statistics.
-/
namespace Sys2Proof.Machine

/-- A record ring. -/
def State.recRing (s : State) (r : Nat) : RecRing := tabGet {} s.rings r

/-- A record ring replaced. -/
def State.setRecRing (s : State) (r : Nat) (x : RecRing) : State := { s with rings := tabPut {} s.rings r x }

/-- Whether a ring has room for no record. -/
def RecRing.full (x : RecRing) : Bool := decide (x.size ≤ (x.prod + idxMod - x.cons) % idxMod)

/-- Whether a new record finds no place to wait: 65,536 wait already. -/
def State.recordLost (s : State) (r : Nat) : Bool := decide (65536 ≤ (s.recRing r).waiting.length)

/-- A record is made: it takes the ring's next number and waits for delivery, or is dropped and counted when 65,536
wait. `make` gives its 64 bytes from the number. -/
def State.addRecord (s : State) (r : Nat) (make : Nat → List Byte) : State :=
  let x := s.recRing r
  let next := (x.next + 1) % idxMod
  if s.recordLost r then s.setRecRing r { x with next := next, dropped := (x.dropped + 1) % idxMod }
  else s.setRecRing r { x with next := next, waiting := x.waiting ++ [make x.next] }

/-- 64 bytes from the given ones. -/
def pad64 (b : List Byte) : List Byte := (b ++ List.replicate 64 0#8).take 64

/-- The ring's vector signalled, at most once per COALESCE_US (R235). -/
def State.recSignal (s : State) (r : Nat) : State :=
  let x := s.recRing r
  if x.coalescing then s.setRecRing r { x with deferred := true }
  else (s.setRecRing r { x with coalescing := true, deferred := false }).msixSignal x.vector

/-- RECORD_DELIVER (R235): the record, then the producer index, then the vector. -/
def execRecordDeliver (ring : Nat) (s : State) : Result :=
  .next <|
    let x := s.recRing ring
    match x.waiting with
    | [] => s
    | b :: rest =>
      if !x.placed || x.full || decide (2 ≤ ring) then s
      else
        let p := (x.prod + 1) % idxMod
        let s := s.emit (.hostWrite (x.addr + 64 + 64 * (x.prod % x.size)) b)
        let s := s.emit (.hostWrite x.addr (leBytes 4 p ++ leBytes 4 x.dropped))
        (s.setRecRing ring { x with prod := p, waiting := rest }).recSignal ring

/-- CONSUMER_INDEX_POLL (R235): the consumer index read, or a failed read, which is logged and leaves the value last
read. -/
def execConsumerIndexPoll (ring : Nat) (result : IndexRead) (s : State) : Result :=
  .next <|
    let x := s.recRing ring
    if !x.placed || decide (2 ≤ ring) then s
    else match result with
      | .failed kind => (s.pcieReport kind).log1 0x40 0x1B ring
      | .index i =>
        let y := { x with cons := i % idxMod }
        if y.breached && !y.full then (s.setRecRing ring { y with breached := false }).mendC1
        else s.setRecRing ring y

/-- RECORD_RING_FULL_TIMEOUT (R235): a ring full for 1 s breaches C1. -/
def execRecordRingFullTimeout (ring : Nat) (s : State) : Result :=
  .next <|
    let x := s.recRing ring
    if x.placed && x.full && decide (ring < 2) then
      (s.setRecRing ring { x with breached := true }).breach 1 0x1B ring
    else s

/-- INTERRUPT_COALESCE (R235): COALESCE_US has passed since the ring's last interrupt. -/
def execInterruptCoalesce (ring : Nat) (s : State) : Result :=
  .next <|
    let x := s.recRing ring
    if x.deferred then
      (s.setRecRing ring { x with coalescing := true, deferred := false }).msixSignal x.vector
    else s.setRecRing ring { x with coalescing := false }

/-- A ring's size is a power of 2 from 64 to 2^20. -/
def recSizeOk (n : Nat) : Bool := (List.range 21).any fun k => decide (6 ≤ k) && decide (n = 2 ^ k)

/-- RECORD_RING_SET (R235): 0x0207. -/
def execRecordRingSet (rq : Rq) (ring vector addr size : Nat) (s : State) : Result :=
  .next <| s.run rq 0x0207 fun s =>
    s.withParams rq 0x0207 [(16, decide (ring < 2)), (20, decide (addr % 4096 = 0)), (28, recSizeOk size)] fun s =>
      let x := s.recRing ring
      let s := s.setRecRing ring { x with
        placed := true, vector := vector, addr := addr, size := size, prod := 0, cons := 0, breached := false }
      s.mendC1.finish rq 0x0207 scDone

end Sys2Proof.Machine
end

