-- ==== Sys2Proof/Machine/Code.lean ====
section
/-!
DEFINITION. Device memory as every unit reads and writes it (chapter 13): regions and channels (R304 to R308), rows, the
144-bit code (R316 to R318, R323), and what a corrected or an uncorrectable word comes to (R320, R321).
-/
namespace Sys2Proof.Machine

/-! Regions and channels. -/

/-- H in bytes. -/
def State.hostBytes (s : State) : Nat := s.hostSize * 2097152

/-- Base and size of a region (Table 13-1). -/
def State.region (s : State) (r : Nat) : Nat × Nat :=
  match r with
  | 0 => (0, 0x10000000)
  | 1 => (0x10000000, 0x20000000)
  | 2 => (0x30000000, 0x200000000)
  | 3 => (0x230000000, 0x100000000)
  | 4 => (0x330000000, 0x40000000)
  | 5 => (0x370000000, s.hostBytes)
  | 6 => (0x370000000 + s.hostBytes, s.barBufBase - (0x370000000 + s.hostBytes))
  | _ => (s.barBufBase, s.detD * 0x100000000)

/-- The region of an address. -/
def State.regionOf (s : State) (a : Nat) : Nat :=
  ((List.range 8).find? fun r => decide ((s.region r).1 ≤ a) && decide (a < (s.region r).1 + (s.region r).2)).getD 7

/-- A deterministic channel (R305). -/
def State.detCh (s : State) (c : Nat) : Bool := decide (4 ≤ c % 16) && decide (c % 16 < 4 + s.detD)

/-- The `i`-th general channel of a stack, in ascending number. -/
def State.generalCh (s : State) (stack i : Nat) : Nat :=
  16 * stack + (if i < 4 then i else i + s.detD)

/-- The channel of an address (R307). -/
def State.chanOf (s : State) (a : Nat) : Nat :=
  let r := s.regionOf a
  let o := a - (s.region r).1
  if r = 7 then s.barBufCh a
  else s.generalCh ((o / 2097152 + r) % 4) (o % 2097152 / 256 % (16 - s.detD))

/-! Rows. -/

/-- The pseudo-channel, bank and row of an address. -/
def placeOf (a : Nat) : Nat × Nat × Nat :=
  let p := Config.dramPlace a
  (p.1 % 2, p.2.1 % 64, p.2.2 % 262144)

/-- Key of a bank: channel, pseudo-channel, bank. -/
def bankKey (c : Nat) (p : Nat × Nat × Nat) : Nat := 128 * c + 64 * p.1 + p.2.1

/-- A bank within its channel: pseudo-channel and bank. -/
def bankOf (p : Nat × Nat × Nat) : Nat := 64 * p.1 + p.2.1

/-- All rows of a channel, or those of one bank, are closed (R310). -/
def State.closeRows (s : State) (c : Nat) (bank : Option Nat) : State :=
  { s with dram := { s.dram with open_ := s.dram.open_.filter fun e =>
      !(e.1 / 128 == c && (match bank with | some b => e.1 % 128 == b | none => true)) } }

/-! The code (Table 13-3). -/

/-- What a read of a code word comes to. -/
inductive WordRead where
  | clean | corrected | miscorrected | lost
  deriving DecidableEq, Repr

/-- Bits set in a byte's pattern. -/
def patBits (v : Nat) : Nat := ((List.range 8).filter (bitAt v)).length

/-- A stored word's symbol errors. -/
def State.wordErrs (s : State) (w : Nat) : List (Nat × Nat) := tabGet [] s.dram.errs w

/-- A pattern XORed into a symbol of a stored word. -/
def State.upset (s : State) (w sym pat : Nat) : State :=
  let t := s.wordErrs w
  { s with dram := { s.dram with errs := tabPut [] s.dram.errs w (tabPut 0 t sym (tabGet 0 t sym ^^^ pat)) } }

/-- A word made clean, or poisoned. -/
def State.setWord (s : State) (w : Nat) (bad : Bool) : State :=
  { s with dram := { s.dram with
      errs := tabPut [] s.dram.errs w [], poison := tabPut false s.dram.poison w bad } }

/-- Table 13-3, with the free outcome numbered `n`. -/
def State.decodeWord (s : State) (n w : Nat) : WordRead :=
  if tabGet false s.dram.poison w then .lost
  else match s.wordErrs w with
    | [] => .clean
    | [_] => .corrected
    | [a, b] =>
      if patBits a.2 = 1 ∧ patBits b.2 = 1 then .lost
      else match Config.otherPattern n with
        | 0 => .lost
        | 1 => .miscorrected
        | _ => .clean
    | _ => match Config.otherPattern n with
        | 0 => .lost
        | 1 => .miscorrected
        | _ => .clean

/-! Reports (R320, R321). -/

/-- Key of a row within its channel. -/
def rowKey (p : Nat × Nat × Nat) : Nat := (64 * p.1 + p.2.1) * 262144 + p.2.2

/-- Table 13-4. -/
def State.memRecord (s : State) (flags c : Nat) (p : Nat × Nat × Nat) (count addr action num : Nat) : List Byte :=
  let t := s.devTime
  pad64 (bytesOf [0x40, flags, c, 128 * p.1 + p.2.1] ++ leBytes 4 num ++ leBytes 4 p.2.2 ++ leBytes 4 count ++
    leBytes 8 addr ++ leBytes 6 t.sec ++ leBytes 4 t.ns ++ bytesOf [s.activeDom, action])

/-- The rows of a channel after a correction in one: a full table gives up its lowest count, the earliest on a tie. -/
def rowEnter (rows : List (Nat × Nat)) (k : Nat) : List (Nat × Nat) × Nat × Bool :=
  match rows.lookup k with
  | some n => (rows.map fun e => if e.1 = k then (k, n + 1) else e, n + 1, false)
  | none =>
    if rows.length < 1024 then (rows ++ [(k, 1)], 1, false)
    else
      let low := (rows.map Prod.snd).foldl min ((rows.headD (0, 0)).2)
      match rows.find? (fun e => e.2 == low) with
      | some e => (rows.erase e ++ [(k, 1)], 1, true)
      | none => (rows ++ [(k, 1)], 1, false)

/-- A corrected word (R318, R320): counted, tabled, recorded at the stated counts; its write-back is made. -/
def State.reportCorrected (s : State) (c w : Nat) (scrub : Bool) : State :=
  let a := 16 * w
  let p := placeOf a
  let s := (s.bump (Reg.MEM_CH_STATUS_CE c)).bump Reg.MEM_CNT_CE_COUNT
  let s := ((s.setFld (Reg.MEM_CH_ROW_PC c) p.1).setFld (Reg.MEM_CH_ROW_BANK c) p.2.1).setFld (Reg.MEM_CH_ROW_ROW c) p.2.2
  let r := rowEnter (tabGet [] s.dram.rows c) (rowKey p)
  let s := { s with dram := { s.dram with rows := tabPut [] s.dram.rows c r.1 } }
  let s := if r.2.2 then s.setFld Reg.MEM_EVENTS_ROW_FULL 1 else s
  let s := s.log1 0x03 0x30 c 0 [a]
  if [1, 4, 16, 64, 256, 1024].contains r.2.1 then
    s.addRecord 1 (s.memRecord (2 * b2n scrub + 4 * s.regionOf a) c p r.2.1 0 0)
  else s

/-- What is done about an uncorrectable word (Table 13-5): 1 served from the other copy, 2 left to the reader,
3 reloaded. -/
def State.ueAction (s : State) (n a : Nat) : Nat :=
  match s.regionOf a with
  | 7 =>
    match (if s.mirrored then s.otherCopy a else none) with
    | some o => if s.decodeWord n (o / 16) != .lost then 1 else 2
    | none => 2
  | 1 => 1
  | 0 => 3
  | _ => 2

/-- The fault-log code of an uncorrectable word (Tables 16-1 and 16-2). -/
def ueCode (region action : Nat) : Nat :=
  match region with
  | 7 => if action = 1 then 0x04 else 0x05
  | 1 => 0x04
  | 6 => 0x06
  | 2 => 0x07
  | 0 => 0x08
  | _ => 0x40

/-- MEM_UE latches the first word since VALID was read (Table 13-7). -/
def State.latchUe (s : State) (a action region c input : Nat) (scrub : Bool) : State :=
  if s.flag Reg.MEM_UE_HI_VALID then s
  else
    let s := (s.setFld Reg.MEM_UE_LO_ADDR_LO (a % 2 ^ 32)).setFld Reg.MEM_UE_HI_ADDR_HI (a / 2 ^ 32)
    let s := ((s.setFld Reg.MEM_UE_HI_VALID 1).setFld Reg.MEM_UE_HI_ACTION action).setFld Reg.MEM_UE_HI_REGION region
    ((s.setFlag Reg.MEM_UE_HI_SCRUB scrub).setFld Reg.MEM_UE_HI_CHANNEL c).setFld Reg.MEM_UE_HI_INPUT input

/-- The page whose planes hold an address of the page store: its handle (R321). -/
def State.handleAt (s : State) (a : Nat) : Nat :=
  let k := (a - (s.region 6).1) / 2097152
  match s.job.pages.find? fun p => p.planes.any fun q => q.units.contains k with
  | some p => p.handle
  | none => 0

/-! The capture buffers (R197). DESIGN CHOICE: they follow each other by port from the base of CAPTURE, and a line takes
the next place of its port's buffer; the spec lays nothing out in that region. -/

/-- Bytes of a captured line: six a pixel. -/
def State.lineBytes (s : State) (n : Nat) : Nat := 6 * s.capW n

/-- The bytes of a port's capture buffer. -/
def State.bufBytes (s : State) (n : Nat) : Nat := if s.capOn n then s.capRoom n * s.lineBytes n else 0

/-- Where the capture buffer of a port starts. -/
def State.bufBase (s : State) (n : Nat) : Nat := (s.region 2).1 + ((List.range n).map s.bufBytes).sum

/-- An uncorrectable word in a capture buffer: the line that holds it is marked, and the grid lines built from it are
INCOMPLETE (Table 13-5). -/
def State.captureLost (s : State) (a : Nat) : State :=
  match (List.range 24).find? fun n => decide (s.bufBase n ≤ a) && decide (a < s.bufBase n + s.bufBytes n) with
  | none => s
  | some n =>
    let x := s.cam n
    let k := (a - s.bufBase n) / s.lineBytes n
    s.setCam n { x with buf := x.buf.map fun l => if l.place = k then { l with lost := true } else l }

/-- An uncorrectable word (R321). -/
def State.reportLost (s : State) (n c input w : Nat) (scrub : Bool) : State :=
  let a := 16 * w
  let p := placeOf a
  let region := s.regionOf a
  let action := s.ueAction n a
  let count := ((tabGet [] s.dram.rows c).lookup (rowKey p)).getD 0
  let s := ((s.bump (Reg.MEM_CH_STATUS_UE c)).bump Reg.MEM_CNT_UE_UE).setFld Reg.MEM_EVENTS_UE 1
  let s := s.addRecord 1 (s.memRecord (1 + 2 * b2n scrub + 4 * region) c p count a action)
  let s := (s.log1 (ueCode region action) 0x30 c 0 (if region = 6 then [a, s.handleAt a] else [a])).raiseIf (s.flag Reg.MEM_EVENTS_EV_EN) 117
  let s := s.latchUe a action region c input scrub
  let s := if action = 1 then (s.bump Reg.MEM_CNT_UE_MIRROR).setFld Reg.MEM_EVENTS_MIRROR 1 else s
  (s.setWord w (decide (action = 2))).captureLost a

/-! Write-backs (R318). -/

/-- A corrected word's write-back is queued; `wrong` numbers a miscorrection. -/
def State.queueBack (s : State) (w : Nat) (wrong : Option Nat) : State :=
  { s with dram := { s.dram with backs := s.dram.backs ++ [(w, wrong)] } }

/-- A queued write-back is performed: the word is stored as it was corrected. -/
def State.writeBackWord (s : State) (e : Nat × Option Nat) : State :=
  let s := s.setWord e.1 false
  match e.2 with
  | some n => { s with mem := memPut s.mem (16 * e.1) ((Config.miscorrected n).take 16) }
  | none => s

/-- The write-backs that are queued are performed, at the next reference tick. -/
def State.backsTick (s : State) : State :=
  if s.dram.backs.isEmpty then s
  else s.dram.backs.foldl State.writeBackWord { s with dram := { s.dram with backs := [] } }

/-! Reads and writes. -/

/-- A code word read at an input (R317, R318, R321). -/
def State.readWord (s : State) (c input w : Nat) (scrub : Bool) : State :=
  let n := s.fresh
  let s := { s with fresh := n + 1 }
  match s.decodeWord n w with
  | .clean => s
  | .corrected => (s.reportCorrected c w scrub).queueBack w none
  | .miscorrected => (s.reportCorrected c w scrub).queueBack w (some n)
  | .lost => s.reportLost n c input w scrub

/-- A stored code word holds an error, or is poisoned. -/
def State.wordBad (s : State) (w : Nat) : Bool := tabGet false s.dram.poison w || !(s.wordErrs w).isEmpty

/-- The code words among `n` bytes at `a` that hold an error or are poisoned, rising. -/
def State.badWords (s : State) (a n : Nat) : List Nat :=
  let l := (s.dram.errs.map Prod.fst ++ s.dram.poison.map Prod.fst).filter
    fun w => decide (a < 16 * w + 16) && decide (16 * w < a + n) && s.wordBad w
  l.foldr (fun w acc => if acc.contains w then acc else (acc.takeWhile (· < w)) ++ w :: acc.dropWhile (· < w)) []

/-- A unit of the device reads `n` bytes at `a` through an input: each word that is not clean is decoded (R317). -/
def State.readMem (s : State) (input a n : Nat) : State :=
  (s.badWords a n).foldl (fun s w => s.readWord (s.chanOf (16 * w)) input w false) s

/-- The first code word of `n` bytes at `a` that lies on a channel: the first word, or one at the start of a 256-byte
block (R307). -/
def State.wordOn (s : State) (c a n : Nat) : Option Nat :=
  if n = 0 then none
  else if s.chanOf a = c then some (a / 16)
  else ((List.range ((a + n - 1) / 256 - a / 256)).map fun i => 256 * (a / 256 + 1 + i)).find?
    (fun b => s.chanOf b == c) |>.map (· / 16)

/-- The next code word written on the channel takes an armed injection (R323). -/
def State.inject (s : State) (at_ n : Nat) : State :=
  if !s.flag Reg.MEM_INJECT_ARM then s
  else match s.wordOn (s.fld Reg.MEM_INJECT_CHANNEL) at_ n with
    | none => s
    | some w =>
      let a := s.fld Reg.MEM_INJECT_SYM_A
      let s := if s.flag Reg.MEM_INJECT_DOUBLE then (s.upset w a 1).upset w (s.fld Reg.MEM_INJECT_SYM_B) 1
        else s.upset w a (s.fld Reg.MEM_INJECT_PATTERN)
      s.setFld Reg.MEM_INJECT_ARM 0

/-- The code words of `n` bytes at `a`. -/
def wordsOf (a n : Nat) : List Nat := (List.range ((a + n - 1) / 16 + 1 - a / 16)).map (a / 16 + ·)

/-- Bytes written through an input (R318, R323): a word written in part is read, merged and written, and one that is
found uncorrectable stays poisoned; the write-backs of the words are dropped. -/
def State.writeMem (s : State) (input a : Nat) (b : List Byte) : State :=
  let part := (s.badWords a b.length).filter fun w => !coversWord a b.length w
  let s := part.foldl (fun s w => s.readWord (s.chanOf (16 * w)) input w false) s
  let s := s.memStore a b
  let s := part.foldl (fun s w => if tabGet false s.dram.poison w then s else s.setWord w false) s
  let s := { s with dram := { s.dram with backs := s.dram.backs.filter fun e =>
    !(decide (a < 16 * e.1 + 16) && decide (16 * e.1 < a + b.length)) } }
  s.inject a b.length

/-! Maintenance interruptions (Table 13-2) and targeted refreshes. -/

/-- An interruption of `ticks` starts on a channel, of the whole channel or of one bank. -/
def State.interrupt (s : State) (c ticks : Nat) (bank : Option Nat := none) : State :=
  let s := s.setFld (Reg.MEM_CH_STATUS_MAINT c) 1
  let t := s.now + ticks
  { s with dram := { s.dram with
      busy := tabPut 0 s.dram.busy c t, ended := tabPut 0 s.dram.ended c t, bank := tabPut none s.dram.bank c bank } }

/-- No interruption is in progress on a channel. -/
def State.quiet (s : State) (c : Nat) : Bool := !s.flag (Reg.MEM_CH_STATUS_MAINT c)

/-- A general channel may start an interruption: none in progress, and 4.0 us since the last ended (R313). -/
def State.spaced (s : State) (c : Nat) : Bool :=
  let e := tabGet 0 s.dram.ended c
  s.quiet c && (e == 0 || decide (e + 1000 ≤ s.now))

/-- A targeted refresh of a bank (R314): 200 ns; its count is MEM_CNT_THR.TARGETED. -/
def State.targetRefresh (s : State) (c bank : Nat) : State :=
  ((s.closeRows c (some bank)).interrupt c 50 (some bank)).bump Reg.MEM_CNT_THR_TARGETED

/-- A held targeted refresh is made once the spacing of R313 lets it. -/
def State.targetDue (s : State) (e : Nat × Nat × Nat) : State :=
  if s.spaced e.1 then
    State.targetRefresh { s with dram := { s.dram with targets := s.dram.targets.erase e } } e.1 e.2.2
  else s

/-- The held targeted refreshes at a tick. -/
def State.targetsTick (s : State) : State := s.dram.targets.foldl State.targetDue s

/-- Interruptions of a channel that have ended no longer show in MAINT (Table 13-2). -/
def State.endMaint (s : State) : State :=
  let ended := s.dram.busy.filter fun e => decide (e.2 ≤ s.now)
  let s1 := ended.foldl (fun s e => s.setFld (Reg.MEM_CH_STATUS_MAINT e.1) 0) s
  { s1 with dram := { s1.dram with
      busy := s1.dram.busy.filter fun e => decide (s.now < e.2)
      bank := s1.dram.bank.filter fun e => !ended.any fun o => o.1 == e.1 } }

/-- What a reference tick does to the channels. -/
def State.memTick (s : State) : State := s.endMaint.targetsTick.backsTick

/-- The input of a unit's own reads and writes of a class. DESIGN CHOICE: by the slot map of junction 0, as the spec names
no engine or unit for each of them. -/
def State.classInput (s : State) (c : Traffic) : Nat := s.slotInput 0 c

/-! Bar buffers written (R152, R153, R158). -/

/-- Bytes written to every copy of a bar (R152), each at the address that `at_` gives for the copy. -/
def State.storeCopies (s : State) (at_ : Bool → Nat) (bytes : List Byte) : State :=
  s.copies.foldl (fun s c => s.writeMem (s.classInput .expansion) (at_ c) bytes) s

/-- The descriptors and fates of a bar's rings are cleared (R158). -/
def State.clearRings (s : State) (b : Nat) : State :=
  s.copies.foldl (fun s c => s.memErase (s.descRing b c)
    (s.fld (Reg.DOSE_BAR_BUF_LINES b) * (s.descBytes b + s.fateBytes b))) s

/-- A board's frame is written: payload first, its descriptor with VALID last (R152, R153). -/
def State.writeFrame (s : State) (b k f : Nat) (x : BoardFrame) : State :=
  let s := s.storeCopies (s.payloadAt b · k f)
    (x.payload ++ List.replicate (s.paddedPayload k - x.payload.length) 0#8)
  s.storeCopies (s.descAt b · k f) (descriptor f x.crc x.blank x.gen)

/-! Bar buffers read. -/

/-- A stack is in thermal emergency (R315). -/
def State.emergency (s : State) (stack : Nat) : Bool := bitAt (s.fld Reg.MEM_STATUS_EMERG) stack

/-- The copy of a bar's buffers that its reads are served from: the mirror while the first copy's stack is in emergency
(R315). -/
def State.servingCopy (s : State) (b : Nat) : Bool := s.mirrored && s.emergency (s.copyStack b false)

/-- The frame of a board that the copy in service shows VALID. -/
def State.validFrame (s : State) (b k f : Nat) : Option BoardFrame := s.readFrame b (s.servingCopy b) k f

/-- Where a read of an address is served: a first copy in a stack in emergency from the mirror (R315). -/
def State.servedAt (s : State) (a : Nat) : Nat :=
  match s.copyOf a with
  | some (b, false) => if s.servingCopy b then (s.otherCopy a).getD a else a
  | _ => a

end Sys2Proof.Machine
end

