-- ==== Sys2Proof/Machine/Gaps.lean ====
section
/-!
DEFINITION. Fates and gap records of the boards (R182, R183, R224), the speed request register (R179), and the engines
in DOZE (R398).
-/
namespace Sys2Proof.Machine

/-- A FIRE event under its enable (FIRE_CTRL.EV_EN): 0 FIRE_SAFE, 1 FIRE_LATE, 2 FIRE_ENERGY, 3 FIRE_STROBE, 4 FIRE_HOT,
5 FIRE_ECHO, 6 FIRE_TOS_EARLY, 7 YOYO_REQ. -/
def State.fireEvent (s : State) (bit : Nat) (tag : Option Nat := none) : State :=
  s.raiseIf (bitAt (s.fld Reg.FIRE_CTRL_EV_EN) bit) (59 + bit) tag

/-- REQ set; a change raises YOYO_REQ (R179). -/
def State.setReq (s : State) (v : Nat) : State :=
  if s.fld Reg.YOYO_REQ_REQ = v then s else (s.setFld Reg.YOYO_REQ_REQ v).fireEvent 7

/-- Table 07-6. -/
def gapBytes (bar board : Nat) (g : GapRun) (num : Nat) : List Byte :=
  pad64 (bytesOf [0x20, g.cause, bar, board] ++ leBytes 4 num ++ leBytes 8 (unsignedOf 64 g.first) ++
    leBytes 8 (unsignedOf 64 g.last) ++ leBytes 4 g.frame ++ leBytes 4 g.lines ++ leBytes 6 g.sec ++ leBytes 4 g.ns ++
    bytesOf [g.dom + 2 * b2n g.cont, g.sub] ++ leBytes 2 g.temp)

/-- The run of a board ends: its record is made, or counted lost (R182). -/
def State.closeGap (s : State) (k : Nat) : State :=
  match (s.board k).gap with
  | none => s
  | some g =>
    let s := s.setBoard k { s.board k with gap := none }
    let lost := s.recordLost 1
    let s := s.addRecord 1 (gapBytes ((s.boardBar k).getD 0) k g)
    if lost then s.bump Reg.FIRE_CNT_GAPS_LOST else s.bump Reg.FIRE_CNT_GAPS_WRITTEN

/-- A safe or unconfirmed line joins the board's run, or begins one (R182). -/
def State.addGap (s : State) (k : Nat) (d : Decided) : State :=
  let begin_ (s : State) (cont : Bool) : State :=
    s.setBoard k { s.board k with gap := some ⟨d.cause, d.sub, d.due, d.due, d.frame, d.frame + 1, 1, d.sec, d.ns,
      d.dom, d.temp, cont⟩ }
  match (s.board k).gap with
  | none => begin_ s false
  | some g =>
    if g.cause = d.cause ∧ g.next = d.frame then
      if g.lines < 4096 then
        s.setBoard k { s.board k with gap := some { g with last := d.due, next := d.frame + 1, lines := g.lines + 1 } }
      else begin_ (s.closeGap k) true
    else begin_ (s.closeGap k) false

/-- The ring entry of frame `f` as memory holds it: P_F, then one byte for each board of the bar (R224); 0 fills the
rest. -/
def State.fateEntry (s : State) (b f : Nat) : List Byte :=
  let r := tabGet {} (s.bar b).fates f
  let codes := (s.barBoards b).map fun k => (tabGet (0, false) r.boards k).1
  leBytes 8 (unsignedOf 64 (r.due.getD 0)) ++ bytesOf codes ++ List.replicate (s.fateBytes b - 8 - codes.length) 0#8

/-- The ring entry of frame `f` written. -/
def State.storeFate (s : State) (b f : Nat) : State := s.storeCopies (s.fateAt b · f) (s.fateEntry b f)

/-- A frame is decided: P_F and the board's fate so far enter the bar's ring (R224). -/
def State.enterFate (s : State) (b k f : Nat) (p : Option Int) (code : Nat) : State :=
  let x := s.bar b
  let r := tabGet {} x.fates f
  (s.setBar b { x with fates := tabPut {} x.fates f { due := p, boards := tabPut (0, false) r.boards k (code, false) } }).storeFate
    b f

/-- The fate byte of a decided frame in its bar's ring becomes final (R224). -/
def State.sealFate (s : State) (b k f code : Nat) : State :=
  let x := s.bar b
  match x.fates.lookup f with
  | none => s
  | some r =>
    (s.setBar b { x with fates := tabPut {} x.fates f { r with boards := tabPut (0, false) r.boards k (code, true) } }).storeFate
      b f

/-- The frames at the front of a board's list whose fate and echo are both done leave it, in order: each confirmed
line ends the run, each other joins it. -/
def State.settleFront (s : State) (k : Nat) : Nat → State
  | 0 => s
  | n + 1 =>
    match (s.board k).decided with
    | d :: rest =>
      if d.sure && d.echo then
        let s := s.setBoard k { s.board k with decided := rest }
        State.settleFront (if d.cause = 0 then s.closeGap k else s.addGap k d) k n
      else s
    | [] => s

/-- `settleFront` as far as it goes; after the job's end the run ends with the last line that was decided in it. -/
def State.settle (s : State) (k : Nat) : State :=
  let s := s.settleFront k (s.board k).decided.length
  if !s.inSt [stArmed, stPrinting, stPaused] && (s.board k).decided.isEmpty then s.closeGap k else s

/-- The decided frame `f` of a board changed. -/
def State.updDecided (s : State) (k f : Nat) (u : Decided → Decided) : State :=
  s.setBoard k { s.board k with decided := (s.board k).decided.map fun d => if d.frame = f then u d else d }

/-- The runs of every board end (job end). -/
def State.flushGaps (s : State) : State :=
  (List.range 48).foldl (fun s k => if (s.board k).decided.isEmpty then s.closeGap k else s) s

/-! DOZE (R398). -/

/-- Every engine of a cluster is powered down, the spare included (Table 02-15): in DEEP, or where no engine is in the
spare role and every slot is vacant, of a FREE half, or dozing. -/
def State.clusterOff (s : State) (c : Nat) : Bool :=
  s.fld Reg.PWR_STATUS_PSTATE == 2 || decide (17 ≤ (s.cluster c).spare) && (List.range 16).all fun k =>
    s.half ((16 * c + k) / 8) == 2 || s.dozes (16 * c + k) || (s.cluster c).vacant.contains k

/-- GATED of a cluster's canary; after the power-up of the cluster VALID is 0 until the next interval. -/
def State.showCanary (s : State) (c : Nat) : State :=
  let off := s.clusterOff c
  if s.flag (Reg.PACE_CANARY_GATED c) = off then s
  else
    let s := s.setFlag (Reg.PACE_CANARY_GATED c) off
    if off then s else s.setFld (Reg.PACE_CANARY_VALID c) 0

/-- GATED of every canary. -/
def State.showCanaries (s : State) : State := (List.range 16).foldl State.showCanary s

/-- PWR_STATUS.GATED: half clusters with a gated engine, FREE ones included; and PSTATE by Table 17-5: outside DEEP it
is DOZE while an assigned engine is gated. -/
def State.showGated (s : State) : State :=
  let s := s.showCanaries
  let doze := (List.range 32).any fun h => s.half h != 2 && s.halfDozes h
  let s := s.setFld Reg.PWR_STATUS_GATED
    ((List.range 32).filter fun h => s.half h == 2 || s.halfDozes h).length
  (if s.fld Reg.PWR_STATUS_PSTATE = 2 then s else s.setFlag Reg.PWR_STATUS_PSTATE doze).maskBreaks

/-- Every engine is powered again (R398, ARM). -/
def State.undozeAll (s : State) : State := State.showGated { s with spare := { s.spare with dozing := [] } }

end Sys2Proof.Machine
end

