-- ==== Sys2Proof/Machine/Check.lean ====
section
/-!
DEFINITION. The 32 check units (chapter 13, R324 to R328).
-/
namespace Sys2Proof.Machine

/-- A check unit. -/
def State.chkUnit (s : State) (u : Nat) : Chk := tabGet {} s.chk u

/-- A check unit replaced. -/
def State.setChk (s : State) (u : Nat) (x : Chk) : State := { s with chk := tabPut {} s.chk u x }

/-- The width w of a unit, 1 to 64. -/
def State.chkWidth (s : State) (u : Nat) : Nat := clampNat 1 64 (s.fld (Reg.CHK_CTRL_WIDTH u))

/-- One step: one byte (R324). -/
def chkStep (w poly : Nat) (refin : Bool) (reg : Nat) (b : Byte) : Nat :=
  crcBits w poly reg (if refin then byteBitsLsb b else byteBitsMsb b)

/-- `chkStep` over bytes in order, with a unit's parameters. -/
def State.chkRun (s : State) (u reg : Nat) (l : List Byte) : Nat :=
  l.foldl (chkStep (s.chkWidth u) ((s.chkUnit u).poly % 2 ^ s.chkWidth u) (s.flag (Reg.CHK_CTRL_REFIN u))) reg

/-- The result of a register value under a unit's parameters (R324). -/
def State.chkResult (s : State) (u reg : Nat) : Nat :=
  let w := s.chkWidth u
  (if s.flag (Reg.CHK_CTRL_REFOUT u) then reverseBits w reg else reg) ^^^ ((s.chkUnit u).xorout % 2 ^ w)

/-- The bytes that a feed of a word takes under FEED (R325); the reserved size 3 feeds none. -/
def feedBytes (feed : Nat) (v : Word) : List Byte :=
  leBytes (match feed with | 0 => 1 | 1 => 2 | 2 => 4 | _ => 0) v.toNat

/-- CHK_FEED (R325). -/
def execChkFeed (unit : Nat) (value : Word) (s : State) : Result :=
  .next <| s.orLater ⟨Reg.CHK_FEED unit, 31, 0⟩ value.toNat fun s =>
    let x := s.chkUnit unit
    let l := feedBytes (s.fld (Reg.CHK_CTRL_FEED unit)) value
    s.setChk unit { x with value := s.chkRun unit x.value l, count := (x.count + l.length) % idxMod }

/-- CHK_CHECK (R326). -/
def execChkCheck (unit : Nat) (s : State) : Result :=
  .next <| s.orLater (Reg.CHK_CTRL_CHECK unit) 1 fun s =>
    let x := s.chkUnit unit
    if s.chkResult unit x.value = x.expect % 2 ^ s.chkWidth unit then s.setFld (Reg.CHK_CTRL_MATCH unit) 1
    else
      let s := ((s.setFld (Reg.CHK_CTRL_MATCH unit) 0).setFld (Reg.CHK_CTRL_MISMATCH unit) 1).raise 55
      if s.flag (Reg.CHK_CTRL_IRQ_EN unit) then s.msixSignal (s.fld (Reg.CHK_CTRL_VECTOR unit)) else s

/-- CHK_RESET (R324). -/
def execChkReset (unit : Nat) (s : State) : Result :=
  .next <| s.orLater (Reg.CHK_CTRL_RESET unit) 1 fun s =>
    let x := s.chkUnit unit
    s.setChk unit { x with value := x.init % 2 ^ s.chkWidth unit, count := 0 }

/-- The words of R327: bits above w read as 0. -/
def State.chkWord (s : State) (u i : Nat) : Nat :=
  let x := s.chkUnit u
  let m := 2 ^ s.chkWidth u
  let pick (v : Nat) (hi : Bool) : Nat := if hi then v % m / 2 ^ 32 else v % m % 2 ^ 32
  match i with
  | 0 => pick x.poly false
  | 1 => pick x.poly true
  | 2 => pick x.init false
  | 3 => pick x.init true
  | 4 => pick x.xorout false
  | 5 => pick x.xorout true
  | 6 => pick x.expect false
  | 7 => pick x.expect true
  | 8 => pick x.value false
  | 9 => pick x.value true
  | 10 => pick (s.chkResult u x.value) false
  | 11 => pick (s.chkResult u x.value) true
  | 12 => x.count
  | _ => 0

/-- One half of a 64-bit value replaced, bits above w ignored. -/
def putHalf (w v : Nat) (hi : Bool) (x : Nat) : Nat :=
  (if hi then v % 2 ^ 32 + x * 2 ^ 32 else v / 2 ^ 32 * 2 ^ 32 + x) % 2 ^ w

/-- A word of R327 stored; POLY, INIT and XOROUT are ignored while a chain uses the unit, with COLLIDE (R328). -/
def State.chkPut (s : State) (u i v : Nat) : State :=
  let x := s.chkUnit u
  let w := s.chkWidth u
  if i < 6 ∧ s.flag (Reg.CHK_CTRL_USERS u) then s.setFld (Reg.CHK_CTRL_COLLIDE u) 1
  else match i with
    | 0 => s.setChk u { x with poly := putHalf w x.poly false v }
    | 1 => s.setChk u { x with poly := putHalf w x.poly true v }
    | 2 => s.setChk u { x with init := putHalf w x.init false v }
    | 3 => s.setChk u { x with init := putHalf w x.init true v }
    | 4 => s.setChk u { x with xorout := putHalf w x.xorout false v }
    | 5 => s.setChk u { x with xorout := putHalf w x.xorout true v }
    | 6 => s.setChk u { x with expect := putHalf w x.expect false v }
    | 7 => s.setChk u { x with expect := putHalf w x.expect true v }
    | 8 => s.setChk u { x with value := putHalf w x.value false v }
    | 9 => s.setChk u { x with value := putHalf w x.value true v }
    | 12 => s.setChk u { x with count := v }
    | _ => s

/-- INDEX raised by 1. -/
def State.chkNext (s : State) (u : Nat) : State := s.bumpWrap (Reg.CHK_IDX_INDEX u)

/-- CHK_DATA_WRITE (R327). -/
def execChkDataWrite (unit : Nat) (value : Word) (s : State) : Result :=
  .next <| s.orLater ⟨Reg.CHK_DATA unit, 31, 0⟩ value.toNat fun s =>
    (s.chkPut unit (s.fld (Reg.CHK_IDX_INDEX unit)) value.toNat).chkNext unit

end Sys2Proof.Machine
end

