-- ==== Sys2Proof/Machine/Dma.lean ====
section
/-!
DEFINITION. The DMA channels (chapter 05, R109 to R117): descriptors, requests, the running check, and the end of a chain.
Their rows stand in DmaRows.lean.
-/
namespace Sys2Proof.Machine

/-- A channel. -/
def State.dmaCh (s : State) (ch : Nat) : DmaChan := tabGet {} s.ingest.chans ch

/-- A channel replaced. -/
def State.setDmaCh (s : State) (ch : Nat) (x : DmaChan) : State :=
  { s with ingest := { s.ingest with chans := tabPut {} s.ingest.chans ch x } }

/-- The page ingest on a channel. -/
def State.page (s : State) (ch : Nat) : Ingest := tabGet {} s.ingest.pages ch

/-- The page ingest on a channel replaced. -/
def State.setPage (s : State) (ch : Nat) (x : Ingest) : State :=
  { s with ingest := { s.ingest with pages := tabPut {} s.ingest.pages ch x } }

/-- Whether a channel's chain runs. -/
def State.chActive (s : State) (ch : Nat) : Bool := s.flag (Reg.DMA_STATUS_ACTIVE ch)

/-! Descriptors (Table 05-1). -/

/-- HOST_ADDR. -/
def dHost (d : List Byte) : Nat := leAt d 0 8
/-- LENGTH. -/
def dLen (d : List Byte) : Nat := leAt d 8 4
/-- KIND. -/
def dKind (d : List Byte) : Nat := leAt d 12 1
/-- FLAGS. -/
def dFlags (d : List Byte) : Nat := leAt d 13 1
/-- DEV_ADDR. -/
def dDev (d : List Byte) : Nat := leAt d 16 8
/-- NEXT. -/
def dNext (d : List Byte) : Nat := leAt d 24 8
/-- END. -/
def dEnd (d : List Byte) : Bool := bitAt (dFlags d) 1

/-- Bytes in 2 MiB. -/
def mib2 : Nat := 2097152

/-- Whether a transfer lies wholly in a region that allows its direction (R308, Table 13-1). -/
def State.hostAccess (s : State) (toDev : Bool) (a n : Nat) : Bool :=
  let inside (base size : Nat) : Bool := decide (base ≤ a) && decide (a + n ≤ base + size)
  inside 0x370000000 (s.hostSize * mib2) ||
    (!toDev && (inside 0x230000000 0x100000000 || inside 0x330000000 0x40000000))

/-- The bad-descriptor cases of R111. NEXT is ignored when END is 1. -/
def State.descBad (s : State) (ingest : Bool) (d : List Byte) : Bool :=
  let k := dKind d
  decide (dLen d = 0) || decide (16777216 < dLen d) || decide (2 < k) || (ingest != decide (k = 0))
    || (decide (k ≠ 0) && !s.hostAccess (decide (k = 1)) (dDev d) (dLen d))
    || decide (8 ≤ dFlags d) || decide (leAt d 14 2 ≠ 0) || (decide (k = 0) && decide (dDev d ≠ 0))
    || (!dEnd d && decide (dNext d % 32 ≠ 0))

/-! The running check (R113). -/

/-- The initial running value of a chain. -/
def State.checkInit (s : State) (ch : Nat) : Nat :=
  match s.fld (Reg.DMA_CTRL_CHECK ch) with
  | 1 => 0xFFFFFFFF
  | 2 =>
    let u := s.fld (Reg.DMA_CTRL_CHK_UNIT ch)
    (s.chkUnit u).init % 2 ^ s.chkWidth u
  | _ => 0

/-- Data fed to the running check. -/
def State.checkFeed (s : State) (ch v : Nat) (l : List Byte) : Nat :=
  match s.fld (Reg.DMA_CTRL_CHECK ch) with
  | 1 => crc32cRun v l
  | 2 => s.chkRun (s.fld (Reg.DMA_CTRL_CHK_UNIT ch)) v l
  | _ => v

/-- The value of the running check. -/
def State.checkValue (s : State) (ch : Nat) : Nat :=
  match s.fld (Reg.DMA_CTRL_CHECK ch) with
  | 1 => (s.dmaCh ch).check ^^^ 0xFFFFFFFF
  | 2 => s.chkResult (s.fld (Reg.DMA_CTRL_CHK_UNIT ch)) (s.dmaCh ch).check
  | _ => 0

/-- A chain starts or ends its use of a check unit (R328). -/
def State.chkUser (s : State) (ch : Nat) (start : Bool) : State :=
  if s.fld (Reg.DMA_CTRL_CHECK ch) = 2 then
    let f := Reg.CHK_CTRL_USERS (s.fld (Reg.DMA_CTRL_CHK_UNIT ch))
    s.setFld f (if start then s.fld f + 1 else s.fld f - 1)
  else s

/-! Chains. -/

/-- The host bridge port of a channel (R109). -/
def bridgePort (ch : Nat) : Nat := ch % 4

/-- The traffic class that CLASS gives a channel (R109). -/
def State.chClass (s : State) (ch : Nat) : Traffic := if s.flag (Reg.DMA_CTRL_CLASS ch) then .background else .ingest

/-- The arbiter input on which a channel's traffic enters the fabric, at its bridge port's junction (R52, R109). -/
def State.chInput (s : State) (ch : Nat) : Nat :=
  s.slotInput (FabricUnit.bridge (bridgePort ch)).junction (s.chClass ch)

/-- The lowest free flow context of kind DMA (R131). -/
def State.freeDmaCtx (s : State) : Option Nat :=
  (List.range 256).find? fun n => !s.ingest.chans.any fun c => c.2.ctx == some n

/-- DMA_HEAD. -/
def State.dmaHead (s : State) (ch : Nat) : Nat :=
  s.fld (Reg.DMA_HEAD_HI_ADDR_HI ch) * 2 ^ 32 + s.fld (Reg.DMA_HEAD_LO_ADDR_LO ch) * 32

/-- A chain starts at DMA_HEAD (R110). -/
def State.chainStart (s : State) (ch : Nat) : State :=
  let s := ((s.setFld (Reg.DMA_STATUS_ACTIVE ch) 1).setFld (Reg.DMA_CTRL_RUN ch) 1).setFld (Reg.DMA_STATUS_HOPS ch) 0
  let a := s.dmaHead ch
  let ctx := if s.fld (Reg.DMA_CTRL_CHECK ch) = 0 then none else s.freeDmaCtx
  (s.setDmaCh ch { s.dmaCh ch with
    cur := a, desc := none, last := a, moved := 0, issued := 0, stop := none, ctx := ctx,
    check := s.checkInit ch }).chkUser ch true

/-- A channel's bit in DMA_DONE. -/
def State.dmaMark (s : State) (ch : Nat) : State :=
  let f := if ch < 32 then Reg.DMA_DONE_LO_DONE else Reg.DMA_DONE_HI_DONE
  s.setFld f (setBitAt (s.fld f) (ch % 32))

/-- A channel's bit in DMA_DONE, and its vector (R112). -/
def State.dmaDone (s : State) (ch : Nat) : State := (s.dmaMark ch).msixSignal (s.fld (Reg.DMA_CTRL_VECTOR ch))

/-- The write-back entry (Table 05-2). -/
def State.writeBack (s : State) (ch code addr residue : Nat) : State :=
  if s.flag Reg.DMA_GCTRL_WB_EN then
    let valid := decide (s.fld (Reg.DMA_CTRL_CHECK ch) ≠ 0) && decide (code = 0)
    let flags := b2n valid + 2 * s.fld (Reg.DMA_STATUS_FAULT_OWN ch) + 4 * s.fld (Reg.DMA_STATUS_STOPPED ch)
    let base := s.fld Reg.DMA_WB_HI_ADDR_HI * 2 ^ 32 + s.fld Reg.DMA_WB_LO_ADDR_LO * 2048
    s.emit (.hostWrite (base + 32 * ch)
      (leBytes 4 (s.dmaCh ch).chains ++ bytesOf [code, flags, 0, 0] ++ leBytes 8 addr ++ leBytes 4 residue ++
        leBytes 4 (s.fld (Reg.DMA_STATUS_HOPS ch)) ++ leBytes 8 (s.checkValue ch)))
  else s

/-- A chain stops with a code (Table 05-3): what the channel shows. -/
def State.chainStop (s : State) (ch code : Nat) (own stopped : Bool) : State :=
  let x := s.dmaCh ch
  let s := s.chkUser ch false
  let s := s.setDmaCh ch { x with
    desc := none, moved := 0, issued := 0, stop := none, ctx := none, chains := (x.chains + 1) % idxMod }
  let s := (s.setFld (Reg.DMA_STATUS_ACTIVE ch) 0).setFld (Reg.DMA_CTRL_RUN ch) 0
  let s := (s.setFld (Reg.DMA_STATUS_END ch) code).setFlag (Reg.DMA_STATUS_FAULT_OWN ch) own
  s.setFlag (Reg.DMA_STATUS_STOPPED ch) stopped

/-- A chain ends with a code (R112): the entry, the bit, the vector. A chain that ends SELF_LINK or CHAIN_HOP_LIMIT
breaches C2 for the moment (R111). -/
def State.chainEnd (s : State) (ch code addr residue : Nat) (own stopped : Bool := false) : State :=
  let s := ((s.chainStop ch code own stopped).writeBack ch code addr residue).dmaDone ch
  if code = 4 ∨ code = 5 then s.breachOnce 2 0x08 ch [addr] else s

/-- The descriptor that an ABORTED, BUS_ERROR or STOPPED chain names, and its residue (R112). -/
def State.inProgress (s : State) (ch : Nat) : Nat × Nat :=
  let x := s.dmaCh ch
  match x.desc with
  | some d => (x.cur, dLen d - x.moved)
  | none => (x.last, 0)

/-! Requests and data (R109, R110). -/

/-- The 512-byte blocks of host memory from address `a` to `b`, cut at both ends: the read requests of R109. That each
request ends at a 512-byte boundary is the model's (DESIGN CHOICE); so none crosses 4 KiB. -/
def readRequests : Nat → Nat → Nat → List (Nat × Nat)
  | 0, _, _ => []
  | n + 1, a, b =>
    if a < b then
      let e := min b (512 * (a / 512 + 1))
      (a, e - a) :: readRequests n e b
    else []

/-- A channel requests as much of its descriptor's data as 16 outstanding reads allow (R109); FROM_DEV reads nothing, and
a chain that is ending or a bus error stops new requests (R114, R116). -/
def State.issueReads (s : State) (ch : Nat) : State :=
  let x := s.dmaCh ch
  match x.desc with
  | none => s
  | some d =>
    if dKind d = 2 ∨ x.stop.isSome ∨ s.ingest.halting.isSome then s
    else
      let a := dHost d
      let upto := max x.moved (min (dLen d) (512 * ((a + x.moved) / 512 + 16) - a))
      let l := readRequests (upto - x.issued) (a + x.issued) (a + upto)
      let s := s.setDmaCh ch { x with issued := max x.issued upto }
      l.foldl (fun s r => s.emit (.hostRead (bridgePort ch) (s.chInput ch) r.1 r.2)) s

/-- Requests of a channel are outstanding. -/
def DmaChan.outstanding (x : DmaChan) : Bool := x.desc.isSome && decide (x.moved < x.issued)

/-- DMA data writes have Relaxed Ordering when RO_EN and the host's Enable Relaxed Ordering are both 1 (R345). -/
def State.relaxed (s : State) : Bool := s.flag Reg.PCIE_CTRL_RO_EN && Config.hostRelaxed

/-- `n` bytes of device memory at `a` go to host memory at `h` in writes of at most 512 bytes; one that carries a
poisoned code word is sent poisoned and counted (R321, R345). -/
def State.hostData (s : State) (h a n : Nat) : State :=
  (List.range (ceilDiv n 512)).foldl (fun s i =>
    let o := 512 * i
    let k := min 512 (n - o)
    let bad := s.poisonedAt (a + o) k
    let s := if bad then s.bump Reg.PCIE_TX_POISONED else s
    s.emit (.dmaWrite (h + o) (memGet s.mem (a + o) k) s.relaxed bad)) s

/-- A part of a descriptor's data, `o` bytes into it, moves (Table 05-1): to the parser, to device memory, or to host
memory. -/
def State.moveData (s : State) (ch o : Nat) (d data : List Byte) : State :=
  match dKind d with
  | 0 =>
    let p := s.page ch
    if p.active then s.setPage ch { p with got := p.got + data.length, buf := p.buf ++ data } else s
  | 1 => s.writeMem (s.chInput ch) (dDev d + o) data
  | _ =>
    let s := s.readMem (s.chInput ch) (dDev d + o) data.length
    s.hostData (dHost d + o) (dDev d + o) data.length

/-- The data that is delivered next of a descriptor: what the host memory held, no more than is left of the descriptor
(or of the requests issued, for a chain that is ending); for FROM_DEV, device memory, all that is left where no length
is given. -/
def State.nextData (s : State) (ch : Nat) (d data : List Byte) : List Byte :=
  let x := s.dmaCh ch
  let rest := dLen d - x.moved
  if dKind d = 2 then
    memGet s.mem (dDev d + x.moved) (if data.isEmpty then rest else min data.length rest)
  else data.take (if x.stop.isSome then x.issued - x.moved else rest)

/-- A part of the data of the descriptor in progress is delivered, and fed to the running check (R113). -/
def State.deliverData (s : State) (ch : Nat) (d data : List Byte) : State :=
  let x := s.dmaCh ch
  let chk := if bitAt (dFlags d) 2 then s.checkFeed ch x.check data else x.check
  let s := s.moveData ch x.moved d data
  s.setDmaCh ch { x with moved := x.moved + data.length, issued := max x.issued (x.moved + data.length), check := chk }

/-! Bus errors (R116). -/

/-- A bus error stops new requests and starts: its chains are ending, or BUS_HALT is set. -/
def State.busStopped (s : State) : Bool := s.flag Reg.DMA_GSTATUS_BUS_HALT || s.ingest.halting.isSome

/-- Once every chain has ended after a bus error, BUS_HALT is set with the first error's kind and address, and the vector
is signalled (R116, step 5). -/
def State.haltDone (s : State) : State :=
  match s.ingest.halting with
  | none => s
  | some (kind, addr) =>
    if (List.range 64).any s.chActive then s
    else
      let s : State := { s with ingest := { s.ingest with halting := none } }
      let s := (s.setFld Reg.DMA_GSTATUS_BUS_HALT 1).setFld Reg.DMA_GSTATUS_FAULT_KIND kind
      let s := (s.setFld Reg.DMA_FAULT_LO_ADDR_LO (addr % 2 ^ 32)).setFld Reg.DMA_FAULT_HI_ADDR_HI (addr / 2 ^ 32 % 2 ^ 32)
      (s.raise 113).msixSignal (s.fld Reg.DMA_GCTRL_VECTOR)

end Sys2Proof.Machine
end

