-- ==== Sys2Proof/Machine/Inflate.lean ====
section
/-!
DEFINITION. Raw DEFLATE (RFC 1951) as the decompressors take it, with the errors of Table 05-8 and their positions
(R119, R121, R122, R124). An error is a code and a bit position in the block's data.
-/
namespace Sys2Proof.Machine

/-- The bits still to read and how many have been read. -/
structure BitIn where
  bits : List Bool
  pos  : Nat
  deriving DecidableEq, Repr

/-- An error of Table 05-8: code and bit position. -/
abbrev Inf := Except (Nat × Nat)

/-- `n` bits, least significant first; TRUNCATED_STREAM at the bit after the last one present. -/
def getBits : Nat → BitIn → Inf (Nat × BitIn)
  | 0, r => .ok (0, r)
  | n + 1, r =>
    match r.bits with
    | [] => .error (0x06, r.pos)
    | b :: t => (getBits n ⟨t, r.pos + 1⟩).map fun p => (b2n b + 2 * p.1, p.2)

/-- How many symbols have code length `n`. -/
def lenCount (lens : List Nat) (n : Nat) : Nat := (lens.filter (· == n)).length

/-- The first code of length `n` (RFC 1951, 3.2.2). -/
def firstCode (lens : List Nat) : Nat → Nat
  | 0 => 0
  | n + 1 => 2 * (firstCode lens n + if n = 0 then 0 else lenCount lens n)

/-- The symbol of the code `c` of length `n`. -/
def symOf (lens : List Nat) (n c : Nat) : Option Nat :=
  let k := firstCode lens n
  if k ≤ c ∧ c < k + lenCount lens n then
    (((List.range lens.length).filter fun i => lens.getD i 0 == n)[c - k]?)
  else none

/-- The longest code of a table. -/
def maxLen (lens : List Nat) : Nat := lens.foldl max 0

/-- One code read bit by bit: `n` bits already read make `c`. -/
def decodeFrom (lens : List Nat) (start : Nat) : Nat → Nat → Nat → BitIn → Inf (Nat × BitIn)
  | 0, _, _, _ => .error (0x01, start)
  | fuel + 1, n, c, r =>
    match r.bits with
    | [] => .error (0x06, r.pos)
    | b :: t =>
      let c' := 2 * c + b2n b
      let r' : BitIn := ⟨t, r.pos + 1⟩
      match symOf lens (n + 1) c' with
      | some v => .ok (v, r')
      | none => decodeFrom lens start fuel (n + 1) c' r'

/-- The next code of a table; ILLEGAL_CODE where the table defines none. -/
def decodeSym (lens : List Nat) (r : BitIn) : Inf (Nat × BitIn) := decodeFrom lens r.pos (maxLen lens) 0 0 r

/-- The Kraft sum of a table in units of 2^-15. -/
def kraft (lens : List Nat) : Nat := ((lens.filter (· != 0)).map fun n => 2 ^ (15 - n)).sum

/-- A complete code. -/
def codeOk (lens : List Nat) : Bool := kraft lens == 2 ^ 15

/-- A distance table may also have no code, or a single code of length 1. -/
def distOk (lens : List Nat) : Bool := codeOk lens || lens.all (· == 0) || lens.filter (· != 0) == [1]

/-- The order of the code length code lengths. -/
def clOrder : List Nat := [16, 17, 18, 0, 8, 7, 9, 6, 10, 5, 11, 4, 12, 3, 13, 2, 14, 1, 15]

/-- `n` lengths of 3 bits, each with its place. -/
def readCl : List Nat → BitIn → Inf (List (Nat × Nat) × BitIn)
  | [], r => .ok ([], r)
  | i :: is, r => do
    let (v, r) ← getBits 3 r
    let (l, r) ← readCl is r
    .ok ((i, v) :: l, r)

/-- The literal, length and distance code lengths, newest first, each with the position of the code that gave it. -/
def readLens (cl : List Nat) (total : Nat) : Nat → List (Nat × Nat) → BitIn → Inf (List (Nat × Nat) × BitIn)
  | 0, acc, r => .ok (acc, r)
  | fuel + 1, acc, r =>
    if total ≤ acc.length then .ok (acc, r)
    else do
      let at_ := r.pos
      let (v, r) ← decodeSym cl r
      if v < 16 then readLens cl total fuel ((v, at_) :: acc) r
      else
        let prev := acc.head?.map Prod.fst
        let (bits, base) := if v = 16 then (2, 3) else if v = 17 then (3, 3) else (7, 11)
        if v = 16 ∧ prev.isNone then .error (0x01, at_)
        else
          let (e, r) ← getBits bits r
          let n := base + e
          if total < acc.length + n then .error (0x01, at_)
          else readLens cl total fuel (List.replicate n (if v = 16 then prev.getD 0 else 0, at_) ++ acc) r

/-- The two code tables of a dynamic block. -/
def readTables (r : BitIn) : Inf (List Nat × List Nat × BitIn) := do
  let at0 := r.pos
  let (hlit, r) ← getBits 5 r
  if 29 < hlit then .error (0x01, at0)
  else
    let (hdist, r) ← getBits 5 r
    let (hclen, r) ← getBits 4 r
    let at1 := r.pos
    let (cl, r) ← readCl (clOrder.take (hclen + 4)) r
    let lens := (List.range 19).map fun i => ((cl.find? fun p => p.1 == i).map Prod.snd).getD 0
    if !codeOk lens then .error (0x05, at1)
    else
      let at2 := r.pos
      let total := 257 + hlit + (1 + hdist)
      let (l, r) ← readLens lens total total [] r
      let l := l.reverse
      let lit := (l.take (257 + hlit)).map Prod.fst
      let dist := l.drop (257 + hlit)
      if !codeOk lit then .error (0x05, at2)
      else if !distOk (dist.map Prod.fst) then .error (0x05, (dist.head?.map Prod.snd).getD at2)
      else .ok (lit, dist.map Prod.fst, r)

/-- The fixed literal and length code. -/
def fixedLit : List Nat :=
  List.replicate 144 8 ++ List.replicate 112 9 ++ List.replicate 24 7 ++ List.replicate 8 8

/-- The fixed distance code. -/
def fixedDist : List Nat := List.replicate 32 5

/-- Extra bits and base of a length code 257 to 285. -/
def lengthCode (c : Nat) : Nat × Nat :=
  let i := c - 257
  if i < 8 then (0, 3 + i)
  else if i = 28 then (0, 258)
  else
    let e := i / 4 - 1
    (e, 3 + (4 + i % 4) * 2 ^ e)

/-- Extra bits and base of a distance code 0 to 29. -/
def distCode (c : Nat) : Nat × Nat :=
  if c < 4 then (0, 1 + c)
  else
    let e := c / 2 - 1
    (e, 1 + (2 + c % 2) * 2 ^ e)

/-- `n` bytes copied from `d` bytes back; the history is newest first. -/
def copyBack (d : Nat) : Nat → List Byte → List Byte
  | 0, h => h
  | n + 1, h => copyBack d n (h.getD (d - 1) 0#8 :: h)

/-- The symbols of a block up to its end code: history newest first, output still allowed. -/
def inflateSyms (lit dist : List Nat) : Nat → List Byte → Nat → BitIn → Inf (List Byte × Nat × BitIn)
  | 0, _, _, r => .error (0x06, r.pos)
  | fuel + 1, h, room, r => do
    let at_ := r.pos
    let (v, r) ← decodeSym lit r
    if v < 256 then
      if room = 0 then .error (0x03, at_)
      else inflateSyms lit dist fuel (BitVec.ofNat 8 v :: h) (room - 1) r
    else if v = 256 then .ok (h, room, r)
    else if 285 < v then .error (0x01, at_)
    else
      let (e, r) ← getBits (lengthCode v).1 r
      let n := (lengthCode v).2 + e
      if room < n then .error (0x03, at_)
      else
        let at2 := r.pos
        let (c, r) ← decodeSym dist r
        if 29 < c then .error (0x01, at2)
        else
          let (f, r) ← getBits (distCode c).1 r
          let d := (distCode c).2 + f
          if h.length < d then .error (0x02, at2)
          else inflateSyms lit dist fuel (copyBack d n h) (room - n) r

/-- `n` bytes of a stored block. -/
def storedBytes : Nat → List Byte → BitIn → Inf (List Byte × BitIn)
  | 0, h, r => .ok (h, r)
  | n + 1, h, r => do
    let (b, r) ← getBits 8 r
    storedBytes n (BitVec.ofNat 8 b :: h) r

/-- A stored block after its BTYPE. -/
def inflateStored (h : List Byte) (room : Nat) (r : BitIn) : Inf (List Byte × Nat × BitIn) := do
  let (_, r) ← getBits ((8 - r.pos % 8) % 8) r
  let at_ := r.pos
  let (len, r) ← getBits 16 r
  let (nlen, r) ← getBits 16 r
  if len + nlen ≠ 65535 then .error (0x04, at_)
  else if room < len then .error (0x03, at_)
  else
    let (h, r) ← storedBytes len h r
    .ok (h, room - len, r)

/-- One RFC 1951 block: the history, the output still allowed, and BFINAL. -/
def inflateBlock (h : List Byte) (room : Nat) (r : BitIn) : Inf (List Byte × Nat × Bool × BitIn) := do
  let (fin, r) ← getBits 1 r
  let at_ := r.pos
  let (type, r) ← getBits 2 r
  let fuel := r.bits.length + 1
  let (h, room, r) ←
    if type = 0 then inflateStored h room r
    else if type = 1 then inflateSyms fixedLit fixedDist fuel h room r
    else if type = 2 then do
      let (lit, dist, r) ← readTables r
      inflateSyms lit dist fuel h room r
    else .error (0x01, at_)
  .ok (h, room, fin == 1, r)

/-- The bits after the last RFC 1951 block are zero and fewer than eight; else KPS_FIELD: of eight or more bits at the
first of them, of fewer at the first that is nonzero (DEDUCED from "the first such bit", Table 05-8). -/
def padBad (r : BitIn) : Option Nat :=
  if 8 ≤ r.bits.length then some r.pos else (r.bits.findIdx? id).map (r.pos + ·)

/-- The RFC 1951 blocks of one KPS block's data. -/
def inflateData : Nat → List Byte → Nat → BitIn → Inf (List Byte × Nat × Bool)
  | 0, h, room, _ => .ok (h, room, false)
  | fuel + 1, h, room, r => do
    let (h, room, fin, r) ← inflateBlock h room r
    if fin || decide (r.bits.length < 8) then
      match padBad r with
      | some p => .error (0x12, p)
      | none => .ok (h, room, fin)
    else inflateData fuel h room r

/-- The bits of bytes, least significant first. -/
def bitsLsb (l : List Byte) : List Bool := l.flatMap byteBitsLsb

/-- A DEFLATE block's data decoded after `h` (oldest first): what is produced, and whether BFINAL was met. It must
produce OLEN bytes and not pass `room`. -/
def inflate (h : List Byte) (olen room : Nat) (data : List Byte) : Inf (List Byte × Bool) := do
  let limit := min olen room
  let r : BitIn := ⟨bitsLsb data, 0⟩
  let (out, left, fin) ← inflateData (8 * data.length + 1) h.reverse limit r
  if olen ≠ limit - left then .error (0x06, 8 * data.length)
  else .ok ((out.take olen).reverse, fin)

end Sys2Proof.Machine
end

