-- ==== Sys2Proof/Machine/Pages.lean ====
section
/-!
DEFINITION. The page store (chapter 05, R120 to R127): its units, the planes in device memory, how a page ingest fails
or is stored, and what the end of a chain does to it.
-/
namespace Sys2Proof.Machine

/-! Units of the page store (R126, R307, Table 13-1). -/

/-- The base of the PAGE_STORE region. -/
def State.storeBase (s : State) : Nat := 0x370000000 + s.hostSize * mib2

/-- The units of the PAGE_STORE region. -/
def State.storeUnits (s : State) : Nat :=
  ((64 - 4 * s.fld Reg.MEM_DET_D) * 0x40000000 - 0x370000000) / mib2 - s.hostSize

/-- The stack of a unit of the page store, region 6 (R307). -/
def unitStack (k : Nat) : Nat := (k + 6) % 4

/-- Units of 2 MiB that planes take. -/
def unitsFor (sizes : List Nat) : Nat := (sizes.map fun n => ceilDiv n mib2).sum

/-- Units that hold planes: of stored pages and of pages being ingested. -/
def State.planeUnits (s : State) : List Nat :=
  (s.job.pages.flatMap fun p => p.planes.flatMap Plane.units) ++
    s.ingest.pages.flatMap fun p => p.2.planes.flatMap PlaneIn.units

/-- Staged bytes of a page. -/
def Ingest.stagedBytes (x : Ingest) : Nat := ((x.segs.flatMap Segment.staged).map fun b => b.data.length).sum

/-- Units in use: planes, and the staged input in whole units. -/
def State.usedUnits (s : State) : Nat :=
  s.planeUnits.length + ceilDiv (s.ingest.pages.map fun p => p.2.stagedBytes).sum mib2

/-- The lowest unit on a stack that is not taken. -/
def freeOn (taken : List Nat) (stack : Nat) : Option Nat :=
  ((List.range (taken.length + 1)).map fun i => 4 * i + (stack + 2) % 4).find? fun k => !taken.contains k

/-- The next unit of a plane: on stack `want`, else on the next stack that has one below `total`. -/
def nextUnit (total : Nat) (taken : List Nat) (want : Nat) : Option Nat :=
  ([0, 1, 2, 3].filterMap fun i => freeOn taken ((want + i) % 4)).find? fun k => decide (k < total)

/-- `n` units that rotate across the four stacks, the first on stack `want`. DESIGN CHOICE: the lowest free unit of each
stack; the spec states the rotation alone. -/
def takeUnits (total : Nat) : Nat → List Nat → Nat → List Nat
  | 0, _, _ => []
  | n + 1, taken, want =>
    match nextUnit total taken want with
    | none => []
    | some k => k :: takeUnits total n (k :: taken) ((unitStack k + 1) % 4)

/-- Units for the planes of a page, given those taken. -/
def placePlanes (total : Nat) : List Nat → List PlaneIn → List PlaneIn
  | _, [] => []
  | taken, p :: t =>
    let l := takeUnits total (ceilDiv p.size mib2) taken 0
    { p with units := l } :: placePlanes total (l ++ taken) t

/-! Planes in device memory. -/

/-- The address of byte `o` of a plane held in `units`. -/
def State.planeAddr (s : State) (units : List Nat) (o : Nat) : Nat :=
  s.storeBase + mib2 * units.getD (o / mib2) 0 + o % mib2

/-- Byte `o` of a plane. -/
def State.planeByte (s : State) (units : List Nat) (o : Nat) : Byte := memByte s.mem (s.planeAddr units o)

/-- `n` bytes of a plane from byte `o`. -/
def State.planeBytes (s : State) (units : List Nat) (o n : Nat) : List Byte :=
  (List.range n).map fun i => s.planeByte units (o + i)

/-- Output bytes written into a plane from byte `o`, unit by unit. -/
def State.storePlane (s : State) (units : List Nat) : Nat → Nat → List Byte → State
  | 0, _, _ => s
  | n + 1, o, b =>
    if b.isEmpty then s
    else
      let k := mib2 - o % mib2
      (s.writeMem (s.classInput .ingest) (s.planeAddr units o) (b.take k)).storePlane units n (o + k) (b.drop k)

/-! Segments (R119, R123). -/

/-- The history of a segment as a decompressor refills it: the last 32 KiB of its output in the page store. -/
def State.history (s : State) (x : Ingest) (g : Segment) : List Byte :=
  let n := min g.made 32768
  s.planeBytes ((x.planes.getD g.plane {}).units) (g.base + (g.made - n)) n

/-- One staged block decoded: the segment after it, and its output; an error carries the code, the byte offset and the
bit (R119, R124). RAW is its own output. -/
def Segment.block (g : Segment) (b : StagedBlock) : Except (Nat × Nat × Nat) (Segment × List Byte) :=
  let put (o : List Byte) (fin : Bool) : Segment × List Byte :=
    let h := g.hist ++ o
    ({ g with made := g.made + o.length, hist := h.drop (h.length - 32768), final := fin,
              onUnit := g.onUnit + o.length }, o)
  if g.type = 0 then .ok (put b.data g.final)
  else if g.final then .error (0x13, b.off, 0)
  else match inflate g.hist b.olen b.room b.data with
    | .error (c, p) => .error (c, b.off + 16 + p / 8, p % 8)
    | .ok (o, fin) => .ok (put o fin)

/-- Input of a segment decoded block by block as far as it is staged. With `others` waiting it stops once it has made 4
MiB on its unit (R123; the model leaves at the end of a block: DEDUCED, a unit need not leave within one). -/
def Segment.feed (others : Bool) : Nat → Segment → Except (Nat × Nat × Nat) (Segment × List Byte)
  | 0, g => .ok (g, [])
  | n + 1, g =>
    match g.staged with
    | [] => if g.closed && g.type == 1 && !g.final then .error (0x06, g.endAt, 0) else .ok (g, [])
    | b :: rest =>
      if others && decide (4194304 ≤ g.onUnit) then .ok (g, [])
      else match g.block b with
        | .error e => .error e
        | .ok (g1, o1) =>
          match Segment.feed others n { g1 with staged := rest } with
          | .error e => .error e
          | .ok (g2, o2) => .ok (g2, o1 ++ o2)

/-- The first error in what is staged for a segment: code, byte offset, bit. -/
def State.segError (s : State) (x : Ingest) (g : Segment) : Option (Nat × Nat × Nat) :=
  match Segment.feed false (g.staged.length + 1) { g with hist := s.history x g } with
  | .error e => some e
  | .ok _ => none

/-! Page ingests. -/

/-- The decompressors that serve a page's segments are free again. -/
def State.freeUnits (s : State) (x : Ingest) : State :=
  (x.segs.filterMap Segment.unit).foldl (fun s u => s.setFld (Reg.DCMP_STATUS_BUSY u) 0) s

/-- A page ingest is given up (R125, R128): its contexts, units and staging are freed, its entry is FAILED, and its
PAGE_SUBMIT is answered. -/
def State.dropPage (s : State) (ch status : Nat) (payload : List Byte) : State :=
  let x := s.page ch
  let s := (s.freeUnits x).setPage ch {}
  let mark (e : Entry) : Entry := if e.id = x.entry then { e with failed := true } else e
  State.finishSlot { s with job := { s.job with entries := s.job.entries.map mark } } x.sess x.tag status payload

/-- A page ingest whose own rules fail it: its channel, if it still runs, ends ABORTED (R125, R126). -/
def State.stopPage (s : State) (ch status : Nat) (payload : List Byte) : State :=
  let p := s.inProgress ch
  let s := s.dropPage ch status payload
  if s.chActive ch then (s.chainEnd ch 1 p.1 p.2).haltDone else s

/-- An error of Table 05-8 latched in a decompressor (R124, Table 05-18) and logged. -/
def State.latchError (s : State) (unit code plane off bit page : Nat) : State :=
  let s := if s.fld (Reg.DCMP_ERR_CODE unit) = 0 then
      (((s.setFld (Reg.DCMP_ERR_CODE unit) code).setFld (Reg.DCMP_ERR_BIT unit) bit).setFld
        (Reg.DCMP_ERR_PLANE unit) plane).setFld (Reg.DCMP_ERROFF_OFFSET unit) off
    else s
  (s.bump (Reg.DCMP_ERR_COUNT unit)).log1 0x40 0x09 unit 0 [page, off, bit]

/-- The decompressor whose front end parses channel `ch` (R124). -/
def parserOf (ch : Nat) : Nat := ch % 16

/-- An error of a page: its place in the stream, its code and plane, and the decompressor that serves its segment. -/
structure PageError where
  /-- byte offset in the page segment -/
  off : Nat
  /-- bit -/
  bit : Nat
  /-- code of Table 05-8 -/
  code : Nat
  /-- plane, or 0 -/
  plane : Nat
  /-- decompressor, where a segment's data is at fault -/
  unit : Option Nat := none
  deriving DecidableEq, Repr

/-- It stands earlier in the stream. -/
def PageError.before (a b : PageError) : Bool := decide (a.off < b.off) || decide (a.off = b.off) && decide (a.bit < b.bit)

/-- The errors of what the parser has passed on and no decompressor has decoded, and KPS_LENGTH where the chain has
delivered more than the page's length. -/
def State.pendingErrors (s : State) (ch : Nat) : List PageError :=
  let x := s.page ch
  (if x.len < x.got then [⟨x.len, 0, 0x15, 0, none⟩] else []) ++ x.segs.filterMap fun g => (s.segError x g).map fun e => ⟨e.2.1, e.2.2, e.1, g.plane, g.unit⟩

/-- A page fails with the first error in stream order (R121, R125): the one found, or one of staged data before it that
no decompressor has met yet. It latches in the decompressor that serves its segment where the DEFLATE data is at fault,
else in the parser's (R124); a segment that none serves latches in the parser's too (DEDUCED). -/
def State.failPage (s : State) (ch : Nat) (e : PageError) : State :=
  let e := (s.pendingErrors ch).foldl (fun m x => if x.before m then x else m) e
  let u := if 0x10 ≤ e.code then parserOf ch else e.unit.getD (parserOf ch)
  (s.latchError u e.code e.plane e.off e.bit (s.page ch).page).stopPage ch scBadCheck []

/-- A page is stored (R127, R128): its entry has its handle, and PAGE_SUBMIT is DONE. -/
def State.storePage (s : State) (ch : Nat) : State :=
  let x := s.page ch
  let h := s.job.handle + 1
  let planes := x.planes.map fun p => (⟨p.bar, p.form, p.size, p.units⟩ : Plane)
  let pg : Page := ⟨h, x.keep, x.width, x.lines, x.xoff, planes⟩
  let set (e : Entry) : Entry := if e.id = x.entry then { e with handle := h } else e
  let s := s.setPage ch {}
  let s := { s with job := { s.job with handle := h, pages := s.job.pages ++ [pg], entries := s.job.entries.map set } }
  s.finishSlot x.sess x.tag scDone (leBytes 4 h)

/-- When the last plane has ended and the trailer is there, R120 is judged over the planes' output in the page store. Bytes
after the trailer are KPS_LENGTH, and so is a page whose chain has ended with fewer bytes than its length; it is stored
once its chain has ended, for until then more may come (DEDUCED from R121). -/
def State.judgePage (s : State) (ch : Nat) : State :=
  let x := s.page ch
  if x.active && decide (x.stage = 3) && x.segs.all Segment.done then
    if crc32c (x.planes.flatMap fun p => s.planeBytes p.units 0 p.size) ≠ x.trailer then
      s.failPage ch ⟨x.pos - 4, 0, 0x14, 0, none⟩
    else if x.pos < x.got then s.failPage ch ⟨x.pos, 0, 0x15, 0, none⟩
    else if !x.ended then s
    else if x.got < x.len then s.failPage ch ⟨x.got, 0, 0x15, 0, none⟩
    else s.storePage ch
  else s

/-- Every plane of a page has had its last block. -/
def PlaneIn.ended (p : PlaneIn) : Bool := p.last || decide (p.blocks ≤ p.seen)

/-- Bytes that the parser needs for the next item: a header, the page header with its descriptors, a block, the
trailer. -/
def Ingest.need (x : Ingest) : Nat :=
  match x.stage with
  | 0 => 64
  | 1 => if x.buf.length < 64 then 64 else 64 + 32 * leAt x.buf 6 1
  | 2 =>
    if x.planes.all PlaneIn.ended then 4
    else if x.buf.length < 16 then 16 else 16 + 4 * ceilDiv (leAt x.buf 4 4) 4
  | _ => 0

/-- A chain that is DONE having delivered fewer bytes than the page's length is KPS_LENGTH once the parser has taken what
there is (R121). -/
def State.shortPage (s : State) (ch : Nat) : State :=
  let x := s.page ch
  if x.active && x.ended && decide (x.got < x.len) && decide (x.buf.length < x.need) then
    s.failPage ch ⟨x.got, 0, 0x15, 0, none⟩
  else s

/-- What the end of an INGEST channel's chain does to the page on it (Table 05-10). -/
def State.chainPage (s : State) (ch code : Nat) : State :=
  let x := s.page ch
  if !x.active then s
  else match code with
    | 0 => ((s.setPage ch { x with ended := true }).shortPage ch).judgePage ch
    | 1 => s.dropPage ch scBadParam (badParamAt 20)
    | 6 => s.dropPage ch scBadParam (badParamAt 20)
    | 4 => s.dropPage ch scConditionBroken [2#8]
    | 5 => s.dropPage ch scConditionBroken [2#8]
    | _ =>
      let n := s.fld Reg.NVC_LOG_NEXT
      (s.log1 0x40 0x08 ch 0 [x.page]).dropPage ch scHwFault (leBytes 4 n)

/-- A chain ends, with what that does to its page and to a bus error that waits for it. -/
def State.endChain (s : State) (ch code addr residue : Nat) (own stopped : Bool := false) : State :=
  ((s.chainEnd ch code addr residue own stopped).chainPage ch code).haltDone

/-- A chain ends with a code of Table 05-3 once the requests already issued are done (R114, R116). -/
def State.stopChain (s : State) (ch code : Nat) (own stopped : Bool := false) : State :=
  let x := s.dmaCh ch
  if x.stop.isSome then s
  else if x.outstanding then s.setDmaCh ch { x with stop := some (code, own, stopped) }
  else s.endChain ch code (s.inProgress ch).1 (s.inProgress ch).2 own stopped

/-- A reset of the endpoint ends a running chain with ABORTED, without a write-back or interrupt (R347). -/
def State.cutChain (s : State) (ch : Nat) : State :=
  if s.chActive ch then (((s.chainStop ch 1 false false).dmaMark ch).chainPage ch 1).haltDone else s

/-- Flow contexts by kind (R131). -/
inductive CtxUse where
  | free
  | dma (ch : Nat)
  | compress (unit : Nat)
  | decompress (ch : Nat)
  deriving DecidableEq, Repr

/-- What context `n` of the 4,096 is in use for (R131). -/
def State.context (s : State) (n : Nat) : CtxUse :=
  if n < 256 then
    match s.ingest.chans.find? fun c => c.2.ctx == some n with
    | some c => .dma c.1
    | none => .free
  else if n < 512 then
    if decide (n < 260) && (tabGet none s.ingest.streams (n - 256)).isSome then .compress (n - 256) else .free
  else
    match s.ingest.pages.find? fun p => p.2.segs.any fun g => g.ctx == n && !g.done with
    | some p => .decompress p.1
    | none => .free

end Sys2Proof.Machine
end

