-- ==== Sys2Proof/Machine/DmaRows.lean ====
section
/-!
DEFINITION. The rows of the DMA channels (chapter 05, R109 to R117).
-/
namespace Sys2Proof.Machine

/-- DMA_RUN (R109, R110, R116): ignored on an INGEST channel, a running one, and while a bus error stops the channels. -/
def execDmaRun (ch : Nat) (s : State) : Result :=
  .next <|
    if decide (64 ≤ ch) || s.chActive ch || s.flag (Reg.DMA_CTRL_OWNER ch) || s.busStopped then s
    else s.orLater (Reg.DMA_CTRL_RUN ch) 1 fun s => s.chainStart ch

/-- DMA_ABORT (R114). -/
def execDmaAbort (ch : Nat) (s : State) : Result :=
  .next <| if decide (ch < 64) && s.chActive ch then s.stopChain ch 1 else s

/-- DMA_DESCRIPTOR_FETCH (R109 to R111): the bad cases first, then a self link; the data of an accepted descriptor is
requested. -/
def execDmaDescriptorFetch (ch : Nat) (bytes : List Byte) (s : State) : Result :=
  .next <|
    let x := s.dmaCh ch
    if !s.chActive ch || x.desc.isSome || decide (bytes.length ≠ 32) || s.ingest.halting.isSome then s
    else if s.descBad (s.flag (Reg.DMA_CTRL_OWNER ch)) bytes then s.endChain ch 6 x.cur (dLen bytes)
    else if !dEnd bytes && decide (dNext bytes = x.cur) then s.endChain ch 5 x.cur (dLen bytes)
    else (s.setDmaCh ch { x with desc := some bytes, moved := 0, issued := 0 }).issueReads ch

/-- A descriptor has been delivered whole: the chain ends at END or at the hop limit, or goes on to NEXT (R111, R112). -/
def State.descDone (s : State) (ch : Nat) (d : List Byte) : State :=
  let x := s.dmaCh ch
  let hops := s.fld (Reg.DMA_STATUS_HOPS ch) + 1
  let s := s.setFld (Reg.DMA_STATUS_HOPS ch) hops
  let s := s.setDmaCh ch { x with cur := dNext d, last := x.cur, desc := none, moved := 0, issued := 0 }
  if dEnd d then s.endChain ch 0 x.cur 0
  else if 2 ^ s.fld (Reg.DMA_CTRL_HOP_EXP ch) ≤ hops then s.endChain ch 4 x.cur 0
  else if bitAt (dFlags d) 0 then s.dmaDone ch
  else s

/-- DMA_DESCRIPTOR_COMPLETE (R110 to R114, R116): data of the descriptor in progress has moved, all that was left of it or
a part, in address order. The descriptor completes with its last byte; a chain that is ending ends once the requests
already issued have delivered theirs. -/
def execDmaDescriptorComplete (ch : Nat) (data : List Byte) (s : State) : Result :=
  .next <|
    match (s.dmaCh ch).desc with
    | none => s
    | some d =>
      let data := s.nextData ch d data
      let s := s.deliverData ch d data
      let x := s.dmaCh ch
      match x.stop with
      | some (code, own, stopped) =>
        if x.outstanding then s else s.endChain ch code x.cur (dLen d - x.moved) own stopped
      | none => if dLen d ≤ x.moved then s.descDone ch d else s.issueReads ch

/-- A channel of the failed batch ends with BUS_ERROR and FAULT_OWN: data after the failed request is not delivered in
order, so it ends at once; one whose descriptor was being fetched names that descriptor (R112, R116). -/
def State.ownFault (s : State) (ch : Nat) : State :=
  let x := s.dmaCh ch
  let residue := match x.desc with | some d => dLen d - x.moved | none => 0
  s.endChain ch 2 x.cur residue (own := true)

/-- The first bus error ends every running chain (R116): those of the failed batch with BUS_ERROR, the others with STOPPED
once the requests already issued are done. -/
def State.busHalt (s : State) (batch : List Nat) : State :=
  ((List.range 64).filter s.chActive).foldl (fun s ch =>
    if batch.contains ch then s.ownFault ch else s.stopChain ch 3 (stopped := true)) s

/-- A further bus error: a request that a chain still waited for failed too, so the chain ends without its data. -/
def State.busAgain (s : State) (batch : List Nat) : State :=
  ((List.range 64).filter fun ch => s.chActive ch && batch.contains ch).foldl (fun s ch =>
    let x := s.dmaCh ch
    match x.stop with
    | some (code, own, stopped) => s.endChain ch code (s.inProgress ch).1 (s.inProgress ch).2 own stopped
    | none => s) s

/-- A failed DMA request (R116): counted and reported; the first stops the channels. -/
def State.busError (s : State) (kind addr : Nat) (batch : List Nat) : State :=
  let s := (s.bump Reg.DMA_GSTATUS_FAULTS).pcieReport kind
  if s.busStopped then s.busAgain batch
  else (State.busHalt { s with ingest := { s.ingest with halting := some (kind, addr) } } batch).haltDone

/-- PCIE_COMPLETION_ERROR (R116): Unsupported Request 2, Completer Abort 3, poisoned completion 4. -/
def execPcieCompletionError (kind addr : Nat) (batch : List Nat) (s : State) : Result :=
  .next (s.busError kind addr batch)

/-- PCIE_COMPLETION_TIMEOUT (R346). -/
def execPcieCompletionTimeout (addr : Nat) (batch : List Nat) (s : State) : Result := .next (s.busError 1 addr batch)

/-- DMA_BUS_HALT_CLEAR (R117). -/
def execDmaBusHaltClear (s : State) : Result := .next (s.setFld Reg.DMA_GSTATUS_BUS_HALT 0)

end Sys2Proof.Machine
end

