-- ==== Sys2Proof/Machine/Kps.lean ====
section
/-!
DEFINITION. The KPS parser and the decompressors (chapter 05, R118 to R127).
-/
namespace Sys2Proof.Machine

/-- An error found in a header: Table 05-8 code and byte offset within it. -/
abbrev KErr := Option (Nat × Nat)

/-- The first of some checks that fails. -/
def firstBad : List (Bool × Nat × Nat) → KErr
  | [] => none
  | (ok, c, o) :: t => if ok then firstBad t else some (c, o)

/-- The first nonzero byte of a range, as a KPS_FIELD error. -/
def zeroFrom (b : List Byte) (o n : Nat) : Bool × Nat × Nat :=
  match firstNonzero (fun _ => true) (slice b o n) o with
  | some i => (false, 0x12, i)
  | none => (true, 0, 0)

/-- The magic "KPSJ". -/
def kpsj : List Byte := bytesOf [0x4B, 0x50, 0x53, 0x4A]
/-- The magic "KPSP". -/
def kpsp : List Byte := bytesOf [0x4B, 0x50, 0x53, 0x50]

/-- A CRC field over the bytes before it. -/
def crcOk (b : List Byte) (o : Nat) : Bool := leAt b o 4 == crc32c (b.take o)

/-- Table 05-4. -/
def State.jobHeaderBad (s : State) (b : List Byte) : KErr :=
  firstBad [
    (b.take 4 == kpsj, 0x10, 0), (crcOk b 60, 0x11, 60), (leAt b 4 2 == 1, 0x12, 4), (leAt b 6 2 == 64, 0x12, 6),
    (leAt b 8 4 == s.job.num, 0x12, 8), (leAt b 12 2 == s.job.mask, 0x12, 12),
    (leAt b 14 1 == b2n s.deep4 + 1, 0x12, 14), zeroFrom b 15 1, zeroFrom b 20 40]

/-- XOFF + WIDTH is at most the nozzle count of every bar in use (Table 06-13); a bar without a map has no count. -/
def State.xoffOk (s : State) (w : Nat) : Bool :=
  s.usedBars.all fun b => !s.barMapped b || decide (w ≤ s.barN b)

/-- Table 05-5. -/
def State.pageHeaderBad (s : State) (page : Nat) (b : List Byte) : KErr :=
  let inR (o n lo hi : Nat) : Bool := decide (lo ≤ leAt b o n) && decide (leAt b o n ≤ hi)
  firstBad [
    (b.take 4 == kpsp, 0x10, 0), (crcOk (b.take 64) 60, 0x11, 60), (leAt b 4 2 == 64, 0x12, 4), (inR 6 1 1 16, 0x12, 6),
    (decide (leAt b 7 1 < 2), 0x12, 7), (leAt b 8 4 == page, 0x12, 8), (inR 12 4 1 65536, 0x12, 12),
    (inR 16 4 1 4194304, 0x12, 16), (decide (leAt b 20 4 ≠ 0), 0x12, 20),
    (s.xoffOk (leAt b 24 4 + leAt b 12 4), 0x12, 24), zeroFrom b 28 32]

/-- The stride of a plane (Table 05-6). -/
def planeStride (form width : Nat) : Nat := ceilDiv (width * (match form with | 0 => 8 | 1 => 2 | _ => 4)) 8

/-- Table 05-6, with the bars that earlier planes of the page name. -/
def State.planeBad (s : State) (width lines : Nat) (seen : List Nat) (d : List Byte) : KErr :=
  let bar := leAt d 0 1
  let form := leAt d 1 1
  firstBad [
    (crcOk d 28, 0x11, 28), (decide (bar < 16) && bitAt s.job.mask bar && !seen.contains bar, 0x12, 0),
    (form == 0 || form == (if s.deep4 then 2 else 1), 0x12, 1), zeroFrom d 2 2,
    (leAt d 4 8 == planeStride form width * lines, 0x12, 4), (decide (leAt d 12 4 ≠ 0), 0x12, 12), zeroFrom d 16 12]

/-- The planes of a page, or the first error with its plane and its byte offset in the descriptors. -/
def State.readPlanes (s : State) (width lines : Nat) : Nat → Nat → List PlaneIn → List Byte →
    Except (Nat × Nat × Nat) (List PlaneIn)
  | 0, _, acc, _ => .ok acc
  | n + 1, i, acc, b =>
    let d := b.take 32
    match s.planeBad width lines (acc.map PlaneIn.bar) d with
    | some (c, o) => .error (c, i, 32 * i + o)
    | none =>
      s.readPlanes width lines n (i + 1)
        (acc ++ [{ bar := leAt d 0 1, form := leAt d 1 1, size := leAt d 4 8, blocks := leAt d 12 4 }]) (b.drop 32)

/-! Parsing. A row takes bytes that its channel has delivered; it does nothing where other bytes are due. -/

/-- The bytes are the next that the parser reads. -/
def Ingest.reads (x : Ingest) (bytes : List Byte) : Bool := x.active && x.buf.take bytes.length == bytes

/-- The parser has taken `n` bytes. -/
def Ingest.took (x : Ingest) (n : Nat) : Ingest := { x with pos := x.pos + n, buf := x.buf.drop n }

/-- An item of `n` bytes would pass the page's length (KPS_LENGTH). -/
def Ingest.passes (x : Ingest) (n : Nat) : Bool := decide (x.len < x.pos + n)

/-- KPS_JOB_HEADER (R118, R121): the header is due on the job's first entry only. -/
def execKpsJobHeader (ch : Nat) (bytes : List Byte) (s : State) : Result :=
  .next <|
    let x := s.page ch
    if !x.reads bytes || decide (1 < x.stage) || decide (x.pos ≠ 0) || decide (bytes.length ≠ 64) then s
    else if x.stage = 1 then s.failPage ch ⟨0, 0, if bytes.take 4 = kpsj then 0x13 else 0x10, 0, none⟩
    else match s.jobHeaderBad bytes with
      | some (c, o) => s.failPage ch ⟨o, 0, if bytes.take 4 = kpsp then 0x13 else c, 0, none⟩
      | none =>
        if x.passes 64 then s.failPage ch ⟨x.len, 0, 0x15, 0, none⟩
        else (s.setPage ch { x.took 64 with stage := 1 }).shortPage ch

/-- The count of an entry set from REPEAT (R128). -/
def State.setCount (s : State) (id n : Nat) : State :=
  { s with job := { s.job with
      entries := s.job.entries.map fun (e : Entry) => if e.id = id then { e with count := n } else e } }

/-- KPS_PAGE_HEADER (R118, R121, R126): the header and its plane descriptors; the page's units are reserved. -/
def execKpsPageHeader (ch : Nat) (bytes : List Byte) (s : State) : Result :=
  .next <|
    let x := s.page ch
    if !x.reads bytes || decide (1 < x.stage) || decide (bytes.length < 64) then s
    else if x.stage = 0 then s.failPage ch ⟨0, 0, if bytes.take 4 = kpsp then 0x13 else 0x10, 0, none⟩
    else match s.pageHeaderBad x.page bytes with
      | some (c, o) => s.failPage ch ⟨x.pos + o, 0, if bytes.take 4 = kpsj then 0x13 else c, 0, none⟩
      | none =>
        let n := leAt bytes 6 1
        let width := leAt bytes 12 4
        let lines := leAt bytes 16 4
        if bytes.length ≠ 64 + 32 * n then s
        else match s.readPlanes width lines n 0 [] (bytes.drop 64) with
          | .error (c, pl, o) => s.failPage ch ⟨x.pos + 64 + o, 0, c, pl, none⟩
          | .ok planes =>
            if x.passes bytes.length then s.failPage ch ⟨x.len, 0, 0x15, 0, none⟩
            else if s.storeUnits < s.usedUnits + unitsFor (planes.map PlaneIn.size) then s.stopPage ch scNoContext []
            else
              let s := (s.setPage ch { x.took bytes.length with
                stage := 2, keep := bitAt (leAt bytes 7 1) 0, width := width, lines := lines, xoff := leAt bytes 24 4,
                planes := placePlanes s.storeUnits s.planeUnits planes }).setCount x.entry (leAt bytes 20 4)
              s.shortPage ch

/-- Table 05-7 and the rules of R119 that the parser judges, in byte order after the CRC: the code, the plane and the byte
offset. The plane is 0 until PLANE itself is good. `segType` is the TYPE of the plane's open segment. -/
def Ingest.blockBad (x : Ingest) (b : List Byte) (segType : Option Nat) : Option (Nat × Nat × Nat) :=
  let pl := leAt b 0 1
  let type := leAt b 1 1
  let fl := leAt b 2 1
  let dlen := leAt b 4 4
  let olen := leAt b 8 4
  let p := x.planes.getD pl {}
  let new := bitAt fl 0
  let last := bitAt fl 1
  let opens := (x.segs.filter fun g => !g.closed).length
  let own := b2n (x.segs.any fun g => g.plane == pl && !g.closed)
  if !crcOk (b.take 16) 12 then some (0x11, 0, 12)
  else if x.planes.length ≤ pl then some (0x12, 0, 0)
  else
    (firstBad [
      (!p.ended, 0x13, 0), (decide (type < 2), 0x12, 1), (new || segType.isNone || segType == some type, 0x12, 1),
      (decide (fl < 4), 0x12, 2), (new || segType.isSome, 0x13, 2), (!last || decide (p.seen + 1 = p.blocks), 0x13, 2),
      (!new || decide (opens - own < 256), 0x13, 2), zeroFrom b 3 1,
      (decide (dlen ≠ 0) && decide (dlen ≤ 16777216), 0x12, 4), (type ≠ 0 || decide (p.olen + olen ≤ p.size), 0x03, 4),
      (decide (olen ≠ 0) && decide (olen ≤ 67108864), 0x12, 8), (type ≠ 0 || dlen == olen, 0x12, 8),
      (decide (p.seen + 1 < p.blocks) || decide (p.size ≤ p.olen + olen), 0x12, 8),
      zeroFrom b (16 + dlen) 3]).map fun e => (e.1, pl, e.2)

/-- The plane's open segment is closed. -/
def closeSeg (pl : Nat) (l : List Segment) : List Segment :=
  l.map fun g => if g.plane = pl then { g with closed := true } else g

/-- The lowest free context of the page's 256 (R123, R131). -/
def Ingest.freeCtx (x : Ingest) : Option Nat :=
  ((List.range 256).map fun i => 512 + 256 * x.range + i).find? fun c => !x.segs.any fun g => g.ctx == c && !g.done

/-- A segment waits for a decompressor: it has staged input, or has had its last block. -/
def Segment.waits (g : Segment) : Bool := g.unit.isNone && !g.done && (!g.staged.isEmpty || g.closed)

/-- The waiting segment that is next: channel and index. -/
def State.nextSeg (s : State) : Option (Nat × Nat) :=
  (s.ingest.pages.filterMap fun p => (p.2.segs.findIdx? Segment.waits).map fun i => (p.1, i)).head?

/-- Segment `i` of a page decoded on its decompressor, its output written into its plane (R123). -/
def State.runSeg (s : State) (ch i : Nat) : State :=
  let x := s.page ch
  match x.segs[i]? with
  | none => s
  | some g =>
    match g.unit with
    | none => s
    | some u =>
      match Segment.feed s.nextSeg.isSome (g.staged.length + 1) g with
      | .error (c, o, b) => s.failPage ch ⟨o, b, c, g.plane, some u⟩
      | .ok (g', out) =>
        let w := tabGet 0 s.ingest.work u + out.length
        let units := (x.planes.getD g.plane {}).units
        let s := s.storePlane units (units.length + 1) (g.base + g.made) out
        State.setPage { s with ingest := { s.ingest with work := tabPut 0 s.ingest.work u w } } ch
          { x with segs := x.segs.set i g' }

/-- A block that keeps every rule is staged: it begins a segment on context `c`, or joins the plane's open one `cur`. -/
def Ingest.addBlock (x : Ingest) (bytes : List Byte) (cur : Option Nat) (c : Nat) : Ingest :=
  let pl := leAt bytes 0 1
  let olen := leAt bytes 8 4
  let fl := leAt bytes 2 1
  let dlen := leAt bytes 4 4
  let p := x.planes.getD pl {}
  let b : StagedBlock := ⟨x.pos, olen, p.size - p.olen, slice bytes 16 dlen⟩
  let p' := { p with seen := p.seen + 1, olen := p.olen + olen, last := p.last || bitAt fl 1 }
  let at_ := x.pos + 16 + dlen
  let segs :=
    match bitAt fl 0, cur with
    | false, some i =>
      let g := x.segs.getD i {}
      x.segs.set i { g with staged := g.staged ++ [b], closed := p'.ended, endAt := at_ }
    | _, _ =>
      closeSeg pl x.segs ++ [{ plane := pl, ctx := c, type := leAt bytes 1 1, base := p.olen, staged := [b],
                               closed := p'.ended, endAt := at_ }]
  { x.took bytes.length with planes := x.planes.set pl p', segs := segs }

/-- KPS_BLOCK (R119, R121, R123): the block is staged for its segment; a segment that a decompressor serves goes on. The
parser waits while no context of the page is free for a new segment. -/
def execKpsBlock (ch : Nat) (bytes : List Byte) (s : State) : Result :=
  .next <|
    let x := s.page ch
    if !x.reads bytes || decide (x.stage ≠ 2) || decide (bytes.length < 16) || x.planes.all PlaneIn.ended then s
    else
      let pl := leAt bytes 0 1
      let new := bitAt (leAt bytes 2 1) 0
      let cur := x.segs.findIdx? fun g => g.plane == pl && !g.closed
      match x.blockBad bytes (cur.bind fun i => (x.segs[i]?).map Segment.type) with
      | some (c, p, o) => s.failPage ch ⟨x.pos + o, 0, c, p, none⟩
      | none =>
        if bytes.length ≠ 16 + 4 * ceilDiv (leAt bytes 4 4) 4 then s
        else if x.passes bytes.length then s.failPage ch ⟨x.len, 0, 0x15, 0, none⟩
        else match (if new then x.freeCtx else some 0) with
          | none => s
          | some c =>
            let s := s.setPage ch (x.addBlock bytes cur c)
            (match cur with
              | some i => s.runSeg ch i
              | none => s).shortPage ch

/-- KPS_TRAILER (R120): due once every plane has ended. -/
def execKpsTrailer (ch : Nat) (bytes : List Byte) (s : State) : Result :=
  .next <|
    let x := s.page ch
    if !x.reads bytes || decide (x.stage ≠ 2) || decide (bytes.length ≠ 4) || !x.planes.all PlaneIn.ended then s
    else if x.passes 4 then s.failPage ch ⟨x.len, 0, 0x15, 0, none⟩
    else (s.setPage ch { x.took 4 with stage := 3, trailer := leNat bytes }).judgePage ch

/-! Decompressors (R123). -/

/-- The free enabled decompressor with the least output since its last assignment. -/
def State.freeDcmp (s : State) : Option Nat :=
  let l := (List.range 16).filter fun u => s.flag (Reg.DCMP_CTRL_ENABLE u) && !s.flag (Reg.DCMP_STATUS_BUSY u)
  l.find? fun u => l.all fun v => decide (tabGet 0 s.ingest.work u ≤ tabGet 0 s.ingest.work v)

/-- SEGMENT_ASSIGN (R123): a waiting segment goes to the free enabled decompressor with the least output, its context is
restored and its history refilled from the page store. -/
def execSegmentAssign (s : State) : Result :=
  .next <| match s.nextSeg, s.freeDcmp with
    | some (ch, i), some u =>
      let x := s.page ch
      let g := x.segs.getD i {}
      let s := (s.setFld (Reg.DCMP_STATUS_BUSY u) 1).setFld (Reg.DCMP_STATUS_CONTEXT u) g.ctx
      let s := { s with ingest := { s.ingest with work := tabPut 0 s.ingest.work u 0 } }
      let g := { g with unit := some u, onUnit := 0, hist := s.history x g }
      (s.setPage ch { x with segs := x.segs.set i g }).runSeg ch i
    | _, _ => s

/-- The segment that a decompressor serves: channel and index. -/
def State.segOn (s : State) (u : Nat) : Option (Nat × Nat) :=
  (s.ingest.pages.filterMap fun p => (p.2.segs.findIdx? fun g => g.unit == some u).map fun i => (p.1, i)).head?

/-- SEGMENT_SWITCH (R123): the unit leaves a segment whose input ran out, or that made 4 MiB on it while another waits; the
context keeps its state, and the history leaves the unit. Any other segment it goes on with. -/
def execSegmentSwitch (unit : Nat) (s : State) : Result :=
  .next <| match s.segOn unit with
    | none => s
    | some (ch, i) =>
      let x := s.page ch
      let g := x.segs.getD i {}
      if (g.staged.isEmpty && !g.closed) || (decide (4194304 ≤ g.onUnit) && s.nextSeg.isSome) then
        let s := (s.setFld (Reg.DCMP_STATUS_BUSY unit) 0).bump (Reg.DCMP_STATUS_SWITCHES unit)
        s.setPage ch { x with segs := x.segs.set i { g with unit := none, hist := [] } }
      else s.runSeg ch i

/-- SEGMENT_COMPLETE (R123, R120): the last output byte is written and the context freed. -/
def execSegmentComplete (unit : Nat) (s : State) : Result :=
  .next <| match s.segOn unit with
    | none => s
    | some (ch, i) =>
      let x := s.page ch
      let g := x.segs.getD i {}
      if g.closed && g.staged.isEmpty then
        let s := s.setFld (Reg.DCMP_STATUS_BUSY unit) 0
        (s.setPage ch { x with segs := x.segs.set i { g with unit := none, done := true, hist := [] } }).judgePage ch
      else s

end Sys2Proof.Machine
end

