-- ==== Sys2Proof/Machine/Job.lean ====
section
/-!
DEFINITION. The job: its opening and end, page submission and the print queue (R126 to R130), ARM, START, PAUSE, RESUME
and STOP (R106, R163).
-/
namespace Sys2Proof.Machine

/-! The end of a job (R130, R142, R158). -/

/-- Whether a bar has a frame `f` to fire. -/
def State.hasFrame (s : State) (b f : Nat) : Bool :=
  match s.frameLimit b with
  | some n => decide (f < n)
  | none => true

/-- The job's last line has fired on every bar of its mask (R130). -/
def State.jobDone (s : State) : Bool :=
  s.job.active && s.job.closed && s.jobBars.all fun b =>
    match s.frameLimit b with
    | some n => decide (n ≤ s.barFired b)
    | none => false

/-- A bar with its counts and rings cleared (R158); its tables and generation stay. -/
def Bar.cleared (x : Bar) : Bar :=
  { map := x.map, mapCrc := x.mapCrc, bank := x.bank, pend := x.pend, phaseX := x.phaseX, phaseY := x.phaseY,
    phasePend := x.phasePend, gen := x.gen }

/-- The bars and boards at image line 0 and frame 0 (R158). Lines already decided keep their fates to come. -/
def State.clearBars (s : State) : State :=
  let s := (List.range 16).foldl State.clearRings s
  let s := (List.range 16).foldl (fun s b =>
    ((s.setBar b (s.bar b).cleared).setFld (Reg.DOSE_BAR_STATUS_WAIT_QUEUE b) 0).setFld (Reg.DOSE_BAR_STATUS_WAIT_BUF b) 0) s
  let s := (List.range 48).foldl (fun s k => s.setBoard k { s.board k with tx := 0, dec := 0, badCrc := [] }) s
  let s := (List.range 16).foldl State.showFill s
  { s with ppos := { s.ppos with lineNext := [] } }

/-- Ingests in progress end ABORTED and are answered STATE_REFUSED, as are the starts that wait (R130, Table 05-10). -/
def State.endIngests (s : State) : State :=
  let s := (List.range 64).foldl (fun s ch =>
    if (s.page ch).active then s.stopPage ch scStateRefused [] else s) s
  let l := s.job.starts
  l.foldl (fun s w => s.finishSlot w.sess w.tag scStateRefused) { s with job := { s.job with starts := [] } }

/-- The job's end: READY, the queue cleared, pages released, ingests ended, bars cleared, records stored (R130, R158,
R179, Table 16-5). -/
def State.jobEnd (s : State) : State :=
  let s := s.enter stReady
  let s := s.endIngests
  let s := { s with job := { handle := s.job.handle } }
  (((s.setFld Reg.PLAT_STATE_JOB 0).clearBars.flushGaps).setReq 0xFFFF).storeAtEnd

/-- The job ends once it is done (R106, R130); in READY it is done when it was closed with nothing queued. -/
def State.checkEnd (s : State) : State :=
  if s.inSt [stReady, stPrinting] && s.jobDone then s.jobEnd else s

/-! Opening, pages, queue. -/

/-- JOB_OPEN: 0x0100. -/
def execJobOpen (rq : Rq) (job mask : Nat) (s : State) : Result :=
  .next <| s.run rq 0x0100 fun s =>
    s.withParams rq 0x0100 [(20, decide (mask ≠ 0) && decide (mask < 65536))] fun s =>
      if s.job.active then s.finish rq 0x0100 scResourceBusy
      else
        let s := { s with job := { active := true, num := job, mask := mask, handle := s.job.handle } }
        (s.setFld Reg.PLAT_STATE_JOB 1).finish rq 0x0100 scDone

/-- Pages and repeats are taken: a job is open and not closed (R130). -/
def State.jobTakes (s : State) : Bool := s.job.active && !s.job.closed

/-- A channel that carries a page: its chain runs, or its page is not yet complete. -/
def State.chTaken (s : State) (ch : Nat) : Bool := s.chActive ch || (s.page ch).active

/-- A free reservation of 256 DECOMPRESS contexts (R127, R131). -/
def State.freeRange (s : State) : Option Nat :=
  (List.range 14).find? fun r => !s.ingest.pages.any fun p => p.2.active && p.2.range == r

/-- A queue entry for a page: the earliest FAILED entry with its number, else a new one; none when the queue is full
(R128). -/
def State.takeEntry (s : State) (page : Nat) : Option (Nat × State) :=
  match s.job.entries.find? fun e => e.failed && e.page == some page with
  | some e =>
    let upd (x : Entry) : Entry := if x.id = e.id then { x with failed := false, handle := 0 } else x
    some (e.id, { s with job := { s.job with entries := s.job.entries.map upd } })
  | none =>
    if 1024 ≤ s.job.entries.length then none
    else
      let id := s.job.nextEntry
      some (id, { s with job := { s.job with
        entries := s.job.entries ++ [{ id := id, page := some page }], nextEntry := id + 1 } })

/-- The start of a PAGE_SUBMIT proper (R127): its entry, its contexts, its channel. -/
def State.pageStart (s : State) (w : StartWait) (range : Nat) : State :=
  if s.chTaken w.ch then s.finishSlot w.sess w.tag scResourceBusy
  else match s.takeEntry w.page with
    | none => s.finishSlot w.sess w.tag scResourceBusy
    | some (id, s) =>
      let x : Ingest := { active := true, sess := w.sess, tag := w.tag, page := w.page, len := w.len, entry := id,
                          stage := if id = 0 then 0 else 1, range := range }
      (s.setPage w.ch x).chainStart w.ch

/-- PAGE_SUBMIT (R127): 0x0101; the start waits while contexts are short, BUS_HALT is set or earlier starts wait. -/
def execPageSubmit (rq : Rq) (page ch len : Nat) (s : State) : Result :=
  .next <| s.run rq 0x0101 fun s =>
    s.withParams rq 0x0101
      [(16, s.jobTakes), (20, decide (ch < 64) && s.flag (Reg.DMA_CTRL_OWNER ch)), (24, decide (len ≠ 0))] fun s =>
      let s := s.pend rq 0x0101
      let w : StartWait := ⟨rq.sess, rq.tag, page, ch, len⟩
      match s.freeRange with
      | some r =>
        if s.job.starts.isEmpty && !s.busStopped then s.pageStart w r
        else { s with job := { s.job with starts := s.job.starts ++ [w] } }
      | none => { s with job := { s.job with starts := s.job.starts ++ [w] } }

/-- PAGE_SUBMIT_START (R127, R117): the first start that waits goes on. -/
def execPageSubmitStart (s : State) : Result :=
  .next <| match s.job.starts, s.freeRange with
    | w :: rest, some r =>
      if s.busStopped then s
      else State.pageStart { s with job := { s.job with starts := rest } } w r
    | _, _ => s

/-- PAGE_REPEAT (R128, R129): 0x0102. -/
def execPageRepeat (rq : Rq) (handle count : Nat) (s : State) : Result :=
  .next <| s.run rq 0x0102 fun s =>
    s.withParams rq 0x0102 [(16, s.jobTakes && s.job.pages.any fun p => p.handle == handle)] fun s =>
      if 1024 ≤ s.job.entries.length then s.finish rq 0x0102 scResourceBusy
      else
        let e : Entry := { id := s.job.nextEntry, handle := handle, count := count }
        State.finish { s with job := { s.job with
          entries := s.job.entries ++ [e], nextEntry := e.id + 1 } } rq 0x0102 scDone

/-- JOB_CLOSE (R130): 0x0103. -/
def execJobClose (rq : Rq) (job : Nat) (s : State) : Result :=
  .next <| s.run rq 0x0103 fun s =>
    s.withParams rq 0x0103 [(16, s.job.active && decide (s.job.num = job))] fun s =>
      (State.finish { s with job := { s.job with closed := true } } rq 0x0103 scDone).checkEnd

/-- A page is released once no entry before every bar's refers to it, unless KEEP holds it (R129). Entries that every
bar has printed leave the queue. -/
def State.releasePages (s : State) : State :=
  let low := (s.jobBars.map fun b => (s.bar b).entry).foldl min s.job.nextEntry
  let gone := s.job.entries.filter fun e => decide (e.id < low)
  let left := s.job.entries.filter fun e => !decide (e.id < low)
  let free (p : Page) : Bool :=
    !p.keep && gone.any (fun e => e.handle == p.handle) && !left.any (fun e => e.handle == p.handle)
  { s with job := { s.job with entries := left, pages := s.job.pages.filter fun p => !free p } }

/-! ARM (R106, R144, R158, R161, R179, R256, R363, R398). -/

/-- Two members of the chain have a master input (R363): an origin is one whose POSITION has come within the last 20 us
(DEDUCED: after that time no POSITION arrives from it). -/
def State.twoOrigins (s : State) : Bool :=
  let live := s.chain.origins.filter fun o => o.1 != s.chainId && decide (s.now + 1 ≤ o.2 + 5000)
  decide (2 ≤ live.length + b2n s.masterEnc.isSome)

/-- A bar that can be armed: a map and a threshold array of the present depth (R144). -/
def State.barReady (s : State) (b : Nat) : Bool :=
  s.barMapped b && match (s.bar b).bank.thr with
    | some t => t.depth == b2n s.deep4 + 1
    | none => false

/-- A web position as replies give it. -/
def tickBytes (p : Int) : List Byte := leBytes 8 (unsignedOf 64 p)

/-- A decided line whose end is still open as a new job is armed: a safe line keeps its cause, a normal one ends
unconfirmed, as if its echo were absent (DESIGN CHOICE: the spec does not say). -/
def Decided.given (d : Decided) : Decided :=
  if d.sure then { d with echo := true } else { d with sure := true, echo := true, cause := 11, sub := 1 }

/-- Lines of an earlier job that have not settled are reported (R182). -/
def State.giveUp (s : State) : State :=
  (List.range 48).foldl (fun s k =>
    (s.setBoard k { s.board k with decided := (s.board k).decided.map Decided.given }).settle k) s

/-- ARM: 0x0110. -/
def execArm (rq : Rq) (job : Nat) (s : State) : Result :=
  .next <| s.run rq 0x0110 fun s =>
    s.withParams rq 0x0110 [(16, s.job.active && decide (s.job.num = job))] fun s =>
      if (s.masterEnc.isNone && !s.posFromRing) || s.twoOrigins then s.reject rq 0x0110 2 0x20
      else if !s.jobBars.all s.barReady then s.reject rq 0x0110 2 0x10
      else
        let s := (s.undozeAll.clearBars).giveUp.flushGaps
        let h := s.webPos
        let s := { s with ppos := { high := h }, fire := { s.fire with caps := [], calm := s.now } }
        ((s.setReq 0xFFFF).enter stArmed).finish rq 0x0110 scDone (tickBytes h)

/-! START, PAUSE, RESUME, STOP (R163). -/

/-- Every LIFT axis of a bar of the job is at its print position (R281). -/
def State.liftReady (s : State) : Bool :=
  (List.range 16).all fun a =>
    if s.fld (Reg.AX_CTRL_ROLE a) = 1 ∧ s.jobBar (s.fld (Reg.AX_CTRL_BAR a)) then
      s.axState a == axStanding && s.flag (Reg.AX_STATUS_HOMED a) &&
        decide ((s.axPos a - s.fldI (Reg.AX_LIFT_POS_LIFT_POS a)).natAbs ≤ 256 * s.fld (Reg.AX_HOME_SPD_LIFT_WIN a))
    else true

/-- O changes, with the time of the change (R163). -/
def State.setOffset (s : State) (o : Int) : State :=
  { s with ppos := { s.ppos with offset := o, offsets := (o, s.devNs) :: s.ppos.offsets } }

/-- START: 0x0111. -/
def execStart (rq : Rq) (pos : Int) (s : State) : Result :=
  .next <| s.run rq 0x0111 fun s =>
    s.withParams rq 0x0111 [(16, decide (s.ppos.high + 16 ≤ pos))] fun s =>
      if !s.liftReady then s.finish rq 0x0111 scResourceBusy
      else (((s.setOffset pos).enter stPrinting).finish rq 0x0111 scDone).checkEnd

/-- The due positions of the frames that each board of the job decides next: those that PAUSE holds first. -/
def State.heldDue (s : State) : List Int :=
  s.jobBars.flatMap fun b => ((s.barBoards b).filter s.boardUsed).filterMap fun k =>
    if s.hasFrame b (s.board k).dec then s.dueAt b k (s.board k).dec else none

/-- The lowest of a list. -/
def lowest : List Int → Option Int
  | [] => none
  | x :: xs => some (xs.foldl min x)

/-- The position of the last fired line; 0 when none has fired (DEDUCED). -/
def State.lastFired (s : State) : Int := if s.ppos.anyFired then s.ppos.fired else 0

/-- The frames are held (R163). -/
def State.hold (s : State) : State :=
  { s with ppos := { s.ppos with paused := (lowest s.heldDue).getD s.ppos.high } }

/-- PAUSE's effect. -/
def State.pause (s : State) : State := s.hold.enter stPaused

/-- PAUSE: 0x0112. -/
def execPause (rq : Rq) (s : State) : Result :=
  .next <| s.run rq 0x0112 fun s =>
    s.withParams rq 0x0112 [] fun s => s.pause.finish rq 0x0112 scDone (tickBytes s.lastFired)

/-- The sheets from the held ones on are shifted (R164). -/
def State.shiftSheets (s : State) (d : Int) : State :=
  s.jobBars.foldl (fun s b => if s.sheetMode b then s.setBar b { s.bar b with sheets := (s.bar b).sheets.map (· + d) } else s) s

/-- RESUME: 0x0113. -/
def execResume (rq : Rq) (pos : Int) (s : State) : Result :=
  .next <| s.run rq 0x0113 fun s =>
    s.withParams rq 0x0113 [(16, decide (s.ppos.high + 16 ≤ pos))] fun s =>
      if !s.liftReady then s.finish rq 0x0113 scResourceBusy
      else
        let d := pos - s.ppos.paused
        ((((s.setOffset (s.ppos.offset + d)).shiftSheets d).enter stPrinting).finish rq 0x0113 scDone).checkEnd

/-- Frames that every board in use of a bar has decided: they fire, whatever holds the later ones (R163). -/
def State.barDecided (s : State) (b : Nat) : Nat :=
  match (s.barBoards b).filter s.boardUsed with
  | [] => 0
  | k :: ks => (ks.map fun j => (s.board j).dec).foldl min (s.board k).dec

/-- Prints of pages whose every line is decided in every row of a bar. -/
def State.barPages (s : State) (b : Nat) : Nat :=
  let x := s.bar b
  let m := maxRowOff x.map
  ((List.range x.begins.length).filter fun k =>
    (decide (k + 1 < x.begins.length) || decide (x.pline = 0)) && decide (x.printEnd k + m ≤ s.barDecided b)).length

/-- Pages completed: on the bar with the fewest. -/
def State.pagesDone (s : State) : Nat :=
  match s.jobBars.map s.barPages with
  | [] => 0
  | n :: ns => ns.foldl min n

/-- STOP's effect, and its reply. -/
def State.stopReply (s : State) : List Byte := tickBytes s.lastFired ++ leBytes 4 s.pagesDone

/-- STOP: 0x0114. -/
def execStop (rq : Rq) (s : State) : Result :=
  .next <| s.run rq 0x0114 fun s =>
    s.withParams rq 0x0114 [] fun s => s.hold.jobEnd.finish rq 0x0114 scDone s.stopReply

/-- A consumer event that the state refuses is counted IGNORED (Table 12-2). -/
def State.refuseTask (s : State) (k : Nat) : State :=
  let x := s.cons k
  (s.setCons k { x with ignored := min 65535 (x.ignored + 1) }).endTask k

/-- PRINT_PAUSE (R163, Table 12-2): consumer 73. -/
def execPrintPause (s : State) : Result :=
  .next <| if s.st = stPrinting then s.pause.endTask 73 else s.refuseTask 73

/-- PRINT_STOP: consumer 74. -/
def execPrintStop (s : State) : Result :=
  .next <| if s.inSt [stArmed, stPrinting, stPaused] then s.hold.jobEnd.endTask 74 else s.refuseTask 74

/-- BAR_DELAY_SET (R157): 0x0120. -/
def execBarDelaySet (rq : Rq) (bar delay : Nat) (s : State) : Result :=
  .next <| s.run rq 0x0120 fun s =>
    s.withParams rq 0x0120 [(16, decide (bar < 16)), (20, decide (delay < idxMod))] fun s =>
      (s.setFld (Reg.DOSE_BAR_DELAY_DELAY bar) delay).finish rq 0x0120 scDone

end Sys2Proof.Machine
end

