-- ==== Sys2Proof/Machine/Dose.lean ====
section
/-!
DEFINITION. Dose expansion (chapter 06): screening, substitution, frames, table swaps, and the checks on them.
-/
namespace Sys2Proof.Machine

/-! Tables in force (R144). -/

/-- The curve before any load. -/
def identityCurve : List Nat := (List.range 256).map fun i => 16 * i + i / 16

/-- The tone curve in force. -/
def Bar.curve (x : Bar) : List Nat := x.bank.curve.getD identityCurve

/-- The gain of a bar position in force. -/
def Bar.gainAt (x : Bar) (i : Nat) : Nat :=
  match x.bank.gain with
  | some l => l.getD i 4096
  | none => 4096

/-- The substitution table in force. -/
def Bar.sub (x : Bar) : SubTable := x.bank.sub.getD {}

/-! R139. -/

/-- The tone after gain and curve. -/
def toneOf (curve : List Nat) (gain t8 : Nat) : Nat :=
  let t12 := 16 * t8 + t8 / 16
  let v := min ((t12 * gain + 2048) / 4096) 4095
  let i := v / 16
  let a : Int := curve.getD i 0
  let b : Int := curve.getD (min (i + 1) 255) 0
  (a + ((b - a) * ((v % 16 : Nat) : Int) + 8) / 16).toNat

/-- The dose of a tone: how many of the cell's `k` thresholds it reaches. -/
def screenTone (t : Threshold) (k cx cy c : Nat) : Nat :=
  if t.depth = (if k = 3 then 1 else 2) then
    ((List.range k).filter fun q => decide (t.thr.getD ((cy * t.w + cx) * k + q) 4096 ≤ c)).length
  else Config.strangeDose cx cy c % (k + 1)

/-- The dose code at a column of a pre-screened line. -/
def packedDose (byte : Nat → Byte) (off db col : Nat) : Nat :=
  (byte (off + col * db / 8)).toNat / 2 ^ (col * db % 8) % 2 ^ db

/-- Bytes per line of a plane (Table 05-6). -/
def strideOf (form width : Nat) : Nat := ceilDiv (width * (match form with | 0 => 8 | 1 => 2 | _ => 4)) 8

/-- The screened dose of bar position `i` on image line `l`, line `pl` of its page, read from the page store (R126). -/
def State.screened (s : State) (x : Bar) (page : Page) (plane : Option Plane) (k l pl i : Nat) : Nat :=
  let masked := match x.map[i]? with | some e => e.masked | none => true
  match masked, plane with
  | false, some p =>
    if page.xoff ≤ i ∧ i < page.xoff + page.width then
      let col := i - page.xoff
      let off := pl * strideOf p.form page.width
      if p.form = 0 then
        let c := toneOf x.curve (x.gainAt i) (s.planeByte p.units (off + col)).toNat
        match x.bank.thr with
        | some t => screenTone t k ((i + x.phaseX) % t.w) ((l + x.phaseY) % t.h) c
        | none => 0
      else packedDose (s.planeByte p.units) off (if p.form = 1 then 2 else 4) col
    else 0
  | _, _ => 0

/-! R140. -/

/-- The neighbour that an OFF code names; none for 0. -/
def offTarget (x off : Nat) : Option Int :=
  match off with
  | 1 => some ((x : Int) - 2)
  | 2 => some ((x : Int) - 1)
  | 3 => some ((x : Int) + 1)
  | 4 => some ((x : Int) + 2)
  | _ => none

/-- The bar position an entry adds to, where it can take anything. -/
def takesAt (map : List MapEntry) (dead : List (Nat × Nat)) (x off : Nat) : Option Nat :=
  match offTarget x off with
  | some y =>
    if y < 0 then none
    else
      let n := y.toNat
      if dead.any (fun d => d.1 == n) then none
      else match map[n]? with
        | some e => if e.masked then none else some n
        | none => none
  | none => none

/-- The four entries of one dead nozzle: the doses so far and the carry. -/
def spreadDose (map : List MapEntry) (dead : List (Nat × Nat)) (top x : Nat) :
    List (Nat × Nat) → List Nat × Nat → List Nat × Nat
  | [], r => r
  | (amt, off) :: es, (o, carry) =>
    let add := amt + carry
    match (if add = 0 then none else takesAt map dead x off) with
    | none => spreadDose map dead top x es (o, add)
    | some y =>
      let t := o.getD y 0 + add
      spreadDose map dead top x es (o.set y (min t top), t - top)

/-- R140: the output doses of a line, and the dose levels lost. -/
def substitute (map : List MapEntry) (sub : SubTable) (top : Nat) (s : List Nat) : List Nat × Nat :=
  let zeroed := sub.dead.foldl (fun o d => o.set d.1 0) s
  sub.dead.foldl (fun r d =>
    let lvl := s.getD d.1 0
    if lvl = 0 then r
    else
      let q := spreadDose map sub.dead top d.1 (((sub.pats.getD d.2 []).drop (4 * (lvl - 1))).take 4) (r.1, 0)
      (q.1, r.2 + q.2)) (zeroed, 0)

/-! Table banks and swaps (R145 to R148). -/

/-- Something of the staged bank is pending. -/
def Bar.hasPending (x : Bar) : Bool :=
  x.pend.thr.isSome || x.pend.curve.isSome || x.pend.gain.isSome || x.pend.sub.isSome || x.phasePend

/-- The pending bits and DEAD of DOSE_BARb_STATUS. -/
def State.showBank (s : State) (b : Nat) : State :=
  let x := s.bar b
  let s := (s.setFlag (Reg.DOSE_BAR_STATUS_THR_PEND b) x.pend.thr.isSome).setFlag
    (Reg.DOSE_BAR_STATUS_CURVE_PEND b) x.pend.curve.isSome
  let s := (s.setFlag (Reg.DOSE_BAR_STATUS_GAIN_PEND b) x.pend.gain.isSome).setFlag
    (Reg.DOSE_BAR_STATUS_SUB_PEND b) x.pend.sub.isSome
  s.setFld (Reg.DOSE_BAR_STATUS_DEAD b) x.sub.dead.length

/-- The pending bank replaced. -/
def State.setPend (s : State) (b : Nat) (d : DoseBank) : State := (s.setBar b { s.bar b with pend := d }).showBank b

/-- The tables in force after a swap. -/
def DoseBank.atop (new old : DoseBank) : DoseBank :=
  ⟨new.thr <|> old.thr, new.curve <|> old.curve, new.gain <|> old.gain, new.sub <|> old.sub⟩

/-- A bar under the loop. -/
def State.loopBar (s : State) (b : Nat) : LoopBar := tabGet {} s.noz.bars b

/-- A bar under the loop replaced. -/
def State.setLoopBar (s : State) (b : Nat) (x : LoopBar) : State :=
  { s with noz := { s.noz with bars := tabPut {} s.noz.bars b x } }

/-- The nozzles that the loop staged take the new generation (R251), and the commands that waited for it complete. -/
def State.loopSwapped (s : State) (b : Nat) : State :=
  let y := s.loopBar b
  let gen := (s.bar b).gen % idxMod
  let s := y.staged.foldl (fun s i => s.setNoz1 b i { s.noz1 b i with gen := gen }) s
  let s := s.setLoopBar b { y with staged := [], swapAsks := [] }
  let s := s.setFld Reg.NOZ_STATUS_SWAP_WAIT (clearBitAt (s.fld Reg.NOZ_STATUS_SWAP_WAIT) b)
  y.swapAsks.foldl (fun s a => s.finishSlot a.1 a.2 scDone) s

/-- A swap takes effect (R146): the image line not yet begun is L_swap. -/
def State.swapBar (s : State) (b : Nat) : State :=
  let x := s.bar b
  let y := { x with
    bank := x.pend.atop x.bank
    pend := {}
    phaseX := s.fld (Reg.DOSE_BAR_CTRL_PHASE_X b)
    phaseY := s.fld (Reg.DOSE_BAR_CTRL_PHASE_Y b)
    phasePend := false
    gen := x.gen + 1
    swapLine := x.line }
  let s := ((s.setBar b y).showBank b).setFld (Reg.DOSE_BAR_STATUS_SWAP_PEND b) 0
  let s := (s.setFld (Reg.DOSE_BAR_STATUS_GEN b) (y.gen % 256)).setFld (Reg.DOSE_BAR_SWAPLINE_LINE b) (x.line % idxMod)
  let s := (s.setFld Reg.DOSE_EVENTS_SWAP 1).raiseIf (s.flag Reg.DOSE_EV_EN_SWAP) 58
  s.loopSwapped b

/-- The bar expands: it is in the mask of a running job. -/
def State.expanding (s : State) (b : Nat) : Bool := s.runningBars.contains b

/-- The bank of the generation before L_swap is in use: a slice of an image line below L_swap has not been expanded, or
has no passing result yet (R147; DEDUCED for the latter: R151 still runs it). -/
def State.bankInUse (s : State) (b : Nat) : Bool :=
  let x := s.bar b
  decide (x.line < x.swapLine) || x.bad.any fun d => decide (d.line < x.swapLine)

/-- A swap is requested (R145): with nothing pending no effect; a bar that expands takes it at its next image-line
boundary, another at once. -/
def State.swapRequest (s : State) (b : Nat) : State :=
  if !(s.bar b).hasPending then s
  else if s.expanding b then s.setFld (Reg.DOSE_BAR_STATUS_SWAP_PEND b) 1
  else s.swapBar b

/-- DOSE_SWAP_REQUEST (R145, R148). -/
def execDoseSwapRequest (bar : Nat) (s : State) : Result :=
  .next <| if bar < 16 then s.swapRequest bar else s

/-- A requested swap at a line boundary. -/
def State.swapDue (s : State) (b : Nat) : State :=
  if s.flag (Reg.DOSE_BAR_STATUS_SWAP_PEND b) && decide ((s.bar b).slice = 0) then s.swapBar b else s

/-- DOSE_SWAP (R146): at an image-line boundary. -/
def execDoseSwap (bar : Nat) (s : State) : Result := .next <| if bar < 16 then s.swapDue bar else s

/-! Checks (R149 to R151). -/

/-- A failed check is counted by its cause (Table 06-20): 1 residue, 2 input CRC or uncorrectable read, 3 and 4 DUAL and
assembly counts. -/
def State.countCause (s : State) (cause n : Nat) : State :=
  match cause with
  | 1 => s.bump Reg.DOSE_CNT_RESIDUE_COUNT n
  | 2 => s.bump Reg.DOSE_CNT_INCRC_COUNT n
  | _ => s.bump Reg.DOSE_CNT_DUAL_COUNT n

/-- An engine whose re-run failed is reported to the spare controller (R151), which takes it over (SPARE_TAKEOVER). -/
def State.reportEngine (s : State) (e : Nat) : State :=
  if s.spare.reports.contains e then s else { s with spare := { s.spare with reports := s.spare.reports ++ [e] } }

/-- How the checks on a slice or frame came out: a re-run that passes is counted; two failed runs report the engines
concerned, and a takeover or BLANK follows. -/
def State.checked (s : State) (b : Nat) (c : CheckRun) : State :=
  match c with
  | .pass => s
  | .rerun cause => ((s.countCause cause 1).bump Reg.DOSE_CNT_RERUN_COUNT).log1 0x01 0x10 b 0 [cause]
  | .takeover cause e => (s.countCause cause 2).reportEngine e
  | .blank cause a c =>
    let s := (s.countCause cause 2).reportEngine a
    if s.flag Reg.DOSE_CTRL_VERIFY then s.reportEngine c else s

/-- A frame of a board is written BLANK (R151). -/
def State.blanked (s : State) (b k cause line slice engA engB : Nat) : State :=
  let s := (s.setFld Reg.DOSE_FAIL_CAUSE cause).setFld Reg.DOSE_FAIL_BAR b
  let s := (s.setFld Reg.DOSE_FAIL_BOARD k).setFld Reg.DOSE_FAIL_SLICE slice
  let s := (s.setFld Reg.DOSE_FAIL_LINE_LO_LINE_LO (line % idxMod)).setFld Reg.DOSE_FAIL_LINE_HI_LINE_HI
    (line / idxMod % idxMod)
  let s := (s.setFld Reg.DOSE_FAIL_ENG_ENG_A engA).setFld Reg.DOSE_FAIL_ENG_ENG_B
    (if s.flag Reg.DOSE_CTRL_VERIFY then engB else 0)
  (s.setFld Reg.DOSE_EVENTS_BLANK 1).raiseIf (s.flag Reg.DOSE_EV_EN_BLANK) 57

/-! Expansion of a slice. -/

/-- The queue entry that a bar takes next. -/
def State.entryOf (s : State) (b : Nat) : Option Entry := s.job.entries.find? fun e => e.id == (s.bar b).entry

/-- The page of an entry, once stored. -/
def State.pageOf (s : State) (e : Entry) : Option Page :=
  if e.failed || e.handle == 0 then none else s.job.pages.find? fun p => p.handle == e.handle

/-- The first frame that needs image line `l`. -/
def Bar.firstFrame (x : Bar) (l : Nat) : Nat := l + minRowOff x.map

/-- A slot for frame `f` is free (R154): the frame LINES before it has been fired and read by reference rendering,
where that reads the bar. -/
def State.slotFree (s : State) (b f : Nat) : Bool :=
  let lines := s.fld (Reg.DOSE_BAR_BUF_LINES b)
  decide (f < lines) ||
    (decide (f < lines + s.barFired b) && (!s.rendersBar b || decide (f < lines + (s.bar b).rendered)))

/-- A wait shown and, where it begins, counted once for its image line. -/
def State.waitAt (s : State) (shown count : Fld) : State :=
  if s.flag shown then s else (s.setFld shown 1).bump count

/-- A bar's line ends: substitution, and the place in the queue (R128, R140). -/
def State.endLine (s : State) (b : Nat) (e : Entry) : State :=
  let x := s.bar b
  let r := substitute x.map x.sub s.topDose x.screened
  let done := decide (x.pline + 1 = x.total)
  let rep := if done then x.rep + 1 else x.rep
  let spent := done && decide (e.count ≠ 0) && decide (e.count ≤ rep)
  let y := { x with
    lines := ⟨x.line, x.gen, r.1⟩ :: x.lines
    screened := []
    slice := 0
    line := x.line + 1
    pline := if done then 0 else x.pline + 1
    rep := if spent then 0 else rep
    entry := if spent then x.entry + 1 else x.entry }
  let s := s.setBar b y
  let s := if r.2 = 0 then s
    else ((s.bump Reg.DOSE_CNT_SUBLOST_COUNT r.2).setFld Reg.DOSE_EVENTS_SUB_LOST 1).raiseIf
      (s.flag Reg.DOSE_EV_EN_SUB_LOST) 56
  if spent then s.releasePages else s

/-- Where the plane bytes of a slice lie: the address and length of each part, unit by unit (R126, R149). -/
def State.sliceParts (s : State) (page : Page) (p : Plane) (pl lo hi : Nat) : List (Nat × Nat) :=
  let a := max lo page.xoff - page.xoff
  let z := min hi (page.xoff + page.width) - page.xoff
  let per := match p.form with | 0 => 1 | 1 => 4 | _ => 2
  let row := pl * strideOf p.form page.width
  let from_ := row + a / per
  let upto := row + ceilDiv z per
  if z ≤ a then []
  else if from_ / mib2 = (upto - 1) / mib2 then [(s.planeAddr p.units from_, upto - from_)]
  else
    let cut := mib2 * (from_ / mib2 + 1)
    [(s.planeAddr p.units from_, cut - from_), (s.planeAddr p.units cut, upto - cut)]

/-- A slice's plane bytes are read, and whether some of them stay uncorrectable, which every run of the slice meets: an
input CRC failure (R151, Table 13-5). -/
def State.readSlice (s : State) (b : Nat) (page : Page) : State × Bool :=
  let x := s.bar b
  match page.planes.find? fun p => p.bar == b with
  | none => (s, false)
  | some p =>
    let l := s.sliceParts page p x.pline (1024 * x.slice) (1024 * x.slice + min 1024 (x.map.length - 1024 * x.slice))
    let s := l.foldl (fun s e => s.readMem (s.classInput .expansion) e.1 e.2) s
    (s, l.any fun e => s.poisonedAt e.1 e.2)

/-- The outcome of a slice's checks where its input stays uncorrectable: no run passes, cause 2. The engines are those
that the outcome names, else 0. -/
def lostInput (c : CheckRun) : CheckRun :=
  match c with
  | .blank _ a b => .blank 2 a b
  | .takeover _ a => .blank 2 a 0
  | _ => .blank 2 0 0

/-- A slice of the image line in progress is expanded from its page. -/
def State.runSlice (s : State) (b : Nat) (e : Entry) (page : Page) (check : CheckRun) : State :=
  let x := s.bar b
  let start := decide (x.pline = 0) && decide (x.slice = 0)
  let x := if start then { x with begins := x.begins ++ [x.line], total := page.lines } else x
  let n := x.map.length
  let from_ := 1024 * x.slice
  let plane := page.planes.find? fun p => p.bar == b
  let k := s.topDose
  let new := (List.range (min 1024 (n - from_))).map fun i => s.screened x page plane k x.line x.pline (from_ + i)
  let bad := match check with
    | .blank cause a c => x.bad ++ [⟨x.line, x.slice, cause, a, c⟩]
    | _ => x.bad
  let s := (s.checked b check).setBar b { x with screened := x.screened ++ new, slice := x.slice + 1, bad := bad }
  let s := (s.setFld (Reg.DOSE_BAR_STATUS_WAIT_QUEUE b) 0).setFld (Reg.DOSE_BAR_STATUS_WAIT_BUF b) 0
  if n ≤ from_ + 1024 then s.endLine b e else s

/-- A bar of a running job with a buffer. -/
def State.barRuns (s : State) (b : Nat) : Bool :=
  decide (b < 16) && s.expanding b && decide (s.fld (Reg.DOSE_BAR_BUF_LINES b) ≠ 0) && s.barMapped b

/-- SLICE_EXPAND (R139, R146, R149, R151, R154, R155). -/
def execSliceExpand (bar : Nat) (check : CheckRun) (s : State) : Result :=
  .next <|
    if !s.barRuns bar then s
    else
      let s := s.swapDue bar
      match s.entryOf bar with
      | none => s
      | some e =>
        match s.pageOf e with
        | none => s.waitAt (Reg.DOSE_BAR_STATUS_WAIT_QUEUE bar) Reg.DOSE_CNT_QWAIT_COUNT
        | some page =>
          let s := s.setFld (Reg.DOSE_BAR_STATUS_WAIT_QUEUE bar) 0
          let f := (s.bar bar).firstFrame (s.bar bar).line
          if s.barFired bar + s.fld (Reg.DOSE_BAR_CONC_MAX bar) ≤ f then s
          else if !s.slotFree bar f then s.waitAt (Reg.DOSE_BAR_STATUS_WAIT_BUF bar) Reg.DOSE_CNT_BUFWAIT_COUNT
          else
            let r := s.readSlice bar page
            r.1.runSlice bar e page (if r.2 then lostInput check else check)

/-! Frames (R141, R142, R149, R152, R153). -/

/-- The output dose of bar position `i` on image line `l`; 0 outside the lines held. -/
def Bar.doseAt (x : Bar) (l : Int) (i : Nat) : Nat :=
  match x.lines.find? fun d => (d.line : Int) == l with
  | some d => d.doses.getD i 0
  | none => 0

/-- The dose at a frame position of board `k` in frame `f` (R141). -/
def Bar.frameDose (x : Bar) (k f p : Nat) : Nat :=
  match x.map.findIdx? fun e => e.board == k && e.pos == p with
  | some i =>
    let e := x.map.getD i {}
    x.doseAt ((f : Int) - e.rowOff) i
  | none => 0

/-- Doses packed from bit 0 of each byte upward. -/
def packDoses (db : Nat) (l : List Nat) : List Byte :=
  (List.range (l.length * db / 8)).map fun i =>
    BitVec.ofNat 8 (((List.range (8 / db)).map fun j => l.getD (i * (8 / db) + j) 0 * 2 ^ (j * db)).sum)

/-- A board's payload in a frame. -/
def State.framePayload (s : State) (b k f : Nat) : List Byte :=
  packDoses s.doseBits ((List.range (s.boardNozzles k)).map ((s.bar b).frameDose k f))

/-- The bad slice that a board's frame `f` is the first of its frames to need. -/
def Bar.badFor (x : Bar) (k f : Nat) : Option BadSlice :=
  x.bad.find? fun d =>
    let offs := (x.map.zipIdx.filter fun p => p.1.board == k && p.2 / 1024 == d.slice).map fun p => p.1.rowOff
    match offs with
    | [] => false
    | o :: os => d.line + os.foldl min o == f

/-- Frame `f` can be assembled: the lines it needs are expanded. -/
def State.frameReady (s : State) (b f : Nat) : Bool :=
  let x := s.bar b
  match s.frameLimit b with
  | some n => decide (f < n)
  | none => decide (f < x.firstFrame x.line)

/-- The generation in force for image line `f`. -/
def Bar.genAt (x : Bar) (f : Nat) : Nat :=
  match x.lines.find? fun d => d.line == f with
  | some d => d.gen
  | none => x.gen

/-- How the checks of a board's frame came out. -/
def checkOf (checks : List (Nat × CheckRun)) (k : Nat) : CheckRun := (checks.lookup k).getD .pass

/-- One board's frame is assembled, checked and written, BLANK where it has no passing result (R151 to R153). -/
def State.boardFrame (s : State) (b f : Nat) (checks : List (Nat × CheckRun)) (k : Nat) : State :=
  let p := s.framePayload b k f
  let gen := (s.bar b).genAt f
  let s := s.checked b (checkOf checks k)
  let fr (blank : Bool) : BoardFrame := ⟨p, crc32 p, blank, gen⟩
  match checkOf checks k with
  | .blank cause a c =>
    ((s.bump Reg.DOSE_CNT_SAFE_COUNT).blanked b k cause f (Config.failedSlice b f % 64) a c).writeFrame b k f (fr true)
  | _ =>
    match (s.bar b).badFor k f with
    | some d => ((s.bump Reg.DOSE_CNT_SAFE_COUNT).blanked b k d.cause d.line d.slice d.engA d.engB).writeFrame b k f (fr true)
    | none => s.writeFrame b k f (fr false)

/-- FRAME_ASSEMBLE (R141, R149, R151 to R155): the bar's next frame is written and made VALID, the highest board first,
so that DOSE_FAIL keeps the first board affected; `checks` gives the boards whose checks did not pass at once. -/
def execFrameAssemble (bar : Nat) (checks : List (Nat × CheckRun)) (s : State) : Result :=
  .next <|
    let f := (s.bar bar).frame
    if !s.barRuns bar || !s.frameReady bar f || decide (s.barFired bar + s.fld (Reg.DOSE_BAR_CONC_MAX bar) ≤ f) then s
    else if !s.slotFree bar f then s.waitAt (Reg.DOSE_BAR_STATUS_WAIT_BUF bar) Reg.DOSE_CNT_BUFWAIT_COUNT
    else
      let s := (s.barBoards bar).reverse.foldl (fun s k => s.boardFrame bar f checks k) s
      let x := s.bar bar
      let keep (l : Nat) : Bool := decide (f < l + maxRowOff x.map)
      let y := { x with
        frame := f + 1
        made := x.made + 1
        fates := x.fates.filter fun d => decide (f < d.1 + s.fld (Reg.DOSE_BAR_BUF_LINES bar))
        lines := x.lines.filter fun d => keep d.line
        bad := x.bad.filter fun d => keep d.line }
      ((s.setBar bar y).setFld (Reg.DOSE_BAR_STATUS_WAIT_BUF bar) 0).showFill bar

end Sys2Proof.Machine
end

