-- ==== Sys2Proof/Machine/Fire.lean ====
section
/-!
DEFINITION. The firing sequencers (chapter 07): Heruf-H packets, board link states, LINE transmission, decision points,
strobes, echoes, the Tin Soldier, top of sheet, and the Yo-yo.
-/
namespace Sys2Proof.Machine

/-! Heruf-H (R167, R168). -/

/-- A Heruf-H packet (Table 07-2). -/
def herufH (type flags frame pcrc : Nat) (body : List Byte) : List Byte :=
  let h := bytesOf [type, flags] ++ leBytes 2 body.length ++ leBytes 4 frame ++ leBytes 4 pcrc
  h ++ leBytes 4 (crc32c h) ++ body

/-- Lane A of a board. -/
def State.laneA (s : State) (k : Nat) : Nat := s.prof k 4 1

/-- The lanes of a board. -/
def State.boardLanes (s : State) (k : Nat) : List Nat :=
  if s.prof k 2 1 = 2 then [s.prof k 4 1, s.prof k 5 1] else [s.prof k 4 1]

/-- A packet other than LINE: on lane A, its PCRC over the body. -/
def State.boardSend (s : State) (k type flags frame : Nat) (body : List Byte) : State :=
  s.headSend k (s.laneA k) (herufH type flags frame (crc32 body) body)

/-- A LINE (R168): whole on one lane, or split over two. -/
def State.sendLine (s : State) (k flags frame crc : Nat) (p : List Byte) : State :=
  if s.prof k 2 1 = 2 then
    let n := 8 * ceilDiv p.length 16
    let s := s.headSend k (s.prof k 4 1) (herufH 0x01 (flags + 4) frame crc (p.take n))
    s.headSend k (s.prof k 5 1) (herufH 0x01 (flags + 6) frame crc (p.drop n))
  else s.headSend k (s.laneA k) (herufH 0x01 flags frame crc p)

/-- A SCHEDULE (Table 07-3). -/
def State.sendSchedule (s : State) (k flags frame g gen : Nat) (due : Int) : State :=
  s.boardSend k 0x02 flags frame
    (bytesOf [g, 0] ++ leBytes 2 (s.prof k 12 2) ++ leBytes 4 gen ++ leBytes 8 (unsignedOf 64 due))

/-- A HELLO (Table 07-3); its reply is awaited. -/
def State.sendHello (s : State) (k : Nat) : State :=
  let s := s.setBoard k { s.board k with hello := true }
  s.boardSend k 0x03 0 0 (leBytes 2 (s.prof k 0 2) ++ leBytes 1 (s.prof k 3 1) ++ leBytes 1 (s.prof k 2 1) ++
    leBytes 2 (s.prof k 20 2) ++ leBytes 1 (s.prof k 22 1) ++ leBytes 1 0 ++ leBytes 2 (s.prof k 14 2) ++
    List.replicate 6 0#8)

/-- A received packet of a type with its 16 bytes of body, where its check codes verify (R167, R175): FRAME and
body. -/
def herufIn (type : Nat) (b : List Byte) : Option (Nat × List Byte) :=
  let body := b.drop 16
  if b.length = 32 ∧ leAt b 0 1 = type ∧ leAt b 2 2 = 16 ∧ leAt b 12 4 = crc32c (b.take 12) ∧ leAt b 8 4 = crc32 body then
    some (leAt b 4 4, body)
  else none

/-! Board link states (Table 07-5). -/

/-- OFF. -/
def bsOff : Nat := 0
/-- TRAINING. -/
def bsTraining : Nat := 1
/-- SYNC. -/
def bsSync : Nat := 2
/-- RUN. -/
def bsRun : Nat := 3
/-- HOT. -/
def bsHot : Nat := 4
/-- SAFE_LATCH. -/
def bsLatch : Nat := 5

/-- A board's link state. -/
def State.bst (s : State) (k : Nat) : Nat := s.fld (Reg.FIRE_B_STATUS_STATE k)

/-- A board's link state replaced. -/
def State.setBst (s : State) (k v : Nat) : State := s.setFld (Reg.FIRE_B_STATUS_STATE k) v

/-- Credits held. -/
def State.setCredits (s : State) (k v : Nat) : State := s.setFld (Reg.FIRE_B_STATUS_CREDITS k) (min 255 v)

/-- The link layer is up on every lane of a board. DEDUCED: and ACTIVE, as TRICKLE carries no Heruf-H (R337). -/
def State.lanesUp (s : State) (k : Nat) : Bool :=
  (s.boardLanes k).all fun l => s.flag (Reg.LANE_STATUS_UP l) && decide (s.fld (Reg.LANE_STATUS_STATE l) = 3)

/-- A board goes OFF: what its link showed is gone. -/
def State.boardOff (s : State) (k : Nat) : State :=
  let x := s.board k
  let s := s.setBoard k { x with hello := false, clearing := false, echoed := false, misses := 0, rails := 0 }
  (s.setBst k bsOff).setCredits k 0

/-- A board in TRAINING whose lanes are up goes to SYNC with a HELLO. -/
def State.boardTrain (s : State) (k : Nat) : State :=
  if s.bst k = bsTraining && s.lanesUp k then (s.setBst k bsSync).sendHello k else s

/-- Table 07-5 after a change of use or ENABLE: OFF without either, TRAINING where both come together. -/
def State.boardRefresh (s : State) (k : Nat) : State :=
  let on := s.boardUsed k && s.flag (Reg.FIRE_B_CTRL_ENABLE k)
  if on && decide (s.bst k = bsOff) then (s.setBst k bsTraining).boardTrain k
  else if !on && decide (s.bst k ≠ bsOff) then s.boardOff k
  else s

/-- `boardRefresh` on every board: a map or profile has changed. -/
def State.boardsRefresh (s : State) : State := (List.range 48).foldl State.boardRefresh s

/-- A lane has come up: boards in TRAINING may go on. -/
def State.laneCame (s : State) : State := (List.range 48).foldl State.boardTrain s

/-- A lane has left ACTIVE: its board in RUN, HOT or SAFE_LATCH trains anew. -/
def State.laneLeft (s : State) (l : Nat) : State :=
  (List.range 48).foldl (fun s k =>
    if s.boardUsed k && (s.boardLanes k).contains l && [bsRun, bsHot, bsLatch].contains (s.bst k) then
      (s.setBoard k { s.board k with hello := false, clearing := false }).setBst k bsTraining
    else s) s

/-- A fault puts a board into SAFE_LATCH (Table 07-5); a CLEAR under way is overtaken (R184). -/
def State.latchBoard (s : State) (k : Nat) (bit : Fld) : State :=
  let s := (s.setFld bit 1).setBoard k { s.board k with clearing := false }
  if [bsRun, bsHot].contains (s.bst k) then s.setBst k bsLatch else s

/-- ENABLE written (Table 07-5). -/
def State.boardEnable (s : State) (k : Nat) (v : Bool) : State :=
  (s.setFlag (Reg.FIRE_B_CTRL_ENABLE k) v).boardRefresh k


/-- BOARD_ENABLE_WRITE (Table 07-5, Table 07-8). -/
def execBoardEnableWrite (board : Nat) (enable : Bool) (s : State) : Result :=
  .next <| if board < 48 && s.writable then
    s.orLater (Reg.FIRE_B_CTRL_ENABLE board) (b2n enable) fun s => s.boardEnable board enable else s

/-- The last echo, if any, shows RAIL OK and a temperature below TEMP_LIMIT. -/
def State.echoFit (s : State) (k : Nat) : Bool :=
  !(s.board k).echoed || (bitAt (s.fld (Reg.FIRE_B_ECHO_RAIL k)) 0 &&
    decide (s.fldI (Reg.FIRE_B_ECHO_TEMP k) < signedOf 16 (s.prof k 20 2)))

/-- CLEAR written (Table 07-5, R178): the latched faults clear; from SAFE_LATCH a fresh HELLO exchange leads to RUN. -/
def State.boardClear (s : State) (k : Nat) : State :=
  let s := (s.setFld (Reg.FIRE_B_STATUS_STROBE_FAULT k) 0).setFld (Reg.FIRE_B_STATUS_ECHO_FAULT k) 0
  let s := (s.setFld (Reg.FIRE_B_STATUS_RAIL_FAULT k) 0).setBoard k { s.board k with rails := 0, misses := 0 }
  if s.bst k = bsLatch && s.echoFit k then
    (s.setBoard k { s.board k with clearing := true }).sendHello k
  else s

/-- FIRE_CLEAR (Table 07-5, R178, R184). -/
def execFireClear (board : Nat) (s : State) : Result :=
  .next <| if board < 48 && s.writable then
    s.orLater (Reg.FIRE_B_CTRL_CLEAR board) 1 fun s => s.boardClear board else s

/-- HELLO_REPLY (Table 07-5). -/
def execHelloReply (board : Nat) (bytes : List Byte) (s : State) : Result :=
  .next <|
    let x := s.board board
    if !(decide (board < 48) && s.boardUsed board && x.hello && (s.bst board == bsSync || x.clearing)) then s
    else match herufIn 0x83 bytes with
      | none => s
      | some (_, b) =>
        let ok := decide (leAt b 0 2 = s.prof board 0 2) && decide (leAt b 3 1 = s.prof board 2 1) &&
          decide (s.prof board 3 1 ≤ leAt b 2 1)
        let s := s.setFlag (Reg.FIRE_B_STATUS_PROFILE_MISMATCH board) !ok
        if ok then
          ((s.setBoard board { x with hello := false, clearing := false }).setBst board bsRun).setCredits board
            (s.prof board 3 1)
        else s.setBoard board { x with hello := false }

/-- HELLO_REPEAT (Table 07-5): no matching reply has come; HELLO is sent again every 100 ms. -/
def execHelloRepeat (board : Nat) (s : State) : Result :=
  .next <|
    if decide (board < 48) && s.boardUsed board && (s.bst board == bsSync || (s.board board).clearing) then
      (s.setFld (Reg.FIRE_B_STATUS_PROFILE_MISMATCH board) 1).sendHello board
    else s

/-- CREDIT (R169). -/
def execCredit (board : Nat) (bytes : List Byte) (s : State) : Result :=
  .next <|
    if decide (board < 48) && s.boardUsed board then
      match herufIn 0x82 bytes with
      | some (_, b) => s.setCredits board (leAt b 0 1)
      | none => s
    else s

/-! LINE transmission (R168, R169, R171). -/

/-- H has reached `n` ticks before the due position of frame `f`. -/
def State.reached (s : State) (b k f : Nat) (n : Int) : Bool :=
  match s.dueAt b k f with
  | some p => decide (p - n ≤ s.ppos.high)
  | none => false

/-- A copy of a board's frame is read for its sequencer: descriptor and payload (R171, R317). -/
def State.readCopy (s : State) (b : Nat) (second : Bool) (k f : Nat) : State :=
  let i := s.classInput .fire
  (s.readMem i (s.descAt b second k f) 16).readMem i (s.payloadAt b second k f) (s.payloadBytes k)

/-- The payload that has the descriptor's CRC: of the copy in service, else under MIRROR of the other, read once
(R171). -/
def State.sentCopy (s : State) (b k f : Nat) (fr : BoardFrame) : Option (List Byte) :=
  let c := s.servingCopy b
  if s.copyGood b c k f fr.crc then some fr.payload
  else if s.mirrored && s.copyGood b (!c) k f fr.crc then
    some (memGet s.mem (s.payloadAt b (!c) k f) (s.payloadBytes k))
  else none

/-- LINE_TRANSMIT (R171): the descriptor and the payload are read from the bar buffer. -/
def execLineTransmit (board : Nat) (s : State) : Result :=
  .next <|
    match s.boardBar board with
    | none => s
    | some b =>
      let x := s.board board
      let f := x.tx
      if !(s.boardUsed board && decide (s.st = stPrinting) && s.jobBar b && [bsRun, bsHot, bsLatch].contains (s.bst board)
          && s.hasFrame b f && s.reached b board f (16 * s.fld Reg.FIRE_CTRL_LEAD)
          && decide (0 < s.fld (Reg.FIRE_B_STATUS_CREDITS board))) then s
      else
        let s := s.readCopy b (s.servingCopy b) board f
        match s.validFrame b board f with
        | none => s
        | some fr =>
          match s.sentCopy b board f fr with
          | some p =>
            let s := (s.setBoard board { x with tx := f + 1 }).setCredits board
              (s.fld (Reg.FIRE_B_STATUS_CREDITS board) - 1)
            s.sendLine board 0 f fr.crc p
          | none => s.setBoard board { x with tx := f + 1, badCrc := x.badCrc ++ [f] }

/-! The decision (R172, R173, R181, R183). -/

/-- The mean of the bar's last 16 line periods in ns, or 10^9 / RATE_MAX until 16 have passed. -/
def State.periodNs (s : State) (b k : Nat) : Nat :=
  match (s.bar b).ticks[16]? with
  | some t => ((s.bar b).ticks.getD 0 0 - t) * 4 / 16
  | none => nsPerSec / s.prof k 8 4

/-- E_d of the profile; 0 for dose 0. -/
def State.energyOf (s : State) (k d : Nat) : Nat := if d = 0 then 0 else s.prof k (26 + 2 * d) 2

/-- emax(G) of R173. -/
def State.emax (s : State) (k g : Nat) (p : List Byte) : Nat :=
  let db := s.doseBits
  let e := (List.range (s.boardNozzles k)).map fun i => (i % g, s.energyOf k (packedDose (p.getD · 0) 0 db i))
  ((List.range g).map fun j => ((e.filter fun q => q.1 == j).map Prod.snd).sum).foldl max 0

/-- The first G from `g` on, among `n`, that fits the span and the group budget. -/
def State.groupFrom (s : State) (k span : Nat) (p : List Byte) : Nat → Nat → Option Nat
  | 0, _ => none
  | n + 1, g =>
    if span < g * s.prof k 12 2 then none
    else if s.emax k g p ≤ s.prof k 24 4 then some g
    else s.groupFrom k span p n (g + 1)

/-- The phase groups of a normal line; none where no grouping fits. -/
def State.groups (s : State) (b k : Nat) (p : List Byte) : Option Nat :=
  let g := s.prof k 7 1
  s.groupFrom k (s.periodNs b k * 7 / 8) p (9 - g) g

/-- g_need of R173. -/
def State.gNeed (s : State) (k : Nat) (p : List Byte) : Option Nat :=
  ((List.range 8).map (· + 1)).find? fun g => decide (s.emax k g p ≤ s.prof k 24 4)

/-- Table 07-4: the cause of a safe line, or the groups of a normal one. -/
def State.judgeLine (s : State) (b k f : Nat) : Sum Nat Nat :=
  let x := s.board k
  let st := s.bst k
  if st < bsRun || !s.flag (Reg.FIRE_B_CTRL_ENABLE k) then .inl 1
  else if st = bsLatch then .inl 2
  else if st = bsHot then .inl 3
  else if x.echoed && !bitAt (s.fld (Reg.FIRE_B_ECHO_RAIL k)) 0 then .inl 4
  else match s.validFrame b k f with
    | none => .inl 6
    | some fr =>
      let bad := x.badCrc.contains f
      if fr.blank then .inl 5
      else if x.tx ≤ f && !bad && decide (0 < s.fld (Reg.FIRE_B_STATUS_CREDITS k)) then .inl 6
      else if bad then .inl 7
      else match s.groups b k fr.payload with
        | none => .inl 8
        | some g => if x.tx ≤ f then .inl 9 else .inr g

/-- The energy cap of a line that needs `g` groups (R179). -/
def State.ecapOf (s : State) (k g : Nat) : Nat := nsPerSec / (8 * ceilDiv (8 * g * s.prof k 12 2) 7)

/-- What a line blanked for ENERGY asks: the Yo-yo's cap, or ENERGY_OVER where no speed would help. -/
def State.energyBlank (s : State) (k : Nat) (p : List Byte) : State :=
  match s.gNeed k p with
  | some g => { s with fire := { s.fire with caps := (s.ecapOf k g, s.now) :: s.fire.caps } }
  | none => s.setFld Reg.FIRE_EVENTS_ENERGY_OVER 1

/-- R183: a safe line is counted, and raises its events. A line that its board refused (10) is one (DEDUCED: the board
fired nothing for it). -/
def State.safeLine (s : State) (k cause : Nat) : State :=
  let s := (s.bump Reg.FIRE_CNT_SAFE_COUNT).bump (Reg.FIRE_B_COUNT_SAFE k)
  let s := if cause = 6 then s.bump Reg.FIRE_CNT_LATE_COUNT else s
  let s := ((s.setFld Reg.FIRE_EVENTS_SAFE 1).setFld (Reg.FIRE_B_STATUS_LAST_CAUSE k) cause).fireEvent 0
  match cause with
  | 3 => s.fireEvent 4
  | 6 => s.fireEvent 1
  | 8 => s.fireEvent 2
  | _ => s

/-- The temperature that a safe line's gap record gives: of the echo behind HOT or RAIL. -/
def State.causeTemp (s : State) (k cause : Nat) : Nat :=
  if cause = 3 then (s.board k).hotTemp else if cause = 4 then s.fld (Reg.FIRE_B_ECHO_TEMP k) else 0

/-- The generation that a SCHEDULE carries: the descriptor's, or that in force where there is none. -/
def State.frameGen (s : State) (b k f : Nat) : Nat :=
  (match s.validFrame b k f with | some fr => fr.gen | none => (s.bar b).gen) % idxMod

/-- The PCRC that went out with frame `f`'s LINE (R171). -/
def State.sentCrc (s : State) (b k f : Nat) : Option Nat :=
  if f < (s.board k).tx ∧ !(s.board k).badCrc.contains f then (s.validFrame b k f).map BoardFrame.crc else none

/-- Frame `f` is decided: its due position is one that fires, by a normal or a safe line (R163, R172). The time that its
reports carry is that of its decision (R29; DESIGN CHOICE: which moment of a line is meant is not stated). -/
def State.decide1 (s : State) (b k f : Nat) (due : Int) : State :=
  let t := s.devTime
  let fr := (s.validFrame b k f).getD {}
  let v := s.judgeLine b k f
  let cause := match v with | .inl c => c | .inr _ => 0
  let gen := s.frameGen b k f
  let d : Decided := { frame := f, cause := cause, due := due, crc := s.sentCrc b k f, sure := decide (cause ≠ 0),
                       temp := s.causeTemp k cause, sec := t.sec, ns := t.ns, dom := s.activeDom }
  let s := match v with
    | .inr g =>
      let s := s.setFld (Reg.FIRE_B_STATUS_G k) g
      if s.prof k 7 1 < g then s.bump Reg.FIRE_CNT_SPREAD_COUNT else s
    | .inl c => (if c = 8 then s.energyBlank k fr.payload else s).safeLine k c
  let high := if s.ppos.anyFired then max s.ppos.fired due else due
  let s := { s with ppos := { s.ppos with fired := high, anyFired := true } }
  let g := match v with | .inr g => g | .inl _ => s.prof k 7 1
  let x := s.board k
  let s := s.setBoard k { x with
    dec := f + 1, tx := max x.tx (f + 1), decided := x.decided ++ [d], badCrc := x.badCrc.filter (· ≠ f) }
  (s.enterFate b k f (s.dueOf b f) cause).sendSchedule k (b2n (decide (cause ≠ 0))) f g gen due

/-- DECISION_POINT (R172, R181, R184): the board's next frame, once H has reached P_due - 16. -/
def execDecisionPoint (board : Nat) (s : State) : Result :=
  .next <|
    match s.boardBar board with
    | none => s
    | some b =>
      let f := (s.board board).dec
      if !(s.boardUsed board && decide (s.st = stPrinting) && s.jobBar b && s.hasFrame b f && s.reached b board f 16) then s
      else match s.dueAt b board f with
        | some due => s.decide1 b board f due
        | none => s

/-! Strobes (R162, R178). -/

/-- The bar of a board shows its fill, and the job may end (R130, R155). -/
def State.strobeDone (s : State) (k : Nat) : State :=
  match s.boardBar k with
  | some b => (s.showFill b).checkEnd
  | none => s

/-- The line's fate is settled. -/
def State.settleLine (s : State) (k f code : Nat) : State :=
  (match s.boardBar k with | some b => s.sealFate b k f code | none => s).settle k

/-- The fire line is held idle: by the Tin Soldier (R178), or in HALTED (R106). -/
def State.lineHeld (s : State) (k : Nat) : Bool := s.flag (Reg.FIRE_B_STATUS_STROBE_FAULT k) || decide (s.st = stHalted)

/-- A line held idle has no strobe and no echo: a safe one keeps its cause, one that was to be normal ends LATCHED
(R178; in HALTED the same, DESIGN CHOICE). -/
def State.holdIdle (s : State) (k : Nat) (d : Decided) : State :=
  let code := if d.cause = 0 then 2 else d.cause
  let s := s.updDecided k d.frame fun d => { d with strobed := true, sure := true, echo := true, cause := code }
  let s := if d.cause = 0 then s.safeLine k 2 else s
  (s.settleLine k d.frame code).strobeDone k

/-- FIRE_STROBE (R162): the oldest decided frame whose due position H has reached. -/
def execFireStrobe (board : Nat) (s : State) : Result :=
  .next <|
    match (s.board board).decided.find? fun d => !d.strobed && decide (d.due ≤ s.ppos.high) with
    | none => s
    | some d =>
      if s.lineHeld board then s.holdIdle board d
      else
        let s := s.updDecided board d.frame fun d => { d with strobed := true }
        ((s.setBoard board { s.board board with high := true }).emit (.fireLine board true)).strobeDone board

/-- STROBE_FALL (R162, R178). -/
def execStrobeFall (board : Nat) (s : State) : Result :=
  .next <|
    if (s.board board).high then
      (s.setBoard board { s.board board with high := false }).emit (.fireLine board false)
    else s

/-- STROBE_WATCHDOG (R178). -/
def execStrobeWatchdog (board : Nat) (s : State) : Result :=
  .next <|
    if (s.board board).high then
      let s := (s.setBoard board { s.board board with high := false }).emit (.fireLine board false)
      ((s.setFld Reg.FIRE_EVENTS_STROBE 1).fireEvent 3).latchBoard board (Reg.FIRE_B_STATUS_STROBE_FAULT board)
    else s

/-! Echoes (R175 to R177). -/

/-- The temperature of an echo moves the board between RUN and HOT (Table 07-5). -/
def State.echoTemp (s : State) (k temp : Nat) (refused : Bool) : State :=
  let t := signedOf 16 temp
  let lim := signedOf 16 (s.prof k 20 2)
  let s := s.setFld (Reg.FIRE_B_ECHO_TEMP k) temp
  if s.bst k = bsRun ∧ (lim ≤ t ∨ refused) then
    ((s.setBst k bsHot).setFld Reg.FIRE_EVENTS_HOT 1).setBoard k { s.board k with hotTemp := temp }
  else if s.bst k = bsHot ∧ t ≤ lim - s.prof k 22 1 then s.setBst k bsRun
  else s

/-- The rail of an echo: MISS_LIMIT consecutive ones that are not OK latch the board. -/
def State.echoRail (s : State) (k rail : Nat) : State :=
  let s := s.setFld (Reg.FIRE_B_ECHO_RAIL k) rail
  if bitAt rail 0 then s.setBoard k { s.board k with rails := 0 }
  else
    let n := (s.board k).rails + 1
    let s := s.setBoard k { s.board k with rails := n }
    if s.fld Reg.FIRE_CTRL_MISS_LIMIT ≤ n then s.latchBoard k (Reg.FIRE_B_STATUS_RAIL_FAULT k) else s

/-- An ECHO_FAULT line is reported (R176). -/
def State.echoFault (s : State) : State := (s.setFld Reg.FIRE_EVENTS_ECHO 1).fireEvent 5

/-- The cause and sub-cause that an echo gives a line (R176): 0 where it confirms it. A line that fired without the
PCRC sent is a MISMATCH whatever was scheduled; where no LINE was sent no PCRC agrees (DEDUCED). -/
def echoVerdict (d : Decided) (crc status : Nat) : Nat × Nat :=
  if bitAt status 0 then
    if d.crc = some crc then (d.cause, 0) else (11, 2)
  else if d.cause = 0 then (10, status / 2 % 8)
  else (d.cause, 0)

/-- An echo matched to its strobe. -/
def State.echoMatched (s : State) (k : Nat) (d : Decided) (b : List Byte) : State :=
  let status := leAt b 4 1
  let v := echoVerdict d (leAt b 0 4) status
  let s := s.setBoard k { s.board k with echoed := true, misses := 0 }
  let s := s.setFld (Reg.FIRE_B_ECHO_FRAME k) (d.frame % 256)
  let s := s.echoTemp k (leAt b 8 2) (!bitAt status 0 && decide (status / 2 % 8 = 5))
  let s := s.echoRail k (leAt b 5 1)
  let s := if v = (11, 2) then s.echoFault.latchBoard k (Reg.FIRE_B_STATUS_ECHO_FAULT k) else s
  let s := if v.1 = 10 then s.safeLine k 10 else if v.1 = 11 then s.setFld (Reg.FIRE_B_STATUS_LAST_CAUSE k) 11 else s
  let s := s.updDecided k d.frame fun e =>
    { e with sure := true, echo := true, cause := v.1, sub := v.2, temp := if 10 ≤ v.1 then leAt b 8 2 else e.temp }
  s.settleLine k d.frame v.1

/-- ECHO (R169, R175, R176, R184): matched to the strobe whose frame it names; a late echo leaves only its credits and
temperature. -/
def execEcho (board : Nat) (bytes : List Byte) (s : State) : Result :=
  .next <|
    if !(decide (board < 48) && s.boardUsed board) then s
    else match herufIn 0x81 bytes with
      | none => s
      | some (f, b) =>
        let s := s.setCredits board (leAt b 6 1)
        match (s.board board).decided.find? fun d => d.strobed && !d.echo && d.frame % idxMod == f with
        | some d => s.echoMatched board d b
        | none => s.echoTemp board (leAt b 8 2) false

/-- ECHO_TIMEOUT (R175, R176): the oldest strobe without its echo. -/
def execEchoTimeout (board : Nat) (s : State) : Result :=
  .next <|
    match (s.board board).decided.find? fun d => d.strobed && !d.echo with
    | none => s
    | some d =>
      let n := (s.board board).misses + 1
      let s := (s.bump (Reg.FIRE_B_COUNT_ECHO_MISS board)).setBoard board { s.board board with misses := n }
      let s := if s.fld Reg.FIRE_CTRL_MISS_LIMIT ≤ n then s.latchBoard board (Reg.FIRE_B_STATUS_ECHO_FAULT board) else s
      let s := (s.echoFault.setFld (Reg.FIRE_B_STATUS_LAST_CAUSE board) 11).updDecided board d.frame fun e =>
        { e with sure := true, echo := true, cause := 11, sub := 1 }
      s.settleLine board d.frame 11

/-! Top of sheet (R164). -/

/-- The bar's present sheet has frames still to fire. -/
def State.sheetBusy (s : State) (b : Nat) : Bool :=
  let x := s.bar b
  match x.sheets.length with
  | 0 => false
  | n + 1 => decide (x.begins.length ≤ n) || decide (s.barFired b < s.sheetEnd b n)

/-- FIRE_TOS: consumer 32 + b. In PAUSED the frames that are held are still to fire. -/
def execFireTos (bar : Nat) (s : State) : Result :=
  .next <|
    if !(decide (bar < 16) && s.sheetMode bar && s.inSt [stPrinting, stPaused] && s.jobBar bar) then s.refuseTask (32 + bar)
    else if s.sheetBusy bar then
      ((s.setFld Reg.FIRE_EVENTS_TOS_EARLY 1).fireEvent 6 (s.taskTag (32 + bar))).endTask (32 + bar)
    else (s.setBar bar { s.bar bar with sheets := (s.bar bar).sheets ++ [s.webPos] }).endTask (32 + bar)

/-! The Yo-yo (R179, R180). -/

/-- What one bar asks: the request it allows, and whether it is short. -/
def State.yoyoBar (s : State) (f b : Nat) : Option Nat × Bool :=
  if s.flag (Reg.DOSE_BAR_STATUS_AT_MAX b) then (none, false)
  else
    let e := (s.bar b).made * 10000 / s.fld Reg.YOYO_CTRL_INTERVAL
    let look : Int := s.fld Reg.YOYO_CTRL_LOOKAHEAD
    let pred : Int := s.fld (Reg.DOSE_BAR_CONC_FILL b) + (((e : Int) - f) * look).tdiv f
    let floor := s.fld Reg.YOYO_FLOOR_FLOOR
    (if pred < floor then some (e * 15 / 128) else none, decide (pred < floor + s.fld Reg.YOYO_FLOOR_HYST))

/-- The energy cap: the lowest set in the last 100 ms, or the last one set while it is held. -/
def State.ecap (s : State) : Option Nat :=
  match s.fire.caps with
  | [] => none
  | c :: cs => some (((c :: cs).filter fun q => decide (s.now < q.2 + ticksOfMs 100)).foldl (fun m q => min m q.1) c.1)

/-- The lowest request asked, with its cause: 1 SLINKY, 2 ENERGY, 3 TEMP; and whether a bar is short. -/
def State.yoyoLow (s : State) : Nat × Nat × Bool :=
  let f := s.lineRate
  let bars := if f = 0 then [] else s.usedBars.map (s.yoyoBar f)
  let asked := bars.filterMap Prod.fst
  let lo := asked.foldl min 0xFFFF
  let r := (lo, if asked.isEmpty then 0 else 1)
  let r := match s.ecap with
    | some c => (min r.1 c, 2)
    | none => r
  let hot := (List.range 48).any fun k => s.boardUsed k && decide (s.bst k = bsHot)
  let r := if hot then (min r.1 (f * 3 / 32), 3) else r
  (r.1, r.2, bars.any Prod.snd)

/-- The request after an interval. -/
def State.yoyoRun (s : State) : State :=
  let l := s.yoyoLow
  let req := s.fld Reg.YOYO_REQ_REQ
  if !s.flag Reg.YOYO_CTRL_ENABLE then s.setReq 0xFFFF
  else if l.1 < 0xFFFF then
    let v := max (s.fld Reg.YOYO_REQ_REQ_MIN) (min req l.1)
    let s := State.setReq { s with fire := { s.fire with calm := s.now } } v
    if v < req then s.setFld Reg.YOYO_STEP_CAUSE l.2.1 else s
  else if !l.2.2 && decide (s.fire.calm + ticksOfMs (s.fld Reg.YOYO_STEP_RAISE_DELAY) ≤ s.now) then
    s.setReq (min 0xFFFF (req + s.fld Reg.YOYO_STEP_RAISE_STEP))
  else s

/-- YOYO_INTERVAL (R179). -/
def execYoyoInterval (s : State) : Result :=
  .next <|
    if s.inSt [stArmed, stPrinting, stPaused] then
      (List.range 16).foldl (fun s b => s.setBar b { s.bar b with made := 0 }) s.yoyoRun
    else s

/-- ENERGY_CAP_EXPIRY (R179): 100 ms after the last line that set it. -/
def execEnergyCapExpiry (s : State) : Result := .next { s with fire := { s.fire with caps := [] } }

/-- One Manchester cell: the levels of its two halves with their lengths in ns; a 1 is low, then high (R180). -/
def manchesterCell (v : Bool) : List (Bool × Nat) := [(!v, 500), (v, 500)]

/-- A speed word on the line SPDRQ: the start mark, then 32 cells, least significant bit first; between words the line
idles high (R180). -/
def speedLine (w : List Byte) : List (Bool × Nat) :=
  [(false, 1500), (true, 1500)] ++ (w.flatMap byteBitsLsb).flatMap manchesterCell

/-- SPDRQ_WORD (R180): no words in ASLEEP or while the output is off. -/
def execSpdrqWord (s : State) : Result :=
  .next <|
    if s.st = stAsleep || !s.flag Reg.SPDRQ_CFG_ENABLE then s
    else
      let v := if s.flag Reg.SPDRQ_CFG_TEST then s.fld Reg.SPDRQ_CFG_TEST_VALUE else s.fld Reg.YOYO_REQ_REQ
      let w := leBytes 2 v ++ leBytes 1 s.fire.seq
      State.emit { s with fire := { s.fire with seq := (s.fire.seq + 1) % 256 } }
        (.speedWord (speedLine (w ++ leBytes 1 (crc8 w))))

end Sys2Proof.Machine
end

