-- ==== Sys2Proof/Machine/Capture.lean ====
section
/-!
DEFINITION. Camera ports: triggers, frames, port lines, sensor settings, the parameter sets and flat corrections
(chapter 08, R188 to R201, R206 to R209, R213).
-/
namespace Sys2Proof.Machine

/-! A port's settings. -/

/-- KIND 1, a bilinear mosaic. -/
def State.bilinear (s : State) (n : Nat) : Bool := s.flag (Reg.CAP_CTRL_KIND n)

/-- SRC 1, free run. -/
def State.freeRun (s : State) (n : Nat) : Bool := s.flag (Reg.CAP_TRIG_SRC n)

/-- EYE_RES HALF_ALONG. -/
def State.halfAlong (s : State) (n : Nat) : Bool := s.fld (Reg.CAP_CTRL_EYE_RES n) == 1

/-- Colour rows of an inspection line: R, G, B, or rows A and B. -/
def State.colourRows (s : State) (n : Nat) : Nat := if s.bilinear n then 2 else 3

/-- The ports assigned to pipeline `p`, in slot order. -/
def State.pipePorts (s : State) (p : Nat) : List Nat :=
  ((List.range 6).map (6 * (p / 2) + ·)).filter fun n => s.pipeOf n == p

/-- The key of column `x` in colour row `c`. -/
def sampleKey (c x : Nat) : Nat := 16384 * c + x

/-- The colour (0 R, 1 G, 2 B) of a sample (R191, Table 08-1). -/
def colourOf (bilinear : Bool) (cfa row x : Nat) : Nat :=
  if !bilinear then row
  else
    let even := x % 2 == 0
    match cfa, row with
    | 0, 0 => if even then 1 else 0
    | 0, _ => if even then 2 else 1
    | 1, 0 => if even then 0 else 1
    | 1, _ => if even then 1 else 2
    | 2, 0 => if even then 2 else 1
    | 2, _ => if even then 1 else 0
    | _, 0 => if even then 1 else 2
    | _, _ => if even then 0 else 1

/-- The colour of a port's sample. -/
def State.colour (s : State) (n row x : Nat) : Nat := colourOf (s.bilinear n) (s.fld (Reg.CAP_CTRL_CFA n)) row x

/-- A capture pipeline's event: its bit in KAL_EVENTS, and its producer (Table 08-17). -/
def State.kalEvent (s : State) (p bit : Nat) (f : Fld) (prod : Nat) : State :=
  (s.setFld f 1).raiseIf (bitAt (s.fld (Reg.KAL_EVENTS_EV_EN p)) bit) prod

/-- A deviation of Table 08-4 on a port. -/
def State.deviation (s : State) (n : Nat) (count : Fld) : State :=
  let p := s.pipeOf n
  (s.bump count).kalEvent p 3 (Reg.KAL_EVENTS_DEVIATION p) 83

/-! Parameter sets (R213, Table 08-5). -/

/-- The bits that each word of a parameter set holds; the others are reserved (R8). -/
def kalMask : List Nat :=
  [0xFFFFFFFF, 0xFFFFFFFF, 0xFFFFFFFF, 0xFFFFFFFF, 0xFFFF, 0xFFFFFFFF, 0xFFFF, 0xFFFFFFFF, 0x0FFF0FFF, 0x0FFF, 0xFFFF0FFF,
   0x0FFF, 0, 0, 0, 0]

/-- A parameter word. -/
def kalWord (p : List Nat) (w hi lo : Nat) : Nat := bitsOf (p.getD w 0) hi lo

/-- TARGET of a colour. -/
def targetOf (p : List Nat) (c : Nat) : Nat :=
  match c with
  | 0 => kalWord p 8 11 0
  | 1 => kalWord p 8 27 16
  | _ => kalWord p 9 11 0

/-- The ranges of Table 08-5. -/
def kalSetOk (p : List Nat) : Bool :=
  let off := fun w hi lo => (signedOf 16 (kalWord p w hi lo)).natAbs ≤ 4095
  decide (off 5 15 0) && decide (off 5 31 16) && decide (off 6 15 0) &&
    ((List.range 3).all fun c => decide (1 ≤ targetOf p c)) &&
    decide (kalWord p 10 11 8 ≤ 8) && decide (1 ≤ kalWord p 10 7 0) && decide (kalWord p 10 7 0 ≤ 63)

/-- The port that KAL_PIDX of pipeline `p` selects. -/
def State.kalPort (s : State) (p : Nat) : Nat := 6 * (p / 2) + s.fld (Reg.KAL_PIDX_SLOT p)

/-- KAL_PDAT written: the staged word, masked to its fields; WORD advances. -/
def State.kalPdat (s : State) (p : Nat) (v : Word) : State :=
  let n := s.kalPort p
  let x := s.cam n
  let w := s.fld (Reg.KAL_PIDX_WORD p)
  (s.setCam n { x with staged := x.staged.set w (v.toNat &&& kalMask.getD w 0) }).bumpWrap (Reg.KAL_PIDX_WORD p)

/-- KAL_PDAT_WRITE (R213): a pending set is not written. -/
def execKalPdatWrite (pipe : Nat) (value : Word) (s : State) : Result :=
  .next <| if s.writable && decide (pipe < 8) && !(s.cam (s.kalPort pipe)).pend then
    s.orLater (Reg.KAL_PDAT_DATA pipe) value.toNat fun s => s.kalPdat pipe value else s

/-- KAL_APPLY (R213): a set within its ranges is marked pending. -/
def execKalApply (pipe : Nat) (s : State) : Result :=
  .next <|
    let n := s.kalPort pipe
    let x := s.cam n
    if s.writable && decide (pipe < 8) && kalSetOk x.staged then
      s.orLater (Reg.KAL_PIDX_APPLY pipe) 1 fun s => s.setCam n { x with pend := true } else s

/-! Flat correction (R206 to R209). -/

/-- Paper level of a sample, in 1/16 of a count. -/
def State.paperAt (s : State) (n row x : Nat) : Nat :=
  let c := s.cam n
  tabGet (c.paperDef.getD (s.colour n row x) 0) c.paper (sampleKey row x)

/-- Every sample of an inspection line of a port, as row and column. -/
def State.samplesOf (s : State) (n : Nat) : List (Nat × Nat) :=
  (List.range (s.colourRows n)).flatMap fun r => (List.range (s.capW n)).map fun x => (r, x)

/-- The gain that a paper level asks for (R209). -/
def gainFor (target p : Nat) : Nat := if p = 0 then 65535 else min 65535 ((target * 262144 + p / 2) / p)

/-- The gains and gain defects of the port's paper levels, on the corrections given (R209). -/
def State.gainSet (s : State) (n : Nat) (f : FlatSet) : FlatSet :=
  let p := (s.cam n).params
  let one (q : Nat × Nat) : Nat × Nat :=
    (sampleKey q.1 q.2, gainFor (targetOf p (s.colour n q.1 q.2)) (s.paperAt n q.1 q.2))
  let gs := (s.samplesOf n).map one
  let bad := fun g : Nat => decide (g < 256 * kalWord p 10 23 16) || decide (256 * kalWord p 10 31 24 < g)
  { f with
    gain := gs.filter fun e => e.2 != 16384
    gainDef := (gs.filter fun e => bad e.2).map Prod.fst }

/-- A new gain set in the staged bank, for the port's next frame (R209). -/
def State.stageGains (s : State) (n : Nat) : State :=
  let x := s.cam n
  s.setCam n { x with
    flatNext := some (s.gainSet n (x.flatNext.getD x.flat)), gainNext := true, since := 0, moved := [] }

/-- GAIN_SET_COMPUTE (R209): FLAT_EVERY frames after the last set, unless FLAT_FREEZE. -/
def execGainSetCompute (port : Nat) (s : State) : Result :=
  .next <|
    let p := s.pipeOf port
    if decide (port < 24) && s.capOn port && !s.flag (Reg.KAL_CTRL_FLAT_FREEZE p) &&
        decide (s.fld (Reg.KAL_CTRL_FLAT_EVERY p) ≤ (s.cam port).since) then s.stageGains port
    else s

/-- A paper level changes: held in 20 bits, marked for the gain set's count and for the store. -/
def State.setPaper (s : State) (n row x : Nat) (v : Int) : State :=
  let c := s.cam n
  let k := sampleKey row x
  let new := (clampInt 0 1048575 v).toNat
  if new = s.paperAt n row x then s
  else
    let s := s.setCam n { c with
      paper := tabPut (c.paperDef.getD (s.colour n row x) 0) c.paper k new
      moved := if c.moved.contains k then c.moved else k :: c.moved
      paperDirty := true }
    let p := s.pipeOf n
    if new = 0 then s.kalEvent p 2 (Reg.KAL_EVENTS_ZERO_PAPER p) 87 else s

/-- A port starts (R190, R206): its positions and counts begin, its dark and paper levels are those of the store. -/
def State.portStart (s : State) (n : Nat) : State :=
  let s := (s.calVerify 0x20 n).calVerify 0x21 n
  let x := s.cam n
  let dark : FlatSet := match s.calContent 0x20 n with
    | some (k :: l) => { dark := unflatten2 (l.drop k), darkDef := l.take k }
    | _ => {}
  let def0 := (List.range 3).map fun c => 16 * targetOf x.params c
  let paper := s.calContent 0x21 n
  let pos := s.webPos
  let x := { x with
    fsync := false, t0 := pos + 256, high := pos, trigs := 0, waiting := [], plines := 0, history := [], rowA := none,
    since := 0, moved := [], blocks := [], flatNext := none, gainNext := false,
    paperDef := match paper with | some l => l.take 3 | none => def0
    paper := match paper with | some l => unflatten2 (l.drop 3) | none => []
    base := none, input := [], seen := 0, nextM := none, grid := [] }
  let s := s.setCam n x
  s.setCam n { x with flat := s.gainSet n dark }

/-! Rendering tables as a frame takes them (R227, R231). -/

/-- The tables that a port uses, as 256 x kind + instance. -/
def State.tablesUsed (s : State) (n : Nat) : List Nat :=
  [512 + n, 1536] ++ (List.range 16).flatMap fun b => if (s.modelBars n).contains b then [768 + b, 1024 + b] else []

/-- The newest committed tables that a port uses. -/
def State.renderFor (s : State) (n : Nat) : RenderSet :=
  let bars := (List.range 16).filter (s.modelBars n).contains
  let cls := (s.renderTab 6 0).data
  let r : RenderSet := {
    model := (s.renderTab 2 n).data.map Int.toNat
    cover := (bars.map fun b => (b, (s.renderTab 3 b).data)).filter fun e => !e.2.isEmpty
    blur := (bars.map fun b => (b, (s.renderTab 4 b).data.map Int.toNat)).filter fun e => !e.2.isEmpty
    gens := ((s.tablesUsed n).map fun k => (k, (tabGet {} s.insp.tabs k).gen)).filter fun e => decide (0 < e.2) }
  if cls.isEmpty then r else { r with cls := cls.map Int.toNat }

/-- A port has not taken the newest of a table. -/
def State.tabStale (s : State) (n k : Nat) : Bool :=
  (tabGet {} s.insp.tabs k).gen != ((s.cam n).render.gens.lookup k).getD 0

/-- TABLE_PEND: some port that uses a table has not taken its newest. -/
def State.showTabPend (s : State) : State :=
  s.setFlag Reg.JIG_STATUS_TABLE_PEND
    ((List.range 24).any fun n => s.registered n && (s.tablesUsed n).any (s.tabStale n))

/-- The tables that a port takes are in force: RGEN counts a generation when tables come into force that no port had
taken (R227). -/
def State.countTaken (s : State) (n : Nat) : State :=
  let new := (s.tablesUsed n).filter fun k => decide ((tabGet {} s.insp.tabs k).taken < (tabGet {} s.insp.tabs k).gen)
  if new.isEmpty then s
  else
    let tabs := new.foldl (fun l k => tabPut {} l k { tabGet {} l k with taken := (tabGet {} l k).gen }) s.insp.tabs
    State.bumpWrap { s with insp := { s.insp with tabs := tabs } } Reg.JIG_STATUS_RGEN

/-- A frame takes the rendering tables (R227). -/
def State.takeTables (s : State) (n : Nat) : State :=
  let new := s.renderFor n
  if s.registered n && decide (new ≠ (s.cam n).render) then
    ((s.setCam n { s.cam n with render := new }).countTaken n).showTabPend
  else s

/-! Frames (R190, R195, R196). -/

/-- The open frame: the newest, while it is not closed. -/
def Cam.openFrame (x : Cam) : Option CamFrame :=
  match x.frames with
  | f :: _ => if f.closed then none else some f
  | [] => none

/-- The newest frame changed. -/
def Cam.updTop (x : Cam) (u : CamFrame → CamFrame) : Cam :=
  match x.frames with
  | f :: t => { x with frames := u f :: t }
  | [] => x

/-- A frame changed by its number. -/
def Cam.updFrame (x : Cam) (num : Nat) (u : CamFrame → CamFrame) : Cam :=
  { x with frames := x.frames.map fun f => if f.num = num then u f else f }

/-- A frame is still needed: open, with lines in the capture buffer, or with its statistics due. -/
def Cam.needs (x : Cam) (f : CamFrame) : Bool := !f.closed || !f.done || x.buf.any fun l => l.frame == f.num

/-- The settings identifier of frame `num`, with what was to come up to it taken (R199). -/
def Cam.takeSettings (x : Cam) (num : Nat) : Cam :=
  let now := x.setNext.filter fun e => decide (e.1 ≤ num)
  { x with
    setId := match now.getLast? with | some e => e.2 | none => x.setId
    setNext := x.setNext.filter fun e => decide (num < e.1) }

/-- A frame opens (R190, R195): its number, its settings, and all that waited for it: parameters (R213), corrections
(R207, R209), rendering tables (R227), the correlation offset (R230). Its lines are processed under what holds now,
whenever that is done (R204). A frame that opens as OVERLENGTH does so without a rise of FSYNC (R200). -/
def State.openFrame (s : State) (n : Nat) (overlong : Bool) : State :=
  let p := s.pipeOf n
  let x := s.cam n
  let num := x.nextFrame
  let before := x.flat.gainDef.length
  let swap := x.gainNext
  let x := (x.takeSettings num)
  let x := { x with
    nextFrame := (num + 1) % idxMod, lines := 0, rowA := none, since := x.since + 1, held := x.held + 1
    params := if x.pend then x.staged else x.params, pend := false
    flat := x.flatNext.getD x.flat, flatNext := none, gainNext := false
    gen := if swap then (x.gen + 1) % 256 else x.gen
    xfer := x.xfer.map fun t => if t.started && t.settings && !overlong then { t with crossed := true } else t }
  let s := (s.setCam n x).takeTables n
  let x := s.cam n
  let f : CamFrame := {
    num := num, setId := x.setId, unsure := x.unsure.contains num, overlong := overlong, gen := x.gen, flat := x.flat,
    params := x.params, kind := s.bilinear n, cfa := s.fld (Reg.CAP_CTRL_CFA n),
    edgeK := s.fld (Reg.KAL_CTRL_EDGE_K (s.pipeOf n)), render := x.render, rgen := s.fld Reg.JIG_STATUS_RGEN, dx := x.dx, dy := x.dy
    changed := match x.frames with
      | g :: _ => decide (g.render ≠ x.render)
      | [] => false }
  let s := s.setCam n { x with
    frames := f :: x.frames.filter x.needs, unsure := x.unsure.filter (· ≠ num) }
  let s := (((s.setFld (Reg.CAP_FRAME_FRAME n) num).setFld (Reg.CAP_STATUS_OPEN n) 1).setFld (Reg.CAP_STATUS_PEND n)
    0).setFld (Reg.CAP_STATUS_SET_ID n) x.setId
  let s := if swap then s.kalEvent p 0 (Reg.KAL_EVENTS_GAIN_SWAP p) 85 else s
  let s := if swap ∧ before < x.flat.gainDef.length then s.kalEvent p 1 (Reg.KAL_EVENTS_DEFECT p) 86 else s
  if overlong then s.deviation n (Reg.CAP_COUNT_OVERLENGTH n) else s

/-- FRAME_OPEN (R190): FSYNC rises on an enabled port, and the first port line after it begins. -/
def execFrameOpen (port : Nat) (s : State) : Result :=
  .next <|
    let x := s.cam port
    if decide (port < 24) && s.capOn port && s.awake && !x.fsync then (s.setCam port { x with fsync := true }).openFrame port false
    else s

/-- The open frame closes; it is PARTIAL when it has fewer than LINES inspection lines or an unpaired row (R196), or
when told. It has no statistics where the port makes no grid lines (R238). -/
def State.closeFrame (s : State) (n : Nat) (short : Bool) : State :=
  let x := s.cam n
  let joins := s.onGrid n && s.flag Reg.JIG_CTRL_ENABLE
  (s.setCam n { x.updTop fun f => { f with
    closed := true, short := short, done := f.first.isNone && !joins } with rowA := none }).setFld
    (Reg.CAP_STATUS_OPEN n) 0

/-- FRAME_CLOSE (R190, R196): FSYNC falls. -/
def execFrameClose (port : Nat) (s : State) : Result :=
  .next <|
    let x := s.cam port
    if !(decide (port < 24) && s.capOn port && x.fsync) then s
    else
      let s := s.setCam port { x with fsync := false }
      if x.openFrame.isNone then s
      else
        let short := decide (x.lines < s.capLines port) || x.rowA.isSome
        let s := s.closeFrame port short
        if short then s.deviation port (Reg.CAP_COUNT_SHORT_FRAME port) else s

/-- ENABLE of a port written: a port that starts, or one whose open frame closes as PARTIAL. -/
def State.capEnable (s : State) (n : Nat) (v : Bool) : State :=
  if s.capOn n = v then s
  else
    let s := s.setFlag (Reg.CAP_CTRL_ENABLE n) v
    if v then s.portStart n
    else
      let s := (s.setCam n { s.cam n with fsync := false }).setFld (Reg.CAP_STATUS_PEND n) 0
      if (s.cam n).openFrame.isSome then s.closeFrame n true else s

/-! Triggers (R192). -/

/-- What a line tag takes at this instant, for a line of trigger number `k` at a position. -/
def State.trigNow (s : State) (k : Nat) (pos : Int) : Trig :=
  let t := s.devTime
  ⟨k, pos, t.sec, t.ns, s.activeDom, s.posSuspect, s.webSpeed⟩

/-- T_k. -/
def State.trigPos (s : State) (n k : Nat) : Int := (s.cam n).t0 + (k * s.fld (Reg.CAP_TRIG_PITCH n) / 256 : Nat)

/-- CAMERA_TRIGGER (R192): the web has reached T_k, or the free-run period has passed. -/
def execCameraTrigger (port : Nat) (s : State) : Result :=
  .next <|
    let x := s.cam port
    if !(decide (port < 24) && s.capOn port && s.awake) then s
    else
      let pulse := Out.cameraTrigger port (s.fld (Reg.CAP_TRIG_WIDTH port))
      if s.freeRun port then (s.setCam port { x with trigs := x.trigs + 1 }).emit pulse
      else
        let high := max x.high s.webPos
        let t := s.trigPos port x.trigs
        if high < t then s.setCam port { x with high := high }
        else
          (s.setCam port { x with
            high := high, trigs := x.trigs + 1, waiting := x.waiting ++ [s.trigNow x.trigs t] }).emit pulse

/-! Port lines (R189, R191, R193, R196, R197). -/

/-- The tag material of port line `j`: that of its trigger, or of this instant in free run. -/
def State.lineTrig (s : State) (n j : Nat) : Trig :=
  if s.freeRun n then s.trigNow j s.webPos
  else
    let k := if s.bilinear n then j / 2 else j
    match (s.cam n).waiting.find? fun t => t.k == k with
    | some t => t
    | none => s.trigNow k (s.trigPos n k)

/-- Samples of a port line: aligned to 12 bits, padded with FILL or cut to its length. -/
def State.alignLine (s : State) (n : Nat) (samples : List Nat) : List Nat :=
  let b := match s.fld (Reg.CAP_CTRL_BITS n) with | 0 => 8 | 1 => 10 | _ => 12
  let len := if s.bilinear n then s.capW n else 3 * s.capW n
  ((samples.take len).map fun v => v % 2 ^ b * 2 ^ (12 - b)) ++
    List.replicate (len - samples.length) (s.fld (Reg.CAP_CTRL_FILL n))

/-- The inspection line that a port line completes, if it completes one: trigger, SHORT_LINE and LONG_LINE, and colour
rows. -/
def State.lineFrom (s : State) (n : Nat) (l : PortLine) : Option (Trig × Nat × List (List Nat)) × Cam :=
  let x := s.cam n
  if s.bilinear n then
    match x.rowA with
    | none => (none, { x with rowA := some l })
    | some a => (some (a.trig, a.flags ||| l.flags, [a.samples, l.samples]), { x with rowA := none })
  else
    let w := s.capW n
    let d := [s.fld (Reg.CAP_ALIGN_D_R n), s.fld (Reg.CAP_ALIGN_D_G n), s.fld (Reg.CAP_ALIGN_D_B n)]
    let top := d.foldl max 0
    if x.history.length ≤ top then (none, x)
    else
      let from_ := fun i => x.history.getD i l
      let rows := (List.range 3).map fun c => ((from_ (d.getD c 0)).samples.drop (c * w)).take w
      let flags := d.foldl (fun a i => a ||| (from_ i).flags) 0
      (some ((from_ (if s.freeRun n then top else d.getD 1 0)).trig, flags, rows), x)

/-- FILL_PCT shown. -/
def State.showCapFill (s : State) (n : Nat) : State :=
  s.setFld (Reg.CAP_STATUS_FILL_PCT n) (100 * (s.cam n).buf.length / s.capRoom n)

/-- Condition C5 is broken. -/
def State.c5Broken (s : State) : Bool := bitAt (s.fld Reg.PLAT_STATE_COND) 4

/-- An island overrun in a block (R36): named C5 while VCORE or Tj breaks it, else C3. -/
def State.islandOverrun (s : State) (block inst : Nat) : State :=
  if s.c5Broken then s.breach 5 block inst else s.breachOnce 3 block inst

/-- The values that a calibration run takes from a line (R207, R208): r12, or u under the dark levels in force. -/
def Cam.calValues (x : Cam) (kind : Nat) (rows : List (List Nat)) : List (List Int) :=
  rows.zipIdx.map fun r => r.1.zipIdx.map fun v =>
    (v.1 : Int) - if kind = 0x20 then 0 else (tabGet 0 x.flat.dark (sampleKey r.2 v.2) : Nat)

/-- An inspection line joins a run under way. -/
def State.calTake (s : State) (n : Nat) (rows : List (List Nat)) : State :=
  let x := s.cam n
  match x.run with
  | some r =>
    if 1024 ≤ r.n then s
    else s.setCam n { x with run := some { r with n := r.n + 1, lines := x.calValues r.kind rows :: r.lines } }
  | none => s

/-- An inspection line is complete: it is numbered, delivered under EYE_RES, and written to the capture buffer or
dropped (R193, R194, R197). -/
def State.inspLine (s : State) (n : Nat) (f : CamFrame) (t : Trig) (flags : Nat) (rows : List (List Nat)) : State :=
  let x := s.cam n
  let row := x.lines
  let s := s.setCam n { x with lines := row + 1 }
  if s.halfAlong n && row % 2 == 1 then s
  else if s.capRoom n ≤ x.buf.length then
    ((s.bump (Reg.CAP_STATUS_OVERRUN n)).raise 84).islandOverrun 0x18 n
  else
    let bits := flags + 4 * b2n f.overlong + 8 * b2n (s.freeRun n) + 16 * b2n t.suspect + 32 * t.dom
    let l : CapLine := ⟨t, f.num, row, f.setId, f.gen, bits, rows, x.written % s.capRoom n, false⟩
    (State.calTake (s.setCam n { s.cam n with buf := x.buf ++ [l], written := x.written + 1 }) n rows).showCapFill n

/-- A port line inside a frame, which it may open as OVERLENGTH (R196). -/
def State.frameLine (s : State) (n : Nat) (l : PortLine) : State :=
  let x := s.cam n
  let s := if x.openFrame.isNone || decide (s.capLines n ≤ x.lines) then
      (if x.openFrame.isSome then s.closeFrame n false else s).openFrame n true
    else s
  let s := if bitAt l.flags 0 then s.deviation n (Reg.CAP_COUNT_SHORT_LINE n) else s
  let s := if bitAt l.flags 1 then s.deviation n (Reg.CAP_COUNT_LONG_LINE n) else s
  let r := s.lineFrom n l
  let s := s.setCam n r.2
  match r.1, (s.cam n).openFrame with
  | some (t, flags, rows), some f => s.inspLine n f t flags rows
  | _, _ => s

/-- CAMERA_PORT_LINE (R189 to R191): a run of samples with LSYNC high. -/
def execCameraPortLine (port : Nat) (samples : List Nat) (s : State) : Result :=
  .next <|
    if !(decide (port < 24) && s.capOn port && s.awake) then s
    else
      let x := s.cam port
      let t := s.lineTrig port x.plines
      let len := if s.bilinear port then s.capW port else 3 * s.capW port
      let flags := if samples.length < len then 1 else if len < samples.length then 2 else 0
      let l : PortLine := ⟨t, s.alignLine port samples, flags⟩
      let s := s.setCam port { x with
        plines := x.plines + 1, history := (l :: x.history).take 32,
        waiting := if s.freeRun port then x.waiting else x.waiting.filter fun w => decide (t.k ≤ w.k) }
      if x.fsync then s.frameLine port l else s.setFld (Reg.CAP_STATUS_OUTSIDE port) 1

/-! Sensor settings (R198 to R201). -/

/-- Fewer than GUARD inspection lines remain of the open frame's LINES (R199). -/
def State.guarded (s : State) (n : Nat) : Bool :=
  (s.cam n).openFrame.isSome && decide (s.capLines n - (s.cam n).lines < s.fld (Reg.CAP_SENS_GUARD n))

/-- CAMERA_SET (R198, R199): 0x0200; the INSPECT domain is occupied until the transfer ends (R201). -/
def execCameraSet (rq : Rq) (port ident expo gain : Nat) (s : State) : Result :=
  .next <| s.run rq 0x0200 fun s =>
    s.withParams rq 0x0200 [(16, decide (port < 24))] fun s =>
      if !s.capOn port then s.finish rq 0x0200 scResourceBusy
      else
        let b := bytesOf [s.fld (Reg.CAP_SENS_WCMD port)] ++ leBytes 2 (s.fld (Reg.CAP_SENS_ADDR port)) ++ leBytes 4 expo ++
          leBytes 2 gain
        let s := (s.pend rq 0x0200).occupy rq .inspect
        (s.setCam port { s.cam port with
          xfer := some { sess := rq.sess, tag := rq.tag, ident := ident % 65536, bytes := b } }).setFlag
          (Reg.CAP_STATUS_PEND port) (s.guarded port)

/-- CAMERA_SET_TRANSFER (R199): CS_N falls once the guard allows; a transfer that the guard stops waits for the next
frame to open. -/
def execCameraSetTransfer (port : Nat) (s : State) : Result :=
  .next <|
    match (s.cam port).xfer with
    | some t =>
      if t.started || s.flag (Reg.CAP_STATUS_PEND port) then s
      else if s.guarded port then s.setFld (Reg.CAP_STATUS_PEND port) 1
      else (s.setCam port { s.cam port with xfer := some { t with started := true } }).emit (.sensorBus port t.bytes)
    | none => s

/-- SENSOR_XFER (R201): 0x0201; CS_N falls at once. -/
def execSensorXfer (rq : Rq) (port : Nat) (bytesOut : List Byte) (s : State) : Result :=
  .next <| s.run rq 0x0201 fun s =>
    s.withParams rq 0x0201
      [(16, decide (port < 24)), (18, decide (1 ≤ bytesOut.length) && decide (bytesOut.length ≤ 1024))] fun s =>
      if !s.capOn port then s.finish rq 0x0201 scResourceBusy
      else
        let s := (s.pend rq 0x0201).occupy rq .inspect
        (s.setCam port { s.cam port with
          xfer := some { settings := false, sess := rq.sess, tag := rq.tag, bytes := bytesOut, started := true } }).emit
          (.sensorBus port bytesOut)

/-- The settings of a completed transfer come into force from frame `first` on; frame `m` was open (R199). -/
def Cam.settingsFrom (x : Cam) (first ident : Nat) : Cam :=
  match x.openFrame with
  | some f =>
    if first ≤ f.num then { x.updTop fun g => { g with setId := ident } with setId := ident }
    else { x with setNext := x.setNext ++ [(first, ident)] }
  | none => { x with setNext := x.setNext ++ [(first, ident)] }

/-- The frame M of R199 and R200: the frame open when CS_N rises, else the one before the next. -/
def Cam.frameM (x : Cam) : Int :=
  match x.openFrame with
  | some f => f.num
  | none => (x.nextFrame : Int) - 1

/-- SENSOR_TRANSFER_END (R199 to R201): CS_N rises. -/
def execSensorTransferEnd (port : Nat) (bytesIn : List Byte) (s : State) : Result :=
  .next <|
    let x := s.cam port
    match x.xfer with
    | some t =>
      if !t.started then s
      else if !t.settings then
        let b := (bytesIn ++ List.replicate t.bytes.length 0#8).take t.bytes.length
        ((s.setCam port { x with xfer := none }).finishSlot t.sess t.tag scDone b).vacate t.sess t.tag
      else
        let lat : Int := if s.flag (Reg.CAP_CTRL_SHADOW port) then 1 else s.fld (Reg.CAP_CTRL_LATENCY port)
        let fin := x.frameM + lat
        let first := (if x.openFrame.isNone then max fin x.nextFrame else fin).toNat % idxMod
        let x := { x.settingsFrom first t.ident with xfer := none }
        let x := if t.crossed && decide (1 ≤ fin) then
            { x.updFrame (fin - 1).toNat (fun f => { f with unsure := true }) with
              unsure := if (x.nextFrame : Int) ≤ fin - 1 then x.unsure ++ [(fin - 1).toNat] else x.unsure }
          else x
        let s := (s.setCam port x).setFld (Reg.CAP_STATUS_SET_ID port) x.setId
        (s.finishSlot t.sess t.tag scDone (leBytes 4 first)).vacate t.sess t.tag
    | none => s

/-! Calibration runs (R207, R209). -/

/-- CAL_RUN of kind 0x20 or 0x21 on a port: it takes the next 1,024 inspection lines that the port delivers. -/
def State.startCal (s : State) (rq : Rq) (kind port : Nat) : State :=
  let x := s.cam port
  if !s.capOn port || x.run.isSome then s.finish rq 0x0503 scResourceBusy
  else (s.pend rq 0x0503).setCam port { x with run := some { kind := kind, sess := rq.sess, tag := rq.tag } }

/-- The run of a kind that has all its lines. -/
def State.calFull (s : State) (port kind : Nat) : Option CalJob :=
  match (s.cam port).run with
  | some r => if r.kind = kind ∧ 1024 ≤ r.n then some r else none
  | none => none

/-- The values that a run took of one sample. -/
def CalJob.values (r : CalJob) (row x : Nat) : List Int := r.lines.map fun l => (l.getD row []).getD x 0

/-- DARK_CAL_DONE (R207). -/
def execDarkCalDone (port : Nat) (s : State) : Result :=
  .next <|
    match s.calFull port 0x20 with
    | none => s
    | some r =>
      let levels := (s.samplesOf port).map fun q => (sampleKey q.1 q.2, (((r.values q.1 q.2).sum + 512) / 1024).toNat)
      let s := s.setCam port { s.cam port with run := none }
      let x := s.cam port
      let bad := (levels.filter fun e => decide (kalWord x.params 11 11 0 < e.2)).map Prod.fst
      if levels.length < 16 * bad.length then
        s.finishSlot r.sess r.tag scConfigRejected (checkResult 1 1 0x19 0xFFFFFFFF)
      else
        let f : FlatSet := { x.flatNext.getD x.flat with dark := levels.filter fun e => e.2 != 0, darkDef := bad }
        let s := s.setCam port { x with flatNext := some f }
        (s.calWrite 0x20 port f.darkContent true).finishSlot r.sess r.tag scDone

/-- The paper level that a run's values give (R209). -/
def paperSeed (vals : List Int) : Int := ((((sortInts vals).drop 128).take 768).sum + 24) / 48

/-- PAPER_CAL_DONE (R209). -/
def execPaperCalDone (port : Nat) (s : State) : Result :=
  .next <|
    match s.calFull port 0x21 with
    | none => s
    | some r =>
      let s := s.setCam port { s.cam port with run := none }
      let f := (s.cam port).flat
      let s := (s.samplesOf port).foldl (fun s q =>
        if f.darkDef.contains (sampleKey q.1 q.2) || f.gainDef.contains (sampleKey q.1 q.2) then s
        else s.setPaper port q.1 q.2 (paperSeed (r.values q.1 q.2))) s
      let s := s.stageGains port
      let s := s.setCam port { s.cam port with paperDirty := false }
      (s.calWrite 0x21 port (s.cam port).paperContent true).finishSlot r.sess r.tag scDone

end Sys2Proof.Machine
end

