-- ==== Sys2Proof/Machine/Kaleido.lean ====
section
/-!
DEFINITION. The Kaleidoscope pipelines: dark and flat correction, paper tracking, defects, demosaic and colour matrix, and
the rotation among a pipeline's ports (chapter 08, R202 to R213).
-/
namespace Sys2Proof.Machine

/-! The steps on one inspection line (R205). -/

/-- The corrections and parameters of a line: those of its frame. -/
structure KalSet where
  /-- bilinear mosaic -/
  bilinear : Bool
  /-- CFA -/
  cfa : Nat
  /-- corrections -/
  flat : FlatSet
  /-- parameter set -/
  params : List Nat
  /-- K of R211 -/
  edgeK : Nat

/-- u of R206. -/
def KalSet.u (k : KalSet) (row x r12 : Nat) : Int := (r12 : Int) - (tabGet 0 k.flat.dark (sampleKey row x) : Nat)

/-- y of R206. -/
def KalSet.y (k : KalSet) (row x : Nat) (u : Int) : Nat :=
  (clampInt 0 4095 ((u * (tabGet 16384 k.flat.gain (sampleKey row x) : Nat) + 8192) / 16384)).toNat

/-- A dark or gain defect. -/
def KalSet.defect (k : KalSet) (row x : Nat) : Bool :=
  k.flat.darkDef.contains (sampleKey row x) || k.flat.gainDef.contains (sampleKey row x)

/-- The value that stands in for a defective sample (R210): of the same-colour samples at distance `d`, the mean of
two, or the one that is good; else the nearest good one of the row, on a tie the left; else 0. -/
def KalSet.replaced (k : KalSet) (row : Nat) (ys : List Nat) (x : Nat) : Nat :=
  let d := if k.bilinear then 2 else 1
  let good := fun i : Nat => decide (i < ys.length) && !k.defect row i
  let left := fun j : Nat => if j * d ≤ x ∧ good (x - j * d) then some (ys.getD (x - j * d) 0) else none
  let right := fun j : Nat => if good (x + j * d) then some (ys.getD (x + j * d) 0) else none
  match left 1, right 1 with
  | some a, some b => (a + b + 1) / 2
  | some a, none => a
  | none, some b => b
  | none, none =>
    match (List.range ys.length).findSome? fun j => (left (j + 2)).orElse fun _ => right (j + 2) with
    | some v => v
    | none => 0

/-- A colour row after R206 and R210. -/
def KalSet.corrected (k : KalSet) (row : Nat) (us : List Int) : List Nat :=
  let ys := us.zipIdx.map fun v => k.y row v.2 v.1
  ys.zipIdx.map fun v => if k.defect row v.2 then k.replaced row ys v.2 else v.1

/-- The missing colour at a column (R211): `m` reads the row of G0, `g` the other row. -/
def missingColour (edgeK w x : Nat) (m g : Nat → Nat) : Nat :=
  let l := if x = 0 then x + 1 else x - 1
  let r := if x + 1 = w then x - 1 else x + 1
  let g0 : Int := m x
  let dl : Int := (m l : Int) - g l
  let dr : Int := (m r : Int) - g r
  let al := (g0 - g l).natAbs
  let ar := (g0 - g r).natAbs
  let dd := if al + edgeK < ar then dl else if ar + edgeK < al then dr else (dl + dr + 1) / 2
  (clampInt 0 4095 (g0 + dd)).toNat

/-- R, G and B of a column after demosaic; a trilinear sensor has all three. -/
def KalSet.rgb (k : KalSet) (rows : List (List Nat)) (w x : Nat) : List Nat :=
  let at_ := fun r i : Nat => (rows.getD r []).getD i 0
  if !k.bilinear then [at_ 0 x, at_ 1 x, at_ 2 x]
  else
    let gRow := if colourOf true k.cfa 0 x = 1 then 0 else 1
    let c := at_ (1 - gRow) x
    let miss := missingColour k.edgeK w x (at_ gRow) (at_ (1 - gRow))
    if colourOf true k.cfa (1 - gRow) x = 0 then [c, at_ gRow x, miss] else [miss, at_ gRow x, c]

/-- m[c][k] of the colour matrix (Table 08-5, words 0 to 4). -/
def matrixAt (p : List Nat) (c k : Nat) : Int :=
  let i := 3 * c + k
  signedOf 16 (if i % 2 = 0 then kalWord p (i / 2) 15 0 else kalWord p (i / 2) 31 16)

/-- off_c of the colour matrix (words 5 and 6). -/
def offsetAt (p : List Nat) (c : Nat) : Int :=
  signedOf 16 (match c with
    | 0 => kalWord p 5 15 0
    | 1 => kalWord p 5 31 16
    | _ => kalWord p 6 15 0)

/-- The colour matrix (R212). -/
def colourMatrix (p : List Nat) (v : List Nat) : List Nat :=
  (List.range 3).map fun c =>
    let acc := ((List.range 3).map fun k => matrixAt p c k * (v.getD k 0 : Nat)).sum
    (clampInt 0 4095 ((acc + 2048) / 4096 + offsetAt p c)).toNat

/-- The corrected pixels of a line, R, G and B in turn. -/
def KalSet.pixels (k : KalSet) (us : List (List Int)) (w : Nat) : List Nat :=
  let rows := us.zipIdx.map fun r => k.corrected r.2 r.1
  (List.range w).flatMap fun x => colourMatrix k.params (k.rgb rows w x)

/-! Paper tracking (R208). -/

/-- A column lies in the margin strip (word 7). -/
def inStrip (p : List Nat) (x : Nat) : Bool := decide (kalWord p 7 15 0 ≤ x) && decide (x ≤ kalWord p 7 31 16)

/-- A full block's update of a level: the 48 middle samples of 64 (R208). -/
def blockLevel (alpha p : Nat) (vals : List Int) : Int :=
  let b := ((((sortInts vals).drop 8).take 48).sum + 1) / 3
  p + (b - p) / (2 ^ alpha : Nat)

/-- A qualifying sample joins its block; a full block updates the level and empties. -/
def State.paperSample (s : State) (n alpha row x : Nat) (u : Int) : State :=
  let c := s.cam n
  let k := sampleKey row x
  let vals := u :: (tabGet {} c.blocks k).vals
  if vals.length < 64 then s.setCam n { c with blocks := tabPut {} c.blocks k ⟨vals⟩ }
  else
    let level := blockLevel alpha (s.paperAt n row x) vals
    (s.setCam n { c with blocks := tabErase k c.blocks }).setPaper n row x level

/-- Paper tracking of one column. -/
def State.paperColumn (s : State) (n : Nat) (k : KalSet) (us : List (List Int)) (x : Nat) : State :=
  let at_ := fun r : Nat => (us.getD r []).getD x 0
  let band : Int := 64 - (kalWord k.params 10 7 0 : Nat)
  let ok := inStrip k.params x ||
    (List.range us.length).all fun r => decide (band * (s.paperAt n r x : Nat) ≤ 1024 * at_ r)
  if !ok then s
  else (List.range us.length).foldl (fun s r => if k.defect r x then s else s.paperSample n (kalWord k.params 10 11 8) r x (at_ r)) s

/-! Input lines of the resampler (R217, R219). -/

/-- A port's line spacing Δ in ticks (R215). -/
def State.spacing (s : State) (n : Nat) : Nat :=
  let pitch := s.fld (Reg.CAP_TRIG_PITCH n)
  (if s.halfAlong n then 2 * pitch else pitch) / 256

/-- A corrected line goes on to the resampler: by its tag it is input line k, or it is off the spacing and discarded. -/
def State.inputLine (s : State) (n : Nat) (l : CapLine) : State :=
  let x := s.cam n
  let base := x.base.getD l.trig.pos
  let x := { x with base := some base }
  let d := s.spacing n
  if !(s.onGrid n && s.flag Reg.JIG_CTRL_ENABLE) then s.setCam n x
  else if d = 0 ∨ (l.trig.pos - base) % (d : Int) ≠ 0 then (s.setCam n x).bump Reg.JIG_CNT_INC_PARITY
  else
    let k := (l.trig.pos - base) / (d : Int)
    s.setCam n { x with input := x.input ++ [(k, l)], seen := max x.seen (k + 1), speed := l.trig.speed }

/-! Whole lines and the rotation (R203). -/

/-- The settings that a line is corrected under: those of its frame. -/
def State.kalSet (s : State) (n : Nat) (l : CapLine) : KalSet :=
  let x := s.cam n
  let f := x.frames.find? fun f => f.num == l.frame
  { bilinear := match f with | some f => f.kind | none => s.bilinear n
    cfa := match f with | some f => f.cfa | none => s.fld (Reg.CAP_CTRL_CFA n)
    flat := match f with | some f => f.flat | none => x.flat
    params := match f with | some f => f.params | none => x.params
    edgeK := match f with | some f => f.edgeK | none => s.fld (Reg.KAL_CTRL_EDGE_K (s.pipeOf n)) }

/-- The oldest line of a port's capture buffer is done: tracked, corrected and passed on. -/
def State.lineDone (s : State) (n : Nat) : State :=
  let x := s.cam n
  match x.buf with
  | [] => s
  | l :: rest =>
    let k := s.kalSet n l
    let us := l.rows.zipIdx.map fun r => r.1.zipIdx.map fun v => k.u r.2 v.2 v.1
    let w := (l.rows.getD 0 []).length
    let s := (s.setCam n { x with buf := rest, col := 0 }).showCapFill n
    let s := (List.range w).foldl (fun s c => s.paperColumn n k us c) s
    s.inputLine n { l with rows := [k.pixels us w] }

/-- Input samples counted in units of 2^20 (KAL_SAMPLES). -/
def State.countSamples (s : State) (p m : Nat) : State :=
  let x := tabGet ({} : Pipe) s.eye.pipes p
  let t := x.rest + m
  State.bump { s with eye := { s.eye with pipes := tabPut {} s.eye.pipes p { x with rest := t % 1048576 } } }
    (Reg.KAL_SAMPLES_COUNT p) (t / 1048576)

/-- A part of the oldest line of a port's buffer is read for its pipeline (R203, R317): `w` columns from `c`. -/
def State.readLine (s : State) (n c w : Nat) : State :=
  match (s.cam n).buf with
  | [] => s
  | l :: _ => s.readMem (s.classInput .capture) (s.bufBase n + l.place * s.lineBytes n + 6 * c) (6 * w)

/-- One stripe of the oldest line: 256 columns or what is left. -/
def State.stripe (s : State) (p n : Nat) : State :=
  let s := s.readLine n (s.cam n).col 256
  let x := s.cam n
  match x.buf with
  | [] => s
  | l :: _ =>
    let w := (l.rows.getD 0 []).length
    let s := s.countSamples p (l.rows.length * min 256 (w - x.col))
    if x.col + 256 < w then s.setCam n { s.cam n with col := x.col + 256 } else s.lineDone n

/-- One line whole. -/
def State.wholeLine (s : State) (p n : Nat) : State :=
  let s := s.readLine n 0 (s.capW n)
  match (s.cam n).buf with
  | [] => s
  | l :: _ => (s.countSamples p (l.rows.length * (l.rows.getD 0 []).length)).lineDone n

/-- A unit of work of a port waits: a stripe, or a whole frame. -/
def State.unitWaits (s : State) (p n : Nat) : Bool :=
  let x := s.cam n
  match x.buf with
  | [] => false
  | l :: _ =>
    !s.flag (Reg.KAL_CTRL_SHARE p) || !(x.frames.any fun f => f.num == l.frame && !f.closed)
      || decide (s.capLines n ≤ x.lines)

/-- The next port in ascending slot order from the one just served (R203). -/
def State.nextPort (s : State) (p : Nat) : Option Nat :=
  let last := (tabGet ({} : Pipe) s.eye.pipes p).last
  ((List.range 6).map fun i => 6 * (p / 2) + (last + i) % 6).find? fun n => s.pipeOf n == p && s.unitWaits p n

/-- STRIPE_PROCESS (R203): a pipeline serves one unit of its next port. -/
def execStripeProcess (pipe : Nat) (s : State) : Result :=
  .next <|
    if 8 ≤ pipe then s
    else match s.nextPort pipe with
    | none => s.setFld (Reg.KAL_STATUS_BUSY pipe) 0
    | some n =>
      let last := (tabGet ({} : Pipe) s.eye.pipes pipe).last
      let slot := n % 6
      let s := if last = slot + 1 then s else s.bump (Reg.KAL_STATUS_SWITCHES pipe)
      let y := tabGet ({} : Pipe) s.eye.pipes pipe
      let s : State := { s with eye := { s.eye with pipes := tabPut {} s.eye.pipes pipe { y with last := slot + 1 } } }
      let s := s.setFld (Reg.KAL_STATUS_NOW pipe) slot
      let frame := ((s.cam n).buf.head?.map CapLine.frame).getD 0
      let s := if s.flag (Reg.KAL_CTRL_SHARE pipe) then
          ((s.cam n).buf.filter fun l => l.frame == frame).foldl (fun s _ => s.wholeLine pipe n) s
        else s.stripe pipe n
      s.setFlag (Reg.KAL_STATUS_BUSY pipe) (s.nextPort pipe).isSome

end Sys2Proof.Machine
end

