-- ==== Sys2Proof/Machine/Tables.lean ====
section
/-!
DEFINITION. Tables of the PRINT domain: their rules (R137, R143, R166) and the loads that stage them (R145, R147).
-/
namespace Sys2Proof.Machine

/-- The offset of the first check that fails. -/
def firstFail (l : List (Nat × Bool)) : Option Nat := (l.find? fun c => !c.2).map Prod.fst

/-- Bytes of a table that must be 0. -/
def zerosAt (t : List Byte) (o n : Nat) : List (Nat × Bool) :=
  (List.range n).map fun i => (o + i, t.getD (o + i) 0 == 0)

/-- A table-load chunk whose table is staged in a bank: an accepted chunk at offset 0 discards what is pending, and is
answered RESOURCE_BUSY, with no effect, while the bank is still in use (R147). -/
def State.loadTable (s : State) (rq : Rq) (op limit : Nat) (c : Chunk) (inUse : Bool) (discard : State → State)
    (commit : List Byte → List Byte → State → State) : State :=
  let taken := match judgeChunk false (s.staged op c.inst) c with
    | .more _ => true
    | .whole _ => true
    | _ => false
  let fresh := taken && decide (c.offset = 0) && decide (c.inst < limit) && (s.reservedAt rq).isNone
  if fresh && inUse then s.finish rq op scResourceBusy
  else (if fresh then discard s else s).loadChunk rq op limit false c commit

/-- A LAST commit into the staged bank (R145): pending, and with AUTO_SWAP a swap is requested. -/
def State.stageBank (s : State) (b : Nat) (d : DoseBank) : State :=
  let s := s.setPend b d
  if s.flag (Reg.DOSE_BAR_CTRL_AUTO_SWAP b) then s.swapRequest b else s

/-! Threshold arrays (Table 06-3). -/

/-- The first failing offset of a threshold array. -/
def thresholdBad (t : List Byte) : Option Nat :=
  let w := leAt t 0 2
  let h := leAt t 2 2
  let d := leAt t 4 1
  let k := if d = 1 then 3 else 15
  let v := fun i => leAt t (16 + 2 * i) 2
  match firstFail ([(0, decide (16 ≤ t.length) && decide (1 ≤ w) && decide (w ≤ 256)), (2, decide (1 ≤ h) && decide (h ≤ 256)),
      (4, d == 1 || d == 2)] ++ zerosAt t 5 11 ++ [(0, decide (t.length = 16 + 2 * w * h * k))]) with
  | some o => some o
  | none => firstFail ((List.range (w * h * k)).map fun i =>
      (16 + 2 * i, decide (1 ≤ v i) && decide (v i ≤ 4095) && (i % k == 0 || decide (v (i - 1) ≤ v i))))

/-- A threshold array read from its table. -/
def readThreshold (t : List Byte) : Threshold := ⟨leAt t 0 2, leAt t 2 2, leAt t 4 1, halves (t.drop 16)⟩

/-- THRESHOLD_LOAD: 0x0122. -/
def execThresholdLoad (rq : Rq) (chunk : Chunk) (s : State) : Result :=
  let b := chunk.inst
  .next <| s.run rq 0x0122 fun s =>
    s.loadTable rq 0x0122 16 chunk (s.bankInUse b) (fun s => s.setPend b { (s.bar b).pend with thr := none }) fun t rep s =>
      match thresholdBad t with
      | some o => s.reject rq 0x0122 2 0x10 o
      | none => (s.stageBank b { (s.bar b).pend with thr := some (readThreshold t) }).finish rq 0x0122 scDone rep

/-! Tone curves. -/

/-- The first failing offset of a tone curve. -/
def curveBad (t : List Byte) : Option Nat := if t.length ≠ 512 then some 0 else halfAbove 4095 t

/-- TONE_CURVE_LOAD: 0x0124. -/
def execToneCurveLoad (rq : Rq) (chunk : Chunk) (s : State) : Result :=
  let b := chunk.inst
  .next <| s.run rq 0x0124 fun s =>
    s.loadTable rq 0x0124 16 chunk (s.bankInUse b) (fun s => s.setPend b { (s.bar b).pend with curve := none }) fun t rep s =>
      match curveBad t with
      | some o => s.reject rq 0x0124 2 0x10 o
      | none => (s.stageBank b { (s.bar b).pend with curve := some (halves t) }).finish rq 0x0124 scDone rep

/-! Gains and substitution. -/

/-- The first failing offset of a gain table: N equals the bar's map in force. -/
def State.gainBad (s : State) (b : Nat) (t : List Byte) : Option Nat :=
  if s.barMapped b && decide (t.length = 2 * s.barN b) then none else some 0

/-- The entry at byte `o` of the patterns obeys Table 06-4; entry `j` of its pattern. -/
def patByteOk (two : Bool) (j : Nat) (v : Nat) : Bool :=
  !bitAt v 3 && decide (v % 8 ≤ 4) && (!two || decide (12 ≤ j) || decide (v / 16 ≤ 3))

/-- The first failing offset of a substitution table (Tables 06-3 to 06-5). -/
def State.subBad (s : State) (b : Nat) (t : List Byte) : Option Nat :=
  let e := leAt t 0 2
  let p := leAt t 2 1
  let map := (s.bar b).map
  let at_ := fun i => 16 + 64 * p + 4 * i
  let pos := fun i => leAt t (at_ i) 2
  match firstFail ([(0, decide (16 ≤ t.length) && decide (e ≤ 8192)), (2, decide (1 ≤ p) && decide (p ≤ 16))] ++ zerosAt t 3 13 ++
      [(0, decide (t.length = 16 + 64 * p + 4 * e))]) with
  | some o => some o
  | none =>
    let pats := (List.range p).flatMap fun q =>
      ((List.range 60).map fun j => (16 + 64 * q + j, patByteOk (!s.deep4) j (leAt t (16 + 64 * q + j) 1))) ++
        zerosAt t (16 + 64 * q + 60) 4
    let dead := (List.range e).map fun i =>
      let ok := match map[pos i]? with
        | some m => !m.masked
        | none => false
      (at_ i, ok && decide (leAt t (at_ i + 2) 2 < p) && (i == 0 || decide (pos (i - 1) < pos i)))
    firstFail (pats ++ dead)

/-- A substitution table read from its bytes. -/
def readSub (t : List Byte) : SubTable :=
  let p := leAt t 2 1
  { pats := (List.range p).map fun q => (List.range 60).map fun j =>
      let v := leAt t (16 + 64 * q + j) 1
      (v / 16, v % 8)
    dead := (List.range (leAt t 0 2)).map fun i =>
      (leAt t (16 + 64 * p + 4 * i) 2, leAt t (16 + 64 * p + 4 * i + 2) 2) }

/-! Nozzle maps (R136, R137). -/

/-- A map entry read from its eight bytes. -/
def readMapEntry (t : List Byte) (o : Nat) : MapEntry :=
  let v := leAt t (o + 5) 1
  ⟨leAt t o 2, leAt t (o + 2) 1, leAt t (o + 3) 1, leAt t (o + 4) 1, bitAt v 7, v % 4⟩

/-- An entry obeys Table 06-2. -/
def mapEntryOk (t : List Byte) (o : Nat) (e : MapEntry) : Bool :=
  decide (e.pos ≤ 8191) && decide (e.board ≤ 47) && decide (e.modul ≤ 63) && decide (leAt t (o + 5) 1 / 4 % 32 = 0) &&
    decide (leAt t (o + 6) 2 = 0)

/-- The index of the first entry that breaks R137 on its own, given the entries already passed. -/
def mapBadFrom (other : List Nat) (t : List Byte) : Nat → Nat → List (Nat × Nat) → Option Nat
  | 0, _, _ => none
  | n + 1, x, seen =>
    let o := 16 + 8 * x
    let e := readMapEntry t o
    if mapEntryOk t o e && !seen.contains (e.board, e.pos) && !other.contains e.board then
      mapBadFrom other t n (x + 1) ((e.board, e.pos) :: seen)
    else some o

/-- A map's nozzle-lines per second (R138), at the rate its boards give. -/
def State.nozzleLines (s : State) : Nat := ((List.range 16).map fun b => s.barN b * s.barRate b).sum

/-- The limits of R138. -/
def State.nozzlesFit (s : State) : Bool :=
  decide (s.nozzles ≤ 262144) && (!s.deep4 || decide (s.nozzleLines ≤ 39321600000))

/-- A map read from its table. -/
def readMap (t : List Byte) : List MapEntry := (List.range (leAt t 0 4)).map fun x => readMapEntry t (16 + 8 * x)

/-- The state with a bar's map replaced, and nothing else. -/
def State.withMap (s : State) (b : Nat) (m : List MapEntry) (crc : Nat) : State :=
  s.setBar b { s.bar b with map := m, mapCrc := crc }

/-- The first failing offset of a nozzle map (R137); under R138's total the first entry past it, under its rate the
header. -/
def State.mapBad (s : State) (b : Nat) (t : List Byte) : Option Nat :=
  let n := leAt t 0 4
  match firstFail ([(0, decide (16 ≤ t.length) && decide (1 ≤ n) && decide (n ≤ 65536))] ++ zerosAt t 4 12 ++
      [(0, decide (t.length = 16 + 8 * n))]) with
  | some o => some o
  | none =>
    let other := ((List.range 16).filter (· ≠ b)).flatMap s.barBoards
    match mapBadFrom other t n 0 [] with
    | some o => some o
    | none =>
      let s1 := s.withMap b (readMap t) 0
      let rest := s1.nozzles - n
      if 262144 < s1.nozzles then some (16 + 8 * (262144 - rest))
      else if s1.nozzlesFit then none else some 0

end Sys2Proof.Machine
end

