-- ==== Sys2Proof/Machine/Resample.lean ====
section
/-!
DEFINITION. The resamplers: parameter sets, coefficient banks, and the two passes that place a port's lines on the
inspection grid (chapter 09, R214 to R221).
-/
namespace Sys2Proof.Machine

/-! The grid (R214). -/

/-- BX. -/
def State.gridBX (s : State) : Nat := 1 + s.fld Reg.JIG_CTRL_BX

/-- BY. -/
def State.gridBY (s : State) : Nat := 1 + s.fld Reg.JIG_CTRL_BY

/-- Web ticks of a grid line: 16 x BY. -/
def State.gridTicks (s : State) : Nat := 16 * s.gridBY

/-- gpos of grid line `m`. -/
def State.gpos (s : State) (m : Int) : Int := s.gridTicks * m

/-! Parameter sets (R216, Table 09-1). -/

/-- The bits that each word of a resampling set holds. -/
def rsmpMask : List Nat := [0xFFFFFFFF, 0xFFFF, 0xFFFFFFFF, 0xFFFFFFFF, 0x1FFFF, 0xFFFFF, 0, 0, 0, 0, 0, 0, 0, 0, 0, 0]

/-- X0. -/
def x0Of (p : List Nat) : Int := signedOf 48 (p.getD 0 0 + 2 ^ 32 * p.getD 1 0)

/-- STEP. -/
def stepOfSet (p : List Nat) : Nat := p.getD 2 0

/-- DLY. -/
def dlyOf (p : List Nat) : Nat := p.getD 4 0

/-- EXPC_NS. -/
def expcOf (p : List Nat) : Nat := p.getD 5 0

/-- The ranges of Table 09-1. -/
def rsmpSetOk (p : List Nat) : Bool :=
  decide (0x400000 ≤ stepOfSet p) && decide (stepOfSet p ≤ 0x4000000) && decide (colsOf p ≤ 16384) &&
    decide (dlyOf p ≤ 65536) && decide (expcOf p ≤ 1000000)

/-- The port that RSMP_CTRL of resampler `r` selects. -/
def State.rsmpPort (s : State) (r : Nat) : Nat := 6 * (r / 2) + s.fld (Reg.RSMP_CTRL_SLOT r)

/-- RSMP_PDAT written: the staged word, masked to its fields; WORD advances. -/
def State.rsmpPdat (s : State) (r : Nat) (v : Word) : State :=
  let n := s.rsmpPort r
  let x := s.cam n
  let w := s.fld (Reg.RSMP_CTRL_WORD r)
  (s.setCam n { x with rsStaged := x.rsStaged.set w (v.toNat &&& rsmpMask.getD w 0) }).bumpWrap (Reg.RSMP_CTRL_WORD r)

/-- RSMP_PDAT_WRITE (R216): a pending set is not written. -/
def execRsmpPdatWrite (unit : Nat) (value : Word) (s : State) : Result :=
  .next <| if s.writable && decide (unit < 8) && !(s.cam (s.rsmpPort unit)).rsPend then
    s.orLater (Reg.RSMP_PDAT_DATA unit) value.toNat fun s => s.rsmpPdat unit value else s

/-- APPLY (R216): the staged set is pending. A port that is not registered, and stays so, has no output line for it to
wait for: it takes the set at once. -/
def State.rsmpApply (s : State) (n : Nat) : State :=
  let x := s.cam n
  if colsOf x.rs = 0 ∧ colsOf x.rsStaged = 0 then s.setCam n { x with rs := x.rsStaged, rsPend := false }
  else (s.setCam n { x with rsPend := true }).showTabPend

/-- RSMP_APPLY (R216): a set within its ranges is marked pending. -/
def execRsmpApply (unit : Nat) (s : State) : Result :=
  .next <|
    let n := s.rsmpPort unit
    let x := s.cam n
    if s.writable && decide (unit < 8) && rsmpSetOk x.rsStaged then
      s.orLater (Reg.RSMP_CTRL_APPLY unit) 1 fun s => s.rsmpApply n
    else s

/-- A pending set comes into force; a port that enters registration starts with correlation offsets 0 (R216, R230), and
one that leaves it makes no further line. -/
def State.takeRsmp (s : State) (n : Nat) : State :=
  let x := s.cam n
  if !x.rsPend then s
  else
    let enters := decide (colsOf x.rs = 0)
    let x := { x with
      rs := x.rsStaged, rsPend := false, dx := if enters then 0 else x.dx, dy := if enters then 0 else x.dy }
    s.setCam n (if colsOf x.rs = 0 then { x with nextM := none, input := [] } else x)

/-- The correlation offsets are 0 (R230). -/
def State.zeroCorr (s : State) : State :=
  (List.range 24).foldl (fun s n =>
    let x := s.cam n
    if x.dx = 0 ∧ x.dy = 0 then s else s.setCam n { x with dx := 0, dy := 0, held := 0 }) s

/-! Coefficients (R219 to R221). -/

/-- A resampler. -/
def State.rsmp (s : State) (r : Nat) : Rsmp := tabGet {} s.eye.rsmps r

/-- A resampler replaced. -/
def State.setRsmp (s : State) (r : Nat) (x : Rsmp) : State :=
  { s with eye := { s.eye with rsmps := tabPut {} s.eye.rsmps r x } }

/-- Tap `t` of phase `ph` in the bank in force; linear interpolation before any load (R220). -/
def Rsmp.tap (x : Rsmp) (ph t : Nat) : Int :=
  if !x.coef.isEmpty then x.coef.getD (16 * ph + t) 0
  else if ph < 32 then (if t = 7 then 8192 - 256 * ph else if t = 8 then 8192 + 256 * ph else 0)
  else if t = 8 then 24576 - 256 * ph else if t = 9 then 256 * ph - 8192 else 0

/-- A table's coefficients. -/
def readCoef (t : List Byte) : List Int := (List.range 1024).map fun i => leIntAt t (16 + 2 * i) 2

/-- The first failing offset of a coefficient table: the header, or a phase whose taps do not sum to 16,384 (R220). -/
def coefBad (t : List Byte) : Option Nat :=
  match firstFail ((0, decide (t.length = 2064)) :: zerosAt t 0 16) with
  | some o => some o
  | none => firstFail ((List.range 64).map fun ph =>
      (16 + 32 * ph, ((List.range 16).map fun i => leIntAt t (16 + 32 * ph + 2 * i) 2).sum == 16384))

/-- A swap is requested (R221): nothing waits where no bank is committed. -/
def State.rsmpSwap (s : State) (r : Nat) : State :=
  if s.flag (Reg.RSMP_STATUS_COEF_PEND r) then s.setFld (Reg.RSMP_STATUS_SWAP_PEND r) 1 else s

/-- RSMP_SWAP (R221). -/
def execRsmpSwap (unit : Nat) (s : State) : Result :=
  .next <| if s.writable && decide (unit < 8) then
    s.orLater (Reg.RSMP_CTRL_SWAP unit) 1 fun s => s.rsmpSwap unit else s

/-- RESAMPLE_COEF_LOAD (R220, R221): 0x0205. While a swap is pending the bank in use is still needed. -/
def execResampleCoefLoad (rq : Rq) (chunk : Chunk) (s : State) : Result :=
  let r := chunk.inst
  .next <| s.run rq 0x0205 fun s =>
    if chunk.offset = 0 ∧ r < 8 ∧ s.flag (Reg.RSMP_STATUS_SWAP_PEND r) then s.finish rq 0x0205 scResourceBusy
    else s.loadTable rq 0x0205 8 chunk false (fun s => s.setFld (Reg.RSMP_STATUS_COEF_PEND r) 0) fun t rep s =>
      match coefBad t with
      | some o => s.reject rq 0x0205 2 0x1A o
      | none =>
        let s := (s.setRsmp r { s.rsmp r with next := readCoef t }).setFld (Reg.RSMP_STATUS_COEF_PEND r) 1
        (if s.flag (Reg.RSMP_CTRL_AUTO_SWAP r) then s.rsmpSwap r else s).finish rq 0x0205 scDone rep

/-- A stripe edge, the start of output line `m` of a port: a requested swap takes effect (R221). -/
def State.stripeEdge (s : State) (r : Nat) (m : Int) (column : Nat) : State :=
  if !s.flag (Reg.RSMP_STATUS_SWAP_PEND r) then s
  else
    let x := s.rsmp r
    let s := s.setRsmp r { coef := x.next, next := [] }
    let s := (s.setFld (Reg.RSMP_STATUS_SWAP_PEND r) 0).setFld (Reg.RSMP_STATUS_COEF_PEND r) 0
    let s := (s.setFld (Reg.RSMP_SWAPPOS_LINE r) (unsignedOf 16 m)).setFld (Reg.RSMP_SWAPPOS_COLUMN r) column
    (s.bumpWrap (Reg.RSMP_STATUS_GEN r)).raiseIf (s.flag (Reg.RSMP_CTRL_EV_EN r)) 88

/-! The two passes (R217, R218). -/

/-- e of R217: the ticks between trigger and exposure centre. -/
def exposureTicks (v : Int) (expc : Nat) : Int := (max 0 v * expc + 500000000) / 1000000000

/-- y24 of R217. -/
def yOf (gpos t0 e : Int) (dlt dly : Nat) : Int := (gpos - t0 - e) * 2 ^ 24 / (dlt : Int) - (dly * 2 ^ 18 : Nat) - 125829120

/-- The first grid line of a port: the least `m` whose n is at least 0. -/
def firstGridLine (ticks : Nat) (t0 e : Int) (dlt dly : Nat) : Int :=
  let need : Nat := (dly * 2 ^ 18 + 125829120) * dlt
  let g := t0 + e + (ceilDiv need (2 ^ 24) : Nat)
  (g + (ticks - 1 : Nat)) / (ticks : Int)

/-- The input line of an index, or the nearest present line of the window `n` to `n + 15`, the earlier on a tie
(R219). -/
def windowLine (input : List (Int × CapLine)) (n k : Int) : Option CapLine :=
  let win := input.filter fun e => decide (n ≤ e.1) && decide (e.1 ≤ n + 15)
  let best := win.foldl (fun (a : Option (Int × CapLine)) e =>
    match a with
    | none => some e
    | some b =>
      let da := (b.1 - k).natAbs
      let de := (e.1 - k).natAbs
      if de < da ∨ (de = da ∧ e.1 < b.1) then some e else some b) none
  best.map Prod.snd

/-- A filtered sum of 16 taps, rounded and clamped. -/
def filter16 (h : Nat → Int) (v : Nat → Nat) : Nat :=
  (clampInt 0 4095 ((((List.range 16).map fun t => h t * (v t : Int)).sum + 8192) / 16384)).toNat

/-- The along-web pass: 3 x W values. -/
def alongPass (h : Nat → Int) (lines : List (List Nat)) (w : Nat) : List Nat :=
  (List.range (3 * w)).map fun i => filter16 h fun t => (lines.getD t []).getD i 0

/-- The across-web pass: 3 x COLS values. -/
def acrossPass (tap : Nat → Nat → Int) (p : List Nat) (w : Nat) (a : List Nat) : List Nat :=
  (List.range (colsOf p)).flatMap fun j =>
    let x24 := x0Of p + (j * stepOfSet p : Nat) - 125829120
    let n := x24 / 2 ^ 24
    let ph := (x24 / 2 ^ 18 % 64).toNat
    (List.range 3).map fun c => filter16 (tap ph) fun t =>
      a.getD (3 * (clampInt 0 ((w : Int) - 1) (n + t)).toNat + c) 0

/-- Whether any of the 16 lines of a window is missing. -/
def windowHole (input : List (Int × CapLine)) (n : Int) : Bool :=
  (List.range 16).any fun t : Nat => !input.any fun e => e.1 == n + (t : Int)

/-- The grid line of a port from the window at `n` (R217 to R219). -/
def State.gridLine (s : State) (port : Nat) (m n : Int) (ph : Nat) : GridLine :=
  let x := s.cam port
  let r := s.rsmp (s.pipeOf port)
  let w := s.capW port
  let lines := (List.range 16).map fun t : Nat => windowLine x.input n (n + (t : Int))
  let pix := lines.map fun l => match l with | some c => c.rows.getD 0 [] | none => []
  let src := ((lines.getD (if ph < 32 then 7 else 8) none)).getD {}
  let win := x.input.filter fun e => decide (n ≤ e.1) && decide (e.1 ≤ n + 15)
  { m := m, trig := src.trig, frame := src.frame, setId := src.setId, gen := src.gen
    flags := win.foldl (fun a e => a ||| e.2.flags) 0
    hole := windowHole x.input n || win.any fun e => e.2.lost
    pix := acrossPass r.tap x.rs w (alongPass (r.tap ph) pix w) }

/-- A grid line joins its frame: first and last line, INCOMPLETE lines. -/
def Cam.noteGrid (x : Cam) (l : GridLine) : Cam :=
  x.updFrame l.frame fun f => { f with
    first := some (f.first.getD l.m), last := l.m, incomplete := f.incomplete + b2n l.hole }

/-- RESAMPLE_LINE (R217): the port's next grid line, once input line n + 15 has arrived. -/
def execResampleLine (port : Nat) (s : State) : Result :=
  .next <|
    if !(decide (port < 24) && s.onGrid port && s.flag Reg.JIG_CTRL_ENABLE) then s
    else
      let x := s.cam port
      let p := x.regSet
      let dlt := s.spacing port
      match x.base with
      | none => s
      | some t0 =>
        if dlt = 0 then s
        else
          let e := exposureTicks x.speed (expcOf p)
          let m := x.nextM.getD (firstGridLine s.gridTicks t0 e dlt (dlyOf p))
          let y := yOf (s.gpos m) t0 e dlt (dlyOf p)
          let n := y / 2 ^ 24
          let ph := (y / 2 ^ 18 % 64).toNat
          if x.seen < n + 16 then s
          else
            let s := s.takeRsmp port
            let r := s.pipeOf port
            if colsOf p = 0 then s
            else
            let s := s.stripeEdge r m (firstColOf p)
            let s := s.setCam port { s.cam port with nextM := some (m + 1) }
            if n < 0 then s
            else
              let l := s.gridLine port m n ph
              let x := s.cam port
              let s := s.setCam port ({ x with
                grid := l :: x.grid, input := x.input.filter fun e => decide (n - 16 ≤ e.1) }.noteGrid l)
              if l.hole then (s.bump (Reg.RSMP_STATUS_LINES_INC r)).bump Reg.JIG_CNT_INC_INCOMPLETE else s

end Sys2Proof.Machine
end

