-- ==== Sys2Proof/Machine/Render.lean ====
section
/-!
DEFINITION. The owners of grid columns, the tables of reference rendering, the expected colour of a grid pixel, and the
class of a difference (chapter 09, R222, R224 to R229, R231).
-/
namespace Sys2Proof.Machine

/-! Owners (R222). -/

/-- The registered ports in FIRST_COL order, each with its first column and the column after its last. -/
def State.portRanges (s : State) : List (Nat × Nat × Nat) :=
  let one (n : Nat) : Nat × Nat × Nat :=
    let p := (s.cam n).rs
    (n, firstColOf p, firstColOf p + colsOf p)
  let l := ((List.range 24).filter fun n => decide (0 < colsOf (s.cam n).rs)).map one
  l.foldr (fun e acc => (acc.takeWhile fun a => decide (a.2.1 < e.2.1)) ++ e :: acc.dropWhile fun a => decide (a.2.1 < e.2.1)) []

/-- The seam of two neighbours that overlap. -/
def seamOf (a b : Nat × Nat × Nat) : Nat := b.2.1 + (a.2.2 - b.2.1) / 2

/-- The columns that each port owns, given the port before it: port, first, after last. -/
def ownersFrom : Option (Nat × Nat × Nat) → List (Nat × Nat × Nat) → List (Nat × Nat × Nat)
  | _, [] => []
  | prev, a :: t =>
    let lo := match prev with
      | some p => if a.2.1 < p.2.2 then seamOf p a else a.2.1
      | none => a.2.1
    let hi := match t with
      | b :: _ => if b.2.1 < a.2.2 then seamOf a b else a.2.2
      | [] => a.2.2
    (a.1, lo, hi) :: ownersFrom (some a) t

/-- The columns that each registered port owns. -/
def State.owners (s : State) : List (Nat × Nat × Nat) :=
  (ownersFrom none s.portRanges).filter fun o => decide (o.2.1 < o.2.2)

/-- The owner of a column. -/
def ownerOf (own : List (Nat × Nat × Nat)) (g : Nat) : Option Nat :=
  (own.find? fun o => decide (o.2.1 ≤ g) && decide (g < o.2.2)).map Prod.fst

/-! Rendering and class tables (R227, R231). -/

/-- A table that a port has taken is still in use by another port. -/
def State.tabBusy (s : State) (k : Nat) : Bool :=
  let users := (List.range 24).filter fun n => s.registered n && (s.tablesUsed n).contains k
  users.any (s.tabStale · k) && users.any fun n => !s.tabStale n k

/-- A committed table: pending until each port that uses it opens a frame. -/
def State.commitTab (s : State) (k : Nat) (data : List Int) : State :=
  let t := tabGet {} s.insp.tabs k
  State.showTabPend { s with insp := { s.insp with tabs := tabPut {} s.insp.tabs k { t with data := data, gen := t.gen + 1 } } }

/-- A load of a rendering or class table: `bad` gives the first failing offset, `read` the content. -/
def State.loadTab (s : State) (rq : Rq) (op kind limit : Nat) (c : Chunk) (bad : List Byte → Option Nat)
    (read : List Byte → List Int) : State :=
  let k := 256 * kind + c.inst
  if c.offset = 0 ∧ c.inst < limit ∧ s.tabBusy k then s.finish rq op scResourceBusy
  else s.loadChunk rq op limit false c fun t rep s =>
    match bad t with
    | some o => s.reject rq op 2 0x1B o
    | none => (s.commitTab k (read t)).finish rq op scDone rep

/-- The first failing offset of a colour model. -/
def modelBad (t : List Byte) : Option Nat :=
  match firstFail ((0, decide (t.length = 501144)) ::
      ((List.range 4).map fun i => (i, decide (leAt t i 1 < 16) || leAt t i 1 == 255)) ++ zerosAt t 4 12) with
  | some o => some o
  | none =>
    match halfAbove 4095 ((t.drop 16).take 501126) with
    | some o => some (16 + o)
    | none => firstFail (zerosAt t 501142 2)

/-- COLOUR_MODEL_LOAD (R227): 0x0202, instance port. -/
def execColourModelLoad (rq : Rq) (chunk : Chunk) (s : State) : Result :=
  .next <| s.run rq 0x0202 fun s => s.loadTab rq 0x0202 2 24 chunk modelBad fun t =>
    ((List.range 4).map fun i => (leAt t i 1 : Int)) ++ (halves ((t.drop 16).take 501126)).map Int.ofNat

/-- The first failing offset of a coverage table. -/
def coverBad (t : List Byte) : Option Nat :=
  firstFail ((0, decide (t.length = 48)) :: zerosAt t 2 14 ++
    (List.range 16).map fun d => (16 + 2 * d, decide (leAt t (16 + 2 * d) 2 ≤ 4095)))

/-- COVERAGE_LOAD (R227): 0x0203, instance bar. -/
def execCoverageLoad (rq : Rq) (chunk : Chunk) (s : State) : Result :=
  .next <| s.run rq 0x0203 fun s => s.loadTab rq 0x0203 3 16 chunk coverBad fun t =>
    leIntAt t 0 2 :: (List.range 16).map fun d => (leAt t (16 + 2 * d) 2 : Int)

/-- The first failing offset of a blur table; of a wrong sum, the kernel's first byte. -/
def blurBad (t : List Byte) : Option Nat :=
  firstFail ((0, decide (t.length = 68)) :: zerosAt t 0 16 ++
    ((List.range 25).map fun i => (16 + 2 * i, decide (leAt t (16 + 2 * i) 2 ≤ 4095))) ++
    [(16, ((List.range 25).map fun i => leAt t (16 + 2 * i) 2).sum == 1024)] ++ zerosAt t 66 2)

/-- BLUR_LOAD (R227): 0x0204, instance bar. -/
def execBlurLoad (rq : Rq) (chunk : Chunk) (s : State) : Result :=
  .next <| s.run rq 0x0204 fun s => s.loadTab rq 0x0204 4 16 chunk blurBad fun t =>
    (List.range 25).map fun i => (leAt t (16 + 2 * i) 2 : Int)

/-- The first failing offset of a class table (R231). -/
def classBad (t : List Byte) : Option Nat :=
  firstFail ((0, decide (t.length = 48)) :: ((List.range 3).map fun i => (2 * i, decide (leAt t (2 * i) 2 ≤ 1024))) ++
    zerosAt t 6 10 ++ (List.range 4).flatMap fun c =>
      let o := 16 + 8 * c
      [(o, decide (1 ≤ leAt t o 2) && (c == 0 || decide (leAt t (o - 8) 2 < leAt t o 2))),
       (o + 2, decide (1 ≤ leAt t (o + 2) 2)), (o + 4, decide (leAt t (o + 4) 1 ≤ 1))] ++ zerosAt t (o + 5) 3)

/-- CLASS_SET (R231): 0x0206, instance 0. -/
def execClassSet (rq : Rq) (chunk : Chunk) (s : State) : Result :=
  .next <| s.run rq 0x0206 fun s => s.loadTab rq 0x0206 6 1 chunk classBad fun t =>
    (List.range 3).map (fun i => (leAt t (2 * i) 2 : Int)) ++ (List.range 4).flatMap fun c =>
      [(leAt t (16 + 8 * c) 2 : Int), (leAt t (18 + 8 * c) 2 : Int), (leAt t (20 + 8 * c) 1 : Int)]

/-- T_c, c from 1. -/
def RenderSet.threshold (r : RenderSet) (c : Nat) : Nat := r.cls.getD (3 * c) 0

/-- A_c. -/
def RenderSet.minArea (r : RenderSet) (c : Nat) : Nat := r.cls.getD (3 * c + 1) 0

/-- CROP of a class. -/
def RenderSet.cropOn (r : RenderSet) (c : Nat) : Bool := r.cls.getD (3 * c + 2) 0 == 1

/-- The bar of input `k` of a model; none where the input is unused or there is no model. -/
def RenderSet.inputBar (r : RenderSet) (k : Nat) : Option Nat :=
  match r.model[k]? with
  | some b => if b < 16 then some b else none
  | none => none

/-- XS_b of a coverage table. -/
def RenderSet.xs (r : RenderSet) (b : Nat) : Int := ((r.cover.lookup b).getD []).getD 0 0

/-- The coverage of a dose level. -/
def RenderSet.cov (r : RenderSet) (b d : Nat) : Nat := (((r.cover.lookup b).getD []).getD (1 + d) 0).toNat

/-- A blur coefficient; before any load the identity. -/
def RenderSet.blurAt (r : RenderSet) (b i j : Nat) : Nat :=
  match r.blur.lookup b with
  | some k => k.getD (5 * i + j) 0
  | none => if i = 2 ∧ j = 2 then 1024 else 0

/-! Boxes (R224, R225, R228). -/

/-- S_b. -/
def State.barDist (s : State) (b : Nat) : Int := s.fld (Reg.JIG_BAR_DIST_DIST b)

/-- The frame of a bar whose dose from row offset `r` lands in the 16 ticks from `lo` (R225). -/
def State.frameIn (s : State) (b r : Nat) (lo : Int) : Option (Nat × FateRow) :=
  (s.bar b).fates.find? fun e =>
    match e.2.due with
    | some p =>
      let u := p + s.barDist b - 16 * r
      decide (lo ≤ u) && decide (u < lo + 16)
    | none => false

/-- The dose of an entry's nozzle in a frame, as its board was sent it. -/
def State.doseIn (s : State) (b f : Nat) (e : MapEntry) : Nat :=
  match s.validFrame b e.board f with
  | some v => packedDose (v.payload.getD · 0) 0 s.doseBits e.pos
  | none => 0

/-- The coverage of one cell, and whether its printed state is unknown. -/
def State.cell (s : State) (r : RenderSet) (b : Nat) (x lo : Int) : Nat × Bool :=
  if x < 0 then (0, false)
  else match (s.bar b).map[x.toNat]? with
  | none => (0, false)
  | some e =>
    match s.frameIn b e.rowOff lo with
    | none => (0, false)
    | some (f, row) =>
      let code := (tabGet (0, false) row.boards e.board).1
      let lost := s.poisonedAt (s.fateAt b (s.servingCopy b) f) (s.fateBytes b)
      if 1 ≤ code ∧ code ≤ 10 ∧ !lost then (0, false) else (r.cov b (s.doseIn b f e), code == 11 || lost)

/-- box_b of R228, and whether a cell set unsure. -/
def State.boxOf (s : State) (r : RenderSet) (b : Nat) (mm gg : Int) : Nat × Bool :=
  if gg < 0 ∨ (s.fld Reg.JIG_CTRL_WIDTH : Int) ≤ gg then (0, false)
  else
    let bx := s.gridBX
    let by_ := s.gridBY
    let cells := (List.range by_).flatMap fun sy : Nat => (List.range bx).map fun sx : Nat =>
      s.cell r b (bx * gg + sx - r.xs b) (16 * by_ * mm + 16 * sy)
    (((cells.map Prod.fst).sum + bx * by_ / 2) / (bx * by_), cells.any Prod.snd)

/-- a[k] of R228: the blurred boxes of input `k`, and unsure. -/
def State.inkOf (s : State) (r : RenderSet) (k : Nat) (m g dx dy : Int) : Nat × Bool :=
  match r.inputBar k with
  | none => (0, false)
  | some b =>
    let l := (List.range 5).flatMap fun i : Nat => (List.range 5).map fun j : Nat =>
      let v := s.boxOf r b (m + dy + i - 2) (g + dx + j - 2)
      (r.blurAt b i j * v.1, v.2)
    (min (((l.map Prod.fst).sum + 512) / 1024) 4095, l.any Prod.snd)

/-! The colour model (R229). -/

/-- Channel `c` of a node. -/
def RenderSet.node (r : RenderSet) (i : List Nat) (c : Nat) : Nat :=
  r.model.getD (4 + 3 * (((i.getD 0 0 * 17 + i.getD 1 0) * 17 + i.getD 2 0) * 17 + i.getD 3 0) + c) 0

/-- exp_c: quadrilinear interpolation. -/
def RenderSet.interpolate (r : RenderSet) (a : List Nat) (c : Nat) : Nat :=
  let one (e : Nat) : Nat :=
    let w := (List.range 4).foldl (fun w k => w * (if bitAt e k then a.getD k 0 % 256 else 256 - a.getD k 0 % 256)) 1
    let i := (List.range 4).map fun k => a.getD k 0 / 256 + b2n (bitAt e k)
    w * r.node i c
  (((List.range 16).map one).sum + 2 ^ 31) / 2 ^ 32

/-- The expected R, G and B of a grid pixel at given offsets, and UNSURE. -/
def State.expected (s : State) (r : RenderSet) (m g dx dy : Int) : List Nat × Bool :=
  let a := (List.range 4).map fun k => s.inkOf r k m g dx dy
  ((List.range 3).map (r.interpolate (a.map Prod.fst)), a.any Prod.snd)

/-! Differences (R223, R231). -/

/-- Luminance. -/
def luminance (v : List Nat) : Nat := (v.getD 0 0 + 2 * v.getD 1 0 + v.getD 2 0 + 2) / 4

/-- d of R231. -/
def RenderSet.diff (r : RenderSet) (o e : List Nat) : Nat :=
  (((List.range 3).map fun c => r.cls.getD c 0 * ((o.getD c 0 : Int) - (e.getD c 0 : Int)).natAbs).sum + 128) / 256

/-- The class of a difference. -/
def RenderSet.classOf (r : RenderSet) (d : Nat) : Nat :=
  ((List.range 4).filter fun c => decide (r.threshold (c + 1) ≤ d)).foldl (fun a c => max a (c + 1)) 0

end Sys2Proof.Machine
end

