-- ==== Sys2Proof/Machine/Plan.lean ====
section
/-!
DEFINITION. The planned loads and traffic of a configuration (R12, R26, R159, R194, R239, R309, R424) and the fit check
(R47). Quantities are exact rationals.
-/
namespace Sys2Proof.Machine

/-- The sum of a list. -/
def sumRat (l : List Rat) : Rat := l.foldl (· + ·) 0

/-- A configuration is judged at the frugal operating point while PACE_FRUGAL is in force (R47) and when it selects it
(R44). -/
def State.frugal (s : State) : Bool := s.fld Reg.PACE_CTRL_MODE == 2 || s.fld Reg.PACE_STATUS_MODE_ACT == 2

/-! Print side. -/

/-- I_b: the contone of a bar in bytes per second. -/
def State.barBytes (s : State) (b : Nat) : Nat := s.barN b * s.barRate b

/-- I. -/
def State.printBytes (s : State) : Nat := ((List.range 16).map s.barBytes).sum

/-- D_b: the doses of a bar in bytes per second. -/
def State.doseBytes (s : State) (b : Nat) : Rat := (s.barBytes b * s.doseBits : Nat) / 8

/-- Dead nozzles of a bar at the module limit of every module (R159, R249). -/
def State.deadAtLimit (s : State) (b : Nat) : Nat :=
  let map := (s.bar b).map
  let lim := s.fld Reg.NOZ_LIMIT_MOD_LIMIT
  ((List.range 64).map fun j => (map.filter fun e => e.modul == j && !e.masked).length * lim / 1000).sum

/-- The instruction rate of an engine in 10^9 per second (Table 02-2). -/
def engineRate (frugal : Bool) : Rat := if frugal then 62 / 100 else 80 / 100

/-- The PRINT load in engine-equivalents (R159). -/
def State.printLoad (s : State) (frugal : Bool) : Rat :=
  let cost := if s.deep4 then 92 else 80
  let dcost := if s.deep4 then 36 else 24
  let n := ((List.range 16).map fun b => s.barRate b * (s.barN b * cost + s.deadAtLimit b * dcost)).sum
  (n * (if s.flag Reg.DOSE_CTRL_VERIFY then 2 else 1) : Nat) / (64 * engineRate frugal * 1000000000)

/-- Half clusters of an assignment: 0 PRINT, 1 INSPECT. -/
def State.halvesOf (s : State) (a : Nat) : List Nat := (List.range 32).filter fun h => s.half h == a

/-- Engines of the half clusters of an assignment, vacant slots left out (R26, R375). -/
def State.enginesOf (s : State) (a : Nat) : Nat :=
  ((s.halvesOf a).map fun h =>
    8 - ((s.cluster (h / 2)).vacant.filter fun v => decide (v / 8 = h % 2)).length).sum

/-! Inspection side. -/

/-- The greatest r_b. -/
def State.topRate (s : State) : Nat := ((List.range 16).map s.barRate).foldl max 0

/-- A port's maximum inspection line rate (R194). -/
def State.portRate (s : State) (n : Nat) : Rat :=
  let pitch := s.fld (Reg.CAP_TRIG_PITCH n)
  if pitch = 0 then 0
  else if s.freeRun n then (100000000 : Rat) / pitch else (16 * s.topRate * 256 : Nat) / (pitch : Rat)

/-- L_p: what the port delivers. -/
def State.deliverRate (s : State) (n : Nat) : Rat := if s.halfAlong n then s.portRate n / 2 else s.portRate n

/-- The ports that are enabled. -/
def State.onPorts (s : State) : List Nat := (List.range 24).filter s.capOn

/-- The ports that take part in registration. -/
def State.regPorts (s : State) : List Nat := (List.range 24).filter s.registered

/-- Samples per second at a port. -/
def State.sampleRate (s : State) (n : Nat) : Rat := (s.colourRows n * s.capW n : Nat) * s.portRate n

/-- Samples per second of a quadrant's ports. -/
def State.quadSamples (s : State) (q : Nat) : Rat := sumRat ((s.onPorts.filter fun n => n / 6 == q).map s.sampleRate)

/-- COLS_p. -/
def State.portCols (s : State) (n : Nat) : Nat := colsOf (s.cam n).regSet

/-- Output columns per second of a port: COLS_p x G_p (R239). -/
def State.gridPixels (s : State) (n : Nat) : Rat := (s.portCols n : Rat) * s.deliverRate n

/-- The INSPECT load in engine-equivalents (R239). -/
def State.inspectLoad (s : State) (frugal : Bool) : Rat :=
  sumRat (s.regPorts.map s.gridPixels) * 712 / (64 * engineRate frugal * 1000000000)

/-- A load is at most 90 % of an assignment's engines (R26). -/
def State.loadFits (s : State) (load : Rat) (a : Nat) : Bool := decide (load ≤ (9 * s.enginesOf a : Nat) / 10)

/-- K: the planned crop input (R424). -/
def State.cropInput (s : State) : Rat :=
  let cls := (s.renderTab 6 0).data.map Int.toNat
  let r : RenderSet := if cls.isEmpty then {} else { cls := cls }
  let top := s.fld Reg.JIG_CROP_MAX
  if (List.range 4).any fun c => r.cropOn (c + 1) then
    sumRat ((s.regPorts.filter s.capOn).map fun n => if s.capLines n = 0 then 0 else s.deliverRate n / (s.capLines n : Rat) * (top * top * 6 : Nat))
  else 0

/-! Flows (Table 03-13). -/

/-- A flow between a unit and memory: write (request network) or read (response network), its stacks in equal parts,
deterministic or general channels, bytes per second, and its class. -/
structure Flow where
  /-- a write -/
  write : Bool
  /-- the unit whose junction's links it passes -/
  unit : FabricUnit
  /-- stacks it goes to -/
  stackList : List Nat
  /-- deterministic channels -/
  det : Bool
  /-- bytes per second -/
  rate : Rat
  /-- class (R52) -/
  cls : Traffic

/-- The junction that a flow passes. -/
def Flow.junction (f : Flow) : Nat := f.unit.junction

/-- The arbiter input of a flow: the one its junction's slot map gives its class, carried to the end (R52). -/
def State.flowInput (s : State) (f : Flow) : Nat := s.slotInput f.junction f.cls

/-- A flow of the two classes that R62 protects. -/
def Flow.top (f : Flow) : Bool := f.cls == .fire || f.cls == .capture

/-- A flow to or from a general region. -/
def general (write : Bool) (u : FabricUnit) (rate : Rat) (cls : Traffic) : Flow := ⟨write, u, [0, 1, 2, 3], false, rate, cls⟩

/-- An equal share of a rate. -/
def share (r : Rat) (n : Nat) : Rat := if n = 0 then 0 else r / (n : Rat)

/-- Decompressors with ENABLE 1. -/
def State.dcmpOn (s : State) : List Nat := (List.range 16).filter fun d => s.flag (Reg.DCMP_CTRL_ENABLE d)

/-- The flows of ingest and expansion. -/
def State.printFlows (s : State) : List Flow :=
  let total : Rat := s.printBytes
  let dec := s.dcmpOn
  let hp := s.halvesOf 0
  let hi := s.halvesOf 1
  let host := (List.range 4).map fun q => general true (.bridge q) (total / 4) .ingest
  let dcmp := dec.flatMap fun d => [general false (.decompressor d) (share total dec.length) .ingest,
    general true (.decompressor d) (share total dec.length) .ingest]
  let reads := hp.map fun h => general false (.engines (h / 2)) (share total hp.length) .expansion
  let bar (b : Nat) : List Flow :=
    let st := s.pstack b
    let copies := if s.mirrored then [st, (st + 2) % 4] else [st]
    let boards := s.barBoards b
    let used := boards.filter s.hasProf
    let writes := hp.flatMap fun h => copies.map fun c => 
      (⟨true, .engines (h / 2), [c], true, share (s.doseBytes b) hp.length, .expansion⟩ : Flow)
    let fires := used.map fun k =>
      (⟨false, .sequencer (s.prof k 6 1 / 12), [st], true, ((s.paddedPayload k + 16) * s.barRate b : Nat), .fire⟩ : Flow)
    let render := hi.map fun h =>
      (⟨false, .engines (h / 2), [st], true, share (s.doseBytes b + (16 * s.barRate b * boards.length : Nat)) hi.length,
        .analysis⟩ : Flow)
    writes ++ fires ++ render
  host ++ dcmp ++ reads ++ ((List.range 16).filter s.barMapped).flatMap bar

/-- The flows of capture, analysis and crops. -/
def State.eyeFlows (s : State) : List Flow :=
  let hi := s.halvesOf 1
  let cap := s.onPorts.flatMap fun n =>
    let r : Rat := (6 * s.capW n : Nat) * s.deliverRate n
    [general true (.pipeline (s.pipeOf n)) r .capture, general false (.resampler (s.pipeOf n)) r .capture]
  let out := s.regPorts.map fun n => general true (.resampler (s.pipeOf n)) (6 * s.gridPixels n) .capture
  let all := sumRat (s.regPorts.map fun n => 6 * s.gridPixels n)
  let ana := hi.map fun h => general false (.engines (h / 2)) (share all hi.length) .analysis
  let k := s.cropInput / 4
  let crops := (List.range 4).flatMap fun u => [general false (.compressor u) k .background, general true (.compressor u) k .background]
  cap ++ out ++ ana ++ crops

/-- Every flow but scrub. -/
def State.flows (s : State) : List Flow := s.printFlows ++ s.eyeFlows

/-- The crossings from quadrant `a` to `b` (R15): crossing and whether it is taken with increasing q. -/
def hops (a b : Nat) : List (Nat × Bool) :=
  match (b + 4 - a) % 4 with
  | 0 => []
  | 1 => [(a, true)]
  | 2 => [(a, true), ((a + 1) % 4, true)]
  | _ => [((a + 3) % 4, false)]

/-- What flows put on the link of junction `j`: the uplink of the request network (writes) or the downlink of the
response network. -/
def linkLoad (l : List Flow) (write : Bool) (j : Nat) : Rat :=
  sumRat ((l.filter fun f => f.write == write && f.junction == j).map Flow.rate)

/-- What flows put on a direction of crossing `x` in one network. -/
def crossLoad (l : List Flow) (write : Bool) (x : Nat) (up : Bool) : Rat :=
  sumRat ((l.filter fun f => f.write == write).flatMap fun f => f.stackList.map fun st =>
    let path := if write then hops (f.junction / 4) st else hops st (f.junction / 4)
    if path.contains (x, up) then share f.rate f.stackList.length else 0)

/-- What flows put on one channel of a stack. -/
def State.chanLoad (s : State) (l : List Flow) (st : Nat) (det : Bool) : Rat :=
  let sum := sumRat ((l.filter fun f => f.det == det && f.stackList.contains st).map fun f => share f.rate f.stackList.length)
  share sum (if det then s.detD else 16 - s.detD) + share 68719476736 (64 * s.fld Reg.MEM_CTRL_SCRUB_S)

/-- Every junction link is within a bound. -/
def linksWithin (l : List Flow) (bound : Rat) : Bool :=
  (List.range 16).all fun j => decide (linkLoad l true j ≤ bound) && decide (linkLoad l false j ≤ bound)

/-- Every crossing direction is within a bound. -/
def crossWithin (l : List Flow) (bound : Rat) : Bool :=
  (List.range 4).all fun x => [true, false].all fun w => [true, false].all fun up => decide (crossLoad l w x up ≤ bound)

/-! The fit check (R47, Table 02-5). -/

/-- The decompressors carry the planned output at a rate per unit (code 0x05). -/
def State.dcmpFits (s : State) (perUnit : Nat) : Bool := decide (10 * s.printBytes ≤ 9 * perUnit * s.dcmpOn.length)

/-- A compressor's least input rate at SLOW in units of 10 MB/s (Table 05-11). -/
def cmprRate (level : Nat) : Nat := [800, 200, 160, 120, 90, 65, 45, 30, 18, 10].getD level 10

/-- The compressors carry the planned crop input at FRUGAL (code 0x08): the rates scale as level 1's 2.0 to 1.55. -/
def State.cropFits (s : State) : Bool :=
  (List.range 4).all fun u =>
    decide (s.cropInput / 4 ≤ (9 / 10 : Rat) * ((cmprRate (s.fld (Reg.CMPR_CTRL_LEVEL u)) * 10000000 : Nat) : Rat) * (155 / 200))

/-- The first failing resource of Table 02-5 at the FRUGAL point. -/
def State.fitFails (s : State) : Option Nat :=
  let fl := s.flows
  let checks : List (Nat × Bool) := [
    (1, s.loadFits (s.printLoad true) 0), (2, s.loadFits (s.inspectLoad true) 1),
    (3, linksWithin fl 31520000000), (4, crossWithin fl 31520000000), (5, s.dcmpFits 6200000000),
    (6, (List.range 4).all fun q => decide (s.quadSamples q ≤ 7440000000)),
    (7, (List.range 8).all fun r =>
      decide (sumRat ((s.regPorts.filter fun n => s.pipeOf n == r).map s.gridPixels) ≤ 1116000000)),
    (8, s.cropFits),
    (9, (List.range 4).all fun st => [true, false].all fun d => decide (s.chanLoad fl st d ≤ 19200000000))]
  (checks.find? fun c => !c.2).map Prod.fst

/-! Buffers (R309). -/

/-- The largest use in any stack. -/
def State.stackMax (s : State) : Nat := ((List.range 4).map s.stackUnits).foldl max 0

/-- MEM_DET.USED_MAX shown, in MiB. -/
def State.showStackMax (s : State) : State := s.setFld Reg.MEM_DET_USED_MAX (min 65535 (2 * s.stackMax))

/-- The capture buffers of the enabled ports in bytes (R197): six bytes a pixel. -/
def State.captureBytes (s : State) : Nat := (s.onPorts.map fun n => s.capRoom n * s.capW n * 6).sum

/-- R309: D GiB a stack, and 8 GiB of CAPTURE. -/
def State.buffersFit (s : State) : Bool := decide (s.stackMax ≤ 512 * s.detD) && decide (s.captureBytes ≤ 8589934592)

end Sys2Proof.Machine
end

