-- ==== Sys2Proof/Machine/Checker.lean ====
section
/-!
DEFINITION. The configuration checker: the rules it judges (Table 04-17), what each reads, and the first one that a
state breaks (R102, R425). Where several fail, the order of the list decides.
-/
namespace Sys2Proof.Machine

/-- A configuration rule: the registers it reads, whether it reads r_b (R166), and its verdict on a state after the
writes of the given registers: reason and byte 2 where it fails. -/
structure CfgRule where
  /-- registers it reads -/
  reads : Nat → Bool
  /-- it reads r_b -/
  rate : Bool := false
  /-- reason and byte 2 where it fails -/
  judge : List Nat → State → Option (Nat × Nat)

/-- A register of a block whose instances are `stride` apart, at one of the relative offsets. -/
def regIn (block stride : Nat) (offs : List Nat) (a : Nat) : Bool :=
  blockOf a == block && offs.contains (offOf a % stride)

/-- `v` unless the condition holds. -/
def unlessOk (ok : Bool) (v : Nat × Nat) : Option (Nat × Nat) := if ok then none else some v

/-! Camera ports. -/

/-- Registers that the planned lines and samples of a port read. -/
def readsCap (a : Nat) : Bool := regIn 0x18 0x20 [0, 4, 12] a

/-- R194: one EYE_RES, the line rate limits, even LINES, and the output width of FINE_ACROSS. -/
def State.eyeResOk (s : State) (fineCols : Nat) : Bool :=
  let code (n : Nat) := s.fld (Reg.CAP_CTRL_EYE_RES n)
  let on := s.onPorts
  on.all (fun n => on.all fun k => code n == code k) &&
  on.all fun n =>
    match code n with
    | 1 => decide (s.portRate n ≤ 320000) && s.capLines n % 2 == 0
    | 2 => decide (s.portRate n ≤ 160000) && decide (fineCols ≤ 32768)
    | _ => decide (s.portRate n ≤ 160000)

/-- The registered ports in FIRST_COL order by their next sets: port, first column, column after the last. -/
def State.plannedRanges (s : State) : List (Nat × Nat × Nat) :=
  (s.regPorts.map fun n =>
    let p := (s.cam n).regSet
    (n, firstColOf p, firstColOf p + colsOf p)).foldr
      (fun e acc => (acc.takeWhile fun a => decide (a.2.1 < e.2.1)) ++ e :: acc.dropWhile fun a => decide (a.2.1 < e.2.1)) []

/-- Output pixels of the device: the columns that some port owns. -/
def State.outputPixels (s : State) : Nat := ((ownersFrom none s.plannedRanges).map fun o => o.2.2 - o.2.1).sum

/-- R203: on a pipeline under FRAME, the other ports' frames take no longer than a port's own, among the enabled ports
that it serves (R202). -/
def State.frameShareOk (s : State) (p : Nat) : Bool :=
  let time (n : Nat) : Rat := if s.portRate n = 0 then 0 else (s.capLines n : Rat) / s.portRate n
  let ports := (s.pipePorts p).filter s.capOn
  !s.flag (Reg.KAL_CTRL_SHARE p) ||
    ports.all fun n => s.portRate n == 0 || decide (sumRat ((ports.filter (· != n)).map time) ≤ time n)

/-- Neighbouring or separate column ranges (R215). -/
def rangesOk : List (Nat × Nat × Nat) → Bool
  | [] => true
  | a :: t =>
    (match t with
    | [] => true
    | b :: u =>
      (decide (a.2.2 ≤ b.2.1) ||
        (decide (a.2.1 < b.2.1) && decide (a.2.2 < b.2.2) && decide (64 ≤ a.2.2 - b.2.1) &&
          decide (a.2.2 - b.2.1 ≤ 1024))) &&
      u.all fun c => decide (a.2.2 ≤ c.2.1)) && rangesOk t

/-- R215. -/
def State.registrationOk (s : State) : Bool :=
  let w := s.fld Reg.JIG_CTRL_WIDTH
  let fine := (s.onPorts ++ s.regPorts).any fun n => s.fld (Reg.CAP_CTRL_EYE_RES n) == 2
  let spacing (n : Nat) : Nat := s.fld (Reg.CAP_TRIG_PITCH n) * (if s.halfAlong n then 2 else 1)
  s.regPorts.all (fun n =>
    !s.freeRun n && spacing n == 4096 * s.gridBY &&
      (s.modelBars n).all fun b => !(s.renderTab 3 b).data.isEmpty) &&
  s.plannedRanges.all (fun r => decide (r.2.2 ≤ w)) && rangesOk s.plannedRanges &&
  (!fine || (s.gridBX == 1 && decide (w ≤ 32768))) && decide (w ≤ 65536)

/-! Sensors, axes, domains. -/

/-- R267 and R268. -/
def State.ssiOk (s : State) (u : Nat) : Bool :=
  let len := s.ssiLen u
  let crc := s.fld (Reg.SSI_FMT_CRC_LEN u)
  let err := s.fld (Reg.SSI_FMT_ERR_POS u)
  decide (2 * len * (s.fld (Reg.SSI_CTRL_DIV u) + 1) + 250 * s.fld (Reg.SSI_FMT_TIMEOUT u) ≤
    2500 * s.fld (Reg.SSI_FMT_PERIOD u)) &&
  decide (s.fld (Reg.SSI_FMT_DATA_BITS u) + crc ≤ len) &&
  (!s.flag (Reg.SSI_CTRL_ERR_EN u) || decide (len ≤ err) || decide (err + crc < len))

/-- R273, judged on the one speed limit that the configuration holds, HOME_SPD. -/
def State.stepRateOk (s : State) (a : Nat) : Bool :=
  !s.flag (Reg.AX_CTRL_OUT a) ||
    decide (2 * s.fld (Reg.AX_HOME_SPD_HOME_SPD a) * s.fld (Reg.AX_DRIVE_STEP_W a) ≤
      10000000 * 2 ^ s.fld (Reg.AX_CTRL_STEP_SHIFT a))

/-- R287: no PTP port serves both domains. -/
def sourcesOk (a b : Nat) : Bool :=
  let ports (x : Nat) : List Nat := match x with
    | 1 => [1]
    | 2 => [2]
    | 3 => [1, 2]
    | _ => []
  (ports a).all fun p => !(ports b).contains p

/-! The event graph (R300). -/

/-- The producer that a consumer's task may raise (Table 12-2). -/
def mayRaise (k : Nat) : Option Nat :=
  if 32 ≤ k ∧ k ≤ 47 then some 65
  else if 57 ≤ k ∧ k ≤ 72 then some 110
  else if k = 75 then some 54
  else if 77 ≤ k ∧ k ≤ 84 then some 109
  else none

/-- The producers that lie on some path of consumers. -/
def derivedProducers : List Nat := [65, 110, 54, 109]

/-- An edge from producer `p` to producer `q`. -/
def State.evtEdge (s : State) (p q : Nat) : Bool :=
  (List.range 85).any fun k => mayRaise k == some q &&
    match s.selects k with
    | some c => s.matEnabled c p
    | none => false

/-- Producers reached from those given in `n` more edges. -/
def State.evtReach (s : State) : Nat → List Nat → List Nat
  | 0, l => l
  | n + 1, l => s.evtReach n (l ++ derivedProducers.filter fun q => !l.contains q && l.any (s.evtEdge · q))

/-- No cycle in the graph. -/
def State.evtAcyclic (s : State) : Bool :=
  derivedProducers.all fun p =>
    !(s.evtReach 4 (derivedProducers.filter (s.evtEdge p))).contains p

/-! Arbitration (R62). -/

/-- The classes of a junction's slot map by input: LOOP, ANALYSIS, EXPANSION, INGEST, BACKGROUND. -/
def State.slotInputs (s : State) (j : Nat) : List Nat :=
  [s.fld (Reg.ARB_J_SLOT_IN_LOOP j), s.fld (Reg.ARB_J_SLOT_IN_ANALYSIS j), s.fld (Reg.ARB_J_SLOT_IN_EXPANSION j),
   s.fld (Reg.ARB_J_SLOT_IN_INGEST j), s.fld (Reg.ARB_J_SLOT_IN_BACKGROUND j)]

/-- The wait limits of a junction, input 0 first. -/
def State.junctionLimits (s : State) (j : Nat) : List Nat :=
  [s.fld (Reg.ARB_J_LIMLO_LIM0 j), s.fld (Reg.ARB_J_LIMLO_LIM1 j), s.fld (Reg.ARB_J_LIMLO_LIM2 j),
   s.fld (Reg.ARB_J_LIMLO_LIM3 j), s.fld (Reg.ARB_J_LIMHI_LIM4 j), s.fld (Reg.ARB_J_LIMHI_LIM5 j),
   s.fld (Reg.ARB_J_LIMHI_LIM6 j), s.fld (Reg.ARB_J_LIMHI_LIM7 j)]

/-- The FIRE and CAPTURE traffic of the busiest link whose arbiter takes its limits from junction `j`: the junction's
links, and for the last junction of a quadrant the quadrant's crossing. -/
def State.topTraffic (l : List Flow) (j : Nat) : Rat :=
  let own := [linkLoad l true j, linkLoad l false j]
  let cross := if j % 4 = 3 then
      [true, false].flatMap fun w => [true, false].map fun up => crossLoad l w (j / 4) up
    else []
  (own ++ cross).foldl max 0

/-- R62 at junction `j`. DESIGN CHOICE: k_i is the number of movable classes that the slot map puts on input i, and the
crossings of quadrant q are judged with the limits and the slot map of junction 4q + 3. -/
def State.arbiterOk (s : State) (l : List Flow) (j : Nat) : Bool :=
  let cap : Rat := if s.frugal then 39400000000 else 51200000000
  let t := State.topTraffic l j
  let lims := s.junctionLimits j
  let low := (lims.take 7).foldl min 255
  (decide (16 ≤ low) || decide (12 * t ≤ cap)) &&
    (List.range 5).all fun i =>
      let k := ((s.slotInputs j).filter (· == i)).length
      decide (k ≤ 1) || decide (t * ((k * (lims.getD i 0 + 8) : Nat) : Rat) ≤ cap)

/-! Bars. -/

/-- L_R of R226. -/
def State.renderLag (s : State) : Nat :=
  let dly := (s.regPorts.map fun n => dlyOf (s.cam n).regSet).foldl max 0
  s.gridBY * (ceilDiv dly 64 + 32) + 1024

/-- R154. -/
def State.linesOk (s : State) (b : Nat) : Bool :=
  decide (s.fld (Reg.DOSE_BAR_CONC_MAX b) + ceilDiv (s.fld (Reg.JIG_BAR_DIST_DIST b)) 16 + s.renderLag ≤
    s.fld (Reg.DOSE_BAR_BUF_LINES b))

/-- R156. -/
def State.fillOk (s : State) (b : Nat) : Bool :=
  let t := s.fld Reg.PACE_SLACK_CONC_TARGET
  decide (t + t / 4 ≤ s.fld (Reg.DOSE_BAR_CONC_MAX b))

/-- R26 under DUAL: PRINT half clusters in at least two clusters. -/
def State.dualOk (s : State) : Bool :=
  !s.flag Reg.DOSE_CTRL_VERIFY ||
    (s.halvesOf 0).any fun h => (s.halvesOf 0).any fun k => h / 2 != k / 2

/-- Registers that the planned traffic reads. -/
def readsTraffic (a : Nat) : Bool :=
  readsCap a || regIn 0x10 0x20 [8] a && decide (offOf a < 0x200) || a == Reg.DOSE_CTRL || a == Reg.JIG_CROP

/-! The rules. -/

/-- The rules in the order in which they are judged. -/
def cfgRules : List CfgRule := [
  { reads := regIn 0x20 0x20 [0],
    judge := fun _ s => unlessOk (decide (((List.range 8).filter fun e => s.flag (Reg.POS_CTRL_MASTER e)).length ≤ 1)) (2, 0x20) },
  { reads := regIn 0x21 0x10 [0, 4], judge := fun _ s => unlessOk ((List.range 8).all s.ssiOk) (2, 0x21) },
  { reads := regIn 0x22 0x30 [0, 0x14, 0x20], judge := fun _ s => unlessOk ((List.range 16).all s.stepRateOk) (2, 0x22) },
  { reads := fun a => regIn 0x28 0x40 [0] a && decide (offOf a < 0x80),
    judge := fun _ s => unlessOk (sourcesOk (s.fld (Reg.TD_CTRL_SRC 0)) (s.fld (Reg.TD_CTRL_SRC 1))) (2, 0x28) },
  { reads := fun a => blockOf a == 0x29 && decide (offOf a < 0x480), judge := fun _ s => unlessOk s.evtAcyclic (2, 0x29) },
  { reads := readsCap, rate := true, judge := fun _ s => unlessOk (s.eyeResOk s.outputPixels) (2, 0x18) },
  { reads := readsCap, rate := true,
    judge := fun _ s => unlessOk (s.onPorts.all fun n => decide (s.sampleRate n ≤ 1600000000)) (1, 0x18) },
  { reads := readsCap, rate := true,
    judge := fun _ s => unlessOk ((List.range 4).all fun q => decide (s.quadSamples q ≤ 9600000000)) (1, 0x06) },
  { reads := fun a => readsCap a || regIn 0x19 0x20 [0] a, rate := true,
    judge := fun _ s => unlessOk ((List.range 8).all s.frameShareOk) (2, 0x19) },
  { reads := fun a => regIn 0x18 0x20 [0, 12] a || blockOf a == 0x1B, judge := fun _ s => unlessOk s.registrationOk (2, 0x1B) },
  { reads := fun a => a == Reg.PACE_SLACK || a == Reg.YOYO_FLOOR || regIn 0x10 0x20 [8] a && decide (offOf a < 0x200),
    judge := fun _ s => unlessOk (s.usedBars.isEmpty ||
      decide (s.fld Reg.YOYO_FLOOR_FLOOR < s.fld Reg.PACE_SLACK_CONC_TARGET)) (2, 0x01) },
  { reads := fun a => a == Reg.PACE_SLACK || regIn 0x10 0x20 [8, 12] a && decide (offOf a < 0x200),
    judge := fun _ s => unlessOk ((List.range 16).all s.fillOk) (2, 0x10) },
  { reads := fun a => regIn 0x10 0x20 [8, 12] a && decide (offOf a < 0x200) || blockOf a == 0x1B && decide (offOf a ≤ 0x40),
    rate := true, judge := fun _ s => unlessOk (s.usedBars.all s.linesOk) (2, 0x10) },
  { reads := fun a => a == Reg.DOSE_CTRL, rate := true, judge := fun _ s => unlessOk s.nozzlesFit (2, 0x10) },
  { reads := fun a => a == Reg.DOSE_CTRL || a == Reg.NOZ_LIMIT, rate := true,
    judge := fun _ s => unlessOk (s.loadFits (s.printLoad s.frugal) 0) (1, 0x01) },
  { reads := regIn 0x18 0x20 [0, 12], rate := true,
    judge := fun _ s => unlessOk (s.loadFits (s.inspectLoad s.frugal) 1) (1, 0x02) },
  { reads := fun a => a == Reg.DOSE_CTRL, judge := fun _ s => unlessOk s.dualOk (2, 0x10) },
  { reads := fun a => a == Reg.MEM_DET || readsTraffic a, rate := true, judge := fun _ s => unlessOk s.buffersFit (2, 0x30) },
  { reads := fun a => readsTraffic a || blockOf a == 0x02 && decide (offOf a < 0x100) || a == Reg.PACE_CTRL, rate := true,
    judge := fun _ s =>
      let l := s.flows.filter Flow.top
      unlessOk ((List.range 16).all (s.arbiterOk l)) (2, 0x02) },
  { reads := regIn 0x09 0x10 [0],
    judge := fun ws s => unlessOk ((List.range 16).all fun d =>
      !ws.contains (Reg.DCMP_CTRL d) || s.flag (Reg.DCMP_CTRL_ENABLE d) || s.dcmpFits 8000000000) (1, 0x05) },
  { reads := fun a => readsTraffic a || [Reg.PACE_CTRL, Reg.NOZ_LIMIT, Reg.MEM_DET, Reg.MEM_CTRL].contains a ||
      regIn 0x09 0x10 [0] a || regIn 0x0A 0x10 [0] a, rate := true,
    judge := fun _ s => if s.frugal then s.fitFails.map fun c => (1, c) else none }]

/-- The first rule among those chosen that fails after the writes of `ws`. -/
def firstBroken (pick : CfgRule → Bool) (ws : List Nat) (s : State) : Option (CfgRule × Nat × Nat) :=
  (cfgRules.filter pick).findSome? fun r => (r.judge ws s).map fun v => (r, v.1, v.2)

/-- The rules that read a written register (R102). -/
def readsAny (ws : List Nat) (r : CfgRule) : Bool := ws.any r.reads

/-- The first broken rule among those that read r_b, for a map or a profile (R137, R166). -/
def State.rateBroken (s : State) : Option (Nat × Nat) := (firstBroken CfgRule.rate [] s).map Prod.snd

end Sys2Proof.Machine
end

