-- ==== Sys2Proof/Machine/Lane.lean ====
section
/-!
DEFINITION. The Heruf lanes (chapter 14, R329 to R342): lane states, training, the change between a working rate and
TRICKLE, and the takeover of a lane by its group's spare transceiver.
-/
namespace Sys2Proof.Machine

/-- OFF. -/
def lnOff : Nat := 0
/-- DORMANT. -/
def lnDormant : Nat := 1
/-- TRICKLE. -/
def lnTrickle : Nat := 2
/-- ACTIVE. -/
def lnActive : Nat := 3

/-- A group. -/
def State.laneGrp (s : State) (g : Nat) : LaneGroup := tabGet {} s.lanes.groups g

/-- A group replaced. -/
def State.setLaneGrp (s : State) (g : Nat) (x : LaneGroup) : State :=
  { s with lanes := { s.lanes with groups := tabPut {} s.lanes.groups g x } }

/-- A lane's state. -/
def State.laneSt (s : State) (l : Nat) : Nat := s.fld (Reg.LANE_STATUS_STATE l)

/-- A lane is UP. -/
def State.laneUp (s : State) (l : Nat) : Bool := s.flag (Reg.LANE_STATUS_UP l)

/-- The lane belongs to the chain by the width straps (R356): 80 to 79 + n west, 88 to 87 + n east. -/
def State.strapped (s : State) (l : Nat) : Bool :=
  (decide (80 ≤ l) && decide (l < 80 + s.chainWidth)) || (decide (88 ≤ l) && decide (l < 88 + s.chainWidth))

/-- The standby lane of a lane's group (R329). -/
def State.standbyLane (s : State) (g : Nat) : Nat := 8 * g + s.fld (Reg.LANE_GRP_CTRL_SPARE_LANE g)

/-- A takeover of a lane that has not yet switched is abandoned (R340). -/
def State.laneAbandon (s : State) (l : Nat) : State :=
  let g := l / 8
  let x := s.laneGrp g
  if x.phase = 1 ∧ s.fld (Reg.LANE_GRP_STATUS_LANE g) = l % 8 then
    ((s.setLaneGrp g { x with phase := 0, adapted := none }).setFld (Reg.LANE_GRP_STATUS_BUSY g) 0).setFld
      (Reg.LANE_GRP_STATUS_LAST_RESULT g) 3
  else s

/-- A lane loses LOCK and UP (R335): the loss counts, its takeover is abandoned, its board trains anew. -/
def State.laneLose (s : State) (l : Nat) : State :=
  let s := if s.laneUp l then (s.setFld (Reg.LANE_STATUS_UP l) 0).bump (Reg.LANE_STATUS_LOSSES l) else s
  let s := (s.setFld (Reg.LANE_STATUS_LOCK l) 0).setLane l
    { s.lane l with req := none, retry := none, window := [], inPkt := false, alignAt := none }
  (s.laneAbandon l).laneLeft l

/-- OFF at once. The scramblers keep their state (R331). -/
def State.laneOff (s : State) (l : Nat) : State :=
  let s := (s.laneLose l).setFld (Reg.LANE_STATUS_STATE l) lnOff
  (s.setFld (Reg.LANE_STATUS_RATE_FAIL l) 0).setLane l { txScr := (s.lane l).txScr, rxScr := (s.lane l).rxScr }

/-- A RATE_REQ leaves (R338). -/
def State.laneAsk (s : State) (l code : Nat) : State :=
  (s.setLane l { s.lane l with req := some code, retry := none }).linkSend l 3 code

/-- The lane sends SLEEP and goes DORMANT; the equaliser setting is kept. -/
def State.laneSleep (s : State) (l : Nat) : State :=
  let s := ((s.linkSend l 5 0).laneLose l).setFld (Reg.LANE_STATUS_STATE l) lnDormant
  s.setLane l { s.lane l with kept := true }

/-- The lane trains toward ACTIVE, in full or from DORMANT with its EQ. -/
def State.laneTrain (s : State) (l : Nat) (kept : Bool) : State :=
  (s.setFld (Reg.LANE_STATUS_STATE l) lnActive).setLane l { s.lane l with kept := kept }

/-- Table 14-3 for the state that TARGET names. -/
def State.laneToward (s : State) (l : Nat) : State :=
  let t := s.fld (Reg.LANE_CFG_TARGET l)
  let st := s.laneSt l
  if t = lnOff then (if st = lnOff then s else s.laneOff l)
  else if t = lnDormant then (if st = lnActive ∨ st = lnTrickle then s.laneSleep l else s)
  else if st = lnOff then s.laneTrain l false
  else if t = lnActive ∧ st = lnDormant then s.laneTrain l true
  else if t = lnActive ∧ st = lnTrickle then s.laneAsk l (s.fld (Reg.LANE_CFG_RATE l))
  else if t = lnTrickle ∧ st = lnActive ∧ s.laneUp l then s.laneAsk l 0
  else s.setLane l { s.lane l with req := none, retry := none }

/-- TARGET written (R337, R340). -/
def State.laneTarget (s : State) (l t : Nat) : State :=
  ((s.laneAbandon l).setFld (Reg.LANE_CFG_TARGET l) t).laneToward l

/-- ROLE set (Table 14-3): a lane whose ROLE becomes 0 goes OFF; DEDUCED: one that gains a ROLE goes where its TARGET
points. -/
def State.laneRole (s : State) (l r : Nat) : State :=
  let was := s.fld (Reg.LANE_CFG_ROLE l)
  let s := s.setFld (Reg.LANE_CFG_ROLE l) r
  if r = 0 then (if was = 0 then s else s.laneOff l)
  else if was = 0 then s.laneToward l
  else s

/-- LANE_TARGET_WRITE (R337): a strapped lane's TARGET is not written (R356). -/
def execLaneTargetWrite (lane target : Nat) (s : State) : Result :=
  .next <|
    if decide (lane < 96) && decide (target < 4) && s.writable && !s.strapped lane then
      s.orLater (Reg.LANE_CFG_TARGET lane) target fun s => s.laneTarget lane target
    else s

/-- The first of the highest of a list, with its place. -/
def bestOf (l : List Nat) : Nat × Nat :=
  l.zipIdx.foldl (fun b p => if b.2 < p.1 then (p.2, p.1) else b) (0, l.headD 0)

/-- A carrying lane's FOM is refreshed (R336); how long it has been below FOM_MIN goes on counting (R339). -/
def State.showFom (s : State) (l fom : Nat) : State :=
  let low := s.fld (Reg.LANE_GRP_CTRL_FOM_MIN (l / 8))
  let s1 := s.setFld (Reg.LANE_STATUS_FOM l) fom
  if fom < low ∧ s.fld (Reg.LANE_STATUS_FOM l) < low then s1 else s1.setLane l { s.lane l with fomTick := s.now }

/-- EQ_ADAPT (R336): FOM at each of the 16 settings; the highest is kept, a tie going to the lower setting. It runs on
the attached spare, on a lane in training, and on one from DORMANT only when its FOM is below FOM_MIN (R337). A
transceiver that carries its lane keeps its setting, at which FOM is refreshed. -/
def execEqAdapt (lane : Nat) (foms : List Nat) (s : State) : Result :=
  .next <|
    let g := lane / 8
    let x := s.laneGrp g
    let l := (foms.take 16).map (min 255)
    let b := bestOf l
    if 96 ≤ lane then s
    else if x.phase = 1 ∧ s.fld (Reg.LANE_GRP_STATUS_LANE g) = lane % 8 then
      s.setLaneGrp g { x with adapted := some b }
    else if s.laneSt lane = lnActive ∧ !s.laneUp lane ∧
        (!(s.lane lane).kept ∨ s.fld (Reg.LANE_STATUS_FOM lane) < s.fld (Reg.LANE_GRP_CTRL_FOM_MIN g)) then
      ((s.setFld (Reg.LANE_STATUS_EQ lane) b.1).setFld (Reg.LANE_STATUS_FOM lane) b.2).setLane lane
        { s.lane lane with fomTick := s.now }
    else if s.laneUp lane then s.showFom lane (l.getD (s.fld (Reg.LANE_STATUS_EQ lane)) 0)
    else s

/-- LANE_LOCK (R331, R334, R335): the bits that a lane receives while its aligner hunts. When it declares LOCK, the
lane sends READY. -/
def execLaneLock (lane : Nat) (bits : List Bool) (s : State) : Result :=
  .next <|
    if decide (lane < 96) && decide (lnTrickle ≤ s.laneSt lane) && !s.flag (Reg.LANE_STATUS_LOCK lane) then
      let x := s.lane lane
      match huntLock (bits.length + 1) 0 x.rxScr (bits.map (s.flag (Reg.LANE_CFG_RX_INV lane) != ·)) with
      | none => s
      | some st =>
        (State.setFld (s.setLane lane { x with rxScr := st, window := [], inPkt := false })
          (Reg.LANE_STATUS_LOCK lane) 1).linkSend lane 1 0
    else s

/-- A locked receiver takes a word (R331 to R334): the lane after it, and whether it is an invalid header or a block
error. DEDUCED: a START inside a packet discards that packet and begins its own. -/
def Lane.takeWord (x : Lane) (w : BitVec 66) : Lane × Bool :=
  let r := wordPayload x.rxScr w
  let ok := headerValid w
  let x := { x with rxScr := r.2, window := ((!ok) :: x.window).take 64 }
  if !ok then ({ x with inPkt := false }, true)
  else if w.getLsbD 0 then (x, !x.inPkt)
  else match readControl r.1 with
    | none => (x, true)
    | some (.start _) => ({ x with inPkt := true }, x.inPkt)
    | some (.term _) => ({ x with inPkt := false }, false)
    | some _ => (x, false)

/-- Invalid headers among the last 64. -/
def Lane.invalid (x : Lane) : Nat := (x.window.filter id).length

/-- Words that a locked lane receives, until 16 invalid headers among 64 clear LOCK: the lane, the errors, and whether
LOCK was lost. -/
def Lane.takeWords : Lane → List (BitVec 66) → Lane × Nat × Bool
  | x, [] => (x, 0, false)
  | x, w :: ws =>
    let r := x.takeWord w
    if 16 ≤ r.1.invalid then (r.1, b2n r.2, true)
    else
      let t := r.1.takeWords ws
      (t.1, t.2.1 + b2n r.2, t.2.2)

/-- LANE_LOCK_LOSS (R332 to R335): words that a locked lane receives. Errors count in HDR_ERR; 16 invalid headers in a
window of 64 blocks clear LOCK. -/
def execLaneLockLoss (lane : Nat) (words : List (BitVec 66)) (s : State) : Result :=
  .next <|
    if decide (lane < 96) && s.flag (Reg.LANE_STATUS_LOCK lane) then
      let r := (s.lane lane).takeWords (words.map (laneWire (s.flag (Reg.LANE_CFG_RX_INV lane))))
      let s := (s.setLane lane r.1).bump (Reg.LANE_STATUS_HDR_ERR lane) r.2.1
      if r.2.2 then
        let s := if s.laneUp lane && s.flag (Reg.LANE_CFG_ROLE lane) then s.log1 0x21 0x38 lane else s
        s.laneLose lane
      else s
    else s

/-- A control block's payload, descrambled, reaches a lane that has LOCK: a block that Table 14-2 does not admit counts
and is otherwise ignored (R332); a LINK block acts. -/
def State.onLink (s : State) (lane : Nat) (blk : List Byte) (act : Nat → Nat → State) : State :=
  if !(decide (lane < 96) && s.flag (Reg.LANE_STATUS_LOCK lane)) then s
  else match readControl blk with
    | none => s.bump (Reg.LANE_STATUS_HDR_ERR lane)
    | some (.link kind arg) => act kind arg
    | some _ => s

/-- LINK_READY (R335): a locked lane that receives READY is UP. -/
def execLinkReady (lane : Nat) (blk : List Byte) (s : State) : Result :=
  .next <| s.onLink lane blk fun kind _ =>
    if kind = 1 ∧ !s.laneUp lane then
      let s := (s.setFld (Reg.LANE_STATUS_UP lane) 1).setLane lane { s.lane lane with kept := false }
      let s := s.laneCame
      if s.fld (Reg.LANE_CFG_TARGET lane) = lnTrickle ∧ s.laneSt lane = lnActive then s.laneAsk lane 0 else s
    else s

/-- Both ends switch rate after 64 IDLE blocks at the old one (R338): UP is kept. -/
def State.laneSwitch (s : State) (l code : Nat) : State :=
  let s := s.idleSend l
  let s := (s.setLane l { s.lane l with req := none, retry := none }).setFld (Reg.LANE_STATUS_RATE_FAIL l) 0
  if code = 0 then (s.setFld (Reg.LANE_STATUS_STATE l) lnTrickle).laneLeft l
  else (s.setFld (Reg.LANE_STATUS_STATE l) lnActive).laneCame

/-- Of two RATE_REQs that cross, the one from the end with the lower lane number at the device side stands (R338): on a
chain link that is the end of the west lanes, on a head lane the device. -/
def State.ownStands (s : State) (l : Nat) : Bool := s.fld (Reg.LANE_CFG_ROLE l) != 2

/-- LINK_RATE_REQ (R338): answered RATE_ACK, and the lane switches. A request on a strapped lane sets the working rate
that the partner names (R364). -/
def execLinkRateReq (lane : Nat) (blk : List Byte) (s : State) : Result :=
  .next <| s.onLink lane blk fun kind code =>
    let strap := s.strapped lane
    if !(kind == 3 && s.laneUp lane && decide (code < 6)
        && (decide (code = 0) || strap || s.fld (Reg.LANE_CFG_RATE lane) == code)) then s
    else if (s.lane lane).req.isSome && s.ownStands lane then s
    else
      let s := if strap && decide (code ≠ 0) then s.setFld (Reg.LANE_CFG_RATE lane) code else s
      (s.linkSend lane 4 code).laneSwitch lane code

/-- LINK_RATE_ACK (R338). -/
def execLinkRateAck (lane : Nat) (blk : List Byte) (s : State) : Result :=
  .next <| s.onLink lane blk fun kind code =>
    if kind == 4 && (s.lane lane).req == some code then s.laneSwitch lane code else s

/-- RATE_REQ_TIMEOUT (R338): the lane stays at its old rate, shows RATE_FAIL, and asks again 100 ms later. -/
def execRateReqTimeout (lane : Nat) (s : State) : Result :=
  .next <|
    match (s.lane lane).req with
    | some code =>
      if lane < 96 then
        (s.setFld (Reg.LANE_STATUS_RATE_FAIL lane) 1).setLane lane
          { s.lane lane with req := none, retry := some (s.now + ticksOfMs 100, code) }
      else s
    | none => s

/-- The RATE_REQs that are due again at a tick (R338). -/
def State.lanesTick (s : State) : State :=
  s.lanes.lanes.foldl (fun s e =>
    match e.2.retry with
    | some (t, code) => if t ≤ s.now then s.laneAsk e.1 code else s
    | none => s) s

/-- LINK_ALIGN (R342): an ALIGN block of a chain lane, in block `pos` of the lane's round; the receiver deskews by
them. -/
def execLinkAlign (lane : Nat) (blk : List Byte) (pos : Nat) (s : State) : Result :=
  .next <| s.onLink lane blk fun kind _ =>
    if kind = 2 ∧ 2 ≤ s.fld (Reg.LANE_CFG_ROLE lane) then s.setLane lane { s.lane lane with alignAt := some pos } else s

/-- The blocks by which the receiver delays a lane of a chain link, up to 32: what it is ahead of the link's latest lane
(R342). -/
def State.deskew (s : State) (west : Bool) (l : Nat) : Option Nat :=
  let late := ((s.linkLanes west).filterMap fun k => (s.lane k).alignAt).foldl max 0
  match (s.lane l).alignAt with
  | some a => if late - a ≤ 32 then some (late - a) else none
  | none => none

/-! Takeovers (R339, R340). -/

/-- A lane that a takeover can serve: ACTIVE and UP. -/
def State.servable (s : State) (l : Nat) : Bool := s.laneUp l && decide (s.laneSt l = lnActive)

/-- FOM has stayed below FOM_MIN for 1 s. -/
def State.degraded (s : State) (l : Nat) : Bool :=
  decide (s.fld (Reg.LANE_STATUS_FOM l) < s.fld (Reg.LANE_GRP_CTRL_FOM_MIN (l / 8))) &&
    decide ((s.lane l).fomTick + ticksOfMs 1000 ≤ s.now)

/-- The lane of a group that is served next: a degraded one first, else in ascending order after the last. -/
def State.nextServed (s : State) (g : Nat) : Option Nat :=
  let from_ := match (s.laneGrp g).served with | some l => l + 1 | none => 0
  let order := (List.range 8).map fun i => 8 * g + (from_ + i) % 8
  (order.find? fun l => s.servable l && s.degraded l).orElse fun _ => order.find? s.servable

/-- RECAL_S seconds have passed since the group's last takeover started (R339). -/
def State.recalDue (s : State) (g : Nat) : Bool :=
  let t := (s.laneGrp g).started
  t == 0 || decide (t + s.fld (Reg.LANE_GRP_CTRL_RECAL_S g) * 250000000 ≤ s.now + 1)

/-- TAKEOVER_START (R339). -/
def execTakeoverStart (group : Nat) (s : State) : Result :=
  .next <|
    if !(decide (group < 12) && s.flag (Reg.LANE_GRP_CTRL_RECAL_EN group) && s.flag (Reg.LANE_GRP_STATUS_SPARE_OK group)
        && !s.flag (Reg.LANE_GRP_STATUS_BUSY group) && s.recalDue group) then s
    else match s.nextServed group with
      | none => s
      | some l =>
        let s := if s.degraded l then s.log1 0x0B 0x38 l else s
        let s := s.setLaneGrp group { s.laneGrp group with phase := 1, adapted := none, served := some (l % 8), started := s.now + 1 }
        (s.setFld (Reg.LANE_GRP_STATUS_BUSY group) 1).setFld (Reg.LANE_GRP_STATUS_LANE group) (l % 8)

/-- A takeover is abandoned on its serving transceiver: lock or comparison failed. -/
def State.takeoverFail (s : State) (g : Nat) : State :=
  let s := s.setLaneGrp g { s.laneGrp g with phase := 0, adapted := none }
  let s := (s.setFld (Reg.LANE_GRP_STATUS_BUSY g) 0).setFld (Reg.LANE_GRP_STATUS_LAST_RESULT g) 2
  s.bump (Reg.LANE_GRP_STATUS_FAILS g)

/-- TAKEOVER_SWITCH (R339): the comparison of 65,536 blocks has ended; the lane moves to the adapted spare. -/
def execTakeoverSwitch (group : Nat) (comparePass : Bool) (s : State) : Result :=
  .next <|
    let x := s.laneGrp group
    match x.adapted with
    | none => s
    | some (eq, fom) =>
      if ¬(group < 12 ∧ x.phase = 1) then s
      else if !comparePass then s.takeoverFail group
      else
        let l := 8 * group + s.fld (Reg.LANE_GRP_STATUS_LANE group)
        let old := s.fld (Reg.LANE_STATUS_XCVR l)
        let s := s.setFld (Reg.LANE_STATUS_XCVR l) (s.fld (Reg.LANE_GRP_STATUS_SPARE_XCVR group))
        let s := (s.setFld (Reg.LANE_STATUS_EQ l) eq).setFld (Reg.LANE_STATUS_FOM l) fom
        let s := s.setLane l { s.lane l with fomTick := s.now }
        let s := s.setLaneGrp group { x with phase := 2, old := old, adapted := none }
        let s := (s.setFld (Reg.LANE_GRP_STATUS_LAST_RESULT group) 1).bump (Reg.LANE_GRP_STATUS_SWITCHES group)
        s.raiseIf (s.flag (Reg.LANE_GRP_CTRL_EV_EN group)) 114

/-- TAKEOVER_TIMEOUT (R340): the spare has not gained LOCK within 100 ms. -/
def execTakeoverTimeout (group : Nat) (s : State) : Result :=
  .next <| if group < 12 ∧ (s.laneGrp group).phase = 1 then s.takeoverFail group else s

/-- TAKEOVER_RECAL_DONE (R339, R340): the relieved transceiver becomes the spare, or is marked faulty. -/
def execTakeoverRecalDone (group : Nat) (ok : Bool) (s : State) : Result :=
  .next <|
    let x := s.laneGrp group
    if ¬(group < 12 ∧ x.phase = 2) then s
    else
      let s := (s.setLaneGrp group { x with phase := 0 }).setFld (Reg.LANE_GRP_STATUS_BUSY group) 0
      let s := s.setFld (Reg.LANE_GRP_STATUS_SPARE_XCVR group) x.old
      if ok then s
      else ((s.setFld (Reg.LANE_GRP_STATUS_SPARE_OK group) 0).log1 0x40 0x38 group 0 [x.old]).raiseIf
        (s.flag (Reg.LANE_GRP_CTRL_EV_EN group)) 114

/-! Entry to DEEP and wake (Table 14-3, R399). -/

/-- DEEP: chain lanes go TRICKLE, head lanes DORMANT, takeovers end. -/
def State.lanesDeep (s : State) : State :=
  (List.range 96).foldl (fun s l =>
    let s := s.laneAbandon l
    let r := s.fld (Reg.LANE_CFG_ROLE l)
    let st := s.laneSt l
    if r = 1 ∧ (st = lnActive ∨ st = lnTrickle) then s.laneSleep l
    else if 2 ≤ r ∧ st = lnActive ∧ s.laneUp l then s.laneAsk l 0
    else s) s

/-- Wake from DEEP: lanes return to the state that TARGET names. -/
def State.lanesWake (s : State) : State :=
  (List.range 96).foldl (fun s l =>
    let t := s.fld (Reg.LANE_CFG_TARGET l)
    let st := s.laneSt l
    if s.fld (Reg.LANE_CFG_ROLE l) = 1 ∧ st = lnDormant ∧ lnTrickle ≤ t then s.laneTrain l true
    else if st = lnTrickle ∧ t = lnActive then s.laneAsk l (s.fld (Reg.LANE_CFG_RATE l))
    else s) s

end Sys2Proof.Machine
end

