-- ==== Sys2Proof/Machine/Gate.lean ====
section
/-!
DEFINITION. Drop-gate tests (R185 to R187).
-/
namespace Sys2Proof.Machine

/-- A finding joins the queue (R243). -/
def State.pushFinding (s : State) (f : Finding) : State :=
  State.setFld { s with noz := { s.noz with queue := s.noz.queue ++ [f] } } Reg.NOZ_STATUS_BUSY 1

/-- The frame positions of a test, ascending: the board's mapped nozzles that are not MASKED. -/
def State.gateTodo (s : State) (board first count : Nat) : List Nat :=
  match s.boardBar board with
  | some b => (List.range count).filterMap fun i =>
      if (s.bar b).map.any fun e => e.board == board && e.pos == first + i && !e.masked then some (first + i) else none
  | none => []

/-- The reply's counts (Table 04-7). -/
def GateTest.reply (g : GateTest) : List Byte :=
  leBytes 2 g.tested ++ leBytes 2 g.absent ++ leBytes 2 g.late ++ leBytes 2 g.weak

/-- The test ends once no nozzle is left. -/
def State.gateEnd (s : State) : State :=
  match s.fire.test with
  | some g =>
    if g.todo.isEmpty then
      let s := State.setFld { s with fire := { s.fire with test := none } } Reg.GATE_STATUS_BUSY 0
      (s.finishSlot g.sess g.tag scDone g.reply).vacate g.sess g.tag
    else s
  | none => s

/-- GATE_TEST (R185): 0x0130; the PRINT domain is occupied until the test completes (R19). -/
def execGateTest (rq : Rq) (gate board first count : Nat) (s : State) : Result :=
  .next <| s.run rq 0x0130 fun s =>
    s.withParams rq 0x0130
      [(16, decide (gate < 16)), (17, decide (board < 48)), (18, decide (first + count ≤ s.boardNozzles board))] fun s =>
      if s.bst board ≠ bsRun ∨ s.flag Reg.GATE_STATUS_BUSY then s.finish rq 0x0130 scResourceBusy
      else
        let s := (s.pend rq 0x0130).occupy rq .print
        let g : GateTest :=
          { sess := rq.sess, tag := rq.tag, gate := gate, board := board, todo := s.gateTodo board first count }
        let s := { s with fire := { s.fire with test := some g } }
        let s := (s.setFld Reg.GATE_STATUS_BUSY 1).setFld Reg.GATE_STATUS_GATE gate
        ((s.setFld Reg.GATE_STATUS_BOARD board).setFld Reg.GATE_STATUS_DONE 0).gateEnd

/-! The front end (R186). Samples come at 20 MS/s from the strobe on. -/

/-- A pulse: its first sample and its peak. -/
structure Pulse where
  at_ : Nat
  peak : Int
  deriving DecidableEq, Repr

/-- The runs of samples at or above a threshold, in order; `cur` is the run in progress. -/
def pulsesFrom (th : Int) : List Int → Nat → Option Pulse → List Pulse
  | [], _, cur => cur.toList
  | v :: vs, i, cur =>
    if th ≤ v then
      pulsesFrom th vs (i + 1) (some (match cur with | some p => { p with peak := max p.peak v } | none => ⟨i, v⟩))
    else cur.toList ++ pulsesFrom th vs (i + 1) none

/-- The signal: each sample less the mean of the 16 baseline samples, in the polarity set. -/
def State.gateSignal (s : State) (baseline samples : List Nat) : List Int :=
  let b : Int := ((baseline.take 16).sum / 16 : Nat)
  samples.map fun (v : Nat) => if s.flag Reg.GATE_CFG_POLARITY then (v : Int) - b else b - (v : Int)

/-- The class of a nozzle (0 PRESENT, 1 ABSENT, 2 LATE, 3 WEAK) and the pulse behind it. -/
def State.gateClass (s : State) (baseline samples : List Nat) : Nat × Option Pulse :=
  let t := 100 * s.fld Reg.GATE_TIME_FLIGHT
  let w := 100 * s.fld Reg.GATE_TIME_WINDOW
  let l := pulsesFrom (4 * s.fld Reg.GATE_CFG_THRESH) (s.gateSignal baseline samples) 0 none
  let inWin (p : Pulse) : Bool := decide (t ≤ 50 * p.at_ + w) && decide (50 * p.at_ ≤ t + w)
  let strong (p : Pulse) : Bool := decide ((s.fld Reg.GATE_CFG_AMP_FLOOR : Int) ≤ p.peak)
  match l.find? fun p => inWin p && strong p with
  | some p => (0, some p)
  | none =>
    match l.find? inWin with
    | some p => (3, some p)
    | none =>
      match l.find? fun p => decide (t + w < 50 * p.at_) && decide (50 * p.at_ ≤ t + 5 * w) with
      | some p => (2, some p)
      | none => (1, none)

/-- The record of a nozzle that is not PRESENT (R187). -/
def State.gateRecord (s : State) (g : GateTest) (cls b x pos : Nat) (p : Option Pulse) : State :=
  let t := s.devTime
  s.addRecord 1 fun _ => pad64 (bytesOf [0x21, cls, g.gate, g.board] ++ leBytes 4 (s.nozzleBase b + x) ++ leBytes 2 pos ++
    leBytes 2 (match p with | some p => p.peak.toNat | none => 0) ++
    leBytes 4 (match p with | some p => 50 * p.at_ | none => 0xFFFFFFFF) ++ leBytes 6 t.sec ++ leBytes 4 t.ns)

/-- The doses of a shot: the top level at one position (R185). -/
def State.gateDoses (s : State) (board pos : Nat) : List Nat :=
  (List.range (s.boardNozzles board)).map fun i => if i = pos then s.topDose else 0

/-- How often each dose level occurs in a list of doses. -/
def State.levelCounts (s : State) (l : List Nat) : List Nat := (List.range (s.topDose + 1)).map fun d => l.count d

/-- The assembly count check of R149: the levels of the packed payload counted again from its bytes. -/
def State.countsAgree (s : State) (l : List Nat) (p : List Byte) : Bool :=
  s.levelCounts ((List.range l.length).map (packedDose (p.getD · 0) 0 s.doseBits)) == s.levelCounts l

/-- A shot's LINE and SCHEDULE, and its strobe (R185): under the checks of R149, of which one without a passing result
leaves a safe SCHEDULE and no LINE (R174). A fire line that is held idle has no strobe. -/
def State.gateFire (s : State) (board b pos : Nat) (check : CheckRun) : State :=
  let d := s.draw
  let s := d.2.checked b check
  let l := s.gateDoses board pos
  let p := packDoses s.doseBits l
  let f := Config.gateFrame d.1
  let q := Config.gateDue d.1
  let fails := (match check with | .blank .. => true | _ => false) || !s.countsAgree l p
  let s := if fails then s.sendSchedule board 9 f 1 q.1 q.2
    else ((s.sendLine board 8 f (crc32 p) p).setCredits board
      (s.fld (Reg.FIRE_B_STATUS_CREDITS board) - 1)).sendSchedule board 8 f 1 q.1 q.2
  if s.lineHeld board then s else (s.setBoard board { s.board board with high := true }).emit (.fireLine board true)

/-- GATE_SHOT (R185 to R187): one nozzle is fired and classified; a shot needs a credit (R169). -/
def execGateShot (gate : Nat) (baseline samples : List Nat) (check : CheckRun) (s : State) : Result :=
  .next <|
    match s.fire.test with
    | none => s
    | some g =>
      match g.todo, s.boardBar g.board with
      | pos :: rest, some b =>
        if g.gate ≠ gate ∨ s.fld (Reg.FIRE_B_STATUS_CREDITS g.board) = 0 then s
        else
          let x := (s.bar b).map.findIdx fun e => e.board == g.board && e.pos == pos
          let c := s.gateClass baseline samples
          let s := s.gateFire g.board b pos check
          let n := fun (k : Nat) => b2n (decide (c.1 = k))
          let g' : GateTest := { g with todo := rest, tested := g.tested + 1, absent := g.absent + n 1, late := g.late + n 2,
                                        weak := g.weak + n 3 }
          let s := State.setFld { s with fire := { s.fire with test := some g' } } Reg.GATE_STATUS_DONE g'.tested
          let s := if c.1 = 0 then s else s.gateRecord g c.1 b x pos c.2
          let s := if s.flag Reg.NOZ_CTRL_GATE_EN then s.pushFinding { source := 1, bar := b, at_ := (x : Int), cls := c.1 }
            else s
          s.gateEnd
      | _, _ => s

end Sys2Proof.Machine
end

