-- ==== Sys2Proof/Machine/Nozzle.lean ====
section
/-!
DEFINITION. The nozzle health loop (chapter 10): findings, states, the module limit, compensation and its swaps.
-/
namespace Sys2Proof.Machine

/-! The health table (R240, R241, R249). -/

/-- A bar under the loop (NOZ_CTRL.LOOP_EN). -/
def State.barLoops (s : State) (b : Nat) : Bool := bitAt (s.fld Reg.NOZ_CTRL_LOOP_EN) b

/-- A bar position that takes findings: in the bar and not MASKED. -/
def State.nozLive (s : State) (b x : Nat) : Bool :=
  match (s.bar b).map[x]? with
  | some e => !e.masked
  | none => false

/-- The module of a bar position. -/
def State.modOf (s : State) (b x : Nat) : Nat := ((s.bar b).map.getD x {}).modul

/-- Bar positions of a bar in a state. -/
def State.nozIn (s : State) (b state : Nat) : List Nat :=
  (List.range (s.barN b)).filter fun x => s.nozLive b x && (s.noz1 b x).state == state

/-- DEAD nozzles of a module. -/
def State.deadIn (s : State) (b m : Nat) : Nat := ((s.nozIn b 2).filter fun x => s.modOf b x == m).length

/-- Nozzles that the map gives to a module, MASKED ones apart. -/
def modSize (map : List MapEntry) (m : Nat) : Nat := (map.filter fun e => e.modul == m && !e.masked).length

/-- The DEAD limit of a module (R249). -/
def State.modLimit (s : State) (b m : Nat) : Nat := modSize (s.bar b).map m * s.fld Reg.NOZ_LIMIT_MOD_LIMIT / 1000

/-- A NOZ event under its enable: 0 NOZ_DEAD, 1 NOZ_RECOVER, 2 NOZ_MODULE, 3 NOZ_LATE; its bit of NOZ_EVENTS is set. -/
def State.nozEvent (s : State) (bit : Nat) (shown : Fld) : State :=
  (s.setFld shown 1).raiseIf (bitAt (s.fld Reg.NOZ_EVENTS_EV_EN) bit) (93 + bit)

/-- The nozzle record (R254). -/
def State.nozRecord (s : State) (f : Finding) (x old : Nat) (e : NozEntry) : State :=
  let t := s.devTime
  let m := (s.bar f.bar).map.getD x {}
  let img := decide (f.source = 0)
  s.addRecord 1 fun n => pad64 (bytesOf [0x22, e.state, old, e.source] ++ leBytes 4 n ++
    leBytes 4 (s.nozzleBase f.bar + x) ++ bytesOf [f.bar, m.modul, m.board,
      b2n e.atLimit + 2 * b2n e.hold + 4 * b2n (img && f.pair) + 8 * s.activeDom] ++
    leBytes 4 (if img then f.frame else 0) ++ bytesOf [if img then f.port else 0, e.conf] ++
    leBytes 2 (if img then unsignedOf 16 f.d else 0) ++ leBytes 8 (if img then unsignedOf 64 f.gpos else 0) ++
    leBytes 6 t.sec ++ leBytes 4 t.ns ++ leBytes 2 (s.deadIn f.bar m.modul))

/-- A change of state or trim is gathered on a loop bar (R251). -/
def State.gather (s : State) (f : Finding) (x : Nat) : State :=
  if s.barLoops f.bar then
    let y := s.loopBar f.bar
    s.setLoopBar f.bar { y with
      changed := if y.changed.contains x then y.changed else y.changed ++ [x]
      since := match y.since with
        | some n => some n
        | none => if f.source = 0 then some f.lines else none }
  else s

/-- Counts and events of an entry into a state (R254). -/
def State.countEntry (s : State) (state : Nat) : State :=
  match state with
  | 2 => (s.bump Reg.NOZ_CNT_TRANS_TO_DEAD).nozEvent 0 Reg.NOZ_EVENTS_DEAD
  | 3 => s.nozEvent 1 Reg.NOZ_EVENTS_RECOVER
  | 0 => s.bump Reg.NOZ_CNT_TRANS_TO_OK
  | _ => s

/-- An entry rewritten by a map load or from the calibration store (R241): a change of state is counted and recorded, a
change of state or trim is gathered (R251, R254). -/
def State.nozRewrite (s : State) (b x : Nat) (e : NozEntry) : State :=
  let old := s.noz1 b x
  let f : Finding := { source := 4, bar := b }
  let s := s.setNoz1 b x e
  let s := if e.state = old.state then s else s.countEntry e.state
  let s := if e.state = old.state ∧ e.trim = old.trim then s else s.gather f x
  if e.state = old.state then s else s.nozRecord f x old.state e

/-- The entries of a bar whose map came into force (R241): OK, then what its record in the store holds, where that is for
a map of the same N and CRC. With the record restored the entries are those last written. -/
def State.restoreHealth (s : State) (b : Nat) : State :=
  let s := { s with noz := { s.noz with
      health := s.noz.health.filter fun e => e.1 / 65536 != b || decide (e.1 % 65536 < s.barN b) } }
  let s := (s.nozBar b).foldl (fun s e => s.nozRewrite b e.1 {}) s
  let s := s.calVerify 0x30 b
  match s.calContent 0x30 b with
  | some (n :: crc :: l) =>
    if n = s.barN b ∧ crc = (s.bar b).mapCrc then
      let s := (decodeNoz l).foldl (fun s e => s.nozRewrite b e.1 e.2) s
      { s with noz := { s.noz with dirty := tabPut false s.noz.dirty b false } }
    else s
  | _ => s

/-- A nozzle enters a state by a finding (R247, R254): CONF as given, AT_LIMIT cleared. -/
def State.nozEnter (s : State) (f : Finding) (x state conf : Nat) (hold : Bool) : State :=
  let e := s.noz1 f.bar x
  let e' : NozEntry := { e with state := state, conf := conf, source := f.source, atLimit := false, hold := hold }
  let s := ((s.setNoz1 f.bar x e').countEntry state).gather f x
  s.nozRecord f x e.state e'

/-- A DEAD that the module limit withholds (R249). -/
def State.nozWithhold (s : State) (f : Finding) (x : Nat) : State :=
  let e := s.noz1 f.bar x
  let new := e.state != 1
  let e' : NozEntry := { e with
    state := 1, conf := s.fld Reg.NOZ_FRAMES_N_DEAD, atLimit := true, source := if new then f.source else e.source }
  let s := (s.setNoz1 f.bar x e').bump Reg.NOZ_CNT_HELD_LIMIT
  let s := if s.flag Reg.NOZ_ALARM_VALID then s
    else
      let s := (s.setFld Reg.NOZ_ALARM_BAR f.bar).setFld Reg.NOZ_ALARM_MODULE (s.modOf f.bar x)
      (s.setFld Reg.NOZ_ALARM_VALID 1).setFld Reg.NOZ_STATUS_ALARM 1
  let s := s.nozEvent 2 Reg.NOZ_EVENTS_MODULE
  (if new then s.gather f x else s).nozRecord f x e.state e'

/-- A finding takes a nozzle to a state: DEAD only within the module limit; no change where it is there already. -/
def State.nozTo (s : State) (f : Finding) (x state conf : Nat) : State :=
  let e := s.noz1 f.bar x
  if e.state = state then s
  else if state = 2 ∧ s.modLimit f.bar (s.modOf f.bar x) ≤ s.deadIn f.bar (s.modOf f.bar x) then s.nozWithhold f x
  else s.nozEnter f x state conf e.hold

/-- CONF changed without a change of state. -/
def State.nozConf (s : State) (b x conf : Nat) : State := s.setNoz1 b x { s.noz1 b x with conf := min 255 conf }

/-! Findings (R243 to R248). -/

/-- Table 10-2: the state after a gate finding of a class. -/
def gateState (cls old : Nat) : Nat :=
  match cls with
  | 0 => if old = 2 then 3 else 0
  | 3 => if old = 2 then 2 else 1
  | _ => 2

/-- A gate finding. -/
def State.gateFinding (s : State) (f : Finding) : State :=
  let x := f.at_.toNat
  if !s.nozLive f.bar x then s
  else if (s.noz1 f.bar x).hold then s.bump Reg.NOZ_CNT_HELD_HOLD
  else (s.bump Reg.NOZ_CNT_FIND_GATE).nozTo f x (gateState f.cls (s.noz1 f.bar x).state) 0

/-- A bar position that an image finding can implicate (R245). -/
def State.implicable (s : State) (b : Nat) (x : Int) : Bool :=
  decide (0 ≤ x) && s.nozLive b x.toNat && (s.noz1 b x.toNat).state != 2

/-- A finding is settled for a nozzle (R246). -/
def State.settledFor (s : State) (f : Finding) (x : Nat) : Bool := decide ((s.noz1 f.bar x).gen ≤ f.gen)

/-- A hit on the implicated nozzle (Table 10-3). -/
def State.imageHit (s : State) (f : Finding) (x : Nat) : State :=
  if !s.settledFor f x then s.bump Reg.NOZ_CNT_FIND_UNSETTLED
  else if (s.noz1 f.bar x).hold then s.bump Reg.NOZ_CNT_HELD_HOLD
  else
    let s := s.bump Reg.NOZ_CNT_FIND_IMAGE
    let e := s.noz1 f.bar x
    let n := s.fld Reg.NOZ_FRAMES_N_DEAD
    match e.state with
    | 0 => if n = 1 then s.nozTo f x 2 0 else s.nozTo f x 1 1
    | 1 => if n ≤ e.conf + 1 then s.nozTo f x 2 0 else s.nozConf f.bar x (e.conf + 1)
    | _ => s.nozTo f x 2 0

/-- The trim step of an OK nozzle (R247). -/
def State.trimStep (s : State) (f : Finding) (x : Nat) : State :=
  let e := s.noz1 f.bar x
  let band : Int := s.fld Reg.NOZ_TRIM_TRIM_BAND
  let top : Int := s.fld Reg.NOZ_TRIM_TRIM_MAX
  let t := if band ≤ f.d then min (e.trim + 1) top else if f.d ≤ -band then max (e.trim - 1) (-top) else e.trim
  if !s.flag Reg.NOZ_CTRL_TRIM_EN || t == e.trim then s
  else (s.setNoz1 f.bar x { e with trim := t }).gather f x

/-- A miss on a nozzle of the column (Table 10-3). -/
def State.imageMiss (s : State) (f : Finding) (x : Nat) : State :=
  if !s.settledFor f x then s.bump Reg.NOZ_CNT_FIND_UNSETTLED
  else if (s.noz1 f.bar x).hold then s.bump Reg.NOZ_CNT_HELD_HOLD
  else
    let e := s.noz1 f.bar x
    match e.state with
    | 0 => (s.nozConf f.bar x 0).trimStep f x
    | 1 => if e.conf ≤ 1 then s.nozTo f x 0 0 else s.nozConf f.bar x (e.conf - 1)
    | _ => if s.fld Reg.NOZ_FRAMES_N_OK ≤ e.conf + 1 then s.nozTo f x 0 0 else s.nozConf f.bar x (e.conf + 1)

/-- A band finding on a nozzle of the column (Table 10-3): no change, but an unsettled one and one on a held nozzle are
counted. -/
def State.imageBand (s : State) (f : Finding) (x : Nat) : State :=
  if !s.settledFor f x then s.bump Reg.NOZ_CNT_FIND_UNSETTLED
  else if (s.noz1 f.bar x).hold then s.bump Reg.NOZ_CNT_HELD_HOLD
  else s

/-- The nozzle that a hit implicates (R245). -/
def State.implicated (s : State) (f : Finding) : Option Nat :=
  if f.pair then
    let a := if f.dPrev < f.dNext then f.at_ + 1 else f.at_
    let o := if f.dPrev < f.dNext then f.at_ else f.at_ + 1
    if s.implicable f.bar a then some a.toNat else if s.implicable f.bar o then some o.toNat else none
  else if s.implicable f.bar f.at_ then some f.at_.toNat else none

/-- An image finding (R245 to R247). -/
def State.imageFinding (s : State) (f : Finding) : State :=
  if (s.fld Reg.NOZ_STREAK_STREAK : Int) ≤ f.d then
    match s.implicated f with
    | some x => s.imageHit f x
    | none => s
  else
    let miss := decide (f.d < s.fld Reg.NOZ_STREAK_CLEAR)
    ((if f.pair then [f.at_, f.at_ + 1] else [f.at_]).filter (s.implicable f.bar)).foldl
      (fun s x => if miss then s.imageMiss f x.toNat else s.imageBand f x.toNat) s

/-- An operator finding (R248). -/
def State.operatorFinding (s : State) (f : Finding) : State :=
  let x := f.at_.toNat
  let e := s.noz1 f.bar x
  if f.cls = 2 ∧ e.state ≠ 2 ∧ s.modLimit f.bar (s.modOf f.bar x) ≤ s.deadIn f.bar (s.modOf f.bar x) then
    s.finishSlot f.sess f.tag scConfigRejected (checkResult 1 1 0x1C 0xFFFFFFFF)
  else
    let s := if e.state = f.cls then
        (s.setNoz1 f.bar x { e with conf := 0, source := 2, hold := f.hold }).gather f x
      else s.nozEnter f x f.cls 0 f.hold
    if s.barLoops f.bar then
      s.setLoopBar f.bar { s.loopBar f.bar with asks := (s.loopBar f.bar).asks ++ [(f.sess, f.tag)] }
    else s.finishSlot f.sess f.tag scDone

/-- FINDING_APPLY (R243, R247): the oldest finding is judged on the entry that its predecessor left. -/
def execFindingApply (s : State) : Result :=
  .next <|
    match s.noz.queue with
    | [] => s
    | f :: rest =>
      let s := State.setFlag { s with noz := { s.noz with queue := rest } } Reg.NOZ_STATUS_BUSY (!rest.isEmpty)
      if f.source = 0 then s.imageFinding f else if f.source = 1 then s.gateFinding f else s.operatorFinding f

/-- NOZZLE_STATE_SET (R243, R248): 0x0208. -/
def execNozzleStateSet (rq : Rq) (idx state hold : Nat) (s : State) : Result :=
  .next <| s.run rq 0x0208 fun s =>
    let at_ := s.nozzleAt idx
    let live := match at_ with
      | some (b, x) => s.nozLive b x
      | none => false
    s.withParams rq 0x0208 [(16, live), (20, decide (state < 4)), (21, decide (hold < 2))] fun s =>
      let p := at_.getD (0, 0)
      (s.pend rq 0x0208).pushFinding
        { source := 2, bar := p.1, at_ := (p.2 : Int), cls := state, hold := hold == 1, sess := rq.sess, tag := rq.tag }

/-- Where the entry of nozzle index `i` lies in device memory (R240): 8 x i from the start of the health table in CONTEXT.
DESIGN CHOICE: the table is the first of its region, and the second copy (Table 13-1) starts at the region's middle. -/
def healthAddr (i : Nat) (second : Bool) : Nat := 0x10000000 + (if second then 0x10000000 else 0) + 8 * i

/-- The eight bytes that device memory holds at `healthAddr i` (R240); a MASKED nozzle reads OK (R241). -/
def State.healthBytes (s : State) (i : Nat) : List Byte :=
  match s.nozzleAt i with
  | some (b, x) => (if s.nozLive b x then s.noz1 b x else {}).bytes
  | none => ({} : NozEntry).bytes

/-- The state of a nozzle index. -/
def State.nozzleState (s : State) (i : Nat) : Nat := (readNozEntry (s.healthBytes i)).state

/-- NOZZLE_STATE_READ: 0x0209; two bits per nozzle from bit 0 of each byte upward. -/
def execNozzleStateRead (rq : Rq) (first count : Nat) (s : State) : Result :=
  .next <| s.run rq 0x0209 fun s =>
    s.withParams rq 0x0209
      [(16, decide (first < s.nozzles)),
       (20, decide (1 ≤ count) && decide (count ≤ 16320) && decide (first + count ≤ s.nozzles))] fun s =>
      let l := (List.range count).map fun i => s.nozzleState (first + i)
      s.finish rq 0x0209 scDone ((List.range (ceilDiv count 4)).map fun i =>
        BitVec.ofNat 8 (l.getD (4 * i) 0 + 4 * l.getD (4 * i + 1) 0 + 16 * l.getD (4 * i + 2) 0 + 64 * l.getD (4 * i + 3) 0))

/-! Compensation (R250, R251). -/

/-- The nozzles of a base substitution table are held DEAD; one that a new base table no longer lists is RECOVERED
(R250). -/
def State.holdBase (s : State) (b : Nat) (sub : SubTable) : State :=
  let f : Finding := { source := 3, bar := b }
  let gone := (List.range (s.barN b)).filter fun x =>
    (s.noz1 b x).hold && (s.noz1 b x).source == 3 && !(sub.dead.any fun d => d.1 == x)
  let s := gone.foldl (fun s x => s.nozEnter f x 3 0 false) s
  sub.dead.foldl (fun s d =>
    if (s.noz1 b d.1).state = 2 then s.setNoz1 b d.1 { s.noz1 b d.1 with hold := true, source := 3 }
    else s.nozEnter f d.1 2 0 true) s

/-- DEAD nozzles of each module once a base table is committed: those listed, and those DEAD now that it does not
release. -/
def State.deadWith (s : State) (b : Nat) (sub : SubTable) : List Nat :=
  let stay := (s.nozIn b 2).filter fun x =>
    !((s.noz1 b x).hold && (s.noz1 b x).source == 3) && !(sub.dead.any fun d => d.1 == x)
  stay ++ sub.dead.map Prod.fst

/-- The first entry of a base table by which a module passes its limit. -/
def State.baseOver (s : State) (b : Nat) (sub : SubTable) : Option Nat :=
  let all := s.deadWith b sub
  (List.range sub.dead.length).find? fun i =>
    let m := s.modOf b (sub.dead.getD i (0, 0)).1
    decide (s.modLimit b m < (all.filter fun x => s.modOf b x == m).length)

/-- The substitution table that the loop builds. -/
def State.builtSub (s : State) (b : Nat) : SubTable :=
  let base := (s.loopBar b).sub
  { base with dead := (s.nozIn b 2).map fun x => (x, (base.dead.lookup x).getD (s.fld Reg.NOZ_CTRL_PAT)) }

/-- The gains that the loop builds. -/
def State.builtGain (s : State) (b : Nat) : List Nat :=
  let base := (s.loopBar b).gain
  (List.range (s.barN b)).map fun x =>
    let g : Int := match base with
      | some l => l.getD x 4096
      | none => 4096
    min 65535 ((g * (1024 + (s.noz1 b x).trim) + 512) / 1024).toNat

/-- LOOP_SWAP_STAGE (R251, R252): a request more than 1,024 lines late says so, once for its swap. -/
def execLoopSwapStage (bar : Nat) (s : State) : Result :=
  .next <|
    let y := s.loopBar bar
    let ready := decide (64 ≤ y.changed.length) || !(s.noz.queue.any fun f => f.bar == bar)
    if !(decide (bar < 16) && s.barLoops bar && !y.changed.isEmpty && y.staged.isEmpty && ready) then s
    else
      let n := match y.since with
        | some n => tabGet 0 s.fire.events bar - n
        | none => 0
      let s := s.setLoopBar bar { y with
        changed := [], since := none, late := false, staged := y.changed, asks := [], swapAsks := y.asks }
      let s := s.setFld Reg.NOZ_STATUS_SWAP_WAIT (setBitAt (s.fld Reg.NOZ_STATUS_SWAP_WAIT) bar)
      let s := (s.setFld Reg.NOZ_LAT_LAST_LINES (min 65535 n)).setFld Reg.NOZ_LAT_MAX_LINES
        (max (s.fld Reg.NOZ_LAT_MAX_LINES) (min 65535 n))
      let s := if 1024 < n ∧ !y.late then s.nozEvent 3 Reg.NOZ_EVENTS_LATE else s
      (s.setPend bar { (s.bar bar).pend with gain := some (s.builtGain bar), sub := some (s.builtSub bar) }).swapRequest bar

/-- LOOP_LATE (R252): more than 1,024 print lines since the close of the frame behind the oldest change. -/
def execLoopLate (bar : Nat) (s : State) : Result :=
  .next <|
    let y := s.loopBar bar
    match y.since with
    | some n =>
      if bar < 16 ∧ !y.changed.isEmpty ∧ !y.late ∧ n + 1024 < tabGet 0 s.fire.events bar then
        (s.setLoopBar bar { y with late := true }).nozEvent 3 Reg.NOZ_EVENTS_LATE
      else s
    | none => s

/-- The loop is turned on for a bar: its base tables are those in force (R250). -/
def State.loopOn (s : State) (b : Nat) : State :=
  let x := s.bar b
  (s.setLoopBar b { s.loopBar b with gain := x.bank.gain, sub := x.sub }).holdBase b x.sub

/-- The loop is turned off for a bar: commands that waited for its next swap complete. -/
def State.loopOff (s : State) (b : Nat) : State :=
  let y := s.loopBar b
  let s := s.setLoopBar b { y with changed := [], since := none, asks := [] }
  y.asks.foldl (fun s a => s.finishSlot a.1 a.2 scDone) s

/-- LOOP_EN written. -/
def State.setLoops (s : State) (mask : Nat) : State :=
  let old := s.fld Reg.NOZ_CTRL_LOOP_EN
  let s := s.setFld Reg.NOZ_CTRL_LOOP_EN mask
  (List.range 16).foldl (fun s b =>
    if bitAt mask b && !bitAt old b then s.loopOn b else if !bitAt mask b && bitAt old b then s.loopOff b else s) s

/-- R250 lets the loop be turned on for the bars of a mask with a pattern for unlisted nozzles. -/
def State.loopsOk (s : State) (old mask pat : Nat) : Bool :=
  (List.range 16).all fun b => !(bitAt mask b && !bitAt old b) || decide (pat < (s.bar b).sub.pats.length)

/-- LOOP_EN_WRITE (R250): in STANDBY, READY and SERVICE; a refused write has no effect. -/
def execLoopEnWrite (mask : Nat) (s : State) : Result :=
  .next <|
    if s.inSt [stStandby, stReady, stService] && decide (mask < 65536) &&
        s.loopsOk (s.fld Reg.NOZ_CTRL_LOOP_EN) mask (s.fld Reg.NOZ_CTRL_PAT) then s.setLoops mask
    else s

/-! Base tables and nozzle maps. -/

/-- GAIN_LOAD (R143, R147, R250): 0x0125. -/
def execGainLoad (rq : Rq) (chunk : Chunk) (s : State) : Result :=
  let b := chunk.inst
  .next <| s.run rq 0x0125 fun s =>
    s.loadTable rq 0x0125 16 chunk (!s.barLoops b && s.bankInUse b)
      (fun s => if s.barLoops b then s else s.setPend b { (s.bar b).pend with gain := none }) fun t rep s =>
      match s.gainBad b t with
      | some o => s.reject rq 0x0125 2 0x10 o
      | none =>
        if s.barLoops b then (s.setLoopBar b { s.loopBar b with gain := some (halves t) }).finish rq 0x0125 scDone rep
        else (s.stageBank b { (s.bar b).pend with gain := some (halves t) }).finish rq 0x0125 scDone rep

/-- SUBSTITUTE_SET (R143, R147, R250): 0x0123. -/
def execSubstituteSet (rq : Rq) (chunk : Chunk) (s : State) : Result :=
  let b := chunk.inst
  .next <| s.run rq 0x0123 fun s =>
    s.loadTable rq 0x0123 16 chunk (!s.barLoops b && s.bankInUse b)
      (fun s => if s.barLoops b then s else s.setPend b { (s.bar b).pend with sub := none }) fun t rep s =>
      match s.subBad b t with
      | some o => s.reject rq 0x0123 2 0x10 o
      | none =>
        let sub := readSub t
        if s.barLoops b then
          match s.baseOver b sub with
          | some i => s.reject rq 0x0123 1 0x1C (16 + 64 * sub.pats.length + 4 * i)
          | none => ((s.setLoopBar b { s.loopBar b with sub := sub }).holdBase b sub).finish rq 0x0123 scDone rep
        else (s.stageBank b { (s.bar b).pend with sub := some sub }).finish rq 0x0123 scDone rep

/-- The device's bars and nozzles shown (Table 06-18). -/
def State.showNozzles (s : State) : State :=
  (s.setFld Reg.DOSE_INFO_BARS ((List.range 16).filter s.barMapped).length).setFld Reg.DOSE_INFO_NOZZLES s.nozzles

end Sys2Proof.Machine
end

