-- ==== Sys2Proof/Machine/Boards.lean ====
section
/-!
DEFINITION. Nozzle maps and board profiles as they come into force (R137, R165, R166), and the module limit (R249).
-/
namespace Sys2Proof.Machine

/-! Nozzle maps. -/

/-- R26's engine loads. -/
def State.loadsFit (s : State) : Option (Nat × Nat) :=
  if !s.loadFits (s.printLoad s.frugal) 0 then some (1, 0x01)
  else if !s.loadFits (s.inspectLoad s.frugal) 1 then some (1, 0x02)
  else none

/-- A map comes into force (R137, R241): its bar's health entries start anew, and its boards follow it. -/
def State.mapInForce (s : State) (b : Nat) (t : List Byte) : State :=
  let s := s.withMap b (readMap t) (crc32c t)
  let y := s.loopBar b
  let here := fun x : Nat => decide (x < s.barN b)
  let s := s.setLoopBar b { y with changed := y.changed.filter here, staged := y.staged.filter here }
  (((s.showNozzles.restoreHealth b).boardsRefresh).showFill b).showStackMax

/-- NOZZLE_MAP_LOAD (R137, R26): 0x0121. -/
def execNozzleMapLoad (rq : Rq) (chunk : Chunk) (s : State) : Result :=
  let b := chunk.inst
  .next <| s.run rq 0x0121 fun s =>
    s.loadChunk rq 0x0121 16 false chunk fun t rep s =>
      match s.mapBad b t with
      | some o => s.reject rq 0x0121 2 0x10 o
      | none => match (s.withMap b (readMap t) 0).loadsFit with
        | some v => s.reject rq 0x0121 v.1 v.2 0
        | none => (s.mapInForce b t).finish rq 0x0121 scDone rep

/-! Board profiles (Table 07-1). -/

/-- The lanes that a profile names. -/
def profLanes (t : List Byte) : List Nat := if leAt t 2 1 = 2 then [leAt t 4 1, leAt t 5 1] else [leAt t 4 1]

/-- A profile obeys Table 07-1: its fields in byte order. -/
def State.profFields (s : State) (k : Nat) (t : List Byte) : List (Nat × Bool) :=
  let between (o n lo hi : Nat) : Nat × Bool := (o, decide (lo ≤ leAt t o n) && decide (leAt t o n ≤ hi))
  let rate := leAt t 8 4
  let peers := match s.boardBar k with
    | some b => (s.barBoards b).filter fun j => j != k && s.hasProf j
    | none => []
  [(0, decide (t.length = 64)), (0, decide (4 ≤ leAt t 0 2) && decide (leAt t 0 2 ≤ 8192) && leAt t 0 2 % 4 == 0),
   between 2 1 1 2, between 3 1 4 16, between 4 1 0 95,
   (5, if leAt t 2 1 = 2 then decide (leAt t 5 1 ≤ 95) && leAt t 5 1 != leAt t 4 1 else leAt t 5 1 == 0xFF),
   between 6 1 0 47, between 7 1 1 8,
   (8, decide (1 ≤ rate) && decide (rate ≤ 300000) && peers.all fun j => s.prof j 8 4 == rate),
   between 12 2 100 10000, between 14 2 100 10000,
   (16, decide (500 ≤ leAt t 16 2) && decide (leAt t 16 2 ≤ 20000) && decide (leAt t 14 2 + 100 ≤ leAt t 16 2)),
   between 18 2 1 100, between 22 1 16 255, (23, leAt t 23 1 == 0), (24, decide (1 ≤ leAt t 24 4))] ++
  ((List.range 12).map fun i => (34 + 2 * i, s.deep4 || leAt t (34 + 2 * i) 2 == 0)) ++ zerosAt t 58 6

/-- Lanes and fire line are free, lie in one quadrant (R13), and no lane is its group's standby lane (R14). -/
def State.profPlan (s : State) (k : Nat) (t : List Byte) : List (Nat × Bool) :=
  let fire := leAt t 6 1
  let others := (List.range 48).filter fun j => j != k && s.hasProf j
  let lane (o l : Nat) : List (Nat × Bool) :=
    [(o, decide (s.fld (Reg.LANE_CFG_ROLE l) < 2) && others.all (fun j => !(s.boardLanes j).contains l)
        && l / 24 == fire / 12 && s.standbyLane (l / 8) != l)]
  ((profLanes t).zipIdx.flatMap fun p => lane (4 + p.2) p.1) ++ [(6, others.all fun j => s.prof j 6 1 != fire)]

/-- Units of 78.125 MHz in a lane rate (Table 14-1). -/
def rateUnits (code : Nat) : Nat := [16, 33, 66, 132, 264, 330].getD code 16

/-- The lane time of a line on a lane is at most 3/4 of its period (R166): `bytes` of LINE body, and a SCHEDULE where
the lane is lane A. -/
def State.laneTimeOk (s : State) (rate l bytes : Nat) (first : Bool) : Bool :=
  let blocks := ceilDiv (16 + bytes) 8 + 2 + if first then 6 else 0
  decide (blocks * 66 * 4 * rate ≤ 3 * 78125000 * rateUnits (s.fld (Reg.LANE_CFG_RATE l)))

/-- The time limits of R166. -/
def State.profTimes (s : State) (t : List Byte) : List (Nat × Bool) :=
  let rate := leAt t 8 4
  let n := leAt t 0 2 * s.doseBits / 8
  let half := 8 * ceilDiv n 16
  let lanes := if leAt t 2 1 = 2 then
      [(4, s.laneTimeOk rate (leAt t 4 1) half true), (5, s.laneTimeOk rate (leAt t 5 1) (n - half) false)]
    else [(4, s.laneTimeOk rate (leAt t 4 1) n true)]
  (7, decide (8 * (leAt t 7 1 * leAt t 12 2) ≤ 7 * (1000000000 / rate))) :: lanes

/-- The state with a board's profile replaced, and nothing else. -/
def State.withProfile (s : State) (k : Nat) (t : List Byte) : State := s.setBoard k { s.board k with profile := some t }

/-- The first failing offset of a profile (R166). -/
def State.profBad (s : State) (k : Nat) (t : List Byte) : Option Nat :=
  match firstFail (s.profFields k t) with
  | some o => some o
  | none => match firstFail (s.profPlan k t ++ s.profTimes t) with
    | some o => some o
    | none => if (s.boardBar k).isSome && (s.withProfile k t).rateBroken.isSome then some 8 else none

/-- A profile comes into force: the lanes it no longer names are free, those it names are head lanes (R342), and the
board trains anew. -/
def State.profileInForce (s : State) (k : Nat) (t : List Byte) : State :=
  let old := if s.hasProf k then s.boardLanes k else []
  let s := (s.boardOff k).withProfile k t
  let s := (old.filter fun l => !(profLanes t).contains l).foldl (fun s l => s.laneRole l 0) s
  let s := (profLanes t).foldl (fun s l => s.laneRole l 1) s
  (s.boardRefresh k).showStackMax

/-- BOARD_PROFILE_LOAD (R165, R166): 0x0126. -/
def execBoardProfileLoad (rq : Rq) (chunk : Chunk) (s : State) : Result :=
  let k := chunk.inst
  .next <| s.run rq 0x0126 fun s =>
    s.loadChunk rq 0x0126 48 false chunk fun t rep s =>
      match s.profBad k t with
      | some o => s.reject rq 0x0126 2 0x11 o
      | none => (s.profileInForce k t).finish rq 0x0126 scDone rep

/-! The module limit. -/

/-- MOD_LIMIT_WRITE (R249, R26): refused when the larger load does not fit. -/
def execModLimitWrite (limit : Nat) (s : State) : Result :=
  .next <|
    if !(s.inSt [stStandby, stReady, stService] && decide (1 ≤ limit) && decide (limit ≤ 100)) then s
    else
      let s1 := s.setFld Reg.NOZ_LIMIT_MOD_LIMIT limit
      if (firstBroken (readsAny [Reg.NOZ_LIMIT]) [Reg.NOZ_LIMIT] s1).isSome then s else s1

end Sys2Proof.Machine
end

