-- ==== Sys2Proof/Machine/Pairs.lean ====
section
/-!
DEFINITION. Supervisor pairs (chapter 16, R376, R378): the images they run, the takeover by the standby pair and the test
of the faulted one.
-/
namespace Sys2Proof.Machine

/-- Version of a slot's image. -/
def slotVersion (b : Bool) : Fld := if b then Reg.NVC_VER_B_VERSION else Reg.NVC_VER_A_VERSION

/-- Compatibility level of a slot's image. -/
def slotLevel (b : Bool) : Fld := if b then Reg.NVC_COMPAT_LEVEL_B else Reg.NVC_COMPAT_LEVEL_A

/-- The slot that is not running is B. -/
def State.idleB (s : State) : Bool := !s.flag Reg.NVC_SLOT_RUNNING

/-- The image of a slot runs. -/
def State.runSlot (s : State) (b : Bool) : State :=
  let s := s.setFlag Reg.NVC_SLOT_RUNNING b
  (s.setFld Reg.PLAT_FW_VER_VERSION (s.fld (slotVersion b))).setFld Reg.PLAT_FW_COMPAT_LEVEL (s.fld (slotLevel b))

/-- KERNEL_NEW of every cluster. -/
def State.setOldKernels (s : State) (old : Bool) : State :=
  (List.range 16).foldl (fun s c => s.setCluster c { s.cluster c with oldKernel := old }) s

/-- The other pair is active. -/
def State.swapPairs (s : State) : State := s.setFld Reg.SPARE_PSUP_ACTIVE (1 - s.fld Reg.SPARE_PSUP_ACTIVE)

/-- A faulted pair is reset and tested: until it has passed there is no standby pair. -/
def State.testPair (s : State) : State :=
  { s.setFld Reg.SPARE_PSUP_STANDBY_OK 0 with spare := { s.spare with testing := true } }

/-- Control returns to the old image in its fallback window (R378). -/
def State.fallBack (s : State) : State :=
  if s.fld Reg.SPARE_FW_STATE = 4 then
    let s := ((s.runSlot s.idleB).setOldKernels false).setFld Reg.SPARE_FW_STATE 0
    s.setFld Reg.SPARE_EVENTS_FW_FALLBACK 1
  else s

/-- The standby pair becomes active; in its fallback window control returns to the old image. -/
def State.pairOver (s : State) : State :=
  ((s.fallBack.bump Reg.SPARE_PSUP_TAKEOVERS).setFld Reg.SPARE_EVENTS_PAIR 1).swapPairs.testPair

/-- The longest time that the standby pair takes to become active: 2 ms (R376). -/
def takeoverMax : Nat := 500000

/-- The ticks that the present takeover takes: a free value within R376's bound. -/
def State.takeoverTicks (s : State) : Nat := min takeoverMax (Config.takeoverTicks s.spare.faultedAt)

/-- The active pair has faulted: the takeover by the standby pair is in progress (R376). -/
def State.pairFaults (s : State) : State :=
  { s.setFld Reg.SPARE_PSUP_TAKEOVER 1 with spare := { s.spare with faultedAt := s.now } }

/-- What one reference tick does to a takeover in progress: once its time has passed, the standby pair is active. -/
def State.pairTick (s : State) : State :=
  if s.flag Reg.SPARE_PSUP_TAKEOVER then
    if s.spare.faultedAt + s.takeoverTicks ≤ s.now then (s.setFld Reg.SPARE_PSUP_TAKEOVER 0).pairOver else s
  else s

end Sys2Proof.Machine
end

