-- ==== Sys2Proof/Machine/Tick.lean ====
section
/-!
DEFINITION. One reference tick of the 250 MHz oscillator (R283, R285, R292): what the block does by itself while no command
waits.
-/
namespace Sys2Proof.Machine

/-- A domain's increment in 2^-32 ns (TD_INC). -/
def State.incOf (s : State) (d : Nat) : Nat := s.fld (Reg.TD_INC_HI_INC_HI d) * 2 ^ 32 + s.fld (Reg.TD_INC_LO_INC_LO d)

/-- A domain's counts one tick later, and whether its seconds count advanced (R283). -/
def Clock.advance (c : Clock) (inc : Nat) : Clock × Bool :=
  let f := c.frac + inc % 2 ^ 32
  let n := c.ns + inc / 2 ^ 32 + f / 2 ^ 32
  if nsPerSec ≤ n then ({ c with sec := (c.sec + 1) % 2 ^ 64, ns := n - nsPerSec, frac := f % 2 ^ 32 }, true)
  else ({ c with ns := n, frac := f % 2 ^ 32 }, false)

/-- A domain's seconds count advances: its PPS producer is raised when enabled (R292). -/
def State.pps (s : State) (d : Nat) : State := s.raiseIf (bitAt (s.fld Reg.TIME_CTRL_EV_EN) d) (40 + d)

/-- One tick of a domain. -/
def State.tickDomain (s : State) (d : Nat) : State :=
  let r := (s.clock d).advance (s.incOf d)
  let s := s.setClock d r.1
  if r.2 then s.pps d else s

/-- The residual's step per tick in 2^-32 ns: floor(SLEW x 2^34 / 10^9) (R285). -/
def State.slewStep (s : State) : Nat := s.fld Reg.TIME_SLEW_SLEW * 2 ^ 34 / nsPerSec

/-- The residual one tick later: toward 0, never past it (R285). -/
def slewToward (step : Nat) (r : Int) : Int :=
  if 0 < r then (if r ≤ (step : Int) then 0 else r - step)
  else (if -(step : Int) ≤ r then 0 else r + step)

/-- SLEWING is 1 while R is not 0 (R285). -/
def State.setResid (s : State) (r : Int) : State :=
  { s.setFlag Reg.TIME_STATUS_SLEWING (decide (r ≠ 0)) with time := { s.time with resid := r } }

/-- A time producer under its enable (TIME_CTRL.EV_EN, producers 40 to 47 in order). -/
def State.timeEvent (s : State) (bit : Nat) : State := s.raiseIf (bitAt (s.fld Reg.TIME_CTRL_EV_EN) bit) (40 + bit)

/-- The counts of both domains and the residual, one tick later (R283, R285). -/
def State.countTick (s : State) : State :=
  let s := (s.tickDomain 0).tickDomain 1
  s.setResid (slewToward s.slewStep s.time.resid)

/-- The alarm time of a domain. -/
def State.alarmAt (s : State) (d : Nat) : Nat × Nat := (s.fld (Reg.TD_ALARM_S_SEC d), s.fld (Reg.TD_ALARM_NS_NS d))

/-- An armed alarm whose time the domain has reached (R292). DEDUCED: TD_ALARM_S holds the seconds' lower 32 bits and is
compared with them. -/
def State.alarmReached (s : State) (d : Nat) : Bool :=
  let c := s.clock d
  let at_ := s.alarmAt d
  s.flag (Reg.TD_STATUS_ALARM_ARMED d) &&
    (decide (at_.1 < c.sec % 2 ^ 32) || (decide (at_.1 = c.sec % 2 ^ 32) && decide (at_.2 ≤ c.ns)))

/-- An alarm fires once and disarms; one armed for a time already past sets ALARM_LATE (R292). -/
def State.alarmFired (s : State) (d : Nat) : State :=
  if s.alarmReached d then
    let s := (s.setFld (Reg.TD_STATUS_ALARM_ARMED d) 0).timeEvent (2 + d)
    if (s.clock d).alarmLate then s.setFld (Reg.TD_STATUS_ALARM_LATE d) 1 else s
  else s

/-- The whole multiple of PERIOD_US within its second that a time lies in, with that second (R292). -/
def State.periodOf (s : State) (p : Nat) (t : Clock) : Nat × Nat :=
  (t.sec, t.ns / (1000 * s.fld (Reg.TIME_PERIOD_PERIOD_US p)))

/-- PERIODIC_p is on, and device time has crossed a multiple of its period since `before` (R292). -/
def State.periodCrossed (s : State) (before : Clock) (p : Nat) : Bool :=
  s.flag (Reg.TIME_PERIOD_ENABLE p) && s.periodOf p before != s.periodOf p s.devTime

/-- A periodic producer at a tick. -/
def State.periodicTick (before : Clock) (s : State) (p : Nat) : State :=
  if s.periodCrossed before p then s.timeEvent (4 + p) else s

/-- What one tick does to the time unit (R283, R285, R292). -/
def State.timeTick (s : State) : State :=
  [0, 1].foldl (State.periodicTick s.devTime) ([0, 1].foldl State.alarmFired s.countTick)

/-- One reference tick. -/
def tick (s : State) : State := (((State.memTick { s with now := s.now + 1 }).lanesTick.timeTick).motionTick).pairTick

end Sys2Proof.Machine
end

