-- ==== Sys2Proof/Machine/Time.lean ====
section
/-!
DEFINITION. The time domains (chapter 12, R283 to R293): adjusting, selecting, sources, servos, time stamps, alarms.
-/
namespace Sys2Proof.Machine

/-- TIME_UTC shows the offset of the active domain's PTP source (R290). -/
def State.showUtc (s : State) : State :=
  match (s.clock s.activeDom).utc with
  | some u => (s.setFld Reg.TIME_UTC_UTC_OFFSET u).setFld Reg.TIME_UTC_VALID 1
  | none => (s.setFld Reg.TIME_UTC_UTC_OFFSET 0).setFld Reg.TIME_UTC_VALID 0

/-- TIME_READ (R285): 0x0400; domain 2 is device time. -/
def execTimeRead (rq : Rq) (dom : Nat) (s : State) : Result :=
  .next <| s.run rq 0x0400 fun s =>
    s.withParams rq 0x0400 [(16, decide (dom ≤ 2))] fun s =>
      let t := if dom = 2 then s.devTime else s.clock dom
      s.finish rq 0x0400 scDone
        (leBytes 8 t.sec ++ leBytes 4 t.ns ++ leBytes 2 (t.frac / 65536) ++ leBytes 1 (if dom = 2 then s.activeDom else dom))

/-- The change of active domain from A to B (R286): R_new = T_dev − T_B, so device time does not step. -/
def State.switchDom (s : State) (b : Nat) : State :=
  let a := s.activeDom
  let r := s.devUnits - (s.clock b).units
  let s := ((s.setFld Reg.TIME_CTRL_ACTIVE b).setResid r).showUtc
  let s := ((s.bump Reg.TIME_STATUS_SWITCHES).setFld Reg.TIME_EVENTS_SWITCH 1).timeEvent 6
  (s.setFld Reg.TIME_STATUS_HOLDOVER 0).log1 0x40 0x28 0 0 [a, b, unsignedOf 96 r]

/-- |T_dev − T_B| in 2^-32 ns. -/
def State.domGap (s : State) (b : Nat) : Nat := (s.devUnits - (s.clock b).units).natAbs

/-- One second in 2^-32 ns. -/
def secUnits : Nat := nsPerSec * 2 ^ 32

/-- DOMAIN_SELECT (R286): 0x0402. -/
def execDomainSelect (rq : Rq) (dom : Nat) (s : State) : Result :=
  .next <| s.run rq 0x0402 fun s =>
    s.withParams rq 0x0402 [(16, decide (dom < 2))] fun s =>
      if dom = s.activeDom then s.finish rq 0x0402 scDone
      else if secUnits ≤ s.domGap dom then s.reject rq 0x0402 2 0x28
      else (s.switchDom dom).finish rq 0x0402 scDone

/-- A domain's increment set (TD_INC). -/
def State.setInc (s : State) (d inc : Nat) : State :=
  (s.setFld (Reg.TD_INC_LO_INC_LO d) (inc % 2 ^ 32)).setFld (Reg.TD_INC_HI_INC_HI d) (inc / 2 ^ 32)

/-- A domain stepped by a signed count of nanoseconds, counted in STEPS. -/
def State.stepDom (s : State) (d : Nat) (ns : Int) : State :=
  let c := s.clock d
  (s.setClock d (c.withUnits (c.units + ns * (2 ^ 32 : Nat)))).bump (Reg.TD_STATUS_STEPS d)

/-- What a domain follows (TD_CTRL.SRC). -/
def State.srcOf (s : State) (d : Nat) : Nat := s.fld (Reg.TD_CTRL_SRC d)

/-- The firmware servo: SERVO = 0 and SRC other than HOST (R287). -/
def State.firmwareServo (s : State) (d : Nat) : Bool := !s.flag (Reg.TD_CTRL_SERVO d) && s.srcOf d != 5

/-- A domain ceases to be LOCKED: TIME_LOCK_LOST (R287). -/
def State.lockLost (s : State) (d : Nat) : State :=
  if s.flag (Reg.TD_STATUS_LOCKED d) then
    let s := (s.setFld (Reg.TD_STATUS_LOCKED d) 0).setFld Reg.TIME_EVENTS_LOCK_LOST 1
    s.raiseIf (s.flag Reg.TIME_CTRL_EV_LOCK) 120
  else s

/-- LOCKED under the host servo is HOST_LOCK while the source is present; a FREE domain is never LOCKED (R287). -/
def State.hostLocked (s : State) (d : Nat) : State :=
  if s.firmwareServo d then s
  else if s.flag (Reg.TD_CTRL_HOST_LOCK d) && s.flag (Reg.TD_STATUS_PRESENT d) && s.srcOf d != 0 then
    s.setFld (Reg.TD_STATUS_LOCKED d) 1
  else s.lockLost d

/-- A domain's source was heard: PRESENT, and HOLDOVER clears when it is the active domain's (R288). -/
def State.sourceHeard (s : State) (d : Nat) : State :=
  let s := (s.setFld (Reg.TD_STATUS_PRESENT d) 1).hostLocked d
  if d = s.activeDom then s.setFld Reg.TIME_STATUS_HOLDOVER 0 else s

/-- A domain's source is absent: it ceases to be LOCKED and keeps its increment (R287, R288). -/
def State.sourceGone (s : State) (d : Nat) : State :=
  let s := (s.setFld (Reg.TD_STATUS_PRESENT d) 0).lockLost d
  s.setClock d { s.clock d with good := 0, bad := 0 }

/-- Another source chosen (TD_CTRL.SRC). DEDUCED: it is absent until it is heard, and what was known of the old one goes
with it. -/
def State.sourceChanged (s : State) (d : Nat) : State :=
  let s := (s.sourceGone d).setFld (Reg.TD_STATUS_PORT_STATE d) 0
  let s := s.setClock d { s.clock d with master := none, masterChanged := false, slave := none, utc := none }
  if d = s.activeDom then s.showUtc else s

/-- TIME_ADJUST (R284): 0x0401. Domain 2 is the active one. -/
def execTimeAdjust (rq : Rq) (dom inc : Nat) (adj : Int) (s : State) : Result :=
  .next <| s.run rq 0x0401 fun s =>
    let d := if dom = 2 then s.activeDom else dom
    let secAfter := (s.clock d).units + adj * (2 ^ 32 : Nat)
    s.withParams rq 0x0401
      [(16, decide (dom ≤ 2)), (20, decide (inc = 0) || (decide (17162689315 ≤ inc) && decide (inc ≤ 17197049053))),
       (28, decide (adj = 0) || (decide (dom < 2) && decide (d ≠ s.activeDom) && decide (0 ≤ secAfter)))] fun s =>
      if s.firmwareServo d then s.finish rq 0x0401 scResourceBusy
      else
        let s := if inc = 0 then s else s.setInc d inc
        let s := if adj = 0 then s else s.stepDom d adj
        let s := if s.srcOf d = 5 then s.sourceHeard d else s
        s.finish rq 0x0401 scDone

/-- SOURCE_ABSENT (R288): the active domain's source is absent for longer than HOLD_MS: a switch, or holdover. -/
def execSourceAbsent (s : State) : Result :=
  .next <|
    let a := s.activeDom
    let b := 1 - a
    let s := s.sourceGone a
    if s.flag Reg.TIME_CTRL_AUTO && s.flag (Reg.TD_STATUS_LOCKED b) && s.flag (Reg.TD_STATUS_PRESENT b)
        && decide (((s.clock a).units - (s.clock b).units).natAbs < secUnits) then
      (s.switchDom b).log1 0x0D 0x28 a
    else if s.flag Reg.TIME_STATUS_HOLDOVER then s
    else
      (((s.setFld Reg.TIME_STATUS_HOLDOVER 1).setFld Reg.TIME_EVENTS_HOLDOVER 1).timeEvent 7).log1 0x0D 0x28 a

/-- INACTIVE_SOURCE_ABSENT (R287). -/
def execInactiveSourceAbsent (s : State) : Result := .next (s.sourceGone (1 - s.activeDom))

/-- RESIDUAL_SLEW_END (R285): the reference tick at which R reaches 0; no such tick comes next while it stays off 0. -/
def execResidualSlewEnd (s : State) : Result :=
  .next (if s.time.resid ≠ 0 ∧ slewToward s.slewStep s.time.resid = 0 then tick s else s)

/-- A domain's seconds count advances at the next reference tick (R283). -/
def State.secondDue (s : State) (d : Nat) : Bool := ((s.clock d).advance (s.incOf d)).2

/-- DOMAIN_PPS (R283, R292): the reference tick at which a domain's seconds count advances, when the next one is. -/
def execDomainPps (dom : Nat) (s : State) : Result := .next (if dom < 2 ∧ s.secondDue dom then tick s else s)

/-- What a write of TD_ALARM_NS does beside the field: it arms; an alarm for a time already past is late (R292). -/
def State.alarmArmed (s : State) (d : Nat) : State :=
  let c := s.clock d
  let at_ := s.alarmAt d
  let late := decide (at_.1 < c.sec % 2 ^ 32) || (decide (at_.1 = c.sec % 2 ^ 32) && decide (at_.2 < c.ns))
  (s.setFld (Reg.TD_STATUS_ALARM_ARMED d) 1).setClock d { c with alarmLate := late }

/-- ALARM_FIRE (R292): the reference tick at which a domain reaches its armed alarm, when the next one is. -/
def execAlarmFire (dom : Nat) (s : State) : Result :=
  .next (if dom < 2 ∧ s.countTick.alarmReached dom then tick s else s)

/-- PERIODIC (R292): the reference tick at which device time crosses a multiple of PERIOD_US within its second, when the
next one is. -/
def execPeriodic (unit : Nat) (s : State) : Result :=
  .next (if unit < 2 ∧ s.countTick.periodCrossed s.devTime unit then tick s else s)

/-! Measurements (R287, R289). -/

/-- The domain whose source names a port (R289): PTP_A or PTP_B by its port, PTP_BC by either. -/
def State.portDomain (s : State) (port : Nat) : Option Nat :=
  [0, 1].find? fun d => s.srcOf d == 1 + port || s.srcOf d == 3

/-- The domain that stamps a port's messages: Punch when no domain names it (R289). -/
def State.stampDomain (s : State) (port : Nat) : Nat := (s.portDomain port).getD 0

/-- A measurement judged by the firmware servo's lock rule (R287): 8 consecutive within LOCK_NS lock, 4 above unlock.
An inactive domain is stepped once by an offset above 1 us; the active one only has its increment corrected, within the
bounds of R284, so that device time never runs backward (R285). -/
def State.measurement (s : State) (d : Nat) (offset : Int) : State :=
  let s := s.setFldI (Reg.TD_STATUS_OFFSET d) (clampInt (-32768) 32767 offset)
  if !s.firmwareServo d then s
  else
    let s := if d ≠ s.activeDom ∧ 1000 < offset.natAbs then s.stepDom d (-offset) else s
    let s := if s.srcOf d = 0 then s else s.setInc d (clampNat 17162689315 17197049053 (Config.servoIncrement (s.incOf d) offset))
    let c := s.clock d
    let ok := decide (offset.natAbs ≤ s.fld Reg.TIME_LOCK_LOCK_NS)
    let c := if ok then { c with good := min 8 (c.good + 1), bad := 0 } else { c with good := 0, bad := min 4 (c.bad + 1) }
    let s := s.setClock d c
    if c.good = 8 ∧ s.srcOf d ≠ 0 then s.setFld (Reg.TD_STATUS_LOCKED d) 1
    else if c.bad = 4 then s.lockLost d
    else s

end Sys2Proof.Machine
end

