-- ==== Sys2Proof/Machine/Chain.lean ====
section
/-!
DEFINITION. The chain of devices (chapter 15, R356 to R370): Heruf-C packets received and forwarded, discovery, the
leader, ring time, the web position from the ring, the chain record and the loss of a link.
-/
namespace Sys2Proof.Machine

/-! Heruf-C packets received (R357 to R359). -/

/-- The fields of a received packet. -/
structure ChainPkt where
  /-- TYPE -/
  type : Nat
  /-- SRC -/
  src : Nat
  /-- DST -/
  dst : Nat
  /-- HOPS -/
  hops : Nat
  /-- COMPAT -/
  level : Nat
  /-- body -/
  body : List Byte
  deriving DecidableEq, Repr

/-- A received packet whose check codes verify (Table 15-2). -/
def chainRead (b : List Byte) : Option ChainPkt :=
  let body := b.drop 16
  let n := leAt b 4 2
  let crc := if n = 0 then 0 else crc32 body
  if 16 ≤ b.length ∧ n ≤ 4128 ∧ body.length = n ∧ leAt b 12 4 = crc32c (b.take 12) ∧ leAt b 8 4 = crc then
    some ⟨leAt b 0 1, leAt b 1 1 % 8, leAt b 2 1, leAt b 3 1 / 8 % 8, leAt b 6 2, body⟩
  else none

/-- A discarded packet counts. -/
def State.chainBad (s : State) (west : Bool) : State :=
  s.setLink west { s.link west with bad := (s.link west).bad + 1 }

/-- A packet in transit goes on (R358): one hop more, dropped where HOPS would be 0 again; `body` replaces its own. -/
def State.chainRelay (s : State) (west : Bool) (b body : List Byte) : State :=
  let hops := leAt b 3 1 / 8 % 8
  if hops = 7 then s.chainBad west
  else s.chainSendOn (!west) true
    (chainPacket (leAt b 0 1) (leAt b 1 1 / 128) (leAt b 1 1) (leAt b 2 1) (hops + 1) (leAt b 3 1) (leAt b 6 2) body)

/-- The receive buffer of a packet is free again, and the sender hears of it. -/
def State.chainReturn (s : State) (west : Bool) : State :=
  s.chainSend west (chainPacket 0x20 (b2n west) s.chainId 255 0 7 s.level (16#8 :: List.replicate 15 0#8))

/-- The receiver treats a link as down: for another compatibility level (R357), which breaks C4. -/
def State.refuseLink (s : State) (west : Bool) : State :=
  let s := s.setLink west { s.link west with refused := true, queue := [] }
  let s := s.breach 4 0x38 (if west then 80 else 88)
  if west then { s with chain := { s.chain with westMembers := [], ring := false } }
  else { s with chain := { s.chain with eastMembers := [], ring := false } }

/-- A packet of a type as a link delivers it: checked, refused where the levels differ, else handed to `body`. -/
def State.chainTake (s : State) (west : Bool) (type : Nat) (b : List Byte) (body : ChainPkt → State → State) : State :=
  if !s.chainUp west then s
  else match chainRead b with
    | none => s.chainBad west
    | some p =>
      if p.level ≠ s.level then s.refuseLink west
      else if p.type ≠ type then s
      else if type = 0x20 then body p s
      else body p (s.chainReturn west)

/-- For this member, or for all and not its own. -/
def State.forMe (s : State) (p : ChainPkt) : Bool := p.dst == s.chainId || (p.dst == 255 && p.src != s.chainId)

/-- A packet for all is delivered and forwarded, one for another member only forwarded; its originator forwards it no
more. -/
def State.chainSpread (s : State) (west : Bool) (b : List Byte) (p : ChainPkt) (local_ : State → State) : State :=
  let s1 := if s.forMe p then local_ s else s
  if p.src != s.chainId && p.dst != s.chainId then s1.chainRelay west b p.body else s1

/-- CHAIN_CREDIT (R359). -/
def execChainCredit (west : Bool) (bytes : List Byte) (s : State) : Result :=
  .next <| s.chainTake west 0x20 bytes fun p s =>
    (s.setLink west { s.link west with credits := leAt p.body 0 1 }).chainDrain west

/-! Forwarded commands (R94). -/

/-- CMD (R94): checked here from step 9 on, in the forwarded session of its origin. -/
def execCmd (west : Bool) (bytes : List Byte) (s : State) : Result :=
  .next <| s.chainTake west 0x01 bytes fun p s =>
    if p.dst = s.chainId then s.takeForwarded p.src (leAt p.body 0 1) (p.body.drop 4)
    else s.chainRelay west bytes p.body

/-- A returned reply enters the slot of its command; that of a SESSION_OPEN goes to its source as it came. -/
def State.takeReply (s : State) (src sess : Nat) (b : List Byte) : State :=
  let tag := leAt b 2 1
  let flying (f : Forwarded) : Bool := f.dst == src && f.sess == sess && f.tag == tag
  match s.chain.inFlight.find? flying with
  | none => s
  | some f =>
    let s := s.setInFlight (s.chain.inFlight.erase f)
    match f.from_ with
    | some (ip, port) => s.sendDatagram ip port b
    | none =>
      let x := s.slot sess tag
      if x.taken && !x.done then
        s.complete sess tag x.seq x.opcode x.needReply (leAt b 6 1) (b.drop 16) (bitAt (leAt b 3 1) 1)
          (some (leAt b 7 1))
      else s

/-- REPLY (R94). -/
def execReply (west : Bool) (bytes : List Byte) (s : State) : Result :=
  .next <| s.chainTake west 0x02 bytes fun p s =>
    if p.dst = s.chainId then s.takeReply p.src (leAt p.body 0 1) (p.body.drop 4)
    else s.chainRelay west bytes p.body

/-- A forwarded command in flight is answered HW_FAULT, naming entry `n` of the fault log (R94, R368). -/
def State.failFlight (s : State) (n : Nat) (f : Forwarded) : State :=
  match f.from_ with
  | some (ip, port) =>
    s.sendDatagram ip port (replyBytes ⟨0x0030, f.tag, false, false, scHwFault, 0, 255, leBytes 4 n, s.st⟩)
  | none => s.finishSlot f.sess f.tag scHwFault (leBytes 4 n)

/-- Forwarded commands in flight are answered HW_FAULT (R368), naming entry `n` of the fault log. -/
def State.failFlights (s : State) (n : Nat) (gone : Forwarded → Bool) : State :=
  let l := s.chain.inFlight
  let s := s.setInFlight (l.filter fun f => !gone f)
  (l.filter gone).foldl (fun s f => s.failFlight n f) s

/-! Members (R360, R361, R366, R367). -/

/-- The serial number. -/
def State.serial (s : State) : Nat :=
  s.fld Reg.PLAT_SERIAL_HI_SERIAL_HI * 2 ^ 32 + s.fld Reg.PLAT_SERIAL_LO_SERIAL_LO

/-- This member's own entry: HOST while its PCIe link is in L0. -/
def State.ownEntry (s : State) : ChainEntry :=
  { id := s.chainId, host := s.flag Reg.PCIE_LINK_SPEED && s.fld Reg.PCIE_LINK_LPM == 0, level := s.level,
    serial := s.serial }

/-- An entry's bytes (Table 15-3). -/
def ChainEntry.bytes (e : ChainEntry) : List Byte :=
  bytesOf [e.id, b2n e.host] ++ leBytes 2 e.level ++ leBytes 8 e.serial ++ List.replicate 4 0#8

/-- The entries of a TOKEN's body. -/
def tokenEntries (b : List Byte) : List ChainEntry :=
  (List.range (min 8 (leAt b 1 1))).map fun i =>
    let o := 4 + 16 * i
    ⟨leAt b o 1, bitAt (leAt b (o + 1) 1) 0, leAt b (o + 2) 2, leAt b (o + 4) 8⟩

/-- A TOKEN's body. -/
def tokenBody (originator : Nat) (l : List ChainEntry) : List Byte :=
  bytesOf [originator, l.length, 0, 0] ++ l.flatMap ChainEntry.bytes

/-- The members that can be reached: this one and those met either way. -/
def State.members (s : State) : List ChainEntry :=
  s.ownEntry :: (s.chain.eastMembers ++ s.chain.westMembers.filter fun m =>
    !s.chain.eastMembers.any fun e => e.id == m.id)

/-- The mask of some members. -/
def memberMask (l : List ChainEntry) : Nat := l.foldl (fun m e => setBitAt m (e.id % 8)) 0

/-- The leader (R361): the lowest identity with HOST, else the lowest. -/
def leaderOf (l : List ChainEntry) : Nat :=
  let ids (q : List ChainEntry) : Option Nat := (q.map ChainEntry.id).min?
  (ids (l.filter ChainEntry.host)).getD ((ids l).getD 0)

/-- The ends of the line as this member knows them: 0xFF in a ring. -/
def State.lineEnds (s : State) : Nat × Nat :=
  if s.chain.ring then (255, 255)
  else
    (((s.chain.westMembers.getLast?).map ChainEntry.id).getD s.chainId,
      ((s.chain.eastMembers.getLast?).map ChainEntry.id).getD s.chainId)

/-- A chain status is in force; a change of membership, form or ends raises CHAIN_CHANGE. -/
def State.chainStatusSet (s : State) (mask leader form w e epoch : Nat) : State :=
  let c := s.chain
  let s1 := { s with chain := { c with
      mask := mask, leader := leader, form := form, westEnd := w, eastEnd := e, epoch := max c.epoch epoch } }
  if c.mask = mask ∧ c.form = form ∧ c.westEnd = w ∧ c.eastEnd = e then s1 else s1.raise 118

/-- A LEADER packet with the status as this member knows it, one epoch on, in force here too. -/
def State.sendLeader (s : State) : State :=
  let m := memberMask s.members
  let l := leaderOf s.members
  let f := b2n (!s.chain.ring)
  let e := s.lineEnds
  let epoch := s.chain.epoch + 1
  let s := s.chainAll 0x11 5 (bytesOf [l, f, m, 0, e.1, e.2, 0, 0] ++ leBytes 8 epoch)
  s.chainStatusSet m l f e.1 e.2 epoch

/-! The chain record (R364). -/

/-- The strapped lanes. -/
def State.chainLanes (s : State) : List Nat := (List.range 96).filter s.strapped

/-- The chain lanes are raised to a working rate by R338: the one change of their TARGET and RATE. -/
def State.raiseRate (s : State) (code : Nat) : State :=
  let s := s.chainLanes.foldl (fun s l =>
    let s := (s.setFld (Reg.LANE_CFG_RATE l) code).setFld (Reg.LANE_CFG_TARGET l) lnActive
    if s.laneUp l then s.laneAsk l code else s) s
  { s with chain := { s.chain with raised := true } }

/-- The leader's working rate code: that of its record, else 3, which is logged. -/
def State.workingRate (s : State) : Nat × State :=
  let s := s.calVerify 0x50 0
  match s.calContent 0x50 0 with
  | some (c :: _) => (c, s)
  | _ => (3, s.log1 0x40 0x38 0)

/-- The leader sends the chain record to every member in CONFIG chunks and applies it itself. -/
def State.sendRecord (s : State) : State :=
  let r := s.workingRate
  let d := Config.calBytes 0x50 [r.1]
  let s := r.2.chainAll 0x14 5 (bytesOf [0, 0, 1, 0] ++ leBytes 4 0 ++ leBytes 4 d.length ++ d)
  s.raiseRate r.1

/-- Where this member leads by what it knows, it announces a changed chain, with the record for members that join. -/
def State.announce (s : State) : State :=
  let m := memberMask s.members
  let e := s.lineEnds
  if leaderOf s.members = s.chainId ∧
      ¬(s.chain.mask = m ∧ s.chain.leader = s.chainId ∧ s.chain.form = b2n (!s.chain.ring) ∧ s.chain.westEnd = e.1 ∧
        s.chain.eastEnd = e.2) then s.sendLeader.sendRecord
  else s

/-- CONFIG (R364): a chunk of the leader's record; the last one puts its rate into force. -/
def execConfig (west : Bool) (bytes : List Byte) (s : State) : Result :=
  .next <| s.chainTake west 0x14 bytes fun p s =>
    s.chainSpread west bytes p fun s =>
      let o := leAt p.body 4 4
      let old := if o = 0 then [] else s.chain.record
      if p.src ≠ s.chain.leader ∨ o ≠ old.length then s
      else
        let d := old ++ p.body.drop 12
        if bitAt (leAt p.body 2 1) 0 then
          State.raiseRate { s with chain := { s.chain with record := [] } } (Config.chainRate d % 6)
        else { s with chain := { s.chain with record := d } }

/-! Discovery. -/

/-- Discovery starts (R360, R366): a TOKEN with this member's entry in each direction that is up. Levels and serial
numbers are judged anew. -/
def State.discover (s : State) : State :=
  let s := { s with chain := { s.chain with
      discovered := true, ring := false, eastMembers := [], westMembers := []
      west := { s.chain.west with refused := false }, east := { s.chain.east with refused := false } } }
  let s := s.mend 4
  let body := tokenBody s.chainId [s.ownEntry]
  let s := s.chainSendOn false false (chainPacket 0x10 0 s.chainId 255 0 5 s.level body)
  s.chainSendOn true false (chainPacket 0x10 1 s.chainId 255 0 5 s.level body)

/-- A discovery may start (R360): the first one once both links are UP, or 1,400 ms after time 0. -/
def State.mayDiscover (s : State) : Bool :=
  decide (s.chainWidth ≠ 0) &&
    (s.chain.discovered || (s.chainUp true && s.chainUp false) || decide (350000000 ≤ s.now))

/-- CHAIN_DISCOVERY (R360). A member whose links are all down is alone. -/
def execChainDiscovery (s : State) : Result :=
  .next <| if s.mayDiscover then s.discover.announce else s

/-- Of the members met going one way, nearest first, those that are admitted: up to the first of another level, or of
an identity that a lower serial number holds (R366, R367). -/
def admitted (own : ChainEntry) (all : List ChainEntry) : List ChainEntry → List ChainEntry
  | [] => []
  | m :: t =>
    if m.level = own.level ∧ (own :: all).all (fun e => e.id != m.id || decide (m.serial ≤ e.serial)) then
      m :: admitted own all t
    else []

/-- This member holds an identity that a lower serial number holds. -/
def State.isDuplicate (s : State) (l : List ChainEntry) : Bool :=
  l.any fun e => e.id == s.chainId && decide (e.serial < s.serial)

/-- The members met on the side a token came from. -/
def State.learn (s : State) (west : Bool) (l : List ChainEntry) : State :=
  let near := admitted s.ownEntry l (l.reverse.filter fun e => !(e.id == s.chainId && e.serial == s.serial))
  let s := if near.isEmpty && !l.isEmpty then s.setLink west { s.link west with refused := true } else s
  let old := if west then s.chain.westMembers else s.chain.eastMembers
  if near.length ≤ old.length then s
  else if west then { s with chain := { s.chain with westMembers := near } }
  else { s with chain := { s.chain with eastMembers := near } }

/-- TOKEN (R360, R366, R367). -/
def execToken (west : Bool) (bytes : List Byte) (s : State) : Result :=
  .next <| s.chainTake west 0x10 bytes fun p s =>
    let l := tokenEntries p.body
    let own := s.ownEntry
    if leAt p.body 0 1 = s.chainId ∧ (l.headD {}).serial = s.serial then
      let others := l.tail
      if west then
        State.announce { s with chain := { s.chain with
          ring := true, eastMembers := others, westMembers := others.reverse } }
      else
        State.announce { s with chain := { s.chain with eastMembers := others.reverse, westMembers := others } }
    else if s.isDuplicate l then
      let s := s.log1 0x40 0x38 s.chainId
      State.chainStatusSet { s with chain := { s.chain with eastMembers := [], westMembers := [], ring := false } }
        (memberMask [own]) own.id 1 own.id own.id s.chain.epoch
    else
      let s := s.learn west l
      let s := if l.length < 8 then s.chainRelay west bytes (tokenBody (leAt p.body 0 1) (l ++ [own])) else s
      s.announce

/-- LEADER (R361, R369): a lower epoch than the highest seen is discarded. Commands forwarded to a member that has gone,
and all that are in flight when the ring becomes a line, fail (R94, R368); the loss is logged with them. -/
def execLeader (west : Bool) (bytes : List Byte) (s : State) : Result :=
  .next <| s.chainTake west 0x11 bytes fun p s =>
    s.chainSpread west bytes p fun s =>
      let b := p.body
      let epoch := leAt b 8 8
      if epoch < s.chain.epoch ∨ !bitAt (leAt b 2 1) s.chainId then s
      else
        let ring := s.chain.form == 0
        let s := s.chainStatusSet (leAt b 2 1) (leAt b 0 1) (leAt b 1 1) (leAt b 4 1) (leAt b 5 1) epoch
        let gone (f : Forwarded) : Bool := ring && s.chain.form == 1 || !bitAt s.chain.mask f.dst
        if s.chain.inFlight.any gone then
          (s.log1 0x0E 0x38 s.chainId).failFlights (s.fld Reg.NVC_LOG_NEXT) gone
        else s

/-- The reply of CHAIN_STATUS: that of the latest LEADER, or this member alone. -/
def State.chainReply (s : State) : List Byte :=
  let c := s.chain
  if bitAt c.mask s.chainId then bytesOf [c.mask, c.leader, c.form, s.chainId, c.westEnd, c.eastEnd]
  else bytesOf [2 ^ s.chainId, s.chainId, 1, s.chainId, s.chainId, s.chainId]

/-- CHAIN_STATUS (R361): 0x0700. -/
def execChainStatus (rq : Rq) (s : State) : Result :=
  .next <| s.run rq 0x0700 fun s => s.withParams rq 0x0700 [] fun s => s.finish rq 0x0700 scDone s.chainReply

/-- CHAIN_RESCAN (R366): 0x0701, a discovery, and the status of the latest LEADER. -/
def execChainRescan (rq : Rq) (s : State) : Result :=
  .next <| s.run rq 0x0701 fun s =>
    s.withParams rq 0x0701 [] fun s =>
      let s := if s.chainWidth = 0 then s else s.discover.announce
      s.finish rq 0x0701 scDone s.chainReply

/-- The chain lanes that are UP have been raised, or this member is alone. -/
def State.chainReady (s : State) : Bool :=
  (s.chain.eastMembers.isEmpty && s.chain.westMembers.isEmpty) ||
    (s.chain.raised && s.chainLanes.all fun l => !s.laneUp l || decide (s.laneSt l = lnActive))

/-- CHAIN_STANDBY_ENTRY (R364): the last step of boot and the raise are complete. -/
def execChainStandbyEntry (s : State) : Result :=
  .next <|
    if decide (s.st = stBooting) && decide (s.fld Reg.PLAT_BOOT_STEP = 7) && decide (s.chainWidth ≠ 0)
        && s.chain.discovered && s.chainReady then s.enter stStandby
    else s

/-! Ring time (R362). -/

/-- A stamp of a time in ns: seconds bits 47:0, then nanoseconds. -/
def nsStamp (t : Int) : List Byte := leBytes 6 (t.toNat / nsPerSec) ++ leBytes 4 (t.toNat % nsPerSec)

/-- A stamp's time in ns. -/
def stampNs (b : List Byte) (o : Nat) : Int := (leAt b o 6 * nsPerSec + leAt b (o + 6) 4 : Nat)

/-- RING_TIME_SEND (R362): the leader's device time. -/
def execRingTimeSend (s : State) : Result :=
  .next <|
    if s.chainWidth = 0 ∨ s.chain.leader ≠ s.chainId ∨ !bitAt s.chain.mask s.chainId then s
    else
      let t := s.devTime
      let b := stampBytes t ++ leBytes 2 (t.frac / 65536) ++ leBytes 8 0 ++ leBytes 2 s.chain.timeSeq ++
        List.replicate 10 0#8
      let s := s.chainAll 0x12 6 b
      { s with chain := { s.chain with timeSeq := (s.chain.timeSeq + 1) % 65536 } }

/-- A sequence number that follows the last one accepted (R358): first copies only. -/
def seqNew (seen q : Nat) : Bool := seen == 0 || (decide (1 ≤ (q + 65537 - seen) % 65536) && decide ((q + 65537 - seen) % 65536 < 32768))

/-- Ring time in 2^-32 ns as a TIME gives it, with its correction. -/
def ringUnits (b : List Byte) : Int :=
  stampNs b 0 * 2 ^ 32 + (leAt b 10 2 * 65536 : Nat) + signedOf 64 (leAt b 12 8) * 65536

/-- The first ring time sets both domains; later ones are measurements of the domains that follow CHAIN. -/
def State.ringTime (s : State) (u : Int) : State :=
  if !s.chain.timeJoined then
    let s := (s.setClock 0 ((s.clock 0).withUnits u)).setClock 1 ((s.clock 1).withUnits u)
    { s with chain := { s.chain with timeJoined := true } }
  else
    [0, 1].foldl (fun s d =>
      if s.srcOf d = 4 then (s.sourceHeard d).measurement d (((s.clock d).units - u) / (2 ^ 32 : Nat)) else s) s

/-- TIME (R358, R362): corrected by the link's delay, forwarded, used; the hop's delay is measured once for each. -/
def execTime (west : Bool) (bytes : List Byte) (s : State) : Result :=
  .next <| s.chainTake west 0x12 bytes fun p s =>
    let q := leAt p.body 20 2
    if p.src = s.chainId ∨ !seqNew s.chain.timeSeen q then s
    else
      let s := { s with chain := { s.chain with timeSeen := q + 1 } }
      let corr := signedOf 64 (leAt p.body 12 8) + (s.link west).delay
      let body := p.body.take 12 ++ leBytes 8 (unsignedOf 64 corr) ++ p.body.drop 20
      let s := (s.chainRelay west bytes body).ringTime (ringUnits body)
      let t := s.devNs
      let s := s.setLink west { s.link west with reqStamp := t, respStamps := none }
      s.chainSendOn west false
        (chainPacket 0x30 (b2n west) s.chainId 255 0 6 s.level (nsStamp t ++ List.replicate 6 0#8))

/-- DELAY_REQ (R362): answered with its receive stamp; the next DELAY_RESP carries that answer's transmit stamp. -/
def execDelayReq (west : Bool) (bytes : List Byte) (s : State) : Result :=
  .next <| s.chainTake west 0x30 bytes fun _ s =>
    let one (s : State) : State := s.chainSendOn west false
      (chainPacket 0x31 (b2n west) s.chainId 255 0 6 s.level (nsStamp s.devNs ++ List.replicate 6 0#8))
    one (one s)

/-- DELAY_RESP (R362): the receive stamp, then the transmit stamp, which completes the measurement. -/
def execDelayResp (west : Bool) (bytes : List Byte) (s : State) : Result :=
  .next <| s.chainTake west 0x31 bytes fun p s =>
    let x := s.link west
    let t := stampNs p.body 0
    match x.respStamps with
    | none => s.setLink west { x with respStamps := some (t, s.devNs) }
    | some (t2, t4) =>
      s.setLink west { x with respStamps := none, delay := ((t4 - x.reqStamp) - (t - t2)) * 32768 }

/-! Web position (R363). -/

/-- POSITION_SEND (R363): from the member whose input is master. -/
def execPositionSend (s : State) : Result :=
  .next <|
    if s.chainWidth = 0 ∨ s.masterEnc.isNone then s
    else
      let b := leBytes 8 (unsignedOf 64 s.webPos) ++ leBytes 4 (unsignedOf 32 s.webSpeed) ++
        bytesOf [b2n (!s.posSuspect), 0] ++ leBytes 2 s.chain.posSeq ++ stampBytes s.devTime ++ List.replicate 6 0#8
      let s := s.chainAll 0x13 7 b
      { s with chain := { s.chain with posSeq := (s.chain.posSeq + 1) % 65536 } }

/-- A POSITION is in force: the position never falls below what it was. -/
def State.takePosition (s : State) (b : List Byte) : State :=
  let floor := s.chainPos
  State.webMoved { s with chain := { s.chain with
    pos := signedOf 64 (leAt b 0 8), posSpeed := signedOf 32 (leAt b 8 4), posTime := stampNs b 16,
    posIntegrity := bitAt (leAt b 12 1) 0, posFloor := floor, posLive := true } }

/-- POSITION (R358, R363): the first copy of each sequence number. -/
def execPosition (west : Bool) (bytes : List Byte) (s : State) : Result :=
  .next <| s.chainTake west 0x13 bytes fun p s =>
    let q := leAt p.body 14 2
    if p.src = s.chainId ∨ !seqNew s.chain.posSeen q then s
    else
      let c := s.chain
      let s := { s with chain := { c with
          posSeen := q + 1, origins := tabInsert p.src (s.now + 1) (tabErase p.src c.origins) } }
      let s := s.chainRelay west bytes p.body
      if s.posFromRing then s.takePosition p.body else s

/-- POSITION_TIMEOUT (R363): the position holds and its INTEGRITY clears. -/
def execPositionTimeout (s : State) : Result :=
  .next <|
    if s.chain.posLive then
      { s with chain := { s.chain with posFloor := s.chainPos, posLive := false, posIntegrity := false } }
    else s

/-! The loss of a link (R368). -/

/-- CHAIN_LINK_LOSS (R368): the ring is a line, forwarded commands fail, and this end reports it. -/
def execChainLinkLoss (west : Bool) (s : State) : Result :=
  .next <|
    if s.chainWidth = 0 ∨ s.chainUp west then s
    else
      let n := s.fld Reg.NVC_LOG_NEXT
      let s := s.log1 0x0E 0x38 (if west then 80 else 88)
      let s := s.setLink west { s.link west with credits := 16, queue := [], respStamps := none }
      let c := s.chain
      let s := { s with chain := { c with
          ring := false, eastMembers := if west then c.eastMembers else [], westMembers := if west then [] else c.westMembers } }
      (s.failFlights n fun _ => true).sendLeader

end Sys2Proof.Machine
end

