-- ==== Sys2Proof/Machine/Dram.lean ====
section
/-!
DEFINITION. The channels of device memory (chapter 13, R304 to R323): maintenance, throttling, accesses, the scrubber,
thermal emergency, and the writes of D, H and MEM_INJECT. What an access does to the code words stands in Code.lean.
-/
namespace Sys2Proof.Machine

/-- DET of every channel. -/
def State.showDet (s : State) : State :=
  (List.range 64).foldl (fun s c => s.setFlag (Reg.MEM_CH_STATUS_DET c) (s.detCh c)) s

/-! Maintenance (Table 13-2). -/

/-- No other channel of the stack is in calibration or retraining (R313). -/
def State.stackFree (s : State) (c : Nat) : Bool :=
  (List.range 16).all fun i =>
    let k := 16 * (c / 16) + i
    k == c || (tabGet 0 s.dram.steps k == 0 && decide (tabGet 0 s.dram.calEnd k ≤ s.now))

/-- A calibration or retraining of a channel lasts until `t`. -/
def State.calibrating (s : State) (c t : Nat) : State :=
  { s with dram := { s.dram with calEnd := tabPut 0 s.dram.calEnd c t } }

/-- Refresh runs: the device is awake. -/
def State.refreshing (s : State) (c : Nat) : Bool := decide (c < 64) && decide (s.st ≠ stAsleep)

/-- A deterministic channel's refresh timer has come round: 1,950 ns, 487.5 ticks, since its last refresh (R311). -/
def State.refreshDue (s : State) (c : Nat) : Bool :=
  let t := tabGet 0 s.dram.refreshed c
  t == 0 || decide (t + 487 ≤ s.now + 1)

/-- DET_REFRESH (R311, R313): 350 ns, and directly after it a step of 250 ns while a calibration or retraining has steps
left. -/
def execDetRefresh (ch : Nat) (s : State) : Result :=
  .next <|
    if !(s.refreshing ch && s.detCh ch && s.quiet ch && s.refreshDue ch) then s
    else
      let n := tabGet 0 s.dram.steps ch
      let s := (s.closeRows ch none).interrupt ch (if 0 < n then 150 else 88)
      let s := { s with dram := { s.dram with refreshed := tabPut 0 s.dram.refreshed ch (s.now + 1) } }
      if 0 < n then
        State.calibrating { s with dram := { s.dram with steps := tabPut 0 s.dram.steps ch (n - 1) } } ch (s.now + 150)
      else s

/-- BANK_REFRESH (R312): 200 ns of one bank, named by pseudo-channel and bank. -/
def execBankRefresh (ch bank : Nat) (s : State) : Result :=
  .next <|
    if s.refreshing ch && !s.detCh ch && !s.flag (Reg.MEM_CH_STATUS_SELFREF ch) && s.spaced ch then
      (s.closeRows ch (some (bank % 128))).interrupt ch 50 (some (bank % 128))
    else s

/-- A channel has had no access for IDLE_US; one that never had any is idle (R312). -/
def State.idle (s : State) (c : Nat) : Bool :=
  let t := tabGet 0 s.dram.used c
  t == 0 || decide (t + 250 * s.fld Reg.MEM_CTRL_IDLE_US ≤ s.now + 1)

/-- SELF_REFRESH_ENTRY (R312): a general channel without access for IDLE_US. -/
def execSelfRefreshEntry (ch : Nat) (s : State) : Result :=
  .next <|
    if decide (ch < 64) && !s.detCh ch && s.flag Reg.MEM_CTRL_IDLE_US && s.quiet ch && s.idle ch then
      (s.closeRows ch none).setFld (Reg.MEM_CH_STATUS_SELFREF ch) 1
    else s

/-- A calibration (1 step) or retraining (16 steps) of a channel; on a general channel one interruption. -/
def State.calibrate (s : State) (ch steps ticks : Nat) : State :=
  if !(s.refreshing ch && s.stackFree ch) then s
  else if s.detCh ch then
    if tabGet 0 s.dram.steps ch = 0 then { s with dram := { s.dram with steps := tabPut 0 s.dram.steps ch steps } } else s
  else if s.spaced ch then (s.interrupt ch ticks).calibrating ch (s.now + ticks)
  else s

/-- IMPEDANCE_CAL (R313). -/
def execImpedanceCal (ch : Nat) (s : State) : Result := .next (s.calibrate ch 1 63)

/-- RETRAINING (R313). -/
def execRetraining (ch : Nat) (s : State) : Result := .next (s.calibrate ch 16 500)

/-! Throttling (R314). -/

/-- Reference ticks of a channel's refresh window: 32 ms, 16 ms on a hot stack and on deterministic channels. -/
def State.windowTicks (s : State) (c : Nat) : Nat :=
  if s.detCh c || bitAt (s.fld Reg.MEM_STATUS_HOT) (c / 16) then ticksOfMs 16 else ticksOfMs 32

/-- Key of a channel's counter: input, pseudo-channel, bank, row-group of 512 rows. -/
def actKey (c input : Nat) (p : Nat × Nat × Nat) : Nat := (8 * bankKey c p + input) * 512 + p.2.2 / 512

/-- The channel's counters restart with a new window. -/
def State.newWindow (s : State) (c : Nat) : State :=
  let w := s.now / s.windowTicks c
  if tabGet 0 s.dram.window c = w then s
  else { s with dram := { s.dram with
      acts := s.dram.acts.filter (fun e => e.1 / 512 / 8 / 128 != c), window := tabPut 0 s.dram.window c w } }

/-- THROTTLE and THR_INPUT of a channel's arbiter show the earliest throttled input. -/
def State.showThrottle (s : State) (c : Nat) : State :=
  match s.dram.throttled.find? (fun e => e.1 == c) with
  | some e => (s.setFld (Reg.ARB_M_THROTTLE c) 1).setFld (Reg.ARB_M_THR_INPUT c) e.2.1
  | none => s.setFld (Reg.ARB_M_THROTTLE c) 0

/-- The rows beside a group are due a targeted refresh, made at once or held until the spacing of R313 lets it. -/
def State.targeted (s : State) (c input : Nat) (p : Nat × Nat × Nat) : State :=
  if s.spaced c then s.targetRefresh c (bankOf p)
  else { s with dram := { s.dram with targets := s.dram.targets ++ [(c, input, bankOf p)] } }

/-- An input's count for a row-group has reached ACT_TH. Inputs 0 to 5 are throttled for HOLD_US and count anew. -/
def State.throttleEvent (s : State) (c input : Nat) (p : Nat × Nat × Nat) : State :=
  let s := (s.bump Reg.MEM_CNT_THR_THROTTLES).setFld Reg.MEM_EVENTS_THROTTLE 1
  let s := s.log1 0x40 0x30 c 0 [input, p.1, p.2.1, p.2.2 / 512]
  let s := if s.detCh c then s else s.targeted c input p
  if input < 6 then
    State.showThrottle { s with dram := { s.dram with
      acts := tabPut 0 s.dram.acts (actKey c input p) 0
      throttled := s.dram.throttled ++ [(c, input, s.now + 250 * s.fld Reg.MEM_ACT_HOLD_US)] } } c
  else s

/-- A count has reached ACT_TH: inputs 6 and 7, which do not count anew, reach it once in a window. -/
def reachesLimit (input n limit : Nat) : Bool := if input < 6 then decide (limit ≤ n) else n == limit

/-- The access opens its row: an activate unless the row is open. -/
def State.activate (s : State) (c input : Nat) (p : Nat × Nat × Nat) : State :=
  if tabGet 0 s.dram.open_ (bankKey c p) = p.2.2 + 1 then s
  else
    let s := s.newWindow c
    let k := actKey c input p
    let n := tabGet 0 s.dram.acts k + 1
    let s := { s with dram := { s.dram with
        open_ := tabPut 0 s.dram.open_ (bankKey c p) (p.2.2 + 1), acts := tabPut 0 s.dram.acts k n } }
    if reachesLimit input n (s.fld Reg.MEM_ACT_ACT_TH) then s.throttleEvent c input p else s

/-- THROTTLE_RELEASE (R314): HOLD_US has passed; the channel's earliest throttled input may request again. It stays
throttled while a targeted refresh of its own is held (R313). -/
def execThrottleRelease (ch : Nat) (s : State) : Result :=
  .next <|
    match s.dram.throttled.find? (fun e => e.1 == ch) with
    | some e =>
      if s.now < e.2.2 ∨ s.dram.targets.any (fun t => t.1 == ch && t.2.1 == e.2.1) then s
      else State.showThrottle { s with dram := { s.dram with throttled := s.dram.throttled.erase e } } ch
    | none => s

/-! Accesses. -/

/-- The access ends self-refresh, which delays it (R312). -/
def State.leaveSelfRefresh (s : State) (c : Nat) : State :=
  if s.flag (Reg.MEM_CH_STATUS_SELFREF c) then (s.setFld (Reg.MEM_CH_STATUS_SELFREF c) 0).interrupt c 125 else s

/-- An interruption in progress leaves a bank of the channel free: the refresh of one bank blocks that bank (R312). -/
def State.bankFree (s : State) (c bank : Nat) : Bool :=
  s.quiet c || (match tabGet none s.dram.bank c with | some b => b != bank | none => false)

/-- In a stack in emergency a channel starts at most one access group in 200 ns (R315). -/
def State.paced (s : State) (c : Nat) : Bool :=
  let t := tabGet 0 s.dram.used c
  !s.emergency (c / 16) || t == 0 || decide (t + 50 ≤ s.now + 1)

/-- A channel can start an access group of an input now: its bank is free, the pace of an emergency allows it, the input
is not throttled, and an exit from self-refresh keeps the spacing of R313 (R59, R312 to R315). -/
def State.startsAccess (s : State) (c input bank : Nat) : Bool :=
  s.bankFree c bank && s.paced c && (!s.flag (Reg.MEM_CH_STATUS_SELFREF c) || s.spaced c) &&
    !(s.dram.throttled.any fun e => e.1 == c && e.2.1 == input)

/-- MEMORY_ACCESS (R304, R310, R314, R315, R317). An access that its channel cannot start now waits: nothing happens. -/
def execMemoryAccess (acc : MemAccess) (s : State) : Result :=
  .next <|
    let n := match acc.write with | some b => b.length | none => acc.len
    let a := if acc.write.isSome then acc.addr else s.servedAt acc.addr
    let c := s.chanOf a
    let p := placeOf a
    if !(decide (0 < n) && decide (acc.addr + n ≤ memSize) && decide (acc.input < 8) && s.awake
        && s.startsAccess c acc.input (bankOf p)) then s
    else
      let s := acc.upsets.foldl (fun s u => if u.symbol < 18 then s.upset u.word u.symbol (u.pattern % 256) else s) s
      let s := (s.leaveSelfRefresh c).activate c acc.input p
      let s := { s with dram := { s.dram with used := tabPut 0 s.dram.used c (s.now + 1) } }
      match acc.write with
      | some b => s.writeMem acc.input a b
      | none => (wordsOf a n).foldl (fun s w => s.readWord c acc.input w false) s

/-- The scrubber's next read is due: the reads of a pass are spread evenly over the interval that was set when the pass
began (R319). -/
def State.scrubDue (s : State) : Bool :=
  let d := s.dram
  let k := if d.scrub = 0 then 2 ^ 32 else d.scrub
  d.scrubSecs == 0 || decide (k * (d.scrubSecs * 250000000) ≤ (s.now - d.scrubFrom) * 2 ^ 32)

/-- SCRUB_READ (R319): the next code word of the pass; a change of SCRUB_S applies from the next pass. -/
def execScrubRead (s : State) : Result :=
  .next <|
    if !(s.awake && s.scrubDue) then s
    else
      let w := s.dram.scrub
      let s := if w = 0 then
          { s with dram := { s.dram with scrubFrom := s.now, scrubSecs := s.fld Reg.MEM_CTRL_SCRUB_S } }
        else s
      let s := s.readWord (s.chanOf (16 * w)) 0 w true
      let k := w + 1
      let s := { s with dram := { s.dram with scrub := if k < 2 ^ 32 then k else 0 } }
      if k < 2 ^ 32 then s.setFld Reg.MEM_SCRUB_PCT (100 * k / 2 ^ 32)
      else (s.bumpWrap Reg.MEM_SCRUB_PASSES).setFld Reg.MEM_SCRUB_PCT 0

/-! Thermal emergency (R315). -/

/-- MEM_TEMP of a stack. -/
def stackTemp (q : Nat) : Fld := ⟨Reg.MEM_TEMP, 8 * q + 7, 8 * q⟩

/-- A stack's temperature is taken: MEM_TEMP and HOT. -/
def State.setTemp (s : State) (q : Nat) (t : Int) : State :=
  let s := s.setFldI (stackTemp q) t
  let h := s.fld Reg.MEM_STATUS_HOT
  s.setFld Reg.MEM_STATUS_HOT (if 85 < t then setBitAt h q else clearBitAt h q)

/-- STACK_EMERGENCY (R315): at 105 degrees or above, the breach of C6. -/
def execStackEmergency (stack : Nat) (temp : Int) (s : State) : Result :=
  .next <|
    if 4 ≤ stack then s
    else
      let s := s.setTemp stack temp
      let e := s.fld Reg.MEM_STATUS_EMERG
      if temp < 105 ∨ bitAt e stack then s
      else ((s.setFld Reg.MEM_STATUS_EMERG (setBitAt e stack)).setFld Reg.MEM_EVENTS_EMERG 1).breach 6 0x30 stack

/-- STACK_EMERGENCY_END (R315): at 100 degrees or below. -/
def execStackEmergencyEnd (stack : Nat) (temp : Int) (s : State) : Result :=
  .next <|
    if 4 ≤ stack then s
    else
      let s := s.setTemp stack temp
      let e := s.fld Reg.MEM_STATUS_EMERG
      if 100 < temp ∨ !bitAt e stack then s
      else
        let s := s.setFld Reg.MEM_STATUS_EMERG (clearBitAt e stack)
        if s.fld Reg.MEM_STATUS_EMERG = 0 then s.mend 6 else s

/-! Writes. -/

/-- D takes a value: the channels and regions follow it (R305, R306). -/
def State.detWritten (s : State) : State := s.showDet.showStackMax

/-- D and H may be written (R305). -/
def State.layoutOpen (s : State) : Bool := s.inSt [stStandby, stReady] && !s.job.active

/-- MEM_DET_WRITE (R305, R309). -/
def execMemDetWrite (d : Nat) (s : State) : Result :=
  .next <|
    if !(s.layoutOpen && decide (1 ≤ d) && decide (d ≤ 8)) then s
    else
      let s1 := s.setFld Reg.MEM_DET_D d
      if (firstBroken (readsAny [Reg.MEM_DET]) [Reg.MEM_DET] s1).isSome then s else s1.detWritten

/-- MEM_INJECT (R323): SERVICE only. -/
def execMemInject (value : Word) (s : State) : Result :=
  .next <|
    let a := wordBits value 23 19
    let b := wordBits value 18 14
    if s.st = stService ∧ a ≤ 17 ∧ b ≤ 17 ∧ ¬(wordBits value 30 30 = 1 ∧ a = b) then
      s.setReg Reg.MEM_INJECT (setWordBits value 13 8 0)
    else s

end Sys2Proof.Machine
end

