-- ==== Sys2Proof/Machine/Monitor.lean ====
section
/-!
DEFINITION. The 64 monitor units (chapter 16, R384 to R387).
-/
namespace Sys2Proof.Machine

/-- A monitor. -/
def State.mon (s : State) (m : Nat) : Mon := tabGet {} s.mons m

/-- A monitor replaced. -/
def State.setMon (s : State) (m : Nat) (x : Mon) : State := { s with mons := tabPut {} s.mons m x }

/-- A source and instance of Table 16-7; 0 is none. -/
def monSourceOk (source inst : Nat) : Bool :=
  match source with
  | 0x00 => true
  | 0x01 => decide (inst < 16)
  | 0x02 => decide (inst < 48)
  | 0x03 => decide (inst < 16)
  | 0x04 => decide (inst < 800)
  | 0x05 => decide (inst < 64)
  | 0x06 => decide (inst < 96)
  | 0x07 => decide (inst < 5)
  | 0x08 => decide (inst < 48)
  | 0x09 => inst == 0
  | 0x0A => decide (inst < 16)
  | 0x0B => decide (inst < 24)
  | 0x0C => inst == 0
  | 0x0D => inst == 0
  | 0x0E => decide (inst < 16)
  | 0x0F => decide (inst < 2)
  | _ => false

/-- The edges that BIN_MODE gives (R385). -/
def State.monEdges (s : State) (m : Nat) : List Int :=
  let base := s.fldI (Reg.MON_BIN_BASE m)
  match s.fld (Reg.MON_CFG_BIN_MODE m) with
  | 0 => (List.range 31).map fun i => base + (i + 1 : Nat) * (s.fld (Reg.MON_BIN_WIDTH m) : Int)
  | 1 => (List.range 31).map fun i => min 2147483647 (base * (2 ^ i : Nat))
  | _ => (s.mon m).table

/-- The bin of a sample. -/
def binOf (edges : List Int) (v : Int) : Nat := ((List.range 31).filter fun i => decide (edges.getD i 0 ≤ v)).length

/-- A window starts: accumulators clear, and the edges that BIN_MODE and the last load give are in force. -/
def State.monStart (s : State) (m : Nat) : State :=
  let s := s.setMon m { s.mon m with acc := {}, edges := s.monEdges m, since := s.now }
  (s.setFld (Reg.MON_STATUS_BINS_PEND m) 0).setFld (Reg.MON_STATUS_SUM_SAT m) 0

/-- A monitor restarts (R386). -/
def State.monRestart (s : State) (m : Nat) : State :=
  (s.monStart m).setFlag (Reg.MON_STATUS_RUNNING m) (s.flag (Reg.MON_CFG_ENABLE m) && s.flag (Reg.MON_CFG_SOURCE m))

/-- A sample joins the accumulators (R384); whether the sum saturated. -/
def MonAcc.add (a : MonAcc) (edges : List Int) (v : Int) : MonAcc × Bool :=
  let b := binOf edges v
  let t := a.sum + v
  let c := clampInt (-(2 ^ 63 : Nat)) (2 ^ 63 - 1 : Nat) t
  ({ min := if v < a.min then v else a.min, max := if a.max < v then v else a.max, count := Nat.min (idxMod - 1) (a.count + 1), sum := c,
     bins := tabPut 0 a.bins b (Nat.min (idxMod - 1) (tabGet 0 a.bins b + 1)) }, c != t)

/-- LEN, 0 taken as 1. -/
def State.monLen (s : State) (m : Nat) : Nat := max 1 (s.fld (Reg.MON_WIN_LEN m))

/-- A window ends: its results are held, WINDOWS counts, MON_WINDOW is raised, the next starts. -/
def State.monEnd (s : State) (m : Nat) (tag : Option Nat) : State :=
  let s := s.setMon m { s.mon m with held := (s.mon m).acc }
  let s := ((s.bumpWrap (Reg.MON_STATUS_WINDOWS m)).monStart m)
  s.raiseIf (s.flag (Reg.MON_CFG_EV_EN m)) 54 tag

/-- The sample of a source whose quantity the state holds (Table 16-7): Concertina fill, FOM, head temperature, VCORE,
canary speed, capture buffer fill, speed request and web speed. -/
def State.monShown (s : State) (source inst : Nat) : Option Int :=
  match source with
  | 0x03 => some (s.fld (Reg.DOSE_BAR_CONC_FILL inst))
  | 0x06 => some (s.fld (Reg.LANE_STATUS_FOM inst))
  | 0x08 => some (s.fldI (Reg.FIRE_B_ECHO_TEMP inst))
  | 0x09 => some (s.fld Reg.PACE_MEAS_VCORE_MV)
  | 0x0A => some (s.fld (Reg.PACE_CANARY_SPEED inst))
  | 0x0B => some (s.fld (Reg.CAP_STATUS_FILL_PCT inst))
  | 0x0C => some (s.fld Reg.YOYO_REQ_REQ)
  | 0x0D => some s.webSpeed
  | _ => none

/-- The sample that a monitor takes: that of its source (Table 16-7); `value` where the state does not hold it, as a
delay that only a clock outside the model measures. -/
def State.monTaken (s : State) (m : Nat) (value : Int) : Int :=
  (s.monShown (s.fld (Reg.MON_CFG_SOURCE m)) (s.fld (Reg.MON_CFG_INSTANCE m))).getD value

/-- MONITOR_SAMPLE (R384, R386): a window of LEN samples ends with its last. -/
def execMonitorSample (unit : Nat) (value : Int) (s : State) : Result :=
  .next <|
    if !(decide (unit < 64) && s.flag (Reg.MON_STATUS_RUNNING unit)) then s
    else
      let x := s.mon unit
      let r := x.acc.add x.edges (signedOf 32 (unsignedOf 32 (s.monTaken unit value)))
      let s := s.setMon unit { x with acc := r.1 }
      let s := if r.2 then s.setFld (Reg.MON_STATUS_SUM_SAT unit) 1 else s
      if s.fld (Reg.MON_CFG_WIN_MODE unit) = 1 ∧ s.monLen unit ≤ r.1.count then s.monEnd unit none else s

/-- The present window is over (R386): LEN samples, or LEN microseconds of reference ticks. -/
def State.monOver (s : State) (m : Nat) : Bool :=
  match s.fld (Reg.MON_CFG_WIN_MODE m) with
  | 1 => decide (s.monLen m ≤ (s.mon m).acc.count)
  | 2 => decide ((s.mon m).since + 250 * s.monLen m ≤ s.now)
  | _ => false

/-- MONITOR_WINDOW_END (R386). -/
def execMonitorWindowEnd (unit : Nat) (s : State) : Result :=
  .next <|
    if decide (unit < 64) && s.flag (Reg.MON_STATUS_RUNNING unit) && s.monOver unit then s.monEnd unit none else s

/-- A field of MON_CFG as a write leaves it: value 3 of the two modes, and a source outside Table 16-7, are ignored. -/
def State.monCfgWord (s : State) (m : Nat) (v : Word) : Word :=
  let old := s.reg (Reg.MON_CFG m)
  let keep (w : Word) (hi lo : Nat) : Word := setWordBits w hi lo (wordBits old hi lo)
  let w := setWordBits v 15 12 0
  let w := if wordBits v 30 29 = 3 then keep w 30 29 else w
  let w := if wordBits v 28 27 = 3 then keep w 28 27 else w
  if monSourceOk (wordBits v 23 16) (wordBits v 11 0) then w else keep (keep w 23 16) 11 0

/-- A write of MON_CFG 0, MON_WIN 1 or MON_BIN 2 of a monitor, which restarts it (R386). -/
def State.monWrite (s : State) (m reg : Nat) (v : Word) : State :=
  let s := match reg with
    | 0 => s.setReg (Reg.MON_CFG m) (s.monCfgWord m v)
    | 1 => s.setReg (Reg.MON_WIN m) v
    | _ => s.setReg (Reg.MON_BIN m) (if wordBits v 15 0 = 0 then setWordBits v 15 0 (s.fld (Reg.MON_BIN_WIDTH m)) else v)
  s.monRestart m

/-- MONITOR_CONFIG_WRITE (R386). -/
def execMonitorConfigWrite (unit reg : Nat) (value : Word) (s : State) : Result :=
  .next <| if decide (unit < 64) && decide (reg < 3) then
    s.orLater ⟨Reg.MON_CFG unit + 4 * reg, 31, 0⟩ value.toNat fun s => s.monWrite unit reg value else s

/-- A snapshot of a monitor: its running accumulators become its held result (R387). -/
def State.monSnap (s : State) (m : Nat) : State := s.setMon m { s.mon m with held := (s.mon m).acc }

/-- MON_SNAPSHOT_EVENT (R387): the monitors with TRIG_SNAP. -/
def execMonSnapshotEvent (s : State) : Result :=
  .next <|
    (((List.range 64).filter fun m => s.flag (Reg.MON_CFG_TRIG_SNAP m)).foldl State.monSnap s).endTask 75

/-- MON_RESTART (R386): the monitors with TRIG_RESTART. -/
def execMonRestart (s : State) : Result :=
  .next <|
    (((List.range 64).filter fun m => s.flag (Reg.MON_CFG_TRIG_RESTART m)).foldl State.monRestart s).endTask 76

/-- 148 bytes of a held result (Table 04-7, R387). -/
def MonAcc.bytes (a : MonAcc) : List Byte :=
  leBytes 4 (unsignedOf 32 a.min) ++ leBytes 4 (unsignedOf 32 a.max) ++ leBytes 4 a.count ++ leBytes 8 (unsignedOf 64 a.sum) ++
    (List.range 32).flatMap fun i => leBytes 4 (tabGet 0 a.bins i)

/-- MON_SNAPSHOT (R387): 0x0601. -/
def execMonSnapshot (rq : Rq) (mask start : Nat) (s : State) : Result :=
  .next <| s.run rq 0x0601 fun s =>
    s.withParams rq 0x0601 [(24, decide (start < 64))] fun s =>
      let l := (List.range 64).filter (bitAt mask)
      let snaps := l.filter fun m => s.fld (Reg.MON_CFG_WIN_MODE m) == 0 && !s.flag (Reg.MON_CFG_TRIG_SNAP m)
      let s := snaps.foldl State.monSnap s
      let b := (l.filter fun m => decide (start ≤ m)).flatMap fun m => (s.mon m).held.bytes
      let more := decide (4080 < b.length)
      s.finish rq 0x0601 scDone (if more then b.take (4080 / 148 * 148) else b) more

/-- The edges of a bin table. -/
def readEdges (t : List Byte) : List Int := (List.range 31).map fun i => signedOf 32 (leAt t (16 + 4 * i) 4)

/-- The first failing offset of a bin table (R385). -/
def binsBad (t : List Byte) : Option Nat :=
  let e := readEdges t
  firstFail ([(0, decide (t.length = 140))] ++ zerosAt t 0 16 ++
    ((List.range 30).map fun i => (20 + 4 * i, decide (e.getD i 0 < e.getD (i + 1) 0))))

/-- MON_BINS_LOAD (R385): 0x0600; the edges take effect at the next window start. -/
def execMonBinsLoad (rq : Rq) (chunk : Chunk) (s : State) : Result :=
  let m := chunk.inst
  .next <| s.run rq 0x0600 fun s =>
    s.loadChunk rq 0x0600 64 false chunk fun t rep s =>
      match binsBad t with
      | some o => s.reject rq 0x0600 2 0x40 o
      | none =>
        ((s.setMon m { s.mon m with table := readEdges t }).setFld (Reg.MON_STATUS_BINS_PEND m) 1).finish rq 0x0600 scDone rep

end Sys2Proof.Machine
end

