-- ==== Sys2Proof/Machine/Spare.lean ====
section
/-!
DEFINITION. Continuous service (chapter 16, R374 to R383): spare engines, supervisor pairs and HALTED, firmware and
kernel update, the calibration commands and the fault log.
-/
namespace Sys2Proof.Machine

/-! Spare engines (R374, R375). -/

/-- A slot's physical engine replaced. -/
def Cluster.place (x : Cluster) (slot p : Nat) : Cluster :=
  { x with slots := if p = slot then tabErase slot x.slots else tabInsert slot p (tabErase slot x.slots) }

/-- The cluster under kernel rotation. -/
def State.rotating (s : State) (c : Nat) : Bool := s.fld Reg.SPARE_FW_STATE == 5 && s.fld Reg.SPARE_FW_CLUSTER == c

/-- SPARE_CL of a cluster (Table 16-8). -/
def State.spareWord (s : State) (c : Nat) : Nat :=
  let x := s.cluster c
  b2n (decide (x.spare < 17)) * 2 ^ 31 + b2n (s.rotating c) * 2 ^ 30 + b2n (!x.vacant.isEmpty) * 2 ^ 29 +
    x.spare % 32 * 2 ^ 24 + x.failed.getD 0 31 * 2 ^ 19 + x.failed.getD 1 31 * 2 ^ 14 + x.vacant.getD 0 0 * 2 ^ 10 +
    b2n (!x.vacant.isEmpty) * 2 ^ 9 + b2n (!x.oldKernel) * 2 ^ 8 + x.takeovers % 256

/-- SPARE_STATUS: 0x0502. -/
def execSpareStatus (rq : Rq) (s : State) : Result :=
  .next <| s.run rq 0x0502 fun s =>
    s.withParams rq 0x0502 [] fun s =>
      s.finish rq 0x0502 scDone ((List.range 16).flatMap fun c => leBytes 4 (s.spareWord c))

/-- The rotation goes on to the next cluster, or ends (R379). -/
def State.nextRotation (s : State) : State :=
  let c := s.fld Reg.SPARE_FW_CLUSTER
  let s := s.setFld Reg.SPARE_FW_STEPS 0
  if c < 15 then s.setFld Reg.SPARE_FW_CLUSTER (c + 1)
  else (s.setFld Reg.SPARE_FW_CLUSTER 0).setFld Reg.SPARE_FW_STATE 0

/-- The fault log code of a takeover by its cause (Table 16-1): an uncorrectable word is 0x02, a rotation is no fault. -/
def takeoverCode (cause : Nat) : Nat := if cause = 2 then 0x02 else if cause = 4 then 0x40 else 0x01

/-- A takeover is counted, shown, logged and raised. -/
def State.tookOver (s : State) (c slot phys cause : Nat) : State :=
  let x := s.cluster c
  let s := (s.setCluster c { x with takeovers := min 255 (x.takeovers + 1) }).bump Reg.SPARE_CNT_TAKEOVERS
  let s := ((s.setFld Reg.SPARE_LAST_CLUSTER c).setFld Reg.SPARE_LAST_SLOT slot).setFld Reg.SPARE_LAST_PHYS phys
  let s := (s.setFld Reg.SPARE_LAST_CAUSE cause).setFld Reg.SPARE_EVENTS_TAKEOVER 1
  (s.log1 (takeoverCode cause) 0x4A c 0 [slot, phys, cause]).raiseIf (s.flag Reg.SPARE_CTRL_EV_TAKE) 115

/-- The spare takes a failed engine's slot. -/
def State.spareTakes (s : State) (c slot cause : Nat) : State :=
  let x := s.cluster c
  let p := x.phys slot
  let s := s.setCluster c { x.place slot x.spare with spare := 31, failed := x.failed ++ [p] }
  let s := (s.tookOver c slot p cause).showGated
  if s.rotating c then (s.setCluster c { s.cluster c with oldKernel := true }).nextRotation else s

/-- An engine fails whose cluster has no spare left: its slot is vacant (R375). -/
def State.spareExhausted (s : State) (c slot : Nat) : State :=
  let x := s.cluster c
  let p := x.phys slot
  let s := s.setCluster c { x with failed := x.failed ++ [p], vacant := x.vacant ++ [slot] }
  (s.showGated.setFld Reg.SPARE_EVENTS_EXHAUSTED 1).log1 0x20 0x4A c 0 [slot, p]

/-- SPARE_TAKEOVER (R374, R375): by a check failure 1, a memory fault 2 or a self-test fault 3; `blank` says that a
frame was written BLANK. -/
def execSpareTakeover (engine cause : Nat) (blank : Bool) (s : State) : Result :=
  .next <|
    let c := engine / 16
    let slot := engine % 16
    if decide (256 ≤ engine) || (s.cluster c).vacant.contains slot then s
    else
      let s : State := { s with spare := { s.spare with reports := s.spare.reports.erase engine } }
      let s := if cause = 2 then s.bump Reg.MEM_CNT_SRAM_UE else s
      let s := s.locksOfBreak true engine
      let s := if blank then s.bump Reg.SPARE_CNT_BLANK else s
      if (s.cluster c).spare < 17 then s.spareTakes c slot cause else s.spareExhausted c slot

/-! HALTED (R106). -/

/-- The copy of the newest 1,024 entries of the fault log (R383). -/
def State.copyLog (s : State) : State :=
  { s with log := { s.log with copy := s.log.entries.drop (s.log.entries.length - 1024) } }

/-- Every fire line is held idle. -/
def State.fireIdle (s : State) : State :=
  (List.range 48).foldl (fun s k =>
    if (s.board k).high then (s.setBoard k { s.board k with high := false }).emit (.fireLine k false) else s) s

/-- The commands in progress: taken from their queue and not completed. -/
def State.underWay (s : State) : List (Nat × Nat) :=
  s.cmd.sessions.flatMap fun e =>
    (e.2.slots.filter fun x => x.2.taken && !x.2.done && !s.cmd.queue.any (fun q => q.is e.1 x.1)).map fun x => (e.1, x.1)

/-- Every command in progress is answered HW_FAULT (R108), naming an entry of the fault log. -/
def State.failExecuting (s : State) (entry : Nat) : State :=
  let l := s.underWay
  let s : State := { s with cmd := { s.cmd with executing := [], barrier := none } }
  l.foldl (fun s e => s.finishSlot e.1 e.2 scHwFault (leBytes 4 entry)) (s.setFld Reg.PLAT_STATE_BARRIER 0)

/-- Entry to HALTED: fire lines idle, no speed requested, every axis on its emergency ramp, the fault log copied; the
power state is RUN or DOZE (Table 17-5). `n` is the entry of the fault log that tells why. -/
def State.halt (s : State) (n : Nat) : State :=
  let s := ((s.enter stHalted).fireIdle.setReq 0).setFld Reg.SPARE_PSUP_TAKEOVER 0
  let s := (List.range 16).foldl State.axEstop s
  let s := (((s.setFld Reg.PWR_STATUS_PSTATE 0).setFld Reg.PWR_STATUS_WAKING 0).setFld Reg.PWR_STATUS_ENTERING 0).showGated
  let s := { s with pwr := { s.pwr with sleeper := none, waker := none, wakeDue := 0, owed := false } }
  (s.failExecuting n).copyLog

/-! Wake sources (R401, R402). -/

/-- A wake source, as LAST_WAKE codes it: it starts a wake from ASLEEP, is kept while DEEP is being entered, and
changes nothing during a wake. -/
def State.startWake (s : State) (cause : Nat) : State :=
  if s.flag Reg.PWR_STATUS_ENTERING then
    if s.pwr.wakeDue = 0 then { s with pwr := { s.pwr with wakeDue := cause } } else s
  else if s.st = stAsleep ∧ !s.flag Reg.PWR_STATUS_WAKING then
    let s := { s with pwr := { s.pwr with wakeAt := s.now } }
    (s.setFld Reg.PWR_STATUS_WAKING 1).setFld Reg.PWR_STATUS_LAST_WAKE cause
  else s

/-! Firmware (R377, R378). -/

/-- Whether slot B is meant. -/
def slotValid (b : Bool) : Fld := if b then Reg.NVC_SLOT_B_VALID else Reg.NVC_SLOT_A_VALID

/-- A FW_SWITCH has been accepted and has not run through Table 16-3. -/
def State.switching (s : State) : Bool := decide (3 ≤ s.fld Reg.SPARE_FW_STATE)

/-- The idle slot is invalid from the first chunk, and its version and level read 0 (R421). -/
def State.voidSlot (s : State) : State :=
  let b := s.idleB
  let s := ((s.setFld (slotValid b) 0).setFld (slotVersion b) 0).setFld (slotLevel b) 0
  (s.setFld Reg.SPARE_FW_STATE 1).setFld Reg.PLAT_STATE_STAGED 0

/-- A verified image is in the idle slot. -/
def State.fillSlot (s : State) (image : List Byte) : State :=
  let b := s.idleB
  let s := if b then { s with nvc := { s.nvc with imageB := image } } else { s with nvc := { s.nvc with imageA := image } }
  let s := (s.setFld (slotVersion b) (Config.imageVersion image)).setFld (slotLevel b) (Config.imageLevel image)
  ((s.setFld (slotValid b) 1).setFld Reg.SPARE_FW_STATE 2).setFld Reg.PLAT_STATE_STAGED 1

/-- FW_STAGE (R377): 0x0500. -/
def execFwStage (rq : Rq) (chunk : Chunk) (s : State) : Result :=
  .next <| s.run rq 0x0500 fun s =>
    if chunk.offset = 0 ∧ s.switching then s.finish rq 0x0500 scResourceBusy
    else
      let taken := match judgeChunk false (s.staged 0x0500 chunk.inst) chunk with
        | .more _ => true
        | .whole _ => true
        | _ => false
      let first := taken && decide (chunk.offset = 0) && decide (chunk.inst = 0) && (s.reservedAt rq).isNone
      (if first then s.voidSlot else s).loadChunk rq 0x0500 1 false chunk fun t rep s =>
        if Config.signatureOk t then (s.fillSlot t).finish rq 0x0500 scDone rep
        else (s.setFld Reg.SPARE_FW_STATE 0).finish rq 0x0500 scBadCheck

/-- FW_SWITCH (R378): 0x0501, a barrier; it is answered at the handover. -/
def execFwSwitch (rq : Rq) (s : State) : Result :=
  .next <| s.run rq 0x0501 fun s =>
    s.withParams rq 0x0501 [] fun s =>
      let b := s.idleB
      if !s.flag (slotValid b) then s.reject rq 0x0501 2 0x4A
      else if s.chainWidth ≠ 0 ∧ s.fld (slotLevel b) ≠ s.level ∧ s.inSt [stArmed, stPrinting, stPaused] then
        s.reject rq 0x0501 3 0x4A
      else if s.switching then s.finish rq 0x0501 scResourceBusy
      else if !s.flag Reg.SPARE_PSUP_STANDBY_OK then s.finish rq 0x0501 scHwFault (leBytes 4 (s.fld Reg.NVC_LOG_NEXT))
      else
        let s := ((s.pend rq 0x0501).occupy rq .platform).setFld Reg.SPARE_FW_STATE 3
        { s with spare := { s.spare with switch := some ⟨rq.sess, rq.tag⟩ } }

/-- FW_HANDOVER (R378, Table 16-3 step 3). -/
def execFwHandover (s : State) : Result :=
  .next <|
    match s.spare.switch with
    | none => s
    | some w =>
      let s : State := { s with spare := { s.spare with switch := none } }
      let s := (s.runSlot s.idleB).swapPairs.setOldKernels true
      let s := (s.setFld Reg.SPARE_FW_STATE 4).setFld Reg.PLAT_STATE_STAGED 0
      let s := s.raiseIf (s.flag Reg.SPARE_CTRL_EV_FW) 116
      (s.finishSlot w.sess w.tag scDone (leBytes 4 (s.fld Reg.PLAT_FW_VER_VERSION))).vacate w.sess w.tag

/-- FW_FALLBACK_END (Table 16-3, steps 5 to 7): the new slot is active, and the kernels rotate. -/
def execFwFallbackEnd (s : State) : Result :=
  .next <|
    if s.fld Reg.SPARE_FW_STATE = 4 ∧ !s.flag Reg.SPARE_PSUP_TAKEOVER then
      let s := s.setFld Reg.NVC_SLOT_ACTIVE (s.fld Reg.NVC_SLOT_RUNNING)
      ((s.setFld Reg.SPARE_FW_STATE 5).setFld Reg.SPARE_FW_CLUSTER 0).setFld Reg.SPARE_FW_STEPS 0
    else s

/-- A step of the rotation done; after 16 the cluster holds the running image's kernels. -/
def State.rotationDone (s : State) (c : Nat) : State :=
  let n := s.fld Reg.SPARE_FW_STEPS + 1
  if n < 16 then s.setFld Reg.SPARE_FW_STEPS n
  else (s.setCluster c { s.cluster c with oldKernel := false }).nextRotation

/-- KERNEL_ROTATION_STEP (R379): the spare takes the next slot, and the engine released is the spare. A cluster without
a spare keeps its kernels. -/
def execKernelRotationStep (s : State) : Result :=
  .next <|
    if s.fld Reg.SPARE_FW_STATE ≠ 5 then s
    else
      let c := s.fld Reg.SPARE_FW_CLUSTER
      let slot := s.fld Reg.SPARE_FW_STEPS
      let x := s.cluster c
      if 17 ≤ x.spare then s.nextRotation
      else
        let p := x.phys slot
        let s := s.locksOfBreak true (16 * c + slot)
        ((s.setCluster c { x.place slot x.spare with spare := p }).tookOver c slot p 4).rotationDone c

/-! Supervisor pairs (R376). -/

/-- A FW_SWITCH that has not handed over ends, answered HW_FAULT (R378). -/
def State.dropSwitch (s : State) (entry : Nat) : State :=
  match s.spare.switch with
  | none => s
  | some w =>
    let s := State.setFld { s with spare := { s.spare with switch := none } } Reg.SPARE_FW_STATE 2
    (s.finishSlot w.sess w.tag scHwFault (leBytes 4 entry)).vacate w.sess w.tag

/-- No pair is left: the device halts, but for one that is BOOTING, which has no way to HALTED (Table 04-8). -/
def State.noPair (s : State) (n : Nat) : State :=
  let s := s.log1 0x23 0x4A 0
  if s.st = stBooting then s else s.halt n

/-- The counter of what showed a supervisor fault: a comparison, or an uncorrectable SRAM error. -/
def State.countPairFault (s : State) (cause : Nat) : State :=
  match cause with
  | 1 => s.bump Reg.SPARE_PSUP_MISMATCH
  | 2 => s.bump Reg.MEM_CNT_SRAM_UE
  | _ => s

/-- SUPERVISOR_TAKEOVER (R376, R378): a lockstep mismatch 1, an uncorrectable word 2 or an expired watchdog 3 of the
active pair, or of the standby pair. While a takeover is in progress the active pair is the faulted one, and commands
that arrive read PENDING. In ASLEEP the standby pair, which is off, takes over after the wake (R401). -/
def execSupervisorTakeover (cause : Nat) (standby : Bool) (s : State) : Result :=
  .next <|
    let n := s.fld Reg.NVC_LOG_NEXT
    let s := s.countPairFault cause
    let ok := s.flag Reg.SPARE_PSUP_STANDBY_OK
    let taking := s.flag Reg.SPARE_PSUP_TAKEOVER
    if standby then
      if ok && taking then s.noPair n
      else if ok then ((s.log1 0x0A 0x4A (1 - s.fld Reg.SPARE_PSUP_ACTIVE)).dropSwitch n).testPair
      else s
    else if taking then s
    else if !ok then s.noPair n
    else if s.st = stAsleep then
      ({ s.log1 0x0A 0x4A (s.fld Reg.SPARE_PSUP_ACTIVE) with pwr := { s.pwr with owed := true } } : State).startWake 5
    else ((s.log1 0x0A 0x4A (s.fld Reg.SPARE_PSUP_ACTIVE)).dropSwitch n).pairFaults

/-- FAULTED_PAIR_TEST_DONE (R376). -/
def execFaultedPairTestDone (pass : Bool) (s : State) : Result :=
  .next <|
    if !s.spare.testing then s
    else
      let s : State := { s with spare := { s.spare with testing := false } }
      if pass then (s.setFld Reg.SPARE_PSUP_STANDBY_OK 1).bump Reg.SPARE_PSUP_TRANSIENT else s

/-! Calibration commands (R382). -/

/-- This device leads a chain. -/
def State.leads (s : State) : Bool :=
  decide (s.chainWidth ≠ 0) && bitAt s.chain.mask s.chainId && s.chain.leader == s.chainId

/-- A new working rate: the record, and the rate change of R338 on every member. -/
def State.calRate (s : State) (code : Nat) : State := (s.calWrite 0x50 0 [code] true).sendRecord

/-- CAL_RUN (R382): 0x0503. -/
def execCalRun (rq : Rq) (kind inst : Nat) (s : State) : Result :=
  .next <| s.run rq 0x0503 fun s =>
    let camera := (kind == 0x20 || kind == 0x21) && decide (inst < 24)
    let rate := kind == 0x50 && s.leads
    s.withParams rq 0x0503 [(16, camera || rate), (17, kind != 0x50 || decide (inst ≤ 5))] fun s =>
      if camera then s.startCal rq kind inst else (s.calRate inst).finish rq 0x0503 scDone

/-- Whole items of `n` bytes from a list, within 4,080 bytes, and whether some are left (R87). -/
def partialOf (n : Nat) (b : List Byte) : List Byte × Bool :=
  if b.length ≤ 4080 then (b, false) else (b.take (4080 / n * n), true)

/-- CAL_READ (R382): 0x0504. -/
def execCalRead (rq : Rq) (kind inst start : Nat) (s : State) : Result :=
  .next <| s.run rq 0x0504 fun s =>
    s.withParams rq 0x0504 [(16, calKnown kind inst && (s.calNewest kind inst).isSome)] fun s =>
      let s := s.calVerify kind inst
      let r := partialOf 1 ((calRecord kind inst ((s.calNewest kind inst).getD {})).drop start)
      s.finish rq 0x0504 scDone r.1 r.2

/-! Fault log (R383). -/

/-- The bytes of an entry (Table 16-6). -/
def LogEntry.bytes (e : LogEntry) : List Byte :=
  leBytes 4 e.num ++ bytesOf [e.code, e.block] ++ leBytes 2 e.inst ++ leBytes 6 e.sec ++ leBytes 4 e.ns ++
    bytesOf [e.dom + 2 * b2n e.restored, e.cond] ++ (List.range 12).map (Config.logDetail e.code e.block e.detail)

/-- FAULT_LOG_READ (R383): 0x0505, from the first entry asked for, or the oldest held. -/
def execFaultLogRead (rq : Rq) (first : Nat) (s : State) : Result :=
  .next <| s.run rq 0x0505 fun s =>
    s.withParams rq 0x0505 [] fun s =>
      let r := partialOf 32 ((s.log.entries.filter fun e => decide (first ≤ e.num)).flatMap LogEntry.bytes)
      s.finish rq 0x0505 scDone r.1 r.2

/-- FAULT_LOG_COPY (R383). -/
def execFaultLogCopy (s : State) : Result := .next s.copyLog

end Sys2Proof.Machine
end

