-- ==== Sys2Proof/Machine/Power.lean ====
section
/-!
DEFINITION. Start, supply, SERVICE, DOZE and DEEP (chapters 15, 17 and 18): the boot of Table 15-1, the supply monitor,
regulator phases, zone lines, the power states and the management port.
-/
namespace Sys2Proof.Machine

/-! What outlives a reset. -/

/-- The fields that the non-volatile die keeps: the image slots, the store's figures, the number of the next log entry
(R383), the count of thermal shutdowns, and the provisioned fields (R421). -/
def nvFields : List Fld :=
  [Reg.NVC_SLOT_ACTIVE, Reg.NVC_SLOT_A_VALID, Reg.NVC_SLOT_B_VALID, Reg.NVC_VER_A_VERSION, Reg.NVC_VER_B_VERSION,
   Reg.NVC_COMPAT_LEVEL_A, Reg.NVC_COMPAT_LEVEL_B, Reg.NVC_WEAR_WORST, Reg.NVC_USED_KIB, Reg.NVC_LOG_NEXT,
   Reg.PWR_THERM_TRIPS, Reg.PLAT_ID_STEP, Reg.PLAT_SERIAL_LO_SERIAL_LO, Reg.PLAT_SERIAL_HI_SERIAL_HI,
   Reg.PCIE_ID_DEVICE, Reg.PCIE_ID_VENDOR, Reg.PCIE_SUBSYS_SUBSYS, Reg.PCIE_SUBSYS_SUBVENDOR, Reg.PCIE_REV_REVID,
   Reg.ETH_MAC_LO_MAC_LO 0, Reg.ETH_MAC_HI_MAC_HI 0, Reg.ETH_MAC_LO_MAC_LO 1, Reg.ETH_MAC_HI_MAC_HI 1]

/-- What lasts until the next power-on, whatever resets come: the disabled phases (R393). -/
def phaseFields : List Fld := [Reg.PWR_PHASE_CORE_FAIL, Reg.PWR_PHASE_MID_FAIL, Reg.PWR_STATUS_DERATED]

/-- The device at time 0 (R106, R353, R420): registers at their Reset values, everything volatile lost, what the
non-volatile die holds kept, the fire lines idle, every ball as an unpowered one. -/
def State.cold (s : State) : State :=
  let s := s.fireIdle
  let t : State :=
    { State.reset with
      pending := s.pending, outbox := s.outbox, fresh := s.fresh, nvc := s.nvc,
      log := { copy := s.log.copy }, cmd := { keys := s.cmd.keys } }
  nvFields.foldl (fun t f => t.setFld f (s.fld f)) t

/-! Regulator phases (R393). -/

/-- Disabled phases of a regulator: VCORE 0 to 31, VMID 32 to 39. -/
def State.phaseCount (s : State) (mid : Bool) : Nat :=
  let v := if mid then s.fld Reg.PWR_PHASE_MID_FAIL else s.fld Reg.PWR_PHASE_CORE_FAIL
  ((List.range 32).filter (bitAt v)).length

/-- The field and bit that show a phase. -/
def phaseFld (p : Nat) : Fld × Nat := if p < 32 then (Reg.PWR_PHASE_CORE_FAIL, p) else (Reg.PWR_PHASE_MID_FAIL, p - 32)

/-- A phase is disabled; the second of a regulator derates it. -/
def State.phaseFail (s : State) (p : Nat) : State :=
  let f := phaseFld p
  if 40 ≤ p ∨ bitAt (s.fld f.1) f.2 then s
  else
    let s := (s.setFld f.1 (setBitAt (s.fld f.1) f.2)).setFld Reg.PWR_EVENTS_PHASE 1
    let s := s.log1 0x40 0x48 p 0 [p]
    if s.phaseCount (decide (32 ≤ p)) = 2 then
      (s.setFld Reg.PWR_STATUS_DERATED 1).setFld Reg.PWR_EVENTS_DERATED 1
    else s

/-- PHASE_DISABLE (R393). -/
def execPhaseDisable (phase : Nat) (s : State) : Result := .next (s.phaseFail phase)

/-! Boot (Table 15-1, R353 to R356). -/

/-- A step of Table 15-1 is complete. -/
def State.bootStep (s : State) (n : Nat) : State := s.setFld Reg.PLAT_BOOT_STEP n

/-- An image slot verified; a failed one is logged and no longer valid. -/
def State.verifySlot (s : State) (bad : List Nat) (b : Bool) : Bool × State :=
  if s.flag (slotValid b) && !bad.contains (b2n b) then (true, s)
  else (false, (s.setFld (slotValid b) 0).log1 0x10 0x49 (b2n b))

/-- The image that runs (R354): the active slot's, else the other's; none when both fail. -/
def State.bootImage (s : State) (bad : List Nat) : Bool × State :=
  let a := s.flag Reg.NVC_SLOT_ACTIVE
  let r := s.verifySlot bad a
  if r.1 then (true, r.2.runSlot a)
  else
    let q := r.2.verifySlot bad (!a)
    if q.1 then (true, (q.2.runSlot (!a)).setFld Reg.NVC_SLOT_FALLBACK 1) else (false, q.2)

/-- A physical engine that fails self-test (R10, R355, R374): the spare takes its slot; a spare that fails is no spare;
with none left the slot is vacant. -/
def State.selfTestFail (s : State) (e : Nat) : State :=
  let c := e / 17
  let p := e % 17
  let x := s.cluster c
  if 272 ≤ e ∨ x.failed.contains p then s
  else if p = 16 then (s.setCluster c { x with spare := 31, failed := x.failed ++ [p] }).log1 0x01 0x4A c 0 [p]
  else if x.spare < 17 then s.spareTakes c p 3
  else s.spareExhausted c p

/-- The engines' self-test: spares first. -/
def State.selfTest (s : State) (failed : List Nat) : State :=
  ((failed.filter fun e => e % 17 == 16) ++ failed.filter fun e => e % 17 != 16).foldl State.selfTestFail s

/-- More engines of a cluster have failed than its spare can replace. -/
def State.uncovered (s : State) : Bool := (List.range 16).any fun c => !(s.cluster c).vacant.isEmpty

/-- The strapped chain lanes (R356): east ROLE 2, west ROLE 3, RATE 3, TARGET TRICKLE; they train. -/
def State.strapLanes (s : State) : State :=
  let one (s : State) (l role : Nat) : State :=
    (((s.setFld (Reg.LANE_CFG_ROLE l) role).setFld (Reg.LANE_CFG_RATE l) 3).setFld (Reg.LANE_CFG_TARGET l)
      lnTrickle).laneToward l
  (List.range s.chainWidth).foldl (fun s i => one (one s (88 + i) 2) (80 + i) 3) s

/-- The calibration store read: every record's copies are verified (R381). -/
def State.readStore (s : State) : State :=
  s.nvc.cal.foldl (fun s e => s.calVerify (e.1 / 256) (e.1 % 256)) s

/-- The last step: STANDBY without a chain strap; a chain member joins first (R364). -/
def State.bootEnd (s : State) (ms : Nat) : State :=
  let s := (s.bootStep 7).setFld Reg.PLAT_BOOT_BOOT_MS (min 65535 ms)
  if s.chainWidth = 0 then s.enter stStandby else s

/-- Steps 4 to 7 of Table 15-1 with the three ends in HALTED of R355. -/
def State.bootTrain (s : State) (env : BootEnv) : State :=
  let n := s.fld Reg.NVC_LOG_NEXT
  let bad := env.badDram.filter (decide <| · < 64)
  let s := bad.foldl (fun s c => s.log1 0x22 0x30 c) s.showDet
  if !bad.isEmpty then s.halt n
  else
    let n := s.fld Reg.NVC_LOG_NEXT
    let s := (s.bootStep 4).selfTest env.failed
    if s.uncovered then s.halt n
    else
      let s := ((s.bootStep 5).strapLanes.bootStep 6).readStore
      if (s.calNewest 0x01 0).isNone then (s.log1 0x40 0x49 (calKey 0x01 0)).halt (s.fld Reg.NVC_LOG_NEXT)
      else s.bootEnd env.bootMs

/-- The fault log as the non-volatile die gives it back (R383). -/
def State.restoreLog (s : State) : State :=
  { s with log := { s.log with entries := s.log.copy.map fun e => { e with restored := true } } }

/-- RESET_N is no power-on: disabled phases stay so (R393), and the time in DEEP since power-on goes on (Table 17-9). -/
def State.keepSupply (s t : State) : State :=
  let t := phaseFields.foldl (fun t f => t.setFld f (s.fld f)) t
  { t with pwr := { t.pwr with deep := s.pwr.deep + if s.awake then 0 else s.now - s.stateSince } }

/-- Boot from time 0; `off` is LAST_OFF, and `logged` tells that a shutdown by R389 came before. -/
def State.boot (s : State) (env : BootEnv) (off : Nat) (logged : Bool) : State :=
  let s := (if off = 5 then s.keepSupply s.cold else s.cold).restoreLog
  let s := (s.setFld Reg.PLAT_STRAPS_ID (env.chainId % 8)).setFld Reg.PLAT_STRAPS_WIDTH (env.chainW % 4)
  let s := (s.setFld Reg.PWR_STATUS_LAST_OFF off).showGated
  let s := if logged then (s.setFld Reg.PWR_EVENTS_OFF 1).log1 0x40 0x48 0 0 [off] else s
  let n := s.fld Reg.NVC_LOG_NEXT
  let r := (s.bootStep 1).bootImage env.badSlots
  if !r.1 then r.2.halt n
  else ((env.badPhases.foldl State.phaseFail (r.2.bootStep 2)).bootStep 3).bootTrain env

/-- DEVICE_RESET (R106, R353): power-on, or RESET_N, which does nothing to a device that is shut down. -/
def execDeviceReset (cause : ResetCause) (env : BootEnv) (s : State) : Result :=
  .next <|
    match cause with
    | .powerOn => s.boot env 0 false
    | .resetN => if s.pwr.off.isSome then s else s.boot env 5 false

/-! The supply monitor (R389, R391). -/

/-- SUPPLY_SHUTDOWN (R389): 1 VIN low, 2 VIN high, 3 die too hot, 4 stack too hot. -/
def execSupplyShutdown (cause : Nat) (s : State) : Result :=
  .next <|
    if s.pwr.off.isSome ∨ cause = 0 ∨ 4 < cause then s
    else
      let s := if 3 ≤ cause then s.bump Reg.PWR_THERM_TRIPS else s
      { s.cold with pwr := { off := some cause } }

/-- SUPPLY_RESTART (R389): a power-on with the latched cause. -/
def execSupplyRestart (env : BootEnv) (s : State) : Result :=
  .next <|
    match s.pwr.off with
    | some c => s.boot env c true
    | none => s

/-- REVERSE_BLOCK (R391): the switch opens; no current leaves VIN. -/
def execReverseBlock (s : State) : Result := .next { s with pwr := { s.pwr with blocked := true } }

/-! Zone lines (R396). -/

/-- Lines of a zone group (Table 17-4). -/
def zoneLines (g : Nat) : Nat := [32, 32, 8, 8].getD g 0

/-- ZONE_FAULT (R396, R401): it may wake the device. -/
def execZoneFault (group line : Nat) (s : State) : Result :=
  .next <|
    if zoneLines group ≤ line then s
    else
      let s := s.setFld Reg.PWR_ZONE_FAULT (setBitAt (s.fld Reg.PWR_ZONE_FAULT) group)
      let s := s.setFld Reg.PWR_ZONE_ACTIVE (setBitAt (s.fld Reg.PWR_ZONE_ACTIVE) group)
      let s := ((s.setFld Reg.PWR_ZONE_GROUP group).setFld Reg.PWR_ZONE_LINE line).setFld Reg.PWR_EVENTS_ZONE 1
      let s := (s.log1 0x40 0x48 group 0 [group, line]).raiseIf (s.flag Reg.PWR_CTRL_EV_ZONE) 119
      if s.flag Reg.PWR_CTRL_WAKE_ZONE then s.startWake 4 else s

/-! SERVICE (R106). -/

/-- SERVICE_ENTER: 0x0050. -/
def execServiceEnter (rq : Rq) (s : State) : Result :=
  .next <| s.run rq 0x0050 fun s =>
    s.withParams rq 0x0050 [] fun s => (s.enter stService).finish rq 0x0050 scDone

/-- SERVICE_EXIT: 0x0051. -/
def execServiceExit (rq : Rq) (s : State) : Result :=
  .next <| s.run rq 0x0051 fun s =>
    s.withParams rq 0x0051 [] fun s => s.back.finish rq 0x0051 scDone

/-! DOZE (R397, R398). -/

/-- ENGINE_DOZE (R398): an idle engine of an assigned half cluster is gated. -/
def execEngineDoze (engine : Nat) (s : State) : Result :=
  .next <|
    let h := engine / 8
    if decide (engine < 256) && s.inSt [stStandby, stReady, stService, stHalted] && s.flag Reg.PWR_CTRL_DOZE_EN
        && s.half h != 2 && !s.dozes engine && !(s.cluster (engine / 16)).vacant.contains (engine % 16) then
      let s := if s.halfDozes h then s else s.bump Reg.PWR_CNT_DOZES
      State.showGated { s with spare := { s.spare with dozing := tabPut false s.spare.dozing engine true } }
    else s

/-- A half cluster may be powered up: at most one every 4 us (R398). -/
def State.mayPowerUp (s : State) (h : Nat) : Bool :=
  match s.spare.powered with
  | some (half, t) => half == h || decide (t + 1000 ≤ s.now)
  | none => true

/-- ENGINE_UNDOZE (R398): work reaches a gated engine. -/
def execEngineUndoze (engine : Nat) (s : State) : Result :=
  .next <|
    if s.dozes engine && s.mayPowerUp (engine / 8) then
      State.showGated { s with spare := { s.spare with
        dozing := tabPut false s.spare.dozing engine false, powered := some (engine / 8, s.now) } }
    else s

/-! DEEP (R399 to R402). -/

/-- What keeps SLEEP from starting (R399). -/
def State.sleepBusy (s : State) : Bool :=
  (List.range 16).any (fun a => [axMoving, axHoming, axFollow].contains (s.axState a))
    || (List.range 64).any s.chActive
    || s.ingest.pages.any (fun e => e.2.active) || !s.job.starts.isEmpty
    || (List.range 24).any (fun n => (s.cam n).run.isSome)
    || s.fld Reg.SPARE_FW_STATE == 1 || s.switching

/-- SLEEP (R399): 0x0052, a barrier; answered when the device is ASLEEP. -/
def execSleep (rq : Rq) (s : State) : Result :=
  .next <| s.run rq 0x0052 fun s =>
    s.withParams rq 0x0052 [] fun s =>
      if s.sleepBusy then s.finish rq 0x0052 scResourceBusy
      else
        let s := ((s.pend rq 0x0052).occupy rq .platform).setFld Reg.PWR_STATUS_ENTERING 1
        let s := s.setFld Reg.PLAT_STATE_BARRIER 1
        { s with
          cmd := { s.cmd with barrier := some (rq.sess, rq.tag) },
          pwr := { s.pwr with sleeper := some (rq.sess, rq.tag), wakeDue := 0 } }

/-- Step 1: camera ports close their open frames as PARTIAL and keep ENABLE. -/
def State.camerasDeep (s : State) : State :=
  (List.range 24).foldl (fun s n =>
    let s := s.setCam n { s.cam n with fsync := false }
    if (s.cam n).openFrame.isSome then s.closeFrame n true else s) s

/-- The enable output of an axis whose state makes it active: inactive in DEEP, as its state says otherwise (R273, R399). -/
def State.axOutput (active : Bool) (s : State) (a : Nat) : State :=
  if axEnOut (s.axState a) then s.emit (.axisEnable a active) else s

/-- Step 2: the axis outputs go inactive; every axis keeps its state and clears HOMED. -/
def State.axesDeep (s : State) : State :=
  (List.range 16).foldl (fun s a => (s.axOutput false a).setFld (Reg.AX_STATUS_HOMED a) 0) s

/-- The axis outputs follow their states again. -/
def State.axesWake (s : State) : State := (List.range 16).foldl (State.axOutput true) s

/-- An Ethernet port whose link goes down. -/
def State.ethDown (s : State) (p : Nat) : State :=
  ((s.setFld (Reg.ETH_STATUS_LINK p) 0).setFld (Reg.ETH_STATUS_AN_DONE p) 0).setFld (Reg.ETH_STATUS_FEC_LOCK p) 0

/-- The port that stays in DEEP already runs 1000BASE-X with auto-negotiation. -/
def State.ethStays (s : State) (p : Nat) : Bool :=
  s.fld (Reg.ETH_CTRL_DEEP_PORT 0) == p && s.fld (Reg.ETH_CTRL_MODE p) == 2 && s.flag (Reg.ETH_CTRL_AN_EN p)

/-- R352, at entry and at wake: links come back by negotiation. -/
def State.ethChange (s : State) : State := [0, 1].foldl (fun s p => if s.ethStays p then s else s.ethDown p) s

/-- A domain's source survives DEEP (R293); FREE has none to lose. -/
def State.sourceSurvives (s : State) (d : Nat) : Bool :=
  match s.srcOf d with
  | 1 => s.fld (Reg.ETH_CTRL_DEEP_PORT 0) == 0
  | 2 => s.fld (Reg.ETH_CTRL_DEEP_PORT 0) == 1
  | 3 => false
  | _ => true

/-- Sources that do not survive go absent. -/
def State.sourcesDeep (s : State) : State :=
  [0, 1].foldl (fun s d => if s.sourceSurvives d then s else s.sourceGone d) s

/-- Every DRAM channel enters or leaves self-refresh. -/
def State.dramDeep (s : State) (enter : Bool) : State :=
  (List.range 64).foldl (fun s c =>
    if enter then (s.closeRows c none).setFld (Reg.MEM_CH_STATUS_SELFREF c) 1 else s.leaveSelfRefresh c) s

/-- The sideband masks the requesters of the quadrants, which are off in DEEP; wait counters restart at 0 (R66). -/
def State.maskAll (s : State) (v : Nat) : State :=
  let s := (List.range 16).foldl (fun s j => s.setFld (Reg.ARB_J_CTRL_MASKED j) v) s
  let s := (List.range 64).foldl (fun s m => s.setFld (Reg.ARB_M_MASKED m) v) s
  { s with arbs := s.arbs.foldl (fun t e => tabPut {} t e.1 { e.2 with count := [], forced := [] }) s.arbs }

/-- The steps of R399. -/
def State.enterDeep (s : State) : State :=
  let s := s.camerasDeep.axesDeep.lanesDeep.ethChange
  let r := s.draw
  let s := if Config.hostAspm r.1 then r.2.setFld Reg.PCIE_LINK_LPM 3 else r.2
  let s := ((s.sourcesDeep.dramDeep true).maskAll 255).bump Reg.PWR_CNT_SLEEPS
  let s := (s.setFld Reg.PWR_STATUS_ENTERING 0).setFld Reg.PWR_STATUS_PSTATE 2
  s.showCanaries.maskBreaks.enter stAsleep

/-- SLEEP_ENTRY_COMPLETE (R399): ASLEEP is reached and SLEEP answered DONE; a wake source that came during the entry
starts the wake at once (R402). -/
def execSleepEntryComplete (s : State) : Result :=
  .next <|
    if !s.flag Reg.PWR_STATUS_ENTERING then s
    else
      let due := s.pwr.wakeDue
      let by_ := s.pwr.sleeper
      let s := s.enterDeep
      let s := { s with pwr := { s.pwr with sleeper := none, wakeDue := 0 } }
      let s := match by_ with
        | some w => (s.finishSlot w.1 w.2 scDone).vacate w.1 w.2
        | none => s
      if due = 0 then s else s.startWake due

/-- WAKE (R401): 0x0053, answered when the state is reached. -/
def execWake (rq : Rq) (s : State) : Result :=
  .next <| s.run rq 0x0053 fun s =>
    s.withParams rq 0x0053 [] fun s =>
      let s := ((s.pend rq 0x0053).occupy rq .platform).startWake 1
      { s with pwr := { s.pwr with waker := some (rq.sess, rq.tag) } }

/-- WAKE_PIN (R401). -/
def execWakePin (s : State) : Result := .next <| if s.flag Reg.PWR_CTRL_WAKE_PIN then s.startWake 2 else s

/-- WAKE_EVENT (R401): an event at consumer WAKE; without WAKE_EVT its task ends at once. -/
def execWakeEvent (s : State) : Result :=
  .next <| if s.flag Reg.PWR_CTRL_WAKE_EVT then s.startWake 3 else s.endTask 56

/-- The steps of Table 17-7: everything is powered again and the device is in the state it was entered from. -/
def State.leaveDeep (s : State) : State :=
  let spent := s.now - s.stateSince
  let t := min 65535 ((s.now - s.pwr.wakeAt) / ticksOfMs 1)
  let s := { s with pwr := { s.pwr with deep := s.pwr.deep + spent, waker := none, owed := false, metered := false } }
  let s := (s.setFld Reg.PWR_STATUS_PSTATE 0).setFld Reg.PWR_STATUS_WAKING 0
  let s := (s.setFld Reg.PACE_STATUS_TARGET_MV 800).showRamp.setFld Reg.PCIE_LINK_LPM 0
  let s := (((s.dramDeep false).maskAll 0).ethChange).back.undozeAll.lanesWake.axesWake
  (s.setFld Reg.PWR_WAKE_T_LAST_MS t).setFld Reg.PWR_WAKE_T_MAX_MS (max t (s.fld Reg.PWR_WAKE_T_MAX_MS))

/-! The management port (R410). -/

/-- A PWR register as the supply monitor shows it now: what it measures is the wiring's (Table 17-9). -/
def State.pwrWord (s : State) (a : Nat) : Word :=
  let m (hi lo : Nat) (w : Word) : Word := setWordBits w hi lo (Config.measured a hi s.now)
  let w := s.reg a
  if a = Reg.PWR_VIN then m 31 16 (m 15 0 w)
  else if a = Reg.PWR_POWER then m 31 16 (m 15 0 w)
  else if a = Reg.PWR_ENERGY_LO ∨ a = Reg.PWR_ENERGY_HI then m 31 0 w
  else if a = Reg.PWR_PHASE_MID then m 5 0 w
  else if a = Reg.PWR_RAILS then m 31 16 (m 15 0 w)
  else if a = Reg.PWR_DEEP_S then
    BitVec.ofNat 32 ((s.pwr.deep + (if s.awake then 0 else s.now - s.stateSince)) / ticksOfMs 1000)
  else w

/-- `n` reads of the management port: each gives a register as 4 bytes and moves on. -/
def State.mgmtReads (s : State) : Nat → State
  | 0 => s
  | n + 1 =>
    let o := s.pwr.mgmt
    let w := if o ≤ 0x3C then s.pwrWord (Reg.PWR_CTRL + o) else 0#32
    let s := s.emit (.mgmt (leBytes 4 w.toNat))
    State.mgmtReads { s with pwr := { s.pwr with mgmt := o + 4 } } n

/-- MGMT_PORT_ACCESS (R410): a byte that selects a word offset, then reads; it clears nothing. -/
def execMgmtPortAccess (select : Option Nat) (reads : Nat) (s : State) : Result :=
  .next <|
    if s.pwr.off.isSome then s
    else
      let s := match select with
        | some o => { s with pwr := { s.pwr with mgmt := o % 256 / 4 * 4 } }
        | none => s
      s.mgmtReads reads

end Sys2Proof.Machine
end

