-- ==== Sys2Proof/Machine/Deflate.lean ====
section
/-!
DEFINITION. What a compressor emits (R132, R133): a raw DEFLATE stream read back block by block, the properties the spec
gives it, and the stream of stored blocks that has them for every input.
-/
namespace Sys2Proof.Machine

/-- One block of an emitted stream: stored or dynamic, last or not, its bits and the bytes it makes. -/
structure OutBlock where
  stored : Bool
  dynamic : Bool
  final : Bool
  bits : Nat
  made : Nat
  deriving DecidableEq, Repr

/-- BTYPE of the block that starts at the next bit. -/
def blockType (r : BitIn) : Nat := b2n (r.bits.getD 1 false) + 2 * b2n (r.bits.getD 2 false)

/-- The blocks up to the one with BFINAL, the output (newest first) and the bits after it. -/
def scanBlocks : Nat → List Byte → Nat → BitIn → Inf (List OutBlock × List Byte × BitIn)
  | 0, _, _, r => .error (0x06, r.pos)
  | fuel + 1, h, room, r => do
    let (h', room', fin, r') ← inflateBlock h room r
    let b : OutBlock := { stored := blockType r == 0, dynamic := blockType r == 2, final := fin
                          bits := r'.pos - r.pos, made := room - room' }
    if fin then .ok ([b], h', r')
    else
      let (bs, h'', r'') ← scanBlocks fuel h' room' r'
      .ok (b :: bs, h'', r'')

/-- The blocks of a whole stream and what it decodes to; nothing is left after its last block but zero bits to the byte. -/
def scanStream (room : Nat) (out : List Byte) : Option (List OutBlock × List Byte) :=
  match scanBlocks (8 * out.length + 1) [] room ⟨bitsLsb out, 0⟩ with
  | .ok (bs, h, r) => if (padBad r).isNone then some (bs, h.reverse) else none
  | .error _ => none

/-- Bits of the stored form of `n` bytes: blocks of 65,535 bytes and less, each with five bytes before its data. -/
def storedBits (n : Nat) : Nat := 8 * (n + 5 * max 1 ((n + 65534) / 65535))

/-- A block as R132 allows it: dynamic and shorter than the stored form, or stored; of at most 64 KiB of input; at
level 0 stored. -/
def OutBlock.ok (level : Nat) (b : OutBlock) : Bool :=
  decide (b.made ≤ 65536) &&
    (b.stored || (b.dynamic && decide (level ≠ 0) && decide (b.bits < storedBits b.made)))

/-- A stream as R132 describes it: valid under RFC 1951, decoding to the input, of allowed blocks. -/
def streamOk (level : Nat) (data out : List Byte) : Bool :=
  match scanStream data.length out with
  | some (bs, h) => h == data && bs.all (·.ok level)
  | none => false

/-- One stored block on a byte boundary. -/
def storedBlock (final : Bool) (data : List Byte) : List Byte :=
  bytesOf [b2n final] ++ leBytes 2 data.length ++ leBytes 2 (65535 - data.length) ++ data

/-- The input in stored blocks of 65,535 bytes and less, the last with BFINAL. -/
def storedStream : Nat → List Byte → List Byte
  | 0, data => storedBlock true (data.take 65535)
  | fuel + 1, data =>
    if data.length ≤ 65535 then storedBlock true data
    else storedBlock false (data.take 65535) ++ storedStream fuel (data.drop 65535)

/-- The stream a compressor emits: which of the streams R132 allows is the firmware's, so it is a free value; a free value
that is no such stream stands for the stored one. -/
def compress (level : Nat) (data : List Byte) : List Byte :=
  let out := Config.compressed level data
  if streamOk level data out then out else storedStream data.length data

/-- Blocks of an emitted stream, and how many of them are stored (R133). -/
def blockCounts (data out : List Byte) : Nat × Nat :=
  match scanStream data.length out with
  | some (bs, _) => (bs.length, bs.countP (·.stored))
  | none => (0, 0)

end Sys2Proof.Machine
end

