-- ==== Sys2Proof/Machine/Inspect.lean ====
section
/-!
DEFINITION. Jigsaw, comparison, correlation, components, defect records and crops (chapter 09, R222 to R237).
-/
namespace Sys2Proof.Machine

/-- A JIG event under its enable: 0 JIG_OVL, 1 JIG_REC_LOST, 2 JIG_CROP_LOST, 3 JIG_CORR_EDGE. -/
def State.jigEvent (s : State) (bit : Nat) (f : Fld) : State :=
  (s.setFld f 1).raiseIf (bitAt (s.fld Reg.JIG_EVENTS_EV_EN) bit) (89 + bit)

/-- A record of the inspection dropped at a full ring (R235). -/
def State.ringLost (s : State) : State := (s.bump Reg.JIG_CNT_LOST_RING).jigEvent 1 Reg.JIG_EVENTS_REC_LOST

/-- The winner's order of R223 and R230: least S, then least |dx| + |dy|, then least dy, then least dx. -/
def beats (a b : (Int × Int) × Nat) : Bool :=
  let w := fun c : (Int × Int) × Nat => c.1.1.natAbs + c.1.2.natAbs
  if a.2 ≠ b.2 then decide (a.2 < b.2)
  else if w a ≠ w b then decide (w a < w b)
  else if a.1.2 ≠ b.1.2 then decide (a.1.2 < b.1.2)
  else decide (a.1.1 < b.1.1)

/-- The winner of scored offsets. -/
def winner (l : List ((Int × Int) × Nat)) : Option ((Int × Int) × Nat) :=
  l.foldl (fun a c => match a with
    | none => some c
    | some b => if beats c b then some c else some b) none

/-- The offsets from −r to r in both directions, by line and then column. -/
def offsets (r : Nat) : List (Int × Int) :=
  (List.range (2 * r + 1)).flatMap fun i : Nat => (List.range (2 * r + 1)).map fun j : Nat => ((j : Int) - r, (i : Int) - r)

/-! Correlation (R230). -/

/-- A frame of a port ends: its scores choose the offsets of the port's next frame. -/
def State.scoreFrame (s : State) (n num : Nat) : State :=
  let x := s.cam n
  match x.frames.find? fun f => f.num == num with
  | none => s
  | some f =>
    if f.scored then s
    else
      let s := s.setCam n (x.updFrame num fun f => { f with scored := true })
      let scores := (offsets 8).zip f.corr
      match winner scores, scores.lookup (f.dx, f.dy) with
      | some w, some now =>
        if s.flag Reg.JIG_CTRL_CORR_EN ∧ 16 * w.2 < 15 * now then
          let s := s.setCam n { s.cam n with dx := w.1.1, dy := w.1.2, held := 0 }
          if w.1.1.natAbs = 8 ∨ w.1.2.natAbs = 8 then s.jigEvent 3 Reg.JIG_EVENTS_CORR_EDGE else s
        else s
      | _, _ => s

/-- The frames of a port that precede the one now compared are scored; the new one takes the offsets. -/
def State.beginFrame (s : State) (n num : Nat) : State :=
  let old := ((s.cam n).frames.filter fun f => f.num != num && !f.scored && !f.rows.isEmpty).map CamFrame.num
  let s := old.foldl (fun s f => s.scoreFrame n f) s
  let x := s.cam n
  let on := s.flag Reg.JIG_CTRL_CORR_EN
  s.setCam n (x.updFrame num fun f =>
    if f.rows.isEmpty then { f with dx := if on then x.dx else 0, dy := if on then x.dy else 0 } else f)

/-! Comparison of one port's columns in a line (R228, R231). -/

/-- The pixels of a grid line at a column. -/
def GridLine.at (l : GridLine) (first g : Nat) : List Nat := (l.pix.drop (3 * (g - first))).take 3

/-- A compared pixel. -/
def State.comparePixel (s : State) (f : CamFrame) (m : Int) (g : Nat) (obs : List Nat) : CmpPix :=
  let r := f.render
  let e := s.expected r m g f.dx f.dy
  let d := r.diff obs e.1
  let box (k : Nat) : Nat := match r.inputBar k with | some b => (s.boxOf r b (m + f.dy) ((g : Int) + f.dx)).1 | none => 0
  ⟨g, obs, e.1, e.2, (List.range 4).map box, d, r.classOf d⟩

/-- The scores that a pixel adds, in the order of `offsets 8`. -/
def State.scorePixel (s : State) (f : CamFrame) (m : Int) (g : Nat) (obs : List Nat) : List Nat :=
  (offsets 8).map fun o => ((luminance obs : Int) - luminance (s.expected f.render m g o.1 o.2).1).natAbs

/-- Sums of two score lists; an empty one counts as zeros. -/
def addScores (a b : List Nat) : List Nat := if a.isEmpty then b else List.zipWith (· + ·) a b

/-- The lowest generation of a bar's frames that land in grid line `m` (R246). -/
def State.lineGen (s : State) (b : Nat) (m : Int) : Option Nat :=
  let offs := ((s.bar b).map.map MapEntry.rowOff).eraseDups
  let fs := (List.range s.gridBY).flatMap fun sy : Nat => offs.filterMap fun r =>
    (s.frameIn b r (s.gpos m + 16 * sy)).map Prod.fst
  (fs.map fun f => s.frameGen b ((s.barBoards b).headD 0) f).foldl (fun a g => some (match a with | some x => min x g | none => g)) none

/-- The lowest of two generations kept by bar. -/
def lowGen (l : List (Nat × Nat)) (b g : Nat) : List (Nat × Nat) :=
  (l.filter fun e => e.1 != b) ++ [(b, match l.lookup b with | some x => min x g | none => g)]

/-- The generations of a port's device line join those of its frame, whether the line is compared or not (R246). -/
def State.noteGens (s : State) (n : Nat) (l : GridLine) : State :=
  s.setCam n ((s.cam n).updFrame l.frame fun f =>
    let bars := (List.range 4).filterMap f.render.inputBar
    { f with gens := bars.foldl (fun a b => match s.lineGen b l.m with | some g => lowGen a b g | none => a) f.gens })

/-- The owned columns of a port compared in line `m`, where its line is there and whole and it has a model: the
compared row, with its frame. -/
def State.compareRow (s : State) (n lo hi : Nat) (l : GridLine) : Option (CmpRow × State) :=
  let s := s.beginFrame n l.frame
  let x := s.cam n
  match x.frames.find? fun f => f.num == l.frame with
  | none => none
  | some f =>
    if l.hole || f.render.model.isEmpty then none
    else
      let first := firstColOf x.rs
      let cols := (List.range (hi - lo)).map (lo + ·)
      let pix := cols.map fun g => s.comparePixel f l.m g (l.at first g)
      let picks := if l.m % 16 = 0 ∧ s.flag Reg.JIG_CTRL_CORR_EN then cols.filter fun g => g % 16 == 0 else []
      let corr := picks.foldl (fun a g => addScores a (s.scorePixel f l.m g (l.at first g))) f.corr
      let row : CmpRow := ⟨l.m, pix⟩
      some (row, s.setCam n (x.updFrame l.frame fun f => { f with rows := row :: f.rows, corr := corr }))

/-! Defect records and crops (R234, R236, R237). -/

/-- The nozzle index that a record names for an input of the model. -/
def State.recordNozzle (s : State) (r : RenderSet) (g k : Nat) : Nat :=
  match r.inputBar k with
  | none => 0xFFFFFF
  | some b =>
    let x := (s.gridBX * g : Nat) - r.xs b
    if 0 ≤ x ∧ x < s.barN b then s.nozzleBase b + x.toNat else 0xFFFFFF

/-- A defect record (Table 09-3). -/
def State.defectBytes (s : State) (c : Comp) (f : CamFrame) (cls : Nat) (continues cropLost : Bool) (crop num : Nat) :
    List Byte :=
  let flags := b2n continues + 2 * b2n c.linked + 4 * b2n c.unsure + 8 * b2n c.suspect + 16 * b2n cropLost +
    32 * c.trig.dom + 64 * b2n c.edge
  bytesOf [0x10, cls, c.port, flags] ++ leBytes 4 num ++ leBytes 4 c.frame ++
    leBytes 8 (unsignedOf 64 (s.gpos c.first)) ++ leBytes 2 c.left ++ leBytes 2 (c.right + 1 - c.left) ++
    leBytes 6 c.trig.sec ++ leBytes 4 c.trig.ns ++ leBytes 2 (min 65535 (c.last + 1 - c.first).toNat) ++
    leBytes 4 (min (idxMod - 1) c.part) ++ leBytes 2 (min 65535 c.peak) ++ leBytes 2 f.setId ++
    ((List.range 4).flatMap fun k => leBytes 3 (s.recordNozzle f.render c.peakCol k)) ++ leBytes 4 crop ++ leBytes 4 c.num

/-- A span grown on both sides, at least at `lo`, and cut to `top` about its centre. -/
def cropSpan (first len : Int) (margin top : Nat) : Int × Nat :=
  let n := len + 2 * margin
  if n ≤ top then (first - margin, n.toNat) else (first + len / 2 - (top / 2 : Nat), top)

/-- The region of a piece's crop (R237): clipped to MAX x MAX, and to the grid. -/
def State.cropOf (s : State) (c : Comp) (crop : Nat) : CropWait :=
  let margin := s.fld Reg.JIG_CROP_MARGIN
  let top := s.fld Reg.JIG_CROP_MAX
  let v := cropSpan c.first (c.last + 1 - c.first) margin top
  let h := cropSpan c.left ((c.right + 1 - c.left : Nat) : Int) margin top
  let l := max 0 h.1
  let r := min (s.fld Reg.JIG_CTRL_WIDTH : Int) (h.1 + h.2)
  ⟨crop, c.num, c.port, v.1, v.2, l.toNat, (r - l).toNat⟩

/-- Crops that wait for a compressor. -/
def State.cropsWaiting (s : State) : Nat := s.ingest.crops.length

/-- A record may still be made in this 10 ms (R236). -/
def State.recordQuota (s : State) : Bool × State :=
  let w := s.now / 2500000
  let made := if s.insp.window = w then s.insp.windowMade else 0
  let ok := decide (made < s.fld Reg.JIG_REC_REC_MAX)
  (ok, { s with insp := { s.insp with window := w, windowMade := if ok then made + 1 else made } })

/-- A crop for a piece whose class asks for one: its number (0 none) and whether it is lost (R237). -/
def State.makeCrop (s : State) (c : Comp) (wanted : Bool) : Nat × Bool × State :=
  if !wanted then (0, false, s)
  else if 64 ≤ s.cropsWaiting then
    (0, true, (s.bump Reg.JIG_CNT_CROP_LOST).jigEvent 2 Reg.JIG_EVENTS_CROP_LOST)
  else
    let n := s.insp.crop + 1
    (n, false, { s with insp := { s.insp with crop := n, cropWait := s.insp.cropWait ++ [s.cropOf c n] } })

/-- The frame that holds a component's piece. -/
def State.compFrame (s : State) (c : Comp) : CamFrame :=
  ((s.cam c.port).frames.find? fun f => f.num == c.frame).getD { num := c.frame, setId := c.setId }

/-- A piece ends (R233): a record where its component has reached the area of its class. -/
def State.piece (s : State) (c : Comp) (continues : Bool) : State :=
  let f := s.compFrame c
  let r := f.render
  if c.area < r.minArea c.cls then s
  else
    let s := s.setCam c.port ((s.cam c.port).updFrame c.frame fun f =>
      { f with made := f.made.set (c.cls - 1) (f.made.getD (c.cls - 1) 0 + 1) })
    let q := s.recordQuota
    let s := q.2
    if !q.1 then (s.bump Reg.JIG_CNT_LOST_RATE).jigEvent 1 Reg.JIG_EVENTS_REC_LOST
    else
      let k := s.makeCrop c (r.cropOn c.cls)
      let s := k.2.2
      let lost := s.recordLost 0
      let s := s.addRecord 0 (s.defectBytes c f c.cls continues k.2.1 k.1)
      let s := s.bump Reg.JIG_CNT_DEFECT_COUNT
      if lost then s.ringLost else s

/-! Components (R232, R233). -/

/-- A marked pixel of a line. -/
structure Mark where
  /-- column -/
  g : Nat
  /-- class -/
  cls : Nat
  /-- d -/
  d : Nat
  /-- UNSURE -/
  unsure : Bool
  /-- owner -/
  port : Nat

/-- The runs of adjacent columns of a line's marks, left to right. -/
def runsOf (l : List Mark) : List (List Mark) :=
  l.foldr (fun a acc =>
    match acc with
    | (b :: r) :: t => if b.g = a.g + 1 then (a :: b :: r) :: t else [a] :: (b :: r) :: t
    | t => [a] :: t) []

/-- A run of line `m` touches a component 8-adjacently: the component's last line is the one before. -/
def Comp.touches (m : Int) (c : Comp) (run : List Mark) : Bool :=
  c.last + 1 == m && run.any fun a => c.cols.any fun x => decide (x ≤ a.g + 1) && decide (a.g ≤ x + 1)

/-- Two components become one: the older's number, port and first pixel, both pieces together. -/
def Comp.join (a b : Comp) : Comp :=
  let early := if b.first < a.first then b else a
  let peak := if a.peak < b.peak then b else a
  { a with
    cls := max a.cls b.cls, area := a.area + b.area, linked := a.linked || b.linked, first := early.first
    trig := early.trig, frame := a.frame, setId := a.setId, last := max a.last b.last, left := min a.left b.left
    right := max a.right b.right, part := a.part + b.part, peak := peak.peak, peakCol := peak.peakCol
    unsure := a.unsure || b.unsure, suspect := a.suspect || b.suspect, edge := a.edge || b.edge, cols := a.cols ++ b.cols }

/-- The components and runs of a line gathered into groups: a run joins every group that it touches. -/
def gatherRuns (m : Int) (comps : List Comp) (runs : List (List Mark)) : List (List Comp × List (List Mark)) :=
  runs.foldl (fun gs run =>
    let hit := fun g : List Comp × List (List Mark) => g.1.any (·.touches m run)
    let hits := gs.filter hit
    let rest := gs.filter fun g => !hit g
    rest ++ [(hits.flatMap Prod.fst, hits.flatMap Prod.snd ++ [run])]) (comps.map fun c => ([c], []))

/-- The oldest first. -/
def byAge (l : List Comp) : List Comp :=
  l.foldr (fun c acc => (acc.takeWhile fun a => decide (a.num < c.num)) ++ c :: acc.dropWhile fun a => decide (a.num < c.num))
    []

/-- A mark joins a piece at line `m`. -/
def Comp.take (c : Comp) (m : Int) (a : Mark) : Comp :=
  { c with
    cls := max c.cls a.cls, area := c.area + 1, part := c.part + 1, last := m, left := min c.left a.g
    right := max c.right a.g, peak := max c.peak a.d, peakCol := if c.peak < a.d then a.g else c.peakCol
    unsure := c.unsure || a.unsure, cols := c.cols ++ [a.g] }

/-- What a line gives the components: its grid line by port, and whether a column is INCOMPLETE in it or was in the
line before. -/
structure LineView where
  /-- m -/
  m : Int
  /-- grid lines by port -/
  lines : List (Nat × GridLine)
  /-- columns INCOMPLETE in this line -/
  hole : Nat → Bool
  /-- columns INCOMPLETE in the line before -/
  before : Nat → Bool

/-- One of a column's neighbours and the column itself. -/
def around (p : Nat → Bool) (g : Nat) : Bool := p g || p (g + 1) || (decide (0 < g) && p (g - 1))

/-- A piece that begins at line `m` with no pixel yet; the component keeps its class, area and peak (R232). -/
def LineView.fresh (v : LineView) (c : Comp) (g : Nat) : Comp :=
  let l := (v.lines.lookup c.port).getD {}
  { c with
    first := v.m, last := v.m, left := g, right := g, part := 0, unsure := false, suspect := false
    edge := false, cols := [], trig := l.trig, frame := l.frame, setId := l.setId }

/-- The marks of a line taken into a component's piece. -/
def LineView.extend (v : LineView) (c : Comp) (marks : List Mark) : Comp :=
  let sus := marks.any fun a => bitAt ((v.lines.lookup a.port).getD {}).flags 4
  let edge := marks.any fun a => around v.hole a.g || around v.before a.g
  let c := marks.foldl (fun c a => c.take v.m a) { c with cols := [] }
  { c with suspect := c.suspect || sus, edge := c.edge || edge }

/-- A group of a line: a component begins, goes on, is cut, or closes. The components still open are returned. -/
def State.group (s : State) (v : LineView) (g : List Comp × List (List Mark)) : List Comp × State :=
  let marks := g.2.flatten
  match byAge g.1, marks with
  | [], [] => ([], s)
  | [], a :: _ =>
    let c : Comp := { num := s.insp.compNum, port := a.port, m0 := v.m, g0 := a.g }
    ([v.extend (v.fresh c a.g) marks], { s with insp := { s.insp with compNum := s.insp.compNum + 1 } })
  | c :: cs, _ =>
    let c := cs.foldl Comp.join c
    let c := { c with edge := c.edge || c.cols.any (around v.hole) }
    match marks with
    | [] => ([], s.piece c false)
    | a :: _ =>
      let moved := match v.lines.lookup c.port with
        | some l => l.frame != c.frame
        | none => false
      if moved || decide ((s.fld Reg.JIG_SEG_MAX_LINES : Int) ≤ v.m - c.first) then
        ([v.extend { v.fresh c a.g with linked := true } marks], s.piece c true)
      else ([v.extend c marks], s)

/-- The marks of a line change the components. -/
def State.segment (s : State) (v : LineView) (marks : List Mark) : State :=
  let r := (gatherRuns v.m s.insp.comps (runsOf marks)).foldl (fun (acc : List Comp × State) g =>
    let o := acc.2.group v g
    (acc.1 ++ o.1, o.2)) ([], s)
  { r.2 with insp := { r.2.insp with comps := byAge r.1 } }

/-! Device lines (R222). -/

/-- The grid line `m` that a port has produced or marked INCOMPLETE and that has not been compared. -/
def Cam.openLine (x : Cam) (m : Int) : Option GridLine := x.grid.find? fun l => l.m == m && !l.done

/-- The next device line: the least that every owner has produced or marked INCOMPLETE. -/
def State.nextLine (s : State) : Option Int :=
  match s.owners with
  | [] => none
  | o :: t =>
    let ms := ((s.cam o.1).grid.filter fun l => !l.done && t.all fun p => ((s.cam p.1).openLine l.m).isSome).map GridLine.m
    ms.foldl (fun a m => some (match a with | some b => min b m | none => m)) none

/-- The line `m` of a port has been compared. -/
def Cam.closeLine (x : Cam) (m : Int) : Cam :=
  { x with grid := x.grid.map fun l => if l.m = m then { l with done := true } else l }

/-- Columns and observed pixels of a device line. -/
def State.observed (s : State) (lines : List (Nat × GridLine)) : List (Nat × List Nat) :=
  s.owners.flatMap fun o =>
    match lines.lookup o.1 with
    | some l => (List.range (o.2.2 - o.2.1)).map fun i => (o.2.1 + i, l.at (firstColOf (s.cam o.1).rs) (o.2.1 + i))
    | none => []

/-- The bytes of a crop: three 16-bit values a pixel, row by row; a column that no camera covers has no stated
value. -/
def State.cropData (s : State) (c : CropWait) : List Byte :=
  (List.range c.height).flatMap fun i : Nat =>
    let line := c.top + i
    let row := (s.insp.image.lookup line).getD []
    (List.range c.width).flatMap fun j =>
      match row.lookup (c.left + j) with
      | some v => (List.range 3).flatMap fun k => leBytes 2 (v.getD k 0)
      | none => (List.range 3).flatMap fun k => leBytes 2 (Config.uncovered line (c.left + j) k)

/-- The 32-byte header of a crop's slot (R237). DESIGN CHOICE: the rule gives the seven values and no places; they stand
in its order, crop and component numbers and gpos as in a defect record, the columns, width and height in 2 bytes each, the
port in 1, and the rest is zero. -/
def State.cropHeader (s : State) (c : CropWait) : List Byte :=
  leBytes 4 c.crop ++ leBytes 4 c.comp ++ leBytes 8 (unsignedOf 64 (s.gpos c.top)) ++ leBytes 2 c.left ++
    leBytes 2 c.width ++ leBytes 2 c.height ++ leBytes 1 c.port ++ List.replicate 9 0#8

/-- Crops whose lines are all there go to wait for a compressor. -/
def State.cropsReady (s : State) (m : Int) : State :=
  let ready := s.insp.cropWait.filter fun c => decide (c.top + c.height ≤ m + 1)
  let jobs := ready.map fun c => (⟨c.crop, s.cropHeader c, s.cropData c⟩ : CropJob)
  { s with
    insp := { s.insp with cropWait := s.insp.cropWait.filter fun c => !decide (c.top + c.height ≤ m + 1) }
    ingest := { s.ingest with crops := s.ingest.crops ++ jobs } }

/-- The observed line kept for crops; lines that no open component and no crop can need are dropped. -/
def State.keepImage (s : State) (m : Int) (row : List (Nat × List Nat)) : State :=
  let need := (s.insp.comps.map fun c => c.first - 256) ++ s.insp.cropWait.map CropWait.top
  let lo := need.foldl min (m - 256)
  { s with insp := { s.insp with image := (m, row) :: s.insp.image.filter fun e => decide (lo ≤ e.1) } }

/-- Frames of a bar that no later line reads (R154, R228): correlation and blur reach ten lines back. -/
def State.renderedTo (s : State) (m : Int) : State :=
  (List.range 16).foldl (fun s b =>
    let x := s.bar b
    let past := x.fates.filter fun e =>
      match e.2.due with
      | some p => decide (p + s.barDist b < s.gpos (m - 9))
      | none => false
    s.setBar b { x with rendered := past.foldl (fun a e => max a (e.1 + 1)) x.rendered }) s

/-- The generations of an owner's line noted, where it brought the line. -/
def State.noteOwner (s : State) (lines : List (Nat × GridLine)) (n : Nat) : State :=
  match lines.lookup n with
  | some l => s.noteGens n l
  | none => s

/-- The rows of a device line compared port by port. -/
def State.compareAll (s : State) (lines : List (Nat × GridLine)) : List (Nat × Nat × Nat) → List Mark × State
  | [] => ([], s)
  | o :: t =>
    let s := s.noteOwner lines o.1
    match (lines.lookup o.1).bind fun l => s.compareRow o.1 o.2.1 o.2.2 l with
    | some (row, s) =>
      let marks := (row.pix.filter fun p => decide (0 < p.cls)).map fun p => (⟨p.g, p.cls, p.d, p.unsure, o.1⟩ : Mark)
      let r := s.compareAll lines t
      (marks ++ r.1, r.2)
    | none => s.compareAll lines t

/-- GRID_LINE_COMPARE (R222, R228 to R233): the next complete device line. -/
def execGridLineCompare (s : State) : Result :=
  .next <|
    match if s.flag Reg.JIG_CTRL_ENABLE then s.nextLine else none with
    | none => s
    | some m =>
      let own := s.owners
      let lines := own.filterMap fun o => ((s.cam o.1).openLine m).map fun l => (o.1, l)
      let holes := (lines.filter fun e => e.2.hole).map Prod.fst
      let inPorts := fun (l : List Nat) (g : Nat) => match ownerOf own g with | some n => l.contains n | none => false
      let v : LineView := ⟨m, lines, inPorts holes, inPorts (if s.insp.nextM = some m then s.insp.holes else [])⟩
      let r := s.compareAll lines own
      let s := r.2.segment v r.1
      let s := own.foldl (fun s o => s.setCam o.1 ((s.cam o.1).closeLine m)) s
      let s : State := { s with insp := { s.insp with nextM := some (m + 1), holes := holes } }
      ((s.keepImage m (s.observed lines)).cropsReady m).renderedTo m

/-! Compressors (R132 to R134, R237). -/

/-- COMPRESS_STREAM_START (R132, R134): the unit takes the oldest stream at the level it has now. -/
def execCompressStreamStart (unit : Nat) (s : State) : Result :=
  .next <|
    match s.ingest.crops with
    | [] => s
    | c :: rest =>
      if 4 ≤ unit ∨ (tabGet none s.ingest.streams unit).isSome then s
      else
        let s : State := { s with ingest := { s.ingest with
          crops := rest, streams := tabPut none s.ingest.streams unit (some (c, s.fld (Reg.CMPR_CTRL_LEVEL unit))) } }
        (s.setFld (Reg.CMPR_STATUS_BUSY unit) 1).setFld (Reg.CMPR_STATUS_CONTEXT unit) (256 + unit)

/-- Bytes counted in KiB: the field, and what is left over. -/
def countKib (s : State) (f : Fld) (rest n : Nat) : Nat × State := ((rest + n) % 1024, s.bump f ((rest + n) / 1024))

/-- The start of the CROP region (Table 13-2). -/
def cropBase : Nat := 0x230000000

/-- A stream ends: stream, output record, then header in the crop's slot (R133, R237). -/
def State.streamEnd (s : State) (u : Nat) (c : CropJob) (level : Nat) : State :=
  let out := compress level c.data
  let blocks := blockCounts c.data out
  let rec_ := leBytes 4 c.data.length ++ leBytes 4 out.length ++
    bytesOf [b2n (decide (0 < blocks.2)) + 2 * b2n (blocks.1 == blocks.2), level] ++ leBytes 2 (min 65535 blocks.1) ++
    leBytes 4 (crc32c c.data)
  let at_ := cropBase + 524288 * (c.crop % 2 ^ s.fld Reg.JIG_CROP_SLOTS_EXP)
  let i := s.classInput .background
  let s := ((s.writeMem i (at_ + 48) out).writeMem i (at_ + 32) rec_).writeMem i at_ c.header
  let i := countKib s (Reg.CMPR_IN_KIB u) (tabGet 0 s.ingest.inRest u) c.data.length
  let o := countKib i.2 (Reg.CMPR_OUT_KIB u) (tabGet 0 s.ingest.outRest u) out.length
  let s := (o.2.bump (Reg.CMPR_STATUS_STORED u) blocks.2).setFld (Reg.CMPR_STATUS_BUSY u) 0
  let s : State := { s with ingest := { s.ingest with
    streams := tabPut none s.ingest.streams u none, inRest := tabPut 0 s.ingest.inRest u i.1
    outRest := tabPut 0 s.ingest.outRest u o.1 } }
  s.bump Reg.JIG_CNT_CROP_WRITTEN

/-- COMPRESS_STREAM_END (R132, R133, R237). -/
def execCompressStreamEnd (unit : Nat) (s : State) : Result :=
  .next <|
    match tabGet none s.ingest.streams unit with
    | some (c, level) => s.streamEnd unit c level
    | none => s

end Sys2Proof.Machine
end

