-- ==== Sys2Proof/Machine/Stats.lean ====
section
/-!
DEFINITION. The end of a port's frame: findings, overlap measurement, statistics block and summary (R223, R238, R243,
R244).
-/
namespace Sys2Proof.Machine

/-! Overlaps (R223). -/

/-- Neighbouring ranges that overlap, in FIRST_COL order. -/
def overlapPairs : List (Nat × Nat × Nat) → List ((Nat × Nat × Nat) × (Nat × Nat × Nat))
  | a :: b :: t => (if b.2.1 < a.2.2 then [(a, b)] else []) ++ overlapPairs (b :: t)
  | _ => []

/-- A whole grid line of a port. -/
def State.wholeGrid (s : State) (n : Nat) (m : Int) : Option GridLine :=
  ((s.cam n).grid.find? fun l => l.m == m).bind fun l => if l.hole then none else some l

/-- The lines of a frame that an overlap is measured on: every 4th that is complete in both ports. -/
def State.overlapLines (s : State) (f : CamFrame) (na nb : Nat) : List GridLine :=
  (s.cam na).grid.filter fun l => l.frame == f.num && l.m % 4 == 0 && !l.hole && (s.wholeGrid nb l.m).isSome

/-- The luminance of a port at a line and column; of a line that the port has not produced the rule states none. -/
def State.gridLuminance (s : State) (n : Nat) (m : Int) (g : Nat) : Nat :=
  match (s.cam n).grid.find? fun l => l.m == m with
  | some l => luminance (l.at (firstColOf (s.cam n).rs) g)
  | none => Config.missingLuminance m g

/-- S(dx, dy) of R223. -/
def State.overlapScore (s : State) (a b : Nat × Nat × Nat) (lines : List GridLine) (dx dy : Int) : Nat :=
  let fa := firstColOf (s.cam a.1).rs
  let lo := b.2.1 + 4
  let cols := (List.range (a.2.2 - 4 - lo)).map (lo + ·)
  (lines.map fun l =>
    (cols.map fun c : Nat =>
      ((luminance (l.at fa c) : Int) - s.gridLuminance b.1 (l.m + dy) ((c : Int) + dx).toNat).natAbs).sum).sum

/-- The sub-column part of an offset (R223, step 4). -/
def fracOf (dx : Int) (sl s0 sr : Int) : Int :=
  let den := sl - 2 * s0 + sr
  if -4 < dx ∧ dx < 4 ∧ den ≠ 0 then clampInt (-8) 8 ((8 * (sl - sr)).tdiv den) else 0

/-- An overlap record. -/
def State.overlap (s : State) (o : Nat) : Overlap := tabGet {} s.insp.overs o

/-- An overlap record replaced. -/
def State.setOverlap (s : State) (o : Nat) (x : Overlap) : State :=
  { s with insp := { s.insp with overs := tabPut {} s.insp.overs o x } }

/-- Overlap `o` measured for a frame of its left port. -/
def State.measureOverlap (s : State) (f : CamFrame) (o : Nat) (a b : Nat × Nat × Nat) : State :=
  let lines := s.overlapLines f a.1 b.1
  if lines.isEmpty then s.setOverlap o { s.overlap o with age := min 255 ((s.overlap o).age + 1) }
  else
    let score := fun d : Int × Int => s.overlapScore a b lines d.1 d.2
    match winner ((offsets 4).map fun d => (d, score d)) with
    | none => s
    | some w =>
      let dx := 16 * w.1.1 + fracOf w.1.1 (score (w.1.1 - 1, w.1.2)) w.2 (score (w.1.1 + 1, w.1.2))
      let s := s.setOverlap o ⟨dx, w.1.2, 0⟩
      let lim := s.fld Reg.JIG_OVL_LIMIT_LIMIT
      if lim < dx.natAbs ∨ lim < 16 * w.1.2.natAbs then s.jigEvent 0 Reg.JIG_EVENTS_OVL else s

/-- The overlaps of which the port is the left one. -/
def State.measureOverlaps (s : State) (n : Nat) (f : CamFrame) : State :=
  (overlapPairs s.portRanges).zipIdx.foldl (fun s p =>
    if p.1.1.1 = n then s.measureOverlap f p.2 p.1.1 p.1.2 else s) s

/-! Deficits (R244). -/

/-- The compared pixels of a column in a frame. -/
def CamFrame.column (f : CamFrame) (g : Nat) : List CmpPix :=
  f.rows.filterMap fun r => r.pix.find? fun p => p.g == g

/-- A channel of a pixel: 0 R, 1 G, 2 B, 3 the luminance. -/
def channelOf (ch : Nat) (v : List Nat) : Int := if ch < 3 then (v.getD ch 0 : Nat) else (luminance v : Nat)

/-- floor((2 sum + n) / 2n). -/
def meanDev (sum : Int) (n : Nat) : Int := if n = 0 then 0 else (2 * sum + n).fdiv (2 * n)

/-- The deficit of a column for input `k`, where there is evidence. -/
def State.deficit (s : State) (k b : Nat) (pix : List CmpPix) : Option Int :=
  let ch := s.fld Reg.NOZ_CHAN_CHAN / 4 ^ b % 4
  let l := pix.filter fun p => !p.unsure && decide (s.fld Reg.NOZ_COV_COV_MIN ≤ p.boxes.getD k 0)
  let sum := (l.map fun p => channelOf ch p.obs - channelOf ch p.exp).sum
  if l.length < s.fld Reg.NOZ_FRAMES_NMIN then none else some (meanDev sum l.length)

/-- The inputs that name a bar, each bar once. -/
def RenderSet.bars (r : RenderSet) : List (Nat × Nat) :=
  ((List.range 4).filterMap fun k => (r.inputBar k).map fun b => (k, b)).foldl
    (fun a e => if a.any fun x => x.2 == e.2 then a else a ++ [e]) []

/-- The image findings of a frame, by column and then input (R243). -/
def State.imageFindings (s : State) (n lo hi : Nat) (f : CamFrame) : State :=
  if !s.flag Reg.NOZ_CTRL_IMAGE_EN then s
  else
    let cols := (List.range (hi - lo)).map (lo + ·)
    let bars := f.render.bars
    let table := cols.map fun g =>
      let pix := f.column g
      (g, bars.map fun e => s.deficit e.1 e.2 pix)
    let at_ := fun (g : Nat) (i : Nat) => ((table.lookup g).getD []).getD i none
    let near := fun (ok : Bool) (g i : Nat) => if ok then (at_ g i).getD 0 else 0
    cols.foldl (fun s g => bars.zipIdx.foldl (fun s e =>
      match at_ g e.2 with
      | none => s
      | some d =>
        let b := e.1.2
        let pair := s.gridBX == 2
        s.pushFinding {
          source := 0, bar := b, at_ := (s.gridBX * g : Nat) - f.render.xs b, pair := pair, d := d
          dPrev := near (decide (0 < g)) (g - 1) e.2, dNext := near true (g + 1) e.2
          gen := (f.gens.lookup b).getD 0, port := n, frame := f.num, gpos := s.gpos f.last
          lines := tabGet 0 s.fire.events b }) s) s

/-! Statistics (R238). -/

/-- The start of the STATS region (Table 13-2). -/
def statsBase : Nat := 0x330000000

/-- The mean of values, rounded to nearest. -/
def meanOf (l : List Nat) : Nat := if l.isEmpty then 0 else (l.sum + l.length / 2) / l.length

/-- The eight bytes of a column. -/
def columnStats (pix : List CmpPix) : List Byte :=
  let dev := (pix.map fun p => (luminance p.obs : Int) - luminance p.exp).sum
  ((List.range 3).flatMap fun c => leBytes 2 (meanOf (pix.map fun p => p.obs.getD c 0))) ++
    leBytes 2 (unsignedOf 16 (meanDev dev pix.length))

/-- The 256 bins of a channel. -/
def histogram (pix : List CmpPix) (c : Nat) : List Byte :=
  let vals := pix.map fun p => p.obs.getD c 0 / 16
  (List.range 256).flatMap fun i => leBytes 4 (vals.filter (· = i)).length

/-- A frame summary (Table 09-4). -/
def State.summaryBytes (s : State) (n block : Nat) (f : CamFrame) (num : Nat) : List Byte :=
  let flags := b2n f.short + 2 * b2n f.unsure + 4 * b2n f.overlong + 8 * b2n (decide (0 < f.incomplete)) + 16 * b2n f.changed
  pad64 (bytesOf [0x11, n, flags, 0] ++ leBytes 4 num ++ leBytes 4 f.num ++ leBytes 4 block ++ leBytes 2 f.setId ++
    bytesOf [f.gen, f.rgen] ++ leBytes 4 f.rows.length ++ leBytes 8 (unsignedOf 64 (s.gpos (f.first.getD f.last))) ++
    leBytes 8 (unsignedOf 64 (s.gpos f.last)) ++ (f.made.flatMap fun k => leBytes 4 k) ++
    bytesOf [unsignedOf 8 f.dx, unsignedOf 8 f.dy] ++ leBytes 2 (min 65535 f.incomplete))

/-- The statistics block in its slot and the summary on the statistics ring. -/
def State.writeStats (s : State) (n : Nat) (f : CamFrame) : State :=
  let p := (s.cam n).rs
  let block := s.insp.block
  let sum := s.summaryBytes n block f (s.recRing 1).next
  let cols := (List.range (colsOf p)).flatMap fun j => columnStats (f.column (firstColOf p + j))
  let all := f.rows.flatMap CmpRow.pix
  let bytes := sum ++ cols ++ (List.range 3).flatMap (histogram all)
  let at_ := statsBase + 262144 * (block % 2 ^ s.fld Reg.JIG_STATS_SLOTS_EXP)
  let lost := s.recordLost 1
  let s := State.addRecord { s with insp := { s.insp with block := (block + 1) % idxMod } } 1
    (s.summaryBytes n block f)
  let s := if lost then s.ringLost else s
  s.writeMem (s.classInput .analysis) at_ bytes

/-- Grid lines that no frame still needs leave their ports. -/
def State.pruneGrid (s : State) : State :=
  let firsts := (List.range 24).flatMap fun n => (s.cam n).frames.filterMap fun f => if f.done then none else f.first
  let lo := (firsts ++ s.insp.nextM.toList).foldl (fun (a : Option Int) m =>
    some (match a with | some b => min b m | none => m)) none
  match lo with
  | none => s
  | some lo => (List.range 24).foldl (fun s n =>
      s.setCam n { s.cam n with grid := (s.cam n).grid.filter fun l => decide (lo - 8 ≤ l.m) }) s

/-- A port's grid line can no longer be compared: an owner is past it and never produced it (R222). -/
def State.lineDead (s : State) (m : Int) : Bool :=
  s.owners.any fun o =>
    let x := s.cam o.1
    ((x.grid.find? fun l => l.m == m).isNone && match x.nextM with | some k => decide (m < k) | none => false)

/-- What has become of a closed frame's last grid line: `some true` compared, `some false` never to be compared, `none`
still to come. A frame's last line is known once the port has gone past it, or makes no more lines. -/
def State.frameEnd (s : State) (n : Nat) (f : CamFrame) : Option Bool :=
  let x := s.cam n
  let ended := !(s.onGrid n && s.flag Reg.JIG_CTRL_ENABLE && s.capOn n)
  match f.first with
  | none => if ended || (x.frames.takeWhile fun g => g.num != f.num).any fun g => g.first.isSome then some false else none
  | some _ =>
    if !(ended || match x.nextM with | some k => decide (f.last + 1 < k) | none => false) then none
    else match x.grid.find? fun l => l.m == f.last with
      | none => some true
      | some l =>
        if l.done || !(s.owners.any fun o => o.1 == n) then some true
        else if s.lineDead f.last then some false else none

/-- The oldest closed frame of a port with its statistics due and its last line settled. -/
def State.dueFrame (s : State) (n : Nat) : Option (CamFrame × Bool) :=
  (((s.cam n).frames.filter fun f => f.closed && !f.done).reverse.filterMap fun f => (s.frameEnd n f).map fun k => (f, k)).head?

/-- A frame's statistics are done with. -/
def State.frameDone (s : State) (n num : Nat) : State :=
  (s.setCam n ((s.cam n).updFrame num fun f => { f with done := true })).pruneGrid

/-- FRAME_STATISTICS (R238): the port's oldest closed frame whose last grid line has been compared. One whose last line is
never compared has none. -/
def execFrameStatistics (port : Nat) (s : State) : Result :=
  .next <|
    match if port < 24 then s.dueFrame port else none with
    | none => s
    | some (f, false) => s.frameDone port f.num
    | some (f, true) =>
      let s := s.scoreFrame port f.num
      let s := match s.owners.find? fun o => o.1 == port with
        | some o => s.imageFindings port o.2.1 o.2.2 f
        | none => s
      let s := s.measureOverlaps port f
      let s := s.writeStats port f
      s.frameDone port f.num

end Sys2Proof.Machine
end

