-- ==== Sys2Proof/Machine/Regs.lean ====
section
/-!
DEFINITION. Reading registers (chapters 04 and 19): what a register shows, reads with their side effects from BAR0 and
from the command path, and READ_REG.
-/
namespace Sys2Proof.Machine

/-! What a register shows. Registers that mirror a unit are made from the unit's own state. -/

/-- A number as a word. -/
def wordOf (n : Nat) : Word := BitVec.ofNat 32 n

/-- The two words of an integer in 64 bits. -/
def halfOf (x : Int) (hi : Bool) : Word :=
  let n := unsignedOf 64 x
  wordOf (if hi then n / 2 ^ 32 else n)

/-- The DMA block: RUN reads 1 while ACTIVE. -/
def State.viewDma (s : State) (a : Nat) : Word :=
  let o := offOf a
  if o < 0x400 ∧ o % 16 = 8 then setWordBits (s.reg a) 31 31 (s.fld (Reg.DMA_STATUS_ACTIVE (o / 16))) else s.reg a

/-- The KAL block (Tables 08-14 to 08-16). -/
def State.viewKal (s : State) (a : Nat) : Word :=
  let p := offOf a / 32
  let n := s.kalPort p
  let x := s.cam n
  match offOf a % 32 with
  | 0x04 => setWordBits (s.reg a) 30 30 (b2n x.pend)
  | 0x08 => wordOf (x.staged.getD (s.fld (Reg.KAL_PIDX_WORD p)) 0)
  | 0x0C =>
    let served := (List.range 6).filter fun i => s.capOn (6 * (p / 2) + i) && s.pipeOf (6 * (p / 2) + i) == p
    setWordBits (s.reg a) 21 16 ((served.map fun i => 2 ^ i).sum)
  | 0x10 => wordOf (x.gen % 256 * 2 ^ 24 + min 65535 ((x.moved.map (· % 16384)).eraseDups.length))
  | 0x14 => wordOf (min 65535 x.flat.darkDef.length * 65536 + min 65535 x.flat.gainDef.length)
  | _ => s.reg a

/-- The RSMP block (Table 09-8). -/
def State.viewRsmp (s : State) (a : Nat) : Word :=
  let r := offOf a / 16
  let x := s.cam (s.rsmpPort r)
  match offOf a % 16 with
  | 0x0 => setWordBits (s.reg a) 28 28 (b2n x.rsPend)
  | 0x4 => wordOf (x.rsStaged.getD (s.fld (Reg.RSMP_CTRL_WORD r)) 0)
  | _ => s.reg a

/-- The JIG block: the selected overlap and the selected port's correlation. -/
def State.viewJig (s : State) (a : Nat) : Word :=
  if a = Reg.JIG_OVL then
    let o := s.overlap (s.fld Reg.JIG_OVL_SEL_OVERLAP)
    wordOf (unsignedOf 16 o.dx * 65536 + unsignedOf 8 o.dy * 256 + min 255 o.age)
  else if a = Reg.JIG_CORR then
    let x := s.cam (s.fld Reg.JIG_CORR_SEL_PORT)
    wordOf (unsignedOf 8 x.dx * 2 ^ 24 + unsignedOf 8 x.dy * 65536 + min 65535 x.held)
  else s.reg a

/-- The NOZ block: the counts of the selected bar. -/
def State.viewNoz (s : State) (a : Nat) : Word :=
  if a = Reg.NOZ_COUNTS then
    let b := s.fld Reg.NOZ_SEL_BAR
    let n (st : Nat) : Nat := (s.noz.health.filter fun e => e.1 / 65536 == b && e.2.state == st).length
    wordOf (min 65535 (n 2) * 65536 + min 65535 (n 1))
  else s.reg a

/-- The POS block: the position of an input. -/
def State.viewPos (s : State) (a : Nat) : Word :=
  match offOf a % 32 with
  | 0x18 => halfOf (s.enc (offOf a / 32)).p false
  | 0x1C => halfOf (s.enc (offOf a / 32)).p true
  | _ => s.reg a

/-- The TIME block: the counts of a domain, the residual in whole ns, the selected capture. -/
def State.viewTime (s : State) (a : Nat) : Word :=
  let o := offOf a
  let c := s.clock (o / 64)
  let k := s.cap (s.fld Reg.TSCAP_SEL_UNIT)
  if o < 0x80 then
    match o % 64 with
    | 0x08 => wordOf c.sec
    | 0x0C => wordOf (c.sec / 2 ^ 32)
    | 0x10 => wordOf c.ns
    | 0x14 => wordOf (c.frac / 65536)
    | _ => s.reg a
  else if a = Reg.TIME_RESID_LO then halfOf (s.time.resid / (2 ^ 32 : Nat)) false
  else if a = Reg.TIME_RESID_HI then halfOf (s.time.resid / (2 ^ 32 : Nat)) true
  else if a = Reg.TSCAP_SEC then wordOf k.sec
  else if a = Reg.TSCAP_NS then wordOf (b2n k.valid * 2 ^ 31 + k.dom % 2 * 2 ^ 30 + k.ns)
  else if a = Reg.TSCAP_POS_LO then wordOf k.pos
  else if a = Reg.TSCAP_POS_HI then wordOf (k.pos / 2 ^ 32)
  else s.reg a

/-- The EVT block: the selected consumer and channel. -/
def State.viewEvt (s : State) (a : Nat) : Word :=
  if a = Reg.EVT_CONS then
    let k := s.fld Reg.EVT_SEL_CONSUMER
    let x := s.cons k
    wordOf (b2n (s.consBusy k) * 2 ^ 31 + b2n x.coincident * 2 ^ 30 + x.lastProd % 128 * 2 ^ 23 + min 65535 x.ignored)
  else if a = Reg.EVT_CHAN then
    let x := s.chan (s.fld Reg.EVT_SEL_CHANNEL)
    wordOf (x.lastTag % 16 * 2 ^ 28 + x.lastProd % 128 * 2 ^ 20 + min 65535 x.loop)
  else s.reg a

/-- The MEM block: base and size of the selected region in 2 MiB units. -/
def State.viewMem (s : State) (a : Nat) : Word :=
  if a = Reg.MEM_REGION then
    let r := s.region (s.fld Reg.MEM_REGION_SEL_REGION)
    wordOf (r.1 / 2097152 * 65536 + r.2 / 2097152 % 65536)
  else s.reg a

/-- The CHK block: the word named by INDEX. -/
def State.viewChk (s : State) (a : Nat) : Word :=
  let u := offOf a / 16
  if offOf a % 16 = 12 then wordOf (s.chkWord u (s.fld (Reg.CHK_IDX_INDEX u))) else s.reg a

/-- The NVC block: the newest valid copy of the selected record. -/
def State.viewNvc (s : State) (a : Nat) : Word :=
  let kind := s.fld Reg.NVC_SEL_KIND
  let p := s.calPair kind (s.fld Reg.NVC_SEL_INSTANCE)
  let c := p.newest.getD {}
  let len := if p.newest.isSome then (Config.calBytes kind c.content).length else 0
  if a = Reg.NVC_REC then
    wordOf (b2n p.a.valid * 2 ^ 31 + b2n p.b.valid * 2 ^ 30 + b2n p.newerB * 2 ^ 29 + len % 2 ^ 24)
  else if a = Reg.NVC_COUNT then wordOf c.count
  else if a = Reg.NVC_SEC_LO then wordOf c.sec
  else if a = Reg.NVC_SEC_HI then wordOf (c.dom % 2 * 2 ^ 31 + c.sec / 2 ^ 32 % 65536)
  else if a = Reg.NVC_NS then wordOf c.ns
  else if a = Reg.NVC_SEQ then wordOf c.seq
  else s.reg a

/-- What the register at a parameter address shows; 0 where none is mapped. -/
def State.view (s : State) (a : Nat) : Word :=
  match blockOf a with
  | 0x00 =>
    if a = Reg.PLAT_IN_STATE then wordOf (min 0xFFFFFFFF ((s.now - s.stateSince) / ticksOfMs 1000))
    else if a = Reg.PLAT_UPTIME_LO then wordOf (s.now / ticksOfMs 1)
    else if a = Reg.PLAT_UPTIME_HI then wordOf (s.now / ticksOfMs 1 / 2 ^ 32)
    else s.reg a
  | 0x08 => s.viewDma a
  | 0x19 => s.viewKal a
  | 0x1A => s.viewRsmp a
  | 0x1B => s.viewJig a
  | 0x1C => s.viewNoz a
  | 0x20 => s.viewPos a
  | 0x28 => s.viewTime a
  | 0x29 => s.viewEvt a
  | 0x30 => s.viewMem a
  | 0x31 => s.viewChk a
  | 0x48 => s.pwrWord a
  | 0x49 => s.viewNvc a
  | 0x4A => if a = Reg.SPARE_CL then wordOf (s.spareWord (s.fld Reg.SPARE_SEL_CLUSTER)) else s.reg a
  | _ => s.reg a

/-! Reads (R9, R418, R419). -/

/-- The registers that a read of `a` latches: its _HI half, and NS and FRAC with a domain's seconds. -/
def latchedBy (a : Nat) : List Nat :=
  let o := offOf a
  if a = Reg.TD_SEC_LO 0 ∨ a = Reg.TD_SEC_LO 1 then [a + 4, a + 8, a + 12]
  else if [Reg.PLAT_UPTIME_LO, Reg.DMA_DONE_LO, Reg.DMA_FAULT_LO, Reg.DOSE_FAIL_LINE_LO, Reg.TD_INC_LO 0, Reg.TD_INC_LO 1,
      Reg.TIME_RESID_LO, Reg.PWR_ENERGY_LO, Reg.NVC_SEC_LO].contains a ∨ (blockOf a = 0x20 ∧ o % 32 = 0x18 ∧ o < 0x100) then [a + 4]
  else []

/-- The key of a path's latch. -/
def latchKey (path : Path) (a : Nat) : Nat :=
  match path with
  | .bar0 => 0x1000000 + a
  | .cmd => a

/-- What a read on a path returns: the latched half where one is latched. -/
def State.shownOn (s : State) (path : Path) (a : Nat) : Word := (tabGet none s.latches (latchKey path a)).getD (s.view a)

/-- A half latched. -/
def State.latch (s : State) (path : Path) (a : Nat) : State :=
  { s with latches := tabPut none s.latches (latchKey path a) (some (s.view a)) }

/-- RC fields of a register take their reset values (Table 00-6). -/
def State.clearRc (s : State) (a : Nat) : State :=
  match planRow a with
  | none => s
  | some (r, i) =>
    let w := r.fields.foldl (fun w f => if f.access = .rc then setWordBits w f.hi f.lo (f.resetIn i) else w) (s.reg a)
    s.setReg a w

/-- The side effects of a read on a path (R9, R303, R327, R418, NOZ_ALARM). -/
def State.readEffect (s : State) (path : Path) (a : Nat) : State :=
  let s := ((latchedBy a).foldl (fun s h => s.latch path h) s).clearRc a
  if a = Reg.EVT_CONS then
    let k := s.fld Reg.EVT_SEL_CONSUMER
    s.setCons k { s.cons k with ignored := 0 }
  else if a = Reg.EVT_CHAN then
    let c := s.fld Reg.EVT_SEL_CHANNEL
    s.setChan c { s.chan c with loop := 0 }
  else if a = Reg.NOZ_ALARM then s.setFld Reg.NOZ_STATUS_ALARM 0
  else if a = Reg.TSCAP_POS_HI then s.releaseCap
  else if blockOf a = 0x31 ∧ offOf a % 16 = 12 ∧ offOf a < 0x200 then s.chkNext (offOf a / 16)
  else s

/-- A BAR0 read (R101): the device answers with the register, or 0 where none is mapped; in BOOTING only PLAT shows
values, and nothing is cleared (R348). -/
def State.bar0Read (s : State) (a : Nat) : State :=
  if s.st = stBooting ∧ blockOf a ≠ 0 then s.emit (.bar0Read a 0#32)
  else if (planRow a).isNone then s.emit (.bar0Read a 0#32)
  else (s.emit (.bar0Read a (s.shownOn .bar0 a))).readEffect .bar0 a

/-- A read of one register on a path; on the command path the value goes into READ_REG's reply. -/
def State.readOn (s : State) (path : Path) (a : Nat) : State :=
  match path with
  | .bar0 => s.bar0Read a
  | .cmd => if (planRow a).isNone then s else s.readEffect .cmd a

/-- READ_CLEAR (R9, R101). -/
def execReadClear (path : Path) (addr : Nat) (s : State) : Result := .next (s.readOn path addr)

/-- LO_LATCH_READ (R418). -/
def execLoLatchRead (path : Path) (addr : Nat) (s : State) : Result := .next (s.readOn path addr)

/-- TSCAP_RELEASE (R303). -/
def execTscapRelease (path : Path) (s : State) : Result := .next (s.readOn path Reg.TSCAP_POS_HI)

/-- CHK_DATA_READ (R327): INDEX rises. -/
def execChkDataRead (path : Path) (unit : Nat) (s : State) : Result :=
  .next (if unit < 32 then s.readOn path (Reg.CHK_DATA unit) else s)

/-! READ_REG. -/

/-- A parameter address as R100 forms it. -/
def addrOk (a : Nat) : Bool := decide (a < 0x1000000) && a % 4 == 0

/-- A range of `n` words lies in one listed block, up to its Last offset (R102, R417). -/
def rangeOk (a n : Nat) : Bool :=
  addrOk a && match blockLast (blockOf a) with
    | some last => decide (offOf a + 4 * n ≤ last + 4)
    | none => false

/-- Registers read in ascending order, each at its own moment (R419). -/
def State.readRange (s : State) (a : Nat) : Nat → List Word × State
  | 0 => ([], s)
  | n + 1 =>
    let w := if (planRow a).isNone then 0#32 else s.shownOn .cmd a
    let r := (s.readOn .cmd a).readRange (a + 4) n
    (w :: r.1, r.2)

/-- READ_REG (R102, R417): 0x0010. -/
def execReadReg (rq : Rq) (addr count : Nat) (s : State) : Result :=
  .next <| s.runIn rq 0x0010 [domainOfBlock (blockOf addr % 256)] fun s =>
    let ok := decide (1 ≤ count) && decide (count ≤ 1020)
    s.withParams rq 0x0010 [(16, rangeOk addr (if ok then count else 1)), (20, ok)] fun s =>
      let r := s.readRange addr count
      r.2.finish rq 0x0010 scDone (r.1.flatMap fun w => leBytes 4 w.toNat)

end Sys2Proof.Machine
end

