-- ==== Sys2Proof/Machine/Fields.lean ====
section
/-!
DEFINITION. What a register write is checked for (R102, R103): the range of every field, and the states in which the
register may be written, as the field maps and the block texts of the chapters give them.
-/
namespace Sys2Proof.Machine

/-! Ranges. -/

/-- A field with a stated range: the field of the first instance, the spacing and number of its instances, its least and
greatest value, and whether a value outside is ignored rather than refused. -/
structure RangeRow where
  /-- the field in instance 0 -/
  fld : Fld
  /-- spacing of the instances -/
  stride : Nat := 4
  /-- instances -/
  count : Nat := 1
  /-- least value -/
  lo : Nat
  /-- greatest value -/
  hi : Nat
  /-- ignored outside the range -/
  quiet : Bool := false
  deriving DecidableEq, Repr

/-- Ranges of PACE, ARB, LOCK, CMD, DMA and CMPR. -/
def rangesA : List RangeRow := [
  { fld := Reg.PACE_CTRL_MODE, lo := 0, hi := 2 },
  { fld := Reg.PACE_LIMIT_VCAP_MV, lo := 720, hi := 900 },
  { fld := Reg.PACE_SLACK_CAPFILL_MAX, lo := 20, hi := 80 },
  { fld := Reg.PACE_SLACK_CONC_TARGET, lo := 64, hi := 65535 },
  { fld := Reg.PACE_LOOP_STEP_MV, lo := 1, hi := 20 },
  { fld := Reg.PACE_LOOP_INTERVAL_US, lo := 1, hi := 255 },
  { fld := Reg.PACE_SLEW_DOWN, lo := 1, hi := 100 },
  { fld := Reg.PACE_SLEW_UP, lo := 5, hi := 50 },
  { fld := Reg.ARB_J_LIMLO_LIM0 0, stride := 16, count := 16, lo := 1, hi := 255 },
  { fld := Reg.ARB_J_LIMLO_LIM1 0, stride := 16, count := 16, lo := 1, hi := 255 },
  { fld := Reg.ARB_J_LIMLO_LIM2 0, stride := 16, count := 16, lo := 1, hi := 255 },
  { fld := Reg.ARB_J_LIMLO_LIM3 0, stride := 16, count := 16, lo := 1, hi := 255 },
  { fld := Reg.ARB_J_LIMHI_LIM4 0, stride := 16, count := 16, lo := 1, hi := 255 },
  { fld := Reg.ARB_J_LIMHI_LIM5 0, stride := 16, count := 16, lo := 1, hi := 255 },
  { fld := Reg.ARB_J_LIMHI_LIM6 0, stride := 16, count := 16, lo := 1, hi := 255 },
  { fld := Reg.ARB_J_LIMHI_LIM7 0, stride := 16, count := 16, lo := 1, hi := 255 },
  { fld := Reg.ARB_J_SLOT_IN_LOOP 0, stride := 16, count := 16, lo := 0, hi := 4 },
  { fld := Reg.ARB_J_SLOT_IN_ANALYSIS 0, stride := 16, count := 16, lo := 0, hi := 4 },
  { fld := Reg.ARB_J_SLOT_IN_EXPANSION 0, stride := 16, count := 16, lo := 0, hi := 4 },
  { fld := Reg.ARB_J_SLOT_IN_INGEST 0, stride := 16, count := 16, lo := 0, hi := 4 },
  { fld := Reg.ARB_J_SLOT_IN_BACKGROUND 0, stride := 16, count := 16, lo := 0, hi := 4 },
  { fld := Reg.ARB_J_CTRL_FAIRNESS 0, stride := 16, count := 16, lo := 0, hi := 2 },
  { fld := Reg.LOCK_HOLD_LIMIT 0, count := 64, lo := 0, hi := 10 },
  { fld := Reg.CMD_CTRL_LOCKOUT_S, lo := 1, hi := 255, quiet := true },
  { fld := Reg.CMD_CFG_RSIZE 0, stride := 32, count := 4, lo := 6, hi := 16, quiet := true },
  { fld := Reg.CMD_CFG_CSIZE 0, stride := 32, count := 4, lo := 6, hi := 16, quiet := true },
  { fld := Reg.DMA_CTRL_HOP_EXP 0, stride := 16, count := 64, lo := 8, hi := 20, quiet := true },
  { fld := Reg.DMA_CTRL_CHECK 0, stride := 16, count := 64, lo := 0, hi := 2, quiet := true },
  { fld := Reg.CMPR_CTRL_LEVEL 0, stride := 16, count := 4, lo := 0, hi := 9 }]

/-- Ranges of DOSE, FIRE, CAP, KAL, RSMP, JIG and NOZ. -/
def rangesB : List RangeRow := [
  { fld := Reg.DOSE_BAR_CONC_MAX 0, stride := 32, count := 16, lo := 64, hi := 65535 },
  { fld := Reg.FIRE_CTRL_LEAD, lo := 2, hi := 8 },
  { fld := Reg.FIRE_CTRL_MISS_LIMIT, lo := 1, hi := 15 },
  { fld := Reg.YOYO_CTRL_INTERVAL, lo := 1, hi := 100 },
  { fld := Reg.YOYO_CTRL_LOOKAHEAD, lo := 1, hi := 65535 },
  { fld := Reg.YOYO_REQ_REQ_MIN, lo := 1, hi := 65535 },
  { fld := Reg.YOYO_STEP_RAISE_DELAY, lo := 1, hi := 255 },
  { fld := Reg.YOYO_STEP_RAISE_STEP, lo := 1, hi := 65535 },
  { fld := Reg.GATE_TIME_PERIOD_US, lo := 10, hi := 4095 },
  { fld := Reg.GATE_TIME_WINDOW, lo := 1, hi := 255 },
  { fld := Reg.CAP_CTRL_BITS 0, stride := 32, count := 24, lo := 0, hi := 2 },
  { fld := Reg.CAP_CTRL_EYE_RES 0, stride := 32, count := 24, lo := 0, hi := 2 },
  { fld := Reg.CAP_GEOM_LINES 0, stride := 32, count := 24, lo := 256, hi := 16384 },
  { fld := Reg.CAP_GEOM_PIXELS 0, stride := 32, count := 24, lo := 16, hi := 16384 },
  { fld := Reg.CAP_TRIG_WIDTH 0, stride := 32, count := 24, lo := 1, hi := 127 },
  { fld := Reg.KAL_CTRL_FLAT_EVERY 0, stride := 32, count := 8, lo := 1, hi := 255 },
  { fld := Reg.KAL_PIDX_SLOT 0, stride := 32, count := 8, lo := 0, hi := 5 },
  { fld := Reg.RSMP_CTRL_SLOT 0, stride := 16, count := 8, lo := 0, hi := 5 },
  { fld := Reg.JIG_CTRL_WIDTH, lo := 0, hi := 65536 },
  { fld := Reg.JIG_OVL_SEL_OVERLAP, lo := 0, hi := 22 },
  { fld := Reg.JIG_CORR_SEL_PORT, lo := 0, hi := 23 },
  { fld := Reg.JIG_SEG_MAX_LINES, lo := 256, hi := 65535 },
  { fld := Reg.JIG_REC_REC_MAX, lo := 1, hi := 1000 },
  { fld := Reg.JIG_CROP_MAX, lo := 16, hi := 256 },
  { fld := Reg.JIG_CROP_SLOTS_EXP, lo := 4, hi := 13 },
  { fld := Reg.JIG_STATS_SLOTS_EXP, lo := 4, hi := 12 },
  { fld := Reg.NOZ_STREAK_CLEAR, lo := 2, hi := 4094 },
  { fld := Reg.NOZ_STREAK_STREAK, lo := 3, hi := 4095 },
  { fld := Reg.NOZ_FRAMES_N_OK, lo := 1, hi := 255 },
  { fld := Reg.NOZ_FRAMES_N_DEAD, lo := 1, hi := 255 },
  { fld := Reg.NOZ_FRAMES_NMIN, lo := 1, hi := 255 },
  { fld := Reg.NOZ_TRIM_TRIM_MAX, lo := 1, hi := 127 },
  { fld := Reg.NOZ_TRIM_TRIM_BAND, lo := 1, hi := 4093 },
  { fld := Reg.NOZ_LIMIT_MOD_LIMIT, lo := 1, hi := 100 }]

/-- Ranges of POS, SSI, AXIS, TIME and EVT. -/
def rangesC : List RangeRow := [
  { fld := Reg.POS_CTRL_DECODE 0, stride := 32, count := 8, lo := 0, hi := 2 },
  { fld := Reg.POS_CTRL_FILT 0, stride := 32, count := 8, lo := 1, hi := 15 },
  { fld := Reg.POS_SCALE_NUM 0, stride := 32, count := 8, lo := 1, hi := 65535 },
  { fld := Reg.POS_SCALE_DEN 0, stride := 32, count := 8, lo := 1, hi := 65535 },
  { fld := Reg.POS_SPDCFG_SPD_TH 0, stride := 32, count := 8, lo := 1, hi := 20000 },
  { fld := Reg.POS_SPDCFG_WIN 0, stride := 32, count := 8, lo := 1, hi := 255 },
  { fld := Reg.POS_SPDCFG_STILL_MS 0, stride := 32, count := 8, lo := 1, hi := 255 },
  { fld := Reg.SSI_CTRL_MISS_LIMIT 0, stride := 16, count := 8, lo := 1, hi := 15 },
  { fld := Reg.SSI_CTRL_LEN 0, stride := 16, count := 8, lo := 7, hi := 63 },
  { fld := Reg.SSI_CTRL_DIV 0, stride := 16, count := 8, lo := 12, hi := 1249 },
  { fld := Reg.SSI_FMT_DATA_BITS 0, stride := 16, count := 8, lo := 1, hi := 24 },
  { fld := Reg.SSI_FMT_CRC_LEN 0, stride := 16, count := 8, lo := 0, hi := 16 },
  { fld := Reg.SSI_FMT_TIMEOUT 0, stride := 16, count := 8, lo := 1, hi := 255 },
  { fld := Reg.SSI_FMT_PERIOD 0, stride := 16, count := 8, lo := 1, hi := 255 },
  { fld := Reg.AX_CTRL_STEP_SHIFT 0, stride := 48, count := 16, lo := 0, hi := 8 },
  { fld := Reg.AX_CTRL_IN_SHIFT 0, stride := 48, count := 16, lo := 0, hi := 8 },
  { fld := Reg.AX_SWCFG_CHATTER 0, stride := 48, count := 16, lo := 1, hi := 255 },
  { fld := Reg.AX_SWCFG_STABLE 0, stride := 48, count := 16, lo := 1, hi := 65535 },
  { fld := Reg.AX_HOME_SPD_HOME_SPD 0, stride := 48, count := 16, lo := 1, hi := 16777215 },
  { fld := Reg.AX_EDEC_EDEC 0, stride := 48, count := 16, lo := 1, hi := 4294967295 },
  { fld := Reg.AX_DRIVE_STEP_W 0, stride := 48, count := 16, lo := 1, hi := 255 },
  { fld := Reg.TD_CTRL_SRC 0, stride := 64, count := 2, lo := 0, hi := 5 },
  { fld := Reg.TD_ALARM_NS_NS 0, stride := 64, count := 2, lo := 0, hi := 999999999 },
  { fld := Reg.TIME_SLEW_SLEW, lo := 1, hi := 1000000 },
  { fld := Reg.TIME_HOLD_HOLD_MS, lo := 10, hi := 65535 },
  { fld := Reg.TIME_PTP_ANN_TO 0, count := 2, lo := 2, hi := 10 },
  { fld := Reg.TIME_PTP_DOMAIN_NUM 0, count := 2, lo := 0, hi := 127 },
  { fld := Reg.TIME_LOCK_LOCK_NS, lo := 1, hi := 65535 },
  { fld := Reg.EVT_CTRL_LOOP_WIN, lo := 5, hi := 1000 },
  { fld := Reg.EVT_CTRL_PIN_W, lo := 2, hi := 255 }]

/-- Ranges of MEM, CHK, LANE, PCIE, ETH, MON and PWR. -/
def rangesD : List RangeRow := [
  { fld := Reg.MEM_CTRL_SCRUB_S, lo := 1, hi := 3600 },
  { fld := Reg.MEM_DET_D, lo := 1, hi := 8 },
  { fld := Reg.MEM_ACT_ACT_TH, lo := 256, hi := 65535 },
  { fld := Reg.MEM_ACT_HOLD_US, lo := 1, hi := 255 },
  { fld := Reg.MEM_INJECT_SYM_A, lo := 0, hi := 17 },
  { fld := Reg.MEM_INJECT_SYM_B, lo := 0, hi := 17 },
  { fld := Reg.CHK_CTRL_FEED 0, stride := 16, count := 32, lo := 0, hi := 2, quiet := true },
  { fld := Reg.CHK_CTRL_WIDTH 0, stride := 16, count := 32, lo := 1, hi := 64, quiet := true },
  { fld := Reg.LANE_CFG_RATE 0, stride := 8, count := 96, lo := 0, hi := 5 },
  { fld := Reg.LANE_GRP_CTRL_RECAL_S 0, stride := 8, count := 12, lo := 1, hi := 4095 },
  { fld := Reg.PCIE_CTRL_CTO, lo := 5, hi := 5000 },
  { fld := Reg.ETH_CTRL_MODE 0, stride := 32, count := 2, lo := 0, hi := 2 },
  { fld := Reg.ETH_CTRL_FEC 0, stride := 32, count := 2, lo := 0, hi := 2 },
  { fld := Reg.ETH_CTRL_PREFIX 0, stride := 32, count := 2, lo := 1, hi := 32 },
  { fld := Reg.MON_CFG_WIN_MODE 0, stride := 16, count := 64, lo := 0, hi := 2, quiet := true },
  { fld := Reg.MON_CFG_BIN_MODE 0, stride := 16, count := 64, lo := 0, hi := 2, quiet := true },
  { fld := Reg.MON_BIN_WIDTH 0, stride := 16, count := 64, lo := 1, hi := 65535 },
  { fld := Reg.PWR_CTRL_DOZE_US, lo := 1, hi := 65535 },
  { fld := Reg.PWR_ZONE_CFG_ZONE_MS, lo := 1, hi := 255 }]

/-- A row's field lies in the register at `a`. -/
def RangeRow.at (r : RangeRow) (a : Nat) : Bool :=
  decide (r.fld.addr ≤ a) && (a - r.fld.addr) % r.stride == 0 && decide ((a - r.fld.addr) / r.stride < r.count)

/-- The stated ranges of a register's fields. -/
def rangesAt (a : Nat) : List RangeRow :=
  (if blockOf a ≤ 0x0A then rangesA else if blockOf a ≤ 0x1C then rangesB else if blockOf a ≤ 0x29 then rangesC
    else rangesD).filter (·.at a)

/-- A word breaks a row's range. -/
def RangeRow.broken (r : RangeRow) (w : Word) : Bool :=
  let v := wordBits w r.fld.hi r.fld.lo
  decide (v < r.lo) || decide (r.hi < v)

/-- A word with the fields that break a range, of those chosen, as they were. -/
def keepBroken (pick : RangeRow → Bool) (a : Nat) (old new : Word) : Word :=
  (rangesAt a).foldl (fun w r =>
    if pick r && r.broken new then setWordBits w r.fld.hi r.fld.lo (wordBits old r.fld.hi r.fld.lo) else w) new

/-- Conditions on a register's word that are no plain range: LINES, PITCH, PERIOD_US, the two symbols of an injection, FEC
2 at 25 Gb/s only, a source of Table 16-7, and HOLD_LIMIT of the locks that keep it. -/
def wordOk (a : Nat) (old w : Word) : Bool :=
  let o := offOf a
  match blockOf a with
  | 0x03 => decide (o < 4 * 56) || wordBits w 7 4 == wordBits old 7 4
  | 0x10 => !(decide (o < 0x200) && o % 32 == 8) || wordBits w 23 0 == 0 || decide (1024 ≤ wordBits w 23 0)
  | 0x18 => o % 32 != 12 || decide ((if wordBits w 31 31 = 0 then 256 else 250) ≤ wordBits w 23 0)
  | 0x28 => !(a == Reg.TIME_PERIOD 0 || a == Reg.TIME_PERIOD 1) ||
      (wordBits w 19 0 != 0 && 1000000 % wordBits w 19 0 == 0)
  | 0x30 => a != Reg.MEM_INJECT || wordBits w 30 30 == 0 || wordBits w 23 19 != wordBits w 18 14
  | 0x3A => o % 32 != 0 || wordBits w 28 27 != 2 || wordBits w 30 29 == 0
  | 0x40 => o % 16 != 0 || monSourceOk (wordBits w 23 16) (wordBits w 11 0)
  | _ => true

/-- The orders between fields of the registers written, judged on the state after the writes: TRIM_BAND below CLEAR
below STREAK (chapter 10), and SOFT_LO below SOFT_HI (chapter 11). -/
def State.orderOk (s : State) (a : Nat) : Bool :=
  if a = Reg.NOZ_STREAK ∨ a = Reg.NOZ_TRIM then
    decide (s.fld Reg.NOZ_STREAK_CLEAR < s.fld Reg.NOZ_STREAK_STREAK) &&
      decide (s.fld Reg.NOZ_TRIM_TRIM_BAND < s.fld Reg.NOZ_STREAK_CLEAR)
  else if blockOf a = 0x22 ∧ (offOf a % 48 = 12 ∨ offOf a % 48 = 16) then
    let x := offOf a / 48
    decide (s.fldI (Reg.AX_SOFT_LO_SOFT_LO x) < s.fldI (Reg.AX_SOFT_HI_SOFT_HI x))
  else true

/-! The word that a write leaves (R102, R103). -/

/-- Bits of a field that the mask selects, written into a word. -/
def putMasked (w mask value : Word) (f : FieldRow) : Word :=
  let m := wordBits mask f.hi f.lo
  let v := wordBits w f.hi f.lo
  setWordBits w f.hi f.lo (v - (v &&& m) + (wordBits value f.hi f.lo &&& m))

/-- RW bits take the value within the mask, W1C bits clear where it holds 1, the rest stays. -/
def mergeWord (r : RegRow) (old mask value : Word) : Word :=
  r.fields.foldl (fun w f =>
    match f.access with
    | .rw => putMasked w mask value f
    | .w1c => putMasked w (mask &&& value) 0#32 f
    | _ => w) old

/-- The mask selects a bit that a write acts on (R103). -/
def RegRow.reached (r : RegRow) (mask : Word) : Bool :=
  r.fields.any fun f => f.access != .ro && f.access != .rc && wordBits mask f.hi f.lo != 0

/-- Only hardware writes the register. -/
def RegRow.passive (r : RegRow) : Bool := r.fields.all fun f => f.access == .ro || f.access == .rc

/-! States (the sentence under each block's field maps; Table 02-6). -/

/-- Why a write is refused. -/
inductive WriteFail where
  | badParam
  | stateRefused
  | busy
  | rejected (reason block : Nat)
  deriving DecidableEq, Repr

/-- Two words differ within a mask. -/
def differ (old new : Word) (mask : Nat) : Bool := (old ^^^ new) &&& BitVec.ofNat 32 mask != 0#32

/-- Registers that may be written in every state that accepts WRITE_REG. -/
def everyState (a : Nat) : Bool :=
  let o := offOf a
  match blockOf a with
  | 0x00 | 0x01 | 0x02 | 0x0A | 0x1A | 0x29 | 0x31 | 0x40 => true
  | 0x10 => decide (o < 0x200) && o % 32 == 0
  | 0x11 => (decide (o < 0x300) && o % 16 == 0) || (decide (0x30C ≤ o) && decide (o ≤ 0x318))
  | 0x18 => o % 32 == 0
  | 0x19 => true
  | 0x1B => decide (0x40 ≤ o)
  | 0x1C => a != Reg.NOZ_LIMIT
  | 0x20 => o % 32 == 12
  | 0x28 => !(decide (o < 0x80) && o % 64 == 0) && !(decide (0xA0 ≤ o) && decide (o ≤ 0xAC))
  | 0x30 => a == Reg.MEM_CTRL || a == Reg.MEM_REGION_SEL
  | 0x38 => (decide (o < 0x300) && o % 8 == 0) || (decide (0x300 ≤ o) && o % 8 == 0)
  | 0x39 => a == Reg.PCIE_CTRL
  | 0x48 => a == Reg.PWR_CTRL
  | 0x49 => a == Reg.NVC_SEL
  | 0x4A => a == Reg.SPARE_CTRL || a == Reg.SPARE_SEL
  | _ => false

/-- Fields whose change needs fewer states than their register: the mask, and whether SERVICE is among them. -/
def narrowFields (a : Nat) : Nat × Bool :=
  let o := offOf a
  match blockOf a with
  | 0x18 => if o % 32 = 0 then (0x7FFFFFFF, false) else (0, true)
  | 0x19 => if o % 32 = 0 then (0x80000000, false) else (0, true)
  | 0x1B => if o = 0x40 then (0x3FFFFFFF, false) else (0, true)
  | 0x1C => if o = 0 then (0xFFFF0000, true) else (0, true)
  | 0x38 => if o < 0x300 then (0x3FFFFFFF, true) else (0xEFFFFFFF, true)
  | _ => (0, true)

/-- Registers written in STANDBY and READY only. -/
def configOnly (a : Nat) : Bool :=
  let o := offOf a
  (blockOf a == 0x10 && (a == Reg.DOSE_CTRL || (decide (o < 0x200) && (o % 32 == 8 || o % 32 == 12)))) ||
    (blockOf a == 0x18 && (o % 32 == 4 || o % 32 == 8))

/-- STANDBY, READY and SERVICE. -/
def State.setup (s : State) : Bool := s.inSt [stStandby, stReady, stService]

/-- STANDBY and READY. -/
def State.idleSt (s : State) : Bool := s.inSt [stStandby, stReady]

/-- An AXIS register (chapter 11): ENABLE by its own two rules; the rest in STANDBY, READY and SERVICE while the axis is
OFF or STANDING, and FOLLOW may be cleared in FOLLOW (R274). -/
def State.axisFail (s : State) (a : Nat) (old new : Word) : Option WriteFail :=
  let x := offOf a / 48
  let ax := s.axState x
  let still := ax == axOff || ax == axStanding
  match offOf a % 48 with
  | 0x20 => none
  | 0x00 =>
    let en := wordBits new 31 31
    let enFail : Option WriteFail :=
      if differ old new 0x80000000 ∧ en = 1 then
        if !s.setup then some .stateRefused else if ax != axOff then some .busy else none
      else none
    let rest : Option WriteFail :=
      if !differ old new 0x7FFFFFFF then none
      else if !s.setup then some .stateRefused
      else if still || (ax == axFollow && wordBits new 29 29 == 0 && !differ old new 0x5FFFFFFF) then none
      else some .busy
    enFail <|> rest
  | _ => if !s.setup then some .stateRefused else if still then none else some .busy

/-- A LANE register (R329, R337, R342, R356, R14): a strapped lane keeps ROLE, RATE and TARGET; ROLE 1 is the device's
own; a standby lane takes no ROLE and a lane with a ROLE is no standby lane; LOOP in SERVICE only. -/
def State.laneFail (s : State) (e : RegEntry) (old new : Word) : Option WriteFail :=
  let o := offOf e.addr
  if o < 0x300 then
    let l := o / 8
    let wrote := wordBits e.mask 29 28 != 0
    let role := wordBits new 29 28
    if differ old new 0x00200000 ∧ s.st ≠ stService then some .stateRefused
    else if s.strapped l && differ old new 0xFF000000 then some (.rejected 2 0x38)
    else if wrote && (wordBits old 29 28 == 1 || role == 1) then some (.rejected 2 0x38)
    else if wrote && role != 0 && wordBits old 29 28 == 0 && l == s.standbyLane (l / 8) then some (.rejected 2 0x11)
    else none
  else
    let g := (o - 0x300) / 8
    if wordBits e.mask 31 29 ≠ 0 ∧ s.flag (Reg.LANE_CFG_ROLE (8 * g + wordBits new 31 29)) then some (.rejected 2 0x38)
    else none

/-- The size of the HOST region that a write of MEM_REGION names: H of up to 4 GiB that leaves the page store 2 GiB
(R306). -/
def State.hostFits (s : State) (h : Nat) : Bool :=
  decide (h ≤ 2048) && decide (0x370000000 + h * 2097152 + 0x80000000 ≤ s.barBufBase)

/-- MEM registers (R305, R306, R323). -/
def State.memFail (s : State) (a : Nat) (new : Word) : Option WriteFail :=
  if a = Reg.MEM_DET then (if s.layoutOpen then none else some (.rejected 3 0x30))
  else if a = Reg.MEM_REGION then
    if s.fld Reg.MEM_REGION_SEL_REGION ≠ 5 then none
    else if !s.layoutOpen then some (.rejected 3 0x30)
    else if s.hostFits (wordBits new 15 0) then none else some .badParam
  else if a = Reg.MEM_INJECT then (if s.st = stService then none else some .stateRefused)
  else if everyState a || s.setup then none
  else some .stateRefused

/-- Whether the states allow a write, and what else its chapter refuses in the present condition of the unit. -/
def State.writeFail (s : State) (e : RegEntry) (old new : Word) : Option WriteFail :=
  let a := e.addr
  let o := offOf a
  let narrow := narrowFields a
  let act (hi lo : Nat) : Bool := wordBits (e.mask &&& e.value) hi lo == 1
  let own : Option WriteFail :=
    match blockOf a with
    | 0x11 => if (a = Reg.GATE_CFG ∨ a = Reg.GATE_TIME) ∧ s.flag Reg.GATE_STATUS_BUSY then some .busy else none
    | 0x19 =>
      let x := s.cam (s.kalPort (o / 32))
      if o % 32 = 8 ∧ x.pend then some .busy
      else if o % 32 = 4 ∧ act 31 31 then
        (if kalSetOk (s.cam (6 * (o / 32 / 2) + wordBits new 18 16)).staged then none else some .badParam)
      else none
    | 0x1A =>
      let x := s.cam (s.rsmpPort (o / 16))
      if o % 16 = 4 ∧ x.rsPend then some .busy
      else if o % 16 = 0 ∧ act 29 29 then
        (if rsmpSetOk (s.cam (6 * (o / 16 / 2) + wordBits new 18 16)).rsStaged then none else some .badParam)
      else none
    | 0x1C =>
      if a = Reg.NOZ_CTRL ∧ !s.loopsOk (wordBits old 31 16) (wordBits new 31 16) (wordBits new 15 12) then
        some (.rejected 2 0x1C)
      else none
    | 0x38 => s.laneFail e old new
    | _ => none
  let states : Option WriteFail :=
    if blockOf a = 0x22 then s.axisFail a old new
    else if blockOf a = 0x30 then s.memFail a new
    else if !(everyState a || s.setup) then some .stateRefused
    else if configOnly a && !s.idleSt then some .stateRefused
    else if differ old new narrow.1 && !(if narrow.2 then s.setup else s.idleSt) then some .stateRefused
    else none
  states <|> own

end Sys2Proof.Machine
end

