-- ==== Sys2Proof/Machine/RegRows.lean ====
section
/-!
DEFINITION. Writing registers (chapters 04 and 19): what each write does beside its field, the writes of WRITE_REG and
MODIFY_REG with their checks, BAR0 writes, and the rows that are one register write.
-/
namespace Sys2Proof.Machine

/-! What a write does. `old` is the register's word before it, `new` the word that RW and W1C bits leave. -/

/-- The bit of a WO or self-clearing field that the write acts on. -/
def actBit (e : RegEntry) (i : Nat) : Bool := bitAt (e.mask &&& e.value).toNat i

/-- ARB (Table 03-7): FAIRNESS sets the eight limits of its junction; a limit write makes it CUSTOM. -/
def State.putArb (s : State) (e : RegEntry) (new : Word) : State :=
  let o := offOf e.addr
  let j := o / 16
  let s := s.setReg e.addr new
  let all (v : Nat) (s : State) : State :=
    (s.setReg (Reg.ARB_J_LIMLO j) (wordOf (v * 0x1010101))).setReg (Reg.ARB_J_LIMHI j) (wordOf (v * 0x1010101))
  if 0x100 ≤ o then s
  else if o % 16 < 8 then (if e.mask = 0#32 then s else s.setFld (Reg.ARB_J_CTRL_FAIRNESS j) 2)
  else if o % 16 = 12 ∧ wordBits e.mask 31 30 ≠ 0 then
    match wordBits new 31 30 with
    | 0 => all 16 s
    | 1 => all 4 s
    | _ => s
  else s

/-- CMD (R99): base and size of a ring in use stay and the write is recorded; ENABLE starts or stops the ring. -/
def State.putCmd (s : State) (e : RegEntry) (old new : Word) : State :=
  let o := offOf e.addr
  let r := (o - 0x20) / 32
  if o < 0x20 then s.setReg e.addr new
  else
    let on := s.flag (Reg.CMD_CFG_ENABLE r)
    if o % 32 < 16 then (if on then s.cmdErr 4 e.addr else s.setReg e.addr new)
    else
      let kept := if on then setWordBits (setWordBits new 12 8 (wordBits old 12 8)) 4 0 (wordBits old 4 0) else new
      let s := if kept = new then s else s.cmdErr 4 e.addr
      (s.setReg e.addr kept).ringEnabled r on

/-- DMA (R109, R114, R117): a channel that is ACTIVE takes only ABORT; RUN starts a HOST channel. -/
def State.putDma (s : State) (e : RegEntry) (new : Word) : State :=
  let o := offOf e.addr
  let c := o / 16
  if 0x400 ≤ o then s.setReg e.addr new
  else if s.chActive c then
    if o % 16 = 8 ∧ actBit e 30 then s.stopChain c 1 else s
  else if o % 16 = 8 then
    let s := s.setReg e.addr (setWordBits new 31 31 0)
    if actBit e 31 && !s.flag (Reg.DMA_CTRL_OWNER c) && !s.busStopped then s.chainStart c else s
  else s.setReg e.addr new

/-- DOSE (R145, R152, R309): a changed phase waits for the next swap, SWAP asks for it, buffers are shown. -/
def State.putDose (s : State) (e : RegEntry) (old new : Word) : State :=
  let o := offOf e.addr
  let b := o / 32
  let s := s.setReg e.addr new
  if 0x200 ≤ o then (if e.addr = Reg.DOSE_CTRL then s.showStackMax else s)
  else if o % 32 = 0 then
    let s := if differ old new 0xFFFF then s.setBar b { s.bar b with phasePend := true } else s
    if actBit e 31 then s.swapRequest b else s
  else if o % 32 = 8 then s.showStackMax
  else s

/-- FIRE (Tables 07-5 and 07-8, R180): ENABLE and CLEAR of a board; REQ is all ones while the Yo-yo is off. -/
def State.putFire (s : State) (e : RegEntry) (old new : Word) : State :=
  let o := offOf e.addr
  let k := o / 16
  let s := s.setReg e.addr new
  if o < 0x300 ∧ o % 16 = 0 then
    let s := if differ old new 0x80000000 then s.boardEnable k (wordBits new 31 31 == 1) else s
    if actBit e 30 then s.boardClear k else s
  else if e.addr = Reg.YOYO_CTRL ∧ wordBits new 31 31 = 0 then s.setReq 0xFFFF
  else s

/-- KAL (R213): a staged word, and APPLY. -/
def State.putKal (s : State) (e : RegEntry) (new : Word) : State :=
  let p := offOf e.addr / 32
  match offOf e.addr % 32 with
  | 0x04 =>
    let s := s.setReg e.addr new
    if actBit e 31 then s.setCam (s.kalPort p) { s.cam (s.kalPort p) with pend := true } else s
  | 0x08 => s.kalPdat p new
  | _ => s.setReg e.addr new

/-- RSMP (R216, R221): a staged word, APPLY and SWAP. -/
def State.putRsmp (s : State) (e : RegEntry) (new : Word) : State :=
  let r := offOf e.addr / 16
  match offOf e.addr % 16 with
  | 0x0 =>
    let s := s.setReg e.addr new
    let s := if actBit e 29 then s.rsmpApply (s.rsmpPort r) else s
    if actBit e 31 then s.rsmpSwap r else s
  | 0x4 => s.rsmpPdat r new
  | _ => s.setReg e.addr new

/-- AXIS (R274, R277, R279): ENABLE, FOLLOW, and the switches shown. -/
def State.putAxis (s : State) (e : RegEntry) (old new : Word) : State :=
  let x := offOf e.addr / 48
  let s := s.setReg e.addr new
  match offOf e.addr % 48 with
  | 0x00 =>
    let s := if bitAt e.mask.toNat 31 then s.axEnabled x else s
    if differ old new 0x20000000 then s.followWritten x else s
  | 0x04 => s.limitSelected x
  | 0x08 => s.limitSelected x
  | _ => s

/-- TIME (R287, R292): the host servo's lock, and the alarm. A domain whose SRC changes has no source until one is
heard. -/
def State.putTime (s : State) (e : RegEntry) (old new : Word) : State :=
  let o := offOf e.addr
  let d := o / 64
  let s := s.setReg e.addr new
  if o < 0x80 ∧ o % 64 = 0 then
    let s := if differ old new 0x70000000 then s.sourceChanged d else s
    s.hostLocked d
  else if e.addr = Reg.TD_ALARM_NS 0 ∨ e.addr = Reg.TD_ALARM_NS 1 then s.alarmArmed d
  else s

/-- EVT (Table 12-8): selectors of consumers that do not exist read 0; COINCIDENT of the selected consumer. -/
def State.putEvt (s : State) (e : RegEntry) (new : Word) : State :=
  let o := offOf e.addr
  if 0x400 ≤ o ∧ o < 0x480 then
    let n := (o - 0x400) / 4
    s.setReg e.addr (if n < 21 then new else if n = 21 then new &&& 0xBF#32 else 0#32)
  else if e.addr = Reg.EVT_CONS then
    let k := s.fld Reg.EVT_SEL_CONSUMER
    if actBit e 30 then s.setCons k { s.cons k with coincident := false } else s
  else s.setReg e.addr new

/-- MEM (R305, R306): D and H. -/
def State.putMem (s : State) (e : RegEntry) (new : Word) : State :=
  if e.addr = Reg.MEM_DET then (s.setReg e.addr new).detWritten
  else if e.addr = Reg.MEM_REGION then
    if s.fld Reg.MEM_REGION_SEL_REGION = 5 then { s with hostSize := wordBits new 15 0 } else s
  else s.setReg e.addr new

/-- The comparison of a CHECK (R326). -/
def State.chkCompare (s : State) (u : Nat) : State :=
  match execChkCheck u s with
  | .next t => t
  | _ => s

/-- CHK (R324 to R328): parameters are kept while a chain uses the unit; RESET, CHECK, feeds and words. -/
def State.putChk (s : State) (e : RegEntry) (old new : Word) : State :=
  let u := offOf e.addr / 16
  match offOf e.addr % 16 with
  | 0x0 =>
    let held := s.flag (Reg.CHK_CTRL_USERS u) && differ old new 0x0C00007F
    let s := s.setReg e.addr (if held then new &&& ~~~0x0C00007F#32 ||| (old &&& 0x0C00007F#32) else new)
    let s := if held then s.setFld (Reg.CHK_CTRL_COLLIDE u) 1 else s
    let s := if actBit e 30 then s.setChk u { s.chkUnit u with value := (s.chkUnit u).init % 2 ^ s.chkWidth u, count := 0 } else s
    if actBit e 31 then s.chkCompare u else s
  | 0x4 =>
    let l := feedBytes (s.fld (Reg.CHK_CTRL_FEED u)) (e.mask &&& e.value)
    let x := s.chkUnit u
    s.setChk u { x with value := s.chkRun u x.value l, count := (x.count + l.length) % idxMod }
  | 0xC => (s.chkPut u (s.fld (Reg.CHK_IDX_INDEX u)) new.toNat).chkNext u
  | _ => s.setReg e.addr new

/-- LANE (R337, Table 14-3): ROLE and TARGET act on the lane. -/
def State.putLane (s : State) (e : RegEntry) (old new : Word) : State :=
  let o := offOf e.addr
  if o < 0x300 ∧ o % 8 = 0 then
    let l := o / 8
    let s := s.setReg e.addr (setWordBits (setWordBits new 31 30 (wordBits old 31 30)) 29 28 (wordBits old 29 28))
    let s := if wordBits e.mask 31 30 ≠ 0 then s.laneTarget l (wordBits new 31 30) else s
    if wordBits e.mask 29 28 ≠ 0 then s.laneRole l (wordBits new 29 28) else s
  else s.setReg e.addr new

/-- NOZ: LOOP_EN turns the loop of bars on and off (R250). -/
def State.putNoz (s : State) (e : RegEntry) (old new : Word) : State :=
  if e.addr = Reg.NOZ_CTRL then
    (s.setReg e.addr (setWordBits new 31 16 (wordBits old 31 16))).setLoops (wordBits new 31 16)
  else s.setReg e.addr new

/-- A register takes its new word, and the write acts. -/
def State.putWord (s : State) (e : RegEntry) (old new : Word) : State :=
  let a := e.addr
  match blockOf a with
  | 0x02 => s.putArb e new
  | 0x03 => (s.setReg a new).lockLimitWritten (offOf a / 4)
  | 0x04 => s.putCmd e old new
  | 0x08 => s.putDma e new
  | 0x10 => s.putDose e old new
  | 0x11 => s.putFire e old new
  | 0x18 =>
    if offOf a % 32 = 0 then
      (s.setReg a (setWordBits new 31 31 (wordBits old 31 31))).capEnable (offOf a / 32) (wordBits new 31 31 == 1)
    else s.setReg a new
  | 0x19 => s.putKal e new
  | 0x1A => s.putRsmp e new
  | 0x1B =>
    let s := s.setReg a new
    if a = Reg.JIG_CTRL ∧ wordBits new 30 30 = 0 then s.zeroCorr else s
  | 0x1C => s.putNoz e old new
  | 0x20 =>
    let s := s.setReg a new
    if offOf a % 32 = 0 ∧ wordBits old 31 31 = 0 ∧ wordBits new 31 31 = 1 then s.encEnabled (offOf a / 32) else s
  | 0x22 => s.putAxis e old new
  | 0x28 => s.putTime e old new
  | 0x29 => s.putEvt e new
  | 0x30 => s.putMem e new
  | 0x31 => s.putChk e old new
  | 0x38 => s.putLane e old new
  | 0x40 => if offOf a % 16 < 12 then s.monWrite (offOf a / 16) (offOf a % 16 / 4) new else s.setReg a new
  | 0x48 =>
    let s := s.setReg a new
    if a = Reg.PWR_CTRL ∧ wordBits new 31 31 = 0 then s.undozeAll else s
  | _ => s.setReg a new

/-- The old word that a write starts from: what the register shows, of a staged or indexed word too (R103). -/
def State.oldWord (s : State) (a : Nat) : Word :=
  if (blockOf a = 0x19 ∧ offOf a % 32 = 8) ∨ (blockOf a = 0x1A ∧ offOf a % 16 = 4) ∨ (blockOf a = 0x31 ∧ offOf a % 16 = 12) ∨
      a = Reg.MEM_REGION then s.view a
  else s.reg a

/-! A write by command. -/

/-- One register written, with the checks of its own (R102, R103); a register that only hardware writes ignores it. -/
def State.writeOne (s : State) (e : RegEntry) : Except WriteFail State :=
  match planRow e.addr with
  | none => .error .badParam
  | some (r, _) =>
    if r.passive then .ok s
    else
      let old := s.oldWord e.addr
      let new := keepBroken (·.quiet) e.addr old (mergeWord r old e.mask e.value)
      match s.writeFail e old new with
      | some f => .error f
      | none =>
        if (rangesAt e.addr).any (·.broken new) || !wordOk e.addr old new then .error .badParam
        else .ok (if r.reached e.mask then s.putWord e old new else s)

/-- Entries take effect in the order given: at once, or from the wake on where their block is powered down (R107). -/
def State.commit (s : State) (l : List RegEntry) : State :=
  l.foldl (fun s e =>
    if s.defers e.addr then s.putLater e
    else match s.writeOne e with
      | .ok t => t
      | .error _ => s) s

/-- The writes that were accepted in DEEP for blocks that were powered down come into force (R107). -/
def State.applyLater (s : State) : State :=
  State.commit { s with pwr := { s.pwr with later := [] } } s.pwr.later

/-- Writes in the order given, each with its place in the packet: the failures, and the state after those that passed. -/
def State.writeAll (s : State) : List (Nat × RegEntry) → List (Nat × WriteFail) × State
  | [] => ([], s)
  | (o, e) :: t =>
    match s.writeOne e with
    | .error f => let r := s.writeAll t; ((o, f) :: r.1, r.2)
    | .ok s1 => s1.writeAll t

/-- The failure that stands first in the packet. -/
def firstFailure : List (Nat × WriteFail) → Option (Nat × WriteFail)
  | [] => none
  | (o, f) :: t =>
    match firstFailure t with
    | some (p, g) => if p < o then some (p, g) else some (o, f)
    | none => some (o, f)

/-- An entry put before the first of a higher address. -/
def insertEntry (x : Nat × RegEntry) : List (Nat × RegEntry) → List (Nat × RegEntry)
  | [] => [x]
  | y :: t => if x.2.addr < y.2.addr then x :: y :: t else y :: insertEntry x t

/-- Entries in ascending address order, those of one register in packet order. -/
def sortEntries (l : List (Nat × RegEntry)) : List (Nat × RegEntry) := l.foldl (fun acc x => insertEntry x acc) []

/-- How a write command ends: refused at a packet offset; refused by a configuration rule, with the fit check's
failing resource where the writes select PACE_FRUGAL; or written. -/
inductive WriteEnd where
  | failed (offset : Nat) (f : WriteFail)
  | broken (rule : CfgRule) (reason block : Nat) (unfit : Option Nat)
  | done (s : State)

/-- What the fit check finds where the writes select PACE_FRUGAL (R44): an entry reaches MODE, and `t`, the state after
them, has FRUGAL. -/
def State.frugalUnfit (t : State) (l : List RegEntry) : Option Nat :=
  if t.fld Reg.PACE_CTRL_MODE = 2 ∧ l.any (fun e => e.addr == Reg.PACE_CTRL && wordBits e.mask 1 0 != 0) then t.fitFails
  else none

/-- The writes of one command (R102): every check passes, or nothing is written. In DEEP those to powered-down blocks are
kept for the wake (R107). -/
def State.tryWrites (s : State) (l : List (Nat × RegEntry)) : WriteEnd :=
  let r := s.writeAll (sortEntries l)
  match firstFailure r.1 with
  | some (o, f) => .failed o f
  | none =>
    match l.find? fun x => !r.2.orderOk x.2.addr with
    | some (o, _) => .failed o .badParam
    | none =>
      let ws := l.map fun x => x.2.addr
      match firstBroken (readsAny ws) ws r.2 with
      | some (rule, reason, block) => .broken rule reason block (r.2.frugalUnfit (l.map Prod.snd))
      | none => .done (if ws.any s.defers then s.commit ((sortEntries l).map Prod.snd) else r.2)

/-- A FRUGAL selection that the fit check refuses is shown, with the first failing resource (R44). -/
def State.modeRefused (s : State) (unfit : Option Nat) : State :=
  match unfit with
  | some code => (s.setFld Reg.PACE_EVENTS_MODE_REFUSED 1).setFld Reg.PACE_EVENTS_LAST_REFUSE code
  | none => s

/-- A write command's end as its reply: `at_` gives the offset that R425 names for an entry; `reply` the payload of DONE. -/
def State.answerWrites (s : State) (rq : Rq) (op : Nat) (l : List (Nat × Nat × RegEntry))
    (reply : State → List Byte) : State :=
  match s.tryWrites (l.map fun x => (x.1, x.2.2)) with
  | .failed o .badParam => s.badParam rq op o
  | .failed _ .stateRefused => s.finish rq op scStateRefused
  | .failed _ .busy => s.finish rq op scResourceBusy
  | .failed o (.rejected reason block) =>
    let at_ := ((l.find? fun x => x.1 == o).map fun x => x.2.1).getD 0
    s.reject rq op reason block (rqOff rq at_)
  | .broken rule reason block unfit =>
    let at_ := match l.find? fun x => rule.reads x.2.2.addr with
      | some x => rqOff rq x.2.1
      | none => 0xFFFFFFFF
    (s.modeRefused unfit).reject rq op reason block at_
  | .done t => t.finish rq op scDone (reply t)

/-- WRITE_REG (R102, R417): 0x0011. -/
def execWriteReg (rq : Rq) (addr : Nat) (vals : List Word) (s : State) : Result :=
  .next <| s.runIn rq 0x0011 [domainOfBlock (blockOf addr % 256)] fun s =>
    let n := vals.length
    let mapped := rangeOk addr n && (List.range n).all fun i => (planRow (addr + 4 * i)).isSome
    s.withParams rq 0x0011 [(16, mapped), (20, decide (1 ≤ n) && decide (n ≤ 1018))] fun s =>
      s.answerWrites rq 0x0011
        (vals.zipIdx.map fun v => (24 + 4 * v.2, 24 + 4 * v.2, ⟨addr + 4 * v.2, 0xFFFFFFFF#32, v.1⟩)) fun _ => []

/-- The domains of a MODIFY_REG's registers (R18). -/
def modifyDomains (l : List RegEntry) : List Domain :=
  match (l.map fun e => domainOfBlock (blockOf e.addr % 256)).eraseDups with
  | [d] => [d]
  | ds => if ds.contains .platform then ds else .platform :: ds

/-- MODIFY_REG (R102, R103, R417): 0x0012. -/
def execModifyReg (rq : Rq) (entries : List RegEntry) (s : State) : Result :=
  .next <| s.runIn rq 0x0012 (modifyDomains entries) fun s =>
    let fields := entries.zipIdx.map fun e => (16 + 12 * e.2, addrOk e.1.addr && (planRow e.1.addr).isSome)
    s.withParams rq 0x0012 fields fun s =>
      s.answerWrites rq 0x0012 (entries.zipIdx.map fun e => (24 + 12 * e.2, 16 + 12 * e.2, e.1)) fun t =>
        entries.flatMap fun e => leBytes 4 (t.view e.addr).toNat

/-! A write through BAR0 (R21, R101). -/

/-- The DIRECT blocks. -/
def directBlock (b : Nat) : Bool := [0x04, 0x08, 0x29, 0x31, 0x40].contains b

/-- BAR0_WRITE (R101, R417): in a DIRECT block a field out of its range is ignored, and no state refuses. -/
def execBar0Write (addr : Nat) (value : Word) (be : Nat) (s : State) : Result :=
  .next <|
    if !addrOk addr || (blockLast (blockOf addr)).isNone then s
    else if !directBlock (blockOf addr) then s.cmdErr 1 addr
    else match planRow addr with
      | none => s
      | some (r, _) =>
        if be ≠ 15 then s.cmdErr 2 addr
        else if r.passive then s
        else
          let old := s.oldWord addr
          let new := keepBroken (fun _ => true) addr old (mergeWord r old 0xFFFFFFFF#32 value)
          let e : RegEntry := ⟨addr, 0xFFFFFFFF#32, value⟩
          if s.defers addr then s.putLater e else s.putWord e old new

/-! Rows that are one write of one field by command. Where a check fails nothing changes. -/

/-- One field written by command. -/
def State.writeField (s : State) (f : Fld) (v : Nat) : State :=
  let e := f.entry v
  if !s.writable || decide (2 ^ f.width ≤ v) then s
  else match s.tryWrites [(0, e)] with
    | .done t => t
    | .broken _ _ _ unfit => s.modeRefused unfit
    | .failed _ _ => s

/-- CMD_RING_ENABLE_WRITE (R99). -/
def execCmdRingEnableWrite (ring : Nat) (enable : Bool) (s : State) : Result :=
  .next (if ring < 4 then
      (s.setFlag (Reg.CMD_CFG_ENABLE ring) enable).ringEnabled ring (s.flag (Reg.CMD_CFG_ENABLE ring))
    else s)

/-- LOCK_HOLD_LIMIT_WRITE (R72). -/
def execLockHoldLimitWrite (lock limit : Nat) (s : State) : Result :=
  .next (if lock < 64 then s.writeField (Reg.LOCK_HOLD_LIMIT lock) limit else s)

/-- ARB_FAIRNESS_WRITE (R62). -/
def execArbFairnessWrite (junction mode : Nat) (s : State) : Result :=
  .next (if junction < 16 then s.writeField (Reg.ARB_J_CTRL_FAIRNESS junction) mode else s)

/-- PACE_MODE_WRITE (R43, R44, R47). -/
def execPaceModeWrite (mode : Nat) (s : State) : Result := .next (s.writeField Reg.PACE_CTRL_MODE mode)

/-- PACE_VCAP_WRITE (R46). -/
def execPaceVcapWrite (mv : Nat) (s : State) : Result := .next (s.writeField Reg.PACE_LIMIT_VCAP_MV mv)

/-- DCMP_ENABLE_WRITE (R123). -/
def execDcmpEnableWrite (unit : Nat) (enable : Bool) (s : State) : Result :=
  .next (if unit < 16 then s.writeField (Reg.DCMP_CTRL_ENABLE unit) (b2n enable) else s)

/-- FOLLOW_WRITE (R274). -/
def execFollowWrite (axis : Nat) (value : Bool) (s : State) : Result :=
  .next (if axis < 16 then s.writeField (Reg.AX_CTRL_FOLLOW axis) (b2n value) else s)

/-- AXIS_ENABLE_WRITE (R279). -/
def execAxisEnableWrite (axis : Nat) (value : Bool) (s : State) : Result :=
  .next (if axis < 16 then s.writeField (Reg.AX_CTRL_ENABLE axis) (b2n value) else s)

/-- ALARM_ARM (R292). -/
def execAlarmArm (dom ns : Nat) (s : State) : Result :=
  .next (if dom < 2 then s.writeField (Reg.TD_ALARM_NS_NS dom) ns else s)

/-- CAP_ENABLE_WRITE (R190, R194): legal in every state that accepts WRITE_REG. -/
def execCapEnableWrite (port : Nat) (enable : Bool) (s : State) : Result :=
  .next (if port < 24 then s.writeField (Reg.CAP_CTRL_ENABLE port) (b2n enable) else s)

/-! The end of a wake, when writes that waited for it come into force. -/

/-- WAKE_COMPLETE (R107, R401, R402): `stepFailed` tells that a wake step failed. -/
def execWakeComplete (stepFailed : Bool) (s : State) : Result :=
  .next <|
    if !s.flag Reg.PWR_STATUS_WAKING then s
    else
      let owed := s.pwr.owed
      let by_ := s.pwr.waker
      let s := s.leaveDeep.applyLater
      let s := if stepFailed then (s.setFld Reg.PWR_EVENTS_WAKE 1).log1 0x40 0x48 0 else s
      let s := if owed then s.pairOver else s
      let s := match by_ with
        | some w => (s.finishSlot w.1 w.2 scDone).vacate w.1 w.2
        | none => s
      s.endTask 56

end Sys2Proof.Machine
end

