-- ==== Sys2Proof/Machine/ConfigImage.lean ====
section
/-!
DEFINITION. Configuration images (R104, R106, R107, R420, R425): parsing, judging and applying them; CONFIG_LOAD and
CONFIG_CHECK.
-/
namespace Sys2Proof.Machine

/-- An item of an image: its byte offset, its address and its values. -/
structure ImageItem where
  /-- byte offset in the image -/
  at_ : Nat
  /-- address -/
  addr : Nat
  /-- values -/
  vals : List Word
  deriving DecidableEq, Repr

/-- The most bytes of an image. -/
def imageMax : Nat := 1048576

/-- The items of an image from a position on, or the offset of its first malformed item (R104); at most `fuel` items. -/
def parseImage (t : List Byte) : Nat → Nat → Except Nat (List ImageItem)
  | 0, pos => .error pos
  | fuel + 1, pos =>
    if t.length < pos + 8 then .error pos
    else
      let addr := leAt t pos 4
      let count := leAt t (pos + 4) 2
      let spare := leAt t (pos + 6) 2
      if count = 0 then
        if addr ≠ 0 ∨ spare ≠ 0 then .error pos else if pos + 8 = t.length then .ok [] else .error (pos + 8)
      else if spare ≠ 0 ∨ 1018 < count ∨ t.length < pos + 8 + 4 * count then .error pos
      else
        let vals := (List.range count).map fun i => wordOf (leAt t (pos + 8 + 4 * i) 4)
        match parseImage t fuel (pos + 8 + 4 * count) with
        | .error o => .error o
        | .ok l => .ok (⟨pos, addr, vals⟩ :: l)

/-- A whole image; one above 1 MiB is malformed where it passes that size. -/
def readImage (t : List Byte) : Except Nat (List ImageItem) :=
  if imageMax < t.length then .error imageMax else parseImage t (t.length / 8 + 1) 0

/-- The blocks whose fields RESET keeps (R420). -/
def resetKeeps (a : Nat) : Bool :=
  [0x04, 0x08, 0x39, 0x3A].contains (blockOf a) || (blockOf a == 0 && decide (0x30 ≤ offOf a))

/-- One register under RESET: its RW fields take their reset values; ROLE, RATE and TARGET of a strapped lane stay
(R356). -/
def State.resetReg (s : State) (a : Nat) : State :=
  match planRow a with
  | none => s
  | some (r, _) =>
    let old := s.reg a
    let e : RegEntry := ⟨a, if blockOf a = 0x38 ∧ offOf a < 0x300 ∧ s.strapped (offOf a / 8) then 0x00FFFFFF#32 else 0xFFFFFFFF#32,
      resetWord a⟩
    let rw (w : Word) : Word := r.fields.foldl (fun w f => if f.access = .rw then putMasked w e.mask e.value f else w) w
    if rw old = old then s else s.putWord e old (rw old)

/-- RESET (R420): RW and WO fields take their reset values but for the blocks of the host's own access and PLAT_SCRATCH;
RO, RC and W1C fields stay. The assignment, which no register holds, stays too (DESIGN CHOICE). -/
def State.resetConfig (s : State) : State :=
  let s := ((s.regs.map Prod.fst).filter fun a => !resetKeeps a).foldl State.resetReg s
  ({ s with hostSize := 0 } : State).showDet

/-- The writes of one value of an item: a value that carries EYE_RES, FAIRNESS or ARCHIVE_LEVEL sets the field in every
instance (R134, R194, Table 03-7). -/
def imageWrites (a : Nat) (v : Word) : List RegEntry :=
  let one : RegEntry := ⟨a, 0xFFFFFFFF#32, v⟩
  if blockOf a = 0x18 ∧ offOf a % 32 = 0 then
    one :: (List.range 24).map fun n => ⟨Reg.CAP_CTRL n, 0x01800000#32, v⟩
  else if blockOf a = 0x02 ∧ offOf a < 0x100 ∧ offOf a % 16 = 12 then
    one :: (List.range 16).map fun j => ⟨Reg.ARB_J_CTRL j, 0xC0000000#32, v⟩
  else if blockOf a = 0x0A ∧ offOf a % 16 = 0 then
    one :: (List.range 4).map fun u => ⟨Reg.CMPR_CTRL u, 0x0000000F#32, v⟩
  else [one]

/-- An item's entries. -/
def ImageItem.writes (i : ImageItem) : List RegEntry :=
  i.vals.zipIdx.flatMap fun v => imageWrites (i.addr + 4 * v.2) v.1

/-- What is wrong with an image: reason, byte 2 and offset (Table 04-6), and what the fit check found where the image
selects PACE_FRUGAL (R44). -/
structure ImageFault where
  /-- reason -/
  reason : Nat
  /-- byte 2 -/
  block : Nat
  /-- bytes 4 to 7 -/
  offset : Nat
  /-- resource of Table 02-5 -/
  unfit : Option Nat := none
  deriving DecidableEq, Repr

/-- How a refused write of an item is reported (R107, R425). A reserved or out-of-range field value of an item is
reason 2 with the register's block, not BAD_PARAM (DESIGN CHOICE: the spec does not say which). -/
def itemFault (i : ImageItem) (a : Nat) (f : WriteFail) : ImageFault :=
  match f with
  | .badParam => ⟨2, blockOf a % 256, i.at_, none⟩
  | .stateRefused => ⟨3, blockOf a % 256, i.at_, none⟩
  | .busy => ⟨3, blockOf a % 256, i.at_, none⟩
  | .rejected reason block => ⟨reason, block, i.at_, none⟩

/-- Entries written in turn, or the first failure with its address. -/
def State.writeList (s : State) : List RegEntry → Except (Nat × WriteFail) State
  | [] => .ok s
  | e :: t =>
    match s.writeOne e with
    | .error f => .error (e.addr, f)
    | .ok s1 => s1.writeList t

/-- Items applied in image order. -/
def State.writeItems (s : State) : List ImageItem → Except ImageFault State
  | [] => .ok s
  | i :: t =>
    if !rangeOk i.addr i.vals.length then .error (itemFault i i.addr .badParam)
    else match s.writeList i.writes with
      | .error (a, f) => .error (itemFault i a f)
      | .ok s1 => s1.writeItems t

/-- The offset of the last item that wrote a register which a rule reads. -/
def lastReader (rule : CfgRule) (l : List ImageItem) : Nat :=
  ((l.reverse.find? fun i => i.writes.any fun e => rule.reads e.addr).map (·.at_)).getD 0xFFFFFFFF

/-- The assignment that the configuration brings (R24), as the state codes it. -/
def halfCode : Half → Nat
  | .print => 0
  | .inspect => 1
  | .free => 2

/-- After an assignment change (R24, R27) the engines of a changed half cluster are loaded anew: those of a FREE one are
gated, and none of the others dozes. -/
def State.reassigned (s : State) (old : List Nat) : State :=
  let keeps (e : Nat) : Bool := s.spare.halves.getD (e / 8) 2 == old.getD (e / 8) 2
  State.showGated { s with spare := { s.spare with dozing := s.spare.dozing.filter fun e => keeps e.1 } }

/-- An image with its assignment judged and applied in the present state (R27, R102, R104, R425): the state after it, or
what is wrong. DESIGN CHOICE: no register and no item holds the assignment, so it comes beside the image as an operand; a
change of it that the state refuses is reported with byte 2 0 and offset 0xFFFFFFFF. -/
def State.applyImage (s : State) (t : List Byte) (reset : Bool) (assign : Option (List Half)) : Except ImageFault State :=
  match readImage t with
  | .error o => .error ⟨4, 0, o, none⟩
  | .ok items =>
    let halves := match assign with
      | some l => if l.length = 32 then l.map halfCode else s.spare.halves
      | none => s.spare.halves
    if halves ≠ s.spare.halves ∧ !s.idleSt then .error ⟨3, 0, 0xFFFFFFFF, none⟩
    else
      let s1 := if reset then s.resetConfig else s
      match State.writeItems { s1 with spare := { s1.spare with halves := halves } } items with
      | .error f => .error f
      | .ok s2 =>
        match items.find? fun i => i.writes.any fun e => !s2.orderOk e.addr with
        | some i => .error ⟨2, blockOf i.addr, i.at_, none⟩
        | none =>
          let ws := items.flatMap ImageItem.writes
          match firstBroken (fun _ => true) (ws.map (·.addr)) s2 with
          | some (rule, reason, block) => .error ⟨reason, block, lastReader rule items, s2.frugalUnfit ws⟩
          | none => .ok (if halves = s.spare.halves then s2 else s2.reassigned s.spare.halves)

/-- The state change of an accepted CONFIG_LOAD (R106, Table 04-8). -/
def State.afterConfig (s : State) (reset : Bool) : State :=
  if s.st = stStandby ∧ !reset then s.enter stReady
  else if s.st = stReady ∧ reset then s.enter stStandby
  else s

/-- CONFIG_LOAD (R20, R104, R106, R107): 0x0040. -/
def execConfigLoad (rq : Rq) (chunk : Chunk) (assign : Option (List Half)) (s : State) : Result :=
  .next <| s.run rq 0x0040 fun s =>
    let reset := chunkReset chunk
    s.loadChunk rq 0x0040 1 true chunk fun t _ s =>
      match s.applyImage t reset assign with
      | .error f => (s.modeRefused f.unfit).reject rq 0x0040 f.reason f.block f.offset
      | .ok s1 => (s1.zeroCorr.afterConfig reset).finish rq 0x0040 scDone (checkResult 0 0 0 0)

/-- CONFIG_CHECK (R20, R104, R425): 0x0041; judged as the CONFIG_LOAD of the same image and assignment, and nothing is
applied. -/
def execConfigCheck (rq : Rq) (chunk : Chunk) (assign : Option (List Half)) (s : State) : Result :=
  .next <| s.run rq 0x0041 fun s =>
    let reset := chunkReset chunk
    s.loadChunk rq 0x0041 1 true chunk fun t _ s =>
      match s.applyImage t reset assign with
      | .error f => s.finish rq 0x0041 scDone (checkResult 1 f.reason f.block f.offset)
      | .ok _ => s.finish rq 0x0041 scDone (checkResult 0 0 0 0)

end Sys2Proof.Machine
end

