-- ==== Sys2Proof/Machine/Ports.lean ====
section
/-!
DEFINITION. The PCIe endpoint's resets and vectors (R344, R347, R348) and the Ethernet ports (R349, R350).
-/
namespace Sys2Proof.Machine

/-! PCIe. -/

/-- A host ring after a reset of the endpoint: its ENABLE is cleared, its session is closed and reopened (R347). -/
def State.cutRing (s : State) (r : Nat) : State :=
  let s := (s.setFld (Reg.CMD_CFG_ENABLE r) 0).setRing r {}
  ((s.closeSession r).setStall r).mendC1

/-- A record ring is withdrawn; its records wait for a new RECORD_RING_SET (R347). -/
def State.withdrawRing (s : State) (r : Nat) : State :=
  (s.setRecRing r { s.recRing r with placed := false, breached := false, coalescing := false, deferred := false }).mendC1

/-- The link no longer shows a speed or width. -/
def State.linkGone (s : State) : State :=
  ((s.setFld Reg.PCIE_LINK_LTSSM 0).setFld Reg.PCIE_LINK_SPEED 0).setFld Reg.PCIE_LINK_WIDTH 0

/-- PCIE_RESET (R347): the endpoint only; FLR, PERST# and the rest count apart. -/
def execPcieReset (kind : PcieReset) (s : State) : Result :=
  .next <|
    let s := (List.range 64).foldl State.cutChain s
    let s := (List.range 4).foldl State.cutRing s
    let s := [0, 1].foldl State.withdrawRing s
    let s := { s with msix := {} }
    let s := match kind with
      | .flr => (s.setFld Reg.PCIE_EVENTS_FLR 1).bump Reg.PCIE_CNT_RST_FLR
      | .perst => ((s.setFld Reg.PCIE_EVENTS_PERST 1).bump Reg.PCIE_CNT_RST_PERST).linkGone
      | .hotReset => (s.setFld Reg.PCIE_EVENTS_LINK_DOWN 1).bump Reg.PCIE_CNT_RST_LINK_DOWN
      | .linkDisable => ((s.setFld Reg.PCIE_EVENTS_LINK_DOWN 1).bump Reg.PCIE_CNT_RST_LINK_DOWN).linkGone
      | .linkDown => ((s.setFld Reg.PCIE_EVENTS_LINK_DOWN 1).bump Reg.PCIE_CNT_RST_LINK_DOWN).linkGone
    s.log1 0x40 0x39 0

/-- PERST_RELEASE (R348, R414): the link has trained. -/
def execPerstRelease (speed width : Nat) (s : State) : Result :=
  .next <|
    let s := (s.setFld Reg.PCIE_LINK_SPEED speed).setFld Reg.PCIE_LINK_WIDTH width
    (s.setFld Reg.PCIE_LINK_LTSSM (Config.ltssmUp % 64)).setFld Reg.PCIE_LINK_LPM 0

/-- MSIX_UNMASK (R344): a vector with its pending bit set sends its message. -/
def execMsixUnmask (vector : Nat) (s : State) : Result :=
  .next <|
    if 256 ≤ vector then s
    else
      let p := tabGet false s.msix.pend vector
      let s := { s with msix := ⟨tabPut false s.msix.unmasked vector true, tabPut false s.msix.pend vector false⟩ }
      if p then s.emit (.msix vector) else s

/-! Ethernet. -/

/-- A port is on: enabled and, in DEEP, the one that DEEP_PORT names (R352). -/
def State.ethOn (s : State) (p : Nat) : Bool :=
  s.flag (Reg.ETH_CTRL_ENABLE p) && (s.awake || s.fld (Reg.ETH_CTRL_DEEP_PORT 0) == p)

/-- The port's MAC address. -/
def State.ethMac (s : State) (p : Nat) : Nat :=
  s.fld (Reg.ETH_MAC_HI_MAC_HI p) * 2 ^ 32 + s.fld (Reg.ETH_MAC_LO_MAC_LO p)

/-- The IPv4 addresses 224.0.1.129 and 224.0.0.107. -/
def ptpGroups : List Nat := [0xE0000181, 0xE000006B]

/-- Table 14-6 and R350: whether a port accepts a frame. -/
def State.ethAccepts (s : State) (p : Nat) (f : EthFrame) : Bool :=
  let size := decide (f.tags ≤ 1) && decide (f.len ≤ 1518 + 4 * f.tags)
  let dest := f.dstMac == s.ethMac p
    || (f.dstMac == 0xFFFFFFFFFFFF && f.etherType == 0x0806)
    || [0x011B19000000, 0x0180C200000E].contains f.dstMac
    || ([0x01005E000181, 0x01005E00006B].contains f.dstMac && f.etherType == 0x0800 && ptpGroups.contains f.dstIp)
  size && dest && !(f.etherType == 0x0800 && f.ipOptions) && f.etherType != 0x86DD

/-- A frame sent by a port. -/
def State.ethSend (s : State) (p hop ip kind : Nat) : State :=
  (s.emit (.ethAnswer p hop ip kind)).bump (Reg.ETH_CNT_FRAMES_TX p)

/-- The next hop of a port's answer to an address (R350); none outside the prefix without a gateway. -/
def State.ethHop (s : State) (p ip : Nat) : Option Nat :=
  if s.ethNear ip p then some ip else if s.flag (Reg.ETH_GW_GW p) then some (s.fld (Reg.ETH_GW_GW p)) else none

/-- What an accepted frame does: ARP and ICMP echo are answered, a management datagram reaches the command path
(R89); PTP messages are the parser's. -/
def State.ethTaken (s : State) (p : Nat) (f : EthFrame) : State :=
  let ours := s.flag (Reg.ETH_IP_IP p) && f.dstIp == s.fld (Reg.ETH_IP_IP p)
  if f.etherType = 0x0806 then (if ours then s.ethSend p f.srcIp f.srcIp 0 else s)
  else if f.etherType ≠ 0x0800 ∨ !ours then s
  else if f.proto = 1 then
    match s.ethHop p f.srcIp with
    | some hop => if leAt f.payload 0 1 = 8 then s.ethSend p hop f.srcIp 1 else s
    | none => s
  else if f.proto = 17 ∧ f.dstPort = s.fld (Reg.ETH_MAC_HI_UDP_PORT p) then
    s.acceptFrom1 (.eth f.srcIp f.srcPort) f.payload
  else s

/-- ETH_FRAME_RECEIVE (R36, R89, R350). -/
def execEthFrameReceive (port : Nat) (frame : EthFrame) (s : State) : Result :=
  .next <|
    if !(decide (port < 2) && s.ethOn port) then s
    else if !frame.fcsOk then s.bump (Reg.ETH_CNT_ERR_FCS port)
    else if !s.ethAccepts port frame then s.bump (Reg.ETH_CNT_ERR_DISCARD port)
    else if !frame.fits then (s.bump (Reg.ETH_CNT_ERR_OVERRUN port)).islandOverrun 0x3A port
    else if frame.etherType = 0x0800 ∧ frame.fragment then
      (s.bump (Reg.ETH_CNT_ERR_FRAG port)).bump Reg.CMD_COUNTS_DROPPED
    else (s.bump (Reg.ETH_CNT_FRAMES_RX port)).ethTaken port frame

/-- ETH_LINK_CHANGE (R349). -/
def execEthLinkChange (port : Nat) (link anDone fecLock : Bool) (s : State) : Result :=
  .next <|
    if port < 2 then
      ((s.setFlag (Reg.ETH_STATUS_LINK port) link).setFlag (Reg.ETH_STATUS_AN_DONE port) anDone).setFlag
        (Reg.ETH_STATUS_FEC_LOCK port) fecLock
    else s

end Sys2Proof.Machine
end

