-- ==== Sys2Proof/Machine/Ptp.lean ====
section
/-!
DEFINITION. Received PTP messages (R289 to R291).
-/
namespace Sys2Proof.Machine

/-! Time stamps (R289). -/

/-- The receive stamp of a message that crosses a port's stamp point now: in the domain that stamps there, less RX_LAT. -/
def State.rxStamp (s : State) (port : Nat) : Clock :=
  let c := s.clock (s.stampDomain port)
  c.withUnits (c.units - (s.fld (Reg.TIME_LAT_RX_LAT port) * 2 ^ 32 : Nat))

/-- The transmit stamp of a message that crosses a port's stamp point at `c`: TX_LAT is added. -/
def State.txStamp (s : State) (port : Nat) (c : Clock) : Clock :=
  c.withUnits (c.units + (s.fld (Reg.TIME_LAT_TX_LAT port) * 2 ^ 32 : Nat))

/-- The 16-byte form of a stamp. -/
def stampForm (dom port : Nat) (c : Clock) : List Byte :=
  leBytes 6 c.sec ++ leBytes 4 c.ns ++ leBytes 2 (c.frac / 65536) ++ bytesOf [dom, port, 0, 0]

/-- A transmit stamp of whole nanoseconds as (seconds, ns). -/
def State.sentStamp (s : State) (port : Nat) (t : Nat × Nat) : Nat × Nat :=
  let c := s.txStamp port { sec := t.1, ns := t.2 }
  (c.sec, c.ns)

/-- The stamp of a measurement record: seconds bits 47:0, then nanoseconds. -/
def ptpStamp (t : Nat × Nat) : List Byte := leBytes 6 t.1 ++ leBytes 4 t.2

/-! What a port takes (R290). -/

/-- The rates that are taken: logSyncInterval and logMinDelayReqInterval −7 to 4, as a Sync, its Follow_Up and a
Delay_Resp carry them. -/
def ptpRateOk (m : PtpMsg) : Bool :=
  match m.kind with
  | .sync | .followUp | .delayResp => decide (-7 ≤ m.logInterval) && decide (m.logInterval ≤ 4)
  | _ => true

/-- The delay mechanism that a message belongs to is the port's: end-to-end or peer-to-peer, never both. -/
def ptpDelayOk (peer : Bool) (m : PtpMsg) : Bool :=
  match m.kind with
  | .delayResp => !peer
  | .pdelayResp | .pdelayFollowUp => peer
  | _ => true

/-- Whether a message is one for a port's clock: PTP on, versionPTP 2 with a minor version of 0 or 1, the port's
transport with at most one VLAN tag, its own domain number, its delay mechanism; management messages are discarded. -/
def State.ptpTakes (s : State) (port : Nat) (m : PtpMsg) : Bool :=
  decide (port < 2) && s.flag (Reg.TIME_PTP_ENABLE port) && m.kind != .management && m.version == 2 &&
    decide (m.minorVersion ≤ 1) && decide (m.vlanTags ≤ 1) &&
    m.transport == (if s.flag (Reg.TIME_PTP_TRANSPORT port) then .ieee8023 else .udpIpv4) &&
    m.domainNum == s.fld (Reg.TIME_PTP_DOMAIN_NUM port) && ptpDelayOk (s.flag (Reg.TIME_PTP_DELAY port)) m

/-! Exchanges (R291). -/

/-- A completed exchange: its kind (1 SYNC, 2 DELAY, 3 PDELAY), the four stamps, and the sum of the correctionFields. -/
structure PtpExchange where
  /-- 1 SYNC, 2 DELAY, 3 PDELAY -/
  kind : Nat
  /-- t1 -/
  t1 : Nat × Nat := (0, 0)
  /-- t2 -/
  t2 : Nat × Nat := (0, 0)
  /-- t3 -/
  t3 : Nat × Nat := (0, 0)
  /-- t4 -/
  t4 : Nat × Nat := (0, 0)
  /-- sum of the correctionFields -/
  correction : Int
  deriving DecidableEq, Repr

/-- The two-step message that a follow-up completes: the one held at `key`, when the sequenceId is its own. -/
def State.ptpHeldFor (s : State) (key seq : Nat) : Option PtpHeld :=
  ((s.time.ptp.find? fun e => e.1 == key).map Prod.snd).filter fun h => h.seq == seq

/-- The exchange that a message received now at a port completes, if any. -/
def State.ptpExchange (s : State) (port : Nat) (m : PtpMsg) : Option PtpExchange :=
  let c := s.rxStamp port
  let rx := (c.sec, c.ns)
  let own := s.sentStamp port m.sent
  match m.kind with
  | .sync => if m.twoStep then none else some { kind := 1, t1 := m.stamp, t2 := rx, correction := m.correction }
  | .followUp =>
    (s.ptpHeldFor (2 * port) m.sequenceId).map fun h =>
      { kind := 1, t1 := m.stamp, t2 := h.rx, correction := h.correction + m.correction }
  | .delayResp => some { kind := 2, t3 := own, t4 := m.stamp, correction := m.correction }
  | .pdelayResp =>
    if m.twoStep then none
    else some { kind := 3, t1 := own, t2 := m.requestStamp, t3 := m.stamp, t4 := rx, correction := m.correction }
  | .pdelayFollowUp =>
    (s.ptpHeldFor (2 * port + 1) m.sequenceId).map fun h =>
      { kind := 3, t1 := own, t2 := h.request, t3 := m.stamp, t4 := h.rx, correction := h.correction + m.correction }
  | _ => none

/-- The table of two-step messages after a message: a two-step Sync or Pdelay_Resp is held, its follow-up ends that. -/
def State.ptpHold (s : State) (port : Nat) (m : PtpMsg) : State :=
  let c := s.rxStamp port
  let put (key : Nat) : State :=
    { s with time := { s.time with
        ptp := tabInsert key ⟨m.sequenceId, (c.sec, c.ns), m.requestStamp, m.correction⟩ (tabErase key s.time.ptp) } }
  let drop (key : Nat) : State := { s with time := { s.time with ptp := tabErase key s.time.ptp } }
  match m.kind with
  | .sync => if m.twoStep then put (2 * port) else drop (2 * port)
  | .followUp => drop (2 * port)
  | .pdelayResp => if m.twoStep then put (2 * port + 1) else drop (2 * port + 1)
  | .pdelayFollowUp => drop (2 * port + 1)
  | _ => s

/-- The 64-byte measurement record of type 0x30 (R291). -/
def ptpRecord (port dom : Nat) (m : PtpMsg) (x : PtpExchange) (changed : Bool) (n : Nat) : List Byte :=
  pad64 (bytesOf [0x30, port, dom, x.kind] ++ leBytes 4 n ++ ptpStamp x.t1 ++ ptpStamp x.t2 ++ ptpStamp x.t3 ++
    ptpStamp x.t4 ++ leBytes 8 (unsignedOf 64 x.correction) ++ leBytes 2 m.sequenceId ++
    bytesOf [unsignedOf 8 m.logInterval, b2n changed])

/-! What a message does. -/

/-- A domain follows a port: PTP_A or PTP_B names it, PTP_BC names both (R287). -/
def State.follows (s : State) (d port : Nat) : Bool := s.srcOf d == 1 + port || s.srcOf d == 3

/-- The state of a port, for a domain that follows it: PORT_STATE shows its source port, in a boundary clock the port in
SLAVE state (R287, Table 12-3). -/
def State.portShown (s : State) (d port st : Nat) : State :=
  let c := s.clock d
  if s.srcOf d ≠ 3 ∨ st = 3 ∨ c.slave = some port then
    (s.setFld (Reg.TD_STATUS_PORT_STATE d) st).setClock d
      { c with slave := if s.srcOf d = 3 ∧ st = 3 then some port else none }
  else s

/-- The selected master of a domain's source port, and the currentUtcOffset that it gives (R290, R291). -/
def State.masterHeard (s : State) (d : Nat) (m : PtpMsg) : State :=
  let c := s.clock d
  let s := s.setClock d { c with
    master := some m.source
    masterChanged := c.masterChanged || c.master != some m.source
    utc := m.utcOffset.or c.utc }
  if d = s.activeDom then s.showUtc else s

/-- What a message does for a domain that follows the port. A completed SYNC is the source heard; a boundary clock's
source is the port in SLAVE state. -/
def State.ptpUse (s : State) (port : Nat) (m : PtpMsg) (x : Option PtpExchange) (d : Nat) : State :=
  let s := s.portShown d port m.portState
  if !m.selected || (s.srcOf d == 3 && (s.clock d).slave != some port) then s
  else
    let s := s.masterHeard d m
    match x with
    | none => s
    | some x =>
      let s := if x.kind = 1 then s.sourceHeard d else s
      let s := match m.offset with
        | some o => s.measurement d o
        | none => s
      if s.flag (Reg.TD_CTRL_SERVO d) then
        let s1 := s.addRecord 1 (ptpRecord port d m x (s.clock d).masterChanged)
        s1.setClock d { s1.clock d with masterChanged := false }
      else s

/-- PTP_MESSAGE (R289 to R291): stamped in the domain that names the port; used by every domain that follows it.
Messages with other rates are discarded and counted by the port. -/
def execPtpMessage (port : Nat) (msg : PtpMsg) (s : State) : Result :=
  .next <|
    if !s.ptpTakes port msg then s
    else if !ptpRateOk msg then s.bump (Reg.ETH_CNT_ERR_DISCARD port)
    else
      let x := s.ptpExchange port msg
      ([0, 1].filter fun d => s.follows d port).foldl (fun s d => s.ptpUse port msg x d) (s.ptpHold port msg)

/-- ANNOUNCE_RECEIPT_TIMEOUT (R290): under the default BMCA the domain's selected master changes. PRESUMED: as IEEE 1588
has it, a time-receiver-only clock's port falls back to LISTENING and a boundary clock's port becomes MASTER. -/
def execAnnounceReceiptTimeout (port : Nat) (s : State) : Result :=
  .next <|
    if !(decide (port < 2) && s.flag (Reg.TIME_PTP_ENABLE port)) then s
    else ([0, 1].filter fun d => s.follows d port).foldl (fun s d =>
      if s.srcOf d = 3 ∧ (s.clock d).slave ≠ some port then s
      else
        let s := s.portShown d port (if s.srcOf d = 3 then 4 else 1)
        s.setClock d { s.clock d with master := none, masterChanged := true }) s

end Sys2Proof.Machine
end

