-- ==== Sys2Proof/Machine/Dispatch.lean ====
section
/-! DEFINITION. The meaning of each command: one arm per constructor of Instr. -/
namespace Sys2Proof.Machine

/-- The effect of a command on everything but the queue. -/
def exec (i : Instr) (s : State) : Host.Outcome State Fault Refusal :=
  match i with
  | .deviceReset cause env => Sys2Proof.Machine.execDeviceReset cause env s
  | .supplyShutdown cause => Sys2Proof.Machine.execSupplyShutdown cause s
  | .supplyRestart env => Sys2Proof.Machine.execSupplyRestart env s
  | .reverseBlock => Sys2Proof.Machine.execReverseBlock s
  | .phaseDisable phase => Sys2Proof.Machine.execPhaseDisable phase s
  | .zoneFault group line => Sys2Proof.Machine.execZoneFault group line s
  | .commandPacket src bytes => Sys2Proof.Machine.execCommandPacket src bytes s
  | .dbCmd ring idx => Sys2Proof.Machine.execDbCmd ring idx s
  | .dbRpl ring idx => Sys2Proof.Machine.execDbRpl ring idx s
  | .dbFetch ring value => Sys2Proof.Machine.execDbFetch ring value s
  | .replyRingStallTimeout ring => Sys2Proof.Machine.execReplyRingStallTimeout ring s
  | .cmdRingEnableWrite ring enable => Sys2Proof.Machine.execCmdRingEnableWrite ring enable s
  | .ethSessionIdleTimeout sess => Sys2Proof.Machine.execEthSessionIdleTimeout sess s
  | .keyLockoutEnd slot => Sys2Proof.Machine.execKeyLockoutEnd slot s
  | .barrierEngage => Sys2Proof.Machine.execBarrierEngage s
  | .nop rq => Sys2Proof.Machine.execNop rq s
  | .getState rq => Sys2Proof.Machine.execGetState rq s
  | .replyFetch rq tag => Sys2Proof.Machine.execReplyFetch rq tag s
  | .readReg rq addr count => Sys2Proof.Machine.execReadReg rq addr count s
  | .writeReg rq addr vals => Sys2Proof.Machine.execWriteReg rq addr vals s
  | .modifyReg rq entries => Sys2Proof.Machine.execModifyReg rq entries s
  | .lockAcquire rq lock waitMs => Sys2Proof.Machine.execLockAcquire rq lock waitMs s
  | .lockWaitTimeout lock sess => Sys2Proof.Machine.execLockWaitTimeout lock sess s
  | .lockRelease rq lock => Sys2Proof.Machine.execLockRelease rq lock s
  | .lockHoldExpiry lock => Sys2Proof.Machine.execLockHoldExpiry lock s
  | .lockHoldLimitWrite lock limit => Sys2Proof.Machine.execLockHoldLimitWrite lock limit s
  | .engineLockRequest engine lock cls => Sys2Proof.Machine.execEngineLockRequest engine lock cls s
  | .sessionOpen ip port rq payload => Sys2Proof.Machine.execSessionOpen ip port rq payload s
  | .sessionClose rq sess => Sys2Proof.Machine.execSessionClose rq sess s
  | .keySet rq slot key => Sys2Proof.Machine.execKeySet rq slot key s
  | .configLoad rq chunk assign => Sys2Proof.Machine.execConfigLoad rq chunk assign s
  | .configCheck rq chunk assign => Sys2Proof.Machine.execConfigCheck rq chunk assign s
  | .serviceEnter rq => Sys2Proof.Machine.execServiceEnter rq s
  | .serviceExit rq => Sys2Proof.Machine.execServiceExit rq s
  | .sleep rq => Sys2Proof.Machine.execSleep rq s
  | .sleepEntryComplete => Sys2Proof.Machine.execSleepEntryComplete s
  | .wake rq => Sys2Proof.Machine.execWake rq s
  | .wakePin => Sys2Proof.Machine.execWakePin s
  | .wakeComplete stepFailed => Sys2Proof.Machine.execWakeComplete stepFailed s
  | .jobOpen rq job mask => Sys2Proof.Machine.execJobOpen rq job mask s
  | .pageSubmit rq page ch len => Sys2Proof.Machine.execPageSubmit rq page ch len s
  | .pageSubmitStart => Sys2Proof.Machine.execPageSubmitStart s
  | .pageRepeat rq handle count => Sys2Proof.Machine.execPageRepeat rq handle count s
  | .jobClose rq job => Sys2Proof.Machine.execJobClose rq job s
  | .arm rq job => Sys2Proof.Machine.execArm rq job s
  | .start rq pos => Sys2Proof.Machine.execStart rq pos s
  | .pause rq => Sys2Proof.Machine.execPause rq s
  | .resume rq pos => Sys2Proof.Machine.execResume rq pos s
  | .stop rq => Sys2Proof.Machine.execStop rq s
  | .barDelaySet rq bar delay => Sys2Proof.Machine.execBarDelaySet rq bar delay s
  | .nozzleMapLoad rq chunk => Sys2Proof.Machine.execNozzleMapLoad rq chunk s
  | .thresholdLoad rq chunk => Sys2Proof.Machine.execThresholdLoad rq chunk s
  | .substituteSet rq chunk => Sys2Proof.Machine.execSubstituteSet rq chunk s
  | .toneCurveLoad rq chunk => Sys2Proof.Machine.execToneCurveLoad rq chunk s
  | .gainLoad rq chunk => Sys2Proof.Machine.execGainLoad rq chunk s
  | .boardProfileLoad rq chunk => Sys2Proof.Machine.execBoardProfileLoad rq chunk s
  | .gateTest rq gate board first count => Sys2Proof.Machine.execGateTest rq gate board first count s
  | .gateShot gate baseline samples check => Sys2Proof.Machine.execGateShot gate baseline samples check s
  | .cameraSet rq port ident expo gain => Sys2Proof.Machine.execCameraSet rq port ident expo gain s
  | .cameraSetTransfer port => Sys2Proof.Machine.execCameraSetTransfer port s
  | .sensorTransferEnd port bytesIn => Sys2Proof.Machine.execSensorTransferEnd port bytesIn s
  | .sensorXfer rq port bytesOut => Sys2Proof.Machine.execSensorXfer rq port bytesOut s
  | .colourModelLoad rq chunk => Sys2Proof.Machine.execColourModelLoad rq chunk s
  | .coverageLoad rq chunk => Sys2Proof.Machine.execCoverageLoad rq chunk s
  | .blurLoad rq chunk => Sys2Proof.Machine.execBlurLoad rq chunk s
  | .resampleCoefLoad rq chunk => Sys2Proof.Machine.execResampleCoefLoad rq chunk s
  | .classSet rq chunk => Sys2Proof.Machine.execClassSet rq chunk s
  | .recordRingSet rq ring vector addr size => Sys2Proof.Machine.execRecordRingSet rq ring vector addr size s
  | .nozzleStateSet rq idx state hold => Sys2Proof.Machine.execNozzleStateSet rq idx state hold s
  | .nozzleStateRead rq first count => Sys2Proof.Machine.execNozzleStateRead rq first count s
  | .axisMove rq axis mode target speed => Sys2Proof.Machine.execAxisMove rq axis mode target speed s
  | .axisStop rq axis ramp => Sys2Proof.Machine.execAxisStop rq axis ramp s
  | .axisHome rq axis dir => Sys2Proof.Machine.execAxisHome rq axis dir s
  | .axisProfileSet rq axis acc dec jerk => Sys2Proof.Machine.execAxisProfileSet rq axis acc dec jerk s
  | .microstepLoad rq chunk => Sys2Proof.Machine.execMicrostepLoad rq chunk s
  | .posReference rq enc pos => Sys2Proof.Machine.execPosReference rq enc pos s
  | .axisStatus rq axis => Sys2Proof.Machine.execAxisStatus rq axis s
  | .timeRead rq dom => Sys2Proof.Machine.execTimeRead rq dom s
  | .timeAdjust rq dom inc adj => Sys2Proof.Machine.execTimeAdjust rq dom inc adj s
  | .domainSelect rq dom => Sys2Proof.Machine.execDomainSelect rq dom s
  | .eventFire rq sw => Sys2Proof.Machine.execEventFire rq sw s
  | .fwStage rq chunk => Sys2Proof.Machine.execFwStage rq chunk s
  | .fwSwitch rq => Sys2Proof.Machine.execFwSwitch rq s
  | .fwHandover => Sys2Proof.Machine.execFwHandover s
  | .fwFallbackEnd => Sys2Proof.Machine.execFwFallbackEnd s
  | .kernelRotationStep => Sys2Proof.Machine.execKernelRotationStep s
  | .spareStatus rq => Sys2Proof.Machine.execSpareStatus rq s
  | .calRun rq kind inst => Sys2Proof.Machine.execCalRun rq kind inst s
  | .darkCalDone port => Sys2Proof.Machine.execDarkCalDone port s
  | .paperCalDone port => Sys2Proof.Machine.execPaperCalDone port s
  | .calRead rq kind inst start => Sys2Proof.Machine.execCalRead rq kind inst start s
  | .calStorePeriodic => Sys2Proof.Machine.execCalStorePeriodic s
  | .faultLogRead rq first => Sys2Proof.Machine.execFaultLogRead rq first s
  | .faultLogCopy => Sys2Proof.Machine.execFaultLogCopy s
  | .monBinsLoad rq chunk => Sys2Proof.Machine.execMonBinsLoad rq chunk s
  | .monSnapshot rq mask start => Sys2Proof.Machine.execMonSnapshot rq mask start s
  | .chainStatus rq => Sys2Proof.Machine.execChainStatus rq s
  | .chainRescan rq => Sys2Proof.Machine.execChainRescan rq s
  | .bar0Write addr value be => Sys2Proof.Machine.execBar0Write addr value be s
  | .readClear path addr => Sys2Proof.Machine.execReadClear path addr s
  | .loLatchRead path addr => Sys2Proof.Machine.execLoLatchRead path addr s
  | .arbiterGrant net arb reqs => Sys2Proof.Machine.execArbiterGrant net arb reqs s
  | .arbiterStuck arb input cmd => Sys2Proof.Machine.execArbiterStuck arb input cmd s
  | .arbFairnessWrite junction mode => Sys2Proof.Machine.execArbFairnessWrite junction mode s
  | .paceInterval meas => Sys2Proof.Machine.execPaceInterval meas s
  | .fitReturn => Sys2Proof.Machine.execFitReturn s
  | .tjOver tj => Sys2Proof.Machine.execTjOver tj s
  | .vcoreLow => Sys2Proof.Machine.execVcoreLow s
  | .paceModeWrite mode => Sys2Proof.Machine.execPaceModeWrite mode s
  | .paceVcapWrite mv => Sys2Proof.Machine.execPaceVcapWrite mv s
  | .dmaRun ch => Sys2Proof.Machine.execDmaRun ch s
  | .dmaAbort ch => Sys2Proof.Machine.execDmaAbort ch s
  | .dmaDescriptorFetch ch bytes => Sys2Proof.Machine.execDmaDescriptorFetch ch bytes s
  | .dmaDescriptorComplete ch data => Sys2Proof.Machine.execDmaDescriptorComplete ch data s
  | .pcieCompletionError kind addr batch => Sys2Proof.Machine.execPcieCompletionError kind addr batch s
  | .pcieCompletionTimeout addr batch => Sys2Proof.Machine.execPcieCompletionTimeout addr batch s
  | .dmaBusHaltClear => Sys2Proof.Machine.execDmaBusHaltClear s
  | .kpsJobHeader ch bytes => Sys2Proof.Machine.execKpsJobHeader ch bytes s
  | .kpsPageHeader ch bytes => Sys2Proof.Machine.execKpsPageHeader ch bytes s
  | .kpsBlock ch bytes => Sys2Proof.Machine.execKpsBlock ch bytes s
  | .kpsTrailer ch bytes => Sys2Proof.Machine.execKpsTrailer ch bytes s
  | .segmentAssign => Sys2Proof.Machine.execSegmentAssign s
  | .segmentSwitch unit => Sys2Proof.Machine.execSegmentSwitch unit s
  | .segmentComplete unit => Sys2Proof.Machine.execSegmentComplete unit s
  | .dcmpEnableWrite unit enable => Sys2Proof.Machine.execDcmpEnableWrite unit enable s
  | .compressStreamStart unit => Sys2Proof.Machine.execCompressStreamStart unit s
  | .compressStreamEnd unit => Sys2Proof.Machine.execCompressStreamEnd unit s
  | .sliceExpand bar check => Sys2Proof.Machine.execSliceExpand bar check s
  | .frameAssemble bar checks => Sys2Proof.Machine.execFrameAssemble bar checks s
  | .doseSwapRequest bar => Sys2Proof.Machine.execDoseSwapRequest bar s
  | .doseSwap bar => Sys2Proof.Machine.execDoseSwap bar s
  | .lineTransmit board => Sys2Proof.Machine.execLineTransmit board s
  | .decisionPoint board => Sys2Proof.Machine.execDecisionPoint board s
  | .fireStrobe board => Sys2Proof.Machine.execFireStrobe board s
  | .strobeFall board => Sys2Proof.Machine.execStrobeFall board s
  | .strobeWatchdog board => Sys2Proof.Machine.execStrobeWatchdog board s
  | .echo board bytes => Sys2Proof.Machine.execEcho board bytes s
  | .echoTimeout board => Sys2Proof.Machine.execEchoTimeout board s
  | .credit board bytes => Sys2Proof.Machine.execCredit board bytes s
  | .helloReply board bytes => Sys2Proof.Machine.execHelloReply board bytes s
  | .helloRepeat board => Sys2Proof.Machine.execHelloRepeat board s
  | .boardEnableWrite board enable => Sys2Proof.Machine.execBoardEnableWrite board enable s
  | .fireClear board => Sys2Proof.Machine.execFireClear board s
  | .yoyoInterval => Sys2Proof.Machine.execYoyoInterval s
  | .energyCapExpiry => Sys2Proof.Machine.execEnergyCapExpiry s
  | .spdrqWord => Sys2Proof.Machine.execSpdrqWord s
  | .fireTos bar => Sys2Proof.Machine.execFireTos bar s
  | .cameraTrigger port => Sys2Proof.Machine.execCameraTrigger port s
  | .frameOpen port => Sys2Proof.Machine.execFrameOpen port s
  | .frameClose port => Sys2Proof.Machine.execFrameClose port s
  | .cameraPortLine port samples => Sys2Proof.Machine.execCameraPortLine port samples s
  | .capEnableWrite port enable => Sys2Proof.Machine.execCapEnableWrite port enable s
  | .stripeProcess pipe => Sys2Proof.Machine.execStripeProcess pipe s
  | .gainSetCompute port => Sys2Proof.Machine.execGainSetCompute port s
  | .kalPdatWrite pipe value => Sys2Proof.Machine.execKalPdatWrite pipe value s
  | .kalApply pipe => Sys2Proof.Machine.execKalApply pipe s
  | .resampleLine port => Sys2Proof.Machine.execResampleLine port s
  | .rsmpPdatWrite unit value => Sys2Proof.Machine.execRsmpPdatWrite unit value s
  | .rsmpApply unit => Sys2Proof.Machine.execRsmpApply unit s
  | .rsmpSwap unit => Sys2Proof.Machine.execRsmpSwap unit s
  | .gridLineCompare => Sys2Proof.Machine.execGridLineCompare s
  | .frameStatistics port => Sys2Proof.Machine.execFrameStatistics port s
  | .recordDeliver ring => Sys2Proof.Machine.execRecordDeliver ring s
  | .consumerIndexPoll ring result => Sys2Proof.Machine.execConsumerIndexPoll ring result s
  | .recordRingFullTimeout ring => Sys2Proof.Machine.execRecordRingFullTimeout ring s
  | .findingApply => Sys2Proof.Machine.execFindingApply s
  | .loopSwapStage bar => Sys2Proof.Machine.execLoopSwapStage bar s
  | .loopLate bar => Sys2Proof.Machine.execLoopLate bar s
  | .loopEnWrite mask => Sys2Proof.Machine.execLoopEnWrite mask s
  | .modLimitWrite limit => Sys2Proof.Machine.execModLimitWrite limit s
  | .quadStep enc a b samples => Sys2Proof.Machine.execQuadStep enc a b samples s
  | .quadDoubleStep enc samples => Sys2Proof.Machine.execQuadDoubleStep enc samples s
  | .indexEdge enc samples => Sys2Proof.Machine.execIndexEdge enc samples s
  | .stillTimeout enc => Sys2Proof.Machine.execStillTimeout enc s
  | .ssiRead unit word => Sys2Proof.Machine.execSsiRead unit word s
  | .axisUpdate axis => Sys2Proof.Machine.execAxisUpdate axis s
  | .axisHoldCurrent axis => Sys2Proof.Machine.execAxisHoldCurrent axis s
  | .followStep axis => Sys2Proof.Machine.execFollowStep axis s
  | .followWrite axis value => Sys2Proof.Machine.execFollowWrite axis value s
  | .switchAccept sw level us => Sys2Proof.Machine.execSwitchAccept sw level us s
  | .axisStageFault axis => Sys2Proof.Machine.execAxisStageFault axis s
  | .axisEnableWrite axis value => Sys2Proof.Machine.execAxisEnableWrite axis value s
  | .domainPps dom => Sys2Proof.Machine.execDomainPps dom s
  | .alarmArm dom ns => Sys2Proof.Machine.execAlarmArm dom ns s
  | .alarmFire dom => Sys2Proof.Machine.execAlarmFire dom s
  | .periodic unit => Sys2Proof.Machine.execPeriodic unit s
  | .sourceAbsent => Sys2Proof.Machine.execSourceAbsent s
  | .ptpMessage port msg => Sys2Proof.Machine.execPtpMessage port msg s
  | .ethFrameReceive port frame => Sys2Proof.Machine.execEthFrameReceive port frame s
  | .eventRaise prod tag => Sys2Proof.Machine.execEventRaise prod tag s
  | .pinEdge pin level ns => Sys2Proof.Machine.execPinEdge pin level ns s
  | .pinPulse pin => Sys2Proof.Machine.execPinPulse pin s
  | .tscapCapture unit => Sys2Proof.Machine.execTscapCapture unit s
  | .tscapRelease path => Sys2Proof.Machine.execTscapRelease path s
  | .wakeEvent => Sys2Proof.Machine.execWakeEvent s
  | .axisEstop axis => Sys2Proof.Machine.execAxisEstop axis s
  | .printPause => Sys2Proof.Machine.execPrintPause s
  | .printStop => Sys2Proof.Machine.execPrintStop s
  | .monSnapshotEvent => Sys2Proof.Machine.execMonSnapshotEvent s
  | .monRestart => Sys2Proof.Machine.execMonRestart s
  | .detRefresh ch => Sys2Proof.Machine.execDetRefresh ch s
  | .bankRefresh ch bank => Sys2Proof.Machine.execBankRefresh ch bank s
  | .selfRefreshEntry ch => Sys2Proof.Machine.execSelfRefreshEntry ch s
  | .impedanceCal ch => Sys2Proof.Machine.execImpedanceCal ch s
  | .retraining ch => Sys2Proof.Machine.execRetraining ch s
  | .memoryAccess acc => Sys2Proof.Machine.execMemoryAccess acc s
  | .throttleRelease ch => Sys2Proof.Machine.execThrottleRelease ch s
  | .scrubRead => Sys2Proof.Machine.execScrubRead s
  | .stackEmergency stack temp => Sys2Proof.Machine.execStackEmergency stack temp s
  | .memDetWrite d => Sys2Proof.Machine.execMemDetWrite d s
  | .memInject value => Sys2Proof.Machine.execMemInject value s
  | .chkFeed unit value => Sys2Proof.Machine.execChkFeed unit value s
  | .chkCheck unit => Sys2Proof.Machine.execChkCheck unit s
  | .chkReset unit => Sys2Proof.Machine.execChkReset unit s
  | .chkDataWrite unit value => Sys2Proof.Machine.execChkDataWrite unit value s
  | .chkDataRead path unit => Sys2Proof.Machine.execChkDataRead path unit s
  | .laneTargetWrite lane target => Sys2Proof.Machine.execLaneTargetWrite lane target s
  | .eqAdapt lane foms => Sys2Proof.Machine.execEqAdapt lane foms s
  | .laneLock lane bits => Sys2Proof.Machine.execLaneLock lane bits s
  | .laneLockLoss lane words => Sys2Proof.Machine.execLaneLockLoss lane words s
  | .linkReady lane blk => Sys2Proof.Machine.execLinkReady lane blk s
  | .linkRateReq lane blk => Sys2Proof.Machine.execLinkRateReq lane blk s
  | .linkRateAck lane blk => Sys2Proof.Machine.execLinkRateAck lane blk s
  | .rateReqTimeout lane => Sys2Proof.Machine.execRateReqTimeout lane s
  | .linkAlign lane blk pos => Sys2Proof.Machine.execLinkAlign lane blk pos s
  | .takeoverStart group => Sys2Proof.Machine.execTakeoverStart group s
  | .takeoverSwitch group comparePass => Sys2Proof.Machine.execTakeoverSwitch group comparePass s
  | .takeoverTimeout group => Sys2Proof.Machine.execTakeoverTimeout group s
  | .takeoverRecalDone group ok => Sys2Proof.Machine.execTakeoverRecalDone group ok s
  | .pcieReset kind => Sys2Proof.Machine.execPcieReset kind s
  | .msixUnmask vector => Sys2Proof.Machine.execMsixUnmask vector s
  | .chainDiscovery => Sys2Proof.Machine.execChainDiscovery s
  | .token west bytes => Sys2Proof.Machine.execToken west bytes s
  | .leader west bytes => Sys2Proof.Machine.execLeader west bytes s
  | .ringTimeSend => Sys2Proof.Machine.execRingTimeSend s
  | .time west bytes => Sys2Proof.Machine.execTime west bytes s
  | .delayReq west bytes => Sys2Proof.Machine.execDelayReq west bytes s
  | .delayResp west bytes => Sys2Proof.Machine.execDelayResp west bytes s
  | .positionSend => Sys2Proof.Machine.execPositionSend s
  | .position west bytes => Sys2Proof.Machine.execPosition west bytes s
  | .positionTimeout => Sys2Proof.Machine.execPositionTimeout s
  | .config west bytes => Sys2Proof.Machine.execConfig west bytes s
  | .chainStandbyEntry => Sys2Proof.Machine.execChainStandbyEntry s
  | .cmd west bytes => Sys2Proof.Machine.execCmd west bytes s
  | .reply west bytes => Sys2Proof.Machine.execReply west bytes s
  | .chainCredit west bytes => Sys2Proof.Machine.execChainCredit west bytes s
  | .chainLinkLoss west => Sys2Proof.Machine.execChainLinkLoss west s
  | .engineDoze engine => Sys2Proof.Machine.execEngineDoze engine s
  | .engineUndoze engine => Sys2Proof.Machine.execEngineUndoze engine s
  | .spareTakeover engine cause blank => Sys2Proof.Machine.execSpareTakeover engine cause blank s
  | .supervisorTakeover cause standby => Sys2Proof.Machine.execSupervisorTakeover cause standby s
  | .monitorSample unit value => Sys2Proof.Machine.execMonitorSample unit value s
  | .monitorWindowEnd unit => Sys2Proof.Machine.execMonitorWindowEnd unit s
  | .monitorConfigWrite unit reg value => Sys2Proof.Machine.execMonitorConfigWrite unit reg value s
  | .stackEmergencyEnd stack temp => Sys2Proof.Machine.execStackEmergencyEnd stack temp s
  | .tjOverEnd tj => Sys2Proof.Machine.execTjOverEnd tj s
  | .residualSlewEnd => Sys2Proof.Machine.execResidualSlewEnd s
  | .inactiveSourceAbsent => Sys2Proof.Machine.execInactiveSourceAbsent s
  | .announceReceiptTimeout port => Sys2Proof.Machine.execAnnounceReceiptTimeout port s
  | .ethLinkChange port link anDone fecLock => Sys2Proof.Machine.execEthLinkChange port link anDone fecLock s
  | .perstRelease speed width => Sys2Proof.Machine.execPerstRelease speed width s
  | .interruptCoalesce ring => Sys2Proof.Machine.execInterruptCoalesce ring s
  | .faultedPairTestDone pass => Sys2Proof.Machine.execFaultedPairTestDone pass s
  | .switchRawEdge sw level => Sys2Proof.Machine.execSwitchRawEdge sw level s
  | .engineLockRelease engine lock => Sys2Proof.Machine.execEngineLockRelease engine lock s
  | .mgmtPortAccess select reads => Sys2Proof.Machine.execMgmtPortAccess select reads s

end Sys2Proof.Machine
end

