-- ==== Sys2Proof/Safety.lean ====
section
/-!
DEFINITION. The terms that statements use: what every state of a run keeps, when a command packet's command comes to run,
and what its answer is.
-/
namespace Sys2Proof.Machine

/-- Device memory is in its canonical form: addresses strictly rising, and no byte listed that reads as an unlisted one
does. -/
def State.memWf (s : State) : Prop := Memory.wf s.mem

/-- The registers that an answer or a barrier's end may touch: PLAT_STATE (BARRIER), CMD_STATUS (STALL) and the frame
counters of the two ports. -/
def answerRegs : List Nat := [Reg.PLAT_STATE, Reg.CMD_STATUS, Reg.ETH_CNT_FRAMES 0, Reg.ETH_CNT_FRAMES 1]

/-- A command of opcode `op` passes steps 12 and 13 of Table 04-3 now, for the domains of its opcode: nothing holds it
(R19, R20), the device state accepts it (Table 04-9), the lock it names is its session's (R74), no reserved byte of its
packet is set (R423), and its session is open (R93). -/
def State.ready (s : State) (rq : Rq) (op : Nat) (doms : List Domain := [domainOfOpcode op]) : Bool :=
  !s.held rq op doms && acceptedIn op s.st && (match rq.lock with | some k => s.holdsLock rq.sess k | none => true)
    && (s.reservedAt rq).isNone && s.sessOpen rq.sess

/-- The command `rq` of opcode `op` is answered: its tag slot holds the reply with this status and payload (R83). -/
def State.answered (s : State) (rq : Rq) (op status : Nat) (payload : List Byte) (more : Bool := false) : Bool :=
  let x := s.slot rq.sess rq.tag
  x.taken && x.done && x.opcode == op && x.seq == rq.seq && x.status == status && x.payload == payload && x.more == more

/-- The command `rq` of opcode `op` is under way: its tag slot is taken and holds no reply yet (R83). -/
def State.unanswered (s : State) (rq : Rq) (op : Nat) : Bool :=
  let x := s.slot rq.sess rq.tag
  x.taken && !x.done && x.opcode == op && x.seq == rq.seq

/-- The command of this tag slot is under way, and its session is open: its completion will be answered (R83, R93). -/
def State.slotOpen (s : State) (sess tag : Nat) : Bool :=
  s.sessOpen sess && (s.slot sess tag).taken && !(s.slot sess tag).done

/-- The command of this tag slot is answered with this status and payload (R83). -/
def State.slotDone (s : State) (sess tag status : Nat) (payload : List Byte) : Bool :=
  let x := s.slot sess tag
  x.taken && x.done && x.status == status && x.payload == payload

/-- A write of the value to the field by command passes the checks of R102: the device state, the field's range, the
states its register may be written in, and the configuration rules that read it. -/
def State.passes (s : State) (f : Fld) (v : Nat) : Bool :=
  s.writable && decide (v < 2 ^ f.width) && match s.tryWrites [(0, f.entry v)] with
    | .done _ => true
    | _ => false

/-- A packet passes steps 9 to 11 of Table 04-3 at this device (R80, R423): its flags, its target, its opcode, its length.
-/
def State.sound (s : State) (forwarded : Bool) (b : List Byte) : Bool :=
  let h := headerOf b
  let p := payloadOf b h
  (s.flagBreach forwarded h p).isNone && (!h.chained || h.target == s.chainId || forwarded) && opcodes.contains h.opcode
    && h.opcode != 0x0030 && lengthCheck h.opcode (if h.locked then p.drop 4 else p) == .fits

/-- A packet is new to its session, in sequence, and finds its tag free (R83 to R85, steps 5 to 8 of Table 04-3). -/
def State.inTurn (s : State) (sess : Nat) (b : List Byte) : Bool :=
  let h := headerOf b
  let x := s.slot sess h.tag
  h.opcode != 0x0002 && !(x.taken && x.opcode == h.opcode && x.seq == h.seq) &&
    (match (s.session sess).lastSeq with | none => true | some q => h.seq == (q + 1) % idxMod) && (!x.taken || x.done)

/-- The header of a packet is whole and legal (steps 1 to 4 of Table 04-3): its CRC, its tag, its flags. -/
def headerOk (b : List Byte) : Bool :=
  let h := headerOf b
  decide (h.length ≤ 4080) && packetCrc b h == h.crc && decide (h.tag < 64) && decide (h.flags < 16)

/-- What a packet puts into its domain's queue (R18). -/
def queuedOf (sess : Nat) (b : List Byte) : Queued :=
  let h := headerOf b
  let own := if h.locked then (payloadOf b h).drop 4 else payloadOf b h
  ⟨sess, h.tag, h.opcode, routeOf h.opcode own, h.immediate, commandOf (h.rq sess (payloadOf b h)) h.opcode own⟩

/-- The request of a command that comes by a packet, with its opcode and its domains (R18). SESSION_OPEN and REPLY_FETCH
join no queue; every other constructor is not a packet's command. -/
def request : Instr → Option (Rq × Nat × List Domain)
  | .nop rq => some (rq, 0x0000, [domainOfOpcode 0x0000])
  | .getState rq => some (rq, 0x0001, [domainOfOpcode 0x0001])
  | .readReg rq addr _ => some (rq, 0x0010, [domainOfBlock (blockOf addr % 256)])
  | .writeReg rq addr _ => some (rq, 0x0011, [domainOfBlock (blockOf addr % 256)])
  | .modifyReg rq entries => some (rq, 0x0012, modifyDomains entries)
  | .lockAcquire rq _ _ => some (rq, 0x0020, [domainOfOpcode 0x0020])
  | .lockRelease rq _ => some (rq, 0x0021, [domainOfOpcode 0x0021])
  | .sessionClose rq _ => some (rq, 0x0031, [domainOfOpcode 0x0031])
  | .keySet rq _ _ => some (rq, 0x0032, [domainOfOpcode 0x0032])
  | .configLoad rq _ _ => some (rq, 0x0040, [domainOfOpcode 0x0040])
  | .configCheck rq _ _ => some (rq, 0x0041, [domainOfOpcode 0x0041])
  | .serviceEnter rq => some (rq, 0x0050, [domainOfOpcode 0x0050])
  | .serviceExit rq => some (rq, 0x0051, [domainOfOpcode 0x0051])
  | .sleep rq => some (rq, 0x0052, [domainOfOpcode 0x0052])
  | .wake rq => some (rq, 0x0053, [domainOfOpcode 0x0053])
  | .jobOpen rq _ _ => some (rq, 0x0100, [domainOfOpcode 0x0100])
  | .pageSubmit rq _ _ _ => some (rq, 0x0101, [domainOfOpcode 0x0101])
  | .pageRepeat rq _ _ => some (rq, 0x0102, [domainOfOpcode 0x0102])
  | .jobClose rq _ => some (rq, 0x0103, [domainOfOpcode 0x0103])
  | .arm rq _ => some (rq, 0x0110, [domainOfOpcode 0x0110])
  | .start rq _ => some (rq, 0x0111, [domainOfOpcode 0x0111])
  | .pause rq => some (rq, 0x0112, [domainOfOpcode 0x0112])
  | .resume rq _ => some (rq, 0x0113, [domainOfOpcode 0x0113])
  | .stop rq => some (rq, 0x0114, [domainOfOpcode 0x0114])
  | .barDelaySet rq _ _ => some (rq, 0x0120, [domainOfOpcode 0x0120])
  | .nozzleMapLoad rq _ => some (rq, 0x0121, [domainOfOpcode 0x0121])
  | .thresholdLoad rq _ => some (rq, 0x0122, [domainOfOpcode 0x0122])
  | .substituteSet rq _ => some (rq, 0x0123, [domainOfOpcode 0x0123])
  | .toneCurveLoad rq _ => some (rq, 0x0124, [domainOfOpcode 0x0124])
  | .gainLoad rq _ => some (rq, 0x0125, [domainOfOpcode 0x0125])
  | .boardProfileLoad rq _ => some (rq, 0x0126, [domainOfOpcode 0x0126])
  | .gateTest rq _ _ _ _ => some (rq, 0x0130, [domainOfOpcode 0x0130])
  | .cameraSet rq _ _ _ _ => some (rq, 0x0200, [domainOfOpcode 0x0200])
  | .sensorXfer rq _ _ => some (rq, 0x0201, [domainOfOpcode 0x0201])
  | .colourModelLoad rq _ => some (rq, 0x0202, [domainOfOpcode 0x0202])
  | .coverageLoad rq _ => some (rq, 0x0203, [domainOfOpcode 0x0203])
  | .blurLoad rq _ => some (rq, 0x0204, [domainOfOpcode 0x0204])
  | .resampleCoefLoad rq _ => some (rq, 0x0205, [domainOfOpcode 0x0205])
  | .classSet rq _ => some (rq, 0x0206, [domainOfOpcode 0x0206])
  | .recordRingSet rq _ _ _ _ => some (rq, 0x0207, [domainOfOpcode 0x0207])
  | .nozzleStateSet rq _ _ _ => some (rq, 0x0208, [domainOfOpcode 0x0208])
  | .nozzleStateRead rq _ _ => some (rq, 0x0209, [domainOfOpcode 0x0209])
  | .axisMove rq _ _ _ _ => some (rq, 0x0300, [domainOfOpcode 0x0300])
  | .axisStop rq _ _ => some (rq, 0x0301, [domainOfOpcode 0x0301])
  | .axisHome rq _ _ => some (rq, 0x0302, [domainOfOpcode 0x0302])
  | .axisProfileSet rq _ _ _ _ => some (rq, 0x0303, [domainOfOpcode 0x0303])
  | .microstepLoad rq _ => some (rq, 0x0304, [domainOfOpcode 0x0304])
  | .posReference rq _ _ => some (rq, 0x0305, [domainOfOpcode 0x0305])
  | .axisStatus rq _ => some (rq, 0x0306, [domainOfOpcode 0x0306])
  | .timeRead rq _ => some (rq, 0x0400, [domainOfOpcode 0x0400])
  | .timeAdjust rq _ _ _ => some (rq, 0x0401, [domainOfOpcode 0x0401])
  | .domainSelect rq _ => some (rq, 0x0402, [domainOfOpcode 0x0402])
  | .eventFire rq _ => some (rq, 0x0403, [domainOfOpcode 0x0403])
  | .fwStage rq _ => some (rq, 0x0500, [domainOfOpcode 0x0500])
  | .fwSwitch rq => some (rq, 0x0501, [domainOfOpcode 0x0501])
  | .spareStatus rq => some (rq, 0x0502, [domainOfOpcode 0x0502])
  | .calRun rq _ _ => some (rq, 0x0503, [domainOfOpcode 0x0503])
  | .calRead rq _ _ _ => some (rq, 0x0504, [domainOfOpcode 0x0504])
  | .faultLogRead rq _ => some (rq, 0x0505, [domainOfOpcode 0x0505])
  | .monBinsLoad rq _ => some (rq, 0x0600, [domainOfOpcode 0x0600])
  | .monSnapshot rq _ _ => some (rq, 0x0601, [domainOfOpcode 0x0601])
  | .chainStatus rq => some (rq, 0x0700, [domainOfOpcode 0x0700])
  | .chainRescan rq => some (rq, 0x0701, [domainOfOpcode 0x0701])
  | _ => none

/-- From `s` to `t` nothing has changed but an answer and a barrier's end: the reply's way (the outbox, the command unit,
the chain's links and their lanes, the MSI-X table) and the registers that show it. -/
def State.onlyAnswered (s t : State) : Prop :=
  { t with regs := s.regs, outbox := s.outbox, cmd := s.cmd, chain := s.chain, lanes := s.lanes, msix := s.msix } = s ∧
    ∀ a, a ∉ answerRegs → t.reg a = s.reg a

/-- A chunk without LAST and without RESET that opens or continues the staging of its opcode and instance (R104). -/
def State.chunkGoesOn (s : State) (op limit : Nat) (c : Chunk) : Bool :=
  let x := s.staged op c.inst
  decide (c.inst < limit) && c.flags == 0 && decide (0 < c.data.length) && c.data.length % 4 == 0 &&
    decide (c.offset + c.data.length ≤ c.total) &&
    (c.offset == 0 || x.data.length == c.offset && x.total == c.total && !x.reset)

/-! The state in three parts beside the registers, the command unit, the events, the log and the ports. -/

/-- What printing runs on: the job, the bars, the firing sequencers, the print position, the nozzles, the ingest. -/
def State.printUnits (s : State) := (s.job, s.bars, s.fire, s.ppos, s.noz, s.ingest)

/-- What senses and measures: the cameras, the inspection, the motion, the monitors, the time domains, the check units. -/
def State.sensing (s : State) := (s.eye, s.insp, s.motion, s.mons, s.time, s.chk)

/-- What the platform runs on: the locks, the spares, the calibration store, the power, the memory channels, the HOST
region's size, the arbiters, the record rings, the latches. The lanes change with whatever is sent over them. -/
def State.platform (s : State) :=
  (s.locks, s.spare, s.nvc, s.pwr, s.dram, s.hostSize, s.arbs, s.rings, s.latches)

end Sys2Proof.Machine
end

