-- ==== Sys2Proof/Certificates/Slice0/Obligations.lean ====
section
/-!
DEFINITION. The statements about the model. The rules R<n> and the tables are the spec's. A completion statement says of its
commands that exec answers a next state, for every state and operands that meet the hypotheses, and what that state holds.
-/
open Sys2Proof Sys2Proof.Machine

/-- A step with a command in front is that command's own effect, on the state whose queue is the rest. -/
def Obligations.StepRunsFront : Prop :=
  ∀ (c : Instr) (s : State), step { s with pending := c :: s.pending } = exec c s

/-- No command and no step stops the block: a step answers a next state, the first of the waiting commands leaves the queue
and no other does; with none waiting one tick of 4 ns passes (the model's choice, assumption log 3). -/
def Obligations.EveryStepAnswers : Prop :=
  (∀ (s : State), ∃ t, step s = .next t ∧ t.pending = s.pending.tail) ∧
  (∀ (s : State), s.pending = [] → ∃ t, step s = .next t ∧ t = tick s ∧ t.now = s.now + 1 ∧
    (s.dram.backs = [] → t.mem = s.mem))

/-- The state at power-on: BOOTING, nothing waiting, and every register at the value of its field maps (R420). That device
memory then reads 0 is the model's choice (assumption log 2). -/
def Obligations.ResetState : Prop :=
  State.reset.pending = [] ∧ State.reset.st = stBooting ∧ State.reset.now = 0 ∧
  (∀ a, State.reset.reg a = resetWord a) ∧ State.reset.memWf ∧ (∀ a, memByte State.reset.mem a = 0) ∧
  (∀ n, n < 4 → State.reset.sessOpen n) ∧ (∀ n, 4 ≤ n → n < 16 → ¬ State.reset.sessOpen n) ∧
  (∀ k, k < 64 → State.reset.lockState k = 0) ∧ State.reset.dram.errs = [] ∧ State.reset.outbox = []

/-- Which bytes of device memory a command may change. A tick performs the queued write-backs of corrected words (R318).
MEMORY_ACCESS stores its own bytes; TO_DEV data, a frame's statistics block and a crop's stream go to their own bytes; what a
decompressor makes goes into the planes being ingested (R126); a frame of a bar goes to its payloads and descriptors (R152),
its fate to its entry of the fate ring (R224); START, a job's end and what clears the bars clear descriptor and fate rings
(R158). A device reset or a supply's end leaves memory without contents. No other command changes a byte. -/
def Obligations.MemoryFrame : Prop :=
  ∀ (c : Instr) (s t : State), exec c s = .next t →
    let same (x : Nat) : Prop := memByte t.mem x = memByte s.mem x
    let out (x a n : Nat) : Prop := x < a ∨ a + n ≤ x
    let fates (b x : Nat) : Prop := ∀ c ∈ s.copies, ∀ f, out x (s.fateAt b c f) (s.fateBytes b)
    let rings (x : Nat) : Prop := ∀ b < 16, ∀ c ∈ s.copies,
      out x (s.descRing b c) (s.fld (Reg.DOSE_BAR_BUF_LINES b) * (s.descBytes b + s.fateBytes b))
    let planes (x : Nat) : Prop := ∀ u, u = [] ∨ (∃ p ∈ s.ingest.pages, ∃ q ∈ p.2.planes, u = q.units) →
      ∀ o, x ≠ s.planeAddr u o
    match c with
      | .deviceReset .. | .supplyRestart .. | .supplyShutdown .. => t.mem = s.mem ∨ t.mem = []
      | .domainPps _ | .alarmFire _ | .periodic _ | .residualSlewEnd =>
        ∀ x, (∀ e ∈ s.dram.backs, x / 16 ≠ e.1) → same x
      | .memoryAccess acc =>
        match acc.write with
        | some b => ∀ x, out x acc.addr b.length → same x
        | none => t.mem = s.mem
      | .dmaDescriptorComplete ch data =>
        match (s.dmaCh ch).desc with
        | none => t.mem = s.mem
        | some d => (dKind d ≠ 1 → t.mem = s.mem) ∧
            ∀ x, out x (dDev d + (s.dmaCh ch).moved) (s.nextData ch d data).length → same x
      | .kpsBlock .. | .segmentAssign | .segmentSwitch .. => ∀ x, planes x → same x
      | .frameAssemble bar _ =>
        let f := (s.bar bar).frame
        ∀ x, (∀ c ∈ s.copies, ∀ k ∈ s.barBoards bar, out x (s.payloadAt bar c k f) (s.paddedPayload k) ∧
          out x (s.descAt bar c k f) 16) → same x
      | .decisionPoint board | .echo board .. | .echoTimeout board =>
        ∀ x, (∀ b, s.boardBar board = some b → fates b x) → same x
      | .fireStrobe board => ∀ x, (∀ b, s.boardBar board = some b → fates b x) → rings x → same x
      | .arm .. | .start .. | .resume .. | .stop .. | .jobClose .. | .printStop => ∀ x, rings x → same x
      | .frameStatistics port =>
        let at_ := statsBase + 262144 * (s.insp.block % 2 ^ s.fld Reg.JIG_STATS_SLOTS_EXP)
        ∀ x, out x at_ (64 + 8 * colsOf (s.cam port).rs + 3072) → same x
      | .compressStreamEnd unit =>
        match tabGet none s.ingest.streams unit with
        | none => t.mem = s.mem
        | some (c, level) =>
          let at_ := cropBase + 524288 * (c.crop % 2 ^ s.fld Reg.JIG_CROP_SLOTS_EXP)
          ∀ x, out x at_ (max c.header.length (48 + (compress level c.data).length)) → same x
      | _ => t.mem = s.mem

/-- Device memory keeps its canonical form through every step, from every state that has it (in reset: ResetState). -/
def Obligations.StepKeepsMemWf : Prop :=
  ∀ (s t : State), s.memWf → step s = .next t → t.memWf

/-- The job, the bars, the firing sequencers, the print position, the nozzles and the ingest change only by the commands
listed; every other command leaves all of them as they are. -/
def Obligations.PrintUnitsFrame : Prop :=
  ∀ (c : Instr) (s t : State), exec c s = .next t →
    match c with
      | .deviceReset .. | .supplyShutdown .. | .supplyRestart .. | .commandPacket .. | .ethSessionIdleTimeout .. |
      .writeReg .. | .modifyReg .. | .lockHoldLimitWrite .. | .sessionClose .. | .configLoad .. | .configCheck .. |
      .sleepEntryComplete | .wakeComplete .. | .jobOpen .. | .pageSubmit .. | .pageSubmitStart | .pageRepeat .. |
      .jobClose .. | .arm .. | .start .. | .pause .. | .resume .. | .stop .. | .nozzleMapLoad .. |
      .thresholdLoad .. | .substituteSet .. | .toneCurveLoad .. | .gainLoad .. | .boardProfileLoad .. |
      .gateTest .. | .gateShot .. | .nozzleStateSet .. | .calStorePeriodic | .bar0Write .. | .arbFairnessWrite .. |
      .paceModeWrite .. | .paceVcapWrite .. | .dmaRun .. | .dmaAbort .. | .dmaDescriptorFetch .. |
      .dmaDescriptorComplete .. | .pcieCompletionError .. | .pcieCompletionTimeout .. | .kpsJobHeader .. |
      .kpsPageHeader .. | .kpsBlock .. | .kpsTrailer .. | .segmentAssign | .segmentSwitch .. |
      .segmentComplete .. | .dcmpEnableWrite .. | .compressStreamStart .. | .compressStreamEnd .. |
      .sliceExpand .. | .frameAssemble .. | .doseSwapRequest .. | .doseSwap .. | .lineTransmit .. |
      .decisionPoint .. | .fireStrobe .. | .strobeFall .. | .strobeWatchdog .. | .echo .. | .echoTimeout .. |
      .helloReply .. | .helloRepeat .. | .boardEnableWrite .. | .fireClear .. | .yoyoInterval | .energyCapExpiry |
      .spdrqWord | .fireTos .. | .capEnableWrite .. | .gridLineCompare | .frameStatistics .. | .findingApply |
      .loopSwapStage .. | .loopLate .. | .loopEnWrite .. | .quadStep .. | .quadDoubleStep .. | .followWrite .. |
      .axisEnableWrite .. | .domainPps .. | .alarmArm .. | .alarmFire .. | .periodic .. | .printPause |
      .printStop | .laneTargetWrite .. | .laneLockLoss .. | .linkReady .. | .linkRateReq .. | .linkRateAck .. |
      .pcieReset .. | .position .. | .cmd .. | .supervisorTakeover .. | .residualSlewEnd => True
      | _ => t.printUnits = s.printUnits

/-- The cameras, the inspection, the motion, the monitors, the time domains and the check units change only by the commands
listed; every other command leaves all of them as they are. -/
def Obligations.SensingFrame : Prop :=
  ∀ (c : Instr) (s t : State), exec c s = .next t →
    match c with
      | .deviceReset .. | .supplyShutdown .. | .supplyRestart .. | .commandPacket .. | .ethSessionIdleTimeout .. |
      .readReg .. | .writeReg .. | .modifyReg .. | .lockHoldLimitWrite .. | .sessionClose .. | .configLoad .. |
      .configCheck .. | .sleepEntryComplete | .wakeComplete .. | .jobClose .. | .start .. | .resume .. | .stop .. |
      .cameraSet .. | .cameraSetTransfer .. | .sensorTransferEnd .. | .sensorXfer .. | .colourModelLoad .. |
      .coverageLoad .. | .blurLoad .. | .resampleCoefLoad .. | .classSet .. | .axisMove .. | .axisStop .. |
      .axisHome .. | .axisProfileSet .. | .microstepLoad .. | .posReference .. | .timeAdjust .. |
      .domainSelect .. | .calRun .. | .darkCalDone .. | .paperCalDone .. | .calStorePeriodic | .monBinsLoad .. |
      .monSnapshot .. | .bar0Write .. | .readClear .. | .loLatchRead .. | .arbFairnessWrite .. |
      .paceModeWrite .. | .paceVcapWrite .. | .dmaDescriptorComplete .. | .kpsBlock .. | .segmentAssign |
      .segmentSwitch .. | .dcmpEnableWrite .. | .compressStreamEnd .. | .sliceExpand .. | .frameAssemble .. |
      .lineTransmit .. | .decisionPoint .. | .fireStrobe .. | .echo .. | .echoTimeout .. | .cameraTrigger .. |
      .frameOpen .. | .frameClose .. | .cameraPortLine .. | .capEnableWrite .. | .stripeProcess .. |
      .gainSetCompute .. | .kalPdatWrite .. | .kalApply .. | .resampleLine .. | .rsmpPdatWrite .. | .rsmpApply .. |
      .gridLineCompare | .frameStatistics .. | .quadStep .. | .quadDoubleStep .. | .indexEdge .. |
      .stillTimeout .. | .ssiRead .. | .axisUpdate .. | .axisHoldCurrent .. | .followStep .. | .followWrite .. |
      .switchAccept .. | .axisStageFault .. | .axisEnableWrite .. | .domainPps .. | .alarmArm .. | .alarmFire .. |
      .periodic .. | .sourceAbsent | .ptpMessage .. | .eventRaise .. | .tscapCapture .. | .tscapRelease .. |
      .axisEstop .. | .printStop | .monSnapshotEvent | .monRestart | .memoryAccess .. | .scrubRead | .chkFeed .. |
      .chkReset .. | .chkDataWrite .. | .chkDataRead .. | .pcieReset .. | .time .. | .cmd .. |
      .supervisorTakeover .. | .monitorSample .. | .monitorWindowEnd .. | .monitorConfigWrite .. |
      .residualSlewEnd | .inactiveSourceAbsent | .announceReceiptTimeout .. | .switchRawEdge .. => True
      | _ => t.sensing = s.sensing

/-- The locks, the spares, the calibration store, the power, the memory channels, the HOST region, the arbiters, the
record rings and the latches change only by the commands listed; every other command leaves all of them as they are. -/
def Obligations.PlatformFrame : Prop :=
  ∀ (c : Instr) (s t : State), exec c s = .next t →
    match c with
      | .deviceReset .. | .supplyShutdown .. | .supplyRestart .. | .reverseBlock | .zoneFault .. |
      .commandPacket .. | .ethSessionIdleTimeout .. | .readReg .. | .writeReg .. | .modifyReg .. |
      .lockAcquire .. | .lockWaitTimeout .. | .lockRelease .. | .lockHoldExpiry .. | .lockHoldLimitWrite .. |
      .engineLockRequest .. | .sessionClose .. | .configLoad .. | .configCheck .. | .sleep .. |
      .sleepEntryComplete | .wake .. | .wakePin | .wakeComplete .. | .jobClose .. | .arm .. | .start .. |
      .resume .. | .stop .. | .nozzleMapLoad .. | .substituteSet .. | .gateShot .. | .recordRingSet .. |
      .fwStage .. | .fwSwitch .. | .fwHandover | .kernelRotationStep | .calRun .. | .darkCalDone .. |
      .paperCalDone .. | .calRead .. | .calStorePeriodic | .chainRescan .. | .bar0Write .. | .readClear .. |
      .loLatchRead .. | .arbiterGrant .. | .arbFairnessWrite .. | .paceInterval .. | .vcoreLow |
      .paceModeWrite .. | .paceVcapWrite .. | .dmaRun .. | .dmaDescriptorComplete .. | .kpsBlock .. |
      .segmentAssign | .segmentSwitch .. | .dcmpEnableWrite .. | .compressStreamEnd .. | .sliceExpand .. |
      .frameAssemble .. | .lineTransmit .. | .decisionPoint .. | .fireStrobe .. | .echo .. | .echoTimeout .. |
      .boardEnableWrite .. | .fireClear .. | .capEnableWrite .. | .stripeProcess .. | .kalPdatWrite .. |
      .kalApply .. | .rsmpPdatWrite .. | .rsmpApply .. | .rsmpSwap .. | .gridLineCompare | .frameStatistics .. |
      .recordDeliver .. | .consumerIndexPoll .. | .recordRingFullTimeout .. | .findingApply | .loopEnWrite .. |
      .followWrite .. | .axisEnableWrite .. | .domainPps .. | .alarmArm .. | .alarmFire .. | .periodic .. |
      .ptpMessage .. | .tscapRelease .. | .wakeEvent | .printStop | .detRefresh .. | .bankRefresh .. |
      .selfRefreshEntry .. | .impedanceCal .. | .retraining .. | .memoryAccess .. | .throttleRelease .. |
      .scrubRead | .chkFeed .. | .chkCheck .. | .chkReset .. | .chkDataWrite .. | .chkDataRead .. |
      .laneTargetWrite .. | .pcieReset .. | .chainDiscovery | .token .. | .cmd .. | .engineDoze .. |
      .engineUndoze .. | .spareTakeover .. | .supervisorTakeover .. | .monitorConfigWrite .. | .residualSlewEnd |
      .interruptCoalesce .. | .faultedPairTestDone .. | .engineLockRelease .. | .mgmtPortAccess .. => True
      | _ => t.platform = s.platform

/-- R71 on LOCK_ACQUIRE: a session that holds a lock numbered as high as the one it asks for, or higher (its own among
them), is answered BAD_PARAM, and nothing changes but the answer. A kernel's request that breaks the order is
no opcode: its engine is told BAD_PARAM, and nothing else changes. -/
def Obligations.LockOrderBreachRefused : Prop :=
  (∀ (s : State) (rq : Rq) (lock waitMs j : Nat), s.ready rq 0x0020 → j < 64 → lock ≤ j → s.lockState j = 1 →
    s.fld (Reg.LOCK_OWNER_KIND j) = 0 → s.fld (Reg.LOCK_OWNER j) = rq.sess →
    ∃ t, exec (.lockAcquire rq lock waitMs) s = .next t ∧
      t.answered rq 0x0020 scBadParam (leBytes 2 (if rq.lock.isSome then 20 else 16) ++ leBytes 2 0) ∧
      s.onlyAnswered t) ∧
  (∀ (s : State) (engine lock j : Nat) (cls : Traffic), j < 64 → lock ≤ j → s.lockState j = 1 →
    s.fld (Reg.LOCK_OWNER_KIND j) = 1 → s.fld (Reg.LOCK_OWNER j) = engine →
    exec (.engineLockRequest engine lock cls) s = .next (s.emit (.engineLock engine lock scBadParam)))

/-- R84 where step 8 of Table 04-3 is reached: a packet that is no repeat and in sequence, whose tag's slot holds a command
not completed, is answered RESOURCE_BUSY by the way it came; every slot stays as it was. REPLY_FETCH takes no slot. -/
def Obligations.BusyTagRefused : Prop :=
  (∀ (s : State) (ip port : Nat) (b : List Byte), b.length = 16 + (headerOf b).length → headerOk b →
    4 ≤ (headerOf b).session → (headerOf b).session < 16 → s.sessKind (headerOf b).session = .eth ip port →
    (headerOf b).opcode ≠ 0x0002 → (headerOf b).opcode ≠ 0x0030 ∨ (headerOf b).session ≠ 255 →
    (s.slot (headerOf b).session (headerOf b).tag).taken →
    (s.slot (headerOf b).session (headerOf b).tag).done = false →
    ¬ ((s.slot (headerOf b).session (headerOf b).tag).opcode = (headerOf b).opcode ∧
      (s.slot (headerOf b).session (headerOf b).tag).seq = (headerOf b).seq) →
    (∀ q, (s.session (headerOf b).session).lastSeq = some q → (headerOf b).seq = (q + 1) % idxMod) →
    ∃ t, exec (.commandPacket (.eth ip port) b) s = .next t ∧
      t.outbox = (s.sendDatagram ip port (replyBytes ⟨(headerOf b).opcode, (headerOf b).tag, false, false,
        scResourceBusy, (headerOf b).seq, (headerOf b).session, [], s.st⟩)).outbox ∧
      t.cmd.queue = s.cmd.queue ∧ (∀ n k, t.slot n k = s.slot n k) ∧
      (t.session (headerOf b).session).lastSeq = (s.session (headerOf b).session).lastSeq) ∧
  (∀ (s : State) (r : Nat) (b : List Byte), r < 4 → s.ringTakes r → headerOk b → (headerOf b).session = r →
    (s.ring r).cmdCons % s.cmdSize r + unitsOf (headerOf b).length ≤ s.cmdSize r →
    (headerOf b).opcode ≠ 0x0002 → (s.slot r (headerOf b).tag).taken → (s.slot r (headerOf b).tag).done = false →
    ¬ ((s.slot r (headerOf b).tag).opcode = (headerOf b).opcode ∧
      (s.slot r (headerOf b).tag).seq = (headerOf b).seq) →
    (∀ q, (s.session r).lastSeq = some q → (headerOf b).seq = (q + 1) % idxMod) →
    ∃ t, exec (.commandPacket (.ring r) b) s = .next t ∧
      t = ((s.emit (.ringRead r (s.cmdBase r + 64 * ((s.ring r).cmdCons % s.cmdSize r)))).consume r
        (unitsOf (headerOf b).length)).ringReply r ⟨(headerOf b).opcode, (headerOf b).tag, false, false,
        scResourceBusy, (headerOf b).seq, r, [], s.st⟩ ∧
      t.cmd.queue = s.cmd.queue ∧ (∀ n k, t.slot n k = s.slot n k) ∧ t.session r = s.session r)

/-- R74, for every command that a packet brings: LOCKED without holding the lock it names, it is answered LOCKED_BY_OTHER
with the lock's present owner, or 0xFFFF where it has none, and nothing changes but the answer. Step 12 of Table 04-3 comes
first: the state accepts the opcode. -/
def Obligations.LockedWithoutLockRefused : Prop :=
  ∀ (c : Instr) (s : State) (rq : Rq) (op k : Nat) (doms : List Domain), request c = some (rq, op, doms) →
    s.held rq op doms = false → acceptedIn op s.st → rq.lock = some k → s.holdsLock rq.sess k = false →
    s.sessOpen rq.sess →
    ∃ t, exec c s = .next t ∧
      t.answered rq op scLockedByOther (leBytes 2 (if s.lockState k = 1
        then 256 * s.fld (Reg.LOCK_OWNER_KIND k) + s.fld (Reg.LOCK_OWNER k) else 0xFFFF)) ∧
      s.onlyAnswered t ∧ ∀ n i, n ≠ rq.sess ∨ i ≠ rq.tag → t.slot n i = s.slot n i

/-- Table 04-9, for every command that a packet brings: in a state that does not accept its opcode it is answered
STATE_REFUSED, a CONFIG_LOAD CONFIG_REJECTED with reason 3 (R107; byte 2 is 0 by the model's reading), and nothing changes but
the answer. -/
def Obligations.StateRefusedHasNoEffect : Prop :=
  ∀ (c : Instr) (s : State) (rq : Rq) (op : Nat) (doms : List Domain), request c = some (rq, op, doms) →
    s.held rq op doms = false → acceptedIn op s.st = false → s.sessOpen rq.sess →
    ∃ t, exec c s = .next t ∧ s.onlyAnswered t ∧
      (if op = 0x0040 then t.answered rq op scConfigRejected (checkResult 1 3 0 0xFFFFFFFF)
        else t.answered rq op scStateRefused []) ∧
      ∀ n i, n ≠ rq.sess ∨ i ≠ rq.tag → t.slot n i = s.slot n i

/-- R104 on a chunk that is not the last, for every table-load opcode: it is staged behind what its staging holds, or
opens a new staging at offset 0, and is answered with the bytes staged so far. At offset 0 the dose
tables, RESAMPLE_COEF_LOAD and the rendering and class tables need their staged bank free (R147, R221, R227), FW_STAGE no
switch under way (R378). -/
def Obligations.ChunksAreStaged : Prop :=
  (∀ p ∈ ([(Instr.nozzleMapLoad, 0x0121, 16), (Instr.thresholdLoad, 0x0122, 16), (Instr.substituteSet, 0x0123, 16),
      (Instr.toneCurveLoad, 0x0124, 16), (Instr.gainLoad, 0x0125, 16), (Instr.boardProfileLoad, 0x0126, 48),
      (Instr.colourModelLoad, 0x0202, 24), (Instr.coverageLoad, 0x0203, 16), (Instr.blurLoad, 0x0204, 16),
      (Instr.resampleCoefLoad, 0x0205, 8), (Instr.classSet, 0x0206, 1), (Instr.microstepLoad, 0x0304, 16),
      (Instr.fwStage, 0x0500, 1), (Instr.monBinsLoad, 0x0600, 64)] :
      List ((Rq → Chunk → Instr) × Nat × Nat)),
    ∀ (s : State) (rq : Rq) (c : Chunk), s.ready rq p.2.1 → s.chunkGoesOn p.2.1 p.2.2 c →
      (p.2.1 ∈ [0x0122, 0x0124] → c.offset = 0 → s.bankInUse c.inst = false) →
      (p.2.1 ∈ [0x0123, 0x0125] → c.offset = 0 → s.barLoops c.inst ∨ s.bankInUse c.inst = false) →
      (p.2.1 = 0x0205 → c.offset = 0 → s.flag (Reg.RSMP_STATUS_SWAP_PEND c.inst) = false) →
      (p.2.1 = 0x0500 → c.offset = 0 → s.switching = false) →
      (p.2.1 ∈ [0x0202, 0x0203, 0x0204, 0x0206] → c.offset = 0 →
        s.tabBusy (256 * (p.2.1 - 0x0200) + c.inst) = false) →
      ∃ t, exec (p.1 rq c) s = .next t ∧ t.answered rq p.2.1 scDone (leBytes 4 (c.offset + c.data.length)) ∧
        t.staged p.2.1 c.inst =
          ⟨c.total, false, (if c.offset = 0 then [] else (s.staged p.2.1 c.inst).data) ++ c.data⟩) ∧
  (∀ (s : State) (rq : Rq) (c : Chunk) (assign : Option (List Half)), s.ready rq 0x0040 →
    s.chunkGoesOn 0x0040 1 c →
    ∃ t, exec (.configLoad rq c assign) s = .next t ∧
      t.answered rq 0x0040 scDone (leBytes 4 (c.offset + c.data.length)) ∧
      t.staged 0x0040 0 = ⟨c.total, false, (if c.offset = 0 then [] else (s.staged 0x0040 0).data) ++ c.data⟩ ∧
      s.onlyAnswered t) ∧
  (∀ (s : State) (rq : Rq) (c : Chunk) (assign : Option (List Half)), s.ready rq 0x0041 →
    s.chunkGoesOn 0x0041 1 c →
    ∃ t, exec (.configCheck rq c assign) s = .next t ∧
      t.answered rq 0x0041 scDone (leBytes 4 (c.offset + c.data.length)) ∧
      t.staged 0x0041 0 = ⟨c.total, false, (if c.offset = 0 then [] else (s.staged 0x0041 0).data) ++ c.data⟩ ∧
      s.onlyAnswered t)

/-- Session and state commands complete: NOP, GET_STATE (R105), REPLY_FETCH (R86), KEY_SET (R91), SESSION_CLOSE (R93). -/
def Obligations.SessionCommandsComplete : Prop :=
  (∀ (s : State) (rq : Rq), s.ready rq 0x0000 →
    ∃ t, exec (.nop rq) s = .next t ∧ t.answered rq 0x0000 scDone [] ∧ ∀ a, a ∉ answerRegs → t.reg a = s.reg a) ∧
  (∀ (s : State) (rq : Rq), s.ready rq 0x0001 →
    ∃ t, exec (.getState rq) s = .next t ∧ t.answered rq 0x0001 scDone
      (bytesOf [s.st, s.fld Reg.PLAT_STATE_PREV,
        s.fld Reg.PLAT_STATE_BARRIER + 2 * s.fld Reg.PLAT_STATE_STAGED + 4 * s.fld Reg.PLAT_STATE_JOB,
        s.fld Reg.PLAT_STATE_COND] ++ leBytes 4 s.secondsInState ++ bytesOf [s.activeDom, s.chainId]) ∧
      ∀ a, a ∉ answerRegs → t.reg a = s.reg a) ∧
  (∀ (s : State) (rq : Rq) (tag ip port p hop : Nat), s.sessKind rq.sess = .eth ip port → tag < 64 →
    s.ethRoute ip = some (p, hop) → (s.slot rq.sess tag).taken →
    ∃ t, exec (.replyFetch rq tag) s = .next t ∧
      t.outbox = s.outbox ++ [.datagram p hop ip port (replyBytes
        (if (s.slot rq.sess tag).done then (s.slot rq.sess tag).reply rq.sess tag
         else ⟨(s.slot rq.sess tag).opcode, tag, false, false, scPending, (s.slot rq.sess tag).seq, rq.sess, [], s.st⟩))] ∧
      t.slot rq.sess tag =
        (if (s.slot rq.sess tag).done then { s.slot rq.sess tag with delivered := true } else s.slot rq.sess tag)) ∧
  (∀ (s : State) (rq : Rq) (slot : Nat) (key : List Byte), s.ready rq 0x0032 → rq.sess < 4 → slot < 4 →
    ∃ t, exec (.keySet rq slot key) s = .next t ∧ t.answered rq 0x0032 scDone [] ∧
      ∀ k, t.key k = if k = slot then slice key 0 32 else s.key k) ∧
  (∀ (s : State) (rq : Rq) (n : Nat), s.ready rq 0x0031 → 4 ≤ n → n < 16 → s.sessOpen n → rq.sess < 4 ∨ rq.sess = n →
    ∃ t, exec (.sessionClose rq n) s = .next t ∧ ¬ t.sessOpen n ∧ t.session n = {} ∧
      bitAt (t.fld Reg.CMD_STATUS_OPEN) n = false)

/-- SESSION_OPEN (R90): phase 0 answers a nonce and keeps it; phase 1 with the right HMAC opens a session. A DONE goes out
under NEED_REPLY (R80), by the route to its source (R350). -/
def Obligations.SessionOpenCompletes : Prop :=
  (∀ (s : State) (rq : Rq) (ip port q hop : Nat) (p : List Byte), s.held rq 0x0030 [.platform] = false →
    acceptedIn 0x0030 s.st → rq.lock = none → rq.needReply → s.ethRoute ip = some (q, hop) →
    leAt p 0 1 = 0 → leAt p 1 1 ≤ 3 → firstNonzero (fun _ => true) (slice p 2 2) 18 = none →
    tabGet false s.cmd.lockouts (leAt p 1 1) = false →
    ∃ t, exec (.sessionOpen ip port rq p) s = .next t ∧
      t.outbox = s.outbox ++ [.datagram q hop ip port (replyBytes ⟨0x0030, rq.tag, false, false, scDone, rq.seq, 255,
        (List.range 16).map (Config.randomByte s.fresh), s.st⟩)] ∧
      t.cmd.opens.getLast? =
        some ⟨ip, port, leAt p 1 1, slice p 4 16, (List.range 16).map (Config.randomByte s.fresh), s.now⟩) ∧
  (∀ (s : State) (rq : Rq) (ip port n : Nat) (p : List Byte) (o : OpenTry), s.held rq 0x0030 [.platform] = false →
    acceptedIn 0x0030 s.st → rq.lock = none →
    leAt p 0 1 = 1 → leAt p 1 1 ≤ 3 → firstNonzero (fun _ => true) (slice p 2 2) 18 = none →
    s.cmd.opens.find? (fun q => q.ip == ip && q.port == port) = some o → s.now ≤ o.tick + ticksOfMs 1000 →
    o.slot = leAt p 1 1 →
    hmacSha256 (s.key (leAt p 1 1)) (o.devNonce ++ o.hostNonce ++ bytesOf [leAt p 1 1]) = slice p 4 32 →
    s.freeSession = some n →
    ∃ t, exec (.sessionOpen ip port rq p) s = .next t ∧ (t.session n).kind = .eth ip port ∧
      bitAt (t.fld Reg.CMD_STATUS_OPEN) n = true ∧
      ∀ q hop, s.ethRoute ip = some (q, hop) → t.outbox = s.outbox ++ (if rq.needReply then
        [.datagram q hop ip port (replyBytes ⟨0x0030, rq.tag, false, false, scDone, rq.seq, 255, bytesOf [n, 0, 0, 0] ++
          hmacSha256 (s.key (leAt p 1 1)) (o.hostNonce ++ o.devNonce ++ bytesOf [n]), s.st⟩)] else []))

/-- The rings' doorbells and timers, and the queue's barrier: DB_CMD, DB_RPL, DB_FETCH, REPLY_RING_STALL_TIMEOUT,
CMD_RING_ENABLE_WRITE, ETH_SESSION_IDLE_TIMEOUT, KEY_LOCKOUT_END, BARRIER_ENGAGE. -/
def Obligations.RingCommandsComplete : Prop :=
  (∀ (s : State) (r idx : Nat), r < 4 → (idx + idxMod - (s.ring r).cmdCons) % idxMod ≤ s.cmdSize r →
    ∃ t, exec (.dbCmd r idx) s = .next t ∧ t.ring r = { s.ring r with cmdProd := idx % idxMod } ∧ t.regs = s.regs) ∧
  (∀ (s : State) (r idx : Nat), r < 4 → s.cmdSize r < (idx + idxMod - (s.ring r).cmdCons) % idxMod →
    s.fld Reg.CMD_ERR_CAUSE = 0 →
    ∃ t, exec (.dbCmd r idx) s = .next t ∧ t.ring r = s.ring r ∧ t.fld Reg.CMD_ERR_CAUSE = 3 ∧
      t.fld Reg.CMD_ERR_ADDR = 0x100 * r) ∧
  (∀ (s : State) (r idx : Nat), r < 4 → (idx + idxMod - (s.ring r).rplCons) % idxMod ≤ s.rplSize r →
    ∃ t, exec (.dbRpl r idx) s = .next t ∧ (t.ring r).rplCons = idx % idxMod ∧
      bitAt (t.fld Reg.CMD_STATUS_STALL) r = (t.flag (Reg.CMD_CFG_ENABLE r) && decide (t.rplFree r < 64))) ∧
  (∀ (s : State) (r v : Nat), r < 4 → (s.slot r (v % 64)).taken → (s.slot r (v % 64)).done →
    s.flag (Reg.CMD_CFG_ENABLE r) →
    ∃ t, exec (.dbFetch r v) s = .next t ∧
      t.slot r (v % 64) = { s.slot r (v % 64) with delivered := true } ∧
      t.ring r = (s.ringReply r ((s.slot r (v % 64)).reply r (v % 64))).ring r) ∧
  (∀ (s : State) (r : Nat), r < 4 → s.flag (Reg.CMD_CFG_ENABLE r) → s.rplFree r < 64 →
    ∃ t, exec (.replyRingStallTimeout r) s = .next t ∧ bitAt (t.fld Reg.CMD_STATUS_C1_BREACH) r = true ∧
      bitAt (t.fld Reg.PLAT_STATE_COND) 0 = true ∧ bitAt (t.fld Reg.PLAT_COND_SEEN_SEEN) 0 = true) ∧
  (∀ (s : State) (r : Nat), r < 4 → s.flag (Reg.CMD_CFG_ENABLE r) = false → (s.ring r).waiting = [] →
    ∃ t, exec (.cmdRingEnableWrite r true) s = .next t ∧ t.fld (Reg.CMD_CFG_ENABLE r) = 1 ∧
      (t.ring r).cmdProd = 0 ∧ (t.ring r).cmdCons = 0 ∧ (t.ring r).rplProd = 0 ∧ (t.ring r).rplCons = 0 ∧
      (t.session r).lastSeq = none) ∧
  (∀ (s : State) (r : Nat), r < 4 →
    ∃ t, exec (.cmdRingEnableWrite r false) s = .next t ∧ t.fld (Reg.CMD_CFG_ENABLE r) = 0 ∧ t.ring r = s.ring r) ∧
  (∀ (s : State) (n ip port : Nat), 4 ≤ n → n < 16 → (s.session n).kind = .eth ip port →
    s.fld Reg.CMD_CTRL_ETH_IDLE_S ≠ 0 →
    ∃ t, exec (.ethSessionIdleTimeout n) s = .next t ∧ t.session n = {} ∧
      bitAt (t.fld Reg.CMD_STATUS_OPEN) n = false) ∧
  (∀ (s : State) (slot : Nat), ∃ t, exec (.keyLockoutEnd slot) s = .next t ∧
    tabGet false t.cmd.lockouts slot = false ∧ t.regs = s.regs) ∧
  (∀ (s : State) (q : Queued) (l : List Queued), s.cmd.queue = q :: l → isBarrier q.opcode → s.cmd.executing = [] →
    s.cmd.barrier = none →
    ∃ t, exec .barrierEngage s = .next t ∧ t.cmd.barrier = some (q.sess, q.tag) ∧ t.fld Reg.PLAT_STATE_BARRIER = 1)

/-- The sixty-four locks (R70 to R73): LOCK_ACQUIRE, LOCK_RELEASE, LOCK_WAIT_TIMEOUT, LOCK_HOLD_EXPIRY,
ENGINE_LOCK_REQUEST, ENGINE_LOCK_RELEASE complete. -/
def Obligations.LockCommandsComplete : Prop :=
  (∀ (s : State) (rq : Rq) (k w : Nat), s.ready rq 0x0020 → k < 56 → rq.sess < 16 →
    s.lockOrderOk false rq.sess k → w ≤ 1000 → s.fld (Reg.LOCK_STATE k) = 0 →
    ∃ t, exec (.lockAcquire rq k w) s = .next t ∧ t.answered rq 0x0020 scDone (leBytes 2 0xFFFF) ∧
      t.holdsLock rq.sess k ∧ (t.lock k).since = s.now ∧
      ∀ a, a ∉ answerRegs → a ≠ Reg.LOCK k → t.reg a = s.reg a) ∧
  (∀ (s : State) (rq : Rq) (k w : Nat), s.ready rq 0x0020 → k < 56 → rq.sess < 16 →
    s.lockOrderOk false rq.sess k → w ≤ 1000 → s.fld (Reg.LOCK_STATE k) = 2 →
    ∃ t, exec (.lockAcquire rq k w) s = .next t ∧ t.holdsLock rq.sess k ∧
      t.answered rq 0x0020 scLockBrokenPrior
        (leBytes 2 (256 * s.fld (Reg.LOCK_OWNER_KIND k) + s.fld (Reg.LOCK_OWNER k)))) ∧
  (∀ (s : State) (rq : Rq) (k w : Nat), s.ready rq 0x0020 → k < 56 → s.lockOrderOk false rq.sess k → w ≤ 1000 →
    w ≠ 0 → s.fld (Reg.LOCK_STATE k) = 1 →
    ∃ t, exec (.lockAcquire rq k w) s = .next t ∧ t.unanswered rq 0x0020 ∧
      (t.lock k).waiters = (s.lock k).waiters ++ [⟨5, false, rq.sess, rq.tag, some (s.now + ticksOfMs w)⟩]) ∧
  (∀ (s : State) (rq : Rq) (k : Nat), s.ready rq 0x0021 → k < 64 → s.holdsLock rq.sess k → (s.lock k).waiters = [] →
    ∃ t, exec (.lockRelease rq k) s = .next t ∧ t.answered rq 0x0021 scDone [] ∧ t.fld (Reg.LOCK_STATE k) = 0) ∧
  (∀ (s : State) (k n : Nat) (w : LockWait),
    firstToExpire n (s.lock k).waiters = some w → s.sessOpen n →
    (s.slot n w.tag).taken → (s.slot n w.tag).done = false →
    ∃ t, exec (.lockWaitTimeout k n) s = .next t ∧ (t.slot n w.tag).done ∧
      (t.slot n w.tag).status = scLockedByOther ∧ (t.lock k).waiters = (s.lock k).waiters.erase w) ∧
  (∀ (s : State) (k : Nat), k < 64 → s.fld (Reg.LOCK_STATE k) = 1 → s.fld (Reg.LOCK_OWNER_KIND k) = 0 →
    (s.lock k).waiters = [] →
    ∃ t, exec (.lockHoldExpiry k) s = .next t ∧ t.fld (Reg.LOCK_STATE k) = 2 ∧
      t.fld (Reg.LOCK_BREAKS k) = min (s.fld (Reg.LOCK_BREAKS k) + 1) 255 ∧
      bitAt (t.fld Reg.PLAT_COND_SEEN_SEEN) 0 = true) ∧
  (∀ (s : State) (k e : Nat) (cls : Traffic), k < 56 → e < 256 → s.lockOrderOk true e k →
    s.fld (Reg.LOCK_STATE k) = 0 ∨ s.fld (Reg.LOCK_STATE k) = 2 →
    ∃ t, exec (.engineLockRequest e k cls) s = .next t ∧ t.lockHeldBy true e k ∧ (t.lock k).since = s.now ∧
      t.outbox = s.outbox ++ [.engineLock e k (if s.fld (Reg.LOCK_STATE k) = 0 then scDone else scLockBrokenPrior)] ∧
      ∀ a, a ≠ Reg.LOCK k → t.reg a = s.reg a) ∧
  (∀ (s : State) (k e : Nat) (cls : Traffic), k < 56 → s.lockOrderOk true e k → s.fld (Reg.LOCK_STATE k) = 1 →
    ∃ t, exec (.engineLockRequest e k cls) s = .next t ∧
      (t.lock k).waiters = (s.lock k).waiters ++ [⟨trafficInput cls, true, e, 0, none⟩] ∧ t.outbox = s.outbox) ∧
  (∀ (s : State) (k e : Nat), s.lockHeldBy true e k → (s.lock k).waiters = [] →
    ∃ t, exec (.engineLockRelease e k) s = .next t ∧ t.fld (Reg.LOCK_STATE k) = 0 ∧
      t.outbox = s.outbox ++ [.engineLock e k scDone] ∧ ∀ a, a ≠ Reg.LOCK k → t.reg a = s.reg a)

/-- The fabric arbiters (R54 to R57, R78): ARBITER_GRANT and ARBITER_STUCK. -/
def Obligations.ArbiterCommandsComplete : Prop :=
  (∀ (s : State) (net : Bool) (n : Nat) (reqs : List ArbReq), s.arbStopped n = false →
    ∃ t, exec (.arbiterGrant net n reqs) s = .next t ∧
      t.arb net n = (s.arb net n).grant (s.waitLimit n) (s.arbRequests n reqs) ∧ t.mem = s.mem ∧
      (n < 16 → t.fld (Reg.ARB_J_CTRL_REQ n) = reqMask (s.arbRequests n reqs))) ∧
  (∀ (s : State) (net : Bool) (n : Nat) (reqs : List ArbReq), s.arbStopped n →
    exec (.arbiterGrant net n reqs) s = .next s) ∧
  (∀ (s : State) (n i : Nat), n < 100 →
    ∃ t, exec (.arbiterStuck n i none) s = .next t ∧ t.fld (Reg.ARB_J_CTRL_STUCK (arbJunction n)) = 1 ∧
      (24 ≤ n → n < 88 → t.fld (Reg.ARB_M_STUCK (n - 24)) = 1) ∧
      t.fld Reg.NVC_LOG_NEXT = (s.fld Reg.NVC_LOG_NEXT + 1) % idxMod) ∧
  (∀ (s : State) (n i : Nat) (rq : Rq), n < 100 → s.sessOpen rq.sess → (s.slot rq.sess rq.tag).taken →
    (s.slot rq.sess rq.tag).done = false → s.fld Reg.PLAT_STATE_COND = 0 →
    ∃ t, exec (.arbiterStuck n i (some rq)) s = .next t ∧ (t.slot rq.sess rq.tag).done ∧
      (t.slot rq.sess rq.tag).status = scHwFault ∧
      (t.slot rq.sess rq.tag).payload = leBytes 4 (s.fld Reg.NVC_LOG_NEXT))

/-- The time domains (R283 to R292): TIME_READ, TIME_ADJUST, DOMAIN_SELECT, SOURCE_ABSENT, INACTIVE_SOURCE_ABSENT,
RESIDUAL_SLEW_END, DOMAIN_PPS, ALARM_FIRE, PERIODIC, PTP_MESSAGE, ANNOUNCE_RECEIPT_TIMEOUT. -/
def Obligations.TimeCommandsComplete : Prop :=
  (∀ (s : State) (rq : Rq) (d : Nat), s.ready rq 0x0400 → d ≤ 2 →
    ∃ t, exec (.timeRead rq d) s = .next t ∧
      (let c := if d = 2 then s.devTime else s.clock d
       t.answered rq 0x0400 scDone (leBytes 8 c.sec ++ leBytes 4 c.ns ++ leBytes 2 (c.frac / 65536) ++
         leBytes 1 (if d = 2 then s.activeDom else d))) ∧
      t.time = s.time ∧ ∀ a, a ∉ answerRegs → t.reg a = s.reg a) ∧
  (∀ (s : State) (rq : Rq) (d inc : Nat), s.ready rq 0x0401 → d < 2 → s.firmwareServo d = false →
    17162689315 ≤ inc → inc ≤ 17197049053 →
    ∃ t, exec (.timeAdjust rq d inc 0) s = .next t ∧ t.answered rq 0x0401 scDone [] ∧ t.incOf d = inc ∧
      t.time = s.time) ∧
  (∀ (s : State) (rq : Rq) (d : Nat) (adj : Int), s.ready rq 0x0401 → d < 2 → d ≠ s.activeDom →
    s.firmwareServo d = false → adj ≠ 0 → 0 ≤ (s.clock d).units + adj * (2 ^ 32 : Nat) →
    (s.clock d).units + adj * (2 ^ 32 : Nat) < (2 ^ 96 * 1000000000 : Nat) →
    ∃ t, exec (.timeAdjust rq d 0 adj) s = .next t ∧ t.answered rq 0x0401 scDone [] ∧ t.incOf d = s.incOf d ∧
      (t.clock d).units = (s.clock d).units + adj * (2 ^ 32 : Nat) ∧
      t.fld (Reg.TD_STATUS_STEPS d) = min (s.fld (Reg.TD_STATUS_STEPS d) + 1) 255) ∧
  (∀ (s : State) (rq : Rq) (d : Nat), s.ready rq 0x0402 → d < 2 → d ≠ s.activeDom → s.domGap d < secUnits →
    ∃ t, exec (.domainSelect rq d) s = .next t ∧ t.answered rq 0x0402 scDone [] ∧ t.activeDom = d ∧
      t.devUnits = s.devUnits ∧ t.fld Reg.TIME_STATUS_SWITCHES = min (s.fld Reg.TIME_STATUS_SWITCHES + 1) 255 ∧
      t.fld Reg.TIME_STATUS_HOLDOVER = 0 ∧ t.fld Reg.TIME_EVENTS_SWITCH = 1) ∧
  (∀ (s : State), s.flag Reg.TIME_CTRL_AUTO = false → s.flag Reg.TIME_STATUS_HOLDOVER = false →
    ∃ t, exec .sourceAbsent s = .next t ∧ t.fld Reg.TIME_STATUS_HOLDOVER = 1 ∧ t.fld Reg.TIME_EVENTS_HOLDOVER = 1 ∧
      t.fld (Reg.TD_STATUS_PRESENT s.activeDom) = 0 ∧ t.fld (Reg.TD_STATUS_LOCKED s.activeDom) = 0 ∧
      t.activeDom = s.activeDom ∧ t.incOf s.activeDom = s.incOf s.activeDom) ∧
  (∀ (s : State), s.flag Reg.TIME_CTRL_AUTO → s.flag (Reg.TD_STATUS_LOCKED (1 - s.activeDom)) →
    s.flag (Reg.TD_STATUS_PRESENT (1 - s.activeDom)) →
    ((s.clock s.activeDom).units - (s.clock (1 - s.activeDom)).units).natAbs < secUnits →
    ∃ t, exec .sourceAbsent s = .next t ∧ t.activeDom = 1 - s.activeDom ∧ t.devUnits = s.devUnits) ∧
  (∀ (s : State), ∃ t, exec .inactiveSourceAbsent s = .next t ∧
    t.fld (Reg.TD_STATUS_PRESENT (1 - s.activeDom)) = 0 ∧ t.fld (Reg.TD_STATUS_LOCKED (1 - s.activeDom)) = 0 ∧
    t.activeDom = s.activeDom ∧ t.devUnits = s.devUnits) ∧
  (∀ (s : State), s.time.resid ≠ 0 → slewToward s.slewStep s.time.resid = 0 →
    ∃ t, exec .residualSlewEnd s = .next t ∧ t = tick s ∧ t.time.resid = 0 ∧ t.fld Reg.TIME_STATUS_SLEWING = 0) ∧
  (∀ (s : State) (d : Nat), d < 2 → s.secondDue d →
    ∃ t, exec (.domainPps d) s = .next t ∧ t = tick s ∧ (t.clock d).sec = ((s.clock d).sec + 1) % 2 ^ 64 ∧
      t.clock d = ((s.clock d).advance (s.incOf d)).1 ∧
      (bitAt (s.fld Reg.TIME_CTRL_EV_EN) d → t.evt.waiting.any (fun w => w.prod == 40 + d))) ∧
  (∀ (s : State) (d : Nat), d < 2 → s.countTick.alarmReached d →
    ∃ t, exec (.alarmFire d) s = .next t ∧ t = tick s ∧ t.fld (Reg.TD_STATUS_ALARM_ARMED d) = 0 ∧
      ((s.clock d).alarmLate → t.fld (Reg.TD_STATUS_ALARM_LATE d) = 1) ∧
      (bitAt (s.fld Reg.TIME_CTRL_EV_EN) (2 + d) → t.evt.waiting.any (fun w => w.prod == 42 + d))) ∧
  (∀ (s : State) (p : Nat), p < 2 → s.countTick.periodCrossed s.devTime p → bitAt (s.fld Reg.TIME_CTRL_EV_EN) (4 + p) →
    ∃ t, exec (.periodic p) s = .next t ∧ t = tick s ∧ t.evt.waiting.any (fun w => w.prod == 44 + p)) ∧
  (∀ (s : State) (d port : Nat) (m : PtpMsg), d < 2 → s.ptpTakes port m → ptpRateOk m → s.srcOf d = 1 + port →
    s.srcOf (1 - d) ≠ 1 + port → s.srcOf (1 - d) ≠ 3 → m.selected = false →
    ∃ t, exec (.ptpMessage port m) s = .next t ∧ t.fld (Reg.TD_STATUS_PORT_STATE d) = m.portState % 8 ∧
      t.clock d = { s.clock d with slave := none } ∧ t.clock (1 - d) = s.clock (1 - d) ∧
      ∀ a, a ≠ Reg.TD_STATUS d → t.reg a = s.reg a) ∧
  (∀ (s : State) (d port : Nat) (m : PtpMsg), d < 2 → s.ptpTakes port m → ptpRateOk m → s.srcOf d = 1 + port →
    s.srcOf (1 - d) ≠ 1 + port → s.srcOf (1 - d) ≠ 3 → m.selected → m.kind = .sync → m.twoStep = false →
    ∃ t, exec (.ptpMessage port m) s = .next t ∧ t.fld (Reg.TD_STATUS_PRESENT d) = 1 ∧
      (t.clock d).master = some m.source) ∧
  (∀ (s : State) (port : Nat) (m : PtpMsg), s.ptpTakes port m → ptpRateOk m = false →
    ∃ t, exec (.ptpMessage port m) s = .next t ∧ t.time = s.time ∧
      t.fld (Reg.ETH_CNT_ERR_DISCARD port) = min (s.fld (Reg.ETH_CNT_ERR_DISCARD port) + 1)
        (2 ^ (Reg.ETH_CNT_ERR_DISCARD port).width - 1)) ∧
  (∀ (s : State) (d port : Nat), d < 2 → port < 2 → s.flag (Reg.TIME_PTP_ENABLE port) → s.srcOf d = 1 + port →
    ∃ t, exec (.announceReceiptTimeout port) s = .next t ∧ t.fld (Reg.TD_STATUS_PORT_STATE d) = 1 ∧
      (t.clock d).masterChanged ∧ (t.clock d).master = none)

/-- The event matrix (R294 to R303): EVENT_RAISE, EVENT_FIRE, PIN_EDGE, PIN_PULSE, TSCAP_CAPTURE. -/
def Obligations.EventCommandsComplete : Prop :=
  (∀ (s : State) (p c k : Nat), p ≤ 120 → c < 64 → k < 85 → k ≠ 56 → s.awake → (s.evt.waiting.any (fun w => w.prod == p)) = false →
    (∀ i, i < 64 → (s.matEnabled i p = true ↔ i = c)) → (∀ i, i < 85 → (s.selects i = some c ↔ i = k)) →
    s.consBusy k = false →
    ∃ t, exec (.eventRaise p none) s = .next t ∧ (t.cons k).busy ∧ (t.cons k).tag = s.fld Reg.EVT_STATUS_TAG_NEXT ∧
      (t.cons k).tick = s.now ∧ t.fld Reg.EVT_STATUS_TAG_NEXT = (s.fld Reg.EVT_STATUS_TAG_NEXT + 1) % 16) ∧
  (∀ (s : State) (rq : Rq) (n : Nat), s.ready rq 0x0403 → n < 8 →
    ∃ t, exec (.eventFire rq n) s = .next t ∧ t.answered rq 0x0403 scDone [] ∧
      t.evt.waiting.any (fun w => w.prod == 32 + n)) ∧
  (∀ (s : State) (p ns : Nat) (level : Bool), p < 32 → bitAt (s.fld Reg.EVT_PINDIR_OUT) p = false → 5 ≤ ns →
    level = !bitAt (s.fld Reg.EVT_PINPOL_LOW) p →
    tabGet 0 s.evt.pins p = 0 ∨ tabGet 0 s.evt.pins p + 25 < s.now + 1 →
    ∃ t, exec (.pinEdge p level ns) s = .next t ∧ t.evt.waiting.any (fun w => w.prod == p) ∧
      tabGet 0 t.evt.pins p = s.now + 1) ∧
  (∀ (s : State) (p ns : Nat) (level : Bool), p < 32 → bitAt (s.fld Reg.EVT_PINDIR_OUT) p = false → 5 ≤ ns →
    level = !bitAt (s.fld Reg.EVT_PINPOL_LOW) p →
    tabGet 0 s.evt.pins p ≠ 0 → s.now + 1 ≤ tabGet 0 s.evt.pins p + 25 →
    ∃ t, exec (.pinEdge p level ns) s = .next t ∧ tabGet 0 t.evt.pins p = tabGet 0 s.evt.pins p ∧
      t.fld Reg.EVT_COUNTS_PIN_OVR = min (s.fld Reg.EVT_COUNTS_PIN_OVR + 1) 255 ∧
      t.fld Reg.EVT_STATUS_PIN_LAST = p ∧ bitAt (t.fld Reg.PLAT_COND_SEEN_SEEN) 2) ∧
  (∀ (s : State) (p ns : Nat) (level : Bool),
    ns < 5 ∨ bitAt (s.fld Reg.EVT_PINDIR_OUT) p ∨ level = bitAt (s.fld Reg.EVT_PINPOL_LOW) p →
    exec (.pinEdge p level ns) s = .next s) ∧
  (∀ (s : State) (p : Nat), p < 32 → (s.cons p).busy → bitAt (s.fld Reg.EVT_PINDIR_OUT) p →
    ∃ t, exec (.pinPulse p) s = .next t ∧ t.outbox = s.outbox ++ [.pinPulse p (s.fld Reg.EVT_CTRL_PIN_W)
        (bitAt (s.fld Reg.EVT_PINPOL_LOW) p)] ∧
      (t.cons p).busy = false ∧ s.now + s.fld Reg.EVT_CTRL_PIN_W + 2 ≤ (t.cons p).hold ∧ t.regs = s.regs) ∧
  (∀ (s : State) (u : Nat), u < 8 → (s.cap u).valid = false →
    ∃ t, exec (.tscapCapture u) s = .next t ∧
      t.cap u = ⟨true, s.devTime.sec, s.devTime.ns, s.activeDom, unsignedOf 64 s.webPos⟩ ∧
      bitAt (t.fld Reg.TSCAP_SEL_VALID) u)

/-- The web encoders and serial sensors (R255 to R269): QUAD_STEP, QUAD_DOUBLE_STEP, INDEX_EDGE, STILL_TIMEOUT,
POS_REFERENCE, SSI_READ. -/
def Obligations.PositionCommandsComplete : Prop :=
  (∀ (s : State) (e n : Nat) (a b : Bool) (d : Int), s.filtered e n → s.flag (Reg.POS_CTRL_ENABLE e) →
    (s.enc e).a = a ∨ (s.enc e).b = b ∨ s.fld (Reg.POS_CTRL_DECODE e) = 0 →
    stepOf (s.fld (Reg.POS_CTRL_DECODE e)) a b ((s.enc e).a != a) ((s.enc e).b != b) = some d →
    ∃ t, exec (.quadStep e a b n) s = .next t ∧
      (let d' := if s.flag (Reg.POS_CTRL_INVERT e) then -d else d
       let sum : Int := (s.enc e).acc + d' * s.fld (Reg.POS_SCALE_NUM e)
       (t.enc e).c = (s.enc e).c + d' ∧ (t.enc e).acc = (sum % s.fld (Reg.POS_SCALE_DEN e)).toNat ∧
       (t.enc e).p = (s.enc e).p + sum / s.fld (Reg.POS_SCALE_DEN e) + (s.enc e).corr.sign) ∧
      (t.enc e).a = a ∧ (t.enc e).b = b ∧ (t.enc e).lastStep = s.now + 1 ∧ t.fld (Reg.POS_STATUS_STILL e) = 0) ∧
  (∀ (s : State) (e n : Nat) (a b : Bool), s.filtered e n → s.flag (Reg.POS_CTRL_ENABLE e) = false →
    ∃ t, exec (.quadStep e a b n) s = .next t ∧ (t.enc e).c = (s.enc e).c ∧ (t.enc e).p = (s.enc e).p ∧
      (t.enc e).a = a ∧ (t.enc e).b = b) ∧
  (∀ (s : State) (e n : Nat) (a b : Bool), s.filtered e n = false → exec (.quadStep e a b n) s = .next s ∧
    exec (.quadDoubleStep e n) s = .next s ∧ exec (.indexEdge e n) s = .next s) ∧
  (∀ (s : State) (e n : Nat), s.filtered e n → s.flag (Reg.POS_CTRL_ENABLE e) → s.fld (Reg.POS_CTRL_DECODE e) ≠ 0 →
    ∃ t, exec (.quadDoubleStep e n) s = .next t ∧ (t.enc e).c = (s.enc e).c ∧ (t.enc e).p = (s.enc e).p ∧
      t.fld (Reg.POS_STATUS_QSKIP e) = min (s.fld (Reg.POS_STATUS_QSKIP e) + 1) 255 ∧
      t.fld (Reg.POS_STATUS_INTEGRITY e) = 0 ∧
      (bitAt (s.fld (Reg.POS_CTRL_EV_EN e)) 0 → t.evt.waiting.any (fun w => w.prod == 97))) ∧
  (∀ (s : State) (e n : Nat), s.filtered e n → s.flag (Reg.POS_CTRL_ENABLE e) →
    s.flag (Reg.POS_STATUS_INDEX_SEEN e) = false →
    ∃ t, exec (.indexEdge e n) s = .next t ∧ (t.enc e).iRef = (s.enc e).c ∧ t.fld (Reg.POS_STATUS_INDEX_SEEN e) = 1 ∧
      t.evt.waiting.any (fun w => w.prod == 101 + e)) ∧
  (∀ (s : State) (e n : Nat), s.filtered e n → s.flag (Reg.POS_CTRL_ENABLE e) → s.flag (Reg.POS_STATUS_INDEX_SEEN e) →
    s.fld (Reg.POS_INDEX_REV e) ≠ 0 → indexDeviation (s.enc e).c (s.enc e).iRef (s.fld (Reg.POS_INDEX_REV e)) = 0 →
    ∃ t, exec (.indexEdge e n) s = .next t ∧ t.fld (Reg.POS_STATUS_INTEGRITY e) = 1 ∧ t.enc e = s.enc e) ∧
  (∀ (s : State) (e n : Nat), s.filtered e n → s.flag (Reg.POS_CTRL_ENABLE e) → s.flag (Reg.POS_STATUS_INDEX_SEEN e) →
    s.fld (Reg.POS_INDEX_REV e) ≠ 0 →
    s.fld (Reg.POS_CTRL_TOL e) < (indexDeviation (s.enc e).c (s.enc e).iRef (s.fld (Reg.POS_INDEX_REV e))).natAbs →
    ∃ t, exec (.indexEdge e n) s = .next t ∧ t.fld (Reg.POS_STATUS_INTEGRITY e) = 0 ∧ t.enc e = s.enc e ∧
      t.fld (Reg.POS_STATUS_MISMATCH e) = min (s.fld (Reg.POS_STATUS_MISMATCH e) + 1) 255) ∧
  (∀ (s : State) (e : Nat), e < 8 → s.flag (Reg.POS_CTRL_ENABLE e) →
    ∃ t, exec (.stillTimeout e) s = .next t ∧ t.fldI (Reg.POS_SPEED_SPEED e) = 0 ∧
      t.fld (Reg.POS_STATUS_STILL e) = 1 ∧ t.enc e = { s.enc e with speed := 0 } ∧ (∀ k, k ≠ e → t.enc k = s.enc k) ∧
      ∀ a, a ≠ Reg.POS_SPEED e → a ≠ Reg.POS_STATUS e → t.reg a = s.reg a) ∧
  (∀ (s : State) (rq : Rq) (e : Nat) (pos : Int), s.ready rq 0x0305 → e < 8 → s.flag (Reg.POS_CTRL_ENABLE e) →
    ∃ t, exec (.posReference rq e pos) s = .next t ∧ t.answered rq 0x0305 scDone [] ∧ (t.enc e).c = 0 ∧
      (t.enc e).p = pos ∧ (t.enc e).corr = 0 ∧ t.fld (Reg.POS_STATUS_INTEGRITY e) = 1 ∧
      t.fld (Reg.POS_STATUS_INDEX_SEEN e) = 0 ∧ ∀ k, k ≠ e → t.enc k = s.enc k) ∧
  (∀ (s : State) (u : Nat) (w : SsiWord), u < 8 → s.flag (Reg.SSI_CTRL_ENABLE u) → s.ssiError u w = 0 →
    ∃ t, exec (.ssiRead u w) s = .next t ∧ t.fld (Reg.SSI_DATA_POSITION u) = s.ssiPosition u w % 2 ^ 24 ∧
      t.fld (Reg.SSI_DATA_VALID u) = 1 ∧ t.fld (Reg.SSI_DATA_FAULT u) = 0 ∧
      t.ssi u = ⟨0, s.devTime.sec, s.devTime.ns⟩ ∧
      t.outbox = s.outbox ++ [.ssiClock u (s.ssiLen u) (s.fld (Reg.SSI_CTRL_DIV u))]) ∧
  (∀ (s : State) (u : Nat) (w : SsiWord), u < 8 → s.flag (Reg.SSI_CTRL_ENABLE u) → s.ssiError u w ≠ 0 →
    ∃ t, exec (.ssiRead u w) s = .next t ∧ t.fld (Reg.SSI_DATA_POSITION u) = s.fld (Reg.SSI_DATA_POSITION u) ∧
      t.fld (Reg.SSI_DATA_LAST_ERR u) = s.ssiError u w ∧
      t.fld (Reg.SSI_CTRL_ERRORS u) = min (s.fld (Reg.SSI_CTRL_ERRORS u) + 1) 63 ∧
      (t.ssi u).misses = (s.ssi u).misses + 1 ∧
      (s.fld (Reg.SSI_CTRL_MISS_LIMIT u) ≤ (s.ssi u).misses + 1 → t.fld (Reg.SSI_DATA_FAULT u) = 1 ∧
        (s.flag (Reg.SSI_DATA_FAULT u) = false → t.fld (Reg.SSI_DATA_VALID u) = 0)))

/-- The axes' commands (R270 to R282): AXIS_MOVE, AXIS_HOME, AXIS_STOP, AXIS_PROFILE_SET, MICROSTEP_LOAD,
AXIS_STATUS. -/
def Obligations.AxisCommandsComplete : Prop :=
  (∀ (s : State) (rq : Rq) (a speed : Nat) (target : Int), s.ready rq 0x0300 → a < 16 → s.liftLocked a = false →
    s.axState a = axStanding ∨ s.axState a = axFaultLimit ∧ s.awayFromLimit a (decide (s.axPos a < target)) →
    (s.axis a).plan = none → axMin ≤ target → target ≤ axMax → speed ≠ 0 → s.softTarget a target = target →
    ∃ t, exec (.axisMove rq a 0 target speed) s = .next t ∧ t.unanswered rq 0x0300 ∧ t.axState a = axMoving ∧
      t.axPos a = s.axPos a ∧ (t.axis a).cmd = some ⟨rq.sess, rq.tag⟩ ∧
      (let x := (s.axis a).profiled
       (t.axis a).plan = some ⟨0, s.axPos a * 4294967296, some target, x.dec, x.jerk,
         moveSegs (target - s.axPos a) speed x.acc x.dec x.jerk, 0⟩) ∧
      ∀ k, k ≠ a → t.axis k = s.axis k) ∧
  (∀ (s : State) (rq : Rq) (a speed : Nat) (step : Int), s.ready rq 0x0300 → a < 16 → s.liftLocked a = false →
    s.axState a = axStanding → (s.axis a).plan = none → axMin ≤ s.axPos a + step → s.axPos a + step ≤ axMax →
    speed ≠ 0 → s.softTarget a (s.axPos a + step) ≠ s.axPos a + step →
    ∃ t, exec (.axisMove rq a 1 step speed) s = .next t ∧ t.unanswered rq 0x0300 ∧ t.axState a = axMoving ∧
      t.fld (Reg.AX_STATUS_SOFT_LIMIT a) = 1 ∧
      (t.axis a).plan.bind (·.goal) = some (s.softTarget a (s.axPos a + step))) ∧
  (∀ (s : State) (rq : Rq) (a dir : Nat), s.ready rq 0x0302 → a < 16 → dir < 2 → s.liftLocked a = false →
    s.axState a = axStanding → (s.axis a).plan = none →
    ∃ t, exec (.axisHome rq a dir) s = .next t ∧ t.unanswered rq 0x0302 ∧ t.axState a = axHoming ∧
      t.fld (Reg.AX_STATUS_HOMED a) = 0 ∧ (t.axis a).edges = 0 ∧ (t.axis a).homeEdge = none ∧
      (t.axis a).plan.bind (·.goal) = some (if dir = 1 then axMax else axMin)) ∧
  (∀ (s : State) (rq : Rq) (a ramp : Nat), s.ready rq 0x0301 → a < 16 → ramp < 2 → s.axState a ≠ axFollow →
    (s.axis a).plan = none →
    ∃ t, exec (.axisStop rq a ramp) s = .next t ∧ t.answered rq 0x0301 scDone (posBytes (s.axPos a)) ∧
      t.motion = s.motion) ∧
  (∀ (s : State) (rq : Rq) (a ramp : Nat), s.ready rq 0x0301 → a < 16 → ramp < 2 → s.axState a = axFollow →
    s.axAtLimit a = false →
    ∃ t, exec (.axisStop rq a ramp) s = .next t ∧ t.answered rq 0x0301 scDone (posBytes (s.axPos a)) ∧
      t.axState a = axStanding ∧ t.fld (Reg.AX_CTRL_FOLLOW a) = 0 ∧ (t.axis a).followTotal = 0) ∧
  (∀ (s : State) (rq : Rq) (a ramp : Nat) (p : AxisPlan), s.ready rq 0x0301 → a < 16 → ramp < 2 →
    s.axState a = axMoving → (s.axis a).plan = some p → p.kind = 0 →
    ∃ t, exec (.axisStop rq a ramp) s = .next t ∧ t.unanswered rq 0x0301 ∧ t.axState a = axMoving ∧
      (t.axis a).plan = some (if ramp = 1 then p.emergency (s.axPlace a) (s.fld (Reg.AX_EDEC_EDEC a))
        else p.stopped (s.axPlace a)) ∧
      (t.axis a).stops = (s.axis a).stops ++ [⟨rq.sess, rq.tag⟩] ∧ (t.axis a).cmd = (s.axis a).cmd) ∧
  (∀ (s : State) (rq : Rq) (a acc dec jerk : Nat), s.ready rq 0x0303 → a < 16 → acc ≠ 0 → dec ≠ 0 →
    s.axState a ≠ axMoving → s.axState a ≠ axHoming →
    ∃ t, exec (.axisProfileSet rq a acc dec jerk) s = .next t ∧ t.answered rq 0x0303 scDone [] ∧
      t.axis a = { s.axis a with acc := acc, dec := dec, jerk := jerk, deferred := none } ∧
      t.fld (Reg.AX_STATUS_PROFILE_PEND a) = 0) ∧
  (∀ (s : State) (rq : Rq) (a acc dec jerk : Nat), s.ready rq 0x0303 → a < 16 → acc ≠ 0 → dec ≠ 0 →
    s.axState a = axMoving ∨ s.axState a = axHoming →
    ∃ t, exec (.axisProfileSet rq a acc dec jerk) s = .next t ∧ t.answered rq 0x0303 scDeferred [] ∧
      t.axis a = { s.axis a with deferred := some (acc, dec, jerk) } ∧ t.fld (Reg.AX_STATUS_PROFILE_PEND a) = 1) ∧
  (∀ (s : State) (rq : Rq) (c : Chunk) (tb : List Byte), s.ready rq 0x0304 → c.inst < 16 →
    judgeChunk false (s.staged 0x0304 c.inst) c = .whole tb → tb.length = 512 → halfAbove 4095 tb = none →
    ∃ t, exec (.microstepLoad rq c) s = .next t ∧
      t.answered rq 0x0304 scDone (leBytes 4 512 ++ leBytes 4 (crc32c tb)) ∧
      t.axis c.inst = { s.axis c.inst with staged := some (halves tb) }) ∧
  (∀ (s : State) (rq : Rq) (c : Chunk) (x : Staging), s.ready rq 0x0304 → c.inst < 16 →
    judgeChunk false (s.staged 0x0304 c.inst) c = .more x →
    ∃ t, exec (.microstepLoad rq c) s = .next t ∧ t.answered rq 0x0304 scDone (leBytes 4 x.data.length) ∧
      t.staged 0x0304 c.inst = x ∧ t.motion = s.motion) ∧
  (∀ (s : State) (rq : Rq) (a : Nat), s.ready rq 0x0306 → a < 16 →
    ∃ t, exec (.axisStatus rq a) s = .next t ∧
      t.answered rq 0x0306 scDone (posBytes (s.axPos a) ++ bytesOf [s.axState a, 0, 0, 0] ++
        leBytes 4 (s.reg (Reg.AX_STATUS a)).toNat) ∧
      t.motion = s.motion ∧ ∀ r, r ∉ answerRegs → t.reg r = s.reg r)

/-- What happens to an axis (R270 to R282): AXIS_UPDATE, AXIS_HOLD_CURRENT, FOLLOW_STEP, FOLLOW_WRITE, SWITCH_ACCEPT,
SWITCH_RAW_EDGE, AXIS_STAGE_FAULT, AXIS_ENABLE_WRITE, AXIS_ESTOP. -/
def Obligations.AxisEventsComplete : Prop :=
  (∀ (s : State) (a : Nat) (p : AxisPlan), a < 16 → s.awake → s.axState a = axMoving → (s.axis a).plan = some p →
    AxisPlan.over { p with n := p.n + 1 } = false →
    ∃ t, exec (.axisUpdate a) s = .next t ∧ t.axState a = axMoving ∧
      t.axPos a = clampInt axMin axMax (AxisPlan.place { p with n := p.n + 1 } / 4294967296) ∧
      (t.axis a).plan = some { p with n := p.n + 1 }) ∧
  (∀ (s : State) (a : Nat) (p : AxisPlan) (g : Int), a < 16 → s.awake → s.axState a = axMoving →
    (s.axis a).plan = some p → p.goal = some g → AxisPlan.over { p with n := p.n + 1 } → axMin ≤ g → g ≤ axMax →
    s.axAtLimit a = false →
    ∃ t, exec (.axisUpdate a) s = .next t ∧ t.axPos a = g ∧ (t.axis a).plan = none ∧ (t.axis a).cmd = none ∧
      t.axState a = (if s.flag (Reg.AX_CTRL_FOLLOW a) then axFollow else axStanding)) ∧
  (∀ (s : State) (a : Nat), a < 16 → s.axState a = axStanding → s.awake →
    ∃ t, exec (.axisHoldCurrent a) s = .next t ∧ t.axis a = { s.axis a with hold := true } ∧ t.regs = s.regs) ∧
  (∀ (s : State) (a : Nat), a < 16 → s.axState a = axFollow → s.flag (Reg.AX_STATUS_HOMED a) = false →
    ∃ t, exec (.followStep a) s = .next t ∧
      t.axPos a = clampInt axMin axMax (s.axPos a + ((s.axis a).followTotal - (s.axis a).followDone)) ∧
      (t.axis a).followTotal =
        (if s.axDirIn a then 1 else -1) * ((2 ^ s.fld (Reg.AX_CTRL_IN_SHIFT a) : Nat) : Int) ∧
      (t.axis a).followDone = 0 ∧ (t.axis a).followTick = s.now + 1) ∧
  (∀ (s : State) (a : Nat), a < 16 → s.awake → s.axState a = axStanding → s.flag (Reg.AX_CTRL_FOLLOW a) = false →
    s.passes (Reg.AX_CTRL_FOLLOW a) 1 →
    ∃ t, exec (.followWrite a true) s = .next t ∧ t.fld (Reg.AX_CTRL_FOLLOW a) = 1 ∧ t.axState a = axFollow ∧
      t.axPos a = s.axPos a) ∧
  (∀ (s : State) (sw us : Nat) (level : Bool), sw < 32 →
    ∃ t, exec (.switchAccept sw level us) s = .next t ∧
      (∀ a, a < 16 → ∀ k, k < 32 → t.axLevel a k =
        if k = sw ∧ s.fld (Reg.AX_SWCFG_STABLE a) ≤ us then level else s.axLevel a k) ∧
      ∀ a, a < 16 → s.fld (Reg.AX_SWCFG_STABLE a) ≤ us → s.axSwitch a 1 = some sw → s.axLevel a sw ≠ level →
        level ≠ bitAt (s.fld (Reg.AX_SWCFG_ACT_LOW a)) 1 → s.axState a = axMoving → (s.axis a).plan.isSome →
        t.axState a = axFaultLimit ∧ t.fld (Reg.AX_STATUS_LIM_ACT a) = 1 ∧ (t.axis a).plan.map (·.kind) = some 2) ∧
  (∀ (s : State) (sw : Nat) (level : Bool), ∃ t, exec (.switchRawEdge sw level) s = .next t ∧
    tabGet false t.motion.raw sw = level ∧
    ∀ a, a < 16 → s.axSwitch a 1 = some sw ∨ s.axSwitch a 2 = some sw → (t.axis a).limitEdge = s.axPos a) ∧
  (∀ (s : State) (a : Nat), a < 16 → s.axState a ≠ axFaultStage →
    ∃ t, exec (.axisStageFault a) s = .next t ∧ t.axState a = axFaultStage ∧ t.fld (Reg.AX_STATUS_HOMED a) = 0 ∧
      t.fld (Reg.AX_STATUS_FLT_IN a) = 1 ∧ (t.axis a).plan = none ∧
      t.fld Reg.NVC_LOG_NEXT = (s.fld Reg.NVC_LOG_NEXT + 1) % idxMod) ∧
  (∀ (s : State) (a : Nat), a < 16 → s.awake → s.axState a = axOff → s.flag (Reg.AX_CTRL_ENABLE a) = false →
    s.axAtLimit a = false → s.passes (Reg.AX_CTRL_ENABLE a) 1 →
    ∃ t, exec (.axisEnableWrite a true) s = .next t ∧ t.fld (Reg.AX_CTRL_ENABLE a) = 1 ∧
      t.axState a = (if s.flag (Reg.AX_CTRL_FOLLOW a) then axFollow else axStanding)) ∧
  (∀ (s : State) (a : Nat), a < 16 → s.awake → s.axState a ≠ axOff → s.flag (Reg.AX_CTRL_ENABLE a) →
    s.passes (Reg.AX_CTRL_ENABLE a) 0 →
    ∃ t, exec (.axisEnableWrite a false) s = .next t ∧ t.fld (Reg.AX_CTRL_ENABLE a) = 0 ∧ t.axState a = axOff ∧
      t.fld (Reg.AX_STATUS_HOMED a) = 0 ∧ (t.axis a).plan = none) ∧
  (∀ (s : State) (a : Nat) (p : AxisPlan), a < 16 → s.axState a ≠ axFollow → (s.axis a).plan = some p → p.kind ≠ 2 →
    ∃ t, exec (.axisEstop a) s = .next t ∧
      (t.axis a).plan = some (p.emergency (s.axPlace a) (s.fld (Reg.AX_EDEC_EDEC a))) ∧ t.axPos a = s.axPos a) ∧
  (∀ (s : State) (a : Nat), a < 16 → s.axState a = axFollow → (s.axis a).plan = none → s.axAtLimit a = false →
    ∃ t, exec (.axisEstop a) s = .next t ∧ t.axState a = axStanding ∧ t.fld (Reg.AX_CTRL_FOLLOW a) = 0 ∧
      t.axPos a = s.axPos a ∧ (t.cons (57 + a)).busy = false)

/-- COMMAND_PACKET (Table 04-3, R82 to R85, R94, R95): a sound packet takes its tag and joins its domain's queue, by
Ethernet, from a ring or forwarded; a repeated one is answered again from its slot; a pad entry is skipped. -/
def Obligations.CommandPacketCompletes : Prop :=
  (∀ (s : State) (ip port : Nat) (b : List Byte), headerOk b → b.length = 16 + (headerOf b).length →
    4 ≤ (headerOf b).session → (s.session (headerOf b).session).kind = .eth ip port → (headerOf b).opcode ≠ 0x0030 →
    s.inTurn (headerOf b).session b → s.sound false b →
    ∃ t, exec (.commandPacket (.eth ip port) b) s = .next t ∧
      t.cmd.queue = s.cmd.queue ++ [queuedOf (headerOf b).session b] ∧
      (t.session (headerOf b).session).lastSeq = some (headerOf b).seq ∧
      (t.session (headerOf b).session).lastTick = s.now ∧
      t.unanswered { sess := (headerOf b).session, tag := (headerOf b).tag, seq := (headerOf b).seq } (headerOf b).opcode ∧
      t.regs = s.regs ∧ t.outbox = s.outbox) ∧
  (∀ (s : State) (r : Nat) (b : List Byte), r < 4 → s.ringTakes r → headerOk b → (headerOf b).session = r →
    (headerOf b).opcode ≠ 0 ∨ (headerOf b).tag ≠ 255 →
    (s.ring r).cmdCons % s.cmdSize r + unitsOf (headerOf b).length ≤ s.cmdSize r → (headerOf b).opcode ≠ 0x0030 →
    s.inTurn r b → s.sound false b →
    ∃ t, exec (.commandPacket (.ring r) b) s = .next t ∧ t.cmd.queue = s.cmd.queue ++ [queuedOf r b] ∧
      (t.ring r).cmdCons = ((s.ring r).cmdCons + unitsOf (headerOf b).length) % idxMod ∧
      (t.session r).lastSeq = some (headerOf b).seq ∧
      t.unanswered { sess := r, tag := (headerOf b).tag, seq := (headerOf b).seq } (headerOf b).opcode ∧
      t.regs = s.regs ∧
      t.outbox = s.outbox ++ [.ringRead r (s.cmdBase r + 64 * ((s.ring r).cmdCons % s.cmdSize r))]) ∧
  (∀ (s u : State) (dev sess n : Nat) (b : List Byte), b.length = 16 + (headerOf b).length →
    (headerOf b).length ≤ 4080 → (headerOf b).opcode ≠ 0x0031 ∨ (headerOf b).tag ≠ 255 → sess < 16 →
    s.forwardedSession dev sess = some (n, u) → s.sound true b →
    ∃ t, exec (.commandPacket (.chain dev sess) b) s = .next t ∧ t.cmd.queue = s.cmd.queue ++ [queuedOf n b] ∧
      (t.session n).kind = .forwarded dev sess ∧
      t.unanswered { sess := n, tag := (headerOf b).tag, seq := (headerOf b).seq } (headerOf b).opcode) ∧
  (∀ (s : State) (ip port : Nat) (b : List Byte), headerOk b → b.length = 16 + (headerOf b).length →
    4 ≤ (headerOf b).session → (s.session (headerOf b).session).kind = .eth ip port → (headerOf b).opcode ≠ 0x0030 →
    s.inTurn (headerOf b).session b → s.flagBreach false (headerOf b) (payloadOf b (headerOf b)) = none →
    (headerOf b).chained → (headerOf b).target ≠ s.chainId →
    ∃ t, exec (.commandPacket (.eth ip port) b) s = .next t ∧ t.cmd.queue = s.cmd.queue ∧
      t.chain.inFlight = s.chain.inFlight ++
        [⟨(headerOf b).target, (headerOf b).session, (headerOf b).tag, none⟩] ∧
      t.unanswered { sess := (headerOf b).session, tag := (headerOf b).tag, seq := (headerOf b).seq }
        (headerOf b).opcode) ∧
  (∀ (s : State) (r : Nat) (b : List Byte), r < 4 → s.ringTakes r → (headerOf b).opcode = 0 → (headerOf b).tag = 255 →
    ∃ t, exec (.commandPacket (.ring r) b) s = .next t ∧
      (t.ring r).cmdCons = ((s.ring r).cmdCons + unitsOf (headerOf b).length) % idxMod ∧ t.cmd.queue = s.cmd.queue) ∧
  (∀ (s : State) (ip port p hop : Nat) (b : List Byte), headerOk b → b.length = 16 + (headerOf b).length →
    4 ≤ (headerOf b).session → (s.session (headerOf b).session).kind = .eth ip port → (headerOf b).opcode ≠ 0x0030 →
    s.ethRoute ip = some (p, hop) → (headerOf b).opcode ≠ 0x0002 → (s.slot (headerOf b).session (headerOf b).tag).taken →
    (s.slot (headerOf b).session (headerOf b).tag).done →
    (s.slot (headerOf b).session (headerOf b).tag).opcode = (headerOf b).opcode →
    (s.slot (headerOf b).session (headerOf b).tag).seq = (headerOf b).seq →
    ∃ t, exec (.commandPacket (.eth ip port) b) s = .next t ∧ t.cmd.queue = s.cmd.queue ∧
      t.outbox = s.outbox ++ [.datagram p hop ip port (replyBytes
        { (s.slot (headerOf b).session (headerOf b).tag).reply (headerOf b).session (headerOf b).tag with
          again := true })] ∧
      (t.slot (headerOf b).session (headerOf b).tag).delivered)

/-- Registers by command (R9, R102, R103, R303, R327, R418): READ_REG, WRITE_REG, MODIFY_REG, READ_CLEAR, LO_LATCH_READ,
TSCAP_RELEASE, CHK_DATA_READ. -/
def Obligations.RegisterCommandsComplete : Prop :=
  (∀ (s : State) (rq : Rq) (addr : Nat), s.ready rq 0x0010 [domainOfBlock (blockOf addr % 256)] → rangeOk addr 1 →
    (planRow addr).isSome →
    ∃ t, exec (.readReg rq addr 1) s = .next t ∧
      t.answered rq 0x0010 scDone (leBytes 4 (s.shownOn .cmd addr).toNat)) ∧
  (∀ (s : State) (rq : Rq) (addr n : Nat), s.ready rq 0x0010 [domainOfBlock (blockOf addr % 256)] → 1 ≤ n → n ≤ 1020 →
    rangeOk addr n →
    ∃ t, exec (.readReg rq addr n) s = .next t ∧
      t.answered rq 0x0010 scDone (((s.take rq).readRange addr n).1.flatMap fun w => leBytes 4 w.toNat)) ∧
  (∀ (s : State) (rq : Rq) (i : Nat) (v : Word), s.ready rq 0x0011 [.platform] → i < 20 →
    ∃ t, exec (.writeReg rq (Reg.PLAT_SCRATCH i) [v]) s = .next t ∧ t.answered rq 0x0011 scDone [] ∧
      t.reg (Reg.PLAT_SCRATCH i) = v ∧ ∀ a, a ∉ answerRegs → a ≠ Reg.PLAT_SCRATCH i → t.reg a = s.reg a) ∧
  (∀ (s u : State) (rq : Rq) (addr : Nat) (vals : List Word), u.sessOpen rq.sess →
    s.ready rq 0x0011 [domainOfBlock (blockOf addr % 256)] → 1 ≤ vals.length → vals.length ≤ 1018 →
    rangeOk addr vals.length → (∀ i, i < vals.length → (planRow (addr + 4 * i)).isSome) →
    (s.take rq).tryWrites
      (vals.zipIdx.map fun v => (24 + 4 * v.2, (⟨addr + 4 * v.2, 0xFFFFFFFF#32, v.1⟩ : RegEntry))) = .done u →
    ∃ t, exec (.writeReg rq addr vals) s = .next t ∧ t.answered rq 0x0011 scDone [] ∧
      ∀ a, a ∉ answerRegs → t.reg a = u.reg a) ∧
  (∀ (s : State) (rq : Rq) (i : Nat) (m v : Word), s.ready rq 0x0012 [.platform] → i < 20 →
    ∃ t, exec (.modifyReg rq [⟨Reg.PLAT_SCRATCH i, m, v⟩]) s = .next t ∧
      t.reg (Reg.PLAT_SCRATCH i) = ((s.reg (Reg.PLAT_SCRATCH i) &&& ~~~m) ||| (v &&& m)) ∧
      t.answered rq 0x0012 scDone (leBytes 4 ((s.reg (Reg.PLAT_SCRATCH i) &&& ~~~m) ||| (v &&& m)).toNat) ∧
      ∀ a, a ∉ answerRegs → a ≠ Reg.PLAT_SCRATCH i → t.reg a = s.reg a) ∧
  (∀ (s u : State) (rq : Rq) (l : List RegEntry), u.sessOpen rq.sess → s.ready rq 0x0012 (modifyDomains l) →
    (∀ e ∈ l, addrOk e.addr = true ∧ (planRow e.addr).isSome = true) →
    (s.take rq).tryWrites (l.zipIdx.map fun e => (24 + 12 * e.2, e.1)) = .done u →
    ∃ t, exec (.modifyReg rq l) s = .next t ∧
      t.answered rq 0x0012 scDone (l.flatMap fun e => leBytes 4 (u.view e.addr).toNat) ∧
      ∀ a, a ∉ answerRegs → t.reg a = u.reg a) ∧
  (∀ (s : State) (a i : Nat) (r : RegRow) (f : FieldRow), planRow a = some (r, i) → f ∈ r.fields → f.access = .rc →
    ∃ t, exec (.readClear .cmd a) s = .next t ∧ wordBits (t.reg a) f.hi f.lo = f.resetIn i % 2 ^ (f.hi + 1 - f.lo) ∧
      t.outbox = s.outbox) ∧
  (∀ (s : State) (a i : Nat) (r : RegRow) (f : FieldRow), planRow a = some (r, i) → f ∈ r.fields → f.access = .rc →
    s.st ≠ stBooting →
    ∃ t, exec (.readClear .bar0 a) s = .next t ∧ wordBits (t.reg a) f.hi f.lo = f.resetIn i % 2 ^ (f.hi + 1 - f.lo) ∧
      t.outbox = s.outbox ++ [.bar0Read a (s.shownOn .bar0 a)]) ∧
  (∀ (s : State) (a h : Nat), (planRow a).isSome → h ∈ latchedBy a →
    ∃ t, exec (.loLatchRead .cmd a) s = .next t ∧ t.shownOn .cmd h = s.view h) ∧
  (∀ (s : State) (a h : Nat), (planRow a).isSome → h ∈ latchedBy a → s.st ≠ stBooting →
    ∃ t, exec (.loLatchRead .bar0 a) s = .next t ∧ t.shownOn .bar0 h = s.view h ∧
      t.outbox = s.outbox ++ [.bar0Read a (s.shownOn .bar0 a)]) ∧
  (∀ (s : State) (k : Nat), s.fld Reg.TSCAP_SEL_UNIT = k → (s.cap k).valid →
    ∃ t, exec (.tscapRelease .cmd) s = .next t ∧ (t.cap k).valid = false ∧
      bitAt (t.fld Reg.TSCAP_SEL_VALID) k = false ∧ (t.cons (48 + k)).busy = false) ∧
  (∀ (s : State) (k : Nat), s.fld Reg.TSCAP_SEL_UNIT = k → (s.cap k).valid → s.st ≠ stBooting →
    ∃ t, exec (.tscapRelease .bar0) s = .next t ∧ (t.cap k).valid = false ∧
      t.outbox = s.outbox ++ [.bar0Read Reg.TSCAP_POS_HI (s.shownOn .bar0 Reg.TSCAP_POS_HI)]) ∧
  (∀ (s : State) (u : Nat), u < 32 →
    ∃ t, exec (.chkDataRead .cmd u) s = .next t ∧
      t.fld (Reg.CHK_IDX_INDEX u) = (s.fld (Reg.CHK_IDX_INDEX u) + 1) % 16 ∧ t.chk = s.chk) ∧
  (∀ (s : State) (u : Nat), u < 32 → s.st ≠ stBooting → tabGet none s.latches (latchKey .bar0 (Reg.CHK_DATA u)) = none →
    ∃ t, exec (.chkDataRead .bar0 u) s = .next t ∧
      t.fld (Reg.CHK_IDX_INDEX u) = (s.fld (Reg.CHK_IDX_INDEX u) + 1) % 16 ∧
      t.outbox = s.outbox ++
        [.bar0Read (Reg.CHK_DATA u) (BitVec.ofNat 32 (s.chkWord u (s.fld (Reg.CHK_IDX_INDEX u))))])

/-- A write through BAR0 (R21, R101): a whole word to a register of a DIRECT block acts as the write of that register; a
write elsewhere or with part of the word's bytes changes nothing and is recorded in CMD_ERR. -/
def Obligations.Bar0WriteCompletes : Prop :=
  (∀ (s : State) (addr i : Nat) (r : RegRow) (v : Word), addrOk addr → directBlock (blockOf addr) →
    planRow addr = some (r, i) → r.passive = false → s.defers addr = false →
    exec (.bar0Write addr v 15) s = .next (s.putWord ⟨addr, 0xFFFFFFFF#32, v⟩ (s.oldWord addr)
      (keepBroken (fun _ => true) addr (s.oldWord addr) (mergeWord r (s.oldWord addr) 0xFFFFFFFF#32 v)))) ∧
  (∀ (s : State) (addr i : Nat) (r : RegRow) (v : Word), addrOk addr → directBlock (blockOf addr) →
    planRow addr = some (r, i) → r.passive = false → s.defers addr →
    exec (.bar0Write addr v 15) s = .next (s.putLater ⟨addr, 0xFFFFFFFF#32, v⟩)) ∧
  (∀ (s : State) (i : Nat) (v : Word), i < 256 →
    ∃ t, exec (.bar0Write (Reg.EVT_MAT i) v 15) s = .next t ∧ t.reg (Reg.EVT_MAT i) = v ∧
      ∀ a, a ≠ Reg.EVT_MAT i → t.reg a = s.reg a) ∧
  (∀ (s : State) (i be : Nat) (v : Word), i < 256 → be ≠ 15 → s.fld Reg.CMD_ERR_CAUSE = 0 →
    ∃ t, exec (.bar0Write (Reg.EVT_MAT i) v be) s = .next t ∧ t.reg (Reg.EVT_MAT i) = s.reg (Reg.EVT_MAT i) ∧
      t.fld Reg.CMD_ERR_CAUSE = 2 ∧ t.fld Reg.CMD_ERR_ADDR = Reg.EVT_MAT i) ∧
  (∀ (s : State) (i be : Nat) (v : Word), i < 20 → s.fld Reg.CMD_ERR_CAUSE = 0 →
    ∃ t, exec (.bar0Write (Reg.PLAT_SCRATCH i) v be) s = .next t ∧
      t.reg (Reg.PLAT_SCRATCH i) = s.reg (Reg.PLAT_SCRATCH i) ∧
      t.fld Reg.CMD_ERR_CAUSE = 1 ∧ t.fld Reg.CMD_ERR_ADDR = Reg.PLAT_SCRATCH i)

/-- Configuration images (R104, R106, R107): CONFIG_LOAD applies an image that passes and changes the state by Table
04-8; CONFIG_CHECK judges and applies nothing. -/
def Obligations.ConfigCommandsComplete : Prop :=
  (∀ (s u : State) (rq : Rq) (c : Chunk) (tb : List Byte) (assign : Option (List Half)), s.ready rq 0x0040 →
    s.inSt [stBooting, stAsleep, stHalted] = false → c.inst = 0 → u.sessOpen rq.sess →
    judgeChunk true (s.staged 0x0040 0) c = .whole tb →
    ((s.take rq).setStaged 0x0040 0 {}).applyImage tb (chunkReset c) assign = .ok u →
    ∃ t, exec (.configLoad rq c assign) s = .next t ∧ t.answered rq 0x0040 scDone (checkResult 0 0 0 0) ∧
      t.st = (if u.st = stStandby ∧ !chunkReset c then stReady
        else if u.st = stReady ∧ chunkReset c then stStandby else u.st) ∧
      ∀ a, a ∉ answerRegs → t.reg a = u.reg a) ∧
  (∀ (s : State) (rq : Rq) (c : Chunk) (x : Staging) (assign : Option (List Half)), s.ready rq 0x0040 →
    s.inSt [stBooting, stAsleep, stHalted] = false → c.inst = 0 → judgeChunk true (s.staged 0x0040 0) c = .more x →
    ∃ t, exec (.configLoad rq c assign) s = .next t ∧ t.answered rq 0x0040 scDone (leBytes 4 x.data.length) ∧
      t.staged 0x0040 0 = x ∧ ∀ a, a ∉ answerRegs → t.reg a = s.reg a) ∧
  (∀ (s u : State) (rq : Rq) (c : Chunk) (tb : List Byte) (assign : Option (List Half)), s.ready rq 0x0041 → c.inst = 0 →
    judgeChunk true (s.staged 0x0041 0) c = .whole tb →
    ((s.take rq).setStaged 0x0041 0 {}).applyImage tb (chunkReset c) assign = .ok u →
    ∃ t, exec (.configCheck rq c assign) s = .next t ∧ t.answered rq 0x0041 scDone (checkResult 0 0 0 0) ∧
      ∀ a, a ∉ answerRegs → t.reg a = s.reg a) ∧
  (∀ (s : State) (rq : Rq) (c : Chunk) (tb : List Byte) (f : ImageFault)
    (assign : Option (List Half)), s.ready rq 0x0041 → c.inst = 0 →
    judgeChunk true (s.staged 0x0041 0) c = .whole tb →
    ((s.take rq).setStaged 0x0041 0 {}).applyImage tb (chunkReset c) assign = .error f →
    ∃ t, exec (.configCheck rq c assign) s = .next t ∧
      t.answered rq 0x0041 scDone (checkResult 1 f.reason f.block f.offset) ∧
      ∀ a, a ∉ answerRegs → t.reg a = s.reg a) ∧
  (∀ (s : State) (rq : Rq) (c : Chunk) (x : Staging) (assign : Option (List Half)), s.ready rq 0x0041 → c.inst = 0 →
    judgeChunk true (s.staged 0x0041 0) c = .more x →
    ∃ t, exec (.configCheck rq c assign) s = .next t ∧ t.answered rq 0x0041 scDone (leBytes 4 x.data.length) ∧
      t.staged 0x0041 0 = x)

/-- Rows that are one write of one field (R43, R46, R62, R72, R123, R190, R292): each write that passes R102 holds. -/
def Obligations.FieldWritesComplete : Prop :=
  (∀ (s : State) (k v : Nat), k < 64 → s.passes (Reg.LOCK_HOLD_LIMIT k) v →
    ∃ t, exec (.lockHoldLimitWrite k v) s = .next t ∧ t.fld (Reg.LOCK_HOLD_LIMIT k) = v ∧
      (s.fld (Reg.LOCK_STATE k) ≠ 1 → t.fld (Reg.LOCK_STATE k) = s.fld (Reg.LOCK_STATE k))) ∧
  (∀ (s : State) (j v : Nat), j < 16 → s.awake → v ≤ 2 → s.passes (Reg.ARB_J_CTRL_FAIRNESS j) v →
    ∃ t, exec (.arbFairnessWrite j v) s = .next t ∧ t.fld (Reg.ARB_J_CTRL_FAIRNESS j) = v ∧
      (v = 0 → t.reg (Reg.ARB_J_LIMLO j) = 0x10101010#32 ∧ t.reg (Reg.ARB_J_LIMHI j) = 0x10101010#32) ∧
      (v = 1 → t.reg (Reg.ARB_J_LIMLO j) = 0x04040404#32 ∧ t.reg (Reg.ARB_J_LIMHI j) = 0x04040404#32) ∧
      (v = 2 → t.reg (Reg.ARB_J_LIMLO j) = s.reg (Reg.ARB_J_LIMLO j))) ∧
  (∀ (s : State) (v : Nat), s.passes Reg.PACE_CTRL_MODE v →
    ∃ t, exec (.paceModeWrite v) s = .next t ∧ t.fld Reg.PACE_CTRL_MODE = v ∧
      ∀ a, a ≠ Reg.PACE_CTRL → t.reg a = s.reg a) ∧
  (∀ (s : State) (v : Nat), s.passes Reg.PACE_LIMIT_VCAP_MV v →
    ∃ t, exec (.paceVcapWrite v) s = .next t ∧ t.fld Reg.PACE_LIMIT_VCAP_MV = v ∧
      ∀ a, a ≠ Reg.PACE_LIMIT → t.reg a = s.reg a) ∧
  (∀ (s : State) (u : Nat) (e : Bool), u < 16 → s.awake → s.passes (Reg.DCMP_CTRL_ENABLE u) (b2n e) →
    ∃ t, exec (.dcmpEnableWrite u e) s = .next t ∧ t.flag (Reg.DCMP_CTRL_ENABLE u) = e) ∧
  (∀ (s : State) (d v : Nat), d < 2 → s.passes (Reg.TD_ALARM_NS_NS d) v →
    ∃ t, exec (.alarmArm d v) s = .next t ∧ t.fld (Reg.TD_ALARM_NS_NS d) = v ∧
      t.fld (Reg.TD_STATUS_ALARM_ARMED d) = 1) ∧
  (∀ (s : State) (n : Nat), n < 24 → s.awake → s.flag (Reg.CAP_CTRL_ENABLE n) = false →
    s.passes (Reg.CAP_CTRL_ENABLE n) 1 →
    ∃ t, exec (.capEnableWrite n true) s = .next t ∧ t.fld (Reg.CAP_CTRL_ENABLE n) = 1) ∧
  (∀ (s : State) (n : Nat), n < 24 → s.awake → s.flag (Reg.CAP_CTRL_ENABLE n) →
    s.passes (Reg.CAP_CTRL_ENABLE n) 0 →
    ∃ t, exec (.capEnableWrite n false) s = .next t ∧ t.fld (Reg.CAP_CTRL_ENABLE n) = 0 ∧
      (t.cam n).openFrame = none)

/-- Reset and supply (R106, R353, R389): DEVICE_RESET, SUPPLY_SHUTDOWN, SUPPLY_RESTART: the volatile state is lost, the
keys and what waits in the queue stay, the cause is shown. -/
def Obligations.ResetCommandsComplete : Prop :=
  (∀ (s : State) (env : BootEnv), ∃ t, exec (.deviceReset .powerOn env) s = .next t ∧ t.mem = [] ∧
    t.cmd.keys = s.cmd.keys ∧ t.pending = s.pending ∧ t.now = 0 ∧ t.fld Reg.PWR_STATUS_LAST_OFF = 0 ∧ t.pwr.off = none) ∧
  (∀ (s : State) (env : BootEnv), s.pwr.off = none →
    ∃ t, exec (.deviceReset .resetN env) s = .next t ∧ t.mem = [] ∧ t.cmd.keys = s.cmd.keys ∧
      t.pending = s.pending ∧ t.now = 0 ∧ t.fld Reg.PWR_STATUS_LAST_OFF = 5) ∧
  (∀ (s : State) (env : BootEnv) (c : Nat), s.pwr.off = some c → c ≤ 4 →
    ∃ t, exec (.supplyRestart env) s = .next t ∧ t.pwr.off = none ∧ t.fld Reg.PWR_STATUS_LAST_OFF = c ∧
      t.fld Reg.PWR_EVENTS_OFF = 1 ∧ t.mem = [] ∧ t.cmd.keys = s.cmd.keys) ∧
  (∀ (s : State) (c : Nat), s.pwr.off = none → 1 ≤ c → c ≤ 4 →
    ∃ t, exec (.supplyShutdown c) s = .next t ∧ t.pwr.off = some c ∧ t.mem = [] ∧ t.cmd.keys = s.cmd.keys ∧
      t.cmd.queue = [] ∧ t.fld Reg.PWR_THERM_TRIPS =
        if 3 ≤ c then min (s.fld Reg.PWR_THERM_TRIPS + 1) 255 else s.fld Reg.PWR_THERM_TRIPS)

/-- A whole boot (Table 15-1, R353 to R356): with no step failed, no chain strap, the running slot valid and the factory
record held in two equal copies, the device reaches STANDBY with every step complete. -/
def Obligations.BootReachesStandby : Prop :=
  ∀ (s : State) (env : BootEnv), env.badSlots = [] → env.badPhases = [] → env.badDram = [] → env.failed = [] →
    env.chainW = 0 → s.flag Reg.NVC_SLOT_ACTIVE = false → s.flag Reg.NVC_SLOT_A_VALID →
    (∀ e ∈ s.nvc.cal, e.2.a = e.2.b) → (s.calNewest 0x01 0).isSome →
    ∃ t, exec (.deviceReset .powerOn env) s = .next t ∧ t.st = stStandby ∧ t.fld Reg.PLAT_BOOT_STEP = 7 ∧
      t.fld Reg.PLAT_BOOT_BOOT_MS = min 65535 env.bootMs ∧ t.fld Reg.NVC_SLOT_RUNNING = 0 ∧ t.nvc = s.nvc

/-- The supply and the power states (R106, R389 to R402, R410): REVERSE_BLOCK, PHASE_DISABLE, ZONE_FAULT, SERVICE_ENTER,
SERVICE_EXIT, SLEEP, SLEEP_ENTRY_COMPLETE, WAKE, WAKE_PIN, WAKE_EVENT, WAKE_COMPLETE, ENGINE_DOZE, ENGINE_UNDOZE,
MGMT_PORT_ACCESS. -/
def Obligations.PowerCommandsComplete : Prop :=
  (∀ (s : State), exec .reverseBlock s = .next { s with pwr := { s.pwr with blocked := true } }) ∧
  (∀ (s : State) (p : Nat), p < 40 → bitAt (s.fld (phaseFld p).1) (phaseFld p).2 = false →
    ∃ t, exec (.phaseDisable p) s = .next t ∧ bitAt (t.fld (phaseFld p).1) (phaseFld p).2 ∧
      t.fld Reg.PWR_EVENTS_PHASE = 1 ∧ t.fld Reg.NVC_LOG_NEXT = (s.fld Reg.NVC_LOG_NEXT + 1) % idxMod ∧
      (t.phaseCount (decide (32 ≤ p)) = 2 → t.fld Reg.PWR_STATUS_DERATED = 1)) ∧
  (∀ (s : State) (g l : Nat), l < zoneLines g → s.flag Reg.PWR_CTRL_WAKE_ZONE = false →
    ∃ t, exec (.zoneFault g l) s = .next t ∧ bitAt (t.fld Reg.PWR_ZONE_FAULT) g ∧ bitAt (t.fld Reg.PWR_ZONE_ACTIVE) g ∧
      t.fld Reg.PWR_ZONE_GROUP = g ∧ t.fld Reg.PWR_ZONE_LINE = l ∧ t.fld Reg.PWR_EVENTS_ZONE = 1 ∧
      (s.flag Reg.PWR_CTRL_EV_ZONE → t.evt.waiting.any (fun w => w.prod == 119))) ∧
  (∀ (s : State) (rq : Rq), s.ready rq 0x0050 →
    ∃ t, exec (.serviceEnter rq) s = .next t ∧ t.answered rq 0x0050 scDone [] ∧ t.st = stService ∧
      t.fld Reg.PLAT_STATE_PREV = s.st ∧ t.stateSince = s.now ∧ ∀ a, a ∉ answerRegs → t.reg a = s.reg a) ∧
  (∀ (s : State) (rq : Rq), s.ready rq 0x0051 →
    ∃ t, exec (.serviceExit rq) s = .next t ∧ t.answered rq 0x0051 scDone [] ∧ t.st = s.fld Reg.PLAT_STATE_PREV ∧
      ∀ a, a ∉ answerRegs → t.reg a = s.reg a) ∧
  (∀ (s : State) (rq : Rq), s.ready rq 0x0052 → s.sleepBusy = false →
    ∃ t, exec (.sleep rq) s = .next t ∧ t.unanswered rq 0x0052 ∧ t.fld Reg.PWR_STATUS_ENTERING = 1 ∧
      t.cmd.barrier = some (rq.sess, rq.tag) ∧ t.fld Reg.PLAT_STATE_BARRIER = 1 ∧
      t.pwr.sleeper = some (rq.sess, rq.tag) ∧ t.st = s.st) ∧
  (∀ (s : State), s.flag Reg.PWR_STATUS_ENTERING → s.pwr.wakeDue = 0 →
    ∃ t, exec .sleepEntryComplete s = .next t ∧ t.st = stAsleep ∧ t.fld Reg.PWR_STATUS_PSTATE = 2 ∧
      t.fld Reg.PWR_STATUS_ENTERING = 0 ∧ t.pwr.sleeper = none) ∧
  (∀ (s : State) (rq : Rq), s.ready rq 0x0053 → s.flag Reg.PWR_STATUS_ENTERING = false →
    s.flag Reg.PWR_STATUS_WAKING = false →
    ∃ t, exec (.wake rq) s = .next t ∧ t.unanswered rq 0x0053 ∧ t.fld Reg.PWR_STATUS_WAKING = 1 ∧
      t.fld Reg.PWR_STATUS_LAST_WAKE = 1 ∧ t.pwr.waker = some (rq.sess, rq.tag)) ∧
  (∀ (s : State), s.flag Reg.PWR_CTRL_WAKE_PIN → s.st = stAsleep → s.flag Reg.PWR_STATUS_ENTERING = false →
    s.flag Reg.PWR_STATUS_WAKING = false →
    ∃ t, exec .wakePin s = .next t ∧ t.fld Reg.PWR_STATUS_WAKING = 1 ∧ t.fld Reg.PWR_STATUS_LAST_WAKE = 2) ∧
  (∀ (s : State), s.flag Reg.PWR_CTRL_WAKE_EVT → s.st = stAsleep → s.flag Reg.PWR_STATUS_ENTERING = false →
    s.flag Reg.PWR_STATUS_WAKING = false →
    ∃ t, exec .wakeEvent s = .next t ∧ t.fld Reg.PWR_STATUS_WAKING = 1 ∧ t.fld Reg.PWR_STATUS_LAST_WAKE = 3) ∧
  (∀ (s : State), s.flag Reg.PWR_STATUS_WAKING → s.pwr.owed = false → s.pwr.later = [] →
    ∃ t, exec (.wakeComplete false) s = .next t ∧
      (let ms := min 65535 ((s.now - s.pwr.wakeAt) / ticksOfMs 1)
       t.fld Reg.PWR_WAKE_T_LAST_MS = ms ∧ t.fld Reg.PWR_WAKE_T_MAX_MS = max ms (s.fld Reg.PWR_WAKE_T_MAX_MS)) ∧
      t.st = s.fld Reg.PLAT_STATE_PREV ∧ t.fld Reg.PWR_STATUS_WAKING = 0 ∧ t.fld Reg.PWR_STATUS_PSTATE = 0 ∧
      t.pwr.waker = none ∧ t.pwr.deep = s.pwr.deep + (s.now - s.stateSince)) ∧
  (∀ (s : State), s.flag Reg.PWR_STATUS_WAKING → s.pwr.owed = false →
    ∃ t, exec (.wakeComplete false) s = .next t ∧
      t = (let u := s.leaveDeep.applyLater
           State.endTask (match s.pwr.waker with
             | some w => (u.finishSlot w.1 w.2 scDone).vacate w.1 w.2
             | none => u) 56)) ∧
  (∀ (s : State) (e : Nat), e < 256 → s.inSt [stStandby, stReady, stService, stHalted] → s.flag Reg.PWR_CTRL_DOZE_EN →
    s.half (e / 8) ≠ 2 → s.dozes e = false → (s.cluster (e / 16)).vacant.contains (e % 16) = false →
    ∃ t, exec (.engineDoze e) s = .next t ∧ t.dozes e ∧ (∀ k, k ≠ e → t.dozes k = s.dozes k) ∧
      (s.fld Reg.PWR_STATUS_PSTATE ≠ 2 → t.fld Reg.PWR_STATUS_PSTATE = 1)) ∧
  (∀ (s : State) (e : Nat), s.dozes e → s.mayPowerUp (e / 8) →
    ∃ t, exec (.engineUndoze e) s = .next t ∧ t.dozes e = false ∧ ∀ k, k ≠ e → t.dozes k = s.dozes k) ∧
  (∀ (s : State) (o : Nat), s.pwr.off = none → o < 0x40 → o % 4 = 0 →
    ∃ t, exec (.mgmtPortAccess (some o) 1) s = .next t ∧
      t.outbox = s.outbox ++ [.mgmt (leBytes 4 (s.pwrWord (Reg.PWR_CTRL + o)).toNat)] ∧ t.pwr.mgmt = o + 4 ∧
      t.regs = s.regs) ∧
  (∀ (s : State) (n : Nat), s.pwr.off = none →
    ∃ t, exec (.mgmtPortAccess none n) s = .next t ∧ t.pwr.mgmt = s.pwr.mgmt + 4 * n ∧ t.regs = s.regs)

/-- The job (R106, R126 to R130, R163): JOB_OPEN, PAGE_SUBMIT, PAGE_SUBMIT_START, PAGE_REPEAT, JOB_CLOSE,
BAR_DELAY_SET. -/
def Obligations.JobCommandsComplete : Prop :=
  (∀ (s : State) (rq : Rq) (job mask : Nat), s.ready rq 0x0100 → mask ≠ 0 → mask < 65536 → s.job.active = false →
    ∃ t, exec (.jobOpen rq job mask) s = .next t ∧ t.answered rq 0x0100 scDone [] ∧
      t.job = { active := true, num := job, mask := mask, handle := s.job.handle } ∧ t.fld Reg.PLAT_STATE_JOB = 1 ∧
      t.st = s.st ∧ ∀ a, a ∉ answerRegs → t.reg a = s.reg a) ∧
  (∀ (s : State) (rq : Rq) (page ch len r : Nat), s.ready rq 0x0101 → s.jobTakes → ch < 64 →
    s.flag (Reg.DMA_CTRL_OWNER ch) → len ≠ 0 → s.freeRange = some r → s.job.starts = [] →
    s.busStopped = false → s.chTaken ch = false →
    (∀ e ∈ s.job.entries, e.failed = false) → s.job.entries.length < 1024 →
    ∃ t, exec (.pageSubmit rq page ch len) s = .next t ∧ t.unanswered rq 0x0101 ∧ (t.page ch).active ∧
      (t.page ch).page = page ∧ (t.page ch).len = len ∧ (t.page ch).range = r ∧ (t.page ch).entry = s.job.nextEntry ∧
      t.job.entries = s.job.entries ++ [{ id := s.job.nextEntry, page := some page }] ∧
      t.job.nextEntry = s.job.nextEntry + 1 ∧ t.fld (Reg.DMA_STATUS_ACTIVE ch) = 1) ∧
  (∀ (s : State) (rq : Rq) (page ch len : Nat), s.ready rq 0x0101 → s.jobTakes → ch < 64 →
    s.flag (Reg.DMA_CTRL_OWNER ch) → len ≠ 0 → s.freeRange = none ∨ s.job.starts ≠ [] ∨ s.busStopped →
    ∃ t, exec (.pageSubmit rq page ch len) s = .next t ∧ t.unanswered rq 0x0101 ∧
      t.job.starts = s.job.starts ++ [⟨rq.sess, rq.tag, page, ch, len⟩] ∧ t.ingest = s.ingest) ∧
  (∀ (s : State) (w : StartWait) (l : List StartWait) (r : Nat), s.job.starts = w :: l → s.freeRange = some r → w.ch < 64 →
    s.busStopped = false → s.chTaken w.ch = false → (∀ e ∈ s.job.entries, e.failed = false) →
    s.job.entries.length < 1024 →
    ∃ t, exec .pageSubmitStart s = .next t ∧ t.job.starts = l ∧ (t.page w.ch).active ∧ (t.page w.ch).page = w.page ∧
      t.job.entries = s.job.entries ++ [{ id := s.job.nextEntry, page := some w.page }]) ∧
  (∀ (s : State) (rq : Rq) (h n : Nat), s.ready rq 0x0102 → s.jobTakes → s.job.pages.any (fun p => p.handle == h) →
    s.job.entries.length < 1024 →
    ∃ t, exec (.pageRepeat rq h n) s = .next t ∧ t.answered rq 0x0102 scDone [] ∧
      t.job.entries = s.job.entries ++ [{ id := s.job.nextEntry, handle := h, count := n }] ∧
      t.job.nextEntry = s.job.nextEntry + 1 ∧ t.job.pages = s.job.pages ∧ ∀ a, a ∉ answerRegs → t.reg a = s.reg a) ∧
  (∀ (s : State) (rq : Rq), s.ready rq 0x0103 → s.job.active → s.st = stArmed ∨ s.st = stPaused →
    ∃ t, exec (.jobClose rq s.job.num) s = .next t ∧ t.answered rq 0x0103 scDone [] ∧
      t.job = { s.job with closed := true } ∧ t.st = s.st) ∧
  (∀ (s : State) (rq : Rq), s.ready rq 0x0103 → s.job.active → s.st = stReady →
    State.jobDone { s with job := { s.job with closed := true } } →
    ∃ t, exec (.jobClose rq s.job.num) s = .next t ∧ t.job.active = false ∧ t.job.entries = [] ∧
      t.fld Reg.PLAT_STATE_JOB = 0 ∧ t.st = stReady) ∧
  (∀ (s : State) (rq : Rq) (b d : Nat), s.ready rq 0x0120 → b < 16 → d < idxMod →
    ∃ t, exec (.barDelaySet rq b d) s = .next t ∧ t.answered rq 0x0120 scDone [] ∧
      t.fld (Reg.DOSE_BAR_DELAY_DELAY b) = d ∧ ∀ a, a ∉ answerRegs → a ≠ Reg.DOSE_BAR_DELAY b → t.reg a = s.reg a)

/-- Printing (R106, R163): ARM, START, PAUSE, RESUME, STOP and the consumer tasks PRINT_PAUSE and PRINT_STOP. -/
def Obligations.PrintCommandsComplete : Prop :=
  (∀ (s : State) (rq : Rq), s.ready rq 0x0110 → s.job.active → s.masterEnc.isSome ∨ s.posFromRing → s.twoOrigins = false →
    s.jobBars.all s.barReady →
    ∃ t, exec (.arm rq s.job.num) s = .next t ∧ t.answered rq 0x0110 scDone (tickBytes s.webPos) ∧ t.st = stArmed ∧
      t.ppos.high = s.webPos ∧ t.ppos.offset = 0 ∧ t.spare.dozing = [] ∧ t.job = s.job) ∧
  (∀ (s : State) (rq : Rq) (pos : Int), s.ready rq 0x0111 → s.ppos.high + 16 ≤ pos → s.liftReady →
    s.job.closed = false →
    ∃ t, exec (.start rq pos) s = .next t ∧ t.answered rq 0x0111 scDone [] ∧ t.st = stPrinting ∧
      t.ppos.offset = pos ∧ t.ppos.high = s.ppos.high ∧ t.fld Reg.PLAT_STATE_PREV = stArmed ∧ t.job = s.job) ∧
  (∀ (s : State) (rq : Rq), s.ready rq 0x0112 →
    ∃ t, exec (.pause rq) s = .next t ∧ t.answered rq 0x0112 scDone (tickBytes s.lastFired) ∧ t.st = stPaused ∧
      t.ppos.paused = (lowest s.heldDue).getD s.ppos.high ∧ t.ppos.offset = s.ppos.offset ∧ t.job = s.job) ∧
  (∀ (s : State) (rq : Rq) (pos : Int), s.ready rq 0x0113 → s.ppos.high + 16 ≤ pos → s.liftReady →
    s.job.closed = false →
    ∃ t, exec (.resume rq pos) s = .next t ∧ t.answered rq 0x0113 scDone [] ∧ t.st = stPrinting ∧
      t.ppos.offset = s.ppos.offset + (pos - s.ppos.paused) ∧ t.job = s.job) ∧
  (∀ (s : State) (rq : Rq), s.ready rq 0x0114 →
    ∃ t, exec (.stop rq) s = .next t ∧
      t.answered rq 0x0114 scDone (tickBytes s.lastFired ++ leBytes 4 s.pagesDone) ∧ t.st = stReady ∧
      t.job.active = false ∧ t.job.entries = [] ∧ t.job.pages = [] ∧ t.fld Reg.PLAT_STATE_JOB = 0) ∧
  (∀ (s : State), s.st = stPrinting →
    ∃ t, exec .printPause s = .next t ∧ t.st = stPaused ∧ t.ppos.paused = (lowest s.heldDue).getD s.ppos.high ∧
      (t.cons 73).busy = false ∧ t.job = s.job) ∧
  (∀ (s : State), s.st = stArmed ∨ s.st = stPrinting ∨ s.st = stPaused →
    ∃ t, exec .printStop s = .next t ∧ t.st = stReady ∧ t.job.active = false ∧ t.job.entries = [] ∧
      (t.cons 74).busy = false)

/-- Tables of the PRINT domain (R137, R143, R145, R147, R165, R250): NOZZLE_MAP_LOAD, BOARD_PROFILE_LOAD,
THRESHOLD_LOAD, TONE_CURVE_LOAD, GAIN_LOAD, SUBSTITUTE_SET, MOD_LIMIT_WRITE. -/
def Obligations.PrintTablesComplete : Prop :=
  (∀ (s : State) (rq : Rq) (c : Chunk) (tb : List Byte), s.ready rq 0x0121 → c.inst < 16 →
    judgeChunk false (s.staged 0x0121 c.inst) c = .whole tb → s.mapBad c.inst tb = none →
    (s.withMap c.inst (readMap tb) 0).loadsFit = none →
    ∃ t, exec (.nozzleMapLoad rq c) s = .next t ∧
      t.answered rq 0x0121 scDone (leBytes 4 tb.length ++ leBytes 4 (crc32c tb)) ∧
      (t.bar c.inst).map = readMap tb ∧ (t.bar c.inst).mapCrc = crc32c tb) ∧
  (∀ (s : State) (rq : Rq) (c : Chunk) (tb : List Byte), s.ready rq 0x0126 → c.inst < 48 →
    judgeChunk false (s.staged 0x0126 c.inst) c = .whole tb → s.profBad c.inst tb = none →
    ∃ t, exec (.boardProfileLoad rq c) s = .next t ∧
      t.answered rq 0x0126 scDone (leBytes 4 tb.length ++ leBytes 4 (crc32c tb)) ∧
      (t.board c.inst).profile = some tb) ∧
  (∀ (s : State) (rq : Rq) (c : Chunk) (tb : List Byte), s.ready rq 0x0122 → c.inst < 16 →
    judgeChunk false (s.staged 0x0122 c.inst) c = .whole tb → thresholdBad tb = none → (c.offset = 0 → s.bankInUse c.inst = false) →
    s.flag (Reg.DOSE_BAR_CTRL_AUTO_SWAP c.inst) = false →
    ∃ t, exec (.thresholdLoad rq c) s = .next t ∧
      t.answered rq 0x0122 scDone (leBytes 4 tb.length ++ leBytes 4 (crc32c tb)) ∧
      t.bar c.inst = { s.bar c.inst with pend := { (s.bar c.inst).pend with thr := some (readThreshold tb) } } ∧
      t.fld (Reg.DOSE_BAR_STATUS_THR_PEND c.inst) = 1) ∧
  (∀ (s : State) (rq : Rq) (c : Chunk) (tb : List Byte), s.ready rq 0x0124 → c.inst < 16 →
    judgeChunk false (s.staged 0x0124 c.inst) c = .whole tb → curveBad tb = none → (c.offset = 0 → s.bankInUse c.inst = false) →
    s.flag (Reg.DOSE_BAR_CTRL_AUTO_SWAP c.inst) = false →
    ∃ t, exec (.toneCurveLoad rq c) s = .next t ∧
      t.answered rq 0x0124 scDone (leBytes 4 tb.length ++ leBytes 4 (crc32c tb)) ∧
      t.bar c.inst = { s.bar c.inst with pend := { (s.bar c.inst).pend with curve := some (halves tb) } } ∧
      t.fld (Reg.DOSE_BAR_STATUS_CURVE_PEND c.inst) = 1) ∧
  (∀ (s : State) (rq : Rq) (c : Chunk) (tb : List Byte), s.ready rq 0x0125 → c.inst < 16 →
    judgeChunk false (s.staged 0x0125 c.inst) c = .whole tb → s.gainBad c.inst tb = none → s.barLoops c.inst = false →
    (c.offset = 0 → s.bankInUse c.inst = false) → s.flag (Reg.DOSE_BAR_CTRL_AUTO_SWAP c.inst) = false →
    ∃ t, exec (.gainLoad rq c) s = .next t ∧
      t.answered rq 0x0125 scDone (leBytes 4 tb.length ++ leBytes 4 (crc32c tb)) ∧
      t.bar c.inst = { s.bar c.inst with pend := { (s.bar c.inst).pend with gain := some (halves tb) } } ∧
      t.fld (Reg.DOSE_BAR_STATUS_GAIN_PEND c.inst) = 1) ∧
  (∀ (s : State) (rq : Rq) (c : Chunk) (tb : List Byte), s.ready rq 0x0125 → c.inst < 16 →
    judgeChunk false (s.staged 0x0125 c.inst) c = .whole tb → s.gainBad c.inst tb = none → s.barLoops c.inst →
    ∃ t, exec (.gainLoad rq c) s = .next t ∧
      t.answered rq 0x0125 scDone (leBytes 4 tb.length ++ leBytes 4 (crc32c tb)) ∧
      t.loopBar c.inst = { s.loopBar c.inst with gain := some (halves tb) } ∧ t.bars = s.bars) ∧
  (∀ (s : State) (rq : Rq) (c : Chunk) (tb : List Byte), s.ready rq 0x0123 → c.inst < 16 →
    judgeChunk false (s.staged 0x0123 c.inst) c = .whole tb → s.subBad c.inst tb = none → s.barLoops c.inst = false →
    (c.offset = 0 → s.bankInUse c.inst = false) → s.flag (Reg.DOSE_BAR_CTRL_AUTO_SWAP c.inst) = false →
    ∃ t, exec (.substituteSet rq c) s = .next t ∧
      t.answered rq 0x0123 scDone (leBytes 4 tb.length ++ leBytes 4 (crc32c tb)) ∧
      t.bar c.inst = { s.bar c.inst with pend := { (s.bar c.inst).pend with sub := some (readSub tb) } } ∧
      t.fld (Reg.DOSE_BAR_STATUS_SUB_PEND c.inst) = 1) ∧
  (∀ (s : State) (rq : Rq) (c : Chunk) (tb : List Byte), s.ready rq 0x0123 → c.inst < 16 →
    judgeChunk false (s.staged 0x0123 c.inst) c = .whole tb → s.subBad c.inst tb = none → s.barLoops c.inst →
    s.baseOver c.inst (readSub tb) = none →
    ∃ t, exec (.substituteSet rq c) s = .next t ∧
      t.answered rq 0x0123 scDone (leBytes 4 tb.length ++ leBytes 4 (crc32c tb)) ∧
      (t.loopBar c.inst).sub = readSub tb ∧ t.bars = s.bars) ∧
  (∀ (s : State) (v : Nat), s.inSt [stStandby, stReady, stService] → 1 ≤ v → v ≤ 100 →
    firstBroken (readsAny [Reg.NOZ_LIMIT]) [Reg.NOZ_LIMIT] (s.setFld Reg.NOZ_LIMIT_MOD_LIMIT v) = none →
    ∃ t, exec (.modLimitWrite v) s = .next t ∧ t.fld Reg.NOZ_LIMIT_MOD_LIMIT = v ∧
      ∀ a, a ≠ Reg.NOZ_LIMIT → t.reg a = s.reg a)

/-- Dose expansion (R139 to R155): DOSE_SWAP_REQUEST, DOSE_SWAP, SLICE_EXPAND, FRAME_ASSEMBLE. -/
def Obligations.DoseCommandsComplete : Prop :=
  (∀ (s : State) (b : Nat), b < 16 → (s.bar b).hasPending → s.expanding b →
    ∃ t, exec (.doseSwapRequest b) s = .next t ∧ t.fld (Reg.DOSE_BAR_STATUS_SWAP_PEND b) = 1 ∧ t.bars = s.bars ∧
      ∀ a, a ≠ Reg.DOSE_BAR_STATUS b → t.reg a = s.reg a) ∧
  (∀ (s : State) (b : Nat), b < 16 → (s.bar b).hasPending → s.expanding b = false →
    ∃ t, exec (.doseSwapRequest b) s = .next t ∧ (t.bar b).gen = (s.bar b).gen + 1 ∧ (t.bar b).pend = {} ∧
      (t.bar b).bank = (s.bar b).pend.atop (s.bar b).bank ∧ t.fld Reg.DOSE_EVENTS_SWAP = 1) ∧
  (∀ (s : State) (b : Nat), b < 16 → s.flag (Reg.DOSE_BAR_STATUS_SWAP_PEND b) → (s.bar b).slice = 0 →
    ∃ t, exec (.doseSwap b) s = .next t ∧ (t.bar b).gen = (s.bar b).gen + 1 ∧ (t.bar b).pend = {} ∧
      (t.bar b).bank = (s.bar b).pend.atop (s.bar b).bank ∧ (t.bar b).line = (s.bar b).line ∧
      (t.bar b).phaseX = s.fld (Reg.DOSE_BAR_CTRL_PHASE_X b) ∧ (t.bar b).phaseY = s.fld (Reg.DOSE_BAR_CTRL_PHASE_Y b) ∧
      t.fld (Reg.DOSE_BAR_STATUS_SWAP_PEND b) = 0 ∧ t.fld (Reg.DOSE_BAR_STATUS_GEN b) = ((s.bar b).gen + 1) % 256 ∧
      t.fld (Reg.DOSE_BAR_SWAPLINE_LINE b) = (s.bar b).line % idxMod) ∧
  (∀ (s : State) (b : Nat) (e : Entry) (p : Page) (check : CheckRun), s.barRuns b →
    s.flag (Reg.DOSE_BAR_STATUS_SWAP_PEND b) = false → s.entryOf b = some e → s.pageOf e = some p →
    (s.bar b).firstFrame (s.bar b).line < s.barFired b + s.fld (Reg.DOSE_BAR_CONC_MAX b) →
    s.slotFree b ((s.bar b).firstFrame (s.bar b).line) → 1024 * (s.bar b).slice + 1024 < (s.bar b).map.length →
    ∃ t, exec (.sliceExpand b check) s = .next t ∧ (t.bar b).slice = (s.bar b).slice + 1 ∧
      (t.bar b).line = (s.bar b).line ∧ (t.bar b).screened.length = (s.bar b).screened.length + 1024 ∧
      t.fld (Reg.DOSE_BAR_STATUS_WAIT_QUEUE b) = 0 ∧ t.fld (Reg.DOSE_BAR_STATUS_WAIT_BUF b) = 0) ∧
  (∀ (s : State) (b : Nat) (e : Entry) (p : Page) (check : CheckRun), s.barRuns b →
    s.flag (Reg.DOSE_BAR_STATUS_SWAP_PEND b) = false → s.entryOf b = some e → s.pageOf e = some p →
    (s.bar b).firstFrame (s.bar b).line < s.barFired b + s.fld (Reg.DOSE_BAR_CONC_MAX b) →
    s.slotFree b ((s.bar b).firstFrame (s.bar b).line) → (s.bar b).map.length ≤ 1024 * (s.bar b).slice + 1024 →
    ∃ t, exec (.sliceExpand b check) s = .next t ∧ (t.bar b).slice = 0 ∧ (t.bar b).line = (s.bar b).line + 1 ∧
      (t.bar b).screened = [] ∧ (t.bar b).lines.head?.map (·.line) = some (s.bar b).line) ∧
  (∀ (s : State) (b : Nat) (e : Entry) (check : CheckRun), s.barRuns b →
    s.flag (Reg.DOSE_BAR_STATUS_SWAP_PEND b) = false → s.entryOf b = some e → s.pageOf e = none →
    ∃ t, exec (.sliceExpand b check) s = .next t ∧ t.fld (Reg.DOSE_BAR_STATUS_WAIT_QUEUE b) = 1 ∧ t.bars = s.bars) ∧
  (∀ (s : State) (b : Nat) (checks : List (Nat × CheckRun)), s.barRuns b → s.frameReady b (s.bar b).frame →
    (s.bar b).frame < s.barFired b + s.fld (Reg.DOSE_BAR_CONC_MAX b) → s.slotFree b (s.bar b).frame →
    ∃ t, exec (.frameAssemble b checks) s = .next t ∧ (t.bar b).frame = (s.bar b).frame + 1 ∧
      (t.bar b).made = (s.bar b).made + 1 ∧ t.fld (Reg.DOSE_BAR_STATUS_WAIT_BUF b) = 0 ∧
      t.fld (Reg.DOSE_BAR_CONC_FILL b) = min 65535 ((s.bar b).frame + 1 - s.barFired b)) ∧
  (∀ (s : State) (b k : Nat), s.barRuns b → s.frameReady b (s.bar b).frame →
    (s.bar b).frame < s.barFired b + s.fld (Reg.DOSE_BAR_CONC_MAX b) → s.slotFree b (s.bar b).frame →
    s.barBoards b = [k] → s.mirrored = false → (s.bar b).badFor k (s.bar b).frame = none →
    ∃ t, exec (.frameAssemble b []) s = .next t ∧
      memGet t.mem (s.descAt b false k (s.bar b).frame) 16 = descriptor (s.bar b).frame
        (crc32 (s.framePayload b k (s.bar b).frame)) false ((s.bar b).genAt (s.bar b).frame))

/-- Drop-gate tests (R185 to R187): GATE_TEST, GATE_SHOT. -/
def Obligations.GateCommandsComplete : Prop :=
  (∀ (s : State) (rq : Rq) (gate k first n : Nat), s.ready rq 0x0130 → gate < 16 → k < 48 →
    first + n ≤ s.boardNozzles k → s.bst k = bsRun → s.flag Reg.GATE_STATUS_BUSY = false → s.gateTodo k first n ≠ [] →
    ∃ t, exec (.gateTest rq gate k first n) s = .next t ∧ t.unanswered rq 0x0130 ∧
      t.fire.test = some { sess := rq.sess, tag := rq.tag, gate := gate, board := k, todo := s.gateTodo k first n } ∧
      t.fld Reg.GATE_STATUS_BUSY = 1 ∧ t.fld Reg.GATE_STATUS_GATE = gate ∧ t.fld Reg.GATE_STATUS_BOARD = k ∧
      t.cmd.executing = s.cmd.executing ++ [⟨.print, rq.sess, rq.tag⟩]) ∧
  (∀ (s : State) (rq : Rq) (gate k first n : Nat), s.ready rq 0x0130 → gate < 16 → k < 48 →
    first + n ≤ s.boardNozzles k → s.bst k = bsRun → s.flag Reg.GATE_STATUS_BUSY = false → s.gateTodo k first n = [] →
    ∃ t, exec (.gateTest rq gate k first n) s = .next t ∧ t.answered rq 0x0130 scDone (List.replicate 8 0#8) ∧
      t.fire.test = none ∧ t.fld Reg.GATE_STATUS_BUSY = 0) ∧
  (∀ (s : State) (g : GateTest) (pos p2 b : Nat) (l : List Nat) (base smp : List Nat) (check : CheckRun),
    s.fire.test = some g → g.todo = pos :: p2 :: l → s.boardBar g.board = some b → g.board < 48 →
    s.fld (Reg.FIRE_B_STATUS_CREDITS g.board) ≠ 0 →
    ∃ t, exec (.gateShot g.gate base smp check) s = .next t ∧
      t.fire.test = some { g with
        todo := p2 :: l, tested := g.tested + 1,
        absent := g.absent + b2n (decide ((s.gateClass base smp).1 = 1)),
        late := g.late + b2n (decide ((s.gateClass base smp).1 = 2)),
        weak := g.weak + b2n (decide ((s.gateClass base smp).1 = 3)) } ∧
      t.fld Reg.GATE_STATUS_DONE = (g.tested + 1) % 16384) ∧
  (∀ (s : State) (g : GateTest) (pos b : Nat) (l : List Nat) (base smp : List Nat),
    s.fire.test = some g → g.todo = pos :: l → s.boardBar g.board = some b → g.board < 48 →
    s.fld (Reg.FIRE_B_STATUS_CREDITS g.board) ≠ 0 → s.lineHeld g.board = false →
    s.countsAgree (s.gateDoses g.board pos) (packDoses s.doseBits (s.gateDoses g.board pos)) →
    ∃ t, exec (.gateShot g.gate base smp .pass) s = .next t ∧
      t.fld (Reg.FIRE_B_STATUS_CREDITS g.board) = s.fld (Reg.FIRE_B_STATUS_CREDITS g.board) - 1 ∧
      (t.board g.board).high ∧ Out.fireLine g.board true ∈ t.outbox) ∧
  (∀ (s : State) (g : GateTest) (pos b : Nat) (base smp : List Nat) (check : CheckRun),
    s.fire.test = some g → g.todo = [pos] → s.boardBar g.board = some b → g.board < 48 →
    s.fld (Reg.FIRE_B_STATUS_CREDITS g.board) ≠ 0 →
    ∃ t, exec (.gateShot g.gate base smp check) s = .next t ∧ t.fire.test = none ∧ t.fld Reg.GATE_STATUS_BUSY = 0 ∧
      t.fld Reg.GATE_STATUS_DONE = (g.tested + 1) % 16384)

/-- Lines to the boards (R168 to R173, R162, R178): LINE_TRANSMIT, DECISION_POINT, FIRE_STROBE, STROBE_FALL,
STROBE_WATCHDOG. -/
def Obligations.FireLinesComplete : Prop :=
  (∀ (s r : State) (k b : Nat) (fr : BoardFrame) (p pkt : List Byte), k < 48 → s.boardBar k = some b → s.boardUsed k →
    s.st = stPrinting → s.jobBar b → [bsRun, bsHot, bsLatch].contains (s.bst k) → s.hasFrame b (s.board k).tx →
    s.reached b k (s.board k).tx (16 * s.fld Reg.FIRE_CTRL_LEAD) → 0 < s.fld (Reg.FIRE_B_STATUS_CREDITS k) →
    r = s.readCopy b (s.servingCopy b) k (s.board k).tx → r.validFrame b k (s.board k).tx = some fr →
    r.sentCopy b k (s.board k).tx fr = some p → s.prof k 2 1 ≠ 2 → pkt = herufH 0x01 0 (s.board k).tx fr.crc p →
    ∃ t, exec (.lineTransmit k) s = .next t ∧ t.board k = { s.board k with tx := (s.board k).tx + 1 } ∧
      t.fld (Reg.FIRE_B_STATUS_CREDITS k) = s.fld (Reg.FIRE_B_STATUS_CREDITS k) - 1 ∧
      t.outbox = r.outbox ++
        [.headPacket k (s.prof k 4 1) pkt (s.laneWords (s.prof k 4 1) (packetBlocks 1 pkt))]) ∧
  (∀ (s r : State) (k b n : Nat) (fr : BoardFrame) (p x y : List Byte), k < 48 → s.boardBar k = some b → s.boardUsed k →
    s.st = stPrinting → s.jobBar b → [bsRun, bsHot, bsLatch].contains (s.bst k) → s.hasFrame b (s.board k).tx →
    s.reached b k (s.board k).tx (16 * s.fld Reg.FIRE_CTRL_LEAD) → 0 < s.fld (Reg.FIRE_B_STATUS_CREDITS k) →
    r = s.readCopy b (s.servingCopy b) k (s.board k).tx → r.validFrame b k (s.board k).tx = some fr →
    r.sentCopy b k (s.board k).tx fr = some p → s.prof k 2 1 = 2 → s.prof k 4 1 ≠ s.prof k 5 1 →
    n = 8 * ceilDiv p.length 16 → x = herufH 0x01 4 (s.board k).tx fr.crc (p.take n) →
    y = herufH 0x01 6 (s.board k).tx fr.crc (p.drop n) →
    ∃ t, exec (.lineTransmit k) s = .next t ∧ t.board k = { s.board k with tx := (s.board k).tx + 1 } ∧
      t.fld (Reg.FIRE_B_STATUS_CREDITS k) = s.fld (Reg.FIRE_B_STATUS_CREDITS k) - 1 ∧
      t.outbox = r.outbox ++
        [.headPacket k (s.prof k 4 1) x (s.laneWords (s.prof k 4 1) (packetBlocks 1 x)),
         .headPacket k (s.prof k 5 1) y (s.laneWords (s.prof k 5 1) (packetBlocks 1 y))]) ∧
  (∀ (s r : State) (k b : Nat) (fr : BoardFrame), k < 48 → s.boardBar k = some b → s.boardUsed k →
    s.st = stPrinting → s.jobBar b → [bsRun, bsHot, bsLatch].contains (s.bst k) → s.hasFrame b (s.board k).tx →
    s.reached b k (s.board k).tx (16 * s.fld Reg.FIRE_CTRL_LEAD) → 0 < s.fld (Reg.FIRE_B_STATUS_CREDITS k) →
    r = s.readCopy b (s.servingCopy b) k (s.board k).tx → r.validFrame b k (s.board k).tx = some fr →
    r.sentCopy b k (s.board k).tx fr = none →
    ∃ t, exec (.lineTransmit k) s = .next t ∧
      t.board k = { s.board k with tx := (s.board k).tx + 1, badCrc := (s.board k).badCrc ++ [(s.board k).tx] } ∧
      t.fld (Reg.FIRE_B_STATUS_CREDITS k) = s.fld (Reg.FIRE_B_STATUS_CREDITS k) ∧ t.outbox = r.outbox) ∧
  (∀ (s : State) (k b g : Nat) (due : Int) (body : List Byte), k < 48 → s.boardBar k = some b → s.boardUsed k → s.st = stPrinting →
    s.jobBar b → s.hasFrame b (s.board k).dec → s.reached b k (s.board k).dec 16 →
    s.dueAt b k (s.board k).dec = some due → s.judgeLine b k (s.board k).dec = .inr g →
    body = bytesOf [g, 0] ++ leBytes 2 (s.prof k 12 2) ++ leBytes 4 (s.frameGen b k (s.board k).dec) ++
      leBytes 8 (unsignedOf 64 due) →
    ∃ t, exec (.decisionPoint k) s = .next t ∧ (t.board k).dec = (s.board k).dec + 1 ∧
      (t.board k).decided.getLast?.map (fun d => (d.frame, d.cause, d.due)) = some ((s.board k).dec, 0, due) ∧
      t.fld (Reg.FIRE_B_STATUS_G k) = g % 16 ∧ t.ppos.anyFired ∧
      t.ppos.fired = (if s.ppos.anyFired then max s.ppos.fired due else due) ∧
      t.fld Reg.FIRE_CNT_SAFE_COUNT = s.fld Reg.FIRE_CNT_SAFE_COUNT ∧ ∃ l w, t.outbox = l ++
        [.headPacket k (s.prof k 4 1) (herufH 0x02 0 (s.board k).dec (crc32 body) body) w]) ∧
  (∀ (s : State) (k b c : Nat) (due : Int), k < 48 → s.boardBar k = some b → s.boardUsed k → s.st = stPrinting →
    s.jobBar b → s.hasFrame b (s.board k).dec → s.reached b k (s.board k).dec 16 →
    s.dueAt b k (s.board k).dec = some due → s.judgeLine b k (s.board k).dec = .inl c →
    ∃ t, exec (.decisionPoint k) s = .next t ∧ (t.board k).dec = (s.board k).dec + 1 ∧
      (t.board k).decided.getLast?.map (fun d => (d.frame, d.cause, d.due)) = some ((s.board k).dec, c, due) ∧
      t.fld (Reg.FIRE_B_STATUS_LAST_CAUSE k) = c % 16 ∧ t.fld Reg.FIRE_EVENTS_SAFE = 1 ∧
      t.fld Reg.FIRE_CNT_SAFE_COUNT = min (s.fld Reg.FIRE_CNT_SAFE_COUNT + 1) (idxMod - 1)) ∧
  (∀ (s : State) (k : Nat) (d : Decided), k < 48 → s.job.closed = false → s.lineHeld k = false →
    (s.board k).decided.find? (fun d => !d.strobed && decide (d.due ≤ s.ppos.high)) = some d →
    ∃ t, exec (.fireStrobe k) s = .next t ∧ t.outbox = s.outbox ++ [.fireLine k true] ∧ (t.board k).high ∧
      (t.board k).decided.any (fun e => e.frame == d.frame && e.strobed)) ∧
  (∀ (s : State) (k : Nat) (d : Decided), k < 48 → s.job.closed = false → s.lineHeld k →
    (s.board k).decided.find? (fun d => !d.strobed && decide (d.due ≤ s.ppos.high)) = some d → d.cause = 0 →
    ∃ t, exec (.fireStrobe k) s = .next t ∧ (t.board k).high = (s.board k).high ∧
      t.fld (Reg.FIRE_B_STATUS_LAST_CAUSE k) = 2 ∧ t.fld Reg.FIRE_EVENTS_SAFE = 1 ∧
      t.fld Reg.FIRE_CNT_SAFE_COUNT = min (s.fld Reg.FIRE_CNT_SAFE_COUNT + 1) (idxMod - 1)) ∧
  (∀ (s : State) (k : Nat), (s.board k).high →
    ∃ t, exec (.strobeFall k) s = .next t ∧ t.outbox = s.outbox ++ [.fireLine k false] ∧
      t.board k = { s.board k with high := false } ∧ t.regs = s.regs) ∧
  (∀ (s : State) (k : Nat), k < 48 → (s.board k).high →
    ∃ t, exec (.strobeWatchdog k) s = .next t ∧ t.outbox = s.outbox ++ [.fireLine k false] ∧ (t.board k).high = false ∧
      t.fld Reg.FIRE_EVENTS_STROBE = 1 ∧ t.fld (Reg.FIRE_B_STATUS_STROBE_FAULT k) = 1 ∧
      (s.bst k = bsRun ∨ s.bst k = bsHot → t.bst k = bsLatch))

/-- What comes from the boards, and their link states (R169, R175, R176, Table 07-5): ECHO, ECHO_TIMEOUT, CREDIT,
HELLO_REPLY, HELLO_REPEAT, BOARD_ENABLE_WRITE, FIRE_CLEAR. -/
def Obligations.FireLinksComplete : Prop :=
  (∀ (s : State) (k f : Nat) (bytes b : List Byte) (d : Decided), k < 48 → s.boardUsed k →
    herufIn 0x81 bytes = some (f, b) →
    (s.board k).decided.find? (fun d => d.strobed && !d.echo && d.frame % idxMod == f) = some d →
    ∃ t, exec (.echo k bytes) s = .next t ∧ t.fld (Reg.FIRE_B_STATUS_CREDITS k) = leAt b 6 1 ∧
      t.fld (Reg.FIRE_B_ECHO_TEMP k) = leAt b 8 2 ∧ t.fld (Reg.FIRE_B_ECHO_FRAME k) = d.frame % 256 ∧
      t.fld (Reg.FIRE_B_ECHO_RAIL k) = leAt b 5 1 ∧ (t.board k).echoed ∧ (t.board k).misses = 0) ∧
  (∀ (s : State) (k f : Nat) (bytes b : List Byte), k < 48 → s.boardUsed k → herufIn 0x81 bytes = some (f, b) →
    (s.board k).decided.find? (fun d => d.strobed && !d.echo && d.frame % idxMod == f) = none →
    ∃ t, exec (.echo k bytes) s = .next t ∧ t.fld (Reg.FIRE_B_STATUS_CREDITS k) = leAt b 6 1 ∧
      t.fld (Reg.FIRE_B_ECHO_TEMP k) = leAt b 8 2 ∧ (t.board k).decided = (s.board k).decided) ∧
  (∀ (s : State) (k : Nat) (d : Decided), k < 48 →
    (s.board k).decided.find? (fun d => d.strobed && !d.echo) = some d →
    ∃ t, exec (.echoTimeout k) s = .next t ∧ (t.board k).misses = (s.board k).misses + 1 ∧
      t.fld (Reg.FIRE_B_COUNT_ECHO_MISS k) = min (s.fld (Reg.FIRE_B_COUNT_ECHO_MISS k) + 1) 65535 ∧
      t.fld (Reg.FIRE_B_STATUS_LAST_CAUSE k) = 11 ∧ t.fld Reg.FIRE_EVENTS_ECHO = 1 ∧
      (s.fld Reg.FIRE_CTRL_MISS_LIMIT ≤ (s.board k).misses + 1 → t.fld (Reg.FIRE_B_STATUS_ECHO_FAULT k) = 1)) ∧
  (∀ (s : State) (k f : Nat) (bytes b : List Byte), k < 48 → s.boardUsed k → herufIn 0x82 bytes = some (f, b) →
    ∃ t, exec (.credit k bytes) s = .next t ∧ t.fld (Reg.FIRE_B_STATUS_CREDITS k) = leAt b 0 1 ∧ t.fire = s.fire ∧
      ∀ a, a ≠ Reg.FIRE_B_STATUS k → t.reg a = s.reg a) ∧
  (∀ (s : State) (k f : Nat) (bytes b : List Byte), k < 48 → s.boardUsed k → (s.board k).hello → s.bst k = bsSync →
    herufIn 0x83 bytes = some (f, b) → leAt b 0 2 = s.prof k 0 2 → leAt b 3 1 = s.prof k 2 1 →
    s.prof k 3 1 ≤ leAt b 2 1 →
    ∃ t, exec (.helloReply k bytes) s = .next t ∧ t.bst k = bsRun ∧ (t.board k).hello = false ∧
      t.fld (Reg.FIRE_B_STATUS_CREDITS k) = s.prof k 3 1 ∧ t.fld (Reg.FIRE_B_STATUS_PROFILE_MISMATCH k) = 0) ∧
  (∀ (s : State) (k f : Nat) (bytes b : List Byte), k < 48 → s.boardUsed k → (s.board k).hello → s.bst k = bsSync →
    herufIn 0x83 bytes = some (f, b) → leAt b 0 2 ≠ s.prof k 0 2 →
    ∃ t, exec (.helloReply k bytes) s = .next t ∧ t.bst k = bsSync ∧ (t.board k).hello = false ∧
      t.fld (Reg.FIRE_B_STATUS_PROFILE_MISMATCH k) = 1) ∧
  (∀ (s : State) (k : Nat), k < 48 → s.boardUsed k → s.bst k = bsSync →
    ∃ t, exec (.helloRepeat k) s = .next t ∧ t.fld (Reg.FIRE_B_STATUS_PROFILE_MISMATCH k) = 1 ∧ (t.board k).hello ∧
      ∃ b w, t.outbox = s.outbox ++ [.headPacket k (s.prof k 4 1) b w]) ∧
  (∀ (s : State) (k : Nat), k < 48 → s.writable → s.awake → s.boardUsed k → s.bst k = bsOff → s.lanesUp k = false →
    ∃ t, exec (.boardEnableWrite k true) s = .next t ∧ t.fld (Reg.FIRE_B_CTRL_ENABLE k) = 1 ∧ t.bst k = bsTraining) ∧
  (∀ (s : State) (k : Nat), k < 48 → s.writable → s.awake → s.boardUsed k → s.bst k = bsOff → s.lanesUp k →
    ∃ t, exec (.boardEnableWrite k true) s = .next t ∧ t.bst k = bsSync ∧ (t.board k).hello ∧
      ∃ b w, t.outbox = s.outbox ++ [.headPacket k (s.prof k 4 1) b w]) ∧
  (∀ (s : State) (k : Nat), k < 48 → s.writable → s.awake → s.bst k ≠ bsOff →
    ∃ t, exec (.boardEnableWrite k false) s = .next t ∧ t.fld (Reg.FIRE_B_CTRL_ENABLE k) = 0 ∧ t.bst k = bsOff ∧
      t.fld (Reg.FIRE_B_STATUS_CREDITS k) = 0) ∧
  (∀ (s : State) (k : Nat), k < 48 → s.writable → s.awake →
    ∃ t, exec (.fireClear k) s = .next t ∧ t.fld (Reg.FIRE_B_STATUS_STROBE_FAULT k) = 0 ∧
      t.fld (Reg.FIRE_B_STATUS_ECHO_FAULT k) = 0 ∧ t.fld (Reg.FIRE_B_STATUS_RAIL_FAULT k) = 0 ∧
      (t.board k).misses = 0 ∧ (s.bst k = bsLatch → s.echoFit k → (t.board k).clearing ∧ (t.board k).hello))

/-- The Yo-yo and sheets (R164, R179, R180): YOYO_INTERVAL, ENERGY_CAP_EXPIRY, SPDRQ_WORD, FIRE_TOS. -/
def Obligations.YoyoCommandsComplete : Prop :=
  (∀ (s : State), s.inSt [stArmed, stPrinting, stPaused] → s.flag Reg.YOYO_CTRL_ENABLE = false →
    ∃ t, exec .yoyoInterval s = .next t ∧ t.fld Reg.YOYO_REQ_REQ = 0xFFFF ∧ ∀ b, b < 16 → (t.bar b).made = 0) ∧
  (∀ (s : State), s.inSt [stArmed, stPrinting, stPaused] → s.flag Reg.YOYO_CTRL_ENABLE → s.yoyoLow.1 < 0xFFFF →
    ∃ t, exec .yoyoInterval s = .next t ∧
      t.fld Reg.YOYO_REQ_REQ = max (s.fld Reg.YOYO_REQ_REQ_MIN) (min (s.fld Reg.YOYO_REQ_REQ) s.yoyoLow.1) ∧
      t.fire.calm = s.now ∧ ∀ b, b < 16 → (t.bar b).made = 0) ∧
  (∀ (s : State), exec .energyCapExpiry s = .next { s with fire := { s.fire with caps := [] } }) ∧
  (∀ (s : State), s.st ≠ stAsleep → s.flag Reg.SPDRQ_CFG_ENABLE → s.flag Reg.SPDRQ_CFG_TEST = false →
    ∃ t, exec .spdrqWord s = .next t ∧ t.fire.seq = (s.fire.seq + 1) % 256 ∧
      t.outbox = s.outbox ++ [.speedWord (speedLine (leBytes 2 (s.fld Reg.YOYO_REQ_REQ) ++ leBytes 1 s.fire.seq ++
        leBytes 1 (crc8 (leBytes 2 (s.fld Reg.YOYO_REQ_REQ) ++ leBytes 1 s.fire.seq))))] ∧ t.regs = s.regs) ∧
  (∀ (s : State) (b : Nat), b < 16 → s.sheetMode b → s.inSt [stPrinting, stPaused] → s.jobBar b → s.sheetBusy b = false →
    ∃ t, exec (.fireTos b) s = .next t ∧ (t.bar b).sheets = (s.bar b).sheets ++ [s.webPos] ∧
      (t.cons (32 + b)).busy = false ∧ t.regs = s.regs)

/-- The nozzle health loop (R240 to R254): NOZZLE_STATE_SET, NOZZLE_STATE_READ, FINDING_APPLY, LOOP_SWAP_STAGE,
LOOP_LATE, LOOP_EN_WRITE. -/
def Obligations.NozzleCommandsComplete : Prop :=
  (∀ (s : State) (rq : Rq) (i b x st hold : Nat), s.ready rq 0x0208 → s.nozzleAt i = some (b, x) → s.nozLive b x →
    st < 4 → hold < 2 →
    ∃ t, exec (.nozzleStateSet rq i st hold) s = .next t ∧ t.unanswered rq 0x0208 ∧
      t.noz.queue = s.noz.queue ++
        [{ source := 2, bar := b, at_ := (x : Int), cls := st, hold := hold == 1, sess := rq.sess, tag := rq.tag }] ∧
      t.fld Reg.NOZ_STATUS_BUSY = 1) ∧
  (∀ (s : State) (rq : Rq) (first n : Nat), s.ready rq 0x0209 → 1 ≤ n → n ≤ 16320 → first + n ≤ s.nozzles →
    (∀ i, i < n → s.nozzleState (first + i) < 4) →
    ∃ t p, exec (.nozzleStateRead rq first n) s = .next t ∧ t.answered rq 0x0209 scDone p ∧ p.length = ceilDiv n 4 ∧
      ∀ i, i < n → leAt p (i / 4) 1 / 4 ^ (i % 4) % 4 = s.nozzleState (first + i)) ∧
  (∀ (s : State) (f : Finding) (l : List Finding), s.noz.queue = f :: l →
    ∃ t, exec .findingApply s = .next t ∧ t.noz.queue = l ∧ t.fld Reg.NOZ_STATUS_BUSY = if l = [] then 0 else 1) ∧
  (∀ (s : State) (f : Finding) (l : List Finding), s.noz.queue = f :: l → f.source = 1 → s.nozLive f.bar f.at_.toNat →
    (s.noz1 f.bar f.at_.toNat).hold = false → (s.noz1 f.bar f.at_.toNat).state = 2 → f.cls = 0 →
    ∃ t, exec .findingApply s = .next t ∧ (t.noz1 f.bar f.at_.toNat).state = 3 ∧
      t.fld Reg.NOZ_CNT_FIND_GATE = min (s.fld Reg.NOZ_CNT_FIND_GATE + 1) 65535) ∧
  (∀ (s : State) (b : Nat), b < 16 → s.barLoops b → (s.loopBar b).changed ≠ [] → (s.loopBar b).staged = [] →
    64 ≤ (s.loopBar b).changed.length ∨ s.noz.queue.any (fun f => f.bar == b) = false → s.expanding b →
    ∃ t, exec (.loopSwapStage b) s = .next t ∧ (t.loopBar b).changed = [] ∧
      (t.loopBar b).staged = (s.loopBar b).changed ∧ bitAt (t.fld Reg.NOZ_STATUS_SWAP_WAIT) b ∧
      t.fld (Reg.DOSE_BAR_STATUS_SWAP_PEND b) = 1 ∧ (t.bar b).pend.sub = some (s.builtSub b) ∧
      (t.bar b).pend.gain = some (s.builtGain b)) ∧
  (∀ (s : State) (b : Nat), b < 16 → s.barLoops b → (s.loopBar b).changed ≠ [] → (s.loopBar b).staged = [] →
    64 ≤ (s.loopBar b).changed.length ∨ s.noz.queue.any (fun f => f.bar == b) = false → s.expanding b = false →
    ∃ t, exec (.loopSwapStage b) s = .next t ∧ (t.loopBar b).changed = [] ∧ (t.loopBar b).staged = [] ∧
      (t.bar b).gen = (s.bar b).gen + 1 ∧ (t.bar b).bank.sub = some (s.builtSub b) ∧
      (t.bar b).bank.gain = some (s.builtGain b)) ∧
  (∀ (s : State) (b n : Nat), b < 16 → (s.loopBar b).since = some n → (s.loopBar b).changed ≠ [] →
    (s.loopBar b).late = false → n + 1024 < tabGet 0 s.fire.events b →
    ∃ t, exec (.loopLate b) s = .next t ∧ (t.loopBar b).late ∧ t.fld Reg.NOZ_EVENTS_LATE = 1) ∧
  (∀ (s : State) (m : Nat), s.inSt [stStandby, stReady, stService] → m < 65536 →
    s.loopsOk (s.fld Reg.NOZ_CTRL_LOOP_EN) m (s.fld Reg.NOZ_CTRL_PAT) →
    ∃ t, exec (.loopEnWrite m) s = .next t ∧ t.fld Reg.NOZ_CTRL_LOOP_EN = m)

/-- DMA channels (R109 to R117): DMA_RUN, DMA_ABORT, DMA_DESCRIPTOR_FETCH, DMA_DESCRIPTOR_COMPLETE,
PCIE_COMPLETION_ERROR, PCIE_COMPLETION_TIMEOUT, DMA_BUS_HALT_CLEAR. -/
def Obligations.DmaCommandsComplete : Prop :=
  (∀ (s : State) (ch : Nat), ch < 64 → s.awake → s.chActive ch = false → s.flag (Reg.DMA_CTRL_OWNER ch) = false →
    s.busStopped = false →
    ∃ t, exec (.dmaRun ch) s = .next t ∧ t.fld (Reg.DMA_STATUS_ACTIVE ch) = 1 ∧ t.fld (Reg.DMA_CTRL_RUN ch) = 1 ∧
      t.fld (Reg.DMA_STATUS_HOPS ch) = 0 ∧ (t.dmaCh ch).cur = s.dmaHead ch ∧ (t.dmaCh ch).desc = none ∧
      t.mem = s.mem) ∧
  (∀ (s : State) (ch : Nat), ch < 64 → s.chActive ch → (s.page ch).active = false → (s.dmaCh ch).stop = none →
    (s.dmaCh ch).outstanding = false →
    ∃ t, exec (.dmaAbort ch) s = .next t ∧ t.fld (Reg.DMA_STATUS_ACTIVE ch) = 0 ∧ t.fld (Reg.DMA_CTRL_RUN ch) = 0 ∧
      t.fld (Reg.DMA_STATUS_END ch) = 1 ∧ t.fld (Reg.DMA_STATUS_FAULT_OWN ch) = 0 ∧
      (t.dmaCh ch).chains = ((s.dmaCh ch).chains + 1) % idxMod ∧
      bitAt (t.fld (if ch < 32 then Reg.DMA_DONE_LO_DONE else Reg.DMA_DONE_HI_DONE)) (ch % 32) = true) ∧
  (∀ (s : State) (ch : Nat), ch < 64 → s.chActive ch → (s.dmaCh ch).stop = none → (s.dmaCh ch).outstanding →
    ∃ t, exec (.dmaAbort ch) s = .next t ∧ t.dmaCh ch = { s.dmaCh ch with stop := some (1, false, false) } ∧
      t.regs = s.regs ∧ t.mem = s.mem) ∧
  (∀ (s : State) (ch n : Nat) (d : List Byte), s.chActive ch → (s.dmaCh ch).desc = none → d.length = 32 →
    s.ingest.halting = none → (s.dmaCh ch).stop = none → s.descBad (s.flag (Reg.DMA_CTRL_OWNER ch)) d = false →
    dEnd d ∨ Machine.dNext d ≠ (s.dmaCh ch).cur →
    n = (if dKind d = 2 then 0 else min (dLen d) (512 * (dHost d / 512 + 16) - dHost d)) →
    ∃ t, exec (.dmaDescriptorFetch ch d) s = .next t ∧
      t.dmaCh ch = { s.dmaCh ch with desc := some d, moved := 0, issued := n } ∧ t.regs = s.regs ∧ t.mem = s.mem ∧
      t.outbox = s.outbox ++ (readRequests n (dHost d) (dHost d + n)).map
        fun r => .hostRead (ch % 4) (s.chInput ch) r.1 r.2) ∧
  (∀ (s : State) (ch : Nat) (d : List Byte), ch < 64 → s.chActive ch → (s.dmaCh ch).desc = none → d.length = 32 →
    s.ingest.halting = none → s.descBad (s.flag (Reg.DMA_CTRL_OWNER ch)) d → (s.page ch).active = false →
    ∃ t, exec (.dmaDescriptorFetch ch d) s = .next t ∧ t.fld (Reg.DMA_STATUS_ACTIVE ch) = 0 ∧
      t.fld (Reg.DMA_STATUS_END ch) = 6 ∧ t.mem = s.mem) ∧
  (∀ (s : State) (ch : Nat) (d data : List Byte), ch < 64 → (s.dmaCh ch).desc = some d → (s.dmaCh ch).stop = none →
    (s.dmaCh ch).moved = 0 → dKind d = 1 → dEnd d → data.length = dLen d → (s.page ch).active = false →
    s.fld (Reg.DMA_STATUS_HOPS ch) + 1 < 2097152 →
    ∃ t, exec (.dmaDescriptorComplete ch data) s = .next t ∧ memGet t.mem (dDev d) (dLen d) = data ∧
      (∀ a, a < dDev d ∨ dDev d + dLen d ≤ a → memByte t.mem a = memByte s.mem a) ∧
      t.fld (Reg.DMA_STATUS_END ch) = 0 ∧ t.fld (Reg.DMA_STATUS_ACTIVE ch) = 0 ∧
      t.fld (Reg.DMA_STATUS_HOPS ch) = s.fld (Reg.DMA_STATUS_HOPS ch) + 1) ∧
  (∀ (s : State) (ch : Nat) (d data : List Byte), ch < 64 → (s.dmaCh ch).desc = some d → (s.dmaCh ch).stop = none →
    dKind d = 1 → (s.dmaCh ch).moved + data.length < dLen d →
    ∃ t, exec (.dmaDescriptorComplete ch data) s = .next t ∧ (t.dmaCh ch).desc = some d ∧
      (t.dmaCh ch).moved = (s.dmaCh ch).moved + data.length ∧
      memGet t.mem (dDev d + (s.dmaCh ch).moved) data.length = data) ∧
  (∀ (s : State) (ch i : Nat) (d : List Byte), ch < 64 → (s.dmaCh ch).desc = some d → (s.dmaCh ch).stop = none →
    (s.dmaCh ch).moved = 0 → dKind d = 2 → (s.page ch).active = false → 512 * i < dLen d →
    ∃ t bad, exec (.dmaDescriptorComplete ch []) s = .next t ∧ t.mem = s.mem ∧
      Out.dmaWrite (dHost d + 512 * i) (memGet s.mem (dDev d + 512 * i) (min 512 (dLen d - 512 * i))) s.relaxed bad
        ∈ t.outbox) ∧
  (∀ (s : State) (ch : Nat) (d data : List Byte), ch < 64 → (s.dmaCh ch).desc = some d → (s.dmaCh ch).stop = none →
    (s.dmaCh ch).moved = 0 → dKind d = 0 → dEnd d = false → bitAt (dFlags d) 0 = false → data.length = dLen d →
    (s.page ch).active → s.fld (Reg.DMA_STATUS_HOPS ch) + 1 < 2097152 →
    s.fld (Reg.DMA_STATUS_HOPS ch) + 1 < 2 ^ s.fld (Reg.DMA_CTRL_HOP_EXP ch) →
    ∃ t, exec (.dmaDescriptorComplete ch data) s = .next t ∧
      t.page ch = { s.page ch with got := (s.page ch).got + dLen d, buf := (s.page ch).buf ++ data } ∧
      (t.dmaCh ch).cur = Machine.dNext d ∧ (t.dmaCh ch).desc = none ∧
      t.fld (Reg.DMA_STATUS_HOPS ch) = s.fld (Reg.DMA_STATUS_HOPS ch) + 1 ∧ t.mem = s.mem) ∧
  (∀ (s : State) (kind addr : Nat) (batch : List Nat), 2 ≤ kind → kind ≤ 4 → addr < 2 ^ 64 → s.busStopped = false →
    (∀ c, c < 64 → s.chActive c → c ∈ batch ∨ (s.dmaCh c).outstanding = false ∧ (s.dmaCh c).stop = none) →
    ∃ t, exec (.pcieCompletionError kind addr batch) s = .next t ∧ t.fld Reg.DMA_GSTATUS_BUS_HALT = 1 ∧
      t.fld Reg.DMA_GSTATUS_FAULT_KIND = kind ∧
      t.fld Reg.DMA_FAULT_LO_ADDR_LO + 2 ^ 32 * t.fld Reg.DMA_FAULT_HI_ADDR_HI = addr) ∧
  (∀ (s : State) (kind addr c : Nat) (batch : List Nat), 2 ≤ kind → kind ≤ 4 → addr < 2 ^ 64 → s.busStopped = false →
    c < 64 → s.chActive c → c ∉ batch → (s.dmaCh c).outstanding → (s.dmaCh c).stop = none →
    ∃ t, exec (.pcieCompletionError kind addr batch) s = .next t ∧ t.fld Reg.DMA_GSTATUS_BUS_HALT = 0 ∧
      t.ingest.halting = some (kind, addr) ∧ t.chActive c ∧ (t.dmaCh c).stop = some (3, false, true)) ∧
  (∀ (s : State) (addr : Nat) (batch : List Nat), addr < 2 ^ 64 → s.busStopped = false →
    (∀ c, c < 64 → s.chActive c → c ∈ batch ∨ (s.dmaCh c).outstanding = false ∧ (s.dmaCh c).stop = none) →
    ∃ t, exec (.pcieCompletionTimeout addr batch) s = .next t ∧ t.fld Reg.DMA_GSTATUS_BUS_HALT = 1 ∧
      t.fld Reg.DMA_GSTATUS_FAULT_KIND = 1 ∧
      t.fld Reg.DMA_FAULT_LO_ADDR_LO + 2 ^ 32 * t.fld Reg.DMA_FAULT_HI_ADDR_HI = addr) ∧
  (∀ (s : State), ∃ t, exec .dmaBusHaltClear s = .next t ∧ t.fld Reg.DMA_GSTATUS_BUS_HALT = 0 ∧ t.ingest = s.ingest ∧
    ∀ a, a ≠ Reg.DMA_GSTATUS → t.reg a = s.reg a)

/-- The KPS parser and the decompressors (R118 to R127): KPS_JOB_HEADER, KPS_PAGE_HEADER, KPS_BLOCK, KPS_TRAILER,
SEGMENT_ASSIGN, SEGMENT_SWITCH, SEGMENT_COMPLETE. -/
def Obligations.KpsCommandsComplete : Prop :=
  (∀ (s : State) (ch : Nat) (b : List Byte), (s.page ch).reads b → (s.page ch).stage = 0 → (s.page ch).pos = 0 →
    b.length = 64 → s.jobHeaderBad b = none → (s.page ch).passes 64 = false →
    (s.page ch).ended = false ∨ (s.page ch).len ≤ (s.page ch).got →
    ∃ t, exec (.kpsJobHeader ch b) s = .next t ∧
      t.page ch = { s.page ch with stage := 1, pos := 64, buf := (s.page ch).buf.drop 64 } ∧
      t.regs = s.regs ∧ t.job = s.job) ∧
  (∀ (s : State) (ch : Nat) (b : List Byte) (planes : List PlaneIn), (s.page ch).reads b → (s.page ch).stage = 1 →
    s.pageHeaderBad (s.page ch).page b = none → b.length = 64 + 32 * leAt b 6 1 →
    s.readPlanes (leAt b 12 4) (leAt b 16 4) (leAt b 6 1) 0 [] (b.drop 64) = .ok planes →
    (s.page ch).passes b.length = false → s.usedUnits + unitsFor (planes.map PlaneIn.size) ≤ s.storeUnits →
    (s.page ch).ended = false ∨ (s.page ch).len ≤ (s.page ch).got →
    ∃ t, exec (.kpsPageHeader ch b) s = .next t ∧
      t.page ch = { s.page ch with
        stage := 2, pos := (s.page ch).pos + b.length, buf := (s.page ch).buf.drop b.length,
        keep := bitAt (leAt b 7 1) 0, width := leAt b 12 4, lines := leAt b 16 4, xoff := leAt b 24 4,
        planes := placePlanes s.storeUnits s.planeUnits planes } ∧
      (∀ e ∈ t.job.entries, e.id = (s.page ch).entry → e.count = leAt b 20 4) ∧ t.regs = s.regs) ∧
  (∀ (s : State) (ch : Nat) (b : List Byte) (planes : List PlaneIn), (s.page ch).reads b → (s.page ch).stage = 1 →
    s.pageHeaderBad (s.page ch).page b = none → b.length = 64 + 32 * leAt b 6 1 →
    s.readPlanes (leAt b 12 4) (leAt b 16 4) (leAt b 6 1) 0 [] (b.drop 64) = .ok planes →
    (s.page ch).passes b.length = false → s.storeUnits < s.usedUnits + unitsFor (planes.map PlaneIn.size) →
    ∃ t, exec (.kpsPageHeader ch b) s = .next t ∧ (t.page ch).active = false) ∧
  (∀ (s : State) (ch c : Nat) (b : List Byte) (cur : Option Nat), (s.page ch).reads b → (s.page ch).stage = 2 →
    16 ≤ b.length → (s.page ch).planes.all PlaneIn.ended = false →
    cur = (s.page ch).segs.findIdx? (fun g => g.plane == leAt b 0 1 && !g.closed) →
    (s.page ch).blockBad b (cur.bind fun i => ((s.page ch).segs[i]?).map Segment.type) = none →
    (cur.bind fun i => ((s.page ch).segs[i]?).bind Segment.unit) = none → b.length = 16 + 4 * ceilDiv (leAt b 4 4) 4 →
    (s.page ch).passes b.length = false → bitAt (leAt b 2 1) 0 → (s.page ch).freeCtx = some c →
    (s.page ch).ended = false ∨ (s.page ch).len ≤ (s.page ch).got →
    ∃ t g, exec (.kpsBlock ch b) s = .next t ∧ (t.page ch).segs = closeSeg (leAt b 0 1) (s.page ch).segs ++ [g] ∧
      g.plane = leAt b 0 1 ∧ g.ctx = c ∧ g.type = leAt b 1 1 ∧ g.made = 0 ∧
      g.staged.map StagedBlock.data = [slice b 16 (leAt b 4 4)] ∧ (t.page ch).pos = (s.page ch).pos + b.length ∧
      (t.page ch).buf = (s.page ch).buf.drop b.length ∧ t.regs = s.regs) ∧
  (∀ (s : State) (ch i : Nat) (b : List Byte) (g : Segment), (s.page ch).reads b → (s.page ch).stage = 2 →
    16 ≤ b.length → (s.page ch).planes.all PlaneIn.ended = false →
    (s.page ch).segs.findIdx? (fun g => g.plane == leAt b 0 1 && !g.closed) = some i →
    (s.page ch).segs[i]? = some g → g.unit = none →
    (s.page ch).blockBad b (some g.type) = none → b.length = 16 + 4 * ceilDiv (leAt b 4 4) 4 →
    (s.page ch).passes b.length = false → bitAt (leAt b 2 1) 0 = false →
    (s.page ch).ended = false ∨ (s.page ch).len ≤ (s.page ch).got →
    ∃ t g', exec (.kpsBlock ch b) s = .next t ∧ (t.page ch).segs = (s.page ch).segs.set i g' ∧
      g'.plane = g.plane ∧ g'.ctx = g.ctx ∧ g'.made = g.made ∧
      g'.staged.map StagedBlock.data = g.staged.map StagedBlock.data ++ [slice b 16 (leAt b 4 4)] ∧
      (t.page ch).pos = (s.page ch).pos + b.length ∧ (t.page ch).buf = (s.page ch).buf.drop b.length ∧
      t.regs = s.regs) ∧
  (∀ (s : State) (ch : Nat) (b : List Byte), (s.page ch).reads b → (s.page ch).stage = 2 → b.length = 4 →
    (s.page ch).planes.all PlaneIn.ended → (s.page ch).passes 4 = false →
    (s.page ch).segs.all Segment.done = false →
    ∃ t, exec (.kpsTrailer ch b) s = .next t ∧
      t.page ch = { s.page ch with
        stage := 3, pos := (s.page ch).pos + 4, buf := (s.page ch).buf.drop 4, trailer := leNat b } ∧
      t.regs = s.regs) ∧
  (∀ (s : State) (ch : Nat) (b : List Byte), (s.page ch).reads b → (s.page ch).stage = 2 → b.length = 4 →
    (s.page ch).planes.all PlaneIn.ended → (s.page ch).pos + 4 = (s.page ch).len →
    (s.page ch).got = (s.page ch).len → (s.page ch).ended → (s.page ch).segs.all Segment.done →
    crc32c ((s.page ch).planes.flatMap fun p => s.planeBytes p.units 0 p.size) = leNat b →
    ∃ t, exec (.kpsTrailer ch b) s = .next t ∧ (t.page ch).active = false ∧ t.job.handle = s.job.handle + 1 ∧
      t.job.pages.map Page.handle = s.job.pages.map Page.handle ++ [s.job.handle + 1]) ∧
  (∀ (s : State) (ch i u : Nat) (g g1 g' : Segment) (out : List Byte), s.nextSeg = some (ch, i) →
    s.freeDcmp = some u → (s.page ch).segs[i]? = some g → g.ctx < 4096 →
    g1 = { g with unit := some u, onUnit := 0, hist := s.history (s.page ch) g } →
    Segment.feed (s.setPage ch { s.page ch with segs := (s.page ch).segs.set i g1 }).nextSeg.isSome
      (g.staged.length + 1) g1 = .ok (g', out) →
    ∃ t, exec .segmentAssign s = .next t ∧ (t.page ch).segs = (s.page ch).segs.set i g' ∧
      t.fld (Reg.DCMP_STATUS_BUSY u) = 1 ∧ t.fld (Reg.DCMP_STATUS_CONTEXT u) = g.ctx ∧
      ((g.base + g.made) % mib2 + out.length ≤ mib2 →
        memGet t.mem (s.planeAddr ((s.page ch).planes.getD g.plane {}).units (g.base + g.made)) out.length = out)) ∧
  (∀ (s : State) (ch i u : Nat) (g : Segment), u < 16 → s.segOn u = some (ch, i) → (s.page ch).segs[i]? = some g →
    g.staged = [] ∧ g.closed = false ∨ 4194304 ≤ g.onUnit ∧ s.nextSeg.isSome →
    ∃ t, exec (.segmentSwitch u) s = .next t ∧
      (t.page ch).segs = (s.page ch).segs.set i { g with unit := none, hist := [] } ∧
      t.fld (Reg.DCMP_STATUS_BUSY u) = 0 ∧
      t.fld (Reg.DCMP_STATUS_SWITCHES u) = min (s.fld (Reg.DCMP_STATUS_SWITCHES u) + 1) 65535) ∧
  (∀ (s : State) (ch i u : Nat) (g : Segment), s.segOn u = some (ch, i) → (s.page ch).segs[i]? = some g →
    g.staged = [] → g.closed → (s.page ch).stage ≠ 3 →
    ∃ t, exec (.segmentComplete u) s = .next t ∧
      (t.page ch).segs = (s.page ch).segs.set i { g with unit := none, done := true, hist := [] } ∧
      t.fld (Reg.DCMP_STATUS_BUSY u) = 0 ∧ ∀ a, a ≠ Reg.DCMP_STATUS u → t.reg a = s.reg a)

/-- Record rings and compressors (R132 to R134, R235, R237): RECORD_RING_SET, RECORD_DELIVER, CONSUMER_INDEX_POLL,
RECORD_RING_FULL_TIMEOUT, INTERRUPT_COALESCE, COMPRESS_STREAM_START, COMPRESS_STREAM_END. -/
def Obligations.RecordCommandsComplete : Prop :=
  (∀ (s : State) (rq : Rq) (r v addr size : Nat), s.ready rq 0x0207 → r < 2 → addr % 4096 = 0 → recSizeOk size →
    ∃ t, exec (.recordRingSet rq r v addr size) s = .next t ∧ t.answered rq 0x0207 scDone [] ∧
      t.recRing r = { s.recRing r with
        placed := true, vector := v, addr := addr, size := size, prod := 0, cons := 0, breached := false }) ∧
  (∀ (s : State) (r : Nat) (b : List Byte) (l : List (List Byte)), r < 2 → (s.recRing r).waiting = b :: l →
    (s.recRing r).placed → (s.recRing r).full = false →
    ∃ t m, exec (.recordDeliver r) s = .next t ∧ (t.recRing r).waiting = l ∧
      (t.recRing r).prod = ((s.recRing r).prod + 1) % idxMod ∧
      t.outbox = s.outbox ++
        [.hostWrite ((s.recRing r).addr + 64 + 64 * ((s.recRing r).prod % (s.recRing r).size)) b,
         .hostWrite (s.recRing r).addr
           (leBytes 4 (((s.recRing r).prod + 1) % idxMod) ++ leBytes 4 (s.recRing r).dropped)] ++ m ∧
      (m = [] ∨ m = [.msix (s.recRing r).vector]) ∧ t.regs = s.regs) ∧
  (∀ (s : State) (r i : Nat), r < 2 → (s.recRing r).placed → (s.recRing r).breached = false →
    ∃ t, exec (.consumerIndexPoll r (.index i)) s = .next t ∧ t.recRing r = { s.recRing r with cons := i % idxMod } ∧
      t.regs = s.regs) ∧
  (∀ (s : State) (r k : Nat), r < 2 → (s.recRing r).placed →
    ∃ t, exec (.consumerIndexPoll r (.failed k)) s = .next t ∧ t.recRing r = s.recRing r ∧
      t.fld Reg.NVC_LOG_NEXT = (s.fld Reg.NVC_LOG_NEXT + 1) % idxMod) ∧
  (∀ (s : State) (r : Nat), r < 2 → (s.recRing r).placed → (s.recRing r).full →
    ∃ t, exec (.recordRingFullTimeout r) s = .next t ∧ (t.recRing r).breached ∧
      bitAt (t.fld Reg.PLAT_STATE_COND) 0 = true ∧ bitAt (t.fld Reg.PLAT_COND_SEEN_SEEN) 0 = true) ∧
  (∀ (s : State) (r : Nat), (s.recRing r).deferred = false →
    ∃ t, exec (.interruptCoalesce r) s = .next t ∧ t.recRing r = { s.recRing r with coalescing := false } ∧
      t.outbox = s.outbox ∧ t.regs = s.regs) ∧
  (∀ (s : State) (r : Nat), (s.recRing r).deferred → tabGet false s.msix.unmasked (s.recRing r).vector = true →
    ∃ t, exec (.interruptCoalesce r) s = .next t ∧
      t.recRing r = { s.recRing r with coalescing := true, deferred := false } ∧
      t.outbox = s.outbox ++ [.msix (s.recRing r).vector] ∧ t.regs = s.regs) ∧
  (∀ (s : State) (u : Nat) (c : CropJob) (l : List CropJob), u < 4 → s.ingest.crops = c :: l →
    tabGet none s.ingest.streams u = none →
    ∃ t, exec (.compressStreamStart u) s = .next t ∧ t.ingest.crops = l ∧
      tabGet none t.ingest.streams u = some (c, s.fld (Reg.CMPR_CTRL_LEVEL u)) ∧
      t.fld (Reg.CMPR_STATUS_BUSY u) = 1 ∧ t.fld (Reg.CMPR_STATUS_CONTEXT u) = 256 + u ∧
      ∀ a, a ≠ Reg.CMPR_STATUS u → t.reg a = s.reg a) ∧
  (∀ (s : State) (u level at_ : Nat) (c : CropJob) (out : List Byte), u < 4 →
    tabGet none s.ingest.streams u = some (c, level) → c.header.length = 32 → out = compress level c.data →
    at_ = 0x230000000 + 524288 * (c.crop % 2 ^ s.fld Reg.JIG_CROP_SLOTS_EXP) →
    ∃ t, exec (.compressStreamEnd u) s = .next t ∧ tabGet none t.ingest.streams u = none ∧
      t.fld (Reg.CMPR_STATUS_BUSY u) = 0 ∧ memGet t.mem at_ 32 = c.header ∧
      memGet t.mem (at_ + 48) out.length = out ∧
      memGet t.mem (at_ + 32) 16 = leBytes 4 c.data.length ++ leBytes 4 out.length ++
        bytesOf [b2n (decide (0 < (blockCounts c.data out).2)) +
          2 * b2n ((blockCounts c.data out).1 == (blockCounts c.data out).2), level] ++
        leBytes 2 (min 65535 (blockCounts c.data out).1) ++ leBytes 4 (crc32c c.data))

/-- Camera ports (R188 to R197): CAMERA_TRIGGER, FRAME_OPEN, FRAME_CLOSE, CAMERA_PORT_LINE. -/
def Obligations.CameraCommandsComplete : Prop :=
  (∀ (s : State) (n : Nat), n < 24 → s.capOn n → s.awake → s.freeRun n = false →
    s.trigPos n (s.cam n).trigs ≤ max (s.cam n).high s.webPos →
    ∃ t, exec (.cameraTrigger n) s = .next t ∧
      t.cam n = { s.cam n with
        high := max (s.cam n).high s.webPos, trigs := (s.cam n).trigs + 1,
        waiting := (s.cam n).waiting ++ [s.trigNow (s.cam n).trigs (s.trigPos n (s.cam n).trigs)] } ∧
      t.outbox = s.outbox ++ [.cameraTrigger n (s.fld (Reg.CAP_TRIG_WIDTH n))] ∧ t.regs = s.regs) ∧
  (∀ (s : State) (n : Nat), n < 24 → s.capOn n → s.awake → s.freeRun n = false →
    max (s.cam n).high s.webPos < s.trigPos n (s.cam n).trigs →
    ∃ t, exec (.cameraTrigger n) s = .next t ∧ t.cam n = { s.cam n with high := max (s.cam n).high s.webPos } ∧
      t.outbox = s.outbox ∧ t.regs = s.regs) ∧
  (∀ (s : State) (n : Nat), n < 24 → s.capOn n → s.awake → s.freeRun n →
    ∃ t, exec (.cameraTrigger n) s = .next t ∧ t.cam n = { s.cam n with trigs := (s.cam n).trigs + 1 } ∧
      t.outbox = s.outbox ++ [.cameraTrigger n (s.fld (Reg.CAP_TRIG_WIDTH n))] ∧ t.regs = s.regs) ∧
  (∀ (s : State) (n : Nat), n < 24 → s.capOn n → s.awake → (s.cam n).fsync = false →
    ∃ t, exec (.frameOpen n) s = .next t ∧ (t.cam n).fsync ∧ (t.cam n).lines = 0 ∧ (t.cam n).pend = false ∧
      (t.cam n).nextFrame = ((s.cam n).nextFrame + 1) % idxMod ∧
      (t.cam n).frames.head?.map (fun f => (f.num, f.closed, f.overlong, f.params)) =
        some ((s.cam n).nextFrame, false, false, if (s.cam n).pend then (s.cam n).staged else (s.cam n).params) ∧
      t.fld (Reg.CAP_FRAME_FRAME n) = (s.cam n).nextFrame % idxMod ∧ t.fld (Reg.CAP_STATUS_OPEN n) = 1 ∧
      t.fld (Reg.CAP_STATUS_PEND n) = 0) ∧
  (∀ (s : State) (n : Nat) (f : CamFrame), n < 24 → s.capOn n → (s.cam n).fsync → (s.cam n).openFrame = some f →
    s.capLines n ≤ (s.cam n).lines → (s.cam n).rowA = none →
    ∃ t, exec (.frameClose n) s = .next t ∧ (t.cam n).fsync = false ∧ (t.cam n).openFrame = none ∧
      (t.cam n).frames.head? = some { f with
        closed := true, short := false, done := f.first.isNone && !(s.onGrid n && s.flag Reg.JIG_CTRL_ENABLE) } ∧ t.fld (Reg.CAP_STATUS_OPEN n) = 0 ∧
      t.fld (Reg.CAP_COUNT_SHORT_FRAME n) = s.fld (Reg.CAP_COUNT_SHORT_FRAME n)) ∧
  (∀ (s : State) (n : Nat) (f : CamFrame), n < 24 → s.capOn n → (s.cam n).fsync → (s.cam n).openFrame = some f →
    (s.cam n).lines < s.capLines n →
    ∃ t, exec (.frameClose n) s = .next t ∧ (t.cam n).openFrame = none ∧
      (t.cam n).frames.head? = some { f with
        closed := true, short := true, done := f.first.isNone && !(s.onGrid n && s.flag Reg.JIG_CTRL_ENABLE) } ∧ t.fld (Reg.CAP_STATUS_OPEN n) = 0 ∧
      t.fld (Reg.CAP_COUNT_SHORT_FRAME n) = min (s.fld (Reg.CAP_COUNT_SHORT_FRAME n) + 1) 255 ∧
      t.fld (Reg.KAL_EVENTS_DEVIATION (s.pipeOf n)) = 1) ∧
  (∀ (s : State) (n : Nat) (v : List Nat), n < 24 → s.capOn n → s.awake → (s.cam n).fsync = false →
    ∃ t, exec (.cameraPortLine n v) s = .next t ∧ (t.cam n).plines = (s.cam n).plines + 1 ∧
      (t.cam n).buf = (s.cam n).buf ∧ t.fld (Reg.CAP_STATUS_OUTSIDE n) = 1) ∧
  (∀ (s : State) (n : Nat) (v : List Nat) (f : CamFrame), n < 24 → s.capOn n → s.awake → (s.cam n).fsync →
    s.bilinear n → (s.cam n).openFrame = some f → (s.cam n).lines < s.capLines n → (s.cam n).rowA = none →
    ∃ t, exec (.cameraPortLine n v) s = .next t ∧ (t.cam n).rowA.map PortLine.samples = some (s.alignLine n v) ∧
      (t.cam n).lines = (s.cam n).lines ∧ (t.cam n).buf = (s.cam n).buf) ∧
  (∀ (s : State) (n : Nat) (v : List Nat) (f : CamFrame) (a : PortLine), n < 24 → s.capOn n → s.awake →
    (s.cam n).fsync → s.bilinear n → s.halfAlong n = false → (s.cam n).openFrame = some f →
    (s.cam n).lines < s.capLines n → (s.cam n).rowA = some a → (s.cam n).buf.length < s.capRoom n →
    ∃ t l, exec (.cameraPortLine n v) s = .next t ∧ (t.cam n).rowA = none ∧ (t.cam n).lines = (s.cam n).lines + 1 ∧
      (t.cam n).buf = (s.cam n).buf ++ [l] ∧ l.trig = a.trig ∧ l.frame = f.num ∧ l.row = (s.cam n).lines ∧
      l.rows = [a.samples, s.alignLine n v]) ∧
  (∀ (s : State) (n : Nat) (v : List Nat) (f : CamFrame), n < 24 → s.capOn n → s.awake → (s.cam n).fsync →
    s.bilinear n = false → s.halfAlong n = false → s.fld (Reg.CAP_ALIGN_D_R n) = 0 → s.fld (Reg.CAP_ALIGN_D_G n) = 0 →
    s.fld (Reg.CAP_ALIGN_D_B n) = 0 → (s.cam n).openFrame = some f → (s.cam n).lines < s.capLines n →
    (s.cam n).buf.length < s.capRoom n →
    ∃ t l, exec (.cameraPortLine n v) s = .next t ∧ (t.cam n).lines = (s.cam n).lines + 1 ∧
      (t.cam n).buf = (s.cam n).buf ++ [l] ∧ l.frame = f.num ∧ l.row = (s.cam n).lines ∧
      l.rows = [(s.alignLine n v).take (s.capW n), ((s.alignLine n v).drop (s.capW n)).take (s.capW n),
        ((s.alignLine n v).drop (2 * s.capW n)).take (s.capW n)])

/-- Sensor settings and corrections (R198 to R201, R207, R209, R213): CAMERA_SET, CAMERA_SET_TRANSFER, SENSOR_XFER,
SENSOR_TRANSFER_END, KAL_PDAT_WRITE, KAL_APPLY, GAIN_SET_COMPUTE, DARK_CAL_DONE, PAPER_CAL_DONE. -/
def Obligations.SensorCommandsComplete : Prop :=
  (∀ (s : State) (rq : Rq) (n ident expo gain : Nat), s.ready rq 0x0200 → n < 24 → s.capOn n →
    ∃ t, exec (.cameraSet rq n ident expo gain) s = .next t ∧ t.unanswered rq 0x0200 ∧
      (t.cam n).xfer = some {
        sess := rq.sess, tag := rq.tag, ident := ident % 65536,
        bytes := bytesOf [s.fld (Reg.CAP_SENS_WCMD n)] ++ leBytes 2 (s.fld (Reg.CAP_SENS_ADDR n)) ++ leBytes 4 expo ++
          leBytes 2 gain } ∧
      t.cmd.executing = s.cmd.executing ++ [⟨.inspect, rq.sess, rq.tag⟩] ∧
      t.flag (Reg.CAP_STATUS_PEND n) = s.guarded n) ∧
  (∀ (s : State) (rq : Rq) (n ident expo gain : Nat), s.ready rq 0x0200 → n < 24 → s.capOn n = false →
    ∃ t, exec (.cameraSet rq n ident expo gain) s = .next t ∧ t.answered rq 0x0200 scResourceBusy [] ∧
      t.eye = s.eye) ∧
  (∀ (s : State) (n : Nat) (x : CamXfer), (s.cam n).xfer = some x → x.started = false →
    s.flag (Reg.CAP_STATUS_PEND n) = false → s.guarded n = false →
    ∃ t, exec (.cameraSetTransfer n) s = .next t ∧ (t.cam n).xfer = some { x with started := true } ∧
      t.outbox = s.outbox ++ [.sensorBus n x.bytes] ∧ t.regs = s.regs) ∧
  (∀ (s : State) (n : Nat) (x : CamXfer), (s.cam n).xfer = some x → x.started = false →
    s.flag (Reg.CAP_STATUS_PEND n) = false → s.guarded n →
    ∃ t, exec (.cameraSetTransfer n) s = .next t ∧ t.eye = s.eye ∧ t.outbox = s.outbox ∧
      t.fld (Reg.CAP_STATUS_PEND n) = 1 ∧ ∀ a, a ≠ Reg.CAP_STATUS n → t.reg a = s.reg a) ∧
  (∀ (s : State) (rq : Rq) (n : Nat) (b : List Byte), s.ready rq 0x0201 → n < 24 → s.capOn n → 1 ≤ b.length →
    b.length ≤ 1024 →
    ∃ t, exec (.sensorXfer rq n b) s = .next t ∧ t.unanswered rq 0x0201 ∧
      (t.cam n).xfer = some { settings := false, sess := rq.sess, tag := rq.tag, bytes := b, started := true } ∧
      t.cmd.executing = s.cmd.executing ++ [⟨.inspect, rq.sess, rq.tag⟩] ∧ Out.sensorBus n b ∈ t.outbox) ∧
  (∀ (s : State) (n : Nat) (x : CamXfer) (b : List Byte), (s.cam n).xfer = some x → x.started → x.settings = false →
    b.length = x.bytes.length → s.slotOpen x.sess x.tag →
    ∃ t, exec (.sensorTransferEnd n b) s = .next t ∧ (t.cam n).xfer = none ∧ t.slotDone x.sess x.tag scDone b) ∧
  (∀ (s : State) (n : Nat) (x : CamXfer) (f : CamFrame) (b : List Byte), n < 24 → (s.cam n).xfer = some x →
    x.started → x.settings → x.crossed = false → (s.cam n).openFrame = some f → f.num < idxMod - 3 → s.flag (Reg.CAP_CTRL_SHADOW n) = false → s.fld (Reg.CAP_CTRL_LATENCY n) ≠ 0 →
    s.slotOpen x.sess x.tag →
    ∃ t, exec (.sensorTransferEnd n b) s = .next t ∧ (t.cam n).xfer = none ∧
      (t.cam n).setNext = (s.cam n).setNext ++ [(f.num + s.fld (Reg.CAP_CTRL_LATENCY n), x.ident)] ∧
      t.slotDone x.sess x.tag scDone (leBytes 4 (f.num + s.fld (Reg.CAP_CTRL_LATENCY n)))) ∧
  (∀ (s : State) (p : Nat) (v : Word), s.writable → s.awake → p < 8 → (s.cam (s.kalPort p)).pend = false →
    ∃ t, exec (.kalPdatWrite p v) s = .next t ∧
      t.cam (s.kalPort p) = { s.cam (s.kalPort p) with
        staged := (s.cam (s.kalPort p)).staged.set (s.fld (Reg.KAL_PIDX_WORD p))
          (v.toNat &&& kalMask.getD (s.fld (Reg.KAL_PIDX_WORD p)) 0) } ∧
      t.fld (Reg.KAL_PIDX_WORD p) = (s.fld (Reg.KAL_PIDX_WORD p) + 1) % 16 ∧
      ∀ a, a ≠ Reg.KAL_PIDX p → t.reg a = s.reg a) ∧
  (∀ (s : State) (p : Nat), s.writable → s.awake → p < 8 → kalSetOk (s.cam (s.kalPort p)).staged →
    ∃ t, exec (.kalApply p) s = .next t ∧ t.cam (s.kalPort p) = { s.cam (s.kalPort p) with pend := true } ∧
      t.regs = s.regs) ∧
  (∀ (s : State) (n : Nat), n < 24 → s.capOn n → s.flag (Reg.KAL_CTRL_FLAT_FREEZE (s.pipeOf n)) = false →
    s.fld (Reg.KAL_CTRL_FLAT_EVERY (s.pipeOf n)) ≤ (s.cam n).since →
    ∃ t, exec (.gainSetCompute n) s = .next t ∧
      t.cam n = { s.cam n with
        flatNext := some (s.gainSet n ((s.cam n).flatNext.getD (s.cam n).flat)), gainNext := true, since := 0,
        moved := [] } ∧ t.regs = s.regs) ∧
  (∀ (s : State) (n : Nat) (r : CalJob) (levels : List (Nat × Nat)) (bad : List Nat), s.calFull n 0x20 = some r →
    levels = (s.samplesOf n).map (fun q => (sampleKey q.1 q.2, (((r.values q.1 q.2).sum + 512) / 1024).toNat)) →
    bad = (levels.filter fun e => decide (kalWord (s.cam n).params 11 11 0 < e.2)).map Prod.fst →
    16 * bad.length ≤ levels.length → s.slotOpen r.sess r.tag →
    ∃ t, exec (.darkCalDone n) s = .next t ∧ t.slotDone r.sess r.tag scDone [] ∧ (t.cam n).run = none ∧
      (t.cam n).flatNext = some { (s.cam n).flatNext.getD (s.cam n).flat with
        dark := levels.filter fun e => e.2 != 0, darkDef := bad }) ∧
  (∀ (s : State) (n : Nat) (r : CalJob) (levels : List (Nat × Nat)) (bad : List Nat), s.calFull n 0x20 = some r →
    levels = (s.samplesOf n).map (fun q => (sampleKey q.1 q.2, (((r.values q.1 q.2).sum + 512) / 1024).toNat)) →
    bad = (levels.filter fun e => decide (kalWord (s.cam n).params 11 11 0 < e.2)).map Prod.fst →
    levels.length < 16 * bad.length → s.slotOpen r.sess r.tag →
    ∃ t, exec (.darkCalDone n) s = .next t ∧
      t.slotDone r.sess r.tag scConfigRejected (checkResult 1 1 0x19 0xFFFFFFFF) ∧
      t.cam n = { s.cam n with run := none }) ∧
  (∀ (s : State) (n : Nat) (r : CalJob), s.calFull n 0x21 = some r → s.slotOpen r.sess r.tag →
    ∃ t, exec (.paperCalDone n) s = .next t ∧ t.slotDone r.sess r.tag scDone [] ∧ (t.cam n).run = none ∧
      (t.cam n).gainNext ∧ (t.cam n).paperDirty = false)

/-- Kaleidoscope and the resamplers (R202 to R212, R216 to R221): STRIPE_PROCESS, RESAMPLE_LINE, RSMP_PDAT_WRITE,
RSMP_APPLY, RSMP_SWAP, RESAMPLE_COEF_LOAD. -/
def Obligations.PipelineCommandsComplete : Prop :=
  (∀ (s : State) (p : Nat), p < 8 → s.nextPort p = none →
    ∃ t, exec (.stripeProcess p) s = .next t ∧ t.fld (Reg.KAL_STATUS_BUSY p) = 0 ∧ t.eye = s.eye ∧
      ∀ a, a ≠ Reg.KAL_STATUS p → t.reg a = s.reg a) ∧
  (∀ (s r : State) (p n : Nat) (l : CapLine) (rest : List CapLine), p < 8 → s.nextPort p = some n →
    s.flag (Reg.KAL_CTRL_SHARE p) = false → (s.cam n).buf = l :: rest →
    (s.cam n).col + 256 < (l.rows.getD 0 []).length → r = s.readLine n (s.cam n).col 256 →
    ∃ t, exec (.stripeProcess p) s = .next t ∧ t.cam n = { r.cam n with col := (s.cam n).col + 256 } ∧
      t.fld (Reg.KAL_STATUS_NOW p) = n % 6 ∧ t.fld (Reg.KAL_STATUS_BUSY p) = 1) ∧
  (∀ (s r : State) (p n : Nat) (l : CapLine) (rest : List CapLine) (base : Int), p < 8 → s.nextPort p = some n →
    s.flag (Reg.KAL_CTRL_SHARE p) = false → r = s.readLine n (s.cam n).col 256 → (r.cam n).buf = l :: rest →
    (l.rows.getD 0 []).length ≤ (s.cam n).col + 256 → s.onGrid n → s.flag Reg.JIG_CTRL_ENABLE →
    base = (s.cam n).base.getD l.trig.pos → s.spacing n ≠ 0 → (l.trig.pos - base) % (s.spacing n : Int) = 0 →
    ∃ t, exec (.stripeProcess p) s = .next t ∧ (t.cam n).buf = rest ∧ (t.cam n).col = 0 ∧
      (t.cam n).base = some base ∧
      (t.cam n).input = (s.cam n).input ++ [((l.trig.pos - base) / (s.spacing n : Int),
        { l with rows := [(s.kalSet n l).pixels
            (l.rows.zipIdx.map fun r => r.1.zipIdx.map fun v => (s.kalSet n l).u r.2 v.2 v.1)
            (l.rows.getD 0 []).length] })]) ∧
  (∀ (s : State) (n : Nat) (m y t0 : Int), n < 24 → s.onGrid n → s.flag Reg.JIG_CTRL_ENABLE →
    (s.cam n).base = some t0 → s.spacing n ≠ 0 → (s.cam n).nextM = some m → (s.cam n).rsPend = false →
    colsOf (s.cam n).rs ≠ 0 → s.flag (Reg.RSMP_STATUS_SWAP_PEND (s.pipeOf n)) = false →
    y = yOf (s.gpos m) t0 (exposureTicks (s.cam n).speed (expcOf (s.cam n).rs)) (s.spacing n) (dlyOf (s.cam n).rs) →
    0 ≤ y / 2 ^ 24 → y / 2 ^ 24 + 16 ≤ (s.cam n).seen →
    ∃ t, exec (.resampleLine n) s = .next t ∧ (t.cam n).nextM = some (m + 1) ∧
      (t.cam n).grid = s.gridLine n m (y / 2 ^ 24) (y / 2 ^ 18 % 64).toNat :: (s.cam n).grid) ∧
  (∀ (s : State) (n : Nat) (m t0 : Int) (p : List Nat), n < 24 → s.onGrid n → s.flag Reg.JIG_CTRL_ENABLE →
    (s.cam n).base = some t0 → s.spacing n ≠ 0 → (s.cam n).nextM = some m → p = (s.cam n).regSet →
    (s.cam n).seen < yOf (s.gpos m) t0 (exposureTicks (s.cam n).speed (expcOf p)) (s.spacing n) (dlyOf p) / 2 ^ 24 + 16 →
    exec (.resampleLine n) s = .next s) ∧
  (∀ (s : State) (u : Nat) (v : Word), s.writable → s.awake → u < 8 → (s.cam (s.rsmpPort u)).rsPend = false →
    ∃ t, exec (.rsmpPdatWrite u v) s = .next t ∧
      t.cam (s.rsmpPort u) = { s.cam (s.rsmpPort u) with
        rsStaged := (s.cam (s.rsmpPort u)).rsStaged.set (s.fld (Reg.RSMP_CTRL_WORD u))
          (v.toNat &&& rsmpMask.getD (s.fld (Reg.RSMP_CTRL_WORD u)) 0) } ∧
      t.fld (Reg.RSMP_CTRL_WORD u) = (s.fld (Reg.RSMP_CTRL_WORD u) + 1) % 16 ∧
      ∀ a, a ≠ Reg.RSMP_CTRL u → t.reg a = s.reg a) ∧
  (∀ (s : State) (u : Nat), s.writable → s.awake → u < 8 → rsmpSetOk (s.cam (s.rsmpPort u)).rsStaged →
    colsOf (s.cam (s.rsmpPort u)).rs = 0 → colsOf (s.cam (s.rsmpPort u)).rsStaged = 0 →
    ∃ t, exec (.rsmpApply u) s = .next t ∧ t.cam (s.rsmpPort u) = { s.cam (s.rsmpPort u) with
        rs := (s.cam (s.rsmpPort u)).rsStaged, rsPend := false } ∧ t.regs = s.regs) ∧
  (∀ (s : State) (u : Nat), s.writable → s.awake → u < 8 → rsmpSetOk (s.cam (s.rsmpPort u)).rsStaged →
    colsOf (s.cam (s.rsmpPort u)).rs ≠ 0 ∨ colsOf (s.cam (s.rsmpPort u)).rsStaged ≠ 0 →
    ∃ t, exec (.rsmpApply u) s = .next t ∧ t.cam (s.rsmpPort u) = { s.cam (s.rsmpPort u) with rsPend := true } ∧
      ∀ a, a ≠ Reg.JIG_STATUS → t.reg a = s.reg a) ∧
  (∀ (s : State) (u : Nat), s.writable → s.awake → u < 8 → s.flag (Reg.RSMP_STATUS_COEF_PEND u) →
    ∃ t, exec (.rsmpSwap u) s = .next t ∧ t.fld (Reg.RSMP_STATUS_SWAP_PEND u) = 1 ∧ t.eye = s.eye ∧
      ∀ a, a ≠ Reg.RSMP_STATUS u → t.reg a = s.reg a) ∧
  (∀ (s : State) (rq : Rq) (c : Chunk) (tb : List Byte), s.ready rq 0x0205 → c.inst < 8 →
    s.flag (Reg.RSMP_STATUS_SWAP_PEND c.inst) = false →
    judgeChunk false (s.staged 0x0205 c.inst) c = .whole tb → coefBad tb = none →
    s.flag (Reg.RSMP_CTRL_AUTO_SWAP c.inst) = false →
    ∃ t, exec (.resampleCoefLoad rq c) s = .next t ∧
      t.answered rq 0x0205 scDone (leBytes 4 tb.length ++ leBytes 4 (crc32c tb)) ∧
      t.rsmp c.inst = { s.rsmp c.inst with next := readCoef tb } ∧ t.fld (Reg.RSMP_STATUS_COEF_PEND c.inst) = 1)

/-- Inspection tables and the compared lines (R222, R227, R231, R233, R238): COLOUR_MODEL_LOAD, COVERAGE_LOAD,
BLUR_LOAD, CLASS_SET, GRID_LINE_COMPARE, FRAME_STATISTICS. -/
def Obligations.InspectionCommandsComplete : Prop :=
  (∀ (s : State) (rq : Rq) (c : Chunk) (tb : List Byte), s.ready rq 0x0202 → c.inst < 24 →
    (c.offset = 0 → s.tabBusy (512 + c.inst) = false) → judgeChunk false (s.staged 0x0202 c.inst) c = .whole tb → modelBad tb = none →
    ∃ t, exec (.colourModelLoad rq c) s = .next t ∧
      t.answered rq 0x0202 scDone (leBytes 4 tb.length ++ leBytes 4 (crc32c tb)) ∧
      (s.renderTab 2 c.inst).gen + 1 = (t.renderTab 2 c.inst).gen ∧
      (t.renderTab 2 c.inst).data =
        ((List.range 4).map fun i => (leAt tb i 1 : Int)) ++ (halves ((tb.drop 16).take 501126)).map Int.ofNat) ∧
  (∀ (s : State) (rq : Rq) (c : Chunk) (tb : List Byte), s.ready rq 0x0203 → c.inst < 16 →
    (c.offset = 0 → s.tabBusy (768 + c.inst) = false) → judgeChunk false (s.staged 0x0203 c.inst) c = .whole tb → coverBad tb = none →
    ∃ t, exec (.coverageLoad rq c) s = .next t ∧
      t.answered rq 0x0203 scDone (leBytes 4 tb.length ++ leBytes 4 (crc32c tb)) ∧
      (s.renderTab 3 c.inst).gen + 1 = (t.renderTab 3 c.inst).gen ∧
      (t.renderTab 3 c.inst).data =
        leIntAt tb 0 2 :: (List.range 16).map fun d => (leAt tb (16 + 2 * d) 2 : Int)) ∧
  (∀ (s : State) (rq : Rq) (c : Chunk) (tb : List Byte), s.ready rq 0x0204 → c.inst < 16 →
    (c.offset = 0 → s.tabBusy (1024 + c.inst) = false) → judgeChunk false (s.staged 0x0204 c.inst) c = .whole tb → blurBad tb = none →
    ∃ t, exec (.blurLoad rq c) s = .next t ∧
      t.answered rq 0x0204 scDone (leBytes 4 tb.length ++ leBytes 4 (crc32c tb)) ∧
      (s.renderTab 4 c.inst).gen + 1 = (t.renderTab 4 c.inst).gen ∧
      (t.renderTab 4 c.inst).data = (List.range 25).map fun i => (leAt tb (16 + 2 * i) 2 : Int)) ∧
  (∀ (s : State) (rq : Rq) (c : Chunk) (tb : List Byte), s.ready rq 0x0206 → c.inst = 0 →
    (c.offset = 0 → s.tabBusy 1536 = false) → judgeChunk false (s.staged 0x0206 0) c = .whole tb → classBad tb = none →
    ∃ t, exec (.classSet rq c) s = .next t ∧
      t.answered rq 0x0206 scDone (leBytes 4 tb.length ++ leBytes 4 (crc32c tb)) ∧
      (s.renderTab 6 0).gen + 1 = (t.renderTab 6 0).gen ∧
      (t.renderTab 6 0).data =
        (List.range 3).map (fun i => (leAt tb (2 * i) 2 : Int)) ++ (List.range 4).flatMap fun k =>
          [(leAt tb (16 + 8 * k) 2 : Int), (leAt tb (18 + 8 * k) 2 : Int), (leAt tb (20 + 8 * k) 1 : Int)]) ∧
  (∀ (s : State) (m : Int), s.flag Reg.JIG_CTRL_ENABLE → s.nextLine = some m →
    ∃ t, exec .gridLineCompare s = .next t ∧ t.insp.nextM = some (m + 1) ∧
      (∀ c ∈ t.insp.cropWait, m + 1 < c.top + c.height) ∧ ∀ o ∈ s.owners, (t.cam o.1).openLine m = none) ∧
  (∀ (s : State), s.flag Reg.JIG_CTRL_ENABLE = false → exec .gridLineCompare s = .next s) ∧
  (∀ (s : State) (n : Nat) (f : CamFrame), n < 24 → s.dueFrame n = some (f, false) →
    ∃ t, exec (.frameStatistics n) s = .next t ∧ t.insp = s.insp ∧ t.rings = s.rings ∧ t.mem = s.mem ∧
      ∀ g ∈ (t.cam n).frames, g.num = f.num → g.done) ∧
  (∀ (s : State) (n : Nat) (f : CamFrame), n < 24 → s.dueFrame n = some (f, true) →
    (s.recRing 1).waiting.length < 65536 →
    ∃ t l, exec (.frameStatistics n) s = .next t ∧ t.insp.block = (s.insp.block + 1) % idxMod ∧
      memGet t.mem (0x330000000 + 262144 * (s.insp.block % 2 ^ s.fld Reg.JIG_STATS_SLOTS_EXP)) 64 =
        s.summaryBytes n s.insp.block f (s.recRing 1).next ∧
      (t.recRing 1).waiting = (s.recRing 1).waiting ++ [s.summaryBytes n s.insp.block f (s.recRing 1).next] ++ l)

/-- Firmware and supervisor pairs (R376 to R379): FW_STAGE, FW_SWITCH, FW_HANDOVER, FW_FALLBACK_END,
KERNEL_ROTATION_STEP, SUPERVISOR_TAKEOVER, FAULTED_PAIR_TEST_DONE. -/
def Obligations.FirmwareCommandsComplete : Prop :=
  (∀ (s : State) (rq : Rq) (c : Chunk) (tb : List Byte), s.ready rq 0x0500 → c.inst = 0 → (c.offset = 0 → s.switching = false) →
    judgeChunk false (s.staged 0x0500 0) c = .whole tb →
    ∃ t, exec (.fwStage rq c) s = .next t ∧
      (if Config.signatureOk tb then
        t.answered rq 0x0500 scDone (leBytes 4 tb.length ++ leBytes 4 (crc32c tb)) ∧
        t.fld (slotValid s.idleB) = 1 ∧ t.fld Reg.SPARE_FW_STATE = 2 ∧ t.fld Reg.PLAT_STATE_STAGED = 1 ∧
        t.fld (slotVersion s.idleB) = Config.imageVersion tb % idxMod ∧
        (if s.idleB then t.nvc.imageB else t.nvc.imageA) = tb
      else t.answered rq 0x0500 scBadCheck [] ∧ t.fld Reg.SPARE_FW_STATE = 0)) ∧
  (∀ (s : State) (rq : Rq), s.ready rq 0x0501 → s.flag (slotValid s.idleB) → s.switching = false →
    s.chainWidth = 0 ∨ s.fld (slotLevel s.idleB) = s.level ∨ s.inSt [stArmed, stPrinting, stPaused] = false →
    s.flag Reg.SPARE_PSUP_STANDBY_OK →
    ∃ t, exec (.fwSwitch rq) s = .next t ∧ t.unanswered rq 0x0501 ∧ t.fld Reg.SPARE_FW_STATE = 3 ∧
      t.spare.switch = some ⟨rq.sess, rq.tag⟩ ∧
      t.cmd.executing = s.cmd.executing ++ [⟨.platform, rq.sess, rq.tag⟩]) ∧
  (∀ (s : State) (rq : Rq), s.ready rq 0x0501 → s.flag (slotValid s.idleB) = false →
    ∃ t, exec (.fwSwitch rq) s = .next t ∧
      t.answered rq 0x0501 scConfigRejected (checkResult 1 2 0x4A 0xFFFFFFFF) ∧ t.spare = s.spare) ∧
  (∀ (s : State) (w : FwSwitch), s.spare.switch = some w → s.slotOpen w.sess w.tag →
    ∃ t, exec .fwHandover s = .next t ∧ t.spare.switch = none ∧ t.flag Reg.NVC_SLOT_RUNNING = s.idleB ∧
      t.fld Reg.SPARE_PSUP_ACTIVE = 1 - s.fld Reg.SPARE_PSUP_ACTIVE ∧
      t.fld Reg.PLAT_FW_VER_VERSION = s.fld (slotVersion s.idleB) ∧ t.fld Reg.SPARE_FW_STATE = 4 ∧
      t.fld Reg.PLAT_STATE_STAGED = 0 ∧
      t.slotDone w.sess w.tag scDone (leBytes 4 (s.fld (slotVersion s.idleB)))) ∧
  (∀ (s : State), s.fld Reg.SPARE_FW_STATE = 4 → s.flag Reg.SPARE_PSUP_TAKEOVER = false →
    ∃ t, exec .fwFallbackEnd s = .next t ∧ t.fld Reg.NVC_SLOT_ACTIVE = s.fld Reg.NVC_SLOT_RUNNING ∧
      t.fld Reg.SPARE_FW_STATE = 5 ∧ t.fld Reg.SPARE_FW_CLUSTER = 0 ∧ t.fld Reg.SPARE_FW_STEPS = 0 ∧
      ∀ a, a ≠ Reg.NVC_SLOT → a ≠ Reg.SPARE_FW → t.reg a = s.reg a) ∧
  (∀ (s : State) (c k : Nat), s.fld Reg.SPARE_FW_STATE = 5 → s.fld Reg.SPARE_FW_CLUSTER = c →
    s.fld Reg.SPARE_FW_STEPS = k → k < 15 → (s.cluster c).spare < 17 →
    ∃ t, exec .kernelRotationStep s = .next t ∧ t.fld Reg.SPARE_FW_STEPS = k + 1 ∧
      (t.cluster c).phys k = (s.cluster c).spare ∧ (t.cluster c).spare = (s.cluster c).phys k ∧
      (t.cluster c).takeovers = min 255 ((s.cluster c).takeovers + 1) ∧ t.fld Reg.SPARE_LAST_CAUSE = 4 ∧
      t.fld Reg.SPARE_CNT_TAKEOVERS = min (s.fld Reg.SPARE_CNT_TAKEOVERS + 1) 65535) ∧
  (∀ (s : State) (c : Nat), s.fld Reg.SPARE_FW_STATE = 5 → s.fld Reg.SPARE_FW_CLUSTER = c → c < 15 →
    s.fld Reg.SPARE_FW_STEPS = 15 → (s.cluster c).spare < 17 →
    ∃ t, exec .kernelRotationStep s = .next t ∧ t.fld Reg.SPARE_FW_STEPS = 0 ∧ t.fld Reg.SPARE_FW_CLUSTER = c + 1 ∧
      t.fld Reg.SPARE_FW_STATE = 5 ∧ (t.cluster c).oldKernel = false) ∧
  (∀ (s : State) (cause : Nat), s.flag Reg.SPARE_PSUP_STANDBY_OK → s.flag Reg.SPARE_PSUP_TAKEOVER = false →
    s.st ≠ stAsleep →
    ∃ t, exec (.supervisorTakeover cause false) s = .next t ∧ t.fld Reg.SPARE_PSUP_TAKEOVER = 1 ∧
      t.spare.faultedAt = s.now ∧ t.fld Reg.SPARE_PSUP_ACTIVE = s.fld Reg.SPARE_PSUP_ACTIVE ∧
      t.spare.switch = none ∧ t.st = s.st) ∧
  (∀ (s : State), s.flag Reg.SPARE_PSUP_TAKEOVER → s.spare.faultedAt + 500000 ≤ s.now →
    s.pairTick.fld Reg.SPARE_PSUP_TAKEOVER = 0 ∧
      s.pairTick.fld Reg.SPARE_PSUP_ACTIVE = 1 - s.fld Reg.SPARE_PSUP_ACTIVE ∧
      s.pairTick.fld Reg.SPARE_PSUP_STANDBY_OK = 0 ∧ s.pairTick.spare.testing ∧
      s.pairTick.fld Reg.SPARE_PSUP_TAKEOVERS = min (s.fld Reg.SPARE_PSUP_TAKEOVERS + 1) 255 ∧
      s.pairTick.fld Reg.SPARE_EVENTS_PAIR = 1) ∧
  (∀ (s : State) (cause : Nat), s.flag Reg.SPARE_PSUP_STANDBY_OK → s.flag Reg.SPARE_PSUP_TAKEOVER = false →
    s.st = stAsleep →
    ∃ t, exec (.supervisorTakeover cause false) s = .next t ∧ t.pwr.owed ∧
      t.fld Reg.SPARE_PSUP_ACTIVE = s.fld Reg.SPARE_PSUP_ACTIVE ∧
      (s.flag Reg.PWR_STATUS_ENTERING = false → t.fld Reg.PWR_STATUS_WAKING = 1)) ∧
  (∀ (s : State) (cause : Nat), s.flag Reg.SPARE_PSUP_STANDBY_OK = false → s.flag Reg.SPARE_PSUP_TAKEOVER = false →
    s.st ≠ stBooting →
    ∃ t, exec (.supervisorTakeover cause false) s = .next t ∧ t.st = stHalted ∧ t.cmd.executing = [] ∧
      ∀ k, k < 48 → (t.board k).high = false) ∧
  (∀ (s : State) (cause : Nat), s.flag Reg.SPARE_PSUP_STANDBY_OK → s.flag Reg.SPARE_PSUP_TAKEOVER = false →
    ∃ t, exec (.supervisorTakeover cause true) s = .next t ∧ t.fld Reg.SPARE_PSUP_STANDBY_OK = 0 ∧ t.spare.testing ∧
      t.fld Reg.SPARE_PSUP_ACTIVE = s.fld Reg.SPARE_PSUP_ACTIVE ∧ t.st = s.st) ∧
  (∀ (s : State) (cause : Nat), s.flag Reg.SPARE_PSUP_STANDBY_OK → s.flag Reg.SPARE_PSUP_TAKEOVER → s.st ≠ stBooting →
    ∃ t, exec (.supervisorTakeover cause true) s = .next t ∧ t.st = stHalted ∧ t.cmd.executing = []) ∧
  (∀ (s : State), s.spare.testing →
    ∃ t, exec (.faultedPairTestDone true) s = .next t ∧ t.spare.testing = false ∧
      t.fld Reg.SPARE_PSUP_STANDBY_OK = 1 ∧
      t.fld Reg.SPARE_PSUP_TRANSIENT = min (s.fld Reg.SPARE_PSUP_TRANSIENT + 1) 255 ∧
      ∀ a, a ≠ Reg.SPARE_PSUP → t.reg a = s.reg a) ∧
  (∀ (s : State), s.spare.testing →
    ∃ t, exec (.faultedPairTestDone false) s = .next t ∧ t.spare.testing = false ∧ t.regs = s.regs)

/-- Spare engines, calibration and the fault log (R374, R375, R380 to R383): SPARE_STATUS, SPARE_TAKEOVER, CAL_RUN,
CAL_READ, CAL_STORE_PERIODIC, FAULT_LOG_READ, FAULT_LOG_COPY. -/
def Obligations.ServiceCommandsComplete : Prop :=
  (∀ (s : State) (rq : Rq), s.ready rq 0x0502 →
    ∃ t, exec (.spareStatus rq) s = .next t ∧
      t.answered rq 0x0502 scDone ((List.range 16).flatMap fun c => leBytes 4 (s.spareWord c)) ∧
      ∀ a, a ∉ answerRegs → t.reg a = s.reg a) ∧
  (∀ (s : State) (e cause : Nat), e < 256 → (s.cluster (e / 16)).vacant.contains (e % 16) = false →
    (s.cluster (e / 16)).spare < 17 → s.rotating (e / 16) = false → cause < 4 →
    ∃ t, exec (.spareTakeover e cause false) s = .next t ∧
      (t.cluster (e / 16)).phys (e % 16) = (s.cluster (e / 16)).spare ∧ (t.cluster (e / 16)).spare = 31 ∧
      (t.cluster (e / 16)).failed = (s.cluster (e / 16)).failed ++ [(s.cluster (e / 16)).phys (e % 16)] ∧
      (t.cluster (e / 16)).vacant = (s.cluster (e / 16)).vacant ∧ t.fld Reg.SPARE_LAST_CLUSTER = e / 16 ∧
      t.fld Reg.SPARE_LAST_SLOT = e % 16 ∧ t.fld Reg.SPARE_LAST_CAUSE = cause ∧ t.fld Reg.SPARE_EVENTS_TAKEOVER = 1) ∧
  (∀ (s : State) (e cause : Nat), e < 256 → (s.cluster (e / 16)).vacant.contains (e % 16) = false →
    17 ≤ (s.cluster (e / 16)).spare →
    ∃ t, exec (.spareTakeover e cause false) s = .next t ∧
      (t.cluster (e / 16)).vacant = (s.cluster (e / 16)).vacant ++ [e % 16] ∧ t.fld Reg.SPARE_EVENTS_EXHAUSTED = 1) ∧
  (∀ (s : State) (rq : Rq) (kind n : Nat), s.ready rq 0x0503 → kind = 0x20 ∨ kind = 0x21 → n < 24 → s.capOn n →
    (s.cam n).run = none →
    ∃ t, exec (.calRun rq kind n) s = .next t ∧ t.unanswered rq 0x0503 ∧
      t.cam n = { s.cam n with run := some { kind := kind, sess := rq.sess, tag := rq.tag } }) ∧
  (∀ (s : State) (rq : Rq) (code : Nat), s.ready rq 0x0503 → s.leads → code ≤ 5 →
    ∃ t, exec (.calRun rq 0x50 code) s = .next t ∧ t.answered rq 0x0503 scDone [] ∧
      t.calContent 0x50 0 = some [code]) ∧
  (∀ (s : State) (rq : Rq) (kind inst start : Nat) (c : CalCopy), s.ready rq 0x0504 → calKnown kind inst →
    s.calNewest kind inst = some c →
    ∃ t, exec (.calRead rq kind inst start) s = .next t ∧
      t.answered rq 0x0504 scDone (((calRecord kind inst c).drop start).take 4080)
        (decide (4080 < ((calRecord kind inst c).drop start).length)) ∧
      t.calPair kind inst = ⟨c, c⟩) ∧
  (∀ (s : State), s.st = stPrinting →
    ∃ t, exec .calStorePeriodic s = .next t ∧ t.st = stPrinting ∧ ∀ n, n < 24 → (t.cam n).paperDirty = false) ∧
  (∀ (s : State), s.st ≠ stPrinting → exec .calStorePeriodic s = .next s) ∧
  (∀ (s : State) (rq : Rq) (first : Nat), s.ready rq 0x0505 →
    ∃ t p more, exec (.faultLogRead rq first) s = .next t ∧ t.answered rq 0x0505 scDone p more ∧ t.log = s.log ∧
      p = ((s.log.entries.filter fun e => decide (first ≤ e.num)).take 127).flatMap LogEntry.bytes ∧
      more = decide (127 < (s.log.entries.filter fun e => decide (first ≤ e.num)).length)) ∧
  (∀ (s : State), ∃ t, exec .faultLogCopy s = .next t ∧
    t.log.copy = s.log.entries.drop (s.log.entries.length - 1024) ∧ t.log.entries = s.log.entries ∧ t.regs = s.regs)

/-- The monitors (R384 to R387): MONITOR_SAMPLE, MONITOR_WINDOW_END, MONITOR_CONFIG_WRITE, MON_SNAPSHOT_EVENT,
MON_RESTART, MON_SNAPSHOT, MON_BINS_LOAD. -/
def Obligations.MonitorCommandsComplete : Prop :=
  (∀ (s : State) (m : Nat) (v w : Int), m < 64 → s.flag (Reg.MON_STATUS_RUNNING m) →
    s.fld (Reg.MON_CFG_WIN_MODE m) ≠ 1 → w = s.monTaken m v → -2 ^ 31 ≤ w → w < 2 ^ 31 →
    -2 ^ 63 ≤ (s.mon m).acc.sum + w → (s.mon m).acc.sum + w < 2 ^ 63 →
    ∃ t, exec (.monitorSample m v) s = .next t ∧ (t.mon m).acc.min = min (s.mon m).acc.min w ∧
      (t.mon m).acc.max = max (s.mon m).acc.max w ∧ (t.mon m).acc.sum = (s.mon m).acc.sum + w ∧
      (t.mon m).acc.count = min ((s.mon m).acc.count + 1) (idxMod - 1) ∧
      tabGet 0 (t.mon m).acc.bins (binOf (s.mon m).edges w) =
        min (tabGet 0 (s.mon m).acc.bins (binOf (s.mon m).edges w) + 1) (idxMod - 1) ∧
      (∀ i, i ≠ binOf (s.mon m).edges w → tabGet 0 (t.mon m).acc.bins i = tabGet 0 (s.mon m).acc.bins i) ∧
      (t.mon m).held = (s.mon m).held ∧ t.regs = s.regs) ∧
  (∀ (s : State) (m : Nat) (v : Int), m < 64 → s.flag (Reg.MON_STATUS_RUNNING m) →
    s.fld (Reg.MON_CFG_WIN_MODE m) = 1 → (s.mon m).acc.count + 1 = s.monLen m → s.monLen m < idxMod →
    ∃ t, exec (.monitorSample m v) s = .next t ∧ (t.mon m).acc = {} ∧ (t.mon m).held.count = s.monLen m ∧
      t.fld (Reg.MON_STATUS_WINDOWS m) = (s.fld (Reg.MON_STATUS_WINDOWS m) + 1) % 65536) ∧
  (∀ (s : State) (m : Nat), m < 64 → s.flag (Reg.MON_STATUS_RUNNING m) → s.monOver m →
    ∃ t, exec (.monitorWindowEnd m) s = .next t ∧ (t.mon m).held = (s.mon m).acc ∧ (t.mon m).acc = {} ∧
      (t.mon m).since = s.now ∧ t.fld (Reg.MON_STATUS_WINDOWS m) = (s.fld (Reg.MON_STATUS_WINDOWS m) + 1) % 65536 ∧
      t.fld (Reg.MON_STATUS_SUM_SAT m) = 0) ∧
  (∀ (s : State) (m : Nat) (v : Word), m < 64 → s.awake →
    ∃ t, exec (.monitorConfigWrite m 1 v) s = .next t ∧ t.reg (Reg.MON_WIN m) = v ∧ (t.mon m).acc = {} ∧
      t.flag (Reg.MON_STATUS_RUNNING m) = (s.flag (Reg.MON_CFG_ENABLE m) && s.flag (Reg.MON_CFG_SOURCE m)) ∧
      ∀ a, a ≠ Reg.MON_WIN m → a ≠ Reg.MON_STATUS m → t.reg a = s.reg a) ∧
  (∀ (s : State), ∃ t, exec .monSnapshotEvent s = .next t ∧ (t.cons 75).busy = false ∧ t.regs = s.regs ∧
    ∀ m, m < 64 → (t.mon m).held =
      if s.flag (Reg.MON_CFG_TRIG_SNAP m) then (s.mon m).acc else (s.mon m).held) ∧
  (∀ (s : State), ∃ t, exec .monRestart s = .next t ∧ (t.cons 76).busy = false ∧
    ∀ m, m < 64 → (t.mon m).acc = if s.flag (Reg.MON_CFG_TRIG_RESTART m) then {} else (s.mon m).acc) ∧
  (∀ (s : State) (rq : Rq) (mask start : Nat) (b : List Byte), s.ready rq 0x0601 → start < 64 →
    b = ((List.range 64).filter fun m => bitAt mask m && decide (start ≤ m)).flatMap (fun m =>
      (if s.fld (Reg.MON_CFG_WIN_MODE m) == 0 && !s.flag (Reg.MON_CFG_TRIG_SNAP m) then (s.mon m).acc
        else (s.mon m).held).bytes) →
    ∃ t, exec (.monSnapshot rq mask start) s = .next t ∧
      t.answered rq 0x0601 scDone (if 4080 < b.length then b.take 3996 else b) (decide (4080 < b.length))) ∧
  (∀ (s : State) (rq : Rq) (c : Chunk) (tb : List Byte), s.ready rq 0x0600 → c.inst < 64 →
    judgeChunk false (s.staged 0x0600 c.inst) c = .whole tb → binsBad tb = none →
    ∃ t, exec (.monBinsLoad rq c) s = .next t ∧
      t.answered rq 0x0600 scDone (leBytes 4 tb.length ++ leBytes 4 (crc32c tb)) ∧
      t.mon c.inst = { s.mon c.inst with table := readEdges tb } ∧ t.fld (Reg.MON_STATUS_BINS_PEND c.inst) = 1)

/-- The check units (R324 to R328): CHK_FEED, CHK_CHECK, CHK_RESET, CHK_DATA_WRITE. -/
def Obligations.CheckCommandsComplete : Prop :=
  (∀ (s : State) (u : Nat) (v : Word), s.awake → ∃ t, exec (.chkFeed u v) s = .next t ∧ t.regs = s.regs ∧
    (t.chkUnit u).value = (feedBytes (s.fld (Reg.CHK_CTRL_FEED u)) v).foldl
      (chkStep (s.chkWidth u) ((s.chkUnit u).poly % 2 ^ s.chkWidth u) (s.flag (Reg.CHK_CTRL_REFIN u)))
      (s.chkUnit u).value ∧
    (t.chkUnit u).count =
      ((s.chkUnit u).count + (feedBytes (s.fld (Reg.CHK_CTRL_FEED u)) v).length) % idxMod ∧
    (t.chkUnit u).init = (s.chkUnit u).init ∧ (t.chkUnit u).expect = (s.chkUnit u).expect) ∧
  (∀ (s : State) (u : Nat), s.awake → u < 32 → s.chkResult u (s.chkUnit u).value = (s.chkUnit u).expect % 2 ^ s.chkWidth u →
    ∃ t, exec (.chkCheck u) s = .next t ∧ t.fld (Reg.CHK_CTRL_MATCH u) = 1 ∧
      t.fld (Reg.CHK_CTRL_MISMATCH u) = s.fld (Reg.CHK_CTRL_MISMATCH u) ∧ t.chk = s.chk ∧ t.evt = s.evt) ∧
  (∀ (s : State) (u : Nat), s.awake → u < 32 → s.chkResult u (s.chkUnit u).value ≠ (s.chkUnit u).expect % 2 ^ s.chkWidth u →
    ∃ t, exec (.chkCheck u) s = .next t ∧ t.fld (Reg.CHK_CTRL_MATCH u) = 0 ∧ t.fld (Reg.CHK_CTRL_MISMATCH u) = 1 ∧
      t.chk = s.chk ∧ t.evt.waiting.any (fun w => w.prod == 55)) ∧
  (∀ (s : State) (u : Nat), s.awake → ∃ t, exec (.chkReset u) s = .next t ∧ t.regs = s.regs ∧
    t.chkUnit u = { s.chkUnit u with value := (s.chkUnit u).init % 2 ^ s.chkWidth u, count := 0 }) ∧
  (∀ (s : State) (u : Nat) (v : Word), s.awake → u < 32 → s.fld (Reg.CHK_CTRL_WIDTH u) = 64 →
    s.fld (Reg.CHK_IDX_INDEX u) ≤ 9 ∨ s.fld (Reg.CHK_IDX_INDEX u) = 12 →
    s.fld (Reg.CHK_CTRL_USERS u) = 0 ∨ 6 ≤ s.fld (Reg.CHK_IDX_INDEX u) →
    ∃ t, exec (.chkDataWrite u v) s = .next t ∧ t.chkWord u (s.fld (Reg.CHK_IDX_INDEX u)) = v.toNat ∧
      t.fld (Reg.CHK_IDX_INDEX u) = (s.fld (Reg.CHK_IDX_INDEX u) + 1) % 16 ∧
      ∀ a, a ≠ Reg.CHK_IDX u → t.reg a = s.reg a) ∧
  (∀ (s : State) (u : Nat) (v : Word), s.awake → u < 32 → s.fld (Reg.CHK_IDX_INDEX u) < 6 → s.fld (Reg.CHK_CTRL_USERS u) ≠ 0 →
    ∃ t, exec (.chkDataWrite u v) s = .next t ∧ t.chk = s.chk ∧ t.fld (Reg.CHK_CTRL_COLLIDE u) = 1 ∧
      t.fld (Reg.CHK_IDX_INDEX u) = (s.fld (Reg.CHK_IDX_INDEX u) + 1) % 16)

/-- The Spinning Top (R37 to R42, R48): PACE_INTERVAL, FIT_RETURN, TJ_OVER, TJ_OVER_END, VCORE_LOW. -/
def Obligations.PaceCommandsComplete : Prop :=
  (∀ (s : State) (m : PaceMeas), s.awake → s.st ≠ stBooting → s.fld Reg.PACE_CTRL_MODE = 0 →
    ∃ t, exec (.paceInterval m) s = .next t ∧ t.fld Reg.PACE_STATUS_TARGET_MV = 900 ∧
      t.fld Reg.PACE_STATUS_MODE_ACT = 0 ∧ t.fld Reg.PACE_STATUS_FIT_HOLD = 0 ∧
      t.fld Reg.PACE_STATUS_AT_CAP = 1 ∧ t.fld Reg.PACE_STATUS_AT_FLOOR = 1 ∧
      t.fld Reg.PACE_MEAS_VCORE_MV = min 1023 (s.slewed m.vcore) ∧ t.fldI Reg.PACE_MEAS_TJ_C = clampInt (-128) 127 m.tj) ∧
  (∀ (s : State) (m : PaceMeas) (mode : Nat) (need easy hold : Bool), s.awake → s.st ≠ stBooting →
    s.fld Reg.PACE_CTRL_MODE = mode → mode = 1 ∨ mode = 2 → m.speeds = [] →
    need = ((s.lowFill.any fun f => decide (f < s.fld Reg.PACE_SLACK_CONC_TARGET)) ||
      decide (s.fld Reg.PACE_SLACK_CAPFILL_MAX < s.highCapture)) →
    easy = ((s.lowFill.all fun f =>
        decide (s.fld Reg.PACE_SLACK_CONC_TARGET + s.fld Reg.PACE_SLACK_CONC_TARGET / 4 ≤ f)) &&
      decide (s.highCapture + 10 ≤ s.fld Reg.PACE_SLACK_CAPFILL_MAX)) →
    hold = (decide (mode = 2) && (s.flag Reg.PACE_STATUS_FIT_HOLD || s.rateOver)) →
    ∃ t, exec (.paceInterval m) s = .next t ∧
      t.fld Reg.PACE_STATUS_TARGET_MV = paceTarget (s.fld Reg.PACE_STATUS_TARGET_MV) mode (if mode = 1 then 720 else 660)
        (s.fld Reg.PACE_LIMIT_VCAP_MV) (s.fld Reg.PACE_LOOP_STEP_MV) s.loopSpeed need easy hold % 1024 ∧
      t.flag Reg.PACE_STATUS_NEED = need ∧ t.flag Reg.PACE_STATUS_FIT_HOLD = hold ∧
      t.fld Reg.PACE_STATUS_MODE_ACT = mode) ∧
  (∀ (s : State) (m : PaceMeas), s.awake → s.st = stBooting →
    ∃ t, exec (.paceInterval m) s = .next t ∧
      t.fld Reg.PACE_STATUS_TARGET_MV = s.fld Reg.PACE_STATUS_TARGET_MV ∧
      t.fld Reg.PACE_MEAS_VCORE_MV = min 1023 (s.slewed m.vcore)) ∧
  (∀ (s : State) (m : PaceMeas), s.awake = false → exec (.paceInterval m) s = .next s) ∧
  (∀ (s : State), s.rateWithin →
    ∃ t, exec .fitReturn s = .next t ∧ t.fld Reg.PACE_STATUS_FIT_HOLD = 0 ∧
      ∀ a, a ≠ Reg.PACE_STATUS → t.reg a = s.reg a) ∧
  (∀ (s : State), s.rateOver → exec .fitReturn s = .next s) ∧
  (∀ (s : State) (tj : Int), 105 < tj → s.flag Reg.PACE_STATUS_TJ_OVER = false →
    ∃ t, exec (.tjOver tj) s = .next t ∧ t.fld Reg.PACE_STATUS_TJ_OVER = 1 ∧ t.fld Reg.PACE_EVENTS_TJ_OVER = 1 ∧
      bitAt (t.fld Reg.PLAT_STATE_COND) 4 = true ∧ bitAt (t.fld Reg.PLAT_COND_SEEN_SEEN) 4 = true ∧
      t.fldI Reg.PACE_MEAS_TJ_C = min 127 tj) ∧
  (∀ (s : State) (tj : Int), tj ≤ 105 ∨ s.flag Reg.PACE_STATUS_TJ_OVER → exec (.tjOver tj) s = .next s) ∧
  (∀ (s : State) (tj : Int), tj ≤ 105 →
    ∃ t, exec (.tjOverEnd tj) s = .next t ∧ t.fld Reg.PACE_STATUS_TJ_OVER = 0 ∧
      bitAt (t.fld Reg.PLAT_STATE_COND) 4 = (s.pwr.vlow && bitAt (s.fld Reg.PLAT_STATE_COND) 4) ∧
      t.fld Reg.PLAT_COND_SEEN_SEEN = s.fld Reg.PLAT_COND_SEEN_SEEN) ∧
  (∀ (s : State) (tj : Int), 105 < tj → exec (.tjOverEnd tj) s = .next s) ∧
  (∀ (s : State), ∃ t, exec .vcoreLow s = .next t ∧ t.fld Reg.PACE_EVENTS_VCORE_LOW = 1 ∧ t.pwr.vlow ∧
    bitAt (t.fld Reg.PLAT_STATE_COND) 4 = true ∧ bitAt (t.fld Reg.PLAT_COND_SEEN_SEEN) 4 = true)

/-- Device memory's accesses (R304, R310, R314, R317 to R323): MEMORY_ACCESS, SCRUB_READ, MEM_INJECT, MEM_DET_WRITE,
THROTTLE_RELEASE. A corrected word is written back at the next tick, which the clause on `backsTick` states. -/
def Obligations.MemoryCommandsComplete : Prop :=
  (∀ (s : State) (a i : Nat) (b : List Byte), b ≠ [] → a + b.length ≤ memSize → i < 8 → s.awake →
    s.startsAccess (s.chanOf a) i (bankOf (placeOf a)) → s.dram.errs = [] → s.dram.poison = [] →
    ∃ t, exec (.memoryAccess { addr := a, input := i, len := 0, write := some b }) s = .next t ∧
      memGet t.mem a b.length = b ∧ ∀ x, x < a ∨ a + b.length ≤ x → memByte t.mem x = memByte s.mem x) ∧
  (∀ (s : State) (a i n : Nat), 0 < n → a + n ≤ memSize → i < 8 → s.awake →
    s.startsAccess (s.chanOf (s.servedAt a)) i (bankOf (placeOf (s.servedAt a))) → s.dram.errs = [] →
    s.dram.poison = [] →
    ∃ t, exec (.memoryAccess { addr := a, input := i, len := n }) s = .next t ∧ t.mem = s.mem ∧ t.dram.errs = [] ∧
      t.dram.poison = []) ∧
  (∀ (s : State) (w i : Nat) (e : Nat × Nat), 16 * w + 16 ≤ memSize → s.chanOf (16 * w) < 64 → i < 8 → s.awake →
    s.servedAt (16 * w) = 16 * w → s.startsAccess (s.chanOf (16 * w)) i (bankOf (placeOf (16 * w))) →
    s.wordErrs w = [e] → tabGet false s.dram.poison w = false →
    ∃ t, exec (.memoryAccess { addr := 16 * w, input := i, len := 16 }) s = .next t ∧ t.mem = s.mem ∧
      t.dram.backs = s.dram.backs ++ [(w, none)] ∧
      t.fld Reg.MEM_CNT_CE_COUNT = min (s.fld Reg.MEM_CNT_CE_COUNT + 1) (idxMod - 1) ∧
      t.fld (Reg.MEM_CH_STATUS_CE (s.chanOf (16 * w))) =
        min (s.fld (Reg.MEM_CH_STATUS_CE (s.chanOf (16 * w))) + 1) 65535) ∧
  (∀ (s : State) (w : Nat), s.dram.backs = [(w, none)] →
    s.backsTick.wordErrs w = [] ∧ s.backsTick.dram.backs = [] ∧ s.backsTick.mem = s.mem) ∧
  (∀ (s : State) (w i : Nat), 16 * w + 16 ≤ memSize → s.chanOf (16 * w) < 64 → i < 8 → s.awake →
    s.servedAt (16 * w) = 16 * w → s.startsAccess (s.chanOf (16 * w)) i (bankOf (placeOf (16 * w))) →
    tabGet false s.dram.poison w = true →
    ∃ t, exec (.memoryAccess { addr := 16 * w, input := i, len := 16 }) s = .next t ∧ t.mem = s.mem ∧
      t.fld Reg.MEM_CNT_UE_UE = min (s.fld Reg.MEM_CNT_UE_UE + 1) 65535 ∧ t.fld Reg.MEM_EVENTS_UE = 1 ∧
      t.fld Reg.MEM_UE_HI_VALID = 1) ∧
  (∀ (s : State) (x : MemAccess),
    s.startsAccess (s.chanOf (if x.write.isSome then x.addr else s.servedAt x.addr)) x.input
      (bankOf (placeOf (if x.write.isSome then x.addr else s.servedAt x.addr))) = false →
    exec (.memoryAccess x) s = .next s) ∧
  (∀ (s : State), s.awake → s.scrubDue → s.wordErrs s.dram.scrub = [] → tabGet false s.dram.poison s.dram.scrub = false →
    s.dram.scrub + 1 < idxMod →
    ∃ t, exec .scrubRead s = .next t ∧ t.dram.scrub = s.dram.scrub + 1 ∧ t.mem = s.mem ∧
      t.fld Reg.MEM_SCRUB_PCT = 100 * (s.dram.scrub + 1) / idxMod ∧
      t.fld Reg.MEM_SCRUB_PASSES = s.fld Reg.MEM_SCRUB_PASSES ∧
      (s.dram.scrub = 0 → t.dram.scrubFrom = s.now ∧ t.dram.scrubSecs = s.fld Reg.MEM_CTRL_SCRUB_S)) ∧
  (∀ (s : State), s.awake → s.scrubDue → s.wordErrs s.dram.scrub = [] → tabGet false s.dram.poison s.dram.scrub = false →
    s.dram.scrub + 1 = idxMod →
    ∃ t, exec .scrubRead s = .next t ∧ t.dram.scrub = 0 ∧ t.mem = s.mem ∧ t.fld Reg.MEM_SCRUB_PCT = 0 ∧
      t.fld Reg.MEM_SCRUB_PASSES = (s.fld Reg.MEM_SCRUB_PASSES + 1) % 65536) ∧
  (∀ (s : State) (v : Word), s.st = stService → wordBits v 23 19 ≤ 17 → wordBits v 18 14 ≤ 17 → wordBits v 30 30 = 0 →
    ∃ t, exec (.memInject v) s = .next t ∧ t.reg Reg.MEM_INJECT = setWordBits v 13 8 0 ∧
      ∀ a, a ≠ Reg.MEM_INJECT → t.reg a = s.reg a) ∧
  (∀ (s : State) (d : Nat), s.layoutOpen → 1 ≤ d → d ≤ 8 →
    firstBroken (readsAny [Reg.MEM_DET]) [Reg.MEM_DET] (s.setFld Reg.MEM_DET_D d) = none →
    ∃ t, exec (.memDetWrite d) s = .next t ∧ t.fld Reg.MEM_DET_D = d ∧
      ∀ c, c < 64 → t.flag (Reg.MEM_CH_STATUS_DET c) = (decide (4 ≤ c % 16) && decide (c % 16 < 4 + d))) ∧
  (∀ (s : State) (c : Nat) (e : Nat × Nat × Nat), c < 64 → s.dram.throttled = [e] → e.1 = c → e.2.2 ≤ s.now →
    s.dram.targets = [] →
    ∃ t, exec (.throttleRelease c) s = .next t ∧ t.dram.throttled = [] ∧ t.fld (Reg.ARB_M_THROTTLE c) = 0 ∧
      ∀ a, a ≠ Reg.ARB_M c → t.reg a = s.reg a)

/-- Device memory's maintenance and temperature (R310 to R315): DET_REFRESH, BANK_REFRESH, SELF_REFRESH_ENTRY,
IMPEDANCE_CAL, RETRAINING, STACK_EMERGENCY, STACK_EMERGENCY_END. -/
def Obligations.MaintenanceCommandsComplete : Prop :=
  (∀ (s : State) (c : Nat), s.refreshing c → s.detCh c → s.quiet c → s.refreshDue c → tabGet 0 s.dram.steps c = 0 →
    ∃ t, exec (.detRefresh c) s = .next t ∧ t.fld (Reg.MEM_CH_STATUS_MAINT c) = 1 ∧
      tabGet 0 t.dram.busy c = s.now + 88 ∧ (∀ e ∈ t.dram.open_, e.1 / 128 ≠ c) ∧ t.mem = s.mem) ∧
  (∀ (s : State) (c n : Nat), s.refreshing c → s.detCh c → s.quiet c → s.refreshDue c → tabGet 0 s.dram.steps c = n + 1 →
    ∃ t, exec (.detRefresh c) s = .next t ∧ t.fld (Reg.MEM_CH_STATUS_MAINT c) = 1 ∧
      tabGet 0 t.dram.busy c = s.now + 150 ∧ tabGet 0 t.dram.steps c = n ∧ (∀ e ∈ t.dram.open_, e.1 / 128 ≠ c)) ∧
  (∀ (s : State) (c b : Nat), s.refreshing c → s.detCh c = false → s.flag (Reg.MEM_CH_STATUS_SELFREF c) = false →
    s.spaced c → b < 128 →
    ∃ t, exec (.bankRefresh c b) s = .next t ∧ t.fld (Reg.MEM_CH_STATUS_MAINT c) = 1 ∧
      tabGet 0 t.dram.busy c = s.now + 50 ∧ tabGet none t.dram.bank c = some b ∧
      (∀ e ∈ t.dram.open_, e.1 / 128 ≠ c ∨ e.1 % 128 ≠ b) ∧
      ∀ e ∈ s.dram.open_, e.1 / 128 ≠ c ∨ e.1 % 128 ≠ b → e ∈ t.dram.open_) ∧
  (∀ (s : State) (c : Nat), c < 64 → s.detCh c = false → s.fld Reg.MEM_CTRL_IDLE_US ≠ 0 → s.quiet c → s.idle c →
    ∃ t, exec (.selfRefreshEntry c) s = .next t ∧ t.fld (Reg.MEM_CH_STATUS_SELFREF c) = 1 ∧
      (∀ e ∈ t.dram.open_, e.1 / 128 ≠ c) ∧ t.mem = s.mem ∧ ∀ a, a ≠ Reg.MEM_CH_STATUS c → t.reg a = s.reg a) ∧
  (∀ (s : State) (c : Nat), s.refreshing c → s.stackFree c → s.detCh c = false → s.spaced c →
    ∃ t, exec (.impedanceCal c) s = .next t ∧ t.fld (Reg.MEM_CH_STATUS_MAINT c) = 1 ∧
      tabGet 0 t.dram.busy c = s.now + 63 ∧ tabGet 0 t.dram.calEnd c = s.now + 63) ∧
  (∀ (s : State) (c : Nat), s.refreshing c → s.stackFree c → s.detCh c → tabGet 0 s.dram.steps c = 0 →
    ∃ t, exec (.impedanceCal c) s = .next t ∧ tabGet 0 t.dram.steps c = 1 ∧ t.regs = s.regs) ∧
  (∀ (s : State) (c : Nat), s.refreshing c → s.stackFree c → s.detCh c = false → s.spaced c →
    ∃ t, exec (.retraining c) s = .next t ∧ t.fld (Reg.MEM_CH_STATUS_MAINT c) = 1 ∧
      tabGet 0 t.dram.busy c = s.now + 500 ∧ tabGet 0 t.dram.calEnd c = s.now + 500) ∧
  (∀ (s : State) (c : Nat), s.refreshing c → s.stackFree c → s.detCh c → tabGet 0 s.dram.steps c = 0 →
    ∃ t, exec (.retraining c) s = .next t ∧ tabGet 0 t.dram.steps c = 16 ∧ t.regs = s.regs) ∧
  (∀ (s : State) (q : Nat) (temp : Int), q < 4 → 105 ≤ temp → bitAt (s.fld Reg.MEM_STATUS_EMERG) q = false →
    ∃ t, exec (.stackEmergency q temp) s = .next t ∧ bitAt (t.fld Reg.MEM_STATUS_EMERG) q = true ∧
      bitAt (t.fld Reg.MEM_STATUS_HOT) q = true ∧ t.fld Reg.MEM_EVENTS_EMERG = 1 ∧
      bitAt (t.fld Reg.PLAT_STATE_COND) 5 = true ∧ bitAt (t.fld Reg.PLAT_COND_SEEN_SEEN) 5 = true) ∧
  (∀ (s : State) (q : Nat) (temp : Int), q < 4 → temp ≤ 100 → bitAt (s.fld Reg.MEM_STATUS_EMERG) q = true →
    ∃ t, exec (.stackEmergencyEnd q temp) s = .next t ∧
      t.fld Reg.MEM_STATUS_EMERG = clearBitAt (s.fld Reg.MEM_STATUS_EMERG) q ∧
      (clearBitAt (s.fld Reg.MEM_STATUS_EMERG) q = 0 → bitAt (t.fld Reg.PLAT_STATE_COND) 5 = false) ∧
      bitAt (t.fld Reg.MEM_STATUS_HOT) q = decide (85 < temp))

/-- Lanes (R334 to R338): LANE_TARGET_WRITE, EQ_ADAPT, LANE_LOCK, LANE_LOCK_LOSS, LINK_READY, LINK_RATE_REQ,
LINK_RATE_ACK, RATE_REQ_TIMEOUT, LINK_ALIGN. -/
def Obligations.LaneCommandsComplete : Prop :=
  (∀ (s : State) (l : Nat), l < 96 → s.writable → s.awake → s.strapped l = false → s.laneSt l ≠ lnOff →
    ∃ t, exec (.laneTargetWrite l 0) s = .next t ∧ t.fld (Reg.LANE_CFG_TARGET l) = 0 ∧ t.laneSt l = lnOff ∧
      t.laneUp l = false ∧ t.fld (Reg.LANE_STATUS_LOCK l) = 0 ∧
      t.lane l = { txScr := (s.lane l).txScr, rxScr := (s.lane l).rxScr }) ∧
  (∀ (s : State) (l : Nat), l < 96 → s.writable → s.awake → s.strapped l = false → s.laneSt l = lnOff →
    ∃ t, exec (.laneTargetWrite l 3) s = .next t ∧ t.fld (Reg.LANE_CFG_TARGET l) = 3 ∧ t.laneSt l = lnActive ∧
      (t.lane l).kept = false) ∧
  (∀ (s : State) (l : Nat), l < 96 → s.writable → s.awake → s.strapped l = false → s.laneSt l = lnActive →
    ∃ t, exec (.laneTargetWrite l 1) s = .next t ∧ t.fld (Reg.LANE_CFG_TARGET l) = 1 ∧ t.laneSt l = lnDormant ∧
      t.laneUp l = false ∧ (t.lane l).kept ∧ ∃ w, Out.laneWord l 5 0 w ∈ t.outbox) ∧
  (∀ (s : State) (l : Nat), l < 96 → s.writable → s.awake → s.strapped l = false → s.laneSt l = lnActive → s.laneUp l →
    ∃ t, exec (.laneTargetWrite l 2) s = .next t ∧ t.fld (Reg.LANE_CFG_TARGET l) = 2 ∧ t.laneSt l = lnActive ∧
      (t.lane l).req = some 0 ∧ ∃ w, Out.laneWord l 3 0 w ∈ t.outbox) ∧
  (∀ (s : State) (l : Nat) (foms : List Nat), l < 96 → (s.laneGrp (l / 8)).phase ≠ 1 → s.laneSt l = lnActive →
    s.laneUp l = false → (s.lane l).kept = false →
    ∃ t, exec (.eqAdapt l foms) s = .next t ∧
      t.fld (Reg.LANE_STATUS_EQ l) = (bestOf ((foms.take 16).map (min 255))).1 ∧
      t.fld (Reg.LANE_STATUS_FOM l) = (bestOf ((foms.take 16).map (min 255))).2 ∧
      ∀ a, a ≠ Reg.LANE_STATUS l → t.reg a = s.reg a) ∧
  (∀ (s : State) (l : Nat) (foms : List Nat), l < 96 → (s.laneGrp (l / 8)).phase = 1 →
    s.fld (Reg.LANE_GRP_STATUS_LANE (l / 8)) = l % 8 →
    ∃ t, exec (.eqAdapt l foms) s = .next t ∧
      (t.laneGrp (l / 8)).adapted = some (bestOf ((foms.take 16).map (min 255))) ∧ t.regs = s.regs) ∧
  (∀ (s : State) (l : Nat) (foms : List Nat), l < 96 → (s.laneGrp (l / 8)).phase = 0 → s.laneUp l →
    ∃ t, exec (.eqAdapt l foms) s = .next t ∧ t.fld (Reg.LANE_STATUS_EQ l) = s.fld (Reg.LANE_STATUS_EQ l) ∧
      t.fld (Reg.LANE_STATUS_FOM l) = ((foms.take 16).map (min 255)).getD (s.fld (Reg.LANE_STATUS_EQ l)) 0) ∧
  (∀ (s : State) (l n : Nat) (bits : List Bool), l < 96 → lnTrickle ≤ s.laneSt l → s.fld (Reg.LANE_STATUS_LOCK l) = 0 →
    huntLock (bits.length + 1) 0 (s.lane l).rxScr (bits.map (s.flag (Reg.LANE_CFG_RX_INV l) != ·)) = some n →
    ∃ t, exec (.laneLock l bits) s = .next t ∧ t.fld (Reg.LANE_STATUS_LOCK l) = 1 ∧ (t.lane l).rxScr = n ∧
      t.outbox = s.outbox ++ [.laneWord l 1 0 (s.laneWords l [linkBlock 1 0])] ∧
      ∀ a, a ≠ Reg.LANE_STATUS l → t.reg a = s.reg a) ∧
  (∀ (s : State) (l n : Nat) (x : Lane) (words : List (BitVec 66)), l < 96 → s.flag (Reg.LANE_STATUS_LOCK l) →
    s.laneUp l → (s.lane l).takeWords (words.map (laneWire (s.flag (Reg.LANE_CFG_RX_INV l)))) = (x, n, true) →
    ∃ t, exec (.laneLockLoss l words) s = .next t ∧ t.fld (Reg.LANE_STATUS_LOCK l) = 0 ∧ t.laneUp l = false ∧
      t.fld (Reg.LANE_STATUS_HDR_ERR l) = min (s.fld (Reg.LANE_STATUS_HDR_ERR l) + n) 255 ∧
      t.fld (Reg.LANE_STATUS_LOSSES l) = min (s.fld (Reg.LANE_STATUS_LOSSES l) + 1) 15 ∧ t.laneSt l = s.laneSt l) ∧
  (∀ (s : State) (l n : Nat) (x : Lane) (words : List (BitVec 66)), l < 96 → s.flag (Reg.LANE_STATUS_LOCK l) →
    (s.lane l).takeWords (words.map (laneWire (s.flag (Reg.LANE_CFG_RX_INV l)))) = (x, n, false) →
    ∃ t, exec (.laneLockLoss l words) s = .next t ∧ t.lane l = x ∧ s.laneUp l = t.laneUp l ∧
      t.fld (Reg.LANE_STATUS_LOCK l) = 1 ∧
      t.fld (Reg.LANE_STATUS_HDR_ERR l) = min (s.fld (Reg.LANE_STATUS_HDR_ERR l) + n) 255 ∧
      ∀ a, a ≠ Reg.LANE_STATUS l → t.reg a = s.reg a) ∧
  (∀ (x : Lane) (words : List (BitVec 66)), x.invalid < 16 → (∀ w ∈ words, headerValid w) →
    (x.takeWords words).2.2 = false) ∧
  (∀ (s : State) (l : Nat) (blk : List Byte), l < 96 → s.flag (Reg.LANE_STATUS_LOCK l) → s.laneUp l = false →
    readControl blk = some (.link 1 0) →
    ∃ t, exec (.linkReady l blk) s = .next t ∧ t.laneUp l ∧ (t.lane l).kept = false ∧ t.laneSt l = s.laneSt l) ∧
  (∀ (s : State) (l : Nat) (blk : List Byte), l < 96 → s.flag (Reg.LANE_STATUS_LOCK l) → readControl blk = none →
    ∃ t, exec (.linkReady l blk) s = .next t ∧
      t.fld (Reg.LANE_STATUS_HDR_ERR l) = min (s.fld (Reg.LANE_STATUS_HDR_ERR l) + 1) 255 ∧ t.laneUp l = s.laneUp l ∧
      ∀ a, a ≠ Reg.LANE_STATUS l → t.reg a = s.reg a) ∧
  (∀ (s : State) (l : Nat) (blk : List Byte), l < 96 → s.flag (Reg.LANE_STATUS_LOCK l) → s.laneUp l →
    (s.lane l).req = none → readControl blk = some (.link 3 0) →
    ∃ t, exec (.linkRateReq l blk) s = .next t ∧ t.laneSt l = lnTrickle ∧ t.laneUp l ∧
      (∃ w, Out.laneWord l 4 0 w ∈ t.outbox) ∧ t.fld (Reg.LANE_STATUS_RATE_FAIL l) = 0) ∧
  (∀ (s : State) (l code : Nat) (blk : List Byte), l < 96 → s.flag (Reg.LANE_STATUS_LOCK l) → s.laneUp l →
    (s.lane l).req = none → 1 ≤ code → code < 6 → readControl blk = some (.link 3 code) →
    s.strapped l ∨ s.fld (Reg.LANE_CFG_RATE l) = code →
    ∃ t, exec (.linkRateReq l blk) s = .next t ∧ t.laneSt l = lnActive ∧ t.laneUp l ∧
      t.fld (Reg.LANE_CFG_RATE l) = code ∧ ∃ w, Out.laneWord l 4 code w ∈ t.outbox) ∧
  (∀ (s : State) (l code : Nat) (blk : List Byte), l < 96 → s.flag (Reg.LANE_STATUS_LOCK l) →
    (s.lane l).req = some code → readControl blk = some (.link 4 code) →
    ∃ t, exec (.linkRateAck l blk) s = .next t ∧ t.laneSt l = (if code = 0 then lnTrickle else lnActive) ∧
      (t.lane l).req = none ∧ t.fld (Reg.LANE_STATUS_RATE_FAIL l) = 0) ∧
  (∀ (s : State) (l code : Nat), l < 96 → (s.lane l).req = some code →
    ∃ t, exec (.rateReqTimeout l) s = .next t ∧ t.fld (Reg.LANE_STATUS_RATE_FAIL l) = 1 ∧ t.laneSt l = s.laneSt l ∧
      (t.lane l).req = none ∧ (t.lane l).retry = some (s.now + ticksOfMs 100, code) ∧ t.outbox = s.outbox) ∧
  (∀ (s : State) (l code : Nat) (x : Lane), s.lanes.lanes = [(l, x)] → x.retry = some (s.now, code) →
    (s.lanesTick.lane l).req = some code ∧ ∃ w, s.lanesTick.outbox = s.outbox ++ [Out.laneWord l 3 code w]) ∧
  (∀ (s : State) (l pos : Nat) (blk : List Byte), l < 96 → s.flag (Reg.LANE_STATUS_LOCK l) →
    2 ≤ s.fld (Reg.LANE_CFG_ROLE l) → readControl blk = some (.link 2 0) →
    ∃ t, exec (.linkAlign l blk pos) s = .next t ∧ (t.lane l).alignAt = some pos ∧ t.regs = s.regs ∧
      t.outbox = s.outbox)

/-- Takeovers of a lane by its group's spare (R339, R340): TAKEOVER_START, TAKEOVER_SWITCH, TAKEOVER_TIMEOUT,
TAKEOVER_RECAL_DONE. -/
def Obligations.TakeoverCommandsComplete : Prop :=
  (∀ (s : State) (g l : Nat), g < 12 → s.flag (Reg.LANE_GRP_CTRL_RECAL_EN g) → s.flag (Reg.LANE_GRP_STATUS_SPARE_OK g) →
    s.fld (Reg.LANE_GRP_STATUS_BUSY g) = 0 → s.recalDue g → s.nextServed g = some l →
    ∃ t, exec (.takeoverStart g) s = .next t ∧ t.fld (Reg.LANE_GRP_STATUS_BUSY g) = 1 ∧
      t.fld (Reg.LANE_GRP_STATUS_LANE g) = l % 8 ∧ (t.laneGrp g).phase = 1 ∧ (t.laneGrp g).served = some (l % 8) ∧
      (t.laneGrp g).started = s.now + 1) ∧
  (∀ (s : State) (g l eq fom : Nat), g < 12 → (s.laneGrp g).phase = 1 → (s.laneGrp g).adapted = some (eq, fom) →
    l = 8 * g + s.fld (Reg.LANE_GRP_STATUS_LANE g) →
    ∃ t, exec (.takeoverSwitch g true) s = .next t ∧ (t.laneGrp g).phase = 2 ∧
      (t.laneGrp g).old = s.fld (Reg.LANE_STATUS_XCVR l) ∧
      t.fld (Reg.LANE_STATUS_XCVR l) = s.fld (Reg.LANE_GRP_STATUS_SPARE_XCVR g) ∧
      t.fld (Reg.LANE_STATUS_EQ l) = eq % 16 ∧ t.fld (Reg.LANE_STATUS_FOM l) = fom % 256 ∧
      t.fld (Reg.LANE_GRP_STATUS_LAST_RESULT g) = 1 ∧
      t.fld (Reg.LANE_GRP_STATUS_SWITCHES g) = min (s.fld (Reg.LANE_GRP_STATUS_SWITCHES g) + 1) 65535) ∧
  (∀ (s : State) (g eq fom : Nat), g < 12 → (s.laneGrp g).phase = 1 → (s.laneGrp g).adapted = some (eq, fom) →
    ∃ t, exec (.takeoverSwitch g false) s = .next t ∧ (t.laneGrp g).phase = 0 ∧
      t.fld (Reg.LANE_GRP_STATUS_BUSY g) = 0 ∧ t.fld (Reg.LANE_GRP_STATUS_LAST_RESULT g) = 2 ∧
      t.fld (Reg.LANE_GRP_STATUS_FAILS g) = min (s.fld (Reg.LANE_GRP_STATUS_FAILS g) + 1) 63 ∧
      ∀ a, a ≠ Reg.LANE_GRP_STATUS g → t.reg a = s.reg a) ∧
  (∀ (s : State) (g : Nat), g < 12 → (s.laneGrp g).phase = 1 →
    ∃ t, exec (.takeoverTimeout g) s = .next t ∧ (t.laneGrp g).phase = 0 ∧ t.fld (Reg.LANE_GRP_STATUS_BUSY g) = 0 ∧
      t.fld (Reg.LANE_GRP_STATUS_LAST_RESULT g) = 2 ∧
      t.fld (Reg.LANE_GRP_STATUS_FAILS g) = min (s.fld (Reg.LANE_GRP_STATUS_FAILS g) + 1) 63 ∧
      ∀ a, a ≠ Reg.LANE_GRP_STATUS g → t.reg a = s.reg a) ∧
  (∀ (s : State) (g : Nat), g < 12 → (s.laneGrp g).phase = 2 →
    ∃ t, exec (.takeoverRecalDone g true) s = .next t ∧ (t.laneGrp g).phase = 0 ∧
      t.fld (Reg.LANE_GRP_STATUS_BUSY g) = 0 ∧ t.fld (Reg.LANE_GRP_STATUS_SPARE_XCVR g) = (s.laneGrp g).old % 8 ∧
      t.fld (Reg.LANE_GRP_STATUS_SPARE_OK g) = s.fld (Reg.LANE_GRP_STATUS_SPARE_OK g)) ∧
  (∀ (s : State) (g : Nat), g < 12 → (s.laneGrp g).phase = 2 →
    ∃ t, exec (.takeoverRecalDone g false) s = .next t ∧ (t.laneGrp g).phase = 0 ∧
      t.fld (Reg.LANE_GRP_STATUS_BUSY g) = 0 ∧ t.fld (Reg.LANE_GRP_STATUS_SPARE_XCVR g) = (s.laneGrp g).old % 8 ∧
      t.fld (Reg.LANE_GRP_STATUS_SPARE_OK g) = 0)

/-- The chain's membership and commands (R94, R356 to R361, R364, R368): CHAIN_STATUS, CHAIN_RESCAN, CHAIN_DISCOVERY,
TOKEN, LEADER, CONFIG, CMD, REPLY, CHAIN_CREDIT, CHAIN_LINK_LOSS, CHAIN_STANDBY_ENTRY. -/
def Obligations.ChainCommandsComplete : Prop :=
  (∀ (s : State) (rq : Rq), s.ready rq 0x0700 →
    ∃ t, exec (.chainStatus rq) s = .next t ∧ t.answered rq 0x0700 scDone s.chainReply ∧
      ∀ a, a ∉ answerRegs → t.reg a = s.reg a) ∧
  (∀ (s : State) (rq : Rq), s.ready rq 0x0701 → s.chainWidth = 0 →
    ∃ t, exec (.chainRescan rq) s = .next t ∧ t.answered rq 0x0701 scDone s.chainReply ∧
      ∀ a, a ∉ answerRegs → t.reg a = s.reg a) ∧
  (∀ (s : State) (rq : Rq), s.ready rq 0x0701 → s.chainWidth ≠ 0 →
    ∃ t, exec (.chainRescan rq) s = .next t ∧ t.answered rq 0x0701 scDone t.chainReply ∧ t.chain.discovered) ∧
  (∀ (s : State), s.mayDiscover = false → exec .chainDiscovery s = .next s) ∧
  (∀ (s : State), s.mayDiscover → s.laneUp 80 = false → s.laneUp 88 = false →
    ∃ t, exec .chainDiscovery s = .next t ∧ t.chain.discovered ∧ t.chain.mask = 2 ^ s.chainId ∧
      t.chain.leader = s.chainId ∧ t.chain.form = 1 ∧ t.chain.westEnd = s.chainId ∧ t.chain.eastEnd = s.chainId ∧
      t.chain.eastMembers = [] ∧ t.chain.westMembers = []) ∧
  (∀ (s : State) (b : List Byte) (p : ChainPkt), s.chainUp true → chainRead b = some p → p.level = s.level →
    p.type = 0x10 → leAt p.body 0 1 = s.chainId → ((tokenEntries p.body).headD {}).serial = s.serial →
    ∃ t, exec (.token true b) s = .next t ∧ t.chain.ring ∧ t.chain.eastMembers = (tokenEntries p.body).tail ∧
      t.chain.westMembers = (tokenEntries p.body).tail.reverse) ∧
  (∀ (s : State) (b : List Byte) (p : ChainPkt), s.chainUp false → chainRead b = some p → p.level = s.level →
    p.type = 0x10 → leAt p.body 0 1 = s.chainId → ((tokenEntries p.body).headD {}).serial = s.serial →
    ∃ t, exec (.token false b) s = .next t ∧ t.chain.westMembers = (tokenEntries p.body).tail ∧
      t.chain.eastMembers = (tokenEntries p.body).tail.reverse) ∧
  (∀ (s : State) (west : Bool) (b : List Byte) (p : ChainPkt), s.chainUp west → chainRead b = some p →
    p.level = s.level → p.type = 0x11 → p.src ≠ s.chainId → p.dst = 255 → s.chain.epoch ≤ leAt p.body 8 8 →
    bitAt (leAt p.body 2 1) s.chainId →
    ∃ t, exec (.leader west b) s = .next t ∧ t.chain.leader = leAt p.body 0 1 ∧ t.chain.form = leAt p.body 1 1 ∧
      t.chain.mask = leAt p.body 2 1 ∧ t.chain.westEnd = leAt p.body 4 1 ∧ t.chain.eastEnd = leAt p.body 5 1 ∧
      t.chain.epoch = leAt p.body 8 8) ∧
  (∀ (s : State) (west : Bool) (b : List Byte) (p : ChainPkt), s.chainUp west → chainRead b = some p →
    p.level = s.level → p.type = 0x14 → p.src = s.chain.leader → p.src ≠ s.chainId → p.dst = 255 →
    leAt p.body 4 4 = 0 → bitAt (leAt p.body 2 1) 0 →
    ∃ t, exec (.config west b) s = .next t ∧ t.chain.raised ∧ t.chain.record = [] ∧
      ∀ l, l < 96 → s.strapped l → t.fld (Reg.LANE_CFG_RATE l) = Config.chainRate (p.body.drop 12) % 6 ∧
        t.fld (Reg.LANE_CFG_TARGET l) = lnActive) ∧
  (∀ (s u : State) (west : Bool) (n : Nat) (b : List Byte) (p : ChainPkt), s.chainUp west → chainRead b = some p →
    p.level = s.level → p.type = 0x01 → p.dst = s.chainId →
    (p.body.drop 4).length = 16 + (headerOf (p.body.drop 4)).length → (headerOf (p.body.drop 4)).length ≤ 4080 →
    (headerOf (p.body.drop 4)).opcode ≠ 0x0031 ∨ (headerOf (p.body.drop 4)).tag ≠ 255 → leAt p.body 0 1 < 16 →
    (s.chainReturn west).forwardedSession p.src (leAt p.body 0 1) = some (n, u) → s.sound true (p.body.drop 4) →
    ∃ t, exec (.cmd west b) s = .next t ∧ t.cmd.queue = s.cmd.queue ++ [queuedOf n (p.body.drop 4)] ∧
      (t.session n).kind = .forwarded p.src (leAt p.body 0 1)) ∧
  (∀ (s : State) (west : Bool) (b : List Byte) (p : ChainPkt), s.chainUp west → chainRead b = some p →
    p.level = s.level → p.type = 0x01 → p.dst ≠ s.chainId → p.hops ≠ 7 → s.chainUp (!west) →
    (s.link (!west)).queue = [] → 0 < (s.link (!west)).credits →
    ∃ t, exec (.cmd west b) s = .next t ∧ t.cmd = s.cmd ∧ (t.link (!west)).credits = (s.link (!west)).credits - 1 ∧
      ∃ w v, t.outbox = s.outbox ++ [.chain west (chainPacket 0x20 (b2n west) s.chainId 255 0 7 s.level
          (16#8 :: List.replicate 15 0#8)) w,
        .chain (!west) (chainPacket 0x01 (leAt b 1 1 / 128) (leAt b 1 1) p.dst (p.hops + 1) (leAt b 3 1) p.level
          p.body) v]) ∧
  (∀ (s : State) (west : Bool) (b : List Byte) (p : ChainPkt) (f : Forwarded), s.chainUp west → chainRead b = some p →
    p.level = s.level → p.type = 0x02 → p.dst = s.chainId → s.chain.inFlight = [f] → f.dst = p.src →
    f.sess = leAt p.body 0 1 → f.tag = leAt (p.body.drop 4) 2 1 → f.from_ = none → s.slotOpen f.sess f.tag →
    ∃ t, exec (.reply west b) s = .next t ∧ t.chain.inFlight = [] ∧
      t.slotDone f.sess f.tag (leAt (p.body.drop 4) 6 1) ((p.body.drop 4).drop 16)) ∧
  (∀ (s : State) (west : Bool) (b : List Byte) (p : ChainPkt) (f : Forwarded) (ip port e hop : Nat), s.chainUp west →
    chainRead b = some p → p.level = s.level → p.type = 0x02 → p.dst = s.chainId → s.chain.inFlight = [f] →
    f.dst = p.src → f.sess = leAt p.body 0 1 → f.tag = leAt (p.body.drop 4) 2 1 → f.from_ = some (ip, port) →
    s.ethRoute ip = some (e, hop) →
    ∃ t, exec (.reply west b) s = .next t ∧ t.chain.inFlight = [] ∧ t.cmd = s.cmd ∧
      Out.datagram e hop ip port (p.body.drop 4) ∈ t.outbox) ∧
  (∀ (s : State) (west : Bool) (b : List Byte) (p : ChainPkt), s.chainUp west → chainRead b = some p →
    p.level = s.level → p.type = 0x20 → (s.link west).queue = [] →
    ∃ t, exec (.chainCredit west b) s = .next t ∧ (t.link west).credits = leAt p.body 0 1 ∧ t.outbox = s.outbox ∧
      t.regs = s.regs) ∧
  (∀ (s : State) (west : Bool), s.chainWidth ≠ 0 → s.chainUp west = false →
    ∃ t, exec (.chainLinkLoss west) s = .next t ∧ t.chain.ring = false ∧ t.chain.inFlight = [] ∧
      (if west then t.chain.westMembers else t.chain.eastMembers) = [] ∧ (t.link west).credits = 16 ∧
      (t.link west).queue = [] ∧ t.chain.form = 1) ∧
  (∀ (s : State), s.st = stBooting → s.fld Reg.PLAT_BOOT_STEP = 7 → s.chainWidth ≠ 0 → s.chain.discovered →
    s.chainReady → ∃ t, exec .chainStandbyEntry s = .next t ∧ t.st = stStandby ∧
      t.fld Reg.PLAT_STATE_PREV = stBooting)

/-- Ring time and the web position on the chain (R362, R363): RING_TIME_SEND, TIME, DELAY_REQ, DELAY_RESP,
POSITION_SEND, POSITION, POSITION_TIMEOUT. -/
def Obligations.RingCommandsOfChainComplete : Prop :=
  (∀ (s : State), s.chainWidth ≠ 0 → s.chain.leader = s.chainId → bitAt s.chain.mask s.chainId → s.chainUp true = false →
    s.chainUp false → (s.link false).queue = [] → 2 ≤ (s.link false).credits →
    ∃ t, exec .ringTimeSend s = .next t ∧ t.chain.timeSeq = (s.chain.timeSeq + 1) % 65536 ∧
      t.regs = s.regs ∧ ∃ w, t.outbox = s.outbox ++ [.chain false (chainPacket 0x12 0 s.chainId 255 0 6 s.level
        (stampBytes s.devTime ++ leBytes 2 (s.devTime.frac / 65536) ++ leBytes 8 0 ++ leBytes 2 s.chain.timeSeq ++
          List.replicate 10 0#8)) w]) ∧
  (∀ (s : State) (west : Bool) (b : List Byte) (p : ChainPkt), s.chainUp west → chainRead b = some p →
    p.level = s.level → p.type = 0x12 → p.src ≠ s.chainId → seqNew s.chain.timeSeen (leAt p.body 20 2) →
    s.chain.timeJoined = false →
    ∃ t, exec (.time west b) s = .next t ∧ t.chain.timeSeen = leAt p.body 20 2 + 1 ∧ t.chain.timeJoined ∧
      (t.link west).respStamps = none ∧ ∀ d, d < 2 → t.clock d = (s.clock d).withUnits (ringUnits
        (p.body.take 12 ++ leBytes 8 (unsignedOf 64 (signedOf 64 (leAt p.body 12 8) + (s.link west).delay)) ++
          p.body.drop 20))) ∧
  (∀ (s : State) (west : Bool) (b r : List Byte) (p : ChainPkt), s.chainUp west → chainRead b = some p →
    p.level = s.level → p.type = 0x30 → (s.link west).queue = [] → 3 ≤ (s.link west).credits →
    r = chainPacket 0x31 (b2n west) s.chainId 255 0 6 s.level (nsStamp s.devNs ++ List.replicate 6 0#8) →
    ∃ t, exec (.delayReq west b) s = .next t ∧
      ∃ w v u, t.outbox = s.outbox ++ [.chain west (chainPacket 0x20 (b2n west) s.chainId 255 0 7 s.level
        (16#8 :: List.replicate 15 0#8)) w, .chain west r v, .chain west r u]) ∧
  (∀ (s : State) (west : Bool) (b : List Byte) (p : ChainPkt), s.chainUp west → chainRead b = some p →
    p.level = s.level → p.type = 0x31 → (s.link west).respStamps = none →
    ∃ t, exec (.delayResp west b) s = .next t ∧ (t.link west).respStamps = some (stampNs p.body 0, s.devNs) ∧
      (t.link west).delay = (s.link west).delay) ∧
  (∀ (s : State) (west : Bool) (b : List Byte) (p : ChainPkt) (t2 t4 : Int), s.chainUp west → chainRead b = some p →
    p.level = s.level → p.type = 0x31 → (s.link west).respStamps = some (t2, t4) →
    ∃ t, exec (.delayResp west b) s = .next t ∧ (t.link west).respStamps = none ∧
      (t.link west).delay = ((t4 - (s.link west).reqStamp) - (stampNs p.body 0 - t2)) * 32768) ∧
  (∀ (s : State), s.chainWidth ≠ 0 → s.masterEnc.isSome → s.chainUp true = false → s.chainUp false →
    (s.link false).queue = [] → 2 ≤ (s.link false).credits →
    ∃ t, exec .positionSend s = .next t ∧ t.chain.posSeq = (s.chain.posSeq + 1) % 65536 ∧
      t.regs = s.regs ∧ ∃ w, t.outbox = s.outbox ++ [.chain false (chainPacket 0x13 0 s.chainId 255 0 7 s.level
        (leBytes 8 (unsignedOf 64 s.webPos) ++ leBytes 4 (unsignedOf 32 s.webSpeed) ++
          bytesOf [b2n (!s.posSuspect), 0] ++ leBytes 2 s.chain.posSeq ++ stampBytes s.devTime ++
          List.replicate 6 0#8)) w]) ∧
  (∀ (s : State) (west : Bool) (b : List Byte) (p : ChainPkt), s.chainUp west → chainRead b = some p →
    p.level = s.level → p.type = 0x13 → p.src ≠ s.chainId → seqNew s.chain.posSeen (leAt p.body 14 2) → s.posFromRing →
    ∃ t, exec (.position west b) s = .next t ∧ t.chain.posSeen = leAt p.body 14 2 + 1 ∧
      t.chain.pos = signedOf 64 (leAt p.body 0 8) ∧ t.chain.posSpeed = signedOf 32 (leAt p.body 8 4) ∧
      t.chain.posIntegrity = bitAt (leAt p.body 12 1) 0 ∧ t.chain.posFloor = s.chainPos ∧ t.chain.posLive ∧
      (p.src, s.now + 1) ∈ t.chain.origins) ∧
  (∀ (s : State), s.chain.posLive →
    ∃ t, exec .positionTimeout s = .next t ∧ t.chain.posLive = false ∧ t.chain.posIntegrity = false ∧
      t.chain.posFloor = s.chainPos ∧ t.chainPos = s.chainPos ∧ t.regs = s.regs)

/-- The ports (R344, R347 to R350): PCIE_RESET, PERST_RELEASE, MSIX_UNMASK, ETH_FRAME_RECEIVE, ETH_LINK_CHANGE. -/
def Obligations.PortCommandsComplete : Prop :=
  (∀ (s : State) (k : PcieReset), ∃ t, exec (.pcieReset k) s = .next t ∧ t.msix = {} ∧
    (∀ r, r < 4 → t.fld (Reg.CMD_CFG_ENABLE r) = 0) ∧ (t.recRing 0).placed = false ∧ (t.recRing 1).placed = false) ∧
  (∀ (s : State), ∃ t, exec (.pcieReset .flr) s = .next t ∧ t.fld Reg.PCIE_EVENTS_FLR = 1) ∧
  (∀ (s : State) (speed width : Nat), ∃ t, exec (.perstRelease speed width) s = .next t ∧
    t.fld Reg.PCIE_LINK_SPEED = speed % 8 ∧ t.fld Reg.PCIE_LINK_WIDTH = width % 32 ∧ t.fld Reg.PCIE_LINK_LPM = 0 ∧
    ∀ a, a ≠ Reg.PCIE_LINK → t.reg a = s.reg a) ∧
  (∀ (s : State) (v : Nat), v < 256 →
    ∃ t, exec (.msixUnmask v) s = .next t ∧ tabGet false t.msix.unmasked v = true ∧
      tabGet false t.msix.pend v = false ∧ t.regs = s.regs ∧
      t.outbox = s.outbox ++ (if tabGet false s.msix.pend v then [.msix v] else [])) ∧
  (∀ (s : State) (p : Nat) (f : EthFrame), p < 2 → s.ethOn p → f.fcsOk = false →
    ∃ t, exec (.ethFrameReceive p f) s = .next t ∧
      t.fld (Reg.ETH_CNT_ERR_FCS p) = min (s.fld (Reg.ETH_CNT_ERR_FCS p) + 1) 255 ∧ t.cmd = s.cmd ∧
      ∀ a, a ≠ Reg.ETH_CNT_ERR p → t.reg a = s.reg a) ∧
  (∀ (s : State) (p : Nat) (f : EthFrame), p < 2 → s.ethOn p → f.fcsOk → s.ethAccepts p f = false →
    ∃ t, exec (.ethFrameReceive p f) s = .next t ∧
      t.fld (Reg.ETH_CNT_ERR_DISCARD p) = min (s.fld (Reg.ETH_CNT_ERR_DISCARD p) + 1) 255 ∧ t.cmd = s.cmd ∧
      ∀ a, a ≠ Reg.ETH_CNT_ERR p → t.reg a = s.reg a) ∧
  (∀ (s : State) (p : Nat) (f : EthFrame), p < 2 → s.ethOn p → f.fcsOk → s.ethAccepts p f → f.fits →
    f.etherType = 0x0806 → s.fld (Reg.ETH_IP_IP p) ≠ 0 → f.dstIp = s.fld (Reg.ETH_IP_IP p) →
    ∃ t, exec (.ethFrameReceive p f) s = .next t ∧ t.outbox = s.outbox ++ [.ethAnswer p f.srcIp f.srcIp 0] ∧
      t.fld (Reg.ETH_CNT_FRAMES_RX p) = min (s.fld (Reg.ETH_CNT_FRAMES_RX p) + 1) 65535 ∧
      t.fld (Reg.ETH_CNT_FRAMES_TX p) = min (s.fld (Reg.ETH_CNT_FRAMES_TX p) + 1) 65535 ∧ t.cmd = s.cmd) ∧
  (∀ (s : State) (p hop : Nat) (f : EthFrame), p < 2 → s.ethOn p → f.fcsOk → s.ethAccepts p f → f.fits →
    f.etherType = 0x0800 → f.fragment = false → s.fld (Reg.ETH_IP_IP p) ≠ 0 → f.dstIp = s.fld (Reg.ETH_IP_IP p) →
    f.proto = 1 → leAt f.payload 0 1 = 8 → s.ethHop p f.srcIp = some hop →
    ∃ t, exec (.ethFrameReceive p f) s = .next t ∧ t.outbox = s.outbox ++ [.ethAnswer p hop f.srcIp 1] ∧
      t.fld (Reg.ETH_CNT_FRAMES_TX p) = min (s.fld (Reg.ETH_CNT_FRAMES_TX p) + 1) 65535 ∧ t.cmd = s.cmd) ∧
  (∀ (s : State) (p : Nat) (f : EthFrame), p < 2 → s.ethOn p → f.fcsOk → s.ethAccepts p f → f.fits →
    f.etherType = 0x0800 → f.fragment →
    ∃ t, exec (.ethFrameReceive p f) s = .next t ∧ t.cmd = s.cmd ∧ t.outbox = s.outbox ∧
      t.fld (Reg.ETH_CNT_ERR_FRAG p) = min (s.fld (Reg.ETH_CNT_ERR_FRAG p) + 1) 255) ∧
  (∀ (s : State) (p : Nat) (a b c : Bool), p < 2 →
    ∃ t, exec (.ethLinkChange p a b c) s = .next t ∧ t.flag (Reg.ETH_STATUS_LINK p) = a ∧
      t.flag (Reg.ETH_STATUS_AN_DONE p) = b ∧ t.flag (Reg.ETH_STATUS_FEC_LOCK p) = c ∧
      ∀ x, x ≠ Reg.ETH_STATUS p → t.reg x = s.reg x)

/-- A management datagram that a port accepts is a packet of the command path (R89, R350). -/
def Obligations.DatagramIsCommandPacket : Prop :=
  ∀ (s : State) (p : Nat) (f : EthFrame), p < 2 → s.ethOn p → f.fcsOk → s.ethAccepts p f → f.fits →
    f.etherType = 0x0800 → f.fragment = false → s.fld (Reg.ETH_IP_IP p) ≠ 0 → f.dstIp = s.fld (Reg.ETH_IP_IP p) →
    f.proto = 17 → f.dstPort = s.fld (Reg.ETH_MAC_HI_UDP_PORT p) →
    exec (.ethFrameReceive p f) s =
      exec (.commandPacket (.eth f.srcIp f.srcPort) f.payload) (s.bump (Reg.ETH_CNT_FRAMES_RX p))
end

