-- ==== Sys2Proof/Laws/Tables.lean ====
section
/-!
SUPPORT. The laws of the sparse tables: reading after writing, and that every operation keeps the canonical form.
-/
namespace Sys2Proof.Machine

variable {α : Type}

/-- Every key of a table is at least `k`. -/
def tabFrom (k : Nat) : List (Nat × α) → Prop
  | [] => True
  | (i, _) :: t => k ≤ i ∧ tabFrom k t

theorem tabFrom_mono {l : List (Nat × α)} {m n : Nat} (h : n ≤ m) (hf : tabFrom m l) : tabFrom n l := by
  induction l with
  | nil => trivial
  | cons q l ih => exact ⟨Nat.le_trans h hf.1, ih hf.2⟩

/-- What the canonical form says of an entry and of the rest. -/
theorem tabWf_cons [DecidableEq α] {d : Nat → α} {i : Nat} {a : α} {t : List (Nat × α)} :
    tabWf d ((i, a) :: t) = true ↔ a ≠ d i ∧ tabFrom (i + 1) t ∧ tabWf d t = true := by
  induction t generalizing i a with
  | nil => simp [tabWf, tabFrom]
  | cons p t ih =>
    obtain ⟨j, b⟩ := p
    simp only [tabWf, Bool.and_eq_true, bne_iff_ne, decide_eq_true_eq, tabFrom]
    constructor
    · rintro ⟨⟨ha, hij⟩, h⟩
      exact ⟨ha, ⟨hij, tabFrom_mono (by omega) (ih.mp h).2.1⟩, h⟩
    · rintro ⟨ha, ⟨hij, _⟩, h⟩
      exact ⟨⟨ha, hij⟩, h⟩

theorem tabFrom_erase {l : List (Nat × α)} {m k : Nat} (hf : tabFrom m l) : tabFrom m (tabErase k l) := by
  induction l with
  | nil => trivial
  | cons q l ih =>
    obtain ⟨i, a⟩ := q
    simp only [tabErase]
    split
    · exact ih hf.2
    · exact ⟨hf.1, ih hf.2⟩

theorem tabFrom_insert {l : List (Nat × α)} {m k : Nat} {v : α} (hk : m ≤ k) (hf : tabFrom m l) :
    tabFrom m (tabInsert k v l) := by
  induction l with
  | nil => exact ⟨hk, trivial⟩
  | cons q l ih =>
    obtain ⟨i, a⟩ := q
    simp only [tabInsert]
    split
    · exact ⟨hk, hf⟩
    · exact ⟨hf.1, ih hf.2⟩

/-- The canonical form survives the removal of a key. -/
theorem tabWf_erase [DecidableEq α] {d : Nat → α} {k : Nat} {l : List (Nat × α)} (h : tabWf d l = true) :
    tabWf d (tabErase k l) = true := by
  induction l with
  | nil => rfl
  | cons q l ih =>
    obtain ⟨i, a⟩ := q
    obtain ⟨ha, hf, hw⟩ := tabWf_cons.mp h
    simp only [tabErase]
    split
    · exact ih hw
    · exact tabWf_cons.mpr ⟨ha, tabFrom_erase hf, ih hw⟩

/-- After the removal of a key no entry has it. -/
theorem tabErase_absent {k : Nat} {l : List (Nat × α)} : ∀ p ∈ tabErase k l, p.1 ≠ k := by
  induction l with
  | nil => simp [tabErase]
  | cons q l ih =>
    obtain ⟨i, a⟩ := q
    simp only [tabErase]
    split
    · exact ih
    · intro p hp
      rcases List.mem_cons.mp hp with rfl | hp
      · assumption
      · exact ih p hp

/-- The canonical form survives the entry of a key that is absent, with a value that is not the default. -/
theorem tabWf_insert [DecidableEq α] {d : Nat → α} {k : Nat} {v : α} {l : List (Nat × α)} (hv : v ≠ d k)
    (ha : ∀ p ∈ l, p.1 ≠ k) (h : tabWf d l = true) : tabWf d (tabInsert k v l) = true := by
  induction l with
  | nil => simp [tabInsert, tabWf, hv]
  | cons q l ih =>
    obtain ⟨i, a⟩ := q
    obtain ⟨hi, hf, hw⟩ := tabWf_cons.mp h
    have hne : i ≠ k := ha (i, a) (by simp)
    simp only [tabInsert]
    split
    case isTrue hlt =>
      exact tabWf_cons.mpr ⟨hv, ⟨hlt, tabFrom_mono (by omega) hf⟩, h⟩
    case isFalse hge =>
      exact tabWf_cons.mpr ⟨hi, tabFrom_insert (by omega) hf, ih (fun p hp => ha p (by simp [hp])) hw⟩

/-- Writing a key keeps the canonical form. -/
theorem tabWf_put [DecidableEq α] {d : Nat → α} {k : Nat} {v : α} {l : List (Nat × α)} (h : tabWf d l = true) :
    tabWf d (tabPut (d k) l k v) = true := by
  unfold tabPut
  split
  · exact tabWf_erase h
  · exact tabWf_insert ‹_› tabErase_absent (tabWf_erase h)

theorem tabGet_erase {d : α} {k j : Nat} {l : List (Nat × α)} :
    tabGet d (tabErase k l) j = if j = k then d else tabGet d l j := by
  induction l with
  | nil => simp [tabErase, tabGet]
  | cons q l ih =>
    obtain ⟨i, a⟩ := q
    by_cases hik : i = k
    · subst hik
      by_cases hji : j = i
      · subst hji
        simpa [tabErase] using ih
      · simp [tabErase, ih, tabGet, hji, Ne.symm hji]
    · by_cases hij : i = j
      · subst hij
        simp [tabErase, tabGet, hik]
      · simp [tabErase, tabGet, hik, hij, ih]

theorem tabGet_insert {d : α} {k j : Nat} {v : α} {l : List (Nat × α)} (ha : ∀ p ∈ l, p.1 ≠ k) :
    tabGet d (tabInsert k v l) j = if j = k then v else tabGet d l j := by
  induction l with
  | nil =>
    by_cases h : j = k
    · simp [tabInsert, tabGet, h]
    · simp [tabInsert, tabGet, h, Ne.symm h]
  | cons q l ih =>
    obtain ⟨i, a⟩ := q
    have hik : i ≠ k := ha (i, a) (by simp)
    by_cases hlt : k < i
    · by_cases h : j = k
      · simp [tabInsert, tabGet, hlt, h]
      · simp [tabInsert, tabGet, hlt, h, Ne.symm h]
    · by_cases hij : i = j
      · subst hij
        simp [tabInsert, tabGet, hlt, hik]
      · simp [tabInsert, tabGet, hlt, hij, ih (fun p hp => ha p (by simp [hp]))]

/-- Reading after writing: the key written holds the value, every other key what it held. -/
theorem tabGet_put [DecidableEq α] {d : α} {k j : Nat} {v : α} {l : List (Nat × α)} :
    tabGet d (tabPut d l k v) j = if j = k then v else tabGet d l j := by
  unfold tabPut
  split
  case isTrue hv =>
    rw [tabGet_erase]
    split
    · exact hv.symm
    · rfl
  case isFalse hv =>
    rw [tabGet_insert tabErase_absent, tabGet_erase]
    split <;> rfl

@[simp] theorem tabGet_put_self [DecidableEq α] {d : α} {k : Nat} {v : α} {l : List (Nat × α)} :
    tabGet d (tabPut d l k v) k = v := by
  rw [tabGet_put, if_pos rfl]

theorem tabGet_put_other [DecidableEq α] {d : α} {k j : Nat} {v : α} {l : List (Nat × α)} (h : j ≠ k) :
    tabGet d (tabPut d l k v) j = tabGet d l j := by
  rw [tabGet_put, if_neg h]

/-- A read under a default of its own: the key written is listed whenever the two defaults agree on it. -/
theorem tabGet_put_default [DecidableEq α] {d e : α} {k j : Nat} {v : α} {l : List (Nat × α)} (h : j ≠ k) :
    tabGet e (tabPut d l k v) j = tabGet e l j := by
  unfold tabPut
  split
  · rw [tabGet_erase, if_neg h]
  · rw [tabGet_insert tabErase_absent, if_neg h, tabGet_erase, if_neg h]

end Sys2Proof.Machine
end

