-- ==== Sys2Proof/Laws/Registers.lean ====
section
/-!
SUPPORT. The laws of the register file: a register or field read after one was written.
-/
namespace Sys2Proof.Machine

/-! Bit fields. -/

theorem bitsOf_lt (n hi lo : Nat) : bitsOf n hi lo < 2 ^ (hi + 1 - lo) := Nat.mod_lt _ (Nat.two_pow_pos _)

/-- The bits written are the bits read. -/
theorem bitsOf_setBitsOf {n hi lo v : Nat} (h : lo ≤ hi) :
    bitsOf (setBitsOf n hi lo v) hi lo = v % 2 ^ (hi + 1 - lo) := by
  have hp : 2 ^ (hi + 1) = 2 ^ (hi + 1 - lo) * 2 ^ lo := by rw [← pow_add]; congr 1; omega
  have hlo : n % 2 ^ lo < 2 ^ lo := Nat.mod_lt _ (Nat.two_pow_pos _)
  unfold bitsOf setBitsOf
  have : n / 2 ^ (hi + 1) * 2 ^ (hi + 1) + v % 2 ^ (hi + 1 - lo) * 2 ^ lo + n % 2 ^ lo =
      2 ^ lo * (n / 2 ^ (hi + 1) * 2 ^ (hi + 1 - lo) + v % 2 ^ (hi + 1 - lo)) + n % 2 ^ lo := by
    rw [hp]; ring
  rw [this, Nat.mul_add_div (Nat.two_pow_pos _), Nat.div_eq_of_lt hlo, Nat.add_zero, Nat.add_comm,
    Nat.add_mul_mod_self_right, Nat.mod_mod]

/-- A field of a word that is clear of the bits written reads as before. -/
theorem bitsOf_setBitsOf_other {n hi lo v hi' lo' : Nat} (h : lo ≤ hi) (h' : lo' ≤ hi') (hd : hi' < lo ∨ hi < lo') :
    bitsOf (setBitsOf n hi lo v) hi' lo' = bitsOf n hi' lo' := by
  apply Nat.eq_of_testBit_eq
  intro i
  have tb : ∀ m : Nat, (m / 2 ^ lo' % 2 ^ (hi' + 1 - lo')).testBit i = (decide (i < hi' + 1 - lo') && m.testBit (lo' + i)) := by
    intro m
    rw [Nat.testBit_mod_two_pow, Nat.testBit_div_two_pow, Nat.add_comm i lo']
  unfold bitsOf
  rw [tb, tb]
  by_cases hi1 : i < hi' + 1 - lo'
  · simp only [hi1, decide_true, Bool.true_and]
    have hp : 2 ^ (hi + 1) = 2 ^ lo * 2 ^ (hi + 1 - lo) := by rw [← pow_add]; congr 1; omega
    have hv : v % 2 ^ (hi + 1 - lo) < 2 ^ (hi + 1 - lo) := Nat.mod_lt _ (Nat.two_pow_pos _)
    have hlo : n % 2 ^ lo < 2 ^ lo := Nat.mod_lt _ (Nat.two_pow_pos _)
    have e1 : setBitsOf n hi lo v =
        2 ^ (hi + 1) * (n / 2 ^ (hi + 1)) + (2 ^ lo * (v % 2 ^ (hi + 1 - lo)) + n % 2 ^ lo) := by
      unfold setBitsOf; ring
    have hsmall : 2 ^ lo * (v % 2 ^ (hi + 1 - lo)) + n % 2 ^ lo < 2 ^ (hi + 1) := by
      rw [hp]
      calc _ < 2 ^ lo * (v % 2 ^ (hi + 1 - lo)) + 2 ^ lo := by omega
        _ = 2 ^ lo * (v % 2 ^ (hi + 1 - lo) + 1) := by ring
        _ ≤ _ := Nat.mul_le_mul_left _ hv
    rcases hd with hd | hd
    · rw [e1, Nat.testBit_two_pow_mul_add _ hsmall, if_pos (by omega), Nat.testBit_two_pow_mul_add _ hlo,
        if_pos (by omega), Nat.testBit_mod_two_pow]
      simp; omega
    · rw [e1, Nat.testBit_two_pow_mul_add _ hsmall, if_neg (by omega), Nat.testBit_div_two_pow]
      congr 1; omega
  · simp [hi1]

theorem setBitsOf_lt {n hi lo v : Nat} (h : lo ≤ hi) (hh : hi < 32) (hn : n < 2 ^ 32) : setBitsOf n hi lo v < 2 ^ 32 := by
  have hp : 2 ^ (hi + 1) = 2 ^ lo * 2 ^ (hi + 1 - lo) := by rw [← pow_add]; congr 1; omega
  have hq : 2 ^ 32 = 2 ^ (hi + 1) * 2 ^ (31 - hi) := by rw [← pow_add]; congr 1; omega
  have hv : v % 2 ^ (hi + 1 - lo) < 2 ^ (hi + 1 - lo) := Nat.mod_lt _ (Nat.two_pow_pos _)
  have hlo : n % 2 ^ lo < 2 ^ lo := Nat.mod_lt _ (Nat.two_pow_pos _)
  have hd : n / 2 ^ (hi + 1) < 2 ^ (31 - hi) := by
    rw [Nat.div_lt_iff_lt_mul (Nat.two_pow_pos _)]; rw [hq] at hn; rw [Nat.mul_comm]; exact hn
  have hsmall : v % 2 ^ (hi + 1 - lo) * 2 ^ lo + n % 2 ^ lo < 2 ^ (hi + 1) := by
    rw [hp]
    calc _ < v % 2 ^ (hi + 1 - lo) * 2 ^ lo + 2 ^ lo := by omega
      _ = 2 ^ lo * (v % 2 ^ (hi + 1 - lo) + 1) := by ring
      _ ≤ _ := Nat.mul_le_mul_left _ hv
  unfold setBitsOf
  rw [hq]
  calc _ < n / 2 ^ (hi + 1) * 2 ^ (hi + 1) + 2 ^ (hi + 1) := by omega
    _ = 2 ^ (hi + 1) * (n / 2 ^ (hi + 1) + 1) := by ring
    _ ≤ _ := Nat.mul_le_mul_left _ hd

theorem setWordBits_toNat {w : Word} {hi lo v : Nat} (h : lo ≤ hi) (hh : hi < 32) :
    (setWordBits w hi lo v).toNat = setBitsOf w.toNat hi lo v := by
  unfold setWordBits
  rw [BitVec.toNat_ofNat, Nat.mod_eq_of_lt (setBitsOf_lt h hh w.isLt)]

theorem wordBits_setWordBits {w : Word} {hi lo v : Nat} (h : lo ≤ hi) (hh : hi < 32) :
    wordBits (setWordBits w hi lo v) hi lo = v % 2 ^ (hi + 1 - lo) := by
  unfold wordBits
  rw [setWordBits_toNat h hh, bitsOf_setBitsOf h]

theorem wordBits_setWordBits_other {w : Word} {hi lo v hi' lo' : Nat} (h : lo ≤ hi) (hh : hi < 32) (h' : lo' ≤ hi')
    (hd : hi' < lo ∨ hi < lo') : wordBits (setWordBits w hi lo v) hi' lo' = wordBits w hi' lo' := by
  unfold wordBits
  rw [setWordBits_toNat h hh, bitsOf_setBitsOf_other h h' hd]

/-! Registers. -/

@[simp] theorem State.reg_setReg_self (s : State) (a : Nat) (w : Word) : (s.setReg a w).reg a = w := tabGet_put_self

theorem State.reg_setReg_other {s : State} {a b : Nat} {w : Word} (h : b ≠ a) : (s.setReg a w).reg b = s.reg b :=
  tabGet_put_default h

/-- The register file stays canonical: no register is listed at its reset value. -/
theorem regPut_wf {l : List (Nat × Word)} {a : Nat} {w : Word} (h : tabWf resetWord l = true) :
    tabWf resetWord (regPut l a w) = true := tabWf_put h

/-! Fields. -/

/-- A field that lies within a word. -/
def Fld.fits (f : Fld) : Prop := f.lo ≤ f.hi ∧ f.hi < 32

/-- Two fields that share no bit. -/
def Fld.apart (f g : Fld) : Prop := f.addr ≠ g.addr ∨ f.hi < g.lo ∨ g.hi < f.lo

/-- A field written reads its low bits back. -/
theorem State.fld_setFld_self {s : State} {f : Fld} {v : Nat} (h : f.fits) : (s.setFld f v).fld f = v % 2 ^ f.width := by
  unfold State.fld State.setFld
  rw [State.reg_setReg_self, wordBits_setWordBits h.1 h.2]
  rfl

/-- A field apart from the one written reads as before. -/
theorem State.fld_setFld_other {s : State} {f g : Fld} {v : Nat} (hf : f.fits) (hg : g.fits) (h : g.apart f) :
    (s.setFld f v).fld g = s.fld g := by
  unfold State.fld State.setFld
  by_cases ha : g.addr = f.addr
  · rw [ha, State.reg_setReg_self]
    refine wordBits_setWordBits_other hf.1 hf.2 hg.1 ?_
    rcases h with h | h | h
    · exact absurd ha h
    · exact Or.inl h
    · exact Or.inr h
  · rw [State.reg_setReg_other ha]

/-- A register at another address than the field's reads as before. -/
theorem State.reg_setFld_other {s : State} {f : Fld} {v a : Nat} (h : a ≠ f.addr) : (s.setFld f v).reg a = s.reg a :=
  State.reg_setReg_other h

/-- A field that is written with what fits reads it back. -/
theorem State.fld_setFld {s : State} {f : Fld} {v : Nat} (h : f.fits) (hv : v < 2 ^ f.width) :
    (s.setFld f v).fld f = v := by
  rw [State.fld_setFld_self h, Nat.mod_eq_of_lt hv]

theorem State.fld_lt (s : State) (f : Fld) : s.fld f < 2 ^ f.width := bitsOf_lt _ _ _

end Sys2Proof.Machine
end

