-- ==== Sys2Proof/Laws/Bits.lean ====
section
/-!
SUPPORT. The laws of single bits, in numbers and in fields.
-/
namespace Sys2Proof.Machine

theorem bitAt_eq_testBit (n i : Nat) : bitAt n i = n.testBit i := by
  rw [bitAt, Nat.testBit_eq_decide_div_mod_eq]
  rfl

/-- A bit set reads 1, and every other bit as before. -/
theorem bitAt_setBitAt (n i j : Nat) : bitAt (setBitAt n i) j = (bitAt n j || decide (i = j)) := by
  have e : setBitAt n i = n ||| 2 ^ i := by
    rw [setBitAt]
    split
    · rename_i h
      rw [bitAt_eq_testBit] at h
      apply Nat.eq_of_testBit_eq
      intro k
      rw [Nat.testBit_or, Nat.testBit_two_pow]
      by_cases hk : i = k
      · subst hk; rw [h]; rfl
      · simp [hk]
    · rename_i h
      rw [bitAt_eq_testBit] at h
      apply Nat.eq_of_testBit_eq
      intro k
      rw [Nat.testBit_or, Nat.testBit_two_pow]
      have hz : n / 2 ^ i % 2 = 0 := by
        rw [Nat.testBit_eq_decide_div_mod_eq] at h
        simp at h; omega
      have hn : n = 2 ^ (i + 1) * (n / 2 ^ (i + 1)) + n % 2 ^ i := by
        have h1 := Nat.div_add_mod n (2 ^ i)
        have h2 := Nat.div_add_mod (n / 2 ^ i) 2
        rw [hz, Nat.add_zero, Nat.div_div_eq_div_mul, ← pow_succ] at h2
        conv_lhs => rw [← h1, ← h2]
        ring
      have hlt : n % 2 ^ i < 2 ^ i := Nat.mod_lt _ (Nat.two_pow_pos _)
      have hlt2 : 2 ^ i + n % 2 ^ i < 2 ^ (i + 1) := by rw [pow_succ]; omega
      have hlt3 : n % 2 ^ i < 2 ^ (i + 1) := by rw [pow_succ]; omega
      have ha : n + 2 ^ i = 2 ^ (i + 1) * (n / 2 ^ (i + 1)) + (2 ^ i * 1 + n % 2 ^ i) := by
        conv_lhs => rw [hn]
        ring
      have hb : n.testBit k = (if k < i + 1 then (n % 2 ^ i).testBit k else (n / 2 ^ (i + 1)).testBit (k - (i + 1))) := by
        conv_lhs => rw [hn]
        exact Nat.testBit_two_pow_mul_add _ hlt3 _
      rw [ha, Nat.testBit_two_pow_mul_add _ (by rw [Nat.mul_one]; exact hlt2), hb,
        Nat.testBit_two_pow_mul_add _ hlt]
      by_cases k1 : k < i
      · have : i ≠ k := by omega
        simp [k1, Nat.lt_succ_of_lt k1, this]
      · by_cases k2 : k = i
        · subst k2
          have : (n % 2 ^ k).testBit k = false := Nat.testBit_lt_two_pow hlt
          simp
        · have k3 : ¬k < i + 1 := by omega
          have : i ≠ k := fun h => k2 h.symm
          simp [k3, this]
  rw [e, bitAt_eq_testBit, bitAt_eq_testBit, Nat.testBit_or, Nat.testBit_two_pow]

theorem bitAt_setBitAt_self (n i : Nat) : bitAt (setBitAt n i) i = true := by simp [bitAt_setBitAt]

/-- A bit cleared reads 0. -/
theorem bitAt_clearBitAt_self (n i : Nat) : bitAt (clearBitAt n i) i = false := by
  rw [clearBitAt]
  split
  · rename_i h
    simp only [bitAt, beq_iff_eq] at h
    simp only [bitAt, beq_eq_false_iff_ne]
    have h1 := Nat.div_add_mod n (2 ^ i)
    have hp : 0 < 2 ^ i := Nat.two_pow_pos i
    have hq : n / 2 ^ i ≥ 1 := by
      rcases Nat.eq_zero_or_pos (n / 2 ^ i) with e | e
      · rw [e] at h; omega
      · exact e
    have e : n - 2 ^ i = (n / 2 ^ i - 1) * 2 ^ i + n % 2 ^ i := by
      rw [Nat.sub_mul, Nat.one_mul, Nat.mul_comm (n / 2 ^ i)]
      have : 2 ^ i ≤ 2 ^ i * (n / 2 ^ i) := Nat.le_mul_of_pos_right _ hq
      omega
    have d : (n - 2 ^ i) / 2 ^ i = n / 2 ^ i - 1 := by
      rw [e, Nat.add_comm, Nat.add_mul_div_right _ _ hp, Nat.div_eq_of_lt (Nat.mod_lt _ hp), Nat.zero_add]
    rw [d]; omega
  · rename_i h
    simpa using h

theorem bitAt_mod {n w i : Nat} (h : i < w) : bitAt (n % 2 ^ w) i = bitAt n i := by
  rw [bitAt_eq_testBit, bitAt_eq_testBit, Nat.testBit_mod_two_pow]
  simp [h]

/-- A bit of a field written. -/
theorem State.bitAt_setFld {s : State} {f : Fld} {v i : Nat} (h : f.fits) (hi : i < f.width) :
    bitAt ((s.setFld f v).fld f) i = bitAt v i := by
  rw [State.fld_setFld_self h, bitAt_mod hi]

theorem State.flag_eq (s : State) (f : Fld) : s.flag f = decide (s.fld f ≠ 0) := by
  rw [State.flag]
  by_cases h : s.fld f = 0 <;> simp [h]

end Sys2Proof.Machine
end

