-- ==== Sys2Proof/Laws/Frames.lean ====
section
/-!
SUPPORT. No operation and no meaning touches the queue of waiting commands, and only the few of Laws/Kept.lean store in
device memory: one lemma for each of the others, which says that the queue and the memory (`State.core`) stay.
-/
set_option linter.all false

namespace Sys2Proof.Machine

/-- The queue and the device memory. -/
def State.core (s : State) : List Instr × List Host.Cell := (s.pending, s.mem)

theorem State.core_mk (pending regs mem dram now stateSince fresh outbox cmd log locks arbs evt time msix motion ppos mons lanes chain
    rings hostSize chk ingest job bars fire nvc eye insp noz spare latches pwr) :
    State.core ⟨pending, regs, mem, dram, now, stateSince, fresh, outbox, cmd, log, locks, arbs, evt, time, msix, motion,
      ppos, mons, lanes, chain, rings, hostSize, chk, ingest, job, bars, fire, nvc, eye, insp, noz, spare, latches,
      pwr⟩ = (pending, mem) := (rfl)

theorem State.core_keep (s : State) (regs dram now stateSince fresh outbox cmd log locks arbs evt time msix motion ppos mons lanes chain
    rings hostSize chk ingest job bars fire nvc eye insp noz spare latches pwr) :
    State.core ⟨s.pending, regs, s.mem, dram, now, stateSince, fresh, outbox, cmd, log, locks, arbs, evt, time, msix, motion,
      ppos, mons, lanes, chain, rings, hostSize, chk, ingest, job, bars, fire, nvc, eye, insp, noz, spare, latches,
      pwr⟩ = s.core := (rfl)

theorem foldl_core {α : Type} (f : State → α → State) (h : ∀ s x, (f s x).core = s.core) (l : List α)
    (s : State) : (l.foldl f s).core = s.core := by
  induction l generalizing s with
  | nil => rfl
  | cons x l ih => simp only [List.foldl_cons, ih, h]

theorem ite_core (c : Prop) [Decidable c] (a b : State) :
    (if c then a else b).core = if c then a.core else b.core := by split <;> rfl

theorem dite_core (c : Prop) [Decidable c] (a : c → State) (b : ¬c → State) :
    (dite c a b).core = dite c (fun h => (a h).core) (fun h => (b h).core) := by split <;> rfl

@[simp] theorem State.enqueue_core (s : State) (q : Queued) : (State.enqueue s q).core = s.core := by
  simp only [State.enqueue.eq_def, ↓State.core_keep]

@[simp] theorem State.setCam_core (s : State) (n : Nat) (x : Cam) : (State.setCam s n x).core = s.core := by
  simp only [State.setCam.eq_def, ↓State.core_keep]

@[simp] theorem State.noteGens_core (s : State) (n : Nat) (l : GridLine) : (State.noteGens s n l).core = s.core := by
  simp only [State.noteGens.eq_def, ↓State.setCam_core]

@[simp] theorem State.noteOwner_core (s : State) (lines : List (Nat × GridLine)) (n : Nat) :
    (State.noteOwner s lines n).core = s.core := by
  rw [State.noteOwner.eq_def]
  repeat' split
  all_goals simp only [↓State.noteGens_core]

@[simp] theorem State.setReg_core (s : State) (a : Nat) (w : Word) : (State.setReg s a w).core = s.core := by
  simp only [State.setReg.eq_def, ↓State.core_keep]

@[simp] theorem State.setFld_core (s : State) (f : Fld) (v : Nat) : (State.setFld s f v).core = s.core := by
  simp only [State.setFld.eq_def, ↓State.setReg_core]

@[simp] theorem State.bump_core (s : State) (f : Fld) (n : Nat) : (State.bump s f n).core = s.core := by
  simp only [State.bump.eq_def, ↓State.setFld_core]

@[simp] theorem State.raise_core (s : State) (prod : Nat) (tag : Option Nat) :
    (State.raise s prod tag).core = s.core := by
  simp only [State.raise.eq_def, ↓State.setFld_core, ↓State.bump_core, ↓ite_core, ite_self, ↓State.core_keep]

@[simp] theorem State.raiseIf_core (s : State) (en : Bool) (prod : Nat) (tag : Option Nat) :
    (State.raiseIf s en prod tag).core = s.core := by
  simp only [State.raiseIf.eq_def, ↓State.raise_core, ↓ite_core, ite_self]

@[simp] theorem State.jigEvent_core (s : State) (bit : Nat) (f : Fld) : (State.jigEvent s bit f).core = s.core := by
  simp only [State.jigEvent.eq_def, ↓State.raiseIf_core, ↓State.setFld_core]

@[simp] theorem State.scoreFrame_core (s : State) (n : Nat) (num : Nat) : (State.scoreFrame s n num).core = s.core := by
  rw [State.scoreFrame.eq_def] <;> (try simp only [↓State.setCam_core, ↓State.jigEvent_core, ↓foldl_core, ↓ite_core,
      ↓dite_core, ↓reduceIte, ite_self, implies_true,
      ↓State.core_keep]) <;> repeat' ((first | split | (rw [foldl_core]; intro s x)) <;> try simp only [↓State.setCam_core,
      ↓State.jigEvent_core, ↓foldl_core, ↓ite_core, ↓dite_core, ↓reduceIte, ite_self, implies_true,
      ↓State.core_keep])

@[simp] theorem State.beginFrame_core (s : State) (n : Nat) (num : Nat) : (State.beginFrame s n num).core = s.core := by
  simp only [State.beginFrame.eq_def, ↓State.scoreFrame_core, ↓State.setCam_core, ↓foldl_core, implies_true]

theorem State.compareRow_core (s : State) (n lo hi : Nat) (l : GridLine) (r : CmpRow × State)     (h :
    s.compareRow n lo hi l = some r) :
    r.2.core = s.core := by
  rw [State.compareRow] at h
  dsimp only at h
  split at h
  · cases h
  · split at h
    · cases h
    · cases h
      rw [State.setCam_core, State.beginFrame_core]

@[simp] theorem State.compareAll_core (s : State) (lines : List (Nat × GridLine)) (x2 : List (Nat × Nat × Nat)) :
    (State.compareAll s lines x2).2.core = s.core := by
  induction x2 generalizing s with
  | nil => rfl
  | cons o t ih =>
    rw [State.compareAll]
    split
    · rename_i row s' h
      obtain ⟨l, -, h⟩ := Option.bind_eq_some_iff.mp h
      rw [ih, State.compareRow_core _ _ _ _ _ _ h, State.noteOwner_core]
    · rw [ih, State.noteOwner_core]

@[simp] theorem State.modeRefused_core (s : State) (unfit : Option Nat) : (State.modeRefused s unfit).core = s.core := by
  rw [State.modeRefused.eq_def]
  repeat' split
  all_goals simp only [↓State.setFld_core]

@[simp] theorem State.putArb_core (s : State) (e : RegEntry) (new : Word) : (State.putArb s e new).core = s.core := by
  rw [State.putArb.eq_def]
  repeat' split
  all_goals simp only [↓State.setReg_core, ↓State.setFld_core, ↓ite_core, ite_self]

@[simp] theorem State.mend_core (s : State) (c : Nat) : (State.mend s c).core = s.core := by
  simp only [State.mend.eq_def, ↓State.setFld_core]

@[simp] theorem State.bumpWrap_core (s : State) (f : Fld) (n : Nat) : (State.bumpWrap s f n).core = s.core := by
  simp only [State.bumpWrap.eq_def, ↓State.setFld_core]

@[simp] theorem State.log1_core (s : State) (code : Nat) (block : Nat) (inst : Nat) (cond : Nat) (detail : List
    Nat) :
    (State.log1 s code block inst cond detail).core = s.core := by
  simp only [State.log1.eq_def, ↓State.bumpWrap_core, ↓State.core_keep]

@[simp] theorem State.breach_core (s : State) (c : Nat) (block : Nat) (inst : Nat) (detail : List Nat) :
    (State.breach s c block inst detail).core = s.core := by
  simp only [State.breach.eq_def, ↓State.raise_core, ↓State.log1_core, ↓State.setFld_core]

@[simp] theorem State.breachOnce_core (s : State) (c : Nat) (block : Nat) (inst : Nat) (detail : List Nat) :
    (State.breachOnce s c block inst detail).core = s.core := by
  simp only [State.breachOnce.eq_def, ↓State.mend_core, ↓State.breach_core]

@[simp] theorem State.setLock_core (s : State) (k : Nat) (x : LockX) : (State.setLock s k x).core = s.core := by
  simp only [State.setLock.eq_def, ↓State.setFld_core, ↓State.core_keep]

@[simp] theorem State.lockOwn_core (s : State) (k : Nat) (engine : Bool) (client : Nat) :
    (State.lockOwn s k engine client).core = s.core := by
  simp only [State.lockOwn.eq_def, ↓State.setFld_core, ↓State.setLock_core]

@[simp] theorem State.emit_core (s : State) (o : Out) : (State.emit s o).core = s.core := by
  simp only [State.emit.eq_def, ↓State.core_keep]

@[simp] theorem State.tellEngine_core (s : State) (engine : Nat) (lock : Nat) (status : Nat) :
    (State.tellEngine s engine lock status).core = s.core := by
  simp only [State.tellEngine.eq_def, ↓State.emit_core]

@[simp] theorem State.setSession_core (s : State) (n : Nat) (x : Session) : (State.setSession s n x).core = s.core := by
  simp only [State.setSession.eq_def, ↓State.core_keep]

@[simp] theorem State.setSlot_core (s : State) (sess : Nat) (tag : Nat) (x : Slot) :
    (State.setSlot s sess tag x).core = s.core := by
  simp only [State.setSlot.eq_def, ↓State.setSession_core]

@[simp] theorem State.setRing_core (s : State) (r : Nat) (x : Ring) : (State.setRing s r x).core = s.core := by
  simp only [State.setRing.eq_def, ↓State.core_keep]

@[simp] theorem State.setStall_core (s : State) (r : Nat) : (State.setStall s r).core = s.core := by
  simp only [State.setStall.eq_def, ↓State.setFld_core]

@[simp] theorem State.msixSignal_core (s : State) (v : Nat) : (State.msixSignal s v).core = s.core := by
  simp only [State.msixSignal.eq_def, ↓State.emit_core, ↓ite_core, ite_self, ↓State.core_keep]

@[simp] theorem State.ringNotify_core (s : State) (r : Nat) : (State.ringNotify s r).core = s.core := by
  simp only [State.ringNotify.eq_def, ↓State.msixSignal_core, ↓State.emit_core]

@[simp] theorem State.ringWrite_core (s : State) (r : Nat) (rep : Reply) : (State.ringWrite s r rep).core = s.core := by
  simp only [State.ringWrite.eq_def, ↓State.emit_core, ↓State.setRing_core, ↓State.setStall_core,
    ↓State.ringNotify_core, ↓ite_core, ite_self]

@[simp] theorem State.ringReply_core (s : State) (r : Nat) (rep : Reply) : (State.ringReply s r rep).core = s.core := by
  simp only [State.ringReply.eq_def, ↓State.ringWrite_core, ↓State.setRing_core, ↓ite_core, ite_self]

@[simp] theorem State.sendDatagram_core (s : State) (ip : Nat) (port : Nat) (b : List Byte) :
    (State.sendDatagram s ip port b).core = s.core := by
  rw [State.sendDatagram.eq_def]
  repeat' split
  all_goals simp only [↓State.bump_core, ↓State.emit_core]

@[simp] theorem State.setLink_core (s : State) (west : Bool) (l : ChainLink) :
    (State.setLink s west l).core = s.core := by
  simp only [State.setLink.eq_def, ↓State.core_keep]

@[simp] theorem State.setLane_core (s : State) (l : Nat) (x : Lane) : (State.setLane s l x).core = s.core := by
  simp only [State.setLane.eq_def, ↓State.core_keep]

@[simp] theorem State.laneSent_core (s : State) (l : Nat) (bs : List Block) : (State.laneSent s l bs).core = s.core := by
  simp only [State.laneSent.eq_def, ↓State.setLane_core]

@[simp] theorem State.chainSend_core (s : State) (west : Bool) (b : List Byte) :
    (State.chainSend s west b).core = s.core := by
  have f (l : List (Nat × List Block)) (s : State) : (l.foldl (fun s p => s.laneSent p.1 p.2) s).core = s.core :=
    foldl_core _ (fun s p => State.laneSent_core ..) l s
  simp only [State.chainSend, State.emit_core, State.setLink_core, f]

@[simp] theorem State.chainDrain_core (s : State) (west : Bool) : (State.chainDrain s west).core = s.core := by
  simp only [State.chainDrain, foldl_core _ (fun s b => State.chainSend_core s west b), State.setLink_core]

@[simp] theorem State.chainSendOn_core (s : State) (west : Bool) (transit : Bool) (b : List Byte) :
    (State.chainSendOn s west transit b).core = s.core := by
  simp only [State.chainSendOn.eq_def, ↓State.chainDrain_core, ↓State.setLink_core, ↓ite_core, ite_self]

@[simp] theorem State.chainTo_core (s : State) (type : Nat) (dst : Nat) (cls : Nat) (body : List Byte) :
    (State.chainTo s type dst cls body).core = s.core := by
  rw [State.chainTo.eq_def]
  repeat' split
  all_goals simp only [↓State.chainSendOn_core]

@[simp] theorem State.deliver_core (s : State) (sess : Nat) (rep : Reply) : (State.deliver s sess rep).core = s.core := by
  rw [State.deliver.eq_def]
  repeat' split
  all_goals simp only [↓State.ringReply_core, ↓State.sendDatagram_core, ↓State.chainTo_core]

@[simp] theorem State.complete_core (s : State) (sess : Nat) (tag : Nat) (seq : Nat) (opcode : Nat) (need :
    Bool) (status : Nat) (payload : List Byte) (more : Bool) (member : Option Nat) :
    (State.complete s sess tag seq opcode need status payload more member).core = s.core := by
  simp only [State.complete.eq_def, ↓State.setSlot_core, ↓State.deliver_core, ↓ite_core, ite_self]

@[simp] theorem State.finishSlot_core (s : State) (sess : Nat) (tag : Nat) (status : Nat) (payload : List Byte)
    (more : Bool) :
    (State.finishSlot s sess tag status payload more).core = s.core := by
  simp only [State.finishSlot.eq_def, ↓State.complete_core, ↓ite_core, ite_self]

@[simp] theorem State.lockPass_core (s : State) (k : Nat) (idle : Nat) (prior : Option Nat) :
    (State.lockPass s k idle prior).core = s.core := by
  rw [State.lockPass.eq_def] <;> (try simp only [↓State.setFld_core, ↓State.setLock_core, ↓State.lockOwn_core,
      ↓State.tellEngine_core, ↓State.finishSlot_core, ↓foldl_core, ↓ite_core, ↓dite_core, ↓reduceIte, ite_self,
      implies_true,
      ↓State.core_keep]) <;> repeat' ((first | split | (rw [foldl_core]; intro s x)) <;> try simp only [↓State.setFld_core,
      ↓State.setLock_core, ↓State.lockOwn_core, ↓State.tellEngine_core, ↓State.finishSlot_core, ↓foldl_core,
      ↓ite_core, ↓dite_core, ↓reduceIte, ite_self, implies_true, ↓State.core_keep])

@[simp] theorem State.lockBreak_core (s : State) (k : Nat) : (State.lockBreak s k).core = s.core := by
  simp only [State.lockBreak.eq_def, ↓State.log1_core, ↓State.bump_core, ↓State.lockPass_core, ↓State.raise_core]

@[simp] theorem State.lockLimitWritten_core (s : State) (k : Nat) : (State.lockLimitWritten s k).core = s.core := by
  simp only [State.lockLimitWritten.eq_def, ↓State.breachOnce_core, ↓State.lockBreak_core, ↓ite_core, ite_self]

@[simp] theorem State.cmdErr_core (s : State) (cause : Nat) (addr : Nat) : (State.cmdErr s cause addr).core = s.core := by
  simp only [State.cmdErr.eq_def, ↓State.setFld_core, ↓ite_core, ite_self]

@[simp] theorem State.drainReplies_core (s : State) (r : Nat) (x2 : List Reply) :
    (State.drainReplies s r x2).core = s.core := by
  induction x2 generalizing s with
  | nil => exact State.setRing_core ..
  | cons p l ih =>
    rw [State.drainReplies]
    split
    · rw [ih, State.ringWrite_core]
    · exact State.setRing_core ..

@[simp] theorem State.ringEnabled_core (s : State) (r : Nat) (was : Bool) :
    (State.ringEnabled s r was).core = s.core := by
  simp only [State.ringEnabled.eq_def, ↓State.setRing_core, ↓State.setSession_core, ↓State.setStall_core,
    ↓State.drainReplies_core, ↓ite_core, ite_self]

@[simp] theorem State.putCmd_core (s : State) (e : RegEntry) (old : Word) (new : Word) :
    (State.putCmd s e old new).core = s.core := by
  simp only [State.putCmd.eq_def, ↓State.setReg_core, ↓State.cmdErr_core, ↓State.ringEnabled_core, ↓ite_core,
    ite_self]

@[simp] theorem State.setDmaCh_core (s : State) (ch : Nat) (x : DmaChan) : (State.setDmaCh s ch x).core = s.core := by
  simp only [State.setDmaCh.eq_def, ↓State.core_keep]

@[simp] theorem State.haltDone_core (s : State) : (State.haltDone s).core = s.core := by
  rw [State.haltDone.eq_def]
  repeat' split
  all_goals simp only [↓State.setFld_core, ↓State.msixSignal_core, ↓State.raise_core, ↓State.core_keep]

@[simp] theorem State.setPage_core (s : State) (ch : Nat) (x : Ingest) : (State.setPage s ch x).core = s.core := by
  simp only [State.setPage.eq_def, ↓State.core_keep]

@[simp] theorem State.freeUnits_core (s : State) (x : Ingest) : (State.freeUnits s x).core = s.core := by
  simp only [State.freeUnits.eq_def, ↓State.setFld_core, ↓foldl_core, implies_true]

@[simp] theorem State.dropPage_core (s : State) (ch : Nat) (status : Nat) (payload : List Byte) :
    (State.dropPage s ch status payload).core = s.core := by
  simp only [State.dropPage.eq_def, ↓State.setPage_core, ↓State.freeUnits_core, ↓State.finishSlot_core,
    ↓State.core_keep]

@[simp] theorem State.dmaMark_core (s : State) (ch : Nat) : (State.dmaMark s ch).core = s.core := by
  simp only [State.dmaMark.eq_def, ↓State.setFld_core]

@[simp] theorem State.dmaDone_core (s : State) (ch : Nat) : (State.dmaDone s ch).core = s.core := by
  simp only [State.dmaDone.eq_def, ↓State.msixSignal_core, ↓State.dmaMark_core]

@[simp] theorem State.writeBack_core (s : State) (ch : Nat) (code : Nat) (addr : Nat) (residue : Nat) :
    (State.writeBack s ch code addr residue).core = s.core := by
  simp only [State.writeBack.eq_def, ↓State.emit_core, ↓ite_core, ite_self]

@[simp] theorem State.chkUser_core (s : State) (ch : Nat) (start : Bool) : (State.chkUser s ch start).core = s.core := by
  simp only [State.chkUser.eq_def, ↓State.setFld_core, ↓ite_core, ite_self]

@[simp] theorem State.setFlag_core (s : State) (f : Fld) (b : Bool) : (State.setFlag s f b).core = s.core := by
  simp only [State.setFlag.eq_def, ↓State.setFld_core]

@[simp] theorem State.chainStop_core (s : State) (ch : Nat) (code : Nat) (own : Bool) (stopped : Bool) :
    (State.chainStop s ch code own stopped).core = s.core := by
  simp only [State.chainStop.eq_def, ↓State.chkUser_core, ↓State.setDmaCh_core, ↓State.setFld_core,
    ↓State.setFlag_core]

@[simp] theorem State.chainEnd_core (s : State) (ch : Nat) (code : Nat) (addr : Nat) (residue : Nat) (own :
    Bool) (stopped : Bool) :
    (State.chainEnd s ch code addr residue own stopped).core = s.core := by
  simp only [State.chainEnd.eq_def, ↓State.dmaDone_core, ↓State.writeBack_core, ↓State.chainStop_core,
    ↓State.breachOnce_core, ↓ite_core, ite_self]

@[simp] theorem State.stopPage_core (s : State) (ch : Nat) (status : Nat) (payload : List Byte) :
    (State.stopPage s ch status payload).core = s.core := by
  simp only [State.stopPage.eq_def, ↓State.dropPage_core, ↓State.haltDone_core, ↓State.chainEnd_core, ↓ite_core,
    ite_self]

@[simp] theorem State.latchError_core (s : State) (unit : Nat) (code : Nat) (plane : Nat) (off : Nat) (bit :
    Nat) (page : Nat) :
    (State.latchError s unit code plane off bit page).core = s.core := by
  simp only [State.latchError.eq_def, ↓State.setFld_core, ↓State.log1_core, ↓State.bump_core, ↓ite_core, ite_self]

@[simp] theorem State.failPage_core (s : State) (ch : Nat) (e : PageError) : (State.failPage s ch e).core = s.core := by
  simp only [State.failPage.eq_def, ↓State.stopPage_core, ↓State.latchError_core]

@[simp] theorem State.storePage_core (s : State) (ch : Nat) : (State.storePage s ch).core = s.core := by
  simp only [State.storePage.eq_def, ↓State.setPage_core, ↓State.finishSlot_core, ↓State.core_keep]

@[simp] theorem State.judgePage_core (s : State) (ch : Nat) : (State.judgePage s ch).core = s.core := by
  simp only [State.judgePage.eq_def, ↓State.failPage_core, ↓State.storePage_core, ↓ite_core, ite_self]

@[simp] theorem State.shortPage_core (s : State) (ch : Nat) : (State.shortPage s ch).core = s.core := by
  simp only [State.shortPage.eq_def, ↓State.failPage_core, ↓ite_core, ite_self]

@[simp] theorem State.chainPage_core (s : State) (ch : Nat) (code : Nat) : (State.chainPage s ch code).core = s.core := by
  rw [State.chainPage.eq_def]
  repeat' split
  all_goals simp only [↓State.judgePage_core, ↓State.shortPage_core, ↓State.setPage_core, ↓State.dropPage_core,
    ↓State.log1_core, ↓ite_core, ite_self]

@[simp] theorem State.endChain_core (s : State) (ch : Nat) (code : Nat) (addr : Nat) (residue : Nat) (own :
    Bool) (stopped : Bool) :
    (State.endChain s ch code addr residue own stopped).core = s.core := by
  simp only [State.endChain.eq_def, ↓State.haltDone_core, ↓State.chainPage_core, ↓State.chainEnd_core]

@[simp] theorem State.stopChain_core (s : State) (ch : Nat) (code : Nat) (own : Bool) (stopped : Bool) :
    (State.stopChain s ch code own stopped).core = s.core := by
  simp only [State.stopChain.eq_def, ↓State.setDmaCh_core, ↓State.endChain_core, ↓ite_core, ite_self]

@[simp] theorem State.chainStart_core (s : State) (ch : Nat) : (State.chainStart s ch).core = s.core := by
  simp only [State.chainStart.eq_def, ↓State.setFld_core, ↓State.chkUser_core, ↓State.setDmaCh_core]

@[simp] theorem State.putDma_core (s : State) (e : RegEntry) (new : Word) : (State.putDma s e new).core = s.core := by
  simp only [State.putDma.eq_def, ↓State.setReg_core, ↓State.stopChain_core, ↓State.chainStart_core, ↓ite_core,
    ite_self]

@[simp] theorem State.showStackMax_core (s : State) : (State.showStackMax s).core = s.core := by
  simp only [State.showStackMax.eq_def, ↓State.setFld_core]

@[simp] theorem State.setBar_core (s : State) (b : Nat) (x : Bar) : (State.setBar s b x).core = s.core := by
  simp only [State.setBar.eq_def, ↓State.core_keep]

@[simp] theorem State.showBank_core (s : State) (b : Nat) : (State.showBank s b).core = s.core := by
  simp only [State.showBank.eq_def, ↓State.setFlag_core, ↓State.setFld_core]

@[simp] theorem State.setNoz1_core (s : State) (b : Nat) (x : Nat) (e : NozEntry) :
    (State.setNoz1 s b x e).core = s.core := by
  simp only [State.setNoz1.eq_def, ↓State.core_keep]

@[simp] theorem State.setLoopBar_core (s : State) (b : Nat) (x : LoopBar) : (State.setLoopBar s b x).core = s.core := by
  simp only [State.setLoopBar.eq_def, ↓State.core_keep]

@[simp] theorem State.loopSwapped_core (s : State) (b : Nat) : (State.loopSwapped s b).core = s.core := by
  simp only [State.loopSwapped.eq_def, ↓State.setNoz1_core, ↓State.setLoopBar_core, ↓State.setFld_core,
    ↓State.finishSlot_core, ↓foldl_core, implies_true]

@[simp] theorem State.swapBar_core (s : State) (b : Nat) : (State.swapBar s b).core = s.core := by
  simp only [State.swapBar.eq_def, ↓State.setFld_core, ↓State.showBank_core, ↓State.setBar_core,
    ↓State.raiseIf_core, ↓State.loopSwapped_core]

@[simp] theorem State.swapRequest_core (s : State) (b : Nat) : (State.swapRequest s b).core = s.core := by
  simp only [State.swapRequest.eq_def, ↓State.setFld_core, ↓State.swapBar_core, ↓ite_core, ite_self]

@[simp] theorem State.putDose_core (s : State) (e : RegEntry) (old : Word) (new : Word) :
    (State.putDose s e old new).core = s.core := by
  simp only [State.putDose.eq_def, ↓State.setReg_core, ↓State.showStackMax_core, ↓State.setBar_core,
    ↓State.swapRequest_core, ↓ite_core, ite_self]

@[simp] theorem State.setBoard_core (s : State) (k : Nat) (x : Board) : (State.setBoard s k x).core = s.core := by
  simp only [State.setBoard.eq_def, ↓State.core_keep]

@[simp] theorem State.headSend_core (s : State) (k : Nat) (l : Nat) (b : List Byte) :
    (State.headSend s k l b).core = s.core := by
  simp only [State.headSend.eq_def, ↓State.emit_core, ↓State.laneSent_core]

@[simp] theorem State.boardSend_core (s : State) (k : Nat) (type : Nat) (flags : Nat) (frame : Nat) (body : List
    Byte) :
    (State.boardSend s k type flags frame body).core = s.core := by
  simp only [State.boardSend.eq_def, ↓State.headSend_core]

@[simp] theorem State.sendHello_core (s : State) (k : Nat) : (State.sendHello s k).core = s.core := by
  simp only [State.sendHello.eq_def, ↓State.setBoard_core, ↓State.boardSend_core]

@[simp] theorem State.setBst_core (s : State) (k : Nat) (v : Nat) : (State.setBst s k v).core = s.core := by
  simp only [State.setBst.eq_def, ↓State.setFld_core]

@[simp] theorem State.boardTrain_core (s : State) (k : Nat) : (State.boardTrain s k).core = s.core := by
  simp only [State.boardTrain.eq_def, ↓State.sendHello_core, ↓State.setBst_core, ↓ite_core, ite_self]

@[simp] theorem State.setCredits_core (s : State) (k : Nat) (v : Nat) : (State.setCredits s k v).core = s.core := by
  simp only [State.setCredits.eq_def, ↓State.setFld_core]

@[simp] theorem State.boardOff_core (s : State) (k : Nat) : (State.boardOff s k).core = s.core := by
  simp only [State.boardOff.eq_def, ↓State.setBoard_core, ↓State.setCredits_core, ↓State.setBst_core]

@[simp] theorem State.boardRefresh_core (s : State) (k : Nat) : (State.boardRefresh s k).core = s.core := by
  simp only [State.boardRefresh.eq_def, ↓State.boardTrain_core, ↓State.setBst_core, ↓State.boardOff_core, ↓ite_core,
    ite_self]

@[simp] theorem State.boardEnable_core (s : State) (k : Nat) (v : Bool) : (State.boardEnable s k v).core = s.core := by
  simp only [State.boardEnable.eq_def, ↓State.boardRefresh_core, ↓State.setFlag_core]

@[simp] theorem State.boardClear_core (s : State) (k : Nat) : (State.boardClear s k).core = s.core := by
  simp only [State.boardClear.eq_def, ↓State.setFld_core, ↓State.setBoard_core, ↓State.sendHello_core, ↓ite_core,
    ite_self]

@[simp] theorem State.fireEvent_core (s : State) (bit : Nat) (tag : Option Nat) :
    (State.fireEvent s bit tag).core = s.core := by
  simp only [State.fireEvent.eq_def, ↓State.raiseIf_core]

@[simp] theorem State.setReq_core (s : State) (v : Nat) : (State.setReq s v).core = s.core := by
  simp only [State.setReq.eq_def, ↓State.fireEvent_core, ↓State.setFld_core, ↓ite_core, ite_self]

@[simp] theorem State.putFire_core (s : State) (e : RegEntry) (old : Word) (new : Word) :
    (State.putFire s e old new).core = s.core := by
  simp only [State.putFire.eq_def, ↓State.setReg_core, ↓State.boardEnable_core, ↓State.boardClear_core,
    ↓State.setReq_core, ↓ite_core, ite_self]

@[simp] theorem State.setCalPair_core (s : State) (kind : Nat) (inst : Nat) (p : CalPair) :
    (State.setCalPair s kind inst p).core = s.core := by
  simp only [State.setCalPair.eq_def, ↓State.core_keep]

@[simp] theorem State.calVerify_core (s : State) (kind : Nat) (inst : Nat) :
    (State.calVerify s kind inst).core = s.core := by
  rw [State.calVerify.eq_def] <;> (try simp only [↓State.setFld_core, ↓State.bump_core, ↓State.log1_core,
      ↓State.setCalPair_core, ↓foldl_core, ↓ite_core, ↓dite_core, ↓reduceIte, ite_self, implies_true,
      ↓State.core_keep]) <;> repeat' ((first | split | (rw [foldl_core]; intro s x)) <;> try simp only [↓State.setFld_core,
      ↓State.bump_core, ↓State.log1_core, ↓State.setCalPair_core, ↓foldl_core, ↓ite_core, ↓dite_core, ↓reduceIte,
      ite_self, implies_true, ↓State.core_keep])

@[simp] theorem State.portStart_core (s : State) (n : Nat) : (State.portStart s n).core = s.core := by
  simp only [State.portStart.eq_def, ↓State.calVerify_core, ↓State.setCam_core]

@[simp] theorem State.closeFrame_core (s : State) (n : Nat) (short : Bool) :
    (State.closeFrame s n short).core = s.core := by
  simp only [State.closeFrame.eq_def, ↓State.setFld_core, ↓State.setCam_core]

@[simp] theorem State.capEnable_core (s : State) (n : Nat) (v : Bool) : (State.capEnable s n v).core = s.core := by
  simp only [State.capEnable.eq_def, ↓State.setFlag_core, ↓State.portStart_core, ↓State.setFld_core,
    ↓State.setCam_core, ↓State.closeFrame_core, ↓ite_core, ite_self]

@[simp] theorem State.kalPdat_core (s : State) (p : Nat) (v : Word) : (State.kalPdat s p v).core = s.core := by
  simp only [State.kalPdat.eq_def, ↓State.bumpWrap_core, ↓State.setCam_core]

@[simp] theorem State.putKal_core (s : State) (e : RegEntry) (new : Word) : (State.putKal s e new).core = s.core := by
  rw [State.putKal.eq_def]
  repeat' split
  all_goals simp only [↓State.setReg_core, ↓State.setCam_core, ↓State.kalPdat_core]

@[simp] theorem State.showTabPend_core (s : State) : (State.showTabPend s).core = s.core := by
  simp only [State.showTabPend.eq_def, ↓State.setFlag_core]

@[simp] theorem State.rsmpApply_core (s : State) (n : Nat) : (State.rsmpApply s n).core = s.core := by
  simp only [State.rsmpApply.eq_def, ↓State.setCam_core, ↓State.showTabPend_core, ↓ite_core, ite_self]

@[simp] theorem State.rsmpSwap_core (s : State) (r : Nat) : (State.rsmpSwap s r).core = s.core := by
  simp only [State.rsmpSwap.eq_def, ↓State.setFld_core, ↓ite_core, ite_self]

@[simp] theorem State.rsmpPdat_core (s : State) (r : Nat) (v : Word) : (State.rsmpPdat s r v).core = s.core := by
  simp only [State.rsmpPdat.eq_def, ↓State.bumpWrap_core, ↓State.setCam_core]

@[simp] theorem State.putRsmp_core (s : State) (e : RegEntry) (new : Word) : (State.putRsmp s e new).core = s.core := by
  rw [State.putRsmp.eq_def]
  repeat' split
  all_goals simp only [↓State.setReg_core, ↓State.rsmpApply_core, ↓State.rsmpSwap_core, ↓State.rsmpPdat_core]

@[simp] theorem State.zeroCorr_core (s : State) : (State.zeroCorr s).core = s.core := by
  simp only [State.zeroCorr.eq_def, ↓State.setCam_core, ↓foldl_core, ↓ite_core, ite_self, implies_true]

@[simp] theorem State.gather_core (s : State) (f : Finding) (x : Nat) : (State.gather s f x).core = s.core := by
  simp only [State.gather.eq_def, ↓State.setLoopBar_core, ↓ite_core, ite_self]

@[simp] theorem State.nozEvent_core (s : State) (bit : Nat) (shown : Fld) :
    (State.nozEvent s bit shown).core = s.core := by
  simp only [State.nozEvent.eq_def, ↓State.raiseIf_core, ↓State.setFld_core]

@[simp] theorem State.countEntry_core (s : State) (state : Nat) : (State.countEntry s state).core = s.core := by
  rw [State.countEntry.eq_def]
  repeat' split
  all_goals simp only [↓State.nozEvent_core, ↓State.bump_core]

@[simp] theorem State.setRecRing_core (s : State) (r : Nat) (x : RecRing) : (State.setRecRing s r x).core = s.core := by
  simp only [State.setRecRing.eq_def, ↓State.core_keep]

@[simp] theorem State.addRecord_core (s : State) (r : Nat) (make : Nat → List Byte) :
    (State.addRecord s r make).core = s.core := by
  simp only [State.addRecord.eq_def, ↓State.setRecRing_core, ↓ite_core, ite_self]

@[simp] theorem State.nozRecord_core (s : State) (f : Finding) (x : Nat) (old : Nat) (e : NozEntry) :
    (State.nozRecord s f x old e).core = s.core := by
  simp only [State.nozRecord.eq_def, ↓State.addRecord_core]

@[simp] theorem State.nozEnter_core (s : State) (f : Finding) (x : Nat) (state : Nat) (conf : Nat) (hold : Bool) :
    (State.nozEnter s f x state conf hold).core = s.core := by
  simp only [State.nozEnter.eq_def, ↓State.gather_core, ↓State.countEntry_core, ↓State.setNoz1_core,
    ↓State.nozRecord_core]

@[simp] theorem State.holdBase_core (s : State) (b : Nat) (sub : SubTable) : (State.holdBase s b sub).core = s.core := by
  simp only [State.holdBase.eq_def, ↓State.nozEnter_core, ↓State.setNoz1_core, ↓foldl_core, ↓ite_core, ite_self,
    implies_true]

@[simp] theorem State.loopOn_core (s : State) (b : Nat) : (State.loopOn s b).core = s.core := by
  simp only [State.loopOn.eq_def, ↓State.holdBase_core, ↓State.setLoopBar_core]

@[simp] theorem State.loopOff_core (s : State) (b : Nat) : (State.loopOff s b).core = s.core := by
  simp only [State.loopOff.eq_def, ↓State.setLoopBar_core, ↓State.finishSlot_core, ↓foldl_core, implies_true]

@[simp] theorem State.setLoops_core (s : State) (mask : Nat) : (State.setLoops s mask).core = s.core := by
  simp only [State.setLoops.eq_def, ↓State.setFld_core, ↓State.loopOn_core, ↓State.loopOff_core, ↓foldl_core,
    ↓ite_core, ite_self, implies_true]

@[simp] theorem State.putNoz_core (s : State) (e : RegEntry) (old : Word) (new : Word) :
    (State.putNoz s e old new).core = s.core := by
  simp only [State.putNoz.eq_def, ↓State.setLoops_core, ↓State.setReg_core, ↓ite_core, ite_self]

@[simp] theorem State.encEnabled_core (s : State) (e : Nat) : (State.encEnabled s e).core = s.core := by
  simp only [State.encEnabled.eq_def, ↓State.setFld_core]

@[simp] theorem State.axEnter_core (s : State) (a : Nat) (st : Nat) : (State.axEnter s a st).core = s.core := by
  simp only [State.axEnter.eq_def, ↓State.setFld_core, ↓State.emit_core, ↓ite_core, ite_self]

@[simp] theorem State.setFldI_core (s : State) (f : Fld) (x : Int) : (State.setFldI s f x).core = s.core := by
  simp only [State.setFldI.eq_def, ↓State.setFld_core]

@[simp] theorem State.setAxPos_core (s : State) (a : Nat) (p : Int) : (State.setAxPos s a p).core = s.core := by
  simp only [State.setAxPos.eq_def, ↓State.setFldI_core]

@[simp] theorem State.setAxis_core (s : State) (a : Nat) (x : Axis) : (State.setAxis s a x).core = s.core := by
  simp only [State.setAxis.eq_def, ↓State.core_keep]

@[simp] theorem State.axShift_core (s : State) (a : Nat) (d : Int) : (State.axShift s a d).core = s.core := by
  simp only [State.axShift.eq_def, ↓State.setAxPos_core, ↓State.setAxis_core]

@[simp] theorem State.homeUndone_core (s : State) (a : Nat) : (State.homeUndone s a).core = s.core := by
  simp only [State.homeUndone.eq_def, ↓State.setFld_core, ↓State.axShift_core, ↓State.setAxis_core, ↓ite_core,
    ite_self]

@[simp] theorem State.axPlan_core (s : State) (a : Nat) (p : AxisPlan) : (State.axPlan s a p).core = s.core := by
  simp only [State.axPlan.eq_def, ↓State.setAxis_core]

@[simp] theorem State.axRamp_core (s : State) (a : Nat) (kind : Nat) : (State.axRamp s a kind).core = s.core := by
  rw [State.axRamp.eq_def]
  repeat' split
  all_goals simp only [↓State.axPlan_core]

@[simp] theorem State.axEvent_core (s : State) (a : Nat) (bit : Nat) (tag : Option Nat) :
    (State.axEvent s a bit tag).core = s.core := by
  simp only [State.axEvent.eq_def, ↓State.raiseIf_core]

@[simp] theorem State.limitTrip_core (s : State) (a : Nat) : (State.limitTrip s a).core = s.core := by
  rw [State.limitTrip.eq_def] <;> (try simp only [↓State.log1_core, ↓State.homeUndone_core, ↓State.setAxis_core,
      ↓State.setFld_core, ↓State.axRamp_core, ↓State.axEvent_core, ↓State.axEnter_core, ↓foldl_core, ↓ite_core,
      ↓dite_core, ↓reduceIte, ite_self, implies_true,
      ↓State.core_keep]) <;> repeat' ((first | split | (rw [foldl_core]; intro s x)) <;> try simp only [↓State.log1_core,
      ↓State.homeUndone_core, ↓State.setAxis_core, ↓State.setFld_core, ↓State.axRamp_core, ↓State.axEvent_core,
      ↓State.axEnter_core, ↓foldl_core, ↓ite_core, ↓dite_core, ↓reduceIte, ite_self, implies_true,
      ↓State.core_keep])

@[simp] theorem State.axFollowing_core (s : State) (a : Nat) : (State.axFollowing s a).core = s.core := by
  simp only [State.axFollowing.eq_def, ↓State.axEnter_core, ↓State.setAxis_core]

@[simp] theorem State.axSettle_core (s : State) (a : Nat) : (State.axSettle s a).core = s.core := by
  simp only [State.axSettle.eq_def, ↓State.axEnter_core, ↓State.limitTrip_core, ↓State.axFollowing_core, ↓ite_core,
    ite_self]

@[simp] theorem State.liftLeft_core (s : State) (a : Nat) : (State.liftLeft s a).core = s.core := by
  simp only [State.liftLeft.eq_def, ↓State.axEvent_core, ↓ite_core, ite_self]

@[simp] theorem State.setCons_core (s : State) (k : Nat) (x : EvtCons) : (State.setCons s k x).core = s.core := by
  simp only [State.setCons.eq_def, ↓State.core_keep]

@[simp] theorem State.endTask_core (s : State) (k : Nat) : (State.endTask s k).core = s.core := by
  simp only [State.endTask.eq_def, ↓State.setCons_core, ↓ite_core, ite_self]

@[simp] theorem State.axAnswer_core (s : State) (a : Nat) : (State.axAnswer s a).core = s.core := by
  rw [State.axAnswer.eq_def] <;> (try simp only [↓State.finishSlot_core, ↓State.setAxis_core, ↓foldl_core,
      ↓ite_core, ↓dite_core, ↓reduceIte, ite_self, implies_true,
      ↓State.core_keep]) <;> repeat' ((first | split | (rw [foldl_core]; intro s x)) <;> try simp only [↓State.finishSlot_core,
      ↓State.setAxis_core, ↓foldl_core, ↓ite_core, ↓dite_core, ↓reduceIte, ite_self, implies_true,
      ↓State.core_keep])

@[simp] theorem State.axEnabled_core (s : State) (a : Nat) : (State.axEnabled s a).core = s.core := by
  simp only [State.axEnabled.eq_def, ↓State.axSettle_core, ↓State.liftLeft_core, ↓State.setFld_core,
    ↓State.axEnter_core, ↓State.endTask_core, ↓State.axAnswer_core, ↓State.setAxis_core, ↓ite_core, ite_self]

@[simp] theorem State.followWritten_core (s : State) (a : Nat) : (State.followWritten s a).core = s.core := by
  simp only [State.followWritten.eq_def, ↓State.axFollowing_core, ↓State.axSettle_core, ↓State.setAxis_core,
    ↓ite_core, ite_self]

@[simp] theorem State.showLimit_core (s : State) (a : Nat) : (State.showLimit s a).core = s.core := by
  simp only [State.showLimit.eq_def, ↓State.setFlag_core]

@[simp] theorem State.limitSelected_core (s : State) (a : Nat) : (State.limitSelected s a).core = s.core := by
  simp only [State.limitSelected.eq_def, ↓State.showLimit_core, ↓State.limitTrip_core, ↓ite_core, ite_self]

@[simp] theorem State.putAxis_core (s : State) (e : RegEntry) (old : Word) (new : Word) :
    (State.putAxis s e old new).core = s.core := by
  rw [State.putAxis.eq_def]
  repeat' split
  all_goals simp only [↓State.setReg_core, ↓State.axEnabled_core, ↓State.followWritten_core,
    ↓State.limitSelected_core]

@[simp] theorem State.lockLost_core (s : State) (d : Nat) : (State.lockLost s d).core = s.core := by
  simp only [State.lockLost.eq_def, ↓State.setFld_core, ↓State.raiseIf_core, ↓ite_core, ite_self]

@[simp] theorem State.setClock_core (s : State) (d : Nat) (c : Clock) : (State.setClock s d c).core = s.core := by
  simp only [State.setClock.eq_def, ↓State.core_keep]

@[simp] theorem State.sourceGone_core (s : State) (d : Nat) : (State.sourceGone s d).core = s.core := by
  simp only [State.sourceGone.eq_def, ↓State.lockLost_core, ↓State.setFld_core, ↓State.setClock_core]

@[simp] theorem State.showUtc_core (s : State) : (State.showUtc s).core = s.core := by
  rw [State.showUtc.eq_def]
  repeat' split
  all_goals simp only [↓State.setFld_core]

@[simp] theorem State.sourceChanged_core (s : State) (d : Nat) : (State.sourceChanged s d).core = s.core := by
  simp only [State.sourceChanged.eq_def, ↓State.setFld_core, ↓State.sourceGone_core, ↓State.setClock_core,
    ↓State.showUtc_core, ↓ite_core, ite_self]

@[simp] theorem State.hostLocked_core (s : State) (d : Nat) : (State.hostLocked s d).core = s.core := by
  simp only [State.hostLocked.eq_def, ↓State.setFld_core, ↓State.lockLost_core, ↓ite_core, ite_self]

@[simp] theorem State.alarmArmed_core (s : State) (d : Nat) : (State.alarmArmed s d).core = s.core := by
  simp only [State.alarmArmed.eq_def, ↓State.setClock_core, ↓State.setFld_core]

@[simp] theorem State.putTime_core (s : State) (e : RegEntry) (old : Word) (new : Word) :
    (State.putTime s e old new).core = s.core := by
  simp only [State.putTime.eq_def, ↓State.setReg_core, ↓State.sourceChanged_core, ↓State.hostLocked_core,
    ↓State.alarmArmed_core, ↓ite_core, ite_self]

@[simp] theorem State.putEvt_core (s : State) (e : RegEntry) (new : Word) : (State.putEvt s e new).core = s.core := by
  simp only [State.putEvt.eq_def, ↓State.setReg_core, ↓State.setCons_core, ↓ite_core, ite_self]

@[simp] theorem State.showDet_core (s : State) : (State.showDet s).core = s.core := by
  simp only [State.showDet.eq_def, ↓State.setFlag_core, ↓foldl_core, implies_true]

@[simp] theorem State.detWritten_core (s : State) : (State.detWritten s).core = s.core := by
  simp only [State.detWritten.eq_def, ↓State.showStackMax_core, ↓State.showDet_core]

@[simp] theorem State.putMem_core (s : State) (e : RegEntry) (new : Word) : (State.putMem s e new).core = s.core := by
  simp only [State.putMem.eq_def, ↓State.detWritten_core, ↓State.setReg_core, ↓ite_core, ite_self, ↓State.core_keep]

@[simp] theorem State.setChk_core (s : State) (u : Nat) (x : Chk) : (State.setChk s u x).core = s.core := by
  simp only [State.setChk.eq_def, ↓State.core_keep]

@[simp] theorem State.putLater_core (s : State) (e : RegEntry) : (State.putLater s e).core = s.core := by
  simp only [State.putLater.eq_def, ↓State.core_keep]

@[simp] theorem State.orLater_core (s : State) (f : Fld) (v : Nat) (act : State → State) (hact : ∀ y0, (act
    y0).core = y0.core) :
    (State.orLater s f v act).core = s.core := by
  simp only [State.orLater.eq_def, ↓State.putLater_core, ↓ite_core, ite_self, hact]

theorem execChkCheck_core (unit : Nat) (s : State) : ∃ t, (execChkCheck unit s) = .next t ∧ t.core = s.core := by
  exact ⟨_, rfl, by simp only [↓State.orLater_core, ↓State.setFld_core, ↓State.raise_core, ↓State.msixSignal_core,
    ↓ite_core, ite_self, implies_true]⟩

@[simp] theorem State.chkCompare_core (s : State) (u : Nat) : (State.chkCompare s u).core = s.core := by
  rw [State.chkCompare]
  split
  · rename_i t h
    obtain ⟨u', h', e⟩ := execChkCheck_core u s
    rw [h] at h'
    cases h'
    exact e
  · rfl

@[simp] theorem State.chkNext_core (s : State) (u : Nat) : (State.chkNext s u).core = s.core := by
  simp only [State.chkNext.eq_def, ↓State.bumpWrap_core]

@[simp] theorem State.chkPut_core (s : State) (u : Nat) (i : Nat) (v : Nat) : (State.chkPut s u i v).core = s.core := by
  rw [State.chkPut.eq_def]
  repeat' split
  all_goals simp only [↓State.setFld_core, ↓State.setChk_core]

@[simp] theorem State.putChk_core (s : State) (e : RegEntry) (old : Word) (new : Word) :
    (State.putChk s e old new).core = s.core := by
  rw [State.putChk.eq_def]
  repeat' split
  all_goals simp only [↓State.setReg_core, ↓State.setFld_core, ↓State.setChk_core, ↓State.chkCompare_core,
    ↓State.chkNext_core, ↓State.chkPut_core, ↓ite_core, ite_self]

@[simp] theorem State.laneLeft_core (s : State) (l : Nat) : (State.laneLeft s l).core = s.core := by
  simp only [State.laneLeft.eq_def, ↓State.setBst_core, ↓State.setBoard_core, ↓foldl_core, ↓ite_core, ite_self,
    implies_true]

@[simp] theorem State.setLaneGrp_core (s : State) (g : Nat) (x : LaneGroup) : (State.setLaneGrp s g x).core = s.core := by
  simp only [State.setLaneGrp.eq_def, ↓State.core_keep]

@[simp] theorem State.laneAbandon_core (s : State) (l : Nat) : (State.laneAbandon s l).core = s.core := by
  simp only [State.laneAbandon.eq_def, ↓State.setFld_core, ↓State.setLaneGrp_core, ↓ite_core, ite_self]

@[simp] theorem State.laneLose_core (s : State) (l : Nat) : (State.laneLose s l).core = s.core := by
  simp only [State.laneLose.eq_def, ↓State.bump_core, ↓State.setFld_core, ↓State.setLane_core, ↓State.laneLeft_core,
    ↓State.laneAbandon_core, ↓ite_core, ite_self]

@[simp] theorem State.laneOff_core (s : State) (l : Nat) : (State.laneOff s l).core = s.core := by
  simp only [State.laneOff.eq_def, ↓State.setFld_core, ↓State.laneLose_core, ↓State.setLane_core]

@[simp] theorem State.linkSend_core (s : State) (l : Nat) (kind : Nat) (arg : Nat) :
    (State.linkSend s l kind arg).core = s.core := by
  simp only [State.linkSend.eq_def, ↓State.emit_core, ↓State.laneSent_core]

@[simp] theorem State.laneSleep_core (s : State) (l : Nat) : (State.laneSleep s l).core = s.core := by
  simp only [State.laneSleep.eq_def, ↓State.setFld_core, ↓State.laneLose_core, ↓State.linkSend_core,
    ↓State.setLane_core]

@[simp] theorem State.laneTrain_core (s : State) (l : Nat) (kept : Bool) : (State.laneTrain s l kept).core = s.core := by
  simp only [State.laneTrain.eq_def, ↓State.setLane_core, ↓State.setFld_core]

@[simp] theorem State.laneAsk_core (s : State) (l : Nat) (code : Nat) : (State.laneAsk s l code).core = s.core := by
  simp only [State.laneAsk.eq_def, ↓State.linkSend_core, ↓State.setLane_core]

@[simp] theorem State.laneToward_core (s : State) (l : Nat) : (State.laneToward s l).core = s.core := by
  simp only [State.laneToward.eq_def, ↓State.laneOff_core, ↓State.laneSleep_core, ↓State.laneTrain_core,
    ↓State.laneAsk_core, ↓State.setLane_core, ↓ite_core, ite_self]

@[simp] theorem State.laneTarget_core (s : State) (l : Nat) (t : Nat) : (State.laneTarget s l t).core = s.core := by
  simp only [State.laneTarget.eq_def, ↓State.laneToward_core, ↓State.setFld_core, ↓State.laneAbandon_core]

@[simp] theorem State.laneRole_core (s : State) (l : Nat) (r : Nat) : (State.laneRole s l r).core = s.core := by
  simp only [State.laneRole.eq_def, ↓State.setFld_core, ↓State.laneOff_core, ↓State.laneToward_core, ↓ite_core,
    ite_self]

@[simp] theorem State.putLane_core (s : State) (e : RegEntry) (old : Word) (new : Word) :
    (State.putLane s e old new).core = s.core := by
  simp only [State.putLane.eq_def, ↓State.setReg_core, ↓State.laneTarget_core, ↓State.laneRole_core, ↓ite_core,
    ite_self]

@[simp] theorem State.setMon_core (s : State) (m : Nat) (x : Mon) : (State.setMon s m x).core = s.core := by
  simp only [State.setMon.eq_def, ↓State.core_keep]

@[simp] theorem State.monStart_core (s : State) (m : Nat) : (State.monStart s m).core = s.core := by
  simp only [State.monStart.eq_def, ↓State.setMon_core, ↓State.setFld_core]

@[simp] theorem State.monRestart_core (s : State) (m : Nat) : (State.monRestart s m).core = s.core := by
  simp only [State.monRestart.eq_def, ↓State.setFlag_core, ↓State.monStart_core]

@[simp] theorem State.monWrite_core (s : State) (m : Nat) (reg : Nat) (v : Word) :
    (State.monWrite s m reg v).core = s.core := by
  rw [State.monWrite.eq_def]
  repeat' split
  all_goals simp only [↓State.setReg_core, ↓State.monRestart_core]

@[simp] theorem State.showCanary_core (s : State) (c : Nat) : (State.showCanary s c).core = s.core := by
  simp only [State.showCanary.eq_def, ↓State.setFlag_core, ↓State.setFld_core, ↓ite_core, ite_self]

@[simp] theorem State.showCanaries_core (s : State) : (State.showCanaries s).core = s.core := by
  simp only [State.showCanaries.eq_def, ↓State.showCanary_core, ↓foldl_core, implies_true]

@[simp] theorem State.maskBreaks_core (s : State) : (State.maskBreaks s).core = s.core := by
  rw [State.maskBreaks.eq_def] <;> (try simp only [↓State.log1_core, ↓foldl_core, ↓ite_core, ↓dite_core, ↓reduceIte,
      ite_self, implies_true,
      ↓State.core_keep]) <;> repeat' ((first | split | (rw [foldl_core]; intro s x)) <;> try simp only [↓State.log1_core,
      ↓foldl_core, ↓ite_core, ↓dite_core, ↓reduceIte, ite_self, implies_true, ↓State.core_keep])

@[simp] theorem State.showGated_core (s : State) : (State.showGated s).core = s.core := by
  simp only [State.showGated.eq_def, ↓State.showCanaries_core, ↓State.setFld_core, ↓State.maskBreaks_core,
    ↓State.setFlag_core, ↓ite_core, ite_self]

@[simp] theorem State.undozeAll_core (s : State) : (State.undozeAll s).core = s.core := by
  simp only [State.undozeAll.eq_def, ↓State.showGated_core, ↓State.core_keep]

@[simp] theorem State.putWord_core (s : State) (e : RegEntry) (old : Word) (new : Word) :
    (State.putWord s e old new).core = s.core := by
  rw [State.putWord.eq_def] <;> (try simp only [↓State.putArb_core, ↓State.lockLimitWritten_core,
      ↓State.setReg_core, ↓State.putCmd_core, ↓State.putDma_core, ↓State.putDose_core, ↓State.putFire_core,
      ↓State.capEnable_core, ↓State.putKal_core, ↓State.putRsmp_core, ↓State.zeroCorr_core, ↓State.putNoz_core,
      ↓State.encEnabled_core, ↓State.putAxis_core, ↓State.putTime_core, ↓State.putEvt_core, ↓State.putMem_core,
      ↓State.putChk_core, ↓State.putLane_core, ↓State.monWrite_core, ↓State.undozeAll_core, ↓foldl_core, ↓ite_core,
      ↓dite_core, ↓reduceIte, ite_self, implies_true,
      ↓State.core_keep]) <;> repeat' ((first | split | (rw [foldl_core]; intro s x)) <;> try simp only [↓State.putArb_core,
      ↓State.lockLimitWritten_core, ↓State.setReg_core, ↓State.putCmd_core, ↓State.putDma_core, ↓State.putDose_core,
      ↓State.putFire_core, ↓State.capEnable_core, ↓State.putKal_core, ↓State.putRsmp_core, ↓State.zeroCorr_core,
      ↓State.putNoz_core, ↓State.encEnabled_core, ↓State.putAxis_core, ↓State.putTime_core, ↓State.putEvt_core,
      ↓State.putMem_core, ↓State.putChk_core, ↓State.putLane_core, ↓State.monWrite_core, ↓State.undozeAll_core,
      ↓foldl_core, ↓ite_core, ↓dite_core, ↓reduceIte, ite_self, implies_true, ↓State.core_keep])

theorem State.writeOne_core (s : State) (e : RegEntry) (t : State) (h : s.writeOne e = .ok t) : t.core = s.core := by
  rw [State.writeOne] at h
  split at h
  · cases h
  · split at h
    · cases h; rfl
    · dsimp only at h
      split at h
      · cases h
      · split at h
        · cases h
        · cases h
          split
          · exact State.putWord_core ..
          · rfl

@[simp] theorem State.writeAll_core (s : State) (x1 : List (Nat × RegEntry)) : (State.writeAll s x1).2.core = s.core := by
  induction x1 generalizing s with
  | nil => rfl
  | cons x l ih =>
    rw [State.writeAll]
    split
    · exact ih s
    · rename_i s1 h
      rw [ih, State.writeOne_core _ _ _ h]

@[simp] theorem State.commit_core (s : State) (l : List RegEntry) : (State.commit s l).core = s.core := by
  refine foldl_core _ (fun s e => ?_) l s
  split
  · exact State.putLater_core ..
  · split
    · rename_i t h
      exact State.writeOne_core _ _ _ h
    · rfl

@[simp] theorem State.writeField_core (s : State) (f : Fld) (v : Nat) : (State.writeField s f v).core = s.core := by
  rw [State.writeField]
  split
  · rfl
  · rw [State.tryWrites]
    dsimp only
    split
    · rename_i t h
      split at h
      · cases h
      · split at h
        · cases h
        · split at h
          · cases h
          · cases h
            split
            · exact State.commit_core ..
            · exact State.writeAll_core ..
    · exact State.modeRefused_core ..
    · rfl

@[simp] theorem State.take_core (s : State) (rq : Rq) : (State.take s rq).core = s.core := by
  simp only [State.take.eq_def, ↓State.core_keep]

@[simp] theorem State.lift_core (s : State) (sess : Nat) (tag : Nat) : (State.lift s sess tag).core = s.core := by
  simp only [State.lift.eq_def, ↓State.setFld_core, ↓ite_core, ite_self, ↓State.core_keep]

@[simp] theorem State.finish_core (s : State) (rq : Rq) (op : Nat) (status : Nat) (payload : List Byte) (more :
    Bool) :
    (State.finish s rq op status payload more).core = s.core := by
  simp only [State.finish.eq_def, ↓State.complete_core]

@[simp] theorem State.reject_core (s : State) (rq : Rq) (op : Nat) (reason : Nat) (block : Nat) (offset : Nat) :
    (State.reject s rq op reason block offset).core = s.core := by
  simp only [State.reject.eq_def, ↓State.finish_core]

@[simp] theorem State.runIn_core (s : State) (rq : Rq) (op : Nat) (doms : List Domain) (body : State → State)
    (hbody : ∀ y0, (body y0).core = y0.core) :
    (State.runIn s rq op doms body).core = s.core := by
  simp only [State.runIn, ↓ite_core, ↓State.lift_core, ↓State.finish_core, ↓State.take_core]
  split
  · rfl
  · split
    · split
      · exact (State.reject_core ..).trans (State.take_core ..)
      · rfl
    · split
      · simp only [↓ite_core, ↓State.finish_core, ↓State.take_core, hbody, ite_self]
      · rw [hbody, State.take_core]

@[simp] theorem State.run_core (s : State) (rq : Rq) (op : Nat) (body : State → State) (hbody : ∀ y0, (body
    y0).core = y0.core) :
    (State.run s rq op body).core = s.core := by
  rw [State.run, State.runIn_core _ _ _ _ _ hbody]

@[simp] theorem State.badParam_core (s : State) (rq : Rq) (op : Nat) (o : Nat) :
    (State.badParam s rq op o).core = s.core := by
  simp only [State.badParam.eq_def, ↓State.finish_core]

@[simp] theorem State.withParams_core (s : State) (rq : Rq) (op : Nat) (fields : List (Nat × Bool)) (body :
    State → State) (hbody : ∀ y0, (body y0).core = y0.core) :
    (State.withParams s rq op fields body).core = s.core := by
  rw [State.withParams]
  split
  · exact hbody s
  · exact State.badParam_core ..

@[simp] theorem State.enter_core (s : State) (st : Nat) : (State.enter s st).core = s.core := by
  simp only [State.enter.eq_def, ↓State.setFld_core, ↓ite_core, ite_self, ↓State.core_keep]

theorem execServiceEnter_core (rq : Rq) (s : State) : ∃ t, (execServiceEnter rq s) = .next t ∧ t.core = s.core := by
  exact ⟨_, rfl, by simp only [↓State.run_core, ↓State.withParams_core, ↓State.finish_core, ↓State.enter_core,
    implies_true]⟩

@[simp] theorem State.nozRewrite_core (s : State) (b : Nat) (x : Nat) (e : NozEntry) :
    (State.nozRewrite s b x e).core = s.core := by
  simp only [State.nozRewrite.eq_def, ↓State.setNoz1_core, ↓State.countEntry_core, ↓State.gather_core,
    ↓State.nozRecord_core, ↓ite_core, ite_self]

@[simp] theorem State.restoreHealth_core (s : State) (b : Nat) : (State.restoreHealth s b).core = s.core := by
  rw [State.restoreHealth.eq_def] <;> (try simp only [↓State.nozRewrite_core, ↓State.calVerify_core, ↓foldl_core,
      ↓ite_core, ↓dite_core, ↓reduceIte, ite_self, implies_true,
      ↓State.core_keep]) <;> repeat' ((first | split | (rw [foldl_core]; intro s x)) <;> try simp only [↓State.nozRewrite_core,
      ↓State.calVerify_core, ↓foldl_core, ↓ite_core, ↓dite_core, ↓reduceIte, ite_self, implies_true,
      ↓State.core_keep])

@[simp] theorem State.setEnc_core (s : State) (e : Nat) (x : Enc) : (State.setEnc s e x).core = s.core := by
  simp only [State.setEnc.eq_def, ↓State.setFldI_core, ↓State.core_keep]

@[simp] theorem State.setSpeed_core (s : State) (e : Nat) (v : Int) : (State.setSpeed s e v).core = s.core := by
  simp only [State.setSpeed.eq_def, ↓State.setFldI_core, ↓State.setEnc_core]

theorem execStillTimeout_core (enc : Nat) (s : State) : ∃ t, (execStillTimeout enc s) = .next t ∧ t.core = s.core := by
  exact ⟨_, rfl, by simp only [↓State.setFld_core, ↓State.setSpeed_core, ↓ite_core, ite_self]⟩

@[simp] theorem State.stageGains_core (s : State) (n : Nat) : (State.stageGains s n).core = s.core := by
  simp only [State.stageGains.eq_def, ↓State.setCam_core]

theorem execGainSetCompute_core (port : Nat) (s : State) :
    ∃ t, (execGainSetCompute port s) = .next t ∧ t.core = s.core := by
  exact ⟨_, rfl, by simp only [↓State.stageGains_core, ↓ite_core, ite_self]⟩

@[simp] theorem State.nextRotation_core (s : State) : (State.nextRotation s).core = s.core := by
  simp only [State.nextRotation.eq_def, ↓State.setFld_core, ↓ite_core, ite_self]

@[simp] theorem State.idleSend_core (s : State) (l : Nat) : (State.idleSend s l).core = s.core := by
  simp only [State.idleSend.eq_def, ↓State.emit_core, ↓State.laneSent_core]

@[simp] theorem State.workingRate_core (s : State) : (State.workingRate s).2.core = s.core := by
  rw [State.workingRate.eq_def] <;> (try simp only [↓State.calVerify_core, ↓State.log1_core, ↓foldl_core, ↓ite_core,
      ↓dite_core, ↓reduceIte, ite_self, implies_true,
      ↓State.core_keep]) <;> repeat' ((first | split | (rw [foldl_core]; intro s x)) <;> try simp only [↓State.calVerify_core,
      ↓State.log1_core, ↓foldl_core, ↓ite_core, ↓dite_core, ↓reduceIte, ite_self, implies_true, ↓State.core_keep])

@[simp] theorem State.chainAll_core (s : State) (type : Nat) (cls : Nat) (body : List Byte) :
    (State.chainAll s type cls body).core = s.core := by
  simp only [State.chainAll.eq_def, ↓State.chainSendOn_core]

@[simp] theorem State.raiseRate_core (s : State) (code : Nat) : (State.raiseRate s code).core = s.core := by
  simp only [State.raiseRate.eq_def, ↓State.setFld_core, ↓State.laneAsk_core, ↓foldl_core, ↓ite_core, ite_self,
    implies_true, ↓State.core_keep]

@[simp] theorem State.sendRecord_core (s : State) : (State.sendRecord s).core = s.core := by
  simp only [State.sendRecord.eq_def, ↓State.workingRate_core, ↓State.chainAll_core, ↓State.raiseRate_core]

@[simp] theorem State.chainStatusSet_core (s : State) (mask : Nat) (leader : Nat) (form : Nat) (w : Nat) (e :
    Nat) (epoch : Nat) :
    (State.chainStatusSet s mask leader form w e epoch).core = s.core := by
  simp only [State.chainStatusSet.eq_def, ↓State.raise_core, ↓ite_core, ite_self, ↓State.core_keep]

@[simp] theorem State.sendLeader_core (s : State) : (State.sendLeader s).core = s.core := by
  simp only [State.sendLeader.eq_def, ↓State.chainAll_core, ↓State.chainStatusSet_core]

@[simp] theorem State.announce_core (s : State) : (State.announce s).core = s.core := by
  simp only [State.announce.eq_def, ↓State.sendRecord_core, ↓State.sendLeader_core, ↓ite_core, ite_self]

@[simp] theorem State.discover_core (s : State) : (State.discover s).core = s.core := by
  simp only [State.discover.eq_def, ↓State.mend_core, ↓State.chainSendOn_core, ↓State.core_keep]

theorem execChainDiscovery_core (s : State) : ∃ t, (execChainDiscovery s) = .next t ∧ t.core = s.core := by
  exact ⟨_, rfl, by simp only [↓State.announce_core, ↓State.discover_core, ↓ite_core, ite_self]⟩

@[simp] theorem State.setChan_core (s : State) (c : Nat) (x : EvtChan) : (State.setChan s c x).core = s.core := by
  simp only [State.setChan.eq_def, ↓State.core_keep]

@[simp] theorem State.setCap_core (s : State) (k : Nat) (x : Capture) : (State.setCap s k x).core = s.core := by
  simp only [State.setCap.eq_def, ↓State.setFld_core, ↓State.core_keep]

@[simp] theorem State.capture_core (s : State) (k : Nat) : (State.capture s k).core = s.core := by
  simp only [State.capture.eq_def, ↓State.setCap_core]

@[simp] theorem State.deliverEvent_core (s : State) (prod : Nat) (tag : Nat) (k : Nat) :
    (State.deliverEvent s prod tag k).core = s.core := by
  simp only [State.deliverEvent.eq_def, ↓State.bump_core, ↓State.setFld_core, ↓State.setCons_core,
    ↓State.capture_core, ↓ite_core, ite_self]

@[simp] theorem State.passChannel_core (s : State) (prod : Nat) (tag : Nat) (derived : Bool) (c : Nat) :
    (State.passChannel s prod tag derived c).core = s.core := by
  simp only [State.passChannel.eq_def, ↓State.setChan_core, ↓State.breachOnce_core, ↓State.setFld_core,
    ↓State.deliverEvent_core, ↓foldl_core, ↓ite_core, ite_self, implies_true]

@[simp] theorem State.passEvent_core (s : State) (prod : Nat) (tag : Option Nat) :
    (State.passEvent s prod tag).core = s.core := by
  simp only [State.passEvent]
  split
  · rfl
  · refine (foldl_core _ (fun s c => State.passChannel_core ..) _ _).trans ?_
    simp only [↓ite_core, ↓State.bumpWrap_core, ↓State.core_keep, ite_self]

theorem execEventRaise_core (prod : Nat) (tag : Option Nat) (s : State) :
    ∃ t, (execEventRaise prod tag s) = .next t ∧ t.core = s.core := by
  exact ⟨_, rfl, by simp only [↓State.passEvent_core]⟩

@[simp] theorem State.axOutput_core (active : Bool) (s : State) (a : Nat) :
    (State.axOutput active s a).core = s.core := by
  simp only [State.axOutput.eq_def, ↓State.emit_core, ↓ite_core, ite_self]

@[simp] theorem State.axesDeep_core (s : State) : (State.axesDeep s).core = s.core := by
  simp only [State.axesDeep.eq_def, ↓State.setFld_core, ↓State.axOutput_core, ↓foldl_core, implies_true]

@[simp] theorem State.posEvent_core (s : State) (e : Nat) (bit : Nat) (prod : Nat) :
    (State.posEvent s e bit prod).core = s.core := by
  simp only [State.posEvent.eq_def, ↓State.raiseIf_core]

@[simp] theorem State.indexCheck_core (s : State) (e : Nat) : (State.indexCheck s e).core = s.core := by
  simp only [State.indexCheck.eq_def, ↓State.setFld_core, ↓State.log1_core, ↓State.setEnc_core,
    ↓State.posEvent_core, ↓State.bump_core, ↓ite_core, ite_self]

@[simp] theorem State.respond_core (s : State) (src : PktSrc) (rep : Reply) :
    (State.respond s src rep).core = s.core := by
  rw [State.respond.eq_def]
  repeat' split
  all_goals simp only [↓State.ringReply_core, ↓State.sendDatagram_core, ↓State.chainTo_core]

@[simp] theorem State.refuse_core (s : State) (src : PktSrc) (h : Header) (status : Nat) (payload : List Byte) :
    (State.refuse s src h status payload).core = s.core := by
  simp only [State.refuse.eq_def, ↓State.respond_core]

@[simp] theorem State.setInFlight_core (s : State) (l : List Forwarded) : (State.setInFlight s l).core = s.core := by
  simp only [State.setInFlight.eq_def, ↓State.core_keep]

@[simp] theorem State.forward_core (s : State) (sess : Nat) (b : List Byte) (src : Option (Nat × Nat)) :
    (State.forward s sess b src).core = s.core := by
  simp only [State.forward.eq_def, ↓State.setSession_core, ↓State.setInFlight_core, ↓State.chainTo_core, ↓ite_core,
    ite_self]

@[simp] theorem State.acceptOpen_core (s : State) (ip : Nat) (port : Nat) (b : List Byte) :
    (State.acceptOpen s ip port b).core = s.core := by
  rw [State.acceptOpen.eq_def] <;> (try simp only [↓State.refuse_core, ↓State.forward_core, ↓State.enqueue_core,
      ↓foldl_core, ↓ite_core, ↓dite_core, ↓reduceIte, ite_self, implies_true,
      ↓State.core_keep]) <;> repeat' ((first | split | (rw [foldl_core]; intro s x)) <;> try simp only [↓State.refuse_core,
      ↓State.forward_core, ↓State.enqueue_core, ↓foldl_core, ↓ite_core, ↓dite_core, ↓reduceIte, ite_self,
      implies_true, ↓State.core_keep])

@[simp] theorem State.releasePages_core (s : State) : (State.releasePages s).core = s.core := by
  simp only [State.releasePages.eq_def, ↓State.core_keep]

@[simp] theorem State.latchBoard_core (s : State) (k : Nat) (bit : Fld) : (State.latchBoard s k bit).core = s.core := by
  simp only [State.latchBoard.eq_def, ↓State.setBoard_core, ↓State.setFld_core, ↓State.setBst_core, ↓ite_core,
    ite_self]

@[simp] theorem State.updDecided_core (s : State) (k : Nat) (f : Nat) (u : Decided → Decided) :
    (State.updDecided s k f u).core = s.core := by
  simp only [State.updDecided.eq_def, ↓State.setBoard_core]

@[simp] theorem State.echoFault_core (s : State) : (State.echoFault s).core = s.core := by
  simp only [State.echoFault.eq_def, ↓State.fireEvent_core, ↓State.setFld_core]

@[simp] theorem State.closeGap_core (s : State) (k : Nat) : (State.closeGap s k).core = s.core := by
  rw [State.closeGap.eq_def]
  repeat' split
  all_goals simp only [↓State.setBoard_core, ↓State.addRecord_core, ↓State.bump_core, ↓ite_core, ite_self]

@[simp] theorem State.addGap_core (s : State) (k : Nat) (d : Decided) : (State.addGap s k d).core = s.core := by
  rw [State.addGap.eq_def]
  repeat' split
  all_goals simp only [↓State.setBoard_core, ↓State.closeGap_core]

@[simp] theorem State.settleFront_core (s : State) (k : Nat) (x2 : Nat) : (State.settleFront s k x2).core = s.core := by
  induction x2 generalizing s with
  | zero => rfl
  | succ n ih =>
    rw [State.settleFront]
    split
    · split
      · rw [ih]; split
        · rw [State.closeGap_core, State.setBoard_core]
        · rw [State.addGap_core, State.setBoard_core]
      · rfl
    · rfl

@[simp] theorem State.settle_core (s : State) (k : Nat) : (State.settle s k).core = s.core := by
  simp only [State.settle.eq_def, ↓State.settleFront_core, ↓State.closeGap_core, ↓ite_core, ite_self]

@[simp] theorem State.queueBack_core (s : State) (w : Nat) (wrong : Option Nat) :
    (State.queueBack s w wrong).core = s.core := by
  simp only [State.queueBack.eq_def, ↓State.core_keep]

@[simp] theorem State.reportCorrected_core (s : State) (c : Nat) (w : Nat) (scrub : Bool) :
    (State.reportCorrected s c w scrub).core = s.core := by
  simp only [State.reportCorrected.eq_def, ↓State.bump_core, ↓State.setFld_core, ↓State.log1_core,
    ↓State.addRecord_core, ↓ite_core, ite_self, ↓State.core_keep]

@[simp] theorem State.latchUe_core (s : State) (a : Nat) (action : Nat) (region : Nat) (c : Nat) (input : Nat)
    (scrub : Bool) :
    (State.latchUe s a action region c input scrub).core = s.core := by
  simp only [State.latchUe.eq_def, ↓State.setFld_core, ↓State.setFlag_core, ↓ite_core, ite_self]

@[simp] theorem State.captureLost_core (s : State) (a : Nat) : (State.captureLost s a).core = s.core := by
  rw [State.captureLost.eq_def]
  repeat' split
  all_goals simp only [↓State.setCam_core]

@[simp] theorem State.setWord_core (s : State) (w : Nat) (bad : Bool) : (State.setWord s w bad).core = s.core := by
  simp only [State.setWord.eq_def, ↓State.core_keep]

@[simp] theorem State.reportLost_core (s : State) (n : Nat) (c : Nat) (input : Nat) (w : Nat) (scrub : Bool) :
    (State.reportLost s n c input w scrub).core = s.core := by
  simp only [State.reportLost.eq_def, ↓State.setFld_core, ↓State.bump_core, ↓State.addRecord_core,
    ↓State.raiseIf_core, ↓State.log1_core, ↓State.latchUe_core, ↓State.captureLost_core, ↓State.setWord_core,
    ↓ite_core, ite_self]

@[simp] theorem State.readWord_core (s : State) (c : Nat) (input : Nat) (w : Nat) (scrub : Bool) :
    (State.readWord s c input w scrub).core = s.core := by
  rw [State.readWord.eq_def] <;> (try simp only [↓State.queueBack_core, ↓State.reportCorrected_core,
      ↓State.reportLost_core, ↓foldl_core, ↓ite_core, ↓dite_core, ↓reduceIte, ite_self, implies_true,
      ↓State.core_keep]) <;> repeat' ((first | split | (rw [foldl_core]; intro s x)) <;> try simp only [↓State.queueBack_core,
      ↓State.reportCorrected_core, ↓State.reportLost_core, ↓foldl_core, ↓ite_core, ↓dite_core, ↓reduceIte, ite_self,
      implies_true, ↓State.core_keep])

@[simp] theorem State.upset_core (s : State) (w : Nat) (sym : Nat) (pat : Nat) :
    (State.upset s w sym pat).core = s.core := by
  simp only [State.upset.eq_def, ↓State.core_keep]

@[simp] theorem State.inject_core (s : State) (at_ : Nat) (n : Nat) : (State.inject s at_ n).core = s.core := by
  rw [State.inject.eq_def]
  repeat' split
  all_goals simp only [↓State.upset_core, ↓State.setFld_core]

@[simp] theorem State.phaseFail_core (s : State) (p : Nat) : (State.phaseFail s p).core = s.core := by
  simp only [State.phaseFail.eq_def, ↓State.setFld_core, ↓State.log1_core, ↓ite_core, ite_self]

theorem execEngineDoze_core (engine : Nat) (s : State) : ∃ t, (execEngineDoze engine s) = .next t ∧ t.core = s.core := by
  exact ⟨_, rfl, by simp only [↓State.bump_core, ↓State.showGated_core, ↓ite_core, ite_self, ↓State.core_keep]⟩

@[simp] theorem State.clearRc_core (s : State) (a : Nat) : (State.clearRc s a).core = s.core := by
  rw [State.clearRc.eq_def]
  repeat' split
  all_goals simp only [↓State.setReg_core]

@[simp] theorem State.latch_core (s : State) (path : Path) (a : Nat) : (State.latch s path a).core = s.core := by
  simp only [State.latch.eq_def, ↓State.core_keep]

@[simp] theorem State.releaseCap_core (s : State) : (State.releaseCap s).core = s.core := by
  simp only [State.releaseCap.eq_def, ↓State.endTask_core, ↓State.setCap_core, ↓ite_core, ite_self]

@[simp] theorem State.readEffect_core (s : State) (path : Path) (a : Nat) :
    (State.readEffect s path a).core = s.core := by
  simp only [State.readEffect.eq_def, ↓State.clearRc_core, ↓State.latch_core, ↓State.setCons_core,
    ↓State.setChan_core, ↓State.setFld_core, ↓State.releaseCap_core, ↓State.chkNext_core, ↓foldl_core, ↓ite_core,
    ite_self, implies_true]

@[simp] theorem State.bar0Read_core (s : State) (a : Nat) : (State.bar0Read s a).core = s.core := by
  simp only [State.bar0Read.eq_def, ↓State.emit_core, ↓State.readEffect_core, ↓ite_core, ite_self]

@[simp] theorem State.readOn_core (s : State) (path : Path) (a : Nat) : (State.readOn s path a).core = s.core := by
  rw [State.readOn.eq_def]
  repeat' split
  all_goals simp only [↓State.bar0Read_core, ↓State.readEffect_core]

@[simp] theorem State.readRange_core (s : State) (a : Nat) (x2 : Nat) : (State.readRange s a x2).2.core = s.core := by
  induction x2 generalizing s a with
  | zero => rfl
  | succ n ih => rw [State.readRange]; exact (ih _ _).trans (State.readOn_core ..)

theorem execReadReg_core (rq : Rq) (addr : Nat) (count : Nat) (s : State) :
    ∃ t, (execReadReg rq addr count s) = .next t ∧ t.core = s.core := by
  exact ⟨_, rfl, by simp only [↓State.runIn_core, ↓State.withParams_core, ↓State.readRange_core, ↓State.finish_core,
    implies_true]⟩

@[simp] theorem State.showStore_core (s : State) : (State.showStore s).core = s.core := by
  simp only [State.showStore.eq_def, ↓State.setFld_core, ↓ite_core, ite_self, ↓State.core_keep]

@[simp] theorem State.calWrite_core (s : State) (kind : Nat) (inst : Nat) (content : List Nat) (calibrated : Bool) :
    (State.calWrite s kind inst content calibrated).core = s.core := by
  simp only [State.calWrite.eq_def, ↓State.showStore_core, ↓State.setCalPair_core]

@[simp] theorem State.calRate_core (s : State) (code : Nat) : (State.calRate s code).core = s.core := by
  simp only [State.calRate.eq_def, ↓State.sendRecord_core, ↓State.calWrite_core]

theorem execFireClear_core (board : Nat) (s : State) : ∃ t, (execFireClear board s) = .next t ∧ t.core = s.core := by
  exact ⟨_, rfl, by simp only [↓State.orLater_core, ↓State.boardClear_core, ↓ite_core, ite_self, implies_true]⟩

@[simp] theorem State.setStaged_core (s : State) (op : Nat) (inst : Nat) (x : Staging) :
    (State.setStaged s op inst x).core = s.core := by
  simp only [State.setStaged.eq_def, ↓State.core_keep]

@[simp] theorem State.loadChunk_core (s : State) (rq : Rq) (op : Nat) (limit : Nat) (mayReset : Bool) (c :
    Chunk) (commit : List Byte → List Byte → State → State) (hcommit : ∀ y0 y1 y2, (commit y0 y1 y2).core = y2.core)
    :
    (State.loadChunk s rq op limit mayReset c commit).core = s.core := by
  rw [State.loadChunk.eq_def] <;> (try simp only [↓State.withParams_core, ↓State.badParam_core, ↓State.finish_core,
      ↓State.setStaged_core, ↓foldl_core, ↓ite_core, ↓dite_core, ↓reduceIte, ite_self, implies_true,
      ↓State.core_keep,
      hcommit]) <;> repeat' ((first | (rw [State.withParams_core]; intro s) | split | (rw [foldl_core]; intro s x)) <;> try simp only [↓State.withParams_core,
      ↓State.badParam_core, ↓State.finish_core, ↓State.setStaged_core, ↓foldl_core, ↓ite_core, ↓dite_core,
      ↓reduceIte, ite_self, implies_true, ↓State.core_keep, hcommit])

@[simp] theorem State.loadTable_core (s : State) (rq : Rq) (op : Nat) (limit : Nat) (c : Chunk) (inUse : Bool)
    (discard : State → State) (commit : List Byte → List Byte → State → State) (hdiscard : ∀ y0, (discard y0).core =
    y0.core) (hcommit : ∀ y0 y1 y2, (commit y0 y1 y2).core = y2.core) :
    (State.loadTable s rq op limit c inUse discard commit).core = s.core := by
  simp only [State.loadTable, ite_core, State.finish_core, State.loadChunk_core _ _ _ _ _ _ _ hcommit, hdiscard, ite_self]

@[simp] theorem State.setPend_core (s : State) (b : Nat) (d : DoseBank) : (State.setPend s b d).core = s.core := by
  simp only [State.setPend.eq_def, ↓State.showBank_core, ↓State.setBar_core]

@[simp] theorem State.stageBank_core (s : State) (b : Nat) (d : DoseBank) : (State.stageBank s b d).core = s.core := by
  simp only [State.stageBank.eq_def, ↓State.setPend_core, ↓State.swapRequest_core, ↓ite_core, ite_self]

theorem execGainLoad_core (rq : Rq) (chunk : Chunk) (s : State) :
    ∃ t, (execGainLoad rq chunk s) = .next t ∧ t.core = s.core := by
  rw [execGainLoad.eq_def]
  repeat' split
  all_goals refine ⟨_, rfl, ?_⟩
  all_goals (try simp only [↓State.run_core, ↓State.loadTable_core, ↓State.setPend_core, ↓State.reject_core,
      ↓State.finish_core, ↓State.setLoopBar_core, ↓State.stageBank_core, ↓foldl_core, ↓ite_core, ↓dite_core,
      ↓reduceIte, ite_self, implies_true, ↓State.core_keep])
  all_goals repeat' ((first | (rw [State.loadTable_core] <;> [(intro s); (intro t rep s)]) | (rw [State.run_core]; intro s) | split | (rw [foldl_core]; intro s x)) <;> try simp only [↓State.run_core,
      ↓State.loadTable_core, ↓State.setPend_core, ↓State.reject_core, ↓State.finish_core, ↓State.setLoopBar_core,
      ↓State.stageBank_core, ↓foldl_core, ↓ite_core, ↓dite_core, ↓reduceIte, ite_self, implies_true,
      ↓State.core_keep])

@[simp] theorem State.showFom_core (s : State) (l : Nat) (fom : Nat) : (State.showFom s l fom).core = s.core := by
  simp only [State.showFom.eq_def, ↓State.setFld_core, ↓State.setLane_core, ↓ite_core, ite_self]

@[simp] theorem State.makeCrop_core (s : State) (c : Comp) (wanted : Bool) :
    (State.makeCrop s c wanted).2.2.core = s.core := by
  rw [State.makeCrop.eq_def]
  repeat' split
  all_goals simp only [↓State.jigEvent_core, ↓State.bump_core, ↓State.core_keep]

theorem State.takeEntry_core (s : State) (page : Nat) (r : Nat × State) (h :
    s.takeEntry page = some r) :
    r.2.core = s.core := by
  rw [State.takeEntry] at h
  split at h
  · cases h; rfl
  · split at h
    · cases h
    · cases h; rfl

@[simp] theorem State.pageStart_core (s : State) (w : StartWait) (range : Nat) :
    (State.pageStart s w range).core = s.core := by
  rw [State.pageStart]
  split
  · exact State.finishSlot_core ..
  · split
    · exact State.finishSlot_core ..
    · rename_i id s' h
      rw [State.chainStart_core, State.setPage_core, State.takeEntry_core _ _ _ h]

theorem execPageSubmitStart_core (s : State) : ∃ t, (execPageSubmitStart s) = .next t ∧ t.core = s.core := by
  rw [execPageSubmitStart.eq_def]
  refine ⟨_, rfl, ?_⟩
  repeat' split
  all_goals simp only [↓State.pageStart_core, ↓State.core_keep]

@[simp] theorem State.lanesDeep_core (s : State) : (State.lanesDeep s).core = s.core := by
  simp only [State.lanesDeep.eq_def, ↓State.laneAbandon_core, ↓State.laneSleep_core, ↓State.laneAsk_core,
    ↓foldl_core, ↓ite_core, ite_self, implies_true]

@[simp] theorem State.onLink_core (s : State) (lane : Nat) (blk : List Byte) (act : Nat → Nat → State) (hact : ∀
    y0 y1, (act y0 y1).core = s.core) :
    (State.onLink s lane blk act).core = s.core := by
  rw [State.onLink.eq_def]
  repeat' split
  all_goals simp only [↓State.bump_core, hact]

theorem execLinkAlign_core (lane : Nat) (blk : List Byte) (pos : Nat) (s : State) :
    ∃ t, (execLinkAlign lane blk pos s) = .next t ∧ t.core = s.core := by
  exact ⟨_, rfl, by simp only [↓State.onLink_core, ↓State.setLane_core, ↓ite_core, ite_self, implies_true]⟩

@[simp] theorem State.endIngests_core (s : State) : (State.endIngests s).core = s.core := by
  simp only [State.endIngests.eq_def, ↓State.stopPage_core, ↓State.finishSlot_core, ↓foldl_core, ↓ite_core,
    ite_self, implies_true, ↓State.core_keep]

@[simp] theorem State.storeHealth_core (s : State) : (State.storeHealth s).core = s.core := by
  simp only [State.storeHealth.eq_def, ↓State.calWrite_core, ↓foldl_core, ↓ite_core, ite_self, implies_true,
    ↓State.core_keep]

@[simp] theorem State.storePaper_core (s : State) : (State.storePaper s).core = s.core := by
  simp only [State.storePaper.eq_def, ↓State.calWrite_core, ↓State.setCam_core, ↓foldl_core, ↓ite_core, ite_self,
    implies_true]

@[simp] theorem State.storeAtEnd_core (s : State) : (State.storeAtEnd s).core = s.core := by
  simp only [State.storeAtEnd.eq_def, ↓State.storeHealth_core, ↓State.storePaper_core]

@[simp] theorem State.flushGaps_core (s : State) : (State.flushGaps s).core = s.core := by
  simp only [State.flushGaps.eq_def, ↓State.closeGap_core, ↓foldl_core, ↓ite_core, ite_self, implies_true]

@[simp] theorem State.showFill_core (s : State) (b : Nat) : (State.showFill s b).core = s.core := by
  simp only [State.showFill.eq_def, ↓State.setFlag_core, ↓State.setFld_core]

@[simp] theorem State.pps_core (s : State) (d : Nat) : (State.pps s d).core = s.core := by
  simp only [State.pps.eq_def, ↓State.raiseIf_core]

@[simp] theorem State.interrupt_core (s : State) (c : Nat) (ticks : Nat) (bank : Option Nat) :
    (State.interrupt s c ticks bank).core = s.core := by
  simp only [State.interrupt.eq_def, ↓State.setFld_core, ↓State.core_keep]

@[simp] theorem State.closeRows_core (s : State) (c : Nat) (bank : Option Nat) :
    (State.closeRows s c bank).core = s.core := by
  simp only [State.closeRows.eq_def, ↓State.core_keep]

@[simp] theorem State.targetRefresh_core (s : State) (c : Nat) (bank : Nat) :
    (State.targetRefresh s c bank).core = s.core := by
  simp only [State.targetRefresh.eq_def, ↓State.bump_core, ↓State.interrupt_core, ↓State.closeRows_core]

@[simp] theorem State.targetDue_core (s : State) (e : Nat × Nat × Nat) : (State.targetDue s e).core = s.core := by
  simp only [State.targetDue.eq_def, ↓State.targetRefresh_core, ↓ite_core, ite_self, ↓State.core_keep]

@[simp] theorem State.targetsTick_core (s : State) : (State.targetsTick s).core = s.core := by
  simp only [State.targetsTick.eq_def, ↓State.targetDue_core, ↓foldl_core, implies_true]

@[simp] theorem State.axStart_core (s : State) (a : Nat) (st : Nat) (target : Int) (speed : Nat) :
    (State.axStart s a st target speed).core = s.core := by
  simp only [State.axStart.eq_def, ↓State.setFld_core, ↓State.setAxis_core, ↓State.axEnter_core, ↓State.axPlan_core]

@[simp] theorem State.verifySlot_core (s : State) (bad : List Nat) (b : Bool) :
    (State.verifySlot s bad b).2.core = s.core := by
  rw [State.verifySlot.eq_def]
  repeat' split
  all_goals simp only [↓State.log1_core, ↓State.setFld_core]

@[simp] theorem State.lockFree_core (s : State) (k : Nat) : (State.lockFree s k).core = s.core := by
  simp only [State.lockFree.eq_def, ↓State.lockPass_core]

theorem execLockRelease_core (rq : Rq) (lock : Nat) (s : State) :
    ∃ t, (execLockRelease rq lock s) = .next t ∧ t.core = s.core := by
  exact ⟨_, rfl, by simp only [↓State.run_core, ↓State.withParams_core, ↓State.finish_core, ↓State.lockFree_core,
    ↓ite_core, ite_self, implies_true]⟩

@[simp] theorem State.restoreLog_core (s : State) : (State.restoreLog s).core = s.core := by
  simp only [State.restoreLog.eq_def, ↓State.core_keep]

@[simp] theorem State.keepSupply_core (s t : State) : (s.keepSupply t).core = t.core := by
  simp only [State.keepSupply]
  rw [State.core_keep]
  exact foldl_core _ (fun s f => State.setFld_core ..) _ _

@[simp] theorem State.fireIdle_core (s : State) : (State.fireIdle s).core = s.core := by
  simp only [State.fireIdle.eq_def, ↓State.emit_core, ↓State.setBoard_core, ↓foldl_core, ↓ite_core, ite_self,
    implies_true]

@[simp] theorem State.runSlot_core (s : State) (b : Bool) : (State.runSlot s b).core = s.core := by
  simp only [State.runSlot.eq_def, ↓State.setFlag_core, ↓State.setFld_core]

@[simp] theorem State.bootImage_core (s : State) (bad : List Nat) : (State.bootImage s bad).2.core = s.core := by
  rw [State.bootImage.eq_def] <;> (try simp only [↓State.verifySlot_core, ↓State.runSlot_core, ↓State.setFld_core,
      ↓foldl_core, ↓ite_core, ↓dite_core, ↓reduceIte, ite_self, implies_true,
      ↓State.core_keep]) <;> repeat' ((first | split | (rw [foldl_core]; intro s x)) <;> try simp only [↓State.verifySlot_core,
      ↓State.runSlot_core, ↓State.setFld_core, ↓foldl_core, ↓ite_core, ↓dite_core, ↓reduceIte, ite_self,
      implies_true, ↓State.core_keep])

@[simp] theorem State.bootStep_core (s : State) (n : Nat) : (State.bootStep s n).core = s.core := by
  simp only [State.bootStep.eq_def, ↓State.setFld_core]

@[simp] theorem State.followStop_core (s : State) (a : Nat) : (State.followStop s a).core = s.core := by
  simp only [State.followStop.eq_def, ↓State.setAxis_core, ↓State.axSettle_core, ↓State.setFld_core]

@[simp] theorem State.axEstop_core (s : State) (a : Nat) : (State.axEstop s a).core = s.core := by
  rw [State.axEstop.eq_def]
  repeat' split
  all_goals simp only [↓State.followStop_core, ↓State.axRamp_core]

@[simp] theorem State.copyLog_core (s : State) : (State.copyLog s).core = s.core := by
  simp only [State.copyLog.eq_def, ↓State.core_keep]

@[simp] theorem State.failExecuting_core (s : State) (entry : Nat) : (State.failExecuting s entry).core = s.core := by
  simp only [State.failExecuting.eq_def, ↓State.finishSlot_core, ↓State.setFld_core, ↓foldl_core, implies_true,
    ↓State.core_keep]

@[simp] theorem State.halt_core (s : State) (n : Nat) : (State.halt s n).core = s.core := by
  simp only [State.halt.eq_def, ↓State.setFld_core, ↓State.setReq_core, ↓State.fireIdle_core, ↓State.enter_core,
    ↓State.axEstop_core, ↓State.showGated_core, ↓State.copyLog_core, ↓State.failExecuting_core, ↓foldl_core,
    implies_true, ↓State.core_keep]

@[simp] theorem State.setCluster_core (s : State) (c : Nat) (x : Cluster) : (State.setCluster s c x).core = s.core := by
  simp only [State.setCluster.eq_def, ↓State.core_keep]

@[simp] theorem State.tookOver_core (s : State) (c : Nat) (slot : Nat) (phys : Nat) (cause : Nat) :
    (State.tookOver s c slot phys cause).core = s.core := by
  simp only [State.tookOver.eq_def, ↓State.bump_core, ↓State.setCluster_core, ↓State.setFld_core,
    ↓State.raiseIf_core, ↓State.log1_core]

@[simp] theorem State.spareTakes_core (s : State) (c : Nat) (slot : Nat) (cause : Nat) :
    (State.spareTakes s c slot cause).core = s.core := by
  simp only [State.spareTakes.eq_def, ↓State.setCluster_core, ↓State.showGated_core, ↓State.tookOver_core,
    ↓State.nextRotation_core, ↓ite_core, ite_self]

@[simp] theorem State.spareExhausted_core (s : State) (c : Nat) (slot : Nat) :
    (State.spareExhausted s c slot).core = s.core := by
  simp only [State.spareExhausted.eq_def, ↓State.setCluster_core, ↓State.log1_core, ↓State.setFld_core,
    ↓State.showGated_core]

@[simp] theorem State.selfTestFail_core (s : State) (e : Nat) : (State.selfTestFail s e).core = s.core := by
  simp only [State.selfTestFail.eq_def, ↓State.log1_core, ↓State.setCluster_core, ↓State.spareTakes_core,
    ↓State.spareExhausted_core, ↓ite_core, ite_self]

@[simp] theorem State.selfTest_core (s : State) (failed : List Nat) : (State.selfTest s failed).core = s.core := by
  simp only [State.selfTest.eq_def, ↓State.selfTestFail_core, ↓foldl_core, implies_true]

@[simp] theorem State.readStore_core (s : State) : (State.readStore s).core = s.core := by
  simp only [State.readStore.eq_def, ↓State.calVerify_core, ↓foldl_core, implies_true]

@[simp] theorem State.strapLanes_core (s : State) : (State.strapLanes s).core = s.core := by
  simp only [State.strapLanes.eq_def, ↓State.laneToward_core, ↓State.setFld_core, ↓foldl_core, implies_true]

@[simp] theorem State.bootEnd_core (s : State) (ms : Nat) : (State.bootEnd s ms).core = s.core := by
  simp only [State.bootEnd.eq_def, ↓State.setFld_core, ↓State.bootStep_core, ↓State.enter_core, ↓ite_core, ite_self]

@[simp] theorem State.bootTrain_core (s : State) (env : BootEnv) : (State.bootTrain s env).core = s.core := by
  simp only [State.bootTrain.eq_def, ↓State.log1_core, ↓State.showDet_core, ↓State.halt_core, ↓State.selfTest_core,
    ↓State.bootStep_core, ↓State.readStore_core, ↓State.strapLanes_core, ↓State.bootEnd_core, ↓foldl_core,
    ↓ite_core, ite_self, implies_true]

@[simp] theorem State.ptpHold_core (s : State) (port : Nat) (m : PtpMsg) : (State.ptpHold s port m).core = s.core := by
  rw [State.ptpHold.eq_def]
  repeat' split
  all_goals simp only [↓State.core_keep]

@[simp] theorem State.targeted_core (s : State) (c : Nat) (input : Nat) (p : Nat × Nat × Nat) :
    (State.targeted s c input p).core = s.core := by
  simp only [State.targeted.eq_def, ↓State.targetRefresh_core, ↓ite_core, ite_self, ↓State.core_keep]

@[simp] theorem State.showThrottle_core (s : State) (c : Nat) : (State.showThrottle s c).core = s.core := by
  rw [State.showThrottle.eq_def]
  repeat' split
  all_goals simp only [↓State.setFld_core]

@[simp] theorem State.throttleEvent_core (s : State) (c : Nat) (input : Nat) (p : Nat × Nat × Nat) :
    (State.throttleEvent s c input p).core = s.core := by
  simp only [State.throttleEvent.eq_def, ↓State.setFld_core, ↓State.bump_core, ↓State.log1_core,
    ↓State.targeted_core, ↓State.showThrottle_core, ↓ite_core, ite_self, ↓State.core_keep]

@[simp] theorem countKib_core (s : State) (f : Fld) (rest : Nat) (n : Nat) : (countKib s f rest n).2.core = s.core := by
  simp only [countKib.eq_def, ↓State.bump_core]

theorem execNozzleStateRead_core (rq : Rq) (first : Nat) (count : Nat) (s : State) :
    ∃ t, (execNozzleStateRead rq first count s) = .next t ∧ t.core = s.core := by
  exact ⟨_, rfl, by simp only [↓State.run_core, ↓State.withParams_core, ↓State.finish_core, implies_true]⟩

theorem execMsixUnmask_core (vector : Nat) (s : State) : ∃ t, (execMsixUnmask vector s) = .next t ∧ t.core = s.core := by
  exact ⟨_, rfl, by simp only [↓State.emit_core, ↓ite_core, ite_self, ↓State.core_keep]⟩

theorem execChkDataRead_core (path : Path) (unit : Nat) (s : State) :
    ∃ t, (execChkDataRead path unit s) = .next t ∧ t.core = s.core := by
  exact ⟨_, rfl, by simp only [↓State.readOn_core, ↓ite_core, ite_self]⟩

@[simp] theorem State.hold_core (s : State) : (State.hold s).core = s.core := by
  simp only [State.hold.eq_def, ↓State.core_keep]

@[simp] theorem State.pause_core (s : State) : (State.pause s).core = s.core := by
  simp only [State.pause.eq_def, ↓State.enter_core, ↓State.hold_core]

@[simp] theorem State.ethDown_core (s : State) (p : Nat) : (State.ethDown s p).core = s.core := by
  simp only [State.ethDown.eq_def, ↓State.setFld_core]

@[simp] theorem State.ethChange_core (s : State) : (State.ethChange s).core = s.core := by
  simp only [State.ethChange.eq_def, ↓State.ethDown_core, ↓foldl_core, ↓ite_core, ite_self, implies_true]

@[simp] theorem State.camerasDeep_core (s : State) : (State.camerasDeep s).core = s.core := by
  simp only [State.camerasDeep.eq_def, ↓State.setCam_core, ↓State.closeFrame_core, ↓foldl_core, ↓ite_core, ite_self,
    implies_true]

@[simp] theorem State.draw_core (s : State) : (State.draw s).2.core = s.core := by
  simp only [State.draw.eq_def, ↓State.core_keep]

@[simp] theorem State.maskAll_core (s : State) (v : Nat) : (State.maskAll s v).core = s.core := by
  simp only [State.maskAll.eq_def, ↓State.setFld_core, ↓foldl_core, implies_true, ↓State.core_keep]

@[simp] theorem State.leaveSelfRefresh_core (s : State) (c : Nat) : (State.leaveSelfRefresh s c).core = s.core := by
  simp only [State.leaveSelfRefresh.eq_def, ↓State.interrupt_core, ↓State.setFld_core, ↓ite_core, ite_self]

@[simp] theorem State.dramDeep_core (s : State) (enter : Bool) : (State.dramDeep s enter).core = s.core := by
  simp only [State.dramDeep.eq_def, ↓State.setFld_core, ↓State.closeRows_core, ↓State.leaveSelfRefresh_core,
    ↓foldl_core, ↓ite_core, ite_self, implies_true]

@[simp] theorem State.sourcesDeep_core (s : State) : (State.sourcesDeep s).core = s.core := by
  simp only [State.sourcesDeep.eq_def, ↓State.sourceGone_core, ↓foldl_core, ↓ite_core, ite_self, implies_true]

@[simp] theorem State.enterDeep_core (s : State) : (State.enterDeep s).core = s.core := by
  simp only [State.enterDeep.eq_def, ↓State.ethChange_core, ↓State.lanesDeep_core, ↓State.axesDeep_core,
    ↓State.camerasDeep_core, ↓State.draw_core, ↓State.setFld_core, ↓State.bump_core, ↓State.maskAll_core,
    ↓State.dramDeep_core, ↓State.sourcesDeep_core, ↓State.enter_core, ↓State.maskBreaks_core,
    ↓State.showCanaries_core, ↓ite_core, ite_self]

theorem execEngineLockRelease_core (engine : Nat) (lock : Nat) (s : State) :
    ∃ t, (execEngineLockRelease engine lock s) = .next t ∧ t.core = s.core := by
  exact ⟨_, rfl, by simp only [↓State.tellEngine_core, ↓State.lockFree_core, ↓ite_core, ite_self]⟩

theorem execAxisEstop_core (axis : Nat) (s : State) : ∃ t, (execAxisEstop axis s) = .next t ∧ t.core = s.core := by
  exact ⟨_, rfl, by simp only [↓State.axEstop_core, ↓State.endTask_core, ↓State.setAxis_core, ↓ite_core, ite_self]⟩

@[simp] theorem State.setRsmp_core (s : State) (r : Nat) (x : Rsmp) : (State.setRsmp s r x).core = s.core := by
  simp only [State.setRsmp.eq_def, ↓State.core_keep]

theorem execResampleCoefLoad_core (rq : Rq) (chunk : Chunk) (s : State) :
    ∃ t, (execResampleCoefLoad rq chunk s) = .next t ∧ t.core = s.core := by
  rw [execResampleCoefLoad.eq_def]
  repeat' split
  all_goals refine ⟨_, rfl, ?_⟩
  all_goals (try simp only [↓State.run_core, ↓State.finish_core, ↓State.loadTable_core, ↓State.setFld_core,
      ↓State.reject_core, ↓State.setRsmp_core, ↓State.rsmpSwap_core, ↓foldl_core, ↓ite_core, ↓dite_core, ↓reduceIte,
      ite_self, implies_true, ↓State.core_keep])
  all_goals repeat' ((first | (rw [State.loadTable_core] <;> [(intro s); (intro t rep s)]) | (rw [State.run_core]; intro s) | split | (rw [foldl_core]; intro s x)) <;> try simp only [↓State.run_core,
      ↓State.finish_core, ↓State.loadTable_core, ↓State.setFld_core, ↓State.reject_core, ↓State.setRsmp_core,
      ↓State.rsmpSwap_core, ↓foldl_core, ↓ite_core, ↓dite_core, ↓reduceIte, ite_self, implies_true,
      ↓State.core_keep])

theorem execEnergyCapExpiry_core (s : State) : ∃ t, (execEnergyCapExpiry s) = .next t ∧ t.core = s.core := by
  rw [execEnergyCapExpiry.eq_def]
  exact ⟨_, rfl, rfl⟩

@[simp] theorem State.noPair_core (s : State) (n : Nat) : (State.noPair s n).core = s.core := by
  simp only [State.noPair.eq_def, ↓State.log1_core, ↓State.halt_core, ↓ite_core, ite_self]

theorem execChainStatus_core (rq : Rq) (s : State) : ∃ t, (execChainStatus rq s) = .next t ∧ t.core = s.core := by
  exact ⟨_, rfl, by simp only [↓State.run_core, ↓State.withParams_core, ↓State.finish_core, implies_true]⟩

@[simp] theorem State.recSignal_core (s : State) (r : Nat) : (State.recSignal s r).core = s.core := by
  simp only [State.recSignal.eq_def, ↓State.setRecRing_core, ↓State.msixSignal_core, ↓ite_core, ite_self]

@[simp] theorem State.withProfile_core (s : State) (k : Nat) (t : List Byte) :
    (State.withProfile s k t).core = s.core := by
  simp only [State.withProfile.eq_def, ↓State.setBoard_core]

@[simp] theorem State.profileInForce_core (s : State) (k : Nat) (t : List Byte) :
    (State.profileInForce s k t).core = s.core := by
  simp only [State.profileInForce.eq_def, ↓State.withProfile_core, ↓State.boardOff_core, ↓State.laneRole_core,
    ↓State.showStackMax_core, ↓State.boardRefresh_core, ↓foldl_core, implies_true]

@[simp] theorem State.keepFloor_core (s : State) : (State.keepFloor s).core = s.core := by
  simp only [State.keepFloor.eq_def, ↓ite_core, ite_self, ↓State.core_keep]

@[simp] theorem State.newWindow_core (s : State) (c : Nat) : (State.newWindow s c).core = s.core := by
  simp only [State.newWindow.eq_def, ↓ite_core, ite_self, ↓State.core_keep]

@[simp] theorem State.activate_core (s : State) (c : Nat) (input : Nat) (p : Nat × Nat × Nat) :
    (State.activate s c input p).core = s.core := by
  simp only [State.activate.eq_def, ↓State.newWindow_core, ↓State.throttleEvent_core, ↓ite_core, ite_self,
    ↓State.core_keep]

@[simp] theorem State.showNozzles_core (s : State) : (State.showNozzles s).core = s.core := by
  simp only [State.showNozzles.eq_def, ↓State.setFld_core]

@[simp] theorem State.operatorFinding_core (s : State) (f : Finding) : (State.operatorFinding s f).core = s.core := by
  simp only [State.operatorFinding.eq_def, ↓State.finishSlot_core, ↓State.gather_core, ↓State.setNoz1_core,
    ↓State.nozEnter_core, ↓State.setLoopBar_core, ↓ite_core, ite_self]

@[simp] theorem State.cutChain_core (s : State) (ch : Nat) : (State.cutChain s ch).core = s.core := by
  simp only [State.cutChain.eq_def, ↓State.haltDone_core, ↓State.chainPage_core, ↓State.dmaMark_core,
    ↓State.chainStop_core, ↓ite_core, ite_self]

@[simp] theorem State.mendC1_core (s : State) : (State.mendC1 s).core = s.core := by
  simp only [State.mendC1.eq_def, ↓State.mend_core, ↓ite_core, ite_self]

@[simp] theorem State.disown_core (s : State) (n : Nat) (d : Nat) : (State.disown s n d).core = s.core := by
  simp only [State.disown.eq_def, ↓State.core_keep]

@[simp] theorem State.tellClosed_core (s : State) (n : Nat) : (State.tellClosed s n).core = s.core := by
  simp only [State.tellClosed.eq_def, ↓State.chainTo_core, ↓foldl_core, implies_true]

@[simp] theorem State.lockKeep_core (s : State) (k : Nat) (ws : List LockWait) :
    (State.lockKeep s k ws).core = s.core := by
  simp only [State.lockKeep.eq_def, ↓State.setLock_core]

@[simp] theorem State.locksOfBreak_core (s : State) (engine : Bool) (client : Nat) :
    (State.locksOfBreak s engine client).core = s.core := by
  simp only [State.locksOfBreak.eq_def, ↓State.lockKeep_core, ↓State.lockBreak_core, ↓foldl_core, ↓ite_core,
    ite_self, implies_true]

@[simp] theorem State.showOpen_core (s : State) (n : Nat) (op : Bool) : (State.showOpen s n op).core = s.core := by
  simp only [State.showOpen.eq_def, ↓State.setFld_core]

@[simp] theorem State.closeSession_core (s : State) (n : Nat) : (State.closeSession s n).core = s.core := by
  simp only [State.closeSession.eq_def, ↓State.disown_core, ↓State.tellClosed_core, ↓State.locksOfBreak_core,
    ↓State.showOpen_core, ↓State.setSession_core, ↓State.core_keep]

@[simp] theorem State.cutRing_core (s : State) (r : Nat) : (State.cutRing s r).core = s.core := by
  simp only [State.cutRing.eq_def, ↓State.setRing_core, ↓State.setFld_core, ↓State.mendC1_core,
    ↓State.setStall_core, ↓State.closeSession_core]

@[simp] theorem State.withdrawRing_core (s : State) (r : Nat) : (State.withdrawRing s r).core = s.core := by
  simp only [State.withdrawRing.eq_def, ↓State.mendC1_core, ↓State.setRecRing_core]

@[simp] theorem State.linkGone_core (s : State) : (State.linkGone s).core = s.core := by
  simp only [State.linkGone.eq_def, ↓State.setFld_core]

theorem execPcieReset_core (kind : PcieReset) (s : State) : ∃ t, (execPcieReset kind s) = .next t ∧ t.core = s.core := by
  rw [execPcieReset.eq_def]
  refine ⟨_, rfl, ?_⟩
  repeat' split
  all_goals simp only [↓State.cutChain_core, ↓State.cutRing_core, ↓State.withdrawRing_core, ↓State.bump_core,
    ↓State.setFld_core, ↓State.linkGone_core, ↓State.log1_core, ↓foldl_core, implies_true, ↓State.core_keep]

theorem execRecordDeliver_core (ring : Nat) (s : State) :
    ∃ t, (execRecordDeliver ring s) = .next t ∧ t.core = s.core := by
  rw [execRecordDeliver.eq_def]
  repeat' split
  all_goals refine ⟨_, rfl, ?_⟩
  all_goals (try simp only [↓State.emit_core, ↓State.recSignal_core, ↓State.setRecRing_core, ↓foldl_core, ↓ite_core,
      ↓dite_core, ↓reduceIte, ite_self, implies_true, ↓State.core_keep])
  all_goals repeat' ((first | split | (rw [foldl_core]; intro s x)) <;> try simp only [↓State.emit_core,
      ↓State.recSignal_core, ↓State.setRecRing_core, ↓foldl_core, ↓ite_core, ↓dite_core, ↓reduceIte, ite_self,
      implies_true, ↓State.core_keep])

@[simp] theorem State.setAxPlace_core (s : State) (a : Nat) (q : Int) : (State.setAxPlace s a q).core = s.core := by
  simp only [State.setAxPlace.eq_def, ↓State.setAxis_core, ↓State.setAxPos_core]

@[simp] theorem State.axStand_core (s : State) (a : Nat) : (State.axStand s a).core = s.core := by
  simp only [State.axStand.eq_def, ↓State.axAnswer_core, ↓State.axEvent_core, ↓State.axEnter_core,
    ↓State.endTask_core, ↓State.axSettle_core, ↓ite_core, ite_self]

@[simp] theorem State.axAdvance_core (s : State) (a : Nat) (p : AxisPlan) : (State.axAdvance s a p).core = s.core := by
  simp only [State.axAdvance.eq_def, ↓State.setAxPlace_core, ↓State.setAxis_core, ↓State.axStand_core, ↓ite_core,
    ite_self]

@[simp] theorem State.readMem_core (s : State) (input : Nat) (a : Nat) (n : Nat) :
    (State.readMem s input a n).core = s.core := by
  simp only [State.readMem.eq_def, ↓State.readWord_core, ↓foldl_core, implies_true]

@[simp] theorem State.readLine_core (s : State) (n : Nat) (c : Nat) (w : Nat) :
    (State.readLine s n c w).core = s.core := by
  rw [State.readLine.eq_def]
  repeat' split
  all_goals simp only [↓State.readMem_core]

@[simp] theorem State.takeoverFail_core (s : State) (g : Nat) : (State.takeoverFail s g).core = s.core := by
  simp only [State.takeoverFail.eq_def, ↓State.setLaneGrp_core, ↓State.setFld_core, ↓State.bump_core]

theorem execTakeoverTimeout_core (group : Nat) (s : State) :
    ∃ t, (execTakeoverTimeout group s) = .next t ∧ t.core = s.core := by
  exact ⟨_, rfl, by simp only [↓State.takeoverFail_core, ↓ite_core, ite_self]⟩

theorem execTscapRelease_core (path : Path) (s : State) : ∃ t, (execTscapRelease path s) = .next t ∧ t.core = s.core := by
  exact ⟨_, rfl, by simp only [↓State.readOn_core]⟩

@[simp] theorem State.openReply_core (s : State) (ip : Nat) (port : Nat) (rq : Rq) (status : Nat) (payload :
    List Byte) :
    (State.openReply s ip port rq status payload).core = s.core := by
  simp only [State.openReply.eq_def, ↓State.respond_core, ↓ite_core, ite_self]

@[simp] theorem State.openBad_core (s : State) (ip : Nat) (port : Nat) (rq : Rq) (o : Nat) :
    (State.openBad s ip port rq o).core = s.core := by
  simp only [State.openBad.eq_def, ↓State.openReply_core]

@[simp] theorem State.endMaint_core (s : State) : (State.endMaint s).core = s.core := by
  simp only [State.endMaint.eq_def, ↓State.setFld_core, ↓foldl_core, implies_true, ↓State.core_keep]

theorem execArbFairnessWrite_core (junction : Nat) (mode : Nat) (s : State) :
    ∃ t, (execArbFairnessWrite junction mode s) = .next t ∧ t.core = s.core := by
  exact ⟨_, rfl, by simp only [↓State.writeField_core, ↓ite_core, ite_self]⟩

theorem execKpsJobHeader_core (ch : Nat) (bytes : List Byte) (s : State) :
    ∃ t, (execKpsJobHeader ch bytes s) = .next t ∧ t.core = s.core := by
  rw [execKpsJobHeader.eq_def]
  refine ⟨_, rfl, ?_⟩
  repeat' split
  all_goals simp only [↓State.failPage_core, ↓State.shortPage_core, ↓State.setPage_core, ↓ite_core, ite_self]

theorem execCameraSetTransfer_core (port : Nat) (s : State) :
    ∃ t, (execCameraSetTransfer port s) = .next t ∧ t.core = s.core := by
  rw [execCameraSetTransfer.eq_def]
  refine ⟨_, rfl, ?_⟩
  repeat' split
  all_goals simp only [↓State.setFld_core, ↓State.emit_core, ↓State.setCam_core]

theorem execChainStandbyEntry_core (s : State) : ∃ t, (execChainStandbyEntry s) = .next t ∧ t.core = s.core := by
  exact ⟨_, rfl, by simp only [↓State.enter_core, ↓ite_core, ite_self]⟩

@[simp] theorem State.pend_core (s : State) (rq : Rq) (op : Nat) : (State.pend s rq op).core = s.core := by
  simp only [State.pend.eq_def, ↓State.setSlot_core, ↓ite_core, ite_self]

theorem execAxisStop_core (rq : Rq) (axis : Nat) (ramp : Nat) (s : State) :
    ∃ t, (execAxisStop rq axis ramp s) = .next t ∧ t.core = s.core := by
  rw [execAxisStop.eq_def]
  repeat' split
  all_goals refine ⟨_, rfl, ?_⟩
  all_goals (try simp only [↓State.run_core, ↓State.withParams_core, ↓State.followStop_core, ↓State.finish_core,
      ↓State.axRamp_core, ↓State.axEnter_core, ↓State.pend_core, ↓State.setAxis_core, ↓foldl_core, ↓ite_core,
      ↓dite_core, ↓reduceIte, ite_self, implies_true, ↓State.core_keep])
  all_goals repeat' ((first | (rw [State.withParams_core]; intro s) | (rw [State.run_core]; intro s) | split | (rw [foldl_core]; intro s x)) <;> try simp only [↓State.run_core,
      ↓State.withParams_core, ↓State.followStop_core, ↓State.finish_core, ↓State.axRamp_core, ↓State.axEnter_core,
      ↓State.pend_core, ↓State.setAxis_core, ↓foldl_core, ↓ite_core, ↓dite_core, ↓reduceIte, ite_self, implies_true,
      ↓State.core_keep])

@[simp] theorem State.kalEvent_core (s : State) (p : Nat) (bit : Nat) (f : Fld) (prod : Nat) :
    (State.kalEvent s p bit f prod).core = s.core := by
  simp only [State.kalEvent.eq_def, ↓State.raiseIf_core, ↓State.setFld_core]

@[simp] theorem State.setPaper_core (s : State) (n : Nat) (row : Nat) (x : Nat) (v : Int) :
    (State.setPaper s n row x v).core = s.core := by
  simp only [State.setPaper.eq_def, ↓State.setCam_core, ↓State.kalEvent_core, ↓ite_core, ite_self]

@[simp] theorem State.paperSample_core (s : State) (n : Nat) (alpha : Nat) (row : Nat) (x : Nat) (u : Int) :
    (State.paperSample s n alpha row x u).core = s.core := by
  simp only [State.paperSample.eq_def, ↓State.setCam_core, ↓State.setPaper_core, ↓ite_core, ite_self]

@[simp] theorem State.paperColumn_core (s : State) (n : Nat) (k : KalSet) (us : List (List Int)) (x : Nat) :
    (State.paperColumn s n k us x).core = s.core := by
  simp only [State.paperColumn.eq_def, ↓State.paperSample_core, ↓foldl_core, ↓ite_core, ite_self, implies_true]

@[simp] theorem State.testPair_core (s : State) : (State.testPair s).core = s.core := by
  simp only [State.testPair.eq_def, ↓State.setFld_core, ↓State.core_keep]

theorem execLoopLate_core (bar : Nat) (s : State) : ∃ t, (execLoopLate bar s) = .next t ∧ t.core = s.core := by
  rw [execLoopLate.eq_def]
  repeat' split
  all_goals refine ⟨_, rfl, ?_⟩
  all_goals (try simp only [↓State.nozEvent_core, ↓State.setLoopBar_core, ↓foldl_core, ↓ite_core, ↓dite_core,
      ↓reduceIte, ite_self, implies_true, ↓State.core_keep])
  all_goals repeat' ((first | split | (rw [foldl_core]; intro s x)) <;> try simp only [↓State.nozEvent_core,
      ↓State.setLoopBar_core, ↓foldl_core, ↓ite_core, ↓dite_core, ↓reduceIte, ite_self, implies_true,
      ↓State.core_keep])

@[simp] theorem State.recordQuota_core (s : State) : (State.recordQuota s).2.core = s.core := by
  simp only [State.recordQuota.eq_def, ↓State.core_keep]

@[simp] theorem State.markDelivered_core (s : State) (sess : Nat) (tag : Nat) :
    (State.markDelivered s sess tag).core = s.core := by
  simp only [State.markDelivered.eq_def, ↓State.setSlot_core, ↓ite_core, ite_self]

@[simp] theorem State.fetch_core (s : State) (sess : Nat) (tag : Nat) (echo : Reply) :
    (State.fetch s sess tag echo).core = s.core := by
  simp only [State.fetch.eq_def, ↓State.markDelivered_core, ↓State.deliver_core]

@[simp] theorem State.swapPairs_core (s : State) : (State.swapPairs s).core = s.core := by
  simp only [State.swapPairs.eq_def, ↓State.setFld_core]

@[simp] theorem State.setOldKernels_core (s : State) (old : Bool) : (State.setOldKernels s old).core = s.core := by
  simp only [State.setOldKernels.eq_def, ↓State.setCluster_core, ↓foldl_core, implies_true]

@[simp] theorem State.fallBack_core (s : State) : (State.fallBack s).core = s.core := by
  simp only [State.fallBack.eq_def, ↓State.setFld_core, ↓State.setOldKernels_core, ↓State.runSlot_core, ↓ite_core,
    ite_self]

@[simp] theorem State.pairOver_core (s : State) : (State.pairOver s).core = s.core := by
  simp only [State.pairOver.eq_def, ↓State.testPair_core, ↓State.swapPairs_core, ↓State.setFld_core,
    ↓State.bump_core, ↓State.fallBack_core]

@[simp] theorem State.pairTick_core (s : State) : (State.pairTick s).core = s.core := by
  simp only [State.pairTick.eq_def, ↓State.pairOver_core, ↓State.setFld_core, ↓ite_core, ite_self]

@[simp] theorem State.lineEvents_core (s : State) (b : Nat) : (State.lineEvents s b).core = s.core := by
  simp only [State.lineEvents.eq_def, ↓State.setBar_core, ↓State.raise_core, ↓foldl_core, ↓ite_core, ite_self,
    implies_true, ↓State.core_keep]

@[simp] theorem State.webMoved_core (s : State) : (State.webMoved s).core = s.core := by
  simp only [State.webMoved.eq_def, ↓State.lineEvents_core, ↓foldl_core, ↓ite_core, ite_self, implies_true,
    ↓State.core_keep]

@[simp] theorem State.speedTick_core (s : State) (e : Nat) : (State.speedTick s e).core = s.core := by
  simp only [State.speedTick.eq_def, ↓State.setSpeed_core, ↓State.setFld_core, ↓ite_core, ite_self]

@[simp] theorem State.motionTick_core (s : State) : (State.motionTick s).core = s.core := by
  simp only [State.motionTick.eq_def, ↓State.webMoved_core, ↓State.keepFloor_core, ↓State.speedTick_core,
    ↓foldl_core, implies_true]

@[simp] theorem State.timeEvent_core (s : State) (bit : Nat) : (State.timeEvent s bit).core = s.core := by
  simp only [State.timeEvent.eq_def, ↓State.raiseIf_core]

@[simp] theorem State.periodicTick_core (before : Clock) (s : State) (p : Nat) :
    (State.periodicTick before s p).core = s.core := by
  simp only [State.periodicTick.eq_def, ↓State.timeEvent_core, ↓ite_core, ite_self]

@[simp] theorem State.alarmFired_core (s : State) (d : Nat) : (State.alarmFired s d).core = s.core := by
  simp only [State.alarmFired.eq_def, ↓State.timeEvent_core, ↓State.setFld_core, ↓ite_core, ite_self]

@[simp] theorem State.tickDomain_core (s : State) (d : Nat) : (State.tickDomain s d).core = s.core := by
  simp only [State.tickDomain.eq_def, ↓State.setClock_core, ↓State.pps_core, ↓ite_core, ite_self]

@[simp] theorem State.setResid_core (s : State) (r : Int) : (State.setResid s r).core = s.core := by
  simp only [State.setResid.eq_def, ↓State.setFlag_core, ↓State.core_keep]

@[simp] theorem State.countTick_core (s : State) : (State.countTick s).core = s.core := by
  simp only [State.countTick.eq_def, ↓State.tickDomain_core, ↓State.setResid_core]

@[simp] theorem State.timeTick_core (s : State) : (State.timeTick s).core = s.core := by
  simp only [State.timeTick.eq_def, ↓State.periodicTick_core, ↓State.alarmFired_core, ↓State.countTick_core,
    ↓foldl_core, implies_true]

@[simp] theorem State.lanesTick_core (s : State) : (State.lanesTick s).core = s.core := by
  rw [State.lanesTick.eq_def] <;> (try simp only [↓State.laneAsk_core, ↓foldl_core, ↓ite_core, ↓dite_core,
      ↓reduceIte, ite_self, implies_true,
      ↓State.core_keep]) <;> repeat' ((first | split | (rw [foldl_core]; intro s x)) <;> try simp only [↓State.laneAsk_core,
      ↓foldl_core, ↓ite_core, ↓dite_core, ↓reduceIte, ite_self, implies_true, ↓State.core_keep])

theorem execCalStorePeriodic_core (s : State) : ∃ t, (execCalStorePeriodic s) = .next t ∧ t.core = s.core := by
  exact ⟨_, rfl, by simp only [↓State.storeAtEnd_core, ↓ite_core, ite_self]⟩

@[simp] theorem State.setArb_core (s : State) (net : Bool) (n : Nat) (a : Arb) :
    (State.setArb s net n a).core = s.core := by
  simp only [State.setArb.eq_def, ↓State.core_keep]

@[simp] theorem State.countTaken_core (s : State) (n : Nat) : (State.countTaken s n).core = s.core := by
  simp only [State.countTaken.eq_def, ↓State.bumpWrap_core, ↓ite_core, ite_self, ↓State.core_keep]

@[simp] theorem State.takeTables_core (s : State) (n : Nat) : (State.takeTables s n).core = s.core := by
  simp only [State.takeTables.eq_def, ↓State.showTabPend_core, ↓State.countTaken_core, ↓State.setCam_core,
    ↓ite_core, ite_self]

@[simp] theorem State.deviation_core (s : State) (n : Nat) (count : Fld) : (State.deviation s n count).core = s.core := by
  simp only [State.deviation.eq_def, ↓State.kalEvent_core, ↓State.bump_core]

@[simp] theorem State.openFrame_core (s : State) (n : Nat) (overlong : Bool) :
    (State.openFrame s n overlong).core = s.core := by
  simp only [State.openFrame.eq_def, ↓State.takeTables_core, ↓State.setCam_core, ↓State.setFld_core,
    ↓State.kalEvent_core, ↓State.deviation_core, ↓ite_core, ite_self]

@[simp] theorem State.countPairFault_core (s : State) (cause : Nat) : (State.countPairFault s cause).core = s.core := by
  rw [State.countPairFault.eq_def]
  repeat' split
  all_goals simp only [↓State.bump_core]

theorem execBarDelaySet_core (rq : Rq) (bar : Nat) (delay : Nat) (s : State) :
    ∃ t, (execBarDelaySet rq bar delay s) = .next t ∧ t.core = s.core := by
  exact ⟨_, rfl, by simp only [↓State.run_core, ↓State.withParams_core, ↓State.finish_core, ↓State.setFld_core,
    implies_true]⟩

@[simp] theorem State.trimStep_core (s : State) (f : Finding) (x : Nat) : (State.trimStep s f x).core = s.core := by
  simp only [State.trimStep.eq_def, ↓State.gather_core, ↓State.setNoz1_core, ↓ite_core, ite_self]

@[simp] theorem State.nozConf_core (s : State) (b : Nat) (x : Nat) (conf : Nat) :
    (State.nozConf s b x conf).core = s.core := by
  simp only [State.nozConf.eq_def, ↓State.setNoz1_core]

@[simp] theorem State.nozWithhold_core (s : State) (f : Finding) (x : Nat) : (State.nozWithhold s f x).core = s.core := by
  simp only [State.nozWithhold.eq_def, ↓State.bump_core, ↓State.setNoz1_core, ↓State.setFld_core,
    ↓State.nozEvent_core, ↓State.nozRecord_core, ↓State.gather_core, ↓ite_core, ite_self]

@[simp] theorem State.nozTo_core (s : State) (f : Finding) (x : Nat) (state : Nat) (conf : Nat) :
    (State.nozTo s f x state conf).core = s.core := by
  simp only [State.nozTo.eq_def, ↓State.nozWithhold_core, ↓State.nozEnter_core, ↓ite_core, ite_self]

@[simp] theorem State.imageMiss_core (s : State) (f : Finding) (x : Nat) : (State.imageMiss s f x).core = s.core := by
  rw [State.imageMiss.eq_def] <;> (try simp only [↓State.bump_core, ↓State.trimStep_core, ↓State.nozConf_core,
      ↓State.nozTo_core, ↓foldl_core, ↓ite_core, ↓dite_core, ↓reduceIte, ite_self, implies_true,
      ↓State.core_keep]) <;> repeat' ((first | split | (rw [foldl_core]; intro s x)) <;> try simp only [↓State.bump_core,
      ↓State.trimStep_core, ↓State.nozConf_core, ↓State.nozTo_core, ↓foldl_core, ↓ite_core, ↓dite_core, ↓reduceIte,
      ite_self, implies_true, ↓State.core_keep])

theorem execSpareTakeover_core (engine : Nat) (cause : Nat) (blank : Bool) (s : State) :
    ∃ t, (execSpareTakeover engine cause blank s) = .next t ∧ t.core = s.core := by
  exact ⟨_, rfl, by simp only [↓State.bump_core, ↓State.locksOfBreak_core, ↓State.spareTakes_core,
    ↓State.spareExhausted_core, ↓ite_core, ite_self, ↓State.core_keep]⟩

@[simp] theorem State.descDone_core (s : State) (ch : Nat) (d : List Byte) : (State.descDone s ch d).core = s.core := by
  simp only [State.descDone.eq_def, ↓State.setFld_core, ↓State.setDmaCh_core, ↓State.endChain_core,
    ↓State.dmaDone_core, ↓ite_core, ite_self]

@[simp] theorem State.setInc_core (s : State) (d : Nat) (inc : Nat) : (State.setInc s d inc).core = s.core := by
  simp only [State.setInc.eq_def, ↓State.setFld_core]

theorem execEthSessionIdleTimeout_core (sess : Nat) (s : State) :
    ∃ t, (execEthSessionIdleTimeout sess s) = .next t ∧ t.core = s.core := by
  rw [execEthSessionIdleTimeout.eq_def]
  refine ⟨_, rfl, ?_⟩
  repeat' split
  all_goals simp only [↓State.closeSession_core]

@[simp] theorem State.stepDom_core (s : State) (d : Nat) (ns : Int) : (State.stepDom s d ns).core = s.core := by
  simp only [State.stepDom.eq_def, ↓State.bump_core, ↓State.setClock_core]

@[simp] theorem State.measurement_core (s : State) (d : Nat) (offset : Int) :
    (State.measurement s d offset).core = s.core := by
  simp only [State.measurement.eq_def, ↓State.setFldI_core, ↓State.stepDom_core, ↓State.setInc_core,
    ↓State.setClock_core, ↓State.setFld_core, ↓State.lockLost_core, ↓ite_core, ite_self]

@[simp] theorem State.sourceHeard_core (s : State) (d : Nat) : (State.sourceHeard s d).core = s.core := by
  simp only [State.sourceHeard.eq_def, ↓State.hostLocked_core, ↓State.setFld_core, ↓ite_core, ite_self]

@[simp] theorem State.ringTime_core (s : State) (u : Int) : (State.ringTime s u).core = s.core := by
  simp only [State.ringTime.eq_def, ↓State.setClock_core, ↓State.measurement_core, ↓State.sourceHeard_core,
    ↓foldl_core, ↓ite_core, ite_self, implies_true, ↓State.core_keep]

theorem execSpdrqWord_core (s : State) : ∃ t, (execSpdrqWord s) = .next t ∧ t.core = s.core := by
  exact ⟨_, rfl, by simp only [↓State.emit_core, ↓ite_core, ite_self, ↓State.core_keep]⟩

@[simp] theorem State.chatterFail_core (s : State) (a : Nat) : (State.chatterFail s a).core = s.core := by
  simp only [State.chatterFail.eq_def, ↓State.setFld_core, ↓State.log1_core, ↓State.axRamp_core,
    ↓State.homeUndone_core, ↓State.axEnter_core, ↓State.setAxis_core]

theorem execSwitchRawEdge_core (sw : Nat) (level : Bool) (s : State) :
    ∃ t, (execSwitchRawEdge sw level s) = .next t ∧ t.core = s.core := by
  exact ⟨_, rfl, by simp only [↓State.setAxis_core, ↓State.chatterFail_core, ↓foldl_core, ↓ite_core, ite_self,
    implies_true, ↓State.core_keep]⟩

@[simp] theorem State.readCanaries_core (s : State) (speeds : List Nat) :
    (State.readCanaries s speeds).core = s.core := by
  simp only [State.readCanaries.eq_def, ↓State.setFld_core, ↓State.setFlag_core, ↓State.raiseIf_core,
    ↓State.log1_core, ↓foldl_core, ↓ite_core, ite_self, implies_true]

@[simp] theorem State.showRamp_core (s : State) : (State.showRamp s).core = s.core := by
  simp only [State.showRamp.eq_def, ↓State.setFlag_core]

@[simp] theorem State.mendC5_core (s : State) : (State.mendC5 s).core = s.core := by
  simp only [State.mendC5.eq_def, ↓State.mend_core, ↓ite_core, ite_self]

@[simp] theorem State.measure_core (s : State) (m : PaceMeas) : (State.measure s m).core = s.core := by
  simp only [State.measure.eq_def, ↓State.setFld_core, ↓State.setFldI_core, ↓State.showRamp_core,
    ↓State.mendC5_core, ↓State.core_keep]

@[simp] theorem State.fitWatch_core (s : State) (mode : Nat) : (State.fitWatch s mode).core = s.core := by
  simp only [State.fitWatch.eq_def, ↓State.setFld_core, ↓State.raiseIf_core, ↓ite_core, ite_self]

theorem execPaceInterval_core (meas : PaceMeas) (s : State) :
    ∃ t, (execPaceInterval meas s) = .next t ∧ t.core = s.core := by
  exact ⟨_, rfl, by simp only [↓State.readCanaries_core, ↓State.measure_core, ↓State.fitWatch_core,
    ↓State.setFld_core, ↓State.setFlag_core, ↓State.showRamp_core, ↓State.raiseIf_core, ↓ite_core, ite_self]⟩

theorem execBoardEnableWrite_core (board : Nat) (enable : Bool) (s : State) :
    ∃ t, (execBoardEnableWrite board enable s) = .next t ∧ t.core = s.core := by
  exact ⟨_, rfl, by simp only [↓State.orLater_core, ↓State.boardEnable_core, ↓ite_core, ite_self, implies_true]⟩

theorem State.writeList_core (s : State) (l : List RegEntry) (t : State) (h :
    s.writeList l = .ok t) :
    t.core = s.core := by
  induction l generalizing s with
  | nil => cases h; rfl
  | cons e l ih =>
    rw [State.writeList] at h
    split at h
    · cases h
    · rename_i s1 h1
      rw [ih _ h, State.writeOne_core _ _ _ h1]

theorem execModLimitWrite_core (limit : Nat) (s : State) :
    ∃ t, (execModLimitWrite limit s) = .next t ∧ t.core = s.core := by
  exact ⟨_, rfl, by simp only [↓State.setFld_core, ↓ite_core, ite_self]⟩

@[simp] theorem State.imageHit_core (s : State) (f : Finding) (x : Nat) : (State.imageHit s f x).core = s.core := by
  rw [State.imageHit.eq_def] <;> (try simp only [↓State.bump_core, ↓State.nozTo_core, ↓State.nozConf_core,
      ↓foldl_core, ↓ite_core, ↓dite_core, ↓reduceIte, ite_self, implies_true,
      ↓State.core_keep]) <;> repeat' ((first | split | (rw [foldl_core]; intro s x)) <;> try simp only [↓State.bump_core,
      ↓State.nozTo_core, ↓State.nozConf_core, ↓foldl_core, ↓ite_core, ↓dite_core, ↓reduceIte, ite_self,
      implies_true, ↓State.core_keep])

@[simp] theorem State.imageBand_core (s : State) (f : Finding) (x : Nat) : (State.imageBand s f x).core = s.core := by
  simp only [State.imageBand.eq_def, ↓State.bump_core, ↓ite_core, ite_self]

@[simp] theorem State.imageFinding_core (s : State) (f : Finding) : (State.imageFinding s f).core = s.core := by
  rw [State.imageFinding.eq_def]
  repeat' split
  all_goals simp only [↓State.imageHit_core, ↓State.imageMiss_core, ↓State.imageBand_core, ↓foldl_core, ↓ite_core,
    ite_self, implies_true]

@[simp] theorem State.resetReg_core (s : State) (a : Nat) : (State.resetReg s a).core = s.core := by
  rw [State.resetReg.eq_def]
  repeat' split
  all_goals simp only [↓State.putWord_core, ↓ite_core, ite_self]

@[simp] theorem State.resetConfig_core (s : State) : (State.resetConfig s).core = s.core := by
  simp only [State.resetConfig.eq_def, ↓State.resetReg_core, ↓State.showDet_core, ↓foldl_core, implies_true,
    ↓State.core_keep]

theorem State.writeItems_core (s : State) (l : List ImageItem) (t : State) (h :
    s.writeItems l = .ok t) :
    t.core = s.core := by
  induction l generalizing s with
  | nil => cases h; rfl
  | cons e l ih =>
    rw [State.writeItems] at h
    split at h
    · cases h
    · split at h
      · cases h
      · rename_i s1 h1
        rw [ih _ h, State.writeList_core _ _ _ h1]

@[simp] theorem State.reassigned_core (s : State) (old : List Nat) : (State.reassigned s old).core = s.core := by
  simp only [State.reassigned.eq_def, ↓State.showGated_core, ↓State.core_keep]

theorem State.applyImage_core (s : State) (t : List Byte) (reset : Bool) (assign : Option (List Half)) (u :
    State)     (h : s.applyImage t reset assign = .ok u) :
    u.core = s.core := by
  rw [State.applyImage.eq_def] at h
  dsimp only at h
  repeat' split at h
  all_goals first
    | (cases h; done)
    | (have e := State.writeItems_core _ _ _ ‹State.writeItems _ _ = _›
       cases h
       simp only [↓ite_core, ↓State.reassigned_core, e, ↓State.core_keep, ↓State.resetConfig_core, ite_self])

@[simp] theorem State.afterConfig_core (s : State) (reset : Bool) : (State.afterConfig s reset).core = s.core := by
  simp only [State.afterConfig.eq_def, ↓State.enter_core, ↓ite_core, ite_self]

theorem execConfigLoad_core (rq : Rq) (chunk : Chunk) (assign : Option (List Half)) (s : State) :
    ∃ t, (execConfigLoad rq chunk assign s) = .next t ∧ t.core = s.core := by
  rw [execConfigLoad]
  refine ⟨_, rfl, ?_⟩
  rw [State.run_core]
  intro s
  rw [State.loadChunk_core]
  intro t x s
  split
  · rw [State.reject_core, State.modeRefused_core]
  · rename_i s1 h
    rw [State.finish_core, State.afterConfig_core, State.zeroCorr_core, State.applyImage_core _ _ _ _ _ h]

@[simp] theorem State.refuseTask_core (s : State) (k : Nat) : (State.refuseTask s k).core = s.core := by
  simp only [State.refuseTask.eq_def, ↓State.endTask_core, ↓State.setCons_core]

@[simp] theorem State.startCal_core (s : State) (rq : Rq) (kind : Nat) (port : Nat) :
    (State.startCal s rq kind port).core = s.core := by
  simp only [State.startCal.eq_def, ↓State.finish_core, ↓State.setCam_core, ↓State.pend_core, ↓ite_core, ite_self]

theorem execTscapCapture_core (unit : Nat) (s : State) : ∃ t, (execTscapCapture unit s) = .next t ∧ t.core = s.core := by
  exact ⟨_, rfl, by simp only [↓State.setCons_core, ↓State.capture_core, ↓ite_core, ite_self]⟩

@[simp] theorem State.shiftSheets_core (s : State) (d : Int) : (State.shiftSheets s d).core = s.core := by
  simp only [State.shiftSheets.eq_def, ↓State.setBar_core, ↓foldl_core, ↓ite_core, ite_self, implies_true]

@[simp] theorem State.setOffset_core (s : State) (o : Int) : (State.setOffset s o).core = s.core := by
  simp only [State.setOffset.eq_def, ↓State.core_keep]

@[simp] theorem State.pcieReport_core (s : State) (kind : Nat) : (State.pcieReport s kind).core = s.core := by
  rw [State.pcieReport.eq_def]
  repeat' split
  all_goals simp only [↓State.emit_core, ↓State.bump_core, ↓State.setFld_core, ↓State.setReg_core, ↓foldl_core,
    ↓ite_core, ite_self, implies_true, ↓State.core_keep]

@[simp] theorem State.busAgain_core (s : State) (batch : List Nat) : (State.busAgain s batch).core = s.core := by
  rw [State.busAgain.eq_def] <;> (try simp only [↓State.endChain_core, ↓foldl_core, ↓ite_core, ↓dite_core,
      ↓reduceIte, ite_self, implies_true,
      ↓State.core_keep]) <;> repeat' ((first | split | (rw [foldl_core]; intro s x)) <;> try simp only [↓State.endChain_core,
      ↓foldl_core, ↓ite_core, ↓dite_core, ↓reduceIte, ite_self, implies_true, ↓State.core_keep])

@[simp] theorem State.ownFault_core (s : State) (ch : Nat) : (State.ownFault s ch).core = s.core := by
  simp only [State.ownFault.eq_def, ↓State.endChain_core]

@[simp] theorem State.busHalt_core (s : State) (batch : List Nat) : (State.busHalt s batch).core = s.core := by
  simp only [State.busHalt.eq_def, ↓State.ownFault_core, ↓State.stopChain_core, ↓foldl_core, ↓ite_core, ite_self,
    implies_true]

@[simp] theorem State.busError_core (s : State) (kind : Nat) (addr : Nat) (batch : List Nat) :
    (State.busError s kind addr batch).core = s.core := by
  simp only [State.busError.eq_def, ↓State.pcieReport_core, ↓State.bump_core, ↓State.busAgain_core,
    ↓State.haltDone_core, ↓State.busHalt_core, ↓ite_core, ite_self, ↓State.core_keep]

theorem execPcieCompletionTimeout_core (addr : Nat) (batch : List Nat) (s : State) :
    ∃ t, (execPcieCompletionTimeout addr batch s) = .next t ∧ t.core = s.core := by
  exact ⟨_, rfl, by simp only [↓State.busError_core]⟩

@[simp] theorem State.countCause_core (s : State) (cause : Nat) (n : Nat) :
    (State.countCause s cause n).core = s.core := by
  rw [State.countCause.eq_def]
  repeat' split
  all_goals simp only [↓State.bump_core]

@[simp] theorem State.reportEngine_core (s : State) (e : Nat) : (State.reportEngine s e).core = s.core := by
  simp only [State.reportEngine.eq_def, ↓ite_core, ite_self, ↓State.core_keep]

@[simp] theorem State.checked_core (s : State) (b : Nat) (c : CheckRun) : (State.checked s b c).core = s.core := by
  rw [State.checked.eq_def]
  repeat' split
  all_goals simp only [↓State.log1_core, ↓State.bump_core, ↓State.countCause_core, ↓State.reportEngine_core,
    ↓ite_core, ite_self]

@[simp] theorem State.sendSchedule_core (s : State) (k : Nat) (flags : Nat) (frame : Nat) (g : Nat) (gen : Nat)
    (due : Int) :
    (State.sendSchedule s k flags frame g gen due).core = s.core := by
  simp only [State.sendSchedule.eq_def, ↓State.boardSend_core]

@[simp] theorem State.sendLine_core (s : State) (k : Nat) (flags : Nat) (frame : Nat) (crc : Nat) (p : List Byte) :
    (State.sendLine s k flags frame crc p).core = s.core := by
  simp only [State.sendLine.eq_def, ↓State.headSend_core, ↓ite_core, ite_self]

@[simp] theorem State.gateFire_core (s : State) (board : Nat) (b : Nat) (pos : Nat) (check : CheckRun) :
    (State.gateFire s board b pos check).core = s.core := by
  simp only [State.gateFire.eq_def, ↓State.draw_core, ↓State.checked_core, ↓State.sendSchedule_core,
    ↓State.setCredits_core, ↓State.sendLine_core, ↓State.emit_core, ↓State.setBoard_core, ↓ite_core, ite_self]

@[simp] theorem State.gateRecord_core (s : State) (g : GateTest) (cls : Nat) (b : Nat) (x : Nat) (pos : Nat) (p
    : Option Pulse) :
    (State.gateRecord s g cls b x pos p).core = s.core := by
  simp only [State.gateRecord.eq_def, ↓State.addRecord_core]

@[simp] theorem State.pushFinding_core (s : State) (f : Finding) : (State.pushFinding s f).core = s.core := by
  simp only [State.pushFinding.eq_def, ↓State.setFld_core, ↓State.core_keep]

@[simp] theorem State.vacate_core (s : State) (sess : Nat) (tag : Nat) : (State.vacate s sess tag).core = s.core := by
  simp only [State.vacate.eq_def, ↓State.lift_core, ↓State.core_keep]

@[simp] theorem State.gateEnd_core (s : State) : (State.gateEnd s).core = s.core := by
  rw [State.gateEnd.eq_def]
  repeat' split
  all_goals simp only [↓State.setFld_core, ↓State.vacate_core, ↓State.finishSlot_core, ↓State.core_keep]

theorem execGateShot_core (gate : Nat) (baseline : List Nat) (samples : List Nat) (check : CheckRun) (s : State) :
    ∃ t, (execGateShot gate baseline samples check s) = .next t ∧ t.core = s.core := by
  rw [execGateShot.eq_def]
  refine ⟨_, rfl, ?_⟩
  repeat' split
  all_goals simp only [↓State.gateFire_core, ↓State.setFld_core, ↓State.gateRecord_core, ↓State.pushFinding_core,
    ↓State.gateEnd_core, ↓ite_core, ite_self, ↓State.core_keep]

@[simp] theorem State.energyBlank_core (s : State) (k : Nat) (p : List Byte) :
    (State.energyBlank s k p).core = s.core := by
  rw [State.energyBlank.eq_def]
  repeat' split
  all_goals simp only [↓State.setFld_core, ↓State.core_keep]

theorem execLoopSwapStage_core (bar : Nat) (s : State) : ∃ t, (execLoopSwapStage bar s) = .next t ∧ t.core = s.core := by
  exact ⟨_, rfl, by simp only [↓State.setLoopBar_core, ↓State.setFld_core, ↓State.nozEvent_core,
    ↓State.swapRequest_core, ↓State.setPend_core, ↓ite_core, ite_self]⟩

@[simp] theorem State.giveUp_core (s : State) : (State.giveUp s).core = s.core := by
  simp only [State.giveUp.eq_def, ↓State.settle_core, ↓State.setBoard_core, ↓foldl_core, implies_true]

theorem execPosReference_core (rq : Rq) (enc : Nat) (pos : Int) (s : State) :
    ∃ t, (execPosReference rq enc pos s) = .next t ∧ t.core = s.core := by
  exact ⟨_, rfl, by simp only [↓State.run_core, ↓State.withParams_core, ↓State.setEnc_core, ↓State.setSpeed_core,
    ↓State.setFld_core, ↓State.finish_core, ↓ite_core, ite_self, implies_true]⟩

@[simp] theorem State.endLine_core (s : State) (b : Nat) (e : Entry) : (State.endLine s b e).core = s.core := by
  simp only [State.endLine.eq_def, ↓State.setBar_core, ↓State.raiseIf_core, ↓State.setFld_core, ↓State.bump_core,
    ↓State.releasePages_core, ↓ite_core, ite_self]

@[simp] theorem State.takeReply_core (s : State) (src : Nat) (sess : Nat) (b : List Byte) :
    (State.takeReply s src sess b).core = s.core := by
  rw [State.takeReply.eq_def] <;> (try simp only [↓State.setInFlight_core, ↓State.sendDatagram_core,
      ↓State.complete_core, ↓foldl_core, ↓ite_core, ↓dite_core, ↓reduceIte, ite_self, implies_true,
      ↓State.core_keep]) <;> repeat' ((first | split | (rw [foldl_core]; intro s x)) <;> try simp only [↓State.setInFlight_core,
      ↓State.sendDatagram_core, ↓State.complete_core, ↓foldl_core, ↓ite_core, ↓dite_core, ↓reduceIte, ite_self,
      implies_true, ↓State.core_keep])

@[simp] theorem State.chainBad_core (s : State) (west : Bool) : (State.chainBad s west).core = s.core := by
  simp only [State.chainBad.eq_def, ↓State.setLink_core]

@[simp] theorem State.refuseLink_core (s : State) (west : Bool) : (State.refuseLink s west).core = s.core := by
  simp only [State.refuseLink.eq_def, ↓State.setLink_core, ↓State.breach_core, ↓ite_core, ite_self,
    ↓State.core_keep]

@[simp] theorem State.chainReturn_core (s : State) (west : Bool) : (State.chainReturn s west).core = s.core := by
  simp only [State.chainReturn.eq_def, ↓State.chainSend_core]

@[simp] theorem State.chainTake_core (s : State) (west : Bool) (type : Nat) (b : List Byte) (body : ChainPkt →
    State → State) (hbody : ∀ y0 y1, (body y0 y1).core = y1.core) :
    (State.chainTake s west type b body).core = s.core := by
  rw [State.chainTake.eq_def]
  repeat' split
  all_goals simp only [↓State.chainBad_core, ↓State.refuseLink_core, ↓State.chainReturn_core, hbody]

theorem execToneCurveLoad_core (rq : Rq) (chunk : Chunk) (s : State) :
    ∃ t, (execToneCurveLoad rq chunk s) = .next t ∧ t.core = s.core := by
  rw [execToneCurveLoad.eq_def]
  repeat' split
  all_goals refine ⟨_, rfl, ?_⟩
  all_goals (try simp only [↓State.run_core, ↓State.loadTable_core, ↓State.setPend_core, ↓State.reject_core,
      ↓State.finish_core, ↓State.stageBank_core, ↓foldl_core, ↓ite_core, ↓dite_core, ↓reduceIte, ite_self,
      implies_true, ↓State.core_keep])
  all_goals repeat' ((first | (rw [State.loadTable_core] <;> [(intro s); (intro t rep s)]) | (rw [State.run_core]; intro s) | split | (rw [foldl_core]; intro s x)) <;> try simp only [↓State.run_core,
      ↓State.loadTable_core, ↓State.setPend_core, ↓State.reject_core, ↓State.finish_core, ↓State.stageBank_core,
      ↓foldl_core, ↓ite_core, ↓dite_core, ↓reduceIte, ite_self, implies_true, ↓State.core_keep])

theorem execSelfRefreshEntry_core (ch : Nat) (s : State) :
    ∃ t, (execSelfRefreshEntry ch s) = .next t ∧ t.core = s.core := by
  exact ⟨_, rfl, by simp only [↓State.setFld_core, ↓State.closeRows_core, ↓ite_core, ite_self]⟩

theorem execFaultedPairTestDone_core (pass : Bool) (s : State) :
    ∃ t, (execFaultedPairTestDone pass s) = .next t ∧ t.core = s.core := by
  exact ⟨_, rfl, by simp only [↓State.bump_core, ↓State.setFld_core, ↓ite_core, ite_self, ↓State.core_keep]⟩

@[simp] theorem State.softLimited_core (s : State) (a : Nat) : (State.softLimited s a).core = s.core := by
  simp only [State.softLimited.eq_def, ↓State.axEvent_core, ↓State.setFld_core]

@[simp] theorem State.axFollowMove_core (s : State) (a : Nat) (d : Int) : (State.axFollowMove s a d).core = s.core := by
  simp only [State.axFollowMove.eq_def, ↓State.setAxPos_core, ↓State.setAxis_core, ↓State.softLimited_core,
    ↓ite_core, ite_self]

theorem execFollowStep_core (axis : Nat) (s : State) : ∃ t, (execFollowStep axis s) = .next t ∧ t.core = s.core := by
  exact ⟨_, rfl, by simp only [↓State.axFollowMove_core, ↓State.setAxis_core, ↓State.softLimited_core,
    ↓State.bump_core, ↓ite_core, ite_self]⟩

theorem execHelloReply_core (board : Nat) (bytes : List Byte) (s : State) :
    ∃ t, (execHelloReply board bytes s) = .next t ∧ t.core = s.core := by
  rw [execHelloReply.eq_def]
  refine ⟨_, rfl, ?_⟩
  repeat' split
  all_goals simp only [↓State.setFlag_core, ↓State.setCredits_core, ↓State.setBst_core, ↓State.setBoard_core,
    ↓ite_core, ite_self]

@[simp] theorem State.echoRail_core (s : State) (k : Nat) (rail : Nat) : (State.echoRail s k rail).core = s.core := by
  simp only [State.echoRail.eq_def, ↓State.setFld_core, ↓State.setBoard_core, ↓State.latchBoard_core, ↓ite_core,
    ite_self]

theorem execChkDataWrite_core (unit : Nat) (value : Word) (s : State) :
    ∃ t, (execChkDataWrite unit value s) = .next t ∧ t.core = s.core := by
  exact ⟨_, rfl, by simp only [↓State.orLater_core, ↓State.chkNext_core, ↓State.chkPut_core, implies_true]⟩

theorem execDelayReq_core (west : Bool) (bytes : List Byte) (s : State) :
    ∃ t, (execDelayReq west bytes s) = .next t ∧ t.core = s.core := by
  exact ⟨_, rfl, by simp only [↓State.chainTake_core, ↓State.chainSendOn_core, implies_true]⟩

@[simp] theorem State.consume_core (s : State) (r : Nat) (n : Nat) : (State.consume s r n).core = s.core := by
  simp only [State.consume.eq_def, ↓State.setRing_core]

@[simp] theorem State.occupy_core (s : State) (rq : Rq) (dom : Domain) : (State.occupy s rq dom).core = s.core := by
  simp only [State.occupy.eq_def, ↓State.core_keep]

theorem execDbFetch_core (ring : Nat) (value : Nat) (s : State) :
    ∃ t, (execDbFetch ring value s) = .next t ∧ t.core = s.core := by
  exact ⟨_, rfl, by simp only [↓State.fetch_core, ↓ite_core, ite_self]⟩

@[simp] theorem State.hostData_core (s : State) (h : Nat) (a : Nat) (n : Nat) :
    (State.hostData s h a n).core = s.core := by
  simp only [State.hostData.eq_def, ↓State.bump_core, ↓State.emit_core, ↓foldl_core, ↓ite_core, ite_self,
    implies_true]

@[simp] theorem State.axTable_core (s : State) (a : Nat) : (State.axTable s a).core = s.core := by
  rw [State.axTable.eq_def] <;> (try simp only [↓State.setAxis_core, ↓foldl_core, ↓ite_core, ↓dite_core, ↓reduceIte,
      ite_self, implies_true,
      ↓State.core_keep]) <;> repeat' ((first | split | (rw [foldl_core]; intro s x)) <;> try simp only [↓State.setAxis_core,
      ↓foldl_core, ↓ite_core, ↓dite_core, ↓reduceIte, ite_self, implies_true, ↓State.core_keep])

@[simp] theorem State.countForced_core (s : State) (arb : Nat) : (State.countForced s arb).core = s.core := by
  simp only [State.countForced.eq_def, ↓State.bump_core, ↓ite_core, ite_self]

theorem execPositionTimeout_core (s : State) : ∃ t, (execPositionTimeout s) = .next t ∧ t.core = s.core := by
  exact ⟨_, rfl, by simp only [↓ite_core, ite_self, ↓State.core_keep]⟩

@[simp] theorem State.voidSlot_core (s : State) : (State.voidSlot s).core = s.core := by
  simp only [State.voidSlot.eq_def, ↓State.setFld_core]

theorem execMonBinsLoad_core (rq : Rq) (chunk : Chunk) (s : State) :
    ∃ t, (execMonBinsLoad rq chunk s) = .next t ∧ t.core = s.core := by
  rw [execMonBinsLoad.eq_def]
  repeat' split
  all_goals refine ⟨_, rfl, ?_⟩
  all_goals (try simp only [↓State.run_core, ↓State.loadChunk_core, ↓State.reject_core, ↓State.finish_core,
      ↓State.setFld_core, ↓State.setMon_core, ↓foldl_core, ↓ite_core, ↓dite_core, ↓reduceIte, ite_self,
      implies_true, ↓State.core_keep])
  all_goals repeat' ((first | (rw [State.loadChunk_core]; intro t rep s) | (rw [State.run_core]; intro s) | split | (rw [foldl_core]; intro s x)) <;> try simp only [↓State.run_core,
      ↓State.loadChunk_core, ↓State.reject_core, ↓State.finish_core, ↓State.setFld_core, ↓State.setMon_core,
      ↓foldl_core, ↓ite_core, ↓dite_core, ↓reduceIte, ite_self, implies_true, ↓State.core_keep])

@[simp] theorem State.swapDue_core (s : State) (b : Nat) : (State.swapDue s b).core = s.core := by
  simp only [State.swapDue.eq_def, ↓State.swapBar_core, ↓ite_core, ite_self]

@[simp] theorem State.waitAt_core (s : State) (shown : Fld) (count : Fld) :
    (State.waitAt s shown count).core = s.core := by
  simp only [State.waitAt.eq_def, ↓State.bump_core, ↓State.setFld_core, ↓ite_core, ite_self]

@[simp] theorem State.readSlice_core (s : State) (b : Nat) (page : Page) :
    (State.readSlice s b page).1.core = s.core := by
  simp only [State.readSlice]
  split
  · rfl
  · exact foldl_core _ (fun s e => State.readMem_core ..) _ _

@[simp] theorem State.runSlice_core (s : State) (b : Nat) (e : Entry) (page : Page) (check : CheckRun) :
    (State.runSlice s b e page check).core = s.core := by
  simp only [State.runSlice.eq_def, ↓State.setBar_core, ↓State.checked_core, ↓State.setFld_core,
    ↓State.endLine_core, ↓ite_core, ite_self]

theorem execSliceExpand_core (bar : Nat) (check : CheckRun) (s : State) :
    ∃ t, (execSliceExpand bar check s) = .next t ∧ t.core = s.core := by
  rw [execSliceExpand.eq_def]
  repeat' split
  all_goals refine ⟨_, rfl, ?_⟩
  all_goals (try simp only [↓State.swapDue_core, ↓State.waitAt_core, ↓State.setFld_core, ↓State.readSlice_core,
      ↓State.runSlice_core, ↓foldl_core, ↓ite_core, ↓dite_core, ↓reduceIte, ite_self, implies_true,
      ↓State.core_keep])
  all_goals repeat' ((first | split | (rw [foldl_core]; intro s x)) <;> try simp only [↓State.swapDue_core,
      ↓State.waitAt_core, ↓State.setFld_core, ↓State.readSlice_core, ↓State.runSlice_core, ↓foldl_core, ↓ite_core,
      ↓dite_core, ↓reduceIte, ite_self, implies_true, ↓State.core_keep])

@[simp] theorem State.failFlight_core (s : State) (n : Nat) (f : Forwarded) : (State.failFlight s n f).core = s.core := by
  rw [State.failFlight.eq_def]
  repeat' split
  all_goals simp only [↓State.sendDatagram_core, ↓State.finishSlot_core]

@[simp] theorem State.failFlights_core (s : State) (n : Nat) (gone : Forwarded → Bool) :
    (State.failFlights s n gone).core = s.core := by
  simp only [State.failFlights.eq_def, ↓State.setInFlight_core, ↓State.failFlight_core, ↓foldl_core, implies_true]

theorem execChainLinkLoss_core (west : Bool) (s : State) :
    ∃ t, (execChainLinkLoss west s) = .next t ∧ t.core = s.core := by
  exact ⟨_, rfl, by simp only [↓State.log1_core, ↓State.setLink_core, ↓State.sendLeader_core,
    ↓State.failFlights_core, ↓ite_core, ite_self, ↓State.core_keep]⟩

theorem execPause_core (rq : Rq) (s : State) : ∃ t, (execPause rq s) = .next t ∧ t.core = s.core := by
  exact ⟨_, rfl, by simp only [↓State.run_core, ↓State.withParams_core, ↓State.finish_core, ↓State.pause_core,
    implies_true]⟩

@[simp] theorem State.portShown_core (s : State) (d : Nat) (port : Nat) (st : Nat) :
    (State.portShown s d port st).core = s.core := by
  simp only [State.portShown.eq_def, ↓State.setClock_core, ↓State.setFld_core, ↓ite_core, ite_self]

@[simp] theorem State.masterHeard_core (s : State) (d : Nat) (m : PtpMsg) : (State.masterHeard s d m).core = s.core := by
  simp only [State.masterHeard.eq_def, ↓State.setClock_core, ↓State.showUtc_core, ↓ite_core, ite_self]

@[simp] theorem State.ptpUse_core (s : State) (port : Nat) (m : PtpMsg) (x : Option PtpExchange) (d : Nat) :
    (State.ptpUse s port m x d).core = s.core := by
  rw [State.ptpUse.eq_def]
  repeat' split
  all_goals simp only [↓State.portShown_core, ↓State.masterHeard_core, ↓State.sourceHeard_core,
    ↓State.measurement_core, ↓State.addRecord_core, ↓State.setClock_core, ↓ite_core, ite_self]

theorem execPtpMessage_core (port : Nat) (msg : PtpMsg) (s : State) :
    ∃ t, (execPtpMessage port msg s) = .next t ∧ t.core = s.core := by
  exact ⟨_, rfl, by simp only [↓State.bump_core, ↓State.ptpUse_core, ↓State.ptpHold_core, ↓foldl_core, ↓ite_core,
    ite_self, implies_true]⟩

theorem execTakeoverRecalDone_core (group : Nat) (ok : Bool) (s : State) :
    ∃ t, (execTakeoverRecalDone group ok s) = .next t ∧ t.core = s.core := by
  exact ⟨_, rfl, by simp only [↓State.setFld_core, ↓State.setLaneGrp_core, ↓State.raiseIf_core, ↓State.log1_core,
    ↓ite_core, ite_self]⟩

theorem execChainCredit_core (west : Bool) (bytes : List Byte) (s : State) :
    ∃ t, (execChainCredit west bytes s) = .next t ∧ t.core = s.core := by
  exact ⟨_, rfl, by simp only [↓State.chainTake_core, ↓State.chainDrain_core, ↓State.setLink_core, implies_true]⟩

@[simp] theorem State.commitTab_core (s : State) (k : Nat) (data : List Int) :
    (State.commitTab s k data).core = s.core := by
  simp only [State.commitTab.eq_def, ↓State.showTabPend_core, ↓State.core_keep]

@[simp] theorem State.loadTab_core (s : State) (rq : Rq) (op : Nat) (kind : Nat) (limit : Nat) (c : Chunk) (bad
    : List Byte → Option Nat) (read : List Byte → List Int) :
    (State.loadTab s rq op kind limit c bad read).core = s.core := by
  rw [State.loadTab.eq_def] <;> (try simp only [↓State.finish_core, ↓State.loadChunk_core, ↓State.reject_core,
      ↓State.commitTab_core, ↓foldl_core, ↓ite_core, ↓dite_core, ↓reduceIte, ite_self, implies_true,
      ↓State.core_keep]) <;> repeat' ((first | (rw [State.loadChunk_core]; intro t rep s) | split | (rw [foldl_core]; intro s x)) <;> try simp only [↓State.finish_core,
      ↓State.loadChunk_core, ↓State.reject_core, ↓State.commitTab_core, ↓foldl_core, ↓ite_core, ↓dite_core,
      ↓reduceIte, ite_self, implies_true, ↓State.core_keep])

theorem execBlurLoad_core (rq : Rq) (chunk : Chunk) (s : State) :
    ∃ t, (execBlurLoad rq chunk s) = .next t ∧ t.core = s.core := by
  exact ⟨_, rfl, by simp only [↓State.run_core, ↓State.loadTab_core, implies_true]⟩

theorem execPageRepeat_core (rq : Rq) (handle : Nat) (count : Nat) (s : State) :
    ∃ t, (execPageRepeat rq handle count s) = .next t ∧ t.core = s.core := by
  exact ⟨_, rfl, by simp only [↓State.run_core, ↓State.withParams_core, ↓State.finish_core, ↓ite_core, ite_self,
    implies_true, ↓State.core_keep]⟩

@[simp] theorem State.setOverlap_core (s : State) (o : Nat) (x : Overlap) : (State.setOverlap s o x).core = s.core := by
  simp only [State.setOverlap.eq_def, ↓State.core_keep]

@[simp] theorem State.calibrating_core (s : State) (c : Nat) (t : Nat) : (State.calibrating s c t).core = s.core := by
  simp only [State.calibrating.eq_def, ↓State.core_keep]

@[simp] theorem State.islandOverrun_core (s : State) (block : Nat) (inst : Nat) :
    (State.islandOverrun s block inst).core = s.core := by
  simp only [State.islandOverrun.eq_def, ↓State.breach_core, ↓State.breachOnce_core, ↓ite_core, ite_self]

@[simp] theorem State.showCapFill_core (s : State) (n : Nat) : (State.showCapFill s n).core = s.core := by
  simp only [State.showCapFill.eq_def, ↓State.setFld_core]

@[simp] theorem State.calTake_core (s : State) (n : Nat) (rows : List (List Nat)) :
    (State.calTake s n rows).core = s.core := by
  rw [State.calTake.eq_def] <;> (try simp only [↓State.setCam_core, ↓foldl_core, ↓ite_core, ↓dite_core, ↓reduceIte,
      ite_self, implies_true,
      ↓State.core_keep]) <;> repeat' ((first | split | (rw [foldl_core]; intro s x)) <;> try simp only [↓State.setCam_core,
      ↓foldl_core, ↓ite_core, ↓dite_core, ↓reduceIte, ite_self, implies_true, ↓State.core_keep])

@[simp] theorem State.inspLine_core (s : State) (n : Nat) (f : CamFrame) (t : Trig) (flags : Nat) (rows : List
    (List Nat)) :
    (State.inspLine s n f t flags rows).core = s.core := by
  simp only [State.inspLine.eq_def, ↓State.setCam_core, ↓State.islandOverrun_core, ↓State.raise_core,
    ↓State.bump_core, ↓State.showCapFill_core, ↓State.calTake_core, ↓ite_core, ite_self]

theorem execSubstituteSet_core (rq : Rq) (chunk : Chunk) (s : State) :
    ∃ t, (execSubstituteSet rq chunk s) = .next t ∧ t.core = s.core := by
  rw [execSubstituteSet.eq_def]
  repeat' split
  all_goals refine ⟨_, rfl, ?_⟩
  all_goals (try simp only [↓State.run_core, ↓State.loadTable_core, ↓State.setPend_core, ↓State.reject_core,
      ↓State.finish_core, ↓State.holdBase_core, ↓State.setLoopBar_core, ↓State.stageBank_core, ↓foldl_core,
      ↓ite_core, ↓dite_core, ↓reduceIte, ite_self, implies_true, ↓State.core_keep])
  all_goals repeat' ((first | (rw [State.loadTable_core] <;> [(intro s); (intro t rep s)]) | (rw [State.run_core]; intro s) | split | (rw [foldl_core]; intro s x)) <;> try simp only [↓State.run_core,
      ↓State.loadTable_core, ↓State.setPend_core, ↓State.reject_core, ↓State.finish_core, ↓State.holdBase_core,
      ↓State.setLoopBar_core, ↓State.stageBank_core, ↓foldl_core, ↓ite_core, ↓dite_core, ↓reduceIte, ite_self,
      implies_true, ↓State.core_keep])

@[simp] theorem State.pruneGrid_core (s : State) : (State.pruneGrid s).core = s.core := by
  rw [State.pruneGrid.eq_def] <;> (try simp only [↓State.setCam_core, ↓foldl_core, ↓ite_core, ↓dite_core,
      ↓reduceIte, ite_self, implies_true,
      ↓State.core_keep]) <;> repeat' ((first | split | (rw [foldl_core]; intro s x)) <;> try simp only [↓State.setCam_core,
      ↓foldl_core, ↓ite_core, ↓dite_core, ↓reduceIte, ite_self, implies_true, ↓State.core_keep])

theorem execInactiveSourceAbsent_core (s : State) : ∃ t, (execInactiveSourceAbsent s) = .next t ∧ t.core = s.core := by
  exact ⟨_, rfl, by simp only [↓State.sourceGone_core]⟩

theorem execCoverageLoad_core (rq : Rq) (chunk : Chunk) (s : State) :
    ∃ t, (execCoverageLoad rq chunk s) = .next t ∧ t.core = s.core := by
  exact ⟨_, rfl, by simp only [↓State.run_core, ↓State.loadTab_core, implies_true]⟩

@[simp] theorem State.axFrame_core (s : State) (a : Nat) (ab : Int × Int) : (State.axFrame s a ab).core = s.core := by
  simp only [State.axFrame.eq_def, ↓State.setAxis_core, ↓State.emit_core]

theorem execAxisStageFault_core (axis : Nat) (s : State) :
    ∃ t, (execAxisStageFault axis s) = .next t ∧ t.core = s.core := by
  exact ⟨_, rfl, by simp only [↓State.setFld_core, ↓State.log1_core, ↓State.axEvent_core, ↓State.axEnter_core,
    ↓State.axFrame_core, ↓State.endTask_core, ↓State.axAnswer_core, ↓State.setAxis_core, ↓ite_core, ite_self]⟩

theorem execCompressStreamStart_core (unit : Nat) (s : State) :
    ∃ t, (execCompressStreamStart unit s) = .next t ∧ t.core = s.core := by
  rw [execCompressStreamStart.eq_def]
  refine ⟨_, rfl, ?_⟩
  repeat' split
  all_goals simp only [↓State.setFld_core, ↓State.core_keep]

theorem execLaneLockLoss_core (lane : Nat) (words : List (BitVec 66)) (s : State) :
    ∃ t, (execLaneLockLoss lane words s) = .next t ∧ t.core = s.core := by
  exact ⟨_, rfl, by simp only [↓State.bump_core, ↓State.setLane_core, ↓State.log1_core, ↓State.laneLose_core,
    ↓ite_core, ite_self]⟩

@[simp] theorem State.takeRsmp_core (s : State) (n : Nat) : (State.takeRsmp s n).core = s.core := by
  simp only [State.takeRsmp.eq_def, ↓State.setCam_core, ↓ite_core, ite_self]

@[simp] theorem State.stripeEdge_core (s : State) (r : Nat) (m : Int) (column : Nat) :
    (State.stripeEdge s r m column).core = s.core := by
  simp only [State.stripeEdge.eq_def, ↓State.setRsmp_core, ↓State.setFld_core, ↓State.raiseIf_core,
    ↓State.bumpWrap_core, ↓ite_core, ite_self]

theorem execResampleLine_core (port : Nat) (s : State) : ∃ t, (execResampleLine port s) = .next t ∧ t.core = s.core := by
  rw [execResampleLine.eq_def]
  repeat' split
  all_goals refine ⟨_, rfl, ?_⟩
  all_goals (try simp only [↓State.takeRsmp_core, ↓State.stripeEdge_core, ↓State.setCam_core, ↓State.bump_core,
      ↓foldl_core, ↓ite_core, ↓dite_core, ↓reduceIte, ite_self, implies_true, ↓State.core_keep])
  all_goals repeat' ((first | split | (rw [foldl_core]; intro s x)) <;> try simp only [↓State.takeRsmp_core,
      ↓State.stripeEdge_core, ↓State.setCam_core, ↓State.bump_core, ↓foldl_core, ↓ite_core, ↓dite_core, ↓reduceIte,
      ite_self, implies_true, ↓State.core_keep])

@[simp] theorem State.chainRelay_core (s : State) (west : Bool) (b : List Byte) (body : List Byte) :
    (State.chainRelay s west b body).core = s.core := by
  simp only [State.chainRelay.eq_def, ↓State.chainBad_core, ↓State.chainSendOn_core, ↓ite_core, ite_self]

@[simp] theorem State.chainSpread_core (s : State) (west : Bool) (b : List Byte) (p : ChainPkt) (local_ : State
    → State) (hlocal_ : ∀ y0, (local_ y0).core = y0.core) :
    (State.chainSpread s west b p local_).core = s.core := by
  simp only [State.chainSpread.eq_def, ↓State.chainRelay_core, ↓ite_core, ite_self, hlocal_]

@[simp] theorem State.credited_core (s : State) (r : Nat) : (State.credited s r).core = s.core := by
  simp only [State.credited.eq_def, ↓State.setStall_core, ↓State.drainReplies_core, ↓State.mendC1_core,
    ↓State.setRing_core, ↓ite_core, ite_self]

theorem execDbRpl_core (ring : Nat) (idx : Nat) (s : State) :
    ∃ t, (execDbRpl ring idx s) = .next t ∧ t.core = s.core := by
  exact ⟨_, rfl, by simp only [↓State.cmdErr_core, ↓State.credited_core, ↓State.setRing_core, ↓ite_core, ite_self]⟩

theorem execCmdRingEnableWrite_core (ring : Nat) (enable : Bool) (s : State) :
    ∃ t, (execCmdRingEnableWrite ring enable s) = .next t ∧ t.core = s.core := by
  exact ⟨_, rfl, by simp only [↓State.ringEnabled_core, ↓State.setFlag_core, ↓ite_core, ite_self]⟩

theorem execNop_core (rq : Rq) (s : State) : ∃ t, (execNop rq s) = .next t ∧ t.core = s.core := by
  exact ⟨_, rfl, by simp only [↓State.run_core, ↓State.finish_core, implies_true]⟩

@[simp] theorem State.setCount_core (s : State) (id : Nat) (n : Nat) : (State.setCount s id n).core = s.core := by
  simp only [State.setCount.eq_def, ↓State.core_keep]

theorem execKpsPageHeader_core (ch : Nat) (bytes : List Byte) (s : State) :
    ∃ t, (execKpsPageHeader ch bytes s) = .next t ∧ t.core = s.core := by
  rw [execKpsPageHeader.eq_def]
  repeat' split
  all_goals refine ⟨_, rfl, ?_⟩
  all_goals (try simp only [↓State.failPage_core, ↓State.stopPage_core, ↓State.setCount_core, ↓State.setPage_core,
      ↓State.shortPage_core, ↓foldl_core, ↓ite_core, ↓dite_core, ↓reduceIte, ite_self, implies_true,
      ↓State.core_keep])
  all_goals repeat' ((first | split | (rw [foldl_core]; intro s x)) <;> try simp only [↓State.failPage_core,
      ↓State.stopPage_core, ↓State.setCount_core, ↓State.setPage_core, ↓State.shortPage_core, ↓foldl_core,
      ↓ite_core, ↓dite_core, ↓reduceIte, ite_self, implies_true, ↓State.core_keep])

@[simp] theorem State.setSsi_core (s : State) (u : Nat) (x : Ssi) : (State.setSsi s u x).core = s.core := by
  simp only [State.setSsi.eq_def, ↓State.core_keep]

@[simp] theorem State.monSnap_core (s : State) (m : Nat) : (State.monSnap s m).core = s.core := by
  simp only [State.monSnap.eq_def, ↓State.setMon_core]

theorem execMonSnapshot_core (rq : Rq) (mask : Nat) (start : Nat) (s : State) :
    ∃ t, (execMonSnapshot rq mask start s) = .next t ∧ t.core = s.core := by
  rw [execMonSnapshot.eq_def]
  repeat' split
  all_goals refine ⟨_, rfl, ?_⟩
  all_goals (try simp only [↓State.run_core, ↓State.withParams_core, ↓State.monSnap_core, ↓State.finish_core,
      ↓foldl_core, ↓ite_core, ↓dite_core, ↓reduceIte, ite_self, implies_true, ↓State.core_keep])
  all_goals repeat' ((first | (rw [State.withParams_core]; intro s) | (rw [State.run_core]; intro s) | split | (rw [foldl_core]; intro s x)) <;> try simp only [↓State.run_core,
      ↓State.withParams_core, ↓State.monSnap_core, ↓State.finish_core, ↓foldl_core, ↓ite_core, ↓dite_core,
      ↓reduceIte, ite_self, implies_true, ↓State.core_keep])

@[simp] theorem State.safeLine_core (s : State) (k : Nat) (cause : Nat) : (State.safeLine s k cause).core = s.core := by
  rw [State.safeLine.eq_def]
  repeat' split
  all_goals simp only [↓State.bump_core, ↓State.fireEvent_core, ↓State.setFld_core]

theorem execEngineUndoze_core (engine : Nat) (s : State) :
    ∃ t, (execEngineUndoze engine s) = .next t ∧ t.core = s.core := by
  exact ⟨_, rfl, by simp only [↓State.showGated_core, ↓ite_core, ite_self, ↓State.core_keep]⟩

theorem execAxisHome_core (rq : Rq) (axis : Nat) (dir : Nat) (s : State) :
    ∃ t, (execAxisHome rq axis dir s) = .next t ∧ t.core = s.core := by
  exact ⟨_, rfl, by simp only [↓State.run_core, ↓State.finish_core, ↓State.withParams_core, ↓State.setFld_core,
    ↓State.pend_core, ↓State.axStart_core, ↓State.setAxis_core, ↓ite_core, ite_self, implies_true]⟩

theorem execScrubRead_core (s : State) : ∃ t, (execScrubRead s) = .next t ∧ t.core = s.core := by
  exact ⟨_, rfl, by simp only [↓State.readWord_core, ↓State.setFld_core, ↓State.bumpWrap_core, ↓ite_core, ite_self,
    ↓State.core_keep]⟩

theorem execPhaseDisable_core (phase : Nat) (s : State) :
    ∃ t, (execPhaseDisable phase s) = .next t ∧ t.core = s.core := by
  exact ⟨_, rfl, by simp only [↓State.phaseFail_core]⟩

@[simp] theorem State.takePosition_core (s : State) (b : List Byte) : (State.takePosition s b).core = s.core := by
  simp only [State.takePosition.eq_def, ↓State.webMoved_core, ↓State.core_keep]

@[simp] theorem State.authFail_core (s : State) (slot : Nat) : (State.authFail s slot).core = s.core := by
  simp only [State.authFail.eq_def, ↓State.bump_core, ↓ite_core, ite_self, ↓State.core_keep]

theorem execPaceVcapWrite_core (mv : Nat) (s : State) : ∃ t, (execPaceVcapWrite mv s) = .next t ∧ t.core = s.core := by
  exact ⟨_, rfl, by simp only [↓State.writeField_core]⟩

@[simp] theorem State.ringLost_core (s : State) : (State.ringLost s).core = s.core := by
  simp only [State.ringLost.eq_def, ↓State.jigEvent_core, ↓State.bump_core]

@[simp] theorem State.piece_core (s : State) (c : Comp) (continues : Bool) :
    (State.piece s c continues).core = s.core := by
  simp only [State.piece.eq_def, ↓State.setCam_core, ↓State.recordQuota_core, ↓State.jigEvent_core,
    ↓State.bump_core, ↓State.makeCrop_core, ↓State.addRecord_core, ↓State.ringLost_core, ↓ite_core, ite_self]

@[simp] theorem State.group_core (s : State) (v : LineView) (g : List Comp × List (List Mark)) :
    (State.group s v g).2.core = s.core := by
  rw [State.group.eq_def] <;> (try simp only [↓State.piece_core, ↓foldl_core, ↓ite_core, ↓dite_core, ↓reduceIte,
      ite_self, implies_true,
      ↓State.core_keep]) <;> repeat' ((first | split | (rw [foldl_core]; intro s x)) <;> try simp only [↓State.piece_core,
      ↓foldl_core, ↓ite_core, ↓dite_core, ↓reduceIte, ite_self, implies_true, ↓State.core_keep])

@[simp] theorem State.countSamples_core (s : State) (p : Nat) (m : Nat) : (State.countSamples s p m).core = s.core := by
  simp only [State.countSamples.eq_def, ↓State.bump_core, ↓State.core_keep]

@[simp] theorem State.gateFinding_core (s : State) (f : Finding) : (State.gateFinding s f).core = s.core := by
  simp only [State.gateFinding.eq_def, ↓State.bump_core, ↓State.nozTo_core, ↓ite_core, ite_self]

@[simp] theorem State.inputLine_core (s : State) (n : Nat) (l : CapLine) : (State.inputLine s n l).core = s.core := by
  simp only [State.inputLine.eq_def, ↓State.setCam_core, ↓State.bump_core, ↓ite_core, ite_self]

@[simp] theorem State.lineDone_core (s : State) (n : Nat) : (State.lineDone s n).core = s.core := by
  rw [State.lineDone.eq_def] <;> (try simp only [↓State.showCapFill_core, ↓State.setCam_core,
      ↓State.paperColumn_core, ↓State.inputLine_core, ↓foldl_core, ↓ite_core, ↓dite_core, ↓reduceIte, ite_self,
      implies_true,
      ↓State.core_keep]) <;> repeat' ((first | split | (rw [foldl_core]; intro s x)) <;> try simp only [↓State.showCapFill_core,
      ↓State.setCam_core, ↓State.paperColumn_core, ↓State.inputLine_core, ↓foldl_core, ↓ite_core, ↓dite_core,
      ↓reduceIte, ite_self, implies_true, ↓State.core_keep])

@[simp] theorem State.stripe_core (s : State) (p : Nat) (n : Nat) : (State.stripe s p n).core = s.core := by
  rw [State.stripe.eq_def] <;> (try simp only [↓State.readLine_core, ↓State.countSamples_core, ↓State.setCam_core,
      ↓State.lineDone_core, ↓foldl_core, ↓ite_core, ↓dite_core, ↓reduceIte, ite_self, implies_true,
      ↓State.core_keep]) <;> repeat' ((first | split | (rw [foldl_core]; intro s x)) <;> try simp only [↓State.readLine_core,
      ↓State.countSamples_core, ↓State.setCam_core, ↓State.lineDone_core, ↓foldl_core, ↓ite_core, ↓dite_core,
      ↓reduceIte, ite_self, implies_true, ↓State.core_keep])

@[simp] theorem State.axFollowUpdate_core (s : State) (a : Nat) : (State.axFollowUpdate s a).core = s.core := by
  simp only [State.axFollowUpdate.eq_def, ↓State.axFollowMove_core, ↓State.setAxis_core, ↓State.axSettle_core,
    ↓ite_core, ite_self]

@[simp] theorem State.acceptFrom9_core (s : State) (forwarded : Bool) (sess : Nat) (b : List Byte) :
    (State.acceptFrom9 s forwarded sess b).core = s.core := by
  rw [State.acceptFrom9.eq_def] <;> (try simp only [↓State.complete_core, ↓State.forward_core, ↓State.setSlot_core,
      ↓State.enqueue_core, ↓foldl_core, ↓ite_core, ↓dite_core, ↓reduceIte, ite_self, implies_true,
      ↓State.core_keep]) <;> repeat' ((first | split | (rw [foldl_core]; intro s x)) <;> try simp only [↓State.complete_core,
      ↓State.forward_core, ↓State.setSlot_core, ↓State.enqueue_core, ↓foldl_core, ↓ite_core, ↓dite_core, ↓reduceIte,
      ite_self, implies_true, ↓State.core_keep])

@[simp] theorem State.takeSlot_core (s : State) (sess : Nat) (h : Header) : (State.takeSlot s sess h).core = s.core := by
  simp only [State.takeSlot.eq_def, ↓State.setSession_core]

@[simp] theorem State.acceptFrom5_core (s : State) (src : PktSrc) (sess : Nat) (b : List Byte) :
    (State.acceptFrom5 s src sess b).core = s.core := by
  simp only [State.acceptFrom5.eq_def, ↓State.fetch_core, ↓State.markDelivered_core, ↓State.respond_core,
    ↓State.refuse_core, ↓State.acceptFrom9_core, ↓State.takeSlot_core, ↓ite_core, ite_self]

@[simp] theorem State.acceptFrom3_core (s : State) (src : PktSrc) (b : List Byte) :
    (State.acceptFrom3 s src b).core = s.core := by
  rw [State.acceptFrom3.eq_def]
  repeat' split
  all_goals simp only [↓State.refuse_core, ↓State.acceptFrom5_core, ↓State.acceptOpen_core, ↓State.setSession_core,
    ↓State.bump_core, ↓ite_core, ite_self]

@[simp] theorem State.acceptFrom1_core (s : State) (src : PktSrc) (b : List Byte) :
    (State.acceptFrom1 s src b).core = s.core := by
  simp only [State.acceptFrom1.eq_def, ↓State.refuse_core, ↓State.acceptFrom3_core, ↓ite_core, ite_self]

@[simp] theorem State.takeFromRing_core (s : State) (r : Nat) (b : List Byte) :
    (State.takeFromRing s r b).core = s.core := by
  simp only [State.takeFromRing.eq_def, ↓State.emit_core, ↓State.consume_core, ↓State.refuse_core,
    ↓State.acceptFrom1_core, ↓ite_core, ite_self]

@[simp] theorem State.closeForwarded_core (s : State) (dev : Nat) (sess : Nat) :
    (State.closeForwarded s dev sess).core = s.core := by
  rw [State.closeForwarded.eq_def]
  repeat' split
  all_goals simp only [↓State.closeSession_core]

@[simp] theorem State.openSession_core (s : State) (n : Nat) (k : SessKind) :
    (State.openSession s n k).core = s.core := by
  simp only [State.openSession.eq_def, ↓State.showOpen_core, ↓State.setSession_core]

theorem State.forwardedSession_core (s : State) (dev sess : Nat) (r : Nat × State)     (h : s.forwardedSession
    dev sess = some r) :
    r.2.core = s.core := by
  rw [State.forwardedSession] at h
  split at h
  · cases h; rfl
  · obtain ⟨n, -, h⟩ := Option.map_eq_some_iff.mp h
    cases h; exact State.openSession_core ..

@[simp] theorem State.takeForwarded_core (s : State) (dev : Nat) (sess : Nat) (b : List Byte) :
    (State.takeForwarded s dev sess b).core = s.core := by
  simp only [State.takeForwarded]
  split
  · exact State.refuse_core ..
  · split
    · exact State.refuse_core ..
    · split
      · exact State.closeForwarded_core ..
      · split
        · exact State.refuse_core ..
        · split
          · exact State.refuse_core ..
          · rename_i n s' h
            rw [State.acceptFrom9_core, State.takeSlot_core, State.forwardedSession_core _ _ _ _ h]

theorem execCommandPacket_core (src : PktSrc) (bytes : List Byte) (s : State) :
    ∃ t, (execCommandPacket src bytes s) = .next t ∧ t.core = s.core := by
  rw [execCommandPacket.eq_def]
  refine ⟨_, rfl, ?_⟩
  repeat' split
  all_goals simp only [↓State.takeFromRing_core, ↓State.acceptFrom1_core, ↓State.takeForwarded_core]

@[simp] theorem State.startWake_core (s : State) (cause : Nat) : (State.startWake s cause).core = s.core := by
  simp only [State.startWake.eq_def, ↓State.setFld_core, ↓ite_core, ite_self, ↓State.core_keep]

theorem execWakeEvent_core (s : State) : ∃ t, (execWakeEvent s) = .next t ∧ t.core = s.core := by
  exact ⟨_, rfl, by simp only [↓State.startWake_core, ↓State.endTask_core, ↓ite_core, ite_self]⟩

theorem execSessionClose_core (rq : Rq) (sess : Nat) (s : State) :
    ∃ t, (execSessionClose rq sess s) = .next t ∧ t.core = s.core := by
  exact ⟨_, rfl, by simp only [↓State.run_core, ↓State.withParams_core, ↓State.closeSession_core,
    ↓State.finish_core, implies_true]⟩

@[simp] theorem State.calibrate_core (s : State) (ch : Nat) (steps : Nat) (ticks : Nat) :
    (State.calibrate s ch steps ticks).core = s.core := by
  simp only [State.calibrate.eq_def, ↓State.calibrating_core, ↓State.interrupt_core, ↓ite_core, ite_self,
    ↓State.core_keep]

theorem execRetraining_core (ch : Nat) (s : State) : ∃ t, (execRetraining ch s) = .next t ∧ t.core = s.core := by
  exact ⟨_, rfl, by simp only [↓State.calibrate_core]⟩

@[simp] theorem State.homeFound_core (s : State) (a : Nat) : (State.homeFound s a).core = s.core := by
  rw [State.homeFound.eq_def]
  repeat' split
  all_goals simp only [↓State.axShift_core, ↓State.axRamp_core, ↓State.setAxis_core, ↓State.setFld_core]

@[simp] theorem State.switchTo_core (s : State) (a : Nat) (sw : Nat) (level : Bool) (us : Nat) :
    (State.switchTo s a sw level us).core = s.core := by
  simp only [State.switchTo.eq_def, ↓State.showLimit_core, ↓State.limitTrip_core, ↓State.homeFound_core, ↓ite_core,
    ite_self, ↓State.core_keep]

@[simp] theorem State.axIssue_core (s : State) (a : Nat) (before : Int) : (State.axIssue s a before).core = s.core := by
  simp only [State.axIssue.eq_def, ↓State.emit_core, ↓State.axFrame_core, ↓ite_core, ite_self]

theorem execLeader_core (west : Bool) (bytes : List Byte) (s : State) :
    ∃ t, (execLeader west bytes s) = .next t ∧ t.core = s.core := by
  exact ⟨_, rfl, by simp only [↓State.chainTake_core, ↓State.chainSpread_core, ↓State.chainStatusSet_core,
    ↓State.failFlights_core, ↓State.log1_core, ↓ite_core, ite_self, implies_true]⟩

@[simp] theorem State.encDouble_core (s : State) (e : Nat) : (State.encDouble s e).core = s.core := by
  simp only [State.encDouble.eq_def, ↓State.log1_core, ↓State.bump_core, ↓State.posEvent_core, ↓State.setFld_core]

@[simp] theorem State.encStep_core (s : State) (e : Nat) (d0 : Int) : (State.encStep s e d0).core = s.core := by
  simp only [State.encStep.eq_def, ↓State.breachOnce_core, ↓State.posEvent_core, ↓State.setFld_core,
    ↓State.setFlag_core, ↓State.setEnc_core, ↓State.webMoved_core, ↓State.setSpeed_core, ↓ite_core, ite_self]

@[simp] theorem State.encSample_core (s : State) (e : Nat) (a : Bool) (b : Bool) :
    (State.encSample s e a b).core = s.core := by
  rw [State.encSample.eq_def] <;> (try simp only [↓State.setEnc_core, ↓State.encDouble_core, ↓State.encStep_core,
      ↓foldl_core, ↓ite_core, ↓dite_core, ↓reduceIte, ite_self, implies_true,
      ↓State.core_keep]) <;> repeat' ((first | split | (rw [foldl_core]; intro s x)) <;> try simp only [↓State.setEnc_core,
      ↓State.encDouble_core, ↓State.encStep_core, ↓foldl_core, ↓ite_core, ↓dite_core, ↓reduceIte, ite_self,
      implies_true, ↓State.core_keep])

theorem execQuadDoubleStep_core (enc : Nat) (samples : Nat) (s : State) :
    ∃ t, (execQuadDoubleStep enc samples s) = .next t ∧ t.core = s.core := by
  exact ⟨_, rfl, by simp only [↓State.encSample_core, ↓ite_core, ite_self]⟩

theorem execAxisStatus_core (rq : Rq) (axis : Nat) (s : State) :
    ∃ t, (execAxisStatus rq axis s) = .next t ∧ t.core = s.core := by
  exact ⟨_, rfl, by simp only [↓State.run_core, ↓State.withParams_core, ↓State.finish_core, implies_true]⟩

theorem execFwSwitch_core (rq : Rq) (s : State) : ∃ t, (execFwSwitch rq s) = .next t ∧ t.core = s.core := by
  exact ⟨_, rfl, by simp only [↓State.run_core, ↓State.withParams_core, ↓State.reject_core, ↓State.finish_core,
    ↓State.setFld_core, ↓State.occupy_core, ↓State.pend_core, ↓ite_core, ite_self, implies_true, ↓State.core_keep]⟩

theorem execMemInject_core (value : Word) (s : State) : ∃ t, (execMemInject value s) = .next t ∧ t.core = s.core := by
  exact ⟨_, rfl, by simp only [↓State.setReg_core, ↓ite_core, ite_self]⟩

theorem execPageSubmit_core (rq : Rq) (page : Nat) (ch : Nat) (len : Nat) (s : State) :
    ∃ t, (execPageSubmit rq page ch len s) = .next t ∧ t.core = s.core := by
  rw [execPageSubmit.eq_def]
  repeat' split
  all_goals refine ⟨_, rfl, ?_⟩
  all_goals (try simp only [↓State.run_core, ↓State.withParams_core, ↓State.pend_core, ↓State.pageStart_core,
      ↓foldl_core, ↓ite_core, ↓dite_core, ↓reduceIte, ite_self, implies_true, ↓State.core_keep])
  all_goals repeat' ((first | (rw [State.withParams_core]; intro s) | (rw [State.run_core]; intro s) | split | (rw [foldl_core]; intro s x)) <;> try simp only [↓State.run_core,
      ↓State.withParams_core, ↓State.pend_core, ↓State.pageStart_core, ↓foldl_core, ↓ite_core, ↓dite_core,
      ↓reduceIte, ite_self, implies_true, ↓State.core_keep])

@[simp] theorem State.ethSend_core (s : State) (p : Nat) (hop : Nat) (ip : Nat) (kind : Nat) :
    (State.ethSend s p hop ip kind).core = s.core := by
  simp only [State.ethSend.eq_def, ↓State.bump_core, ↓State.emit_core]

@[simp] theorem State.ethTaken_core (s : State) (p : Nat) (f : EthFrame) : (State.ethTaken s p f).core = s.core := by
  rw [State.ethTaken.eq_def]
  repeat' split
  all_goals simp only [↓State.ethSend_core, ↓State.acceptFrom1_core, ↓ite_core, ite_self]

@[simp] theorem State.monEnd_core (s : State) (m : Nat) (tag : Option Nat) : (State.monEnd s m tag).core = s.core := by
  simp only [State.monEnd.eq_def, ↓State.setMon_core, ↓State.monStart_core, ↓State.bumpWrap_core,
    ↓State.raiseIf_core]

theorem execThrottleRelease_core (ch : Nat) (s : State) :
    ∃ t, (execThrottleRelease ch s) = .next t ∧ t.core = s.core := by
  rw [execThrottleRelease.eq_def]
  refine ⟨_, rfl, ?_⟩
  repeat' split
  all_goals simp only [↓State.showThrottle_core, ↓State.core_keep]

theorem execChkReset_core (unit : Nat) (s : State) : ∃ t, (execChkReset unit s) = .next t ∧ t.core = s.core := by
  exact ⟨_, rfl, by simp only [↓State.orLater_core, ↓State.setChk_core, implies_true]⟩

@[simp] theorem State.wholeLine_core (s : State) (p : Nat) (n : Nat) : (State.wholeLine s p n).core = s.core := by
  rw [State.wholeLine.eq_def] <;> (try simp only [↓State.readLine_core, ↓State.lineDone_core,
      ↓State.countSamples_core, ↓foldl_core, ↓ite_core, ↓dite_core, ↓reduceIte, ite_self, implies_true,
      ↓State.core_keep]) <;> repeat' ((first | split | (rw [foldl_core]; intro s x)) <;> try simp only [↓State.readLine_core,
      ↓State.lineDone_core, ↓State.countSamples_core, ↓foldl_core, ↓ite_core, ↓dite_core, ↓reduceIte, ite_self,
      implies_true, ↓State.core_keep])

theorem execStripeProcess_core (pipe : Nat) (s : State) :
    ∃ t, (execStripeProcess pipe s) = .next t ∧ t.core = s.core := by
  rw [execStripeProcess.eq_def]
  refine ⟨_, rfl, ?_⟩
  repeat' split
  all_goals simp only [↓State.setFld_core, ↓State.bump_core, ↓State.wholeLine_core, ↓State.stripe_core,
    ↓State.setFlag_core, ↓foldl_core, ↓ite_core, ite_self, implies_true, ↓State.core_keep]

theorem execDoseSwap_core (bar : Nat) (s : State) : ∃ t, (execDoseSwap bar s) = .next t ∧ t.core = s.core := by
  exact ⟨_, rfl, by simp only [↓State.swapDue_core, ↓ite_core, ite_self]⟩

@[simp] theorem State.fillSlot_core (s : State) (image : List Byte) : (State.fillSlot s image).core = s.core := by
  simp only [State.fillSlot.eq_def, ↓State.setFld_core, ↓ite_core, ite_self, ↓State.core_keep]

theorem execFwStage_core (rq : Rq) (chunk : Chunk) (s : State) :
    ∃ t, (execFwStage rq chunk s) = .next t ∧ t.core = s.core := by
  exact ⟨_, rfl, by simp only [↓State.run_core, ↓State.finish_core, ↓State.loadChunk_core, ↓State.voidSlot_core,
    ↓State.fillSlot_core, ↓State.setFld_core, ↓ite_core, ite_self, implies_true]⟩

theorem execKalApply_core (pipe : Nat) (s : State) : ∃ t, (execKalApply pipe s) = .next t ∧ t.core = s.core := by
  exact ⟨_, rfl, by simp only [↓State.orLater_core, ↓State.setCam_core, ↓ite_core, ite_self, implies_true]⟩

theorem execPositionSend_core (s : State) : ∃ t, (execPositionSend s) = .next t ∧ t.core = s.core := by
  exact ⟨_, rfl, by simp only [↓State.chainAll_core, ↓ite_core, ite_self, ↓State.core_keep]⟩

theorem execFrameClose_core (port : Nat) (s : State) : ∃ t, (execFrameClose port s) = .next t ∧ t.core = s.core := by
  exact ⟨_, rfl, by simp only [↓State.setCam_core, ↓State.closeFrame_core, ↓State.deviation_core, ↓ite_core,
    ite_self]⟩

@[simp] theorem State.cropsReady_core (s : State) (m : Int) : (State.cropsReady s m).core = s.core := by
  simp only [State.cropsReady.eq_def, ↓State.core_keep]

theorem execThresholdLoad_core (rq : Rq) (chunk : Chunk) (s : State) :
    ∃ t, (execThresholdLoad rq chunk s) = .next t ∧ t.core = s.core := by
  rw [execThresholdLoad.eq_def]
  repeat' split
  all_goals refine ⟨_, rfl, ?_⟩
  all_goals (try simp only [↓State.run_core, ↓State.loadTable_core, ↓State.setPend_core, ↓State.reject_core,
      ↓State.finish_core, ↓State.stageBank_core, ↓foldl_core, ↓ite_core, ↓dite_core, ↓reduceIte, ite_self,
      implies_true, ↓State.core_keep])
  all_goals repeat' ((first | (rw [State.loadTable_core] <;> [(intro s); (intro t rep s)]) | (rw [State.run_core]; intro s) | split | (rw [foldl_core]; intro s x)) <;> try simp only [↓State.run_core,
      ↓State.loadTable_core, ↓State.setPend_core, ↓State.reject_core, ↓State.finish_core, ↓State.stageBank_core,
      ↓foldl_core, ↓ite_core, ↓dite_core, ↓reduceIte, ite_self, implies_true, ↓State.core_keep])

@[simp] theorem State.keepImage_core (s : State) (m : Int) (row : List (Nat × List Nat)) :
    (State.keepImage s m row).core = s.core := by
  simp only [State.keepImage.eq_def, ↓State.core_keep]

theorem execEthFrameReceive_core (port : Nat) (frame : EthFrame) (s : State) :
    ∃ t, (execEthFrameReceive port frame s) = .next t ∧ t.core = s.core := by
  exact ⟨_, rfl, by simp only [↓State.bump_core, ↓State.islandOverrun_core, ↓State.ethTaken_core, ↓ite_core,
    ite_self]⟩

theorem execJobOpen_core (rq : Rq) (job : Nat) (mask : Nat) (s : State) :
    ∃ t, (execJobOpen rq job mask s) = .next t ∧ t.core = s.core := by
  exact ⟨_, rfl, by simp only [↓State.run_core, ↓State.withParams_core, ↓State.finish_core, ↓State.setFld_core,
    ↓ite_core, ite_self, implies_true, ↓State.core_keep]⟩

theorem execWakePin_core (s : State) : ∃ t, (execWakePin s) = .next t ∧ t.core = s.core := by
  exact ⟨_, rfl, by simp only [↓State.startWake_core, ↓ite_core, ite_self]⟩

theorem execPaperCalDone_core (port : Nat) (s : State) : ∃ t, (execPaperCalDone port s) = .next t ∧ t.core = s.core := by
  rw [execPaperCalDone.eq_def]
  refine ⟨_, rfl, ?_⟩
  repeat' split
  all_goals simp only [↓State.setCam_core, ↓State.setPaper_core, ↓State.stageGains_core, ↓State.finishSlot_core,
    ↓State.calWrite_core, ↓foldl_core, ↓ite_core, ite_self, implies_true]

theorem execLaneLock_core (lane : Nat) (bits : List Bool) (s : State) :
    ∃ t, (execLaneLock lane bits s) = .next t ∧ t.core = s.core := by
  rw [execLaneLock.eq_def]
  repeat' split
  all_goals refine ⟨_, rfl, ?_⟩
  all_goals (try simp only [↓State.linkSend_core, ↓State.setFld_core, ↓State.setLane_core, ↓foldl_core, ↓ite_core,
      ↓dite_core, ↓reduceIte, ite_self, implies_true, ↓State.core_keep])
  all_goals repeat' ((first | split | (rw [foldl_core]; intro s x)) <;> try simp only [↓State.linkSend_core,
      ↓State.setFld_core, ↓State.setLane_core, ↓foldl_core, ↓ite_core, ↓dite_core, ↓reduceIte, ite_self,
      implies_true, ↓State.core_keep])

theorem execDmaRun_core (ch : Nat) (s : State) : ∃ t, (execDmaRun ch s) = .next t ∧ t.core = s.core := by
  exact ⟨_, rfl, by simp only [↓State.orLater_core, ↓State.chainStart_core, ↓ite_core, ite_self, implies_true]⟩

theorem execMonitorConfigWrite_core (unit : Nat) (reg : Nat) (value : Word) (s : State) :
    ∃ t, (execMonitorConfigWrite unit reg value s) = .next t ∧ t.core = s.core := by
  exact ⟨_, rfl, by simp only [↓State.orLater_core, ↓State.monWrite_core, ↓ite_core, ite_self, implies_true]⟩

theorem execDetRefresh_core (ch : Nat) (s : State) : ∃ t, (execDetRefresh ch s) = .next t ∧ t.core = s.core := by
  exact ⟨_, rfl, by simp only [↓State.interrupt_core, ↓State.closeRows_core, ↓State.calibrating_core, ↓ite_core,
    ite_self, ↓State.core_keep]⟩

@[simp] theorem State.imageFindings_core (s : State) (n : Nat) (lo : Nat) (hi : Nat) (f : CamFrame) :
    (State.imageFindings s n lo hi f).core = s.core := by
  rw [State.imageFindings.eq_def] <;> (try simp only [↓State.pushFinding_core, ↓foldl_core, ↓ite_core, ↓dite_core,
      ↓reduceIte, ite_self, implies_true,
      ↓State.core_keep]) <;> repeat' ((first | split | (rw [foldl_core]; intro s x)) <;> try simp only [↓State.pushFinding_core,
      ↓foldl_core, ↓ite_core, ↓dite_core, ↓reduceIte, ite_self, implies_true, ↓State.core_keep])

theorem execZoneFault_core (group : Nat) (line : Nat) (s : State) :
    ∃ t, (execZoneFault group line s) = .next t ∧ t.core = s.core := by
  exact ⟨_, rfl, by simp only [↓State.setFld_core, ↓State.raiseIf_core, ↓State.log1_core, ↓State.startWake_core,
    ↓ite_core, ite_self]⟩

@[simp] theorem State.answerWrites_core (s : State) (rq : Rq) (op : Nat) (l : List (Nat × Nat × RegEntry))
    (reply : State → List Byte) :
    (State.answerWrites s rq op l reply).core = s.core := by
  simp only [State.answerWrites]
  split
  · exact State.badParam_core ..
  · exact State.finish_core ..
  · exact State.finish_core ..
  · exact State.reject_core ..
  · rw [State.reject_core, State.modeRefused_core]
  · rename_i t h
    rw [State.finish_core]
    rw [State.tryWrites] at h
    dsimp only at h
    split at h
    · cases h
    · split at h
      · cases h
      · split at h
        · cases h
        · cases h
          split
          · exact State.commit_core ..
          · exact State.writeAll_core ..

theorem execWriteReg_core (rq : Rq) (addr : Nat) (vals : List Word) (s : State) :
    ∃ t, (execWriteReg rq addr vals s) = .next t ∧ t.core = s.core := by
  exact ⟨_, rfl, by simp only [↓State.runIn_core, ↓State.withParams_core, ↓State.answerWrites_core, implies_true]⟩

@[simp] theorem State.renderedTo_core (s : State) (m : Int) : (State.renderedTo s m).core = s.core := by
  simp only [State.renderedTo.eq_def, ↓State.setBar_core, ↓foldl_core, implies_true]

theorem execAlarmArm_core (dom : Nat) (ns : Nat) (s : State) :
    ∃ t, (execAlarmArm dom ns s) = .next t ∧ t.core = s.core := by
  exact ⟨_, rfl, by simp only [↓State.writeField_core, ↓ite_core, ite_self]⟩

theorem execTimeRead_core (rq : Rq) (dom : Nat) (s : State) :
    ∃ t, (execTimeRead rq dom s) = .next t ∧ t.core = s.core := by
  exact ⟨_, rfl, by simp only [↓State.run_core, ↓State.withParams_core, ↓State.finish_core, implies_true]⟩

theorem execLoopEnWrite_core (mask : Nat) (s : State) : ∃ t, (execLoopEnWrite mask s) = .next t ∧ t.core = s.core := by
  exact ⟨_, rfl, by simp only [↓State.setLoops_core, ↓ite_core, ite_self]⟩

theorem execCameraTrigger_core (port : Nat) (s : State) :
    ∃ t, (execCameraTrigger port s) = .next t ∧ t.core = s.core := by
  exact ⟨_, rfl, by simp only [↓State.emit_core, ↓State.setCam_core, ↓ite_core, ite_self]⟩

@[simp] theorem State.dropSwitch_core (s : State) (entry : Nat) : (State.dropSwitch s entry).core = s.core := by
  rw [State.dropSwitch.eq_def]
  repeat' split
  all_goals simp only [↓State.setFld_core, ↓State.vacate_core, ↓State.finishSlot_core, ↓State.core_keep]

@[simp] theorem State.frameDone_core (s : State) (n : Nat) (num : Nat) : (State.frameDone s n num).core = s.core := by
  simp only [State.frameDone.eq_def, ↓State.pruneGrid_core, ↓State.setCam_core]

@[simp] theorem State.measureOverlap_core (s : State) (f : CamFrame) (o : Nat) (a : Nat × Nat × Nat) (b : Nat ×
    Nat × Nat) :
    (State.measureOverlap s f o a b).core = s.core := by
  rw [State.measureOverlap.eq_def] <;> (try simp only [↓State.setOverlap_core, ↓State.jigEvent_core, ↓foldl_core,
      ↓ite_core, ↓dite_core, ↓reduceIte, ite_self, implies_true,
      ↓State.core_keep]) <;> repeat' ((first | split | (rw [foldl_core]; intro s x)) <;> try simp only [↓State.setOverlap_core,
      ↓State.jigEvent_core, ↓foldl_core, ↓ite_core, ↓dite_core, ↓reduceIte, ite_self, implies_true,
      ↓State.core_keep])

@[simp] theorem State.measureOverlaps_core (s : State) (n : Nat) (f : CamFrame) :
    (State.measureOverlaps s n f).core = s.core := by
  simp only [State.measureOverlaps.eq_def, ↓State.measureOverlap_core, ↓foldl_core, ↓ite_core, ite_self,
    implies_true]

@[simp] theorem State.rotationDone_core (s : State) (c : Nat) : (State.rotationDone s c).core = s.core := by
  simp only [State.rotationDone.eq_def, ↓State.setFld_core, ↓State.nextRotation_core, ↓State.setCluster_core,
    ↓ite_core, ite_self]

@[simp] theorem State.echoTemp_core (s : State) (k : Nat) (temp : Nat) (refused : Bool) :
    (State.echoTemp s k temp refused).core = s.core := by
  simp only [State.echoTemp.eq_def, ↓State.setFld_core, ↓State.setBoard_core, ↓State.setBst_core, ↓ite_core,
    ite_self]

@[simp] theorem State.learn_core (s : State) (west : Bool) (l : List ChainEntry) :
    (State.learn s west l).core = s.core := by
  simp only [State.learn.eq_def, ↓State.setLink_core, ↓ite_core, ite_self, ↓State.core_keep]

@[simp] theorem State.ssiMissed_core (s : State) (u : Nat) (n : Nat) (tag : Option Nat) :
    (State.ssiMissed s u n tag).core = s.core := by
  simp only [State.ssiMissed.eq_def, ↓State.raise_core, ↓State.setFld_core, ↓ite_core, ite_self]

@[simp] theorem State.ssiWord_core (s : State) (u : Nat) (w : SsiWord) (tag : Option Nat) :
    (State.ssiWord s u w tag).core = s.core := by
  simp only [State.ssiWord.eq_def, ↓State.emit_core, ↓State.setFld_core, ↓State.setSsi_core, ↓State.bump_core,
    ↓State.ssiMissed_core, ↓ite_core, ite_self]

theorem execBarrierEngage_core (s : State) : ∃ t, (execBarrierEngage s) = .next t ∧ t.core = s.core := by
  rw [execBarrierEngage.eq_def]
  refine ⟨_, rfl, ?_⟩
  repeat' split
  all_goals simp only [↓State.setFld_core, ↓State.core_keep]

@[simp] theorem State.switchDom_core (s : State) (b : Nat) : (State.switchDom s b).core = s.core := by
  simp only [State.switchDom.eq_def, ↓State.showUtc_core, ↓State.setResid_core, ↓State.setFld_core,
    ↓State.timeEvent_core, ↓State.bump_core, ↓State.log1_core]

theorem execSourceAbsent_core (s : State) : ∃ t, (execSourceAbsent s) = .next t ∧ t.core = s.core := by
  exact ⟨_, rfl, by simp only [↓State.sourceGone_core, ↓State.log1_core, ↓State.switchDom_core,
    ↓State.timeEvent_core, ↓State.setFld_core, ↓ite_core, ite_self]⟩

theorem execReply_core (west : Bool) (bytes : List Byte) (s : State) :
    ∃ t, (execReply west bytes s) = .next t ∧ t.core = s.core := by
  exact ⟨_, rfl, by simp only [↓State.chainTake_core, ↓State.takeReply_core, ↓State.chainRelay_core, ↓ite_core,
    ite_self, implies_true]⟩

@[simp] theorem State.frameLine_core (s : State) (n : Nat) (l : PortLine) : (State.frameLine s n l).core = s.core := by
  rw [State.frameLine.eq_def] <;> (try simp only [↓State.openFrame_core, ↓State.closeFrame_core,
      ↓State.deviation_core, ↓State.setCam_core, ↓State.inspLine_core, ↓foldl_core, ↓ite_core, ↓dite_core,
      ↓reduceIte, ite_self, implies_true,
      ↓State.core_keep]) <;> repeat' ((first | split | (rw [foldl_core]; intro s x)) <;> try simp only [↓State.openFrame_core,
      ↓State.closeFrame_core, ↓State.deviation_core, ↓State.setCam_core, ↓State.inspLine_core, ↓foldl_core,
      ↓ite_core, ↓dite_core, ↓reduceIte, ite_self, implies_true, ↓State.core_keep])

theorem execCameraPortLine_core (port : Nat) (samples : List Nat) (s : State) :
    ∃ t, (execCameraPortLine port samples s) = .next t ∧ t.core = s.core := by
  exact ⟨_, rfl, by simp only [↓State.setCam_core, ↓State.frameLine_core, ↓State.setFld_core, ↓ite_core, ite_self]⟩

@[simp] theorem State.applyLater_core (s : State) : (State.applyLater s).core = s.core := by
  simp only [State.applyLater.eq_def, ↓State.commit_core, ↓State.core_keep]

@[simp] theorem State.axesWake_core (s : State) : (State.axesWake s).core = s.core := by
  simp only [State.axesWake.eq_def, ↓State.axOutput_core, ↓foldl_core, implies_true]

@[simp] theorem State.lanesWake_core (s : State) : (State.lanesWake s).core = s.core := by
  simp only [State.lanesWake.eq_def, ↓State.laneTrain_core, ↓State.laneAsk_core, ↓foldl_core, ↓ite_core, ite_self,
    implies_true]

@[simp] theorem State.back_core (s : State) : (State.back s).core = s.core := by
  simp only [State.back.eq_def, ↓State.enter_core]

@[simp] theorem State.leaveDeep_core (s : State) : (State.leaveDeep s).core = s.core := by
  simp only [State.leaveDeep.eq_def, ↓State.setFld_core, ↓State.showRamp_core, ↓State.axesWake_core,
    ↓State.lanesWake_core, ↓State.undozeAll_core, ↓State.back_core, ↓State.ethChange_core, ↓State.maskAll_core,
    ↓State.dramDeep_core, ↓State.core_keep]

theorem execWakeComplete_core (stepFailed : Bool) (s : State) :
    ∃ t, (execWakeComplete stepFailed s) = .next t ∧ t.core = s.core := by
  rw [execWakeComplete.eq_def]
  repeat' split
  all_goals refine ⟨_, rfl, ?_⟩
  all_goals (try simp only [↓State.applyLater_core, ↓State.leaveDeep_core, ↓State.log1_core, ↓State.setFld_core,
      ↓State.pairOver_core, ↓State.vacate_core, ↓State.finishSlot_core, ↓State.endTask_core, ↓foldl_core, ↓ite_core,
      ↓dite_core, ↓reduceIte, ite_self, implies_true, ↓State.core_keep])
  all_goals repeat' ((first | split | (rw [foldl_core]; intro s x)) <;> try simp only [↓State.applyLater_core,
      ↓State.leaveDeep_core, ↓State.log1_core, ↓State.setFld_core, ↓State.pairOver_core, ↓State.vacate_core,
      ↓State.finishSlot_core, ↓State.endTask_core, ↓foldl_core, ↓ite_core, ↓dite_core, ↓reduceIte, ite_self,
      implies_true, ↓State.core_keep])

@[simp] theorem State.laneCame_core (s : State) : (State.laneCame s).core = s.core := by
  simp only [State.laneCame.eq_def, ↓State.boardTrain_core, ↓foldl_core, implies_true]

theorem execMicrostepLoad_core (rq : Rq) (chunk : Chunk) (s : State) :
    ∃ t, (execMicrostepLoad rq chunk s) = .next t ∧ t.core = s.core := by
  rw [execMicrostepLoad.eq_def]
  repeat' split
  all_goals refine ⟨_, rfl, ?_⟩
  all_goals (try simp only [↓State.run_core, ↓State.loadChunk_core, ↓State.reject_core, ↓State.finish_core,
      ↓State.setAxis_core, ↓foldl_core, ↓ite_core, ↓dite_core, ↓reduceIte, ite_self, implies_true,
      ↓State.core_keep])
  all_goals repeat' ((first | (rw [State.loadChunk_core]; intro t rep s) | (rw [State.run_core]; intro s) | split | (rw [foldl_core]; intro s x)) <;> try simp only [↓State.run_core,
      ↓State.loadChunk_core, ↓State.reject_core, ↓State.finish_core, ↓State.setAxis_core, ↓foldl_core, ↓ite_core,
      ↓dite_core, ↓reduceIte, ite_self, implies_true, ↓State.core_keep])

@[simp] theorem State.segment_core (s : State) (v : LineView) (marks : List Mark) :
    (State.segment s v marks).core = s.core := by
  rw [State.segment]
  generalize gatherRuns v.m s.insp.comps (runsOf marks) = gs
  suffices H : ∀ (l : List (List Comp × List (List Mark))) (a : List Comp × State),
      (l.foldl (fun acc g => (acc.1 ++ (acc.2.group v g).1, (acc.2.group v g).2)) a).2.core = a.2.core by
    simpa only [State.core_keep] using H gs ([], s)
  intro l
  induction l with
  | nil => intro a; rfl
  | cons g l ih => intro a; rw [List.foldl_cons, ih, State.group_core]

theorem execGridLineCompare_core (s : State) : ∃ t, (execGridLineCompare s) = .next t ∧ t.core = s.core := by
  rw [execGridLineCompare.eq_def]
  refine ⟨_, rfl, ?_⟩
  repeat' split
  all_goals simp only [↓State.compareAll_core, ↓State.segment_core, ↓State.setCam_core, ↓State.renderedTo_core,
    ↓State.cropsReady_core, ↓State.keepImage_core, ↓foldl_core, implies_true, ↓State.core_keep]

@[simp] theorem State.yoyoRun_core (s : State) : (State.yoyoRun s).core = s.core := by
  simp only [State.yoyoRun.eq_def, ↓State.setReq_core, ↓State.setFld_core, ↓ite_core, ite_self, ↓State.core_keep]

theorem execModifyReg_core (rq : Rq) (entries : List RegEntry) (s : State) :
    ∃ t, (execModifyReg rq entries s) = .next t ∧ t.core = s.core := by
  exact ⟨_, rfl, by simp only [↓State.runIn_core, ↓State.withParams_core, ↓State.answerWrites_core, implies_true]⟩

theorem execLockHoldLimitWrite_core (lock : Nat) (limit : Nat) (s : State) :
    ∃ t, (execLockHoldLimitWrite lock limit s) = .next t ∧ t.core = s.core := by
  exact ⟨_, rfl, by simp only [↓State.writeField_core, ↓ite_core, ite_self]⟩

theorem execNozzleStateSet_core (rq : Rq) (idx : Nat) (state : Nat) (hold : Nat) (s : State) :
    ∃ t, (execNozzleStateSet rq idx state hold s) = .next t ∧ t.core = s.core := by
  exact ⟨_, rfl, by simp only [↓State.run_core, ↓State.withParams_core, ↓State.pushFinding_core, ↓State.pend_core,
    implies_true]⟩

theorem execFindingApply_core (s : State) : ∃ t, (execFindingApply s) = .next t ∧ t.core = s.core := by
  rw [execFindingApply.eq_def]
  refine ⟨_, rfl, ?_⟩
  repeat' split
  all_goals simp only [↓State.setFlag_core, ↓State.imageFinding_core, ↓State.gateFinding_core,
    ↓State.operatorFinding_core, ↓State.core_keep]

@[simp] theorem State.withMap_core (s : State) (b : Nat) (m : List MapEntry) (crc : Nat) :
    (State.withMap s b m crc).core = s.core := by
  simp only [State.withMap.eq_def, ↓State.setBar_core]

@[simp] theorem State.boardsRefresh_core (s : State) : (State.boardsRefresh s).core = s.core := by
  simp only [State.boardsRefresh.eq_def, ↓State.boardRefresh_core, ↓foldl_core, implies_true]

@[simp] theorem State.mapInForce_core (s : State) (b : Nat) (t : List Byte) : (State.mapInForce s b t).core = s.core := by
  simp only [State.mapInForce.eq_def, ↓State.withMap_core, ↓State.setLoopBar_core, ↓State.showStackMax_core,
    ↓State.showFill_core, ↓State.boardsRefresh_core, ↓State.restoreHealth_core, ↓State.showNozzles_core]

theorem execNozzleMapLoad_core (rq : Rq) (chunk : Chunk) (s : State) :
    ∃ t, (execNozzleMapLoad rq chunk s) = .next t ∧ t.core = s.core := by
  rw [execNozzleMapLoad.eq_def]
  repeat' split
  all_goals refine ⟨_, rfl, ?_⟩
  all_goals (try simp only [↓State.run_core, ↓State.loadChunk_core, ↓State.reject_core, ↓State.withMap_core,
      ↓State.finish_core, ↓State.mapInForce_core, ↓foldl_core, ↓ite_core, ↓dite_core, ↓reduceIte, ite_self,
      implies_true, ↓State.core_keep])
  all_goals repeat' ((first | (rw [State.loadChunk_core]; intro t rep s) | (rw [State.run_core]; intro s) | split | (rw [foldl_core]; intro s x)) <;> try simp only [↓State.run_core,
      ↓State.loadChunk_core, ↓State.reject_core, ↓State.withMap_core, ↓State.finish_core, ↓State.mapInForce_core,
      ↓foldl_core, ↓ite_core, ↓dite_core, ↓reduceIte, ite_self, implies_true, ↓State.core_keep])

theorem execRsmpPdatWrite_core (unit : Nat) (value : Word) (s : State) :
    ∃ t, (execRsmpPdatWrite unit value s) = .next t ∧ t.core = s.core := by
  exact ⟨_, rfl, by simp only [↓State.orLater_core, ↓State.rsmpPdat_core, ↓ite_core, ite_self, implies_true]⟩

theorem execDmaBusHaltClear_core (s : State) : ∃ t, (execDmaBusHaltClear s) = .next t ∧ t.core = s.core := by
  exact ⟨_, rfl, by simp only [↓State.setFld_core]⟩

theorem execCalRead_core (rq : Rq) (kind : Nat) (inst : Nat) (start : Nat) (s : State) :
    ∃ t, (execCalRead rq kind inst start s) = .next t ∧ t.core = s.core := by
  exact ⟨_, rfl, by simp only [↓State.run_core, ↓State.withParams_core, ↓State.calVerify_core, ↓State.finish_core,
    implies_true]⟩

theorem execWake_core (rq : Rq) (s : State) : ∃ t, (execWake rq s) = .next t ∧ t.core = s.core := by
  exact ⟨_, rfl, by simp only [↓State.run_core, ↓State.withParams_core, ↓State.startWake_core, ↓State.occupy_core,
    ↓State.pend_core, implies_true, ↓State.core_keep]⟩

theorem execMemDetWrite_core (d : Nat) (s : State) : ∃ t, (execMemDetWrite d s) = .next t ∧ t.core = s.core := by
  exact ⟨_, rfl, by simp only [↓State.setFld_core, ↓State.detWritten_core, ↓ite_core, ite_self]⟩

@[simp] theorem State.dropOpen_core (s : State) (ip : Nat) (port : Nat) : (State.dropOpen s ip port).core = s.core := by
  simp only [State.dropOpen.eq_def, ↓State.core_keep]

@[simp] theorem State.openPhase0_core (s : State) (ip : Nat) (port : Nat) (rq : Rq) (p : List Byte) :
    (State.openPhase0 s ip port rq p).core = s.core := by
  simp only [State.openPhase0.eq_def, ↓State.openReply_core, ↓State.dropOpen_core, ↓ite_core, ite_self,
    ↓State.core_keep]

theorem execAxisProfileSet_core (rq : Rq) (axis : Nat) (acc : Nat) (dec : Nat) (jerk : Nat) (s : State) :
    ∃ t, (execAxisProfileSet rq axis acc dec jerk s) = .next t ∧ t.core = s.core := by
  exact ⟨_, rfl, by simp only [↓State.run_core, ↓State.withParams_core, ↓State.finish_core, ↓State.setFld_core,
    ↓State.setAxis_core, ↓ite_core, ite_self, implies_true]⟩

theorem execRecordRingSet_core (rq : Rq) (ring : Nat) (vector : Nat) (addr : Nat) (size : Nat) (s : State) :
    ∃ t, (execRecordRingSet rq ring vector addr size s) = .next t ∧ t.core = s.core := by
  exact ⟨_, rfl, by simp only [↓State.run_core, ↓State.withParams_core, ↓State.setRecRing_core, ↓State.finish_core,
    ↓State.mendC1_core, implies_true]⟩

theorem execIndexEdge_core (enc : Nat) (samples : Nat) (s : State) :
    ∃ t, (execIndexEdge enc samples s) = .next t ∧ t.core = s.core := by
  exact ⟨_, rfl, by simp only [↓State.raise_core, ↓State.setFld_core, ↓State.setEnc_core, ↓State.indexCheck_core,
    ↓ite_core, ite_self]⟩

theorem execRsmpSwap_core (unit : Nat) (s : State) : ∃ t, (execRsmpSwap unit s) = .next t ∧ t.core = s.core := by
  exact ⟨_, rfl, by simp only [↓State.orLater_core, ↓State.rsmpSwap_core, ↓ite_core, ite_self, implies_true]⟩

theorem execSleepEntryComplete_core (s : State) : ∃ t, (execSleepEntryComplete s) = .next t ∧ t.core = s.core := by
  rw [execSleepEntryComplete.eq_def]
  repeat' split
  all_goals refine ⟨_, rfl, ?_⟩
  all_goals (try simp only [↓State.enterDeep_core, ↓State.vacate_core, ↓State.finishSlot_core,
      ↓State.startWake_core, ↓foldl_core, ↓ite_core, ↓dite_core, ↓reduceIte, ite_self, implies_true,
      ↓State.core_keep])
  all_goals repeat' ((first | split | (rw [foldl_core]; intro s x)) <;> try simp only [↓State.enterDeep_core,
      ↓State.vacate_core, ↓State.finishSlot_core, ↓State.startWake_core, ↓foldl_core, ↓ite_core, ↓dite_core,
      ↓reduceIte, ite_self, implies_true, ↓State.core_keep])

theorem execReplyFetch_core (rq : Rq) (tag : Nat) (s : State) :
    ∃ t, (execReplyFetch rq tag s) = .next t ∧ t.core = s.core := by
  exact ⟨_, rfl, by simp only [↓State.fetch_core]⟩

@[simp] theorem State.openPhase1_core (s : State) (ip : Nat) (port : Nat) (rq : Rq) (p : List Byte) :
    (State.openPhase1 s ip port rq p).core = s.core := by
  rw [State.openPhase1.eq_def] <;> (try simp only [↓State.openBad_core, ↓State.dropOpen_core, ↓State.openReply_core,
      ↓State.authFail_core, ↓State.openSession_core, ↓foldl_core, ↓ite_core, ↓dite_core, ↓reduceIte, ite_self,
      implies_true,
      ↓State.core_keep]) <;> repeat' ((first | split | (rw [foldl_core]; intro s x)) <;> try simp only [↓State.openBad_core,
      ↓State.dropOpen_core, ↓State.openReply_core, ↓State.authFail_core, ↓State.openSession_core, ↓foldl_core,
      ↓ite_core, ↓dite_core, ↓reduceIte, ite_self, implies_true, ↓State.core_keep])

@[simp] theorem State.arbBreak_core (s : State) (net : Bool) (arb : Nat) (reqs : List ArbReq) :
    (State.arbBreak s net arb reqs).core = s.core := by
  simp only [State.arbBreak.eq_def, ↓State.setArb_core, ↓State.setFld_core, ↓State.countForced_core, ↓ite_core,
    ite_self]

theorem execMonRestart_core (s : State) : ∃ t, (execMonRestart s) = .next t ∧ t.core = s.core := by
  exact ⟨_, rfl, by simp only [↓State.endTask_core, ↓State.monRestart_core, ↓foldl_core, implies_true]⟩

theorem execClassSet_core (rq : Rq) (chunk : Chunk) (s : State) :
    ∃ t, (execClassSet rq chunk s) = .next t ∧ t.core = s.core := by
  exact ⟨_, rfl, by simp only [↓State.run_core, ↓State.loadTab_core, implies_true]⟩

theorem execBoardProfileLoad_core (rq : Rq) (chunk : Chunk) (s : State) :
    ∃ t, (execBoardProfileLoad rq chunk s) = .next t ∧ t.core = s.core := by
  rw [execBoardProfileLoad.eq_def]
  repeat' split
  all_goals refine ⟨_, rfl, ?_⟩
  all_goals (try simp only [↓State.run_core, ↓State.loadChunk_core, ↓State.reject_core, ↓State.finish_core,
      ↓State.profileInForce_core, ↓foldl_core, ↓ite_core, ↓dite_core, ↓reduceIte, ite_self, implies_true,
      ↓State.core_keep])
  all_goals repeat' ((first | (rw [State.loadChunk_core]; intro t rep s) | (rw [State.run_core]; intro s) | split | (rw [foldl_core]; intro s x)) <;> try simp only [↓State.run_core,
      ↓State.loadChunk_core, ↓State.reject_core, ↓State.finish_core, ↓State.profileInForce_core, ↓foldl_core,
      ↓ite_core, ↓dite_core, ↓reduceIte, ite_self, implies_true, ↓State.core_keep])

theorem execTimeAdjust_core (rq : Rq) (dom : Nat) (inc : Nat) (adj : Int) (s : State) :
    ∃ t, (execTimeAdjust rq dom inc adj s) = .next t ∧ t.core = s.core := by
  exact ⟨_, rfl, by simp only [↓State.run_core, ↓State.withParams_core, ↓State.finish_core, ↓State.setInc_core,
    ↓State.stepDom_core, ↓State.sourceHeard_core, ↓ite_core, ite_self, implies_true]⟩

theorem execFrameOpen_core (port : Nat) (s : State) : ∃ t, (execFrameOpen port s) = .next t ∧ t.core = s.core := by
  exact ⟨_, rfl, by simp only [↓State.openFrame_core, ↓State.setCam_core, ↓ite_core, ite_self]⟩

@[simp] theorem State.setStuck_core (s : State) (arb : Nat) : (State.setStuck s arb).core = s.core := by
  simp only [State.setStuck.eq_def, ↓State.setFld_core, ↓ite_core, ite_self]

theorem execPaceModeWrite_core (mode : Nat) (s : State) :
    ∃ t, (execPaceModeWrite mode s) = .next t ∧ t.core = s.core := by
  exact ⟨_, rfl, by simp only [↓State.writeField_core]⟩

@[simp] theorem State.readCopy_core (s : State) (b : Nat) (second : Bool) (k : Nat) (f : Nat) :
    (State.readCopy s b second k f).core = s.core := by
  simp only [State.readCopy.eq_def, ↓State.readMem_core]

theorem execLineTransmit_core (board : Nat) (s : State) :
    ∃ t, (execLineTransmit board s) = .next t ∧ t.core = s.core := by
  rw [execLineTransmit.eq_def]
  repeat' split
  all_goals refine ⟨_, rfl, ?_⟩
  all_goals (try simp only [↓State.readCopy_core, ↓State.setCredits_core, ↓State.setBoard_core,
      ↓State.sendLine_core, ↓foldl_core, ↓ite_core, ↓dite_core, ↓reduceIte, ite_self, implies_true,
      ↓State.core_keep])
  all_goals repeat' ((first | split | (rw [foldl_core]; intro s x)) <;> try simp only [↓State.readCopy_core,
      ↓State.setCredits_core, ↓State.setBoard_core, ↓State.sendLine_core, ↓foldl_core, ↓ite_core, ↓dite_core,
      ↓reduceIte, ite_self, implies_true, ↓State.core_keep])

theorem execEventFire_core (rq : Rq) (sw : Nat) (s : State) :
    ∃ t, (execEventFire rq sw s) = .next t ∧ t.core = s.core := by
  exact ⟨_, rfl, by simp only [↓State.run_core, ↓State.withParams_core, ↓State.finish_core, ↓State.raise_core,
    implies_true]⟩

theorem execKalPdatWrite_core (pipe : Nat) (value : Word) (s : State) :
    ∃ t, (execKalPdatWrite pipe value s) = .next t ∧ t.core = s.core := by
  exact ⟨_, rfl, by simp only [↓State.orLater_core, ↓State.kalPdat_core, ↓ite_core, ite_self, implies_true]⟩

theorem execCapEnableWrite_core (port : Nat) (enable : Bool) (s : State) :
    ∃ t, (execCapEnableWrite port enable s) = .next t ∧ t.core = s.core := by
  exact ⟨_, rfl, by simp only [↓State.writeField_core, ↓ite_core, ite_self]⟩

@[simp] theorem State.blanked_core (s : State) (b : Nat) (k : Nat) (cause : Nat) (line : Nat) (slice : Nat)
    (engA : Nat) (engB : Nat) :
    (State.blanked s b k cause line slice engA engB).core = s.core := by
  simp only [State.blanked.eq_def, ↓State.setFld_core, ↓State.raiseIf_core]

theorem execCameraSet_core (rq : Rq) (port : Nat) (ident : Nat) (expo : Nat) (gain : Nat) (s : State) :
    ∃ t, (execCameraSet rq port ident expo gain s) = .next t ∧ t.core = s.core := by
  exact ⟨_, rfl, by simp only [↓State.run_core, ↓State.withParams_core, ↓State.finish_core, ↓State.occupy_core,
    ↓State.pend_core, ↓State.setFlag_core, ↓State.setCam_core, ↓ite_core, ite_self, implies_true]⟩

theorem execArbiterGrant_core (net : Bool) (arb : Nat) (reqs : List ArbReq) (s : State) :
    ∃ t, (execArbiterGrant net arb reqs s) = .next t ∧ t.core = s.core := by
  exact ⟨_, rfl, by simp only [↓State.arbBreak_core]⟩

theorem execPerstRelease_core (speed : Nat) (width : Nat) (s : State) :
    ∃ t, (execPerstRelease speed width s) = .next t ∧ t.core = s.core := by
  exact ⟨_, rfl, by simp only [↓State.setFld_core]⟩

theorem execPcieCompletionError_core (kind : Nat) (addr : Nat) (batch : List Nat) (s : State) :
    ∃ t, (execPcieCompletionError kind addr batch s) = .next t ∧ t.core = s.core := by
  exact ⟨_, rfl, by simp only [↓State.busError_core]⟩

theorem execTjOver_core (tj : Int) (s : State) : ∃ t, (execTjOver tj s) = .next t ∧ t.core = s.core := by
  exact ⟨_, rfl, by simp only [↓State.setFldI_core, ↓State.setFld_core, ↓State.breach_core, ↓State.raiseIf_core,
    ↓ite_core, ite_self]⟩

theorem execKpsTrailer_core (ch : Nat) (bytes : List Byte) (s : State) :
    ∃ t, (execKpsTrailer ch bytes s) = .next t ∧ t.core = s.core := by
  exact ⟨_, rfl, by simp only [↓State.failPage_core, ↓State.judgePage_core, ↓State.setPage_core, ↓ite_core,
    ite_self]⟩

theorem execDoseSwapRequest_core (bar : Nat) (s : State) :
    ∃ t, (execDoseSwapRequest bar s) = .next t ∧ t.core = s.core := by
  exact ⟨_, rfl, by simp only [↓State.swapRequest_core, ↓ite_core, ite_self]⟩

@[simp] theorem State.issueReads_core (s : State) (ch : Nat) : (State.issueReads s ch).core = s.core := by
  rw [State.issueReads.eq_def] <;> (try simp only [↓State.setDmaCh_core, ↓State.emit_core, ↓foldl_core, ↓ite_core,
      ↓dite_core, ↓reduceIte, ite_self, implies_true,
      ↓State.core_keep]) <;> repeat' ((first | split | (rw [foldl_core]; intro s x)) <;> try simp only [↓State.setDmaCh_core,
      ↓State.emit_core, ↓foldl_core, ↓ite_core, ↓dite_core, ↓reduceIte, ite_self, implies_true, ↓State.core_keep])

theorem execEqAdapt_core (lane : Nat) (foms : List Nat) (s : State) :
    ∃ t, (execEqAdapt lane foms s) = .next t ∧ t.core = s.core := by
  exact ⟨_, rfl, by simp only [↓State.setLaneGrp_core, ↓State.setLane_core, ↓State.setFld_core, ↓State.showFom_core,
    ↓ite_core, ite_self]⟩

theorem execFwFallbackEnd_core (s : State) : ∃ t, (execFwFallbackEnd s) = .next t ∧ t.core = s.core := by
  exact ⟨_, rfl, by simp only [↓State.setFld_core, ↓ite_core, ite_self]⟩

@[simp] theorem State.lockGive_core (s : State) (k : Nat) (input : Nat) (engine : Bool) (client : Nat) :
    (State.lockGive s k input engine client).core = s.core := by
  simp only [State.lockGive.eq_def, ↓State.lockOwn_core, ↓State.setLock_core]

theorem execEngineLockRequest_core (engine : Nat) (lock : Nat) (cls : Traffic) (s : State) :
    ∃ t, (execEngineLockRequest engine lock cls s) = .next t ∧ t.core = s.core := by
  rw [execEngineLockRequest.eq_def]
  refine ⟨_, rfl, ?_⟩
  repeat' split
  all_goals simp only [↓State.tellEngine_core, ↓State.lockGive_core, ↓State.setLock_core]

theorem execToken_core (west : Bool) (bytes : List Byte) (s : State) :
    ∃ t, (execToken west bytes s) = .next t ∧ t.core = s.core := by
  exact ⟨_, rfl, by simp only [↓State.chainTake_core, ↓State.announce_core, ↓State.log1_core,
    ↓State.chainStatusSet_core, ↓State.learn_core, ↓State.chainRelay_core, ↓ite_core, ite_self, implies_true,
    ↓State.core_keep]⟩

theorem execPrintPause_core (s : State) : ∃ t, (execPrintPause s) = .next t ∧ t.core = s.core := by
  exact ⟨_, rfl, by simp only [↓State.endTask_core, ↓State.pause_core, ↓State.refuseTask_core, ↓ite_core, ite_self]⟩

theorem execPinEdge_core (pin : Nat) (level : Bool) (ns : Nat) (s : State) :
    ∃ t, (execPinEdge pin level ns s) = .next t ∧ t.core = s.core := by
  exact ⟨_, rfl, by simp only [↓State.setFld_core, ↓State.bump_core, ↓State.breachOnce_core, ↓State.raise_core,
    ↓ite_core, ite_self, ↓State.core_keep]⟩

@[simp] theorem State.mgmtReads_core (s : State) (x1 : Nat) : (State.mgmtReads s x1).core = s.core := by
  induction x1 generalizing s with
  | zero => rfl
  | succ n ih =>
    rw [State.mgmtReads]
    split <;> rw [ih, State.core_keep, State.emit_core]

theorem execHelloRepeat_core (board : Nat) (s : State) : ∃ t, (execHelloRepeat board s) = .next t ∧ t.core = s.core := by
  exact ⟨_, rfl, by simp only [↓State.sendHello_core, ↓State.setFld_core, ↓ite_core, ite_self]⟩

@[simp] theorem State.pairFaults_core (s : State) : (State.pairFaults s).core = s.core := by
  simp only [State.pairFaults.eq_def, ↓State.setFld_core, ↓State.core_keep]

theorem execKeySet_core (rq : Rq) (slot : Nat) (key : List Byte) (s : State) :
    ∃ t, (execKeySet rq slot key s) = .next t ∧ t.core = s.core := by
  exact ⟨_, rfl, by simp only [↓State.run_core, ↓State.finish_core, ↓State.withParams_core, ↓ite_core, ite_self,
    implies_true, ↓State.core_keep]⟩

theorem execReverseBlock_core (s : State) : ∃ t, (execReverseBlock s) = .next t ∧ t.core = s.core := by
  rw [execReverseBlock.eq_def]
  exact ⟨_, rfl, rfl⟩

theorem execTjOverEnd_core (tj : Int) (s : State) : ∃ t, (execTjOverEnd tj s) = .next t ∧ t.core = s.core := by
  exact ⟨_, rfl, by simp only [↓State.mendC5_core, ↓State.setFld_core, ↓State.setFldI_core, ↓ite_core, ite_self]⟩

theorem execDcmpEnableWrite_core (unit : Nat) (enable : Bool) (s : State) :
    ∃ t, (execDcmpEnableWrite unit enable s) = .next t ∧ t.core = s.core := by
  exact ⟨_, rfl, by simp only [↓State.writeField_core, ↓ite_core, ite_self]⟩

@[simp] theorem State.setTemp_core (s : State) (q : Nat) (t : Int) : (State.setTemp s q t).core = s.core := by
  simp only [State.setTemp.eq_def, ↓State.setFldI_core, ↓State.setFld_core]

theorem execStackEmergencyEnd_core (stack : Nat) (temp : Int) (s : State) :
    ∃ t, (execStackEmergencyEnd stack temp s) = .next t ∧ t.core = s.core := by
  exact ⟨_, rfl, by simp only [↓State.setTemp_core, ↓State.setFld_core, ↓State.mend_core, ↓ite_core, ite_self]⟩

theorem execYoyoInterval_core (s : State) : ∃ t, (execYoyoInterval s) = .next t ∧ t.core = s.core := by
  exact ⟨_, rfl, by simp only [↓State.setBar_core, ↓State.yoyoRun_core, ↓foldl_core, ↓ite_core, ite_self,
    implies_true]⟩

theorem execReplyRingStallTimeout_core (ring : Nat) (s : State) :
    ∃ t, (execReplyRingStallTimeout ring s) = .next t ∧ t.core = s.core := by
  exact ⟨_, rfl, by simp only [↓State.setFld_core, ↓State.breach_core, ↓State.setRing_core, ↓ite_core, ite_self]⟩

theorem execSessionOpen_core (ip : Nat) (port : Nat) (rq : Rq) (payload : List Byte) (s : State) :
    ∃ t, (execSessionOpen ip port rq payload s) = .next t ∧ t.core = s.core := by
  rw [execSessionOpen.eq_def]
  refine ⟨_, rfl, ?_⟩
  repeat' split
  all_goals simp only [↓State.openReply_core, ↓State.openBad_core, ↓State.openPhase0_core, ↓State.openPhase1_core,
    ↓ite_core, ite_self, ↓State.core_keep]

theorem execKeyLockoutEnd_core (slot : Nat) (s : State) :
    ∃ t, (execKeyLockoutEnd slot s) = .next t ∧ t.core = s.core := by
  rw [execKeyLockoutEnd.eq_def]
  exact ⟨_, rfl, rfl⟩

theorem execFollowWrite_core (axis : Nat) (value : Bool) (s : State) :
    ∃ t, (execFollowWrite axis value s) = .next t ∧ t.core = s.core := by
  exact ⟨_, rfl, by simp only [↓State.writeField_core, ↓ite_core, ite_self]⟩

theorem execBankRefresh_core (ch : Nat) (bank : Nat) (s : State) :
    ∃ t, (execBankRefresh ch bank s) = .next t ∧ t.core = s.core := by
  exact ⟨_, rfl, by simp only [↓State.interrupt_core, ↓State.closeRows_core, ↓ite_core, ite_self]⟩

theorem execTime_core (west : Bool) (bytes : List Byte) (s : State) :
    ∃ t, (execTime west bytes s) = .next t ∧ t.core = s.core := by
  exact ⟨_, rfl, by simp only [↓State.chainTake_core, ↓State.ringTime_core, ↓State.chainRelay_core,
    ↓State.setLink_core, ↓State.chainSendOn_core, ↓ite_core, ite_self, implies_true, ↓State.core_keep]⟩

theorem execCalRun_core (rq : Rq) (kind : Nat) (inst : Nat) (s : State) :
    ∃ t, (execCalRun rq kind inst s) = .next t ∧ t.core = s.core := by
  exact ⟨_, rfl, by simp only [↓State.run_core, ↓State.withParams_core, ↓State.startCal_core, ↓State.finish_core,
    ↓State.calRate_core, ↓ite_core, ite_self, implies_true]⟩

theorem execSleep_core (rq : Rq) (s : State) : ∃ t, (execSleep rq s) = .next t ∧ t.core = s.core := by
  exact ⟨_, rfl, by simp only [↓State.run_core, ↓State.withParams_core, ↓State.finish_core, ↓State.setFld_core,
    ↓State.occupy_core, ↓State.pend_core, ↓ite_core, ite_self, implies_true, ↓State.core_keep]⟩

theorem execVcoreLow_core (s : State) : ∃ t, (execVcoreLow s) = .next t ∧ t.core = s.core := by
  exact ⟨_, rfl, by simp only [↓State.setFld_core, ↓State.breach_core, ↓State.core_keep]⟩

theorem execEthLinkChange_core (port : Nat) (link : Bool) (anDone : Bool) (fecLock : Bool) (s : State) :
    ∃ t, (execEthLinkChange port link anDone fecLock s) = .next t ∧ t.core = s.core := by
  exact ⟨_, rfl, by simp only [↓State.setFlag_core, ↓ite_core, ite_self]⟩

theorem execSpareStatus_core (rq : Rq) (s : State) : ∃ t, (execSpareStatus rq s) = .next t ∧ t.core = s.core := by
  exact ⟨_, rfl, by simp only [↓State.run_core, ↓State.withParams_core, ↓State.finish_core, implies_true]⟩

theorem execColourModelLoad_core (rq : Rq) (chunk : Chunk) (s : State) :
    ∃ t, (execColourModelLoad rq chunk s) = .next t ∧ t.core = s.core := by
  exact ⟨_, rfl, by simp only [↓State.run_core, ↓State.loadTab_core, implies_true]⟩

theorem execMgmtPortAccess_core (select : Option Nat) (reads : Nat) (s : State) :
    ∃ t, (execMgmtPortAccess select reads s) = .next t ∧ t.core = s.core := by
  rw [execMgmtPortAccess.eq_def]
  refine ⟨_, rfl, ?_⟩
  repeat' split
  all_goals simp only [↓State.mgmtReads_core, ↓State.core_keep]

theorem execGateTest_core (rq : Rq) (gate : Nat) (board : Nat) (first : Nat) (count : Nat) (s : State) :
    ∃ t, (execGateTest rq gate board first count s) = .next t ∧ t.core = s.core := by
  exact ⟨_, rfl, by simp only [↓State.run_core, ↓State.withParams_core, ↓State.finish_core, ↓State.occupy_core,
    ↓State.pend_core, ↓State.setFld_core, ↓State.gateEnd_core, ↓ite_core, ite_self, implies_true, ↓State.core_keep]⟩

theorem execChkFeed_core (unit : Nat) (value : Word) (s : State) :
    ∃ t, (execChkFeed unit value s) = .next t ∧ t.core = s.core := by
  exact ⟨_, rfl, by simp only [↓State.orLater_core, ↓State.setChk_core, implies_true]⟩

theorem execFaultLogRead_core (rq : Rq) (first : Nat) (s : State) :
    ∃ t, (execFaultLogRead rq first s) = .next t ∧ t.core = s.core := by
  exact ⟨_, rfl, by simp only [↓State.run_core, ↓State.withParams_core, ↓State.finish_core, implies_true]⟩

theorem execArbiterStuck_core (arb : Nat) (input : Nat) (cmd : Option Rq) (s : State) :
    ∃ t, (execArbiterStuck arb input cmd s) = .next t ∧ t.core = s.core := by
  rw [execArbiterStuck.eq_def]
  repeat' split
  all_goals refine ⟨_, rfl, ?_⟩
  all_goals (try simp only [↓State.log1_core, ↓State.setStuck_core, ↓State.vacate_core, ↓State.finishSlot_core,
      ↓foldl_core, ↓ite_core, ↓dite_core, ↓reduceIte, ite_self, implies_true, ↓State.core_keep])
  all_goals repeat' ((first | split | (rw [foldl_core]; intro s x)) <;> try simp only [↓State.log1_core,
      ↓State.setStuck_core, ↓State.vacate_core, ↓State.finishSlot_core, ↓foldl_core, ↓ite_core, ↓dite_core,
      ↓reduceIte, ite_self, implies_true, ↓State.core_keep])

theorem execMonitorWindowEnd_core (unit : Nat) (s : State) :
    ∃ t, (execMonitorWindowEnd unit s) = .next t ∧ t.core = s.core := by
  exact ⟨_, rfl, by simp only [↓State.monEnd_core, ↓ite_core, ite_self]⟩

theorem execTakeoverSwitch_core (group : Nat) (comparePass : Bool) (s : State) :
    ∃ t, (execTakeoverSwitch group comparePass s) = .next t ∧ t.core = s.core := by
  rw [execTakeoverSwitch.eq_def]
  repeat' split
  all_goals refine ⟨_, rfl, ?_⟩
  all_goals (try simp only [↓State.takeoverFail_core, ↓State.setFld_core, ↓State.setLane_core,
      ↓State.setLaneGrp_core, ↓State.bump_core, ↓State.raiseIf_core, ↓foldl_core, ↓ite_core, ↓dite_core, ↓reduceIte,
      ite_self, implies_true, ↓State.core_keep])
  all_goals repeat' ((first | split | (rw [foldl_core]; intro s x)) <;> try simp only [↓State.takeoverFail_core,
      ↓State.setFld_core, ↓State.setLane_core, ↓State.setLaneGrp_core, ↓State.bump_core, ↓State.raiseIf_core,
      ↓foldl_core, ↓ite_core, ↓dite_core, ↓reduceIte, ite_self, implies_true, ↓State.core_keep])

theorem execLoLatchRead_core (path : Path) (addr : Nat) (s : State) :
    ∃ t, (execLoLatchRead path addr s) = .next t ∧ t.core = s.core := by
  exact ⟨_, rfl, by simp only [↓State.readOn_core]⟩

@[simp] theorem State.laneSwitch_core (s : State) (l : Nat) (code : Nat) : (State.laneSwitch s l code).core = s.core := by
  simp only [State.laneSwitch.eq_def, ↓State.idleSend_core, ↓State.setFld_core, ↓State.setLane_core,
    ↓State.laneLeft_core, ↓State.laneCame_core, ↓ite_core, ite_self]

theorem execLinkRateAck_core (lane : Nat) (blk : List Byte) (s : State) :
    ∃ t, (execLinkRateAck lane blk s) = .next t ∧ t.core = s.core := by
  exact ⟨_, rfl, by simp only [↓State.onLink_core, ↓State.laneSwitch_core, ↓ite_core, ite_self, implies_true]⟩

theorem execCredit_core (board : Nat) (bytes : List Byte) (s : State) :
    ∃ t, (execCredit board bytes s) = .next t ∧ t.core = s.core := by
  rw [execCredit.eq_def]
  refine ⟨_, rfl, ?_⟩
  repeat' split
  all_goals simp only [↓State.setCredits_core]

theorem execSensorXfer_core (rq : Rq) (port : Nat) (bytesOut : List Byte) (s : State) :
    ∃ t, (execSensorXfer rq port bytesOut s) = .next t ∧ t.core = s.core := by
  exact ⟨_, rfl, by simp only [↓State.run_core, ↓State.withParams_core, ↓State.finish_core, ↓State.occupy_core,
    ↓State.pend_core, ↓State.emit_core, ↓State.setCam_core, ↓ite_core, ite_self, implies_true]⟩

theorem execFwHandover_core (s : State) : ∃ t, (execFwHandover s) = .next t ∧ t.core = s.core := by
  rw [execFwHandover.eq_def]
  refine ⟨_, rfl, ?_⟩
  repeat' split
  all_goals simp only [↓State.setOldKernels_core, ↓State.swapPairs_core, ↓State.runSlot_core, ↓State.setFld_core,
    ↓State.raiseIf_core, ↓State.vacate_core, ↓State.finishSlot_core, ↓State.core_keep]

theorem execGetState_core (rq : Rq) (s : State) : ∃ t, (execGetState rq s) = .next t ∧ t.core = s.core := by
  exact ⟨_, rfl, by simp only [↓State.run_core, ↓State.finish_core, implies_true]⟩

theorem execDelayResp_core (west : Bool) (bytes : List Byte) (s : State) :
    ∃ t, (execDelayResp west bytes s) = .next t ∧ t.core = s.core := by
  rw [execDelayResp.eq_def]
  repeat' split
  all_goals refine ⟨_, rfl, ?_⟩
  all_goals (try simp only [↓State.chainTake_core, ↓State.setLink_core, ↓foldl_core, ↓ite_core, ↓dite_core,
      ↓reduceIte, ite_self, implies_true, ↓State.core_keep])
  all_goals repeat' ((first | (rw [State.chainTake_core]; intro p s) | split | (rw [foldl_core]; intro s x)) <;> try simp only [↓State.chainTake_core,
      ↓State.setLink_core, ↓foldl_core, ↓ite_core, ↓dite_core, ↓reduceIte, ite_self, implies_true,
      ↓State.core_keep])

theorem execRsmpApply_core (unit : Nat) (s : State) : ∃ t, (execRsmpApply unit s) = .next t ∧ t.core = s.core := by
  exact ⟨_, rfl, by simp only [↓State.orLater_core, ↓State.rsmpApply_core, ↓ite_core, ite_self, implies_true]⟩

theorem execLinkReady_core (lane : Nat) (blk : List Byte) (s : State) :
    ∃ t, (execLinkReady lane blk s) = .next t ∧ t.core = s.core := by
  exact ⟨_, rfl, by simp only [↓State.onLink_core, ↓State.setLane_core, ↓State.setFld_core, ↓State.laneCame_core,
    ↓State.laneAsk_core, ↓ite_core, ite_self, implies_true]⟩

theorem execLockWaitTimeout_core (lock : Nat) (sess : Nat) (s : State) :
    ∃ t, (execLockWaitTimeout lock sess s) = .next t ∧ t.core = s.core := by
  rw [execLockWaitTimeout.eq_def]
  refine ⟨_, rfl, ?_⟩
  repeat' split
  all_goals simp only [↓State.finishSlot_core, ↓State.lockKeep_core]

theorem execBar0Write_core (addr : Nat) (value : Word) (be : Nat) (s : State) :
    ∃ t, (execBar0Write addr value be s) = .next t ∧ t.core = s.core := by
  rw [execBar0Write.eq_def]
  refine ⟨_, rfl, ?_⟩
  repeat' split
  all_goals simp only [↓State.cmdErr_core, ↓State.putLater_core, ↓State.putWord_core]

theorem execSsiRead_core (unit : Nat) (word : SsiWord) (s : State) :
    ∃ t, (execSsiRead unit word s) = .next t ∧ t.core = s.core := by
  exact ⟨_, rfl, by simp only [↓State.endTask_core, ↓State.ssiWord_core, ↓ite_core, ite_self]⟩

theorem execFireTos_core (bar : Nat) (s : State) : ∃ t, (execFireTos bar s) = .next t ∧ t.core = s.core := by
  exact ⟨_, rfl, by simp only [↓State.refuseTask_core, ↓State.endTask_core, ↓State.fireEvent_core,
    ↓State.setFld_core, ↓State.setBar_core, ↓ite_core, ite_self]⟩

theorem execTakeoverStart_core (group : Nat) (s : State) :
    ∃ t, (execTakeoverStart group s) = .next t ∧ t.core = s.core := by
  rw [execTakeoverStart.eq_def]
  refine ⟨_, rfl, ?_⟩
  repeat' split
  all_goals simp only [↓State.log1_core, ↓State.setLaneGrp_core, ↓State.setFld_core]

theorem execSensorTransferEnd_core (port : Nat) (bytesIn : List Byte) (s : State) :
    ∃ t, (execSensorTransferEnd port bytesIn s) = .next t ∧ t.core = s.core := by
  rw [execSensorTransferEnd.eq_def]
  repeat' split
  all_goals refine ⟨_, rfl, ?_⟩
  all_goals (try simp only [↓State.vacate_core, ↓State.finishSlot_core, ↓State.setCam_core, ↓State.setFld_core,
      ↓foldl_core, ↓ite_core, ↓dite_core, ↓reduceIte, ite_self, implies_true, ↓State.core_keep])
  all_goals repeat' ((first | split | (rw [foldl_core]; intro s x)) <;> try simp only [↓State.vacate_core,
      ↓State.finishSlot_core, ↓State.setCam_core, ↓State.setFld_core, ↓foldl_core, ↓ite_core, ↓dite_core,
      ↓reduceIte, ite_self, implies_true, ↓State.core_keep])

theorem execMonitorSample_core (unit : Nat) (value : Int) (s : State) :
    ∃ t, (execMonitorSample unit value s) = .next t ∧ t.core = s.core := by
  exact ⟨_, rfl, by simp only [↓State.setMon_core, ↓State.setFld_core, ↓State.monEnd_core, ↓ite_core, ite_self]⟩

theorem execQuadStep_core (enc : Nat) (a : Bool) (b : Bool) (samples : Nat) (s : State) :
    ∃ t, (execQuadStep enc a b samples s) = .next t ∧ t.core = s.core := by
  exact ⟨_, rfl, by simp only [↓State.encSample_core, ↓ite_core, ite_self]⟩

theorem execConfig_core (west : Bool) (bytes : List Byte) (s : State) :
    ∃ t, (execConfig west bytes s) = .next t ∧ t.core = s.core := by
  exact ⟨_, rfl, by simp only [↓State.chainTake_core, ↓State.chainSpread_core, ↓State.raiseRate_core, ↓ite_core,
    ite_self, implies_true, ↓State.core_keep]⟩

theorem execServiceExit_core (rq : Rq) (s : State) : ∃ t, (execServiceExit rq s) = .next t ∧ t.core = s.core := by
  exact ⟨_, rfl, by simp only [↓State.run_core, ↓State.withParams_core, ↓State.finish_core, ↓State.back_core,
    implies_true]⟩

theorem execMonSnapshotEvent_core (s : State) : ∃ t, (execMonSnapshotEvent s) = .next t ∧ t.core = s.core := by
  exact ⟨_, rfl, by simp only [↓State.endTask_core, ↓State.monSnap_core, ↓foldl_core, implies_true]⟩

theorem execFaultLogCopy_core (s : State) : ∃ t, (execFaultLogCopy s) = .next t ∧ t.core = s.core := by
  exact ⟨_, rfl, by simp only [↓State.copyLog_core]⟩

theorem execSwitchAccept_core (sw : Nat) (level : Bool) (us : Nat) (s : State) :
    ∃ t, (execSwitchAccept sw level us s) = .next t ∧ t.core = s.core := by
  exact ⟨_, rfl, by simp only [↓State.switchTo_core, ↓foldl_core, ↓ite_core, ite_self, implies_true,
    ↓State.core_keep]⟩

theorem execReadClear_core (path : Path) (addr : Nat) (s : State) :
    ∃ t, (execReadClear path addr s) = .next t ∧ t.core = s.core := by
  exact ⟨_, rfl, by simp only [↓State.readOn_core]⟩

theorem execSegmentComplete_core (unit : Nat) (s : State) :
    ∃ t, (execSegmentComplete unit s) = .next t ∧ t.core = s.core := by
  rw [execSegmentComplete.eq_def]
  refine ⟨_, rfl, ?_⟩
  repeat' split
  all_goals simp only [↓State.setFld_core, ↓State.judgePage_core, ↓State.setPage_core, ↓ite_core, ite_self]

theorem execChainRescan_core (rq : Rq) (s : State) : ∃ t, (execChainRescan rq s) = .next t ∧ t.core = s.core := by
  exact ⟨_, rfl, by simp only [↓State.run_core, ↓State.withParams_core, ↓State.announce_core, ↓State.discover_core,
    ↓State.finish_core, ↓ite_core, ite_self, implies_true]⟩

theorem execRateReqTimeout_core (lane : Nat) (s : State) :
    ∃ t, (execRateReqTimeout lane s) = .next t ∧ t.core = s.core := by
  rw [execRateReqTimeout.eq_def]
  refine ⟨_, rfl, ?_⟩
  repeat' split
  all_goals simp only [↓State.setLane_core, ↓State.setFld_core]

theorem execCmd_core (west : Bool) (bytes : List Byte) (s : State) :
    ∃ t, (execCmd west bytes s) = .next t ∧ t.core = s.core := by
  exact ⟨_, rfl, by simp only [↓State.chainTake_core, ↓State.takeForwarded_core, ↓State.chainRelay_core, ↓ite_core,
    ite_self, implies_true]⟩

theorem execStrobeWatchdog_core (board : Nat) (s : State) :
    ∃ t, (execStrobeWatchdog board s) = .next t ∧ t.core = s.core := by
  exact ⟨_, rfl, by simp only [↓State.emit_core, ↓State.setBoard_core, ↓State.latchBoard_core,
    ↓State.fireEvent_core, ↓State.setFld_core, ↓ite_core, ite_self]⟩

theorem execLaneTargetWrite_core (lane : Nat) (target : Nat) (s : State) :
    ∃ t, (execLaneTargetWrite lane target s) = .next t ∧ t.core = s.core := by
  exact ⟨_, rfl, by simp only [↓State.orLater_core, ↓State.laneTarget_core, ↓ite_core, ite_self, implies_true]⟩

theorem execConfigCheck_core (rq : Rq) (chunk : Chunk) (assign : Option (List Half)) (s : State) :
    ∃ t, (execConfigCheck rq chunk assign s) = .next t ∧ t.core = s.core := by
  rw [execConfigCheck.eq_def]
  repeat' split
  all_goals refine ⟨_, rfl, ?_⟩
  all_goals (try simp only [↓State.run_core, ↓State.loadChunk_core, ↓State.applyImage_core, ↓State.finish_core,
      ↓foldl_core, ↓ite_core, ↓dite_core, ↓reduceIte, ite_self, implies_true, ↓State.core_keep])
  all_goals repeat' ((first | (rw [State.loadChunk_core]; intro t rep s) | (rw [State.run_core]; intro s) | split | (rw [foldl_core]; intro s x)) <;> try simp only [↓State.run_core,
      ↓State.loadChunk_core, ↓State.applyImage_core, ↓State.finish_core, ↓foldl_core, ↓ite_core, ↓dite_core,
      ↓reduceIte, ite_self, implies_true, ↓State.core_keep])

theorem execLockAcquire_core (rq : Rq) (lock : Nat) (waitMs : Nat) (s : State) :
    ∃ t, (execLockAcquire rq lock waitMs s) = .next t ∧ t.core = s.core := by
  rw [execLockAcquire.eq_def]
  repeat' split
  all_goals refine ⟨_, rfl, ?_⟩
  all_goals (try simp only [↓State.run_core, ↓State.withParams_core, ↓State.finish_core, ↓State.lockGive_core,
      ↓State.setLock_core, ↓State.pend_core, ↓foldl_core, ↓ite_core, ↓dite_core, ↓reduceIte, ite_self, implies_true,
      ↓State.core_keep])
  all_goals repeat' ((first | (rw [State.withParams_core]; intro s) | (rw [State.run_core]; intro s) | split | (rw [foldl_core]; intro s x)) <;> try simp only [↓State.run_core,
      ↓State.withParams_core, ↓State.finish_core, ↓State.lockGive_core, ↓State.setLock_core, ↓State.pend_core,
      ↓foldl_core, ↓ite_core, ↓dite_core, ↓reduceIte, ite_self, implies_true, ↓State.core_keep])

theorem execStrobeFall_core (board : Nat) (s : State) : ∃ t, (execStrobeFall board s) = .next t ∧ t.core = s.core := by
  exact ⟨_, rfl, by simp only [↓State.emit_core, ↓State.setBoard_core, ↓ite_core, ite_self]⟩

theorem execDarkCalDone_core (port : Nat) (s : State) : ∃ t, (execDarkCalDone port s) = .next t ∧ t.core = s.core := by
  rw [execDarkCalDone.eq_def]
  refine ⟨_, rfl, ?_⟩
  repeat' split
  all_goals simp only [↓State.setCam_core, ↓State.finishSlot_core, ↓State.calWrite_core, ↓ite_core, ite_self]

theorem execKernelRotationStep_core (s : State) : ∃ t, (execKernelRotationStep s) = .next t ∧ t.core = s.core := by
  exact ⟨_, rfl, by simp only [↓State.nextRotation_core, ↓State.locksOfBreak_core, ↓State.rotationDone_core,
    ↓State.tookOver_core, ↓State.setCluster_core, ↓ite_core, ite_self]⟩

theorem execStackEmergency_core (stack : Nat) (temp : Int) (s : State) :
    ∃ t, (execStackEmergency stack temp s) = .next t ∧ t.core = s.core := by
  exact ⟨_, rfl, by simp only [↓State.setTemp_core, ↓State.breach_core, ↓State.setFld_core, ↓ite_core, ite_self]⟩

theorem execLinkRateReq_core (lane : Nat) (blk : List Byte) (s : State) :
    ∃ t, (execLinkRateReq lane blk s) = .next t ∧ t.core = s.core := by
  exact ⟨_, rfl, by simp only [↓State.onLink_core, ↓State.setFld_core, ↓State.laneSwitch_core, ↓State.linkSend_core,
    ↓ite_core, ite_self, implies_true]⟩

theorem execAnnounceReceiptTimeout_core (port : Nat) (s : State) :
    ∃ t, (execAnnounceReceiptTimeout port s) = .next t ∧ t.core = s.core := by
  exact ⟨_, rfl, by simp only [↓State.portShown_core, ↓State.setClock_core, ↓foldl_core, ↓ite_core, ite_self,
    implies_true]⟩

theorem execConsumerIndexPoll_core (ring : Nat) (result : IndexRead) (s : State) :
    ∃ t, (execConsumerIndexPoll ring result s) = .next t ∧ t.core = s.core := by
  rw [execConsumerIndexPoll.eq_def]
  refine ⟨_, rfl, ?_⟩
  repeat' split
  all_goals simp only [↓State.log1_core, ↓State.pcieReport_core, ↓State.mendC1_core, ↓State.setRecRing_core,
    ↓ite_core, ite_self]

theorem execAxisHoldCurrent_core (axis : Nat) (s : State) :
    ∃ t, (execAxisHoldCurrent axis s) = .next t ∧ t.core = s.core := by
  exact ⟨_, rfl, by simp only [↓State.setAxis_core, ↓ite_core, ite_self]⟩

theorem execDmaDescriptorFetch_core (ch : Nat) (bytes : List Byte) (s : State) :
    ∃ t, (execDmaDescriptorFetch ch bytes s) = .next t ∧ t.core = s.core := by
  exact ⟨_, rfl, by simp only [↓State.endChain_core, ↓State.issueReads_core, ↓State.setDmaCh_core, ↓ite_core,
    ite_self]⟩

theorem execRecordRingFullTimeout_core (ring : Nat) (s : State) :
    ∃ t, (execRecordRingFullTimeout ring s) = .next t ∧ t.core = s.core := by
  exact ⟨_, rfl, by simp only [↓State.breach_core, ↓State.setRecRing_core, ↓ite_core, ite_self]⟩

theorem execInterruptCoalesce_core (ring : Nat) (s : State) :
    ∃ t, (execInterruptCoalesce ring s) = .next t ∧ t.core = s.core := by
  exact ⟨_, rfl, by simp only [↓State.msixSignal_core, ↓State.setRecRing_core, ↓ite_core, ite_self]⟩

theorem execImpedanceCal_core (ch : Nat) (s : State) : ∃ t, (execImpedanceCal ch s) = .next t ∧ t.core = s.core := by
  exact ⟨_, rfl, by simp only [↓State.calibrate_core]⟩

theorem execAxisEnableWrite_core (axis : Nat) (value : Bool) (s : State) :
    ∃ t, (execAxisEnableWrite axis value s) = .next t ∧ t.core = s.core := by
  exact ⟨_, rfl, by simp only [↓State.writeField_core, ↓ite_core, ite_self]⟩

theorem execSupervisorTakeover_core (cause : Nat) (standby : Bool) (s : State) :
    ∃ t, (execSupervisorTakeover cause standby s) = .next t ∧ t.core = s.core := by
  exact ⟨_, rfl, by simp only [↓State.countPairFault_core, ↓State.noPair_core, ↓State.testPair_core,
    ↓State.dropSwitch_core, ↓State.log1_core, ↓State.startWake_core, ↓State.pairFaults_core, ↓ite_core, ite_self,
    ↓State.core_keep]⟩

theorem execRingTimeSend_core (s : State) : ∃ t, (execRingTimeSend s) = .next t ∧ t.core = s.core := by
  exact ⟨_, rfl, by simp only [↓State.chainAll_core, ↓ite_core, ite_self, ↓State.core_keep]⟩

theorem execDomainSelect_core (rq : Rq) (dom : Nat) (s : State) :
    ∃ t, (execDomainSelect rq dom s) = .next t ∧ t.core = s.core := by
  exact ⟨_, rfl, by simp only [↓State.run_core, ↓State.withParams_core, ↓State.finish_core, ↓State.reject_core,
    ↓State.switchDom_core, ↓ite_core, ite_self, implies_true]⟩

theorem execLockHoldExpiry_core (lock : Nat) (s : State) :
    ∃ t, (execLockHoldExpiry lock s) = .next t ∧ t.core = s.core := by
  exact ⟨_, rfl, by simp only [↓State.breachOnce_core, ↓State.lockBreak_core, ↓ite_core, ite_self]⟩

theorem execPinPulse_core (pin : Nat) (s : State) : ∃ t, (execPinPulse pin s) = .next t ∧ t.core = s.core := by
  exact ⟨_, rfl, by simp only [↓State.setCons_core, ↓State.emit_core, ↓State.endTask_core, ↓ite_core, ite_self]⟩

theorem execAxisUpdate_core (axis : Nat) (s : State) : ∃ t, (execAxisUpdate axis s) = .next t ∧ t.core = s.core := by
  rw [execAxisUpdate.eq_def]
  repeat' split
  all_goals refine ⟨_, rfl, ?_⟩
  all_goals (try simp only [↓State.axTable_core, ↓State.axFollowUpdate_core, ↓State.axAdvance_core,
      ↓State.axIssue_core, ↓foldl_core, ↓ite_core, ↓dite_core, ↓reduceIte, ite_self, implies_true,
      ↓State.core_keep])
  all_goals repeat' ((first | split | (rw [foldl_core]; intro s x)) <;> try simp only [↓State.axTable_core,
      ↓State.axFollowUpdate_core, ↓State.axAdvance_core, ↓State.axIssue_core, ↓foldl_core, ↓ite_core, ↓dite_core,
      ↓reduceIte, ite_self, implies_true, ↓State.core_keep])

theorem execAxisMove_core (rq : Rq) (axis : Nat) (mode : Nat) (target : Int) (speed : Nat) (s : State) :
    ∃ t, (execAxisMove rq axis mode target speed s) = .next t ∧ t.core = s.core := by
  exact ⟨_, rfl, by simp only [↓State.run_core, ↓State.finish_core, ↓State.withParams_core, ↓State.softLimited_core,
    ↓State.axStart_core, ↓State.pend_core, ↓State.setAxis_core, ↓ite_core, ite_self, implies_true]⟩

theorem execPosition_core (west : Bool) (bytes : List Byte) (s : State) :
    ∃ t, (execPosition west bytes s) = .next t ∧ t.core = s.core := by
  exact ⟨_, rfl, by simp only [↓State.chainTake_core, ↓State.chainRelay_core, ↓State.takePosition_core, ↓ite_core,
    ite_self, implies_true, ↓State.core_keep]⟩

theorem execDbCmd_core (ring : Nat) (idx : Nat) (s : State) :
    ∃ t, (execDbCmd ring idx s) = .next t ∧ t.core = s.core := by
  exact ⟨_, rfl, by simp only [↓State.cmdErr_core, ↓State.setRing_core, ↓ite_core, ite_self]⟩

theorem execFitReturn_core (s : State) : ∃ t, (execFitReturn s) = .next t ∧ t.core = s.core := by
  exact ⟨_, rfl, by simp only [↓State.setFld_core, ↓ite_core, ite_self]⟩

theorem execDmaAbort_core (ch : Nat) (s : State) : ∃ t, (execDmaAbort ch s) = .next t ∧ t.core = s.core := by
  exact ⟨_, rfl, by simp only [↓State.stopChain_core, ↓ite_core, ite_self]⟩

end Sys2Proof.Machine
end

