-- ==== Sys2Proof/Laws/Memory.lean ====
section
/-!
SUPPORT. The laws of device memory: a byte read after a write, and that every write keeps the canonical form.
-/
namespace Sys2Proof.Machine

/-- A byte read after a byte was written. -/
theorem memByte_putByte {m : List Host.Cell} {a x : Nat} {b : Byte} :
    memByte (memPutByte m a b) x = if x = a then b else memByte m x := tabGet_put

/-- Writing a byte keeps the canonical form. -/
theorem memPutByte_wf {m : List Host.Cell} {a : Nat} {b : Byte} (h : Memory.wf m) : Memory.wf (memPutByte m a b) :=
  tabWf_put (d := fun _ => memEmpty) h

/-- Outside the bytes written every byte reads as before. -/
theorem memByte_put_outside {l : List Byte} {m : List Host.Cell} {a x : Nat} (h : x < a ∨ a + l.length ≤ x) :
    memByte (memPut m a l) x = memByte m x := by
  induction l generalizing m a with
  | nil => rfl
  | cons b l ih =>
    simp only [List.length_cons] at h
    rw [memPut, ih (by omega), memByte_putByte, if_neg (by omega)]

/-- A byte written reads back. -/
theorem memByte_put_inside {l : List Byte} {m : List Host.Cell} {a i : Nat} (h : i < l.length) :
    memByte (memPut m a l) (a + i) = l[i] := by
  induction l generalizing m a i with
  | nil => simp at h
  | cons b l ih =>
    cases i with
    | zero => simp [memPut, memByte_put_outside, memByte_putByte]
    | succ i =>
      have h2 : a + (i + 1) = a + 1 + i := by omega
      rw [memPut, h2, ih (by simpa using h)]
      simp

/-- Writing bytes keeps the canonical form. -/
theorem memPut_wf {l : List Byte} {m : List Host.Cell} {a : Nat} (h : Memory.wf m) : Memory.wf (memPut m a l) := by
  induction l generalizing m a with
  | nil => exact h
  | cons b l ih => exact ih (memPutByte_wf h)

/-- Bytes written read back as a list. -/
theorem memGet_put {l : List Byte} {m : List Host.Cell} {a : Nat} : memGet (memPut m a l) a l.length = l := by
  apply List.ext_getElem
  · simp [memGet]
  · intro i h1 h2
    simp only [memGet, List.getElem_map, List.getElem_range]
    exact memByte_put_inside h2

theorem tabFrom_filter {α : Type} {p : Nat × α → Bool} {l : List (Nat × α)} {n : Nat} (h : tabFrom n l) :
    tabFrom n (l.filter p) := by
  induction l with
  | nil => exact h
  | cons q t ih =>
    rw [List.filter_cons]
    split
    · exact ⟨h.1, ih h.2⟩
    · exact ih h.2

/-- Clearing keeps the canonical form. -/
theorem memClear_wf {m : List Host.Cell} {a n : Nat} (h : Memory.wf m) : Memory.wf (memClear m a n) := by
  induction m with
  | nil => exact h
  | cons q t ih =>
    obtain ⟨ha, hf, hw⟩ := tabWf_cons.mp h
    rw [memClear, List.filter_cons]
    split
    · exact tabWf_cons.mpr ⟨ha, tabFrom_filter hf, ih hw⟩
    · exact ih hw

/-- What a store does to memory. -/
theorem State.memStore_mem (s : State) (a : Nat) (l : List Byte) : (s.memStore a l).mem = memPut s.mem a l := rfl

/-- A store keeps the canonical form of device memory. -/
theorem State.memStore_wf {s : State} {a : Nat} {l : List Byte} (h : Memory.wf s.mem) :
    Memory.wf (s.memStore a l).mem := memPut_wf h

end Sys2Proof.Machine
end

