-- ==== Sys2Proof/Laws/Kept.lean ====
section
/-!
SUPPORT. The operations that store in device memory keep its canonical form and the queue of waiting commands.
-/
set_option linter.all false
set_option maxHeartbeats 100000

namespace Sys2Proof.Machine

/-- The queue stays, and device memory keeps its canonical form. -/
def State.Kept (s t : State) : Prop := t.pending = s.pending ∧ (Memory.wf s.mem → Memory.wf t.mem)

theorem State.Kept.rfl {s : State} : s.Kept s := ⟨Eq.refl _, id⟩

theorem State.Kept.trans {s t u : State} (h : s.Kept t) (k : t.Kept u) : s.Kept u :=
  ⟨k.1.trans h.1, fun w => k.2 (h.2 w)⟩

/-- What leaves the queue and the memory alone keeps both. -/
theorem State.Kept.of_core {s t : State} (h : t.core = s.core) : s.Kept t :=
  ⟨congrArg Prod.fst h, fun w => by
    have e : t.mem = s.mem := congrArg Prod.snd h
    rwa [e]⟩

theorem State.pending_of_core {t : State} {p : List Instr} {m : List Host.Cell} (h : t.core = (p, m)) :
    t.pending = p := congrArg Prod.fst h

theorem State.mem_of_core {t : State} {p : List Instr} {m : List Host.Cell} (h : t.core = (p, m)) : t.mem = m :=
  congrArg Prod.snd h

theorem State.Kept.core {s t u : State} (h : s.Kept t) (k : u.core = t.core) : s.Kept u := h.trans (.of_core k)

theorem State.Kept.ite {s a b : State} {c : Prop} [Decidable c] (h : s.Kept a) (k : s.Kept b) :
    s.Kept (if c then a else b) := by
  split
  · exact h
  · exact k

theorem State.Kept.foldl {α : Type} {f : State → α → State} (h : ∀ (s : State) (x : α), s.Kept (f s x)) (l : List α) (s : State) :
    s.Kept (l.foldl f s) := by
  induction l generalizing s with
  | nil => exact .rfl
  | cons x l ih => exact (h s x).trans (ih _)

theorem State.memStore_kept (s : State) (a : Nat) (b : List Byte) : s.Kept (s.memStore a b) :=
  ⟨Eq.refl _, State.memStore_wf⟩

theorem State.Kept.left {s a t : State} (h : t.Kept a) (k : t.core = s.core) : s.Kept a := (State.Kept.of_core k).trans h

/-- A command keeps both where its body does. -/
theorem State.runIn_kept {s : State} {rq : Rq} {op : Nat} {doms : List Domain} {body : State → State}
    (h : ∀ s : State, s.Kept (body s)) : s.Kept (s.runIn rq op doms body) := by
  rw [State.runIn]
  split
  · exact .rfl
  · refine State.Kept.core (.left ?_ (State.take_core s rq)) (State.lift_core ..)
    split
    · split
      · exact .of_core (State.reject_core ..)
      · exact .of_core (State.finish_core ..)
    · split
      · exact .ite (h _) (.of_core (State.finish_core ..))
      · exact h _

theorem State.run_kept {s : State} {rq : Rq} {op : Nat} {body : State → State} (h : ∀ s : State, s.Kept (body s)) :
    s.Kept (s.run rq op body) := State.runIn_kept h

theorem State.withParams_kept {s : State} {rq : Rq} {op : Nat} {fields : List (Nat × Bool)} {body : State → State}
    (h : s.Kept (body s)) : s.Kept (s.withParams rq op fields body) := by
  rw [State.withParams]
  split
  · exact h
  · exact .of_core (State.badParam_core ..)

theorem State.kept_keep (s t : State) (regs dram now stateSince fresh outbox cmd log locks arbs evt time msix motion ppos mons
    lanes chain rings hostSize chk ingest job bars fire nvc eye insp noz spare latches pwr) :
    s.Kept ⟨t.pending, regs, t.mem, dram, now, stateSince, fresh, outbox, cmd, log, locks, arbs, evt, time, msix, motion,
      ppos, mons, lanes, chain, rings, hostSize, chk, ingest, job, bars, fire, nvc, eye, insp, noz, spare, latches,
      pwr⟩ = s.Kept t := (rfl)

theorem State.memErase_kept (s : State) (a n : Nat) : s.Kept (s.memErase a n) := ⟨Eq.refl _, memClear_wf⟩

theorem State.writeMem_kept (s : State) (input : Nat) (a : Nat) (b : List Byte) :
    s.Kept (State.writeMem s input a b) := by
  rw [State.writeMem.eq_def]
  repeat' first
    | with_reducible exact State.Kept.rfl
    | simp only [State.kept_keep]
    | with_reducible refine State.Kept.core ?_ (State.readWord_core ..)
    | with_reducible refine State.Kept.trans ?_ (State.memStore_kept ..)
    | with_reducible refine State.Kept.core ?_ (State.setWord_core ..)
    | with_reducible refine State.Kept.core ?_ (State.inject_core ..)
    | with_reducible refine State.Kept.ite ?_ ?_
    | with_reducible refine State.Kept.trans ?_ (State.Kept.foldl (fun s x => ?_) _ _)
    | dsimp only
    | split

theorem State.storeCopies_kept (s : State) (at_ : Bool → Nat) (bytes : List Byte) :
    s.Kept (State.storeCopies s at_ bytes) := by
  rw [State.storeCopies.eq_def]
  repeat' first
    | with_reducible exact State.Kept.rfl
    | simp only [State.kept_keep]
    | with_reducible refine State.Kept.trans ?_ (State.writeMem_kept ..)
    | with_reducible refine State.Kept.ite ?_ ?_
    | with_reducible refine State.Kept.trans ?_ (State.Kept.foldl (fun s x => ?_) _ _)
    | dsimp only
    | split

theorem State.storeFate_kept (s : State) (b : Nat) (f : Nat) : s.Kept (State.storeFate s b f) := by
  rw [State.storeFate.eq_def]
  repeat' first
    | with_reducible exact State.Kept.rfl
    | simp only [State.kept_keep]
    | with_reducible refine State.Kept.trans ?_ (State.storeCopies_kept ..)
    | with_reducible refine State.Kept.ite ?_ ?_
    | with_reducible refine State.Kept.trans ?_ (State.Kept.foldl (fun s x => ?_) _ _)
    | dsimp only
    | split

theorem State.sealFate_kept (s : State) (b : Nat) (k : Nat) (f : Nat) (code : Nat) :
    s.Kept (State.sealFate s b k f code) := by
  rw [State.sealFate.eq_def]
  repeat' first
    | with_reducible exact State.Kept.rfl
    | simp only [State.kept_keep]
    | with_reducible refine State.Kept.trans ?_ (State.storeFate_kept ..)
    | with_reducible refine State.Kept.core ?_ (State.setBar_core ..)
    | with_reducible refine State.Kept.ite ?_ ?_
    | with_reducible refine State.Kept.trans ?_ (State.Kept.foldl (fun s x => ?_) _ _)
    | dsimp only
    | split

theorem State.settleLine_kept (s : State) (k : Nat) (f : Nat) (code : Nat) : s.Kept (State.settleLine s k f code) := by
  rw [State.settleLine.eq_def]
  repeat' first
    | with_reducible exact State.Kept.rfl
    | simp only [State.kept_keep]
    | with_reducible refine State.Kept.core ?_ (State.settle_core ..)
    | with_reducible refine State.Kept.trans ?_ (State.sealFate_kept ..)
    | with_reducible refine State.Kept.ite ?_ ?_
    | with_reducible refine State.Kept.trans ?_ (State.Kept.foldl (fun s x => ?_) _ _)
    | dsimp only
    | split

theorem execEchoTimeout_kept (board : Nat) (s : State) : ∃ t, execEchoTimeout board s = .next t ∧ s.Kept t := by
  refine ⟨_, rfl, ?_⟩
  repeat' first
    | with_reducible exact State.Kept.rfl
    | simp only [State.kept_keep]
    | with_reducible refine State.Kept.core ?_ (State.setBoard_core ..)
    | with_reducible refine State.Kept.core ?_ (State.bump_core ..)
    | with_reducible refine State.Kept.core ?_ (State.latchBoard_core ..)
    | with_reducible refine State.Kept.core ?_ (State.updDecided_core ..)
    | with_reducible refine State.Kept.core ?_ (State.setFld_core ..)
    | with_reducible refine State.Kept.core ?_ (State.echoFault_core ..)
    | with_reducible refine State.Kept.trans ?_ (State.settleLine_kept ..)
    | with_reducible refine State.Kept.ite ?_ ?_
    | with_reducible refine State.Kept.trans ?_ (State.Kept.foldl (fun s x => ?_) _ _)
    | dsimp only
    | split

theorem State.clearRings_kept (s : State) (b : Nat) : s.Kept (State.clearRings s b) := by
  rw [State.clearRings.eq_def]
  repeat' first
    | with_reducible exact State.Kept.rfl
    | simp only [State.kept_keep]
    | with_reducible refine State.Kept.trans ?_ (State.memErase_kept ..)
    | with_reducible refine State.Kept.ite ?_ ?_
    | with_reducible refine State.Kept.trans ?_ (State.Kept.foldl (fun s x => ?_) _ _)
    | dsimp only
    | split

theorem State.clearBars_kept (s : State) : s.Kept s.clearBars := by
  refine (State.Kept.foldl State.clearRings_kept (List.range 16) s).core ?_
  simp only [State.clearBars]
  rw [State.core_keep]
  refine (foldl_core _ (fun s b => State.showFill_core ..) _ _).trans
    ((foldl_core _ (fun s k => State.setBoard_core ..) _ _).trans (foldl_core _ (fun s b => ?_) _ _))
  simp only [↓State.setFld_core, ↓State.setBar_core]


theorem State.jobEnd_kept (s : State) : s.Kept s.jobEnd := by
  simp only [State.jobEnd]
  refine State.Kept.core ?_
    ((State.storeAtEnd_core _).trans ((State.setReq_core ..).trans (State.flushGaps_core _)))
  refine State.Kept.trans ?_ (State.clearBars_kept _)
  refine .of_core ?_
  simp only [↓State.setFld_core, ↓State.core_keep, ↓State.endIngests_core, ↓State.enter_core]


theorem State.checkEnd_kept (s : State) : s.Kept s.checkEnd := by
  rw [State.checkEnd]
  exact .ite (State.jobEnd_kept s) .rfl


theorem State.cold_kept (s : State) : s.Kept s.cold := by
  have e : s.cold.core = (s.fireIdle.pending, []) := by
    simp only [State.cold]
    exact (foldl_core _ (fun t f => State.setFld_core ..) _ _).trans (State.core_mk ..)
  refine ⟨(State.pending_of_core e).trans (State.pending_of_core (State.fireIdle_core s)), fun _ => ?_⟩
  rw [State.mem_of_core e]
  rfl


theorem State.boot_kept (s : State) (env : BootEnv) (off : Nat) (logged : Bool) : s.Kept (s.boot env off logged) := by
  refine s.cold_kept.core ?_
  simp only [State.boot]
  repeat' split
  all_goals simp only [↓State.halt_core, ↓State.bootTrain_core, ↓foldl_core, ↓State.phaseFail_core, implies_true,
    ↓State.bootImage_core, ↓State.bootStep_core, ↓ite_core, ↓State.log1_core, ↓State.setFld_core,
    ↓State.showGated_core, ↓State.restoreLog_core, ↓State.keepSupply_core, ite_self]


theorem execSupplyRestart_kept (env : BootEnv) (s : State) : ∃ t, execSupplyRestart env s = .next t ∧ s.Kept t := by
  refine ⟨_, rfl, ?_⟩
  repeat' first
    | with_reducible exact State.Kept.rfl
    | simp only [State.kept_keep]
    | with_reducible refine State.Kept.trans ?_ (State.boot_kept ..)
    | with_reducible refine State.Kept.ite ?_ ?_
    | with_reducible refine State.Kept.trans ?_ (State.Kept.foldl (fun s x => ?_) _ _)
    | dsimp only
    | split

theorem execJobClose_kept (rq : Rq) (job : Nat) (s : State) : ∃ t, execJobClose rq job s = .next t ∧ s.Kept t := by
  refine ⟨_, rfl, ?_⟩
  repeat' first
    | with_reducible exact State.Kept.rfl
    | simp only [State.kept_keep]
    | with_reducible refine State.run_kept fun s => ?_
    | with_reducible refine State.withParams_kept ?_
    | with_reducible refine State.Kept.trans ?_ (State.checkEnd_kept ..)
    | with_reducible refine State.Kept.core ?_ (State.finish_core ..)
    | with_reducible refine State.Kept.ite ?_ ?_
    | with_reducible refine State.Kept.trans ?_ (State.Kept.foldl (fun s x => ?_) _ _)
    | dsimp only
    | split

theorem State.writeBackWord_kept (s : State) (e : Nat × Option Nat) : s.Kept (s.writeBackWord e) := by
  rw [State.writeBackWord]
  have h : s.Kept (s.setWord e.1 false) := .of_core (State.setWord_core ..)
  split
  · exact h.trans ⟨Eq.refl _, memPut_wf⟩
  · exact h


theorem State.backsTick_kept (s : State) : s.Kept (State.backsTick s) := by
  rw [State.backsTick.eq_def]
  repeat' first
    | with_reducible exact State.Kept.rfl
    | simp only [State.kept_keep]
    | with_reducible refine State.Kept.trans ?_ (State.writeBackWord_kept ..)
    | with_reducible refine State.Kept.ite ?_ ?_
    | with_reducible refine State.Kept.trans ?_ (State.Kept.foldl (fun s x => ?_) _ _)
    | dsimp only
    | split

theorem State.memTick_kept (s : State) : s.Kept (State.memTick s) := by
  rw [State.memTick.eq_def]
  repeat' first
    | with_reducible exact State.Kept.rfl
    | simp only [State.kept_keep]
    | with_reducible refine State.Kept.trans ?_ (State.backsTick_kept ..)
    | with_reducible refine State.Kept.core ?_ (State.targetsTick_core ..)
    | with_reducible refine State.Kept.core ?_ (State.endMaint_core ..)
    | with_reducible refine State.Kept.ite ?_ ?_
    | with_reducible refine State.Kept.trans ?_ (State.Kept.foldl (fun s x => ?_) _ _)
    | dsimp only
    | split

theorem tick_kept (s : State) : s.Kept (tick s) := by
  rw [tick.eq_def]
  repeat' first
    | with_reducible exact State.Kept.rfl
    | simp only [State.kept_keep]
    | with_reducible refine State.Kept.core ?_ (State.pairTick_core ..)
    | with_reducible refine State.Kept.core ?_ (State.motionTick_core ..)
    | with_reducible refine State.Kept.core ?_ (State.timeTick_core ..)
    | with_reducible refine State.Kept.core ?_ (State.lanesTick_core ..)
    | with_reducible refine State.Kept.trans ?_ (State.memTick_kept ..)
    | with_reducible refine State.Kept.ite ?_ ?_
    | with_reducible refine State.Kept.trans ?_ (State.Kept.foldl (fun s x => ?_) _ _)
    | dsimp only
    | split

theorem execPrintStop_kept (s : State) : ∃ t, execPrintStop s = .next t ∧ s.Kept t := by
  refine ⟨_, rfl, .ite ?_ (.of_core (State.refuseTask_core ..))⟩
  exact .core (.left (State.jobEnd_kept s.hold) (State.hold_core s)) (State.endTask_core ..)


theorem State.storePlane_kept (s : State) (units : List Nat) (n o : Nat) (b : List Byte) :
    s.Kept (s.storePlane units n o b) := by
  induction n generalizing s o b with
  | zero => exact .rfl
  | succ n ih =>
    rw [State.storePlane]
    split
    · exact .rfl
    · exact (State.writeMem_kept ..).trans (ih ..)


theorem State.runSeg_kept (s : State) (ch : Nat) (i : Nat) : s.Kept (State.runSeg s ch i) := by
  rw [State.runSeg.eq_def]
  repeat' first
    | with_reducible exact State.Kept.rfl
    | simp only [State.kept_keep]
    | with_reducible refine State.Kept.core ?_ (State.failPage_core ..)
    | with_reducible refine State.Kept.trans ?_ (State.storePlane_kept ..)
    | with_reducible refine State.Kept.core ?_ (State.setPage_core ..)
    | with_reducible refine State.Kept.ite ?_ ?_
    | with_reducible refine State.Kept.trans ?_ (State.Kept.foldl (fun s x => ?_) _ _)
    | dsimp only
    | split

theorem execKpsBlock_kept (ch : Nat) (bytes : List Byte) (s : State) :
    ∃ t, execKpsBlock ch bytes s = .next t ∧ s.Kept t := by
  refine ⟨_, rfl, ?_⟩
  repeat' first
    | with_reducible exact State.Kept.rfl
    | simp only [State.kept_keep]
    | with_reducible refine State.Kept.core ?_ (State.failPage_core ..)
    | with_reducible refine State.Kept.core ?_ (State.setPage_core ..)
    | with_reducible refine State.Kept.core ?_ (State.shortPage_core ..)
    | with_reducible refine State.Kept.trans ?_ (State.runSeg_kept ..)
    | with_reducible refine State.Kept.ite ?_ ?_
    | with_reducible refine State.Kept.trans ?_ (State.Kept.foldl (fun s x => ?_) _ _)
    | dsimp only
    | split

theorem execResume_kept (rq : Rq) (pos : Int) (s : State) : ∃ t, execResume rq pos s = .next t ∧ s.Kept t := by
  refine ⟨_, rfl, ?_⟩
  repeat' first
    | with_reducible exact State.Kept.rfl
    | simp only [State.kept_keep]
    | with_reducible refine State.run_kept fun s => ?_
    | with_reducible refine State.withParams_kept ?_
    | with_reducible refine State.Kept.core ?_ (State.finish_core ..)
    | with_reducible refine State.Kept.trans ?_ (State.checkEnd_kept ..)
    | with_reducible refine State.Kept.core ?_ (State.enter_core ..)
    | with_reducible refine State.Kept.core ?_ (State.shiftSheets_core ..)
    | with_reducible refine State.Kept.core ?_ (State.setOffset_core ..)
    | with_reducible refine State.Kept.ite ?_ ?_
    | with_reducible refine State.Kept.trans ?_ (State.Kept.foldl (fun s x => ?_) _ _)
    | dsimp only
    | split

theorem execArm_kept (rq : Rq) (job : Nat) (s : State) : ∃ t, execArm rq job s = .next t ∧ s.Kept t := by
  refine ⟨_, rfl, State.run_kept fun s => State.withParams_kept ?_⟩
  refine .ite (.of_core (State.reject_core ..)) (.ite (.of_core (State.reject_core ..)) ?_)
  refine .core (.left (State.clearBars_kept s.undozeAll) (State.undozeAll_core s)) ?_
  simp only [↓State.finish_core, ↓State.enter_core, ↓State.setReq_core, ↓State.core_keep, ↓State.flushGaps_core,
    ↓State.giveUp_core]


theorem execSegmentAssign_kept (s : State) : ∃ t, execSegmentAssign s = .next t ∧ s.Kept t := by
  refine ⟨_, rfl, ?_⟩
  repeat' first
    | with_reducible exact State.Kept.rfl
    | simp only [State.kept_keep]
    | with_reducible refine State.Kept.core ?_ (State.setFld_core ..)
    | with_reducible refine State.Kept.trans ?_ (State.runSeg_kept ..)
    | with_reducible refine State.Kept.core ?_ (State.setPage_core ..)
    | with_reducible refine State.Kept.ite ?_ ?_
    | with_reducible refine State.Kept.trans ?_ (State.Kept.foldl (fun s x => ?_) _ _)
    | dsimp only
    | split

theorem State.moveData_kept (s : State) (ch : Nat) (o : Nat) (d : List Byte) (data : List Byte) :
    s.Kept (State.moveData s ch o d data) := by
  rw [State.moveData.eq_def]
  repeat' first
    | with_reducible exact State.Kept.rfl
    | simp only [State.kept_keep]
    | with_reducible refine State.Kept.core ?_ (State.setPage_core ..)
    | with_reducible refine State.Kept.trans ?_ (State.writeMem_kept ..)
    | with_reducible refine State.Kept.core ?_ (State.readMem_core ..)
    | with_reducible refine State.Kept.core ?_ (State.hostData_core ..)
    | with_reducible refine State.Kept.ite ?_ ?_
    | with_reducible refine State.Kept.trans ?_ (State.Kept.foldl (fun s x => ?_) _ _)
    | dsimp only
    | split

theorem State.deliverData_kept (s : State) (ch : Nat) (d : List Byte) (data : List Byte) :
    s.Kept (State.deliverData s ch d data) := by
  rw [State.deliverData.eq_def]
  repeat' first
    | with_reducible exact State.Kept.rfl
    | simp only [State.kept_keep]
    | with_reducible refine State.Kept.trans ?_ (State.moveData_kept ..)
    | with_reducible refine State.Kept.core ?_ (State.setDmaCh_core ..)
    | with_reducible refine State.Kept.ite ?_ ?_
    | with_reducible refine State.Kept.trans ?_ (State.Kept.foldl (fun s x => ?_) _ _)
    | dsimp only
    | split

theorem State.enterFate_kept (s : State) (b : Nat) (k : Nat) (f : Nat) (p : Option Int) (code : Nat) :
    s.Kept (State.enterFate s b k f p code) := by
  rw [State.enterFate.eq_def]
  repeat' first
    | with_reducible exact State.Kept.rfl
    | simp only [State.kept_keep]
    | with_reducible refine State.Kept.trans ?_ (State.storeFate_kept ..)
    | with_reducible refine State.Kept.core ?_ (State.setBar_core ..)
    | with_reducible refine State.Kept.ite ?_ ?_
    | with_reducible refine State.Kept.trans ?_ (State.Kept.foldl (fun s x => ?_) _ _)
    | dsimp only
    | split

theorem State.decide1_kept (s : State) (b : Nat) (k : Nat) (f : Nat) (due : Int) :
    s.Kept (State.decide1 s b k f due) := by
  rw [State.decide1.eq_def]
  repeat' first
    | with_reducible exact State.Kept.rfl
    | simp only [State.kept_keep]
    | with_reducible refine State.Kept.core ?_ (State.setFld_core ..)
    | with_reducible refine State.Kept.core ?_ (State.bump_core ..)
    | with_reducible refine State.Kept.core ?_ (State.safeLine_core ..)
    | with_reducible refine State.Kept.core ?_ (State.energyBlank_core ..)
    | with_reducible refine State.Kept.core ?_ (State.setBoard_core ..)
    | with_reducible refine State.Kept.core ?_ (State.sendSchedule_core ..)
    | with_reducible refine State.Kept.trans ?_ (State.enterFate_kept ..)
    | with_reducible refine State.Kept.ite ?_ ?_
    | with_reducible refine State.Kept.trans ?_ (State.Kept.foldl (fun s x => ?_) _ _)
    | dsimp only
    | split

theorem State.strobeDone_kept (s : State) (k : Nat) : s.Kept (State.strobeDone s k) := by
  rw [State.strobeDone.eq_def]
  repeat' first
    | with_reducible exact State.Kept.rfl
    | simp only [State.kept_keep]
    | with_reducible refine State.Kept.trans ?_ (State.checkEnd_kept ..)
    | with_reducible refine State.Kept.core ?_ (State.showFill_core ..)
    | with_reducible refine State.Kept.ite ?_ ?_
    | with_reducible refine State.Kept.trans ?_ (State.Kept.foldl (fun s x => ?_) _ _)
    | dsimp only
    | split

theorem execSupplyShutdown_kept (cause : Nat) (s : State) :
    ∃ t, execSupplyShutdown cause s = .next t ∧ s.Kept t := by
  refine ⟨_, rfl, .ite .rfl ?_⟩
  dsimp only
  split
  · exact (State.Kept.of_core (State.bump_core ..)).trans ((State.cold_kept _).core (State.core_keep ..))
  · exact (State.cold_kept _).core (State.core_keep ..)


theorem execDeviceReset_kept (cause : ResetCause) (env : BootEnv) (s : State) :
    ∃ t, execDeviceReset cause env s = .next t ∧ s.Kept t := by
  refine ⟨_, rfl, ?_⟩
  repeat' first
    | with_reducible exact State.Kept.rfl
    | simp only [State.kept_keep]
    | with_reducible refine State.Kept.trans ?_ (State.boot_kept ..)
    | with_reducible refine State.Kept.ite ?_ ?_
    | with_reducible refine State.Kept.trans ?_ (State.Kept.foldl (fun s x => ?_) _ _)
    | dsimp only
    | split

theorem execDecisionPoint_kept (board : Nat) (s : State) : ∃ t, execDecisionPoint board s = .next t ∧ s.Kept t := by
  refine ⟨_, rfl, ?_⟩
  repeat' first
    | with_reducible exact State.Kept.rfl
    | simp only [State.kept_keep]
    | with_reducible refine State.Kept.trans ?_ (State.decide1_kept ..)
    | with_reducible refine State.Kept.ite ?_ ?_
    | with_reducible refine State.Kept.trans ?_ (State.Kept.foldl (fun s x => ?_) _ _)
    | dsimp only
    | split

theorem execSegmentSwitch_kept (unit : Nat) (s : State) : ∃ t, execSegmentSwitch unit s = .next t ∧ s.Kept t := by
  refine ⟨_, rfl, ?_⟩
  repeat' first
    | with_reducible exact State.Kept.rfl
    | simp only [State.kept_keep]
    | with_reducible refine State.Kept.core ?_ (State.bump_core ..)
    | with_reducible refine State.Kept.core ?_ (State.setFld_core ..)
    | with_reducible refine State.Kept.core ?_ (State.setPage_core ..)
    | with_reducible refine State.Kept.trans ?_ (State.runSeg_kept ..)
    | with_reducible refine State.Kept.ite ?_ ?_
    | with_reducible refine State.Kept.trans ?_ (State.Kept.foldl (fun s x => ?_) _ _)
    | dsimp only
    | split

theorem State.writeStats_kept (s : State) (n : Nat) (f : CamFrame) : s.Kept (State.writeStats s n f) := by
  rw [State.writeStats.eq_def]
  repeat' first
    | with_reducible exact State.Kept.rfl
    | simp only [State.kept_keep]
    | with_reducible refine State.Kept.core ?_ (State.addRecord_core ..)
    | with_reducible refine State.Kept.core ?_ (State.ringLost_core ..)
    | with_reducible refine State.Kept.trans ?_ (State.writeMem_kept ..)
    | with_reducible refine State.Kept.ite ?_ ?_
    | with_reducible refine State.Kept.trans ?_ (State.Kept.foldl (fun s x => ?_) _ _)
    | dsimp only
    | split

theorem execFrameStatistics_kept (port : Nat) (s : State) : ∃ t, execFrameStatistics port s = .next t ∧ s.Kept t := by
  refine ⟨_, rfl, ?_⟩
  repeat' first
    | with_reducible exact State.Kept.rfl
    | simp only [State.kept_keep]
    | with_reducible refine State.Kept.core ?_ (State.frameDone_core ..)
    | with_reducible refine State.Kept.core ?_ (State.scoreFrame_core ..)
    | with_reducible refine State.Kept.core ?_ (State.imageFindings_core ..)
    | with_reducible refine State.Kept.core ?_ (State.measureOverlaps_core ..)
    | with_reducible refine State.Kept.trans ?_ (State.writeStats_kept ..)
    | with_reducible refine State.Kept.ite ?_ ?_
    | with_reducible refine State.Kept.trans ?_ (State.Kept.foldl (fun s x => ?_) _ _)
    | dsimp only
    | split

theorem State.echoMatched_kept (s : State) (k : Nat) (d : Decided) (b : List Byte) :
    s.Kept (State.echoMatched s k d b) := by
  rw [State.echoMatched.eq_def]
  repeat' first
    | with_reducible exact State.Kept.rfl
    | simp only [State.kept_keep]
    | with_reducible refine State.Kept.core ?_ (State.setBoard_core ..)
    | with_reducible refine State.Kept.core ?_ (State.setFld_core ..)
    | with_reducible refine State.Kept.core ?_ (State.echoTemp_core ..)
    | with_reducible refine State.Kept.core ?_ (State.echoRail_core ..)
    | with_reducible refine State.Kept.core ?_ (State.latchBoard_core ..)
    | with_reducible refine State.Kept.core ?_ (State.echoFault_core ..)
    | with_reducible refine State.Kept.core ?_ (State.safeLine_core ..)
    | with_reducible refine State.Kept.core ?_ (State.updDecided_core ..)
    | with_reducible refine State.Kept.trans ?_ (State.settleLine_kept ..)
    | with_reducible refine State.Kept.ite ?_ ?_
    | with_reducible refine State.Kept.trans ?_ (State.Kept.foldl (fun s x => ?_) _ _)
    | dsimp only
    | split

theorem execEcho_kept (board : Nat) (bytes : List Byte) (s : State) :
    ∃ t, execEcho board bytes s = .next t ∧ s.Kept t := by
  refine ⟨_, rfl, ?_⟩
  repeat' first
    | with_reducible exact State.Kept.rfl
    | simp only [State.kept_keep]
    | with_reducible refine State.Kept.core ?_ (State.setCredits_core ..)
    | with_reducible refine State.Kept.trans ?_ (State.echoMatched_kept ..)
    | with_reducible refine State.Kept.core ?_ (State.echoTemp_core ..)
    | with_reducible refine State.Kept.ite ?_ ?_
    | with_reducible refine State.Kept.trans ?_ (State.Kept.foldl (fun s x => ?_) _ _)
    | dsimp only
    | split

theorem execStart_kept (rq : Rq) (pos : Int) (s : State) : ∃ t, execStart rq pos s = .next t ∧ s.Kept t := by
  refine ⟨_, rfl, ?_⟩
  repeat' first
    | with_reducible exact State.Kept.rfl
    | simp only [State.kept_keep]
    | with_reducible refine State.run_kept fun s => ?_
    | with_reducible refine State.withParams_kept ?_
    | with_reducible refine State.Kept.core ?_ (State.finish_core ..)
    | with_reducible refine State.Kept.trans ?_ (State.checkEnd_kept ..)
    | with_reducible refine State.Kept.core ?_ (State.enter_core ..)
    | with_reducible refine State.Kept.core ?_ (State.setOffset_core ..)
    | with_reducible refine State.Kept.ite ?_ ?_
    | with_reducible refine State.Kept.trans ?_ (State.Kept.foldl (fun s x => ?_) _ _)
    | dsimp only
    | split

theorem execAlarmFire_kept (dom : Nat) (s : State) : ∃ t, execAlarmFire dom s = .next t ∧ s.Kept t := by
  refine ⟨_, rfl, ?_⟩
  repeat' first
    | with_reducible exact State.Kept.rfl
    | simp only [State.kept_keep]
    | with_reducible refine State.Kept.core ?_ (State.countTick_core ..)
    | with_reducible refine State.Kept.trans ?_ (tick_kept ..)
    | with_reducible refine State.Kept.ite ?_ ?_
    | with_reducible refine State.Kept.trans ?_ (State.Kept.foldl (fun s x => ?_) _ _)
    | dsimp only
    | split

theorem execMemoryAccess_kept (acc : MemAccess) (s : State) : ∃ t, execMemoryAccess acc s = .next t ∧ s.Kept t := by
  refine ⟨_, rfl, ?_⟩
  repeat' first
    | with_reducible exact State.Kept.rfl
    | simp only [State.kept_keep]
    | with_reducible refine State.Kept.core ?_ (State.upset_core ..)
    | with_reducible refine State.Kept.core ?_ (State.activate_core ..)
    | with_reducible refine State.Kept.core ?_ (State.leaveSelfRefresh_core ..)
    | with_reducible refine State.Kept.trans ?_ (State.writeMem_kept ..)
    | with_reducible refine State.Kept.core ?_ (State.readWord_core ..)
    | with_reducible refine State.Kept.ite ?_ ?_
    | with_reducible refine State.Kept.trans ?_ (State.Kept.foldl (fun s x => ?_) _ _)
    | dsimp only
    | split

theorem execDmaDescriptorComplete_kept (ch : Nat) (data : List Byte) (s : State) :
    ∃ t, execDmaDescriptorComplete ch data s = .next t ∧ s.Kept t := by
  refine ⟨_, rfl, ?_⟩
  repeat' first
    | with_reducible exact State.Kept.rfl
    | simp only [State.kept_keep]
    | with_reducible refine State.Kept.trans ?_ (State.deliverData_kept ..)
    | with_reducible refine State.Kept.core ?_ (State.endChain_core ..)
    | with_reducible refine State.Kept.core ?_ (State.descDone_core ..)
    | with_reducible refine State.Kept.core ?_ (State.issueReads_core ..)
    | with_reducible refine State.Kept.ite ?_ ?_
    | with_reducible refine State.Kept.trans ?_ (State.Kept.foldl (fun s x => ?_) _ _)
    | dsimp only
    | split

theorem State.writeFrame_kept (s : State) (b : Nat) (k : Nat) (f : Nat) (x : BoardFrame) :
    s.Kept (State.writeFrame s b k f x) := by
  rw [State.writeFrame.eq_def]
  repeat' first
    | with_reducible exact State.Kept.rfl
    | simp only [State.kept_keep]
    | with_reducible refine State.Kept.trans ?_ (State.storeCopies_kept ..)
    | with_reducible refine State.Kept.ite ?_ ?_
    | with_reducible refine State.Kept.trans ?_ (State.Kept.foldl (fun s x => ?_) _ _)
    | dsimp only
    | split

theorem State.boardFrame_kept (s : State) (b : Nat) (f : Nat) (checks : List (Nat × CheckRun)) (k : Nat) :
    s.Kept (State.boardFrame s b f checks k) := by
  rw [State.boardFrame.eq_def]
  repeat' first
    | with_reducible exact State.Kept.rfl
    | simp only [State.kept_keep]
    | with_reducible refine State.Kept.core ?_ (State.checked_core ..)
    | with_reducible refine State.Kept.trans ?_ (State.writeFrame_kept ..)
    | with_reducible refine State.Kept.core ?_ (State.blanked_core ..)
    | with_reducible refine State.Kept.core ?_ (State.bump_core ..)
    | with_reducible refine State.Kept.ite ?_ ?_
    | with_reducible refine State.Kept.trans ?_ (State.Kept.foldl (fun s x => ?_) _ _)
    | dsimp only
    | split

theorem execFrameAssemble_kept (bar : Nat) (checks : List (Nat × CheckRun)) (s : State) :
    ∃ t, execFrameAssemble bar checks s = .next t ∧ s.Kept t := by
  refine ⟨_, rfl, ?_⟩
  repeat' first
    | with_reducible exact State.Kept.rfl
    | simp only [State.kept_keep]
    | with_reducible refine State.Kept.core ?_ (State.waitAt_core ..)
    | with_reducible refine State.Kept.trans ?_ (State.boardFrame_kept ..)
    | with_reducible refine State.Kept.core ?_ (State.showFill_core ..)
    | with_reducible refine State.Kept.core ?_ (State.setFld_core ..)
    | with_reducible refine State.Kept.core ?_ (State.setBar_core ..)
    | with_reducible refine State.Kept.ite ?_ ?_
    | with_reducible refine State.Kept.trans ?_ (State.Kept.foldl (fun s x => ?_) _ _)
    | dsimp only
    | split

theorem State.streamEnd_kept (s : State) (u : Nat) (c : CropJob) (level : Nat) : s.Kept (s.streamEnd u c level) := by
  simp only [State.streamEnd]
  apply ((State.writeMem_kept s _ _ _).trans ((State.writeMem_kept _ _ _ _).trans (State.writeMem_kept _ _ _ _))).core
  rw [State.bump_core, State.core_keep]
  simp only [↓State.setFld_core, ↓State.bump_core, ↓countKib_core]
  exact rfl


theorem execCompressStreamEnd_kept (unit : Nat) (s : State) : ∃ t, execCompressStreamEnd unit s = .next t ∧ s.Kept t := by
  refine ⟨_, rfl, ?_⟩
  repeat' first
    | with_reducible exact State.Kept.rfl
    | simp only [State.kept_keep]
    | with_reducible refine State.Kept.trans ?_ (State.streamEnd_kept ..)
    | with_reducible refine State.Kept.ite ?_ ?_
    | with_reducible refine State.Kept.trans ?_ (State.Kept.foldl (fun s x => ?_) _ _)
    | dsimp only
    | split

theorem execDomainPps_kept (dom : Nat) (s : State) : ∃ t, execDomainPps dom s = .next t ∧ s.Kept t := by
  refine ⟨_, rfl, ?_⟩
  repeat' first
    | with_reducible exact State.Kept.rfl
    | simp only [State.kept_keep]
    | with_reducible refine State.Kept.trans ?_ (tick_kept ..)
    | with_reducible refine State.Kept.ite ?_ ?_
    | with_reducible refine State.Kept.trans ?_ (State.Kept.foldl (fun s x => ?_) _ _)
    | dsimp only
    | split

theorem execPeriodic_kept (unit : Nat) (s : State) : ∃ t, execPeriodic unit s = .next t ∧ s.Kept t := by
  refine ⟨_, rfl, ?_⟩
  repeat' first
    | with_reducible exact State.Kept.rfl
    | simp only [State.kept_keep]
    | with_reducible refine State.Kept.core ?_ (State.countTick_core ..)
    | with_reducible refine State.Kept.trans ?_ (tick_kept ..)
    | with_reducible refine State.Kept.ite ?_ ?_
    | with_reducible refine State.Kept.trans ?_ (State.Kept.foldl (fun s x => ?_) _ _)
    | dsimp only
    | split

theorem State.holdIdle_kept (s : State) (k : Nat) (d : Decided) : s.Kept (State.holdIdle s k d) := by
  rw [State.holdIdle.eq_def]
  repeat' first
    | with_reducible exact State.Kept.rfl
    | simp only [State.kept_keep]
    | with_reducible refine State.Kept.core ?_ (State.updDecided_core ..)
    | with_reducible refine State.Kept.core ?_ (State.safeLine_core ..)
    | with_reducible refine State.Kept.trans ?_ (State.strobeDone_kept ..)
    | with_reducible refine State.Kept.trans ?_ (State.settleLine_kept ..)
    | with_reducible refine State.Kept.ite ?_ ?_
    | with_reducible refine State.Kept.trans ?_ (State.Kept.foldl (fun s x => ?_) _ _)
    | dsimp only
    | split

theorem execFireStrobe_kept (board : Nat) (s : State) : ∃ t, execFireStrobe board s = .next t ∧ s.Kept t := by
  refine ⟨_, rfl, ?_⟩
  split
  · exact .rfl
  · refine .ite (State.holdIdle_kept ..) ?_
    refine (State.Kept.of_core ?_).trans (State.strobeDone_kept _ _)
    simp only [↓State.emit_core, ↓State.setBoard_core, ↓State.updDecided_core]


theorem execStop_kept (rq : Rq) (s : State) : ∃ t, execStop rq s = .next t ∧ s.Kept t :=
  ⟨_, rfl, State.run_kept fun s => State.withParams_kept
    (.core (.left (State.jobEnd_kept s.hold) (State.hold_core s)) (State.finish_core ..))⟩


theorem execResidualSlewEnd_kept (s : State) : ∃ t, execResidualSlewEnd s = .next t ∧ s.Kept t := by
  refine ⟨_, rfl, ?_⟩
  repeat' first
    | with_reducible exact State.Kept.rfl
    | simp only [State.kept_keep]
    | with_reducible refine State.Kept.trans ?_ (tick_kept ..)
    | with_reducible refine State.Kept.ite ?_ ?_
    | with_reducible refine State.Kept.trans ?_ (State.Kept.foldl (fun s x => ?_) _ _)
    | dsimp only
    | split

end Sys2Proof.Machine
end

