-- ==== Sys2Proof/Laws/State.lean ====
section
/-!
SUPPORT. What each update of the state leaves alone: one lemma per field and update, so that no proof unfolds an update.
-/
namespace Sys2Proof.Machine

/-! `setReg` writes `regs` only. -/

@[simp] theorem State.setReg_pending (s : State) (a : Nat) (w : Word) : (s.setReg a w).pending = s.pending := (rfl)
@[simp] theorem State.setReg_mem (s : State) (a : Nat) (w : Word) : (s.setReg a w).mem = s.mem := (rfl)
@[simp] theorem State.setReg_dram (s : State) (a : Nat) (w : Word) : (s.setReg a w).dram = s.dram := (rfl)
@[simp] theorem State.setReg_now (s : State) (a : Nat) (w : Word) : (s.setReg a w).now = s.now := (rfl)
@[simp] theorem State.setReg_stateSince (s : State) (a : Nat) (w : Word) :
    (s.setReg a w).stateSince = s.stateSince := (rfl)
@[simp] theorem State.setReg_fresh (s : State) (a : Nat) (w : Word) : (s.setReg a w).fresh = s.fresh := (rfl)
@[simp] theorem State.setReg_outbox (s : State) (a : Nat) (w : Word) : (s.setReg a w).outbox = s.outbox := (rfl)
@[simp] theorem State.setReg_cmd (s : State) (a : Nat) (w : Word) : (s.setReg a w).cmd = s.cmd := (rfl)
@[simp] theorem State.setReg_log (s : State) (a : Nat) (w : Word) : (s.setReg a w).log = s.log := (rfl)
@[simp] theorem State.setReg_locks (s : State) (a : Nat) (w : Word) : (s.setReg a w).locks = s.locks := (rfl)
@[simp] theorem State.setReg_arbs (s : State) (a : Nat) (w : Word) : (s.setReg a w).arbs = s.arbs := (rfl)
@[simp] theorem State.setReg_evt (s : State) (a : Nat) (w : Word) : (s.setReg a w).evt = s.evt := (rfl)
@[simp] theorem State.setReg_time (s : State) (a : Nat) (w : Word) : (s.setReg a w).time = s.time := (rfl)
@[simp] theorem State.setReg_msix (s : State) (a : Nat) (w : Word) : (s.setReg a w).msix = s.msix := (rfl)
@[simp] theorem State.setReg_motion (s : State) (a : Nat) (w : Word) : (s.setReg a w).motion = s.motion := (rfl)
@[simp] theorem State.setReg_ppos (s : State) (a : Nat) (w : Word) : (s.setReg a w).ppos = s.ppos := (rfl)
@[simp] theorem State.setReg_mons (s : State) (a : Nat) (w : Word) : (s.setReg a w).mons = s.mons := (rfl)
@[simp] theorem State.setReg_lanes (s : State) (a : Nat) (w : Word) : (s.setReg a w).lanes = s.lanes := (rfl)
@[simp] theorem State.setReg_chain (s : State) (a : Nat) (w : Word) : (s.setReg a w).chain = s.chain := (rfl)
@[simp] theorem State.setReg_rings (s : State) (a : Nat) (w : Word) : (s.setReg a w).rings = s.rings := (rfl)
@[simp] theorem State.setReg_hostSize (s : State) (a : Nat) (w : Word) : (s.setReg a w).hostSize = s.hostSize := (rfl)
@[simp] theorem State.setReg_chk (s : State) (a : Nat) (w : Word) : (s.setReg a w).chk = s.chk := (rfl)
@[simp] theorem State.setReg_ingest (s : State) (a : Nat) (w : Word) : (s.setReg a w).ingest = s.ingest := (rfl)
@[simp] theorem State.setReg_job (s : State) (a : Nat) (w : Word) : (s.setReg a w).job = s.job := (rfl)
@[simp] theorem State.setReg_bars (s : State) (a : Nat) (w : Word) : (s.setReg a w).bars = s.bars := (rfl)
@[simp] theorem State.setReg_fire (s : State) (a : Nat) (w : Word) : (s.setReg a w).fire = s.fire := (rfl)
@[simp] theorem State.setReg_nvc (s : State) (a : Nat) (w : Word) : (s.setReg a w).nvc = s.nvc := (rfl)
@[simp] theorem State.setReg_eye (s : State) (a : Nat) (w : Word) : (s.setReg a w).eye = s.eye := (rfl)
@[simp] theorem State.setReg_insp (s : State) (a : Nat) (w : Word) : (s.setReg a w).insp = s.insp := (rfl)
@[simp] theorem State.setReg_noz (s : State) (a : Nat) (w : Word) : (s.setReg a w).noz = s.noz := (rfl)
@[simp] theorem State.setReg_spare (s : State) (a : Nat) (w : Word) : (s.setReg a w).spare = s.spare := (rfl)
@[simp] theorem State.setReg_latches (s : State) (a : Nat) (w : Word) : (s.setReg a w).latches = s.latches := (rfl)
@[simp] theorem State.setReg_pwr (s : State) (a : Nat) (w : Word) : (s.setReg a w).pwr = s.pwr := (rfl)

/-! `setFld` writes `regs` only. -/

@[simp] theorem State.setFld_pending (s : State) (f : Fld) (v : Nat) :
    (s.setFld f v).pending = s.pending := State.setReg_pending ..
@[simp] theorem State.setFld_mem (s : State) (f : Fld) (v : Nat) : (s.setFld f v).mem = s.mem := State.setReg_mem ..
@[simp] theorem State.setFld_dram (s : State) (f : Fld) (v : Nat) :
    (s.setFld f v).dram = s.dram := State.setReg_dram ..
@[simp] theorem State.setFld_now (s : State) (f : Fld) (v : Nat) : (s.setFld f v).now = s.now := State.setReg_now ..
@[simp] theorem State.setFld_stateSince (s : State) (f : Fld) (v : Nat) :
    (s.setFld f v).stateSince = s.stateSince := State.setReg_stateSince ..
@[simp] theorem State.setFld_fresh (s : State) (f : Fld) (v : Nat) :
    (s.setFld f v).fresh = s.fresh := State.setReg_fresh ..
@[simp] theorem State.setFld_outbox (s : State) (f : Fld) (v : Nat) :
    (s.setFld f v).outbox = s.outbox := State.setReg_outbox ..
@[simp] theorem State.setFld_cmd (s : State) (f : Fld) (v : Nat) : (s.setFld f v).cmd = s.cmd := State.setReg_cmd ..
@[simp] theorem State.setFld_log (s : State) (f : Fld) (v : Nat) : (s.setFld f v).log = s.log := State.setReg_log ..
@[simp] theorem State.setFld_locks (s : State) (f : Fld) (v : Nat) :
    (s.setFld f v).locks = s.locks := State.setReg_locks ..
@[simp] theorem State.setFld_arbs (s : State) (f : Fld) (v : Nat) :
    (s.setFld f v).arbs = s.arbs := State.setReg_arbs ..
@[simp] theorem State.setFld_evt (s : State) (f : Fld) (v : Nat) : (s.setFld f v).evt = s.evt := State.setReg_evt ..
@[simp] theorem State.setFld_time (s : State) (f : Fld) (v : Nat) :
    (s.setFld f v).time = s.time := State.setReg_time ..
@[simp] theorem State.setFld_msix (s : State) (f : Fld) (v : Nat) :
    (s.setFld f v).msix = s.msix := State.setReg_msix ..
@[simp] theorem State.setFld_motion (s : State) (f : Fld) (v : Nat) :
    (s.setFld f v).motion = s.motion := State.setReg_motion ..
@[simp] theorem State.setFld_ppos (s : State) (f : Fld) (v : Nat) :
    (s.setFld f v).ppos = s.ppos := State.setReg_ppos ..
@[simp] theorem State.setFld_mons (s : State) (f : Fld) (v : Nat) :
    (s.setFld f v).mons = s.mons := State.setReg_mons ..
@[simp] theorem State.setFld_lanes (s : State) (f : Fld) (v : Nat) :
    (s.setFld f v).lanes = s.lanes := State.setReg_lanes ..
@[simp] theorem State.setFld_chain (s : State) (f : Fld) (v : Nat) :
    (s.setFld f v).chain = s.chain := State.setReg_chain ..
@[simp] theorem State.setFld_rings (s : State) (f : Fld) (v : Nat) :
    (s.setFld f v).rings = s.rings := State.setReg_rings ..
@[simp] theorem State.setFld_hostSize (s : State) (f : Fld) (v : Nat) :
    (s.setFld f v).hostSize = s.hostSize := State.setReg_hostSize ..
@[simp] theorem State.setFld_chk (s : State) (f : Fld) (v : Nat) : (s.setFld f v).chk = s.chk := State.setReg_chk ..
@[simp] theorem State.setFld_ingest (s : State) (f : Fld) (v : Nat) :
    (s.setFld f v).ingest = s.ingest := State.setReg_ingest ..
@[simp] theorem State.setFld_job (s : State) (f : Fld) (v : Nat) : (s.setFld f v).job = s.job := State.setReg_job ..
@[simp] theorem State.setFld_bars (s : State) (f : Fld) (v : Nat) :
    (s.setFld f v).bars = s.bars := State.setReg_bars ..
@[simp] theorem State.setFld_fire (s : State) (f : Fld) (v : Nat) :
    (s.setFld f v).fire = s.fire := State.setReg_fire ..
@[simp] theorem State.setFld_nvc (s : State) (f : Fld) (v : Nat) : (s.setFld f v).nvc = s.nvc := State.setReg_nvc ..
@[simp] theorem State.setFld_eye (s : State) (f : Fld) (v : Nat) : (s.setFld f v).eye = s.eye := State.setReg_eye ..
@[simp] theorem State.setFld_insp (s : State) (f : Fld) (v : Nat) :
    (s.setFld f v).insp = s.insp := State.setReg_insp ..
@[simp] theorem State.setFld_noz (s : State) (f : Fld) (v : Nat) : (s.setFld f v).noz = s.noz := State.setReg_noz ..
@[simp] theorem State.setFld_spare (s : State) (f : Fld) (v : Nat) :
    (s.setFld f v).spare = s.spare := State.setReg_spare ..
@[simp] theorem State.setFld_latches (s : State) (f : Fld) (v : Nat) :
    (s.setFld f v).latches = s.latches := State.setReg_latches ..
@[simp] theorem State.setFld_pwr (s : State) (f : Fld) (v : Nat) : (s.setFld f v).pwr = s.pwr := State.setReg_pwr ..

/-! `setFlag` writes `regs` only. -/

@[simp] theorem State.setFlag_pending (s : State) (f : Fld) (b : Bool) :
    (s.setFlag f b).pending = s.pending := State.setFld_pending ..
@[simp] theorem State.setFlag_mem (s : State) (f : Fld) (b : Bool) :
    (s.setFlag f b).mem = s.mem := State.setFld_mem ..
@[simp] theorem State.setFlag_dram (s : State) (f : Fld) (b : Bool) :
    (s.setFlag f b).dram = s.dram := State.setFld_dram ..
@[simp] theorem State.setFlag_now (s : State) (f : Fld) (b : Bool) :
    (s.setFlag f b).now = s.now := State.setFld_now ..
@[simp] theorem State.setFlag_stateSince (s : State) (f : Fld) (b : Bool) :
    (s.setFlag f b).stateSince = s.stateSince := State.setFld_stateSince ..
@[simp] theorem State.setFlag_fresh (s : State) (f : Fld) (b : Bool) :
    (s.setFlag f b).fresh = s.fresh := State.setFld_fresh ..
@[simp] theorem State.setFlag_outbox (s : State) (f : Fld) (b : Bool) :
    (s.setFlag f b).outbox = s.outbox := State.setFld_outbox ..
@[simp] theorem State.setFlag_cmd (s : State) (f : Fld) (b : Bool) :
    (s.setFlag f b).cmd = s.cmd := State.setFld_cmd ..
@[simp] theorem State.setFlag_log (s : State) (f : Fld) (b : Bool) :
    (s.setFlag f b).log = s.log := State.setFld_log ..
@[simp] theorem State.setFlag_locks (s : State) (f : Fld) (b : Bool) :
    (s.setFlag f b).locks = s.locks := State.setFld_locks ..
@[simp] theorem State.setFlag_arbs (s : State) (f : Fld) (b : Bool) :
    (s.setFlag f b).arbs = s.arbs := State.setFld_arbs ..
@[simp] theorem State.setFlag_evt (s : State) (f : Fld) (b : Bool) :
    (s.setFlag f b).evt = s.evt := State.setFld_evt ..
@[simp] theorem State.setFlag_time (s : State) (f : Fld) (b : Bool) :
    (s.setFlag f b).time = s.time := State.setFld_time ..
@[simp] theorem State.setFlag_msix (s : State) (f : Fld) (b : Bool) :
    (s.setFlag f b).msix = s.msix := State.setFld_msix ..
@[simp] theorem State.setFlag_motion (s : State) (f : Fld) (b : Bool) :
    (s.setFlag f b).motion = s.motion := State.setFld_motion ..
@[simp] theorem State.setFlag_ppos (s : State) (f : Fld) (b : Bool) :
    (s.setFlag f b).ppos = s.ppos := State.setFld_ppos ..
@[simp] theorem State.setFlag_mons (s : State) (f : Fld) (b : Bool) :
    (s.setFlag f b).mons = s.mons := State.setFld_mons ..
@[simp] theorem State.setFlag_lanes (s : State) (f : Fld) (b : Bool) :
    (s.setFlag f b).lanes = s.lanes := State.setFld_lanes ..
@[simp] theorem State.setFlag_chain (s : State) (f : Fld) (b : Bool) :
    (s.setFlag f b).chain = s.chain := State.setFld_chain ..
@[simp] theorem State.setFlag_rings (s : State) (f : Fld) (b : Bool) :
    (s.setFlag f b).rings = s.rings := State.setFld_rings ..
@[simp] theorem State.setFlag_hostSize (s : State) (f : Fld) (b : Bool) :
    (s.setFlag f b).hostSize = s.hostSize := State.setFld_hostSize ..
@[simp] theorem State.setFlag_chk (s : State) (f : Fld) (b : Bool) :
    (s.setFlag f b).chk = s.chk := State.setFld_chk ..
@[simp] theorem State.setFlag_ingest (s : State) (f : Fld) (b : Bool) :
    (s.setFlag f b).ingest = s.ingest := State.setFld_ingest ..
@[simp] theorem State.setFlag_job (s : State) (f : Fld) (b : Bool) :
    (s.setFlag f b).job = s.job := State.setFld_job ..
@[simp] theorem State.setFlag_bars (s : State) (f : Fld) (b : Bool) :
    (s.setFlag f b).bars = s.bars := State.setFld_bars ..
@[simp] theorem State.setFlag_fire (s : State) (f : Fld) (b : Bool) :
    (s.setFlag f b).fire = s.fire := State.setFld_fire ..
@[simp] theorem State.setFlag_nvc (s : State) (f : Fld) (b : Bool) :
    (s.setFlag f b).nvc = s.nvc := State.setFld_nvc ..
@[simp] theorem State.setFlag_eye (s : State) (f : Fld) (b : Bool) :
    (s.setFlag f b).eye = s.eye := State.setFld_eye ..
@[simp] theorem State.setFlag_insp (s : State) (f : Fld) (b : Bool) :
    (s.setFlag f b).insp = s.insp := State.setFld_insp ..
@[simp] theorem State.setFlag_noz (s : State) (f : Fld) (b : Bool) :
    (s.setFlag f b).noz = s.noz := State.setFld_noz ..
@[simp] theorem State.setFlag_spare (s : State) (f : Fld) (b : Bool) :
    (s.setFlag f b).spare = s.spare := State.setFld_spare ..
@[simp] theorem State.setFlag_latches (s : State) (f : Fld) (b : Bool) :
    (s.setFlag f b).latches = s.latches := State.setFld_latches ..
@[simp] theorem State.setFlag_pwr (s : State) (f : Fld) (b : Bool) :
    (s.setFlag f b).pwr = s.pwr := State.setFld_pwr ..

/-! `setFldI` writes `regs` only. -/

@[simp] theorem State.setFldI_pending (s : State) (f : Fld) (x : Int) :
    (s.setFldI f x).pending = s.pending := State.setFld_pending ..
@[simp] theorem State.setFldI_mem (s : State) (f : Fld) (x : Int) : (s.setFldI f x).mem = s.mem := State.setFld_mem ..
@[simp] theorem State.setFldI_dram (s : State) (f : Fld) (x : Int) :
    (s.setFldI f x).dram = s.dram := State.setFld_dram ..
@[simp] theorem State.setFldI_now (s : State) (f : Fld) (x : Int) : (s.setFldI f x).now = s.now := State.setFld_now ..
@[simp] theorem State.setFldI_stateSince (s : State) (f : Fld) (x : Int) :
    (s.setFldI f x).stateSince = s.stateSince := State.setFld_stateSince ..
@[simp] theorem State.setFldI_fresh (s : State) (f : Fld) (x : Int) :
    (s.setFldI f x).fresh = s.fresh := State.setFld_fresh ..
@[simp] theorem State.setFldI_outbox (s : State) (f : Fld) (x : Int) :
    (s.setFldI f x).outbox = s.outbox := State.setFld_outbox ..
@[simp] theorem State.setFldI_cmd (s : State) (f : Fld) (x : Int) : (s.setFldI f x).cmd = s.cmd := State.setFld_cmd ..
@[simp] theorem State.setFldI_log (s : State) (f : Fld) (x : Int) : (s.setFldI f x).log = s.log := State.setFld_log ..
@[simp] theorem State.setFldI_locks (s : State) (f : Fld) (x : Int) :
    (s.setFldI f x).locks = s.locks := State.setFld_locks ..
@[simp] theorem State.setFldI_arbs (s : State) (f : Fld) (x : Int) :
    (s.setFldI f x).arbs = s.arbs := State.setFld_arbs ..
@[simp] theorem State.setFldI_evt (s : State) (f : Fld) (x : Int) : (s.setFldI f x).evt = s.evt := State.setFld_evt ..
@[simp] theorem State.setFldI_time (s : State) (f : Fld) (x : Int) :
    (s.setFldI f x).time = s.time := State.setFld_time ..
@[simp] theorem State.setFldI_msix (s : State) (f : Fld) (x : Int) :
    (s.setFldI f x).msix = s.msix := State.setFld_msix ..
@[simp] theorem State.setFldI_motion (s : State) (f : Fld) (x : Int) :
    (s.setFldI f x).motion = s.motion := State.setFld_motion ..
@[simp] theorem State.setFldI_ppos (s : State) (f : Fld) (x : Int) :
    (s.setFldI f x).ppos = s.ppos := State.setFld_ppos ..
@[simp] theorem State.setFldI_mons (s : State) (f : Fld) (x : Int) :
    (s.setFldI f x).mons = s.mons := State.setFld_mons ..
@[simp] theorem State.setFldI_lanes (s : State) (f : Fld) (x : Int) :
    (s.setFldI f x).lanes = s.lanes := State.setFld_lanes ..
@[simp] theorem State.setFldI_chain (s : State) (f : Fld) (x : Int) :
    (s.setFldI f x).chain = s.chain := State.setFld_chain ..
@[simp] theorem State.setFldI_rings (s : State) (f : Fld) (x : Int) :
    (s.setFldI f x).rings = s.rings := State.setFld_rings ..
@[simp] theorem State.setFldI_hostSize (s : State) (f : Fld) (x : Int) :
    (s.setFldI f x).hostSize = s.hostSize := State.setFld_hostSize ..
@[simp] theorem State.setFldI_chk (s : State) (f : Fld) (x : Int) : (s.setFldI f x).chk = s.chk := State.setFld_chk ..
@[simp] theorem State.setFldI_ingest (s : State) (f : Fld) (x : Int) :
    (s.setFldI f x).ingest = s.ingest := State.setFld_ingest ..
@[simp] theorem State.setFldI_job (s : State) (f : Fld) (x : Int) : (s.setFldI f x).job = s.job := State.setFld_job ..
@[simp] theorem State.setFldI_bars (s : State) (f : Fld) (x : Int) :
    (s.setFldI f x).bars = s.bars := State.setFld_bars ..
@[simp] theorem State.setFldI_fire (s : State) (f : Fld) (x : Int) :
    (s.setFldI f x).fire = s.fire := State.setFld_fire ..
@[simp] theorem State.setFldI_nvc (s : State) (f : Fld) (x : Int) : (s.setFldI f x).nvc = s.nvc := State.setFld_nvc ..
@[simp] theorem State.setFldI_eye (s : State) (f : Fld) (x : Int) : (s.setFldI f x).eye = s.eye := State.setFld_eye ..
@[simp] theorem State.setFldI_insp (s : State) (f : Fld) (x : Int) :
    (s.setFldI f x).insp = s.insp := State.setFld_insp ..
@[simp] theorem State.setFldI_noz (s : State) (f : Fld) (x : Int) : (s.setFldI f x).noz = s.noz := State.setFld_noz ..
@[simp] theorem State.setFldI_spare (s : State) (f : Fld) (x : Int) :
    (s.setFldI f x).spare = s.spare := State.setFld_spare ..
@[simp] theorem State.setFldI_latches (s : State) (f : Fld) (x : Int) :
    (s.setFldI f x).latches = s.latches := State.setFld_latches ..
@[simp] theorem State.setFldI_pwr (s : State) (f : Fld) (x : Int) : (s.setFldI f x).pwr = s.pwr := State.setFld_pwr ..

/-! `bump` writes `regs` only. -/

@[simp] theorem State.bump_pending (s : State) (f : Fld) (n : Nat) :
    (s.bump f n).pending = s.pending := State.setFld_pending ..
@[simp] theorem State.bump_mem (s : State) (f : Fld) (n : Nat) : (s.bump f n).mem = s.mem := State.setFld_mem ..
@[simp] theorem State.bump_dram (s : State) (f : Fld) (n : Nat) : (s.bump f n).dram = s.dram := State.setFld_dram ..
@[simp] theorem State.bump_now (s : State) (f : Fld) (n : Nat) : (s.bump f n).now = s.now := State.setFld_now ..
@[simp] theorem State.bump_stateSince (s : State) (f : Fld) (n : Nat) :
    (s.bump f n).stateSince = s.stateSince := State.setFld_stateSince ..
@[simp] theorem State.bump_fresh (s : State) (f : Fld) (n : Nat) :
    (s.bump f n).fresh = s.fresh := State.setFld_fresh ..
@[simp] theorem State.bump_outbox (s : State) (f : Fld) (n : Nat) :
    (s.bump f n).outbox = s.outbox := State.setFld_outbox ..
@[simp] theorem State.bump_cmd (s : State) (f : Fld) (n : Nat) : (s.bump f n).cmd = s.cmd := State.setFld_cmd ..
@[simp] theorem State.bump_log (s : State) (f : Fld) (n : Nat) : (s.bump f n).log = s.log := State.setFld_log ..
@[simp] theorem State.bump_locks (s : State) (f : Fld) (n : Nat) :
    (s.bump f n).locks = s.locks := State.setFld_locks ..
@[simp] theorem State.bump_arbs (s : State) (f : Fld) (n : Nat) : (s.bump f n).arbs = s.arbs := State.setFld_arbs ..
@[simp] theorem State.bump_evt (s : State) (f : Fld) (n : Nat) : (s.bump f n).evt = s.evt := State.setFld_evt ..
@[simp] theorem State.bump_time (s : State) (f : Fld) (n : Nat) : (s.bump f n).time = s.time := State.setFld_time ..
@[simp] theorem State.bump_msix (s : State) (f : Fld) (n : Nat) : (s.bump f n).msix = s.msix := State.setFld_msix ..
@[simp] theorem State.bump_motion (s : State) (f : Fld) (n : Nat) :
    (s.bump f n).motion = s.motion := State.setFld_motion ..
@[simp] theorem State.bump_ppos (s : State) (f : Fld) (n : Nat) : (s.bump f n).ppos = s.ppos := State.setFld_ppos ..
@[simp] theorem State.bump_mons (s : State) (f : Fld) (n : Nat) : (s.bump f n).mons = s.mons := State.setFld_mons ..
@[simp] theorem State.bump_lanes (s : State) (f : Fld) (n : Nat) :
    (s.bump f n).lanes = s.lanes := State.setFld_lanes ..
@[simp] theorem State.bump_chain (s : State) (f : Fld) (n : Nat) :
    (s.bump f n).chain = s.chain := State.setFld_chain ..
@[simp] theorem State.bump_rings (s : State) (f : Fld) (n : Nat) :
    (s.bump f n).rings = s.rings := State.setFld_rings ..
@[simp] theorem State.bump_hostSize (s : State) (f : Fld) (n : Nat) :
    (s.bump f n).hostSize = s.hostSize := State.setFld_hostSize ..
@[simp] theorem State.bump_chk (s : State) (f : Fld) (n : Nat) : (s.bump f n).chk = s.chk := State.setFld_chk ..
@[simp] theorem State.bump_ingest (s : State) (f : Fld) (n : Nat) :
    (s.bump f n).ingest = s.ingest := State.setFld_ingest ..
@[simp] theorem State.bump_job (s : State) (f : Fld) (n : Nat) : (s.bump f n).job = s.job := State.setFld_job ..
@[simp] theorem State.bump_bars (s : State) (f : Fld) (n : Nat) : (s.bump f n).bars = s.bars := State.setFld_bars ..
@[simp] theorem State.bump_fire (s : State) (f : Fld) (n : Nat) : (s.bump f n).fire = s.fire := State.setFld_fire ..
@[simp] theorem State.bump_nvc (s : State) (f : Fld) (n : Nat) : (s.bump f n).nvc = s.nvc := State.setFld_nvc ..
@[simp] theorem State.bump_eye (s : State) (f : Fld) (n : Nat) : (s.bump f n).eye = s.eye := State.setFld_eye ..
@[simp] theorem State.bump_insp (s : State) (f : Fld) (n : Nat) : (s.bump f n).insp = s.insp := State.setFld_insp ..
@[simp] theorem State.bump_noz (s : State) (f : Fld) (n : Nat) : (s.bump f n).noz = s.noz := State.setFld_noz ..
@[simp] theorem State.bump_spare (s : State) (f : Fld) (n : Nat) :
    (s.bump f n).spare = s.spare := State.setFld_spare ..
@[simp] theorem State.bump_latches (s : State) (f : Fld) (n : Nat) :
    (s.bump f n).latches = s.latches := State.setFld_latches ..
@[simp] theorem State.bump_pwr (s : State) (f : Fld) (n : Nat) : (s.bump f n).pwr = s.pwr := State.setFld_pwr ..

/-! `bumpWrap` writes `regs` only. -/

@[simp] theorem State.bumpWrap_pending (s : State) (f : Fld) (n : Nat) :
    (s.bumpWrap f n).pending = s.pending := State.setFld_pending ..
@[simp] theorem State.bumpWrap_mem (s : State) (f : Fld) (n : Nat) :
    (s.bumpWrap f n).mem = s.mem := State.setFld_mem ..
@[simp] theorem State.bumpWrap_dram (s : State) (f : Fld) (n : Nat) :
    (s.bumpWrap f n).dram = s.dram := State.setFld_dram ..
@[simp] theorem State.bumpWrap_now (s : State) (f : Fld) (n : Nat) :
    (s.bumpWrap f n).now = s.now := State.setFld_now ..
@[simp] theorem State.bumpWrap_stateSince (s : State) (f : Fld) (n : Nat) :
    (s.bumpWrap f n).stateSince = s.stateSince := State.setFld_stateSince ..
@[simp] theorem State.bumpWrap_fresh (s : State) (f : Fld) (n : Nat) :
    (s.bumpWrap f n).fresh = s.fresh := State.setFld_fresh ..
@[simp] theorem State.bumpWrap_outbox (s : State) (f : Fld) (n : Nat) :
    (s.bumpWrap f n).outbox = s.outbox := State.setFld_outbox ..
@[simp] theorem State.bumpWrap_cmd (s : State) (f : Fld) (n : Nat) :
    (s.bumpWrap f n).cmd = s.cmd := State.setFld_cmd ..
@[simp] theorem State.bumpWrap_log (s : State) (f : Fld) (n : Nat) :
    (s.bumpWrap f n).log = s.log := State.setFld_log ..
@[simp] theorem State.bumpWrap_locks (s : State) (f : Fld) (n : Nat) :
    (s.bumpWrap f n).locks = s.locks := State.setFld_locks ..
@[simp] theorem State.bumpWrap_arbs (s : State) (f : Fld) (n : Nat) :
    (s.bumpWrap f n).arbs = s.arbs := State.setFld_arbs ..
@[simp] theorem State.bumpWrap_evt (s : State) (f : Fld) (n : Nat) :
    (s.bumpWrap f n).evt = s.evt := State.setFld_evt ..
@[simp] theorem State.bumpWrap_time (s : State) (f : Fld) (n : Nat) :
    (s.bumpWrap f n).time = s.time := State.setFld_time ..
@[simp] theorem State.bumpWrap_msix (s : State) (f : Fld) (n : Nat) :
    (s.bumpWrap f n).msix = s.msix := State.setFld_msix ..
@[simp] theorem State.bumpWrap_motion (s : State) (f : Fld) (n : Nat) :
    (s.bumpWrap f n).motion = s.motion := State.setFld_motion ..
@[simp] theorem State.bumpWrap_ppos (s : State) (f : Fld) (n : Nat) :
    (s.bumpWrap f n).ppos = s.ppos := State.setFld_ppos ..
@[simp] theorem State.bumpWrap_mons (s : State) (f : Fld) (n : Nat) :
    (s.bumpWrap f n).mons = s.mons := State.setFld_mons ..
@[simp] theorem State.bumpWrap_lanes (s : State) (f : Fld) (n : Nat) :
    (s.bumpWrap f n).lanes = s.lanes := State.setFld_lanes ..
@[simp] theorem State.bumpWrap_chain (s : State) (f : Fld) (n : Nat) :
    (s.bumpWrap f n).chain = s.chain := State.setFld_chain ..
@[simp] theorem State.bumpWrap_rings (s : State) (f : Fld) (n : Nat) :
    (s.bumpWrap f n).rings = s.rings := State.setFld_rings ..
@[simp] theorem State.bumpWrap_hostSize (s : State) (f : Fld) (n : Nat) :
    (s.bumpWrap f n).hostSize = s.hostSize := State.setFld_hostSize ..
@[simp] theorem State.bumpWrap_chk (s : State) (f : Fld) (n : Nat) :
    (s.bumpWrap f n).chk = s.chk := State.setFld_chk ..
@[simp] theorem State.bumpWrap_ingest (s : State) (f : Fld) (n : Nat) :
    (s.bumpWrap f n).ingest = s.ingest := State.setFld_ingest ..
@[simp] theorem State.bumpWrap_job (s : State) (f : Fld) (n : Nat) :
    (s.bumpWrap f n).job = s.job := State.setFld_job ..
@[simp] theorem State.bumpWrap_bars (s : State) (f : Fld) (n : Nat) :
    (s.bumpWrap f n).bars = s.bars := State.setFld_bars ..
@[simp] theorem State.bumpWrap_fire (s : State) (f : Fld) (n : Nat) :
    (s.bumpWrap f n).fire = s.fire := State.setFld_fire ..
@[simp] theorem State.bumpWrap_nvc (s : State) (f : Fld) (n : Nat) :
    (s.bumpWrap f n).nvc = s.nvc := State.setFld_nvc ..
@[simp] theorem State.bumpWrap_eye (s : State) (f : Fld) (n : Nat) :
    (s.bumpWrap f n).eye = s.eye := State.setFld_eye ..
@[simp] theorem State.bumpWrap_insp (s : State) (f : Fld) (n : Nat) :
    (s.bumpWrap f n).insp = s.insp := State.setFld_insp ..
@[simp] theorem State.bumpWrap_noz (s : State) (f : Fld) (n : Nat) :
    (s.bumpWrap f n).noz = s.noz := State.setFld_noz ..
@[simp] theorem State.bumpWrap_spare (s : State) (f : Fld) (n : Nat) :
    (s.bumpWrap f n).spare = s.spare := State.setFld_spare ..
@[simp] theorem State.bumpWrap_latches (s : State) (f : Fld) (n : Nat) :
    (s.bumpWrap f n).latches = s.latches := State.setFld_latches ..
@[simp] theorem State.bumpWrap_pwr (s : State) (f : Fld) (n : Nat) :
    (s.bumpWrap f n).pwr = s.pwr := State.setFld_pwr ..

/-! `emit` writes `outbox` only. -/

@[simp] theorem State.emit_pending (s : State) (o : Out) : (s.emit o).pending = s.pending := (rfl)
@[simp] theorem State.emit_regs (s : State) (o : Out) : (s.emit o).regs = s.regs := (rfl)
@[simp] theorem State.emit_mem (s : State) (o : Out) : (s.emit o).mem = s.mem := (rfl)
@[simp] theorem State.emit_dram (s : State) (o : Out) : (s.emit o).dram = s.dram := (rfl)
@[simp] theorem State.emit_now (s : State) (o : Out) : (s.emit o).now = s.now := (rfl)
@[simp] theorem State.emit_stateSince (s : State) (o : Out) : (s.emit o).stateSince = s.stateSince := (rfl)
@[simp] theorem State.emit_fresh (s : State) (o : Out) : (s.emit o).fresh = s.fresh := (rfl)
@[simp] theorem State.emit_cmd (s : State) (o : Out) : (s.emit o).cmd = s.cmd := (rfl)
@[simp] theorem State.emit_log (s : State) (o : Out) : (s.emit o).log = s.log := (rfl)
@[simp] theorem State.emit_locks (s : State) (o : Out) : (s.emit o).locks = s.locks := (rfl)
@[simp] theorem State.emit_arbs (s : State) (o : Out) : (s.emit o).arbs = s.arbs := (rfl)
@[simp] theorem State.emit_evt (s : State) (o : Out) : (s.emit o).evt = s.evt := (rfl)
@[simp] theorem State.emit_time (s : State) (o : Out) : (s.emit o).time = s.time := (rfl)
@[simp] theorem State.emit_msix (s : State) (o : Out) : (s.emit o).msix = s.msix := (rfl)
@[simp] theorem State.emit_motion (s : State) (o : Out) : (s.emit o).motion = s.motion := (rfl)
@[simp] theorem State.emit_ppos (s : State) (o : Out) : (s.emit o).ppos = s.ppos := (rfl)
@[simp] theorem State.emit_mons (s : State) (o : Out) : (s.emit o).mons = s.mons := (rfl)
@[simp] theorem State.emit_lanes (s : State) (o : Out) : (s.emit o).lanes = s.lanes := (rfl)
@[simp] theorem State.emit_chain (s : State) (o : Out) : (s.emit o).chain = s.chain := (rfl)
@[simp] theorem State.emit_rings (s : State) (o : Out) : (s.emit o).rings = s.rings := (rfl)
@[simp] theorem State.emit_hostSize (s : State) (o : Out) : (s.emit o).hostSize = s.hostSize := (rfl)
@[simp] theorem State.emit_chk (s : State) (o : Out) : (s.emit o).chk = s.chk := (rfl)
@[simp] theorem State.emit_ingest (s : State) (o : Out) : (s.emit o).ingest = s.ingest := (rfl)
@[simp] theorem State.emit_job (s : State) (o : Out) : (s.emit o).job = s.job := (rfl)
@[simp] theorem State.emit_bars (s : State) (o : Out) : (s.emit o).bars = s.bars := (rfl)
@[simp] theorem State.emit_fire (s : State) (o : Out) : (s.emit o).fire = s.fire := (rfl)
@[simp] theorem State.emit_nvc (s : State) (o : Out) : (s.emit o).nvc = s.nvc := (rfl)
@[simp] theorem State.emit_eye (s : State) (o : Out) : (s.emit o).eye = s.eye := (rfl)
@[simp] theorem State.emit_insp (s : State) (o : Out) : (s.emit o).insp = s.insp := (rfl)
@[simp] theorem State.emit_noz (s : State) (o : Out) : (s.emit o).noz = s.noz := (rfl)
@[simp] theorem State.emit_spare (s : State) (o : Out) : (s.emit o).spare = s.spare := (rfl)
@[simp] theorem State.emit_latches (s : State) (o : Out) : (s.emit o).latches = s.latches := (rfl)
@[simp] theorem State.emit_pwr (s : State) (o : Out) : (s.emit o).pwr = s.pwr := (rfl)

/-! `log1` writes `regs` and `log` only. -/

@[simp] theorem State.log1_pending (s : State) (code block inst cond : Nat) (detail : List Nat) :
    (s.log1 code block inst cond detail).pending = s.pending := by
  unfold State.log1; simp only [State.bumpWrap_pending]
@[simp] theorem State.log1_mem (s : State) (code block inst cond : Nat) (detail : List Nat) :
    (s.log1 code block inst cond detail).mem = s.mem := by
  unfold State.log1; simp only [State.bumpWrap_mem]
@[simp] theorem State.log1_dram (s : State) (code block inst cond : Nat) (detail : List Nat) :
    (s.log1 code block inst cond detail).dram = s.dram := by
  unfold State.log1; simp only [State.bumpWrap_dram]
@[simp] theorem State.log1_now (s : State) (code block inst cond : Nat) (detail : List Nat) :
    (s.log1 code block inst cond detail).now = s.now := by
  unfold State.log1; simp only [State.bumpWrap_now]
@[simp] theorem State.log1_stateSince (s : State) (code block inst cond : Nat) (detail : List Nat) :
    (s.log1 code block inst cond detail).stateSince = s.stateSince := by
  unfold State.log1; simp only [State.bumpWrap_stateSince]
@[simp] theorem State.log1_fresh (s : State) (code block inst cond : Nat) (detail : List Nat) :
    (s.log1 code block inst cond detail).fresh = s.fresh := by
  unfold State.log1; simp only [State.bumpWrap_fresh]
@[simp] theorem State.log1_outbox (s : State) (code block inst cond : Nat) (detail : List Nat) :
    (s.log1 code block inst cond detail).outbox = s.outbox := by
  unfold State.log1; simp only [State.bumpWrap_outbox]
@[simp] theorem State.log1_cmd (s : State) (code block inst cond : Nat) (detail : List Nat) :
    (s.log1 code block inst cond detail).cmd = s.cmd := by
  unfold State.log1; simp only [State.bumpWrap_cmd]
@[simp] theorem State.log1_locks (s : State) (code block inst cond : Nat) (detail : List Nat) :
    (s.log1 code block inst cond detail).locks = s.locks := by
  unfold State.log1; simp only [State.bumpWrap_locks]
@[simp] theorem State.log1_arbs (s : State) (code block inst cond : Nat) (detail : List Nat) :
    (s.log1 code block inst cond detail).arbs = s.arbs := by
  unfold State.log1; simp only [State.bumpWrap_arbs]
@[simp] theorem State.log1_evt (s : State) (code block inst cond : Nat) (detail : List Nat) :
    (s.log1 code block inst cond detail).evt = s.evt := by
  unfold State.log1; simp only [State.bumpWrap_evt]
@[simp] theorem State.log1_time (s : State) (code block inst cond : Nat) (detail : List Nat) :
    (s.log1 code block inst cond detail).time = s.time := by
  unfold State.log1; simp only [State.bumpWrap_time]
@[simp] theorem State.log1_msix (s : State) (code block inst cond : Nat) (detail : List Nat) :
    (s.log1 code block inst cond detail).msix = s.msix := by
  unfold State.log1; simp only [State.bumpWrap_msix]
@[simp] theorem State.log1_motion (s : State) (code block inst cond : Nat) (detail : List Nat) :
    (s.log1 code block inst cond detail).motion = s.motion := by
  unfold State.log1; simp only [State.bumpWrap_motion]
@[simp] theorem State.log1_ppos (s : State) (code block inst cond : Nat) (detail : List Nat) :
    (s.log1 code block inst cond detail).ppos = s.ppos := by
  unfold State.log1; simp only [State.bumpWrap_ppos]
@[simp] theorem State.log1_mons (s : State) (code block inst cond : Nat) (detail : List Nat) :
    (s.log1 code block inst cond detail).mons = s.mons := by
  unfold State.log1; simp only [State.bumpWrap_mons]
@[simp] theorem State.log1_lanes (s : State) (code block inst cond : Nat) (detail : List Nat) :
    (s.log1 code block inst cond detail).lanes = s.lanes := by
  unfold State.log1; simp only [State.bumpWrap_lanes]
@[simp] theorem State.log1_chain (s : State) (code block inst cond : Nat) (detail : List Nat) :
    (s.log1 code block inst cond detail).chain = s.chain := by
  unfold State.log1; simp only [State.bumpWrap_chain]
@[simp] theorem State.log1_rings (s : State) (code block inst cond : Nat) (detail : List Nat) :
    (s.log1 code block inst cond detail).rings = s.rings := by
  unfold State.log1; simp only [State.bumpWrap_rings]
@[simp] theorem State.log1_hostSize (s : State) (code block inst cond : Nat) (detail : List Nat) :
    (s.log1 code block inst cond detail).hostSize = s.hostSize := by
  unfold State.log1; simp only [State.bumpWrap_hostSize]
@[simp] theorem State.log1_chk (s : State) (code block inst cond : Nat) (detail : List Nat) :
    (s.log1 code block inst cond detail).chk = s.chk := by
  unfold State.log1; simp only [State.bumpWrap_chk]
@[simp] theorem State.log1_ingest (s : State) (code block inst cond : Nat) (detail : List Nat) :
    (s.log1 code block inst cond detail).ingest = s.ingest := by
  unfold State.log1; simp only [State.bumpWrap_ingest]
@[simp] theorem State.log1_job (s : State) (code block inst cond : Nat) (detail : List Nat) :
    (s.log1 code block inst cond detail).job = s.job := by
  unfold State.log1; simp only [State.bumpWrap_job]
@[simp] theorem State.log1_bars (s : State) (code block inst cond : Nat) (detail : List Nat) :
    (s.log1 code block inst cond detail).bars = s.bars := by
  unfold State.log1; simp only [State.bumpWrap_bars]
@[simp] theorem State.log1_fire (s : State) (code block inst cond : Nat) (detail : List Nat) :
    (s.log1 code block inst cond detail).fire = s.fire := by
  unfold State.log1; simp only [State.bumpWrap_fire]
@[simp] theorem State.log1_nvc (s : State) (code block inst cond : Nat) (detail : List Nat) :
    (s.log1 code block inst cond detail).nvc = s.nvc := by
  unfold State.log1; simp only [State.bumpWrap_nvc]
@[simp] theorem State.log1_eye (s : State) (code block inst cond : Nat) (detail : List Nat) :
    (s.log1 code block inst cond detail).eye = s.eye := by
  unfold State.log1; simp only [State.bumpWrap_eye]
@[simp] theorem State.log1_insp (s : State) (code block inst cond : Nat) (detail : List Nat) :
    (s.log1 code block inst cond detail).insp = s.insp := by
  unfold State.log1; simp only [State.bumpWrap_insp]
@[simp] theorem State.log1_noz (s : State) (code block inst cond : Nat) (detail : List Nat) :
    (s.log1 code block inst cond detail).noz = s.noz := by
  unfold State.log1; simp only [State.bumpWrap_noz]
@[simp] theorem State.log1_spare (s : State) (code block inst cond : Nat) (detail : List Nat) :
    (s.log1 code block inst cond detail).spare = s.spare := by
  unfold State.log1; simp only [State.bumpWrap_spare]
@[simp] theorem State.log1_latches (s : State) (code block inst cond : Nat) (detail : List Nat) :
    (s.log1 code block inst cond detail).latches = s.latches := by
  unfold State.log1; simp only [State.bumpWrap_latches]
@[simp] theorem State.log1_pwr (s : State) (code block inst cond : Nat) (detail : List Nat) :
    (s.log1 code block inst cond detail).pwr = s.pwr := by
  unfold State.log1; simp only [State.bumpWrap_pwr]

/-! `setClock` writes `time` only. -/

@[simp] theorem State.setClock_pending (s : State) (d : Nat) (c : Clock) :
    (s.setClock d c).pending = s.pending := (rfl)
@[simp] theorem State.setClock_regs (s : State) (d : Nat) (c : Clock) : (s.setClock d c).regs = s.regs := (rfl)
@[simp] theorem State.setClock_mem (s : State) (d : Nat) (c : Clock) : (s.setClock d c).mem = s.mem := (rfl)
@[simp] theorem State.setClock_dram (s : State) (d : Nat) (c : Clock) : (s.setClock d c).dram = s.dram := (rfl)
@[simp] theorem State.setClock_now (s : State) (d : Nat) (c : Clock) : (s.setClock d c).now = s.now := (rfl)
@[simp] theorem State.setClock_stateSince (s : State) (d : Nat) (c : Clock) :
    (s.setClock d c).stateSince = s.stateSince := (rfl)
@[simp] theorem State.setClock_fresh (s : State) (d : Nat) (c : Clock) : (s.setClock d c).fresh = s.fresh := (rfl)
@[simp] theorem State.setClock_outbox (s : State) (d : Nat) (c : Clock) : (s.setClock d c).outbox = s.outbox := (rfl)
@[simp] theorem State.setClock_cmd (s : State) (d : Nat) (c : Clock) : (s.setClock d c).cmd = s.cmd := (rfl)
@[simp] theorem State.setClock_log (s : State) (d : Nat) (c : Clock) : (s.setClock d c).log = s.log := (rfl)
@[simp] theorem State.setClock_locks (s : State) (d : Nat) (c : Clock) : (s.setClock d c).locks = s.locks := (rfl)
@[simp] theorem State.setClock_arbs (s : State) (d : Nat) (c : Clock) : (s.setClock d c).arbs = s.arbs := (rfl)
@[simp] theorem State.setClock_evt (s : State) (d : Nat) (c : Clock) : (s.setClock d c).evt = s.evt := (rfl)
@[simp] theorem State.setClock_msix (s : State) (d : Nat) (c : Clock) : (s.setClock d c).msix = s.msix := (rfl)
@[simp] theorem State.setClock_motion (s : State) (d : Nat) (c : Clock) : (s.setClock d c).motion = s.motion := (rfl)
@[simp] theorem State.setClock_ppos (s : State) (d : Nat) (c : Clock) : (s.setClock d c).ppos = s.ppos := (rfl)
@[simp] theorem State.setClock_mons (s : State) (d : Nat) (c : Clock) : (s.setClock d c).mons = s.mons := (rfl)
@[simp] theorem State.setClock_lanes (s : State) (d : Nat) (c : Clock) : (s.setClock d c).lanes = s.lanes := (rfl)
@[simp] theorem State.setClock_chain (s : State) (d : Nat) (c : Clock) : (s.setClock d c).chain = s.chain := (rfl)
@[simp] theorem State.setClock_rings (s : State) (d : Nat) (c : Clock) : (s.setClock d c).rings = s.rings := (rfl)
@[simp] theorem State.setClock_hostSize (s : State) (d : Nat) (c : Clock) :
    (s.setClock d c).hostSize = s.hostSize := (rfl)
@[simp] theorem State.setClock_chk (s : State) (d : Nat) (c : Clock) : (s.setClock d c).chk = s.chk := (rfl)
@[simp] theorem State.setClock_ingest (s : State) (d : Nat) (c : Clock) : (s.setClock d c).ingest = s.ingest := (rfl)
@[simp] theorem State.setClock_job (s : State) (d : Nat) (c : Clock) : (s.setClock d c).job = s.job := (rfl)
@[simp] theorem State.setClock_bars (s : State) (d : Nat) (c : Clock) : (s.setClock d c).bars = s.bars := (rfl)
@[simp] theorem State.setClock_fire (s : State) (d : Nat) (c : Clock) : (s.setClock d c).fire = s.fire := (rfl)
@[simp] theorem State.setClock_nvc (s : State) (d : Nat) (c : Clock) : (s.setClock d c).nvc = s.nvc := (rfl)
@[simp] theorem State.setClock_eye (s : State) (d : Nat) (c : Clock) : (s.setClock d c).eye = s.eye := (rfl)
@[simp] theorem State.setClock_insp (s : State) (d : Nat) (c : Clock) : (s.setClock d c).insp = s.insp := (rfl)
@[simp] theorem State.setClock_noz (s : State) (d : Nat) (c : Clock) : (s.setClock d c).noz = s.noz := (rfl)
@[simp] theorem State.setClock_spare (s : State) (d : Nat) (c : Clock) : (s.setClock d c).spare = s.spare := (rfl)
@[simp] theorem State.setClock_latches (s : State) (d : Nat) (c : Clock) :
    (s.setClock d c).latches = s.latches := (rfl)
@[simp] theorem State.setClock_pwr (s : State) (d : Nat) (c : Clock) : (s.setClock d c).pwr = s.pwr := (rfl)

/-! `setRing` writes `cmd` only. -/

@[simp] theorem State.setRing_pending (s : State) (r : Nat) (x : Ring) : (s.setRing r x).pending = s.pending := (rfl)
@[simp] theorem State.setRing_regs (s : State) (r : Nat) (x : Ring) : (s.setRing r x).regs = s.regs := (rfl)
@[simp] theorem State.setRing_mem (s : State) (r : Nat) (x : Ring) : (s.setRing r x).mem = s.mem := (rfl)
@[simp] theorem State.setRing_dram (s : State) (r : Nat) (x : Ring) : (s.setRing r x).dram = s.dram := (rfl)
@[simp] theorem State.setRing_now (s : State) (r : Nat) (x : Ring) : (s.setRing r x).now = s.now := (rfl)
@[simp] theorem State.setRing_stateSince (s : State) (r : Nat) (x : Ring) :
    (s.setRing r x).stateSince = s.stateSince := (rfl)
@[simp] theorem State.setRing_fresh (s : State) (r : Nat) (x : Ring) : (s.setRing r x).fresh = s.fresh := (rfl)
@[simp] theorem State.setRing_outbox (s : State) (r : Nat) (x : Ring) : (s.setRing r x).outbox = s.outbox := (rfl)
@[simp] theorem State.setRing_log (s : State) (r : Nat) (x : Ring) : (s.setRing r x).log = s.log := (rfl)
@[simp] theorem State.setRing_locks (s : State) (r : Nat) (x : Ring) : (s.setRing r x).locks = s.locks := (rfl)
@[simp] theorem State.setRing_arbs (s : State) (r : Nat) (x : Ring) : (s.setRing r x).arbs = s.arbs := (rfl)
@[simp] theorem State.setRing_evt (s : State) (r : Nat) (x : Ring) : (s.setRing r x).evt = s.evt := (rfl)
@[simp] theorem State.setRing_time (s : State) (r : Nat) (x : Ring) : (s.setRing r x).time = s.time := (rfl)
@[simp] theorem State.setRing_msix (s : State) (r : Nat) (x : Ring) : (s.setRing r x).msix = s.msix := (rfl)
@[simp] theorem State.setRing_motion (s : State) (r : Nat) (x : Ring) : (s.setRing r x).motion = s.motion := (rfl)
@[simp] theorem State.setRing_ppos (s : State) (r : Nat) (x : Ring) : (s.setRing r x).ppos = s.ppos := (rfl)
@[simp] theorem State.setRing_mons (s : State) (r : Nat) (x : Ring) : (s.setRing r x).mons = s.mons := (rfl)
@[simp] theorem State.setRing_lanes (s : State) (r : Nat) (x : Ring) : (s.setRing r x).lanes = s.lanes := (rfl)
@[simp] theorem State.setRing_chain (s : State) (r : Nat) (x : Ring) : (s.setRing r x).chain = s.chain := (rfl)
@[simp] theorem State.setRing_rings (s : State) (r : Nat) (x : Ring) : (s.setRing r x).rings = s.rings := (rfl)
@[simp] theorem State.setRing_hostSize (s : State) (r : Nat) (x : Ring) :
    (s.setRing r x).hostSize = s.hostSize := (rfl)
@[simp] theorem State.setRing_chk (s : State) (r : Nat) (x : Ring) : (s.setRing r x).chk = s.chk := (rfl)
@[simp] theorem State.setRing_ingest (s : State) (r : Nat) (x : Ring) : (s.setRing r x).ingest = s.ingest := (rfl)
@[simp] theorem State.setRing_job (s : State) (r : Nat) (x : Ring) : (s.setRing r x).job = s.job := (rfl)
@[simp] theorem State.setRing_bars (s : State) (r : Nat) (x : Ring) : (s.setRing r x).bars = s.bars := (rfl)
@[simp] theorem State.setRing_fire (s : State) (r : Nat) (x : Ring) : (s.setRing r x).fire = s.fire := (rfl)
@[simp] theorem State.setRing_nvc (s : State) (r : Nat) (x : Ring) : (s.setRing r x).nvc = s.nvc := (rfl)
@[simp] theorem State.setRing_eye (s : State) (r : Nat) (x : Ring) : (s.setRing r x).eye = s.eye := (rfl)
@[simp] theorem State.setRing_insp (s : State) (r : Nat) (x : Ring) : (s.setRing r x).insp = s.insp := (rfl)
@[simp] theorem State.setRing_noz (s : State) (r : Nat) (x : Ring) : (s.setRing r x).noz = s.noz := (rfl)
@[simp] theorem State.setRing_spare (s : State) (r : Nat) (x : Ring) : (s.setRing r x).spare = s.spare := (rfl)
@[simp] theorem State.setRing_latches (s : State) (r : Nat) (x : Ring) : (s.setRing r x).latches = s.latches := (rfl)
@[simp] theorem State.setRing_pwr (s : State) (r : Nat) (x : Ring) : (s.setRing r x).pwr = s.pwr := (rfl)

/-! `setSession` writes `cmd` only. -/

@[simp] theorem State.setSession_pending (s : State) (n : Nat) (x : Session) :
    (s.setSession n x).pending = s.pending := (rfl)
@[simp] theorem State.setSession_regs (s : State) (n : Nat) (x : Session) : (s.setSession n x).regs = s.regs := (rfl)
@[simp] theorem State.setSession_mem (s : State) (n : Nat) (x : Session) : (s.setSession n x).mem = s.mem := (rfl)
@[simp] theorem State.setSession_dram (s : State) (n : Nat) (x : Session) : (s.setSession n x).dram = s.dram := (rfl)
@[simp] theorem State.setSession_now (s : State) (n : Nat) (x : Session) : (s.setSession n x).now = s.now := (rfl)
@[simp] theorem State.setSession_stateSince (s : State) (n : Nat) (x : Session) :
    (s.setSession n x).stateSince = s.stateSince := (rfl)
@[simp] theorem State.setSession_fresh (s : State) (n : Nat) (x : Session) :
    (s.setSession n x).fresh = s.fresh := (rfl)
@[simp] theorem State.setSession_outbox (s : State) (n : Nat) (x : Session) :
    (s.setSession n x).outbox = s.outbox := (rfl)
@[simp] theorem State.setSession_log (s : State) (n : Nat) (x : Session) : (s.setSession n x).log = s.log := (rfl)
@[simp] theorem State.setSession_locks (s : State) (n : Nat) (x : Session) :
    (s.setSession n x).locks = s.locks := (rfl)
@[simp] theorem State.setSession_arbs (s : State) (n : Nat) (x : Session) : (s.setSession n x).arbs = s.arbs := (rfl)
@[simp] theorem State.setSession_evt (s : State) (n : Nat) (x : Session) : (s.setSession n x).evt = s.evt := (rfl)
@[simp] theorem State.setSession_time (s : State) (n : Nat) (x : Session) : (s.setSession n x).time = s.time := (rfl)
@[simp] theorem State.setSession_msix (s : State) (n : Nat) (x : Session) : (s.setSession n x).msix = s.msix := (rfl)
@[simp] theorem State.setSession_motion (s : State) (n : Nat) (x : Session) :
    (s.setSession n x).motion = s.motion := (rfl)
@[simp] theorem State.setSession_ppos (s : State) (n : Nat) (x : Session) : (s.setSession n x).ppos = s.ppos := (rfl)
@[simp] theorem State.setSession_mons (s : State) (n : Nat) (x : Session) : (s.setSession n x).mons = s.mons := (rfl)
@[simp] theorem State.setSession_lanes (s : State) (n : Nat) (x : Session) :
    (s.setSession n x).lanes = s.lanes := (rfl)
@[simp] theorem State.setSession_chain (s : State) (n : Nat) (x : Session) :
    (s.setSession n x).chain = s.chain := (rfl)
@[simp] theorem State.setSession_rings (s : State) (n : Nat) (x : Session) :
    (s.setSession n x).rings = s.rings := (rfl)
@[simp] theorem State.setSession_hostSize (s : State) (n : Nat) (x : Session) :
    (s.setSession n x).hostSize = s.hostSize := (rfl)
@[simp] theorem State.setSession_chk (s : State) (n : Nat) (x : Session) : (s.setSession n x).chk = s.chk := (rfl)
@[simp] theorem State.setSession_ingest (s : State) (n : Nat) (x : Session) :
    (s.setSession n x).ingest = s.ingest := (rfl)
@[simp] theorem State.setSession_job (s : State) (n : Nat) (x : Session) : (s.setSession n x).job = s.job := (rfl)
@[simp] theorem State.setSession_bars (s : State) (n : Nat) (x : Session) : (s.setSession n x).bars = s.bars := (rfl)
@[simp] theorem State.setSession_fire (s : State) (n : Nat) (x : Session) : (s.setSession n x).fire = s.fire := (rfl)
@[simp] theorem State.setSession_nvc (s : State) (n : Nat) (x : Session) : (s.setSession n x).nvc = s.nvc := (rfl)
@[simp] theorem State.setSession_eye (s : State) (n : Nat) (x : Session) : (s.setSession n x).eye = s.eye := (rfl)
@[simp] theorem State.setSession_insp (s : State) (n : Nat) (x : Session) : (s.setSession n x).insp = s.insp := (rfl)
@[simp] theorem State.setSession_noz (s : State) (n : Nat) (x : Session) : (s.setSession n x).noz = s.noz := (rfl)
@[simp] theorem State.setSession_spare (s : State) (n : Nat) (x : Session) :
    (s.setSession n x).spare = s.spare := (rfl)
@[simp] theorem State.setSession_latches (s : State) (n : Nat) (x : Session) :
    (s.setSession n x).latches = s.latches := (rfl)
@[simp] theorem State.setSession_pwr (s : State) (n : Nat) (x : Session) : (s.setSession n x).pwr = s.pwr := (rfl)

/-! `setSlot` writes `cmd` only. -/

@[simp] theorem State.setSlot_pending (s : State) (n t : Nat) (x : Slot) :
    (s.setSlot n t x).pending = s.pending := (rfl)
@[simp] theorem State.setSlot_regs (s : State) (n t : Nat) (x : Slot) : (s.setSlot n t x).regs = s.regs := (rfl)
@[simp] theorem State.setSlot_mem (s : State) (n t : Nat) (x : Slot) : (s.setSlot n t x).mem = s.mem := (rfl)
@[simp] theorem State.setSlot_dram (s : State) (n t : Nat) (x : Slot) : (s.setSlot n t x).dram = s.dram := (rfl)
@[simp] theorem State.setSlot_now (s : State) (n t : Nat) (x : Slot) : (s.setSlot n t x).now = s.now := (rfl)
@[simp] theorem State.setSlot_stateSince (s : State) (n t : Nat) (x : Slot) :
    (s.setSlot n t x).stateSince = s.stateSince := (rfl)
@[simp] theorem State.setSlot_fresh (s : State) (n t : Nat) (x : Slot) : (s.setSlot n t x).fresh = s.fresh := (rfl)
@[simp] theorem State.setSlot_outbox (s : State) (n t : Nat) (x : Slot) : (s.setSlot n t x).outbox = s.outbox := (rfl)
@[simp] theorem State.setSlot_log (s : State) (n t : Nat) (x : Slot) : (s.setSlot n t x).log = s.log := (rfl)
@[simp] theorem State.setSlot_locks (s : State) (n t : Nat) (x : Slot) : (s.setSlot n t x).locks = s.locks := (rfl)
@[simp] theorem State.setSlot_arbs (s : State) (n t : Nat) (x : Slot) : (s.setSlot n t x).arbs = s.arbs := (rfl)
@[simp] theorem State.setSlot_evt (s : State) (n t : Nat) (x : Slot) : (s.setSlot n t x).evt = s.evt := (rfl)
@[simp] theorem State.setSlot_time (s : State) (n t : Nat) (x : Slot) : (s.setSlot n t x).time = s.time := (rfl)
@[simp] theorem State.setSlot_msix (s : State) (n t : Nat) (x : Slot) : (s.setSlot n t x).msix = s.msix := (rfl)
@[simp] theorem State.setSlot_motion (s : State) (n t : Nat) (x : Slot) : (s.setSlot n t x).motion = s.motion := (rfl)
@[simp] theorem State.setSlot_ppos (s : State) (n t : Nat) (x : Slot) : (s.setSlot n t x).ppos = s.ppos := (rfl)
@[simp] theorem State.setSlot_mons (s : State) (n t : Nat) (x : Slot) : (s.setSlot n t x).mons = s.mons := (rfl)
@[simp] theorem State.setSlot_lanes (s : State) (n t : Nat) (x : Slot) : (s.setSlot n t x).lanes = s.lanes := (rfl)
@[simp] theorem State.setSlot_chain (s : State) (n t : Nat) (x : Slot) : (s.setSlot n t x).chain = s.chain := (rfl)
@[simp] theorem State.setSlot_rings (s : State) (n t : Nat) (x : Slot) : (s.setSlot n t x).rings = s.rings := (rfl)
@[simp] theorem State.setSlot_hostSize (s : State) (n t : Nat) (x : Slot) :
    (s.setSlot n t x).hostSize = s.hostSize := (rfl)
@[simp] theorem State.setSlot_chk (s : State) (n t : Nat) (x : Slot) : (s.setSlot n t x).chk = s.chk := (rfl)
@[simp] theorem State.setSlot_ingest (s : State) (n t : Nat) (x : Slot) : (s.setSlot n t x).ingest = s.ingest := (rfl)
@[simp] theorem State.setSlot_job (s : State) (n t : Nat) (x : Slot) : (s.setSlot n t x).job = s.job := (rfl)
@[simp] theorem State.setSlot_bars (s : State) (n t : Nat) (x : Slot) : (s.setSlot n t x).bars = s.bars := (rfl)
@[simp] theorem State.setSlot_fire (s : State) (n t : Nat) (x : Slot) : (s.setSlot n t x).fire = s.fire := (rfl)
@[simp] theorem State.setSlot_nvc (s : State) (n t : Nat) (x : Slot) : (s.setSlot n t x).nvc = s.nvc := (rfl)
@[simp] theorem State.setSlot_eye (s : State) (n t : Nat) (x : Slot) : (s.setSlot n t x).eye = s.eye := (rfl)
@[simp] theorem State.setSlot_insp (s : State) (n t : Nat) (x : Slot) : (s.setSlot n t x).insp = s.insp := (rfl)
@[simp] theorem State.setSlot_noz (s : State) (n t : Nat) (x : Slot) : (s.setSlot n t x).noz = s.noz := (rfl)
@[simp] theorem State.setSlot_spare (s : State) (n t : Nat) (x : Slot) : (s.setSlot n t x).spare = s.spare := (rfl)
@[simp] theorem State.setSlot_latches (s : State) (n t : Nat) (x : Slot) :
    (s.setSlot n t x).latches = s.latches := (rfl)
@[simp] theorem State.setSlot_pwr (s : State) (n t : Nat) (x : Slot) : (s.setSlot n t x).pwr = s.pwr := (rfl)

/-! `take` writes `cmd` only. -/

@[simp] theorem State.take_pending (s : State) (rq : Rq) : (s.take rq).pending = s.pending := (rfl)
@[simp] theorem State.take_regs (s : State) (rq : Rq) : (s.take rq).regs = s.regs := (rfl)
@[simp] theorem State.take_mem (s : State) (rq : Rq) : (s.take rq).mem = s.mem := (rfl)
@[simp] theorem State.take_dram (s : State) (rq : Rq) : (s.take rq).dram = s.dram := (rfl)
@[simp] theorem State.take_now (s : State) (rq : Rq) : (s.take rq).now = s.now := (rfl)
@[simp] theorem State.take_stateSince (s : State) (rq : Rq) : (s.take rq).stateSince = s.stateSince := (rfl)
@[simp] theorem State.take_fresh (s : State) (rq : Rq) : (s.take rq).fresh = s.fresh := (rfl)
@[simp] theorem State.take_outbox (s : State) (rq : Rq) : (s.take rq).outbox = s.outbox := (rfl)
@[simp] theorem State.take_log (s : State) (rq : Rq) : (s.take rq).log = s.log := (rfl)
@[simp] theorem State.take_locks (s : State) (rq : Rq) : (s.take rq).locks = s.locks := (rfl)
@[simp] theorem State.take_arbs (s : State) (rq : Rq) : (s.take rq).arbs = s.arbs := (rfl)
@[simp] theorem State.take_evt (s : State) (rq : Rq) : (s.take rq).evt = s.evt := (rfl)
@[simp] theorem State.take_time (s : State) (rq : Rq) : (s.take rq).time = s.time := (rfl)
@[simp] theorem State.take_msix (s : State) (rq : Rq) : (s.take rq).msix = s.msix := (rfl)
@[simp] theorem State.take_motion (s : State) (rq : Rq) : (s.take rq).motion = s.motion := (rfl)
@[simp] theorem State.take_ppos (s : State) (rq : Rq) : (s.take rq).ppos = s.ppos := (rfl)
@[simp] theorem State.take_mons (s : State) (rq : Rq) : (s.take rq).mons = s.mons := (rfl)
@[simp] theorem State.take_lanes (s : State) (rq : Rq) : (s.take rq).lanes = s.lanes := (rfl)
@[simp] theorem State.take_chain (s : State) (rq : Rq) : (s.take rq).chain = s.chain := (rfl)
@[simp] theorem State.take_rings (s : State) (rq : Rq) : (s.take rq).rings = s.rings := (rfl)
@[simp] theorem State.take_hostSize (s : State) (rq : Rq) : (s.take rq).hostSize = s.hostSize := (rfl)
@[simp] theorem State.take_chk (s : State) (rq : Rq) : (s.take rq).chk = s.chk := (rfl)
@[simp] theorem State.take_ingest (s : State) (rq : Rq) : (s.take rq).ingest = s.ingest := (rfl)
@[simp] theorem State.take_job (s : State) (rq : Rq) : (s.take rq).job = s.job := (rfl)
@[simp] theorem State.take_bars (s : State) (rq : Rq) : (s.take rq).bars = s.bars := (rfl)
@[simp] theorem State.take_fire (s : State) (rq : Rq) : (s.take rq).fire = s.fire := (rfl)
@[simp] theorem State.take_nvc (s : State) (rq : Rq) : (s.take rq).nvc = s.nvc := (rfl)
@[simp] theorem State.take_eye (s : State) (rq : Rq) : (s.take rq).eye = s.eye := (rfl)
@[simp] theorem State.take_insp (s : State) (rq : Rq) : (s.take rq).insp = s.insp := (rfl)
@[simp] theorem State.take_noz (s : State) (rq : Rq) : (s.take rq).noz = s.noz := (rfl)
@[simp] theorem State.take_spare (s : State) (rq : Rq) : (s.take rq).spare = s.spare := (rfl)
@[simp] theorem State.take_latches (s : State) (rq : Rq) : (s.take rq).latches = s.latches := (rfl)
@[simp] theorem State.take_pwr (s : State) (rq : Rq) : (s.take rq).pwr = s.pwr := (rfl)

/-! `enter` writes `regs` and `stateSince` only. -/

@[simp] theorem State.enter_pending (s : State) (st : Nat) : (s.enter st).pending = s.pending := by
  unfold State.enter; split <;> simp
@[simp] theorem State.enter_mem (s : State) (st : Nat) : (s.enter st).mem = s.mem := by
  unfold State.enter; split <;> simp
@[simp] theorem State.enter_dram (s : State) (st : Nat) : (s.enter st).dram = s.dram := by
  unfold State.enter; split <;> simp
@[simp] theorem State.enter_now (s : State) (st : Nat) : (s.enter st).now = s.now := by
  unfold State.enter; split <;> simp
@[simp] theorem State.enter_fresh (s : State) (st : Nat) : (s.enter st).fresh = s.fresh := by
  unfold State.enter; split <;> simp
@[simp] theorem State.enter_outbox (s : State) (st : Nat) : (s.enter st).outbox = s.outbox := by
  unfold State.enter; split <;> simp
@[simp] theorem State.enter_cmd (s : State) (st : Nat) : (s.enter st).cmd = s.cmd := by
  unfold State.enter; split <;> simp
@[simp] theorem State.enter_log (s : State) (st : Nat) : (s.enter st).log = s.log := by
  unfold State.enter; split <;> simp
@[simp] theorem State.enter_locks (s : State) (st : Nat) : (s.enter st).locks = s.locks := by
  unfold State.enter; split <;> simp
@[simp] theorem State.enter_arbs (s : State) (st : Nat) : (s.enter st).arbs = s.arbs := by
  unfold State.enter; split <;> simp
@[simp] theorem State.enter_evt (s : State) (st : Nat) : (s.enter st).evt = s.evt := by
  unfold State.enter; split <;> simp
@[simp] theorem State.enter_time (s : State) (st : Nat) : (s.enter st).time = s.time := by
  unfold State.enter; split <;> simp
@[simp] theorem State.enter_msix (s : State) (st : Nat) : (s.enter st).msix = s.msix := by
  unfold State.enter; split <;> simp
@[simp] theorem State.enter_motion (s : State) (st : Nat) : (s.enter st).motion = s.motion := by
  unfold State.enter; split <;> simp
@[simp] theorem State.enter_ppos (s : State) (st : Nat) : (s.enter st).ppos = s.ppos := by
  unfold State.enter; split <;> simp
@[simp] theorem State.enter_mons (s : State) (st : Nat) : (s.enter st).mons = s.mons := by
  unfold State.enter; split <;> simp
@[simp] theorem State.enter_lanes (s : State) (st : Nat) : (s.enter st).lanes = s.lanes := by
  unfold State.enter; split <;> simp
@[simp] theorem State.enter_chain (s : State) (st : Nat) : (s.enter st).chain = s.chain := by
  unfold State.enter; split <;> simp
@[simp] theorem State.enter_rings (s : State) (st : Nat) : (s.enter st).rings = s.rings := by
  unfold State.enter; split <;> simp
@[simp] theorem State.enter_hostSize (s : State) (st : Nat) : (s.enter st).hostSize = s.hostSize := by
  unfold State.enter; split <;> simp
@[simp] theorem State.enter_chk (s : State) (st : Nat) : (s.enter st).chk = s.chk := by
  unfold State.enter; split <;> simp
@[simp] theorem State.enter_ingest (s : State) (st : Nat) : (s.enter st).ingest = s.ingest := by
  unfold State.enter; split <;> simp
@[simp] theorem State.enter_job (s : State) (st : Nat) : (s.enter st).job = s.job := by
  unfold State.enter; split <;> simp
@[simp] theorem State.enter_bars (s : State) (st : Nat) : (s.enter st).bars = s.bars := by
  unfold State.enter; split <;> simp
@[simp] theorem State.enter_fire (s : State) (st : Nat) : (s.enter st).fire = s.fire := by
  unfold State.enter; split <;> simp
@[simp] theorem State.enter_nvc (s : State) (st : Nat) : (s.enter st).nvc = s.nvc := by
  unfold State.enter; split <;> simp
@[simp] theorem State.enter_eye (s : State) (st : Nat) : (s.enter st).eye = s.eye := by
  unfold State.enter; split <;> simp
@[simp] theorem State.enter_insp (s : State) (st : Nat) : (s.enter st).insp = s.insp := by
  unfold State.enter; split <;> simp
@[simp] theorem State.enter_noz (s : State) (st : Nat) : (s.enter st).noz = s.noz := by
  unfold State.enter; split <;> simp
@[simp] theorem State.enter_spare (s : State) (st : Nat) : (s.enter st).spare = s.spare := by
  unfold State.enter; split <;> simp
@[simp] theorem State.enter_latches (s : State) (st : Nat) : (s.enter st).latches = s.latches := by
  unfold State.enter; split <;> simp
@[simp] theorem State.enter_pwr (s : State) (st : Nat) : (s.enter st).pwr = s.pwr := by
  unfold State.enter; split <;> simp

/-! `raise` writes `regs` and `evt` only. -/

@[simp] theorem State.raise_pending (s : State) (p : Nat) (tag : Option Nat) :
    (s.raise p tag).pending = s.pending := by
  unfold State.raise; split <;> simp
@[simp] theorem State.raise_mem (s : State) (p : Nat) (tag : Option Nat) : (s.raise p tag).mem = s.mem := by
  unfold State.raise; split <;> simp
@[simp] theorem State.raise_dram (s : State) (p : Nat) (tag : Option Nat) : (s.raise p tag).dram = s.dram := by
  unfold State.raise; split <;> simp
@[simp] theorem State.raise_now (s : State) (p : Nat) (tag : Option Nat) : (s.raise p tag).now = s.now := by
  unfold State.raise; split <;> simp
@[simp] theorem State.raise_stateSince (s : State) (p : Nat) (tag : Option Nat) :
    (s.raise p tag).stateSince = s.stateSince := by
  unfold State.raise; split <;> simp
@[simp] theorem State.raise_fresh (s : State) (p : Nat) (tag : Option Nat) : (s.raise p tag).fresh = s.fresh := by
  unfold State.raise; split <;> simp
@[simp] theorem State.raise_outbox (s : State) (p : Nat) (tag : Option Nat) : (s.raise p tag).outbox = s.outbox := by
  unfold State.raise; split <;> simp
@[simp] theorem State.raise_cmd (s : State) (p : Nat) (tag : Option Nat) : (s.raise p tag).cmd = s.cmd := by
  unfold State.raise; split <;> simp
@[simp] theorem State.raise_log (s : State) (p : Nat) (tag : Option Nat) : (s.raise p tag).log = s.log := by
  unfold State.raise; split <;> simp
@[simp] theorem State.raise_locks (s : State) (p : Nat) (tag : Option Nat) : (s.raise p tag).locks = s.locks := by
  unfold State.raise; split <;> simp
@[simp] theorem State.raise_arbs (s : State) (p : Nat) (tag : Option Nat) : (s.raise p tag).arbs = s.arbs := by
  unfold State.raise; split <;> simp
@[simp] theorem State.raise_time (s : State) (p : Nat) (tag : Option Nat) : (s.raise p tag).time = s.time := by
  unfold State.raise; split <;> simp
@[simp] theorem State.raise_msix (s : State) (p : Nat) (tag : Option Nat) : (s.raise p tag).msix = s.msix := by
  unfold State.raise; split <;> simp
@[simp] theorem State.raise_motion (s : State) (p : Nat) (tag : Option Nat) : (s.raise p tag).motion = s.motion := by
  unfold State.raise; split <;> simp
@[simp] theorem State.raise_ppos (s : State) (p : Nat) (tag : Option Nat) : (s.raise p tag).ppos = s.ppos := by
  unfold State.raise; split <;> simp
@[simp] theorem State.raise_mons (s : State) (p : Nat) (tag : Option Nat) : (s.raise p tag).mons = s.mons := by
  unfold State.raise; split <;> simp
@[simp] theorem State.raise_lanes (s : State) (p : Nat) (tag : Option Nat) : (s.raise p tag).lanes = s.lanes := by
  unfold State.raise; split <;> simp
@[simp] theorem State.raise_chain (s : State) (p : Nat) (tag : Option Nat) : (s.raise p tag).chain = s.chain := by
  unfold State.raise; split <;> simp
@[simp] theorem State.raise_rings (s : State) (p : Nat) (tag : Option Nat) : (s.raise p tag).rings = s.rings := by
  unfold State.raise; split <;> simp
@[simp] theorem State.raise_hostSize (s : State) (p : Nat) (tag : Option Nat) :
    (s.raise p tag).hostSize = s.hostSize := by
  unfold State.raise; split <;> simp
@[simp] theorem State.raise_chk (s : State) (p : Nat) (tag : Option Nat) : (s.raise p tag).chk = s.chk := by
  unfold State.raise; split <;> simp
@[simp] theorem State.raise_ingest (s : State) (p : Nat) (tag : Option Nat) : (s.raise p tag).ingest = s.ingest := by
  unfold State.raise; split <;> simp
@[simp] theorem State.raise_job (s : State) (p : Nat) (tag : Option Nat) : (s.raise p tag).job = s.job := by
  unfold State.raise; split <;> simp
@[simp] theorem State.raise_bars (s : State) (p : Nat) (tag : Option Nat) : (s.raise p tag).bars = s.bars := by
  unfold State.raise; split <;> simp
@[simp] theorem State.raise_fire (s : State) (p : Nat) (tag : Option Nat) : (s.raise p tag).fire = s.fire := by
  unfold State.raise; split <;> simp
@[simp] theorem State.raise_nvc (s : State) (p : Nat) (tag : Option Nat) : (s.raise p tag).nvc = s.nvc := by
  unfold State.raise; split <;> simp
@[simp] theorem State.raise_eye (s : State) (p : Nat) (tag : Option Nat) : (s.raise p tag).eye = s.eye := by
  unfold State.raise; split <;> simp
@[simp] theorem State.raise_insp (s : State) (p : Nat) (tag : Option Nat) : (s.raise p tag).insp = s.insp := by
  unfold State.raise; split <;> simp
@[simp] theorem State.raise_noz (s : State) (p : Nat) (tag : Option Nat) : (s.raise p tag).noz = s.noz := by
  unfold State.raise; split <;> simp
@[simp] theorem State.raise_spare (s : State) (p : Nat) (tag : Option Nat) : (s.raise p tag).spare = s.spare := by
  unfold State.raise; split <;> simp
@[simp] theorem State.raise_latches (s : State) (p : Nat) (tag : Option Nat) :
    (s.raise p tag).latches = s.latches := by
  unfold State.raise; split <;> simp
@[simp] theorem State.raise_pwr (s : State) (p : Nat) (tag : Option Nat) : (s.raise p tag).pwr = s.pwr := by
  unfold State.raise; split <;> simp

/-! `raiseIf` writes `regs` and `evt` only. -/

@[simp] theorem State.raiseIf_pending (s : State) (en : Bool) (p : Nat) (tag : Option Nat) :
    (s.raiseIf en p tag).pending = s.pending := by
  unfold State.raiseIf; split <;> simp
@[simp] theorem State.raiseIf_mem (s : State) (en : Bool) (p : Nat) (tag : Option Nat) :
    (s.raiseIf en p tag).mem = s.mem := by
  unfold State.raiseIf; split <;> simp
@[simp] theorem State.raiseIf_dram (s : State) (en : Bool) (p : Nat) (tag : Option Nat) :
    (s.raiseIf en p tag).dram = s.dram := by
  unfold State.raiseIf; split <;> simp
@[simp] theorem State.raiseIf_now (s : State) (en : Bool) (p : Nat) (tag : Option Nat) :
    (s.raiseIf en p tag).now = s.now := by
  unfold State.raiseIf; split <;> simp
@[simp] theorem State.raiseIf_stateSince (s : State) (en : Bool) (p : Nat) (tag : Option Nat) :
    (s.raiseIf en p tag).stateSince = s.stateSince := by
  unfold State.raiseIf; split <;> simp
@[simp] theorem State.raiseIf_fresh (s : State) (en : Bool) (p : Nat) (tag : Option Nat) :
    (s.raiseIf en p tag).fresh = s.fresh := by
  unfold State.raiseIf; split <;> simp
@[simp] theorem State.raiseIf_outbox (s : State) (en : Bool) (p : Nat) (tag : Option Nat) :
    (s.raiseIf en p tag).outbox = s.outbox := by
  unfold State.raiseIf; split <;> simp
@[simp] theorem State.raiseIf_cmd (s : State) (en : Bool) (p : Nat) (tag : Option Nat) :
    (s.raiseIf en p tag).cmd = s.cmd := by
  unfold State.raiseIf; split <;> simp
@[simp] theorem State.raiseIf_log (s : State) (en : Bool) (p : Nat) (tag : Option Nat) :
    (s.raiseIf en p tag).log = s.log := by
  unfold State.raiseIf; split <;> simp
@[simp] theorem State.raiseIf_locks (s : State) (en : Bool) (p : Nat) (tag : Option Nat) :
    (s.raiseIf en p tag).locks = s.locks := by
  unfold State.raiseIf; split <;> simp
@[simp] theorem State.raiseIf_arbs (s : State) (en : Bool) (p : Nat) (tag : Option Nat) :
    (s.raiseIf en p tag).arbs = s.arbs := by
  unfold State.raiseIf; split <;> simp
@[simp] theorem State.raiseIf_time (s : State) (en : Bool) (p : Nat) (tag : Option Nat) :
    (s.raiseIf en p tag).time = s.time := by
  unfold State.raiseIf; split <;> simp
@[simp] theorem State.raiseIf_msix (s : State) (en : Bool) (p : Nat) (tag : Option Nat) :
    (s.raiseIf en p tag).msix = s.msix := by
  unfold State.raiseIf; split <;> simp
@[simp] theorem State.raiseIf_motion (s : State) (en : Bool) (p : Nat) (tag : Option Nat) :
    (s.raiseIf en p tag).motion = s.motion := by
  unfold State.raiseIf; split <;> simp
@[simp] theorem State.raiseIf_ppos (s : State) (en : Bool) (p : Nat) (tag : Option Nat) :
    (s.raiseIf en p tag).ppos = s.ppos := by
  unfold State.raiseIf; split <;> simp
@[simp] theorem State.raiseIf_mons (s : State) (en : Bool) (p : Nat) (tag : Option Nat) :
    (s.raiseIf en p tag).mons = s.mons := by
  unfold State.raiseIf; split <;> simp
@[simp] theorem State.raiseIf_lanes (s : State) (en : Bool) (p : Nat) (tag : Option Nat) :
    (s.raiseIf en p tag).lanes = s.lanes := by
  unfold State.raiseIf; split <;> simp
@[simp] theorem State.raiseIf_chain (s : State) (en : Bool) (p : Nat) (tag : Option Nat) :
    (s.raiseIf en p tag).chain = s.chain := by
  unfold State.raiseIf; split <;> simp
@[simp] theorem State.raiseIf_rings (s : State) (en : Bool) (p : Nat) (tag : Option Nat) :
    (s.raiseIf en p tag).rings = s.rings := by
  unfold State.raiseIf; split <;> simp
@[simp] theorem State.raiseIf_hostSize (s : State) (en : Bool) (p : Nat) (tag : Option Nat) :
    (s.raiseIf en p tag).hostSize = s.hostSize := by
  unfold State.raiseIf; split <;> simp
@[simp] theorem State.raiseIf_chk (s : State) (en : Bool) (p : Nat) (tag : Option Nat) :
    (s.raiseIf en p tag).chk = s.chk := by
  unfold State.raiseIf; split <;> simp
@[simp] theorem State.raiseIf_ingest (s : State) (en : Bool) (p : Nat) (tag : Option Nat) :
    (s.raiseIf en p tag).ingest = s.ingest := by
  unfold State.raiseIf; split <;> simp
@[simp] theorem State.raiseIf_job (s : State) (en : Bool) (p : Nat) (tag : Option Nat) :
    (s.raiseIf en p tag).job = s.job := by
  unfold State.raiseIf; split <;> simp
@[simp] theorem State.raiseIf_bars (s : State) (en : Bool) (p : Nat) (tag : Option Nat) :
    (s.raiseIf en p tag).bars = s.bars := by
  unfold State.raiseIf; split <;> simp
@[simp] theorem State.raiseIf_fire (s : State) (en : Bool) (p : Nat) (tag : Option Nat) :
    (s.raiseIf en p tag).fire = s.fire := by
  unfold State.raiseIf; split <;> simp
@[simp] theorem State.raiseIf_nvc (s : State) (en : Bool) (p : Nat) (tag : Option Nat) :
    (s.raiseIf en p tag).nvc = s.nvc := by
  unfold State.raiseIf; split <;> simp
@[simp] theorem State.raiseIf_eye (s : State) (en : Bool) (p : Nat) (tag : Option Nat) :
    (s.raiseIf en p tag).eye = s.eye := by
  unfold State.raiseIf; split <;> simp
@[simp] theorem State.raiseIf_insp (s : State) (en : Bool) (p : Nat) (tag : Option Nat) :
    (s.raiseIf en p tag).insp = s.insp := by
  unfold State.raiseIf; split <;> simp
@[simp] theorem State.raiseIf_noz (s : State) (en : Bool) (p : Nat) (tag : Option Nat) :
    (s.raiseIf en p tag).noz = s.noz := by
  unfold State.raiseIf; split <;> simp
@[simp] theorem State.raiseIf_spare (s : State) (en : Bool) (p : Nat) (tag : Option Nat) :
    (s.raiseIf en p tag).spare = s.spare := by
  unfold State.raiseIf; split <;> simp
@[simp] theorem State.raiseIf_latches (s : State) (en : Bool) (p : Nat) (tag : Option Nat) :
    (s.raiseIf en p tag).latches = s.latches := by
  unfold State.raiseIf; split <;> simp
@[simp] theorem State.raiseIf_pwr (s : State) (en : Bool) (p : Nat) (tag : Option Nat) :
    (s.raiseIf en p tag).pwr = s.pwr := by
  unfold State.raiseIf; split <;> simp

/-! `msixSignal` writes `outbox` and `msix` only. -/

@[simp] theorem State.msixSignal_pending (s : State) (v : Nat) : (s.msixSignal v).pending = s.pending := by
  unfold State.msixSignal; split <;> simp
@[simp] theorem State.msixSignal_regs (s : State) (v : Nat) : (s.msixSignal v).regs = s.regs := by
  unfold State.msixSignal; split <;> simp
@[simp] theorem State.msixSignal_mem (s : State) (v : Nat) : (s.msixSignal v).mem = s.mem := by
  unfold State.msixSignal; split <;> simp
@[simp] theorem State.msixSignal_dram (s : State) (v : Nat) : (s.msixSignal v).dram = s.dram := by
  unfold State.msixSignal; split <;> simp
@[simp] theorem State.msixSignal_now (s : State) (v : Nat) : (s.msixSignal v).now = s.now := by
  unfold State.msixSignal; split <;> simp
@[simp] theorem State.msixSignal_stateSince (s : State) (v : Nat) : (s.msixSignal v).stateSince = s.stateSince := by
  unfold State.msixSignal; split <;> simp
@[simp] theorem State.msixSignal_fresh (s : State) (v : Nat) : (s.msixSignal v).fresh = s.fresh := by
  unfold State.msixSignal; split <;> simp
@[simp] theorem State.msixSignal_cmd (s : State) (v : Nat) : (s.msixSignal v).cmd = s.cmd := by
  unfold State.msixSignal; split <;> simp
@[simp] theorem State.msixSignal_log (s : State) (v : Nat) : (s.msixSignal v).log = s.log := by
  unfold State.msixSignal; split <;> simp
@[simp] theorem State.msixSignal_locks (s : State) (v : Nat) : (s.msixSignal v).locks = s.locks := by
  unfold State.msixSignal; split <;> simp
@[simp] theorem State.msixSignal_arbs (s : State) (v : Nat) : (s.msixSignal v).arbs = s.arbs := by
  unfold State.msixSignal; split <;> simp
@[simp] theorem State.msixSignal_evt (s : State) (v : Nat) : (s.msixSignal v).evt = s.evt := by
  unfold State.msixSignal; split <;> simp
@[simp] theorem State.msixSignal_time (s : State) (v : Nat) : (s.msixSignal v).time = s.time := by
  unfold State.msixSignal; split <;> simp
@[simp] theorem State.msixSignal_motion (s : State) (v : Nat) : (s.msixSignal v).motion = s.motion := by
  unfold State.msixSignal; split <;> simp
@[simp] theorem State.msixSignal_ppos (s : State) (v : Nat) : (s.msixSignal v).ppos = s.ppos := by
  unfold State.msixSignal; split <;> simp
@[simp] theorem State.msixSignal_mons (s : State) (v : Nat) : (s.msixSignal v).mons = s.mons := by
  unfold State.msixSignal; split <;> simp
@[simp] theorem State.msixSignal_lanes (s : State) (v : Nat) : (s.msixSignal v).lanes = s.lanes := by
  unfold State.msixSignal; split <;> simp
@[simp] theorem State.msixSignal_chain (s : State) (v : Nat) : (s.msixSignal v).chain = s.chain := by
  unfold State.msixSignal; split <;> simp
@[simp] theorem State.msixSignal_rings (s : State) (v : Nat) : (s.msixSignal v).rings = s.rings := by
  unfold State.msixSignal; split <;> simp
@[simp] theorem State.msixSignal_hostSize (s : State) (v : Nat) : (s.msixSignal v).hostSize = s.hostSize := by
  unfold State.msixSignal; split <;> simp
@[simp] theorem State.msixSignal_chk (s : State) (v : Nat) : (s.msixSignal v).chk = s.chk := by
  unfold State.msixSignal; split <;> simp
@[simp] theorem State.msixSignal_ingest (s : State) (v : Nat) : (s.msixSignal v).ingest = s.ingest := by
  unfold State.msixSignal; split <;> simp
@[simp] theorem State.msixSignal_job (s : State) (v : Nat) : (s.msixSignal v).job = s.job := by
  unfold State.msixSignal; split <;> simp
@[simp] theorem State.msixSignal_bars (s : State) (v : Nat) : (s.msixSignal v).bars = s.bars := by
  unfold State.msixSignal; split <;> simp
@[simp] theorem State.msixSignal_fire (s : State) (v : Nat) : (s.msixSignal v).fire = s.fire := by
  unfold State.msixSignal; split <;> simp
@[simp] theorem State.msixSignal_nvc (s : State) (v : Nat) : (s.msixSignal v).nvc = s.nvc := by
  unfold State.msixSignal; split <;> simp
@[simp] theorem State.msixSignal_eye (s : State) (v : Nat) : (s.msixSignal v).eye = s.eye := by
  unfold State.msixSignal; split <;> simp
@[simp] theorem State.msixSignal_insp (s : State) (v : Nat) : (s.msixSignal v).insp = s.insp := by
  unfold State.msixSignal; split <;> simp
@[simp] theorem State.msixSignal_noz (s : State) (v : Nat) : (s.msixSignal v).noz = s.noz := by
  unfold State.msixSignal; split <;> simp
@[simp] theorem State.msixSignal_spare (s : State) (v : Nat) : (s.msixSignal v).spare = s.spare := by
  unfold State.msixSignal; split <;> simp
@[simp] theorem State.msixSignal_latches (s : State) (v : Nat) : (s.msixSignal v).latches = s.latches := by
  unfold State.msixSignal; split <;> simp
@[simp] theorem State.msixSignal_pwr (s : State) (v : Nat) : (s.msixSignal v).pwr = s.pwr := by
  unfold State.msixSignal; split <;> simp

/-! `lift` writes `regs` and `cmd` only. -/

@[simp] theorem State.lift_pending (s : State) (n t : Nat) : (s.lift n t).pending = s.pending := by
  unfold State.lift; split <;> simp
@[simp] theorem State.lift_mem (s : State) (n t : Nat) : (s.lift n t).mem = s.mem := by
  unfold State.lift; split <;> simp
@[simp] theorem State.lift_dram (s : State) (n t : Nat) : (s.lift n t).dram = s.dram := by
  unfold State.lift; split <;> simp
@[simp] theorem State.lift_now (s : State) (n t : Nat) : (s.lift n t).now = s.now := by
  unfold State.lift; split <;> simp
@[simp] theorem State.lift_stateSince (s : State) (n t : Nat) : (s.lift n t).stateSince = s.stateSince := by
  unfold State.lift; split <;> simp
@[simp] theorem State.lift_fresh (s : State) (n t : Nat) : (s.lift n t).fresh = s.fresh := by
  unfold State.lift; split <;> simp
@[simp] theorem State.lift_outbox (s : State) (n t : Nat) : (s.lift n t).outbox = s.outbox := by
  unfold State.lift; split <;> simp
@[simp] theorem State.lift_log (s : State) (n t : Nat) : (s.lift n t).log = s.log := by
  unfold State.lift; split <;> simp
@[simp] theorem State.lift_locks (s : State) (n t : Nat) : (s.lift n t).locks = s.locks := by
  unfold State.lift; split <;> simp
@[simp] theorem State.lift_arbs (s : State) (n t : Nat) : (s.lift n t).arbs = s.arbs := by
  unfold State.lift; split <;> simp
@[simp] theorem State.lift_evt (s : State) (n t : Nat) : (s.lift n t).evt = s.evt := by
  unfold State.lift; split <;> simp
@[simp] theorem State.lift_time (s : State) (n t : Nat) : (s.lift n t).time = s.time := by
  unfold State.lift; split <;> simp
@[simp] theorem State.lift_msix (s : State) (n t : Nat) : (s.lift n t).msix = s.msix := by
  unfold State.lift; split <;> simp
@[simp] theorem State.lift_motion (s : State) (n t : Nat) : (s.lift n t).motion = s.motion := by
  unfold State.lift; split <;> simp
@[simp] theorem State.lift_ppos (s : State) (n t : Nat) : (s.lift n t).ppos = s.ppos := by
  unfold State.lift; split <;> simp
@[simp] theorem State.lift_mons (s : State) (n t : Nat) : (s.lift n t).mons = s.mons := by
  unfold State.lift; split <;> simp
@[simp] theorem State.lift_lanes (s : State) (n t : Nat) : (s.lift n t).lanes = s.lanes := by
  unfold State.lift; split <;> simp
@[simp] theorem State.lift_chain (s : State) (n t : Nat) : (s.lift n t).chain = s.chain := by
  unfold State.lift; split <;> simp
@[simp] theorem State.lift_rings (s : State) (n t : Nat) : (s.lift n t).rings = s.rings := by
  unfold State.lift; split <;> simp
@[simp] theorem State.lift_hostSize (s : State) (n t : Nat) : (s.lift n t).hostSize = s.hostSize := by
  unfold State.lift; split <;> simp
@[simp] theorem State.lift_chk (s : State) (n t : Nat) : (s.lift n t).chk = s.chk := by
  unfold State.lift; split <;> simp
@[simp] theorem State.lift_ingest (s : State) (n t : Nat) : (s.lift n t).ingest = s.ingest := by
  unfold State.lift; split <;> simp
@[simp] theorem State.lift_job (s : State) (n t : Nat) : (s.lift n t).job = s.job := by
  unfold State.lift; split <;> simp
@[simp] theorem State.lift_bars (s : State) (n t : Nat) : (s.lift n t).bars = s.bars := by
  unfold State.lift; split <;> simp
@[simp] theorem State.lift_fire (s : State) (n t : Nat) : (s.lift n t).fire = s.fire := by
  unfold State.lift; split <;> simp
@[simp] theorem State.lift_nvc (s : State) (n t : Nat) : (s.lift n t).nvc = s.nvc := by
  unfold State.lift; split <;> simp
@[simp] theorem State.lift_eye (s : State) (n t : Nat) : (s.lift n t).eye = s.eye := by
  unfold State.lift; split <;> simp
@[simp] theorem State.lift_insp (s : State) (n t : Nat) : (s.lift n t).insp = s.insp := by
  unfold State.lift; split <;> simp
@[simp] theorem State.lift_noz (s : State) (n t : Nat) : (s.lift n t).noz = s.noz := by
  unfold State.lift; split <;> simp
@[simp] theorem State.lift_spare (s : State) (n t : Nat) : (s.lift n t).spare = s.spare := by
  unfold State.lift; split <;> simp
@[simp] theorem State.lift_latches (s : State) (n t : Nat) : (s.lift n t).latches = s.latches := by
  unfold State.lift; split <;> simp
@[simp] theorem State.lift_pwr (s : State) (n t : Nat) : (s.lift n t).pwr = s.pwr := by
  unfold State.lift; split <;> simp

end Sys2Proof.Machine
end

