-- ==== Sys2Proof/Laws/Ops.lean ====
section
/-!
SUPPORT. What the shared operations do, once each: a command that comes to run, its checks, its answer, the barrier's end.
-/
set_option linter.all false

namespace Sys2Proof.Machine

/-! How a command comes to run. -/

/-- A command that is ready takes its effect on the state without its queue entry; then its barrier ends. -/
theorem State.runIn_ready {s : State} {rq : Rq} {op : Nat} {doms : List Domain} (body : State → State)
    (h : s.ready rq op doms = true) : s.runIn rq op doms body = (body (s.take rq)).lift rq.sess rq.tag := by
  simp only [State.ready, Bool.and_eq_true, Bool.not_eq_true'] at h
  obtain ⟨⟨⟨⟨h1, h2⟩, h3⟩, h4⟩, h5⟩ := h
  have ht : (s.take rq).st = s.st := rfl
  have hl (k : Nat) : (s.take rq).holdsLock rq.sess k = s.holdsLock rq.sess k := rfl
  rw [State.runIn, if_neg (by rw [h1]; decide)]
  dsimp only
  rw [if_neg (by rw [ht, h2]; decide)]
  cases e : rq.lock with
  | none => rfl
  | some k =>
    rw [e] at h3
    dsimp only at h3 ⊢
    rw [if_pos (by rw [hl, h3])]

/-- `runIn_ready` on the opcode's own domain. -/
theorem State.run_ready {s : State} {rq : Rq} {op : Nat} (body : State → State) (h : s.ready rq op = true) :
    s.run rq op body = (body (s.take rq)).lift rq.sess rq.tag := State.runIn_ready body h

theorem State.ready_reserved {s : State} {rq : Rq} {op : Nat} {doms : List Domain} (h : s.ready rq op doms = true) :
    (s.take rq).reservedAt rq = none := by
  simp only [State.ready, Bool.and_eq_true, Option.isNone_iff_eq_none] at h
  exact h.1.2

theorem State.ready_open {s : State} {rq : Rq} {op : Nat} {doms : List Domain} (h : s.ready rq op doms = true) :
    (s.take rq).sessOpen rq.sess = true := by
  simp only [State.ready, Bool.and_eq_true] at h
  exact h.2

/-- Legal fields and no reserved byte: the effect follows. -/
theorem State.withParams_ok {s : State} {rq : Rq} {op : Nat} {fields : List (Nat × Bool)} (body : State → State)
    (hr : s.reservedAt rq = none) (hf : ∀ f ∈ fields, f.2 = true) : s.withParams rq op fields body = body s := by
  have e : fields.filter (fun f => !f.2) = [] := by
    rw [List.filter_eq_nil_iff]
    intro f m
    rw [hf f m]; decide
  rw [State.withParams, hr, e]
  rfl

/-! Answers. -/

/-- A register that no answer touches: not the STALL bits of CMD_STATUS and not the frame counters of the ports. -/
def quietAddr (a : Nat) : Prop := a ≠ 0x040004 ∧ a ≠ Reg.ETH_CNT_FRAMES 0 ∧ a ≠ Reg.ETH_CNT_FRAMES 1

theorem State.setStall_reg {s : State} {r a : Nat} (h : a ≠ 0x040004) : (s.setStall r).reg a = s.reg a :=
  State.reg_setFld_other h

theorem State.msixSignal_reg (s : State) (v a : Nat) : (s.msixSignal v).reg a = s.reg a := by
  rw [State.msixSignal]; split <;> rfl

theorem State.ringNotify_reg (s : State) (r a : Nat) : (s.ringNotify r).reg a = s.reg a := by
  rw [State.ringNotify, State.msixSignal_reg]; rfl

theorem State.ringReply_reg {s : State} {r a : Nat} {rep : Reply} (h : a ≠ 0x040004) :
    (s.ringReply r rep).reg a = s.reg a := by
  rw [State.ringReply]
  split
  · rfl
  · split
    · rw [State.ringWrite]
      dsimp only
      rw [State.setStall_reg h, State.ringNotify_reg]
      split <;> rfl
    · rfl

theorem State.laneSent_regs (s : State) (l : Nat) (bs : List Block) : (s.laneSent l bs).regs = s.regs := (rfl)

theorem State.laneSents_regs (l : List (Nat × List Block)) (s : State) :
    (l.foldl (fun s p => s.laneSent p.1 p.2) s).regs = s.regs := by
  induction l generalizing s with
  | nil => rfl
  | cons x l ih => exact ih _

theorem State.chainSend_regs (s : State) (west : Bool) (b : List Byte) : (s.chainSend west b).regs = s.regs :=
  State.laneSents_regs _ s

theorem State.chainSendOn_regs (s : State) (west transit : Bool) (b : List Byte) :
    (s.chainSendOn west transit b).regs = s.regs := by
  have f (l : List (List Byte)) (s : State) : (l.foldl (fun s b => s.chainSend west b) s).regs = s.regs := by
    induction l generalizing s with
    | nil => rfl
    | cons x l ih => exact (ih _).trans (State.chainSend_regs ..)
  rw [State.chainSendOn]
  split
  · exact f ..
  · rfl

theorem State.chainTo_regs (s : State) (type dst cls : Nat) (body : List Byte) :
    (s.chainTo type dst cls body).regs = s.regs := by
  rw [State.chainTo]
  split
  · exact State.chainSendOn_regs ..
  · rfl

theorem State.ethRoute_port {s : State} {ip : Nat} {r : Nat × Nat} (h : s.ethRoute ip = some r) : r.1 = 0 ∨ r.1 = 1 := by
  rw [State.ethRoute] at h
  split at h
  · rename_i p e
    have m := List.mem_of_find?_eq_some e
    rw [← Option.some.inj h]
    simpa using m
  · obtain ⟨p, e, rfl⟩ := Option.map_eq_some_iff.mp h
    have m := List.mem_of_find?_eq_some e
    simpa using m

theorem State.deliver_reg {s : State} {sess a : Nat} {rep : Reply} (h : quietAddr a) :
    (s.deliver sess rep).reg a = s.reg a := by
  rw [State.deliver]
  split
  · rfl
  · exact State.ringReply_reg h.1
  · rename_i ip port _
    rw [State.sendDatagram]
    split
    · rename_i r e
      refine (State.reg_setFld_other ?_).trans rfl
      rcases State.ethRoute_port e with k | k
      · rw [k]; exact h.2.1
      · rw [k]; exact h.2.2
    · rfl
  · exact congrArg (fun l => regGet l a) (State.chainTo_regs ..)

/-- An answer leaves every other register alone. -/
theorem State.complete_reg {s : State} {sess tag seq op : Nat} {need : Bool} {status : Nat} {payload : List Byte}
    {more : Bool} {member : Option Nat} {a : Nat} (h : quietAddr a) :
    (s.complete sess tag seq op need status payload more member).reg a = s.reg a := by
  rw [State.complete]
  split
  · rfl
  · dsimp only
    generalize (need || status != scDone || _) = go
    split
    · exact (State.deliver_reg h).trans rfl
    · rfl

theorem State.finish_reg {s : State} {rq : Rq} {op status : Nat} {payload : List Byte} {more : Bool} {a : Nat}
    (h : quietAddr a) : (s.finish rq op status payload more).reg a = s.reg a := State.complete_reg h

theorem State.finish_fld {s : State} {rq : Rq} {op status : Nat} {payload : List Byte} {more : Bool} {f : Fld}
    (h : quietAddr f.addr) : (s.finish rq op status payload more).fld f = s.fld f := by
  rw [State.fld, State.finish_reg h, State.fld]

/-! What an answer leaves alone beside registers, the outbox, the command unit, the chain with its lanes and the MSI-X
table. -/

/-- A state without what answers touch. -/
def State.rest (s : State) : State :=
  { s with regs := [], outbox := [], cmd := {}, chain := {}, lanes := {}, msix := {} }

theorem State.rest_keep (s : State) (regs outbox cmd chain lanes msix) :
    State.rest ⟨s.pending, regs, s.mem, s.dram, s.now, s.stateSince, s.fresh, outbox, cmd, s.log, s.locks, s.arbs, s.evt,
      s.time, msix, s.motion, s.ppos, s.mons, lanes, chain, s.rings, s.hostSize, s.chk, s.ingest, s.job, s.bars,
      s.fire, s.nvc, s.eye, s.insp, s.noz, s.spare, s.latches, s.pwr⟩ = s.rest := (rfl)

theorem State.setReg_rest (s : State) (a : Nat) (w : Word) : (s.setReg a w).rest = s.rest := (rfl)
theorem State.setFld_rest (s : State) (f : Fld) (v : Nat) : (s.setFld f v).rest = s.rest := State.setReg_rest ..
theorem State.bump_rest (s : State) (f : Fld) (n : Nat) : (s.bump f n).rest = s.rest := State.setFld_rest ..
theorem State.emit_rest (s : State) (o : Out) : (s.emit o).rest = s.rest := (rfl)
theorem State.setRing_rest (s : State) (r : Nat) (x : Ring) : (s.setRing r x).rest = s.rest := (rfl)
theorem State.setSlot_rest (s : State) (n t : Nat) (x : Slot) : (s.setSlot n t x).rest = s.rest := (rfl)
theorem State.setLink_rest (s : State) (w : Bool) (l : ChainLink) : (s.setLink w l).rest = s.rest := (rfl)

theorem State.msixSignal_rest (s : State) (v : Nat) : (s.msixSignal v).rest = s.rest := by
  rw [State.msixSignal]; split <;> rfl

theorem State.ringReply_rest (s : State) (r : Nat) (rep : Reply) : (s.ringReply r rep).rest = s.rest := by
  rw [State.ringReply]
  split
  · rfl
  · split
    · rw [State.ringWrite]
      dsimp only
      rw [State.setStall, State.setFld_rest, State.ringNotify, State.msixSignal_rest, State.emit_rest,
        State.setRing_rest, State.emit_rest]
      split
      · rfl
      · exact State.emit_rest ..
    · exact State.setRing_rest ..

theorem State.laneSent_rest (s : State) (l : Nat) (bs : List Block) : (s.laneSent l bs).rest = s.rest := (rfl)

theorem State.laneSents_rest (l : List (Nat × List Block)) (s : State) :
    (l.foldl (fun s p => s.laneSent p.1 p.2) s).rest = s.rest := by
  induction l generalizing s with
  | nil => rfl
  | cons x l ih => exact (ih _).trans (State.laneSent_rest ..)

theorem State.chainSend_rest (s : State) (west : Bool) (b : List Byte) : (s.chainSend west b).rest = s.rest :=
  (State.emit_rest ..).trans ((State.setLink_rest ..).trans (State.laneSents_rest ..))

theorem State.chainDrain_rest (s : State) (west : Bool) : (s.chainDrain west).rest = s.rest := by
  have f (l : List (List Byte)) (s : State) : (l.foldl (fun s b => s.chainSend west b) s).rest = s.rest := by
    induction l generalizing s with
    | nil => rfl
    | cons x l ih => exact (ih _).trans (State.chainSend_rest ..)
  exact (f ..).trans (State.setLink_rest ..)

theorem State.chainSendOn_rest (s : State) (west transit : Bool) (b : List Byte) :
    (s.chainSendOn west transit b).rest = s.rest := by
  rw [State.chainSendOn]
  split
  · exact (State.chainDrain_rest ..).trans (State.setLink_rest ..)
  · rfl

theorem State.chainTo_rest (s : State) (type dst cls : Nat) (body : List Byte) :
    (s.chainTo type dst cls body).rest = s.rest := by
  rw [State.chainTo]
  split
  · exact State.chainSendOn_rest ..
  · rfl

theorem State.deliver_rest (s : State) (sess : Nat) (rep : Reply) : (s.deliver sess rep).rest = s.rest := by
  rw [State.deliver]
  split
  · rfl
  · exact State.ringReply_rest ..
  · rw [State.sendDatagram]
    split
    · rw [State.bump_rest, State.emit_rest]
    · rfl
  · exact State.chainTo_rest ..

theorem State.complete_rest (s : State) (sess tag seq op : Nat) (need : Bool) (status : Nat) (payload : List Byte)
    (more : Bool) (member : Option Nat) :
    (s.complete sess tag seq op need status payload more member).rest = s.rest := by
  rw [State.complete]
  split
  · rfl
  · dsimp only
    generalize (need || status != scDone || _) = go
    split
    · exact (State.deliver_rest ..).trans (State.setSlot_rest ..)
    · exact State.setSlot_rest ..

theorem State.finish_rest (s : State) (rq : Rq) (op status : Nat) (payload : List Byte) (more : Bool) :
    (s.finish rq op status payload more).rest = s.rest := State.complete_rest ..

theorem State.lift_rest (s : State) (sess tag : Nat) : (s.lift sess tag).rest = s.rest := by
  rw [State.lift]
  split
  · rw [State.rest_keep, State.setFld_rest]
  · rfl

theorem State.take_rest (s : State) (rq : Rq) : (s.take rq).rest = s.rest := (rfl)

theorem State.pend_rest (s : State) (rq : Rq) (op : Nat) : (s.pend rq op).rest = s.rest := by
  rw [State.pend]
  split
  · rfl
  · exact State.setSlot_rest ..

/-! Field by field. -/

theorem State.rest_pending {s t : State} (h : t.rest = s.rest) : t.pending = s.pending :=
  (congrArg State.pending h : t.rest.pending = s.rest.pending)
theorem State.rest_mem {s t : State} (h : t.rest = s.rest) : t.mem = s.mem :=
  (congrArg State.mem h : t.rest.mem = s.rest.mem)
theorem State.rest_dram {s t : State} (h : t.rest = s.rest) : t.dram = s.dram :=
  (congrArg State.dram h : t.rest.dram = s.rest.dram)
theorem State.rest_now {s t : State} (h : t.rest = s.rest) : t.now = s.now :=
  (congrArg State.now h : t.rest.now = s.rest.now)
theorem State.rest_stateSince {s t : State} (h : t.rest = s.rest) : t.stateSince = s.stateSince :=
  (congrArg State.stateSince h : t.rest.stateSince = s.rest.stateSince)
theorem State.rest_fresh {s t : State} (h : t.rest = s.rest) : t.fresh = s.fresh :=
  (congrArg State.fresh h : t.rest.fresh = s.rest.fresh)
theorem State.rest_log {s t : State} (h : t.rest = s.rest) : t.log = s.log :=
  (congrArg State.log h : t.rest.log = s.rest.log)
theorem State.rest_locks {s t : State} (h : t.rest = s.rest) : t.locks = s.locks :=
  (congrArg State.locks h : t.rest.locks = s.rest.locks)
theorem State.rest_arbs {s t : State} (h : t.rest = s.rest) : t.arbs = s.arbs :=
  (congrArg State.arbs h : t.rest.arbs = s.rest.arbs)
theorem State.rest_evt {s t : State} (h : t.rest = s.rest) : t.evt = s.evt :=
  (congrArg State.evt h : t.rest.evt = s.rest.evt)
theorem State.rest_time {s t : State} (h : t.rest = s.rest) : t.time = s.time :=
  (congrArg State.time h : t.rest.time = s.rest.time)
theorem State.rest_motion {s t : State} (h : t.rest = s.rest) : t.motion = s.motion :=
  (congrArg State.motion h : t.rest.motion = s.rest.motion)
theorem State.rest_ppos {s t : State} (h : t.rest = s.rest) : t.ppos = s.ppos :=
  (congrArg State.ppos h : t.rest.ppos = s.rest.ppos)
theorem State.rest_mons {s t : State} (h : t.rest = s.rest) : t.mons = s.mons :=
  (congrArg State.mons h : t.rest.mons = s.rest.mons)
theorem State.rest_rings {s t : State} (h : t.rest = s.rest) : t.rings = s.rings :=
  (congrArg State.rings h : t.rest.rings = s.rest.rings)
theorem State.rest_hostSize {s t : State} (h : t.rest = s.rest) : t.hostSize = s.hostSize :=
  (congrArg State.hostSize h : t.rest.hostSize = s.rest.hostSize)
theorem State.rest_chk {s t : State} (h : t.rest = s.rest) : t.chk = s.chk :=
  (congrArg State.chk h : t.rest.chk = s.rest.chk)
theorem State.rest_ingest {s t : State} (h : t.rest = s.rest) : t.ingest = s.ingest :=
  (congrArg State.ingest h : t.rest.ingest = s.rest.ingest)
theorem State.rest_job {s t : State} (h : t.rest = s.rest) : t.job = s.job :=
  (congrArg State.job h : t.rest.job = s.rest.job)
theorem State.rest_bars {s t : State} (h : t.rest = s.rest) : t.bars = s.bars :=
  (congrArg State.bars h : t.rest.bars = s.rest.bars)
theorem State.rest_fire {s t : State} (h : t.rest = s.rest) : t.fire = s.fire :=
  (congrArg State.fire h : t.rest.fire = s.rest.fire)
theorem State.rest_nvc {s t : State} (h : t.rest = s.rest) : t.nvc = s.nvc :=
  (congrArg State.nvc h : t.rest.nvc = s.rest.nvc)
theorem State.rest_eye {s t : State} (h : t.rest = s.rest) : t.eye = s.eye :=
  (congrArg State.eye h : t.rest.eye = s.rest.eye)
theorem State.rest_insp {s t : State} (h : t.rest = s.rest) : t.insp = s.insp :=
  (congrArg State.insp h : t.rest.insp = s.rest.insp)
theorem State.rest_noz {s t : State} (h : t.rest = s.rest) : t.noz = s.noz :=
  (congrArg State.noz h : t.rest.noz = s.rest.noz)
theorem State.rest_spare {s t : State} (h : t.rest = s.rest) : t.spare = s.spare :=
  (congrArg State.spare h : t.rest.spare = s.rest.spare)
theorem State.rest_latches {s t : State} (h : t.rest = s.rest) : t.latches = s.latches :=
  (congrArg State.latches h : t.rest.latches = s.rest.latches)
theorem State.rest_pwr {s t : State} (h : t.rest = s.rest) : t.pwr = s.pwr :=
  (congrArg State.pwr h : t.rest.pwr = s.rest.pwr)

@[simp] theorem State.finish_pending (s : State) (rq : Rq) (op status : Nat) (payload : List Byte) (more : Bool) :
    (s.finish rq op status payload more).pending = s.pending := State.rest_pending (State.finish_rest ..)
@[simp] theorem State.finish_mem (s : State) (rq : Rq) (op status : Nat) (payload : List Byte) (more : Bool) :
    (s.finish rq op status payload more).mem = s.mem := State.rest_mem (State.finish_rest ..)
@[simp] theorem State.finish_dram (s : State) (rq : Rq) (op status : Nat) (payload : List Byte) (more : Bool) :
    (s.finish rq op status payload more).dram = s.dram := State.rest_dram (State.finish_rest ..)
@[simp] theorem State.finish_now (s : State) (rq : Rq) (op status : Nat) (payload : List Byte) (more : Bool) :
    (s.finish rq op status payload more).now = s.now := State.rest_now (State.finish_rest ..)
@[simp] theorem State.finish_stateSince (s : State) (rq : Rq) (op status : Nat) (payload : List Byte) (more : Bool) :
    (s.finish rq op status payload more).stateSince = s.stateSince := State.rest_stateSince (State.finish_rest ..)
@[simp] theorem State.finish_fresh (s : State) (rq : Rq) (op status : Nat) (payload : List Byte) (more : Bool) :
    (s.finish rq op status payload more).fresh = s.fresh := State.rest_fresh (State.finish_rest ..)
@[simp] theorem State.finish_log (s : State) (rq : Rq) (op status : Nat) (payload : List Byte) (more : Bool) :
    (s.finish rq op status payload more).log = s.log := State.rest_log (State.finish_rest ..)
@[simp] theorem State.finish_locks (s : State) (rq : Rq) (op status : Nat) (payload : List Byte) (more : Bool) :
    (s.finish rq op status payload more).locks = s.locks := State.rest_locks (State.finish_rest ..)
@[simp] theorem State.finish_arbs (s : State) (rq : Rq) (op status : Nat) (payload : List Byte) (more : Bool) :
    (s.finish rq op status payload more).arbs = s.arbs := State.rest_arbs (State.finish_rest ..)
@[simp] theorem State.finish_evt (s : State) (rq : Rq) (op status : Nat) (payload : List Byte) (more : Bool) :
    (s.finish rq op status payload more).evt = s.evt := State.rest_evt (State.finish_rest ..)
@[simp] theorem State.finish_time (s : State) (rq : Rq) (op status : Nat) (payload : List Byte) (more : Bool) :
    (s.finish rq op status payload more).time = s.time := State.rest_time (State.finish_rest ..)
@[simp] theorem State.finish_motion (s : State) (rq : Rq) (op status : Nat) (payload : List Byte) (more : Bool) :
    (s.finish rq op status payload more).motion = s.motion := State.rest_motion (State.finish_rest ..)
@[simp] theorem State.finish_ppos (s : State) (rq : Rq) (op status : Nat) (payload : List Byte) (more : Bool) :
    (s.finish rq op status payload more).ppos = s.ppos := State.rest_ppos (State.finish_rest ..)
@[simp] theorem State.finish_mons (s : State) (rq : Rq) (op status : Nat) (payload : List Byte) (more : Bool) :
    (s.finish rq op status payload more).mons = s.mons := State.rest_mons (State.finish_rest ..)
@[simp] theorem State.finish_rings (s : State) (rq : Rq) (op status : Nat) (payload : List Byte) (more : Bool) :
    (s.finish rq op status payload more).rings = s.rings := State.rest_rings (State.finish_rest ..)
@[simp] theorem State.finish_hostSize (s : State) (rq : Rq) (op status : Nat) (payload : List Byte) (more : Bool) :
    (s.finish rq op status payload more).hostSize = s.hostSize := State.rest_hostSize (State.finish_rest ..)
@[simp] theorem State.finish_chk (s : State) (rq : Rq) (op status : Nat) (payload : List Byte) (more : Bool) :
    (s.finish rq op status payload more).chk = s.chk := State.rest_chk (State.finish_rest ..)
@[simp] theorem State.finish_ingest (s : State) (rq : Rq) (op status : Nat) (payload : List Byte) (more : Bool) :
    (s.finish rq op status payload more).ingest = s.ingest := State.rest_ingest (State.finish_rest ..)
@[simp] theorem State.finish_job (s : State) (rq : Rq) (op status : Nat) (payload : List Byte) (more : Bool) :
    (s.finish rq op status payload more).job = s.job := State.rest_job (State.finish_rest ..)
@[simp] theorem State.finish_bars (s : State) (rq : Rq) (op status : Nat) (payload : List Byte) (more : Bool) :
    (s.finish rq op status payload more).bars = s.bars := State.rest_bars (State.finish_rest ..)
@[simp] theorem State.finish_fire (s : State) (rq : Rq) (op status : Nat) (payload : List Byte) (more : Bool) :
    (s.finish rq op status payload more).fire = s.fire := State.rest_fire (State.finish_rest ..)
@[simp] theorem State.finish_nvc (s : State) (rq : Rq) (op status : Nat) (payload : List Byte) (more : Bool) :
    (s.finish rq op status payload more).nvc = s.nvc := State.rest_nvc (State.finish_rest ..)
@[simp] theorem State.finish_eye (s : State) (rq : Rq) (op status : Nat) (payload : List Byte) (more : Bool) :
    (s.finish rq op status payload more).eye = s.eye := State.rest_eye (State.finish_rest ..)
@[simp] theorem State.finish_insp (s : State) (rq : Rq) (op status : Nat) (payload : List Byte) (more : Bool) :
    (s.finish rq op status payload more).insp = s.insp := State.rest_insp (State.finish_rest ..)
@[simp] theorem State.finish_noz (s : State) (rq : Rq) (op status : Nat) (payload : List Byte) (more : Bool) :
    (s.finish rq op status payload more).noz = s.noz := State.rest_noz (State.finish_rest ..)
@[simp] theorem State.finish_spare (s : State) (rq : Rq) (op status : Nat) (payload : List Byte) (more : Bool) :
    (s.finish rq op status payload more).spare = s.spare := State.rest_spare (State.finish_rest ..)
@[simp] theorem State.finish_latches (s : State) (rq : Rq) (op status : Nat) (payload : List Byte) (more : Bool) :
    (s.finish rq op status payload more).latches = s.latches := State.rest_latches (State.finish_rest ..)
@[simp] theorem State.finish_pwr (s : State) (rq : Rq) (op status : Nat) (payload : List Byte) (more : Bool) :
    (s.finish rq op status payload more).pwr = s.pwr := State.rest_pwr (State.finish_rest ..)

/-! The tag slot. -/

theorem State.slot_setSlot (s : State) (n t : Nat) (x : Slot) : (s.setSlot n t x).slot n t = x := by
  rw [State.slot, State.session]
  show tabGet {} ((tabGet {} (tabPut {} s.cmd.sessions n _) n).slots) t = x
  rw [tabGet_put_self]
  exact tabGet_put_self

theorem State.slot_of_sessions {t u : State} (h : t.cmd.sessions = u.cmd.sessions) (a b : Nat) :
    t.slot a b = u.slot a b := by
  rw [State.slot, State.session, h]; rfl

/-- A reply on its way changes the rings of the command unit at most. -/
theorem State.deliver_cmd (s : State) (sess : Nat) (rep : Reply) :
    ∃ r, (s.deliver sess rep).cmd = { s.cmd with rings := r } := by
  have hm (s : State) (v : Nat) : (s.msixSignal v).cmd = s.cmd := by rw [State.msixSignal]; split <;> rfl
  have hd (s : State) (w : Bool) : (s.chainDrain w).cmd = s.cmd := by
    have g (l : List (Nat × List Block)) (s : State) : (l.foldl (fun s p => s.laneSent p.1 p.2) s).cmd = s.cmd := by
      induction l generalizing s with
      | nil => rfl
      | cons x l ih => exact ih _
    have f (l : List (List Byte)) (s : State) : (l.foldl (fun s b => s.chainSend w b) s).cmd = s.cmd := by
      induction l generalizing s with
      | nil => rfl
      | cons x l ih => exact (ih _).trans (g ..)
    exact f ..
  rw [State.deliver]
  split
  · exact ⟨_, rfl⟩
  · rw [State.ringReply]
    split
    · exact ⟨_, rfl⟩
    · split
      · rw [State.ringWrite]
        dsimp only
        rw [State.setStall, State.setFld_cmd, State.ringNotify, hm, State.emit_cmd]
        split <;> exact ⟨_, rfl⟩
      · exact ⟨_, rfl⟩
  · rw [State.sendDatagram]
    split
    · rw [State.bump_cmd, State.emit_cmd]
      exact ⟨_, rfl⟩
    · exact ⟨_, rfl⟩
  · rw [State.chainTo]
    split
    · rw [State.chainSendOn]
      split
      · rw [hd]; exact ⟨_, rfl⟩
      · exact ⟨_, rfl⟩
    · exact ⟨_, rfl⟩

/-- Sessions after a reply is on its way are those before. -/
theorem State.deliver_sessions (s : State) (sess : Nat) (rep : Reply) :
    (s.deliver sess rep).cmd.sessions = s.cmd.sessions := by
  obtain ⟨r, e⟩ := s.deliver_cmd sess rep
  rw [e]

/-- An answer changes the rings and the sessions of the command unit at most. -/
theorem State.finish_cmd (s : State) (rq : Rq) (op status : Nat) (payload : List Byte) (more : Bool) :
    ∃ r l, (s.finish rq op status payload more).cmd = { s.cmd with rings := r, sessions := l } := by
  rw [State.finish, State.complete]
  split
  · exact ⟨_, _, rfl⟩
  · dsimp only
    generalize (rq.needReply || status != scDone || _) = go
    split
    · generalize (⟨true, true, op, rq.seq, rq.needReply, _, status, more, payload, none, _⟩ : Slot) = x
      obtain ⟨r, e⟩ := State.deliver_cmd (s.setSlot rq.sess rq.tag x) rq.sess
        { x.reply rq.sess rq.tag with again := false }
      exact ⟨r, _, e⟩
    · exact ⟨_, _, rfl⟩

/-- A barrier's end changes the barrier of the command unit at most. -/
theorem State.lift_cmd (s : State) (n t : Nat) : ∃ b, (s.lift n t).cmd = { s.cmd with barrier := b } := by
  rw [State.lift]
  split
  · exact ⟨none, by simp only [State.setFld_cmd]⟩
  · exact ⟨_, rfl⟩

/-- The reply stands in the command's tag slot. -/
theorem State.finish_answered {s : State} {rq : Rq} {op status : Nat} {payload : List Byte} {more : Bool}
    (h : s.sessOpen rq.sess = true) :
    (s.finish rq op status payload more).answered rq op status payload more = true := by
  rw [State.answered, State.finish, State.complete, if_neg (by rw [h]; decide)]
  dsimp only
  generalize (rq.needReply || status != scDone || _) = go
  split
  · rw [State.slot_of_sessions (State.deliver_sessions ..), State.slot_setSlot]
    simp
  · rw [State.slot_setSlot]
    simp

theorem State.lift_sessions (s : State) (n t : Nat) : (s.lift n t).cmd.sessions = s.cmd.sessions := by
  rw [State.lift]
  split
  · simp only [State.setFld_cmd]
  · rfl

theorem State.lift_answered (s : State) (a b : Nat) (rq : Rq) (op status : Nat) (payload : List Byte) (more : Bool) :
    (s.lift a b).answered rq op status payload more = s.answered rq op status payload more := by
  rw [State.answered, State.answered, State.slot_of_sessions (State.lift_sessions ..)]

theorem State.lift_unanswered (s : State) (a b : Nat) (rq : Rq) (op : Nat) :
    (s.lift a b).unanswered rq op = s.unanswered rq op := by
  rw [State.unanswered, State.unanswered, State.slot_of_sessions (State.lift_sessions ..)]

theorem State.pend_unanswered {s : State} {rq : Rq} {op : Nat} (h : s.sessOpen rq.sess = true) :
    (s.pend rq op).unanswered rq op = true := by
  rw [State.unanswered, State.pend, if_neg (by rw [h]; decide), State.slot_setSlot]
  simp

/-- The register file after a barrier's end: only the BARRIER bit may have changed. -/
theorem State.lift_regs (s : State) (n t : Nat) :
    (s.lift n t).regs = s.regs ∨ (s.lift n t).regs = (s.setFld Reg.PLAT_STATE_BARRIER 0).regs := by
  rw [State.lift]
  split
  · exact .inr (Eq.refl _)
  · exact .inl (Eq.refl _)

theorem State.reg_of_regs {t u : State} (h : t.regs = u.regs) (a : Nat) : t.reg a = u.reg a := by
  rw [State.reg, h, State.reg]

theorem State.fld_of_regs {t u : State} (h : t.regs = u.regs) (f : Fld) : t.fld f = u.fld f := by
  rw [State.fld, State.reg_of_regs h, State.fld]

/-- A register other than PLAT_STATE keeps its word when a barrier ends. -/
theorem State.lift_reg {s : State} {n t a : Nat} (h : a ≠ Reg.PLAT_STATE) : (s.lift n t).reg a = s.reg a := by
  rcases State.lift_regs s n t with e | e
  · exact State.reg_of_regs e a
  · exact (State.reg_of_regs e a).trans (State.reg_setFld_other h)

theorem quietAddr_of {a : Nat} (h : a ∉ answerRegs) : quietAddr a :=
  ⟨fun e => h (by rw [e]; decide), fun e => h (by rw [e]; decide), fun e => h (by rw [e]; decide)⟩

theorem ne_platState_of {a : Nat} (h : a ∉ answerRegs) : a ≠ Reg.PLAT_STATE := fun e => h (by rw [e]; decide)

theorem State.lift_fld {s : State} {n t : Nat} {f : Fld} (hf : f.fits) (h : f.apart Reg.PLAT_STATE_BARRIER) :
    (s.lift n t).fld f = s.fld f := by
  rcases State.lift_regs s n t with e | e
  · exact State.fld_of_regs e f
  · exact (State.fld_of_regs e f).trans
      (State.fld_setFld_other (f := Reg.PLAT_STATE_BARRIER) ⟨by decide, by decide⟩ hf h)

/-! A whole command whose body ends in its answer. -/

section Answer

variable {s u : State} {rq : Rq} {op st : Nat} {pl : List Byte} {more : Bool} {doms : List Domain} {body : State → State}

/-- The command is answered. -/
theorem State.runIn_answered (h : s.ready rq op doms = true) (hb : body (s.take rq) = u.finish rq op st pl more)
    (ho : u.sessOpen rq.sess = true) : (s.runIn rq op doms body).answered rq op st pl more = true := by
  rw [State.runIn_ready body h, hb, State.lift_answered, State.finish_answered ho]

/-- Registers beside those of the answer are those of the body's effect. -/
theorem State.runIn_reg (h : s.ready rq op doms = true) (hb : body (s.take rq) = u.finish rq op st pl more) {a : Nat}
    (ha : a ∉ answerRegs) : (s.runIn rq op doms body).reg a = u.reg a := by
  rw [State.runIn_ready body h, hb, State.lift_reg (ne_platState_of ha), State.finish_reg (quietAddr_of ha)]

theorem State.runIn_fld (h : s.ready rq op doms = true) (hb : body (s.take rq) = u.finish rq op st pl more) {f : Fld}
    (ha : f.addr ∉ answerRegs) : (s.runIn rq op doms body).fld f = u.fld f := by
  rw [State.fld, State.runIn_reg h hb ha, State.fld]

/-- So is everything else but the outbox, the command unit, the chain with its lanes and the MSI-X table. -/
theorem State.runIn_rest (h : s.ready rq op doms = true) (hb : body (s.take rq) = u.finish rq op st pl more) :
    (s.runIn rq op doms body).rest = u.rest := by
  rw [State.runIn_ready body h, hb, State.lift_rest, State.finish_rest]

/-- Of the command unit the rings, the sessions and the barrier may differ. -/
theorem State.runIn_cmd (h : s.ready rq op doms = true) (hb : body (s.take rq) = u.finish rq op st pl more) :
    ∃ r l b, (s.runIn rq op doms body).cmd = { u.cmd with rings := r, sessions := l, barrier := b } := by
  rw [State.runIn_ready body h, hb]
  obtain ⟨r, l, e⟩ := u.finish_cmd rq op st pl more
  obtain ⟨b, e2⟩ := (u.finish rq op st pl more).lift_cmd rq.sess rq.tag
  exact ⟨r, l, b, by rw [e2, e]⟩

end Answer

end Sys2Proof.Machine
end

