-- ==== Sys2Proof/Laws/PlatformFrames.lean ====
section
/-!
SUPPORT. The operations and meanings that leave the platform's units (`State.platform`) alone: one lemma for each.
-/
set_option linter.all false

namespace Sys2Proof.Machine

theorem State.platform_mk (pending regs mem dram now stateSince fresh outbox cmd log locks arbs evt time msix motion ppos mons lanes chain rings hostSize chk ingest job bars fire nvc eye insp noz spare latches pwr) :
    State.platform ⟨pending, regs, mem, dram, now, stateSince, fresh, outbox, cmd, log, locks, arbs, evt, time, msix, motion, ppos, mons, lanes, chain, rings, hostSize, chk, ingest, job, bars, fire, nvc, eye, insp, noz, spare, latches, pwr⟩ = (locks, spare, nvc, pwr, dram, hostSize, arbs, rings, latches) := (rfl)

theorem State.platform_keep (s : State) (pending regs mem now stateSince fresh outbox cmd log evt time msix motion ppos mons lanes chain chk ingest job bars fire eye insp noz) :
    State.platform ⟨pending, regs, mem, s.dram, now, stateSince, fresh, outbox, cmd, log, s.locks, s.arbs, evt, time, msix, motion, ppos, mons, lanes, chain, s.rings, s.hostSize, chk, ingest, job, bars, fire, s.nvc, eye, insp, noz, s.spare, s.latches, s.pwr⟩ = s.platform := (rfl)

theorem foldl_platform {α : Type} (f : State → α → State) (h : ∀ s x, (f s x).platform = s.platform) (l : List α)
    (s : State) : (l.foldl f s).platform = s.platform := by
  induction l generalizing s with
  | nil => rfl
  | cons x l ih => simp only [List.foldl_cons, ih, h]

theorem ite_platform (c : Prop) [Decidable c] (a b : State) :
    (if c then a else b).platform = if c then a.platform else b.platform := by split <;> rfl

theorem dite_platform (c : Prop) [Decidable c] (a : c → State) (b : ¬c → State) :
    (dite c a b).platform = dite c (fun h => (a h).platform) (fun h => (b h).platform) := by split <;> rfl

@[simp] theorem State.enqueue_platform (s : State) (q : Queued) : (State.enqueue s q).platform = s.platform := by
  simp only [State.enqueue.eq_def, ↓State.platform_keep]

@[simp] theorem State.setCam_platform (s : State) (n : Nat) (x : Cam) : (State.setCam s n x).platform = s.platform := by
  simp only [State.setCam.eq_def, ↓State.platform_keep]

@[simp] theorem State.noteGens_platform (s : State) (n : Nat) (l : GridLine) : (State.noteGens s n l).platform = s.platform := by
  simp only [State.noteGens.eq_def, ↓State.setCam_platform]

@[simp] theorem State.noteOwner_platform (s : State) (lines : List (Nat × GridLine)) (n : Nat) :
    (State.noteOwner s lines n).platform = s.platform := by
  rw [State.noteOwner.eq_def]
  repeat' split
  all_goals simp only [↓State.noteGens_platform]

@[simp] theorem State.setReg_platform (s : State) (a : Nat) (w : Word) : (State.setReg s a w).platform = s.platform := by
  simp only [State.setReg.eq_def, ↓State.platform_keep]

@[simp] theorem State.setFld_platform (s : State) (f : Fld) (v : Nat) : (State.setFld s f v).platform = s.platform := by
  simp only [State.setFld.eq_def, ↓State.setReg_platform]

@[simp] theorem State.bump_platform (s : State) (f : Fld) (n : Nat) : (State.bump s f n).platform = s.platform := by
  simp only [State.bump.eq_def, ↓State.setFld_platform]

@[simp] theorem State.raise_platform (s : State) (prod : Nat) (tag : Option Nat) :
    (State.raise s prod tag).platform = s.platform := by
  simp only [State.raise.eq_def, ↓State.setFld_platform, ↓State.bump_platform, ↓ite_platform, ite_self, ↓State.platform_keep]

@[simp] theorem State.raiseIf_platform (s : State) (en : Bool) (prod : Nat) (tag : Option Nat) :
    (State.raiseIf s en prod tag).platform = s.platform := by
  simp only [State.raiseIf.eq_def, ↓State.raise_platform, ↓ite_platform, ite_self]

@[simp] theorem State.jigEvent_platform (s : State) (bit : Nat) (f : Fld) : (State.jigEvent s bit f).platform = s.platform := by
  simp only [State.jigEvent.eq_def, ↓State.raiseIf_platform, ↓State.setFld_platform]

@[simp] theorem State.scoreFrame_platform (s : State) (n : Nat) (num : Nat) : (State.scoreFrame s n num).platform = s.platform := by
  rw [State.scoreFrame.eq_def] <;> (try simp only [↓State.setCam_platform, ↓State.jigEvent_platform, ↓foldl_platform, ↓ite_platform,
      ↓dite_platform, ↓reduceIte, ite_self, implies_true,
      ↓State.platform_keep]) <;> repeat' ((first | split | (rw [foldl_platform]; intro s x)) <;> try simp only [↓State.setCam_platform,
      ↓State.jigEvent_platform, ↓foldl_platform, ↓ite_platform, ↓dite_platform, ↓reduceIte, ite_self, implies_true,
      ↓State.platform_keep])

@[simp] theorem State.beginFrame_platform (s : State) (n : Nat) (num : Nat) : (State.beginFrame s n num).platform = s.platform := by
  simp only [State.beginFrame.eq_def, ↓State.scoreFrame_platform, ↓State.setCam_platform, ↓foldl_platform, implies_true]

theorem State.compareRow_platform (s : State) (n lo hi : Nat) (l : GridLine) (r : CmpRow × State)     (h :
    s.compareRow n lo hi l = some r) :
    r.2.platform = s.platform := by
  rw [State.compareRow] at h
  dsimp only at h
  split at h
  · cases h
  · split at h
    · cases h
    · cases h
      rw [State.setCam_platform, State.beginFrame_platform]

@[simp] theorem State.compareAll_platform (s : State) (lines : List (Nat × GridLine)) (x2 : List (Nat × Nat × Nat)) :
    (State.compareAll s lines x2).2.platform = s.platform := by
  induction x2 generalizing s with
  | nil => rfl
  | cons o t ih =>
    rw [State.compareAll]
    split
    · rename_i row s' h
      obtain ⟨l, -, h⟩ := Option.bind_eq_some_iff.mp h
      rw [ih, State.compareRow_platform _ _ _ _ _ _ h, State.noteOwner_platform]
    · rw [ih, State.noteOwner_platform]

@[simp] theorem State.modeRefused_platform (s : State) (unfit : Option Nat) : (State.modeRefused s unfit).platform = s.platform := by
  rw [State.modeRefused.eq_def]
  repeat' split
  all_goals simp only [↓State.setFld_platform]

@[simp] theorem State.putArb_platform (s : State) (e : RegEntry) (new : Word) : (State.putArb s e new).platform = s.platform := by
  rw [State.putArb.eq_def]
  repeat' split
  all_goals simp only [↓State.setReg_platform, ↓State.setFld_platform, ↓ite_platform, ite_self]

@[simp] theorem State.mend_platform (s : State) (c : Nat) : (State.mend s c).platform = s.platform := by
  simp only [State.mend.eq_def, ↓State.setFld_platform]

@[simp] theorem State.bumpWrap_platform (s : State) (f : Fld) (n : Nat) : (State.bumpWrap s f n).platform = s.platform := by
  simp only [State.bumpWrap.eq_def, ↓State.setFld_platform]

@[simp] theorem State.log1_platform (s : State) (code : Nat) (block : Nat) (inst : Nat) (cond : Nat) (detail : List
    Nat) :
    (State.log1 s code block inst cond detail).platform = s.platform := by
  simp only [State.log1.eq_def, ↓State.bumpWrap_platform, ↓State.platform_keep]

@[simp] theorem State.breach_platform (s : State) (c : Nat) (block : Nat) (inst : Nat) (detail : List Nat) :
    (State.breach s c block inst detail).platform = s.platform := by
  simp only [State.breach.eq_def, ↓State.raise_platform, ↓State.log1_platform, ↓State.setFld_platform]

@[simp] theorem State.breachOnce_platform (s : State) (c : Nat) (block : Nat) (inst : Nat) (detail : List Nat) :
    (State.breachOnce s c block inst detail).platform = s.platform := by
  simp only [State.breachOnce.eq_def, ↓State.mend_platform, ↓State.breach_platform]

@[simp] theorem State.emit_platform (s : State) (o : Out) : (State.emit s o).platform = s.platform := by
  simp only [State.emit.eq_def, ↓State.platform_keep]

@[simp] theorem State.tellEngine_platform (s : State) (engine : Nat) (lock : Nat) (status : Nat) :
    (State.tellEngine s engine lock status).platform = s.platform := by
  simp only [State.tellEngine.eq_def, ↓State.emit_platform]

@[simp] theorem State.setSession_platform (s : State) (n : Nat) (x : Session) : (State.setSession s n x).platform = s.platform := by
  simp only [State.setSession.eq_def, ↓State.platform_keep]

@[simp] theorem State.setSlot_platform (s : State) (sess : Nat) (tag : Nat) (x : Slot) :
    (State.setSlot s sess tag x).platform = s.platform := by
  simp only [State.setSlot.eq_def, ↓State.setSession_platform]

@[simp] theorem State.setRing_platform (s : State) (r : Nat) (x : Ring) : (State.setRing s r x).platform = s.platform := by
  simp only [State.setRing.eq_def, ↓State.platform_keep]

@[simp] theorem State.setStall_platform (s : State) (r : Nat) : (State.setStall s r).platform = s.platform := by
  simp only [State.setStall.eq_def, ↓State.setFld_platform]

@[simp] theorem State.msixSignal_platform (s : State) (v : Nat) : (State.msixSignal s v).platform = s.platform := by
  simp only [State.msixSignal.eq_def, ↓State.emit_platform, ↓ite_platform, ite_self, ↓State.platform_keep]

@[simp] theorem State.ringNotify_platform (s : State) (r : Nat) : (State.ringNotify s r).platform = s.platform := by
  simp only [State.ringNotify.eq_def, ↓State.msixSignal_platform, ↓State.emit_platform]

@[simp] theorem State.ringWrite_platform (s : State) (r : Nat) (rep : Reply) : (State.ringWrite s r rep).platform = s.platform := by
  simp only [State.ringWrite.eq_def, ↓State.emit_platform, ↓State.setRing_platform, ↓State.setStall_platform,
    ↓State.ringNotify_platform, ↓ite_platform, ite_self]

@[simp] theorem State.ringReply_platform (s : State) (r : Nat) (rep : Reply) : (State.ringReply s r rep).platform = s.platform := by
  simp only [State.ringReply.eq_def, ↓State.ringWrite_platform, ↓State.setRing_platform, ↓ite_platform, ite_self]

@[simp] theorem State.sendDatagram_platform (s : State) (ip : Nat) (port : Nat) (b : List Byte) :
    (State.sendDatagram s ip port b).platform = s.platform := by
  rw [State.sendDatagram.eq_def]
  repeat' split
  all_goals simp only [↓State.bump_platform, ↓State.emit_platform]

@[simp] theorem State.setLink_platform (s : State) (west : Bool) (l : ChainLink) :
    (State.setLink s west l).platform = s.platform := by
  simp only [State.setLink.eq_def, ↓State.platform_keep]

@[simp] theorem State.setLane_platform (s : State) (l : Nat) (x : Lane) : (State.setLane s l x).platform = s.platform := by
  simp only [State.setLane.eq_def, ↓State.platform_keep]

@[simp] theorem State.laneSent_platform (s : State) (l : Nat) (bs : List Block) : (State.laneSent s l bs).platform = s.platform := by
  simp only [State.laneSent.eq_def, ↓State.setLane_platform]

@[simp] theorem State.chainSend_platform (s : State) (west : Bool) (b : List Byte) :
    (State.chainSend s west b).platform = s.platform := by
  have f (l : List (Nat × List Block)) (s : State) : (l.foldl (fun s p => s.laneSent p.1 p.2) s).platform = s.platform :=
    foldl_platform _ (fun s p => State.laneSent_platform ..) l s
  simp only [State.chainSend, State.emit_platform, State.setLink_platform, f]

@[simp] theorem State.chainDrain_platform (s : State) (west : Bool) : (State.chainDrain s west).platform = s.platform := by
  simp only [State.chainDrain, foldl_platform _ (fun s b => State.chainSend_platform s west b), State.setLink_platform]

@[simp] theorem State.chainSendOn_platform (s : State) (west : Bool) (transit : Bool) (b : List Byte) :
    (State.chainSendOn s west transit b).platform = s.platform := by
  simp only [State.chainSendOn.eq_def, ↓State.chainDrain_platform, ↓State.setLink_platform, ↓ite_platform, ite_self]

@[simp] theorem State.chainTo_platform (s : State) (type : Nat) (dst : Nat) (cls : Nat) (body : List Byte) :
    (State.chainTo s type dst cls body).platform = s.platform := by
  rw [State.chainTo.eq_def]
  repeat' split
  all_goals simp only [↓State.chainSendOn_platform]

@[simp] theorem State.deliver_platform (s : State) (sess : Nat) (rep : Reply) : (State.deliver s sess rep).platform = s.platform := by
  rw [State.deliver.eq_def]
  repeat' split
  all_goals simp only [↓State.ringReply_platform, ↓State.sendDatagram_platform, ↓State.chainTo_platform]

@[simp] theorem State.complete_platform (s : State) (sess : Nat) (tag : Nat) (seq : Nat) (opcode : Nat) (need :
    Bool) (status : Nat) (payload : List Byte) (more : Bool) (member : Option Nat) :
    (State.complete s sess tag seq opcode need status payload more member).platform = s.platform := by
  simp only [State.complete.eq_def, ↓State.setSlot_platform, ↓State.deliver_platform, ↓ite_platform, ite_self]

@[simp] theorem State.finishSlot_platform (s : State) (sess : Nat) (tag : Nat) (status : Nat) (payload : List Byte)
    (more : Bool) :
    (State.finishSlot s sess tag status payload more).platform = s.platform := by
  simp only [State.finishSlot.eq_def, ↓State.complete_platform, ↓ite_platform, ite_self]

@[simp] theorem State.cmdErr_platform (s : State) (cause : Nat) (addr : Nat) : (State.cmdErr s cause addr).platform = s.platform := by
  simp only [State.cmdErr.eq_def, ↓State.setFld_platform, ↓ite_platform, ite_self]

@[simp] theorem State.drainReplies_platform (s : State) (r : Nat) (x2 : List Reply) :
    (State.drainReplies s r x2).platform = s.platform := by
  induction x2 generalizing s with
  | nil => exact State.setRing_platform ..
  | cons p l ih =>
    rw [State.drainReplies]
    split
    · rw [ih, State.ringWrite_platform]
    · exact State.setRing_platform ..

@[simp] theorem State.ringEnabled_platform (s : State) (r : Nat) (was : Bool) :
    (State.ringEnabled s r was).platform = s.platform := by
  simp only [State.ringEnabled.eq_def, ↓State.setRing_platform, ↓State.setSession_platform, ↓State.setStall_platform,
    ↓State.drainReplies_platform, ↓ite_platform, ite_self]

@[simp] theorem State.putCmd_platform (s : State) (e : RegEntry) (old : Word) (new : Word) :
    (State.putCmd s e old new).platform = s.platform := by
  simp only [State.putCmd.eq_def, ↓State.setReg_platform, ↓State.cmdErr_platform, ↓State.ringEnabled_platform, ↓ite_platform,
    ite_self]

@[simp] theorem State.setDmaCh_platform (s : State) (ch : Nat) (x : DmaChan) : (State.setDmaCh s ch x).platform = s.platform := by
  simp only [State.setDmaCh.eq_def, ↓State.platform_keep]

@[simp] theorem State.haltDone_platform (s : State) : (State.haltDone s).platform = s.platform := by
  rw [State.haltDone.eq_def]
  repeat' split
  all_goals simp only [↓State.setFld_platform, ↓State.msixSignal_platform, ↓State.raise_platform, ↓State.platform_keep]

@[simp] theorem State.setPage_platform (s : State) (ch : Nat) (x : Ingest) : (State.setPage s ch x).platform = s.platform := by
  simp only [State.setPage.eq_def, ↓State.platform_keep]

@[simp] theorem State.freeUnits_platform (s : State) (x : Ingest) : (State.freeUnits s x).platform = s.platform := by
  simp only [State.freeUnits.eq_def, ↓State.setFld_platform, ↓foldl_platform, implies_true]

@[simp] theorem State.dropPage_platform (s : State) (ch : Nat) (status : Nat) (payload : List Byte) :
    (State.dropPage s ch status payload).platform = s.platform := by
  simp only [State.dropPage.eq_def, ↓State.setPage_platform, ↓State.freeUnits_platform, ↓State.finishSlot_platform,
    ↓State.platform_keep]

@[simp] theorem State.dmaMark_platform (s : State) (ch : Nat) : (State.dmaMark s ch).platform = s.platform := by
  simp only [State.dmaMark.eq_def, ↓State.setFld_platform]

@[simp] theorem State.dmaDone_platform (s : State) (ch : Nat) : (State.dmaDone s ch).platform = s.platform := by
  simp only [State.dmaDone.eq_def, ↓State.msixSignal_platform, ↓State.dmaMark_platform]

@[simp] theorem State.writeBack_platform (s : State) (ch : Nat) (code : Nat) (addr : Nat) (residue : Nat) :
    (State.writeBack s ch code addr residue).platform = s.platform := by
  simp only [State.writeBack.eq_def, ↓State.emit_platform, ↓ite_platform, ite_self]

@[simp] theorem State.chkUser_platform (s : State) (ch : Nat) (start : Bool) : (State.chkUser s ch start).platform = s.platform := by
  simp only [State.chkUser.eq_def, ↓State.setFld_platform, ↓ite_platform, ite_self]

@[simp] theorem State.setFlag_platform (s : State) (f : Fld) (b : Bool) : (State.setFlag s f b).platform = s.platform := by
  simp only [State.setFlag.eq_def, ↓State.setFld_platform]

@[simp] theorem State.chainStop_platform (s : State) (ch : Nat) (code : Nat) (own : Bool) (stopped : Bool) :
    (State.chainStop s ch code own stopped).platform = s.platform := by
  simp only [State.chainStop.eq_def, ↓State.chkUser_platform, ↓State.setDmaCh_platform, ↓State.setFld_platform,
    ↓State.setFlag_platform]

@[simp] theorem State.chainEnd_platform (s : State) (ch : Nat) (code : Nat) (addr : Nat) (residue : Nat) (own :
    Bool) (stopped : Bool) :
    (State.chainEnd s ch code addr residue own stopped).platform = s.platform := by
  simp only [State.chainEnd.eq_def, ↓State.dmaDone_platform, ↓State.writeBack_platform, ↓State.chainStop_platform,
    ↓State.breachOnce_platform, ↓ite_platform, ite_self]

@[simp] theorem State.stopPage_platform (s : State) (ch : Nat) (status : Nat) (payload : List Byte) :
    (State.stopPage s ch status payload).platform = s.platform := by
  simp only [State.stopPage.eq_def, ↓State.dropPage_platform, ↓State.haltDone_platform, ↓State.chainEnd_platform, ↓ite_platform,
    ite_self]

@[simp] theorem State.latchError_platform (s : State) (unit : Nat) (code : Nat) (plane : Nat) (off : Nat) (bit :
    Nat) (page : Nat) :
    (State.latchError s unit code plane off bit page).platform = s.platform := by
  simp only [State.latchError.eq_def, ↓State.setFld_platform, ↓State.log1_platform, ↓State.bump_platform, ↓ite_platform, ite_self]

@[simp] theorem State.failPage_platform (s : State) (ch : Nat) (e : PageError) : (State.failPage s ch e).platform = s.platform := by
  simp only [State.failPage.eq_def, ↓State.stopPage_platform, ↓State.latchError_platform]

@[simp] theorem State.storePage_platform (s : State) (ch : Nat) : (State.storePage s ch).platform = s.platform := by
  simp only [State.storePage.eq_def, ↓State.setPage_platform, ↓State.finishSlot_platform, ↓State.platform_keep]

@[simp] theorem State.judgePage_platform (s : State) (ch : Nat) : (State.judgePage s ch).platform = s.platform := by
  simp only [State.judgePage.eq_def, ↓State.failPage_platform, ↓State.storePage_platform, ↓ite_platform, ite_self]

@[simp] theorem State.shortPage_platform (s : State) (ch : Nat) : (State.shortPage s ch).platform = s.platform := by
  simp only [State.shortPage.eq_def, ↓State.failPage_platform, ↓ite_platform, ite_self]

@[simp] theorem State.chainPage_platform (s : State) (ch : Nat) (code : Nat) : (State.chainPage s ch code).platform = s.platform := by
  rw [State.chainPage.eq_def]
  repeat' split
  all_goals simp only [↓State.judgePage_platform, ↓State.shortPage_platform, ↓State.setPage_platform, ↓State.dropPage_platform,
    ↓State.log1_platform, ↓ite_platform, ite_self]

@[simp] theorem State.endChain_platform (s : State) (ch : Nat) (code : Nat) (addr : Nat) (residue : Nat) (own :
    Bool) (stopped : Bool) :
    (State.endChain s ch code addr residue own stopped).platform = s.platform := by
  simp only [State.endChain.eq_def, ↓State.haltDone_platform, ↓State.chainPage_platform, ↓State.chainEnd_platform]

@[simp] theorem State.stopChain_platform (s : State) (ch : Nat) (code : Nat) (own : Bool) (stopped : Bool) :
    (State.stopChain s ch code own stopped).platform = s.platform := by
  simp only [State.stopChain.eq_def, ↓State.setDmaCh_platform, ↓State.endChain_platform, ↓ite_platform, ite_self]

@[simp] theorem State.chainStart_platform (s : State) (ch : Nat) : (State.chainStart s ch).platform = s.platform := by
  simp only [State.chainStart.eq_def, ↓State.setFld_platform, ↓State.chkUser_platform, ↓State.setDmaCh_platform]

@[simp] theorem State.putDma_platform (s : State) (e : RegEntry) (new : Word) : (State.putDma s e new).platform = s.platform := by
  simp only [State.putDma.eq_def, ↓State.setReg_platform, ↓State.stopChain_platform, ↓State.chainStart_platform, ↓ite_platform,
    ite_self]

@[simp] theorem State.showStackMax_platform (s : State) : (State.showStackMax s).platform = s.platform := by
  simp only [State.showStackMax.eq_def, ↓State.setFld_platform]

@[simp] theorem State.setBar_platform (s : State) (b : Nat) (x : Bar) : (State.setBar s b x).platform = s.platform := by
  simp only [State.setBar.eq_def, ↓State.platform_keep]

@[simp] theorem State.showBank_platform (s : State) (b : Nat) : (State.showBank s b).platform = s.platform := by
  simp only [State.showBank.eq_def, ↓State.setFlag_platform, ↓State.setFld_platform]

@[simp] theorem State.setNoz1_platform (s : State) (b : Nat) (x : Nat) (e : NozEntry) :
    (State.setNoz1 s b x e).platform = s.platform := by
  simp only [State.setNoz1.eq_def, ↓State.platform_keep]

@[simp] theorem State.setLoopBar_platform (s : State) (b : Nat) (x : LoopBar) : (State.setLoopBar s b x).platform = s.platform := by
  simp only [State.setLoopBar.eq_def, ↓State.platform_keep]

@[simp] theorem State.loopSwapped_platform (s : State) (b : Nat) : (State.loopSwapped s b).platform = s.platform := by
  simp only [State.loopSwapped.eq_def, ↓State.setNoz1_platform, ↓State.setLoopBar_platform, ↓State.setFld_platform,
    ↓State.finishSlot_platform, ↓foldl_platform, implies_true]

@[simp] theorem State.swapBar_platform (s : State) (b : Nat) : (State.swapBar s b).platform = s.platform := by
  simp only [State.swapBar.eq_def, ↓State.setFld_platform, ↓State.showBank_platform, ↓State.setBar_platform,
    ↓State.raiseIf_platform, ↓State.loopSwapped_platform]

@[simp] theorem State.swapRequest_platform (s : State) (b : Nat) : (State.swapRequest s b).platform = s.platform := by
  simp only [State.swapRequest.eq_def, ↓State.setFld_platform, ↓State.swapBar_platform, ↓ite_platform, ite_self]

@[simp] theorem State.putDose_platform (s : State) (e : RegEntry) (old : Word) (new : Word) :
    (State.putDose s e old new).platform = s.platform := by
  simp only [State.putDose.eq_def, ↓State.setReg_platform, ↓State.showStackMax_platform, ↓State.setBar_platform,
    ↓State.swapRequest_platform, ↓ite_platform, ite_self]

@[simp] theorem State.setBoard_platform (s : State) (k : Nat) (x : Board) : (State.setBoard s k x).platform = s.platform := by
  simp only [State.setBoard.eq_def, ↓State.platform_keep]

@[simp] theorem State.headSend_platform (s : State) (k : Nat) (l : Nat) (b : List Byte) :
    (State.headSend s k l b).platform = s.platform := by
  simp only [State.headSend.eq_def, ↓State.emit_platform, ↓State.laneSent_platform]

@[simp] theorem State.boardSend_platform (s : State) (k : Nat) (type : Nat) (flags : Nat) (frame : Nat) (body : List
    Byte) :
    (State.boardSend s k type flags frame body).platform = s.platform := by
  simp only [State.boardSend.eq_def, ↓State.headSend_platform]

@[simp] theorem State.sendHello_platform (s : State) (k : Nat) : (State.sendHello s k).platform = s.platform := by
  simp only [State.sendHello.eq_def, ↓State.setBoard_platform, ↓State.boardSend_platform]

@[simp] theorem State.setBst_platform (s : State) (k : Nat) (v : Nat) : (State.setBst s k v).platform = s.platform := by
  simp only [State.setBst.eq_def, ↓State.setFld_platform]

@[simp] theorem State.boardTrain_platform (s : State) (k : Nat) : (State.boardTrain s k).platform = s.platform := by
  simp only [State.boardTrain.eq_def, ↓State.sendHello_platform, ↓State.setBst_platform, ↓ite_platform, ite_self]

@[simp] theorem State.setCredits_platform (s : State) (k : Nat) (v : Nat) : (State.setCredits s k v).platform = s.platform := by
  simp only [State.setCredits.eq_def, ↓State.setFld_platform]

@[simp] theorem State.boardOff_platform (s : State) (k : Nat) : (State.boardOff s k).platform = s.platform := by
  simp only [State.boardOff.eq_def, ↓State.setBoard_platform, ↓State.setCredits_platform, ↓State.setBst_platform]

@[simp] theorem State.boardRefresh_platform (s : State) (k : Nat) : (State.boardRefresh s k).platform = s.platform := by
  simp only [State.boardRefresh.eq_def, ↓State.boardTrain_platform, ↓State.setBst_platform, ↓State.boardOff_platform, ↓ite_platform,
    ite_self]

@[simp] theorem State.boardEnable_platform (s : State) (k : Nat) (v : Bool) : (State.boardEnable s k v).platform = s.platform := by
  simp only [State.boardEnable.eq_def, ↓State.boardRefresh_platform, ↓State.setFlag_platform]

@[simp] theorem State.boardClear_platform (s : State) (k : Nat) : (State.boardClear s k).platform = s.platform := by
  simp only [State.boardClear.eq_def, ↓State.setFld_platform, ↓State.setBoard_platform, ↓State.sendHello_platform, ↓ite_platform,
    ite_self]

@[simp] theorem State.fireEvent_platform (s : State) (bit : Nat) (tag : Option Nat) :
    (State.fireEvent s bit tag).platform = s.platform := by
  simp only [State.fireEvent.eq_def, ↓State.raiseIf_platform]

@[simp] theorem State.setReq_platform (s : State) (v : Nat) : (State.setReq s v).platform = s.platform := by
  simp only [State.setReq.eq_def, ↓State.fireEvent_platform, ↓State.setFld_platform, ↓ite_platform, ite_self]

@[simp] theorem State.putFire_platform (s : State) (e : RegEntry) (old : Word) (new : Word) :
    (State.putFire s e old new).platform = s.platform := by
  simp only [State.putFire.eq_def, ↓State.setReg_platform, ↓State.boardEnable_platform, ↓State.boardClear_platform,
    ↓State.setReq_platform, ↓ite_platform, ite_self]

@[simp] theorem State.closeFrame_platform (s : State) (n : Nat) (short : Bool) :
    (State.closeFrame s n short).platform = s.platform := by
  simp only [State.closeFrame.eq_def, ↓State.setFld_platform, ↓State.setCam_platform]

@[simp] theorem State.kalPdat_platform (s : State) (p : Nat) (v : Word) : (State.kalPdat s p v).platform = s.platform := by
  simp only [State.kalPdat.eq_def, ↓State.bumpWrap_platform, ↓State.setCam_platform]

@[simp] theorem State.putKal_platform (s : State) (e : RegEntry) (new : Word) : (State.putKal s e new).platform = s.platform := by
  rw [State.putKal.eq_def]
  repeat' split
  all_goals simp only [↓State.setReg_platform, ↓State.setCam_platform, ↓State.kalPdat_platform]

@[simp] theorem State.showTabPend_platform (s : State) : (State.showTabPend s).platform = s.platform := by
  simp only [State.showTabPend.eq_def, ↓State.setFlag_platform]

@[simp] theorem State.rsmpApply_platform (s : State) (n : Nat) : (State.rsmpApply s n).platform = s.platform := by
  simp only [State.rsmpApply.eq_def, ↓State.setCam_platform, ↓State.showTabPend_platform, ↓ite_platform, ite_self]

@[simp] theorem State.rsmpSwap_platform (s : State) (r : Nat) : (State.rsmpSwap s r).platform = s.platform := by
  simp only [State.rsmpSwap.eq_def, ↓State.setFld_platform, ↓ite_platform, ite_self]

@[simp] theorem State.rsmpPdat_platform (s : State) (r : Nat) (v : Word) : (State.rsmpPdat s r v).platform = s.platform := by
  simp only [State.rsmpPdat.eq_def, ↓State.bumpWrap_platform, ↓State.setCam_platform]

@[simp] theorem State.putRsmp_platform (s : State) (e : RegEntry) (new : Word) : (State.putRsmp s e new).platform = s.platform := by
  rw [State.putRsmp.eq_def]
  repeat' split
  all_goals simp only [↓State.setReg_platform, ↓State.rsmpApply_platform, ↓State.rsmpSwap_platform, ↓State.rsmpPdat_platform]

@[simp] theorem State.zeroCorr_platform (s : State) : (State.zeroCorr s).platform = s.platform := by
  simp only [State.zeroCorr.eq_def, ↓State.setCam_platform, ↓foldl_platform, ↓ite_platform, ite_self, implies_true]

@[simp] theorem State.gather_platform (s : State) (f : Finding) (x : Nat) : (State.gather s f x).platform = s.platform := by
  simp only [State.gather.eq_def, ↓State.setLoopBar_platform, ↓ite_platform, ite_self]

@[simp] theorem State.nozEvent_platform (s : State) (bit : Nat) (shown : Fld) :
    (State.nozEvent s bit shown).platform = s.platform := by
  simp only [State.nozEvent.eq_def, ↓State.raiseIf_platform, ↓State.setFld_platform]

@[simp] theorem State.countEntry_platform (s : State) (state : Nat) : (State.countEntry s state).platform = s.platform := by
  rw [State.countEntry.eq_def]
  repeat' split
  all_goals simp only [↓State.nozEvent_platform, ↓State.bump_platform]

@[simp] theorem State.loopOff_platform (s : State) (b : Nat) : (State.loopOff s b).platform = s.platform := by
  simp only [State.loopOff.eq_def, ↓State.setLoopBar_platform, ↓State.finishSlot_platform, ↓foldl_platform, implies_true]

@[simp] theorem State.encEnabled_platform (s : State) (e : Nat) : (State.encEnabled s e).platform = s.platform := by
  simp only [State.encEnabled.eq_def, ↓State.setFld_platform]

@[simp] theorem State.axEnter_platform (s : State) (a : Nat) (st : Nat) : (State.axEnter s a st).platform = s.platform := by
  simp only [State.axEnter.eq_def, ↓State.setFld_platform, ↓State.emit_platform, ↓ite_platform, ite_self]

@[simp] theorem State.setFldI_platform (s : State) (f : Fld) (x : Int) : (State.setFldI s f x).platform = s.platform := by
  simp only [State.setFldI.eq_def, ↓State.setFld_platform]

@[simp] theorem State.setAxPos_platform (s : State) (a : Nat) (p : Int) : (State.setAxPos s a p).platform = s.platform := by
  simp only [State.setAxPos.eq_def, ↓State.setFldI_platform]

@[simp] theorem State.setAxis_platform (s : State) (a : Nat) (x : Axis) : (State.setAxis s a x).platform = s.platform := by
  simp only [State.setAxis.eq_def, ↓State.platform_keep]

@[simp] theorem State.axShift_platform (s : State) (a : Nat) (d : Int) : (State.axShift s a d).platform = s.platform := by
  simp only [State.axShift.eq_def, ↓State.setAxPos_platform, ↓State.setAxis_platform]

@[simp] theorem State.homeUndone_platform (s : State) (a : Nat) : (State.homeUndone s a).platform = s.platform := by
  simp only [State.homeUndone.eq_def, ↓State.setFld_platform, ↓State.axShift_platform, ↓State.setAxis_platform, ↓ite_platform,
    ite_self]

@[simp] theorem State.axPlan_platform (s : State) (a : Nat) (p : AxisPlan) : (State.axPlan s a p).platform = s.platform := by
  simp only [State.axPlan.eq_def, ↓State.setAxis_platform]

@[simp] theorem State.axRamp_platform (s : State) (a : Nat) (kind : Nat) : (State.axRamp s a kind).platform = s.platform := by
  rw [State.axRamp.eq_def]
  repeat' split
  all_goals simp only [↓State.axPlan_platform]

@[simp] theorem State.axEvent_platform (s : State) (a : Nat) (bit : Nat) (tag : Option Nat) :
    (State.axEvent s a bit tag).platform = s.platform := by
  simp only [State.axEvent.eq_def, ↓State.raiseIf_platform]

@[simp] theorem State.limitTrip_platform (s : State) (a : Nat) : (State.limitTrip s a).platform = s.platform := by
  rw [State.limitTrip.eq_def] <;> (try simp only [↓State.log1_platform, ↓State.homeUndone_platform, ↓State.setAxis_platform,
      ↓State.setFld_platform, ↓State.axRamp_platform, ↓State.axEvent_platform, ↓State.axEnter_platform, ↓foldl_platform, ↓ite_platform,
      ↓dite_platform, ↓reduceIte, ite_self, implies_true,
      ↓State.platform_keep]) <;> repeat' ((first | split | (rw [foldl_platform]; intro s x)) <;> try simp only [↓State.log1_platform,
      ↓State.homeUndone_platform, ↓State.setAxis_platform, ↓State.setFld_platform, ↓State.axRamp_platform, ↓State.axEvent_platform,
      ↓State.axEnter_platform, ↓foldl_platform, ↓ite_platform, ↓dite_platform, ↓reduceIte, ite_self, implies_true,
      ↓State.platform_keep])

@[simp] theorem State.axFollowing_platform (s : State) (a : Nat) : (State.axFollowing s a).platform = s.platform := by
  simp only [State.axFollowing.eq_def, ↓State.axEnter_platform, ↓State.setAxis_platform]

@[simp] theorem State.axSettle_platform (s : State) (a : Nat) : (State.axSettle s a).platform = s.platform := by
  simp only [State.axSettle.eq_def, ↓State.axEnter_platform, ↓State.limitTrip_platform, ↓State.axFollowing_platform, ↓ite_platform,
    ite_self]

@[simp] theorem State.liftLeft_platform (s : State) (a : Nat) : (State.liftLeft s a).platform = s.platform := by
  simp only [State.liftLeft.eq_def, ↓State.axEvent_platform, ↓ite_platform, ite_self]

@[simp] theorem State.setCons_platform (s : State) (k : Nat) (x : EvtCons) : (State.setCons s k x).platform = s.platform := by
  simp only [State.setCons.eq_def, ↓State.platform_keep]

@[simp] theorem State.endTask_platform (s : State) (k : Nat) : (State.endTask s k).platform = s.platform := by
  simp only [State.endTask.eq_def, ↓State.setCons_platform, ↓ite_platform, ite_self]

@[simp] theorem State.axAnswer_platform (s : State) (a : Nat) : (State.axAnswer s a).platform = s.platform := by
  rw [State.axAnswer.eq_def] <;> (try simp only [↓State.finishSlot_platform, ↓State.setAxis_platform, ↓foldl_platform,
      ↓ite_platform, ↓dite_platform, ↓reduceIte, ite_self, implies_true,
      ↓State.platform_keep]) <;> repeat' ((first | split | (rw [foldl_platform]; intro s x)) <;> try simp only [↓State.finishSlot_platform,
      ↓State.setAxis_platform, ↓foldl_platform, ↓ite_platform, ↓dite_platform, ↓reduceIte, ite_self, implies_true,
      ↓State.platform_keep])

@[simp] theorem State.axEnabled_platform (s : State) (a : Nat) : (State.axEnabled s a).platform = s.platform := by
  simp only [State.axEnabled.eq_def, ↓State.axSettle_platform, ↓State.liftLeft_platform, ↓State.setFld_platform,
    ↓State.axEnter_platform, ↓State.endTask_platform, ↓State.axAnswer_platform, ↓State.setAxis_platform, ↓ite_platform, ite_self]

@[simp] theorem State.followWritten_platform (s : State) (a : Nat) : (State.followWritten s a).platform = s.platform := by
  simp only [State.followWritten.eq_def, ↓State.axFollowing_platform, ↓State.axSettle_platform, ↓State.setAxis_platform,
    ↓ite_platform, ite_self]

@[simp] theorem State.showLimit_platform (s : State) (a : Nat) : (State.showLimit s a).platform = s.platform := by
  simp only [State.showLimit.eq_def, ↓State.setFlag_platform]

@[simp] theorem State.limitSelected_platform (s : State) (a : Nat) : (State.limitSelected s a).platform = s.platform := by
  simp only [State.limitSelected.eq_def, ↓State.showLimit_platform, ↓State.limitTrip_platform, ↓ite_platform, ite_self]

@[simp] theorem State.putAxis_platform (s : State) (e : RegEntry) (old : Word) (new : Word) :
    (State.putAxis s e old new).platform = s.platform := by
  rw [State.putAxis.eq_def]
  repeat' split
  all_goals simp only [↓State.setReg_platform, ↓State.axEnabled_platform, ↓State.followWritten_platform,
    ↓State.limitSelected_platform]

@[simp] theorem State.lockLost_platform (s : State) (d : Nat) : (State.lockLost s d).platform = s.platform := by
  simp only [State.lockLost.eq_def, ↓State.setFld_platform, ↓State.raiseIf_platform, ↓ite_platform, ite_self]

@[simp] theorem State.setClock_platform (s : State) (d : Nat) (c : Clock) : (State.setClock s d c).platform = s.platform := by
  simp only [State.setClock.eq_def, ↓State.platform_keep]

@[simp] theorem State.sourceGone_platform (s : State) (d : Nat) : (State.sourceGone s d).platform = s.platform := by
  simp only [State.sourceGone.eq_def, ↓State.lockLost_platform, ↓State.setFld_platform, ↓State.setClock_platform]

@[simp] theorem State.showUtc_platform (s : State) : (State.showUtc s).platform = s.platform := by
  rw [State.showUtc.eq_def]
  repeat' split
  all_goals simp only [↓State.setFld_platform]

@[simp] theorem State.sourceChanged_platform (s : State) (d : Nat) : (State.sourceChanged s d).platform = s.platform := by
  simp only [State.sourceChanged.eq_def, ↓State.setFld_platform, ↓State.sourceGone_platform, ↓State.setClock_platform,
    ↓State.showUtc_platform, ↓ite_platform, ite_self]

@[simp] theorem State.hostLocked_platform (s : State) (d : Nat) : (State.hostLocked s d).platform = s.platform := by
  simp only [State.hostLocked.eq_def, ↓State.setFld_platform, ↓State.lockLost_platform, ↓ite_platform, ite_self]

@[simp] theorem State.alarmArmed_platform (s : State) (d : Nat) : (State.alarmArmed s d).platform = s.platform := by
  simp only [State.alarmArmed.eq_def, ↓State.setClock_platform, ↓State.setFld_platform]

@[simp] theorem State.putTime_platform (s : State) (e : RegEntry) (old : Word) (new : Word) :
    (State.putTime s e old new).platform = s.platform := by
  simp only [State.putTime.eq_def, ↓State.setReg_platform, ↓State.sourceChanged_platform, ↓State.hostLocked_platform,
    ↓State.alarmArmed_platform, ↓ite_platform, ite_self]

@[simp] theorem State.putEvt_platform (s : State) (e : RegEntry) (new : Word) : (State.putEvt s e new).platform = s.platform := by
  simp only [State.putEvt.eq_def, ↓State.setReg_platform, ↓State.setCons_platform, ↓ite_platform, ite_self]

@[simp] theorem State.showDet_platform (s : State) : (State.showDet s).platform = s.platform := by
  simp only [State.showDet.eq_def, ↓State.setFlag_platform, ↓foldl_platform, implies_true]

@[simp] theorem State.detWritten_platform (s : State) : (State.detWritten s).platform = s.platform := by
  simp only [State.detWritten.eq_def, ↓State.showStackMax_platform, ↓State.showDet_platform]

@[simp] theorem State.setChk_platform (s : State) (u : Nat) (x : Chk) : (State.setChk s u x).platform = s.platform := by
  simp only [State.setChk.eq_def, ↓State.platform_keep]

@[simp] theorem State.chkNext_platform (s : State) (u : Nat) : (State.chkNext s u).platform = s.platform := by
  simp only [State.chkNext.eq_def, ↓State.bumpWrap_platform]

@[simp] theorem State.chkPut_platform (s : State) (u : Nat) (i : Nat) (v : Nat) : (State.chkPut s u i v).platform = s.platform := by
  rw [State.chkPut.eq_def]
  repeat' split
  all_goals simp only [↓State.setFld_platform, ↓State.setChk_platform]

@[simp] theorem State.laneLeft_platform (s : State) (l : Nat) : (State.laneLeft s l).platform = s.platform := by
  simp only [State.laneLeft.eq_def, ↓State.setBst_platform, ↓State.setBoard_platform, ↓foldl_platform, ↓ite_platform, ite_self,
    implies_true]

@[simp] theorem State.setLaneGrp_platform (s : State) (g : Nat) (x : LaneGroup) : (State.setLaneGrp s g x).platform = s.platform := by
  simp only [State.setLaneGrp.eq_def, ↓State.platform_keep]

@[simp] theorem State.laneAbandon_platform (s : State) (l : Nat) : (State.laneAbandon s l).platform = s.platform := by
  simp only [State.laneAbandon.eq_def, ↓State.setFld_platform, ↓State.setLaneGrp_platform, ↓ite_platform, ite_self]

@[simp] theorem State.laneLose_platform (s : State) (l : Nat) : (State.laneLose s l).platform = s.platform := by
  simp only [State.laneLose.eq_def, ↓State.bump_platform, ↓State.setFld_platform, ↓State.setLane_platform, ↓State.laneLeft_platform,
    ↓State.laneAbandon_platform, ↓ite_platform, ite_self]

@[simp] theorem State.laneOff_platform (s : State) (l : Nat) : (State.laneOff s l).platform = s.platform := by
  simp only [State.laneOff.eq_def, ↓State.setFld_platform, ↓State.laneLose_platform, ↓State.setLane_platform]

@[simp] theorem State.linkSend_platform (s : State) (l : Nat) (kind : Nat) (arg : Nat) :
    (State.linkSend s l kind arg).platform = s.platform := by
  simp only [State.linkSend.eq_def, ↓State.emit_platform, ↓State.laneSent_platform]

@[simp] theorem State.laneSleep_platform (s : State) (l : Nat) : (State.laneSleep s l).platform = s.platform := by
  simp only [State.laneSleep.eq_def, ↓State.setFld_platform, ↓State.laneLose_platform, ↓State.linkSend_platform,
    ↓State.setLane_platform]

@[simp] theorem State.laneTrain_platform (s : State) (l : Nat) (kept : Bool) : (State.laneTrain s l kept).platform = s.platform := by
  simp only [State.laneTrain.eq_def, ↓State.setLane_platform, ↓State.setFld_platform]

@[simp] theorem State.laneAsk_platform (s : State) (l : Nat) (code : Nat) : (State.laneAsk s l code).platform = s.platform := by
  simp only [State.laneAsk.eq_def, ↓State.linkSend_platform, ↓State.setLane_platform]

@[simp] theorem State.laneToward_platform (s : State) (l : Nat) : (State.laneToward s l).platform = s.platform := by
  simp only [State.laneToward.eq_def, ↓State.laneOff_platform, ↓State.laneSleep_platform, ↓State.laneTrain_platform,
    ↓State.laneAsk_platform, ↓State.setLane_platform, ↓ite_platform, ite_self]

@[simp] theorem State.laneTarget_platform (s : State) (l : Nat) (t : Nat) : (State.laneTarget s l t).platform = s.platform := by
  simp only [State.laneTarget.eq_def, ↓State.laneToward_platform, ↓State.setFld_platform, ↓State.laneAbandon_platform]

@[simp] theorem State.laneRole_platform (s : State) (l : Nat) (r : Nat) : (State.laneRole s l r).platform = s.platform := by
  simp only [State.laneRole.eq_def, ↓State.setFld_platform, ↓State.laneOff_platform, ↓State.laneToward_platform, ↓ite_platform,
    ite_self]

@[simp] theorem State.putLane_platform (s : State) (e : RegEntry) (old : Word) (new : Word) :
    (State.putLane s e old new).platform = s.platform := by
  simp only [State.putLane.eq_def, ↓State.setReg_platform, ↓State.laneTarget_platform, ↓State.laneRole_platform, ↓ite_platform,
    ite_self]

@[simp] theorem State.setMon_platform (s : State) (m : Nat) (x : Mon) : (State.setMon s m x).platform = s.platform := by
  simp only [State.setMon.eq_def, ↓State.platform_keep]

@[simp] theorem State.monStart_platform (s : State) (m : Nat) : (State.monStart s m).platform = s.platform := by
  simp only [State.monStart.eq_def, ↓State.setMon_platform, ↓State.setFld_platform]

@[simp] theorem State.monRestart_platform (s : State) (m : Nat) : (State.monRestart s m).platform = s.platform := by
  simp only [State.monRestart.eq_def, ↓State.setFlag_platform, ↓State.monStart_platform]

@[simp] theorem State.monWrite_platform (s : State) (m : Nat) (reg : Nat) (v : Word) :
    (State.monWrite s m reg v).platform = s.platform := by
  rw [State.monWrite.eq_def]
  repeat' split
  all_goals simp only [↓State.setReg_platform, ↓State.monRestart_platform]

@[simp] theorem State.showCanary_platform (s : State) (c : Nat) : (State.showCanary s c).platform = s.platform := by
  simp only [State.showCanary.eq_def, ↓State.setFlag_platform, ↓State.setFld_platform, ↓ite_platform, ite_self]

@[simp] theorem State.showCanaries_platform (s : State) : (State.showCanaries s).platform = s.platform := by
  simp only [State.showCanaries.eq_def, ↓State.showCanary_platform, ↓foldl_platform, implies_true]

@[simp] theorem State.take_platform (s : State) (rq : Rq) : (State.take s rq).platform = s.platform := by
  simp only [State.take.eq_def, ↓State.platform_keep]

@[simp] theorem State.lift_platform (s : State) (sess : Nat) (tag : Nat) : (State.lift s sess tag).platform = s.platform := by
  simp only [State.lift.eq_def, ↓State.setFld_platform, ↓ite_platform, ite_self, ↓State.platform_keep]

@[simp] theorem State.finish_platform (s : State) (rq : Rq) (op : Nat) (status : Nat) (payload : List Byte) (more :
    Bool) :
    (State.finish s rq op status payload more).platform = s.platform := by
  simp only [State.finish.eq_def, ↓State.complete_platform]

@[simp] theorem State.reject_platform (s : State) (rq : Rq) (op : Nat) (reason : Nat) (block : Nat) (offset : Nat) :
    (State.reject s rq op reason block offset).platform = s.platform := by
  simp only [State.reject.eq_def, ↓State.finish_platform]

@[simp] theorem State.runIn_platform (s : State) (rq : Rq) (op : Nat) (doms : List Domain) (body : State → State)
    (hbody : ∀ y0, (body y0).platform = y0.platform) :
    (State.runIn s rq op doms body).platform = s.platform := by
  simp only [State.runIn, ↓ite_platform, ↓State.lift_platform, ↓State.finish_platform, ↓State.take_platform]
  split
  · rfl
  · split
    · split
      · exact (State.reject_platform ..).trans (State.take_platform ..)
      · rfl
    · split
      · simp only [↓ite_platform, ↓State.finish_platform, ↓State.take_platform, hbody, ite_self]
      · rw [hbody, State.take_platform]

@[simp] theorem State.run_platform (s : State) (rq : Rq) (op : Nat) (body : State → State) (hbody : ∀ y0, (body
    y0).platform = y0.platform) :
    (State.run s rq op body).platform = s.platform := by
  rw [State.run, State.runIn_platform _ _ _ _ _ hbody]

@[simp] theorem State.badParam_platform (s : State) (rq : Rq) (op : Nat) (o : Nat) :
    (State.badParam s rq op o).platform = s.platform := by
  simp only [State.badParam.eq_def, ↓State.finish_platform]

@[simp] theorem State.withParams_platform (s : State) (rq : Rq) (op : Nat) (fields : List (Nat × Bool)) (body :
    State → State) (hbody : ∀ y0, (body y0).platform = y0.platform) :
    (State.withParams s rq op fields body).platform = s.platform := by
  rw [State.withParams]
  split
  · exact hbody s
  · exact State.badParam_platform ..

@[simp] theorem State.enter_platform (s : State) (st : Nat) : (State.enter s st).platform = s.platform := by
  simp only [State.enter.eq_def, ↓State.setFld_platform, ↓ite_platform, ite_self, ↓State.platform_keep]

theorem execServiceEnter_platform (rq : Rq) (s : State) : ∃ t, (execServiceEnter rq s) = .next t ∧ t.platform = s.platform := by
  exact ⟨_, rfl, by simp only [↓State.run_platform, ↓State.withParams_platform, ↓State.finish_platform, ↓State.enter_platform,
    implies_true]⟩

@[simp] theorem State.setEnc_platform (s : State) (e : Nat) (x : Enc) : (State.setEnc s e x).platform = s.platform := by
  simp only [State.setEnc.eq_def, ↓State.setFldI_platform, ↓State.platform_keep]

@[simp] theorem State.setSpeed_platform (s : State) (e : Nat) (v : Int) : (State.setSpeed s e v).platform = s.platform := by
  simp only [State.setSpeed.eq_def, ↓State.setFldI_platform, ↓State.setEnc_platform]

theorem execStillTimeout_platform (enc : Nat) (s : State) : ∃ t, (execStillTimeout enc s) = .next t ∧ t.platform = s.platform := by
  exact ⟨_, rfl, by simp only [↓State.setFld_platform, ↓State.setSpeed_platform, ↓ite_platform, ite_self]⟩

@[simp] theorem State.stageGains_platform (s : State) (n : Nat) : (State.stageGains s n).platform = s.platform := by
  simp only [State.stageGains.eq_def, ↓State.setCam_platform]

theorem execGainSetCompute_platform (port : Nat) (s : State) :
    ∃ t, (execGainSetCompute port s) = .next t ∧ t.platform = s.platform := by
  exact ⟨_, rfl, by simp only [↓State.stageGains_platform, ↓ite_platform, ite_self]⟩

@[simp] theorem State.nextRotation_platform (s : State) : (State.nextRotation s).platform = s.platform := by
  simp only [State.nextRotation.eq_def, ↓State.setFld_platform, ↓ite_platform, ite_self]

@[simp] theorem State.idleSend_platform (s : State) (l : Nat) : (State.idleSend s l).platform = s.platform := by
  simp only [State.idleSend.eq_def, ↓State.emit_platform, ↓State.laneSent_platform]

@[simp] theorem State.chainAll_platform (s : State) (type : Nat) (cls : Nat) (body : List Byte) :
    (State.chainAll s type cls body).platform = s.platform := by
  simp only [State.chainAll.eq_def, ↓State.chainSendOn_platform]

@[simp] theorem State.raiseRate_platform (s : State) (code : Nat) : (State.raiseRate s code).platform = s.platform := by
  simp only [State.raiseRate.eq_def, ↓State.setFld_platform, ↓State.laneAsk_platform, ↓foldl_platform, ↓ite_platform, ite_self,
    implies_true, ↓State.platform_keep]

@[simp] theorem State.chainStatusSet_platform (s : State) (mask : Nat) (leader : Nat) (form : Nat) (w : Nat) (e :
    Nat) (epoch : Nat) :
    (State.chainStatusSet s mask leader form w e epoch).platform = s.platform := by
  simp only [State.chainStatusSet.eq_def, ↓State.raise_platform, ↓ite_platform, ite_self, ↓State.platform_keep]

@[simp] theorem State.sendLeader_platform (s : State) : (State.sendLeader s).platform = s.platform := by
  simp only [State.sendLeader.eq_def, ↓State.chainAll_platform, ↓State.chainStatusSet_platform]

@[simp] theorem State.discover_platform (s : State) : (State.discover s).platform = s.platform := by
  simp only [State.discover.eq_def, ↓State.mend_platform, ↓State.chainSendOn_platform, ↓State.platform_keep]

@[simp] theorem State.setChan_platform (s : State) (c : Nat) (x : EvtChan) : (State.setChan s c x).platform = s.platform := by
  simp only [State.setChan.eq_def, ↓State.platform_keep]

@[simp] theorem State.setCap_platform (s : State) (k : Nat) (x : Capture) : (State.setCap s k x).platform = s.platform := by
  simp only [State.setCap.eq_def, ↓State.setFld_platform, ↓State.platform_keep]

@[simp] theorem State.capture_platform (s : State) (k : Nat) : (State.capture s k).platform = s.platform := by
  simp only [State.capture.eq_def, ↓State.setCap_platform]

@[simp] theorem State.deliverEvent_platform (s : State) (prod : Nat) (tag : Nat) (k : Nat) :
    (State.deliverEvent s prod tag k).platform = s.platform := by
  simp only [State.deliverEvent.eq_def, ↓State.bump_platform, ↓State.setFld_platform, ↓State.setCons_platform,
    ↓State.capture_platform, ↓ite_platform, ite_self]

@[simp] theorem State.passChannel_platform (s : State) (prod : Nat) (tag : Nat) (derived : Bool) (c : Nat) :
    (State.passChannel s prod tag derived c).platform = s.platform := by
  simp only [State.passChannel.eq_def, ↓State.setChan_platform, ↓State.breachOnce_platform, ↓State.setFld_platform,
    ↓State.deliverEvent_platform, ↓foldl_platform, ↓ite_platform, ite_self, implies_true]

@[simp] theorem State.passEvent_platform (s : State) (prod : Nat) (tag : Option Nat) :
    (State.passEvent s prod tag).platform = s.platform := by
  simp only [State.passEvent]
  split
  · rfl
  · refine (foldl_platform _ (fun s c => State.passChannel_platform ..) _ _).trans ?_
    simp only [↓ite_platform, ↓State.bumpWrap_platform, ↓State.platform_keep, ite_self]

theorem execEventRaise_platform (prod : Nat) (tag : Option Nat) (s : State) :
    ∃ t, (execEventRaise prod tag s) = .next t ∧ t.platform = s.platform := by
  exact ⟨_, rfl, by simp only [↓State.passEvent_platform]⟩

@[simp] theorem State.axOutput_platform (active : Bool) (s : State) (a : Nat) :
    (State.axOutput active s a).platform = s.platform := by
  simp only [State.axOutput.eq_def, ↓State.emit_platform, ↓ite_platform, ite_self]

@[simp] theorem State.axesDeep_platform (s : State) : (State.axesDeep s).platform = s.platform := by
  simp only [State.axesDeep.eq_def, ↓State.setFld_platform, ↓State.axOutput_platform, ↓foldl_platform, implies_true]

@[simp] theorem State.posEvent_platform (s : State) (e : Nat) (bit : Nat) (prod : Nat) :
    (State.posEvent s e bit prod).platform = s.platform := by
  simp only [State.posEvent.eq_def, ↓State.raiseIf_platform]

@[simp] theorem State.indexCheck_platform (s : State) (e : Nat) : (State.indexCheck s e).platform = s.platform := by
  simp only [State.indexCheck.eq_def, ↓State.setFld_platform, ↓State.log1_platform, ↓State.setEnc_platform,
    ↓State.posEvent_platform, ↓State.bump_platform, ↓ite_platform, ite_self]

@[simp] theorem State.respond_platform (s : State) (src : PktSrc) (rep : Reply) :
    (State.respond s src rep).platform = s.platform := by
  rw [State.respond.eq_def]
  repeat' split
  all_goals simp only [↓State.ringReply_platform, ↓State.sendDatagram_platform, ↓State.chainTo_platform]

@[simp] theorem State.refuse_platform (s : State) (src : PktSrc) (h : Header) (status : Nat) (payload : List Byte) :
    (State.refuse s src h status payload).platform = s.platform := by
  simp only [State.refuse.eq_def, ↓State.respond_platform]

@[simp] theorem State.setInFlight_platform (s : State) (l : List Forwarded) : (State.setInFlight s l).platform = s.platform := by
  simp only [State.setInFlight.eq_def, ↓State.platform_keep]

@[simp] theorem State.forward_platform (s : State) (sess : Nat) (b : List Byte) (src : Option (Nat × Nat)) :
    (State.forward s sess b src).platform = s.platform := by
  simp only [State.forward.eq_def, ↓State.setSession_platform, ↓State.setInFlight_platform, ↓State.chainTo_platform, ↓ite_platform,
    ite_self]

@[simp] theorem State.acceptOpen_platform (s : State) (ip : Nat) (port : Nat) (b : List Byte) :
    (State.acceptOpen s ip port b).platform = s.platform := by
  rw [State.acceptOpen.eq_def] <;> (try simp only [↓State.refuse_platform, ↓State.forward_platform, ↓State.enqueue_platform,
      ↓foldl_platform, ↓ite_platform, ↓dite_platform, ↓reduceIte, ite_self, implies_true,
      ↓State.platform_keep]) <;> repeat' ((first | split | (rw [foldl_platform]; intro s x)) <;> try simp only [↓State.refuse_platform,
      ↓State.forward_platform, ↓State.enqueue_platform, ↓foldl_platform, ↓ite_platform, ↓dite_platform, ↓reduceIte, ite_self,
      implies_true, ↓State.platform_keep])

@[simp] theorem State.releasePages_platform (s : State) : (State.releasePages s).platform = s.platform := by
  simp only [State.releasePages.eq_def, ↓State.platform_keep]

@[simp] theorem State.latchBoard_platform (s : State) (k : Nat) (bit : Fld) : (State.latchBoard s k bit).platform = s.platform := by
  simp only [State.latchBoard.eq_def, ↓State.setBoard_platform, ↓State.setFld_platform, ↓State.setBst_platform, ↓ite_platform,
    ite_self]

@[simp] theorem State.updDecided_platform (s : State) (k : Nat) (f : Nat) (u : Decided → Decided) :
    (State.updDecided s k f u).platform = s.platform := by
  simp only [State.updDecided.eq_def, ↓State.setBoard_platform]

@[simp] theorem State.echoFault_platform (s : State) : (State.echoFault s).platform = s.platform := by
  simp only [State.echoFault.eq_def, ↓State.fireEvent_platform, ↓State.setFld_platform]

@[simp] theorem State.latchUe_platform (s : State) (a : Nat) (action : Nat) (region : Nat) (c : Nat) (input : Nat)
    (scrub : Bool) :
    (State.latchUe s a action region c input scrub).platform = s.platform := by
  simp only [State.latchUe.eq_def, ↓State.setFld_platform, ↓State.setFlag_platform, ↓ite_platform, ite_self]

@[simp] theorem State.captureLost_platform (s : State) (a : Nat) : (State.captureLost s a).platform = s.platform := by
  rw [State.captureLost.eq_def]
  repeat' split
  all_goals simp only [↓State.setCam_platform]

@[simp] theorem State.phaseFail_platform (s : State) (p : Nat) : (State.phaseFail s p).platform = s.platform := by
  simp only [State.phaseFail.eq_def, ↓State.setFld_platform, ↓State.log1_platform, ↓ite_platform, ite_self]

@[simp] theorem State.clearRc_platform (s : State) (a : Nat) : (State.clearRc s a).platform = s.platform := by
  rw [State.clearRc.eq_def]
  repeat' split
  all_goals simp only [↓State.setReg_platform]

@[simp] theorem State.releaseCap_platform (s : State) : (State.releaseCap s).platform = s.platform := by
  simp only [State.releaseCap.eq_def, ↓State.endTask_platform, ↓State.setCap_platform, ↓ite_platform, ite_self]

@[simp] theorem State.setStaged_platform (s : State) (op : Nat) (inst : Nat) (x : Staging) :
    (State.setStaged s op inst x).platform = s.platform := by
  simp only [State.setStaged.eq_def, ↓State.platform_keep]

@[simp] theorem State.loadChunk_platform (s : State) (rq : Rq) (op : Nat) (limit : Nat) (mayReset : Bool) (c :
    Chunk) (commit : List Byte → List Byte → State → State) (hcommit : ∀ y0 y1 y2, (commit y0 y1 y2).platform = y2.platform)
    :
    (State.loadChunk s rq op limit mayReset c commit).platform = s.platform := by
  rw [State.loadChunk.eq_def] <;> (try simp only [↓State.withParams_platform, ↓State.badParam_platform, ↓State.finish_platform,
      ↓State.setStaged_platform, ↓foldl_platform, ↓ite_platform, ↓dite_platform, ↓reduceIte, ite_self, implies_true,
      ↓State.platform_keep,
      hcommit]) <;> repeat' ((first | (rw [State.withParams_platform]; intro s) | split | (rw [foldl_platform]; intro s x)) <;> try simp only [↓State.withParams_platform,
      ↓State.badParam_platform, ↓State.finish_platform, ↓State.setStaged_platform, ↓foldl_platform, ↓ite_platform, ↓dite_platform,
      ↓reduceIte, ite_self, implies_true, ↓State.platform_keep, hcommit])

@[simp] theorem State.loadTable_platform (s : State) (rq : Rq) (op : Nat) (limit : Nat) (c : Chunk) (inUse : Bool)
    (discard : State → State) (commit : List Byte → List Byte → State → State) (hdiscard : ∀ y0, (discard y0).platform =
    y0.platform) (hcommit : ∀ y0 y1 y2, (commit y0 y1 y2).platform = y2.platform) :
    (State.loadTable s rq op limit c inUse discard commit).platform = s.platform := by
  simp only [State.loadTable, ite_platform, State.finish_platform, State.loadChunk_platform _ _ _ _ _ _ _ hcommit, hdiscard, ite_self]

@[simp] theorem State.setPend_platform (s : State) (b : Nat) (d : DoseBank) : (State.setPend s b d).platform = s.platform := by
  simp only [State.setPend.eq_def, ↓State.showBank_platform, ↓State.setBar_platform]

@[simp] theorem State.stageBank_platform (s : State) (b : Nat) (d : DoseBank) : (State.stageBank s b d).platform = s.platform := by
  simp only [State.stageBank.eq_def, ↓State.setPend_platform, ↓State.swapRequest_platform, ↓ite_platform, ite_self]

theorem execGainLoad_platform (rq : Rq) (chunk : Chunk) (s : State) :
    ∃ t, (execGainLoad rq chunk s) = .next t ∧ t.platform = s.platform := by
  rw [execGainLoad.eq_def]
  repeat' split
  all_goals refine ⟨_, rfl, ?_⟩
  all_goals (try simp only [↓State.run_platform, ↓State.loadTable_platform, ↓State.setPend_platform, ↓State.reject_platform,
      ↓State.finish_platform, ↓State.setLoopBar_platform, ↓State.stageBank_platform, ↓foldl_platform, ↓ite_platform, ↓dite_platform,
      ↓reduceIte, ite_self, implies_true, ↓State.platform_keep])
  all_goals repeat' ((first | (rw [State.loadTable_platform] <;> [(intro s); (intro t rep s)]) | (rw [State.run_platform]; intro s) | split | (rw [foldl_platform]; intro s x)) <;> try simp only [↓State.run_platform,
      ↓State.loadTable_platform, ↓State.setPend_platform, ↓State.reject_platform, ↓State.finish_platform, ↓State.setLoopBar_platform,
      ↓State.stageBank_platform, ↓foldl_platform, ↓ite_platform, ↓dite_platform, ↓reduceIte, ite_self, implies_true,
      ↓State.platform_keep])

@[simp] theorem State.showFom_platform (s : State) (l : Nat) (fom : Nat) : (State.showFom s l fom).platform = s.platform := by
  simp only [State.showFom.eq_def, ↓State.setFld_platform, ↓State.setLane_platform, ↓ite_platform, ite_self]

@[simp] theorem State.makeCrop_platform (s : State) (c : Comp) (wanted : Bool) :
    (State.makeCrop s c wanted).2.2.platform = s.platform := by
  rw [State.makeCrop.eq_def]
  repeat' split
  all_goals simp only [↓State.jigEvent_platform, ↓State.bump_platform, ↓State.platform_keep]

theorem State.takeEntry_platform (s : State) (page : Nat) (r : Nat × State) (h :
    s.takeEntry page = some r) :
    r.2.platform = s.platform := by
  rw [State.takeEntry] at h
  split at h
  · cases h; rfl
  · split at h
    · cases h
    · cases h; rfl

@[simp] theorem State.pageStart_platform (s : State) (w : StartWait) (range : Nat) :
    (State.pageStart s w range).platform = s.platform := by
  rw [State.pageStart]
  split
  · exact State.finishSlot_platform ..
  · split
    · exact State.finishSlot_platform ..
    · rename_i id s' h
      rw [State.chainStart_platform, State.setPage_platform, State.takeEntry_platform _ _ _ h]

theorem execPageSubmitStart_platform (s : State) : ∃ t, (execPageSubmitStart s) = .next t ∧ t.platform = s.platform := by
  rw [execPageSubmitStart.eq_def]
  refine ⟨_, rfl, ?_⟩
  repeat' split
  all_goals simp only [↓State.pageStart_platform, ↓State.platform_keep]

@[simp] theorem State.lanesDeep_platform (s : State) : (State.lanesDeep s).platform = s.platform := by
  simp only [State.lanesDeep.eq_def, ↓State.laneAbandon_platform, ↓State.laneSleep_platform, ↓State.laneAsk_platform,
    ↓foldl_platform, ↓ite_platform, ite_self, implies_true]

@[simp] theorem State.onLink_platform (s : State) (lane : Nat) (blk : List Byte) (act : Nat → Nat → State) (hact : ∀
    y0 y1, (act y0 y1).platform = s.platform) :
    (State.onLink s lane blk act).platform = s.platform := by
  rw [State.onLink.eq_def]
  repeat' split
  all_goals simp only [↓State.bump_platform, hact]

theorem execLinkAlign_platform (lane : Nat) (blk : List Byte) (pos : Nat) (s : State) :
    ∃ t, (execLinkAlign lane blk pos s) = .next t ∧ t.platform = s.platform := by
  exact ⟨_, rfl, by simp only [↓State.onLink_platform, ↓State.setLane_platform, ↓ite_platform, ite_self, implies_true]⟩

@[simp] theorem State.endIngests_platform (s : State) : (State.endIngests s).platform = s.platform := by
  simp only [State.endIngests.eq_def, ↓State.stopPage_platform, ↓State.finishSlot_platform, ↓foldl_platform, ↓ite_platform,
    ite_self, implies_true, ↓State.platform_keep]

@[simp] theorem State.showFill_platform (s : State) (b : Nat) : (State.showFill s b).platform = s.platform := by
  simp only [State.showFill.eq_def, ↓State.setFlag_platform, ↓State.setFld_platform]

@[simp] theorem State.pps_platform (s : State) (d : Nat) : (State.pps s d).platform = s.platform := by
  simp only [State.pps.eq_def, ↓State.raiseIf_platform]

@[simp] theorem State.axStart_platform (s : State) (a : Nat) (st : Nat) (target : Int) (speed : Nat) :
    (State.axStart s a st target speed).platform = s.platform := by
  simp only [State.axStart.eq_def, ↓State.setFld_platform, ↓State.setAxis_platform, ↓State.axEnter_platform, ↓State.axPlan_platform]

@[simp] theorem State.verifySlot_platform (s : State) (bad : List Nat) (b : Bool) :
    (State.verifySlot s bad b).2.platform = s.platform := by
  rw [State.verifySlot.eq_def]
  repeat' split
  all_goals simp only [↓State.log1_platform, ↓State.setFld_platform]

@[simp] theorem State.restoreLog_platform (s : State) : (State.restoreLog s).platform = s.platform := by
  simp only [State.restoreLog.eq_def, ↓State.platform_keep]

@[simp] theorem State.fireIdle_platform (s : State) : (State.fireIdle s).platform = s.platform := by
  simp only [State.fireIdle.eq_def, ↓State.emit_platform, ↓State.setBoard_platform, ↓foldl_platform, ↓ite_platform, ite_self,
    implies_true]

@[simp] theorem State.runSlot_platform (s : State) (b : Bool) : (State.runSlot s b).platform = s.platform := by
  simp only [State.runSlot.eq_def, ↓State.setFlag_platform, ↓State.setFld_platform]

@[simp] theorem State.bootImage_platform (s : State) (bad : List Nat) : (State.bootImage s bad).2.platform = s.platform := by
  rw [State.bootImage.eq_def] <;> (try simp only [↓State.verifySlot_platform, ↓State.runSlot_platform, ↓State.setFld_platform,
      ↓foldl_platform, ↓ite_platform, ↓dite_platform, ↓reduceIte, ite_self, implies_true,
      ↓State.platform_keep]) <;> repeat' ((first | split | (rw [foldl_platform]; intro s x)) <;> try simp only [↓State.verifySlot_platform,
      ↓State.runSlot_platform, ↓State.setFld_platform, ↓foldl_platform, ↓ite_platform, ↓dite_platform, ↓reduceIte, ite_self,
      implies_true, ↓State.platform_keep])

@[simp] theorem State.bootStep_platform (s : State) (n : Nat) : (State.bootStep s n).platform = s.platform := by
  simp only [State.bootStep.eq_def, ↓State.setFld_platform]

@[simp] theorem State.followStop_platform (s : State) (a : Nat) : (State.followStop s a).platform = s.platform := by
  simp only [State.followStop.eq_def, ↓State.setAxis_platform, ↓State.axSettle_platform, ↓State.setFld_platform]

@[simp] theorem State.axEstop_platform (s : State) (a : Nat) : (State.axEstop s a).platform = s.platform := by
  rw [State.axEstop.eq_def]
  repeat' split
  all_goals simp only [↓State.followStop_platform, ↓State.axRamp_platform]

@[simp] theorem State.copyLog_platform (s : State) : (State.copyLog s).platform = s.platform := by
  simp only [State.copyLog.eq_def, ↓State.platform_keep]

@[simp] theorem State.failExecuting_platform (s : State) (entry : Nat) : (State.failExecuting s entry).platform = s.platform := by
  simp only [State.failExecuting.eq_def, ↓State.finishSlot_platform, ↓State.setFld_platform, ↓foldl_platform, implies_true,
    ↓State.platform_keep]

@[simp] theorem State.strapLanes_platform (s : State) : (State.strapLanes s).platform = s.platform := by
  simp only [State.strapLanes.eq_def, ↓State.laneToward_platform, ↓State.setFld_platform, ↓foldl_platform, implies_true]

@[simp] theorem State.bootEnd_platform (s : State) (ms : Nat) : (State.bootEnd s ms).platform = s.platform := by
  simp only [State.bootEnd.eq_def, ↓State.setFld_platform, ↓State.bootStep_platform, ↓State.enter_platform, ↓ite_platform, ite_self]

@[simp] theorem State.ptpHold_platform (s : State) (port : Nat) (m : PtpMsg) : (State.ptpHold s port m).platform = s.platform := by
  rw [State.ptpHold.eq_def]
  repeat' split
  all_goals simp only [↓State.platform_keep]

@[simp] theorem State.showThrottle_platform (s : State) (c : Nat) : (State.showThrottle s c).platform = s.platform := by
  rw [State.showThrottle.eq_def]
  repeat' split
  all_goals simp only [↓State.setFld_platform]

@[simp] theorem countKib_platform (s : State) (f : Fld) (rest : Nat) (n : Nat) : (countKib s f rest n).2.platform = s.platform := by
  simp only [countKib.eq_def, ↓State.bump_platform]

theorem execNozzleStateRead_platform (rq : Rq) (first : Nat) (count : Nat) (s : State) :
    ∃ t, (execNozzleStateRead rq first count s) = .next t ∧ t.platform = s.platform := by
  exact ⟨_, rfl, by simp only [↓State.run_platform, ↓State.withParams_platform, ↓State.finish_platform, implies_true]⟩

theorem execMsixUnmask_platform (vector : Nat) (s : State) : ∃ t, (execMsixUnmask vector s) = .next t ∧ t.platform = s.platform := by
  exact ⟨_, rfl, by simp only [↓State.emit_platform, ↓ite_platform, ite_self, ↓State.platform_keep]⟩

@[simp] theorem State.hold_platform (s : State) : (State.hold s).platform = s.platform := by
  simp only [State.hold.eq_def, ↓State.platform_keep]

@[simp] theorem State.pause_platform (s : State) : (State.pause s).platform = s.platform := by
  simp only [State.pause.eq_def, ↓State.enter_platform, ↓State.hold_platform]

@[simp] theorem State.ethDown_platform (s : State) (p : Nat) : (State.ethDown s p).platform = s.platform := by
  simp only [State.ethDown.eq_def, ↓State.setFld_platform]

@[simp] theorem State.ethChange_platform (s : State) : (State.ethChange s).platform = s.platform := by
  simp only [State.ethChange.eq_def, ↓State.ethDown_platform, ↓foldl_platform, ↓ite_platform, ite_self, implies_true]

@[simp] theorem State.camerasDeep_platform (s : State) : (State.camerasDeep s).platform = s.platform := by
  simp only [State.camerasDeep.eq_def, ↓State.setCam_platform, ↓State.closeFrame_platform, ↓foldl_platform, ↓ite_platform, ite_self,
    implies_true]

@[simp] theorem State.draw_platform (s : State) : (State.draw s).2.platform = s.platform := by
  simp only [State.draw.eq_def, ↓State.platform_keep]

@[simp] theorem State.sourcesDeep_platform (s : State) : (State.sourcesDeep s).platform = s.platform := by
  simp only [State.sourcesDeep.eq_def, ↓State.sourceGone_platform, ↓foldl_platform, ↓ite_platform, ite_self, implies_true]

theorem execAxisEstop_platform (axis : Nat) (s : State) : ∃ t, (execAxisEstop axis s) = .next t ∧ t.platform = s.platform := by
  exact ⟨_, rfl, by simp only [↓State.axEstop_platform, ↓State.endTask_platform, ↓State.setAxis_platform, ↓ite_platform, ite_self]⟩

@[simp] theorem State.setRsmp_platform (s : State) (r : Nat) (x : Rsmp) : (State.setRsmp s r x).platform = s.platform := by
  simp only [State.setRsmp.eq_def, ↓State.platform_keep]

theorem execResampleCoefLoad_platform (rq : Rq) (chunk : Chunk) (s : State) :
    ∃ t, (execResampleCoefLoad rq chunk s) = .next t ∧ t.platform = s.platform := by
  rw [execResampleCoefLoad.eq_def]
  repeat' split
  all_goals refine ⟨_, rfl, ?_⟩
  all_goals (try simp only [↓State.run_platform, ↓State.finish_platform, ↓State.loadTable_platform, ↓State.setFld_platform,
      ↓State.reject_platform, ↓State.setRsmp_platform, ↓State.rsmpSwap_platform, ↓foldl_platform, ↓ite_platform, ↓dite_platform, ↓reduceIte,
      ite_self, implies_true, ↓State.platform_keep])
  all_goals repeat' ((first | (rw [State.loadTable_platform] <;> [(intro s); (intro t rep s)]) | (rw [State.run_platform]; intro s) | split | (rw [foldl_platform]; intro s x)) <;> try simp only [↓State.run_platform,
      ↓State.finish_platform, ↓State.loadTable_platform, ↓State.setFld_platform, ↓State.reject_platform, ↓State.setRsmp_platform,
      ↓State.rsmpSwap_platform, ↓foldl_platform, ↓ite_platform, ↓dite_platform, ↓reduceIte, ite_self, implies_true,
      ↓State.platform_keep])

theorem execEnergyCapExpiry_platform (s : State) : ∃ t, (execEnergyCapExpiry s) = .next t ∧ t.platform = s.platform := by
  rw [execEnergyCapExpiry.eq_def]
  exact ⟨_, rfl, rfl⟩

theorem execChainStatus_platform (rq : Rq) (s : State) : ∃ t, (execChainStatus rq s) = .next t ∧ t.platform = s.platform := by
  exact ⟨_, rfl, by simp only [↓State.run_platform, ↓State.withParams_platform, ↓State.finish_platform, implies_true]⟩

@[simp] theorem State.withProfile_platform (s : State) (k : Nat) (t : List Byte) :
    (State.withProfile s k t).platform = s.platform := by
  simp only [State.withProfile.eq_def, ↓State.setBoard_platform]

@[simp] theorem State.profileInForce_platform (s : State) (k : Nat) (t : List Byte) :
    (State.profileInForce s k t).platform = s.platform := by
  simp only [State.profileInForce.eq_def, ↓State.withProfile_platform, ↓State.boardOff_platform, ↓State.laneRole_platform,
    ↓State.showStackMax_platform, ↓State.boardRefresh_platform, ↓foldl_platform, implies_true]

@[simp] theorem State.keepFloor_platform (s : State) : (State.keepFloor s).platform = s.platform := by
  simp only [State.keepFloor.eq_def, ↓ite_platform, ite_self, ↓State.platform_keep]

@[simp] theorem State.showNozzles_platform (s : State) : (State.showNozzles s).platform = s.platform := by
  simp only [State.showNozzles.eq_def, ↓State.setFld_platform]

@[simp] theorem State.cutChain_platform (s : State) (ch : Nat) : (State.cutChain s ch).platform = s.platform := by
  simp only [State.cutChain.eq_def, ↓State.haltDone_platform, ↓State.chainPage_platform, ↓State.dmaMark_platform,
    ↓State.chainStop_platform, ↓ite_platform, ite_self]

@[simp] theorem State.mendC1_platform (s : State) : (State.mendC1 s).platform = s.platform := by
  simp only [State.mendC1.eq_def, ↓State.mend_platform, ↓ite_platform, ite_self]

@[simp] theorem State.tellClosed_platform (s : State) (n : Nat) : (State.tellClosed s n).platform = s.platform := by
  simp only [State.tellClosed.eq_def, ↓State.chainTo_platform, ↓foldl_platform, implies_true]

@[simp] theorem State.showOpen_platform (s : State) (n : Nat) (op : Bool) : (State.showOpen s n op).platform = s.platform := by
  simp only [State.showOpen.eq_def, ↓State.setFld_platform]

@[simp] theorem State.linkGone_platform (s : State) : (State.linkGone s).platform = s.platform := by
  simp only [State.linkGone.eq_def, ↓State.setFld_platform]

@[simp] theorem State.setAxPlace_platform (s : State) (a : Nat) (q : Int) : (State.setAxPlace s a q).platform = s.platform := by
  simp only [State.setAxPlace.eq_def, ↓State.setAxis_platform, ↓State.setAxPos_platform]

@[simp] theorem State.axStand_platform (s : State) (a : Nat) : (State.axStand s a).platform = s.platform := by
  simp only [State.axStand.eq_def, ↓State.axAnswer_platform, ↓State.axEvent_platform, ↓State.axEnter_platform,
    ↓State.endTask_platform, ↓State.axSettle_platform, ↓ite_platform, ite_self]

@[simp] theorem State.axAdvance_platform (s : State) (a : Nat) (p : AxisPlan) : (State.axAdvance s a p).platform = s.platform := by
  simp only [State.axAdvance.eq_def, ↓State.setAxPlace_platform, ↓State.setAxis_platform, ↓State.axStand_platform, ↓ite_platform,
    ite_self]

@[simp] theorem State.takeoverFail_platform (s : State) (g : Nat) : (State.takeoverFail s g).platform = s.platform := by
  simp only [State.takeoverFail.eq_def, ↓State.setLaneGrp_platform, ↓State.setFld_platform, ↓State.bump_platform]

theorem execTakeoverTimeout_platform (group : Nat) (s : State) :
    ∃ t, (execTakeoverTimeout group s) = .next t ∧ t.platform = s.platform := by
  exact ⟨_, rfl, by simp only [↓State.takeoverFail_platform, ↓ite_platform, ite_self]⟩

@[simp] theorem State.openReply_platform (s : State) (ip : Nat) (port : Nat) (rq : Rq) (status : Nat) (payload :
    List Byte) :
    (State.openReply s ip port rq status payload).platform = s.platform := by
  simp only [State.openReply.eq_def, ↓State.respond_platform, ↓ite_platform, ite_self]

@[simp] theorem State.openBad_platform (s : State) (ip : Nat) (port : Nat) (rq : Rq) (o : Nat) :
    (State.openBad s ip port rq o).platform = s.platform := by
  simp only [State.openBad.eq_def, ↓State.openReply_platform]

theorem execKpsJobHeader_platform (ch : Nat) (bytes : List Byte) (s : State) :
    ∃ t, (execKpsJobHeader ch bytes s) = .next t ∧ t.platform = s.platform := by
  rw [execKpsJobHeader.eq_def]
  refine ⟨_, rfl, ?_⟩
  repeat' split
  all_goals simp only [↓State.failPage_platform, ↓State.shortPage_platform, ↓State.setPage_platform, ↓ite_platform, ite_self]

theorem execCameraSetTransfer_platform (port : Nat) (s : State) :
    ∃ t, (execCameraSetTransfer port s) = .next t ∧ t.platform = s.platform := by
  rw [execCameraSetTransfer.eq_def]
  refine ⟨_, rfl, ?_⟩
  repeat' split
  all_goals simp only [↓State.setFld_platform, ↓State.emit_platform, ↓State.setCam_platform]

theorem execChainStandbyEntry_platform (s : State) : ∃ t, (execChainStandbyEntry s) = .next t ∧ t.platform = s.platform := by
  exact ⟨_, rfl, by simp only [↓State.enter_platform, ↓ite_platform, ite_self]⟩

@[simp] theorem State.pend_platform (s : State) (rq : Rq) (op : Nat) : (State.pend s rq op).platform = s.platform := by
  simp only [State.pend.eq_def, ↓State.setSlot_platform, ↓ite_platform, ite_self]

theorem execAxisStop_platform (rq : Rq) (axis : Nat) (ramp : Nat) (s : State) :
    ∃ t, (execAxisStop rq axis ramp s) = .next t ∧ t.platform = s.platform := by
  rw [execAxisStop.eq_def]
  repeat' split
  all_goals refine ⟨_, rfl, ?_⟩
  all_goals (try simp only [↓State.run_platform, ↓State.withParams_platform, ↓State.followStop_platform, ↓State.finish_platform,
      ↓State.axRamp_platform, ↓State.axEnter_platform, ↓State.pend_platform, ↓State.setAxis_platform, ↓foldl_platform, ↓ite_platform,
      ↓dite_platform, ↓reduceIte, ite_self, implies_true, ↓State.platform_keep])
  all_goals repeat' ((first | (rw [State.withParams_platform]; intro s) | (rw [State.run_platform]; intro s) | split | (rw [foldl_platform]; intro s x)) <;> try simp only [↓State.run_platform,
      ↓State.withParams_platform, ↓State.followStop_platform, ↓State.finish_platform, ↓State.axRamp_platform, ↓State.axEnter_platform,
      ↓State.pend_platform, ↓State.setAxis_platform, ↓foldl_platform, ↓ite_platform, ↓dite_platform, ↓reduceIte, ite_self, implies_true,
      ↓State.platform_keep])

@[simp] theorem State.kalEvent_platform (s : State) (p : Nat) (bit : Nat) (f : Fld) (prod : Nat) :
    (State.kalEvent s p bit f prod).platform = s.platform := by
  simp only [State.kalEvent.eq_def, ↓State.raiseIf_platform, ↓State.setFld_platform]

@[simp] theorem State.setPaper_platform (s : State) (n : Nat) (row : Nat) (x : Nat) (v : Int) :
    (State.setPaper s n row x v).platform = s.platform := by
  simp only [State.setPaper.eq_def, ↓State.setCam_platform, ↓State.kalEvent_platform, ↓ite_platform, ite_self]

@[simp] theorem State.paperSample_platform (s : State) (n : Nat) (alpha : Nat) (row : Nat) (x : Nat) (u : Int) :
    (State.paperSample s n alpha row x u).platform = s.platform := by
  simp only [State.paperSample.eq_def, ↓State.setCam_platform, ↓State.setPaper_platform, ↓ite_platform, ite_self]

@[simp] theorem State.paperColumn_platform (s : State) (n : Nat) (k : KalSet) (us : List (List Int)) (x : Nat) :
    (State.paperColumn s n k us x).platform = s.platform := by
  simp only [State.paperColumn.eq_def, ↓State.paperSample_platform, ↓foldl_platform, ↓ite_platform, ite_self, implies_true]

theorem execLoopLate_platform (bar : Nat) (s : State) : ∃ t, (execLoopLate bar s) = .next t ∧ t.platform = s.platform := by
  rw [execLoopLate.eq_def]
  repeat' split
  all_goals refine ⟨_, rfl, ?_⟩
  all_goals (try simp only [↓State.nozEvent_platform, ↓State.setLoopBar_platform, ↓foldl_platform, ↓ite_platform, ↓dite_platform,
      ↓reduceIte, ite_self, implies_true, ↓State.platform_keep])
  all_goals repeat' ((first | split | (rw [foldl_platform]; intro s x)) <;> try simp only [↓State.nozEvent_platform,
      ↓State.setLoopBar_platform, ↓foldl_platform, ↓ite_platform, ↓dite_platform, ↓reduceIte, ite_self, implies_true,
      ↓State.platform_keep])

@[simp] theorem State.recordQuota_platform (s : State) : (State.recordQuota s).2.platform = s.platform := by
  simp only [State.recordQuota.eq_def, ↓State.platform_keep]

@[simp] theorem State.markDelivered_platform (s : State) (sess : Nat) (tag : Nat) :
    (State.markDelivered s sess tag).platform = s.platform := by
  simp only [State.markDelivered.eq_def, ↓State.setSlot_platform, ↓ite_platform, ite_self]

@[simp] theorem State.fetch_platform (s : State) (sess : Nat) (tag : Nat) (echo : Reply) :
    (State.fetch s sess tag echo).platform = s.platform := by
  simp only [State.fetch.eq_def, ↓State.markDelivered_platform, ↓State.deliver_platform]

@[simp] theorem State.swapPairs_platform (s : State) : (State.swapPairs s).platform = s.platform := by
  simp only [State.swapPairs.eq_def, ↓State.setFld_platform]

@[simp] theorem State.lineEvents_platform (s : State) (b : Nat) : (State.lineEvents s b).platform = s.platform := by
  simp only [State.lineEvents.eq_def, ↓State.setBar_platform, ↓State.raise_platform, ↓foldl_platform, ↓ite_platform, ite_self,
    implies_true, ↓State.platform_keep]

@[simp] theorem State.webMoved_platform (s : State) : (State.webMoved s).platform = s.platform := by
  simp only [State.webMoved.eq_def, ↓State.lineEvents_platform, ↓foldl_platform, ↓ite_platform, ite_self, implies_true,
    ↓State.platform_keep]

@[simp] theorem State.speedTick_platform (s : State) (e : Nat) : (State.speedTick s e).platform = s.platform := by
  simp only [State.speedTick.eq_def, ↓State.setSpeed_platform, ↓State.setFld_platform, ↓ite_platform, ite_self]

@[simp] theorem State.motionTick_platform (s : State) : (State.motionTick s).platform = s.platform := by
  simp only [State.motionTick.eq_def, ↓State.webMoved_platform, ↓State.keepFloor_platform, ↓State.speedTick_platform,
    ↓foldl_platform, implies_true]

@[simp] theorem State.timeEvent_platform (s : State) (bit : Nat) : (State.timeEvent s bit).platform = s.platform := by
  simp only [State.timeEvent.eq_def, ↓State.raiseIf_platform]

@[simp] theorem State.periodicTick_platform (before : Clock) (s : State) (p : Nat) :
    (State.periodicTick before s p).platform = s.platform := by
  simp only [State.periodicTick.eq_def, ↓State.timeEvent_platform, ↓ite_platform, ite_self]

@[simp] theorem State.alarmFired_platform (s : State) (d : Nat) : (State.alarmFired s d).platform = s.platform := by
  simp only [State.alarmFired.eq_def, ↓State.timeEvent_platform, ↓State.setFld_platform, ↓ite_platform, ite_self]

@[simp] theorem State.tickDomain_platform (s : State) (d : Nat) : (State.tickDomain s d).platform = s.platform := by
  simp only [State.tickDomain.eq_def, ↓State.setClock_platform, ↓State.pps_platform, ↓ite_platform, ite_self]

@[simp] theorem State.setResid_platform (s : State) (r : Int) : (State.setResid s r).platform = s.platform := by
  simp only [State.setResid.eq_def, ↓State.setFlag_platform, ↓State.platform_keep]

@[simp] theorem State.countTick_platform (s : State) : (State.countTick s).platform = s.platform := by
  simp only [State.countTick.eq_def, ↓State.tickDomain_platform, ↓State.setResid_platform]

@[simp] theorem State.timeTick_platform (s : State) : (State.timeTick s).platform = s.platform := by
  simp only [State.timeTick.eq_def, ↓State.periodicTick_platform, ↓State.alarmFired_platform, ↓State.countTick_platform,
    ↓foldl_platform, implies_true]

@[simp] theorem State.lanesTick_platform (s : State) : (State.lanesTick s).platform = s.platform := by
  rw [State.lanesTick.eq_def] <;> (try simp only [↓State.laneAsk_platform, ↓foldl_platform, ↓ite_platform, ↓dite_platform,
      ↓reduceIte, ite_self, implies_true,
      ↓State.platform_keep]) <;> repeat' ((first | split | (rw [foldl_platform]; intro s x)) <;> try simp only [↓State.laneAsk_platform,
      ↓foldl_platform, ↓ite_platform, ↓dite_platform, ↓reduceIte, ite_self, implies_true, ↓State.platform_keep])

@[simp] theorem State.countTaken_platform (s : State) (n : Nat) : (State.countTaken s n).platform = s.platform := by
  simp only [State.countTaken.eq_def, ↓State.bumpWrap_platform, ↓ite_platform, ite_self, ↓State.platform_keep]

@[simp] theorem State.takeTables_platform (s : State) (n : Nat) : (State.takeTables s n).platform = s.platform := by
  simp only [State.takeTables.eq_def, ↓State.showTabPend_platform, ↓State.countTaken_platform, ↓State.setCam_platform,
    ↓ite_platform, ite_self]

@[simp] theorem State.deviation_platform (s : State) (n : Nat) (count : Fld) : (State.deviation s n count).platform = s.platform := by
  simp only [State.deviation.eq_def, ↓State.kalEvent_platform, ↓State.bump_platform]

@[simp] theorem State.openFrame_platform (s : State) (n : Nat) (overlong : Bool) :
    (State.openFrame s n overlong).platform = s.platform := by
  simp only [State.openFrame.eq_def, ↓State.takeTables_platform, ↓State.setCam_platform, ↓State.setFld_platform,
    ↓State.kalEvent_platform, ↓State.deviation_platform, ↓ite_platform, ite_self]

@[simp] theorem State.countPairFault_platform (s : State) (cause : Nat) : (State.countPairFault s cause).platform = s.platform := by
  rw [State.countPairFault.eq_def]
  repeat' split
  all_goals simp only [↓State.bump_platform]

theorem execBarDelaySet_platform (rq : Rq) (bar : Nat) (delay : Nat) (s : State) :
    ∃ t, (execBarDelaySet rq bar delay s) = .next t ∧ t.platform = s.platform := by
  exact ⟨_, rfl, by simp only [↓State.run_platform, ↓State.withParams_platform, ↓State.finish_platform, ↓State.setFld_platform,
    implies_true]⟩

@[simp] theorem State.trimStep_platform (s : State) (f : Finding) (x : Nat) : (State.trimStep s f x).platform = s.platform := by
  simp only [State.trimStep.eq_def, ↓State.gather_platform, ↓State.setNoz1_platform, ↓ite_platform, ite_self]

@[simp] theorem State.nozConf_platform (s : State) (b : Nat) (x : Nat) (conf : Nat) :
    (State.nozConf s b x conf).platform = s.platform := by
  simp only [State.nozConf.eq_def, ↓State.setNoz1_platform]

@[simp] theorem State.descDone_platform (s : State) (ch : Nat) (d : List Byte) : (State.descDone s ch d).platform = s.platform := by
  simp only [State.descDone.eq_def, ↓State.setFld_platform, ↓State.setDmaCh_platform, ↓State.endChain_platform,
    ↓State.dmaDone_platform, ↓ite_platform, ite_self]

@[simp] theorem State.setInc_platform (s : State) (d : Nat) (inc : Nat) : (State.setInc s d inc).platform = s.platform := by
  simp only [State.setInc.eq_def, ↓State.setFld_platform]

@[simp] theorem State.stepDom_platform (s : State) (d : Nat) (ns : Int) : (State.stepDom s d ns).platform = s.platform := by
  simp only [State.stepDom.eq_def, ↓State.bump_platform, ↓State.setClock_platform]

@[simp] theorem State.measurement_platform (s : State) (d : Nat) (offset : Int) :
    (State.measurement s d offset).platform = s.platform := by
  simp only [State.measurement.eq_def, ↓State.setFldI_platform, ↓State.stepDom_platform, ↓State.setInc_platform,
    ↓State.setClock_platform, ↓State.setFld_platform, ↓State.lockLost_platform, ↓ite_platform, ite_self]

@[simp] theorem State.sourceHeard_platform (s : State) (d : Nat) : (State.sourceHeard s d).platform = s.platform := by
  simp only [State.sourceHeard.eq_def, ↓State.hostLocked_platform, ↓State.setFld_platform, ↓ite_platform, ite_self]

@[simp] theorem State.ringTime_platform (s : State) (u : Int) : (State.ringTime s u).platform = s.platform := by
  simp only [State.ringTime.eq_def, ↓State.setClock_platform, ↓State.measurement_platform, ↓State.sourceHeard_platform,
    ↓foldl_platform, ↓ite_platform, ite_self, implies_true, ↓State.platform_keep]

theorem execSpdrqWord_platform (s : State) : ∃ t, (execSpdrqWord s) = .next t ∧ t.platform = s.platform := by
  exact ⟨_, rfl, by simp only [↓State.emit_platform, ↓ite_platform, ite_self, ↓State.platform_keep]⟩

@[simp] theorem State.chatterFail_platform (s : State) (a : Nat) : (State.chatterFail s a).platform = s.platform := by
  simp only [State.chatterFail.eq_def, ↓State.setFld_platform, ↓State.log1_platform, ↓State.axRamp_platform,
    ↓State.homeUndone_platform, ↓State.axEnter_platform, ↓State.setAxis_platform]

theorem execSwitchRawEdge_platform (sw : Nat) (level : Bool) (s : State) :
    ∃ t, (execSwitchRawEdge sw level s) = .next t ∧ t.platform = s.platform := by
  exact ⟨_, rfl, by simp only [↓State.setAxis_platform, ↓State.chatterFail_platform, ↓foldl_platform, ↓ite_platform, ite_self,
    implies_true, ↓State.platform_keep]⟩

@[simp] theorem State.readCanaries_platform (s : State) (speeds : List Nat) :
    (State.readCanaries s speeds).platform = s.platform := by
  simp only [State.readCanaries.eq_def, ↓State.setFld_platform, ↓State.setFlag_platform, ↓State.raiseIf_platform,
    ↓State.log1_platform, ↓foldl_platform, ↓ite_platform, ite_self, implies_true]

@[simp] theorem State.showRamp_platform (s : State) : (State.showRamp s).platform = s.platform := by
  simp only [State.showRamp.eq_def, ↓State.setFlag_platform]

@[simp] theorem State.mendC5_platform (s : State) : (State.mendC5 s).platform = s.platform := by
  simp only [State.mendC5.eq_def, ↓State.mend_platform, ↓ite_platform, ite_self]

@[simp] theorem State.fitWatch_platform (s : State) (mode : Nat) : (State.fitWatch s mode).platform = s.platform := by
  simp only [State.fitWatch.eq_def, ↓State.setFld_platform, ↓State.raiseIf_platform, ↓ite_platform, ite_self]

theorem execModLimitWrite_platform (limit : Nat) (s : State) :
    ∃ t, (execModLimitWrite limit s) = .next t ∧ t.platform = s.platform := by
  exact ⟨_, rfl, by simp only [↓State.setFld_platform, ↓ite_platform, ite_self]⟩

@[simp] theorem State.imageBand_platform (s : State) (f : Finding) (x : Nat) : (State.imageBand s f x).platform = s.platform := by
  simp only [State.imageBand.eq_def, ↓State.bump_platform, ↓ite_platform, ite_self]

@[simp] theorem State.afterConfig_platform (s : State) (reset : Bool) : (State.afterConfig s reset).platform = s.platform := by
  simp only [State.afterConfig.eq_def, ↓State.enter_platform, ↓ite_platform, ite_self]

@[simp] theorem State.refuseTask_platform (s : State) (k : Nat) : (State.refuseTask s k).platform = s.platform := by
  simp only [State.refuseTask.eq_def, ↓State.endTask_platform, ↓State.setCons_platform]

@[simp] theorem State.startCal_platform (s : State) (rq : Rq) (kind : Nat) (port : Nat) :
    (State.startCal s rq kind port).platform = s.platform := by
  simp only [State.startCal.eq_def, ↓State.finish_platform, ↓State.setCam_platform, ↓State.pend_platform, ↓ite_platform, ite_self]

theorem execTscapCapture_platform (unit : Nat) (s : State) : ∃ t, (execTscapCapture unit s) = .next t ∧ t.platform = s.platform := by
  exact ⟨_, rfl, by simp only [↓State.setCons_platform, ↓State.capture_platform, ↓ite_platform, ite_self]⟩

@[simp] theorem State.shiftSheets_platform (s : State) (d : Int) : (State.shiftSheets s d).platform = s.platform := by
  simp only [State.shiftSheets.eq_def, ↓State.setBar_platform, ↓foldl_platform, ↓ite_platform, ite_self, implies_true]

@[simp] theorem State.setOffset_platform (s : State) (o : Int) : (State.setOffset s o).platform = s.platform := by
  simp only [State.setOffset.eq_def, ↓State.platform_keep]

@[simp] theorem State.pcieReport_platform (s : State) (kind : Nat) : (State.pcieReport s kind).platform = s.platform := by
  rw [State.pcieReport.eq_def]
  repeat' split
  all_goals simp only [↓State.emit_platform, ↓State.bump_platform, ↓State.setFld_platform, ↓State.setReg_platform, ↓foldl_platform,
    ↓ite_platform, ite_self, implies_true, ↓State.platform_keep]

@[simp] theorem State.busAgain_platform (s : State) (batch : List Nat) : (State.busAgain s batch).platform = s.platform := by
  rw [State.busAgain.eq_def] <;> (try simp only [↓State.endChain_platform, ↓foldl_platform, ↓ite_platform, ↓dite_platform,
      ↓reduceIte, ite_self, implies_true,
      ↓State.platform_keep]) <;> repeat' ((first | split | (rw [foldl_platform]; intro s x)) <;> try simp only [↓State.endChain_platform,
      ↓foldl_platform, ↓ite_platform, ↓dite_platform, ↓reduceIte, ite_self, implies_true, ↓State.platform_keep])

@[simp] theorem State.ownFault_platform (s : State) (ch : Nat) : (State.ownFault s ch).platform = s.platform := by
  simp only [State.ownFault.eq_def, ↓State.endChain_platform]

@[simp] theorem State.busHalt_platform (s : State) (batch : List Nat) : (State.busHalt s batch).platform = s.platform := by
  simp only [State.busHalt.eq_def, ↓State.ownFault_platform, ↓State.stopChain_platform, ↓foldl_platform, ↓ite_platform, ite_self,
    implies_true]

@[simp] theorem State.busError_platform (s : State) (kind : Nat) (addr : Nat) (batch : List Nat) :
    (State.busError s kind addr batch).platform = s.platform := by
  simp only [State.busError.eq_def, ↓State.pcieReport_platform, ↓State.bump_platform, ↓State.busAgain_platform,
    ↓State.haltDone_platform, ↓State.busHalt_platform, ↓ite_platform, ite_self, ↓State.platform_keep]

theorem execPcieCompletionTimeout_platform (addr : Nat) (batch : List Nat) (s : State) :
    ∃ t, (execPcieCompletionTimeout addr batch s) = .next t ∧ t.platform = s.platform := by
  exact ⟨_, rfl, by simp only [↓State.busError_platform]⟩

@[simp] theorem State.countCause_platform (s : State) (cause : Nat) (n : Nat) :
    (State.countCause s cause n).platform = s.platform := by
  rw [State.countCause.eq_def]
  repeat' split
  all_goals simp only [↓State.bump_platform]

@[simp] theorem State.sendSchedule_platform (s : State) (k : Nat) (flags : Nat) (frame : Nat) (g : Nat) (gen : Nat)
    (due : Int) :
    (State.sendSchedule s k flags frame g gen due).platform = s.platform := by
  simp only [State.sendSchedule.eq_def, ↓State.boardSend_platform]

@[simp] theorem State.sendLine_platform (s : State) (k : Nat) (flags : Nat) (frame : Nat) (crc : Nat) (p : List Byte) :
    (State.sendLine s k flags frame crc p).platform = s.platform := by
  simp only [State.sendLine.eq_def, ↓State.headSend_platform, ↓ite_platform, ite_self]

@[simp] theorem State.pushFinding_platform (s : State) (f : Finding) : (State.pushFinding s f).platform = s.platform := by
  simp only [State.pushFinding.eq_def, ↓State.setFld_platform, ↓State.platform_keep]

@[simp] theorem State.vacate_platform (s : State) (sess : Nat) (tag : Nat) : (State.vacate s sess tag).platform = s.platform := by
  simp only [State.vacate.eq_def, ↓State.lift_platform, ↓State.platform_keep]

@[simp] theorem State.gateEnd_platform (s : State) : (State.gateEnd s).platform = s.platform := by
  rw [State.gateEnd.eq_def]
  repeat' split
  all_goals simp only [↓State.setFld_platform, ↓State.vacate_platform, ↓State.finishSlot_platform, ↓State.platform_keep]

@[simp] theorem State.energyBlank_platform (s : State) (k : Nat) (p : List Byte) :
    (State.energyBlank s k p).platform = s.platform := by
  rw [State.energyBlank.eq_def]
  repeat' split
  all_goals simp only [↓State.setFld_platform, ↓State.platform_keep]

theorem execLoopSwapStage_platform (bar : Nat) (s : State) : ∃ t, (execLoopSwapStage bar s) = .next t ∧ t.platform = s.platform := by
  exact ⟨_, rfl, by simp only [↓State.setLoopBar_platform, ↓State.setFld_platform, ↓State.nozEvent_platform,
    ↓State.swapRequest_platform, ↓State.setPend_platform, ↓ite_platform, ite_self]⟩

theorem execPosReference_platform (rq : Rq) (enc : Nat) (pos : Int) (s : State) :
    ∃ t, (execPosReference rq enc pos s) = .next t ∧ t.platform = s.platform := by
  exact ⟨_, rfl, by simp only [↓State.run_platform, ↓State.withParams_platform, ↓State.setEnc_platform, ↓State.setSpeed_platform,
    ↓State.setFld_platform, ↓State.finish_platform, ↓ite_platform, ite_self, implies_true]⟩

@[simp] theorem State.endLine_platform (s : State) (b : Nat) (e : Entry) : (State.endLine s b e).platform = s.platform := by
  simp only [State.endLine.eq_def, ↓State.setBar_platform, ↓State.raiseIf_platform, ↓State.setFld_platform, ↓State.bump_platform,
    ↓State.releasePages_platform, ↓ite_platform, ite_self]

@[simp] theorem State.takeReply_platform (s : State) (src : Nat) (sess : Nat) (b : List Byte) :
    (State.takeReply s src sess b).platform = s.platform := by
  rw [State.takeReply.eq_def] <;> (try simp only [↓State.setInFlight_platform, ↓State.sendDatagram_platform,
      ↓State.complete_platform, ↓foldl_platform, ↓ite_platform, ↓dite_platform, ↓reduceIte, ite_self, implies_true,
      ↓State.platform_keep]) <;> repeat' ((first | split | (rw [foldl_platform]; intro s x)) <;> try simp only [↓State.setInFlight_platform,
      ↓State.sendDatagram_platform, ↓State.complete_platform, ↓foldl_platform, ↓ite_platform, ↓dite_platform, ↓reduceIte, ite_self,
      implies_true, ↓State.platform_keep])

@[simp] theorem State.chainBad_platform (s : State) (west : Bool) : (State.chainBad s west).platform = s.platform := by
  simp only [State.chainBad.eq_def, ↓State.setLink_platform]

@[simp] theorem State.refuseLink_platform (s : State) (west : Bool) : (State.refuseLink s west).platform = s.platform := by
  simp only [State.refuseLink.eq_def, ↓State.setLink_platform, ↓State.breach_platform, ↓ite_platform, ite_self,
    ↓State.platform_keep]

@[simp] theorem State.chainReturn_platform (s : State) (west : Bool) : (State.chainReturn s west).platform = s.platform := by
  simp only [State.chainReturn.eq_def, ↓State.chainSend_platform]

@[simp] theorem State.chainTake_platform (s : State) (west : Bool) (type : Nat) (b : List Byte) (body : ChainPkt →
    State → State) (hbody : ∀ y0 y1, (body y0 y1).platform = y1.platform) :
    (State.chainTake s west type b body).platform = s.platform := by
  rw [State.chainTake.eq_def]
  repeat' split
  all_goals simp only [↓State.chainBad_platform, ↓State.refuseLink_platform, ↓State.chainReturn_platform, hbody]

theorem execToneCurveLoad_platform (rq : Rq) (chunk : Chunk) (s : State) :
    ∃ t, (execToneCurveLoad rq chunk s) = .next t ∧ t.platform = s.platform := by
  rw [execToneCurveLoad.eq_def]
  repeat' split
  all_goals refine ⟨_, rfl, ?_⟩
  all_goals (try simp only [↓State.run_platform, ↓State.loadTable_platform, ↓State.setPend_platform, ↓State.reject_platform,
      ↓State.finish_platform, ↓State.stageBank_platform, ↓foldl_platform, ↓ite_platform, ↓dite_platform, ↓reduceIte, ite_self,
      implies_true, ↓State.platform_keep])
  all_goals repeat' ((first | (rw [State.loadTable_platform] <;> [(intro s); (intro t rep s)]) | (rw [State.run_platform]; intro s) | split | (rw [foldl_platform]; intro s x)) <;> try simp only [↓State.run_platform,
      ↓State.loadTable_platform, ↓State.setPend_platform, ↓State.reject_platform, ↓State.finish_platform, ↓State.stageBank_platform,
      ↓foldl_platform, ↓ite_platform, ↓dite_platform, ↓reduceIte, ite_self, implies_true, ↓State.platform_keep])

@[simp] theorem State.softLimited_platform (s : State) (a : Nat) : (State.softLimited s a).platform = s.platform := by
  simp only [State.softLimited.eq_def, ↓State.axEvent_platform, ↓State.setFld_platform]

@[simp] theorem State.axFollowMove_platform (s : State) (a : Nat) (d : Int) : (State.axFollowMove s a d).platform = s.platform := by
  simp only [State.axFollowMove.eq_def, ↓State.setAxPos_platform, ↓State.setAxis_platform, ↓State.softLimited_platform,
    ↓ite_platform, ite_self]

theorem execFollowStep_platform (axis : Nat) (s : State) : ∃ t, (execFollowStep axis s) = .next t ∧ t.platform = s.platform := by
  exact ⟨_, rfl, by simp only [↓State.axFollowMove_platform, ↓State.setAxis_platform, ↓State.softLimited_platform,
    ↓State.bump_platform, ↓ite_platform, ite_self]⟩

theorem execHelloReply_platform (board : Nat) (bytes : List Byte) (s : State) :
    ∃ t, (execHelloReply board bytes s) = .next t ∧ t.platform = s.platform := by
  rw [execHelloReply.eq_def]
  refine ⟨_, rfl, ?_⟩
  repeat' split
  all_goals simp only [↓State.setFlag_platform, ↓State.setCredits_platform, ↓State.setBst_platform, ↓State.setBoard_platform,
    ↓ite_platform, ite_self]

@[simp] theorem State.echoRail_platform (s : State) (k : Nat) (rail : Nat) : (State.echoRail s k rail).platform = s.platform := by
  simp only [State.echoRail.eq_def, ↓State.setFld_platform, ↓State.setBoard_platform, ↓State.latchBoard_platform, ↓ite_platform,
    ite_self]

theorem execDelayReq_platform (west : Bool) (bytes : List Byte) (s : State) :
    ∃ t, (execDelayReq west bytes s) = .next t ∧ t.platform = s.platform := by
  exact ⟨_, rfl, by simp only [↓State.chainTake_platform, ↓State.chainSendOn_platform, implies_true]⟩

@[simp] theorem State.consume_platform (s : State) (r : Nat) (n : Nat) : (State.consume s r n).platform = s.platform := by
  simp only [State.consume.eq_def, ↓State.setRing_platform]

@[simp] theorem State.occupy_platform (s : State) (rq : Rq) (dom : Domain) : (State.occupy s rq dom).platform = s.platform := by
  simp only [State.occupy.eq_def, ↓State.platform_keep]

theorem execDbFetch_platform (ring : Nat) (value : Nat) (s : State) :
    ∃ t, (execDbFetch ring value s) = .next t ∧ t.platform = s.platform := by
  exact ⟨_, rfl, by simp only [↓State.fetch_platform, ↓ite_platform, ite_self]⟩

@[simp] theorem State.hostData_platform (s : State) (h : Nat) (a : Nat) (n : Nat) :
    (State.hostData s h a n).platform = s.platform := by
  simp only [State.hostData.eq_def, ↓State.bump_platform, ↓State.emit_platform, ↓foldl_platform, ↓ite_platform, ite_self,
    implies_true]

@[simp] theorem State.axTable_platform (s : State) (a : Nat) : (State.axTable s a).platform = s.platform := by
  rw [State.axTable.eq_def] <;> (try simp only [↓State.setAxis_platform, ↓foldl_platform, ↓ite_platform, ↓dite_platform, ↓reduceIte,
      ite_self, implies_true,
      ↓State.platform_keep]) <;> repeat' ((first | split | (rw [foldl_platform]; intro s x)) <;> try simp only [↓State.setAxis_platform,
      ↓foldl_platform, ↓ite_platform, ↓dite_platform, ↓reduceIte, ite_self, implies_true, ↓State.platform_keep])

@[simp] theorem State.countForced_platform (s : State) (arb : Nat) : (State.countForced s arb).platform = s.platform := by
  simp only [State.countForced.eq_def, ↓State.bump_platform, ↓ite_platform, ite_self]

theorem execPositionTimeout_platform (s : State) : ∃ t, (execPositionTimeout s) = .next t ∧ t.platform = s.platform := by
  exact ⟨_, rfl, by simp only [↓ite_platform, ite_self, ↓State.platform_keep]⟩

@[simp] theorem State.voidSlot_platform (s : State) : (State.voidSlot s).platform = s.platform := by
  simp only [State.voidSlot.eq_def, ↓State.setFld_platform]

theorem execMonBinsLoad_platform (rq : Rq) (chunk : Chunk) (s : State) :
    ∃ t, (execMonBinsLoad rq chunk s) = .next t ∧ t.platform = s.platform := by
  rw [execMonBinsLoad.eq_def]
  repeat' split
  all_goals refine ⟨_, rfl, ?_⟩
  all_goals (try simp only [↓State.run_platform, ↓State.loadChunk_platform, ↓State.reject_platform, ↓State.finish_platform,
      ↓State.setFld_platform, ↓State.setMon_platform, ↓foldl_platform, ↓ite_platform, ↓dite_platform, ↓reduceIte, ite_self,
      implies_true, ↓State.platform_keep])
  all_goals repeat' ((first | (rw [State.loadChunk_platform]; intro t rep s) | (rw [State.run_platform]; intro s) | split | (rw [foldl_platform]; intro s x)) <;> try simp only [↓State.run_platform,
      ↓State.loadChunk_platform, ↓State.reject_platform, ↓State.finish_platform, ↓State.setFld_platform, ↓State.setMon_platform,
      ↓foldl_platform, ↓ite_platform, ↓dite_platform, ↓reduceIte, ite_self, implies_true, ↓State.platform_keep])

@[simp] theorem State.swapDue_platform (s : State) (b : Nat) : (State.swapDue s b).platform = s.platform := by
  simp only [State.swapDue.eq_def, ↓State.swapBar_platform, ↓ite_platform, ite_self]

@[simp] theorem State.waitAt_platform (s : State) (shown : Fld) (count : Fld) :
    (State.waitAt s shown count).platform = s.platform := by
  simp only [State.waitAt.eq_def, ↓State.bump_platform, ↓State.setFld_platform, ↓ite_platform, ite_self]

@[simp] theorem State.failFlight_platform (s : State) (n : Nat) (f : Forwarded) : (State.failFlight s n f).platform = s.platform := by
  rw [State.failFlight.eq_def]
  repeat' split
  all_goals simp only [↓State.sendDatagram_platform, ↓State.finishSlot_platform]

@[simp] theorem State.failFlights_platform (s : State) (n : Nat) (gone : Forwarded → Bool) :
    (State.failFlights s n gone).platform = s.platform := by
  simp only [State.failFlights.eq_def, ↓State.setInFlight_platform, ↓State.failFlight_platform, ↓foldl_platform, implies_true]

theorem execChainLinkLoss_platform (west : Bool) (s : State) :
    ∃ t, (execChainLinkLoss west s) = .next t ∧ t.platform = s.platform := by
  exact ⟨_, rfl, by simp only [↓State.log1_platform, ↓State.setLink_platform, ↓State.sendLeader_platform,
    ↓State.failFlights_platform, ↓ite_platform, ite_self, ↓State.platform_keep]⟩

theorem execPause_platform (rq : Rq) (s : State) : ∃ t, (execPause rq s) = .next t ∧ t.platform = s.platform := by
  exact ⟨_, rfl, by simp only [↓State.run_platform, ↓State.withParams_platform, ↓State.finish_platform, ↓State.pause_platform,
    implies_true]⟩

@[simp] theorem State.portShown_platform (s : State) (d : Nat) (port : Nat) (st : Nat) :
    (State.portShown s d port st).platform = s.platform := by
  simp only [State.portShown.eq_def, ↓State.setClock_platform, ↓State.setFld_platform, ↓ite_platform, ite_self]

@[simp] theorem State.masterHeard_platform (s : State) (d : Nat) (m : PtpMsg) : (State.masterHeard s d m).platform = s.platform := by
  simp only [State.masterHeard.eq_def, ↓State.setClock_platform, ↓State.showUtc_platform, ↓ite_platform, ite_self]

theorem execTakeoverRecalDone_platform (group : Nat) (ok : Bool) (s : State) :
    ∃ t, (execTakeoverRecalDone group ok s) = .next t ∧ t.platform = s.platform := by
  exact ⟨_, rfl, by simp only [↓State.setFld_platform, ↓State.setLaneGrp_platform, ↓State.raiseIf_platform, ↓State.log1_platform,
    ↓ite_platform, ite_self]⟩

theorem execChainCredit_platform (west : Bool) (bytes : List Byte) (s : State) :
    ∃ t, (execChainCredit west bytes s) = .next t ∧ t.platform = s.platform := by
  exact ⟨_, rfl, by simp only [↓State.chainTake_platform, ↓State.chainDrain_platform, ↓State.setLink_platform, implies_true]⟩

@[simp] theorem State.commitTab_platform (s : State) (k : Nat) (data : List Int) :
    (State.commitTab s k data).platform = s.platform := by
  simp only [State.commitTab.eq_def, ↓State.showTabPend_platform, ↓State.platform_keep]

@[simp] theorem State.loadTab_platform (s : State) (rq : Rq) (op : Nat) (kind : Nat) (limit : Nat) (c : Chunk) (bad
    : List Byte → Option Nat) (read : List Byte → List Int) :
    (State.loadTab s rq op kind limit c bad read).platform = s.platform := by
  rw [State.loadTab.eq_def] <;> (try simp only [↓State.finish_platform, ↓State.loadChunk_platform, ↓State.reject_platform,
      ↓State.commitTab_platform, ↓foldl_platform, ↓ite_platform, ↓dite_platform, ↓reduceIte, ite_self, implies_true,
      ↓State.platform_keep]) <;> repeat' ((first | (rw [State.loadChunk_platform]; intro t rep s) | split | (rw [foldl_platform]; intro s x)) <;> try simp only [↓State.finish_platform,
      ↓State.loadChunk_platform, ↓State.reject_platform, ↓State.commitTab_platform, ↓foldl_platform, ↓ite_platform, ↓dite_platform,
      ↓reduceIte, ite_self, implies_true, ↓State.platform_keep])

theorem execBlurLoad_platform (rq : Rq) (chunk : Chunk) (s : State) :
    ∃ t, (execBlurLoad rq chunk s) = .next t ∧ t.platform = s.platform := by
  exact ⟨_, rfl, by simp only [↓State.run_platform, ↓State.loadTab_platform, implies_true]⟩

theorem execPageRepeat_platform (rq : Rq) (handle : Nat) (count : Nat) (s : State) :
    ∃ t, (execPageRepeat rq handle count s) = .next t ∧ t.platform = s.platform := by
  exact ⟨_, rfl, by simp only [↓State.run_platform, ↓State.withParams_platform, ↓State.finish_platform, ↓ite_platform, ite_self,
    implies_true, ↓State.platform_keep]⟩

@[simp] theorem State.setOverlap_platform (s : State) (o : Nat) (x : Overlap) : (State.setOverlap s o x).platform = s.platform := by
  simp only [State.setOverlap.eq_def, ↓State.platform_keep]

@[simp] theorem State.islandOverrun_platform (s : State) (block : Nat) (inst : Nat) :
    (State.islandOverrun s block inst).platform = s.platform := by
  simp only [State.islandOverrun.eq_def, ↓State.breach_platform, ↓State.breachOnce_platform, ↓ite_platform, ite_self]

@[simp] theorem State.showCapFill_platform (s : State) (n : Nat) : (State.showCapFill s n).platform = s.platform := by
  simp only [State.showCapFill.eq_def, ↓State.setFld_platform]

@[simp] theorem State.calTake_platform (s : State) (n : Nat) (rows : List (List Nat)) :
    (State.calTake s n rows).platform = s.platform := by
  rw [State.calTake.eq_def] <;> (try simp only [↓State.setCam_platform, ↓foldl_platform, ↓ite_platform, ↓dite_platform, ↓reduceIte,
      ite_self, implies_true,
      ↓State.platform_keep]) <;> repeat' ((first | split | (rw [foldl_platform]; intro s x)) <;> try simp only [↓State.setCam_platform,
      ↓foldl_platform, ↓ite_platform, ↓dite_platform, ↓reduceIte, ite_self, implies_true, ↓State.platform_keep])

@[simp] theorem State.inspLine_platform (s : State) (n : Nat) (f : CamFrame) (t : Trig) (flags : Nat) (rows : List
    (List Nat)) :
    (State.inspLine s n f t flags rows).platform = s.platform := by
  simp only [State.inspLine.eq_def, ↓State.setCam_platform, ↓State.islandOverrun_platform, ↓State.raise_platform,
    ↓State.bump_platform, ↓State.showCapFill_platform, ↓State.calTake_platform, ↓ite_platform, ite_self]

@[simp] theorem State.pruneGrid_platform (s : State) : (State.pruneGrid s).platform = s.platform := by
  rw [State.pruneGrid.eq_def] <;> (try simp only [↓State.setCam_platform, ↓foldl_platform, ↓ite_platform, ↓dite_platform,
      ↓reduceIte, ite_self, implies_true,
      ↓State.platform_keep]) <;> repeat' ((first | split | (rw [foldl_platform]; intro s x)) <;> try simp only [↓State.setCam_platform,
      ↓foldl_platform, ↓ite_platform, ↓dite_platform, ↓reduceIte, ite_self, implies_true, ↓State.platform_keep])

theorem execInactiveSourceAbsent_platform (s : State) : ∃ t, (execInactiveSourceAbsent s) = .next t ∧ t.platform = s.platform := by
  exact ⟨_, rfl, by simp only [↓State.sourceGone_platform]⟩

theorem execCoverageLoad_platform (rq : Rq) (chunk : Chunk) (s : State) :
    ∃ t, (execCoverageLoad rq chunk s) = .next t ∧ t.platform = s.platform := by
  exact ⟨_, rfl, by simp only [↓State.run_platform, ↓State.loadTab_platform, implies_true]⟩

@[simp] theorem State.axFrame_platform (s : State) (a : Nat) (ab : Int × Int) : (State.axFrame s a ab).platform = s.platform := by
  simp only [State.axFrame.eq_def, ↓State.setAxis_platform, ↓State.emit_platform]

theorem execAxisStageFault_platform (axis : Nat) (s : State) :
    ∃ t, (execAxisStageFault axis s) = .next t ∧ t.platform = s.platform := by
  exact ⟨_, rfl, by simp only [↓State.setFld_platform, ↓State.log1_platform, ↓State.axEvent_platform, ↓State.axEnter_platform,
    ↓State.axFrame_platform, ↓State.endTask_platform, ↓State.axAnswer_platform, ↓State.setAxis_platform, ↓ite_platform, ite_self]⟩

theorem execCompressStreamStart_platform (unit : Nat) (s : State) :
    ∃ t, (execCompressStreamStart unit s) = .next t ∧ t.platform = s.platform := by
  rw [execCompressStreamStart.eq_def]
  refine ⟨_, rfl, ?_⟩
  repeat' split
  all_goals simp only [↓State.setFld_platform, ↓State.platform_keep]

theorem execLaneLockLoss_platform (lane : Nat) (words : List (BitVec 66)) (s : State) :
    ∃ t, (execLaneLockLoss lane words s) = .next t ∧ t.platform = s.platform := by
  exact ⟨_, rfl, by simp only [↓State.bump_platform, ↓State.setLane_platform, ↓State.log1_platform, ↓State.laneLose_platform,
    ↓ite_platform, ite_self]⟩

@[simp] theorem State.takeRsmp_platform (s : State) (n : Nat) : (State.takeRsmp s n).platform = s.platform := by
  simp only [State.takeRsmp.eq_def, ↓State.setCam_platform, ↓ite_platform, ite_self]

@[simp] theorem State.stripeEdge_platform (s : State) (r : Nat) (m : Int) (column : Nat) :
    (State.stripeEdge s r m column).platform = s.platform := by
  simp only [State.stripeEdge.eq_def, ↓State.setRsmp_platform, ↓State.setFld_platform, ↓State.raiseIf_platform,
    ↓State.bumpWrap_platform, ↓ite_platform, ite_self]

theorem execResampleLine_platform (port : Nat) (s : State) : ∃ t, (execResampleLine port s) = .next t ∧ t.platform = s.platform := by
  rw [execResampleLine.eq_def]
  repeat' split
  all_goals refine ⟨_, rfl, ?_⟩
  all_goals (try simp only [↓State.takeRsmp_platform, ↓State.stripeEdge_platform, ↓State.setCam_platform, ↓State.bump_platform,
      ↓foldl_platform, ↓ite_platform, ↓dite_platform, ↓reduceIte, ite_self, implies_true, ↓State.platform_keep])
  all_goals repeat' ((first | split | (rw [foldl_platform]; intro s x)) <;> try simp only [↓State.takeRsmp_platform,
      ↓State.stripeEdge_platform, ↓State.setCam_platform, ↓State.bump_platform, ↓foldl_platform, ↓ite_platform, ↓dite_platform, ↓reduceIte,
      ite_self, implies_true, ↓State.platform_keep])

@[simp] theorem State.chainRelay_platform (s : State) (west : Bool) (b : List Byte) (body : List Byte) :
    (State.chainRelay s west b body).platform = s.platform := by
  simp only [State.chainRelay.eq_def, ↓State.chainBad_platform, ↓State.chainSendOn_platform, ↓ite_platform, ite_self]

@[simp] theorem State.chainSpread_platform (s : State) (west : Bool) (b : List Byte) (p : ChainPkt) (local_ : State
    → State) (hlocal_ : ∀ y0, (local_ y0).platform = y0.platform) :
    (State.chainSpread s west b p local_).platform = s.platform := by
  simp only [State.chainSpread.eq_def, ↓State.chainRelay_platform, ↓ite_platform, ite_self, hlocal_]

@[simp] theorem State.credited_platform (s : State) (r : Nat) : (State.credited s r).platform = s.platform := by
  simp only [State.credited.eq_def, ↓State.setStall_platform, ↓State.drainReplies_platform, ↓State.mendC1_platform,
    ↓State.setRing_platform, ↓ite_platform, ite_self]

theorem execDbRpl_platform (ring : Nat) (idx : Nat) (s : State) :
    ∃ t, (execDbRpl ring idx s) = .next t ∧ t.platform = s.platform := by
  exact ⟨_, rfl, by simp only [↓State.cmdErr_platform, ↓State.credited_platform, ↓State.setRing_platform, ↓ite_platform, ite_self]⟩

theorem execCmdRingEnableWrite_platform (ring : Nat) (enable : Bool) (s : State) :
    ∃ t, (execCmdRingEnableWrite ring enable s) = .next t ∧ t.platform = s.platform := by
  exact ⟨_, rfl, by simp only [↓State.ringEnabled_platform, ↓State.setFlag_platform, ↓ite_platform, ite_self]⟩

theorem execNop_platform (rq : Rq) (s : State) : ∃ t, (execNop rq s) = .next t ∧ t.platform = s.platform := by
  exact ⟨_, rfl, by simp only [↓State.run_platform, ↓State.finish_platform, implies_true]⟩

@[simp] theorem State.setCount_platform (s : State) (id : Nat) (n : Nat) : (State.setCount s id n).platform = s.platform := by
  simp only [State.setCount.eq_def, ↓State.platform_keep]

theorem execKpsPageHeader_platform (ch : Nat) (bytes : List Byte) (s : State) :
    ∃ t, (execKpsPageHeader ch bytes s) = .next t ∧ t.platform = s.platform := by
  rw [execKpsPageHeader.eq_def]
  repeat' split
  all_goals refine ⟨_, rfl, ?_⟩
  all_goals (try simp only [↓State.failPage_platform, ↓State.stopPage_platform, ↓State.setCount_platform, ↓State.setPage_platform,
      ↓State.shortPage_platform, ↓foldl_platform, ↓ite_platform, ↓dite_platform, ↓reduceIte, ite_self, implies_true,
      ↓State.platform_keep])
  all_goals repeat' ((first | split | (rw [foldl_platform]; intro s x)) <;> try simp only [↓State.failPage_platform,
      ↓State.stopPage_platform, ↓State.setCount_platform, ↓State.setPage_platform, ↓State.shortPage_platform, ↓foldl_platform,
      ↓ite_platform, ↓dite_platform, ↓reduceIte, ite_self, implies_true, ↓State.platform_keep])

@[simp] theorem State.setSsi_platform (s : State) (u : Nat) (x : Ssi) : (State.setSsi s u x).platform = s.platform := by
  simp only [State.setSsi.eq_def, ↓State.platform_keep]

@[simp] theorem State.monSnap_platform (s : State) (m : Nat) : (State.monSnap s m).platform = s.platform := by
  simp only [State.monSnap.eq_def, ↓State.setMon_platform]

theorem execMonSnapshot_platform (rq : Rq) (mask : Nat) (start : Nat) (s : State) :
    ∃ t, (execMonSnapshot rq mask start s) = .next t ∧ t.platform = s.platform := by
  rw [execMonSnapshot.eq_def]
  repeat' split
  all_goals refine ⟨_, rfl, ?_⟩
  all_goals (try simp only [↓State.run_platform, ↓State.withParams_platform, ↓State.monSnap_platform, ↓State.finish_platform,
      ↓foldl_platform, ↓ite_platform, ↓dite_platform, ↓reduceIte, ite_self, implies_true, ↓State.platform_keep])
  all_goals repeat' ((first | (rw [State.withParams_platform]; intro s) | (rw [State.run_platform]; intro s) | split | (rw [foldl_platform]; intro s x)) <;> try simp only [↓State.run_platform,
      ↓State.withParams_platform, ↓State.monSnap_platform, ↓State.finish_platform, ↓foldl_platform, ↓ite_platform, ↓dite_platform,
      ↓reduceIte, ite_self, implies_true, ↓State.platform_keep])

@[simp] theorem State.safeLine_platform (s : State) (k : Nat) (cause : Nat) : (State.safeLine s k cause).platform = s.platform := by
  rw [State.safeLine.eq_def]
  repeat' split
  all_goals simp only [↓State.bump_platform, ↓State.fireEvent_platform, ↓State.setFld_platform]

theorem execAxisHome_platform (rq : Rq) (axis : Nat) (dir : Nat) (s : State) :
    ∃ t, (execAxisHome rq axis dir s) = .next t ∧ t.platform = s.platform := by
  exact ⟨_, rfl, by simp only [↓State.run_platform, ↓State.finish_platform, ↓State.withParams_platform, ↓State.setFld_platform,
    ↓State.pend_platform, ↓State.axStart_platform, ↓State.setAxis_platform, ↓ite_platform, ite_self, implies_true]⟩

theorem execPhaseDisable_platform (phase : Nat) (s : State) :
    ∃ t, (execPhaseDisable phase s) = .next t ∧ t.platform = s.platform := by
  exact ⟨_, rfl, by simp only [↓State.phaseFail_platform]⟩

@[simp] theorem State.takePosition_platform (s : State) (b : List Byte) : (State.takePosition s b).platform = s.platform := by
  simp only [State.takePosition.eq_def, ↓State.webMoved_platform, ↓State.platform_keep]

@[simp] theorem State.authFail_platform (s : State) (slot : Nat) : (State.authFail s slot).platform = s.platform := by
  simp only [State.authFail.eq_def, ↓State.bump_platform, ↓ite_platform, ite_self, ↓State.platform_keep]

@[simp] theorem State.ringLost_platform (s : State) : (State.ringLost s).platform = s.platform := by
  simp only [State.ringLost.eq_def, ↓State.jigEvent_platform, ↓State.bump_platform]

@[simp] theorem State.countSamples_platform (s : State) (p : Nat) (m : Nat) : (State.countSamples s p m).platform = s.platform := by
  simp only [State.countSamples.eq_def, ↓State.bump_platform, ↓State.platform_keep]

@[simp] theorem State.inputLine_platform (s : State) (n : Nat) (l : CapLine) : (State.inputLine s n l).platform = s.platform := by
  simp only [State.inputLine.eq_def, ↓State.setCam_platform, ↓State.bump_platform, ↓ite_platform, ite_self]

@[simp] theorem State.lineDone_platform (s : State) (n : Nat) : (State.lineDone s n).platform = s.platform := by
  rw [State.lineDone.eq_def] <;> (try simp only [↓State.showCapFill_platform, ↓State.setCam_platform,
      ↓State.paperColumn_platform, ↓State.inputLine_platform, ↓foldl_platform, ↓ite_platform, ↓dite_platform, ↓reduceIte, ite_self,
      implies_true,
      ↓State.platform_keep]) <;> repeat' ((first | split | (rw [foldl_platform]; intro s x)) <;> try simp only [↓State.showCapFill_platform,
      ↓State.setCam_platform, ↓State.paperColumn_platform, ↓State.inputLine_platform, ↓foldl_platform, ↓ite_platform, ↓dite_platform,
      ↓reduceIte, ite_self, implies_true, ↓State.platform_keep])

@[simp] theorem State.axFollowUpdate_platform (s : State) (a : Nat) : (State.axFollowUpdate s a).platform = s.platform := by
  simp only [State.axFollowUpdate.eq_def, ↓State.axFollowMove_platform, ↓State.setAxis_platform, ↓State.axSettle_platform,
    ↓ite_platform, ite_self]

@[simp] theorem State.acceptFrom9_platform (s : State) (forwarded : Bool) (sess : Nat) (b : List Byte) :
    (State.acceptFrom9 s forwarded sess b).platform = s.platform := by
  rw [State.acceptFrom9.eq_def] <;> (try simp only [↓State.complete_platform, ↓State.forward_platform, ↓State.setSlot_platform,
      ↓State.enqueue_platform, ↓foldl_platform, ↓ite_platform, ↓dite_platform, ↓reduceIte, ite_self, implies_true,
      ↓State.platform_keep]) <;> repeat' ((first | split | (rw [foldl_platform]; intro s x)) <;> try simp only [↓State.complete_platform,
      ↓State.forward_platform, ↓State.setSlot_platform, ↓State.enqueue_platform, ↓foldl_platform, ↓ite_platform, ↓dite_platform, ↓reduceIte,
      ite_self, implies_true, ↓State.platform_keep])

@[simp] theorem State.takeSlot_platform (s : State) (sess : Nat) (h : Header) : (State.takeSlot s sess h).platform = s.platform := by
  simp only [State.takeSlot.eq_def, ↓State.setSession_platform]

@[simp] theorem State.acceptFrom5_platform (s : State) (src : PktSrc) (sess : Nat) (b : List Byte) :
    (State.acceptFrom5 s src sess b).platform = s.platform := by
  simp only [State.acceptFrom5.eq_def, ↓State.fetch_platform, ↓State.markDelivered_platform, ↓State.respond_platform,
    ↓State.refuse_platform, ↓State.acceptFrom9_platform, ↓State.takeSlot_platform, ↓ite_platform, ite_self]

@[simp] theorem State.acceptFrom3_platform (s : State) (src : PktSrc) (b : List Byte) :
    (State.acceptFrom3 s src b).platform = s.platform := by
  rw [State.acceptFrom3.eq_def]
  repeat' split
  all_goals simp only [↓State.refuse_platform, ↓State.acceptFrom5_platform, ↓State.acceptOpen_platform, ↓State.setSession_platform,
    ↓State.bump_platform, ↓ite_platform, ite_self]

@[simp] theorem State.acceptFrom1_platform (s : State) (src : PktSrc) (b : List Byte) :
    (State.acceptFrom1 s src b).platform = s.platform := by
  simp only [State.acceptFrom1.eq_def, ↓State.refuse_platform, ↓State.acceptFrom3_platform, ↓ite_platform, ite_self]

@[simp] theorem State.takeFromRing_platform (s : State) (r : Nat) (b : List Byte) :
    (State.takeFromRing s r b).platform = s.platform := by
  simp only [State.takeFromRing.eq_def, ↓State.emit_platform, ↓State.consume_platform, ↓State.refuse_platform,
    ↓State.acceptFrom1_platform, ↓ite_platform, ite_self]

@[simp] theorem State.openSession_platform (s : State) (n : Nat) (k : SessKind) :
    (State.openSession s n k).platform = s.platform := by
  simp only [State.openSession.eq_def, ↓State.showOpen_platform, ↓State.setSession_platform]

theorem State.forwardedSession_platform (s : State) (dev sess : Nat) (r : Nat × State)     (h : s.forwardedSession
    dev sess = some r) :
    r.2.platform = s.platform := by
  rw [State.forwardedSession] at h
  split at h
  · cases h; rfl
  · obtain ⟨n, -, h⟩ := Option.map_eq_some_iff.mp h
    cases h; exact State.openSession_platform ..

@[simp] theorem State.homeFound_platform (s : State) (a : Nat) : (State.homeFound s a).platform = s.platform := by
  rw [State.homeFound.eq_def]
  repeat' split
  all_goals simp only [↓State.axShift_platform, ↓State.axRamp_platform, ↓State.setAxis_platform, ↓State.setFld_platform]

@[simp] theorem State.switchTo_platform (s : State) (a : Nat) (sw : Nat) (level : Bool) (us : Nat) :
    (State.switchTo s a sw level us).platform = s.platform := by
  simp only [State.switchTo.eq_def, ↓State.showLimit_platform, ↓State.limitTrip_platform, ↓State.homeFound_platform, ↓ite_platform,
    ite_self, ↓State.platform_keep]

@[simp] theorem State.axIssue_platform (s : State) (a : Nat) (before : Int) : (State.axIssue s a before).platform = s.platform := by
  simp only [State.axIssue.eq_def, ↓State.emit_platform, ↓State.axFrame_platform, ↓ite_platform, ite_self]

theorem execLeader_platform (west : Bool) (bytes : List Byte) (s : State) :
    ∃ t, (execLeader west bytes s) = .next t ∧ t.platform = s.platform := by
  exact ⟨_, rfl, by simp only [↓State.chainTake_platform, ↓State.chainSpread_platform, ↓State.chainStatusSet_platform,
    ↓State.failFlights_platform, ↓State.log1_platform, ↓ite_platform, ite_self, implies_true]⟩

@[simp] theorem State.encDouble_platform (s : State) (e : Nat) : (State.encDouble s e).platform = s.platform := by
  simp only [State.encDouble.eq_def, ↓State.log1_platform, ↓State.bump_platform, ↓State.posEvent_platform, ↓State.setFld_platform]

@[simp] theorem State.encStep_platform (s : State) (e : Nat) (d0 : Int) : (State.encStep s e d0).platform = s.platform := by
  simp only [State.encStep.eq_def, ↓State.breachOnce_platform, ↓State.posEvent_platform, ↓State.setFld_platform,
    ↓State.setFlag_platform, ↓State.setEnc_platform, ↓State.webMoved_platform, ↓State.setSpeed_platform, ↓ite_platform, ite_self]

@[simp] theorem State.encSample_platform (s : State) (e : Nat) (a : Bool) (b : Bool) :
    (State.encSample s e a b).platform = s.platform := by
  rw [State.encSample.eq_def] <;> (try simp only [↓State.setEnc_platform, ↓State.encDouble_platform, ↓State.encStep_platform,
      ↓foldl_platform, ↓ite_platform, ↓dite_platform, ↓reduceIte, ite_self, implies_true,
      ↓State.platform_keep]) <;> repeat' ((first | split | (rw [foldl_platform]; intro s x)) <;> try simp only [↓State.setEnc_platform,
      ↓State.encDouble_platform, ↓State.encStep_platform, ↓foldl_platform, ↓ite_platform, ↓dite_platform, ↓reduceIte, ite_self,
      implies_true, ↓State.platform_keep])

theorem execQuadDoubleStep_platform (enc : Nat) (samples : Nat) (s : State) :
    ∃ t, (execQuadDoubleStep enc samples s) = .next t ∧ t.platform = s.platform := by
  exact ⟨_, rfl, by simp only [↓State.encSample_platform, ↓ite_platform, ite_self]⟩

theorem execAxisStatus_platform (rq : Rq) (axis : Nat) (s : State) :
    ∃ t, (execAxisStatus rq axis s) = .next t ∧ t.platform = s.platform := by
  exact ⟨_, rfl, by simp only [↓State.run_platform, ↓State.withParams_platform, ↓State.finish_platform, implies_true]⟩

theorem execMemInject_platform (value : Word) (s : State) : ∃ t, (execMemInject value s) = .next t ∧ t.platform = s.platform := by
  exact ⟨_, rfl, by simp only [↓State.setReg_platform, ↓ite_platform, ite_self]⟩

theorem execPageSubmit_platform (rq : Rq) (page : Nat) (ch : Nat) (len : Nat) (s : State) :
    ∃ t, (execPageSubmit rq page ch len s) = .next t ∧ t.platform = s.platform := by
  rw [execPageSubmit.eq_def]
  repeat' split
  all_goals refine ⟨_, rfl, ?_⟩
  all_goals (try simp only [↓State.run_platform, ↓State.withParams_platform, ↓State.pend_platform, ↓State.pageStart_platform,
      ↓foldl_platform, ↓ite_platform, ↓dite_platform, ↓reduceIte, ite_self, implies_true, ↓State.platform_keep])
  all_goals repeat' ((first | (rw [State.withParams_platform]; intro s) | (rw [State.run_platform]; intro s) | split | (rw [foldl_platform]; intro s x)) <;> try simp only [↓State.run_platform,
      ↓State.withParams_platform, ↓State.pend_platform, ↓State.pageStart_platform, ↓foldl_platform, ↓ite_platform, ↓dite_platform,
      ↓reduceIte, ite_self, implies_true, ↓State.platform_keep])

@[simp] theorem State.ethSend_platform (s : State) (p : Nat) (hop : Nat) (ip : Nat) (kind : Nat) :
    (State.ethSend s p hop ip kind).platform = s.platform := by
  simp only [State.ethSend.eq_def, ↓State.bump_platform, ↓State.emit_platform]

@[simp] theorem State.ethTaken_platform (s : State) (p : Nat) (f : EthFrame) : (State.ethTaken s p f).platform = s.platform := by
  rw [State.ethTaken.eq_def]
  repeat' split
  all_goals simp only [↓State.ethSend_platform, ↓State.acceptFrom1_platform, ↓ite_platform, ite_self]

@[simp] theorem State.monEnd_platform (s : State) (m : Nat) (tag : Option Nat) : (State.monEnd s m tag).platform = s.platform := by
  simp only [State.monEnd.eq_def, ↓State.setMon_platform, ↓State.monStart_platform, ↓State.bumpWrap_platform,
    ↓State.raiseIf_platform]

theorem execDoseSwap_platform (bar : Nat) (s : State) : ∃ t, (execDoseSwap bar s) = .next t ∧ t.platform = s.platform := by
  exact ⟨_, rfl, by simp only [↓State.swapDue_platform, ↓ite_platform, ite_self]⟩

theorem execPositionSend_platform (s : State) : ∃ t, (execPositionSend s) = .next t ∧ t.platform = s.platform := by
  exact ⟨_, rfl, by simp only [↓State.chainAll_platform, ↓ite_platform, ite_self, ↓State.platform_keep]⟩

theorem execFrameClose_platform (port : Nat) (s : State) : ∃ t, (execFrameClose port s) = .next t ∧ t.platform = s.platform := by
  exact ⟨_, rfl, by simp only [↓State.setCam_platform, ↓State.closeFrame_platform, ↓State.deviation_platform, ↓ite_platform,
    ite_self]⟩

@[simp] theorem State.cropsReady_platform (s : State) (m : Int) : (State.cropsReady s m).platform = s.platform := by
  simp only [State.cropsReady.eq_def, ↓State.platform_keep]

theorem execThresholdLoad_platform (rq : Rq) (chunk : Chunk) (s : State) :
    ∃ t, (execThresholdLoad rq chunk s) = .next t ∧ t.platform = s.platform := by
  rw [execThresholdLoad.eq_def]
  repeat' split
  all_goals refine ⟨_, rfl, ?_⟩
  all_goals (try simp only [↓State.run_platform, ↓State.loadTable_platform, ↓State.setPend_platform, ↓State.reject_platform,
      ↓State.finish_platform, ↓State.stageBank_platform, ↓foldl_platform, ↓ite_platform, ↓dite_platform, ↓reduceIte, ite_self,
      implies_true, ↓State.platform_keep])
  all_goals repeat' ((first | (rw [State.loadTable_platform] <;> [(intro s); (intro t rep s)]) | (rw [State.run_platform]; intro s) | split | (rw [foldl_platform]; intro s x)) <;> try simp only [↓State.run_platform,
      ↓State.loadTable_platform, ↓State.setPend_platform, ↓State.reject_platform, ↓State.finish_platform, ↓State.stageBank_platform,
      ↓foldl_platform, ↓ite_platform, ↓dite_platform, ↓reduceIte, ite_self, implies_true, ↓State.platform_keep])

@[simp] theorem State.keepImage_platform (s : State) (m : Int) (row : List (Nat × List Nat)) :
    (State.keepImage s m row).platform = s.platform := by
  simp only [State.keepImage.eq_def, ↓State.platform_keep]

theorem execEthFrameReceive_platform (port : Nat) (frame : EthFrame) (s : State) :
    ∃ t, (execEthFrameReceive port frame s) = .next t ∧ t.platform = s.platform := by
  exact ⟨_, rfl, by simp only [↓State.bump_platform, ↓State.islandOverrun_platform, ↓State.ethTaken_platform, ↓ite_platform,
    ite_self]⟩

theorem execJobOpen_platform (rq : Rq) (job : Nat) (mask : Nat) (s : State) :
    ∃ t, (execJobOpen rq job mask s) = .next t ∧ t.platform = s.platform := by
  exact ⟨_, rfl, by simp only [↓State.run_platform, ↓State.withParams_platform, ↓State.finish_platform, ↓State.setFld_platform,
    ↓ite_platform, ite_self, implies_true, ↓State.platform_keep]⟩

theorem execLaneLock_platform (lane : Nat) (bits : List Bool) (s : State) :
    ∃ t, (execLaneLock lane bits s) = .next t ∧ t.platform = s.platform := by
  rw [execLaneLock.eq_def]
  repeat' split
  all_goals refine ⟨_, rfl, ?_⟩
  all_goals (try simp only [↓State.linkSend_platform, ↓State.setFld_platform, ↓State.setLane_platform, ↓foldl_platform, ↓ite_platform,
      ↓dite_platform, ↓reduceIte, ite_self, implies_true, ↓State.platform_keep])
  all_goals repeat' ((first | split | (rw [foldl_platform]; intro s x)) <;> try simp only [↓State.linkSend_platform,
      ↓State.setFld_platform, ↓State.setLane_platform, ↓foldl_platform, ↓ite_platform, ↓dite_platform, ↓reduceIte, ite_self,
      implies_true, ↓State.platform_keep])

@[simp] theorem State.imageFindings_platform (s : State) (n : Nat) (lo : Nat) (hi : Nat) (f : CamFrame) :
    (State.imageFindings s n lo hi f).platform = s.platform := by
  rw [State.imageFindings.eq_def] <;> (try simp only [↓State.pushFinding_platform, ↓foldl_platform, ↓ite_platform, ↓dite_platform,
      ↓reduceIte, ite_self, implies_true,
      ↓State.platform_keep]) <;> repeat' ((first | split | (rw [foldl_platform]; intro s x)) <;> try simp only [↓State.pushFinding_platform,
      ↓foldl_platform, ↓ite_platform, ↓dite_platform, ↓reduceIte, ite_self, implies_true, ↓State.platform_keep])

@[simp] theorem State.renderedTo_platform (s : State) (m : Int) : (State.renderedTo s m).platform = s.platform := by
  simp only [State.renderedTo.eq_def, ↓State.setBar_platform, ↓foldl_platform, implies_true]

theorem execTimeRead_platform (rq : Rq) (dom : Nat) (s : State) :
    ∃ t, (execTimeRead rq dom s) = .next t ∧ t.platform = s.platform := by
  exact ⟨_, rfl, by simp only [↓State.run_platform, ↓State.withParams_platform, ↓State.finish_platform, implies_true]⟩

theorem execCameraTrigger_platform (port : Nat) (s : State) :
    ∃ t, (execCameraTrigger port s) = .next t ∧ t.platform = s.platform := by
  exact ⟨_, rfl, by simp only [↓State.emit_platform, ↓State.setCam_platform, ↓ite_platform, ite_self]⟩

@[simp] theorem State.frameDone_platform (s : State) (n : Nat) (num : Nat) : (State.frameDone s n num).platform = s.platform := by
  simp only [State.frameDone.eq_def, ↓State.pruneGrid_platform, ↓State.setCam_platform]

@[simp] theorem State.measureOverlap_platform (s : State) (f : CamFrame) (o : Nat) (a : Nat × Nat × Nat) (b : Nat ×
    Nat × Nat) :
    (State.measureOverlap s f o a b).platform = s.platform := by
  rw [State.measureOverlap.eq_def] <;> (try simp only [↓State.setOverlap_platform, ↓State.jigEvent_platform, ↓foldl_platform,
      ↓ite_platform, ↓dite_platform, ↓reduceIte, ite_self, implies_true,
      ↓State.platform_keep]) <;> repeat' ((first | split | (rw [foldl_platform]; intro s x)) <;> try simp only [↓State.setOverlap_platform,
      ↓State.jigEvent_platform, ↓foldl_platform, ↓ite_platform, ↓dite_platform, ↓reduceIte, ite_self, implies_true,
      ↓State.platform_keep])

@[simp] theorem State.measureOverlaps_platform (s : State) (n : Nat) (f : CamFrame) :
    (State.measureOverlaps s n f).platform = s.platform := by
  simp only [State.measureOverlaps.eq_def, ↓State.measureOverlap_platform, ↓foldl_platform, ↓ite_platform, ite_self,
    implies_true]

@[simp] theorem State.echoTemp_platform (s : State) (k : Nat) (temp : Nat) (refused : Bool) :
    (State.echoTemp s k temp refused).platform = s.platform := by
  simp only [State.echoTemp.eq_def, ↓State.setFld_platform, ↓State.setBoard_platform, ↓State.setBst_platform, ↓ite_platform,
    ite_self]

@[simp] theorem State.learn_platform (s : State) (west : Bool) (l : List ChainEntry) :
    (State.learn s west l).platform = s.platform := by
  simp only [State.learn.eq_def, ↓State.setLink_platform, ↓ite_platform, ite_self, ↓State.platform_keep]

@[simp] theorem State.ssiMissed_platform (s : State) (u : Nat) (n : Nat) (tag : Option Nat) :
    (State.ssiMissed s u n tag).platform = s.platform := by
  simp only [State.ssiMissed.eq_def, ↓State.raise_platform, ↓State.setFld_platform, ↓ite_platform, ite_self]

@[simp] theorem State.ssiWord_platform (s : State) (u : Nat) (w : SsiWord) (tag : Option Nat) :
    (State.ssiWord s u w tag).platform = s.platform := by
  simp only [State.ssiWord.eq_def, ↓State.emit_platform, ↓State.setFld_platform, ↓State.setSsi_platform, ↓State.bump_platform,
    ↓State.ssiMissed_platform, ↓ite_platform, ite_self]

theorem execBarrierEngage_platform (s : State) : ∃ t, (execBarrierEngage s) = .next t ∧ t.platform = s.platform := by
  rw [execBarrierEngage.eq_def]
  refine ⟨_, rfl, ?_⟩
  repeat' split
  all_goals simp only [↓State.setFld_platform, ↓State.platform_keep]

@[simp] theorem State.switchDom_platform (s : State) (b : Nat) : (State.switchDom s b).platform = s.platform := by
  simp only [State.switchDom.eq_def, ↓State.showUtc_platform, ↓State.setResid_platform, ↓State.setFld_platform,
    ↓State.timeEvent_platform, ↓State.bump_platform, ↓State.log1_platform]

theorem execSourceAbsent_platform (s : State) : ∃ t, (execSourceAbsent s) = .next t ∧ t.platform = s.platform := by
  exact ⟨_, rfl, by simp only [↓State.sourceGone_platform, ↓State.log1_platform, ↓State.switchDom_platform,
    ↓State.timeEvent_platform, ↓State.setFld_platform, ↓ite_platform, ite_self]⟩

theorem execReply_platform (west : Bool) (bytes : List Byte) (s : State) :
    ∃ t, (execReply west bytes s) = .next t ∧ t.platform = s.platform := by
  exact ⟨_, rfl, by simp only [↓State.chainTake_platform, ↓State.takeReply_platform, ↓State.chainRelay_platform, ↓ite_platform,
    ite_self, implies_true]⟩

@[simp] theorem State.frameLine_platform (s : State) (n : Nat) (l : PortLine) : (State.frameLine s n l).platform = s.platform := by
  rw [State.frameLine.eq_def] <;> (try simp only [↓State.openFrame_platform, ↓State.closeFrame_platform,
      ↓State.deviation_platform, ↓State.setCam_platform, ↓State.inspLine_platform, ↓foldl_platform, ↓ite_platform, ↓dite_platform,
      ↓reduceIte, ite_self, implies_true,
      ↓State.platform_keep]) <;> repeat' ((first | split | (rw [foldl_platform]; intro s x)) <;> try simp only [↓State.openFrame_platform,
      ↓State.closeFrame_platform, ↓State.deviation_platform, ↓State.setCam_platform, ↓State.inspLine_platform, ↓foldl_platform,
      ↓ite_platform, ↓dite_platform, ↓reduceIte, ite_self, implies_true, ↓State.platform_keep])

theorem execCameraPortLine_platform (port : Nat) (samples : List Nat) (s : State) :
    ∃ t, (execCameraPortLine port samples s) = .next t ∧ t.platform = s.platform := by
  exact ⟨_, rfl, by simp only [↓State.setCam_platform, ↓State.frameLine_platform, ↓State.setFld_platform, ↓ite_platform, ite_self]⟩

@[simp] theorem State.axesWake_platform (s : State) : (State.axesWake s).platform = s.platform := by
  simp only [State.axesWake.eq_def, ↓State.axOutput_platform, ↓foldl_platform, implies_true]

@[simp] theorem State.lanesWake_platform (s : State) : (State.lanesWake s).platform = s.platform := by
  simp only [State.lanesWake.eq_def, ↓State.laneTrain_platform, ↓State.laneAsk_platform, ↓foldl_platform, ↓ite_platform, ite_self,
    implies_true]

@[simp] theorem State.back_platform (s : State) : (State.back s).platform = s.platform := by
  simp only [State.back.eq_def, ↓State.enter_platform]

@[simp] theorem State.laneCame_platform (s : State) : (State.laneCame s).platform = s.platform := by
  simp only [State.laneCame.eq_def, ↓State.boardTrain_platform, ↓foldl_platform, implies_true]

theorem execMicrostepLoad_platform (rq : Rq) (chunk : Chunk) (s : State) :
    ∃ t, (execMicrostepLoad rq chunk s) = .next t ∧ t.platform = s.platform := by
  rw [execMicrostepLoad.eq_def]
  repeat' split
  all_goals refine ⟨_, rfl, ?_⟩
  all_goals (try simp only [↓State.run_platform, ↓State.loadChunk_platform, ↓State.reject_platform, ↓State.finish_platform,
      ↓State.setAxis_platform, ↓foldl_platform, ↓ite_platform, ↓dite_platform, ↓reduceIte, ite_self, implies_true,
      ↓State.platform_keep])
  all_goals repeat' ((first | (rw [State.loadChunk_platform]; intro t rep s) | (rw [State.run_platform]; intro s) | split | (rw [foldl_platform]; intro s x)) <;> try simp only [↓State.run_platform,
      ↓State.loadChunk_platform, ↓State.reject_platform, ↓State.finish_platform, ↓State.setAxis_platform, ↓foldl_platform, ↓ite_platform,
      ↓dite_platform, ↓reduceIte, ite_self, implies_true, ↓State.platform_keep])

@[simp] theorem State.yoyoRun_platform (s : State) : (State.yoyoRun s).platform = s.platform := by
  simp only [State.yoyoRun.eq_def, ↓State.setReq_platform, ↓State.setFld_platform, ↓ite_platform, ite_self, ↓State.platform_keep]

theorem execNozzleStateSet_platform (rq : Rq) (idx : Nat) (state : Nat) (hold : Nat) (s : State) :
    ∃ t, (execNozzleStateSet rq idx state hold s) = .next t ∧ t.platform = s.platform := by
  exact ⟨_, rfl, by simp only [↓State.run_platform, ↓State.withParams_platform, ↓State.pushFinding_platform, ↓State.pend_platform,
    implies_true]⟩

@[simp] theorem State.withMap_platform (s : State) (b : Nat) (m : List MapEntry) (crc : Nat) :
    (State.withMap s b m crc).platform = s.platform := by
  simp only [State.withMap.eq_def, ↓State.setBar_platform]

@[simp] theorem State.boardsRefresh_platform (s : State) : (State.boardsRefresh s).platform = s.platform := by
  simp only [State.boardsRefresh.eq_def, ↓State.boardRefresh_platform, ↓foldl_platform, implies_true]

theorem execDmaBusHaltClear_platform (s : State) : ∃ t, (execDmaBusHaltClear s) = .next t ∧ t.platform = s.platform := by
  exact ⟨_, rfl, by simp only [↓State.setFld_platform]⟩

theorem execMemDetWrite_platform (d : Nat) (s : State) : ∃ t, (execMemDetWrite d s) = .next t ∧ t.platform = s.platform := by
  exact ⟨_, rfl, by simp only [↓State.setFld_platform, ↓State.detWritten_platform, ↓ite_platform, ite_self]⟩

@[simp] theorem State.dropOpen_platform (s : State) (ip : Nat) (port : Nat) : (State.dropOpen s ip port).platform = s.platform := by
  simp only [State.dropOpen.eq_def, ↓State.platform_keep]

@[simp] theorem State.openPhase0_platform (s : State) (ip : Nat) (port : Nat) (rq : Rq) (p : List Byte) :
    (State.openPhase0 s ip port rq p).platform = s.platform := by
  simp only [State.openPhase0.eq_def, ↓State.openReply_platform, ↓State.dropOpen_platform, ↓ite_platform, ite_self,
    ↓State.platform_keep]

theorem execAxisProfileSet_platform (rq : Rq) (axis : Nat) (acc : Nat) (dec : Nat) (jerk : Nat) (s : State) :
    ∃ t, (execAxisProfileSet rq axis acc dec jerk s) = .next t ∧ t.platform = s.platform := by
  exact ⟨_, rfl, by simp only [↓State.run_platform, ↓State.withParams_platform, ↓State.finish_platform, ↓State.setFld_platform,
    ↓State.setAxis_platform, ↓ite_platform, ite_self, implies_true]⟩

theorem execIndexEdge_platform (enc : Nat) (samples : Nat) (s : State) :
    ∃ t, (execIndexEdge enc samples s) = .next t ∧ t.platform = s.platform := by
  exact ⟨_, rfl, by simp only [↓State.raise_platform, ↓State.setFld_platform, ↓State.setEnc_platform, ↓State.indexCheck_platform,
    ↓ite_platform, ite_self]⟩

theorem execReplyFetch_platform (rq : Rq) (tag : Nat) (s : State) :
    ∃ t, (execReplyFetch rq tag s) = .next t ∧ t.platform = s.platform := by
  exact ⟨_, rfl, by simp only [↓State.fetch_platform]⟩

@[simp] theorem State.openPhase1_platform (s : State) (ip : Nat) (port : Nat) (rq : Rq) (p : List Byte) :
    (State.openPhase1 s ip port rq p).platform = s.platform := by
  rw [State.openPhase1.eq_def] <;> (try simp only [↓State.openBad_platform, ↓State.dropOpen_platform, ↓State.openReply_platform,
      ↓State.authFail_platform, ↓State.openSession_platform, ↓foldl_platform, ↓ite_platform, ↓dite_platform, ↓reduceIte, ite_self,
      implies_true,
      ↓State.platform_keep]) <;> repeat' ((first | split | (rw [foldl_platform]; intro s x)) <;> try simp only [↓State.openBad_platform,
      ↓State.dropOpen_platform, ↓State.openReply_platform, ↓State.authFail_platform, ↓State.openSession_platform, ↓foldl_platform,
      ↓ite_platform, ↓dite_platform, ↓reduceIte, ite_self, implies_true, ↓State.platform_keep])

theorem execMonRestart_platform (s : State) : ∃ t, (execMonRestart s) = .next t ∧ t.platform = s.platform := by
  exact ⟨_, rfl, by simp only [↓State.endTask_platform, ↓State.monRestart_platform, ↓foldl_platform, implies_true]⟩

theorem execClassSet_platform (rq : Rq) (chunk : Chunk) (s : State) :
    ∃ t, (execClassSet rq chunk s) = .next t ∧ t.platform = s.platform := by
  exact ⟨_, rfl, by simp only [↓State.run_platform, ↓State.loadTab_platform, implies_true]⟩

theorem execBoardProfileLoad_platform (rq : Rq) (chunk : Chunk) (s : State) :
    ∃ t, (execBoardProfileLoad rq chunk s) = .next t ∧ t.platform = s.platform := by
  rw [execBoardProfileLoad.eq_def]
  repeat' split
  all_goals refine ⟨_, rfl, ?_⟩
  all_goals (try simp only [↓State.run_platform, ↓State.loadChunk_platform, ↓State.reject_platform, ↓State.finish_platform,
      ↓State.profileInForce_platform, ↓foldl_platform, ↓ite_platform, ↓dite_platform, ↓reduceIte, ite_self, implies_true,
      ↓State.platform_keep])
  all_goals repeat' ((first | (rw [State.loadChunk_platform]; intro t rep s) | (rw [State.run_platform]; intro s) | split | (rw [foldl_platform]; intro s x)) <;> try simp only [↓State.run_platform,
      ↓State.loadChunk_platform, ↓State.reject_platform, ↓State.finish_platform, ↓State.profileInForce_platform, ↓foldl_platform,
      ↓ite_platform, ↓dite_platform, ↓reduceIte, ite_self, implies_true, ↓State.platform_keep])

theorem execTimeAdjust_platform (rq : Rq) (dom : Nat) (inc : Nat) (adj : Int) (s : State) :
    ∃ t, (execTimeAdjust rq dom inc adj s) = .next t ∧ t.platform = s.platform := by
  exact ⟨_, rfl, by simp only [↓State.run_platform, ↓State.withParams_platform, ↓State.finish_platform, ↓State.setInc_platform,
    ↓State.stepDom_platform, ↓State.sourceHeard_platform, ↓ite_platform, ite_self, implies_true]⟩

theorem execFrameOpen_platform (port : Nat) (s : State) : ∃ t, (execFrameOpen port s) = .next t ∧ t.platform = s.platform := by
  exact ⟨_, rfl, by simp only [↓State.openFrame_platform, ↓State.setCam_platform, ↓ite_platform, ite_self]⟩

@[simp] theorem State.setStuck_platform (s : State) (arb : Nat) : (State.setStuck s arb).platform = s.platform := by
  simp only [State.setStuck.eq_def, ↓State.setFld_platform, ↓ite_platform, ite_self]

theorem execEventFire_platform (rq : Rq) (sw : Nat) (s : State) :
    ∃ t, (execEventFire rq sw s) = .next t ∧ t.platform = s.platform := by
  exact ⟨_, rfl, by simp only [↓State.run_platform, ↓State.withParams_platform, ↓State.finish_platform, ↓State.raise_platform,
    implies_true]⟩

@[simp] theorem State.blanked_platform (s : State) (b : Nat) (k : Nat) (cause : Nat) (line : Nat) (slice : Nat)
    (engA : Nat) (engB : Nat) :
    (State.blanked s b k cause line slice engA engB).platform = s.platform := by
  simp only [State.blanked.eq_def, ↓State.setFld_platform, ↓State.raiseIf_platform]

theorem execCameraSet_platform (rq : Rq) (port : Nat) (ident : Nat) (expo : Nat) (gain : Nat) (s : State) :
    ∃ t, (execCameraSet rq port ident expo gain s) = .next t ∧ t.platform = s.platform := by
  exact ⟨_, rfl, by simp only [↓State.run_platform, ↓State.withParams_platform, ↓State.finish_platform, ↓State.occupy_platform,
    ↓State.pend_platform, ↓State.setFlag_platform, ↓State.setCam_platform, ↓ite_platform, ite_self, implies_true]⟩

theorem execPerstRelease_platform (speed : Nat) (width : Nat) (s : State) :
    ∃ t, (execPerstRelease speed width s) = .next t ∧ t.platform = s.platform := by
  exact ⟨_, rfl, by simp only [↓State.setFld_platform]⟩

theorem execPcieCompletionError_platform (kind : Nat) (addr : Nat) (batch : List Nat) (s : State) :
    ∃ t, (execPcieCompletionError kind addr batch s) = .next t ∧ t.platform = s.platform := by
  exact ⟨_, rfl, by simp only [↓State.busError_platform]⟩

theorem execTjOver_platform (tj : Int) (s : State) : ∃ t, (execTjOver tj s) = .next t ∧ t.platform = s.platform := by
  exact ⟨_, rfl, by simp only [↓State.setFldI_platform, ↓State.setFld_platform, ↓State.breach_platform, ↓State.raiseIf_platform,
    ↓ite_platform, ite_self]⟩

theorem execKpsTrailer_platform (ch : Nat) (bytes : List Byte) (s : State) :
    ∃ t, (execKpsTrailer ch bytes s) = .next t ∧ t.platform = s.platform := by
  exact ⟨_, rfl, by simp only [↓State.failPage_platform, ↓State.judgePage_platform, ↓State.setPage_platform, ↓ite_platform,
    ite_self]⟩

theorem execDoseSwapRequest_platform (bar : Nat) (s : State) :
    ∃ t, (execDoseSwapRequest bar s) = .next t ∧ t.platform = s.platform := by
  exact ⟨_, rfl, by simp only [↓State.swapRequest_platform, ↓ite_platform, ite_self]⟩

@[simp] theorem State.issueReads_platform (s : State) (ch : Nat) : (State.issueReads s ch).platform = s.platform := by
  rw [State.issueReads.eq_def] <;> (try simp only [↓State.setDmaCh_platform, ↓State.emit_platform, ↓foldl_platform, ↓ite_platform,
      ↓dite_platform, ↓reduceIte, ite_self, implies_true,
      ↓State.platform_keep]) <;> repeat' ((first | split | (rw [foldl_platform]; intro s x)) <;> try simp only [↓State.setDmaCh_platform,
      ↓State.emit_platform, ↓foldl_platform, ↓ite_platform, ↓dite_platform, ↓reduceIte, ite_self, implies_true, ↓State.platform_keep])

theorem execEqAdapt_platform (lane : Nat) (foms : List Nat) (s : State) :
    ∃ t, (execEqAdapt lane foms s) = .next t ∧ t.platform = s.platform := by
  exact ⟨_, rfl, by simp only [↓State.setLaneGrp_platform, ↓State.setLane_platform, ↓State.setFld_platform, ↓State.showFom_platform,
    ↓ite_platform, ite_self]⟩

theorem execFwFallbackEnd_platform (s : State) : ∃ t, (execFwFallbackEnd s) = .next t ∧ t.platform = s.platform := by
  exact ⟨_, rfl, by simp only [↓State.setFld_platform, ↓ite_platform, ite_self]⟩

theorem execPrintPause_platform (s : State) : ∃ t, (execPrintPause s) = .next t ∧ t.platform = s.platform := by
  exact ⟨_, rfl, by simp only [↓State.endTask_platform, ↓State.pause_platform, ↓State.refuseTask_platform, ↓ite_platform, ite_self]⟩

theorem execPinEdge_platform (pin : Nat) (level : Bool) (ns : Nat) (s : State) :
    ∃ t, (execPinEdge pin level ns s) = .next t ∧ t.platform = s.platform := by
  exact ⟨_, rfl, by simp only [↓State.setFld_platform, ↓State.bump_platform, ↓State.breachOnce_platform, ↓State.raise_platform,
    ↓ite_platform, ite_self, ↓State.platform_keep]⟩

theorem execHelloRepeat_platform (board : Nat) (s : State) : ∃ t, (execHelloRepeat board s) = .next t ∧ t.platform = s.platform := by
  exact ⟨_, rfl, by simp only [↓State.sendHello_platform, ↓State.setFld_platform, ↓ite_platform, ite_self]⟩

theorem execKeySet_platform (rq : Rq) (slot : Nat) (key : List Byte) (s : State) :
    ∃ t, (execKeySet rq slot key s) = .next t ∧ t.platform = s.platform := by
  exact ⟨_, rfl, by simp only [↓State.run_platform, ↓State.finish_platform, ↓State.withParams_platform, ↓ite_platform, ite_self,
    implies_true, ↓State.platform_keep]⟩

theorem execTjOverEnd_platform (tj : Int) (s : State) : ∃ t, (execTjOverEnd tj s) = .next t ∧ t.platform = s.platform := by
  exact ⟨_, rfl, by simp only [↓State.mendC5_platform, ↓State.setFld_platform, ↓State.setFldI_platform, ↓ite_platform, ite_self]⟩

@[simp] theorem State.setTemp_platform (s : State) (q : Nat) (t : Int) : (State.setTemp s q t).platform = s.platform := by
  simp only [State.setTemp.eq_def, ↓State.setFldI_platform, ↓State.setFld_platform]

theorem execStackEmergencyEnd_platform (stack : Nat) (temp : Int) (s : State) :
    ∃ t, (execStackEmergencyEnd stack temp s) = .next t ∧ t.platform = s.platform := by
  exact ⟨_, rfl, by simp only [↓State.setTemp_platform, ↓State.setFld_platform, ↓State.mend_platform, ↓ite_platform, ite_self]⟩

theorem execYoyoInterval_platform (s : State) : ∃ t, (execYoyoInterval s) = .next t ∧ t.platform = s.platform := by
  exact ⟨_, rfl, by simp only [↓State.setBar_platform, ↓State.yoyoRun_platform, ↓foldl_platform, ↓ite_platform, ite_self,
    implies_true]⟩

theorem execReplyRingStallTimeout_platform (ring : Nat) (s : State) :
    ∃ t, (execReplyRingStallTimeout ring s) = .next t ∧ t.platform = s.platform := by
  exact ⟨_, rfl, by simp only [↓State.setFld_platform, ↓State.breach_platform, ↓State.setRing_platform, ↓ite_platform, ite_self]⟩

theorem execSessionOpen_platform (ip : Nat) (port : Nat) (rq : Rq) (payload : List Byte) (s : State) :
    ∃ t, (execSessionOpen ip port rq payload s) = .next t ∧ t.platform = s.platform := by
  rw [execSessionOpen.eq_def]
  refine ⟨_, rfl, ?_⟩
  repeat' split
  all_goals simp only [↓State.openReply_platform, ↓State.openBad_platform, ↓State.openPhase0_platform, ↓State.openPhase1_platform,
    ↓ite_platform, ite_self, ↓State.platform_keep]

theorem execKeyLockoutEnd_platform (slot : Nat) (s : State) :
    ∃ t, (execKeyLockoutEnd slot s) = .next t ∧ t.platform = s.platform := by
  rw [execKeyLockoutEnd.eq_def]
  exact ⟨_, rfl, rfl⟩

theorem execTime_platform (west : Bool) (bytes : List Byte) (s : State) :
    ∃ t, (execTime west bytes s) = .next t ∧ t.platform = s.platform := by
  exact ⟨_, rfl, by simp only [↓State.chainTake_platform, ↓State.ringTime_platform, ↓State.chainRelay_platform,
    ↓State.setLink_platform, ↓State.chainSendOn_platform, ↓ite_platform, ite_self, implies_true, ↓State.platform_keep]⟩

theorem execEthLinkChange_platform (port : Nat) (link : Bool) (anDone : Bool) (fecLock : Bool) (s : State) :
    ∃ t, (execEthLinkChange port link anDone fecLock s) = .next t ∧ t.platform = s.platform := by
  exact ⟨_, rfl, by simp only [↓State.setFlag_platform, ↓ite_platform, ite_self]⟩

theorem execSpareStatus_platform (rq : Rq) (s : State) : ∃ t, (execSpareStatus rq s) = .next t ∧ t.platform = s.platform := by
  exact ⟨_, rfl, by simp only [↓State.run_platform, ↓State.withParams_platform, ↓State.finish_platform, implies_true]⟩

theorem execColourModelLoad_platform (rq : Rq) (chunk : Chunk) (s : State) :
    ∃ t, (execColourModelLoad rq chunk s) = .next t ∧ t.platform = s.platform := by
  exact ⟨_, rfl, by simp only [↓State.run_platform, ↓State.loadTab_platform, implies_true]⟩

theorem execGateTest_platform (rq : Rq) (gate : Nat) (board : Nat) (first : Nat) (count : Nat) (s : State) :
    ∃ t, (execGateTest rq gate board first count s) = .next t ∧ t.platform = s.platform := by
  exact ⟨_, rfl, by simp only [↓State.run_platform, ↓State.withParams_platform, ↓State.finish_platform, ↓State.occupy_platform,
    ↓State.pend_platform, ↓State.setFld_platform, ↓State.gateEnd_platform, ↓ite_platform, ite_self, implies_true, ↓State.platform_keep]⟩

theorem execFaultLogRead_platform (rq : Rq) (first : Nat) (s : State) :
    ∃ t, (execFaultLogRead rq first s) = .next t ∧ t.platform = s.platform := by
  exact ⟨_, rfl, by simp only [↓State.run_platform, ↓State.withParams_platform, ↓State.finish_platform, implies_true]⟩

theorem execArbiterStuck_platform (arb : Nat) (input : Nat) (cmd : Option Rq) (s : State) :
    ∃ t, (execArbiterStuck arb input cmd s) = .next t ∧ t.platform = s.platform := by
  rw [execArbiterStuck.eq_def]
  repeat' split
  all_goals refine ⟨_, rfl, ?_⟩
  all_goals (try simp only [↓State.log1_platform, ↓State.setStuck_platform, ↓State.vacate_platform, ↓State.finishSlot_platform,
      ↓foldl_platform, ↓ite_platform, ↓dite_platform, ↓reduceIte, ite_self, implies_true, ↓State.platform_keep])
  all_goals repeat' ((first | split | (rw [foldl_platform]; intro s x)) <;> try simp only [↓State.log1_platform,
      ↓State.setStuck_platform, ↓State.vacate_platform, ↓State.finishSlot_platform, ↓foldl_platform, ↓ite_platform, ↓dite_platform,
      ↓reduceIte, ite_self, implies_true, ↓State.platform_keep])

theorem execMonitorWindowEnd_platform (unit : Nat) (s : State) :
    ∃ t, (execMonitorWindowEnd unit s) = .next t ∧ t.platform = s.platform := by
  exact ⟨_, rfl, by simp only [↓State.monEnd_platform, ↓ite_platform, ite_self]⟩

theorem execTakeoverSwitch_platform (group : Nat) (comparePass : Bool) (s : State) :
    ∃ t, (execTakeoverSwitch group comparePass s) = .next t ∧ t.platform = s.platform := by
  rw [execTakeoverSwitch.eq_def]
  repeat' split
  all_goals refine ⟨_, rfl, ?_⟩
  all_goals (try simp only [↓State.takeoverFail_platform, ↓State.setFld_platform, ↓State.setLane_platform,
      ↓State.setLaneGrp_platform, ↓State.bump_platform, ↓State.raiseIf_platform, ↓foldl_platform, ↓ite_platform, ↓dite_platform, ↓reduceIte,
      ite_self, implies_true, ↓State.platform_keep])
  all_goals repeat' ((first | split | (rw [foldl_platform]; intro s x)) <;> try simp only [↓State.takeoverFail_platform,
      ↓State.setFld_platform, ↓State.setLane_platform, ↓State.setLaneGrp_platform, ↓State.bump_platform, ↓State.raiseIf_platform,
      ↓foldl_platform, ↓ite_platform, ↓dite_platform, ↓reduceIte, ite_self, implies_true, ↓State.platform_keep])

@[simp] theorem State.laneSwitch_platform (s : State) (l : Nat) (code : Nat) : (State.laneSwitch s l code).platform = s.platform := by
  simp only [State.laneSwitch.eq_def, ↓State.idleSend_platform, ↓State.setFld_platform, ↓State.setLane_platform,
    ↓State.laneLeft_platform, ↓State.laneCame_platform, ↓ite_platform, ite_self]

theorem execLinkRateAck_platform (lane : Nat) (blk : List Byte) (s : State) :
    ∃ t, (execLinkRateAck lane blk s) = .next t ∧ t.platform = s.platform := by
  exact ⟨_, rfl, by simp only [↓State.onLink_platform, ↓State.laneSwitch_platform, ↓ite_platform, ite_self, implies_true]⟩

theorem execCredit_platform (board : Nat) (bytes : List Byte) (s : State) :
    ∃ t, (execCredit board bytes s) = .next t ∧ t.platform = s.platform := by
  rw [execCredit.eq_def]
  refine ⟨_, rfl, ?_⟩
  repeat' split
  all_goals simp only [↓State.setCredits_platform]

theorem execSensorXfer_platform (rq : Rq) (port : Nat) (bytesOut : List Byte) (s : State) :
    ∃ t, (execSensorXfer rq port bytesOut s) = .next t ∧ t.platform = s.platform := by
  exact ⟨_, rfl, by simp only [↓State.run_platform, ↓State.withParams_platform, ↓State.finish_platform, ↓State.occupy_platform,
    ↓State.pend_platform, ↓State.emit_platform, ↓State.setCam_platform, ↓ite_platform, ite_self, implies_true]⟩

theorem execGetState_platform (rq : Rq) (s : State) : ∃ t, (execGetState rq s) = .next t ∧ t.platform = s.platform := by
  exact ⟨_, rfl, by simp only [↓State.run_platform, ↓State.finish_platform, implies_true]⟩

theorem execDelayResp_platform (west : Bool) (bytes : List Byte) (s : State) :
    ∃ t, (execDelayResp west bytes s) = .next t ∧ t.platform = s.platform := by
  rw [execDelayResp.eq_def]
  repeat' split
  all_goals refine ⟨_, rfl, ?_⟩
  all_goals (try simp only [↓State.chainTake_platform, ↓State.setLink_platform, ↓foldl_platform, ↓ite_platform, ↓dite_platform,
      ↓reduceIte, ite_self, implies_true, ↓State.platform_keep])
  all_goals repeat' ((first | (rw [State.chainTake_platform]; intro p s) | split | (rw [foldl_platform]; intro s x)) <;> try simp only [↓State.chainTake_platform,
      ↓State.setLink_platform, ↓foldl_platform, ↓ite_platform, ↓dite_platform, ↓reduceIte, ite_self, implies_true,
      ↓State.platform_keep])

theorem execLinkReady_platform (lane : Nat) (blk : List Byte) (s : State) :
    ∃ t, (execLinkReady lane blk s) = .next t ∧ t.platform = s.platform := by
  exact ⟨_, rfl, by simp only [↓State.onLink_platform, ↓State.setLane_platform, ↓State.setFld_platform, ↓State.laneCame_platform,
    ↓State.laneAsk_platform, ↓ite_platform, ite_self, implies_true]⟩

theorem execSsiRead_platform (unit : Nat) (word : SsiWord) (s : State) :
    ∃ t, (execSsiRead unit word s) = .next t ∧ t.platform = s.platform := by
  exact ⟨_, rfl, by simp only [↓State.endTask_platform, ↓State.ssiWord_platform, ↓ite_platform, ite_self]⟩

theorem execFireTos_platform (bar : Nat) (s : State) : ∃ t, (execFireTos bar s) = .next t ∧ t.platform = s.platform := by
  exact ⟨_, rfl, by simp only [↓State.refuseTask_platform, ↓State.endTask_platform, ↓State.fireEvent_platform,
    ↓State.setFld_platform, ↓State.setBar_platform, ↓ite_platform, ite_self]⟩

theorem execTakeoverStart_platform (group : Nat) (s : State) :
    ∃ t, (execTakeoverStart group s) = .next t ∧ t.platform = s.platform := by
  rw [execTakeoverStart.eq_def]
  refine ⟨_, rfl, ?_⟩
  repeat' split
  all_goals simp only [↓State.log1_platform, ↓State.setLaneGrp_platform, ↓State.setFld_platform]

theorem execSensorTransferEnd_platform (port : Nat) (bytesIn : List Byte) (s : State) :
    ∃ t, (execSensorTransferEnd port bytesIn s) = .next t ∧ t.platform = s.platform := by
  rw [execSensorTransferEnd.eq_def]
  repeat' split
  all_goals refine ⟨_, rfl, ?_⟩
  all_goals (try simp only [↓State.vacate_platform, ↓State.finishSlot_platform, ↓State.setCam_platform, ↓State.setFld_platform,
      ↓foldl_platform, ↓ite_platform, ↓dite_platform, ↓reduceIte, ite_self, implies_true, ↓State.platform_keep])
  all_goals repeat' ((first | split | (rw [foldl_platform]; intro s x)) <;> try simp only [↓State.vacate_platform,
      ↓State.finishSlot_platform, ↓State.setCam_platform, ↓State.setFld_platform, ↓foldl_platform, ↓ite_platform, ↓dite_platform,
      ↓reduceIte, ite_self, implies_true, ↓State.platform_keep])

theorem execMonitorSample_platform (unit : Nat) (value : Int) (s : State) :
    ∃ t, (execMonitorSample unit value s) = .next t ∧ t.platform = s.platform := by
  exact ⟨_, rfl, by simp only [↓State.setMon_platform, ↓State.setFld_platform, ↓State.monEnd_platform, ↓ite_platform, ite_self]⟩

theorem execQuadStep_platform (enc : Nat) (a : Bool) (b : Bool) (samples : Nat) (s : State) :
    ∃ t, (execQuadStep enc a b samples s) = .next t ∧ t.platform = s.platform := by
  exact ⟨_, rfl, by simp only [↓State.encSample_platform, ↓ite_platform, ite_self]⟩

theorem execConfig_platform (west : Bool) (bytes : List Byte) (s : State) :
    ∃ t, (execConfig west bytes s) = .next t ∧ t.platform = s.platform := by
  exact ⟨_, rfl, by simp only [↓State.chainTake_platform, ↓State.chainSpread_platform, ↓State.raiseRate_platform, ↓ite_platform,
    ite_self, implies_true, ↓State.platform_keep]⟩

theorem execServiceExit_platform (rq : Rq) (s : State) : ∃ t, (execServiceExit rq s) = .next t ∧ t.platform = s.platform := by
  exact ⟨_, rfl, by simp only [↓State.run_platform, ↓State.withParams_platform, ↓State.finish_platform, ↓State.back_platform,
    implies_true]⟩

theorem execMonSnapshotEvent_platform (s : State) : ∃ t, (execMonSnapshotEvent s) = .next t ∧ t.platform = s.platform := by
  exact ⟨_, rfl, by simp only [↓State.endTask_platform, ↓State.monSnap_platform, ↓foldl_platform, implies_true]⟩

theorem execFaultLogCopy_platform (s : State) : ∃ t, (execFaultLogCopy s) = .next t ∧ t.platform = s.platform := by
  exact ⟨_, rfl, by simp only [↓State.copyLog_platform]⟩

theorem execSwitchAccept_platform (sw : Nat) (level : Bool) (us : Nat) (s : State) :
    ∃ t, (execSwitchAccept sw level us s) = .next t ∧ t.platform = s.platform := by
  exact ⟨_, rfl, by simp only [↓State.switchTo_platform, ↓foldl_platform, ↓ite_platform, ite_self, implies_true,
    ↓State.platform_keep]⟩

theorem execSegmentComplete_platform (unit : Nat) (s : State) :
    ∃ t, (execSegmentComplete unit s) = .next t ∧ t.platform = s.platform := by
  rw [execSegmentComplete.eq_def]
  refine ⟨_, rfl, ?_⟩
  repeat' split
  all_goals simp only [↓State.setFld_platform, ↓State.judgePage_platform, ↓State.setPage_platform, ↓ite_platform, ite_self]

theorem execRateReqTimeout_platform (lane : Nat) (s : State) :
    ∃ t, (execRateReqTimeout lane s) = .next t ∧ t.platform = s.platform := by
  rw [execRateReqTimeout.eq_def]
  refine ⟨_, rfl, ?_⟩
  repeat' split
  all_goals simp only [↓State.setLane_platform, ↓State.setFld_platform]

theorem execStrobeWatchdog_platform (board : Nat) (s : State) :
    ∃ t, (execStrobeWatchdog board s) = .next t ∧ t.platform = s.platform := by
  exact ⟨_, rfl, by simp only [↓State.emit_platform, ↓State.setBoard_platform, ↓State.latchBoard_platform,
    ↓State.fireEvent_platform, ↓State.setFld_platform, ↓ite_platform, ite_self]⟩

theorem execStrobeFall_platform (board : Nat) (s : State) : ∃ t, (execStrobeFall board s) = .next t ∧ t.platform = s.platform := by
  exact ⟨_, rfl, by simp only [↓State.emit_platform, ↓State.setBoard_platform, ↓ite_platform, ite_self]⟩

theorem execStackEmergency_platform (stack : Nat) (temp : Int) (s : State) :
    ∃ t, (execStackEmergency stack temp s) = .next t ∧ t.platform = s.platform := by
  exact ⟨_, rfl, by simp only [↓State.setTemp_platform, ↓State.breach_platform, ↓State.setFld_platform, ↓ite_platform, ite_self]⟩

theorem execLinkRateReq_platform (lane : Nat) (blk : List Byte) (s : State) :
    ∃ t, (execLinkRateReq lane blk s) = .next t ∧ t.platform = s.platform := by
  exact ⟨_, rfl, by simp only [↓State.onLink_platform, ↓State.setFld_platform, ↓State.laneSwitch_platform, ↓State.linkSend_platform,
    ↓ite_platform, ite_self, implies_true]⟩

theorem execAnnounceReceiptTimeout_platform (port : Nat) (s : State) :
    ∃ t, (execAnnounceReceiptTimeout port s) = .next t ∧ t.platform = s.platform := by
  exact ⟨_, rfl, by simp only [↓State.portShown_platform, ↓State.setClock_platform, ↓foldl_platform, ↓ite_platform, ite_self,
    implies_true]⟩

theorem execAxisHoldCurrent_platform (axis : Nat) (s : State) :
    ∃ t, (execAxisHoldCurrent axis s) = .next t ∧ t.platform = s.platform := by
  exact ⟨_, rfl, by simp only [↓State.setAxis_platform, ↓ite_platform, ite_self]⟩

theorem execDmaDescriptorFetch_platform (ch : Nat) (bytes : List Byte) (s : State) :
    ∃ t, (execDmaDescriptorFetch ch bytes s) = .next t ∧ t.platform = s.platform := by
  exact ⟨_, rfl, by simp only [↓State.endChain_platform, ↓State.issueReads_platform, ↓State.setDmaCh_platform, ↓ite_platform,
    ite_self]⟩

theorem execRingTimeSend_platform (s : State) : ∃ t, (execRingTimeSend s) = .next t ∧ t.platform = s.platform := by
  exact ⟨_, rfl, by simp only [↓State.chainAll_platform, ↓ite_platform, ite_self, ↓State.platform_keep]⟩

theorem execDomainSelect_platform (rq : Rq) (dom : Nat) (s : State) :
    ∃ t, (execDomainSelect rq dom s) = .next t ∧ t.platform = s.platform := by
  exact ⟨_, rfl, by simp only [↓State.run_platform, ↓State.withParams_platform, ↓State.finish_platform, ↓State.reject_platform,
    ↓State.switchDom_platform, ↓ite_platform, ite_self, implies_true]⟩

theorem execPinPulse_platform (pin : Nat) (s : State) : ∃ t, (execPinPulse pin s) = .next t ∧ t.platform = s.platform := by
  exact ⟨_, rfl, by simp only [↓State.setCons_platform, ↓State.emit_platform, ↓State.endTask_platform, ↓ite_platform, ite_self]⟩

theorem execAxisUpdate_platform (axis : Nat) (s : State) : ∃ t, (execAxisUpdate axis s) = .next t ∧ t.platform = s.platform := by
  rw [execAxisUpdate.eq_def]
  repeat' split
  all_goals refine ⟨_, rfl, ?_⟩
  all_goals (try simp only [↓State.axTable_platform, ↓State.axFollowUpdate_platform, ↓State.axAdvance_platform,
      ↓State.axIssue_platform, ↓foldl_platform, ↓ite_platform, ↓dite_platform, ↓reduceIte, ite_self, implies_true,
      ↓State.platform_keep])
  all_goals repeat' ((first | split | (rw [foldl_platform]; intro s x)) <;> try simp only [↓State.axTable_platform,
      ↓State.axFollowUpdate_platform, ↓State.axAdvance_platform, ↓State.axIssue_platform, ↓foldl_platform, ↓ite_platform, ↓dite_platform,
      ↓reduceIte, ite_self, implies_true, ↓State.platform_keep])

theorem execAxisMove_platform (rq : Rq) (axis : Nat) (mode : Nat) (target : Int) (speed : Nat) (s : State) :
    ∃ t, (execAxisMove rq axis mode target speed s) = .next t ∧ t.platform = s.platform := by
  exact ⟨_, rfl, by simp only [↓State.run_platform, ↓State.finish_platform, ↓State.withParams_platform, ↓State.softLimited_platform,
    ↓State.axStart_platform, ↓State.pend_platform, ↓State.setAxis_platform, ↓ite_platform, ite_self, implies_true]⟩

theorem execPosition_platform (west : Bool) (bytes : List Byte) (s : State) :
    ∃ t, (execPosition west bytes s) = .next t ∧ t.platform = s.platform := by
  exact ⟨_, rfl, by simp only [↓State.chainTake_platform, ↓State.chainRelay_platform, ↓State.takePosition_platform, ↓ite_platform,
    ite_self, implies_true, ↓State.platform_keep]⟩

theorem execDbCmd_platform (ring : Nat) (idx : Nat) (s : State) :
    ∃ t, (execDbCmd ring idx s) = .next t ∧ t.platform = s.platform := by
  exact ⟨_, rfl, by simp only [↓State.cmdErr_platform, ↓State.setRing_platform, ↓ite_platform, ite_self]⟩

theorem execFitReturn_platform (s : State) : ∃ t, (execFitReturn s) = .next t ∧ t.platform = s.platform := by
  exact ⟨_, rfl, by simp only [↓State.setFld_platform, ↓ite_platform, ite_self]⟩

theorem execDmaAbort_platform (ch : Nat) (s : State) : ∃ t, (execDmaAbort ch s) = .next t ∧ t.platform = s.platform := by
  exact ⟨_, rfl, by simp only [↓State.stopChain_platform, ↓ite_platform, ite_self]⟩

end Sys2Proof.Machine
end

