-- ==== Sys2Proof/Laws/PrintFrames.lean ====
section
/-!
SUPPORT. The operations and meanings that leave the print units (`State.printUnits`) alone: one lemma for each.
-/
set_option linter.all false

namespace Sys2Proof.Machine

theorem State.printUnits_mk (pending regs mem dram now stateSince fresh outbox cmd log locks arbs evt time msix motion ppos mons lanes chain rings hostSize chk ingest job bars fire nvc eye insp noz spare latches pwr) :
    State.printUnits ⟨pending, regs, mem, dram, now, stateSince, fresh, outbox, cmd, log, locks, arbs, evt, time, msix, motion, ppos, mons, lanes, chain, rings, hostSize, chk, ingest, job, bars, fire, nvc, eye, insp, noz, spare, latches, pwr⟩ = (job, bars, fire, ppos, noz, ingest) := (rfl)

theorem State.printUnits_keep (s : State) (pending regs mem dram now stateSince fresh outbox cmd log locks arbs evt time msix motion mons lanes chain rings hostSize chk nvc eye insp spare latches pwr) :
    State.printUnits ⟨pending, regs, mem, dram, now, stateSince, fresh, outbox, cmd, log, locks, arbs, evt, time, msix, motion, s.ppos, mons, lanes, chain, rings, hostSize, chk, s.ingest, s.job, s.bars, s.fire, nvc, eye, insp, s.noz, spare, latches, pwr⟩ = s.printUnits := (rfl)

theorem foldl_printUnits {α : Type} (f : State → α → State) (h : ∀ s x, (f s x).printUnits = s.printUnits) (l : List α)
    (s : State) : (l.foldl f s).printUnits = s.printUnits := by
  induction l generalizing s with
  | nil => rfl
  | cons x l ih => simp only [List.foldl_cons, ih, h]

theorem ite_printUnits (c : Prop) [Decidable c] (a b : State) :
    (if c then a else b).printUnits = if c then a.printUnits else b.printUnits := by split <;> rfl

theorem dite_printUnits (c : Prop) [Decidable c] (a : c → State) (b : ¬c → State) :
    (dite c a b).printUnits = dite c (fun h => (a h).printUnits) (fun h => (b h).printUnits) := by split <;> rfl

@[simp] theorem State.enqueue_printUnits (s : State) (q : Queued) : (State.enqueue s q).printUnits = s.printUnits := by
  simp only [State.enqueue.eq_def, ↓State.printUnits_keep]

@[simp] theorem State.setCam_printUnits (s : State) (n : Nat) (x : Cam) : (State.setCam s n x).printUnits = s.printUnits := by
  simp only [State.setCam.eq_def, ↓State.printUnits_keep]

@[simp] theorem State.noteGens_printUnits (s : State) (n : Nat) (l : GridLine) : (State.noteGens s n l).printUnits = s.printUnits := by
  simp only [State.noteGens.eq_def, ↓State.setCam_printUnits]

@[simp] theorem State.noteOwner_printUnits (s : State) (lines : List (Nat × GridLine)) (n : Nat) :
    (State.noteOwner s lines n).printUnits = s.printUnits := by
  rw [State.noteOwner.eq_def]
  repeat' split
  all_goals simp only [↓State.noteGens_printUnits]

@[simp] theorem State.setReg_printUnits (s : State) (a : Nat) (w : Word) : (State.setReg s a w).printUnits = s.printUnits := by
  simp only [State.setReg.eq_def, ↓State.printUnits_keep]

@[simp] theorem State.setFld_printUnits (s : State) (f : Fld) (v : Nat) : (State.setFld s f v).printUnits = s.printUnits := by
  simp only [State.setFld.eq_def, ↓State.setReg_printUnits]

@[simp] theorem State.bump_printUnits (s : State) (f : Fld) (n : Nat) : (State.bump s f n).printUnits = s.printUnits := by
  simp only [State.bump.eq_def, ↓State.setFld_printUnits]

@[simp] theorem State.raise_printUnits (s : State) (prod : Nat) (tag : Option Nat) :
    (State.raise s prod tag).printUnits = s.printUnits := by
  simp only [State.raise.eq_def, ↓State.setFld_printUnits, ↓State.bump_printUnits, ↓ite_printUnits, ite_self, ↓State.printUnits_keep]

@[simp] theorem State.raiseIf_printUnits (s : State) (en : Bool) (prod : Nat) (tag : Option Nat) :
    (State.raiseIf s en prod tag).printUnits = s.printUnits := by
  simp only [State.raiseIf.eq_def, ↓State.raise_printUnits, ↓ite_printUnits, ite_self]

@[simp] theorem State.jigEvent_printUnits (s : State) (bit : Nat) (f : Fld) : (State.jigEvent s bit f).printUnits = s.printUnits := by
  simp only [State.jigEvent.eq_def, ↓State.raiseIf_printUnits, ↓State.setFld_printUnits]

@[simp] theorem State.scoreFrame_printUnits (s : State) (n : Nat) (num : Nat) : (State.scoreFrame s n num).printUnits = s.printUnits := by
  rw [State.scoreFrame.eq_def] <;> (try simp only [↓State.setCam_printUnits, ↓State.jigEvent_printUnits, ↓foldl_printUnits, ↓ite_printUnits,
      ↓dite_printUnits, ↓reduceIte, ite_self, implies_true,
      ↓State.printUnits_keep]) <;> repeat' ((first | split | (rw [foldl_printUnits]; intro s x)) <;> try simp only [↓State.setCam_printUnits,
      ↓State.jigEvent_printUnits, ↓foldl_printUnits, ↓ite_printUnits, ↓dite_printUnits, ↓reduceIte, ite_self, implies_true,
      ↓State.printUnits_keep])

@[simp] theorem State.beginFrame_printUnits (s : State) (n : Nat) (num : Nat) : (State.beginFrame s n num).printUnits = s.printUnits := by
  simp only [State.beginFrame.eq_def, ↓State.scoreFrame_printUnits, ↓State.setCam_printUnits, ↓foldl_printUnits, implies_true]

theorem State.compareRow_printUnits (s : State) (n lo hi : Nat) (l : GridLine) (r : CmpRow × State)     (h :
    s.compareRow n lo hi l = some r) :
    r.2.printUnits = s.printUnits := by
  rw [State.compareRow] at h
  dsimp only at h
  split at h
  · cases h
  · split at h
    · cases h
    · cases h
      rw [State.setCam_printUnits, State.beginFrame_printUnits]

@[simp] theorem State.compareAll_printUnits (s : State) (lines : List (Nat × GridLine)) (x2 : List (Nat × Nat × Nat)) :
    (State.compareAll s lines x2).2.printUnits = s.printUnits := by
  induction x2 generalizing s with
  | nil => rfl
  | cons o t ih =>
    rw [State.compareAll]
    split
    · rename_i row s' h
      obtain ⟨l, -, h⟩ := Option.bind_eq_some_iff.mp h
      rw [ih, State.compareRow_printUnits _ _ _ _ _ _ h, State.noteOwner_printUnits]
    · rw [ih, State.noteOwner_printUnits]

@[simp] theorem State.modeRefused_printUnits (s : State) (unfit : Option Nat) : (State.modeRefused s unfit).printUnits = s.printUnits := by
  rw [State.modeRefused.eq_def]
  repeat' split
  all_goals simp only [↓State.setFld_printUnits]

@[simp] theorem State.putArb_printUnits (s : State) (e : RegEntry) (new : Word) : (State.putArb s e new).printUnits = s.printUnits := by
  rw [State.putArb.eq_def]
  repeat' split
  all_goals simp only [↓State.setReg_printUnits, ↓State.setFld_printUnits, ↓ite_printUnits, ite_self]

@[simp] theorem State.mend_printUnits (s : State) (c : Nat) : (State.mend s c).printUnits = s.printUnits := by
  simp only [State.mend.eq_def, ↓State.setFld_printUnits]

@[simp] theorem State.bumpWrap_printUnits (s : State) (f : Fld) (n : Nat) : (State.bumpWrap s f n).printUnits = s.printUnits := by
  simp only [State.bumpWrap.eq_def, ↓State.setFld_printUnits]

@[simp] theorem State.log1_printUnits (s : State) (code : Nat) (block : Nat) (inst : Nat) (cond : Nat) (detail : List
    Nat) :
    (State.log1 s code block inst cond detail).printUnits = s.printUnits := by
  simp only [State.log1.eq_def, ↓State.bumpWrap_printUnits, ↓State.printUnits_keep]

@[simp] theorem State.breach_printUnits (s : State) (c : Nat) (block : Nat) (inst : Nat) (detail : List Nat) :
    (State.breach s c block inst detail).printUnits = s.printUnits := by
  simp only [State.breach.eq_def, ↓State.raise_printUnits, ↓State.log1_printUnits, ↓State.setFld_printUnits]

@[simp] theorem State.breachOnce_printUnits (s : State) (c : Nat) (block : Nat) (inst : Nat) (detail : List Nat) :
    (State.breachOnce s c block inst detail).printUnits = s.printUnits := by
  simp only [State.breachOnce.eq_def, ↓State.mend_printUnits, ↓State.breach_printUnits]

@[simp] theorem State.setLock_printUnits (s : State) (k : Nat) (x : LockX) : (State.setLock s k x).printUnits = s.printUnits := by
  simp only [State.setLock.eq_def, ↓State.setFld_printUnits, ↓State.printUnits_keep]

@[simp] theorem State.lockOwn_printUnits (s : State) (k : Nat) (engine : Bool) (client : Nat) :
    (State.lockOwn s k engine client).printUnits = s.printUnits := by
  simp only [State.lockOwn.eq_def, ↓State.setFld_printUnits, ↓State.setLock_printUnits]

@[simp] theorem State.emit_printUnits (s : State) (o : Out) : (State.emit s o).printUnits = s.printUnits := by
  simp only [State.emit.eq_def, ↓State.printUnits_keep]

@[simp] theorem State.tellEngine_printUnits (s : State) (engine : Nat) (lock : Nat) (status : Nat) :
    (State.tellEngine s engine lock status).printUnits = s.printUnits := by
  simp only [State.tellEngine.eq_def, ↓State.emit_printUnits]

@[simp] theorem State.setSession_printUnits (s : State) (n : Nat) (x : Session) : (State.setSession s n x).printUnits = s.printUnits := by
  simp only [State.setSession.eq_def, ↓State.printUnits_keep]

@[simp] theorem State.setSlot_printUnits (s : State) (sess : Nat) (tag : Nat) (x : Slot) :
    (State.setSlot s sess tag x).printUnits = s.printUnits := by
  simp only [State.setSlot.eq_def, ↓State.setSession_printUnits]

@[simp] theorem State.setRing_printUnits (s : State) (r : Nat) (x : Ring) : (State.setRing s r x).printUnits = s.printUnits := by
  simp only [State.setRing.eq_def, ↓State.printUnits_keep]

@[simp] theorem State.setStall_printUnits (s : State) (r : Nat) : (State.setStall s r).printUnits = s.printUnits := by
  simp only [State.setStall.eq_def, ↓State.setFld_printUnits]

@[simp] theorem State.msixSignal_printUnits (s : State) (v : Nat) : (State.msixSignal s v).printUnits = s.printUnits := by
  simp only [State.msixSignal.eq_def, ↓State.emit_printUnits, ↓ite_printUnits, ite_self, ↓State.printUnits_keep]

@[simp] theorem State.ringNotify_printUnits (s : State) (r : Nat) : (State.ringNotify s r).printUnits = s.printUnits := by
  simp only [State.ringNotify.eq_def, ↓State.msixSignal_printUnits, ↓State.emit_printUnits]

@[simp] theorem State.ringWrite_printUnits (s : State) (r : Nat) (rep : Reply) : (State.ringWrite s r rep).printUnits = s.printUnits := by
  simp only [State.ringWrite.eq_def, ↓State.emit_printUnits, ↓State.setRing_printUnits, ↓State.setStall_printUnits,
    ↓State.ringNotify_printUnits, ↓ite_printUnits, ite_self]

@[simp] theorem State.ringReply_printUnits (s : State) (r : Nat) (rep : Reply) : (State.ringReply s r rep).printUnits = s.printUnits := by
  simp only [State.ringReply.eq_def, ↓State.ringWrite_printUnits, ↓State.setRing_printUnits, ↓ite_printUnits, ite_self]

@[simp] theorem State.sendDatagram_printUnits (s : State) (ip : Nat) (port : Nat) (b : List Byte) :
    (State.sendDatagram s ip port b).printUnits = s.printUnits := by
  rw [State.sendDatagram.eq_def]
  repeat' split
  all_goals simp only [↓State.bump_printUnits, ↓State.emit_printUnits]

@[simp] theorem State.setLink_printUnits (s : State) (west : Bool) (l : ChainLink) :
    (State.setLink s west l).printUnits = s.printUnits := by
  simp only [State.setLink.eq_def, ↓State.printUnits_keep]

@[simp] theorem State.setLane_printUnits (s : State) (l : Nat) (x : Lane) : (State.setLane s l x).printUnits = s.printUnits := by
  simp only [State.setLane.eq_def, ↓State.printUnits_keep]

@[simp] theorem State.laneSent_printUnits (s : State) (l : Nat) (bs : List Block) : (State.laneSent s l bs).printUnits = s.printUnits := by
  simp only [State.laneSent.eq_def, ↓State.setLane_printUnits]

@[simp] theorem State.chainSend_printUnits (s : State) (west : Bool) (b : List Byte) :
    (State.chainSend s west b).printUnits = s.printUnits := by
  have f (l : List (Nat × List Block)) (s : State) : (l.foldl (fun s p => s.laneSent p.1 p.2) s).printUnits = s.printUnits :=
    foldl_printUnits _ (fun s p => State.laneSent_printUnits ..) l s
  simp only [State.chainSend, State.emit_printUnits, State.setLink_printUnits, f]

@[simp] theorem State.chainDrain_printUnits (s : State) (west : Bool) : (State.chainDrain s west).printUnits = s.printUnits := by
  simp only [State.chainDrain, foldl_printUnits _ (fun s b => State.chainSend_printUnits s west b), State.setLink_printUnits]

@[simp] theorem State.chainSendOn_printUnits (s : State) (west : Bool) (transit : Bool) (b : List Byte) :
    (State.chainSendOn s west transit b).printUnits = s.printUnits := by
  simp only [State.chainSendOn.eq_def, ↓State.chainDrain_printUnits, ↓State.setLink_printUnits, ↓ite_printUnits, ite_self]

@[simp] theorem State.chainTo_printUnits (s : State) (type : Nat) (dst : Nat) (cls : Nat) (body : List Byte) :
    (State.chainTo s type dst cls body).printUnits = s.printUnits := by
  rw [State.chainTo.eq_def]
  repeat' split
  all_goals simp only [↓State.chainSendOn_printUnits]

@[simp] theorem State.deliver_printUnits (s : State) (sess : Nat) (rep : Reply) : (State.deliver s sess rep).printUnits = s.printUnits := by
  rw [State.deliver.eq_def]
  repeat' split
  all_goals simp only [↓State.ringReply_printUnits, ↓State.sendDatagram_printUnits, ↓State.chainTo_printUnits]

@[simp] theorem State.complete_printUnits (s : State) (sess : Nat) (tag : Nat) (seq : Nat) (opcode : Nat) (need :
    Bool) (status : Nat) (payload : List Byte) (more : Bool) (member : Option Nat) :
    (State.complete s sess tag seq opcode need status payload more member).printUnits = s.printUnits := by
  simp only [State.complete.eq_def, ↓State.setSlot_printUnits, ↓State.deliver_printUnits, ↓ite_printUnits, ite_self]

@[simp] theorem State.finishSlot_printUnits (s : State) (sess : Nat) (tag : Nat) (status : Nat) (payload : List Byte)
    (more : Bool) :
    (State.finishSlot s sess tag status payload more).printUnits = s.printUnits := by
  simp only [State.finishSlot.eq_def, ↓State.complete_printUnits, ↓ite_printUnits, ite_self]

@[simp] theorem State.lockPass_printUnits (s : State) (k : Nat) (idle : Nat) (prior : Option Nat) :
    (State.lockPass s k idle prior).printUnits = s.printUnits := by
  rw [State.lockPass.eq_def] <;> (try simp only [↓State.setFld_printUnits, ↓State.setLock_printUnits, ↓State.lockOwn_printUnits,
      ↓State.tellEngine_printUnits, ↓State.finishSlot_printUnits, ↓foldl_printUnits, ↓ite_printUnits, ↓dite_printUnits, ↓reduceIte, ite_self,
      implies_true,
      ↓State.printUnits_keep]) <;> repeat' ((first | split | (rw [foldl_printUnits]; intro s x)) <;> try simp only [↓State.setFld_printUnits,
      ↓State.setLock_printUnits, ↓State.lockOwn_printUnits, ↓State.tellEngine_printUnits, ↓State.finishSlot_printUnits, ↓foldl_printUnits,
      ↓ite_printUnits, ↓dite_printUnits, ↓reduceIte, ite_self, implies_true, ↓State.printUnits_keep])

@[simp] theorem State.lockBreak_printUnits (s : State) (k : Nat) : (State.lockBreak s k).printUnits = s.printUnits := by
  simp only [State.lockBreak.eq_def, ↓State.log1_printUnits, ↓State.bump_printUnits, ↓State.lockPass_printUnits, ↓State.raise_printUnits]

@[simp] theorem State.lockLimitWritten_printUnits (s : State) (k : Nat) : (State.lockLimitWritten s k).printUnits = s.printUnits := by
  simp only [State.lockLimitWritten.eq_def, ↓State.breachOnce_printUnits, ↓State.lockBreak_printUnits, ↓ite_printUnits, ite_self]

@[simp] theorem State.cmdErr_printUnits (s : State) (cause : Nat) (addr : Nat) : (State.cmdErr s cause addr).printUnits = s.printUnits := by
  simp only [State.cmdErr.eq_def, ↓State.setFld_printUnits, ↓ite_printUnits, ite_self]

@[simp] theorem State.drainReplies_printUnits (s : State) (r : Nat) (x2 : List Reply) :
    (State.drainReplies s r x2).printUnits = s.printUnits := by
  induction x2 generalizing s with
  | nil => exact State.setRing_printUnits ..
  | cons p l ih =>
    rw [State.drainReplies]
    split
    · rw [ih, State.ringWrite_printUnits]
    · exact State.setRing_printUnits ..

@[simp] theorem State.ringEnabled_printUnits (s : State) (r : Nat) (was : Bool) :
    (State.ringEnabled s r was).printUnits = s.printUnits := by
  simp only [State.ringEnabled.eq_def, ↓State.setRing_printUnits, ↓State.setSession_printUnits, ↓State.setStall_printUnits,
    ↓State.drainReplies_printUnits, ↓ite_printUnits, ite_self]

@[simp] theorem State.putCmd_printUnits (s : State) (e : RegEntry) (old : Word) (new : Word) :
    (State.putCmd s e old new).printUnits = s.printUnits := by
  simp only [State.putCmd.eq_def, ↓State.setReg_printUnits, ↓State.cmdErr_printUnits, ↓State.ringEnabled_printUnits, ↓ite_printUnits,
    ite_self]

@[simp] theorem State.freeUnits_printUnits (s : State) (x : Ingest) : (State.freeUnits s x).printUnits = s.printUnits := by
  simp only [State.freeUnits.eq_def, ↓State.setFld_printUnits, ↓foldl_printUnits, implies_true]

@[simp] theorem State.dmaMark_printUnits (s : State) (ch : Nat) : (State.dmaMark s ch).printUnits = s.printUnits := by
  simp only [State.dmaMark.eq_def, ↓State.setFld_printUnits]

@[simp] theorem State.dmaDone_printUnits (s : State) (ch : Nat) : (State.dmaDone s ch).printUnits = s.printUnits := by
  simp only [State.dmaDone.eq_def, ↓State.msixSignal_printUnits, ↓State.dmaMark_printUnits]

@[simp] theorem State.writeBack_printUnits (s : State) (ch : Nat) (code : Nat) (addr : Nat) (residue : Nat) :
    (State.writeBack s ch code addr residue).printUnits = s.printUnits := by
  simp only [State.writeBack.eq_def, ↓State.emit_printUnits, ↓ite_printUnits, ite_self]

@[simp] theorem State.chkUser_printUnits (s : State) (ch : Nat) (start : Bool) : (State.chkUser s ch start).printUnits = s.printUnits := by
  simp only [State.chkUser.eq_def, ↓State.setFld_printUnits, ↓ite_printUnits, ite_self]

@[simp] theorem State.setFlag_printUnits (s : State) (f : Fld) (b : Bool) : (State.setFlag s f b).printUnits = s.printUnits := by
  simp only [State.setFlag.eq_def, ↓State.setFld_printUnits]

@[simp] theorem State.latchError_printUnits (s : State) (unit : Nat) (code : Nat) (plane : Nat) (off : Nat) (bit :
    Nat) (page : Nat) :
    (State.latchError s unit code plane off bit page).printUnits = s.printUnits := by
  simp only [State.latchError.eq_def, ↓State.setFld_printUnits, ↓State.log1_printUnits, ↓State.bump_printUnits, ↓ite_printUnits, ite_self]

@[simp] theorem State.showStackMax_printUnits (s : State) : (State.showStackMax s).printUnits = s.printUnits := by
  simp only [State.showStackMax.eq_def, ↓State.setFld_printUnits]

@[simp] theorem State.showBank_printUnits (s : State) (b : Nat) : (State.showBank s b).printUnits = s.printUnits := by
  simp only [State.showBank.eq_def, ↓State.setFlag_printUnits, ↓State.setFld_printUnits]

@[simp] theorem State.headSend_printUnits (s : State) (k : Nat) (l : Nat) (b : List Byte) :
    (State.headSend s k l b).printUnits = s.printUnits := by
  simp only [State.headSend.eq_def, ↓State.emit_printUnits, ↓State.laneSent_printUnits]

@[simp] theorem State.boardSend_printUnits (s : State) (k : Nat) (type : Nat) (flags : Nat) (frame : Nat) (body : List
    Byte) :
    (State.boardSend s k type flags frame body).printUnits = s.printUnits := by
  simp only [State.boardSend.eq_def, ↓State.headSend_printUnits]

@[simp] theorem State.setBst_printUnits (s : State) (k : Nat) (v : Nat) : (State.setBst s k v).printUnits = s.printUnits := by
  simp only [State.setBst.eq_def, ↓State.setFld_printUnits]

@[simp] theorem State.setCredits_printUnits (s : State) (k : Nat) (v : Nat) : (State.setCredits s k v).printUnits = s.printUnits := by
  simp only [State.setCredits.eq_def, ↓State.setFld_printUnits]

@[simp] theorem State.fireEvent_printUnits (s : State) (bit : Nat) (tag : Option Nat) :
    (State.fireEvent s bit tag).printUnits = s.printUnits := by
  simp only [State.fireEvent.eq_def, ↓State.raiseIf_printUnits]

@[simp] theorem State.setReq_printUnits (s : State) (v : Nat) : (State.setReq s v).printUnits = s.printUnits := by
  simp only [State.setReq.eq_def, ↓State.fireEvent_printUnits, ↓State.setFld_printUnits, ↓ite_printUnits, ite_self]

@[simp] theorem State.setCalPair_printUnits (s : State) (kind : Nat) (inst : Nat) (p : CalPair) :
    (State.setCalPair s kind inst p).printUnits = s.printUnits := by
  simp only [State.setCalPair.eq_def, ↓State.printUnits_keep]

@[simp] theorem State.calVerify_printUnits (s : State) (kind : Nat) (inst : Nat) :
    (State.calVerify s kind inst).printUnits = s.printUnits := by
  rw [State.calVerify.eq_def] <;> (try simp only [↓State.setFld_printUnits, ↓State.bump_printUnits, ↓State.log1_printUnits,
      ↓State.setCalPair_printUnits, ↓foldl_printUnits, ↓ite_printUnits, ↓dite_printUnits, ↓reduceIte, ite_self, implies_true,
      ↓State.printUnits_keep]) <;> repeat' ((first | split | (rw [foldl_printUnits]; intro s x)) <;> try simp only [↓State.setFld_printUnits,
      ↓State.bump_printUnits, ↓State.log1_printUnits, ↓State.setCalPair_printUnits, ↓foldl_printUnits, ↓ite_printUnits, ↓dite_printUnits, ↓reduceIte,
      ite_self, implies_true, ↓State.printUnits_keep])

@[simp] theorem State.portStart_printUnits (s : State) (n : Nat) : (State.portStart s n).printUnits = s.printUnits := by
  simp only [State.portStart.eq_def, ↓State.calVerify_printUnits, ↓State.setCam_printUnits]

@[simp] theorem State.closeFrame_printUnits (s : State) (n : Nat) (short : Bool) :
    (State.closeFrame s n short).printUnits = s.printUnits := by
  simp only [State.closeFrame.eq_def, ↓State.setFld_printUnits, ↓State.setCam_printUnits]

@[simp] theorem State.capEnable_printUnits (s : State) (n : Nat) (v : Bool) : (State.capEnable s n v).printUnits = s.printUnits := by
  simp only [State.capEnable.eq_def, ↓State.setFlag_printUnits, ↓State.portStart_printUnits, ↓State.setFld_printUnits,
    ↓State.setCam_printUnits, ↓State.closeFrame_printUnits, ↓ite_printUnits, ite_self]

@[simp] theorem State.kalPdat_printUnits (s : State) (p : Nat) (v : Word) : (State.kalPdat s p v).printUnits = s.printUnits := by
  simp only [State.kalPdat.eq_def, ↓State.bumpWrap_printUnits, ↓State.setCam_printUnits]

@[simp] theorem State.putKal_printUnits (s : State) (e : RegEntry) (new : Word) : (State.putKal s e new).printUnits = s.printUnits := by
  rw [State.putKal.eq_def]
  repeat' split
  all_goals simp only [↓State.setReg_printUnits, ↓State.setCam_printUnits, ↓State.kalPdat_printUnits]

@[simp] theorem State.showTabPend_printUnits (s : State) : (State.showTabPend s).printUnits = s.printUnits := by
  simp only [State.showTabPend.eq_def, ↓State.setFlag_printUnits]

@[simp] theorem State.rsmpApply_printUnits (s : State) (n : Nat) : (State.rsmpApply s n).printUnits = s.printUnits := by
  simp only [State.rsmpApply.eq_def, ↓State.setCam_printUnits, ↓State.showTabPend_printUnits, ↓ite_printUnits, ite_self]

@[simp] theorem State.rsmpSwap_printUnits (s : State) (r : Nat) : (State.rsmpSwap s r).printUnits = s.printUnits := by
  simp only [State.rsmpSwap.eq_def, ↓State.setFld_printUnits, ↓ite_printUnits, ite_self]

@[simp] theorem State.rsmpPdat_printUnits (s : State) (r : Nat) (v : Word) : (State.rsmpPdat s r v).printUnits = s.printUnits := by
  simp only [State.rsmpPdat.eq_def, ↓State.bumpWrap_printUnits, ↓State.setCam_printUnits]

@[simp] theorem State.putRsmp_printUnits (s : State) (e : RegEntry) (new : Word) : (State.putRsmp s e new).printUnits = s.printUnits := by
  rw [State.putRsmp.eq_def]
  repeat' split
  all_goals simp only [↓State.setReg_printUnits, ↓State.rsmpApply_printUnits, ↓State.rsmpSwap_printUnits, ↓State.rsmpPdat_printUnits]

@[simp] theorem State.zeroCorr_printUnits (s : State) : (State.zeroCorr s).printUnits = s.printUnits := by
  simp only [State.zeroCorr.eq_def, ↓State.setCam_printUnits, ↓foldl_printUnits, ↓ite_printUnits, ite_self, implies_true]

@[simp] theorem State.nozEvent_printUnits (s : State) (bit : Nat) (shown : Fld) :
    (State.nozEvent s bit shown).printUnits = s.printUnits := by
  simp only [State.nozEvent.eq_def, ↓State.raiseIf_printUnits, ↓State.setFld_printUnits]

@[simp] theorem State.countEntry_printUnits (s : State) (state : Nat) : (State.countEntry s state).printUnits = s.printUnits := by
  rw [State.countEntry.eq_def]
  repeat' split
  all_goals simp only [↓State.nozEvent_printUnits, ↓State.bump_printUnits]

@[simp] theorem State.setRecRing_printUnits (s : State) (r : Nat) (x : RecRing) : (State.setRecRing s r x).printUnits = s.printUnits := by
  simp only [State.setRecRing.eq_def, ↓State.printUnits_keep]

@[simp] theorem State.addRecord_printUnits (s : State) (r : Nat) (make : Nat → List Byte) :
    (State.addRecord s r make).printUnits = s.printUnits := by
  simp only [State.addRecord.eq_def, ↓State.setRecRing_printUnits, ↓ite_printUnits, ite_self]

@[simp] theorem State.nozRecord_printUnits (s : State) (f : Finding) (x : Nat) (old : Nat) (e : NozEntry) :
    (State.nozRecord s f x old e).printUnits = s.printUnits := by
  simp only [State.nozRecord.eq_def, ↓State.addRecord_printUnits]

@[simp] theorem State.encEnabled_printUnits (s : State) (e : Nat) : (State.encEnabled s e).printUnits = s.printUnits := by
  simp only [State.encEnabled.eq_def, ↓State.setFld_printUnits]

@[simp] theorem State.axEnter_printUnits (s : State) (a : Nat) (st : Nat) : (State.axEnter s a st).printUnits = s.printUnits := by
  simp only [State.axEnter.eq_def, ↓State.setFld_printUnits, ↓State.emit_printUnits, ↓ite_printUnits, ite_self]

@[simp] theorem State.setFldI_printUnits (s : State) (f : Fld) (x : Int) : (State.setFldI s f x).printUnits = s.printUnits := by
  simp only [State.setFldI.eq_def, ↓State.setFld_printUnits]

@[simp] theorem State.setAxPos_printUnits (s : State) (a : Nat) (p : Int) : (State.setAxPos s a p).printUnits = s.printUnits := by
  simp only [State.setAxPos.eq_def, ↓State.setFldI_printUnits]

@[simp] theorem State.setAxis_printUnits (s : State) (a : Nat) (x : Axis) : (State.setAxis s a x).printUnits = s.printUnits := by
  simp only [State.setAxis.eq_def, ↓State.printUnits_keep]

@[simp] theorem State.axShift_printUnits (s : State) (a : Nat) (d : Int) : (State.axShift s a d).printUnits = s.printUnits := by
  simp only [State.axShift.eq_def, ↓State.setAxPos_printUnits, ↓State.setAxis_printUnits]

@[simp] theorem State.homeUndone_printUnits (s : State) (a : Nat) : (State.homeUndone s a).printUnits = s.printUnits := by
  simp only [State.homeUndone.eq_def, ↓State.setFld_printUnits, ↓State.axShift_printUnits, ↓State.setAxis_printUnits, ↓ite_printUnits,
    ite_self]

@[simp] theorem State.axPlan_printUnits (s : State) (a : Nat) (p : AxisPlan) : (State.axPlan s a p).printUnits = s.printUnits := by
  simp only [State.axPlan.eq_def, ↓State.setAxis_printUnits]

@[simp] theorem State.axRamp_printUnits (s : State) (a : Nat) (kind : Nat) : (State.axRamp s a kind).printUnits = s.printUnits := by
  rw [State.axRamp.eq_def]
  repeat' split
  all_goals simp only [↓State.axPlan_printUnits]

@[simp] theorem State.axEvent_printUnits (s : State) (a : Nat) (bit : Nat) (tag : Option Nat) :
    (State.axEvent s a bit tag).printUnits = s.printUnits := by
  simp only [State.axEvent.eq_def, ↓State.raiseIf_printUnits]

@[simp] theorem State.limitTrip_printUnits (s : State) (a : Nat) : (State.limitTrip s a).printUnits = s.printUnits := by
  rw [State.limitTrip.eq_def] <;> (try simp only [↓State.log1_printUnits, ↓State.homeUndone_printUnits, ↓State.setAxis_printUnits,
      ↓State.setFld_printUnits, ↓State.axRamp_printUnits, ↓State.axEvent_printUnits, ↓State.axEnter_printUnits, ↓foldl_printUnits, ↓ite_printUnits,
      ↓dite_printUnits, ↓reduceIte, ite_self, implies_true,
      ↓State.printUnits_keep]) <;> repeat' ((first | split | (rw [foldl_printUnits]; intro s x)) <;> try simp only [↓State.log1_printUnits,
      ↓State.homeUndone_printUnits, ↓State.setAxis_printUnits, ↓State.setFld_printUnits, ↓State.axRamp_printUnits, ↓State.axEvent_printUnits,
      ↓State.axEnter_printUnits, ↓foldl_printUnits, ↓ite_printUnits, ↓dite_printUnits, ↓reduceIte, ite_self, implies_true,
      ↓State.printUnits_keep])

@[simp] theorem State.axFollowing_printUnits (s : State) (a : Nat) : (State.axFollowing s a).printUnits = s.printUnits := by
  simp only [State.axFollowing.eq_def, ↓State.axEnter_printUnits, ↓State.setAxis_printUnits]

@[simp] theorem State.axSettle_printUnits (s : State) (a : Nat) : (State.axSettle s a).printUnits = s.printUnits := by
  simp only [State.axSettle.eq_def, ↓State.axEnter_printUnits, ↓State.limitTrip_printUnits, ↓State.axFollowing_printUnits, ↓ite_printUnits,
    ite_self]

@[simp] theorem State.liftLeft_printUnits (s : State) (a : Nat) : (State.liftLeft s a).printUnits = s.printUnits := by
  simp only [State.liftLeft.eq_def, ↓State.axEvent_printUnits, ↓ite_printUnits, ite_self]

@[simp] theorem State.setCons_printUnits (s : State) (k : Nat) (x : EvtCons) : (State.setCons s k x).printUnits = s.printUnits := by
  simp only [State.setCons.eq_def, ↓State.printUnits_keep]

@[simp] theorem State.endTask_printUnits (s : State) (k : Nat) : (State.endTask s k).printUnits = s.printUnits := by
  simp only [State.endTask.eq_def, ↓State.setCons_printUnits, ↓ite_printUnits, ite_self]

@[simp] theorem State.axAnswer_printUnits (s : State) (a : Nat) : (State.axAnswer s a).printUnits = s.printUnits := by
  rw [State.axAnswer.eq_def] <;> (try simp only [↓State.finishSlot_printUnits, ↓State.setAxis_printUnits, ↓foldl_printUnits,
      ↓ite_printUnits, ↓dite_printUnits, ↓reduceIte, ite_self, implies_true,
      ↓State.printUnits_keep]) <;> repeat' ((first | split | (rw [foldl_printUnits]; intro s x)) <;> try simp only [↓State.finishSlot_printUnits,
      ↓State.setAxis_printUnits, ↓foldl_printUnits, ↓ite_printUnits, ↓dite_printUnits, ↓reduceIte, ite_self, implies_true,
      ↓State.printUnits_keep])

@[simp] theorem State.axEnabled_printUnits (s : State) (a : Nat) : (State.axEnabled s a).printUnits = s.printUnits := by
  simp only [State.axEnabled.eq_def, ↓State.axSettle_printUnits, ↓State.liftLeft_printUnits, ↓State.setFld_printUnits,
    ↓State.axEnter_printUnits, ↓State.endTask_printUnits, ↓State.axAnswer_printUnits, ↓State.setAxis_printUnits, ↓ite_printUnits, ite_self]

@[simp] theorem State.followWritten_printUnits (s : State) (a : Nat) : (State.followWritten s a).printUnits = s.printUnits := by
  simp only [State.followWritten.eq_def, ↓State.axFollowing_printUnits, ↓State.axSettle_printUnits, ↓State.setAxis_printUnits,
    ↓ite_printUnits, ite_self]

@[simp] theorem State.showLimit_printUnits (s : State) (a : Nat) : (State.showLimit s a).printUnits = s.printUnits := by
  simp only [State.showLimit.eq_def, ↓State.setFlag_printUnits]

@[simp] theorem State.limitSelected_printUnits (s : State) (a : Nat) : (State.limitSelected s a).printUnits = s.printUnits := by
  simp only [State.limitSelected.eq_def, ↓State.showLimit_printUnits, ↓State.limitTrip_printUnits, ↓ite_printUnits, ite_self]

@[simp] theorem State.putAxis_printUnits (s : State) (e : RegEntry) (old : Word) (new : Word) :
    (State.putAxis s e old new).printUnits = s.printUnits := by
  rw [State.putAxis.eq_def]
  repeat' split
  all_goals simp only [↓State.setReg_printUnits, ↓State.axEnabled_printUnits, ↓State.followWritten_printUnits,
    ↓State.limitSelected_printUnits]

@[simp] theorem State.lockLost_printUnits (s : State) (d : Nat) : (State.lockLost s d).printUnits = s.printUnits := by
  simp only [State.lockLost.eq_def, ↓State.setFld_printUnits, ↓State.raiseIf_printUnits, ↓ite_printUnits, ite_self]

@[simp] theorem State.setClock_printUnits (s : State) (d : Nat) (c : Clock) : (State.setClock s d c).printUnits = s.printUnits := by
  simp only [State.setClock.eq_def, ↓State.printUnits_keep]

@[simp] theorem State.sourceGone_printUnits (s : State) (d : Nat) : (State.sourceGone s d).printUnits = s.printUnits := by
  simp only [State.sourceGone.eq_def, ↓State.lockLost_printUnits, ↓State.setFld_printUnits, ↓State.setClock_printUnits]

@[simp] theorem State.showUtc_printUnits (s : State) : (State.showUtc s).printUnits = s.printUnits := by
  rw [State.showUtc.eq_def]
  repeat' split
  all_goals simp only [↓State.setFld_printUnits]

@[simp] theorem State.sourceChanged_printUnits (s : State) (d : Nat) : (State.sourceChanged s d).printUnits = s.printUnits := by
  simp only [State.sourceChanged.eq_def, ↓State.setFld_printUnits, ↓State.sourceGone_printUnits, ↓State.setClock_printUnits,
    ↓State.showUtc_printUnits, ↓ite_printUnits, ite_self]

@[simp] theorem State.hostLocked_printUnits (s : State) (d : Nat) : (State.hostLocked s d).printUnits = s.printUnits := by
  simp only [State.hostLocked.eq_def, ↓State.setFld_printUnits, ↓State.lockLost_printUnits, ↓ite_printUnits, ite_self]

@[simp] theorem State.alarmArmed_printUnits (s : State) (d : Nat) : (State.alarmArmed s d).printUnits = s.printUnits := by
  simp only [State.alarmArmed.eq_def, ↓State.setClock_printUnits, ↓State.setFld_printUnits]

@[simp] theorem State.putTime_printUnits (s : State) (e : RegEntry) (old : Word) (new : Word) :
    (State.putTime s e old new).printUnits = s.printUnits := by
  simp only [State.putTime.eq_def, ↓State.setReg_printUnits, ↓State.sourceChanged_printUnits, ↓State.hostLocked_printUnits,
    ↓State.alarmArmed_printUnits, ↓ite_printUnits, ite_self]

@[simp] theorem State.putEvt_printUnits (s : State) (e : RegEntry) (new : Word) : (State.putEvt s e new).printUnits = s.printUnits := by
  simp only [State.putEvt.eq_def, ↓State.setReg_printUnits, ↓State.setCons_printUnits, ↓ite_printUnits, ite_self]

@[simp] theorem State.showDet_printUnits (s : State) : (State.showDet s).printUnits = s.printUnits := by
  simp only [State.showDet.eq_def, ↓State.setFlag_printUnits, ↓foldl_printUnits, implies_true]

@[simp] theorem State.detWritten_printUnits (s : State) : (State.detWritten s).printUnits = s.printUnits := by
  simp only [State.detWritten.eq_def, ↓State.showStackMax_printUnits, ↓State.showDet_printUnits]

@[simp] theorem State.putMem_printUnits (s : State) (e : RegEntry) (new : Word) : (State.putMem s e new).printUnits = s.printUnits := by
  simp only [State.putMem.eq_def, ↓State.detWritten_printUnits, ↓State.setReg_printUnits, ↓ite_printUnits, ite_self, ↓State.printUnits_keep]

@[simp] theorem State.setChk_printUnits (s : State) (u : Nat) (x : Chk) : (State.setChk s u x).printUnits = s.printUnits := by
  simp only [State.setChk.eq_def, ↓State.printUnits_keep]

@[simp] theorem State.putLater_printUnits (s : State) (e : RegEntry) : (State.putLater s e).printUnits = s.printUnits := by
  simp only [State.putLater.eq_def, ↓State.printUnits_keep]

@[simp] theorem State.orLater_printUnits (s : State) (f : Fld) (v : Nat) (act : State → State) (hact : ∀ y0, (act
    y0).printUnits = y0.printUnits) :
    (State.orLater s f v act).printUnits = s.printUnits := by
  simp only [State.orLater.eq_def, ↓State.putLater_printUnits, ↓ite_printUnits, ite_self, hact]

theorem execChkCheck_printUnits (unit : Nat) (s : State) : ∃ t, (execChkCheck unit s) = .next t ∧ t.printUnits = s.printUnits := by
  exact ⟨_, rfl, by simp only [↓State.orLater_printUnits, ↓State.setFld_printUnits, ↓State.raise_printUnits, ↓State.msixSignal_printUnits,
    ↓ite_printUnits, ite_self, implies_true]⟩

@[simp] theorem State.chkCompare_printUnits (s : State) (u : Nat) : (State.chkCompare s u).printUnits = s.printUnits := by
  rw [State.chkCompare]
  split
  · rename_i t h
    obtain ⟨u', h', e⟩ := execChkCheck_printUnits u s
    rw [h] at h'
    cases h'
    exact e
  · rfl

@[simp] theorem State.chkNext_printUnits (s : State) (u : Nat) : (State.chkNext s u).printUnits = s.printUnits := by
  simp only [State.chkNext.eq_def, ↓State.bumpWrap_printUnits]

@[simp] theorem State.chkPut_printUnits (s : State) (u : Nat) (i : Nat) (v : Nat) : (State.chkPut s u i v).printUnits = s.printUnits := by
  rw [State.chkPut.eq_def]
  repeat' split
  all_goals simp only [↓State.setFld_printUnits, ↓State.setChk_printUnits]

@[simp] theorem State.putChk_printUnits (s : State) (e : RegEntry) (old : Word) (new : Word) :
    (State.putChk s e old new).printUnits = s.printUnits := by
  rw [State.putChk.eq_def]
  repeat' split
  all_goals simp only [↓State.setReg_printUnits, ↓State.setFld_printUnits, ↓State.setChk_printUnits, ↓State.chkCompare_printUnits,
    ↓State.chkNext_printUnits, ↓State.chkPut_printUnits, ↓ite_printUnits, ite_self]

@[simp] theorem State.setLaneGrp_printUnits (s : State) (g : Nat) (x : LaneGroup) : (State.setLaneGrp s g x).printUnits = s.printUnits := by
  simp only [State.setLaneGrp.eq_def, ↓State.printUnits_keep]

@[simp] theorem State.laneAbandon_printUnits (s : State) (l : Nat) : (State.laneAbandon s l).printUnits = s.printUnits := by
  simp only [State.laneAbandon.eq_def, ↓State.setFld_printUnits, ↓State.setLaneGrp_printUnits, ↓ite_printUnits, ite_self]

@[simp] theorem State.linkSend_printUnits (s : State) (l : Nat) (kind : Nat) (arg : Nat) :
    (State.linkSend s l kind arg).printUnits = s.printUnits := by
  simp only [State.linkSend.eq_def, ↓State.emit_printUnits, ↓State.laneSent_printUnits]

@[simp] theorem State.laneTrain_printUnits (s : State) (l : Nat) (kept : Bool) : (State.laneTrain s l kept).printUnits = s.printUnits := by
  simp only [State.laneTrain.eq_def, ↓State.setLane_printUnits, ↓State.setFld_printUnits]

@[simp] theorem State.laneAsk_printUnits (s : State) (l : Nat) (code : Nat) : (State.laneAsk s l code).printUnits = s.printUnits := by
  simp only [State.laneAsk.eq_def, ↓State.linkSend_printUnits, ↓State.setLane_printUnits]

@[simp] theorem State.setMon_printUnits (s : State) (m : Nat) (x : Mon) : (State.setMon s m x).printUnits = s.printUnits := by
  simp only [State.setMon.eq_def, ↓State.printUnits_keep]

@[simp] theorem State.monStart_printUnits (s : State) (m : Nat) : (State.monStart s m).printUnits = s.printUnits := by
  simp only [State.monStart.eq_def, ↓State.setMon_printUnits, ↓State.setFld_printUnits]

@[simp] theorem State.monRestart_printUnits (s : State) (m : Nat) : (State.monRestart s m).printUnits = s.printUnits := by
  simp only [State.monRestart.eq_def, ↓State.setFlag_printUnits, ↓State.monStart_printUnits]

@[simp] theorem State.monWrite_printUnits (s : State) (m : Nat) (reg : Nat) (v : Word) :
    (State.monWrite s m reg v).printUnits = s.printUnits := by
  rw [State.monWrite.eq_def]
  repeat' split
  all_goals simp only [↓State.setReg_printUnits, ↓State.monRestart_printUnits]

@[simp] theorem State.showCanary_printUnits (s : State) (c : Nat) : (State.showCanary s c).printUnits = s.printUnits := by
  simp only [State.showCanary.eq_def, ↓State.setFlag_printUnits, ↓State.setFld_printUnits, ↓ite_printUnits, ite_self]

@[simp] theorem State.showCanaries_printUnits (s : State) : (State.showCanaries s).printUnits = s.printUnits := by
  simp only [State.showCanaries.eq_def, ↓State.showCanary_printUnits, ↓foldl_printUnits, implies_true]

@[simp] theorem State.maskBreaks_printUnits (s : State) : (State.maskBreaks s).printUnits = s.printUnits := by
  rw [State.maskBreaks.eq_def] <;> (try simp only [↓State.log1_printUnits, ↓foldl_printUnits, ↓ite_printUnits, ↓dite_printUnits, ↓reduceIte,
      ite_self, implies_true,
      ↓State.printUnits_keep]) <;> repeat' ((first | split | (rw [foldl_printUnits]; intro s x)) <;> try simp only [↓State.log1_printUnits,
      ↓foldl_printUnits, ↓ite_printUnits, ↓dite_printUnits, ↓reduceIte, ite_self, implies_true, ↓State.printUnits_keep])

@[simp] theorem State.showGated_printUnits (s : State) : (State.showGated s).printUnits = s.printUnits := by
  simp only [State.showGated.eq_def, ↓State.showCanaries_printUnits, ↓State.setFld_printUnits, ↓State.maskBreaks_printUnits,
    ↓State.setFlag_printUnits, ↓ite_printUnits, ite_self]

@[simp] theorem State.undozeAll_printUnits (s : State) : (State.undozeAll s).printUnits = s.printUnits := by
  simp only [State.undozeAll.eq_def, ↓State.showGated_printUnits, ↓State.printUnits_keep]

@[simp] theorem State.take_printUnits (s : State) (rq : Rq) : (State.take s rq).printUnits = s.printUnits := by
  simp only [State.take.eq_def, ↓State.printUnits_keep]

@[simp] theorem State.lift_printUnits (s : State) (sess : Nat) (tag : Nat) : (State.lift s sess tag).printUnits = s.printUnits := by
  simp only [State.lift.eq_def, ↓State.setFld_printUnits, ↓ite_printUnits, ite_self, ↓State.printUnits_keep]

@[simp] theorem State.finish_printUnits (s : State) (rq : Rq) (op : Nat) (status : Nat) (payload : List Byte) (more :
    Bool) :
    (State.finish s rq op status payload more).printUnits = s.printUnits := by
  simp only [State.finish.eq_def, ↓State.complete_printUnits]

@[simp] theorem State.reject_printUnits (s : State) (rq : Rq) (op : Nat) (reason : Nat) (block : Nat) (offset : Nat) :
    (State.reject s rq op reason block offset).printUnits = s.printUnits := by
  simp only [State.reject.eq_def, ↓State.finish_printUnits]

@[simp] theorem State.runIn_printUnits (s : State) (rq : Rq) (op : Nat) (doms : List Domain) (body : State → State)
    (hbody : ∀ y0, (body y0).printUnits = y0.printUnits) :
    (State.runIn s rq op doms body).printUnits = s.printUnits := by
  simp only [State.runIn, ↓ite_printUnits, ↓State.lift_printUnits, ↓State.finish_printUnits, ↓State.take_printUnits]
  split
  · rfl
  · split
    · split
      · exact (State.reject_printUnits ..).trans (State.take_printUnits ..)
      · rfl
    · split
      · simp only [↓ite_printUnits, ↓State.finish_printUnits, ↓State.take_printUnits, hbody, ite_self]
      · rw [hbody, State.take_printUnits]

@[simp] theorem State.run_printUnits (s : State) (rq : Rq) (op : Nat) (body : State → State) (hbody : ∀ y0, (body
    y0).printUnits = y0.printUnits) :
    (State.run s rq op body).printUnits = s.printUnits := by
  rw [State.run, State.runIn_printUnits _ _ _ _ _ hbody]

@[simp] theorem State.badParam_printUnits (s : State) (rq : Rq) (op : Nat) (o : Nat) :
    (State.badParam s rq op o).printUnits = s.printUnits := by
  simp only [State.badParam.eq_def, ↓State.finish_printUnits]

@[simp] theorem State.withParams_printUnits (s : State) (rq : Rq) (op : Nat) (fields : List (Nat × Bool)) (body :
    State → State) (hbody : ∀ y0, (body y0).printUnits = y0.printUnits) :
    (State.withParams s rq op fields body).printUnits = s.printUnits := by
  rw [State.withParams]
  split
  · exact hbody s
  · exact State.badParam_printUnits ..

@[simp] theorem State.enter_printUnits (s : State) (st : Nat) : (State.enter s st).printUnits = s.printUnits := by
  simp only [State.enter.eq_def, ↓State.setFld_printUnits, ↓ite_printUnits, ite_self, ↓State.printUnits_keep]

theorem execServiceEnter_printUnits (rq : Rq) (s : State) : ∃ t, (execServiceEnter rq s) = .next t ∧ t.printUnits = s.printUnits := by
  exact ⟨_, rfl, by simp only [↓State.run_printUnits, ↓State.withParams_printUnits, ↓State.finish_printUnits, ↓State.enter_printUnits,
    implies_true]⟩

@[simp] theorem State.setEnc_printUnits (s : State) (e : Nat) (x : Enc) : (State.setEnc s e x).printUnits = s.printUnits := by
  simp only [State.setEnc.eq_def, ↓State.setFldI_printUnits, ↓State.printUnits_keep]

@[simp] theorem State.setSpeed_printUnits (s : State) (e : Nat) (v : Int) : (State.setSpeed s e v).printUnits = s.printUnits := by
  simp only [State.setSpeed.eq_def, ↓State.setFldI_printUnits, ↓State.setEnc_printUnits]

theorem execStillTimeout_printUnits (enc : Nat) (s : State) : ∃ t, (execStillTimeout enc s) = .next t ∧ t.printUnits = s.printUnits := by
  exact ⟨_, rfl, by simp only [↓State.setFld_printUnits, ↓State.setSpeed_printUnits, ↓ite_printUnits, ite_self]⟩

@[simp] theorem State.stageGains_printUnits (s : State) (n : Nat) : (State.stageGains s n).printUnits = s.printUnits := by
  simp only [State.stageGains.eq_def, ↓State.setCam_printUnits]

theorem execGainSetCompute_printUnits (port : Nat) (s : State) :
    ∃ t, (execGainSetCompute port s) = .next t ∧ t.printUnits = s.printUnits := by
  exact ⟨_, rfl, by simp only [↓State.stageGains_printUnits, ↓ite_printUnits, ite_self]⟩

@[simp] theorem State.nextRotation_printUnits (s : State) : (State.nextRotation s).printUnits = s.printUnits := by
  simp only [State.nextRotation.eq_def, ↓State.setFld_printUnits, ↓ite_printUnits, ite_self]

@[simp] theorem State.idleSend_printUnits (s : State) (l : Nat) : (State.idleSend s l).printUnits = s.printUnits := by
  simp only [State.idleSend.eq_def, ↓State.emit_printUnits, ↓State.laneSent_printUnits]

@[simp] theorem State.workingRate_printUnits (s : State) : (State.workingRate s).2.printUnits = s.printUnits := by
  rw [State.workingRate.eq_def] <;> (try simp only [↓State.calVerify_printUnits, ↓State.log1_printUnits, ↓foldl_printUnits, ↓ite_printUnits,
      ↓dite_printUnits, ↓reduceIte, ite_self, implies_true,
      ↓State.printUnits_keep]) <;> repeat' ((first | split | (rw [foldl_printUnits]; intro s x)) <;> try simp only [↓State.calVerify_printUnits,
      ↓State.log1_printUnits, ↓foldl_printUnits, ↓ite_printUnits, ↓dite_printUnits, ↓reduceIte, ite_self, implies_true, ↓State.printUnits_keep])

@[simp] theorem State.chainAll_printUnits (s : State) (type : Nat) (cls : Nat) (body : List Byte) :
    (State.chainAll s type cls body).printUnits = s.printUnits := by
  simp only [State.chainAll.eq_def, ↓State.chainSendOn_printUnits]

@[simp] theorem State.raiseRate_printUnits (s : State) (code : Nat) : (State.raiseRate s code).printUnits = s.printUnits := by
  simp only [State.raiseRate.eq_def, ↓State.setFld_printUnits, ↓State.laneAsk_printUnits, ↓foldl_printUnits, ↓ite_printUnits, ite_self,
    implies_true, ↓State.printUnits_keep]

@[simp] theorem State.sendRecord_printUnits (s : State) : (State.sendRecord s).printUnits = s.printUnits := by
  simp only [State.sendRecord.eq_def, ↓State.workingRate_printUnits, ↓State.chainAll_printUnits, ↓State.raiseRate_printUnits]

@[simp] theorem State.chainStatusSet_printUnits (s : State) (mask : Nat) (leader : Nat) (form : Nat) (w : Nat) (e :
    Nat) (epoch : Nat) :
    (State.chainStatusSet s mask leader form w e epoch).printUnits = s.printUnits := by
  simp only [State.chainStatusSet.eq_def, ↓State.raise_printUnits, ↓ite_printUnits, ite_self, ↓State.printUnits_keep]

@[simp] theorem State.sendLeader_printUnits (s : State) : (State.sendLeader s).printUnits = s.printUnits := by
  simp only [State.sendLeader.eq_def, ↓State.chainAll_printUnits, ↓State.chainStatusSet_printUnits]

@[simp] theorem State.announce_printUnits (s : State) : (State.announce s).printUnits = s.printUnits := by
  simp only [State.announce.eq_def, ↓State.sendRecord_printUnits, ↓State.sendLeader_printUnits, ↓ite_printUnits, ite_self]

@[simp] theorem State.discover_printUnits (s : State) : (State.discover s).printUnits = s.printUnits := by
  simp only [State.discover.eq_def, ↓State.mend_printUnits, ↓State.chainSendOn_printUnits, ↓State.printUnits_keep]

theorem execChainDiscovery_printUnits (s : State) : ∃ t, (execChainDiscovery s) = .next t ∧ t.printUnits = s.printUnits := by
  exact ⟨_, rfl, by simp only [↓State.announce_printUnits, ↓State.discover_printUnits, ↓ite_printUnits, ite_self]⟩

@[simp] theorem State.setChan_printUnits (s : State) (c : Nat) (x : EvtChan) : (State.setChan s c x).printUnits = s.printUnits := by
  simp only [State.setChan.eq_def, ↓State.printUnits_keep]

@[simp] theorem State.setCap_printUnits (s : State) (k : Nat) (x : Capture) : (State.setCap s k x).printUnits = s.printUnits := by
  simp only [State.setCap.eq_def, ↓State.setFld_printUnits, ↓State.printUnits_keep]

@[simp] theorem State.capture_printUnits (s : State) (k : Nat) : (State.capture s k).printUnits = s.printUnits := by
  simp only [State.capture.eq_def, ↓State.setCap_printUnits]

@[simp] theorem State.deliverEvent_printUnits (s : State) (prod : Nat) (tag : Nat) (k : Nat) :
    (State.deliverEvent s prod tag k).printUnits = s.printUnits := by
  simp only [State.deliverEvent.eq_def, ↓State.bump_printUnits, ↓State.setFld_printUnits, ↓State.setCons_printUnits,
    ↓State.capture_printUnits, ↓ite_printUnits, ite_self]

@[simp] theorem State.passChannel_printUnits (s : State) (prod : Nat) (tag : Nat) (derived : Bool) (c : Nat) :
    (State.passChannel s prod tag derived c).printUnits = s.printUnits := by
  simp only [State.passChannel.eq_def, ↓State.setChan_printUnits, ↓State.breachOnce_printUnits, ↓State.setFld_printUnits,
    ↓State.deliverEvent_printUnits, ↓foldl_printUnits, ↓ite_printUnits, ite_self, implies_true]

@[simp] theorem State.passEvent_printUnits (s : State) (prod : Nat) (tag : Option Nat) :
    (State.passEvent s prod tag).printUnits = s.printUnits := by
  simp only [State.passEvent]
  split
  · rfl
  · refine (foldl_printUnits _ (fun s c => State.passChannel_printUnits ..) _ _).trans ?_
    simp only [↓ite_printUnits, ↓State.bumpWrap_printUnits, ↓State.printUnits_keep, ite_self]

theorem execEventRaise_printUnits (prod : Nat) (tag : Option Nat) (s : State) :
    ∃ t, (execEventRaise prod tag s) = .next t ∧ t.printUnits = s.printUnits := by
  exact ⟨_, rfl, by simp only [↓State.passEvent_printUnits]⟩

@[simp] theorem State.axOutput_printUnits (active : Bool) (s : State) (a : Nat) :
    (State.axOutput active s a).printUnits = s.printUnits := by
  simp only [State.axOutput.eq_def, ↓State.emit_printUnits, ↓ite_printUnits, ite_self]

@[simp] theorem State.axesDeep_printUnits (s : State) : (State.axesDeep s).printUnits = s.printUnits := by
  simp only [State.axesDeep.eq_def, ↓State.setFld_printUnits, ↓State.axOutput_printUnits, ↓foldl_printUnits, implies_true]

@[simp] theorem State.posEvent_printUnits (s : State) (e : Nat) (bit : Nat) (prod : Nat) :
    (State.posEvent s e bit prod).printUnits = s.printUnits := by
  simp only [State.posEvent.eq_def, ↓State.raiseIf_printUnits]

@[simp] theorem State.indexCheck_printUnits (s : State) (e : Nat) : (State.indexCheck s e).printUnits = s.printUnits := by
  simp only [State.indexCheck.eq_def, ↓State.setFld_printUnits, ↓State.log1_printUnits, ↓State.setEnc_printUnits,
    ↓State.posEvent_printUnits, ↓State.bump_printUnits, ↓ite_printUnits, ite_self]

@[simp] theorem State.respond_printUnits (s : State) (src : PktSrc) (rep : Reply) :
    (State.respond s src rep).printUnits = s.printUnits := by
  rw [State.respond.eq_def]
  repeat' split
  all_goals simp only [↓State.ringReply_printUnits, ↓State.sendDatagram_printUnits, ↓State.chainTo_printUnits]

@[simp] theorem State.refuse_printUnits (s : State) (src : PktSrc) (h : Header) (status : Nat) (payload : List Byte) :
    (State.refuse s src h status payload).printUnits = s.printUnits := by
  simp only [State.refuse.eq_def, ↓State.respond_printUnits]

@[simp] theorem State.setInFlight_printUnits (s : State) (l : List Forwarded) : (State.setInFlight s l).printUnits = s.printUnits := by
  simp only [State.setInFlight.eq_def, ↓State.printUnits_keep]

@[simp] theorem State.forward_printUnits (s : State) (sess : Nat) (b : List Byte) (src : Option (Nat × Nat)) :
    (State.forward s sess b src).printUnits = s.printUnits := by
  simp only [State.forward.eq_def, ↓State.setSession_printUnits, ↓State.setInFlight_printUnits, ↓State.chainTo_printUnits, ↓ite_printUnits,
    ite_self]

@[simp] theorem State.acceptOpen_printUnits (s : State) (ip : Nat) (port : Nat) (b : List Byte) :
    (State.acceptOpen s ip port b).printUnits = s.printUnits := by
  rw [State.acceptOpen.eq_def] <;> (try simp only [↓State.refuse_printUnits, ↓State.forward_printUnits, ↓State.enqueue_printUnits,
      ↓foldl_printUnits, ↓ite_printUnits, ↓dite_printUnits, ↓reduceIte, ite_self, implies_true,
      ↓State.printUnits_keep]) <;> repeat' ((first | split | (rw [foldl_printUnits]; intro s x)) <;> try simp only [↓State.refuse_printUnits,
      ↓State.forward_printUnits, ↓State.enqueue_printUnits, ↓foldl_printUnits, ↓ite_printUnits, ↓dite_printUnits, ↓reduceIte, ite_self,
      implies_true, ↓State.printUnits_keep])

@[simp] theorem State.echoFault_printUnits (s : State) : (State.echoFault s).printUnits = s.printUnits := by
  simp only [State.echoFault.eq_def, ↓State.fireEvent_printUnits, ↓State.setFld_printUnits]

@[simp] theorem State.queueBack_printUnits (s : State) (w : Nat) (wrong : Option Nat) :
    (State.queueBack s w wrong).printUnits = s.printUnits := by
  simp only [State.queueBack.eq_def, ↓State.printUnits_keep]

@[simp] theorem State.reportCorrected_printUnits (s : State) (c : Nat) (w : Nat) (scrub : Bool) :
    (State.reportCorrected s c w scrub).printUnits = s.printUnits := by
  simp only [State.reportCorrected.eq_def, ↓State.bump_printUnits, ↓State.setFld_printUnits, ↓State.log1_printUnits,
    ↓State.addRecord_printUnits, ↓ite_printUnits, ite_self, ↓State.printUnits_keep]

@[simp] theorem State.latchUe_printUnits (s : State) (a : Nat) (action : Nat) (region : Nat) (c : Nat) (input : Nat)
    (scrub : Bool) :
    (State.latchUe s a action region c input scrub).printUnits = s.printUnits := by
  simp only [State.latchUe.eq_def, ↓State.setFld_printUnits, ↓State.setFlag_printUnits, ↓ite_printUnits, ite_self]

@[simp] theorem State.captureLost_printUnits (s : State) (a : Nat) : (State.captureLost s a).printUnits = s.printUnits := by
  rw [State.captureLost.eq_def]
  repeat' split
  all_goals simp only [↓State.setCam_printUnits]

@[simp] theorem State.setWord_printUnits (s : State) (w : Nat) (bad : Bool) : (State.setWord s w bad).printUnits = s.printUnits := by
  simp only [State.setWord.eq_def, ↓State.printUnits_keep]

@[simp] theorem State.reportLost_printUnits (s : State) (n : Nat) (c : Nat) (input : Nat) (w : Nat) (scrub : Bool) :
    (State.reportLost s n c input w scrub).printUnits = s.printUnits := by
  simp only [State.reportLost.eq_def, ↓State.setFld_printUnits, ↓State.bump_printUnits, ↓State.addRecord_printUnits,
    ↓State.raiseIf_printUnits, ↓State.log1_printUnits, ↓State.latchUe_printUnits, ↓State.captureLost_printUnits, ↓State.setWord_printUnits,
    ↓ite_printUnits, ite_self]

@[simp] theorem State.readWord_printUnits (s : State) (c : Nat) (input : Nat) (w : Nat) (scrub : Bool) :
    (State.readWord s c input w scrub).printUnits = s.printUnits := by
  rw [State.readWord.eq_def] <;> (try simp only [↓State.queueBack_printUnits, ↓State.reportCorrected_printUnits,
      ↓State.reportLost_printUnits, ↓foldl_printUnits, ↓ite_printUnits, ↓dite_printUnits, ↓reduceIte, ite_self, implies_true,
      ↓State.printUnits_keep]) <;> repeat' ((first | split | (rw [foldl_printUnits]; intro s x)) <;> try simp only [↓State.queueBack_printUnits,
      ↓State.reportCorrected_printUnits, ↓State.reportLost_printUnits, ↓foldl_printUnits, ↓ite_printUnits, ↓dite_printUnits, ↓reduceIte, ite_self,
      implies_true, ↓State.printUnits_keep])

@[simp] theorem State.upset_printUnits (s : State) (w : Nat) (sym : Nat) (pat : Nat) :
    (State.upset s w sym pat).printUnits = s.printUnits := by
  simp only [State.upset.eq_def, ↓State.printUnits_keep]

@[simp] theorem State.inject_printUnits (s : State) (at_ : Nat) (n : Nat) : (State.inject s at_ n).printUnits = s.printUnits := by
  rw [State.inject.eq_def]
  repeat' split
  all_goals simp only [↓State.upset_printUnits, ↓State.setFld_printUnits]

@[simp] theorem State.phaseFail_printUnits (s : State) (p : Nat) : (State.phaseFail s p).printUnits = s.printUnits := by
  simp only [State.phaseFail.eq_def, ↓State.setFld_printUnits, ↓State.log1_printUnits, ↓ite_printUnits, ite_self]

theorem execEngineDoze_printUnits (engine : Nat) (s : State) : ∃ t, (execEngineDoze engine s) = .next t ∧ t.printUnits = s.printUnits := by
  exact ⟨_, rfl, by simp only [↓State.bump_printUnits, ↓State.showGated_printUnits, ↓ite_printUnits, ite_self, ↓State.printUnits_keep]⟩

@[simp] theorem State.clearRc_printUnits (s : State) (a : Nat) : (State.clearRc s a).printUnits = s.printUnits := by
  rw [State.clearRc.eq_def]
  repeat' split
  all_goals simp only [↓State.setReg_printUnits]

@[simp] theorem State.latch_printUnits (s : State) (path : Path) (a : Nat) : (State.latch s path a).printUnits = s.printUnits := by
  simp only [State.latch.eq_def, ↓State.printUnits_keep]

@[simp] theorem State.releaseCap_printUnits (s : State) : (State.releaseCap s).printUnits = s.printUnits := by
  simp only [State.releaseCap.eq_def, ↓State.endTask_printUnits, ↓State.setCap_printUnits, ↓ite_printUnits, ite_self]

@[simp] theorem State.readEffect_printUnits (s : State) (path : Path) (a : Nat) :
    (State.readEffect s path a).printUnits = s.printUnits := by
  simp only [State.readEffect.eq_def, ↓State.clearRc_printUnits, ↓State.latch_printUnits, ↓State.setCons_printUnits,
    ↓State.setChan_printUnits, ↓State.setFld_printUnits, ↓State.releaseCap_printUnits, ↓State.chkNext_printUnits, ↓foldl_printUnits, ↓ite_printUnits,
    ite_self, implies_true]

@[simp] theorem State.bar0Read_printUnits (s : State) (a : Nat) : (State.bar0Read s a).printUnits = s.printUnits := by
  simp only [State.bar0Read.eq_def, ↓State.emit_printUnits, ↓State.readEffect_printUnits, ↓ite_printUnits, ite_self]

@[simp] theorem State.readOn_printUnits (s : State) (path : Path) (a : Nat) : (State.readOn s path a).printUnits = s.printUnits := by
  rw [State.readOn.eq_def]
  repeat' split
  all_goals simp only [↓State.bar0Read_printUnits, ↓State.readEffect_printUnits]

@[simp] theorem State.readRange_printUnits (s : State) (a : Nat) (x2 : Nat) : (State.readRange s a x2).2.printUnits = s.printUnits := by
  induction x2 generalizing s a with
  | zero => rfl
  | succ n ih => rw [State.readRange]; exact (ih _ _).trans (State.readOn_printUnits ..)

theorem execReadReg_printUnits (rq : Rq) (addr : Nat) (count : Nat) (s : State) :
    ∃ t, (execReadReg rq addr count s) = .next t ∧ t.printUnits = s.printUnits := by
  exact ⟨_, rfl, by simp only [↓State.runIn_printUnits, ↓State.withParams_printUnits, ↓State.readRange_printUnits, ↓State.finish_printUnits,
    implies_true]⟩

@[simp] theorem State.showStore_printUnits (s : State) : (State.showStore s).printUnits = s.printUnits := by
  simp only [State.showStore.eq_def, ↓State.setFld_printUnits, ↓ite_printUnits, ite_self, ↓State.printUnits_keep]

@[simp] theorem State.calWrite_printUnits (s : State) (kind : Nat) (inst : Nat) (content : List Nat) (calibrated : Bool) :
    (State.calWrite s kind inst content calibrated).printUnits = s.printUnits := by
  simp only [State.calWrite.eq_def, ↓State.showStore_printUnits, ↓State.setCalPair_printUnits]

@[simp] theorem State.calRate_printUnits (s : State) (code : Nat) : (State.calRate s code).printUnits = s.printUnits := by
  simp only [State.calRate.eq_def, ↓State.sendRecord_printUnits, ↓State.calWrite_printUnits]

@[simp] theorem State.setStaged_printUnits (s : State) (op : Nat) (inst : Nat) (x : Staging) :
    (State.setStaged s op inst x).printUnits = s.printUnits := by
  simp only [State.setStaged.eq_def, ↓State.printUnits_keep]

@[simp] theorem State.loadChunk_printUnits (s : State) (rq : Rq) (op : Nat) (limit : Nat) (mayReset : Bool) (c :
    Chunk) (commit : List Byte → List Byte → State → State) (hcommit : ∀ y0 y1 y2, (commit y0 y1 y2).printUnits = y2.printUnits)
    :
    (State.loadChunk s rq op limit mayReset c commit).printUnits = s.printUnits := by
  rw [State.loadChunk.eq_def] <;> (try simp only [↓State.withParams_printUnits, ↓State.badParam_printUnits, ↓State.finish_printUnits,
      ↓State.setStaged_printUnits, ↓foldl_printUnits, ↓ite_printUnits, ↓dite_printUnits, ↓reduceIte, ite_self, implies_true,
      ↓State.printUnits_keep,
      hcommit]) <;> repeat' ((first | (rw [State.withParams_printUnits]; intro s) | split | (rw [foldl_printUnits]; intro s x)) <;> try simp only [↓State.withParams_printUnits,
      ↓State.badParam_printUnits, ↓State.finish_printUnits, ↓State.setStaged_printUnits, ↓foldl_printUnits, ↓ite_printUnits, ↓dite_printUnits,
      ↓reduceIte, ite_self, implies_true, ↓State.printUnits_keep, hcommit])

@[simp] theorem State.loadTable_printUnits (s : State) (rq : Rq) (op : Nat) (limit : Nat) (c : Chunk) (inUse : Bool)
    (discard : State → State) (commit : List Byte → List Byte → State → State) (hdiscard : ∀ y0, (discard y0).printUnits =
    y0.printUnits) (hcommit : ∀ y0 y1 y2, (commit y0 y1 y2).printUnits = y2.printUnits) :
    (State.loadTable s rq op limit c inUse discard commit).printUnits = s.printUnits := by
  simp only [State.loadTable, ite_printUnits, State.finish_printUnits, State.loadChunk_printUnits _ _ _ _ _ _ _ hcommit, hdiscard, ite_self]

@[simp] theorem State.showFom_printUnits (s : State) (l : Nat) (fom : Nat) : (State.showFom s l fom).printUnits = s.printUnits := by
  simp only [State.showFom.eq_def, ↓State.setFld_printUnits, ↓State.setLane_printUnits, ↓ite_printUnits, ite_self]

@[simp] theorem State.makeCrop_printUnits (s : State) (c : Comp) (wanted : Bool) :
    (State.makeCrop s c wanted).2.2.printUnits = s.printUnits := by
  rw [State.makeCrop.eq_def]
  repeat' split
  all_goals simp only [↓State.jigEvent_printUnits, ↓State.bump_printUnits, ↓State.printUnits_keep]

@[simp] theorem State.onLink_printUnits (s : State) (lane : Nat) (blk : List Byte) (act : Nat → Nat → State) (hact : ∀
    y0 y1, (act y0 y1).printUnits = s.printUnits) :
    (State.onLink s lane blk act).printUnits = s.printUnits := by
  rw [State.onLink.eq_def]
  repeat' split
  all_goals simp only [↓State.bump_printUnits, hact]

theorem execLinkAlign_printUnits (lane : Nat) (blk : List Byte) (pos : Nat) (s : State) :
    ∃ t, (execLinkAlign lane blk pos s) = .next t ∧ t.printUnits = s.printUnits := by
  exact ⟨_, rfl, by simp only [↓State.onLink_printUnits, ↓State.setLane_printUnits, ↓ite_printUnits, ite_self, implies_true]⟩

@[simp] theorem State.storePaper_printUnits (s : State) : (State.storePaper s).printUnits = s.printUnits := by
  simp only [State.storePaper.eq_def, ↓State.calWrite_printUnits, ↓State.setCam_printUnits, ↓foldl_printUnits, ↓ite_printUnits, ite_self,
    implies_true]

@[simp] theorem State.showFill_printUnits (s : State) (b : Nat) : (State.showFill s b).printUnits = s.printUnits := by
  simp only [State.showFill.eq_def, ↓State.setFlag_printUnits, ↓State.setFld_printUnits]

@[simp] theorem State.pps_printUnits (s : State) (d : Nat) : (State.pps s d).printUnits = s.printUnits := by
  simp only [State.pps.eq_def, ↓State.raiseIf_printUnits]

@[simp] theorem State.interrupt_printUnits (s : State) (c : Nat) (ticks : Nat) (bank : Option Nat) :
    (State.interrupt s c ticks bank).printUnits = s.printUnits := by
  simp only [State.interrupt.eq_def, ↓State.setFld_printUnits, ↓State.printUnits_keep]

@[simp] theorem State.closeRows_printUnits (s : State) (c : Nat) (bank : Option Nat) :
    (State.closeRows s c bank).printUnits = s.printUnits := by
  simp only [State.closeRows.eq_def, ↓State.printUnits_keep]

@[simp] theorem State.targetRefresh_printUnits (s : State) (c : Nat) (bank : Nat) :
    (State.targetRefresh s c bank).printUnits = s.printUnits := by
  simp only [State.targetRefresh.eq_def, ↓State.bump_printUnits, ↓State.interrupt_printUnits, ↓State.closeRows_printUnits]

@[simp] theorem State.targetDue_printUnits (s : State) (e : Nat × Nat × Nat) : (State.targetDue s e).printUnits = s.printUnits := by
  simp only [State.targetDue.eq_def, ↓State.targetRefresh_printUnits, ↓ite_printUnits, ite_self, ↓State.printUnits_keep]

@[simp] theorem State.targetsTick_printUnits (s : State) : (State.targetsTick s).printUnits = s.printUnits := by
  simp only [State.targetsTick.eq_def, ↓State.targetDue_printUnits, ↓foldl_printUnits, implies_true]

@[simp] theorem State.axStart_printUnits (s : State) (a : Nat) (st : Nat) (target : Int) (speed : Nat) :
    (State.axStart s a st target speed).printUnits = s.printUnits := by
  simp only [State.axStart.eq_def, ↓State.setFld_printUnits, ↓State.setAxis_printUnits, ↓State.axEnter_printUnits, ↓State.axPlan_printUnits]

@[simp] theorem State.verifySlot_printUnits (s : State) (bad : List Nat) (b : Bool) :
    (State.verifySlot s bad b).2.printUnits = s.printUnits := by
  rw [State.verifySlot.eq_def]
  repeat' split
  all_goals simp only [↓State.log1_printUnits, ↓State.setFld_printUnits]

@[simp] theorem State.lockFree_printUnits (s : State) (k : Nat) : (State.lockFree s k).printUnits = s.printUnits := by
  simp only [State.lockFree.eq_def, ↓State.lockPass_printUnits]

theorem execLockRelease_printUnits (rq : Rq) (lock : Nat) (s : State) :
    ∃ t, (execLockRelease rq lock s) = .next t ∧ t.printUnits = s.printUnits := by
  exact ⟨_, rfl, by simp only [↓State.run_printUnits, ↓State.withParams_printUnits, ↓State.finish_printUnits, ↓State.lockFree_printUnits,
    ↓ite_printUnits, ite_self, implies_true]⟩

@[simp] theorem State.restoreLog_printUnits (s : State) : (State.restoreLog s).printUnits = s.printUnits := by
  simp only [State.restoreLog.eq_def, ↓State.printUnits_keep]

@[simp] theorem State.keepSupply_printUnits (s t : State) : (s.keepSupply t).printUnits = t.printUnits := by
  simp only [State.keepSupply]
  rw [State.printUnits_keep]
  exact foldl_printUnits _ (fun s f => State.setFld_printUnits ..) _ _

@[simp] theorem State.runSlot_printUnits (s : State) (b : Bool) : (State.runSlot s b).printUnits = s.printUnits := by
  simp only [State.runSlot.eq_def, ↓State.setFlag_printUnits, ↓State.setFld_printUnits]

@[simp] theorem State.bootImage_printUnits (s : State) (bad : List Nat) : (State.bootImage s bad).2.printUnits = s.printUnits := by
  rw [State.bootImage.eq_def] <;> (try simp only [↓State.verifySlot_printUnits, ↓State.runSlot_printUnits, ↓State.setFld_printUnits,
      ↓foldl_printUnits, ↓ite_printUnits, ↓dite_printUnits, ↓reduceIte, ite_self, implies_true,
      ↓State.printUnits_keep]) <;> repeat' ((first | split | (rw [foldl_printUnits]; intro s x)) <;> try simp only [↓State.verifySlot_printUnits,
      ↓State.runSlot_printUnits, ↓State.setFld_printUnits, ↓foldl_printUnits, ↓ite_printUnits, ↓dite_printUnits, ↓reduceIte, ite_self,
      implies_true, ↓State.printUnits_keep])

@[simp] theorem State.bootStep_printUnits (s : State) (n : Nat) : (State.bootStep s n).printUnits = s.printUnits := by
  simp only [State.bootStep.eq_def, ↓State.setFld_printUnits]

@[simp] theorem State.followStop_printUnits (s : State) (a : Nat) : (State.followStop s a).printUnits = s.printUnits := by
  simp only [State.followStop.eq_def, ↓State.setAxis_printUnits, ↓State.axSettle_printUnits, ↓State.setFld_printUnits]

@[simp] theorem State.axEstop_printUnits (s : State) (a : Nat) : (State.axEstop s a).printUnits = s.printUnits := by
  rw [State.axEstop.eq_def]
  repeat' split
  all_goals simp only [↓State.followStop_printUnits, ↓State.axRamp_printUnits]

@[simp] theorem State.copyLog_printUnits (s : State) : (State.copyLog s).printUnits = s.printUnits := by
  simp only [State.copyLog.eq_def, ↓State.printUnits_keep]

@[simp] theorem State.failExecuting_printUnits (s : State) (entry : Nat) : (State.failExecuting s entry).printUnits = s.printUnits := by
  simp only [State.failExecuting.eq_def, ↓State.finishSlot_printUnits, ↓State.setFld_printUnits, ↓foldl_printUnits, implies_true,
    ↓State.printUnits_keep]

@[simp] theorem State.setCluster_printUnits (s : State) (c : Nat) (x : Cluster) : (State.setCluster s c x).printUnits = s.printUnits := by
  simp only [State.setCluster.eq_def, ↓State.printUnits_keep]

@[simp] theorem State.tookOver_printUnits (s : State) (c : Nat) (slot : Nat) (phys : Nat) (cause : Nat) :
    (State.tookOver s c slot phys cause).printUnits = s.printUnits := by
  simp only [State.tookOver.eq_def, ↓State.bump_printUnits, ↓State.setCluster_printUnits, ↓State.setFld_printUnits,
    ↓State.raiseIf_printUnits, ↓State.log1_printUnits]

@[simp] theorem State.spareTakes_printUnits (s : State) (c : Nat) (slot : Nat) (cause : Nat) :
    (State.spareTakes s c slot cause).printUnits = s.printUnits := by
  simp only [State.spareTakes.eq_def, ↓State.setCluster_printUnits, ↓State.showGated_printUnits, ↓State.tookOver_printUnits,
    ↓State.nextRotation_printUnits, ↓ite_printUnits, ite_self]

@[simp] theorem State.spareExhausted_printUnits (s : State) (c : Nat) (slot : Nat) :
    (State.spareExhausted s c slot).printUnits = s.printUnits := by
  simp only [State.spareExhausted.eq_def, ↓State.setCluster_printUnits, ↓State.log1_printUnits, ↓State.setFld_printUnits,
    ↓State.showGated_printUnits]

@[simp] theorem State.selfTestFail_printUnits (s : State) (e : Nat) : (State.selfTestFail s e).printUnits = s.printUnits := by
  simp only [State.selfTestFail.eq_def, ↓State.log1_printUnits, ↓State.setCluster_printUnits, ↓State.spareTakes_printUnits,
    ↓State.spareExhausted_printUnits, ↓ite_printUnits, ite_self]

@[simp] theorem State.selfTest_printUnits (s : State) (failed : List Nat) : (State.selfTest s failed).printUnits = s.printUnits := by
  simp only [State.selfTest.eq_def, ↓State.selfTestFail_printUnits, ↓foldl_printUnits, implies_true]

@[simp] theorem State.readStore_printUnits (s : State) : (State.readStore s).printUnits = s.printUnits := by
  simp only [State.readStore.eq_def, ↓State.calVerify_printUnits, ↓foldl_printUnits, implies_true]

@[simp] theorem State.bootEnd_printUnits (s : State) (ms : Nat) : (State.bootEnd s ms).printUnits = s.printUnits := by
  simp only [State.bootEnd.eq_def, ↓State.setFld_printUnits, ↓State.bootStep_printUnits, ↓State.enter_printUnits, ↓ite_printUnits, ite_self]

@[simp] theorem State.ptpHold_printUnits (s : State) (port : Nat) (m : PtpMsg) : (State.ptpHold s port m).printUnits = s.printUnits := by
  rw [State.ptpHold.eq_def]
  repeat' split
  all_goals simp only [↓State.printUnits_keep]

@[simp] theorem State.targeted_printUnits (s : State) (c : Nat) (input : Nat) (p : Nat × Nat × Nat) :
    (State.targeted s c input p).printUnits = s.printUnits := by
  simp only [State.targeted.eq_def, ↓State.targetRefresh_printUnits, ↓ite_printUnits, ite_self, ↓State.printUnits_keep]

@[simp] theorem State.showThrottle_printUnits (s : State) (c : Nat) : (State.showThrottle s c).printUnits = s.printUnits := by
  rw [State.showThrottle.eq_def]
  repeat' split
  all_goals simp only [↓State.setFld_printUnits]

@[simp] theorem State.throttleEvent_printUnits (s : State) (c : Nat) (input : Nat) (p : Nat × Nat × Nat) :
    (State.throttleEvent s c input p).printUnits = s.printUnits := by
  simp only [State.throttleEvent.eq_def, ↓State.setFld_printUnits, ↓State.bump_printUnits, ↓State.log1_printUnits,
    ↓State.targeted_printUnits, ↓State.showThrottle_printUnits, ↓ite_printUnits, ite_self, ↓State.printUnits_keep]

@[simp] theorem countKib_printUnits (s : State) (f : Fld) (rest : Nat) (n : Nat) : (countKib s f rest n).2.printUnits = s.printUnits := by
  simp only [countKib.eq_def, ↓State.bump_printUnits]

theorem execNozzleStateRead_printUnits (rq : Rq) (first : Nat) (count : Nat) (s : State) :
    ∃ t, (execNozzleStateRead rq first count s) = .next t ∧ t.printUnits = s.printUnits := by
  exact ⟨_, rfl, by simp only [↓State.run_printUnits, ↓State.withParams_printUnits, ↓State.finish_printUnits, implies_true]⟩

theorem execMsixUnmask_printUnits (vector : Nat) (s : State) : ∃ t, (execMsixUnmask vector s) = .next t ∧ t.printUnits = s.printUnits := by
  exact ⟨_, rfl, by simp only [↓State.emit_printUnits, ↓ite_printUnits, ite_self, ↓State.printUnits_keep]⟩

theorem execChkDataRead_printUnits (path : Path) (unit : Nat) (s : State) :
    ∃ t, (execChkDataRead path unit s) = .next t ∧ t.printUnits = s.printUnits := by
  exact ⟨_, rfl, by simp only [↓State.readOn_printUnits, ↓ite_printUnits, ite_self]⟩

@[simp] theorem State.ethDown_printUnits (s : State) (p : Nat) : (State.ethDown s p).printUnits = s.printUnits := by
  simp only [State.ethDown.eq_def, ↓State.setFld_printUnits]

@[simp] theorem State.ethChange_printUnits (s : State) : (State.ethChange s).printUnits = s.printUnits := by
  simp only [State.ethChange.eq_def, ↓State.ethDown_printUnits, ↓foldl_printUnits, ↓ite_printUnits, ite_self, implies_true]

@[simp] theorem State.camerasDeep_printUnits (s : State) : (State.camerasDeep s).printUnits = s.printUnits := by
  simp only [State.camerasDeep.eq_def, ↓State.setCam_printUnits, ↓State.closeFrame_printUnits, ↓foldl_printUnits, ↓ite_printUnits, ite_self,
    implies_true]

@[simp] theorem State.draw_printUnits (s : State) : (State.draw s).2.printUnits = s.printUnits := by
  simp only [State.draw.eq_def, ↓State.printUnits_keep]

@[simp] theorem State.maskAll_printUnits (s : State) (v : Nat) : (State.maskAll s v).printUnits = s.printUnits := by
  simp only [State.maskAll.eq_def, ↓State.setFld_printUnits, ↓foldl_printUnits, implies_true, ↓State.printUnits_keep]

@[simp] theorem State.leaveSelfRefresh_printUnits (s : State) (c : Nat) : (State.leaveSelfRefresh s c).printUnits = s.printUnits := by
  simp only [State.leaveSelfRefresh.eq_def, ↓State.interrupt_printUnits, ↓State.setFld_printUnits, ↓ite_printUnits, ite_self]

@[simp] theorem State.dramDeep_printUnits (s : State) (enter : Bool) : (State.dramDeep s enter).printUnits = s.printUnits := by
  simp only [State.dramDeep.eq_def, ↓State.setFld_printUnits, ↓State.closeRows_printUnits, ↓State.leaveSelfRefresh_printUnits,
    ↓foldl_printUnits, ↓ite_printUnits, ite_self, implies_true]

@[simp] theorem State.sourcesDeep_printUnits (s : State) : (State.sourcesDeep s).printUnits = s.printUnits := by
  simp only [State.sourcesDeep.eq_def, ↓State.sourceGone_printUnits, ↓foldl_printUnits, ↓ite_printUnits, ite_self, implies_true]

theorem execEngineLockRelease_printUnits (engine : Nat) (lock : Nat) (s : State) :
    ∃ t, (execEngineLockRelease engine lock s) = .next t ∧ t.printUnits = s.printUnits := by
  exact ⟨_, rfl, by simp only [↓State.tellEngine_printUnits, ↓State.lockFree_printUnits, ↓ite_printUnits, ite_self]⟩

theorem execAxisEstop_printUnits (axis : Nat) (s : State) : ∃ t, (execAxisEstop axis s) = .next t ∧ t.printUnits = s.printUnits := by
  exact ⟨_, rfl, by simp only [↓State.axEstop_printUnits, ↓State.endTask_printUnits, ↓State.setAxis_printUnits, ↓ite_printUnits, ite_self]⟩

@[simp] theorem State.setRsmp_printUnits (s : State) (r : Nat) (x : Rsmp) : (State.setRsmp s r x).printUnits = s.printUnits := by
  simp only [State.setRsmp.eq_def, ↓State.printUnits_keep]

theorem execResampleCoefLoad_printUnits (rq : Rq) (chunk : Chunk) (s : State) :
    ∃ t, (execResampleCoefLoad rq chunk s) = .next t ∧ t.printUnits = s.printUnits := by
  rw [execResampleCoefLoad.eq_def]
  repeat' split
  all_goals refine ⟨_, rfl, ?_⟩
  all_goals (try simp only [↓State.run_printUnits, ↓State.finish_printUnits, ↓State.loadTable_printUnits, ↓State.setFld_printUnits,
      ↓State.reject_printUnits, ↓State.setRsmp_printUnits, ↓State.rsmpSwap_printUnits, ↓foldl_printUnits, ↓ite_printUnits, ↓dite_printUnits, ↓reduceIte,
      ite_self, implies_true, ↓State.printUnits_keep])
  all_goals repeat' ((first | (rw [State.loadTable_printUnits] <;> [(intro s); (intro t rep s)]) | (rw [State.run_printUnits]; intro s) | split | (rw [foldl_printUnits]; intro s x)) <;> try simp only [↓State.run_printUnits,
      ↓State.finish_printUnits, ↓State.loadTable_printUnits, ↓State.setFld_printUnits, ↓State.reject_printUnits, ↓State.setRsmp_printUnits,
      ↓State.rsmpSwap_printUnits, ↓foldl_printUnits, ↓ite_printUnits, ↓dite_printUnits, ↓reduceIte, ite_self, implies_true,
      ↓State.printUnits_keep])

theorem execChainStatus_printUnits (rq : Rq) (s : State) : ∃ t, (execChainStatus rq s) = .next t ∧ t.printUnits = s.printUnits := by
  exact ⟨_, rfl, by simp only [↓State.run_printUnits, ↓State.withParams_printUnits, ↓State.finish_printUnits, implies_true]⟩

@[simp] theorem State.recSignal_printUnits (s : State) (r : Nat) : (State.recSignal s r).printUnits = s.printUnits := by
  simp only [State.recSignal.eq_def, ↓State.setRecRing_printUnits, ↓State.msixSignal_printUnits, ↓ite_printUnits, ite_self]

@[simp] theorem State.keepFloor_printUnits (s : State) : (State.keepFloor s).printUnits = s.printUnits := by
  simp only [State.keepFloor.eq_def, ↓ite_printUnits, ite_self, ↓State.printUnits_keep]

@[simp] theorem State.newWindow_printUnits (s : State) (c : Nat) : (State.newWindow s c).printUnits = s.printUnits := by
  simp only [State.newWindow.eq_def, ↓ite_printUnits, ite_self, ↓State.printUnits_keep]

@[simp] theorem State.activate_printUnits (s : State) (c : Nat) (input : Nat) (p : Nat × Nat × Nat) :
    (State.activate s c input p).printUnits = s.printUnits := by
  simp only [State.activate.eq_def, ↓State.newWindow_printUnits, ↓State.throttleEvent_printUnits, ↓ite_printUnits, ite_self,
    ↓State.printUnits_keep]

@[simp] theorem State.showNozzles_printUnits (s : State) : (State.showNozzles s).printUnits = s.printUnits := by
  simp only [State.showNozzles.eq_def, ↓State.setFld_printUnits]

@[simp] theorem State.mendC1_printUnits (s : State) : (State.mendC1 s).printUnits = s.printUnits := by
  simp only [State.mendC1.eq_def, ↓State.mend_printUnits, ↓ite_printUnits, ite_self]

@[simp] theorem State.tellClosed_printUnits (s : State) (n : Nat) : (State.tellClosed s n).printUnits = s.printUnits := by
  simp only [State.tellClosed.eq_def, ↓State.chainTo_printUnits, ↓foldl_printUnits, implies_true]

@[simp] theorem State.lockKeep_printUnits (s : State) (k : Nat) (ws : List LockWait) :
    (State.lockKeep s k ws).printUnits = s.printUnits := by
  simp only [State.lockKeep.eq_def, ↓State.setLock_printUnits]

@[simp] theorem State.locksOfBreak_printUnits (s : State) (engine : Bool) (client : Nat) :
    (State.locksOfBreak s engine client).printUnits = s.printUnits := by
  simp only [State.locksOfBreak.eq_def, ↓State.lockKeep_printUnits, ↓State.lockBreak_printUnits, ↓foldl_printUnits, ↓ite_printUnits,
    ite_self, implies_true]

@[simp] theorem State.showOpen_printUnits (s : State) (n : Nat) (op : Bool) : (State.showOpen s n op).printUnits = s.printUnits := by
  simp only [State.showOpen.eq_def, ↓State.setFld_printUnits]

@[simp] theorem State.withdrawRing_printUnits (s : State) (r : Nat) : (State.withdrawRing s r).printUnits = s.printUnits := by
  simp only [State.withdrawRing.eq_def, ↓State.mendC1_printUnits, ↓State.setRecRing_printUnits]

@[simp] theorem State.linkGone_printUnits (s : State) : (State.linkGone s).printUnits = s.printUnits := by
  simp only [State.linkGone.eq_def, ↓State.setFld_printUnits]

theorem execRecordDeliver_printUnits (ring : Nat) (s : State) :
    ∃ t, (execRecordDeliver ring s) = .next t ∧ t.printUnits = s.printUnits := by
  rw [execRecordDeliver.eq_def]
  repeat' split
  all_goals refine ⟨_, rfl, ?_⟩
  all_goals (try simp only [↓State.emit_printUnits, ↓State.recSignal_printUnits, ↓State.setRecRing_printUnits, ↓foldl_printUnits, ↓ite_printUnits,
      ↓dite_printUnits, ↓reduceIte, ite_self, implies_true, ↓State.printUnits_keep])
  all_goals repeat' ((first | split | (rw [foldl_printUnits]; intro s x)) <;> try simp only [↓State.emit_printUnits,
      ↓State.recSignal_printUnits, ↓State.setRecRing_printUnits, ↓foldl_printUnits, ↓ite_printUnits, ↓dite_printUnits, ↓reduceIte, ite_self,
      implies_true, ↓State.printUnits_keep])

@[simp] theorem State.setAxPlace_printUnits (s : State) (a : Nat) (q : Int) : (State.setAxPlace s a q).printUnits = s.printUnits := by
  simp only [State.setAxPlace.eq_def, ↓State.setAxis_printUnits, ↓State.setAxPos_printUnits]

@[simp] theorem State.axStand_printUnits (s : State) (a : Nat) : (State.axStand s a).printUnits = s.printUnits := by
  simp only [State.axStand.eq_def, ↓State.axAnswer_printUnits, ↓State.axEvent_printUnits, ↓State.axEnter_printUnits,
    ↓State.endTask_printUnits, ↓State.axSettle_printUnits, ↓ite_printUnits, ite_self]

@[simp] theorem State.axAdvance_printUnits (s : State) (a : Nat) (p : AxisPlan) : (State.axAdvance s a p).printUnits = s.printUnits := by
  simp only [State.axAdvance.eq_def, ↓State.setAxPlace_printUnits, ↓State.setAxis_printUnits, ↓State.axStand_printUnits, ↓ite_printUnits,
    ite_self]

@[simp] theorem State.readMem_printUnits (s : State) (input : Nat) (a : Nat) (n : Nat) :
    (State.readMem s input a n).printUnits = s.printUnits := by
  simp only [State.readMem.eq_def, ↓State.readWord_printUnits, ↓foldl_printUnits, implies_true]

@[simp] theorem State.readLine_printUnits (s : State) (n : Nat) (c : Nat) (w : Nat) :
    (State.readLine s n c w).printUnits = s.printUnits := by
  rw [State.readLine.eq_def]
  repeat' split
  all_goals simp only [↓State.readMem_printUnits]

@[simp] theorem State.takeoverFail_printUnits (s : State) (g : Nat) : (State.takeoverFail s g).printUnits = s.printUnits := by
  simp only [State.takeoverFail.eq_def, ↓State.setLaneGrp_printUnits, ↓State.setFld_printUnits, ↓State.bump_printUnits]

theorem execTakeoverTimeout_printUnits (group : Nat) (s : State) :
    ∃ t, (execTakeoverTimeout group s) = .next t ∧ t.printUnits = s.printUnits := by
  exact ⟨_, rfl, by simp only [↓State.takeoverFail_printUnits, ↓ite_printUnits, ite_self]⟩

theorem execTscapRelease_printUnits (path : Path) (s : State) : ∃ t, (execTscapRelease path s) = .next t ∧ t.printUnits = s.printUnits := by
  exact ⟨_, rfl, by simp only [↓State.readOn_printUnits]⟩

@[simp] theorem State.openReply_printUnits (s : State) (ip : Nat) (port : Nat) (rq : Rq) (status : Nat) (payload :
    List Byte) :
    (State.openReply s ip port rq status payload).printUnits = s.printUnits := by
  simp only [State.openReply.eq_def, ↓State.respond_printUnits, ↓ite_printUnits, ite_self]

@[simp] theorem State.openBad_printUnits (s : State) (ip : Nat) (port : Nat) (rq : Rq) (o : Nat) :
    (State.openBad s ip port rq o).printUnits = s.printUnits := by
  simp only [State.openBad.eq_def, ↓State.openReply_printUnits]

@[simp] theorem State.endMaint_printUnits (s : State) : (State.endMaint s).printUnits = s.printUnits := by
  simp only [State.endMaint.eq_def, ↓State.setFld_printUnits, ↓foldl_printUnits, implies_true, ↓State.printUnits_keep]

theorem execCameraSetTransfer_printUnits (port : Nat) (s : State) :
    ∃ t, (execCameraSetTransfer port s) = .next t ∧ t.printUnits = s.printUnits := by
  rw [execCameraSetTransfer.eq_def]
  refine ⟨_, rfl, ?_⟩
  repeat' split
  all_goals simp only [↓State.setFld_printUnits, ↓State.emit_printUnits, ↓State.setCam_printUnits]

theorem execChainStandbyEntry_printUnits (s : State) : ∃ t, (execChainStandbyEntry s) = .next t ∧ t.printUnits = s.printUnits := by
  exact ⟨_, rfl, by simp only [↓State.enter_printUnits, ↓ite_printUnits, ite_self]⟩

@[simp] theorem State.pend_printUnits (s : State) (rq : Rq) (op : Nat) : (State.pend s rq op).printUnits = s.printUnits := by
  simp only [State.pend.eq_def, ↓State.setSlot_printUnits, ↓ite_printUnits, ite_self]

theorem execAxisStop_printUnits (rq : Rq) (axis : Nat) (ramp : Nat) (s : State) :
    ∃ t, (execAxisStop rq axis ramp s) = .next t ∧ t.printUnits = s.printUnits := by
  rw [execAxisStop.eq_def]
  repeat' split
  all_goals refine ⟨_, rfl, ?_⟩
  all_goals (try simp only [↓State.run_printUnits, ↓State.withParams_printUnits, ↓State.followStop_printUnits, ↓State.finish_printUnits,
      ↓State.axRamp_printUnits, ↓State.axEnter_printUnits, ↓State.pend_printUnits, ↓State.setAxis_printUnits, ↓foldl_printUnits, ↓ite_printUnits,
      ↓dite_printUnits, ↓reduceIte, ite_self, implies_true, ↓State.printUnits_keep])
  all_goals repeat' ((first | (rw [State.withParams_printUnits]; intro s) | (rw [State.run_printUnits]; intro s) | split | (rw [foldl_printUnits]; intro s x)) <;> try simp only [↓State.run_printUnits,
      ↓State.withParams_printUnits, ↓State.followStop_printUnits, ↓State.finish_printUnits, ↓State.axRamp_printUnits, ↓State.axEnter_printUnits,
      ↓State.pend_printUnits, ↓State.setAxis_printUnits, ↓foldl_printUnits, ↓ite_printUnits, ↓dite_printUnits, ↓reduceIte, ite_self, implies_true,
      ↓State.printUnits_keep])

@[simp] theorem State.kalEvent_printUnits (s : State) (p : Nat) (bit : Nat) (f : Fld) (prod : Nat) :
    (State.kalEvent s p bit f prod).printUnits = s.printUnits := by
  simp only [State.kalEvent.eq_def, ↓State.raiseIf_printUnits, ↓State.setFld_printUnits]

@[simp] theorem State.setPaper_printUnits (s : State) (n : Nat) (row : Nat) (x : Nat) (v : Int) :
    (State.setPaper s n row x v).printUnits = s.printUnits := by
  simp only [State.setPaper.eq_def, ↓State.setCam_printUnits, ↓State.kalEvent_printUnits, ↓ite_printUnits, ite_self]

@[simp] theorem State.paperSample_printUnits (s : State) (n : Nat) (alpha : Nat) (row : Nat) (x : Nat) (u : Int) :
    (State.paperSample s n alpha row x u).printUnits = s.printUnits := by
  simp only [State.paperSample.eq_def, ↓State.setCam_printUnits, ↓State.setPaper_printUnits, ↓ite_printUnits, ite_self]

@[simp] theorem State.paperColumn_printUnits (s : State) (n : Nat) (k : KalSet) (us : List (List Int)) (x : Nat) :
    (State.paperColumn s n k us x).printUnits = s.printUnits := by
  simp only [State.paperColumn.eq_def, ↓State.paperSample_printUnits, ↓foldl_printUnits, ↓ite_printUnits, ite_self, implies_true]

@[simp] theorem State.testPair_printUnits (s : State) : (State.testPair s).printUnits = s.printUnits := by
  simp only [State.testPair.eq_def, ↓State.setFld_printUnits, ↓State.printUnits_keep]

@[simp] theorem State.recordQuota_printUnits (s : State) : (State.recordQuota s).2.printUnits = s.printUnits := by
  simp only [State.recordQuota.eq_def, ↓State.printUnits_keep]

@[simp] theorem State.markDelivered_printUnits (s : State) (sess : Nat) (tag : Nat) :
    (State.markDelivered s sess tag).printUnits = s.printUnits := by
  simp only [State.markDelivered.eq_def, ↓State.setSlot_printUnits, ↓ite_printUnits, ite_self]

@[simp] theorem State.fetch_printUnits (s : State) (sess : Nat) (tag : Nat) (echo : Reply) :
    (State.fetch s sess tag echo).printUnits = s.printUnits := by
  simp only [State.fetch.eq_def, ↓State.markDelivered_printUnits, ↓State.deliver_printUnits]

@[simp] theorem State.swapPairs_printUnits (s : State) : (State.swapPairs s).printUnits = s.printUnits := by
  simp only [State.swapPairs.eq_def, ↓State.setFld_printUnits]

@[simp] theorem State.setOldKernels_printUnits (s : State) (old : Bool) : (State.setOldKernels s old).printUnits = s.printUnits := by
  simp only [State.setOldKernels.eq_def, ↓State.setCluster_printUnits, ↓foldl_printUnits, implies_true]

@[simp] theorem State.fallBack_printUnits (s : State) : (State.fallBack s).printUnits = s.printUnits := by
  simp only [State.fallBack.eq_def, ↓State.setFld_printUnits, ↓State.setOldKernels_printUnits, ↓State.runSlot_printUnits, ↓ite_printUnits,
    ite_self]

@[simp] theorem State.pairOver_printUnits (s : State) : (State.pairOver s).printUnits = s.printUnits := by
  simp only [State.pairOver.eq_def, ↓State.testPair_printUnits, ↓State.swapPairs_printUnits, ↓State.setFld_printUnits,
    ↓State.bump_printUnits, ↓State.fallBack_printUnits]

@[simp] theorem State.pairTick_printUnits (s : State) : (State.pairTick s).printUnits = s.printUnits := by
  simp only [State.pairTick.eq_def, ↓State.pairOver_printUnits, ↓State.setFld_printUnits, ↓ite_printUnits, ite_self]

@[simp] theorem State.speedTick_printUnits (s : State) (e : Nat) : (State.speedTick s e).printUnits = s.printUnits := by
  simp only [State.speedTick.eq_def, ↓State.setSpeed_printUnits, ↓State.setFld_printUnits, ↓ite_printUnits, ite_self]

@[simp] theorem State.timeEvent_printUnits (s : State) (bit : Nat) : (State.timeEvent s bit).printUnits = s.printUnits := by
  simp only [State.timeEvent.eq_def, ↓State.raiseIf_printUnits]

@[simp] theorem State.periodicTick_printUnits (before : Clock) (s : State) (p : Nat) :
    (State.periodicTick before s p).printUnits = s.printUnits := by
  simp only [State.periodicTick.eq_def, ↓State.timeEvent_printUnits, ↓ite_printUnits, ite_self]

@[simp] theorem State.alarmFired_printUnits (s : State) (d : Nat) : (State.alarmFired s d).printUnits = s.printUnits := by
  simp only [State.alarmFired.eq_def, ↓State.timeEvent_printUnits, ↓State.setFld_printUnits, ↓ite_printUnits, ite_self]

@[simp] theorem State.tickDomain_printUnits (s : State) (d : Nat) : (State.tickDomain s d).printUnits = s.printUnits := by
  simp only [State.tickDomain.eq_def, ↓State.setClock_printUnits, ↓State.pps_printUnits, ↓ite_printUnits, ite_self]

@[simp] theorem State.setResid_printUnits (s : State) (r : Int) : (State.setResid s r).printUnits = s.printUnits := by
  simp only [State.setResid.eq_def, ↓State.setFlag_printUnits, ↓State.printUnits_keep]

@[simp] theorem State.countTick_printUnits (s : State) : (State.countTick s).printUnits = s.printUnits := by
  simp only [State.countTick.eq_def, ↓State.tickDomain_printUnits, ↓State.setResid_printUnits]

@[simp] theorem State.timeTick_printUnits (s : State) : (State.timeTick s).printUnits = s.printUnits := by
  simp only [State.timeTick.eq_def, ↓State.periodicTick_printUnits, ↓State.alarmFired_printUnits, ↓State.countTick_printUnits,
    ↓foldl_printUnits, implies_true]

@[simp] theorem State.lanesTick_printUnits (s : State) : (State.lanesTick s).printUnits = s.printUnits := by
  rw [State.lanesTick.eq_def] <;> (try simp only [↓State.laneAsk_printUnits, ↓foldl_printUnits, ↓ite_printUnits, ↓dite_printUnits,
      ↓reduceIte, ite_self, implies_true,
      ↓State.printUnits_keep]) <;> repeat' ((first | split | (rw [foldl_printUnits]; intro s x)) <;> try simp only [↓State.laneAsk_printUnits,
      ↓foldl_printUnits, ↓ite_printUnits, ↓dite_printUnits, ↓reduceIte, ite_self, implies_true, ↓State.printUnits_keep])

@[simp] theorem State.setArb_printUnits (s : State) (net : Bool) (n : Nat) (a : Arb) :
    (State.setArb s net n a).printUnits = s.printUnits := by
  simp only [State.setArb.eq_def, ↓State.printUnits_keep]

@[simp] theorem State.countTaken_printUnits (s : State) (n : Nat) : (State.countTaken s n).printUnits = s.printUnits := by
  simp only [State.countTaken.eq_def, ↓State.bumpWrap_printUnits, ↓ite_printUnits, ite_self, ↓State.printUnits_keep]

@[simp] theorem State.takeTables_printUnits (s : State) (n : Nat) : (State.takeTables s n).printUnits = s.printUnits := by
  simp only [State.takeTables.eq_def, ↓State.showTabPend_printUnits, ↓State.countTaken_printUnits, ↓State.setCam_printUnits,
    ↓ite_printUnits, ite_self]

@[simp] theorem State.deviation_printUnits (s : State) (n : Nat) (count : Fld) : (State.deviation s n count).printUnits = s.printUnits := by
  simp only [State.deviation.eq_def, ↓State.kalEvent_printUnits, ↓State.bump_printUnits]

@[simp] theorem State.openFrame_printUnits (s : State) (n : Nat) (overlong : Bool) :
    (State.openFrame s n overlong).printUnits = s.printUnits := by
  simp only [State.openFrame.eq_def, ↓State.takeTables_printUnits, ↓State.setCam_printUnits, ↓State.setFld_printUnits,
    ↓State.kalEvent_printUnits, ↓State.deviation_printUnits, ↓ite_printUnits, ite_self]

@[simp] theorem State.countPairFault_printUnits (s : State) (cause : Nat) : (State.countPairFault s cause).printUnits = s.printUnits := by
  rw [State.countPairFault.eq_def]
  repeat' split
  all_goals simp only [↓State.bump_printUnits]

theorem execBarDelaySet_printUnits (rq : Rq) (bar : Nat) (delay : Nat) (s : State) :
    ∃ t, (execBarDelaySet rq bar delay s) = .next t ∧ t.printUnits = s.printUnits := by
  exact ⟨_, rfl, by simp only [↓State.run_printUnits, ↓State.withParams_printUnits, ↓State.finish_printUnits, ↓State.setFld_printUnits,
    implies_true]⟩

theorem execSpareTakeover_printUnits (engine : Nat) (cause : Nat) (blank : Bool) (s : State) :
    ∃ t, (execSpareTakeover engine cause blank s) = .next t ∧ t.printUnits = s.printUnits := by
  exact ⟨_, rfl, by simp only [↓State.bump_printUnits, ↓State.locksOfBreak_printUnits, ↓State.spareTakes_printUnits,
    ↓State.spareExhausted_printUnits, ↓ite_printUnits, ite_self, ↓State.printUnits_keep]⟩

@[simp] theorem State.setInc_printUnits (s : State) (d : Nat) (inc : Nat) : (State.setInc s d inc).printUnits = s.printUnits := by
  simp only [State.setInc.eq_def, ↓State.setFld_printUnits]

@[simp] theorem State.stepDom_printUnits (s : State) (d : Nat) (ns : Int) : (State.stepDom s d ns).printUnits = s.printUnits := by
  simp only [State.stepDom.eq_def, ↓State.bump_printUnits, ↓State.setClock_printUnits]

@[simp] theorem State.measurement_printUnits (s : State) (d : Nat) (offset : Int) :
    (State.measurement s d offset).printUnits = s.printUnits := by
  simp only [State.measurement.eq_def, ↓State.setFldI_printUnits, ↓State.stepDom_printUnits, ↓State.setInc_printUnits,
    ↓State.setClock_printUnits, ↓State.setFld_printUnits, ↓State.lockLost_printUnits, ↓ite_printUnits, ite_self]

@[simp] theorem State.sourceHeard_printUnits (s : State) (d : Nat) : (State.sourceHeard s d).printUnits = s.printUnits := by
  simp only [State.sourceHeard.eq_def, ↓State.hostLocked_printUnits, ↓State.setFld_printUnits, ↓ite_printUnits, ite_self]

@[simp] theorem State.ringTime_printUnits (s : State) (u : Int) : (State.ringTime s u).printUnits = s.printUnits := by
  simp only [State.ringTime.eq_def, ↓State.setClock_printUnits, ↓State.measurement_printUnits, ↓State.sourceHeard_printUnits,
    ↓foldl_printUnits, ↓ite_printUnits, ite_self, implies_true, ↓State.printUnits_keep]

@[simp] theorem State.chatterFail_printUnits (s : State) (a : Nat) : (State.chatterFail s a).printUnits = s.printUnits := by
  simp only [State.chatterFail.eq_def, ↓State.setFld_printUnits, ↓State.log1_printUnits, ↓State.axRamp_printUnits,
    ↓State.homeUndone_printUnits, ↓State.axEnter_printUnits, ↓State.setAxis_printUnits]

theorem execSwitchRawEdge_printUnits (sw : Nat) (level : Bool) (s : State) :
    ∃ t, (execSwitchRawEdge sw level s) = .next t ∧ t.printUnits = s.printUnits := by
  exact ⟨_, rfl, by simp only [↓State.setAxis_printUnits, ↓State.chatterFail_printUnits, ↓foldl_printUnits, ↓ite_printUnits, ite_self,
    implies_true, ↓State.printUnits_keep]⟩

@[simp] theorem State.readCanaries_printUnits (s : State) (speeds : List Nat) :
    (State.readCanaries s speeds).printUnits = s.printUnits := by
  simp only [State.readCanaries.eq_def, ↓State.setFld_printUnits, ↓State.setFlag_printUnits, ↓State.raiseIf_printUnits,
    ↓State.log1_printUnits, ↓foldl_printUnits, ↓ite_printUnits, ite_self, implies_true]

@[simp] theorem State.showRamp_printUnits (s : State) : (State.showRamp s).printUnits = s.printUnits := by
  simp only [State.showRamp.eq_def, ↓State.setFlag_printUnits]

@[simp] theorem State.mendC5_printUnits (s : State) : (State.mendC5 s).printUnits = s.printUnits := by
  simp only [State.mendC5.eq_def, ↓State.mend_printUnits, ↓ite_printUnits, ite_self]

@[simp] theorem State.measure_printUnits (s : State) (m : PaceMeas) : (State.measure s m).printUnits = s.printUnits := by
  simp only [State.measure.eq_def, ↓State.setFld_printUnits, ↓State.setFldI_printUnits, ↓State.showRamp_printUnits,
    ↓State.mendC5_printUnits, ↓State.printUnits_keep]

@[simp] theorem State.fitWatch_printUnits (s : State) (mode : Nat) : (State.fitWatch s mode).printUnits = s.printUnits := by
  simp only [State.fitWatch.eq_def, ↓State.setFld_printUnits, ↓State.raiseIf_printUnits, ↓ite_printUnits, ite_self]

theorem execPaceInterval_printUnits (meas : PaceMeas) (s : State) :
    ∃ t, (execPaceInterval meas s) = .next t ∧ t.printUnits = s.printUnits := by
  exact ⟨_, rfl, by simp only [↓State.readCanaries_printUnits, ↓State.measure_printUnits, ↓State.fitWatch_printUnits,
    ↓State.setFld_printUnits, ↓State.setFlag_printUnits, ↓State.showRamp_printUnits, ↓State.raiseIf_printUnits, ↓ite_printUnits, ite_self]⟩

theorem execModLimitWrite_printUnits (limit : Nat) (s : State) :
    ∃ t, (execModLimitWrite limit s) = .next t ∧ t.printUnits = s.printUnits := by
  exact ⟨_, rfl, by simp only [↓State.setFld_printUnits, ↓ite_printUnits, ite_self]⟩

@[simp] theorem State.imageBand_printUnits (s : State) (f : Finding) (x : Nat) : (State.imageBand s f x).printUnits = s.printUnits := by
  simp only [State.imageBand.eq_def, ↓State.bump_printUnits, ↓ite_printUnits, ite_self]

@[simp] theorem State.reassigned_printUnits (s : State) (old : List Nat) : (State.reassigned s old).printUnits = s.printUnits := by
  simp only [State.reassigned.eq_def, ↓State.showGated_printUnits, ↓State.printUnits_keep]

@[simp] theorem State.afterConfig_printUnits (s : State) (reset : Bool) : (State.afterConfig s reset).printUnits = s.printUnits := by
  simp only [State.afterConfig.eq_def, ↓State.enter_printUnits, ↓ite_printUnits, ite_self]

@[simp] theorem State.refuseTask_printUnits (s : State) (k : Nat) : (State.refuseTask s k).printUnits = s.printUnits := by
  simp only [State.refuseTask.eq_def, ↓State.endTask_printUnits, ↓State.setCons_printUnits]

@[simp] theorem State.startCal_printUnits (s : State) (rq : Rq) (kind : Nat) (port : Nat) :
    (State.startCal s rq kind port).printUnits = s.printUnits := by
  simp only [State.startCal.eq_def, ↓State.finish_printUnits, ↓State.setCam_printUnits, ↓State.pend_printUnits, ↓ite_printUnits, ite_self]

theorem execTscapCapture_printUnits (unit : Nat) (s : State) : ∃ t, (execTscapCapture unit s) = .next t ∧ t.printUnits = s.printUnits := by
  exact ⟨_, rfl, by simp only [↓State.setCons_printUnits, ↓State.capture_printUnits, ↓ite_printUnits, ite_self]⟩

@[simp] theorem State.pcieReport_printUnits (s : State) (kind : Nat) : (State.pcieReport s kind).printUnits = s.printUnits := by
  rw [State.pcieReport.eq_def]
  repeat' split
  all_goals simp only [↓State.emit_printUnits, ↓State.bump_printUnits, ↓State.setFld_printUnits, ↓State.setReg_printUnits, ↓foldl_printUnits,
    ↓ite_printUnits, ite_self, implies_true, ↓State.printUnits_keep]

@[simp] theorem State.countCause_printUnits (s : State) (cause : Nat) (n : Nat) :
    (State.countCause s cause n).printUnits = s.printUnits := by
  rw [State.countCause.eq_def]
  repeat' split
  all_goals simp only [↓State.bump_printUnits]

@[simp] theorem State.reportEngine_printUnits (s : State) (e : Nat) : (State.reportEngine s e).printUnits = s.printUnits := by
  simp only [State.reportEngine.eq_def, ↓ite_printUnits, ite_self, ↓State.printUnits_keep]

@[simp] theorem State.checked_printUnits (s : State) (b : Nat) (c : CheckRun) : (State.checked s b c).printUnits = s.printUnits := by
  rw [State.checked.eq_def]
  repeat' split
  all_goals simp only [↓State.log1_printUnits, ↓State.bump_printUnits, ↓State.countCause_printUnits, ↓State.reportEngine_printUnits,
    ↓ite_printUnits, ite_self]

@[simp] theorem State.sendSchedule_printUnits (s : State) (k : Nat) (flags : Nat) (frame : Nat) (g : Nat) (gen : Nat)
    (due : Int) :
    (State.sendSchedule s k flags frame g gen due).printUnits = s.printUnits := by
  simp only [State.sendSchedule.eq_def, ↓State.boardSend_printUnits]

@[simp] theorem State.sendLine_printUnits (s : State) (k : Nat) (flags : Nat) (frame : Nat) (crc : Nat) (p : List Byte) :
    (State.sendLine s k flags frame crc p).printUnits = s.printUnits := by
  simp only [State.sendLine.eq_def, ↓State.headSend_printUnits, ↓ite_printUnits, ite_self]

@[simp] theorem State.gateRecord_printUnits (s : State) (g : GateTest) (cls : Nat) (b : Nat) (x : Nat) (pos : Nat) (p
    : Option Pulse) :
    (State.gateRecord s g cls b x pos p).printUnits = s.printUnits := by
  simp only [State.gateRecord.eq_def, ↓State.addRecord_printUnits]

@[simp] theorem State.vacate_printUnits (s : State) (sess : Nat) (tag : Nat) : (State.vacate s sess tag).printUnits = s.printUnits := by
  simp only [State.vacate.eq_def, ↓State.lift_printUnits, ↓State.printUnits_keep]

theorem execPosReference_printUnits (rq : Rq) (enc : Nat) (pos : Int) (s : State) :
    ∃ t, (execPosReference rq enc pos s) = .next t ∧ t.printUnits = s.printUnits := by
  exact ⟨_, rfl, by simp only [↓State.run_printUnits, ↓State.withParams_printUnits, ↓State.setEnc_printUnits, ↓State.setSpeed_printUnits,
    ↓State.setFld_printUnits, ↓State.finish_printUnits, ↓ite_printUnits, ite_self, implies_true]⟩

@[simp] theorem State.takeReply_printUnits (s : State) (src : Nat) (sess : Nat) (b : List Byte) :
    (State.takeReply s src sess b).printUnits = s.printUnits := by
  rw [State.takeReply.eq_def] <;> (try simp only [↓State.setInFlight_printUnits, ↓State.sendDatagram_printUnits,
      ↓State.complete_printUnits, ↓foldl_printUnits, ↓ite_printUnits, ↓dite_printUnits, ↓reduceIte, ite_self, implies_true,
      ↓State.printUnits_keep]) <;> repeat' ((first | split | (rw [foldl_printUnits]; intro s x)) <;> try simp only [↓State.setInFlight_printUnits,
      ↓State.sendDatagram_printUnits, ↓State.complete_printUnits, ↓foldl_printUnits, ↓ite_printUnits, ↓dite_printUnits, ↓reduceIte, ite_self,
      implies_true, ↓State.printUnits_keep])

@[simp] theorem State.chainBad_printUnits (s : State) (west : Bool) : (State.chainBad s west).printUnits = s.printUnits := by
  simp only [State.chainBad.eq_def, ↓State.setLink_printUnits]

@[simp] theorem State.refuseLink_printUnits (s : State) (west : Bool) : (State.refuseLink s west).printUnits = s.printUnits := by
  simp only [State.refuseLink.eq_def, ↓State.setLink_printUnits, ↓State.breach_printUnits, ↓ite_printUnits, ite_self,
    ↓State.printUnits_keep]

@[simp] theorem State.chainReturn_printUnits (s : State) (west : Bool) : (State.chainReturn s west).printUnits = s.printUnits := by
  simp only [State.chainReturn.eq_def, ↓State.chainSend_printUnits]

@[simp] theorem State.chainTake_printUnits (s : State) (west : Bool) (type : Nat) (b : List Byte) (body : ChainPkt →
    State → State) (hbody : ∀ y0 y1, (body y0 y1).printUnits = y1.printUnits) :
    (State.chainTake s west type b body).printUnits = s.printUnits := by
  rw [State.chainTake.eq_def]
  repeat' split
  all_goals simp only [↓State.chainBad_printUnits, ↓State.refuseLink_printUnits, ↓State.chainReturn_printUnits, hbody]

theorem execSelfRefreshEntry_printUnits (ch : Nat) (s : State) :
    ∃ t, (execSelfRefreshEntry ch s) = .next t ∧ t.printUnits = s.printUnits := by
  exact ⟨_, rfl, by simp only [↓State.setFld_printUnits, ↓State.closeRows_printUnits, ↓ite_printUnits, ite_self]⟩

theorem execFaultedPairTestDone_printUnits (pass : Bool) (s : State) :
    ∃ t, (execFaultedPairTestDone pass s) = .next t ∧ t.printUnits = s.printUnits := by
  exact ⟨_, rfl, by simp only [↓State.bump_printUnits, ↓State.setFld_printUnits, ↓ite_printUnits, ite_self, ↓State.printUnits_keep]⟩

@[simp] theorem State.softLimited_printUnits (s : State) (a : Nat) : (State.softLimited s a).printUnits = s.printUnits := by
  simp only [State.softLimited.eq_def, ↓State.axEvent_printUnits, ↓State.setFld_printUnits]

@[simp] theorem State.axFollowMove_printUnits (s : State) (a : Nat) (d : Int) : (State.axFollowMove s a d).printUnits = s.printUnits := by
  simp only [State.axFollowMove.eq_def, ↓State.setAxPos_printUnits, ↓State.setAxis_printUnits, ↓State.softLimited_printUnits,
    ↓ite_printUnits, ite_self]

theorem execFollowStep_printUnits (axis : Nat) (s : State) : ∃ t, (execFollowStep axis s) = .next t ∧ t.printUnits = s.printUnits := by
  exact ⟨_, rfl, by simp only [↓State.axFollowMove_printUnits, ↓State.setAxis_printUnits, ↓State.softLimited_printUnits,
    ↓State.bump_printUnits, ↓ite_printUnits, ite_self]⟩

theorem execChkDataWrite_printUnits (unit : Nat) (value : Word) (s : State) :
    ∃ t, (execChkDataWrite unit value s) = .next t ∧ t.printUnits = s.printUnits := by
  exact ⟨_, rfl, by simp only [↓State.orLater_printUnits, ↓State.chkNext_printUnits, ↓State.chkPut_printUnits, implies_true]⟩

theorem execDelayReq_printUnits (west : Bool) (bytes : List Byte) (s : State) :
    ∃ t, (execDelayReq west bytes s) = .next t ∧ t.printUnits = s.printUnits := by
  exact ⟨_, rfl, by simp only [↓State.chainTake_printUnits, ↓State.chainSendOn_printUnits, implies_true]⟩

@[simp] theorem State.consume_printUnits (s : State) (r : Nat) (n : Nat) : (State.consume s r n).printUnits = s.printUnits := by
  simp only [State.consume.eq_def, ↓State.setRing_printUnits]

@[simp] theorem State.occupy_printUnits (s : State) (rq : Rq) (dom : Domain) : (State.occupy s rq dom).printUnits = s.printUnits := by
  simp only [State.occupy.eq_def, ↓State.printUnits_keep]

theorem execDbFetch_printUnits (ring : Nat) (value : Nat) (s : State) :
    ∃ t, (execDbFetch ring value s) = .next t ∧ t.printUnits = s.printUnits := by
  exact ⟨_, rfl, by simp only [↓State.fetch_printUnits, ↓ite_printUnits, ite_self]⟩

@[simp] theorem State.hostData_printUnits (s : State) (h : Nat) (a : Nat) (n : Nat) :
    (State.hostData s h a n).printUnits = s.printUnits := by
  simp only [State.hostData.eq_def, ↓State.bump_printUnits, ↓State.emit_printUnits, ↓foldl_printUnits, ↓ite_printUnits, ite_self,
    implies_true]

@[simp] theorem State.axTable_printUnits (s : State) (a : Nat) : (State.axTable s a).printUnits = s.printUnits := by
  rw [State.axTable.eq_def] <;> (try simp only [↓State.setAxis_printUnits, ↓foldl_printUnits, ↓ite_printUnits, ↓dite_printUnits, ↓reduceIte,
      ite_self, implies_true,
      ↓State.printUnits_keep]) <;> repeat' ((first | split | (rw [foldl_printUnits]; intro s x)) <;> try simp only [↓State.setAxis_printUnits,
      ↓foldl_printUnits, ↓ite_printUnits, ↓dite_printUnits, ↓reduceIte, ite_self, implies_true, ↓State.printUnits_keep])

@[simp] theorem State.countForced_printUnits (s : State) (arb : Nat) : (State.countForced s arb).printUnits = s.printUnits := by
  simp only [State.countForced.eq_def, ↓State.bump_printUnits, ↓ite_printUnits, ite_self]

theorem execPositionTimeout_printUnits (s : State) : ∃ t, (execPositionTimeout s) = .next t ∧ t.printUnits = s.printUnits := by
  exact ⟨_, rfl, by simp only [↓ite_printUnits, ite_self, ↓State.printUnits_keep]⟩

@[simp] theorem State.voidSlot_printUnits (s : State) : (State.voidSlot s).printUnits = s.printUnits := by
  simp only [State.voidSlot.eq_def, ↓State.setFld_printUnits]

theorem execMonBinsLoad_printUnits (rq : Rq) (chunk : Chunk) (s : State) :
    ∃ t, (execMonBinsLoad rq chunk s) = .next t ∧ t.printUnits = s.printUnits := by
  rw [execMonBinsLoad.eq_def]
  repeat' split
  all_goals refine ⟨_, rfl, ?_⟩
  all_goals (try simp only [↓State.run_printUnits, ↓State.loadChunk_printUnits, ↓State.reject_printUnits, ↓State.finish_printUnits,
      ↓State.setFld_printUnits, ↓State.setMon_printUnits, ↓foldl_printUnits, ↓ite_printUnits, ↓dite_printUnits, ↓reduceIte, ite_self,
      implies_true, ↓State.printUnits_keep])
  all_goals repeat' ((first | (rw [State.loadChunk_printUnits]; intro t rep s) | (rw [State.run_printUnits]; intro s) | split | (rw [foldl_printUnits]; intro s x)) <;> try simp only [↓State.run_printUnits,
      ↓State.loadChunk_printUnits, ↓State.reject_printUnits, ↓State.finish_printUnits, ↓State.setFld_printUnits, ↓State.setMon_printUnits,
      ↓foldl_printUnits, ↓ite_printUnits, ↓dite_printUnits, ↓reduceIte, ite_self, implies_true, ↓State.printUnits_keep])

@[simp] theorem State.waitAt_printUnits (s : State) (shown : Fld) (count : Fld) :
    (State.waitAt s shown count).printUnits = s.printUnits := by
  simp only [State.waitAt.eq_def, ↓State.bump_printUnits, ↓State.setFld_printUnits, ↓ite_printUnits, ite_self]

@[simp] theorem State.readSlice_printUnits (s : State) (b : Nat) (page : Page) :
    (State.readSlice s b page).1.printUnits = s.printUnits := by
  simp only [State.readSlice]
  split
  · rfl
  · exact foldl_printUnits _ (fun s e => State.readMem_printUnits ..) _ _

@[simp] theorem State.failFlight_printUnits (s : State) (n : Nat) (f : Forwarded) : (State.failFlight s n f).printUnits = s.printUnits := by
  rw [State.failFlight.eq_def]
  repeat' split
  all_goals simp only [↓State.sendDatagram_printUnits, ↓State.finishSlot_printUnits]

@[simp] theorem State.failFlights_printUnits (s : State) (n : Nat) (gone : Forwarded → Bool) :
    (State.failFlights s n gone).printUnits = s.printUnits := by
  simp only [State.failFlights.eq_def, ↓State.setInFlight_printUnits, ↓State.failFlight_printUnits, ↓foldl_printUnits, implies_true]

theorem execChainLinkLoss_printUnits (west : Bool) (s : State) :
    ∃ t, (execChainLinkLoss west s) = .next t ∧ t.printUnits = s.printUnits := by
  exact ⟨_, rfl, by simp only [↓State.log1_printUnits, ↓State.setLink_printUnits, ↓State.sendLeader_printUnits,
    ↓State.failFlights_printUnits, ↓ite_printUnits, ite_self, ↓State.printUnits_keep]⟩

@[simp] theorem State.portShown_printUnits (s : State) (d : Nat) (port : Nat) (st : Nat) :
    (State.portShown s d port st).printUnits = s.printUnits := by
  simp only [State.portShown.eq_def, ↓State.setClock_printUnits, ↓State.setFld_printUnits, ↓ite_printUnits, ite_self]

@[simp] theorem State.masterHeard_printUnits (s : State) (d : Nat) (m : PtpMsg) : (State.masterHeard s d m).printUnits = s.printUnits := by
  simp only [State.masterHeard.eq_def, ↓State.setClock_printUnits, ↓State.showUtc_printUnits, ↓ite_printUnits, ite_self]

@[simp] theorem State.ptpUse_printUnits (s : State) (port : Nat) (m : PtpMsg) (x : Option PtpExchange) (d : Nat) :
    (State.ptpUse s port m x d).printUnits = s.printUnits := by
  rw [State.ptpUse.eq_def]
  repeat' split
  all_goals simp only [↓State.portShown_printUnits, ↓State.masterHeard_printUnits, ↓State.sourceHeard_printUnits,
    ↓State.measurement_printUnits, ↓State.addRecord_printUnits, ↓State.setClock_printUnits, ↓ite_printUnits, ite_self]

theorem execPtpMessage_printUnits (port : Nat) (msg : PtpMsg) (s : State) :
    ∃ t, (execPtpMessage port msg s) = .next t ∧ t.printUnits = s.printUnits := by
  exact ⟨_, rfl, by simp only [↓State.bump_printUnits, ↓State.ptpUse_printUnits, ↓State.ptpHold_printUnits, ↓foldl_printUnits, ↓ite_printUnits,
    ite_self, implies_true]⟩

theorem execTakeoverRecalDone_printUnits (group : Nat) (ok : Bool) (s : State) :
    ∃ t, (execTakeoverRecalDone group ok s) = .next t ∧ t.printUnits = s.printUnits := by
  exact ⟨_, rfl, by simp only [↓State.setFld_printUnits, ↓State.setLaneGrp_printUnits, ↓State.raiseIf_printUnits, ↓State.log1_printUnits,
    ↓ite_printUnits, ite_self]⟩

theorem execChainCredit_printUnits (west : Bool) (bytes : List Byte) (s : State) :
    ∃ t, (execChainCredit west bytes s) = .next t ∧ t.printUnits = s.printUnits := by
  exact ⟨_, rfl, by simp only [↓State.chainTake_printUnits, ↓State.chainDrain_printUnits, ↓State.setLink_printUnits, implies_true]⟩

@[simp] theorem State.commitTab_printUnits (s : State) (k : Nat) (data : List Int) :
    (State.commitTab s k data).printUnits = s.printUnits := by
  simp only [State.commitTab.eq_def, ↓State.showTabPend_printUnits, ↓State.printUnits_keep]

@[simp] theorem State.loadTab_printUnits (s : State) (rq : Rq) (op : Nat) (kind : Nat) (limit : Nat) (c : Chunk) (bad
    : List Byte → Option Nat) (read : List Byte → List Int) :
    (State.loadTab s rq op kind limit c bad read).printUnits = s.printUnits := by
  rw [State.loadTab.eq_def] <;> (try simp only [↓State.finish_printUnits, ↓State.loadChunk_printUnits, ↓State.reject_printUnits,
      ↓State.commitTab_printUnits, ↓foldl_printUnits, ↓ite_printUnits, ↓dite_printUnits, ↓reduceIte, ite_self, implies_true,
      ↓State.printUnits_keep]) <;> repeat' ((first | (rw [State.loadChunk_printUnits]; intro t rep s) | split | (rw [foldl_printUnits]; intro s x)) <;> try simp only [↓State.finish_printUnits,
      ↓State.loadChunk_printUnits, ↓State.reject_printUnits, ↓State.commitTab_printUnits, ↓foldl_printUnits, ↓ite_printUnits, ↓dite_printUnits,
      ↓reduceIte, ite_self, implies_true, ↓State.printUnits_keep])

theorem execBlurLoad_printUnits (rq : Rq) (chunk : Chunk) (s : State) :
    ∃ t, (execBlurLoad rq chunk s) = .next t ∧ t.printUnits = s.printUnits := by
  exact ⟨_, rfl, by simp only [↓State.run_printUnits, ↓State.loadTab_printUnits, implies_true]⟩

@[simp] theorem State.setOverlap_printUnits (s : State) (o : Nat) (x : Overlap) : (State.setOverlap s o x).printUnits = s.printUnits := by
  simp only [State.setOverlap.eq_def, ↓State.printUnits_keep]

@[simp] theorem State.calibrating_printUnits (s : State) (c : Nat) (t : Nat) : (State.calibrating s c t).printUnits = s.printUnits := by
  simp only [State.calibrating.eq_def, ↓State.printUnits_keep]

@[simp] theorem State.islandOverrun_printUnits (s : State) (block : Nat) (inst : Nat) :
    (State.islandOverrun s block inst).printUnits = s.printUnits := by
  simp only [State.islandOverrun.eq_def, ↓State.breach_printUnits, ↓State.breachOnce_printUnits, ↓ite_printUnits, ite_self]

@[simp] theorem State.showCapFill_printUnits (s : State) (n : Nat) : (State.showCapFill s n).printUnits = s.printUnits := by
  simp only [State.showCapFill.eq_def, ↓State.setFld_printUnits]

@[simp] theorem State.calTake_printUnits (s : State) (n : Nat) (rows : List (List Nat)) :
    (State.calTake s n rows).printUnits = s.printUnits := by
  rw [State.calTake.eq_def] <;> (try simp only [↓State.setCam_printUnits, ↓foldl_printUnits, ↓ite_printUnits, ↓dite_printUnits, ↓reduceIte,
      ite_self, implies_true,
      ↓State.printUnits_keep]) <;> repeat' ((first | split | (rw [foldl_printUnits]; intro s x)) <;> try simp only [↓State.setCam_printUnits,
      ↓foldl_printUnits, ↓ite_printUnits, ↓dite_printUnits, ↓reduceIte, ite_self, implies_true, ↓State.printUnits_keep])

@[simp] theorem State.inspLine_printUnits (s : State) (n : Nat) (f : CamFrame) (t : Trig) (flags : Nat) (rows : List
    (List Nat)) :
    (State.inspLine s n f t flags rows).printUnits = s.printUnits := by
  simp only [State.inspLine.eq_def, ↓State.setCam_printUnits, ↓State.islandOverrun_printUnits, ↓State.raise_printUnits,
    ↓State.bump_printUnits, ↓State.showCapFill_printUnits, ↓State.calTake_printUnits, ↓ite_printUnits, ite_self]

@[simp] theorem State.pruneGrid_printUnits (s : State) : (State.pruneGrid s).printUnits = s.printUnits := by
  rw [State.pruneGrid.eq_def] <;> (try simp only [↓State.setCam_printUnits, ↓foldl_printUnits, ↓ite_printUnits, ↓dite_printUnits,
      ↓reduceIte, ite_self, implies_true,
      ↓State.printUnits_keep]) <;> repeat' ((first | split | (rw [foldl_printUnits]; intro s x)) <;> try simp only [↓State.setCam_printUnits,
      ↓foldl_printUnits, ↓ite_printUnits, ↓dite_printUnits, ↓reduceIte, ite_self, implies_true, ↓State.printUnits_keep])

theorem execInactiveSourceAbsent_printUnits (s : State) : ∃ t, (execInactiveSourceAbsent s) = .next t ∧ t.printUnits = s.printUnits := by
  exact ⟨_, rfl, by simp only [↓State.sourceGone_printUnits]⟩

theorem execCoverageLoad_printUnits (rq : Rq) (chunk : Chunk) (s : State) :
    ∃ t, (execCoverageLoad rq chunk s) = .next t ∧ t.printUnits = s.printUnits := by
  exact ⟨_, rfl, by simp only [↓State.run_printUnits, ↓State.loadTab_printUnits, implies_true]⟩

@[simp] theorem State.axFrame_printUnits (s : State) (a : Nat) (ab : Int × Int) : (State.axFrame s a ab).printUnits = s.printUnits := by
  simp only [State.axFrame.eq_def, ↓State.setAxis_printUnits, ↓State.emit_printUnits]

theorem execAxisStageFault_printUnits (axis : Nat) (s : State) :
    ∃ t, (execAxisStageFault axis s) = .next t ∧ t.printUnits = s.printUnits := by
  exact ⟨_, rfl, by simp only [↓State.setFld_printUnits, ↓State.log1_printUnits, ↓State.axEvent_printUnits, ↓State.axEnter_printUnits,
    ↓State.axFrame_printUnits, ↓State.endTask_printUnits, ↓State.axAnswer_printUnits, ↓State.setAxis_printUnits, ↓ite_printUnits, ite_self]⟩

@[simp] theorem State.takeRsmp_printUnits (s : State) (n : Nat) : (State.takeRsmp s n).printUnits = s.printUnits := by
  simp only [State.takeRsmp.eq_def, ↓State.setCam_printUnits, ↓ite_printUnits, ite_self]

@[simp] theorem State.stripeEdge_printUnits (s : State) (r : Nat) (m : Int) (column : Nat) :
    (State.stripeEdge s r m column).printUnits = s.printUnits := by
  simp only [State.stripeEdge.eq_def, ↓State.setRsmp_printUnits, ↓State.setFld_printUnits, ↓State.raiseIf_printUnits,
    ↓State.bumpWrap_printUnits, ↓ite_printUnits, ite_self]

theorem execResampleLine_printUnits (port : Nat) (s : State) : ∃ t, (execResampleLine port s) = .next t ∧ t.printUnits = s.printUnits := by
  rw [execResampleLine.eq_def]
  repeat' split
  all_goals refine ⟨_, rfl, ?_⟩
  all_goals (try simp only [↓State.takeRsmp_printUnits, ↓State.stripeEdge_printUnits, ↓State.setCam_printUnits, ↓State.bump_printUnits,
      ↓foldl_printUnits, ↓ite_printUnits, ↓dite_printUnits, ↓reduceIte, ite_self, implies_true, ↓State.printUnits_keep])
  all_goals repeat' ((first | split | (rw [foldl_printUnits]; intro s x)) <;> try simp only [↓State.takeRsmp_printUnits,
      ↓State.stripeEdge_printUnits, ↓State.setCam_printUnits, ↓State.bump_printUnits, ↓foldl_printUnits, ↓ite_printUnits, ↓dite_printUnits, ↓reduceIte,
      ite_self, implies_true, ↓State.printUnits_keep])

@[simp] theorem State.chainRelay_printUnits (s : State) (west : Bool) (b : List Byte) (body : List Byte) :
    (State.chainRelay s west b body).printUnits = s.printUnits := by
  simp only [State.chainRelay.eq_def, ↓State.chainBad_printUnits, ↓State.chainSendOn_printUnits, ↓ite_printUnits, ite_self]

@[simp] theorem State.chainSpread_printUnits (s : State) (west : Bool) (b : List Byte) (p : ChainPkt) (local_ : State
    → State) (hlocal_ : ∀ y0, (local_ y0).printUnits = y0.printUnits) :
    (State.chainSpread s west b p local_).printUnits = s.printUnits := by
  simp only [State.chainSpread.eq_def, ↓State.chainRelay_printUnits, ↓ite_printUnits, ite_self, hlocal_]

@[simp] theorem State.credited_printUnits (s : State) (r : Nat) : (State.credited s r).printUnits = s.printUnits := by
  simp only [State.credited.eq_def, ↓State.setStall_printUnits, ↓State.drainReplies_printUnits, ↓State.mendC1_printUnits,
    ↓State.setRing_printUnits, ↓ite_printUnits, ite_self]

theorem execDbRpl_printUnits (ring : Nat) (idx : Nat) (s : State) :
    ∃ t, (execDbRpl ring idx s) = .next t ∧ t.printUnits = s.printUnits := by
  exact ⟨_, rfl, by simp only [↓State.cmdErr_printUnits, ↓State.credited_printUnits, ↓State.setRing_printUnits, ↓ite_printUnits, ite_self]⟩

theorem execCmdRingEnableWrite_printUnits (ring : Nat) (enable : Bool) (s : State) :
    ∃ t, (execCmdRingEnableWrite ring enable s) = .next t ∧ t.printUnits = s.printUnits := by
  exact ⟨_, rfl, by simp only [↓State.ringEnabled_printUnits, ↓State.setFlag_printUnits, ↓ite_printUnits, ite_self]⟩

theorem execNop_printUnits (rq : Rq) (s : State) : ∃ t, (execNop rq s) = .next t ∧ t.printUnits = s.printUnits := by
  exact ⟨_, rfl, by simp only [↓State.run_printUnits, ↓State.finish_printUnits, implies_true]⟩

@[simp] theorem State.setSsi_printUnits (s : State) (u : Nat) (x : Ssi) : (State.setSsi s u x).printUnits = s.printUnits := by
  simp only [State.setSsi.eq_def, ↓State.printUnits_keep]

@[simp] theorem State.monSnap_printUnits (s : State) (m : Nat) : (State.monSnap s m).printUnits = s.printUnits := by
  simp only [State.monSnap.eq_def, ↓State.setMon_printUnits]

theorem execMonSnapshot_printUnits (rq : Rq) (mask : Nat) (start : Nat) (s : State) :
    ∃ t, (execMonSnapshot rq mask start s) = .next t ∧ t.printUnits = s.printUnits := by
  rw [execMonSnapshot.eq_def]
  repeat' split
  all_goals refine ⟨_, rfl, ?_⟩
  all_goals (try simp only [↓State.run_printUnits, ↓State.withParams_printUnits, ↓State.monSnap_printUnits, ↓State.finish_printUnits,
      ↓foldl_printUnits, ↓ite_printUnits, ↓dite_printUnits, ↓reduceIte, ite_self, implies_true, ↓State.printUnits_keep])
  all_goals repeat' ((first | (rw [State.withParams_printUnits]; intro s) | (rw [State.run_printUnits]; intro s) | split | (rw [foldl_printUnits]; intro s x)) <;> try simp only [↓State.run_printUnits,
      ↓State.withParams_printUnits, ↓State.monSnap_printUnits, ↓State.finish_printUnits, ↓foldl_printUnits, ↓ite_printUnits, ↓dite_printUnits,
      ↓reduceIte, ite_self, implies_true, ↓State.printUnits_keep])

@[simp] theorem State.safeLine_printUnits (s : State) (k : Nat) (cause : Nat) : (State.safeLine s k cause).printUnits = s.printUnits := by
  rw [State.safeLine.eq_def]
  repeat' split
  all_goals simp only [↓State.bump_printUnits, ↓State.fireEvent_printUnits, ↓State.setFld_printUnits]

theorem execEngineUndoze_printUnits (engine : Nat) (s : State) :
    ∃ t, (execEngineUndoze engine s) = .next t ∧ t.printUnits = s.printUnits := by
  exact ⟨_, rfl, by simp only [↓State.showGated_printUnits, ↓ite_printUnits, ite_self, ↓State.printUnits_keep]⟩

theorem execAxisHome_printUnits (rq : Rq) (axis : Nat) (dir : Nat) (s : State) :
    ∃ t, (execAxisHome rq axis dir s) = .next t ∧ t.printUnits = s.printUnits := by
  exact ⟨_, rfl, by simp only [↓State.run_printUnits, ↓State.finish_printUnits, ↓State.withParams_printUnits, ↓State.setFld_printUnits,
    ↓State.pend_printUnits, ↓State.axStart_printUnits, ↓State.setAxis_printUnits, ↓ite_printUnits, ite_self, implies_true]⟩

theorem execScrubRead_printUnits (s : State) : ∃ t, (execScrubRead s) = .next t ∧ t.printUnits = s.printUnits := by
  exact ⟨_, rfl, by simp only [↓State.readWord_printUnits, ↓State.setFld_printUnits, ↓State.bumpWrap_printUnits, ↓ite_printUnits, ite_self,
    ↓State.printUnits_keep]⟩

theorem execPhaseDisable_printUnits (phase : Nat) (s : State) :
    ∃ t, (execPhaseDisable phase s) = .next t ∧ t.printUnits = s.printUnits := by
  exact ⟨_, rfl, by simp only [↓State.phaseFail_printUnits]⟩

@[simp] theorem State.authFail_printUnits (s : State) (slot : Nat) : (State.authFail s slot).printUnits = s.printUnits := by
  simp only [State.authFail.eq_def, ↓State.bump_printUnits, ↓ite_printUnits, ite_self, ↓State.printUnits_keep]

@[simp] theorem State.ringLost_printUnits (s : State) : (State.ringLost s).printUnits = s.printUnits := by
  simp only [State.ringLost.eq_def, ↓State.jigEvent_printUnits, ↓State.bump_printUnits]

@[simp] theorem State.piece_printUnits (s : State) (c : Comp) (continues : Bool) :
    (State.piece s c continues).printUnits = s.printUnits := by
  simp only [State.piece.eq_def, ↓State.setCam_printUnits, ↓State.recordQuota_printUnits, ↓State.jigEvent_printUnits,
    ↓State.bump_printUnits, ↓State.makeCrop_printUnits, ↓State.addRecord_printUnits, ↓State.ringLost_printUnits, ↓ite_printUnits, ite_self]

@[simp] theorem State.group_printUnits (s : State) (v : LineView) (g : List Comp × List (List Mark)) :
    (State.group s v g).2.printUnits = s.printUnits := by
  rw [State.group.eq_def] <;> (try simp only [↓State.piece_printUnits, ↓foldl_printUnits, ↓ite_printUnits, ↓dite_printUnits, ↓reduceIte,
      ite_self, implies_true,
      ↓State.printUnits_keep]) <;> repeat' ((first | split | (rw [foldl_printUnits]; intro s x)) <;> try simp only [↓State.piece_printUnits,
      ↓foldl_printUnits, ↓ite_printUnits, ↓dite_printUnits, ↓reduceIte, ite_self, implies_true, ↓State.printUnits_keep])

@[simp] theorem State.countSamples_printUnits (s : State) (p : Nat) (m : Nat) : (State.countSamples s p m).printUnits = s.printUnits := by
  simp only [State.countSamples.eq_def, ↓State.bump_printUnits, ↓State.printUnits_keep]

@[simp] theorem State.inputLine_printUnits (s : State) (n : Nat) (l : CapLine) : (State.inputLine s n l).printUnits = s.printUnits := by
  simp only [State.inputLine.eq_def, ↓State.setCam_printUnits, ↓State.bump_printUnits, ↓ite_printUnits, ite_self]

@[simp] theorem State.lineDone_printUnits (s : State) (n : Nat) : (State.lineDone s n).printUnits = s.printUnits := by
  rw [State.lineDone.eq_def] <;> (try simp only [↓State.showCapFill_printUnits, ↓State.setCam_printUnits,
      ↓State.paperColumn_printUnits, ↓State.inputLine_printUnits, ↓foldl_printUnits, ↓ite_printUnits, ↓dite_printUnits, ↓reduceIte, ite_self,
      implies_true,
      ↓State.printUnits_keep]) <;> repeat' ((first | split | (rw [foldl_printUnits]; intro s x)) <;> try simp only [↓State.showCapFill_printUnits,
      ↓State.setCam_printUnits, ↓State.paperColumn_printUnits, ↓State.inputLine_printUnits, ↓foldl_printUnits, ↓ite_printUnits, ↓dite_printUnits,
      ↓reduceIte, ite_self, implies_true, ↓State.printUnits_keep])

@[simp] theorem State.stripe_printUnits (s : State) (p : Nat) (n : Nat) : (State.stripe s p n).printUnits = s.printUnits := by
  rw [State.stripe.eq_def] <;> (try simp only [↓State.readLine_printUnits, ↓State.countSamples_printUnits, ↓State.setCam_printUnits,
      ↓State.lineDone_printUnits, ↓foldl_printUnits, ↓ite_printUnits, ↓dite_printUnits, ↓reduceIte, ite_self, implies_true,
      ↓State.printUnits_keep]) <;> repeat' ((first | split | (rw [foldl_printUnits]; intro s x)) <;> try simp only [↓State.readLine_printUnits,
      ↓State.countSamples_printUnits, ↓State.setCam_printUnits, ↓State.lineDone_printUnits, ↓foldl_printUnits, ↓ite_printUnits, ↓dite_printUnits,
      ↓reduceIte, ite_self, implies_true, ↓State.printUnits_keep])

@[simp] theorem State.axFollowUpdate_printUnits (s : State) (a : Nat) : (State.axFollowUpdate s a).printUnits = s.printUnits := by
  simp only [State.axFollowUpdate.eq_def, ↓State.axFollowMove_printUnits, ↓State.setAxis_printUnits, ↓State.axSettle_printUnits,
    ↓ite_printUnits, ite_self]

@[simp] theorem State.acceptFrom9_printUnits (s : State) (forwarded : Bool) (sess : Nat) (b : List Byte) :
    (State.acceptFrom9 s forwarded sess b).printUnits = s.printUnits := by
  rw [State.acceptFrom9.eq_def] <;> (try simp only [↓State.complete_printUnits, ↓State.forward_printUnits, ↓State.setSlot_printUnits,
      ↓State.enqueue_printUnits, ↓foldl_printUnits, ↓ite_printUnits, ↓dite_printUnits, ↓reduceIte, ite_self, implies_true,
      ↓State.printUnits_keep]) <;> repeat' ((first | split | (rw [foldl_printUnits]; intro s x)) <;> try simp only [↓State.complete_printUnits,
      ↓State.forward_printUnits, ↓State.setSlot_printUnits, ↓State.enqueue_printUnits, ↓foldl_printUnits, ↓ite_printUnits, ↓dite_printUnits, ↓reduceIte,
      ite_self, implies_true, ↓State.printUnits_keep])

@[simp] theorem State.takeSlot_printUnits (s : State) (sess : Nat) (h : Header) : (State.takeSlot s sess h).printUnits = s.printUnits := by
  simp only [State.takeSlot.eq_def, ↓State.setSession_printUnits]

@[simp] theorem State.acceptFrom5_printUnits (s : State) (src : PktSrc) (sess : Nat) (b : List Byte) :
    (State.acceptFrom5 s src sess b).printUnits = s.printUnits := by
  simp only [State.acceptFrom5.eq_def, ↓State.fetch_printUnits, ↓State.markDelivered_printUnits, ↓State.respond_printUnits,
    ↓State.refuse_printUnits, ↓State.acceptFrom9_printUnits, ↓State.takeSlot_printUnits, ↓ite_printUnits, ite_self]

@[simp] theorem State.acceptFrom3_printUnits (s : State) (src : PktSrc) (b : List Byte) :
    (State.acceptFrom3 s src b).printUnits = s.printUnits := by
  rw [State.acceptFrom3.eq_def]
  repeat' split
  all_goals simp only [↓State.refuse_printUnits, ↓State.acceptFrom5_printUnits, ↓State.acceptOpen_printUnits, ↓State.setSession_printUnits,
    ↓State.bump_printUnits, ↓ite_printUnits, ite_self]

@[simp] theorem State.acceptFrom1_printUnits (s : State) (src : PktSrc) (b : List Byte) :
    (State.acceptFrom1 s src b).printUnits = s.printUnits := by
  simp only [State.acceptFrom1.eq_def, ↓State.refuse_printUnits, ↓State.acceptFrom3_printUnits, ↓ite_printUnits, ite_self]

@[simp] theorem State.takeFromRing_printUnits (s : State) (r : Nat) (b : List Byte) :
    (State.takeFromRing s r b).printUnits = s.printUnits := by
  simp only [State.takeFromRing.eq_def, ↓State.emit_printUnits, ↓State.consume_printUnits, ↓State.refuse_printUnits,
    ↓State.acceptFrom1_printUnits, ↓ite_printUnits, ite_self]

@[simp] theorem State.openSession_printUnits (s : State) (n : Nat) (k : SessKind) :
    (State.openSession s n k).printUnits = s.printUnits := by
  simp only [State.openSession.eq_def, ↓State.showOpen_printUnits, ↓State.setSession_printUnits]

theorem State.forwardedSession_printUnits (s : State) (dev sess : Nat) (r : Nat × State)     (h : s.forwardedSession
    dev sess = some r) :
    r.2.printUnits = s.printUnits := by
  rw [State.forwardedSession] at h
  split at h
  · cases h; rfl
  · obtain ⟨n, -, h⟩ := Option.map_eq_some_iff.mp h
    cases h; exact State.openSession_printUnits ..

@[simp] theorem State.startWake_printUnits (s : State) (cause : Nat) : (State.startWake s cause).printUnits = s.printUnits := by
  simp only [State.startWake.eq_def, ↓State.setFld_printUnits, ↓ite_printUnits, ite_self, ↓State.printUnits_keep]

theorem execWakeEvent_printUnits (s : State) : ∃ t, (execWakeEvent s) = .next t ∧ t.printUnits = s.printUnits := by
  exact ⟨_, rfl, by simp only [↓State.startWake_printUnits, ↓State.endTask_printUnits, ↓ite_printUnits, ite_self]⟩

@[simp] theorem State.calibrate_printUnits (s : State) (ch : Nat) (steps : Nat) (ticks : Nat) :
    (State.calibrate s ch steps ticks).printUnits = s.printUnits := by
  simp only [State.calibrate.eq_def, ↓State.calibrating_printUnits, ↓State.interrupt_printUnits, ↓ite_printUnits, ite_self,
    ↓State.printUnits_keep]

theorem execRetraining_printUnits (ch : Nat) (s : State) : ∃ t, (execRetraining ch s) = .next t ∧ t.printUnits = s.printUnits := by
  exact ⟨_, rfl, by simp only [↓State.calibrate_printUnits]⟩

@[simp] theorem State.homeFound_printUnits (s : State) (a : Nat) : (State.homeFound s a).printUnits = s.printUnits := by
  rw [State.homeFound.eq_def]
  repeat' split
  all_goals simp only [↓State.axShift_printUnits, ↓State.axRamp_printUnits, ↓State.setAxis_printUnits, ↓State.setFld_printUnits]

@[simp] theorem State.switchTo_printUnits (s : State) (a : Nat) (sw : Nat) (level : Bool) (us : Nat) :
    (State.switchTo s a sw level us).printUnits = s.printUnits := by
  simp only [State.switchTo.eq_def, ↓State.showLimit_printUnits, ↓State.limitTrip_printUnits, ↓State.homeFound_printUnits, ↓ite_printUnits,
    ite_self, ↓State.printUnits_keep]

@[simp] theorem State.axIssue_printUnits (s : State) (a : Nat) (before : Int) : (State.axIssue s a before).printUnits = s.printUnits := by
  simp only [State.axIssue.eq_def, ↓State.emit_printUnits, ↓State.axFrame_printUnits, ↓ite_printUnits, ite_self]

theorem execLeader_printUnits (west : Bool) (bytes : List Byte) (s : State) :
    ∃ t, (execLeader west bytes s) = .next t ∧ t.printUnits = s.printUnits := by
  exact ⟨_, rfl, by simp only [↓State.chainTake_printUnits, ↓State.chainSpread_printUnits, ↓State.chainStatusSet_printUnits,
    ↓State.failFlights_printUnits, ↓State.log1_printUnits, ↓ite_printUnits, ite_self, implies_true]⟩

@[simp] theorem State.encDouble_printUnits (s : State) (e : Nat) : (State.encDouble s e).printUnits = s.printUnits := by
  simp only [State.encDouble.eq_def, ↓State.log1_printUnits, ↓State.bump_printUnits, ↓State.posEvent_printUnits, ↓State.setFld_printUnits]

theorem execAxisStatus_printUnits (rq : Rq) (axis : Nat) (s : State) :
    ∃ t, (execAxisStatus rq axis s) = .next t ∧ t.printUnits = s.printUnits := by
  exact ⟨_, rfl, by simp only [↓State.run_printUnits, ↓State.withParams_printUnits, ↓State.finish_printUnits, implies_true]⟩

theorem execFwSwitch_printUnits (rq : Rq) (s : State) : ∃ t, (execFwSwitch rq s) = .next t ∧ t.printUnits = s.printUnits := by
  exact ⟨_, rfl, by simp only [↓State.run_printUnits, ↓State.withParams_printUnits, ↓State.reject_printUnits, ↓State.finish_printUnits,
    ↓State.setFld_printUnits, ↓State.occupy_printUnits, ↓State.pend_printUnits, ↓ite_printUnits, ite_self, implies_true, ↓State.printUnits_keep]⟩

theorem execMemInject_printUnits (value : Word) (s : State) : ∃ t, (execMemInject value s) = .next t ∧ t.printUnits = s.printUnits := by
  exact ⟨_, rfl, by simp only [↓State.setReg_printUnits, ↓ite_printUnits, ite_self]⟩

@[simp] theorem State.ethSend_printUnits (s : State) (p : Nat) (hop : Nat) (ip : Nat) (kind : Nat) :
    (State.ethSend s p hop ip kind).printUnits = s.printUnits := by
  simp only [State.ethSend.eq_def, ↓State.bump_printUnits, ↓State.emit_printUnits]

@[simp] theorem State.ethTaken_printUnits (s : State) (p : Nat) (f : EthFrame) : (State.ethTaken s p f).printUnits = s.printUnits := by
  rw [State.ethTaken.eq_def]
  repeat' split
  all_goals simp only [↓State.ethSend_printUnits, ↓State.acceptFrom1_printUnits, ↓ite_printUnits, ite_self]

@[simp] theorem State.monEnd_printUnits (s : State) (m : Nat) (tag : Option Nat) : (State.monEnd s m tag).printUnits = s.printUnits := by
  simp only [State.monEnd.eq_def, ↓State.setMon_printUnits, ↓State.monStart_printUnits, ↓State.bumpWrap_printUnits,
    ↓State.raiseIf_printUnits]

theorem execThrottleRelease_printUnits (ch : Nat) (s : State) :
    ∃ t, (execThrottleRelease ch s) = .next t ∧ t.printUnits = s.printUnits := by
  rw [execThrottleRelease.eq_def]
  refine ⟨_, rfl, ?_⟩
  repeat' split
  all_goals simp only [↓State.showThrottle_printUnits, ↓State.printUnits_keep]

theorem execChkReset_printUnits (unit : Nat) (s : State) : ∃ t, (execChkReset unit s) = .next t ∧ t.printUnits = s.printUnits := by
  exact ⟨_, rfl, by simp only [↓State.orLater_printUnits, ↓State.setChk_printUnits, implies_true]⟩

@[simp] theorem State.wholeLine_printUnits (s : State) (p : Nat) (n : Nat) : (State.wholeLine s p n).printUnits = s.printUnits := by
  rw [State.wholeLine.eq_def] <;> (try simp only [↓State.readLine_printUnits, ↓State.lineDone_printUnits,
      ↓State.countSamples_printUnits, ↓foldl_printUnits, ↓ite_printUnits, ↓dite_printUnits, ↓reduceIte, ite_self, implies_true,
      ↓State.printUnits_keep]) <;> repeat' ((first | split | (rw [foldl_printUnits]; intro s x)) <;> try simp only [↓State.readLine_printUnits,
      ↓State.lineDone_printUnits, ↓State.countSamples_printUnits, ↓foldl_printUnits, ↓ite_printUnits, ↓dite_printUnits, ↓reduceIte, ite_self,
      implies_true, ↓State.printUnits_keep])

theorem execStripeProcess_printUnits (pipe : Nat) (s : State) :
    ∃ t, (execStripeProcess pipe s) = .next t ∧ t.printUnits = s.printUnits := by
  rw [execStripeProcess.eq_def]
  refine ⟨_, rfl, ?_⟩
  repeat' split
  all_goals simp only [↓State.setFld_printUnits, ↓State.bump_printUnits, ↓State.wholeLine_printUnits, ↓State.stripe_printUnits,
    ↓State.setFlag_printUnits, ↓foldl_printUnits, ↓ite_printUnits, ite_self, implies_true, ↓State.printUnits_keep]

@[simp] theorem State.fillSlot_printUnits (s : State) (image : List Byte) : (State.fillSlot s image).printUnits = s.printUnits := by
  simp only [State.fillSlot.eq_def, ↓State.setFld_printUnits, ↓ite_printUnits, ite_self, ↓State.printUnits_keep]

theorem execFwStage_printUnits (rq : Rq) (chunk : Chunk) (s : State) :
    ∃ t, (execFwStage rq chunk s) = .next t ∧ t.printUnits = s.printUnits := by
  exact ⟨_, rfl, by simp only [↓State.run_printUnits, ↓State.finish_printUnits, ↓State.loadChunk_printUnits, ↓State.voidSlot_printUnits,
    ↓State.fillSlot_printUnits, ↓State.setFld_printUnits, ↓ite_printUnits, ite_self, implies_true]⟩

theorem execKalApply_printUnits (pipe : Nat) (s : State) : ∃ t, (execKalApply pipe s) = .next t ∧ t.printUnits = s.printUnits := by
  exact ⟨_, rfl, by simp only [↓State.orLater_printUnits, ↓State.setCam_printUnits, ↓ite_printUnits, ite_self, implies_true]⟩

theorem execPositionSend_printUnits (s : State) : ∃ t, (execPositionSend s) = .next t ∧ t.printUnits = s.printUnits := by
  exact ⟨_, rfl, by simp only [↓State.chainAll_printUnits, ↓ite_printUnits, ite_self, ↓State.printUnits_keep]⟩

theorem execFrameClose_printUnits (port : Nat) (s : State) : ∃ t, (execFrameClose port s) = .next t ∧ t.printUnits = s.printUnits := by
  exact ⟨_, rfl, by simp only [↓State.setCam_printUnits, ↓State.closeFrame_printUnits, ↓State.deviation_printUnits, ↓ite_printUnits,
    ite_self]⟩

@[simp] theorem State.keepImage_printUnits (s : State) (m : Int) (row : List (Nat × List Nat)) :
    (State.keepImage s m row).printUnits = s.printUnits := by
  simp only [State.keepImage.eq_def, ↓State.printUnits_keep]

theorem execEthFrameReceive_printUnits (port : Nat) (frame : EthFrame) (s : State) :
    ∃ t, (execEthFrameReceive port frame s) = .next t ∧ t.printUnits = s.printUnits := by
  exact ⟨_, rfl, by simp only [↓State.bump_printUnits, ↓State.islandOverrun_printUnits, ↓State.ethTaken_printUnits, ↓ite_printUnits,
    ite_self]⟩

theorem execWakePin_printUnits (s : State) : ∃ t, (execWakePin s) = .next t ∧ t.printUnits = s.printUnits := by
  exact ⟨_, rfl, by simp only [↓State.startWake_printUnits, ↓ite_printUnits, ite_self]⟩

theorem execPaperCalDone_printUnits (port : Nat) (s : State) : ∃ t, (execPaperCalDone port s) = .next t ∧ t.printUnits = s.printUnits := by
  rw [execPaperCalDone.eq_def]
  refine ⟨_, rfl, ?_⟩
  repeat' split
  all_goals simp only [↓State.setCam_printUnits, ↓State.setPaper_printUnits, ↓State.stageGains_printUnits, ↓State.finishSlot_printUnits,
    ↓State.calWrite_printUnits, ↓foldl_printUnits, ↓ite_printUnits, ite_self, implies_true]

theorem execLaneLock_printUnits (lane : Nat) (bits : List Bool) (s : State) :
    ∃ t, (execLaneLock lane bits s) = .next t ∧ t.printUnits = s.printUnits := by
  rw [execLaneLock.eq_def]
  repeat' split
  all_goals refine ⟨_, rfl, ?_⟩
  all_goals (try simp only [↓State.linkSend_printUnits, ↓State.setFld_printUnits, ↓State.setLane_printUnits, ↓foldl_printUnits, ↓ite_printUnits,
      ↓dite_printUnits, ↓reduceIte, ite_self, implies_true, ↓State.printUnits_keep])
  all_goals repeat' ((first | split | (rw [foldl_printUnits]; intro s x)) <;> try simp only [↓State.linkSend_printUnits,
      ↓State.setFld_printUnits, ↓State.setLane_printUnits, ↓foldl_printUnits, ↓ite_printUnits, ↓dite_printUnits, ↓reduceIte, ite_self,
      implies_true, ↓State.printUnits_keep])

theorem execMonitorConfigWrite_printUnits (unit : Nat) (reg : Nat) (value : Word) (s : State) :
    ∃ t, (execMonitorConfigWrite unit reg value s) = .next t ∧ t.printUnits = s.printUnits := by
  exact ⟨_, rfl, by simp only [↓State.orLater_printUnits, ↓State.monWrite_printUnits, ↓ite_printUnits, ite_self, implies_true]⟩

theorem execDetRefresh_printUnits (ch : Nat) (s : State) : ∃ t, (execDetRefresh ch s) = .next t ∧ t.printUnits = s.printUnits := by
  exact ⟨_, rfl, by simp only [↓State.interrupt_printUnits, ↓State.closeRows_printUnits, ↓State.calibrating_printUnits, ↓ite_printUnits,
    ite_self, ↓State.printUnits_keep]⟩

theorem execZoneFault_printUnits (group : Nat) (line : Nat) (s : State) :
    ∃ t, (execZoneFault group line s) = .next t ∧ t.printUnits = s.printUnits := by
  exact ⟨_, rfl, by simp only [↓State.setFld_printUnits, ↓State.raiseIf_printUnits, ↓State.log1_printUnits, ↓State.startWake_printUnits,
    ↓ite_printUnits, ite_self]⟩

theorem execTimeRead_printUnits (rq : Rq) (dom : Nat) (s : State) :
    ∃ t, (execTimeRead rq dom s) = .next t ∧ t.printUnits = s.printUnits := by
  exact ⟨_, rfl, by simp only [↓State.run_printUnits, ↓State.withParams_printUnits, ↓State.finish_printUnits, implies_true]⟩

theorem execCameraTrigger_printUnits (port : Nat) (s : State) :
    ∃ t, (execCameraTrigger port s) = .next t ∧ t.printUnits = s.printUnits := by
  exact ⟨_, rfl, by simp only [↓State.emit_printUnits, ↓State.setCam_printUnits, ↓ite_printUnits, ite_self]⟩

@[simp] theorem State.dropSwitch_printUnits (s : State) (entry : Nat) : (State.dropSwitch s entry).printUnits = s.printUnits := by
  rw [State.dropSwitch.eq_def]
  repeat' split
  all_goals simp only [↓State.setFld_printUnits, ↓State.vacate_printUnits, ↓State.finishSlot_printUnits, ↓State.printUnits_keep]

@[simp] theorem State.frameDone_printUnits (s : State) (n : Nat) (num : Nat) : (State.frameDone s n num).printUnits = s.printUnits := by
  simp only [State.frameDone.eq_def, ↓State.pruneGrid_printUnits, ↓State.setCam_printUnits]

@[simp] theorem State.measureOverlap_printUnits (s : State) (f : CamFrame) (o : Nat) (a : Nat × Nat × Nat) (b : Nat ×
    Nat × Nat) :
    (State.measureOverlap s f o a b).printUnits = s.printUnits := by
  rw [State.measureOverlap.eq_def] <;> (try simp only [↓State.setOverlap_printUnits, ↓State.jigEvent_printUnits, ↓foldl_printUnits,
      ↓ite_printUnits, ↓dite_printUnits, ↓reduceIte, ite_self, implies_true,
      ↓State.printUnits_keep]) <;> repeat' ((first | split | (rw [foldl_printUnits]; intro s x)) <;> try simp only [↓State.setOverlap_printUnits,
      ↓State.jigEvent_printUnits, ↓foldl_printUnits, ↓ite_printUnits, ↓dite_printUnits, ↓reduceIte, ite_self, implies_true,
      ↓State.printUnits_keep])

@[simp] theorem State.measureOverlaps_printUnits (s : State) (n : Nat) (f : CamFrame) :
    (State.measureOverlaps s n f).printUnits = s.printUnits := by
  simp only [State.measureOverlaps.eq_def, ↓State.measureOverlap_printUnits, ↓foldl_printUnits, ↓ite_printUnits, ite_self,
    implies_true]

@[simp] theorem State.rotationDone_printUnits (s : State) (c : Nat) : (State.rotationDone s c).printUnits = s.printUnits := by
  simp only [State.rotationDone.eq_def, ↓State.setFld_printUnits, ↓State.nextRotation_printUnits, ↓State.setCluster_printUnits,
    ↓ite_printUnits, ite_self]

@[simp] theorem State.learn_printUnits (s : State) (west : Bool) (l : List ChainEntry) :
    (State.learn s west l).printUnits = s.printUnits := by
  simp only [State.learn.eq_def, ↓State.setLink_printUnits, ↓ite_printUnits, ite_self, ↓State.printUnits_keep]

@[simp] theorem State.ssiMissed_printUnits (s : State) (u : Nat) (n : Nat) (tag : Option Nat) :
    (State.ssiMissed s u n tag).printUnits = s.printUnits := by
  simp only [State.ssiMissed.eq_def, ↓State.raise_printUnits, ↓State.setFld_printUnits, ↓ite_printUnits, ite_self]

@[simp] theorem State.ssiWord_printUnits (s : State) (u : Nat) (w : SsiWord) (tag : Option Nat) :
    (State.ssiWord s u w tag).printUnits = s.printUnits := by
  simp only [State.ssiWord.eq_def, ↓State.emit_printUnits, ↓State.setFld_printUnits, ↓State.setSsi_printUnits, ↓State.bump_printUnits,
    ↓State.ssiMissed_printUnits, ↓ite_printUnits, ite_self]

theorem execBarrierEngage_printUnits (s : State) : ∃ t, (execBarrierEngage s) = .next t ∧ t.printUnits = s.printUnits := by
  rw [execBarrierEngage.eq_def]
  refine ⟨_, rfl, ?_⟩
  repeat' split
  all_goals simp only [↓State.setFld_printUnits, ↓State.printUnits_keep]

@[simp] theorem State.switchDom_printUnits (s : State) (b : Nat) : (State.switchDom s b).printUnits = s.printUnits := by
  simp only [State.switchDom.eq_def, ↓State.showUtc_printUnits, ↓State.setResid_printUnits, ↓State.setFld_printUnits,
    ↓State.timeEvent_printUnits, ↓State.bump_printUnits, ↓State.log1_printUnits]

theorem execSourceAbsent_printUnits (s : State) : ∃ t, (execSourceAbsent s) = .next t ∧ t.printUnits = s.printUnits := by
  exact ⟨_, rfl, by simp only [↓State.sourceGone_printUnits, ↓State.log1_printUnits, ↓State.switchDom_printUnits,
    ↓State.timeEvent_printUnits, ↓State.setFld_printUnits, ↓ite_printUnits, ite_self]⟩

theorem execReply_printUnits (west : Bool) (bytes : List Byte) (s : State) :
    ∃ t, (execReply west bytes s) = .next t ∧ t.printUnits = s.printUnits := by
  exact ⟨_, rfl, by simp only [↓State.chainTake_printUnits, ↓State.takeReply_printUnits, ↓State.chainRelay_printUnits, ↓ite_printUnits,
    ite_self, implies_true]⟩

@[simp] theorem State.frameLine_printUnits (s : State) (n : Nat) (l : PortLine) : (State.frameLine s n l).printUnits = s.printUnits := by
  rw [State.frameLine.eq_def] <;> (try simp only [↓State.openFrame_printUnits, ↓State.closeFrame_printUnits,
      ↓State.deviation_printUnits, ↓State.setCam_printUnits, ↓State.inspLine_printUnits, ↓foldl_printUnits, ↓ite_printUnits, ↓dite_printUnits,
      ↓reduceIte, ite_self, implies_true,
      ↓State.printUnits_keep]) <;> repeat' ((first | split | (rw [foldl_printUnits]; intro s x)) <;> try simp only [↓State.openFrame_printUnits,
      ↓State.closeFrame_printUnits, ↓State.deviation_printUnits, ↓State.setCam_printUnits, ↓State.inspLine_printUnits, ↓foldl_printUnits,
      ↓ite_printUnits, ↓dite_printUnits, ↓reduceIte, ite_self, implies_true, ↓State.printUnits_keep])

theorem execCameraPortLine_printUnits (port : Nat) (samples : List Nat) (s : State) :
    ∃ t, (execCameraPortLine port samples s) = .next t ∧ t.printUnits = s.printUnits := by
  exact ⟨_, rfl, by simp only [↓State.setCam_printUnits, ↓State.frameLine_printUnits, ↓State.setFld_printUnits, ↓ite_printUnits, ite_self]⟩

@[simp] theorem State.axesWake_printUnits (s : State) : (State.axesWake s).printUnits = s.printUnits := by
  simp only [State.axesWake.eq_def, ↓State.axOutput_printUnits, ↓foldl_printUnits, implies_true]

@[simp] theorem State.lanesWake_printUnits (s : State) : (State.lanesWake s).printUnits = s.printUnits := by
  simp only [State.lanesWake.eq_def, ↓State.laneTrain_printUnits, ↓State.laneAsk_printUnits, ↓foldl_printUnits, ↓ite_printUnits, ite_self,
    implies_true]

@[simp] theorem State.back_printUnits (s : State) : (State.back s).printUnits = s.printUnits := by
  simp only [State.back.eq_def, ↓State.enter_printUnits]

@[simp] theorem State.leaveDeep_printUnits (s : State) : (State.leaveDeep s).printUnits = s.printUnits := by
  simp only [State.leaveDeep.eq_def, ↓State.setFld_printUnits, ↓State.showRamp_printUnits, ↓State.axesWake_printUnits,
    ↓State.lanesWake_printUnits, ↓State.undozeAll_printUnits, ↓State.back_printUnits, ↓State.ethChange_printUnits, ↓State.maskAll_printUnits,
    ↓State.dramDeep_printUnits, ↓State.printUnits_keep]

theorem execMicrostepLoad_printUnits (rq : Rq) (chunk : Chunk) (s : State) :
    ∃ t, (execMicrostepLoad rq chunk s) = .next t ∧ t.printUnits = s.printUnits := by
  rw [execMicrostepLoad.eq_def]
  repeat' split
  all_goals refine ⟨_, rfl, ?_⟩
  all_goals (try simp only [↓State.run_printUnits, ↓State.loadChunk_printUnits, ↓State.reject_printUnits, ↓State.finish_printUnits,
      ↓State.setAxis_printUnits, ↓foldl_printUnits, ↓ite_printUnits, ↓dite_printUnits, ↓reduceIte, ite_self, implies_true,
      ↓State.printUnits_keep])
  all_goals repeat' ((first | (rw [State.loadChunk_printUnits]; intro t rep s) | (rw [State.run_printUnits]; intro s) | split | (rw [foldl_printUnits]; intro s x)) <;> try simp only [↓State.run_printUnits,
      ↓State.loadChunk_printUnits, ↓State.reject_printUnits, ↓State.finish_printUnits, ↓State.setAxis_printUnits, ↓foldl_printUnits, ↓ite_printUnits,
      ↓dite_printUnits, ↓reduceIte, ite_self, implies_true, ↓State.printUnits_keep])

@[simp] theorem State.segment_printUnits (s : State) (v : LineView) (marks : List Mark) :
    (State.segment s v marks).printUnits = s.printUnits := by
  rw [State.segment]
  generalize gatherRuns v.m s.insp.comps (runsOf marks) = gs
  suffices H : ∀ (l : List (List Comp × List (List Mark))) (a : List Comp × State),
      (l.foldl (fun acc g => (acc.1 ++ (acc.2.group v g).1, (acc.2.group v g).2)) a).2.printUnits = a.2.printUnits by
    simpa only [State.printUnits_keep] using H gs ([], s)
  intro l
  induction l with
  | nil => intro a; rfl
  | cons g l ih => intro a; rw [List.foldl_cons, ih, State.group_printUnits]

theorem execRsmpPdatWrite_printUnits (unit : Nat) (value : Word) (s : State) :
    ∃ t, (execRsmpPdatWrite unit value s) = .next t ∧ t.printUnits = s.printUnits := by
  exact ⟨_, rfl, by simp only [↓State.orLater_printUnits, ↓State.rsmpPdat_printUnits, ↓ite_printUnits, ite_self, implies_true]⟩

theorem execDmaBusHaltClear_printUnits (s : State) : ∃ t, (execDmaBusHaltClear s) = .next t ∧ t.printUnits = s.printUnits := by
  exact ⟨_, rfl, by simp only [↓State.setFld_printUnits]⟩

theorem execCalRead_printUnits (rq : Rq) (kind : Nat) (inst : Nat) (start : Nat) (s : State) :
    ∃ t, (execCalRead rq kind inst start s) = .next t ∧ t.printUnits = s.printUnits := by
  exact ⟨_, rfl, by simp only [↓State.run_printUnits, ↓State.withParams_printUnits, ↓State.calVerify_printUnits, ↓State.finish_printUnits,
    implies_true]⟩

theorem execWake_printUnits (rq : Rq) (s : State) : ∃ t, (execWake rq s) = .next t ∧ t.printUnits = s.printUnits := by
  exact ⟨_, rfl, by simp only [↓State.run_printUnits, ↓State.withParams_printUnits, ↓State.startWake_printUnits, ↓State.occupy_printUnits,
    ↓State.pend_printUnits, implies_true, ↓State.printUnits_keep]⟩

theorem execMemDetWrite_printUnits (d : Nat) (s : State) : ∃ t, (execMemDetWrite d s) = .next t ∧ t.printUnits = s.printUnits := by
  exact ⟨_, rfl, by simp only [↓State.setFld_printUnits, ↓State.detWritten_printUnits, ↓ite_printUnits, ite_self]⟩

@[simp] theorem State.dropOpen_printUnits (s : State) (ip : Nat) (port : Nat) : (State.dropOpen s ip port).printUnits = s.printUnits := by
  simp only [State.dropOpen.eq_def, ↓State.printUnits_keep]

@[simp] theorem State.openPhase0_printUnits (s : State) (ip : Nat) (port : Nat) (rq : Rq) (p : List Byte) :
    (State.openPhase0 s ip port rq p).printUnits = s.printUnits := by
  simp only [State.openPhase0.eq_def, ↓State.openReply_printUnits, ↓State.dropOpen_printUnits, ↓ite_printUnits, ite_self,
    ↓State.printUnits_keep]

theorem execAxisProfileSet_printUnits (rq : Rq) (axis : Nat) (acc : Nat) (dec : Nat) (jerk : Nat) (s : State) :
    ∃ t, (execAxisProfileSet rq axis acc dec jerk s) = .next t ∧ t.printUnits = s.printUnits := by
  exact ⟨_, rfl, by simp only [↓State.run_printUnits, ↓State.withParams_printUnits, ↓State.finish_printUnits, ↓State.setFld_printUnits,
    ↓State.setAxis_printUnits, ↓ite_printUnits, ite_self, implies_true]⟩

theorem execRecordRingSet_printUnits (rq : Rq) (ring : Nat) (vector : Nat) (addr : Nat) (size : Nat) (s : State) :
    ∃ t, (execRecordRingSet rq ring vector addr size s) = .next t ∧ t.printUnits = s.printUnits := by
  exact ⟨_, rfl, by simp only [↓State.run_printUnits, ↓State.withParams_printUnits, ↓State.setRecRing_printUnits, ↓State.finish_printUnits,
    ↓State.mendC1_printUnits, implies_true]⟩

theorem execIndexEdge_printUnits (enc : Nat) (samples : Nat) (s : State) :
    ∃ t, (execIndexEdge enc samples s) = .next t ∧ t.printUnits = s.printUnits := by
  exact ⟨_, rfl, by simp only [↓State.raise_printUnits, ↓State.setFld_printUnits, ↓State.setEnc_printUnits, ↓State.indexCheck_printUnits,
    ↓ite_printUnits, ite_self]⟩

theorem execRsmpSwap_printUnits (unit : Nat) (s : State) : ∃ t, (execRsmpSwap unit s) = .next t ∧ t.printUnits = s.printUnits := by
  exact ⟨_, rfl, by simp only [↓State.orLater_printUnits, ↓State.rsmpSwap_printUnits, ↓ite_printUnits, ite_self, implies_true]⟩

theorem execReplyFetch_printUnits (rq : Rq) (tag : Nat) (s : State) :
    ∃ t, (execReplyFetch rq tag s) = .next t ∧ t.printUnits = s.printUnits := by
  exact ⟨_, rfl, by simp only [↓State.fetch_printUnits]⟩

@[simp] theorem State.openPhase1_printUnits (s : State) (ip : Nat) (port : Nat) (rq : Rq) (p : List Byte) :
    (State.openPhase1 s ip port rq p).printUnits = s.printUnits := by
  rw [State.openPhase1.eq_def] <;> (try simp only [↓State.openBad_printUnits, ↓State.dropOpen_printUnits, ↓State.openReply_printUnits,
      ↓State.authFail_printUnits, ↓State.openSession_printUnits, ↓foldl_printUnits, ↓ite_printUnits, ↓dite_printUnits, ↓reduceIte, ite_self,
      implies_true,
      ↓State.printUnits_keep]) <;> repeat' ((first | split | (rw [foldl_printUnits]; intro s x)) <;> try simp only [↓State.openBad_printUnits,
      ↓State.dropOpen_printUnits, ↓State.openReply_printUnits, ↓State.authFail_printUnits, ↓State.openSession_printUnits, ↓foldl_printUnits,
      ↓ite_printUnits, ↓dite_printUnits, ↓reduceIte, ite_self, implies_true, ↓State.printUnits_keep])

@[simp] theorem State.arbBreak_printUnits (s : State) (net : Bool) (arb : Nat) (reqs : List ArbReq) :
    (State.arbBreak s net arb reqs).printUnits = s.printUnits := by
  simp only [State.arbBreak.eq_def, ↓State.setArb_printUnits, ↓State.setFld_printUnits, ↓State.countForced_printUnits, ↓ite_printUnits,
    ite_self]

theorem execMonRestart_printUnits (s : State) : ∃ t, (execMonRestart s) = .next t ∧ t.printUnits = s.printUnits := by
  exact ⟨_, rfl, by simp only [↓State.endTask_printUnits, ↓State.monRestart_printUnits, ↓foldl_printUnits, implies_true]⟩

theorem execClassSet_printUnits (rq : Rq) (chunk : Chunk) (s : State) :
    ∃ t, (execClassSet rq chunk s) = .next t ∧ t.printUnits = s.printUnits := by
  exact ⟨_, rfl, by simp only [↓State.run_printUnits, ↓State.loadTab_printUnits, implies_true]⟩

theorem execTimeAdjust_printUnits (rq : Rq) (dom : Nat) (inc : Nat) (adj : Int) (s : State) :
    ∃ t, (execTimeAdjust rq dom inc adj s) = .next t ∧ t.printUnits = s.printUnits := by
  exact ⟨_, rfl, by simp only [↓State.run_printUnits, ↓State.withParams_printUnits, ↓State.finish_printUnits, ↓State.setInc_printUnits,
    ↓State.stepDom_printUnits, ↓State.sourceHeard_printUnits, ↓ite_printUnits, ite_self, implies_true]⟩

theorem execFrameOpen_printUnits (port : Nat) (s : State) : ∃ t, (execFrameOpen port s) = .next t ∧ t.printUnits = s.printUnits := by
  exact ⟨_, rfl, by simp only [↓State.openFrame_printUnits, ↓State.setCam_printUnits, ↓ite_printUnits, ite_self]⟩

@[simp] theorem State.setStuck_printUnits (s : State) (arb : Nat) : (State.setStuck s arb).printUnits = s.printUnits := by
  simp only [State.setStuck.eq_def, ↓State.setFld_printUnits, ↓ite_printUnits, ite_self]

@[simp] theorem State.readCopy_printUnits (s : State) (b : Nat) (second : Bool) (k : Nat) (f : Nat) :
    (State.readCopy s b second k f).printUnits = s.printUnits := by
  simp only [State.readCopy.eq_def, ↓State.readMem_printUnits]

theorem execEventFire_printUnits (rq : Rq) (sw : Nat) (s : State) :
    ∃ t, (execEventFire rq sw s) = .next t ∧ t.printUnits = s.printUnits := by
  exact ⟨_, rfl, by simp only [↓State.run_printUnits, ↓State.withParams_printUnits, ↓State.finish_printUnits, ↓State.raise_printUnits,
    implies_true]⟩

theorem execKalPdatWrite_printUnits (pipe : Nat) (value : Word) (s : State) :
    ∃ t, (execKalPdatWrite pipe value s) = .next t ∧ t.printUnits = s.printUnits := by
  exact ⟨_, rfl, by simp only [↓State.orLater_printUnits, ↓State.kalPdat_printUnits, ↓ite_printUnits, ite_self, implies_true]⟩

@[simp] theorem State.blanked_printUnits (s : State) (b : Nat) (k : Nat) (cause : Nat) (line : Nat) (slice : Nat)
    (engA : Nat) (engB : Nat) :
    (State.blanked s b k cause line slice engA engB).printUnits = s.printUnits := by
  simp only [State.blanked.eq_def, ↓State.setFld_printUnits, ↓State.raiseIf_printUnits]

theorem execCameraSet_printUnits (rq : Rq) (port : Nat) (ident : Nat) (expo : Nat) (gain : Nat) (s : State) :
    ∃ t, (execCameraSet rq port ident expo gain s) = .next t ∧ t.printUnits = s.printUnits := by
  exact ⟨_, rfl, by simp only [↓State.run_printUnits, ↓State.withParams_printUnits, ↓State.finish_printUnits, ↓State.occupy_printUnits,
    ↓State.pend_printUnits, ↓State.setFlag_printUnits, ↓State.setCam_printUnits, ↓ite_printUnits, ite_self, implies_true]⟩

theorem execArbiterGrant_printUnits (net : Bool) (arb : Nat) (reqs : List ArbReq) (s : State) :
    ∃ t, (execArbiterGrant net arb reqs s) = .next t ∧ t.printUnits = s.printUnits := by
  exact ⟨_, rfl, by simp only [↓State.arbBreak_printUnits]⟩

theorem execPerstRelease_printUnits (speed : Nat) (width : Nat) (s : State) :
    ∃ t, (execPerstRelease speed width s) = .next t ∧ t.printUnits = s.printUnits := by
  exact ⟨_, rfl, by simp only [↓State.setFld_printUnits]⟩

theorem execTjOver_printUnits (tj : Int) (s : State) : ∃ t, (execTjOver tj s) = .next t ∧ t.printUnits = s.printUnits := by
  exact ⟨_, rfl, by simp only [↓State.setFldI_printUnits, ↓State.setFld_printUnits, ↓State.breach_printUnits, ↓State.raiseIf_printUnits,
    ↓ite_printUnits, ite_self]⟩

theorem execEqAdapt_printUnits (lane : Nat) (foms : List Nat) (s : State) :
    ∃ t, (execEqAdapt lane foms s) = .next t ∧ t.printUnits = s.printUnits := by
  exact ⟨_, rfl, by simp only [↓State.setLaneGrp_printUnits, ↓State.setLane_printUnits, ↓State.setFld_printUnits, ↓State.showFom_printUnits,
    ↓ite_printUnits, ite_self]⟩

theorem execFwFallbackEnd_printUnits (s : State) : ∃ t, (execFwFallbackEnd s) = .next t ∧ t.printUnits = s.printUnits := by
  exact ⟨_, rfl, by simp only [↓State.setFld_printUnits, ↓ite_printUnits, ite_self]⟩

@[simp] theorem State.lockGive_printUnits (s : State) (k : Nat) (input : Nat) (engine : Bool) (client : Nat) :
    (State.lockGive s k input engine client).printUnits = s.printUnits := by
  simp only [State.lockGive.eq_def, ↓State.lockOwn_printUnits, ↓State.setLock_printUnits]

theorem execEngineLockRequest_printUnits (engine : Nat) (lock : Nat) (cls : Traffic) (s : State) :
    ∃ t, (execEngineLockRequest engine lock cls s) = .next t ∧ t.printUnits = s.printUnits := by
  rw [execEngineLockRequest.eq_def]
  refine ⟨_, rfl, ?_⟩
  repeat' split
  all_goals simp only [↓State.tellEngine_printUnits, ↓State.lockGive_printUnits, ↓State.setLock_printUnits]

theorem execToken_printUnits (west : Bool) (bytes : List Byte) (s : State) :
    ∃ t, (execToken west bytes s) = .next t ∧ t.printUnits = s.printUnits := by
  exact ⟨_, rfl, by simp only [↓State.chainTake_printUnits, ↓State.announce_printUnits, ↓State.log1_printUnits,
    ↓State.chainStatusSet_printUnits, ↓State.learn_printUnits, ↓State.chainRelay_printUnits, ↓ite_printUnits, ite_self, implies_true,
    ↓State.printUnits_keep]⟩

theorem execPinEdge_printUnits (pin : Nat) (level : Bool) (ns : Nat) (s : State) :
    ∃ t, (execPinEdge pin level ns s) = .next t ∧ t.printUnits = s.printUnits := by
  exact ⟨_, rfl, by simp only [↓State.setFld_printUnits, ↓State.bump_printUnits, ↓State.breachOnce_printUnits, ↓State.raise_printUnits,
    ↓ite_printUnits, ite_self, ↓State.printUnits_keep]⟩

@[simp] theorem State.mgmtReads_printUnits (s : State) (x1 : Nat) : (State.mgmtReads s x1).printUnits = s.printUnits := by
  induction x1 generalizing s with
  | zero => rfl
  | succ n ih =>
    rw [State.mgmtReads]
    split <;> rw [ih, State.printUnits_keep, State.emit_printUnits]

@[simp] theorem State.pairFaults_printUnits (s : State) : (State.pairFaults s).printUnits = s.printUnits := by
  simp only [State.pairFaults.eq_def, ↓State.setFld_printUnits, ↓State.printUnits_keep]

theorem execKeySet_printUnits (rq : Rq) (slot : Nat) (key : List Byte) (s : State) :
    ∃ t, (execKeySet rq slot key s) = .next t ∧ t.printUnits = s.printUnits := by
  exact ⟨_, rfl, by simp only [↓State.run_printUnits, ↓State.finish_printUnits, ↓State.withParams_printUnits, ↓ite_printUnits, ite_self,
    implies_true, ↓State.printUnits_keep]⟩

theorem execReverseBlock_printUnits (s : State) : ∃ t, (execReverseBlock s) = .next t ∧ t.printUnits = s.printUnits := by
  rw [execReverseBlock.eq_def]
  exact ⟨_, rfl, rfl⟩

theorem execTjOverEnd_printUnits (tj : Int) (s : State) : ∃ t, (execTjOverEnd tj s) = .next t ∧ t.printUnits = s.printUnits := by
  exact ⟨_, rfl, by simp only [↓State.mendC5_printUnits, ↓State.setFld_printUnits, ↓State.setFldI_printUnits, ↓ite_printUnits, ite_self]⟩

@[simp] theorem State.setTemp_printUnits (s : State) (q : Nat) (t : Int) : (State.setTemp s q t).printUnits = s.printUnits := by
  simp only [State.setTemp.eq_def, ↓State.setFldI_printUnits, ↓State.setFld_printUnits]

theorem execStackEmergencyEnd_printUnits (stack : Nat) (temp : Int) (s : State) :
    ∃ t, (execStackEmergencyEnd stack temp s) = .next t ∧ t.printUnits = s.printUnits := by
  exact ⟨_, rfl, by simp only [↓State.setTemp_printUnits, ↓State.setFld_printUnits, ↓State.mend_printUnits, ↓ite_printUnits, ite_self]⟩

theorem execReplyRingStallTimeout_printUnits (ring : Nat) (s : State) :
    ∃ t, (execReplyRingStallTimeout ring s) = .next t ∧ t.printUnits = s.printUnits := by
  exact ⟨_, rfl, by simp only [↓State.setFld_printUnits, ↓State.breach_printUnits, ↓State.setRing_printUnits, ↓ite_printUnits, ite_self]⟩

theorem execSessionOpen_printUnits (ip : Nat) (port : Nat) (rq : Rq) (payload : List Byte) (s : State) :
    ∃ t, (execSessionOpen ip port rq payload s) = .next t ∧ t.printUnits = s.printUnits := by
  rw [execSessionOpen.eq_def]
  refine ⟨_, rfl, ?_⟩
  repeat' split
  all_goals simp only [↓State.openReply_printUnits, ↓State.openBad_printUnits, ↓State.openPhase0_printUnits, ↓State.openPhase1_printUnits,
    ↓ite_printUnits, ite_self, ↓State.printUnits_keep]

theorem execKeyLockoutEnd_printUnits (slot : Nat) (s : State) :
    ∃ t, (execKeyLockoutEnd slot s) = .next t ∧ t.printUnits = s.printUnits := by
  rw [execKeyLockoutEnd.eq_def]
  exact ⟨_, rfl, rfl⟩

theorem execBankRefresh_printUnits (ch : Nat) (bank : Nat) (s : State) :
    ∃ t, (execBankRefresh ch bank s) = .next t ∧ t.printUnits = s.printUnits := by
  exact ⟨_, rfl, by simp only [↓State.interrupt_printUnits, ↓State.closeRows_printUnits, ↓ite_printUnits, ite_self]⟩

theorem execTime_printUnits (west : Bool) (bytes : List Byte) (s : State) :
    ∃ t, (execTime west bytes s) = .next t ∧ t.printUnits = s.printUnits := by
  exact ⟨_, rfl, by simp only [↓State.chainTake_printUnits, ↓State.ringTime_printUnits, ↓State.chainRelay_printUnits,
    ↓State.setLink_printUnits, ↓State.chainSendOn_printUnits, ↓ite_printUnits, ite_self, implies_true, ↓State.printUnits_keep]⟩

theorem execCalRun_printUnits (rq : Rq) (kind : Nat) (inst : Nat) (s : State) :
    ∃ t, (execCalRun rq kind inst s) = .next t ∧ t.printUnits = s.printUnits := by
  exact ⟨_, rfl, by simp only [↓State.run_printUnits, ↓State.withParams_printUnits, ↓State.startCal_printUnits, ↓State.finish_printUnits,
    ↓State.calRate_printUnits, ↓ite_printUnits, ite_self, implies_true]⟩

theorem execSleep_printUnits (rq : Rq) (s : State) : ∃ t, (execSleep rq s) = .next t ∧ t.printUnits = s.printUnits := by
  exact ⟨_, rfl, by simp only [↓State.run_printUnits, ↓State.withParams_printUnits, ↓State.finish_printUnits, ↓State.setFld_printUnits,
    ↓State.occupy_printUnits, ↓State.pend_printUnits, ↓ite_printUnits, ite_self, implies_true, ↓State.printUnits_keep]⟩

theorem execVcoreLow_printUnits (s : State) : ∃ t, (execVcoreLow s) = .next t ∧ t.printUnits = s.printUnits := by
  exact ⟨_, rfl, by simp only [↓State.setFld_printUnits, ↓State.breach_printUnits, ↓State.printUnits_keep]⟩

theorem execEthLinkChange_printUnits (port : Nat) (link : Bool) (anDone : Bool) (fecLock : Bool) (s : State) :
    ∃ t, (execEthLinkChange port link anDone fecLock s) = .next t ∧ t.printUnits = s.printUnits := by
  exact ⟨_, rfl, by simp only [↓State.setFlag_printUnits, ↓ite_printUnits, ite_self]⟩

theorem execSpareStatus_printUnits (rq : Rq) (s : State) : ∃ t, (execSpareStatus rq s) = .next t ∧ t.printUnits = s.printUnits := by
  exact ⟨_, rfl, by simp only [↓State.run_printUnits, ↓State.withParams_printUnits, ↓State.finish_printUnits, implies_true]⟩

theorem execColourModelLoad_printUnits (rq : Rq) (chunk : Chunk) (s : State) :
    ∃ t, (execColourModelLoad rq chunk s) = .next t ∧ t.printUnits = s.printUnits := by
  exact ⟨_, rfl, by simp only [↓State.run_printUnits, ↓State.loadTab_printUnits, implies_true]⟩

theorem execMgmtPortAccess_printUnits (select : Option Nat) (reads : Nat) (s : State) :
    ∃ t, (execMgmtPortAccess select reads s) = .next t ∧ t.printUnits = s.printUnits := by
  rw [execMgmtPortAccess.eq_def]
  refine ⟨_, rfl, ?_⟩
  repeat' split
  all_goals simp only [↓State.mgmtReads_printUnits, ↓State.printUnits_keep]

theorem execChkFeed_printUnits (unit : Nat) (value : Word) (s : State) :
    ∃ t, (execChkFeed unit value s) = .next t ∧ t.printUnits = s.printUnits := by
  exact ⟨_, rfl, by simp only [↓State.orLater_printUnits, ↓State.setChk_printUnits, implies_true]⟩

theorem execFaultLogRead_printUnits (rq : Rq) (first : Nat) (s : State) :
    ∃ t, (execFaultLogRead rq first s) = .next t ∧ t.printUnits = s.printUnits := by
  exact ⟨_, rfl, by simp only [↓State.run_printUnits, ↓State.withParams_printUnits, ↓State.finish_printUnits, implies_true]⟩

theorem execArbiterStuck_printUnits (arb : Nat) (input : Nat) (cmd : Option Rq) (s : State) :
    ∃ t, (execArbiterStuck arb input cmd s) = .next t ∧ t.printUnits = s.printUnits := by
  rw [execArbiterStuck.eq_def]
  repeat' split
  all_goals refine ⟨_, rfl, ?_⟩
  all_goals (try simp only [↓State.log1_printUnits, ↓State.setStuck_printUnits, ↓State.vacate_printUnits, ↓State.finishSlot_printUnits,
      ↓foldl_printUnits, ↓ite_printUnits, ↓dite_printUnits, ↓reduceIte, ite_self, implies_true, ↓State.printUnits_keep])
  all_goals repeat' ((first | split | (rw [foldl_printUnits]; intro s x)) <;> try simp only [↓State.log1_printUnits,
      ↓State.setStuck_printUnits, ↓State.vacate_printUnits, ↓State.finishSlot_printUnits, ↓foldl_printUnits, ↓ite_printUnits, ↓dite_printUnits,
      ↓reduceIte, ite_self, implies_true, ↓State.printUnits_keep])

theorem execMonitorWindowEnd_printUnits (unit : Nat) (s : State) :
    ∃ t, (execMonitorWindowEnd unit s) = .next t ∧ t.printUnits = s.printUnits := by
  exact ⟨_, rfl, by simp only [↓State.monEnd_printUnits, ↓ite_printUnits, ite_self]⟩

theorem execTakeoverSwitch_printUnits (group : Nat) (comparePass : Bool) (s : State) :
    ∃ t, (execTakeoverSwitch group comparePass s) = .next t ∧ t.printUnits = s.printUnits := by
  rw [execTakeoverSwitch.eq_def]
  repeat' split
  all_goals refine ⟨_, rfl, ?_⟩
  all_goals (try simp only [↓State.takeoverFail_printUnits, ↓State.setFld_printUnits, ↓State.setLane_printUnits,
      ↓State.setLaneGrp_printUnits, ↓State.bump_printUnits, ↓State.raiseIf_printUnits, ↓foldl_printUnits, ↓ite_printUnits, ↓dite_printUnits, ↓reduceIte,
      ite_self, implies_true, ↓State.printUnits_keep])
  all_goals repeat' ((first | split | (rw [foldl_printUnits]; intro s x)) <;> try simp only [↓State.takeoverFail_printUnits,
      ↓State.setFld_printUnits, ↓State.setLane_printUnits, ↓State.setLaneGrp_printUnits, ↓State.bump_printUnits, ↓State.raiseIf_printUnits,
      ↓foldl_printUnits, ↓ite_printUnits, ↓dite_printUnits, ↓reduceIte, ite_self, implies_true, ↓State.printUnits_keep])

theorem execLoLatchRead_printUnits (path : Path) (addr : Nat) (s : State) :
    ∃ t, (execLoLatchRead path addr s) = .next t ∧ t.printUnits = s.printUnits := by
  exact ⟨_, rfl, by simp only [↓State.readOn_printUnits]⟩

theorem execCredit_printUnits (board : Nat) (bytes : List Byte) (s : State) :
    ∃ t, (execCredit board bytes s) = .next t ∧ t.printUnits = s.printUnits := by
  rw [execCredit.eq_def]
  refine ⟨_, rfl, ?_⟩
  repeat' split
  all_goals simp only [↓State.setCredits_printUnits]

theorem execSensorXfer_printUnits (rq : Rq) (port : Nat) (bytesOut : List Byte) (s : State) :
    ∃ t, (execSensorXfer rq port bytesOut s) = .next t ∧ t.printUnits = s.printUnits := by
  exact ⟨_, rfl, by simp only [↓State.run_printUnits, ↓State.withParams_printUnits, ↓State.finish_printUnits, ↓State.occupy_printUnits,
    ↓State.pend_printUnits, ↓State.emit_printUnits, ↓State.setCam_printUnits, ↓ite_printUnits, ite_self, implies_true]⟩

theorem execFwHandover_printUnits (s : State) : ∃ t, (execFwHandover s) = .next t ∧ t.printUnits = s.printUnits := by
  rw [execFwHandover.eq_def]
  refine ⟨_, rfl, ?_⟩
  repeat' split
  all_goals simp only [↓State.setOldKernels_printUnits, ↓State.swapPairs_printUnits, ↓State.runSlot_printUnits, ↓State.setFld_printUnits,
    ↓State.raiseIf_printUnits, ↓State.vacate_printUnits, ↓State.finishSlot_printUnits, ↓State.printUnits_keep]

theorem execGetState_printUnits (rq : Rq) (s : State) : ∃ t, (execGetState rq s) = .next t ∧ t.printUnits = s.printUnits := by
  exact ⟨_, rfl, by simp only [↓State.run_printUnits, ↓State.finish_printUnits, implies_true]⟩

theorem execDelayResp_printUnits (west : Bool) (bytes : List Byte) (s : State) :
    ∃ t, (execDelayResp west bytes s) = .next t ∧ t.printUnits = s.printUnits := by
  rw [execDelayResp.eq_def]
  repeat' split
  all_goals refine ⟨_, rfl, ?_⟩
  all_goals (try simp only [↓State.chainTake_printUnits, ↓State.setLink_printUnits, ↓foldl_printUnits, ↓ite_printUnits, ↓dite_printUnits,
      ↓reduceIte, ite_self, implies_true, ↓State.printUnits_keep])
  all_goals repeat' ((first | (rw [State.chainTake_printUnits]; intro p s) | split | (rw [foldl_printUnits]; intro s x)) <;> try simp only [↓State.chainTake_printUnits,
      ↓State.setLink_printUnits, ↓foldl_printUnits, ↓ite_printUnits, ↓dite_printUnits, ↓reduceIte, ite_self, implies_true,
      ↓State.printUnits_keep])

theorem execRsmpApply_printUnits (unit : Nat) (s : State) : ∃ t, (execRsmpApply unit s) = .next t ∧ t.printUnits = s.printUnits := by
  exact ⟨_, rfl, by simp only [↓State.orLater_printUnits, ↓State.rsmpApply_printUnits, ↓ite_printUnits, ite_self, implies_true]⟩

theorem execLockWaitTimeout_printUnits (lock : Nat) (sess : Nat) (s : State) :
    ∃ t, (execLockWaitTimeout lock sess s) = .next t ∧ t.printUnits = s.printUnits := by
  rw [execLockWaitTimeout.eq_def]
  refine ⟨_, rfl, ?_⟩
  repeat' split
  all_goals simp only [↓State.finishSlot_printUnits, ↓State.lockKeep_printUnits]

theorem execSsiRead_printUnits (unit : Nat) (word : SsiWord) (s : State) :
    ∃ t, (execSsiRead unit word s) = .next t ∧ t.printUnits = s.printUnits := by
  exact ⟨_, rfl, by simp only [↓State.endTask_printUnits, ↓State.ssiWord_printUnits, ↓ite_printUnits, ite_self]⟩

theorem execTakeoverStart_printUnits (group : Nat) (s : State) :
    ∃ t, (execTakeoverStart group s) = .next t ∧ t.printUnits = s.printUnits := by
  rw [execTakeoverStart.eq_def]
  refine ⟨_, rfl, ?_⟩
  repeat' split
  all_goals simp only [↓State.log1_printUnits, ↓State.setLaneGrp_printUnits, ↓State.setFld_printUnits]

theorem execSensorTransferEnd_printUnits (port : Nat) (bytesIn : List Byte) (s : State) :
    ∃ t, (execSensorTransferEnd port bytesIn s) = .next t ∧ t.printUnits = s.printUnits := by
  rw [execSensorTransferEnd.eq_def]
  repeat' split
  all_goals refine ⟨_, rfl, ?_⟩
  all_goals (try simp only [↓State.vacate_printUnits, ↓State.finishSlot_printUnits, ↓State.setCam_printUnits, ↓State.setFld_printUnits,
      ↓foldl_printUnits, ↓ite_printUnits, ↓dite_printUnits, ↓reduceIte, ite_self, implies_true, ↓State.printUnits_keep])
  all_goals repeat' ((first | split | (rw [foldl_printUnits]; intro s x)) <;> try simp only [↓State.vacate_printUnits,
      ↓State.finishSlot_printUnits, ↓State.setCam_printUnits, ↓State.setFld_printUnits, ↓foldl_printUnits, ↓ite_printUnits, ↓dite_printUnits,
      ↓reduceIte, ite_self, implies_true, ↓State.printUnits_keep])

theorem execMonitorSample_printUnits (unit : Nat) (value : Int) (s : State) :
    ∃ t, (execMonitorSample unit value s) = .next t ∧ t.printUnits = s.printUnits := by
  exact ⟨_, rfl, by simp only [↓State.setMon_printUnits, ↓State.setFld_printUnits, ↓State.monEnd_printUnits, ↓ite_printUnits, ite_self]⟩

theorem execConfig_printUnits (west : Bool) (bytes : List Byte) (s : State) :
    ∃ t, (execConfig west bytes s) = .next t ∧ t.printUnits = s.printUnits := by
  exact ⟨_, rfl, by simp only [↓State.chainTake_printUnits, ↓State.chainSpread_printUnits, ↓State.raiseRate_printUnits, ↓ite_printUnits,
    ite_self, implies_true, ↓State.printUnits_keep]⟩

theorem execServiceExit_printUnits (rq : Rq) (s : State) : ∃ t, (execServiceExit rq s) = .next t ∧ t.printUnits = s.printUnits := by
  exact ⟨_, rfl, by simp only [↓State.run_printUnits, ↓State.withParams_printUnits, ↓State.finish_printUnits, ↓State.back_printUnits,
    implies_true]⟩

theorem execMonSnapshotEvent_printUnits (s : State) : ∃ t, (execMonSnapshotEvent s) = .next t ∧ t.printUnits = s.printUnits := by
  exact ⟨_, rfl, by simp only [↓State.endTask_printUnits, ↓State.monSnap_printUnits, ↓foldl_printUnits, implies_true]⟩

theorem execFaultLogCopy_printUnits (s : State) : ∃ t, (execFaultLogCopy s) = .next t ∧ t.printUnits = s.printUnits := by
  exact ⟨_, rfl, by simp only [↓State.copyLog_printUnits]⟩

theorem execSwitchAccept_printUnits (sw : Nat) (level : Bool) (us : Nat) (s : State) :
    ∃ t, (execSwitchAccept sw level us s) = .next t ∧ t.printUnits = s.printUnits := by
  exact ⟨_, rfl, by simp only [↓State.switchTo_printUnits, ↓foldl_printUnits, ↓ite_printUnits, ite_self, implies_true,
    ↓State.printUnits_keep]⟩

theorem execReadClear_printUnits (path : Path) (addr : Nat) (s : State) :
    ∃ t, (execReadClear path addr s) = .next t ∧ t.printUnits = s.printUnits := by
  exact ⟨_, rfl, by simp only [↓State.readOn_printUnits]⟩

theorem execChainRescan_printUnits (rq : Rq) (s : State) : ∃ t, (execChainRescan rq s) = .next t ∧ t.printUnits = s.printUnits := by
  exact ⟨_, rfl, by simp only [↓State.run_printUnits, ↓State.withParams_printUnits, ↓State.announce_printUnits, ↓State.discover_printUnits,
    ↓State.finish_printUnits, ↓ite_printUnits, ite_self, implies_true]⟩

theorem execRateReqTimeout_printUnits (lane : Nat) (s : State) :
    ∃ t, (execRateReqTimeout lane s) = .next t ∧ t.printUnits = s.printUnits := by
  rw [execRateReqTimeout.eq_def]
  refine ⟨_, rfl, ?_⟩
  repeat' split
  all_goals simp only [↓State.setLane_printUnits, ↓State.setFld_printUnits]

theorem execLockAcquire_printUnits (rq : Rq) (lock : Nat) (waitMs : Nat) (s : State) :
    ∃ t, (execLockAcquire rq lock waitMs s) = .next t ∧ t.printUnits = s.printUnits := by
  rw [execLockAcquire.eq_def]
  repeat' split
  all_goals refine ⟨_, rfl, ?_⟩
  all_goals (try simp only [↓State.run_printUnits, ↓State.withParams_printUnits, ↓State.finish_printUnits, ↓State.lockGive_printUnits,
      ↓State.setLock_printUnits, ↓State.pend_printUnits, ↓foldl_printUnits, ↓ite_printUnits, ↓dite_printUnits, ↓reduceIte, ite_self, implies_true,
      ↓State.printUnits_keep])
  all_goals repeat' ((first | (rw [State.withParams_printUnits]; intro s) | (rw [State.run_printUnits]; intro s) | split | (rw [foldl_printUnits]; intro s x)) <;> try simp only [↓State.run_printUnits,
      ↓State.withParams_printUnits, ↓State.finish_printUnits, ↓State.lockGive_printUnits, ↓State.setLock_printUnits, ↓State.pend_printUnits,
      ↓foldl_printUnits, ↓ite_printUnits, ↓dite_printUnits, ↓reduceIte, ite_self, implies_true, ↓State.printUnits_keep])

theorem execDarkCalDone_printUnits (port : Nat) (s : State) : ∃ t, (execDarkCalDone port s) = .next t ∧ t.printUnits = s.printUnits := by
  rw [execDarkCalDone.eq_def]
  refine ⟨_, rfl, ?_⟩
  repeat' split
  all_goals simp only [↓State.setCam_printUnits, ↓State.finishSlot_printUnits, ↓State.calWrite_printUnits, ↓ite_printUnits, ite_self]

theorem execKernelRotationStep_printUnits (s : State) : ∃ t, (execKernelRotationStep s) = .next t ∧ t.printUnits = s.printUnits := by
  exact ⟨_, rfl, by simp only [↓State.nextRotation_printUnits, ↓State.locksOfBreak_printUnits, ↓State.rotationDone_printUnits,
    ↓State.tookOver_printUnits, ↓State.setCluster_printUnits, ↓ite_printUnits, ite_self]⟩

theorem execStackEmergency_printUnits (stack : Nat) (temp : Int) (s : State) :
    ∃ t, (execStackEmergency stack temp s) = .next t ∧ t.printUnits = s.printUnits := by
  exact ⟨_, rfl, by simp only [↓State.setTemp_printUnits, ↓State.breach_printUnits, ↓State.setFld_printUnits, ↓ite_printUnits, ite_self]⟩

theorem execAnnounceReceiptTimeout_printUnits (port : Nat) (s : State) :
    ∃ t, (execAnnounceReceiptTimeout port s) = .next t ∧ t.printUnits = s.printUnits := by
  exact ⟨_, rfl, by simp only [↓State.portShown_printUnits, ↓State.setClock_printUnits, ↓foldl_printUnits, ↓ite_printUnits, ite_self,
    implies_true]⟩

theorem execConsumerIndexPoll_printUnits (ring : Nat) (result : IndexRead) (s : State) :
    ∃ t, (execConsumerIndexPoll ring result s) = .next t ∧ t.printUnits = s.printUnits := by
  rw [execConsumerIndexPoll.eq_def]
  refine ⟨_, rfl, ?_⟩
  repeat' split
  all_goals simp only [↓State.log1_printUnits, ↓State.pcieReport_printUnits, ↓State.mendC1_printUnits, ↓State.setRecRing_printUnits,
    ↓ite_printUnits, ite_self]

theorem execAxisHoldCurrent_printUnits (axis : Nat) (s : State) :
    ∃ t, (execAxisHoldCurrent axis s) = .next t ∧ t.printUnits = s.printUnits := by
  exact ⟨_, rfl, by simp only [↓State.setAxis_printUnits, ↓ite_printUnits, ite_self]⟩

theorem execRecordRingFullTimeout_printUnits (ring : Nat) (s : State) :
    ∃ t, (execRecordRingFullTimeout ring s) = .next t ∧ t.printUnits = s.printUnits := by
  exact ⟨_, rfl, by simp only [↓State.breach_printUnits, ↓State.setRecRing_printUnits, ↓ite_printUnits, ite_self]⟩

theorem execInterruptCoalesce_printUnits (ring : Nat) (s : State) :
    ∃ t, (execInterruptCoalesce ring s) = .next t ∧ t.printUnits = s.printUnits := by
  exact ⟨_, rfl, by simp only [↓State.msixSignal_printUnits, ↓State.setRecRing_printUnits, ↓ite_printUnits, ite_self]⟩

theorem execImpedanceCal_printUnits (ch : Nat) (s : State) : ∃ t, (execImpedanceCal ch s) = .next t ∧ t.printUnits = s.printUnits := by
  exact ⟨_, rfl, by simp only [↓State.calibrate_printUnits]⟩

theorem execRingTimeSend_printUnits (s : State) : ∃ t, (execRingTimeSend s) = .next t ∧ t.printUnits = s.printUnits := by
  exact ⟨_, rfl, by simp only [↓State.chainAll_printUnits, ↓ite_printUnits, ite_self, ↓State.printUnits_keep]⟩

theorem execDomainSelect_printUnits (rq : Rq) (dom : Nat) (s : State) :
    ∃ t, (execDomainSelect rq dom s) = .next t ∧ t.printUnits = s.printUnits := by
  exact ⟨_, rfl, by simp only [↓State.run_printUnits, ↓State.withParams_printUnits, ↓State.finish_printUnits, ↓State.reject_printUnits,
    ↓State.switchDom_printUnits, ↓ite_printUnits, ite_self, implies_true]⟩

theorem execLockHoldExpiry_printUnits (lock : Nat) (s : State) :
    ∃ t, (execLockHoldExpiry lock s) = .next t ∧ t.printUnits = s.printUnits := by
  exact ⟨_, rfl, by simp only [↓State.breachOnce_printUnits, ↓State.lockBreak_printUnits, ↓ite_printUnits, ite_self]⟩

theorem execPinPulse_printUnits (pin : Nat) (s : State) : ∃ t, (execPinPulse pin s) = .next t ∧ t.printUnits = s.printUnits := by
  exact ⟨_, rfl, by simp only [↓State.setCons_printUnits, ↓State.emit_printUnits, ↓State.endTask_printUnits, ↓ite_printUnits, ite_self]⟩

theorem execAxisUpdate_printUnits (axis : Nat) (s : State) : ∃ t, (execAxisUpdate axis s) = .next t ∧ t.printUnits = s.printUnits := by
  rw [execAxisUpdate.eq_def]
  repeat' split
  all_goals refine ⟨_, rfl, ?_⟩
  all_goals (try simp only [↓State.axTable_printUnits, ↓State.axFollowUpdate_printUnits, ↓State.axAdvance_printUnits,
      ↓State.axIssue_printUnits, ↓foldl_printUnits, ↓ite_printUnits, ↓dite_printUnits, ↓reduceIte, ite_self, implies_true,
      ↓State.printUnits_keep])
  all_goals repeat' ((first | split | (rw [foldl_printUnits]; intro s x)) <;> try simp only [↓State.axTable_printUnits,
      ↓State.axFollowUpdate_printUnits, ↓State.axAdvance_printUnits, ↓State.axIssue_printUnits, ↓foldl_printUnits, ↓ite_printUnits, ↓dite_printUnits,
      ↓reduceIte, ite_self, implies_true, ↓State.printUnits_keep])

theorem execAxisMove_printUnits (rq : Rq) (axis : Nat) (mode : Nat) (target : Int) (speed : Nat) (s : State) :
    ∃ t, (execAxisMove rq axis mode target speed s) = .next t ∧ t.printUnits = s.printUnits := by
  exact ⟨_, rfl, by simp only [↓State.run_printUnits, ↓State.finish_printUnits, ↓State.withParams_printUnits, ↓State.softLimited_printUnits,
    ↓State.axStart_printUnits, ↓State.pend_printUnits, ↓State.setAxis_printUnits, ↓ite_printUnits, ite_self, implies_true]⟩

theorem execDbCmd_printUnits (ring : Nat) (idx : Nat) (s : State) :
    ∃ t, (execDbCmd ring idx s) = .next t ∧ t.printUnits = s.printUnits := by
  exact ⟨_, rfl, by simp only [↓State.cmdErr_printUnits, ↓State.setRing_printUnits, ↓ite_printUnits, ite_self]⟩

theorem execFitReturn_printUnits (s : State) : ∃ t, (execFitReturn s) = .next t ∧ t.printUnits = s.printUnits := by
  exact ⟨_, rfl, by simp only [↓State.setFld_printUnits, ↓ite_printUnits, ite_self]⟩

@[simp] theorem State.memStore_printUnits (s : State) (a : Nat) (b : List Byte) :
    (s.memStore a b).printUnits = s.printUnits := (rfl)

@[simp] theorem State.writeMem_printUnits (s : State) (input a : Nat) (b : List Byte) :
    (s.writeMem input a b).printUnits = s.printUnits := by
  simp only [State.writeMem]
  rw [State.inject_printUnits, State.printUnits_keep]
  refine (foldl_printUnits _ (fun s w => ?_) _ _).trans ((State.memStore_printUnits ..).trans
    (foldl_printUnits _ (fun s w => State.readWord_printUnits ..) _ _))
  split
  · rfl
  · exact State.setWord_printUnits ..

theorem execMemoryAccess_printUnits (acc : MemAccess) (s : State) :
    ∃ t, execMemoryAccess acc s = .next t ∧ t.printUnits = s.printUnits := by
  refine ⟨_, rfl, ?_⟩
  have h : (acc.upsets.foldl
      (fun s u => if u.symbol < 18 then s.upset u.word u.symbol (u.pattern % 256) else s) s).printUnits = s.printUnits :=
    foldl_printUnits _ (fun s u => by split <;> simp only [↓State.upset_printUnits]) _ _
  dsimp only
  repeat' split
  all_goals first
    | exact rfl
    | simp only [↓State.writeMem_printUnits, ↓foldl_printUnits _ (fun s w => State.readWord_printUnits s _ _ w false),
        ↓State.printUnits_keep, ↓State.activate_printUnits, ↓State.leaveSelfRefresh_printUnits, h]

end Sys2Proof.Machine
end

