-- ==== Sys2Proof/Laws/SensingFrames.lean ====
section
/-!
SUPPORT. The operations and meanings that leave what senses and measures (`State.sensing`) alone: one lemma for each.
-/
set_option linter.all false

namespace Sys2Proof.Machine

theorem State.sensing_mk (pending regs mem dram now stateSince fresh outbox cmd log locks arbs evt time msix motion ppos mons lanes chain rings hostSize chk ingest job bars fire nvc eye insp noz spare latches pwr) :
    State.sensing ⟨pending, regs, mem, dram, now, stateSince, fresh, outbox, cmd, log, locks, arbs, evt, time, msix, motion, ppos, mons, lanes, chain, rings, hostSize, chk, ingest, job, bars, fire, nvc, eye, insp, noz, spare, latches, pwr⟩ = (eye, insp, motion, mons, time, chk) := (rfl)

theorem State.sensing_keep (s : State) (pending regs mem dram now stateSince fresh outbox cmd log locks arbs evt msix ppos lanes chain rings hostSize ingest job bars fire nvc noz spare latches pwr) :
    State.sensing ⟨pending, regs, mem, dram, now, stateSince, fresh, outbox, cmd, log, locks, arbs, evt, s.time, msix, s.motion, ppos, s.mons, lanes, chain, rings, hostSize, s.chk, ingest, job, bars, fire, nvc, s.eye, s.insp, noz, spare, latches, pwr⟩ = s.sensing := (rfl)

theorem foldl_sensing {α : Type} (f : State → α → State) (h : ∀ s x, (f s x).sensing = s.sensing) (l : List α)
    (s : State) : (l.foldl f s).sensing = s.sensing := by
  induction l generalizing s with
  | nil => rfl
  | cons x l ih => simp only [List.foldl_cons, ih, h]

theorem ite_sensing (c : Prop) [Decidable c] (a b : State) :
    (if c then a else b).sensing = if c then a.sensing else b.sensing := by split <;> rfl

theorem dite_sensing (c : Prop) [Decidable c] (a : c → State) (b : ¬c → State) :
    (dite c a b).sensing = dite c (fun h => (a h).sensing) (fun h => (b h).sensing) := by split <;> rfl

@[simp] theorem State.enqueue_sensing (s : State) (q : Queued) : (State.enqueue s q).sensing = s.sensing := by
  simp only [State.enqueue.eq_def, ↓State.sensing_keep]

@[simp] theorem State.setReg_sensing (s : State) (a : Nat) (w : Word) : (State.setReg s a w).sensing = s.sensing := by
  simp only [State.setReg.eq_def, ↓State.sensing_keep]

@[simp] theorem State.setFld_sensing (s : State) (f : Fld) (v : Nat) : (State.setFld s f v).sensing = s.sensing := by
  simp only [State.setFld.eq_def, ↓State.setReg_sensing]

@[simp] theorem State.bump_sensing (s : State) (f : Fld) (n : Nat) : (State.bump s f n).sensing = s.sensing := by
  simp only [State.bump.eq_def, ↓State.setFld_sensing]

@[simp] theorem State.raise_sensing (s : State) (prod : Nat) (tag : Option Nat) :
    (State.raise s prod tag).sensing = s.sensing := by
  simp only [State.raise.eq_def, ↓State.setFld_sensing, ↓State.bump_sensing, ↓ite_sensing, ite_self, ↓State.sensing_keep]

@[simp] theorem State.raiseIf_sensing (s : State) (en : Bool) (prod : Nat) (tag : Option Nat) :
    (State.raiseIf s en prod tag).sensing = s.sensing := by
  simp only [State.raiseIf.eq_def, ↓State.raise_sensing, ↓ite_sensing, ite_self]

@[simp] theorem State.jigEvent_sensing (s : State) (bit : Nat) (f : Fld) : (State.jigEvent s bit f).sensing = s.sensing := by
  simp only [State.jigEvent.eq_def, ↓State.raiseIf_sensing, ↓State.setFld_sensing]

@[simp] theorem State.modeRefused_sensing (s : State) (unfit : Option Nat) : (State.modeRefused s unfit).sensing = s.sensing := by
  rw [State.modeRefused.eq_def]
  repeat' split
  all_goals simp only [↓State.setFld_sensing]

@[simp] theorem State.putArb_sensing (s : State) (e : RegEntry) (new : Word) : (State.putArb s e new).sensing = s.sensing := by
  rw [State.putArb.eq_def]
  repeat' split
  all_goals simp only [↓State.setReg_sensing, ↓State.setFld_sensing, ↓ite_sensing, ite_self]

@[simp] theorem State.mend_sensing (s : State) (c : Nat) : (State.mend s c).sensing = s.sensing := by
  simp only [State.mend.eq_def, ↓State.setFld_sensing]

@[simp] theorem State.bumpWrap_sensing (s : State) (f : Fld) (n : Nat) : (State.bumpWrap s f n).sensing = s.sensing := by
  simp only [State.bumpWrap.eq_def, ↓State.setFld_sensing]

@[simp] theorem State.log1_sensing (s : State) (code : Nat) (block : Nat) (inst : Nat) (cond : Nat) (detail : List
    Nat) :
    (State.log1 s code block inst cond detail).sensing = s.sensing := by
  simp only [State.log1.eq_def, ↓State.bumpWrap_sensing, ↓State.sensing_keep]

@[simp] theorem State.breach_sensing (s : State) (c : Nat) (block : Nat) (inst : Nat) (detail : List Nat) :
    (State.breach s c block inst detail).sensing = s.sensing := by
  simp only [State.breach.eq_def, ↓State.raise_sensing, ↓State.log1_sensing, ↓State.setFld_sensing]

@[simp] theorem State.breachOnce_sensing (s : State) (c : Nat) (block : Nat) (inst : Nat) (detail : List Nat) :
    (State.breachOnce s c block inst detail).sensing = s.sensing := by
  simp only [State.breachOnce.eq_def, ↓State.mend_sensing, ↓State.breach_sensing]

@[simp] theorem State.setLock_sensing (s : State) (k : Nat) (x : LockX) : (State.setLock s k x).sensing = s.sensing := by
  simp only [State.setLock.eq_def, ↓State.setFld_sensing, ↓State.sensing_keep]

@[simp] theorem State.lockOwn_sensing (s : State) (k : Nat) (engine : Bool) (client : Nat) :
    (State.lockOwn s k engine client).sensing = s.sensing := by
  simp only [State.lockOwn.eq_def, ↓State.setFld_sensing, ↓State.setLock_sensing]

@[simp] theorem State.emit_sensing (s : State) (o : Out) : (State.emit s o).sensing = s.sensing := by
  simp only [State.emit.eq_def, ↓State.sensing_keep]

@[simp] theorem State.tellEngine_sensing (s : State) (engine : Nat) (lock : Nat) (status : Nat) :
    (State.tellEngine s engine lock status).sensing = s.sensing := by
  simp only [State.tellEngine.eq_def, ↓State.emit_sensing]

@[simp] theorem State.setSession_sensing (s : State) (n : Nat) (x : Session) : (State.setSession s n x).sensing = s.sensing := by
  simp only [State.setSession.eq_def, ↓State.sensing_keep]

@[simp] theorem State.setSlot_sensing (s : State) (sess : Nat) (tag : Nat) (x : Slot) :
    (State.setSlot s sess tag x).sensing = s.sensing := by
  simp only [State.setSlot.eq_def, ↓State.setSession_sensing]

@[simp] theorem State.setRing_sensing (s : State) (r : Nat) (x : Ring) : (State.setRing s r x).sensing = s.sensing := by
  simp only [State.setRing.eq_def, ↓State.sensing_keep]

@[simp] theorem State.setStall_sensing (s : State) (r : Nat) : (State.setStall s r).sensing = s.sensing := by
  simp only [State.setStall.eq_def, ↓State.setFld_sensing]

@[simp] theorem State.msixSignal_sensing (s : State) (v : Nat) : (State.msixSignal s v).sensing = s.sensing := by
  simp only [State.msixSignal.eq_def, ↓State.emit_sensing, ↓ite_sensing, ite_self, ↓State.sensing_keep]

@[simp] theorem State.ringNotify_sensing (s : State) (r : Nat) : (State.ringNotify s r).sensing = s.sensing := by
  simp only [State.ringNotify.eq_def, ↓State.msixSignal_sensing, ↓State.emit_sensing]

@[simp] theorem State.ringWrite_sensing (s : State) (r : Nat) (rep : Reply) : (State.ringWrite s r rep).sensing = s.sensing := by
  simp only [State.ringWrite.eq_def, ↓State.emit_sensing, ↓State.setRing_sensing, ↓State.setStall_sensing,
    ↓State.ringNotify_sensing, ↓ite_sensing, ite_self]

@[simp] theorem State.ringReply_sensing (s : State) (r : Nat) (rep : Reply) : (State.ringReply s r rep).sensing = s.sensing := by
  simp only [State.ringReply.eq_def, ↓State.ringWrite_sensing, ↓State.setRing_sensing, ↓ite_sensing, ite_self]

@[simp] theorem State.sendDatagram_sensing (s : State) (ip : Nat) (port : Nat) (b : List Byte) :
    (State.sendDatagram s ip port b).sensing = s.sensing := by
  rw [State.sendDatagram.eq_def]
  repeat' split
  all_goals simp only [↓State.bump_sensing, ↓State.emit_sensing]

@[simp] theorem State.setLink_sensing (s : State) (west : Bool) (l : ChainLink) :
    (State.setLink s west l).sensing = s.sensing := by
  simp only [State.setLink.eq_def, ↓State.sensing_keep]

@[simp] theorem State.setLane_sensing (s : State) (l : Nat) (x : Lane) : (State.setLane s l x).sensing = s.sensing := by
  simp only [State.setLane.eq_def, ↓State.sensing_keep]

@[simp] theorem State.laneSent_sensing (s : State) (l : Nat) (bs : List Block) : (State.laneSent s l bs).sensing = s.sensing := by
  simp only [State.laneSent.eq_def, ↓State.setLane_sensing]

@[simp] theorem State.chainSend_sensing (s : State) (west : Bool) (b : List Byte) :
    (State.chainSend s west b).sensing = s.sensing := by
  have f (l : List (Nat × List Block)) (s : State) : (l.foldl (fun s p => s.laneSent p.1 p.2) s).sensing = s.sensing :=
    foldl_sensing _ (fun s p => State.laneSent_sensing ..) l s
  simp only [State.chainSend, State.emit_sensing, State.setLink_sensing, f]

@[simp] theorem State.chainDrain_sensing (s : State) (west : Bool) : (State.chainDrain s west).sensing = s.sensing := by
  simp only [State.chainDrain, foldl_sensing _ (fun s b => State.chainSend_sensing s west b), State.setLink_sensing]

@[simp] theorem State.chainSendOn_sensing (s : State) (west : Bool) (transit : Bool) (b : List Byte) :
    (State.chainSendOn s west transit b).sensing = s.sensing := by
  simp only [State.chainSendOn.eq_def, ↓State.chainDrain_sensing, ↓State.setLink_sensing, ↓ite_sensing, ite_self]

@[simp] theorem State.chainTo_sensing (s : State) (type : Nat) (dst : Nat) (cls : Nat) (body : List Byte) :
    (State.chainTo s type dst cls body).sensing = s.sensing := by
  rw [State.chainTo.eq_def]
  repeat' split
  all_goals simp only [↓State.chainSendOn_sensing]

@[simp] theorem State.deliver_sensing (s : State) (sess : Nat) (rep : Reply) : (State.deliver s sess rep).sensing = s.sensing := by
  rw [State.deliver.eq_def]
  repeat' split
  all_goals simp only [↓State.ringReply_sensing, ↓State.sendDatagram_sensing, ↓State.chainTo_sensing]

@[simp] theorem State.complete_sensing (s : State) (sess : Nat) (tag : Nat) (seq : Nat) (opcode : Nat) (need :
    Bool) (status : Nat) (payload : List Byte) (more : Bool) (member : Option Nat) :
    (State.complete s sess tag seq opcode need status payload more member).sensing = s.sensing := by
  simp only [State.complete.eq_def, ↓State.setSlot_sensing, ↓State.deliver_sensing, ↓ite_sensing, ite_self]

@[simp] theorem State.finishSlot_sensing (s : State) (sess : Nat) (tag : Nat) (status : Nat) (payload : List Byte)
    (more : Bool) :
    (State.finishSlot s sess tag status payload more).sensing = s.sensing := by
  simp only [State.finishSlot.eq_def, ↓State.complete_sensing, ↓ite_sensing, ite_self]

@[simp] theorem State.lockPass_sensing (s : State) (k : Nat) (idle : Nat) (prior : Option Nat) :
    (State.lockPass s k idle prior).sensing = s.sensing := by
  rw [State.lockPass.eq_def] <;> (try simp only [↓State.setFld_sensing, ↓State.setLock_sensing, ↓State.lockOwn_sensing,
      ↓State.tellEngine_sensing, ↓State.finishSlot_sensing, ↓foldl_sensing, ↓ite_sensing, ↓dite_sensing, ↓reduceIte, ite_self,
      implies_true,
      ↓State.sensing_keep]) <;> repeat' ((first | split | (rw [foldl_sensing]; intro s x)) <;> try simp only [↓State.setFld_sensing,
      ↓State.setLock_sensing, ↓State.lockOwn_sensing, ↓State.tellEngine_sensing, ↓State.finishSlot_sensing, ↓foldl_sensing,
      ↓ite_sensing, ↓dite_sensing, ↓reduceIte, ite_self, implies_true, ↓State.sensing_keep])

@[simp] theorem State.lockBreak_sensing (s : State) (k : Nat) : (State.lockBreak s k).sensing = s.sensing := by
  simp only [State.lockBreak.eq_def, ↓State.log1_sensing, ↓State.bump_sensing, ↓State.lockPass_sensing, ↓State.raise_sensing]

@[simp] theorem State.lockLimitWritten_sensing (s : State) (k : Nat) : (State.lockLimitWritten s k).sensing = s.sensing := by
  simp only [State.lockLimitWritten.eq_def, ↓State.breachOnce_sensing, ↓State.lockBreak_sensing, ↓ite_sensing, ite_self]

@[simp] theorem State.cmdErr_sensing (s : State) (cause : Nat) (addr : Nat) : (State.cmdErr s cause addr).sensing = s.sensing := by
  simp only [State.cmdErr.eq_def, ↓State.setFld_sensing, ↓ite_sensing, ite_self]

@[simp] theorem State.drainReplies_sensing (s : State) (r : Nat) (x2 : List Reply) :
    (State.drainReplies s r x2).sensing = s.sensing := by
  induction x2 generalizing s with
  | nil => exact State.setRing_sensing ..
  | cons p l ih =>
    rw [State.drainReplies]
    split
    · rw [ih, State.ringWrite_sensing]
    · exact State.setRing_sensing ..

@[simp] theorem State.ringEnabled_sensing (s : State) (r : Nat) (was : Bool) :
    (State.ringEnabled s r was).sensing = s.sensing := by
  simp only [State.ringEnabled.eq_def, ↓State.setRing_sensing, ↓State.setSession_sensing, ↓State.setStall_sensing,
    ↓State.drainReplies_sensing, ↓ite_sensing, ite_self]

@[simp] theorem State.putCmd_sensing (s : State) (e : RegEntry) (old : Word) (new : Word) :
    (State.putCmd s e old new).sensing = s.sensing := by
  simp only [State.putCmd.eq_def, ↓State.setReg_sensing, ↓State.cmdErr_sensing, ↓State.ringEnabled_sensing, ↓ite_sensing,
    ite_self]

@[simp] theorem State.setDmaCh_sensing (s : State) (ch : Nat) (x : DmaChan) : (State.setDmaCh s ch x).sensing = s.sensing := by
  simp only [State.setDmaCh.eq_def, ↓State.sensing_keep]

@[simp] theorem State.haltDone_sensing (s : State) : (State.haltDone s).sensing = s.sensing := by
  rw [State.haltDone.eq_def]
  repeat' split
  all_goals simp only [↓State.setFld_sensing, ↓State.msixSignal_sensing, ↓State.raise_sensing, ↓State.sensing_keep]

@[simp] theorem State.setPage_sensing (s : State) (ch : Nat) (x : Ingest) : (State.setPage s ch x).sensing = s.sensing := by
  simp only [State.setPage.eq_def, ↓State.sensing_keep]

@[simp] theorem State.freeUnits_sensing (s : State) (x : Ingest) : (State.freeUnits s x).sensing = s.sensing := by
  simp only [State.freeUnits.eq_def, ↓State.setFld_sensing, ↓foldl_sensing, implies_true]

@[simp] theorem State.dropPage_sensing (s : State) (ch : Nat) (status : Nat) (payload : List Byte) :
    (State.dropPage s ch status payload).sensing = s.sensing := by
  simp only [State.dropPage.eq_def, ↓State.setPage_sensing, ↓State.freeUnits_sensing, ↓State.finishSlot_sensing,
    ↓State.sensing_keep]

@[simp] theorem State.dmaMark_sensing (s : State) (ch : Nat) : (State.dmaMark s ch).sensing = s.sensing := by
  simp only [State.dmaMark.eq_def, ↓State.setFld_sensing]

@[simp] theorem State.dmaDone_sensing (s : State) (ch : Nat) : (State.dmaDone s ch).sensing = s.sensing := by
  simp only [State.dmaDone.eq_def, ↓State.msixSignal_sensing, ↓State.dmaMark_sensing]

@[simp] theorem State.writeBack_sensing (s : State) (ch : Nat) (code : Nat) (addr : Nat) (residue : Nat) :
    (State.writeBack s ch code addr residue).sensing = s.sensing := by
  simp only [State.writeBack.eq_def, ↓State.emit_sensing, ↓ite_sensing, ite_self]

@[simp] theorem State.chkUser_sensing (s : State) (ch : Nat) (start : Bool) : (State.chkUser s ch start).sensing = s.sensing := by
  simp only [State.chkUser.eq_def, ↓State.setFld_sensing, ↓ite_sensing, ite_self]

@[simp] theorem State.setFlag_sensing (s : State) (f : Fld) (b : Bool) : (State.setFlag s f b).sensing = s.sensing := by
  simp only [State.setFlag.eq_def, ↓State.setFld_sensing]

@[simp] theorem State.chainStop_sensing (s : State) (ch : Nat) (code : Nat) (own : Bool) (stopped : Bool) :
    (State.chainStop s ch code own stopped).sensing = s.sensing := by
  simp only [State.chainStop.eq_def, ↓State.chkUser_sensing, ↓State.setDmaCh_sensing, ↓State.setFld_sensing,
    ↓State.setFlag_sensing]

@[simp] theorem State.chainEnd_sensing (s : State) (ch : Nat) (code : Nat) (addr : Nat) (residue : Nat) (own :
    Bool) (stopped : Bool) :
    (State.chainEnd s ch code addr residue own stopped).sensing = s.sensing := by
  simp only [State.chainEnd.eq_def, ↓State.dmaDone_sensing, ↓State.writeBack_sensing, ↓State.chainStop_sensing,
    ↓State.breachOnce_sensing, ↓ite_sensing, ite_self]

@[simp] theorem State.stopPage_sensing (s : State) (ch : Nat) (status : Nat) (payload : List Byte) :
    (State.stopPage s ch status payload).sensing = s.sensing := by
  simp only [State.stopPage.eq_def, ↓State.dropPage_sensing, ↓State.haltDone_sensing, ↓State.chainEnd_sensing, ↓ite_sensing,
    ite_self]

@[simp] theorem State.latchError_sensing (s : State) (unit : Nat) (code : Nat) (plane : Nat) (off : Nat) (bit :
    Nat) (page : Nat) :
    (State.latchError s unit code plane off bit page).sensing = s.sensing := by
  simp only [State.latchError.eq_def, ↓State.setFld_sensing, ↓State.log1_sensing, ↓State.bump_sensing, ↓ite_sensing, ite_self]

@[simp] theorem State.failPage_sensing (s : State) (ch : Nat) (e : PageError) : (State.failPage s ch e).sensing = s.sensing := by
  simp only [State.failPage.eq_def, ↓State.stopPage_sensing, ↓State.latchError_sensing]

@[simp] theorem State.storePage_sensing (s : State) (ch : Nat) : (State.storePage s ch).sensing = s.sensing := by
  simp only [State.storePage.eq_def, ↓State.setPage_sensing, ↓State.finishSlot_sensing, ↓State.sensing_keep]

@[simp] theorem State.judgePage_sensing (s : State) (ch : Nat) : (State.judgePage s ch).sensing = s.sensing := by
  simp only [State.judgePage.eq_def, ↓State.failPage_sensing, ↓State.storePage_sensing, ↓ite_sensing, ite_self]

@[simp] theorem State.shortPage_sensing (s : State) (ch : Nat) : (State.shortPage s ch).sensing = s.sensing := by
  simp only [State.shortPage.eq_def, ↓State.failPage_sensing, ↓ite_sensing, ite_self]

@[simp] theorem State.chainPage_sensing (s : State) (ch : Nat) (code : Nat) : (State.chainPage s ch code).sensing = s.sensing := by
  rw [State.chainPage.eq_def]
  repeat' split
  all_goals simp only [↓State.judgePage_sensing, ↓State.shortPage_sensing, ↓State.setPage_sensing, ↓State.dropPage_sensing,
    ↓State.log1_sensing, ↓ite_sensing, ite_self]

@[simp] theorem State.endChain_sensing (s : State) (ch : Nat) (code : Nat) (addr : Nat) (residue : Nat) (own :
    Bool) (stopped : Bool) :
    (State.endChain s ch code addr residue own stopped).sensing = s.sensing := by
  simp only [State.endChain.eq_def, ↓State.haltDone_sensing, ↓State.chainPage_sensing, ↓State.chainEnd_sensing]

@[simp] theorem State.stopChain_sensing (s : State) (ch : Nat) (code : Nat) (own : Bool) (stopped : Bool) :
    (State.stopChain s ch code own stopped).sensing = s.sensing := by
  simp only [State.stopChain.eq_def, ↓State.setDmaCh_sensing, ↓State.endChain_sensing, ↓ite_sensing, ite_self]

@[simp] theorem State.chainStart_sensing (s : State) (ch : Nat) : (State.chainStart s ch).sensing = s.sensing := by
  simp only [State.chainStart.eq_def, ↓State.setFld_sensing, ↓State.chkUser_sensing, ↓State.setDmaCh_sensing]

@[simp] theorem State.putDma_sensing (s : State) (e : RegEntry) (new : Word) : (State.putDma s e new).sensing = s.sensing := by
  simp only [State.putDma.eq_def, ↓State.setReg_sensing, ↓State.stopChain_sensing, ↓State.chainStart_sensing, ↓ite_sensing,
    ite_self]

@[simp] theorem State.showStackMax_sensing (s : State) : (State.showStackMax s).sensing = s.sensing := by
  simp only [State.showStackMax.eq_def, ↓State.setFld_sensing]

@[simp] theorem State.setBar_sensing (s : State) (b : Nat) (x : Bar) : (State.setBar s b x).sensing = s.sensing := by
  simp only [State.setBar.eq_def, ↓State.sensing_keep]

@[simp] theorem State.showBank_sensing (s : State) (b : Nat) : (State.showBank s b).sensing = s.sensing := by
  simp only [State.showBank.eq_def, ↓State.setFlag_sensing, ↓State.setFld_sensing]

@[simp] theorem State.setNoz1_sensing (s : State) (b : Nat) (x : Nat) (e : NozEntry) :
    (State.setNoz1 s b x e).sensing = s.sensing := by
  simp only [State.setNoz1.eq_def, ↓State.sensing_keep]

@[simp] theorem State.setLoopBar_sensing (s : State) (b : Nat) (x : LoopBar) : (State.setLoopBar s b x).sensing = s.sensing := by
  simp only [State.setLoopBar.eq_def, ↓State.sensing_keep]

@[simp] theorem State.loopSwapped_sensing (s : State) (b : Nat) : (State.loopSwapped s b).sensing = s.sensing := by
  simp only [State.loopSwapped.eq_def, ↓State.setNoz1_sensing, ↓State.setLoopBar_sensing, ↓State.setFld_sensing,
    ↓State.finishSlot_sensing, ↓foldl_sensing, implies_true]

@[simp] theorem State.swapBar_sensing (s : State) (b : Nat) : (State.swapBar s b).sensing = s.sensing := by
  simp only [State.swapBar.eq_def, ↓State.setFld_sensing, ↓State.showBank_sensing, ↓State.setBar_sensing,
    ↓State.raiseIf_sensing, ↓State.loopSwapped_sensing]

@[simp] theorem State.swapRequest_sensing (s : State) (b : Nat) : (State.swapRequest s b).sensing = s.sensing := by
  simp only [State.swapRequest.eq_def, ↓State.setFld_sensing, ↓State.swapBar_sensing, ↓ite_sensing, ite_self]

@[simp] theorem State.putDose_sensing (s : State) (e : RegEntry) (old : Word) (new : Word) :
    (State.putDose s e old new).sensing = s.sensing := by
  simp only [State.putDose.eq_def, ↓State.setReg_sensing, ↓State.showStackMax_sensing, ↓State.setBar_sensing,
    ↓State.swapRequest_sensing, ↓ite_sensing, ite_self]

@[simp] theorem State.setBoard_sensing (s : State) (k : Nat) (x : Board) : (State.setBoard s k x).sensing = s.sensing := by
  simp only [State.setBoard.eq_def, ↓State.sensing_keep]

@[simp] theorem State.headSend_sensing (s : State) (k : Nat) (l : Nat) (b : List Byte) :
    (State.headSend s k l b).sensing = s.sensing := by
  simp only [State.headSend.eq_def, ↓State.emit_sensing, ↓State.laneSent_sensing]

@[simp] theorem State.boardSend_sensing (s : State) (k : Nat) (type : Nat) (flags : Nat) (frame : Nat) (body : List
    Byte) :
    (State.boardSend s k type flags frame body).sensing = s.sensing := by
  simp only [State.boardSend.eq_def, ↓State.headSend_sensing]

@[simp] theorem State.sendHello_sensing (s : State) (k : Nat) : (State.sendHello s k).sensing = s.sensing := by
  simp only [State.sendHello.eq_def, ↓State.setBoard_sensing, ↓State.boardSend_sensing]

@[simp] theorem State.setBst_sensing (s : State) (k : Nat) (v : Nat) : (State.setBst s k v).sensing = s.sensing := by
  simp only [State.setBst.eq_def, ↓State.setFld_sensing]

@[simp] theorem State.boardTrain_sensing (s : State) (k : Nat) : (State.boardTrain s k).sensing = s.sensing := by
  simp only [State.boardTrain.eq_def, ↓State.sendHello_sensing, ↓State.setBst_sensing, ↓ite_sensing, ite_self]

@[simp] theorem State.setCredits_sensing (s : State) (k : Nat) (v : Nat) : (State.setCredits s k v).sensing = s.sensing := by
  simp only [State.setCredits.eq_def, ↓State.setFld_sensing]

@[simp] theorem State.boardOff_sensing (s : State) (k : Nat) : (State.boardOff s k).sensing = s.sensing := by
  simp only [State.boardOff.eq_def, ↓State.setBoard_sensing, ↓State.setCredits_sensing, ↓State.setBst_sensing]

@[simp] theorem State.boardRefresh_sensing (s : State) (k : Nat) : (State.boardRefresh s k).sensing = s.sensing := by
  simp only [State.boardRefresh.eq_def, ↓State.boardTrain_sensing, ↓State.setBst_sensing, ↓State.boardOff_sensing, ↓ite_sensing,
    ite_self]

@[simp] theorem State.boardEnable_sensing (s : State) (k : Nat) (v : Bool) : (State.boardEnable s k v).sensing = s.sensing := by
  simp only [State.boardEnable.eq_def, ↓State.boardRefresh_sensing, ↓State.setFlag_sensing]

@[simp] theorem State.boardClear_sensing (s : State) (k : Nat) : (State.boardClear s k).sensing = s.sensing := by
  simp only [State.boardClear.eq_def, ↓State.setFld_sensing, ↓State.setBoard_sensing, ↓State.sendHello_sensing, ↓ite_sensing,
    ite_self]

@[simp] theorem State.fireEvent_sensing (s : State) (bit : Nat) (tag : Option Nat) :
    (State.fireEvent s bit tag).sensing = s.sensing := by
  simp only [State.fireEvent.eq_def, ↓State.raiseIf_sensing]

@[simp] theorem State.setReq_sensing (s : State) (v : Nat) : (State.setReq s v).sensing = s.sensing := by
  simp only [State.setReq.eq_def, ↓State.fireEvent_sensing, ↓State.setFld_sensing, ↓ite_sensing, ite_self]

@[simp] theorem State.putFire_sensing (s : State) (e : RegEntry) (old : Word) (new : Word) :
    (State.putFire s e old new).sensing = s.sensing := by
  simp only [State.putFire.eq_def, ↓State.setReg_sensing, ↓State.boardEnable_sensing, ↓State.boardClear_sensing,
    ↓State.setReq_sensing, ↓ite_sensing, ite_self]

@[simp] theorem State.setCalPair_sensing (s : State) (kind : Nat) (inst : Nat) (p : CalPair) :
    (State.setCalPair s kind inst p).sensing = s.sensing := by
  simp only [State.setCalPair.eq_def, ↓State.sensing_keep]

@[simp] theorem State.calVerify_sensing (s : State) (kind : Nat) (inst : Nat) :
    (State.calVerify s kind inst).sensing = s.sensing := by
  rw [State.calVerify.eq_def] <;> (try simp only [↓State.setFld_sensing, ↓State.bump_sensing, ↓State.log1_sensing,
      ↓State.setCalPair_sensing, ↓foldl_sensing, ↓ite_sensing, ↓dite_sensing, ↓reduceIte, ite_self, implies_true,
      ↓State.sensing_keep]) <;> repeat' ((first | split | (rw [foldl_sensing]; intro s x)) <;> try simp only [↓State.setFld_sensing,
      ↓State.bump_sensing, ↓State.log1_sensing, ↓State.setCalPair_sensing, ↓foldl_sensing, ↓ite_sensing, ↓dite_sensing, ↓reduceIte,
      ite_self, implies_true, ↓State.sensing_keep])

@[simp] theorem State.showTabPend_sensing (s : State) : (State.showTabPend s).sensing = s.sensing := by
  simp only [State.showTabPend.eq_def, ↓State.setFlag_sensing]

@[simp] theorem State.rsmpSwap_sensing (s : State) (r : Nat) : (State.rsmpSwap s r).sensing = s.sensing := by
  simp only [State.rsmpSwap.eq_def, ↓State.setFld_sensing, ↓ite_sensing, ite_self]

@[simp] theorem State.gather_sensing (s : State) (f : Finding) (x : Nat) : (State.gather s f x).sensing = s.sensing := by
  simp only [State.gather.eq_def, ↓State.setLoopBar_sensing, ↓ite_sensing, ite_self]

@[simp] theorem State.nozEvent_sensing (s : State) (bit : Nat) (shown : Fld) :
    (State.nozEvent s bit shown).sensing = s.sensing := by
  simp only [State.nozEvent.eq_def, ↓State.raiseIf_sensing, ↓State.setFld_sensing]

@[simp] theorem State.countEntry_sensing (s : State) (state : Nat) : (State.countEntry s state).sensing = s.sensing := by
  rw [State.countEntry.eq_def]
  repeat' split
  all_goals simp only [↓State.nozEvent_sensing, ↓State.bump_sensing]

@[simp] theorem State.setRecRing_sensing (s : State) (r : Nat) (x : RecRing) : (State.setRecRing s r x).sensing = s.sensing := by
  simp only [State.setRecRing.eq_def, ↓State.sensing_keep]

@[simp] theorem State.addRecord_sensing (s : State) (r : Nat) (make : Nat → List Byte) :
    (State.addRecord s r make).sensing = s.sensing := by
  simp only [State.addRecord.eq_def, ↓State.setRecRing_sensing, ↓ite_sensing, ite_self]

@[simp] theorem State.nozRecord_sensing (s : State) (f : Finding) (x : Nat) (old : Nat) (e : NozEntry) :
    (State.nozRecord s f x old e).sensing = s.sensing := by
  simp only [State.nozRecord.eq_def, ↓State.addRecord_sensing]

@[simp] theorem State.nozEnter_sensing (s : State) (f : Finding) (x : Nat) (state : Nat) (conf : Nat) (hold : Bool) :
    (State.nozEnter s f x state conf hold).sensing = s.sensing := by
  simp only [State.nozEnter.eq_def, ↓State.gather_sensing, ↓State.countEntry_sensing, ↓State.setNoz1_sensing,
    ↓State.nozRecord_sensing]

@[simp] theorem State.holdBase_sensing (s : State) (b : Nat) (sub : SubTable) : (State.holdBase s b sub).sensing = s.sensing := by
  simp only [State.holdBase.eq_def, ↓State.nozEnter_sensing, ↓State.setNoz1_sensing, ↓foldl_sensing, ↓ite_sensing, ite_self,
    implies_true]

@[simp] theorem State.loopOn_sensing (s : State) (b : Nat) : (State.loopOn s b).sensing = s.sensing := by
  simp only [State.loopOn.eq_def, ↓State.holdBase_sensing, ↓State.setLoopBar_sensing]

@[simp] theorem State.loopOff_sensing (s : State) (b : Nat) : (State.loopOff s b).sensing = s.sensing := by
  simp only [State.loopOff.eq_def, ↓State.setLoopBar_sensing, ↓State.finishSlot_sensing, ↓foldl_sensing, implies_true]

@[simp] theorem State.setLoops_sensing (s : State) (mask : Nat) : (State.setLoops s mask).sensing = s.sensing := by
  simp only [State.setLoops.eq_def, ↓State.setFld_sensing, ↓State.loopOn_sensing, ↓State.loopOff_sensing, ↓foldl_sensing,
    ↓ite_sensing, ite_self, implies_true]

@[simp] theorem State.putNoz_sensing (s : State) (e : RegEntry) (old : Word) (new : Word) :
    (State.putNoz s e old new).sensing = s.sensing := by
  simp only [State.putNoz.eq_def, ↓State.setLoops_sensing, ↓State.setReg_sensing, ↓ite_sensing, ite_self]

@[simp] theorem State.encEnabled_sensing (s : State) (e : Nat) : (State.encEnabled s e).sensing = s.sensing := by
  simp only [State.encEnabled.eq_def, ↓State.setFld_sensing]

@[simp] theorem State.axEnter_sensing (s : State) (a : Nat) (st : Nat) : (State.axEnter s a st).sensing = s.sensing := by
  simp only [State.axEnter.eq_def, ↓State.setFld_sensing, ↓State.emit_sensing, ↓ite_sensing, ite_self]

@[simp] theorem State.setFldI_sensing (s : State) (f : Fld) (x : Int) : (State.setFldI s f x).sensing = s.sensing := by
  simp only [State.setFldI.eq_def, ↓State.setFld_sensing]

@[simp] theorem State.setAxPos_sensing (s : State) (a : Nat) (p : Int) : (State.setAxPos s a p).sensing = s.sensing := by
  simp only [State.setAxPos.eq_def, ↓State.setFldI_sensing]

@[simp] theorem State.axEvent_sensing (s : State) (a : Nat) (bit : Nat) (tag : Option Nat) :
    (State.axEvent s a bit tag).sensing = s.sensing := by
  simp only [State.axEvent.eq_def, ↓State.raiseIf_sensing]

@[simp] theorem State.liftLeft_sensing (s : State) (a : Nat) : (State.liftLeft s a).sensing = s.sensing := by
  simp only [State.liftLeft.eq_def, ↓State.axEvent_sensing, ↓ite_sensing, ite_self]

@[simp] theorem State.setCons_sensing (s : State) (k : Nat) (x : EvtCons) : (State.setCons s k x).sensing = s.sensing := by
  simp only [State.setCons.eq_def, ↓State.sensing_keep]

@[simp] theorem State.endTask_sensing (s : State) (k : Nat) : (State.endTask s k).sensing = s.sensing := by
  simp only [State.endTask.eq_def, ↓State.setCons_sensing, ↓ite_sensing, ite_self]

@[simp] theorem State.showLimit_sensing (s : State) (a : Nat) : (State.showLimit s a).sensing = s.sensing := by
  simp only [State.showLimit.eq_def, ↓State.setFlag_sensing]

@[simp] theorem State.lockLost_sensing (s : State) (d : Nat) : (State.lockLost s d).sensing = s.sensing := by
  simp only [State.lockLost.eq_def, ↓State.setFld_sensing, ↓State.raiseIf_sensing, ↓ite_sensing, ite_self]

@[simp] theorem State.showUtc_sensing (s : State) : (State.showUtc s).sensing = s.sensing := by
  rw [State.showUtc.eq_def]
  repeat' split
  all_goals simp only [↓State.setFld_sensing]

@[simp] theorem State.hostLocked_sensing (s : State) (d : Nat) : (State.hostLocked s d).sensing = s.sensing := by
  simp only [State.hostLocked.eq_def, ↓State.setFld_sensing, ↓State.lockLost_sensing, ↓ite_sensing, ite_self]

@[simp] theorem State.putEvt_sensing (s : State) (e : RegEntry) (new : Word) : (State.putEvt s e new).sensing = s.sensing := by
  simp only [State.putEvt.eq_def, ↓State.setReg_sensing, ↓State.setCons_sensing, ↓ite_sensing, ite_self]

@[simp] theorem State.showDet_sensing (s : State) : (State.showDet s).sensing = s.sensing := by
  simp only [State.showDet.eq_def, ↓State.setFlag_sensing, ↓foldl_sensing, implies_true]

@[simp] theorem State.detWritten_sensing (s : State) : (State.detWritten s).sensing = s.sensing := by
  simp only [State.detWritten.eq_def, ↓State.showStackMax_sensing, ↓State.showDet_sensing]

@[simp] theorem State.putMem_sensing (s : State) (e : RegEntry) (new : Word) : (State.putMem s e new).sensing = s.sensing := by
  simp only [State.putMem.eq_def, ↓State.detWritten_sensing, ↓State.setReg_sensing, ↓ite_sensing, ite_self, ↓State.sensing_keep]

@[simp] theorem State.putLater_sensing (s : State) (e : RegEntry) : (State.putLater s e).sensing = s.sensing := by
  simp only [State.putLater.eq_def, ↓State.sensing_keep]

@[simp] theorem State.orLater_sensing (s : State) (f : Fld) (v : Nat) (act : State → State) (hact : ∀ y0, (act
    y0).sensing = y0.sensing) :
    (State.orLater s f v act).sensing = s.sensing := by
  simp only [State.orLater.eq_def, ↓State.putLater_sensing, ↓ite_sensing, ite_self, hact]

theorem execChkCheck_sensing (unit : Nat) (s : State) : ∃ t, (execChkCheck unit s) = .next t ∧ t.sensing = s.sensing := by
  exact ⟨_, rfl, by simp only [↓State.orLater_sensing, ↓State.setFld_sensing, ↓State.raise_sensing, ↓State.msixSignal_sensing,
    ↓ite_sensing, ite_self, implies_true]⟩

@[simp] theorem State.chkCompare_sensing (s : State) (u : Nat) : (State.chkCompare s u).sensing = s.sensing := by
  rw [State.chkCompare]
  split
  · rename_i t h
    obtain ⟨u', h', e⟩ := execChkCheck_sensing u s
    rw [h] at h'
    cases h'
    exact e
  · rfl

@[simp] theorem State.chkNext_sensing (s : State) (u : Nat) : (State.chkNext s u).sensing = s.sensing := by
  simp only [State.chkNext.eq_def, ↓State.bumpWrap_sensing]

@[simp] theorem State.laneLeft_sensing (s : State) (l : Nat) : (State.laneLeft s l).sensing = s.sensing := by
  simp only [State.laneLeft.eq_def, ↓State.setBst_sensing, ↓State.setBoard_sensing, ↓foldl_sensing, ↓ite_sensing, ite_self,
    implies_true]

@[simp] theorem State.setLaneGrp_sensing (s : State) (g : Nat) (x : LaneGroup) : (State.setLaneGrp s g x).sensing = s.sensing := by
  simp only [State.setLaneGrp.eq_def, ↓State.sensing_keep]

@[simp] theorem State.laneAbandon_sensing (s : State) (l : Nat) : (State.laneAbandon s l).sensing = s.sensing := by
  simp only [State.laneAbandon.eq_def, ↓State.setFld_sensing, ↓State.setLaneGrp_sensing, ↓ite_sensing, ite_self]

@[simp] theorem State.laneLose_sensing (s : State) (l : Nat) : (State.laneLose s l).sensing = s.sensing := by
  simp only [State.laneLose.eq_def, ↓State.bump_sensing, ↓State.setFld_sensing, ↓State.setLane_sensing, ↓State.laneLeft_sensing,
    ↓State.laneAbandon_sensing, ↓ite_sensing, ite_self]

@[simp] theorem State.laneOff_sensing (s : State) (l : Nat) : (State.laneOff s l).sensing = s.sensing := by
  simp only [State.laneOff.eq_def, ↓State.setFld_sensing, ↓State.laneLose_sensing, ↓State.setLane_sensing]

@[simp] theorem State.linkSend_sensing (s : State) (l : Nat) (kind : Nat) (arg : Nat) :
    (State.linkSend s l kind arg).sensing = s.sensing := by
  simp only [State.linkSend.eq_def, ↓State.emit_sensing, ↓State.laneSent_sensing]

@[simp] theorem State.laneSleep_sensing (s : State) (l : Nat) : (State.laneSleep s l).sensing = s.sensing := by
  simp only [State.laneSleep.eq_def, ↓State.setFld_sensing, ↓State.laneLose_sensing, ↓State.linkSend_sensing,
    ↓State.setLane_sensing]

@[simp] theorem State.laneTrain_sensing (s : State) (l : Nat) (kept : Bool) : (State.laneTrain s l kept).sensing = s.sensing := by
  simp only [State.laneTrain.eq_def, ↓State.setLane_sensing, ↓State.setFld_sensing]

@[simp] theorem State.laneAsk_sensing (s : State) (l : Nat) (code : Nat) : (State.laneAsk s l code).sensing = s.sensing := by
  simp only [State.laneAsk.eq_def, ↓State.linkSend_sensing, ↓State.setLane_sensing]

@[simp] theorem State.laneToward_sensing (s : State) (l : Nat) : (State.laneToward s l).sensing = s.sensing := by
  simp only [State.laneToward.eq_def, ↓State.laneOff_sensing, ↓State.laneSleep_sensing, ↓State.laneTrain_sensing,
    ↓State.laneAsk_sensing, ↓State.setLane_sensing, ↓ite_sensing, ite_self]

@[simp] theorem State.laneTarget_sensing (s : State) (l : Nat) (t : Nat) : (State.laneTarget s l t).sensing = s.sensing := by
  simp only [State.laneTarget.eq_def, ↓State.laneToward_sensing, ↓State.setFld_sensing, ↓State.laneAbandon_sensing]

@[simp] theorem State.laneRole_sensing (s : State) (l : Nat) (r : Nat) : (State.laneRole s l r).sensing = s.sensing := by
  simp only [State.laneRole.eq_def, ↓State.setFld_sensing, ↓State.laneOff_sensing, ↓State.laneToward_sensing, ↓ite_sensing,
    ite_self]

@[simp] theorem State.putLane_sensing (s : State) (e : RegEntry) (old : Word) (new : Word) :
    (State.putLane s e old new).sensing = s.sensing := by
  simp only [State.putLane.eq_def, ↓State.setReg_sensing, ↓State.laneTarget_sensing, ↓State.laneRole_sensing, ↓ite_sensing,
    ite_self]

@[simp] theorem State.showCanary_sensing (s : State) (c : Nat) : (State.showCanary s c).sensing = s.sensing := by
  simp only [State.showCanary.eq_def, ↓State.setFlag_sensing, ↓State.setFld_sensing, ↓ite_sensing, ite_self]

@[simp] theorem State.showCanaries_sensing (s : State) : (State.showCanaries s).sensing = s.sensing := by
  simp only [State.showCanaries.eq_def, ↓State.showCanary_sensing, ↓foldl_sensing, implies_true]

@[simp] theorem State.maskBreaks_sensing (s : State) : (State.maskBreaks s).sensing = s.sensing := by
  rw [State.maskBreaks.eq_def] <;> (try simp only [↓State.log1_sensing, ↓foldl_sensing, ↓ite_sensing, ↓dite_sensing, ↓reduceIte,
      ite_self, implies_true,
      ↓State.sensing_keep]) <;> repeat' ((first | split | (rw [foldl_sensing]; intro s x)) <;> try simp only [↓State.log1_sensing,
      ↓foldl_sensing, ↓ite_sensing, ↓dite_sensing, ↓reduceIte, ite_self, implies_true, ↓State.sensing_keep])

@[simp] theorem State.showGated_sensing (s : State) : (State.showGated s).sensing = s.sensing := by
  simp only [State.showGated.eq_def, ↓State.showCanaries_sensing, ↓State.setFld_sensing, ↓State.maskBreaks_sensing,
    ↓State.setFlag_sensing, ↓ite_sensing, ite_self]

@[simp] theorem State.undozeAll_sensing (s : State) : (State.undozeAll s).sensing = s.sensing := by
  simp only [State.undozeAll.eq_def, ↓State.showGated_sensing, ↓State.sensing_keep]

@[simp] theorem State.take_sensing (s : State) (rq : Rq) : (State.take s rq).sensing = s.sensing := by
  simp only [State.take.eq_def, ↓State.sensing_keep]

@[simp] theorem State.lift_sensing (s : State) (sess : Nat) (tag : Nat) : (State.lift s sess tag).sensing = s.sensing := by
  simp only [State.lift.eq_def, ↓State.setFld_sensing, ↓ite_sensing, ite_self, ↓State.sensing_keep]

@[simp] theorem State.finish_sensing (s : State) (rq : Rq) (op : Nat) (status : Nat) (payload : List Byte) (more :
    Bool) :
    (State.finish s rq op status payload more).sensing = s.sensing := by
  simp only [State.finish.eq_def, ↓State.complete_sensing]

@[simp] theorem State.reject_sensing (s : State) (rq : Rq) (op : Nat) (reason : Nat) (block : Nat) (offset : Nat) :
    (State.reject s rq op reason block offset).sensing = s.sensing := by
  simp only [State.reject.eq_def, ↓State.finish_sensing]

@[simp] theorem State.runIn_sensing (s : State) (rq : Rq) (op : Nat) (doms : List Domain) (body : State → State)
    (hbody : ∀ y0, (body y0).sensing = y0.sensing) :
    (State.runIn s rq op doms body).sensing = s.sensing := by
  simp only [State.runIn, ↓ite_sensing, ↓State.lift_sensing, ↓State.finish_sensing, ↓State.take_sensing]
  split
  · rfl
  · split
    · split
      · exact (State.reject_sensing ..).trans (State.take_sensing ..)
      · rfl
    · split
      · simp only [↓ite_sensing, ↓State.finish_sensing, ↓State.take_sensing, hbody, ite_self]
      · rw [hbody, State.take_sensing]

@[simp] theorem State.run_sensing (s : State) (rq : Rq) (op : Nat) (body : State → State) (hbody : ∀ y0, (body
    y0).sensing = y0.sensing) :
    (State.run s rq op body).sensing = s.sensing := by
  rw [State.run, State.runIn_sensing _ _ _ _ _ hbody]

@[simp] theorem State.badParam_sensing (s : State) (rq : Rq) (op : Nat) (o : Nat) :
    (State.badParam s rq op o).sensing = s.sensing := by
  simp only [State.badParam.eq_def, ↓State.finish_sensing]

@[simp] theorem State.withParams_sensing (s : State) (rq : Rq) (op : Nat) (fields : List (Nat × Bool)) (body :
    State → State) (hbody : ∀ y0, (body y0).sensing = y0.sensing) :
    (State.withParams s rq op fields body).sensing = s.sensing := by
  rw [State.withParams]
  split
  · exact hbody s
  · exact State.badParam_sensing ..

@[simp] theorem State.enter_sensing (s : State) (st : Nat) : (State.enter s st).sensing = s.sensing := by
  simp only [State.enter.eq_def, ↓State.setFld_sensing, ↓ite_sensing, ite_self, ↓State.sensing_keep]

theorem execServiceEnter_sensing (rq : Rq) (s : State) : ∃ t, (execServiceEnter rq s) = .next t ∧ t.sensing = s.sensing := by
  exact ⟨_, rfl, by simp only [↓State.run_sensing, ↓State.withParams_sensing, ↓State.finish_sensing, ↓State.enter_sensing,
    implies_true]⟩

@[simp] theorem State.nozRewrite_sensing (s : State) (b : Nat) (x : Nat) (e : NozEntry) :
    (State.nozRewrite s b x e).sensing = s.sensing := by
  simp only [State.nozRewrite.eq_def, ↓State.setNoz1_sensing, ↓State.countEntry_sensing, ↓State.gather_sensing,
    ↓State.nozRecord_sensing, ↓ite_sensing, ite_self]

@[simp] theorem State.restoreHealth_sensing (s : State) (b : Nat) : (State.restoreHealth s b).sensing = s.sensing := by
  rw [State.restoreHealth.eq_def] <;> (try simp only [↓State.nozRewrite_sensing, ↓State.calVerify_sensing, ↓foldl_sensing,
      ↓ite_sensing, ↓dite_sensing, ↓reduceIte, ite_self, implies_true,
      ↓State.sensing_keep]) <;> repeat' ((first | split | (rw [foldl_sensing]; intro s x)) <;> try simp only [↓State.nozRewrite_sensing,
      ↓State.calVerify_sensing, ↓foldl_sensing, ↓ite_sensing, ↓dite_sensing, ↓reduceIte, ite_self, implies_true,
      ↓State.sensing_keep])

@[simp] theorem State.nextRotation_sensing (s : State) : (State.nextRotation s).sensing = s.sensing := by
  simp only [State.nextRotation.eq_def, ↓State.setFld_sensing, ↓ite_sensing, ite_self]

@[simp] theorem State.idleSend_sensing (s : State) (l : Nat) : (State.idleSend s l).sensing = s.sensing := by
  simp only [State.idleSend.eq_def, ↓State.emit_sensing, ↓State.laneSent_sensing]

@[simp] theorem State.workingRate_sensing (s : State) : (State.workingRate s).2.sensing = s.sensing := by
  rw [State.workingRate.eq_def] <;> (try simp only [↓State.calVerify_sensing, ↓State.log1_sensing, ↓foldl_sensing, ↓ite_sensing,
      ↓dite_sensing, ↓reduceIte, ite_self, implies_true,
      ↓State.sensing_keep]) <;> repeat' ((first | split | (rw [foldl_sensing]; intro s x)) <;> try simp only [↓State.calVerify_sensing,
      ↓State.log1_sensing, ↓foldl_sensing, ↓ite_sensing, ↓dite_sensing, ↓reduceIte, ite_self, implies_true, ↓State.sensing_keep])

@[simp] theorem State.chainAll_sensing (s : State) (type : Nat) (cls : Nat) (body : List Byte) :
    (State.chainAll s type cls body).sensing = s.sensing := by
  simp only [State.chainAll.eq_def, ↓State.chainSendOn_sensing]

@[simp] theorem State.raiseRate_sensing (s : State) (code : Nat) : (State.raiseRate s code).sensing = s.sensing := by
  simp only [State.raiseRate.eq_def, ↓State.setFld_sensing, ↓State.laneAsk_sensing, ↓foldl_sensing, ↓ite_sensing, ite_self,
    implies_true, ↓State.sensing_keep]

@[simp] theorem State.sendRecord_sensing (s : State) : (State.sendRecord s).sensing = s.sensing := by
  simp only [State.sendRecord.eq_def, ↓State.workingRate_sensing, ↓State.chainAll_sensing, ↓State.raiseRate_sensing]

@[simp] theorem State.chainStatusSet_sensing (s : State) (mask : Nat) (leader : Nat) (form : Nat) (w : Nat) (e :
    Nat) (epoch : Nat) :
    (State.chainStatusSet s mask leader form w e epoch).sensing = s.sensing := by
  simp only [State.chainStatusSet.eq_def, ↓State.raise_sensing, ↓ite_sensing, ite_self, ↓State.sensing_keep]

@[simp] theorem State.sendLeader_sensing (s : State) : (State.sendLeader s).sensing = s.sensing := by
  simp only [State.sendLeader.eq_def, ↓State.chainAll_sensing, ↓State.chainStatusSet_sensing]

@[simp] theorem State.announce_sensing (s : State) : (State.announce s).sensing = s.sensing := by
  simp only [State.announce.eq_def, ↓State.sendRecord_sensing, ↓State.sendLeader_sensing, ↓ite_sensing, ite_self]

@[simp] theorem State.discover_sensing (s : State) : (State.discover s).sensing = s.sensing := by
  simp only [State.discover.eq_def, ↓State.mend_sensing, ↓State.chainSendOn_sensing, ↓State.sensing_keep]

theorem execChainDiscovery_sensing (s : State) : ∃ t, (execChainDiscovery s) = .next t ∧ t.sensing = s.sensing := by
  exact ⟨_, rfl, by simp only [↓State.announce_sensing, ↓State.discover_sensing, ↓ite_sensing, ite_self]⟩

@[simp] theorem State.setChan_sensing (s : State) (c : Nat) (x : EvtChan) : (State.setChan s c x).sensing = s.sensing := by
  simp only [State.setChan.eq_def, ↓State.sensing_keep]

@[simp] theorem State.axOutput_sensing (active : Bool) (s : State) (a : Nat) :
    (State.axOutput active s a).sensing = s.sensing := by
  simp only [State.axOutput.eq_def, ↓State.emit_sensing, ↓ite_sensing, ite_self]

@[simp] theorem State.axesDeep_sensing (s : State) : (State.axesDeep s).sensing = s.sensing := by
  simp only [State.axesDeep.eq_def, ↓State.setFld_sensing, ↓State.axOutput_sensing, ↓foldl_sensing, implies_true]

@[simp] theorem State.posEvent_sensing (s : State) (e : Nat) (bit : Nat) (prod : Nat) :
    (State.posEvent s e bit prod).sensing = s.sensing := by
  simp only [State.posEvent.eq_def, ↓State.raiseIf_sensing]

@[simp] theorem State.respond_sensing (s : State) (src : PktSrc) (rep : Reply) :
    (State.respond s src rep).sensing = s.sensing := by
  rw [State.respond.eq_def]
  repeat' split
  all_goals simp only [↓State.ringReply_sensing, ↓State.sendDatagram_sensing, ↓State.chainTo_sensing]

@[simp] theorem State.refuse_sensing (s : State) (src : PktSrc) (h : Header) (status : Nat) (payload : List Byte) :
    (State.refuse s src h status payload).sensing = s.sensing := by
  simp only [State.refuse.eq_def, ↓State.respond_sensing]

@[simp] theorem State.setInFlight_sensing (s : State) (l : List Forwarded) : (State.setInFlight s l).sensing = s.sensing := by
  simp only [State.setInFlight.eq_def, ↓State.sensing_keep]

@[simp] theorem State.forward_sensing (s : State) (sess : Nat) (b : List Byte) (src : Option (Nat × Nat)) :
    (State.forward s sess b src).sensing = s.sensing := by
  simp only [State.forward.eq_def, ↓State.setSession_sensing, ↓State.setInFlight_sensing, ↓State.chainTo_sensing, ↓ite_sensing,
    ite_self]

@[simp] theorem State.acceptOpen_sensing (s : State) (ip : Nat) (port : Nat) (b : List Byte) :
    (State.acceptOpen s ip port b).sensing = s.sensing := by
  rw [State.acceptOpen.eq_def] <;> (try simp only [↓State.refuse_sensing, ↓State.forward_sensing, ↓State.enqueue_sensing,
      ↓foldl_sensing, ↓ite_sensing, ↓dite_sensing, ↓reduceIte, ite_self, implies_true,
      ↓State.sensing_keep]) <;> repeat' ((first | split | (rw [foldl_sensing]; intro s x)) <;> try simp only [↓State.refuse_sensing,
      ↓State.forward_sensing, ↓State.enqueue_sensing, ↓foldl_sensing, ↓ite_sensing, ↓dite_sensing, ↓reduceIte, ite_self,
      implies_true, ↓State.sensing_keep])

@[simp] theorem State.releasePages_sensing (s : State) : (State.releasePages s).sensing = s.sensing := by
  simp only [State.releasePages.eq_def, ↓State.sensing_keep]

@[simp] theorem State.latchBoard_sensing (s : State) (k : Nat) (bit : Fld) : (State.latchBoard s k bit).sensing = s.sensing := by
  simp only [State.latchBoard.eq_def, ↓State.setBoard_sensing, ↓State.setFld_sensing, ↓State.setBst_sensing, ↓ite_sensing,
    ite_self]

@[simp] theorem State.updDecided_sensing (s : State) (k : Nat) (f : Nat) (u : Decided → Decided) :
    (State.updDecided s k f u).sensing = s.sensing := by
  simp only [State.updDecided.eq_def, ↓State.setBoard_sensing]

@[simp] theorem State.echoFault_sensing (s : State) : (State.echoFault s).sensing = s.sensing := by
  simp only [State.echoFault.eq_def, ↓State.fireEvent_sensing, ↓State.setFld_sensing]

@[simp] theorem State.closeGap_sensing (s : State) (k : Nat) : (State.closeGap s k).sensing = s.sensing := by
  rw [State.closeGap.eq_def]
  repeat' split
  all_goals simp only [↓State.setBoard_sensing, ↓State.addRecord_sensing, ↓State.bump_sensing, ↓ite_sensing, ite_self]

@[simp] theorem State.addGap_sensing (s : State) (k : Nat) (d : Decided) : (State.addGap s k d).sensing = s.sensing := by
  rw [State.addGap.eq_def]
  repeat' split
  all_goals simp only [↓State.setBoard_sensing, ↓State.closeGap_sensing]

@[simp] theorem State.settleFront_sensing (s : State) (k : Nat) (x2 : Nat) : (State.settleFront s k x2).sensing = s.sensing := by
  induction x2 generalizing s with
  | zero => rfl
  | succ n ih =>
    rw [State.settleFront]
    split
    · split
      · rw [ih]; split
        · rw [State.closeGap_sensing, State.setBoard_sensing]
        · rw [State.addGap_sensing, State.setBoard_sensing]
      · rfl
    · rfl

@[simp] theorem State.settle_sensing (s : State) (k : Nat) : (State.settle s k).sensing = s.sensing := by
  simp only [State.settle.eq_def, ↓State.settleFront_sensing, ↓State.closeGap_sensing, ↓ite_sensing, ite_self]

@[simp] theorem State.queueBack_sensing (s : State) (w : Nat) (wrong : Option Nat) :
    (State.queueBack s w wrong).sensing = s.sensing := by
  simp only [State.queueBack.eq_def, ↓State.sensing_keep]

@[simp] theorem State.reportCorrected_sensing (s : State) (c : Nat) (w : Nat) (scrub : Bool) :
    (State.reportCorrected s c w scrub).sensing = s.sensing := by
  simp only [State.reportCorrected.eq_def, ↓State.bump_sensing, ↓State.setFld_sensing, ↓State.log1_sensing,
    ↓State.addRecord_sensing, ↓ite_sensing, ite_self, ↓State.sensing_keep]

@[simp] theorem State.latchUe_sensing (s : State) (a : Nat) (action : Nat) (region : Nat) (c : Nat) (input : Nat)
    (scrub : Bool) :
    (State.latchUe s a action region c input scrub).sensing = s.sensing := by
  simp only [State.latchUe.eq_def, ↓State.setFld_sensing, ↓State.setFlag_sensing, ↓ite_sensing, ite_self]

@[simp] theorem State.setWord_sensing (s : State) (w : Nat) (bad : Bool) : (State.setWord s w bad).sensing = s.sensing := by
  simp only [State.setWord.eq_def, ↓State.sensing_keep]

@[simp] theorem State.upset_sensing (s : State) (w : Nat) (sym : Nat) (pat : Nat) :
    (State.upset s w sym pat).sensing = s.sensing := by
  simp only [State.upset.eq_def, ↓State.sensing_keep]

@[simp] theorem State.inject_sensing (s : State) (at_ : Nat) (n : Nat) : (State.inject s at_ n).sensing = s.sensing := by
  rw [State.inject.eq_def]
  repeat' split
  all_goals simp only [↓State.upset_sensing, ↓State.setFld_sensing]

@[simp] theorem State.phaseFail_sensing (s : State) (p : Nat) : (State.phaseFail s p).sensing = s.sensing := by
  simp only [State.phaseFail.eq_def, ↓State.setFld_sensing, ↓State.log1_sensing, ↓ite_sensing, ite_self]

theorem execEngineDoze_sensing (engine : Nat) (s : State) : ∃ t, (execEngineDoze engine s) = .next t ∧ t.sensing = s.sensing := by
  exact ⟨_, rfl, by simp only [↓State.bump_sensing, ↓State.showGated_sensing, ↓ite_sensing, ite_self, ↓State.sensing_keep]⟩

@[simp] theorem State.clearRc_sensing (s : State) (a : Nat) : (State.clearRc s a).sensing = s.sensing := by
  rw [State.clearRc.eq_def]
  repeat' split
  all_goals simp only [↓State.setReg_sensing]

@[simp] theorem State.latch_sensing (s : State) (path : Path) (a : Nat) : (State.latch s path a).sensing = s.sensing := by
  simp only [State.latch.eq_def, ↓State.sensing_keep]

@[simp] theorem State.showStore_sensing (s : State) : (State.showStore s).sensing = s.sensing := by
  simp only [State.showStore.eq_def, ↓State.setFld_sensing, ↓ite_sensing, ite_self, ↓State.sensing_keep]

@[simp] theorem State.calWrite_sensing (s : State) (kind : Nat) (inst : Nat) (content : List Nat) (calibrated : Bool) :
    (State.calWrite s kind inst content calibrated).sensing = s.sensing := by
  simp only [State.calWrite.eq_def, ↓State.showStore_sensing, ↓State.setCalPair_sensing]

@[simp] theorem State.calRate_sensing (s : State) (code : Nat) : (State.calRate s code).sensing = s.sensing := by
  simp only [State.calRate.eq_def, ↓State.sendRecord_sensing, ↓State.calWrite_sensing]

theorem execFireClear_sensing (board : Nat) (s : State) : ∃ t, (execFireClear board s) = .next t ∧ t.sensing = s.sensing := by
  exact ⟨_, rfl, by simp only [↓State.orLater_sensing, ↓State.boardClear_sensing, ↓ite_sensing, ite_self, implies_true]⟩

@[simp] theorem State.setStaged_sensing (s : State) (op : Nat) (inst : Nat) (x : Staging) :
    (State.setStaged s op inst x).sensing = s.sensing := by
  simp only [State.setStaged.eq_def, ↓State.sensing_keep]

@[simp] theorem State.loadChunk_sensing (s : State) (rq : Rq) (op : Nat) (limit : Nat) (mayReset : Bool) (c :
    Chunk) (commit : List Byte → List Byte → State → State) (hcommit : ∀ y0 y1 y2, (commit y0 y1 y2).sensing = y2.sensing)
    :
    (State.loadChunk s rq op limit mayReset c commit).sensing = s.sensing := by
  rw [State.loadChunk.eq_def] <;> (try simp only [↓State.withParams_sensing, ↓State.badParam_sensing, ↓State.finish_sensing,
      ↓State.setStaged_sensing, ↓foldl_sensing, ↓ite_sensing, ↓dite_sensing, ↓reduceIte, ite_self, implies_true,
      ↓State.sensing_keep,
      hcommit]) <;> repeat' ((first | (rw [State.withParams_sensing]; intro s) | split | (rw [foldl_sensing]; intro s x)) <;> try simp only [↓State.withParams_sensing,
      ↓State.badParam_sensing, ↓State.finish_sensing, ↓State.setStaged_sensing, ↓foldl_sensing, ↓ite_sensing, ↓dite_sensing,
      ↓reduceIte, ite_self, implies_true, ↓State.sensing_keep, hcommit])

@[simp] theorem State.loadTable_sensing (s : State) (rq : Rq) (op : Nat) (limit : Nat) (c : Chunk) (inUse : Bool)
    (discard : State → State) (commit : List Byte → List Byte → State → State) (hdiscard : ∀ y0, (discard y0).sensing =
    y0.sensing) (hcommit : ∀ y0 y1 y2, (commit y0 y1 y2).sensing = y2.sensing) :
    (State.loadTable s rq op limit c inUse discard commit).sensing = s.sensing := by
  simp only [State.loadTable, ite_sensing, State.finish_sensing, State.loadChunk_sensing _ _ _ _ _ _ _ hcommit, hdiscard, ite_self]

@[simp] theorem State.setPend_sensing (s : State) (b : Nat) (d : DoseBank) : (State.setPend s b d).sensing = s.sensing := by
  simp only [State.setPend.eq_def, ↓State.showBank_sensing, ↓State.setBar_sensing]

@[simp] theorem State.stageBank_sensing (s : State) (b : Nat) (d : DoseBank) : (State.stageBank s b d).sensing = s.sensing := by
  simp only [State.stageBank.eq_def, ↓State.setPend_sensing, ↓State.swapRequest_sensing, ↓ite_sensing, ite_self]

theorem execGainLoad_sensing (rq : Rq) (chunk : Chunk) (s : State) :
    ∃ t, (execGainLoad rq chunk s) = .next t ∧ t.sensing = s.sensing := by
  rw [execGainLoad.eq_def]
  repeat' split
  all_goals refine ⟨_, rfl, ?_⟩
  all_goals (try simp only [↓State.run_sensing, ↓State.loadTable_sensing, ↓State.setPend_sensing, ↓State.reject_sensing,
      ↓State.finish_sensing, ↓State.setLoopBar_sensing, ↓State.stageBank_sensing, ↓foldl_sensing, ↓ite_sensing, ↓dite_sensing,
      ↓reduceIte, ite_self, implies_true, ↓State.sensing_keep])
  all_goals repeat' ((first | (rw [State.loadTable_sensing] <;> [(intro s); (intro t rep s)]) | (rw [State.run_sensing]; intro s) | split | (rw [foldl_sensing]; intro s x)) <;> try simp only [↓State.run_sensing,
      ↓State.loadTable_sensing, ↓State.setPend_sensing, ↓State.reject_sensing, ↓State.finish_sensing, ↓State.setLoopBar_sensing,
      ↓State.stageBank_sensing, ↓foldl_sensing, ↓ite_sensing, ↓dite_sensing, ↓reduceIte, ite_self, implies_true,
      ↓State.sensing_keep])

@[simp] theorem State.showFom_sensing (s : State) (l : Nat) (fom : Nat) : (State.showFom s l fom).sensing = s.sensing := by
  simp only [State.showFom.eq_def, ↓State.setFld_sensing, ↓State.setLane_sensing, ↓ite_sensing, ite_self]

theorem State.takeEntry_sensing (s : State) (page : Nat) (r : Nat × State) (h :
    s.takeEntry page = some r) :
    r.2.sensing = s.sensing := by
  rw [State.takeEntry] at h
  split at h
  · cases h; rfl
  · split at h
    · cases h
    · cases h; rfl

@[simp] theorem State.pageStart_sensing (s : State) (w : StartWait) (range : Nat) :
    (State.pageStart s w range).sensing = s.sensing := by
  rw [State.pageStart]
  split
  · exact State.finishSlot_sensing ..
  · split
    · exact State.finishSlot_sensing ..
    · rename_i id s' h
      rw [State.chainStart_sensing, State.setPage_sensing, State.takeEntry_sensing _ _ _ h]

theorem execPageSubmitStart_sensing (s : State) : ∃ t, (execPageSubmitStart s) = .next t ∧ t.sensing = s.sensing := by
  rw [execPageSubmitStart.eq_def]
  refine ⟨_, rfl, ?_⟩
  repeat' split
  all_goals simp only [↓State.pageStart_sensing, ↓State.sensing_keep]

@[simp] theorem State.lanesDeep_sensing (s : State) : (State.lanesDeep s).sensing = s.sensing := by
  simp only [State.lanesDeep.eq_def, ↓State.laneAbandon_sensing, ↓State.laneSleep_sensing, ↓State.laneAsk_sensing,
    ↓foldl_sensing, ↓ite_sensing, ite_self, implies_true]

@[simp] theorem State.onLink_sensing (s : State) (lane : Nat) (blk : List Byte) (act : Nat → Nat → State) (hact : ∀
    y0 y1, (act y0 y1).sensing = s.sensing) :
    (State.onLink s lane blk act).sensing = s.sensing := by
  rw [State.onLink.eq_def]
  repeat' split
  all_goals simp only [↓State.bump_sensing, hact]

theorem execLinkAlign_sensing (lane : Nat) (blk : List Byte) (pos : Nat) (s : State) :
    ∃ t, (execLinkAlign lane blk pos s) = .next t ∧ t.sensing = s.sensing := by
  exact ⟨_, rfl, by simp only [↓State.onLink_sensing, ↓State.setLane_sensing, ↓ite_sensing, ite_self, implies_true]⟩

@[simp] theorem State.endIngests_sensing (s : State) : (State.endIngests s).sensing = s.sensing := by
  simp only [State.endIngests.eq_def, ↓State.stopPage_sensing, ↓State.finishSlot_sensing, ↓foldl_sensing, ↓ite_sensing,
    ite_self, implies_true, ↓State.sensing_keep]

@[simp] theorem State.storeHealth_sensing (s : State) : (State.storeHealth s).sensing = s.sensing := by
  simp only [State.storeHealth.eq_def, ↓State.calWrite_sensing, ↓foldl_sensing, ↓ite_sensing, ite_self, implies_true,
    ↓State.sensing_keep]

@[simp] theorem State.flushGaps_sensing (s : State) : (State.flushGaps s).sensing = s.sensing := by
  simp only [State.flushGaps.eq_def, ↓State.closeGap_sensing, ↓foldl_sensing, ↓ite_sensing, ite_self, implies_true]

@[simp] theorem State.showFill_sensing (s : State) (b : Nat) : (State.showFill s b).sensing = s.sensing := by
  simp only [State.showFill.eq_def, ↓State.setFlag_sensing, ↓State.setFld_sensing]

@[simp] theorem State.pps_sensing (s : State) (d : Nat) : (State.pps s d).sensing = s.sensing := by
  simp only [State.pps.eq_def, ↓State.raiseIf_sensing]

@[simp] theorem State.interrupt_sensing (s : State) (c : Nat) (ticks : Nat) (bank : Option Nat) :
    (State.interrupt s c ticks bank).sensing = s.sensing := by
  simp only [State.interrupt.eq_def, ↓State.setFld_sensing, ↓State.sensing_keep]

@[simp] theorem State.closeRows_sensing (s : State) (c : Nat) (bank : Option Nat) :
    (State.closeRows s c bank).sensing = s.sensing := by
  simp only [State.closeRows.eq_def, ↓State.sensing_keep]

@[simp] theorem State.targetRefresh_sensing (s : State) (c : Nat) (bank : Nat) :
    (State.targetRefresh s c bank).sensing = s.sensing := by
  simp only [State.targetRefresh.eq_def, ↓State.bump_sensing, ↓State.interrupt_sensing, ↓State.closeRows_sensing]

@[simp] theorem State.targetDue_sensing (s : State) (e : Nat × Nat × Nat) : (State.targetDue s e).sensing = s.sensing := by
  simp only [State.targetDue.eq_def, ↓State.targetRefresh_sensing, ↓ite_sensing, ite_self, ↓State.sensing_keep]

@[simp] theorem State.targetsTick_sensing (s : State) : (State.targetsTick s).sensing = s.sensing := by
  simp only [State.targetsTick.eq_def, ↓State.targetDue_sensing, ↓foldl_sensing, implies_true]

@[simp] theorem State.verifySlot_sensing (s : State) (bad : List Nat) (b : Bool) :
    (State.verifySlot s bad b).2.sensing = s.sensing := by
  rw [State.verifySlot.eq_def]
  repeat' split
  all_goals simp only [↓State.log1_sensing, ↓State.setFld_sensing]

@[simp] theorem State.lockFree_sensing (s : State) (k : Nat) : (State.lockFree s k).sensing = s.sensing := by
  simp only [State.lockFree.eq_def, ↓State.lockPass_sensing]

theorem execLockRelease_sensing (rq : Rq) (lock : Nat) (s : State) :
    ∃ t, (execLockRelease rq lock s) = .next t ∧ t.sensing = s.sensing := by
  exact ⟨_, rfl, by simp only [↓State.run_sensing, ↓State.withParams_sensing, ↓State.finish_sensing, ↓State.lockFree_sensing,
    ↓ite_sensing, ite_self, implies_true]⟩

@[simp] theorem State.restoreLog_sensing (s : State) : (State.restoreLog s).sensing = s.sensing := by
  simp only [State.restoreLog.eq_def, ↓State.sensing_keep]

@[simp] theorem State.keepSupply_sensing (s t : State) : (s.keepSupply t).sensing = t.sensing := by
  simp only [State.keepSupply]
  rw [State.sensing_keep]
  exact foldl_sensing _ (fun s f => State.setFld_sensing ..) _ _

@[simp] theorem State.fireIdle_sensing (s : State) : (State.fireIdle s).sensing = s.sensing := by
  simp only [State.fireIdle.eq_def, ↓State.emit_sensing, ↓State.setBoard_sensing, ↓foldl_sensing, ↓ite_sensing, ite_self,
    implies_true]

@[simp] theorem State.runSlot_sensing (s : State) (b : Bool) : (State.runSlot s b).sensing = s.sensing := by
  simp only [State.runSlot.eq_def, ↓State.setFlag_sensing, ↓State.setFld_sensing]

@[simp] theorem State.bootImage_sensing (s : State) (bad : List Nat) : (State.bootImage s bad).2.sensing = s.sensing := by
  rw [State.bootImage.eq_def] <;> (try simp only [↓State.verifySlot_sensing, ↓State.runSlot_sensing, ↓State.setFld_sensing,
      ↓foldl_sensing, ↓ite_sensing, ↓dite_sensing, ↓reduceIte, ite_self, implies_true,
      ↓State.sensing_keep]) <;> repeat' ((first | split | (rw [foldl_sensing]; intro s x)) <;> try simp only [↓State.verifySlot_sensing,
      ↓State.runSlot_sensing, ↓State.setFld_sensing, ↓foldl_sensing, ↓ite_sensing, ↓dite_sensing, ↓reduceIte, ite_self,
      implies_true, ↓State.sensing_keep])

@[simp] theorem State.bootStep_sensing (s : State) (n : Nat) : (State.bootStep s n).sensing = s.sensing := by
  simp only [State.bootStep.eq_def, ↓State.setFld_sensing]

@[simp] theorem State.copyLog_sensing (s : State) : (State.copyLog s).sensing = s.sensing := by
  simp only [State.copyLog.eq_def, ↓State.sensing_keep]

@[simp] theorem State.failExecuting_sensing (s : State) (entry : Nat) : (State.failExecuting s entry).sensing = s.sensing := by
  simp only [State.failExecuting.eq_def, ↓State.finishSlot_sensing, ↓State.setFld_sensing, ↓foldl_sensing, implies_true,
    ↓State.sensing_keep]

@[simp] theorem State.setCluster_sensing (s : State) (c : Nat) (x : Cluster) : (State.setCluster s c x).sensing = s.sensing := by
  simp only [State.setCluster.eq_def, ↓State.sensing_keep]

@[simp] theorem State.tookOver_sensing (s : State) (c : Nat) (slot : Nat) (phys : Nat) (cause : Nat) :
    (State.tookOver s c slot phys cause).sensing = s.sensing := by
  simp only [State.tookOver.eq_def, ↓State.bump_sensing, ↓State.setCluster_sensing, ↓State.setFld_sensing,
    ↓State.raiseIf_sensing, ↓State.log1_sensing]

@[simp] theorem State.spareTakes_sensing (s : State) (c : Nat) (slot : Nat) (cause : Nat) :
    (State.spareTakes s c slot cause).sensing = s.sensing := by
  simp only [State.spareTakes.eq_def, ↓State.setCluster_sensing, ↓State.showGated_sensing, ↓State.tookOver_sensing,
    ↓State.nextRotation_sensing, ↓ite_sensing, ite_self]

@[simp] theorem State.spareExhausted_sensing (s : State) (c : Nat) (slot : Nat) :
    (State.spareExhausted s c slot).sensing = s.sensing := by
  simp only [State.spareExhausted.eq_def, ↓State.setCluster_sensing, ↓State.log1_sensing, ↓State.setFld_sensing,
    ↓State.showGated_sensing]

@[simp] theorem State.selfTestFail_sensing (s : State) (e : Nat) : (State.selfTestFail s e).sensing = s.sensing := by
  simp only [State.selfTestFail.eq_def, ↓State.log1_sensing, ↓State.setCluster_sensing, ↓State.spareTakes_sensing,
    ↓State.spareExhausted_sensing, ↓ite_sensing, ite_self]

@[simp] theorem State.selfTest_sensing (s : State) (failed : List Nat) : (State.selfTest s failed).sensing = s.sensing := by
  simp only [State.selfTest.eq_def, ↓State.selfTestFail_sensing, ↓foldl_sensing, implies_true]

@[simp] theorem State.readStore_sensing (s : State) : (State.readStore s).sensing = s.sensing := by
  simp only [State.readStore.eq_def, ↓State.calVerify_sensing, ↓foldl_sensing, implies_true]

@[simp] theorem State.strapLanes_sensing (s : State) : (State.strapLanes s).sensing = s.sensing := by
  simp only [State.strapLanes.eq_def, ↓State.laneToward_sensing, ↓State.setFld_sensing, ↓foldl_sensing, implies_true]

@[simp] theorem State.bootEnd_sensing (s : State) (ms : Nat) : (State.bootEnd s ms).sensing = s.sensing := by
  simp only [State.bootEnd.eq_def, ↓State.setFld_sensing, ↓State.bootStep_sensing, ↓State.enter_sensing, ↓ite_sensing, ite_self]

@[simp] theorem State.targeted_sensing (s : State) (c : Nat) (input : Nat) (p : Nat × Nat × Nat) :
    (State.targeted s c input p).sensing = s.sensing := by
  simp only [State.targeted.eq_def, ↓State.targetRefresh_sensing, ↓ite_sensing, ite_self, ↓State.sensing_keep]

@[simp] theorem State.showThrottle_sensing (s : State) (c : Nat) : (State.showThrottle s c).sensing = s.sensing := by
  rw [State.showThrottle.eq_def]
  repeat' split
  all_goals simp only [↓State.setFld_sensing]

@[simp] theorem State.throttleEvent_sensing (s : State) (c : Nat) (input : Nat) (p : Nat × Nat × Nat) :
    (State.throttleEvent s c input p).sensing = s.sensing := by
  simp only [State.throttleEvent.eq_def, ↓State.setFld_sensing, ↓State.bump_sensing, ↓State.log1_sensing,
    ↓State.targeted_sensing, ↓State.showThrottle_sensing, ↓ite_sensing, ite_self, ↓State.sensing_keep]

@[simp] theorem countKib_sensing (s : State) (f : Fld) (rest : Nat) (n : Nat) : (countKib s f rest n).2.sensing = s.sensing := by
  simp only [countKib.eq_def, ↓State.bump_sensing]

theorem execNozzleStateRead_sensing (rq : Rq) (first : Nat) (count : Nat) (s : State) :
    ∃ t, (execNozzleStateRead rq first count s) = .next t ∧ t.sensing = s.sensing := by
  exact ⟨_, rfl, by simp only [↓State.run_sensing, ↓State.withParams_sensing, ↓State.finish_sensing, implies_true]⟩

theorem execMsixUnmask_sensing (vector : Nat) (s : State) : ∃ t, (execMsixUnmask vector s) = .next t ∧ t.sensing = s.sensing := by
  exact ⟨_, rfl, by simp only [↓State.emit_sensing, ↓ite_sensing, ite_self, ↓State.sensing_keep]⟩

@[simp] theorem State.hold_sensing (s : State) : (State.hold s).sensing = s.sensing := by
  simp only [State.hold.eq_def, ↓State.sensing_keep]

@[simp] theorem State.pause_sensing (s : State) : (State.pause s).sensing = s.sensing := by
  simp only [State.pause.eq_def, ↓State.enter_sensing, ↓State.hold_sensing]

@[simp] theorem State.ethDown_sensing (s : State) (p : Nat) : (State.ethDown s p).sensing = s.sensing := by
  simp only [State.ethDown.eq_def, ↓State.setFld_sensing]

@[simp] theorem State.ethChange_sensing (s : State) : (State.ethChange s).sensing = s.sensing := by
  simp only [State.ethChange.eq_def, ↓State.ethDown_sensing, ↓foldl_sensing, ↓ite_sensing, ite_self, implies_true]

@[simp] theorem State.draw_sensing (s : State) : (State.draw s).2.sensing = s.sensing := by
  simp only [State.draw.eq_def, ↓State.sensing_keep]

@[simp] theorem State.maskAll_sensing (s : State) (v : Nat) : (State.maskAll s v).sensing = s.sensing := by
  simp only [State.maskAll.eq_def, ↓State.setFld_sensing, ↓foldl_sensing, implies_true, ↓State.sensing_keep]

@[simp] theorem State.leaveSelfRefresh_sensing (s : State) (c : Nat) : (State.leaveSelfRefresh s c).sensing = s.sensing := by
  simp only [State.leaveSelfRefresh.eq_def, ↓State.interrupt_sensing, ↓State.setFld_sensing, ↓ite_sensing, ite_self]

@[simp] theorem State.dramDeep_sensing (s : State) (enter : Bool) : (State.dramDeep s enter).sensing = s.sensing := by
  simp only [State.dramDeep.eq_def, ↓State.setFld_sensing, ↓State.closeRows_sensing, ↓State.leaveSelfRefresh_sensing,
    ↓foldl_sensing, ↓ite_sensing, ite_self, implies_true]

theorem execEngineLockRelease_sensing (engine : Nat) (lock : Nat) (s : State) :
    ∃ t, (execEngineLockRelease engine lock s) = .next t ∧ t.sensing = s.sensing := by
  exact ⟨_, rfl, by simp only [↓State.tellEngine_sensing, ↓State.lockFree_sensing, ↓ite_sensing, ite_self]⟩

theorem execEnergyCapExpiry_sensing (s : State) : ∃ t, (execEnergyCapExpiry s) = .next t ∧ t.sensing = s.sensing := by
  rw [execEnergyCapExpiry.eq_def]
  exact ⟨_, rfl, rfl⟩

theorem execChainStatus_sensing (rq : Rq) (s : State) : ∃ t, (execChainStatus rq s) = .next t ∧ t.sensing = s.sensing := by
  exact ⟨_, rfl, by simp only [↓State.run_sensing, ↓State.withParams_sensing, ↓State.finish_sensing, implies_true]⟩

@[simp] theorem State.recSignal_sensing (s : State) (r : Nat) : (State.recSignal s r).sensing = s.sensing := by
  simp only [State.recSignal.eq_def, ↓State.setRecRing_sensing, ↓State.msixSignal_sensing, ↓ite_sensing, ite_self]

@[simp] theorem State.withProfile_sensing (s : State) (k : Nat) (t : List Byte) :
    (State.withProfile s k t).sensing = s.sensing := by
  simp only [State.withProfile.eq_def, ↓State.setBoard_sensing]

@[simp] theorem State.profileInForce_sensing (s : State) (k : Nat) (t : List Byte) :
    (State.profileInForce s k t).sensing = s.sensing := by
  simp only [State.profileInForce.eq_def, ↓State.withProfile_sensing, ↓State.boardOff_sensing, ↓State.laneRole_sensing,
    ↓State.showStackMax_sensing, ↓State.boardRefresh_sensing, ↓foldl_sensing, implies_true]

@[simp] theorem State.keepFloor_sensing (s : State) : (State.keepFloor s).sensing = s.sensing := by
  simp only [State.keepFloor.eq_def, ↓ite_sensing, ite_self, ↓State.sensing_keep]

@[simp] theorem State.newWindow_sensing (s : State) (c : Nat) : (State.newWindow s c).sensing = s.sensing := by
  simp only [State.newWindow.eq_def, ↓ite_sensing, ite_self, ↓State.sensing_keep]

@[simp] theorem State.activate_sensing (s : State) (c : Nat) (input : Nat) (p : Nat × Nat × Nat) :
    (State.activate s c input p).sensing = s.sensing := by
  simp only [State.activate.eq_def, ↓State.newWindow_sensing, ↓State.throttleEvent_sensing, ↓ite_sensing, ite_self,
    ↓State.sensing_keep]

@[simp] theorem State.showNozzles_sensing (s : State) : (State.showNozzles s).sensing = s.sensing := by
  simp only [State.showNozzles.eq_def, ↓State.setFld_sensing]

@[simp] theorem State.operatorFinding_sensing (s : State) (f : Finding) : (State.operatorFinding s f).sensing = s.sensing := by
  simp only [State.operatorFinding.eq_def, ↓State.finishSlot_sensing, ↓State.gather_sensing, ↓State.setNoz1_sensing,
    ↓State.nozEnter_sensing, ↓State.setLoopBar_sensing, ↓ite_sensing, ite_self]

@[simp] theorem State.cutChain_sensing (s : State) (ch : Nat) : (State.cutChain s ch).sensing = s.sensing := by
  simp only [State.cutChain.eq_def, ↓State.haltDone_sensing, ↓State.chainPage_sensing, ↓State.dmaMark_sensing,
    ↓State.chainStop_sensing, ↓ite_sensing, ite_self]

@[simp] theorem State.mendC1_sensing (s : State) : (State.mendC1 s).sensing = s.sensing := by
  simp only [State.mendC1.eq_def, ↓State.mend_sensing, ↓ite_sensing, ite_self]

@[simp] theorem State.tellClosed_sensing (s : State) (n : Nat) : (State.tellClosed s n).sensing = s.sensing := by
  simp only [State.tellClosed.eq_def, ↓State.chainTo_sensing, ↓foldl_sensing, implies_true]

@[simp] theorem State.lockKeep_sensing (s : State) (k : Nat) (ws : List LockWait) :
    (State.lockKeep s k ws).sensing = s.sensing := by
  simp only [State.lockKeep.eq_def, ↓State.setLock_sensing]

@[simp] theorem State.locksOfBreak_sensing (s : State) (engine : Bool) (client : Nat) :
    (State.locksOfBreak s engine client).sensing = s.sensing := by
  simp only [State.locksOfBreak.eq_def, ↓State.lockKeep_sensing, ↓State.lockBreak_sensing, ↓foldl_sensing, ↓ite_sensing,
    ite_self, implies_true]

@[simp] theorem State.showOpen_sensing (s : State) (n : Nat) (op : Bool) : (State.showOpen s n op).sensing = s.sensing := by
  simp only [State.showOpen.eq_def, ↓State.setFld_sensing]

@[simp] theorem State.withdrawRing_sensing (s : State) (r : Nat) : (State.withdrawRing s r).sensing = s.sensing := by
  simp only [State.withdrawRing.eq_def, ↓State.mendC1_sensing, ↓State.setRecRing_sensing]

@[simp] theorem State.linkGone_sensing (s : State) : (State.linkGone s).sensing = s.sensing := by
  simp only [State.linkGone.eq_def, ↓State.setFld_sensing]

theorem execRecordDeliver_sensing (ring : Nat) (s : State) :
    ∃ t, (execRecordDeliver ring s) = .next t ∧ t.sensing = s.sensing := by
  rw [execRecordDeliver.eq_def]
  repeat' split
  all_goals refine ⟨_, rfl, ?_⟩
  all_goals (try simp only [↓State.emit_sensing, ↓State.recSignal_sensing, ↓State.setRecRing_sensing, ↓foldl_sensing, ↓ite_sensing,
      ↓dite_sensing, ↓reduceIte, ite_self, implies_true, ↓State.sensing_keep])
  all_goals repeat' ((first | split | (rw [foldl_sensing]; intro s x)) <;> try simp only [↓State.emit_sensing,
      ↓State.recSignal_sensing, ↓State.setRecRing_sensing, ↓foldl_sensing, ↓ite_sensing, ↓dite_sensing, ↓reduceIte, ite_self,
      implies_true, ↓State.sensing_keep])

@[simp] theorem State.takeoverFail_sensing (s : State) (g : Nat) : (State.takeoverFail s g).sensing = s.sensing := by
  simp only [State.takeoverFail.eq_def, ↓State.setLaneGrp_sensing, ↓State.setFld_sensing, ↓State.bump_sensing]

theorem execTakeoverTimeout_sensing (group : Nat) (s : State) :
    ∃ t, (execTakeoverTimeout group s) = .next t ∧ t.sensing = s.sensing := by
  exact ⟨_, rfl, by simp only [↓State.takeoverFail_sensing, ↓ite_sensing, ite_self]⟩

@[simp] theorem State.openReply_sensing (s : State) (ip : Nat) (port : Nat) (rq : Rq) (status : Nat) (payload :
    List Byte) :
    (State.openReply s ip port rq status payload).sensing = s.sensing := by
  simp only [State.openReply.eq_def, ↓State.respond_sensing, ↓ite_sensing, ite_self]

@[simp] theorem State.openBad_sensing (s : State) (ip : Nat) (port : Nat) (rq : Rq) (o : Nat) :
    (State.openBad s ip port rq o).sensing = s.sensing := by
  simp only [State.openBad.eq_def, ↓State.openReply_sensing]

@[simp] theorem State.endMaint_sensing (s : State) : (State.endMaint s).sensing = s.sensing := by
  simp only [State.endMaint.eq_def, ↓State.setFld_sensing, ↓foldl_sensing, implies_true, ↓State.sensing_keep]

theorem execKpsJobHeader_sensing (ch : Nat) (bytes : List Byte) (s : State) :
    ∃ t, (execKpsJobHeader ch bytes s) = .next t ∧ t.sensing = s.sensing := by
  rw [execKpsJobHeader.eq_def]
  refine ⟨_, rfl, ?_⟩
  repeat' split
  all_goals simp only [↓State.failPage_sensing, ↓State.shortPage_sensing, ↓State.setPage_sensing, ↓ite_sensing, ite_self]

theorem execChainStandbyEntry_sensing (s : State) : ∃ t, (execChainStandbyEntry s) = .next t ∧ t.sensing = s.sensing := by
  exact ⟨_, rfl, by simp only [↓State.enter_sensing, ↓ite_sensing, ite_self]⟩

@[simp] theorem State.pend_sensing (s : State) (rq : Rq) (op : Nat) : (State.pend s rq op).sensing = s.sensing := by
  simp only [State.pend.eq_def, ↓State.setSlot_sensing, ↓ite_sensing, ite_self]

@[simp] theorem State.kalEvent_sensing (s : State) (p : Nat) (bit : Nat) (f : Fld) (prod : Nat) :
    (State.kalEvent s p bit f prod).sensing = s.sensing := by
  simp only [State.kalEvent.eq_def, ↓State.raiseIf_sensing, ↓State.setFld_sensing]

@[simp] theorem State.testPair_sensing (s : State) : (State.testPair s).sensing = s.sensing := by
  simp only [State.testPair.eq_def, ↓State.setFld_sensing, ↓State.sensing_keep]

theorem execLoopLate_sensing (bar : Nat) (s : State) : ∃ t, (execLoopLate bar s) = .next t ∧ t.sensing = s.sensing := by
  rw [execLoopLate.eq_def]
  repeat' split
  all_goals refine ⟨_, rfl, ?_⟩
  all_goals (try simp only [↓State.nozEvent_sensing, ↓State.setLoopBar_sensing, ↓foldl_sensing, ↓ite_sensing, ↓dite_sensing,
      ↓reduceIte, ite_self, implies_true, ↓State.sensing_keep])
  all_goals repeat' ((first | split | (rw [foldl_sensing]; intro s x)) <;> try simp only [↓State.nozEvent_sensing,
      ↓State.setLoopBar_sensing, ↓foldl_sensing, ↓ite_sensing, ↓dite_sensing, ↓reduceIte, ite_self, implies_true,
      ↓State.sensing_keep])

@[simp] theorem State.markDelivered_sensing (s : State) (sess : Nat) (tag : Nat) :
    (State.markDelivered s sess tag).sensing = s.sensing := by
  simp only [State.markDelivered.eq_def, ↓State.setSlot_sensing, ↓ite_sensing, ite_self]

@[simp] theorem State.fetch_sensing (s : State) (sess : Nat) (tag : Nat) (echo : Reply) :
    (State.fetch s sess tag echo).sensing = s.sensing := by
  simp only [State.fetch.eq_def, ↓State.markDelivered_sensing, ↓State.deliver_sensing]

@[simp] theorem State.swapPairs_sensing (s : State) : (State.swapPairs s).sensing = s.sensing := by
  simp only [State.swapPairs.eq_def, ↓State.setFld_sensing]

@[simp] theorem State.setOldKernels_sensing (s : State) (old : Bool) : (State.setOldKernels s old).sensing = s.sensing := by
  simp only [State.setOldKernels.eq_def, ↓State.setCluster_sensing, ↓foldl_sensing, implies_true]

@[simp] theorem State.fallBack_sensing (s : State) : (State.fallBack s).sensing = s.sensing := by
  simp only [State.fallBack.eq_def, ↓State.setFld_sensing, ↓State.setOldKernels_sensing, ↓State.runSlot_sensing, ↓ite_sensing,
    ite_self]

@[simp] theorem State.pairOver_sensing (s : State) : (State.pairOver s).sensing = s.sensing := by
  simp only [State.pairOver.eq_def, ↓State.testPair_sensing, ↓State.swapPairs_sensing, ↓State.setFld_sensing,
    ↓State.bump_sensing, ↓State.fallBack_sensing]

@[simp] theorem State.pairTick_sensing (s : State) : (State.pairTick s).sensing = s.sensing := by
  simp only [State.pairTick.eq_def, ↓State.pairOver_sensing, ↓State.setFld_sensing, ↓ite_sensing, ite_self]

@[simp] theorem State.lineEvents_sensing (s : State) (b : Nat) : (State.lineEvents s b).sensing = s.sensing := by
  simp only [State.lineEvents.eq_def, ↓State.setBar_sensing, ↓State.raise_sensing, ↓foldl_sensing, ↓ite_sensing, ite_self,
    implies_true, ↓State.sensing_keep]

@[simp] theorem State.webMoved_sensing (s : State) : (State.webMoved s).sensing = s.sensing := by
  simp only [State.webMoved.eq_def, ↓State.lineEvents_sensing, ↓foldl_sensing, ↓ite_sensing, ite_self, implies_true,
    ↓State.sensing_keep]

@[simp] theorem State.timeEvent_sensing (s : State) (bit : Nat) : (State.timeEvent s bit).sensing = s.sensing := by
  simp only [State.timeEvent.eq_def, ↓State.raiseIf_sensing]

@[simp] theorem State.periodicTick_sensing (before : Clock) (s : State) (p : Nat) :
    (State.periodicTick before s p).sensing = s.sensing := by
  simp only [State.periodicTick.eq_def, ↓State.timeEvent_sensing, ↓ite_sensing, ite_self]

@[simp] theorem State.alarmFired_sensing (s : State) (d : Nat) : (State.alarmFired s d).sensing = s.sensing := by
  simp only [State.alarmFired.eq_def, ↓State.timeEvent_sensing, ↓State.setFld_sensing, ↓ite_sensing, ite_self]

@[simp] theorem State.lanesTick_sensing (s : State) : (State.lanesTick s).sensing = s.sensing := by
  rw [State.lanesTick.eq_def] <;> (try simp only [↓State.laneAsk_sensing, ↓foldl_sensing, ↓ite_sensing, ↓dite_sensing,
      ↓reduceIte, ite_self, implies_true,
      ↓State.sensing_keep]) <;> repeat' ((first | split | (rw [foldl_sensing]; intro s x)) <;> try simp only [↓State.laneAsk_sensing,
      ↓foldl_sensing, ↓ite_sensing, ↓dite_sensing, ↓reduceIte, ite_self, implies_true, ↓State.sensing_keep])

@[simp] theorem State.setArb_sensing (s : State) (net : Bool) (n : Nat) (a : Arb) :
    (State.setArb s net n a).sensing = s.sensing := by
  simp only [State.setArb.eq_def, ↓State.sensing_keep]

@[simp] theorem State.deviation_sensing (s : State) (n : Nat) (count : Fld) : (State.deviation s n count).sensing = s.sensing := by
  simp only [State.deviation.eq_def, ↓State.kalEvent_sensing, ↓State.bump_sensing]

@[simp] theorem State.countPairFault_sensing (s : State) (cause : Nat) : (State.countPairFault s cause).sensing = s.sensing := by
  rw [State.countPairFault.eq_def]
  repeat' split
  all_goals simp only [↓State.bump_sensing]

theorem execBarDelaySet_sensing (rq : Rq) (bar : Nat) (delay : Nat) (s : State) :
    ∃ t, (execBarDelaySet rq bar delay s) = .next t ∧ t.sensing = s.sensing := by
  exact ⟨_, rfl, by simp only [↓State.run_sensing, ↓State.withParams_sensing, ↓State.finish_sensing, ↓State.setFld_sensing,
    implies_true]⟩

@[simp] theorem State.trimStep_sensing (s : State) (f : Finding) (x : Nat) : (State.trimStep s f x).sensing = s.sensing := by
  simp only [State.trimStep.eq_def, ↓State.gather_sensing, ↓State.setNoz1_sensing, ↓ite_sensing, ite_self]

@[simp] theorem State.nozConf_sensing (s : State) (b : Nat) (x : Nat) (conf : Nat) :
    (State.nozConf s b x conf).sensing = s.sensing := by
  simp only [State.nozConf.eq_def, ↓State.setNoz1_sensing]

@[simp] theorem State.nozWithhold_sensing (s : State) (f : Finding) (x : Nat) : (State.nozWithhold s f x).sensing = s.sensing := by
  simp only [State.nozWithhold.eq_def, ↓State.bump_sensing, ↓State.setNoz1_sensing, ↓State.setFld_sensing,
    ↓State.nozEvent_sensing, ↓State.nozRecord_sensing, ↓State.gather_sensing, ↓ite_sensing, ite_self]

@[simp] theorem State.nozTo_sensing (s : State) (f : Finding) (x : Nat) (state : Nat) (conf : Nat) :
    (State.nozTo s f x state conf).sensing = s.sensing := by
  simp only [State.nozTo.eq_def, ↓State.nozWithhold_sensing, ↓State.nozEnter_sensing, ↓ite_sensing, ite_self]

@[simp] theorem State.imageMiss_sensing (s : State) (f : Finding) (x : Nat) : (State.imageMiss s f x).sensing = s.sensing := by
  rw [State.imageMiss.eq_def] <;> (try simp only [↓State.bump_sensing, ↓State.trimStep_sensing, ↓State.nozConf_sensing,
      ↓State.nozTo_sensing, ↓foldl_sensing, ↓ite_sensing, ↓dite_sensing, ↓reduceIte, ite_self, implies_true,
      ↓State.sensing_keep]) <;> repeat' ((first | split | (rw [foldl_sensing]; intro s x)) <;> try simp only [↓State.bump_sensing,
      ↓State.trimStep_sensing, ↓State.nozConf_sensing, ↓State.nozTo_sensing, ↓foldl_sensing, ↓ite_sensing, ↓dite_sensing, ↓reduceIte,
      ite_self, implies_true, ↓State.sensing_keep])

theorem execSpareTakeover_sensing (engine : Nat) (cause : Nat) (blank : Bool) (s : State) :
    ∃ t, (execSpareTakeover engine cause blank s) = .next t ∧ t.sensing = s.sensing := by
  exact ⟨_, rfl, by simp only [↓State.bump_sensing, ↓State.locksOfBreak_sensing, ↓State.spareTakes_sensing,
    ↓State.spareExhausted_sensing, ↓ite_sensing, ite_self, ↓State.sensing_keep]⟩

@[simp] theorem State.descDone_sensing (s : State) (ch : Nat) (d : List Byte) : (State.descDone s ch d).sensing = s.sensing := by
  simp only [State.descDone.eq_def, ↓State.setFld_sensing, ↓State.setDmaCh_sensing, ↓State.endChain_sensing,
    ↓State.dmaDone_sensing, ↓ite_sensing, ite_self]

@[simp] theorem State.setInc_sensing (s : State) (d : Nat) (inc : Nat) : (State.setInc s d inc).sensing = s.sensing := by
  simp only [State.setInc.eq_def, ↓State.setFld_sensing]

@[simp] theorem State.sourceHeard_sensing (s : State) (d : Nat) : (State.sourceHeard s d).sensing = s.sensing := by
  simp only [State.sourceHeard.eq_def, ↓State.hostLocked_sensing, ↓State.setFld_sensing, ↓ite_sensing, ite_self]

theorem execSpdrqWord_sensing (s : State) : ∃ t, (execSpdrqWord s) = .next t ∧ t.sensing = s.sensing := by
  exact ⟨_, rfl, by simp only [↓State.emit_sensing, ↓ite_sensing, ite_self, ↓State.sensing_keep]⟩

@[simp] theorem State.readCanaries_sensing (s : State) (speeds : List Nat) :
    (State.readCanaries s speeds).sensing = s.sensing := by
  simp only [State.readCanaries.eq_def, ↓State.setFld_sensing, ↓State.setFlag_sensing, ↓State.raiseIf_sensing,
    ↓State.log1_sensing, ↓foldl_sensing, ↓ite_sensing, ite_self, implies_true]

@[simp] theorem State.showRamp_sensing (s : State) : (State.showRamp s).sensing = s.sensing := by
  simp only [State.showRamp.eq_def, ↓State.setFlag_sensing]

@[simp] theorem State.mendC5_sensing (s : State) : (State.mendC5 s).sensing = s.sensing := by
  simp only [State.mendC5.eq_def, ↓State.mend_sensing, ↓ite_sensing, ite_self]

@[simp] theorem State.measure_sensing (s : State) (m : PaceMeas) : (State.measure s m).sensing = s.sensing := by
  simp only [State.measure.eq_def, ↓State.setFld_sensing, ↓State.setFldI_sensing, ↓State.showRamp_sensing,
    ↓State.mendC5_sensing, ↓State.sensing_keep]

@[simp] theorem State.fitWatch_sensing (s : State) (mode : Nat) : (State.fitWatch s mode).sensing = s.sensing := by
  simp only [State.fitWatch.eq_def, ↓State.setFld_sensing, ↓State.raiseIf_sensing, ↓ite_sensing, ite_self]

theorem execPaceInterval_sensing (meas : PaceMeas) (s : State) :
    ∃ t, (execPaceInterval meas s) = .next t ∧ t.sensing = s.sensing := by
  exact ⟨_, rfl, by simp only [↓State.readCanaries_sensing, ↓State.measure_sensing, ↓State.fitWatch_sensing,
    ↓State.setFld_sensing, ↓State.setFlag_sensing, ↓State.showRamp_sensing, ↓State.raiseIf_sensing, ↓ite_sensing, ite_self]⟩

theorem execBoardEnableWrite_sensing (board : Nat) (enable : Bool) (s : State) :
    ∃ t, (execBoardEnableWrite board enable s) = .next t ∧ t.sensing = s.sensing := by
  exact ⟨_, rfl, by simp only [↓State.orLater_sensing, ↓State.boardEnable_sensing, ↓ite_sensing, ite_self, implies_true]⟩

theorem execModLimitWrite_sensing (limit : Nat) (s : State) :
    ∃ t, (execModLimitWrite limit s) = .next t ∧ t.sensing = s.sensing := by
  exact ⟨_, rfl, by simp only [↓State.setFld_sensing, ↓ite_sensing, ite_self]⟩

@[simp] theorem State.imageHit_sensing (s : State) (f : Finding) (x : Nat) : (State.imageHit s f x).sensing = s.sensing := by
  rw [State.imageHit.eq_def] <;> (try simp only [↓State.bump_sensing, ↓State.nozTo_sensing, ↓State.nozConf_sensing,
      ↓foldl_sensing, ↓ite_sensing, ↓dite_sensing, ↓reduceIte, ite_self, implies_true,
      ↓State.sensing_keep]) <;> repeat' ((first | split | (rw [foldl_sensing]; intro s x)) <;> try simp only [↓State.bump_sensing,
      ↓State.nozTo_sensing, ↓State.nozConf_sensing, ↓foldl_sensing, ↓ite_sensing, ↓dite_sensing, ↓reduceIte, ite_self,
      implies_true, ↓State.sensing_keep])

@[simp] theorem State.imageBand_sensing (s : State) (f : Finding) (x : Nat) : (State.imageBand s f x).sensing = s.sensing := by
  simp only [State.imageBand.eq_def, ↓State.bump_sensing, ↓ite_sensing, ite_self]

@[simp] theorem State.imageFinding_sensing (s : State) (f : Finding) : (State.imageFinding s f).sensing = s.sensing := by
  rw [State.imageFinding.eq_def]
  repeat' split
  all_goals simp only [↓State.imageHit_sensing, ↓State.imageMiss_sensing, ↓State.imageBand_sensing, ↓foldl_sensing, ↓ite_sensing,
    ite_self, implies_true]

@[simp] theorem State.reassigned_sensing (s : State) (old : List Nat) : (State.reassigned s old).sensing = s.sensing := by
  simp only [State.reassigned.eq_def, ↓State.showGated_sensing, ↓State.sensing_keep]

@[simp] theorem State.afterConfig_sensing (s : State) (reset : Bool) : (State.afterConfig s reset).sensing = s.sensing := by
  simp only [State.afterConfig.eq_def, ↓State.enter_sensing, ↓ite_sensing, ite_self]

@[simp] theorem State.refuseTask_sensing (s : State) (k : Nat) : (State.refuseTask s k).sensing = s.sensing := by
  simp only [State.refuseTask.eq_def, ↓State.endTask_sensing, ↓State.setCons_sensing]

@[simp] theorem State.shiftSheets_sensing (s : State) (d : Int) : (State.shiftSheets s d).sensing = s.sensing := by
  simp only [State.shiftSheets.eq_def, ↓State.setBar_sensing, ↓foldl_sensing, ↓ite_sensing, ite_self, implies_true]

@[simp] theorem State.setOffset_sensing (s : State) (o : Int) : (State.setOffset s o).sensing = s.sensing := by
  simp only [State.setOffset.eq_def, ↓State.sensing_keep]

@[simp] theorem State.pcieReport_sensing (s : State) (kind : Nat) : (State.pcieReport s kind).sensing = s.sensing := by
  rw [State.pcieReport.eq_def]
  repeat' split
  all_goals simp only [↓State.emit_sensing, ↓State.bump_sensing, ↓State.setFld_sensing, ↓State.setReg_sensing, ↓foldl_sensing,
    ↓ite_sensing, ite_self, implies_true, ↓State.sensing_keep]

@[simp] theorem State.busAgain_sensing (s : State) (batch : List Nat) : (State.busAgain s batch).sensing = s.sensing := by
  rw [State.busAgain.eq_def] <;> (try simp only [↓State.endChain_sensing, ↓foldl_sensing, ↓ite_sensing, ↓dite_sensing,
      ↓reduceIte, ite_self, implies_true,
      ↓State.sensing_keep]) <;> repeat' ((first | split | (rw [foldl_sensing]; intro s x)) <;> try simp only [↓State.endChain_sensing,
      ↓foldl_sensing, ↓ite_sensing, ↓dite_sensing, ↓reduceIte, ite_self, implies_true, ↓State.sensing_keep])

@[simp] theorem State.ownFault_sensing (s : State) (ch : Nat) : (State.ownFault s ch).sensing = s.sensing := by
  simp only [State.ownFault.eq_def, ↓State.endChain_sensing]

@[simp] theorem State.busHalt_sensing (s : State) (batch : List Nat) : (State.busHalt s batch).sensing = s.sensing := by
  simp only [State.busHalt.eq_def, ↓State.ownFault_sensing, ↓State.stopChain_sensing, ↓foldl_sensing, ↓ite_sensing, ite_self,
    implies_true]

@[simp] theorem State.busError_sensing (s : State) (kind : Nat) (addr : Nat) (batch : List Nat) :
    (State.busError s kind addr batch).sensing = s.sensing := by
  simp only [State.busError.eq_def, ↓State.pcieReport_sensing, ↓State.bump_sensing, ↓State.busAgain_sensing,
    ↓State.haltDone_sensing, ↓State.busHalt_sensing, ↓ite_sensing, ite_self, ↓State.sensing_keep]

theorem execPcieCompletionTimeout_sensing (addr : Nat) (batch : List Nat) (s : State) :
    ∃ t, (execPcieCompletionTimeout addr batch s) = .next t ∧ t.sensing = s.sensing := by
  exact ⟨_, rfl, by simp only [↓State.busError_sensing]⟩

@[simp] theorem State.countCause_sensing (s : State) (cause : Nat) (n : Nat) :
    (State.countCause s cause n).sensing = s.sensing := by
  rw [State.countCause.eq_def]
  repeat' split
  all_goals simp only [↓State.bump_sensing]

@[simp] theorem State.reportEngine_sensing (s : State) (e : Nat) : (State.reportEngine s e).sensing = s.sensing := by
  simp only [State.reportEngine.eq_def, ↓ite_sensing, ite_self, ↓State.sensing_keep]

@[simp] theorem State.checked_sensing (s : State) (b : Nat) (c : CheckRun) : (State.checked s b c).sensing = s.sensing := by
  rw [State.checked.eq_def]
  repeat' split
  all_goals simp only [↓State.log1_sensing, ↓State.bump_sensing, ↓State.countCause_sensing, ↓State.reportEngine_sensing,
    ↓ite_sensing, ite_self]

@[simp] theorem State.sendSchedule_sensing (s : State) (k : Nat) (flags : Nat) (frame : Nat) (g : Nat) (gen : Nat)
    (due : Int) :
    (State.sendSchedule s k flags frame g gen due).sensing = s.sensing := by
  simp only [State.sendSchedule.eq_def, ↓State.boardSend_sensing]

@[simp] theorem State.sendLine_sensing (s : State) (k : Nat) (flags : Nat) (frame : Nat) (crc : Nat) (p : List Byte) :
    (State.sendLine s k flags frame crc p).sensing = s.sensing := by
  simp only [State.sendLine.eq_def, ↓State.headSend_sensing, ↓ite_sensing, ite_self]

@[simp] theorem State.gateFire_sensing (s : State) (board : Nat) (b : Nat) (pos : Nat) (check : CheckRun) :
    (State.gateFire s board b pos check).sensing = s.sensing := by
  simp only [State.gateFire.eq_def, ↓State.draw_sensing, ↓State.checked_sensing, ↓State.sendSchedule_sensing,
    ↓State.setCredits_sensing, ↓State.sendLine_sensing, ↓State.emit_sensing, ↓State.setBoard_sensing, ↓ite_sensing, ite_self]

@[simp] theorem State.gateRecord_sensing (s : State) (g : GateTest) (cls : Nat) (b : Nat) (x : Nat) (pos : Nat) (p
    : Option Pulse) :
    (State.gateRecord s g cls b x pos p).sensing = s.sensing := by
  simp only [State.gateRecord.eq_def, ↓State.addRecord_sensing]

@[simp] theorem State.pushFinding_sensing (s : State) (f : Finding) : (State.pushFinding s f).sensing = s.sensing := by
  simp only [State.pushFinding.eq_def, ↓State.setFld_sensing, ↓State.sensing_keep]

@[simp] theorem State.vacate_sensing (s : State) (sess : Nat) (tag : Nat) : (State.vacate s sess tag).sensing = s.sensing := by
  simp only [State.vacate.eq_def, ↓State.lift_sensing, ↓State.sensing_keep]

@[simp] theorem State.gateEnd_sensing (s : State) : (State.gateEnd s).sensing = s.sensing := by
  rw [State.gateEnd.eq_def]
  repeat' split
  all_goals simp only [↓State.setFld_sensing, ↓State.vacate_sensing, ↓State.finishSlot_sensing, ↓State.sensing_keep]

theorem execGateShot_sensing (gate : Nat) (baseline : List Nat) (samples : List Nat) (check : CheckRun) (s : State) :
    ∃ t, (execGateShot gate baseline samples check s) = .next t ∧ t.sensing = s.sensing := by
  rw [execGateShot.eq_def]
  refine ⟨_, rfl, ?_⟩
  repeat' split
  all_goals simp only [↓State.gateFire_sensing, ↓State.setFld_sensing, ↓State.gateRecord_sensing, ↓State.pushFinding_sensing,
    ↓State.gateEnd_sensing, ↓ite_sensing, ite_self, ↓State.sensing_keep]

@[simp] theorem State.energyBlank_sensing (s : State) (k : Nat) (p : List Byte) :
    (State.energyBlank s k p).sensing = s.sensing := by
  rw [State.energyBlank.eq_def]
  repeat' split
  all_goals simp only [↓State.setFld_sensing, ↓State.sensing_keep]

theorem execLoopSwapStage_sensing (bar : Nat) (s : State) : ∃ t, (execLoopSwapStage bar s) = .next t ∧ t.sensing = s.sensing := by
  exact ⟨_, rfl, by simp only [↓State.setLoopBar_sensing, ↓State.setFld_sensing, ↓State.nozEvent_sensing,
    ↓State.swapRequest_sensing, ↓State.setPend_sensing, ↓ite_sensing, ite_self]⟩

@[simp] theorem State.giveUp_sensing (s : State) : (State.giveUp s).sensing = s.sensing := by
  simp only [State.giveUp.eq_def, ↓State.settle_sensing, ↓State.setBoard_sensing, ↓foldl_sensing, implies_true]

@[simp] theorem State.endLine_sensing (s : State) (b : Nat) (e : Entry) : (State.endLine s b e).sensing = s.sensing := by
  simp only [State.endLine.eq_def, ↓State.setBar_sensing, ↓State.raiseIf_sensing, ↓State.setFld_sensing, ↓State.bump_sensing,
    ↓State.releasePages_sensing, ↓ite_sensing, ite_self]

@[simp] theorem State.takeReply_sensing (s : State) (src : Nat) (sess : Nat) (b : List Byte) :
    (State.takeReply s src sess b).sensing = s.sensing := by
  rw [State.takeReply.eq_def] <;> (try simp only [↓State.setInFlight_sensing, ↓State.sendDatagram_sensing,
      ↓State.complete_sensing, ↓foldl_sensing, ↓ite_sensing, ↓dite_sensing, ↓reduceIte, ite_self, implies_true,
      ↓State.sensing_keep]) <;> repeat' ((first | split | (rw [foldl_sensing]; intro s x)) <;> try simp only [↓State.setInFlight_sensing,
      ↓State.sendDatagram_sensing, ↓State.complete_sensing, ↓foldl_sensing, ↓ite_sensing, ↓dite_sensing, ↓reduceIte, ite_self,
      implies_true, ↓State.sensing_keep])

@[simp] theorem State.chainBad_sensing (s : State) (west : Bool) : (State.chainBad s west).sensing = s.sensing := by
  simp only [State.chainBad.eq_def, ↓State.setLink_sensing]

@[simp] theorem State.refuseLink_sensing (s : State) (west : Bool) : (State.refuseLink s west).sensing = s.sensing := by
  simp only [State.refuseLink.eq_def, ↓State.setLink_sensing, ↓State.breach_sensing, ↓ite_sensing, ite_self,
    ↓State.sensing_keep]

@[simp] theorem State.chainReturn_sensing (s : State) (west : Bool) : (State.chainReturn s west).sensing = s.sensing := by
  simp only [State.chainReturn.eq_def, ↓State.chainSend_sensing]

@[simp] theorem State.chainTake_sensing (s : State) (west : Bool) (type : Nat) (b : List Byte) (body : ChainPkt →
    State → State) (hbody : ∀ y0 y1, (body y0 y1).sensing = y1.sensing) :
    (State.chainTake s west type b body).sensing = s.sensing := by
  rw [State.chainTake.eq_def]
  repeat' split
  all_goals simp only [↓State.chainBad_sensing, ↓State.refuseLink_sensing, ↓State.chainReturn_sensing, hbody]

theorem execToneCurveLoad_sensing (rq : Rq) (chunk : Chunk) (s : State) :
    ∃ t, (execToneCurveLoad rq chunk s) = .next t ∧ t.sensing = s.sensing := by
  rw [execToneCurveLoad.eq_def]
  repeat' split
  all_goals refine ⟨_, rfl, ?_⟩
  all_goals (try simp only [↓State.run_sensing, ↓State.loadTable_sensing, ↓State.setPend_sensing, ↓State.reject_sensing,
      ↓State.finish_sensing, ↓State.stageBank_sensing, ↓foldl_sensing, ↓ite_sensing, ↓dite_sensing, ↓reduceIte, ite_self,
      implies_true, ↓State.sensing_keep])
  all_goals repeat' ((first | (rw [State.loadTable_sensing] <;> [(intro s); (intro t rep s)]) | (rw [State.run_sensing]; intro s) | split | (rw [foldl_sensing]; intro s x)) <;> try simp only [↓State.run_sensing,
      ↓State.loadTable_sensing, ↓State.setPend_sensing, ↓State.reject_sensing, ↓State.finish_sensing, ↓State.stageBank_sensing,
      ↓foldl_sensing, ↓ite_sensing, ↓dite_sensing, ↓reduceIte, ite_self, implies_true, ↓State.sensing_keep])

theorem execSelfRefreshEntry_sensing (ch : Nat) (s : State) :
    ∃ t, (execSelfRefreshEntry ch s) = .next t ∧ t.sensing = s.sensing := by
  exact ⟨_, rfl, by simp only [↓State.setFld_sensing, ↓State.closeRows_sensing, ↓ite_sensing, ite_self]⟩

theorem execFaultedPairTestDone_sensing (pass : Bool) (s : State) :
    ∃ t, (execFaultedPairTestDone pass s) = .next t ∧ t.sensing = s.sensing := by
  exact ⟨_, rfl, by simp only [↓State.bump_sensing, ↓State.setFld_sensing, ↓ite_sensing, ite_self, ↓State.sensing_keep]⟩

@[simp] theorem State.softLimited_sensing (s : State) (a : Nat) : (State.softLimited s a).sensing = s.sensing := by
  simp only [State.softLimited.eq_def, ↓State.axEvent_sensing, ↓State.setFld_sensing]

theorem execHelloReply_sensing (board : Nat) (bytes : List Byte) (s : State) :
    ∃ t, (execHelloReply board bytes s) = .next t ∧ t.sensing = s.sensing := by
  rw [execHelloReply.eq_def]
  refine ⟨_, rfl, ?_⟩
  repeat' split
  all_goals simp only [↓State.setFlag_sensing, ↓State.setCredits_sensing, ↓State.setBst_sensing, ↓State.setBoard_sensing,
    ↓ite_sensing, ite_self]

@[simp] theorem State.echoRail_sensing (s : State) (k : Nat) (rail : Nat) : (State.echoRail s k rail).sensing = s.sensing := by
  simp only [State.echoRail.eq_def, ↓State.setFld_sensing, ↓State.setBoard_sensing, ↓State.latchBoard_sensing, ↓ite_sensing,
    ite_self]

theorem execDelayReq_sensing (west : Bool) (bytes : List Byte) (s : State) :
    ∃ t, (execDelayReq west bytes s) = .next t ∧ t.sensing = s.sensing := by
  exact ⟨_, rfl, by simp only [↓State.chainTake_sensing, ↓State.chainSendOn_sensing, implies_true]⟩

@[simp] theorem State.consume_sensing (s : State) (r : Nat) (n : Nat) : (State.consume s r n).sensing = s.sensing := by
  simp only [State.consume.eq_def, ↓State.setRing_sensing]

@[simp] theorem State.occupy_sensing (s : State) (rq : Rq) (dom : Domain) : (State.occupy s rq dom).sensing = s.sensing := by
  simp only [State.occupy.eq_def, ↓State.sensing_keep]

theorem execDbFetch_sensing (ring : Nat) (value : Nat) (s : State) :
    ∃ t, (execDbFetch ring value s) = .next t ∧ t.sensing = s.sensing := by
  exact ⟨_, rfl, by simp only [↓State.fetch_sensing, ↓ite_sensing, ite_self]⟩

@[simp] theorem State.hostData_sensing (s : State) (h : Nat) (a : Nat) (n : Nat) :
    (State.hostData s h a n).sensing = s.sensing := by
  simp only [State.hostData.eq_def, ↓State.bump_sensing, ↓State.emit_sensing, ↓foldl_sensing, ↓ite_sensing, ite_self,
    implies_true]

@[simp] theorem State.countForced_sensing (s : State) (arb : Nat) : (State.countForced s arb).sensing = s.sensing := by
  simp only [State.countForced.eq_def, ↓State.bump_sensing, ↓ite_sensing, ite_self]

theorem execPositionTimeout_sensing (s : State) : ∃ t, (execPositionTimeout s) = .next t ∧ t.sensing = s.sensing := by
  exact ⟨_, rfl, by simp only [↓ite_sensing, ite_self, ↓State.sensing_keep]⟩

@[simp] theorem State.voidSlot_sensing (s : State) : (State.voidSlot s).sensing = s.sensing := by
  simp only [State.voidSlot.eq_def, ↓State.setFld_sensing]

@[simp] theorem State.swapDue_sensing (s : State) (b : Nat) : (State.swapDue s b).sensing = s.sensing := by
  simp only [State.swapDue.eq_def, ↓State.swapBar_sensing, ↓ite_sensing, ite_self]

@[simp] theorem State.waitAt_sensing (s : State) (shown : Fld) (count : Fld) :
    (State.waitAt s shown count).sensing = s.sensing := by
  simp only [State.waitAt.eq_def, ↓State.bump_sensing, ↓State.setFld_sensing, ↓ite_sensing, ite_self]

@[simp] theorem State.runSlice_sensing (s : State) (b : Nat) (e : Entry) (page : Page) (check : CheckRun) :
    (State.runSlice s b e page check).sensing = s.sensing := by
  simp only [State.runSlice.eq_def, ↓State.setBar_sensing, ↓State.checked_sensing, ↓State.setFld_sensing,
    ↓State.endLine_sensing, ↓ite_sensing, ite_self]

@[simp] theorem State.failFlight_sensing (s : State) (n : Nat) (f : Forwarded) : (State.failFlight s n f).sensing = s.sensing := by
  rw [State.failFlight.eq_def]
  repeat' split
  all_goals simp only [↓State.sendDatagram_sensing, ↓State.finishSlot_sensing]

@[simp] theorem State.failFlights_sensing (s : State) (n : Nat) (gone : Forwarded → Bool) :
    (State.failFlights s n gone).sensing = s.sensing := by
  simp only [State.failFlights.eq_def, ↓State.setInFlight_sensing, ↓State.failFlight_sensing, ↓foldl_sensing, implies_true]

theorem execChainLinkLoss_sensing (west : Bool) (s : State) :
    ∃ t, (execChainLinkLoss west s) = .next t ∧ t.sensing = s.sensing := by
  exact ⟨_, rfl, by simp only [↓State.log1_sensing, ↓State.setLink_sensing, ↓State.sendLeader_sensing,
    ↓State.failFlights_sensing, ↓ite_sensing, ite_self, ↓State.sensing_keep]⟩

theorem execPause_sensing (rq : Rq) (s : State) : ∃ t, (execPause rq s) = .next t ∧ t.sensing = s.sensing := by
  exact ⟨_, rfl, by simp only [↓State.run_sensing, ↓State.withParams_sensing, ↓State.finish_sensing, ↓State.pause_sensing,
    implies_true]⟩

theorem execTakeoverRecalDone_sensing (group : Nat) (ok : Bool) (s : State) :
    ∃ t, (execTakeoverRecalDone group ok s) = .next t ∧ t.sensing = s.sensing := by
  exact ⟨_, rfl, by simp only [↓State.setFld_sensing, ↓State.setLaneGrp_sensing, ↓State.raiseIf_sensing, ↓State.log1_sensing,
    ↓ite_sensing, ite_self]⟩

theorem execChainCredit_sensing (west : Bool) (bytes : List Byte) (s : State) :
    ∃ t, (execChainCredit west bytes s) = .next t ∧ t.sensing = s.sensing := by
  exact ⟨_, rfl, by simp only [↓State.chainTake_sensing, ↓State.chainDrain_sensing, ↓State.setLink_sensing, implies_true]⟩

theorem execPageRepeat_sensing (rq : Rq) (handle : Nat) (count : Nat) (s : State) :
    ∃ t, (execPageRepeat rq handle count s) = .next t ∧ t.sensing = s.sensing := by
  exact ⟨_, rfl, by simp only [↓State.run_sensing, ↓State.withParams_sensing, ↓State.finish_sensing, ↓ite_sensing, ite_self,
    implies_true, ↓State.sensing_keep]⟩

@[simp] theorem State.calibrating_sensing (s : State) (c : Nat) (t : Nat) : (State.calibrating s c t).sensing = s.sensing := by
  simp only [State.calibrating.eq_def, ↓State.sensing_keep]

@[simp] theorem State.islandOverrun_sensing (s : State) (block : Nat) (inst : Nat) :
    (State.islandOverrun s block inst).sensing = s.sensing := by
  simp only [State.islandOverrun.eq_def, ↓State.breach_sensing, ↓State.breachOnce_sensing, ↓ite_sensing, ite_self]

@[simp] theorem State.showCapFill_sensing (s : State) (n : Nat) : (State.showCapFill s n).sensing = s.sensing := by
  simp only [State.showCapFill.eq_def, ↓State.setFld_sensing]

theorem execSubstituteSet_sensing (rq : Rq) (chunk : Chunk) (s : State) :
    ∃ t, (execSubstituteSet rq chunk s) = .next t ∧ t.sensing = s.sensing := by
  rw [execSubstituteSet.eq_def]
  repeat' split
  all_goals refine ⟨_, rfl, ?_⟩
  all_goals (try simp only [↓State.run_sensing, ↓State.loadTable_sensing, ↓State.setPend_sensing, ↓State.reject_sensing,
      ↓State.finish_sensing, ↓State.holdBase_sensing, ↓State.setLoopBar_sensing, ↓State.stageBank_sensing, ↓foldl_sensing,
      ↓ite_sensing, ↓dite_sensing, ↓reduceIte, ite_self, implies_true, ↓State.sensing_keep])
  all_goals repeat' ((first | (rw [State.loadTable_sensing] <;> [(intro s); (intro t rep s)]) | (rw [State.run_sensing]; intro s) | split | (rw [foldl_sensing]; intro s x)) <;> try simp only [↓State.run_sensing,
      ↓State.loadTable_sensing, ↓State.setPend_sensing, ↓State.reject_sensing, ↓State.finish_sensing, ↓State.holdBase_sensing,
      ↓State.setLoopBar_sensing, ↓State.stageBank_sensing, ↓foldl_sensing, ↓ite_sensing, ↓dite_sensing, ↓reduceIte, ite_self,
      implies_true, ↓State.sensing_keep])

theorem execCompressStreamStart_sensing (unit : Nat) (s : State) :
    ∃ t, (execCompressStreamStart unit s) = .next t ∧ t.sensing = s.sensing := by
  rw [execCompressStreamStart.eq_def]
  refine ⟨_, rfl, ?_⟩
  repeat' split
  all_goals simp only [↓State.setFld_sensing, ↓State.sensing_keep]

theorem execLaneLockLoss_sensing (lane : Nat) (words : List (BitVec 66)) (s : State) :
    ∃ t, (execLaneLockLoss lane words s) = .next t ∧ t.sensing = s.sensing := by
  exact ⟨_, rfl, by simp only [↓State.bump_sensing, ↓State.setLane_sensing, ↓State.log1_sensing, ↓State.laneLose_sensing,
    ↓ite_sensing, ite_self]⟩

@[simp] theorem State.chainRelay_sensing (s : State) (west : Bool) (b : List Byte) (body : List Byte) :
    (State.chainRelay s west b body).sensing = s.sensing := by
  simp only [State.chainRelay.eq_def, ↓State.chainBad_sensing, ↓State.chainSendOn_sensing, ↓ite_sensing, ite_self]

@[simp] theorem State.chainSpread_sensing (s : State) (west : Bool) (b : List Byte) (p : ChainPkt) (local_ : State
    → State) (hlocal_ : ∀ y0, (local_ y0).sensing = y0.sensing) :
    (State.chainSpread s west b p local_).sensing = s.sensing := by
  simp only [State.chainSpread.eq_def, ↓State.chainRelay_sensing, ↓ite_sensing, ite_self, hlocal_]

@[simp] theorem State.credited_sensing (s : State) (r : Nat) : (State.credited s r).sensing = s.sensing := by
  simp only [State.credited.eq_def, ↓State.setStall_sensing, ↓State.drainReplies_sensing, ↓State.mendC1_sensing,
    ↓State.setRing_sensing, ↓ite_sensing, ite_self]

theorem execDbRpl_sensing (ring : Nat) (idx : Nat) (s : State) :
    ∃ t, (execDbRpl ring idx s) = .next t ∧ t.sensing = s.sensing := by
  exact ⟨_, rfl, by simp only [↓State.cmdErr_sensing, ↓State.credited_sensing, ↓State.setRing_sensing, ↓ite_sensing, ite_self]⟩

theorem execCmdRingEnableWrite_sensing (ring : Nat) (enable : Bool) (s : State) :
    ∃ t, (execCmdRingEnableWrite ring enable s) = .next t ∧ t.sensing = s.sensing := by
  exact ⟨_, rfl, by simp only [↓State.ringEnabled_sensing, ↓State.setFlag_sensing, ↓ite_sensing, ite_self]⟩

theorem execNop_sensing (rq : Rq) (s : State) : ∃ t, (execNop rq s) = .next t ∧ t.sensing = s.sensing := by
  exact ⟨_, rfl, by simp only [↓State.run_sensing, ↓State.finish_sensing, implies_true]⟩

@[simp] theorem State.setCount_sensing (s : State) (id : Nat) (n : Nat) : (State.setCount s id n).sensing = s.sensing := by
  simp only [State.setCount.eq_def, ↓State.sensing_keep]

theorem execKpsPageHeader_sensing (ch : Nat) (bytes : List Byte) (s : State) :
    ∃ t, (execKpsPageHeader ch bytes s) = .next t ∧ t.sensing = s.sensing := by
  rw [execKpsPageHeader.eq_def]
  repeat' split
  all_goals refine ⟨_, rfl, ?_⟩
  all_goals (try simp only [↓State.failPage_sensing, ↓State.stopPage_sensing, ↓State.setCount_sensing, ↓State.setPage_sensing,
      ↓State.shortPage_sensing, ↓foldl_sensing, ↓ite_sensing, ↓dite_sensing, ↓reduceIte, ite_self, implies_true,
      ↓State.sensing_keep])
  all_goals repeat' ((first | split | (rw [foldl_sensing]; intro s x)) <;> try simp only [↓State.failPage_sensing,
      ↓State.stopPage_sensing, ↓State.setCount_sensing, ↓State.setPage_sensing, ↓State.shortPage_sensing, ↓foldl_sensing,
      ↓ite_sensing, ↓dite_sensing, ↓reduceIte, ite_self, implies_true, ↓State.sensing_keep])

@[simp] theorem State.safeLine_sensing (s : State) (k : Nat) (cause : Nat) : (State.safeLine s k cause).sensing = s.sensing := by
  rw [State.safeLine.eq_def]
  repeat' split
  all_goals simp only [↓State.bump_sensing, ↓State.fireEvent_sensing, ↓State.setFld_sensing]

theorem execEngineUndoze_sensing (engine : Nat) (s : State) :
    ∃ t, (execEngineUndoze engine s) = .next t ∧ t.sensing = s.sensing := by
  exact ⟨_, rfl, by simp only [↓State.showGated_sensing, ↓ite_sensing, ite_self, ↓State.sensing_keep]⟩

theorem execPhaseDisable_sensing (phase : Nat) (s : State) :
    ∃ t, (execPhaseDisable phase s) = .next t ∧ t.sensing = s.sensing := by
  exact ⟨_, rfl, by simp only [↓State.phaseFail_sensing]⟩

@[simp] theorem State.takePosition_sensing (s : State) (b : List Byte) : (State.takePosition s b).sensing = s.sensing := by
  simp only [State.takePosition.eq_def, ↓State.webMoved_sensing, ↓State.sensing_keep]

@[simp] theorem State.authFail_sensing (s : State) (slot : Nat) : (State.authFail s slot).sensing = s.sensing := by
  simp only [State.authFail.eq_def, ↓State.bump_sensing, ↓ite_sensing, ite_self, ↓State.sensing_keep]

@[simp] theorem State.ringLost_sensing (s : State) : (State.ringLost s).sensing = s.sensing := by
  simp only [State.ringLost.eq_def, ↓State.jigEvent_sensing, ↓State.bump_sensing]

@[simp] theorem State.gateFinding_sensing (s : State) (f : Finding) : (State.gateFinding s f).sensing = s.sensing := by
  simp only [State.gateFinding.eq_def, ↓State.bump_sensing, ↓State.nozTo_sensing, ↓ite_sensing, ite_self]

@[simp] theorem State.acceptFrom9_sensing (s : State) (forwarded : Bool) (sess : Nat) (b : List Byte) :
    (State.acceptFrom9 s forwarded sess b).sensing = s.sensing := by
  rw [State.acceptFrom9.eq_def] <;> (try simp only [↓State.complete_sensing, ↓State.forward_sensing, ↓State.setSlot_sensing,
      ↓State.enqueue_sensing, ↓foldl_sensing, ↓ite_sensing, ↓dite_sensing, ↓reduceIte, ite_self, implies_true,
      ↓State.sensing_keep]) <;> repeat' ((first | split | (rw [foldl_sensing]; intro s x)) <;> try simp only [↓State.complete_sensing,
      ↓State.forward_sensing, ↓State.setSlot_sensing, ↓State.enqueue_sensing, ↓foldl_sensing, ↓ite_sensing, ↓dite_sensing, ↓reduceIte,
      ite_self, implies_true, ↓State.sensing_keep])

@[simp] theorem State.takeSlot_sensing (s : State) (sess : Nat) (h : Header) : (State.takeSlot s sess h).sensing = s.sensing := by
  simp only [State.takeSlot.eq_def, ↓State.setSession_sensing]

@[simp] theorem State.acceptFrom5_sensing (s : State) (src : PktSrc) (sess : Nat) (b : List Byte) :
    (State.acceptFrom5 s src sess b).sensing = s.sensing := by
  simp only [State.acceptFrom5.eq_def, ↓State.fetch_sensing, ↓State.markDelivered_sensing, ↓State.respond_sensing,
    ↓State.refuse_sensing, ↓State.acceptFrom9_sensing, ↓State.takeSlot_sensing, ↓ite_sensing, ite_self]

@[simp] theorem State.acceptFrom3_sensing (s : State) (src : PktSrc) (b : List Byte) :
    (State.acceptFrom3 s src b).sensing = s.sensing := by
  rw [State.acceptFrom3.eq_def]
  repeat' split
  all_goals simp only [↓State.refuse_sensing, ↓State.acceptFrom5_sensing, ↓State.acceptOpen_sensing, ↓State.setSession_sensing,
    ↓State.bump_sensing, ↓ite_sensing, ite_self]

@[simp] theorem State.acceptFrom1_sensing (s : State) (src : PktSrc) (b : List Byte) :
    (State.acceptFrom1 s src b).sensing = s.sensing := by
  simp only [State.acceptFrom1.eq_def, ↓State.refuse_sensing, ↓State.acceptFrom3_sensing, ↓ite_sensing, ite_self]

@[simp] theorem State.takeFromRing_sensing (s : State) (r : Nat) (b : List Byte) :
    (State.takeFromRing s r b).sensing = s.sensing := by
  simp only [State.takeFromRing.eq_def, ↓State.emit_sensing, ↓State.consume_sensing, ↓State.refuse_sensing,
    ↓State.acceptFrom1_sensing, ↓ite_sensing, ite_self]

@[simp] theorem State.openSession_sensing (s : State) (n : Nat) (k : SessKind) :
    (State.openSession s n k).sensing = s.sensing := by
  simp only [State.openSession.eq_def, ↓State.showOpen_sensing, ↓State.setSession_sensing]

theorem State.forwardedSession_sensing (s : State) (dev sess : Nat) (r : Nat × State)     (h : s.forwardedSession
    dev sess = some r) :
    r.2.sensing = s.sensing := by
  rw [State.forwardedSession] at h
  split at h
  · cases h; rfl
  · obtain ⟨n, -, h⟩ := Option.map_eq_some_iff.mp h
    cases h; exact State.openSession_sensing ..

@[simp] theorem State.startWake_sensing (s : State) (cause : Nat) : (State.startWake s cause).sensing = s.sensing := by
  simp only [State.startWake.eq_def, ↓State.setFld_sensing, ↓ite_sensing, ite_self, ↓State.sensing_keep]

theorem execWakeEvent_sensing (s : State) : ∃ t, (execWakeEvent s) = .next t ∧ t.sensing = s.sensing := by
  exact ⟨_, rfl, by simp only [↓State.startWake_sensing, ↓State.endTask_sensing, ↓ite_sensing, ite_self]⟩

@[simp] theorem State.calibrate_sensing (s : State) (ch : Nat) (steps : Nat) (ticks : Nat) :
    (State.calibrate s ch steps ticks).sensing = s.sensing := by
  simp only [State.calibrate.eq_def, ↓State.calibrating_sensing, ↓State.interrupt_sensing, ↓ite_sensing, ite_self,
    ↓State.sensing_keep]

theorem execRetraining_sensing (ch : Nat) (s : State) : ∃ t, (execRetraining ch s) = .next t ∧ t.sensing = s.sensing := by
  exact ⟨_, rfl, by simp only [↓State.calibrate_sensing]⟩

theorem execLeader_sensing (west : Bool) (bytes : List Byte) (s : State) :
    ∃ t, (execLeader west bytes s) = .next t ∧ t.sensing = s.sensing := by
  exact ⟨_, rfl, by simp only [↓State.chainTake_sensing, ↓State.chainSpread_sensing, ↓State.chainStatusSet_sensing,
    ↓State.failFlights_sensing, ↓State.log1_sensing, ↓ite_sensing, ite_self, implies_true]⟩

@[simp] theorem State.encDouble_sensing (s : State) (e : Nat) : (State.encDouble s e).sensing = s.sensing := by
  simp only [State.encDouble.eq_def, ↓State.log1_sensing, ↓State.bump_sensing, ↓State.posEvent_sensing, ↓State.setFld_sensing]

theorem execAxisStatus_sensing (rq : Rq) (axis : Nat) (s : State) :
    ∃ t, (execAxisStatus rq axis s) = .next t ∧ t.sensing = s.sensing := by
  exact ⟨_, rfl, by simp only [↓State.run_sensing, ↓State.withParams_sensing, ↓State.finish_sensing, implies_true]⟩

theorem execFwSwitch_sensing (rq : Rq) (s : State) : ∃ t, (execFwSwitch rq s) = .next t ∧ t.sensing = s.sensing := by
  exact ⟨_, rfl, by simp only [↓State.run_sensing, ↓State.withParams_sensing, ↓State.reject_sensing, ↓State.finish_sensing,
    ↓State.setFld_sensing, ↓State.occupy_sensing, ↓State.pend_sensing, ↓ite_sensing, ite_self, implies_true, ↓State.sensing_keep]⟩

theorem execMemInject_sensing (value : Word) (s : State) : ∃ t, (execMemInject value s) = .next t ∧ t.sensing = s.sensing := by
  exact ⟨_, rfl, by simp only [↓State.setReg_sensing, ↓ite_sensing, ite_self]⟩

theorem execPageSubmit_sensing (rq : Rq) (page : Nat) (ch : Nat) (len : Nat) (s : State) :
    ∃ t, (execPageSubmit rq page ch len s) = .next t ∧ t.sensing = s.sensing := by
  rw [execPageSubmit.eq_def]
  repeat' split
  all_goals refine ⟨_, rfl, ?_⟩
  all_goals (try simp only [↓State.run_sensing, ↓State.withParams_sensing, ↓State.pend_sensing, ↓State.pageStart_sensing,
      ↓foldl_sensing, ↓ite_sensing, ↓dite_sensing, ↓reduceIte, ite_self, implies_true, ↓State.sensing_keep])
  all_goals repeat' ((first | (rw [State.withParams_sensing]; intro s) | (rw [State.run_sensing]; intro s) | split | (rw [foldl_sensing]; intro s x)) <;> try simp only [↓State.run_sensing,
      ↓State.withParams_sensing, ↓State.pend_sensing, ↓State.pageStart_sensing, ↓foldl_sensing, ↓ite_sensing, ↓dite_sensing,
      ↓reduceIte, ite_self, implies_true, ↓State.sensing_keep])

@[simp] theorem State.ethSend_sensing (s : State) (p : Nat) (hop : Nat) (ip : Nat) (kind : Nat) :
    (State.ethSend s p hop ip kind).sensing = s.sensing := by
  simp only [State.ethSend.eq_def, ↓State.bump_sensing, ↓State.emit_sensing]

@[simp] theorem State.ethTaken_sensing (s : State) (p : Nat) (f : EthFrame) : (State.ethTaken s p f).sensing = s.sensing := by
  rw [State.ethTaken.eq_def]
  repeat' split
  all_goals simp only [↓State.ethSend_sensing, ↓State.acceptFrom1_sensing, ↓ite_sensing, ite_self]

theorem execThrottleRelease_sensing (ch : Nat) (s : State) :
    ∃ t, (execThrottleRelease ch s) = .next t ∧ t.sensing = s.sensing := by
  rw [execThrottleRelease.eq_def]
  refine ⟨_, rfl, ?_⟩
  repeat' split
  all_goals simp only [↓State.showThrottle_sensing, ↓State.sensing_keep]

theorem execDoseSwap_sensing (bar : Nat) (s : State) : ∃ t, (execDoseSwap bar s) = .next t ∧ t.sensing = s.sensing := by
  exact ⟨_, rfl, by simp only [↓State.swapDue_sensing, ↓ite_sensing, ite_self]⟩

@[simp] theorem State.fillSlot_sensing (s : State) (image : List Byte) : (State.fillSlot s image).sensing = s.sensing := by
  simp only [State.fillSlot.eq_def, ↓State.setFld_sensing, ↓ite_sensing, ite_self, ↓State.sensing_keep]

theorem execFwStage_sensing (rq : Rq) (chunk : Chunk) (s : State) :
    ∃ t, (execFwStage rq chunk s) = .next t ∧ t.sensing = s.sensing := by
  exact ⟨_, rfl, by simp only [↓State.run_sensing, ↓State.finish_sensing, ↓State.loadChunk_sensing, ↓State.voidSlot_sensing,
    ↓State.fillSlot_sensing, ↓State.setFld_sensing, ↓ite_sensing, ite_self, implies_true]⟩

theorem execPositionSend_sensing (s : State) : ∃ t, (execPositionSend s) = .next t ∧ t.sensing = s.sensing := by
  exact ⟨_, rfl, by simp only [↓State.chainAll_sensing, ↓ite_sensing, ite_self, ↓State.sensing_keep]⟩

theorem execThresholdLoad_sensing (rq : Rq) (chunk : Chunk) (s : State) :
    ∃ t, (execThresholdLoad rq chunk s) = .next t ∧ t.sensing = s.sensing := by
  rw [execThresholdLoad.eq_def]
  repeat' split
  all_goals refine ⟨_, rfl, ?_⟩
  all_goals (try simp only [↓State.run_sensing, ↓State.loadTable_sensing, ↓State.setPend_sensing, ↓State.reject_sensing,
      ↓State.finish_sensing, ↓State.stageBank_sensing, ↓foldl_sensing, ↓ite_sensing, ↓dite_sensing, ↓reduceIte, ite_self,
      implies_true, ↓State.sensing_keep])
  all_goals repeat' ((first | (rw [State.loadTable_sensing] <;> [(intro s); (intro t rep s)]) | (rw [State.run_sensing]; intro s) | split | (rw [foldl_sensing]; intro s x)) <;> try simp only [↓State.run_sensing,
      ↓State.loadTable_sensing, ↓State.setPend_sensing, ↓State.reject_sensing, ↓State.finish_sensing, ↓State.stageBank_sensing,
      ↓foldl_sensing, ↓ite_sensing, ↓dite_sensing, ↓reduceIte, ite_self, implies_true, ↓State.sensing_keep])

theorem execEthFrameReceive_sensing (port : Nat) (frame : EthFrame) (s : State) :
    ∃ t, (execEthFrameReceive port frame s) = .next t ∧ t.sensing = s.sensing := by
  exact ⟨_, rfl, by simp only [↓State.bump_sensing, ↓State.islandOverrun_sensing, ↓State.ethTaken_sensing, ↓ite_sensing,
    ite_self]⟩

theorem execJobOpen_sensing (rq : Rq) (job : Nat) (mask : Nat) (s : State) :
    ∃ t, (execJobOpen rq job mask s) = .next t ∧ t.sensing = s.sensing := by
  exact ⟨_, rfl, by simp only [↓State.run_sensing, ↓State.withParams_sensing, ↓State.finish_sensing, ↓State.setFld_sensing,
    ↓ite_sensing, ite_self, implies_true, ↓State.sensing_keep]⟩

theorem execWakePin_sensing (s : State) : ∃ t, (execWakePin s) = .next t ∧ t.sensing = s.sensing := by
  exact ⟨_, rfl, by simp only [↓State.startWake_sensing, ↓ite_sensing, ite_self]⟩

theorem execLaneLock_sensing (lane : Nat) (bits : List Bool) (s : State) :
    ∃ t, (execLaneLock lane bits s) = .next t ∧ t.sensing = s.sensing := by
  rw [execLaneLock.eq_def]
  repeat' split
  all_goals refine ⟨_, rfl, ?_⟩
  all_goals (try simp only [↓State.linkSend_sensing, ↓State.setFld_sensing, ↓State.setLane_sensing, ↓foldl_sensing, ↓ite_sensing,
      ↓dite_sensing, ↓reduceIte, ite_self, implies_true, ↓State.sensing_keep])
  all_goals repeat' ((first | split | (rw [foldl_sensing]; intro s x)) <;> try simp only [↓State.linkSend_sensing,
      ↓State.setFld_sensing, ↓State.setLane_sensing, ↓foldl_sensing, ↓ite_sensing, ↓dite_sensing, ↓reduceIte, ite_self,
      implies_true, ↓State.sensing_keep])

theorem execDmaRun_sensing (ch : Nat) (s : State) : ∃ t, (execDmaRun ch s) = .next t ∧ t.sensing = s.sensing := by
  exact ⟨_, rfl, by simp only [↓State.orLater_sensing, ↓State.chainStart_sensing, ↓ite_sensing, ite_self, implies_true]⟩

theorem execDetRefresh_sensing (ch : Nat) (s : State) : ∃ t, (execDetRefresh ch s) = .next t ∧ t.sensing = s.sensing := by
  exact ⟨_, rfl, by simp only [↓State.interrupt_sensing, ↓State.closeRows_sensing, ↓State.calibrating_sensing, ↓ite_sensing,
    ite_self, ↓State.sensing_keep]⟩

@[simp] theorem State.imageFindings_sensing (s : State) (n : Nat) (lo : Nat) (hi : Nat) (f : CamFrame) :
    (State.imageFindings s n lo hi f).sensing = s.sensing := by
  rw [State.imageFindings.eq_def] <;> (try simp only [↓State.pushFinding_sensing, ↓foldl_sensing, ↓ite_sensing, ↓dite_sensing,
      ↓reduceIte, ite_self, implies_true,
      ↓State.sensing_keep]) <;> repeat' ((first | split | (rw [foldl_sensing]; intro s x)) <;> try simp only [↓State.pushFinding_sensing,
      ↓foldl_sensing, ↓ite_sensing, ↓dite_sensing, ↓reduceIte, ite_self, implies_true, ↓State.sensing_keep])

theorem execZoneFault_sensing (group : Nat) (line : Nat) (s : State) :
    ∃ t, (execZoneFault group line s) = .next t ∧ t.sensing = s.sensing := by
  exact ⟨_, rfl, by simp only [↓State.setFld_sensing, ↓State.raiseIf_sensing, ↓State.log1_sensing, ↓State.startWake_sensing,
    ↓ite_sensing, ite_self]⟩

@[simp] theorem State.renderedTo_sensing (s : State) (m : Int) : (State.renderedTo s m).sensing = s.sensing := by
  simp only [State.renderedTo.eq_def, ↓State.setBar_sensing, ↓foldl_sensing, implies_true]

theorem execTimeRead_sensing (rq : Rq) (dom : Nat) (s : State) :
    ∃ t, (execTimeRead rq dom s) = .next t ∧ t.sensing = s.sensing := by
  exact ⟨_, rfl, by simp only [↓State.run_sensing, ↓State.withParams_sensing, ↓State.finish_sensing, implies_true]⟩

theorem execLoopEnWrite_sensing (mask : Nat) (s : State) : ∃ t, (execLoopEnWrite mask s) = .next t ∧ t.sensing = s.sensing := by
  exact ⟨_, rfl, by simp only [↓State.setLoops_sensing, ↓ite_sensing, ite_self]⟩

@[simp] theorem State.dropSwitch_sensing (s : State) (entry : Nat) : (State.dropSwitch s entry).sensing = s.sensing := by
  rw [State.dropSwitch.eq_def]
  repeat' split
  all_goals simp only [↓State.setFld_sensing, ↓State.vacate_sensing, ↓State.finishSlot_sensing, ↓State.sensing_keep]

@[simp] theorem State.rotationDone_sensing (s : State) (c : Nat) : (State.rotationDone s c).sensing = s.sensing := by
  simp only [State.rotationDone.eq_def, ↓State.setFld_sensing, ↓State.nextRotation_sensing, ↓State.setCluster_sensing,
    ↓ite_sensing, ite_self]

@[simp] theorem State.echoTemp_sensing (s : State) (k : Nat) (temp : Nat) (refused : Bool) :
    (State.echoTemp s k temp refused).sensing = s.sensing := by
  simp only [State.echoTemp.eq_def, ↓State.setFld_sensing, ↓State.setBoard_sensing, ↓State.setBst_sensing, ↓ite_sensing,
    ite_self]

@[simp] theorem State.learn_sensing (s : State) (west : Bool) (l : List ChainEntry) :
    (State.learn s west l).sensing = s.sensing := by
  simp only [State.learn.eq_def, ↓State.setLink_sensing, ↓ite_sensing, ite_self, ↓State.sensing_keep]

@[simp] theorem State.ssiMissed_sensing (s : State) (u : Nat) (n : Nat) (tag : Option Nat) :
    (State.ssiMissed s u n tag).sensing = s.sensing := by
  simp only [State.ssiMissed.eq_def, ↓State.raise_sensing, ↓State.setFld_sensing, ↓ite_sensing, ite_self]

theorem execBarrierEngage_sensing (s : State) : ∃ t, (execBarrierEngage s) = .next t ∧ t.sensing = s.sensing := by
  rw [execBarrierEngage.eq_def]
  refine ⟨_, rfl, ?_⟩
  repeat' split
  all_goals simp only [↓State.setFld_sensing, ↓State.sensing_keep]

theorem execReply_sensing (west : Bool) (bytes : List Byte) (s : State) :
    ∃ t, (execReply west bytes s) = .next t ∧ t.sensing = s.sensing := by
  exact ⟨_, rfl, by simp only [↓State.chainTake_sensing, ↓State.takeReply_sensing, ↓State.chainRelay_sensing, ↓ite_sensing,
    ite_self, implies_true]⟩

@[simp] theorem State.axesWake_sensing (s : State) : (State.axesWake s).sensing = s.sensing := by
  simp only [State.axesWake.eq_def, ↓State.axOutput_sensing, ↓foldl_sensing, implies_true]

@[simp] theorem State.lanesWake_sensing (s : State) : (State.lanesWake s).sensing = s.sensing := by
  simp only [State.lanesWake.eq_def, ↓State.laneTrain_sensing, ↓State.laneAsk_sensing, ↓foldl_sensing, ↓ite_sensing, ite_self,
    implies_true]

@[simp] theorem State.back_sensing (s : State) : (State.back s).sensing = s.sensing := by
  simp only [State.back.eq_def, ↓State.enter_sensing]

@[simp] theorem State.leaveDeep_sensing (s : State) : (State.leaveDeep s).sensing = s.sensing := by
  simp only [State.leaveDeep.eq_def, ↓State.setFld_sensing, ↓State.showRamp_sensing, ↓State.axesWake_sensing,
    ↓State.lanesWake_sensing, ↓State.undozeAll_sensing, ↓State.back_sensing, ↓State.ethChange_sensing, ↓State.maskAll_sensing,
    ↓State.dramDeep_sensing, ↓State.sensing_keep]

@[simp] theorem State.laneCame_sensing (s : State) : (State.laneCame s).sensing = s.sensing := by
  simp only [State.laneCame.eq_def, ↓State.boardTrain_sensing, ↓foldl_sensing, implies_true]

@[simp] theorem State.yoyoRun_sensing (s : State) : (State.yoyoRun s).sensing = s.sensing := by
  simp only [State.yoyoRun.eq_def, ↓State.setReq_sensing, ↓State.setFld_sensing, ↓ite_sensing, ite_self, ↓State.sensing_keep]

theorem execNozzleStateSet_sensing (rq : Rq) (idx : Nat) (state : Nat) (hold : Nat) (s : State) :
    ∃ t, (execNozzleStateSet rq idx state hold s) = .next t ∧ t.sensing = s.sensing := by
  exact ⟨_, rfl, by simp only [↓State.run_sensing, ↓State.withParams_sensing, ↓State.pushFinding_sensing, ↓State.pend_sensing,
    implies_true]⟩

theorem execFindingApply_sensing (s : State) : ∃ t, (execFindingApply s) = .next t ∧ t.sensing = s.sensing := by
  rw [execFindingApply.eq_def]
  refine ⟨_, rfl, ?_⟩
  repeat' split
  all_goals simp only [↓State.setFlag_sensing, ↓State.imageFinding_sensing, ↓State.gateFinding_sensing,
    ↓State.operatorFinding_sensing, ↓State.sensing_keep]

@[simp] theorem State.withMap_sensing (s : State) (b : Nat) (m : List MapEntry) (crc : Nat) :
    (State.withMap s b m crc).sensing = s.sensing := by
  simp only [State.withMap.eq_def, ↓State.setBar_sensing]

@[simp] theorem State.boardsRefresh_sensing (s : State) : (State.boardsRefresh s).sensing = s.sensing := by
  simp only [State.boardsRefresh.eq_def, ↓State.boardRefresh_sensing, ↓foldl_sensing, implies_true]

@[simp] theorem State.mapInForce_sensing (s : State) (b : Nat) (t : List Byte) : (State.mapInForce s b t).sensing = s.sensing := by
  simp only [State.mapInForce.eq_def, ↓State.withMap_sensing, ↓State.setLoopBar_sensing, ↓State.showStackMax_sensing,
    ↓State.showFill_sensing, ↓State.boardsRefresh_sensing, ↓State.restoreHealth_sensing, ↓State.showNozzles_sensing]

theorem execNozzleMapLoad_sensing (rq : Rq) (chunk : Chunk) (s : State) :
    ∃ t, (execNozzleMapLoad rq chunk s) = .next t ∧ t.sensing = s.sensing := by
  rw [execNozzleMapLoad.eq_def]
  repeat' split
  all_goals refine ⟨_, rfl, ?_⟩
  all_goals (try simp only [↓State.run_sensing, ↓State.loadChunk_sensing, ↓State.reject_sensing, ↓State.withMap_sensing,
      ↓State.finish_sensing, ↓State.mapInForce_sensing, ↓foldl_sensing, ↓ite_sensing, ↓dite_sensing, ↓reduceIte, ite_self,
      implies_true, ↓State.sensing_keep])
  all_goals repeat' ((first | (rw [State.loadChunk_sensing]; intro t rep s) | (rw [State.run_sensing]; intro s) | split | (rw [foldl_sensing]; intro s x)) <;> try simp only [↓State.run_sensing,
      ↓State.loadChunk_sensing, ↓State.reject_sensing, ↓State.withMap_sensing, ↓State.finish_sensing, ↓State.mapInForce_sensing,
      ↓foldl_sensing, ↓ite_sensing, ↓dite_sensing, ↓reduceIte, ite_self, implies_true, ↓State.sensing_keep])

theorem execDmaBusHaltClear_sensing (s : State) : ∃ t, (execDmaBusHaltClear s) = .next t ∧ t.sensing = s.sensing := by
  exact ⟨_, rfl, by simp only [↓State.setFld_sensing]⟩

theorem execCalRead_sensing (rq : Rq) (kind : Nat) (inst : Nat) (start : Nat) (s : State) :
    ∃ t, (execCalRead rq kind inst start s) = .next t ∧ t.sensing = s.sensing := by
  exact ⟨_, rfl, by simp only [↓State.run_sensing, ↓State.withParams_sensing, ↓State.calVerify_sensing, ↓State.finish_sensing,
    implies_true]⟩

theorem execWake_sensing (rq : Rq) (s : State) : ∃ t, (execWake rq s) = .next t ∧ t.sensing = s.sensing := by
  exact ⟨_, rfl, by simp only [↓State.run_sensing, ↓State.withParams_sensing, ↓State.startWake_sensing, ↓State.occupy_sensing,
    ↓State.pend_sensing, implies_true, ↓State.sensing_keep]⟩

theorem execMemDetWrite_sensing (d : Nat) (s : State) : ∃ t, (execMemDetWrite d s) = .next t ∧ t.sensing = s.sensing := by
  exact ⟨_, rfl, by simp only [↓State.setFld_sensing, ↓State.detWritten_sensing, ↓ite_sensing, ite_self]⟩

@[simp] theorem State.dropOpen_sensing (s : State) (ip : Nat) (port : Nat) : (State.dropOpen s ip port).sensing = s.sensing := by
  simp only [State.dropOpen.eq_def, ↓State.sensing_keep]

@[simp] theorem State.openPhase0_sensing (s : State) (ip : Nat) (port : Nat) (rq : Rq) (p : List Byte) :
    (State.openPhase0 s ip port rq p).sensing = s.sensing := by
  simp only [State.openPhase0.eq_def, ↓State.openReply_sensing, ↓State.dropOpen_sensing, ↓ite_sensing, ite_self,
    ↓State.sensing_keep]

theorem execRecordRingSet_sensing (rq : Rq) (ring : Nat) (vector : Nat) (addr : Nat) (size : Nat) (s : State) :
    ∃ t, (execRecordRingSet rq ring vector addr size s) = .next t ∧ t.sensing = s.sensing := by
  exact ⟨_, rfl, by simp only [↓State.run_sensing, ↓State.withParams_sensing, ↓State.setRecRing_sensing, ↓State.finish_sensing,
    ↓State.mendC1_sensing, implies_true]⟩

theorem execRsmpSwap_sensing (unit : Nat) (s : State) : ∃ t, (execRsmpSwap unit s) = .next t ∧ t.sensing = s.sensing := by
  exact ⟨_, rfl, by simp only [↓State.orLater_sensing, ↓State.rsmpSwap_sensing, ↓ite_sensing, ite_self, implies_true]⟩

theorem execReplyFetch_sensing (rq : Rq) (tag : Nat) (s : State) :
    ∃ t, (execReplyFetch rq tag s) = .next t ∧ t.sensing = s.sensing := by
  exact ⟨_, rfl, by simp only [↓State.fetch_sensing]⟩

@[simp] theorem State.openPhase1_sensing (s : State) (ip : Nat) (port : Nat) (rq : Rq) (p : List Byte) :
    (State.openPhase1 s ip port rq p).sensing = s.sensing := by
  rw [State.openPhase1.eq_def] <;> (try simp only [↓State.openBad_sensing, ↓State.dropOpen_sensing, ↓State.openReply_sensing,
      ↓State.authFail_sensing, ↓State.openSession_sensing, ↓foldl_sensing, ↓ite_sensing, ↓dite_sensing, ↓reduceIte, ite_self,
      implies_true,
      ↓State.sensing_keep]) <;> repeat' ((first | split | (rw [foldl_sensing]; intro s x)) <;> try simp only [↓State.openBad_sensing,
      ↓State.dropOpen_sensing, ↓State.openReply_sensing, ↓State.authFail_sensing, ↓State.openSession_sensing, ↓foldl_sensing,
      ↓ite_sensing, ↓dite_sensing, ↓reduceIte, ite_self, implies_true, ↓State.sensing_keep])

@[simp] theorem State.arbBreak_sensing (s : State) (net : Bool) (arb : Nat) (reqs : List ArbReq) :
    (State.arbBreak s net arb reqs).sensing = s.sensing := by
  simp only [State.arbBreak.eq_def, ↓State.setArb_sensing, ↓State.setFld_sensing, ↓State.countForced_sensing, ↓ite_sensing,
    ite_self]

theorem execBoardProfileLoad_sensing (rq : Rq) (chunk : Chunk) (s : State) :
    ∃ t, (execBoardProfileLoad rq chunk s) = .next t ∧ t.sensing = s.sensing := by
  rw [execBoardProfileLoad.eq_def]
  repeat' split
  all_goals refine ⟨_, rfl, ?_⟩
  all_goals (try simp only [↓State.run_sensing, ↓State.loadChunk_sensing, ↓State.reject_sensing, ↓State.finish_sensing,
      ↓State.profileInForce_sensing, ↓foldl_sensing, ↓ite_sensing, ↓dite_sensing, ↓reduceIte, ite_self, implies_true,
      ↓State.sensing_keep])
  all_goals repeat' ((first | (rw [State.loadChunk_sensing]; intro t rep s) | (rw [State.run_sensing]; intro s) | split | (rw [foldl_sensing]; intro s x)) <;> try simp only [↓State.run_sensing,
      ↓State.loadChunk_sensing, ↓State.reject_sensing, ↓State.finish_sensing, ↓State.profileInForce_sensing, ↓foldl_sensing,
      ↓ite_sensing, ↓dite_sensing, ↓reduceIte, ite_self, implies_true, ↓State.sensing_keep])

@[simp] theorem State.setStuck_sensing (s : State) (arb : Nat) : (State.setStuck s arb).sensing = s.sensing := by
  simp only [State.setStuck.eq_def, ↓State.setFld_sensing, ↓ite_sensing, ite_self]

theorem execEventFire_sensing (rq : Rq) (sw : Nat) (s : State) :
    ∃ t, (execEventFire rq sw s) = .next t ∧ t.sensing = s.sensing := by
  exact ⟨_, rfl, by simp only [↓State.run_sensing, ↓State.withParams_sensing, ↓State.finish_sensing, ↓State.raise_sensing,
    implies_true]⟩

@[simp] theorem State.blanked_sensing (s : State) (b : Nat) (k : Nat) (cause : Nat) (line : Nat) (slice : Nat)
    (engA : Nat) (engB : Nat) :
    (State.blanked s b k cause line slice engA engB).sensing = s.sensing := by
  simp only [State.blanked.eq_def, ↓State.setFld_sensing, ↓State.raiseIf_sensing]

theorem execArbiterGrant_sensing (net : Bool) (arb : Nat) (reqs : List ArbReq) (s : State) :
    ∃ t, (execArbiterGrant net arb reqs s) = .next t ∧ t.sensing = s.sensing := by
  exact ⟨_, rfl, by simp only [↓State.arbBreak_sensing]⟩

theorem execPerstRelease_sensing (speed : Nat) (width : Nat) (s : State) :
    ∃ t, (execPerstRelease speed width s) = .next t ∧ t.sensing = s.sensing := by
  exact ⟨_, rfl, by simp only [↓State.setFld_sensing]⟩

theorem execPcieCompletionError_sensing (kind : Nat) (addr : Nat) (batch : List Nat) (s : State) :
    ∃ t, (execPcieCompletionError kind addr batch s) = .next t ∧ t.sensing = s.sensing := by
  exact ⟨_, rfl, by simp only [↓State.busError_sensing]⟩

theorem execTjOver_sensing (tj : Int) (s : State) : ∃ t, (execTjOver tj s) = .next t ∧ t.sensing = s.sensing := by
  exact ⟨_, rfl, by simp only [↓State.setFldI_sensing, ↓State.setFld_sensing, ↓State.breach_sensing, ↓State.raiseIf_sensing,
    ↓ite_sensing, ite_self]⟩

theorem execKpsTrailer_sensing (ch : Nat) (bytes : List Byte) (s : State) :
    ∃ t, (execKpsTrailer ch bytes s) = .next t ∧ t.sensing = s.sensing := by
  exact ⟨_, rfl, by simp only [↓State.failPage_sensing, ↓State.judgePage_sensing, ↓State.setPage_sensing, ↓ite_sensing,
    ite_self]⟩

theorem execDoseSwapRequest_sensing (bar : Nat) (s : State) :
    ∃ t, (execDoseSwapRequest bar s) = .next t ∧ t.sensing = s.sensing := by
  exact ⟨_, rfl, by simp only [↓State.swapRequest_sensing, ↓ite_sensing, ite_self]⟩

@[simp] theorem State.issueReads_sensing (s : State) (ch : Nat) : (State.issueReads s ch).sensing = s.sensing := by
  rw [State.issueReads.eq_def] <;> (try simp only [↓State.setDmaCh_sensing, ↓State.emit_sensing, ↓foldl_sensing, ↓ite_sensing,
      ↓dite_sensing, ↓reduceIte, ite_self, implies_true,
      ↓State.sensing_keep]) <;> repeat' ((first | split | (rw [foldl_sensing]; intro s x)) <;> try simp only [↓State.setDmaCh_sensing,
      ↓State.emit_sensing, ↓foldl_sensing, ↓ite_sensing, ↓dite_sensing, ↓reduceIte, ite_self, implies_true, ↓State.sensing_keep])

theorem execEqAdapt_sensing (lane : Nat) (foms : List Nat) (s : State) :
    ∃ t, (execEqAdapt lane foms s) = .next t ∧ t.sensing = s.sensing := by
  exact ⟨_, rfl, by simp only [↓State.setLaneGrp_sensing, ↓State.setLane_sensing, ↓State.setFld_sensing, ↓State.showFom_sensing,
    ↓ite_sensing, ite_self]⟩

theorem execFwFallbackEnd_sensing (s : State) : ∃ t, (execFwFallbackEnd s) = .next t ∧ t.sensing = s.sensing := by
  exact ⟨_, rfl, by simp only [↓State.setFld_sensing, ↓ite_sensing, ite_self]⟩

@[simp] theorem State.lockGive_sensing (s : State) (k : Nat) (input : Nat) (engine : Bool) (client : Nat) :
    (State.lockGive s k input engine client).sensing = s.sensing := by
  simp only [State.lockGive.eq_def, ↓State.lockOwn_sensing, ↓State.setLock_sensing]

theorem execEngineLockRequest_sensing (engine : Nat) (lock : Nat) (cls : Traffic) (s : State) :
    ∃ t, (execEngineLockRequest engine lock cls s) = .next t ∧ t.sensing = s.sensing := by
  rw [execEngineLockRequest.eq_def]
  refine ⟨_, rfl, ?_⟩
  repeat' split
  all_goals simp only [↓State.tellEngine_sensing, ↓State.lockGive_sensing, ↓State.setLock_sensing]

theorem execToken_sensing (west : Bool) (bytes : List Byte) (s : State) :
    ∃ t, (execToken west bytes s) = .next t ∧ t.sensing = s.sensing := by
  exact ⟨_, rfl, by simp only [↓State.chainTake_sensing, ↓State.announce_sensing, ↓State.log1_sensing,
    ↓State.chainStatusSet_sensing, ↓State.learn_sensing, ↓State.chainRelay_sensing, ↓ite_sensing, ite_self, implies_true,
    ↓State.sensing_keep]⟩

theorem execPrintPause_sensing (s : State) : ∃ t, (execPrintPause s) = .next t ∧ t.sensing = s.sensing := by
  exact ⟨_, rfl, by simp only [↓State.endTask_sensing, ↓State.pause_sensing, ↓State.refuseTask_sensing, ↓ite_sensing, ite_self]⟩

theorem execPinEdge_sensing (pin : Nat) (level : Bool) (ns : Nat) (s : State) :
    ∃ t, (execPinEdge pin level ns s) = .next t ∧ t.sensing = s.sensing := by
  exact ⟨_, rfl, by simp only [↓State.setFld_sensing, ↓State.bump_sensing, ↓State.breachOnce_sensing, ↓State.raise_sensing,
    ↓ite_sensing, ite_self, ↓State.sensing_keep]⟩

@[simp] theorem State.mgmtReads_sensing (s : State) (x1 : Nat) : (State.mgmtReads s x1).sensing = s.sensing := by
  induction x1 generalizing s with
  | zero => rfl
  | succ n ih =>
    rw [State.mgmtReads]
    split <;> rw [ih, State.sensing_keep, State.emit_sensing]

theorem execHelloRepeat_sensing (board : Nat) (s : State) : ∃ t, (execHelloRepeat board s) = .next t ∧ t.sensing = s.sensing := by
  exact ⟨_, rfl, by simp only [↓State.sendHello_sensing, ↓State.setFld_sensing, ↓ite_sensing, ite_self]⟩

@[simp] theorem State.pairFaults_sensing (s : State) : (State.pairFaults s).sensing = s.sensing := by
  simp only [State.pairFaults.eq_def, ↓State.setFld_sensing, ↓State.sensing_keep]

theorem execKeySet_sensing (rq : Rq) (slot : Nat) (key : List Byte) (s : State) :
    ∃ t, (execKeySet rq slot key s) = .next t ∧ t.sensing = s.sensing := by
  exact ⟨_, rfl, by simp only [↓State.run_sensing, ↓State.finish_sensing, ↓State.withParams_sensing, ↓ite_sensing, ite_self,
    implies_true, ↓State.sensing_keep]⟩

theorem execReverseBlock_sensing (s : State) : ∃ t, (execReverseBlock s) = .next t ∧ t.sensing = s.sensing := by
  rw [execReverseBlock.eq_def]
  exact ⟨_, rfl, rfl⟩

theorem execTjOverEnd_sensing (tj : Int) (s : State) : ∃ t, (execTjOverEnd tj s) = .next t ∧ t.sensing = s.sensing := by
  exact ⟨_, rfl, by simp only [↓State.mendC5_sensing, ↓State.setFld_sensing, ↓State.setFldI_sensing, ↓ite_sensing, ite_self]⟩

@[simp] theorem State.setTemp_sensing (s : State) (q : Nat) (t : Int) : (State.setTemp s q t).sensing = s.sensing := by
  simp only [State.setTemp.eq_def, ↓State.setFldI_sensing, ↓State.setFld_sensing]

theorem execStackEmergencyEnd_sensing (stack : Nat) (temp : Int) (s : State) :
    ∃ t, (execStackEmergencyEnd stack temp s) = .next t ∧ t.sensing = s.sensing := by
  exact ⟨_, rfl, by simp only [↓State.setTemp_sensing, ↓State.setFld_sensing, ↓State.mend_sensing, ↓ite_sensing, ite_self]⟩

theorem execYoyoInterval_sensing (s : State) : ∃ t, (execYoyoInterval s) = .next t ∧ t.sensing = s.sensing := by
  exact ⟨_, rfl, by simp only [↓State.setBar_sensing, ↓State.yoyoRun_sensing, ↓foldl_sensing, ↓ite_sensing, ite_self,
    implies_true]⟩

theorem execReplyRingStallTimeout_sensing (ring : Nat) (s : State) :
    ∃ t, (execReplyRingStallTimeout ring s) = .next t ∧ t.sensing = s.sensing := by
  exact ⟨_, rfl, by simp only [↓State.setFld_sensing, ↓State.breach_sensing, ↓State.setRing_sensing, ↓ite_sensing, ite_self]⟩

theorem execSessionOpen_sensing (ip : Nat) (port : Nat) (rq : Rq) (payload : List Byte) (s : State) :
    ∃ t, (execSessionOpen ip port rq payload s) = .next t ∧ t.sensing = s.sensing := by
  rw [execSessionOpen.eq_def]
  refine ⟨_, rfl, ?_⟩
  repeat' split
  all_goals simp only [↓State.openReply_sensing, ↓State.openBad_sensing, ↓State.openPhase0_sensing, ↓State.openPhase1_sensing,
    ↓ite_sensing, ite_self, ↓State.sensing_keep]

theorem execKeyLockoutEnd_sensing (slot : Nat) (s : State) :
    ∃ t, (execKeyLockoutEnd slot s) = .next t ∧ t.sensing = s.sensing := by
  rw [execKeyLockoutEnd.eq_def]
  exact ⟨_, rfl, rfl⟩

theorem execBankRefresh_sensing (ch : Nat) (bank : Nat) (s : State) :
    ∃ t, (execBankRefresh ch bank s) = .next t ∧ t.sensing = s.sensing := by
  exact ⟨_, rfl, by simp only [↓State.interrupt_sensing, ↓State.closeRows_sensing, ↓ite_sensing, ite_self]⟩

theorem execSleep_sensing (rq : Rq) (s : State) : ∃ t, (execSleep rq s) = .next t ∧ t.sensing = s.sensing := by
  exact ⟨_, rfl, by simp only [↓State.run_sensing, ↓State.withParams_sensing, ↓State.finish_sensing, ↓State.setFld_sensing,
    ↓State.occupy_sensing, ↓State.pend_sensing, ↓ite_sensing, ite_self, implies_true, ↓State.sensing_keep]⟩

theorem execVcoreLow_sensing (s : State) : ∃ t, (execVcoreLow s) = .next t ∧ t.sensing = s.sensing := by
  exact ⟨_, rfl, by simp only [↓State.setFld_sensing, ↓State.breach_sensing, ↓State.sensing_keep]⟩

theorem execEthLinkChange_sensing (port : Nat) (link : Bool) (anDone : Bool) (fecLock : Bool) (s : State) :
    ∃ t, (execEthLinkChange port link anDone fecLock s) = .next t ∧ t.sensing = s.sensing := by
  exact ⟨_, rfl, by simp only [↓State.setFlag_sensing, ↓ite_sensing, ite_self]⟩

theorem execSpareStatus_sensing (rq : Rq) (s : State) : ∃ t, (execSpareStatus rq s) = .next t ∧ t.sensing = s.sensing := by
  exact ⟨_, rfl, by simp only [↓State.run_sensing, ↓State.withParams_sensing, ↓State.finish_sensing, implies_true]⟩

theorem execMgmtPortAccess_sensing (select : Option Nat) (reads : Nat) (s : State) :
    ∃ t, (execMgmtPortAccess select reads s) = .next t ∧ t.sensing = s.sensing := by
  rw [execMgmtPortAccess.eq_def]
  refine ⟨_, rfl, ?_⟩
  repeat' split
  all_goals simp only [↓State.mgmtReads_sensing, ↓State.sensing_keep]

theorem execGateTest_sensing (rq : Rq) (gate : Nat) (board : Nat) (first : Nat) (count : Nat) (s : State) :
    ∃ t, (execGateTest rq gate board first count s) = .next t ∧ t.sensing = s.sensing := by
  exact ⟨_, rfl, by simp only [↓State.run_sensing, ↓State.withParams_sensing, ↓State.finish_sensing, ↓State.occupy_sensing,
    ↓State.pend_sensing, ↓State.setFld_sensing, ↓State.gateEnd_sensing, ↓ite_sensing, ite_self, implies_true, ↓State.sensing_keep]⟩

theorem execFaultLogRead_sensing (rq : Rq) (first : Nat) (s : State) :
    ∃ t, (execFaultLogRead rq first s) = .next t ∧ t.sensing = s.sensing := by
  exact ⟨_, rfl, by simp only [↓State.run_sensing, ↓State.withParams_sensing, ↓State.finish_sensing, implies_true]⟩

theorem execArbiterStuck_sensing (arb : Nat) (input : Nat) (cmd : Option Rq) (s : State) :
    ∃ t, (execArbiterStuck arb input cmd s) = .next t ∧ t.sensing = s.sensing := by
  rw [execArbiterStuck.eq_def]
  repeat' split
  all_goals refine ⟨_, rfl, ?_⟩
  all_goals (try simp only [↓State.log1_sensing, ↓State.setStuck_sensing, ↓State.vacate_sensing, ↓State.finishSlot_sensing,
      ↓foldl_sensing, ↓ite_sensing, ↓dite_sensing, ↓reduceIte, ite_self, implies_true, ↓State.sensing_keep])
  all_goals repeat' ((first | split | (rw [foldl_sensing]; intro s x)) <;> try simp only [↓State.log1_sensing,
      ↓State.setStuck_sensing, ↓State.vacate_sensing, ↓State.finishSlot_sensing, ↓foldl_sensing, ↓ite_sensing, ↓dite_sensing,
      ↓reduceIte, ite_self, implies_true, ↓State.sensing_keep])

theorem execTakeoverSwitch_sensing (group : Nat) (comparePass : Bool) (s : State) :
    ∃ t, (execTakeoverSwitch group comparePass s) = .next t ∧ t.sensing = s.sensing := by
  rw [execTakeoverSwitch.eq_def]
  repeat' split
  all_goals refine ⟨_, rfl, ?_⟩
  all_goals (try simp only [↓State.takeoverFail_sensing, ↓State.setFld_sensing, ↓State.setLane_sensing,
      ↓State.setLaneGrp_sensing, ↓State.bump_sensing, ↓State.raiseIf_sensing, ↓foldl_sensing, ↓ite_sensing, ↓dite_sensing, ↓reduceIte,
      ite_self, implies_true, ↓State.sensing_keep])
  all_goals repeat' ((first | split | (rw [foldl_sensing]; intro s x)) <;> try simp only [↓State.takeoverFail_sensing,
      ↓State.setFld_sensing, ↓State.setLane_sensing, ↓State.setLaneGrp_sensing, ↓State.bump_sensing, ↓State.raiseIf_sensing,
      ↓foldl_sensing, ↓ite_sensing, ↓dite_sensing, ↓reduceIte, ite_self, implies_true, ↓State.sensing_keep])

@[simp] theorem State.laneSwitch_sensing (s : State) (l : Nat) (code : Nat) : (State.laneSwitch s l code).sensing = s.sensing := by
  simp only [State.laneSwitch.eq_def, ↓State.idleSend_sensing, ↓State.setFld_sensing, ↓State.setLane_sensing,
    ↓State.laneLeft_sensing, ↓State.laneCame_sensing, ↓ite_sensing, ite_self]

theorem execLinkRateAck_sensing (lane : Nat) (blk : List Byte) (s : State) :
    ∃ t, (execLinkRateAck lane blk s) = .next t ∧ t.sensing = s.sensing := by
  exact ⟨_, rfl, by simp only [↓State.onLink_sensing, ↓State.laneSwitch_sensing, ↓ite_sensing, ite_self, implies_true]⟩

theorem execCredit_sensing (board : Nat) (bytes : List Byte) (s : State) :
    ∃ t, (execCredit board bytes s) = .next t ∧ t.sensing = s.sensing := by
  rw [execCredit.eq_def]
  refine ⟨_, rfl, ?_⟩
  repeat' split
  all_goals simp only [↓State.setCredits_sensing]

theorem execFwHandover_sensing (s : State) : ∃ t, (execFwHandover s) = .next t ∧ t.sensing = s.sensing := by
  rw [execFwHandover.eq_def]
  refine ⟨_, rfl, ?_⟩
  repeat' split
  all_goals simp only [↓State.setOldKernels_sensing, ↓State.swapPairs_sensing, ↓State.runSlot_sensing, ↓State.setFld_sensing,
    ↓State.raiseIf_sensing, ↓State.vacate_sensing, ↓State.finishSlot_sensing, ↓State.sensing_keep]

theorem execGetState_sensing (rq : Rq) (s : State) : ∃ t, (execGetState rq s) = .next t ∧ t.sensing = s.sensing := by
  exact ⟨_, rfl, by simp only [↓State.run_sensing, ↓State.finish_sensing, implies_true]⟩

theorem execDelayResp_sensing (west : Bool) (bytes : List Byte) (s : State) :
    ∃ t, (execDelayResp west bytes s) = .next t ∧ t.sensing = s.sensing := by
  rw [execDelayResp.eq_def]
  repeat' split
  all_goals refine ⟨_, rfl, ?_⟩
  all_goals (try simp only [↓State.chainTake_sensing, ↓State.setLink_sensing, ↓foldl_sensing, ↓ite_sensing, ↓dite_sensing,
      ↓reduceIte, ite_self, implies_true, ↓State.sensing_keep])
  all_goals repeat' ((first | (rw [State.chainTake_sensing]; intro p s) | split | (rw [foldl_sensing]; intro s x)) <;> try simp only [↓State.chainTake_sensing,
      ↓State.setLink_sensing, ↓foldl_sensing, ↓ite_sensing, ↓dite_sensing, ↓reduceIte, ite_self, implies_true,
      ↓State.sensing_keep])

theorem execLinkReady_sensing (lane : Nat) (blk : List Byte) (s : State) :
    ∃ t, (execLinkReady lane blk s) = .next t ∧ t.sensing = s.sensing := by
  exact ⟨_, rfl, by simp only [↓State.onLink_sensing, ↓State.setLane_sensing, ↓State.setFld_sensing, ↓State.laneCame_sensing,
    ↓State.laneAsk_sensing, ↓ite_sensing, ite_self, implies_true]⟩

theorem execLockWaitTimeout_sensing (lock : Nat) (sess : Nat) (s : State) :
    ∃ t, (execLockWaitTimeout lock sess s) = .next t ∧ t.sensing = s.sensing := by
  rw [execLockWaitTimeout.eq_def]
  refine ⟨_, rfl, ?_⟩
  repeat' split
  all_goals simp only [↓State.finishSlot_sensing, ↓State.lockKeep_sensing]

theorem execFireTos_sensing (bar : Nat) (s : State) : ∃ t, (execFireTos bar s) = .next t ∧ t.sensing = s.sensing := by
  exact ⟨_, rfl, by simp only [↓State.refuseTask_sensing, ↓State.endTask_sensing, ↓State.fireEvent_sensing,
    ↓State.setFld_sensing, ↓State.setBar_sensing, ↓ite_sensing, ite_self]⟩

theorem execTakeoverStart_sensing (group : Nat) (s : State) :
    ∃ t, (execTakeoverStart group s) = .next t ∧ t.sensing = s.sensing := by
  rw [execTakeoverStart.eq_def]
  refine ⟨_, rfl, ?_⟩
  repeat' split
  all_goals simp only [↓State.log1_sensing, ↓State.setLaneGrp_sensing, ↓State.setFld_sensing]

theorem execConfig_sensing (west : Bool) (bytes : List Byte) (s : State) :
    ∃ t, (execConfig west bytes s) = .next t ∧ t.sensing = s.sensing := by
  exact ⟨_, rfl, by simp only [↓State.chainTake_sensing, ↓State.chainSpread_sensing, ↓State.raiseRate_sensing, ↓ite_sensing,
    ite_self, implies_true, ↓State.sensing_keep]⟩

theorem execServiceExit_sensing (rq : Rq) (s : State) : ∃ t, (execServiceExit rq s) = .next t ∧ t.sensing = s.sensing := by
  exact ⟨_, rfl, by simp only [↓State.run_sensing, ↓State.withParams_sensing, ↓State.finish_sensing, ↓State.back_sensing,
    implies_true]⟩

theorem execFaultLogCopy_sensing (s : State) : ∃ t, (execFaultLogCopy s) = .next t ∧ t.sensing = s.sensing := by
  exact ⟨_, rfl, by simp only [↓State.copyLog_sensing]⟩

theorem execSegmentComplete_sensing (unit : Nat) (s : State) :
    ∃ t, (execSegmentComplete unit s) = .next t ∧ t.sensing = s.sensing := by
  rw [execSegmentComplete.eq_def]
  refine ⟨_, rfl, ?_⟩
  repeat' split
  all_goals simp only [↓State.setFld_sensing, ↓State.judgePage_sensing, ↓State.setPage_sensing, ↓ite_sensing, ite_self]

theorem execChainRescan_sensing (rq : Rq) (s : State) : ∃ t, (execChainRescan rq s) = .next t ∧ t.sensing = s.sensing := by
  exact ⟨_, rfl, by simp only [↓State.run_sensing, ↓State.withParams_sensing, ↓State.announce_sensing, ↓State.discover_sensing,
    ↓State.finish_sensing, ↓ite_sensing, ite_self, implies_true]⟩

theorem execRateReqTimeout_sensing (lane : Nat) (s : State) :
    ∃ t, (execRateReqTimeout lane s) = .next t ∧ t.sensing = s.sensing := by
  rw [execRateReqTimeout.eq_def]
  refine ⟨_, rfl, ?_⟩
  repeat' split
  all_goals simp only [↓State.setLane_sensing, ↓State.setFld_sensing]

theorem execStrobeWatchdog_sensing (board : Nat) (s : State) :
    ∃ t, (execStrobeWatchdog board s) = .next t ∧ t.sensing = s.sensing := by
  exact ⟨_, rfl, by simp only [↓State.emit_sensing, ↓State.setBoard_sensing, ↓State.latchBoard_sensing,
    ↓State.fireEvent_sensing, ↓State.setFld_sensing, ↓ite_sensing, ite_self]⟩

theorem execLaneTargetWrite_sensing (lane : Nat) (target : Nat) (s : State) :
    ∃ t, (execLaneTargetWrite lane target s) = .next t ∧ t.sensing = s.sensing := by
  exact ⟨_, rfl, by simp only [↓State.orLater_sensing, ↓State.laneTarget_sensing, ↓ite_sensing, ite_self, implies_true]⟩

theorem execLockAcquire_sensing (rq : Rq) (lock : Nat) (waitMs : Nat) (s : State) :
    ∃ t, (execLockAcquire rq lock waitMs s) = .next t ∧ t.sensing = s.sensing := by
  rw [execLockAcquire.eq_def]
  repeat' split
  all_goals refine ⟨_, rfl, ?_⟩
  all_goals (try simp only [↓State.run_sensing, ↓State.withParams_sensing, ↓State.finish_sensing, ↓State.lockGive_sensing,
      ↓State.setLock_sensing, ↓State.pend_sensing, ↓foldl_sensing, ↓ite_sensing, ↓dite_sensing, ↓reduceIte, ite_self, implies_true,
      ↓State.sensing_keep])
  all_goals repeat' ((first | (rw [State.withParams_sensing]; intro s) | (rw [State.run_sensing]; intro s) | split | (rw [foldl_sensing]; intro s x)) <;> try simp only [↓State.run_sensing,
      ↓State.withParams_sensing, ↓State.finish_sensing, ↓State.lockGive_sensing, ↓State.setLock_sensing, ↓State.pend_sensing,
      ↓foldl_sensing, ↓ite_sensing, ↓dite_sensing, ↓reduceIte, ite_self, implies_true, ↓State.sensing_keep])

theorem execStrobeFall_sensing (board : Nat) (s : State) : ∃ t, (execStrobeFall board s) = .next t ∧ t.sensing = s.sensing := by
  exact ⟨_, rfl, by simp only [↓State.emit_sensing, ↓State.setBoard_sensing, ↓ite_sensing, ite_self]⟩

theorem execKernelRotationStep_sensing (s : State) : ∃ t, (execKernelRotationStep s) = .next t ∧ t.sensing = s.sensing := by
  exact ⟨_, rfl, by simp only [↓State.nextRotation_sensing, ↓State.locksOfBreak_sensing, ↓State.rotationDone_sensing,
    ↓State.tookOver_sensing, ↓State.setCluster_sensing, ↓ite_sensing, ite_self]⟩

theorem execStackEmergency_sensing (stack : Nat) (temp : Int) (s : State) :
    ∃ t, (execStackEmergency stack temp s) = .next t ∧ t.sensing = s.sensing := by
  exact ⟨_, rfl, by simp only [↓State.setTemp_sensing, ↓State.breach_sensing, ↓State.setFld_sensing, ↓ite_sensing, ite_self]⟩

theorem execLinkRateReq_sensing (lane : Nat) (blk : List Byte) (s : State) :
    ∃ t, (execLinkRateReq lane blk s) = .next t ∧ t.sensing = s.sensing := by
  exact ⟨_, rfl, by simp only [↓State.onLink_sensing, ↓State.setFld_sensing, ↓State.laneSwitch_sensing, ↓State.linkSend_sensing,
    ↓ite_sensing, ite_self, implies_true]⟩

theorem execConsumerIndexPoll_sensing (ring : Nat) (result : IndexRead) (s : State) :
    ∃ t, (execConsumerIndexPoll ring result s) = .next t ∧ t.sensing = s.sensing := by
  rw [execConsumerIndexPoll.eq_def]
  refine ⟨_, rfl, ?_⟩
  repeat' split
  all_goals simp only [↓State.log1_sensing, ↓State.pcieReport_sensing, ↓State.mendC1_sensing, ↓State.setRecRing_sensing,
    ↓ite_sensing, ite_self]

theorem execDmaDescriptorFetch_sensing (ch : Nat) (bytes : List Byte) (s : State) :
    ∃ t, (execDmaDescriptorFetch ch bytes s) = .next t ∧ t.sensing = s.sensing := by
  exact ⟨_, rfl, by simp only [↓State.endChain_sensing, ↓State.issueReads_sensing, ↓State.setDmaCh_sensing, ↓ite_sensing,
    ite_self]⟩

theorem execRecordRingFullTimeout_sensing (ring : Nat) (s : State) :
    ∃ t, (execRecordRingFullTimeout ring s) = .next t ∧ t.sensing = s.sensing := by
  exact ⟨_, rfl, by simp only [↓State.breach_sensing, ↓State.setRecRing_sensing, ↓ite_sensing, ite_self]⟩

theorem execInterruptCoalesce_sensing (ring : Nat) (s : State) :
    ∃ t, (execInterruptCoalesce ring s) = .next t ∧ t.sensing = s.sensing := by
  exact ⟨_, rfl, by simp only [↓State.msixSignal_sensing, ↓State.setRecRing_sensing, ↓ite_sensing, ite_self]⟩

theorem execImpedanceCal_sensing (ch : Nat) (s : State) : ∃ t, (execImpedanceCal ch s) = .next t ∧ t.sensing = s.sensing := by
  exact ⟨_, rfl, by simp only [↓State.calibrate_sensing]⟩

theorem execRingTimeSend_sensing (s : State) : ∃ t, (execRingTimeSend s) = .next t ∧ t.sensing = s.sensing := by
  exact ⟨_, rfl, by simp only [↓State.chainAll_sensing, ↓ite_sensing, ite_self, ↓State.sensing_keep]⟩

theorem execLockHoldExpiry_sensing (lock : Nat) (s : State) :
    ∃ t, (execLockHoldExpiry lock s) = .next t ∧ t.sensing = s.sensing := by
  exact ⟨_, rfl, by simp only [↓State.breachOnce_sensing, ↓State.lockBreak_sensing, ↓ite_sensing, ite_self]⟩

theorem execPinPulse_sensing (pin : Nat) (s : State) : ∃ t, (execPinPulse pin s) = .next t ∧ t.sensing = s.sensing := by
  exact ⟨_, rfl, by simp only [↓State.setCons_sensing, ↓State.emit_sensing, ↓State.endTask_sensing, ↓ite_sensing, ite_self]⟩

theorem execPosition_sensing (west : Bool) (bytes : List Byte) (s : State) :
    ∃ t, (execPosition west bytes s) = .next t ∧ t.sensing = s.sensing := by
  exact ⟨_, rfl, by simp only [↓State.chainTake_sensing, ↓State.chainRelay_sensing, ↓State.takePosition_sensing, ↓ite_sensing,
    ite_self, implies_true, ↓State.sensing_keep]⟩

theorem execDbCmd_sensing (ring : Nat) (idx : Nat) (s : State) :
    ∃ t, (execDbCmd ring idx s) = .next t ∧ t.sensing = s.sensing := by
  exact ⟨_, rfl, by simp only [↓State.cmdErr_sensing, ↓State.setRing_sensing, ↓ite_sensing, ite_self]⟩

theorem execFitReturn_sensing (s : State) : ∃ t, (execFitReturn s) = .next t ∧ t.sensing = s.sensing := by
  exact ⟨_, rfl, by simp only [↓State.setFld_sensing, ↓ite_sensing, ite_self]⟩

theorem execDmaAbort_sensing (ch : Nat) (s : State) : ∃ t, (execDmaAbort ch s) = .next t ∧ t.sensing = s.sensing := by
  exact ⟨_, rfl, by simp only [↓State.stopChain_sensing, ↓ite_sensing, ite_self]⟩

@[simp] theorem State.clearRings_sensing (s : State) (b : Nat) : (s.clearRings b).sensing = s.sensing := by
  rw [State.clearRings]
  refine foldl_sensing _ (fun s c => ?_) _ _
  rfl

@[simp] theorem State.clearBars_sensing (s : State) : s.clearBars.sensing = s.sensing := by
  simp only [State.clearBars]
  rw [State.sensing_keep]
  refine (foldl_sensing _ (fun s b => State.showFill_sensing ..) _ _).trans
    ((foldl_sensing _ (fun s k => State.setBoard_sensing ..) _ _).trans
      ((foldl_sensing _ (fun s b => ?_) _ _).trans (foldl_sensing _ State.clearRings_sensing _ _)))
  simp only [↓State.setFld_sensing, ↓State.setBar_sensing]

theorem execArm_sensing (rq : Rq) (job : Nat) (s : State) :
    ∃ t, execArm rq job s = .next t ∧ t.sensing = s.sensing := by
  refine ⟨_, rfl, ?_⟩
  rw [State.run_sensing]
  intro s
  rw [State.withParams_sensing]
  intro s
  repeat' split
  all_goals simp only [↓State.finish_sensing, ↓State.reject_sensing, ↓State.enter_sensing, ↓State.setReq_sensing,
    ↓State.sensing_keep, ↓State.flushGaps_sensing, ↓State.giveUp_sensing, ↓State.clearBars_sensing,
    ↓State.undozeAll_sensing]

end Sys2Proof.Machine
end

