-- ==== Sys2Proof/Machine/Balls.lean ====
section
/-!
DEFINITION. The package (chapter 18): where each ball lies (R403 to R407), and the levels of the balls that show the
device's state (Table 18-8, R413).
-/
namespace Sys2Proof.Machine

/-- A ball by its interface, instance and place within the instance (Tables 18-2, 18-3, 18-6). -/
inductive Ball where
  /-- CAMnn_ -/
  | cam (port part : Nat)
  /-- HLnn_ -/
  | lane (lane part : Nat)
  /-- HLREFnn -/
  | laneRef (group : Nat)
  /-- PEnn_ -/
  | pcie (lane part : Nat)
  /-- PE_REFCLK_P, PE_REFCLK_N, PERST_N, CLKREQ_N -/
  | pcieSide (part : Nat)
  /-- ETHa_, ETHb_ -/
  | eth (port part : Nat)
  /-- FIREnn_ -/
  | fire (line part : Nat)
  /-- GATEnn_S, GATEnn_B -/
  | gate (gate part : Nat)
  /-- AXnn_ -/
  | axis (axis part : Nat)
  /-- ENCn_ -/
  | enc (input part : Nat)
  /-- SPSn_ -/
  | serial (sensor part : Nat)
  /-- ENCSUPn -/
  | encSupply (input : Nat)
  /-- SWnn -/
  | switch (n : Nat)
  /-- EVTnn -/
  | event (n : Nat)
  /-- HTSn -/
  | headSense (n : Nat)
  /-- SPDRQ_P, SPDRQ_N -/
  | speedRequest (part : Nat)
  /-- the miscellaneous balls of quadrant 0, in the order of Table 18-6 -/
  | misc (part : Nat)
  /-- ALERT_N -/
  | alert
  /-- SWNnn_SW1, SW2, OUT1, OUT2, OUT3 -/
  | phase (phase part : Nat)
  /-- SNSnn -/
  | sense (phase : Nat)
  /-- VIN -/
  | vin
  /-- THM -/
  | thermal
  /-- VSS -/
  | ground
  deriving DecidableEq, Repr

/-- Row and column of band index `i` of quadrant `q` (R405, Table 18-4). -/
def bandPlace (q i : Nat) : Nat × Nat :=
  let k := i / 56 + 1
  let a := i % 56
  match q with
  | 0 => (k, a + 1)
  | 1 => (a + 1, 65 - k)
  | 2 => (65 - k, 64 - a)
  | _ => (64 - a, k)

/-- The first band index of each run of instances, the balls of an instance, the number of instances, and what an
instance and its part are (Table 18-5). -/
structure BandRun where
  /-- first index -/
  first : Nat
  /-- balls of an instance -/
  width : Nat
  /-- instances -/
  count : Nat
  /-- first instance -/
  base : Nat
  /-- kind of ball: its number in `runBall` -/
  kind : Nat

/-- The ball of a run. -/
def runBall (kind n part : Nat) : Ball :=
  match kind with
  | 0 => .lane n part
  | 1 => .fire n part
  | 2 => .cam n part
  | 3 => .pcie n part
  | 4 => .pcieSide part
  | 5 => .eth n part
  | 6 => .misc part
  | 7 => .laneRef n
  | 8 => .axis n part
  | 9 => .gate n part
  | 10 => .speedRequest part
  | 11 => .headSense n
  | 12 => .alert
  | 13 => .switch n
  | 14 => .event n
  | 15 => .enc n part
  | 16 => .serial n part
  | _ => .encSupply n

/-- The runs of a quadrant's band from index 336 on. -/
def bandTail (q : Nat) : List BandRun :=
  match q with
  | 0 => [⟨336, 4, 16, 0, 3⟩, ⟨400, 4, 1, 0, 4⟩, ⟨404, 4, 2, 0, 5⟩, ⟨412, 21, 1, 0, 6⟩, ⟨433, 1, 3, 0, 7⟩]
  | 1 => [⟨336, 7, 8, 0, 8⟩, ⟨392, 2, 16, 0, 9⟩, ⟨424, 2, 1, 0, 10⟩, ⟨426, 1, 8, 0, 11⟩, ⟨434, 1, 1, 0, 12⟩, ⟨435, 1, 3, 3, 7⟩]
  | 2 => [⟨336, 7, 8, 8, 8⟩, ⟨392, 1, 32, 0, 13⟩, ⟨424, 1, 16, 0, 14⟩, ⟨440, 1, 3, 6, 7⟩]
  | _ => [⟨336, 6, 8, 0, 15⟩, ⟨384, 4, 8, 0, 16⟩, ⟨416, 1, 8, 0, 17⟩, ⟨424, 1, 16, 16, 14⟩, ⟨440, 1, 3, 9, 7⟩]

/-- The runs of a quadrant's band. -/
def bandRuns (q : Nat) : List BandRun :=
  [⟨0, 4, 24, 24 * q, 0⟩, ⟨96, 2, 12, 12 * q, 1⟩, ⟨120, 36, 6, 6 * q, 2⟩] ++ bandTail q

/-- The ball at a band index (R406); the indices after the last signal are VSS. -/
def bandBall (q i : Nat) : Ball :=
  match (bandRuns q).find? fun r => decide (r.first ≤ i) && decide (i < r.first + r.width * r.count) with
  | some r => runBall r.kind (r.base + (i - r.first) / r.width) ((i - r.first) % r.width)
  | none => .ground

/-- The ball of a regulator phase at one of its six places: SW1, SW2, OUT1, OUT2, OUT3, SNS (Table 18-7). -/
def phaseBall (p place : Nat) : Ball := if place = 5 then .sense p else .phase p place

/-- An interior ball (R407, Table 18-7). -/
def innerBall (r c : Nat) : Ball :=
  let p := (c - 9) / 2
  let side := (c - 9) % 2
  if 9 ≤ r ∧ r ≤ 11 then phaseBall p (2 * (r - 9) + side)
  else if 54 ≤ r ∧ p < 16 then phaseBall (24 + p) (2 * (56 - r) + side)
  else if (12 ≤ r ∧ r ≤ 19 ∨ 46 ≤ r ∧ r ≤ 55) ∧ (r + c) % 2 = 0 then .vin
  else if 29 ≤ r ∧ r ≤ 36 ∧ 29 ≤ c ∧ c ≤ 40 then .thermal
  else .ground

/-- The quadrant's band that a ball outside the interior lies in, with its index. -/
def bandOf (r c : Nat) : Nat × Nat :=
  if r ≤ 8 ∧ c ≤ 56 then (0, 56 * (r - 1) + (c - 1))
  else if 57 ≤ c ∧ r ≤ 56 then (1, 56 * (64 - c) + (r - 1))
  else if 57 ≤ r ∧ 9 ≤ c then (2, 56 * (64 - r) + (64 - c))
  else (3, 56 * (c - 1) + (64 - r))

/-- The ball at row `r`, column `c`, 1 to 64 (R403 to R407). -/
def ballAt (r c : Nat) : Ball :=
  if 9 ≤ r ∧ r ≤ 56 ∧ 9 ≤ c ∧ c ≤ 56 then innerBall r c
  else
    let b := bandOf r c
    bandBall b.1 b.2

/-! The state that balls show (Table 18-8). An open-drain ball is low or released; unpowered, it is released (R413). -/

/-- FAULT_N is low: in BOOTING and HALTED. -/
def State.faultLow (s : State) : Bool := s.pwr.off.isNone && s.inSt [stBooting, stHalted]

/-- ALERT_N is low: the die or a stack is at or above 105 degrees. -/
def State.alertLow (s : State) : Bool :=
  s.pwr.off.isNone && (decide (105 ≤ s.fldI Reg.PACE_MEAS_TJ_C) ||
    (List.range 4).any fun q => decide (105 ≤ s.fldI (stackTemp q)))

/-- PGOOD is released: every regulator runs, and VCORE is where it is meant to be (DEDUCED: RAMPING is 0). -/
def State.powerGood (s : State) : Bool :=
  s.pwr.off.isNone && decide (3 ≤ s.fld Reg.PLAT_BOOT_STEP) && s.awake && !s.flag Reg.PACE_STATUS_RAMPING

end Sys2Proof.Machine
end

