-- ==== Sys2Proof/WellFormed.lean ====
section
/-!
DEFINITION. Well-formed commands: what a packet's fields and a happening of the hardware can name. Packet fields fit
their widths (Table 04-7); the instances of units exist (chapter 01 and the field maps). A command that is not well
formed is none of the spec's: nothing can send it.
-/
namespace Sys2Proof

/-- A request that an arbiter of that number can see (R52): bursts enter at junctions, lane traffic at lane group muxes,
and a carried input number is 0 to 7. -/
def ArbReq.wf (arb : Nat) : ArbReq → Bool
  | .enter _ _ => decide (arb < 16)
  | .carried i _ => decide (i < 8) && decide (arb < 88)
  | .lineFrame _ => decide (88 ≤ arb)
  | .laneControl _ => decide (88 ≤ arb)
  | .ring _ _ => decide (88 ≤ arb)

/-- A tag and sequence number that a header can carry (Table 04-1), and the lock it may name (R80). -/
def Rq.wfAnyTag (rq : Rq) : Bool :=
  decide (rq.tag < 256) && decide (rq.seq < 4294967296) &&
    (match rq.lock with | some k => decide (k < 56) | none => true)

/-- As `wfAnyTag`, with one of the 64 tags of a session. A session of 256 and up is the name of a command whose session has
closed (R93). -/
def Rq.wf (rq : Rq) : Bool := decide (rq.tag < 64) && rq.wfAnyTag

/-- A chunk's fields (R104). -/
def Chunk.wf (c : Chunk) : Bool :=
  decide (c.inst < 65536) && decide (c.flags < 256) && decide (c.offset < 4294967296) && decide (c.total < 4294967296) &&
    decide (c.data.length ≤ 4068)

/-- An entry's address is 32 bits (Table 04-7). -/
def RegEntry.wf (e : RegEntry) : Bool := decide (e.addr < 4294967296)

/-- A ring, an Ethernet address, or a chain member's session. -/
def PktSrc.wf : PktSrc → Bool
  | .ring r => decide (r < 4)
  | .eth ip port => decide (ip < 4294967296) && decide (port < 65536)
  | .chain dev sess => decide (dev < 8) && decide (sess < 256)

/-- An access lies in device memory (R304) on one of the eight inputs, and its upsets name one of the 18 symbols. -/
def MemAccess.wf (a : MemAccess) : Bool :=
  decide (a.addr + a.len ≤ 68719476736) && decide (a.input < 8) &&
    a.upsets.all fun e => decide (e.word < 4294967296) && decide (e.symbol < 18) && decide (e.pattern < 256)

/-- A number of 64 bits in two's complement. -/
def in64 (x : Int) : Bool := decide (-9223372036854775808 ≤ x) && decide (x < 9223372036854775808)

/-- An assignment names all 32 half clusters (R24). -/
def halvesWf : Option (List Half) → Bool
  | some l => l.length == 32
  | none => true

/-- An optional number below a bound. -/
def optBelow (n : Nat) : Option Nat → Bool
  | some x => decide (x < n)
  | none => true

/-- An optional command. -/
def optRq : Option Rq → Bool
  | some rq => rq.wf
  | none => true

/-- The command can be sent, or can happen. -/
def instrWf : Instr → Bool
  | .deviceReset _ _ => true
  | .supplyShutdown cause => decide (cause < 5)
  | .supplyRestart _ => true
  | .reverseBlock => true
  | .phaseDisable phase => decide (phase < 40)
  | .zoneFault group line => decide (group < 4) && decide (line < 32)
  | .commandPacket src _ => src.wf
  | .dbCmd ring idx => decide (ring < 4) && decide (idx < 4294967296)
  | .dbRpl ring idx => decide (ring < 4) && decide (idx < 4294967296)
  | .dbFetch ring value => decide (ring < 4) && decide (value < 4294967296)
  | .replyRingStallTimeout ring => decide (ring < 4)
  | .cmdRingEnableWrite ring _ => decide (ring < 4)
  | .ethSessionIdleTimeout sess => decide (sess < 256)
  | .keyLockoutEnd slot => decide (slot < 4)
  | .barrierEngage => true
  | .nop rq => rq.wf
  | .getState rq => rq.wf
  | .replyFetch rq tag => rq.wf && decide (tag < 256)
  | .readReg rq addr count => rq.wf && decide (addr < 4294967296) && decide (count < 65536)
  | .writeReg rq addr vals => rq.wf && decide (addr < 4294967296) && decide (vals.length ≤ 1018)
  | .modifyReg rq entries => rq.wf && entries.all RegEntry.wf
  | .lockAcquire rq lock waitMs => rq.wf && decide (lock < 256) && decide (waitMs < 65536)
  | .lockWaitTimeout lock sess => decide (lock < 64) && decide (sess < 256)
  | .lockRelease rq lock => rq.wf && decide (lock < 256)
  | .lockHoldExpiry lock => decide (lock < 64)
  | .lockHoldLimitWrite lock limit => decide (lock < 64) && decide (limit < 16)
  | .engineLockRequest engine lock _ => decide (engine < 256) && decide (lock < 64)
  | .sessionOpen ip port rq _ => decide (ip < 4294967296) && decide (port < 65536) && decide (rq.sess = 255) && rq.wfAnyTag
  | .sessionClose rq sess => rq.wf && decide (sess < 256)
  | .keySet rq slot _ => rq.wf && decide (slot < 256)
  | .configLoad rq chunk assign => rq.wf && chunk.wf && halvesWf assign
  | .configCheck rq chunk assign => rq.wf && chunk.wf && halvesWf assign
  | .serviceEnter rq => rq.wf
  | .serviceExit rq => rq.wf
  | .sleep rq => rq.wf
  | .sleepEntryComplete => true
  | .wake rq => rq.wf
  | .wakePin => true
  | .wakeComplete _ => true
  | .jobOpen rq job mask => rq.wf && decide (job < 4294967296) && decide (mask < 65536)
  | .pageSubmit rq page ch len => rq.wf && decide (page < 4294967296) && decide (ch < 256) && decide (len < 4294967296)
  | .pageSubmitStart => true
  | .pageRepeat rq handle count => rq.wf && decide (handle < 4294967296) && decide (count < 4294967296)
  | .jobClose rq job => rq.wf && decide (job < 4294967296)
  | .arm rq job => rq.wf && decide (job < 4294967296)
  | .start rq pos => rq.wf && in64 pos
  | .pause rq => rq.wf
  | .resume rq pos => rq.wf && in64 pos
  | .stop rq => rq.wf
  | .barDelaySet rq bar delay => rq.wf && decide (bar < 256) && decide (delay < 18446744073709551616)
  | .nozzleMapLoad rq chunk => rq.wf && chunk.wf
  | .thresholdLoad rq chunk => rq.wf && chunk.wf
  | .substituteSet rq chunk => rq.wf && chunk.wf
  | .toneCurveLoad rq chunk => rq.wf && chunk.wf
  | .gainLoad rq chunk => rq.wf && chunk.wf
  | .boardProfileLoad rq chunk => rq.wf && chunk.wf
  | .gateTest rq gate board first count => rq.wf && decide (gate < 256) && decide (board < 256) && decide (first < 65536) && decide (count < 65536)
  | .gateShot gate _ _ _ => decide (gate < 16)
  | .cameraSet rq port ident expo gain => rq.wf && decide (port < 256) && decide (ident < 65536) && decide (expo < 4294967296) && decide (gain < 65536)
  | .cameraSetTransfer port => decide (port < 24)
  | .sensorTransferEnd port _ => decide (port < 24)
  | .sensorXfer rq port _ => rq.wf && decide (port < 256)
  | .colourModelLoad rq chunk => rq.wf && chunk.wf
  | .coverageLoad rq chunk => rq.wf && chunk.wf
  | .blurLoad rq chunk => rq.wf && chunk.wf
  | .resampleCoefLoad rq chunk => rq.wf && chunk.wf
  | .classSet rq chunk => rq.wf && chunk.wf
  | .recordRingSet rq ring vector addr size => rq.wf && decide (ring < 256) && decide (vector < 256) && decide (addr < 18446744073709551616) && decide (size < 4294967296)
  | .nozzleStateSet rq idx state hold => rq.wf && decide (idx < 4294967296) && decide (state < 256) && decide (hold < 256)
  | .nozzleStateRead rq first count => rq.wf && decide (first < 4294967296) && decide (count < 4294967296)
  | .axisMove rq axis mode target speed => rq.wf && decide (axis < 256) && decide (mode < 256) && in64 target && decide (speed < 4294967296)
  | .axisStop rq axis ramp => rq.wf && decide (axis < 256) && decide (ramp < 256)
  | .axisHome rq axis dir => rq.wf && decide (axis < 256) && decide (dir < 256)
  | .axisProfileSet rq axis acc dec jerk => rq.wf && decide (axis < 256) && decide (acc < 4294967296) && decide (dec < 4294967296) && decide (jerk < 4294967296)
  | .microstepLoad rq chunk => rq.wf && chunk.wf
  | .posReference rq enc pos => rq.wf && decide (enc < 256) && in64 pos
  | .axisStatus rq axis => rq.wf && decide (axis < 256)
  | .timeRead rq dom => rq.wf && decide (dom < 256)
  | .timeAdjust rq dom inc adj => rq.wf && decide (dom < 256) && decide (inc < 18446744073709551616) && in64 adj
  | .domainSelect rq dom => rq.wf && decide (dom < 256)
  | .eventFire rq sw => rq.wf && decide (sw < 256)
  | .fwStage rq chunk => rq.wf && chunk.wf
  | .fwSwitch rq => rq.wf
  | .fwHandover => true
  | .fwFallbackEnd => true
  | .kernelRotationStep => true
  | .spareStatus rq => rq.wf
  | .calRun rq kind inst => rq.wf && decide (kind < 256) && decide (inst < 256)
  | .darkCalDone port => decide (port < 24)
  | .paperCalDone port => decide (port < 24)
  | .calRead rq kind inst start => rq.wf && decide (kind < 256) && decide (inst < 256) && decide (start < 4294967296)
  | .calStorePeriodic => true
  | .faultLogRead rq first => rq.wf && decide (first < 4294967296)
  | .faultLogCopy => true
  | .monBinsLoad rq chunk => rq.wf && chunk.wf
  | .monSnapshot rq mask start => rq.wf && decide (mask < 18446744073709551616) && decide (start < 65536)
  | .chainStatus rq => rq.wf
  | .chainRescan rq => rq.wf
  | .bar0Write addr _ be => decide (addr < 16777216) && decide (be < 16)
  | .readClear _ addr => decide (addr < 16777216)
  | .loLatchRead _ addr => decide (addr < 16777216)
  | .arbiterGrant _ arb reqs => decide (arb < 100) && reqs.all (ArbReq.wf arb)
  | .arbiterStuck arb input cmd => decide (arb < 164) && decide (input < 8) && optRq cmd
  | .arbFairnessWrite junction mode => decide (junction < 16) && decide (mode < 4)
  | .paceInterval _ => true
  | .fitReturn => true
  | .tjOver _ => true
  | .vcoreLow => true
  | .paceModeWrite mode => decide (mode < 4)
  | .paceVcapWrite mv => decide (mv < 1024)
  | .dmaRun ch => decide (ch < 64)
  | .dmaAbort ch => decide (ch < 64)
  | .dmaDescriptorFetch ch _ => decide (ch < 64)
  | .dmaDescriptorComplete ch _ => decide (ch < 64)
  | .pcieCompletionError kind addr _ => decide (2 ≤ kind) && decide (kind < 5) && decide (addr < 18446744073709551616)
  | .pcieCompletionTimeout addr _ => decide (addr < 18446744073709551616)
  | .dmaBusHaltClear => true
  | .kpsJobHeader ch _ => decide (ch < 64)
  | .kpsPageHeader ch _ => decide (ch < 64)
  | .kpsBlock ch _ => decide (ch < 64)
  | .kpsTrailer ch _ => decide (ch < 64)
  | .segmentAssign => true
  | .segmentSwitch unit => decide (unit < 16)
  | .segmentComplete unit => decide (unit < 16)
  | .dcmpEnableWrite unit _ => decide (unit < 16)
  | .compressStreamStart unit => decide (unit < 4)
  | .compressStreamEnd unit => decide (unit < 4)
  | .sliceExpand bar _ => decide (bar < 16)
  | .frameAssemble bar _ => decide (bar < 16)
  | .doseSwapRequest bar => decide (bar < 16)
  | .doseSwap bar => decide (bar < 16)
  | .lineTransmit board => decide (board < 48)
  | .decisionPoint board => decide (board < 48)
  | .fireStrobe board => decide (board < 48)
  | .strobeFall board => decide (board < 48)
  | .strobeWatchdog board => decide (board < 48)
  | .echo board _ => decide (board < 48)
  | .echoTimeout board => decide (board < 48)
  | .credit board _ => decide (board < 48)
  | .helloReply board _ => decide (board < 48)
  | .helloRepeat board => decide (board < 48)
  | .boardEnableWrite board _ => decide (board < 48)
  | .fireClear board => decide (board < 48)
  | .yoyoInterval => true
  | .energyCapExpiry => true
  | .spdrqWord => true
  | .fireTos bar => decide (bar < 16)
  | .cameraTrigger port => decide (port < 24)
  | .frameOpen port => decide (port < 24)
  | .frameClose port => decide (port < 24)
  | .cameraPortLine port _ => decide (port < 24)
  | .capEnableWrite port _ => decide (port < 24)
  | .stripeProcess pipe => decide (pipe < 8)
  | .gainSetCompute port => decide (port < 24)
  | .kalPdatWrite pipe _ => decide (pipe < 8)
  | .kalApply pipe => decide (pipe < 8)
  | .resampleLine port => decide (port < 24)
  | .rsmpPdatWrite unit _ => decide (unit < 8)
  | .rsmpApply unit => decide (unit < 8)
  | .rsmpSwap unit => decide (unit < 8)
  | .gridLineCompare => true
  | .frameStatistics port => decide (port < 24)
  | .recordDeliver ring => decide (ring < 2)
  | .consumerIndexPoll ring (.index i) => decide (ring < 2) && decide (i < 4294967296)
  | .consumerIndexPoll ring (.failed kind) => decide (ring < 2) && decide (1 ≤ kind) && decide (kind < 5)
  | .recordRingFullTimeout ring => decide (ring < 2)
  | .findingApply => true
  | .loopSwapStage bar => decide (bar < 16)
  | .loopLate bar => decide (bar < 16)
  | .loopEnWrite mask => decide (mask < 65536)
  | .modLimitWrite limit => decide (limit < 128)
  | .quadStep enc _ _ _ => decide (enc < 8)
  | .quadDoubleStep enc _ => decide (enc < 8)
  | .indexEdge enc _ => decide (enc < 8)
  | .stillTimeout enc => decide (enc < 8)
  | .ssiRead unit _ => decide (unit < 8)
  | .axisUpdate axis => decide (axis < 16)
  | .axisHoldCurrent axis => decide (axis < 16)
  | .followStep axis => decide (axis < 16)
  | .followWrite axis _ => decide (axis < 16)
  | .switchAccept sw _ _ => decide (sw < 32)
  | .axisStageFault axis => decide (axis < 16)
  | .axisEnableWrite axis _ => decide (axis < 16)
  | .domainPps dom => decide (dom < 2)
  | .alarmArm dom ns => decide (dom < 2) && decide (ns < 1073741824)
  | .alarmFire dom => decide (dom < 2)
  | .periodic unit => decide (unit < 2)
  | .sourceAbsent => true
  | .ptpMessage port m => decide (port < 2) && decide (m.portState < 7) && m.utcOffset.all (fun u => decide (u < 65536))
  | .ethFrameReceive port _ => decide (port < 2)
  | .eventRaise prod tag => decide (prod < 128) && optBelow 16 tag
  | .pinEdge pin _ _ => decide (pin < 32)
  | .pinPulse pin => decide (pin < 32)
  | .tscapCapture unit => decide (unit < 8)
  | .tscapRelease _ => true
  | .wakeEvent => true
  | .axisEstop axis => decide (axis < 16)
  | .printPause => true
  | .printStop => true
  | .monSnapshotEvent => true
  | .monRestart => true
  | .detRefresh ch => decide (ch < 64)
  | .bankRefresh ch bank => decide (ch < 64) && decide (bank < 128)
  | .selfRefreshEntry ch => decide (ch < 64)
  | .impedanceCal ch => decide (ch < 64)
  | .retraining ch => decide (ch < 64)
  | .memoryAccess acc => acc.wf
  | .throttleRelease ch => decide (ch < 64)
  | .scrubRead => true
  | .stackEmergency stack _ => decide (stack < 4)
  | .memDetWrite d => decide (d < 16)
  | .memInject _ => true
  | .chkFeed unit _ => decide (unit < 32)
  | .chkCheck unit => decide (unit < 32)
  | .chkReset unit => decide (unit < 32)
  | .chkDataWrite unit _ => decide (unit < 32)
  | .chkDataRead _ unit => decide (unit < 32)
  | .laneTargetWrite lane target => decide (lane < 96) && decide (target < 4)
  | .eqAdapt lane _ => decide (lane < 96)
  | .laneLock lane _ => decide (lane < 96)
  | .laneLockLoss lane _ => decide (lane < 96)
  | .linkReady lane blk => decide (lane < 96) && blk.length == 8
  | .linkRateReq lane blk => decide (lane < 96) && blk.length == 8
  | .linkRateAck lane blk => decide (lane < 96) && blk.length == 8
  | .rateReqTimeout lane => decide (lane < 96)
  | .linkAlign lane blk pos => decide (lane < 96) && blk.length == 8 && decide (pos < 16384)
  | .takeoverStart group => decide (group < 12)
  | .takeoverSwitch group _ => decide (group < 12)
  | .takeoverTimeout group => decide (group < 12)
  | .takeoverRecalDone group _ => decide (group < 12)
  | .pcieReset _ => true
  | .msixUnmask vector => decide (vector < 256)
  | .chainDiscovery => true
  | .token _ _ => true
  | .leader _ _ => true
  | .ringTimeSend => true
  | .time _ _ => true
  | .delayReq _ _ => true
  | .delayResp _ _ => true
  | .positionSend => true
  | .position _ _ => true
  | .positionTimeout => true
  | .config _ _ => true
  | .chainStandbyEntry => true
  | .cmd _ _ => true
  | .reply _ _ => true
  | .chainCredit _ _ => true
  | .chainLinkLoss _ => true
  | .engineDoze engine => decide (engine < 256)
  | .engineUndoze engine => decide (engine < 256)
  | .spareTakeover engine cause _ => decide (engine < 256) && decide (cause < 5)
  | .supervisorTakeover cause _ => decide (cause < 4)
  | .monitorSample unit _ => decide (unit < 64)
  | .monitorWindowEnd unit => decide (unit < 64)
  | .monitorConfigWrite unit reg _ => decide (unit < 64) && decide (reg < 3)
  | .stackEmergencyEnd stack _ => decide (stack < 4)
  | .tjOverEnd _ => true
  | .residualSlewEnd => true
  | .inactiveSourceAbsent => true
  | .announceReceiptTimeout port => decide (port < 2)
  | .ethLinkChange port _ _ _ => decide (port < 2)
  | .perstRelease speed width => decide (speed < 16) && decide (width < 64)
  | .interruptCoalesce ring => decide (ring < 2)
  | .faultedPairTestDone _ => true
  | .switchRawEdge sw _ => decide (sw < 32)
  | .engineLockRelease engine lock => decide (engine < 256) && decide (lock < 64)
  | .mgmtPortAccess select _ => optBelow 64 select

end Sys2Proof
end

