-- ==== Sys2Proof/Tests/Slice0.lean ====
section
/-!
SUPPORT. Tests: values that the spec works out, ill-formed terms that WellFormed refuses, and for every statement that has
hypotheses states and operands that meet them, clause by clause.
-/
namespace Sys2Proof.Machine.Tests

set_option Elab.async false

open Sys2Proof Sys2Proof.Machine

/-! States and operands. -/

/-- A device in a state. -/
def inState (st : Nat) : State := State.reset.enter st

def rdy : State := inState stReady

def q0 : Rq := { sess := 0, tag := 5, seq := 7 }

/-- Session and slot with a command under way. -/
def openSlot (n t op : Nat) : State := rdy.setSlot n t { taken := true, opcode := op, seq := 7 }

def doneSlot : State := rdy.setSlot 0 63 { taken := true, done := true, opcode := 1, seq := 7, status := 1 }

def ethSlot : State := (rdy.openSession 4 (.eth 0x0A000001 5000)).setSlot 4 3 { taken := true, done := true, opcode := 1, seq := 7 }

def ringOn : State := (rdy.setFld (Reg.CMD_CFG_ENABLE 0) 1).setFld (Reg.CMD_CFG_ENABLE 3) 1

def heldLock (k n : Nat) : State := (rdy.setFld (Reg.LOCK_STATE k) 1).setFld (Reg.LOCK_OWNER k) n

def ptpOn : State := ((rdy.setFld (Reg.TIME_PTP_ENABLE 1) 1).setFld (Reg.TD_CTRL_SRC 1) 2).setFld (Reg.TD_CTRL_SRC 0) 5

/-- Producer p joined to channel c, selected by consumer k alone. -/
def evtRoute (p c k : Nat) : State :=
  (rdy.setReg (Reg.EVT_MAT (4 * c + p / 32)) (BitVec.ofNat 32 (2 ^ (p % 32)))).setReg (Reg.EVT_CSEL (k / 4))
    (BitVec.ofNat 32 ((128 + c) * 256 ^ (k % 4)))

/-- Fields written one after the other. -/
def sets (s : State) (l : List (Fld × Nat)) : State := l.foldl (fun s e => s.setFld e.1 e.2) s

/-- A whole table in one chunk. -/
def whole (inst : Nat) (data : List Byte) : Chunk := ⟨inst, 1, 0, data.length, data⟩

def enc7 : State := sets rdy [(Reg.POS_CTRL_ENABLE 7, 1), (Reg.POS_CTRL_DECODE 7, 2), (Reg.POS_SCALE_NUM 7, 3), (Reg.POS_SCALE_DEN 7, 2)]

def ax (a st : Nat) : State := rdy.setFld (Reg.AX_STATUS_STATE a) st

def axPlan : AxisPlan := { goal := some 100, segs := moveSegs 100 1000 1000000 1000000 0 }

def axRun (a : Nat) : State := (ax a axMoving).setAxis a { plan := some axPlan, cmd := some ⟨0, 5⟩ }

def sealed (b : List Byte) : List Byte := b ++ leBytes 4 (crc32c (b ++ leBytes 4 0))

/-- A command packet without payload. -/
def pkt (op tag flags sess target seq : Nat) : List Byte :=
  sealed (leBytes 2 op ++ bytesOf [tag, flags] ++ leBytes 2 0 ++ bytesOf [sess, target] ++ leBytes 4 seq)

def ethOn : State := rdy.openSession 15 (.eth 1 2)

def ringRdy : State := (ringOn.setFld (Reg.CMD_CFG_RSIZE 3) 8).setRing 3 { cmdProd := 1 }

def imgEnd : List Byte := leBytes 4 0 ++ leBytes 2 0 ++ leBytes 2 0

def okState (r : Except ImageFault State) : State := match r with | .ok u => u | .error _ => rdy

def doneState (r : WriteEnd) : State := match r with | .done u => u | _ => rdy

def badImg : List Byte := leBytes 4 0x123 ++ leBytes 2 0 ++ leBytes 2 0

def rowAt (a : Nat) : RegRow × Nat := match planRow a with | some x => x | none => (⟨0, 0, 0, []⟩, 0)

def rcField (r : RegRow) : FieldRow := match r.fields.find? fun f => f.access == .rc with | some f => f | none => ⟨0, 0, .rw, 0, 0⟩

def faultOf (r : Except ImageFault State) : ImageFault := match r with | .ok _ => ⟨0, 0, 0, none⟩ | .error f => f

/-- Device 3 is a neighbour to the east. -/
def chainOn : State := { (sets ethOn [(Reg.PLAT_STRAPS_WIDTH, 1), (Reg.LANE_STATUS_UP 88, 1)]) with chain := { eastMembers := [{ id := 3 }] } }

/-- A device whose port 0 reaches the hosts of 10.0.0.0/24. -/
def ethNet (s : State) : State :=
  sets s [(Reg.ETH_CTRL_ENABLE 0, 1), (Reg.ETH_CTRL_PREFIX 0, 24), (Reg.ETH_IP_IP 0, 0x0A000002)]

def host1 : Nat := 0x0A000001

def axEnd (a : Nat) : State := (ax a axMoving).setAxis a { plan := some { axPlan with n := 1000000 }, cmd := some ⟨0, 5⟩ }

/-- A board profile that Table 07-1 admits: 4 nozzles, one lane, fire line 47. -/
def prof47 : List Byte :=
  leBytes 2 4 ++ bytesOf [1, 4, 72, 255, 47, 1] ++ leBytes 4 1 ++ leBytes 2 100 ++ leBytes 2 100 ++ leBytes 2 500 ++ leBytes 2 1 ++
    leBytes 2 400 ++ bytesOf [16, 0] ++ leBytes 4 1 ++ leBytes 36 0

/-- A map of one nozzle, on board 47. -/
def map47 : List MapEntry := [{ pos := 0, board := 47 }]

/-- Bar 15 mapped, with board 47 in use. -/
def barS : State :=
  sets ((rdy.setBar 15 { map := map47 }).setBoard 47 { profile := some prof47 })
    [(Reg.DOSE_BAR_BUF_LINES 15, 16), (Reg.DOSE_BAR_CONC_MAX 15, 16), (Reg.FIRE_B_CTRL_ENABLE 47, 1),
     (Reg.FIRE_B_STATUS_CREDITS 47, 3), (Reg.FIRE_B_STATUS_STATE 47, 3)]

def jobS : State := { barS with job := { active := true, num := 7, mask := 0x8000 } }

/-- Printing, with a page queued and every position passed. -/
def prn : State :=
  let j : JobUnit := ⟨true, 7, 0x8000, false, [{ id := 0, page := some 1, handle := 1 }], 1, [{ handle := 1, width := 1, lines := 8 }], 0, []⟩
  let s := ({ jobS with job := j } : State).enter stPrinting
  { s with ppos := { s.ppos with high := 100000 } }

def pay47 : List Byte := [1#8]

/-- Frame 0 of board 47 stands in the bar buffer. -/
def prnF : State := prn.writeFrame 15 47 0 ⟨pay47, crc32 pay47, false, 0⟩

def frameIn (s : State) : BoardFrame := (s.validFrame 15 47 0).getD {}

def sentIn (s : State) (fr : BoardFrame) : List Byte := (s.sentCopy 15 47 0 fr).getD []

def testG (todo : List Nat) : GateTest := { sess := 0, tag := 5, gate := 15, board := 47, todo := todo }

def gateS (todo : List Nat) : State := { barS with fire := { barS.fire with test := some (testG todo) } }

def thrB : List Byte := leBytes 2 1 ++ leBytes 2 1 ++ bytesOf [1] ++ leBytes 11 0 ++ leBytes 2 1 ++ leBytes 2 2 ++ leBytes 2 3

def subB : List Byte := leBytes 2 1 ++ bytesOf [1] ++ leBytes 13 0 ++ leBytes 64 0 ++ leBytes 4 0

def subE : List Byte := leBytes 2 0 ++ bytesOf [1] ++ leBytes 13 0 ++ leBytes 64 0

def loopOn (s : State) : State := s.setFld Reg.NOZ_CTRL_LOOP_EN 0x8000

/-- A Heruf-H packet from a board. -/
def fromBoard (type frame : Nat) (body : List Byte) : List Byte :=
  let h := bytesOf [type, 0] ++ leBytes 2 16 ++ leBytes 4 frame ++ leBytes 4 (crc32 body)
  h ++ leBytes 4 (crc32c h) ++ body

def body16 (l : List Nat) : List Byte := (bytesOf l ++ List.replicate 16 0#8).take 16

/-- Frame 0 decided, its strobe risen or not. -/
def dec0 (strobed : Bool) : Decided := { frame := 0, due := 0, strobed := strobed }

def decS (strobed : Bool) : State := prn.setBoard 47 { prn.board 47 with decided := [dec0 strobed], dec := 1 }

/-- A DMA descriptor of 4 bytes for device address 0x370000000, the last of its chain. -/
def dsc (kind flags next : Nat) : List Byte :=
  leBytes 8 0x5000 ++ leBytes 4 4 ++ bytesOf [kind, flags] ++ leBytes 2 0 ++ leBytes 8 (if kind = 0 then 0 else 0x370000000) ++ leBytes 8 next

/-- Channel 63 running, with or without a descriptor in progress. -/
def dmaS (x : DmaChan) : State := ({ rdy with hostSize := 1 } : State).setFld (Reg.DMA_STATUS_ACTIVE 63) 1 |>.setDmaCh 63 x

/-- A page ingest on channel 63. -/
def kpsS (x : Ingest) : State := { jobS with ingest := { jobS.ingest with pages := [(63, x)] } }

def hdrCrc (b : List Byte) : List Byte := b ++ leBytes 4 (crc32c b)

def jobHdr : List Byte := hdrCrc (kpsj ++ leBytes 2 1 ++ leBytes 2 64 ++ leBytes 4 7 ++ leBytes 2 0x8000 ++ bytesOf [b2n jobS.deep4 + 1] ++ leBytes 45 0)

/-- A page header with one plane of 1 by 1 pixel, form 0. -/
def pageHdr : List Byte :=
  hdrCrc (kpsp ++ leBytes 2 64 ++ bytesOf [1, 0] ++ leBytes 4 3 ++ leBytes 4 1 ++ leBytes 4 1 ++ leBytes 4 2 ++ leBytes 4 0 ++ leBytes 32 0) ++
  hdrCrc (bytesOf [15, 0, 0, 0] ++ leBytes 8 1 ++ leBytes 4 1 ++ leBytes 12 0)

def plane1 : PlaneIn := { bar := 15, form := 0, size := 1, blocks := 1 }

def okPlanes (r : Except (Nat × Nat × Nat) (List PlaneIn)) : List PlaneIn := match r with | .ok l => l | .error _ => []

/-- A raw block of one byte that opens a segment of plane 0 (or goes on in it) and closes the plane. -/
def blk (flags : Nat) : List Byte := hdrCrc (bytesOf [0, 0, flags, 0] ++ leBytes 4 1 ++ leBytes 4 1) ++ leBytes 4 0x55

def seg0 : Segment := { plane := 0, ctx := 512, staged := [{ off := 0, olen := 1, room := 1, data := [0x55#8] }] }

def fedOf (r : Except (Nat × Nat × Nat) (Segment × List Byte)) : Segment × List Byte := match r with | .ok x => x | .error _ => ({}, [])

def onUnit3 (g : Segment) : State := (kpsS { active := true, stage := 2, planes := [plane1], segs := [g] }).setFld (Reg.DCMP_STATUS_BUSY 3) 1

def recS (x : RecRing) : State := { rdy with insp := rdy.insp }.setRecRing 1 x

def crop1 : CropJob := { crop := 5, header := List.replicate 32 0x11#8, data := [1#8, 2#8, 3#8] }

/-- Port 23 enabled: two pixels, two lines a frame. -/
def capS (x : Cam) : State :=
  (sets rdy [(Reg.CAP_CTRL_ENABLE 23, 1), (Reg.CAP_GEOM_PIXELS 23, 2), (Reg.CAP_GEOM_LINES 23, 2), (Reg.CAP_TRIG_PITCH 23, 65536),
    (Reg.CAP_CTRL_BITS 23, 2)]).setCam 23 x

def frame9 : CamFrame := { num := 9 }

def capF (x : Cam) : State := capS { x with fsync := true, frames := [frame9], nextFrame := 10 }

def xfer1 : CamXfer := { sess := 0, tag := 5, ident := 77, bytes := [1#8, 2#8] }

/-- The tag of a command is taken. -/
def withSlot (s : State) (op : Nat) : State := s.setSlot 0 5 { taken := true, opcode := op, seq := 7 }

/-- A run of 1,024 lines of one column. -/
def calJob (kind : Nat) (v : Int) : CalJob := ⟨kind, 0, 5, 1024, List.replicate 1024 [[v], [v], [v]]⟩

def calS (kind : Nat) (v : Int) : State := withSlot ((capS { run := some (calJob kind v) }).setFld (Reg.CAP_GEOM_PIXELS 23) 1) 0x0300

def rs16 : List Nat := [0, 0, 0x01000000, 16 * 65536, 0, 0, 0, 0, 0, 0, 0, 0, 0, 0, 0, 0]

def line9 : CapLine := { trig := { pos := 300 }, frame := 9, rows := [[1, 2], [3, 4], [5, 6]] }

def longLine : CapLine := { trig := { pos := 300 }, frame := 9, rows := [List.replicate 300 7, List.replicate 300 7, List.replicate 300 7] }

def jigOn (x : Cam) : State := (capS x).setFld Reg.JIG_CTRL_ENABLE 1

def grid5 : GridLine := { m := 5, frame := 9, pix := List.replicate 48 100 }

def bytes0 (n : Nat) : List Byte := List.replicate n 0#8

def coefB : List Byte := leBytes 2 16384 ++ bytes0 30

def coefT : List Byte := bytes0 16 ++ (List.replicate 64 coefB).flatten

def blurT : List Byte := bytes0 16 ++ leBytes 2 1024 ++ bytes0 50

def classT : List Byte := bytes0 16 ++ (List.range 4).flatMap fun k => leBytes 2 (k + 1) ++ leBytes 2 1 ++ bytes0 4

def stagedS (op inst : Nat) (t : List Byte) : State := rdy.setStaged op inst ⟨t.length + 4, false, t⟩

def slotBValid : State := rdy.setFld Reg.NVC_SLOT_B_VALID 1

def switchS : State := withSlot ({ slotBValid.setFld Reg.SPARE_FW_STATE 3 with spare := { slotBValid.spare with switch := some ⟨0, 5⟩ } } : State) 0x0501

def taking : State := { rdy.setFld Reg.SPARE_PSUP_TAKEOVER 1 with now := 900000 }

def binsT : List Byte := bytes0 16 ++ (List.range 31).flatMap fun i => leBytes 4 i

def runMon (mode : Nat) (x : Mon) : State :=
  (sets rdy [(Reg.MON_CFG_ENABLE 63, 1), (Reg.MON_STATUS_RUNNING 63, 1), (Reg.MON_CFG_WIN_MODE 63, mode), (Reg.MON_CFG_SOURCE 63, 1), (Reg.MON_WIN_LEN 63, 3)]).setMon 63 x

def calA : CalCopy := { valid := true, seq := 2, content := [3] }

def asleepS : State := inState stAsleep

def fastS : State := { prn with chain := { prn.chain with posSpeed := 10000000 } }

def laneS (l : Nat) (fs : List (Fld × Nat)) (x : Lane) : State := (sets rdy fs).setLane l x

def upF (l st : Nat) : List (Fld × Nat) := [(Reg.LANE_STATUS_STATE l, st), (Reg.LANE_STATUS_UP l, 1), (Reg.LANE_STATUS_LOCK l, 1)]

def grpS (g : Nat) (x : LaneGroup) : State := rdy.setLaneGrp g x

def hunted : List Bool := (List.range 64).flatMap fun _ => true :: List.replicate 65 false

def badWords : List (BitVec 66) := List.replicate 16 0#66

/-- Identity 2 in a chain of one lane each way, west and east links up or not. -/
def linkedS (west east : Nat) : State :=
  sets rdy [(Reg.PLAT_STRAPS_WIDTH, 1), (Reg.PLAT_STRAPS_ID, 2), (Reg.LANE_STATUS_UP 80, west), (Reg.LANE_STATUS_UP 88, east)]

def pktOf (b : List Byte) : ChainPkt := (chainRead b).getD ⟨0, 0, 0, 0, 0, []⟩

def cpk (type src dst : Nat) (body : List Byte) : List Byte := chainPacket type 0 src dst 1 0 rdy.level body

def tokenB : List Byte := tokenBody 2 [{ id := 2, level := rdy.level, serial := rdy.serial }, { id := 5, level := rdy.level, serial := 9 }]

def leaderB : List Byte := bytesOf [5, 1, 0x24, 0, 2, 5, 0, 0] ++ leBytes 8 7 ++ leBytes 16 0

def recordB : List Byte := bytesOf [0, 0, 1, 0] ++ leBytes 4 0 ++ leBytes 4 0 ++ leBytes 8 3

def cmdB : List Byte := bytesOf [3, 0, 0, 0] ++ pkt 1 9 0 3 2 0

def replyB : List Byte := bytesOf [3, 0, 0, 0] ++ leBytes 2 1 ++ bytesOf [9, 0] ++ leBytes 2 0 ++ bytesOf [1, 3] ++ leBytes 8 0 ++ bytesOf [7, 8]

def flightS (f : Forwarded) : State :=
  let s := ((linkedS 1 1).openSession 4 (.eth host1 5000)).setSlot 4 9 { taken := true, opcode := 1, seq := 7 }
  { s with chain := { s.chain with inFlight := [f] } }

def ethS : State := ethNet rdy

def arp : EthFrame := { dstMac := ethS.ethMac 0, etherType := 0x0806, srcIp := host1, dstIp := 0x0A000002 }

def ipf : EthFrame := { arp with etherType := 0x0800 }

/-! Values that the spec works out. -/

/-- The bytes "123456789". -/
def nineDigits : List Byte := bytesOf [49, 50, 51, 52, 53, 54, 55, 56, 57]

/-- R81. -/
theorem test_crc32c : crc32c nineDigits = 0xE3069283 := by decide +kernel

/-- R142 in 06_dose.md. -/
theorem test_crc32 : crc32 nineDigits = 0xCBF43926 := by decide +kernel

/-- R180. -/
theorem test_crc8 : crc8 nineDigits = 0xF4 := by decide +kernel

/-- Table 06-9: tone 0x80, gain 4,300, and the cell's thresholds. -/
theorem test_tone : toneOf (List.replicate 134 0 ++ [2300, 2318]) 4300 0x80 = 2316 := by decide +kernel

theorem test_screen : screenTone { thr := [900, 2200, 3500] } 3 0 0 2316 = 2 := by decide +kernel

/-- Table 06-10, with position 2 for 20,001; pattern 0 holds its level 3 in entries 8 to 11. -/
theorem test_substitute :
    substitute ((List.range 5).map fun i => { pos := i })
      { pats := [List.replicate 8 (0, 0) ++ [(2, 3), (1, 2), (1, 4), (0, 1)]], dead := [(2, 0)] } 3 [0, 2, 3, 3, 1] =
      ([1, 3, 0, 3, 3], 0) := by decide +kernel

/-- The gain of the worked example of 08_capture.md. -/
theorem test_gain : gainFor 3600 52429 = 18000 := by decide +kernel

/-- The worked example of 08_capture.md, at column 2 for column 1,000. -/
def demo : KalSet where
  bilinear := true
  cfa := 0
  flat := {}
  params := [4600 + 65536 * (65536 - 400), 65536 - 104 + 65536 * (65536 - 300), 4700 + 65536 * (65536 - 304),
    65536 - 50 + 65536 * (65536 - 450), 4596, 0, 0]
  edgeK := 16

theorem test_demosaic : demo.rgb [[0, 1578, 2127, 2017], [0, 2237, 1248, 2072]] 4 2 = [2072, 2127, 1248] := by decide +kernel

/-- Table 08-7. -/
theorem test_matrix : colourMatrix demo.params [2072, 2127, 1248] = [2088, 2196, 1141] := by decide +kernel

/-- The worked example of 13_memory.md: the regions with D = 3. -/
theorem test_regions :
    ((rdy.setFld Reg.MEM_DET_D 3).region 7).1 = 0xD00000000 ∧
      ((({ rdy with hostSize := 0 } : State).setFld Reg.MEM_DET_D 3).region 6).2 * 4 = 153 * 0x40000000 := by decide +kernel

/-- The worked example of 18_package.md: CAM07_CK_P, HL30_RX_N, SWN33_SW1, SNS33. -/
theorem test_balls :
    ballAt 13 61 = .cam 7 24 ∧ ballAt 28 64 = .lane 30 3 ∧ ballAt 56 27 = .phase 33 0 ∧ ballAt 54 28 = .sense 33 := by
  decide +kernel

/-- The worked examples of 19_register_plan.md. -/
theorem test_addresses :
    Reg.DOSE_BAR_CONC 3 = 0x10006C ∧ Reg.MEM_CH_ROW 37 = 0x30012C ∧ Reg.EVT_CSEL 12 = 0x290430 := by decide +kernel

/-! Well-formedness. -/

/-- A PTP message. -/
def ptp0 : PtpMsg := { kind := .sync }

/-- One term for each check of WellFormed: each is refused. -/
theorem test_wf_refuses_1 :
    ([.supplyShutdown 5, .phaseDisable 40, .zoneFault 4 0, .zoneFault 0 32, .commandPacket (.ring 4) [],
     .commandPacket (.eth 4294967296 0) [], .commandPacket (.eth 0 65536) [], .commandPacket (.chain 8 0) [],
     .commandPacket (.chain 0 256) [], .dbCmd 4 0, .dbCmd 0 4294967296, .dbRpl 4 0, .dbRpl 0 4294967296, .dbFetch 4 0,
     .dbFetch 0 4294967296, .replyRingStallTimeout 4, .cmdRingEnableWrite 4 true, .ethSessionIdleTimeout 256,
     .keyLockoutEnd 4, .nop ⟨0, 64, 0, true, false, none⟩, .getState ⟨0, 64, 0, true, false, none⟩,
     .replyFetch ⟨0, 64, 0, true, false, none⟩ 0, .replyFetch ⟨0, 0, 0, true, false, none⟩ 256,
     .readReg ⟨0, 64, 0, true, false, none⟩ 0 0, .readReg ⟨0, 0, 0, true, false, none⟩ 4294967296 0,
     .readReg ⟨0, 0, 0, true, false, none⟩ 0 65536, .writeReg ⟨0, 64, 0, true, false, none⟩ 0 [],
     .writeReg ⟨0, 0, 0, true, false, none⟩ 4294967296 [],
     .writeReg ⟨0, 0, 0, true, false, none⟩ 0 (List.replicate 1019 0#32), .modifyReg ⟨0, 64, 0, true, false, none⟩ [],
     .modifyReg ⟨0, 0, 0, true, false, none⟩ [⟨4294967296, 0#32, 0#32⟩], .lockAcquire ⟨0, 64, 0, true, false, none⟩ 0 0,
     .lockAcquire ⟨0, 0, 0, true, false, none⟩ 256 0, .lockAcquire ⟨0, 0, 0, true, false, none⟩ 0 65536,
     .lockWaitTimeout 64 0, .lockWaitTimeout 0 256, .lockRelease ⟨0, 64, 0, true, false, none⟩ 0,
     .lockRelease ⟨0, 0, 0, true, false, none⟩ 256, .lockHoldExpiry 64, .lockHoldLimitWrite 64 0,
     .lockHoldLimitWrite 0 16, .engineLockRequest 256 0 .ingest, .engineLockRequest 0 64 .ingest,
     .sessionOpen 4294967296 0 ⟨255, 0, 0, true, false, none⟩ [], .sessionOpen 0 65536 ⟨255, 0, 0, true, false, none⟩ [],
     .sessionOpen 0 0 ⟨0, 0, 0, true, false, none⟩ [], .sessionOpen 0 0 ⟨255, 256, 0, true, false, none⟩ [],
     .sessionClose ⟨0, 64, 0, true, false, none⟩ 0, .sessionClose ⟨0, 0, 0, true, false, none⟩ 256,
     .keySet ⟨0, 64, 0, true, false, none⟩ 0 [], .keySet ⟨0, 0, 0, true, false, none⟩ 256 [],
     .configLoad ⟨0, 64, 0, true, false, none⟩ ⟨0, 1, 0, 4, []⟩ none,
     .configLoad ⟨0, 0, 0, true, false, none⟩ ⟨65536, 1, 0, 4, []⟩ none,
     .configLoad ⟨0, 0, 0, true, false, none⟩ ⟨0, 1, 0, 4, []⟩ (some []),
     .configCheck ⟨0, 64, 0, true, false, none⟩ ⟨0, 1, 0, 4, []⟩ none,
     .configCheck ⟨0, 0, 0, true, false, none⟩ ⟨65536, 1, 0, 4, []⟩ none,
     .configCheck ⟨0, 0, 0, true, false, none⟩ ⟨0, 1, 0, 4, []⟩ (some []), .serviceEnter ⟨0, 64, 0, true, false, none⟩,
     .serviceExit ⟨0, 64, 0, true, false, none⟩, .sleep ⟨0, 64, 0, true, false, none⟩] :
    List Instr).all (fun i => !instrWf i) = true := by decide +kernel

/-- One term for each check of WellFormed: each is refused. -/
theorem test_wf_refuses_2 :
    ([.wake ⟨0, 64, 0, true, false, none⟩, .jobOpen ⟨0, 64, 0, true, false, none⟩ 0 0,
     .jobOpen ⟨0, 0, 0, true, false, none⟩ 4294967296 0, .jobOpen ⟨0, 0, 0, true, false, none⟩ 0 65536,
     .pageSubmit ⟨0, 64, 0, true, false, none⟩ 0 0 0, .pageSubmit ⟨0, 0, 0, true, false, none⟩ 4294967296 0 0,
     .pageSubmit ⟨0, 0, 0, true, false, none⟩ 0 256 0, .pageSubmit ⟨0, 0, 0, true, false, none⟩ 0 0 4294967296,
     .pageRepeat ⟨0, 64, 0, true, false, none⟩ 0 0, .pageRepeat ⟨0, 0, 0, true, false, none⟩ 4294967296 0,
     .pageRepeat ⟨0, 0, 0, true, false, none⟩ 0 4294967296, .jobClose ⟨0, 64, 0, true, false, none⟩ 0,
     .jobClose ⟨0, 0, 0, true, false, none⟩ 4294967296, .arm ⟨0, 64, 0, true, false, none⟩ 0,
     .arm ⟨0, 0, 0, true, false, none⟩ 4294967296, .start ⟨0, 64, 0, true, false, none⟩ 0,
     .start ⟨0, 0, 0, true, false, none⟩ 9223372036854775808, .pause ⟨0, 64, 0, true, false, none⟩,
     .resume ⟨0, 64, 0, true, false, none⟩ 0, .resume ⟨0, 0, 0, true, false, none⟩ 9223372036854775808,
     .stop ⟨0, 64, 0, true, false, none⟩, .barDelaySet ⟨0, 64, 0, true, false, none⟩ 0 0,
     .barDelaySet ⟨0, 0, 0, true, false, none⟩ 256 0, .barDelaySet ⟨0, 0, 0, true, false, none⟩ 0 18446744073709551616,
     .nozzleMapLoad ⟨0, 64, 0, true, false, none⟩ ⟨0, 1, 0, 4, []⟩,
     .nozzleMapLoad ⟨0, 0, 0, true, false, none⟩ ⟨65536, 1, 0, 4, []⟩,
     .thresholdLoad ⟨0, 64, 0, true, false, none⟩ ⟨0, 1, 0, 4, []⟩,
     .thresholdLoad ⟨0, 0, 0, true, false, none⟩ ⟨65536, 1, 0, 4, []⟩,
     .substituteSet ⟨0, 64, 0, true, false, none⟩ ⟨0, 1, 0, 4, []⟩,
     .substituteSet ⟨0, 0, 0, true, false, none⟩ ⟨65536, 1, 0, 4, []⟩,
     .toneCurveLoad ⟨0, 64, 0, true, false, none⟩ ⟨0, 1, 0, 4, []⟩,
     .toneCurveLoad ⟨0, 0, 0, true, false, none⟩ ⟨65536, 1, 0, 4, []⟩,
     .gainLoad ⟨0, 64, 0, true, false, none⟩ ⟨0, 1, 0, 4, []⟩,
     .gainLoad ⟨0, 0, 0, true, false, none⟩ ⟨65536, 1, 0, 4, []⟩,
     .boardProfileLoad ⟨0, 64, 0, true, false, none⟩ ⟨0, 1, 0, 4, []⟩,
     .boardProfileLoad ⟨0, 0, 0, true, false, none⟩ ⟨65536, 1, 0, 4, []⟩,
     .gateTest ⟨0, 64, 0, true, false, none⟩ 0 0 0 0, .gateTest ⟨0, 0, 0, true, false, none⟩ 256 0 0 0,
     .gateTest ⟨0, 0, 0, true, false, none⟩ 0 256 0 0, .gateTest ⟨0, 0, 0, true, false, none⟩ 0 0 65536 0,
     .gateTest ⟨0, 0, 0, true, false, none⟩ 0 0 0 65536, .gateShot 16 [] [] .pass,
     .cameraSet ⟨0, 64, 0, true, false, none⟩ 0 0 0 0, .cameraSet ⟨0, 0, 0, true, false, none⟩ 256 0 0 0,
     .cameraSet ⟨0, 0, 0, true, false, none⟩ 0 65536 0 0, .cameraSet ⟨0, 0, 0, true, false, none⟩ 0 0 4294967296 0,
     .cameraSet ⟨0, 0, 0, true, false, none⟩ 0 0 0 65536, .cameraSetTransfer 24, .sensorTransferEnd 24 [],
     .sensorXfer ⟨0, 64, 0, true, false, none⟩ 0 [], .sensorXfer ⟨0, 0, 0, true, false, none⟩ 256 [],
     .colourModelLoad ⟨0, 64, 0, true, false, none⟩ ⟨0, 1, 0, 4, []⟩,
     .colourModelLoad ⟨0, 0, 0, true, false, none⟩ ⟨65536, 1, 0, 4, []⟩,
     .coverageLoad ⟨0, 64, 0, true, false, none⟩ ⟨0, 1, 0, 4, []⟩,
     .coverageLoad ⟨0, 0, 0, true, false, none⟩ ⟨65536, 1, 0, 4, []⟩,
     .blurLoad ⟨0, 64, 0, true, false, none⟩ ⟨0, 1, 0, 4, []⟩,
     .blurLoad ⟨0, 0, 0, true, false, none⟩ ⟨65536, 1, 0, 4, []⟩,
     .resampleCoefLoad ⟨0, 64, 0, true, false, none⟩ ⟨0, 1, 0, 4, []⟩,
     .resampleCoefLoad ⟨0, 0, 0, true, false, none⟩ ⟨65536, 1, 0, 4, []⟩,
     .classSet ⟨0, 64, 0, true, false, none⟩ ⟨0, 1, 0, 4, []⟩] :
    List Instr).all (fun i => !instrWf i) = true := by decide +kernel

/-- One term for each check of WellFormed: each is refused. -/
theorem test_wf_refuses_3 :
    ([.classSet ⟨0, 0, 0, true, false, none⟩ ⟨65536, 1, 0, 4, []⟩, .recordRingSet ⟨0, 64, 0, true, false, none⟩ 0 0 0 0,
     .recordRingSet ⟨0, 0, 0, true, false, none⟩ 256 0 0 0, .recordRingSet ⟨0, 0, 0, true, false, none⟩ 0 256 0 0,
     .recordRingSet ⟨0, 0, 0, true, false, none⟩ 0 0 18446744073709551616 0,
     .recordRingSet ⟨0, 0, 0, true, false, none⟩ 0 0 0 4294967296, .nozzleStateSet ⟨0, 64, 0, true, false, none⟩ 0 0 0,
     .nozzleStateSet ⟨0, 0, 0, true, false, none⟩ 4294967296 0 0, .nozzleStateSet ⟨0, 0, 0, true, false, none⟩ 0 256 0,
     .nozzleStateSet ⟨0, 0, 0, true, false, none⟩ 0 0 256, .nozzleStateRead ⟨0, 64, 0, true, false, none⟩ 0 0,
     .nozzleStateRead ⟨0, 0, 0, true, false, none⟩ 4294967296 0,
     .nozzleStateRead ⟨0, 0, 0, true, false, none⟩ 0 4294967296, .axisMove ⟨0, 64, 0, true, false, none⟩ 0 0 0 0,
     .axisMove ⟨0, 0, 0, true, false, none⟩ 256 0 0 0, .axisMove ⟨0, 0, 0, true, false, none⟩ 0 256 0 0,
     .axisMove ⟨0, 0, 0, true, false, none⟩ 0 0 9223372036854775808 0,
     .axisMove ⟨0, 0, 0, true, false, none⟩ 0 0 0 4294967296, .axisStop ⟨0, 64, 0, true, false, none⟩ 0 0,
     .axisStop ⟨0, 0, 0, true, false, none⟩ 256 0, .axisStop ⟨0, 0, 0, true, false, none⟩ 0 256,
     .axisHome ⟨0, 64, 0, true, false, none⟩ 0 0, .axisHome ⟨0, 0, 0, true, false, none⟩ 256 0,
     .axisHome ⟨0, 0, 0, true, false, none⟩ 0 256, .axisProfileSet ⟨0, 64, 0, true, false, none⟩ 0 0 0 0,
     .axisProfileSet ⟨0, 0, 0, true, false, none⟩ 256 0 0 0,
     .axisProfileSet ⟨0, 0, 0, true, false, none⟩ 0 4294967296 0 0,
     .axisProfileSet ⟨0, 0, 0, true, false, none⟩ 0 0 4294967296 0,
     .axisProfileSet ⟨0, 0, 0, true, false, none⟩ 0 0 0 4294967296,
     .microstepLoad ⟨0, 64, 0, true, false, none⟩ ⟨0, 1, 0, 4, []⟩,
     .microstepLoad ⟨0, 0, 0, true, false, none⟩ ⟨65536, 1, 0, 4, []⟩, .posReference ⟨0, 64, 0, true, false, none⟩ 0 0,
     .posReference ⟨0, 0, 0, true, false, none⟩ 256 0, .posReference ⟨0, 0, 0, true, false, none⟩ 0 9223372036854775808,
     .axisStatus ⟨0, 64, 0, true, false, none⟩ 0, .axisStatus ⟨0, 0, 0, true, false, none⟩ 256,
     .timeRead ⟨0, 64, 0, true, false, none⟩ 0, .timeRead ⟨0, 0, 0, true, false, none⟩ 256,
     .timeAdjust ⟨0, 64, 0, true, false, none⟩ 0 0 0, .timeAdjust ⟨0, 0, 0, true, false, none⟩ 256 0 0,
     .timeAdjust ⟨0, 0, 0, true, false, none⟩ 0 18446744073709551616 0,
     .timeAdjust ⟨0, 0, 0, true, false, none⟩ 0 0 9223372036854775808, .domainSelect ⟨0, 64, 0, true, false, none⟩ 0,
     .domainSelect ⟨0, 0, 0, true, false, none⟩ 256, .eventFire ⟨0, 64, 0, true, false, none⟩ 0,
     .eventFire ⟨0, 0, 0, true, false, none⟩ 256, .fwStage ⟨0, 64, 0, true, false, none⟩ ⟨0, 1, 0, 4, []⟩,
     .fwStage ⟨0, 0, 0, true, false, none⟩ ⟨65536, 1, 0, 4, []⟩, .fwSwitch ⟨0, 64, 0, true, false, none⟩,
     .spareStatus ⟨0, 64, 0, true, false, none⟩, .calRun ⟨0, 64, 0, true, false, none⟩ 0 0,
     .calRun ⟨0, 0, 0, true, false, none⟩ 256 0, .calRun ⟨0, 0, 0, true, false, none⟩ 0 256, .darkCalDone 24,
     .paperCalDone 24, .calRead ⟨0, 64, 0, true, false, none⟩ 0 0 0, .calRead ⟨0, 0, 0, true, false, none⟩ 256 0 0,
     .calRead ⟨0, 0, 0, true, false, none⟩ 0 256 0, .calRead ⟨0, 0, 0, true, false, none⟩ 0 0 4294967296,
     .faultLogRead ⟨0, 64, 0, true, false, none⟩ 0] :
    List Instr).all (fun i => !instrWf i) = true := by decide +kernel

/-- One term for each check of WellFormed: each is refused. -/
theorem test_wf_refuses_4 :
    ([.faultLogRead ⟨0, 0, 0, true, false, none⟩ 4294967296, .monBinsLoad ⟨0, 64, 0, true, false, none⟩ ⟨0, 1, 0, 4, []⟩,
     .monBinsLoad ⟨0, 0, 0, true, false, none⟩ ⟨65536, 1, 0, 4, []⟩, .monSnapshot ⟨0, 64, 0, true, false, none⟩ 0 0,
     .monSnapshot ⟨0, 0, 0, true, false, none⟩ 18446744073709551616 0, .monSnapshot ⟨0, 0, 0, true, false, none⟩ 0 65536,
     .chainStatus ⟨0, 64, 0, true, false, none⟩, .chainRescan ⟨0, 64, 0, true, false, none⟩, .bar0Write 16777216 0#32 0,
     .bar0Write 0 0#32 16, .readClear .cmd 16777216, .loLatchRead .cmd 16777216, .arbiterGrant true 100 [],
     .arbiterGrant true 16 [.enter .ingest 0], .arbiterGrant true 0 [.carried 8 0], .arbiterGrant true 88 [.carried 0 0],
     .arbiterGrant true 87 [.lineFrame 0], .arbiterGrant true 87 [.laneControl 0],
     .arbiterGrant true 87 [.ring .ingest 0], .arbiterStuck 164 0 none, .arbiterStuck 0 8 none,
     .arbiterStuck 0 0 (some ⟨0, 64, 0, true, false, none⟩), .arbFairnessWrite 16 0, .arbFairnessWrite 0 4,
     .paceModeWrite 4, .paceVcapWrite 1024, .dmaRun 64, .dmaAbort 64, .dmaDescriptorFetch 64 [],
     .dmaDescriptorComplete 64 [], .pcieCompletionError 1 0 [], .pcieCompletionError 5 0 [],
     .pcieCompletionError 2 18446744073709551616 [], .pcieCompletionTimeout 18446744073709551616 [], .kpsJobHeader 64 [],
     .kpsPageHeader 64 [], .kpsBlock 64 [], .kpsTrailer 64 [], .segmentSwitch 16, .segmentComplete 16,
     .dcmpEnableWrite 16 true, .compressStreamStart 4, .compressStreamEnd 4, .sliceExpand 16 .pass, .frameAssemble 16 [],
     .doseSwapRequest 16, .doseSwap 16, .lineTransmit 48, .decisionPoint 48, .fireStrobe 48, .strobeFall 48,
     .strobeWatchdog 48, .echo 48 [], .echoTimeout 48, .credit 48 [], .helloReply 48 [], .helloRepeat 48,
     .boardEnableWrite 48 true, .fireClear 48, .fireTos 16] :
    List Instr).all (fun i => !instrWf i) = true := by decide +kernel

/-- One term for each check of WellFormed: each is refused. -/
theorem test_wf_refuses_5 :
    ([.cameraTrigger 24, .frameOpen 24, .frameClose 24, .cameraPortLine 24 [], .capEnableWrite 24 true, .stripeProcess 8,
     .gainSetCompute 24, .kalPdatWrite 8 0#32, .kalApply 8, .resampleLine 24, .rsmpPdatWrite 8 0#32, .rsmpApply 8,
     .rsmpSwap 8, .frameStatistics 24, .recordDeliver 2, .consumerIndexPoll 2 (.index 0),
     .consumerIndexPoll 0 (.index 4294967296), .consumerIndexPoll 2 (.failed 1), .consumerIndexPoll 0 (.failed 0),
     .consumerIndexPoll 0 (.failed 5), .recordRingFullTimeout 2, .loopSwapStage 16, .loopLate 16, .loopEnWrite 65536,
     .modLimitWrite 128, .quadStep 8 true true 0, .quadDoubleStep 8 0, .indexEdge 8 0, .stillTimeout 8,
     .ssiRead 8 ⟨true, [], true⟩, .axisUpdate 16, .axisHoldCurrent 16, .followStep 16, .followWrite 16 true,
     .switchAccept 32 true 0, .axisStageFault 16, .axisEnableWrite 16 true, .domainPps 2, .alarmArm 2 0,
     .alarmArm 0 1073741824, .alarmFire 2, .periodic 2, .ptpMessage 2 ptp0, .ptpMessage 0 { ptp0 with portState := 7 },
     .ptpMessage 0 { ptp0 with utcOffset := some 65536 }, .ethFrameReceive 2 { dstMac := 0, etherType := 0 },
     .eventRaise 128 none, .eventRaise 0 (some 16), .pinEdge 32 true 0, .pinPulse 32, .tscapCapture 8, .axisEstop 16,
     .detRefresh 64, .bankRefresh 64 0, .bankRefresh 0 128, .selfRefreshEntry 64, .impedanceCal 64, .retraining 64,
     .memoryAccess { addr := 68719476736, input := 0, len := 1 }, .memoryAccess { addr := 0, input := 8, len := 1 }] :
    List Instr).all (fun i => !instrWf i) = true := by decide +kernel

/-- One term for each check of WellFormed: each is refused. -/
theorem test_wf_refuses_6 :
    ([.memoryAccess { addr := 0, input := 0, len := 1, upsets := [⟨4294967296, 0, 0⟩] },
     .memoryAccess { addr := 0, input := 0, len := 1, upsets := [⟨0, 18, 0⟩] },
     .memoryAccess { addr := 0, input := 0, len := 1, upsets := [⟨0, 0, 256⟩] }, .throttleRelease 64,
     .stackEmergency 4 0, .memDetWrite 16, .chkFeed 32 0#32, .chkCheck 32, .chkReset 32, .chkDataWrite 32 0#32,
     .chkDataRead .cmd 32, .laneTargetWrite 96 0, .laneTargetWrite 0 4, .eqAdapt 96 [], .laneLock 96 [],
     .laneLockLoss 96 [], .linkReady 96 (List.replicate 8 0#8), .linkReady 0 [], .linkRateReq 96 (List.replicate 8 0#8),
     .linkRateReq 0 [], .linkRateAck 96 (List.replicate 8 0#8), .linkRateAck 0 [], .rateReqTimeout 96,
     .linkAlign 96 (List.replicate 8 0#8) 0, .linkAlign 0 [] 0, .linkAlign 0 (List.replicate 8 0#8) 16384,
     .takeoverStart 12, .takeoverSwitch 12 true, .takeoverTimeout 12, .takeoverRecalDone 12 true, .msixUnmask 256,
     .engineDoze 256, .engineUndoze 256, .spareTakeover 256 0 true, .spareTakeover 0 5 true, .supervisorTakeover 4 true,
     .monitorSample 64 0, .monitorWindowEnd 64, .monitorConfigWrite 64 0 0#32, .monitorConfigWrite 0 3 0#32,
     .stackEmergencyEnd 4 0, .announceReceiptTimeout 2, .ethLinkChange 2 true true true, .perstRelease 16 0,
     .perstRelease 0 64, .interruptCoalesce 2, .switchRawEdge 32 true, .engineLockRelease 256 0, .engineLockRelease 0 64,
     .mgmtPortAccess (some 64) 0, .nop ⟨0, 256, 0, true, false, none⟩, .nop ⟨0, 0, 4294967296, true, false, none⟩,
     .nop ⟨0, 0, 0, true, false, some 56⟩, .fwStage ⟨0, 0, 0, true, false, none⟩ ⟨0, 256, 0, 4, []⟩,
     .fwStage ⟨0, 0, 0, true, false, none⟩ ⟨0, 1, 4294967296, 4, []⟩,
     .fwStage ⟨0, 0, 0, true, false, none⟩ ⟨0, 1, 0, 4294967296, []⟩,
     .fwStage ⟨0, 0, 0, true, false, none⟩ ⟨0, 1, 0, 4, List.replicate 4069 0#8⟩,
     .posReference ⟨0, 0, 0, true, false, none⟩ 0 (-9223372036854775809)] :
    List Instr).all (fun i => !instrWf i) = true := by decide +kernel

/-- The same commands with operands in range. -/
theorem test_wf_admits_1 :
    ([.supplyShutdown 0, .phaseDisable 0, .zoneFault 0 0, .commandPacket (.ring 0) [], .dbCmd 0 0, .dbRpl 0 0,
     .dbFetch 0 0, .replyRingStallTimeout 0, .cmdRingEnableWrite 0 true, .ethSessionIdleTimeout 0, .keyLockoutEnd 0,
     .nop ⟨0, 0, 0, true, false, none⟩, .getState ⟨0, 0, 0, true, false, none⟩,
     .replyFetch ⟨0, 0, 0, true, false, none⟩ 0, .readReg ⟨0, 0, 0, true, false, none⟩ 0 0,
     .writeReg ⟨0, 0, 0, true, false, none⟩ 0 [], .modifyReg ⟨0, 0, 0, true, false, none⟩ [],
     .lockAcquire ⟨0, 0, 0, true, false, none⟩ 0 0, .lockWaitTimeout 0 0, .lockRelease ⟨0, 0, 0, true, false, none⟩ 0,
     .lockHoldExpiry 0, .lockHoldLimitWrite 0 0, .engineLockRequest 0 0 .ingest,
     .sessionOpen 0 0 ⟨255, 0, 0, true, false, none⟩ [], .sessionClose ⟨0, 0, 0, true, false, none⟩ 0,
     .keySet ⟨0, 0, 0, true, false, none⟩ 0 [], .configLoad ⟨0, 0, 0, true, false, none⟩ ⟨0, 1, 0, 4, []⟩ none,
     .configCheck ⟨0, 0, 0, true, false, none⟩ ⟨0, 1, 0, 4, []⟩ none, .serviceEnter ⟨0, 0, 0, true, false, none⟩,
     .serviceExit ⟨0, 0, 0, true, false, none⟩, .sleep ⟨0, 0, 0, true, false, none⟩, .wake ⟨0, 0, 0, true, false, none⟩,
     .jobOpen ⟨0, 0, 0, true, false, none⟩ 0 0, .pageSubmit ⟨0, 0, 0, true, false, none⟩ 0 0 0,
     .pageRepeat ⟨0, 0, 0, true, false, none⟩ 0 0, .jobClose ⟨0, 0, 0, true, false, none⟩ 0,
     .arm ⟨0, 0, 0, true, false, none⟩ 0, .start ⟨0, 0, 0, true, false, none⟩ 0, .pause ⟨0, 0, 0, true, false, none⟩,
     .resume ⟨0, 0, 0, true, false, none⟩ 0, .stop ⟨0, 0, 0, true, false, none⟩,
     .barDelaySet ⟨0, 0, 0, true, false, none⟩ 0 0, .nozzleMapLoad ⟨0, 0, 0, true, false, none⟩ ⟨0, 1, 0, 4, []⟩,
     .thresholdLoad ⟨0, 0, 0, true, false, none⟩ ⟨0, 1, 0, 4, []⟩,
     .substituteSet ⟨0, 0, 0, true, false, none⟩ ⟨0, 1, 0, 4, []⟩,
     .toneCurveLoad ⟨0, 0, 0, true, false, none⟩ ⟨0, 1, 0, 4, []⟩,
     .gainLoad ⟨0, 0, 0, true, false, none⟩ ⟨0, 1, 0, 4, []⟩,
     .boardProfileLoad ⟨0, 0, 0, true, false, none⟩ ⟨0, 1, 0, 4, []⟩, .gateTest ⟨0, 0, 0, true, false, none⟩ 0 0 0 0,
     .gateShot 0 [] [] .pass, .cameraSet ⟨0, 0, 0, true, false, none⟩ 0 0 0 0, .cameraSetTransfer 0,
     .sensorTransferEnd 0 [], .sensorXfer ⟨0, 0, 0, true, false, none⟩ 0 [],
     .colourModelLoad ⟨0, 0, 0, true, false, none⟩ ⟨0, 1, 0, 4, []⟩,
     .coverageLoad ⟨0, 0, 0, true, false, none⟩ ⟨0, 1, 0, 4, []⟩,
     .blurLoad ⟨0, 0, 0, true, false, none⟩ ⟨0, 1, 0, 4, []⟩,
     .resampleCoefLoad ⟨0, 0, 0, true, false, none⟩ ⟨0, 1, 0, 4, []⟩,
     .classSet ⟨0, 0, 0, true, false, none⟩ ⟨0, 1, 0, 4, []⟩, .recordRingSet ⟨0, 0, 0, true, false, none⟩ 0 0 0 0] :
    List Instr).all (fun i => instrWf i) = true := by decide +kernel

/-- The same commands with operands in range. -/
theorem test_wf_admits_2 :
    ([.nozzleStateSet ⟨0, 0, 0, true, false, none⟩ 0 0 0, .nozzleStateRead ⟨0, 0, 0, true, false, none⟩ 0 0,
     .axisMove ⟨0, 0, 0, true, false, none⟩ 0 0 0 0, .axisStop ⟨0, 0, 0, true, false, none⟩ 0 0,
     .axisHome ⟨0, 0, 0, true, false, none⟩ 0 0, .axisProfileSet ⟨0, 0, 0, true, false, none⟩ 0 0 0 0,
     .microstepLoad ⟨0, 0, 0, true, false, none⟩ ⟨0, 1, 0, 4, []⟩, .posReference ⟨0, 0, 0, true, false, none⟩ 0 0,
     .axisStatus ⟨0, 0, 0, true, false, none⟩ 0, .timeRead ⟨0, 0, 0, true, false, none⟩ 0,
     .timeAdjust ⟨0, 0, 0, true, false, none⟩ 0 0 0, .domainSelect ⟨0, 0, 0, true, false, none⟩ 0,
     .eventFire ⟨0, 0, 0, true, false, none⟩ 0, .fwStage ⟨0, 0, 0, true, false, none⟩ ⟨0, 1, 0, 4, []⟩,
     .fwSwitch ⟨0, 0, 0, true, false, none⟩, .spareStatus ⟨0, 0, 0, true, false, none⟩,
     .calRun ⟨0, 0, 0, true, false, none⟩ 0 0, .darkCalDone 0, .paperCalDone 0,
     .calRead ⟨0, 0, 0, true, false, none⟩ 0 0 0, .faultLogRead ⟨0, 0, 0, true, false, none⟩ 0,
     .monBinsLoad ⟨0, 0, 0, true, false, none⟩ ⟨0, 1, 0, 4, []⟩, .monSnapshot ⟨0, 0, 0, true, false, none⟩ 0 0,
     .chainStatus ⟨0, 0, 0, true, false, none⟩, .chainRescan ⟨0, 0, 0, true, false, none⟩, .bar0Write 0 0#32 0,
     .readClear .cmd 0, .loLatchRead .cmd 0, .arbiterGrant true 0 [], .arbiterStuck 0 0 none, .arbFairnessWrite 0 0,
     .paceModeWrite 0, .paceVcapWrite 0, .dmaRun 0, .dmaAbort 0, .dmaDescriptorFetch 0 [], .dmaDescriptorComplete 0 [],
     .pcieCompletionError 2 0 [], .pcieCompletionTimeout 0 [], .kpsJobHeader 0 [], .kpsPageHeader 0 [], .kpsBlock 0 [],
     .kpsTrailer 0 [], .segmentSwitch 0, .segmentComplete 0, .dcmpEnableWrite 0 true, .compressStreamStart 0,
     .compressStreamEnd 0, .sliceExpand 0 .pass, .frameAssemble 0 [], .doseSwapRequest 0, .doseSwap 0, .lineTransmit 0,
     .decisionPoint 0, .fireStrobe 0, .strobeFall 0, .strobeWatchdog 0, .echo 0 [], .echoTimeout 0, .credit 0 []] :
    List Instr).all (fun i => instrWf i) = true := by decide +kernel

/-- The same commands with operands in range. -/
theorem test_wf_admits_3 :
    ([.helloReply 0 [], .helloRepeat 0, .boardEnableWrite 0 true, .fireClear 0, .fireTos 0, .cameraTrigger 0,
     .frameOpen 0, .frameClose 0, .cameraPortLine 0 [], .capEnableWrite 0 true, .stripeProcess 0, .gainSetCompute 0,
     .kalPdatWrite 0 0#32, .kalApply 0, .resampleLine 0, .rsmpPdatWrite 0 0#32, .rsmpApply 0, .rsmpSwap 0,
     .frameStatistics 0, .recordDeliver 0, .consumerIndexPoll 0 (.index 0), .consumerIndexPoll 0 (.failed 1),
     .recordRingFullTimeout 0, .loopSwapStage 0, .loopLate 0, .loopEnWrite 0, .modLimitWrite 0, .quadStep 0 true true 0,
     .quadDoubleStep 0 0, .indexEdge 0 0, .stillTimeout 0, .ssiRead 0 ⟨true, [], true⟩, .axisUpdate 0,
     .axisHoldCurrent 0, .followStep 0, .followWrite 0 true, .switchAccept 0 true 0, .axisStageFault 0,
     .axisEnableWrite 0 true, .domainPps 0, .alarmArm 0 0, .alarmFire 0, .periodic 0, .ptpMessage 0 ptp0,
     .ethFrameReceive 0 { dstMac := 0, etherType := 0 }, .eventRaise 0 none, .pinEdge 0 true 0, .pinPulse 0,
     .tscapCapture 0, .axisEstop 0, .detRefresh 0, .bankRefresh 0 0, .selfRefreshEntry 0, .impedanceCal 0, .retraining 0,
     .memoryAccess { addr := 0, input := 0, len := 1 }, .throttleRelease 0, .stackEmergency 0 0, .memDetWrite 0,
     .chkFeed 0 0#32] :
    List Instr).all (fun i => instrWf i) = true := by decide +kernel

/-- The same commands with operands in range. -/
theorem test_wf_admits_4 :
    ([.chkCheck 0, .chkReset 0, .chkDataWrite 0 0#32, .chkDataRead .cmd 0, .laneTargetWrite 0 0, .eqAdapt 0 [],
     .laneLock 0 [], .laneLockLoss 0 [], .linkReady 0 (List.replicate 8 0#8), .linkRateReq 0 (List.replicate 8 0#8),
     .linkRateAck 0 (List.replicate 8 0#8), .rateReqTimeout 0, .linkAlign 0 (List.replicate 8 0#8) 0, .takeoverStart 0,
     .takeoverSwitch 0 true, .takeoverTimeout 0, .takeoverRecalDone 0 true, .msixUnmask 0, .engineDoze 0,
     .engineUndoze 0, .spareTakeover 0 0 true, .supervisorTakeover 0 true, .monitorSample 0 0, .monitorWindowEnd 0,
     .monitorConfigWrite 0 0 0#32, .stackEmergencyEnd 0 0, .announceReceiptTimeout 0, .ethLinkChange 0 true true true,
     .perstRelease 0 0, .interruptCoalesce 0, .switchRawEdge 0 true, .engineLockRelease 0 0, .mgmtPortAccess none 0] :
    List Instr).all (fun i => instrWf i) = true := by decide +kernel

/-! What the kernel does not evaluate directly. -/

theorem done_of (r : WriteEnd) (h : (match r with | .done _ => true | _ => false) = true) : r = .done (doneState r) := by
  cases r <;> simp_all [doneState]

theorem leNat_zeros (n : Nat) : leNat (List.replicate n 0#8) = 0 := by
  induction n with
  | zero => rfl
  | succ n ih => simp [List.replicate_succ, leNat, ih]

theorem leAt_zeros (n o k : Nat) : leAt (bytes0 n) o k = 0 := by
  simp [leAt, slice, bytes0, leNat_zeros]

theorem getD_zeros (n i : Nat) : (bytes0 n).getD i 0 = 0 := by
  simp only [bytes0, List.getD_eq_getElem?_getD, List.getElem?_replicate]
  split <;> rfl

theorem model_zero (n : Nat) (h : n = 501144) : modelBad (bytes0 n) = none := by
  have l : (bytes0 n).length = n := List.length_replicate ..
  have d : ∀ a b, ((bytes0 n).drop a).take b = bytes0 (min b (n - a)) := by
    intro a b; simp [bytes0]
  have z : ∀ o c, zerosAt (bytes0 n) o c = (List.range c).map fun i => (o + i, true) := by
    intro o c; simp only [zerosAt, getD_zeros]; rfl
  have e2 : ∀ m, halfAbove 4095 (bytes0 m) = none := by
    intro m; simp only [halfAbove, leAt_zeros]; simp
  have k : decide ((bytes0 n).length = 501144) = true := by rw [l, h]; rfl
  unfold modelBad
  simp only [k, z, leAt_zeros, d, e2]
  rfl

theorem model_chunk (n : Nat) (h : n ≠ 0) : judgeChunk false ((stagedS 0x0202 23 (bytes0 n)).staged 0x0202 23)
    ⟨23, 1, n, n + 4, bytes0 4⟩ = .whole (bytes0 (n + 4)) := by
  have l : (bytes0 n).length = n := List.length_replicate ..
  have s : (stagedS 0x0202 23 (bytes0 n)).staged 0x0202 23 = ⟨n + 4, false, bytes0 n⟩ := by
    unfold stagedS State.staged State.setStaged
    rw [l]
    rfl
  have e : bytes0 n ++ bytes0 4 = bytes0 (n + 4) := by simp only [bytes0, List.replicate_append_replicate]
  have m : (bytes0 4).length = 4 := rfl
  rw [s]
  simp [judgeChunk, chunkReset, chunkLast, l, m, e, h, show bitAt 1 0 = true from rfl, show bitAt 1 1 = false from rfl]

theorem slice_blocks (b : List Byte) (n ph i : Nat) (hb : b.length = 32) (hp : ph < n) (hi : i < 16) :
    slice (bytes0 16 ++ (List.replicate n b).flatten) (16 + 32 * ph + 2 * i) 2 = slice b (2 * i) 2 := by
  have h : ∀ k, ((List.replicate (k + 1) b).flatten).take 32 = b := by
    intro k; simp [List.replicate_succ, hb]
  have d : ∀ p m, ((List.replicate (p + m) b).flatten).drop (32 * p) = (List.replicate m b).flatten := by
    intro p
    induction p with
    | zero => simp
    | succ p ih =>
      intro m
      rw [show p + 1 + m = p + m + 1 by omega, List.replicate_succ, List.flatten_cons, List.drop_append,
        List.drop_of_length_le (by omega)]
      simpa [hb, show 32 * (p + 1) - 32 = 32 * p by omega] using ih m
  obtain ⟨m, rfl⟩ : ∃ m, n = ph + (m + 1) := ⟨n - ph - 1, by omega⟩
  unfold slice
  rw [List.drop_append, List.drop_of_length_le (by simp [bytes0]; omega), List.nil_append]
  simp only [bytes0, List.length_replicate]
  rw [show 16 + 32 * ph + 2 * i - 16 = 32 * ph + 2 * i by omega, ← List.drop_drop, d, List.replicate_succ,
    List.flatten_cons, List.drop_append]
  rw [List.take_append, show 2 - (List.drop (2 * i) b).length = 0 by simp [hb]; omega]
  simp

theorem coef_ok : coefBad coefT = none := by
  have t : coefT = bytes0 16 ++ (List.replicate 64 coefB).flatten := by decide +kernel
  have s : ((List.range 16).map fun i => leIntAt coefB (2 * i) 2).sum = 16384 := by decide
  have l : coefT.length = 2064 := by decide +kernel
  have e1 : firstFail ((0, decide (coefT.length = 2064)) :: zerosAt coefT 0 16) = none := by decide +kernel
  unfold coefBad
  rw [e1]
  have e2 : ∀ ph, ph < 64 → ((List.range 16).map fun i => leIntAt coefT (16 + 32 * ph + 2 * i) 2).sum = 16384 := by
    intro ph hp
    rw [← s]
    refine congrArg List.sum (List.map_congr_left fun i hi => ?_)
    unfold leIntAt leAt
    rw [t, slice_blocks coefB 64 ph i rfl hp (List.mem_range.mp hi)]
  simp [firstFail]
  intro ph hp
  exact e2 ph hp

/-! The hypotheses of the statements. -/

/-- The hypotheses of EveryStepAnswers can be met. -/
theorem test_met_EveryStepAnswers :
    ∃ (s : State), s.pending = [] :=
  ⟨rdy, by decide +kernel⟩

/-- The hypotheses of StepKeepsMemWf can be met. -/
theorem test_met_StepKeepsMemWf :
    ∃ (s : State) (t : State), s.memWf ∧ step s = .next t :=
  ⟨rdy, tick rdy, (by decide : Memory.wf rdy.mem), rfl⟩

/-- The hypotheses of LockOrderBreachRefused can be met, clause by clause. -/
theorem test_met_LockOrderBreachRefused :
    (∃ (s : State) (rq : Rq) (lock : Nat) (j : Nat), s.ready rq 0x0020 ∧ j < 64 ∧ lock ≤ j ∧ s.lockState j = 1 ∧ s.fld
      (Reg.LOCK_OWNER_KIND j) = 0 ∧ s.fld (Reg.LOCK_OWNER j) = rq.sess) ∧
    (∃ (s : State) (engine : Nat) (lock : Nat) (j : Nat), j < 64 ∧ lock ≤ j ∧ s.lockState j = 1 ∧ s.fld (Reg.LOCK_OWNER_KIND j)
      = 1 ∧ s.fld (Reg.LOCK_OWNER j) = engine) :=
  ⟨⟨heldLock 63 0, q0, 63, 63, by decide +kernel⟩,
   ⟨(heldLock 63 255).setFld (Reg.LOCK_OWNER_KIND 63) 1, 255, 63, 63, by decide +kernel⟩⟩

/-- The hypotheses of BusyTagRefused can be met, clause by clause. -/
theorem test_met_BusyTagRefused :
    (∃ (s : State) (ip : Nat) (port : Nat) (b : List Byte), b.length = 16 + (headerOf b).length ∧ headerOk b ∧ 4 ≤ (headerOf
      b).session ∧ (headerOf b).session < 16 ∧ s.sessKind (headerOf b).session = .eth ip port ∧ (headerOf b).opcode ≠
      0x0002 ∧ ((headerOf b).opcode ≠ 0x0030 ∨ (headerOf b).session ≠ 255) ∧ (s.slot (headerOf b).session (headerOf
      b).tag).taken ∧ (s.slot (headerOf b).session (headerOf b).tag).done = false ∧ ¬ ((s.slot (headerOf b).session
      (headerOf b).tag).opcode = (headerOf b).opcode ∧ (s.slot (headerOf b).session (headerOf b).tag).seq = (headerOf
      b).seq) ∧ (∀ q, (s.session (headerOf b).session).lastSeq = some q → (headerOf b).seq = (q + 1) % idxMod)) ∧
    (∃ (s : State) (r : Nat) (b : List Byte), r < 4 ∧ s.ringTakes r ∧ headerOk b ∧ (headerOf b).session = r ∧ (s.ring
      r).cmdCons % s.cmdSize r + unitsOf (headerOf b).length ≤ s.cmdSize r ∧ (headerOf b).opcode ≠ 0x0002 ∧ (s.slot r
      (headerOf b).tag).taken ∧ (s.slot r (headerOf b).tag).done = false ∧ ¬ ((s.slot r (headerOf b).tag).opcode =
      (headerOf b).opcode ∧ (s.slot r (headerOf b).tag).seq = (headerOf b).seq) ∧ (∀ q, (s.session r).lastSeq = some q →
      (headerOf b).seq = (q + 1) % idxMod)) :=
  ⟨⟨ethOn.setSlot 15 9 { taken := true, opcode := 2, seq := 1 }, 1, 2, pkt 1 9 0 15 0xFF 0, by decide +kernel⟩,
   ⟨ringRdy.setSlot 3 9 { taken := true, opcode := 2, seq := 1 }, 3, pkt 1 9 0 3 0xFF 0, by decide +kernel⟩⟩

/-- The hypotheses of LockedWithoutLockRefused can be met. -/
theorem test_met_LockedWithoutLockRefused :
    ∃ (c : Instr) (s : State) (rq : Rq) (op : Nat) (k : Nat) (doms : List Domain), request c = some (rq, op, doms) ∧ s.held rq
      op doms = false ∧ acceptedIn op s.st ∧ rq.lock = some k ∧ s.holdsLock rq.sess k = false ∧ s.sessOpen rq.sess :=
  ⟨.jobOpen { q0 with lock := some 5 } 7 1, rdy, { q0 with lock := some 5 }, 0x0100, 5, [.print], by decide +kernel⟩

/-- The hypotheses of StateRefusedHasNoEffect can be met. -/
theorem test_met_StateRefusedHasNoEffect :
    ∃ (c : Instr) (s : State) (rq : Rq) (op : Nat) (doms : List Domain), request c = some (rq, op, doms) ∧ s.held rq op doms =
      false ∧ acceptedIn op s.st = false ∧ s.sessOpen rq.sess :=
  ⟨.pause q0, rdy, q0, 0x0112, [.print], by decide +kernel⟩

/-- The hypotheses of ChunksAreStaged can be met, clause by clause. -/
theorem test_met_ChunksAreStaged :
    (∃ (s : State) (rq : Rq) (c : Chunk), s.ready rq 0x0040 ∧ s.chunkGoesOn 0x0040 1 c) ∧
    (∃ (s : State) (rq : Rq) (c : Chunk), s.ready rq 0x0041 ∧ s.chunkGoesOn 0x0041 1 c) :=
  ⟨⟨rdy, q0, ⟨0, 0, 0, 8, bytes0 4⟩, by decide +kernel⟩,
   ⟨rdy, q0, ⟨0, 0, 0, 8, bytes0 4⟩, by decide +kernel⟩⟩

/-- The hypotheses of SessionCommandsComplete can be met, clause by clause. -/
theorem test_met_SessionCommandsComplete :
    (∃ (s : State) (rq : Rq), s.ready rq 0x0000) ∧
    (∃ (s : State) (rq : Rq), s.ready rq 0x0001) ∧
    (∃ (s : State) (rq : Rq) (tag : Nat) (ip : Nat) (port : Nat) (p : Nat) (hop : Nat), s.sessKind rq.sess = .eth ip port ∧ tag
      < 64 ∧ s.ethRoute ip = some (p, hop) ∧ (s.slot rq.sess tag).taken) ∧
    (∃ (s : State) (rq : Rq) (slot : Nat), s.ready rq 0x0032 ∧ rq.sess < 4 ∧ slot < 4) ∧
    (∃ (s : State) (rq : Rq) (n : Nat), s.ready rq 0x0031 ∧ 4 ≤ n ∧ n < 16 ∧ s.sessOpen n ∧ (rq.sess < 4 ∨ rq.sess = n)) :=
  ⟨⟨rdy, q0, by decide +kernel⟩,
   ⟨rdy, q0, by decide +kernel⟩,
   ⟨ethNet ethSlot, { sess := 4, tag := 9 }, 3, host1, 5000, 0, host1, by decide +kernel⟩,
   ⟨rdy, q0, 3, by decide +kernel⟩,
   ⟨rdy.openSession 15 (.eth 1 2), q0, 15, by decide +kernel⟩⟩

/-- The hypotheses of SessionOpenCompletes can be met, clause by clause. -/
theorem test_met_SessionOpenCompletes :
    (∃ (s : State) (rq : Rq) (ip : Nat) (q : Nat) (hop : Nat) (p : List Byte), s.held rq 0x0030 [.platform] = false ∧
      acceptedIn 0x0030 s.st ∧ rq.lock = none ∧ rq.needReply ∧ s.ethRoute ip = some (q, hop) ∧ leAt p 0 1 = 0 ∧ leAt p 1 1
      ≤ 3 ∧ firstNonzero (fun _ => true) (slice p 2 2) 18 = none ∧ tabGet false s.cmd.lockouts (leAt p 1 1) = false) ∧
    (∃ (s : State) (rq : Rq) (ip : Nat) (port : Nat) (n : Nat) (p : List Byte) (o : OpenTry), s.held rq 0x0030 [.platform] =
      false ∧ acceptedIn 0x0030 s.st ∧ rq.lock = none ∧ leAt p 0 1 = 1 ∧ leAt p 1 1 ≤ 3 ∧ firstNonzero (fun _ => true)
      (slice p 2 2) 18 = none ∧ s.cmd.opens.find? (fun q => q.ip == ip && q.port == port) = some o ∧ s.now ≤ o.tick +
      ticksOfMs 1000 ∧ o.slot = leAt p 1 1 ∧ hmacSha256 (s.key (leAt p 1 1)) (o.devNonce ++ o.hostNonce ++ bytesOf [leAt p
      1 1]) = slice p 4 32 ∧ s.freeSession = some n) :=
  ⟨⟨ethNet rdy, { sess := 255, tag := 63, seq := 9 }, host1, 0, host1, 0#8 :: 3#8 :: 0#8 :: 0#8 :: List.replicate 16 1#8,
     by decide +kernel⟩,
   
     ⟨{ ethNet rdy with cmd := { rdy.cmd with opens := [({ ip := host1, port := 2, slot := 3, hostNonce := List.replicate 16 1#8, devNonce := List.replicate 16 2#8, tick := 0 } : OpenTry)] }, now := ticksOfMs 1000 },
     { sess := 255, tag := 63, seq := 9 }, host1, 2, 4, [1#8, 3#8, 0#8, 0#8] ++ hmacSha256
     (({ ethNet rdy with cmd := { rdy.cmd with opens := [({ ip := host1, port := 2, slot := 3, hostNonce := List.replicate 16 1#8, devNonce := List.replicate 16 2#8, tick := 0 } : OpenTry)] }, now := ticksOfMs 1000 }
     : State).key 3)
     (({ ip := host1, port := 2, slot := 3, hostNonce := List.replicate 16 1#8, devNonce := List.replicate 16 2#8, tick := 0 }
     : OpenTry).devNonce ++
     ({ ip := host1, port := 2, slot := 3, hostNonce := List.replicate 16 1#8, devNonce := List.replicate 16 2#8, tick := 0 }
     : OpenTry).hostNonce ++ bytesOf [3]),
     { ip := host1, port := 2, slot := 3, hostNonce := List.replicate 16 1#8, devNonce := List.replicate 16 2#8, tick := 0 },
     by decide +kernel⟩⟩

/-- The hypotheses of RingCommandsComplete can be met, clause by clause. -/
theorem test_met_RingCommandsComplete :
    (∃ (s : State) (r : Nat) (idx : Nat), r < 4 ∧ (idx + idxMod - (s.ring r).cmdCons) % idxMod ≤ s.cmdSize r) ∧
    (∃ (s : State) (r : Nat) (idx : Nat), r < 4 ∧ s.cmdSize r < (idx + idxMod - (s.ring r).cmdCons) % idxMod ∧ s.fld
      Reg.CMD_ERR_CAUSE = 0) ∧
    (∃ (s : State) (r : Nat) (idx : Nat), r < 4 ∧ (idx + idxMod - (s.ring r).rplCons) % idxMod ≤ s.rplSize r) ∧
    (∃ (s : State) (r : Nat) (v : Nat), r < 4 ∧ (s.slot r (v % 64)).taken ∧ (s.slot r (v % 64)).done ∧ s.flag
      (Reg.CMD_CFG_ENABLE r)) ∧
    (∃ (s : State) (r : Nat), r < 4 ∧ s.flag (Reg.CMD_CFG_ENABLE r) ∧ s.rplFree r < 64) ∧
    (∃ (s : State) (r : Nat), r < 4 ∧ s.flag (Reg.CMD_CFG_ENABLE r) = false ∧ (s.ring r).waiting = []) ∧
    (∃ (r : Nat), r < 4) ∧
    (∃ (s : State) (n : Nat) (ip : Nat) (port : Nat), 4 ≤ n ∧ n < 16 ∧ (s.session n).kind = .eth ip port ∧ s.fld
      Reg.CMD_CTRL_ETH_IDLE_S ≠ 0) ∧
    (∃ (s : State) (q : Queued) (l : List Queued), s.cmd.queue = q :: l ∧ isBarrier q.opcode ∧ s.cmd.executing = [] ∧
      s.cmd.barrier = none) :=
  ⟨⟨ringOn, 3, 64, by decide +kernel⟩,
   ⟨ringOn, 3, 65, by decide +kernel⟩,
   ⟨ringOn, 3, 64, by decide +kernel⟩,
   ⟨doneSlot.setFld (Reg.CMD_CFG_ENABLE 0) 1, 0, 127, by decide +kernel⟩,
   ⟨ringOn.setRing 0 { rplProd := 1 }, 0, by decide +kernel⟩,
   ⟨rdy, 3, by decide +kernel⟩,
   ⟨3, by decide +kernel⟩,
   ⟨(rdy.openSession 4 (.eth 1 2)).setFld Reg.CMD_CTRL_ETH_IDLE_S 10, 4, 1, 2, by decide +kernel⟩,
   
     ⟨{ rdy with cmd := { rdy.cmd with queue := [({ sess := 0, tag := 1, opcode := 0x0052, doms := [.platform] } : Queued)] } },
     { sess := 0, tag := 1, opcode := 0x0052, doms := [.platform] }, [], by decide +kernel⟩⟩

/-- The hypotheses of LockCommandsComplete can be met, clause by clause. -/
theorem test_met_LockCommandsComplete :
    (∃ (s : State) (rq : Rq) (k : Nat) (w : Nat), s.ready rq 0x0020 ∧ k < 56 ∧ rq.sess < 16 ∧ s.lockOrderOk false rq.sess k ∧ w
      ≤ 1000 ∧ s.fld (Reg.LOCK_STATE k) = 0) ∧
    (∃ (s : State) (rq : Rq) (k : Nat) (w : Nat), s.ready rq 0x0020 ∧ k < 56 ∧ rq.sess < 16 ∧ s.lockOrderOk false rq.sess k ∧ w
      ≤ 1000 ∧ s.fld (Reg.LOCK_STATE k) = 2) ∧
    (∃ (s : State) (rq : Rq) (k : Nat) (w : Nat), s.ready rq 0x0020 ∧ k < 56 ∧ s.lockOrderOk false rq.sess k ∧ w ≤ 1000 ∧ w ≠ 0
      ∧ s.fld (Reg.LOCK_STATE k) = 1) ∧
    (∃ (s : State) (rq : Rq) (k : Nat), s.ready rq 0x0021 ∧ k < 64 ∧ s.holdsLock rq.sess k ∧ (s.lock k).waiters = []) ∧
    (∃ (s : State) (k : Nat) (n : Nat) (w : LockWait), firstToExpire n (s.lock k).waiters = some w ∧ s.sessOpen n ∧ (s.slot n
      w.tag).taken ∧ (s.slot n w.tag).done = false) ∧
    (∃ (s : State) (k : Nat), k < 64 ∧ s.fld (Reg.LOCK_STATE k) = 1 ∧ s.fld (Reg.LOCK_OWNER_KIND k) = 0 ∧ (s.lock k).waiters =
      []) ∧
    (∃ (s : State) (k : Nat) (e : Nat), k < 56 ∧ e < 256 ∧ s.lockOrderOk true e k ∧ (s.fld (Reg.LOCK_STATE k) = 0 ∨ s.fld
      (Reg.LOCK_STATE k) = 2)) ∧
    (∃ (s : State) (k : Nat) (e : Nat), k < 56 ∧ s.lockOrderOk true e k ∧ s.fld (Reg.LOCK_STATE k) = 1) ∧
    (∃ (s : State) (k : Nat) (e : Nat), s.lockHeldBy true e k ∧ (s.lock k).waiters = []) :=
  ⟨⟨rdy, q0, 55, 1000, by decide +kernel⟩,
   ⟨(rdy.setFld (Reg.LOCK_STATE 55) 2).setFld (Reg.LOCK_OWNER 55) 15, q0, 55, 0, by decide +kernel⟩,
   ⟨heldLock 55 3, q0, 55, 1, by decide +kernel⟩,
   ⟨heldLock 63 0, q0, 63, by decide +kernel⟩,
   ⟨{ (openSlot 0 5 0x0020) with locks := [(1, { waiters := [⟨5, false, 0, 5, some 10⟩] })] }, 1, 0, ⟨5, false, 0, 5, some
     10⟩, by decide +kernel⟩,
   ⟨heldLock 63 15, 63, by decide +kernel⟩,
   ⟨rdy, 55, 255, by decide +kernel⟩,
   ⟨heldLock 55 15, 55, 4, by decide +kernel⟩,
   ⟨(heldLock 63 15).setFld (Reg.LOCK_OWNER_KIND 63) 1, 63, 15, by decide +kernel⟩⟩

/-- The hypotheses of ArbiterCommandsComplete can be met, clause by clause. -/
theorem test_met_ArbiterCommandsComplete :
    (∃ (s : State) (n : Nat), s.arbStopped n = false) ∧
    (∃ (s : State) (n : Nat), s.arbStopped n) ∧
    (∃ (n : Nat), n < 100) ∧
    (∃ (s : State) (n : Nat) (rq : Rq), n < 100 ∧ s.sessOpen rq.sess ∧ (s.slot rq.sess rq.tag).taken ∧ (s.slot rq.sess
      rq.tag).done = false ∧ s.fld Reg.PLAT_STATE_COND = 0) :=
  ⟨⟨rdy, 99, by decide +kernel⟩,
   ⟨rdy.setFld (Reg.MEM_CH_STATUS_MAINT 63) 1, 87, by decide +kernel⟩,
   ⟨99, by decide +kernel⟩,
   ⟨openSlot 0 5 0x0100, 99, q0, by decide +kernel⟩⟩

/-- The hypotheses of TimeCommandsComplete can be met, clause by clause. -/
theorem test_met_TimeCommandsComplete :
    (∃ (s : State) (rq : Rq) (d : Nat), s.ready rq 0x0400 ∧ d ≤ 2) ∧
    (∃ (s : State) (rq : Rq) (d : Nat) (inc : Nat), s.ready rq 0x0401 ∧ d < 2 ∧ s.firmwareServo d = false ∧ 17162689315 ≤ inc ∧
      inc ≤ 17197049053) ∧
    (∃ (s : State) (rq : Rq) (d : Nat) (adj : Int), s.ready rq 0x0401 ∧ d < 2 ∧ d ≠ s.activeDom ∧ s.firmwareServo d = false ∧
      adj ≠ 0 ∧ 0 ≤ (s.clock d).units + adj * (2 ^ 32 : Nat) ∧ (s.clock d).units + adj * (2 ^ 32 : Nat) < (2 ^ 96 *
      1000000000 : Nat)) ∧
    (∃ (s : State) (rq : Rq) (d : Nat), s.ready rq 0x0402 ∧ d < 2 ∧ d ≠ s.activeDom ∧ s.domGap d < secUnits) ∧
    (∃ (s : State), s.flag Reg.TIME_CTRL_AUTO = false ∧ s.flag Reg.TIME_STATUS_HOLDOVER = false) ∧
    (∃ (s : State), s.flag Reg.TIME_CTRL_AUTO ∧ s.flag (Reg.TD_STATUS_LOCKED (1 - s.activeDom)) ∧ s.flag (Reg.TD_STATUS_PRESENT
      (1 - s.activeDom)) ∧ ((s.clock s.activeDom).units - (s.clock (1 - s.activeDom)).units).natAbs < secUnits) ∧
    (∃ (s : State), s.time.resid ≠ 0 ∧ slewToward s.slewStep s.time.resid = 0) ∧
    (∃ (s : State) (d : Nat), d < 2 ∧ s.secondDue d) ∧
    (∃ (s : State) (d : Nat), d < 2 ∧ s.countTick.alarmReached d) ∧
    (∃ (s : State) (p : Nat), p < 2 ∧ s.countTick.periodCrossed s.devTime p ∧ bitAt (s.fld Reg.TIME_CTRL_EV_EN) (4 + p)) ∧
    (∃ (s : State) (d : Nat) (port : Nat) (m : PtpMsg), d < 2 ∧ s.ptpTakes port m ∧ ptpRateOk m ∧ s.srcOf d = 1 + port ∧
      s.srcOf (1 - d) ≠ 1 + port ∧ s.srcOf (1 - d) ≠ 3 ∧ m.selected = false) ∧
    (∃ (s : State) (d : Nat) (port : Nat) (m : PtpMsg), d < 2 ∧ s.ptpTakes port m ∧ ptpRateOk m ∧ s.srcOf d = 1 + port ∧
      s.srcOf (1 - d) ≠ 1 + port ∧ s.srcOf (1 - d) ≠ 3 ∧ m.selected ∧ m.kind = .sync ∧ m.twoStep = false) ∧
    (∃ (s : State) (port : Nat) (m : PtpMsg), s.ptpTakes port m ∧ ptpRateOk m = false) ∧
    (∃ (s : State) (d : Nat) (port : Nat), d < 2 ∧ port < 2 ∧ s.flag (Reg.TIME_PTP_ENABLE port) ∧ s.srcOf d = 1 + port) :=
  ⟨⟨rdy, q0, 2, by decide +kernel⟩,
   ⟨rdy.setFld (Reg.TD_CTRL_SERVO 1) 1, q0, 1, 17162689315, by decide +kernel⟩,
   ⟨rdy.setFld (Reg.TD_CTRL_SERVO 1) 1, q0, 1, 5, by decide +kernel⟩,
   ⟨rdy, q0, 1, by decide +kernel⟩,
   ⟨rdy.setFld Reg.TIME_CTRL_AUTO 0, by decide +kernel⟩,
   ⟨((rdy.setFld Reg.TIME_CTRL_AUTO 1).setFld (Reg.TD_STATUS_LOCKED 1) 1).setFld (Reg.TD_STATUS_PRESENT 1) 1,
     by decide +kernel⟩,
   ⟨{ rdy with time := { rdy.time with resid := 1 } }, by decide +kernel⟩,
   ⟨(rdy.setFld Reg.TIME_CTRL_EV_EN 2).setClock 1 { sec := 5, ns := 999999999 }, 1, by decide +kernel⟩,
   ⟨((rdy.setFld Reg.TIME_CTRL_EV_EN 63).setFld (Reg.TD_STATUS_ALARM_ARMED 1) 1).setClock 1 { alarmLate := true }, 1,
     by decide +kernel⟩,
   ⟨((sets rdy [(Reg.TIME_CTRL_EV_EN, 63), (Reg.TIME_PERIOD_ENABLE 1, 1)]).setClock 0 { sec := 5, ns := 999999999 }), 1,
     by decide +kernel⟩,
   ⟨ptpOn, 1, 1, { kind := .announce, selected := false, portState := 6 }, by decide +kernel⟩,
   ⟨ptpOn, 1, 1, { kind := .sync }, by decide +kernel⟩,
   ⟨ptpOn, 1, { kind := .sync, logInterval := 5 }, by decide +kernel⟩,
   ⟨ptpOn, 1, 1, by decide +kernel⟩⟩

/-- The hypotheses of EventCommandsComplete can be met, clause by clause. -/
theorem test_met_EventCommandsComplete :
    (∃ (s : State) (p : Nat) (c : Nat) (k : Nat), p ≤ 120 ∧ c < 64 ∧ k < 85 ∧ k ≠ 56 ∧ s.awake ∧ (s.evt.waiting.any (fun w =>
      w.prod == p)) = false ∧ (∀ i, i < 64 → (s.matEnabled i p = true ↔ i = c)) ∧ (∀ i, i < 85 → (s.selects i = some c ↔ i
      = k)) ∧ s.consBusy k = false) ∧
    (∃ (s : State) (rq : Rq) (n : Nat), s.ready rq 0x0403 ∧ n < 8) ∧
    (∃ (s : State) (p : Nat) (ns : Nat) (level : Bool), p < 32 ∧ bitAt (s.fld Reg.EVT_PINDIR_OUT) p = false ∧ 5 ≤ ns ∧ level =
      !bitAt (s.fld Reg.EVT_PINPOL_LOW) p ∧ (tabGet 0 s.evt.pins p = 0 ∨ tabGet 0 s.evt.pins p + 25 < s.now + 1)) ∧
    (∃ (s : State) (p : Nat) (ns : Nat) (level : Bool), p < 32 ∧ bitAt (s.fld Reg.EVT_PINDIR_OUT) p = false ∧ 5 ≤ ns ∧ level =
      !bitAt (s.fld Reg.EVT_PINPOL_LOW) p ∧ tabGet 0 s.evt.pins p ≠ 0 ∧ s.now + 1 ≤ tabGet 0 s.evt.pins p + 25) ∧
    (∃ (s : State) (p : Nat) (ns : Nat) (level : Bool), (ns < 5 ∨ bitAt (s.fld Reg.EVT_PINDIR_OUT) p ∨ level = bitAt (s.fld
      Reg.EVT_PINPOL_LOW) p)) ∧
    (∃ (s : State) (p : Nat), p < 32 ∧ (s.cons p).busy ∧ bitAt (s.fld Reg.EVT_PINDIR_OUT) p) ∧
    (∃ (s : State) (u : Nat), u < 8 ∧ (s.cap u).valid = false) :=
  ⟨⟨evtRoute 120 63 84, 120, 63, 84, by decide +kernel⟩,
   ⟨rdy, q0, 7, by decide +kernel⟩,
   ⟨rdy, 31, 5, true, by decide +kernel⟩,
   ⟨{ rdy with evt := { rdy.evt with pins := [(31, 5)] }, now := 29 }, 31, 5, true, by decide +kernel⟩,
   ⟨rdy, 31, 4, true, by decide +kernel⟩,
   ⟨(rdy.setCons 31 { busy := true }).setFld Reg.EVT_PINDIR_OUT 0x80000000, 31, by decide +kernel⟩,
   ⟨rdy, 7, by decide +kernel⟩⟩

/-- The hypotheses of PositionCommandsComplete can be met, clause by clause. -/
theorem test_met_PositionCommandsComplete :
    (∃ (s : State) (e : Nat) (n : Nat) (a : Bool) (b : Bool) (d : Int), s.filtered e n ∧ s.flag (Reg.POS_CTRL_ENABLE e) ∧
      ((s.enc e).a = a ∨ (s.enc e).b = b ∨ s.fld (Reg.POS_CTRL_DECODE e) = 0) ∧ stepOf (s.fld (Reg.POS_CTRL_DECODE e)) a b
      ((s.enc e).a != a) ((s.enc e).b != b) = some d) ∧
    (∃ (s : State) (e : Nat) (n : Nat), s.filtered e n ∧ s.flag (Reg.POS_CTRL_ENABLE e) = false) ∧
    (∃ (s : State) (e : Nat) (n : Nat), s.filtered e n = false) ∧
    (∃ (s : State) (e : Nat) (n : Nat), s.filtered e n ∧ s.flag (Reg.POS_CTRL_ENABLE e) ∧ s.fld (Reg.POS_CTRL_DECODE e) ≠ 0) ∧
    (∃ (s : State) (e : Nat) (n : Nat), s.filtered e n ∧ s.flag (Reg.POS_CTRL_ENABLE e) ∧ s.flag (Reg.POS_STATUS_INDEX_SEEN e)
      = false) ∧
    (∃ (s : State) (e : Nat) (n : Nat), s.filtered e n ∧ s.flag (Reg.POS_CTRL_ENABLE e) ∧ s.flag (Reg.POS_STATUS_INDEX_SEEN e)
      ∧ s.fld (Reg.POS_INDEX_REV e) ≠ 0 ∧ indexDeviation (s.enc e).c (s.enc e).iRef (s.fld (Reg.POS_INDEX_REV e)) = 0) ∧
    (∃ (s : State) (e : Nat) (n : Nat), s.filtered e n ∧ s.flag (Reg.POS_CTRL_ENABLE e) ∧ s.flag (Reg.POS_STATUS_INDEX_SEEN e)
      ∧ s.fld (Reg.POS_INDEX_REV e) ≠ 0 ∧ s.fld (Reg.POS_CTRL_TOL e) < (indexDeviation (s.enc e).c (s.enc e).iRef (s.fld
      (Reg.POS_INDEX_REV e))).natAbs) ∧
    (∃ (s : State) (e : Nat), e < 8 ∧ s.flag (Reg.POS_CTRL_ENABLE e)) ∧
    (∃ (s : State) (rq : Rq) (e : Nat), s.ready rq 0x0305 ∧ e < 8 ∧ s.flag (Reg.POS_CTRL_ENABLE e)) ∧
    (∃ (s : State) (u : Nat) (w : SsiWord), u < 8 ∧ s.flag (Reg.SSI_CTRL_ENABLE u) ∧ s.ssiError u w = 0) ∧
    (∃ (s : State) (u : Nat) (w : SsiWord), u < 8 ∧ s.flag (Reg.SSI_CTRL_ENABLE u) ∧ s.ssiError u w ≠ 0) :=
  ⟨⟨enc7, 7, 63, true, false, 1, by decide +kernel⟩,
   ⟨rdy, 7, 63, by decide +kernel⟩,
   ⟨enc7, 7, 0, by decide +kernel⟩,
   ⟨enc7, 7, 63, by decide +kernel⟩,
   ⟨enc7, 7, 63, by decide +kernel⟩,
   ⟨sets enc7 [(Reg.POS_STATUS_INDEX_SEEN 7, 1), (Reg.POS_INDEX_REV 7, 1000)], 7, 63, by decide +kernel⟩,
   ⟨(sets enc7 [(Reg.POS_STATUS_INDEX_SEEN 7, 1), (Reg.POS_INDEX_REV 7, 1000), (Reg.POS_CTRL_TOL 7, 2)]).setEnc 7
     { c := 503 }, 7, 63, by decide +kernel⟩,
   ⟨enc7, 7, by decide +kernel⟩,
   ⟨enc7, q0, 7, by decide +kernel⟩,
   ⟨sets rdy [(Reg.SSI_CTRL_ENABLE 7, 1)], 7, { bits := [true, false, true], idle := true, endHigh := true },
     by decide +kernel⟩,
   ⟨sets rdy [(Reg.SSI_CTRL_ENABLE 7, 1), (Reg.SSI_CTRL_MISS_LIMIT 7, 1)], 7,
     { bits := [true, false, true], idle := false, endHigh := true }, by decide +kernel⟩⟩

/-- The hypotheses of AxisCommandsComplete can be met, clause by clause. -/
theorem test_met_AxisCommandsComplete :
    (∃ (s : State) (rq : Rq) (a : Nat) (speed : Nat) (target : Int), s.ready rq 0x0300 ∧ a < 16 ∧ s.liftLocked a = false ∧
      (s.axState a = axStanding ∨ s.axState a = axFaultLimit ∧ s.awayFromLimit a (decide (s.axPos a < target))) ∧ (s.axis
      a).plan = none ∧ axMin ≤ target ∧ target ≤ axMax ∧ speed ≠ 0 ∧ s.softTarget a target = target) ∧
    (∃ (s : State) (rq : Rq) (a : Nat) (speed : Nat) (step : Int), s.ready rq 0x0300 ∧ a < 16 ∧ s.liftLocked a = false ∧
      s.axState a = axStanding ∧ (s.axis a).plan = none ∧ axMin ≤ s.axPos a + step ∧ s.axPos a + step ≤ axMax ∧ speed ≠ 0
      ∧ s.softTarget a (s.axPos a + step) ≠ s.axPos a + step) ∧
    (∃ (s : State) (rq : Rq) (a : Nat) (dir : Nat), s.ready rq 0x0302 ∧ a < 16 ∧ dir < 2 ∧ s.liftLocked a = false ∧ s.axState a
      = axStanding ∧ (s.axis a).plan = none) ∧
    (∃ (s : State) (rq : Rq) (a : Nat) (ramp : Nat), s.ready rq 0x0301 ∧ a < 16 ∧ ramp < 2 ∧ s.axState a ≠ axFollow ∧ (s.axis
      a).plan = none) ∧
    (∃ (s : State) (rq : Rq) (a : Nat) (ramp : Nat), s.ready rq 0x0301 ∧ a < 16 ∧ ramp < 2 ∧ s.axState a = axFollow ∧
      s.axAtLimit a = false) ∧
    (∃ (s : State) (rq : Rq) (a : Nat) (ramp : Nat) (p : AxisPlan), s.ready rq 0x0301 ∧ a < 16 ∧ ramp < 2 ∧ s.axState a =
      axMoving ∧ (s.axis a).plan = some p ∧ p.kind = 0) ∧
    (∃ (s : State) (rq : Rq) (a : Nat) (acc : Nat) (dec : Nat), s.ready rq 0x0303 ∧ a < 16 ∧ acc ≠ 0 ∧ dec ≠ 0 ∧ s.axState a ≠
      axMoving ∧ s.axState a ≠ axHoming) ∧
    (∃ (s : State) (rq : Rq) (a : Nat) (acc : Nat) (dec : Nat), s.ready rq 0x0303 ∧ a < 16 ∧ acc ≠ 0 ∧ dec ≠ 0 ∧ (s.axState a =
      axMoving ∨ s.axState a = axHoming)) ∧
    (∃ (s : State) (rq : Rq) (c : Chunk) (tb : List Byte), s.ready rq 0x0304 ∧ c.inst < 16 ∧ judgeChunk false (s.staged 0x0304
      c.inst) c = .whole tb ∧ tb.length = 512 ∧ halfAbove 4095 tb = none) ∧
    (∃ (s : State) (rq : Rq) (c : Chunk) (x : Staging), s.ready rq 0x0304 ∧ c.inst < 16 ∧ judgeChunk false (s.staged 0x0304
      c.inst) c = .more x) ∧
    (∃ (s : State) (rq : Rq) (a : Nat), s.ready rq 0x0306 ∧ a < 16) :=
  ⟨⟨ax 15 axStanding, q0, 15, 1, axMax, by decide +kernel⟩,
   ⟨sets (ax 15 axStanding) [(Reg.AX_STATUS_HOMED 15, 1), (Reg.AX_SOFT_HI_SOFT_HI 15, 10)], q0, 15, 1, 11, by decide +kernel⟩,
   ⟨ax 15 axStanding, q0, 15, 1, by decide +kernel⟩,
   ⟨ax 15 axOff, q0, 15, 1, by decide +kernel⟩,
   ⟨(ax 15 axFollow).setFld (Reg.AX_CTRL_FOLLOW 15) 1, q0, 15, 1, by decide +kernel⟩,
   ⟨axRun 15, q0, 15, 1, axPlan, by decide +kernel⟩,
   ⟨ax 15 axStanding, q0, 15, 1, 1, by decide +kernel⟩,
   ⟨ax 15 axHoming, q0, 15, 1, 1, by decide +kernel⟩,
   ⟨rdy, q0, whole 15 (List.replicate 512 15#8), List.replicate 512 15#8, by decide +kernel⟩,
   ⟨rdy, q0, ⟨15, 0, 0, 8, [1#8, 2#8, 3#8, 4#8]⟩, ⟨8, false, [1#8, 2#8, 3#8, 4#8]⟩, by decide +kernel⟩,
   ⟨rdy, q0, 15, by decide +kernel⟩⟩

/-- The hypotheses of AxisEventsComplete can be met, clause by clause. -/
theorem test_met_AxisEventsComplete :
    (∃ (s : State) (a : Nat) (p : AxisPlan), a < 16 ∧ s.awake ∧ s.axState a = axMoving ∧ (s.axis a).plan = some p ∧
      AxisPlan.over { p with n := p.n + 1 } = false) ∧
    (∃ (s : State) (a : Nat) (p : AxisPlan) (g : Int), a < 16 ∧ s.awake ∧ s.axState a = axMoving ∧ (s.axis a).plan = some p ∧
      p.goal = some g ∧ AxisPlan.over { p with n := p.n + 1 } ∧ axMin ≤ g ∧ g ≤ axMax ∧ s.axAtLimit a = false) ∧
    (∃ (s : State) (a : Nat), a < 16 ∧ s.axState a = axStanding ∧ s.awake) ∧
    (∃ (s : State) (a : Nat), a < 16 ∧ s.axState a = axFollow ∧ s.flag (Reg.AX_STATUS_HOMED a) = false) ∧
    (∃ (s : State) (a : Nat), a < 16 ∧ s.awake ∧ s.axState a = axStanding ∧ s.flag (Reg.AX_CTRL_FOLLOW a) = false ∧ s.passes
      (Reg.AX_CTRL_FOLLOW a) 1) ∧
    (∃ (sw : Nat), sw < 32) ∧
    (∃ (s : State) (a : Nat), a < 16 ∧ s.axState a ≠ axFaultStage) ∧
    (∃ (s : State) (a : Nat), a < 16 ∧ s.awake ∧ s.axState a = axOff ∧ s.flag (Reg.AX_CTRL_ENABLE a) = false ∧ s.axAtLimit a =
      false ∧ s.passes (Reg.AX_CTRL_ENABLE a) 1) ∧
    (∃ (s : State) (a : Nat), a < 16 ∧ s.awake ∧ s.axState a ≠ axOff ∧ s.flag (Reg.AX_CTRL_ENABLE a) ∧ s.passes
      (Reg.AX_CTRL_ENABLE a) 0) ∧
    (∃ (s : State) (a : Nat) (p : AxisPlan), a < 16 ∧ s.axState a ≠ axFollow ∧ (s.axis a).plan = some p ∧ p.kind ≠ 2) ∧
    (∃ (s : State) (a : Nat), a < 16 ∧ s.axState a = axFollow ∧ (s.axis a).plan = none ∧ s.axAtLimit a = false) :=
  ⟨⟨axRun 15, 15, axPlan, by decide +kernel⟩,
   ⟨axEnd 15, 15, { axPlan with n := 1000000 }, 100, by decide +kernel⟩,
   ⟨ax 15 axStanding, 15, by decide +kernel⟩,
   ⟨(ax 15 axFollow).setAxis 15 { followTotal := 7, followDone := 2 }, 15, by decide +kernel⟩,
   ⟨sets (ax 15 axStanding) [(Reg.AX_CTRL_ENABLE 15, 1), (Reg.AX_STATUS_HOMED 15, 0)], 15, by decide +kernel⟩,
   ⟨31, by decide +kernel⟩,
   ⟨ax 15 axStanding, 15, by decide +kernel⟩,
   ⟨ax 15 axOff, 15, by decide +kernel⟩,
   ⟨sets (ax 15 axStanding) [(Reg.AX_CTRL_ENABLE 15, 1)], 15, by decide +kernel⟩,
   ⟨axRun 15, 15, axPlan, by decide +kernel⟩,
   ⟨(ax 15 axFollow).setFld (Reg.AX_CTRL_FOLLOW 15) 1, 15, by decide +kernel⟩⟩

/-- The hypotheses of CommandPacketCompletes can be met, clause by clause. -/
theorem test_met_CommandPacketCompletes :
    (∃ (s : State) (ip : Nat) (port : Nat) (b : List Byte), headerOk b ∧ b.length = 16 + (headerOf b).length ∧ 4 ≤ (headerOf
      b).session ∧ (s.session (headerOf b).session).kind = .eth ip port ∧ (headerOf b).opcode ≠ 0x0030 ∧ s.inTurn
      (headerOf b).session b ∧ s.sound false b) ∧
    (∃ (s : State) (r : Nat) (b : List Byte), r < 4 ∧ s.ringTakes r ∧ headerOk b ∧ (headerOf b).session = r ∧ ((headerOf
      b).opcode ≠ 0 ∨ (headerOf b).tag ≠ 255) ∧ (s.ring r).cmdCons % s.cmdSize r + unitsOf (headerOf b).length ≤ s.cmdSize
      r ∧ (headerOf b).opcode ≠ 0x0030 ∧ s.inTurn r b ∧ s.sound false b) ∧
    (∃ (s : State) (u : State) (dev : Nat) (sess : Nat) (n : Nat) (b : List Byte), b.length = 16 + (headerOf b).length ∧
      (headerOf b).length ≤ 4080 ∧ ((headerOf b).opcode ≠ 0x0031 ∨ (headerOf b).tag ≠ 255) ∧ sess < 16 ∧
      s.forwardedSession dev sess = some (n, u) ∧ s.sound true b) ∧
    (∃ (s : State) (ip : Nat) (port : Nat) (b : List Byte), headerOk b ∧ b.length = 16 + (headerOf b).length ∧ 4 ≤ (headerOf
      b).session ∧ (s.session (headerOf b).session).kind = .eth ip port ∧ (headerOf b).opcode ≠ 0x0030 ∧ s.inTurn
      (headerOf b).session b ∧ s.flagBreach false (headerOf b) (payloadOf b (headerOf b)) = none ∧ (headerOf b).chained ∧
      (headerOf b).target ≠ s.chainId) ∧
    (∃ (s : State) (r : Nat) (b : List Byte), r < 4 ∧ s.ringTakes r ∧ (headerOf b).opcode = 0 ∧ (headerOf b).tag = 255) ∧
    (∃ (s : State) (ip : Nat) (port : Nat) (p : Nat) (hop : Nat) (b : List Byte), headerOk b ∧ b.length = 16 + (headerOf
      b).length ∧ 4 ≤ (headerOf b).session ∧ (s.session (headerOf b).session).kind = .eth ip port ∧ (headerOf b).opcode ≠
      0x0030 ∧ s.ethRoute ip = some (p, hop) ∧ (headerOf b).opcode ≠ 0x0002 ∧ (s.slot (headerOf b).session (headerOf
      b).tag).taken ∧ (s.slot (headerOf b).session (headerOf b).tag).done ∧ (s.slot (headerOf b).session (headerOf
      b).tag).opcode = (headerOf b).opcode ∧ (s.slot (headerOf b).session (headerOf b).tag).seq = (headerOf b).seq) :=
  ⟨⟨ethOn, 1, 2, pkt 0x0001 63 2 15 255 9, by decide +kernel⟩,
   ⟨ringRdy, 3, pkt 0x0001 63 2 3 255 9, by decide +kernel⟩,
   ⟨rdy, rdy.openSession 4 (.forwarded 3 2), 3, 2, 4, pkt 0x0001 63 6 2 255 9, by decide +kernel⟩,
   ⟨chainOn, 1, 2, pkt 0x0001 63 6 15 3 9, by decide +kernel⟩,
   ⟨ringRdy, 3, leBytes 2 0 ++ bytesOf [255, 0] ++ leBytes 12 0, by decide +kernel⟩,
   ⟨(ethNet (rdy.openSession 15 (.eth host1 2))).setSlot 15 63 { taken := true, done := true, opcode := 1, seq := 9 }, host1,
     2, 0, host1, pkt 0x0001 63 2 15 255 9, by decide +kernel⟩⟩

/-- The hypotheses of RegisterCommandsComplete, clause 1, can be met. -/
theorem test_met_RegisterCommandsComplete_1 :
    ∃ (s : State) (rq : Rq) (addr : Nat), s.ready rq 0x0010 [domainOfBlock (blockOf addr % 256)] ∧ rangeOk addr 1 ∧ (planRow
      addr).isSome :=
  ⟨rdy, q0, Reg.PLAT_STATE, by decide +kernel⟩

/-- The hypotheses of RegisterCommandsComplete, clause 2, can be met. -/
theorem test_met_RegisterCommandsComplete_2 :
    ∃ (s : State) (rq : Rq) (addr : Nat) (n : Nat), s.ready rq 0x0010 [domainOfBlock (blockOf addr % 256)] ∧ 1 ≤ n ∧ n ≤ 1020
      ∧ rangeOk addr n :=
  ⟨rdy, q0, Reg.PLAT_STATE, 3, by decide +kernel⟩

/-- The hypotheses of RegisterCommandsComplete, clause 3, can be met. -/
theorem test_met_RegisterCommandsComplete_3 :
    ∃ (s : State) (rq : Rq) (i : Nat), s.ready rq 0x0011 [.platform] ∧ i < 20 :=
  ⟨rdy, q0, 19, by decide +kernel⟩

/-- The hypotheses of RegisterCommandsComplete, clause 4, can be met. -/
theorem test_met_RegisterCommandsComplete_4 :
    ∃ (s : State) (u : State) (rq : Rq) (addr : Nat) (vals : List Word), u.sessOpen rq.sess ∧ s.ready rq 0x0011 [domainOfBlock
      (blockOf addr % 256)] ∧ 1 ≤ vals.length ∧ vals.length ≤ 1018 ∧ rangeOk addr vals.length ∧ (∀ i, i < vals.length →
      (planRow (addr + 4 * i)).isSome) ∧ (s.take rq).tryWrites (vals.zipIdx.map fun v => (24 + 4 * v.2, (⟨addr + 4 * v.2,
      0xFFFFFFFF#32, v.1⟩ : RegEntry))) = .done u :=
  ⟨rdy, doneState ((rdy.take q0).tryWrites (([1#32, 2#32]).zipIdx.map fun v => (24 + 4 * v.2, (⟨(Reg.PLAT_SCRATCH 18) + 4 *
    v.2, 0xFFFFFFFF#32, v.1⟩ : RegEntry)))), q0, Reg.PLAT_SCRATCH 18, [1#32, 2#32], by decide +kernel, by decide +kernel,
    by decide +kernel, by decide +kernel, by decide +kernel, by decide +kernel, done_of _ (by decide +kernel)⟩

/-- The hypotheses of RegisterCommandsComplete, clause 5, can be met. -/
theorem test_met_RegisterCommandsComplete_5 :
    ∃ (s : State) (rq : Rq) (i : Nat), s.ready rq 0x0012 [.platform] ∧ i < 20 :=
  ⟨rdy, q0, 19, by decide +kernel⟩

/-- The hypotheses of RegisterCommandsComplete, clause 6, can be met. -/
theorem test_met_RegisterCommandsComplete_6 :
    ∃ (s : State) (u : State) (rq : Rq) (l : List RegEntry), u.sessOpen rq.sess ∧ s.ready rq 0x0012 (modifyDomains l) ∧ (∀ e ∈
      l, addrOk e.addr = true ∧ (planRow e.addr).isSome = true) ∧ (s.take rq).tryWrites (l.zipIdx.map fun e => (24 + 12 *
      e.2, e.1)) = .done u :=
  ⟨rdy, doneState ((rdy.take q0).tryWrites (([⟨Reg.PLAT_SCRATCH 0, 1#32, 1#32⟩, ⟨Reg.PACE_CTRL, 0#32, 0#32⟩]).zipIdx.map fun
    e => (24 + 12 * e.2, e.1))), q0, [⟨Reg.PLAT_SCRATCH 0, 1#32, 1#32⟩, ⟨Reg.PACE_CTRL, 0#32, 0#32⟩], by decide +kernel,
    by decide +kernel, by decide +kernel, done_of _ (by decide +kernel)⟩

/-- The hypotheses of RegisterCommandsComplete, clause 7, can be met. -/
theorem test_met_RegisterCommandsComplete_7 :
    ∃ (a : Nat) (i : Nat) (r : RegRow) (f : FieldRow), planRow a = some (r, i) ∧ f ∈ r.fields ∧ f.access = .rc :=
  ⟨Reg.CMD_ERR, (rowAt Reg.CMD_ERR).2, (rowAt Reg.CMD_ERR).1, rcField ((rowAt Reg.CMD_ERR).1), by decide +kernel⟩

/-- The hypotheses of RegisterCommandsComplete, clause 8, can be met. -/
theorem test_met_RegisterCommandsComplete_8 :
    ∃ (s : State) (a : Nat) (i : Nat) (r : RegRow) (f : FieldRow), planRow a = some (r, i) ∧ f ∈ r.fields ∧ f.access = .rc ∧
      s.st ≠ stBooting :=
  ⟨rdy.setFld Reg.CMD_ERR_CAUSE 3, Reg.CMD_ERR, (rowAt Reg.CMD_ERR).2, (rowAt Reg.CMD_ERR).1, rcField ((rowAt
    Reg.CMD_ERR).1), by decide +kernel⟩

/-- The hypotheses of RegisterCommandsComplete, clause 9, can be met. -/
theorem test_met_RegisterCommandsComplete_9 :
    ∃ (a : Nat) (h : Nat), (planRow a).isSome ∧ h ∈ latchedBy a :=
  ⟨Reg.PLAT_UPTIME_LO, Reg.PLAT_UPTIME_HI, by decide +kernel⟩

/-- The hypotheses of RegisterCommandsComplete, clause 10, can be met. -/
theorem test_met_RegisterCommandsComplete_10 :
    ∃ (s : State) (a : Nat) (h : Nat), (planRow a).isSome ∧ h ∈ latchedBy a ∧ s.st ≠ stBooting :=
  ⟨rdy, Reg.PLAT_UPTIME_LO, Reg.PLAT_UPTIME_HI, by decide +kernel⟩

/-- The hypotheses of RegisterCommandsComplete, clause 11, can be met. -/
theorem test_met_RegisterCommandsComplete_11 :
    ∃ (s : State) (k : Nat), s.fld Reg.TSCAP_SEL_UNIT = k ∧ (s.cap k).valid :=
  ⟨(rdy.setCap 7 { valid := true }).setFld Reg.TSCAP_SEL_UNIT 7, 7, by decide +kernel⟩

/-- The hypotheses of RegisterCommandsComplete, clause 12, can be met. -/
theorem test_met_RegisterCommandsComplete_12 :
    ∃ (s : State) (k : Nat), s.fld Reg.TSCAP_SEL_UNIT = k ∧ (s.cap k).valid ∧ s.st ≠ stBooting :=
  ⟨(rdy.setCap 7 { valid := true }).setFld Reg.TSCAP_SEL_UNIT 7, 7, by decide +kernel⟩

/-- The hypotheses of RegisterCommandsComplete, clause 13, can be met. -/
theorem test_met_RegisterCommandsComplete_13 :
    ∃ (u : Nat), u < 32 :=
  ⟨31, by decide +kernel⟩

/-- The hypotheses of RegisterCommandsComplete, clause 14, can be met. -/
theorem test_met_RegisterCommandsComplete_14 :
    ∃ (s : State) (u : Nat), u < 32 ∧ s.st ≠ stBooting ∧ tabGet none s.latches (latchKey .bar0 (Reg.CHK_DATA u)) = none :=
  ⟨rdy.setFld (Reg.CHK_IDX_INDEX 31) 15, 31, by decide +kernel⟩

/-- The hypotheses of Bar0WriteCompletes can be met, clause by clause. -/
theorem test_met_Bar0WriteCompletes :
    (∃ (s : State) (addr : Nat) (i : Nat) (r : RegRow), addrOk addr ∧ directBlock (blockOf addr) ∧ planRow addr = some (r, i) ∧
      r.passive = false ∧ s.defers addr = false) ∧
    (∃ (s : State) (addr : Nat) (i : Nat) (r : RegRow), addrOk addr ∧ directBlock (blockOf addr) ∧ planRow addr = some (r, i) ∧
      r.passive = false ∧ s.defers addr) ∧
    (∃ (i : Nat), i < 256) ∧
    (∃ (s : State) (i : Nat) (be : Nat), i < 256 ∧ be ≠ 15 ∧ s.fld Reg.CMD_ERR_CAUSE = 0) ∧
    (∃ (s : State) (i : Nat), i < 20 ∧ s.fld Reg.CMD_ERR_CAUSE = 0) :=
  ⟨⟨rdy, Reg.EVT_MAT 255, 255, (rowAt (Reg.EVT_MAT 255)).1, by decide +kernel⟩,
   ⟨(inState stAsleep).setFld Reg.PWR_STATUS_PSTATE 2, Reg.DMA_WB_LO, 0, (rowAt Reg.DMA_WB_LO).1, by decide +kernel⟩,
   ⟨255, by decide +kernel⟩,
   ⟨rdy, 255, 14, by decide +kernel⟩,
   ⟨rdy, 19, by decide +kernel⟩⟩

/-- The hypotheses of ConfigCommandsComplete can be met, clause by clause. -/
theorem test_met_ConfigCommandsComplete :
    (∃ (s : State) (u : State) (rq : Rq) (c : Chunk) (tb : List Byte) (assign : Option (List Half)), s.ready rq 0x0040 ∧ s.inSt
      [stBooting, stAsleep, stHalted] = false ∧ c.inst = 0 ∧ u.sessOpen rq.sess ∧ judgeChunk true (s.staged 0x0040 0) c =
      .whole tb ∧ ((s.take rq).setStaged 0x0040 0 {}).applyImage tb (chunkReset c) assign = .ok u) ∧
    (∃ (s : State) (rq : Rq) (c : Chunk) (x : Staging), s.ready rq 0x0040 ∧ s.inSt [stBooting, stAsleep, stHalted] = false ∧
      c.inst = 0 ∧ judgeChunk true (s.staged 0x0040 0) c = .more x) ∧
    (∃ (s : State) (u : State) (rq : Rq) (c : Chunk) (tb : List Byte) (assign : Option (List Half)), s.ready rq 0x0041 ∧ c.inst
      = 0 ∧ judgeChunk true (s.staged 0x0041 0) c = .whole tb ∧ ((s.take rq).setStaged 0x0041 0 {}).applyImage tb
      (chunkReset c) assign = .ok u) ∧
    (∃ (s : State) (rq : Rq) (c : Chunk) (tb : List Byte) (f : ImageFault) (assign : Option (List Half)), s.ready rq 0x0041 ∧
      c.inst = 0 ∧ judgeChunk true (s.staged 0x0041 0) c = .whole tb ∧ ((s.take rq).setStaged 0x0041 0 {}).applyImage tb
      (chunkReset c) assign = .error f) ∧
    (∃ (s : State) (rq : Rq) (c : Chunk) (x : Staging), s.ready rq 0x0041 ∧ c.inst = 0 ∧ judgeChunk true (s.staged 0x0041 0) c
      = .more x) :=
  ⟨⟨rdy, okState (((rdy.take q0).setStaged 0x0040 0 {}).applyImage imgEnd false none), q0, whole 0 imgEnd, imgEnd, none,
     by decide +kernel⟩,
   ⟨rdy, q0, ⟨0, 0, 0, 8, [0#8, 0#8, 0#8, 0#8]⟩, ⟨8, false, [0#8, 0#8, 0#8, 0#8]⟩, by decide +kernel⟩,
   ⟨rdy, okState (((rdy.take q0).setStaged 0x0041 0 {}).applyImage imgEnd false none), q0, whole 0 imgEnd, imgEnd, none,
     by decide +kernel⟩,
   ⟨rdy, q0, whole 0 badImg, badImg, faultOf (((rdy.take q0).setStaged 0x0041 0 {}).applyImage badImg false none), none,
     by decide +kernel⟩,
   ⟨rdy, q0, ⟨0, 0, 0, 8, [0#8, 0#8, 0#8, 0#8]⟩, ⟨8, false, [0#8, 0#8, 0#8, 0#8]⟩, by decide +kernel⟩⟩

/-- The hypotheses of FieldWritesComplete can be met, clause by clause. -/
theorem test_met_FieldWritesComplete :
    (∃ (s : State) (k : Nat) (v : Nat), k < 64 ∧ s.passes (Reg.LOCK_HOLD_LIMIT k) v) ∧
    (∃ (s : State) (j : Nat) (v : Nat), j < 16 ∧ s.awake ∧ v ≤ 2 ∧ s.passes (Reg.ARB_J_CTRL_FAIRNESS j) v) ∧
    (∃ (s : State) (v : Nat), s.passes Reg.PACE_CTRL_MODE v) ∧
    (∃ (s : State) (v : Nat), s.passes Reg.PACE_LIMIT_VCAP_MV v) ∧
    (∃ (s : State) (u : Nat) (e : Bool), u < 16 ∧ s.awake ∧ s.passes (Reg.DCMP_CTRL_ENABLE u) (b2n e)) ∧
    (∃ (s : State) (d : Nat) (v : Nat), d < 2 ∧ s.passes (Reg.TD_ALARM_NS_NS d) v) ∧
    (∃ (s : State) (n : Nat), n < 24 ∧ s.awake ∧ s.flag (Reg.CAP_CTRL_ENABLE n) = false ∧ s.passes (Reg.CAP_CTRL_ENABLE n) 1) ∧
    (∃ (s : State) (n : Nat), n < 24 ∧ s.awake ∧ s.flag (Reg.CAP_CTRL_ENABLE n) ∧ s.passes (Reg.CAP_CTRL_ENABLE n) 0) :=
  ⟨⟨rdy, 55, 10, by decide +kernel⟩,
   ⟨rdy, 15, 1, by decide +kernel⟩,
   ⟨rdy, 1, by decide +kernel⟩,
   ⟨rdy, 800, by decide +kernel⟩,
   ⟨rdy, 15, false, by decide +kernel⟩,
   ⟨rdy, 1, 999999999, by decide +kernel⟩,
   ⟨rdy, 23, by decide +kernel⟩,
   ⟨rdy.setFld (Reg.CAP_CTRL_ENABLE 23) 1, 23, by decide +kernel⟩⟩

/-- The hypotheses of ResetCommandsComplete can be met, clause by clause. -/
theorem test_met_ResetCommandsComplete :
    (∃ (s : State), s.pwr.off = none) ∧
    (∃ (s : State) (c : Nat), s.pwr.off = some c ∧ c ≤ 4) ∧
    (∃ (s : State) (c : Nat), s.pwr.off = none ∧ 1 ≤ c ∧ c ≤ 4) :=
  ⟨⟨rdy, by decide +kernel⟩,
   ⟨{ rdy with pwr := { rdy.pwr with off := some 4 } }, 4, by decide +kernel⟩,
   ⟨rdy, 4, by decide +kernel⟩⟩

/-- The hypotheses of BootReachesStandby can be met. -/
theorem test_met_BootReachesStandby :
    ∃ (s : State) (env : BootEnv), env.badSlots = [] ∧ env.badPhases = [] ∧ env.badDram = [] ∧ env.failed = [] ∧ env.chainW =
      0 ∧ s.flag Reg.NVC_SLOT_ACTIVE = false ∧ s.flag Reg.NVC_SLOT_A_VALID ∧ (∀ e ∈ s.nvc.cal, e.2.a = e.2.b) ∧
      (s.calNewest 0x01 0).isSome :=
  ⟨State.reset, {}, by decide +kernel⟩

/-- The hypotheses of PowerCommandsComplete can be met, clause by clause. -/
theorem test_met_PowerCommandsComplete :
    (∃ (s : State) (p : Nat), p < 40 ∧ bitAt (s.fld (phaseFld p).1) (phaseFld p).2 = false) ∧
    (∃ (s : State) (g : Nat) (l : Nat), l < zoneLines g ∧ s.flag Reg.PWR_CTRL_WAKE_ZONE = false) ∧
    (∃ (s : State) (rq : Rq), s.ready rq 0x0050) ∧
    (∃ (s : State) (rq : Rq), s.ready rq 0x0051) ∧
    (∃ (s : State) (rq : Rq), s.ready rq 0x0052 ∧ s.sleepBusy = false) ∧
    (∃ (s : State), s.flag Reg.PWR_STATUS_ENTERING ∧ s.pwr.wakeDue = 0) ∧
    (∃ (s : State) (rq : Rq), s.ready rq 0x0053 ∧ s.flag Reg.PWR_STATUS_ENTERING = false ∧ s.flag Reg.PWR_STATUS_WAKING = false) ∧
    (∃ (s : State), s.flag Reg.PWR_CTRL_WAKE_PIN ∧ s.st = stAsleep ∧ s.flag Reg.PWR_STATUS_ENTERING = false ∧ s.flag
      Reg.PWR_STATUS_WAKING = false) ∧
    (∃ (s : State), s.flag Reg.PWR_CTRL_WAKE_EVT ∧ s.st = stAsleep ∧ s.flag Reg.PWR_STATUS_ENTERING = false ∧ s.flag
      Reg.PWR_STATUS_WAKING = false) ∧
    (∃ (s : State), s.flag Reg.PWR_STATUS_WAKING ∧ s.pwr.owed = false ∧ s.pwr.later = []) ∧
    (∃ (s : State), s.flag Reg.PWR_STATUS_WAKING ∧ s.pwr.owed = false) ∧
    (∃ (s : State) (e : Nat), e < 256 ∧ s.inSt [stStandby, stReady, stService, stHalted] ∧ s.flag Reg.PWR_CTRL_DOZE_EN ∧ s.half
      (e / 8) ≠ 2 ∧ s.dozes e = false ∧ (s.cluster (e / 16)).vacant.contains (e % 16) = false) ∧
    (∃ (s : State) (e : Nat), s.dozes e ∧ s.mayPowerUp (e / 8)) ∧
    (∃ (s : State) (o : Nat), s.pwr.off = none ∧ o < 0x40 ∧ o % 4 = 0) ∧
    (∃ (s : State), s.pwr.off = none) :=
  ⟨⟨rdy, 39, by decide +kernel⟩,
   ⟨rdy, 0, 0, by decide +kernel⟩,
   ⟨rdy, q0, by decide +kernel⟩,
   ⟨(inState stService).setFld Reg.PLAT_STATE_PREV stReady, q0, by decide +kernel⟩,
   ⟨rdy, q0, by decide +kernel⟩,
   ⟨rdy.setFld Reg.PWR_STATUS_ENTERING 1, by decide +kernel⟩,
   ⟨inState stAsleep, q0, by decide +kernel⟩,
   ⟨(inState stAsleep).setFld Reg.PWR_CTRL_WAKE_PIN 1, by decide +kernel⟩,
   ⟨(inState stAsleep).setFld Reg.PWR_CTRL_WAKE_EVT 1, by decide +kernel⟩,
   ⟨sets (inState stAsleep) [(Reg.PWR_STATUS_WAKING, 1), (Reg.PLAT_STATE_PREV, stReady)], by decide +kernel⟩,
   ⟨sets (inState stAsleep) [(Reg.PWR_STATUS_WAKING, 1), (Reg.PLAT_STATE_PREV, stReady)], by decide +kernel⟩,
   ⟨rdy.setFld Reg.PWR_CTRL_DOZE_EN 1, 0, by decide +kernel⟩,
   ⟨{ (rdy.setFld Reg.PWR_CTRL_DOZE_EN 1) with spare := { rdy.spare with dozing := [(255, true)] } }, 255, by decide +kernel⟩,
   ⟨rdy, 0x3C, by decide +kernel⟩,
   ⟨rdy, by decide +kernel⟩⟩

/-- The hypotheses of JobCommandsComplete can be met, clause by clause. -/
theorem test_met_JobCommandsComplete :
    (∃ (s : State) (rq : Rq) (mask : Nat), s.ready rq 0x0100 ∧ mask ≠ 0 ∧ mask < 65536 ∧ s.job.active = false) ∧
    (∃ (s : State) (rq : Rq) (ch : Nat) (len : Nat) (r : Nat), s.ready rq 0x0101 ∧ s.jobTakes ∧ ch < 64 ∧ s.flag
      (Reg.DMA_CTRL_OWNER ch) ∧ len ≠ 0 ∧ s.freeRange = some r ∧ s.job.starts = [] ∧ s.busStopped = false ∧ s.chTaken ch =
      false ∧ (∀ e ∈ s.job.entries, e.failed = false) ∧ s.job.entries.length < 1024) ∧
    (∃ (s : State) (rq : Rq) (ch : Nat) (len : Nat), s.ready rq 0x0101 ∧ s.jobTakes ∧ ch < 64 ∧ s.flag (Reg.DMA_CTRL_OWNER ch)
      ∧ len ≠ 0 ∧ (s.freeRange = none ∨ s.job.starts ≠ [] ∨ s.busStopped)) ∧
    (∃ (s : State) (w : StartWait) (l : List StartWait) (r : Nat), s.job.starts = w :: l ∧ s.freeRange = some r ∧ w.ch < 64 ∧
      s.busStopped = false ∧ s.chTaken w.ch = false ∧ (∀ e ∈ s.job.entries, e.failed = false) ∧ s.job.entries.length <
      1024) ∧
    (∃ (s : State) (rq : Rq) (h : Nat), s.ready rq 0x0102 ∧ s.jobTakes ∧ s.job.pages.any (fun p => p.handle == h) ∧
      s.job.entries.length < 1024) ∧
    (∃ (s : State) (rq : Rq), s.ready rq 0x0103 ∧ s.job.active ∧ (s.st = stArmed ∨ s.st = stPaused)) ∧
    (∃ (s : State) (rq : Rq), s.ready rq 0x0103 ∧ s.job.active ∧ s.st = stReady ∧ State.jobDone
      { s with job := { s.job with closed := true } }) ∧
    (∃ (s : State) (rq : Rq) (b : Nat) (d : Nat), s.ready rq 0x0120 ∧ b < 16 ∧ d < idxMod) :=
  ⟨⟨rdy, q0, 0x8000, by decide +kernel⟩,
   ⟨jobS.setFld (Reg.DMA_CTRL_OWNER 63) 1, q0, 63, 1, 0, by decide +kernel⟩,
   ⟨(({ jobS with job := { jobS.job with starts := [{ sess := 0, tag := 1 }] } } : State)).setFld (Reg.DMA_CTRL_OWNER 63) 1,
     q0, 63, 1, by decide +kernel⟩,
   ⟨({ jobS with job := { jobS.job with starts := [{ sess := 0, tag := 1, page := 9, ch := 63, len := 5 }] } } :
     State).setFld (Reg.DMA_CTRL_OWNER 63) 1, { sess := 0, tag := 1, page := 9, ch := 63, len := 5 }, [], 0,
     by decide +kernel⟩,
   ⟨({ prn with cmd := prn.cmd } : State), q0, 1, by decide +kernel⟩,
   ⟨jobS.enter stArmed, q0, by decide +kernel⟩,
   ⟨jobS, q0, by decide +kernel⟩,
   ⟨rdy, q0, 15, 7, by decide +kernel⟩⟩

/-- The hypotheses of PrintCommandsComplete can be met, clause by clause. -/
theorem test_met_PrintCommandsComplete :
    (∃ (s : State) (rq : Rq), s.ready rq 0x0110 ∧ s.job.active ∧ (s.masterEnc.isSome ∨ s.posFromRing) ∧ s.twoOrigins = false ∧
      s.jobBars.all s.barReady) ∧
    (∃ (s : State) (rq : Rq) (pos : Int), s.ready rq 0x0111 ∧ s.ppos.high + 16 ≤ pos ∧ s.liftReady ∧ s.job.closed = false) ∧
    (∃ (s : State) (rq : Rq), s.ready rq 0x0112) ∧
    (∃ (s : State) (rq : Rq) (pos : Int), s.ready rq 0x0113 ∧ s.ppos.high + 16 ≤ pos ∧ s.liftReady ∧ s.job.closed = false) ∧
    (∃ (s : State) (rq : Rq), s.ready rq 0x0114) ∧
    (∃ (s : State), s.st = stPrinting) ∧
    (∃ (s : State), (s.st = stArmed ∨ s.st = stPrinting ∨ s.st = stPaused)) :=
  ⟨⟨sets (jobS.setBar 15 { map := map47, bank := { thr := some { depth := 1 } } }) [(Reg.POS_CTRL_ENABLE 0, 1),
     (Reg.POS_CTRL_MASTER 0, 1)], q0, by decide +kernel⟩,
   ⟨jobS.enter stArmed, q0, 16, by decide +kernel⟩,
   ⟨prn, q0, by decide +kernel⟩,
   ⟨prn.enter stPaused, q0, 100016, by decide +kernel⟩,
   ⟨prn, q0, by decide +kernel⟩,
   ⟨prn, by decide +kernel⟩,
   ⟨prn, by decide +kernel⟩⟩

/-- The hypotheses of PrintTablesComplete can be met, clause by clause. -/
theorem test_met_PrintTablesComplete :
    (∃ (s : State) (rq : Rq) (c : Chunk) (tb : List Byte), s.ready rq 0x0121 ∧ c.inst < 16 ∧ judgeChunk false (s.staged 0x0121
      c.inst) c = .whole tb ∧ s.mapBad c.inst tb = none ∧ (s.withMap c.inst (readMap tb) 0).loadsFit = none) ∧
    (∃ (s : State) (rq : Rq) (c : Chunk) (tb : List Byte), s.ready rq 0x0126 ∧ c.inst < 48 ∧ judgeChunk false (s.staged 0x0126
      c.inst) c = .whole tb ∧ s.profBad c.inst tb = none) ∧
    (∃ (s : State) (rq : Rq) (c : Chunk) (tb : List Byte), s.ready rq 0x0122 ∧ c.inst < 16 ∧ judgeChunk false (s.staged 0x0122
      c.inst) c = .whole tb ∧ thresholdBad tb = none ∧ (c.offset = 0 → s.bankInUse c.inst = false) ∧ s.flag
      (Reg.DOSE_BAR_CTRL_AUTO_SWAP c.inst) = false) ∧
    (∃ (s : State) (rq : Rq) (c : Chunk) (tb : List Byte), s.ready rq 0x0124 ∧ c.inst < 16 ∧ judgeChunk false (s.staged 0x0124
      c.inst) c = .whole tb ∧ curveBad tb = none ∧ (c.offset = 0 → s.bankInUse c.inst = false) ∧ s.flag
      (Reg.DOSE_BAR_CTRL_AUTO_SWAP c.inst) = false) ∧
    (∃ (s : State) (rq : Rq) (c : Chunk) (tb : List Byte), s.ready rq 0x0125 ∧ c.inst < 16 ∧ judgeChunk false (s.staged 0x0125
      c.inst) c = .whole tb ∧ s.gainBad c.inst tb = none ∧ s.barLoops c.inst = false ∧ (c.offset = 0 → s.bankInUse c.inst
      = false) ∧ s.flag (Reg.DOSE_BAR_CTRL_AUTO_SWAP c.inst) = false) ∧
    (∃ (s : State) (rq : Rq) (c : Chunk) (tb : List Byte), s.ready rq 0x0125 ∧ c.inst < 16 ∧ judgeChunk false (s.staged 0x0125
      c.inst) c = .whole tb ∧ s.gainBad c.inst tb = none ∧ s.barLoops c.inst) ∧
    (∃ (s : State) (rq : Rq) (c : Chunk) (tb : List Byte), s.ready rq 0x0123 ∧ c.inst < 16 ∧ judgeChunk false (s.staged 0x0123
      c.inst) c = .whole tb ∧ s.subBad c.inst tb = none ∧ s.barLoops c.inst = false ∧ (c.offset = 0 → s.bankInUse c.inst =
      false) ∧ s.flag (Reg.DOSE_BAR_CTRL_AUTO_SWAP c.inst) = false) ∧
    (∃ (s : State) (rq : Rq) (c : Chunk) (tb : List Byte), s.ready rq 0x0123 ∧ c.inst < 16 ∧ judgeChunk false (s.staged 0x0123
      c.inst) c = .whole tb ∧ s.subBad c.inst tb = none ∧ s.barLoops c.inst ∧ s.baseOver c.inst (readSub tb) = none) ∧
    (∃ (s : State) (v : Nat), s.inSt [stStandby, stReady, stService] ∧ 1 ≤ v ∧ v ≤ 100 ∧ firstBroken (readsAny [Reg.NOZ_LIMIT])
      [Reg.NOZ_LIMIT] (s.setFld Reg.NOZ_LIMIT_MOD_LIMIT v) = none) :=
  ⟨⟨rdy, q0, whole 15 (leBytes 4 1 ++ leBytes 12 0 ++ leBytes 2 0 ++ bytesOf [47, 0, 0, 0, 0, 0]), leBytes 4 1 ++ leBytes 12
     0 ++ leBytes 2 0 ++ bytesOf [47, 0, 0, 0, 0, 0], by decide +kernel⟩,
   ⟨rdy, q0, whole 47 prof47, prof47, by decide +kernel⟩,
   ⟨barS, q0, whole 15 thrB, thrB, by decide +kernel⟩,
   ⟨barS, q0, whole 15 (List.replicate 512 0#8), List.replicate 512 0#8, by decide +kernel⟩,
   ⟨barS, q0, whole 15 (leBytes 2 4096), leBytes 2 4096, by decide +kernel⟩,
   ⟨loopOn barS, q0, whole 15 (leBytes 2 4096), leBytes 2 4096, by decide +kernel⟩,
   ⟨barS, q0, whole 15 subB, subB, by decide +kernel⟩,
   ⟨loopOn barS, q0, whole 15 subE, subE, by decide +kernel⟩,
   ⟨rdy, 100, by decide +kernel⟩⟩

/-- The hypotheses of DoseCommandsComplete can be met, clause by clause. -/
theorem test_met_DoseCommandsComplete :
    (∃ (s : State) (b : Nat), b < 16 ∧ (s.bar b).hasPending ∧ s.expanding b) ∧
    (∃ (s : State) (b : Nat), b < 16 ∧ (s.bar b).hasPending ∧ s.expanding b = false) ∧
    (∃ (s : State) (b : Nat), b < 16 ∧ s.flag (Reg.DOSE_BAR_STATUS_SWAP_PEND b) ∧ (s.bar b).slice = 0) ∧
    (∃ (s : State) (b : Nat) (e : Entry) (p : Page), s.barRuns b ∧ s.flag (Reg.DOSE_BAR_STATUS_SWAP_PEND b) = false ∧ s.entryOf
      b = some e ∧ s.pageOf e = some p ∧ (s.bar b).firstFrame (s.bar b).line < s.barFired b + s.fld (Reg.DOSE_BAR_CONC_MAX
      b) ∧ s.slotFree b ((s.bar b).firstFrame (s.bar b).line) ∧ 1024 * (s.bar b).slice + 1024 < (s.bar b).map.length) ∧
    (∃ (s : State) (b : Nat) (e : Entry) (p : Page), s.barRuns b ∧ s.flag (Reg.DOSE_BAR_STATUS_SWAP_PEND b) = false ∧ s.entryOf
      b = some e ∧ s.pageOf e = some p ∧ (s.bar b).firstFrame (s.bar b).line < s.barFired b + s.fld (Reg.DOSE_BAR_CONC_MAX
      b) ∧ s.slotFree b ((s.bar b).firstFrame (s.bar b).line) ∧ (s.bar b).map.length ≤ 1024 * (s.bar b).slice + 1024) ∧
    (∃ (s : State) (b : Nat) (e : Entry), s.barRuns b ∧ s.flag (Reg.DOSE_BAR_STATUS_SWAP_PEND b) = false ∧ s.entryOf b = some e
      ∧ s.pageOf e = none) ∧
    (∃ (s : State) (b : Nat), s.barRuns b ∧ s.frameReady b (s.bar b).frame ∧ (s.bar b).frame < s.barFired b + s.fld
      (Reg.DOSE_BAR_CONC_MAX b) ∧ s.slotFree b (s.bar b).frame) ∧
    (∃ (s : State) (b : Nat) (k : Nat), s.barRuns b ∧ s.frameReady b (s.bar b).frame ∧ (s.bar b).frame < s.barFired b + s.fld
      (Reg.DOSE_BAR_CONC_MAX b) ∧ s.slotFree b (s.bar b).frame ∧ s.barBoards b = [k] ∧ s.mirrored = false ∧ (s.bar
      b).badFor k (s.bar b).frame = none) :=
  ⟨⟨prn.setBar 15 { prn.bar 15 with pend := { curve := some [] } }, 15, by decide +kernel⟩,
   ⟨barS.setBar 15 { barS.bar 15 with pend := { curve := some [] } }, 15, by decide +kernel⟩,
   ⟨(prn.setBar 15 { prn.bar 15 with pend := { curve := some [] } }).setFld (Reg.DOSE_BAR_STATUS_SWAP_PEND 15) 1, 15,
     by decide +kernel⟩,
   ⟨prn.setBar 15 { prn.bar 15 with map := List.replicate 1025 { pos := 0, board := 47 } }, 15,
     { id := 0, page := some 1, handle := 1 }, { handle := 1, width := 1, lines := 8 }, by decide +kernel⟩,
   ⟨prn, 15, { id := 0, page := some 1, handle := 1 }, { handle := 1, width := 1, lines := 8 }, by decide +kernel⟩,
   ⟨{ prn with job := { prn.job with pages := [] } }, 15, { id := 0, page := some 1, handle := 1 }, by decide +kernel⟩,
   ⟨prn.setBar 15 { prn.bar 15 with line := 1 }, 15, by decide +kernel⟩,
   ⟨(prn.setBar 15 { prn.bar 15 with line := 1 }).setFld Reg.DOSE_CTRL_GUARD 1, 15, 47, by decide +kernel⟩⟩

/-- The hypotheses of GateCommandsComplete can be met, clause by clause. -/
theorem test_met_GateCommandsComplete :
    (∃ (s : State) (rq : Rq) (gate : Nat) (k : Nat) (first : Nat) (n : Nat), s.ready rq 0x0130 ∧ gate < 16 ∧ k < 48 ∧ first + n
      ≤ s.boardNozzles k ∧ s.bst k = bsRun ∧ s.flag Reg.GATE_STATUS_BUSY = false ∧ s.gateTodo k first n ≠ []) ∧
    (∃ (s : State) (rq : Rq) (gate : Nat) (k : Nat) (first : Nat) (n : Nat), s.ready rq 0x0130 ∧ gate < 16 ∧ k < 48 ∧ first + n
      ≤ s.boardNozzles k ∧ s.bst k = bsRun ∧ s.flag Reg.GATE_STATUS_BUSY = false ∧ s.gateTodo k first n = []) ∧
    (∃ (s : State) (g : GateTest) (pos : Nat) (p2 : Nat) (b : Nat) (l : List Nat), s.fire.test = some g ∧ g.todo = pos :: p2 ::
      l ∧ s.boardBar g.board = some b ∧ g.board < 48 ∧ s.fld (Reg.FIRE_B_STATUS_CREDITS g.board) ≠ 0) ∧
    (∃ (s : State) (g : GateTest) (pos : Nat) (b : Nat) (l : List Nat), s.fire.test = some g ∧ g.todo = pos :: l ∧ s.boardBar
      g.board = some b ∧ g.board < 48 ∧ s.fld (Reg.FIRE_B_STATUS_CREDITS g.board) ≠ 0 ∧ s.lineHeld g.board = false ∧
      s.countsAgree (s.gateDoses g.board pos) (packDoses s.doseBits (s.gateDoses g.board pos))) ∧
    (∃ (s : State) (g : GateTest) (pos : Nat) (b : Nat), s.fire.test = some g ∧ g.todo = [pos] ∧ s.boardBar g.board = some b ∧
      g.board < 48 ∧ s.fld (Reg.FIRE_B_STATUS_CREDITS g.board) ≠ 0) :=
  ⟨⟨barS, q0, 15, 47, 0, 4, by decide +kernel⟩,
   ⟨barS, q0, 15, 47, 1, 3, by decide +kernel⟩,
   ⟨gateS [0, 1], testG [0, 1], 0, 1, 15, [], by decide +kernel⟩,
   ⟨gateS [0], testG [0], 0, 15, [], by decide +kernel⟩,
   ⟨gateS [0], testG [0], 0, 15, by decide +kernel⟩⟩

/-- The hypotheses of FireLinesComplete can be met, clause by clause. -/
theorem test_met_FireLinesComplete :
    (∃ (s : State) (r : State) (k : Nat) (b : Nat) (fr : BoardFrame) (p : List Byte) (pkt : List Byte), k < 48 ∧ s.boardBar k =
      some b ∧ s.boardUsed k ∧ s.st = stPrinting ∧ s.jobBar b ∧ [bsRun, bsHot, bsLatch].contains (s.bst k) ∧ s.hasFrame b
      (s.board k).tx ∧ s.reached b k (s.board k).tx (16 * s.fld Reg.FIRE_CTRL_LEAD) ∧ 0 < s.fld (Reg.FIRE_B_STATUS_CREDITS
      k) ∧ r = s.readCopy b (s.servingCopy b) k (s.board k).tx ∧ r.validFrame b k (s.board k).tx = some fr ∧ r.sentCopy b
      k (s.board k).tx fr = some p ∧ s.prof k 2 1 ≠ 2 ∧ pkt = herufH 0x01 0 (s.board k).tx fr.crc p) ∧
    (∃ (s : State) (r : State) (k : Nat) (b : Nat) (n : Nat) (fr : BoardFrame) (p : List Byte) (x : List Byte) (y : List Byte),
      k < 48 ∧ s.boardBar k = some b ∧ s.boardUsed k ∧ s.st = stPrinting ∧ s.jobBar b ∧ [bsRun, bsHot, bsLatch].contains
      (s.bst k) ∧ s.hasFrame b (s.board k).tx ∧ s.reached b k (s.board k).tx (16 * s.fld Reg.FIRE_CTRL_LEAD) ∧ 0 < s.fld
      (Reg.FIRE_B_STATUS_CREDITS k) ∧ r = s.readCopy b (s.servingCopy b) k (s.board k).tx ∧ r.validFrame b k (s.board
      k).tx = some fr ∧ r.sentCopy b k (s.board k).tx fr = some p ∧ s.prof k 2 1 = 2 ∧ s.prof k 4 1 ≠ s.prof k 5 1 ∧ n = 8
      * ceilDiv p.length 16 ∧ x = herufH 0x01 4 (s.board k).tx fr.crc (p.take n) ∧ y = herufH 0x01 6 (s.board k).tx fr.crc
      (p.drop n)) ∧
    (∃ (s : State) (r : State) (k : Nat) (b : Nat) (fr : BoardFrame), k < 48 ∧ s.boardBar k = some b ∧ s.boardUsed k ∧ s.st =
      stPrinting ∧ s.jobBar b ∧ [bsRun, bsHot, bsLatch].contains (s.bst k) ∧ s.hasFrame b (s.board k).tx ∧ s.reached b k
      (s.board k).tx (16 * s.fld Reg.FIRE_CTRL_LEAD) ∧ 0 < s.fld (Reg.FIRE_B_STATUS_CREDITS k) ∧ r = s.readCopy b
      (s.servingCopy b) k (s.board k).tx ∧ r.validFrame b k (s.board k).tx = some fr ∧ r.sentCopy b k (s.board k).tx fr =
      none) ∧
    (∃ (s : State) (k : Nat) (b : Nat) (g : Nat) (due : Int) (body : List Byte), k < 48 ∧ s.boardBar k = some b ∧ s.boardUsed k
      ∧ s.st = stPrinting ∧ s.jobBar b ∧ s.hasFrame b (s.board k).dec ∧ s.reached b k (s.board k).dec 16 ∧ s.dueAt b k
      (s.board k).dec = some due ∧ s.judgeLine b k (s.board k).dec = .inr g ∧ body = bytesOf [g, 0] ++ leBytes 2 (s.prof k
      12 2) ++ leBytes 4 (s.frameGen b k (s.board k).dec) ++ leBytes 8 (unsignedOf 64 due)) ∧
    (∃ (s : State) (k : Nat) (b : Nat) (c : Nat) (due : Int), k < 48 ∧ s.boardBar k = some b ∧ s.boardUsed k ∧ s.st =
      stPrinting ∧ s.jobBar b ∧ s.hasFrame b (s.board k).dec ∧ s.reached b k (s.board k).dec 16 ∧ s.dueAt b k (s.board
      k).dec = some due ∧ s.judgeLine b k (s.board k).dec = .inl c) ∧
    (∃ (s : State) (k : Nat) (d : Decided), k < 48 ∧ s.job.closed = false ∧ s.lineHeld k = false ∧ (s.board k).decided.find?
      (fun d => !d.strobed && decide (d.due ≤ s.ppos.high)) = some d) ∧
    (∃ (s : State) (k : Nat) (d : Decided), k < 48 ∧ s.job.closed = false ∧ s.lineHeld k ∧ (s.board k).decided.find? (fun d =>
      !d.strobed && decide (d.due ≤ s.ppos.high)) = some d ∧ d.cause = 0) ∧
    (∃ (s : State) (k : Nat), (s.board k).high) ∧
    (∃ (s : State) (k : Nat), k < 48 ∧ (s.board k).high) :=
  ⟨⟨prnF, prnF.readCopy 15 (prnF.servingCopy 15) 47 (prnF.board 47).tx, 47, 15, frameIn prnF, sentIn prnF (frameIn prnF),
     herufH 0x01 0 0 (frameIn prnF).crc (sentIn prnF (frameIn prnF)), by decide +kernel⟩,
   ⟨prnF.setBoard 47 { profile := some (leBytes 2 4 ++ bytesOf [2, 4, 72, 73] ++ prof47.drop 6) }, (prnF.setBoard 47
     { profile := some (leBytes 2 4 ++ bytesOf [2, 4, 72, 73] ++ prof47.drop 6) }).readCopy 15 ((prnF.setBoard 47
     { profile := some (leBytes 2 4 ++ bytesOf [2, 4, 72, 73] ++ prof47.drop 6) }).servingCopy 15) 47 ((prnF.setBoard 47
     { profile := some (leBytes 2 4 ++ bytesOf [2, 4, 72, 73] ++ prof47.drop 6) }).board 47).tx, 47, 15, 8, frameIn
     (prnF.setBoard 47 { profile := some (leBytes 2 4 ++ bytesOf [2, 4, 72, 73] ++ prof47.drop 6) }), sentIn
     (prnF.setBoard 47 { profile := some (leBytes 2 4 ++ bytesOf [2, 4, 72, 73] ++ prof47.drop 6) }) (frameIn
     (prnF.setBoard 47 { profile := some (leBytes 2 4 ++ bytesOf [2, 4, 72, 73] ++ prof47.drop 6) })), herufH 0x01 4 0
     (frameIn (prnF.setBoard 47 { profile := some (leBytes 2 4 ++ bytesOf [2, 4, 72, 73] ++ prof47.drop 6) })).crc
     ((sentIn (prnF.setBoard 47 { profile := some (leBytes 2 4 ++ bytesOf [2, 4, 72, 73] ++ prof47.drop 6) }) (frameIn
     (prnF.setBoard 47 { profile := some (leBytes 2 4 ++ bytesOf [2, 4, 72, 73] ++ prof47.drop 6) }))).take 8), herufH
     0x01 6 0 (frameIn (prnF.setBoard 47
     { profile := some (leBytes 2 4 ++ bytesOf [2, 4, 72, 73] ++ prof47.drop 6) })).crc ((sentIn (prnF.setBoard 47
     { profile := some (leBytes 2 4 ++ bytesOf [2, 4, 72, 73] ++ prof47.drop 6) }) (frameIn (prnF.setBoard 47
     { profile := some (leBytes 2 4 ++ bytesOf [2, 4, 72, 73] ++ prof47.drop 6) }))).drop 8), by decide +kernel⟩,
   ⟨prn.writeFrame 15 47 0 ⟨pay47, 5, false, 0⟩, (prn.writeFrame 15 47 0 ⟨pay47, 5, false, 0⟩).readCopy 15 ((prn.writeFrame
     15 47 0 ⟨pay47, 5, false, 0⟩).servingCopy 15) 47 ((prn.writeFrame 15 47 0 ⟨pay47, 5, false, 0⟩).board 47).tx, 47, 15,
     frameIn (prn.writeFrame 15 47 0 ⟨pay47, 5, false, 0⟩), by decide +kernel⟩,
   ⟨prnF.setBoard 47 { prnF.board 47 with tx := 1 }, 47, 15, (match (prnF.setBoard 47
     { prnF.board 47 with tx := 1 }).judgeLine 15 47 0 with | .inr g => g | .inl _ => 99), 0, bytesOf [((match
     (prnF.setBoard 47 { prnF.board 47 with tx := 1 }).judgeLine 15 47 0 with | .inr g => g | .inl _ => 99)), 0] ++
     leBytes 2 ((prnF.setBoard 47 { prnF.board 47 with tx := 1 }).prof 47 12 2) ++ leBytes 4 ((prnF.setBoard 47
     { prnF.board 47 with tx := 1 }).frameGen 15 47 ((prnF.setBoard 47 { prnF.board 47 with tx := 1 }).board 47).dec) ++
     leBytes 8 (unsignedOf 64 0), by decide +kernel⟩,
   ⟨prn, 47, 15, 6, 0, by decide +kernel⟩,
   ⟨decS false, 47, dec0 false, by decide +kernel⟩,
   ⟨(decS false).setFld (Reg.FIRE_B_STATUS_STROBE_FAULT 47) 1, 47, dec0 false, by decide +kernel⟩,
   ⟨prn.setBoard 47 { prn.board 47 with high := true }, 47, by decide +kernel⟩,
   ⟨prn.setBoard 47 { prn.board 47 with high := true }, 47, by decide +kernel⟩⟩

/-- The hypotheses of FireLinksComplete can be met, clause by clause. -/
theorem test_met_FireLinksComplete :
    (∃ (s : State) (k : Nat) (f : Nat) (bytes : List Byte) (b : List Byte) (d : Decided), k < 48 ∧ s.boardUsed k ∧ herufIn 0x81
      bytes = some (f, b) ∧ (s.board k).decided.find? (fun d => d.strobed && !d.echo && d.frame % idxMod == f) = some d) ∧
    (∃ (s : State) (k : Nat) (f : Nat) (bytes : List Byte) (b : List Byte), k < 48 ∧ s.boardUsed k ∧ herufIn 0x81 bytes = some
      (f, b) ∧ (s.board k).decided.find? (fun d => d.strobed && !d.echo && d.frame % idxMod == f) = none) ∧
    (∃ (s : State) (k : Nat) (d : Decided), k < 48 ∧ (s.board k).decided.find? (fun d => d.strobed && !d.echo) = some d) ∧
    (∃ (s : State) (k : Nat) (f : Nat) (bytes : List Byte) (b : List Byte), k < 48 ∧ s.boardUsed k ∧ herufIn 0x82 bytes = some
      (f, b)) ∧
    (∃ (s : State) (k : Nat) (f : Nat) (bytes : List Byte) (b : List Byte), k < 48 ∧ s.boardUsed k ∧ (s.board k).hello ∧ s.bst
      k = bsSync ∧ herufIn 0x83 bytes = some (f, b) ∧ leAt b 0 2 = s.prof k 0 2 ∧ leAt b 3 1 = s.prof k 2 1 ∧ s.prof k 3 1
      ≤ leAt b 2 1) ∧
    (∃ (s : State) (k : Nat) (f : Nat) (bytes : List Byte) (b : List Byte), k < 48 ∧ s.boardUsed k ∧ (s.board k).hello ∧ s.bst
      k = bsSync ∧ herufIn 0x83 bytes = some (f, b) ∧ leAt b 0 2 ≠ s.prof k 0 2) ∧
    (∃ (s : State) (k : Nat), k < 48 ∧ s.boardUsed k ∧ s.bst k = bsSync) ∧
    (∃ (s : State) (k : Nat), k < 48 ∧ s.writable ∧ s.awake ∧ s.boardUsed k ∧ s.bst k = bsOff ∧ s.lanesUp k = false) ∧
    (∃ (s : State) (k : Nat), k < 48 ∧ s.writable ∧ s.awake ∧ s.boardUsed k ∧ s.bst k = bsOff ∧ s.lanesUp k) ∧
    (∃ (s : State) (k : Nat), k < 48 ∧ s.writable ∧ s.awake ∧ s.bst k ≠ bsOff) ∧
    (∃ (s : State) (k : Nat), k < 48 ∧ s.writable ∧ s.awake) :=
  ⟨⟨decS true, 47, 0, fromBoard 0x81 0 (body16 [1, 0, 0, 0, 0, 1, 3]), body16 [1, 0, 0, 0, 0, 1, 3], dec0 true,
     by decide +kernel⟩,
   ⟨prn, 47, 0, fromBoard 0x81 0 (body16 [1, 0, 0, 0, 0, 1, 3]), body16 [1, 0, 0, 0, 0, 1, 3], by decide +kernel⟩,
   ⟨decS true, 47, dec0 true, by decide +kernel⟩,
   ⟨prn, 47, 0, fromBoard 0x82 0 (body16 [9]), body16 [9], by decide +kernel⟩,
   ⟨(barS.setBst 47 bsSync).setBoard 47 { barS.board 47 with hello := true }, 47, 0, fromBoard 0x83 0 (body16 [4, 0, 4, 1]),
     body16 [4, 0, 4, 1], by decide +kernel⟩,
   ⟨(barS.setBst 47 bsSync).setBoard 47 { barS.board 47 with hello := true }, 47, 0, fromBoard 0x83 0 (body16 [8, 0, 4, 1]),
     body16 [8, 0, 4, 1], by decide +kernel⟩,
   ⟨barS.setBst 47 bsSync, 47, by decide +kernel⟩,
   ⟨barS.setBst 47 bsOff, 47, by decide +kernel⟩,
   ⟨sets (barS.setBst 47 bsOff) [(Reg.LANE_STATUS_UP 72, 1), (Reg.LANE_STATUS_STATE 72, 3)], 47, by decide +kernel⟩,
   ⟨barS, 47, by decide +kernel⟩,
   ⟨(barS.setBst 47 bsLatch).setFld (Reg.FIRE_B_STATUS_ECHO_FAULT 47) 1, 47, by decide +kernel⟩⟩

/-- The hypotheses of YoyoCommandsComplete can be met, clause by clause. -/
theorem test_met_YoyoCommandsComplete :
    (∃ (s : State), s.inSt [stArmed, stPrinting, stPaused] ∧ s.flag Reg.YOYO_CTRL_ENABLE = false) ∧
    (∃ (s : State), s.inSt [stArmed, stPrinting, stPaused] ∧ s.flag Reg.YOYO_CTRL_ENABLE ∧ s.yoyoLow.1 < 0xFFFF) ∧
    (∃ (s : State), s.st ≠ stAsleep ∧ s.flag Reg.SPDRQ_CFG_ENABLE ∧ s.flag Reg.SPDRQ_CFG_TEST = false) ∧
    (∃ (s : State) (b : Nat), b < 16 ∧ s.sheetMode b ∧ s.inSt [stPrinting, stPaused] ∧ s.jobBar b ∧ s.sheetBusy b = false) :=
  ⟨⟨prn.setFld Reg.YOYO_CTRL_ENABLE 0, by decide +kernel⟩,
   ⟨({ prn with fire := { prn.fire with caps := [(0x100, 0)] } } : State).setFld Reg.YOYO_CTRL_ENABLE 1, by decide +kernel⟩,
   ⟨rdy.setFld Reg.SPDRQ_CFG_ENABLE 1, by decide +kernel⟩,
   ⟨prn.setFld Reg.FIRE_SHEET_SHEET 0x8000, 15, by decide +kernel⟩⟩

/-- The hypotheses of NozzleCommandsComplete can be met, clause by clause. -/
theorem test_met_NozzleCommandsComplete :
    (∃ (s : State) (rq : Rq) (i : Nat) (b : Nat) (x : Nat) (st : Nat) (hold : Nat), s.ready rq 0x0208 ∧ s.nozzleAt i = some (b,
      x) ∧ s.nozLive b x ∧ st < 4 ∧ hold < 2) ∧
    (∃ (s : State) (rq : Rq) (first : Nat) (n : Nat), s.ready rq 0x0209 ∧ 1 ≤ n ∧ n ≤ 16320 ∧ first + n ≤ s.nozzles ∧ (∀ i, i <
      n → s.nozzleState (first + i) < 4)) ∧
    (∃ (s : State) (f : Finding) (l : List Finding), s.noz.queue = f :: l) ∧
    (∃ (s : State) (f : Finding) (l : List Finding), s.noz.queue = f :: l ∧ f.source = 1 ∧ s.nozLive f.bar f.at_.toNat ∧
      (s.noz1 f.bar f.at_.toNat).hold = false ∧ (s.noz1 f.bar f.at_.toNat).state = 2 ∧ f.cls = 0) ∧
    (∃ (s : State) (b : Nat), b < 16 ∧ s.barLoops b ∧ (s.loopBar b).changed ≠ [] ∧ (s.loopBar b).staged = [] ∧ (64 ≤ (s.loopBar
      b).changed.length ∨ s.noz.queue.any (fun f => f.bar == b) = false) ∧ s.expanding b) ∧
    (∃ (s : State) (b : Nat), b < 16 ∧ s.barLoops b ∧ (s.loopBar b).changed ≠ [] ∧ (s.loopBar b).staged = [] ∧ (64 ≤ (s.loopBar
      b).changed.length ∨ s.noz.queue.any (fun f => f.bar == b) = false) ∧ s.expanding b = false) ∧
    (∃ (s : State) (b : Nat) (n : Nat), b < 16 ∧ (s.loopBar b).since = some n ∧ (s.loopBar b).changed ≠ [] ∧ (s.loopBar b).late
      = false ∧ n + 1024 < tabGet 0 s.fire.events b) ∧
    (∃ (s : State) (m : Nat), s.inSt [stStandby, stReady, stService] ∧ m < 65536 ∧ s.loopsOk (s.fld Reg.NOZ_CTRL_LOOP_EN) m
      (s.fld Reg.NOZ_CTRL_PAT)) :=
  ⟨⟨barS, q0, 0, 15, 0, 3, 1, by decide +kernel⟩,
   ⟨barS, q0, 0, 1, by decide +kernel⟩,
   ⟨{ barS with noz := { barS.noz with queue := [{ source := 1, bar := 15, at_ := 0, cls := 0 }] } },
     { source := 1, bar := 15, at_ := 0, cls := 0 }, [], by decide +kernel⟩,
   ⟨({ barS with noz := { barS.noz with queue := [{ source := 1, bar := 15, at_ := 0, cls := 0 }] } } : State).setNoz1 15 0
     { state := 2 }, { source := 1, bar := 15, at_ := 0, cls := 0 }, [], by decide +kernel⟩,
   ⟨(loopOn prn).setLoopBar 15 { changed := [0] }, 15, by decide +kernel⟩,
   ⟨(loopOn barS).setLoopBar 15 { changed := [0] }, 15, by decide +kernel⟩,
   ⟨(loopOn ({ prn with fire := { prn.fire with events := [(15, 2000)] } } : State)).setLoopBar 15
     { changed := [0], since := some 5 }, 15, 5, by decide +kernel⟩,
   ⟨(barS.setFld Reg.NOZ_CTRL_PAT 0).setBar 15 { map := map47, bank := { sub := some { pats := [[(0, 0)]] } } }, 0x8000,
     by decide +kernel⟩⟩

/-- The hypotheses of DmaCommandsComplete can be met, clause by clause. -/
theorem test_met_DmaCommandsComplete :
    (∃ (s : State) (ch : Nat), ch < 64 ∧ s.awake ∧ s.chActive ch = false ∧ s.flag (Reg.DMA_CTRL_OWNER ch) = false ∧
      s.busStopped = false) ∧
    (∃ (s : State) (ch : Nat), ch < 64 ∧ s.chActive ch ∧ (s.page ch).active = false ∧ (s.dmaCh ch).stop = none ∧ (s.dmaCh
      ch).outstanding = false) ∧
    (∃ (s : State) (ch : Nat), ch < 64 ∧ s.chActive ch ∧ (s.dmaCh ch).stop = none ∧ (s.dmaCh ch).outstanding) ∧
    (∃ (s : State) (ch : Nat) (n : Nat) (d : List Byte), s.chActive ch ∧ (s.dmaCh ch).desc = none ∧ d.length = 32 ∧
      s.ingest.halting = none ∧ (s.dmaCh ch).stop = none ∧ s.descBad (s.flag (Reg.DMA_CTRL_OWNER ch)) d = false ∧ (dEnd d
      ∨ Machine.dNext d ≠ (s.dmaCh ch).cur) ∧ n = (if dKind d = 2 then 0 else min (dLen d) (512 * (dHost d / 512 + 16) -
      dHost d))) ∧
    (∃ (s : State) (ch : Nat) (d : List Byte), ch < 64 ∧ s.chActive ch ∧ (s.dmaCh ch).desc = none ∧ d.length = 32 ∧
      s.ingest.halting = none ∧ s.descBad (s.flag (Reg.DMA_CTRL_OWNER ch)) d ∧ (s.page ch).active = false) ∧
    (∃ (s : State) (ch : Nat) (d : List Byte) (data : List Byte), ch < 64 ∧ (s.dmaCh ch).desc = some d ∧ (s.dmaCh ch).stop =
      none ∧ (s.dmaCh ch).moved = 0 ∧ dKind d = 1 ∧ dEnd d ∧ data.length = dLen d ∧ (s.page ch).active = false ∧ s.fld
      (Reg.DMA_STATUS_HOPS ch) + 1 < 2097152) ∧
    (∃ (s : State) (ch : Nat) (d : List Byte) (data : List Byte), ch < 64 ∧ (s.dmaCh ch).desc = some d ∧ (s.dmaCh ch).stop =
      none ∧ dKind d = 1 ∧ (s.dmaCh ch).moved + data.length < dLen d) ∧
    (∃ (s : State) (ch : Nat) (i : Nat) (d : List Byte), ch < 64 ∧ (s.dmaCh ch).desc = some d ∧ (s.dmaCh ch).stop = none ∧
      (s.dmaCh ch).moved = 0 ∧ dKind d = 2 ∧ (s.page ch).active = false ∧ 512 * i < dLen d) ∧
    (∃ (s : State) (ch : Nat) (d : List Byte) (data : List Byte), ch < 64 ∧ (s.dmaCh ch).desc = some d ∧ (s.dmaCh ch).stop =
      none ∧ (s.dmaCh ch).moved = 0 ∧ dKind d = 0 ∧ dEnd d = false ∧ bitAt (dFlags d) 0 = false ∧ data.length = dLen d ∧
      (s.page ch).active ∧ s.fld (Reg.DMA_STATUS_HOPS ch) + 1 < 2097152 ∧ s.fld (Reg.DMA_STATUS_HOPS ch) + 1 < 2 ^ s.fld
      (Reg.DMA_CTRL_HOP_EXP ch)) ∧
    (∃ (s : State) (kind : Nat) (addr : Nat) (batch : List Nat), 2 ≤ kind ∧ kind ≤ 4 ∧ addr < 2 ^ 64 ∧ s.busStopped = false ∧
      (∀ c, c < 64 → s.chActive c → c ∈ batch ∨ (s.dmaCh c).outstanding = false ∧ (s.dmaCh c).stop = none)) ∧
    (∃ (s : State) (kind : Nat) (addr : Nat) (c : Nat) (batch : List Nat), 2 ≤ kind ∧ kind ≤ 4 ∧ addr < 2 ^ 64 ∧ s.busStopped =
      false ∧ c < 64 ∧ s.chActive c ∧ c ∉ batch ∧ (s.dmaCh c).outstanding ∧ (s.dmaCh c).stop = none) ∧
    (∃ (s : State) (addr : Nat) (batch : List Nat), addr < 2 ^ 64 ∧ s.busStopped = false ∧ (∀ c, c < 64 → s.chActive c → c ∈
      batch ∨ (s.dmaCh c).outstanding = false ∧ (s.dmaCh c).stop = none)) :=
  ⟨⟨rdy, 63, by decide +kernel⟩,
   ⟨dmaS {}, 63, by decide +kernel⟩,
   ⟨dmaS { desc := some (dsc 0 2 0), moved := 0, issued := 4 }, 63, by decide +kernel⟩,
   ⟨dmaS { cur := 64 }, 63, 0, dsc 2 0 32, by decide +kernel⟩,
   ⟨dmaS {}, 63, dsc 3 2 0, by decide +kernel⟩,
   ⟨dmaS { desc := some (dsc 1 2 0), issued := 4 }, 63, dsc 1 2 0, bytesOf [1, 2, 3, 4], by decide +kernel⟩,
   ⟨dmaS { desc := some (dsc 1 2 0), issued := 4 }, 63, dsc 1 2 0, bytesOf [1, 2, 3], by decide +kernel⟩,
   ⟨dmaS { desc := some (dsc 2 2 0) }, 63, 0, dsc 2 2 0, by decide +kernel⟩,
   
     ⟨({ dmaS { desc := some (dsc 0 0 32), issued := 4 } with ingest := { (dmaS { desc := some (dsc 0 0 32), issued := 4 }).ingest with pages := [(63, { active := true, len := 1000 })] } }
     : State).setFld (Reg.DMA_CTRL_HOP_EXP 63) 4, 63, dsc 0 0 32, bytesOf [1, 2, 3, 4], by decide +kernel⟩,
   ⟨dmaS {}, 4, 0x123456789AB, [], by decide +kernel⟩,
   ⟨dmaS { desc := some (dsc 0 2 0), issued := 4 }, 2, 5, 63, [1], by decide +kernel⟩,
   ⟨dmaS {}, 0x123456789AB, [63], by decide +kernel⟩⟩

/-- The hypotheses of KpsCommandsComplete can be met, clause by clause. -/
theorem test_met_KpsCommandsComplete :
    (∃ (s : State) (ch : Nat) (b : List Byte), (s.page ch).reads b ∧ (s.page ch).stage = 0 ∧ (s.page ch).pos = 0 ∧ b.length =
      64 ∧ s.jobHeaderBad b = none ∧ (s.page ch).passes 64 = false ∧ ((s.page ch).ended = false ∨ (s.page ch).len ≤
      (s.page ch).got)) ∧
    (∃ (s : State) (ch : Nat) (b : List Byte) (planes : List PlaneIn), (s.page ch).reads b ∧ (s.page ch).stage = 1 ∧
      s.pageHeaderBad (s.page ch).page b = none ∧ b.length = 64 + 32 * leAt b 6 1 ∧ s.readPlanes (leAt b 12 4) (leAt b 16
      4) (leAt b 6 1) 0 [] (b.drop 64) = .ok planes ∧ (s.page ch).passes b.length = false ∧ s.usedUnits + unitsFor
      (planes.map PlaneIn.size) ≤ s.storeUnits ∧ ((s.page ch).ended = false ∨ (s.page ch).len ≤ (s.page ch).got)) ∧
    (∃ (s : State) (ch : Nat) (b : List Byte) (planes : List PlaneIn), (s.page ch).reads b ∧ (s.page ch).stage = 1 ∧
      s.pageHeaderBad (s.page ch).page b = none ∧ b.length = 64 + 32 * leAt b 6 1 ∧ s.readPlanes (leAt b 12 4) (leAt b 16
      4) (leAt b 6 1) 0 [] (b.drop 64) = .ok planes ∧ (s.page ch).passes b.length = false ∧ s.storeUnits < s.usedUnits +
      unitsFor (planes.map PlaneIn.size)) ∧
    (∃ (s : State) (ch : Nat) (c : Nat) (b : List Byte) (cur : Option Nat), (s.page ch).reads b ∧ (s.page ch).stage = 2 ∧ 16 ≤
      b.length ∧ (s.page ch).planes.all PlaneIn.ended = false ∧ cur = (s.page ch).segs.findIdx? (fun g => g.plane == leAt
      b 0 1 && !g.closed) ∧ (s.page ch).blockBad b (cur.bind fun i => ((s.page ch).segs[i]?).map Segment.type) = none ∧
      (cur.bind fun i => ((s.page ch).segs[i]?).bind Segment.unit) = none ∧ b.length = 16 + 4 * ceilDiv (leAt b 4 4) 4 ∧
      (s.page ch).passes b.length = false ∧ bitAt (leAt b 2 1) 0 ∧ (s.page ch).freeCtx = some c ∧ ((s.page ch).ended =
      false ∨ (s.page ch).len ≤ (s.page ch).got)) ∧
    (∃ (s : State) (ch : Nat) (i : Nat) (b : List Byte) (g : Segment), (s.page ch).reads b ∧ (s.page ch).stage = 2 ∧ 16 ≤
      b.length ∧ (s.page ch).planes.all PlaneIn.ended = false ∧ (s.page ch).segs.findIdx? (fun g => g.plane == leAt b 0 1
      && !g.closed) = some i ∧ (s.page ch).segs[i]? = some g ∧ g.unit = none ∧ (s.page ch).blockBad b (some g.type) = none
      ∧ b.length = 16 + 4 * ceilDiv (leAt b 4 4) 4 ∧ (s.page ch).passes b.length = false ∧ bitAt (leAt b 2 1) 0 = false ∧
      ((s.page ch).ended = false ∨ (s.page ch).len ≤ (s.page ch).got)) ∧
    (∃ (s : State) (ch : Nat) (b : List Byte), (s.page ch).reads b ∧ (s.page ch).stage = 2 ∧ b.length = 4 ∧ (s.page
      ch).planes.all PlaneIn.ended ∧ (s.page ch).passes 4 = false ∧ (s.page ch).segs.all Segment.done = false) ∧
    (∃ (s : State) (ch : Nat) (b : List Byte), (s.page ch).reads b ∧ (s.page ch).stage = 2 ∧ b.length = 4 ∧ (s.page
      ch).planes.all PlaneIn.ended ∧ (s.page ch).pos + 4 = (s.page ch).len ∧ (s.page ch).got = (s.page ch).len ∧ (s.page
      ch).ended ∧ (s.page ch).segs.all Segment.done ∧ crc32c ((s.page ch).planes.flatMap fun p => s.planeBytes p.units 0
      p.size) = leNat b) ∧
    (∃ (s : State) (ch : Nat) (i : Nat) (u : Nat) (g : Segment) (g1 : Segment) (g' : Segment) (out : List Byte), s.nextSeg =
      some (ch, i) ∧ s.freeDcmp = some u ∧ (s.page ch).segs[i]? = some g ∧ g.ctx < 4096 ∧ g1 =
      { g with unit := some u, onUnit := 0, hist := s.history (s.page ch) g } ∧ Segment.feed (s.setPage ch
      { s.page ch with segs := (s.page ch).segs.set i g1 }).nextSeg.isSome (g.staged.length + 1) g1 = .ok (g', out)) ∧
    (∃ (s : State) (ch : Nat) (i : Nat) (u : Nat) (g : Segment), u < 16 ∧ s.segOn u = some (ch, i) ∧ (s.page ch).segs[i]? =
      some g ∧ (g.staged = [] ∧ g.closed = false ∨ 4194304 ≤ g.onUnit ∧ s.nextSeg.isSome)) ∧
    (∃ (s : State) (ch : Nat) (i : Nat) (u : Nat) (g : Segment), s.segOn u = some (ch, i) ∧ (s.page ch).segs[i]? = some g ∧
      g.staged = [] ∧ g.closed ∧ (s.page ch).stage ≠ 3) :=
  ⟨⟨kpsS { active := true, len := 100, got := 64, buf := jobHdr }, 63, jobHdr, by decide +kernel⟩,
   ⟨kpsS { active := true, stage := 1, page := 3, len := 400, got := 96, buf := pageHdr }, 63, pageHdr, okPlanes ((kpsS
     { active := true, stage := 1, page := 3, len := 400, got := 96, buf := pageHdr }).readPlanes 1 1 1 0 [] (pageHdr.drop
     64)), by decide +kernel⟩,
   ⟨{ kpsS { active := true, stage := 1, page := 3, len := 400, got := 96, buf := pageHdr } with hostSize := 30000 }, 63,
     pageHdr, okPlanes
     (({ kpsS { active := true, stage := 1, page := 3, len := 400, got := 96, buf := pageHdr } with hostSize := 30000 } :
     State).readPlanes 1 1 1 0 [] (pageHdr.drop 64)), by decide +kernel⟩,
   ⟨kpsS { active := true, stage := 2, len := 400, got := 20, buf := blk 3, planes := [plane1] }, 63, 512, blk 3, none,
     by decide +kernel⟩,
   ⟨kpsS
     { active := true, stage := 2, len := 400, got := 20, buf := blk 2, planes := [{ plane1 with blocks := 2, seen := 1, size := 2, olen := 1 }], segs := [seg0] },
     63, 0, blk 2, seg0, by decide +kernel⟩,
   ⟨kpsS
     { active := true, stage := 2, len := 400, got := 4, buf := leBytes 4 9, planes := [{ plane1 with last := true }], segs := [seg0] },
     63, leBytes 4 9, by decide +kernel⟩,
   ⟨kpsS
     { active := true, stage := 2, len := 4, got := 4, ended := true, buf := leBytes 4 (crc32c [0#8]), planes := [{ plane1 with last := true, units := [2] }], segs := [{ done := true }] },
     63, leBytes 4 (crc32c [0#8]), by decide +kernel⟩,
   ⟨kpsS { active := true, stage := 2, planes := [{ plane1 with units := [2] }], segs := [seg0] }, 63, 0, 0, seg0,
     { seg0 with unit := some 0, onUnit := 0, hist := (kpsS { active := true, stage := 2, planes := [{ plane1 with units := [2] }], segs := [seg0] }).history ((kpsS { active := true, stage := 2, planes := [{ plane1 with units := [2] }], segs := [seg0] }).page 63) seg0 },
     (fedOf (Segment.feed false 2 { seg0 with unit := some 0, onUnit := 0, hist := [] })).1, [0x55#8], by decide +kernel⟩,
   ⟨onUnit3 { seg0 with unit := some 3, staged := [] }, 63, 0, 3, { seg0 with unit := some 3, staged := [] },
     by decide +kernel⟩,
   ⟨onUnit3 { seg0 with unit := some 3, staged := [], closed := true }, 63, 0, 3,
     { seg0 with unit := some 3, staged := [], closed := true }, by decide +kernel⟩⟩

/-- The hypotheses of RecordCommandsComplete can be met, clause by clause. -/
theorem test_met_RecordCommandsComplete :
    (∃ (s : State) (rq : Rq) (r : Nat) (addr : Nat) (size : Nat), s.ready rq 0x0207 ∧ r < 2 ∧ addr % 4096 = 0 ∧ recSizeOk size) ∧
    (∃ (s : State) (r : Nat) (b : List Byte) (l : List (List Byte)), r < 2 ∧ (s.recRing r).waiting = b :: l ∧ (s.recRing
      r).placed ∧ (s.recRing r).full = false) ∧
    (∃ (s : State) (r : Nat), r < 2 ∧ (s.recRing r).placed ∧ (s.recRing r).breached = false) ∧
    (∃ (s : State) (r : Nat), r < 2 ∧ (s.recRing r).placed) ∧
    (∃ (s : State) (r : Nat), r < 2 ∧ (s.recRing r).placed ∧ (s.recRing r).full) ∧
    (∃ (s : State) (r : Nat), (s.recRing r).deferred = false) ∧
    (∃ (s : State) (r : Nat), (s.recRing r).deferred ∧ tabGet false s.msix.unmasked (s.recRing r).vector = true) ∧
    (∃ (s : State) (u : Nat) (c : CropJob) (l : List CropJob), u < 4 ∧ s.ingest.crops = c :: l ∧ tabGet none s.ingest.streams u
      = none) ∧
    (∃ (s : State) (u : Nat) (level : Nat) (at_ : Nat) (c : CropJob) (out : List Byte), u < 4 ∧ tabGet none s.ingest.streams u
      = some (c, level) ∧ c.header.length = 32 ∧ out = compress level c.data ∧ at_ = 0x230000000 + 524288 * (c.crop % 2 ^
      s.fld Reg.JIG_CROP_SLOTS_EXP)) :=
  ⟨⟨rdy, q0, 1, 0x12000, 1024, by decide +kernel⟩,
   ⟨recS { placed := true, size := 1024, cons := 2, addr := 0x12000, waiting := [[1#8]], prod := 1025 }, 1, [1#8], [],
     by decide +kernel⟩,
   ⟨recS { placed := true, size := 1024 }, 1, by decide +kernel⟩,
   ⟨recS { placed := true, size := 1024 }, 1, by decide +kernel⟩,
   ⟨recS { placed := true, size := 1024, prod := 1024 }, 1, by decide +kernel⟩,
   ⟨recS { placed := true, coalescing := true }, 1, by decide +kernel⟩,
   ⟨({ recS { placed := true, deferred := true, vector := 3 } with msix := { rdy.msix with unmasked := [(3, true)] } } :
     State), 1, by decide +kernel⟩,
   ⟨{ rdy with ingest := { rdy.ingest with crops := [crop1] } }, 3, crop1, [], by decide +kernel⟩,
   ⟨{ rdy with ingest := { rdy.ingest with streams := [(3, some (crop1, 6))] } }, 3, 6, 0x230000000 + 524288 * 5, crop1,
     compress 6 crop1.data, by decide +kernel, by decide +kernel, by decide +kernel, rfl, by decide +kernel⟩⟩

/-- The hypotheses of CameraCommandsComplete can be met, clause by clause. -/
theorem test_met_CameraCommandsComplete :
    (∃ (s : State) (n : Nat), n < 24 ∧ s.capOn n ∧ s.awake ∧ s.freeRun n = false ∧ s.trigPos n (s.cam n).trigs ≤ max (s.cam
      n).high s.webPos) ∧
    (∃ (s : State) (n : Nat), n < 24 ∧ s.capOn n ∧ s.awake ∧ s.freeRun n = false ∧ max (s.cam n).high s.webPos < s.trigPos n
      (s.cam n).trigs) ∧
    (∃ (s : State) (n : Nat), n < 24 ∧ s.capOn n ∧ s.awake ∧ s.freeRun n) ∧
    (∃ (s : State) (n : Nat), n < 24 ∧ s.capOn n ∧ s.awake ∧ (s.cam n).fsync = false) ∧
    (∃ (s : State) (n : Nat) (f : CamFrame), n < 24 ∧ s.capOn n ∧ (s.cam n).fsync ∧ (s.cam n).openFrame = some f ∧ s.capLines n
      ≤ (s.cam n).lines ∧ (s.cam n).rowA = none) ∧
    (∃ (s : State) (n : Nat) (f : CamFrame), n < 24 ∧ s.capOn n ∧ (s.cam n).fsync ∧ (s.cam n).openFrame = some f ∧ (s.cam
      n).lines < s.capLines n) ∧
    (∃ (s : State) (n : Nat), n < 24 ∧ s.capOn n ∧ s.awake ∧ (s.cam n).fsync = false) ∧
    (∃ (s : State) (n : Nat) (f : CamFrame), n < 24 ∧ s.capOn n ∧ s.awake ∧ (s.cam n).fsync ∧ s.bilinear n ∧ (s.cam
      n).openFrame = some f ∧ (s.cam n).lines < s.capLines n ∧ (s.cam n).rowA = none) ∧
    (∃ (s : State) (n : Nat) (f : CamFrame) (a : PortLine), n < 24 ∧ s.capOn n ∧ s.awake ∧ (s.cam n).fsync ∧ s.bilinear n ∧
      s.halfAlong n = false ∧ (s.cam n).openFrame = some f ∧ (s.cam n).lines < s.capLines n ∧ (s.cam n).rowA = some a ∧
      (s.cam n).buf.length < s.capRoom n) ∧
    (∃ (s : State) (n : Nat) (f : CamFrame), n < 24 ∧ s.capOn n ∧ s.awake ∧ (s.cam n).fsync ∧ s.bilinear n = false ∧
      s.halfAlong n = false ∧ s.fld (Reg.CAP_ALIGN_D_R n) = 0 ∧ s.fld (Reg.CAP_ALIGN_D_G n) = 0 ∧ s.fld (Reg.CAP_ALIGN_D_B
      n) = 0 ∧ (s.cam n).openFrame = some f ∧ (s.cam n).lines < s.capLines n ∧ (s.cam n).buf.length < s.capRoom n) :=
  ⟨⟨capS { t0 := -5, waiting := [{ k := 4 }] }, 23, by decide +kernel⟩,
   ⟨capS { t0 := 256 }, 23, by decide +kernel⟩,
   ⟨(capS {}).setFld (Reg.CAP_TRIG_SRC 23) 1, 23, by decide +kernel⟩,
   ⟨capS { pend := true, nextFrame := 0xFFFFFFFF }, 23, by decide +kernel⟩,
   ⟨capF { lines := 2 }, 23, frame9, by decide +kernel⟩,
   ⟨capF { lines := 1 }, 23, frame9, by decide +kernel⟩,
   ⟨capS {}, 23, by decide +kernel⟩,
   ⟨(capF {}).setFld (Reg.CAP_CTRL_KIND 23) 1, 23, frame9, by decide +kernel⟩,
   ⟨(capF { rowA := some { samples := [7, 8] } }).setFld (Reg.CAP_CTRL_KIND 23) 1, 23, frame9, { samples := [7, 8] },
     by decide +kernel⟩,
   ⟨sets (capF {}) [(Reg.CAP_CTRL_KIND 23, 0), (Reg.CAP_ALIGN_D_R 23, 0), (Reg.CAP_ALIGN_D_G 23, 0), (Reg.CAP_ALIGN_D_B 23,
     0)], 23, frame9, by decide +kernel⟩⟩

/-- The hypotheses of SensorCommandsComplete can be met, clause by clause. -/
theorem test_met_SensorCommandsComplete :
    (∃ (s : State) (rq : Rq) (n : Nat), s.ready rq 0x0200 ∧ n < 24 ∧ s.capOn n) ∧
    (∃ (s : State) (rq : Rq) (n : Nat), s.ready rq 0x0200 ∧ n < 24 ∧ s.capOn n = false) ∧
    (∃ (s : State) (n : Nat) (x : CamXfer), (s.cam n).xfer = some x ∧ x.started = false ∧ s.flag (Reg.CAP_STATUS_PEND n) =
      false ∧ s.guarded n = false) ∧
    (∃ (s : State) (n : Nat) (x : CamXfer), (s.cam n).xfer = some x ∧ x.started = false ∧ s.flag (Reg.CAP_STATUS_PEND n) =
      false ∧ s.guarded n) ∧
    (∃ (s : State) (rq : Rq) (n : Nat) (b : List Byte), s.ready rq 0x0201 ∧ n < 24 ∧ s.capOn n ∧ 1 ≤ b.length ∧ b.length ≤ 1024) ∧
    (∃ (s : State) (n : Nat) (x : CamXfer) (b : List Byte), (s.cam n).xfer = some x ∧ x.started ∧ x.settings = false ∧ b.length
      = x.bytes.length ∧ s.slotOpen x.sess x.tag) ∧
    (∃ (s : State) (n : Nat) (x : CamXfer) (f : CamFrame), n < 24 ∧ (s.cam n).xfer = some x ∧ x.started ∧ x.settings ∧
      x.crossed = false ∧ (s.cam n).openFrame = some f ∧ f.num < idxMod - 3 ∧ s.flag (Reg.CAP_CTRL_SHADOW n) = false ∧
      s.fld (Reg.CAP_CTRL_LATENCY n) ≠ 0 ∧ s.slotOpen x.sess x.tag) ∧
    (∃ (s : State) (p : Nat), s.writable ∧ s.awake ∧ p < 8 ∧ (s.cam (s.kalPort p)).pend = false) ∧
    (∃ (s : State) (p : Nat), s.writable ∧ s.awake ∧ p < 8 ∧ kalSetOk (s.cam (s.kalPort p)).staged) ∧
    (∃ (s : State) (n : Nat), n < 24 ∧ s.capOn n ∧ s.flag (Reg.KAL_CTRL_FLAT_FREEZE (s.pipeOf n)) = false ∧ s.fld
      (Reg.KAL_CTRL_FLAT_EVERY (s.pipeOf n)) ≤ (s.cam n).since) ∧
    (∃ (s : State) (n : Nat) (r : CalJob) (levels : List (Nat × Nat)) (bad : List Nat), s.calFull n 0x20 = some r ∧ levels =
      (s.samplesOf n).map (fun q => (sampleKey q.1 q.2, (((r.values q.1 q.2).sum + 512) / 1024).toNat)) ∧ bad =
      (levels.filter fun e => decide (kalWord (s.cam n).params 11 11 0 < e.2)).map Prod.fst ∧ 16 * bad.length ≤
      levels.length ∧ s.slotOpen r.sess r.tag) ∧
    (∃ (s : State) (n : Nat) (r : CalJob) (levels : List (Nat × Nat)) (bad : List Nat), s.calFull n 0x20 = some r ∧ levels =
      (s.samplesOf n).map (fun q => (sampleKey q.1 q.2, (((r.values q.1 q.2).sum + 512) / 1024).toNat)) ∧ bad =
      (levels.filter fun e => decide (kalWord (s.cam n).params 11 11 0 < e.2)).map Prod.fst ∧ levels.length < 16 *
      bad.length ∧ s.slotOpen r.sess r.tag) ∧
    (∃ (s : State) (n : Nat) (r : CalJob), s.calFull n 0x21 = some r ∧ s.slotOpen r.sess r.tag) :=
  ⟨⟨capS {}, q0, 23, by decide +kernel⟩,
   ⟨rdy, q0, 23, by decide +kernel⟩,
   ⟨capS { xfer := some xfer1 }, 23, xfer1, by decide +kernel⟩,
   ⟨(capF { xfer := some xfer1, lines := 2 }).setFld (Reg.CAP_SENS_GUARD 23) 1, 23, xfer1, by decide +kernel⟩,
   ⟨capS {}, q0, 23, [1#8, 2#8, 3#8], by decide +kernel⟩,
   ⟨withSlot (capS { xfer := some { xfer1 with started := true, settings := false } }) 0x0201, 23,
     { xfer1 with started := true, settings := false }, [8#8, 9#8], by decide +kernel⟩,
   ⟨withSlot ((capF { xfer := some { xfer1 with started := true } }).setFld (Reg.CAP_CTRL_LATENCY 23) 2) 0x0200, 23,
     { xfer1 with started := true }, frame9, by decide +kernel⟩,
   ⟨sets rdy [(Reg.KAL_PIDX_WORD 7, 15), (Reg.KAL_PIDX_SLOT 7, 5)], 7, by decide +kernel⟩,
   ⟨rdy.setFld (Reg.KAL_PIDX_SLOT 7) 5, 7, by decide +kernel⟩,
   ⟨(capS { since := 65535 }).setFld (Reg.KAL_CTRL_FLAT_FREEZE 6) 0, 23, by decide +kernel⟩,
   ⟨calS 0x20 3, 23, calJob 0x20 3, ((calS 0x20 3).samplesOf 23).map (fun q => (sampleKey q.1 q.2, ((((calJob 0x20 3).values
     q.1 q.2).sum + 512) / 1024).toNat)), [], by decide +kernel⟩,
   ⟨calS 0x20 4095, 23, calJob 0x20 4095, ((calS 0x20 4095).samplesOf 23).map (fun q => (sampleKey q.1 q.2, ((((calJob 0x20
     4095).values q.1 q.2).sum + 512) / 1024).toNat)), (((calS 0x20 4095).samplesOf 23).map (fun q => (sampleKey q.1 q.2,
     ((((calJob 0x20 4095).values q.1 q.2).sum + 512) / 1024).toNat))).map Prod.fst, by decide +kernel⟩,
   ⟨calS 0x21 3, 23, calJob 0x21 3, by decide +kernel⟩⟩

/-- The hypotheses of PipelineCommandsComplete can be met, clause by clause. -/
theorem test_met_PipelineCommandsComplete :
    (∃ (s : State) (p : Nat), p < 8 ∧ s.nextPort p = none) ∧
    (∃ (s : State) (r : State) (p : Nat) (n : Nat) (l : CapLine) (rest : List CapLine), p < 8 ∧ s.nextPort p = some n ∧ s.flag
      (Reg.KAL_CTRL_SHARE p) = false ∧ (s.cam n).buf = l :: rest ∧ (s.cam n).col + 256 < (l.rows.getD 0 []).length ∧ r =
      s.readLine n (s.cam n).col 256) ∧
    (∃ (s : State) (r : State) (p : Nat) (n : Nat) (l : CapLine) (rest : List CapLine) (base : Int), p < 8 ∧ s.nextPort p =
      some n ∧ s.flag (Reg.KAL_CTRL_SHARE p) = false ∧ r = s.readLine n (s.cam n).col 256 ∧ (r.cam n).buf = l :: rest ∧
      (l.rows.getD 0 []).length ≤ (s.cam n).col + 256 ∧ s.onGrid n ∧ s.flag Reg.JIG_CTRL_ENABLE ∧ base = (s.cam
      n).base.getD l.trig.pos ∧ s.spacing n ≠ 0 ∧ (l.trig.pos - base) % (s.spacing n : Int) = 0) ∧
    (∃ (s : State) (n : Nat) (m : Int) (y : Int) (t0 : Int), n < 24 ∧ s.onGrid n ∧ s.flag Reg.JIG_CTRL_ENABLE ∧ (s.cam n).base
      = some t0 ∧ s.spacing n ≠ 0 ∧ (s.cam n).nextM = some m ∧ (s.cam n).rsPend = false ∧ colsOf (s.cam n).rs ≠ 0 ∧ s.flag
      (Reg.RSMP_STATUS_SWAP_PEND (s.pipeOf n)) = false ∧ y = yOf (s.gpos m) t0 (exposureTicks (s.cam n).speed (expcOf
      (s.cam n).rs)) (s.spacing n) (dlyOf (s.cam n).rs) ∧ 0 ≤ y / 2 ^ 24 ∧ y / 2 ^ 24 + 16 ≤ (s.cam n).seen) ∧
    (∃ (s : State) (n : Nat) (m : Int) (t0 : Int) (p : List Nat), n < 24 ∧ s.onGrid n ∧ s.flag Reg.JIG_CTRL_ENABLE ∧ (s.cam
      n).base = some t0 ∧ s.spacing n ≠ 0 ∧ (s.cam n).nextM = some m ∧ p = (s.cam n).regSet ∧ (s.cam n).seen < yOf (s.gpos
      m) t0 (exposureTicks (s.cam n).speed (expcOf p)) (s.spacing n) (dlyOf p) / 2 ^ 24 + 16) ∧
    (∃ (s : State) (u : Nat), s.writable ∧ s.awake ∧ u < 8 ∧ (s.cam (s.rsmpPort u)).rsPend = false) ∧
    (∃ (s : State) (u : Nat), s.writable ∧ s.awake ∧ u < 8 ∧ rsmpSetOk (s.cam (s.rsmpPort u)).rsStaged ∧ colsOf (s.cam
      (s.rsmpPort u)).rs = 0 ∧ colsOf (s.cam (s.rsmpPort u)).rsStaged = 0) ∧
    (∃ (s : State) (u : Nat), s.writable ∧ s.awake ∧ u < 8 ∧ rsmpSetOk (s.cam (s.rsmpPort u)).rsStaged ∧ (colsOf (s.cam
      (s.rsmpPort u)).rs ≠ 0 ∨ colsOf (s.cam (s.rsmpPort u)).rsStaged ≠ 0)) ∧
    (∃ (s : State) (u : Nat), s.writable ∧ s.awake ∧ u < 8 ∧ s.flag (Reg.RSMP_STATUS_COEF_PEND u)) ∧
    (∃ (s : State) (rq : Rq) (c : Chunk) (tb : List Byte), s.ready rq 0x0205 ∧ c.inst < 8 ∧ s.flag (Reg.RSMP_STATUS_SWAP_PEND
      c.inst) = false ∧ judgeChunk false (s.staged 0x0205 c.inst) c = .whole tb ∧ coefBad tb = none ∧ s.flag
      (Reg.RSMP_CTRL_AUTO_SWAP c.inst) = false) :=
  ⟨⟨rdy, 7, by decide +kernel⟩,
   ⟨(capS { buf := [longLine], frames := [{ frame9 with closed := true }] }).setFld (Reg.CAP_GEOM_PIXELS 23) 300, ((capS
     { buf := [longLine], frames := [{ frame9 with closed := true }] }).setFld (Reg.CAP_GEOM_PIXELS 23) 300).readLine 23 0
     256, 7, 23, longLine, [], by decide +kernel⟩,
   ⟨jigOn { buf := [line9], rs := rs16, frames := [{ frame9 with closed := true, params := kalReset }] }, (jigOn
     { buf := [line9], rs := rs16, frames := [{ frame9 with closed := true, params := kalReset }] }).readLine 23 0 256, 7,
     23, line9, [], 300, by decide +kernel⟩,
   ⟨jigOn { rs := rs16, base := some 0, nextM := some 100000, seen := 1000000000000 }, 23, 100000, yOf ((jigOn
     { rs := rs16, base := some 0, nextM := some 100000, seen := 1000000000000 }).gpos 100000) 0 (exposureTicks ((jigOn
     { rs := rs16, base := some 0, nextM := some 100000, seen := 1000000000000 }).cam 23).speed (expcOf ((jigOn
     { rs := rs16, base := some 0, nextM := some 100000, seen := 1000000000000 }).cam 23).rs)) ((jigOn
     { rs := rs16, base := some 0, nextM := some 100000, seen := 1000000000000 }).spacing 23) (dlyOf ((jigOn
     { rs := rs16, base := some 0, nextM := some 100000, seen := 1000000000000 }).cam 23).rs), 0, by decide +kernel⟩,
   ⟨jigOn { rs := rs16, base := some 0, nextM := some 5 }, 23, 5, 0, rs16, by decide +kernel⟩,
   ⟨rdy.setFld (Reg.RSMP_CTRL_WORD 7) 15, 7, by decide +kernel⟩,
   ⟨rdy, 7, by decide +kernel⟩,
   ⟨rdy.setCam 18 { rsStaged := rs16 }, 6, by decide +kernel⟩,
   ⟨rdy.setFld (Reg.RSMP_STATUS_COEF_PEND 7) 1, 7, by decide +kernel⟩,
   ⟨rdy, q0, whole 7 coefT, coefT, by decide +kernel, by decide +kernel, by decide +kernel, by decide +kernel, coef_ok,
     by decide +kernel⟩⟩

/-- The hypotheses of InspectionCommandsComplete can be met, clause by clause. -/
theorem test_met_InspectionCommandsComplete :
    (∃ (s : State) (rq : Rq) (c : Chunk) (tb : List Byte), s.ready rq 0x0202 ∧ c.inst < 24 ∧ (c.offset = 0 → s.tabBusy (512 +
      c.inst) = false) ∧ judgeChunk false (s.staged 0x0202 c.inst) c = .whole tb ∧ modelBad tb = none) ∧
    (∃ (s : State) (rq : Rq) (c : Chunk) (tb : List Byte), s.ready rq 0x0203 ∧ c.inst < 16 ∧ (c.offset = 0 → s.tabBusy (768 +
      c.inst) = false) ∧ judgeChunk false (s.staged 0x0203 c.inst) c = .whole tb ∧ coverBad tb = none) ∧
    (∃ (s : State) (rq : Rq) (c : Chunk) (tb : List Byte), s.ready rq 0x0204 ∧ c.inst < 16 ∧ (c.offset = 0 → s.tabBusy (1024 +
      c.inst) = false) ∧ judgeChunk false (s.staged 0x0204 c.inst) c = .whole tb ∧ blurBad tb = none) ∧
    (∃ (s : State) (rq : Rq) (c : Chunk) (tb : List Byte), s.ready rq 0x0206 ∧ c.inst = 0 ∧ (c.offset = 0 → s.tabBusy 1536 =
      false) ∧ judgeChunk false (s.staged 0x0206 0) c = .whole tb ∧ classBad tb = none) ∧
    (∃ (s : State) (m : Int), s.flag Reg.JIG_CTRL_ENABLE ∧ s.nextLine = some m) ∧
    (∃ (s : State), s.flag Reg.JIG_CTRL_ENABLE = false) ∧
    (∃ (s : State) (n : Nat) (f : CamFrame), n < 24 ∧ s.dueFrame n = some (f, false)) ∧
    (∃ (s : State) (n : Nat) (f : CamFrame), n < 24 ∧ s.dueFrame n = some (f, true) ∧ (s.recRing 1).waiting.length < 65536) :=
  ⟨⟨stagedS 0x0202 23 (bytes0 501140), q0, ⟨23, 1, 501140, 501140 + 4, bytes0 4⟩, bytes0 (501140 + 4), by decide +kernel,
     by decide +kernel, by decide +kernel, model_chunk 501140 (by decide), model_zero _ rfl⟩,
   ⟨rdy, q0, whole 15 (bytes0 48), bytes0 48, by decide +kernel⟩,
   ⟨rdy, q0, whole 15 blurT, blurT, by decide +kernel⟩,
   ⟨rdy, q0, whole 0 classT, classT, by decide +kernel⟩,
   ⟨jigOn { rs := rs16, grid := [grid5] }, 5, by decide +kernel⟩,
   ⟨rdy, by decide +kernel⟩,
   ⟨capS { frames := [{ frame9 with closed := true }] }, 23, { frame9 with closed := true }, by decide +kernel⟩,
   ⟨capS
     { rs := rs16, frames := [{ frame9 with closed := true, first := some 5, last := 5 }], grid := [{ grid5 with done := true }] },
     23, { frame9 with closed := true, first := some 5, last := 5 }, by decide +kernel⟩⟩

/-- The hypotheses of FirmwareCommandsComplete can be met, clause by clause. -/
theorem test_met_FirmwareCommandsComplete :
    (∃ (s : State) (rq : Rq) (c : Chunk) (tb : List Byte), s.ready rq 0x0500 ∧ c.inst = 0 ∧ (c.offset = 0 → s.switching =
      false) ∧ judgeChunk false (s.staged 0x0500 0) c = .whole tb) ∧
    (∃ (s : State) (rq : Rq), s.ready rq 0x0501 ∧ s.flag (slotValid s.idleB) ∧ s.switching = false ∧ (s.chainWidth = 0 ∨ s.fld
      (slotLevel s.idleB) = s.level ∨ s.inSt [stArmed, stPrinting, stPaused] = false) ∧ s.flag Reg.SPARE_PSUP_STANDBY_OK) ∧
    (∃ (s : State) (rq : Rq), s.ready rq 0x0501 ∧ s.flag (slotValid s.idleB) = false) ∧
    (∃ (s : State) (w : FwSwitch), s.spare.switch = some w ∧ s.slotOpen w.sess w.tag) ∧
    (∃ (s : State), s.fld Reg.SPARE_FW_STATE = 4 ∧ s.flag Reg.SPARE_PSUP_TAKEOVER = false) ∧
    (∃ (s : State) (c : Nat) (k : Nat), s.fld Reg.SPARE_FW_STATE = 5 ∧ s.fld Reg.SPARE_FW_CLUSTER = c ∧ s.fld
      Reg.SPARE_FW_STEPS = k ∧ k < 15 ∧ (s.cluster c).spare < 17) ∧
    (∃ (s : State) (c : Nat), s.fld Reg.SPARE_FW_STATE = 5 ∧ s.fld Reg.SPARE_FW_CLUSTER = c ∧ c < 15 ∧ s.fld Reg.SPARE_FW_STEPS
      = 15 ∧ (s.cluster c).spare < 17) ∧
    (∃ (s : State), s.flag Reg.SPARE_PSUP_STANDBY_OK ∧ s.flag Reg.SPARE_PSUP_TAKEOVER = false ∧ s.st ≠ stAsleep) ∧
    (∃ (s : State), s.flag Reg.SPARE_PSUP_TAKEOVER ∧ s.spare.faultedAt + 500000 ≤ s.now) ∧
    (∃ (s : State), s.flag Reg.SPARE_PSUP_STANDBY_OK ∧ s.flag Reg.SPARE_PSUP_TAKEOVER = false ∧ s.st = stAsleep) ∧
    (∃ (s : State), s.flag Reg.SPARE_PSUP_STANDBY_OK = false ∧ s.flag Reg.SPARE_PSUP_TAKEOVER = false ∧ s.st ≠ stBooting) ∧
    (∃ (s : State), s.flag Reg.SPARE_PSUP_STANDBY_OK ∧ s.flag Reg.SPARE_PSUP_TAKEOVER = false) ∧
    (∃ (s : State), s.flag Reg.SPARE_PSUP_STANDBY_OK ∧ s.flag Reg.SPARE_PSUP_TAKEOVER ∧ s.st ≠ stBooting) ∧
    (∃ (s : State), s.spare.testing) ∧
    (∃ (s : State), s.spare.testing) :=
  ⟨⟨rdy, q0, whole 0 [1#8, 2#8], [1#8, 2#8], by decide +kernel⟩,
   ⟨slotBValid, q0, by decide +kernel⟩,
   ⟨rdy, q0, by decide +kernel⟩,
   ⟨switchS, ⟨0, 5⟩, by decide +kernel⟩,
   ⟨rdy.setFld Reg.SPARE_FW_STATE 4, by decide +kernel⟩,
   ⟨sets rdy [(Reg.SPARE_FW_STATE, 5), (Reg.SPARE_FW_CLUSTER, 15), (Reg.SPARE_FW_STEPS, 14)], 15, 14, by decide +kernel⟩,
   ⟨sets rdy [(Reg.SPARE_FW_STATE, 5), (Reg.SPARE_FW_CLUSTER, 14), (Reg.SPARE_FW_STEPS, 15)], 14, by decide +kernel⟩,
   ⟨rdy, by decide +kernel⟩,
   ⟨taking, by decide +kernel⟩,
   ⟨asleepS, by decide +kernel⟩,
   ⟨rdy.setFld Reg.SPARE_PSUP_STANDBY_OK 0, by decide +kernel⟩,
   ⟨rdy, by decide +kernel⟩,
   ⟨taking, by decide +kernel⟩,
   ⟨{ rdy with spare := { rdy.spare with testing := true } }, by decide +kernel⟩,
   ⟨{ rdy with spare := { rdy.spare with testing := true } }, by decide +kernel⟩⟩

/-- The hypotheses of ServiceCommandsComplete can be met, clause by clause. -/
theorem test_met_ServiceCommandsComplete :
    (∃ (s : State) (rq : Rq), s.ready rq 0x0502) ∧
    (∃ (s : State) (e : Nat) (cause : Nat), e < 256 ∧ (s.cluster (e / 16)).vacant.contains (e % 16) = false ∧ (s.cluster (e /
      16)).spare < 17 ∧ s.rotating (e / 16) = false ∧ cause < 4) ∧
    (∃ (s : State) (e : Nat), e < 256 ∧ (s.cluster (e / 16)).vacant.contains (e % 16) = false ∧ 17 ≤ (s.cluster (e / 16)).spare) ∧
    (∃ (s : State) (rq : Rq) (kind : Nat) (n : Nat), s.ready rq 0x0503 ∧ (kind = 0x20 ∨ kind = 0x21) ∧ n < 24 ∧ s.capOn n ∧
      (s.cam n).run = none) ∧
    (∃ (s : State) (rq : Rq) (code : Nat), s.ready rq 0x0503 ∧ s.leads ∧ code ≤ 5) ∧
    (∃ (s : State) (rq : Rq) (kind : Nat) (inst : Nat) (c : CalCopy), s.ready rq 0x0504 ∧ calKnown kind inst ∧ s.calNewest kind
      inst = some c) ∧
    (∃ (s : State), s.st = stPrinting) ∧
    (∃ (s : State), s.st ≠ stPrinting) ∧
    (∃ (s : State) (rq : Rq), s.ready rq 0x0505) :=
  ⟨⟨rdy, q0, by decide +kernel⟩,
   ⟨rdy, 255, 3, by decide +kernel⟩,
   ⟨rdy.setCluster 15 { rdy.cluster 15 with spare := 31 }, 255, by decide +kernel⟩,
   ⟨capS {}, q0, 0x21, 23, by decide +kernel⟩,
   ⟨sets ({ chainOn with chain := { chainOn.chain with mask := 1 } } : State) [], q0, 5, by decide +kernel⟩,
   ⟨rdy.setCalPair 0x30 15 ⟨calA, {}⟩, q0, 0x30, 15, calA, by decide +kernel⟩,
   ⟨prn, by decide +kernel⟩,
   ⟨rdy, by decide +kernel⟩,
   ⟨rdy, q0, by decide +kernel⟩⟩

/-- The hypotheses of MonitorCommandsComplete can be met, clause by clause. -/
theorem test_met_MonitorCommandsComplete :
    (∃ (s : State) (m : Nat) (v : Int) (w : Int), m < 64 ∧ s.flag (Reg.MON_STATUS_RUNNING m) ∧ s.fld (Reg.MON_CFG_WIN_MODE m) ≠
      1 ∧ w = s.monTaken m v ∧ -2 ^ 31 ≤ w ∧ w < 2 ^ 31 ∧ -2 ^ 63 ≤ (s.mon m).acc.sum + w ∧ (s.mon m).acc.sum + w < 2 ^ 63) ∧
    (∃ (s : State) (m : Nat), m < 64 ∧ s.flag (Reg.MON_STATUS_RUNNING m) ∧ s.fld (Reg.MON_CFG_WIN_MODE m) = 1 ∧ (s.mon
      m).acc.count + 1 = s.monLen m ∧ s.monLen m < idxMod) ∧
    (∃ (s : State) (m : Nat), m < 64 ∧ s.flag (Reg.MON_STATUS_RUNNING m) ∧ s.monOver m) ∧
    (∃ (s : State) (m : Nat), m < 64 ∧ s.awake) ∧
    (∃ (s : State) (rq : Rq) (mask : Nat) (start : Nat) (b : List Byte), s.ready rq 0x0601 ∧ start < 64 ∧ b = ((List.range
      64).filter fun m => bitAt mask m && decide (start ≤ m)).flatMap (fun m => (if s.fld (Reg.MON_CFG_WIN_MODE m) == 0 &&
      !s.flag (Reg.MON_CFG_TRIG_SNAP m) then (s.mon m).acc else (s.mon m).held).bytes)) ∧
    (∃ (s : State) (rq : Rq) (c : Chunk) (tb : List Byte), s.ready rq 0x0600 ∧ c.inst < 64 ∧ judgeChunk false (s.staged 0x0600
      c.inst) c = .whole tb ∧ binsBad tb = none) :=
  ⟨⟨runMon 0 { edges := [1, 5] }, 63, -7, -7, by decide +kernel⟩,
   ⟨runMon 1 { acc := { count := 2 } }, 63, by decide +kernel⟩,
   ⟨{ runMon 2 {} with now := 750 }, 63, by decide +kernel⟩,
   ⟨rdy, 63, by decide +kernel⟩,
   ⟨runMon 0 {}, q0, 2 ^ 63, 63, MonAcc.bytes {}, by decide +kernel⟩,
   ⟨rdy, q0, whole 63 binsT, binsT, by decide +kernel⟩⟩

/-- The hypotheses of CheckCommandsComplete can be met, clause by clause. -/
theorem test_met_CheckCommandsComplete :
    (∃ (s : State), s.awake) ∧
    (∃ (s : State) (u : Nat), s.awake ∧ u < 32 ∧ s.chkResult u (s.chkUnit u).value = (s.chkUnit u).expect % 2 ^ s.chkWidth u) ∧
    (∃ (s : State) (u : Nat), s.awake ∧ u < 32 ∧ s.chkResult u (s.chkUnit u).value ≠ (s.chkUnit u).expect % 2 ^ s.chkWidth u) ∧
    (∃ (s : State), s.awake) ∧
    (∃ (s : State) (u : Nat), s.awake ∧ u < 32 ∧ s.fld (Reg.CHK_CTRL_WIDTH u) = 64 ∧ (s.fld (Reg.CHK_IDX_INDEX u) ≤ 9 ∨ s.fld
      (Reg.CHK_IDX_INDEX u) = 12) ∧ (s.fld (Reg.CHK_CTRL_USERS u) = 0 ∨ 6 ≤ s.fld (Reg.CHK_IDX_INDEX u))) ∧
    (∃ (s : State) (u : Nat), s.awake ∧ u < 32 ∧ s.fld (Reg.CHK_IDX_INDEX u) < 6 ∧ s.fld (Reg.CHK_CTRL_USERS u) ≠ 0) :=
  ⟨⟨rdy, by decide +kernel⟩,
   ⟨rdy.setChk 31 { rdy.chkUnit 31 with expect := rdy.chkResult 31 (rdy.chkUnit 31).value }, 31, by decide +kernel⟩,
   ⟨rdy.setChk 31 { rdy.chkUnit 31 with expect := 1 + rdy.chkResult 31 (rdy.chkUnit 31).value }, 31, by decide +kernel⟩,
   ⟨rdy, by decide +kernel⟩,
   ⟨sets rdy [(Reg.CHK_CTRL_WIDTH 31, 64), (Reg.CHK_IDX_INDEX 31, 12)], 31, by decide +kernel⟩,
   ⟨sets rdy [(Reg.CHK_CTRL_USERS 31, 1), (Reg.CHK_IDX_INDEX 31, 5)], 31, by decide +kernel⟩⟩

/-- The hypotheses of PaceCommandsComplete can be met, clause by clause. -/
theorem test_met_PaceCommandsComplete :
    (∃ (s : State), s.awake ∧ s.st ≠ stBooting ∧ s.fld Reg.PACE_CTRL_MODE = 0) ∧
    (∃ (s : State) (m : PaceMeas) (mode : Nat) (need : Bool) (easy : Bool) (hold : Bool), s.awake ∧ s.st ≠ stBooting ∧ s.fld
      Reg.PACE_CTRL_MODE = mode ∧ (mode = 1 ∨ mode = 2) ∧ m.speeds = [] ∧ need = ((s.lowFill.any fun f => decide (f <
      s.fld Reg.PACE_SLACK_CONC_TARGET)) || decide (s.fld Reg.PACE_SLACK_CAPFILL_MAX < s.highCapture)) ∧ easy =
      ((s.lowFill.all fun f => decide (s.fld Reg.PACE_SLACK_CONC_TARGET + s.fld Reg.PACE_SLACK_CONC_TARGET / 4 ≤ f)) &&
      decide (s.highCapture + 10 ≤ s.fld Reg.PACE_SLACK_CAPFILL_MAX)) ∧ hold = (decide (mode = 2) && (s.flag
      Reg.PACE_STATUS_FIT_HOLD || s.rateOver))) ∧
    (∃ (s : State), s.awake ∧ s.st = stBooting) ∧
    (∃ (s : State), s.awake = false) ∧
    (∃ (s : State), s.rateWithin) ∧
    (∃ (s : State), s.rateOver) ∧
    (∃ (s : State) (tj : Int), 105 < tj ∧ s.flag Reg.PACE_STATUS_TJ_OVER = false) ∧
    (∃ (s : State) (tj : Int), (tj ≤ 105 ∨ s.flag Reg.PACE_STATUS_TJ_OVER)) ∧
    (∃ (tj : Int), tj ≤ 105) ∧
    (∃ (tj : Int), 105 < tj) :=
  ⟨⟨rdy.setFld Reg.PACE_CTRL_MODE 0, by decide +kernel⟩,
   ⟨rdy.setFld Reg.PACE_CTRL_MODE 1, ⟨890, 50, []⟩, 1, (((rdy.setFld Reg.PACE_CTRL_MODE 1).lowFill.any fun f => decide (f <
     (rdy.setFld Reg.PACE_CTRL_MODE 1).fld Reg.PACE_SLACK_CONC_TARGET)) || decide ((rdy.setFld Reg.PACE_CTRL_MODE 1).fld
     Reg.PACE_SLACK_CAPFILL_MAX < (rdy.setFld Reg.PACE_CTRL_MODE 1).highCapture)), (((rdy.setFld Reg.PACE_CTRL_MODE
     1).lowFill.all fun f => decide ((rdy.setFld Reg.PACE_CTRL_MODE 1).fld Reg.PACE_SLACK_CONC_TARGET + (rdy.setFld
     Reg.PACE_CTRL_MODE 1).fld Reg.PACE_SLACK_CONC_TARGET / 4 ≤ f)) && decide ((rdy.setFld Reg.PACE_CTRL_MODE
     1).highCapture + 10 ≤ (rdy.setFld Reg.PACE_CTRL_MODE 1).fld Reg.PACE_SLACK_CAPFILL_MAX)), false, by decide +kernel⟩,
   ⟨State.reset, by decide +kernel⟩,
   ⟨asleepS.setFld Reg.PWR_STATUS_PSTATE 2, by decide +kernel⟩,
   ⟨rdy.setFld Reg.PACE_STATUS_FIT_HOLD 1, by decide +kernel⟩,
   ⟨fastS, by decide +kernel⟩,
   ⟨rdy, 106, by decide +kernel⟩,
   ⟨rdy, 105, by decide +kernel⟩,
   ⟨105, by decide +kernel⟩,
   ⟨106, by decide +kernel⟩⟩

/-- The hypotheses of MemoryCommandsComplete can be met, clause by clause. -/
theorem test_met_MemoryCommandsComplete :
    (∃ (s : State) (a : Nat) (i : Nat) (b : List Byte), b ≠ [] ∧ a + b.length ≤ memSize ∧ i < 8 ∧ s.awake ∧ s.startsAccess
      (s.chanOf a) i (bankOf (placeOf a)) ∧ s.dram.errs = [] ∧ s.dram.poison = []) ∧
    (∃ (s : State) (a : Nat) (i : Nat) (n : Nat), 0 < n ∧ a + n ≤ memSize ∧ i < 8 ∧ s.awake ∧ s.startsAccess (s.chanOf
      (s.servedAt a)) i (bankOf (placeOf (s.servedAt a))) ∧ s.dram.errs = [] ∧ s.dram.poison = []) ∧
    (∃ (s : State) (w : Nat) (i : Nat) (e : Nat × Nat), 16 * w + 16 ≤ memSize ∧ s.chanOf (16 * w) < 64 ∧ i < 8 ∧ s.awake ∧
      s.servedAt (16 * w) = 16 * w ∧ s.startsAccess (s.chanOf (16 * w)) i (bankOf (placeOf (16 * w))) ∧ s.wordErrs w = [e]
      ∧ tabGet false s.dram.poison w = false) ∧
    (∃ (s : State) (w : Nat), s.dram.backs = [(w, none)]) ∧
    (∃ (s : State) (w : Nat) (i : Nat), 16 * w + 16 ≤ memSize ∧ s.chanOf (16 * w) < 64 ∧ i < 8 ∧ s.awake ∧ s.servedAt (16 * w)
      = 16 * w ∧ s.startsAccess (s.chanOf (16 * w)) i (bankOf (placeOf (16 * w))) ∧ tabGet false s.dram.poison w = true) ∧
    (∃ (s : State) (x : MemAccess), s.startsAccess (s.chanOf (if x.write.isSome then x.addr else s.servedAt x.addr)) x.input
      (bankOf (placeOf (if x.write.isSome then x.addr else s.servedAt x.addr))) = false) ∧
    (∃ (s : State), s.awake ∧ s.scrubDue ∧ s.wordErrs s.dram.scrub = [] ∧ tabGet false s.dram.poison s.dram.scrub = false ∧
      s.dram.scrub + 1 < idxMod) ∧
    (∃ (s : State), s.awake ∧ s.scrubDue ∧ s.wordErrs s.dram.scrub = [] ∧ tabGet false s.dram.poison s.dram.scrub = false ∧
      s.dram.scrub + 1 = idxMod) ∧
    (∃ (s : State) (v : Word), s.st = stService ∧ wordBits v 23 19 ≤ 17 ∧ wordBits v 18 14 ≤ 17 ∧ wordBits v 30 30 = 0) ∧
    (∃ (s : State) (d : Nat), s.layoutOpen ∧ 1 ≤ d ∧ d ≤ 8 ∧ firstBroken (readsAny [Reg.MEM_DET]) [Reg.MEM_DET] (s.setFld
      Reg.MEM_DET_D d) = none) ∧
    (∃ (s : State) (c : Nat) (e : Nat × Nat × Nat), c < 64 ∧ s.dram.throttled = [e] ∧ e.1 = c ∧ e.2.2 ≤ s.now ∧ s.dram.targets
      = []) :=
  ⟨⟨rdy, 0, 7, [1#8], by decide +kernel⟩,
   ⟨rdy, 68719476735, 7, 1, by decide +kernel⟩,
   ⟨{ rdy with dram := { rdy.dram with errs := [(5, [(3, 1)])] } }, 5, 7, (3, 1), by decide +kernel⟩,
   ⟨{ rdy with dram := { rdy.dram with backs := [(5, none)], errs := [(5, [(3, 1)])] } }, 5, by decide +kernel⟩,
   ⟨{ rdy with dram := { rdy.dram with poison := [(5, true)] } }, 5, 7, by decide +kernel⟩,
   ⟨{ rdy with dram := { rdy.dram with throttled := [(rdy.chanOf 0, 7, 99)] } },
     { addr := 0, input := 7, len := 0, write := some [1#8] }, by decide +kernel⟩,
   ⟨rdy, by decide +kernel⟩,
   ⟨{ rdy with dram := { rdy.dram with scrub := 0xFFFFFFFF } }, by decide +kernel⟩,
   ⟨inState stService, 0x3FFF#32, by decide +kernel⟩,
   ⟨rdy, 8, by decide +kernel⟩,
   ⟨{ rdy.setFld (Reg.ARB_M_THROTTLE 63) 1 with dram := { rdy.dram with throttled := [(63, 0, 0)] } }, 63, (63, 0, 0),
     by decide +kernel⟩⟩

/-- The hypotheses of MaintenanceCommandsComplete can be met, clause by clause. -/
theorem test_met_MaintenanceCommandsComplete :
    (∃ (s : State) (c : Nat), s.refreshing c ∧ s.detCh c ∧ s.quiet c ∧ s.refreshDue c ∧ tabGet 0 s.dram.steps c = 0) ∧
    (∃ (s : State) (c : Nat) (n : Nat), s.refreshing c ∧ s.detCh c ∧ s.quiet c ∧ s.refreshDue c ∧ tabGet 0 s.dram.steps c = n +
      1) ∧
    (∃ (s : State) (c : Nat) (b : Nat), s.refreshing c ∧ s.detCh c = false ∧ s.flag (Reg.MEM_CH_STATUS_SELFREF c) = false ∧
      s.spaced c ∧ b < 128) ∧
    (∃ (s : State) (c : Nat), c < 64 ∧ s.detCh c = false ∧ s.fld Reg.MEM_CTRL_IDLE_US ≠ 0 ∧ s.quiet c ∧ s.idle c) ∧
    (∃ (s : State) (c : Nat), s.refreshing c ∧ s.stackFree c ∧ s.detCh c = false ∧ s.spaced c) ∧
    (∃ (s : State) (c : Nat), s.refreshing c ∧ s.stackFree c ∧ s.detCh c ∧ tabGet 0 s.dram.steps c = 0) ∧
    (∃ (s : State) (c : Nat), s.refreshing c ∧ s.stackFree c ∧ s.detCh c = false ∧ s.spaced c) ∧
    (∃ (s : State) (c : Nat), s.refreshing c ∧ s.stackFree c ∧ s.detCh c ∧ tabGet 0 s.dram.steps c = 0) ∧
    (∃ (s : State) (q : Nat) (temp : Int), q < 4 ∧ 105 ≤ temp ∧ bitAt (s.fld Reg.MEM_STATUS_EMERG) q = false) ∧
    (∃ (s : State) (q : Nat) (temp : Int), q < 4 ∧ temp ≤ 100 ∧ bitAt (s.fld Reg.MEM_STATUS_EMERG) q = true) :=
  ⟨⟨rdy, 4, by decide +kernel⟩,
   ⟨{ rdy with dram := { rdy.dram with steps := [(52, 16)], refreshed := [(52, 1)] }, now := 487 }, 52, 15,
     by decide +kernel⟩,
   ⟨{ rdy with dram := { rdy.dram with ended := [(63, 5)], open_ := [(8191, 4), (8190, 4)] }, now := 1005 }, 63, 127,
     by decide +kernel⟩,
   ⟨{ rdy.setFld Reg.MEM_CTRL_IDLE_US 1 with now := 250, dram := { rdy.dram with used := [(63, 1)] } }, 63,
     by decide +kernel⟩,
   ⟨rdy, 63, by decide +kernel⟩,
   ⟨rdy, 52, by decide +kernel⟩,
   ⟨rdy, 63, by decide +kernel⟩,
   ⟨rdy, 52, by decide +kernel⟩,
   ⟨rdy, 3, 105, by decide +kernel⟩,
   ⟨sets rdy [(Reg.MEM_STATUS_EMERG, 8), (Reg.MEM_STATUS_HOT, 8), (Reg.PLAT_STATE_COND, 32)], 3, 100, by decide +kernel⟩⟩

/-- The hypotheses of LaneCommandsComplete can be met, clause by clause. -/
theorem test_met_LaneCommandsComplete :
    (∃ (s : State) (l : Nat), l < 96 ∧ s.writable ∧ s.awake ∧ s.strapped l = false ∧ s.laneSt l ≠ lnOff) ∧
    (∃ (s : State) (l : Nat), l < 96 ∧ s.writable ∧ s.awake ∧ s.strapped l = false ∧ s.laneSt l = lnOff) ∧
    (∃ (s : State) (l : Nat), l < 96 ∧ s.writable ∧ s.awake ∧ s.strapped l = false ∧ s.laneSt l = lnActive) ∧
    (∃ (s : State) (l : Nat), l < 96 ∧ s.writable ∧ s.awake ∧ s.strapped l = false ∧ s.laneSt l = lnActive ∧ s.laneUp l) ∧
    (∃ (s : State) (l : Nat), l < 96 ∧ (s.laneGrp (l / 8)).phase ≠ 1 ∧ s.laneSt l = lnActive ∧ s.laneUp l = false ∧ (s.lane
      l).kept = false) ∧
    (∃ (s : State) (l : Nat), l < 96 ∧ (s.laneGrp (l / 8)).phase = 1 ∧ s.fld (Reg.LANE_GRP_STATUS_LANE (l / 8)) = l % 8) ∧
    (∃ (s : State) (l : Nat), l < 96 ∧ (s.laneGrp (l / 8)).phase = 0 ∧ s.laneUp l) ∧
    (∃ (s : State) (l : Nat) (n : Nat) (bits : List Bool), l < 96 ∧ lnTrickle ≤ s.laneSt l ∧ s.fld (Reg.LANE_STATUS_LOCK l) = 0
      ∧ huntLock (bits.length + 1) 0 (s.lane l).rxScr (bits.map (s.flag (Reg.LANE_CFG_RX_INV l) != ·)) = some n) ∧
    (∃ (s : State) (l : Nat) (n : Nat) (x : Lane) (words : List (BitVec 66)), l < 96 ∧ s.flag (Reg.LANE_STATUS_LOCK l) ∧
      s.laneUp l ∧ (s.lane l).takeWords (words.map (laneWire (s.flag (Reg.LANE_CFG_RX_INV l)))) = (x, n, true)) ∧
    (∃ (s : State) (l : Nat) (n : Nat) (x : Lane) (words : List (BitVec 66)), l < 96 ∧ s.flag (Reg.LANE_STATUS_LOCK l) ∧
      (s.lane l).takeWords (words.map (laneWire (s.flag (Reg.LANE_CFG_RX_INV l)))) = (x, n, false)) ∧
    (∃ (x : Lane) (words : List (BitVec 66)), x.invalid < 16 ∧ (∀ w ∈ words, headerValid w)) ∧
    (∃ (s : State) (l : Nat) (blk : List Byte), l < 96 ∧ s.flag (Reg.LANE_STATUS_LOCK l) ∧ s.laneUp l = false ∧ readControl blk
      = some (.link 1 0)) ∧
    (∃ (s : State) (l : Nat) (blk : List Byte), l < 96 ∧ s.flag (Reg.LANE_STATUS_LOCK l) ∧ readControl blk = none) ∧
    (∃ (s : State) (l : Nat) (blk : List Byte), l < 96 ∧ s.flag (Reg.LANE_STATUS_LOCK l) ∧ s.laneUp l ∧ (s.lane l).req = none ∧
      readControl blk = some (.link 3 0)) ∧
    (∃ (s : State) (l : Nat) (code : Nat) (blk : List Byte), l < 96 ∧ s.flag (Reg.LANE_STATUS_LOCK l) ∧ s.laneUp l ∧ (s.lane
      l).req = none ∧ 1 ≤ code ∧ code < 6 ∧ readControl blk = some (.link 3 code) ∧ (s.strapped l ∨ s.fld
      (Reg.LANE_CFG_RATE l) = code)) ∧
    (∃ (s : State) (l : Nat) (code : Nat) (blk : List Byte), l < 96 ∧ s.flag (Reg.LANE_STATUS_LOCK l) ∧ (s.lane l).req = some
      code ∧ readControl blk = some (.link 4 code)) ∧
    (∃ (s : State) (l : Nat) (code : Nat), l < 96 ∧ (s.lane l).req = some code) ∧
    (∃ (s : State) (l : Nat) (code : Nat) (x : Lane), s.lanes.lanes = [(l, x)] ∧ x.retry = some (s.now, code)) ∧
    (∃ (s : State) (l : Nat) (blk : List Byte), l < 96 ∧ s.flag (Reg.LANE_STATUS_LOCK l) ∧ 2 ≤ s.fld (Reg.LANE_CFG_ROLE l) ∧
      readControl blk = some (.link 2 0)) :=
  ⟨⟨laneS 79 (upF 79 3) { txScr := 5 }, 79, by decide +kernel⟩,
   ⟨laneS 79 [(Reg.LANE_STATUS_STATE 79, 0)] {}, 79, by decide +kernel⟩,
   ⟨laneS 79 (upF 79 3) {}, 79, by decide +kernel⟩,
   ⟨laneS 79 (upF 79 3) {}, 79, by decide +kernel⟩,
   ⟨laneS 95 [(Reg.LANE_STATUS_STATE 95, 3), (Reg.LANE_STATUS_UP 95, 0)] {}, 95, by decide +kernel⟩,
   ⟨(grpS 11 { phase := 1 }).setFld (Reg.LANE_GRP_STATUS_LANE 11) 7, 95, by decide +kernel⟩,
   ⟨laneS 79 (upF 79 3) {}, 79, by decide +kernel⟩,
   ⟨laneS 79 [(Reg.LANE_STATUS_STATE 79, 2), (Reg.LANE_STATUS_LOCK 79, 0)] {}, 79, 0, hunted, by decide +kernel⟩,
   ⟨laneS 79 (upF 79 3) {}, 79, 16, (({} : Lane).takeWords badWords).1, badWords, by decide +kernel⟩,
   ⟨laneS 79 (upF 79 3) {}, 79, 1, (({} : Lane).takeWords [0#66]).1, [0#66], by decide +kernel⟩,
   ⟨{}, [1#66], by decide, fun w h => by cases List.mem_singleton.mp h; decide⟩,
   ⟨laneS 79 [(Reg.LANE_STATUS_STATE 79, 3), (Reg.LANE_STATUS_LOCK 79, 1)] {}, 79, linkPayload 1 0, by decide +kernel⟩,
   ⟨laneS 79 (upF 79 3) {}, 79, [0#8], by decide +kernel⟩,
   ⟨laneS 79 (upF 79 3) {}, 79, linkPayload 3 0, by decide +kernel⟩,
   ⟨laneS 79 ((Reg.LANE_CFG_RATE 79, 5) :: upF 79 3) {}, 79, 5, linkPayload 3 5, by decide +kernel⟩,
   ⟨laneS 79 (upF 79 3) { req := some 0 }, 79, 0, linkPayload 4 0, by decide +kernel⟩,
   ⟨laneS 79 (upF 79 3) { req := some 5 }, 79, 5, by decide +kernel⟩,
   ⟨{ rdy with lanes := { rdy.lanes with lanes := [(79, { retry := some (rdy.now, 5) })] } }, 79, 5,
     { retry := some (rdy.now, 5) }, by decide +kernel⟩,
   ⟨laneS 80 ((Reg.LANE_CFG_ROLE 80, 2) :: upF 80 3) {}, 80, linkPayload 2 0, by decide +kernel⟩⟩

/-- The hypotheses of TakeoverCommandsComplete can be met, clause by clause. -/
theorem test_met_TakeoverCommandsComplete :
    (∃ (s : State) (g : Nat) (l : Nat), g < 12 ∧ s.flag (Reg.LANE_GRP_CTRL_RECAL_EN g) ∧ s.flag (Reg.LANE_GRP_STATUS_SPARE_OK
      g) ∧ s.fld (Reg.LANE_GRP_STATUS_BUSY g) = 0 ∧ s.recalDue g ∧ s.nextServed g = some l) ∧
    (∃ (s : State) (g : Nat) (l : Nat) (eq : Nat) (fom : Nat), g < 12 ∧ (s.laneGrp g).phase = 1 ∧ (s.laneGrp g).adapted = some
      (eq, fom) ∧ l = 8 * g + s.fld (Reg.LANE_GRP_STATUS_LANE g)) ∧
    (∃ (s : State) (g : Nat) (eq : Nat) (fom : Nat), g < 12 ∧ (s.laneGrp g).phase = 1 ∧ (s.laneGrp g).adapted = some (eq, fom)) ∧
    (∃ (s : State) (g : Nat), g < 12 ∧ (s.laneGrp g).phase = 1) ∧
    (∃ (s : State) (g : Nat), g < 12 ∧ (s.laneGrp g).phase = 2) ∧
    (∃ (s : State) (g : Nat), g < 12 ∧ (s.laneGrp g).phase = 2) :=
  ⟨⟨sets rdy ([(Reg.LANE_GRP_CTRL_RECAL_EN 9, 1), (Reg.LANE_GRP_STATUS_SPARE_OK 9, 1)] ++ upF 72 3), 9, 72,
     by decide +kernel⟩,
   ⟨(grpS 11 { phase := 1, adapted := some (3, 250) }).setFld (Reg.LANE_GRP_STATUS_LANE 11) 7, 11, 95, 3, 250,
     by decide +kernel⟩,
   ⟨grpS 11 { phase := 1, adapted := some (3, 250) }, 11, 3, 250, by decide +kernel⟩,
   ⟨grpS 11 { phase := 1 }, 11, by decide +kernel⟩,
   ⟨grpS 11 { phase := 2, old := 9 }, 11, by decide +kernel⟩,
   ⟨grpS 11 { phase := 2, old := 9 }, 11, by decide +kernel⟩⟩

/-- The hypotheses of ChainCommandsComplete can be met, clause by clause. -/
theorem test_met_ChainCommandsComplete :
    (∃ (s : State) (rq : Rq), s.ready rq 0x0700) ∧
    (∃ (s : State) (rq : Rq), s.ready rq 0x0701 ∧ s.chainWidth = 0) ∧
    (∃ (s : State) (rq : Rq), s.ready rq 0x0701 ∧ s.chainWidth ≠ 0) ∧
    (∃ (s : State), s.mayDiscover = false) ∧
    (∃ (s : State), s.mayDiscover ∧ s.laneUp 80 = false ∧ s.laneUp 88 = false) ∧
    (∃ (s : State) (b : List Byte) (p : ChainPkt), s.chainUp true ∧ chainRead b = some p ∧ p.level = s.level ∧ p.type = 0x10 ∧
      leAt p.body 0 1 = s.chainId ∧ ((tokenEntries p.body).headD {}).serial = s.serial) ∧
    (∃ (s : State) (b : List Byte) (p : ChainPkt), s.chainUp false ∧ chainRead b = some p ∧ p.level = s.level ∧ p.type = 0x10 ∧
      leAt p.body 0 1 = s.chainId ∧ ((tokenEntries p.body).headD {}).serial = s.serial) ∧
    (∃ (s : State) (west : Bool) (b : List Byte) (p : ChainPkt), s.chainUp west ∧ chainRead b = some p ∧ p.level = s.level ∧
      p.type = 0x11 ∧ p.src ≠ s.chainId ∧ p.dst = 255 ∧ s.chain.epoch ≤ leAt p.body 8 8 ∧ bitAt (leAt p.body 2 1)
      s.chainId) ∧
    (∃ (s : State) (west : Bool) (b : List Byte) (p : ChainPkt), s.chainUp west ∧ chainRead b = some p ∧ p.level = s.level ∧
      p.type = 0x14 ∧ p.src = s.chain.leader ∧ p.src ≠ s.chainId ∧ p.dst = 255 ∧ leAt p.body 4 4 = 0 ∧ bitAt (leAt p.body
      2 1) 0) ∧
    (∃ (s : State) (u : State) (west : Bool) (n : Nat) (b : List Byte) (p : ChainPkt), s.chainUp west ∧ chainRead b = some p ∧
      p.level = s.level ∧ p.type = 0x01 ∧ p.dst = s.chainId ∧ (p.body.drop 4).length = 16 + (headerOf (p.body.drop
      4)).length ∧ (headerOf (p.body.drop 4)).length ≤ 4080 ∧ ((headerOf (p.body.drop 4)).opcode ≠ 0x0031 ∨ (headerOf
      (p.body.drop 4)).tag ≠ 255) ∧ leAt p.body 0 1 < 16 ∧ (s.chainReturn west).forwardedSession p.src (leAt p.body 0 1) =
      some (n, u) ∧ s.sound true (p.body.drop 4)) ∧
    (∃ (s : State) (west : Bool) (b : List Byte) (p : ChainPkt), s.chainUp west ∧ chainRead b = some p ∧ p.level = s.level ∧
      p.type = 0x01 ∧ p.dst ≠ s.chainId ∧ p.hops ≠ 7 ∧ s.chainUp (!west) ∧ (s.link (!west)).queue = [] ∧ 0 < (s.link
      (!west)).credits) ∧
    (∃ (s : State) (west : Bool) (b : List Byte) (p : ChainPkt) (f : Forwarded), s.chainUp west ∧ chainRead b = some p ∧
      p.level = s.level ∧ p.type = 0x02 ∧ p.dst = s.chainId ∧ s.chain.inFlight = [f] ∧ f.dst = p.src ∧ f.sess = leAt
      p.body 0 1 ∧ f.tag = leAt (p.body.drop 4) 2 1 ∧ f.from_ = none ∧ s.slotOpen f.sess f.tag) ∧
    (∃ (s : State) (west : Bool) (b : List Byte) (p : ChainPkt) (f : Forwarded) (ip : Nat) (port : Nat) (e : Nat) (hop : Nat),
      s.chainUp west ∧ chainRead b = some p ∧ p.level = s.level ∧ p.type = 0x02 ∧ p.dst = s.chainId ∧ s.chain.inFlight =
      [f] ∧ f.dst = p.src ∧ f.sess = leAt p.body 0 1 ∧ f.tag = leAt (p.body.drop 4) 2 1 ∧ f.from_ = some (ip, port) ∧
      s.ethRoute ip = some (e, hop)) ∧
    (∃ (s : State) (west : Bool) (b : List Byte) (p : ChainPkt), s.chainUp west ∧ chainRead b = some p ∧ p.level = s.level ∧
      p.type = 0x20 ∧ (s.link west).queue = []) ∧
    (∃ (s : State) (west : Bool), s.chainWidth ≠ 0 ∧ s.chainUp west = false) ∧
    (∃ (s : State), s.st = stBooting ∧ s.fld Reg.PLAT_BOOT_STEP = 7 ∧ s.chainWidth ≠ 0 ∧ s.chain.discovered ∧ s.chainReady) :=
  ⟨⟨rdy, q0, by decide +kernel⟩,
   ⟨rdy, q0, by decide +kernel⟩,
   ⟨linkedS 0 0, q0, by decide +kernel⟩,
   ⟨rdy, by decide +kernel⟩,
   ⟨{ linkedS 0 0 with now := 350000000 }, by decide +kernel⟩,
   ⟨linkedS 1 0, cpk 0x10 2 255 tokenB, pktOf (cpk 0x10 2 255 tokenB), by decide +kernel⟩,
   ⟨linkedS 0 1, cpk 0x10 2 255 tokenB, pktOf (cpk 0x10 2 255 tokenB), by decide +kernel⟩,
   ⟨linkedS 0 1, false, cpk 0x11 5 255 leaderB, pktOf (cpk 0x11 5 255 leaderB), by decide +kernel⟩,
   ⟨{ linkedS 0 1 with chain := { (linkedS 0 1).chain with leader := 5 } }, false, cpk 0x14 5 255 recordB, pktOf (cpk 0x14 5
     255 recordB), by decide +kernel⟩,
   ⟨linkedS 0 1, ((linkedS 0 1).chainReturn false).openSession 4 (.forwarded 5 3), false, 4, cpk 1 5 2 cmdB, pktOf (cpk 1 5 2
     cmdB), by decide +kernel⟩,
   ⟨linkedS 1 1, false, cpk 1 5 3 cmdB, pktOf (cpk 1 5 3 cmdB), by decide +kernel⟩,
   ⟨flightS ⟨5, 4, 9, none⟩, false, cpk 2 5 2 (4#8 :: replyB.drop 1), pktOf (cpk 2 5 2 (4#8 :: replyB.drop 1)), ⟨5, 4, 9,
     none⟩, by decide +kernel⟩,
   ⟨ethNet (flightS ⟨5, 3, 9, some (host1, 5000)⟩), false, cpk 2 5 2 replyB, pktOf (cpk 2 5 2 replyB), ⟨5, 3, 9, some (host1,
     5000)⟩, host1, 5000, 0, host1, by decide +kernel⟩,
   ⟨linkedS 0 1, false, cpk 0x20 5 255 (16#8 :: bytes0 15), pktOf (cpk 0x20 5 255 (16#8 :: bytes0 15)), by decide +kernel⟩,
   ⟨linkedS 0 1, true, by decide +kernel⟩,
   
     ⟨{ (sets State.reset [(Reg.PLAT_STRAPS_WIDTH, 1), (Reg.PLAT_BOOT_STEP, 7)]) with chain := { State.reset.chain with discovered := true } },
     by decide +kernel⟩⟩

/-- The hypotheses of RingCommandsOfChainComplete can be met, clause by clause. -/
theorem test_met_RingCommandsOfChainComplete :
    (∃ (s : State), s.chainWidth ≠ 0 ∧ s.chain.leader = s.chainId ∧ bitAt s.chain.mask s.chainId ∧ s.chainUp true = false ∧
      s.chainUp false ∧ (s.link false).queue = [] ∧ 2 ≤ (s.link false).credits) ∧
    (∃ (s : State) (west : Bool) (b : List Byte) (p : ChainPkt), s.chainUp west ∧ chainRead b = some p ∧ p.level = s.level ∧
      p.type = 0x12 ∧ p.src ≠ s.chainId ∧ seqNew s.chain.timeSeen (leAt p.body 20 2) ∧ s.chain.timeJoined = false) ∧
    (∃ (s : State) (west : Bool) (b : List Byte) (r : List Byte) (p : ChainPkt), s.chainUp west ∧ chainRead b = some p ∧
      p.level = s.level ∧ p.type = 0x30 ∧ (s.link west).queue = [] ∧ 3 ≤ (s.link west).credits ∧ r = chainPacket 0x31 (b2n
      west) s.chainId 255 0 6 s.level (nsStamp s.devNs ++ List.replicate 6 0#8)) ∧
    (∃ (s : State) (west : Bool) (b : List Byte) (p : ChainPkt), s.chainUp west ∧ chainRead b = some p ∧ p.level = s.level ∧
      p.type = 0x31 ∧ (s.link west).respStamps = none) ∧
    (∃ (s : State) (west : Bool) (b : List Byte) (p : ChainPkt) (t2 : Int) (t4 : Int), s.chainUp west ∧ chainRead b = some p ∧
      p.level = s.level ∧ p.type = 0x31 ∧ (s.link west).respStamps = some (t2, t4)) ∧
    (∃ (s : State), s.chainWidth ≠ 0 ∧ s.masterEnc.isSome ∧ s.chainUp true = false ∧ s.chainUp false ∧ (s.link false).queue =
      [] ∧ 2 ≤ (s.link false).credits) ∧
    (∃ (s : State) (west : Bool) (b : List Byte) (p : ChainPkt), s.chainUp west ∧ chainRead b = some p ∧ p.level = s.level ∧
      p.type = 0x13 ∧ p.src ≠ s.chainId ∧ seqNew s.chain.posSeen (leAt p.body 14 2) ∧ s.posFromRing) ∧
    (∃ (s : State), s.chain.posLive) :=
  ⟨⟨{ linkedS 0 1 with chain := { (linkedS 0 1).chain with leader := 2, mask := 4 } }, by decide +kernel⟩,
   ⟨linkedS 0 1, false, cpk 0x12 5 255 (leBytes 6 3 ++ leBytes 4 7 ++ leBytes 2 9 ++ leBytes 8 5 ++ leBytes 2 1 ++ bytes0
     10), pktOf (cpk 0x12 5 255 (leBytes 6 3 ++ leBytes 4 7 ++ leBytes 2 9 ++ leBytes 8 5 ++ leBytes 2 1 ++ bytes0 10)),
     by decide +kernel⟩,
   ⟨linkedS 0 1, false, cpk 0x30 5 255 (bytes0 16), chainPacket 0x31 (b2n false) (linkedS 0 1).chainId 255 0 6 (linkedS 0
     1).level (nsStamp (linkedS 0 1).devNs ++ List.replicate 6 0#8), pktOf (cpk 0x30 5 255 (bytes0 16)),
     by decide +kernel⟩,
   ⟨linkedS 0 1, false, cpk 0x31 5 255 (leBytes 6 0 ++ leBytes 4 7 ++ bytes0 6), pktOf (cpk 0x31 5 255 (leBytes 6 0 ++
     leBytes 4 7 ++ bytes0 6)), by decide +kernel⟩,
   ⟨(linkedS 0 1).setLink false { (linkedS 0 1).link false with respStamps := some (3, 8), reqStamp := 1 }, false, cpk 0x31 5
     255 (leBytes 6 0 ++ leBytes 4 7 ++ bytes0 6), pktOf (cpk 0x31 5 255 (leBytes 6 0 ++ leBytes 4 7 ++ bytes0 6)), 3, 8,
     by decide +kernel⟩,
   ⟨(linkedS 0 1).setFld (Reg.POS_CTRL_MASTER 7) 1, by decide +kernel⟩,
   ⟨linkedS 0 1, false, cpk 0x13 5 255 (leBytes 8 (2 ^ 64 - 5) ++ leBytes 4 100 ++ bytesOf [1, 0] ++ leBytes 2 65535 ++
     bytes0 16), pktOf (cpk 0x13 5 255 (leBytes 8 (2 ^ 64 - 5) ++ leBytes 4 100 ++ bytesOf [1, 0] ++ leBytes 2 65535 ++
     bytes0 16)), by decide +kernel⟩,
   ⟨{ rdy with chain := { rdy.chain with posLive := true, pos := 50, posSpeed := 4 } }, by decide +kernel⟩⟩

/-- The hypotheses of PortCommandsComplete can be met, clause by clause. -/
theorem test_met_PortCommandsComplete :
    (∃ (v : Nat), v < 256) ∧
    (∃ (s : State) (p : Nat) (f : EthFrame), p < 2 ∧ s.ethOn p ∧ f.fcsOk = false) ∧
    (∃ (s : State) (p : Nat) (f : EthFrame), p < 2 ∧ s.ethOn p ∧ f.fcsOk ∧ s.ethAccepts p f = false) ∧
    (∃ (s : State) (p : Nat) (f : EthFrame), p < 2 ∧ s.ethOn p ∧ f.fcsOk ∧ s.ethAccepts p f ∧ f.fits ∧ f.etherType = 0x0806 ∧
      s.fld (Reg.ETH_IP_IP p) ≠ 0 ∧ f.dstIp = s.fld (Reg.ETH_IP_IP p)) ∧
    (∃ (s : State) (p : Nat) (hop : Nat) (f : EthFrame), p < 2 ∧ s.ethOn p ∧ f.fcsOk ∧ s.ethAccepts p f ∧ f.fits ∧ f.etherType
      = 0x0800 ∧ f.fragment = false ∧ s.fld (Reg.ETH_IP_IP p) ≠ 0 ∧ f.dstIp = s.fld (Reg.ETH_IP_IP p) ∧ f.proto = 1 ∧ leAt
      f.payload 0 1 = 8 ∧ s.ethHop p f.srcIp = some hop) ∧
    (∃ (s : State) (p : Nat) (f : EthFrame), p < 2 ∧ s.ethOn p ∧ f.fcsOk ∧ s.ethAccepts p f ∧ f.fits ∧ f.etherType = 0x0800 ∧
      f.fragment) ∧
    (∃ (p : Nat), p < 2) :=
  ⟨⟨255, by decide +kernel⟩,
   ⟨ethS, 0, { arp with fcsOk := false }, by decide +kernel⟩,
   ⟨ethS, 0, { arp with dstMac := 5 }, by decide +kernel⟩,
   ⟨ethS, 0, arp, by decide +kernel⟩,
   ⟨ethS, 0, host1, { ipf with proto := 1, payload := [8#8] }, by decide +kernel⟩,
   ⟨ethS, 0, { ipf with fragment := true }, by decide +kernel⟩,
   ⟨1, by decide +kernel⟩⟩

/-- The hypotheses of DatagramIsCommandPacket can be met. -/
theorem test_met_DatagramIsCommandPacket :
    ∃ (s : State) (p : Nat) (f : EthFrame), p < 2 ∧ s.ethOn p ∧ f.fcsOk ∧ s.ethAccepts p f ∧ f.fits ∧ f.etherType = 0x0800 ∧
      f.fragment = false ∧ s.fld (Reg.ETH_IP_IP p) ≠ 0 ∧ f.dstIp = s.fld (Reg.ETH_IP_IP p) ∧ f.proto = 17 ∧ f.dstPort =
      s.fld (Reg.ETH_MAC_HI_UDP_PORT p) :=
  ⟨ethS, 0, { ipf with proto := 17, dstPort := ethS.fld (Reg.ETH_MAC_HI_UDP_PORT 0), payload := [1#8] }, by decide +kernel⟩

/-- The hypotheses of ChunksAreStaged, clause 1, can be met for every opcode it names. -/
theorem test_met_ChunksAreStaged_1 :
    ∀ op ∈ [0x0121, 0x0122, 0x0123, 0x0124, 0x0125, 0x0126, 0x0202, 0x0203, 0x0204, 0x0205, 0x0206, 0x0304, 0x0500, 0x0600],
      rdy.ready q0 op ∧ rdy.chunkGoesOn op 1 ⟨0, 0, 0, 8, bytes0 4⟩ ∧ rdy.bankInUse 0 = false ∧
      rdy.flag (Reg.RSMP_STATUS_SWAP_PEND 0) = false ∧ rdy.switching = false ∧
      rdy.tabBusy (256 * (op - 0x0200)) = false := by decide +kernel

end Sys2Proof.Machine.Tests
end

/-! SUPPORT. What one step does: a command in front, or a tick, and what either leaves of the queue, the memory and the
time. -/
namespace Sys2Proof.Machine

/-! The queue under a command and a step. -/

/-- The command answers a next state, with the queue as it was and device memory in its canonical form. -/
def State.KeptBy (s : State) (r : Result) : Prop := ∃ t, r = .next t ∧ s.Kept t

theorem State.KeptBy.of_core {s : State} {r : Result} (h : ∃ t, r = .next t ∧ t.core = s.core) : s.KeptBy r :=
  let ⟨t, e, k⟩ := h
  ⟨t, e, .of_core k⟩

/-- Every command answers a next state and leaves the queue alone: no meaning ends in a fault or a refusal. -/
theorem exec_kept (c : Instr) (s : State) : s.KeptBy (exec c s) :=
  match c with
  | .deviceReset .. => execDeviceReset_kept ..
  | .supplyShutdown .. => execSupplyShutdown_kept ..
  | .supplyRestart .. => execSupplyRestart_kept ..
  | .reverseBlock => .of_core (execReverseBlock_core ..)
  | .phaseDisable .. => .of_core (execPhaseDisable_core ..)
  | .zoneFault .. => .of_core (execZoneFault_core ..)
  | .commandPacket .. => .of_core (execCommandPacket_core ..)
  | .dbCmd .. => .of_core (execDbCmd_core ..)
  | .dbRpl .. => .of_core (execDbRpl_core ..)
  | .dbFetch .. => .of_core (execDbFetch_core ..)
  | .replyRingStallTimeout .. => .of_core (execReplyRingStallTimeout_core ..)
  | .cmdRingEnableWrite .. => .of_core (execCmdRingEnableWrite_core ..)
  | .ethSessionIdleTimeout .. => .of_core (execEthSessionIdleTimeout_core ..)
  | .keyLockoutEnd .. => .of_core (execKeyLockoutEnd_core ..)
  | .barrierEngage => .of_core (execBarrierEngage_core ..)
  | .nop .. => .of_core (execNop_core ..)
  | .getState .. => .of_core (execGetState_core ..)
  | .replyFetch .. => .of_core (execReplyFetch_core ..)
  | .readReg .. => .of_core (execReadReg_core ..)
  | .writeReg .. => .of_core (execWriteReg_core ..)
  | .modifyReg .. => .of_core (execModifyReg_core ..)
  | .lockAcquire .. => .of_core (execLockAcquire_core ..)
  | .lockWaitTimeout .. => .of_core (execLockWaitTimeout_core ..)
  | .lockRelease .. => .of_core (execLockRelease_core ..)
  | .lockHoldExpiry .. => .of_core (execLockHoldExpiry_core ..)
  | .lockHoldLimitWrite .. => .of_core (execLockHoldLimitWrite_core ..)
  | .engineLockRequest .. => .of_core (execEngineLockRequest_core ..)
  | .sessionOpen .. => .of_core (execSessionOpen_core ..)
  | .sessionClose .. => .of_core (execSessionClose_core ..)
  | .keySet .. => .of_core (execKeySet_core ..)
  | .configLoad .. => .of_core (execConfigLoad_core ..)
  | .configCheck .. => .of_core (execConfigCheck_core ..)
  | .serviceEnter .. => .of_core (execServiceEnter_core ..)
  | .serviceExit .. => .of_core (execServiceExit_core ..)
  | .sleep .. => .of_core (execSleep_core ..)
  | .sleepEntryComplete => .of_core (execSleepEntryComplete_core ..)
  | .wake .. => .of_core (execWake_core ..)
  | .wakePin => .of_core (execWakePin_core ..)
  | .wakeComplete .. => .of_core (execWakeComplete_core ..)
  | .jobOpen .. => .of_core (execJobOpen_core ..)
  | .pageSubmit .. => .of_core (execPageSubmit_core ..)
  | .pageSubmitStart => .of_core (execPageSubmitStart_core ..)
  | .pageRepeat .. => .of_core (execPageRepeat_core ..)
  | .jobClose .. => execJobClose_kept ..
  | .arm .. => execArm_kept ..
  | .start .. => execStart_kept ..
  | .pause .. => .of_core (execPause_core ..)
  | .resume .. => execResume_kept ..
  | .stop .. => execStop_kept ..
  | .barDelaySet .. => .of_core (execBarDelaySet_core ..)
  | .nozzleMapLoad .. => .of_core (execNozzleMapLoad_core ..)
  | .thresholdLoad .. => .of_core (execThresholdLoad_core ..)
  | .substituteSet .. => .of_core (execSubstituteSet_core ..)
  | .toneCurveLoad .. => .of_core (execToneCurveLoad_core ..)
  | .gainLoad .. => .of_core (execGainLoad_core ..)
  | .boardProfileLoad .. => .of_core (execBoardProfileLoad_core ..)
  | .gateTest .. => .of_core (execGateTest_core ..)
  | .gateShot .. => .of_core (execGateShot_core ..)
  | .cameraSet .. => .of_core (execCameraSet_core ..)
  | .cameraSetTransfer .. => .of_core (execCameraSetTransfer_core ..)
  | .sensorTransferEnd .. => .of_core (execSensorTransferEnd_core ..)
  | .sensorXfer .. => .of_core (execSensorXfer_core ..)
  | .colourModelLoad .. => .of_core (execColourModelLoad_core ..)
  | .coverageLoad .. => .of_core (execCoverageLoad_core ..)
  | .blurLoad .. => .of_core (execBlurLoad_core ..)
  | .resampleCoefLoad .. => .of_core (execResampleCoefLoad_core ..)
  | .classSet .. => .of_core (execClassSet_core ..)
  | .recordRingSet .. => .of_core (execRecordRingSet_core ..)
  | .nozzleStateSet .. => .of_core (execNozzleStateSet_core ..)
  | .nozzleStateRead .. => .of_core (execNozzleStateRead_core ..)
  | .axisMove .. => .of_core (execAxisMove_core ..)
  | .axisStop .. => .of_core (execAxisStop_core ..)
  | .axisHome .. => .of_core (execAxisHome_core ..)
  | .axisProfileSet .. => .of_core (execAxisProfileSet_core ..)
  | .microstepLoad .. => .of_core (execMicrostepLoad_core ..)
  | .posReference .. => .of_core (execPosReference_core ..)
  | .axisStatus .. => .of_core (execAxisStatus_core ..)
  | .timeRead .. => .of_core (execTimeRead_core ..)
  | .timeAdjust .. => .of_core (execTimeAdjust_core ..)
  | .domainSelect .. => .of_core (execDomainSelect_core ..)
  | .eventFire .. => .of_core (execEventFire_core ..)
  | .fwStage .. => .of_core (execFwStage_core ..)
  | .fwSwitch .. => .of_core (execFwSwitch_core ..)
  | .fwHandover => .of_core (execFwHandover_core ..)
  | .fwFallbackEnd => .of_core (execFwFallbackEnd_core ..)
  | .kernelRotationStep => .of_core (execKernelRotationStep_core ..)
  | .spareStatus .. => .of_core (execSpareStatus_core ..)
  | .calRun .. => .of_core (execCalRun_core ..)
  | .darkCalDone .. => .of_core (execDarkCalDone_core ..)
  | .paperCalDone .. => .of_core (execPaperCalDone_core ..)
  | .calRead .. => .of_core (execCalRead_core ..)
  | .calStorePeriodic => .of_core (execCalStorePeriodic_core ..)
  | .faultLogRead .. => .of_core (execFaultLogRead_core ..)
  | .faultLogCopy => .of_core (execFaultLogCopy_core ..)
  | .monBinsLoad .. => .of_core (execMonBinsLoad_core ..)
  | .monSnapshot .. => .of_core (execMonSnapshot_core ..)
  | .chainStatus .. => .of_core (execChainStatus_core ..)
  | .chainRescan .. => .of_core (execChainRescan_core ..)
  | .bar0Write .. => .of_core (execBar0Write_core ..)
  | .readClear .. => .of_core (execReadClear_core ..)
  | .loLatchRead .. => .of_core (execLoLatchRead_core ..)
  | .arbiterGrant .. => .of_core (execArbiterGrant_core ..)
  | .arbiterStuck .. => .of_core (execArbiterStuck_core ..)
  | .arbFairnessWrite .. => .of_core (execArbFairnessWrite_core ..)
  | .paceInterval .. => .of_core (execPaceInterval_core ..)
  | .fitReturn => .of_core (execFitReturn_core ..)
  | .tjOver .. => .of_core (execTjOver_core ..)
  | .vcoreLow => .of_core (execVcoreLow_core ..)
  | .paceModeWrite .. => .of_core (execPaceModeWrite_core ..)
  | .paceVcapWrite .. => .of_core (execPaceVcapWrite_core ..)
  | .dmaRun .. => .of_core (execDmaRun_core ..)
  | .dmaAbort .. => .of_core (execDmaAbort_core ..)
  | .dmaDescriptorFetch .. => .of_core (execDmaDescriptorFetch_core ..)
  | .dmaDescriptorComplete .. => execDmaDescriptorComplete_kept ..
  | .pcieCompletionError .. => .of_core (execPcieCompletionError_core ..)
  | .pcieCompletionTimeout .. => .of_core (execPcieCompletionTimeout_core ..)
  | .dmaBusHaltClear => .of_core (execDmaBusHaltClear_core ..)
  | .kpsJobHeader .. => .of_core (execKpsJobHeader_core ..)
  | .kpsPageHeader .. => .of_core (execKpsPageHeader_core ..)
  | .kpsBlock .. => execKpsBlock_kept ..
  | .kpsTrailer .. => .of_core (execKpsTrailer_core ..)
  | .segmentAssign => execSegmentAssign_kept ..
  | .segmentSwitch .. => execSegmentSwitch_kept ..
  | .segmentComplete .. => .of_core (execSegmentComplete_core ..)
  | .dcmpEnableWrite .. => .of_core (execDcmpEnableWrite_core ..)
  | .compressStreamStart .. => .of_core (execCompressStreamStart_core ..)
  | .compressStreamEnd .. => execCompressStreamEnd_kept ..
  | .sliceExpand .. => .of_core (execSliceExpand_core ..)
  | .frameAssemble .. => execFrameAssemble_kept ..
  | .doseSwapRequest .. => .of_core (execDoseSwapRequest_core ..)
  | .doseSwap .. => .of_core (execDoseSwap_core ..)
  | .lineTransmit .. => .of_core (execLineTransmit_core ..)
  | .decisionPoint .. => execDecisionPoint_kept ..
  | .fireStrobe .. => execFireStrobe_kept ..
  | .strobeFall .. => .of_core (execStrobeFall_core ..)
  | .strobeWatchdog .. => .of_core (execStrobeWatchdog_core ..)
  | .echo .. => execEcho_kept ..
  | .echoTimeout .. => execEchoTimeout_kept ..
  | .credit .. => .of_core (execCredit_core ..)
  | .helloReply .. => .of_core (execHelloReply_core ..)
  | .helloRepeat .. => .of_core (execHelloRepeat_core ..)
  | .boardEnableWrite .. => .of_core (execBoardEnableWrite_core ..)
  | .fireClear .. => .of_core (execFireClear_core ..)
  | .yoyoInterval => .of_core (execYoyoInterval_core ..)
  | .energyCapExpiry => .of_core (execEnergyCapExpiry_core ..)
  | .spdrqWord => .of_core (execSpdrqWord_core ..)
  | .fireTos .. => .of_core (execFireTos_core ..)
  | .cameraTrigger .. => .of_core (execCameraTrigger_core ..)
  | .frameOpen .. => .of_core (execFrameOpen_core ..)
  | .frameClose .. => .of_core (execFrameClose_core ..)
  | .cameraPortLine .. => .of_core (execCameraPortLine_core ..)
  | .capEnableWrite .. => .of_core (execCapEnableWrite_core ..)
  | .stripeProcess .. => .of_core (execStripeProcess_core ..)
  | .gainSetCompute .. => .of_core (execGainSetCompute_core ..)
  | .kalPdatWrite .. => .of_core (execKalPdatWrite_core ..)
  | .kalApply .. => .of_core (execKalApply_core ..)
  | .resampleLine .. => .of_core (execResampleLine_core ..)
  | .rsmpPdatWrite .. => .of_core (execRsmpPdatWrite_core ..)
  | .rsmpApply .. => .of_core (execRsmpApply_core ..)
  | .rsmpSwap .. => .of_core (execRsmpSwap_core ..)
  | .gridLineCompare => .of_core (execGridLineCompare_core ..)
  | .frameStatistics .. => execFrameStatistics_kept ..
  | .recordDeliver .. => .of_core (execRecordDeliver_core ..)
  | .consumerIndexPoll .. => .of_core (execConsumerIndexPoll_core ..)
  | .recordRingFullTimeout .. => .of_core (execRecordRingFullTimeout_core ..)
  | .findingApply => .of_core (execFindingApply_core ..)
  | .loopSwapStage .. => .of_core (execLoopSwapStage_core ..)
  | .loopLate .. => .of_core (execLoopLate_core ..)
  | .loopEnWrite .. => .of_core (execLoopEnWrite_core ..)
  | .modLimitWrite .. => .of_core (execModLimitWrite_core ..)
  | .quadStep .. => .of_core (execQuadStep_core ..)
  | .quadDoubleStep .. => .of_core (execQuadDoubleStep_core ..)
  | .indexEdge .. => .of_core (execIndexEdge_core ..)
  | .stillTimeout .. => .of_core (execStillTimeout_core ..)
  | .ssiRead .. => .of_core (execSsiRead_core ..)
  | .axisUpdate .. => .of_core (execAxisUpdate_core ..)
  | .axisHoldCurrent .. => .of_core (execAxisHoldCurrent_core ..)
  | .followStep .. => .of_core (execFollowStep_core ..)
  | .followWrite .. => .of_core (execFollowWrite_core ..)
  | .switchAccept .. => .of_core (execSwitchAccept_core ..)
  | .axisStageFault .. => .of_core (execAxisStageFault_core ..)
  | .axisEnableWrite .. => .of_core (execAxisEnableWrite_core ..)
  | .domainPps .. => execDomainPps_kept ..
  | .alarmArm .. => .of_core (execAlarmArm_core ..)
  | .alarmFire .. => execAlarmFire_kept ..
  | .periodic .. => execPeriodic_kept ..
  | .sourceAbsent => .of_core (execSourceAbsent_core ..)
  | .ptpMessage .. => .of_core (execPtpMessage_core ..)
  | .ethFrameReceive .. => .of_core (execEthFrameReceive_core ..)
  | .eventRaise .. => .of_core (execEventRaise_core ..)
  | .pinEdge .. => .of_core (execPinEdge_core ..)
  | .pinPulse .. => .of_core (execPinPulse_core ..)
  | .tscapCapture .. => .of_core (execTscapCapture_core ..)
  | .tscapRelease .. => .of_core (execTscapRelease_core ..)
  | .wakeEvent => .of_core (execWakeEvent_core ..)
  | .axisEstop .. => .of_core (execAxisEstop_core ..)
  | .printPause => .of_core (execPrintPause_core ..)
  | .printStop => execPrintStop_kept ..
  | .monSnapshotEvent => .of_core (execMonSnapshotEvent_core ..)
  | .monRestart => .of_core (execMonRestart_core ..)
  | .detRefresh .. => .of_core (execDetRefresh_core ..)
  | .bankRefresh .. => .of_core (execBankRefresh_core ..)
  | .selfRefreshEntry .. => .of_core (execSelfRefreshEntry_core ..)
  | .impedanceCal .. => .of_core (execImpedanceCal_core ..)
  | .retraining .. => .of_core (execRetraining_core ..)
  | .memoryAccess .. => execMemoryAccess_kept ..
  | .throttleRelease .. => .of_core (execThrottleRelease_core ..)
  | .scrubRead => .of_core (execScrubRead_core ..)
  | .stackEmergency .. => .of_core (execStackEmergency_core ..)
  | .memDetWrite .. => .of_core (execMemDetWrite_core ..)
  | .memInject .. => .of_core (execMemInject_core ..)
  | .chkFeed .. => .of_core (execChkFeed_core ..)
  | .chkCheck .. => .of_core (execChkCheck_core ..)
  | .chkReset .. => .of_core (execChkReset_core ..)
  | .chkDataWrite .. => .of_core (execChkDataWrite_core ..)
  | .chkDataRead .. => .of_core (execChkDataRead_core ..)
  | .laneTargetWrite .. => .of_core (execLaneTargetWrite_core ..)
  | .eqAdapt .. => .of_core (execEqAdapt_core ..)
  | .laneLock .. => .of_core (execLaneLock_core ..)
  | .laneLockLoss .. => .of_core (execLaneLockLoss_core ..)
  | .linkReady .. => .of_core (execLinkReady_core ..)
  | .linkRateReq .. => .of_core (execLinkRateReq_core ..)
  | .linkRateAck .. => .of_core (execLinkRateAck_core ..)
  | .rateReqTimeout .. => .of_core (execRateReqTimeout_core ..)
  | .linkAlign .. => .of_core (execLinkAlign_core ..)
  | .takeoverStart .. => .of_core (execTakeoverStart_core ..)
  | .takeoverSwitch .. => .of_core (execTakeoverSwitch_core ..)
  | .takeoverTimeout .. => .of_core (execTakeoverTimeout_core ..)
  | .takeoverRecalDone .. => .of_core (execTakeoverRecalDone_core ..)
  | .pcieReset .. => .of_core (execPcieReset_core ..)
  | .msixUnmask .. => .of_core (execMsixUnmask_core ..)
  | .chainDiscovery => .of_core (execChainDiscovery_core ..)
  | .token .. => .of_core (execToken_core ..)
  | .leader .. => .of_core (execLeader_core ..)
  | .ringTimeSend => .of_core (execRingTimeSend_core ..)
  | .time .. => .of_core (execTime_core ..)
  | .delayReq .. => .of_core (execDelayReq_core ..)
  | .delayResp .. => .of_core (execDelayResp_core ..)
  | .positionSend => .of_core (execPositionSend_core ..)
  | .position .. => .of_core (execPosition_core ..)
  | .positionTimeout => .of_core (execPositionTimeout_core ..)
  | .config .. => .of_core (execConfig_core ..)
  | .chainStandbyEntry => .of_core (execChainStandbyEntry_core ..)
  | .cmd .. => .of_core (execCmd_core ..)
  | .reply .. => .of_core (execReply_core ..)
  | .chainCredit .. => .of_core (execChainCredit_core ..)
  | .chainLinkLoss .. => .of_core (execChainLinkLoss_core ..)
  | .engineDoze .. => .of_core (execEngineDoze_core ..)
  | .engineUndoze .. => .of_core (execEngineUndoze_core ..)
  | .spareTakeover .. => .of_core (execSpareTakeover_core ..)
  | .supervisorTakeover .. => .of_core (execSupervisorTakeover_core ..)
  | .monitorSample .. => .of_core (execMonitorSample_core ..)
  | .monitorWindowEnd .. => .of_core (execMonitorWindowEnd_core ..)
  | .monitorConfigWrite .. => .of_core (execMonitorConfigWrite_core ..)
  | .stackEmergencyEnd .. => .of_core (execStackEmergencyEnd_core ..)
  | .tjOverEnd .. => .of_core (execTjOverEnd_core ..)
  | .residualSlewEnd => execResidualSlewEnd_kept ..
  | .inactiveSourceAbsent => .of_core (execInactiveSourceAbsent_core ..)
  | .announceReceiptTimeout .. => .of_core (execAnnounceReceiptTimeout_core ..)
  | .ethLinkChange .. => .of_core (execEthLinkChange_core ..)
  | .perstRelease .. => .of_core (execPerstRelease_core ..)
  | .interruptCoalesce .. => .of_core (execInterruptCoalesce_core ..)
  | .faultedPairTestDone .. => .of_core (execFaultedPairTestDone_core ..)
  | .switchRawEdge .. => .of_core (execSwitchRawEdge_core ..)
  | .engineLockRelease .. => .of_core (execEngineLockRelease_core ..)
  | .mgmtPortAccess .. => .of_core (execMgmtPortAccess_core ..)

theorem step_of_pending_nil {s : State} (h : s.pending = []) : step s = .next (tick s) := by
  rw [step, h]

theorem step_of_pending_cons {s : State} {c : Instr} {rest : List Instr} (h : s.pending = c :: rest) :
    step s = exec c { s with pending := rest } := by
  rw [step, h]

/-- A step answers a next state, and the queue is then what stood behind its front. -/
theorem step_next_pending_tail (s : State) : ∃ t, step s = .next t ∧ t.pending = s.pending.tail := by
  cases h : s.pending with
  | nil =>
    obtain ⟨hp, -⟩ := tick_kept s
    exact ⟨tick s, step_of_pending_nil h, hp.trans h⟩
  | cons c rest =>
    obtain ⟨t, e, hp, -⟩ := exec_kept c { s with pending := rest }
    exact ⟨t, (step_of_pending_cons h).trans e, hp⟩

/-! The time under a tick: `tick` counts it once, and none of its parts touches it. -/

/-- What no step of a fold changes, the fold does not change. -/
theorem State.foldl_keeps {α β : Type} (view : State → β) {f : State → α → State}
    (h : ∀ s x, view (f s x) = view s) (l : List α) (s : State) : view (l.foldl f s) = view s :=
  List.foldlRecOn (motive := fun t => view t = view s) l f rfl fun _ ih x _ => (h _ x).trans ih

@[simp] theorem State.endMaint_now (s : State) : s.endMaint.now = s.now := by
  simp [State.endMaint, State.foldl_keeps State.now]

@[simp] theorem State.targetRefresh_now (s : State) (c bank : Nat) : (s.targetRefresh c bank).now = s.now := by
  simp [State.targetRefresh, State.interrupt, State.closeRows]

@[simp] theorem State.targetDue_now (s : State) (e : Nat × Nat × Nat) : (s.targetDue e).now = s.now := by
  rw [State.targetDue]
  split
  · exact State.targetRefresh_now ..
  · rfl

@[simp] theorem State.targetsTick_now (s : State) : s.targetsTick.now = s.now :=
  State.foldl_keeps State.now State.targetDue_now _ _

@[simp] theorem State.writeBackWord_now (s : State) (e : Nat × Option Nat) : (s.writeBackWord e).now = s.now := by
  rw [State.writeBackWord]
  split <;> rfl

@[simp] theorem State.backsTick_now (s : State) : s.backsTick.now = s.now := by
  rw [State.backsTick]
  split
  · rfl
  · exact State.foldl_keeps State.now State.writeBackWord_now _ _

@[simp] theorem State.memTick_now (s : State) : s.memTick.now = s.now := by
  simp [State.memTick]

@[simp] theorem State.laneAsk_now (s : State) (l code : Nat) : (s.laneAsk l code).now = s.now := by
  simp [State.laneAsk, State.linkSend, State.laneSent, State.setLane]

@[simp] theorem State.lanesTick_now (s : State) : s.lanesTick.now = s.now := by
  refine State.foldl_keeps State.now (fun s e => ?_) _ _
  split
  · split
    · exact State.laneAsk_now ..
    · rfl
  · rfl

@[simp] theorem State.pps_now (s : State) (d : Nat) : (s.pps d).now = s.now := by
  simp [State.pps]

@[simp] theorem State.tickDomain_now (s : State) (d : Nat) : (s.tickDomain d).now = s.now := by
  rw [State.tickDomain]
  split <;> simp

@[simp] theorem State.setResid_now (s : State) (r : Int) : (s.setResid r).now = s.now := by
  simp [State.setResid]

@[simp] theorem State.countTick_now (s : State) : s.countTick.now = s.now := by
  simp [State.countTick]

@[simp] theorem State.timeEvent_now (s : State) (bit : Nat) : (s.timeEvent bit).now = s.now := by
  simp [State.timeEvent]

@[simp] theorem State.alarmFired_now (s : State) (d : Nat) : (s.alarmFired d).now = s.now := by
  simp [State.alarmFired, apply_ite State.now]

@[simp] theorem State.periodicTick_now (before : Clock) (s : State) (p : Nat) :
    (s.periodicTick before p).now = s.now := by
  rw [State.periodicTick]
  split
  · exact State.timeEvent_now ..
  · rfl

@[simp] theorem State.timeTick_now (s : State) : s.timeTick.now = s.now :=
  calc s.timeTick.now
    _ = ([0, 1].foldl State.alarmFired s.countTick).now := State.foldl_keeps State.now (State.periodicTick_now _) _ _
    _ = s.countTick.now := State.foldl_keeps State.now State.alarmFired_now _ _
    _ = s.now := State.countTick_now s

@[simp] theorem State.setEnc_now (s : State) (e : Nat) (x : Enc) : (s.setEnc e x).now = s.now := by
  simp [State.setEnc]

@[simp] theorem State.setSpeed_now (s : State) (e : Nat) (v : Int) : (s.setSpeed e v).now = s.now := by
  simp [State.setSpeed]

@[simp] theorem State.speedTick_now (s : State) (e : Nat) : (s.speedTick e).now = s.now := by
  rw [State.speedTick]
  split
  · rfl
  · dsimp only
    split <;> simp

@[simp] theorem State.keepFloor_now (s : State) : s.keepFloor.now = s.now := by
  rw [State.keepFloor]
  split <;> rfl

@[simp] theorem State.setBar_now (s : State) (b : Nat) (x : Bar) : (s.setBar b x).now = s.now := by
  rw [State.setBar]

@[simp] theorem State.lineEvents_now (s : State) (b : Nat) : (s.lineEvents b).now = s.now := by
  simp [State.lineEvents, apply_ite State.now, State.foldl_keeps State.now]

@[simp] theorem State.webMoved_now (s : State) : s.webMoved.now = s.now := by
  rw [State.webMoved]
  extract_lets
  split
  · refine State.foldl_keeps State.now (fun s b => ?_) _ _
    split
    · exact State.lineEvents_now ..
    · rfl
  · rfl

@[simp] theorem State.motionTick_now (s : State) : s.motionTick.now = s.now :=
  calc s.motionTick.now
    _ = ((List.range 8).foldl State.speedTick s).now := by simp [State.motionTick]
    _ = s.now := State.foldl_keeps State.now State.speedTick_now _ _

@[simp] theorem State.runSlot_now (s : State) (b : Bool) : (s.runSlot b).now = s.now := by
  simp [State.runSlot]

@[simp] theorem State.setOldKernels_now (s : State) (old : Bool) : (s.setOldKernels old).now = s.now :=
  State.foldl_keeps State.now (fun s c => by rw [State.setCluster]) _ _

@[simp] theorem State.fallBack_now (s : State) : s.fallBack.now = s.now := by
  rw [State.fallBack]
  split <;> simp

@[simp] theorem State.swapPairs_now (s : State) : s.swapPairs.now = s.now := by
  simp [State.swapPairs]

@[simp] theorem State.testPair_now (s : State) : s.testPair.now = s.now := by
  simp [State.testPair]

@[simp] theorem State.pairOver_now (s : State) : s.pairOver.now = s.now := by
  simp [State.pairOver]

@[simp] theorem State.pairTick_now (s : State) : s.pairTick.now = s.now := by
  rw [State.pairTick]
  split
  · split <;> simp
  · rfl

/-- One tick of the 250 MHz reference passes. -/
@[simp] theorem tick_now (s : State) : (tick s).now = s.now + 1 := by
  simp [tick]

/-! The memory under a tick: only a queued write-back stores in it, and nothing before the write-backs queues one. -/

theorem State.endMaint_backs (s : State) : s.endMaint.dram.backs = s.dram.backs := by
  simp [State.endMaint, State.foldl_keeps State.dram]

theorem State.targetRefresh_backs (s : State) (c bank : Nat) :
    (s.targetRefresh c bank).dram.backs = s.dram.backs := by
  simp [State.targetRefresh, State.interrupt, State.closeRows]

theorem State.targetDue_backs (s : State) (e : Nat × Nat × Nat) : (s.targetDue e).dram.backs = s.dram.backs := by
  rw [State.targetDue]
  split
  · exact State.targetRefresh_backs ..
  · rfl

theorem State.targetsTick_backs (s : State) : s.targetsTick.dram.backs = s.dram.backs :=
  State.foldl_keeps (·.dram.backs) State.targetDue_backs _ _

theorem State.backsTick_of_no_backs {s : State} (h : s.dram.backs = []) : s.backsTick = s := by
  rw [State.backsTick, h]
  rfl

theorem State.memTick_core_of_no_backs {s : State} (h : s.dram.backs = []) : s.memTick.core = s.core := by
  have hb : s.endMaint.targetsTick.dram.backs = [] := by
    rw [State.targetsTick_backs, State.endMaint_backs, h]
  rw [State.memTick, State.backsTick_of_no_backs hb, State.targetsTick_core, State.endMaint_core]

/-- With no write-back queued a tick leaves device memory alone. -/
theorem tick_mem_of_no_backs {s : State} (h : s.dram.backs = []) : (tick s).mem = s.mem := by
  have hc : (tick s).core = State.core { s with now := s.now + 1 } := by
    rw [tick, State.pairTick_core, State.motionTick_core, State.timeTick_core, State.lanesTick_core,
      State.memTick_core_of_no_backs (s := { s with now := s.now + 1 }) h]
  exact State.mem_of_core hc

/-! The obligations. -/

/-- Settles O1: a step takes the command off the front of the queue and runs it. -/
theorem stepRunsFront : Obligations.StepRunsFront :=
  fun _ _ => step_of_pending_cons rfl

/-- Settles O2, by what every command and the tick keep of the queue, and the parts of the tick one by one. -/
theorem everyStepAnswers : Obligations.EveryStepAnswers :=
  ⟨step_next_pending_tail, fun s h => ⟨tick s, step_of_pending_nil h, rfl, tick_now s, tick_mem_of_no_backs⟩⟩

end Sys2Proof.Machine

/-! SUPPORT. The write of one field by command (R102): the word it leaves and what it does beside, register by register. -/
namespace Sys2Proof.Machine

/-! Words. -/

theorem setBitsOf_bitsOf {n hi lo : Nat} (h : lo ≤ hi) : setBitsOf n hi lo (bitsOf n hi lo) = n := by
  have hp : 2 ^ (hi + 1) = 2 ^ lo * 2 ^ (hi + 1 - lo) := by rw [← pow_add]; congr 1; omega
  have hd : n / 2 ^ (hi + 1) = n / 2 ^ lo / 2 ^ (hi + 1 - lo) := by rw [hp, Nat.div_div_eq_div_mul]
  rw [setBitsOf, bitsOf, Nat.mod_mod, hd, hp]
  calc _ = 2 ^ lo * (2 ^ (hi + 1 - lo) * (n / 2 ^ lo / 2 ^ (hi + 1 - lo)) + n / 2 ^ lo % 2 ^ (hi + 1 - lo)) +
        n % 2 ^ lo := by ring
    _ = n := by rw [Nat.div_add_mod, Nat.div_add_mod]

theorem wordBits_lt (w : Word) (hi lo : Nat) : wordBits w hi lo < 2 ^ (hi + 1 - lo) := bitsOf_lt ..

/-- A field replaced by what it holds. -/
theorem setWordBits_wordBits {w : Word} {hi lo : Nat} (h : lo ≤ hi) : setWordBits w hi lo (wordBits w hi lo) = w := by
  rw [setWordBits, wordBits, setBitsOf_bitsOf h, BitVec.ofNat_toNat, BitVec.setWidth_eq]

/-! Fields. -/

/-- `fits` of both and `apart`, decided. -/
def Fld.clearOf (f g : Fld) : Bool :=
  decide ((f.lo ≤ f.hi ∧ f.hi < 32) ∧ (g.lo ≤ g.hi ∧ g.hi < 32) ∧ (g.addr ≠ f.addr ∨ g.hi < f.lo ∨ f.hi < g.lo))

theorem State.fld_setFld_clear {s : State} {f g : Fld} {v : Nat} (h : f.clearOf g = true) :
    (s.setFld f v).fld g = s.fld g :=
  let ⟨hf, hg, ha⟩ := of_decide_eq_true h
  State.fld_setFld_other hf hg ha

/-! The word that a write of one field leaves (R102, R103). -/

theorem wordBits_and (a b : Word) (hi lo : Nat) : wordBits (a &&& b) hi lo = wordBits a hi lo &&& wordBits b hi lo := by
  apply Nat.eq_of_testBit_eq
  intro i
  simp only [wordBits, bitsOf, BitVec.toNat_and, Nat.testBit_and, Nat.testBit_mod_two_pow, Nat.testBit_div_two_pow]
  cases decide (i < hi + 1 - lo) <;> simp

/-- What `mergeWord` does of one field of the row. -/
def FieldRow.merge (mask value w : Word) (h : FieldRow) : Word :=
  match h.access with
  | .rw => putMasked w mask value h
  | .w1c => putMasked w (mask &&& value) 0#32 h
  | _ => w

theorem mergeWord_eq_foldl (r : RegRow) (old mask value : Word) :
    mergeWord r old mask value = r.fields.foldl (FieldRow.merge mask value) old := (rfl)

theorem putMasked_of_mask_zero {w mask value : Word} {h : FieldRow} (hl : h.lo ≤ h.hi)
    (hm : wordBits mask h.hi h.lo = 0) : putMasked w mask value h = w := by
  simp [putMasked, hm, setWordBits_wordBits hl]

/-- A field that the mask leaves out keeps its bits. -/
theorem FieldRow.merge_of_mask_zero {w mask value : Word} {h : FieldRow} (hl : h.lo ≤ h.hi)
    (hm : wordBits mask h.hi h.lo = 0) : h.merge mask value w = w := by
  rw [FieldRow.merge]
  split
  · exact putMasked_of_mask_zero hl hm
  · exact putMasked_of_mask_zero hl (by rw [wordBits_and, hm, Nat.zero_and])
  · rfl

/-- An RW field that the mask takes in whole takes the value's bits. -/
theorem FieldRow.merge_of_mask_full {w mask value : Word} {h : FieldRow} (ha : h.access = .rw)
    (hm : wordBits mask h.hi h.lo = 2 ^ (h.hi + 1 - h.lo) - 1) :
    h.merge mask value w = setWordBits w h.hi h.lo (wordBits value h.hi h.lo) := by
  have whole (x : Word) : wordBits x h.hi h.lo &&& (2 ^ (h.hi + 1 - h.lo) - 1) = wordBits x h.hi h.lo := by
    rw [Nat.and_two_pow_sub_one_eq_mod, Nat.mod_eq_of_lt (wordBits_lt ..)]
  simp only [FieldRow.merge, ha, putMasked, hm, whole, Nat.sub_self, Nat.zero_add]

/-- The row lists `f` as an RW field, and its other fields lie in the word clear of it. -/
def RegRow.lists (r : RegRow) (f : Fld) : Bool :=
  r.fields.any (fun h => h.hi == f.hi && h.lo == f.lo && h.access == .rw) &&
    r.fields.all (fun h => decide (h.lo ≤ h.hi)) && decide (r.fields.Pairwise fun h g => h.hi < g.lo ∨ g.hi < h.lo)

theorem Fld.entry_mask {f : Fld} (hf : f.fits) (v : Nat) : wordBits (f.entry v).mask f.hi f.lo = 2 ^ f.width - 1 := by
  obtain ⟨hl, hh⟩ := hf
  rw [Fld.entry, wordBits_setWordBits hl hh, ← Fld.width, Nat.mod_eq_of_lt (Nat.sub_lt (Nat.two_pow_pos _) one_pos)]

theorem Fld.entry_value {f : Fld} (hf : f.fits) {v : Nat} (hv : v < 2 ^ f.width) :
    wordBits (f.entry v).value f.hi f.lo = v := by
  obtain ⟨hl, hh⟩ := hf
  rw [Fld.entry, wordBits_setWordBits hl hh, ← Fld.width, Nat.mod_eq_of_lt hv]

theorem Fld.entry_mask_other {f : Fld} (hf : f.fits) (v : Nat) {hi lo : Nat} (hl : lo ≤ hi) (hd : hi < f.lo ∨ f.hi < lo) :
    wordBits (f.entry v).mask hi lo = 0 := by
  obtain ⟨hfl, hfh⟩ := hf
  rw [Fld.entry, wordBits_setWordBits_other hfl hfh hl hd, wordBits, BitVec.toNat_ofNat, Nat.zero_mod, bitsOf, Nat.zero_div,
    Nat.zero_mod]

/-- A write of one field leaves the word with that field replaced. -/
theorem mergeWord_entry {r : RegRow} {f : Fld} {v : Nat} (hf : f.fits) (hr : r.lists f = true) (hv : v < 2 ^ f.width)
    (old : Word) : mergeWord r old (f.entry v).mask (f.entry v).value = setWordBits old f.hi f.lo v := by
  simp only [RegRow.lists, Bool.and_eq_true, List.any_eq_true, List.all_eq_true, beq_iff_eq, decide_eq_true_eq] at hr
  obtain ⟨⟨⟨g, hg, ⟨hhi, hlo⟩, hrw⟩, hfit⟩, hpw⟩ := hr
  obtain ⟨l₁, l₂, e⟩ := List.append_of_mem hg
  rw [e, List.pairwise_append, List.pairwise_cons] at hpw
  obtain ⟨-, ⟨hafter, -⟩, hbefore⟩ := hpw
  have keep (l : List FieldRow) (hl : ∀ h ∈ l, h.lo ≤ h.hi) (hd : ∀ h ∈ l, h.hi < f.lo ∨ f.hi < h.lo) (w : Word) :
      l.foldl (FieldRow.merge (f.entry v).mask (f.entry v).value) w = w :=
    List.foldlRecOn (motive := fun t => t = w) l _ rfl fun _ ih h m => by
      rw [FieldRow.merge_of_mask_zero (hl h m) (Fld.entry_mask_other hf v (hl h m) (hd h m)), ih]
  have mem₁ (h : FieldRow) (m : h ∈ l₁) : h ∈ r.fields := by rw [e]; exact List.mem_append_left _ m
  have mem₂ (h : FieldRow) (m : h ∈ l₂) : h ∈ r.fields := by
    rw [e]; exact List.mem_append_right _ (List.mem_cons_of_mem _ m)
  have hat (w : Word) : g.merge (f.entry v).mask (f.entry v).value w = setWordBits w f.hi f.lo v := by
    rw [FieldRow.merge_of_mask_full hrw (by rw [hhi, hlo]; exact Fld.entry_mask hf v), hhi, hlo, Fld.entry_value hf hv]
  rw [mergeWord_eq_foldl, e, List.foldl_append, List.foldl_cons,
    keep l₁ (fun h m => hfit h (mem₁ h m)) (fun h m => by simpa [hhi, hlo] using hbefore h m g List.mem_cons_self), hat,
    keep l₂ (fun h m => hfit h (mem₂ h m)) (fun h m => by simpa [hhi, hlo, or_comm] using hafter h m)]

/-! One field written by command. -/

/-- The field lies in a register that a command can write on its own: its row lists it, and none of the register's
ranges is ignored. -/
def Fld.settable (f : Fld) : Bool :=
  decide (f.lo ≤ f.hi ∧ f.hi < 32) && (rangesAt f.addr).all (fun r => !r.quiet) &&
    match planRow f.addr with
    | some x => x.1.lists f
    | none => false

theorem keepBroken_of_not_picked {pick : RangeRow → Bool} {a : Nat} (h : ∀ r ∈ rangesAt a, pick r = false) (old new : Word) :
    keepBroken pick a old new = new :=
  List.foldlRecOn (motive := fun w => w = new) (rangesAt a) _ rfl fun _ ih r m => by simp [h r m, ih]

/-- A register with an RW field is not one that only hardware writes. -/
theorem RegRow.lists_not_passive {r : RegRow} {f : Fld} (h : r.lists f = true) : r.passive = false := by
  simp only [RegRow.lists, Bool.and_eq_true, List.any_eq_true, beq_iff_eq] at h
  obtain ⟨⟨⟨g, hg, -, hrw⟩, -⟩, -⟩ := h
  exact List.all_eq_false.mpr ⟨g, hg, by rw [hrw]; decide⟩

/-- A write of a listed field acts. -/
theorem RegRow.lists_reached {r : RegRow} {f : Fld} (hf : f.fits) (h : r.lists f = true) (v : Nat) :
    r.reached (f.entry v).mask = true := by
  simp only [RegRow.lists, Bool.and_eq_true, List.any_eq_true, beq_iff_eq] at h
  obtain ⟨⟨⟨g, hg, ⟨hhi, hlo⟩, hrw⟩, -⟩, -⟩ := h
  have hw : 0 < f.width := Nat.sub_pos_of_lt (Nat.lt_succ_of_le hf.1)
  have hm : 2 ^ f.width - 1 ≠ 0 := Nat.sub_ne_zero_of_lt (Nat.one_lt_two_pow hw.ne')
  refine List.any_eq_true.mpr ⟨g, hg, ?_⟩
  rw [hrw, hhi, hlo, Fld.entry_mask hf]
  simp [hm]

/-- What a write of one field that is accepted comes to: its register's word with the field replaced, and the write's own
effect. -/
theorem State.writeOne_entry {s t : State} {f : Fld} {v : Nat} (hf : f.settable = true) (hv : v < 2 ^ f.width)
    (h : s.writeOne (f.entry v) = .ok t) :
    t = s.putWord (f.entry v) (s.oldWord f.addr) (setWordBits (s.oldWord f.addr) f.hi f.lo v) := by
  simp only [Fld.settable, Bool.and_eq_true, decide_eq_true_eq, List.all_eq_true, Bool.not_eq_true'] at hf
  obtain ⟨⟨hfit, hq⟩, hrow⟩ := hf
  have haddr : (f.entry v).addr = f.addr := rfl
  rw [State.writeOne, haddr] at h
  cases hp : planRow f.addr with
  | none => simp [hp] at hrow
  | some x =>
    rw [hp] at hrow h
    simp only [RegRow.lists_not_passive hrow, mergeWord_entry hfit hrow hv, keepBroken_of_not_picked hq,
      RegRow.lists_reached hfit hrow, reduceIte, Bool.false_eq_true] at h
    split at h
    · cases h
    · split at h
      · cases h
      · exact (Except.ok.inj h).symm

/-- A single write that passes and does not wait for the wake. -/
theorem State.tryWrites_single {s t : State} {e : RegEntry} {o : Nat} (hd : s.defers e.addr = false)
    (h : s.tryWrites [(o, e)] = .done t) : s.writeOne e = .ok t := by
  have hs : sortEntries [(o, e)] = [(o, e)] := rfl
  have hany : ([(o, e)].map fun x => x.2.addr).any s.defers = false := by simp [hd]
  rw [State.tryWrites, hs, State.writeAll] at h
  cases hw : s.writeOne e with
  | error f => rw [hw] at h; cases h
  | ok u =>
    rw [hw] at h
    simp only [State.writeAll, firstFailure, hany] at h
    split at h
    · cases h
    · split at h
      · cases h
      · exact congrArg _ (WriteEnd.done.inj h)

/-- A field's write that passes R102, and does not wait for the wake, takes effect. -/
theorem State.writeField_of_passes {s : State} {f : Fld} {v : Nat} (hf : f.settable = true)
    (hd : s.defers f.addr = false) (hp : s.passes f v = true) :
    s.writeField f v = s.putWord (f.entry v) (s.oldWord f.addr) (setWordBits (s.oldWord f.addr) f.hi f.lo v) := by
  simp only [State.passes, Bool.and_eq_true, decide_eq_true_eq] at hp
  obtain ⟨⟨hw, hv⟩, hdone⟩ := hp
  cases ht : s.tryWrites [(0, f.entry v)] with
  | done t =>
    have hgate : ¬((!s.writable || decide (2 ^ f.width ≤ v)) = true) := by simp [hw, hv]
    rw [State.writeField, if_neg hgate, ht]
    exact State.writeOne_entry hf hv (State.tryWrites_single hd ht)
  | failed o g => rw [ht] at hdone; cases hdone
  | broken r a b u => rw [ht] at hdone; cases hdone

theorem State.passes_lt {s : State} {f : Fld} {v : Nat} (h : s.passes f v = true) : v < 2 ^ f.width := by
  simp only [State.passes, Bool.and_eq_true, decide_eq_true_eq] at h
  exact h.1.2

/-! The registers that an event, a log entry and a breach of a condition touch. -/

/-- Where an event and a log entry show: the counts of the event matrix and the log's index. -/
def eventRegs : List Nat := [Reg.EVT_COUNTS, Reg.EVT_STATUS, Reg.NVC_LOG]

/-- Where a breach of a condition shows. -/
def breachRegs : List Nat := eventRegs ++ [Reg.PLAT_STATE, Reg.PLAT_COND_SEEN]

theorem State.raise_reg {s : State} {prod a : Nat} {tag : Option Nat} (h : a ∉ eventRegs) :
    (s.raise prod tag).reg a = s.reg a := by
  simp only [eventRegs, List.mem_cons, not_or] at h
  obtain ⟨hc, hs, -⟩ := h
  rw [State.raise]
  split
  · exact (State.reg_setFld_other hs).trans (State.reg_setFld_other hc)
  · rfl

theorem State.raiseIf_reg {s : State} {en : Bool} {prod a : Nat} {tag : Option Nat} (h : a ∉ eventRegs) :
    (s.raiseIf en prod tag).reg a = s.reg a := by
  rw [State.raiseIf]
  split
  · exact State.raise_reg h
  · rfl

theorem State.log1_reg {s : State} {code block inst cond a : Nat} {detail : List Nat} (h : a ∉ eventRegs) :
    (s.log1 code block inst cond detail).reg a = s.reg a := by
  simp only [eventRegs, List.mem_cons, not_or] at h
  obtain ⟨-, -, hl, -⟩ := h
  have hr : (s.log1 code block inst cond detail).regs = (s.bumpWrap Reg.NVC_LOG_NEXT).regs := rfl
  rw [State.reg_of_regs hr, State.bumpWrap]
  exact State.reg_setFld_other hl

theorem State.fld_of_reg {t u : State} {f : Fld} (h : t.reg f.addr = u.reg f.addr) : t.fld f = u.fld f := by
  rw [State.fld, h, State.fld]

theorem State.raise_fld {s : State} {prod : Nat} {tag : Option Nat} {f : Fld} (h : f.addr ∉ eventRegs) :
    (s.raise prod tag).fld f = s.fld f := State.fld_of_reg (State.raise_reg h)

theorem State.raiseIf_fld {s : State} {en : Bool} {prod : Nat} {tag : Option Nat} {f : Fld} (h : f.addr ∉ eventRegs) :
    (s.raiseIf en prod tag).fld f = s.fld f := State.fld_of_reg (State.raiseIf_reg h)

theorem State.log1_fld {s : State} {code block inst cond : Nat} {detail : List Nat} {f : Fld} (h : f.addr ∉ eventRegs) :
    (s.log1 code block inst cond detail).fld f = s.fld f := State.fld_of_reg (State.log1_reg h)

theorem State.breach_reg {s : State} {c block inst a : Nat} {detail : List Nat} (h : a ∉ breachRegs) :
    (s.breach c block inst detail).reg a = s.reg a := by
  simp only [breachRegs, List.mem_append, List.mem_cons, not_or] at h
  obtain ⟨he, hp, hs, -⟩ := h
  rw [State.breach]
  exact (State.reg_setFld_other hs).trans ((State.reg_setFld_other hp).trans
    ((State.raise_reg he).trans (State.log1_reg he)))

theorem State.breachOnce_reg {s : State} {c block inst a : Nat} {detail : List Nat} (h : a ∉ breachRegs) :
    (s.breachOnce c block inst detail).reg a = s.reg a := by
  have hp : a ≠ Reg.PLAT_STATE := fun e => h (by rw [e]; decide)
  exact (State.reg_setFld_other hp).trans (State.breach_reg h)

theorem State.breach_fld {s : State} {c block inst : Nat} {detail : List Nat} {f : Fld} (h : f.addr ∉ breachRegs) :
    (s.breach c block inst detail).fld f = s.fld f := State.fld_of_reg (State.breach_reg h)

theorem State.breachOnce_fld {s : State} {c block inst : Nat} {detail : List Nat} {f : Fld} (h : f.addr ∉ breachRegs) :
    (s.breachOnce c block inst detail).fld f = s.fld f := State.fld_of_reg (State.breachOnce_reg h)

/-! The lock's limit (R72). -/

theorem Reg.lock_quiet {k : Nat} (hk : k < 64) : quietAddr (Reg.LOCK k) := by
  simp only [quietAddr, Reg.LOCK, Reg.ETH_CNT_FRAMES]
  omega

theorem Reg.lock_not_breachRegs {k : Nat} (hk : k < 64) : Reg.LOCK k ∉ breachRegs := by
  simp only [breachRegs, eventRegs, Reg.LOCK, Reg.EVT_COUNTS, Reg.EVT_STATUS, Reg.NVC_LOG, Reg.PLAT_STATE,
    Reg.PLAT_COND_SEEN, List.cons_append, List.nil_append, List.mem_cons, List.not_mem_nil, or_false, not_or]
  omega

theorem Reg.lock_clearOf_limit (k : Nat) :
    ∀ g ∈ [Reg.LOCK_STATE k, Reg.LOCK_OWNER_KIND k, Reg.LOCK_OWNER k, Reg.LOCK_BREAKS k, Reg.LOCK_WAITERS k],
      g.clearOf (Reg.LOCK_HOLD_LIMIT k) = true := by
  simp [Fld.clearOf, Reg.LOCK_STATE, Reg.LOCK_OWNER_KIND, Reg.LOCK_OWNER, Reg.LOCK_BREAKS, Reg.LOCK_WAITERS,
    Reg.LOCK_HOLD_LIMIT]

theorem State.setLock_limit (s : State) (k : Nat) (x : LockX) :
    (s.setLock k x).fld (Reg.LOCK_HOLD_LIMIT k) = s.fld (Reg.LOCK_HOLD_LIMIT k) :=
  (State.fld_setFld_clear (Reg.lock_clearOf_limit k _ (by simp))).trans rfl

theorem State.lockOwn_limit (s : State) (k : Nat) (engine : Bool) (client : Nat) :
    (s.lockOwn k engine client).fld (Reg.LOCK_HOLD_LIMIT k) = s.fld (Reg.LOCK_HOLD_LIMIT k) := by
  have clear := Reg.lock_clearOf_limit k
  rw [State.lockOwn]
  simp only [State.setLock_limit]
  rw [State.fld_setFld_clear (clear _ (by simp)), State.fld_setFld_clear (clear _ (by simp)),
    State.fld_setFld_clear (clear _ (by simp))]

theorem State.finishSlot_fld {s : State} {sess tag status : Nat} {payload : List Byte} {more : Bool} {f : Fld}
    (h : quietAddr f.addr) : (s.finishSlot sess tag status payload more).fld f = s.fld f := by
  rw [State.finishSlot]
  split
  · exact State.fld_of_reg (State.complete_reg h)
  · rfl

theorem State.lockPass_limit (s : State) {k : Nat} (hk : k < 64) (idle : Nat) (prior : Option Nat) :
    (s.lockPass k idle prior).fld (Reg.LOCK_HOLD_LIMIT k) = s.fld (Reg.LOCK_HOLD_LIMIT k) := by
  rw [State.lockPass]
  dsimp only
  split
  · rw [State.fld_setFld_clear (Reg.lock_clearOf_limit k _ (by simp)), State.setLock_limit]
  · split
    · rw [State.tellEngine, State.fld_of_regs (State.emit_regs ..), State.lockOwn_limit, State.setLock_limit]
    · rw [State.finishSlot_fld (Reg.lock_quiet hk), State.lockOwn_limit, State.setLock_limit]

theorem State.lockBreak_limit (s : State) {k : Nat} (hk : k < 64) :
    (s.lockBreak k).fld (Reg.LOCK_HOLD_LIMIT k) = s.fld (Reg.LOCK_HOLD_LIMIT k) := by
  have he : (Reg.LOCK_HOLD_LIMIT k).addr ∉ eventRegs :=
    fun m => Reg.lock_not_breachRegs hk (List.mem_append_left _ m)
  rw [State.lockBreak, State.lockPass_limit _ hk, State.raise_fld he, State.log1_fld he]
  exact State.fld_setFld_clear (Reg.lock_clearOf_limit k _ (by simp))

theorem State.lockLimitWritten_limit (s : State) {k : Nat} (hk : k < 64) :
    (s.lockLimitWritten k).fld (Reg.LOCK_HOLD_LIMIT k) = s.fld (Reg.LOCK_HOLD_LIMIT k) := by
  rw [State.lockLimitWritten]
  split
  · rw [State.breachOnce_fld (Reg.lock_not_breachRegs hk), State.lockBreak_limit s hk]
  · rfl

/-- A lock that is not held has no holder to outstay the new limit. -/
theorem State.lockLimitWritten_of_not_held {s : State} {k : Nat} (h : s.fld (Reg.LOCK_STATE k) ≠ 1) :
    s.lockLimitWritten k = s := by
  have hn : s.lockOverheld k = false := by simp [State.lockOverheld, State.lockState, h]
  rw [State.lockLimitWritten, hn]
  rfl

/-! Writes block by block. -/

/-- A register whose word a command's write starts from: not a staged or indexed one. -/
theorem State.oldWord_of_block (s : State) {a : Nat} (h : blockOf a ∉ [0x19, 0x1A, 0x30, 0x31]) : s.oldWord a = s.reg a := by
  simp only [List.mem_cons, List.not_mem_nil, not_or, or_false] at h
  obtain ⟨hk, hr, hm, hc⟩ := h
  have hne : a ≠ Reg.MEM_REGION := fun e => hm (by rw [e]; decide)
  rw [State.oldWord, if_neg (by simp [hk, hr, hc, hne])]

theorem State.defers_of_on (s : State) {a : Nat} (h : onInDeep (blockOf a) = true) : s.defers a = false := by
  rw [State.defers, h, Bool.not_true, Bool.and_false]

theorem State.defers_of_awake {s : State} (h : s.awake = true) (a : Nat) : s.defers a = false := by
  rw [State.defers, h]
  rfl

/-- In the blocks whose writes act on the register alone, an accepted write replaces the field and does nothing else. -/
theorem State.putWord_plain (s : State) {e : RegEntry} {old new : Word}
    (h : blockOf e.addr = 0x01 ∨ blockOf e.addr = 0x09) : s.putWord e old new = s.setReg e.addr new := by
  rcases h with h | h <;> simp only [State.putWord, h]

theorem blockOf_of_lt {a b o : Nat} (h : o < 65536) (ha : a = 65536 * b + o) : blockOf a = b := by
  rw [blockOf]
  omega

/-- All eight limits of a junction, four to a register. -/
def State.setLimits (s : State) (j : Nat) (w : Word) : State := (s.setReg (Reg.ARB_J_LIMLO j) w).setReg (Reg.ARB_J_LIMHI j) w

theorem State.setLimits_reads (s : State) (j : Nat) (w : Word) :
    (s.setLimits j w).reg (Reg.ARB_J_LIMLO j) = w ∧ (s.setLimits j w).reg (Reg.ARB_J_LIMHI j) = w := by
  have hne : Reg.ARB_J_LIMLO j ≠ Reg.ARB_J_LIMHI j := by simp only [Reg.ARB_J_LIMLO, Reg.ARB_J_LIMHI]; omega
  exact ⟨(State.reg_setReg_other hne).trans (State.reg_setReg_self ..), State.reg_setReg_self ..⟩

theorem State.setLimits_fairness (s : State) (j : Nat) (w : Word) :
    (s.setLimits j w).fld (Reg.ARB_J_CTRL_FAIRNESS j) = s.fld (Reg.ARB_J_CTRL_FAIRNESS j) := by
  have hlo : Reg.ARB_J_CTRL j ≠ Reg.ARB_J_LIMLO j := by simp only [Reg.ARB_J_LIMLO, Reg.ARB_J_CTRL]; omega
  have hhi : Reg.ARB_J_CTRL j ≠ Reg.ARB_J_LIMHI j := by simp only [Reg.ARB_J_LIMHI, Reg.ARB_J_CTRL]; omega
  exact State.fld_of_reg ((State.reg_setReg_other hhi).trans (State.reg_setReg_other hlo))

/-- A junction's fairness (R62, Table 03-7): DEFAULT and LOW_LATENCY set all eight limits, CUSTOM keeps them. -/
theorem State.putWord_fairness (s : State) {j v : Nat} (hj : j < 16) (hv : v < 4) (old w : Word) :
    s.putWord ((Reg.ARB_J_CTRL_FAIRNESS j).entry v) old (setWordBits w 31 30 v) =
      let t := s.setReg (Reg.ARB_J_CTRL j) (setWordBits w 31 30 v)
      if v = 0 then t.setLimits j 0x10101010#32 else if v = 1 then t.setLimits j 0x04040404#32 else t := by
  have ha : ((Reg.ARB_J_CTRL_FAIRNESS j).entry v).addr = Reg.ARB_J_CTRL j := rfl
  have hb : blockOf (Reg.ARB_J_CTRL j) = 0x02 :=
    blockOf_of_lt (o := 12 + 16 * j) (by omega) (by rw [Reg.ARB_J_CTRL]; omega)
  have ho : offOf (Reg.ARB_J_CTRL j) = 12 + 16 * j := by rw [offOf, Reg.ARB_J_CTRL]; omega
  have hj' : offOf (Reg.ARB_J_CTRL j) / 16 = j := by rw [ho]; omega
  have hm : wordBits ((Reg.ARB_J_CTRL_FAIRNESS j).entry v).mask 31 30 = 3 :=
    Fld.entry_mask (f := Reg.ARB_J_CTRL_FAIRNESS j) (by simp [Fld.fits, Reg.ARB_J_CTRL_FAIRNESS]) v
  have hn : wordBits (setWordBits w 31 30 v) 31 30 = v := by
    rw [wordBits_setWordBits (by omega) (by omega)]
    omega
  have hlow : ¬0x100 ≤ offOf (Reg.ARB_J_CTRL j) := by rw [ho]; omega
  have hlim : ¬offOf (Reg.ARB_J_CTRL j) % 16 < 8 := by rw [ho]; omega
  have hctrl : offOf (Reg.ARB_J_CTRL j) % 16 = 12 ∧ wordBits ((Reg.ARB_J_CTRL_FAIRNESS j).entry v).mask 31 30 ≠ 0 := by
    rw [hm, ho]; omega
  simp only [State.putWord, ha, hb]
  rw [State.putArb, ha, if_neg hlow, if_neg hlim, if_pos hctrl, hn, hj']
  split
  · rfl
  · rfl
  · rw [if_neg ‹_›, if_neg ‹_›]

theorem State.putWord_lock {s : State} {k v : Nat} (hk : k < 64) (old new : Word) :
    s.putWord ((Reg.LOCK_HOLD_LIMIT k).entry v) old new = (s.setReg (Reg.LOCK k) new).lockLimitWritten k := by
  have ha : ((Reg.LOCK_HOLD_LIMIT k).entry v).addr = Reg.LOCK k := rfl
  have hb : blockOf (Reg.LOCK k) = 0x03 := blockOf_of_lt (o := 4 * k) (by omega) (by rw [Reg.LOCK])
  have ho : offOf (Reg.LOCK k) / 4 = k := by rw [offOf, Reg.LOCK]; omega
  simp only [State.putWord, ha, hb, ho]

theorem State.putWord_alarm {s : State} {d v : Nat} (hd : d < 2) (old new : Word) :
    s.putWord ((Reg.TD_ALARM_NS_NS d).entry v) old new = (s.setReg (Reg.TD_ALARM_NS d) new).alarmArmed d := by
  have ha : ((Reg.TD_ALARM_NS_NS d).entry v).addr = Reg.TD_ALARM_NS d := rfl
  have hb : blockOf (Reg.TD_ALARM_NS d) = 0x28 :=
    blockOf_of_lt (o := 0x24 + 0x40 * d) (by omega) (by rw [Reg.TD_ALARM_NS]; omega)
  have ho : offOf (Reg.TD_ALARM_NS d) = 0x24 + 0x40 * d := by rw [offOf, Reg.TD_ALARM_NS]; omega
  have hctrl : ¬(offOf (Reg.TD_ALARM_NS d) < 0x80 ∧ offOf (Reg.TD_ALARM_NS d) % 64 = 0) := by rw [ho]; omega
  have hns : Reg.TD_ALARM_NS d = Reg.TD_ALARM_NS 0 ∨ Reg.TD_ALARM_NS d = Reg.TD_ALARM_NS 1 := by
    simp only [Reg.TD_ALARM_NS]; omega
  have hdom : offOf (Reg.TD_ALARM_NS d) / 64 = d := by rw [ho]; omega
  simp only [State.putWord, ha, hb]
  rw [State.putTime, ha, if_neg hctrl, if_pos hns, hdom]

/-! A port's ENABLE (R190, R194). -/

theorem State.putWord_capEnable {s : State} {n v : Nat} (hn : n < 24) (old new : Word) :
    s.putWord ((Reg.CAP_CTRL_ENABLE n).entry v) old new =
      (s.setReg (Reg.CAP_CTRL n) (setWordBits new 31 31 (wordBits old 31 31))).capEnable n (wordBits new 31 31 == 1) := by
  have ha : ((Reg.CAP_CTRL_ENABLE n).entry v).addr = Reg.CAP_CTRL n := rfl
  have hb : blockOf (Reg.CAP_CTRL n) = 0x18 := blockOf_of_lt (o := 32 * n) (by omega) (by rw [Reg.CAP_CTRL])
  have ho : offOf (Reg.CAP_CTRL n) = 32 * n := by rw [offOf, Reg.CAP_CTRL]; omega
  have hctrl : offOf (Reg.CAP_CTRL n) % 32 = 0 := by rw [ho]; omega
  have hport : offOf (Reg.CAP_CTRL n) / 32 = n := by rw [ho]; omega
  simp only [State.putWord, ha, hb, if_pos hctrl, hport]

theorem State.setCam_reg (s : State) (n a : Nat) (x : Cam) : (s.setCam n x).reg a = s.reg a := (rfl)

/-- A read of the store shows in its counts, its events and the log. -/
def storeRegs : List Nat := eventRegs ++ [Reg.NVC_ERR, Reg.NVC_EVENTS]

theorem State.calVerify_reg {s : State} {kind inst a : Nat} (h : a ∉ storeRegs) :
    (s.calVerify kind inst).reg a = s.reg a := by
  simp only [storeRegs, List.mem_append, List.mem_cons, not_or] at h
  obtain ⟨he, herr, hev, -⟩ := h
  have repaired (t : State) : ((t.bump Reg.NVC_ERR_REPAIRED).setFld Reg.NVC_EVENTS_REPAIR 1).reg a = t.reg a :=
    (State.reg_setFld_other hev).trans (State.reg_setFld_other herr)
  have bad (ok : Bool) :
      (if ok then s else (s.bump Reg.NVC_ERR_COPY_BAD).setFld Reg.NVC_EVENTS_COPY_BAD 1).reg a = s.reg a := by
    cases ok
    · exact (State.reg_setFld_other hev).trans (State.reg_setFld_other herr)
    · rfl
  rw [State.calVerify]
  split
  · rfl
  · split
    · rfl
    · refine (State.log1_reg he).trans ?_
      have hr (t : State) (p : CalPair) : (t.setCalPair kind inst p).reg a = t.reg a := rfl
      rw [hr, repaired]
      exact bad _

theorem Reg.cap_not_storeRegs {n : Nat} (hn : n < 24) : Reg.CAP_CTRL n ∉ storeRegs := by
  simp only [storeRegs, eventRegs, Reg.CAP_CTRL, Reg.EVT_COUNTS, Reg.EVT_STATUS, Reg.NVC_LOG, Reg.NVC_ERR, Reg.NVC_EVENTS,
    List.cons_append, List.nil_append, List.mem_cons, List.not_mem_nil, or_false, not_or]
  omega

theorem State.portStart_reg {s : State} {n a : Nat} (h : a ∉ storeRegs) : (s.portStart n).reg a = s.reg a := by
  rw [State.portStart]
  simp only [State.setCam_reg, State.calVerify_reg h]

theorem State.closeFrame_fld {s : State} {n : Nat} {short : Bool} {f : Fld} (h : f.addr ≠ Reg.CAP_STATUS n) :
    (s.closeFrame n short).fld f = s.fld f := by
  rw [State.closeFrame]
  exact State.fld_of_reg (State.reg_setFld_other h)

theorem State.cam_setCam (s : State) (n : Nat) (x : Cam) : (s.setCam n x).cam n = x := tabGet_put_self

theorem State.cam_setFld (s : State) (f : Fld) (v n : Nat) : (s.setFld f v).cam n = s.cam n := (rfl)

/-- A port whose newest frame is closed has no open frame. -/
theorem Cam.openFrame_updTop {x : Cam} {u : CamFrame → CamFrame} (h : ∀ f, (u f).closed = true) :
    (x.updTop u).openFrame = none := by
  cases hf : x.frames with
  | nil => simp [Cam.updTop, Cam.openFrame, hf]
  | cons f t => simp [Cam.updTop, Cam.openFrame, hf, h f]

theorem State.closeFrame_openFrame (s : State) (n : Nat) (short : Bool) :
    ((s.closeFrame n short).cam n).openFrame = none := by
  rw [State.closeFrame, State.cam_setFld, State.cam_setCam]
  exact Cam.openFrame_updTop fun _ => rfl

theorem State.capEnable_setFlag (s : State) (n : Nat) (b : Bool) :
    (s.setFlag (Reg.CAP_CTRL_ENABLE n) b).fld (Reg.CAP_CTRL_ENABLE n) = b2n b := by
  have hf : (Reg.CAP_CTRL_ENABLE n).fits := by simp [Fld.fits, Reg.CAP_CTRL_ENABLE]
  have hw : (Reg.CAP_CTRL_ENABLE n).width = 1 := rfl
  exact State.fld_setFld hf (by rw [hw]; cases b <;> decide)

/-- A port that was off starts. -/
theorem State.capEnable_start {s : State} {n : Nat} (hn : n < 24) (h : s.capOn n = false) :
    (s.capEnable n true).fld (Reg.CAP_CTRL_ENABLE n) = 1 := by
  rw [State.capEnable, if_neg (by rw [h]; decide)]
  simp only [reduceIte]
  rw [State.fld_of_reg (State.portStart_reg (Reg.cap_not_storeRegs hn))]
  exact State.capEnable_setFlag s n true

/-- A port that was on stops, and its open frame closes. -/
theorem State.capEnable_stop {s : State} {n : Nat} (h : s.capOn n = true) :
    (s.capEnable n false).fld (Reg.CAP_CTRL_ENABLE n) = 0 ∧ ((s.capEnable n false).cam n).openFrame = none := by
  have hne : (Reg.CAP_CTRL_ENABLE n).addr ≠ Reg.CAP_STATUS n := by
    simp only [Reg.CAP_CTRL_ENABLE, Reg.CAP_STATUS]; omega
  have hoff (x : Cam) : (((s.setFlag (Reg.CAP_CTRL_ENABLE n) false).setCam n x).setFld (Reg.CAP_STATUS_PEND n) 0).fld
      (Reg.CAP_CTRL_ENABLE n) = 0 :=
    (State.fld_of_reg (State.reg_setFld_other hne)).trans
      ((State.fld_of_reg (State.setCam_reg ..)).trans (State.capEnable_setFlag s n false))
  rw [State.capEnable, if_neg (by rw [h]; decide)]
  simp only [Bool.false_eq_true, reduceIte]
  split
  · exact ⟨(State.closeFrame_fld hne).trans (hoff _), State.closeFrame_openFrame ..⟩
  · rename_i ho
    exact ⟨hoff _, Option.not_isSome_iff_eq_none.mp ho⟩

/-! The fields that a command writes on its own, in the plan and the ranges. -/

theorem Reg.holdLimit_settable : ∀ k, k < 64 → (Reg.LOCK_HOLD_LIMIT k).settable = true := by decide +kernel

theorem Reg.fairness_settable : ∀ j, j < 16 → (Reg.ARB_J_CTRL_FAIRNESS j).settable = true := by decide +kernel

theorem Reg.paceMode_settable : Reg.PACE_CTRL_MODE.settable = true := by decide +kernel

theorem Reg.vcap_settable : Reg.PACE_LIMIT_VCAP_MV.settable = true := by decide +kernel

theorem Reg.dcmpEnable_settable : ∀ u, u < 16 → (Reg.DCMP_CTRL_ENABLE u).settable = true := by decide +kernel

theorem Reg.alarm_settable : ∀ d, d < 2 → (Reg.TD_ALARM_NS_NS d).settable = true := by decide +kernel

theorem Reg.capEnable_settable : ∀ n, n < 24 → (Reg.CAP_CTRL_ENABLE n).settable = true := by decide +kernel

theorem Fld.fits_of_settable {f : Fld} (h : f.settable = true) : f.fits := by
  simp only [Fld.settable, Bool.and_eq_true, decide_eq_true_eq] at h
  exact h.1.1

/-- `writeField_of_passes` where the write starts from the register's own word. -/
theorem State.writeField_of_reg {s : State} {f : Fld} {v : Nat} (hf : f.settable = true) (hd : s.defers f.addr = false)
    (hb : blockOf f.addr ∉ [0x19, 0x1A, 0x30, 0x31]) (hp : s.passes f v = true) :
    s.writeField f v = s.putWord (f.entry v) (s.reg f.addr) (setWordBits (s.reg f.addr) f.hi f.lo v) := by
  rw [State.writeField_of_passes hf hd hp, State.oldWord_of_block s hb]

/-- A field's write in a block without further effects. -/
theorem State.writeField_plain {s : State} {f : Fld} {v : Nat} (hf : f.settable = true) (hd : s.defers f.addr = false)
    (hb : blockOf f.addr = 0x01 ∨ blockOf f.addr = 0x09) (hp : s.passes f v = true) : s.writeField f v = s.setFld f v := by
  have hn : blockOf f.addr ∉ [0x19, 0x1A, 0x30, 0x31] := by
    rcases hb with h | h <;> rw [h] <;> decide
  rw [State.writeField_of_reg hf hd hn hp, State.putWord_plain s hb]
  rfl

theorem State.writeField_plain_reads {s : State} {f : Fld} {v : Nat} (hf : f.settable = true)
    (hd : s.defers f.addr = false) (hb : blockOf f.addr = 0x01 ∨ blockOf f.addr = 0x09) (hp : s.passes f v = true) :
    (s.writeField f v).fld f = v ∧ ∀ a, a ≠ f.addr → (s.writeField f v).reg a = s.reg a := by
  rw [State.writeField_plain hf hd hb hp]
  exact ⟨State.fld_setFld (Fld.fits_of_settable hf) (State.passes_lt hp), fun _ h => State.reg_setFld_other h⟩

theorem State.writeField_holdLimit {s : State} {k v : Nat} (hk : k < 64)
    (hp : s.passes (Reg.LOCK_HOLD_LIMIT k) v = true) :
    s.writeField (Reg.LOCK_HOLD_LIMIT k) v = (s.setFld (Reg.LOCK_HOLD_LIMIT k) v).lockLimitWritten k := by
  have hb : blockOf (Reg.LOCK_HOLD_LIMIT k).addr = 0x03 :=
    blockOf_of_lt (o := 4 * k) (by omega) (by rw [Reg.LOCK_HOLD_LIMIT])
  have hd : s.defers (Reg.LOCK_HOLD_LIMIT k).addr = false := State.defers_of_on s (by rw [hb]; decide)
  rw [State.writeField_of_reg (Reg.holdLimit_settable k hk) hd (by rw [hb]; decide) hp, State.putWord_lock hk]
  rfl

/-- R72: the limit is the one written, and a lock that is not held stays as it is. -/
theorem State.writeField_holdLimit_reads {s : State} {k v : Nat} (hk : k < 64)
    (hp : s.passes (Reg.LOCK_HOLD_LIMIT k) v = true) :
    (s.writeField (Reg.LOCK_HOLD_LIMIT k) v).fld (Reg.LOCK_HOLD_LIMIT k) = v ∧
      (s.fld (Reg.LOCK_STATE k) ≠ 1 →
        (s.writeField (Reg.LOCK_HOLD_LIMIT k) v).fld (Reg.LOCK_STATE k) = s.fld (Reg.LOCK_STATE k)) := by
  have hstate : (s.setFld (Reg.LOCK_HOLD_LIMIT k) v).fld (Reg.LOCK_STATE k) = s.fld (Reg.LOCK_STATE k) :=
    State.fld_setFld_clear (by simp [Fld.clearOf, Reg.LOCK_HOLD_LIMIT, Reg.LOCK_STATE])
  rw [State.writeField_holdLimit hk hp]
  constructor
  · rw [State.lockLimitWritten_limit _ hk]
    exact State.fld_setFld (Fld.fits_of_settable (Reg.holdLimit_settable k hk)) (State.passes_lt hp)
  · intro hfree
    rw [State.lockLimitWritten_of_not_held (by rw [hstate]; exact hfree), hstate]

theorem State.writeField_fairness {s : State} {j v : Nat} (hj : j < 16) (hw : s.awake = true)
    (hp : s.passes (Reg.ARB_J_CTRL_FAIRNESS j) v = true) :
    s.writeField (Reg.ARB_J_CTRL_FAIRNESS j) v =
      let t := s.setFld (Reg.ARB_J_CTRL_FAIRNESS j) v
      if v = 0 then t.setLimits j 0x10101010#32 else if v = 1 then t.setLimits j 0x04040404#32 else t := by
  have hb : blockOf (Reg.ARB_J_CTRL_FAIRNESS j).addr = 0x02 :=
    blockOf_of_lt (o := 12 + 16 * j) (by omega) (by simp only [Reg.ARB_J_CTRL_FAIRNESS]; omega)
  exact (State.writeField_of_reg (Reg.fairness_settable j hj) (State.defers_of_awake hw _) (by rw [hb]; decide) hp).trans
    (State.putWord_fairness s hj (State.passes_lt hp) _ _)

/-- R62: FAIRNESS is the one written, and DEFAULT and LOW_LATENCY bring their limits. -/
theorem State.writeField_fairness_reads {s : State} {j v : Nat} (hj : j < 16) (hw : s.awake = true)
    (hp : s.passes (Reg.ARB_J_CTRL_FAIRNESS j) v = true) :
    let t := s.writeField (Reg.ARB_J_CTRL_FAIRNESS j) v
    t.fld (Reg.ARB_J_CTRL_FAIRNESS j) = v ∧
      (v = 0 → t.reg (Reg.ARB_J_LIMLO j) = 0x10101010#32 ∧ t.reg (Reg.ARB_J_LIMHI j) = 0x10101010#32) ∧
      (v = 1 → t.reg (Reg.ARB_J_LIMLO j) = 0x04040404#32 ∧ t.reg (Reg.ARB_J_LIMHI j) = 0x04040404#32) ∧
      (v = 2 → t.reg (Reg.ARB_J_LIMLO j) = s.reg (Reg.ARB_J_LIMLO j)) := by
  have hfld : (s.setFld (Reg.ARB_J_CTRL_FAIRNESS j) v).fld (Reg.ARB_J_CTRL_FAIRNESS j) = v :=
    State.fld_setFld (Fld.fits_of_settable (Reg.fairness_settable j hj)) (State.passes_lt hp)
  have hlo : Reg.ARB_J_LIMLO j ≠ (Reg.ARB_J_CTRL_FAIRNESS j).addr := by
    simp only [Reg.ARB_J_LIMLO, Reg.ARB_J_CTRL_FAIRNESS]; omega
  rw [State.writeField_fairness hj hw hp]
  obtain rfl | rfl | hv : v = 0 ∨ v = 1 ∨ 2 ≤ v := by omega
  · exact ⟨(State.setLimits_fairness ..).trans hfld, fun _ => State.setLimits_reads .., by simp, by simp⟩
  · exact ⟨(State.setLimits_fairness ..).trans hfld, by simp, fun _ => State.setLimits_reads .., by simp⟩
  · simp only [if_neg (show ¬v = 0 by omega), if_neg (show ¬v = 1 by omega)]
    exact ⟨hfld, by omega, by omega, fun _ => State.reg_setFld_other hlo⟩

/-- R292: the write of the alarm's time arms it. -/
theorem State.writeField_alarm {s : State} {d v : Nat} (hd : d < 2) (hp : s.passes (Reg.TD_ALARM_NS_NS d) v = true) :
    s.writeField (Reg.TD_ALARM_NS_NS d) v = (s.setFld (Reg.TD_ALARM_NS_NS d) v).alarmArmed d := by
  have hb : blockOf (Reg.TD_ALARM_NS_NS d).addr = 0x28 :=
    blockOf_of_lt (o := 0x24 + 0x40 * d) (by omega) (by simp only [Reg.TD_ALARM_NS_NS]; omega)
  have hon : s.defers (Reg.TD_ALARM_NS_NS d).addr = false := State.defers_of_on s (by rw [hb]; decide)
  exact (State.writeField_of_reg (Reg.alarm_settable d hd) hon (by rw [hb]; decide) hp).trans (State.putWord_alarm hd _ _)

theorem State.alarmArmed_regs (s : State) (d : Nat) :
    (s.alarmArmed d).regs = (s.setFld (Reg.TD_STATUS_ALARM_ARMED d) 1).regs := State.setClock_regs ..

theorem State.writeField_alarm_reads {s : State} {d v : Nat} (hd : d < 2)
    (hp : s.passes (Reg.TD_ALARM_NS_NS d) v = true) :
    (s.writeField (Reg.TD_ALARM_NS_NS d) v).fld (Reg.TD_ALARM_NS_NS d) = v ∧
      (s.writeField (Reg.TD_ALARM_NS_NS d) v).fld (Reg.TD_STATUS_ALARM_ARMED d) = 1 := by
  have hne : (Reg.TD_ALARM_NS_NS d).addr ≠ (Reg.TD_STATUS_ALARM_ARMED d).addr := by
    simp only [Reg.TD_ALARM_NS_NS, Reg.TD_STATUS_ALARM_ARMED]; omega
  rw [State.writeField_alarm hd hp, State.fld_of_regs (State.alarmArmed_regs ..), State.fld_of_regs (State.alarmArmed_regs ..)]
  constructor
  · rw [State.fld_of_reg (State.reg_setFld_other hne)]
    exact State.fld_setFld (Fld.fits_of_settable (Reg.alarm_settable d hd)) (State.passes_lt hp)
  · have hfit : (Reg.TD_STATUS_ALARM_ARMED d).fits := by simp [Fld.fits, Reg.TD_STATUS_ALARM_ARMED]
    exact State.fld_setFld hfit (by simp [Fld.width, Reg.TD_STATUS_ALARM_ARMED])

/-- A write of a port's ENABLE runs `capEnable` on a state in which the port is as it was. -/
theorem State.writeField_capEnable {s : State} {n v : Nat} (hn : n < 24) (hw : s.awake = true)
    (hp : s.passes (Reg.CAP_CTRL_ENABLE n) v = true) :
    ∃ u : State, s.writeField (Reg.CAP_CTRL_ENABLE n) v = u.capEnable n (v == 1) ∧ u.capOn n = s.capOn n := by
  have hb : blockOf (Reg.CAP_CTRL_ENABLE n).addr = 0x18 :=
    blockOf_of_lt (o := 32 * n) (by omega) (by rw [Reg.CAP_CTRL_ENABLE])
  have hv : v < 2 := State.passes_lt hp
  have hnew : wordBits (setWordBits (s.reg (Reg.CAP_CTRL n)) 31 31 v) 31 31 = v := by
    rw [wordBits_setWordBits (by omega) (by omega)]
    omega
  have hold (w x : Word) : wordBits (setWordBits x 31 31 (wordBits w 31 31)) 31 31 = wordBits w 31 31 := by
    have hlt : wordBits w 31 31 < 2 := wordBits_lt ..
    rw [wordBits_setWordBits (by omega) (by omega)]
    omega
  refine ⟨s.setReg (Reg.CAP_CTRL n) (setWordBits (setWordBits (s.reg (Reg.CAP_CTRL n)) 31 31 v) 31 31
    (wordBits (s.reg (Reg.CAP_CTRL n)) 31 31)), ?_, ?_⟩
  · rw [State.writeField_of_reg (Reg.capEnable_settable n hn) (State.defers_of_awake hw _) (by rw [hb]; decide) hp,
      State.putWord_capEnable hn]
    simp only [Reg.CAP_CTRL_ENABLE, Reg.CAP_CTRL] at hnew ⊢
    rw [hnew]
  · have ha : (Reg.CAP_CTRL_ENABLE n).addr = Reg.CAP_CTRL n := rfl
    simp only [State.capOn, State.flag, State.fld, ha, State.reg_setReg_self]
    exact congrArg (· != 0) (hold _ _)

/-- Settles O28: each command is `writeField` of one field, and a write that passes R102 comes to the write's own effect on
the register with that field replaced. -/
theorem fieldWritesComplete : Obligations.FieldWritesComplete := by
  refine ⟨?lock, ?fairness, ?mode, ?vcap, ?dcmp, ?alarm, ?capOn, ?capOff⟩
  case lock =>
    intro s k v hk hp
    exact ⟨_, congrArg Host.Outcome.next (if_pos hk), State.writeField_holdLimit_reads hk hp⟩
  case fairness =>
    intro s j v hj hw _ hp
    exact ⟨_, congrArg Host.Outcome.next (if_pos hj), State.writeField_fairness_reads hj hw hp⟩
  case mode =>
    intro s v hp
    exact ⟨_, rfl, State.writeField_plain_reads Reg.paceMode_settable (State.defers_of_on s rfl) (.inl rfl) hp⟩
  case vcap =>
    intro s v hp
    exact ⟨_, rfl, State.writeField_plain_reads Reg.vcap_settable (State.defers_of_on s rfl) (.inl rfl) hp⟩
  case dcmp =>
    intro s u e hu hw hp
    have hb : blockOf (Reg.DCMP_CTRL_ENABLE u).addr = 0x09 :=
      blockOf_of_lt (o := 16 * u) (by omega) (by rw [Reg.DCMP_CTRL_ENABLE])
    obtain ⟨hfld, -⟩ :=
      State.writeField_plain_reads (Reg.dcmpEnable_settable u hu) (State.defers_of_awake hw _) (.inr hb) hp
    refine ⟨_, congrArg Host.Outcome.next (if_pos hu), ?_⟩
    rw [State.flag, hfld]
    cases e <;> rfl
  case alarm =>
    intro s d v hd hp
    exact ⟨_, congrArg Host.Outcome.next (if_pos hd), State.writeField_alarm_reads hd hp⟩
  case capOn =>
    intro s n hn hw hoff hp
    obtain ⟨u, e, hu⟩ := State.writeField_capEnable hn hw hp
    exact ⟨_, congrArg Host.Outcome.next ((if_pos hn).trans e), State.capEnable_start hn (hu.trans hoff)⟩
  case capOff =>
    intro s n hn hw hon hp
    obtain ⟨u, e, hu⟩ := State.writeField_capEnable hn hw hp
    exact ⟨_, congrArg Host.Outcome.next ((if_pos hn).trans e), State.capEnable_stop (hu.trans hon)⟩

end Sys2Proof.Machine

/-! SUPPORT. The Spinning Top (R37 to R48): what each of its operations leaves of the registers, and what an interval
comes to. -/
namespace Sys2Proof.Machine

/-! Signed and one-bit fields. -/

theorem clampInt_of_high {lo hi x : Int} (h : lo ≤ x) : clampInt lo hi x = min hi x := by
  rw [clampInt, if_neg (by omega)]
  split <;> omega

theorem clampInt_bounds {lo hi : Int} (h : lo ≤ hi) (x : Int) : lo ≤ clampInt lo hi x ∧ clampInt lo hi x ≤ hi := by
  rw [clampInt]
  split
  · omega
  · split <;> omega

theorem signedOf_unsignedOf_byte {x : Int} (hlo : -128 ≤ x) (hhi : x ≤ 127) : signedOf 8 (unsignedOf 8 x % 2 ^ 8) = x := by
  simp only [signedOf, unsignedOf, show (2 : Nat) ^ 8 = 256 from rfl,
    show (2 : Nat) ^ (8 - 1) = 128 from rfl]
  omega

/-- The temperature shown, held to its eight bits. -/
theorem State.fldI_setTj (s : State) (tj : Int) :
    (s.setFldI Reg.PACE_MEAS_TJ_C (clampInt (-128) 127 tj)).fldI Reg.PACE_MEAS_TJ_C = clampInt (-128) 127 tj := by
  obtain ⟨hlo, hhi⟩ := clampInt_bounds (lo := -128) (hi := 127) (by decide) tj
  rw [State.fldI, State.setFldI, State.fld_setFld_self ⟨by decide, by decide⟩]
  exact signedOf_unsignedOf_byte hlo hhi

theorem State.fldI_of_fld {t u : State} {f : Fld} (h : t.fld f = u.fld f) : t.fldI f = u.fldI f := by
  rw [State.fldI, h, State.fldI]

theorem State.flag_of_fld {t u : State} {f : Fld} (h : t.fld f = u.fld f) : t.flag f = u.flag f := by
  rw [State.flag, h, State.flag]

theorem State.fld_setFlag {s : State} {f : Fld} (hf : f.fits) (b : Bool) : (s.setFlag f b).fld f = b2n b := by
  have hw : 0 < f.width := by rw [Fld.width]; have := hf.1; omega
  have hlt : 1 < 2 ^ f.width := Nat.one_lt_two_pow hw.ne'
  refine State.fld_setFld hf ?_
  cases b
  · exact Nat.zero_lt_of_lt hlt
  · exact hlt

theorem State.fld_setFlag_clear {s : State} {f g : Fld} {b : Bool} (h : f.clearOf g = true) :
    (s.setFlag f b).fld g = s.fld g := State.fld_setFld_clear h

theorem State.fld_setFldI_clear {s : State} {f g : Fld} {x : Int} (h : f.clearOf g = true) :
    (s.setFldI f x).fld g = s.fld g := State.fld_setFld_clear h

theorem State.reg_setFlag_other {s : State} {f : Fld} {b : Bool} {a : Nat} (h : a ≠ f.addr) :
    (s.setFlag f b).reg a = s.reg a := State.reg_setFld_other h

theorem State.reg_setFldI_other {s : State} {f : Fld} {x : Int} {a : Nat} (h : a ≠ f.addr) :
    (s.setFldI f x).reg a = s.reg a := State.reg_setFld_other h

/-! One interval's measurement. -/

theorem State.showRamp_fld {s : State} {f : Fld} (h : Reg.PACE_STATUS_RAMPING.clearOf f = true) :
    s.showRamp.fld f = s.fld f := State.fld_setFlag_clear h

theorem State.showRamp_reg {s : State} {a : Nat} (h : a ≠ Reg.PACE_STATUS) : s.showRamp.reg a = s.reg a :=
  State.reg_setFlag_other h

theorem State.mendC5_fld {s : State} {f : Fld} (h : Reg.PLAT_STATE_COND.clearOf f = true) : s.mendC5.fld f = s.fld f := by
  rw [State.mendC5]
  split
  · rfl
  · exact State.fld_setFld_clear h

theorem State.mendC5_reg {s : State} {a : Nat} (h : a ≠ Reg.PLAT_STATE) : s.mendC5.reg a = s.reg a := by
  rw [State.mendC5]
  split
  · rfl
  · exact State.reg_setFld_other h

/-- The readings of PACE_MEAS after a measurement. -/
def State.metered (s : State) (m : PaceMeas) : State :=
  let tj := clampInt (-128) 127 m.tj
  let seen := s.fld Reg.PACE_MEAS_TJ_MAX_C
  ((s.setFld Reg.PACE_MEAS_VCORE_MV (min 1023 (s.slewed m.vcore))).setFldI Reg.PACE_MEAS_TJ_C tj).setFldI
    Reg.PACE_MEAS_TJ_MAX_C (if seen = 0x80 then tj else max tj (signedOf 8 seen))

/-- A measurement: the readings, what the power unit keeps of them, C5 and RAMPING shown. -/
theorem State.measure_eq (s : State) (m : PaceMeas) :
    ∃ p : PwrUnit, s.measure m = (State.mendC5 { s.metered m with pwr := p }).showRamp := ⟨_, rfl⟩

theorem State.withPwr_regs (s : State) (p : PwrUnit) : ({ s with pwr := p } : State).regs = s.regs := (rfl)

theorem State.metered_fld {s : State} {m : PaceMeas} {f : Fld} (hv : Reg.PACE_MEAS_VCORE_MV.clearOf f = true)
    (ht : Reg.PACE_MEAS_TJ_C.clearOf f = true) (hx : Reg.PACE_MEAS_TJ_MAX_C.clearOf f = true) :
    (s.metered m).fld f = s.fld f := by
  simp only [State.metered, State.fld_setFldI_clear hx, State.fld_setFldI_clear ht, State.fld_setFld_clear hv]

theorem State.metered_reg {s : State} {m : PaceMeas} {a : Nat} (h : a ≠ Reg.PACE_MEAS) : (s.metered m).reg a = s.reg a :=
  (State.reg_setFldI_other h).trans ((State.reg_setFldI_other h).trans (State.reg_setFld_other h))

theorem State.metered_vcore (s : State) (m : PaceMeas) :
    (s.metered m).fld Reg.PACE_MEAS_VCORE_MV = min 1023 (s.slewed m.vcore) := by
  simp only [State.metered]
  rw [State.fld_setFldI_clear (by decide), State.fld_setFldI_clear (by decide)]
  exact State.fld_setFld ⟨by decide, by decide⟩ (Nat.lt_of_le_of_lt (Nat.min_le_left ..) (by decide))

theorem State.metered_tj (s : State) (m : PaceMeas) : (s.metered m).fldI Reg.PACE_MEAS_TJ_C = clampInt (-128) 127 m.tj := by
  simp only [State.metered]
  rw [State.fldI_of_fld (State.fld_setFldI_clear (by decide)), State.fldI_setTj]

/-- What C5 and RAMPING leave of a measurement's readings. -/
theorem State.measure_fld_metered {s : State} {m : PaceMeas} {f : Fld} (hc : Reg.PLAT_STATE_COND.clearOf f = true)
    (hr : Reg.PACE_STATUS_RAMPING.clearOf f = true) : (s.measure m).fld f = (s.metered m).fld f := by
  obtain ⟨p, e⟩ := s.measure_eq m
  rw [e, State.showRamp_fld hr, State.mendC5_fld hc, State.fld_of_regs (State.withPwr_regs ..)]

/-- The registers that a measurement writes. -/
def measuredRegs : List Nat := [Reg.PACE_MEAS, Reg.PLAT_STATE, Reg.PACE_STATUS]

theorem State.measure_reg {s : State} {m : PaceMeas} {a : Nat} (h : a ∉ measuredRegs) : (s.measure m).reg a = s.reg a := by
  simp only [measuredRegs, List.mem_cons, List.not_mem_nil, or_false, not_or] at h
  obtain ⟨hm, hp, hs⟩ := h
  obtain ⟨p, e⟩ := s.measure_eq m
  rw [e, State.showRamp_reg hs, State.mendC5_reg hp, State.reg_of_regs (State.withPwr_regs ..), State.metered_reg hm]

theorem State.withPwr_chain (s : State) (p : PwrUnit) : ({ s with pwr := p } : State).chain = s.chain := (rfl)

theorem State.metered_chain (s : State) (m : PaceMeas) : (s.metered m).chain = s.chain :=
  (State.setFldI_chain ..).trans ((State.setFldI_chain ..).trans (State.setFld_chain ..))

theorem State.mendC5_chain (s : State) : s.mendC5.chain = s.chain := by
  rw [State.mendC5]
  split
  · rfl
  · exact State.setFld_chain ..

theorem State.showRamp_chain (s : State) : s.showRamp.chain = s.chain := State.setFlag_chain ..

theorem State.measure_chain (s : State) (m : PaceMeas) : (s.measure m).chain = s.chain := by
  obtain ⟨p, e⟩ := s.measure_eq m
  rw [e, State.showRamp_chain, State.mendC5_chain, State.withPwr_chain, State.metered_chain]

/-! The canaries (R41) and the hold of R48. -/

theorem State.readCanaries_nil (s : State) : s.readCanaries [] = s := (rfl)

/-- Where canary readings show: the canaries' own registers, the events and the log. -/
def canaryRegs : List Nat := Reg.PACE_EVENTS :: eventRegs ++ (List.range 16).map Reg.PACE_CANARY

theorem State.readCanaries_reg {s : State} {speeds : List Nat} {a : Nat} (h : a ∉ canaryRegs) :
    (s.readCanaries speeds).reg a = s.reg a := by
  simp only [canaryRegs, List.cons_append, List.mem_cons, List.mem_append, List.mem_map, not_or, not_exists, not_and] at h
  obtain ⟨he, hr, hc⟩ := h
  rw [State.readCanaries]
  refine List.foldlRecOn (motive := fun t : State => t.reg a = s.reg a) _ _ rfl fun t ih p hp => ?_
  have h16 : p.1 < 16 := by
    have h := (List.mem_filter.mp hp).2
    simp only [Bool.and_eq_true, decide_eq_true_eq] at h
    exact h.1
  have hown : a ≠ Reg.PACE_CANARY p.1 := fun e => hc p.1 (List.mem_range.mpr h16) e.symm
  dsimp only
  have hcanary (speed : Nat) (bad : Bool) : (((t.setFld (Reg.PACE_CANARY_SPEED p.1) speed).setFld
      (Reg.PACE_CANARY_VALID p.1) 1).setFlag (Reg.PACE_CANARY_FAULT p.1) bad).reg a = s.reg a :=
    (State.reg_setFlag_other hown).trans ((State.reg_setFld_other hown).trans ((State.reg_setFld_other hown).trans ih))
  split
  · exact (State.raiseIf_reg hr).trans ((State.log1_reg hr).trans ((State.reg_setFld_other he).trans (hcanary ..)))
  · exact hcanary ..

theorem State.fitWatch_reg {s : State} {mode a : Nat} (hs : a ≠ Reg.PACE_STATUS) (he : a ≠ Reg.PACE_EVENTS)
    (hr : a ∉ eventRegs) : (s.fitWatch mode).reg a = s.reg a := by
  rw [State.fitWatch]
  split
  · exact State.reg_setFld_other hs
  · split
    · exact (State.raiseIf_reg hr).trans ((State.reg_setFld_other he).trans (State.reg_setFld_other hs))
    · rfl

theorem State.fitWatch_fld {s : State} {mode : Nat} {f : Fld} (hh : Reg.PACE_STATUS_FIT_HOLD.clearOf f = true)
    (hl : Reg.PACE_EVENTS_FIT_LOST.clearOf f = true) (hr : f.addr ∉ eventRegs) : (s.fitWatch mode).fld f = s.fld f := by
  rw [State.fitWatch]
  split
  · exact State.fld_setFld_clear hh
  · split
    · exact (State.raiseIf_fld hr).trans ((State.fld_setFld_clear hl).trans (State.fld_setFld_clear hh))
    · rfl

/-- Outside PACE_FRUGAL nothing is held. -/
theorem State.fitWatch_ends {s : State} {mode : Nat} (h : mode ≠ 2) :
    (s.fitWatch mode).fld Reg.PACE_STATUS_FIT_HOLD = 0 := by
  rw [State.fitWatch, if_pos h]
  exact State.fld_setFld ⟨by decide, by decide⟩ (by decide)

/-- The hold of R48: under PACE_FRUGAL it lasts, or begins where the rate exceeds. -/
theorem State.fitWatch_hold (s : State) (mode : Nat) : (s.fitWatch mode).flag Reg.PACE_STATUS_FIT_HOLD =
    (decide (mode = 2) && (s.flag Reg.PACE_STATUS_FIT_HOLD || s.rateOver)) := by
  by_cases hm : mode = 2
  · rw [State.fitWatch, if_neg (not_not_intro hm)]
    split
    · rename_i h
      simp only [Bool.and_eq_true, Bool.not_eq_true'] at h
      obtain ⟨hover, -⟩ := h
      rw [State.flag, State.raiseIf_fld (by decide), State.fld_setFld_clear (by decide),
        State.fld_setFld ⟨by decide, by decide⟩ (by decide), hover]
      simp [hm]
    · rename_i h
      simp only [hm, decide_true, Bool.true_and]
      cases hf : s.flag Reg.PACE_STATUS_FIT_HOLD <;> simp_all
  · rw [State.flag, State.fitWatch_ends hm]
    simp [hm]

theorem State.fitWatch_chain (s : State) (mode : Nat) : (s.fitWatch mode).chain = s.chain := by
  rw [State.fitWatch]
  split
  · exact State.setFld_chain ..
  · split
    · exact (State.raiseIf_chain ..).trans ((State.setFld_chain ..).trans (State.setFld_chain ..))
    · rfl

/-! What the loop looks at, in two states that agree on it. -/

/-- The registers that an interval without canary readings writes. -/
def intervalRegs : List Nat := Reg.PACE_EVENTS :: measuredRegs ++ eventRegs

/-- Two states show the loop the same bars, ports, canaries and web: they differ in registers that an interval itself
writes, and in units it does not look at. -/
structure State.LooksLike (t s : State) : Prop where
  regs : ∀ a, a ∉ intervalRegs → t.reg a = s.reg a
  bars : t.bars = s.bars
  fire : t.fire = s.fire
  motion : t.motion = s.motion
  chain : t.chain = s.chain

/-- Between the PACE block's first eight registers and the EVT block an interval writes nothing. -/
theorem not_intervalRegs {a : Nat} (h : 0x01001c < a ∧ a < 0x290000) : a ∉ intervalRegs := by
  simp only [intervalRegs, measuredRegs, eventRegs, List.mem_append, List.mem_cons, List.not_mem_nil, or_false, not_or,
    Reg.PACE_EVENTS, Reg.PACE_MEAS, Reg.PLAT_STATE, Reg.PACE_STATUS, Reg.EVT_COUNTS, Reg.EVT_STATUS, Reg.NVC_LOG]
  omega

section
variable {s t : State} (h : t.LooksLike s)
include h

theorem State.LooksLike.fld {f : Fld} (ha : 0x01001c < f.addr ∧ f.addr < 0x290000) : t.fld f = s.fld f :=
  State.fld_of_reg (h.regs _ (not_intervalRegs ha))

theorem State.LooksLike.flag {f : Fld} (ha : 0x01001c < f.addr ∧ f.addr < 0x290000) : t.flag f = s.flag f :=
  State.flag_of_fld (h.fld ha)

theorem State.LooksLike.usedBars : t.usedBars = s.usedBars :=
  List.filter_congr fun b hb => h.flag (by
    have := List.mem_range.mp hb
    simp only [Reg.DOSE_BAR_BUF_LINES]
    omega)

theorem State.LooksLike.lowFill : t.lowFill = s.lowFill := by
  have hmap : t.usedBars.map (fun b => t.fld (Reg.DOSE_BAR_CONC_FILL b)) =
      s.usedBars.map (fun b => s.fld (Reg.DOSE_BAR_CONC_FILL b)) := by
    rw [h.usedBars]
    refine List.map_congr_left fun b hb => h.fld ?_
    have := List.mem_range.mp (List.mem_filter.mp hb).1
    simp only [Reg.DOSE_BAR_CONC_FILL]
    omega
  rw [State.lowFill, State.lowFill, hmap]

theorem State.LooksLike.highCapture : t.highCapture = s.highCapture := by
  have hon : (List.range 24).filter (fun p => t.flag (Reg.CAP_CTRL_ENABLE p)) =
      (List.range 24).filter (fun p => s.flag (Reg.CAP_CTRL_ENABLE p)) :=
    List.filter_congr fun p hp => h.flag (by
      have := List.mem_range.mp hp
      simp only [Reg.CAP_CTRL_ENABLE]
      omega)
  rw [State.highCapture, State.highCapture, hon]
  refine List.foldl_ext _ _ _ fun m p hp => congrArg (max m) (h.fld ?_)
  have := List.mem_range.mp (List.mem_filter.mp hp).1
  simp only [Reg.CAP_STATUS_FILL_PCT]
  omega

theorem State.LooksLike.canary {c : Nat} (hc : c < 16) :
    t.flag (Reg.PACE_CANARY_VALID c) = s.flag (Reg.PACE_CANARY_VALID c) ∧
      t.flag (Reg.PACE_CANARY_FAULT c) = s.flag (Reg.PACE_CANARY_FAULT c) ∧
      t.flag (Reg.PACE_CANARY_GATED c) = s.flag (Reg.PACE_CANARY_GATED c) ∧
      t.fld (Reg.PACE_CANARY_SPEED c) = s.fld (Reg.PACE_CANARY_SPEED c) := by
  have ha : 0x01001c < 0x010020 + 0x4 * c ∧ 0x010020 + 0x4 * c < 0x290000 := by omega
  exact ⟨h.flag ha, h.flag ha, h.flag ha, h.fld ha⟩

theorem State.LooksLike.coreSpeed : t.coreSpeed = s.coreSpeed := by
  have hin : (List.range 16).filter (fun c => t.flag (Reg.PACE_CANARY_VALID c) && !t.flag (Reg.PACE_CANARY_FAULT c)
        && !t.flag (Reg.PACE_CANARY_GATED c)) =
      (List.range 16).filter (fun c => s.flag (Reg.PACE_CANARY_VALID c) && !s.flag (Reg.PACE_CANARY_FAULT c)
        && !s.flag (Reg.PACE_CANARY_GATED c)) :=
    List.filter_congr fun c hc => by
      obtain ⟨hv, hf, hg, -⟩ := h.canary (List.mem_range.mp hc)
      rw [hv, hf, hg]
  have hspeed (c : Nat) (hc : c ∈ (List.range 16).filter (fun c => s.flag (Reg.PACE_CANARY_VALID c) &&
        !s.flag (Reg.PACE_CANARY_FAULT c) && !s.flag (Reg.PACE_CANARY_GATED c))) :
      t.fld (Reg.PACE_CANARY_SPEED c) = s.fld (Reg.PACE_CANARY_SPEED c) := by
    obtain ⟨-, -, -, hs⟩ := h.canary (List.mem_range.mp (List.mem_filter.mp hc).1)
    exact hs
  rw [State.coreSpeed, State.coreSpeed, hin]
  split
  · rfl
  · rename_i c cs hl
    rw [hl] at hspeed
    rw [hspeed c List.mem_cons_self, List.map_congr_left fun x hx => hspeed x (List.mem_cons_of_mem _ hx)]

theorem State.LooksLike.webSpeed : t.webSpeed = s.webSpeed := by
  have hm : t.masterEnc = s.masterEnc :=
    List.find?_congr fun e he => h.flag (by
      have := List.mem_range.mp he
      simp only [Reg.POS_CTRL_MASTER]
      omega)
  simp only [State.webSpeed, State.enc, hm, h.motion, h.chain]

theorem State.LooksLike.barRate (b : Nat) : t.barRate b = s.barRate b := by
  have hp : t.hasProf = s.hasProf := by
    funext k
    simp only [State.hasProf, State.board, h.fire]
  simp only [State.barRate, State.barBoards, State.bar, State.prof, State.board, hp, h.fire, h.bars]

theorem State.LooksLike.rateOver : t.rateOver = s.rateOver := by
  have hr : t.lineRate = s.lineRate := by rw [State.lineRate, State.lineRate, h.webSpeed]
  rw [State.rateOver, State.rateOver, h.usedBars, hr]
  exact congrArg s.usedBars.any (funext fun b => by rw [h.barRate])

theorem State.LooksLike.loopSpeed (hj : t.flag Reg.PACE_STATUS_TJ_OVER = s.flag Reg.PACE_STATUS_TJ_OVER) :
    t.loopSpeed = s.loopSpeed := by
  rw [State.loopSpeed, State.loopSpeed, hj, h.coreSpeed]

end

/-! One interval (R37). -/

/-- need of R37: the lowest fill is below CONC_TARGET, or the highest capture fill above CAPFILL_MAX. -/
def State.slackNeed (s : State) : Bool :=
  (s.lowFill.any fun f => decide (f < s.fld Reg.PACE_SLACK_CONC_TARGET)) ||
    decide (s.fld Reg.PACE_SLACK_CAPFILL_MAX < s.highCapture)

/-- easy of R37: both fills are past the dead band. -/
def State.slackEasy (s : State) : Bool :=
  (s.lowFill.all fun f =>
      decide (s.fld Reg.PACE_SLACK_CONC_TARGET + s.fld Reg.PACE_SLACK_CONC_TARGET / 4 ≤ f)) &&
    decide (s.highCapture + 10 ≤ s.fld Reg.PACE_SLACK_CAPFILL_MAX)

/-- The target that an interval computes. -/
def State.nextTarget (s : State) (mode : Nat) : Nat :=
  paceTarget (s.fld Reg.PACE_STATUS_TARGET_MV) mode (paceFloor mode) (s.paceCap mode) (s.fld Reg.PACE_LOOP_STEP_MV)
    s.loopSpeed s.slackNeed s.slackEasy (s.flag Reg.PACE_STATUS_FIT_HOLD)

/-- The first half of an interval: what is measured, the mode in force, the hold of R48. -/
def State.paceRead (s : State) (m : PaceMeas) (mode : Nat) : State :=
  (((s.measure m).readCanaries m.speeds).setFld Reg.PACE_STATUS_MODE_ACT mode).fitWatch mode

/-- The target shown, with what PACE_STATUS says of it. -/
def State.showTarget (s : State) (v cap floor : Nat) (need : Bool) : State :=
  let s := (s.setFld Reg.PACE_STATUS_TARGET_MV v).setFlag Reg.PACE_STATUS_NEED need
  let s := (s.setFlag Reg.PACE_STATUS_AT_CAP (decide (v = cap))).setFlag Reg.PACE_STATUS_AT_FLOOR (decide (v = floor))
  s.showRamp

/-- A shortage at the cap (R40). -/
def State.ceilShort (s : State) : State :=
  (s.setFld Reg.PACE_EVENTS_CEIL_SHORT 1).raiseIf (bitAt (s.fld Reg.PACE_CTRL_EV_EN) 0) 48

/-- The second half: the new target, and a shortage at the cap. -/
def State.retarget (s : State) (mode : Nat) : State :=
  let u := s.showTarget (s.nextTarget mode) (s.paceCap mode) (paceFloor mode) s.slackNeed
  if s.slackNeed && decide (s.paceCap mode ≤ s.fld Reg.PACE_STATUS_TARGET_MV) then u.ceilShort else u

theorem State.readCanaries_fld {s : State} {speeds : List Nat} {f : Fld} (h : f.addr ∉ canaryRegs) :
    (s.readCanaries speeds).fld f = s.fld f := State.fld_of_reg (State.readCanaries_reg h)

/-- The fields that the first half sets, of measurement, mode and hold. -/
def readFlds : List Fld :=
  [Reg.PACE_MEAS_VCORE_MV, Reg.PACE_MEAS_TJ_C, Reg.PACE_MEAS_TJ_MAX_C, Reg.PLAT_STATE_COND, Reg.PACE_STATUS_RAMPING,
    Reg.PACE_STATUS_MODE_ACT, Reg.PACE_STATUS_FIT_HOLD, Reg.PACE_EVENTS_FIT_LOST]

theorem State.measure_fld {s : State} {m : PaceMeas} {f : Fld}
    (h : (readFlds.take 5).all (·.clearOf f) = true) : (s.measure m).fld f = s.fld f := by
  simp only [readFlds, List.take_succ_cons, List.take_zero, List.all_cons, List.all_nil, Bool.and_true,
    Bool.and_eq_true] at h
  obtain ⟨hv, ht, hx, hc, hr⟩ := h
  rw [State.measure_fld_metered hc hr, State.metered_fld hv ht hx]

theorem execPaceInterval_asleep {s : State} (h : s.awake = false) (m : PaceMeas) : execPaceInterval m s = .next s := by
  rw [execPaceInterval, h]
  rfl

theorem State.readings_st (s : State) (m : PaceMeas) : ((s.measure m).readCanaries m.speeds).st = s.st :=
  (State.readCanaries_fld (by decide)).trans (State.measure_fld (by decide))

/-- In BOOTING the loop measures, and the target holds. -/
theorem execPaceInterval_booting {s : State} (hw : s.awake = true) (hst : s.st = stBooting) (m : PaceMeas) :
    execPaceInterval m s = .next ((s.measure m).readCanaries m.speeds) := by
  rw [execPaceInterval, hw]
  exact congrArg Host.Outcome.next (if_pos ((s.readings_st m).trans hst))

theorem execPaceInterval_running {s : State} (hw : s.awake = true) (hst : s.st ≠ stBooting) (m : PaceMeas) :
    execPaceInterval m s =
      .next ((s.paceRead m (s.fld Reg.PACE_CTRL_MODE)).retarget (s.fld Reg.PACE_CTRL_MODE)) := by
  have hmode : ((s.measure m).readCanaries m.speeds).fld Reg.PACE_CTRL_MODE = s.fld Reg.PACE_CTRL_MODE :=
    (State.readCanaries_fld (by decide)).trans (State.measure_fld (by decide))
  have hrun : ¬((s.measure m).readCanaries m.speeds).st = stBooting := fun e => hst ((s.readings_st m).symm.trans e)
  rw [execPaceInterval, hw]
  dsimp only
  rw [hmode]
  exact congrArg Host.Outcome.next (if_neg hrun)

/-! What an interval leaves and shows. -/

/-- The fields that the second half sets. -/
def targetFlds : List Fld :=
  [Reg.PACE_STATUS_TARGET_MV, Reg.PACE_STATUS_NEED, Reg.PACE_STATUS_AT_CAP, Reg.PACE_STATUS_AT_FLOOR,
    Reg.PACE_STATUS_RAMPING, Reg.PACE_EVENTS_CEIL_SHORT]

theorem not_eventRegs_of_not_canaryRegs {a : Nat} (h : a ∉ canaryRegs) : a ∉ eventRegs :=
  fun m => h (List.mem_cons_of_mem _ (List.mem_append_left _ m))

theorem State.paceRead_fld {s : State} {m : PaceMeas} {mode : Nat} {f : Fld} (h : readFlds.all (·.clearOf f) = true)
    (ha : f.addr ∉ canaryRegs) : (s.paceRead m mode).fld f = s.fld f := by
  simp only [readFlds, List.all_cons, List.all_nil, Bool.and_true, Bool.and_eq_true] at h
  obtain ⟨hv, ht, hx, hc, hr, hm, hh, hl⟩ := h
  rw [State.paceRead, State.fitWatch_fld hh hl (not_eventRegs_of_not_canaryRegs ha), State.fld_setFld_clear hm,
    State.readCanaries_fld ha, State.measure_fld_metered hc hr, State.metered_fld hv ht hx]

/-- The readings stand through the rest of the first half. -/
theorem State.paceRead_fld_metered {s : State} {m : PaceMeas} {mode : Nat} {f : Fld}
    (h : (readFlds.drop 3).all (·.clearOf f) = true) (ha : f.addr ∉ canaryRegs) :
    (s.paceRead m mode).fld f = (s.metered m).fld f := by
  simp only [readFlds, List.drop_succ_cons, List.drop_zero, List.all_cons, List.all_nil, Bool.and_true,
    Bool.and_eq_true] at h
  obtain ⟨hc, hr, hm, hh, hl⟩ := h
  rw [State.paceRead, State.fitWatch_fld hh hl (not_eventRegs_of_not_canaryRegs ha), State.fld_setFld_clear hm,
    State.readCanaries_fld ha, State.measure_fld_metered hc hr]

theorem State.paceRead_mode (s : State) (m : PaceMeas) {mode : Nat} (h : mode < 4) :
    (s.paceRead m mode).fld Reg.PACE_STATUS_MODE_ACT = mode := by
  rw [State.paceRead, State.fitWatch_fld (by decide) (by decide) (by decide)]
  exact State.fld_setFld ⟨by decide, by decide⟩ h

theorem State.showTarget_fld {s : State} {v cap floor : Nat} {need : Bool} {f : Fld}
    (h : (targetFlds.take 5).all (·.clearOf f) = true) : (s.showTarget v cap floor need).fld f = s.fld f := by
  simp only [targetFlds, List.take_succ_cons, List.take_zero, List.all_cons, List.all_nil, Bool.and_true,
    Bool.and_eq_true] at h
  obtain ⟨ht, hn, hc, hf, hr⟩ := h
  simp only [State.showTarget, State.showRamp_fld hr, State.fld_setFlag_clear hf, State.fld_setFlag_clear hc,
    State.fld_setFlag_clear hn, State.fld_setFld_clear ht]

/-- What PACE_STATUS says of the target. -/
theorem State.showTarget_reads (s : State) (v cap floor : Nat) (need : Bool) :
    (s.showTarget v cap floor need).fld Reg.PACE_STATUS_TARGET_MV = v % 1024 ∧
      (s.showTarget v cap floor need).fld Reg.PACE_STATUS_NEED = b2n need ∧
      (s.showTarget v cap floor need).fld Reg.PACE_STATUS_AT_CAP = b2n (decide (v = cap)) ∧
      (s.showTarget v cap floor need).fld Reg.PACE_STATUS_AT_FLOOR = b2n (decide (v = floor)) := by
  simp only [State.showTarget]
  refine ⟨?target, ?need, ?cap, ?floor⟩
  case target =>
    rw [State.showRamp_fld (by decide), State.fld_setFlag_clear (by decide), State.fld_setFlag_clear (by decide),
      State.fld_setFlag_clear (by decide)]
    exact State.fld_setFld_self ⟨by decide, by decide⟩
  case need =>
    rw [State.showRamp_fld (by decide), State.fld_setFlag_clear (by decide), State.fld_setFlag_clear (by decide)]
    exact State.fld_setFlag ⟨by decide, by decide⟩ _
  case cap =>
    rw [State.showRamp_fld (by decide), State.fld_setFlag_clear (by decide)]
    exact State.fld_setFlag ⟨by decide, by decide⟩ _
  case floor =>
    rw [State.showRamp_fld (by decide)]
    exact State.fld_setFlag ⟨by decide, by decide⟩ _

theorem State.ceilShort_fld {s : State} {f : Fld} (h : Reg.PACE_EVENTS_CEIL_SHORT.clearOf f = true)
    (hr : f.addr ∉ eventRegs) : s.ceilShort.fld f = s.fld f :=
  (State.raiseIf_fld hr).trans (State.fld_setFld_clear h)

/-- A shortage at the cap shows in its event alone. -/
theorem State.retarget_fld_shown {s : State} {mode : Nat} {f : Fld} (h : Reg.PACE_EVENTS_CEIL_SHORT.clearOf f = true)
    (hr : f.addr ∉ eventRegs) : (s.retarget mode).fld f =
      (s.showTarget (s.nextTarget mode) (s.paceCap mode) (paceFloor mode) s.slackNeed).fld f := by
  rw [State.retarget]
  split
  · exact State.ceilShort_fld h hr
  · rfl

theorem State.retarget_fld {s : State} {mode : Nat} {f : Fld} (h : targetFlds.all (·.clearOf f) = true)
    (hr : f.addr ∉ eventRegs) : (s.retarget mode).fld f = s.fld f := by
  have hall := List.all_eq_true.mp h
  rw [State.retarget_fld_shown (hall _ (by decide)) hr]
  exact State.showTarget_fld (List.all_eq_true.mpr fun g hg => hall g (List.mem_of_mem_take hg))

theorem State.retarget_reads (s : State) (mode : Nat) :
    (s.retarget mode).fld Reg.PACE_STATUS_TARGET_MV = s.nextTarget mode % 1024 ∧
      (s.retarget mode).fld Reg.PACE_STATUS_NEED = b2n s.slackNeed ∧
      (s.retarget mode).fld Reg.PACE_STATUS_AT_CAP = b2n (decide (s.nextTarget mode = s.paceCap mode)) ∧
      (s.retarget mode).fld Reg.PACE_STATUS_AT_FLOOR = b2n (decide (s.nextTarget mode = paceFloor mode)) := by
  have shown {f : Fld} (h : Reg.PACE_EVENTS_CEIL_SHORT.clearOf f = true) (hr : f.addr ∉ eventRegs) :=
    State.retarget_fld_shown (s := s) (mode := mode) h hr
  rw [shown (by decide) (by decide), shown (by decide) (by decide), shown (by decide) (by decide),
    shown (by decide) (by decide)]
  exact State.showTarget_reads ..

/-- PACE_MAX: the target is 900 mV whatever the slack, which is both cap and floor (R37, R43). -/
theorem State.nextTarget_max (s : State) : s.nextTarget 0 = 900 ∧ s.paceCap 0 = 900 ∧ paceFloor 0 = 900 := by
  refine ⟨?_, rfl, rfl⟩
  simp [State.nextTarget, paceTarget, paceFloor]

/-- R37 under PACE_MAX, with the readings of R38 and R42. -/
theorem paceInterval_max {s : State} (m : PaceMeas) (hw : s.awake = true) (hst : s.st ≠ stBooting)
    (hmode : s.fld Reg.PACE_CTRL_MODE = 0) :
    ∃ t, execPaceInterval m s = .next t ∧ t.fld Reg.PACE_STATUS_TARGET_MV = 900 ∧
      t.fld Reg.PACE_STATUS_MODE_ACT = 0 ∧ t.fld Reg.PACE_STATUS_FIT_HOLD = 0 ∧
      t.fld Reg.PACE_STATUS_AT_CAP = 1 ∧ t.fld Reg.PACE_STATUS_AT_FLOOR = 1 ∧
      t.fld Reg.PACE_MEAS_VCORE_MV = min 1023 (s.slewed m.vcore) ∧
      t.fldI Reg.PACE_MEAS_TJ_C = clampInt (-128) 127 m.tj := by
  have e := execPaceInterval_running hw hst m
  rw [hmode] at e
  obtain ⟨htarget, hcap, hfloor⟩ := (s.paceRead m 0).nextTarget_max
  obtain ⟨ht, -, hc, hf⟩ := (s.paceRead m 0).retarget_reads 0
  rw [htarget] at ht hc hf
  rw [hcap] at hc
  rw [hfloor] at hf
  refine ⟨_, e, ht, ?mode, ?hold, hc, hf, ?vcore, ?tj⟩
  case mode => rw [State.retarget_fld (by decide) (by decide), State.paceRead_mode s m (by decide)]
  case hold =>
    rw [State.retarget_fld (by decide) (by decide)]
    exact State.fitWatch_ends (by decide)
  case vcore =>
    rw [State.retarget_fld (by decide) (by decide), State.paceRead_fld_metered (by decide) (by decide), State.metered_vcore]
  case tj =>
    rw [State.fldI_of_fld (State.retarget_fld (by decide) (by decide)),
      State.fldI_of_fld (State.paceRead_fld_metered (by decide) (by decide)), State.metered_tj]

theorem State.bars_of_printUnits {s t : State} (h : t.printUnits = s.printUnits) : t.bars = s.bars :=
  congrArg (fun u => u.2.1) h

theorem State.fire_of_printUnits {s t : State} (h : t.printUnits = s.printUnits) : t.fire = s.fire :=
  congrArg (fun u => u.2.2.1) h

theorem State.motion_of_sensing {s t : State} (h : t.sensing = s.sensing) : t.motion = s.motion :=
  congrArg (fun u => u.2.2.1) h

theorem State.pwr_of_platform {s t : State} (h : t.platform = s.platform) : t.pwr = s.pwr :=
  congrArg (fun u => u.2.2.2.1) h

theorem State.LooksLike.setFld {s : State} {f : Fld} (h : f.addr ∈ intervalRegs) (v : Nat) :
    (s.setFld f v).LooksLike s where
  regs _ ha := State.reg_setFld_other fun e => ha (e ▸ h)
  bars := State.setFld_bars ..
  fire := State.setFld_fire ..
  motion := State.setFld_motion ..
  chain := State.setFld_chain ..

theorem State.LooksLike.trans {s t u : State} (h : u.LooksLike t) (k : t.LooksLike s) : u.LooksLike s where
  regs a ha := (h.regs a ha).trans (k.regs a ha)
  bars := h.bars.trans k.bars
  fire := h.fire.trans k.fire
  motion := h.motion.trans k.motion
  chain := h.chain.trans k.chain

theorem State.measure_looksLike (s : State) (m : PaceMeas) : (s.measure m).LooksLike s where
  regs _ ha := State.measure_reg fun hm => ha (List.mem_cons_of_mem _ (List.mem_append_left _ hm))
  bars := State.bars_of_printUnits (s.measure_printUnits m)
  fire := State.fire_of_printUnits (s.measure_printUnits m)
  motion := State.motion_of_sensing (s.measure_sensing m)
  chain := s.measure_chain m

theorem State.fitWatch_looksLike (s : State) (mode : Nat) : (s.fitWatch mode).LooksLike s where
  regs a ha := by
    simp only [intervalRegs, measuredRegs, List.mem_append, List.mem_cons, List.cons_append, not_or] at ha
    obtain ⟨he, -, -, hs, -, hr⟩ := ha
    exact State.fitWatch_reg hs he hr
  bars := State.bars_of_printUnits (s.fitWatch_printUnits mode)
  fire := State.fire_of_printUnits (s.fitWatch_printUnits mode)
  motion := State.motion_of_sensing (s.fitWatch_sensing mode)
  chain := s.fitWatch_chain mode

/-- Without canary readings, the first half of an interval leaves the loop's view of the press as it was. -/
theorem State.paceRead_looksLike {s : State} {m : PaceMeas} (h : m.speeds = []) (mode : Nat) :
    (s.paceRead m mode).LooksLike s := by
  rw [State.paceRead, h, State.readCanaries_nil]
  exact (State.fitWatch_looksLike ..).trans ((State.LooksLike.setFld (by decide) _).trans (s.measure_looksLike m))

/-- The hold in force after the first half of an interval (R48). -/
theorem State.paceRead_hold {s : State} {m : PaceMeas} (h : m.speeds = []) (mode : Nat) :
    (s.paceRead m mode).flag Reg.PACE_STATUS_FIT_HOLD =
      (decide (mode = 2) && (s.flag Reg.PACE_STATUS_FIT_HOLD || s.rateOver)) := by
  have hl : ((s.measure m).setFld Reg.PACE_STATUS_MODE_ACT mode).LooksLike s :=
    (State.LooksLike.setFld (by decide) _).trans (s.measure_looksLike m)
  have hf : ((s.measure m).setFld Reg.PACE_STATUS_MODE_ACT mode).flag Reg.PACE_STATUS_FIT_HOLD =
      s.flag Reg.PACE_STATUS_FIT_HOLD :=
    State.flag_of_fld ((State.fld_setFld_clear (by decide)).trans (State.measure_fld (by decide)))
  rw [State.paceRead, h, State.readCanaries_nil, State.fitWatch_hold, hf, hl.rateOver]

/-- The slack that the loop sees, where what it looks at and its own settings are the same. -/
theorem State.LooksLike.slack {s t : State} (h : t.LooksLike s)
    (hconc : t.fld Reg.PACE_SLACK_CONC_TARGET = s.fld Reg.PACE_SLACK_CONC_TARGET)
    (hceil : t.fld Reg.PACE_SLACK_CAPFILL_MAX = s.fld Reg.PACE_SLACK_CAPFILL_MAX) :
    t.slackNeed = s.slackNeed ∧ t.slackEasy = s.slackEasy := by
  constructor
  · rw [State.slackNeed, State.slackNeed, h.lowFill, h.highCapture, hconc, hceil]
  · rw [State.slackEasy, State.slackEasy, h.lowFill, h.highCapture, hconc, hceil]

/-- R37 under PACE_MATCH and PACE_FRUGAL without canary readings: the target, need, and the hold of R48. -/
theorem paceInterval_loop {s : State} {m : PaceMeas} {mode : Nat} (hw : s.awake = true) (hst : s.st ≠ stBooting)
    (hmode : s.fld Reg.PACE_CTRL_MODE = mode) (hm : mode = 1 ∨ mode = 2) (hs : m.speeds = []) :
    ∃ t, execPaceInterval m s = .next t ∧
      t.fld Reg.PACE_STATUS_TARGET_MV = paceTarget (s.fld Reg.PACE_STATUS_TARGET_MV) mode (if mode = 1 then 720 else 660)
        (s.fld Reg.PACE_LIMIT_VCAP_MV) (s.fld Reg.PACE_LOOP_STEP_MV) s.loopSpeed s.slackNeed s.slackEasy
        (decide (mode = 2) && (s.flag Reg.PACE_STATUS_FIT_HOLD || s.rateOver)) % 1024 ∧
      t.flag Reg.PACE_STATUS_NEED = s.slackNeed ∧
      t.flag Reg.PACE_STATUS_FIT_HOLD = (decide (mode = 2) && (s.flag Reg.PACE_STATUS_FIT_HOLD || s.rateOver)) ∧
      t.fld Reg.PACE_STATUS_MODE_ACT = mode := by
  have e := execPaceInterval_running hw hst m
  rw [hmode] at e
  have hl := State.paceRead_looksLike (s := s) hs mode
  have kept {f : Fld} (h : readFlds.all (·.clearOf f) = true) (ha : f.addr ∉ canaryRegs) :=
    State.paceRead_fld (s := s) (m := m) (mode := mode) h ha
  obtain ⟨hneed, heasy⟩ := hl.slack (kept (by decide) (by decide)) (kept (by decide) (by decide))
  have hspeed := hl.loopSpeed (State.flag_of_fld (kept (by decide) (by decide)))
  have hcap : (s.paceRead m mode).paceCap mode = s.fld Reg.PACE_LIMIT_VCAP_MV := by
    rw [State.paceCap, if_neg (by omega), kept (by decide) (by decide)]
  have hfloor : paceFloor mode = if mode = 1 then 720 else 660 := by rw [paceFloor, if_neg (by omega)]
  obtain ⟨ht, hn, -, -⟩ := (s.paceRead m mode).retarget_reads mode
  refine ⟨_, e, ?target, ?need, ?hold, ?modeAct⟩
  case target =>
    rw [ht, State.nextTarget, hfloor, hcap, hspeed, hneed, heasy, State.paceRead_hold hs, kept (by decide) (by decide),
      kept (by decide) (by decide)]
  case need =>
    rw [State.flag, hn, hneed]
    cases s.slackNeed <;> rfl
  case hold =>
    rw [State.flag_of_fld (State.retarget_fld (by decide) (by decide)), State.paceRead_hold hs]
  case modeAct =>
    rw [State.retarget_fld (by decide) (by decide), State.paceRead_mode s m (by omega)]

/-- In BOOTING the target holds, and VCORE is measured (R37, R38). -/
theorem paceInterval_booting {s : State} (m : PaceMeas) (hw : s.awake = true) (hst : s.st = stBooting) :
    ∃ t, execPaceInterval m s = .next t ∧
      t.fld Reg.PACE_STATUS_TARGET_MV = s.fld Reg.PACE_STATUS_TARGET_MV ∧
      t.fld Reg.PACE_MEAS_VCORE_MV = min 1023 (s.slewed m.vcore) := by
  refine ⟨_, execPaceInterval_booting hw hst m, ?_, ?_⟩
  · rw [State.readCanaries_fld (by decide), State.measure_fld (by decide)]
  · rw [State.readCanaries_fld (by decide), State.measure_fld_metered (by decide) (by decide), State.metered_vcore]

/-! Temperature and voltage outside C5 (R42). -/

/-- A breach of C5 shows as present and as seen. -/
theorem State.breach_shows (s : State) (block inst : Nat) :
    bitAt ((s.breach 5 block inst).fld Reg.PLAT_STATE_COND) 4 = true ∧
      bitAt ((s.breach 5 block inst).fld Reg.PLAT_COND_SEEN_SEEN) 4 = true := by
  rw [State.breach]
  constructor
  · rw [State.fld_setFld_clear (by decide), State.bitAt_setFld ⟨by decide, by decide⟩ (by decide), bitAt_setBitAt_self]
  · rw [State.bitAt_setFld ⟨by decide, by decide⟩ (by decide), bitAt_setBitAt_self]

theorem State.breach_pwr (s : State) (c block inst : Nat) : (s.breach c block inst).pwr = s.pwr :=
  State.pwr_of_platform (s.breach_platform c block inst [])

/-- Tj above 105 degrees as it is shown, before the breach of C5. -/
def State.tjShown (s : State) (tj : Int) : State :=
  ((s.setFldI Reg.PACE_MEAS_TJ_C (clampInt (-128) 127 tj)).setFld Reg.PACE_STATUS_TJ_OVER 1).setFld
    Reg.PACE_EVENTS_TJ_OVER 1

theorem execTjOver_of_high {s : State} {tj : Int} (h : 105 < tj) (hf : s.flag Reg.PACE_STATUS_TJ_OVER = false) :
    execTjOver tj s =
      .next (((s.tjShown tj).raiseIf (bitAt ((s.tjShown tj).fld Reg.PACE_CTRL_EV_EN) 2) 50).breach 5 0x01 0) :=
  congrArg Host.Outcome.next (if_pos ⟨h, by rw [hf]; rfl⟩)

theorem execTjOver_of_known {s : State} {tj : Int} (h : tj ≤ 105 ∨ s.flag Reg.PACE_STATUS_TJ_OVER = true) :
    execTjOver tj s = .next s := by
  refine congrArg Host.Outcome.next (if_neg fun hc => ?_)
  obtain ⟨hhigh, hoff⟩ := hc
  rcases h with hlow | hon
  · omega
  · rw [hon] at hoff
    exact absurd hoff (by decide)

theorem tjOver_reports {s : State} {tj : Int} (h : 105 < tj) (hf : s.flag Reg.PACE_STATUS_TJ_OVER = false) :
    ∃ t, execTjOver tj s = .next t ∧ t.fld Reg.PACE_STATUS_TJ_OVER = 1 ∧ t.fld Reg.PACE_EVENTS_TJ_OVER = 1 ∧
      bitAt (t.fld Reg.PLAT_STATE_COND) 4 = true ∧ bitAt (t.fld Reg.PLAT_COND_SEEN_SEEN) 4 = true ∧
      t.fldI Reg.PACE_MEAS_TJ_C = min 127 tj := by
  obtain ⟨hcond, hseen⟩ := State.breach_shows
    ((s.tjShown tj).raiseIf (bitAt ((s.tjShown tj).fld Reg.PACE_CTRL_EV_EN) 2) 50) 0x01 0
  refine ⟨_, execTjOver_of_high h hf, ?shown, ?event, hcond, hseen, ?tj⟩
  case shown =>
    rw [State.breach_fld (by decide), State.raiseIf_fld (by decide), State.tjShown, State.fld_setFld_clear (by decide)]
    exact State.fld_setFld ⟨by decide, by decide⟩ (by decide)
  case event =>
    rw [State.breach_fld (by decide), State.raiseIf_fld (by decide), State.tjShown]
    exact State.fld_setFld ⟨by decide, by decide⟩ (by decide)
  case tj =>
    rw [State.fldI_of_fld (State.breach_fld (by decide)), State.fldI_of_fld (State.raiseIf_fld (by decide)), State.tjShown,
      State.fldI_of_fld (State.fld_setFld_clear (by decide)), State.fldI_of_fld (State.fld_setFld_clear (by decide)),
      State.fldI_setTj, clampInt_of_high (by omega)]

/-- Tj back at 105 degrees or less as it is shown. -/
def State.tjEnded (s : State) (tj : Int) : State :=
  (s.setFldI Reg.PACE_MEAS_TJ_C (clampInt (-128) 127 tj)).setFld Reg.PACE_STATUS_TJ_OVER 0

theorem State.mendC5_cond {s : State} (h : s.fld Reg.PACE_STATUS_TJ_OVER = 0) :
    bitAt (s.mendC5.fld Reg.PLAT_STATE_COND) 4 = (s.pwr.vlow && bitAt (s.fld Reg.PLAT_STATE_COND) 4) := by
  have hj : s.flag Reg.PACE_STATUS_TJ_OVER = false := by rw [State.flag, h]; rfl
  rw [State.mendC5, hj, Bool.false_or]
  cases s.pwr.vlow
  · exact (State.bitAt_setFld ⟨by decide, by decide⟩ (by decide)).trans (bitAt_clearBitAt_self ..)
  · rfl

theorem tjOverEnd_mends {s : State} {tj : Int} (h : tj ≤ 105) :
    ∃ t, execTjOverEnd tj s = .next t ∧ t.fld Reg.PACE_STATUS_TJ_OVER = 0 ∧
      bitAt (t.fld Reg.PLAT_STATE_COND) 4 = (s.pwr.vlow && bitAt (s.fld Reg.PLAT_STATE_COND) 4) ∧
      t.fld Reg.PLAT_COND_SEEN_SEEN = s.fld Reg.PLAT_COND_SEEN_SEEN := by
  have e : execTjOverEnd tj s = .next (s.tjEnded tj).mendC5 := congrArg Host.Outcome.next (if_neg (by omega))
  have hover : (s.tjEnded tj).fld Reg.PACE_STATUS_TJ_OVER = 0 := State.fld_setFld ⟨by decide, by decide⟩ (by decide)
  have kept {f : Fld} (ho : Reg.PACE_STATUS_TJ_OVER.clearOf f = true) (hm : Reg.PACE_MEAS_TJ_C.clearOf f = true) :
      (s.tjEnded tj).fld f = s.fld f := (State.fld_setFld_clear ho).trans (State.fld_setFldI_clear hm)
  have hpwr : (s.tjEnded tj).pwr = s.pwr := (State.setFld_pwr ..).trans (State.setFldI_pwr ..)
  refine ⟨_, e, ?shown, ?cond, ?seen⟩
  case shown => rw [State.mendC5_fld (by decide), hover]
  case cond => rw [State.mendC5_cond hover, hpwr, kept (by decide) (by decide)]
  case seen => rw [State.mendC5_fld (by decide), kept (by decide) (by decide)]

theorem vcoreLow_reports (s : State) :
    ∃ t, execVcoreLow s = .next t ∧ t.fld Reg.PACE_EVENTS_VCORE_LOW = 1 ∧ t.pwr.vlow = true ∧
      bitAt (t.fld Reg.PLAT_STATE_COND) 4 = true ∧ bitAt (t.fld Reg.PLAT_COND_SEEN_SEEN) 4 = true := by
  refine ⟨_, rfl, ?event, ?vlow, State.breach_shows ..⟩
  case event =>
    rw [State.breach_fld (by decide), State.fld_of_regs (State.withPwr_regs ..)]
    exact State.fld_setFld ⟨by decide, by decide⟩ (by decide)
  case vlow => rw [State.breach_pwr]

/-! The end of the hold (R48). -/

theorem fitReturn_ends {s : State} (h : s.rateWithin = true) :
    ∃ t, execFitReturn s = .next t ∧ t.fld Reg.PACE_STATUS_FIT_HOLD = 0 ∧
      ∀ a, a ≠ Reg.PACE_STATUS → t.reg a = s.reg a :=
  ⟨_, congrArg Host.Outcome.next (if_pos h), State.fld_setFld ⟨by decide, by decide⟩ (by decide),
    fun _ ha => State.reg_setFld_other ha⟩

theorem fitReturn_of_over {s : State} (h : s.rateOver = true) : execFitReturn s = .next s :=
  congrArg Host.Outcome.next (if_neg (by rw [State.rateWithin, h]; decide))

/-- Settles O52: an interval in its two halves, and the breaches of C5. -/
theorem paceCommandsComplete : Obligations.PaceCommandsComplete := by
  refine ⟨?max, ?loop, ?booting, ?asleep, ?fitReturn, ?fitOver, ?tjOver, ?tjKnown, ?tjEnd, ?tjStays, ?vcoreLow⟩
  case max => exact fun s m hw hst hmode => paceInterval_max m hw hst hmode
  case loop =>
    rintro s m mode need easy hold hw hst hmode hm hs rfl rfl rfl
    exact paceInterval_loop hw hst hmode hm hs
  case booting => exact fun s m hw hst => paceInterval_booting m hw hst
  case asleep => exact fun s m h => execPaceInterval_asleep h m
  case fitReturn => exact fun s h => fitReturn_ends h
  case fitOver => exact fun s h => fitReturn_of_over h
  case tjOver => exact fun s tj h hf => tjOver_reports h hf
  case tjKnown => exact fun s tj h => execTjOver_of_known h
  case tjEnd => exact fun s tj h => tjOverEnd_mends h
  case tjStays => exact fun s tj h => congrArg Host.Outcome.next (if_pos h)
  case vcoreLow => exact vcoreLow_reports

end Sys2Proof.Machine

/-! SUPPORT. Sharing (R50 to R78): what the operations of locks and arbiters leave of the registers, of the locks and of
the command unit, and what their commands come to. -/
namespace Sys2Proof.Machine

/-! Answers: the tag slots, and what an answer alone leaves. -/

theorem State.session_setSession (s : State) (n m : Nat) (x : Session) :
    (s.setSession n x).session m = if m = n then x else s.session m := tabGet_put

theorem State.slot_setSlot_other {s : State} {n t a b : Nat} {x : Slot} (h : a ≠ n ∨ b ≠ t) :
    (s.setSlot n t x).slot a b = s.slot a b := by
  rw [State.setSlot, State.slot, State.session_setSession]
  split
  case isTrue e => rw [tabGet_put_other (h.neg_resolve_left e), State.slot, e]
  case isFalse => rfl

theorem State.slot_finish_other {s : State} {rq : Rq} {op status a b : Nat} {payload : List Byte} {more : Bool}
    (h : a ≠ rq.sess ∨ b ≠ rq.tag) : (s.finish rq op status payload more).slot a b = s.slot a b := by
  rw [State.finish, State.complete]
  split
  · rfl
  · dsimp only
    generalize (rq.needReply || status != scDone || _) = go
    split
    · rw [State.slot_of_sessions (State.deliver_sessions ..), State.slot_setSlot_other h]
    · exact State.slot_setSlot_other h

theorem State.lift_slot (s : State) (n t a b : Nat) : (s.lift n t).slot a b = s.slot a b :=
  State.slot_of_sessions (State.lift_sessions ..) a b

theorem State.vacate_slot (s : State) (n t a b : Nat) : (s.vacate n t).slot a b = s.slot a b :=
  (State.lift_slot ..).trans rfl

theorem State.sessOpen_of_cmd {t u : State} (h : t.cmd = u.cmd) (n : Nat) : t.sessOpen n = u.sessOpen n := by
  rw [State.sessOpen, State.sessKind, State.session, h]
  rfl

theorem State.slot_of_cmd {t u : State} (h : t.cmd = u.cmd) (a b : Nat) : t.slot a b = u.slot a b :=
  State.slot_of_sessions (by rw [h]) a b

/-- Same parts beside the answer's, and same registers beside the answer's: nothing has changed but an answer. -/
theorem State.onlyAnswered_of_rest {s t : State} (h : t.rest = s.rest)
    (hr : ∀ a, a ∉ answerRegs → t.reg a = s.reg a) : s.onlyAnswered t :=
  ⟨congrArg (fun u : State =>
    { u with
      regs := s.regs, outbox := s.outbox, cmd := s.cmd, chain := s.chain, lanes := s.lanes, msix := s.msix }) h, hr⟩

section

variable {u : State} {rq : Rq} {op st : Nat} {pl : List Byte}

theorem State.finish_lift_answered (h : u.sessOpen rq.sess = true) (n t : Nat) :
    ((u.finish rq op st pl).lift n t).answered rq op st pl = true := by
  rw [State.lift_answered, State.finish_answered h]

theorem State.finish_lift_reg {a : Nat} (h : a ∉ answerRegs) (n t : Nat) :
    ((u.finish rq op st pl).lift n t).reg a = u.reg a := by
  rw [State.lift_reg (ne_platState_of h), State.finish_reg (quietAddr_of h)]

theorem State.finish_lift_rest (n t : Nat) : ((u.finish rq op st pl).lift n t).rest = u.rest := by
  rw [State.lift_rest, State.finish_rest]

end

/-- A command that does nothing but answer changes nothing but the answer. -/
theorem State.onlyAnswered_finish (s : State) (rq : Rq) (op st : Nat) (pl : List Byte) :
    s.onlyAnswered (((s.take rq).finish rq op st pl).lift rq.sess rq.tag) :=
  State.onlyAnswered_of_rest (State.finish_lift_rest ..) fun _ h => State.finish_lift_reg h ..

theorem State.slotOpen_iff {s : State} {sess tag : Nat} : s.slotOpen sess tag = true ↔
    s.sessOpen sess = true ∧ (s.slot sess tag).taken = true ∧ (s.slot sess tag).done = false := by
  rw [State.slotOpen, Bool.and_eq_true, Bool.and_eq_true, Bool.not_eq_true', and_assoc]

theorem State.slotDone_iff {s : State} {sess tag st : Nat} {pl : List Byte} : s.slotDone sess tag st pl = true ↔
    (s.slot sess tag).taken = true ∧ (s.slot sess tag).done = true ∧ (s.slot sess tag).status = st ∧
      (s.slot sess tag).payload = pl := by
  rw [State.slotDone, Bool.and_eq_true, Bool.and_eq_true, Bool.and_eq_true, beq_iff_eq, beq_iff_eq, and_assoc, and_assoc]

/-- The command under way in a tag slot, as the slot knows it. -/
def Slot.rq (x : Slot) (sess tag : Nat) : Rq := { sess, tag, seq := x.seq, needReply := x.needReply }

theorem State.finishSlot_of_slotOpen {s : State} {sess tag : Nat} (h : s.slotOpen sess tag = true) (st : Nat)
    (pl : List Byte) : s.finishSlot sess tag st pl =
      s.finish ((s.slot sess tag).rq sess tag) (s.slot sess tag).opcode st pl := by
  obtain ⟨-, ht, hd⟩ := State.slotOpen_iff.mp h
  exact if_pos (by rw [ht, hd]; rfl)

/-- The completion of a command under way stands in its tag slot (R83). -/
theorem State.finishSlot_done {s : State} {sess tag : Nat} (h : s.slotOpen sess tag = true) (st : Nat)
    (pl : List Byte) : (s.finishSlot sess tag st pl).slotDone sess tag st pl = true := by
  have ho : s.sessOpen sess = true := (State.slotOpen_iff.mp h).1
  have ha : (s.finish ((s.slot sess tag).rq sess tag) (s.slot sess tag).opcode st pl).answered
      ((s.slot sess tag).rq sess tag) (s.slot sess tag).opcode st pl = true := State.finish_answered ho
  simp only [State.answered, Slot.rq, Bool.and_eq_true] at ha
  obtain ⟨⟨⟨⟨⟨⟨ht, hd⟩, -⟩, -⟩, hs⟩, hp⟩, -⟩ := ha
  rw [State.finishSlot_of_slotOpen h]
  exact State.slotDone_iff.mpr ⟨ht, hd, eq_of_beq hs, eq_of_beq hp⟩

theorem State.finishSlot_rest (s : State) (sess tag st : Nat) (pl : List Byte) :
    (s.finishSlot sess tag st pl).rest = s.rest := by
  rw [State.finishSlot]
  split
  · exact State.complete_rest ..
  · rfl

/-! A command that a packet brings, and its refusals (R74, R81). -/

/-- Each of them runs by steps 12 to 15 of Table 04-3, with a body of its own. -/
theorem exec_of_request {c : Instr} {rq : Rq} {op : Nat} {doms : List Domain} (h : request c = some (rq, op, doms))
    (s : State) : ∃ body, exec c s = .next (s.runIn rq op doms body) := by
  unfold request at h
  split at h <;> cases h <;> exact ⟨_, rfl⟩

/-- A command under LOCKED whose session does not hold the lock it names (R74). -/
theorem State.runIn_without_lock {s : State} {rq : Rq} {op k : Nat} {doms : List Domain} (body : State → State)
    (hh : s.held rq op doms = false) (ha : acceptedIn op s.st = true) (hl : rq.lock = some k)
    (hk : s.holdsLock rq.sess k = false) : s.runIn rq op doms body =
      ((s.take rq).finish rq op scLockedByOther (leBytes 2 (s.lockOwnerCode k))).lift rq.sess rq.tag := by
  have hst : (s.take rq).st = s.st := rfl
  have hown : (s.take rq).holdsLock rq.sess k = false := hk
  rw [State.runIn, hh, if_neg (by decide)]
  dsimp only
  rw [hst, ha, if_neg (by decide), hl]
  dsimp only
  rw [hown]
  rfl

/-- An illegal first field answers BAD_PARAM at its offset, whatever the later ones hold. -/
theorem State.withParams_first_bad {s : State} {rq : Rq} {op o : Nat} {fields : List (Nat × Bool)}
    (body : State → State) (hr : s.reservedAt rq = none) (ho : ∀ f ∈ fields, o ≤ f.1) :
    s.withParams rq op ((o, false) :: fields) body = s.badParam rq op o := by
  have hmin : ((fields.filter fun f => !f.2).map Prod.fst).foldl min o = o := by
    refine List.foldlRecOn (motive := fun m => m = o) _ _ rfl fun m hm p hp => ?_
    obtain ⟨f, hf, rfl⟩ := List.mem_map.mp hp
    rw [hm, Nat.min_eq_left (ho f (List.mem_of_mem_filter hf))]
  rw [State.withParams, hr]
  exact congrArg (s.badParam rq op) hmin

/-! A lock's register and record. -/

theorem Fld.fits_of_decide {f : Fld} (h : decide (f.lo ≤ f.hi ∧ f.hi < 32) = true) : f.fits :=
  of_decide_eq_true (p := f.lo ≤ f.hi ∧ f.hi < 32) h

/-- Two fields of one register, by their bits. -/
theorem Fld.clearOf_of_bits {f g : Fld}
    (hb : decide ((f.lo ≤ f.hi ∧ f.hi < 32) ∧ (g.lo ≤ g.hi ∧ g.hi < 32) ∧ (g.hi < f.lo ∨ f.hi < g.lo)) = true) :
    f.clearOf g = true :=
  let ⟨hf, hg, hd⟩ := of_decide_eq_true hb
  decide_eq_true ⟨hf, hg, .inr hd⟩

theorem Reg.lock_not_answerRegs {k : Nat} (hk : k < 64) : Reg.LOCK k ∉ answerRegs := by
  simp only [answerRegs, Reg.LOCK, Reg.PLAT_STATE, Reg.CMD_STATUS, Reg.ETH_CNT_FRAMES, List.mem_cons, List.not_mem_nil,
    or_false, not_or]
  omega

theorem Reg.lock_not_eventRegs {k : Nat} (hk : k < 64) : Reg.LOCK k ∉ eventRegs :=
  fun m => Reg.lock_not_breachRegs hk (List.mem_append_left _ m)

theorem State.lock_of_locks {t u : State} (h : t.locks = u.locks) (k : Nat) : t.lock k = u.lock k := by
  rw [State.lock, h, State.lock]

theorem State.lockHeldBy_iff {s : State} {e : Bool} {c k : Nat} : s.lockHeldBy e c k = true ↔
    s.fld (Reg.LOCK_STATE k) = 1 ∧ s.fld (Reg.LOCK_OWNER_KIND k) = b2n e ∧ s.fld (Reg.LOCK_OWNER k) = c := by
  rw [State.lockHeldBy, Bool.and_eq_true, Bool.and_eq_true, decide_eq_true_eq, decide_eq_true_eq, decide_eq_true_eq,
    and_assoc, State.lockState]

theorem State.holdsLock_eq (s : State) (n k : Nat) : s.holdsLock n k = s.lockHeldBy false n k := (rfl)

/-- Holding a lock is the register's word. -/
theorem State.lockHeldBy_of_reg {t u : State} {k : Nat} (h : t.reg (Reg.LOCK k) = u.reg (Reg.LOCK k)) (e : Bool)
    (c : Nat) : t.lockHeldBy e c k = u.lockHeldBy e c k := by
  have hf {f : Fld} (ha : f.addr = Reg.LOCK k) : t.fld f = u.fld f := State.fld_of_reg (by rw [ha, h])
  rw [Bool.eq_iff_iff, State.lockHeldBy_iff, State.lockHeldBy_iff, hf (f := Reg.LOCK_STATE k) rfl,
    hf (f := Reg.LOCK_OWNER_KIND k) rfl, hf (f := Reg.LOCK_OWNER k) rfl]

/-- A lock held at or above `k` breaks the order of R71 for `k`. -/
theorem State.lockOrderOk_of_held {s : State} {e : Bool} {c j k : Nat} (hj : j < 64) (hle : k ≤ j)
    (h : s.lockHeldBy e c j = true) : s.lockOrderOk e c k = false :=
  List.all_eq_false.mpr ⟨j, List.mem_range.mpr hj, by simp [h, Nat.not_lt.mpr hle]⟩

@[simp] theorem State.setLock_lock (s : State) (k : Nat) (x : LockX) : (s.setLock k x).lock k = x := tabGet_put_self

theorem State.setLock_reg {s : State} {k a : Nat} {x : LockX} (h : a ≠ Reg.LOCK k) :
    (s.setLock k x).reg a = s.reg a := (State.reg_setFld_other h).trans rfl

theorem State.setLock_fld {s : State} {k : Nat} {x : LockX} {f : Fld}
    (h : (Reg.LOCK_WAITERS k).clearOf f = true) : (s.setLock k x).fld f = s.fld f :=
  (State.fld_setFld_clear h).trans rfl

@[simp] theorem State.setLock_cmd (s : State) (k : Nat) (x : LockX) : (s.setLock k x).cmd = s.cmd := (rfl)
@[simp] theorem State.setLock_outbox (s : State) (k : Nat) (x : LockX) : (s.setLock k x).outbox = s.outbox := (rfl)
@[simp] theorem State.setLock_now (s : State) (k : Nat) (x : LockX) : (s.setLock k x).now = s.now := (rfl)

@[simp] theorem State.lockKeep_cmd (s : State) (k : Nat) (ws : List LockWait) : (s.lockKeep k ws).cmd = s.cmd :=
  State.setLock_cmd ..

/-! A grant (R72): the register names the owner, and the record the tick. -/

theorem State.lockOwn_heldBy (s : State) (k : Nat) (e : Bool) {c : Nat} (hc : c < 256) :
    (s.lockOwn k e c).lockHeldBy e c k = true := by
  rw [State.lockHeldBy_iff, State.lockOwn]
  refine ⟨?state, ?kind, ?owner⟩
  case state =>
    rw [State.setLock_fld (Fld.clearOf_of_bits (by rfl)), State.fld_setFld_clear (Fld.clearOf_of_bits (by rfl)),
      State.fld_setFld_clear (Fld.clearOf_of_bits (by rfl))]
    exact State.fld_setFld (f := Reg.LOCK_STATE k) (Fld.fits_of_decide rfl) (by decide : 1 < 2 ^ 2)
  case kind =>
    rw [State.setLock_fld (Fld.clearOf_of_bits (by rfl)), State.fld_setFld_clear (Fld.clearOf_of_bits (by rfl))]
    exact State.fld_setFld (f := Reg.LOCK_OWNER_KIND k) (Fld.fits_of_decide rfl) (by cases e <;> decide : b2n e < 2 ^ 1)
  case owner =>
    rw [State.setLock_fld (Fld.clearOf_of_bits (by rfl))]
    exact State.fld_setFld (f := Reg.LOCK_OWNER k) (Fld.fits_of_decide rfl) hc

theorem State.lockOwn_reg {s : State} {k a : Nat} {e : Bool} {c : Nat} (h : a ≠ Reg.LOCK k) :
    (s.lockOwn k e c).reg a = s.reg a :=
  (State.setLock_reg h).trans ((State.reg_setFld_other h).trans ((State.reg_setFld_other h).trans
    (State.reg_setFld_other h)))

theorem State.lockGive_heldBy (s : State) (k input : Nat) (e : Bool) {c : Nat} (hc : c < 256) :
    (s.lockGive k input e c).lockHeldBy e c k = true := State.lockOwn_heldBy _ k e hc

theorem State.lockGive_since (s : State) (k input : Nat) (e : Bool) (c : Nat) :
    ((s.lockGive k input e c).lock k).since = s.now := by
  rw [State.lockGive, State.lockOwn, State.setLock_lock]
  simp only [State.setFld_now, State.setLock_now]

theorem State.lockGive_reg {s : State} {k input a : Nat} {e : Bool} {c : Nat} (h : a ≠ Reg.LOCK k) :
    (s.lockGive k input e c).reg a = s.reg a := (State.lockOwn_reg h).trans (State.setLock_reg h)

@[simp] theorem State.lockGive_cmd (s : State) (k input : Nat) (e : Bool) (c : Nat) :
    (s.lockGive k input e c).cmd = s.cmd := by
  simp only [State.lockGive, State.lockOwn, State.setLock_cmd, State.setFld_cmd]

@[simp] theorem State.lockGive_outbox (s : State) (k input : Nat) (e : Bool) (c : Nat) :
    (s.lockGive k input e c).outbox = s.outbox := by
  simp only [State.lockGive, State.lockOwn, State.setLock_outbox, State.setFld_outbox]

/-! A break point of a lock that nobody waits for (R72). -/

/-- The lock arbiter, with nothing to grant, idles. -/
def LockX.idled (x : LockX) : LockX := { x with arb := x.arb.grant (fun _ => 16) (lockReqs x.waiters) }

theorem State.lockPass_idle {s : State} {k : Nat} (h : (s.lock k).waiters = []) (idle : Nat) (prior : Option Nat) :
    s.lockPass k idle prior = (s.setLock k (s.lock k).idled).setFld (Reg.LOCK_STATE k) idle := by
  have hw (g : Option (Nat × Nat)) : g.bind (fun g => (s.lock k).waiters.find? (·.isGrant g)) = none := by
    rw [h]
    cases g <;> rfl
  rw [State.lockPass]
  dsimp only
  rw [hw]
  rfl

section

variable {s : State} {k idle : Nat} {prior : Option Nat} (hw : (s.lock k).waiters = [])
include hw

theorem State.lockPass_idle_state (hi : idle < 4) : (s.lockPass k idle prior).fld (Reg.LOCK_STATE k) = idle := by
  rw [State.lockPass_idle hw]
  exact State.fld_setFld (f := Reg.LOCK_STATE k) (Fld.fits_of_decide rfl) hi

theorem State.lockPass_idle_breaks :
    (s.lockPass k idle prior).fld (Reg.LOCK_BREAKS k) = s.fld (Reg.LOCK_BREAKS k) := by
  rw [State.lockPass_idle hw, State.fld_setFld_clear (Fld.clearOf_of_bits (by rfl)),
    State.setLock_fld (Fld.clearOf_of_bits (by rfl))]

theorem State.lockPass_idle_reg {a : Nat} (h : a ≠ Reg.LOCK k) : (s.lockPass k idle prior).reg a = s.reg a := by
  rw [State.lockPass_idle hw]
  exact (State.reg_setFld_other h).trans (State.setLock_reg h)

theorem State.lockPass_idle_cmd : (s.lockPass k idle prior).cmd = s.cmd := by
  rw [State.lockPass_idle hw, State.setFld_cmd, State.setLock_cmd]

theorem State.lockPass_idle_outbox : (s.lockPass k idle prior).outbox = s.outbox := by
  rw [State.lockPass_idle hw, State.setFld_outbox, State.setLock_outbox]

end

/-- A break that nobody waits for leaves the lock BROKEN and counts it (Table 03-3). -/
theorem State.lockBreak_idle {s : State} {k : Nat} (hk : k < 64) (hw : (s.lock k).waiters = []) :
    (s.lockBreak k).fld (Reg.LOCK_STATE k) = 2 ∧
      (s.lockBreak k).fld (Reg.LOCK_BREAKS k) = min (s.fld (Reg.LOCK_BREAKS k) + 1) 255 := by
  rw [State.lockBreak]
  generalize hu : ((s.bump (Reg.LOCK_BREAKS k)).log1 0x40 0x03 k 0 [s.lockOwnerCode k]).raise 52 = u
  have hlocks : u.locks = s.locks := by rw [← hu, State.raise_locks, State.log1_locks, State.bump_locks]
  have hl : (u.lock k).waiters = [] := by rw [State.lock_of_locks hlocks, hw]
  refine ⟨State.lockPass_idle_state hl (by decide), ?_⟩
  rw [State.lockPass_idle_breaks hl, ← hu, State.raise_fld (Reg.lock_not_eventRegs hk),
    State.log1_fld (Reg.lock_not_eventRegs hk)]
  exact State.fld_setFld (f := Reg.LOCK_BREAKS k) (Fld.fits_of_decide rfl) (Nat.lt_succ_of_le (Nat.min_le_right ..))

theorem State.breachOnce_seen (s : State) {c : Nat} (block inst : Nat) (hc : c - 1 < Reg.PLAT_COND_SEEN_SEEN.width) :
    bitAt ((s.breachOnce c block inst).fld Reg.PLAT_COND_SEEN_SEEN) (c - 1) = true := by
  rw [State.breachOnce, State.mend, State.fld_setFld_clear (by decide), State.breach,
    State.bitAt_setFld ⟨by decide, by decide⟩ hc, bitAt_setBitAt_self]

/-! LOCK_ACQUIRE (R70 to R73). -/

section

variable {s : State} {rq : Rq} {k w : Nat}

/-- A session that holds a lock at or above the one it asks for: BAD_PARAM at the lock's number (R71). -/
theorem execLockAcquire_order {j : Nat} (h : s.ready rq 0x0020 = true) (hj : j < 64) (hle : k ≤ j)
    (hh : s.lockHeldBy false rq.sess j = true) : execLockAcquire rq k w s =
      .next (((s.take rq).finish rq 0x0020 scBadParam (badParamAt (rqOff rq 16))).lift rq.sess rq.tag) := by
  have ho : (s.take rq).lockOrderOk false rq.sess k = false := State.lockOrderOk_of_held hj hle hh
  rw [execLockAcquire, State.run_ready _ h, ho, Bool.and_false,
    State.withParams_first_bad _ (State.ready_reserved h) (by simp)]
  rfl

variable (h : s.ready rq 0x0020 = true) (hk : k < 56) (ho : s.lockOrderOk false rq.sess k = true) (hw : w ≤ 1000)

include hk ho hw in
theorem lockAcquire_operands :
    ∀ f ∈ [(16, decide (k < 56) && (s.take rq).lockOrderOk false rq.sess k), (18, decide (w ≤ 1000))], f.2 = true := by
  have ho' : (s.take rq).lockOrderOk false rq.sess k = true := ho
  simp [hk, ho', hw]

include h hk ho hw

theorem execLockAcquire_free (e : s.lockState k = 0) : execLockAcquire rq k w s =
    .next ((((s.take rq).lockGive k 5 false rq.sess).finish rq 0x0020 scDone (leBytes 2 0xFFFF)).lift rq.sess rq.tag) := by
  have hst : (s.take rq).lockState k = 0 := e
  rw [execLockAcquire, State.run_ready _ h,
    State.withParams_ok _ (State.ready_reserved h) (lockAcquire_operands hk ho hw), hst]
  rfl

theorem execLockAcquire_broken (e : s.lockState k = 2) : execLockAcquire rq k w s =
    .next ((((s.take rq).lockGive k 5 false rq.sess).finish rq 0x0020 scLockBrokenPrior
      (leBytes 2 (s.lockPriorCode k))).lift rq.sess rq.tag) := by
  have hst : (s.take rq).lockState k = 2 := e
  rw [execLockAcquire, State.run_ready _ h,
    State.withParams_ok _ (State.ready_reserved h) (lockAcquire_operands hk ho hw), hst]
  rfl

theorem execLockAcquire_held (e : s.lockState k = 1) (hz : w ≠ 0) : execLockAcquire rq k w s =
    .next ((((s.take rq).pend rq 0x0020).setLock k { s.lock k with
      waiters := (s.lock k).waiters ++ [⟨5, false, rq.sess, rq.tag, some (s.now + ticksOfMs w)⟩] }).lift rq.sess rq.tag) := by
  have hst : (s.take rq).lockState k = 1 := e
  rw [execLockAcquire, State.run_ready _ h,
    State.withParams_ok _ (State.ready_reserved h) (lockAcquire_operands hk ho hw), hst]
  exact congrArg (fun u : State => Host.Outcome.next (u.lift rq.sess rq.tag)) (if_neg hz)

end

/-! What an acquired lock and a waiting request leave. -/

section

variable {s : State} {rq : Rq} {k st : Nat} {pl : List Byte}

/-- A grant to the session, as it stands once the command has been answered. -/
theorem lockAcquire_granted (h : s.ready rq 0x0020 = true) (hk : k < 64) (hs : rq.sess < 16) :
    let t := (((s.take rq).lockGive k 5 false rq.sess).finish rq 0x0020 st pl).lift rq.sess rq.tag
    t.answered rq 0x0020 st pl = true ∧ t.holdsLock rq.sess k = true ∧ (t.lock k).since = s.now ∧
      ∀ a, a ∉ answerRegs → a ≠ Reg.LOCK k → t.reg a = s.reg a := by
  refine ⟨?answered, ?holds, ?since, ?frame⟩
  case answered =>
    exact State.finish_lift_answered ((State.sessOpen_of_cmd (State.lockGive_cmd ..) _).trans (State.ready_open h)) ..
  case holds =>
    rw [State.holdsLock_eq, State.lockHeldBy_of_reg (State.finish_lift_reg (Reg.lock_not_answerRegs hk) ..)]
    exact State.lockGive_heldBy _ k 5 false (by omega)
  case since =>
    rw [State.lock_of_locks (State.rest_locks (State.finish_lift_rest ..)), State.lockGive_since, State.take_now]
  case frame =>
    intro a ha hl
    rw [State.finish_lift_reg ha, State.lockGive_reg hl, State.reg_of_regs (State.take_regs ..)]

theorem lockAcquire_waits (h : s.ready rq 0x0020 = true) (x : LockX) :
    let t := (((s.take rq).pend rq 0x0020).setLock k x).lift rq.sess rq.tag
    t.unanswered rq 0x0020 = true ∧ t.lock k = x := by
  refine ⟨?unanswered, ?record⟩
  case unanswered =>
    rw [State.lift_unanswered, State.unanswered, State.slot_of_cmd (State.setLock_cmd ..)]
    exact State.pend_unanswered (State.ready_open h)
  case record =>
    rw [State.lock_of_locks (State.rest_locks (State.lift_rest ..)), State.setLock_lock]

end

/-! LOCK_RELEASE, LOCK_WAIT_TIMEOUT and LOCK_HOLD_EXPIRY (R72, R73). -/

theorem execLockRelease_own {s : State} {rq : Rq} {k : Nat} (h : s.ready rq 0x0021 = true) (hk : k < 64)
    (ho : s.holdsLock rq.sess k = true) : execLockRelease rq k s =
      .next ((((s.take rq).lockFree k).finish rq 0x0021 scDone).lift rq.sess rq.tag) := by
  have ho' : (s.take rq).holdsLock rq.sess k = true := ho
  have hst : (s.take rq).lockState k = 1 := (State.lockHeldBy_iff.mp ((State.holdsLock_eq ..).symm.trans ho')).1
  have hop : ∀ f ∈ [(16, decide (k < 64) && decide ((s.take rq).lockState k = 1))], f.2 = true := by simp [hk, hst]
  rw [execLockRelease, State.run_ready _ h, State.withParams_ok _ (State.ready_reserved h) hop, if_pos ho']

/-- The release of a lock that nobody waits for. -/
theorem lockRelease_frees {s : State} {rq : Rq} {k : Nat} (h : s.ready rq 0x0021 = true) (hk : k < 64)
    (ho : s.holdsLock rq.sess k = true) (hw : (s.lock k).waiters = []) :
    ∃ t, execLockRelease rq k s = .next t ∧ t.answered rq 0x0021 scDone [] = true ∧ t.fld (Reg.LOCK_STATE k) = 0 := by
  have hw' : ((s.take rq).lock k).waiters = [] := hw
  refine ⟨_, execLockRelease_own h hk ho, ?answered, ?free⟩
  case answered =>
    refine State.finish_lift_answered ?_ ..
    exact (State.sessOpen_of_cmd (State.lockPass_idle_cmd hw') _).trans (State.ready_open h)
  case free =>
    rw [State.fld_of_reg (State.finish_lift_reg (Reg.lock_not_answerRegs hk) ..)]
    exact State.lockPass_idle_state hw' (by decide)

/-- The request that expires is answered LOCKED_BY_OTHER and withdrawn (R73). -/
theorem lockWaitTimeout_withdraws {s : State} {k n : Nat} {w : LockWait}
    (h : firstToExpire n (s.lock k).waiters = some w) (ho : s.slotOpen n w.tag = true) :
    ∃ t, execLockWaitTimeout k n s = .next t ∧
      t.slotDone n w.tag scLockedByOther (leBytes 2 (s.lockOwnerCode k)) = true ∧
      (t.lock k).waiters = (s.lock k).waiters.erase w := by
  have e : execLockWaitTimeout k n s = .next ((s.lockKeep k ((s.lock k).waiters.erase w)).finishSlot n w.tag
      scLockedByOther (leBytes 2 (s.lockOwnerCode k))) := by rw [execLockWaitTimeout, h]
  have ho' : (s.lockKeep k ((s.lock k).waiters.erase w)).slotOpen n w.tag = true := by
    rw [State.slotOpen, State.sessOpen_of_cmd (State.lockKeep_cmd ..), State.slot_of_cmd (State.lockKeep_cmd ..)]
    exact ho
  refine ⟨_, e, State.finishSlot_done ho' .., ?_⟩
  rw [State.lock_of_locks (State.rest_locks (State.finishSlot_rest ..)), State.lockKeep, State.setLock_lock]

/-- A session's hold that has run out breaks the lock and reports C1 (Table 03-3). -/
theorem lockHoldExpiry_breaks {s : State} {k : Nat} (hk : k < 64) (hs : s.fld (Reg.LOCK_STATE k) = 1)
    (ho : s.fld (Reg.LOCK_OWNER_KIND k) = 0) (hw : (s.lock k).waiters = []) :
    ∃ t, execLockHoldExpiry k s = .next t ∧ t.fld (Reg.LOCK_STATE k) = 2 ∧
      t.fld (Reg.LOCK_BREAKS k) = min (s.fld (Reg.LOCK_BREAKS k) + 1) 255 ∧
      bitAt (t.fld Reg.PLAT_COND_SEEN_SEEN) 0 = true := by
  obtain ⟨hst, hbr⟩ := State.lockBreak_idle hk hw
  refine ⟨_, congrArg Host.Outcome.next (if_pos ⟨hs, ho⟩), ?state, ?breaks, State.breachOnce_seen _ _ _ (by decide)⟩
  case state => rw [State.breachOnce_fld (Reg.lock_not_breachRegs hk), hst]
  case breaks => rw [State.breachOnce_fld (Reg.lock_not_breachRegs hk), hbr]

/-! ENGINE_LOCK_REQUEST and ENGINE_LOCK_RELEASE (R71 to R73, R75). -/

@[simp] theorem State.tellEngine_regs (s : State) (e k st : Nat) : (s.tellEngine e k st).regs = s.regs :=
  State.emit_regs ..
@[simp] theorem State.tellEngine_locks (s : State) (e k st : Nat) : (s.tellEngine e k st).locks = s.locks :=
  State.emit_locks ..
theorem State.tellEngine_outbox (s : State) (e k st : Nat) :
    (s.tellEngine e k st).outbox = s.outbox ++ [.engineLock e k st] := (rfl)

section

variable {s : State} {e k : Nat} {cls : Traffic}

theorem execEngineLockRequest_order {j : Nat} (hj : j < 64) (hle : k ≤ j) (hh : s.lockHeldBy true e j = true) :
    execEngineLockRequest e k cls s = .next (s.tellEngine e k scBadParam) := by
  rw [execEngineLockRequest, State.lockOrderOk_of_held hj hle hh, Bool.and_false]
  rfl

theorem lockGive_told (he : e < 256) (input st : Nat) :
    let t := (s.lockGive k input true e).tellEngine e k st
    t.lockHeldBy true e k = true ∧ (t.lock k).since = s.now ∧ t.outbox = s.outbox ++ [.engineLock e k st] ∧
      ∀ a, a ≠ Reg.LOCK k → t.reg a = s.reg a := by
  refine ⟨?holds, ?since, ?told, ?frame⟩
  case holds =>
    rw [State.lockHeldBy_of_reg (State.reg_of_regs (State.tellEngine_regs ..) _)]
    exact State.lockGive_heldBy s k input true he
  case since => rw [State.lock_of_locks (State.tellEngine_locks ..), State.lockGive_since]
  case told => rw [State.tellEngine_outbox, State.lockGive_outbox]
  case frame =>
    intro a ha
    rw [State.reg_of_regs (State.tellEngine_regs ..), State.lockGive_reg ha]

variable (hk : k < 56) (ho : s.lockOrderOk true e k = true)
include hk ho

theorem execEngineLockRequest_idle (h : s.fld (Reg.LOCK_STATE k) = 0 ∨ s.fld (Reg.LOCK_STATE k) = 2) :
    execEngineLockRequest e k cls s = .next ((s.lockGive k (trafficInput cls) true e).tellEngine e k
      (if s.fld (Reg.LOCK_STATE k) = 0 then scDone else scLockBrokenPrior)) := by
  have hlegal : ¬(!(decide (k < 56) && s.lockOrderOk true e k)) = true := by simp [hk, ho]
  rw [execEngineLockRequest, if_neg hlegal, State.lockState]
  rcases h with h | h
  · rw [h]
    rfl
  · rw [h]
    rfl

theorem execEngineLockRequest_held (h : s.lockState k = 1) : execEngineLockRequest e k cls s =
    .next (s.setLock k { s.lock k with
      waiters := (s.lock k).waiters ++ [⟨trafficInput cls, true, e, 0, none⟩] }) := by
  have hlegal : ¬(!(decide (k < 56) && s.lockOrderOk true e k)) = true := by simp [hk, ho]
  rw [execEngineLockRequest, if_neg hlegal, h]
  rfl

end

/-- An engine's release of a lock that nobody waits for. -/
theorem engineLockRelease_frees {s : State} {e k : Nat} (h : s.lockHeldBy true e k = true)
    (hw : (s.lock k).waiters = []) :
    ∃ t, execEngineLockRelease e k s = .next t ∧ t.fld (Reg.LOCK_STATE k) = 0 ∧
      t.outbox = s.outbox ++ [.engineLock e k scDone] ∧ ∀ a, a ≠ Reg.LOCK k → t.reg a = s.reg a := by
  refine ⟨_, congrArg Host.Outcome.next (if_pos h), ?free, ?told, ?frame⟩
  case free =>
    rw [State.fld_of_regs (State.tellEngine_regs ..), State.lockFree]
    exact State.lockPass_idle_state hw (by decide)
  case told => rw [State.tellEngine_outbox, State.lockFree, State.lockPass_idle_outbox hw]
  case frame =>
    intro a ha
    rw [State.reg_of_regs (State.tellEngine_regs ..), State.lockFree, State.lockPass_idle_reg hw ha]

/-! The statements about locks. -/

/-- Settles O9: a lock held at or above the one asked for fails the check of R71, for a session and for an engine. That an
engine is told so by its own output is the model's reading (assumption log 47). -/
theorem lockOrderBreachRefused : Obligations.LockOrderBreachRefused := by
  refine ⟨?session, ?engine⟩
  case session =>
    intro s rq lock waitMs j h hj hle hs hkind howner
    refine ⟨_, execLockAcquire_order h hj hle (State.lockHeldBy_iff.mpr ⟨hs, hkind, howner⟩),
      State.finish_lift_answered (State.ready_open h) .., State.onlyAnswered_finish ..⟩
  case engine =>
    intro s engine lock j cls hj hle hs hkind howner
    exact execEngineLockRequest_order hj hle (State.lockHeldBy_iff.mpr ⟨hs, hkind, howner⟩)

/-- Settles O11: every command that a packet brings runs by the steps of Table 04-3, and step 13 refuses it. -/
theorem lockedWithoutLockRefused : Obligations.LockedWithoutLockRefused := by
  intro c s rq op k doms hc hh ha hl hk ho
  obtain ⟨body, e⟩ := exec_of_request hc s
  have hopen : (s.take rq).sessOpen rq.sess = true := ho
  rw [State.runIn_without_lock body hh ha hl hk] at e
  refine ⟨_, e, State.finish_lift_answered hopen .., State.onlyAnswered_finish .., fun n i hni => ?_⟩
  rw [State.lift_slot, State.slot_finish_other hni]
  rfl

/-- Settles O17: each command by the rule of its operation on the lock's register and record. That an engine is told of
its lock by its own output is the model's reading (assumption log 47). -/
theorem lockCommandsComplete : Obligations.LockCommandsComplete := by
  refine ⟨?free, ?broken, ?held, ?release, ?timeout, ?expiry, ?engineIdle, ?engineHeld, ?engineRelease⟩
  case free =>
    intro s rq k w h hk hs ho hw e
    exact ⟨_, execLockAcquire_free h hk ho hw e, lockAcquire_granted h (by omega) hs⟩
  case broken =>
    intro s rq k w h hk hs ho hw e
    obtain ⟨hanswered, hholds, -⟩ := lockAcquire_granted h (by omega : k < 64) hs
    exact ⟨_, execLockAcquire_broken h hk ho hw e, hholds, hanswered⟩
  case held =>
    intro s rq k w h hk ho hw hz e
    obtain ⟨hunanswered, hrecord⟩ := lockAcquire_waits h _
    exact ⟨_, execLockAcquire_held h hk ho hw e hz, hunanswered, congrArg LockX.waiters hrecord⟩
  case release => exact fun s rq k h hk ho hw => lockRelease_frees h hk ho hw
  case timeout =>
    intro s k n w h ho ht hd
    obtain ⟨t, e, hdone, hwaiters⟩ := lockWaitTimeout_withdraws h (State.slotOpen_iff.mpr ⟨ho, ht, hd⟩)
    obtain ⟨-, hslot, hstatus, -⟩ := State.slotDone_iff.mp hdone
    exact ⟨t, e, hslot, hstatus, hwaiters⟩
  case expiry => exact fun s k hk hs ho hw => lockHoldExpiry_breaks hk hs ho hw
  case engineIdle =>
    intro s k e cls hk he ho h
    refine ⟨_, execEngineLockRequest_idle hk ho h, ?_⟩
    exact lockGive_told he (trafficInput cls) _
  case engineHeld =>
    intro s k e cls hk ho h
    exact ⟨_, execEngineLockRequest_held hk ho h, congrArg LockX.waiters (State.setLock_lock ..), State.setLock_outbox ..⟩
  case engineRelease => exact fun s k e h hw => engineLockRelease_frees h hw

/-! Arbiters (R54 to R57): the requests that a junction sees, and a break point. -/

theorem setBitAt_lt {n i w : Nat} (hn : n < 2 ^ w) (hi : i < w) : setBitAt n i < 2 ^ w := by
  refine Nat.lt_pow_two_of_testBit _ fun j hj => ?_
  rw [← bitAt_eq_testBit, bitAt_setBitAt, bitAt_eq_testBit,
    Nat.testBit_lt_two_pow (Nat.lt_of_lt_of_le hn (Nat.pow_le_pow_right Nat.two_pos hj))]
  rw [Bool.false_or, decide_eq_false_iff_not]
  omega

/-- Inputs below 8 make a mask of eight bits. -/
theorem reqMask_lt {l : List (ArbReq × Nat)} (h : ∀ e ∈ l, e.2 < 8) : reqMask l < 2 ^ 8 :=
  List.foldlRecOn (motive := fun m => m < 2 ^ 8) l _ (by decide) fun _ ih e he => setBitAt_lt ih (h e he)

theorem State.slotInput_lt (s : State) (j : Nat) (c : Traffic) : s.slotInput j c < 8 := by
  cases c <;> exact State.fld_lt ..

/-- A junction sees its requests on inputs 0 to 7 (R52, R63). -/
theorem State.reqInput_lt {s : State} {n i : Nat} {r : ArbReq} (hn : n < 16) (h : s.reqInput n r = some i) : i < 8 := by
  have hmux : ¬88 ≤ n := by omega
  cases r with
  | enter c client =>
    rw [State.reqInput, if_pos hn] at h
    exact Option.some.inj h ▸ s.slotInput_lt n c
  | carried j client =>
    rw [State.reqInput, Option.ite_none_right_eq_some] at h
    obtain ⟨⟨-, hj⟩, e⟩ := h
    exact Option.some.inj e ▸ hj
  | lineFrame client => rw [State.reqInput, if_neg hmux] at h; cases h
  | laneControl client => rw [State.reqInput, if_neg hmux] at h; cases h
  | ring c client => rw [State.reqInput, if_neg hmux] at h; cases h

theorem State.arbRequests_lt {s : State} {n : Nat} (hn : n < 16) (reqs : List ArbReq) :
    ∀ e ∈ s.arbRequests n reqs, e.2 < 8 := by
  intro e he
  obtain ⟨r, -, hr⟩ := List.mem_filterMap.mp he
  obtain ⟨i, hi, hopen⟩ := Option.bind_eq_some_iff.mp hr
  rw [Option.ite_none_right_eq_some] at hopen
  exact Option.some.inj hopen.2 ▸ State.reqInput_lt hn hi

theorem State.arb_of_arbs {t u : State} (h : t.arbs = u.arbs) (net : Bool) (n : Nat) : t.arb net n = u.arb net n := by
  rw [State.arb, h, State.arb]

theorem State.arb_setArb (s : State) (net : Bool) (n : Nat) (a : Arb) : (s.setArb net n a).arb net n = a :=
  tabGet_put_self

theorem State.countForced_arbs (s : State) (n : Nat) : (s.countForced n).arbs = s.arbs := by
  rw [State.countForced]
  split
  · exact State.bump_arbs ..
  · split
    · exact State.bump_arbs ..
    · rfl

/-- The count of forced grants is no field of the requests. -/
theorem State.countForced_req {s : State} {n : Nat} (hn : n < 16) :
    (s.countForced n).fld (Reg.ARB_J_CTRL_REQ n) = s.fld (Reg.ARB_J_CTRL_REQ n) := by
  rw [State.countForced, if_pos hn]
  exact State.fld_setFld_clear (Fld.clearOf_of_bits (by rfl))

theorem State.arbBreak_of_stopped {s : State} {n : Nat} (h : s.arbStopped n = true) (net : Bool) (reqs : List ArbReq) :
    s.arbBreak net n reqs = s := by
  rw [State.arbBreak, if_pos h]

section

variable {s : State} {n : Nat} (h : s.arbStopped n = false) (net : Bool) (reqs : List ArbReq)
include h

/-- The arbiter after a break point is that of the grant. -/
theorem State.arbBreak_arb :
    (s.arbBreak net n reqs).arb net n = (s.arb net n).grant (s.waitLimit n) (s.arbRequests n reqs) := by
  have hreq (u : State) (v : Nat) : (if n < 16 then u.setFld (Reg.ARB_J_CTRL_REQ n) v else u).arbs = u.arbs := by
    split
    · exact State.setFld_arbs ..
    · rfl
  rw [State.arbBreak, if_neg (by rw [h]; decide)]
  dsimp only
  split
  · rw [State.arb_of_arbs ((State.countForced_arbs ..).trans (hreq ..)), State.arb_setArb]
  · rw [State.arb_of_arbs (hreq ..), State.arb_setArb]

/-- A junction's register shows the inputs that request. -/
theorem State.arbBreak_req (hn : n < 16) :
    (s.arbBreak net n reqs).fld (Reg.ARB_J_CTRL_REQ n) = reqMask (s.arbRequests n reqs) := by
  have hset (u : State) : (u.setFld (Reg.ARB_J_CTRL_REQ n) (reqMask (s.arbRequests n reqs))).fld (Reg.ARB_J_CTRL_REQ n) =
      reqMask (s.arbRequests n reqs) :=
    State.fld_setFld (Fld.fits_of_decide rfl) (reqMask_lt (State.arbRequests_lt hn reqs))
  rw [State.arbBreak, if_neg (by rw [h]; decide)]
  dsimp only
  rw [if_pos hn]
  split
  · rw [State.countForced_req hn, hset]
  · exact hset _

end

/-! ARBITER_STUCK (R78). -/

theorem arbJunction_lt {n : Nat} (h : n < 100) : arbJunction n < 16 := by
  rw [arbJunction]
  split_ifs <;> omega

theorem State.setStuck_reg {s : State} {n a : Nat} (h : blockOf a ≠ 0x02) : (s.setStuck n).reg a = s.reg a := by
  rw [State.setStuck]
  split
  case isTrue => rfl
  case isFalse hn =>
    have hj : a ≠ Reg.ARB_J_CTRL (arbJunction n) := by
      have := arbJunction_lt (Nat.not_le.mp hn)
      rintro rfl
      rw [blockOf, Reg.ARB_J_CTRL] at h
      omega
    dsimp only
    split
    case isTrue hm =>
      have hma : a ≠ Reg.ARB_M (n - 24) := by
        rintro rfl
        rw [blockOf, Reg.ARB_M] at h
        omega
      exact (State.reg_setFld_other hma).trans (State.reg_setFld_other hj)
    case isFalse => exact State.reg_setFld_other hj

theorem State.setStuck_fld {s : State} {n : Nat} {f : Fld} (h : blockOf f.addr ≠ 0x02) :
    (s.setStuck n).fld f = s.fld f := State.fld_of_reg (State.setStuck_reg h)

@[simp] theorem State.setStuck_cmd (s : State) (n : Nat) : (s.setStuck n).cmd = s.cmd := by
  rw [State.setStuck]
  split
  · rfl
  · dsimp only
    split
    · rw [State.setFld_cmd, State.setFld_cmd]
    · rw [State.setFld_cmd]

/-- STUCK shows at the junction, and at a memory arbiter in its own register too. -/
theorem State.setStuck_shows {s : State} {n : Nat} (hn : n < 100) :
    (s.setStuck n).fld (Reg.ARB_J_CTRL_STUCK (arbJunction n)) = 1 ∧
      (24 ≤ n → n < 88 → (s.setStuck n).fld (Reg.ARB_M_STUCK (n - 24)) = 1) := by
  have hj : (s.setFld (Reg.ARB_J_CTRL_STUCK (arbJunction n)) 1).fld (Reg.ARB_J_CTRL_STUCK (arbJunction n)) = 1 :=
    State.fld_setFld (Fld.fits_of_decide rfl) (by decide : 1 < 2 ^ 1)
  rw [State.setStuck, if_neg (Nat.not_le.mpr hn)]
  dsimp only
  split
  case isTrue hm =>
    refine ⟨?_, fun _ _ => State.fld_setFld (Fld.fits_of_decide rfl) (by decide : 1 < 2 ^ 1)⟩
    have hne : Reg.ARB_J_CTRL (arbJunction n) ≠ Reg.ARB_M (n - 24) := by
      have := arbJunction_lt hn
      rw [Reg.ARB_J_CTRL, Reg.ARB_M]
      omega
    exact (State.fld_of_reg (State.reg_setFld_other hne)).trans hj
  case isFalse hm => exact ⟨hj, fun hlo hhi => absurd ⟨hlo, hhi⟩ hm⟩

theorem Reg.arb_not_eventRegs {a : Nat} (h : blockOf a = 0x02) : a ∉ eventRegs := by
  intro m
  simp only [eventRegs, List.mem_cons, List.not_mem_nil, or_false] at m
  rcases m with rfl | rfl | rfl <;> exact absurd h (by decide)

theorem State.log1_next (s : State) (code block inst cond : Nat) (detail : List Nat) :
    (s.log1 code block inst cond detail).fld Reg.NVC_LOG_NEXT = (s.fld Reg.NVC_LOG_NEXT + 1) % idxMod := by
  have hr : (s.log1 code block inst cond detail).regs = (s.bumpWrap Reg.NVC_LOG_NEXT).regs := rfl
  rw [State.fld_of_regs hr]
  exact State.fld_setFld ⟨by decide, by decide⟩ (Nat.mod_lt _ (Nat.two_pow_pos _))

/-- What a stuck request leaves: STUCK, and an entry of the fault log with the arbiter and the input. -/
def State.stuckLogged (s : State) (n i : Nat) : State :=
  (s.setStuck n).log1 0x31 (arbPlace n).1 (arbPlace n).2 0 [i]

theorem State.stuckLogged_cmd (s : State) (n i : Nat) : (s.stuckLogged n i).cmd = s.cmd := by
  rw [State.stuckLogged, State.log1_cmd, State.setStuck_cmd]

theorem State.stuckLogged_shows {s : State} {n : Nat} (hn : n < 100) (i : Nat) :
    (s.stuckLogged n i).fld (Reg.ARB_J_CTRL_STUCK (arbJunction n)) = 1 ∧
      (24 ≤ n → n < 88 → (s.stuckLogged n i).fld (Reg.ARB_M_STUCK (n - 24)) = 1) ∧
      (s.stuckLogged n i).fld Reg.NVC_LOG_NEXT = (s.fld Reg.NVC_LOG_NEXT + 1) % idxMod := by
  obtain ⟨hj, hm⟩ := State.setStuck_shows (s := s) hn
  have hb : blockOf (Reg.ARB_J_CTRL (arbJunction n)) = 0x02 := by
    have := arbJunction_lt hn
    rw [blockOf, Reg.ARB_J_CTRL]
    omega
  refine ⟨?junction, fun hlo hhi => ?channel, ?log⟩
  case junction => exact (State.log1_fld (Reg.arb_not_eventRegs hb)).trans hj
  case channel =>
    have hbm : blockOf (Reg.ARB_M (n - 24)) = 0x02 := by
      rw [blockOf, Reg.ARB_M]
      omega
    exact (State.log1_fld (Reg.arb_not_eventRegs hbm)).trans (hm hlo hhi)
  case log => rw [State.stuckLogged, State.log1_next, State.setStuck_fld (by decide)]

/-- With no condition broken before, none is broken by the report. -/
theorem State.stuckLogged_brokenCond {s : State} (h : s.fld Reg.PLAT_STATE_COND = 0) (n i : Nat) :
    (s.stuckLogged n i).brokenCond = none := by
  have hc : (s.stuckLogged n i).fld Reg.PLAT_STATE_COND = 0 := by
    rw [State.stuckLogged, State.log1_fld (by decide), State.setStuck_fld (by decide), h]
  rw [State.brokenCond, hc]
  rfl

/-- With no condition broken the answer is HW_FAULT. `cmd` is a variable: with `some rq` in its place the kernel
would compute the conditions of a symbolic state. -/
theorem execArbiterStuck_unbroken {s : State} {n i : Nat} {cmd : Option Rq} {rq : Rq} (hcmd : cmd = some rq)
    (h : (s.stuckLogged n i).brokenCond = none) : execArbiterStuck n i cmd s =
      .next (((s.stuckLogged n i).finishSlot rq.sess rq.tag scHwFault
        (leBytes 4 (s.fld Reg.NVC_LOG_NEXT))).vacate rq.sess rq.tag) := by
  rw [State.stuckLogged] at h ⊢
  rw [execArbiterStuck.eq_def]
  split
  case h_1 => cases hcmd
  case h_2 =>
    cases hcmd
    dsimp only
    rw [h]

/-- The affected command is answered with the index of the entry just logged (R78). -/
theorem arbiterStuck_answers {s : State} {rq : Rq} (ho : s.slotOpen rq.sess rq.tag = true)
    (h : s.fld Reg.PLAT_STATE_COND = 0) (n i : Nat) :
    ∃ t, execArbiterStuck n i (some rq) s = .next t ∧
      t.slotDone rq.sess rq.tag scHwFault (leBytes 4 (s.fld Reg.NVC_LOG_NEXT)) = true := by
  have ho' : (s.stuckLogged n i).slotOpen rq.sess rq.tag = true := by
    rw [State.slotOpen, State.sessOpen_of_cmd (State.stuckLogged_cmd ..), State.slot_of_cmd (State.stuckLogged_cmd ..)]
    exact ho
  refine ⟨_, execArbiterStuck_unbroken rfl (State.stuckLogged_brokenCond h n i), ?_⟩
  rw [State.slotDone, State.vacate_slot]
  exact State.finishSlot_done ho' ..

/-! The statement about arbiters. -/

/-- Settles O18: a break point by what it leaves of the arbiter and its register, a stuck request by what is logged. -/
theorem arbiterCommandsComplete : Obligations.ArbiterCommandsComplete := by
  refine ⟨?grant, ?stopped, ?stuck, ?affected⟩
  case grant =>
    intro s net n reqs h
    exact ⟨_, rfl, State.arbBreak_arb h net reqs, State.mem_of_core (State.arbBreak_core ..),
      State.arbBreak_req h net reqs⟩
  case stopped => exact fun s net n reqs h => congrArg Host.Outcome.next (State.arbBreak_of_stopped h net reqs)
  case stuck => exact fun s n i hn => ⟨_, rfl, State.stuckLogged_shows hn i⟩
  case affected =>
    intro s n i rq hn ho ht hd h
    obtain ⟨t, e, hdone⟩ := arbiterStuck_answers (State.slotOpen_iff.mpr ⟨ho, ht, hd⟩) h n i
    obtain ⟨-, hreply⟩ := State.slotDone_iff.mp hdone
    exact ⟨t, e, hreply⟩

end Sys2Proof.Machine

/-! SUPPORT. Management datagrams (R89, R350): what becomes of a frame that a port accepts. -/
namespace Sys2Proof.Machine

/-- A whole datagram to the management port of the device's own address goes to the command path. -/
theorem State.ethTaken_management {s : State} {p : Nat} {f : EthFrame} (ht : f.etherType = 0x0800)
    (hip : s.fld (Reg.ETH_IP_IP p) ≠ 0) (hdst : f.dstIp = s.fld (Reg.ETH_IP_IP p)) (hudp : f.proto = 17)
    (hport : f.dstPort = s.fld (Reg.ETH_MAC_HI_UDP_PORT p)) :
    s.ethTaken p f = s.acceptFrom1 (.eth f.srcIp f.srcPort) f.payload := by
  have hours : (s.flag (Reg.ETH_IP_IP p) && f.dstIp == s.fld (Reg.ETH_IP_IP p)) = true := by
    simp [State.flag, hip, hdst]
  rw [State.ethTaken, hours, ht, hudp, if_neg (by decide), if_neg (by decide), if_neg (by decide), if_pos ⟨rfl, hport⟩]

/-- Settles O60: each check of the port passes, and what remains of the frame is the packet. -/
theorem datagramIsCommandPacket : Obligations.DatagramIsCommandPacket := by
  intro s p f hp hon hfcs hacc hfits ht hfrag hip hdst hudp hport
  have htaken : execEthFrameReceive p f s = .next ((s.bump (Reg.ETH_CNT_FRAMES_RX p)).ethTaken p f) := by
    simp [execEthFrameReceive, hp, hon, hfcs, hacc, hfits, hfrag]
  have hcount {g : Fld} (h : g.addr ≠ Reg.ETH_CNT_FRAMES p) : (s.bump (Reg.ETH_CNT_FRAMES_RX p)).fld g = s.fld g :=
    State.fld_of_reg (State.reg_setFld_other h)
  have hipAddr : (Reg.ETH_IP_IP p).addr ≠ Reg.ETH_CNT_FRAMES p := by
    simp only [Reg.ETH_IP_IP, Reg.ETH_CNT_FRAMES]; omega
  have hudpAddr : (Reg.ETH_MAC_HI_UDP_PORT p).addr ≠ Reg.ETH_CNT_FRAMES p := by
    simp only [Reg.ETH_MAC_HI_UDP_PORT, Reg.ETH_CNT_FRAMES]; omega
  refine htaken.trans (congrArg Host.Outcome.next ?_)
  exact State.ethTaken_management ht (by rwa [hcount hipAddr]) (by rwa [hcount hipAddr]) hudp (by rwa [hcount hudpAddr])

end Sys2Proof.Machine

/-! SUPPORT. Command packets (R82 to R95, Table 04-3): what the steps that check a packet come to, what a reply by each
way leaves, and the statements about COMMAND_PACKET. -/
namespace Sys2Proof.Machine

/-! Replies on their way. -/

/-- What neither lanes, links nor the outbox touch, a packet to a member leaves alone. -/
theorem State.chainTo_keeps {β : Type} (view : State → β) (hl : ∀ s l bs, view (State.laneSent s l bs) = view s)
    (hk : ∀ s w x, view (State.setLink s w x) = view s) (he : ∀ s o, view (State.emit s o) = view s) (s : State)
    (type dst cls : Nat) (body : List Byte) : view (s.chainTo type dst cls body) = view s := by
  have send (s : State) (w : Bool) (b : List Byte) : view (s.chainSend w b) = view s := by
    rw [State.chainSend, he, hk]
    exact State.foldl_keeps view (fun s (p : Nat × List Block) => hl s p.1 p.2) _ s
  rw [State.chainTo]
  split
  · rw [State.chainSendOn]
    split
    · rw [State.chainDrain]
      exact (State.foldl_keeps view (fun s b => send s _ b) _ _).trans ((hk ..).trans (hk ..))
    · rfl
  · rfl

@[simp] theorem State.chainTo_cmd (s : State) (type dst cls : Nat) (body : List Byte) :
    (s.chainTo type dst cls body).cmd = s.cmd :=
  State.chainTo_keeps State.cmd (fun _ _ _ => rfl) (fun _ _ _ => rfl) (fun _ _ => rfl) s type dst cls body

@[simp] theorem State.chainTo_inFlight (s : State) (type dst cls : Nat) (body : List Byte) :
    (s.chainTo type dst cls body).chain.inFlight = s.chain.inFlight :=
  State.chainTo_keeps (·.chain.inFlight) (fun _ _ _ => rfl) (fun _ w _ => by cases w <;> rfl) (fun _ _ => rfl) s type dst
    cls body

@[simp] theorem State.sendDatagram_cmd (s : State) (ip port : Nat) (b : List Byte) :
    (s.sendDatagram ip port b).cmd = s.cmd := by
  rw [State.sendDatagram]
  split
  · rw [State.bump_cmd, State.emit_cmd]
  · rfl

/-- A datagram that has a route leaves by it (R350). -/
theorem State.sendDatagram_outbox {s : State} {ip p hop : Nat} (h : s.ethRoute ip = some (p, hop)) (port : Nat)
    (b : List Byte) : (s.sendDatagram ip port b).outbox = s.outbox ++ [.datagram p hop ip port b] := by
  rw [State.sendDatagram, h]
  exact State.bump_outbox ..

/-- The route of a datagram is set in registers other than CMD_STATUS. -/
theorem State.ethRoute_congr {t u : State} (h : ∀ a, a ≠ Reg.CMD_STATUS → t.reg a = u.reg a) (ip : Nat) :
    t.ethRoute ip = u.ethRoute ip := by
  have hf {f : Fld} (ha : 0x3A0000 ≤ f.addr) : t.fld f = u.fld f :=
    State.fld_of_reg (h _ (Nat.ne_of_gt (Nat.lt_of_lt_of_le (by decide) ha)))
  have hnear (p : Nat) : t.ethNear ip p = u.ethNear ip p := by
    simp only [State.ethNear, State.flag, hf (f := Reg.ETH_CTRL_PREFIX p) (Nat.le_add_right ..),
      hf (f := Reg.ETH_CTRL_ENABLE p) (Nat.le_add_right ..),
      hf (f := Reg.ETH_IP_IP p) (Nat.le_trans (by decide) (Nat.le_add_right 0x3a0010 _))]
  have hgw (p : Nat) : t.fld (Reg.ETH_GW_GW p) = u.fld (Reg.ETH_GW_GW p) :=
    hf (Nat.le_trans (by decide) (Nat.le_add_right 0x3a0014 _))
  have hen (p : Nat) : t.fld (Reg.ETH_CTRL_ENABLE p) = u.fld (Reg.ETH_CTRL_ENABLE p) := hf (Nat.le_add_right ..)
  simp only [State.ethRoute, funext hnear, State.flag, hgw, hen]

theorem State.ringReply_cmd {r : Nat} (h : r < 4) (s : State) (rep : Reply) :
    ∃ l, (s.ringReply r rep).cmd = { s.cmd with rings := l } := by
  have e : s.deliver r rep = s.ringReply r rep := by rw [State.deliver, State.sessKind, if_pos h]
  rw [← e]
  exact s.deliver_cmd r rep

/-! What the checks of a packet read. -/

/-- The way to a member depends on the chain and on registers other than CMD_STATUS. -/
theorem State.chainWay_congr {t u : State} (hc : t.chain = u.chain)
    (hr : ∀ a, a ≠ Reg.CMD_STATUS → t.reg a = u.reg a) (dst : Nat) : t.chainWay dst = u.chainWay dst := by
  have hw : t.chainWidth = u.chainWidth := by
    rw [State.chainWidth, State.fld_of_reg (f := Reg.PLAT_STRAPS_WIDTH) (hr _ (by decide)), State.chainWidth]
  have hl (i : Nat) : t.flag (Reg.LANE_STATUS_UP i) = u.flag (Reg.LANE_STATUS_UP i) := by
    have ha : (Reg.LANE_STATUS_UP i).addr ≠ Reg.CMD_STATUS :=
      Nat.ne_of_gt (Nat.lt_of_lt_of_le (by decide) (Nat.le_add_right 0x380004 _))
    rw [State.flag, State.fld_of_reg (hr _ ha), State.flag]
  have hup (w : Bool) : t.chainUp w = u.chainUp w := by
    simp only [State.chainUp, hw, hl, hc]
  rw [State.chainWay, State.chainWay, hup, hup, hc]

theorem State.flagBreach_congr {t u : State} (hc : t.chain = u.chain)
    (hr : ∀ a, a ≠ Reg.CMD_STATUS → t.reg a = u.reg a) (forwarded : Bool) (h : Header) (p : List Byte) :
    t.flagBreach forwarded h p = u.flagBreach forwarded h p := by
  have hid : t.chainId = u.chainId := State.fld_of_reg (hr _ (by decide))
  simp only [State.flagBreach, hid, State.chainWay_congr hc hr]

theorem State.sound_congr {t u : State} (hc : t.chain = u.chain) (hr : ∀ a, a ≠ Reg.CMD_STATUS → t.reg a = u.reg a)
    (forwarded : Bool) (b : List Byte) : t.sound forwarded b = u.sound forwarded b := by
  have hid : t.chainId = u.chainId := State.fld_of_reg (hr _ (by decide))
  simp only [State.sound, State.flagBreach_congr hc hr, hid]

theorem State.session_of_sessions {t u : State} (h : t.cmd.sessions = u.cmd.sessions) (n : Nat) :
    t.session n = u.session n := by
  rw [State.session, h, State.session]

theorem State.session_of_cmd {t u : State} (h : t.cmd = u.cmd) (n : Nat) : t.session n = u.session n :=
  State.session_of_sessions (by rw [h]) n

/-- An Ethernet session after a packet of its own: the idle time of R92 starts anew. -/
def State.heard (s : State) (n : Nat) : State := s.setSession n { s.session n with lastTick := s.now }

theorem State.heard_session (s : State) (n m : Nat) :
    (s.heard n).session m = if m = n then { s.session n with lastTick := s.now } else s.session m :=
  State.session_setSession ..

@[simp] theorem State.heard_slot (s : State) (n m t : Nat) : (s.heard n).slot m t = s.slot m t := by
  rw [State.slot, State.heard_session]
  split
  case isTrue e => rw [State.slot, e]
  case isFalse => rfl

@[simp] theorem State.heard_lastSeq (s : State) (n : Nat) : ((s.heard n).session n).lastSeq = (s.session n).lastSeq := by
  rw [State.heard_session, if_pos rfl]

theorem State.heard_inTurn (s : State) (n : Nat) (b : List Byte) : (s.heard n).inTurn n b = s.inTurn n b := by
  rw [State.inTurn, State.heard_slot, State.heard_lastSeq, State.inTurn]

theorem State.heard_sendDatagram_outbox (s : State) (n ip port : Nat) (b : List Byte) :
    ((s.heard n).sendDatagram ip port b).outbox = (s.sendDatagram ip port b).outbox := by
  have hroute : (s.heard n).ethRoute ip = s.ethRoute ip := State.ethRoute_congr (fun _ _ => rfl) ip
  rw [State.sendDatagram, hroute, State.sendDatagram]
  cases s.ethRoute ip with
  | none => rfl
  | some r => simp only [State.bump_outbox, State.emit, State.heard, State.setSession_outbox]

/-! Steps 1 to 4 of Table 04-3. -/

section

variable {s : State} {b : List Byte}

theorem headerOk_iff : headerOk b = true ↔ (headerOf b).length ≤ 4080 ∧ packetCrc b (headerOf b) = (headerOf b).crc ∧
    (headerOf b).tag < 64 ∧ (headerOf b).flags < 16 := by
  simp [headerOk, and_assoc]

/-- A packet of an Ethernet session with a good header comes to step 5. -/
theorem State.acceptFrom1_eth {ip port : Nat} (hh : headerOk b = true) (hlen : b.length = 16 + (headerOf b).length)
    (hs : 4 ≤ (headerOf b).session) (hk : (s.session (headerOf b).session).kind = .eth ip port)
    (ho : ¬((headerOf b).opcode = 0x0030 ∧ (headerOf b).session = 255)) :
    s.acceptFrom1 (.eth ip port) b =
      (s.heard (headerOf b).session).acceptFrom5 (.eth ip port) (headerOf b).session b := by
  obtain ⟨hmax, hcrc, htag, hflags⟩ := headerOk_iff.mp hh
  simp [State.acceptFrom1, State.acceptFrom3, hlen, Nat.not_lt.mpr hmax, hcrc, ho, hk, hs, State.heard,
    Nat.not_lt.mpr (Nat.le_of_lt_succ htag), Nat.not_le.mpr hflags]

/-- So does a packet of a ring, whose header names the ring's session. -/
theorem State.acceptFrom1_ring {r : Nat} (hh : headerOk b = true) (hs : (headerOf b).session = r) :
    s.acceptFrom1 (.ring r) b = s.acceptFrom5 (.ring r) r b := by
  obtain ⟨hmax, hcrc, htag, hflags⟩ := headerOk_iff.mp hh
  simp [State.acceptFrom1, State.acceptFrom3, Nat.not_lt.mpr hmax, hcrc, hs,
    Nat.not_lt.mpr (Nat.le_of_lt_succ htag), Nat.not_le.mpr hflags]

/-- What a ring has read of its next packet, and its consumer index past it. -/
def State.ringTaken (s : State) (r : Nat) (b : List Byte) : State :=
  (s.emit (.ringRead r (s.cmdBase r + 64 * ((s.ring r).cmdCons % s.cmdSize r)))).consume r (unitsOf (headerOf b).length)

/-- A packet of a ring that is no pad entry and does not wrap comes to step 5 (R95). -/
theorem State.takeFromRing_packet {r : Nat} (hh : headerOk b = true) (hs : (headerOf b).session = r)
    (hfit : (s.ring r).cmdCons % s.cmdSize r + unitsOf (headerOf b).length ≤ s.cmdSize r) :
    s.takeFromRing r b = (s.ringTaken r b).acceptFrom5 (.ring r) r b := by
  obtain ⟨hmax, -, htag, -⟩ := headerOk_iff.mp hh
  rw [State.takeFromRing, if_neg (by omega), if_neg (by omega), if_neg (by omega), State.acceptFrom1_ring hh hs]
  rfl

theorem execCommandPacket_ring {r : Nat} (hr : r < 4) (ht : s.ringTakes r = true) :
    execCommandPacket (.ring r) b s = .next (s.takeFromRing r b) := by
  simp [execCommandPacket, hr, ht]

/-! Steps 5 to 8. -/

/-- A packet that is no repeat and in sequence is refused where its tag is busy, and else goes on to step 9. -/
theorem State.acceptFrom5_new {src : PktSrc} {n : Nat} (hfetch : (headerOf b).opcode ≠ 0x0002)
    (hnew : ¬((s.slot n (headerOf b).tag).taken = true ∧ (s.slot n (headerOf b).tag).opcode = (headerOf b).opcode ∧
      (s.slot n (headerOf b).tag).seq = (headerOf b).seq))
    (hseq : ∀ q, (s.session n).lastSeq = some q → (headerOf b).seq = (q + 1) % idxMod) :
    s.acceptFrom5 src n b =
      if (s.slot n (headerOf b).tag).taken && !(s.slot n (headerOf b).tag).done then
        s.refuse src (headerOf b) scResourceBusy []
      else (s.takeSlot n (headerOf b)).acceptFrom9 false n b := by
  rw [State.acceptFrom5]
  dsimp only
  rw [if_neg hfetch, if_neg (by simpa [and_assoc] using hnew)]
  cases hq : (s.session n).lastSeq with
  | none => exact if_neg (not_not.mpr rfl)
  | some q => exact if_neg (not_not.mpr (hseq q hq))

theorem State.inTurn_iff {n : Nat} : s.inTurn n b = true ↔ (headerOf b).opcode ≠ 0x0002 ∧
    ¬((s.slot n (headerOf b).tag).taken = true ∧ (s.slot n (headerOf b).tag).opcode = (headerOf b).opcode ∧
      (s.slot n (headerOf b).tag).seq = (headerOf b).seq) ∧
    (∀ q, (s.session n).lastSeq = some q → (headerOf b).seq = (q + 1) % idxMod) ∧
    ((s.slot n (headerOf b).tag).taken && !(s.slot n (headerOf b).tag).done) = false := by
  rw [State.inTurn]
  cases (s.session n).lastSeq <;> grind

theorem State.acceptFrom5_inTurn {src : PktSrc} {n : Nat} (h : s.inTurn n b = true) :
    s.acceptFrom5 src n b = (s.takeSlot n (headerOf b)).acceptFrom9 false n b := by
  obtain ⟨hfetch, hnew, hseq, hfree⟩ := State.inTurn_iff.mp h
  rw [State.acceptFrom5_new hfetch hnew hseq, hfree]
  rfl

/-- A packet in sequence whose tag holds another command not completed (R84). -/
theorem State.acceptFrom5_busy {src : PktSrc} {n : Nat} (hfetch : (headerOf b).opcode ≠ 0x0002)
    (ht : (s.slot n (headerOf b).tag).taken = true) (hd : (s.slot n (headerOf b).tag).done = false)
    (hnew : ¬((s.slot n (headerOf b).tag).opcode = (headerOf b).opcode ∧
      (s.slot n (headerOf b).tag).seq = (headerOf b).seq))
    (hseq : ∀ q, (s.session n).lastSeq = some q → (headerOf b).seq = (q + 1) % idxMod) :
    s.acceptFrom5 src n b = s.refuse src (headerOf b) scResourceBusy [] := by
  rw [State.acceptFrom5_new hfetch (fun h => hnew h.2) hseq, if_pos (by simp [ht, hd])]

end

/-- Settles O10: the packet comes to step 8 by either way, and the refusal touches neither the slots nor the queue. -/
theorem busyTagRefused : Obligations.BusyTagRefused := by
  refine ⟨?eth, ?ring⟩
  case eth =>
    intro s ip port b hlen hh h4 h16 hk hfetch ho ht hd hnew hseq
    have hkind : (s.session (headerOf b).session).kind = .eth ip port := by
      rwa [State.sessKind, if_neg (Nat.not_lt.mpr h4)] at hk
    have hopen : ¬((headerOf b).opcode = 0x0030 ∧ (headerOf b).session = 255) := by omega
    have e : execCommandPacket (.eth ip port) b s =
        .next ((s.heard (headerOf b).session).refuse (.eth ip port) (headerOf b) scResourceBusy []) := by
      rw [execCommandPacket, State.acceptFrom1_eth hh hlen h4 hkind hopen,
        State.acceptFrom5_busy hfetch (by simpa using ht) (by simpa using hd) (by simpa using hnew) (by simpa using hseq)]
    have hcmd : ((s.heard (headerOf b).session).refuse (.eth ip port) (headerOf b) scResourceBusy []).cmd =
        (s.heard (headerOf b).session).cmd := State.sendDatagram_cmd ..
    refine ⟨_, e, ?outbox, ?queue, ?slots, ?lastSeq⟩
    case outbox => exact State.heard_sendDatagram_outbox ..
    case queue => rw [hcmd]; rfl
    case slots => exact fun n k => (State.slot_of_cmd hcmd n k).trans (State.heard_slot ..)
    case lastSeq => exact (congrArg Session.lastSeq (State.session_of_cmd hcmd _)).trans (State.heard_lastSeq ..)
  case ring =>
    intro s r b hr htakes hh hs hfit hfetch ht hd hnew hseq
    have e : execCommandPacket (.ring r) b s =
        .next ((s.ringTaken r b).ringReply r ⟨(headerOf b).opcode, (headerOf b).tag, false, false, scResourceBusy,
          (headerOf b).seq, r, [], s.st⟩) := by
      rw [execCommandPacket_ring hr htakes, State.takeFromRing_packet hh hs hfit,
        State.acceptFrom5_busy (s := s.ringTaken r b) hfetch ht hd hnew hseq, ← hs]
      rfl
    obtain ⟨l, hcmd⟩ := State.ringReply_cmd hr (s.ringTaken r b) ⟨(headerOf b).opcode, (headerOf b).tag, false, false,
      scResourceBusy, (headerOf b).seq, r, [], s.st⟩
    refine ⟨_, e, rfl, ?queue, ?slots, ?session⟩
    case queue => rw [hcmd]; rfl
    case slots => exact fun n k => State.slot_of_sessions (by rw [hcmd]; rfl) n k
    case session => exact State.session_of_sessions (by rw [hcmd]; rfl) r

end Sys2Proof.Machine

/-! SUPPORT. What becomes of a packet that is taken (steps 9 to 11 of Table 04-3, R82 to R95). -/
namespace Sys2Proof.Machine

/-! A tag slot taken. -/

section

variable {s : State} {n : Nat} {h : Header}

theorem State.takeSlot_session : (s.takeSlot n h).session n = { s.session n with
    lastSeq := some h.seq
    slots := tabPut {} (s.session n).slots h.tag
      { taken := true, opcode := h.opcode, seq := h.seq, needReply := h.needReply } } :=
  (State.session_setSession ..).trans (if_pos rfl)

theorem State.takeSlot_slot : (s.takeSlot n h).slot n h.tag =
    { taken := true, opcode := h.opcode, seq := h.seq, needReply := h.needReply } := by
  rw [State.slot, State.takeSlot_session, tabGet_put_self]

theorem State.setSlot_session (s : State) (n t : Nat) (x : Slot) :
    (s.setSlot n t x).session n = { s.session n with slots := tabPut {} (s.session n).slots t x } :=
  (State.session_setSession ..).trans (if_pos rfl)

end

/-! A ring's indices. -/

theorem State.ring_of_rings {t u : State} (h : t.cmd.rings = u.cmd.rings) (r : Nat) : t.ring r = u.ring r := by
  rw [State.ring, h, State.ring]

theorem State.ringTaken_ring (s : State) (r : Nat) (b : List Byte) : (s.ringTaken r b).ring r =
    { s.ring r with cmdCons := ((s.ring r).cmdCons + unitsOf (headerOf b).length) % idxMod } := tabGet_put_self

/-! Steps 9 to 11. -/

section

variable {s : State} {n : Nat} {b : List Byte}

/-- A packet of a session that has taken its slot and stands in its domain's queue: of the rest nothing has changed. -/
structure State.Joined (s : State) (n : Nat) (b : List Byte) (t : State) : Prop where
  queue : t.cmd.queue = s.cmd.queue ++ [queuedOf n b]
  rings : t.cmd.rings = s.cmd.rings
  seq : (t.session n).lastSeq = some (headerOf b).seq
  tick : (t.session n).lastTick = (s.session n).lastTick
  kind : (t.session n).kind = (s.session n).kind
  slot : t.unanswered { sess := n, tag := (headerOf b).tag, seq := (headerOf b).seq } (headerOf b).opcode = true
  regs : t.regs = s.regs
  outbox : t.outbox = s.outbox

/-- A sound packet passes steps 9 to 11 (R80, R423). -/
theorem State.acceptFrom9_sound {forwarded : Bool} (h : s.sound forwarded b = true) :
    s.acceptFrom9 forwarded n b = (s.setSlot n (headerOf b).tag { s.slot n (headerOf b).tag with
      reserved := reservedOffset (headerOf b).opcode
        (if (headerOf b).locked then (payloadOf b (headerOf b)).drop 4 else payloadOf b (headerOf b)) }).enqueue
      (queuedOf n b) := by
  simp only [State.sound, Bool.and_eq_true, Option.isNone_iff_eq_none, bne_iff_ne, beq_iff_eq] at h
  obtain ⟨⟨⟨⟨hflags, htarget⟩, hop⟩, hopen⟩, hlen⟩ := h
  have hhere : ¬((headerOf b).chained && (headerOf b).target != s.chainId && !forwarded) = true := by
    grind
  rw [State.acceptFrom9]
  simp only [hflags, hhere, hop, hopen, hlen]
  rfl

theorem State.takeSlot_joins {forwarded : Bool} (h : s.sound forwarded b = true) :
    s.Joined n b ((s.takeSlot n (headerOf b)).acceptFrom9 forwarded n b) := by
  have hs : (s.takeSlot n (headerOf b)).sound forwarded b = true :=
    (State.sound_congr rfl (fun _ _ => rfl) forwarded b).trans h
  rw [State.acceptFrom9_sound hs]
  generalize hx : reservedOffset _ _ = x
  have hsess (u : State) (q : Queued) : (u.enqueue q).session n = u.session n := rfl
  refine ⟨rfl, rfl, ?seq, ?tick, ?kind, ?slot, rfl, rfl⟩
  case seq => rw [hsess, State.setSlot_session, State.takeSlot_session]
  case tick => rw [hsess, State.setSlot_session, State.takeSlot_session]
  case kind => rw [hsess, State.setSlot_session, State.takeSlot_session]
  case slot =>
    have hslot : ((((s.takeSlot n (headerOf b)).setSlot n (headerOf b).tag
        { (s.takeSlot n (headerOf b)).slot n (headerOf b).tag with reserved := x }).enqueue (queuedOf n b)).slot n
          (headerOf b).tag) = { (s.takeSlot n (headerOf b)).slot n (headerOf b).tag with reserved := x } :=
      State.slot_setSlot ..
    rw [State.unanswered, hslot, State.takeSlot_slot]
    simp

/-! A packet for another member (R94). -/

theorem State.acceptFrom9_elsewhere (hflags : s.flagBreach false (headerOf b) (payloadOf b (headerOf b)) = none)
    (hc : (headerOf b).chained = true) (ht : (headerOf b).target ≠ s.chainId) :
    s.acceptFrom9 false n b = s.forward n b := by
  rw [State.acceptFrom9]
  simp [hflags, hc, ht]

theorem State.forward_reads (s : State) (n : Nat) (b : List Byte) :
    (s.forward n b).cmd.queue = s.cmd.queue ∧
      (s.forward n b).chain.inFlight = s.chain.inFlight ++ [⟨(headerOf b).target, n, (headerOf b).tag, none⟩] ∧
      ∀ t, (s.forward n b).slot n t = s.slot n t := by
  rw [State.forward, Option.isSome_none, Bool.false_or]
  split
  · exact ⟨by rw [State.chainTo_cmd]; rfl, State.chainTo_inFlight .., fun t => State.slot_of_cmd (State.chainTo_cmd ..) n t⟩
  · refine ⟨by rw [State.chainTo_cmd]; rfl, State.chainTo_inFlight .., fun t => ?_⟩
    refine (State.slot_of_cmd (State.chainTo_cmd ..) n t).trans ?_
    exact congrArg (fun q : Session => tabGet {} q.slots t) ((State.session_setSession ..).trans (if_pos rfl))

/-! A repeated packet (R85, R86). -/

/-- A packet that repeats a completed command is answered from its slot. -/
theorem State.acceptFrom5_repeated {src : PktSrc} (hfetch : (headerOf b).opcode ≠ 0x0002)
    (ht : (s.slot n (headerOf b).tag).taken = true) (hd : (s.slot n (headerOf b).tag).done = true)
    (ho : (s.slot n (headerOf b).tag).opcode = (headerOf b).opcode)
    (hq : (s.slot n (headerOf b).tag).seq = (headerOf b).seq) :
    s.acceptFrom5 src n b = (s.respond src { (s.slot n (headerOf b).tag).reply n (headerOf b).tag with
      again := true }).markDelivered n (headerOf b).tag := by
  rw [State.acceptFrom5]
  simp [hfetch, ht, hd, ho, hq]

theorem State.markDelivered_outbox (s : State) (n t : Nat) : (s.markDelivered n t).outbox = s.outbox := by
  rw [State.markDelivered]
  split <;> rfl

theorem State.markDelivered_queue (s : State) (n t : Nat) : (s.markDelivered n t).cmd.queue = s.cmd.queue := by
  rw [State.markDelivered]
  split <;> rfl

/-- The stored reply of a completed command whose session can be reached has been delivered. -/
theorem State.markDelivered_slot {t : Nat} (hd : (s.slot n t).done = true) (hr : s.reaches n = true) :
    (s.markDelivered n t).slot n t = { s.slot n t with delivered := true } := by
  rw [State.markDelivered, if_pos (by rw [hd, hr]; rfl), State.slot_setSlot]

theorem State.reaches_eth {ip port : Nat} (h : s.sessKind n = .eth ip port) : s.reaches n = true := by
  rw [State.reaches, h]

/-! A forwarded packet (R94). -/

/-- The session of a forwarded packet is its origin's, found or opened; opening shows in CMD_STATUS alone. -/
theorem State.forwardedSession_some {u : State} {dev sess : Nat} (h : s.forwardedSession dev sess = some (n, u)) :
    (u.session n).kind = .forwarded dev sess ∧ u.cmd.queue = s.cmd.queue ∧ u.chain = s.chain ∧
      ∀ a, a ≠ Reg.CMD_STATUS → u.reg a = s.reg a := by
  rw [State.forwardedSession] at h
  split at h
  case h_1 hm =>
    cases h
    have hkind : ((s.session n).kind == .forwarded dev sess) = true :=
      List.find?_some (p := fun k => (s.session k).kind == .forwarded dev sess) hm
    exact ⟨eq_of_beq hkind, rfl, rfl, fun _ _ => rfl⟩
  case h_2 =>
    obtain ⟨m, -, e⟩ := Option.map_eq_some_iff.mp h
    cases e
    refine ⟨?_, rfl, rfl, fun a ha => State.reg_setFld_other ha⟩
    exact congrArg Session.kind ((State.session_setSession ..).trans (if_pos rfl))

theorem State.takeForwarded_packet {u : State} {dev sess : Nat} (hlen : b.length = 16 + (headerOf b).length)
    (hmax : (headerOf b).length ≤ 4080) (hclose : (headerOf b).opcode ≠ 0x0031 ∨ (headerOf b).tag ≠ 255)
    (hs : sess < 16) (h : s.forwardedSession dev sess = some (n, u)) :
    s.takeForwarded dev sess b = (u.takeSlot n (headerOf b)).acceptFrom9 true n b := by
  rw [State.takeForwarded, if_neg (by omega), if_neg (by omega), if_neg (by omega), if_neg (by omega), h]

end

/-- Settles O24, by the steps of Table 04-3 one after the other. -/
theorem commandPacketCompletes : Obligations.CommandPacketCompletes := by
  refine ⟨?eth, ?ring, ?forwarded, ?elsewhere, ?pad, ?repeated⟩
  case eth =>
    intro s ip port b hh hlen h4 hk ho hturn hsound
    have hturn' : (s.heard (headerOf b).session).inTurn (headerOf b).session b = true :=
      (State.heard_inTurn ..).trans hturn
    have hsound' : (s.heard (headerOf b).session).sound false b = true :=
      (State.sound_congr rfl (fun _ _ => rfl) false b).trans hsound
    obtain ⟨queue, -, seq, tick, -, slot, regs, outbox⟩ := State.takeSlot_joins (n := (headerOf b).session) hsound'
    refine ⟨_, ?_, queue, seq, tick.trans ?_, slot, regs, outbox⟩
    · change execCommandPacket (.eth ip port) b s = _
      rw [execCommandPacket, State.acceptFrom1_eth hh hlen h4 hk (fun h => ho h.1), State.acceptFrom5_inTurn hturn']
    · rw [State.heard_session, if_pos rfl]
  case ring =>
    intro s r b hr htakes hh hs _ hfit ho hturn hsound
    have hsound' : (s.ringTaken r b).sound false b = true :=
      (State.sound_congr rfl (fun _ _ => rfl) false b).trans hsound
    obtain ⟨queue, rings, seq, -, -, slot, regs, outbox⟩ := State.takeSlot_joins (n := r) hsound'
    refine ⟨_, ?_, queue, ?_, seq, slot, regs, outbox⟩
    · change execCommandPacket (.ring r) b s = _
      rw [execCommandPacket_ring hr htakes, State.takeFromRing_packet hh hs hfit,
        State.acceptFrom5_inTurn (s := s.ringTaken r b) hturn]
    · exact congrArg Ring.cmdCons (State.ring_of_rings rings r |>.trans (State.ringTaken_ring ..))
  case forwarded =>
    intro s u dev sess n b hlen hmax hclose hs h hsound
    obtain ⟨hkind, hqueue, hchain, hregs⟩ := State.forwardedSession_some h
    have hsound' : u.sound true b = true := (State.sound_congr hchain hregs true b).trans hsound
    obtain ⟨queue, -, -, -, kind, slot, -, -⟩ := State.takeSlot_joins (n := n) hsound'
    refine ⟨_, ?_, queue.trans (by rw [hqueue]), kind.trans hkind, slot⟩
    change execCommandPacket (.chain dev sess) b s = _
    rw [execCommandPacket, State.takeForwarded_packet hlen hmax hclose hs h]
  case elsewhere =>
    intro s ip port b hh hlen h4 hk ho hturn hflags hc ht
    have hturn' : (s.heard (headerOf b).session).inTurn (headerOf b).session b = true :=
      (State.heard_inTurn ..).trans hturn
    let u := (s.heard (headerOf b).session).takeSlot (headerOf b).session (headerOf b)
    have hflags' : u.flagBreach false (headerOf b) (payloadOf b (headerOf b)) = none :=
      (State.flagBreach_congr rfl (fun _ _ => rfl) ..).trans hflags
    obtain ⟨queue, inFlight, slots⟩ := u.forward_reads (headerOf b).session b
    refine ⟨_, ?_, queue, inFlight, ?_⟩
    · change execCommandPacket (.eth ip port) b s = _
      rw [execCommandPacket, State.acceptFrom1_eth hh hlen h4 hk (fun h => ho h.1),
        State.acceptFrom5_inTurn hturn', State.acceptFrom9_elsewhere (s := u) hflags' hc ht]
    · rw [State.unanswered, slots, State.takeSlot_slot]
      simp
  case pad =>
    intro s r b hr htakes ho ht
    have e : s.takeFromRing r b = s.ringTaken r b := by rw [State.takeFromRing, if_pos ⟨ho, ht⟩]; rfl
    refine ⟨_, execCommandPacket_ring hr htakes, ?_, ?_⟩
    · rw [e, State.ringTaken_ring]
    · rw [e]; rfl
  case repeated =>
    intro s ip port p hop b hh hlen h4 hk ho hroute hfetch ht hd hsame hseq
    let n := (headerOf b).session
    let rep : Reply := { (s.slot n (headerOf b).tag).reply n (headerOf b).tag with again := true }
    let u := (s.heard n).sendDatagram ip port (replyBytes rep)
    have hcmd : u.cmd = (s.heard n).cmd := State.sendDatagram_cmd ..
    have hslot : u.slot n (headerOf b).tag = s.slot n (headerOf b).tag :=
      (State.slot_of_cmd hcmd ..).trans (State.heard_slot ..)
    have hkind : u.sessKind n = .eth ip port := by
      rw [State.sessKind, if_neg (Nat.not_lt.mpr h4), State.session_of_cmd hcmd, State.heard_session, if_pos rfl]
      exact hk
    have e : execCommandPacket (.eth ip port) b s = .next (u.markDelivered n (headerOf b).tag) := by
      rw [execCommandPacket, State.acceptFrom1_eth hh hlen h4 hk (fun h => ho h.1),
        State.acceptFrom5_repeated hfetch (by simpa using ht) (by simpa using hd) (by simpa using hsame)
          (by simpa using hseq), State.heard_slot]
      rfl
    refine ⟨_, e, ?queue, ?outbox, ?delivered⟩
    case queue => rw [State.markDelivered_queue, hcmd]; rfl
    case outbox => rw [State.markDelivered_outbox, State.heard_sendDatagram_outbox, State.sendDatagram_outbox hroute]
    case delivered => rw [State.markDelivered_slot (by rw [hslot, hd]) (State.reaches_eth hkind)]

end Sys2Proof.Machine

/-! SUPPORT. Sessions (R86 to R93): what the commands about a session leave, and the statements about them. -/
namespace Sys2Proof.Machine

/-! Reading a tag's slot (R86). -/

theorem State.sessKind_of_cmd {t u : State} (h : t.cmd = u.cmd) (n : Nat) : t.sessKind n = u.sessKind n := by
  rw [State.sessKind, State.session_of_cmd h, State.sessKind]

theorem State.sessOpen_of_sessions {t u : State} (h : t.cmd.sessions = u.cmd.sessions) (n : Nat) :
    t.sessOpen n = u.sessOpen n := by
  rw [State.sessOpen, State.sessKind, State.session_of_sessions h, State.sessOpen, State.sessKind]

theorem State.deliver_eth {s : State} {n ip port : Nat} (h : s.sessKind n = .eth ip port) (rep : Reply) :
    s.deliver n rep = s.sendDatagram ip port (replyBytes rep) := by
  rw [State.deliver, h]

/-- A fetch over Ethernet sends what the slot holds, and a completed command's reply has then been delivered. -/
theorem State.fetch_eth {s : State} {n t ip port p hop : Nat} (hk : s.sessKind n = .eth ip port)
    (hroute : s.ethRoute ip = some (p, hop)) (echo : Reply) :
    (s.fetch n t echo).outbox = s.outbox ++ [.datagram p hop ip port (replyBytes (fetched (s.slot n t) n t echo))] ∧
      (s.fetch n t echo).slot n t =
        if (s.slot n t).done then { s.slot n t with delivered := true } else s.slot n t := by
  have hcmd := State.sendDatagram_cmd s ip port (replyBytes (fetched (s.slot n t) n t echo))
  have hslot := State.slot_of_cmd hcmd n t
  rw [State.fetch, State.deliver_eth hk]
  constructor
  · rw [State.markDelivered_outbox, State.sendDatagram_outbox hroute]
  · split
    case isTrue hd =>
      rw [State.markDelivered_slot (by rw [hslot, hd]) (State.reaches_eth ((State.sessKind_of_cmd hcmd n).trans hk)), hslot]
    case isFalse hd =>
      rw [State.markDelivered, hslot, if_neg (by simp [hd]), hslot]

/-- What a fetch of a taken slot gives: the stored reply, or that the command is under way. -/
theorem fetched_taken {x : Slot} {n t : Nat} (ht : x.taken = true) (h64 : t < 64) (echo : Reply) :
    fetched x n t echo = if x.done then x.reply n t else x.pending echo.state n t := by
  rw [fetched, if_neg (by simp [ht, Nat.le_of_lt_succ h64])]

/-! A session's end (R93). -/

theorem State.showOpen_open {s : State} {n : Nat} (hn : n < 16) (op : Bool) :
    bitAt ((s.showOpen n op).fld Reg.CMD_STATUS_OPEN) n = op := by
  rw [State.showOpen, State.bitAt_setFld ⟨by decide, by decide⟩ hn]
  cases op
  · exact bitAt_clearBitAt_self ..
  · exact bitAt_setBitAt_self ..

theorem State.closeSession_session (s : State) (n : Nat) : (s.closeSession n).session n = {} :=
  (State.session_of_cmd (State.setFld_cmd ..) n).trans ((State.session_setSession ..).trans (if_pos rfl))

theorem State.closeSession_open {s : State} {n : Nat} (h4 : 4 ≤ n) (h16 : n < 16) :
    bitAt ((s.closeSession n).fld Reg.CMD_STATUS_OPEN) n = false :=
  (State.showOpen_open h16 _).trans (decide_eq_false (Nat.not_lt.mpr h4))

/-! A key stored (R91). -/

/-- A key of the non-volatile die replaced. -/
def State.setKey (s : State) (slot : Nat) (key : List Byte) : State :=
  { s with cmd := { s.cmd with keys := tabPut keyReset s.cmd.keys slot key } }

theorem State.key_of_keys {t u : State} (h : t.cmd.keys = u.cmd.keys) (k : Nat) : t.key k = u.key k := by
  rw [State.key, h, State.key]

theorem State.key_setKey (s : State) (slot k : Nat) (key : List Byte) :
    (s.setKey slot key).key k = if k = slot then key else s.key k := by
  rw [State.key, State.key, State.setKey, tabGet_put]

theorem execKeySet_legal {s : State} {rq : Rq} {slot : Nat} {key : List Byte} (h : s.ready rq 0x0032 = true)
    (h4 : rq.sess < 4) (hslot : slot < 4) : execKeySet rq slot key s =
      .next ((((s.take rq).setKey slot (slice key 0 32)).finish rq 0x0032 scDone).lift rq.sess rq.tag) := by
  rw [execKeySet, State.run_ready _ h, if_neg (Nat.not_le.mpr h4),
    State.withParams_ok _ (State.ready_reserved h) (by simp [hslot])]
  rfl

/-- Of the command unit an answer and a barrier's end change the rings, the sessions and the barrier at most. -/
theorem State.finish_lift_cmd (u : State) (rq : Rq) (op st : Nat) (pl : List Byte) (n t : Nat) :
    ∃ r l b, ((u.finish rq op st pl).lift n t).cmd = { u.cmd with rings := r, sessions := l, barrier := b } := by
  obtain ⟨r, l, e⟩ := u.finish_cmd rq op st pl false
  obtain ⟨b, e2⟩ := (u.finish rq op st pl).lift_cmd n t
  exact ⟨r, l, b, by rw [e2, e]⟩

/-- Settles O14: each command by its answer or by what it leaves of its session. -/
theorem sessionCommandsComplete : Obligations.SessionCommandsComplete := by
  refine ⟨?nop, ?getState, ?replyFetch, ?keySet, ?close⟩
  case nop =>
    intro s rq h
    exact ⟨_, rfl, State.runIn_answered h rfl (State.ready_open h), fun a ha => State.runIn_reg (u := s.take rq) h rfl ha⟩
  case getState =>
    intro s rq h
    exact ⟨_, rfl, State.runIn_answered h rfl (State.ready_open h), fun a ha => State.runIn_reg (u := s.take rq) h rfl ha⟩
  case replyFetch =>
    intro s rq tag ip port p hop hk h64 hroute ht
    obtain ⟨houtbox, hslot⟩ := State.fetch_eth (t := tag) hk hroute
      ⟨0x0002, rq.tag, false, false, 0, rq.seq, rq.sess, [], s.st⟩
    rw [fetched_taken ht h64] at houtbox
    exact ⟨_, rfl, houtbox, hslot⟩
  case keySet =>
    intro s rq slot key h h4 hslot
    have hopen : ((s.take rq).setKey slot (slice key 0 32)).sessOpen rq.sess = true :=
      (State.sessOpen_of_sessions (u := s.take rq) rfl _).trans (State.ready_open h)
    refine ⟨_, execKeySet_legal h h4 hslot, State.finish_lift_answered hopen .., fun k => ?_⟩
    obtain ⟨r, l, bar, hcmd⟩ := ((s.take rq).setKey slot (slice key 0 32)).finish_lift_cmd rq 0x0032 scDone [] rq.sess rq.tag
    exact (State.key_of_keys (u := (s.take rq).setKey slot (slice key 0 32)) (by rw [hcmd]) k).trans (State.key_setKey ..)
  case close =>
    intro s rq n h h4 h16 hopen hright
    have hop : ∀ f ∈ [(16, decide (4 ≤ n) && decide (n < 16) && (s.take rq).sessOpen n &&
        (decide (rq.sess < 4) || rq.sess == n))], f.2 = true := by
      have hopen' : (s.take rq).sessOpen n = true := hopen
      simp [h4, h16, hopen', hright]
    have e : execSessionClose rq n s =
        .next ((((s.take rq).finish rq 0x0031 scDone).closeSession n).lift rq.sess rq.tag) := by
      rw [execSessionClose, State.run_ready _ h, State.withParams_ok _ (State.ready_reserved h) hop]
    have hsess : ((((s.take rq).finish rq 0x0031 scDone).closeSession n).lift rq.sess rq.tag).session n = {} :=
      (State.session_of_sessions (State.lift_sessions ..) n).trans (State.closeSession_session ..)
    refine ⟨_, e, ?closed, hsess, ?shown⟩
    case closed => simp [State.sessOpen, State.sessKind, Nat.not_lt.mpr h4, hsess]
    case shown =>
      rw [State.lift_fld ⟨by decide, by decide⟩ (.inl (by decide)), State.closeSession_open h4 h16]

end Sys2Proof.Machine

/-! SUPPORT. SESSION_OPEN (R90): the two phases of an open, and what each leaves. -/
namespace Sys2Proof.Machine

/-! A SESSION_OPEN that comes to run. -/

/-- The queue without a SESSION_OPEN that is taken from it. -/
def State.openTaken (s : State) (ip port : Nat) (rq : Rq) (p : List Byte) : State :=
  { s with cmd := { s.cmd with
    queue := s.cmd.queue.eraseP fun q => q.is rq.sess rq.tag && q.cmd == some (.sessionOpen ip port rq p) } }

/-- A SESSION_OPEN whose own fields are legal is the phase that it names. -/
theorem execSessionOpen_legal {s : State} {rq : Rq} {ip port : Nat} {p : List Byte}
    (hh : s.held rq 0x0030 [.platform] = false) (ha : acceptedIn 0x0030 s.st = true) (hl : rq.lock = none)
    (hphase : leAt p 0 1 ≤ 1) (hslot : leAt p 1 1 ≤ 3)
    (hz : firstNonzero (fun _ => true) (slice p 2 2) 18 = none) :
    execSessionOpen ip port rq p s = .next (if leAt p 0 1 = 0 then (s.openTaken ip port rq p).openPhase0 ip port rq p
      else (s.openTaken ip port rq p).openPhase1 ip port rq p) := by
  have ha' : acceptedIn 0x0030 (s.openTaken ip port rq p).st = true := ha
  rw [execSessionOpen, hh, hl]
  simp only [hz]
  rw [if_neg (by decide), if_neg (by rw [State.openTaken] at ha'; rw [ha']; decide), if_neg (Nat.not_lt.mpr hphase),
    if_neg (Nat.not_lt.mpr hslot)]
  rfl

/-! The reply, which takes no slot. -/

section

variable {s : State} {rq : Rq} {ip port : Nat}

theorem State.openReply_cmd (status : Nat) (payload : List Byte) :
    (s.openReply ip port rq status payload).cmd = s.cmd := by
  rw [State.openReply]
  split
  · exact State.sendDatagram_cmd ..
  · rfl

/-- The reply shows in the frame counters of the ports alone. -/
theorem State.openReply_reg {a : Nat} (h0 : a ≠ Reg.ETH_CNT_FRAMES 0) (h1 : a ≠ Reg.ETH_CNT_FRAMES 1) (status : Nat)
    (payload : List Byte) : (s.openReply ip port rq status payload).reg a = s.reg a := by
  rw [State.openReply]
  split
  · rw [State.respond, State.sendDatagram]
    split
    · rename_i r e
      refine (State.reg_setFld_other ?_).trans rfl
      rcases State.ethRoute_port e with k | k <;> rw [k] <;> assumption
    · rfl
  · rfl

/-- A DONE goes out under NEED_REPLY only (R80). -/
theorem State.openReply_outbox {q hop : Nat} (hroute : s.ethRoute ip = some (q, hop)) (payload : List Byte) :
    (s.openReply ip port rq scDone payload).outbox = s.outbox ++ if rq.needReply then
      [.datagram q hop ip port (replyBytes ⟨0x0030, rq.tag, false, false, scDone, rq.seq, 255, payload, s.st⟩)]
      else [] := by
  rw [State.openReply, bne_self_eq_false, Bool.or_false]
  split
  · exact State.sendDatagram_outbox hroute ..
  · exact (List.append_nil _).symm

/-! Phase 0. -/

/-- A device nonce is drawn, and the open waits for its phase 1 in the place of an earlier one of its source. -/
def State.keepOpen (s : State) (o : OpenTry) : State :=
  { s.dropOpen o.ip o.port with
    fresh := s.fresh + 1
    cmd := { (s.dropOpen o.ip o.port).cmd with opens := (s.dropOpen o.ip o.port).cmd.opens ++ [o] } }

/-- The device nonce of phase 0, which is a free value (assumption log 23). -/
def State.nonce (s : State) : List Byte := (List.range 16).map (Config.randomByte s.fresh)

/-- Phase 0 on a key slot that is not locked out draws a nonce, keeps it with the host's, and answers it. -/
theorem State.openPhase0_draws {p : List Byte} (hout : tabGet false s.cmd.lockouts (leAt p 1 1) = false) :
    s.openPhase0 ip port rq p =
      (s.keepOpen ⟨ip, port, leAt p 1 1, slice p 4 16, s.nonce, s.now⟩).openReply ip port rq scDone s.nonce := by
  rw [State.openPhase0, hout]
  rfl

/-! Phase 1. -/

/-- Phase 1 in time, on the key slot of phase 0, with the right HMAC and a session free. -/
theorem State.openPhase1_opens {p : List Byte} {o : OpenTry} {n : Nat}
    (hfind : s.cmd.opens.find? (fun q => q.ip == ip && q.port == port) = some o)
    (htime : s.now ≤ o.tick + ticksOfMs 1000) (hslot : o.slot = leAt p 1 1)
    (hmac : hmacSha256 (s.key (leAt p 1 1)) (o.devNonce ++ o.hostNonce ++ bytesOf [leAt p 1 1]) = slice p 4 32)
    (hfree : s.freeSession = some n) :
    s.openPhase1 ip port rq p = ((s.dropOpen ip port).openSession n (.eth ip port)).openReply ip port rq scDone
      (bytesOf [n, 0, 0, 0] ++ hmacSha256 (s.key (leAt p 1 1)) (o.hostNonce ++ o.devNonce ++ bytesOf [n])) := by
  have hnow : ¬o.tick + ticksOfMs 1000 < (s.dropOpen ip port).now := Nat.not_lt.mpr htime
  have hkey : (s.dropOpen ip port).key (leAt p 1 1) = s.key (leAt p 1 1) := rfl
  have hfree' : (s.dropOpen ip port).freeSession = some n := hfree
  rw [State.openPhase1, hfind]
  dsimp only
  rw [if_neg hnow, if_neg (not_not.mpr hslot), hkey, if_neg (not_not.mpr hmac), hfree']

theorem State.freeSession_lt {n : Nat} (h : s.freeSession = some n) : 4 ≤ n ∧ n < 16 := by
  have hm := List.mem_of_find?_eq_some h
  simpa [and_comm] using hm

theorem State.openSession_kind (s : State) (n : Nat) (k : SessKind) : ((s.openSession n k).session n).kind = k :=
  congrArg Session.kind ((State.session_setSession ..).trans (if_pos rfl))

end

/-- Settles O15: phase 0 by the nonce it draws, phase 1 by the session it opens. -/
theorem sessionOpenCompletes : Obligations.SessionOpenCompletes := by
  refine ⟨?phase0, ?phase1⟩
  case phase0 =>
    intro s rq ip port q hop p hh ha hl hneed hroute hphase hslot hz hout
    let u := (s.openTaken ip port rq p).keepOpen ⟨ip, port, leAt p 1 1, slice p 4 16, s.nonce, s.now⟩
    have e : execSessionOpen ip port rq p s = .next (u.openReply ip port rq scDone s.nonce) := by
      rw [execSessionOpen_legal hh ha hl (by omega) hslot hz, if_pos hphase,
        State.openPhase0_draws (s := s.openTaken ip port rq p) hout]
      rfl
    have hroute' : u.ethRoute ip = some (q, hop) := (State.ethRoute_congr (fun _ _ => rfl) ip).trans hroute
    refine ⟨_, e, ?outbox, ?kept⟩
    case outbox =>
      rw [State.openReply_outbox hroute', if_pos hneed]
      rfl
    case kept =>
      rw [State.openReply_cmd]
      exact List.getLast?_concat ..
  case phase1 =>
    intro s rq ip port n p o hh ha hl hphase hslot hz hfind htime hkey hmac hfree
    let u := ((s.openTaken ip port rq p).dropOpen ip port).openSession n (.eth ip port)
    let reply := bytesOf [n, 0, 0, 0] ++ hmacSha256 (s.key (leAt p 1 1)) (o.hostNonce ++ o.devNonce ++ bytesOf [n])
    have e : execSessionOpen ip port rq p s = .next (u.openReply ip port rq scDone reply) := by
      rw [execSessionOpen_legal hh ha hl (by omega) hslot hz, if_neg (by omega),
        State.openPhase1_opens (s := s.openTaken ip port rq p) hfind htime hkey hmac hfree]
      rfl
    obtain ⟨-, hn⟩ := State.freeSession_lt hfree
    refine ⟨_, e, ?kind, ?shown, fun q hop hroute => ?reply⟩
    case kind => rw [State.session_of_cmd (State.openReply_cmd ..), State.openSession_kind]
    case shown =>
      rw [State.fld_of_reg (State.openReply_reg (by decide) (by decide) ..)]
      exact State.showOpen_open hn true
    case reply =>
      have hroute' : u.ethRoute ip = some (q, hop) :=
        (State.ethRoute_congr (fun a h => State.reg_setFld_other h) ip).trans hroute
      have hst : u.st = s.st := State.fld_of_reg (State.reg_setFld_other (by decide))
      rw [State.openReply_outbox hroute', hst]
      rfl

end Sys2Proof.Machine

/-! SUPPORT. Writes through BAR0 (R21, R101): which registers they reach, and what is recorded of those they do not. -/
namespace Sys2Proof.Machine

/-! A register that is one RW field. -/

theorem and_disjoint_not (a c m : Word) : (a &&& ~~~m) &&& (c &&& m) = 0#32 := by
  ext i hi
  simp only [BitVec.getElem_and, BitVec.getElem_not, BitVec.getElem_zero]
  cases m[i] <;> simp

/-- What a mask leaves out of a word, and what it takes in. -/
theorem toNat_sub_and (a m : Word) : a.toNat - (a &&& m).toNat = (a &&& ~~~m).toNat := by
  have hsplit : (a &&& ~~~m) + (a &&& m) = a := by
    rw [BitVec.add_eq_or_of_and_eq_zero _ _ (and_disjoint_not ..)]
    ext i hi
    simp only [BitVec.getElem_or, BitVec.getElem_and, BitVec.getElem_not]
    cases m[i] <;> simp
  have hsum := BitVec.toNat_add_of_and_eq_zero (and_disjoint_not a a m)
  rw [hsplit] at hsum
  omega

theorem wordBits_whole (w : Word) : wordBits w 31 0 = w.toNat := by
  rw [wordBits, bitsOf, pow_zero, Nat.div_one]
  exact Nat.mod_eq_of_lt w.isLt

/-- A write under a mask of a register that is one RW field. -/
theorem mergeWord_whole {r : RegRow} {x p : Nat} (h : r.fields = [⟨31, 0, .rw, x, p⟩]) (old mask v : Word) :
    mergeWord r old mask v = (old &&& ~~~mask) ||| (v &&& mask) := by
  have hset (w : Word) (n : Nat) : setWordBits w 31 0 n = BitVec.ofNat 32 n := by
    apply BitVec.eq_of_toNat_eq
    have hw := w.isLt
    rw [setWordBits_toNat (by omega) (by omega), setBitsOf, BitVec.toNat_ofNat]
    omega
  have hmerge : mergeWord r old mask v = BitVec.ofNat 32 ((old &&& ~~~mask).toNat + (v &&& mask).toNat) := by
    rw [mergeWord_eq_foldl, h]
    simp only [List.foldl_cons, List.foldl_nil, FieldRow.merge, putMasked, wordBits_whole, hset, ← BitVec.toNat_and, toNat_sub_and]
  rw [hmerge, BitVec.ofNat_add, BitVec.ofNat_toNat, BitVec.ofNat_toNat, BitVec.setWidth_eq, BitVec.setWidth_eq,
    BitVec.add_eq_or_of_and_eq_zero _ _ (and_disjoint_not ..)]

/-- A write of the whole register. -/
theorem mergeWord_whole_ones {r : RegRow} {x p : Nat} (h : r.fields = [⟨31, 0, .rw, x, p⟩]) (old v : Word) :
    mergeWord r old 0xFFFFFFFF#32 v = v := by
  have hones : (0xFFFFFFFF#32 : Word) = BitVec.allOnes 32 := rfl
  rw [mergeWord_whole h, hones, BitVec.not_allOnes, BitVec.and_zero, BitVec.zero_or, BitVec.and_allOnes]

/-- Any bit of the mask reaches it. -/
theorem RegRow.reached_whole {r : RegRow} {x p : Nat} (h : r.fields = [⟨31, 0, .rw, x, p⟩]) (mask : Word) :
    r.reached mask = true ↔ mask ≠ 0#32 := by
  have e : r.reached mask = (mask.toNat != 0) := by
    rw [RegRow.reached, h, List.any_cons, List.any_nil, Bool.or_false, wordBits_whole]
    rfl
  rw [e, bne_iff_ne]
  exact not_congr (BitVec.toNat_inj (y := 0#32))

/-! The registers that the statements name, in the plan and the ranges. -/

theorem Reg.evtMat_row : ∀ i, i < 256 → planRow (Reg.EVT_MAT i) = some (⟨0, 4, 256, [⟨31, 0, .rw, 0, 0⟩]⟩, i) := by
  decide +kernel

theorem Reg.evtMat_ranges : ∀ i, i < 256 → rangesAt (Reg.EVT_MAT i) = [] := by decide +kernel

theorem addrOk_iff {a : Nat} : addrOk a = true ↔ a < 0x1000000 ∧ a % 4 = 0 := by
  rw [addrOk, Bool.and_eq_true, decide_eq_true_eq, beq_iff_eq]

section

variable {i : Nat} (hi : i < 256)
include hi

theorem Reg.evtMat_addrOk : addrOk (Reg.EVT_MAT i) = true := addrOk_iff.mpr (by rw [Reg.EVT_MAT]; omega)

theorem Reg.evtMat_block : blockOf (Reg.EVT_MAT i) = 0x29 := blockOf_of_lt (o := 4 * i) (by omega) (by rw [Reg.EVT_MAT])

theorem Reg.evtMat_direct : directBlock (blockOf (Reg.EVT_MAT i)) = true := by
  rw [Reg.evtMat_block hi]
  rfl

/-- The matrix takes its word and does nothing else. -/
theorem State.putWord_evtMat {s : State} {mask v old new : Word} :
    s.putWord ⟨Reg.EVT_MAT i, mask, v⟩ old new = s.setReg (Reg.EVT_MAT i) new := by
  have hlow : ¬(0x400 ≤ offOf (Reg.EVT_MAT i) ∧ offOf (Reg.EVT_MAT i) < 0x480) := by
    rw [offOf, Reg.EVT_MAT]; omega
  have hcons : Reg.EVT_MAT i ≠ Reg.EVT_CONS := by rw [Reg.EVT_MAT, Reg.EVT_CONS]; omega
  simp only [State.putWord, Reg.evtMat_block hi, State.putEvt, if_neg hlow, if_neg hcons]

end

theorem Reg.scratch_addrOk {i : Nat} (hi : i < 20) : addrOk (Reg.PLAT_SCRATCH i) = true :=
  addrOk_iff.mpr (by rw [Reg.PLAT_SCRATCH]; omega)

/-- A register of a listed block. -/
theorem blockLast_of_direct {b : Nat} (h : directBlock b = true) : (blockLast b).isNone = false := by
  simp only [directBlock, List.contains_eq_mem, List.mem_cons, List.not_mem_nil, or_false, decide_eq_true_eq] at h
  rcases h with rfl | rfl | rfl | rfl | rfl <;> rfl

/-! What a write through BAR0 comes to. -/

section

variable {s : State} {addr i : Nat} {r : RegRow}

/-- A whole word to a mapped register of a DIRECT block. -/
theorem execBar0Write_direct (ha : addrOk addr = true) (hb : directBlock (blockOf addr) = true)
    (hr : planRow addr = some (r, i)) (hp : r.passive = false) (v : Word) :
    execBar0Write addr v 15 s = .next (if s.defers addr then s.putLater ⟨addr, 0xFFFFFFFF#32, v⟩
      else s.putWord ⟨addr, 0xFFFFFFFF#32, v⟩ (s.oldWord addr)
        (keepBroken (fun _ => true) addr (s.oldWord addr) (mergeWord r (s.oldWord addr) 0xFFFFFFFF#32 v))) := by
  rw [execBar0Write, ha, blockLast_of_direct hb, hb, hr]
  simp [hp]

/-- Some of a word's bytes to a mapped register of a DIRECT block (Table 04-12, cause 2). -/
theorem execBar0Write_partial (ha : addrOk addr = true) (hb : directBlock (blockOf addr) = true)
    (hr : planRow addr = some (r, i)) {be : Nat} (hbe : be ≠ 15) (v : Word) :
    execBar0Write addr v be s = .next (s.cmdErr 2 addr) := by
  rw [execBar0Write, ha, blockLast_of_direct hb, hb, hr]
  simp [hbe]

/-- A register of a listed block that is not DIRECT (Table 04-12, cause 1). -/
theorem execBar0Write_elsewhere (ha : addrOk addr = true) (hl : (blockLast (blockOf addr)).isNone = false)
    (hb : directBlock (blockOf addr) = false) (v : Word) (be : Nat) :
    execBar0Write addr v be s = .next (s.cmdErr 1 addr) := by
  rw [execBar0Write, ha, hl, hb]
  rfl

/-- The first error since CMD_ERR was read is latched with its address (Table 04-12); nothing else changes. -/
theorem State.cmdErr_first (h : s.fld Reg.CMD_ERR_CAUSE = 0) {cause : Nat} (hc : cause < 16) (ha : addr < 2 ^ 24) :
    (s.cmdErr cause addr).fld Reg.CMD_ERR_CAUSE = cause ∧ (s.cmdErr cause addr).fld Reg.CMD_ERR_ADDR = addr ∧
      ∀ a, a ≠ Reg.CMD_ERR → (s.cmdErr cause addr).reg a = s.reg a := by
  rw [State.cmdErr, if_pos h]
  refine ⟨?_, State.fld_setFld (Fld.fits_of_decide rfl) ha, fun a hne => ?_⟩
  · rw [State.fld_setFld_clear (Fld.clearOf_of_bits (by rfl))]
    exact State.fld_setFld (Fld.fits_of_decide rfl) hc
  · exact (State.reg_setFld_other hne).trans (State.reg_setFld_other hne)

end

/-- Settles O26: a whole word to a DIRECT block is its register's write, any other write shows in CMD_ERR. That a block
that is not DIRECT comes first, whatever the byte enables, is the model's order (assumption log 24). -/
theorem bar0WriteCompletes : Obligations.Bar0WriteCompletes := by
  refine ⟨?now, ?later, ?matrix, ?partly, ?elsewhere⟩
  case now =>
    intro s addr i r v ha hb hr hp hd
    exact (execBar0Write_direct ha hb hr hp v).trans (congrArg _ (if_neg (by simp [hd])))
  case later =>
    intro s addr i r v ha hb hr hp hd
    exact (execBar0Write_direct ha hb hr hp v).trans (congrArg _ (if_pos hd))
  case matrix =>
    intro s i v hi
    have hd : s.defers (Reg.EVT_MAT i) = false := State.defers_of_on s (by rw [Reg.evtMat_block hi]; decide)
    have hw (w : Word) : s.putWord ⟨Reg.EVT_MAT i, 0xFFFFFFFF#32, v⟩ w v = s.setReg (Reg.EVT_MAT i) v :=
      State.putWord_evtMat hi
    refine ⟨s.setReg (Reg.EVT_MAT i) v, ?_, State.reg_setReg_self .., fun a ha => State.reg_setReg_other ha⟩
    rw [← hw (s.oldWord (Reg.EVT_MAT i))]
    refine (execBar0Write_direct (Reg.evtMat_addrOk hi) (Reg.evtMat_direct hi) (Reg.evtMat_row i hi) rfl v).trans ?_
    rw [hd, mergeWord_whole_ones rfl, keepBroken_of_not_picked (by simp [Reg.evtMat_ranges i hi])]
    rfl
  case partly =>
    intro s i be v hi hbe h
    have hlt : Reg.EVT_MAT i < 2 ^ 24 := by rw [Reg.EVT_MAT]; omega
    obtain ⟨hcause, haddr, hregs⟩ := State.cmdErr_first h (cause := 2) (by decide) hlt
    refine ⟨_, execBar0Write_partial (Reg.evtMat_addrOk hi) (Reg.evtMat_direct hi) (Reg.evtMat_row i hi) hbe v, ?_, hcause,
      haddr⟩
    exact hregs _ (by rw [Reg.EVT_MAT, Reg.CMD_ERR]; omega)
  case elsewhere =>
    intro s i be v hi h
    have hb : blockOf (Reg.PLAT_SCRATCH i) = 0x00 :=
      blockOf_of_lt (o := 0x30 + 4 * i) (by omega) (by rw [Reg.PLAT_SCRATCH]; omega)
    have hlt : Reg.PLAT_SCRATCH i < 2 ^ 24 := by rw [Reg.PLAT_SCRATCH]; omega
    obtain ⟨hcause, haddr, hregs⟩ := State.cmdErr_first h (cause := 1) (by decide) hlt
    refine ⟨_, execBar0Write_elsewhere (Reg.scratch_addrOk hi) (by rw [hb]; rfl) (by rw [hb]; rfl) v be, ?_, hcause, haddr⟩
    exact hregs _ (by rw [Reg.PLAT_SCRATCH, Reg.CMD_ERR]; omega)

end Sys2Proof.Machine

/-! SUPPORT. The table-load form (R104): what a chunk leaves, and the statement about chunks that are not the last. -/
namespace Sys2Proof.Machine

/-! A chunk judged. -/

/-- What is staged for a chunk, with the chunk behind it. -/
def State.withChunk (s : State) (op : Nat) (c : Chunk) : Staging :=
  ⟨c.total, false, (if c.offset = 0 then [] else (s.staged op c.inst).data) ++ c.data⟩

theorem chunkGoesOn_iff {s : State} {op limit : Nat} {c : Chunk} : s.chunkGoesOn op limit c = true ↔
    c.inst < limit ∧ c.flags = 0 ∧ 0 < c.data.length ∧ c.data.length % 4 = 0 ∧ c.offset + c.data.length ≤ c.total ∧
      (c.offset = 0 ∨ (s.staged op c.inst).data.length = c.offset ∧ (s.staged op c.inst).total = c.total ∧
        (s.staged op c.inst).reset = false) := by
  simp only [State.chunkGoesOn, Bool.and_eq_true, Bool.or_eq_true, decide_eq_true_eq, beq_iff_eq, Bool.not_eq_true',
    and_assoc]

/-- A chunk that goes on is staged. -/
theorem judgeChunk_goesOn {s : State} {op limit : Nat} {c : Chunk} (h : s.chunkGoesOn op limit c = true) (m : Bool) :
    judgeChunk m (s.staged op c.inst) c = .more (s.withChunk op c) := by
  obtain ⟨-, hflags, hpos, hfour, hfit, hcont⟩ := chunkGoesOn_iff.mp h
  have hlast : chunkLast c = false := by rw [chunkLast, hflags]; rfl
  have hreset : chunkReset c = false := by rw [chunkReset, hflags]; rfl
  have hne : c.data.length ≠ 0 := Nat.ne_of_gt hpos
  have hover : ¬c.total < c.offset + c.data.length := Nat.not_lt.mpr hfit
  rw [judgeChunk, State.withChunk]
  by_cases h0 : c.offset = 0
  · have hover' : ¬c.total < c.data.length := by omega
    simp [h0, hflags, hlast, hreset, hfour, hover', List.ne_nil_of_length_pos hpos]
  · obtain ⟨hlen, htotal, hnoreset⟩ := hcont.resolve_left h0
    simp [h0, hflags, hlast, hreset, hlen, htotal, hnoreset, hfour, hover, List.ne_nil_of_length_pos hpos]

theorem withChunk_length {s : State} {op limit : Nat} {c : Chunk} (h : s.chunkGoesOn op limit c = true) :
    (s.withChunk op c).data.length = c.offset + c.data.length := by
  obtain ⟨-, -, -, -, -, hcont⟩ := chunkGoesOn_iff.mp h
  rw [State.withChunk, List.length_append]
  rcases hcont with h0 | ⟨hlen, -⟩
  · rw [if_pos h0, h0]; rfl
  · split
    case isTrue h0 => rw [h0]; rfl
    case isFalse => rw [hlen]

/-! A chunk loaded. -/

theorem State.staged_setStaged (s : State) (op inst : Nat) (x : Staging) : (s.setStaged op inst x).staged op inst = x :=
  tabGet_put_self

theorem State.staged_of_staging {t u : State} (h : t.cmd.staging = u.cmd.staging) (op inst : Nat) :
    t.staged op inst = u.staged op inst := by
  rw [State.staged, h, State.staged]

/-- A legal chunk that is not the last is staged, and answered with the bytes staged so far. -/
theorem State.loadChunk_more {s : State} {rq : Rq} {op limit : Nat} {m : Bool} {c : Chunk} {x : Staging}
    {commit : List Byte → List Byte → State → State} (hr : s.reservedAt rq = none) (hi : c.inst < limit)
    (hj : judgeChunk m (s.staged op c.inst) c = .more x) :
    s.loadChunk rq op limit m c commit = (s.setStaged op c.inst x).finish rq op scDone (leBytes 4 x.data.length) := by
  rw [State.loadChunk, State.withParams_ok _ hr (by simp [hi]), hj]

/-- The last chunk of a whole table hands it over. -/
theorem State.loadChunk_whole {s : State} {rq : Rq} {op limit : Nat} {m : Bool} {c : Chunk} {tb : List Byte}
    {commit : List Byte → List Byte → State → State} (hr : s.reservedAt rq = none) (hi : c.inst < limit)
    (hj : judgeChunk m (s.staged op c.inst) c = .whole tb) :
    s.loadChunk rq op limit m c commit =
      commit tb (leBytes 4 tb.length ++ leBytes 4 (crc32c tb)) (s.setStaged op c.inst {}) := by
  rw [State.loadChunk, State.withParams_ok _ hr (by simp [hi]), hj]

theorem State.cmd_ite {p : Prop} [Decidable p] {t u : State} {x : CmdUnit} (ht : t.cmd = x) (hu : u.cmd = x) :
    (if p then t else u).cmd = x := by
  split <;> assumption

/-- A chunk has been taken: it stands in its staging, and the bytes staged so far have been answered. -/
def State.tookChunk (s t : State) (rq : Rq) (op : Nat) (c : Chunk) : Prop :=
  t.answered rq op scDone (leBytes 4 (c.offset + c.data.length)) = true ∧ t.staged op c.inst = s.withChunk op c

/-- Staged and answered, whatever was discarded beside the command unit. -/
theorem State.tookChunk_of_finish {s u : State} {rq : Rq} {op limit : Nat} {c : Chunk} (h : s.ready rq op = true)
    (hg : s.chunkGoesOn op limit c = true) (hu : u.cmd = (s.take rq).cmd) :
    s.tookChunk (((u.setStaged op c.inst (s.withChunk op c)).finish rq op scDone
      (leBytes 4 (s.withChunk op c).data.length)).lift rq.sess rq.tag) rq op c := by
  rw [withChunk_length hg]
  have hopen : (u.setStaged op c.inst (s.withChunk op c)).sessOpen rq.sess = true :=
    (State.sessOpen_of_sessions (u := u) rfl _).trans ((State.sessOpen_of_cmd hu _).trans (State.ready_open h))
  obtain ⟨r, l, b, hcmd⟩ := (u.setStaged op c.inst (s.withChunk op c)).finish_lift_cmd rq op scDone
    (leBytes 4 (c.offset + c.data.length)) rq.sess rq.tag
  exact ⟨State.finish_lift_answered hopen ..,
    (State.staged_of_staging (by rw [hcmd]) ..).trans (State.staged_setStaged ..)⟩

section

variable {s : State} {rq : Rq} {op limit : Nat} {c : Chunk} {body : State → State}

/-- The chunk loaded, whatever was discarded first beside the command unit. -/
theorem State.loadChunk_took {u : State} {m : Bool} {commit : List Byte → List Byte → State → State}
    (h : s.ready rq op = true) (hg : s.chunkGoesOn op limit c = true) (hu : u.cmd = (s.take rq).cmd) :
    s.tookChunk ((u.loadChunk rq op limit m c commit).lift rq.sess rq.tag) rq op c := by
  have hr : u.reservedAt rq = none :=
    (congrArg Slot.reserved (State.slot_of_cmd hu ..)).trans (State.ready_reserved h)
  have hj : judgeChunk m (u.staged op c.inst) c = .more (s.withChunk op c) :=
    (congrArg (judgeChunk m · c) (State.staged_of_staging (u := s) (by rw [hu]; rfl) ..)).trans (judgeChunk_goesOn hg m)
  rw [State.loadChunk_more hr (chunkGoesOn_iff.mp hg).1 hj]
  exact State.tookChunk_of_finish h hg hu

theorem State.tookChunk_of_load {u : State} {m : Bool} {commit : List Byte → List Byte → State → State}
    (h : s.ready rq op = true) (hg : s.chunkGoesOn op limit c = true) (hu : u.cmd = (s.take rq).cmd)
    (e : body (s.take rq) = u.loadChunk rq op limit m c commit) : s.tookChunk (s.run rq op body) rq op c := by
  rw [State.run_ready body h, e]
  exact State.loadChunk_took h hg hu

/-- A table of the PRINT domain or a coefficient bank: the bank it goes to is free when the load opens. -/
theorem State.tookChunk_of_loadTable {inUse : Bool} {discard : State → State}
    {commit : List Byte → List Byte → State → State} (h : s.ready rq op = true)
    (hg : s.chunkGoesOn op limit c = true) (hfree : c.offset = 0 → inUse = false)
    (hd : (discard (s.take rq)).cmd = (s.take rq).cmd)
    (e : body (s.take rq) = (s.take rq).loadTable rq op limit c inUse discard commit) :
    s.tookChunk (s.run rq op body) rq op c := by
  have hj : judgeChunk false ((s.take rq).staged op c.inst) c = .more (s.withChunk op c) := judgeChunk_goesOn hg false
  rw [State.loadTable, hj, State.ready_reserved h] at e
  by_cases h0 : c.offset = 0
  · simp only [hfree h0, Bool.and_false] at e
    exact State.tookChunk_of_load h hg (State.cmd_ite hd rfl) (e.trans (if_neg (by decide)))
  · simp only [h0] at e
    exact State.tookChunk_of_load h hg rfl e

/-- A rendering or class table: no port needs the one it replaces. -/
theorem State.tookChunk_of_loadTab {kind : Nat} {bad : List Byte → Option Nat} {read : List Byte → List Int}
    (h : s.ready rq op = true) (hg : s.chunkGoesOn op limit c = true)
    (hfree : c.offset = 0 → s.tabBusy (256 * kind + c.inst) = false)
    (e : body (s.take rq) = (s.take rq).loadTab rq op kind limit c bad read) :
    s.tookChunk (s.run rq op body) rq op c := by
  have hbusy : ¬(c.offset = 0 ∧ c.inst < limit ∧ (s.take rq).tabBusy (256 * kind + c.inst) = true) := by
    rintro ⟨h0, -, hb⟩
    have hb' : s.tabBusy (256 * kind + c.inst) = true := hb
    rw [hfree h0] at hb'
    cases hb'
  rw [State.loadTab, if_neg hbusy] at e
  exact State.tookChunk_of_load h hg rfl e

end

/-! What the loads discard when they open. -/

theorem State.setPend_cmd (s : State) (b : Nat) (d : DoseBank) : (s.setPend b d).cmd = s.cmd := by
  simp only [State.setPend, State.showBank, State.setFlag, State.setFld_cmd]
  rfl

theorem State.voidSlot_cmd (s : State) : s.voidSlot.cmd = s.cmd := by
  simp only [State.voidSlot, State.setFld_cmd]

/-- Of a bar under the loop no bank is in use (R250). -/
theorem bankFree_of_loops {loops inUse : Bool} (h : loops = true ∨ inUse = false) : (!loops && inUse) = false := by
  rcases h with h | h <;> simp [h]

/-- FW_STAGE (R377): no switch is under way when the load opens. -/
theorem execFwStage_takes {s : State} {rq : Rq} {c : Chunk} (h : s.ready rq 0x0500 = true)
    (hg : s.chunkGoesOn 0x0500 1 c = true) (hsw : c.offset = 0 → s.switching = false) :
    ∃ t, execFwStage rq c s = .next t ∧ s.tookChunk t rq 0x0500 c := by
  have hbusy : ¬(c.offset = 0 ∧ (s.take rq).switching = true) := by
    rintro ⟨h0, hb⟩
    have hb' : s.switching = true := hb
    rw [hsw h0] at hb'
    cases hb'
  rw [execFwStage, State.run_ready _ h, if_neg hbusy]
  exact ⟨_, rfl, State.loadChunk_took h hg (State.cmd_ite (State.voidSlot_cmd _) rfl)⟩

/-- RESAMPLE_COEF_LOAD (R221): no swap is pending when the load opens. -/
theorem execResampleCoefLoad_takes {s : State} {rq : Rq} {c : Chunk} (h : s.ready rq 0x0205 = true)
    (hg : s.chunkGoesOn 0x0205 8 c = true) (hsw : c.offset = 0 → s.flag (Reg.RSMP_STATUS_SWAP_PEND c.inst) = false) :
    ∃ t, execResampleCoefLoad rq c s = .next t ∧ s.tookChunk t rq 0x0205 c := by
  have hbusy : ¬(c.offset = 0 ∧ c.inst < 8 ∧ (s.take rq).flag (Reg.RSMP_STATUS_SWAP_PEND c.inst) = true) := by
    rintro ⟨h0, -, hb⟩
    have hb' : s.flag (Reg.RSMP_STATUS_SWAP_PEND c.inst) = true := hb
    rw [hsw h0] at hb'
    cases hb'
  exact ⟨_, rfl, State.tookChunk_of_loadTable h hg (fun _ => rfl) (State.setFld_cmd ..) (if_neg hbusy)⟩

theorem execConfigLoad_more {s : State} {rq : Rq} {c : Chunk} {x : Staging} (h : s.ready rq 0x0040 = true)
    (hi : c.inst < 1) (hj : judgeChunk true (s.staged 0x0040 c.inst) c = .more x) (assign : Option (List Half)) :
    execConfigLoad rq c assign s = .next ((((s.take rq).setStaged 0x0040 c.inst x).finish rq 0x0040 scDone
      (leBytes 4 x.data.length)).lift rq.sess rq.tag) := by
  have hj' : judgeChunk true ((s.take rq).staged 0x0040 c.inst) c = .more x := hj
  rw [execConfigLoad, State.run_ready _ h, State.loadChunk_more (State.ready_reserved h) hi hj']

theorem execConfigCheck_more {s : State} {rq : Rq} {c : Chunk} {x : Staging} (h : s.ready rq 0x0041 = true)
    (hi : c.inst < 1) (hj : judgeChunk true (s.staged 0x0041 c.inst) c = .more x) (assign : Option (List Half)) :
    execConfigCheck rq c assign s = .next ((((s.take rq).setStaged 0x0041 c.inst x).finish rq 0x0041 scDone
      (leBytes 4 x.data.length)).lift rq.sess rq.tag) := by
  have hj' : judgeChunk true ((s.take rq).staged 0x0041 c.inst) c = .more x := hj
  rw [execConfigCheck, State.run_ready _ h, State.loadChunk_more (State.ready_reserved h) hi hj']

/-- CONFIG_LOAD and CONFIG_CHECK stage a chunk, and change nothing but the answer. -/
theorem State.onlyAnswered_setStaged (s : State) (rq : Rq) (op op' i st : Nat) (x : Staging) (pl : List Byte) :
    s.onlyAnswered ((((s.take rq).setStaged op i x).finish rq op' st pl).lift rq.sess rq.tag) :=
  State.onlyAnswered_of_rest (State.finish_lift_rest ..) fun _ h => State.finish_lift_reg h ..

/-- Settles O13: each opcode by the form of load that it uses, and what that form discards first. -/
theorem chunksAreStaged : Obligations.ChunksAreStaged := by
  refine ⟨?tables, ?load, ?check⟩
  case tables =>
    simp only [List.forall_mem_cons]
    refine ⟨?nozzleMap, ?threshold, ?substitute, ?toneCurve, ?gain, ?boardProfile, ?colourModel, ?coverage, ?blur,
      ?coef, ?classSet, ?microstep, ?fwStage, ?monBins, fun p hp => absurd hp List.not_mem_nil⟩
    all_goals intro s rq c h hg hbank hloop hcoef hfw htab
    case nozzleMap | boardProfile | microstep | monBins => exact ⟨_, rfl, State.tookChunk_of_load h hg rfl rfl⟩
    case threshold | toneCurve =>
      exact ⟨_, rfl, State.tookChunk_of_loadTable h hg (hbank (by decide)) (State.setPend_cmd ..) rfl⟩
    case substitute | gain =>
      refine ⟨_, rfl, State.tookChunk_of_loadTable h hg (fun h0 => bankFree_of_loops (hloop (by decide) h0)) ?_ rfl⟩
      exact State.cmd_ite rfl (State.setPend_cmd ..)
    case colourModel | coverage | blur | classSet =>
      exact ⟨_, rfl, State.tookChunk_of_loadTab h hg (htab (by decide)) rfl⟩
    case coef => exact execResampleCoefLoad_takes h hg (hcoef trivial)
    case fwStage => exact execFwStage_takes h hg (hfw trivial)
  case load =>
    intro s rq ⟨inst, flags, offset, total, data⟩ assign h hg
    obtain ⟨hi, -⟩ := chunkGoesOn_iff.mp hg
    obtain rfl : inst = 0 := Nat.lt_one_iff.mp hi
    obtain ⟨ha, hs⟩ := State.tookChunk_of_finish h hg rfl
    exact ⟨_, execConfigLoad_more h hi (judgeChunk_goesOn hg true) assign, ha, hs, State.onlyAnswered_setStaged ..⟩
  case check =>
    intro s rq ⟨inst, flags, offset, total, data⟩ assign h hg
    obtain ⟨hi, -⟩ := chunkGoesOn_iff.mp hg
    obtain rfl : inst = 0 := Nat.lt_one_iff.mp hi
    obtain ⟨ha, hs⟩ := State.tookChunk_of_finish h hg rfl
    exact ⟨_, execConfigCheck_more h hi (judgeChunk_goesOn hg true) assign, ha, hs, State.onlyAnswered_setStaged ..⟩

end Sys2Proof.Machine

/-! SUPPORT. Configuration images (R104, R106, R107): what CONFIG_LOAD and CONFIG_CHECK come to. -/
namespace Sys2Proof.Machine

/-! A change of state. -/

theorem State.enter_regs {s : State} {v : Nat} (h : s.st ≠ v) :
    (s.enter v).regs = ((s.setFld Reg.PLAT_STATE_PREV s.st).setFld Reg.PLAT_STATE_STATE v).regs := by
  rw [State.enter, if_neg h]

theorem State.enter_reg {s : State} {v a : Nat} (h : a ≠ Reg.PLAT_STATE) : (s.enter v).reg a = s.reg a := by
  by_cases hv : s.st = v
  · rw [State.enter, if_pos hv]
  · rw [State.reg_of_regs (State.enter_regs hv), State.reg_setFld_other h, State.reg_setFld_other h]

theorem State.enter_st {s : State} {v : Nat} (h : v < 16) : (s.enter v).st = v := by
  by_cases hv : s.st = v
  · rw [State.enter, if_pos hv, hv]
  · rw [State.st, State.fld_of_regs (State.enter_regs hv), State.fld_setFld ⟨by decide, by decide⟩ h]

/-- The state after an accepted CONFIG_LOAD (Table 04-8). -/
theorem State.afterConfig_st (s : State) (reset : Bool) : (s.afterConfig reset).st =
    if s.st = stStandby ∧ !reset then stReady else if s.st = stReady ∧ reset then stStandby else s.st := by
  rw [State.afterConfig]
  split
  · exact State.enter_st (by decide)
  · split
    · exact State.enter_st (by decide)
    · rfl

theorem State.afterConfig_reg {s : State} {reset : Bool} {a : Nat} (h : a ≠ Reg.PLAT_STATE) :
    (s.afterConfig reset).reg a = s.reg a := by
  rw [State.afterConfig]
  split
  · exact State.enter_reg h
  · split
    · exact State.enter_reg h
    · rfl

theorem State.afterConfig_cmd (s : State) (reset : Bool) : (s.afterConfig reset).cmd = s.cmd := by
  rw [State.afterConfig]
  split
  · exact State.enter_cmd ..
  · split
    · exact State.enter_cmd ..
    · rfl

/-! Corrections of the line positions, which no register holds. -/

theorem State.zeroCorr_regs (s : State) : s.zeroCorr.regs = s.regs :=
  State.foldl_keeps State.regs (fun _ _ => by dsimp only; split <;> rfl) _ s

theorem State.zeroCorr_cmd (s : State) : s.zeroCorr.cmd = s.cmd :=
  State.foldl_keeps State.cmd (fun _ _ => by dsimp only; split <;> rfl) _ s

/-- A field outlives an answer and a barrier's end, in PLAT_STATE too where it lies clear of BARRIER. -/
theorem State.finish_lift_fld {f : Fld} (hf : f.fits) (h : f.apart Reg.PLAT_STATE_BARRIER) (hq : quietAddr f.addr)
    (u : State) (rq : Rq) (op st : Nat) (pl : List Byte) (n t : Nat) :
    ((u.finish rq op st pl).lift n t).fld f = u.fld f := by
  rw [State.lift_fld hf h, State.finish_fld hq]

/-- The device state outlives an answer and a barrier's end. -/
theorem State.finish_lift_st (u : State) (rq : Rq) (op st : Nat) (pl : List Byte) (n t : Nat) :
    ((u.finish rq op st pl).lift n t).st = u.st :=
  State.finish_lift_fld ⟨by decide, by decide⟩ (.inr (by decide)) ⟨by decide, by decide, by decide⟩ ..

/-! Images judged. -/

section

variable {s u : State} {rq : Rq} {c : Chunk} {tb : List Byte} {assign : Option (List Half)}

/-- A whole image that passes is in force, and the device state follows it. -/
theorem execConfigLoad_whole (h : s.ready rq 0x0040 = true) (hi : c.inst < 1)
    (hj : judgeChunk true (s.staged 0x0040 c.inst) c = .whole tb)
    (happ : ((s.take rq).setStaged 0x0040 c.inst {}).applyImage tb (chunkReset c) assign = .ok u) :
    execConfigLoad rq c assign s = .next (((u.zeroCorr.afterConfig (chunkReset c)).finish rq 0x0040 scDone
      (checkResult 0 0 0 0)).lift rq.sess rq.tag) := by
  have hj' : judgeChunk true ((s.take rq).staged 0x0040 c.inst) c = .whole tb := hj
  rw [execConfigLoad, State.run_ready _ h, State.loadChunk_whole (State.ready_reserved h) hi hj', happ]

/-- What CONFIG_CHECK answers on a whole image. -/
def checkVerdict : Except ImageFault State → List Byte
  | .error f => checkResult 1 f.reason f.block f.offset
  | .ok _ => checkResult 0 0 0 0

theorem execConfigCheck_whole (h : s.ready rq 0x0041 = true) (hi : c.inst < 1)
    (hj : judgeChunk true (s.staged 0x0041 c.inst) c = .whole tb) :
    execConfigCheck rq c assign s = .next ((((s.take rq).setStaged 0x0041 c.inst {}).finish rq 0x0041 scDone
      (checkVerdict (((s.take rq).setStaged 0x0041 c.inst {}).applyImage tb (chunkReset c) assign))).lift
        rq.sess rq.tag) := by
  have hj' : judgeChunk true ((s.take rq).staged 0x0041 c.inst) c = .whole tb := hj
  rw [execConfigCheck, State.run_ready _ h, State.loadChunk_whole (State.ready_reserved h) hi hj']
  cases ((s.take rq).setStaged 0x0041 c.inst {}).applyImage tb (chunkReset c) assign <;> rfl

/-- Whatever CONFIG_LOAD or CONFIG_CHECK stages, its answer goes out, and every other register stays. -/
theorem State.setStaged_answered {op i st : Nat} {x : Staging} {pl : List Byte} (h : s.ready rq op = true) :
    ((((s.take rq).setStaged op i x).finish rq op st pl).lift rq.sess rq.tag).answered rq op st pl = true ∧
      ∀ a, a ∉ answerRegs →
        ((((s.take rq).setStaged op i x).finish rq op st pl).lift rq.sess rq.tag).reg a = s.reg a := by
  have hopen : ((s.take rq).setStaged op i x).sessOpen rq.sess = true :=
    (State.sessOpen_of_sessions (u := s.take rq) rfl _).trans (State.ready_open h)
  exact ⟨State.finish_lift_answered hopen .., (State.onlyAnswered_setStaged ..).2⟩

theorem State.setStaged_staged (op i st : Nat) (x : Staging) (pl : List Byte) :
    ((((s.take rq).setStaged op i x).finish rq op st pl).lift rq.sess rq.tag).staged op i = x := by
  obtain ⟨r, l, b, hcmd⟩ := ((s.take rq).setStaged op i x).finish_lift_cmd rq op st pl rq.sess rq.tag
  exact (State.staged_of_staging (by rw [hcmd]) ..).trans (State.staged_setStaged ..)

end

/-- Settles O27: a chunk that goes on is staged, a whole image is judged by `applyImage`, and CONFIG_LOAD keeps what passed. -/
theorem configCommandsComplete : Obligations.ConfigCommandsComplete := by
  refine ⟨?load, ?loadMore, ?check, ?checkFault, ?checkMore⟩
  case load =>
    intro s u rq ⟨inst, flags, offset, total, data⟩ tb assign h _ hi hopen hj happ
    obtain rfl : inst = 0 := hi
    let r := chunkReset ⟨0, flags, offset, total, data⟩
    have hcmd : (u.zeroCorr.afterConfig r).cmd = u.cmd := (State.afterConfig_cmd ..).trans (State.zeroCorr_cmd u)
    have hst : u.zeroCorr.st = u.st := State.fld_of_regs (State.zeroCorr_regs u) _
    refine ⟨_, execConfigLoad_whole h Nat.zero_lt_one hj happ,
      State.finish_lift_answered ((State.sessOpen_of_cmd hcmd _).trans hopen) .., ?_, fun a ha => ?_⟩
    · rw [State.finish_lift_st, State.afterConfig_st, hst]
    · rw [State.finish_lift_reg ha, State.afterConfig_reg (ne_platState_of ha),
        State.reg_of_regs (State.zeroCorr_regs u)]
  case loadMore =>
    intro s rq ⟨inst, flags, offset, total, data⟩ x assign h _ hi hj
    obtain rfl : inst = 0 := hi
    obtain ⟨ha, hr⟩ := State.setStaged_answered h
    exact ⟨_, execConfigLoad_more h Nat.zero_lt_one hj assign, ha, State.setStaged_staged .., hr⟩
  case check =>
    intro s u rq ⟨inst, flags, offset, total, data⟩ tb assign h hi hj happ
    obtain rfl : inst = 0 := hi
    have e := execConfigCheck_whole (assign := assign) h Nat.zero_lt_one hj
    rw [happ] at e
    exact ⟨_, e, State.setStaged_answered h⟩
  case checkFault =>
    intro s rq ⟨inst, flags, offset, total, data⟩ tb f assign h hi hj happ
    obtain rfl : inst = 0 := hi
    have e := execConfigCheck_whole (assign := assign) h Nat.zero_lt_one hj
    rw [happ] at e
    exact ⟨_, e, State.setStaged_answered h⟩
  case checkMore =>
    intro s rq ⟨inst, flags, offset, total, data⟩ x assign h hi hj
    obtain rfl : inst = 0 := hi
    obtain ⟨ha, -⟩ := State.setStaged_answered h
    exact ⟨_, execConfigCheck_more h Nat.zero_lt_one hj assign, ha, State.setStaged_staged ..⟩

end Sys2Proof.Machine

/-! SUPPORT. Registers by command (R9, R102, R103, R303, R327, R418): reads and their side effects, and writes. -/
namespace Sys2Proof.Machine

/-! What a register shows does not depend on the command unit, the latches and what has left the device. -/

theorem State.view_keep (s : State) (o : List Out) (c : CmdUnit) (l : List (Nat × Option Word)) (a : Nat) :
    State.view { s with outbox := o, cmd := c, latches := l } a = s.view a := (rfl)

theorem State.view_emit (s : State) (o : Out) (a : Nat) : (s.emit o).view a = s.view a :=
  State.view_keep s (s.outbox ++ [o]) s.cmd s.latches a

theorem State.view_latch (s : State) (path : Path) (h a : Nat) : (s.latch path h).view a = s.view a :=
  State.view_keep s s.outbox s.cmd _ a

theorem State.shownOn_take (s : State) (rq : Rq) (path : Path) (a : Nat) :
    (s.take rq).shownOn path a = s.shownOn path a :=
  congrArg (Option.getD (tabGet none s.latches (latchKey path a))) (State.view_keep s s.outbox _ s.latches a)


/-! The latched halves (R418). -/

theorem latchKey_inj {path : Path} {a b : Nat} (h : latchKey path a = latchKey path b) : a = b := by
  cases path
  · exact Nat.add_left_cancel h
  · exact h

/-- Halves latched on a path. -/
def State.latchAll (s : State) (path : Path) (l : List Nat) : State := l.foldl (fun s h => s.latch path h) s

/-- A latched half reads as it stood. -/
theorem State.latchAll_latches (path : Path) (l : List Nat) (s : State) (h : Nat) :
    tabGet none (s.latchAll path l).latches (latchKey path h) =
      if h ∈ l then some (s.view h) else tabGet none s.latches (latchKey path h) := by
  induction l generalizing s with
  | nil => rfl
  | cons x l ih =>
    have hone : tabGet none (s.latch path x).latches (latchKey path h) =
        if h = x then some (s.view x) else tabGet none s.latches (latchKey path h) := by
      rw [State.latch, tabGet_put]
      by_cases hx : h = x
      · rw [if_pos hx, if_pos (by rw [hx])]
      · rw [if_neg hx, if_neg fun e => hx (latchKey_inj e)]
    refine (ih (s.latch path x)).trans ?_
    rw [hone, State.view_latch]
    by_cases hl : h ∈ l
    · rw [if_pos hl, if_pos (List.mem_cons_of_mem _ hl)]
    · rw [if_neg hl]
      by_cases hx : h = x
      · rw [if_pos hx, if_pos (by rw [hx]; exact List.mem_cons_self), hx]
      · rw [if_neg hx, if_neg (by simp [hx, hl])]

/-- Latching changes the latches alone. -/
theorem State.latchAll_keeps {β : Type} {view : State → β} (h : ∀ s l, view { s with latches := l } = view s)
    (s : State) (path : Path) (l : List Nat) : view (s.latchAll path l) = view s :=
  State.foldl_keeps view (fun _ _ => h _ _) l s

/-! Fields that clear when they are read (Table 00-6). -/

/-- What a read makes of one field of the row. -/
def FieldRow.readClear (i : Nat) (w : Word) (f : FieldRow) : Word :=
  if f.access = .rc then setWordBits w f.hi f.lo (f.resetIn i) else w

/-- The row's fields lie in the word clear of each other. -/
def RegRow.apart (r : RegRow) : Bool :=
  r.fields.all (fun f => decide (f.lo ≤ f.hi ∧ f.hi < 32)) &&
    decide (r.fields.Pairwise fun f g => f.hi < g.lo ∨ g.hi < f.lo)

theorem planOf_apart (b : Nat) : (planOf b).all RegRow.apart = true := by
  rw [planOf.eq_def]
  split <;> decide +kernel

theorem planRow_apart {a i : Nat} {r : RegRow} (h : planRow a = some (r, i)) : r.apart = true := by
  obtain ⟨x, hx, e⟩ := Option.map_eq_some_iff.mp h
  obtain rfl : x = r := congrArg Prod.fst e
  exact List.all_eq_true.mp (planOf_apart _) x (List.mem_of_find?_eq_some hx)

/-- A field that the others lie clear of takes its reset value. -/
theorem readClear_row {r : RegRow} {f : FieldRow} (hr : r.apart = true) (hf : f ∈ r.fields) (ha : f.access = .rc) (i : Nat)
    (w : Word) :
    wordBits (r.fields.foldl (FieldRow.readClear i) w) f.hi f.lo = f.resetIn i % 2 ^ (f.hi + 1 - f.lo) := by
  simp only [RegRow.apart, Bool.and_eq_true, List.all_eq_true, decide_eq_true_eq] at hr
  obtain ⟨hfit, hpw⟩ := hr
  obtain ⟨l₁, l₂, e⟩ := List.append_of_mem hf
  rw [e, List.pairwise_append, List.pairwise_cons] at hpw
  obtain ⟨-, ⟨hafter, -⟩, -⟩ := hpw
  obtain ⟨hl, hh⟩ := hfit f hf
  have hkeep (v : Word) : wordBits (l₂.foldl (FieldRow.readClear i) v) f.hi f.lo = wordBits v f.hi f.lo := by
    refine List.foldlRecOn (motive := fun t => wordBits t f.hi f.lo = wordBits v f.hi f.lo) l₂ _ rfl
      fun t ih g m => ?_
    obtain ⟨hgl, hgh⟩ := hfit g (by rw [e]; exact List.mem_append_right _ (List.mem_cons_of_mem _ m))
    rw [FieldRow.readClear]
    split
    · rw [wordBits_setWordBits_other hgl hgh hl (hafter g m), ih]
    · exact ih
  rw [e, List.foldl_append, List.foldl_cons, hkeep, FieldRow.readClear, if_pos ha, wordBits_setWordBits hl hh]

theorem State.clearRc_row {s : State} {a i : Nat} {r : RegRow} (h : planRow a = some (r, i)) :
    s.clearRc a = s.setReg a (r.fields.foldl (FieldRow.readClear i) (s.reg a)) := by
  rw [State.clearRc, h]
  rfl

/-- A read changes the register it names alone. -/
theorem State.clearRc_other {s : State} {a b : Nat} (h : b ≠ a) : (s.clearRc a).reg b = s.reg b := by
  rw [State.clearRc]
  split
  · rfl
  · exact State.reg_setReg_other h

theorem State.clearRc_keeps {β : Type} {view : State → β} (h : ∀ s l, view { s with regs := l } = view s) (s : State)
    (a : Nat) : view (s.clearRc a) = view s := by
  rw [State.clearRc]
  split
  · rfl
  · exact h s _

/-! What else a read does. -/

/-- The side effect of a read on the unit behind the register: a count of the event matrix starts anew, the nozzle alarm
ends, a capture unit is free, the index of a check unit rises. -/
def State.readAct (s : State) (a : Nat) : State :=
  if a = Reg.EVT_CONS then
    s.setCons (s.fld Reg.EVT_SEL_CONSUMER) { s.cons (s.fld Reg.EVT_SEL_CONSUMER) with ignored := 0 }
  else if a = Reg.EVT_CHAN then
    s.setChan (s.fld Reg.EVT_SEL_CHANNEL) { s.chan (s.fld Reg.EVT_SEL_CHANNEL) with loop := 0 }
  else if a = Reg.NOZ_ALARM then s.setFld Reg.NOZ_STATUS_ALARM 0
  else if a = Reg.TSCAP_POS_HI then s.releaseCap
  else if blockOf a = 0x31 ∧ offOf a % 16 = 12 ∧ offOf a < 0x200 then s.chkNext (offOf a / 16)
  else s

theorem State.readEffect_eq (s : State) (path : Path) (a : Nat) :
    s.readEffect path a = ((s.latchAll path (latchedBy a)).clearRc a).readAct a := (rfl)

theorem State.endTask_keeps {β : Type} {view : State → β} (h : ∀ s e, view { s with evt := e } = view s) (s : State)
    (k : Nat) : view (s.endTask k) = view s := by
  rw [State.endTask]
  split
  · exact h s _
  · rfl

/-- What is no register and belongs to no unit with captures or events stays. -/
theorem State.readAct_keeps {β : Type} {view : State → β}
    (h : ∀ s r e t, view { s with regs := r, evt := e, time := t } = view s) (s : State) (a : Nat) :
    view (s.readAct a) = view s := by
  have hregs (s : State) (f : Fld) (v : Nat) : view (s.setFld f v) = view s := h s _ s.evt s.time
  rw [State.readAct]
  split
  · exact h s s.regs _ s.time
  split
  · exact h s s.regs _ s.time
  split
  · exact hregs ..
  split
  · rw [State.releaseCap]
    split
    · refine (State.endTask_keeps (fun s e => h s s.regs e s.time) ..).trans ?_
      exact (hregs ..).trans (h s s.regs s.evt _)
    · rfl
  split
  · exact hregs ..
  · rfl

/-- None of them shows in the register that was read. -/
theorem State.readAct_reg (s : State) (a : Nat) : (s.readAct a).reg a = s.reg a := by
  rw [State.readAct]
  split
  · rfl
  split
  · rfl
  split
  case isTrue e => rw [e]; exact State.reg_setFld_other (by decide)
  split
  case isTrue e =>
    rw [e, State.releaseCap]
    split
    · exact (State.endTask_keeps (view := fun t => t.reg Reg.TSCAP_POS_HI) (fun _ _ => rfl) ..).trans
        (State.reg_setFld_other (by decide))
    · rfl
  split
  case isTrue e =>
    obtain ⟨hb, ho, hlt⟩ := e
    have hne : a ≠ 0x310008 + 0x10 * (offOf a / 16) := by
      rw [offOf] at ho ⊢
      omega
    exact State.reg_setFld_other hne
  · rfl

/-- A read leaves the registers but for those of its side effects. -/
theorem State.readEffect_keeps {β : Type} {view : State → β}
    (h : ∀ s r e t l, view { s with regs := r, evt := e, time := t, latches := l } = view s) (s : State) (path : Path)
    (a : Nat) : view (s.readEffect path a) = view s := by
  rw [State.readEffect_eq, State.readAct_keeps fun s r e t => h s r e t s.latches,
    State.clearRc_keeps fun s r => h s r s.evt s.time s.latches,
    State.latchAll_keeps fun s l => h s s.regs s.evt s.time l]

theorem State.readEffect_cmd (s : State) (path : Path) (a : Nat) : (s.readEffect path a).cmd = s.cmd :=
  State.readEffect_keeps (fun _ _ _ _ _ => rfl) ..

theorem State.readEffect_outbox (s : State) (path : Path) (a : Nat) : (s.readEffect path a).outbox = s.outbox :=
  State.readEffect_keeps (fun _ _ _ _ _ => rfl) ..

/-- An RC field reads its reset value after a read. -/
theorem State.readEffect_rc {s : State} {path : Path} {a i : Nat} {r : RegRow} {f : FieldRow} (hr : planRow a = some (r, i))
    (hf : f ∈ r.fields) (ha : f.access = .rc) :
    wordBits ((s.readEffect path a).reg a) f.hi f.lo = f.resetIn i % 2 ^ (f.hi + 1 - f.lo) := by
  rw [State.readEffect_eq, State.readAct_reg, State.clearRc_row hr, State.reg_setReg_self,
    readClear_row (planRow_apart hr) hf ha]

/-- The halves that a read latches show what they were. -/
theorem State.readEffect_latched {s : State} {path : Path} {a h : Nat} (hh : h ∈ latchedBy a) :
    (s.readEffect path a).shownOn path h = s.view h := by
  have hl : (s.readEffect path a).latches = (s.latchAll path (latchedBy a)).latches :=
    (State.readAct_keeps (view := State.latches) (fun _ _ _ _ => rfl) ..).trans
      (State.clearRc_keeps (fun _ _ => rfl) ..)
  rw [State.shownOn, hl, State.latchAll_latches, if_pos hh]
  rfl

/-! A read on a path. -/

theorem State.readOn_cmd {s : State} {a : Nat} (h : (planRow a).isSome = true) : s.readOn .cmd a = s.readEffect .cmd a := by
  rw [State.readOn, if_neg (by simp [Option.isNone_eq_false_iff.mpr h])]

/-- Outside BOOTING BAR0 shows every mapped register. -/
theorem State.readOn_bar0 {s : State} {a : Nat} (h : (planRow a).isSome = true) (hst : s.st ≠ stBooting) :
    s.readOn .bar0 a = (s.emit (.bar0Read a (s.shownOn .bar0 a))).readEffect .bar0 a := by
  rw [State.readOn, State.bar0Read, if_neg (fun e => hst e.1), if_neg (by simp [Option.isNone_eq_false_iff.mpr h])]

theorem State.readOn_bar0_outbox {s : State} {a : Nat} (h : (planRow a).isSome = true) (hst : s.st ≠ stBooting) :
    (s.readOn .bar0 a).outbox = s.outbox ++ [.bar0Read a (s.shownOn .bar0 a)] := by
  rw [State.readOn_bar0 h hst, State.readEffect_outbox]
  rfl


/-! READ_REG (R102, R417, R419). -/

theorem State.readRange_cmd (s : State) (a n : Nat) : (s.readRange a n).2.cmd = s.cmd := by
  induction n generalizing s a with
  | zero => rfl
  | succ n ih =>
    refine (ih _ _).trans ?_
    by_cases h : (planRow a).isSome = true
    · rw [State.readOn_cmd h, State.readEffect_cmd]
    · rw [State.readOn, if_pos (by simpa using h)]

/-- Registers in a listed block are read in turn. -/
theorem execReadReg_answered {s : State} {rq : Rq} {addr n : Nat}
    (h : s.ready rq 0x0010 [domainOfBlock (blockOf addr % 256)] = true) (h1 : 1 ≤ n) (hn : n ≤ 1020)
    (hr : rangeOk addr n = true) :
    ∃ t, execReadReg rq addr n s = .next t ∧
      t.answered rq 0x0010 scDone (((s.take rq).readRange addr n).1.flatMap fun w => leBytes 4 w.toNat) = true :=
  ⟨_, rfl, State.runIn_answered (u := ((s.take rq).readRange addr n).2) h
    (State.withParams_ok _ (State.ready_reserved h) (by simp [h1, hn, hr]))
    ((State.sessOpen_of_cmd (State.readRange_cmd ..) _).trans (State.ready_open h))⟩

/-! Writes by command (R102). -/

/-- Writes that pass are answered DONE, and nothing more happens. -/
theorem State.answerWrites_done {s u : State} {rq : Rq} {op : Nat} {l : List (Nat × Nat × RegEntry)}
    {reply : State → List Byte} (h : s.tryWrites (l.map fun x => (x.1, x.2.2)) = .done u) :
    s.answerWrites rq op l reply = u.finish rq op scDone (reply u) := by
  rw [State.answerWrites, h]

/-- A write of mapped registers that passes. -/
theorem execWriteReg_done {s u : State} {rq : Rq} {addr : Nat} {vals : List Word} (ho : u.sessOpen rq.sess = true)
    (h : s.ready rq 0x0011 [domainOfBlock (blockOf addr % 256)] = true) (h1 : 1 ≤ vals.length) (hn : vals.length ≤ 1018)
    (hr : rangeOk addr vals.length = true) (hp : ∀ i, i < vals.length → (planRow (addr + 4 * i)).isSome = true)
    (hw : (s.take rq).tryWrites
      (vals.zipIdx.map fun v => (24 + 4 * v.2, (⟨addr + 4 * v.2, 0xFFFFFFFF#32, v.1⟩ : RegEntry))) = .done u) :
    ∃ t, execWriteReg rq addr vals s = .next t ∧ t.answered rq 0x0011 scDone [] = true ∧
      ∀ a, a ∉ answerRegs → t.reg a = u.reg a := by
  have hw' : (s.take rq).tryWrites ((vals.zipIdx.map fun v =>
      ((24 + 4 * v.2, 24 + 4 * v.2, ⟨addr + 4 * v.2, 0xFFFFFFFF#32, v.1⟩) : Nat × Nat × RegEntry)).map
        fun x => (x.1, x.2.2)) = .done u := by
    rw [List.map_map]
    exact hw
  rw [execWriteReg, State.runIn_ready _ h,
    State.withParams_ok _ (State.ready_reserved h) (by simpa [h1, hn, hr] using hp), State.answerWrites_done hw']
  exact ⟨_, rfl, State.finish_lift_answered ho .., fun a ha => State.finish_lift_reg ha ..⟩

/-- Writes of mapped registers under masks that pass. -/
theorem execModifyReg_done {s u : State} {rq : Rq} {l : List RegEntry} (ho : u.sessOpen rq.sess = true)
    (h : s.ready rq 0x0012 (modifyDomains l) = true)
    (hp : ∀ e ∈ l, addrOk e.addr = true ∧ (planRow e.addr).isSome = true)
    (hw : (s.take rq).tryWrites (l.zipIdx.map fun e => (24 + 12 * e.2, e.1)) = .done u) :
    ∃ t, execModifyReg rq l s = .next t ∧
      t.answered rq 0x0012 scDone (l.flatMap fun e => leBytes 4 (u.view e.addr).toNat) = true ∧
      ∀ a, a ∉ answerRegs → t.reg a = u.reg a := by
  have hw' : (s.take rq).tryWrites ((l.zipIdx.map fun e =>
      ((24 + 12 * e.2, 16 + 12 * e.2, e.1) : Nat × Nat × RegEntry)).map fun x => (x.1, x.2.2)) = .done u := by
    rw [List.map_map]
    exact hw
  have hf : ∀ f ∈ l.zipIdx.map fun e => (16 + 12 * e.2, addrOk e.1.addr && (planRow e.1.addr).isSome), f.2 = true := by
    intro f hf
    obtain ⟨e, he, rfl⟩ := List.mem_map.mp hf
    obtain ⟨-, -, hmem⟩ := List.mem_zipIdx he
    simpa using hp e.1 (by rw [hmem]; exact List.getElem_mem _)
  rw [execModifyReg, State.runIn_ready _ h, State.withParams_ok _ (State.ready_reserved h) hf,
    State.answerWrites_done hw']
  exact ⟨_, rfl, State.finish_lift_answered ho .., fun a ha => State.finish_lift_reg ha ..⟩

/-- A write on its own, that no rule reads. -/
theorem State.tryWrites_one {s t : State} {e : RegEntry} {o : Nat} (hw : s.writeOne e = .ok t)
    (hd : s.defers e.addr = false) (ho : t.orderOk e.addr = true) (hr : cfgRules.all (fun r => !r.reads e.addr) = true) :
    s.tryWrites [(o, e)] = .done t := by
  have hs : sortEntries [(o, e)] = [(o, e)] := rfl
  have hrules : cfgRules.filter (readsAny [e.addr]) = [] :=
    List.filter_eq_nil_iff.mpr fun r m => by simpa [readsAny] using List.all_eq_true.mp hr r m
  rw [State.tryWrites, hs, State.writeAll, hw]
  simp [State.writeAll, firstFailure, ho, hd, firstBroken, hrules]

/-! PLAT_SCRATCH. -/

/-- Their row of the plan. -/
def scratchRow : RegRow := ⟨0x30, 4, 20, [⟨31, 0, .rw, 0, 0⟩]⟩

theorem Reg.scratch_row : ∀ i, i < 20 → planRow (Reg.PLAT_SCRATCH i) = some (scratchRow, i) := by
  decide +kernel

theorem Reg.scratch_ranges : ∀ i, i < 20 → rangesAt (Reg.PLAT_SCRATCH i) = [] := by decide +kernel

/-- No configuration rule reads the scratch registers. -/
theorem Reg.scratch_unread : ∀ i, i < 20 → cfgRules.all (fun r => !r.reads (Reg.PLAT_SCRATCH i)) = true := by
  decide +kernel

theorem Reg.scratch_range : ∀ i, i < 20 → rangeOk (Reg.PLAT_SCRATCH i) 1 = true := by decide +kernel

section

variable {i : Nat} (hi : i < 20)
include hi

theorem Reg.scratch_block : blockOf (Reg.PLAT_SCRATCH i) = 0x00 :=
  blockOf_of_lt (o := 0x30 + 4 * i) (by omega) (by rw [Reg.PLAT_SCRATCH]; omega)

/-- A scratch register can be written in every state (R102), and takes its word. -/
theorem State.writeOne_scratch (s : State) (m v : Word) :
    ∃ t, s.writeOne ⟨Reg.PLAT_SCRATCH i, m, v⟩ = .ok t ∧ t.cmd = s.cmd ∧
      t.reg (Reg.PLAT_SCRATCH i) = ((s.reg (Reg.PLAT_SCRATCH i) &&& ~~~m) ||| (v &&& m)) ∧
      ∀ a, a ≠ Reg.PLAT_SCRATCH i → t.reg a = s.reg a := by
  have hb := Reg.scratch_block hi
  have hmem : Reg.PLAT_SCRATCH i ≠ Reg.MEM_REGION := by rw [Reg.PLAT_SCRATCH, Reg.MEM_REGION]; omega
  have hold : s.oldWord (Reg.PLAT_SCRATCH i) = s.reg (Reg.PLAT_SCRATCH i) := by simp [State.oldWord, hb, hmem]
  have hfail (old new : Word) : s.writeFail ⟨Reg.PLAT_SCRATCH i, m, v⟩ old new = none := by
    simp [State.writeFail, narrowFields, everyState, configOnly, differ, hb]
  have hok (old new : Word) : wordOk (Reg.PLAT_SCRATCH i) old new = true := by simp [wordOk, hb]
  have hput (old new : Word) : s.putWord ⟨Reg.PLAT_SCRATCH i, m, v⟩ old new = s.setReg (Reg.PLAT_SCRATCH i) new := by
    simp only [State.putWord, hb]
  have hw : s.writeOne ⟨Reg.PLAT_SCRATCH i, m, v⟩ = .ok (if m = 0#32 then s else
      s.setReg (Reg.PLAT_SCRATCH i) ((s.reg (Reg.PLAT_SCRATCH i) &&& ~~~m) ||| (v &&& m))) := by
    rw [State.writeOne, Reg.scratch_row i hi]
    have hpassive : scratchRow.passive = false := rfl
    have hkeep (old new : Word) : keepBroken (·.quiet) (Reg.PLAT_SCRATCH i) old new = new :=
      keepBroken_of_not_picked (by simp [Reg.scratch_ranges i hi]) ..
    simp only [hpassive, hold, hfail, hok, hput, hkeep, mergeWord_whole (r := scratchRow) rfl, Reg.scratch_ranges i hi,
      RegRow.reached_whole (r := scratchRow) rfl, ne_eq, ite_not]
    rfl
  refine ⟨_, hw, ?_⟩
  split
  case isTrue h0 =>
    refine ⟨rfl, ?_, fun _ _ => rfl⟩
    rw [h0, BitVec.not_zero, BitVec.and_allOnes, BitVec.and_zero, BitVec.or_zero]
  case isFalse => exact ⟨State.setReg_cmd .., State.reg_setReg_self .., fun a ha => State.reg_setReg_other ha⟩

end


/-! A capture unit released, and the index of a check unit (R303, R327). -/

/-- The unit that TSCAP_SEL names is free. -/
theorem State.releaseCap_valid {s : State} {k : Nat} (hk : s.fld Reg.TSCAP_SEL_UNIT = k) (hv : (s.cap k).valid = true) :
    (s.releaseCap.cap k).valid = false ∧ bitAt (s.releaseCap.fld Reg.TSCAP_SEL_VALID) k = false ∧
      (s.releaseCap.cons (48 + k)).busy = false := by
  have hlt : k < 8 := by rw [← hk]; exact State.fld_lt s Reg.TSCAP_SEL_UNIT
  have e : s.releaseCap = (s.setCap k { s.cap k with valid := false }).endTask (48 + k) := by
    rw [State.releaseCap, hk, if_pos hv]
  let u := s.setCap k { s.cap k with valid := false }
  refine ⟨?free, ?shown, ?idle⟩
  case free =>
    have ht : (u.endTask (48 + k)).time = u.time := State.endTask_keeps (fun _ _ => rfl) ..
    rw [e, State.cap, ht]
    exact congrArg Capture.valid tabGet_put_self
  case shown =>
    have hr : (u.endTask (48 + k)).regs = u.regs := State.endTask_keeps (fun _ _ => rfl) ..
    rw [e, State.fld_of_regs hr]
    exact (State.bitAt_setFld ⟨by decide, by decide⟩ hlt).trans (bitAt_clearBitAt_self ..)
  case idle =>
    rw [e, State.endTask]
    split
    · exact congrArg EvtCons.busy tabGet_put_self
    case isFalse hb => simpa using hb

theorem State.chkNext_index {s : State} {u : Nat} :
    (s.chkNext u).fld (Reg.CHK_IDX_INDEX u) = (s.fld (Reg.CHK_IDX_INDEX u) + 1) % 16 :=
  State.fld_setFld (Fld.fits_of_decide rfl) (Nat.mod_lt _ (Nat.two_pow_pos _))

theorem Reg.chkData_row : ∀ u, u < 32 → (planRow (Reg.CHK_DATA u)).isSome = true := by decide +kernel

theorem Reg.chkData_block {u : Nat} (hu : u < 32) : blockOf (Reg.CHK_DATA u) = 0x31 :=
  blockOf_of_lt (o := 12 + 16 * u) (by omega) (by rw [Reg.CHK_DATA]; omega)

theorem Reg.chkData_off {u : Nat} (hu : u < 32) : offOf (Reg.CHK_DATA u) = 12 + 16 * u := by
  rw [offOf, Reg.CHK_DATA]
  omega

/-- A read of CHK_DATA raises the index. -/
theorem State.readAct_chkData {s : State} {u : Nat} (hu : u < 32) : s.readAct (Reg.CHK_DATA u) = s.chkNext u := by
  have hne (b : Nat) (hb : b < 0x310000) : Reg.CHK_DATA u ≠ b := by rw [Reg.CHK_DATA]; omega
  have hu16 : (12 + 16 * u) / 16 = u := by omega
  rw [State.readAct, if_neg (hne _ (by decide)), if_neg (hne _ (by decide)), if_neg (hne _ (by decide)),
    if_neg (hne _ (by decide)), Reg.chkData_block hu, Reg.chkData_off hu, if_pos (by omega), hu16]

/-- Before a read acts on its unit, the other registers stand as they did. -/
theorem State.clearRc_latchAll_other {s : State} {path : Path} {l : List Nat} {a b : Nat} (h : b ≠ a) :
    ((s.latchAll path l).clearRc a).reg b = s.reg b :=
  (State.clearRc_other h).trans (State.latchAll_keeps (view := fun t => t.reg b) (fun _ _ => rfl) ..)

theorem State.readEffect_tscap {s : State} {path : Path} {k : Nat} (hk : s.fld Reg.TSCAP_SEL_UNIT = k)
    (hv : (s.cap k).valid = true) :
    ((s.readEffect path Reg.TSCAP_POS_HI).cap k).valid = false ∧
      bitAt ((s.readEffect path Reg.TSCAP_POS_HI).fld Reg.TSCAP_SEL_VALID) k = false ∧
      ((s.readEffect path Reg.TSCAP_POS_HI).cons (48 + k)).busy = false := by
  let u := (s.latchAll path (latchedBy Reg.TSCAP_POS_HI)).clearRc Reg.TSCAP_POS_HI
  have hact : u.readAct Reg.TSCAP_POS_HI = u.releaseCap := rfl
  have hcap : u.cap k = s.cap k :=
    (State.clearRc_keeps (view := (State.cap · k)) (fun _ _ => rfl) ..).trans
      (State.latchAll_keeps (view := (State.cap · k)) (fun _ _ => rfl) ..)
  rw [State.readEffect_eq, hact]
  exact State.releaseCap_valid ((State.fld_of_reg (State.clearRc_latchAll_other (by decide))).trans hk) (by rw [hcap, hv])

/-- A read of CHK_DATA raises the index, and leaves the check units. -/
theorem State.readEffect_chkData {s : State} {path : Path} {u : Nat} (hu : u < 32) :
    (s.readEffect path (Reg.CHK_DATA u)).fld (Reg.CHK_IDX_INDEX u) = (s.fld (Reg.CHK_IDX_INDEX u) + 1) % 16 ∧
      (s.readEffect path (Reg.CHK_DATA u)).chk = s.chk := by
  have hne : (Reg.CHK_IDX_INDEX u).addr ≠ Reg.CHK_DATA u := by rw [Reg.CHK_IDX_INDEX, Reg.CHK_DATA]; dsimp only; omega
  constructor
  · rw [State.readEffect_eq, State.readAct_chkData hu, State.chkNext_index,
      State.fld_of_reg (State.clearRc_latchAll_other hne)]
  · exact State.readEffect_keeps (fun _ _ _ _ _ => rfl) ..

/-- CHK_DATA shows the word that the index names. -/
theorem State.view_chkData {s : State} {u : Nat} (hu : u < 32) :
    s.view (Reg.CHK_DATA u) = BitVec.ofNat 32 (s.chkWord u (s.fld (Reg.CHK_IDX_INDEX u))) := by
  have h16 : (12 + 16 * u) % 16 = 12 := by omega
  have hu16 : (12 + 16 * u) / 16 = u := by omega
  have e : s.view (Reg.CHK_DATA u) = s.viewChk (Reg.CHK_DATA u) := by
    simp only [State.view, Reg.chkData_block hu]
  rw [e, State.viewChk, Reg.chkData_off hu, if_pos h16, hu16, wordOf]

theorem execChkDataRead_reads {s : State} {path : Path} {u : Nat} (hu : u < 32) :
    execChkDataRead path u s = .next (s.readOn path (Reg.CHK_DATA u)) := by
  rw [execChkDataRead, if_pos hu]

/-! PLAT_SCRATCH by command. -/

theorem Reg.scratch_quiet : ∀ i, i < 20 → Reg.PLAT_SCRATCH i ∉ answerRegs := by decide +kernel

section

variable {s : State} {rq : Rq} {i : Nat} (hi : i < 20)
include hi

/-- A write of one scratch register passes. -/
theorem State.tryWrites_scratch (s : State) (o : Nat) (m v : Word) :
    ∃ t, s.tryWrites [(o, ⟨Reg.PLAT_SCRATCH i, m, v⟩)] = .done t ∧ t.cmd = s.cmd ∧
      t.reg (Reg.PLAT_SCRATCH i) = ((s.reg (Reg.PLAT_SCRATCH i) &&& ~~~m) ||| (v &&& m)) ∧
      ∀ a, a ≠ Reg.PLAT_SCRATCH i → t.reg a = s.reg a := by
  obtain ⟨t, hw, hcmd, hreg, hother⟩ := State.writeOne_scratch hi s m v
  have hb := Reg.scratch_block hi
  have hd : s.defers (Reg.PLAT_SCRATCH i) = false := State.defers_of_on s (by rw [hb]; decide)
  have ho : t.orderOk (Reg.PLAT_SCRATCH i) = true := by
    have hstreak : Reg.PLAT_SCRATCH i ≠ Reg.NOZ_STREAK := by rw [Reg.PLAT_SCRATCH, Reg.NOZ_STREAK]; omega
    have htrim : Reg.PLAT_SCRATCH i ≠ Reg.NOZ_TRIM := by rw [Reg.PLAT_SCRATCH, Reg.NOZ_TRIM]; omega
    simp [State.orderOk, hstreak, htrim, hb]
  exact ⟨t, State.tryWrites_one hw hd ho (Reg.scratch_unread i hi), hcmd, hreg, hother⟩

/-- A scratch register shows its word. -/
theorem State.view_scratch (s : State) : s.view (Reg.PLAT_SCRATCH i) = s.reg (Reg.PLAT_SCRATCH i) := by
  have hne (b : Nat) (hb : b < 0x30) : Reg.PLAT_SCRATCH i ≠ b := by rw [Reg.PLAT_SCRATCH]; omega
  simp only [State.view, Reg.scratch_block hi]
  rw [if_neg (hne _ (by decide)), if_neg (hne _ (by decide)), if_neg (hne _ (by decide))]

end

/-- Settles O25: the reads by their side effects, the writes by the state that passes. That a row of a read does its side
effect alone is the model's choice (assumption log 26). -/
theorem registerCommandsComplete : Obligations.RegisterCommandsComplete := by
  refine ⟨?readOne, ?readMany, ?scratch, ?write, ?modifyScratch, ?modify, ?clear, ?clearBar0, ?latch, ?latchBar0, ?capture,
    ?captureBar0, ?check, ?checkBar0⟩
  case readOne =>
    intro s rq addr h hr hp
    obtain ⟨t, e, ha⟩ := execReadReg_answered h (Nat.le_refl 1) (by decide) hr
    have hnone : ((planRow addr).isNone = true) = False := by simp [Option.isNone_eq_false_iff.mpr hp]
    refine ⟨t, e, ?_⟩
    simpa only [State.readRange, hnone, if_false, List.flatMap_cons, List.flatMap_nil, List.append_nil,
      State.shownOn_take] using ha
  case readMany => exact fun s rq addr n h h1 hn hr => execReadReg_answered h h1 hn hr
  case scratch =>
    intro s rq i v h hi
    have hones : (0xFFFFFFFF#32 : Word) = BitVec.allOnes 32 := rfl
    obtain ⟨u, hw, hcmd, hreg, hother⟩ := State.tryWrites_scratch hi (s.take rq) 24 0xFFFFFFFF#32 v
    rw [hones, BitVec.not_allOnes, BitVec.and_zero, BitVec.zero_or, BitVec.and_allOnes] at hreg
    obtain ⟨t, e, ha, hkeep⟩ := execWriteReg_done (addr := Reg.PLAT_SCRATCH i) (vals := [v])
      ((State.sessOpen_of_cmd hcmd _).trans (State.ready_open h)) (by rw [Reg.scratch_block hi]; exact h)
      (Nat.le_refl 1) (Nat.le_of_ble_eq_true rfl) (Reg.scratch_range i hi)
      (fun j hj => by rw [Nat.lt_one_iff.mp hj, Nat.mul_zero, Nat.add_zero, Reg.scratch_row i hi]; rfl) hw
    exact ⟨t, e, ha, (hkeep _ (Reg.scratch_quiet i hi)).trans hreg, fun a hq hne => (hkeep a hq).trans (hother a hne)⟩
  case write =>
    exact fun s u rq addr vals ho h h1 hn hr hp hw => execWriteReg_done ho h h1 hn hr hp hw
  case modifyScratch =>
    intro s rq i m v h hi
    obtain ⟨u, hw, hcmd, hreg, hother⟩ := State.tryWrites_scratch hi (s.take rq) 24 m v
    have hdom : modifyDomains [⟨Reg.PLAT_SCRATCH i, m, v⟩] = [.platform] := by
      simp only [modifyDomains, List.map_cons, List.map_nil, Reg.scratch_block hi]
      rfl
    obtain ⟨t, e, ha, hkeep⟩ := execModifyReg_done (l := [⟨Reg.PLAT_SCRATCH i, m, v⟩])
      ((State.sessOpen_of_cmd hcmd _).trans (State.ready_open h)) (by rw [hdom]; exact h)
      (fun e he => by
        rw [List.mem_singleton.mp he]
        exact ⟨Reg.scratch_addrOk hi, by rw [Reg.scratch_row i hi]; rfl⟩) hw
    rw [List.flatMap_cons, List.flatMap_nil, List.append_nil, State.view_scratch hi, hreg] at ha
    exact ⟨t, e, (hkeep _ (Reg.scratch_quiet i hi)).trans hreg, ha, fun a hq hne => (hkeep a hq).trans (hother a hne)⟩
  case modify => exact fun s u rq l ho h hp hw => execModifyReg_done ho h hp hw
  case clear =>
    intro s a i r f hr hf ha
    have e := State.readOn_cmd (s := s) (a := a) (by rw [hr]; rfl)
    exact ⟨_, rfl, by rw [e]; exact State.readEffect_rc hr hf ha, by rw [e]; exact State.readEffect_outbox ..⟩
  case clearBar0 =>
    intro s a i r f hr hf ha hst
    have hp : (planRow a).isSome = true := by rw [hr]; rfl
    refine ⟨_, rfl, ?_, State.readOn_bar0_outbox hp hst⟩
    rw [State.readOn_bar0 hp hst]
    exact State.readEffect_rc hr hf ha
  case latch =>
    intro s a h hp hh
    refine ⟨_, rfl, ?_⟩
    rw [State.readOn_cmd hp]
    exact State.readEffect_latched hh
  case latchBar0 =>
    intro s a h hp hh hst
    refine ⟨_, rfl, ?_, State.readOn_bar0_outbox hp hst⟩
    rw [State.readOn_bar0 hp hst, State.readEffect_latched hh, State.view_emit]
  case capture =>
    intro s k hk hv
    refine ⟨_, rfl, ?_⟩
    rw [State.readOn_cmd (by decide)]
    exact State.readEffect_tscap hk hv
  case captureBar0 =>
    intro s k hk hv hst
    have hp : (planRow Reg.TSCAP_POS_HI).isSome = true := by decide
    refine ⟨_, rfl, ?_, State.readOn_bar0_outbox hp hst⟩
    rw [State.readOn_bar0 hp hst]
    exact (State.readEffect_tscap (s := s.emit _) hk hv).1
  case check =>
    intro s u hu
    refine ⟨_, execChkDataRead_reads hu, ?_⟩
    rw [State.readOn_cmd (Reg.chkData_row u hu)]
    exact State.readEffect_chkData hu
  case checkBar0 =>
    intro s u hu hst hlatch
    have hp := Reg.chkData_row u hu
    have hshown : s.shownOn .bar0 (Reg.CHK_DATA u) =
        BitVec.ofNat 32 (s.chkWord u (s.fld (Reg.CHK_IDX_INDEX u))) := by
      rw [State.shownOn, hlatch]
      exact State.view_chkData hu
    refine ⟨_, execChkDataRead_reads hu, ?_, by rw [State.readOn_bar0_outbox hp hst, hshown]⟩
    rw [State.readOn_bar0 hp hst]
    exact (State.readEffect_chkData hu).1

end Sys2Proof.Machine

/-! SUPPORT. The job (R106, R126 to R130, R163): pages submitted and repeated, the queue, and the job's end. -/
namespace Sys2Proof.Machine

/-! A chain starts. -/

theorem State.chkUser_keeps {β : Type} {view : State → β} (h : ∀ s r, view { s with regs := r } = view s) (s : State)
    (ch : Nat) (b : Bool) : view (s.chkUser ch b) = view s := by
  rw [State.chkUser]
  split
  · exact h s _
  · rfl

theorem State.chainStart_keeps {β : Type} {view : State → β}
    (h : ∀ s r l, view { s with regs := r, ingest := { s.ingest with chans := l } } = view s) (s : State) (ch : Nat) :
    view (s.chainStart ch) = view s := by
  have hregs (s : State) (f : Fld) (v : Nat) : view (s.setFld f v) = view s := h s _ s.ingest.chans
  have hch (s : State) (c : Nat) (x : DmaChan) : view (s.setDmaCh c x) = view s := h s s.regs _
  rw [State.chainStart, State.chkUser_keeps fun s r => h s r s.ingest.chans, hch, hregs, hregs, hregs]

theorem State.fld_setDmaCh (s : State) (ch : Nat) (x : DmaChan) (f : Fld) : (s.setDmaCh ch x).fld f = s.fld f := (rfl)

/-- A check unit's users show in none of the registers below its block. -/
theorem State.chkUser_reg {s : State} {ch a : Nat} {b : Bool} (h : a < 0x310000) :
    (s.chkUser ch b).reg a = s.reg a := by
  rw [State.chkUser]
  split
  · refine State.reg_setFld_other ?_
    rw [Reg.CHK_CTRL_USERS]
    dsimp only
    omega
  · rfl

theorem State.chainStart_active {s : State} {ch : Nat} (h : ch < 64) :
    (s.chainStart ch).fld (Reg.DMA_STATUS_ACTIVE ch) = 1 := by
  have hrun : (Reg.DMA_STATUS_ACTIVE ch).addr ≠ (Reg.DMA_CTRL_RUN ch).addr := by
    rw [Reg.DMA_STATUS_ACTIVE, Reg.DMA_CTRL_RUN]
    dsimp only
    omega
  rw [State.chainStart, State.fld_of_reg (State.chkUser_reg (by rw [Reg.DMA_STATUS_ACTIVE]; dsimp only; omega)),
    State.fld_setDmaCh,
    State.fld_setFld_clear (Fld.clearOf_of_bits (by rfl)), State.fld_of_reg (State.reg_setFld_other hrun)]
  exact State.fld_setFld (Fld.fits_of_decide rfl) (show 1 < 2 ^ 1 by decide)

theorem State.page_setPage (s : State) (ch : Nat) (x : Ingest) : (s.setPage ch x).page ch = x := tabGet_put_self

/-! A page submitted (R127). -/

/-- A new queue entry behind the others. -/
def State.withEntry (s : State) (e : Entry) : State :=
  { s with job := { s.job with entries := s.job.entries ++ [e], nextEntry := e.id + 1 } }

/-- The ingest that a start opens on its channel. -/
def StartWait.opens (w : StartWait) (id range : Nat) : Ingest :=
  { active := true, sess := w.sess, tag := w.tag, page := w.page, len := w.len, entry := id,
    stage := if id = 0 then 0 else 1, range := range }

/-- The start goes on: its entry in the queue, its ingest on its channel, the chain. -/
def State.goesOn (s : State) (w : StartWait) (range : Nat) : State :=
  ((s.withEntry { id := s.job.nextEntry, page := some w.page }).setPage w.ch (w.opens s.job.nextEntry range)).chainStart w.ch

theorem State.pageStart_goesOn {s : State} {w : StartWait} {r : Nat} (hch : s.chTaken w.ch = false)
    (hfail : ∀ e ∈ s.job.entries, e.failed = false) (hlen : s.job.entries.length < 1024) :
    s.pageStart w r = s.goesOn w r := by
  have hnone : s.job.entries.find? (fun e => e.failed && e.page == some w.page) = none :=
    List.find?_eq_none.mpr fun e he => by simp [hfail e he]
  rw [State.pageStart, if_neg (by simp [hch]), State.takeEntry, hnone]
  dsimp only
  rw [if_neg (Nat.not_le.mpr hlen)]
  rfl

section

variable (s : State) (w : StartWait) (r : Nat)

theorem State.goesOn_job : (s.goesOn w r).job =
    { s.job with entries := s.job.entries ++ [{ id := s.job.nextEntry, page := some w.page }],
                 nextEntry := s.job.nextEntry + 1 } :=
  State.chainStart_keeps (fun _ _ _ => rfl) ..

theorem State.goesOn_page : (s.goesOn w r).page w.ch = w.opens s.job.nextEntry r :=
  (State.chainStart_keeps (view := (State.page · w.ch)) (fun _ _ _ => rfl) ..).trans (State.page_setPage ..)

theorem State.goesOn_cmd : (s.goesOn w r).cmd = s.cmd := State.chainStart_keeps (fun _ _ _ => rfl) ..

end


/-! PLAT_STATE under what ends with a job: the registers of the units lie above the PLAT block. -/

theorem State.setFld_plat {s : State} {f : Fld} {v : Nat} (h : 0x10000 ≤ f.addr) :
    (s.setFld f v).reg Reg.PLAT_STATE = s.reg Reg.PLAT_STATE :=
  State.reg_setFld_other fun e => absurd (e ▸ h) (by decide)

theorem State.finishSlot_plat (s : State) (n t st : Nat) (pl : List Byte) :
    (s.finishSlot n t st pl).reg Reg.PLAT_STATE = s.reg Reg.PLAT_STATE := by
  rw [State.finishSlot]
  split
  · exact State.complete_reg ⟨by decide, by decide, by decide⟩
  · rfl

theorem State.freeUnits_plat (s : State) (x : Ingest) :
    (s.freeUnits x).reg Reg.PLAT_STATE = s.reg Reg.PLAT_STATE :=
  State.foldl_keeps (State.reg · Reg.PLAT_STATE)
    (fun _ _ => State.setFld_plat (Nat.le_add_right_of_le (by decide))) _ s

theorem State.dropPage_plat (s : State) (ch st : Nat) (pl : List Byte) :
    (s.dropPage ch st pl).reg Reg.PLAT_STATE = s.reg Reg.PLAT_STATE :=
  (State.finishSlot_plat ..).trans (State.freeUnits_plat ..)

theorem State.chainStop_plat (s : State) (ch code : Nat) (own stopped : Bool) :
    (s.chainStop ch code own stopped).reg Reg.PLAT_STATE = s.reg Reg.PLAT_STATE := by
  have hst (f : Fld) (h : f.addr = 0x08000c + 0x10 * ch) : 0x10000 ≤ f.addr := by omega
  have hch (s : State) (x : DmaChan) : (s.setDmaCh ch x).reg Reg.PLAT_STATE = s.reg Reg.PLAT_STATE := rfl
  rw [State.chainStop, State.setFlag, State.setFlag, State.setFld_plat (hst _ rfl), State.setFld_plat (hst _ rfl),
    State.setFld_plat (hst _ rfl), State.setFld_plat (Nat.le_add_right_of_le (by decide)),
    State.setFld_plat (hst _ rfl), hch, State.chkUser_reg (by decide)]

theorem State.writeBack_regs (s : State) (ch code addr residue : Nat) : (s.writeBack ch code addr residue).regs = s.regs := by
  rw [State.writeBack]
  split <;> rfl

theorem State.msixSignal_plat (s : State) (v : Nat) :
    (s.msixSignal v).reg Reg.PLAT_STATE = s.reg Reg.PLAT_STATE := by
  rw [State.msixSignal]
  split <;> rfl

theorem State.dmaDone_plat (s : State) (ch : Nat) : (s.dmaDone ch).reg Reg.PLAT_STATE = s.reg Reg.PLAT_STATE := by
  rw [State.dmaDone, State.msixSignal_plat, State.dmaMark]
  refine State.setFld_plat ?_
  split <;> decide

/-- A chain that is stopped breaches no condition. -/
theorem State.chainEnd_plat (s : State) (ch addr residue : Nat) :
    (s.chainEnd ch 1 addr residue).reg Reg.PLAT_STATE = s.reg Reg.PLAT_STATE := by
  rw [State.chainEnd, if_neg (by decide), State.dmaDone_plat, State.reg_of_regs (State.writeBack_regs ..),
    State.chainStop_plat]

theorem State.haltDone_plat (s : State) : s.haltDone.reg Reg.PLAT_STATE = s.reg Reg.PLAT_STATE := by
  rw [State.haltDone]
  split
  · rfl
  split
  · rfl
  · rw [State.msixSignal_plat, State.raise_reg (by decide), State.setFld_plat (by decide), State.setFld_plat (by decide),
      State.setFld_plat (by decide), State.setFld_plat (by decide)]
    exact State.reg_of_regs rfl _

theorem State.stopPage_plat (s : State) (ch st : Nat) (pl : List Byte) :
    (s.stopPage ch st pl).reg Reg.PLAT_STATE = s.reg Reg.PLAT_STATE := by
  rw [State.stopPage]
  split
  · rw [State.haltDone_plat, State.chainEnd_plat, State.dropPage_plat]
  · exact State.dropPage_plat ..

theorem State.endIngests_plat (s : State) : s.endIngests.reg Reg.PLAT_STATE = s.reg Reg.PLAT_STATE := by
  have hjob (s : State) (x : JobUnit) : State.reg { s with job := x } Reg.PLAT_STATE = s.reg Reg.PLAT_STATE := rfl
  rw [State.endIngests]
  refine (State.foldl_keeps (State.reg · Reg.PLAT_STATE) (fun _ _ => State.finishSlot_plat ..) _ _).trans ?_
  rw [hjob]
  refine State.foldl_keeps (State.reg · Reg.PLAT_STATE) (fun _ _ => ?_) _ s
  split
  · exact State.stopPage_plat ..
  · rfl

/-! What clears the bars and stores the records leaves the job and PLAT_STATE. -/

/-- The job and the word of PLAT_STATE. -/
def State.jobSeen (s : State) : JobUnit × Word := (s.job, s.reg Reg.PLAT_STATE)

theorem State.jobSeen_job (s : State) : s.jobSeen.1 = s.job := (rfl)

theorem State.jobSeen_reg (s : State) : s.jobSeen.2 = s.reg Reg.PLAT_STATE := (rfl)

theorem State.setFld_jobSeen {s : State} {f : Fld} {v : Nat} (h : 0x10000 ≤ f.addr) :
    (s.setFld f v).jobSeen = s.jobSeen := by
  rw [State.jobSeen, State.setFld_job, State.setFld_plat h, State.jobSeen]

theorem State.showFill_jobSeen (s : State) (b : Nat) : (s.showFill b).jobSeen = s.jobSeen := by
  have hlow (f : Fld) (h : 0x100000 ≤ f.addr) : 0x10000 ≤ f.addr := Nat.le_trans (by decide) h
  rw [State.showFill, State.setFlag, State.setFld_jobSeen (hlow _ (Nat.le_add_right_of_le (by decide))),
    State.setFld_jobSeen (hlow _ (Nat.le_add_right_of_le (by decide)))]

theorem State.clearRings_jobSeen (s : State) (b : Nat) : (s.clearRings b).jobSeen = s.jobSeen := by
  have herase (s : State) (a n : Nat) : (s.memErase a n).jobSeen = s.jobSeen := rfl
  rw [State.clearRings]
  exact State.foldl_keeps State.jobSeen (fun s c => herase ..) _ s

theorem State.clearBars_jobSeen (s : State) : s.clearBars.jobSeen = s.jobSeen := by
  have hbar (s : State) (b : Nat) (x : Bar) : (s.setBar b x).jobSeen = s.jobSeen := rfl
  have hboard (s : State) (k : Nat) (x : Board) : (s.setBoard k x).jobSeen = s.jobSeen := rfl
  have hppos (s : State) (x : PrintPos) : State.jobSeen { s with ppos := x } = s.jobSeen := rfl
  rw [State.clearBars, hppos]
  refine (State.foldl_keeps State.jobSeen State.showFill_jobSeen _ _).trans ?_
  refine (State.foldl_keeps State.jobSeen (fun s k => hboard ..) _ _).trans ?_
  refine (State.foldl_keeps State.jobSeen (fun s b => ?_) _ _).trans
    (State.foldl_keeps State.jobSeen State.clearRings_jobSeen _ s)
  rw [State.setFld_jobSeen (Nat.le_add_right_of_le (by decide)), State.setFld_jobSeen (Nat.le_add_right_of_le (by decide)),
    hbar]

theorem State.addRecord_jobSeen (s : State) (r : Nat) (make : Nat → List Byte) : (s.addRecord r make).jobSeen = s.jobSeen := by
  rw [State.addRecord]
  split <;> rfl

theorem State.closeGap_jobSeen (s : State) (k : Nat) : (s.closeGap k).jobSeen = s.jobSeen := by
  have hboard (s : State) (x : Board) : (s.setBoard k x).jobSeen = s.jobSeen := rfl
  rw [State.closeGap]
  split
  · rfl
  · dsimp only
    split <;> rw [State.bump, State.setFld_jobSeen (by decide), State.addRecord_jobSeen, hboard]

theorem State.flushGaps_jobSeen (s : State) : s.flushGaps.jobSeen = s.jobSeen := by
  refine State.foldl_keeps State.jobSeen (fun s k => ?_) _ s
  split
  · exact State.closeGap_jobSeen ..
  · rfl

theorem State.setReq_jobSeen (s : State) (v : Nat) : (s.setReq v).jobSeen = s.jobSeen := by
  rw [State.setReq]
  split
  · rfl
  · rw [State.fireEvent, State.jobSeen, State.raiseIf_job, State.raiseIf_reg (by decide)]
    exact State.setFld_jobSeen (by decide)

theorem State.showStore_jobSeen (s : State) : s.showStore.jobSeen = s.jobSeen := by
  rw [State.showStore]
  dsimp only
  split
  · rw [State.setFld_jobSeen (by decide), State.setFld_jobSeen (by decide), State.setFld_jobSeen (by decide)]
    rfl
  · rw [State.setFld_jobSeen (by decide), State.setFld_jobSeen (by decide)]
    rfl

theorem State.storeAtEnd_jobSeen (s : State) : s.storeAtEnd.jobSeen = s.jobSeen := by
  rw [State.storeAtEnd, State.storeHealth, State.storePaper]
  refine (State.foldl_keeps State.jobSeen (fun s b => ?_) _ _).trans
    (State.foldl_keeps State.jobSeen (fun s n => ?_) _ s)
  all_goals
    dsimp only
    split
    · exact State.showStore_jobSeen _
    · rfl

/-- A start that waits behind the others. -/
def State.withStart (s : State) (w : StartWait) : State := { s with job := { s.job with starts := s.job.starts ++ [w] } }

theorem State.pend_keeps {β : Type} {view : State → β} (h : ∀ s c, view { s with cmd := c } = view s) (s : State) (rq : Rq)
    (op : Nat) : view (s.pend rq op) = view s := by
  rw [State.pend]
  split
  · rfl
  · exact h s _

theorem State.fld_withJob (s : State) (x : JobUnit) (f : Fld) : State.fld { s with job := x } f = s.fld f := (rfl)

/-- A command that is taken and kept open changes the command unit alone. -/
theorem State.pend_take_keeps {β : Type} {view : State → β} (h : ∀ s c, view { s with cmd := c } = view s) (s : State)
    (rq : Rq) (op : Nat) : view ((s.take rq).pend rq op) = view s :=
  (State.pend_keeps h ..).trans (h s _)

/-- The turn of a start (R127): it goes on, or waits. -/
def State.startTurn (s : State) (w : StartWait) : State :=
  match s.freeRange with
  | some r => if s.job.starts.isEmpty && !s.busStopped then s.pageStart w r else s.withStart w
  | none => s.withStart w

theorem State.startTurn_goesOn {s : State} {w : StartWait} {r : Nat} (hr : s.freeRange = some r)
    (hw : s.job.starts = []) (hbus : s.busStopped = false) : s.startTurn w = s.pageStart w r := by
  rw [State.startTurn, hr, hw, hbus]
  rfl

theorem State.startTurn_waits {s : State} {w : StartWait}
    (h : s.freeRange = none ∨ s.job.starts ≠ [] ∨ s.busStopped = true) : s.startTurn w = s.withStart w := by
  rw [State.startTurn]
  split
  case h_2 => rfl
  case h_1 r hr =>
    refine if_neg ?_
    rcases h with h | h | h
    · rw [hr] at h; cases h
    · simp [h]
    · simp [h]

/-- The job closed. -/
def State.closeJob (s : State) : State := { s with job := { s.job with closed := true } }

/-- The job's end (R130): no job, no queue, READY. -/
theorem State.jobEnd_ends (s : State) :
    s.jobEnd.job.active = false ∧ s.jobEnd.job.entries = [] ∧ s.jobEnd.fld Reg.PLAT_STATE_JOB = 0 ∧
      s.jobEnd.st = stReady := by
  let u := (s.enter stReady).endIngests
  let v : State := { u with job := { handle := u.job.handle } }
  have hseen : s.jobEnd.jobSeen = (v.setFld Reg.PLAT_STATE_JOB 0).jobSeen := by
    rw [State.jobEnd, State.storeAtEnd_jobSeen, State.setReq_jobSeen, State.flushGaps_jobSeen, State.clearBars_jobSeen]
  have hjob : s.jobEnd.job = v.job := by
    rw [← State.jobSeen_job, hseen, State.jobSeen_job, State.setFld_job]
  have hreg : s.jobEnd.reg Reg.PLAT_STATE = (v.setFld Reg.PLAT_STATE_JOB 0).reg Reg.PLAT_STATE := by
    rw [← State.jobSeen_reg, hseen, State.jobSeen_reg]
  have hst : v.fld Reg.PLAT_STATE_STATE = stReady := by
    rw [State.fld_withJob, State.fld_of_reg (f := Reg.PLAT_STATE_STATE) (State.endIngests_plat _)]
    exact State.enter_st (by decide)
  refine ⟨congrArg JobUnit.active hjob, congrArg JobUnit.entries hjob, ?_, ?_⟩
  · rw [State.fld_of_reg (f := Reg.PLAT_STATE_JOB) hreg]
    exact State.fld_setFld (Fld.fits_of_decide rfl) (by decide)
  · rw [State.st, State.fld_of_reg (f := Reg.PLAT_STATE_STATE) hreg,
      State.fld_setFld_clear (Fld.clearOf_of_bits (by rfl))]
    exact hst

/-! The commands. -/

section

variable {s : State} {rq : Rq}

/-- JOB_OPEN without a job. -/
theorem execJobOpen_opens {job mask : Nat} (h : s.ready rq 0x0100 = true) (h0 : mask ≠ 0) (hm : mask < 65536)
    (hjob : s.job.active = false) : execJobOpen rq job mask s =
      .next (((State.setFld { s.take rq with job := { active := true, num := job, mask := mask, handle := s.job.handle } }
        Reg.PLAT_STATE_JOB 1).finish rq 0x0100 scDone).lift rq.sess rq.tag) := by
  have hjob' : ¬(s.take rq).job.active = true := by
    intro e
    rw [show (s.take rq).job.active = s.job.active from rfl, hjob] at e
    cases e
  rw [execJobOpen, State.run_ready _ h, State.withParams_ok _ (State.ready_reserved h) (by simp [h0, hm]), if_neg hjob']
  rfl

/-- A PAGE_SUBMIT whose fields are legal takes its turn. -/
theorem execPageSubmit_legal {page ch len : Nat} (h : s.ready rq 0x0101 = true) (hj : s.jobTakes = true) (hch : ch < 64)
    (hown : s.flag (Reg.DMA_CTRL_OWNER ch) = true) (hlen : len ≠ 0) : execPageSubmit rq page ch len s =
      .next ((((s.take rq).pend rq 0x0101).startTurn ⟨rq.sess, rq.tag, page, ch, len⟩).lift rq.sess rq.tag) := by
  have hj' : (s.take rq).jobTakes = true := hj
  have hown' : (s.take rq).flag (Reg.DMA_CTRL_OWNER ch) = true := hown
  rw [execPageSubmit, State.run_ready _ h,
    State.withParams_ok _ (State.ready_reserved h) (by simp [hj', hch, hown', hlen])]
  rfl

/-- It goes on where contexts are free, no start waits, no bus error stands, its channel is free and the queue has room. -/
theorem execPageSubmit_goesOn {page ch len r : Nat} (h : s.ready rq 0x0101 = true) (hj : s.jobTakes = true) (hch : ch < 64)
    (hown : s.flag (Reg.DMA_CTRL_OWNER ch) = true) (hlen : len ≠ 0) (hr : s.freeRange = some r) (hw : s.job.starts = [])
    (hbus : s.busStopped = false) (htaken : s.chTaken ch = false) (hfail : ∀ e ∈ s.job.entries, e.failed = false)
    (hroom : s.job.entries.length < 1024) : execPageSubmit rq page ch len s =
      .next ((((s.take rq).pend rq 0x0101).goesOn ⟨rq.sess, rq.tag, page, ch, len⟩ r).lift rq.sess rq.tag) := by
  let w : StartWait := ⟨rq.sess, rq.tag, page, ch, len⟩
  let u := (s.take rq).pend rq 0x0101
  have hjob : u.job = s.job := State.pend_take_keeps (fun _ _ => rfl) ..
  have hr' : u.freeRange = some r := (State.pend_take_keeps (view := State.freeRange) (fun _ _ => rfl) ..).trans hr
  have hbus' : u.busStopped = false := (State.pend_take_keeps (view := State.busStopped) (fun _ _ => rfl) ..).trans hbus
  have htaken' : u.chTaken w.ch = false :=
    (State.pend_take_keeps (view := (State.chTaken · ch)) (fun _ _ => rfl) ..).trans htaken
  have e : u.startTurn w = u.goesOn w r :=
    (State.startTurn_goesOn hr' (by rw [hjob, hw]) hbus').trans
      (State.pageStart_goesOn htaken' (by rw [hjob]; exact hfail) (by rw [hjob]; exact hroom))
  rw [execPageSubmit_legal h hj hch hown hlen, e]

/-- Else it waits behind the others. -/
theorem execPageSubmit_waits {page ch len : Nat} (h : s.ready rq 0x0101 = true) (hj : s.jobTakes = true) (hch : ch < 64)
    (hown : s.flag (Reg.DMA_CTRL_OWNER ch) = true) (hlen : len ≠ 0)
    (hwait : s.freeRange = none ∨ s.job.starts ≠ [] ∨ s.busStopped = true) : execPageSubmit rq page ch len s =
      .next ((((s.take rq).pend rq 0x0101).withStart ⟨rq.sess, rq.tag, page, ch, len⟩).lift rq.sess rq.tag) := by
  have hwait' : ((s.take rq).pend rq 0x0101).freeRange = none ∨ ((s.take rq).pend rq 0x0101).job.starts ≠ [] ∨
      ((s.take rq).pend rq 0x0101).busStopped = true := by
    rwa [State.pend_take_keeps (view := State.freeRange) fun _ _ => rfl,
      State.pend_take_keeps (view := State.job) fun _ _ => rfl,
      State.pend_take_keeps (view := State.busStopped) fun _ _ => rfl]
  rw [execPageSubmit_legal h hj hch hown hlen, State.startTurn_waits hwait']

/-- PAGE_REPEAT of a page that is held. -/
theorem execPageRepeat_legal {handle n : Nat} (h : s.ready rq 0x0102 = true) (hj : s.jobTakes = true)
    (hp : s.job.pages.any (fun p => p.handle == handle) = true) (hlen : s.job.entries.length < 1024) :
    execPageRepeat rq handle n s = .next ((((s.take rq).withEntry
      { id := s.job.nextEntry, handle := handle, count := n }).finish rq 0x0102 scDone).lift rq.sess rq.tag) := by
  have hj' : (s.take rq).jobTakes = true := hj
  have hlen' : ¬1024 ≤ (s.take rq).job.entries.length := Nat.not_le.mpr hlen
  rw [execPageRepeat, State.run_ready _ h, State.withParams_ok _ (State.ready_reserved h) (by simpa [hj'] using hp), if_neg hlen']
  rfl

/-- JOB_CLOSE of the open job. -/
theorem execJobClose_legal (h : s.ready rq 0x0103 = true) (hj : s.job.active = true) :
    execJobClose rq s.job.num s = .next
      (((s.take rq).closeJob.finish rq 0x0103 scDone).checkEnd.lift rq.sess rq.tag) := by
  rw [execJobClose, State.run_ready _ h, State.withParams_ok _ (State.ready_reserved h) (by simp [hj])]
  rfl

/-- BAR_DELAY_SET of a bar (R157). -/
theorem execBarDelaySet_legal {b d : Nat} (h : s.ready rq 0x0120 = true) (hb : b < 16) (hd : d < idxMod) :
    execBarDelaySet rq b d s =
      .next ((((s.take rq).setFld (Reg.DOSE_BAR_DELAY_DELAY b) d).finish rq 0x0120 scDone).lift rq.sess rq.tag) := by
  rw [execBarDelaySet, State.run_ready _ h, State.withParams_ok _ (State.ready_reserved h) (by simp [hb, hd])]

end

theorem State.page_of_ingest {t u : State} (h : t.ingest = u.ingest) (ch : Nat) : t.page ch = u.page ch := by
  rw [State.page, h, State.page]

theorem Reg.doseBarDelay_quiet : ∀ b, b < 16 → (Reg.DOSE_BAR_DELAY_DELAY b).addr ∉ answerRegs := by decide +kernel

/-- A job that is done stays so while only the reply's way and the registers change. -/
theorem State.jobDone_of_rest {t u : State} (h : t.rest = u.rest) : t.jobDone = u.jobDone :=
  (congrArg State.jobDone h : t.rest.jobDone = u.rest.jobDone)

/-- Settles O32: each command by the state that it leaves; the job ends through `jobEnd`, which nothing after it undoes. -/
theorem jobCommandsComplete : Obligations.JobCommandsComplete := by
  refine ⟨?jobOpen, ?starts, ?waits, ?resumes, ?again, ?closes, ?ends, ?barDelay⟩
  case jobOpen =>
    intro s rq job mask h h0 hm hjob
    let v : State := { s.take rq with job := { active := true, num := job, mask := mask, handle := s.job.handle } }
    have hopen : (v.setFld Reg.PLAT_STATE_JOB 1).sessOpen rq.sess = true :=
      (State.sessOpen_of_cmd (State.setFld_cmd ..) _).trans (State.ready_open h)
    refine ⟨_, execJobOpen_opens h h0 hm hjob, State.finish_lift_answered hopen .., ?_, ?_, ?_, fun a ha => ?_⟩
    · exact (State.rest_job (State.finish_lift_rest ..)).trans (State.setFld_job v Reg.PLAT_STATE_JOB 1)
    · rw [State.finish_lift_fld ⟨by decide, by decide⟩ (.inr (by decide)) ⟨by decide, by decide, by decide⟩]
      exact State.fld_setFld (Fld.fits_of_decide rfl) (by decide)
    · rw [State.finish_lift_st, State.st, State.fld_setFld_clear (Fld.clearOf_of_bits (by rfl)), State.fld_withJob]
      rfl
    · exact (State.finish_lift_reg ha ..).trans (State.reg_setFld_other (ne_platState_of ha))
  case starts =>
    intro s rq page ch len r h hj hch hown hlen hr hw hbus htaken hfail hroom
    let w : StartWait := ⟨rq.sess, rq.tag, page, ch, len⟩
    let u := (s.take rq).pend rq 0x0101
    have hjob : u.job = s.job := State.pend_take_keeps (fun _ _ => rfl) ..
    have hpage : ((u.goesOn w r).lift rq.sess rq.tag).page ch = w.opens s.job.nextEntry r := by
      rw [State.page_of_ingest (State.lift_ingest ..), State.goesOn_page (w := w), hjob]
    have hqueue : ((u.goesOn w r).lift rq.sess rq.tag).job = { s.job with
        entries := s.job.entries ++ [{ id := s.job.nextEntry, page := some page }], nextEntry := s.job.nextEntry + 1 } := by
      rw [State.lift_job, State.goesOn_job, hjob]
    refine ⟨_, execPageSubmit_goesOn h hj hch hown hlen hr hw hbus htaken hfail hroom, ?_, ?_, ?_, ?_, ?_, ?_, ?_, ?_, ?_⟩
    · rw [State.lift_unanswered, State.unanswered, State.slot_of_cmd (State.goesOn_cmd ..)]
      exact State.pend_unanswered (State.ready_open h)
    · rw [hpage]; rfl
    · rw [hpage]; rfl
    · rw [hpage]; rfl
    · rw [hpage]; rfl
    · rw [hpage]; rfl
    · rw [hqueue]
    · rw [hqueue]
    · rw [State.lift_fld (Fld.fits_of_decide rfl) (.inl (by
        rw [Reg.DMA_STATUS_ACTIVE, Reg.PLAT_STATE_BARRIER]
        dsimp only
        omega))]
      exact State.chainStart_active hch
  case waits =>
    intro s rq page ch len h hj hch hown hlen hwait
    refine ⟨_, execPageSubmit_waits h hj hch hown hlen hwait, ?_, ?_, ?_⟩
    · rw [State.lift_unanswered]
      exact State.pend_unanswered (State.ready_open h)
    · rw [State.lift_job]
      exact congrArg (fun j : JobUnit => j.starts ++ [⟨rq.sess, rq.tag, page, ch, len⟩])
        (State.pend_take_keeps (view := State.job) (fun _ _ => rfl) ..)
    · rw [State.lift_ingest]
      exact State.pend_take_keeps (view := State.ingest) (fun _ _ => rfl) ..
  case resumes =>
    intro s w l r hstarts hr hch hbus htaken hfail hroom
    let u : State := { s with job := { s.job with starts := l } }
    have e : execPageSubmitStart s = .next (u.goesOn w r) := by
      rw [execPageSubmitStart, hstarts, hr]
      dsimp only
      rw [if_neg (by simp [hbus])]
      exact congrArg _ (State.pageStart_goesOn (s := u) htaken hfail hroom)
    refine ⟨_, e, ?_, ?_, ?_, ?_⟩
    · rw [State.goesOn_job]
    · rw [State.goesOn_page]; rfl
    · rw [State.goesOn_page]; rfl
    · rw [State.goesOn_job]
  case again =>
    intro s rq handle n h hj hp hlen
    have hopen : ((s.take rq).withEntry { id := s.job.nextEntry, handle := handle, count := n }).sessOpen rq.sess = true :=
      (State.sessOpen_of_cmd (u := s.take rq) rfl _).trans (State.ready_open h)
    have hjob := State.rest_job (State.finish_lift_rest (u := (s.take rq).withEntry
      { id := s.job.nextEntry, handle := handle, count := n }) (rq := rq) (op := 0x0102) (st := scDone) (pl := [])
      rq.sess rq.tag)
    refine ⟨_, execPageRepeat_legal h hj hp hlen, State.finish_lift_answered hopen .., ?_, ?_, ?_, fun a ha => ?_⟩
    · rw [hjob]; rfl
    · rw [hjob]; rfl
    · rw [hjob]; rfl
    · exact (State.finish_lift_reg ha ..).trans (State.reg_of_regs (u := s) rfl a)
  case closes =>
    intro s rq h hj hst
    let u := (s.take rq).closeJob.finish rq 0x0103 scDone
    have hust : u.st = s.st := State.finish_fld ⟨by decide, by decide, by decide⟩
    have e : u.checkEnd = u := by
      rw [State.checkEnd, State.inSt, hust]
      rcases hst with hst | hst <;> rw [hst] <;> rfl
    have hopen : (s.take rq).closeJob.sessOpen rq.sess = true :=
      (State.sessOpen_of_cmd (u := s.take rq) rfl _).trans (State.ready_open h)
    refine ⟨_, (execJobClose_legal h hj).trans (by rw [e]), State.finish_lift_answered hopen .., ?_, ?_⟩
    · exact State.rest_job (State.finish_lift_rest ..)
    · exact State.finish_lift_st ..
  case ends =>
    intro s rq h hj hst hdone
    let u := (s.take rq).closeJob.finish rq 0x0103 scDone
    have hust : u.st = s.st := State.finish_fld ⟨by decide, by decide, by decide⟩
    have hudone : u.jobDone = true := (State.jobDone_of_rest (State.finish_rest ..)).trans hdone
    have e : u.checkEnd = u.jobEnd := by
      rw [State.checkEnd, State.inSt, hust, hst, hudone]
      rfl
    obtain ⟨hactive, hentries, hshown, hready⟩ := u.jobEnd_ends
    refine ⟨_, (execJobClose_legal h hj).trans (by rw [e]), ?_, ?_, ?_, ?_⟩
    · rw [State.lift_job, hactive]
    · rw [State.lift_job, hentries]
    · rw [State.lift_fld ⟨by decide, by decide⟩ (.inr (by decide)), hshown]
    · rw [State.st, State.lift_fld ⟨by decide, by decide⟩ (.inr (by decide))]
      exact hready
  case barDelay =>
    intro s rq b d h hb hd
    have hopen : ((s.take rq).setFld (Reg.DOSE_BAR_DELAY_DELAY b) d).sessOpen rq.sess = true :=
      (State.sessOpen_of_cmd (State.setFld_cmd ..) _).trans (State.ready_open h)
    refine ⟨_, execBarDelaySet_legal h hb hd, State.finish_lift_answered hopen .., ?_, fun a ha hne => ?_⟩
    · rw [State.fld_of_reg (State.finish_lift_reg (Reg.doseBarDelay_quiet b hb) ..)]
      exact State.fld_setFld (Fld.fits_of_decide rfl) hd
    · exact (State.finish_lift_reg ha ..).trans
        (State.reg_setFld_other (s := s.take rq) (f := Reg.DOSE_BAR_DELAY_DELAY b) hne)

end Sys2Proof.Machine

/-! SUPPORT. Accesses to device memory by the units (R317 to R323): the bytes they leave, and the fields they do not touch. -/
namespace Sys2Proof.Machine

/-! Fields that no report of the memory shows in. -/

/-- The registers of the memory as a whole in which a read or a write of it shows. -/
def dramRegs : List Nat := [Reg.MEM_UE_LO, Reg.MEM_UE_HI, Reg.MEM_INJECT, Reg.MEM_CNT_CE, Reg.MEM_CNT_UE, Reg.MEM_EVENTS]

/-- A field apart from the log, the event matrix, and the counts, rows and events of the memory and its channels. The
number of a channel has no bound here: an address beyond the last region counts up without one. -/
structure Fld.OffDram (f : Fld) : Prop where
  event : f.addr ∉ eventRegs
  unit : f.addr ∉ dramRegs
  row : ∀ c, f.addr ≠ Reg.MEM_CH_ROW c
  ue : ∀ c, (Reg.MEM_CH_STATUS_UE c).clearOf f = true
  ce : ∀ c, (Reg.MEM_CH_STATUS_CE c).clearOf f = true

/-- The blocks below the event matrix and the memory. -/
theorem Fld.offDram_of_low {f : Fld} (hf : f.fits) (h : f.addr < 0x290000) : f.OffDram where
  event := by
    simp only [eventRegs, Reg.EVT_COUNTS, Reg.EVT_STATUS, Reg.NVC_LOG, List.mem_cons, List.not_mem_nil, or_false, not_or]
    omega
  unit := by
    simp only [dramRegs, Reg.MEM_UE_LO, Reg.MEM_UE_HI, Reg.MEM_INJECT, Reg.MEM_CNT_CE, Reg.MEM_CNT_UE, Reg.MEM_EVENTS,
      List.mem_cons, List.not_mem_nil, or_false, not_or]
    omega
  row c := by rw [Reg.MEM_CH_ROW]; omega
  ue c := decide_eq_true ⟨Fld.fits_of_decide rfl, hf, .inl (by rw [Reg.MEM_CH_STATUS_UE]; dsimp only; omega)⟩
  ce c := decide_eq_true ⟨Fld.fits_of_decide rfl, hf, .inl (by rw [Reg.MEM_CH_STATUS_CE]; dsimp only; omega)⟩

/-- The relaxed-ordering enable shares no bit with a channel's counts. -/
theorem Reg.relaxed_offDram : Reg.PCIE_CTRL_RO_EN.OffDram where
  event := by decide
  unit := by decide
  row c := by rw [Reg.MEM_CH_ROW, Reg.PCIE_CTRL_RO_EN]; dsimp only; omega
  ue c := by simp [Fld.clearOf, Reg.PCIE_CTRL_RO_EN, Reg.MEM_CH_STATUS_UE]
  ce c := by simp [Fld.clearOf, Reg.PCIE_CTRL_RO_EN, Reg.MEM_CH_STATUS_CE]

theorem State.fld_ite {p : Prop} [Decidable p] {a b : State} (f : Fld) :
    (if p then a else b).fld f = if p then a.fld f else b.fld f := apply_ite (State.fld · f) ..

theorem State.captureLost_fld (s : State) (a : Nat) (f : Fld) : (s.captureLost a).fld f = s.fld f := by
  rw [State.captureLost]
  split <;> rfl

theorem State.addRecord_fld (s : State) (r : Nat) (make : Nat → List Byte) (f : Fld) :
    (s.addRecord r make).fld f = s.fld f := by
  rw [State.addRecord]
  split <;> rfl

theorem State.withDram_fld (s : State) (d : DramUnit) (f : Fld) : State.fld { s with dram := d } f = s.fld f := (rfl)

section

variable {f : Fld} (h : f.OffDram)
include h

theorem Fld.OffDram.setFld {s : State} {g : Fld} {v : Nat} (hg : g.addr ∈ dramRegs) : (s.setFld g v).fld f = s.fld f :=
  State.fld_of_reg (State.reg_setFld_other fun e => h.unit (e ▸ hg))

theorem Fld.OffDram.setRow {s : State} {g : Fld} {c v : Nat} (hg : g.addr = Reg.MEM_CH_ROW c) :
    (s.setFld g v).fld f = s.fld f :=
  State.fld_of_reg (State.reg_setFld_other fun e => h.row c (e.trans hg))


theorem State.latchUe_fld (s : State) (a action region c input : Nat) (scrub : Bool) :
    (s.latchUe a action region c input scrub).fld f = s.fld f := by
  rw [State.latchUe]
  split
  · rfl
  · simp only [State.setFlag]
    iterate 8 rw [h.setFld (by decide)]

theorem State.reportCorrected_fld (s : State) (c w : Nat) (scrub : Bool) :
    (s.reportCorrected c w scrub).fld f = s.fld f := by
  have hpc (s : State) (v : Nat) : (s.setFld (Reg.MEM_CH_ROW_PC c) v).fld f = s.fld f := h.setRow rfl
  have hbank (s : State) (v : Nat) : (s.setFld (Reg.MEM_CH_ROW_BANK c) v).fld f = s.fld f := h.setRow rfl
  have hrow (s : State) (v : Nat) : (s.setFld (Reg.MEM_CH_ROW_ROW c) v).fld f = s.fld f := h.setRow rfl
  have hfull : Reg.MEM_EVENTS_ROW_FULL.addr ∈ dramRegs := by decide
  have hcount : Reg.MEM_CNT_CE_COUNT.addr ∈ dramRegs := by decide
  simp only [State.reportCorrected.eq_def, State.bump.eq_def, ↓State.fld_ite, ↓State.addRecord_fld,
    ↓State.log1_fld h.event, ↓h.setFld hfull, ↓State.withDram_fld, ↓hpc, ↓hbank, ↓hrow, ↓h.setFld hcount,
    ↓State.fld_setFld_clear (h.ce c), ite_self]

theorem State.reportLost_fld (s : State) (n c input w : Nat) (scrub : Bool) :
    (s.reportLost n c input w scrub).fld f = s.fld f := by
  have hset (s : State) (b : Bool) : (s.setWord w b).fld f = s.fld f := rfl
  have hmirror : Reg.MEM_EVENTS_MIRROR.addr ∈ dramRegs := by decide
  have hlost : Reg.MEM_EVENTS_UE.addr ∈ dramRegs := by decide
  have hserved : Reg.MEM_CNT_UE_MIRROR.addr ∈ dramRegs := by decide
  have hcount : Reg.MEM_CNT_UE_UE.addr ∈ dramRegs := by decide
  simp only [State.reportLost.eq_def, State.bump.eq_def, ↓State.captureLost_fld, ↓hset, ↓State.fld_ite, ↓h.setFld hmirror,
    ↓h.setFld hserved, ↓State.latchUe_fld h, ↓State.raiseIf_fld h.event, ↓State.log1_fld h.event, ↓State.addRecord_fld,
    ↓h.setFld hlost, ↓h.setFld hcount, ↓State.fld_setFld_clear (h.ue c), ite_self]

theorem State.readWord_fld (s : State) (c input w : Nat) (scrub : Bool) :
    (s.readWord c input w scrub).fld f = s.fld f := by
  have hback (s : State) (e : Option Nat) : (s.queueBack w e).fld f = s.fld f := rfl
  rw [State.readWord]
  split
  · rfl
  · rw [hback, State.reportCorrected_fld h]
    rfl
  · rw [hback, State.reportCorrected_fld h]
    rfl
  · rw [State.reportLost_fld h]
    rfl

/-- A unit's read of memory. -/
theorem State.readMem_fld (s : State) (input a n : Nat) : (s.readMem input a n).fld f = s.fld f :=
  State.foldl_keeps (State.fld · f) (fun _ _ => State.readWord_fld h ..) _ s

theorem State.inject_fld (s : State) (a n : Nat) : (s.inject a n).fld f = s.fld f := by
  have hup (s : State) (w x p : Nat) : (s.upset w x p).fld f = s.fld f := rfl
  rw [State.inject]
  split
  · rfl
  split
  · rfl
  · dsimp only
    rw [h.setFld (by decide)]
    split
    · rw [hup, hup]
    · rw [hup]

/-- A unit's write of memory. -/
theorem State.writeMem_fld (s : State) (input a : Nat) (b : List Byte) : (s.writeMem input a b).fld f = s.fld f := by
  have hstore (s : State) : (s.memStore a b).fld f = s.fld f := rfl
  rw [State.writeMem]
  dsimp only
  rw [State.inject_fld h, State.withDram_fld]
  refine (State.foldl_keeps (State.fld · f) (fun s w => ?_) _ _).trans ?_
  · split <;> rfl
  · exact (hstore _).trans (State.foldl_keeps (State.fld · f) (fun _ _ => State.readWord_fld h ..) _ s)

end

/-! The bytes. -/

/-- What one unit writes stands in memory. -/
theorem State.writeMem_mem (s : State) (input a : Nat) (b : List Byte) :
    (s.writeMem input a b).mem = memPut s.mem a b := by
  have hdram (s : State) (d : DramUnit) : State.mem { s with dram := d } = s.mem := rfl
  rw [State.writeMem]
  dsimp only
  rw [State.mem_of_core (State.inject_core ..), hdram]
  refine (State.foldl_keeps State.mem (fun s w => ?_) _ _).trans ?_
  · split
    · rfl
    · exact State.mem_of_core (State.setWord_core ..)
  · rw [State.memStore_mem]
    exact congrArg (memPut · a b) (State.foldl_keeps State.mem (fun _ _ => State.mem_of_core (State.readWord_core ..)) _ s)

/-- A read takes no byte away. -/
theorem State.readMem_mem (s : State) (input a n : Nat) : (s.readMem input a n).mem = s.mem :=
  State.mem_of_core (State.readMem_core ..)

/-- Bytes read where nothing was written since. -/
theorem memGet_put_outside {m : List Host.Cell} {a x n : Nat} {l : List Byte} (h : x + n ≤ a ∨ a + l.length ≤ x) :
    memGet (memPut m a l) x n = memGet m x n :=
  List.map_congr_left fun i hi => memByte_put_outside (by have := List.mem_range.mp hi; omega)

theorem memGet_length (m : List Host.Cell) (a n : Nat) : (memGet m a n).length = n := by simp [memGet]

end Sys2Proof.Machine

/-! SUPPORT. The record rings and the compressors (R132 to R134, R235, R237). -/
namespace Sys2Proof.Machine

/-! Record rings. -/

theorem State.recRing_setRecRing (s : State) (r : Nat) (x : RecRing) : (s.setRecRing r x).recRing r = x := tabGet_put_self

theorem State.recRing_of_rings {t u : State} (h : t.rings = u.rings) (r : Nat) : t.recRing r = u.recRing r := by
  rw [State.recRing, h, State.recRing]

/-- The end of a breach of C1 shows in the registers alone. -/
theorem State.mendC1_keeps {β : Type} {view : State → β} (h : ∀ s l, view { s with regs := l } = view s) (s : State) :
    view s.mendC1 = view s := by
  rw [State.mendC1]
  split
  · rfl
  · exact h s _

/-- What a signal for a ring sends: its vector, or nothing while it is masked or coalesced. -/
theorem State.recSignal_sends (s : State) (r : Nat) :
    ∃ m, (s.recSignal r).outbox = s.outbox ++ m ∧ (m = [] ∨ m = [.msix (s.recRing r).vector]) := by
  rw [State.recSignal]
  split
  · exact ⟨[], (List.append_nil _).symm, .inl rfl⟩
  rw [State.msixSignal]
  split
  · exact ⟨_, rfl, .inr rfl⟩
  · exact ⟨[], (List.append_nil _).symm, .inl rfl⟩

theorem State.recSignal_regs (s : State) (r : Nat) : (s.recSignal r).regs = s.regs := by
  rw [State.recSignal]
  split
  · rfl
  · exact State.msixSignal_regs ..

/-- A signal for a ring changes its two coalescing bits alone. -/
theorem State.recSignal_recRing (s : State) (r : Nat) : ∃ c d,
    (s.recSignal r).recRing r = { s.recRing r with coalescing := c, deferred := d } := by
  rw [State.recSignal]
  split
  · exact ⟨_, _, State.recRing_setRecRing ..⟩
  · exact ⟨_, _, (State.recRing_of_rings (State.msixSignal_rings ..) r).trans (State.recRing_setRecRing ..)⟩

theorem State.msixSignal_unmasked {s : State} {v : Nat} (h : tabGet false s.msix.unmasked v = true) :
    s.msixSignal v = s.emit (.msix v) := if_pos h

/-- A breach of a condition shows as present and as seen. -/
theorem State.breach_cond {c : Nat} (hc : c - 1 < 6) (s : State) (block inst : Nat) :
    bitAt ((s.breach c block inst).fld Reg.PLAT_STATE_COND) (c - 1) = true ∧
      bitAt ((s.breach c block inst).fld Reg.PLAT_COND_SEEN_SEEN) (c - 1) = true := by
  rw [State.breach]
  constructor
  · rw [State.fld_setFld_clear (by decide), State.bitAt_setFld ⟨by decide, by decide⟩ hc, bitAt_setBitAt_self]
  · rw [State.bitAt_setFld ⟨by decide, by decide⟩ hc, bitAt_setBitAt_self]

theorem State.rings_of_platform {s t : State} (h : t.platform = s.platform) : t.rings = s.rings :=
  congrArg (fun p => p.2.2.2.2.2.2.2.1) h

/-! What the endpoint reports of a failed read. -/

/-- Where a failed request of the endpoint shows. -/
def pcieErrRegs : List Nat := [Reg.PCIE_EVENTS, Reg.PCIE_CNT_ERR, Reg.PCIE_HDRLOG 0, Reg.PCIE_HDRLOG 1, Reg.PCIE_HDRLOG 2,
  Reg.PCIE_HDRLOG 3]

theorem State.pcieReport_reg {s : State} {kind a : Nat} (h : a ∉ pcieErrRegs) : (s.pcieReport kind).reg a = s.reg a := by
  have hset (s : State) (f : Fld) (v : Nat) (hf : f.addr ∈ pcieErrRegs) : (s.setFld f v).reg a = s.reg a :=
    State.reg_setFld_other fun e => h (e ▸ hf)
  have hlogged : ∀ i ∈ List.range 4, Reg.PCIE_HDRLOG i ∈ pcieErrRegs := by decide
  have hlog (s : State) (n : Nat) : ((List.range 4).foldl (fun s i =>
      s.setReg (Reg.PCIE_HDRLOG i) (Config.tlpHeader n i)) s).reg a = s.reg a :=
    List.foldlRecOn (motive := fun t => State.reg t a = s.reg a) _ _ rfl fun _ ih i hi =>
      (State.reg_setReg_other (b := a) fun e => h (e ▸ hlogged i hi)).trans ih
  have hfresh (s : State) (n : Nat) : State.reg { s with fresh := n } a = s.reg a := rfl
  have hsent (s : State) (o : Out) : (s.emit o).reg a = s.reg a := rfl
  rw [State.pcieReport.eq_def]
  dsimp only
  split
  · rw [State.bump, hset _ _ _ (by decide), hset _ _ _ (by decide), hset _ _ _ (by decide), hsent]
  · split
    · rw [hlog, hfresh, State.bump, hset _ _ _ (by decide), hset _ _ _ (by decide), hsent]
    · rw [State.bump, hset _ _ _ (by decide), hset _ _ _ (by decide), hsent]
  · rw [hsent]

/-! The commands of the rings (R235). -/

/-- A ring as RECORD_RING_SET places it. -/
def RecRing.placedAt (x : RecRing) (v addr size : Nat) : RecRing :=
  { x with placed := true, vector := v, addr := addr, size := size, prod := 0, cons := 0, breached := false }

theorem execRecordRingSet_legal {s : State} {rq : Rq} {r v addr size : Nat} (h : s.ready rq 0x0207 = true) (hr : r < 2)
    (ha : addr % 4096 = 0) (hs : recSizeOk size = true) :
    execRecordRingSet rq r v addr size s = .next (((((s.take rq).setRecRing r
      ((s.recRing r).placedAt v addr size)).mendC1).finish rq 0x0207 scDone).lift rq.sess rq.tag) := by
  rw [execRecordRingSet, State.run_ready _ h, State.withParams_ok _ (State.ready_reserved h) (by simp [hr, ha, hs])]
  rfl

/-- The host address of a ring's next unit. -/
def RecRing.unitAt (x : RecRing) : Nat := x.addr + 64 + 64 * (x.prod % x.size)

/-- What a delivery puts into a ring's header: the producer index, then the count of drops. -/
def RecRing.header (x : RecRing) : List Byte := leBytes 4 ((x.prod + 1) % idxMod) ++ leBytes 4 x.dropped

/-- The oldest record `b` and the producer index on their way to the host; the records `l` wait still. -/
def State.recDelivered (s : State) (r : Nat) (b : List Byte) (l : List (List Byte)) : State :=
  ((s.emit (.hostWrite (s.recRing r).unitAt b)).emit (.hostWrite (s.recRing r).addr (s.recRing r).header)).setRecRing r
    { s.recRing r with prod := ((s.recRing r).prod + 1) % idxMod, waiting := l }

theorem execRecordDeliver_delivers {s : State} {r : Nat} {b : List Byte} {l : List (List Byte)} (hr : r < 2)
    (hw : (s.recRing r).waiting = b :: l) (hp : (s.recRing r).placed = true) (hf : (s.recRing r).full = false) :
    execRecordDeliver r s = .next ((s.recDelivered r b l).recSignal r) := by
  rw [execRecordDeliver]
  dsimp only
  rw [hw]
  exact congrArg Host.Outcome.next (if_neg (by simp [hp, hf, Nat.not_le.mpr hr]))

theorem execConsumerIndexPoll_index {s : State} {r i : Nat} (hr : r < 2) (hp : (s.recRing r).placed = true)
    (hb : (s.recRing r).breached = false) :
    execConsumerIndexPoll r (.index i) s = .next (s.setRecRing r { s.recRing r with cons := i % idxMod }) := by
  rw [execConsumerIndexPoll, if_neg (by simp [hp, Nat.not_le.mpr hr])]
  dsimp only
  rw [hb]
  rfl

theorem execConsumerIndexPoll_failed {s : State} {r k : Nat} (hr : r < 2) (hp : (s.recRing r).placed = true) :
    execConsumerIndexPoll r (.failed k) s = .next ((s.pcieReport k).log1 0x40 0x1B r) := by
  rw [execConsumerIndexPoll, if_neg (by simp [hp, Nat.not_le.mpr hr])]

theorem execRecordRingFullTimeout_full {s : State} {r : Nat} (hr : r < 2) (hp : (s.recRing r).placed = true)
    (hf : (s.recRing r).full = true) : execRecordRingFullTimeout r s =
      .next ((s.setRecRing r { s.recRing r with breached := true }).breach 1 0x1B r) :=
  congrArg Host.Outcome.next (if_pos (by simp [hp, hf, hr]))

theorem execInterruptCoalesce_quiet {s : State} {r : Nat} (hd : (s.recRing r).deferred = false) :
    execInterruptCoalesce r s = .next (s.setRecRing r { s.recRing r with coalescing := false }) :=
  congrArg Host.Outcome.next (if_neg (by rw [hd]; decide))

theorem execInterruptCoalesce_deferred {s : State} {r : Nat} (hd : (s.recRing r).deferred = true)
    (hv : tabGet false s.msix.unmasked (s.recRing r).vector = true) : execInterruptCoalesce r s =
      .next ((s.setRecRing r { s.recRing r with coalescing := true, deferred := false }).emit
        (.msix (s.recRing r).vector)) :=
  congrArg Host.Outcome.next ((if_pos hd).trans (State.msixSignal_unmasked (s := s.setRecRing r _) hv))

/-! Compressors. -/

/-- The oldest waiting stream given to a free unit at the level that it has now (R132, R134). -/
def State.streamTaken (s : State) (u : Nat) (c : CropJob) (l : List CropJob) : State :=
  { s with ingest := { s.ingest with
      crops := l, streams := tabPut none s.ingest.streams u (some (c, s.fld (Reg.CMPR_CTRL_LEVEL u))) } }

theorem execCompressStreamStart_starts {s : State} {u : Nat} {c : CropJob} {l : List CropJob} (hu : u < 4)
    (hc : s.ingest.crops = c :: l) (hn : tabGet none s.ingest.streams u = none) : execCompressStreamStart u s =
      .next (((s.streamTaken u c l).setFld (Reg.CMPR_STATUS_BUSY u) 1).setFld (Reg.CMPR_STATUS_CONTEXT u) (256 + u)) := by
  rw [execCompressStreamStart, hc]
  exact congrArg Host.Outcome.next (if_neg (by simp [hn, hu]))

theorem leBytes_length (n v : Nat) : (leBytes n v).length = n := by
  induction n generalizing v with
  | zero => rfl
  | succ n ih => rw [leBytes, List.length_cons, ih]

/-- The slot of a crop (R237). -/
def State.cropAt (s : State) (c : CropJob) : Nat := cropBase + 524288 * (c.crop % 2 ^ s.fld Reg.JIG_CROP_SLOTS_EXP)

/-- The output record of a stream (R133). -/
def outputRecord (level : Nat) (data : List Byte) : List Byte :=
  leBytes 4 data.length ++ leBytes 4 (compress level data).length ++
    bytesOf [b2n (decide (0 < (blockCounts data (compress level data)).2)) +
      2 * b2n ((blockCounts data (compress level data)).1 == (blockCounts data (compress level data)).2), level] ++
    leBytes 2 (min 65535 (blockCounts data (compress level data)).1) ++ leBytes 4 (crc32c data)

theorem outputRecord_length (level : Nat) (data : List Byte) : (outputRecord level data).length = 16 := by
  simp [outputRecord, leBytes_length, bytesOf]

/-- A stream's three parts written into the slot: stream, record, header (R237). -/
def State.cropStored (s : State) (level : Nat) (c : CropJob) : State :=
  ((s.writeMem (s.classInput .background) (s.cropAt c + 48) (compress level c.data)).writeMem (s.classInput .background)
    (s.cropAt c + 32) (outputRecord level c.data)).writeMem (s.classInput .background) (s.cropAt c) c.header

/-- The parts stand in the slot side by side. -/
theorem State.cropStored_reads {s : State} {level : Nat} {c : CropJob} (h : c.header.length = 32) :
    memGet (s.cropStored level c).mem (s.cropAt c) 32 = c.header ∧
      memGet (s.cropStored level c).mem (s.cropAt c + 32) 16 = outputRecord level c.data ∧
      memGet (s.cropStored level c).mem (s.cropAt c + 48) (compress level c.data).length = compress level c.data := by
  have hrec := outputRecord_length level c.data
  rw [State.cropStored, State.writeMem_mem, State.writeMem_mem, State.writeMem_mem]
  refine ⟨?_, ?_, ?_⟩
  · rw [← h]
    exact memGet_put
  · rw [memGet_put_outside (by omega), ← hrec]
    exact memGet_put
  · rw [memGet_put_outside (by omega), memGet_put_outside (by omega)]
    exact memGet_put

/-- What the end of a stream does beside the writes: the unit's counts, its BUSY, its stream (R132, R133). -/
def State.streamCounted (s : State) (u n m stored : Nat) : State :=
  let i := countKib s (Reg.CMPR_IN_KIB u) (tabGet 0 s.ingest.inRest u) n
  let o := countKib i.2 (Reg.CMPR_OUT_KIB u) (tabGet 0 s.ingest.outRest u) m
  let s := (o.2.bump (Reg.CMPR_STATUS_STORED u) stored).setFld (Reg.CMPR_STATUS_BUSY u) 0
  State.bump { s with ingest := { s.ingest with
    streams := tabPut none s.ingest.streams u none, inRest := tabPut 0 s.ingest.inRest u i.1
    outRest := tabPut 0 s.ingest.outRest u o.1 } } Reg.JIG_CNT_CROP_WRITTEN

theorem State.streamEnd_eq (s : State) (u level : Nat) (c : CropJob) : s.streamEnd u c level =
    (s.cropStored level c).streamCounted u c.data.length (compress level c.data).length
      (blockCounts c.data (compress level c.data)).2 := (rfl)

/-- A unit whose stream has ended is free, and the counts take no byte of memory. -/
theorem State.streamCounted_unit {s : State} {u n m stored : Nat} (hu : u < 4) :
    (s.streamCounted u n m stored).mem = s.mem ∧ tabGet none (s.streamCounted u n m stored).ingest.streams u = none ∧
      (s.streamCounted u n m stored).fld (Reg.CMPR_STATUS_BUSY u) = 0 := by
  have hingest (s : State) (x : IngestUnit) (f : Fld) : State.fld { s with ingest := x } f = s.fld f := rfl
  have hclear : Reg.JIG_CNT_CROP_WRITTEN.clearOf (Reg.CMPR_STATUS_BUSY u) = true :=
    decide_eq_true ⟨⟨by decide, by decide⟩, Fld.fits_of_decide rfl,
      .inl (by rw [Reg.CMPR_STATUS_BUSY, Reg.JIG_CNT_CROP_WRITTEN]; dsimp only; omega)⟩
  refine ⟨?_, ?_, ?_⟩
  · have hkib (s : State) (f : Fld) (r n : Nat) : (countKib s f r n).2.mem = s.mem := State.bump_mem ..
    rw [State.streamCounted, State.bump_mem]
    dsimp only
    rw [State.setFld_mem, State.bump_mem, hkib, hkib]
  · rw [State.streamCounted, State.bump_ingest]
    dsimp only
    rw [tabGet_put_self]
  · rw [State.streamCounted, State.bump, State.fld_setFld_clear hclear, hingest]
    exact State.fld_setFld (Fld.fits_of_decide rfl) (show 0 < 2 ^ 1 by decide)

/-- Settles O43: each command by the state that it leaves, as the equation of its command above gives it. -/
theorem recordCommandsComplete : Obligations.RecordCommandsComplete := by
  refine ⟨?ringSet, ?deliver, ?poll, ?pollFailed, ?full, ?quiet, ?deferred, ?starts, ?ends⟩
  case ringSet =>
    intro s rq r v addr size h hr ha hs
    let u := ((s.take rq).setRecRing r ((s.recRing r).placedAt v addr size)).mendC1
    have hcmd : u.cmd = (s.take rq).cmd := State.mendC1_keeps (view := State.cmd) (fun _ _ => rfl) _
    have hring : u.recRing r = (s.recRing r).placedAt v addr size :=
      (State.mendC1_keeps (view := (State.recRing · r)) (fun _ _ => rfl) _).trans (State.recRing_setRecRing ..)
    have hopen : u.sessOpen rq.sess = true := (State.sessOpen_of_cmd hcmd _).trans (State.ready_open h)
    exact ⟨_, execRecordRingSet_legal h hr ha hs, State.finish_lift_answered hopen ..,
      (State.recRing_of_rings (State.rest_rings (State.finish_lift_rest ..)) r).trans hring⟩
  case deliver =>
    intro s r b l hr hw hp hf
    have hput : (s.recDelivered r b l).recRing r =
        { s.recRing r with prod := ((s.recRing r).prod + 1) % idxMod, waiting := l } := State.recRing_setRecRing ..
    obtain ⟨m, hm, hsent⟩ := (s.recDelivered r b l).recSignal_sends r
    obtain ⟨c, d, hring⟩ := (s.recDelivered r b l).recSignal_recRing r
    rw [hput] at hsent hring
    refine ⟨_, m, execRecordDeliver_delivers hr hw hp hf, ?_, ?_, ?_, hsent, ?_⟩
    · rw [hring]
    · rw [hring]
    · rw [hm]
      exact congrArg (· ++ m) (List.append_assoc ..)
    · exact State.recSignal_regs ..
  case poll =>
    intro s r i hr hp hb
    exact ⟨_, execConsumerIndexPoll_index hr hp hb, State.recRing_setRecRing .., rfl⟩
  case pollFailed =>
    intro s r k hr hp
    refine ⟨_, execConsumerIndexPoll_failed hr hp, ?_, ?_⟩
    · rw [State.recRing_of_rings (State.log1_rings ..),
        State.recRing_of_rings (State.rings_of_platform (State.pcieReport_platform ..))]
    · rw [State.log1_next, State.fld_of_reg (f := Reg.NVC_LOG_NEXT) (State.pcieReport_reg (by decide))]
  case full =>
    intro s r hr hp hf
    refine ⟨_, execRecordRingFullTimeout_full hr hp hf, ?_, State.breach_cond (c := 1) (by decide) ..⟩
    rw [State.recRing_of_rings (State.rings_of_platform (State.breach_platform ..)), State.recRing_setRecRing]
  case quiet =>
    intro s r hd
    exact ⟨_, execInterruptCoalesce_quiet hd, State.recRing_setRecRing .., rfl, rfl⟩
  case deferred =>
    intro s r hd hv
    exact ⟨_, execInterruptCoalesce_deferred hd hv, State.recRing_setRecRing .., rfl, rfl⟩
  case starts =>
    intro s u c l hu hc hn
    refine ⟨_, execCompressStreamStart_starts hu hc hn, ?_, ?_, ?_, ?_, fun a ha => ?_⟩
    · rw [State.setFld_ingest, State.setFld_ingest, State.streamTaken]
    · rw [State.setFld_ingest, State.setFld_ingest, State.streamTaken, tabGet_put_self]
    · rw [State.fld_setFld_clear (Fld.clearOf_of_bits (by rfl))]
      exact State.fld_setFld (Fld.fits_of_decide rfl) (show 1 < 2 ^ 1 by decide)
    · exact State.fld_setFld (Fld.fits_of_decide rfl) (show 256 + u < 2 ^ 12 by omega)
    · exact (State.reg_setFld_other ha).trans ((State.reg_setFld_other ha).trans (State.reg_of_regs rfl a))
  case ends =>
    intro s u level at_ c out hu hstream hheader hout hat
    subst hout hat
    have e : execCompressStreamEnd u s = .next (s.streamEnd u c level) := by rw [execCompressStreamEnd, hstream]
    rw [State.streamEnd_eq] at e
    obtain ⟨hhead, hrec, hdata⟩ := s.cropStored_reads (level := level) hheader
    obtain ⟨hmem, hnone, hbusy⟩ := State.streamCounted_unit (s := s.cropStored level c) (n := c.data.length)
      (m := (compress level c.data).length) (stored := (blockCounts c.data (compress level c.data)).2) hu
    rw [← hmem] at hhead hrec hdata
    exact ⟨_, e, hnone, hbusy, hhead, hdata, hrec⟩

end Sys2Proof.Machine

/-! SUPPORT. The end of a DMA chain (R112 to R116): what the channel shows, what it leaves of the others, and the halt that
waits for the last of them. -/
namespace Sys2Proof.Machine

/-! A channel's record. -/

theorem State.dmaCh_setDmaCh (s : State) (ch : Nat) (x : DmaChan) : (s.setDmaCh ch x).dmaCh ch = x := tabGet_put_self

theorem State.dmaCh_setDmaCh_other {s : State} {ch c : Nat} {x : DmaChan} (h : c ≠ ch) :
    (s.setDmaCh ch x).dmaCh c = s.dmaCh c := tabGet_put_other h

theorem State.dmaCh_of_chans {t u : State} (h : t.ingest.chans = u.ingest.chans) (ch : Nat) : t.dmaCh ch = u.dmaCh ch := by
  rw [State.dmaCh, h, State.dmaCh]

theorem State.page_of_pages {t u : State} (h : t.ingest.pages = u.ingest.pages) (ch : Nat) : t.page ch = u.page ch := by
  rw [State.page, h, State.page]

/-- A channel's record after its chain. -/
def DmaChan.ended (x : DmaChan) : DmaChan :=
  { x with desc := none, moved := 0, issued := 0, stop := none, ctx := none, chains := (x.chains + 1) % idxMod }

/-! The chain stops. -/

theorem State.chainStop_eq (s : State) (ch code : Nat) (own stopped : Bool) : s.chainStop ch code own stopped =
    (((((((s.chkUser ch false).setDmaCh ch (s.dmaCh ch).ended).setFld (Reg.DMA_STATUS_ACTIVE ch) 0).setFld
      (Reg.DMA_CTRL_RUN ch) 0).setFld (Reg.DMA_STATUS_END ch) code).setFlag (Reg.DMA_STATUS_FAULT_OWN ch) own).setFlag
        (Reg.DMA_STATUS_STOPPED ch) stopped) := (rfl)

theorem State.chainStop_ingest (s : State) (ch code : Nat) (own stopped : Bool) :
    (s.chainStop ch code own stopped).ingest = (s.setDmaCh ch (s.dmaCh ch).ended).ingest := by
  have hput (s : State) (x : DmaChan) :
      (s.setDmaCh ch x).ingest = { s.ingest with chans := tabPut {} s.ingest.chans ch x } := rfl
  rw [State.chainStop_eq, State.setFlag_ingest, State.setFlag_ingest, State.setFld_ingest, State.setFld_ingest,
    State.setFld_ingest, hput, State.chkUser_keeps (view := State.ingest) fun _ _ => rfl, hput]

/-- A register of the DMA block. -/
def dmaBlock (a : Nat) : Prop := 0x080000 ≤ a ∧ a < 0x090000

theorem Reg.dmaStatus_dmaBlock {ch : Nat} (h : ch < 64) : dmaBlock (Reg.DMA_STATUS ch) := by
  rw [dmaBlock, Reg.DMA_STATUS]; omega

theorem Reg.dmaCtrl_dmaBlock {ch : Nat} (h : ch < 64) : dmaBlock (Reg.DMA_CTRL ch) := by
  rw [dmaBlock, Reg.DMA_CTRL]; omega

theorem Reg.dmaStatus_ne_dmaCtrl (ch c : Nat) : Reg.DMA_STATUS ch ≠ Reg.DMA_CTRL c := by
  rw [Reg.DMA_STATUS, Reg.DMA_CTRL]; omega

theorem dmaBlock_quiet {a : Nat} (h : dmaBlock a) : quietAddr a := by
  obtain ⟨hlo, hhi⟩ := h
  simp only [quietAddr, Reg.ETH_CNT_FRAMES]
  omega

theorem dmaBlock_not_breachRegs {a : Nat} (h : dmaBlock a) : a ∉ breachRegs := by
  obtain ⟨hlo, hhi⟩ := h
  simp only [breachRegs, eventRegs, Reg.EVT_COUNTS, Reg.EVT_STATUS, Reg.NVC_LOG, Reg.PLAT_STATE, Reg.PLAT_COND_SEEN,
    List.cons_append, List.nil_append, List.mem_cons, List.not_mem_nil, or_false, not_or]
  omega

theorem dmaBlock_not_eventRegs {a : Nat} (h : dmaBlock a) : a ∉ eventRegs :=
  fun m => dmaBlock_not_breachRegs h (List.mem_append_left _ m)

/-- A stop shows in the channel's own STATUS and CTRL, and in the users of its check unit. -/
theorem State.chainStop_reg {s : State} {ch code a : Nat} {own stopped : Bool} (hb : dmaBlock a)
    (hs : a ≠ Reg.DMA_STATUS ch) (hc : a ≠ Reg.DMA_CTRL ch) : (s.chainStop ch code own stopped).reg a = s.reg a := by
  have hput (s : State) (x : DmaChan) : (s.setDmaCh ch x).reg a = s.reg a := rfl
  have hst (s : State) (v : Nat) (f : Fld) (h : f.addr = Reg.DMA_STATUS ch) : (s.setFld f v).reg a = s.reg a :=
    State.reg_setFld_other (h ▸ hs)
  rw [State.chainStop_eq, State.setFlag, State.setFlag, hst _ _ _ rfl, hst _ _ _ rfl, hst _ _ _ rfl,
    State.reg_setFld_other (f := Reg.DMA_CTRL_RUN ch) hc, hst _ _ _ rfl, hput,
    State.chkUser_reg (Nat.lt_trans hb.2 (by decide))]

/-- What a stopped channel shows. -/
theorem State.chainStop_shows {s : State} {ch code : Nat} {own stopped : Bool} (hch : ch < 64) (hcode : code < 16) :
    (s.chainStop ch code own stopped).fld (Reg.DMA_STATUS_ACTIVE ch) = 0 ∧
      (s.chainStop ch code own stopped).fld (Reg.DMA_CTRL_RUN ch) = 0 ∧
      (s.chainStop ch code own stopped).fld (Reg.DMA_STATUS_END ch) = code ∧
      (s.chainStop ch code own stopped).fld (Reg.DMA_STATUS_FAULT_OWN ch) = b2n own ∧
      (s.chainStop ch code own stopped).fld (Reg.DMA_STATUS_HOPS ch) = s.fld (Reg.DMA_STATUS_HOPS ch) := by
  have hrun (s : State) (v : Nat) (f : Fld) (h : f.addr = Reg.DMA_STATUS ch) :
      (s.setFld (Reg.DMA_CTRL_RUN ch) v).fld f = s.fld f :=
    State.fld_of_reg (State.reg_setFld_other (by rw [h]; exact Reg.dmaStatus_ne_dmaCtrl ch ch))
  have hst (s : State) (v : Nat) (f : Fld) (h : f.addr = Reg.DMA_STATUS ch) :
      (s.setFld f v).fld (Reg.DMA_CTRL_RUN ch) = s.fld (Reg.DMA_CTRL_RUN ch) :=
    State.fld_of_reg (State.reg_setFld_other (by rw [h]; exact (Reg.dmaStatus_ne_dmaCtrl ch ch).symm))
  have hput (s : State) (x : DmaChan) (f : Fld) : (s.setDmaCh ch x).fld f = s.fld f := rfl
  have hchk : (s.chkUser ch false).reg (Reg.DMA_STATUS ch) = s.reg (Reg.DMA_STATUS ch) :=
    State.chkUser_reg (Nat.lt_trans (Reg.dmaStatus_dmaBlock hch).2 (by decide))
  rw [State.chainStop_eq]
  refine ⟨?_, ?_, ?_, ?_, ?_⟩
  · rw [State.fld_setFlag_clear (Fld.clearOf_of_bits (by rfl)), State.fld_setFlag_clear (Fld.clearOf_of_bits (by rfl)),
      State.fld_setFld_clear (Fld.clearOf_of_bits (by rfl)), hrun _ _ _ rfl]
    exact State.fld_setFld (Fld.fits_of_decide rfl) (show 0 < 2 ^ 1 by decide)
  · rw [State.setFlag, State.setFlag, hst _ _ _ rfl, hst _ _ _ rfl, hst _ _ _ rfl]
    exact State.fld_setFld (Fld.fits_of_decide rfl) (show 0 < 2 ^ 1 by decide)
  · rw [State.fld_setFlag_clear (Fld.clearOf_of_bits (by rfl)), State.fld_setFlag_clear (Fld.clearOf_of_bits (by rfl))]
    exact State.fld_setFld (Fld.fits_of_decide rfl) hcode
  · rw [State.fld_setFlag_clear (Fld.clearOf_of_bits (by rfl))]
    exact State.fld_setFlag (Fld.fits_of_decide rfl) own
  · rw [State.fld_setFlag_clear (Fld.clearOf_of_bits (by rfl)), State.fld_setFlag_clear (Fld.clearOf_of_bits (by rfl)),
      State.fld_setFld_clear (Fld.clearOf_of_bits (by rfl)), hrun _ _ _ rfl,
      State.fld_setFld_clear (Fld.clearOf_of_bits (by rfl)), hput]
    exact State.fld_of_reg hchk

/-! The chain ends. -/

theorem State.ingest_of_printUnits {s t : State} (h : t.printUnits = s.printUnits) : t.ingest = s.ingest :=
  congrArg (fun p => p.2.2.2.2.2) h

/-- The register of DMA_DONE with a channel's bit. -/
def doneFld (ch : Nat) : Fld := if ch < 32 then Reg.DMA_DONE_LO_DONE else Reg.DMA_DONE_HI_DONE

theorem doneFld_addr (ch : Nat) : (doneFld ch).addr = Reg.DMA_DONE_LO ∨ (doneFld ch).addr = Reg.DMA_DONE_HI := by
  rw [doneFld]
  split
  · exact .inl rfl
  · exact .inr rfl

theorem doneFld_fits (ch : Nat) : (doneFld ch).fits := by
  rw [doneFld]
  split <;> exact ⟨by decide, by decide⟩

theorem doneFld_width (ch : Nat) : (doneFld ch).width = 32 := by
  rw [doneFld]
  split <;> rfl

theorem State.dmaDone_reg (s : State) (ch a : Nat) :
    (s.dmaDone ch).reg a = (s.setFld (doneFld ch) (setBitAt (s.fld (doneFld ch)) (ch % 32))).reg a :=
  State.msixSignal_reg ..

theorem State.writeBack_ingest (s : State) (ch code addr residue : Nat) :
    (s.writeBack ch code addr residue).ingest = s.ingest := by
  rw [State.writeBack]
  split <;> rfl

theorem State.ite_breachOnce_reg {s : State} {p : Prop} [Decidable p] {c block inst a : Nat} {detail : List Nat}
    (h : a ∉ breachRegs) : (if p then s.breachOnce c block inst detail else s).reg a = s.reg a := by
  split
  · exact State.breachOnce_reg h
  · rfl

/-- The end of a chain adds the channel's bit of DMA_DONE to what its stop shows. -/
theorem State.chainEnd_reg {s : State} {ch code addr residue a : Nat} {own stopped : Bool} (hb : dmaBlock a) :
    (s.chainEnd ch code addr residue own stopped).reg a =
      ((s.chainStop ch code own stopped).setFld (doneFld ch)
        (setBitAt ((s.chainStop ch code own stopped).fld (doneFld ch)) (ch % 32))).reg a := by
  have hregs := (s.chainStop ch code own stopped).writeBack_regs ch code addr residue
  rw [State.chainEnd, State.ite_breachOnce_reg (dmaBlock_not_breachRegs hb), State.dmaDone_reg, State.fld_of_regs hregs,
    State.reg, State.setFld, State.setReg, State.reg_of_regs hregs, hregs]
  rfl

theorem State.chainEnd_reg_other {s : State} {ch code addr residue a : Nat} {own stopped : Bool} (hb : dmaBlock a)
    (hd : a ≠ Reg.DMA_DONE_LO ∧ a ≠ Reg.DMA_DONE_HI) :
    (s.chainEnd ch code addr residue own stopped).reg a = (s.chainStop ch code own stopped).reg a := by
  rw [State.chainEnd_reg hb, State.reg_setFld_other]
  rcases doneFld_addr ch with e | e
  · exact e ▸ hd.1
  · exact e ▸ hd.2

/-- The channel's bit of DMA_DONE. -/
theorem State.chainEnd_done (s : State) (ch code addr residue : Nat) (own stopped : Bool) :
    bitAt ((s.chainEnd ch code addr residue own stopped).fld (doneFld ch)) (ch % 32) = true := by
  have hb : dmaBlock (doneFld ch).addr := by
    rcases doneFld_addr ch with e | e <;> rw [e] <;> exact ⟨by decide, by decide⟩
  rw [State.fld_of_reg (State.chainEnd_reg hb), State.bitAt_setFld (doneFld_fits ch)
    (by rw [doneFld_width]; exact Nat.mod_lt _ (by decide)), bitAt_setBitAt_self]

theorem State.chainEnd_ingest (s : State) (ch code addr residue : Nat) (own stopped : Bool) :
    (s.chainEnd ch code addr residue own stopped).ingest = (s.setDmaCh ch (s.dmaCh ch).ended).ingest := by
  have hone (s : State) (p : Prop) [Decidable p] (c block inst : Nat) (detail : List Nat) :
      (if p then s.breachOnce c block inst detail else s).ingest = s.ingest := by
    split
    · exact State.ingest_of_printUnits (State.breachOnce_printUnits ..)
    · rfl
  rw [State.chainEnd, hone, State.ingest_of_printUnits (State.dmaDone_printUnits ..), State.writeBack_ingest,
    State.chainStop_ingest]

theorem State.chainEnd_pages (s : State) (ch code addr residue : Nat) (own stopped : Bool) :
    (s.chainEnd ch code addr residue own stopped).ingest.pages = s.ingest.pages := by
  rw [State.chainEnd_ingest]
  rfl

/-! The halt that a bus error waits for (R116). -/

/-- Where the halt shows. -/
def haltRegs : List Nat := [Reg.DMA_GSTATUS, Reg.DMA_FAULT_LO, Reg.DMA_FAULT_HI]

theorem State.haltDone_reg {s : State} {a : Nat} (he : a ∉ eventRegs) (hh : a ∉ haltRegs) : s.haltDone.reg a = s.reg a := by
  have hset (s : State) (f : Fld) (v : Nat) (h : f.addr ∈ haltRegs) : (s.setFld f v).reg a = s.reg a :=
    State.reg_setFld_other fun e => hh (e ▸ h)
  rw [State.haltDone]
  split
  · rfl
  split
  · rfl
  · rw [State.msixSignal_reg, State.raise_reg he, hset _ _ _ (by decide), hset _ _ _ (by decide), hset _ _ _ (by decide),
      hset _ _ _ (by decide)]
    exact State.reg_of_regs rfl a

theorem State.haltDone_keeps {β : Type} {view : IngestUnit → β} (h : ∀ x, view { x with halting := none } = view x)
    (s : State) : view s.haltDone.ingest = view s.ingest := by
  rw [State.haltDone]
  split
  · rfl
  split
  · rfl
  · rw [State.msixSignal_ingest, State.raise_ingest, State.setFld_ingest, State.setFld_ingest, State.setFld_ingest,
      State.setFld_ingest]
    exact h _

theorem State.haltDone_pages (s : State) : s.haltDone.ingest.pages = s.ingest.pages :=
  State.haltDone_keeps (view := IngestUnit.pages) (fun _ => rfl) s

theorem State.haltDone_chans (s : State) : s.haltDone.ingest.chans = s.ingest.chans :=
  State.haltDone_keeps (view := IngestUnit.chans) (fun _ => rfl) s

/-- The halt waits while a chain runs. -/
theorem State.haltDone_of_active {s : State} {c : Nat} (hc : c < 64) (h : s.chActive c = true) : s.haltDone = s := by
  rw [State.haltDone]
  split
  · rfl
  · exact if_pos (List.any_eq_true.mpr ⟨c, List.mem_range.mpr hc, h⟩)

theorem State.haltDone_of_none {s : State} (h : s.ingest.halting = none) : s.haltDone = s := by
  rw [State.haltDone, h]

/-! What a page ingest that is given up leaves. -/

theorem State.finishSlot_ingest (s : State) (sess tag st : Nat) (pl : List Byte) :
    (s.finishSlot sess tag st pl).ingest = s.ingest := State.rest_ingest (State.finishSlot_rest ..)

theorem State.finishSlot_job (s : State) (sess tag st : Nat) (pl : List Byte) :
    (s.finishSlot sess tag st pl).job = s.job := State.rest_job (State.finishSlot_rest ..)

theorem State.freeUnits_ingest (s : State) (x : Ingest) : (s.freeUnits x).ingest = s.ingest :=
  State.foldl_keeps State.ingest (fun _ _ => State.setFld_ingest ..) _ s

theorem State.dropPage_ingest (s : State) (ch st : Nat) (pl : List Byte) :
    (s.dropPage ch st pl).ingest = (s.setPage ch {}).ingest := by
  have hput (s : State) : (s.setPage ch {}).ingest = { s.ingest with pages := tabPut {} s.ingest.pages ch {} } := rfl
  rw [State.dropPage, State.finishSlot_ingest]
  show ((s.freeUnits (s.page ch)).setPage ch {}).ingest = _
  rw [hput, State.freeUnits_ingest, hput]

/-- A page whose own rules fail it is given up. -/
theorem State.stopPage_page (s : State) (ch st : Nat) (pl : List Byte) : (s.stopPage ch st pl).page ch = {} := by
  have hdrop : (s.dropPage ch st pl).page ch = {} :=
    (State.page_of_ingest (State.dropPage_ingest ..) ch).trans (State.page_setPage ..)
  rw [State.stopPage]
  split
  · rw [State.page_of_pages (State.haltDone_pages _), State.page_of_pages (State.chainEnd_pages ..), hdrop]
  · exact hdrop

end Sys2Proof.Machine

/-! SUPPORT. The KPS parser and the decompressors (R118 to R127): what each item of a page leaves of its ingest. -/
namespace Sys2Proof.Machine

/-! Items taken. -/

/-- More of the page is still to come, or all of it has. -/
def Ingest.whole (x : Ingest) : Prop := x.ended = false ∨ x.len ≤ x.got

theorem State.shortPage_of_whole {s : State} {ch : Nat} (h : (s.page ch).whole) : s.shortPage ch = s := by
  refine if_neg fun hshort => ?_
  simp only [Bool.and_eq_true, decide_eq_true_eq] at hshort
  obtain ⟨⟨⟨-, hended⟩, hgot⟩, -⟩ := hshort
  rcases h with h | h
  · rw [h] at hended
    cases hended
  · omega

theorem State.shortPage_setPage {s : State} {ch : Nat} {x : Ingest} (h : x.whole) :
    (s.setPage ch x).shortPage ch = s.setPage ch x :=
  State.shortPage_of_whole ((State.page_setPage s ch x).symm ▸ h)

/-- The ingest once the job header is taken. -/
def Ingest.afterJobHeader (x : Ingest) : Ingest := { x.took 64 with stage := 1 }

theorem execKpsJobHeader_takes {s : State} {ch : Nat} {b : List Byte} (hr : (s.page ch).reads b = true)
    (hst : (s.page ch).stage = 0) (hpos : (s.page ch).pos = 0) (hlen : b.length = 64) (hbad : s.jobHeaderBad b = none)
    (hpass : (s.page ch).passes 64 = false) (hwhole : (s.page ch).whole) :
    execKpsJobHeader ch b s = .next (s.setPage ch (s.page ch).afterJobHeader) := by
  rw [execKpsJobHeader]
  dsimp only
  rw [if_neg (by simp [hr, hst, hpos, hlen]), if_neg (by simp [hst]), hbad]
  dsimp only
  rw [if_neg (by simp [hpass])]
  exact congrArg Host.Outcome.next (State.shortPage_setPage (x := (s.page ch).afterJobHeader) hwhole)

/-- The ingest once the page header and its plane descriptors are taken, the planes in `units`. -/
def Ingest.afterPageHeader (x : Ingest) (b : List Byte) (planes : List PlaneIn) : Ingest :=
  { x.took b.length with
    stage := 2, keep := bitAt (leAt b 7 1) 0, width := leAt b 12 4, lines := leAt b 16 4, xoff := leAt b 24 4,
    planes := planes }

theorem State.page_setCount (s : State) (id n ch : Nat) : (s.setCount id n).page ch = s.page ch := (rfl)

section

variable {s : State} {ch : Nat} {b : List Byte} {planes : List PlaneIn} (hr : (s.page ch).reads b = true)
  (hst : (s.page ch).stage = 1) (hbad : s.pageHeaderBad (s.page ch).page b = none)
  (hlen : b.length = 64 + 32 * leAt b 6 1)
  (hplanes : s.readPlanes (leAt b 12 4) (leAt b 16 4) (leAt b 6 1) 0 [] (b.drop 64) = .ok planes)
  (hpass : (s.page ch).passes b.length = false)
include hr hst hbad hlen hplanes hpass

theorem execKpsPageHeader_judged : execKpsPageHeader ch b s = .next
    (if s.storeUnits < s.usedUnits + unitsFor (planes.map PlaneIn.size) then s.stopPage ch scNoContext []
    else (((s.setPage ch ((s.page ch).afterPageHeader b (placePlanes s.storeUnits s.planeUnits planes))).setCount
      (s.page ch).entry (leAt b 20 4)).shortPage ch)) := by
  rw [execKpsPageHeader]
  dsimp only
  rw [if_neg (by simp [hr, hst, hlen]), if_neg (by simp [hst]), hbad]
  dsimp only
  rw [if_neg (by simp [hlen]), hplanes]
  dsimp only
  rw [if_neg (by simp [hpass])]
  rfl

theorem execKpsPageHeader_takes (hfit : s.usedUnits + unitsFor (planes.map PlaneIn.size) ≤ s.storeUnits)
    (hwhole : (s.page ch).whole) : execKpsPageHeader ch b s = .next
      ((s.setPage ch ((s.page ch).afterPageHeader b (placePlanes s.storeUnits s.planeUnits planes))).setCount
        (s.page ch).entry (leAt b 20 4)) := by
  rw [execKpsPageHeader_judged hr hst hbad hlen hplanes hpass, if_neg (Nat.not_lt.mpr hfit)]
  refine congrArg Host.Outcome.next (State.shortPage_of_whole ?_)
  rw [State.page_setCount, State.page_setPage]
  exact hwhole

theorem execKpsPageHeader_full (hfull : s.storeUnits < s.usedUnits + unitsFor (planes.map PlaneIn.size)) :
    execKpsPageHeader ch b s = .next (s.stopPage ch scNoContext []) := by
  rw [execKpsPageHeader_judged hr hst hbad hlen hplanes hpass, if_pos hfull]

end

/-- Every entry of that number has the new count. -/
theorem State.setCount_count (s : State) (id n : Nat) : ∀ e ∈ (s.setCount id n).job.entries, e.id = id → e.count = n := by
  intro e he hid
  obtain ⟨d, -, rfl⟩ := List.mem_map.mp he
  split at hid
  · split
    · rfl
    · contradiction
  · contradiction

/-! Blocks (R119, R123). -/

theorem Ingest.addBlock_whole {x : Ingest} (h : x.whole) (b : List Byte) (cur : Option Nat) (c : Nat) :
    (x.addBlock b cur c).whole := h

/-- A block with NEW_STREAM begins a segment. -/
theorem Ingest.addBlock_new {x : Ingest} {b : List Byte} (h : bitAt (leAt b 2 1) 0 = true) (cur : Option Nat) (c : Nat) :
    ∃ g, (x.addBlock b cur c).segs = closeSeg (leAt b 0 1) x.segs ++ [g] ∧ g.plane = leAt b 0 1 ∧ g.ctx = c ∧
      g.type = leAt b 1 1 ∧ g.made = 0 ∧ g.unit = none ∧ g.staged.map StagedBlock.data = [slice b 16 (leAt b 4 4)] := by
  rw [Ingest.addBlock.eq_def]
  dsimp only
  rw [h]
  exact ⟨_, rfl, rfl, rfl, rfl, rfl, rfl, rfl⟩

/-- A block without it joins the plane's open segment. -/
theorem Ingest.addBlock_joins {x : Ingest} {b : List Byte} {i : Nat} {g : Segment} (h : bitAt (leAt b 2 1) 0 = false)
    (hg : x.segs[i]? = some g) (c : Nat) :
    ∃ g', (x.addBlock b (some i) c).segs = x.segs.set i g' ∧ g'.plane = g.plane ∧ g'.ctx = g.ctx ∧ g'.made = g.made ∧
      g'.unit = g.unit ∧
      g'.staged.map StagedBlock.data = g.staged.map StagedBlock.data ++ [slice b 16 (leAt b 4 4)] := by
  have hget : x.segs.getD i {} = g := by rw [List.getD_eq_getElem?_getD, hg, Option.getD_some]
  rw [Ingest.addBlock.eq_def]
  dsimp only
  rw [h]
  dsimp only
  rw [hget]
  exact ⟨_, rfl, rfl, rfl, rfl, rfl, List.map_append ..⟩

theorem closeSeg_unit (pl : Nat) (l : List Segment) (i : Nat) :
    ((closeSeg pl l)[i]?).bind Segment.unit = (l[i]?).bind Segment.unit := by
  rw [closeSeg, List.getElem?_map]
  cases l[i]? with
  | none => rfl
  | some g =>
    rw [Option.map_some, Option.bind_some, Option.bind_some]
    split <;> rfl

/-- A segment put behind others that no decompressor serves, and is not served itself. -/
theorem append_unserved {l : List Segment} {g : Segment} {i : Nat} (hl : (l[i]?).bind Segment.unit = none)
    (hg : g.unit = none) : ((l ++ [g])[i]?).bind Segment.unit = none := by
  rw [List.getElem?_append]
  split
  · exact hl
  · cases i - l.length with
    | zero => exact hg
    | succ k => rfl

theorem State.runSeg_of_unserved {s : State} {ch i : Nat} (h : ((s.page ch).segs[i]?).bind Segment.unit = none) :
    s.runSeg ch i = s := by
  rw [State.runSeg]
  dsimp only
  split
  · rfl
  · rename_i g hg
    rw [hg, Option.bind_some] at h
    rw [h]

/-- A block that keeps every rule, of a segment that no decompressor serves, is staged. -/
theorem execKpsBlock_stages {s : State} {ch c : Nat} {b : List Byte} {cur : Option Nat} (hr : (s.page ch).reads b = true)
    (hst : (s.page ch).stage = 2) (h16 : 16 ≤ b.length) (hend : (s.page ch).planes.all PlaneIn.ended = false)
    (hcur : cur = (s.page ch).segs.findIdx? (fun g => g.plane == leAt b 0 1 && !g.closed))
    (hbad : (s.page ch).blockBad b (cur.bind fun i => ((s.page ch).segs[i]?).map Segment.type) = none)
    (hlen : b.length = 16 + 4 * ceilDiv (leAt b 4 4) 4) (hpass : (s.page ch).passes b.length = false)
    (hc : (if bitAt (leAt b 2 1) 0 = true then (s.page ch).freeCtx else some 0) = some c)
    (hidle : ∀ i, cur = some i → (((s.page ch).addBlock b cur c).segs[i]?).bind Segment.unit = none)
    (hwhole : (s.page ch).whole) :
    execKpsBlock ch b s = .next (s.setPage ch ((s.page ch).addBlock b cur c)) := by
  rw [execKpsBlock]
  dsimp only
  rw [if_neg (by simp [hr, hst, h16, hend]), ← hcur, hbad]
  dsimp only
  rw [if_neg (by simp [← hlen]), if_neg (by simp [hpass]), hc]
  refine congrArg Host.Outcome.next ?_
  have hshort := State.shortPage_setPage (s := s) (ch := ch) (Ingest.addBlock_whole hwhole b cur c)
  cases cur with
  | none => exact hshort
  | some i =>
    dsimp only
    rw [State.runSeg_of_unserved (by rw [State.page_setPage]; exact hidle i rfl)]
    exact hshort

/-! The trailer (R120). -/

/-- The ingest once the trailer is taken. -/
def Ingest.afterTrailer (x : Ingest) (b : List Byte) : Ingest := { x.took 4 with stage := 3, trailer := leNat b }

theorem execKpsTrailer_takes {s : State} {ch : Nat} {b : List Byte} (hr : (s.page ch).reads b = true)
    (hst : (s.page ch).stage = 2) (hlen : b.length = 4) (hend : (s.page ch).planes.all PlaneIn.ended = true)
    (hpass : (s.page ch).passes 4 = false) :
    execKpsTrailer ch b s = .next ((s.setPage ch ((s.page ch).afterTrailer b)).judgePage ch) := by
  rw [execKpsTrailer]
  dsimp only
  rw [if_neg (by simp [hr, hst, hlen, hend]), if_neg (by simp [hpass])]
  rfl

/-- Before the trailer, or with a segment still under way, nothing is judged. -/
theorem State.judgePage_waits {s : State} {ch : Nat}
    (h : (s.page ch).stage ≠ 3 ∨ (s.page ch).segs.all Segment.done = false) : s.judgePage ch = s := by
  refine if_neg fun hjudge => ?_
  simp only [Bool.and_eq_true, decide_eq_true_eq] at hjudge
  obtain ⟨⟨-, hst⟩, hdone⟩ := hjudge
  rcases h with h | h
  · exact h hst
  · rw [h] at hdone
    cases hdone

/-- A page with the right CRC, delivered whole, is stored. -/
theorem State.judgePage_stores {s : State} {ch : Nat} (ha : (s.page ch).active = true) (hst : (s.page ch).stage = 3)
    (hdone : (s.page ch).segs.all Segment.done = true)
    (hcrc : crc32c ((s.page ch).planes.flatMap fun p => s.planeBytes p.units 0 p.size) = (s.page ch).trailer)
    (hpos : (s.page ch).got ≤ (s.page ch).pos) (hended : (s.page ch).ended = true)
    (hgot : (s.page ch).len ≤ (s.page ch).got) : s.judgePage ch = s.storePage ch := by
  rw [State.judgePage]
  rw [if_pos (by rw [ha, hst, hdone]; rfl), if_neg (not_not.mpr hcrc), if_neg (Nat.not_lt.mpr hpos),
    if_neg (by simp [hended]), if_neg (Nat.not_lt.mpr hgot)]

/-- A stored page leaves its channel and takes the next handle. -/
theorem State.storePage_stores (s : State) (ch : Nat) :
    ((s.storePage ch).page ch).active = false ∧ (s.storePage ch).job.handle = s.job.handle + 1 ∧
      (s.storePage ch).job.pages.map Page.handle = s.job.pages.map Page.handle ++ [s.job.handle + 1] := by
  rw [State.storePage]
  refine ⟨?_, ?_, ?_⟩
  · rw [State.page_of_ingest (State.finishSlot_ingest ..)]
    exact congrArg Ingest.active (State.page_setPage s ch {})
  · rw [State.finishSlot_job]
  · rw [State.finishSlot_job]
    exact List.map_append ..

/-! Decompressors (R123). -/

/-- A count raised, up to what its field holds. -/
theorem State.fld_bump {s : State} {f : Fld} {n : Nat} (hf : f.fits) :
    (s.bump f n).fld f = min (s.fld f + n) (2 ^ f.width - 1) :=
  State.fld_setFld hf (Nat.lt_of_le_of_lt (Nat.min_le_right ..) (Nat.sub_lt (Nat.two_pow_pos _) one_pos))

/-- Output written into a plane touches none of the registers below the memory. -/
theorem State.storePlane_fld {f : Fld} (h : f.OffDram) (units : List Nat) (n o : Nat) (b : List Byte) (s : State) :
    (s.storePlane units n o b).fld f = s.fld f := by
  induction n generalizing s o b with
  | zero => rfl
  | succ n ih =>
    rw [State.storePlane]
    split
    · rfl
    · rw [ih, State.writeMem_fld h]

/-- Output that stays in one unit of its plane stands there. -/
theorem State.storePlane_reads {s : State} {units : List Nat} {n o : Nat} {b : List Byte}
    (h : o % mib2 + b.length ≤ mib2) :
    memGet (s.storePlane units (n + 1) o b).mem (s.planeAddr units o) b.length = b := by
  rw [State.storePlane]
  split
  case isTrue hb => rw [List.isEmpty_iff.mp hb]; rfl
  case isFalse hb =>
    have hrest (s : State) (o : Nat) : s.storePlane units n o [] = s := by
      cases n <;> rfl
    have hk : b.length ≤ mib2 - o % mib2 := by omega
    dsimp only
    rw [List.take_of_length_le hk, List.drop_eq_nil_of_le hk, hrest, State.writeMem_mem]
    exact memGet_put

/-- A segment on its decompressor: its output is stored, and the rest of it kept. -/
theorem State.runSeg_feeds {s : State} {ch i u : Nat} {g g' : Segment} {out : List Byte}
    (hg : (s.page ch).segs[i]? = some g) (hu : g.unit = some u)
    (hfeed : Segment.feed s.nextSeg.isSome (g.staged.length + 1) g = .ok (g', out)) :
    ((s.runSeg ch i).page ch).segs = (s.page ch).segs.set i g' ∧
      (∀ f : Fld, f.OffDram → (s.runSeg ch i).fld f = s.fld f) ∧
      ((g.base + g.made) % mib2 + out.length ≤ mib2 → memGet (s.runSeg ch i).mem
        (s.planeAddr ((s.page ch).planes.getD g.plane {}).units (g.base + g.made)) out.length = out) := by
  have hput (s : State) (x : IngestUnit) (y : Ingest) (f : Fld) :
      (State.setPage { s with ingest := x } ch y).fld f = s.fld f := rfl
  rw [State.runSeg]
  dsimp only
  rw [hg]
  dsimp only
  rw [hu]
  dsimp only
  rw [hfeed]
  refine ⟨?_, fun f hf => ?_, fun hfit => ?_⟩
  · exact congrArg Ingest.segs (State.page_setPage ..)
  · exact (hput ..).trans (State.storePlane_fld hf ..)
  · exact State.storePlane_reads hfit

/-- A unit that is free and enabled is one of the sixteen. -/
theorem State.freeDcmp_lt {s : State} {u : Nat} (h : s.freeDcmp = some u) : u < 16 :=
  List.mem_range.mp (List.mem_of_mem_filter (List.mem_of_find?_eq_some h))

theorem Reg.dcmpStatus_offDram {u : Nat} (hu : u < 16) {f : Fld} (hf : f.fits) (ha : f.addr = Reg.DCMP_STATUS u) :
    f.OffDram := Fld.offDram_of_low hf (by rw [ha, Reg.DCMP_STATUS]; omega)

/-- A unit that shows itself busy with a context. -/
def State.busyWith (s : State) (u ctx : Nat) : State :=
  (s.setFld (Reg.DCMP_STATUS_BUSY u) 1).setFld (Reg.DCMP_STATUS_CONTEXT u) ctx

theorem State.busyWith_shows {s : State} {u ctx : Nat} (h : ctx < 4096) :
    (s.busyWith u ctx).fld (Reg.DCMP_STATUS_BUSY u) = 1 ∧ (s.busyWith u ctx).fld (Reg.DCMP_STATUS_CONTEXT u) = ctx := by
  rw [State.busyWith]
  refine ⟨?_, State.fld_setFld (Fld.fits_of_decide rfl) (show ctx < 2 ^ 12 from h)⟩
  rw [State.fld_setFld_clear (Fld.clearOf_of_bits (by rfl))]
  exact State.fld_setFld (Fld.fits_of_decide rfl) (show 1 < 2 ^ 1 by decide)

theorem State.planeAddr_of_hostSize {s t : State} (h : t.hostSize = s.hostSize) (units : List Nat) (o : Nat) :
    t.planeAddr units o = s.planeAddr units o := by
  rw [State.planeAddr, State.storeBase, h, State.planeAddr, State.storeBase]

/-- A segment's history is what its plane holds. -/
theorem State.history_of_mem {s t : State} (hm : t.mem = s.mem) (hh : t.hostSize = s.hostSize) (x : Ingest) (g : Segment) :
    t.history x g = s.history x g := by
  simp only [State.history, State.planeBytes, State.planeByte, hm, State.planeAddr_of_hostSize hh]

/-- A unit taken for a segment: shown, and its output counted from 0. -/
def State.unitTaken (s : State) (u ctx : Nat) : State :=
  let s := s.busyWith u ctx
  { s with ingest := { s.ingest with work := tabPut 0 s.ingest.work u 0 } }

theorem State.unitTaken_keeps {β : Type} {view : State → β}
    (h : ∀ s r w, view { s with regs := r, ingest := { s.ingest with work := w } } = view s) (s : State) (u ctx : Nat) :
    view (s.unitTaken u ctx) = view s := by
  have hset (s : State) (f : Fld) (v : Nat) : view (s.setFld f v) = view s := h s _ s.ingest.work
  exact (h (s.busyWith u ctx) (s.busyWith u ctx).regs _).trans ((hset ..).trans (hset ..))

theorem State.unitTaken_hostSize (s : State) (u ctx : Nat) : (s.unitTaken u ctx).hostSize = s.hostSize :=
  State.unitTaken_keeps (fun _ _ _ => rfl) ..

theorem State.unitTaken_pages (s : State) (u ctx : Nat) : (s.unitTaken u ctx).ingest.pages = s.ingest.pages :=
  State.unitTaken_keeps (view := (State.ingest · |>.pages)) (fun _ _ _ => rfl) ..

theorem State.unitTaken_history (s : State) (u ctx : Nat) (x : Ingest) (g : Segment) :
    (s.unitTaken u ctx).history x g = s.history x g :=
  State.history_of_mem (State.unitTaken_keeps (view := State.mem) (fun _ _ _ => rfl) ..) (State.unitTaken_hostSize ..) x g

theorem State.nextSeg_of_pages {s t : State} (h : t.ingest.pages = s.ingest.pages) : t.nextSeg = s.nextSeg := by
  rw [State.nextSeg, h, State.nextSeg]

/-- A page with one segment replaced. -/
def Ingest.setSeg (x : Ingest) (i : Nat) (g : Segment) : Ingest := { x with segs := x.segs.set i g }

/-- A segment as its decompressor takes it over. -/
def State.assigned (s : State) (ch u : Nat) (g : Segment) : Segment :=
  { g with unit := some u, onUnit := 0, hist := s.history (s.page ch) g }

/-- A segment given to a free unit, before it is decoded. -/
def State.segAssigned (s : State) (ch i u : Nat) (g : Segment) : State :=
  (s.unitTaken u g.ctx).setPage ch ((s.page ch).setSeg i (s.assigned ch u g))

theorem State.segAssigned_page (s : State) (ch i u : Nat) (g : Segment) :
    (s.segAssigned ch i u g).page ch = (s.page ch).setSeg i (s.assigned ch u g) := State.page_setPage ..

theorem State.segAssigned_nextSeg (s : State) (ch i u : Nat) (g : Segment) : (s.segAssigned ch i u g).nextSeg =
    (s.setPage ch ((s.page ch).setSeg i (s.assigned ch u g))).nextSeg := by
  have hput (s : State) (x : Ingest) : (s.setPage ch x).ingest.pages = tabPut {} s.ingest.pages ch x := rfl
  refine State.nextSeg_of_pages ?_
  rw [State.segAssigned, hput, hput, State.unitTaken_pages]

theorem State.segAssigned_hostSize (s : State) (ch i u : Nat) (g : Segment) :
    (s.segAssigned ch i u g).hostSize = s.hostSize := by
  have hput (s : State) (x : Ingest) : (s.setPage ch x).hostSize = s.hostSize := rfl
  rw [State.segAssigned, hput, State.unitTaken_hostSize]

theorem State.segAssigned_fld (s : State) (ch i u : Nat) (g : Segment) (f : Fld) :
    (s.segAssigned ch i u g).fld f = (s.busyWith u g.ctx).fld f := by
  have hput (s : State) (x : Ingest) : (s.setPage ch x).fld f = s.fld f := rfl
  have hwork (s : State) (x : IngestUnit) : State.fld { s with ingest := x } f = s.fld f := rfl
  rw [State.segAssigned, hput, State.unitTaken, hwork]

theorem execSegmentAssign_assigns {s : State} {ch i u : Nat} {g : Segment} (hn : s.nextSeg = some (ch, i))
    (hu : s.freeDcmp = some u) (hg : (s.page ch).segs[i]? = some g) :
    execSegmentAssign s = .next ((s.segAssigned ch i u g).runSeg ch i) := by
  have hget : (s.page ch).segs.getD i {} = g := by rw [List.getD_eq_getElem?_getD, hg, Option.getD_some]
  rw [execSegmentAssign, hn, hu]
  dsimp only
  rw [hget, State.segAssigned, State.assigned, ← State.unitTaken_history s u g.ctx]
  rfl

section

variable {s : State} {ch i u : Nat} {g : Segment} (hon : s.segOn u = some (ch, i)) (hg : (s.page ch).segs[i]? = some g)
include hon hg

theorem execSegmentSwitch_leaves
    (hleave : g.staged = [] ∧ g.closed = false ∨ 4194304 ≤ g.onUnit ∧ s.nextSeg.isSome = true) :
    execSegmentSwitch u s = .next (((s.setFld (Reg.DCMP_STATUS_BUSY u) 0).bump (Reg.DCMP_STATUS_SWITCHES u)).setPage ch
      ((s.page ch).setSeg i { g with unit := none, hist := [] })) := by
  have hget : (s.page ch).segs.getD i {} = g := by rw [List.getD_eq_getElem?_getD, hg, Option.getD_some]
  rw [execSegmentSwitch, hon]
  dsimp only
  rw [hget]
  refine congrArg Host.Outcome.next (if_pos ?_)
  rcases hleave with ⟨hstaged, hclosed⟩ | ⟨hmade, hwaits⟩
  · simp [hstaged, hclosed]
  · simp [hmade, hwaits]

theorem execSegmentComplete_ends (hstaged : g.staged = []) (hclosed : g.closed = true) (hst : (s.page ch).stage ≠ 3) :
    execSegmentComplete u s = .next ((s.setFld (Reg.DCMP_STATUS_BUSY u) 0).setPage ch
      ((s.page ch).setSeg i { g with unit := none, done := true, hist := [] })) := by
  have hget : (s.page ch).segs.getD i {} = g := by rw [List.getD_eq_getElem?_getD, hg, Option.getD_some]
  rw [execSegmentComplete, hon]
  dsimp only
  rw [hget, if_pos (by simp [hstaged, hclosed]), State.judgePage_waits (by rw [State.page_setPage]; exact .inl hst)]
  rfl

end

/-- Settles O42: each item by the ingest that it leaves, each command of a decompressor by the segment that it leaves. -/
theorem kpsCommandsComplete : Obligations.KpsCommandsComplete := by
  refine ⟨?jobHeader, ?pageHeader, ?noRoom, ?newBlock, ?block, ?trailer, ?stored, ?assign, ?switch, ?complete⟩
  case jobHeader =>
    intro s ch b hr hst hpos hlen hbad hpass hwhole
    refine ⟨_, execKpsJobHeader_takes hr hst hpos hlen hbad hpass hwhole, ?_, rfl, rfl⟩
    rw [State.page_setPage, Ingest.afterJobHeader, Ingest.took, hpos]
  case pageHeader =>
    intro s ch b planes hr hst hbad hlen hplanes hpass hfit hwhole
    refine ⟨_, execKpsPageHeader_takes hr hst hbad hlen hplanes hpass hfit hwhole, ?_,
      fun e he hid => State.setCount_count _ _ _ e he hid, rfl⟩
    rw [State.page_setCount, State.page_setPage]
    rfl
  case noRoom =>
    intro s ch b planes hr hst hbad hlen hplanes hpass hfull
    refine ⟨_, execKpsPageHeader_full hr hst hbad hlen hplanes hpass hfull, ?_⟩
    rw [State.stopPage_page]
  case newBlock =>
    intro s ch c b cur hr hst h16 hend hcur hbad hidle hlen hpass hnew hctx hwhole
    obtain ⟨g, hsegs, hplane, hc, htype, hmade, hunit, hdata⟩ := Ingest.addBlock_new (x := s.page ch) hnew cur c
    have hunserved : ∀ i, cur = some i → (((s.page ch).addBlock b cur c).segs[i]?).bind Segment.unit = none := by
      intro i hi
      rw [hi, Option.bind_some] at hidle
      rw [hsegs]
      exact append_unserved ((closeSeg_unit ..).trans hidle) hunit
    refine ⟨_, g, execKpsBlock_stages hr hst h16 hend hcur hbad hlen hpass (by rw [if_pos hnew, hctx]) hunserved hwhole, ?_,
      hplane, hc, htype, hmade, hdata, ?_, ?_, rfl⟩
    · rw [State.page_setPage, hsegs]
    · rw [State.page_setPage]; rfl
    · rw [State.page_setPage]; rfl
  case block =>
    intro s ch i b g hr hst h16 hend hcur hg hunit hbad hlen hpass hnew hwhole
    obtain ⟨g', hsegs, hplane, hc, hmade, hunit', hdata⟩ := Ingest.addBlock_joins (x := s.page ch) hnew hg 0
    have hunserved : ∀ j, some i = some j → (((s.page ch).addBlock b (some i) 0).segs[j]?).bind Segment.unit = none := by
      intro j hj
      cases hj
      rw [hsegs, List.getElem?_set_self (List.getElem?_eq_some_iff.mp hg).1]
      exact hunit'.trans hunit
    refine ⟨_, g', execKpsBlock_stages hr hst h16 hend hcur.symm (by rw [Option.bind_some, hg]; exact hbad) hlen hpass
      (by rw [hnew]; rfl) hunserved hwhole, ?_, hplane, hc, hmade, hdata, ?_, ?_, rfl⟩
    · rw [State.page_setPage, hsegs]
    · rw [State.page_setPage]; rfl
    · rw [State.page_setPage]; rfl
  case trailer =>
    intro s ch b hr hst hlen hend hpass hseg
    have hwait := State.judgePage_waits (s := s.setPage ch ((s.page ch).afterTrailer b)) (ch := ch)
      (.inr (by rw [State.page_setPage]; exact hseg))
    refine ⟨_, execKpsTrailer_takes hr hst hlen hend hpass, ?_, ?_⟩
    · rw [hwait, State.page_setPage]; rfl
    · rw [hwait]; rfl
  case stored =>
    intro s ch b hr hst hlen hend hpos hgot hended hdone hcrc
    have hactive : (s.page ch).active = true := (Bool.and_eq_true_iff.mp hr).1
    have hpass : (s.page ch).passes 4 = false := by simp [Ingest.passes, hpos]
    have hpage := State.page_setPage s ch ((s.page ch).afterTrailer b)
    have e := State.judgePage_stores (s := s.setPage ch ((s.page ch).afterTrailer b)) (ch := ch)
      (by rw [hpage]; exact hactive) (by rw [hpage]; rfl) (by rw [hpage]; exact hdone) (by rw [hpage]; exact hcrc)
      (by rw [hpage]; exact (hgot.trans hpos.symm).le) (by rw [hpage]; exact hended) (by rw [hpage]; exact hgot.symm.le)
    exact ⟨_, (execKpsTrailer_takes hr hst hlen hend hpass).trans (congrArg Host.Outcome.next e),
      State.storePage_stores (s.setPage ch ((s.page ch).afterTrailer b)) ch⟩
  case assign =>
    intro s ch i u g g1 g' out hn hu hg hctx hg1 hfeed
    subst hg1
    have hpage := s.segAssigned_page ch i u g
    have hat : ((s.segAssigned ch i u g).page ch).segs[i]? = some (s.assigned ch u g) := by
      rw [hpage]
      exact List.getElem?_set_self (List.getElem?_eq_some_iff.mp hg).1
    obtain ⟨hsegs, hfld, hmem⟩ := State.runSeg_feeds (g' := g') (out := out) hat rfl
      (by rw [State.segAssigned_nextSeg]; exact hfeed)
    have hlow {f : Fld} := Reg.dcmpStatus_offDram (State.freeDcmp_lt hu) (f := f)
    obtain ⟨hbusy, hshown⟩ := State.busyWith_shows (s := s) (u := u) hctx
    refine ⟨_, execSegmentAssign_assigns hn hu hg, ?_, ?_, ?_, fun hfit => ?_⟩
    · rw [hsegs, hpage, Ingest.setSeg, List.set_set]
    · rw [hfld _ (hlow (Fld.fits_of_decide rfl) rfl), State.segAssigned_fld, hbusy]
    · rw [hfld _ (hlow (Fld.fits_of_decide rfl) rfl), State.segAssigned_fld, hshown]
    · have hout := hmem hfit
      rw [hpage, State.planeAddr_of_hostSize (State.segAssigned_hostSize ..)] at hout
      exact hout
  case switch =>
    intro s ch i u g hu hon hg hleave
    have hput (s : State) (x : Ingest) (f : Fld) : (s.setPage ch x).fld f = s.fld f := rfl
    refine ⟨_, execSegmentSwitch_leaves hon hg hleave, ?_, ?_, ?_⟩
    · rw [State.page_setPage, Ingest.setSeg]
    · rw [hput, State.bump, State.fld_setFld_clear (Fld.clearOf_of_bits (by rfl))]
      exact State.fld_setFld (Fld.fits_of_decide rfl) (show 0 < 2 ^ 1 by decide)
    · rw [hput, State.fld_bump (Fld.fits_of_decide rfl), State.fld_setFld_clear (Fld.clearOf_of_bits (by rfl))]
      rfl
  case complete =>
    intro s ch i u g hon hg hstaged hclosed hst
    have hput (s : State) (x : Ingest) (f : Fld) : (s.setPage ch x).fld f = s.fld f := rfl
    have hreg (s : State) (x : Ingest) (a : Nat) : (s.setPage ch x).reg a = s.reg a := rfl
    refine ⟨_, execSegmentComplete_ends hon hg hstaged hclosed hst, ?_, ?_, fun a ha => ?_⟩
    · rw [State.page_setPage, Ingest.setSeg]
    · rw [hput]
      exact State.fld_setFld (Fld.fits_of_decide rfl) (show 0 < 2 ^ 1 by decide)
    · exact (hreg ..).trans (State.reg_setFld_other ha)

end Sys2Proof.Machine

/-! SUPPORT. The DMA channels (R109 to R117): descriptors, their data, and the halt after a bus error. -/
namespace Sys2Proof.Machine

/-! A chain that ends without a page on its channel. -/

theorem State.chainPage_of_no_page {s : State} {ch : Nat} (h : (s.page ch).active = false) (code : Nat) :
    s.chainPage ch code = s := if_pos (by rw [h]; rfl)

theorem State.endChain_of_no_page {s : State} {ch : Nat} (h : (s.page ch).active = false) (code addr residue : Nat)
    (own stopped : Bool) :
    s.endChain ch code addr residue own stopped = (s.chainEnd ch code addr residue own stopped).haltDone := by
  have hpage : (s.chainEnd ch code addr residue own stopped).page ch = s.page ch :=
    State.page_of_pages (State.chainEnd_pages ..) ch
  rw [State.endChain, State.chainPage_of_no_page (hpage ▸ h)]

theorem Reg.dmaDone_dmaBlock {ch : Nat} : dmaBlock (doneFld ch).addr := by
  rcases doneFld_addr ch with e | e <;> rw [e] <;> exact ⟨by decide, by decide⟩

/-- A register of the DMA block that the halt leaves: not one that it shows in. -/
theorem State.haltDone_dmaReg {s : State} {a : Nat} (hb : dmaBlock a) (hh : a ∉ haltRegs) : s.haltDone.reg a = s.reg a :=
  State.haltDone_reg (dmaBlock_not_eventRegs hb) hh

theorem Reg.dmaStatus_not_haltRegs {ch : Nat} (h : ch < 64) : Reg.DMA_STATUS ch ∉ haltRegs := by
  simp only [haltRegs, Reg.DMA_STATUS, Reg.DMA_GSTATUS, Reg.DMA_FAULT_LO, Reg.DMA_FAULT_HI, List.mem_cons,
    List.not_mem_nil, or_false, not_or]
  omega

theorem Reg.dmaCtrl_not_haltRegs {ch : Nat} (h : ch < 64) : Reg.DMA_CTRL ch ∉ haltRegs := by
  simp only [haltRegs, Reg.DMA_CTRL, Reg.DMA_GSTATUS, Reg.DMA_FAULT_LO, Reg.DMA_FAULT_HI, List.mem_cons,
    List.not_mem_nil, or_false, not_or]
  omega

theorem Reg.dmaStatus_ne_done {ch : Nat} (h : ch < 64) :
    Reg.DMA_STATUS ch ≠ Reg.DMA_DONE_LO ∧ Reg.DMA_STATUS ch ≠ Reg.DMA_DONE_HI := by
  rw [Reg.DMA_STATUS, Reg.DMA_DONE_LO, Reg.DMA_DONE_HI]
  omega

theorem Reg.dmaCtrl_ne_done {ch : Nat} (h : ch < 64) :
    Reg.DMA_CTRL ch ≠ Reg.DMA_DONE_LO ∧ Reg.DMA_CTRL ch ≠ Reg.DMA_DONE_HI := by
  rw [Reg.DMA_CTRL, Reg.DMA_DONE_LO, Reg.DMA_DONE_HI]
  omega

/-- What a chain that has ended shows of its channel. -/
structure State.ChainOver (s t : State) (ch code : Nat) (own : Bool) : Prop where
  active : t.fld (Reg.DMA_STATUS_ACTIVE ch) = 0
  run : t.fld (Reg.DMA_CTRL_RUN ch) = 0
  code : t.fld (Reg.DMA_STATUS_END ch) = code
  own : t.fld (Reg.DMA_STATUS_FAULT_OWN ch) = b2n own
  hops : t.fld (Reg.DMA_STATUS_HOPS ch) = s.fld (Reg.DMA_STATUS_HOPS ch)
  done : bitAt (t.fld (doneFld ch)) (ch % 32) = true
  chains : (t.dmaCh ch).chains = ((s.dmaCh ch).chains + 1) % idxMod
  mem : t.mem = s.mem

theorem State.endChain_over {s : State} {ch code addr residue : Nat} {own stopped : Bool} (hch : ch < 64)
    (hcode : code < 16) (hpage : (s.page ch).active = false) :
    s.ChainOver (s.endChain ch code addr residue own stopped) ch code own := by
  obtain ⟨hactive, hrun, hend, hown, hhops⟩ := s.chainStop_shows (own := own) (stopped := stopped) hch hcode
  have hstatus {f : Fld} (ha : f.addr = Reg.DMA_STATUS ch) : (s.endChain ch code addr residue own stopped).fld f =
      (s.chainStop ch code own stopped).fld f := State.fld_of_reg (by
    rw [ha, State.endChain_of_no_page hpage,
      State.haltDone_dmaReg (Reg.dmaStatus_dmaBlock hch) (Reg.dmaStatus_not_haltRegs hch),
      State.chainEnd_reg_other (Reg.dmaStatus_dmaBlock hch) (Reg.dmaStatus_ne_done hch)])
  have hctrl {f : Fld} (ha : f.addr = Reg.DMA_CTRL ch) : (s.endChain ch code addr residue own stopped).fld f =
      (s.chainStop ch code own stopped).fld f := State.fld_of_reg (by
    rw [ha, State.endChain_of_no_page hpage,
      State.haltDone_dmaReg (Reg.dmaCtrl_dmaBlock hch) (Reg.dmaCtrl_not_haltRegs hch),
      State.chainEnd_reg_other (Reg.dmaCtrl_dmaBlock hch) (Reg.dmaCtrl_ne_done hch)])
  have hdone : (s.endChain ch code addr residue own stopped).fld (doneFld ch) =
      (s.chainEnd ch code addr residue own stopped).fld (doneFld ch) := State.fld_of_reg (by
    rw [State.endChain_of_no_page hpage, State.haltDone_dmaReg Reg.dmaDone_dmaBlock]
    rcases doneFld_addr ch with e | e <;> rw [e] <;> decide)
  refine ⟨(hstatus rfl).trans hactive, (hctrl rfl).trans hrun, (hstatus rfl).trans hend, (hstatus rfl).trans hown,
    (hstatus rfl).trans hhops, ?_, ?_, State.mem_of_core (State.endChain_core ..)⟩
  · rw [hdone, State.chainEnd_done]
  · rw [State.endChain_of_no_page hpage, State.dmaCh_of_chans (State.haltDone_chans _),
      State.dmaCh_of_chans (congrArg IngestUnit.chans (State.chainEnd_ingest ..)), State.dmaCh_setDmaCh]
    rfl

end Sys2Proof.Machine

/-! SUPPORT. The DMA channels' commands on one chain (R109 to R114): its start, its descriptors and their data. -/
namespace Sys2Proof.Machine

/-! A chain starts (R109, R110). -/

theorem execDmaRun_starts {s : State} {ch : Nat} (hch : ch < 64) (ha : s.awake = true) (hi : s.chActive ch = false)
    (ho : s.flag (Reg.DMA_CTRL_OWNER ch) = false) (hb : s.busStopped = false) :
    execDmaRun ch s = .next (s.chainStart ch) := by
  rw [execDmaRun, if_neg (by simp [hi, ho, hb, Nat.not_le.mpr hch]), State.orLater,
    if_neg (by rw [State.defers_of_awake ha]; exact Bool.false_ne_true)]

theorem State.chainStart_shows {s : State} {ch : Nat} (h : ch < 64) :
    (s.chainStart ch).fld (Reg.DMA_CTRL_RUN ch) = 1 ∧ (s.chainStart ch).fld (Reg.DMA_STATUS_HOPS ch) = 0 := by
  have hput (s : State) (x : DmaChan) (f : Fld) : (s.setDmaCh ch x).fld f = s.fld f := rfl
  have hchk (s : State) {f : Fld} (hf : dmaBlock f.addr) : (s.chkUser ch true).fld f = s.fld f :=
    State.fld_of_reg (State.chkUser_reg (Nat.lt_trans hf.2 (by decide)))
  rw [State.chainStart]
  refine ⟨?_, ?_⟩
  · rw [hchk _ (Reg.dmaCtrl_dmaBlock h), hput,
      State.fld_of_reg (State.reg_setFld_other (Reg.dmaStatus_ne_dmaCtrl ch ch).symm)]
    exact State.fld_setFld (Fld.fits_of_decide rfl) (show 1 < 2 ^ 1 by decide)
  · rw [hchk _ (Reg.dmaStatus_dmaBlock h), hput]
    exact State.fld_setFld (Fld.fits_of_decide rfl) (show 0 < 2 ^ 21 by decide)

theorem State.dmaHead_setFld {s : State} {ch v : Nat} {f : Fld} (hlo : Reg.DMA_HEAD_LO ch ≠ f.addr)
    (hhi : Reg.DMA_HEAD_HI ch ≠ f.addr) : (s.setFld f v).dmaHead ch = s.dmaHead ch := by
  have h0 : (s.setFld f v).fld (Reg.DMA_HEAD_LO_ADDR_LO ch) = s.fld (Reg.DMA_HEAD_LO_ADDR_LO ch) :=
    State.fld_of_reg (State.reg_setFld_other hlo)
  have h1 : (s.setFld f v).fld (Reg.DMA_HEAD_HI_ADDR_HI ch) = s.fld (Reg.DMA_HEAD_HI_ADDR_HI ch) :=
    State.fld_of_reg (State.reg_setFld_other hhi)
  rw [State.dmaHead, h0, h1, State.dmaHead]

/-- A chain starts at its head, without a descriptor. -/
theorem State.chainStart_dmaCh (s : State) (ch : Nat) :
    ((s.chainStart ch).dmaCh ch).cur = s.dmaHead ch ∧ ((s.chainStart ch).dmaCh ch).desc = none := by
  have hstatus (s : State) (v : Nat) {f : Fld} (hf : f.addr = Reg.DMA_STATUS ch) :
      (s.setFld f v).dmaHead ch = s.dmaHead ch :=
    State.dmaHead_setFld (by rw [hf, Reg.DMA_HEAD_LO, Reg.DMA_STATUS]; omega)
      (by rw [hf, Reg.DMA_HEAD_HI, Reg.DMA_STATUS]; omega)
  have hctrl (s : State) (v : Nat) : (s.setFld (Reg.DMA_CTRL_RUN ch) v).dmaHead ch = s.dmaHead ch :=
    State.dmaHead_setFld (by rw [Reg.DMA_HEAD_LO, Reg.DMA_CTRL_RUN]; dsimp only; omega)
      (by rw [Reg.DMA_HEAD_HI, Reg.DMA_CTRL_RUN]; dsimp only; omega)
  rw [State.chainStart, State.chkUser_keeps (view := (State.dmaCh · ch)) fun _ _ => rfl, State.dmaCh_setDmaCh]
  refine ⟨?_, rfl⟩
  dsimp only
  rw [hstatus _ _ rfl, hctrl, hstatus _ _ rfl]

/-! A chain is aborted (R114). -/

theorem execDmaAbort_stops {s : State} {ch : Nat} (hch : ch < 64) (ha : s.chActive ch = true) :
    execDmaAbort ch s = .next (s.stopChain ch 1) :=
  congrArg Host.Outcome.next (if_pos (by rw [ha, decide_eq_true hch]; rfl))

theorem State.stopChain_at_once {s : State} {ch code : Nat} {own stopped : Bool} (hs : (s.dmaCh ch).stop = none)
    (ho : (s.dmaCh ch).outstanding = false) : s.stopChain ch code own stopped =
      s.endChain ch code (s.inProgress ch).1 (s.inProgress ch).2 own stopped := by
  rw [State.stopChain, hs, ho]
  rfl

theorem State.stopChain_waits {s : State} {ch code : Nat} {own stopped : Bool} (hs : (s.dmaCh ch).stop = none)
    (ho : (s.dmaCh ch).outstanding = true) : s.stopChain ch code own stopped =
      s.setDmaCh ch { s.dmaCh ch with stop := some (code, own, stopped) } := by
  rw [State.stopChain, hs, ho]
  rfl

/-! A descriptor is fetched (R109 to R111). -/

/-- The outputs of a list, in order. -/
def State.sends (s : State) (l : List Out) : State := { s with outbox := s.outbox ++ l }

theorem State.sends_nil (s : State) : s.sends [] = s := by rw [State.sends, List.append_nil]

theorem State.sends_cons (s : State) (o : Out) (l : List Out) : s.sends (o :: l) = (s.emit o).sends l := by
  rw [State.sends, State.sends, State.emit]
  dsimp only
  rw [← List.append_cons]

/-- The requests for a descriptor's data go out in order. -/
theorem State.requestAll_eq (ch : Nat) (l : List (Nat × Nat)) (s : State) :
    l.foldl (fun s r => s.emit (.hostRead (bridgePort ch) (s.chInput ch) r.1 r.2)) s =
      s.sends (l.map fun r => .hostRead (bridgePort ch) (s.chInput ch) r.1 r.2) := by
  have hin (s : State) (o : Out) : (s.emit o).chInput ch = s.chInput ch := rfl
  induction l generalizing s with
  | nil => exact (State.sends_nil s).symm
  | cons r l ih => rw [List.foldl_cons, ih, hin, List.map_cons, State.sends_cons]

/-- The reads of a descriptor that nothing was delivered of: 16 of them outstanding. -/
def descReads (d : List Byte) : Nat :=
  if dKind d = 2 then 0 else min (dLen d) (512 * (dHost d / 512 + 16) - dHost d)

/-- A channel with a descriptor that nothing was delivered of, and `n` bytes of it requested. -/
def DmaChan.fetched (x : DmaChan) (d : List Byte) (n : Nat) : DmaChan := { x with desc := some d, moved := 0, issued := n }

/-- The first requests of a descriptor. -/
theorem State.issueReads_fetched {s : State} {ch : Nat} {d : List Byte} {x : DmaChan} (hs : x.stop = none)
    (hh : s.ingest.halting = none) :
    ((s.setDmaCh ch (x.fetched d 0)).issueReads ch).dmaCh ch = x.fetched d (descReads d) ∧
      ((s.setDmaCh ch (x.fetched d 0)).issueReads ch).regs = s.regs ∧
      ((s.setDmaCh ch (x.fetched d 0)).issueReads ch).mem = s.mem ∧
      ((s.setDmaCh ch (x.fetched d 0)).issueReads ch).outbox = s.outbox ++
        (readRequests (descReads d) (dHost d) (dHost d + descReads d)).map
          fun r => .hostRead (ch % 4) (s.chInput ch) r.1 r.2 := by
  by_cases hk : dKind d = 2
  · have hnone : (s.setDmaCh ch (x.fetched d 0)).issueReads ch = s.setDmaCh ch (x.fetched d 0) := by
      rw [State.issueReads, State.dmaCh_setDmaCh]
      exact if_pos (.inl hk)
    rw [hnone, descReads, if_pos hk]
    exact ⟨State.dmaCh_setDmaCh .., rfl, rfl, (List.append_nil _).symm⟩
  · have hissue : (s.setDmaCh ch (x.fetched d 0)).issueReads ch =
        ((s.setDmaCh ch (x.fetched d 0)).setDmaCh ch (x.fetched d (descReads d))).sends
          ((readRequests (descReads d) (dHost d) (dHost d + descReads d)).map
            fun r => .hostRead (bridgePort ch) (s.chInput ch) r.1 r.2) := by
      have hin (s : State) (x : DmaChan) : (s.setDmaCh ch x).chInput ch = s.chInput ch := rfl
      have hreads : max 0 (min (dLen d) (512 * ((dHost d + 0) / 512 + 16) - dHost d)) = descReads d := by
        rw [Nat.zero_max, Nat.add_zero (dHost d), descReads, if_neg hk]
      rw [State.issueReads, State.dmaCh_setDmaCh]
      refine (if_neg (c := dKind d = 2 ∨ x.stop.isSome ∨ s.ingest.halting.isSome) (by simp [hk, hs, hh])).trans ?_
      dsimp only [DmaChan.fetched]
      rw [hreads, Nat.zero_max, Nat.sub_zero, Nat.add_zero, State.requestAll_eq, hin, hin]
    have hout (s : State) (l : List Out) : (s.sends l).dmaCh ch = s.dmaCh ch := rfl
    rw [hissue]
    exact ⟨(hout ..).trans (State.dmaCh_setDmaCh ..), rfl, rfl, rfl⟩

section

variable {s : State} {ch : Nat} {d : List Byte} (ha : s.chActive ch = true) (hn : (s.dmaCh ch).desc = none)
  (hl : d.length = 32) (hh : s.ingest.halting = none)
include ha hn hl hh

theorem execDmaDescriptorFetch_judged : execDmaDescriptorFetch ch d s = .next
    (if s.descBad (s.flag (Reg.DMA_CTRL_OWNER ch)) d then s.endChain ch 6 (s.dmaCh ch).cur (dLen d)
    else if !dEnd d && decide (dNext d = (s.dmaCh ch).cur) then s.endChain ch 5 (s.dmaCh ch).cur (dLen d)
    else (s.setDmaCh ch ((s.dmaCh ch).fetched d 0)).issueReads ch) := by
  rw [execDmaDescriptorFetch]
  exact congrArg Host.Outcome.next (if_neg (by simp [ha, hn, hl, hh]))

theorem execDmaDescriptorFetch_accepts (hs : (s.dmaCh ch).stop = none)
    (hbad : s.descBad (s.flag (Reg.DMA_CTRL_OWNER ch)) d = false) (hnext : dEnd d = true ∨ dNext d ≠ (s.dmaCh ch).cur) :
    ∃ t, execDmaDescriptorFetch ch d s = .next t ∧
      t.dmaCh ch = (s.dmaCh ch).fetched d (descReads d) ∧ t.regs = s.regs ∧
      t.mem = s.mem ∧ t.outbox = s.outbox ++
        (readRequests (descReads d) (dHost d) (dHost d + descReads d)).map
          fun r => .hostRead (ch % 4) (s.chInput ch) r.1 r.2 := by
  have hself : ¬ (!dEnd d && decide (dNext d = (s.dmaCh ch).cur)) = true := by
    rcases hnext with e | e <;> simp [e]
  rw [execDmaDescriptorFetch_judged ha hn hl hh, if_neg (by simp [hbad]), if_neg hself]
  exact ⟨_, rfl, State.issueReads_fetched hs hh⟩

theorem execDmaDescriptorFetch_bad (hbad : s.descBad (s.flag (Reg.DMA_CTRL_OWNER ch)) d = true) :
    execDmaDescriptorFetch ch d s = .next (s.endChain ch 6 (s.dmaCh ch).cur (dLen d)) := by
  rw [execDmaDescriptorFetch_judged ha hn hl hh, if_pos hbad]

end

end Sys2Proof.Machine

/-! SUPPORT. The data of a DMA descriptor (R110 to R113): what of it moves where, and what follows its last byte. -/
namespace Sys2Proof.Machine

section

variable {s : State} {ch : Nat} {d data : List Byte}

theorem State.nextData_within (hk : dKind d ≠ 2) (hs : (s.dmaCh ch).stop = none)
    (hl : (s.dmaCh ch).moved + data.length ≤ dLen d) : s.nextData ch d data = data := by
  rw [State.nextData, if_neg hk, hs]
  exact List.take_of_length_le (show data.length ≤ dLen d - (s.dmaCh ch).moved by omega)

/-- FROM_DEV delivers what device memory holds. -/
theorem State.nextData_fromDev (hk : dKind d = 2) (hm : (s.dmaCh ch).moved = 0) :
    s.nextData ch d [] = memGet s.mem (dDev d) (dLen d) := by
  rw [State.nextData, if_pos hk, hm]
  rfl

theorem State.deliverData_dmaCh (s : State) (ch : Nat) (d data : List Byte) : ∃ chk, (s.deliverData ch d data).dmaCh ch =
    { s.dmaCh ch with moved := (s.dmaCh ch).moved + data.length,
                      issued := max (s.dmaCh ch).issued ((s.dmaCh ch).moved + data.length), check := chk } := by
  rw [State.deliverData]
  exact ⟨_, State.dmaCh_setDmaCh ..⟩

/-- Beside the channel's record, a delivery is the move of its data. -/
theorem State.deliverData_keeps {β : Type} {view : State → β}
    (h : ∀ s l, view { s with ingest := { s.ingest with chans := l } } = view s) :
    view (s.deliverData ch d data) = view (s.moveData ch (s.dmaCh ch).moved d data) := by
  rw [State.deliverData]
  exact h ..

theorem State.moveData_toPage (hk : dKind d = 0) (ha : (s.page ch).active = true) (o : Nat) : s.moveData ch o d data =
    s.setPage ch { s.page ch with got := (s.page ch).got + data.length, buf := (s.page ch).buf ++ data } := by
  rw [State.moveData, hk]
  exact if_pos ha

theorem State.moveData_toDev (hk : dKind d = 1) (o : Nat) :
    s.moveData ch o d data = s.writeMem (s.chInput ch) (dDev d + o) data := by
  rw [State.moveData, hk]
  rfl

theorem State.moveData_fromDev (hk : dKind d = 2) (o : Nat) : s.moveData ch o d data =
    (s.readMem (s.chInput ch) (dDev d + o) data.length).hostData (dHost d + o) (dDev d + o) data.length := by
  rw [State.moveData, hk]
  rfl

theorem execDmaDescriptorComplete_last (hd : (s.dmaCh ch).desc = some d) (hs : (s.dmaCh ch).stop = none)
    (hl : dLen d ≤ (s.dmaCh ch).moved + (s.nextData ch d data).length) : execDmaDescriptorComplete ch data s =
      .next ((s.deliverData ch d (s.nextData ch d data)).descDone ch d) := by
  obtain ⟨chk, hch⟩ := s.deliverData_dmaCh ch d (s.nextData ch d data)
  rw [execDmaDescriptorComplete, hd]
  dsimp only
  rw [hch]
  dsimp only
  rw [hs]
  exact congrArg Host.Outcome.next (if_pos hl)

theorem execDmaDescriptorComplete_part (hd : (s.dmaCh ch).desc = some d) (hs : (s.dmaCh ch).stop = none)
    (hl : (s.dmaCh ch).moved + (s.nextData ch d data).length < dLen d) : execDmaDescriptorComplete ch data s =
      .next ((s.deliverData ch d (s.nextData ch d data)).issueReads ch) := by
  obtain ⟨chk, hch⟩ := s.deliverData_dmaCh ch d (s.nextData ch d data)
  rw [execDmaDescriptorComplete, hd]
  dsimp only
  rw [hch]
  dsimp only
  rw [hs]
  exact congrArg Host.Outcome.next (if_neg (Nat.not_le.mpr hl))

end

/-- Requests change nothing of the descriptor in progress. -/
theorem State.issueReads_dmaCh (s : State) (ch : Nat) : ∃ n, (s.issueReads ch).dmaCh ch = { s.dmaCh ch with issued := n } := by
  have hout (s : State) (l : List Out) : (s.sends l).dmaCh ch = s.dmaCh ch := rfl
  rw [State.issueReads]
  dsimp only
  split
  · exact ⟨_, rfl⟩
  split
  · exact ⟨_, rfl⟩
  · rw [State.requestAll_eq, hout, State.dmaCh_setDmaCh]
    exact ⟨_, rfl⟩

/-! A descriptor delivered whole (R111, R112). -/

/-- The channel goes on to NEXT, one hop further. -/
def State.descPassed (s : State) (ch : Nat) (d : List Byte) : State :=
  (s.setFld (Reg.DMA_STATUS_HOPS ch) (s.fld (Reg.DMA_STATUS_HOPS ch) + 1)).setDmaCh ch
    { s.dmaCh ch with cur := dNext d, last := (s.dmaCh ch).cur, desc := none, moved := 0, issued := 0 }

section

variable {s : State} {ch : Nat} {d : List Byte}

theorem State.descPassed_hops (h : s.fld (Reg.DMA_STATUS_HOPS ch) + 1 < 2097152) :
    (s.descPassed ch d).fld (Reg.DMA_STATUS_HOPS ch) = s.fld (Reg.DMA_STATUS_HOPS ch) + 1 := by
  rw [State.descPassed, State.fld_setDmaCh]
  exact State.fld_setFld (Fld.fits_of_decide rfl) (show _ < 2 ^ 21 from h)

theorem State.descDone_eq (s : State) (ch : Nat) (d : List Byte) : s.descDone ch d =
    if dEnd d then (s.descPassed ch d).endChain ch 0 (s.dmaCh ch).cur 0
    else if 2 ^ (s.descPassed ch d).fld (Reg.DMA_CTRL_HOP_EXP ch) ≤ s.fld (Reg.DMA_STATUS_HOPS ch) + 1 then
      (s.descPassed ch d).endChain ch 4 (s.dmaCh ch).cur 0
    else if bitAt (dFlags d) 0 then (s.descPassed ch d).dmaDone ch
    else s.descPassed ch d := (rfl)

theorem State.descPassed_hopExp :
    (s.descPassed ch d).fld (Reg.DMA_CTRL_HOP_EXP ch) = s.fld (Reg.DMA_CTRL_HOP_EXP ch) := by
  rw [State.descPassed, State.fld_setDmaCh]
  exact State.fld_of_reg (State.reg_setFld_other (Reg.dmaStatus_ne_dmaCtrl ch ch).symm)

theorem State.descPassed_page (s : State) (ch : Nat) (d : List Byte) (c : Nat) : (s.descPassed ch d).page c = s.page c := by
  have hput (s : State) (x : DmaChan) : (s.setDmaCh ch x).page c = s.page c := rfl
  rw [State.descPassed, hput, State.page_of_ingest (State.setFld_ingest ..)]

theorem State.descDone_goesOn (he : dEnd d = false) (hi : bitAt (dFlags d) 0 = false)
    (hh : s.fld (Reg.DMA_STATUS_HOPS ch) + 1 < 2 ^ s.fld (Reg.DMA_CTRL_HOP_EXP ch)) :
    s.descDone ch d = s.descPassed ch d := by
  rw [State.descDone_eq, if_neg (by rw [he]; exact Bool.false_ne_true), State.descPassed_hopExp,
    if_neg (Nat.not_le.mpr hh), if_neg (by rw [hi]; exact Bool.false_ne_true)]

end

theorem State.descPassed_dmaCh (s : State) (ch : Nat) (d : List Byte) : (s.descPassed ch d).dmaCh ch =
    { s.dmaCh ch with cur := dNext d, last := (s.dmaCh ch).cur, desc := none, moved := 0, issued := 0 } := by
  rw [State.descPassed, State.dmaCh_setDmaCh]

/-- At END the chain is over. -/
theorem State.descDone_over {s : State} {ch : Nat} {d : List Byte} (hch : ch < 64) (he : dEnd d = true)
    (hpage : (s.page ch).active = false) : (s.descPassed ch d).ChainOver (s.descDone ch d) ch 0 false := by
  rw [State.descDone_eq, if_pos he]
  exact State.endChain_over hch (by decide) (by rw [State.descPassed_page, hpage])

theorem State.descPassed_mem (s : State) (ch : Nat) (d : List Byte) : (s.descPassed ch d).mem = s.mem := by
  have hput (s : State) (x : DmaChan) : (s.setDmaCh ch x).mem = s.mem := rfl
  rw [State.descPassed, hput, State.setFld_mem]

/-! Data for device memory and for a page. -/

section

variable {s : State} {ch : Nat} {d data : List Byte}

theorem State.issueReads_mem (s : State) (ch : Nat) : (s.issueReads ch).mem = s.mem :=
  State.mem_of_core (State.issueReads_core ..)

theorem State.deliverData_toDev_mem (hk : dKind d = 1) :
    (s.deliverData ch d data).mem = memPut s.mem (dDev d + (s.dmaCh ch).moved) data := by
  rw [State.deliverData_keeps (view := State.mem) fun _ _ => rfl, State.moveData_toDev hk, State.writeMem_mem]

theorem State.deliverData_toDev_fld (hk : dKind d = 1) {f : Fld} (hf : f.OffDram) :
    (s.deliverData ch d data).fld f = s.fld f := by
  rw [State.deliverData_keeps (view := (State.fld · f)) fun _ _ => rfl, State.moveData_toDev hk, State.writeMem_fld hf]

theorem State.deliverData_toDev_page (hk : dKind d = 1) (c : Nat) : (s.deliverData ch d data).page c = s.page c := by
  rw [State.deliverData_keeps (view := (State.page · c)) fun _ _ => rfl, State.moveData_toDev hk,
    State.page_of_ingest (State.ingest_of_printUnits (State.writeMem_printUnits ..))]

theorem State.deliverData_fromDev_mem (hk : dKind d = 2) : (s.deliverData ch d data).mem = s.mem := by
  rw [State.deliverData_keeps (view := State.mem) fun _ _ => rfl, State.moveData_fromDev hk,
    State.mem_of_core (State.hostData_core ..), State.readMem_mem]

theorem State.deliverData_fromDev_page (hk : dKind d = 2) (c : Nat) : (s.deliverData ch d data).page c = s.page c := by
  rw [State.deliverData_keeps (view := (State.page · c)) fun _ _ => rfl, State.moveData_fromDev hk,
    State.page_of_ingest (State.ingest_of_printUnits (State.hostData_printUnits ..)),
    State.page_of_ingest (State.ingest_of_printUnits (State.readMem_printUnits ..))]

theorem State.deliverData_toPage (hk : dKind d = 0) (ha : (s.page ch).active = true) :
    (s.deliverData ch d data).page ch =
        { s.page ch with got := (s.page ch).got + data.length, buf := (s.page ch).buf ++ data } ∧
      (s.deliverData ch d data).mem = s.mem ∧ ∀ f, (s.deliverData ch d data).fld f = s.fld f := by
  have hmem (s : State) (x : Ingest) : (s.setPage ch x).mem = s.mem := rfl
  have hfld (s : State) (x : Ingest) (f : Fld) : (s.setPage ch x).fld f = s.fld f := rfl
  refine ⟨?_, ?_, fun f => ?_⟩
  · rw [State.deliverData_keeps (view := (State.page · ch)) fun _ _ => rfl, State.moveData_toPage hk ha, State.page_setPage]
  · rw [State.deliverData_keeps (view := State.mem) fun _ _ => rfl, State.moveData_toPage hk ha, hmem]
  · rw [State.deliverData_keeps (view := (State.fld · f)) fun _ _ => rfl, State.moveData_toPage hk ha, hfld]

end

theorem Reg.dmaHops_offDram {ch : Nat} (h : ch < 64) : (Reg.DMA_STATUS_HOPS ch).OffDram :=
  Fld.offDram_of_low (Fld.fits_of_decide rfl) (by rw [Reg.DMA_STATUS_HOPS]; dsimp only; omega)

/-! Nothing takes back an output. -/

theorem State.emit_grows (s : State) (o : Out) : s.outbox <+: (s.emit o).outbox := List.prefix_append ..

theorem State.msixSignal_grows (s : State) (v : Nat) : s.outbox <+: (s.msixSignal v).outbox := by
  rw [State.msixSignal]
  split
  · exact State.emit_grows ..
  · exact List.prefix_rfl

theorem State.breachOnce_outbox (s : State) (c block inst : Nat) (detail : List Nat) :
    (s.breachOnce c block inst detail).outbox = s.outbox := by
  rw [State.breachOnce, State.mend, State.setFld_outbox, State.breach, State.setFld_outbox, State.setFld_outbox,
    State.raise_outbox, State.log1_outbox]

theorem State.dmaDone_grows (s : State) (ch : Nat) : s.outbox <+: (s.dmaDone ch).outbox := by
  have hmark : (s.dmaMark ch).outbox = s.outbox := by rw [State.dmaMark, State.setFld_outbox]
  exact hmark ▸ State.msixSignal_grows ..

theorem State.chainEnd_grows (s : State) (ch code addr residue : Nat) (own stopped : Bool) :
    s.outbox <+: (s.chainEnd ch code addr residue own stopped).outbox := by
  have hput (s : State) (x : DmaChan) : (s.setDmaCh ch x).outbox = s.outbox := rfl
  have hstop : (s.chainStop ch code own stopped).outbox = s.outbox := by
    rw [State.chainStop_eq, State.setFlag_outbox, State.setFlag_outbox, State.setFld_outbox, State.setFld_outbox,
      State.setFld_outbox, hput, State.chkUser_keeps (view := State.outbox) fun _ _ => rfl]
  have hback (s : State) : s.outbox <+: (s.writeBack ch code addr residue).outbox := by
    rw [State.writeBack]
    split
    · exact State.emit_grows ..
    · exact List.prefix_rfl
  have hbreach (s : State) (p : Prop) [Decidable p] :
      (if p then s.breachOnce 2 0x08 ch [addr] else s).outbox = s.outbox := by
    split
    · exact State.breachOnce_outbox ..
    · rfl
  rw [State.chainEnd, hbreach]
  exact (hstop ▸ hback _).trans (State.dmaDone_grows ..)

theorem State.haltDone_grows (s : State) : s.outbox <+: s.haltDone.outbox := by
  rw [State.haltDone]
  split
  · exact List.prefix_rfl
  split
  · exact List.prefix_rfl
  · refine List.IsPrefix.trans ?_ (State.msixSignal_grows ..)
    rw [State.raise_outbox, State.setFld_outbox, State.setFld_outbox, State.setFld_outbox, State.setFld_outbox]

section

variable {s : State} {ch : Nat} (hpage : (s.page ch).active = false)
include hpage

theorem State.endChain_grows (code addr residue : Nat) (own stopped : Bool) :
    s.outbox <+: (s.endChain ch code addr residue own stopped).outbox := by
  rw [State.endChain_of_no_page hpage]
  exact (State.chainEnd_grows ..).trans (State.haltDone_grows _)

theorem State.descDone_grows (d : List Byte) : s.outbox <+: (s.descDone ch d).outbox := by
  have hput (s : State) (x : DmaChan) : (s.setDmaCh ch x).outbox = s.outbox := rfl
  have hpassed : (s.descPassed ch d).outbox = s.outbox := by rw [State.descPassed, hput, State.setFld_outbox]
  have hno : ((s.descPassed ch d).page ch).active = false := by rw [State.descPassed_page, hpage]
  rw [State.descDone_eq, ← hpassed]
  split
  · exact State.endChain_grows hno ..
  split
  · exact State.endChain_grows hno ..
  split
  · exact State.dmaDone_grows ..
  · exact List.prefix_rfl

end

/-! Data for the host (R345). -/

/-- A poisoned write to the host is counted. -/
def State.poisonCounted (s : State) (bad : Bool) : State := if bad then s.bump Reg.PCIE_TX_POISONED else s

/-- The `i`th write of a transfer to the host. -/
def State.hostPart (h a n : Nat) (s : State) (i : Nat) : State :=
  let bad := s.poisonedAt (a + 512 * i) (min 512 (n - 512 * i))
  let s := s.poisonCounted bad
  s.emit (.dmaWrite (h + 512 * i) (memGet s.mem (a + 512 * i) (min 512 (n - 512 * i))) s.relaxed bad)

theorem State.hostData_eq (s : State) (h a n : Nat) :
    s.hostData h a n = (List.range (ceilDiv n 512)).foldl (State.hostPart h a n) s := (rfl)

theorem State.poisonCounted_keeps {β : Type} {view : State → β}
    (h : ∀ s v, view (s.setFld Reg.PCIE_TX_POISONED v) = view s) (s : State) (bad : Bool) :
    view (s.poisonCounted bad) = view s := by
  rw [State.poisonCounted]
  split
  · exact h ..
  · rfl

theorem State.relaxed_of_reg {s t : State} (h : t.reg Reg.PCIE_CTRL = s.reg Reg.PCIE_CTRL) : t.relaxed = s.relaxed := by
  rw [State.relaxed, State.flag, State.fld_of_reg (f := Reg.PCIE_CTRL_RO_EN) h, State.relaxed, State.flag]

theorem State.poisonCounted_relaxed (s : State) (bad : Bool) : (s.poisonCounted bad).relaxed = s.relaxed :=
  State.poisonCounted_keeps (view := State.relaxed)
    (fun _ _ => State.relaxed_of_reg (State.reg_setFld_other (by decide))) s bad

theorem State.poisonCounted_mem (s : State) (bad : Bool) : (s.poisonCounted bad).mem = s.mem :=
  State.poisonCounted_keeps (view := State.mem) (fun _ _ => State.setFld_mem ..) s bad

theorem State.poisonCounted_outbox (s : State) (bad : Bool) : (s.poisonCounted bad).outbox = s.outbox :=
  State.poisonCounted_keeps (view := State.outbox) (fun _ _ => State.setFld_outbox ..) s bad

section

variable (h a n : Nat)

theorem State.hostPart_mem (s : State) (i : Nat) : (s.hostPart h a n i).mem = s.mem := by
  have hemit (s : State) (o : Out) : (s.emit o).mem = s.mem := rfl
  rw [State.hostPart, hemit, State.poisonCounted_mem]

theorem State.hostPart_relaxed (s : State) (i : Nat) : (s.hostPart h a n i).relaxed = s.relaxed := by
  have hemit (s : State) (o : Out) : (s.emit o).relaxed = s.relaxed := rfl
  rw [State.hostPart, hemit, State.poisonCounted_relaxed]

theorem State.hostPart_outbox (s : State) (i : Nat) : ∃ bad, (s.hostPart h a n i).outbox = s.outbox ++
    [.dmaWrite (h + 512 * i) (memGet s.mem (a + 512 * i) (min 512 (n - 512 * i))) s.relaxed bad] := by
  have hemit (s : State) (o : Out) : (s.emit o).outbox = s.outbox ++ [o] := rfl
  rw [State.hostPart, hemit, State.poisonCounted_mem, State.poisonCounted_relaxed, State.poisonCounted_outbox]
  exact ⟨_, rfl⟩

theorem State.hostParts_grow (l : List Nat) (s : State) : s.outbox <+: (l.foldl (State.hostPart h a n) s).outbox := by
  refine List.foldlRecOn (motive := fun t : State => s.outbox <+: t.outbox) l _ List.prefix_rfl fun t ih i _ => ih.trans ?_
  obtain ⟨bad, ho⟩ := t.hostPart_outbox h a n i
  exact ho ▸ List.prefix_append ..

/-- Each part of a transfer is written to the host. -/
theorem State.hostData_writes {i : Nat} (hi : 512 * i < n) (s : State) : ∃ bad,
    Out.dmaWrite (h + 512 * i) (memGet s.mem (a + 512 * i) (min 512 (n - 512 * i))) s.relaxed bad ∈
      (s.hostData h a n).outbox := by
  have hmem : i ∈ List.range (ceilDiv n 512) := by
    rw [List.mem_range, ceilDiv]
    omega
  obtain ⟨l, r, hl⟩ := List.append_of_mem hmem
  have hm := State.foldl_keeps State.mem (State.hostPart_mem h a n) l s
  have hr := State.foldl_keeps State.relaxed (State.hostPart_relaxed h a n) l s
  obtain ⟨bad, ho⟩ := (l.foldl (State.hostPart h a n) s).hostPart_outbox h a n i
  rw [hm, hr] at ho
  rw [State.hostData_eq, hl, List.foldl_append, List.foldl_cons]
  refine ⟨bad, (State.hostParts_grow h a n r _).subset ?_⟩
  rw [ho]
  exact List.mem_append_right _ (List.mem_singleton_self _)

end

/-- FROM_DEV writes each part of its data to the host. -/
theorem State.deliverData_writes {s : State} {ch i : Nat} {d data : List Byte} (hk : dKind d = 2)
    (hm : (s.dmaCh ch).moved = 0) (hi : 512 * i < data.length) : ∃ bad,
    Out.dmaWrite (dHost d + 512 * i) (memGet s.mem (dDev d + 512 * i) (min 512 (data.length - 512 * i))) s.relaxed bad ∈
      (s.deliverData ch d data).outbox := by
  have hrelaxed (s : State) (input a n : Nat) : (s.readMem input a n).relaxed = s.relaxed := by
    rw [State.relaxed, State.flag_of_fld (State.readMem_fld Reg.relaxed_offDram ..), State.relaxed]
  rw [State.deliverData_keeps (view := State.outbox) fun _ _ => rfl, State.moveData_fromDev hk, hm, Nat.add_zero,
    Nat.add_zero]
  have hwrites := State.hostData_writes (dHost d) (dDev d) data.length hi
    (s.readMem (s.chInput ch) (dDev d) data.length)
  rw [State.readMem_mem, hrelaxed] at hwrites
  exact hwrites

end Sys2Proof.Machine

/-! SUPPORT. Bus errors (R116): how each running chain ends, and the halt once the last of them has. -/
namespace Sys2Proof.Machine

/-! A page whose chain fails. -/

theorem State.dropPage_dmaReg {s : State} {ch st a : Nat} {pl : List Byte} (h : dmaBlock a) :
    (s.dropPage ch st pl).reg a = s.reg a := by
  have hput (s : State) (x : Ingest) (j : JobUnit) : State.reg { s.setPage ch x with job := j } a = s.reg a := rfl
  have hfinish (s : State) (n t : Nat) : (s.finishSlot n t st pl).reg a = s.reg a := by
    rw [State.finishSlot]
    split
    · exact State.complete_reg (dmaBlock_quiet h)
    · rfl
  rw [State.dropPage, hfinish, hput]
  refine State.foldl_keeps (State.reg · a) (fun _ u => State.reg_setFld_other ?_) _ s
  have := h.2
  rw [Reg.DCMP_STATUS_BUSY]
  dsimp only
  omega

/-- After a fault the page on the channel is given up, if there is one. -/
theorem State.chainPage_fault {β : Type} {view : State → β} {ch : Nat}
    (hlog : ∀ (s : State) (l : List Nat), view (s.log1 0x40 0x08 ch 0 l) = view s)
    (hdrop : ∀ (s : State) (st : Nat) (pl : List Byte), view (s.dropPage ch st pl) = view s) {code : Nat}
    (hcode : code = 2 ∨ code = 3) (s : State) : view (s.chainPage ch code) = view s := by
  have hfault : s.chainPage ch code = if !(s.page ch).active then s else
      (s.log1 0x40 0x08 ch 0 [(s.page ch).page]).dropPage ch scHwFault (leBytes 4 (s.fld Reg.NVC_LOG_NEXT)) := by
    rcases hcode with rfl | rfl <;> rw [State.chainPage] <;> decide
  rw [hfault]
  split
  · rfl
  · rw [hdrop, hlog]

/-! One chain ends after a bus error. -/

/-- Chain `c` of `s` has ended in `t`, where nothing else of the halt has changed. -/
structure State.Ended (s t : State) (c : Nat) : Prop where
  idle : t.chActive c = false
  active : ∀ {k}, k < 64 → k ≠ c → t.chActive k = s.chActive k
  chan : ∀ {k}, k ≠ c → t.dmaCh k = s.dmaCh k
  halting : t.ingest.halting = s.ingest.halting
  gstatus : t.reg Reg.DMA_GSTATUS = s.reg Reg.DMA_GSTATUS

theorem State.chActive_of_reg {s t : State} {ch : Nat} (h : t.reg (Reg.DMA_STATUS ch) = s.reg (Reg.DMA_STATUS ch)) :
    t.chActive ch = s.chActive ch := State.flag_of_fld (f := Reg.DMA_STATUS_ACTIVE ch) (State.fld_of_reg h)

theorem State.chActive_of_zero {s : State} {ch : Nat} (h : s.fld (Reg.DMA_STATUS_ACTIVE ch) = 0) : s.chActive ch = false := by
  rw [State.chActive, State.flag_eq, h]
  rfl

theorem Reg.gstatus_dmaBlock : dmaBlock Reg.DMA_GSTATUS := ⟨by decide, by decide⟩

theorem State.endChain_ends {s : State} {c code addr residue : Nat} {own stopped : Bool} (hc : c < 64)
    (hcode : code = 2 ∨ code = 3) :
    ∃ t, s.Ended t c ∧ s.endChain c code addr residue own stopped = t.haltDone := by
  refine ⟨_, ?_, rfl⟩
  have hpage {a : Nat} (ha : dmaBlock a) (s : State) : (s.chainPage c code).reg a = s.reg a :=
    State.chainPage_fault (view := (State.reg · a)) (fun _ _ => State.log1_reg (dmaBlock_not_eventRegs ha))
      (fun _ _ _ => State.dropPage_dmaReg ha) hcode s
  have hunit {β : Type} {view : IngestUnit → β} (hv : ∀ x l, view { x with pages := l } = view x) (s : State) :
      view (s.chainPage c code).ingest = view s.ingest :=
    State.chainPage_fault (view := fun s => view s.ingest) (fun _ _ => congrArg view (State.log1_ingest ..))
      (fun s _ _ => (congrArg view (State.dropPage_ingest ..)).trans (hv s.ingest _)) hcode s
  have hstatus {k : Nat} (hk : k < 64) :
      ((s.chainEnd c code addr residue own stopped).chainPage c code).reg (Reg.DMA_STATUS k) =
        (s.chainStop c code own stopped).reg (Reg.DMA_STATUS k) := by
    rw [hpage (Reg.dmaStatus_dmaBlock hk),
      State.chainEnd_reg_other (Reg.dmaStatus_dmaBlock hk) (Reg.dmaStatus_ne_done hk)]
  have hput (x : DmaChan) : (s.setDmaCh c x).ingest.halting = s.ingest.halting := rfl
  refine ⟨?_, fun {k} hk hne => ?_, fun {k} hne => ?_, ?_, ?_⟩
  · obtain ⟨hactive, -⟩ := s.chainStop_shows (own := own) (stopped := stopped) hc (code := code) (by omega)
    rw [State.chActive_of_reg (hstatus hc), State.chActive_of_zero hactive]
  · rw [State.chActive_of_reg (hstatus hk), State.chActive_of_reg]
    exact State.chainStop_reg (Reg.dmaStatus_dmaBlock hk) (by rw [Reg.DMA_STATUS, Reg.DMA_STATUS]; omega)
      (Reg.dmaStatus_ne_dmaCtrl k c)
  · rw [State.dmaCh_of_chans (hunit (view := IngestUnit.chans) (fun _ _ => rfl) _),
      State.dmaCh_of_chans (congrArg IngestUnit.chans (State.chainEnd_ingest ..)), State.dmaCh_setDmaCh_other hne]
  · rw [hunit (view := IngestUnit.halting) (fun _ _ => rfl), State.chainEnd_ingest, hput]
  · rw [hpage Reg.gstatus_dmaBlock, State.chainEnd_reg_other Reg.gstatus_dmaBlock ⟨by decide, by decide⟩,
      State.chainStop_reg Reg.gstatus_dmaBlock]
    · rw [Reg.DMA_GSTATUS, Reg.DMA_STATUS]; omega
    · rw [Reg.DMA_GSTATUS, Reg.DMA_CTRL]; omega

/-- How the first bus error ends a running chain. -/
def State.haltOne (batch : List Nat) (s : State) (ch : Nat) : State :=
  if batch.contains ch then s.ownFault ch else s.stopChain ch 3 (stopped := true)

theorem State.busHalt_eq (s : State) (batch : List Nat) :
    s.busHalt batch = ((List.range 64).filter s.chActive).foldl (State.haltOne batch) s := (rfl)

/-- A chain of the failed batch ends at once, and so does one that waits for nothing. -/
theorem State.haltOne_ends {s : State} {batch : List Nat} {c : Nat} (hc : c < 64)
    (h : c ∈ batch ∨ (s.dmaCh c).outstanding = false ∧ (s.dmaCh c).stop = none) :
    ∃ t, s.Ended t c ∧ s.haltOne batch c = t.haltDone := by
  rw [State.haltOne]
  split
  · rw [State.ownFault]
    exact State.endChain_ends hc (.inl rfl)
  · next hb =>
    obtain ⟨ho, hs⟩ := h.resolve_left fun e => hb (List.contains_iff_mem.mpr e)
    rw [State.stopChain_at_once hs ho]
    exact State.endChain_ends hc (.inr rfl)

/-! The halt. -/

/-- What shows once the channels are halted. -/
structure State.Halted (s : State) (kind addr : Nat) : Prop where
  halt : s.fld Reg.DMA_GSTATUS_BUS_HALT = 1
  kind : s.fld Reg.DMA_GSTATUS_FAULT_KIND = kind
  addr : s.fld Reg.DMA_FAULT_LO_ADDR_LO + 2 ^ 32 * s.fld Reg.DMA_FAULT_HI_ADDR_HI = addr

/-- The halt with the first error's kind and address. -/
def State.withHalt (s : State) (kind addr : Nat) : State :=
  (((State.setFld { s with ingest := { s.ingest with halting := none } } Reg.DMA_GSTATUS_BUS_HALT 1).setFld
    Reg.DMA_GSTATUS_FAULT_KIND kind).setFld Reg.DMA_FAULT_LO_ADDR_LO (addr % 2 ^ 32)).setFld
      Reg.DMA_FAULT_HI_ADDR_HI (addr / 2 ^ 32 % 2 ^ 32)

theorem State.withHalt_halted {s : State} {kind addr : Nat} (hk : kind < 8) (ha : addr < 2 ^ 64) :
    (s.withHalt kind addr).Halted kind addr := by
  have hhi (s : State) {f : Fld} (v : Nat) (h : f.addr ≠ Reg.DMA_FAULT_HI) :
      (s.setFld Reg.DMA_FAULT_HI_ADDR_HI v).fld f = s.fld f := State.fld_of_reg (State.reg_setFld_other h)
  have hlo (s : State) {f : Fld} (v : Nat) (h : f.addr ≠ Reg.DMA_FAULT_LO) :
      (s.setFld Reg.DMA_FAULT_LO_ADDR_LO v).fld f = s.fld f := State.fld_of_reg (State.reg_setFld_other h)
  have hword (n : Nat) : n % 2 ^ 32 < 2 ^ 32 := Nat.mod_lt _ (Nat.two_pow_pos 32)
  rw [State.withHalt]
  refine ⟨?_, ?_, ?_⟩
  · rw [hhi _ _ (by decide), hlo _ _ (by decide), State.fld_setFld_clear (Fld.clearOf_of_bits (by rfl))]
    exact State.fld_setFld (Fld.fits_of_decide rfl) (show 1 < 2 ^ 1 by decide)
  · rw [hhi _ _ (by decide), hlo _ _ (by decide)]
    exact State.fld_setFld (Fld.fits_of_decide rfl) (show kind < 2 ^ 3 from hk)
  · rw [hhi _ _ (by decide), State.fld_setFld (f := Reg.DMA_FAULT_LO_ADDR_LO) (Fld.fits_of_decide rfl) (hword _),
      State.fld_setFld (f := Reg.DMA_FAULT_HI_ADDR_HI) (Fld.fits_of_decide rfl) (hword _)]
    omega

section

variable {s : State} {kind addr : Nat} (hh : s.ingest.halting = some (kind, addr))
  (hn : ∀ c, c < 64 → s.chActive c = false)
include hh hn

theorem State.haltDone_eq : s.haltDone =
    ((s.withHalt kind addr).raise 113).msixSignal ((s.withHalt kind addr).fld Reg.DMA_GCTRL_VECTOR) := by
  have hnone : ¬ (List.range 64).any s.chActive = true := by
    rw [List.any_eq_true]
    rintro ⟨c, hc, ha⟩
    rw [hn c (List.mem_range.mp hc)] at ha
    exact Bool.false_ne_true ha
  rw [State.haltDone, hh]
  exact if_neg hnone

theorem State.haltDone_halted (hk : kind < 8) (ha : addr < 2 ^ 64) : s.haltDone.Halted kind addr := by
  have hfld {f : Fld} (hf : dmaBlock f.addr) : s.haltDone.fld f = (s.withHalt kind addr).fld f := State.fld_of_reg (by
    rw [State.haltDone_eq hh hn, State.msixSignal_reg, State.raise_reg (dmaBlock_not_eventRegs hf)])
  obtain ⟨hhalt, hkind, haddr⟩ := s.withHalt_halted hk ha
  exact ⟨(hfld Reg.gstatus_dmaBlock).trans hhalt, (hfld Reg.gstatus_dmaBlock).trans hkind, by
    rw [hfld ⟨by decide, by decide⟩, hfld ⟨by decide, by decide⟩, haddr]⟩

theorem State.haltDone_halting : s.haltDone.ingest.halting = none := by
  rw [State.haltDone_eq hh hn, State.msixSignal_ingest, State.raise_ingest, State.withHalt, State.setFld_ingest,
    State.setFld_ingest, State.setFld_ingest, State.setFld_ingest]

end

/-- Once every chain of a list has ended, in whatever order, the channels are halted. -/
theorem State.haltOne_all {kind addr : Nat} (hk : kind < 8) (ha : addr < 2 ^ 64) (batch l : List Nat) (s : State)
    (hl : l.Nodup) (hact : ∀ c, c < 64 → (s.chActive c = true ↔ c ∈ l)) (hlt : ∀ c ∈ l, c < 64)
    (hends : ∀ c ∈ l, c ∈ batch ∨ (s.dmaCh c).outstanding = false ∧ (s.dmaCh c).stop = none)
    (hh : s.ingest.halting = some (kind, addr)) : (l.foldl (State.haltOne batch) s).haltDone.Halted kind addr := by
  induction l generalizing s with
  | nil =>
    have hnone (c : Nat) (hc : c < 64) : s.chActive c = false :=
      Bool.eq_false_iff.mpr fun h => List.not_mem_nil ((hact c hc).mp h)
    exact State.haltDone_halted hh hnone hk ha
  | cons c l ih =>
    have hcl : c ∉ l := (List.nodup_cons.mp hl).1
    obtain ⟨hc, hlt⟩ := List.forall_mem_cons.mp hlt
    obtain ⟨hcend, hends⟩ := List.forall_mem_cons.mp hends
    obtain ⟨t, hended, hone⟩ := State.haltOne_ends hc hcend
    have hactive (k : Nat) (hk : k < 64) : t.chActive k = true ↔ k ∈ l := by
      by_cases e : k = c
      · rw [e, hended.idle]
        exact iff_of_false Bool.false_ne_true hcl
      · rw [hended.active hk e, hact k hk, List.mem_cons, or_iff_right e]
    have hrest : (l.foldl (State.haltOne batch) t).haltDone.Halted kind addr := ih t (List.nodup_cons.mp hl).2 hactive hlt
      (fun k hkl => by rw [hended.chan fun e => hcl (e ▸ hkl)]; exact hends k hkl) (hended.halting.trans hh)
    rw [List.foldl_cons, hone]
    cases l with
    | nil =>
      have hnone (k : Nat) (hk : k < 64) : t.chActive k = false :=
        Bool.eq_false_iff.mpr fun h => List.not_mem_nil ((hactive k hk).mp h)
      rw [List.foldl_nil, State.haltDone_of_none (State.haltDone_halting (hended.halting.trans hh) hnone)]
      exact hrest
    | cons k l =>
      have hk : k < 64 := hlt k (List.mem_cons_self ..)
      rw [State.haltDone_of_active hk ((hactive k hk).mpr (List.mem_cons_self ..))]
      exact hrest

end Sys2Proof.Machine

/-! SUPPORT. The first bus error as a whole (R116), a chain that still waits for its requests, and the DMA commands. -/
namespace Sys2Proof.Machine

/-! A running chain that the end of another one leaves. -/

/-- Chain `c` of `s` still runs in `t`, with its record, and the halt still waits. -/
structure State.Spares (s t : State) (c : Nat) : Prop where
  active : t.chActive c = true
  chan : t.dmaCh c = s.dmaCh c
  halting : t.ingest.halting = s.ingest.halting
  gstatus : t.reg Reg.DMA_GSTATUS = s.reg Reg.DMA_GSTATUS

theorem State.Spares.trans {s t u : State} {c : Nat} (h : s.Spares t c) (k : t.Spares u c) : s.Spares u c where
  active := k.active
  chan := k.chan.trans h.chan
  halting := k.halting.trans h.halting
  gstatus := k.gstatus.trans h.gstatus

theorem State.Spares.setDmaCh {s t : State} {c : Nat} (h : s.Spares t c) (x : DmaChan) :
    (s.setDmaCh c x).Spares (t.setDmaCh c x) c where
  active := h.active
  chan := (State.dmaCh_setDmaCh ..).trans (State.dmaCh_setDmaCh ..).symm
  halting := h.halting
  gstatus := h.gstatus

theorem State.Ended.spares {s t : State} {c k : Nat} (h : s.Ended t k) (hc : c < 64) (hne : c ≠ k)
    (ha : s.chActive c = true) : s.Spares t.haltDone c := by
  have hact : t.chActive c = true := (h.active hc hne).trans ha
  rw [State.haltDone_of_active hc hact]
  exact ⟨hact, h.chan hne, h.halting, h.gstatus⟩

theorem State.setDmaCh_spares {s : State} {c k : Nat} (hne : c ≠ k) (ha : s.chActive c = true) (x : DmaChan) :
    s.Spares (s.setDmaCh k x) c :=
  ⟨ha, State.dmaCh_setDmaCh_other hne, rfl, rfl⟩

theorem State.haltOne_spares {s : State} {c k : Nat} (batch : List Nat) (hc : c < 64) (hk : k < 64) (hne : c ≠ k)
    (ha : s.chActive c = true) : s.Spares (s.haltOne batch k) c := by
  by_cases hb : k ∈ batch ∨ (s.dmaCh k).outstanding = false ∧ (s.dmaCh k).stop = none
  · obtain ⟨t, hended, hone⟩ := State.haltOne_ends hk hb
    exact hone ▸ hended.spares hc hne ha
  · obtain ⟨hb, hwait⟩ := not_or.mp hb
    rw [State.haltOne, if_neg fun e => hb (List.contains_iff_mem.mp e)]
    rcases hs : (s.dmaCh k).stop with _ | code
    · rw [State.stopChain_waits hs (Bool.not_eq_false _ ▸ fun ho => hwait ⟨ho, hs⟩)]
      exact State.setDmaCh_spares hne ha _
    · rw [State.stopChain, hs]
      exact ⟨ha, rfl, rfl, rfl⟩

theorem State.haltOnes_spare {c : Nat} (batch l : List Nat) (hc : c < 64) (hl : ∀ k ∈ l, k < 64) (hne : c ∉ l) (s : State)
    (ha : s.chActive c = true) : s.Spares (l.foldl (State.haltOne batch) s) c :=
  List.foldlRecOn (motive := fun t : State => s.Spares t c) l _ ⟨ha, rfl, rfl, rfl⟩ fun _ ih k hk =>
    ih.trans (State.haltOne_spares batch hc (hl k hk) (fun e => hne (e ▸ hk)) ih.active)

/-- A chain outside the failed batch that waits for its requests is to stop, and runs on. -/
theorem State.busHalt_waits {s : State} {c : Nat} {batch : List Nat} (hc : c < 64) (ha : s.chActive c = true)
    (hb : c ∉ batch) (ho : (s.dmaCh c).outstanding = true) (hs : (s.dmaCh c).stop = none) :
    (s.setDmaCh c { s.dmaCh c with stop := some (3, false, true) }).Spares (s.busHalt batch) c := by
  have hnodup : ((List.range 64).filter s.chActive).Nodup := List.nodup_range.filter _
  have hlt : ∀ k ∈ (List.range 64).filter s.chActive, k < 64 := fun k hk => List.mem_range.mp (List.mem_filter.mp hk).1
  obtain ⟨l, r, hlr⟩ := List.append_of_mem (List.mem_filter.mpr ⟨List.mem_range.mpr hc, ha⟩)
  rw [State.busHalt_eq]
  rw [hlr] at hnodup hlt ⊢
  obtain ⟨-, hcr, hdis⟩ := List.nodup_append.mp hnodup
  have hl : c ∉ l := fun h => hdis c h c (List.mem_cons_self ..) rfl
  have hr : c ∉ r := (List.nodup_cons.mp hcr).1
  have hleft : s.Spares (l.foldl (State.haltOne batch) s) c :=
    State.haltOnes_spare batch l hc (fun k hk => hlt k (List.mem_append_left _ hk)) hl s ha
  have hone : (l.foldl (State.haltOne batch) s).haltOne batch c =
      (l.foldl (State.haltOne batch) s).setDmaCh c { s.dmaCh c with stop := some (3, false, true) } := by
    rw [State.haltOne, if_neg fun e => hb (List.contains_iff_mem.mp e),
      State.stopChain_waits (hleft.chan ▸ hs) (hleft.chan ▸ ho), hleft.chan]
  rw [List.foldl_append, List.foldl_cons, hone]
  exact (hleft.setDmaCh _).trans (State.haltOnes_spare batch r hc
    (fun k hk => hlt k (List.mem_append_right _ (List.mem_cons_of_mem _ hk))) hr _ hleft.active)

/-! The first bus error. -/

/-- A failed request, counted, reported and the first: the channels are to halt. -/
def State.faultSeen (s : State) (kind addr : Nat) : State :=
  let s := (s.bump Reg.DMA_GSTATUS_FAULTS).pcieReport kind
  { s with ingest := { s.ingest with halting := some (kind, addr) } }

theorem dmaBlock_not_pcieErrRegs {a : Nat} (h : dmaBlock a) : a ∉ pcieErrRegs := by
  obtain ⟨hlo, hhi⟩ := h
  simp only [pcieErrRegs, Reg.PCIE_EVENTS, Reg.PCIE_CNT_ERR, Reg.PCIE_HDRLOG, List.mem_cons, List.not_mem_nil, or_false,
    not_or]
  omega

section

variable (s : State) (kind addr : Nat)

theorem State.faultSeen_reg {a : Nat} (h : dmaBlock a) :
    (s.faultSeen kind addr).reg a = (s.bump Reg.DMA_GSTATUS_FAULTS).reg a :=
  State.pcieReport_reg (dmaBlock_not_pcieErrRegs h)

theorem State.faultSeen_chActive {c : Nat} (hc : c < 64) : (s.faultSeen kind addr).chActive c = s.chActive c :=
  State.chActive_of_reg ((s.faultSeen_reg kind addr (Reg.dmaStatus_dmaBlock hc)).trans
    (State.reg_setFld_other (by rw [Reg.DMA_STATUS, Reg.DMA_GSTATUS_FAULTS]; dsimp only; omega)))

theorem State.reported_ingest : ((s.bump Reg.DMA_GSTATUS_FAULTS).pcieReport kind).ingest = s.ingest := by
  rw [State.ingest_of_printUnits (State.pcieReport_printUnits ..), State.bump_ingest]

theorem State.faultSeen_dmaCh (c : Nat) : (s.faultSeen kind addr).dmaCh c = s.dmaCh c :=
  State.dmaCh_of_chans (congrArg IngestUnit.chans (s.reported_ingest kind)) c

theorem State.faultSeen_halting : (s.faultSeen kind addr).ingest.halting = some (kind, addr) := (rfl)

theorem State.faultSeen_busHalt :
    (s.faultSeen kind addr).fld Reg.DMA_GSTATUS_BUS_HALT = s.fld Reg.DMA_GSTATUS_BUS_HALT :=
  (State.fld_of_reg (s.faultSeen_reg kind addr Reg.gstatus_dmaBlock)).trans
    (State.fld_setFld_clear (Fld.clearOf_of_bits (by rfl)))

end

theorem State.busError_first {s : State} (h : s.busStopped = false) (kind addr : Nat) (batch : List Nat) :
    s.busError kind addr batch = ((s.faultSeen kind addr).busHalt batch).haltDone := by
  have hstop : ((s.bump Reg.DMA_GSTATUS_FAULTS).pcieReport kind).busStopped = false := by
    have hhalt : ((s.bump Reg.DMA_GSTATUS_FAULTS).pcieReport kind).flag Reg.DMA_GSTATUS_BUS_HALT =
        s.flag Reg.DMA_GSTATUS_BUS_HALT := State.flag_of_fld (s.faultSeen_busHalt kind addr)
    rw [State.busStopped, hhalt, s.reported_ingest]
    exact h
  rw [State.busError]
  exact if_neg (by rw [hstop]; exact Bool.false_ne_true)

theorem State.busError_halts {s : State} {kind addr : Nat} {batch : List Nat} (hk : kind < 8) (ha : addr < 2 ^ 64)
    (hb : s.busStopped = false)
    (hends : ∀ c, c < 64 → s.chActive c = true → c ∈ batch ∨ (s.dmaCh c).outstanding = false ∧ (s.dmaCh c).stop = none) :
    (s.busError kind addr batch).Halted kind addr := by
  rw [State.busError_first hb, State.busHalt_eq]
  have hmem {c : Nat} : c ∈ (List.range 64).filter (s.faultSeen kind addr).chActive ↔
      c < 64 ∧ (s.faultSeen kind addr).chActive c = true := by rw [List.mem_filter, List.mem_range]
  refine State.haltOne_all hk ha batch _ _ (List.nodup_range.filter _) (fun c hc => ?_) (fun c h => (hmem.mp h).1)
    (fun c h => ?_) (s.faultSeen_halting kind addr)
  · rw [hmem, and_iff_right hc]
  · obtain ⟨hc, hact⟩ := hmem.mp h
    rw [s.faultSeen_dmaCh]
    exact hends c hc ((s.faultSeen_chActive kind addr hc).symm.trans hact)

/-- The halt waits for a chain outside the failed batch. -/
theorem State.busError_waits {s : State} {c : Nat} {batch : List Nat} (kind addr : Nat) (hb : s.busStopped = false)
    (hc : c < 64) (ha : s.chActive c = true) (hn : c ∉ batch) (ho : (s.dmaCh c).outstanding = true)
    (hs : (s.dmaCh c).stop = none) :
    ((s.faultSeen kind addr).setDmaCh c { s.dmaCh c with stop := some (3, false, true) }).Spares
      (s.busError kind addr batch) c := by
  have hch := s.faultSeen_dmaCh kind addr c
  have hspare := State.busHalt_waits hc ((s.faultSeen_chActive kind addr hc).trans ha) hn (hch ▸ ho) (hch ▸ hs)
  rw [State.busError_first hb, State.haltDone_of_active hc hspare.active, ← hch]
  exact hspare

theorem State.busHalt_zero {s : State} (h : s.busStopped = false) : s.fld Reg.DMA_GSTATUS_BUS_HALT = 0 := by
  rw [State.busStopped, Bool.or_eq_false_iff, State.flag_eq, decide_eq_false_iff_not, not_not] at h
  exact h.1

/-- Settles O41: the chains' starts and ends by what `endChain` shows, the descriptors' data by `deliverData`, and the halt
by induction on the running chains. -/
theorem dmaCommandsComplete : Obligations.DmaCommandsComplete := by
  unfold Obligations.DmaCommandsComplete
  refine ⟨?run, ?abort, ?abortWaits, ?fetch, ?bad, ?toDev, ?part, ?fromDev, ?toPage, ?error, ?waits, ?timeout, ?clear⟩
  case run =>
    intro s ch hch haw hi ho hb
    obtain ⟨hrun, hhops⟩ := s.chainStart_shows hch
    obtain ⟨hcur, hdesc⟩ := s.chainStart_dmaCh ch
    exact ⟨_, execDmaRun_starts hch haw hi ho hb, s.chainStart_active hch, hrun, hhops, hcur, hdesc,
      State.mem_of_core (State.chainStart_core ..)⟩
  case abort =>
    intro s ch hch ha hpage hs ho
    have hover := s.endChain_over (addr := (s.inProgress ch).1) (residue := (s.inProgress ch).2) (own := false)
      (stopped := false) hch (show 1 < 16 by decide) hpage
    refine ⟨_, (execDmaAbort_stops hch ha).trans (congrArg Host.Outcome.next (State.stopChain_at_once hs ho)),
      hover.active, hover.run, hover.code, hover.own, hover.chains, hover.done⟩
  case abortWaits =>
    intro s ch hch ha hs ho
    exact ⟨_, (execDmaAbort_stops hch ha).trans (congrArg Host.Outcome.next (State.stopChain_waits hs ho)),
      State.dmaCh_setDmaCh .., rfl, rfl⟩
  case fetch =>
    rintro s ch n d ha hn hl hh hs hbad hnext rfl
    exact execDmaDescriptorFetch_accepts ha hn hl hh hs hbad hnext
  case bad =>
    intro s ch d hch ha hn hl hh hbad hpage
    have hover := s.endChain_over (addr := (s.dmaCh ch).cur) (residue := dLen d) (own := false) (stopped := false) hch
      (show 6 < 16 by decide) hpage
    exact ⟨_, execDmaDescriptorFetch_bad ha hn hl hh hbad, hover.active, hover.code, hover.mem⟩
  case toDev =>
    intro s ch d data hch hd hs hm hk he hl hpage hhops
    have hdata : s.nextData ch d data = data := State.nextData_within (by omega) hs (by omega)
    have hmem := State.deliverData_toDev_mem (s := s) (ch := ch) (data := data) hk
    rw [hm, Nat.add_zero] at hmem
    have hfld : (s.deliverData ch d data).fld (Reg.DMA_STATUS_HOPS ch) = s.fld (Reg.DMA_STATUS_HOPS ch) :=
      State.deliverData_toDev_fld hk (Reg.dmaHops_offDram hch)
    have hover := State.descDone_over (s := s.deliverData ch d data) hch he
      (by rw [State.deliverData_toDev_page hk, hpage])
    refine ⟨_, execDmaDescriptorComplete_last hd hs (by rw [hdata]; omega), ?_⟩
    rw [hdata]
    refine ⟨?_, fun a ha => ?_, hover.code, hover.active, ?_⟩
    · rw [hover.mem, State.descPassed_mem, hmem, ← hl, memGet_put]
    · rw [hover.mem, State.descPassed_mem, hmem, memByte_put_outside (hl ▸ ha)]
    · rw [hover.hops, State.descPassed_hops (hfld ▸ hhops), hfld]
  case part =>
    intro s ch d data hch hd hs hk hl
    have hdata : s.nextData ch d data = data := State.nextData_within (by omega) hs (by omega)
    obtain ⟨n, hissue⟩ := (s.deliverData ch d data).issueReads_dmaCh ch
    obtain ⟨chk, hput⟩ := s.deliverData_dmaCh ch d data
    refine ⟨_, execDmaDescriptorComplete_part hd hs (by rw [hdata]; exact hl), ?_⟩
    rw [hdata, hissue, hput]
    refine ⟨hd, rfl, ?_⟩
    rw [State.issueReads_mem, State.deliverData_toDev_mem hk, memGet_put]
  case fromDev =>
    intro s ch i d hch hd hs hm hk hpage hi
    have hdata : s.nextData ch d [] = memGet s.mem (dDev d) (dLen d) := State.nextData_fromDev hk hm
    have hlen : (s.nextData ch d []).length = dLen d := by rw [hdata, memGet_length]
    obtain ⟨bad, hwrite⟩ := State.deliverData_writes (data := s.nextData ch d []) hk hm (hlen.symm ▸ hi)
    have hno : ((s.deliverData ch d (s.nextData ch d [])).page ch).active = false := by
      rw [State.deliverData_fromDev_page hk, hpage]
    rw [hlen] at hwrite
    refine ⟨_, bad, execDmaDescriptorComplete_last hd hs (by omega), ?_, (State.descDone_grows hno d).subset hwrite⟩
    rw [State.mem_of_core (State.descDone_core ..)]
    exact State.deliverData_fromDev_mem hk
  case toPage =>
    intro s ch d data hch hd hs hm hk he hi hl hact hlt hhops
    have hdata : s.nextData ch d data = data := State.nextData_within (by omega) hs (by omega)
    obtain ⟨hpage, hmem, hfld⟩ := State.deliverData_toPage (data := data) hk hact
    refine ⟨_, execDmaDescriptorComplete_last hd hs (by rw [hdata]; omega), ?_⟩
    rw [hdata, State.descDone_goesOn he hi (by rw [hfld, hfld]; exact hhops)]
    refine ⟨?_, ?_, ?_, ?_, ?_⟩
    · rw [State.descPassed_page, hpage, hl]
    · rw [State.descPassed_dmaCh]
    · rw [State.descPassed_dmaCh]
    · rw [State.descPassed_hops (by rw [hfld]; exact hlt), hfld]
    · rw [State.descPassed_mem, hmem]
  case error =>
    intro s kind addr batch hlo hhi ha hb hends
    obtain ⟨hhalt, hkind, haddr⟩ := State.busError_halts (kind := kind) (by omega) ha hb hends
    exact ⟨_, rfl, hhalt, hkind, haddr⟩
  case waits =>
    intro s kind addr c batch _ _ _ hb hc hact hn ho hs
    have hspare := State.busError_waits kind addr hb hc hact hn ho hs
    have hput (s : State) (x : DmaChan) : (s.setDmaCh c x).ingest.halting = s.ingest.halting := rfl
    refine ⟨_, rfl, ?_, ?_, hspare.active, ?_⟩
    · rw [State.fld_of_reg (f := Reg.DMA_GSTATUS_BUS_HALT) hspare.gstatus, State.fld_setDmaCh, State.faultSeen_busHalt,
        State.busHalt_zero hb]
    · rw [hspare.halting, hput, State.faultSeen_halting]
    · rw [hspare.chan, State.dmaCh_setDmaCh]
  case timeout =>
    intro s addr batch ha hb hends
    obtain ⟨hhalt, hkind, haddr⟩ := State.busError_halts (kind := 1) (by decide) ha hb hends
    exact ⟨_, rfl, hhalt, hkind, haddr⟩
  case clear =>
    intro s
    exact ⟨_, rfl, State.fld_setFld (Fld.fits_of_decide rfl) (show 0 < 2 ^ 1 by decide), State.setFld_ingest ..,
      fun a h => State.reg_setFld_other h⟩

end Sys2Proof.Machine

/-! SUPPORT. Table banks and swaps (R144 to R148): what the operations on a bar's banks leave of the bars and of the
registers. -/
namespace Sys2Proof.Machine

/-! A bar's record. -/

theorem State.bar_of_bars {t u : State} (h : t.bars = u.bars) (b : Nat) : t.bar b = u.bar b := by
  rw [State.bar, h, State.bar]

@[simp] theorem State.bar_setBar (s : State) (b : Nat) (x : Bar) : (s.setBar b x).bar b = x := tabGet_put_self

@[simp] theorem State.fld_setBar (s : State) (b : Nat) (x : Bar) (f : Fld) : (s.setBar b x).fld f = s.fld f := (rfl)

/-! The registers of block DOSE. -/

/-- A register of block DOSE. -/
abbrev inDose (a : Nat) : Prop := blockOf a = 0x10

theorem inDose_bounds {a : Nat} (h : inDose a) : 0x100000 ≤ a ∧ a < 0x110000 := by
  rw [inDose, blockOf] at h
  omega

/-- A bar's own registers, by their offset among the 32 bytes of its row. -/
theorem inDose_of_bar {b o : Nat} (h : b < 16) (ho : o < 0x20) : inDose (0x100000 + o + 0x20 * b) :=
  blockOf_of_lt (o := o + 0x20 * b) (by omega) (by omega)

theorem inDose_not_answerRegs {a : Nat} (h : inDose a) : a ∉ answerRegs := by
  have hb := inDose_bounds h
  simp only [answerRegs, Reg.PLAT_STATE, Reg.CMD_STATUS, Reg.ETH_CNT_FRAMES, List.mem_cons, List.not_mem_nil, or_false,
    not_or]
  omega

theorem inDose_not_eventRegs {a : Nat} (h : inDose a) : a ∉ eventRegs := by
  have hb := inDose_bounds h
  simp only [eventRegs, Reg.EVT_COUNTS, Reg.EVT_STATUS, Reg.NVC_LOG, List.mem_cons, List.not_mem_nil, or_false, not_or]
  omega

/-! What DOSE_BARb_STATUS shows of a bar's banks. -/

section

variable (s : State) (b : Nat)

theorem State.showBank_bars : (s.showBank b).bars = s.bars := by
  simp only [State.showBank, State.setFld_bars, State.setFlag_bars]

theorem State.showBank_reg {a : Nat} (h : a ≠ Reg.DOSE_BAR_STATUS b) : (s.showBank b).reg a = s.reg a := by
  have keep (s : State) {f : Fld} (hf : f.addr = Reg.DOSE_BAR_STATUS b) (v : Nat) : (s.setFld f v).reg a = s.reg a :=
    State.reg_setFld_other (hf ▸ h)
  simp only [State.showBank, State.setFlag]
  rw [keep _ rfl, keep _ rfl, keep _ rfl, keep _ rfl, keep _ rfl]

theorem State.showBank_thrPend : (s.showBank b).fld (Reg.DOSE_BAR_STATUS_THR_PEND b) = b2n (s.bar b).pend.thr.isSome := by
  simp only [State.showBank]
  rw [State.fld_setFld_clear (Fld.clearOf_of_bits (by rfl)), State.fld_setFlag_clear (Fld.clearOf_of_bits (by rfl)),
    State.fld_setFlag_clear (Fld.clearOf_of_bits (by rfl)), State.fld_setFlag_clear (Fld.clearOf_of_bits (by rfl)),
    State.fld_setFlag (Fld.fits_of_decide rfl)]

theorem State.showBank_curvePend :
    (s.showBank b).fld (Reg.DOSE_BAR_STATUS_CURVE_PEND b) = b2n (s.bar b).pend.curve.isSome := by
  simp only [State.showBank]
  rw [State.fld_setFld_clear (Fld.clearOf_of_bits (by rfl)), State.fld_setFlag_clear (Fld.clearOf_of_bits (by rfl)),
    State.fld_setFlag_clear (Fld.clearOf_of_bits (by rfl)), State.fld_setFlag (Fld.fits_of_decide rfl)]

theorem State.showBank_gainPend : (s.showBank b).fld (Reg.DOSE_BAR_STATUS_GAIN_PEND b) = b2n (s.bar b).pend.gain.isSome := by
  simp only [State.showBank]
  rw [State.fld_setFld_clear (Fld.clearOf_of_bits (by rfl)), State.fld_setFlag_clear (Fld.clearOf_of_bits (by rfl)),
    State.fld_setFlag (Fld.fits_of_decide rfl)]

theorem State.showBank_subPend : (s.showBank b).fld (Reg.DOSE_BAR_STATUS_SUB_PEND b) = b2n (s.bar b).pend.sub.isSome := by
  simp only [State.showBank]
  rw [State.fld_setFld_clear (Fld.clearOf_of_bits (by rfl)), State.fld_setFlag (Fld.fits_of_decide rfl)]

/-! The pending bank (R145). -/

variable (d : DoseBank)

theorem State.setPend_bars : (s.setPend b d).bars = (s.setBar b { s.bar b with pend := d }).bars := State.showBank_bars ..

@[simp] theorem State.bar_setPend : (s.setPend b d).bar b = { s.bar b with pend := d } :=
  (State.bar_of_bars (s.setPend_bars b d) b).trans (State.bar_setBar ..)

theorem State.setPend_reg {a : Nat} (h : a ≠ Reg.DOSE_BAR_STATUS b) : (s.setPend b d).reg a = s.reg a :=
  State.showBank_reg _ b h

theorem State.setPend_thrPend : (s.setPend b d).fld (Reg.DOSE_BAR_STATUS_THR_PEND b) = b2n d.thr.isSome := by
  rw [State.setPend, State.showBank_thrPend, State.bar_setBar]

theorem State.setPend_curvePend : (s.setPend b d).fld (Reg.DOSE_BAR_STATUS_CURVE_PEND b) = b2n d.curve.isSome := by
  rw [State.setPend, State.showBank_curvePend, State.bar_setBar]

theorem State.setPend_gainPend : (s.setPend b d).fld (Reg.DOSE_BAR_STATUS_GAIN_PEND b) = b2n d.gain.isSome := by
  rw [State.setPend, State.showBank_gainPend, State.bar_setBar]

theorem State.setPend_subPend : (s.setPend b d).fld (Reg.DOSE_BAR_STATUS_SUB_PEND b) = b2n d.sub.isSome := by
  rw [State.setPend, State.showBank_subPend, State.bar_setBar]

/-- Without AUTO_SWAP a table that is staged waits for a swap request (R145). -/
theorem State.stageBank_waits (h : s.flag (Reg.DOSE_BAR_CTRL_AUTO_SWAP b) = false) : s.stageBank b d = s.setPend b d := by
  have hne : Reg.DOSE_BAR_CTRL b ≠ Reg.DOSE_BAR_STATUS b := by rw [Reg.DOSE_BAR_CTRL, Reg.DOSE_BAR_STATUS]; omega
  have hauto : (s.setPend b d).flag (Reg.DOSE_BAR_CTRL_AUTO_SWAP b) = false :=
    (State.flag_of_fld (State.fld_of_reg (State.setPend_reg s b d hne))).trans h
  rw [State.stageBank, hauto]
  rfl

/-! A swap (R146). -/

/-- The bar once its pending tables are in force. -/
def State.swappedBar : Bar :=
  { s.bar b with
    bank := (s.bar b).pend.atop (s.bar b).bank
    pend := {}
    phaseX := s.fld (Reg.DOSE_BAR_CTRL_PHASE_X b)
    phaseY := s.fld (Reg.DOSE_BAR_CTRL_PHASE_Y b)
    phasePend := false
    gen := (s.bar b).gen + 1
    swapLine := (s.bar b).line }

/-- A swap as block DOSE shows it, before its event and what the loop waited for. -/
def State.swapShown : State :=
  let s' := ((s.setBar b (s.swappedBar b)).showBank b).setFld (Reg.DOSE_BAR_STATUS_SWAP_PEND b) 0
  ((s'.setFld (Reg.DOSE_BAR_STATUS_GEN b) (((s.bar b).gen + 1) % 256)).setFld (Reg.DOSE_BAR_SWAPLINE_LINE b)
    ((s.bar b).line % idxMod)).setFld Reg.DOSE_EVENTS_SWAP 1

theorem State.swapBar_eq : ∃ en, s.swapBar b = ((s.swapShown b).raiseIf en 58).loopSwapped b := ⟨_, rfl⟩

theorem State.loopSwapped_bars : (s.loopSwapped b).bars = s.bars := by
  have hslot (s : State) (n t st : Nat) : (s.finishSlot n t st).bars = s.bars :=
    State.rest_bars (State.finishSlot_rest ..)
  have hnoz (s : State) (x : Nat) (e : NozEntry) : (s.setNoz1 b x e).bars = s.bars := rfl
  have hloop (s : State) (x : LoopBar) : (s.setLoopBar b x).bars = s.bars := rfl
  rw [State.loopSwapped]
  refine (State.foldl_keeps State.bars (fun _ _ => hslot ..) _ _).trans ?_
  rw [State.setFld_bars, hloop]
  exact State.foldl_keeps State.bars (fun _ _ => hnoz ..) _ s

theorem State.loopSwapped_fld {f : Fld} (h : inDose f.addr) : (s.loopSwapped b).fld f = s.fld f := by
  have hnoz (s : State) (x : Nat) (e : NozEntry) : (s.setNoz1 b x e).fld f = s.fld f := rfl
  have hloop (s : State) (x : LoopBar) : (s.setLoopBar b x).fld f = s.fld f := rfl
  have hne : f.addr ≠ Reg.NOZ_STATUS := by
    have := inDose_bounds h
    rw [Reg.NOZ_STATUS]
    omega
  rw [State.loopSwapped]
  refine (State.foldl_keeps (State.fld · f)
    (fun _ _ => State.finishSlot_fld (quietAddr_of (inDose_not_answerRegs h))) _ _).trans ?_
  rw [State.fld_of_reg (State.reg_setFld_other hne), hloop]
  exact State.foldl_keeps (State.fld · f) (fun _ _ => hnoz ..) _ s

theorem State.swapBar_bars : (s.swapBar b).bars = (s.setBar b (s.swappedBar b)).bars := by
  obtain ⟨en, h⟩ := s.swapBar_eq b
  rw [h, State.loopSwapped_bars, State.raiseIf_bars]
  simp only [State.swapShown, State.setFld_bars, State.showBank_bars]

@[simp] theorem State.bar_swapBar : (s.swapBar b).bar b = s.swappedBar b :=
  (State.bar_of_bars (s.swapBar_bars b) b).trans (State.bar_setBar ..)

theorem State.swapBar_fld {f : Fld} (h : inDose f.addr) : (s.swapBar b).fld f = (s.swapShown b).fld f := by
  obtain ⟨en, e⟩ := s.swapBar_eq b
  rw [e, State.loopSwapped_fld _ b h, State.raiseIf_fld (inDose_not_eventRegs h)]

theorem State.swapBar_event : (s.swapBar b).fld Reg.DOSE_EVENTS_SWAP = 1 :=
  (s.swapBar_fld b (by decide)).trans (State.fld_setFld (Fld.fits_of_decide rfl) (by decide))

end

section

variable (s : State) {b : Nat} (hb : b < 16)
include hb

theorem State.swapBar_swapLine :
    (s.swapBar b).fld (Reg.DOSE_BAR_SWAPLINE_LINE b) = (s.bar b).line % idxMod := by
  have hne : Reg.DOSE_BAR_SWAPLINE b ≠ Reg.DOSE_EVENTS := by rw [Reg.DOSE_BAR_SWAPLINE, Reg.DOSE_EVENTS]; omega
  rw [s.swapBar_fld b (inDose_of_bar (o := 0x10) hb (by decide)), State.swapShown, State.fld_of_reg (State.reg_setFld_other hne)]
  exact State.fld_setFld (Fld.fits_of_decide rfl) (Nat.mod_lt _ (by decide))

/-- A field of DOSE_BARb_STATUS once the swap has taken effect. -/
theorem State.swapBar_status {f : Fld} (hf : f.addr = Reg.DOSE_BAR_STATUS b) :
    (s.swapBar b).fld f = ((((s.setBar b (s.swappedBar b)).showBank b).setFld (Reg.DOSE_BAR_STATUS_SWAP_PEND b) 0).setFld
      (Reg.DOSE_BAR_STATUS_GEN b) (((s.bar b).gen + 1) % 256)).fld f := by
  have hev : f.addr ≠ Reg.DOSE_EVENTS := by rw [hf, Reg.DOSE_BAR_STATUS, Reg.DOSE_EVENTS]; omega
  have hline : f.addr ≠ Reg.DOSE_BAR_SWAPLINE b := by rw [hf, Reg.DOSE_BAR_STATUS, Reg.DOSE_BAR_SWAPLINE]; omega
  rw [s.swapBar_fld b (hf ▸ inDose_of_bar (o := 0x14) hb (by decide)), State.swapShown,
    State.fld_of_reg (State.reg_setFld_other hev), State.fld_of_reg (State.reg_setFld_other hline)]

theorem State.swapBar_swapPend : (s.swapBar b).fld (Reg.DOSE_BAR_STATUS_SWAP_PEND b) = 0 := by
  rw [s.swapBar_status hb rfl, State.fld_setFld_clear (Fld.clearOf_of_bits (by rfl))]
  exact State.fld_setFld (Fld.fits_of_decide rfl) (Nat.two_pow_pos _)

theorem State.swapBar_gen : (s.swapBar b).fld (Reg.DOSE_BAR_STATUS_GEN b) = ((s.bar b).gen + 1) % 256 := by
  rw [s.swapBar_status hb rfl]
  exact State.fld_setFld (Fld.fits_of_decide rfl) (Nat.mod_lt _ (by decide))

end

end Sys2Proof.Machine

/-! SUPPORT. The tables of the print units that are in force beside what follows them: boards that train, lanes that change,
nozzles that are counted and recorded. -/
namespace Sys2Proof.Machine

/-- The bars, the profiles in force, the loop's substitution tables, and the command unit. -/
def State.printTables (s : State) : List (Nat × Bar) × (Nat → Option (List Byte)) × (Nat → SubTable) × CmdUnit :=
  (s.bars, fun k => (s.board k).profile, fun b => (s.loopBar b).sub, s.cmd)

section

variable {t u : State} (h : t.printTables = u.printTables)
include h

theorem State.bars_of_printTables : t.bars = u.bars := congrArg Prod.fst h

theorem State.profile_of_printTables (k : Nat) : (t.board k).profile = (u.board k).profile :=
  congrFun (congrArg (·.2.1) h) k

theorem State.loopSub_of_printTables (b : Nat) : (t.loopBar b).sub = (u.loopBar b).sub := congrFun (congrArg (·.2.2.1) h) b

theorem State.cmd_of_printTables : t.cmd = u.cmd := congrArg (·.2.2.2) h

end

section

variable (s : State)

/-- Beside the units that hold them, anything may change. -/
theorem State.printTables_keep (pending regs mem dram now stateSince fresh outbox log locks arbs evt time msix motion ppos mons
    lanes chain rings hostSize chk ingest job nvc eye insp spare latches pwr) :
    State.printTables ⟨pending, regs, mem, dram, now, stateSince, fresh, outbox, s.cmd, log, locks, arbs, evt, time, msix,
      motion, ppos, mons, lanes, chain, rings, hostSize, chk, ingest, job, s.bars, s.fire, nvc, eye, insp, s.noz, spare,
      latches, pwr⟩ = s.printTables := (rfl)

theorem State.printTables_ite {p : Prop} [Decidable p] {a b : State} (ha : a.printTables = s.printTables)
    (hb : b.printTables = s.printTables) : (if p then a else b).printTables = s.printTables := by
  split <;> assumption

/-! Single writes. -/

@[simp] theorem State.setFld_printTables (f : Fld) (v : Nat) : (s.setFld f v).printTables = s.printTables := (rfl)

@[simp] theorem State.bump_printTables (f : Fld) (n : Nat) : (s.bump f n).printTables = s.printTables :=
  State.setFld_printTables ..

@[simp] theorem State.setLane_printTables (l : Nat) (x : Lane) : (s.setLane l x).printTables = s.printTables := (rfl)

@[simp] theorem State.setNoz1_printTables (b x : Nat) (e : NozEntry) : (s.setNoz1 b x e).printTables = s.printTables := (rfl)

theorem State.setBoard_printTables {k : Nat} {x : Board} (h : x.profile = (s.board k).profile) :
    (s.setBoard k x).printTables = s.printTables := by
  have hprof : (fun j => ((s.setBoard k x).board j).profile) = fun j => (s.board j).profile := by
    funext j
    by_cases hj : j = k
    · rw [hj, ← h]
      exact congrArg Board.profile tabGet_put_self
    · exact congrArg Board.profile (tabGet_put_other hj)
  exact congrArg (fun p => (s.bars, p, fun b => (s.loopBar b).sub, s.cmd)) hprof

theorem State.setLoopBar_printTables {b : Nat} {x : LoopBar} (h : x.sub = (s.loopBar b).sub) :
    (s.setLoopBar b x).printTables = s.printTables := by
  have hsub : (fun j => ((s.setLoopBar b x).loopBar j).sub) = fun j => (s.loopBar j).sub := by
    funext j
    by_cases hj : j = b
    · rw [hj, ← h]
      exact congrArg LoopBar.sub tabGet_put_self
    · exact congrArg LoopBar.sub (tabGet_put_other hj)
  exact congrArg (fun p => (s.bars, fun k => (s.board k).profile, p, s.cmd)) hsub

@[simp] theorem State.raiseIf_printTables (en : Bool) (prod : Nat) (tag : Option Nat) :
    (s.raiseIf en prod tag).printTables = s.printTables := by
  rw [State.raiseIf]
  refine State.printTables_ite _ ?_ rfl
  rw [State.raise]
  refine State.printTables_ite _ ?_ (State.printTables_keep ..)
  rw [State.setFld_printTables, State.bump_printTables]

@[simp] theorem State.addRecord_printTables (r : Nat) (make : Nat → List Byte) :
    (s.addRecord r make).printTables = s.printTables := by
  rw [State.addRecord]
  exact State.printTables_ite _ rfl rfl

/-! Boards (Table 07-5). -/

@[simp] theorem State.boardOff_printTables (k : Nat) : (s.boardOff k).printTables = s.printTables := by
  simp only [State.boardOff, State.setCredits, State.setBst, State.setFld_printTables]
  exact State.setBoard_printTables _ rfl

@[simp] theorem State.boardTrain_printTables (k : Nat) : (s.boardTrain k).printTables = s.printTables := by
  have hsend (s : State) (l : Nat) (b : List Byte) : (s.headSend k l b).printTables = s.printTables := rfl
  rw [State.boardTrain]
  refine State.printTables_ite _ ?_ rfl
  rw [State.sendHello, State.boardSend, hsend]
  refine (State.setBoard_printTables _ ?_).trans (State.setFld_printTables ..)
  rfl

@[simp] theorem State.boardRefresh_printTables (k : Nat) : (s.boardRefresh k).printTables = s.printTables := by
  rw [State.boardRefresh]
  refine State.printTables_ite _ ?_ (State.printTables_ite _ (State.boardOff_printTables ..) rfl)
  rw [State.boardTrain_printTables, State.setBst, State.setFld_printTables]

@[simp] theorem State.boardsRefresh_printTables : s.boardsRefresh.printTables = s.printTables :=
  State.foldl_keeps State.printTables State.boardRefresh_printTables _ s

/-! Lanes (R337, R342). -/

@[simp] theorem State.linkSend_printTables (l kind arg : Nat) : (s.linkSend l kind arg).printTables = s.printTables := (rfl)

@[simp] theorem State.laneAbandon_printTables (l : Nat) : (s.laneAbandon l).printTables = s.printTables := by
  have hgrp (s : State) (g : Nat) (x : LaneGroup) : (s.setLaneGrp g x).printTables = s.printTables := rfl
  rw [State.laneAbandon]
  refine State.printTables_ite _ ?_ rfl
  rw [State.setFld_printTables, State.setFld_printTables, hgrp]

@[simp] theorem State.laneLeft_printTables (l : Nat) : (s.laneLeft l).printTables = s.printTables := by
  refine State.foldl_keeps State.printTables (fun s k => State.printTables_ite _ ?_ rfl) _ s
  rw [State.setBst, State.setFld_printTables]
  exact State.setBoard_printTables _ rfl

@[simp] theorem State.laneLose_printTables (l : Nat) : (s.laneLose l).printTables = s.printTables := by
  rw [State.laneLose, State.laneLeft_printTables, State.laneAbandon_printTables, State.setLane_printTables,
    State.setFld_printTables]
  refine State.printTables_ite _ ?_ rfl
  rw [State.bump_printTables, State.setFld_printTables]

@[simp] theorem State.laneOff_printTables (l : Nat) : (s.laneOff l).printTables = s.printTables := by
  simp only [State.laneOff, State.setLane_printTables, State.setFld_printTables, State.laneLose_printTables]

@[simp] theorem State.laneSleep_printTables (l : Nat) : (s.laneSleep l).printTables = s.printTables := by
  simp only [State.laneSleep, State.setLane_printTables, State.setFld_printTables, State.laneLose_printTables,
    State.linkSend_printTables]

@[simp] theorem State.laneToward_printTables (l : Nat) : (s.laneToward l).printTables = s.printTables := by
  have htrain (kept : Bool) : (s.laneTrain l kept).printTables = s.printTables := by
    rw [State.laneTrain, State.setLane_printTables, State.setFld_printTables]
  have hask (code : Nat) : (s.laneAsk l code).printTables = s.printTables := by
    rw [State.laneAsk, State.linkSend_printTables, State.setLane_printTables]
  rw [State.laneToward]
  repeat' split
  all_goals simp only [State.laneOff_printTables, State.laneSleep_printTables, State.setLane_printTables, htrain, hask]

@[simp] theorem State.laneRole_printTables (l r : Nat) : (s.laneRole l r).printTables = s.printTables := by
  rw [State.laneRole]
  repeat' split
  all_goals simp only [State.laneOff_printTables, State.laneToward_printTables, State.setFld_printTables]

/-! Nozzles (R241, R250, R254). -/

@[simp] theorem State.countEntry_printTables (state : Nat) : (s.countEntry state).printTables = s.printTables := by
  have hevent (s : State) (bit : Nat) (f : Fld) : (s.nozEvent bit f).printTables = s.printTables := by
    rw [State.nozEvent, State.raiseIf_printTables, State.setFld_printTables]
  rw [State.countEntry.eq_def]
  split
  · rw [hevent, State.bump_printTables]
  · rw [hevent]
  · rw [State.bump_printTables]
  · rfl

@[simp] theorem State.gather_printTables (f : Finding) (x : Nat) : (s.gather f x).printTables = s.printTables := by
  rw [State.gather]
  exact State.printTables_ite _ (State.setLoopBar_printTables _ rfl) rfl

@[simp] theorem State.nozRecord_printTables (f : Finding) (x old : Nat) (e : NozEntry) :
    (s.nozRecord f x old e).printTables = s.printTables := by
  rw [State.nozRecord, State.addRecord_printTables]

@[simp] theorem State.nozRewrite_printTables (b x : Nat) (e : NozEntry) :
    (s.nozRewrite b x e).printTables = s.printTables := by
  have hcount {p : Prop} [Decidable p] (s : State) :
      (if p then s else s.countEntry e.state).printTables = s.printTables :=
    State.printTables_ite _ rfl (State.countEntry_printTables ..)
  have hgather {p : Prop} [Decidable p] (s : State) (f : Finding) : (if p then s else s.gather f x).printTables = s.printTables :=
    State.printTables_ite _ rfl (State.gather_printTables ..)
  have hrecord {p : Prop} [Decidable p] (s : State) (f : Finding) (old : Nat) :
      (if p then s else s.nozRecord f x old e).printTables = s.printTables :=
    State.printTables_ite _ rfl (State.nozRecord_printTables ..)
  rw [State.nozRewrite, hrecord, hgather, hcount, State.setNoz1_printTables]

@[simp] theorem State.nozEnter_printTables (f : Finding) (x state conf : Nat) (hold : Bool) :
    (s.nozEnter f x state conf hold).printTables = s.printTables := by
  simp only [State.nozEnter, State.nozRecord_printTables, State.gather_printTables, State.countEntry_printTables,
    State.setNoz1_printTables]

@[simp] theorem State.holdBase_printTables (b : Nat) (sub : SubTable) : (s.holdBase b sub).printTables = s.printTables := by
  rw [State.holdBase]
  refine (State.foldl_keeps State.printTables (fun s d => ?_) _ _).trans
    (State.foldl_keeps State.printTables (fun s x => State.nozEnter_printTables ..) _ s)
  exact State.printTables_ite _ (State.setNoz1_printTables ..) (State.nozEnter_printTables ..)

@[simp] theorem State.calVerify_printTables (kind inst : Nat) : (s.calVerify kind inst).printTables = s.printTables := by
  have hlog (s : State) (code block inst : Nat) : (s.log1 code block inst).printTables = s.printTables := by
    rw [State.log1, State.printTables_keep, State.bumpWrap, State.setFld_printTables]
  have hpair (s : State) (p : CalPair) : (s.setCalPair kind inst p).printTables = s.printTables := rfl
  rw [State.calVerify]
  split
  · rfl
  · refine State.printTables_ite _ rfl ?_
    rw [hlog, hpair, State.setFld_printTables, State.bump_printTables]
    refine State.printTables_ite _ rfl ?_
    rw [State.setFld_printTables, State.bump_printTables]

@[simp] theorem State.restoreHealth_printTables (b : Nat) : (s.restoreHealth b).printTables = s.printTables := by
  have hnoz (s : State) (x y) : State.printTables { s with noz := { s.noz with health := x, dirty := y } } = s.printTables := rfl
  have hclear (s : State) : ((s.nozBar b).foldl (fun s e => s.nozRewrite b e.1 {}) s).printTables = s.printTables :=
    State.foldl_keeps State.printTables (fun _ _ => State.nozRewrite_printTables ..) _ s
  have hload (s : State) (l : List (Nat × NozEntry)) :
      (l.foldl (fun s e => s.nozRewrite b e.1 e.2) s).printTables = s.printTables :=
    State.foldl_keeps State.printTables (fun _ _ => State.nozRewrite_printTables ..) l s
  have hstart (s : State) : (((s.nozBar b).foldl (fun s e => s.nozRewrite b e.1 {}) s).calVerify 0x30 b).printTables =
      s.printTables := (State.calVerify_printTables ..).trans (hclear s)
  rw [State.restoreHealth]
  split
  · refine State.printTables_ite _ ?_ ?_
    · exact (hnoz ..).trans ((hload ..).trans ((hstart _).trans (hnoz ..)))
    · exact (hstart _).trans (hnoz ..)
  · exact (hstart _).trans (hnoz ..)

end

end Sys2Proof.Machine

/-! SUPPORT. The last chunk of a table of the PRINT domain (R104, R145, R147): what it hands over, on which state, and what
is answered. -/
namespace Sys2Proof.Machine

/-- What a table that is accepted whole is answered with (R104): its length and its CRC-32C. -/
def tableReply (tb : List Byte) : List Byte := leBytes 4 tb.length ++ leBytes 4 (crc32c tb)

/-- The state on which the last chunk hands its table over: `opened` where the chunk is the first one too, and nothing
staged any more. -/
def State.committing (s opened : State) (rq : Rq) (op : Nat) (c : Chunk) : State :=
  (if c.offset = 0 then opened else s.take rq).setStaged op c.inst {}

section

variable {s u opened : State} {rq : Rq} {op limit : Nat} {c : Chunk} {tb : List Byte} {body : State → State}
  {commit : List Byte → List Byte → State → State}

/-- A load without a bank. -/
theorem State.run_loadChunk_whole (h : s.ready rq op = true) (hi : c.inst < limit)
    (hj : judgeChunk false (s.staged op c.inst) c = .whole tb)
    (hbody : body (s.take rq) = (s.take rq).loadChunk rq op limit false c commit)
    (hcommit : commit tb (tableReply tb) ((s.take rq).setStaged op c.inst {}) = u.finish rq op scDone (tableReply tb)) :
    s.run rq op body = (u.finish rq op scDone (tableReply tb)).lift rq.sess rq.tag := by
  rw [State.run_ready body h, hbody, State.loadChunk_whole (s := s.take rq) (State.ready_reserved h) hi hj]
  exact congrArg (State.lift · rq.sess rq.tag) hcommit

/-- A load into a bank that is free when the load opens. -/
theorem State.run_loadTable_whole {inUse : Bool} {discard : State → State} (h : s.ready rq op = true)
    (hi : c.inst < limit) (hj : judgeChunk false (s.staged op c.inst) c = .whole tb)
    (hbody : body (s.take rq) = (s.take rq).loadTable rq op limit c inUse discard commit)
    (hfree : c.offset = 0 → inUse = false) (hcmd : opened.cmd = (s.take rq).cmd) (hopen : discard (s.take rq) = opened)
    (hcommit : commit tb (tableReply tb) (s.committing opened rq op c) = u.finish rq op scDone (tableReply tb)) :
    s.run rq op body = (u.finish rq op scDone (tableReply tb)).lift rq.sess rq.tag := by
  have hj' : judgeChunk false ((s.take rq).staged op c.inst) c = .whole tb := hj
  have hload (v : State) (hv : v.cmd = (s.take rq).cmd) : v.loadChunk rq op limit false c commit =
      commit tb (tableReply tb) (v.setStaged op c.inst {}) := by
    refine State.loadChunk_whole ((congrArg Slot.reserved (State.slot_of_cmd hv ..)).trans (State.ready_reserved h)) hi ?_
    rw [State.staged_of_staging (u := s) (by rw [hv]; rfl)]
    exact hj
  rw [State.loadTable, hj', State.ready_reserved h, hopen] at hbody
  rw [State.run_ready body h, hbody, ← hcommit, State.committing]
  by_cases h0 : c.offset = 0
  · simp only [h0, hi, hfree h0, decide_true, Option.isNone_none, Bool.and_self, Bool.and_false, Bool.false_eq_true,
      reduceIte, hload _ hcmd]
  · simp only [h0, decide_false, Bool.and_false, Bool.false_and, Bool.false_eq_true, reduceIte, hload _ rfl]

/-- The reply stands in the tag slot where the table's effect left the sessions alone. -/
theorem State.table_answered (h : s.ready rq op = true) (hu : u.cmd.sessions = s.cmd.sessions) :
    ((u.finish rq op scDone (tableReply tb)).lift rq.sess rq.tag).answered rq op scDone (tableReply tb) = true :=
  State.finish_lift_answered ((State.sessOpen_of_sessions (u := s.take rq) hu _).trans (State.ready_open h)) ..

end

/-! Tables that are staged in a bar's bank. -/

theorem State.take_loops (s : State) (rq : Rq) (b : Nat) : (s.take rq).barLoops b = s.barLoops b := (rfl)

theorem State.setStaged_bar (s : State) (op i b : Nat) (x : Staging) : (s.setStaged op i x).bar b = s.bar b := (rfl)

theorem State.setStaged_reg (s : State) (op i a : Nat) (x : Staging) : (s.setStaged op i x).reg a = s.reg a := (rfl)

theorem State.take_sessions (s : State) (rq : Rq) : (s.take rq).cmd.sessions = s.cmd.sessions := (rfl)

theorem State.setStaged_sessions (s : State) (op i : Nat) (x : Staging) :
    (s.setStaged op i x).cmd.sessions = s.cmd.sessions := (rfl)

section

variable {s : State} {rq : Rq} {op : Nat} {c : Chunk} {tb : List Byte} {drop put : DoseBank → DoseBank}

/-- The opening of a load discards what is pending of its kind. -/
def State.discards (s : State) (rq : Rq) (b : Nat) (drop : DoseBank → DoseBank) : State :=
  (s.take rq).setPend b (drop (s.bar b).pend)

theorem State.discards_cmd (b : Nat) : (s.discards rq b drop).cmd = (s.take rq).cmd := State.setPend_cmd ..

/-- The bar once a table's load has opened. -/
theorem State.committing_bar : (s.committing (s.discards rq c.inst drop) rq op c).bar c.inst =
    { s.bar c.inst with pend := if c.offset = 0 then drop (s.bar c.inst).pend else (s.bar c.inst).pend } := by
  rw [State.committing, State.setStaged_bar]
  split
  · rw [State.discards, State.bar_setPend]
    rfl
  · rfl

theorem State.committing_reg {b a : Nat} (h : a ≠ Reg.DOSE_BAR_STATUS b) :
    (s.committing (s.discards rq b drop) rq op c).reg a = s.reg a := by
  rw [State.committing, State.setStaged_reg]
  split
  · exact State.setPend_reg (s.take rq) b _ h
  · rfl

theorem State.committing_sessions (b : Nat) :
    (s.committing (s.discards rq b drop) rq op c).cmd.sessions = s.cmd.sessions := by
  rw [State.committing, State.setStaged_sessions]
  split
  · rw [State.discards_cmd, State.take_sessions]
  · rfl

/-- A bank's table waits there, its bar as before else (R145); block DOSE shows what `setPend` leaves. -/
theorem State.bank_staged (h : s.ready rq op = true) (hput : ∀ d, put (drop d) = put d)
    (hauto : s.flag (Reg.DOSE_BAR_CTRL_AUTO_SWAP c.inst) = false) :
    let u := s.committing (s.discards rq c.inst drop) rq op c
    let t := ((u.stageBank c.inst (put (u.bar c.inst).pend)).finish rq op scDone (tableReply tb)).lift rq.sess rq.tag
    t.answered rq op scDone (tableReply tb) = true ∧
      t.bar c.inst = { s.bar c.inst with pend := put (s.bar c.inst).pend } ∧
      ∀ f : Fld, inDose f.addr → t.fld f = (u.setPend c.inst (put (s.bar c.inst).pend)).fld f := by
  intro u t
  have hpend : put (u.bar c.inst).pend = put (s.bar c.inst).pend := by
    rw [State.committing_bar]
    dsimp only
    split
    · exact hput _
    · rfl
  have hctrl : Reg.DOSE_BAR_CTRL c.inst ≠ Reg.DOSE_BAR_STATUS c.inst := by
    rw [Reg.DOSE_BAR_CTRL, Reg.DOSE_BAR_STATUS]; omega
  have hwait : u.flag (Reg.DOSE_BAR_CTRL_AUTO_SWAP c.inst) = false :=
    (State.flag_of_fld (State.fld_of_reg (State.committing_reg hctrl))).trans hauto
  have ht : t = ((u.setPend c.inst (put (s.bar c.inst).pend)).finish rq op scDone (tableReply tb)).lift rq.sess rq.tag := by
    rw [← hpend, ← State.stageBank_waits _ _ _ hwait]
  rw [ht]
  refine ⟨State.table_answered h ?_, ?_, fun f hf => State.fld_of_reg (State.finish_lift_reg (inDose_not_answerRegs hf) ..)⟩
  · rw [State.setPend_cmd, State.committing_sessions]
  · rw [State.bar_of_bars (State.rest_bars (State.finish_lift_rest ..)), State.bar_setPend, State.committing_bar]

/-- Without the loop GAIN_LOAD and SUBSTITUTE_SET discard as the other loads do; under it they discard nothing (R250). -/
theorem State.discards_of_loops {b : Nat} (h : s.barLoops b = false) :
    (if (s.take rq).barLoops b then s.take rq else (s.take rq).setPend b (drop ((s.take rq).bar b).pend)) =
      s.discards rq b drop := if_neg (by rw [State.take_loops, h]; decide)

/-! The rules of the tables on the state that commits them. -/

theorem State.gainBad_of_map {u : State} {b : Nat} (h : (u.bar b).map = (s.bar b).map) (t : List Byte) :
    u.gainBad b t = s.gainBad b t := by
  rw [State.gainBad, State.barMapped, State.barN, h, State.gainBad, State.barMapped, State.barN]

theorem State.subBad_of_map {u : State} {b : Nat} (h : (u.bar b).map = (s.bar b).map)
    (hd : u.fld Reg.DOSE_CTRL_DEPTH = s.fld Reg.DOSE_CTRL_DEPTH) (t : List Byte) : u.subBad b t = s.subBad b t := by
  simp only [State.subBad, State.deep4, State.flag, h, hd]

theorem State.committing_map : ((s.committing (s.discards rq c.inst drop) rq op c).bar c.inst).map = (s.bar c.inst).map := by
  rw [State.committing_bar]

/-- Of a field outside DOSE_BARb_STATUS the commit sees what stood there. -/
theorem State.committing_fld {b : Nat} {f : Fld} (h : f.addr % 0x20 ≠ 0x14) :
    (s.committing (s.discards rq b drop) rq op c).fld f = s.fld f :=
  State.fld_of_reg (State.committing_reg fun e => h (by rw [e, Reg.DOSE_BAR_STATUS]; omega))

theorem State.committing_loops (b : Nat) :
    (s.committing (s.discards rq b drop) rq op c).barLoops = s.barLoops := by
  funext j
  rw [State.barLoops, State.committing_fld (by decide), State.barLoops]

/-- Under the loop nothing is discarded. -/
theorem State.committing_self : s.committing (s.take rq) rq op c = (s.take rq).setStaged op c.inst {} := by
  rw [State.committing, ite_self]

end

/-! What is judged of a table does not depend on the command unit. -/

theorem judge_withCmd : ∀ r ∈ cfgRules, ∀ ws (s : State) (c : CmdUnit), r.judge ws { s with cmd := c } = r.judge ws s := by
  simp only [cfgRules, List.forall_mem_cons]
  refine ⟨?_, ?_, ?_, ?_, ?_, ?_, ?_, ?_, ?_, ?_, ?_, ?_, ?_, ?_, ?_, ?_, ?_, ?_, ?_, ?_, ?_, fun _ h =>
    absurd h List.not_mem_nil⟩
  all_goals exact fun _ _ _ => rfl

theorem firstBroken_withCmd (pick : CfgRule → Bool) (ws : List Nat) (s : State) (c : CmdUnit) :
    firstBroken pick ws { s with cmd := c } = firstBroken pick ws s := by
  rw [firstBroken, firstBroken, ← List.head?_filterMap, ← List.head?_filterMap]
  refine congrArg List.head? (List.filterMap_congr fun r hr => ?_)
  rw [judge_withCmd r (List.mem_of_mem_filter hr)]

theorem State.rateBroken_withCmd (s : State) (c : CmdUnit) : State.rateBroken { s with cmd := c } = s.rateBroken := by
  rw [State.rateBroken, firstBroken_withCmd, State.rateBroken]

theorem State.profBad_withCmd (s : State) (c : CmdUnit) (k : Nat) (t : List Byte) :
    State.profBad { s with cmd := c } k t = s.profBad k t := by
  have hfields : State.profFields { s with cmd := c } k t = s.profFields k t := rfl
  have hplan : State.profPlan { s with cmd := c } k t = s.profPlan k t := rfl
  have htimes : State.profTimes { s with cmd := c } t = s.profTimes t := rfl
  have hbar : State.boardBar { s with cmd := c } k = s.boardBar k := rfl
  have hrate : (State.withProfile { s with cmd := c } k t).rateBroken = (s.withProfile k t).rateBroken :=
    State.rateBroken_withCmd (s.withProfile k t) c
  rw [State.profBad, hfields, hplan, htimes, hbar, hrate, State.profBad]

theorem State.mapBad_withCmd (s : State) (c : CmdUnit) (b : Nat) (t : List Byte) :
    State.mapBad { s with cmd := c } b t = s.mapBad b t := rfl

theorem State.loadsFit_withCmd (s : State) (c : CmdUnit) : State.loadsFit { s with cmd := c } = s.loadsFit := rfl

theorem State.baseOver_withCmd (s : State) (c : CmdUnit) (b : Nat) (sub : SubTable) :
    State.baseOver { s with cmd := c } b sub = s.baseOver b sub := rfl

/-! Maps and profiles in force (R137, R165). -/

section

variable (s : State)

theorem State.mapInForce_printTables (b : Nat) (t : List Byte) :
    (s.mapInForce b t).printTables = (s.withMap b (readMap t) (crc32c t)).printTables := by
  have hshow (s : State) : s.showNozzles.printTables = s.printTables := by
    rw [State.showNozzles, State.setFld_printTables, State.setFld_printTables]
  have hfill (s : State) : (s.showFill b).printTables = s.printTables := by
    rw [State.showFill, State.setFlag, State.setFld_printTables, State.setFld_printTables]
  rw [State.mapInForce, State.showStackMax, State.setFld_printTables, hfill, State.boardsRefresh_printTables,
    State.restoreHealth_printTables, hshow]
  exact State.setLoopBar_printTables _ rfl

theorem State.mapInForce_bar (b : Nat) (t : List Byte) :
    (s.mapInForce b t).bar b = { s.bar b with map := readMap t, mapCrc := crc32c t } :=
  (State.bar_of_bars (State.bars_of_printTables (s.mapInForce_printTables b t)) b).trans (State.bar_setBar ..)

theorem State.profileInForce_printTables (k : Nat) (t : List Byte) :
    (s.profileInForce k t).printTables = ((s.boardOff k).withProfile k t).printTables := by
  have hroles (r : Nat) (l : List Nat) (s : State) : (l.foldl (fun s l => s.laneRole l r) s).printTables = s.printTables :=
    State.foldl_keeps State.printTables (fun _ _ => State.laneRole_printTables ..) l s
  rw [State.profileInForce, State.showStackMax, State.setFld_printTables, State.boardRefresh_printTables, hroles, hroles]

theorem State.loopBar_setLoopBar (b : Nat) (x : LoopBar) : (s.setLoopBar b x).loopBar b = x := tabGet_put_self

theorem State.board_setBoard (k : Nat) (x : Board) : (s.setBoard k x).board k = x := tabGet_put_self

theorem State.withMap_cmd (b : Nat) (m : List MapEntry) (crc : Nat) : (s.withMap b m crc).cmd = s.cmd := (rfl)

theorem State.mapInForce_cmd (b : Nat) (t : List Byte) : (s.mapInForce b t).cmd = s.cmd := by
  rw [State.cmd_of_printTables (s.mapInForce_printTables b t), State.withMap_cmd]

theorem State.withProfile_cmd (k : Nat) (t : List Byte) : (s.withProfile k t).cmd = s.cmd := (rfl)

theorem State.profileInForce_profile (k : Nat) (t : List Byte) : ((s.profileInForce k t).board k).profile = some t := by
  rw [State.profile_of_printTables (s.profileInForce_printTables k t), State.withProfile, State.board_setBoard]

theorem State.profileInForce_cmd (k : Nat) (t : List Byte) : (s.profileInForce k t).cmd = s.cmd := by
  rw [State.cmd_of_printTables (s.profileInForce_printTables k t), State.withProfile_cmd,
    State.cmd_of_printTables (s.boardOff_printTables k)]

end

/-! The commands. -/

section

variable {s : State} {rq : Rq} {c : Chunk} {tb : List Byte}

theorem execNozzleMapLoad_whole (h : s.ready rq 0x0121 = true) (hi : c.inst < 16)
    (hj : judgeChunk false (s.staged 0x0121 c.inst) c = .whole tb) (hbad : s.mapBad c.inst tb = none)
    (hfit : (s.withMap c.inst (readMap tb) 0).loadsFit = none) : execNozzleMapLoad rq c s =
      .next (((((s.take rq).setStaged 0x0121 c.inst {}).mapInForce c.inst tb).finish rq 0x0121 scDone
        (tableReply tb)).lift rq.sess rq.tag) := by
  have hbad' : ((s.take rq).setStaged 0x0121 c.inst {}).mapBad c.inst tb = none :=
    (State.mapBad_withCmd s _ _ _).trans hbad
  have hfit' : (((s.take rq).setStaged 0x0121 c.inst {}).withMap c.inst (readMap tb) 0).loadsFit = none :=
    (State.loadsFit_withCmd (s.withMap c.inst (readMap tb) 0) _).trans hfit
  exact congrArg Host.Outcome.next (State.run_loadChunk_whole h hi hj rfl (by rw [hbad', hfit']))

theorem execBoardProfileLoad_whole (h : s.ready rq 0x0126 = true) (hi : c.inst < 48)
    (hj : judgeChunk false (s.staged 0x0126 c.inst) c = .whole tb) (hbad : s.profBad c.inst tb = none) :
    execBoardProfileLoad rq c s =
      .next (((((s.take rq).setStaged 0x0126 c.inst {}).profileInForce c.inst tb).finish rq 0x0126 scDone
        (tableReply tb)).lift rq.sess rq.tag) := by
  have hbad' : ((s.take rq).setStaged 0x0126 c.inst {}).profBad c.inst tb = none :=
    (State.profBad_withCmd s _ _ _).trans hbad
  exact congrArg Host.Outcome.next (State.run_loadChunk_whole h hi hj rfl (by rw [hbad']))

theorem execGainLoad_bank (h : s.ready rq 0x0125 = true) (hi : c.inst < 16)
    (hj : judgeChunk false (s.staged 0x0125 c.inst) c = .whole tb) (hbad : s.gainBad c.inst tb = none)
    (hoff : s.barLoops c.inst = false) (hfree : c.offset = 0 → s.bankInUse c.inst = false) : execGainLoad rq c s =
      let u := s.committing (s.discards rq c.inst fun d => { d with gain := none }) rq 0x0125 c
      .next (((u.stageBank c.inst { (u.bar c.inst).pend with gain := some (halves tb) }).finish rq 0x0125 scDone
        (tableReply tb)).lift rq.sess rq.tag) := by
  have hopen := State.discards_of_loops (rq := rq) (drop := fun d => { d with gain := none }) hoff
  refine congrArg Host.Outcome.next (State.run_loadTable_whole h hi hj rfl
    (fun h0 => bankFree_of_loops (.inr (hfree h0))) (State.discards_cmd _) hopen ?_)
  simp only [State.gainBad_of_map State.committing_map, hbad, State.committing_loops, hoff, Bool.false_eq_true, reduceIte]

theorem execSubstituteSet_bank (h : s.ready rq 0x0123 = true) (hi : c.inst < 16)
    (hj : judgeChunk false (s.staged 0x0123 c.inst) c = .whole tb) (hbad : s.subBad c.inst tb = none)
    (hoff : s.barLoops c.inst = false) (hfree : c.offset = 0 → s.bankInUse c.inst = false) : execSubstituteSet rq c s =
      let u := s.committing (s.discards rq c.inst fun d => { d with sub := none }) rq 0x0123 c
      .next (((u.stageBank c.inst { (u.bar c.inst).pend with sub := some (readSub tb) }).finish rq 0x0123 scDone
        (tableReply tb)).lift rq.sess rq.tag) := by
  have hopen := State.discards_of_loops (rq := rq) (drop := fun d => { d with sub := none }) hoff
  refine congrArg Host.Outcome.next (State.run_loadTable_whole h hi hj rfl
    (fun h0 => bankFree_of_loops (.inr (hfree h0))) (State.discards_cmd _) hopen ?_)
  have hdepth : (s.committing (s.discards rq c.inst fun d => { d with sub := none }) rq 0x0123 c).fld Reg.DOSE_CTRL_DEPTH =
      s.fld Reg.DOSE_CTRL_DEPTH := State.committing_fld (by decide)
  simp only [State.subBad_of_map State.committing_map hdepth, hbad, State.committing_loops, hoff, Bool.false_eq_true,
    reduceIte]

theorem execGainLoad_loop (h : s.ready rq 0x0125 = true) (hi : c.inst < 16)
    (hj : judgeChunk false (s.staged 0x0125 c.inst) c = .whole tb) (hbad : s.gainBad c.inst tb = none)
    (hon : s.barLoops c.inst = true) : execGainLoad rq c s =
      let u := (s.take rq).setStaged 0x0125 c.inst {}
      .next (((u.setLoopBar c.inst { u.loopBar c.inst with gain := some (halves tb) }).finish rq 0x0125 scDone
        (tableReply tb)).lift rq.sess rq.tag) := by
  have hbad' : ((s.take rq).setStaged 0x0125 c.inst {}).gainBad c.inst tb = none := hbad
  have hon' : ((s.take rq).setStaged 0x0125 c.inst {}).barLoops c.inst = true := hon
  refine congrArg Host.Outcome.next (State.run_loadTable_whole (opened := s.take rq) h hi hj rfl
    (fun _ => bankFree_of_loops (.inl hon)) rfl (if_pos hon) ?_)
  rw [State.committing_self, hbad', hon']
  rfl

theorem execSubstituteSet_loop (h : s.ready rq 0x0123 = true) (hi : c.inst < 16)
    (hj : judgeChunk false (s.staged 0x0123 c.inst) c = .whole tb) (hbad : s.subBad c.inst tb = none)
    (hon : s.barLoops c.inst = true) (hover : s.baseOver c.inst (readSub tb) = none) : execSubstituteSet rq c s =
      let u := (s.take rq).setStaged 0x0123 c.inst {}
      .next ((((u.setLoopBar c.inst { u.loopBar c.inst with sub := readSub tb }).holdBase c.inst (readSub tb)).finish
        rq 0x0123 scDone (tableReply tb)).lift rq.sess rq.tag) := by
  have hbad' : ((s.take rq).setStaged 0x0123 c.inst {}).subBad c.inst tb = none := hbad
  have hon' : ((s.take rq).setStaged 0x0123 c.inst {}).barLoops c.inst = true := hon
  have hover' : ((s.take rq).setStaged 0x0123 c.inst {}).baseOver c.inst (readSub tb) = none :=
    (State.baseOver_withCmd s _ _ _).trans hover
  refine congrArg Host.Outcome.next (State.run_loadTable_whole (opened := s.take rq) h hi hj rfl
    (fun _ => bankFree_of_loops (.inl hon)) rfl (if_pos hon) ?_)
  rw [State.committing_self, hbad']
  dsimp only
  rw [hon', hover']
  rfl

end

/-- Settles O34: each table by the load that it uses and by what the commit leaves of its bar, board or loop. -/
theorem printTablesComplete : Obligations.PrintTablesComplete := by
  refine ⟨?map, ?profile, ?thr, ?curve, ?gain, ?loopGain, ?sub, ?loopSub, ?limit⟩
  case map =>
    intro s rq c tb h hi hj hbad hfit
    have hopen : (((s.take rq).setStaged 0x0121 c.inst {}).mapInForce c.inst tb).cmd.sessions = s.cmd.sessions := by
      rw [State.mapInForce_cmd, State.setStaged_sessions, State.take_sessions]
    have hbar (u : State) : (((u.mapInForce c.inst tb).finish rq 0x0121 scDone (tableReply tb)).lift rq.sess rq.tag).bar
        c.inst = { u.bar c.inst with map := readMap tb, mapCrc := crc32c tb } :=
      (State.bar_of_bars (State.rest_bars (State.finish_lift_rest ..)) _).trans (u.mapInForce_bar c.inst tb)
    exact ⟨_, execNozzleMapLoad_whole h hi hj hbad hfit, State.table_answered h hopen, congrArg Bar.map (hbar _),
      congrArg Bar.mapCrc (hbar _)⟩
  case profile =>
    intro s rq c tb h hi hj hbad
    have hopen : (((s.take rq).setStaged 0x0126 c.inst {}).profileInForce c.inst tb).cmd.sessions = s.cmd.sessions := by
      rw [State.profileInForce_cmd, State.setStaged_sessions, State.take_sessions]
    refine ⟨_, execBoardProfileLoad_whole h hi hj hbad, State.table_answered h hopen, ?_⟩
    rw [State.board, State.rest_fire (State.finish_lift_rest ..)]
    exact State.profileInForce_profile ..
  case thr =>
    intro s rq c tb h hi hj hbad hfree hauto
    obtain ⟨ha, hbar, hshown⟩ := State.bank_staged (op := 0x0122) (tb := tb) (drop := fun d => { d with thr := none })
      (put := fun d => { d with thr := some (readThreshold tb) }) h (fun _ => rfl) hauto
    refine ⟨_, congrArg Host.Outcome.next (State.run_loadTable_whole h hi hj rfl hfree (State.setPend_cmd ..) rfl ?_),
      ha, hbar, (hshown _ (inDose_of_bar (o := 0x14) hi (by decide))).trans (State.setPend_thrPend ..)⟩
    rw [hbad]
    rfl
  case curve =>
    intro s rq c tb h hi hj hbad hfree hauto
    obtain ⟨ha, hbar, hshown⟩ := State.bank_staged (op := 0x0124) (tb := tb) (drop := fun d => { d with curve := none })
      (put := fun d => { d with curve := some (halves tb) }) h (fun _ => rfl) hauto
    refine ⟨_, congrArg Host.Outcome.next (State.run_loadTable_whole h hi hj rfl hfree (State.setPend_cmd ..) rfl ?_),
      ha, hbar, (hshown _ (inDose_of_bar (o := 0x14) hi (by decide))).trans (State.setPend_curvePend ..)⟩
    rw [hbad]
    rfl
  case gain =>
    intro s rq c tb h hi hj hbad hoff hfree hauto
    obtain ⟨ha, hbar, hshown⟩ := State.bank_staged (op := 0x0125) (tb := tb) (drop := fun d => { d with gain := none })
      (put := fun d => { d with gain := some (halves tb) }) h (fun _ => rfl) hauto
    exact ⟨_, execGainLoad_bank h hi hj hbad hoff hfree, ha, hbar,
      (hshown _ (inDose_of_bar (o := 0x14) hi (by decide))).trans (State.setPend_gainPend ..)⟩
  case loopGain =>
    intro s rq c tb h hi hj hbad hon
    refine ⟨_, execGainLoad_loop h hi hj hbad hon, State.table_answered h rfl, ?_, ?_⟩
    · rw [State.loopBar, State.rest_noz (State.finish_lift_rest ..)]
      exact State.loopBar_setLoopBar ..
    · rw [State.rest_bars (State.finish_lift_rest ..)]
      rfl
  case sub =>
    intro s rq c tb h hi hj hbad hoff hfree hauto
    obtain ⟨ha, hbar, hshown⟩ := State.bank_staged (op := 0x0123) (tb := tb) (drop := fun d => { d with sub := none })
      (put := fun d => { d with sub := some (readSub tb) }) h (fun _ => rfl) hauto
    exact ⟨_, execSubstituteSet_bank h hi hj hbad hoff hfree, ha, hbar,
      (hshown _ (inDose_of_bar (o := 0x14) hi (by decide))).trans (State.setPend_subPend ..)⟩
  case loopSub =>
    intro s rq c tb h hi hj hbad hon hover
    let u := (s.take rq).setStaged 0x0123 c.inst {}
    let v := u.setLoopBar c.inst { u.loopBar c.inst with sub := readSub tb }
    have hkept : (v.holdBase c.inst (readSub tb)).printTables = v.printTables := State.holdBase_printTables ..
    have hopen : (v.holdBase c.inst (readSub tb)).cmd.sessions = s.cmd.sessions := by
      rw [State.cmd_of_printTables hkept]
      rfl
    refine ⟨_, execSubstituteSet_loop h hi hj hbad hon hover, State.table_answered h hopen, ?_, ?_⟩
    · rw [State.loopBar, State.rest_noz (State.finish_lift_rest ..)]
      exact (State.loopSub_of_printTables hkept c.inst).trans (congrArg LoopBar.sub (State.loopBar_setLoopBar ..))
    · rw [State.rest_bars (State.finish_lift_rest ..), State.bars_of_printTables (State.holdBase_printTables ..)]
      rfl
  case limit =>
    intro s v hst hlo hhi hfit
    refine ⟨_, congrArg Host.Outcome.next ?_, State.fld_setFld (Fld.fits_of_decide rfl) (show v < 2 ^ 8 by omega),
      fun a ha => State.reg_setFld_other ha⟩
    simp [hst, hlo, hhi, hfit]

end Sys2Proof.Machine

/-! SUPPORT. Dose expansion (R139, R140, R154, R155): what a swap request, a slice and the end of an image line leave of the
bars and of the registers. -/
namespace Sys2Proof.Machine

/-! What the frames fired and the slots free depend on (R154, R155). -/

section

variable {s t : State}

/-- Of the bars, only the maps count. -/
theorem State.boardUsed_of_map (hmap : ∀ j, (t.bar j).map = (s.bar j).map) (hf : t.fire = s.fire) :
    t.boardUsed = s.boardUsed := by
  funext k
  simp only [State.boardUsed, State.hasProf, State.board, State.boardBar, hmap, hf]

theorem State.barFired_of_map (hmap : ∀ j, (t.bar j).map = (s.bar j).map) (hf : t.fire = s.fire) (b : Nat) :
    t.barFired b = s.barFired b := by
  simp only [State.barFired, State.boardUsed_of_map hmap hf, State.barBoards, State.board, hmap, hf]

@[simp] theorem State.setFld_barFired (f : Fld) (v b : Nat) : (s.setFld f v).barFired b = s.barFired b :=
  State.barFired_of_map (fun _ => rfl) rfl b

theorem State.slotFree_setFld {b : Nat} {g : Fld} (hbuf : Reg.DOSE_BAR_BUF b ≠ g.addr) (hjig : Reg.JIG_CTRL ≠ g.addr)
    (v f : Nat) : (s.setFld g v).slotFree b f = s.slotFree b f := by
  have hlines : (s.setFld g v).fld (Reg.DOSE_BAR_BUF_LINES b) = s.fld (Reg.DOSE_BAR_BUF_LINES b) :=
    State.fld_of_reg (State.reg_setFld_other hbuf)
  have henable : (s.setFld g v).flag Reg.JIG_CTRL_ENABLE = s.flag Reg.JIG_CTRL_ENABLE :=
    State.flag_of_fld (State.fld_of_reg (State.reg_setFld_other hjig))
  have hports : (s.setFld g v).registered = s.registered := rfl
  have hmodel : (s.setFld g v).modelBars = s.modelBars := rfl
  simp only [State.slotFree, State.rendersBar, hlines, henable, State.setFld_barFired, hports, hmodel, State.bar_of_bars (State.setFld_bars ..)]

end

/-! Swaps (R145, R146). -/

section

variable {s : State} {b : Nat}

theorem State.swapRequest_expanding (hp : (s.bar b).hasPending = true) (he : s.expanding b = true) :
    s.swapRequest b = s.setFld (Reg.DOSE_BAR_STATUS_SWAP_PEND b) 1 := by
  rw [State.swapRequest, hp, he]
  rfl

theorem State.swapRequest_at_once (hp : (s.bar b).hasPending = true) (he : s.expanding b = false) :
    s.swapRequest b = s.swapBar b := by
  rw [State.swapRequest, hp, he]
  rfl

theorem State.swapDue_boundary (h : s.flag (Reg.DOSE_BAR_STATUS_SWAP_PEND b) = true) (hs : (s.bar b).slice = 0) :
    s.swapDue b = s.swapBar b := by
  rw [State.swapDue, h, hs]
  rfl

theorem State.swapDue_idle (h : s.flag (Reg.DOSE_BAR_STATUS_SWAP_PEND b) = false) : s.swapDue b = s := by
  rw [State.swapDue, h]
  rfl

end

/-! Waits (Table 06-15). -/

section

variable {s : State} {shown count : Fld}

theorem State.waitAt_shows (hone : shown.width = 1) (hfits : shown.fits) (h : count.clearOf shown = true) :
    (s.waitAt shown count).fld shown = 1 := by
  have hlt : s.fld shown < 2 ^ 1 := hone ▸ s.fld_lt shown
  rw [State.waitAt]
  split
  case isTrue hon =>
    have hne : s.fld shown ≠ 0 := bne_iff_ne.mp hon
    omega
  case isFalse =>
    rw [State.bump, State.fld_setFld_clear h]
    exact State.fld_setFld hfits (by rw [hone]; decide)

theorem State.waitAt_bars : (s.waitAt shown count).bars = s.bars := by
  rw [State.waitAt]
  split
  · rfl
  · rw [State.bump_bars, State.setFld_bars]

end

/-! The end of an image line (R128, R140). -/

theorem State.endLine_bar (s : State) (b : Nat) (e : Entry) :
    ((s.endLine b e).bar b).slice = 0 ∧ ((s.endLine b e).bar b).line = (s.bar b).line + 1 ∧
      ((s.endLine b e).bar b).screened = [] ∧
      ((s.endLine b e).bar b).lines.head?.map DoseLine.line = some (s.bar b).line := by
  have hlost {p : Prop} [Decidable p] (u : State) (n : Nat) (en : Bool) : (if p then u else
      ((u.bump Reg.DOSE_CNT_SUBLOST_COUNT n).setFld Reg.DOSE_EVENTS_SUB_LOST 1).raiseIf en 56).bars = u.bars := by
    split
    · rfl
    · rw [State.raiseIf_bars, State.setFld_bars, State.bump_bars]
  have hfree {p : Prop} [Decidable p] (u : State) : (if p then u.releasePages else u).bars = u.bars := by
    split <;> rfl
  rw [State.endLine, State.bar_of_bars ((hfree _).trans (hlost ..)) b, State.bar_setBar]
  exact ⟨rfl, rfl, rfl, rfl⟩

/-! A slice (R139, R149). -/

section

variable {s : State} {b : Nat} (e : Entry) (page : Page) (check : CheckRun)

/-- A slice that is not the last of its image line. -/
theorem State.runSlice_more (h : 1024 * (s.bar b).slice + 1024 < (s.bar b).map.length) :
    ((s.runSlice b e page check).bar b).slice = (s.bar b).slice + 1 ∧
      ((s.runSlice b e page check).bar b).line = (s.bar b).line ∧
      ((s.runSlice b e page check).bar b).screened.length = (s.bar b).screened.length + 1024 ∧
      (s.runSlice b e page check).fld (Reg.DOSE_BAR_STATUS_WAIT_QUEUE b) = 0 ∧
      (s.runSlice b e page check).fld (Reg.DOSE_BAR_STATUS_WAIT_BUF b) = 0 := by
  have hqueue (u : State) : ((u.setFld (Reg.DOSE_BAR_STATUS_WAIT_QUEUE b) 0).setFld (Reg.DOSE_BAR_STATUS_WAIT_BUF b) 0).fld
      (Reg.DOSE_BAR_STATUS_WAIT_QUEUE b) = 0 := by
    rw [State.fld_setFld_clear (Fld.clearOf_of_bits (by rfl))]
    exact State.fld_setFld (Fld.fits_of_decide rfl) (Nat.two_pow_pos _)
  have hbuf (u : State) : (u.setFld (Reg.DOSE_BAR_STATUS_WAIT_BUF b) 0).fld (Reg.DOSE_BAR_STATUS_WAIT_BUF b) = 0 :=
    State.fld_setFld (Fld.fits_of_decide rfl) (Nat.two_pow_pos _)
  have hnew : min 1024 ((s.bar b).map.length - 1024 * (s.bar b).slice) = 1024 := by omega
  rw [State.runSlice.eq_def]
  cases hstart : decide ((s.bar b).pline = 0) && decide ((s.bar b).slice = 0)
  all_goals
    simp only [hstart, Bool.false_eq_true, reduceIte, if_neg (Nat.not_le.mpr h), State.bar_of_bars (State.setFld_bars ..),
      State.bar_setBar, List.length_append, List.length_map, List.length_range, hnew, hqueue, hbuf, and_self]

/-- The last slice of an image line. -/
theorem State.runSlice_last (h : (s.bar b).map.length ≤ 1024 * (s.bar b).slice + 1024) :
    ((s.runSlice b e page check).bar b).slice = 0 ∧
      ((s.runSlice b e page check).bar b).line = (s.bar b).line + 1 ∧
      ((s.runSlice b e page check).bar b).screened = [] ∧
      ((s.runSlice b e page check).bar b).lines.head?.map DoseLine.line = some (s.bar b).line := by
  have hended (u : State) (x : Bar) (hu : u.bar b = x) (hx : x.line = (s.bar b).line) :
      ((u.endLine b e).bar b).slice = 0 ∧ ((u.endLine b e).bar b).line = (s.bar b).line + 1 ∧
        ((u.endLine b e).bar b).screened = [] ∧
        ((u.endLine b e).bar b).lines.head?.map DoseLine.line = some (s.bar b).line := by
    rw [← hx, ← hu]
    exact State.endLine_bar u b e
  rw [State.runSlice.eq_def]
  cases hstart : decide ((s.bar b).pline = 0) && decide ((s.bar b).slice = 0)
  all_goals
    simp only [hstart, Bool.false_eq_true, reduceIte, if_pos h]
    exact hended _ _ ((State.bar_of_bars ((State.setFld_bars ..).trans (State.setFld_bars ..)) b).trans
      (State.bar_setBar ..)) rfl

end

section

variable {s : State} {b : Nat} {e : Entry} {p : Page}

theorem State.lt_of_barRuns (h : s.barRuns b = true) : b < 16 := by
  simp only [State.barRuns, Bool.and_eq_true, decide_eq_true_eq] at h
  exact h.1.1.1

/-- The state on which a slice is read. -/
abbrev State.unqueued (s : State) (b : Nat) : State := s.setFld (Reg.DOSE_BAR_STATUS_WAIT_QUEUE b) 0

theorem State.unqueued_reg {a : Nat} (h : a ≠ Reg.DOSE_BAR_STATUS b) : (s.unqueued b).reg a = s.reg a :=
  State.reg_setFld_other h

theorem State.unqueued_slotFree (hb : b < 16) (f : Nat) : (s.unqueued b).slotFree b f = s.slotFree b f := by
  refine State.slotFree_setFld ?_ ?_ 0 f
  · rw [Reg.DOSE_BAR_BUF, Reg.DOSE_BAR_STATUS_WAIT_QUEUE]
    show 0x100008 + 0x20 * b ≠ 0x100014 + 0x20 * b
    omega
  · show Reg.JIG_CTRL ≠ 0x100014 + 0x20 * b
    rw [Reg.JIG_CTRL]
    omega

theorem State.bar_readSlice (s : State) (b j : Nat) (p : Page) : (s.readSlice b p).1.bar j = s.bar j :=
  State.bar_of_bars (State.bars_of_printUnits (State.readSlice_printUnits ..)) j

variable (hr : s.barRuns b = true) (hp : s.flag (Reg.DOSE_BAR_STATUS_SWAP_PEND b) = false) (he : s.entryOf b = some e)
include hr hp he

theorem State.sliceExpand_waits (hpage : s.pageOf e = none) (check : CheckRun) : execSliceExpand b check s =
    .next (s.waitAt (Reg.DOSE_BAR_STATUS_WAIT_QUEUE b) Reg.DOSE_CNT_QWAIT_COUNT) := by
  rw [execSliceExpand, hr, State.swapDue_idle hp]
  simp only [Bool.not_true, Bool.false_eq_true, reduceIte, he, hpage]

/-- A slice runs where its page is stored, and neither the Concertina (R155) nor the buffer (R154) holds it. -/
theorem State.sliceExpand_runs (hpage : s.pageOf e = some p)
    (hconc : (s.bar b).firstFrame (s.bar b).line < s.barFired b + s.fld (Reg.DOSE_BAR_CONC_MAX b))
    (hfree : s.slotFree b ((s.bar b).firstFrame (s.bar b).line) = true) (check : CheckRun) :
    ∃ (u : State) (check' : CheckRun), u.bar b = s.bar b ∧ execSliceExpand b check s = .next (u.runSlice b e p check') := by
  have hfired : (s.unqueued b).barFired b = s.barFired b := State.setFld_barFired ..
  have hmax : (s.unqueued b).fld (Reg.DOSE_BAR_CONC_MAX b) = s.fld (Reg.DOSE_BAR_CONC_MAX b) :=
    State.fld_of_reg (State.unqueued_reg (by
      rw [Reg.DOSE_BAR_STATUS, Reg.DOSE_BAR_CONC_MAX]
      show 0x10000c + 0x20 * b ≠ 0x100014 + 0x20 * b
      omega))
  have hslot : (s.unqueued b).slotFree b ((s.bar b).firstFrame (s.bar b).line) = true :=
    (State.unqueued_slotFree (State.lt_of_barRuns hr) _).trans hfree
  have hbar : (s.unqueued b).bar b = s.bar b := State.bar_of_bars (State.setFld_bars ..) b
  refine ⟨((s.unqueued b).readSlice b p).1, if ((s.unqueued b).readSlice b p).2 then lostInput check else check,
    (State.bar_readSlice ..).trans hbar, ?_⟩
  rw [execSliceExpand, hr, State.swapDue_idle hp]
  simp only [Bool.not_true, Bool.false_eq_true, reduceIte, he, hpage, hbar, hfired, hmax, hslot, if_neg (Nat.not_le.mpr hconc)]

end

end Sys2Proof.Machine

/-! SUPPORT. Frames written to the bar buffers (R141, R151 to R155): what they leave of the print units, and where their
bytes and descriptors lie. -/
namespace Sys2Proof.Machine

/-! The print units. -/

section

variable (s : State)

@[simp] theorem State.storeCopies_printUnits (at_ : Bool → Nat) (bytes : List Byte) :
    (s.storeCopies at_ bytes).printUnits = s.printUnits :=
  foldl_printUnits _ (fun _ _ => State.writeMem_printUnits ..) _ s

@[simp] theorem State.writeFrame_printUnits (b k f : Nat) (x : BoardFrame) :
    (s.writeFrame b k f x).printUnits = s.printUnits :=
  (State.storeCopies_printUnits ..).trans (State.storeCopies_printUnits ..)

@[simp] theorem State.boardFrame_printUnits (b f : Nat) (checks : List (Nat × CheckRun)) (k : Nat) :
    (s.boardFrame b f checks k).printUnits = s.printUnits := by
  rw [State.boardFrame.eq_def]
  dsimp only
  repeat' split
  all_goals
    simp only [State.writeFrame_printUnits, State.blanked_printUnits, State.bump_printUnits, State.checked_printUnits]

theorem State.boardFrames_printUnits (b f : Nat) (checks : List (Nat × CheckRun)) (l : List Nat) :
    (l.foldl (fun s k => s.boardFrame b f checks k) s).printUnits = s.printUnits :=
  foldl_printUnits _ (fun _ _ => State.boardFrame_printUnits ..) l s

end

/-! Writes of whole code words (R318): no word is read first, so that only an injection shows in the registers (R323). -/

/-- A word listed as bad overlaps the bytes. -/
theorem State.overlap_of_badWords {s : State} {a n w : Nat} (h : w ∈ s.badWords a n) : a < 16 * w + 16 ∧ 16 * w < a + n := by
  have hkeep : ∀ l : List Nat, w ∈ l.foldr
      (fun w acc => if acc.contains w then acc else (acc.takeWhile (· < w)) ++ w :: acc.dropWhile (· < w)) [] → w ∈ l := by
    intro l
    induction l with
    | nil => exact id
    | cons v l ih =>
      rw [List.foldr_cons]
      intro hw
      split at hw
      · exact List.mem_cons_of_mem _ (ih hw)
      · rcases List.mem_append.mp hw with hw | hw
        · exact List.mem_cons_of_mem _ (ih ((List.takeWhile_sublist _).subset hw))
        · rcases List.mem_cons.mp hw with rfl | hw
          · exact List.mem_cons_self
          · exact List.mem_cons_of_mem _ (ih ((List.dropWhile_sublist _).subset hw))
  have hl := (List.mem_filter.mp (hkeep _ h)).2
  simp only [Bool.and_eq_true, decide_eq_true_eq] at hl
  exact hl.1

theorem State.inject_reg (s : State) (a n : Nat) {x : Nat} (hx : x ≠ Reg.MEM_INJECT) : (s.inject a n).reg x = s.reg x := by
  have hup (s : State) (w y p : Nat) : (s.upset w y p).reg x = s.reg x := rfl
  rw [State.inject]
  split
  · rfl
  split
  · rfl
  · dsimp only
    rw [State.reg_setFld_other hx]
    split
    · rw [hup, hup]
    · rw [hup]

theorem State.writeMem_aligned_reg (s : State) (input : Nat) {a x : Nat} {l : List Byte} (ha : 16 ∣ a) (hl : 16 ∣ l.length)
    (hx : x ≠ Reg.MEM_INJECT) : (s.writeMem input a l).reg x = s.reg x := by
  have hpart : (s.badWords a l.length).filter (fun w => !coversWord a l.length w) = [] := by
    refine List.filter_eq_nil_iff.mpr fun w hw => ?_
    obtain ⟨hlo, hhi⟩ := State.overlap_of_badWords hw
    simp only [coversWord, Bool.not_eq_true', Bool.not_eq_false, Bool.and_eq_true, decide_eq_true_eq]
    omega
  rw [State.writeMem]
  dsimp only
  rw [State.inject_reg _ _ _ hx, hpart]
  rfl

/-! Where a bar's copies lie. -/

section

variable {s t : State} (hbars : t.bars = s.bars) (hfire : t.fire = s.fire)
  (hreg : ∀ a, a ≠ Reg.MEM_INJECT → t.reg a = s.reg a)
include hbars hfire hreg

theorem State.descAt_of : t.descAt = s.descAt := by
  have hfld (f : Fld) (hf : f.addr ≠ Reg.MEM_INJECT) : t.fld f = s.fld f := State.fld_of_reg (hreg _ hf)
  have hlines (j : Nat) : t.fld (Reg.DOSE_BAR_BUF_LINES j) = s.fld (Reg.DOSE_BAR_BUF_LINES j) := hfld _ (by
    show 0x100008 + 0x20 * j ≠ Reg.MEM_INJECT
    rw [Reg.MEM_INJECT]
    omega)
  have hstack : t.pstack = s.pstack := funext fun j => hfld _ (by
    show 0x100008 + 0x20 * j ≠ Reg.MEM_INJECT
    rw [Reg.MEM_INJECT]
    omega)
  have hdepth : t.deep4 = s.deep4 := State.flag_of_fld (hfld _ (by decide))
  have hguard : t.mirrored = s.mirrored := congrArg (!·) (State.flag_of_fld (hfld _ (by decide)))
  have hdet : t.detD = s.detD := hfld _ (by decide)
  have hboards : t.barBoards = s.barBoards := funext fun j => by
    rw [State.barBoards, State.bar_of_bars hbars, State.barBoards]
  have hpad : t.paddedPayload = s.paddedPayload := funext fun k => by
    simp only [State.paddedPayload, State.payloadBytes, State.boardNozzles, State.prof, State.board, State.doseBits, hfire,
      hdepth]
  have hunits : t.copyUnits = s.copyUnits := funext fun j => by
    simp only [State.copyUnits, State.slotBytes, State.descBytes, State.fateBytes, hlines, hboards, hpad]
  have hin : t.unitsIn = s.unitsIn := funext fun st => funext fun j => by
    simp only [State.unitsIn, State.copies, State.copyStack, hguard, hstack, hunits]
  funext b second k f
  simp only [State.descAt, State.descRing, State.slotOf, State.descBytes, State.slotBytes, State.copyBase, State.stackBase,
    State.barBufBase, State.copyStack, hlines, hstack, hdet, hboards, hpad, hin]

end

section

variable (s : State)

theorem State.padded_dvd (l : List Nat) : 16 ∣ (l.map s.paddedPayload).sum :=
  List.dvd_sum fun n hn => by
    obtain ⟨k, -, rfl⟩ := List.mem_map.mp hn
    exact Dvd.dvd.mul_right (by decide) _

theorem State.copyBase_dvd (b : Nat) (second : Bool) : 16 ∣ s.copyBase b second := by
  have hbase : 16 ∣ s.barBufBase := Nat.dvd_sub (by decide) (Dvd.dvd.mul_left (by decide) _)
  exact ((hbase.add (Dvd.dvd.mul_left (by decide) _)).add (Dvd.dvd.mul_right (by decide) _))

theorem State.payloadAt_dvd (b : Nat) (second : Bool) (k f : Nat) : 16 ∣ s.payloadAt b second k f :=
  ((s.copyBase_dvd b second).add ((s.padded_dvd _).mul_left _)).add (s.padded_dvd _)

/-- A board's payload is no longer than what R152 reserves for it. -/
theorem State.framePayload_le (b k f : Nat) : (s.framePayload b k f).length ≤ s.paddedPayload k := by
  rw [State.framePayload, packDoses, List.length_map, List.length_range, List.length_map, List.length_range,
    State.paddedPayload, State.payloadBytes, ceilDiv, ceilDiv]
  omega

theorem descriptor_length (f crc : Nat) (blank : Bool) (gen : Nat) : (descriptor f crc blank gen).length = 16 := by
  simp only [descriptor, List.length_append, leBytes_length, bytesOf, List.length_map, List.length_cons, List.length_nil]

variable {s}

theorem State.storeCopies_one (h : s.mirrored = false) (at_ : Bool → Nat) (bytes : List Byte) :
    s.storeCopies at_ bytes = s.writeMem (s.classInput .expansion) (at_ false) bytes := by
  rw [State.storeCopies, State.copies, h]
  rfl

/-- Without a mirror, the descriptor of a frame written stands where the bar's layout puts it (R152, R153). -/
theorem State.writeFrame_descriptor (h : s.mirrored = false) (b k f : Nat) {x : BoardFrame}
    (hx : x.payload.length ≤ s.paddedPayload k) :
    memGet (s.writeFrame b k f x).mem (s.descAt b false k f) 16 = descriptor f x.crc x.blank x.gen := by
  rw [State.writeFrame, State.storeCopies_one h]
  generalize hu : s.writeMem _ _ _ = u
  have hreg (a : Nat) (ha : a ≠ Reg.MEM_INJECT) : u.reg a = s.reg a := by
    rw [← hu]
    refine State.writeMem_aligned_reg s _ (s.payloadAt_dvd ..) ?_ ha
    rw [List.length_append, List.length_replicate, Nat.add_sub_cancel' hx]
    exact Dvd.dvd.mul_right (by decide) _
  have hunits : u.printUnits = s.printUnits := hu ▸ State.writeMem_printUnits ..
  have hone : u.mirrored = false :=
    (congrArg (!·) (State.flag_of_fld (State.fld_of_reg (hreg Reg.DOSE_CTRL_GUARD.addr (by decide))))).trans h
  rw [State.storeCopies_one hone, State.writeMem_mem,
    State.descAt_of (State.bars_of_printUnits hunits) (State.fire_of_printUnits hunits) hreg]
  have hread := memGet_put (m := u.mem) (a := s.descAt b false k f) (l := descriptor f x.crc x.blank x.gen)
  rwa [descriptor_length] at hread

/-- A board whose checks pass, and of which no slice is bad, is written as assembled (R151 to R153). -/
theorem State.boardFrame_pass {b k f : Nat} (h : (s.bar b).badFor k f = none) :
    s.boardFrame b f [] k = s.writeFrame b k f
      ⟨s.framePayload b k f, crc32 (s.framePayload b k f), false, (s.bar b).genAt f⟩ := by
  have hpass : checkOf [] k = .pass := rfl
  have hsame : s.checked b .pass = s := rfl
  rw [State.boardFrame.eq_def]
  simp only [hpass, hsame, h]

end

/-! The end of a frame (R154, R155). -/

section

variable {s : State} {b : Nat}

/-- Once all of a frame's boards are written (R151 to R153). -/
def State.framesWritten (s : State) (b : Nat) (checks : List (Nat × CheckRun)) : State :=
  (s.barBoards b).reverse.foldl (fun u k => u.boardFrame b (s.bar b).frame checks k) s

/-- The bar once its frame is made. -/
def State.framed (s : State) (b f : Nat) : Bar :=
  let x := s.bar b
  let keep (l : Nat) : Bool := decide (f < l + maxRowOff x.map)
  { x with
    frame := f + 1
    made := x.made + 1
    fates := x.fates.filter fun d => decide (f < d.1 + s.fld (Reg.DOSE_BAR_BUF_LINES b))
    lines := x.lines.filter fun d => keep d.line
    bad := x.bad.filter fun d => keep d.line }

/-- The frame shown made, once the boards have theirs. -/
def State.frameShown (s : State) (b f : Nat) : State :=
  ((s.setBar b (s.framed b f)).setFld (Reg.DOSE_BAR_STATUS_WAIT_BUF b) 0).showFill b

theorem State.frameAssemble_runs {checks : List (Nat × CheckRun)} (hr : s.barRuns b = true)
    (hready : s.frameReady b (s.bar b).frame = true)
    (hconc : (s.bar b).frame < s.barFired b + s.fld (Reg.DOSE_BAR_CONC_MAX b))
    (hfree : s.slotFree b (s.bar b).frame = true) :
    execFrameAssemble b checks s = .next ((s.framesWritten b checks).frameShown b (s.bar b).frame) := by
  have hheld : ¬ (!s.barRuns b || !s.frameReady b (s.bar b).frame ||
      decide (s.barFired b + s.fld (Reg.DOSE_BAR_CONC_MAX b) ≤ (s.bar b).frame)) = true := by
    simp only [hr, hready, Bool.not_true, Bool.or_self, Bool.false_or, decide_eq_true_eq, Nat.not_le.mpr hconc,
      not_false_eq_true]
  have hfull : ¬ (!s.slotFree b (s.bar b).frame) = true := by rw [hfree]; decide
  exact congrArg Host.Outcome.next ((if_neg hheld).trans ((if_neg hfull).trans rfl))

theorem State.showFill_bars (s : State) (b : Nat) : (s.showFill b).bars = s.bars := by
  rw [State.showFill, State.setFlag_bars, State.setFld_bars]

@[simp] theorem State.bar_frameShown (f : Nat) : (s.frameShown b f).bar b = s.framed b f := by
  rw [State.frameShown, State.bar_of_bars (State.showFill_bars ..), State.bar_of_bars (State.setFld_bars ..),
    State.bar_setBar]

theorem State.setBar_map {y : Bar} (h : y.map = (s.bar b).map) (j : Nat) : ((s.setBar b y).bar j).map = (s.bar j).map := by
  by_cases hj : j = b
  · rw [hj, State.bar_setBar, h]
  · exact congrArg Bar.map (tabGet_put_other hj)

theorem State.showFill_fill (s : State) (b : Nat) :
    (s.showFill b).fld (Reg.DOSE_BAR_CONC_FILL b) = min 65535 ((s.bar b).frame - s.barFired b) := by
  have hne : (Reg.DOSE_BAR_CONC_FILL b).addr ≠ (Reg.DOSE_BAR_STATUS_AT_MAX b).addr := by
    show 0x10000c + 0x20 * b ≠ 0x100014 + 0x20 * b
    omega
  rw [State.showFill, State.fld_of_reg (State.reg_setFlag_other hne)]
  have hwide : 2 ^ (Reg.DOSE_BAR_CONC_FILL b).width = 65536 := rfl
  exact State.fld_setFld (Fld.fits_of_decide rfl) (by rw [hwide]; omega)

theorem State.showFill_waitBuf (s : State) (b : Nat) :
    (s.showFill b).fld (Reg.DOSE_BAR_STATUS_WAIT_BUF b) = s.fld (Reg.DOSE_BAR_STATUS_WAIT_BUF b) := by
  have hne : (Reg.DOSE_BAR_STATUS_WAIT_BUF b).addr ≠ (Reg.DOSE_BAR_CONC_FILL b).addr := by
    show 0x100014 + 0x20 * b ≠ 0x10000c + 0x20 * b
    omega
  rw [State.showFill, State.fld_setFlag_clear (Fld.clearOf_of_bits (by rfl)), State.fld_of_reg (State.reg_setFld_other hne)]

theorem State.frameShown_waitBuf (f : Nat) : (s.frameShown b f).fld (Reg.DOSE_BAR_STATUS_WAIT_BUF b) = 0 :=
  (State.showFill_waitBuf ..).trans (State.fld_setFld (Fld.fits_of_decide rfl) (Nat.two_pow_pos _))

theorem State.frameShown_fill (f : Nat) :
    (s.frameShown b f).fld (Reg.DOSE_BAR_CONC_FILL b) = min 65535 (f + 1 - s.barFired b) := by
  have hmade : (s.framed b f).frame = f + 1 := rfl
  have hmap : (s.framed b f).map = (s.bar b).map := rfl
  have hfired : (s.setBar b (s.framed b f)).barFired b = s.barFired b :=
    State.barFired_of_map (State.setBar_map hmap) rfl b
  rw [State.frameShown, State.showFill_fill, State.bar_of_bars (State.setFld_bars ..), State.bar_setBar,
    State.setFld_barFired, hfired, hmade]

theorem State.frameShown_mem (f : Nat) : (s.frameShown b f).mem = s.mem := by
  have hbar (s : State) (y : Bar) : (s.setBar b y).mem = s.mem := rfl
  rw [State.frameShown, State.mem_of_core (State.showFill_core ..), State.mem_of_core (State.setFld_core ..), hbar]

end

section

variable {s : State} {b : Nat} (checks : List (Nat × CheckRun))

theorem State.framesWritten_printUnits : (s.framesWritten b checks).printUnits = s.printUnits :=
  State.boardFrames_printUnits ..

theorem State.framesWritten_bars : (s.framesWritten b checks).bars = s.bars :=
  State.bars_of_printUnits (State.framesWritten_printUnits checks)

theorem State.framesWritten_barFired : (s.framesWritten b checks).barFired b = s.barFired b :=
  State.barFired_of_map (fun j => congrArg Bar.map (State.bar_of_bars (State.framesWritten_bars checks) j))
    (State.fire_of_printUnits (State.framesWritten_printUnits checks)) b

/-- What the bar shows once its frame is made. -/
theorem State.frameShown_bar : (((s.framesWritten b checks).frameShown b (s.bar b).frame).bar b).frame = (s.bar b).frame + 1 ∧
    (((s.framesWritten b checks).frameShown b (s.bar b).frame).bar b).made = (s.bar b).made + 1 := by
  have hbar : (s.framesWritten b checks).bar b = s.bar b := State.bar_of_bars (State.framesWritten_bars checks) b
  rw [State.bar_frameShown, State.framed, hbar]
  exact ⟨rfl, rfl⟩

/-- One board's descriptor stands in memory once its frame is shown made. -/
theorem State.frameShown_descriptor {k : Nat} (hone : s.barBoards b = [k]) (hm : s.mirrored = false)
    (hbad : (s.bar b).badFor k (s.bar b).frame = none) :
    memGet ((s.framesWritten b []).frameShown b (s.bar b).frame).mem (s.descAt b false k (s.bar b).frame) 16 =
      descriptor (s.bar b).frame (crc32 (s.framePayload b k (s.bar b).frame)) false ((s.bar b).genAt (s.bar b).frame) := by
  have hwritten : s.framesWritten b [] = s.boardFrame b (s.bar b).frame [] k := by
    rw [State.framesWritten, hone]
    rfl
  rw [State.frameShown_mem, hwritten, State.boardFrame_pass hbad]
  exact State.writeFrame_descriptor hm b k _ (s.framePayload_le b k _)

end

end Sys2Proof.Machine

/-! SUPPORT. The dose commands (R139 to R155), clause by clause of what they complete. -/
namespace Sys2Proof.Machine

/-- What the bar shows once a swap has taken effect (R146). -/
theorem State.swapBar_inForce (s : State) {b : Nat} : ((s.swapBar b).bar b).gen = (s.bar b).gen + 1 ∧
    ((s.swapBar b).bar b).pend = {} ∧ ((s.swapBar b).bar b).bank = (s.bar b).pend.atop (s.bar b).bank := by
  rw [State.bar_swapBar]
  exact ⟨rfl, rfl, rfl⟩

theorem execDoseSwapRequest_of_lt {s : State} {b : Nat} (hb : b < 16) :
    execDoseSwapRequest b s = .next (s.swapRequest b) := congrArg Host.Outcome.next (if_pos hb)

theorem execDoseSwap_of_lt {s : State} {b : Nat} (hb : b < 16) : execDoseSwap b s = .next (s.swapDue b) :=
  congrArg Host.Outcome.next (if_pos hb)

/-- Settles O35: a swap goes through `State.swapBar`, a slice through `State.runSlice`, and a frame through the writes of
its boards, which leave the bars alone; a descriptor is in place because payloads are whole code words. -/
theorem doseCommandsComplete : Obligations.DoseCommandsComplete := by
  unfold Obligations.DoseCommandsComplete
  refine ⟨?request, ?requestAtOnce, ?swap, ?slice, ?lineEnd, ?queueWait, ?frame, ?descriptor⟩
  case request =>
    intro s b hb hp he
    refine ⟨_, (execDoseSwapRequest_of_lt hb).trans (congrArg _ (State.swapRequest_expanding hp he)),
      State.fld_setFld (Fld.fits_of_decide rfl) (show 1 < 2 ^ 1 by decide), State.setFld_bars .., fun a ha =>
      State.reg_setFld_other ha⟩
  case requestAtOnce =>
    intro s b hb hp he
    obtain ⟨hgen, hpend, hbank⟩ := s.swapBar_inForce (b := b)
    exact ⟨_, (execDoseSwapRequest_of_lt hb).trans (congrArg _ (State.swapRequest_at_once hp he)), hgen, hpend, hbank,
      s.swapBar_event b⟩
  case swap =>
    intro s b hb hp hs
    obtain ⟨hgen, hpend, hbank⟩ := s.swapBar_inForce (b := b)
    refine ⟨_, (execDoseSwap_of_lt hb).trans (congrArg _ (State.swapDue_boundary hp hs)), hgen, hpend, hbank, ?_, ?_, ?_,
      s.swapBar_swapPend hb, s.swapBar_gen hb, s.swapBar_swapLine hb⟩
    all_goals
      rw [State.bar_swapBar]
      rfl
  case slice =>
    intro s b e p check hr hp he hpage hconc hfree hmore
    obtain ⟨u, check', hbar, hrun⟩ := State.sliceExpand_runs hr hp he hpage hconc hfree check
    refine ⟨_, hrun, ?_⟩
    rw [← hbar] at hmore ⊢
    exact State.runSlice_more e p check' hmore
  case lineEnd =>
    intro s b e p check hr hp he hpage hconc hfree hlast
    obtain ⟨u, check', hbar, hrun⟩ := State.sliceExpand_runs hr hp he hpage hconc hfree check
    refine ⟨_, hrun, ?_⟩
    rw [← hbar] at hlast ⊢
    exact State.runSlice_last e p check' hlast
  case queueWait =>
    intro s b e check hr hp he hpage
    have hb := State.lt_of_barRuns hr
    have hclear : Reg.DOSE_CNT_QWAIT_COUNT.clearOf (Reg.DOSE_BAR_STATUS_WAIT_QUEUE b) = true := by
      have hne : 0x100014 + 0x20 * b ≠ 0x100228 := by omega
      exact decide_eq_true ⟨Fld.fits_of_decide rfl, Fld.fits_of_decide rfl, .inl hne⟩
    exact ⟨_, State.sliceExpand_waits hr hp he hpage check, State.waitAt_shows rfl (Fld.fits_of_decide rfl) hclear,
      State.waitAt_bars⟩
  case frame =>
    intro s b checks hr hready hconc hfree
    obtain ⟨hframe, hmade⟩ := State.frameShown_bar (s := s) (b := b) checks
    refine ⟨_, State.frameAssemble_runs hr hready hconc hfree, hframe, hmade, State.frameShown_waitBuf _, ?_⟩
    rw [State.frameShown_fill, State.framesWritten_barFired]
  case descriptor =>
    intro s b k hr hready hconc hfree hone hm hbad
    exact ⟨_, State.frameAssemble_runs hr hready hconc hfree, State.frameShown_descriptor hone hm hbad⟩

end Sys2Proof.Machine

/-! SUPPORT. The Yo-yo, the speed words and the tops of sheets (R164, R179, R180): what an interval, a word and a sheet
leave. -/
namespace Sys2Proof.Machine

/-! Events of the firing sequencers, and the ends of consumer tasks. -/

theorem State.fireEvent_reg {s : State} {bit a : Nat} {tag : Option Nat} (h : a ∉ eventRegs) :
    (s.fireEvent bit tag).reg a = s.reg a := State.raiseIf_reg h

theorem State.fireEvent_fld {s : State} {bit : Nat} {tag : Option Nat} {f : Fld} (h : f.addr ∉ eventRegs) :
    (s.fireEvent bit tag).fld f = s.fld f := State.raiseIf_fld h

/-- A consumer whose task has ended is free (R297). -/
theorem State.endTask_free (s : State) (k : Nat) : ((s.endTask k).cons k).busy = false := by
  rw [State.endTask]
  split
  case isTrue => exact congrArg EvtCons.busy tabGet_put_self
  case isFalse h => exact Bool.eq_false_iff.mpr h

/-! The request (R179). -/

theorem State.setReq_req (s : State) {v : Nat} (hv : v < 65536) : (s.setReq v).fld Reg.YOYO_REQ_REQ = v := by
  rw [State.setReq]
  split
  case isTrue h => exact h
  case isFalse =>
    rw [State.fireEvent_fld (by decide)]
    exact State.fld_setFld (Fld.fits_of_decide rfl) hv

theorem State.yoyoRun_off {s : State} (h : s.flag Reg.YOYO_CTRL_ENABLE = false) : s.yoyoRun = s.setReq 0xFFFF := by
  simp only [State.yoyoRun, h, Bool.not_false, reduceIte]

/-- A bar or a cap asks for less: the request falls to it, but not below REQ_MIN, and the calm begins anew. -/
theorem State.yoyoRun_low {s : State} (he : s.flag Reg.YOYO_CTRL_ENABLE = true) (hl : s.yoyoLow.1 < 0xFFFF) :
    s.yoyoRun.fld Reg.YOYO_REQ_REQ =
      max (s.fld Reg.YOYO_REQ_REQ_MIN) (min (s.fld Reg.YOYO_REQ_REQ) s.yoyoLow.1) ∧ s.yoyoRun.fire.calm = s.now := by
  generalize hv : max (s.fld Reg.YOYO_REQ_REQ_MIN) (min (s.fld Reg.YOYO_REQ_REQ) s.yoyoLow.1) = v
  have hlt : v < 65536 := by
    have hmin : s.fld Reg.YOYO_REQ_REQ_MIN < 2 ^ 16 := State.fld_lt ..
    omega
  generalize hcalmed : ({ s with fire := { s.fire with calm := s.now } } : State) = calmed
  have hnow : calmed.fire.calm = s.now := by rw [← hcalmed]
  have hreq : (calmed.setReq v).fld Reg.YOYO_REQ_REQ = v := State.setReq_req _ hlt
  have hcalm : (calmed.setReq v).fire = calmed.fire := State.fire_of_printUnits (State.setReq_printUnits ..)
  have hrun : s.yoyoRun = if v < s.fld Reg.YOYO_REQ_REQ then
      (calmed.setReq v).setFld Reg.YOYO_STEP_CAUSE s.yoyoLow.2.1 else calmed.setReq v := by
    simp only [State.yoyoRun, he, Bool.not_true, Bool.false_eq_true, reduceIte, if_pos hl, hv, hcalmed]
  rw [hrun]
  split
  · rw [State.fld_of_reg (State.reg_setFld_other (by decide)), hreq, State.setFld_fire, hcalm]
    exact ⟨rfl, hnow⟩
  · rw [hreq, hcalm]
    exact ⟨rfl, hnow⟩

/-! The frames made in an interval. -/

/-- A bar's count of the frames made since the last interval begins anew. -/
def State.recount (s : State) (b : Nat) : State := s.setBar b { s.bar b with made := 0 }

theorem State.recount_made (s : State) (b j : Nat) :
    ((s.recount b).bar j).made = if j = b then 0 else (s.bar j).made := by
  split
  case isTrue h =>
    subst h
    rw [State.recount, State.bar_setBar]
  case isFalse h => exact congrArg Bar.made (tabGet_put_other h)

theorem State.recount_fld (s : State) (b : Nat) (f : Fld) : (s.recount b).fld f = s.fld f := (rfl)

theorem State.recount_fire (s : State) (b : Nat) : (s.recount b).fire = s.fire := (rfl)

theorem State.recounts_made {b : Nat} (l : List Nat) (s : State) (h : b ∈ l ∨ (s.bar b).made = 0) :
    ((l.foldl State.recount s).bar b).made = 0 := by
  induction l generalizing s with
  | nil => exact h.resolve_left List.not_mem_nil
  | cons c l ih =>
    refine ih _ ?_
    rw [State.recount_made]
    by_cases hc : b = c
    · exact .inr (if_pos hc)
    · rw [if_neg hc]
      exact h.imp_left fun hm => (List.mem_cons.mp hm).resolve_left hc

theorem execYoyoInterval_running {s : State} (h : s.inSt [stArmed, stPrinting, stPaused] = true) :
    execYoyoInterval s = .next ((List.range 16).foldl State.recount s.yoyoRun) := congrArg Host.Outcome.next (if_pos h)

section

variable (s : State)

theorem State.recounts_fld (f : Fld) : ((List.range 16).foldl State.recount s).fld f = s.fld f :=
  State.foldl_keeps (f := State.recount) (State.fld · f) (fun s b => s.recount_fld b f) _ s

theorem State.recounts_fire : ((List.range 16).foldl State.recount s).fire = s.fire :=
  State.foldl_keeps (f := State.recount) State.fire (fun s b => s.recount_fire b) _ s

end

/-! Speed words (R180) and tops of sheets (R164). -/

/-- The word that carries a request with its sequence number and its CRC. -/
def speedWordOf (req seq : Nat) : List Byte :=
  leBytes 2 req ++ leBytes 1 seq ++ leBytes 1 (crc8 (leBytes 2 req ++ leBytes 1 seq))

theorem execSpdrqWord_sends {s : State} (ha : s.st ≠ stAsleep) (he : s.flag Reg.SPDRQ_CFG_ENABLE = true)
    (ht : s.flag Reg.SPDRQ_CFG_TEST = false) : execSpdrqWord s = .next
      (State.emit { s with fire := { s.fire with seq := (s.fire.seq + 1) % 256 } }
        (.speedWord (speedLine (speedWordOf (s.fld Reg.YOYO_REQ_REQ) s.fire.seq)))) := by
  have hruns : ¬(decide (s.st = stAsleep) || !s.flag Reg.SPDRQ_CFG_ENABLE) = true := by rw [he, decide_eq_false ha]; decide
  rw [execSpdrqWord, if_neg hruns, ht]
  rfl

/-- A sheet that finds its bar free joins the bar's sheets at the web's position. -/
theorem execFireTos_joins {s : State} {b : Nat} (hb : b < 16) (hmode : s.sheetMode b = true)
    (hst : s.inSt [stPrinting, stPaused] = true) (hjob : s.jobBar b = true) (hfree : s.sheetBusy b = false) :
    execFireTos b s =
      .next ((s.setBar b { s.bar b with sheets := (s.bar b).sheets ++ [s.webPos] }).endTask (32 + b)) := by
  rw [execFireTos, decide_eq_true hb, hmode, hst, hjob, hfree]
  rfl

/-- Settles O39: an interval is its request and then the bars' counts begun anew; a word and a sheet are each one update. -/
theorem yoyoCommandsComplete : Obligations.YoyoCommandsComplete := by
  refine ⟨?off, ?low, fun _ => rfl, ?word, ?sheet⟩
  case off =>
    intro s hst hoff
    refine ⟨_, execYoyoInterval_running hst, ?_, fun b hb => State.recounts_made _ _ (.inl (List.mem_range.mpr hb))⟩
    rw [State.recounts_fld, State.yoyoRun_off hoff]
    exact State.setReq_req s (by decide)
  case low =>
    intro s hst hon hl
    obtain ⟨hreq, hcalm⟩ := State.yoyoRun_low hon hl
    refine ⟨_, execYoyoInterval_running hst, ?_, ?_, fun b hb => State.recounts_made _ _ (.inl (List.mem_range.mpr hb))⟩
    · rw [State.recounts_fld, hreq]
    · rw [State.recounts_fire, hcalm]
  case word =>
    intro s ha he ht
    exact ⟨_, execSpdrqWord_sends ha he ht, rfl, rfl, rfl⟩
  case sheet =>
    intro s b hb hmode hst hjob hfree
    refine ⟨_, execFireTos_joins hb hmode hst hjob hfree, ?_, State.endTask_free .., State.endTask_keeps (fun _ _ => rfl) ..⟩
    exact (congrArg Bar.sheets (State.endTask_keeps (view := (State.bar · b)) (fun _ _ => rfl) ..)).trans
      (congrArg Bar.sheets (State.bar_setBar ..))

end Sys2Proof.Machine

/-! SUPPORT. Lines that settle (R182): what a run's end, and a line that joins one, leave alone. -/
namespace Sys2Proof.Machine

/-- A view of the state that the settling of board `k`'s lines does not change: the board's list of decided lines and its
run, the record rings, and the counts of gap records are out of its sight. -/
structure SettleBlind {β : Type} (k : Nat) (view : State → β) : Prop where
  count : ∀ s f v, f.addr = Reg.FIRE_CNT_GAPS → view (State.setFld s f v) = view s
  board : ∀ s d g, view (State.setBoard s k { s.board k with decided := d, gap := g }) = view s
  ring : ∀ (s : State) g, view { s with rings := g } = view s

namespace SettleBlind

section

variable {β : Type} {k : Nat} {view : State → β} (h : SettleBlind k view)
include h

theorem closeGap (s : State) : view (s.closeGap k) = view s := by
  have hrec (s : State) (make : Nat → List Byte) : view (s.addRecord 1 make) = view s := by
    rw [State.addRecord]
    split
    · exact h.ring ..
    · exact h.ring ..
  rw [State.closeGap]
  split
  · rfl
  · dsimp only
    split
    · rw [State.bump, h.count _ _ _ rfl, hrec]
      exact h.board ..
    · rw [State.bump, h.count _ _ _ rfl, hrec]
      exact h.board ..

theorem addGap (s : State) (d : Decided) : view (s.addGap k d) = view s := by
  rw [State.addGap]
  split
  · exact h.board ..
  · split
    · split
      · exact h.board ..
      · exact (h.board ..).trans (h.closeGap s)
    · exact (h.board ..).trans (h.closeGap s)

theorem settleFront (n : Nat) (s : State) : view (s.settleFront k n) = view s := by
  induction n generalizing s with
  | zero => rfl
  | succ n ih =>
    rw [State.settleFront]
    split
    · split
      · rw [ih]
        split
        · exact (h.closeGap _).trans (h.board ..)
        · exact (h.addGap ..).trans (h.board ..)
      · rfl
    · rfl

theorem settle (s : State) : view (s.settle k) = view s := by
  rw [State.settle]
  split
  · rw [h.closeGap, h.settleFront]
  · exact h.settleFront ..

end

theorem giveUp {β : Type} {view : State → β} (h : ∀ k, SettleBlind k view) (s : State) : view s.giveUp = view s :=
  State.foldl_keeps view (fun _ k => ((h k).settle _).trans ((h k).board ..)) _ s

theorem flushGaps {β : Type} {view : State → β} (h : ∀ k, SettleBlind k view) (s : State) : view s.flushGaps = view s :=
  State.foldl_keeps view (fun s k => by
    split
    · exact (h k).closeGap s
    · rfl) _ s

theorem fld {k : Nat} {f : Fld} (hf : f.addr ≠ Reg.FIRE_CNT_GAPS) : SettleBlind k (State.fld · f) where
  count _ _ _ e := State.fld_of_reg (State.reg_setFld_other (e ▸ hf))
  board _ _ _ := rfl
  ring _ _ := rfl

end SettleBlind

end Sys2Proof.Machine

/-! SUPPORT. What lies apart from printing: the command unit, the engines, and all that the web's position comes from
(R255, R256, R258, R363). ARM and the job's end leave it alone. -/
namespace Sys2Proof.Machine

/-- The registers that the web's position is read from. -/
def webReg (a : Nat) : Bool :=
  a == Reg.PLAT_STRAPS || a == Reg.TIME_CTRL || decide (0x200000 ≤ a) && decide (a < 0x200100)

/-- The command unit, the engines, and what the web's position comes from. -/
def State.offPrint (s : State) :
    CmdUnit × SpareUnit × Nat × TimeUnit × ChainUnit × MotionUnit × ({ a : Nat // webReg a = true } → Word) :=
  (s.cmd, s.spare, s.now, s.time, s.chain, s.motion, fun a => s.reg a)

section

variable {s t : State} (h : t.offPrint = s.offPrint)
include h

theorem State.cmd_of_offPrint : t.cmd = s.cmd := congrArg (·.1) h

theorem State.spare_of_offPrint : t.spare = s.spare := congrArg (·.2.1) h

theorem State.reg_of_offPrint {a : Nat} (ha : webReg a = true) : t.reg a = s.reg a :=
  congrArg (fun v => v.2.2.2.2.2.2 ⟨a, ha⟩) h

theorem State.webPos_of_offPrint : t.webPos = s.webPos := by
  have hnow : t.now = s.now := congrArg (·.2.2.1) h
  have htime : t.time = s.time := congrArg (·.2.2.2.1) h
  have hchain : t.chain = s.chain := congrArg (·.2.2.2.2.1) h
  have hmotion : t.motion = s.motion := congrArg (·.2.2.2.2.2.1) h
  have hwidth : t.chainWidth = s.chainWidth := by
    rw [State.chainWidth, State.fld_of_reg (State.reg_of_offPrint h rfl), State.chainWidth]
  have hdom : t.activeDom = s.activeDom := State.fld_of_reg (State.reg_of_offPrint h rfl)
  have hpos : t.chainPos = s.chainPos := by
    simp only [State.chainPos, State.devNs, State.devUnits, State.clock, hdom, htime, hchain]
  have hfld (f : Fld) (e o : Nat) (he : e < 8) (ho : o < 0x20) (hf : f.addr = 0x200000 + o + 0x20 * e) :
      t.fld f = s.fld f := by
    refine State.fld_of_reg (State.reg_of_offPrint h ?_)
    rw [hf, webReg, Bool.or_eq_true, Bool.and_eq_true]
    exact .inr ⟨decide_eq_true (by omega), decide_eq_true (by omega)⟩
  have hmaster : t.masterEnc = s.masterEnc := List.find?_congr fun e he =>
    State.flag_of_fld (hfld _ e 0 (List.mem_range.mp he) (by decide) rfl)
  have hinter (e : Nat) (he : e < 8) : t.interpolated e = s.interpolated e := by
    have hmode : t.flag (Reg.POS_CTRL_INTERP_EN e) = s.flag (Reg.POS_CTRL_INTERP_EN e) :=
      State.flag_of_fld (hfld _ e 0 he (by decide) rfl)
    have hdir : t.flag (Reg.POS_STATUS_DIR e) = s.flag (Reg.POS_STATUS_DIR e) :=
      State.flag_of_fld (hfld _ e 0x14 he (by decide) rfl)
    have hstill : t.flag (Reg.POS_STATUS_STILL e) = s.flag (Reg.POS_STATUS_STILL e) :=
      State.flag_of_fld (hfld _ e 0x14 he (by decide) rfl)
    have hnum : t.fld (Reg.POS_SCALE_NUM e) = s.fld (Reg.POS_SCALE_NUM e) := hfld _ e 4 he (by decide) rfl
    have hden : t.fld (Reg.POS_SCALE_DEN e) = s.fld (Reg.POS_SCALE_DEN e) := hfld _ e 4 he (by decide) rfl
    simp only [State.interpolated, State.enc, hmotion, hnow, hmode, hdir, hstill, hnum, hden]
    rfl
  rw [State.webPos, State.webPos, hmaster, hwidth, hpos]
  split
  case h_1 e he => exact hinter e (List.mem_range.mp (List.mem_of_find?_eq_some he))
  case h_2 => rfl

end

theorem State.setFld_offPrint {s : State} {f : Fld} {v : Nat} (h : webReg f.addr = false) :
    (s.setFld f v).offPrint = s.offPrint := by
  have hreg : (fun a : { a : Nat // webReg a = true } => (s.setFld f v).reg a.1) =
      fun a : { a : Nat // webReg a = true } => s.reg a.1 := funext fun a => by
    refine State.reg_setFld_other fun e => ?_
    have ha := a.2
    rw [e, h] at ha
    cases ha
  rw [State.offPrint, hreg, State.setFld_cmd, State.setFld_spare, State.setFld_now, State.setFld_time, State.setFld_chain,
    State.setFld_motion, State.offPrint]

/-- The settling of lines shows in none of it. -/
theorem SettleBlind.offPrint (k : Nat) : SettleBlind k State.offPrint where
  count _ _ _ e := State.setFld_offPrint (by rw [e]; decide)
  board _ _ _ := rfl
  ring _ _ := rfl

/-- What no step of a fold over a list changes. -/
theorem State.foldl_keeps_on {α β : Type} (view : State → β) {f : State → α → State} (l : List α)
    (h : ∀ s, ∀ x ∈ l, view (f s x) = view s) (s : State) : view (l.foldl f s) = view s :=
  List.foldlRecOn (motive := fun t => view t = view s) l f rfl fun _ ih x hx => (h _ x hx).trans ih

theorem webReg_doseBar {b o : Nat} (hb : b < 16) (ho : o < 0x20) : webReg (0x100000 + o + 0x20 * b) = false := by
  simp only [webReg, Reg.PLAT_STRAPS, Reg.TIME_CTRL, Bool.or_eq_false_iff, Bool.and_eq_false_iff, beq_eq_false_iff_ne,
    decide_eq_false_iff_not]
  omega

theorem State.showFill_offPrint {s : State} {b : Nat} (hb : b < 16) : (s.showFill b).offPrint = s.offPrint := by
  rw [State.showFill, State.setFlag, State.setFld_offPrint (webReg_doseBar (o := 0x14) hb (by decide)),
    State.setFld_offPrint (webReg_doseBar (o := 0xc) hb (by decide))]

theorem State.clearBars_offPrint (s : State) : s.clearBars.offPrint = s.offPrint := by
  have hbar (s : State) (b : Nat) (x : Bar) : (s.setBar b x).offPrint = s.offPrint := rfl
  have hppos (s : State) (x : PrintPos) : State.offPrint { s with ppos := x } = s.offPrint := rfl
  rw [State.clearBars, hppos]
  refine (State.foldl_keeps_on _ _ (fun s b hb => State.showFill_offPrint (List.mem_range.mp hb)) _).trans ?_
  refine (State.foldl_keeps _ (fun s k => by rfl) _ _).trans ?_
  refine (State.foldl_keeps_on _ _ (fun s b hb => ?_) _).trans
    (State.foldl_keeps _ (fun s b => State.foldl_keeps _ (fun s c => by rfl) _ s) _ s)
  have hlow := webReg_doseBar (o := 0x14) (List.mem_range.mp hb) (by decide)
  rw [State.setFld_offPrint hlow, State.setFld_offPrint hlow, hbar]

theorem State.raiseIf_offPrint (s : State) (en : Bool) (prod : Nat) (tag : Option Nat) :
    (s.raiseIf en prod tag).offPrint = s.offPrint := by
  rw [State.raiseIf]
  split
  · rw [State.raise]
    split
    · rw [State.setFld_offPrint (by decide), State.bump, State.setFld_offPrint (by decide)]
    · rfl
  · rfl

theorem State.setReq_offPrint (s : State) (v : Nat) : (s.setReq v).offPrint = s.offPrint := by
  rw [State.setReq]
  split
  · rfl
  · rw [State.fireEvent, State.raiseIf_offPrint, State.setFld_offPrint (by decide)]

theorem State.enter_offPrint (s : State) (v : Nat) : (s.enter v).offPrint = s.offPrint := by
  have hsince (s : State) (n : Nat) : State.offPrint { s with stateSince := n } = s.offPrint := rfl
  rw [State.enter]
  split
  · rfl
  · rw [hsince, State.setFld_offPrint (by decide), State.setFld_offPrint (by decide)]

theorem State.maskBreaks_offPrint (s : State) : s.maskBreaks.offPrint = s.offPrint := by
  have hlog (s : State) (code block inst cond : Nat) (detail : List Nat) :
      (s.log1 code block inst cond detail).offPrint = s.offPrint := by
    have hentries (s : State) (l : LogUnit) : State.offPrint { s with log := l } = s.offPrint := rfl
    rw [State.log1, hentries, State.bumpWrap, State.setFld_offPrint (by decide)]
  rw [State.maskBreaks]
  refine State.foldl_keeps _ (fun s e => ?_) _ s
  split
  · split
    · exact hlog ..
    · rfl
  · rfl

theorem State.showCanaries_offPrint (s : State) : s.showCanaries.offPrint = s.offPrint := by
  refine State.foldl_keeps_on _ _ (fun s c hc => ?_) s
  have hlow : webReg (0x010020 + 0x4 * c) = false := by
    have hc' := List.mem_range.mp hc
    simp only [webReg, Reg.PLAT_STRAPS, Reg.TIME_CTRL, Bool.or_eq_false_iff, Bool.and_eq_false_iff, beq_eq_false_iff_ne,
      decide_eq_false_iff_not]
    omega
  rw [State.showCanary]
  split
  · rfl
  · dsimp only
    split
    · exact State.setFld_offPrint hlow
    · rw [State.setFld_offPrint hlow, State.setFlag, State.setFld_offPrint hlow]

theorem State.showGated_offPrint (s : State) : s.showGated.offPrint = s.offPrint := by
  rw [State.showGated]
  rw [State.maskBreaks_offPrint]
  split
  · rw [State.setFld_offPrint (by decide), State.showCanaries_offPrint]
  · rw [State.setFlag, State.setFld_offPrint (by decide), State.setFld_offPrint (by decide), State.showCanaries_offPrint]

theorem State.storeAtEnd_offPrint (s : State) : s.storeAtEnd.offPrint = s.offPrint := by
  have hstore (s : State) : s.showStore.offPrint = s.offPrint := by
    have hnvc (s : State) (x : NvcUnit) : State.offPrint { s with nvc := x } = s.offPrint := rfl
    rw [State.showStore]
    dsimp only
    split
    · rw [State.setFld_offPrint (by decide), State.setFld_offPrint (by decide), State.setFld_offPrint (by decide), hnvc]
    · rw [State.setFld_offPrint (by decide), State.setFld_offPrint (by decide), hnvc]
  rw [State.storeAtEnd, State.storeHealth, State.storePaper]
  refine (State.foldl_keeps _ (fun s b => ?_) _ _).trans (State.foldl_keeps _ (fun s n => ?_) _ s)
  · split
    · exact hstore _
    · rfl
  · dsimp only
    split
    · exact hstore _
    · rfl

end Sys2Proof.Machine

/-! SUPPORT. Sessions at the job's end: its replies close none (R93, R130). -/
namespace Sys2Proof.Machine

theorem State.sessOpen_setSlot (s : State) (a t : Nat) (x : Slot) (n : Nat) :
    (s.setSlot a t x).sessOpen n = s.sessOpen n := by
  have hkind : ((s.setSlot a t x).session n).kind = (s.session n).kind := by
    rw [State.setSlot, State.session_setSession]
    split
    case isTrue h => rw [h]
    case isFalse => rfl
  rw [State.sessOpen, State.sessKind, hkind, State.sessOpen, State.sessKind]

theorem State.finishSlot_sessOpen (s : State) (a t st : Nat) (pl : List Byte) (n : Nat) :
    (s.finishSlot a t st pl).sessOpen n = s.sessOpen n := by
  rw [State.finishSlot]
  split
  · rw [State.complete]
    split
    · rfl
    · dsimp only
      generalize ((s.slot a t).needReply || st != scDone || _) = go
      split
      · rw [State.sessOpen_of_sessions (State.deliver_sessions ..), State.sessOpen_setSlot]
      · exact State.sessOpen_setSlot ..
  · rfl

theorem State.haltDone_cmd (s : State) : s.haltDone.cmd = s.cmd := by
  rw [State.haltDone]
  split
  · rfl
  split
  · rfl
  · simp only [State.msixSignal_cmd, State.raise_cmd, State.setFld_cmd]

/-- A chain that is stopped breaches no condition. -/
theorem State.chainEnd_cmd (s : State) (ch addr residue : Nat) : (s.chainEnd ch 1 addr residue).cmd = s.cmd := by
  have hch (s : State) (x : DmaChan) : (s.setDmaCh ch x).cmd = s.cmd := rfl
  have hback (s : State) (code : Nat) : (s.writeBack ch code addr residue).cmd = s.cmd := by
    rw [State.writeBack]
    split <;> rfl
  rw [State.chainEnd, if_neg (by decide), State.dmaDone, State.msixSignal_cmd, State.dmaMark, State.setFld_cmd, hback,
    State.chainStop_eq]
  simp only [State.setFlag_cmd, State.setFld_cmd, hch]
  exact State.chkUser_keeps (fun _ _ => rfl) ..

theorem State.stopPage_sessOpen (s : State) (ch st : Nat) (pl : List Byte) (n : Nat) :
    (s.stopPage ch st pl).sessOpen n = s.sessOpen n := by
  have hdrop : (s.dropPage ch st pl).sessOpen n = s.sessOpen n := by
    rw [State.dropPage, State.finishSlot_sessOpen]
    exact State.sessOpen_of_cmd (State.foldl_keeps State.cmd (fun _ _ => State.setFld_cmd ..) _ s) n
  rw [State.stopPage]
  split
  · rw [State.sessOpen_of_cmd (State.haltDone_cmd _), State.sessOpen_of_cmd (State.chainEnd_cmd ..), hdrop]
  · exact hdrop

theorem State.endIngests_sessOpen (s : State) (n : Nat) : s.endIngests.sessOpen n = s.sessOpen n := by
  have hjob (s : State) (x : JobUnit) : State.sessOpen { s with job := x } n = s.sessOpen n := rfl
  rw [State.endIngests]
  refine (State.foldl_keeps (State.sessOpen · n) (fun _ _ => State.finishSlot_sessOpen ..) _ _).trans ?_
  rw [hjob]
  refine State.foldl_keeps (State.sessOpen · n) (fun s ch => ?_) _ s
  split
  · exact State.stopPage_sessOpen ..
  · rfl

theorem State.jobEnd_sessOpen (s : State) (n : Nat) : s.jobEnd.sessOpen n = s.sessOpen n := by
  have hjob (s : State) (x : JobUnit) : State.cmd { s with job := x } = s.cmd := rfl
  have hopen (u : State) : (State.storeAtEnd (State.setReq (State.flushGaps (State.clearBars u)) 0xFFFF)).sessOpen n =
      u.sessOpen n := by
    refine State.sessOpen_of_cmd (State.cmd_of_offPrint ?_) n
    rw [State.storeAtEnd_offPrint, State.setReq_offPrint, SettleBlind.flushGaps SettleBlind.offPrint,
      State.clearBars_offPrint]
  rw [State.jobEnd, hopen, State.sessOpen_of_cmd (State.setFld_cmd ..), State.sessOpen_of_cmd (hjob ..),
    State.endIngests_sessOpen, State.sessOpen_of_cmd (State.enter_cmd ..)]

/-- A job's end leaves no job, but the last handle given. -/
theorem State.jobEnd_job (s : State) : s.jobEnd.job = { handle := (s.enter stReady).endIngests.job.handle } := by
  rw [← State.jobSeen_job, State.jobEnd, State.storeAtEnd_jobSeen, State.setReq_jobSeen, State.flushGaps_jobSeen,
    State.clearBars_jobSeen, State.jobSeen_job, State.setFld_job]

end Sys2Proof.Machine

/-! SUPPORT. Printing (R106, R163): what each command runs its answer on. -/
namespace Sys2Proof.Machine

/-- A job that is not closed does not end. -/
theorem State.checkEnd_of_open {s : State} (h : s.job.closed = false) : s.checkEnd = s := by
  have hdone : s.jobDone = false := by rw [State.jobDone, h, Bool.and_false, Bool.false_and]
  rw [State.checkEnd, hdone, Bool.and_false]
  rfl

theorem State.ready_accepted {s : State} {rq : Rq} {op : Nat} {doms : List Domain} (h : s.ready rq op doms = true) :
    acceptedIn op s.st = true := by
  simp only [State.ready, Bool.and_eq_true] at h
  exact h.1.1.1.2

theorem State.st_lt (s : State) : s.st < 16 := s.fld_lt Reg.PLAT_STATE_STATE

theorem State.enter_prev {s : State} {v : Nat} (h : s.st ≠ v) : (s.enter v).fld Reg.PLAT_STATE_PREV = s.st := by
  rw [State.fld_of_regs (State.enter_regs h), State.fld_setFld_clear (by decide)]
  exact State.fld_setFld (Fld.fits_of_decide rfl) s.st_lt

/-- The state that ARM leaves before it is shown: bars and runs cleared, the job's positions begun at the web's (R158,
R161, R398). -/
def State.armCleared (s : State) : State := s.undozeAll.clearBars.giveUp.flushGaps

/-- The job's positions begun at `h`, and the Yo-yo's calm at this tick. -/
def State.restarted (s : State) (h : Int) : State :=
  { s with ppos := { high := h }, fire := { s.fire with caps := [], calm := s.now } }

theorem State.restarted_offPrint (s : State) (h : Int) : (s.restarted h).offPrint = s.offPrint := (rfl)

theorem State.restarted_job (s : State) (h : Int) : (s.restarted h).job = s.job := (rfl)

theorem State.restarted_ppos (s : State) (h : Int) : (s.restarted h).ppos = { high := h } := (rfl)

/-- The job armed. -/
def State.armed (s : State) : State :=
  ((s.armCleared.restarted s.armCleared.webPos).setReq 0xFFFF).enter stArmed

theorem State.armCleared_offPrint (s : State) :
    s.armCleared.offPrint = State.offPrint { s with spare := { s.spare with dozing := [] } } := by
  rw [State.armCleared, SettleBlind.flushGaps SettleBlind.offPrint, SettleBlind.giveUp SettleBlind.offPrint,
    State.clearBars_offPrint, State.undozeAll, State.showGated_offPrint]

theorem State.armCleared_webPos (s : State) : s.armCleared.webPos = s.webPos :=
  (State.webPos_of_offPrint s.armCleared_offPrint).trans (Eq.refl _)

theorem State.armCleared_job (s : State) : s.armCleared.job = s.job := by
  have hblind (k : Nat) : SettleBlind k State.job := ⟨fun _ _ _ _ => State.setFld_job .., fun _ _ _ => rfl, fun _ _ => rfl⟩
  rw [State.armCleared, SettleBlind.flushGaps hblind, SettleBlind.giveUp hblind, ← State.jobSeen_job,
    State.clearBars_jobSeen, State.jobSeen_job]
  exact congrArg (·.1) (State.undozeAll_printUnits s)

section

variable (s : State)

theorem State.armed_st : s.armed.st = stArmed := State.enter_st (by decide)

theorem State.armed_offPrint : s.armed.offPrint = State.offPrint { s with spare := { s.spare with dozing := [] } } := by
  rw [State.armed, State.enter_offPrint, State.setReq_offPrint, State.restarted_offPrint, State.armCleared_offPrint]

theorem State.armed_job : s.armed.job = s.job := by
  rw [State.armed, State.enter_job, ← State.jobSeen_job, State.setReq_jobSeen, State.jobSeen_job, State.restarted_job,
    State.armCleared_job]

theorem State.armed_ppos : s.armed.ppos = { high := s.webPos } := by
  have hreq (u : State) (v : Nat) : (u.setReq v).ppos = u.ppos := congrArg (·.2.2.2.1) (State.setReq_printUnits u v)
  rw [State.armed, State.enter_ppos, hreq, State.restarted_ppos, State.armCleared_webPos]

end

section

variable {s : State} {rq : Rq}

theorem execArm_arms (h : s.ready rq 0x0110 = true) (hj : s.job.active = true)
    (hm : s.masterEnc.isSome = true ∨ s.posFromRing = true) (ho : s.twoOrigins = false)
    (hb : s.jobBars.all s.barReady = true) : execArm rq s.job.num s =
      .next (((s.take rq).armed.finish rq 0x0110 scDone (tickBytes s.webPos)).lift rq.sess rq.tag) := by
  have hj' : ((s.take rq).job.active && decide ((s.take rq).job.num = s.job.num)) = true :=
    (Bool.and_eq_true ..).mpr ⟨hj, decide_eq_true rfl⟩
  have hplace : ¬(((s.take rq).masterEnc.isNone && !(s.take rq).posFromRing) || (s.take rq).twoOrigins) = true := by
    show ¬((s.masterEnc.isNone && !s.posFromRing) || s.twoOrigins) = true
    rw [ho, Bool.or_false, Bool.and_eq_true, Option.isNone_iff_eq_none, Bool.not_eq_true']
    rintro ⟨hnone, hring⟩
    rw [hnone, hring] at hm
    rcases hm with hm | hm <;> cases hm
  have hbars : ¬(!(s.take rq).jobBars.all (s.take rq).barReady) = true := by
    show ¬(!s.jobBars.all s.barReady) = true
    rw [hb]
    decide
  have hpos : (s.take rq).armCleared.webPos = s.webPos := State.armCleared_webPos _
  rw [← hpos, execArm, State.run_ready _ h, State.withParams_ok _ (State.ready_reserved h) (by simpa using hj'), if_neg hplace,
    if_neg hbars, State.armed, State.restarted, State.armCleared]

theorem execStart_starts {pos : Int} (h : s.ready rq 0x0111 = true) (hp : s.ppos.high + 16 ≤ pos)
    (hl : s.liftReady = true) (hc : s.job.closed = false) : execStart rq pos s =
      .next (((((s.take rq).setOffset pos).enter stPrinting).finish rq 0x0111 scDone).lift rq.sess rq.tag) := by
  have hl' : ¬(!(s.take rq).liftReady) = true := by
    show ¬(!s.liftReady) = true
    rw [hl]
    decide
  have hopen : ((((s.take rq).setOffset pos).enter stPrinting).finish rq 0x0111 scDone).job.closed = false := by
    rw [State.finish_job, State.enter_job]
    exact hc
  rw [execStart, State.run_ready _ h, State.withParams_ok _ (State.ready_reserved h) (by simpa using hp), if_neg hl',
    State.checkEnd_of_open hopen]

theorem execPause_pauses (h : s.ready rq 0x0112 = true) : execPause rq s =
    .next (((s.take rq).pause.finish rq 0x0112 scDone (tickBytes s.lastFired)).lift rq.sess rq.tag) := by
  rw [execPause, State.run_ready _ h, State.withParams_ok _ (State.ready_reserved h) (by simp)]
  rfl

/-- The offset, and the sheets that are held, moved by RESUME. -/
def State.moved (s : State) (pos : Int) : State :=
  (s.setOffset (s.ppos.offset + (pos - s.ppos.paused))).shiftSheets (pos - s.ppos.paused)

theorem State.shiftSheets_keeps {β : Type} {view : State → β} (h : ∀ (s : State) l, view { s with bars := l } = view s)
    (s : State) (d : Int) : view (s.shiftSheets d) = view s :=
  State.foldl_keeps view (fun s b => by
    split
    · exact h ..
    · rfl) _ s

theorem execResume_resumes {pos : Int} (h : s.ready rq 0x0113 = true) (hp : s.ppos.high + 16 ≤ pos)
    (hl : s.liftReady = true) (hc : s.job.closed = false) : execResume rq pos s =
      .next (((((s.take rq).moved pos).enter stPrinting).finish rq 0x0113 scDone).lift rq.sess rq.tag) := by
  have hl' : ¬(!(s.take rq).liftReady) = true := by
    show ¬(!s.liftReady) = true
    rw [hl]
    decide
  have hopen : ((((s.take rq).moved pos).enter stPrinting).finish rq 0x0113 scDone).job.closed = false := by
    rw [State.finish_job, State.enter_job, State.moved, State.shiftSheets_keeps (view := State.job) fun _ _ => rfl]
    exact hc
  rw [← State.checkEnd_of_open hopen, execResume, State.run_ready _ h,
    State.withParams_ok _ (State.ready_reserved h) (by simpa using hp), if_neg hl']
  rfl

theorem execStop_stops (h : s.ready rq 0x0114 = true) : execStop rq s =
    .next (((s.take rq).hold.jobEnd.finish rq 0x0114 scDone s.stopReply).lift rq.sess rq.tag) := by
  rw [execStop, State.run_ready _ h, State.withParams_ok _ (State.ready_reserved h) (by simp)]
  rfl

end

/-- PAUSE's effect: PAUSED at the lowest due position held, the job and its offset as they were. -/
theorem State.pause_holds (s : State) : s.pause.st = stPaused ∧
    s.pause.ppos = { s.ppos with paused := (lowest s.heldDue).getD s.ppos.high } ∧ s.pause.job = s.job := by
  refine ⟨State.enter_st (by decide), ?_, ?_⟩
  · rw [State.pause, State.enter_ppos]
    rfl
  · rw [State.pause, State.enter_job]
    rfl

/-- Settles O33: each command by the state that its answer is given on; STOP and PRINT_STOP by `jobEnd`. -/
theorem printCommandsComplete : Obligations.PrintCommandsComplete := by
  refine ⟨?arm, ?start, ?pause, ?resume, ?stop, ?printPause, ?printStop⟩
  case arm =>
    intro s rq h hj hm ho hb
    have hopen : (s.take rq).armed.sessOpen rq.sess = true :=
      (State.sessOpen_of_cmd (State.cmd_of_offPrint (State.armed_offPrint _)) _).trans (State.ready_open h)
    have hppos := (State.rest_ppos (State.finish_lift_rest (u := (s.take rq).armed) (rq := rq) (op := 0x0110) (st := scDone)
      (pl := tickBytes s.webPos) rq.sess rq.tag)).trans (State.armed_ppos _)
    refine ⟨_, execArm_arms h hj hm ho hb, State.finish_lift_answered hopen .., (State.finish_lift_st ..).trans (State.armed_st _),
      ?_, ?_, ?_, ?_⟩
    · rw [hppos]
      rfl
    · rw [hppos]
    · rw [State.rest_spare (State.finish_lift_rest ..), State.spare_of_offPrint (State.armed_offPrint _)]
    · rw [State.rest_job (State.finish_lift_rest ..), State.armed_job]
      rfl
  case start =>
    intro s rq pos h hp hl hc
    have hopen : (((s.take rq).setOffset pos).enter stPrinting).sessOpen rq.sess = true :=
      (State.sessOpen_of_cmd (State.enter_cmd ..) _).trans (State.ready_open h)
    have hst : s.st = stArmed := beq_iff_eq.mp (State.ready_accepted h)
    have hne : ((s.take rq).setOffset pos).st ≠ stPrinting := by
      show s.st ≠ stPrinting
      rw [hst]
      decide
    refine ⟨_, execStart_starts h hp hl hc, State.finish_lift_answered hopen ..,
      (State.finish_lift_st ..).trans (State.enter_st (by decide)), ?_, ?_, ?_, ?_⟩
    · rw [State.rest_ppos (State.finish_lift_rest ..), State.enter_ppos]
      rfl
    · rw [State.rest_ppos (State.finish_lift_rest ..), State.enter_ppos]
      rfl
    · rw [State.finish_lift_fld (Fld.fits_of_decide rfl) (.inr (by decide)) ⟨by decide, by decide, by decide⟩,
        State.enter_prev hne]
      exact hst
    · rw [State.rest_job (State.finish_lift_rest ..), State.enter_job]
      rfl
  case pause =>
    intro s rq h
    obtain ⟨hst, hppos, hjob⟩ := (s.take rq).pause_holds
    have hopen : (s.take rq).pause.sessOpen rq.sess = true :=
      (State.sessOpen_of_cmd (State.enter_cmd ..) _).trans (State.ready_open h)
    refine ⟨_, execPause_pauses h, State.finish_lift_answered hopen .., (State.finish_lift_st ..).trans hst, ?_, ?_, ?_⟩
    · rw [State.rest_ppos (State.finish_lift_rest ..), hppos]
      rfl
    · rw [State.rest_ppos (State.finish_lift_rest ..), hppos]
      rfl
    · rw [State.rest_job (State.finish_lift_rest ..), hjob]
      rfl
  case resume =>
    intro s rq pos h hp hl hc
    have hopen : (((s.take rq).moved pos).enter stPrinting).sessOpen rq.sess = true := by
      rw [State.sessOpen_of_cmd (State.enter_cmd ..), State.moved,
        State.sessOpen_of_cmd (State.shiftSheets_keeps (view := State.cmd) (fun _ _ => rfl) ..)]
      exact State.ready_open h
    refine ⟨_, execResume_resumes h hp hl hc, State.finish_lift_answered hopen ..,
      (State.finish_lift_st ..).trans (State.enter_st (by decide)), ?_, ?_⟩
    · rw [State.rest_ppos (State.finish_lift_rest ..), State.enter_ppos, State.moved,
        State.shiftSheets_keeps (view := State.ppos) fun _ _ => rfl]
      rfl
    · rw [State.rest_job (State.finish_lift_rest ..), State.enter_job, State.moved,
        State.shiftSheets_keeps (view := State.job) fun _ _ => rfl]
      rfl
  case stop =>
    intro s rq h
    obtain ⟨-, -, hshown, hst⟩ := (s.take rq).hold.jobEnd_ends
    have hopen : (s.take rq).hold.jobEnd.sessOpen rq.sess = true :=
      (State.jobEnd_sessOpen ..).trans (State.ready_open h)
    refine ⟨_, execStop_stops h, State.finish_lift_answered hopen .., (State.finish_lift_st ..).trans hst, ?_, ?_, ?_, ?_⟩
    · rw [State.rest_job (State.finish_lift_rest ..), State.jobEnd_job]
    · rw [State.rest_job (State.finish_lift_rest ..), State.jobEnd_job]
    · rw [State.rest_job (State.finish_lift_rest ..), State.jobEnd_job]
    · rw [State.finish_lift_fld (Fld.fits_of_decide rfl) (.inr (by decide)) ⟨by decide, by decide, by decide⟩, hshown]
  case printPause =>
    intro s hst
    obtain ⟨hpaused, hppos, hjob⟩ := s.pause_holds
    refine ⟨_, congrArg Host.Outcome.next (if_pos hst), ?_, ?_, State.endTask_free .., ?_⟩
    · exact (State.endTask_keeps (view := State.st) (fun _ _ => rfl) ..).trans hpaused
    · rw [State.endTask_keeps (view := State.ppos) fun _ _ => rfl, hppos]
    · rw [State.endTask_keeps (view := State.job) fun _ _ => rfl, hjob]
  case printStop =>
    intro s hst
    have hin : s.inSt [stArmed, stPrinting, stPaused] = true := by
      rcases hst with hst | hst | hst <;> rw [State.inSt, hst] <;> rfl
    obtain ⟨hactive, hentries, -, hready⟩ := s.hold.jobEnd_ends
    refine ⟨_, congrArg Host.Outcome.next (if_pos hin), ?_, ?_, ?_, State.endTask_free ..⟩
    · exact (State.endTask_keeps (view := State.st) (fun _ _ => rfl) ..).trans hready
    · rw [State.endTask_keeps (view := State.job) fun _ _ => rfl, hactive]
    · rw [State.endTask_keeps (view := State.job) fun _ _ => rfl, hentries]

end Sys2Proof.Machine

/-! SUPPORT. A line's fate (R175, R176, R182, R224): what its settling leaves of the registers and of its board. -/
namespace Sys2Proof.Machine

/-! Bytes of a packet. -/

theorem leNat_lt (l : List Byte) : leNat l < 256 ^ l.length := by
  induction l with
  | nil => exact Nat.one_pos
  | cons b l ih =>
    have hb : b.toNat < 256 := b.isLt
    rw [leNat, List.length_cons, pow_succ]
    omega

theorem leAt_lt (l : List Byte) (o n : Nat) : leAt l o n < 256 ^ n :=
  (leNat_lt _).trans_le (Nat.pow_le_pow_right (by decide) (by rw [slice, List.length_take]; exact Nat.min_le_left ..))

theorem State.prof_lt (s : State) (k o n : Nat) : s.prof k o n < 256 ^ n := by
  rw [State.prof]
  split
  · exact leAt_lt ..
  · exact Nat.pow_pos (by decide)

/-! Fields. -/

/-- A field that the settling of a line does not touch: below the event matrix and the memory, and no count of gap
records. -/
def Fld.outlivesLine (f : Fld) : Bool :=
  decide (f.lo ≤ f.hi ∧ f.hi < 32) && decide (f.addr < 0x290000) && f.addr != Reg.FIRE_CNT_GAPS

section

variable {f : Fld} (h : f.outlivesLine = true)
include h

theorem Fld.outlivesLine_parts : f.fits ∧ f.addr < 0x290000 ∧ f.addr ≠ Reg.FIRE_CNT_GAPS := by
  simp only [Fld.outlivesLine, Bool.and_eq_true, decide_eq_true_eq, bne_iff_ne] at h
  obtain ⟨⟨hfit, hlow⟩, hgap⟩ := h
  exact ⟨hfit, hlow, hgap⟩

theorem Fld.offDram_of_outlivesLine : f.OffDram :=
  let ⟨hfit, hlow, _⟩ := Fld.outlivesLine_parts h
  Fld.offDram_of_low hfit hlow

theorem State.sealFate_fld (s : State) (b k n code : Nat) : (s.sealFate b k n code).fld f = s.fld f := by
  rw [State.sealFate]
  split
  · rfl
  · exact State.foldl_keeps (State.fld · f)
      (fun _ _ => State.writeMem_fld (Fld.offDram_of_outlivesLine h) ..) _ _

theorem State.settleLine_fld (s : State) (k n code : Nat) : (s.settleLine k n code).fld f = s.fld f := by
  obtain ⟨-, -, hgap⟩ := Fld.outlivesLine_parts h
  rw [State.settleLine, (SettleBlind.fld hgap).settle]
  split
  · exact State.sealFate_fld h ..
  · rfl

end

theorem State.updDecided_fld (s : State) (k n : Nat) (u : Decided → Decided) (f : Fld) :
    (s.updDecided k n u).fld f = s.fld f := (rfl)

theorem State.setBoard_fld (s : State) (k : Nat) (x : Board) (f : Fld) : (s.setBoard k x).fld f = s.fld f := (rfl)

/-! The board. -/

theorem State.board_of_fire {s t : State} (h : t.fire = s.fire) (k : Nat) : t.board k = s.board k := by
  rw [State.board, h, State.board]

theorem State.setFld_board (s : State) (f : Fld) (v k : Nat) : (s.setFld f v).board k = s.board k := (rfl)

theorem State.fireEvent_board (s : State) (bit : Nat) (tag : Option Nat) (k : Nat) :
    (s.fireEvent bit tag).board k = s.board k :=
  State.board_of_fire (State.fire_of_printUnits (State.fireEvent_printUnits ..)) k

theorem State.safeLine_board (s : State) (k cause j : Nat) : (s.safeLine k cause).board j = s.board j :=
  State.board_of_fire (State.fire_of_printUnits (State.safeLine_printUnits ..)) j

theorem State.sealFate_fire (s : State) (b k n code : Nat) : (s.sealFate b k n code).fire = s.fire := by
  rw [State.sealFate]
  split
  · rfl
  · exact (State.fire_of_printUnits (State.storeCopies_printUnits ..)).trans (Eq.refl _)

section

variable {β : Type} {view : Board → β}

/-- What of a board is no decided line and no run. -/
theorem SettleBlind.ofBoard (h : ∀ x d g, view { x with decided := d, gap := g } = view x) (k : Nat) :
    SettleBlind k (fun s => view (s.board k)) where
  count _ _ _ _ := rfl
  board _ _ _ := (congrArg view (State.board_setBoard ..)).trans (h ..)
  ring _ _ := rfl

theorem State.settleLine_board (h : ∀ x d g, view { x with decided := d, gap := g } = view x) (s : State)
    (k n code : Nat) : view ((s.settleLine k n code).board k) = view (s.board k) := by
  rw [State.settleLine]
  refine ((SettleBlind.ofBoard h k).settle _).trans (congrArg view (State.board_of_fire ?_ k))
  split
  · exact State.sealFate_fire ..
  · rfl

theorem State.updDecided_board (h : ∀ x d g, view { x with decided := d, gap := g } = view x) (s : State) (k n : Nat)
    (u : Decided → Decided) : view ((s.updDecided k n u).board k) = view (s.board k) := by
  rw [State.updDecided, State.board_setBoard]
  exact h _ _ (s.board k).gap

end

/-! An echo (R169, R175, R176). -/

/-- The fields in which an echo may show beside those of its own register and the credits. -/
def echoFlds (k : Nat) : List Fld :=
  [Reg.FIRE_B_STATUS_STATE k, Reg.FIRE_B_STATUS_ECHO_FAULT k, Reg.FIRE_B_STATUS_RAIL_FAULT k, Reg.FIRE_B_STATUS_LAST_CAUSE k,
    Reg.FIRE_B_COUNT_SAFE k, Reg.FIRE_EVENTS_HOT, Reg.FIRE_EVENTS_ECHO, Reg.FIRE_EVENTS_SAFE, Reg.FIRE_CNT_SAFE_COUNT,
    Reg.FIRE_CNT_LATE_COUNT]

/-- A field that an echo of board `k` leaves alone, unless it is one of the board's own register of the last echo. -/
def Fld.outlivesEcho (k : Nat) (f : Fld) : Bool := f.outlivesLine && (echoFlds k).all fun g => g.clearOf f

section

variable {k : Nat} {f : Fld} (h : f.outlivesEcho k = true)
include h

theorem Fld.outlivesLine_of_echo : f.outlivesLine = true := ((Bool.and_eq_true ..).mp h).1

theorem State.setFld_outlived (s : State) {g : Fld} (hg : g ∈ echoFlds k) (v : Nat) : (s.setFld g v).fld f = s.fld f :=
  State.fld_setFld_clear (List.all_eq_true.mp ((Bool.and_eq_true ..).mp h).2 g hg)

theorem State.fireEvent_outlived (s : State) (bit : Nat) (tag : Option Nat) : (s.fireEvent bit tag).fld f = s.fld f :=
  State.fireEvent_fld (Fld.offDram_of_outlivesLine (Fld.outlivesLine_of_echo h)).event

theorem State.latchBoard_outlived (s : State) {bit : Fld} (hbit : bit ∈ echoFlds k) :
    (s.latchBoard k bit).fld f = s.fld f := by
  have hstate : Reg.FIRE_B_STATUS_STATE k ∈ echoFlds k := List.mem_cons_self
  rw [State.latchBoard]
  dsimp only
  split
  · rw [State.setBst, State.setFld_outlived h _ hstate, State.setBoard_fld, State.setFld_outlived h _ hbit]
  · rw [State.setBoard_fld, State.setFld_outlived h _ hbit]

theorem State.echoFault_outlived (s : State) : s.echoFault.fld f = s.fld f := by
  rw [State.echoFault, State.fireEvent_outlived h, State.setFld_outlived h _ (by simp [echoFlds])]

theorem State.safeLine_outlived (s : State) (cause : Nat) : (s.safeLine k cause).fld f = s.fld f := by
  have hcause (s : State) (v : Nat) := State.setFld_outlived h s (g := Reg.FIRE_B_STATUS_LAST_CAUSE k) (by simp [echoFlds]) v
  have hevent (s : State) (v : Nat) := State.setFld_outlived h s (g := Reg.FIRE_EVENTS_SAFE) (by simp [echoFlds]) v
  have hlate (s : State) (v : Nat) := State.setFld_outlived h s (g := Reg.FIRE_CNT_LATE_COUNT) (by simp [echoFlds]) v
  have hboard (s : State) (v : Nat) := State.setFld_outlived h s (g := Reg.FIRE_B_COUNT_SAFE k) (by simp [echoFlds]) v
  have hcount (s : State) (v : Nat) := State.setFld_outlived h s (g := Reg.FIRE_CNT_SAFE_COUNT) (by simp [echoFlds]) v
  rw [State.safeLine.eq_def]
  repeat' split
  all_goals
    simp only [State.bump.eq_def, ↓State.fireEvent_outlived h, ↓hcause, ↓hevent, ↓hlate, ↓hboard, ↓hcount]

/-- The temperature is shown; the board may go to HOT or leave it. -/
theorem State.echoTemp_outlived (s : State) (temp : Nat) (refused : Bool) :
    (s.echoTemp k temp refused).fld f = (s.setFld (Reg.FIRE_B_ECHO_TEMP k) temp).fld f := by
  have hstate : Reg.FIRE_B_STATUS_STATE k ∈ echoFlds k := List.mem_cons_self
  rw [State.echoTemp]
  dsimp only
  split
  · rw [State.setBoard_fld, State.setFld_outlived h _ (by simp [echoFlds]), State.setBst, State.setFld_outlived h _ hstate]
  · split
    · rw [State.setBst, State.setFld_outlived h _ hstate]
    · rfl

/-- The rail is shown; the board may be latched. -/
theorem State.echoRail_outlived (s : State) (rail : Nat) :
    (s.echoRail k rail).fld f = (s.setFld (Reg.FIRE_B_ECHO_RAIL k) rail).fld f := by
  rw [State.echoRail]
  dsimp only
  split
  · rfl
  · split
    · rw [State.latchBoard_outlived h _ (by simp [echoFlds]), State.setBoard_fld]
    · rfl

/-- What an echo matched to its strobe shows in the board's register of the last echo. -/
def State.echoShown (s : State) (k : Nat) (d : Decided) (b : List Byte) : State :=
  (((s.setBoard k { s.board k with echoed := true, misses := 0 }).setFld (Reg.FIRE_B_ECHO_FRAME k) (d.frame % 256)).echoTemp k
    (leAt b 8 2) (!bitAt (leAt b 4 1) 0 && decide (leAt b 4 1 / 2 % 8 = 5))).echoRail k (leAt b 5 1)

/-- The line's cause and fate, once the echo is shown. -/
theorem State.echoMatched_outlived (s : State) (d : Decided) (b : List Byte) :
    (s.echoMatched k d b).fld f = (s.echoShown k d b).fld f := by
  have hfault : Reg.FIRE_B_STATUS_ECHO_FAULT k ∈ echoFlds k := by simp [echoFlds]
  have hcause : Reg.FIRE_B_STATUS_LAST_CAUSE k ∈ echoFlds k := by simp [echoFlds]
  have hmiss {p : Prop} [Decidable p] (u : State) :
      (if p then u.echoFault.latchBoard k (Reg.FIRE_B_STATUS_ECHO_FAULT k) else u).fld f = u.fld f := by
    split
    · rw [State.latchBoard_outlived h _ hfault, State.echoFault_outlived h]
    · rfl
  have hsafe {p q : Prop} [Decidable p] [Decidable q] (u : State) : (if p then u.safeLine k 10 else if q then
      u.setFld (Reg.FIRE_B_STATUS_LAST_CAUSE k) 11 else u).fld f = u.fld f := by
    split
    · exact State.safeLine_outlived h ..
    · split
      · exact State.setFld_outlived h _ hcause _
      · rfl
  rw [State.echoMatched, State.settleLine_fld (Fld.outlivesLine_of_echo h), State.updDecided_fld, hsafe, hmiss,
    State.echoShown]

end

theorem State.echoTemp_board {β : Type} {view : Board → β} (h : ∀ x t, view { x with hotTemp := t } = view x) (s : State)
    (k temp : Nat) (refused : Bool) : view ((s.echoTemp k temp refused).board k) = view (s.board k) := by
  rw [State.echoTemp]
  dsimp only
  split
  · rw [State.board_setBoard, h, State.setFld_board]
  · split
    · rw [State.setBst, State.setFld_board, State.setFld_board]
    · rw [State.setFld_board]

section

variable {β : Type} {view : Board → β}

/-- A view of a board that no echo of it changes, beside those of the last echo and the absent ones. -/
def EchoBlind (view : Board → β) : Prop :=
  ∀ x d g c t r, view { x with decided := d, gap := g, clearing := c, hotTemp := t, rails := r } = view x

variable (h : EchoBlind view)
include h

theorem EchoBlind.lines (x : Board) (d : List Decided) (g : Option GapRun) : view { x with decided := d, gap := g } = view x :=
  h x d g x.clearing x.hotTemp x.rails

theorem State.latchBoard_view (s : State) (k : Nat) (bit : Fld) :
    view ((s.latchBoard k bit).board k) = view (s.board k) := by
  have hlatched (u : State) : view ((u.setBoard k { u.board k with clearing := false }).board k) = view (u.board k) :=
    (congrArg view (State.board_setBoard ..)).trans
      (h (u.board k) (u.board k).decided (u.board k).gap false (u.board k).hotTemp (u.board k).rails)
  rw [State.latchBoard]
  dsimp only
  split
  · rw [State.setBst, State.setFld_board]
    exact hlatched (s.setFld bit 1)
  · exact hlatched (s.setFld bit 1)

theorem State.echoRail_view (s : State) (k rail : Nat) : view ((s.echoRail k rail).board k) = view (s.board k) := by
  have hrails (u : State) (n : Nat) : view ((u.setBoard k { u.board k with rails := n }).board k) = view (u.board k) :=
    (congrArg view (State.board_setBoard ..)).trans
      (h (u.board k) (u.board k).decided (u.board k).gap (u.board k).clearing (u.board k).hotTemp n)
  rw [State.echoRail]
  dsimp only
  split
  · exact hrails _ 0
  · split
    · exact (State.latchBoard_view h ..).trans (hrails _ _)
    · exact hrails _ _

theorem State.echoMatched_view (s : State) (k : Nat) (d : Decided) (b : List Byte) :
    view ((s.echoMatched k d b).board k) = view { s.board k with echoed := true, misses := 0 } := by
  have hmiss {p : Prop} [Decidable p] (u : State) :
      view ((if p then u.echoFault.latchBoard k (Reg.FIRE_B_STATUS_ECHO_FAULT k) else u).board k) = view (u.board k) := by
    split
    · rw [State.latchBoard_view h, State.echoFault, State.fireEvent_board, State.setFld_board]
    · rfl
  have hsafe {p q : Prop} [Decidable p] [Decidable q] (u : State) : (if p then u.safeLine k 10 else if q then
      u.setFld (Reg.FIRE_B_STATUS_LAST_CAUSE k) 11 else u).board k = u.board k := by
    split
    · exact State.safeLine_board ..
    · split
      · rw [State.setFld_board]
      · exact Eq.refl _
  rw [State.echoMatched, State.settleLine_board h.lines, State.updDecided_board h.lines, hsafe, hmiss,
    State.echoRail_view h,
    State.echoTemp_board (fun x t => h x x.decided x.gap x.clearing t x.rails), State.setFld_board, State.board_setBoard]

end

/-! The fields of a board that a line and an echo leave. -/

theorem Reg.credits_outlivesEcho : ∀ k, k < 48 → (Reg.FIRE_B_STATUS_CREDITS k).outlivesEcho k = true := by decide +kernel

theorem Reg.echoTemp_outlivesEcho : ∀ k, k < 48 → (Reg.FIRE_B_ECHO_TEMP k).outlivesEcho k = true := by decide +kernel

theorem Reg.echoRail_outlivesEcho : ∀ k, k < 48 → (Reg.FIRE_B_ECHO_RAIL k).outlivesEcho k = true := by decide +kernel

theorem Reg.echoFrame_outlivesEcho : ∀ k, k < 48 → (Reg.FIRE_B_ECHO_FRAME k).outlivesEcho k = true := by decide +kernel

theorem Reg.echoMiss_outlivesEcho : ∀ k, k < 48 → (Reg.FIRE_B_COUNT_ECHO_MISS k).outlivesEcho k = true := by decide +kernel

theorem Reg.lastCause_outlivesLine : ∀ k, k < 48 → (Reg.FIRE_B_STATUS_LAST_CAUSE k).outlivesLine = true := by decide +kernel

theorem Reg.echoFault_outlivesLine : ∀ k, k < 48 → (Reg.FIRE_B_STATUS_ECHO_FAULT k).outlivesLine = true := by decide +kernel

/-- The last echo's register reads the echo. -/
theorem State.echoShown_reads {s : State} {k : Nat} (hk : k < 48) (d : Decided) (b : List Byte) :
    (s.echoShown k d b).fld (Reg.FIRE_B_ECHO_TEMP k) = leAt b 8 2 ∧
      (s.echoShown k d b).fld (Reg.FIRE_B_ECHO_FRAME k) = d.frame % 256 ∧
      (s.echoShown k d b).fld (Reg.FIRE_B_ECHO_RAIL k) = leAt b 5 1 ∧
      (s.echoShown k d b).fld (Reg.FIRE_B_STATUS_CREDITS k) = s.fld (Reg.FIRE_B_STATUS_CREDITS k) := by
  have hstatus {g : Fld} (hg : g.addr = Reg.FIRE_B_ECHO k) (u : State) (v : Nat) :
      (u.setFld g v).fld (Reg.FIRE_B_STATUS_CREDITS k) = u.fld (Reg.FIRE_B_STATUS_CREDITS k) := by
    refine State.fld_of_reg (State.reg_setFld_other ?_)
    rw [hg]
    show 0x110004 + 0x10 * k ≠ 0x110008 + 0x10 * k
    omega
  refine ⟨?_, ?_, ?_, ?_⟩
  · rw [State.echoShown, State.echoRail_outlived (Reg.echoTemp_outlivesEcho k hk),
      State.fld_setFld_clear (Fld.clearOf_of_bits (by rfl)), State.echoTemp_outlived (Reg.echoTemp_outlivesEcho k hk)]
    exact State.fld_setFld (Fld.fits_of_decide rfl) (leAt_lt b 8 2)
  · rw [State.echoShown, State.echoRail_outlived (Reg.echoFrame_outlivesEcho k hk),
      State.fld_setFld_clear (Fld.clearOf_of_bits (by rfl)), State.echoTemp_outlived (Reg.echoFrame_outlivesEcho k hk),
      State.fld_setFld_clear (Fld.clearOf_of_bits (by rfl))]
    exact State.fld_setFld (Fld.fits_of_decide rfl) (Nat.mod_lt _ (by decide))
  · rw [State.echoShown, State.echoRail_outlived (Reg.echoRail_outlivesEcho k hk)]
    exact State.fld_setFld (Fld.fits_of_decide rfl) (leAt_lt b 5 1)
  · rw [State.echoShown, State.echoRail_outlived (Reg.credits_outlivesEcho k hk), hstatus rfl,
      State.echoTemp_outlived (Reg.credits_outlivesEcho k hk), hstatus rfl, hstatus rfl, State.setBoard_fld]

theorem State.setCredits_credits (s : State) (k : Nat) {v : Nat} (hv : v < 256) :
    (s.setCredits k v).fld (Reg.FIRE_B_STATUS_CREDITS k) = v := by
  rw [State.setCredits, Nat.min_eq_right (Nat.le_of_lt_succ hv)]
  exact State.fld_setFld (Fld.fits_of_decide rfl) hv

/-! The echo that does not come (R176). -/

/-- The board's count of absent echoes, and its latch at MISS_LIMIT. -/
def State.echoMissed (s : State) (k : Nat) : State :=
  let n := (s.board k).misses + 1
  let s := (s.bump (Reg.FIRE_B_COUNT_ECHO_MISS k)).setBoard k { s.board k with misses := n }
  if s.fld Reg.FIRE_CTRL_MISS_LIMIT ≤ n then s.latchBoard k (Reg.FIRE_B_STATUS_ECHO_FAULT k) else s

/-- An ECHO_FAULT line shown with its cause. -/
def State.echoBlamed (s : State) (k : Nat) : State := s.echoFault.setFld (Reg.FIRE_B_STATUS_LAST_CAUSE k) 11

theorem State.execEchoTimeout_blames {s : State} {k : Nat} {d : Decided}
    (hd : (s.board k).decided.find? (fun d => d.strobed && !d.echo) = some d) : execEchoTimeout k s =
      .next ((((s.echoMissed k).echoBlamed k).updDecided k d.frame fun e =>
        { e with sure := true, echo := true, cause := 11, sub := 1 }).settleLine k d.frame 11) := by
  rw [execEchoTimeout, hd]
  rfl

theorem State.echoMissed_misses (s : State) (k : Nat) : ((s.echoMissed k).board k).misses = (s.board k).misses + 1 := by
  rw [State.echoMissed]
  dsimp only
  split
  · rw [State.latchBoard_view (view := Board.misses) fun _ _ _ _ _ _ => Eq.refl _, State.board_setBoard]
  · rw [State.board_setBoard]

theorem State.echoBlamed_board (s : State) (k : Nat) : (s.echoBlamed k).board k = s.board k := by
  rw [State.echoBlamed, State.setFld_board, State.echoFault, State.fireEvent_board, State.setFld_board]

theorem State.echoMissed_count {s : State} {k : Nat} (hk : k < 48) :
    (s.echoMissed k).fld (Reg.FIRE_B_COUNT_ECHO_MISS k) = min (s.fld (Reg.FIRE_B_COUNT_ECHO_MISS k) + 1) 65535 := by
  have hcount : (s.bump (Reg.FIRE_B_COUNT_ECHO_MISS k)).fld (Reg.FIRE_B_COUNT_ECHO_MISS k) =
      min (s.fld (Reg.FIRE_B_COUNT_ECHO_MISS k) + 1) 65535 :=
    State.fld_setFld (Fld.fits_of_decide rfl) (lt_of_le_of_lt (Nat.min_le_right ..) (Nat.sub_lt (Nat.two_pow_pos _) Nat.one_pos))
  rw [State.echoMissed]
  dsimp only
  split
  · rw [State.latchBoard_outlived (Reg.echoMiss_outlivesEcho k hk) _ (by simp [echoFlds]), State.setBoard_fld, hcount]
  · rw [State.setBoard_fld, hcount]

theorem State.echoBlamed_count {s : State} {k : Nat} (hk : k < 48) :
    (s.echoBlamed k).fld (Reg.FIRE_B_COUNT_ECHO_MISS k) = s.fld (Reg.FIRE_B_COUNT_ECHO_MISS k) := by
  have h := Reg.echoMiss_outlivesEcho k hk
  rw [State.echoBlamed, State.setFld_outlived h _ (by simp [echoFlds]), State.echoFault_outlived h]

theorem Reg.lastCause_clearOf_events : ∀ k, k < 48 →
    (Reg.FIRE_B_STATUS_LAST_CAUSE k).clearOf Reg.FIRE_EVENTS_ECHO = true := by decide +kernel

theorem Reg.events_clearOf_echoFault : ∀ k, k < 48 →
    Reg.FIRE_EVENTS_ECHO.clearOf (Reg.FIRE_B_STATUS_ECHO_FAULT k) = true := by decide +kernel

theorem Reg.echoMiss_clearOf_limit : ∀ k, k < 48 →
    (Reg.FIRE_B_COUNT_ECHO_MISS k).clearOf Reg.FIRE_CTRL_MISS_LIMIT = true := by decide +kernel

theorem Reg.eventsEcho_outlivesLine : Reg.FIRE_EVENTS_ECHO.outlivesLine = true := by decide

theorem State.echoBlamed_cause (s : State) (k : Nat) : (s.echoBlamed k).fld (Reg.FIRE_B_STATUS_LAST_CAUSE k) = 11 :=
  State.fld_setFld (Fld.fits_of_decide rfl) (by show 11 < 2 ^ 4; decide)

theorem State.echoBlamed_event {s : State} {k : Nat} (hk : k < 48) : (s.echoBlamed k).fld Reg.FIRE_EVENTS_ECHO = 1 := by
  rw [State.echoBlamed, State.fld_setFld_clear (Reg.lastCause_clearOf_events k hk), State.echoFault,
    State.fireEvent_fld (Fld.offDram_of_outlivesLine Reg.eventsEcho_outlivesLine).event]
  exact State.fld_setFld (Fld.fits_of_decide rfl) (by decide)

theorem State.echoBlamed_fault {s : State} {k : Nat} (hk : k < 48) :
    (s.echoBlamed k).fld (Reg.FIRE_B_STATUS_ECHO_FAULT k) = s.fld (Reg.FIRE_B_STATUS_ECHO_FAULT k) := by
  rw [State.echoBlamed, State.fld_setFld_clear (Fld.clearOf_of_bits (by rfl)), State.echoFault,
    State.fireEvent_fld (Fld.offDram_of_outlivesLine (Reg.echoFault_outlivesLine k hk)).event,
    State.fld_setFld_clear (Reg.events_clearOf_echoFault k hk)]

/-- A latched fault reads 1. -/
theorem State.latchBoard_fault (s : State) (k : Nat) :
    (s.latchBoard k (Reg.FIRE_B_STATUS_ECHO_FAULT k)).fld (Reg.FIRE_B_STATUS_ECHO_FAULT k) = 1 := by
  have hset : (s.setFld (Reg.FIRE_B_STATUS_ECHO_FAULT k) 1).fld (Reg.FIRE_B_STATUS_ECHO_FAULT k) = 1 :=
    State.fld_setFld (Fld.fits_of_decide rfl) (by show 1 < 2 ^ 1; decide)
  rw [State.latchBoard]
  dsimp only
  split
  · rw [State.setBst, State.fld_setFld_clear (Fld.clearOf_of_bits (by rfl)), State.setBoard_fld, hset]
  · rw [State.setBoard_fld, hset]

theorem State.echoMissed_fault {s : State} {k : Nat} (hk : k < 48)
    (hlimit : s.fld Reg.FIRE_CTRL_MISS_LIMIT ≤ (s.board k).misses + 1) :
    (s.echoMissed k).fld (Reg.FIRE_B_STATUS_ECHO_FAULT k) = 1 := by
  rw [State.echoMissed]
  dsimp only
  rw [State.setBoard_fld, State.bump, State.fld_setFld_clear (Reg.echoMiss_clearOf_limit k hk), if_pos hlimit,
    State.latchBoard_fault]

/-! The other packets from a board (R169, Table 07-5). -/

theorem State.setFld_prof (s : State) (g : Fld) (v k o n : Nat) : (s.setFld g v).prof k o n = s.prof k o n := by
  rw [State.prof, State.setFld_board, State.prof]

theorem State.setFlag_prof (s : State) (g : Fld) (v : Bool) (k o n : Nat) : (s.setFlag g v).prof k o n = s.prof k o n :=
  State.setFld_prof ..

section

variable {s : State} {k f : Nat} {bytes b : List Byte} (hk : k < 48) (hu : s.boardUsed k = true)
include hk hu

theorem State.execEcho_matched {d : Decided} (hb : herufIn 0x81 bytes = some (f, b))
    (hd : (s.board k).decided.find? (fun d => d.strobed && !d.echo && d.frame % idxMod == f) = some d) :
    execEcho k bytes s = .next ((s.setCredits k (leAt b 6 1)).echoMatched k d b) := by
  have hd' : ((s.setCredits k (leAt b 6 1)).board k).decided.find?
      (fun d => d.strobed && !d.echo && d.frame % idxMod == f) = some d := hd
  rw [execEcho, if_neg (by simp [hk, hu]), hb]
  dsimp only
  rw [hd']

theorem State.execEcho_late (hb : herufIn 0x81 bytes = some (f, b))
    (hd : (s.board k).decided.find? (fun d => d.strobed && !d.echo && d.frame % idxMod == f) = none) :
    execEcho k bytes s = .next ((s.setCredits k (leAt b 6 1)).echoTemp k (leAt b 8 2) false) := by
  have hd' : ((s.setCredits k (leAt b 6 1)).board k).decided.find?
      (fun d => d.strobed && !d.echo && d.frame % idxMod == f) = none := hd
  rw [execEcho, if_neg (by simp [hk, hu]), hb]
  dsimp only
  rw [hd']

theorem State.execCredit_credits (hb : herufIn 0x82 bytes = some (f, b)) :
    execCredit k bytes s = .next (s.setCredits k (leAt b 0 1)) := by
  rw [execCredit, if_pos (by simp [hk, hu]), hb]

theorem State.execHelloRepeat_sends (hs : s.bst k = bsSync) :
    execHelloRepeat k s = .next ((s.setFld (Reg.FIRE_B_STATUS_PROFILE_MISMATCH k) 1).sendHello k) := by
  rw [execHelloRepeat, if_pos (by simp [hk, hu, hs])]

variable (hh : (s.board k).hello = true) (hs : s.bst k = bsSync)
include hh hs

theorem State.execHelloReply_runs (hb : herufIn 0x83 bytes = some (f, b)) (hid : leAt b 0 2 = s.prof k 0 2)
    (hlanes : leAt b 3 1 = s.prof k 2 1) (hdepth : s.prof k 3 1 ≤ leAt b 2 1) : execHelloReply k bytes s =
      .next ((((s.setFlag (Reg.FIRE_B_STATUS_PROFILE_MISMATCH k) false).setBoard k
        { s.board k with hello := false, clearing := false }).setBst k bsRun).setCredits k (s.prof k 3 1)) := by
  rw [execHelloReply]
  dsimp only
  rw [if_neg (by simp [hk, hu, hh, hs]), hb]
  simp only [hid, hlanes, hdepth, decide_true, Bool.and_self, if_true, Bool.not_true, State.setFlag_prof]

theorem State.execHelloReply_mismatch (hb : herufIn 0x83 bytes = some (f, b)) (hid : leAt b 0 2 ≠ s.prof k 0 2) :
    execHelloReply k bytes s =
      .next ((s.setFlag (Reg.FIRE_B_STATUS_PROFILE_MISMATCH k) true).setBoard k { s.board k with hello := false }) := by
  rw [execHelloReply]
  dsimp only
  rw [if_neg (by simp [hk, hu, hh, hs]), hb]
  simp only [hid, decide_false, Bool.false_and, Bool.not_false, Bool.false_eq_true, if_false]

end

theorem State.setBst_bst (s : State) (k : Nat) {v : Nat} (hv : v < 8) : (s.setBst k v).bst k = v :=
  State.fld_setFld (Fld.fits_of_decide rfl) hv

/-- Another field of the board's status leaves its link state. -/
theorem State.setFld_bst (s : State) {g : Fld} (k v : Nat) (hg : g.clearOf (Reg.FIRE_B_STATUS_STATE k) = true) :
    (s.setFld g v).bst k = s.bst k := State.fld_setFld_clear hg

theorem State.setFld_boardUsed (s : State) (g : Fld) (v k : Nat) : (s.setFld g v).boardUsed k = s.boardUsed k := (rfl)

/-- No field below the lanes' registers bears on the lanes of a board. -/
theorem State.setFld_lanesUp (s : State) {g : Fld} (hg : g.addr < 0x380000) (v k : Nat) :
    (s.setFld g v).lanesUp k = s.lanesUp k := by
  have hlane (l a : Nat) (i j : Nat) (ha : a = 0x380004 + 8 * l) : (s.setFld g v).fld ⟨a, i, j⟩ = s.fld ⟨a, i, j⟩ :=
    State.fld_of_reg (State.reg_setFld_other (by show a ≠ g.addr; omega))
  have hstate (l : Nat) : (s.setFld g v).fld (Reg.LANE_STATUS_STATE l) = s.fld (Reg.LANE_STATUS_STATE l) :=
    hlane l _ _ _ rfl
  have hup (l : Nat) : (s.setFld g v).flag (Reg.LANE_STATUS_UP l) = s.flag (Reg.LANE_STATUS_UP l) :=
    congrArg (· != 0) (hlane l _ _ _ rfl)
  simp only [State.lanesUp, hstate, hup]
  rfl

theorem State.sendHello_fld (s : State) (k : Nat) (g : Fld) : (s.sendHello k).fld g = s.fld g := (rfl)

/-- Sending leaves the boards. -/
theorem State.boardSend_board (s : State) (k type flags frame : Nat) (body : List Byte) :
    (s.boardSend k type flags frame body).board k = s.board k := (rfl)

theorem State.sendHello_board (s : State) (k : Nat) : (s.sendHello k).board k = { s.board k with hello := true } := by
  rw [State.sendHello, State.boardSend_board, State.board_setBoard]

theorem State.boardSend_outbox (s : State) (k type flags frame : Nat) (body : List Byte) :
    ∃ b w, (s.boardSend k type flags frame body).outbox = s.outbox ++ [.headPacket k (s.prof k 4 1) b w] :=
  ⟨_, _, rfl⟩

/-- A HELLO leaves on the board's lane A. -/
theorem State.sendHello_outbox (s : State) (k : Nat) :
    ∃ b w, (s.sendHello k).outbox = s.outbox ++ [.headPacket k (s.prof k 4 1) b w] := by
  have hprof : (s.setBoard k { s.board k with hello := true }).prof k 4 1 = s.prof k 4 1 := by
    rw [State.prof, State.board_setBoard, State.prof]
  obtain ⟨b, w, h⟩ := (s.setBoard k { s.board k with hello := true }).boardSend_outbox k 0x03 0 0 _
  exact ⟨b, w, h.trans (by rw [hprof]; rfl)⟩

/-! ENABLE and CLEAR (Table 07-5). -/

theorem State.orLater_awake {s : State} (h : s.awake = true) (f : Fld) (v : Nat) (act : State → State) :
    s.orLater f v act = act s := by
  rw [State.orLater, State.defers_of_awake h, if_neg Bool.false_ne_true]

theorem Reg.enable_clearOf_status : ∀ k, k < 48 →
    (Reg.FIRE_B_CTRL_ENABLE k).clearOf (Reg.FIRE_B_STATUS_STATE k) = true := by decide +kernel

theorem Reg.status_clearOf_enable : ∀ k, k < 48 →
    (Reg.FIRE_B_STATUS_STATE k).clearOf (Reg.FIRE_B_CTRL_ENABLE k) = true := by decide +kernel

theorem Reg.credits_clearOf_enable : ∀ k, k < 48 →
    (Reg.FIRE_B_STATUS_CREDITS k).clearOf (Reg.FIRE_B_CTRL_ENABLE k) = true := by decide +kernel

theorem State.setEnable_reads (s : State) (k : Nat) (v : Bool) :
    (s.setFlag (Reg.FIRE_B_CTRL_ENABLE k) v).fld (Reg.FIRE_B_CTRL_ENABLE k) = b2n v :=
  State.fld_setFld (Fld.fits_of_decide rfl) (by show b2n v < 2 ^ 1; cases v <;> decide)

section

variable {s : State} {k : Nat} (hk : k < 48) (hw : s.writable = true) (ha : s.awake = true)
include hk hw ha

theorem State.execBoardEnableWrite_refreshes (v : Bool) : execBoardEnableWrite k v s =
    .next ((s.setFlag (Reg.FIRE_B_CTRL_ENABLE k) v).boardRefresh k) := by
  rw [execBoardEnableWrite, if_pos (by simp [hk, hw]), State.orLater_awake ha]
  rfl

/-- A board enabled from OFF goes to TRAINING, and on where its lanes are up. -/
theorem State.execBoardEnableWrite_on (hu : s.boardUsed k = true) (hoff : s.bst k = bsOff) :
    execBoardEnableWrite k true s =
      .next (((s.setFlag (Reg.FIRE_B_CTRL_ENABLE k) true).setBst k bsTraining).boardTrain k) := by
  have hon : (s.setFlag (Reg.FIRE_B_CTRL_ENABLE k) true).flag (Reg.FIRE_B_CTRL_ENABLE k) = true := by
    rw [State.flag, State.setEnable_reads]
    rfl
  have hst : (s.setFlag (Reg.FIRE_B_CTRL_ENABLE k) true).bst k = bsOff :=
    (State.setFld_bst s k _ (Reg.enable_clearOf_status k hk)).trans hoff
  have hused : (s.setFlag (Reg.FIRE_B_CTRL_ENABLE k) true).boardUsed k = true :=
    (State.setFld_boardUsed ..).trans hu
  rw [State.execBoardEnableWrite_refreshes hk hw ha, State.boardRefresh]
  rw [if_pos (by simp [hon, hst, hused])]

/-- A board disabled goes OFF. -/
theorem State.execBoardEnableWrite_off (hon : s.bst k ≠ bsOff) : execBoardEnableWrite k false s =
    .next ((s.setFlag (Reg.FIRE_B_CTRL_ENABLE k) false).boardOff k) := by
  have hoff : (s.setFlag (Reg.FIRE_B_CTRL_ENABLE k) false).flag (Reg.FIRE_B_CTRL_ENABLE k) = false := by
    rw [State.flag, State.setEnable_reads]
    rfl
  have hst : (s.setFlag (Reg.FIRE_B_CTRL_ENABLE k) false).bst k ≠ bsOff :=
    fun h => hon ((State.setFld_bst s k _ (Reg.enable_clearOf_status k hk)).symm.trans h)
  rw [State.execBoardEnableWrite_refreshes hk hw ha, State.boardRefresh]
  rw [if_neg (by simp [hoff]), if_pos (by simp [hoff, hst])]

theorem State.execFireClear_clears : execFireClear k s = .next (s.boardClear k) := by
  rw [execFireClear, if_pos (by simp [hk, hw]), State.orLater_awake ha]

end

/-- The lanes after ENABLE and TRAINING are those before. -/
theorem State.enabled_lanesUp {s : State} {k : Nat} (hk : k < 48) :
    ((s.setFlag (Reg.FIRE_B_CTRL_ENABLE k) true).setBst k bsTraining).lanesUp k = s.lanesUp k := by
  rw [State.setBst, State.setFld_lanesUp _ (by show 0x110004 + 0x10 * k < 0x380000; omega), State.setFlag,
    State.setFld_lanesUp _ (by show 0x110000 + 0x10 * k < 0x380000; omega)]

theorem State.boardTrain_down {s : State} {k : Nat} (h : s.lanesUp k = false) : s.boardTrain k = s := by
  rw [State.boardTrain, h, Bool.and_false, if_neg Bool.false_ne_true]

theorem State.boardTrain_up {s : State} {k : Nat} (hs : s.bst k = bsTraining) (h : s.lanesUp k = true) :
    s.boardTrain k = (s.setBst k bsSync).sendHello k := by
  rw [State.boardTrain, h, if_pos (by simp [hs])]

theorem State.boardOff_reads (s : State) (k : Nat) : (s.boardOff k).bst k = bsOff ∧
    (s.boardOff k).fld (Reg.FIRE_B_STATUS_CREDITS k) = 0 := by
  refine ⟨?_, State.setCredits_credits _ _ (by decide)⟩
  rw [State.boardOff, State.setCredits, State.setFld_bst _ _ _ (Fld.clearOf_of_bits (by rfl))]
  exact State.setBst_bst _ _ (by decide)

theorem State.boardOff_enable {s : State} {k : Nat} (hk : k < 48) :
    (s.boardOff k).fld (Reg.FIRE_B_CTRL_ENABLE k) = s.fld (Reg.FIRE_B_CTRL_ENABLE k) := by
  rw [State.boardOff, State.setCredits, State.fld_setFld_clear (Reg.credits_clearOf_enable k hk), State.setBst,
    State.fld_setFld_clear (Reg.status_clearOf_enable k hk), State.setBoard_fld]

/-! CLEAR. -/

/-- The latched faults of a board, and what counts towards them, cleared. -/
def State.faultsCleared (s : State) (k : Nat) : State :=
  let s := (s.setFld (Reg.FIRE_B_STATUS_STROBE_FAULT k) 0).setFld (Reg.FIRE_B_STATUS_ECHO_FAULT k) 0
  (s.setFld (Reg.FIRE_B_STATUS_RAIL_FAULT k) 0).setBoard k { s.board k with rails := 0, misses := 0 }

theorem State.faultsCleared_reads (s : State) (k : Nat) :
    (s.faultsCleared k).fld (Reg.FIRE_B_STATUS_STROBE_FAULT k) = 0 ∧
      (s.faultsCleared k).fld (Reg.FIRE_B_STATUS_ECHO_FAULT k) = 0 ∧
      (s.faultsCleared k).fld (Reg.FIRE_B_STATUS_RAIL_FAULT k) = 0 := by
  simp only [State.faultsCleared, State.setBoard_fld]
  refine ⟨?_, ?_, ?_⟩
  · rw [State.fld_setFld_clear (Fld.clearOf_of_bits (by rfl)), State.fld_setFld_clear (Fld.clearOf_of_bits (by rfl))]
    exact State.fld_setFld (Fld.fits_of_decide rfl) (Nat.two_pow_pos _)
  · rw [State.fld_setFld_clear (Fld.clearOf_of_bits (by rfl))]
    exact State.fld_setFld (Fld.fits_of_decide rfl) (Nat.two_pow_pos _)
  · exact State.fld_setFld (Fld.fits_of_decide rfl) (Nat.two_pow_pos _)

theorem State.faultsCleared_board (s : State) (k : Nat) :
    (s.faultsCleared k).board k = { s.board k with rails := 0, misses := 0 } := by
  rw [State.faultsCleared]
  dsimp only
  rw [State.board_setBoard, State.setFld_board, State.setFld_board]

theorem State.faultsCleared_bst (s : State) (k : Nat) : (s.faultsCleared k).bst k = s.bst k := by
  have hset (u : State) {g : Fld} (hg : g.clearOf (Reg.FIRE_B_STATUS_STATE k) = true) : (u.setFld g 0).bst k = u.bst k :=
    State.setFld_bst u k 0 hg
  rw [State.faultsCleared, State.bst, State.setBoard_fld, ← State.bst, hset _ (Fld.clearOf_of_bits (by rfl)),
    hset _ (Fld.clearOf_of_bits (by rfl)), hset _ (Fld.clearOf_of_bits (by rfl))]

/-- CLEAR does not touch the last echo. -/
theorem State.faultsCleared_echoFit (s : State) (k : Nat) : (s.faultsCleared k).echoFit k = s.echoFit k := by
  have hecho {g : Fld} (hg : g.addr = 0x110008 + 0x10 * k) : (s.faultsCleared k).fld g = s.fld g := by
    rw [State.faultsCleared, State.setBoard_fld]
    iterate 3 rw [State.fld_of_reg (State.reg_setFld_other (by rw [hg]; show 0x110008 + 0x10 * k ≠ 0x110004 + 0x10 * k; omega))]
  have hprof : (s.faultsCleared k).prof k 20 2 = s.prof k 20 2 := by
    rw [State.prof, State.faultsCleared_board, State.prof]
  rw [State.echoFit, State.fldI, hecho rfl, hecho rfl, hprof, State.faultsCleared_board, State.echoFit, State.fldI]

theorem State.boardClear_eq (s : State) (k : Nat) : s.boardClear k =
    if s.bst k = bsLatch && s.echoFit k then
      ((s.faultsCleared k).setBoard k { (s.faultsCleared k).board k with clearing := true }).sendHello k
    else s.faultsCleared k := by
  rw [← State.faultsCleared_bst, ← State.faultsCleared_echoFit, State.boardClear]
  unfold State.faultsCleared
  exact Eq.refl _

theorem State.boardClear_fld (s : State) (k : Nat) (g : Fld) : (s.boardClear k).fld g = (s.faultsCleared k).fld g := by
  rw [State.boardClear_eq]
  split
  · rw [State.sendHello_fld, State.setBoard_fld]
  · exact Eq.refl _

theorem State.boardClear_misses (s : State) (k : Nat) : ((s.boardClear k).board k).misses = 0 := by
  rw [State.boardClear_eq]
  split
  · rw [State.sendHello_board, State.board_setBoard, State.faultsCleared_board]
  · rw [State.faultsCleared_board]

/-- Settles O38: an echo shows in the board's own registers whatever its line comes to; the link states by Table 07-5. -/
theorem fireLinksComplete : Obligations.FireLinksComplete := by
  refine ⟨?matched, ?late, ?timeout, ?credit, ?accepted, ?mismatch, ?repeated, ?training, ?sync, ?off, ?clear⟩
  case matched =>
    intro s k f bytes b d hk hu hb hd
    obtain ⟨htemp, hframe, hrail, hcredits⟩ := (s.setCredits k (leAt b 6 1)).echoShown_reads hk d b
    refine ⟨_, State.execEcho_matched hk hu hb hd, ?_, ?_, ?_, ?_, ?_, ?_⟩
    · rw [State.echoMatched_outlived (Reg.credits_outlivesEcho k hk), hcredits, State.setCredits_credits _ _ (leAt_lt b 6 1)]
    · rw [State.echoMatched_outlived (Reg.echoTemp_outlivesEcho k hk), htemp]
    · rw [State.echoMatched_outlived (Reg.echoFrame_outlivesEcho k hk), hframe]
    · rw [State.echoMatched_outlived (Reg.echoRail_outlivesEcho k hk), hrail]
    · rw [State.echoMatched_view (view := Board.echoed) fun _ _ _ _ _ _ => Eq.refl _]
    · rw [State.echoMatched_view (view := Board.misses) fun _ _ _ _ _ _ => Eq.refl _]
  case late =>
    intro s k f bytes b hk hu hb hd
    refine ⟨_, State.execEcho_late hk hu hb hd, ?_, ?_, ?_⟩
    · rw [State.echoTemp_outlived (Reg.credits_outlivesEcho k hk), State.fld_of_reg (State.reg_setFld_other
        (by show 0x110004 + 0x10 * k ≠ 0x110008 + 0x10 * k; omega)), State.setCredits_credits _ _ (leAt_lt b 6 1)]
    · rw [State.echoTemp_outlived (Reg.echoTemp_outlivesEcho k hk)]
      exact State.fld_setFld (Fld.fits_of_decide rfl) (leAt_lt b 8 2)
    · rw [State.echoTemp_board (view := Board.decided) fun _ _ => Eq.refl _, State.setCredits, State.setFld_board]
  case timeout =>
    intro s k d hk hd
    refine ⟨_, State.execEchoTimeout_blames hd, ?_, ?_, ?_, ?_, fun hlimit => ?_⟩
    · rw [State.settleLine_board (view := Board.misses) fun _ _ _ => Eq.refl _,
        State.updDecided_board (view := Board.misses) fun _ _ _ => Eq.refl _, State.echoBlamed_board, State.echoMissed_misses]
    · rw [State.settleLine_fld (Fld.outlivesLine_of_echo (Reg.echoMiss_outlivesEcho k hk)), State.updDecided_fld,
        State.echoBlamed_count hk, State.echoMissed_count hk]
    · rw [State.settleLine_fld (Reg.lastCause_outlivesLine k hk), State.updDecided_fld, State.echoBlamed_cause]
    · rw [State.settleLine_fld Reg.eventsEcho_outlivesLine, State.updDecided_fld, State.echoBlamed_event hk]
    · rw [State.settleLine_fld (Reg.echoFault_outlivesLine k hk), State.updDecided_fld, State.echoBlamed_fault hk,
        State.echoMissed_fault hk hlimit]
  case credit =>
    intro s k f bytes b hk hu hb
    exact ⟨_, State.execCredit_credits hk hu hb, State.setCredits_credits _ _ (leAt_lt b 0 1), State.setFld_fire ..,
      fun a ha => State.reg_setFld_other ha⟩
  case accepted =>
    intro s k f bytes b hk hu hh hs hb hid hlanes hdepth
    refine ⟨_, State.execHelloReply_runs hk hu hh hs hb hid hlanes hdepth, ?_, ?_, ?_, ?_⟩
    · rw [State.setCredits, State.setFld_bst _ _ _ (Fld.clearOf_of_bits (by rfl)), State.setBst_bst _ _ (by decide)]
    · rw [State.setCredits, State.setFld_board, State.setBst, State.setFld_board, State.board_setBoard]
    · exact State.setCredits_credits _ _ (State.prof_lt s k 3 1)
    · rw [State.setCredits, State.fld_setFld_clear (Fld.clearOf_of_bits (by rfl)), State.setBst,
        State.fld_setFld_clear (Fld.clearOf_of_bits (by rfl)), State.setBoard_fld]
      exact State.fld_setFld (Fld.fits_of_decide rfl) (Nat.two_pow_pos _)
  case mismatch =>
    intro s k f bytes b hk hu hh hs hb hid
    refine ⟨_, State.execHelloReply_mismatch hk hu hh hs hb hid, ?_, ?_, ?_⟩
    · rw [State.bst, State.setBoard_fld, ← State.bst, State.setFlag, State.setFld_bst _ _ _ (Fld.clearOf_of_bits (by rfl)), hs]
    · rw [State.board_setBoard]
    · rw [State.setBoard_fld]
      exact State.fld_setFld (Fld.fits_of_decide rfl) (by show 1 < 2 ^ 1; decide)
  case repeated =>
    intro s k hk hu hs
    refine ⟨_, State.execHelloRepeat_sends hk hu hs, ?_, ?_, ?_⟩
    · rw [State.sendHello_fld]
      exact State.fld_setFld (Fld.fits_of_decide rfl) (by show 1 < 2 ^ 1; decide)
    · rw [State.sendHello_board]
    · obtain ⟨b, w, h⟩ := (s.setFld (Reg.FIRE_B_STATUS_PROFILE_MISMATCH k) 1).sendHello_outbox k
      exact ⟨b, w, h.trans (by rw [State.setFld_prof, State.setFld_outbox])⟩
  case training =>
    intro s k hk hw ha hu hoff hdown
    refine ⟨_, State.execBoardEnableWrite_on hk hw ha hu hoff, ?_, ?_⟩
    · rw [State.boardTrain_down ((State.enabled_lanesUp hk).trans hdown), State.setBst,
        State.fld_setFld_clear (Reg.status_clearOf_enable k hk), State.setEnable_reads]
      rfl
    · rw [State.boardTrain_down ((State.enabled_lanesUp hk).trans hdown), State.setBst_bst _ _ (by decide)]
  case sync =>
    intro s k hk hw ha hu hoff hup
    refine ⟨_, State.execBoardEnableWrite_on hk hw ha hu hoff, ?_, ?_, ?_⟩
    · rw [State.boardTrain_up (State.setBst_bst _ _ (by decide)) ((State.enabled_lanesUp hk).trans hup), State.bst,
        State.sendHello_fld, ← State.bst, State.setBst_bst _ _ (by decide)]
    · rw [State.boardTrain_up (State.setBst_bst _ _ (by decide)) ((State.enabled_lanesUp hk).trans hup),
        State.sendHello_board]
    · rw [State.boardTrain_up (State.setBst_bst _ _ (by decide)) ((State.enabled_lanesUp hk).trans hup)]
      obtain ⟨b, w, h⟩ := State.sendHello_outbox
        (((s.setFlag (Reg.FIRE_B_CTRL_ENABLE k) true).setBst k bsTraining).setBst k bsSync) k
      exact ⟨b, w, h.trans (by rw [State.setBst, State.setFld_prof, State.setBst, State.setFld_prof, State.setFlag_prof,
        State.setFld_outbox, State.setFld_outbox, State.setFlag_outbox])⟩
  case off =>
    intro s k hk hw ha hon
    obtain ⟨hstate, hcredits⟩ := (s.setFlag (Reg.FIRE_B_CTRL_ENABLE k) false).boardOff_reads k
    exact ⟨_, State.execBoardEnableWrite_off hk hw ha hon,
      (State.boardOff_enable hk).trans (State.setEnable_reads s k false), hstate, hcredits⟩
  case clear =>
    intro s k hk hw ha
    obtain ⟨hstrobe, hecho, hrail⟩ := s.faultsCleared_reads k
    refine ⟨_, State.execFireClear_clears hk hw ha, (State.boardClear_fld ..).trans hstrobe,
      (State.boardClear_fld ..).trans hecho, (State.boardClear_fld ..).trans hrail, State.boardClear_misses s k,
      fun hlatch hfit => ?_⟩
    rw [State.boardClear_eq, if_pos (by simp [hlatch, hfit]), State.sendHello_board, State.board_setBoard]
    exact ⟨Eq.refl _, Eq.refl _⟩

end Sys2Proof.Machine

/-! SUPPORT. Answers take back no output either (R80, R89, R94, R97). -/
namespace Sys2Proof.Machine

theorem State.foldl_grows {α : Type} {f : State → α → State} (h : ∀ s x, s.outbox <+: (f s x).outbox) (l : List α)
    (s : State) : s.outbox <+: (l.foldl f s).outbox :=
  List.foldlRecOn (motive := fun t => s.outbox <+: t.outbox) l f List.prefix_rfl fun _ ih x _ => ih.trans (h _ x)

theorem State.ringWrite_grows (s : State) (r : Nat) (rep : Reply) : s.outbox <+: (s.ringWrite r rep).outbox := by
  have hring (s : State) (x : Ring) (b : List Byte) : (s.setRing r x).outbox = s.outbox := rfl
  have hpad {p : Prop} [Decidable p] (o : Out) : s.outbox <+: (if p then s else s.emit o).outbox := by
    split
    · exact List.prefix_rfl
    · exact State.emit_grows ..
  have hnotify (s : State) : s.outbox <+: (s.ringNotify r).outbox :=
    (State.emit_grows ..).trans (State.msixSignal_grows ..)
  rw [State.ringWrite]
  dsimp only
  rw [State.setStall, State.setFld_outbox]
  refine List.IsPrefix.trans ?_ (hnotify _)
  rw [State.setRing_outbox]
  exact (hpad _).trans (State.emit_grows ..)

theorem State.ringReply_grows (s : State) (r : Nat) (rep : Reply) : s.outbox <+: (s.ringReply r rep).outbox := by
  rw [State.ringReply]
  split
  · exact List.prefix_rfl
  · split
    · exact State.ringWrite_grows ..
    · rw [State.setRing_outbox]

theorem State.sendDatagram_grows (s : State) (ip port : Nat) (b : List Byte) :
    s.outbox <+: (s.sendDatagram ip port b).outbox := by
  rw [State.sendDatagram]
  split
  · rw [State.bump_outbox]
    exact State.emit_grows ..
  · exact List.prefix_rfl

theorem State.outbox_setLink (s : State) (west : Bool) (x : ChainLink) : (s.setLink west x).outbox = s.outbox := (rfl)

theorem State.chainSend_grows (s : State) (west : Bool) (b : List Byte) : s.outbox <+: (s.chainSend west b).outbox := by
  have hsent (l : List (Nat × List Block)) : (l.foldl (fun s p => s.laneSent p.1 p.2) s).outbox = s.outbox :=
    State.foldl_keeps State.outbox (fun s p => by rfl) l s
  rw [State.chainSend]
  exact List.IsPrefix.trans (by rw [State.outbox_setLink, hsent]) (State.emit_grows ..)

theorem State.chainDrain_grows (s : State) (west : Bool) : s.outbox <+: (s.chainDrain west).outbox := by
  rw [State.chainDrain]
  refine List.IsPrefix.trans ?_ (State.foldl_grows (fun s b => State.chainSend_grows s west b) _ _)
  rw [State.outbox_setLink]

theorem State.chainTo_grows (s : State) (type dst cls : Nat) (body : List Byte) :
    s.outbox <+: (s.chainTo type dst cls body).outbox := by
  rw [State.chainTo]
  split
  · rw [State.chainSendOn]
    split
    · refine List.IsPrefix.trans ?_ (State.chainDrain_grows ..)
      rw [State.outbox_setLink]
    · exact List.prefix_rfl
  · exact List.prefix_rfl

theorem State.deliver_grows (s : State) (sess : Nat) (rep : Reply) : s.outbox <+: (s.deliver sess rep).outbox := by
  rw [State.deliver]
  split
  · exact List.prefix_rfl
  · exact State.ringReply_grows ..
  · exact State.sendDatagram_grows ..
  · exact State.chainTo_grows ..

theorem State.finishSlot_grows (s : State) (sess tag status : Nat) (payload : List Byte) :
    s.outbox <+: (s.finishSlot sess tag status payload).outbox := by
  have hdeliver {p : Prop} [Decidable p] (u : State) (rep : Reply) :
      u.outbox <+: (if p then u.deliver sess rep else u).outbox := by
    split
    · exact State.deliver_grows ..
    · exact List.prefix_rfl
  rw [State.finishSlot]
  split
  · rw [State.complete]
    split
    · exact List.prefix_rfl
    · exact hdeliver (s.setSlot ..) _
  · exact List.prefix_rfl

/-- The completion of the command `rq`, known by its slot. -/
theorem State.finishSlot_answered {s : State} {rq : Rq} {op : Nat} (ho : s.sessOpen rq.sess = true)
    (h : s.unanswered rq op = true) (st : Nat) (pl : List Byte) :
    (s.finishSlot rq.sess rq.tag st pl).answered rq op st pl = true := by
  simp only [State.unanswered, Bool.and_eq_true, beq_iff_eq, Bool.not_eq_true'] at h
  obtain ⟨⟨⟨htaken, hdone⟩, hop⟩, hseq⟩ := h
  have hslot : s.slotOpen rq.sess rq.tag = true := State.slotOpen_iff.mpr ⟨ho, htaken, hdone⟩
  have ha : (s.finish ((s.slot rq.sess rq.tag).rq rq.sess rq.tag) (s.slot rq.sess rq.tag).opcode st pl).answered
      ((s.slot rq.sess rq.tag).rq rq.sess rq.tag) (s.slot rq.sess rq.tag).opcode st pl = true := State.finish_answered ho
  rw [State.finishSlot_of_slotOpen hslot, State.answered, ← hop, ← hseq]
  exact ha

end Sys2Proof.Machine

/-! SUPPORT. Drop-gate tests (R185 to R187): the test's end, its begin, and a shot by what it fires and what it tells. -/
namespace Sys2Proof.Machine

/-! The test's end. -/

/-- The state in which the test's command is answered. -/
def State.gateOver (s : State) : State := State.setFld { s with fire := { s.fire with test := none } } Reg.GATE_STATUS_BUSY 0

theorem State.gateOver_busy (s : State) : s.gateOver.fld Reg.GATE_STATUS_BUSY = 0 :=
  State.fld_setFld (Fld.fits_of_decide rfl) (Nat.two_pow_pos _)

section

variable {s : State} {g : GateTest} (h : s.fire.test = some g)
include h

theorem State.gateEnd_goes (hn : g.todo ≠ []) : s.gateEnd = s := by
  rw [State.gateEnd, h]
  dsimp only
  rw [if_neg (by rw [List.isEmpty_iff]; exact hn)]

theorem State.gateEnd_ends (hn : g.todo = []) :
    s.gateEnd = (s.gateOver.finishSlot g.sess g.tag scDone g.reply).vacate g.sess g.tag := by
  rw [State.gateEnd, h]
  dsimp only
  rw [if_pos (by rw [List.isEmpty_iff]; exact hn), State.gateOver]

theorem State.gateEnd_answered {rq : Rq} {op : Nat} (hn : g.todo = []) (ho : s.sessOpen rq.sess = true)
    (hsess : g.sess = rq.sess) (htag : g.tag = rq.tag) (hu : s.unanswered rq op = true) :
    s.gateEnd.answered rq op scDone g.reply = true := by
  have hcmd : s.gateOver.cmd = s.cmd := by rw [State.gateOver, State.setFld_cmd]
  have hover : s.gateOver.unanswered rq op = true := by
    rw [State.unanswered, State.slot_of_cmd hcmd]
    exact hu
  rw [State.gateEnd_ends h hn, hsess, htag, State.answered, State.vacate_slot]
  exact State.finishSlot_answered ((State.sessOpen_of_cmd hcmd _).trans ho) hover scDone g.reply

theorem State.gateEnd_test (hn : g.todo = []) : s.gateEnd.fire.test = none := by
  have hover : s.gateOver.fire.test = none := by rw [State.gateOver, State.setFld_fire]
  rw [State.gateEnd_ends h hn, State.fire_of_printUnits (State.vacate_printUnits ..),
    State.fire_of_printUnits (State.finishSlot_printUnits ..), hover]

/-- The end's answer leaves the fields that no answer touches. -/
theorem State.gateEnd_over {f : Fld} (hn : g.todo = []) (hq : quietAddr f.addr) (hp : f.addr ≠ Reg.PLAT_STATE) :
    s.gateEnd.fld f = s.gateOver.fld f := by
  rw [State.gateEnd_ends h hn, State.vacate, State.fld_of_reg (State.lift_reg hp)]
  exact State.finishSlot_fld hq

theorem State.gateEnd_fld {f : Fld} (hq : quietAddr f.addr) (hp : f.addr ≠ Reg.PLAT_STATE)
    (hb : Reg.GATE_STATUS_BUSY.clearOf f = true) : s.gateEnd.fld f = s.fld f := by
  by_cases hn : g.todo = []
  · rw [State.gateEnd_over h hn hq hp, State.gateOver, State.fld_setFld_clear hb]
    exact Eq.refl _
  · rw [State.gateEnd_goes h hn]

theorem State.gateEnd_board (k : Nat) : s.gateEnd.board k = s.board k := by
  by_cases hn : g.todo = []
  · have hover : s.gateOver.board k = s.board k := by rw [State.gateOver, State.setFld_board, State.board, State.board]
    rw [State.gateEnd_ends h hn, State.board_of_fire (State.fire_of_printUnits (State.vacate_printUnits ..)),
      State.board_of_fire (State.fire_of_printUnits (State.finishSlot_printUnits ..)), hover]
  · rw [State.gateEnd_goes h hn]

theorem State.gateEnd_grows : s.outbox <+: s.gateEnd.outbox := by
  by_cases hn : g.todo = []
  · have hover : s.gateOver.outbox = s.outbox := by rw [State.gateOver, State.setFld_outbox]
    rw [State.gateEnd_ends h hn, State.vacate, State.lift_outbox, ← hover]
    exact State.finishSlot_grows ..
  · rw [State.gateEnd_goes h hn]

end

/-! GATE_TEST. -/

/-- The test begun: its command occupies PRINT, and GATE_STATUS shows it. -/
def State.gateBegun (s : State) (rq : Rq) (g : GateTest) : State :=
  let s := (s.pend rq 0x0130).occupy rq .print
  let s := { s with fire := { s.fire with test := some g } }
  let s := (s.setFld Reg.GATE_STATUS_BUSY 1).setFld Reg.GATE_STATUS_GATE g.gate
  (s.setFld Reg.GATE_STATUS_BOARD g.board).setFld Reg.GATE_STATUS_DONE 0

/-- A test of a board's nozzles. -/
def gateTestOf (rq : Rq) (gate board : Nat) (todo : List Nat) : GateTest :=
  { sess := rq.sess, tag := rq.tag, gate := gate, board := board, todo := todo }

/-- No nozzle has been tested yet. -/
theorem gateTestOf_reply (rq : Rq) (gate board : Nat) (todo : List Nat) :
    (gateTestOf rq gate board todo).reply = List.replicate 8 0#8 := by
  show leBytes 2 0 ++ leBytes 2 0 ++ leBytes 2 0 ++ leBytes 2 0 = _
  decide

section

variable (s : State) (rq : Rq) (g : GateTest)

theorem State.gateBegun_test : (s.gateBegun rq g).fire.test = some g := by
  simp only [State.gateBegun, State.setFld_fire]

theorem State.gateBegun_reads : (s.gateBegun rq g).fld Reg.GATE_STATUS_BUSY = 1 ∧
    (s.gateBegun rq g).fld Reg.GATE_STATUS_GATE = g.gate % 16 ∧
    (s.gateBegun rq g).fld Reg.GATE_STATUS_BOARD = g.board % 64 := by
  refine ⟨?_, ?_, ?_⟩
  · rw [State.gateBegun, State.fld_setFld_clear (by decide), State.fld_setFld_clear (by decide),
      State.fld_setFld_clear (by decide)]
    exact State.fld_setFld (Fld.fits_of_decide rfl) (by decide)
  · rw [State.gateBegun, State.fld_setFld_clear (by decide), State.fld_setFld_clear (by decide)]
    exact State.fld_setFld_self (Fld.fits_of_decide rfl)
  · rw [State.gateBegun, State.fld_setFld_clear (by decide)]
    exact State.fld_setFld_self (Fld.fits_of_decide rfl)

theorem State.gateBegun_cmd : (s.gateBegun rq g).cmd = ((s.pend rq 0x0130).occupy rq .print).cmd := by
  simp only [State.gateBegun, State.setFld_cmd]

theorem State.pend_executing : (s.pend rq 0x0130).cmd.executing = s.cmd.executing := by
  rw [State.pend]
  split
  · rfl
  · rfl

theorem State.gateBegun_executing : (s.gateBegun rq g).cmd.executing = s.cmd.executing ++ [⟨.print, rq.sess, rq.tag⟩] := by
  rw [State.gateBegun_cmd, State.occupy, State.pend_executing]

theorem State.lift_executing (n m : Nat) : (s.lift n m).cmd.executing = s.cmd.executing := by
  obtain ⟨b, h⟩ := s.lift_cmd n m
  rw [h]

theorem State.gateBegun_sessOpen : (s.gateBegun rq g).sessOpen rq.sess = s.sessOpen rq.sess := by
  have hoccupy (u : State) : (u.occupy rq .print).sessOpen rq.sess = u.sessOpen rq.sess := by
    rw [State.sessOpen, State.sessKind, State.session, State.occupy, State.sessOpen, State.sessKind, State.session]
  rw [State.sessOpen_of_cmd (State.gateBegun_cmd ..), hoccupy, State.pend]
  split
  · rfl
  · exact State.sessOpen_setSlot ..

theorem State.gateBegun_unanswered (ho : s.sessOpen rq.sess = true) : (s.gateBegun rq g).unanswered rq 0x0130 = true := by
  have hslot : (s.gateBegun rq g).slot rq.sess rq.tag = (s.pend rq 0x0130).slot rq.sess rq.tag :=
    State.slot_of_sessions (by rw [State.gateBegun_cmd, State.occupy]) ..
  rw [State.unanswered, hslot]
  exact State.pend_unanswered ho

end

theorem State.execGateTest_begins {s : State} {rq : Rq} {gate k first n : Nat} (h : s.ready rq 0x0130 = true)
    (hg : gate < 16) (hk : k < 48) (hn : first + n ≤ s.boardNozzles k) (hrun : s.bst k = bsRun)
    (hfree : s.flag Reg.GATE_STATUS_BUSY = false) : execGateTest rq gate k first n s =
      .next (((s.take rq).gateBegun rq (gateTestOf rq gate k (s.gateTodo k first n))).gateEnd.lift rq.sess rq.tag) := by
  have hn' : first + n ≤ (s.take rq).boardNozzles k := hn
  have hrun' : (s.take rq).bst k = bsRun := hrun
  have hfree' : (s.take rq).flag Reg.GATE_STATUS_BUSY = false := hfree
  have htodo : ((s.take rq).pend rq 0x0130 |>.occupy rq .print).gateTodo k first n = s.gateTodo k first n := by
    rw [State.pend]
    split
    · rfl
    · rfl
  rw [execGateTest, State.run_ready _ h,
    State.withParams_ok _ (State.ready_reserved h) (by simp [hg, hk, hn']), if_neg (by rw [hrun', hfree']; decide)]
  dsimp only
  rw [htodo, State.gateBegun, gateTestOf]

/-! A shot told: what follows its strobe. -/

/-- The test after a nozzle of class `c`. -/
def GateTest.after (g : GateTest) (c : Nat) (rest : List Nat) : GateTest :=
  { g with todo := rest, tested := g.tested + 1, absent := g.absent + b2n (decide (c = 1)),
           late := g.late + b2n (decide (c = 2)), weak := g.weak + b2n (decide (c = 3)) }

/-- The test's progress shown, with the record and the finding of a nozzle at bar position `x`. -/
def State.gateTold (s : State) (g g' : GateTest) (c : Nat × Option Pulse) (b x pos : Nat) : State :=
  let s := State.setFld { s with fire := { s.fire with test := some g' } } Reg.GATE_STATUS_DONE g'.tested
  let s := if c.1 = 0 then s else s.gateRecord g c.1 b x pos c.2
  if s.flag Reg.NOZ_CTRL_GATE_EN then s.pushFinding { source := 1, bar := b, at_ := (x : Int), cls := c.1 } else s

section

variable {s : State} {g g' : GateTest} {c : Nat × Option Pulse} {b x pos : Nat}

/-- The record and the finding show in no view without the record rings and the findings. -/
theorem State.gateTold_keeps {β : Type} {view : State → β} (hring : ∀ (s : State) r, view { s with rings := r } = view s)
    (hnoz : ∀ (s : State) n, view (State.setFld { s with noz := n } Reg.NOZ_STATUS_BUSY 1) = view s) :
    view (s.gateTold g g' c b x pos) =
      view (State.setFld { s with fire := { s.fire with test := some g' } } Reg.GATE_STATUS_DONE g'.tested) := by
  have hrecord {p : Prop} [Decidable p] (u : State) : view (if p then u else u.gateRecord g c.1 b x pos c.2) = view u := by
    split
    · rfl
    · rw [State.gateRecord.eq_def, State.addRecord]
      split
      · exact hring ..
      · exact hring ..
  have hpush {p : Prop} [Decidable p] (u : State) (f : Finding) : view (if p then u.pushFinding f else u) = view u := by
    split
    · exact hnoz ..
    · rfl
  rw [State.gateTold, hpush, hrecord]

theorem State.gateTold_fire : (s.gateTold g g' c b x pos).fire = { s.fire with test := some g' } := by
  rw [State.gateTold_keeps (view := State.fire) (fun _ _ => Eq.refl _) fun s n => State.setFld_fire .., State.setFld_fire]

theorem State.gateTold_outbox : (s.gateTold g g' c b x pos).outbox = s.outbox := by
  rw [State.gateTold_keeps (view := State.outbox) (fun _ _ => Eq.refl _) fun s n => State.setFld_outbox ..,
    State.setFld_outbox]

theorem State.gateTold_shows {f : Fld} (h : Reg.NOZ_STATUS_BUSY.clearOf f = true) : (s.gateTold g g' c b x pos).fld f =
    (State.setFld { s with fire := { s.fire with test := some g' } } Reg.GATE_STATUS_DONE g'.tested).fld f := by
  have hring (s : State) (r) : State.fld { s with rings := r } f = s.fld f := rfl
  have hnoz (s : State) (n) : (State.setFld { s with noz := n } Reg.NOZ_STATUS_BUSY 1).fld f = s.fld f :=
    State.fld_setFld_clear h
  rw [State.gateTold_keeps (view := (State.fld · f)) hring hnoz]

theorem State.gateTold_fld {f : Fld} (h : Reg.NOZ_STATUS_BUSY.clearOf f = true)
    (hd : Reg.GATE_STATUS_DONE.clearOf f = true) : (s.gateTold g g' c b x pos).fld f = s.fld f := by
  rw [State.gateTold_shows h, State.fld_setFld_clear hd]
  exact Eq.refl _

theorem State.gateTold_done : (s.gateTold g g' c b x pos).fld Reg.GATE_STATUS_DONE = g'.tested % 16384 := by
  rw [State.gateTold_shows (by decide)]
  exact State.fld_setFld_self (Fld.fits_of_decide rfl)

theorem State.gateTold_board (k : Nat) : (s.gateTold g g' c b x pos).board k = s.board k := by
  rw [State.board, State.gateTold_fire, State.board]

end

/-- GATE_SHOT on the nozzle at the front of the test. -/
theorem State.execGateShot_shoots {s : State} {g : GateTest} {pos b : Nat} {rest base smp : List Nat} {check : CheckRun}
    (ht : s.fire.test = some g) (hl : g.todo = pos :: rest) (hb : s.boardBar g.board = some b)
    (hc : s.fld (Reg.FIRE_B_STATUS_CREDITS g.board) ≠ 0) : execGateShot g.gate base smp check s =
      .next ((s.gateFire g.board b pos check).gateTold g (g.after (s.gateClass base smp).1 rest) (s.gateClass base smp) b
        ((s.bar b).map.findIdx fun e => e.board == g.board && e.pos == pos) pos).gateEnd := by
  rw [execGateShot, ht]
  dsimp only
  rw [hl, hb]
  dsimp only
  rw [if_neg (by simp [hc]), State.gateTold, GateTest.after]

/-! A shot fired with its LINE. -/

theorem State.sendLine_fld (s : State) (k flags frame crc : Nat) (p : List Byte) (f : Fld) :
    (s.sendLine k flags frame crc p).fld f = s.fld f := by
  rw [State.sendLine]
  split
  · rfl
  · rfl

theorem State.sendSchedule_fld (s : State) (k flags frame g gen : Nat) (due : Int) (f : Fld) :
    (s.sendSchedule k flags frame g gen due).fld f = s.fld f := (rfl)

/-- A shot whose checks pass: its LINE takes a credit, its SCHEDULE follows. -/
def State.shotSent (s : State) (k pos : Nat) : State :=
  let d := s.draw
  let s := d.2
  let p := packDoses s.doseBits (s.gateDoses k pos)
  let f := Config.gateFrame d.1
  let q := Config.gateDue d.1
  ((s.sendLine k 8 f (crc32 p) p).setCredits k (s.fld (Reg.FIRE_B_STATUS_CREDITS k) - 1)).sendSchedule k 8 f 1 q.1 q.2

section

variable {s : State} {k b pos : Nat}

theorem State.shotSent_credits :
    (s.shotSent k pos).fld (Reg.FIRE_B_STATUS_CREDITS k) = s.fld (Reg.FIRE_B_STATUS_CREDITS k) - 1 := by
  have hlt : s.fld (Reg.FIRE_B_STATUS_CREDITS k) - 1 < 256 :=
    lt_of_le_of_lt (Nat.sub_le ..) (State.fld_lt s (Reg.FIRE_B_STATUS_CREDITS k))
  rw [State.shotSent, State.sendSchedule_fld]
  exact State.setCredits_credits _ _ hlt

theorem State.shotSent_fld {f : Fld} (h : (Reg.FIRE_B_STATUS_CREDITS k).clearOf f = true) :
    (s.shotSent k pos).fld f = s.fld f := by
  rw [State.shotSent, State.sendSchedule_fld, State.setCredits, State.fld_setFld_clear h, State.sendLine_fld]
  exact Eq.refl _

theorem Reg.credits_clearOf_state : ∀ k, k < 48 → (Reg.FIRE_B_STATUS_CREDITS k).clearOf Reg.PLAT_STATE_STATE = true := by
  decide +kernel

theorem State.shotSent_lineHeld (hk : k < 48) : (s.shotSent k pos).lineHeld k = s.lineHeld k := by
  rw [State.lineHeld, State.flag, State.shotSent_fld (Fld.clearOf_of_bits (by rfl)), State.st,
    State.shotSent_fld (Reg.credits_clearOf_state k hk), State.lineHeld, State.flag, State.st]

/-- With its checks passed and its fire line free the shot is fired. -/
theorem State.gateFire_fires (hk : k < 48) (hheld : s.lineHeld k = false)
    (hcount : s.countsAgree (s.gateDoses k pos) (packDoses s.doseBits (s.gateDoses k pos)) = true) :
    s.gateFire k b pos .pass = ((s.shotSent k pos).setBoard k { (s.shotSent k pos).board k with high := true }).emit
      (.fireLine k true) := by
  have hpass : s.draw.2.checked b .pass = s.draw.2 := rfl
  have hcounted : ¬(false || !(s.draw.2.checked b .pass).countsAgree ((s.draw.2.checked b .pass).gateDoses k pos)
      (packDoses (s.draw.2.checked b .pass).doseBits ((s.draw.2.checked b .pass).gateDoses k pos))) = true := by
    rw [Bool.false_or, Bool.not_eq_true', Bool.not_eq_false, hpass]
    exact hcount
  have hfree : ¬(s.shotSent k pos).lineHeld k = true := by
    rw [State.shotSent_lineHeld hk, hheld]
    exact Bool.false_ne_true
  rw [State.gateFire.eq_def]
  dsimp only
  rw [if_neg hcounted]
  exact if_neg hfree

end

theorem Reg.nozBusy_clearOf_credits : ∀ k, k < 48 →
    Reg.NOZ_STATUS_BUSY.clearOf (Reg.FIRE_B_STATUS_CREDITS k) = true := by decide +kernel

theorem Reg.gateDone_clearOf_credits : ∀ k, k < 48 →
    Reg.GATE_STATUS_DONE.clearOf (Reg.FIRE_B_STATUS_CREDITS k) = true := by decide +kernel

theorem Reg.gateBusy_clearOf_credits : ∀ k, k < 48 →
    Reg.GATE_STATUS_BUSY.clearOf (Reg.FIRE_B_STATUS_CREDITS k) = true := by decide +kernel

theorem quietAddr_fireStatus {k : Nat} : quietAddr (Reg.FIRE_B_STATUS_CREDITS k).addr := by
  have haddr : (Reg.FIRE_B_STATUS_CREDITS k).addr = 0x110004 + 0x10 * k := rfl
  have hports : Reg.ETH_CNT_FRAMES 0 = 0x3a0018 ∧ Reg.ETH_CNT_FRAMES 1 = 0x3a0038 := by decide
  rw [quietAddr, hports.1, hports.2, haddr]
  omega

/-- Settles O36: a test by the state that it begins in, a shot by what it tells after its strobe. -/
theorem gateCommandsComplete : Obligations.GateCommandsComplete := by
  refine ⟨?begins, ?empty, ?shot, ?fires, ?last⟩
  case begins =>
    intro s rq gate k first n h hg hk hn hrun hfree htodo
    have hgo : ((s.take rq).gateBegun rq (gateTestOf rq gate k (s.gateTodo k first n))).gateEnd =
        (s.take rq).gateBegun rq (gateTestOf rq gate k (s.gateTodo k first n)) :=
      State.gateEnd_goes (State.gateBegun_test ..) htodo
    obtain ⟨hbusy, hgate, hboard⟩ := (s.take rq).gateBegun_reads rq (gateTestOf rq gate k (s.gateTodo k first n))
    refine ⟨_, State.execGateTest_begins h hg hk hn hrun hfree, ?_, ?_, ?_, ?_, ?_, ?_⟩
    · rw [hgo, State.unanswered, State.lift_slot]
      exact State.gateBegun_unanswered _ _ _ (State.ready_open h)
    · rw [hgo, State.lift_fire, State.gateBegun_test, gateTestOf]
    · rw [hgo, State.fld_of_reg (State.lift_reg (by decide)), hbusy]
    · rw [hgo, State.fld_of_reg (State.lift_reg (by decide)), hgate]
      exact Nat.mod_eq_of_lt hg
    · rw [hgo, State.fld_of_reg (State.lift_reg (by decide)), hboard]
      exact Nat.mod_eq_of_lt (hk.trans (by decide))
    · rw [hgo, State.lift_executing, State.gateBegun_executing]
      exact Eq.refl _
  case empty =>
    intro s rq gate k first n h hg hk hn hrun hfree htodo
    refine ⟨_, State.execGateTest_begins h hg hk hn hrun hfree, ?_, ?_, ?_⟩
    · rw [State.lift_answered, ← gateTestOf_reply rq gate k (s.gateTodo k first n)]
      exact State.gateEnd_answered (State.gateBegun_test ..) htodo (rq := rq)
        (g := gateTestOf rq gate k (s.gateTodo k first n)) ((State.gateBegun_sessOpen ..).trans (State.ready_open h)) rfl rfl
        (State.gateBegun_unanswered _ _ _ (State.ready_open h))
    · rw [State.lift_fire, State.gateEnd_test (State.gateBegun_test ..) htodo]
    · rw [State.fld_of_reg (State.lift_reg (by decide)), State.gateEnd_over (State.gateBegun_test ..) htodo
        (quietAddr_of (by decide)) (by decide)]
      exact State.gateOver_busy _
  case shot =>
    intro s g pos p2 b l base smp check ht hl hb hk hc
    have hgo := State.gateEnd_goes (s := (s.gateFire g.board b pos check).gateTold g
      (g.after (s.gateClass base smp).1 (p2 :: l)) (s.gateClass base smp) b
        ((s.bar b).map.findIdx fun e => e.board == g.board && e.pos == pos) pos)
      (g := g.after (s.gateClass base smp).1 (p2 :: l)) (by rw [State.gateTold_fire]) (by
        rw [GateTest.after]
        exact List.cons_ne_nil _ _)
    refine ⟨_, State.execGateShot_shoots ht hl hb hc, ?_, ?_⟩
    · rw [hgo, State.gateTold_fire, GateTest.after]
    · rw [hgo, State.gateTold_done, GateTest.after]
  case fires =>
    intro s g pos b l base smp ht hl hb hk hc hheld hcount
    have hemit (u : State) (o : Out) (k : Nat) : (u.emit o).board k = u.board k := by
      rw [State.board, State.emit, State.board]
    have htest {u : State} {g' : GateTest} {c : Nat × Option Pulse} {x : Nat} :
        (u.gateTold g g' c b x pos).fire.test = some g' := by rw [State.gateTold_fire]
    refine ⟨_, State.execGateShot_shoots ht hl hb hc, ?_, ?_, ?_⟩
    · rw [State.gateEnd_fld htest quietAddr_fireStatus (by show 0x110004 + 0x10 * _ ≠ 0x000004; omega)
        (Reg.gateBusy_clearOf_credits _ hk), State.gateTold_fld (Reg.nozBusy_clearOf_credits _ hk)
        (Reg.gateDone_clearOf_credits _ hk), State.gateFire_fires hk hheld hcount]
      exact State.shotSent_credits
    · rw [State.gateEnd_board htest, State.gateTold_board, State.gateFire_fires hk hheld hcount, hemit, State.board_setBoard]
    · refine (State.gateEnd_grows htest).subset ?_
      rw [State.gateTold_outbox, State.gateFire_fires hk hheld hcount]
      exact List.mem_append_right _ List.mem_cons_self
  case last =>
    intro s g pos b base smp check ht hl hb hk hc
    have htest {u : State} {g' : GateTest} {c : Nat × Option Pulse} {x : Nat} :
        (u.gateTold g g' c b x pos).fire.test = some g' := by rw [State.gateTold_fire]
    refine ⟨_, State.execGateShot_shoots ht hl hb hc, ?_, ?_, ?_⟩
    · exact State.gateEnd_test htest rfl
    · rw [State.gateEnd_over htest rfl (quietAddr_of (by decide)) (by decide)]
      exact State.gateOver_busy _
    · rw [State.gateEnd_fld htest (quietAddr_of (by decide)) (by decide) (by decide), State.gateTold_done, GateTest.after]

end Sys2Proof.Machine

/-! SUPPORT. LINE_TRANSMIT (R168, R171): the line leaves in the words of the lane as it stands after the reads. -/
namespace Sys2Proof.Machine

theorem State.laneWords_of {s t : State} {l : Nat} (hlane : t.lane l = s.lane l)
    (hinv : t.flag (Reg.LANE_CFG_TX_INV l) = s.flag (Reg.LANE_CFG_TX_INV l)) (bs : List Block) :
    t.laneWords l bs = s.laneWords l bs := by
  rw [State.laneWords, hlane, hinv, State.laneWords]

/-- A lane inverted carries other words. -/
theorem State.laneWords_ne_of_inverted {s t : State} {l : Nat} (hscr : (t.lane l).txScr = (s.lane l).txScr)
    (hs : s.flag (Reg.LANE_CFG_TX_INV l) = false) (ht : t.flag (Reg.LANE_CFG_TX_INV l) = true) (b : Block)
    (bs : List Block) : t.laneWords l (b :: bs) ≠ s.laneWords l (b :: bs) := by
  intro h
  rw [State.laneWords, State.laneWords, hscr, hs, ht, blockWords] at h
  have hword : ~~~(blockWord (s.lane l).txScr b).1 = (blockWord (s.lane l).txScr b).1 := (List.cons.inj h).1
  have hbit := congrArg (fun w : BitVec 66 => w.getLsbD 0) hword
  simp at hbit

theorem packetBlocks_cons (proto : Nat) (b : List Byte) : ∃ bs, packetBlocks proto b = startBlock proto :: bs :=
  ⟨_, List.cons_append⟩

/-- A LINE on one lane. -/
theorem State.sendLine_outbox {s : State} {k : Nat} (h : s.prof k 2 1 ≠ 2) (flags frame crc : Nat) (p : List Byte) :
    (s.sendLine k flags frame crc p).outbox = s.outbox ++ [.headPacket k (s.prof k 4 1) (herufH 0x01 flags frame crc p)
      (s.laneWords (s.prof k 4 1) (packetBlocks 1 (herufH 0x01 flags frame crc p)))] := by
  rw [State.sendLine, if_neg h]
  exact Eq.refl _

section

variable {s r : State} {k b : Nat} {fr : BoardFrame} {p : List Byte}

/-- The LINE taken and its credit spent. -/
def State.lineTaken (r : State) (k : Nat) (x : Board) : State :=
  (r.setBoard k { x with tx := x.tx + 1 }).setCredits k (r.fld (Reg.FIRE_B_STATUS_CREDITS k) - 1)

theorem execLineTransmit_sends (hb : s.boardBar k = some b) (hu : s.boardUsed k = true) (hst : s.st = stPrinting)
    (hj : s.jobBar b = true) (hrun : [bsRun, bsHot, bsLatch].contains (s.bst k) = true)
    (hf : s.hasFrame b (s.board k).tx = true)
    (hreach : s.reached b k (s.board k).tx (16 * s.fld Reg.FIRE_CTRL_LEAD) = true)
    (hc : 0 < s.fld (Reg.FIRE_B_STATUS_CREDITS k)) (hr : r = s.readCopy b (s.servingCopy b) k (s.board k).tx)
    (hfr : r.validFrame b k (s.board k).tx = some fr) (hp : r.sentCopy b k (s.board k).tx fr = some p) :
    execLineTransmit k s = .next ((r.lineTaken k (s.board k)).sendLine k 0 (s.board k).tx fr.crc p) := by
  rw [execLineTransmit, hb]
  dsimp only
  rw [if_neg (by rw [hu, decide_eq_true hst, hj, hrun, hf, hreach, decide_eq_true hc]; decide), ← hr, hfr]
  dsimp only
  rw [hp, State.lineTaken]

theorem State.lineTaken_prof (r : State) {x : Board} (hx : x = s.board k) (o n : Nat) :
    (r.lineTaken k x).prof k o n = s.prof k o n := by
  rw [State.prof, State.lineTaken, State.setCredits, State.setFld_board, State.board_setBoard, hx, State.prof]

theorem State.lineTaken_outbox (r : State) (x : Board) : (r.lineTaken k x).outbox = r.outbox := by
  rw [State.lineTaken, State.setCredits, State.setFld_outbox]
  exact Eq.refl _

theorem State.lineTaken_laneWords (r : State) (x : Board) (hk : k < 48) (l : Nat) (bs : List Block) :
    (r.lineTaken k x).laneWords l bs = r.laneWords l bs := by
  have hlane : (r.lineTaken k x).lane l = r.lane l := rfl
  refine State.laneWords_of hlane ?_ bs
  rw [State.flag, State.lineTaken, State.setCredits, State.fld_of_reg (State.reg_setFld_other ?_), State.setBoard_fld,
    State.flag]
  show 0x380000 + 8 * l ≠ 0x110004 + 0x10 * k
  omega

end

/-! A line whose reads invert its lane. Nothing bounds a channel's number (R307) by the registers that count its
uncorrectable words: UE of channel 0x10004 lies on LANE_CFG of lane 4, its highest bit on TX_INV. Bar 0 has eight boards
of 65,535 nozzles and board 8 with one, whose payload of the last frame lies 4 TiB into BAR_BUF, on that channel; the
word is poisoned, and its 128th uncorrectable read sets the bit. Under MIRROR the payload is served all the same. -/

namespace InvertedLane

/-- The frame in the last slot of the bar's ring. -/
def frame : Nat := 16773120

/-- A profile with so many nozzles, on the one lane 4. -/
def profile (nozzles : Nat) : List Byte := leBytes 2 nozzles ++ bytesOf [1, 1, 4] ++ leBytes 59 0

/-- Boards 0 to 8, all at `frame`. -/
def boards : List (Nat × Board) :=
  (List.range 9).map fun k => (k, { profile := some (profile (if k = 8 then 1 else 65535)), tx := frame })

/-- A device that prints, with 127 uncorrectable words counted for channel 0x10004. -/
def printing : State :=
  let s : State :=
    { pending := []
      job := { active := true, mask := 1 }
      bars := [(0, { map := (List.range 9).map fun k => { board := k } })]
      fire := { boards := boards }
      ppos := { high := 16 * frame } }
  let s := (s.setFld Reg.PLAT_STATE_STATE stPrinting).setFld Reg.MEM_DET_D 1
  let s := (s.setFld Reg.DOSE_CTRL_GUARD 0).setFld Reg.DOSE_CTRL_DEPTH 1
  let s := ((s.setFld (Reg.DOSE_BAR_BUF_LINES 0) (frame + 1)).setBst 8 bsRun).setCredits 8 1
  s.setFld (Reg.MEM_CH_STATUS_UE 0x10004) 127

/-- Board 8's frame is VALID, and its payload's word poisoned. -/
def start : State :=
  { printing with
    mem := memPut [] (printing.descAt 0 false 8 frame) (descriptor frame (crc32 [0#8]) false 0)
    dram := { poison := [(printing.payloadAt 0 false 8 frame / 16, true)] } }

/-- After LINE_TRANSMIT's reads. -/
def afterReads : State := start.readCopy 0 (start.servingCopy 0) 8 (start.board 8).tx

/-- What the descriptor shows. -/
def line : BoardFrame := { payload := [0#8], crc := crc32 [0#8] }

theorem start_runs : start.boardBar 8 = some 0 ∧ start.boardUsed 8 = true ∧ start.st = stPrinting ∧
    start.jobBar 0 = true ∧ [bsRun, bsHot, bsLatch].contains (start.bst 8) = true ∧
    start.hasFrame 0 (start.board 8).tx = true ∧
    start.reached 0 8 (start.board 8).tx (16 * start.fld Reg.FIRE_CTRL_LEAD) = true ∧
    0 < start.fld (Reg.FIRE_B_STATUS_CREDITS 8) ∧ start.prof 8 2 1 ≠ 2 ∧ start.prof 8 4 1 = 4 := by
  decide +kernel

theorem afterReads_valid : afterReads.validFrame 0 8 (start.board 8).tx = some line := by decide +kernel

theorem afterReads_sent : afterReads.sentCopy 0 8 (start.board 8).tx line = some [0#8] := by decide +kernel

/-- The reads set TX_INV of lane 4. -/
theorem afterReads_inverts : start.flag (Reg.LANE_CFG_TX_INV 4) = false ∧
    afterReads.flag (Reg.LANE_CFG_TX_INV 4) = true ∧ (afterReads.lane 4).txScr = (start.lane 4).txScr := by
  decide +kernel

theorem afterReads_eq : afterReads = start.readCopy 0 (start.servingCopy 0) 8 (start.board 8).tx := by rw [afterReads]

/-- What LINE_TRANSMIT leaves of `start`. -/
def sent : State := (afterReads.lineTaken 8 (start.board 8)).sendLine 8 0 (start.board 8).tx line.crc [0#8]

theorem start_sends : execLineTransmit 8 start = .next sent := by
  obtain ⟨hb, hu, hst, hj, hrun, hf, hreach, hc, -, -⟩ := start_runs
  rw [execLineTransmit_sends hb hu hst hj hrun hf hreach hc afterReads_eq afterReads_valid afterReads_sent, sent]

/-- The words of board 8's LINE are those of the lane inverted. -/
theorem sent_outbox (pkt : List Byte) (hpkt : pkt = herufH 0x01 0 (start.board 8).tx line.crc [0#8]) :
    sent.outbox = afterReads.outbox ++ [.headPacket 8 4 pkt (afterReads.laneWords 4 (packetBlocks 1 pkt))] := by
  obtain ⟨-, -, -, -, -, -, -, -, hlanes, hlane⟩ := start_runs
  have hprof (o n : Nat) : (afterReads.lineTaken 8 (start.board 8)).prof 8 o n = start.prof 8 o n :=
    State.lineTaken_prof _ (Eq.refl _) o n
  rw [sent, State.sendLine_outbox (by rw [hprof]; exact hlanes), hprof, hlane, State.lineTaken_laneWords _ _ (by decide),
    State.lineTaken_outbox, hpkt]

/-- They are not those of the lane as it stood before the reads. -/
theorem sent_words (pkt : List Byte) (hpkt : pkt = herufH 0x01 0 (start.board 8).tx line.crc [0#8]) :
    sent.outbox ≠ afterReads.outbox ++
      [.headPacket 8 (start.prof 8 4 1) pkt (start.laneWords (start.prof 8 4 1) (packetBlocks 1 pkt))] := by
  obtain ⟨-, -, -, -, -, -, -, -, -, hlane⟩ := start_runs
  obtain ⟨hplain, hinverted, hscr⟩ := afterReads_inverts
  obtain ⟨bs, hblocks⟩ := packetBlocks_cons 1 pkt
  intro hout
  rw [sent_outbox pkt hpkt, hlane, hblocks] at hout
  obtain ⟨-, -, -, hwords⟩ := Out.headPacket.inj (List.cons.inj (List.append_cancel_left hout)).1
  exact State.laneWords_ne_of_inverted hscr hplain hinverted _ _ hwords

end InvertedLane

/-- Refutes O37: a LINE's words are made after its reads, and `InvertedLane.start` is a state in which the read of an
uncorrectable word inverts the lane between. -/
theorem not_fireLinesComplete : ¬ Obligations.FireLinesComplete := by
  intro h
  obtain ⟨htransmit, -⟩ := h
  obtain ⟨hb, hu, hst, hj, hrun, hf, hreach, hc, hlanes, -⟩ := InvertedLane.start_runs
  obtain ⟨t, hexec, -, -, hout⟩ := htransmit InvertedLane.start InvertedLane.afterReads 8 0 InvertedLane.line [0#8] _
    (by decide) hb hu hst hj hrun hf hreach hc InvertedLane.afterReads_eq InvertedLane.afterReads_valid
    InvertedLane.afterReads_sent hlanes (Eq.refl _)
  have hsent : execLineTransmit 8 InvertedLane.start = .next t := hexec
  rw [← Host.Outcome.next.inj (InvertedLane.start_sends.symm.trans hsent)] at hout
  exact InvertedLane.sent_words _ (Eq.refl _) hout

end Sys2Proof.Machine

/-! SUPPORT. The settings of the capture block (chapter 08): which registers they stand in, and what of a port is read from
them. Nothing that a port does writes one of them. -/
namespace Sys2Proof.Machine

/-- The settings registers: CTRL, GEOM, ALIGN, TRIG and SENS of a port, KAL_CTRL of a pipeline, and JIG_CTRL. In the
blocks 0x19 and 0x1B it is the first of every eight, which holds no status and no count. -/
def settingReg (a : Nat) : Bool :=
  decide (0x180000 ≤ a ∧ a < 0x290000 ∧ (a % 0x20 = 0 ∨ a < 0x190000 ∧ a % 0x20 < 0x14))

theorem settingReg_iff {a : Nat} : settingReg a = true ↔
    0x180000 ≤ a ∧ a < 0x290000 ∧ (a % 0x20 = 0 ∨ a < 0x190000 ∧ a % 0x20 < 0x14) := decide_eq_true_iff

theorem settingReg_not_eventRegs {a : Nat} (h : settingReg a = true) : a ∉ eventRegs := by
  have := settingReg_iff.mp h
  simp only [eventRegs, Reg.EVT_COUNTS, Reg.EVT_STATUS, Reg.NVC_LOG, List.mem_cons, List.not_mem_nil, or_false, not_or]
  omega

/-- Two states show a port the same settings. -/
structure State.SetAs (t s : State) : Prop where
  reg : ∀ a, settingReg a = true → t.reg a = s.reg a

theorem State.SetAs.trans {s t u : State} (h : u.SetAs t) (k : t.SetAs s) : u.SetAs s :=
  ⟨fun a ha => (h.reg a ha).trans (k.reg a ha)⟩

theorem State.setAs_of_regs {s t : State} (h : t.regs = s.regs) : t.SetAs s := ⟨fun a _ => State.reg_of_regs h a⟩

theorem State.setFld_setAs {s : State} {f : Fld} {v : Nat} (h : settingReg f.addr = false) : (s.setFld f v).SetAs s :=
  ⟨fun a ha => State.reg_setFld_other fun e => by rw [e, h] at ha; cases ha⟩

theorem State.raiseIf_setAs (s : State) (en : Bool) (prod : Nat) (tag : Option Nat) : (s.raiseIf en prod tag).SetAs s :=
  ⟨fun _ ha => State.raiseIf_reg (settingReg_not_eventRegs ha)⟩

/-! The registers in which a port's and a pipeline's work shows. -/

theorem settingReg_capShown {n o : Nat} (h : 0x14 ≤ o ∧ o < 0x20) : settingReg (0x180000 + o + 0x20 * n) = false := by
  rw [← Bool.not_eq_true, settingReg_iff]
  omega

theorem settingReg_kalShown {p o : Nat} (h : 0 < o ∧ o < 0x20) : settingReg (0x190000 + o + 0x20 * p) = false := by
  rw [← Bool.not_eq_true, settingReg_iff]
  omega

/-- An event of a pipeline. -/
theorem State.kalEvent_setAs (s : State) (p bit : Nat) {f : Fld} (hf : f.addr = Reg.KAL_EVENTS p) (prod : Nat) :
    (s.kalEvent p bit f prod).SetAs s :=
  (State.raiseIf_setAs ..).trans (State.setFld_setAs (by rw [hf]; exact settingReg_kalShown (o := 0x1c) (by decide)))

section

variable {s t : State} (h : t.SetAs s)
include h

theorem State.SetAs.fld {f : Fld} (hf : settingReg f.addr = true) : t.fld f = s.fld f := State.fld_of_reg (h.reg _ hf)

theorem State.SetAs.flag {f : Fld} (hf : settingReg f.addr = true) : t.flag f = s.flag f := State.flag_of_fld (h.fld hf)

theorem State.SetAs.capFld {n o : Nat} {f : Fld} (hn : n < 24) (hf : f.addr = 0x180000 + o + 0x20 * n) (ho : o < 0x14) :
    t.fld f = s.fld f :=
  h.fld (by rw [hf, settingReg_iff]; omega)

theorem State.SetAs.kalCtrl {p : Nat} {f : Fld} (hp : p < 8) (hf : f.addr = 0x190000 + 0x20 * p) : t.fld f = s.fld f :=
  h.fld (by rw [hf, settingReg_iff]; omega)

theorem State.SetAs.jigEnable : t.flag Reg.JIG_CTRL_ENABLE = s.flag Reg.JIG_CTRL_ENABLE := h.flag (by decide)

end

theorem State.pipeOf_lt (s : State) {n : Nat} (hn : n < 24) : s.pipeOf n < 8 := by
  have := s.fld_lt (Reg.CAP_CTRL_PIPE n)
  have hw : 2 ^ (Reg.CAP_CTRL_PIPE n).width = 2 := rfl
  rw [State.pipeOf]
  omega

section

variable {s t : State} (h : t.SetAs s) {n : Nat} (hn : n < 24)
include h hn

theorem State.SetAs.bilinear : t.bilinear n = s.bilinear n := State.flag_of_fld (h.capFld hn (o := 0) rfl (by decide))

theorem State.SetAs.freeRun : t.freeRun n = s.freeRun n := State.flag_of_fld (h.capFld hn (o := 0xc) rfl (by decide))

theorem State.SetAs.halfAlong : t.halfAlong n = s.halfAlong n := congrArg (· == 1) (h.capFld hn (o := 0) rfl (by decide))

theorem State.SetAs.capW : t.capW n = s.capW n := h.capFld hn (o := 4) rfl (by decide)

theorem State.SetAs.capLines : t.capLines n = s.capLines n := h.capFld hn (o := 4) rfl (by decide)

theorem State.SetAs.pipeOf : t.pipeOf n = s.pipeOf n :=
  congrArg (2 * (n / 6) + ·) (h.capFld hn (o := 0) rfl (by decide))

theorem State.SetAs.capRoom : t.capRoom n = s.capRoom n := by
  have hshare : t.flag (Reg.KAL_CTRL_SHARE (s.pipeOf n)) = s.flag (Reg.KAL_CTRL_SHARE (s.pipeOf n)) :=
    State.flag_of_fld (h.kalCtrl (s.pipeOf_lt hn) rfl)
  rw [State.capRoom, h.pipeOf hn, hshare, h.capLines hn, State.capRoom]

end

/-! The ports. -/

theorem State.cam_of_eye {s t : State} (h : t.eye = s.eye) (n : Nat) : t.cam n = s.cam n := by rw [State.cam, h, State.cam]

@[simp] theorem State.kalEvent_eye (s : State) (p bit : Nat) (f : Fld) (prod : Nat) :
    (s.kalEvent p bit f prod).eye = s.eye := by
  rw [State.kalEvent, State.raiseIf_eye, State.setFld_eye]

@[simp] theorem State.deviation_eye (s : State) (n : Nat) (f : Fld) : (s.deviation n f).eye = s.eye := by
  rw [State.deviation, State.kalEvent_eye, State.bump_eye]

/-- A deviation shows in its count, in KAL_EVENTS and in the event matrix. -/
theorem State.deviation_setAs (s : State) {n : Nat} {f : Fld} (hf : f.addr = Reg.CAP_COUNT n) :
    (s.deviation n f).SetAs s :=
  (State.kalEvent_setAs _ _ _ (by rfl) _).trans
    (State.setFld_setAs (by rw [hf]; exact settingReg_capShown (o := 0x1c) (by decide)))

end Sys2Proof.Machine

/-! SUPPORT. Camera ports (R188 to R197): triggers, frames and port lines, and what each leaves of its port. -/
namespace Sys2Proof.Machine

theorem State.setCam_setAs (s : State) (n : Nat) (x : Cam) : (s.setCam n x).SetAs s := State.setAs_of_regs rfl

/-! Triggers (R192). -/

section

variable {s : State} {n : Nat} (hn : n < 24) (hon : s.capOn n = true) (hw : s.awake = true)
include hn hon hw

theorem capActive : ¬(!(decide (n < 24) && s.capOn n && s.awake)) = true := by
  rw [decide_eq_true hn, hon, hw]
  decide

theorem execCameraTrigger_free (hf : s.freeRun n = true) : execCameraTrigger n s = .next
    ((s.setCam n { s.cam n with trigs := (s.cam n).trigs + 1 }).emit
      (.cameraTrigger n (s.fld (Reg.CAP_TRIG_WIDTH n)))) := by
  rw [execCameraTrigger, if_neg (capActive hn hon hw), if_pos hf]

theorem execCameraTrigger_web (hf : s.freeRun n = false) : execCameraTrigger n s = .next
    (if max (s.cam n).high s.webPos < s.trigPos n (s.cam n).trigs then
      s.setCam n { s.cam n with high := max (s.cam n).high s.webPos }
    else (s.setCam n { s.cam n with
        high := max (s.cam n).high s.webPos, trigs := (s.cam n).trigs + 1,
        waiting := (s.cam n).waiting ++ [s.trigNow (s.cam n).trigs (s.trigPos n (s.cam n).trigs)] }).emit
      (.cameraTrigger n (s.fld (Reg.CAP_TRIG_WIDTH n)))) := by
  rw [execCameraTrigger, if_neg (capActive hn hon hw), if_neg (Bool.not_eq_true _ ▸ hf)]

end

/-! Frames that open (R190, R195). -/

theorem State.fld_setFld_oneBit {s : State} {f : Fld} {v : Nat} (hf : f.fits) (hw : f.width = 1) (hv : v < 2) :
    (s.setFld f v).fld f = v := State.fld_setFld hf (by rw [hw]; exact hv)

theorem State.eye_ite {p : Prop} [Decidable p] {a b : State} : (if p then a else b).eye = if p then a.eye else b.eye :=
  apply_ite State.eye ..

theorem State.countTaken_eye (s : State) (n : Nat) : (s.countTaken n).eye = s.eye := by
  rw [State.countTaken]
  dsimp only
  split
  · rfl
  · rw [State.bumpWrap_eye]

theorem State.takeTables_cam (s : State) (n : Nat) : ∃ r, (s.takeTables n).cam n = { s.cam n with render := r } := by
  rw [State.takeTables]
  dsimp only
  split
  · refine ⟨s.renderFor n, ?_⟩
    rw [State.cam_of_eye (t := State.showTabPend _) (State.setFlag_eye ..), State.cam_of_eye (State.countTaken_eye ..),
      State.cam_setCam]
  · exact ⟨_, rfl⟩

theorem State.openFrame_port (s : State) (n : Nat) (o : Bool) :
    ((s.openFrame n o).cam n).fsync = (s.cam n).fsync ∧ ((s.openFrame n o).cam n).lines = 0 ∧
      ((s.openFrame n o).cam n).pend = false ∧
      ((s.openFrame n o).cam n).nextFrame = ((s.cam n).nextFrame + 1) % idxMod ∧
      ((s.openFrame n o).cam n).frames.head?.map (fun f => (f.num, f.closed, f.overlong, f.params)) =
        some ((s.cam n).nextFrame, false, o, if (s.cam n).pend then (s.cam n).staged else (s.cam n).params) := by
  unfold State.openFrame
  extract_lets p x num before swap x1 x2 s1 x3 f s2 s3 s4 s5
  have hcam : (if o = true then s5.deviation n (Reg.CAP_COUNT_OVERLENGTH n) else s5).cam n =
      { x3 with frames := f :: x3.frames.filter x3.needs, unsure := x3.unsure.filter (· ≠ num) } := by
    refine (State.cam_of_eye (s := s2) ?_ n).trans (State.cam_setCam ..)
    simp only [State.eye_ite, State.deviation_eye, State.kalEvent_eye, State.setFld_eye, ite_self, s5, s4, s3]
  obtain ⟨r, hr⟩ := State.takeTables_cam (s.setCam n x2) n
  have hx : x3 = { x2 with render := r } := hr.trans (by rw [State.cam_setCam])
  have hparams : f.params = if x.pend then x.staged else x.params := congrArg Cam.params hx
  rw [hcam]
  refine ⟨?_, ?_, ?_, ?_, congrArg (fun q => some (num, false, o, q)) hparams⟩
  all_goals
    dsimp only
    rw [hx]
  rfl

theorem State.kalEvent_capFld {s : State} {n o p bit prod : Nat} {f g : Fld} (hn : n < 24) (hg : g.addr = Reg.KAL_EVENTS p)
    (hf : f.addr = 0x180000 + o + 0x20 * n) (ho : o < 0x20) : (s.kalEvent p bit g prod).fld f = s.fld f := by
  refine (State.raiseIf_fld ?_).trans (State.fld_of_reg (State.reg_setFld_other ?_))
  · simp only [eventRegs, Reg.EVT_COUNTS, Reg.EVT_STATUS, Reg.NVC_LOG, List.mem_cons, List.not_mem_nil, or_false, not_or]
    omega
  · rw [hf, hg, Reg.KAL_EVENTS]
    omega

/-- What FRAME and STATUS of the port show once a frame is open (R195). -/
theorem State.openFrame_shows (s : State) {n : Nat} (hn : n < 24) :
    (s.openFrame n false).fld (Reg.CAP_FRAME_FRAME n) = (s.cam n).nextFrame % idxMod ∧
      (s.openFrame n false).fld (Reg.CAP_STATUS_OPEN n) = 1 ∧ (s.openFrame n false).fld (Reg.CAP_STATUS_PEND n) = 0 := by
  unfold State.openFrame
  extract_lets p x num before swap x1 x2 s1 x3 f s2 s3 s4 s5
  have hevent (o : Nat) (ho : o < 0x20) (g : Fld) (hg : g.addr = 0x180000 + o + 0x20 * n) :
      (if false = true then s5.deviation n (Reg.CAP_COUNT_OVERLENGTH n) else s5).fld g = s3.fld g := by
    have hswap (u : State) : (u.kalEvent p 0 (Reg.KAL_EVENTS_GAIN_SWAP p) 85).fld g = u.fld g :=
      State.kalEvent_capFld hn rfl hg ho
    have hdefect (u : State) : (u.kalEvent p 1 (Reg.KAL_EVENTS_DEFECT p) 86).fld g = u.fld g :=
      State.kalEvent_capFld hn rfl hg ho
    simp only [Bool.false_eq_true, if_false, s5, s4, State.fld_ite, hswap, hdefect, ite_self]
  refine ⟨(hevent 0x18 (by decide) _ rfl).trans ?_, (hevent 0x14 (by decide) _ rfl).trans ?_,
    (hevent 0x14 (by decide) _ rfl).trans ?_⟩
  · have hne : (Reg.CAP_FRAME_FRAME n).addr ≠ Reg.CAP_STATUS n := by
      show 0x180018 + 0x20 * n ≠ 0x180014 + 0x20 * n
      omega
    have hself : (s2.setFld (Reg.CAP_FRAME_FRAME n) num).fld (Reg.CAP_FRAME_FRAME n) = num % idxMod :=
      State.fld_setFld_self (Fld.fits_of_decide rfl)
    rw [← hself]
    exact State.fld_of_reg
      ((State.reg_setFld_other hne).trans ((State.reg_setFld_other hne).trans (State.reg_setFld_other hne)))
  · rw [State.fld_setFld_clear (Fld.clearOf_of_bits (by rfl)), State.fld_setFld_clear (Fld.clearOf_of_bits (by rfl))]
    exact State.fld_setFld_oneBit (Fld.fits_of_decide rfl) rfl (by decide)
  · rw [State.fld_setFld_clear (Fld.clearOf_of_bits (by rfl))]
    exact State.fld_setFld_oneBit (Fld.fits_of_decide rfl) rfl (by decide)

/-! Frames that close (R190, R196). -/

theorem Cam.frames_of_openFrame {x : Cam} {f : CamFrame} (h : x.openFrame = some f) : ∃ l, x.frames = f :: l := by
  cases hf : x.frames with
  | nil => simp [Cam.openFrame, hf] at h
  | cons g l =>
    simp only [Cam.openFrame, hf] at h
    split at h
    · cases h
    · exact ⟨l, by rw [Option.some.inj h]⟩

theorem Cam.updTop_head {x : Cam} {f : CamFrame} (h : x.openFrame = some f) (u : CamFrame → CamFrame) :
    (x.updTop u).frames.head? = some (u f) := by
  obtain ⟨l, hl⟩ := Cam.frames_of_openFrame h
  rw [Cam.updTop, hl]
  rfl

theorem Cam.updTop_fsync (x : Cam) (u : CamFrame → CamFrame) : (x.updTop u).fsync = x.fsync := by
  rw [Cam.updTop]
  split <;> rfl

section

variable {s : State} {n : Nat}

/-- FSYNC has fallen. -/
def State.fsyncFallen (s : State) (n : Nat) : State := s.setCam n { s.cam n with fsync := false }

theorem State.fsyncFallen_onGrid (s : State) (n : Nat) : (s.fsyncFallen n).onGrid n = s.onGrid n := by
  rw [State.onGrid, State.registered, State.fsyncFallen, State.cam_setCam]
  rfl

theorem execFrameClose_closes (hn : n < 24) (hon : s.capOn n = true) (hf : (s.cam n).fsync = true)
    (ho : (s.cam n).openFrame.isNone = false) {short : Bool}
    (hs : (decide ((s.cam n).lines < s.capLines n) || (s.cam n).rowA.isSome) = short) :
    execFrameClose n s = .next (if short then
      ((s.fsyncFallen n).closeFrame n short).deviation n (Reg.CAP_COUNT_SHORT_FRAME n)
      else (s.fsyncFallen n).closeFrame n short) := by
  have hcond : ¬(!(decide (n < 24) && s.capOn n && (s.cam n).fsync)) = true := by rw [decide_eq_true hn, hon, hf]; decide
  have hopen : ¬(s.cam n).openFrame.isNone = true := by rw [ho]; decide
  have hlines : (s.fsyncFallen n).capLines n = s.capLines n := rfl
  rw [execFrameClose]
  dsimp only
  rw [if_neg hcond, if_neg hopen, ← hs, State.fsyncFallen, ← hlines]
  rfl

/-- The port once its open frame has closed. -/
theorem State.closeFrame_closed {f : CamFrame} (ho : (s.cam n).openFrame = some f) (short : Bool) :
    (((s.fsyncFallen n).closeFrame n short).cam n).fsync = false ∧
      (((s.fsyncFallen n).closeFrame n short).cam n).openFrame = none ∧
      (((s.fsyncFallen n).closeFrame n short).cam n).frames.head? = some { f with
        closed := true, short := short, done := f.first.isNone && !(s.onGrid n && s.flag Reg.JIG_CTRL_ENABLE) } := by
  have ho' : ((s.fsyncFallen n).cam n).openFrame = some f := by
    rw [State.fsyncFallen, State.cam_setCam]
    exact ho
  have hjig : (s.fsyncFallen n).flag Reg.JIG_CTRL_ENABLE = s.flag Reg.JIG_CTRL_ENABLE := rfl
  refine ⟨?_, State.closeFrame_openFrame .., ?_⟩
  · rw [State.closeFrame, State.cam_setFld, State.cam_setCam]
    dsimp only
    rw [Cam.updTop_fsync, State.fsyncFallen, State.cam_setCam]
  · rw [State.closeFrame, State.cam_setFld, State.cam_setCam, State.fsyncFallen_onGrid, hjig]
    exact Cam.updTop_head ho' _

theorem State.closeFrame_shows (s : State) (n : Nat) (short : Bool) :
    (s.closeFrame n short).fld (Reg.CAP_STATUS_OPEN n) = 0 :=
  State.fld_setFld_oneBit (Fld.fits_of_decide rfl) rfl (by decide)

/-- A deviation shows in its count and in the pipeline's events. -/
theorem State.deviation_shows (s : State) (hn : n < 24) :
    (s.deviation n (Reg.CAP_COUNT_SHORT_FRAME n)).fld (Reg.CAP_COUNT_SHORT_FRAME n) =
        min (s.fld (Reg.CAP_COUNT_SHORT_FRAME n) + 1) 255 ∧
      (s.deviation n (Reg.CAP_COUNT_SHORT_FRAME n)).fld (Reg.KAL_EVENTS_DEVIATION (s.pipeOf n)) = 1 := by
  have hp := s.pipeOf_lt hn
  constructor
  · exact (State.kalEvent_capFld hn rfl (o := 0x1c) rfl (by decide)).trans (State.fld_bump (Fld.fits_of_decide rfl))
  · refine (State.raiseIf_fld ?_).trans (State.fld_setFld_oneBit (Fld.fits_of_decide rfl) rfl (by decide))
    show 0x19001c + 0x20 * s.pipeOf n ∉ eventRegs
    simp only [eventRegs, Reg.EVT_COUNTS, Reg.EVT_STATUS, Reg.NVC_LOG, List.mem_cons, List.not_mem_nil, or_false, not_or]
    omega

theorem State.deviation_status (s : State) (hn : n < 24) {f g : Fld} (hf : f.addr = Reg.CAP_COUNT n)
    (hg : g.addr = Reg.CAP_STATUS n) : (s.deviation n f).fld g = s.fld g := by
  refine (State.kalEvent_capFld hn rfl (o := 0x14) hg (by decide)).trans (State.fld_of_reg (State.reg_setFld_other ?_))
  rw [hf, hg, Reg.CAP_COUNT, Reg.CAP_STATUS]
  omega

end

/-! Port lines (R189, R191, R193, R196, R197). -/

/-- A port line as it joins the port's history: with the tag of its trigger, aligned, and marked where it is short or
long. -/
def State.portLine (s : State) (n : Nat) (v : List Nat) : PortLine :=
  ⟨s.lineTrig n (s.cam n).plines, s.alignLine n v,
    if v.length < (if s.bilinear n then s.capW n else 3 * s.capW n) then 1
    else if (if s.bilinear n then s.capW n else 3 * s.capW n) < v.length then 2 else 0⟩

/-- The port once a port line has begun. -/
def Cam.begun (x : Cam) (free : Bool) (l : PortLine) : Cam :=
  { x with
    plines := x.plines + 1, history := (l :: x.history).take 32,
    waiting := if free then x.waiting else x.waiting.filter fun w => decide (l.trig.k ≤ w.k) }

/-- The port once row B has met its row A. -/
def Cam.paired (x : Cam) : Cam := { x with rowA := none }

theorem execCameraPortLine_begins {s : State} {n : Nat} (hn : n < 24) (hon : s.capOn n = true) (hw : s.awake = true)
    (v : List Nat) : execCameraPortLine n v s = .next
      (if (s.cam n).fsync then
        (s.setCam n ((s.cam n).begun (s.freeRun n) (s.portLine n v))).frameLine n (s.portLine n v)
      else (s.setCam n ((s.cam n).begun (s.freeRun n) (s.portLine n v))).setFld (Reg.CAP_STATUS_OUTSIDE n) 1) := by
  rw [execCameraPortLine, if_neg (capActive hn hon hw)]
  rfl

section

variable {s : State} {n : Nat} {f : CamFrame} {l : PortLine}

/-- A port line taken into the frame: it completes an inspection line, or waits in the port. -/
def State.lineJoins (s : State) (n : Nat) (l : PortLine) : State :=
  let s' := s.setCam n (s.lineFrom n l).2
  match (s.lineFrom n l).1, (s'.cam n).openFrame with
  | some (t, flags, rows), some f => s'.inspLine n f t flags rows
  | _, _ => s'

/-- A port line of an open frame with lines to come: it deviates at most, and joins the frame. -/
theorem State.frameLine_inside (ho : (s.cam n).openFrame = some f) (hl : (s.cam n).lines < s.capLines n) :
    ∃ u : State, u.eye = s.eye ∧ u.SetAs s ∧ s.frameLine n l = u.lineJoins n l := by
  have hgoes : ¬((s.cam n).openFrame.isNone || decide (s.capLines n ≤ (s.cam n).lines)) = true := by
    rw [ho, decide_eq_false (Nat.not_le.mpr hl)]
    exact Bool.false_ne_true
  unfold State.frameLine
  extract_lets x s1 s2 s3
  have h1 : s1 = s := if_neg hgoes
  have h2 : s2.eye = s.eye ∧ s2.SetAs s := by
    dsimp only [s2]
    rw [h1]
    split
    · exact ⟨State.deviation_eye .., State.deviation_setAs _ (by rfl)⟩
    · exact ⟨rfl, State.setAs_of_regs rfl⟩
  have h3 : s3.eye = s.eye ∧ s3.SetAs s := by
    dsimp only [s3]
    split
    · exact ⟨(State.deviation_eye ..).trans h2.1, (State.deviation_setAs _ (by rfl)).trans h2.2⟩
    · exact h2
  exact ⟨s3, h3.1, h3.2, rfl⟩

theorem State.lineJoins_waits {x : Cam} (h : s.lineFrom n l = (none, x)) : s.lineJoins n l = s.setCam n x := by
  rw [State.lineJoins, h]

theorem State.lineJoins_completes {x : Cam} {t : Trig} {flags : Nat} {rows : List (List Nat)}
    (h : s.lineFrom n l = (some (t, flags, rows), x)) (ho : x.openFrame = some f) :
    s.lineJoins n l = (s.setCam n x).inspLine n f t flags rows := by
  have ho' : ((s.setCam n x).cam n).openFrame = some f := by rw [State.cam_setCam, ho]
  rw [State.lineJoins, h]
  dsimp only
  rw [ho']

/-- CAMERA_PORT_LINE inside a frame. -/
theorem execCameraPortLine_inside (hn : n < 24) (hon : s.capOn n = true) (hw : s.awake = true)
    (hf : (s.cam n).fsync = true) (ho : (s.cam n).openFrame = some f) (hl : (s.cam n).lines < s.capLines n) (v : List Nat) :
    ∃ u : State, u.cam n = (s.cam n).begun (s.freeRun n) (s.portLine n v) ∧ u.SetAs s ∧
      execCameraPortLine n v s = .next (u.lineJoins n (s.portLine n v)) := by
  have hcam : (s.setCam n ((s.cam n).begun (s.freeRun n) (s.portLine n v))).cam n =
      (s.cam n).begun (s.freeRun n) (s.portLine n v) := State.cam_setCam ..
  obtain ⟨u, heye, hset, hline⟩ := State.frameLine_inside
    (s := s.setCam n ((s.cam n).begun (s.freeRun n) (s.portLine n v))) (l := s.portLine n v)
    (by rw [hcam]; exact ho) (by rw [hcam]; exact hl)
  refine ⟨u, (State.cam_of_eye heye n).trans hcam, hset.trans (State.setAs_of_regs rfl), ?_⟩
  rw [execCameraPortLine_begins hn hon hw, if_pos hf, hline]

theorem State.lineFrom_rowA (hb : s.bilinear n = true) (hr : (s.cam n).rowA = none) :
    s.lineFrom n l = (none, { s.cam n with rowA := some l }) := by
  rw [State.lineFrom, if_pos hb, hr]

theorem State.lineFrom_pair {a : PortLine} (hb : s.bilinear n = true) (hr : (s.cam n).rowA = some a) :
    s.lineFrom n l =
      (some (a.trig, a.flags ||| l.flags, [a.samples, l.samples]), (s.cam n).paired) := by
  rw [State.lineFrom, if_pos hb, hr]
  rfl

/-- The three colour rows of a trilinear line that no alignment delays. -/
theorem State.lineFrom_aligned {ls : List PortLine} (hb : s.bilinear n = false) (hR : s.fld (Reg.CAP_ALIGN_D_R n) = 0)
    (hG : s.fld (Reg.CAP_ALIGN_D_G n) = 0) (hB : s.fld (Reg.CAP_ALIGN_D_B n) = 0) (hh : (s.cam n).history = l :: ls) :
    ∃ flags, s.lineFrom n l = (some (l.trig, flags, [l.samples.take (s.capW n), (l.samples.drop (s.capW n)).take (s.capW n),
      (l.samples.drop (2 * s.capW n)).take (s.capW n)]), s.cam n) := by
  have hrange : List.range 3 = [0, 1, 2] := rfl
  refine ⟨([0, 0, 0] : List Nat).foldl (fun a i => a ||| ((l :: ls).getD i l).flags) 0, ?_⟩
  rw [State.lineFrom, hb, hR, hG, hB, hh]
  simp [hrange]

theorem State.calTake_cam (s : State) (n : Nat) (rows : List (List Nat)) :
    ∃ r, (s.calTake n rows).cam n = { s.cam n with run := r } := by
  rw [State.calTake]
  dsimp only
  split
  · split
    · exact ⟨_, rfl⟩
    · exact ⟨_, State.cam_setCam ..⟩
  · exact ⟨_, rfl⟩

/-- What joining a run and FILL_PCT leave of the port. -/
theorem State.captured_cam (s : State) (n : Nat) (rows : List (List Nat)) (y : Cam) :
    ∃ r, (((s.setCam n y).calTake n rows).showCapFill n).cam n = { y with run := r } := by
  obtain ⟨r, hr⟩ := State.calTake_cam (s.setCam n y) n rows
  refine ⟨r, (State.cam_of_eye (State.setFld_eye ..) n).trans ?_⟩
  rw [hr, State.cam_setCam]

/-- An inspection line that finds room is written to the capture buffer (R197). -/
theorem State.inspLine_buffered {t : Trig} {flags : Nat} {rows : List (List Nat)} (hh : s.halfAlong n = false)
    (hroom : (s.cam n).buf.length < s.capRoom n) :
    ∃ c : CapLine, ((s.inspLine n f t flags rows).cam n).lines = (s.cam n).lines + 1 ∧
      ((s.inspLine n f t flags rows).cam n).rowA = (s.cam n).rowA ∧
      ((s.inspLine n f t flags rows).cam n).buf = (s.cam n).buf ++ [c] ∧
      c.trig = t ∧ c.frame = f.num ∧ c.row = (s.cam n).lines ∧ c.rows = rows := by
  have hskip : ¬(s.halfAlong n && (s.cam n).lines % 2 == 1) = true := by rw [hh]; exact Bool.false_ne_true
  have hfits : ¬s.capRoom n ≤ (s.cam n).buf.length := Nat.not_le.mpr hroom
  unfold State.inspLine
  extract_lets x row s1 bits c y
  have hskip' : ¬(s1.halfAlong n && row % 2 == 1) = true := hskip
  have hfits' : ¬s1.capRoom n ≤ x.buf.length := hfits
  rw [if_neg hskip', if_neg hfits']
  have hy : y = { x with lines := row + 1 } := State.cam_setCam ..
  obtain ⟨r, hr⟩ := State.captured_cam s1 n rows { y with buf := x.buf ++ [c], written := x.written + 1 }
  rw [hr, hy]
  exact ⟨c, rfl, rfl, rfl, rfl, rfl, rfl, rfl⟩

/-- `inspLine_buffered` on a state that shows the port the settings of another. -/
theorem State.inspLine_buffered_of {u : State} {y : Cam} {t : Trig} {flags : Nat} {rows : List (List Nat)} (hset : u.SetAs s)
    (hn : n < 24) (hh : s.halfAlong n = false) (hroom : y.buf.length < s.capRoom n) :
    ∃ c : CapLine, (((u.setCam n y).inspLine n f t flags rows).cam n).lines = y.lines + 1 ∧
      (((u.setCam n y).inspLine n f t flags rows).cam n).rowA = y.rowA ∧
      (((u.setCam n y).inspLine n f t flags rows).cam n).buf = y.buf ++ [c] ∧
      c.trig = t ∧ c.frame = f.num ∧ c.row = y.lines ∧ c.rows = rows := by
  have hset' : (u.setCam n y).SetAs s := (State.setCam_setAs ..).trans hset
  have h := State.inspLine_buffered (f := f) (t := t) (flags := flags) (rows := rows) ((hset'.halfAlong hn).trans hh)
    (by rw [State.cam_setCam, hset'.capRoom hn]; exact hroom)
  rwa [State.cam_setCam] at h

end

/-! The statement. -/

/-- Settles O44: a trigger by where T_k lies, a frame by the port that it leaves, a port line by the inspection line that
it completes. -/
theorem cameraCommandsComplete : Obligations.CameraCommandsComplete := by
  refine ⟨?reached, ?before, ?free, ?opens, ?closes, ?closesShort, ?outside, ?rowA, ?rowB, ?trilinear⟩
  case reached =>
    intro s n hn hon hw hf hk
    refine ⟨_, (execCameraTrigger_web hn hon hw hf).trans (congrArg _ (if_neg (Int.not_lt.mpr hk))), ?_, rfl, rfl⟩
    exact State.cam_setCam ..
  case before =>
    intro s n hn hon hw hf hk
    exact ⟨_, (execCameraTrigger_web hn hon hw hf).trans (congrArg _ (if_pos hk)), State.cam_setCam .., rfl, rfl⟩
  case free =>
    intro s n hn hon hw hf
    exact ⟨_, execCameraTrigger_free hn hon hw hf, State.cam_setCam .., rfl, rfl⟩
  case opens =>
    intro s n hn hon hw hf
    have hexec : execFrameOpen n s = .next ((s.setCam n { s.cam n with fsync := true }).openFrame n false) :=
      congrArg Host.Outcome.next (if_pos (by rw [decide_eq_true hn, hon, hw, hf]; decide))
    have hcam : (s.setCam n { s.cam n with fsync := true }).cam n = { s.cam n with fsync := true } := State.cam_setCam ..
    obtain ⟨hfsync, hlines, hpend, hnext, hhead⟩ := State.openFrame_port (s.setCam n { s.cam n with fsync := true }) n false
    obtain ⟨hframe, hopen, hwait⟩ := State.openFrame_shows (s.setCam n { s.cam n with fsync := true }) hn
    rw [hcam] at hfsync hnext hhead hframe
    exact ⟨_, hexec, hfsync, hlines, hpend, hnext, hhead, hframe, hopen, hwait⟩
  case closes =>
    intro s n f hn hon hf ho hl hr
    have hshort : (decide ((s.cam n).lines < s.capLines n) || (s.cam n).rowA.isSome) = false := by
      rw [decide_eq_false (Nat.not_lt.mpr hl), hr]
      rfl
    obtain ⟨hfsync, hnone, hhead⟩ := State.closeFrame_closed ho false
    refine ⟨_, execFrameClose_closes hn hon hf (by rw [ho]; rfl) hshort, hfsync, hnone, hhead,
      State.closeFrame_shows .., State.closeFrame_fld ?_⟩
    show 0x18001c + 0x20 * n ≠ 0x180014 + 0x20 * n
    omega
  case closesShort =>
    intro s n f hn hon hf ho hl
    have hshort : (decide ((s.cam n).lines < s.capLines n) || (s.cam n).rowA.isSome) = true := by
      rw [decide_eq_true hl]
      rfl
    obtain ⟨-, hnone, hhead⟩ := State.closeFrame_closed ho true
    obtain ⟨hcount, hevent⟩ := State.deviation_shows ((s.fsyncFallen n).closeFrame n true) hn
    have hcam := State.cam_of_eye
      (State.deviation_eye ((s.fsyncFallen n).closeFrame n true) n (Reg.CAP_COUNT_SHORT_FRAME n)) n
    have hne : (Reg.CAP_COUNT_SHORT_FRAME n).addr ≠ Reg.CAP_STATUS n := by
      show 0x18001c + 0x20 * n ≠ 0x180014 + 0x20 * n
      omega
    have hpipe : ((s.fsyncFallen n).closeFrame n true).pipeOf n = s.pipeOf n :=
      State.SetAs.pipeOf ((State.setFld_setAs (settingReg_capShown (o := 0x14) (by decide))).trans
        ((State.setCam_setAs ..).trans (State.setCam_setAs ..))) hn
    rw [State.closeFrame_fld hne] at hcount
    rw [hpipe] at hevent
    refine ⟨_, execFrameClose_closes hn hon hf (by rw [ho]; rfl) hshort, ?_, ?_, ?_, hcount, hevent⟩
    · exact (congrArg Cam.openFrame hcam).trans hnone
    · exact (congrArg (fun x => x.frames.head?) hcam).trans hhead
    · exact (State.deviation_status _ hn rfl rfl).trans (State.closeFrame_shows ..)
  case outside =>
    intro s n v hn hon hw hf
    refine ⟨_, (execCameraPortLine_begins hn hon hw v).trans (congrArg _ (if_neg (Bool.not_eq_true _ ▸ hf))), ?_, ?_, ?_⟩
    · rw [State.cam_setFld, State.cam_setCam]; rfl
    · rw [State.cam_setFld, State.cam_setCam]; rfl
    · exact State.fld_setFld_oneBit (Fld.fits_of_decide rfl) rfl (by decide)
  case rowA =>
    intro s n v f hn hon hw hf hb ho hl hr
    obtain ⟨u, hcam, hset, hexec⟩ := execCameraPortLine_inside hn hon hw hf ho hl v
    have hfrom := State.lineFrom_rowA (l := s.portLine n v) ((hset.bilinear hn).trans hb) (by rw [hcam]; exact hr)
    rw [State.lineJoins_waits hfrom, hcam] at hexec
    exact ⟨_, hexec, by rw [State.cam_setCam]; rfl, by rw [State.cam_setCam]; rfl, by rw [State.cam_setCam]; rfl⟩
  case rowB =>
    intro s n v f a hn hon hw hf hb hh ho hl hr hroom
    obtain ⟨u, hcam, hset, hexec⟩ := execCameraPortLine_inside hn hon hw hf ho hl v
    have hfrom := State.lineFrom_pair (l := s.portLine n v) ((hset.bilinear hn).trans hb) (by rw [hcam]; exact hr)
    rw [State.lineJoins_completes hfrom (by rw [hcam]; exact ho), hcam] at hexec
    obtain ⟨c, hlines, hrow, hbuf, htrig, hframe, hnum, hrows⟩ := State.inspLine_buffered_of (f := f)
      (y := (((s.cam n).begun (s.freeRun n) (s.portLine n v)).paired)) hset hn hh hroom
    exact ⟨_, c, hexec, hrow, hlines, hbuf, htrig, hframe, hnum, hrows⟩
  case trilinear =>
    intro s n v f hn hon hw hf hb hh hR hG hB ho hl hroom
    obtain ⟨u, hcam, hset, hexec⟩ := execCameraPortLine_inside hn hon hw hf ho hl v
    have halign (g : Fld) (hg : g.addr = 0x180008 + 0x20 * n) : u.fld g = s.fld g := hset.capFld hn (o := 8) hg (by decide)
    obtain ⟨flags, hfrom⟩ := State.lineFrom_aligned (l := s.portLine n v) (ls := (s.cam n).history.take 31)
      ((hset.bilinear hn).trans hb) ((halign _ rfl).trans hR) ((halign _ rfl).trans hG) ((halign _ rfl).trans hB)
      (by rw [hcam]; rfl)
    rw [State.lineJoins_completes hfrom (by rw [hcam]; exact ho), hset.capW hn, hcam] at hexec
    obtain ⟨c, hlines, -, hbuf, -, hframe, hnum, hrows⟩ := State.inspLine_buffered_of (f := f)
      (y := (s.cam n).begun (s.freeRun n) (s.portLine n v)) hset hn hh hroom
    exact ⟨_, c, hexec, hlines, hbuf, hframe, hnum, hrows⟩

end Sys2Proof.Machine

/-! SUPPORT. Commands that a port keeps open, and the records of its calibrations (R83, R201, R207, R381). -/
namespace Sys2Proof.Machine

/-! The tag slot of a command under way. -/

theorem State.slotOpen_of_cmd {t u : State} (h : t.cmd = u.cmd) (a b : Nat) : t.slotOpen a b = u.slotOpen a b := by
  rw [State.slotOpen, State.sessOpen_of_cmd h, State.slot_of_cmd h, State.slotOpen]

/-- The completion of a command whose slot no one has touched since. -/
theorem State.finishSlot_done_of_cmd {s t : State} {sess tag : Nat} (h : t.cmd = s.cmd) (ho : s.slotOpen sess tag = true)
    (st : Nat) (pl : List Byte) : (t.finishSlot sess tag st pl).slotDone sess tag st pl = true :=
  State.finishSlot_done ((State.slotOpen_of_cmd h ..).trans ho) ..

theorem State.vacate_slotDone (s : State) (a b sess tag st : Nat) (pl : List Byte) :
    (s.vacate a b).slotDone sess tag st pl = s.slotDone sess tag st pl := by
  rw [State.slotDone, State.vacate_slot, State.slotDone]

theorem State.finishSlot_cam (s : State) (sess tag st : Nat) (pl : List Byte) (n : Nat) :
    (s.finishSlot sess tag st pl).cam n = s.cam n := State.cam_of_eye (State.rest_eye (State.finishSlot_rest ..)) n

theorem State.vacate_cam (s : State) (a b n : Nat) : (s.vacate a b).cam n = s.cam n :=
  State.cam_of_eye ((State.lift_eye ..).trans rfl) n

theorem State.cmd_setCam (s : State) (n : Nat) (x : Cam) : (s.setCam n x).cmd = s.cmd := (rfl)

/-! A transfer with a camera board begins. -/

/-- The command is kept open and occupies INSPECT, its transfer stands in the port. -/
def State.transferBegun (s : State) (rq : Rq) (op n : Nat) (x : CamXfer) : State :=
  ((s.pend rq op).occupy rq .inspect).setCam n { ((s.pend rq op).occupy rq .inspect).cam n with xfer := some x }

section

variable (s : State) (rq : Rq) (op n : Nat) (x : CamXfer)

theorem State.pend_eye : (s.pend rq op).eye = s.eye := State.pend_keeps (view := State.eye) (fun _ _ => rfl) ..

theorem State.pend_regs : (s.pend rq op).regs = s.regs := State.pend_keeps (view := State.regs) (fun _ _ => rfl) ..

theorem State.transferBegun_cam : (s.transferBegun rq op n x).cam n = { s.cam n with xfer := some x } := by
  have hcam : ((s.pend rq op).occupy rq .inspect).cam n = s.cam n := State.cam_of_eye (State.pend_eye ..) n
  rw [State.transferBegun, State.cam_setCam, hcam]

theorem State.transferBegun_executing :
    (s.transferBegun rq op n x).cmd.executing = s.cmd.executing ++ [⟨.inspect, rq.sess, rq.tag⟩] := by
  show (s.pend rq op).cmd.executing ++ _ = _
  rw [State.pend]
  split
  · rfl
  · rfl

theorem State.transferBegun_unanswered (h : s.sessOpen rq.sess = true) :
    (s.transferBegun rq op n x).unanswered rq op = true := by
  have hslot : (s.transferBegun rq op n x).slot rq.sess rq.tag = (s.pend rq op).slot rq.sess rq.tag :=
    State.slot_of_sessions rfl ..
  rw [State.unanswered, hslot]
  exact State.pend_unanswered h

theorem State.unanswered_of_cmd {s t : State} (h : t.cmd = s.cmd) (rq : Rq) (op : Nat) :
    t.unanswered rq op = s.unanswered rq op := by
  rw [State.unanswered, State.slot_of_cmd h, State.unanswered]

theorem State.guarded_of {s t : State} {n : Nat} (hcam : (t.cam n).openFrame = (s.cam n).openFrame)
    (hlines : (t.cam n).lines = (s.cam n).lines) (hregs : t.regs = s.regs) : t.guarded n = s.guarded n := by
  rw [State.guarded, hcam, hlines, State.capLines, State.fld_of_regs hregs, State.fld_of_regs hregs, State.guarded,
    State.capLines]

end

section

variable {s : State} {rq : Rq} {n ident expo gain : Nat} {b : List Byte}

/-- The transfer of CAMERA_SET (R198). -/
def State.setTransfer (s : State) (rq : Rq) (n ident expo gain : Nat) : CamXfer where
  sess := rq.sess
  tag := rq.tag
  ident := ident % 65536
  bytes := bytesOf [s.fld (Reg.CAP_SENS_WCMD n)] ++ leBytes 2 (s.fld (Reg.CAP_SENS_ADDR n)) ++ leBytes 4 expo ++
    leBytes 2 gain

theorem execCameraSet_on (h : s.ready rq 0x0200 = true) (hn : n < 24) (hon : s.capOn n = true) :
    execCameraSet rq n ident expo gain s = .next
      ((((s.take rq).transferBegun rq 0x0200 n (s.setTransfer rq n ident expo gain)).setFlag (Reg.CAP_STATUS_PEND n)
        (s.guarded n)).lift rq.sess rq.tag) := by
  have hon' : ¬(!(s.take rq).capOn n) = true := by
    show ¬(!s.capOn n) = true
    rw [hon]
    decide
  have hguard : (((s.take rq).pend rq 0x0200).occupy rq .inspect).guarded n = s.guarded n := by
    have hcam : (((s.take rq).pend rq 0x0200).occupy rq .inspect).cam n = s.cam n :=
      State.cam_of_eye (State.pend_eye ..) n
    exact State.guarded_of (by rw [hcam]) (by rw [hcam]) (State.pend_regs ..)
  rw [execCameraSet, State.run_ready _ h, State.withParams_ok _ (State.ready_reserved h) (by simp [hn]), if_neg hon']
  dsimp only
  rw [hguard]
  rfl

theorem execCameraSet_off (h : s.ready rq 0x0200 = true) (hn : n < 24) (hoff : s.capOn n = false) :
    execCameraSet rq n ident expo gain s =
      .next (((s.take rq).finish rq 0x0200 scResourceBusy).lift rq.sess rq.tag) := by
  have hoff' : (!(s.take rq).capOn n) = true := by
    show (!s.capOn n) = true
    rw [hoff]
    decide
  rw [execCameraSet, State.run_ready _ h, State.withParams_ok _ (State.ready_reserved h) (by simp [hn]), if_pos hoff']

theorem execSensorXfer_on (h : s.ready rq 0x0201 = true) (hn : n < 24) (hon : s.capOn n = true) (hb : 1 ≤ b.length)
    (hb' : b.length ≤ 1024) : execSensorXfer rq n b s = .next ((((s.take rq).transferBegun rq 0x0201 n
      { settings := false, sess := rq.sess, tag := rq.tag, bytes := b, started := true }).emit
        (.sensorBus n b)).lift rq.sess rq.tag) := by
  have hon' : ¬(!(s.take rq).capOn n) = true := by
    show ¬(!s.capOn n) = true
    rw [hon]
    decide
  rw [execSensorXfer, State.run_ready _ h, State.withParams_ok _ (State.ready_reserved h) (by simp [hn, hb, hb']),
    if_neg hon']
  rfl

end

/-! CS_N rises. -/

section

variable {s : State} {n : Nat} {x : CamXfer} {f : CamFrame} {b : List Byte}

/-- The bytes of a plain transfer are its answer (R201). -/
theorem execSensorTransferEnd_plain (hx : (s.cam n).xfer = some x) (hs : x.started = true) (hp : x.settings = false)
    (hb : b.length = x.bytes.length) : execSensorTransferEnd n b s = .next
      (((s.setCam n { s.cam n with xfer := none }).finishSlot x.sess x.tag scDone b).vacate x.sess x.tag) := by
  have htake : (b ++ List.replicate x.bytes.length 0#8).take x.bytes.length = b := by rw [← hb, List.take_left]
  rw [execSensorTransferEnd]
  dsimp only
  rw [hx]
  dsimp only
  rw [hs, hp, htake]
  rfl

/-- Settings sent while a frame is open are those of a frame LATENCY later (R199). -/
theorem execSensorTransferEnd_settings {lat : Nat} (hx : (s.cam n).xfer = some x) (hs : x.started = true)
    (hp : x.settings = true) (hc : x.crossed = false) (ho : (s.cam n).openFrame = some f)
    (hsh : s.flag (Reg.CAP_CTRL_SHADOW n) = false) (hlat : s.fld (Reg.CAP_CTRL_LATENCY n) = lat) (hpos : 0 < lat)
    (hm : f.num + lat < idxMod) : execSensorTransferEnd n b s = .next
      ((((s.setCam n { s.cam n with setNext := (s.cam n).setNext ++ [(f.num + lat, x.ident)], xfer := none }).setFld
        (Reg.CAP_STATUS_SET_ID n) (s.cam n).setId).finishSlot x.sess x.tag scDone (leBytes 4 (f.num + lat))).vacate
          x.sess x.tag) := by
  have hfirst : ((f.num : Int) + (lat : Int)).toNat % idxMod = f.num + lat := by
    rw [← Nat.cast_add, Int.toNat_natCast, Nat.mod_eq_of_lt hm]
  have hlater : ¬f.num + lat ≤ f.num := by omega
  rw [execSensorTransferEnd]
  dsimp only
  rw [hx]
  dsimp only
  rw [hs, hp, hc, hsh, hlat, Cam.frameM, ho]
  simp only [Option.isNone_some, Bool.not_true, Bool.false_eq_true, if_false, Bool.false_and, hfirst, Cam.settingsFrom, ho,
    if_neg hlater]

end

/-! A calibration's record (R381): the store alone is written. -/

section

variable (s : State) (kind inst : Nat) (content : List Nat) (c : Bool)

theorem State.showStore_eye : s.showStore.eye = s.eye := by
  rw [State.showStore]
  dsimp only
  split
  · simp only [State.setFld_eye]
  · simp only [State.setFld_eye]

theorem State.showStore_cmd : s.showStore.cmd = s.cmd := by
  rw [State.showStore]
  dsimp only
  split
  · simp only [State.setFld_cmd]
  · simp only [State.setFld_cmd]

theorem State.calWrite_eye : (s.calWrite kind inst content c).eye = s.eye := State.showStore_eye _

theorem State.calWrite_cmd : (s.calWrite kind inst content c).cmd = s.cmd := State.showStore_cmd _

end

/-! The end of a calibration run. -/

/-- The port's run is over. -/
def State.runOver (s : State) (n : Nat) : State := s.setCam n { s.cam n with run := none }

theorem State.runOver_cmd (s : State) (n : Nat) : (s.runOver n).cmd = s.cmd := State.cmd_setCam ..

section

variable {s : State} {n : Nat} {r : CalJob}

/-- A paper level changes neither the port's run nor a command. -/
theorem State.setPaper_run (s : State) (n row x : Nat) (v : Int) : ((s.setPaper n row x v).cam n).run = (s.cam n).run := by
  rw [State.setPaper]
  dsimp only
  split
  · rfl
  · split
    · rw [State.cam_of_eye (State.kalEvent_eye ..), State.cam_setCam]
    · rw [State.cam_setCam]

theorem State.setPaper_cmd (s : State) (n row x : Nat) (v : Int) : (s.setPaper n row x v).cmd = s.cmd := by
  rw [State.setPaper]
  dsimp only
  split
  · rfl
  · split
    · simp only [State.kalEvent, State.raiseIf_cmd, State.setFld_cmd]
      rfl
    · rfl

/-- The paper levels that a run seeds (R209): the samples that the port's dark or gain corrections call bad keep theirs. -/
def State.seedPaper (s : State) (n : Nat) (r : CalJob) (l : List (Nat × Nat)) : State :=
  l.foldl (fun t q =>
    if (s.cam n).flat.darkDef.contains (sampleKey q.1 q.2) || (s.cam n).flat.gainDef.contains (sampleKey q.1 q.2) then t
    else t.setPaper n q.1 q.2 (paperSeed (r.values q.1 q.2))) s

theorem State.seedPaper_run (s : State) (n : Nat) (r : CalJob) (l : List (Nat × Nat)) :
    ((s.seedPaper n r l).cam n).run = (s.cam n).run :=
  State.foldl_keeps (fun t => (t.cam n).run) (fun t q => by
    split
    · rfl
    · exact State.setPaper_run ..) l s

theorem State.seedPaper_cmd (s : State) (n : Nat) (r : CalJob) (l : List (Nat × Nat)) : (s.seedPaper n r l).cmd = s.cmd :=
  State.foldl_keeps State.cmd (fun t q => by
    split
    · rfl
    · exact State.setPaper_cmd ..) l s

/-- The gains staged from paper levels that the store now holds. -/
def State.paperStored (s : State) (n : Nat) : State :=
  (s.stageGains n).setCam n { (s.stageGains n).cam n with paperDirty := false }

theorem State.paperStored_cmd (s : State) (n : Nat) : (s.paperStored n).cmd = s.cmd :=
  (State.cmd_setCam ..).trans (State.cmd_setCam ..)

theorem State.paperStored_cam (s : State) (n : Nat) : ((s.paperStored n).cam n).run = (s.cam n).run ∧
    ((s.paperStored n).cam n).gainNext = true ∧ ((s.paperStored n).cam n).paperDirty = false := by
  have hgains : (s.stageGains n).cam n = { s.cam n with
      flatNext := some (s.gainSet n ((s.cam n).flatNext.getD (s.cam n).flat)), gainNext := true, since := 0, moved := [] } :=
    State.cam_setCam ..
  have hstored : (s.paperStored n).cam n = { (s.stageGains n).cam n with paperDirty := false } := State.cam_setCam ..
  rw [hstored, hgains]
  exact ⟨rfl, rfl, rfl⟩

theorem execPaperCalDone_full (h : s.calFull n 0x21 = some r) : execPaperCalDone n s = .next
    ((((((s.runOver n).seedPaper n r ((s.runOver n).samplesOf n)).paperStored n).calWrite 0x21 n
      ((((s.runOver n).seedPaper n r ((s.runOver n).samplesOf n)).paperStored n).cam n).paperContent true).finishSlot
        r.sess r.tag scDone)) := by
  rw [execPaperCalDone, h]
  rfl

/-- The levels of a dark run. -/
def State.darkLevels (s : State) (n : Nat) (r : CalJob) : List (Nat × Nat) :=
  (s.samplesOf n).map fun q => (sampleKey q.1 q.2, (((r.values q.1 q.2).sum + 512) / 1024).toNat)

/-- The samples whose level lies over the limit. -/
def State.darkBad (s : State) (n : Nat) (r : CalJob) : List Nat :=
  ((s.darkLevels n r).filter fun e => decide (kalWord (s.cam n).params 11 11 0 < e.2)).map Prod.fst

/-- The corrections with the levels of a dark run. -/
def State.darkFlat (s : State) (n : Nat) (r : CalJob) : FlatSet :=
  { (s.cam n).flatNext.getD (s.cam n).flat with
    dark := (s.darkLevels n r).filter fun e => e.2 != 0, darkDef := s.darkBad n r }

theorem execDarkCalDone_full (h : s.calFull n 0x20 = some r) : execDarkCalDone n s = .next
    (if (s.darkLevels n r).length < 16 * (s.darkBad n r).length then
      (s.runOver n).finishSlot r.sess r.tag scConfigRejected (checkResult 1 1 0x19 0xFFFFFFFF)
    else (((s.runOver n).setCam n { s.cam n with run := none, flatNext := some (s.darkFlat n r) }).calWrite 0x20 n
      (s.darkFlat n r).darkContent true).finishSlot r.sess r.tag scDone) := by
  have hcam : (s.setCam n { s.cam n with run := none }).cam n = { s.cam n with run := none } := State.cam_setCam ..
  rw [execDarkCalDone, h]
  dsimp only
  rw [hcam]
  rfl

end

end Sys2Proof.Machine

/-! The statement. -/
namespace Sys2Proof.Machine

theorem Reg.capPend_ne_platState (n : Nat) : Reg.CAP_STATUS n ≠ Reg.PLAT_STATE := by
  show 0x180014 + 0x20 * n ≠ 0x000004
  omega

/-- Settles O45: sensor transfers by what begins and what ends them, corrections by the staged set and by the levels that a
run gives. -/
theorem sensorCommandsComplete : Obligations.SensorCommandsComplete := by
  refine ⟨?set, ?setOff, ?sent, ?held, ?xfer, ?endPlain, ?endSettings, ?pdat, ?apply, ?gains, ?dark, ?darkRejected, ?paper⟩
  case set =>
    intro s rq n ident expo gain h hn hon
    refine ⟨_, execCameraSet_on h hn hon, ?_, ?_, ?_, ?_⟩
    · rw [State.lift_unanswered, State.unanswered_of_cmd (State.setFlag_cmd ..)]
      exact State.transferBegun_unanswered _ _ _ _ _ (State.ready_open h)
    · rw [State.cam_of_eye (State.lift_eye ..), State.cam_of_eye (State.setFlag_eye ..), State.transferBegun_cam]
      rfl
    · rw [State.lift_executing, State.setFlag_cmd, State.transferBegun_executing]
      rfl
    · rw [State.flag_of_fld (State.fld_of_reg (State.lift_reg (Reg.capPend_ne_platState n))), State.flag,
        State.fld_setFlag (Fld.fits_of_decide rfl)]
      cases s.guarded n <;> rfl
  case setOff =>
    intro s rq n ident expo gain h hn hoff
    exact ⟨_, execCameraSet_off h hn hoff, State.finish_lift_answered (State.ready_open h) ..,
      State.rest_eye (State.finish_lift_rest ..)⟩
  case sent =>
    intro s n x hx hs hp hg
    refine ⟨(s.setCam n { s.cam n with xfer := some { x with started := true } }).emit (.sensorBus n x.bytes), ?_, ?_,
      rfl, rfl⟩
    · show execCameraSetTransfer n s = _
      rw [execCameraSetTransfer, hx]
      dsimp only
      rw [hs, hp, hg]
      rfl
    · rw [State.cam_of_eye (State.emit_eye ..), State.cam_setCam]
  case held =>
    intro s n x hx hs hp hg
    refine ⟨s.setFld (Reg.CAP_STATUS_PEND n) 1, ?_, State.setFld_eye .., rfl,
      State.fld_setFld_oneBit (Fld.fits_of_decide rfl) rfl (by decide), fun a ha => State.reg_setFld_other ha⟩
    show execCameraSetTransfer n s = _
    rw [execCameraSetTransfer, hx]
    dsimp only
    rw [hs, hp, hg]
    rfl
  case xfer =>
    intro s rq n b h hn hon hb hb'
    refine ⟨_, execSensorXfer_on h hn hon hb hb', ?_, ?_, ?_, ?_⟩
    · rw [State.lift_unanswered, State.unanswered_of_cmd (State.emit_cmd ..)]
      exact State.transferBegun_unanswered _ _ _ _ _ (State.ready_open h)
    · rw [State.cam_of_eye (State.lift_eye ..), State.cam_of_eye (State.emit_eye ..), State.transferBegun_cam]
    · rw [State.lift_executing, State.emit_cmd, State.transferBegun_executing]
      rfl
    · rw [State.lift_outbox]
      exact List.mem_append_right _ List.mem_cons_self
  case endPlain =>
    intro s n x b hx hs hp hb ho
    refine ⟨_, execSensorTransferEnd_plain hx hs hp hb, ?_, ?_⟩
    · rw [State.vacate_cam, State.finishSlot_cam, State.cam_setCam]
    · rw [State.vacate_slotDone]
      exact State.finishSlot_done_of_cmd (State.cmd_setCam ..) ho ..
  case endSettings =>
    intro s n x f b hn hx hs hp hc ho hm hsh hlat hopen
    have hlt : s.fld (Reg.CAP_CTRL_LATENCY n) < 2 ^ 2 := State.fld_lt ..
    have hmod : f.num + s.fld (Reg.CAP_CTRL_LATENCY n) < idxMod := by
      rw [idxMod] at hm ⊢
      omega
    refine ⟨_, execSensorTransferEnd_settings hx hs hp hc ho hsh rfl (Nat.pos_of_ne_zero hlat) hmod, ?_, ?_, ?_⟩
    · rw [State.vacate_cam, State.finishSlot_cam, State.cam_setFld, State.cam_setCam]
    · rw [State.vacate_cam, State.finishSlot_cam, State.cam_setFld, State.cam_setCam]
    · rw [State.vacate_slotDone]
      exact State.finishSlot_done_of_cmd ((State.setFld_cmd ..).trans (State.cmd_setCam ..)) hopen ..
  case pdat =>
    intro s p v hw ha hp hpend
    refine ⟨s.kalPdat p v, ?_, ?_, ?_, fun a ha => State.reg_setFld_other ha⟩
    · show execKalPdatWrite p v s = _
      rw [execKalPdatWrite, if_pos (by rw [hw, hpend, decide_eq_true hp]; rfl), State.orLater_awake ha]
    · rw [State.kalPdat, State.bumpWrap, State.cam_setFld, State.cam_setCam]
    · exact State.fld_setFld (Fld.fits_of_decide rfl) (Nat.mod_lt _ (by show 0 < 16; decide))
  case apply =>
    intro s p hw ha hp hk
    refine ⟨_, ?_, State.cam_setCam .., rfl⟩
    show execKalApply p s = _
    rw [execKalApply]
    dsimp only
    rw [if_pos (by rw [hw, hk, decide_eq_true hp]; rfl), State.orLater_awake ha]
  case gains =>
    intro s n hn hon hfreeze hevery
    refine ⟨s.stageGains n, ?_, State.cam_setCam .., rfl⟩
    show execGainSetCompute n s = _
    rw [execGainSetCompute]
    dsimp only
    rw [if_pos (by rw [hon, hfreeze, decide_eq_true hn, decide_eq_true hevery]; rfl)]
  case dark =>
    rintro s n r levels bad h rfl rfl hfew ho
    refine ⟨_, (execDarkCalDone_full h).trans (congrArg _ (if_neg (Nat.not_lt.mpr hfew))), ?_, ?_, ?_⟩
    · exact State.finishSlot_done_of_cmd
        ((State.calWrite_cmd ..).trans ((State.cmd_setCam ..).trans (State.runOver_cmd ..))) ho ..
    · rw [State.finishSlot_cam, State.cam_of_eye (State.calWrite_eye ..), State.cam_setCam]
    · rw [State.finishSlot_cam, State.cam_of_eye (State.calWrite_eye ..), State.cam_setCam]
      rfl
  case darkRejected =>
    rintro s n r levels bad h rfl rfl hmany ho
    refine ⟨_, (execDarkCalDone_full h).trans (congrArg _ (if_pos hmany)),
      State.finishSlot_done_of_cmd (State.runOver_cmd ..) ho .., ?_⟩
    rw [State.finishSlot_cam, State.runOver, State.cam_setCam]
  case paper =>
    intro s n r h ho
    have hcam : ((s.runOver n).cam n).run = none := congrArg Cam.run (State.cam_setCam ..)
    obtain ⟨hrun, hnext, hclean⟩ := ((s.runOver n).seedPaper n r ((s.runOver n).samplesOf n)).paperStored_cam n
    refine ⟨_, execPaperCalDone_full h, ?_, ?_, ?_, ?_⟩
    · exact State.finishSlot_done_of_cmd ((State.calWrite_cmd ..).trans
        ((State.paperStored_cmd ..).trans ((State.seedPaper_cmd ..).trans (State.runOver_cmd ..)))) ho ..
    · rw [State.finishSlot_cam, State.cam_of_eye (State.calWrite_eye ..), hrun, State.seedPaper_run, hcam]
    · rw [State.finishSlot_cam, State.cam_of_eye (State.calWrite_eye ..), hnext]
    · rw [State.finishSlot_cam, State.cam_of_eye (State.calWrite_eye ..), hclean]

end Sys2Proof.Machine

/-! SUPPORT. The resamplers (R216 to R221): a parameter set, a coefficient table, and the next grid line. -/
namespace Sys2Proof.Machine

/-! Parameter sets (R216). -/

section

variable {s : State} {n : Nat}

theorem State.rsmpApply_now (h : colsOf (s.cam n).rs = 0) (h' : colsOf (s.cam n).rsStaged = 0) :
    s.rsmpApply n = s.setCam n { s.cam n with rs := (s.cam n).rsStaged, rsPend := false } := if_pos ⟨h, h'⟩

theorem State.rsmpApply_waits (h : colsOf (s.cam n).rs ≠ 0 ∨ colsOf (s.cam n).rsStaged ≠ 0) :
    s.rsmpApply n = (s.setCam n { s.cam n with rsPend := true }).showTabPend :=
  if_neg fun e => h.elim (fun k => k e.1) fun k => k e.2

/-- A set within its ranges is applied. -/
theorem execRsmpApply_applies {u : Nat} (hw : s.writable = true) (ha : s.awake = true) (hu : u < 8)
    (hk : rsmpSetOk (s.cam (s.rsmpPort u)).rsStaged = true) :
    execRsmpApply u s = .next (s.rsmpApply (s.rsmpPort u)) := by
  rw [execRsmpApply]
  dsimp only
  rw [if_pos (by rw [hw, hk, decide_eq_true hu]; rfl), State.orLater_awake ha]

theorem State.showTabPend_eye (s : State) : s.showTabPend.eye = s.eye := State.setFlag_eye ..

end

/-! Coefficient tables (R220, R221). -/

/-- A committed table waits for its swap. -/
def State.coefWaits (s : State) (r : Nat) (tb : List Byte) : State :=
  (s.setRsmp r { s.rsmp r with next := readCoef tb }).setFld (Reg.RSMP_STATUS_COEF_PEND r) 1

section

variable {s : State} {rq : Rq} {c : Chunk} {tb : List Byte}

theorem State.coefWaits_rsmp (s : State) (r : Nat) (tb : List Byte) :
    (s.coefWaits r tb).rsmp r = { s.rsmp r with next := readCoef tb } := by
  have heye : (s.coefWaits r tb).eye = (s.setRsmp r { s.rsmp r with next := readCoef tb }).eye := State.setFld_eye ..
  rw [State.rsmp, heye]
  exact tabGet_put_self ..

theorem State.rsmp_of_eye {s t : State} (h : t.eye = s.eye) (r : Nat) : t.rsmp r = s.rsmp r := by
  rw [State.rsmp, h, State.rsmp]

theorem State.coefWaits_cmd (s : State) (r : Nat) (tb : List Byte) : (s.coefWaits r tb).cmd = s.cmd := State.setFld_cmd ..

theorem State.coefWaits_reg {r a : Nat} (h : a ≠ Reg.RSMP_STATUS r) : (s.coefWaits r tb).reg a = s.reg a :=
  State.reg_setFld_other h

/-- The load's opening takes back a table that still waited. -/
def State.coefOpened (s : State) (rq : Rq) (r : Nat) : State := (s.take rq).setFld (Reg.RSMP_STATUS_COEF_PEND r) 0

theorem State.coefCommitting_eye : (s.committing (s.coefOpened rq c.inst) rq 0x0205 c).eye = s.eye := by
  rw [State.committing]
  split
  · exact State.setFld_eye (s.take rq) (Reg.RSMP_STATUS_COEF_PEND c.inst) 0
  · rfl

theorem State.coefCommitting_reg {a : Nat} (h : a ≠ Reg.RSMP_STATUS c.inst) :
    (s.committing (s.coefOpened rq c.inst) rq 0x0205 c).reg a = s.reg a := by
  rw [State.committing, State.setStaged_reg]
  split
  · exact State.reg_setFld_other (s := s.take rq) h
  · rfl

theorem State.coefCommitting_sessions :
    (s.committing (s.coefOpened rq c.inst) rq 0x0205 c).cmd.sessions = s.cmd.sessions := by
  rw [State.committing, State.setStaged_sessions]
  split
  · rw [State.coefOpened, State.setFld_cmd, State.take_sessions]
  · rfl

theorem execResampleCoefLoad_whole (h : s.ready rq 0x0205 = true) (hi : c.inst < 8)
    (hsw : s.flag (Reg.RSMP_STATUS_SWAP_PEND c.inst) = false)
    (hj : judgeChunk false (s.staged 0x0205 c.inst) c = .whole tb) (hok : coefBad tb = none)
    (hauto : s.flag (Reg.RSMP_CTRL_AUTO_SWAP c.inst) = false) : execResampleCoefLoad rq c s = .next
      ((((s.committing (s.coefOpened rq c.inst) rq 0x0205 c).coefWaits c.inst tb).finish rq 0x0205 scDone
        (tableReply tb)).lift rq.sess rq.tag) := by
  have hbusy : ¬(c.offset = 0 ∧ c.inst < 8 ∧ (s.take rq).flag (Reg.RSMP_STATUS_SWAP_PEND c.inst) = true) := by
    show ¬(c.offset = 0 ∧ c.inst < 8 ∧ s.flag (Reg.RSMP_STATUS_SWAP_PEND c.inst) = true)
    rw [hsw]
    exact fun e => Bool.false_ne_true e.2.2
  have hctrl : Reg.RSMP_CTRL c.inst ≠ Reg.RSMP_STATUS c.inst := by rw [Reg.RSMP_CTRL, Reg.RSMP_STATUS]; omega
  have hauto' : ((s.committing (s.coefOpened rq c.inst) rq 0x0205 c).coefWaits c.inst tb).flag
      (Reg.RSMP_CTRL_AUTO_SWAP c.inst) = false :=
    (State.flag_of_fld (State.fld_of_reg ((State.coefWaits_reg hctrl).trans (State.coefCommitting_reg hctrl)))).trans hauto
  refine congrArg Host.Outcome.next
    (State.run_loadTable_whole h hi hj (if_neg hbusy) (fun _ => rfl) (State.setFld_cmd ..) rfl ?_)
  rw [hok]
  dsimp only
  exact congrArg (State.finish · rq 0x0205 scDone (tableReply tb))
    (if_neg (by rw [← State.coefWaits]; exact Bool.eq_false_iff.mp hauto'))

end

/-! The next grid line of a port (R217). -/

section

variable {s : State} {n : Nat} {m t0 : Int}

theorem State.takeRsmp_none (h : (s.cam n).rsPend = false) : s.takeRsmp n = s := if_pos (by rw [h]; rfl)

theorem State.stripeEdge_none {r column : Nat} (h : s.flag (Reg.RSMP_STATUS_SWAP_PEND r) = false) :
    s.stripeEdge r m column = s := if_pos (by rw [h]; rfl)

/-- The port asks for the line after line `m`. -/
def Cam.lineAsked (x : Cam) (m : Int) : Cam := { x with nextM := some (m + 1) }

/-- The grid line leaves the port; of the input lines those stay that its next windows can reach. -/
def Cam.lineMade (x : Cam) (k : Int) (l : GridLine) : Cam :=
  ({ x with grid := l :: x.grid, input := x.input.filter fun e => decide (k - 16 ≤ e.1) } : Cam).noteGrid l

theorem State.gridLine_asked (k : Int) (ph : Nat) :
    (s.setCam n ((s.cam n).lineAsked m)).gridLine n m k ph = s.gridLine n m k ph := by
  rw [State.gridLine, State.cam_setCam]
  rfl

/-- The line left; a hole in it is counted. -/
def State.lineMade (s : State) (n : Nat) (m k : Int) (l : GridLine) : State :=
  let t := (s.setCam n ((s.cam n).lineAsked m)).setCam n (((s.cam n).lineAsked m).lineMade k l)
  if l.hole then (t.bump (Reg.RSMP_STATUS_LINES_INC (s.pipeOf n))).bump Reg.JIG_CNT_INC_INCOMPLETE else t

theorem State.lineMade_cam (k : Int) (l : GridLine) :
    (s.lineMade n m k l).cam n = ((s.cam n).lineAsked m).lineMade k l := by
  rw [State.lineMade]
  split
  · rw [State.cam_of_eye ((State.bump_eye ..).trans (State.bump_eye ..)), State.cam_setCam]
  · exact State.cam_setCam ..

theorem State.mayResample (hn : n < 24) (hg : s.onGrid n = true) (he : s.flag Reg.JIG_CTRL_ENABLE = true) :
    ¬(!(decide (n < 24) && s.onGrid n && s.flag Reg.JIG_CTRL_ENABLE)) = true := by
  rw [decide_eq_true hn, hg, he]
  decide

/-- The line whose window has arrived leaves the port, under the set in force and without a swap (R217 to R219). -/
theorem execResampleLine_makes (hn : n < 24) (hg : s.onGrid n = true) (he : s.flag Reg.JIG_CTRL_ENABLE = true)
    (ht : (s.cam n).base = some t0) (hd : s.spacing n ≠ 0) (hm : (s.cam n).nextM = some m)
    (hp : (s.cam n).rsPend = false) (hc : colsOf (s.cam n).rs ≠ 0)
    (hsw : s.flag (Reg.RSMP_STATUS_SWAP_PEND (s.pipeOf n)) = false) {y : Int}
    (hy : y = yOf (s.gpos m) t0 (exposureTicks (s.cam n).speed (expcOf (s.cam n).rs)) (s.spacing n) (dlyOf (s.cam n).rs))
    (h0 : 0 ≤ y / 2 ^ 24) (hseen : y / 2 ^ 24 + 16 ≤ (s.cam n).seen) : execResampleLine n s = .next
      (s.lineMade n m (y / 2 ^ 24) (s.gridLine n m (y / 2 ^ 24) (y / 2 ^ 18 % 64).toNat)) := by
  have hset : (s.cam n).regSet = (s.cam n).rs := if_neg (by rw [hp]; decide)
  rw [execResampleLine, if_neg (State.mayResample hn hg he)]
  dsimp only
  rw [ht]
  dsimp only
  rw [if_neg hd, hset, hm, Option.getD_some, ← hy, if_neg (Int.not_lt.mpr hseen), State.takeRsmp_none hp, if_neg hc,
    State.stripeEdge_none hsw, if_neg (Int.not_lt.mpr h0), ← Cam.lineAsked, State.gridLine_asked, State.cam_setCam]
  rfl

/-- No line leaves before its window has arrived (R217). -/
theorem execResampleLine_waits {p : List Nat} (hn : n < 24) (hg : s.onGrid n = true)
    (he : s.flag Reg.JIG_CTRL_ENABLE = true) (ht : (s.cam n).base = some t0) (hd : s.spacing n ≠ 0)
    (hm : (s.cam n).nextM = some m) (hp : p = (s.cam n).regSet)
    (hseen : (s.cam n).seen <
      yOf (s.gpos m) t0 (exposureTicks (s.cam n).speed (expcOf p)) (s.spacing n) (dlyOf p) / 2 ^ 24 + 16) :
    execResampleLine n s = .next s := by
  rw [execResampleLine, if_neg (State.mayResample hn hg he)]
  dsimp only
  rw [ht]
  dsimp only
  rw [if_neg hd, ← hp, hm, Option.getD_some, if_pos hseen]

end

end Sys2Proof.Machine

/-! SUPPORT. Reads of a capture buffer (R203, R317, R321): of a port they change the marks of its lines alone, and two states
that differ in nothing that such a read meets read the same. -/
namespace Sys2Proof.Machine

/-! One word read. -/

/-- What the reads of a capture buffer turn on beside the settings: the stored words' errors, the number of the next free
outcome, and the ports. -/
def State.wordsSeen (s : State) : Nat × List (Nat × List (Nat × Nat)) × List (Nat × Bool) × CaptureUnit :=
  (s.fresh, s.dram.errs, s.dram.poison, s.eye)

theorem State.setFld_wordsSeen (s : State) (f : Fld) (v : Nat) : (s.setFld f v).wordsSeen = s.wordsSeen := by
  rw [State.wordsSeen, State.setFld_fresh, State.setFld_dram, State.setFld_eye, State.wordsSeen]

theorem State.log1_wordsSeen (s : State) (code block inst cond : Nat) (detail : List Nat) :
    (s.log1 code block inst cond detail).wordsSeen = s.wordsSeen := by
  rw [State.wordsSeen, State.log1_fresh, State.log1_dram, State.log1_eye, State.wordsSeen]

theorem State.raiseIf_wordsSeen (s : State) (en : Bool) (prod : Nat) (tag : Option Nat) :
    (s.raiseIf en prod tag).wordsSeen = s.wordsSeen := by
  rw [State.wordsSeen, State.raiseIf_fresh, State.raiseIf_dram, State.raiseIf_eye, State.wordsSeen]

theorem State.addRecord_wordsSeen (s : State) (r : Nat) (make : Nat → List Byte) :
    (s.addRecord r make).wordsSeen = s.wordsSeen := by
  rw [State.addRecord]
  split
  · rfl
  · rfl

theorem State.wordsSeen_ite {p : Prop} [Decidable p] {a b : State} :
    (if p then a else b).wordsSeen = if p then a.wordsSeen else b.wordsSeen := apply_ite State.wordsSeen ..

theorem State.latchUe_wordsSeen (s : State) (a action region c input : Nat) (scrub : Bool) :
    (s.latchUe a action region c input scrub).wordsSeen = s.wordsSeen := by
  rw [State.latchUe]
  split
  · rfl
  · simp only [State.setFlag, State.setFld_wordsSeen]

theorem State.reportCorrected_wordsSeen (s : State) (c w : Nat) (scrub : Bool) :
    (s.reportCorrected c w scrub).wordsSeen = s.wordsSeen := by
  have hrows (u : State) (l : List (Nat × List (Nat × Nat))) :
      State.wordsSeen { u with dram := { u.dram with rows := l } } = u.wordsSeen := rfl
  simp only [State.reportCorrected.eq_def, State.bump.eq_def, ↓State.wordsSeen_ite, ↓State.addRecord_wordsSeen,
    ↓State.log1_wordsSeen, ↓State.setFld_wordsSeen, ↓hrows, ite_self]

/-- An uncorrectable word is reported, made clean or poisoned, and its line marked. -/
theorem State.reportLost_marks (s : State) (n c input w : Nat) (scrub : Bool) : ∃ (u : State) (bad : Bool),
    s.reportLost n c input w scrub = (u.setWord w bad).captureLost (16 * w) ∧ u.wordsSeen = s.wordsSeen := by
  refine ⟨_, _, rfl, ?_⟩
  simp only [State.bump.eq_def, ↓State.wordsSeen_ite, ↓State.latchUe_wordsSeen, ↓State.raiseIf_wordsSeen,
    ↓State.log1_wordsSeen, ↓State.addRecord_wordsSeen, ↓State.setFld_wordsSeen, ite_self]

/-! Settings outlive a read. -/

theorem State.reg_of_fld {s t : State} {a : Nat} (h : t.fld ⟨a, 31, 0⟩ = s.fld ⟨a, 31, 0⟩) : t.reg a = s.reg a := by
  have hwhole (u : State) : u.fld ⟨a, 31, 0⟩ = (u.reg a).toNat := wordBits_whole _
  exact BitVec.eq_of_toNat_eq (by rw [← hwhole, ← hwhole, h])

theorem State.readWord_setAs (s : State) (c input w : Nat) (scrub : Bool) : (s.readWord c input w scrub).SetAs s :=
  ⟨fun _ ha => State.reg_of_fld (State.readWord_fld
    (Fld.offDram_of_low (Fld.fits_of_decide rfl) (by have := settingReg_iff.mp ha; dsimp only; omega)) ..)⟩

theorem State.readMem_setAs (s : State) (input a k : Nat) : (s.readMem input a k).SetAs s :=
  List.foldlRecOn (motive := fun t => State.SetAs t s) _ _ ⟨fun _ _ => rfl⟩ fun _ ih _ _ =>
    (State.readWord_setAs ..).trans ih

/-! The mark of a lost line. -/

section

variable {s t : State}

theorem State.SetAs.bufBytes (h : t.SetAs s) {n : Nat} (hn : n < 24) : t.bufBytes n = s.bufBytes n := by
  have hon : t.capOn n = s.capOn n := State.flag_of_fld (h.capFld hn (o := 0) rfl (by decide))
  rw [State.bufBytes, hon, h.capRoom hn, State.lineBytes, h.capW hn, State.bufBytes, State.lineBytes]

theorem State.capture_starts (s : State) : (s.region 2).1 = 0x30000000 := (rfl)

theorem State.SetAs.bufBase (h : t.SetAs s) {n : Nat} (hn : n < 24) : t.bufBase n = s.bufBase n := by
  have hsum : (List.range n).map t.bufBytes = (List.range n).map s.bufBytes :=
    List.map_congr_left fun i hi => h.bufBytes ((List.mem_range.mp hi).trans hn)
  rw [State.bufBase, hsum, State.capture_starts, State.bufBase, State.capture_starts]

/-- The lines of a port with those at a place marked as lost. -/
def Cam.markLost (x : Cam) (k : Nat) : Cam :=
  { x with buf := x.buf.map fun l => if l.place = k then { l with lost := true } else l }

/-- The port whose buffer holds an address. -/
def State.bufAt (s : State) (a : Nat) : Option Nat :=
  (List.range 24).find? fun n => decide (s.bufBase n ≤ a) && decide (a < s.bufBase n + s.bufBytes n)

theorem State.bufAt_lt {a n : Nat} (h : s.bufAt a = some n) : n < 24 := List.mem_range.mp (List.mem_of_find?_eq_some h)

theorem State.SetAs.bufAt (h : t.SetAs s) (a : Nat) : t.bufAt a = s.bufAt a := by
  rw [State.bufAt, State.bufAt]
  refine List.find?_congr fun n hn => ?_
  rw [h.bufBase (List.mem_range.mp hn), h.bufBytes (List.mem_range.mp hn)]

theorem State.captureLost_outside {a : Nat} (h : s.bufAt a = none) : s.captureLost a = s := by
  rw [State.bufAt] at h
  rw [State.captureLost, h]

theorem State.captureLost_inside {a n : Nat} (h : s.bufAt a = some n) :
    s.captureLost a = s.setCam n ((s.cam n).markLost ((a - s.bufBase n) / s.lineBytes n)) := by
  rw [State.bufAt] at h
  rw [State.captureLost, h]
  rfl

/-- The mark falls by the settings and the ports alone. -/
theorem State.captureLost_cams (h : t.SetAs s) (hc : t.eye.cams = s.eye.cams) (a : Nat) :
    (t.captureLost a).eye.cams = (s.captureLost a).eye.cams := by
  have hat := h.bufAt a
  cases hs : s.bufAt a with
  | none => rw [State.captureLost_outside hs, State.captureLost_outside (hat.trans hs), hc]
  | some n =>
    have hn := State.bufAt_lt hs
    have hcam : t.cam n = s.cam n := by rw [State.cam, hc, State.cam]
    have hput (u : State) (x : Cam) : (u.setCam n x).eye.cams = tabPut {} u.eye.cams n x := rfl
    rw [State.captureLost_inside hs, State.captureLost_inside (hat.trans hs), h.bufBase hn, State.lineBytes, h.capW hn,
      hcam, hput, hput, hc, State.lineBytes]

end

/-! Two reads of the same words. -/

/-- Reads of these words find in both states the same. -/
structure State.ReadsAs (l : List Nat) (t s : State) : Prop where
  /-- settings -/
  sets : t.SetAs s
  /-- ports -/
  cams : t.eye.cams = s.eye.cams
  /-- free outcomes -/
  fresh : t.fresh = s.fresh
  /-- errors of the words -/
  errs : ∀ w ∈ l, t.wordErrs w = s.wordErrs w
  /-- poison of the words -/
  poison : ∀ w ∈ l, tabGet false t.dram.poison w = tabGet false s.dram.poison w

/-- What one read leaves to the reads of other words. -/
structure State.OneRead (w : Nat) (t s : State) : Prop where
  /-- free outcomes -/
  fresh : t.fresh = s.fresh + 1
  /-- errors of other words -/
  errs : ∀ v ≠ w, t.wordErrs v = s.wordErrs v
  /-- poison of other words -/
  poison : ∀ v ≠ w, tabGet false t.dram.poison v = tabGet false s.dram.poison v
  /-- ports -/
  cams : t.eye.cams = if s.decodeWord s.fresh w = .lost then (s.captureLost (16 * w)).eye.cams else s.eye.cams

section

variable {s t : State}

theorem State.captureLost_regs (s : State) (a : Nat) : (s.captureLost a).regs = s.regs := by
  rw [State.captureLost]
  split
  · rfl
  · rfl

theorem State.captureLost_fresh (s : State) (a : Nat) : (s.captureLost a).fresh = s.fresh := by
  rw [State.captureLost]
  split
  · rfl
  · rfl

theorem State.captureLost_dram (s : State) (a : Nat) : (s.captureLost a).dram = s.dram := by
  rw [State.captureLost]
  split
  · rfl
  · rfl

theorem State.setWord_errs {v w : Nat} (h : v ≠ w) (bad : Bool) : (s.setWord w bad).wordErrs v = s.wordErrs v := by
  rw [State.wordErrs, State.setWord, tabGet_put_other h, State.wordErrs]

theorem State.setWord_poison {v w : Nat} (h : v ≠ w) (bad : Bool) :
    tabGet false (s.setWord w bad).dram.poison v = tabGet false s.dram.poison v := tabGet_put_other h

theorem State.fresh_of_wordsSeen (h : t.wordsSeen = s.wordsSeen) : t.fresh = s.fresh := congrArg Prod.fst h

theorem State.wordErrs_of_wordsSeen (h : t.wordsSeen = s.wordsSeen) (w : Nat) : t.wordErrs w = s.wordErrs w :=
  congrArg (fun p : Nat × List (Nat × List (Nat × Nat)) × List (Nat × Bool) × CaptureUnit => tabGet [] p.2.1 w) h

theorem State.poison_of_wordsSeen (h : t.wordsSeen = s.wordsSeen) (w : Nat) :
    tabGet false t.dram.poison w = tabGet false s.dram.poison w := congrArg (fun p => tabGet false p.2.2.1 w) h

theorem State.eye_of_wordsSeen (h : t.wordsSeen = s.wordsSeen) : t.eye = s.eye := congrArg (fun p => p.2.2.2) h

/-- A state that has drawn a free outcome. -/
def State.drawn (s : State) : State := { s with fresh := s.fresh + 1 }

/-- A word that the code corrects, or takes for another: nothing is marked. -/
theorem State.oneRead_of_wordsSeen {w : Nat} (h : t.wordsSeen = s.drawn.wordsSeen)
    (hd : s.decodeWord s.fresh w ≠ .lost) : t.OneRead w s where
  fresh := State.fresh_of_wordsSeen h
  errs v _ := State.wordErrs_of_wordsSeen h v
  poison v _ := State.poison_of_wordsSeen h v
  cams := by rw [if_neg hd, State.eye_of_wordsSeen h]; rfl

theorem State.readWord_reads (s : State) (c input w : Nat) (scrub : Bool) : (s.readWord c input w scrub).OneRead w s := by
  have hset := s.readWord_setAs c input w scrub
  have hback (u : State) (e : Option Nat) : (u.queueBack w e).wordsSeen = u.wordsSeen := rfl
  have hdecode : s.drawn.decodeWord s.fresh w = s.decodeWord s.fresh w := rfl
  rw [State.readWord] at hset ⊢
  rw [← State.drawn, hdecode] at hset ⊢
  cases hd : s.decodeWord s.fresh w with
  | clean => exact State.oneRead_of_wordsSeen rfl (by rw [hd]; decide)
  | corrected =>
    exact State.oneRead_of_wordsSeen ((hback ..).trans (State.reportCorrected_wordsSeen ..)) (by rw [hd]; decide)
  | miscorrected =>
    exact State.oneRead_of_wordsSeen ((hback ..).trans (State.reportCorrected_wordsSeen ..)) (by rw [hd]; decide)
  | lost =>
    obtain ⟨u, bad, hlost, hseen⟩ := s.drawn.reportLost_marks s.fresh c input w scrub
    rw [hd] at hset
    dsimp only at hset ⊢
    rw [hlost] at hset ⊢
    have hmark : (u.setWord w bad).SetAs s :=
      ⟨fun a ha => (State.reg_of_regs (State.captureLost_regs ..) a).symm.trans (hset.reg a ha)⟩
    refine ⟨?_, fun v hv => ?_, fun v hv => ?_, ?_⟩
    · rw [State.captureLost_fresh]
      exact State.fresh_of_wordsSeen hseen
    · rw [State.wordErrs, State.captureLost_dram, ← State.wordErrs, State.setWord_errs hv]
      exact State.wordErrs_of_wordsSeen hseen v
    · rw [State.captureLost_dram, State.setWord_poison hv]
      exact State.poison_of_wordsSeen hseen v
    · have heye : u.eye = s.drawn.eye := State.eye_of_wordsSeen hseen
      rw [if_pos hd]
      exact State.captureLost_cams hmark (congrArg CaptureUnit.cams heye) _

theorem State.ReadsAs.decodeWord {w : Nat} {l : List Nat} (h : t.ReadsAs (w :: l) s) :
    t.decodeWord t.fresh w = s.decodeWord s.fresh w := by
  rw [State.decodeWord, h.poison w List.mem_cons_self, h.errs w List.mem_cons_self, h.fresh, State.decodeWord]

/-- After a word has been read in both, the others still read the same. -/
theorem State.ReadsAs.step {w : Nat} {l : List Nat} (h : t.ReadsAs (w :: l) s) (hw : w ∉ l) (c c' i i' : Nat) (b b' : Bool) :
    (t.readWord c i w b).ReadsAs l (s.readWord c' i' w b') := by
  have ht := t.readWord_reads c i w b
  have hs := s.readWord_reads c' i' w b'
  have hne {v : Nat} (hv : v ∈ l) : v ≠ w := fun e => hw (e ▸ hv)
  refine ⟨⟨fun a ha => ?_⟩, ?_, ?_, fun v hv => ?_, fun v hv => ?_⟩
  · rw [(t.readWord_setAs c i w b).reg a ha, h.sets.reg a ha, (s.readWord_setAs c' i' w b').reg a ha]
  · rw [ht.cams, hs.cams, h.decodeWord, State.captureLost_cams h.sets h.cams, h.cams]
  · rw [ht.fresh, hs.fresh, h.fresh]
  · rw [ht.errs v (hne hv), hs.errs v (hne hv), h.errs v (List.mem_cons_of_mem _ hv)]
  · rw [ht.poison v (hne hv), hs.poison v (hne hv), h.poison v (List.mem_cons_of_mem _ hv)]

/-- The words read one after the other, as `readMem` reads them. -/
def State.readWords (s : State) (input : Nat) (l : List Nat) : State :=
  l.foldl (fun s w => s.readWord (s.chanOf (16 * w)) input w false) s

theorem State.ReadsAs.readWords {l : List Nat} (hl : l.Nodup) (i i' : Nat) (h : t.ReadsAs l s) :
    (t.readWords i l).eye.cams = (s.readWords i' l).eye.cams := by
  induction l generalizing t s with
  | nil => exact h.cams
  | cons w l ih =>
    obtain ⟨hw, hl'⟩ := List.nodup_cons.mp hl
    exact ih hl' (h.step hw ..)

/-- A list of words inserted in order, each once. -/
theorem State.badWords_nodup (s : State) (a k : Nat) : (s.badWords a k).Nodup := by
  rw [State.badWords]
  generalize List.filter _ _ = l
  induction l with
  | nil => exact List.nodup_nil
  | cons w l ih =>
    rw [List.foldr_cons]
    generalize List.foldr _ _ l = acc at ih ⊢
    split
    · exact ih
    · next hw =>
      refine List.perm_middle.nodup_iff.mpr (List.nodup_cons.mpr ⟨?_, ?_⟩)
      · rw [List.takeWhile_append_dropWhile]
        exact fun e => hw (List.contains_iff_mem.mpr e)
      · rwa [List.takeWhile_append_dropWhile]

/-- A read leaves the ports the same in two states that differ in nothing that it meets, whatever input it takes. -/
theorem State.readMem_cams (hset : t.SetAs s) (hc : t.eye.cams = s.eye.cams) (hf : t.fresh = s.fresh)
    (hd : t.dram = s.dram) (i i' a k : Nat) : (t.readMem i a k).eye.cams = (s.readMem i' a k).eye.cams := by
  have herrs (w : Nat) : t.wordErrs w = s.wordErrs w := by rw [State.wordErrs, hd, State.wordErrs]
  have hbad : t.badWords a k = s.badWords a k := by simp only [State.badWords, State.wordBad, State.wordErrs, hd]
  rw [State.readMem, hbad, State.readMem]
  exact State.ReadsAs.readWords (s.badWords_nodup a k) i i' ⟨hset, hc, hf, fun w _ => herrs w, fun w _ => by rw [hd]⟩

/-! What a read leaves of a port. -/

/-- A port, whichever of its lines are marked as lost. -/
def Cam.unmarked (x : Cam) : Cam := { x with buf := x.buf.map fun l => { l with lost := false } }

theorem Cam.markLost_unmarked (x : Cam) (k : Nat) : (x.markLost k).unmarked = x.unmarked := by
  have hline (l : CapLine) : ({ (if l.place = k then { l with lost := true } else l) with lost := false } : CapLine) =
      { l with lost := false } := by
    split
    · rfl
    · rfl
  rw [Cam.unmarked, Cam.markLost, Cam.unmarked, List.map_map]
  congr 1
  exact List.map_congr_left fun l _ => hline l

theorem State.cam_setCam_ne {m n : Nat} (h : n ≠ m) (x : Cam) : (s.setCam m x).cam n = s.cam n := tabGet_put_other h

theorem State.captureLost_unmarked (s : State) (a n : Nat) : ((s.captureLost a).cam n).unmarked = (s.cam n).unmarked := by
  cases hs : s.bufAt a with
  | none => rw [State.captureLost_outside hs]
  | some m =>
    rw [State.captureLost_inside hs]
    rcases eq_or_ne n m with rfl | hne
    · rw [State.cam_setCam, Cam.markLost_unmarked]
    · rw [State.cam_setCam_ne hne]

theorem State.cam_of_cams (h : t.eye.cams = s.eye.cams) (n : Nat) : t.cam n = s.cam n := by rw [State.cam, h, State.cam]

theorem State.readWord_unmarked (s : State) (c input w : Nat) (scrub : Bool) (n : Nat) :
    ((s.readWord c input w scrub).cam n).unmarked = (s.cam n).unmarked := by
  have hcams := (s.readWord_reads c input w scrub).cams
  split at hcams
  · rw [State.cam_of_cams hcams, State.captureLost_unmarked]
  · rw [State.cam_of_cams hcams]

theorem State.readMem_unmarked (s : State) (input a k n : Nat) :
    ((s.readMem input a k).cam n).unmarked = (s.cam n).unmarked :=
  State.foldl_keeps (fun t => (t.cam n).unmarked) (fun _ _ => State.readWord_unmarked ..) _ s

end

/-! The oldest line's part is read. -/

section

variable {s t : State} {n : Nat}

theorem State.readLine_setAs (s : State) (n c w : Nat) : (s.readLine n c w).SetAs s := by
  rw [State.readLine]
  split
  · exact ⟨fun _ _ => rfl⟩
  · exact State.readMem_setAs ..

theorem State.readLine_fld {f : Fld} (hf : f.fits) (h : f.addr < 0x290000) (s : State) (n c w : Nat) :
    (s.readLine n c w).fld f = s.fld f := by
  rw [State.readLine]
  split
  · rfl
  · exact State.readMem_fld (Fld.offDram_of_low hf h) ..

theorem State.readLine_unmarked (s : State) (n c w m : Nat) :
    ((s.readLine n c w).cam m).unmarked = (s.cam m).unmarked := by
  rw [State.readLine]
  split
  · rfl
  · exact State.readMem_unmarked ..

theorem State.readLine_rows (s : State) (n c w m : Nat) :
    ((s.readLine n c w).cam m).buf.map CapLine.rows = (s.cam m).buf.map CapLine.rows := by
  have hrows (x : Cam) : x.buf.map CapLine.rows = x.unmarked.buf.map CapLine.rows := by
    rw [Cam.unmarked, List.map_map]
    rfl
  rw [hrows, State.readLine_unmarked, ← hrows]

theorem State.readLine_cams (hn : n < 24) (hset : t.SetAs s) (hc : t.eye.cams = s.eye.cams) (hf : t.fresh = s.fresh)
    (hd : t.dram = s.dram) (c w : Nat) : (t.readLine n c w).eye.cams = (s.readLine n c w).eye.cams := by
  rw [State.readLine, State.cam_of_cams hc, State.readLine]
  split
  · exact hc
  · rw [hset.bufBase hn, State.lineBytes, hset.capW hn]
    exact State.readMem_cams hset hc hf hd ..

end

end Sys2Proof.Machine

/-! SUPPORT. STRIPE_PROCESS (R203): the port served next, its oldest line's part read, and the line done. -/
namespace Sys2Proof.Machine

/-! Settings that a line's corrections and its place on the grid turn on. -/

section

variable {s t : State} {n : Nat}

theorem State.SetAs.kalSet (h : t.SetAs s) (hn : n < 24) (hc : (t.cam n).unmarked = (s.cam n).unmarked) (l : CapLine) :
    t.kalSet n l = s.kalSet n l := by
  have hframes : (t.cam n).frames = (s.cam n).frames := (congrArg Cam.frames hc :)
  have hflat : (t.cam n).flat = (s.cam n).flat := (congrArg Cam.flat hc :)
  have hparams : (t.cam n).params = (s.cam n).params := (congrArg Cam.params hc :)
  have hcfa : t.fld (Reg.CAP_CTRL_CFA n) = s.fld (Reg.CAP_CTRL_CFA n) := h.capFld hn (o := 0) rfl (by decide)
  have hedge : t.fld (Reg.KAL_CTRL_EDGE_K (s.pipeOf n)) = s.fld (Reg.KAL_CTRL_EDGE_K (s.pipeOf n)) :=
    h.kalCtrl (s.pipeOf_lt hn) rfl
  rw [State.kalSet, hframes, hflat, hparams, h.bilinear hn, hcfa, h.pipeOf hn, hedge, State.kalSet]

theorem State.SetAs.spacing (h : t.SetAs s) (hn : n < 24) : t.spacing n = s.spacing n := by
  have hpitch : t.fld (Reg.CAP_TRIG_PITCH n) = s.fld (Reg.CAP_TRIG_PITCH n) := h.capFld hn (o := 0xc) rfl (by decide)
  rw [State.spacing, hpitch, h.halfAlong hn, State.spacing]

/-- A port, whatever it has tracked of the paper. -/
def Cam.untracked (x : Cam) : Cam := { x with paper := [], moved := [], paperDirty := false, blocks := [] }

theorem State.onGrid_of_sets (hrs : (t.cam n).rs = (s.cam n).rs) (hpend : (t.cam n).rsPend = (s.cam n).rsPend)
    (hst : (t.cam n).rsStaged = (s.cam n).rsStaged) : t.onGrid n = s.onGrid n := by
  rw [State.onGrid, State.registered, Cam.regSet, hrs, hpend, hst, State.onGrid, State.registered, Cam.regSet]

/-! Paper tracking (R208). -/

/-- What tracking does to no port and no setting. -/
structure State.Tracks (n : Nat) (t s : State) : Prop where
  /-- the port -/
  cam : (t.cam n).untracked = (s.cam n).untracked
  /-- settings -/
  sets : t.SetAs s

theorem State.Tracks.refl (n : Nat) (s : State) : s.Tracks n s := ⟨rfl, ⟨fun _ _ => rfl⟩⟩

theorem State.Tracks.trans {n : Nat} {s t u : State} (h : u.Tracks n t) (k : t.Tracks n s) : u.Tracks n s :=
  ⟨h.cam.trans k.cam, h.sets.trans k.sets⟩

theorem State.tracks_foldl {α : Type} {f : State → α → State} (h : ∀ u x, (f u x).Tracks n u) (l : List α) (s : State) :
    (l.foldl f s).Tracks n s :=
  List.foldlRecOn (motive := fun t => State.Tracks n t s) l f (.refl ..) fun _ ih x _ => (h _ x).trans ih

theorem State.tracks_setCam {x : Cam} (h : x.untracked = (s.cam n).untracked) : (s.setCam n x).Tracks n s :=
  ⟨by rw [State.cam_setCam, h], State.setCam_setAs ..⟩

theorem State.setPaper_tracks (s : State) (n row x : Nat) (v : Int) : (s.setPaper n row x v).Tracks n s := by
  rw [State.setPaper]
  dsimp only
  split
  · exact .refl ..
  · split
    · refine State.Tracks.trans ⟨?_, State.kalEvent_setAs _ _ _ (by rfl) _⟩ (State.tracks_setCam rfl)
      rw [State.cam_of_eye (State.kalEvent_eye ..)]
    · exact State.tracks_setCam rfl

theorem State.paperSample_tracks (s : State) (n alpha row x : Nat) (u : Int) :
    (s.paperSample n alpha row x u).Tracks n s := by
  rw [State.paperSample]
  dsimp only
  split
  · exact State.tracks_setCam rfl
  · exact (State.setPaper_tracks ..).trans (State.tracks_setCam rfl)

theorem State.paperColumn_tracks (s : State) (n : Nat) (k : KalSet) (us : List (List Int)) (x : Nat) :
    (s.paperColumn n k us x).Tracks n s := by
  rw [State.paperColumn]
  dsimp only
  split
  · exact .refl ..
  · refine State.tracks_foldl (fun u r => ?_) _ s
    split
    · exact .refl ..
    · exact State.paperSample_tracks ..

/-! A line done. -/

theorem State.showCapFill_tracks (s : State) (n m : Nat) : (s.showCapFill n).Tracks m s := by
  rw [State.showCapFill]
  exact ⟨by rw [State.cam_setFld], State.setFld_setAs (settingReg_capShown (o := 0x14) (by decide))⟩

/-- The port's buffer gives up its oldest line. -/
def Cam.popped (x : Cam) (rest : List CapLine) : Cam := { x with buf := rest, col := 0 }

/-- An input line that lies on the spacing joins the port's input (R217). -/
theorem State.inputLine_spaced {l : CapLine} {base : Int} (hg : s.onGrid n = true) (he : s.flag Reg.JIG_CTRL_ENABLE = true)
    (hbase : base = (s.cam n).base.getD l.trig.pos) (hd : s.spacing n ≠ 0)
    (hm : (l.trig.pos - base) % (s.spacing n : Int) = 0) : (s.inputLine n l).cam n = { s.cam n with
      base := some base, input := (s.cam n).input ++ [((l.trig.pos - base) / (s.spacing n : Int), l)],
      seen := max (s.cam n).seen ((l.trig.pos - base) / (s.spacing n : Int) + 1), speed := l.trig.speed } := by
  have hon : ¬(!(s.onGrid n && s.flag Reg.JIG_CTRL_ENABLE)) = true := by rw [hg, he]; decide
  have hspaced : ¬(s.spacing n = 0 ∨ (l.trig.pos - base) % (s.spacing n : Int) ≠ 0) := fun e => e.elim hd fun k => k hm
  rw [State.inputLine]
  dsimp only
  rw [if_neg hon, ← hbase, if_neg hspaced, State.cam_setCam]

/-- The corrected line: its samples less their dark levels, then the pixels. -/
def KalSet.line (k : KalSet) (l : CapLine) : CapLine :=
  { l with rows := [k.pixels (l.rows.zipIdx.map fun r => r.1.zipIdx.map fun v => k.u r.2 v.2 v.1)
      (l.rows.getD 0 []).length] }

theorem State.lineDone_passes {l : CapLine} {rest : List CapLine} (hb : (s.cam n).buf = l :: rest) :
    ∃ u : State, s.lineDone n = u.inputLine n ((s.kalSet n l).line l) ∧ u.Tracks n (s.setCam n ((s.cam n).popped rest)) := by
  rw [State.lineDone, hb]
  exact ⟨_, rfl, (State.tracks_foldl (fun _ _ => State.paperColumn_tracks ..) _ _).trans (State.showCapFill_tracks ..)⟩

/-- The oldest line of a registered port, on the spacing, is an input line once it is done. -/
theorem State.lineDone_input {l : CapLine} {rest : List CapLine} {base : Int} (hn : n < 24)
    (hb : (s.cam n).buf = l :: rest) (hg : s.onGrid n = true) (he : s.flag Reg.JIG_CTRL_ENABLE = true)
    (hbase : base = (s.cam n).base.getD l.trig.pos) (hd : s.spacing n ≠ 0)
    (hm : (l.trig.pos - base) % (s.spacing n : Int) = 0) :
    ((s.lineDone n).cam n).buf = rest ∧ ((s.lineDone n).cam n).col = 0 ∧ ((s.lineDone n).cam n).base = some base ∧
      ((s.lineDone n).cam n).input =
        (s.cam n).input ++ [((l.trig.pos - base) / (s.spacing n : Int), (s.kalSet n l).line l)] := by
  obtain ⟨u, hline, htrack⟩ := State.lineDone_passes hb
  have hcam : (u.cam n).untracked = ((s.cam n).popped rest).untracked := by
    rw [htrack.cam, State.cam_setCam]
  have hset : u.SetAs s := htrack.sets.trans (State.setCam_setAs ..)
  have hinput : (u.cam n).input = (s.cam n).input := (congrArg Cam.input hcam :)
  have hbase' : (u.cam n).base = (s.cam n).base := (congrArg Cam.base hcam :)
  have hgrid : u.onGrid n = s.onGrid n :=
    State.onGrid_of_sets (congrArg Cam.rs hcam :) (congrArg Cam.rsPend hcam :) (congrArg Cam.rsStaged hcam :)
  rw [hline, State.inputLine_spaced (base := base) (hgrid.trans hg) (hset.jigEnable.trans he) (by rw [hbase']; exact hbase)
    (by rw [hset.spacing hn]; exact hd) (by rw [hset.spacing hn]; exact hm), hset.spacing hn]
  exact ⟨(congrArg Cam.buf hcam :), (congrArg Cam.col hcam :), rfl, by rw [hinput]; rfl⟩

end

end Sys2Proof.Machine

/-! The stripe of STRIPE_PROCESS (R203). -/
namespace Sys2Proof.Machine

section

variable {s t : State} {p n : Nat}

/-- A pipeline replaced. -/
def State.setPipe (s : State) (p : Nat) (x : Pipe) : State :=
  { s with eye := { s.eye with pipes := tabPut {} s.eye.pipes p x } }

/-- A switch to a port other than the last served is counted. -/
def State.switchedTo (s : State) (p n : Nat) : State :=
  if (tabGet ({} : Pipe) s.eye.pipes p).last = n % 6 + 1 then s else s.bump (Reg.KAL_STATUS_SWITCHES p)

/-- What the pipeline does before it reads: the switch is counted, the port is the last served, and NOW shows it. -/
def State.serving (s : State) (p n : Nat) : State :=
  ((s.switchedTo p n).setPipe p { tabGet ({} : Pipe) (s.switchedTo p n).eye.pipes p with last := n % 6 + 1 }).setFld
    (Reg.KAL_STATUS_NOW p) (n % 6)

theorem State.setPipe_cams (s : State) (p : Nat) (x : Pipe) : (s.setPipe p x).eye.cams = s.eye.cams := (rfl)

theorem State.setPipe_fresh (s : State) (p : Nat) (x : Pipe) : (s.setPipe p x).fresh = s.fresh := (rfl)

theorem State.setPipe_dram (s : State) (p : Nat) (x : Pipe) : (s.setPipe p x).dram = s.dram := (rfl)

theorem State.setPipe_setAs (s : State) (p : Nat) (x : Pipe) : (s.setPipe p x).SetAs s := State.setAs_of_regs rfl

theorem settingReg_kalStatus (p : Nat) : settingReg (Reg.KAL_STATUS p) = false :=
  settingReg_kalShown (o := 0xc) (by decide)

theorem State.kalStatus_setAs (s : State) {f : Fld} (hf : f.addr = Reg.KAL_STATUS p) (v : Nat) : (s.setFld f v).SetAs s :=
  State.setFld_setAs (by rw [hf]; exact settingReg_kalStatus p)

theorem State.serving_setAs (s : State) (p n : Nat) : (s.serving p n).SetAs s := by
  refine (State.kalStatus_setAs _ rfl _).trans ((State.setPipe_setAs ..).trans ?_)
  rw [State.switchedTo]
  split
  · exact State.setAs_of_regs rfl
  · exact State.kalStatus_setAs _ rfl _

/-- Beside KAL_STATUS it touches the pipeline alone. -/
theorem State.serving_keeps (s : State) (p n : Nat) : (s.serving p n).eye.cams = s.eye.cams ∧
    (s.serving p n).fresh = s.fresh ∧ (s.serving p n).dram = s.dram := by
  rw [State.serving, State.setFld_eye, State.setFld_fresh, State.setFld_dram, State.setPipe_cams, State.setPipe_fresh,
    State.setPipe_dram, State.switchedTo]
  split
  · exact ⟨rfl, rfl, rfl⟩
  · exact ⟨congrArg CaptureUnit.cams (State.bump_eye ..), State.bump_fresh .., State.bump_dram ..⟩

theorem State.serving_now (s : State) (p n : Nat) : (s.serving p n).fld (Reg.KAL_STATUS_NOW p) = n % 6 :=
  State.fld_setFld (Fld.fits_of_decide rfl) ((Nat.mod_lt n (by decide)).trans (by show 6 < 2 ^ 3; decide))

theorem State.SetAs.share (h : t.SetAs s) (hp : p < 8) :
    t.flag (Reg.KAL_CTRL_SHARE p) = s.flag (Reg.KAL_CTRL_SHARE p) := State.flag_of_fld (h.kalCtrl hp rfl)

/-! The rotation. -/

theorem State.nextPort_serves (hp : p < 8) (h : s.nextPort p = some n) :
    n < 24 ∧ n / 6 = p / 2 ∧ s.pipeOf n = p ∧ s.unitWaits p n = true := by
  have hwait := List.find?_some h
  obtain ⟨i, -, rfl⟩ := List.mem_map.mp (List.mem_of_find?_eq_some h)
  rw [Bool.and_eq_true, beq_iff_eq] at hwait
  exact ⟨by omega, by omega, hwait⟩

/-- A port of the pipeline with a unit of work is served, wherever the rotation stands. -/
theorem State.nextPort_isSome (hq : n / 6 = p / 2) (hpipe : s.pipeOf n = p) (hw : s.unitWaits p n = true) :
    (s.nextPort p).isSome = true := by
  rw [State.nextPort, List.find?_isSome]
  refine ⟨n, List.mem_map.mpr ⟨(n % 6 + (6 - (tabGet ({} : Pipe) s.eye.pipes p).last % 6)) % 6,
    List.mem_range.mpr (Nat.mod_lt _ (by decide)), by omega⟩, ?_⟩
  rw [hpipe, hw, beq_self_eq_true, Bool.and_self]

theorem State.unitWaits_of_buf (hs : s.flag (Reg.KAL_CTRL_SHARE p) = false) (hb : (s.cam n).buf ≠ []) :
    s.unitWaits p n = true := by
  rw [State.unitWaits]
  split
  · contradiction
  · rw [hs]
    rfl

/-! The samples counted (R203). -/

theorem State.countSamples_cams (s : State) (p m : Nat) : (s.countSamples p m).eye.cams = s.eye.cams := by
  rw [State.countSamples, State.bump_eye]

theorem State.countSamples_setAs (s : State) (p m : Nat) : (s.countSamples p m).SetAs s :=
  (State.setFld_setAs (settingReg_kalShown (o := 0x18) (by decide))).trans (State.setAs_of_regs rfl)

theorem State.countSamples_status (s : State) (p m : Nat) {f : Fld} (hf : f.addr = Reg.KAL_STATUS p) :
    (s.countSamples p m).fld f = s.fld f := by
  refine (State.fld_of_reg (State.reg_setFld_other ?_)).trans rfl
  rw [hf]
  show 0x19000c + 0x20 * p ≠ 0x190018 + 0x20 * p
  omega

/-! One stripe. -/

/-- The oldest line's part read, and its samples counted. -/
def State.stripeRead (s : State) (p n c m : Nat) : State := (s.readLine n c 256).countSamples p m

theorem State.stripe_part {l : CapLine} {rest : List CapLine}
    (hb : ((s.readLine n (s.cam n).col 256).cam n).buf = l :: rest)
    (hc : ((s.readLine n (s.cam n).col 256).cam n).col + 256 < (l.rows.getD 0 []).length) : ∃ m, s.stripe p n =
      (s.stripeRead p n (s.cam n).col m).setCam n { (s.stripeRead p n (s.cam n).col m).cam n with
        col := ((s.readLine n (s.cam n).col 256).cam n).col + 256 } := by
  rw [State.stripe]
  dsimp only
  rw [hb]
  exact ⟨_, if_pos hc⟩

theorem State.stripe_last {l : CapLine} {rest : List CapLine}
    (hb : ((s.readLine n (s.cam n).col 256).cam n).buf = l :: rest)
    (hc : (l.rows.getD 0 []).length ≤ ((s.readLine n (s.cam n).col 256).cam n).col + 256) : ∃ m, s.stripe p n =
      (s.stripeRead p n (s.cam n).col m).lineDone n := by
  rw [State.stripe]
  dsimp only
  rw [hb]
  exact ⟨_, if_neg (Nat.not_lt.mpr hc)⟩

theorem execStripeProcess_serves (hp : p < 8) (h : s.nextPort p = some n)
    (hs : s.flag (Reg.KAL_CTRL_SHARE p) = false) : execStripeProcess p s = .next
      (((s.serving p n).stripe p n).setFlag (Reg.KAL_STATUS_BUSY p) (((s.serving p n).stripe p n).nextPort p).isSome) := by
  have hs' : ¬(s.serving p n).flag (Reg.KAL_CTRL_SHARE p) = true := by
    rw [(State.serving_setAs s p n).share hp, hs]
    exact Bool.false_ne_true
  rw [execStripeProcess, if_neg (Nat.not_le.mpr hp), h]
  dsimp only
  rw [← State.switchedTo, ← State.setPipe, ← State.serving, if_neg hs']

/-- The part read under the rotation's bookkeeping leaves the ports as the same part read without it. -/
theorem State.serving_reads (hn : n < 24) : ∃ u : State,
    u = (s.serving p n).readLine n ((s.serving p n).cam n).col 256 ∧ u.SetAs s ∧
      u.cam n = (s.readLine n (s.cam n).col 256).cam n := by
  obtain ⟨hcams, hfresh, hdram⟩ := s.serving_keeps p n
  refine ⟨_, rfl, (State.readLine_setAs ..).trans (State.serving_setAs ..), ?_⟩
  rw [State.cam_of_cams hcams]
  exact State.cam_of_cams (State.readLine_cams hn (State.serving_setAs ..) hcams hfresh hdram ..) n

theorem State.readLine_col (s : State) (n c w : Nat) : ((s.readLine n c w).cam n).col = (s.cam n).col :=
  (congrArg Cam.col (s.readLine_unmarked n c w n) :)

/-- A part that is not the line's last: the port goes on where it ends. -/
theorem execStripeProcess_part {l : CapLine} {rest : List CapLine} (hp : p < 8) (h : s.nextPort p = some n)
    (hs : s.flag (Reg.KAL_CTRL_SHARE p) = false) (hb : (s.cam n).buf = l :: rest)
    (hc : (s.cam n).col + 256 < (l.rows.getD 0 []).length) : ∃ t, execStripeProcess p s = .next t ∧
      t.cam n = { (s.readLine n (s.cam n).col 256).cam n with col := (s.cam n).col + 256 } ∧
      t.fld (Reg.KAL_STATUS_NOW p) = n % 6 ∧ t.fld (Reg.KAL_STATUS_BUSY p) = 1 := by
  obtain ⟨hn, hq, hpipe, -⟩ := State.nextPort_serves hp h
  obtain ⟨u, hu, hset, hcam⟩ := State.serving_reads (s := s) (p := p) hn
  have hcol : (u.cam n).col = (s.cam n).col := by rw [hcam, State.readLine_col]
  have hrows : (u.cam n).buf.map CapLine.rows = l.rows :: rest.map CapLine.rows := by
    rw [hcam, State.readLine_rows, hb, List.map_cons]
  obtain ⟨l', rest', hb', hl', -⟩ := List.map_eq_cons_iff.mp hrows
  obtain ⟨m, hstripe⟩ := State.stripe_part (p := p) (s := s.serving p n) (by rw [← hu]; exact hb')
    (by rw [← hu, hcol, hl']; exact hc)
  rw [State.stripeRead, ← hu] at hstripe
  have hread : (u.countSamples p m).cam n = u.cam n := State.cam_of_cams (State.countSamples_cams ..) n
  have hdone : (((s.serving p n).stripe p n).cam n) = { u.cam n with col := (s.cam n).col + 256 } := by
    rw [hstripe, State.cam_setCam, hread, hcol]
  have hsets : ((s.serving p n).stripe p n).SetAs s := by
    rw [hstripe]
    exact (State.setCam_setAs ..).trans ((State.countSamples_setAs ..).trans hset)
  have hnow : ((s.serving p n).stripe p n).fld (Reg.KAL_STATUS_NOW p) = n % 6 := by
    rw [hstripe, State.fld_of_reg (State.setCam_reg ..), State.countSamples_status _ _ _ rfl, hu,
      State.readLine_fld (Fld.fits_of_decide rfl) (by show 0x19000c + 0x20 * p < 0x290000; omega), State.serving_now]
  have hwaits : (((s.serving p n).stripe p n).nextPort p).isSome = true :=
    State.nextPort_isSome hq ((hsets.pipeOf hn).trans hpipe)
      (State.unitWaits_of_buf ((hsets.share hp).trans hs) (by rw [hdone, hb']; exact List.cons_ne_nil _ _))
  refine ⟨_, execStripeProcess_serves hp h hs, ?_, ?_, ?_⟩
  · rw [State.cam_of_eye (State.setFlag_eye ..), hdone, hcam]
  · rw [State.fld_setFlag_clear (Fld.clearOf_of_bits (by rfl)), hnow]
  · rw [State.fld_setFlag (Fld.fits_of_decide rfl), hwaits]
    rfl

/-- The line's last part: the line, corrected, joins the port's input. -/
theorem execStripeProcess_last {l : CapLine} {rest : List CapLine} {base : Int} (hp : p < 8) (h : s.nextPort p = some n)
    (hs : s.flag (Reg.KAL_CTRL_SHARE p) = false) (hb : ((s.readLine n (s.cam n).col 256).cam n).buf = l :: rest)
    (hc : (l.rows.getD 0 []).length ≤ (s.cam n).col + 256) (hg : s.onGrid n = true)
    (he : s.flag Reg.JIG_CTRL_ENABLE = true) (hbase : base = (s.cam n).base.getD l.trig.pos) (hd : s.spacing n ≠ 0)
    (hm : (l.trig.pos - base) % (s.spacing n : Int) = 0) : ∃ t, execStripeProcess p s = .next t ∧
      (t.cam n).buf = rest ∧ (t.cam n).col = 0 ∧ (t.cam n).base = some base ∧
      (t.cam n).input = (s.cam n).input ++ [((l.trig.pos - base) / (s.spacing n : Int), (s.kalSet n l).line l)] := by
  obtain ⟨hn, -, -, -⟩ := State.nextPort_serves hp h
  obtain ⟨u, hu, hset, hcam⟩ := State.serving_reads (s := s) (p := p) hn
  have hcol : (u.cam n).col = (s.cam n).col := by rw [hcam, State.readLine_col]
  obtain ⟨m, hstripe⟩ := State.stripe_last (p := p) (s := s.serving p n) (by rw [← hu, hcam]; exact hb)
    (by rw [← hu, hcol]; exact hc)
  rw [State.stripeRead, ← hu] at hstripe
  have hread : (u.countSamples p m).cam n = (s.readLine n (s.cam n).col 256).cam n :=
    (State.cam_of_cams (State.countSamples_cams ..) n).trans hcam
  have hsets : (u.countSamples p m).SetAs s := (State.countSamples_setAs ..).trans hset
  have hport : ((u.countSamples p m).cam n).unmarked = (s.cam n).unmarked := by rw [hread, State.readLine_unmarked]
  have hgrid : (u.countSamples p m).onGrid n = s.onGrid n :=
    State.onGrid_of_sets (congrArg Cam.rs hport :) (congrArg Cam.rsPend hport :) (congrArg Cam.rsStaged hport :)
  have hbase' : ((u.countSamples p m).cam n).base = (s.cam n).base := (congrArg Cam.base hport :)
  have hinput : ((u.countSamples p m).cam n).input = (s.cam n).input := (congrArg Cam.input hport :)
  have hspacing := hsets.spacing hn
  have hdone := State.lineDone_input (base := base) hn (by rw [hread]; exact hb) (hgrid.trans hg)
    (hsets.jigEnable.trans he) (by rw [hbase']; exact hbase) (by rw [hspacing]; exact hd) (by rw [hspacing]; exact hm)
  rw [← hstripe, hspacing, hinput, hsets.kalSet hn hport] at hdone
  refine ⟨_, execStripeProcess_serves hp h hs, ?_⟩
  rw [State.cam_of_eye (State.setFlag_eye ..)]
  exact hdone

end

end Sys2Proof.Machine

/-! The statement. -/
namespace Sys2Proof.Machine

theorem Reg.rsmpStatus_not_answerRegs {r : Nat} (hr : r < 8) : Reg.RSMP_STATUS r ∉ answerRegs := by
  simp only [answerRegs, Reg.RSMP_STATUS, Reg.PLAT_STATE, Reg.CMD_STATUS, Reg.ETH_CNT_FRAMES, List.mem_cons,
    List.not_mem_nil, or_false, not_or]
  omega

/-- Settles O46: a stripe by the part of the line that it reads, a grid line by its window, a set and a table by what
waits. -/
theorem pipelineCommandsComplete : Obligations.PipelineCommandsComplete := by
  refine ⟨?idle, ?part, ?last, ?makes, ?waits, ?pdat, ?applyNow, ?applyWaits, ?swap, ?coef⟩
  case idle =>
    intro s p hp hnone
    refine ⟨s.setFld (Reg.KAL_STATUS_BUSY p) 0, ?_, State.fld_setFld_oneBit (Fld.fits_of_decide rfl) rfl (by decide),
      State.setFld_eye .., fun a ha => State.reg_setFld_other ha⟩
    show execStripeProcess p s = _
    rw [execStripeProcess, if_neg (Nat.not_le.mpr hp), hnone]
  case part =>
    rintro s r p n l rest hp h hs hb hc rfl
    exact execStripeProcess_part hp h hs hb hc
  case last =>
    rintro s r p n l rest base hp h hs rfl hb hc hg he hbase hd hm
    exact execStripeProcess_last hp h hs hb hc hg he hbase hd hm
  case makes =>
    intro s n m y t0 hn hg he ht hd hm hp hc hsw hy h0 hseen
    refine ⟨_, execResampleLine_makes hn hg he ht hd hm hp hc hsw hy h0 hseen, ?_, ?_⟩
    · rw [State.lineMade_cam]
      rfl
    · rw [State.lineMade_cam]
      rfl
  case waits =>
    intro s n m t0 p hn hg he ht hd hm hp hseen
    exact execResampleLine_waits hn hg he ht hd hm hp hseen
  case pdat =>
    intro s u v hw ha hu hp
    refine ⟨s.rsmpPdat u v, ?_, ?_, ?_, fun a ha => State.reg_setFld_other ha⟩
    · show execRsmpPdatWrite u v s = _
      rw [execRsmpPdatWrite, if_pos (by rw [hw, hp, decide_eq_true hu]; rfl), State.orLater_awake ha]
    · rw [State.rsmpPdat, State.bumpWrap, State.cam_setFld, State.cam_setCam]
    · exact State.fld_setFld (Fld.fits_of_decide rfl) (Nat.mod_lt _ (by show 0 < 16; decide))
  case applyNow =>
    intro s u hw ha hu hk hrs hst
    refine ⟨s.rsmpApply (s.rsmpPort u), ?_, ?_, ?_⟩
    · exact execRsmpApply_applies hw ha hu hk
    · rw [State.rsmpApply_now hrs hst, State.cam_setCam]
    · rw [State.rsmpApply_now hrs hst]
      rfl
  case applyWaits =>
    intro s u hw ha hu hk hcols
    refine ⟨s.rsmpApply (s.rsmpPort u), execRsmpApply_applies hw ha hu hk, ?_, fun a hne => ?_⟩
    · rw [State.rsmpApply_waits hcols, State.cam_of_eye (State.showTabPend_eye _), State.cam_setCam]
    · rw [State.rsmpApply_waits hcols]
      exact (State.reg_setFld_other hne).trans rfl
  case swap =>
    intro s u hw ha hu hp
    refine ⟨s.setFld (Reg.RSMP_STATUS_SWAP_PEND u) 1, ?_,
      State.fld_setFld_oneBit (Fld.fits_of_decide rfl) rfl (by decide), State.setFld_eye ..,
      fun a hne => State.reg_setFld_other hne⟩
    show execRsmpSwap u s = _
    rw [execRsmpSwap, if_pos (by rw [hw, decide_eq_true hu]; rfl), State.orLater_awake ha, State.rsmpSwap, if_pos hp]
  case coef =>
    intro s rq c tb h hi hsw hj hok hauto
    refine ⟨_, execResampleCoefLoad_whole h hi hsw hj hok hauto, ?_, ?_, ?_⟩
    · refine State.table_answered h ?_
      rw [State.coefWaits_cmd, State.coefCommitting_sessions]
    · rw [State.rsmp_of_eye (State.rest_eye (State.finish_lift_rest ..)), State.coefWaits_rsmp,
        State.rsmp_of_eye State.coefCommitting_eye]
    · rw [State.fld_of_reg (State.finish_lift_reg (Reg.rsmpStatus_not_answerRegs hi) ..)]
      exact State.fld_setFld_oneBit (Fld.fits_of_decide rfl) rfl (by decide)

end Sys2Proof.Machine
